-- ==== Sys2Proof/Word.lean ====
section
/-! DEFINITION. The word types of the BX1632 (R7, R8). -/

namespace Sys2Proof

/-- The byte, the smallest addressable unit (R8). -/
abbrev Byte := BitVec 8

/-- A 16-bit word: a binary16 value, an activation record field. -/
abbrev HWord := BitVec 16

/-- A 32-bit word: a register, an INT32 accumulator, a binary32 value. -/
abbrev Word := BitVec 32

/-- A 64-bit word: a wide register, a counter, a link DATA word. -/
abbrev DWord := BitVec 64

end Sys2Proof
end

