-- ==== Sys2Proof/Machine/Maps.lean ====
section
/-! DEFINITION. Finite maps as sorted lists of key and value, and small list helpers. One canonical form: keys strictly
rising. Every sparse table of the device (registers, memory, marks, objects, handles) is held this way. -/

namespace Sys2Proof.Machine

/-- A finite map from Nat keys, as a list of pairs with rising keys. -/
abbrev FMap (α : Type) := List (Nat × α)

/-- The value at a key. -/
def mget {α : Type} : FMap α → Nat → Option α
  | [], _ => none
  | (k, v) :: m, a => if a = k then some v else mget m a

/-- The value at a key, or a default. -/
def mgetD {α : Type} (m : FMap α) (a : Nat) (dflt : α) : α := (mget m a).getD dflt

/-- Store a value at a key, keeping the keys in rising order. -/
def mput {α : Type} : FMap α → Nat → α → FMap α
  | [], a, v => [(a, v)]
  | (k, w) :: m, a, v =>
    if a < k then (a, v) :: (k, w) :: m
    else if a = k then (a, v) :: m
    else (k, w) :: mput m a v

/-- Remove a key. -/
def mdel {α : Type} (m : FMap α) (a : Nat) : FMap α := m.filter (fun p => p.1 != a)

/-- Change the value at a key, a missing one standing for the default. -/
def mupd {α : Type} (m : FMap α) (a : Nat) (dflt : α) (f : α → α) : FMap α := mput m a (f (mgetD m a dflt))

/-- Does the map hold the key? -/
def mhas {α : Type} (m : FMap α) (a : Nat) : Bool := (mget m a).isSome

/-- Map over the values. -/
def mmap {α β : Type} (m : FMap α) (f : Nat → α → β) : FMap β := m.map (fun p => (p.1, f p.1 p.2))

/-- The keys rise strictly: the canonical form. -/
abbrev Rising {α : Type} (m : FMap α) : Prop := (m.map Prod.fst).Pairwise (· < ·)

/-- The lowest natural number below `n` that satisfies a test. -/
def findBelow (n : Nat) (p : Nat → Bool) : Option Nat := (List.range n).find? p

/-- How many numbers below `n` satisfy a test. -/
def countBelow (n : Nat) (p : Nat → Bool) : Nat := ((List.range n).filter p).length

/-- Fold a state change over a list, from its head. -/
def forEach {α σ : Type} (l : List α) (f : α → σ → σ) (s : σ) : σ := l.foldl (fun st x => f x st) s

/-- Fold a state change over `0 … n - 1` in rising order. -/
def forN {σ : Type} (n : Nat) (f : Nat → σ → σ) (s : σ) : σ := forEach (List.range n) f s

/-- `n` bytes of a number, lowest first (R8). -/
def leBytes : Nat → Nat → List Byte
  | 0, _ => []
  | n + 1, v => BitVec.ofNat 8 v :: leBytes n (v / 256)

/-- The number whose bytes are given lowest first (R8). -/
def leNat : List Byte → Nat
  | [] => 0
  | b :: bs => b.toNat + 256 * leNat bs

/-- The `n` bytes at offset `o` of a byte string, read as a number; missing bytes read as 0. -/
def fieldAt (bs : List Byte) (o n : Nat) : Nat := leNat ((bs.drop o).take n)

/-- Bits `[hi:lo]` of a number (R7). -/
def bitsOf (v hi lo : Nat) : Nat := v / 2 ^ lo % 2 ^ (hi + 1 - lo)

/-- Bit `i` of a number. -/
def bitAt (v i : Nat) : Bool := v.testBit i

/-- `v` with bit `i` set to `b`. -/
def setBit (v i : Nat) (b : Bool) : Nat := if v.testBit i = b then v else v ^^^ (2 ^ i)

/-- Cut a list into pieces of `k` (the last may be shorter); `fuel` bounds the pieces. -/
def chunksOf {α : Type} (k : Nat) : Nat → List α → List (List α)
  | 0, _ => []
  | _, [] => []
  | fuel + 1, l => l.take k :: chunksOf k fuel (l.drop k)

/-- Pad a list on the right with `x` to length `n`. -/
def padTo {α : Type} (n : Nat) (x : α) (l : List α) : List α := l ++ List.replicate (n - l.length) x

/-- The quotient rounded up. -/
def ceilDiv (a b : Nat) : Nat := (a + b - 1) / b

end Sys2Proof.Machine
end

