-- ==== Sys2Proof/Machine/Regs.lean ====
section
/-! DEFINITION. The register map: every register of the manual's register tables (spec 01 to 20), its local address,
reset value and fields with their access codes (R7, R9, R16, R32, R794). Generated from the manual's tables. -/

namespace Sys2Proof.Machine

/-- One register of the local map: its local address and its reset value (R16). -/
structure Reg where
  addr : Nat
  reset : BitVec 64
deriving DecidableEq, Repr

/-- A bit field `[lo + len - 1 : lo]` of a register (R7). -/
structure Fld where
  lo : Nat
  len : Nat
deriving DecidableEq, Repr

/-- The access codes of R9. -/
inductive Acc where
  | ro | rw | wo | rw1c | w1s | rc | rwl
deriving DecidableEq, Repr

/-- One field of a register's table: where it lies and its access code. -/
structure FldDesc where
  fld : Fld
  acc : Acc
deriving DecidableEq, Repr

/-- One row of the register map: `n1` instances `s1` apart (a block or window index), each with `n2` registers `s2` apart. -/
structure RegDesc where
  name : String
  base : Nat
  n1 : Nat
  s1 : Nat
  n2 : Nat
  s2 : Nat
  width : Nat
  reset : BitVec 64
  flds : List FldDesc
deriving DecidableEq, Repr

def Reg.SYS_ID : Reg := ⟨0x10000000, 0x16320101⟩
def Reg.SYS_NODE : Reg := ⟨0x10000004, 0x0⟩
def Reg.SYS_DRAM_TOP : Reg := ⟨0x10000008, 0x0⟩
def Reg.SYS_TMO : Reg := ⟨0x10000010, 0x64⟩
def Reg.SYS_BERR_STAT : Reg := ⟨0x10000018, 0x0⟩
def Reg.SYS_BERR_ADDR : Reg := ⟨0x10000020, 0x0⟩
def Reg.SYS_BERR_CNT : Reg := ⟨0x10000028, 0x0⟩
def Reg.PMU_REQ : Reg := ⟨0x10010000, 0x0⟩
def Reg.PMU_STAT : Reg := ⟨0x10010004, 0x0⟩
def Reg.PMU_CTL : Reg := ⟨0x10010008, 0x2⟩
def Reg.PMU_IDLE_DLY : Reg := ⟨0x1001000c, 0x64⟩
def Reg.PMU_HS_TMO : Reg := ⟨0x10010010, 0x32⟩
def Reg.PMU_WAKE_EN : Reg := ⟨0x10010020, 0x0⟩
def Reg.PMU_WAKE_PEND : Reg := ⟨0x10010024, 0x0⟩
def Reg.PMU_WAKE_CAUSE : Reg := ⟨0x10010028, 0x0⟩
def Reg.PMU_AGENT_ACC : Reg := ⟨0x10010030, 0x0⟩
def Reg.PMU_AGENT_DLY : Reg := ⟨0x10010038, 0x0⟩
def Reg.PMU_DOM_STAT : Reg := ⟨0x10010040, 0x3⟩
def Reg.PMU_FAULT : Reg := ⟨0x10010048, 0x0⟩
def Reg.PMU_RESUME : Reg := ⟨0x10010050, 0x0⟩
def Reg.AON_TIME : Reg := ⟨0x10020000, 0x0⟩
def Reg.FAST_TIME : Reg := ⟨0x10020008, 0x0⟩
def Reg.AON_RATIO : Reg := ⟨0x10020010, 0x493e0000000⟩
def Reg.AON_RC_RATIO : Reg := ⟨0x10020018, 0x4b000000000⟩
def Reg.TIME_STAT : Reg := ⟨0x10020020, 0x15⟩
def Reg.AON_FRAC : Reg := ⟨0x10020024, 0x0⟩
def Reg.AON_CAL : Reg := ⟨0x10020028, 0x40000400⟩
def Reg.AON_CAL_PPM : Reg := ⟨0x1002002c, 0x27100014⟩
def Reg.AON_STOP_AT : Reg := ⟨0x10020030, 0x0⟩
def Reg.AON_START_AT : Reg := ⟨0x10020038, 0x0⟩
def Reg.AON_FAST_SAVED : Reg := ⟨0x10020040, 0x0⟩
def Reg.AON_FB_AT : Reg := ⟨0x10020048, 0x0⟩
def Reg.AON_CLK : Reg := ⟨0x10020050, 0x0⟩
def Reg.AON_ALARM (n : Nat) : Reg := ⟨0x10020080 + n * 0x10, 0x0⟩
def Reg.AON_ALARM_CTL (n : Nat) : Reg := ⟨0x10020088 + n * 0x10, 0x0⟩
def Reg.IC_CTL : Reg := ⟨0x10030000, 0x0⟩
def Reg.IC_STAT : Reg := ⟨0x10030004, 0x0⟩
def Reg.IC_AM_SEQ : Reg := ⟨0x10030008, 0x0⟩
def Reg.IC_SETPEND : Reg := ⟨0x10030010, 0x0⟩
def Reg.IC_CLRPEND : Reg := ⟨0x10030014, 0x0⟩
def Reg.IC_PEND (n : Nat) : Reg := ⟨0x10030100 + n * 0x4, 0x0⟩
def Reg.IC_EN (n : Nat) : Reg := ⟨0x10030200 + n * 0x4, 0x0⟩
def Reg.IC_ACT (n : Nat) : Reg := ⟨0x10030300 + n * 0x4, 0x0⟩
def Reg.IC_SRCCFG (n : Nat) : Reg := ⟨0x10031000 + n * 0x4, 0xf⟩
def Reg.IC_PMR (k : Nat) : Reg := ⟨0x10034000 + k * 0x40, 0x10⟩
def Reg.IC_RPR (k : Nat) : Reg := ⟨0x10034004 + k * 0x40, 0x10⟩
def Reg.IC_HPPI (k : Nat) : Reg := ⟨0x10034008 + k * 0x40, 0x3ff⟩
def Reg.IC_EOI (k : Nat) : Reg := ⟨0x1003400c + k * 0x40, 0x0⟩
def Reg.IC_VBAR (k : Nat) : Reg := ⟨0x10034010 + k * 0x40, 0x0⟩
def Reg.IC_SPUR (k : Nat) : Reg := ⟨0x10034018 + k * 0x40, 0x0⟩
def Reg.TM_CTL : Reg := ⟨0x10040000, 0x1⟩
def Reg.TM_STAT : Reg := ⟨0x10040004, 0x4000⟩
def Reg.TM_CMD (n : Nat) : Reg := ⟨0x10040010 + n * 0x8, 0x0⟩
def Reg.TM_CMD_GO : Reg := ⟨0x10040030, 0x0⟩
def Reg.TM_CMD_STAT : Reg := ⟨0x10040034, 0x0⟩
def Reg.TM_OBJ_IDX : Reg := ⟨0x10040040, 0x0⟩
def Reg.TM_OBJ_ENT (n : Nat) : Reg := ⟨0x10040048 + n * 0x8, 0x0⟩
def Reg.TM_OBJ_RDCNT : Reg := ⟨0x10040068, 0x0⟩
def Reg.TM_T1_FREE : Reg := ⟨0x10040070, 0x4000400⟩
def Reg.TM_T0_FREE (n : Nat) : Reg := ⟨0x10040080 + n * 0x4, 0x0⟩
def Reg.TM_HOT_INT : Reg := ⟨0x100400c0, 0xa⟩
def Reg.TM_HOT_BUDGET : Reg := ⟨0x100400c4, 0x100⟩
def Reg.TM_TILES_UP : Reg := ⟨0x10040100, 0x0⟩
def Reg.TM_TILES_WB : Reg := ⟨0x10040108, 0x0⟩
def Reg.TM_CONFLICT_CNT : Reg := ⟨0x10040110, 0x0⟩
def Reg.TM_XLATE_ERR : Reg := ⟨0x10040114, 0x0⟩
def Reg.TM_XLATE_LOG : Reg := ⟨0x10040118, 0x0⟩
def Reg.LE_CTL : Reg := ⟨0x10050000, 0x3⟩
def Reg.LE_STAT : Reg := ⟨0x10050004, 0x0⟩
def Reg.LE_ERR : Reg := ⟨0x10050008, 0x0⟩
def Reg.LE_TMO : Reg := ⟨0x1005000c, 0x64⟩
def Reg.LE_DRAM_BASE : Reg := ⟨0x10050010, 0x0⟩
def Reg.LE_DRAM_SIZE : Reg := ⟨0x10050018, 0x0⟩
def Reg.LE_NVME_SQ : Reg := ⟨0x10050020, 0x0⟩
def Reg.LE_NVME_CQ : Reg := ⟨0x10050028, 0x0⟩
def Reg.LE_NVME_SQDB : Reg := ⟨0x10050030, 0x0⟩
def Reg.LE_NVME_CQDB : Reg := ⟨0x10050038, 0x0⟩
def Reg.LE_NVME_CFG : Reg := ⟨0x10050040, 0x0⟩
def Reg.LE_PATROL_INT : Reg := ⟨0x10050044, 0x18⟩
def Reg.LE_PATROL_RATE : Reg := ⟨0x10050048, 0x3e8⟩
def Reg.LE_PATROL_LAP : Reg := ⟨0x1005004c, 0x0⟩
def Reg.LE_PROGRESS : Reg := ⟨0x10050050, 0x0⟩
def Reg.LE_PATROL_CNT : Reg := ⟨0x10050058, 0x0⟩
def Reg.LE_FREE (n : Nat) : Reg := ⟨0x10050080 + n * 0x4, 0x0⟩
def Reg.LE_EXT_IDX : Reg := ⟨0x100500c0, 0x0⟩
def Reg.LE_EXT_OWNER : Reg := ⟨0x100500c4, 0x0⟩
def Reg.LE_EXT_DATA : Reg := ⟨0x100500c8, 0x0⟩
def Reg.LE_EXT_TILE : Reg := ⟨0x100500d0, 0x0⟩
def Reg.SYNC_STAT : Reg := ⟨0x10060000, 0x0⟩
def Reg.SYNC_OVF_CNT : Reg := ⟨0x10060004, 0x0⟩
def Reg.SYNC_WATCH : Reg := ⟨0x10060008, 0x0⟩
def Reg.SYNC_CENSUS_TMO : Reg := ⟨0x10060010, 0x3e8⟩
def Reg.SYNC_CENSUS_STAT : Reg := ⟨0x10060014, 0x0⟩
def Reg.SYNC_CENSUS_MIN : Reg := ⟨0x10060018, 0x0⟩
def Reg.SYNC_CENSUS_MAX : Reg := ⟨0x10060020, 0x0⟩
def Reg.ARB_FW_VER : Reg := ⟨0x10070000, 0x0⟩
def Reg.ARB_STAT : Reg := ⟨0x10070004, 0x0⟩
def Reg.ARB_BOOT_CFG : Reg := ⟨0x10070010, 0x0⟩
def Reg.ARB_RECOV_CTL : Reg := ⟨0x10070100, 0x303⟩
def Reg.ARB_RECOV_STAT : Reg := ⟨0x10070104, 0x0⟩
def Reg.ARB_RELOAD_RETRY : Reg := ⟨0x10070108, 0x3c⟩
def Reg.ARB_HELD : Reg := ⟨0x1007010c, 0x0⟩
def Reg.ARB_HOLD_IDX : Reg := ⟨0x10070110, 0x0⟩
def Reg.ARB_HOLD_ENT : Reg := ⟨0x10070118, 0x0⟩
def Reg.ARB_HOLD_CTL : Reg := ⟨0x10070120, 0x0⟩
def Reg.ARB_HEALTH : Reg := ⟨0x10070128, 0x0⟩
def Reg.ARB_MIGRATE : Reg := ⟨0x10070130, 0x0⟩
def Reg.ARB_QUAR : Reg := ⟨0x10070134, 0x0⟩
def Reg.ARB_SCORE_STAT : Reg := ⟨0x10070200, 0x0⟩
def Reg.ARB_SCORE_SEQ : Reg := ⟨0x10070204, 0x0⟩
def Reg.ARB_SCORE_FLUSH : Reg := ⟨0x10070208, 0x0⟩
def Reg.ARB_SCORE_FLUSH_TMO : Reg := ⟨0x1007020c, 0xa⟩
def Reg.ARB_SCORE_POST (n : Nat) : Reg := ⟨0x10070210 + n * 0x8, 0x0⟩
def Reg.ARB_SCORE_POST_CTL : Reg := ⟨0x10070230, 0x0⟩
def Reg.ARB_SCORE_LOST : Reg := ⟨0x10070234, 0x0⟩
def Reg.ARB_CASTLE_HOLD : Reg := ⟨0x10070400, 0x258⟩
def Reg.ARB_CASTLE_TMO : Reg := ⟨0x10070404, 0x1f4⟩
def Reg.ARB_SLOT_IDX : Reg := ⟨0x10070408, 0x0⟩
def Reg.ARB_SLOT_CTL : Reg := ⟨0x1007040c, 0x0⟩
def Reg.ARB_SLOT_STAT : Reg := ⟨0x10070410, 0x0⟩
def Reg.ARB_SIDE_REF_K : Reg := ⟨0x10070414, 0x0⟩
def Reg.ARB_SIDE_REF_Q : Reg := ⟨0x10070418, 0x0⟩
def Reg.ARB_HOLD_LEFT : Reg := ⟨0x1007041c, 0x0⟩
def Reg.ARB_SLOT_SWITCH : Reg := ⟨0x10070420, 0x0⟩
def Reg.ARB_SLOT_SEQ : Reg := ⟨0x10070428, 0x0⟩
def Reg.ARB_SLOT_LIVE : Reg := ⟨0x10070430, 0x0⟩
def Reg.ARB_SLOT_UNAVAIL : Reg := ⟨0x10070438, 0x0⟩
def Reg.ARB_SESSIONS : Reg := ⟨0x10070440, 0x0⟩
def Reg.ARB_HOLD_DONE : Reg := ⟨0x10070448, 0x0⟩
def Reg.ARB_TR_STAT : Reg := ⟨0x10070500, 0x0⟩
def Reg.ARB_TR_STEP : Reg := ⟨0x10070504, 0x0⟩
def Reg.ARB_TR_T : Reg := ⟨0x10070508, 0x0⟩
def Reg.ARB_TR_GCLIP : Reg := ⟨0x1007050c, 0x0⟩
def Reg.ARB_TR_NONFIN : Reg := ⟨0x10070510, 0x0⟩
def Reg.INTG_CTL : Reg := ⟨0x10080000, 0x401⟩
def Reg.INTG_SCRUB_EN : Reg := ⟨0x10080008, 0x77ffff⟩
def Reg.INTG_SEL : Reg := ⟨0x10080010, 0x0⟩
def Reg.INTG_CNT : Reg := ⟨0x10080018, 0x0⟩
def Reg.INTG_LOG_STAT : Reg := ⟨0x10080020, 0x0⟩
def Reg.INTG_LOG_IDX : Reg := ⟨0x10080024, 0x0⟩
def Reg.INTG_LOG_ENT : Reg := ⟨0x10080028, 0x0⟩
def Reg.INTG_LAP : Reg := ⟨0x10080030, 0x0⟩
def Reg.INTG_SCRUB_POS : Reg := ⟨0x10080038, 0x0⟩
def Reg.INTG_LAP_TMO : Reg := ⟨0x10080040, 0xe10⟩
def Reg.INTG_UE_SEQ : Reg := ⟨0x10080080, 0x0⟩
def Reg.INTG_UE_IDX : Reg := ⟨0x10080084, 0x0⟩
def Reg.INTG_UE_ENT0 : Reg := ⟨0x10080088, 0x0⟩
def Reg.INTG_UE_ENT1 : Reg := ⟨0x10080090, 0x0⟩
def Reg.INTG_UE_ENT2 : Reg := ⟨0x10080098, 0x0⟩
def Reg.INTG_PC_STAT : Reg := ⟨0x100800a0, 0x0⟩
def Reg.INTG_PC_INFO : Reg := ⟨0x100800a4, 0x0⟩
def Reg.INTG_PC_ADDR : Reg := ⟨0x100800a8, 0x0⟩
def Reg.INTG_PC_CNT : Reg := ⟨0x100800b0, 0x0⟩
def Reg.INTG_FLIP : Reg := ⟨0x10080100, 0x0⟩
def Reg.KEY_BOOT_STAT : Reg := ⟨0x10090000, 0x0⟩
def Reg.KEY_SLOT_STAT : Reg := ⟨0x10090008, 0x55⟩
def Reg.KEY_HASH (n : Nat) : Reg := ⟨0x10090040 + n * 0x8, 0x0⟩
def Reg.KEY_REC_ADDR : Reg := ⟨0x10090080, 0x0⟩
def Reg.KEY_FUSE_CTL : Reg := ⟨0x10090088, 0x0⟩
def Reg.KEY_STAT : Reg := ⟨0x1009008c, 0x0⟩
def Reg.KEY_NONCE (n : Nat) : Reg := ⟨0x100900c0 + n * 0x8, 0x0⟩
def Reg.KEY_ATT_DST : Reg := ⟨0x10090100, 0x0⟩
def Reg.KEY_ATT_CTL : Reg := ⟨0x10090108, 0x0⟩
def Reg.KEY_RST : Reg := ⟨0x10090110, 0x0⟩
def Reg.KEY_RECOVER : Reg := ⟨0x10090114, 0x0⟩
def Reg.KEY_CTL : Reg := ⟨0x10090118, 0x1⟩
def Reg.DDR_CTL : Reg := ⟨0x100a0000, 0x0⟩
def Reg.DDR_IRQ_STAT : Reg := ⟨0x100a0004, 0x0⟩
def Reg.DDR_IRQ_EN : Reg := ⟨0x100a0008, 0x0⟩
def Reg.DDR_STAT : Reg := ⟨0x100a000c, 0x0⟩
def Reg.DDR_CFG : Reg := ⟨0x100a0010, 0x102⟩
def Reg.DDR_TRAIN_TMO : Reg := ⟨0x100a0014, 0x1f4⟩
def Reg.IMG_CTL : Reg := ⟨0x100b0000, 0x0⟩
def Reg.IMG_SRC : Reg := ⟨0x100b0008, 0x0⟩
def Reg.IMG_SRC_LEN : Reg := ⟨0x100b0010, 0x0⟩
def Reg.IMG_LOAD : Reg := ⟨0x100b0014, 0x0⟩
def Reg.IMG_LOAD_STAT : Reg := ⟨0x100b0018, 0x0⟩
def Reg.IMG_ERR_OFF : Reg := ⟨0x100b001c, 0x0⟩
def Reg.IMG_SLOT_STAT : Reg := ⟨0x100b0020, 0x0⟩
def Reg.IMG_EPOCH_A : Reg := ⟨0x100b0024, 0x0⟩
def Reg.IMG_EPOCH_B : Reg := ⟨0x100b0028, 0x0⟩
def Reg.IMG_EPOCH_MIN : Reg := ⟨0x100b002c, 0x0⟩
def Reg.IMG_ACT_CTL : Reg := ⟨0x100b0030, 0x0⟩
def Reg.IMG_ACT_TMO : Reg := ⟨0x100b0034, 0x1f4⟩
def Reg.IMG_ACT_STAT : Reg := ⟨0x100b0038, 0x0⟩
def Reg.IMG_CONST_BASE : Reg := ⟨0x100b0040, 0x0⟩
def Reg.IMG_DIGEST_A (n : Nat) : Reg := ⟨0x100b0100 + n * 0x8, 0x0⟩
def Reg.IMG_DIGEST_B (n : Nat) : Reg := ⟨0x100b0140 + n * 0x8, 0x0⟩
def Reg.IMG_DIGEST_ACT (n : Nat) : Reg := ⟨0x100b0180 + n * 0x8, 0x0⟩
def Reg.IMG_FP : Reg := ⟨0x100b01c0, 0x0⟩
def Reg.IMG_FP_SEQ : Reg := ⟨0x100b01c8, 0x0⟩
def Reg.RING_PROG_INT : Reg := ⟨0x100c0000, 0x64⟩
def Reg.RING_CPL_TMO : Reg := ⟨0x100c0004, 0xa⟩
def Reg.RING_OP_IDX : Reg := ⟨0x100c0008, 0x0⟩
def Reg.RING_OP_ENT : Reg := ⟨0x100c0010, 0x0⟩
def Reg.RING_ENTRY_ERR : Reg := ⟨0x100c0018, 0x0⟩
def Reg.RING_CMD_BASE (k : Nat) : Reg := ⟨0x100c1000 + k * 0x40, 0x0⟩
def Reg.RING_CPL_BASE (k : Nat) : Reg := ⟨0x100c1008 + k * 0x40, 0x0⟩
def Reg.RING_CFG (k : Nat) : Reg := ⟨0x100c1010 + k * 0x40, 0x0⟩
def Reg.RING_CMD_HEAD (k : Nat) : Reg := ⟨0x100c1014 + k * 0x40, 0x0⟩
def Reg.RING_CMD_TAIL (k : Nat) : Reg := ⟨0x100c1018 + k * 0x40, 0x0⟩
def Reg.RING_CPL_HEAD (k : Nat) : Reg := ⟨0x100c101c + k * 0x40, 0x0⟩
def Reg.RING_CPL_TAIL (k : Nat) : Reg := ⟨0x100c1020 + k * 0x40, 0x0⟩
def Reg.RING_MOD (k : Nat) : Reg := ⟨0x100c1024 + k * 0x40, 0x1⟩
def Reg.RING_STAT (k : Nat) : Reg := ⟨0x100c1028 + k * 0x40, 0x0⟩
def Reg.ENG_CTL (k : Nat) : Reg := ⟨0x10100000 + 0x10000 * k, 0x1⟩
def Reg.ENG_STAT (k : Nat) : Reg := ⟨0x10100004 + 0x10000 * k, 0x1⟩
def Reg.ENG_RELOC (k : Nat) : Reg := ⟨0x10100008 + 0x10000 * k, 0x0⟩
def Reg.ENG_LOOKAHEAD (k : Nat) : Reg := ⟨0x1010000c + 0x10000 * k, 0x0⟩
def Reg.ENG_DRAIN_TMO (k : Nat) : Reg := ⟨0x10100010 + 0x10000 * k, 0x3e8⟩
def Reg.ENG_WAIT_TMO (k : Nat) : Reg := ⟨0x10100014 + 0x10000 * k, 0x64⟩
def Reg.ENG_WAIT_STAT (k : Nat) : Reg := ⟨0x10100018 + 0x10000 * k, 0x0⟩
def Reg.ENG_FIRE_TMO (k : Nat) : Reg := ⟨0x1010001c + 0x10000 * k, 0xa⟩
def Reg.ENG_FIRE_CNT (k : Nat) : Reg := ⟨0x10100040 + 0x10000 * k, 0x0⟩
def Reg.ENG_MX_BUSY (k : Nat) : Reg := ⟨0x10100048 + 0x10000 * k, 0x0⟩
def Reg.ENG_STALL_WS (k : Nat) : Reg := ⟨0x10100050 + 0x10000 * k, 0x0⟩
def Reg.ENG_STALL_IN (k : Nat) : Reg := ⟨0x10100058 + 0x10000 * k, 0x0⟩
def Reg.ENG_STALL_CRED (k : Nat) : Reg := ⟨0x10100060 + 0x10000 * k, 0x0⟩
def Reg.ENG_STALL_WAIT (k : Nat) : Reg := ⟨0x10100068 + 0x10000 * k, 0x0⟩
def Reg.QZ_ACC_SAT (k : Nat) : Reg := ⟨0x10100800 + 0x10000 * k, 0x0⟩
def Reg.QZ_AMAX (k n : Nat) : Reg := ⟨0x10100900 + 0x10000 * k + n * 0x4, 0x0⟩
def Reg.QZ_EXT (k n : Nat) : Reg := ⟨0x10100a00 + 0x10000 * k + n * 0x8, 0x800000007fffffff⟩
def Reg.QZ_SCALE (k n : Nat) : Reg := ⟨0x10100c00 + 0x10000 * k + n * 0x10, 0x0⟩
def Reg.QZ_STAT (k n : Nat) : Reg := ⟨0x10100c04 + 0x10000 * k + n * 0x10, 0x0⟩
def Reg.QZ_SAT_CNT (k n : Nat) : Reg := ⟨0x10100c08 + 0x10000 * k + n * 0x10, 0x0⟩
def Reg.QZ_RANGE_CNT (k n : Nat) : Reg := ⟨0x10100c0c + 0x10000 * k + n * 0x10, 0x0⟩
def Reg.FIFO_POOL : Reg := ⟨0x10200000, 0x0⟩
def Reg.FIFO_PIN_STAT : Reg := ⟨0x10200004, 0xff⟩
def Reg.FIFO_STARVE_TMO : Reg := ⟨0x10200008, 0xa⟩
def Reg.FIFO_PIN_HOLD : Reg := ⟨0x1020000c, 0x64⟩
def Reg.FIFO_BIND (k : Nat) : Reg := ⟨0x10210000 + k * 0x40, 0x0⟩
def Reg.FIFO_CFG (k : Nat) : Reg := ⟨0x10210008 + k * 0x40, 0x0⟩
def Reg.FIFO_WM (k : Nat) : Reg := ⟨0x1021000c + k * 0x40, 0x0⟩
def Reg.FIFO_STAT (k : Nat) : Reg := ⟨0x10210010 + k * 0x40, 0x0⟩
def Reg.FIFO_PKT (k : Nat) : Reg := ⟨0x10210014 + k * 0x40, 0x0⟩
def Reg.FIFO_ERR (k : Nat) : Reg := ⟨0x10210018 + k * 0x40, 0x0⟩
def Reg.FIFO_MAXOCC (k : Nat) : Reg := ⟨0x1021001c + k * 0x40, 0x0⟩
def Reg.FIFO_ITEMS (k : Nat) : Reg := ⟨0x10210020 + k * 0x40, 0x0⟩
def Reg.ARY_CMD_ARG (k : Nat) : Reg := ⟨0x10300000 + 0x10000 * k, 0x0⟩
def Reg.ARY_PW (k : Nat) : Reg := ⟨0x10300008 + 0x10000 * k, 0x0⟩
def Reg.ARY_STAT (k : Nat) : Reg := ⟨0x10300010 + 0x10000 * k, 0x0⟩
def Reg.ARY_OPSTAT (k n : Nat) : Reg := ⟨0x10300020 + 0x10000 * k + n * 0x4, 0x0⟩
def Reg.ARY_SEQ_TMO (k : Nat) : Reg := ⟨0x10300040 + 0x10000 * k, 0x64⟩
def Reg.ARY_PB_TMO (k : Nat) : Reg := ⟨0x10300044 + 0x10000 * k, 0xa⟩
def Reg.ARY_RETIRE (k : Nat) : Reg := ⟨0x10300048 + 0x10000 * k, 0x0⟩
def Reg.ARY_WEAR_LOG (k : Nat) : Reg := ⟨0x10300050 + 0x10000 * k, 0x0⟩
def Reg.ARY_REGION (k : Nat) : Reg := ⟨0x10300058 + 0x10000 * k, 0x0⟩
def Reg.ARY_PSEC_PROT (k n : Nat) : Reg := ⟨0x10300060 + 0x10000 * k + n * 0x8, 0x0⟩
def Reg.ARY_FAIL_CNT (k : Nat) : Reg := ⟨0x10300070 + 0x10000 * k, 0x0⟩
def Reg.ARY_GEOM (k : Nat) : Reg := ⟨0x10300200 + 0x10000 * k, 0x0⟩
def Reg.ARY_RD_CTL (k : Nat) : Reg := ⟨0x10300204 + 0x10000 * k, 0x3⟩
def Reg.ARY_RD_SLOT (k : Nat) : Reg := ⟨0x10300208 + 0x10000 * k, 0x1f4⟩
def Reg.ARY_RD_TMO (k : Nat) : Reg := ⟨0x1030020c + 0x10000 * k, 0xa⟩
def Reg.ARY_RD_STAT (k : Nat) : Reg := ⟨0x10300210 + 0x10000 * k, 0x0⟩
def Reg.ARY_CE_THRESH (k : Nat) : Reg := ⟨0x10300214 + 0x10000 * k, 0x30⟩
def Reg.ARY_CE_LOG (k : Nat) : Reg := ⟨0x10300218 + 0x10000 * k, 0x0⟩
def Reg.ARY_CW_MAX (k : Nat) : Reg := ⟨0x10300220 + 0x10000 * k, 0x0⟩
def Reg.ARY_CE_BITS (k : Nat) : Reg := ⟨0x10300228 + 0x10000 * k, 0x0⟩
def Reg.ARY_RETRY_CNT (k : Nat) : Reg := ⟨0x10300230 + 0x10000 * k, 0x0⟩
def Reg.ARY_INNER_UE (k : Nat) : Reg := ⟨0x10300234 + 0x10000 * k, 0x0⟩
def Reg.ARY_UE_CNT (k : Nat) : Reg := ⟨0x10300238 + 0x10000 * k, 0x0⟩
def Reg.ARY_SUSP_CNT (k : Nat) : Reg := ⟨0x1030023c + 0x10000 * k, 0x0⟩
def Reg.ARY_SENSE_CNT (k : Nat) : Reg := ⟨0x10300240 + 0x10000 * k, 0x0⟩
def Reg.TL_CTL (k : Nat) : Reg := ⟨0x10400000 + 0x10000 * k, 0xffff000c⟩
def Reg.TL_STAT (k : Nat) : Reg := ⟨0x10400004 + 0x10000 * k, 0x0⟩
def Reg.TL_NBR (k : Nat) : Reg := ⟨0x10400008 + 0x10000 * k, 0x0⟩
def Reg.TL_NBR_FP (k : Nat) : Reg := ⟨0x10400010 + 0x10000 * k, 0x0⟩
def Reg.TL_TRAIN_TMO (k : Nat) : Reg := ⟨0x10400018 + 0x10000 * k, 0x64⟩
def Reg.TL_RETRY (k : Nat) : Reg := ⟨0x1040001c + 0x10000 * k, 0x80007d0⟩
def Reg.TL_FC_TMO (k : Nat) : Reg := ⟨0x10400020 + 0x10000 * k, 0x64⟩
def Reg.TL_CRC_CNT (k : Nat) : Reg := ⟨0x10400030 + 0x10000 * k, 0x0⟩
def Reg.TL_REPLAY_CNT (k : Nat) : Reg := ⟨0x10400034 + 0x10000 * k, 0x0⟩
def Reg.TL_RETRAIN_CNT (k : Nat) : Reg := ⟨0x10400038 + 0x10000 * k, 0x0⟩
def Reg.TL_WAKE_CNT (k : Nat) : Reg := ⟨0x1040003c + 0x10000 * k, 0x0⟩
def Reg.TL_DROP_CNT (k : Nat) : Reg := ⟨0x10400040 + 0x10000 * k, 0x0⟩
def Reg.TL_TX_FLITS (k : Nat) : Reg := ⟨0x10400048 + 0x10000 * k, 0x0⟩
def Reg.TL_RX_FLITS (k : Nat) : Reg := ⟨0x10400050 + 0x10000 * k, 0x0⟩
def Reg.TL_TORUS : Reg := ⟨0x10400800, 0x0⟩
def Reg.TL_FP_SETTLE : Reg := ⟨0x10400804, 0x14⟩
def Reg.TL_RT_COL (n : Nat) : Reg := ⟨0x10400810 + n * 0x4, 0x0⟩
def Reg.TL_RT_ROW (n : Nat) : Reg := ⟨0x10400830 + n * 0x4, 0x0⟩
def Reg.TL_ROUTE_ERR : Reg := ⟨0x10400850, 0x0⟩
def Reg.PCIE_CTL : Reg := ⟨0x10500000, 0x5400064⟩
def Reg.PCIE_IRQ_STAT : Reg := ⟨0x10500004, 0x0⟩
def Reg.PCIE_IRQ_EN : Reg := ⟨0x10500008, 0x0⟩
def Reg.PCIE_STAT : Reg := ⟨0x1050000c, 0x0⟩
def Reg.PCIE_MSIX_EN : Reg := ⟨0x10500010, 0x0⟩
def Reg.PCIE_BAR2_XLAT : Reg := ⟨0x10500018, 0x1000000000⟩
def Reg.PCIE_EP_CNT : Reg := ⟨0x10500020, 0x0⟩
def Reg.PCIE_CFG_ERR : Reg := ⟨0x10500024, 0x0⟩
def Reg.ETH_CTL (k : Nat) : Reg := ⟨0x10510000 + 0x10000 * k, 0x24000000⟩
def Reg.ETH_IRQ_STAT (k : Nat) : Reg := ⟨0x10510004 + 0x10000 * k, 0x0⟩
def Reg.ETH_IRQ_EN (k : Nat) : Reg := ⟨0x10510008 + 0x10000 * k, 0x0⟩
def Reg.ETH_STAT (k : Nat) : Reg := ⟨0x1051000c + 0x10000 * k, 0x0⟩
def Reg.ETH_MAC (k : Nat) : Reg := ⟨0x10510010 + 0x10000 * k, 0x0⟩
def Reg.ETH_RX_BASE (k : Nat) : Reg := ⟨0x10510018 + 0x10000 * k, 0x0⟩
def Reg.ETH_TX_BASE (k : Nat) : Reg := ⟨0x10510020 + 0x10000 * k, 0x0⟩
def Reg.ETH_RING_CFG (k : Nat) : Reg := ⟨0x10510028 + 0x10000 * k, 0x40004⟩
def Reg.ETH_RX_HEAD (k : Nat) : Reg := ⟨0x1051002c + 0x10000 * k, 0x0⟩
def Reg.ETH_RX_TAIL (k : Nat) : Reg := ⟨0x10510030 + 0x10000 * k, 0x0⟩
def Reg.ETH_TX_HEAD (k : Nat) : Reg := ⟨0x10510034 + 0x10000 * k, 0x0⟩
def Reg.ETH_TX_TAIL (k : Nat) : Reg := ⟨0x10510038 + 0x10000 * k, 0x0⟩
def Reg.ETH_DROP (k : Nat) : Reg := ⟨0x10510040 + 0x10000 * k, 0x0⟩
def Reg.ETH_FCS_ERR (k : Nat) : Reg := ⟨0x10510044 + 0x10000 * k, 0x0⟩
def Reg.ETH_TX_ERR (k : Nat) : Reg := ⟨0x10510048 + 0x10000 * k, 0x0⟩
def Reg.USB_CTL : Reg := ⟨0x10530000, 0x40000000⟩
def Reg.USB_IRQ_STAT : Reg := ⟨0x10530004, 0x0⟩
def Reg.USB_IRQ_EN : Reg := ⟨0x10530008, 0x0⟩
def Reg.USB_STAT : Reg := ⟨0x1053000c, 0x0⟩
def Reg.USB_ID : Reg := ⟨0x10530010, 0x0⟩
def Reg.USB_OUT_BASE : Reg := ⟨0x10530018, 0x0⟩
def Reg.USB_IN_BASE : Reg := ⟨0x10530020, 0x0⟩
def Reg.USB_RING_CFG : Reg := ⟨0x10530028, 0x40004⟩
def Reg.USB_OUT_HEAD : Reg := ⟨0x1053002c, 0x0⟩
def Reg.USB_OUT_TAIL : Reg := ⟨0x10530030, 0x0⟩
def Reg.USB_IN_HEAD : Reg := ⟨0x10530034, 0x0⟩
def Reg.USB_IN_TAIL : Reg := ⟨0x10530038, 0x0⟩
def Reg.USB_ERR : Reg := ⟨0x10530040, 0x0⟩
def Reg.CSI_CTL (k : Nat) : Reg := ⟨0x10540000 + 0x10000 * k, 0x2a0000⟩
def Reg.CSI_IRQ_STAT (k : Nat) : Reg := ⟨0x10540004 + 0x10000 * k, 0x0⟩
def Reg.CSI_IRQ_EN (k : Nat) : Reg := ⟨0x10540008 + 0x10000 * k, 0x0⟩
def Reg.CSI_LIM_MIN (k : Nat) : Reg := ⟨0x10540010 + 0x10000 * k, 0x0⟩
def Reg.CSI_LIM_MAX (k : Nat) : Reg := ⟨0x10540014 + 0x10000 * k, 0xc001000⟩
def Reg.CSI_FB_BASE (k : Nat) : Reg := ⟨0x10540018 + 0x10000 * k, 0x0⟩
def Reg.CSI_FB_CFG (k : Nat) : Reg := ⟨0x10540020 + 0x10000 * k, 0x0⟩
def Reg.CSI_FB_REL (k : Nat) : Reg := ⟨0x10540024 + 0x10000 * k, 0x0⟩
def Reg.CSI_FB_USE (k : Nat) : Reg := ⟨0x10540028 + 0x10000 * k, 0x0⟩
def Reg.CSI_FB_MAP (k : Nat) : Reg := ⟨0x10540030 + 0x10000 * k, 0x0⟩
def Reg.CSI_FRAME_TMO (k : Nat) : Reg := ⟨0x10540038 + 0x10000 * k, 0x64⟩
def Reg.CSI_DROP_NOBUF (k : Nat) : Reg := ⟨0x10540040 + 0x10000 * k, 0x0⟩
def Reg.CSI_DROP_RANGE (k : Nat) : Reg := ⟨0x10540044 + 0x10000 * k, 0x0⟩
def Reg.CSI_DROP_TMO (k : Nat) : Reg := ⟨0x10540048 + 0x10000 * k, 0x0⟩
def Reg.CSI_DROP_BP (k : Nat) : Reg := ⟨0x1054004c + 0x10000 * k, 0x0⟩
def Reg.CSI_FRAMES (k : Nat) : Reg := ⟨0x10540050 + 0x10000 * k, 0x0⟩
def Reg.TDM_CTL : Reg := ⟨0x10580000, 0x0⟩
def Reg.TDM_IRQ_STAT : Reg := ⟨0x10580004, 0x0⟩
def Reg.TDM_IRQ_EN : Reg := ⟨0x10580008, 0x0⟩
def Reg.TDM_PKT : Reg := ⟨0x1058000c, 0xf0⟩
def Reg.TDM_RING_BASE : Reg := ⟨0x10580010, 0x0⟩
def Reg.TDM_RING_CFG : Reg := ⟨0x10580018, 0x0⟩
def Reg.TDM_RING_SIZE : Reg := ⟨0x10580020, 0x0⟩
def Reg.TDM_RING_FILL : Reg := ⟨0x10580024, 0x0⟩
def Reg.TDM_VAD : Reg := ⟨0x10580028, 0x0⟩
def Reg.TDM_DROP : Reg := ⟨0x10580030, 0x0⟩
def Reg.TDM_FS_ERR : Reg := ⟨0x10580034, 0x0⟩
def Reg.GPIO_OUT : Reg := ⟨0x10590000, 0x0⟩
def Reg.GPIO_IRQ_STAT : Reg := ⟨0x10590004, 0x0⟩
def Reg.GPIO_IRQ_EN : Reg := ⟨0x10590008, 0x0⟩
def Reg.GPIO_IN : Reg := ⟨0x1059000c, 0x0⟩
def Reg.GPIO_FC_SEL : Reg := ⟨0x10590010, 0x40404040⟩
def Reg.GPIO_DIR : Reg := ⟨0x10590014, 0x0⟩
def Reg.GPIO_FILT : Reg := ⟨0x10590018, 0x5⟩
def Reg.GPIO_WAKE_POL : Reg := ⟨0x1059001c, 0x0⟩
def Reg.CPU_HOLD : Reg := ⟨0x10600000, 0xff⟩
def Reg.CPU_ENTRY : Reg := ⟨0x10600008, 0x0⟩
def Reg.CPU_STAT : Reg := ⟨0x10600010, 0x0⟩
def Reg.CPU_FREQ : Reg := ⟨0x10600014, 0x7d0⟩

def F.SYS_ID_ARCH : Fld := ⟨16, 16⟩
def F.SYS_ID_DIE_REV : Fld := ⟨8, 8⟩
def F.SYS_ID_MAP_REV : Fld := ⟨0, 8⟩
def F.SYS_NODE_LOCK : Fld := ⟨31, 1⟩
def F.SYS_NODE_DEV_ID : Fld := ⟨0, 12⟩
def F.SYS_DRAM_TOP_TOP : Fld := ⟨0, 36⟩
def F.SYS_TMO_TMO_US : Fld := ⟨0, 20⟩
def F.SYS_BERR_STAT_VALID : Fld := ⟨31, 1⟩
def F.SYS_BERR_STAT_OVER : Fld := ⟨30, 1⟩
def F.SYS_BERR_STAT_CAUSE : Fld := ⟨20, 4⟩
def F.SYS_BERR_STAT_MASTER : Fld := ⟨8, 8⟩
def F.SYS_BERR_STAT_WRITE : Fld := ⟨7, 1⟩
def F.SYS_BERR_ADDR_ADDR : Fld := ⟨0, 53⟩
def F.SYS_BERR_CNT_OVF : Fld := ⟨31, 1⟩
def F.SYS_BERR_CNT_COUNT : Fld := ⟨0, 31⟩
def F.PMU_REQ_GO : Fld := ⟨31, 1⟩
def F.PMU_REQ_TARGET : Fld := ⟨0, 3⟩
def F.PMU_STAT_BUSY : Fld := ⟨31, 1⟩
def F.PMU_STAT_PHASE : Fld := ⟨28, 3⟩
def F.PMU_STAT_REQ_REJ : Fld := ⟨27, 1⟩
def F.PMU_STAT_STATE : Fld := ⟨24, 3⟩
def F.PMU_STAT_TARGET : Fld := ⟨20, 3⟩
def F.PMU_STAT_AGENT : Fld := ⟨8, 6⟩
def F.PMU_STAT_LAST : Fld := ⟨0, 3⟩
def F.PMU_CTL_AUTO_RUN : Fld := ⟨1, 1⟩
def F.PMU_CTL_AUTO_IDLE : Fld := ⟨0, 1⟩
def F.PMU_IDLE_DLY_US : Fld := ⟨0, 16⟩
def F.PMU_HS_TMO_MS : Fld := ⟨0, 16⟩
def F.PMU_WAKE_EN_SRC : Fld := ⟨0, 15⟩
def F.PMU_WAKE_PEND_SRC : Fld := ⟨0, 15⟩
def F.PMU_WAKE_CAUSE_VALID : Fld := ⟨31, 1⟩
def F.PMU_WAKE_CAUSE_SRC : Fld := ⟨0, 4⟩
def F.PMU_AGENT_ACC_AGENT : Fld := ⟨0, 45⟩
def F.PMU_AGENT_DLY_AGENT : Fld := ⟨0, 45⟩
def F.PMU_DOM_STAT_S : Fld := ⟨32, 16⟩
def F.PMU_DOM_STAT_E : Fld := ⟨16, 16⟩
def F.PMU_DOM_STAT_LINK : Fld := ⟨5, 4⟩
def F.PMU_DOM_STAT_IO : Fld := ⟨4, 1⟩
def F.PMU_DOM_STAT_MEM : Fld := ⟨3, 1⟩
def F.PMU_DOM_STAT_APP : Fld := ⟨2, 1⟩
def F.PMU_DOM_STAT_SYS : Fld := ⟨1, 1⟩
def F.PMU_DOM_STAT_AON : Fld := ⟨0, 1⟩
def F.PMU_FAULT_VALID : Fld := ⟨31, 1⟩
def F.PMU_FAULT_OVER : Fld := ⟨30, 1⟩
def F.PMU_FAULT_KIND : Fld := ⟨8, 1⟩
def F.PMU_FAULT_DOMAIN : Fld := ⟨0, 6⟩
def F.PMU_RESUME_ADDR : Fld := ⟨0, 40⟩
def F.AON_TIME_COUNT : Fld := ⟨0, 64⟩
def F.FAST_TIME_COUNT : Fld := ⟨0, 64⟩
def F.AON_RATIO_RATIO : Fld := ⟨0, 64⟩
def F.AON_RC_RATIO_RATIO : Fld := ⟨0, 64⟩
def F.TIME_STAT_SRC_CHANGED : Fld := ⟨31, 1⟩
def F.TIME_STAT_SRC : Fld := ⟨30, 1⟩
def F.TIME_STAT_RC_CAL : Fld := ⟨29, 1⟩
def F.TIME_STAT_ERR_PPM : Fld := ⟨0, 20⟩
def F.AON_FRAC_FRAC : Fld := ⟨0, 32⟩
def F.AON_CAL_GO : Fld := ⟨31, 1⟩
def F.AON_CAL_ON_WAKE : Fld := ⟨30, 1⟩
def F.AON_CAL_BUSY : Fld := ⟨29, 1⟩
def F.AON_CAL_WINDOW : Fld := ⟨0, 16⟩
def F.AON_CAL_PPM_RC_PPM : Fld := ⟨16, 16⟩
def F.AON_CAL_PPM_XTAL_PPM : Fld := ⟨0, 16⟩
def F.AON_STOP_AT_COUNT : Fld := ⟨0, 64⟩
def F.AON_START_AT_COUNT : Fld := ⟨0, 64⟩
def F.AON_FAST_SAVED_COUNT : Fld := ⟨0, 64⟩
def F.AON_FB_AT_COUNT : Fld := ⟨0, 64⟩
def F.AON_CLK_RETRY : Fld := ⟨31, 1⟩
def F.AON_CLK_FB_COUNT : Fld := ⟨0, 16⟩
def F.AON_ALARM_COMPARE : Fld := ⟨0, 64⟩
def F.AON_ALARM_CTL_FIRED : Fld := ⟨1, 1⟩
def F.AON_ALARM_CTL_ARM : Fld := ⟨0, 1⟩
def F.IC_CTL_EN : Fld := ⟨0, 1⟩
def F.IC_STAT_MASK_RACE : Fld := ⟨31, 1⟩
def F.IC_STAT_EOI_ERR : Fld := ⟨30, 1⟩
def F.IC_STAT_BAD_ID : Fld := ⟨29, 1⟩
def F.IC_STAT_RACE_ID : Fld := ⟨0, 9⟩
def F.IC_AM_SEQ_SEQ : Fld := ⟨0, 32⟩
def F.IC_SETPEND_ID : Fld := ⟨0, 10⟩
def F.IC_CLRPEND_ID : Fld := ⟨0, 10⟩
def F.IC_PEND_BITS : Fld := ⟨0, 32⟩
def F.IC_EN_BITS : Fld := ⟨0, 32⟩
def F.IC_ACT_BITS : Fld := ⟨0, 32⟩
def F.IC_SRCCFG_WAKE : Fld := ⟨17, 1⟩
def F.IC_SRCCFG_ONESHOT : Fld := ⟨16, 1⟩
def F.IC_SRCCFG_TARGET : Fld := ⟨8, 3⟩
def F.IC_SRCCFG_PRIO : Fld := ⟨0, 4⟩
def F.IC_PMR_PMR : Fld := ⟨0, 5⟩
def F.IC_RPR_RPR : Fld := ⟨0, 5⟩
def F.IC_HPPI_ID : Fld := ⟨0, 10⟩
def F.IC_EOI_ID : Fld := ⟨0, 10⟩
def F.IC_VBAR_BASE : Fld := ⟨16, 24⟩
def F.IC_SPUR_OVF : Fld := ⟨31, 1⟩
def F.IC_SPUR_COUNT : Fld := ⟨0, 31⟩
def F.TM_CTL_HOT_EN : Fld := ⟨2, 1⟩
def F.TM_CTL_EN : Fld := ⟨0, 1⟩
def F.TM_STAT_BUSY : Fld := ⟨31, 1⟩
def F.TM_STAT_RUNNING : Fld := ⟨24, 4⟩
def F.TM_STAT_QUEUED : Fld := ⟨16, 8⟩
def F.TM_STAT_FREE_OBJ : Fld := ⟨0, 15⟩
def F.TM_CMD_DESC : Fld := ⟨0, 64⟩
def F.TM_CMD_GO_GO : Fld := ⟨0, 1⟩
def F.TM_CMD_STAT_BUSY : Fld := ⟨31, 1⟩
def F.TM_CMD_STAT_DONE : Fld := ⟨30, 1⟩
def F.TM_CMD_STAT_OBJ : Fld := ⟨16, 14⟩
def F.TM_CMD_STAT_CODE : Fld := ⟨0, 8⟩
def F.TM_OBJ_IDX_INDEX : Fld := ⟨0, 14⟩
def F.TM_OBJ_ENT_ENTRY : Fld := ⟨0, 64⟩
def F.TM_OBJ_RDCNT_COUNT : Fld := ⟨0, 32⟩
def F.TM_T1_FREE_LARGEST : Fld := ⟨16, 11⟩
def F.TM_T1_FREE_FREE : Fld := ⟨0, 11⟩
def F.TM_T0_FREE_LARGEST : Fld := ⟨16, 9⟩
def F.TM_T0_FREE_FREE : Fld := ⟨0, 9⟩
def F.TM_HOT_INT_MS : Fld := ⟨0, 16⟩
def F.TM_HOT_BUDGET_FRAMES : Fld := ⟨0, 11⟩
def F.TM_TILES_UP_COUNT : Fld := ⟨0, 64⟩
def F.TM_TILES_WB_COUNT : Fld := ⟨0, 64⟩
def F.TM_CONFLICT_CNT_OVF : Fld := ⟨31, 1⟩
def F.TM_CONFLICT_CNT_CANCELLED : Fld := ⟨16, 15⟩
def F.TM_CONFLICT_CNT_DEFERRED : Fld := ⟨0, 16⟩
def F.TM_XLATE_ERR_OVF : Fld := ⟨31, 1⟩
def F.TM_XLATE_ERR_COUNT : Fld := ⟨0, 31⟩
def F.TM_XLATE_LOG_VALID : Fld := ⟨63, 1⟩
def F.TM_XLATE_LOG_OVER : Fld := ⟨62, 1⟩
def F.TM_XLATE_LOG_WRITE : Fld := ⟨61, 1⟩
def F.TM_XLATE_LOG_ENGINE : Fld := ⟨52, 4⟩
def F.TM_XLATE_LOG_OBJ : Fld := ⟨32, 14⟩
def F.TM_XLATE_LOG_TILE : Fld := ⟨0, 32⟩
def F.LE_CTL_PATROL_EN : Fld := ⟨1, 1⟩
def F.LE_CTL_EN : Fld := ⟨0, 1⟩
def F.LE_STAT_BUSY : Fld := ⟨31, 1⟩
def F.LE_STAT_PHASE : Fld := ⟨28, 3⟩
def F.LE_STAT_SIDE : Fld := ⟨27, 1⟩
def F.LE_STAT_SLOT : Fld := ⟨20, 6⟩
def F.LE_STAT_PROGRAMMING : Fld := ⟨16, 4⟩
def F.LE_STAT_CODE : Fld := ⟨0, 8⟩
def F.LE_ERR_VALID : Fld := ⟨31, 1⟩
def F.LE_ERR_SHARD : Fld := ⟨0, 12⟩
def F.LE_TMO_TMO_MS : Fld := ⟨0, 16⟩
def F.LE_DRAM_BASE_VALUE : Fld := ⟨0, 40⟩
def F.LE_DRAM_SIZE_VALUE : Fld := ⟨0, 40⟩
def F.LE_NVME_SQ_ADDR : Fld := ⟨0, 53⟩
def F.LE_NVME_CQ_ADDR : Fld := ⟨0, 53⟩
def F.LE_NVME_SQDB_ADDR : Fld := ⟨0, 53⟩
def F.LE_NVME_CQDB_ADDR : Fld := ⟨0, 53⟩
def F.LE_NVME_CFG_VALID : Fld := ⟨31, 1⟩
def F.LE_NVME_CFG_LBA_SHIFT : Fld := ⟨24, 4⟩
def F.LE_NVME_CFG_DEPTH : Fld := ⟨0, 16⟩
def F.LE_PATROL_INT_HOURS : Fld := ⟨0, 16⟩
def F.LE_PATROL_RATE_MBPS : Fld := ⟨0, 16⟩
def F.LE_PATROL_LAP_SECONDS : Fld := ⟨0, 32⟩
def F.LE_PROGRESS_ELIGIBLE : Fld := ⟨32, 32⟩
def F.LE_PROGRESS_ARRIVED_MB : Fld := ⟨0, 32⟩
def F.LE_PATROL_CNT_OVF : Fld := ⟨31, 1⟩
def F.LE_PATROL_CNT_COUNT : Fld := ⟨0, 31⟩
def F.LE_FREE_BROKEN : Fld := ⟨16, 16⟩
def F.LE_FREE_WHOLE : Fld := ⟨0, 16⟩
def F.LE_EXT_IDX_INDEX : Fld := ⟨0, 14⟩
def F.LE_EXT_OWNER_VALID : Fld := ⟨31, 1⟩
def F.LE_EXT_OWNER_SIDE : Fld := ⟨30, 1⟩
def F.LE_EXT_OWNER_SLOT : Fld := ⟨24, 6⟩
def F.LE_EXT_OWNER_SHARD : Fld := ⟨0, 12⟩
def F.LE_EXT_DATA_DRAM : Fld := ⟨63, 1⟩
def F.LE_EXT_DATA_TILES : Fld := ⟨40, 23⟩
def F.LE_EXT_DATA_STACK : Fld := ⟨36, 4⟩
def F.LE_EXT_DATA_LOC : Fld := ⟨0, 36⟩
def F.LE_EXT_TILE_FIRST : Fld := ⟨0, 17⟩
def F.SYNC_STAT_OVF_SEEN : Fld := ⟨31, 1⟩
def F.SYNC_STAT_TYPE_ERR : Fld := ⟨30, 1⟩
def F.SYNC_STAT_POISON_OP : Fld := ⟨29, 1⟩
def F.SYNC_STAT_OBJ : Fld := ⟨0, 16⟩
def F.SYNC_OVF_CNT_OVF : Fld := ⟨31, 1⟩
def F.SYNC_OVF_CNT_COUNT : Fld := ⟨0, 31⟩
def F.SYNC_WATCH_USED : Fld := ⟨0, 11⟩
def F.SYNC_CENSUS_TMO_HOP_NS : Fld := ⟨0, 16⟩
def F.SYNC_CENSUS_STAT_BUSY : Fld := ⟨31, 1⟩
def F.SYNC_CENSUS_STAT_CODE : Fld := ⟨16, 8⟩
def F.SYNC_CENSUS_STAT_COUNT : Fld := ⟨0, 13⟩
def F.SYNC_CENSUS_MIN_HI : Fld := ⟨32, 32⟩
def F.SYNC_CENSUS_MIN_LO : Fld := ⟨0, 32⟩
def F.SYNC_CENSUS_MAX_HI : Fld := ⟨32, 32⟩
def F.SYNC_CENSUS_MAX_LO : Fld := ⟨0, 32⟩
def F.ARB_FW_VER_VERSION : Fld := ⟨0, 32⟩
def F.ARB_STAT_READY : Fld := ⟨31, 1⟩
def F.ARB_STAT_RESTARTED : Fld := ⟨30, 1⟩
def F.ARB_BOOT_CFG_GO : Fld := ⟨63, 1⟩
def F.ARB_BOOT_CFG_DONE : Fld := ⟨62, 1⟩
def F.ARB_BOOT_CFG_REJ : Fld := ⟨61, 1⟩
def F.ARB_BOOT_CFG_COMPAT_EN : Fld := ⟨53, 1⟩
def F.ARB_BOOT_CFG_CONST_BASE : Fld := ⟨0, 40⟩
def F.ARB_RECOV_CTL_REPLAY_MAX : Fld := ⟨8, 8⟩
def F.ARB_RECOV_CTL_RETRY_NOW : Fld := ⟨2, 1⟩
def F.ARB_RECOV_CTL_MIGRATE_EN : Fld := ⟨1, 1⟩
def F.ARB_RECOV_CTL_REENABLE_EN : Fld := ⟨0, 1⟩
def F.ARB_RECOV_STAT_BUSY : Fld := ⟨31, 1⟩
def F.ARB_RECOV_STAT_ACTION : Fld := ⟨28, 3⟩
def F.ARB_RECOV_STAT_SLOT : Fld := ⟨22, 6⟩
def F.ARB_RECOV_STAT_SIDE : Fld := ⟨21, 1⟩
def F.ARB_RECOV_STAT_SHARD : Fld := ⟨8, 12⟩
def F.ARB_RECOV_STAT_CODE : Fld := ⟨0, 8⟩
def F.ARB_RELOAD_RETRY_SECONDS : Fld := ⟨0, 16⟩
def F.ARB_HELD_COUNT : Fld := ⟨0, 11⟩
def F.ARB_HOLD_IDX_INDEX : Fld := ⟨0, 10⟩
def F.ARB_HOLD_ENT_VALID : Fld := ⟨63, 1⟩
def F.ARB_HOLD_ENT_REASON : Fld := ⟨60, 3⟩
def F.ARB_HOLD_ENT_PIPE : Fld := ⟨54, 6⟩
def F.ARB_HOLD_ENT_BATCH : Fld := ⟨38, 16⟩
def F.ARB_HOLD_ENT_SLOT : Fld := ⟨32, 6⟩
def F.ARB_HOLD_ENT_SIDE : Fld := ⟨31, 1⟩
def F.ARB_HOLD_ENT_REPLAYS : Fld := ⟨27, 4⟩
def F.ARB_HOLD_ENT_DETAIL : Fld := ⟨0, 14⟩
def F.ARB_HOLD_CTL_REPLAY : Fld := ⟨31, 1⟩
def F.ARB_HOLD_CTL_RESIGN : Fld := ⟨30, 1⟩
def F.ARB_HOLD_CTL_INDEX : Fld := ⟨0, 10⟩
def F.ARB_HEALTH_ENG_FAILED : Fld := ⟨48, 16⟩
def F.ARB_HEALTH_STACK_DEGRADED : Fld := ⟨32, 16⟩
def F.ARB_HEALTH_STACK_DEAD : Fld := ⟨16, 16⟩
def F.ARB_HEALTH_PORT_NARROW : Fld := ⟨12, 4⟩
def F.ARB_HEALTH_PORT_DOWN : Fld := ⟨8, 4⟩
def F.ARB_MIGRATE_BUSY : Fld := ⟨31, 1⟩
def F.ARB_MIGRATE_LEFT : Fld := ⟨0, 13⟩
def F.ARB_QUAR_TILES : Fld := ⟨0, 9⟩
def F.ARB_SCORE_STAT_SCANNING : Fld := ⟨31, 1⟩
def F.ARB_SCORE_STAT_ERASING : Fld := ⟨30, 1⟩
def F.ARB_SCORE_STAT_POST_REJ : Fld := ⟨29, 1⟩
def F.ARB_SCORE_STAT_QUEUED : Fld := ⟨0, 7⟩
def F.ARB_SCORE_SEQ_NEXT : Fld := ⟨0, 32⟩
def F.ARB_SCORE_FLUSH_GO : Fld := ⟨0, 1⟩
def F.ARB_SCORE_FLUSH_TMO_SECONDS : Fld := ⟨0, 16⟩
def F.ARB_SCORE_POST_ARG : Fld := ⟨0, 64⟩
def F.ARB_SCORE_POST_CTL_GO : Fld := ⟨0, 1⟩
def F.ARB_SCORE_LOST_OVF : Fld := ⟨31, 1⟩
def F.ARB_SCORE_LOST_COUNT : Fld := ⟨0, 31⟩
def F.ARB_CASTLE_HOLD_HOLD_S : Fld := ⟨0, 16⟩
def F.ARB_CASTLE_TMO_TMO_MS : Fld := ⟨0, 16⟩
def F.ARB_SLOT_IDX_SLOT : Fld := ⟨0, 6⟩
def F.ARB_SLOT_CTL_EXPIRE : Fld := ⟨0, 1⟩
def F.ARB_SLOT_STAT_LIVE_VALID : Fld := ⟨31, 1⟩
def F.ARB_SLOT_STAT_LIVE : Fld := ⟨30, 1⟩
def F.ARB_SLOT_STAT_CASTLING : Fld := ⟨29, 1⟩
def F.ARB_SLOT_STAT_UNAVAIL : Fld := ⟨28, 1⟩
def F.ARB_SLOT_STAT_HOLD : Fld := ⟨27, 1⟩
def F.ARB_SLOT_STAT_Q_STATE : Fld := ⟨4, 3⟩
def F.ARB_SLOT_STAT_K_STATE : Fld := ⟨0, 3⟩
def F.ARB_SIDE_REF_K_SESSIONS : Fld := ⟨16, 16⟩
def F.ARB_SIDE_REF_K_BATCHES : Fld := ⟨0, 16⟩
def F.ARB_SIDE_REF_Q_SESSIONS : Fld := ⟨16, 16⟩
def F.ARB_SIDE_REF_Q_BATCHES : Fld := ⟨0, 16⟩
def F.ARB_HOLD_LEFT_SECONDS : Fld := ⟨0, 16⟩
def F.ARB_SLOT_SWITCH_TIME : Fld := ⟨0, 64⟩
def F.ARB_SLOT_SEQ_SEQ : Fld := ⟨0, 32⟩
def F.ARB_SLOT_LIVE_MAP : Fld := ⟨0, 64⟩
def F.ARB_SLOT_UNAVAIL_MAP : Fld := ⟨0, 64⟩
def F.ARB_SESSIONS_FULL_SEEN : Fld := ⟨31, 1⟩
def F.ARB_SESSIONS_OPEN : Fld := ⟨0, 13⟩
def F.ARB_HOLD_DONE_MAP : Fld := ⟨0, 64⟩
def F.ARB_TR_STAT_BUSY : Fld := ⟨31, 1⟩
def F.ARB_TR_STAT_PHASE : Fld := ⟨28, 3⟩
def F.ARB_TR_STAT_HANDLE : Fld := ⟨20, 8⟩
def F.ARB_TR_STAT_CODE : Fld := ⟨0, 8⟩
def F.ARB_TR_STEP_DONE : Fld := ⟨0, 32⟩
def F.ARB_TR_T_T : Fld := ⟨0, 32⟩
def F.ARB_TR_GCLIP_OVF : Fld := ⟨31, 1⟩
def F.ARB_TR_GCLIP_COUNT : Fld := ⟨0, 31⟩
def F.ARB_TR_NONFIN_OVF : Fld := ⟨31, 1⟩
def F.ARB_TR_NONFIN_COUNT : Fld := ⟨0, 31⟩
def F.INTG_CTL_REPEAT : Fld := ⟨8, 4⟩
def F.INTG_CTL_SCRUB_DIV : Fld := ⟨4, 3⟩
def F.INTG_CTL_CE_WB : Fld := ⟨0, 1⟩
def F.INTG_SCRUB_EN_EN : Fld := ⟨0, 64⟩
def F.INTG_SEL_STORE : Fld := ⟨0, 6⟩
def F.INTG_CNT_OVF : Fld := ⟨63, 1⟩
def F.INTG_CNT_UE : Fld := ⟨32, 31⟩
def F.INTG_CNT_CE : Fld := ⟨0, 32⟩
def F.INTG_LOG_STAT_FULL : Fld := ⟨31, 1⟩
def F.INTG_LOG_STAT_USED : Fld := ⟨0, 6⟩
def F.INTG_LOG_IDX_INDEX : Fld := ⟨0, 5⟩
def F.INTG_LOG_ENT_VALID : Fld := ⟨63, 1⟩
def F.INTG_LOG_ENT_HITS : Fld := ⟨48, 8⟩
def F.INTG_LOG_ENT_SYM : Fld := ⟨40, 6⟩
def F.INTG_LOG_ENT_ADDR : Fld := ⟨5, 35⟩
def F.INTG_LAP_LAP_US : Fld := ⟨0, 32⟩
def F.INTG_SCRUB_POS_ADDR : Fld := ⟨5, 35⟩
def F.INTG_LAP_TMO_SECONDS : Fld := ⟨0, 16⟩
def F.INTG_UE_SEQ_SEQ : Fld := ⟨0, 32⟩
def F.INTG_UE_IDX_INDEX : Fld := ⟨0, 5⟩
def F.INTG_UE_ENT0_SEQ : Fld := ⟨32, 32⟩
def F.INTG_UE_ENT0_CAUSE : Fld := ⟨12, 4⟩
def F.INTG_UE_ENT0_STORE : Fld := ⟨0, 6⟩
def F.INTG_UE_ENT1_ADDR : Fld := ⟨0, 53⟩
def F.INTG_UE_ENT2_TIME : Fld := ⟨0, 64⟩
def F.INTG_PC_STAT_VALID : Fld := ⟨31, 1⟩
def F.INTG_PC_STAT_OVER : Fld := ⟨30, 1⟩
def F.INTG_PC_STAT_CAUSE : Fld := ⟨16, 4⟩
def F.INTG_PC_STAT_MASTER : Fld := ⟨8, 8⟩
def F.INTG_PC_INFO_BATCH : Fld := ⟨16, 16⟩
def F.INTG_PC_INFO_ID : Fld := ⟨0, 10⟩
def F.INTG_PC_ADDR_ADDR : Fld := ⟨0, 53⟩
def F.INTG_PC_CNT_OVF : Fld := ⟨31, 1⟩
def F.INTG_PC_CNT_COUNT : Fld := ⟨0, 31⟩
def F.INTG_FLIP_ARM : Fld := ⟨63, 1⟩
def F.INTG_FLIP_POISON : Fld := ⟨62, 1⟩
def F.INTG_FLIP_STORE : Fld := ⟨48, 6⟩
def F.INTG_FLIP_POS1 : Fld := ⟨24, 6⟩
def F.INTG_FLIP_VAL1 : Fld := ⟨16, 8⟩
def F.INTG_FLIP_POS0 : Fld := ⟨8, 6⟩
def F.INTG_FLIP_VAL0 : Fld := ⟨0, 8⟩
def F.KEY_BOOT_STAT_PHASE : Fld := ⟨29, 3⟩
def F.KEY_BOOT_STAT_CAUSE : Fld := ⟨26, 3⟩
def F.KEY_BOOT_STAT_COPY : Fld := ⟨25, 1⟩
def F.KEY_BOOT_STAT_LDR_CODE : Fld := ⟨16, 8⟩
def F.KEY_BOOT_STAT_CODE1 : Fld := ⟨8, 8⟩
def F.KEY_BOOT_STAT_CODE0 : Fld := ⟨0, 8⟩
def F.KEY_SLOT_STAT_FLOOR : Fld := ⟨16, 6⟩
def F.KEY_SLOT_STAT_SLOT : Fld := ⟨0, 16⟩
def F.KEY_HASH_VALUE : Fld := ⟨0, 64⟩
def F.KEY_REC_ADDR_VALUE : Fld := ⟨0, 64⟩
def F.KEY_FUSE_CTL_PROG : Fld := ⟨31, 1⟩
def F.KEY_FUSE_CTL_REVOKE : Fld := ⟨30, 1⟩
def F.KEY_FUSE_CTL_RAISE : Fld := ⟨29, 1⟩
def F.KEY_FUSE_CTL_LEVEL : Fld := ⟨16, 6⟩
def F.KEY_FUSE_CTL_SLOT : Fld := ⟨0, 2⟩
def F.KEY_STAT_BUSY : Fld := ⟨31, 1⟩
def F.KEY_STAT_REFUSED : Fld := ⟨30, 1⟩
def F.KEY_STAT_CODE : Fld := ⟨0, 8⟩
def F.KEY_NONCE_VALUE : Fld := ⟨0, 64⟩
def F.KEY_ATT_DST_VALUE : Fld := ⟨0, 64⟩
def F.KEY_ATT_CTL_GO : Fld := ⟨31, 1⟩
def F.KEY_ATT_CTL_ARG : Fld := ⟨0, 16⟩
def F.KEY_RST_GO : Fld := ⟨31, 1⟩
def F.KEY_RST_ARG : Fld := ⟨0, 16⟩
def F.KEY_RECOVER_GO : Fld := ⟨31, 1⟩
def F.KEY_RECOVER_ARG : Fld := ⟨0, 16⟩
def F.KEY_CTL_PERST_RESET : Fld := ⟨0, 1⟩
def F.DDR_CTL_TRAIN : Fld := ⟨31, 1⟩
def F.DDR_IRQ_STAT_BITS : Fld := ⟨0, 3⟩
def F.DDR_IRQ_EN_BITS : Fld := ⟨0, 3⟩
def F.DDR_STAT_TRAINED : Fld := ⟨31, 1⟩
def F.DDR_STAT_INIT_DONE : Fld := ⟨30, 1⟩
def F.DDR_STAT_CFG_ERR : Fld := ⟨29, 1⟩
def F.DDR_STAT_FAIL_CH : Fld := ⟨0, 8⟩
def F.DDR_CFG_CAP : Fld := ⟨16, 3⟩
def F.DDR_CFG_RANKS : Fld := ⟨8, 2⟩
def F.DDR_CFG_RATE : Fld := ⟨0, 2⟩
def F.DDR_TRAIN_TMO_MS : Fld := ⟨0, 16⟩
def F.IMG_CTL_LOCK : Fld := ⟨31, 1⟩
def F.IMG_CTL_CFG_LOCK : Fld := ⟨30, 1⟩
def F.IMG_CTL_COMPAT_EN : Fld := ⟨8, 1⟩
def F.IMG_SRC_ADDR : Fld := ⟨0, 53⟩
def F.IMG_SRC_LEN_LEN : Fld := ⟨0, 32⟩
def F.IMG_LOAD_ABORT : Fld := ⟨1, 1⟩
def F.IMG_LOAD_GO : Fld := ⟨0, 1⟩
def F.IMG_LOAD_STAT_BUSY : Fld := ⟨31, 1⟩
def F.IMG_LOAD_STAT_PASS : Fld := ⟨29, 2⟩
def F.IMG_LOAD_STAT_REFUSED : Fld := ⟨28, 1⟩
def F.IMG_LOAD_STAT_CODE : Fld := ⟨0, 8⟩
def F.IMG_ERR_OFF_OFFSET : Fld := ⟨0, 32⟩
def F.IMG_SLOT_STAT_ACTIVE : Fld := ⟨8, 1⟩
def F.IMG_SLOT_STAT_B_STATE : Fld := ⟨4, 3⟩
def F.IMG_SLOT_STAT_A_STATE : Fld := ⟨0, 3⟩
def F.IMG_EPOCH_A_EPOCH : Fld := ⟨0, 32⟩
def F.IMG_EPOCH_B_EPOCH : Fld := ⟨0, 32⟩
def F.IMG_EPOCH_MIN_FLOOR : Fld := ⟨0, 32⟩
def F.IMG_ACT_CTL_GO : Fld := ⟨31, 1⟩
def F.IMG_ACT_CTL_BARRIER_EN : Fld := ⟨30, 1⟩
def F.IMG_ACT_CTL_BARRIER : Fld := ⟨0, 29⟩
def F.IMG_ACT_TMO_TMO_MS : Fld := ⟨0, 16⟩
def F.IMG_ACT_STAT_BUSY : Fld := ⟨31, 1⟩
def F.IMG_ACT_STAT_REFUSED : Fld := ⟨30, 1⟩
def F.IMG_ACT_STAT_PHASE : Fld := ⟨24, 3⟩
def F.IMG_ACT_STAT_CODE : Fld := ⟨0, 8⟩
def F.IMG_CONST_BASE_ADDR : Fld := ⟨0, 53⟩
def F.IMG_DIGEST_A_DIGEST : Fld := ⟨0, 64⟩
def F.IMG_DIGEST_B_DIGEST : Fld := ⟨0, 64⟩
def F.IMG_DIGEST_ACT_DIGEST : Fld := ⟨0, 64⟩
def F.IMG_FP_FP : Fld := ⟨0, 64⟩
def F.IMG_FP_SEQ_SEQ : Fld := ⟨0, 32⟩
def F.RING_PROG_INT_MS : Fld := ⟨0, 16⟩
def F.RING_CPL_TMO_MS : Fld := ⟨0, 16⟩
def F.RING_OP_IDX_HANDLE : Fld := ⟨0, 8⟩
def F.RING_OP_ENT_IN_USE : Fld := ⟨63, 1⟩
def F.RING_OP_ENT_STATE : Fld := ⟨60, 3⟩
def F.RING_OP_ENT_OPCODE : Fld := ⟨52, 8⟩
def F.RING_OP_ENT_RING : Fld := ⟨48, 4⟩
def F.RING_OP_ENT_TAG : Fld := ⟨32, 16⟩
def F.RING_OP_ENT_CMD_IDX : Fld := ⟨0, 32⟩
def F.RING_ENTRY_ERR_OVF : Fld := ⟨31, 1⟩
def F.RING_ENTRY_ERR_COUNT : Fld := ⟨0, 31⟩
def F.RING_CMD_BASE_ADDR : Fld := ⟨0, 40⟩
def F.RING_CPL_BASE_ADDR : Fld := ⟨0, 40⟩
def F.RING_CFG_EN : Fld := ⟨31, 1⟩
def F.RING_CFG_CPL_LOG2 : Fld := ⟨16, 5⟩
def F.RING_CFG_CMD_LOG2 : Fld := ⟨0, 5⟩
def F.RING_CMD_HEAD_INDEX : Fld := ⟨0, 32⟩
def F.RING_CMD_TAIL_INDEX : Fld := ⟨0, 32⟩
def F.RING_CPL_HEAD_INDEX : Fld := ⟨0, 32⟩
def F.RING_CPL_TAIL_INDEX : Fld := ⟨0, 32⟩
def F.RING_MOD_US : Fld := ⟨16, 16⟩
def F.RING_MOD_CNT : Fld := ⟨0, 8⟩
def F.RING_STAT_STOPPED : Fld := ⟨31, 1⟩
def F.RING_STAT_CAUSE : Fld := ⟨28, 3⟩
def F.RING_STAT_PENDING : Fld := ⟨8, 8⟩
def F.RING_STAT_WAIT_ADMIT : Fld := ⟨4, 1⟩
def F.RING_STAT_TAIL_ERR : Fld := ⟨3, 1⟩
def F.RING_STAT_HEAD_ERR : Fld := ⟨2, 1⟩
def F.RING_STAT_CPL_FULL : Fld := ⟨1, 1⟩
def F.ENG_CTL_CNT_CLR : Fld := ⟨4, 1⟩
def F.ENG_CTL_FAIL : Fld := ⟨2, 1⟩
def F.ENG_CTL_KILL : Fld := ⟨1, 1⟩
def F.ENG_CTL_EN : Fld := ⟨0, 1⟩
def F.ENG_STAT_FAULT : Fld := ⟨8, 8⟩
def F.ENG_STAT_HOSTING : Fld := ⟨3, 1⟩
def F.ENG_STAT_STATE : Fld := ⟨0, 3⟩
def F.ENG_RELOC_RELOCATED : Fld := ⟨31, 1⟩
def F.ENG_RELOC_GUEST_VALID : Fld := ⟨20, 1⟩
def F.ENG_RELOC_GUEST : Fld := ⟨16, 4⟩
def F.ENG_RELOC_HOST_MASK : Fld := ⟨0, 16⟩
def F.ENG_LOOKAHEAD_AREA : Fld := ⟨16, 9⟩
def F.ENG_LOOKAHEAD_LIMIT : Fld := ⟨0, 9⟩
def F.ENG_DRAIN_TMO_TMO_US : Fld := ⟨0, 20⟩
def F.ENG_WAIT_TMO_TMO_MS : Fld := ⟨0, 16⟩
def F.ENG_WAIT_STAT_VALID : Fld := ⟨31, 1⟩
def F.ENG_WAIT_STAT_OVER : Fld := ⟨30, 1⟩
def F.ENG_WAIT_STAT_WAIT : Fld := ⟨16, 1⟩
def F.ENG_WAIT_STAT_STAGE : Fld := ⟨0, 9⟩
def F.ENG_FIRE_TMO_TMO_MS : Fld := ⟨0, 16⟩
def F.ENG_FIRE_CNT_COUNT : Fld := ⟨0, 64⟩
def F.ENG_MX_BUSY_COUNT : Fld := ⟨0, 64⟩
def F.ENG_STALL_WS_COUNT : Fld := ⟨0, 64⟩
def F.ENG_STALL_IN_COUNT : Fld := ⟨0, 64⟩
def F.ENG_STALL_CRED_COUNT : Fld := ⟨0, 64⟩
def F.ENG_STALL_WAIT_COUNT : Fld := ⟨0, 64⟩
def F.QZ_ACC_SAT_OVF : Fld := ⟨31, 1⟩
def F.QZ_ACC_SAT_COUNT : Fld := ⟨0, 31⟩
def F.QZ_AMAX_AMAX : Fld := ⟨0, 16⟩
def F.QZ_EXT_QMAX : Fld := ⟨32, 32⟩
def F.QZ_EXT_QMIN : Fld := ⟨0, 32⟩
def F.QZ_SCALE_SCALE : Fld := ⟨0, 32⟩
def F.QZ_STAT_FALLEN : Fld := ⟨31, 1⟩
def F.QZ_STAT_VALID : Fld := ⟨30, 1⟩
def F.QZ_STAT_MODE : Fld := ⟨12, 2⟩
def F.QZ_STAT_OUT_FMT : Fld := ⟨8, 2⟩
def F.QZ_STAT_SHORT_ROW : Fld := ⟨4, 1⟩
def F.QZ_STAT_SCALE_REJ : Fld := ⟨3, 1⟩
def F.QZ_STAT_RANGE_HI : Fld := ⟨2, 1⟩
def F.QZ_STAT_RANGE_LO : Fld := ⟨1, 1⟩
def F.QZ_STAT_SAT : Fld := ⟨0, 1⟩
def F.QZ_SAT_CNT_OVF : Fld := ⟨31, 1⟩
def F.QZ_SAT_CNT_COUNT : Fld := ⟨0, 31⟩
def F.QZ_RANGE_CNT_OVF : Fld := ⟨31, 1⟩
def F.QZ_RANGE_CNT_HI : Fld := ⟨16, 15⟩
def F.QZ_RANGE_CNT_LO : Fld := ⟨0, 16⟩
def F.FIFO_POOL_USED : Fld := ⟨0, 12⟩
def F.FIFO_PIN_STAT_TL_FC_OUT : Fld := ⟨4, 4⟩
def F.FIFO_PIN_STAT_FC_OUT : Fld := ⟨0, 4⟩
def F.FIFO_STARVE_TMO_TMO_MS : Fld := ⟨0, 16⟩
def F.FIFO_PIN_HOLD_HOLD_NS : Fld := ⟨0, 16⟩
def F.FIFO_BIND_VALID : Fld := ⟨63, 1⟩
def F.FIFO_BIND_DST_MASK : Fld := ⟨32, 16⟩
def F.FIFO_BIND_DST : Fld := ⟨16, 16⟩
def F.FIFO_BIND_SRC : Fld := ⟨0, 16⟩
def F.FIFO_CFG_CT_THRESH : Fld := ⟨16, 10⟩
def F.FIFO_CFG_WM_PIN : Fld := ⟨12, 4⟩
def F.FIFO_CFG_MODE : Fld := ⟨8, 3⟩
def F.FIFO_CFG_DEPTH_SEG : Fld := ⟨0, 5⟩
def F.FIFO_WM_WM_HIGH : Fld := ⟨16, 10⟩
def F.FIFO_WM_WM_LOW : Fld := ⟨0, 10⟩
def F.FIFO_STAT_ABOVE : Fld := ⟨31, 1⟩
def F.FIFO_STAT_MARKED : Fld := ⟨30, 1⟩
def F.FIFO_STAT_SAF_OVR : Fld := ⟨29, 1⟩
def F.FIFO_STAT_MARK_FULL : Fld := ⟨28, 1⟩
def F.FIFO_STAT_STARVED : Fld := ⟨27, 1⟩
def F.FIFO_STAT_PROD_LOST : Fld := ⟨26, 1⟩
def F.FIFO_STAT_WM_REJ : Fld := ⟨25, 1⟩
def F.FIFO_STAT_HELD : Fld := ⟨10, 10⟩
def F.FIFO_STAT_OCC : Fld := ⟨0, 10⟩
def F.FIFO_PKT_PKT_IN : Fld := ⟨16, 16⟩
def F.FIFO_PKT_PKT_OUT : Fld := ⟨0, 16⟩
def F.FIFO_ERR_OVF : Fld := ⟨31, 1⟩
def F.FIFO_ERR_POISON : Fld := ⟨16, 15⟩
def F.FIFO_ERR_CE : Fld := ⟨0, 16⟩
def F.FIFO_MAXOCC_MAXOCC : Fld := ⟨0, 10⟩
def F.FIFO_ITEMS_COUNT : Fld := ⟨0, 64⟩
def F.ARY_CMD_ARG_SPACE : Fld := ⟨31, 1⟩
def F.ARY_CMD_ARG_CLR_PW : Fld := ⟨30, 1⟩
def F.ARY_CMD_ARG_INDEX : Fld := ⟨12, 9⟩
def F.ARY_CMD_ARG_PAGE : Fld := ⟨0, 5⟩
def F.ARY_PW_PW : Fld := ⟨0, 64⟩
def F.ARY_STAT_SEQ_ERR : Fld := ⟨31, 1⟩
def F.ARY_STAT_PW_BUSY : Fld := ⟨30, 1⟩
def F.ARY_STAT_PW_FAILS : Fld := ⟨26, 4⟩
def F.ARY_STAT_MODE : Fld := ⟨24, 2⟩
def F.ARY_STAT_PB_OPEN : Fld := ⟨23, 1⟩
def F.ARY_STAT_PB_GROUP : Fld := ⟨20, 3⟩
def F.ARY_STAT_WAIT_PWR : Fld := ⟨15, 5⟩
def F.ARY_STAT_SUSP : Fld := ⟨10, 5⟩
def F.ARY_STAT_BUSY : Fld := ⟨5, 5⟩
def F.ARY_STAT_LAST : Fld := ⟨0, 5⟩
def F.ARY_OPSTAT_BUSY : Fld := ⟨31, 1⟩
def F.ARY_OPSTAT_SUSP : Fld := ⟨30, 1⟩
def F.ARY_OPSTAT_WAIT_PWR : Fld := ⟨29, 1⟩
def F.ARY_OPSTAT_DONE : Fld := ⟨28, 1⟩
def F.ARY_OPSTAT_OP : Fld := ⟨25, 3⟩
def F.ARY_OPSTAT_PNE : Fld := ⟨24, 1⟩
def F.ARY_OPSTAT_FAIL : Fld := ⟨23, 1⟩
def F.ARY_OPSTAT_ERASE_SLOW : Fld := ⟨22, 1⟩
def F.ARY_OPSTAT_POISON_IN : Fld := ⟨21, 1⟩
def F.ARY_OPSTAT_PAGE : Fld := ⟨16, 5⟩
def F.ARY_OPSTAT_INDEX : Fld := ⟨7, 9⟩
def F.ARY_OPSTAT_CODE : Fld := ⟨0, 7⟩
def F.ARY_SEQ_TMO_TMO_US : Fld := ⟨0, 16⟩
def F.ARY_PB_TMO_TMO_MS : Fld := ⟨0, 16⟩
def F.ARY_RETIRE_GO : Fld := ⟨31, 1⟩
def F.ARY_RETIRE_BLOCK : Fld := ⟨0, 9⟩
def F.ARY_WEAR_LOG_VALID : Fld := ⟨63, 1⟩
def F.ARY_WEAR_LOG_OVER : Fld := ⟨62, 1⟩
def F.ARY_WEAR_LOG_EVENT : Fld := ⟨56, 4⟩
def F.ARY_WEAR_LOG_COUNT : Fld := ⟨32, 24⟩
def F.ARY_WEAR_LOG_PSEC : Fld := ⟨31, 1⟩
def F.ARY_WEAR_LOG_INDEX : Fld := ⟨8, 9⟩
def F.ARY_WEAR_LOG_PAGE : Fld := ⟨0, 5⟩
def F.ARY_REGION_STATE : Fld := ⟨0, 16⟩
def F.ARY_PSEC_PROT_STATE : Fld := ⟨0, 64⟩
def F.ARY_FAIL_CNT_OVF : Fld := ⟨31, 1⟩
def F.ARY_FAIL_CNT_COUNT : Fld := ⟨0, 31⟩
def F.ARY_GEOM_LOADED : Fld := ⟨31, 1⟩
def F.ARY_GEOM_CAL_BAD : Fld := ⟨30, 1⟩
def F.ARY_GEOM_SSR : Fld := ⟨25, 1⟩
def F.ARY_GEOM_PSEC : Fld := ⟨24, 1⟩
def F.ARY_GEOM_BAD_CNT : Fld := ⟨16, 4⟩
def F.ARY_GEOM_BLOCKS : Fld := ⟨0, 10⟩
def F.ARY_RD_CTL_RETRY_EN : Fld := ⟨1, 1⟩
def F.ARY_RD_CTL_AUTO_SUSP : Fld := ⟨0, 1⟩
def F.ARY_RD_SLOT_SLOT_US : Fld := ⟨0, 16⟩
def F.ARY_RD_TMO_TMO_MS : Fld := ⟨0, 16⟩
def F.ARY_RD_STAT_SUSPENDED : Fld := ⟨2, 1⟩
def F.ARY_RD_STAT_TIMED_OUT : Fld := ⟨1, 1⟩
def F.ARY_RD_STAT_UNREADABLE_HIT : Fld := ⟨0, 1⟩
def F.ARY_CE_THRESH_BITS : Fld := ⟨0, 7⟩
def F.ARY_CE_LOG_VALID : Fld := ⟨63, 1⟩
def F.ARY_CE_LOG_OVER : Fld := ⟨62, 1⟩
def F.ARY_CE_LOG_BITS : Fld := ⟨32, 7⟩
def F.ARY_CE_LOG_PAGE : Fld := ⟨19, 8⟩
def F.ARY_CE_LOG_CW : Fld := ⟨16, 3⟩
def F.ARY_CE_LOG_BLOCK : Fld := ⟨0, 9⟩
def F.ARY_CW_MAX_BLOCK : Fld := ⟨16, 9⟩
def F.ARY_CW_MAX_BITS : Fld := ⟨0, 7⟩
def F.ARY_CE_BITS_COUNT : Fld := ⟨0, 64⟩
def F.ARY_RETRY_CNT_OVF : Fld := ⟨31, 1⟩
def F.ARY_RETRY_CNT_COUNT : Fld := ⟨0, 31⟩
def F.ARY_INNER_UE_OVF : Fld := ⟨31, 1⟩
def F.ARY_INNER_UE_COUNT : Fld := ⟨0, 31⟩
def F.ARY_UE_CNT_OVF : Fld := ⟨31, 1⟩
def F.ARY_UE_CNT_COUNT : Fld := ⟨0, 31⟩
def F.ARY_SUSP_CNT_OVF : Fld := ⟨31, 1⟩
def F.ARY_SUSP_CNT_COUNT : Fld := ⟨0, 31⟩
def F.ARY_SENSE_CNT_COUNT : Fld := ⟨0, 64⟩
def F.TL_CTL_FC_MASK : Fld := ⟨16, 16⟩
def F.TL_CTL_TUNNEL_EN : Fld := ⟨3, 1⟩
def F.TL_CTL_FP_CHECK : Fld := ⟨2, 1⟩
def F.TL_CTL_KEEP_UP : Fld := ⟨1, 1⟩
def F.TL_CTL_EN : Fld := ⟨0, 1⟩
def F.TL_STAT_FP_MISMATCH : Fld := ⟨31, 1⟩
def F.TL_STAT_TOPO_ERR : Fld := ⟨30, 1⟩
def F.TL_STAT_FC_STUCK : Fld := ⟨29, 1⟩
def F.TL_STAT_FC_IN : Fld := ⟨28, 1⟩
def F.TL_STAT_TUNNEL : Fld := ⟨27, 1⟩
def F.TL_STAT_LANES : Fld := ⟨16, 8⟩
def F.TL_STAT_WIDTH : Fld := ⟨12, 2⟩
def F.TL_STAT_STATE : Fld := ⟨0, 3⟩
def F.TL_NBR_VALID : Fld := ⟨31, 1⟩
def F.TL_NBR_PORT : Fld := ⟨16, 2⟩
def F.TL_NBR_DEV_ID : Fld := ⟨0, 12⟩
def F.TL_NBR_FP_FP : Fld := ⟨0, 64⟩
def F.TL_TRAIN_TMO_TMO_MS : Fld := ⟨0, 16⟩
def F.TL_RETRY_MAX : Fld := ⟨24, 8⟩
def F.TL_RETRY_TMO_NS : Fld := ⟨0, 16⟩
def F.TL_FC_TMO_TMO_MS : Fld := ⟨0, 16⟩
def F.TL_CRC_CNT_OVF : Fld := ⟨31, 1⟩
def F.TL_CRC_CNT_COUNT : Fld := ⟨0, 31⟩
def F.TL_REPLAY_CNT_OVF : Fld := ⟨31, 1⟩
def F.TL_REPLAY_CNT_COUNT : Fld := ⟨0, 31⟩
def F.TL_RETRAIN_CNT_OVF : Fld := ⟨31, 1⟩
def F.TL_RETRAIN_CNT_COUNT : Fld := ⟨0, 31⟩
def F.TL_WAKE_CNT_OVF : Fld := ⟨31, 1⟩
def F.TL_WAKE_CNT_COUNT : Fld := ⟨0, 31⟩
def F.TL_DROP_CNT_OVF : Fld := ⟨31, 1⟩
def F.TL_DROP_CNT_COUNT : Fld := ⟨0, 31⟩
def F.TL_TX_FLITS_COUNT : Fld := ⟨0, 64⟩
def F.TL_RX_FLITS_COUNT : Fld := ⟨0, 64⟩
def F.TL_TORUS_ROWS : Fld := ⟨8, 7⟩
def F.TL_TORUS_COLS : Fld := ⟨0, 7⟩
def F.TL_FP_SETTLE_US : Fld := ⟨0, 16⟩
def F.TL_RT_COL_ENTRY0 : Fld := ⟨0, 4⟩
def F.TL_RT_COL_ENTRY1 : Fld := ⟨4, 4⟩
def F.TL_RT_COL_ENTRY2 : Fld := ⟨8, 4⟩
def F.TL_RT_COL_ENTRY3 : Fld := ⟨12, 4⟩
def F.TL_RT_COL_ENTRY4 : Fld := ⟨16, 4⟩
def F.TL_RT_COL_ENTRY5 : Fld := ⟨20, 4⟩
def F.TL_RT_COL_ENTRY6 : Fld := ⟨24, 4⟩
def F.TL_RT_COL_ENTRY7 : Fld := ⟨28, 4⟩
def F.TL_RT_ROW_ENTRY0 : Fld := ⟨0, 4⟩
def F.TL_RT_ROW_ENTRY1 : Fld := ⟨4, 4⟩
def F.TL_RT_ROW_ENTRY2 : Fld := ⟨8, 4⟩
def F.TL_RT_ROW_ENTRY3 : Fld := ⟨12, 4⟩
def F.TL_RT_ROW_ENTRY4 : Fld := ⟨16, 4⟩
def F.TL_RT_ROW_ENTRY5 : Fld := ⟨20, 4⟩
def F.TL_RT_ROW_ENTRY6 : Fld := ⟨24, 4⟩
def F.TL_RT_ROW_ENTRY7 : Fld := ⟨28, 4⟩
def F.TL_ROUTE_ERR_OVF : Fld := ⟨31, 1⟩
def F.TL_ROUTE_ERR_COUNT : Fld := ⟨0, 31⟩
def F.PCIE_CTL_EN : Fld := ⟨31, 1⟩
def F.PCIE_CTL_MODE : Fld := ⟨30, 1⟩
def F.PCIE_CTL_RATE_MAX : Fld := ⟨24, 4⟩
def F.PCIE_CTL_WIDTH_MAX : Fld := ⟨20, 4⟩
def F.PCIE_CTL_TMO : Fld := ⟨0, 16⟩
def F.PCIE_IRQ_STAT_BITS : Fld := ⟨0, 5⟩
def F.PCIE_IRQ_EN_BITS : Fld := ⟨0, 5⟩
def F.PCIE_STAT_LINK_UP : Fld := ⟨31, 1⟩
def F.PCIE_STAT_RATE : Fld := ⟨24, 4⟩
def F.PCIE_STAT_WIDTH : Fld := ⟨20, 4⟩
def F.PCIE_MSIX_EN_EN : Fld := ⟨0, 16⟩
def F.PCIE_BAR2_XLAT_BASE : Fld := ⟨32, 8⟩
def F.PCIE_EP_CNT_OVF : Fld := ⟨31, 1⟩
def F.PCIE_EP_CNT_COUNT : Fld := ⟨0, 31⟩
def F.PCIE_CFG_ERR_OVF : Fld := ⟨31, 1⟩
def F.PCIE_CFG_ERR_COUNT : Fld := ⟨0, 31⟩
def F.ETH_CTL_EN : Fld := ⟨31, 1⟩
def F.ETH_CTL_PAUSE_EN : Fld := ⟨30, 1⟩
def F.ETH_CTL_MAX_LEN : Fld := ⟨16, 14⟩
def F.ETH_CTL_ETYPE : Fld := ⟨0, 16⟩
def F.ETH_IRQ_STAT_BITS : Fld := ⟨0, 5⟩
def F.ETH_IRQ_EN_BITS : Fld := ⟨0, 5⟩
def F.ETH_STAT_LINK : Fld := ⟨31, 1⟩
def F.ETH_STAT_TAIL_ERR : Fld := ⟨30, 1⟩
def F.ETH_MAC_ADDR : Fld := ⟨0, 48⟩
def F.ETH_RX_BASE_ADDR : Fld := ⟨0, 53⟩
def F.ETH_TX_BASE_ADDR : Fld := ⟨0, 53⟩
def F.ETH_RING_CFG_TX_LOG2 : Fld := ⟨16, 5⟩
def F.ETH_RING_CFG_RX_LOG2 : Fld := ⟨0, 5⟩
def F.ETH_RX_HEAD_INDEX : Fld := ⟨0, 32⟩
def F.ETH_RX_TAIL_INDEX : Fld := ⟨0, 32⟩
def F.ETH_TX_HEAD_INDEX : Fld := ⟨0, 32⟩
def F.ETH_TX_TAIL_INDEX : Fld := ⟨0, 32⟩
def F.ETH_DROP_OVF : Fld := ⟨31, 1⟩
def F.ETH_DROP_COUNT : Fld := ⟨0, 31⟩
def F.ETH_FCS_ERR_OVF : Fld := ⟨31, 1⟩
def F.ETH_FCS_ERR_COUNT : Fld := ⟨0, 31⟩
def F.ETH_TX_ERR_OVF : Fld := ⟨31, 1⟩
def F.ETH_TX_ERR_COUNT : Fld := ⟨0, 31⟩
def F.USB_CTL_EN : Fld := ⟨31, 1⟩
def F.USB_CTL_SS_EN : Fld := ⟨30, 1⟩
def F.USB_IRQ_STAT_BITS : Fld := ⟨0, 5⟩
def F.USB_IRQ_EN_BITS : Fld := ⟨0, 5⟩
def F.USB_STAT_VBUS : Fld := ⟨31, 1⟩
def F.USB_STAT_CONFIGURED : Fld := ⟨30, 1⟩
def F.USB_STAT_SPEED : Fld := ⟨28, 2⟩
def F.USB_STAT_SUSPENDED : Fld := ⟨27, 1⟩
def F.USB_STAT_TAIL_ERR : Fld := ⟨26, 1⟩
def F.USB_ID_PID : Fld := ⟨16, 16⟩
def F.USB_ID_VID : Fld := ⟨0, 16⟩
def F.USB_OUT_BASE_ADDR : Fld := ⟨0, 53⟩
def F.USB_IN_BASE_ADDR : Fld := ⟨0, 53⟩
def F.USB_RING_CFG_IN_LOG2 : Fld := ⟨16, 5⟩
def F.USB_RING_CFG_OUT_LOG2 : Fld := ⟨0, 5⟩
def F.USB_OUT_HEAD_INDEX : Fld := ⟨0, 32⟩
def F.USB_OUT_TAIL_INDEX : Fld := ⟨0, 32⟩
def F.USB_IN_HEAD_INDEX : Fld := ⟨0, 32⟩
def F.USB_IN_TAIL_INDEX : Fld := ⟨0, 32⟩
def F.USB_ERR_OVF : Fld := ⟨31, 1⟩
def F.USB_ERR_COUNT : Fld := ⟨0, 31⟩
def F.CSI_CTL_DT : Fld := ⟨16, 8⟩
def F.CSI_CTL_VC : Fld := ⟨8, 2⟩
def F.CSI_IRQ_STAT_BITS : Fld := ⟨0, 5⟩
def F.CSI_IRQ_EN_BITS : Fld := ⟨0, 5⟩
def F.CSI_LIM_MIN_LINES : Fld := ⟨16, 16⟩
def F.CSI_LIM_MIN_WIDTH : Fld := ⟨0, 16⟩
def F.CSI_LIM_MAX_LINES : Fld := ⟨16, 16⟩
def F.CSI_LIM_MAX_WIDTH : Fld := ⟨0, 16⟩
def F.CSI_FB_BASE_ADDR : Fld := ⟨0, 40⟩
def F.CSI_FB_CFG_EN : Fld := ⟨31, 1⟩
def F.CSI_FB_CFG_HIGH : Fld := ⟨23, 8⟩
def F.CSI_FB_CFG_COUNT : Fld := ⟨16, 7⟩
def F.CSI_FB_CFG_LOW : Fld := ⟨10, 6⟩
def F.CSI_FB_CFG_SIZE : Fld := ⟨0, 10⟩
def F.CSI_FB_REL_INDEX : Fld := ⟨0, 6⟩
def F.CSI_FB_USE_WM : Fld := ⟨31, 1⟩
def F.CSI_FB_USE_IN_USE : Fld := ⟨16, 7⟩
def F.CSI_FB_MAP_MAP : Fld := ⟨0, 64⟩
def F.CSI_FRAME_TMO_MS : Fld := ⟨0, 16⟩
def F.CSI_DROP_NOBUF_OVF : Fld := ⟨31, 1⟩
def F.CSI_DROP_NOBUF_COUNT : Fld := ⟨0, 31⟩
def F.CSI_DROP_RANGE_OVF : Fld := ⟨31, 1⟩
def F.CSI_DROP_RANGE_COUNT : Fld := ⟨0, 31⟩
def F.CSI_DROP_TMO_OVF : Fld := ⟨31, 1⟩
def F.CSI_DROP_TMO_COUNT : Fld := ⟨0, 31⟩
def F.CSI_DROP_BP_OVF : Fld := ⟨31, 1⟩
def F.CSI_DROP_BP_COUNT : Fld := ⟨0, 31⟩
def F.CSI_FRAMES_COUNT : Fld := ⟨0, 64⟩
def F.TDM_CTL_EN : Fld := ⟨31, 1⟩
def F.TDM_CTL_SLOTS : Fld := ⟨12, 2⟩
def F.TDM_CTL_W24 : Fld := ⟨11, 1⟩
def F.TDM_CTL_CH : Fld := ⟨0, 6⟩
def F.TDM_IRQ_STAT_BITS : Fld := ⟨0, 5⟩
def F.TDM_IRQ_EN_BITS : Fld := ⟨0, 5⟩
def F.TDM_PKT_FRAMES : Fld := ⟨0, 16⟩
def F.TDM_RING_BASE_ADDR : Fld := ⟨0, 40⟩
def F.TDM_RING_CFG_WM_HIGH : Fld := ⟨16, 16⟩
def F.TDM_RING_CFG_WM_LOW : Fld := ⟨0, 16⟩
def F.TDM_RING_SIZE_TILES : Fld := ⟨0, 16⟩
def F.TDM_RING_FILL_ITEMS : Fld := ⟨0, 32⟩
def F.TDM_VAD_EN : Fld := ⟨31, 1⟩
def F.TDM_VAD_CH : Fld := ⟨16, 5⟩
def F.TDM_VAD_THRESH : Fld := ⟨8, 8⟩
def F.TDM_VAD_HOLD : Fld := ⟨0, 8⟩
def F.TDM_DROP_OVF : Fld := ⟨31, 1⟩
def F.TDM_DROP_COUNT : Fld := ⟨0, 31⟩
def F.TDM_FS_ERR_OVF : Fld := ⟨31, 1⟩
def F.TDM_FS_ERR_COUNT : Fld := ⟨0, 31⟩
def F.GPIO_OUT_OUT : Fld := ⟨0, 16⟩
def F.GPIO_IRQ_STAT_BITS : Fld := ⟨0, 1⟩
def F.GPIO_IRQ_EN_BITS : Fld := ⟨0, 1⟩
def F.GPIO_IN_IN : Fld := ⟨0, 16⟩
def F.GPIO_FC_SEL_FC3 : Fld := ⟨24, 8⟩
def F.GPIO_FC_SEL_FC2 : Fld := ⟨16, 8⟩
def F.GPIO_FC_SEL_FC1 : Fld := ⟨8, 8⟩
def F.GPIO_FC_SEL_FC0 : Fld := ⟨0, 8⟩
def F.GPIO_DIR_DIR : Fld := ⟨4, 12⟩
def F.GPIO_FILT_FILT : Fld := ⟨0, 8⟩
def F.GPIO_WAKE_POL_POL : Fld := ⟨0, 4⟩
def F.CPU_HOLD_HOLD : Fld := ⟨0, 8⟩
def F.CPU_ENTRY_ADDR : Fld := ⟨0, 40⟩
def F.CPU_STAT_WFP : Fld := ⟨8, 8⟩
def F.CPU_STAT_RUN : Fld := ⟨0, 8⟩
def F.CPU_FREQ_MHZ : Fld := ⟨0, 12⟩

/-- Rows of the register map, block SYS (R9, R32). -/
def regTableSYS0 : List RegDesc := [
  ⟨"SYS_ID", 0x10000000, 1, 0x0, 1, 0x0, 32, 0x16320101,
    [⟨F.SYS_ID_ARCH, .ro⟩, ⟨F.SYS_ID_DIE_REV, .ro⟩, ⟨F.SYS_ID_MAP_REV, .ro⟩]⟩,
  ⟨"SYS_NODE", 0x10000004, 1, 0x0, 1, 0x0, 32, 0x0,
    [⟨F.SYS_NODE_LOCK, .w1s⟩, ⟨F.SYS_NODE_DEV_ID, .rwl⟩]⟩,
  ⟨"SYS_DRAM_TOP", 0x10000008, 1, 0x0, 1, 0x0, 64, 0x0,
    [⟨F.SYS_DRAM_TOP_TOP, .ro⟩]⟩,
  ⟨"SYS_TMO", 0x10000010, 1, 0x0, 1, 0x0, 32, 0x64,
    [⟨F.SYS_TMO_TMO_US, .rw⟩]⟩,
  ⟨"SYS_BERR_STAT", 0x10000018, 1, 0x0, 1, 0x0, 32, 0x0,
    [⟨F.SYS_BERR_STAT_VALID, .rw1c⟩, ⟨F.SYS_BERR_STAT_OVER, .rw1c⟩, ⟨F.SYS_BERR_STAT_CAUSE, .ro⟩, ⟨F.SYS_BERR_STAT_MASTER, .ro⟩, ⟨F.SYS_BERR_STAT_WRITE, .ro⟩]⟩,
  ⟨"SYS_BERR_ADDR", 0x10000020, 1, 0x0, 1, 0x0, 64, 0x0,
    [⟨F.SYS_BERR_ADDR_ADDR, .ro⟩]⟩,
  ⟨"SYS_BERR_CNT", 0x10000028, 1, 0x0, 1, 0x0, 32, 0x0,
    [⟨F.SYS_BERR_CNT_OVF, .rc⟩, ⟨F.SYS_BERR_CNT_COUNT, .rc⟩]⟩]

/-- Rows of the register map, block PMU (R9, R32). -/
def regTablePMU0 : List RegDesc := [
  ⟨"PMU_REQ", 0x10010000, 1, 0x0, 1, 0x0, 32, 0x0,
    [⟨F.PMU_REQ_GO, .wo⟩, ⟨F.PMU_REQ_TARGET, .wo⟩]⟩,
  ⟨"PMU_STAT", 0x10010004, 1, 0x0, 1, 0x0, 32, 0x0,
    [⟨F.PMU_STAT_BUSY, .ro⟩, ⟨F.PMU_STAT_PHASE, .ro⟩, ⟨F.PMU_STAT_REQ_REJ, .rw1c⟩, ⟨F.PMU_STAT_STATE, .ro⟩, ⟨F.PMU_STAT_TARGET, .ro⟩, ⟨F.PMU_STAT_AGENT, .ro⟩, ⟨F.PMU_STAT_LAST, .ro⟩]⟩,
  ⟨"PMU_CTL", 0x10010008, 1, 0x0, 1, 0x0, 32, 0x2,
    [⟨F.PMU_CTL_AUTO_RUN, .rw⟩, ⟨F.PMU_CTL_AUTO_IDLE, .rw⟩]⟩,
  ⟨"PMU_IDLE_DLY", 0x1001000c, 1, 0x0, 1, 0x0, 32, 0x64,
    [⟨F.PMU_IDLE_DLY_US, .rw⟩]⟩,
  ⟨"PMU_HS_TMO", 0x10010010, 1, 0x0, 1, 0x0, 32, 0x32,
    [⟨F.PMU_HS_TMO_MS, .rw⟩]⟩,
  ⟨"PMU_WAKE_EN", 0x10010020, 1, 0x0, 1, 0x0, 32, 0x0,
    [⟨F.PMU_WAKE_EN_SRC, .rw⟩]⟩,
  ⟨"PMU_WAKE_PEND", 0x10010024, 1, 0x0, 1, 0x0, 32, 0x0,
    [⟨F.PMU_WAKE_PEND_SRC, .rw1c⟩]⟩,
  ⟨"PMU_WAKE_CAUSE", 0x10010028, 1, 0x0, 1, 0x0, 32, 0x0,
    [⟨F.PMU_WAKE_CAUSE_VALID, .rw1c⟩, ⟨F.PMU_WAKE_CAUSE_SRC, .ro⟩]⟩]

/-- Rows of the register map, block PMU (R9, R32). -/
def regTablePMU1 : List RegDesc := [
  ⟨"PMU_AGENT_ACC", 0x10010030, 1, 0x0, 1, 0x0, 64, 0x0,
    [⟨F.PMU_AGENT_ACC_AGENT, .ro⟩]⟩,
  ⟨"PMU_AGENT_DLY", 0x10010038, 1, 0x0, 1, 0x0, 64, 0x0,
    [⟨F.PMU_AGENT_DLY_AGENT, .ro⟩]⟩,
  ⟨"PMU_DOM_STAT", 0x10010040, 1, 0x0, 1, 0x0, 64, 0x3,
    [⟨F.PMU_DOM_STAT_S, .ro⟩, ⟨F.PMU_DOM_STAT_E, .ro⟩, ⟨F.PMU_DOM_STAT_LINK, .ro⟩, ⟨F.PMU_DOM_STAT_IO, .ro⟩, ⟨F.PMU_DOM_STAT_MEM, .ro⟩, ⟨F.PMU_DOM_STAT_APP, .ro⟩, ⟨F.PMU_DOM_STAT_SYS, .ro⟩, ⟨F.PMU_DOM_STAT_AON, .ro⟩]⟩,
  ⟨"PMU_FAULT", 0x10010048, 1, 0x0, 1, 0x0, 32, 0x0,
    [⟨F.PMU_FAULT_VALID, .rw1c⟩, ⟨F.PMU_FAULT_OVER, .rw1c⟩, ⟨F.PMU_FAULT_KIND, .ro⟩, ⟨F.PMU_FAULT_DOMAIN, .ro⟩]⟩,
  ⟨"PMU_RESUME", 0x10010050, 1, 0x0, 1, 0x0, 64, 0x0,
    [⟨F.PMU_RESUME_ADDR, .rw⟩]⟩]

/-- Rows of the register map, block AON (R9, R32). -/
def regTableAON0 : List RegDesc := [
  ⟨"AON_TIME", 0x10020000, 1, 0x0, 1, 0x0, 64, 0x0,
    [⟨F.AON_TIME_COUNT, .ro⟩]⟩,
  ⟨"AON_RATIO", 0x10020010, 1, 0x0, 1, 0x0, 64, 0x493e0000000,
    [⟨F.AON_RATIO_RATIO, .ro⟩]⟩,
  ⟨"AON_RC_RATIO", 0x10020018, 1, 0x0, 1, 0x0, 64, 0x4b000000000,
    [⟨F.AON_RC_RATIO_RATIO, .ro⟩]⟩,
  ⟨"AON_FRAC", 0x10020024, 1, 0x0, 1, 0x0, 32, 0x0,
    [⟨F.AON_FRAC_FRAC, .ro⟩]⟩,
  ⟨"AON_CAL", 0x10020028, 1, 0x0, 1, 0x0, 32, 0x40000400,
    [⟨F.AON_CAL_GO, .wo⟩, ⟨F.AON_CAL_ON_WAKE, .rw⟩, ⟨F.AON_CAL_BUSY, .ro⟩, ⟨F.AON_CAL_WINDOW, .rw⟩]⟩,
  ⟨"AON_CAL_PPM", 0x1002002c, 1, 0x0, 1, 0x0, 32, 0x27100014,
    [⟨F.AON_CAL_PPM_RC_PPM, .rw⟩, ⟨F.AON_CAL_PPM_XTAL_PPM, .rw⟩]⟩,
  ⟨"AON_STOP_AT", 0x10020030, 1, 0x0, 1, 0x0, 64, 0x0,
    [⟨F.AON_STOP_AT_COUNT, .ro⟩]⟩,
  ⟨"AON_START_AT", 0x10020038, 1, 0x0, 1, 0x0, 64, 0x0,
    [⟨F.AON_START_AT_COUNT, .ro⟩]⟩]

/-- Rows of the register map, block AON (R9, R32). -/
def regTableAON1 : List RegDesc := [
  ⟨"AON_FAST_SAVED", 0x10020040, 1, 0x0, 1, 0x0, 64, 0x0,
    [⟨F.AON_FAST_SAVED_COUNT, .ro⟩]⟩,
  ⟨"AON_FB_AT", 0x10020048, 1, 0x0, 1, 0x0, 64, 0x0,
    [⟨F.AON_FB_AT_COUNT, .ro⟩]⟩,
  ⟨"AON_CLK", 0x10020050, 1, 0x0, 1, 0x0, 32, 0x0,
    [⟨F.AON_CLK_RETRY, .wo⟩, ⟨F.AON_CLK_FB_COUNT, .ro⟩]⟩,
  ⟨"AON_ALARM", 0x10020080, 1, 0x0, 4, 0x10, 64, 0x0,
    [⟨F.AON_ALARM_COMPARE, .rw⟩]⟩,
  ⟨"AON_ALARM_CTL", 0x10020088, 1, 0x0, 4, 0x10, 32, 0x0,
    [⟨F.AON_ALARM_CTL_FIRED, .rw1c⟩, ⟨F.AON_ALARM_CTL_ARM, .rw⟩]⟩]

/-- Rows of the register map, block FAST (R9, R32). -/
def regTableFAST0 : List RegDesc := [
  ⟨"FAST_TIME", 0x10020008, 1, 0x0, 1, 0x0, 64, 0x0,
    [⟨F.FAST_TIME_COUNT, .ro⟩]⟩]

/-- Rows of the register map, block TIME (R9, R32). -/
def regTableTIME0 : List RegDesc := [
  ⟨"TIME_STAT", 0x10020020, 1, 0x0, 1, 0x0, 32, 0x15,
    [⟨F.TIME_STAT_SRC_CHANGED, .rw1c⟩, ⟨F.TIME_STAT_SRC, .ro⟩, ⟨F.TIME_STAT_RC_CAL, .ro⟩, ⟨F.TIME_STAT_ERR_PPM, .ro⟩]⟩]

/-- Rows of the register map, block IC (R9, R32). -/
def regTableIC0 : List RegDesc := [
  ⟨"IC_CTL", 0x10030000, 1, 0x0, 1, 0x0, 32, 0x0,
    [⟨F.IC_CTL_EN, .rw⟩]⟩,
  ⟨"IC_STAT", 0x10030004, 1, 0x0, 1, 0x0, 32, 0x0,
    [⟨F.IC_STAT_MASK_RACE, .rw1c⟩, ⟨F.IC_STAT_EOI_ERR, .rw1c⟩, ⟨F.IC_STAT_BAD_ID, .rw1c⟩, ⟨F.IC_STAT_RACE_ID, .ro⟩]⟩,
  ⟨"IC_AM_SEQ", 0x10030008, 1, 0x0, 1, 0x0, 32, 0x0,
    [⟨F.IC_AM_SEQ_SEQ, .ro⟩]⟩,
  ⟨"IC_SETPEND", 0x10030010, 1, 0x0, 1, 0x0, 32, 0x0,
    [⟨F.IC_SETPEND_ID, .wo⟩]⟩,
  ⟨"IC_CLRPEND", 0x10030014, 1, 0x0, 1, 0x0, 32, 0x0,
    [⟨F.IC_CLRPEND_ID, .wo⟩]⟩,
  ⟨"IC_PEND", 0x10030100, 1, 0x0, 16, 0x4, 32, 0x0,
    [⟨F.IC_PEND_BITS, .ro⟩]⟩,
  ⟨"IC_EN", 0x10030200, 1, 0x0, 16, 0x4, 32, 0x0,
    [⟨F.IC_EN_BITS, .rw⟩]⟩,
  ⟨"IC_ACT", 0x10030300, 1, 0x0, 16, 0x4, 32, 0x0,
    [⟨F.IC_ACT_BITS, .ro⟩]⟩]

/-- Rows of the register map, block IC (R9, R32). -/
def regTableIC1 : List RegDesc := [
  ⟨"IC_SRCCFG", 0x10031000, 1, 0x0, 512, 0x4, 32, 0xf,
    [⟨F.IC_SRCCFG_WAKE, .rw⟩, ⟨F.IC_SRCCFG_ONESHOT, .rw⟩, ⟨F.IC_SRCCFG_TARGET, .rw⟩, ⟨F.IC_SRCCFG_PRIO, .rw⟩]⟩,
  ⟨"IC_PMR", 0x10034000, 8, 0x40, 1, 0x0, 32, 0x10,
    [⟨F.IC_PMR_PMR, .rw⟩]⟩,
  ⟨"IC_RPR", 0x10034004, 8, 0x40, 1, 0x0, 32, 0x10,
    [⟨F.IC_RPR_RPR, .ro⟩]⟩,
  ⟨"IC_HPPI", 0x10034008, 8, 0x40, 1, 0x0, 32, 0x3ff,
    [⟨F.IC_HPPI_ID, .ro⟩]⟩,
  ⟨"IC_EOI", 0x1003400c, 8, 0x40, 1, 0x0, 32, 0x0,
    [⟨F.IC_EOI_ID, .wo⟩]⟩,
  ⟨"IC_VBAR", 0x10034010, 8, 0x40, 1, 0x0, 64, 0x0,
    [⟨F.IC_VBAR_BASE, .rw⟩]⟩,
  ⟨"IC_SPUR", 0x10034018, 8, 0x40, 1, 0x0, 32, 0x0,
    [⟨F.IC_SPUR_OVF, .rc⟩, ⟨F.IC_SPUR_COUNT, .rc⟩]⟩]

/-- Rows of the register map, block TM (R9, R32). -/
def regTableTM0 : List RegDesc := [
  ⟨"TM_CTL", 0x10040000, 1, 0x0, 1, 0x0, 32, 0x1,
    [⟨F.TM_CTL_HOT_EN, .rw⟩, ⟨F.TM_CTL_EN, .rw⟩]⟩,
  ⟨"TM_STAT", 0x10040004, 1, 0x0, 1, 0x0, 32, 0x4000,
    [⟨F.TM_STAT_BUSY, .ro⟩, ⟨F.TM_STAT_RUNNING, .ro⟩, ⟨F.TM_STAT_QUEUED, .ro⟩, ⟨F.TM_STAT_FREE_OBJ, .ro⟩]⟩,
  ⟨"TM_CMD", 0x10040010, 1, 0x0, 4, 0x8, 64, 0x0,
    [⟨F.TM_CMD_DESC, .rw⟩]⟩,
  ⟨"TM_CMD_GO", 0x10040030, 1, 0x0, 1, 0x0, 32, 0x0,
    [⟨F.TM_CMD_GO_GO, .wo⟩]⟩,
  ⟨"TM_CMD_STAT", 0x10040034, 1, 0x0, 1, 0x0, 32, 0x0,
    [⟨F.TM_CMD_STAT_BUSY, .ro⟩, ⟨F.TM_CMD_STAT_DONE, .rw1c⟩, ⟨F.TM_CMD_STAT_OBJ, .ro⟩, ⟨F.TM_CMD_STAT_CODE, .ro⟩]⟩,
  ⟨"TM_OBJ_IDX", 0x10040040, 1, 0x0, 1, 0x0, 32, 0x0,
    [⟨F.TM_OBJ_IDX_INDEX, .rw⟩]⟩,
  ⟨"TM_OBJ_ENT", 0x10040048, 1, 0x0, 4, 0x8, 64, 0x0,
    [⟨F.TM_OBJ_ENT_ENTRY, .ro⟩]⟩,
  ⟨"TM_OBJ_RDCNT", 0x10040068, 1, 0x0, 1, 0x0, 32, 0x0,
    [⟨F.TM_OBJ_RDCNT_COUNT, .ro⟩]⟩]

/-- Rows of the register map, block TM (R9, R32). -/
def regTableTM1 : List RegDesc := [
  ⟨"TM_T1_FREE", 0x10040070, 1, 0x0, 1, 0x0, 32, 0x4000400,
    [⟨F.TM_T1_FREE_LARGEST, .ro⟩, ⟨F.TM_T1_FREE_FREE, .ro⟩]⟩,
  ⟨"TM_T0_FREE", 0x10040080, 1, 0x0, 16, 0x4, 32, 0x0,
    [⟨F.TM_T0_FREE_LARGEST, .ro⟩, ⟨F.TM_T0_FREE_FREE, .ro⟩]⟩,
  ⟨"TM_HOT_INT", 0x100400c0, 1, 0x0, 1, 0x0, 32, 0xa,
    [⟨F.TM_HOT_INT_MS, .rw⟩]⟩,
  ⟨"TM_HOT_BUDGET", 0x100400c4, 1, 0x0, 1, 0x0, 32, 0x100,
    [⟨F.TM_HOT_BUDGET_FRAMES, .rw⟩]⟩,
  ⟨"TM_TILES_UP", 0x10040100, 1, 0x0, 1, 0x0, 64, 0x0,
    [⟨F.TM_TILES_UP_COUNT, .ro⟩]⟩,
  ⟨"TM_TILES_WB", 0x10040108, 1, 0x0, 1, 0x0, 64, 0x0,
    [⟨F.TM_TILES_WB_COUNT, .ro⟩]⟩,
  ⟨"TM_CONFLICT_CNT", 0x10040110, 1, 0x0, 1, 0x0, 32, 0x0,
    [⟨F.TM_CONFLICT_CNT_OVF, .rc⟩, ⟨F.TM_CONFLICT_CNT_CANCELLED, .rc⟩, ⟨F.TM_CONFLICT_CNT_DEFERRED, .rc⟩]⟩,
  ⟨"TM_XLATE_ERR", 0x10040114, 1, 0x0, 1, 0x0, 32, 0x0,
    [⟨F.TM_XLATE_ERR_OVF, .rc⟩, ⟨F.TM_XLATE_ERR_COUNT, .rc⟩]⟩]

/-- Rows of the register map, block TM (R9, R32). -/
def regTableTM2 : List RegDesc := [
  ⟨"TM_XLATE_LOG", 0x10040118, 1, 0x0, 1, 0x0, 64, 0x0,
    [⟨F.TM_XLATE_LOG_VALID, .rw1c⟩, ⟨F.TM_XLATE_LOG_OVER, .rw1c⟩, ⟨F.TM_XLATE_LOG_WRITE, .ro⟩, ⟨F.TM_XLATE_LOG_ENGINE, .ro⟩, ⟨F.TM_XLATE_LOG_OBJ, .ro⟩, ⟨F.TM_XLATE_LOG_TILE, .ro⟩]⟩]

/-- Rows of the register map, block LE (R9, R32). -/
def regTableLE0 : List RegDesc := [
  ⟨"LE_CTL", 0x10050000, 1, 0x0, 1, 0x0, 32, 0x3,
    [⟨F.LE_CTL_PATROL_EN, .rw⟩, ⟨F.LE_CTL_EN, .rw⟩]⟩,
  ⟨"LE_STAT", 0x10050004, 1, 0x0, 1, 0x0, 32, 0x0,
    [⟨F.LE_STAT_BUSY, .ro⟩, ⟨F.LE_STAT_PHASE, .ro⟩, ⟨F.LE_STAT_SIDE, .ro⟩, ⟨F.LE_STAT_SLOT, .ro⟩, ⟨F.LE_STAT_PROGRAMMING, .ro⟩, ⟨F.LE_STAT_CODE, .ro⟩]⟩,
  ⟨"LE_ERR", 0x10050008, 1, 0x0, 1, 0x0, 32, 0x0,
    [⟨F.LE_ERR_VALID, .rw1c⟩, ⟨F.LE_ERR_SHARD, .ro⟩]⟩,
  ⟨"LE_TMO", 0x1005000c, 1, 0x0, 1, 0x0, 32, 0x64,
    [⟨F.LE_TMO_TMO_MS, .rw⟩]⟩,
  ⟨"LE_DRAM_BASE", 0x10050010, 1, 0x0, 1, 0x0, 64, 0x0,
    [⟨F.LE_DRAM_BASE_VALUE, .rw⟩]⟩,
  ⟨"LE_DRAM_SIZE", 0x10050018, 1, 0x0, 1, 0x0, 64, 0x0,
    [⟨F.LE_DRAM_SIZE_VALUE, .rw⟩]⟩,
  ⟨"LE_NVME_SQ", 0x10050020, 1, 0x0, 1, 0x0, 64, 0x0,
    [⟨F.LE_NVME_SQ_ADDR, .rw⟩]⟩,
  ⟨"LE_NVME_CQ", 0x10050028, 1, 0x0, 1, 0x0, 64, 0x0,
    [⟨F.LE_NVME_CQ_ADDR, .rw⟩]⟩]

/-- Rows of the register map, block LE (R9, R32). -/
def regTableLE1 : List RegDesc := [
  ⟨"LE_NVME_SQDB", 0x10050030, 1, 0x0, 1, 0x0, 64, 0x0,
    [⟨F.LE_NVME_SQDB_ADDR, .rw⟩]⟩,
  ⟨"LE_NVME_CQDB", 0x10050038, 1, 0x0, 1, 0x0, 64, 0x0,
    [⟨F.LE_NVME_CQDB_ADDR, .rw⟩]⟩,
  ⟨"LE_NVME_CFG", 0x10050040, 1, 0x0, 1, 0x0, 32, 0x0,
    [⟨F.LE_NVME_CFG_VALID, .rw⟩, ⟨F.LE_NVME_CFG_LBA_SHIFT, .rw⟩, ⟨F.LE_NVME_CFG_DEPTH, .rw⟩]⟩,
  ⟨"LE_PATROL_INT", 0x10050044, 1, 0x0, 1, 0x0, 32, 0x18,
    [⟨F.LE_PATROL_INT_HOURS, .rw⟩]⟩,
  ⟨"LE_PATROL_RATE", 0x10050048, 1, 0x0, 1, 0x0, 32, 0x3e8,
    [⟨F.LE_PATROL_RATE_MBPS, .rw⟩]⟩,
  ⟨"LE_PATROL_LAP", 0x1005004c, 1, 0x0, 1, 0x0, 32, 0x0,
    [⟨F.LE_PATROL_LAP_SECONDS, .ro⟩]⟩,
  ⟨"LE_PROGRESS", 0x10050050, 1, 0x0, 1, 0x0, 64, 0x0,
    [⟨F.LE_PROGRESS_ELIGIBLE, .ro⟩, ⟨F.LE_PROGRESS_ARRIVED_MB, .ro⟩]⟩,
  ⟨"LE_PATROL_CNT", 0x10050058, 1, 0x0, 1, 0x0, 32, 0x0,
    [⟨F.LE_PATROL_CNT_OVF, .rc⟩, ⟨F.LE_PATROL_CNT_COUNT, .rc⟩]⟩]

/-- Rows of the register map, block LE (R9, R32). -/
def regTableLE2 : List RegDesc := [
  ⟨"LE_FREE", 0x10050080, 1, 0x0, 16, 0x4, 32, 0x0,
    [⟨F.LE_FREE_BROKEN, .ro⟩, ⟨F.LE_FREE_WHOLE, .ro⟩]⟩,
  ⟨"LE_EXT_IDX", 0x100500c0, 1, 0x0, 1, 0x0, 32, 0x0,
    [⟨F.LE_EXT_IDX_INDEX, .rw⟩]⟩,
  ⟨"LE_EXT_OWNER", 0x100500c4, 1, 0x0, 1, 0x0, 32, 0x0,
    [⟨F.LE_EXT_OWNER_VALID, .ro⟩, ⟨F.LE_EXT_OWNER_SIDE, .ro⟩, ⟨F.LE_EXT_OWNER_SLOT, .ro⟩, ⟨F.LE_EXT_OWNER_SHARD, .ro⟩]⟩,
  ⟨"LE_EXT_DATA", 0x100500c8, 1, 0x0, 1, 0x0, 64, 0x0,
    [⟨F.LE_EXT_DATA_DRAM, .ro⟩, ⟨F.LE_EXT_DATA_TILES, .ro⟩, ⟨F.LE_EXT_DATA_STACK, .ro⟩, ⟨F.LE_EXT_DATA_LOC, .ro⟩]⟩,
  ⟨"LE_EXT_TILE", 0x100500d0, 1, 0x0, 1, 0x0, 32, 0x0,
    [⟨F.LE_EXT_TILE_FIRST, .ro⟩]⟩]

/-- Rows of the register map, block SYNC (R9, R32). -/
def regTableSYNC0 : List RegDesc := [
  ⟨"SYNC_STAT", 0x10060000, 1, 0x0, 1, 0x0, 32, 0x0,
    [⟨F.SYNC_STAT_OVF_SEEN, .rw1c⟩, ⟨F.SYNC_STAT_TYPE_ERR, .rw1c⟩, ⟨F.SYNC_STAT_POISON_OP, .rw1c⟩, ⟨F.SYNC_STAT_OBJ, .ro⟩]⟩,
  ⟨"SYNC_OVF_CNT", 0x10060004, 1, 0x0, 1, 0x0, 32, 0x0,
    [⟨F.SYNC_OVF_CNT_OVF, .rc⟩, ⟨F.SYNC_OVF_CNT_COUNT, .rc⟩]⟩,
  ⟨"SYNC_WATCH", 0x10060008, 1, 0x0, 1, 0x0, 32, 0x0,
    [⟨F.SYNC_WATCH_USED, .ro⟩]⟩,
  ⟨"SYNC_CENSUS_TMO", 0x10060010, 1, 0x0, 1, 0x0, 32, 0x3e8,
    [⟨F.SYNC_CENSUS_TMO_HOP_NS, .rw⟩]⟩,
  ⟨"SYNC_CENSUS_STAT", 0x10060014, 1, 0x0, 1, 0x0, 32, 0x0,
    [⟨F.SYNC_CENSUS_STAT_BUSY, .ro⟩, ⟨F.SYNC_CENSUS_STAT_CODE, .ro⟩, ⟨F.SYNC_CENSUS_STAT_COUNT, .ro⟩]⟩,
  ⟨"SYNC_CENSUS_MIN", 0x10060018, 1, 0x0, 1, 0x0, 64, 0x0,
    [⟨F.SYNC_CENSUS_MIN_HI, .ro⟩, ⟨F.SYNC_CENSUS_MIN_LO, .ro⟩]⟩,
  ⟨"SYNC_CENSUS_MAX", 0x10060020, 1, 0x0, 1, 0x0, 64, 0x0,
    [⟨F.SYNC_CENSUS_MAX_HI, .ro⟩, ⟨F.SYNC_CENSUS_MAX_LO, .ro⟩]⟩]

/-- Rows of the register map, block ARB (R9, R32). -/
def regTableARB0 : List RegDesc := [
  ⟨"ARB_FW_VER", 0x10070000, 1, 0x0, 1, 0x0, 32, 0x0,
    [⟨F.ARB_FW_VER_VERSION, .ro⟩]⟩,
  ⟨"ARB_STAT", 0x10070004, 1, 0x0, 1, 0x0, 32, 0x0,
    [⟨F.ARB_STAT_READY, .ro⟩, ⟨F.ARB_STAT_RESTARTED, .rw1c⟩]⟩,
  ⟨"ARB_BOOT_CFG", 0x10070010, 1, 0x0, 1, 0x0, 64, 0x0,
    [⟨F.ARB_BOOT_CFG_GO, .wo⟩, ⟨F.ARB_BOOT_CFG_DONE, .rw1c⟩, ⟨F.ARB_BOOT_CFG_REJ, .rw1c⟩, ⟨F.ARB_BOOT_CFG_COMPAT_EN, .rw⟩, ⟨F.ARB_BOOT_CFG_CONST_BASE, .rw⟩]⟩,
  ⟨"ARB_RECOV_CTL", 0x10070100, 1, 0x0, 1, 0x0, 32, 0x303,
    [⟨F.ARB_RECOV_CTL_REPLAY_MAX, .rw⟩, ⟨F.ARB_RECOV_CTL_RETRY_NOW, .wo⟩, ⟨F.ARB_RECOV_CTL_MIGRATE_EN, .rw⟩, ⟨F.ARB_RECOV_CTL_REENABLE_EN, .rw⟩]⟩,
  ⟨"ARB_RECOV_STAT", 0x10070104, 1, 0x0, 1, 0x0, 32, 0x0,
    [⟨F.ARB_RECOV_STAT_BUSY, .ro⟩, ⟨F.ARB_RECOV_STAT_ACTION, .ro⟩, ⟨F.ARB_RECOV_STAT_SLOT, .ro⟩, ⟨F.ARB_RECOV_STAT_SIDE, .ro⟩, ⟨F.ARB_RECOV_STAT_SHARD, .ro⟩, ⟨F.ARB_RECOV_STAT_CODE, .ro⟩]⟩,
  ⟨"ARB_RELOAD_RETRY", 0x10070108, 1, 0x0, 1, 0x0, 32, 0x3c,
    [⟨F.ARB_RELOAD_RETRY_SECONDS, .rw⟩]⟩,
  ⟨"ARB_HELD", 0x1007010c, 1, 0x0, 1, 0x0, 32, 0x0,
    [⟨F.ARB_HELD_COUNT, .ro⟩]⟩,
  ⟨"ARB_HOLD_IDX", 0x10070110, 1, 0x0, 1, 0x0, 32, 0x0,
    [⟨F.ARB_HOLD_IDX_INDEX, .rw⟩]⟩]

/-- Rows of the register map, block ARB (R9, R32). -/
def regTableARB1 : List RegDesc := [
  ⟨"ARB_HOLD_ENT", 0x10070118, 1, 0x0, 1, 0x0, 64, 0x0,
    [⟨F.ARB_HOLD_ENT_VALID, .ro⟩, ⟨F.ARB_HOLD_ENT_REASON, .ro⟩, ⟨F.ARB_HOLD_ENT_PIPE, .ro⟩, ⟨F.ARB_HOLD_ENT_BATCH, .ro⟩, ⟨F.ARB_HOLD_ENT_SLOT, .ro⟩, ⟨F.ARB_HOLD_ENT_SIDE, .ro⟩, ⟨F.ARB_HOLD_ENT_REPLAYS, .ro⟩, ⟨F.ARB_HOLD_ENT_DETAIL, .ro⟩]⟩,
  ⟨"ARB_HOLD_CTL", 0x10070120, 1, 0x0, 1, 0x0, 32, 0x0,
    [⟨F.ARB_HOLD_CTL_REPLAY, .wo⟩, ⟨F.ARB_HOLD_CTL_RESIGN, .wo⟩, ⟨F.ARB_HOLD_CTL_INDEX, .wo⟩]⟩,
  ⟨"ARB_HEALTH", 0x10070128, 1, 0x0, 1, 0x0, 64, 0x0,
    [⟨F.ARB_HEALTH_ENG_FAILED, .ro⟩, ⟨F.ARB_HEALTH_STACK_DEGRADED, .ro⟩, ⟨F.ARB_HEALTH_STACK_DEAD, .ro⟩, ⟨F.ARB_HEALTH_PORT_NARROW, .ro⟩, ⟨F.ARB_HEALTH_PORT_DOWN, .ro⟩]⟩,
  ⟨"ARB_MIGRATE", 0x10070130, 1, 0x0, 1, 0x0, 32, 0x0,
    [⟨F.ARB_MIGRATE_BUSY, .ro⟩, ⟨F.ARB_MIGRATE_LEFT, .ro⟩]⟩,
  ⟨"ARB_QUAR", 0x10070134, 1, 0x0, 1, 0x0, 32, 0x0,
    [⟨F.ARB_QUAR_TILES, .ro⟩]⟩,
  ⟨"ARB_SCORE_STAT", 0x10070200, 1, 0x0, 1, 0x0, 32, 0x0,
    [⟨F.ARB_SCORE_STAT_SCANNING, .ro⟩, ⟨F.ARB_SCORE_STAT_ERASING, .ro⟩, ⟨F.ARB_SCORE_STAT_POST_REJ, .rw1c⟩, ⟨F.ARB_SCORE_STAT_QUEUED, .ro⟩]⟩,
  ⟨"ARB_SCORE_SEQ", 0x10070204, 1, 0x0, 1, 0x0, 32, 0x0,
    [⟨F.ARB_SCORE_SEQ_NEXT, .ro⟩]⟩,
  ⟨"ARB_SCORE_FLUSH", 0x10070208, 1, 0x0, 1, 0x0, 32, 0x0,
    [⟨F.ARB_SCORE_FLUSH_GO, .wo⟩]⟩]

/-- Rows of the register map, block ARB (R9, R32). -/
def regTableARB2 : List RegDesc := [
  ⟨"ARB_SCORE_FLUSH_TMO", 0x1007020c, 1, 0x0, 1, 0x0, 32, 0xa,
    [⟨F.ARB_SCORE_FLUSH_TMO_SECONDS, .rw⟩]⟩,
  ⟨"ARB_SCORE_POST", 0x10070210, 1, 0x0, 4, 0x8, 64, 0x0,
    [⟨F.ARB_SCORE_POST_ARG, .rw⟩]⟩,
  ⟨"ARB_SCORE_POST_CTL", 0x10070230, 1, 0x0, 1, 0x0, 32, 0x0,
    [⟨F.ARB_SCORE_POST_CTL_GO, .wo⟩]⟩,
  ⟨"ARB_SCORE_LOST", 0x10070234, 1, 0x0, 1, 0x0, 32, 0x0,
    [⟨F.ARB_SCORE_LOST_OVF, .rc⟩, ⟨F.ARB_SCORE_LOST_COUNT, .rc⟩]⟩,
  ⟨"ARB_CASTLE_HOLD", 0x10070400, 1, 0x0, 1, 0x0, 32, 0x258,
    [⟨F.ARB_CASTLE_HOLD_HOLD_S, .rw⟩]⟩,
  ⟨"ARB_CASTLE_TMO", 0x10070404, 1, 0x0, 1, 0x0, 32, 0x1f4,
    [⟨F.ARB_CASTLE_TMO_TMO_MS, .rw⟩]⟩,
  ⟨"ARB_SLOT_IDX", 0x10070408, 1, 0x0, 1, 0x0, 32, 0x0,
    [⟨F.ARB_SLOT_IDX_SLOT, .rw⟩]⟩,
  ⟨"ARB_SLOT_CTL", 0x1007040c, 1, 0x0, 1, 0x0, 32, 0x0,
    [⟨F.ARB_SLOT_CTL_EXPIRE, .wo⟩]⟩]

/-- Rows of the register map, block ARB (R9, R32). -/
def regTableARB3 : List RegDesc := [
  ⟨"ARB_SLOT_STAT", 0x10070410, 1, 0x0, 1, 0x0, 32, 0x0,
    [⟨F.ARB_SLOT_STAT_LIVE_VALID, .ro⟩, ⟨F.ARB_SLOT_STAT_LIVE, .ro⟩, ⟨F.ARB_SLOT_STAT_CASTLING, .ro⟩, ⟨F.ARB_SLOT_STAT_UNAVAIL, .ro⟩, ⟨F.ARB_SLOT_STAT_HOLD, .ro⟩, ⟨F.ARB_SLOT_STAT_Q_STATE, .ro⟩, ⟨F.ARB_SLOT_STAT_K_STATE, .ro⟩]⟩,
  ⟨"ARB_SIDE_REF_K", 0x10070414, 1, 0x0, 1, 0x0, 32, 0x0,
    [⟨F.ARB_SIDE_REF_K_SESSIONS, .ro⟩, ⟨F.ARB_SIDE_REF_K_BATCHES, .ro⟩]⟩,
  ⟨"ARB_SIDE_REF_Q", 0x10070418, 1, 0x0, 1, 0x0, 32, 0x0,
    [⟨F.ARB_SIDE_REF_Q_SESSIONS, .ro⟩, ⟨F.ARB_SIDE_REF_Q_BATCHES, .ro⟩]⟩,
  ⟨"ARB_HOLD_LEFT", 0x1007041c, 1, 0x0, 1, 0x0, 32, 0x0,
    [⟨F.ARB_HOLD_LEFT_SECONDS, .ro⟩]⟩,
  ⟨"ARB_SLOT_SWITCH", 0x10070420, 1, 0x0, 1, 0x0, 64, 0x0,
    [⟨F.ARB_SLOT_SWITCH_TIME, .ro⟩]⟩,
  ⟨"ARB_SLOT_SEQ", 0x10070428, 1, 0x0, 1, 0x0, 32, 0x0,
    [⟨F.ARB_SLOT_SEQ_SEQ, .ro⟩]⟩,
  ⟨"ARB_SLOT_LIVE", 0x10070430, 1, 0x0, 1, 0x0, 64, 0x0,
    [⟨F.ARB_SLOT_LIVE_MAP, .ro⟩]⟩,
  ⟨"ARB_SLOT_UNAVAIL", 0x10070438, 1, 0x0, 1, 0x0, 64, 0x0,
    [⟨F.ARB_SLOT_UNAVAIL_MAP, .ro⟩]⟩]

/-- Rows of the register map, block ARB (R9, R32). -/
def regTableARB4 : List RegDesc := [
  ⟨"ARB_SESSIONS", 0x10070440, 1, 0x0, 1, 0x0, 32, 0x0,
    [⟨F.ARB_SESSIONS_FULL_SEEN, .rw1c⟩, ⟨F.ARB_SESSIONS_OPEN, .ro⟩]⟩,
  ⟨"ARB_HOLD_DONE", 0x10070448, 1, 0x0, 1, 0x0, 64, 0x0,
    [⟨F.ARB_HOLD_DONE_MAP, .rw1c⟩]⟩,
  ⟨"ARB_TR_STAT", 0x10070500, 1, 0x0, 1, 0x0, 32, 0x0,
    [⟨F.ARB_TR_STAT_BUSY, .ro⟩, ⟨F.ARB_TR_STAT_PHASE, .ro⟩, ⟨F.ARB_TR_STAT_HANDLE, .ro⟩, ⟨F.ARB_TR_STAT_CODE, .ro⟩]⟩,
  ⟨"ARB_TR_STEP", 0x10070504, 1, 0x0, 1, 0x0, 32, 0x0,
    [⟨F.ARB_TR_STEP_DONE, .ro⟩]⟩,
  ⟨"ARB_TR_T", 0x10070508, 1, 0x0, 1, 0x0, 32, 0x0,
    [⟨F.ARB_TR_T_T, .ro⟩]⟩,
  ⟨"ARB_TR_GCLIP", 0x1007050c, 1, 0x0, 1, 0x0, 32, 0x0,
    [⟨F.ARB_TR_GCLIP_OVF, .rc⟩, ⟨F.ARB_TR_GCLIP_COUNT, .rc⟩]⟩,
  ⟨"ARB_TR_NONFIN", 0x10070510, 1, 0x0, 1, 0x0, 32, 0x0,
    [⟨F.ARB_TR_NONFIN_OVF, .rc⟩, ⟨F.ARB_TR_NONFIN_COUNT, .rc⟩]⟩]

/-- Rows of the register map, block INTG (R9, R32). -/
def regTableINTG0 : List RegDesc := [
  ⟨"INTG_CTL", 0x10080000, 1, 0x0, 1, 0x0, 32, 0x401,
    [⟨F.INTG_CTL_REPEAT, .rw⟩, ⟨F.INTG_CTL_SCRUB_DIV, .rw⟩, ⟨F.INTG_CTL_CE_WB, .rw⟩]⟩,
  ⟨"INTG_SCRUB_EN", 0x10080008, 1, 0x0, 1, 0x0, 64, 0x77ffff,
    [⟨F.INTG_SCRUB_EN_EN, .rw⟩]⟩,
  ⟨"INTG_SEL", 0x10080010, 1, 0x0, 1, 0x0, 32, 0x0,
    [⟨F.INTG_SEL_STORE, .rw⟩]⟩,
  ⟨"INTG_CNT", 0x10080018, 1, 0x0, 1, 0x0, 64, 0x0,
    [⟨F.INTG_CNT_OVF, .rc⟩, ⟨F.INTG_CNT_UE, .rc⟩, ⟨F.INTG_CNT_CE, .rc⟩]⟩,
  ⟨"INTG_LOG_STAT", 0x10080020, 1, 0x0, 1, 0x0, 32, 0x0,
    [⟨F.INTG_LOG_STAT_FULL, .rw1c⟩, ⟨F.INTG_LOG_STAT_USED, .ro⟩]⟩,
  ⟨"INTG_LOG_IDX", 0x10080024, 1, 0x0, 1, 0x0, 32, 0x0,
    [⟨F.INTG_LOG_IDX_INDEX, .rw⟩]⟩,
  ⟨"INTG_LOG_ENT", 0x10080028, 1, 0x0, 1, 0x0, 64, 0x0,
    [⟨F.INTG_LOG_ENT_VALID, .rw1c⟩, ⟨F.INTG_LOG_ENT_HITS, .ro⟩, ⟨F.INTG_LOG_ENT_SYM, .ro⟩, ⟨F.INTG_LOG_ENT_ADDR, .ro⟩]⟩,
  ⟨"INTG_LAP", 0x10080030, 1, 0x0, 1, 0x0, 32, 0x0,
    [⟨F.INTG_LAP_LAP_US, .ro⟩]⟩]

/-- Rows of the register map, block INTG (R9, R32). -/
def regTableINTG1 : List RegDesc := [
  ⟨"INTG_SCRUB_POS", 0x10080038, 1, 0x0, 1, 0x0, 64, 0x0,
    [⟨F.INTG_SCRUB_POS_ADDR, .ro⟩]⟩,
  ⟨"INTG_LAP_TMO", 0x10080040, 1, 0x0, 1, 0x0, 32, 0xe10,
    [⟨F.INTG_LAP_TMO_SECONDS, .rw⟩]⟩,
  ⟨"INTG_UE_SEQ", 0x10080080, 1, 0x0, 1, 0x0, 32, 0x0,
    [⟨F.INTG_UE_SEQ_SEQ, .ro⟩]⟩,
  ⟨"INTG_UE_IDX", 0x10080084, 1, 0x0, 1, 0x0, 32, 0x0,
    [⟨F.INTG_UE_IDX_INDEX, .rw⟩]⟩,
  ⟨"INTG_UE_ENT0", 0x10080088, 1, 0x0, 1, 0x0, 64, 0x0,
    [⟨F.INTG_UE_ENT0_SEQ, .ro⟩, ⟨F.INTG_UE_ENT0_CAUSE, .ro⟩, ⟨F.INTG_UE_ENT0_STORE, .ro⟩]⟩,
  ⟨"INTG_UE_ENT1", 0x10080090, 1, 0x0, 1, 0x0, 64, 0x0,
    [⟨F.INTG_UE_ENT1_ADDR, .ro⟩]⟩,
  ⟨"INTG_UE_ENT2", 0x10080098, 1, 0x0, 1, 0x0, 64, 0x0,
    [⟨F.INTG_UE_ENT2_TIME, .ro⟩]⟩,
  ⟨"INTG_PC_STAT", 0x100800a0, 1, 0x0, 1, 0x0, 32, 0x0,
    [⟨F.INTG_PC_STAT_VALID, .rw1c⟩, ⟨F.INTG_PC_STAT_OVER, .rw1c⟩, ⟨F.INTG_PC_STAT_CAUSE, .ro⟩, ⟨F.INTG_PC_STAT_MASTER, .ro⟩]⟩]

/-- Rows of the register map, block INTG (R9, R32). -/
def regTableINTG2 : List RegDesc := [
  ⟨"INTG_PC_INFO", 0x100800a4, 1, 0x0, 1, 0x0, 32, 0x0,
    [⟨F.INTG_PC_INFO_BATCH, .ro⟩, ⟨F.INTG_PC_INFO_ID, .ro⟩]⟩,
  ⟨"INTG_PC_ADDR", 0x100800a8, 1, 0x0, 1, 0x0, 64, 0x0,
    [⟨F.INTG_PC_ADDR_ADDR, .ro⟩]⟩,
  ⟨"INTG_PC_CNT", 0x100800b0, 1, 0x0, 1, 0x0, 32, 0x0,
    [⟨F.INTG_PC_CNT_OVF, .rc⟩, ⟨F.INTG_PC_CNT_COUNT, .rc⟩]⟩,
  ⟨"INTG_FLIP", 0x10080100, 1, 0x0, 1, 0x0, 64, 0x0,
    [⟨F.INTG_FLIP_ARM, .rw⟩, ⟨F.INTG_FLIP_POISON, .rw⟩, ⟨F.INTG_FLIP_STORE, .rw⟩, ⟨F.INTG_FLIP_POS1, .rw⟩, ⟨F.INTG_FLIP_VAL1, .rw⟩, ⟨F.INTG_FLIP_POS0, .rw⟩, ⟨F.INTG_FLIP_VAL0, .rw⟩]⟩]

/-- Rows of the register map, block KEY (R9, R32). -/
def regTableKEY0 : List RegDesc := [
  ⟨"KEY_BOOT_STAT", 0x10090000, 1, 0x0, 1, 0x0, 32, 0x0,
    [⟨F.KEY_BOOT_STAT_PHASE, .ro⟩, ⟨F.KEY_BOOT_STAT_CAUSE, .ro⟩, ⟨F.KEY_BOOT_STAT_COPY, .ro⟩, ⟨F.KEY_BOOT_STAT_LDR_CODE, .ro⟩, ⟨F.KEY_BOOT_STAT_CODE1, .ro⟩, ⟨F.KEY_BOOT_STAT_CODE0, .ro⟩]⟩,
  ⟨"KEY_SLOT_STAT", 0x10090008, 1, 0x0, 1, 0x0, 32, 0x55,
    [⟨F.KEY_SLOT_STAT_FLOOR, .ro⟩, ⟨F.KEY_SLOT_STAT_SLOT, .ro⟩]⟩,
  ⟨"KEY_HASH", 0x10090040, 1, 0x0, 8, 0x8, 64, 0x0,
    [⟨F.KEY_HASH_VALUE, .rw⟩]⟩,
  ⟨"KEY_REC_ADDR", 0x10090080, 1, 0x0, 1, 0x0, 64, 0x0,
    [⟨F.KEY_REC_ADDR_VALUE, .rw⟩]⟩,
  ⟨"KEY_FUSE_CTL", 0x10090088, 1, 0x0, 1, 0x0, 32, 0x0,
    [⟨F.KEY_FUSE_CTL_PROG, .wo⟩, ⟨F.KEY_FUSE_CTL_REVOKE, .wo⟩, ⟨F.KEY_FUSE_CTL_RAISE, .wo⟩, ⟨F.KEY_FUSE_CTL_LEVEL, .rw⟩, ⟨F.KEY_FUSE_CTL_SLOT, .rw⟩]⟩,
  ⟨"KEY_STAT", 0x1009008c, 1, 0x0, 1, 0x0, 32, 0x0,
    [⟨F.KEY_STAT_BUSY, .ro⟩, ⟨F.KEY_STAT_REFUSED, .rw1c⟩, ⟨F.KEY_STAT_CODE, .ro⟩]⟩,
  ⟨"KEY_NONCE", 0x100900c0, 1, 0x0, 8, 0x8, 64, 0x0,
    [⟨F.KEY_NONCE_VALUE, .rw⟩]⟩,
  ⟨"KEY_ATT_DST", 0x10090100, 1, 0x0, 1, 0x0, 64, 0x0,
    [⟨F.KEY_ATT_DST_VALUE, .rw⟩]⟩]

/-- Rows of the register map, block KEY (R9, R32). -/
def regTableKEY1 : List RegDesc := [
  ⟨"KEY_ATT_CTL", 0x10090108, 1, 0x0, 1, 0x0, 32, 0x0,
    [⟨F.KEY_ATT_CTL_GO, .wo⟩, ⟨F.KEY_ATT_CTL_ARG, .wo⟩]⟩,
  ⟨"KEY_RST", 0x10090110, 1, 0x0, 1, 0x0, 32, 0x0,
    [⟨F.KEY_RST_GO, .wo⟩, ⟨F.KEY_RST_ARG, .wo⟩]⟩,
  ⟨"KEY_RECOVER", 0x10090114, 1, 0x0, 1, 0x0, 32, 0x0,
    [⟨F.KEY_RECOVER_GO, .wo⟩, ⟨F.KEY_RECOVER_ARG, .wo⟩]⟩,
  ⟨"KEY_CTL", 0x10090118, 1, 0x0, 1, 0x0, 32, 0x1,
    [⟨F.KEY_CTL_PERST_RESET, .rw⟩]⟩]

/-- Rows of the register map, block DDR (R9, R32). -/
def regTableDDR0 : List RegDesc := [
  ⟨"DDR_CTL", 0x100a0000, 1, 0x0, 1, 0x0, 32, 0x0,
    [⟨F.DDR_CTL_TRAIN, .wo⟩]⟩,
  ⟨"DDR_IRQ_STAT", 0x100a0004, 1, 0x0, 1, 0x0, 32, 0x0,
    [⟨F.DDR_IRQ_STAT_BITS, .rw1c⟩]⟩,
  ⟨"DDR_IRQ_EN", 0x100a0008, 1, 0x0, 1, 0x0, 32, 0x0,
    [⟨F.DDR_IRQ_EN_BITS, .rw⟩]⟩,
  ⟨"DDR_STAT", 0x100a000c, 1, 0x0, 1, 0x0, 32, 0x0,
    [⟨F.DDR_STAT_TRAINED, .ro⟩, ⟨F.DDR_STAT_INIT_DONE, .ro⟩, ⟨F.DDR_STAT_CFG_ERR, .ro⟩, ⟨F.DDR_STAT_FAIL_CH, .ro⟩]⟩,
  ⟨"DDR_CFG", 0x100a0010, 1, 0x0, 1, 0x0, 32, 0x102,
    [⟨F.DDR_CFG_CAP, .rw⟩, ⟨F.DDR_CFG_RANKS, .rw⟩, ⟨F.DDR_CFG_RATE, .rw⟩]⟩,
  ⟨"DDR_TRAIN_TMO", 0x100a0014, 1, 0x0, 1, 0x0, 32, 0x1f4,
    [⟨F.DDR_TRAIN_TMO_MS, .rw⟩]⟩]

/-- Rows of the register map, block IMG (R9, R32). -/
def regTableIMG0 : List RegDesc := [
  ⟨"IMG_CTL", 0x100b0000, 1, 0x0, 1, 0x0, 32, 0x0,
    [⟨F.IMG_CTL_LOCK, .w1s⟩, ⟨F.IMG_CTL_CFG_LOCK, .w1s⟩, ⟨F.IMG_CTL_COMPAT_EN, .rwl⟩]⟩,
  ⟨"IMG_SRC", 0x100b0008, 1, 0x0, 1, 0x0, 64, 0x0,
    [⟨F.IMG_SRC_ADDR, .rw⟩]⟩,
  ⟨"IMG_SRC_LEN", 0x100b0010, 1, 0x0, 1, 0x0, 32, 0x0,
    [⟨F.IMG_SRC_LEN_LEN, .rw⟩]⟩,
  ⟨"IMG_LOAD", 0x100b0014, 1, 0x0, 1, 0x0, 32, 0x0,
    [⟨F.IMG_LOAD_ABORT, .wo⟩, ⟨F.IMG_LOAD_GO, .wo⟩]⟩,
  ⟨"IMG_LOAD_STAT", 0x100b0018, 1, 0x0, 1, 0x0, 32, 0x0,
    [⟨F.IMG_LOAD_STAT_BUSY, .ro⟩, ⟨F.IMG_LOAD_STAT_PASS, .ro⟩, ⟨F.IMG_LOAD_STAT_REFUSED, .rw1c⟩, ⟨F.IMG_LOAD_STAT_CODE, .ro⟩]⟩,
  ⟨"IMG_ERR_OFF", 0x100b001c, 1, 0x0, 1, 0x0, 32, 0x0,
    [⟨F.IMG_ERR_OFF_OFFSET, .ro⟩]⟩,
  ⟨"IMG_SLOT_STAT", 0x100b0020, 1, 0x0, 1, 0x0, 32, 0x0,
    [⟨F.IMG_SLOT_STAT_ACTIVE, .ro⟩, ⟨F.IMG_SLOT_STAT_B_STATE, .ro⟩, ⟨F.IMG_SLOT_STAT_A_STATE, .ro⟩]⟩,
  ⟨"IMG_EPOCH_A", 0x100b0024, 1, 0x0, 1, 0x0, 32, 0x0,
    [⟨F.IMG_EPOCH_A_EPOCH, .ro⟩]⟩]

/-- Rows of the register map, block IMG (R9, R32). -/
def regTableIMG1 : List RegDesc := [
  ⟨"IMG_EPOCH_B", 0x100b0028, 1, 0x0, 1, 0x0, 32, 0x0,
    [⟨F.IMG_EPOCH_B_EPOCH, .ro⟩]⟩,
  ⟨"IMG_EPOCH_MIN", 0x100b002c, 1, 0x0, 1, 0x0, 32, 0x0,
    [⟨F.IMG_EPOCH_MIN_FLOOR, .rwl⟩]⟩,
  ⟨"IMG_ACT_CTL", 0x100b0030, 1, 0x0, 1, 0x0, 32, 0x0,
    [⟨F.IMG_ACT_CTL_GO, .wo⟩, ⟨F.IMG_ACT_CTL_BARRIER_EN, .rw⟩, ⟨F.IMG_ACT_CTL_BARRIER, .rw⟩]⟩,
  ⟨"IMG_ACT_TMO", 0x100b0034, 1, 0x0, 1, 0x0, 32, 0x1f4,
    [⟨F.IMG_ACT_TMO_TMO_MS, .rw⟩]⟩,
  ⟨"IMG_ACT_STAT", 0x100b0038, 1, 0x0, 1, 0x0, 32, 0x0,
    [⟨F.IMG_ACT_STAT_BUSY, .ro⟩, ⟨F.IMG_ACT_STAT_REFUSED, .rw1c⟩, ⟨F.IMG_ACT_STAT_PHASE, .ro⟩, ⟨F.IMG_ACT_STAT_CODE, .ro⟩]⟩,
  ⟨"IMG_CONST_BASE", 0x100b0040, 1, 0x0, 1, 0x0, 64, 0x0,
    [⟨F.IMG_CONST_BASE_ADDR, .rwl⟩]⟩,
  ⟨"IMG_DIGEST_A", 0x100b0100, 1, 0x0, 8, 0x8, 64, 0x0,
    [⟨F.IMG_DIGEST_A_DIGEST, .ro⟩]⟩,
  ⟨"IMG_DIGEST_B", 0x100b0140, 1, 0x0, 8, 0x8, 64, 0x0,
    [⟨F.IMG_DIGEST_B_DIGEST, .ro⟩]⟩]

/-- Rows of the register map, block IMG (R9, R32). -/
def regTableIMG2 : List RegDesc := [
  ⟨"IMG_DIGEST_ACT", 0x100b0180, 1, 0x0, 8, 0x8, 64, 0x0,
    [⟨F.IMG_DIGEST_ACT_DIGEST, .ro⟩]⟩,
  ⟨"IMG_FP", 0x100b01c0, 1, 0x0, 1, 0x0, 64, 0x0,
    [⟨F.IMG_FP_FP, .ro⟩]⟩,
  ⟨"IMG_FP_SEQ", 0x100b01c8, 1, 0x0, 1, 0x0, 32, 0x0,
    [⟨F.IMG_FP_SEQ_SEQ, .ro⟩]⟩]

/-- Rows of the register map, block RING (R9, R32). -/
def regTableRING0 : List RegDesc := [
  ⟨"RING_PROG_INT", 0x100c0000, 1, 0x0, 1, 0x0, 32, 0x64,
    [⟨F.RING_PROG_INT_MS, .rw⟩]⟩,
  ⟨"RING_CPL_TMO", 0x100c0004, 1, 0x0, 1, 0x0, 32, 0xa,
    [⟨F.RING_CPL_TMO_MS, .rw⟩]⟩,
  ⟨"RING_OP_IDX", 0x100c0008, 1, 0x0, 1, 0x0, 32, 0x0,
    [⟨F.RING_OP_IDX_HANDLE, .rw⟩]⟩,
  ⟨"RING_OP_ENT", 0x100c0010, 1, 0x0, 1, 0x0, 64, 0x0,
    [⟨F.RING_OP_ENT_IN_USE, .ro⟩, ⟨F.RING_OP_ENT_STATE, .ro⟩, ⟨F.RING_OP_ENT_OPCODE, .ro⟩, ⟨F.RING_OP_ENT_RING, .ro⟩, ⟨F.RING_OP_ENT_TAG, .ro⟩, ⟨F.RING_OP_ENT_CMD_IDX, .ro⟩]⟩,
  ⟨"RING_ENTRY_ERR", 0x100c0018, 1, 0x0, 1, 0x0, 32, 0x0,
    [⟨F.RING_ENTRY_ERR_OVF, .rc⟩, ⟨F.RING_ENTRY_ERR_COUNT, .rc⟩]⟩,
  ⟨"RING_CMD_BASE", 0x100c1000, 16, 0x40, 1, 0x0, 64, 0x0,
    [⟨F.RING_CMD_BASE_ADDR, .rw⟩]⟩,
  ⟨"RING_CPL_BASE", 0x100c1008, 16, 0x40, 1, 0x0, 64, 0x0,
    [⟨F.RING_CPL_BASE_ADDR, .rw⟩]⟩,
  ⟨"RING_CFG", 0x100c1010, 16, 0x40, 1, 0x0, 32, 0x0,
    [⟨F.RING_CFG_EN, .rw⟩, ⟨F.RING_CFG_CPL_LOG2, .rw⟩, ⟨F.RING_CFG_CMD_LOG2, .rw⟩]⟩]

/-- Rows of the register map, block RING (R9, R32). -/
def regTableRING1 : List RegDesc := [
  ⟨"RING_CMD_HEAD", 0x100c1014, 16, 0x40, 1, 0x0, 32, 0x0,
    [⟨F.RING_CMD_HEAD_INDEX, .ro⟩]⟩,
  ⟨"RING_CMD_TAIL", 0x100c1018, 16, 0x40, 1, 0x0, 32, 0x0,
    [⟨F.RING_CMD_TAIL_INDEX, .rw⟩]⟩,
  ⟨"RING_CPL_HEAD", 0x100c101c, 16, 0x40, 1, 0x0, 32, 0x0,
    [⟨F.RING_CPL_HEAD_INDEX, .rw⟩]⟩,
  ⟨"RING_CPL_TAIL", 0x100c1020, 16, 0x40, 1, 0x0, 32, 0x0,
    [⟨F.RING_CPL_TAIL_INDEX, .ro⟩]⟩,
  ⟨"RING_MOD", 0x100c1024, 16, 0x40, 1, 0x0, 32, 0x1,
    [⟨F.RING_MOD_US, .rw⟩, ⟨F.RING_MOD_CNT, .rw⟩]⟩,
  ⟨"RING_STAT", 0x100c1028, 16, 0x40, 1, 0x0, 32, 0x0,
    [⟨F.RING_STAT_STOPPED, .rw1c⟩, ⟨F.RING_STAT_CAUSE, .ro⟩, ⟨F.RING_STAT_PENDING, .ro⟩, ⟨F.RING_STAT_WAIT_ADMIT, .ro⟩, ⟨F.RING_STAT_TAIL_ERR, .rw1c⟩, ⟨F.RING_STAT_HEAD_ERR, .rw1c⟩, ⟨F.RING_STAT_CPL_FULL, .rw1c⟩]⟩]

/-- Rows of the register map, block ENG (R9, R32). -/
def regTableENG0 : List RegDesc := [
  ⟨"ENG_CTL", 0x10100000, 16, 0x10000, 1, 0x0, 32, 0x1,
    [⟨F.ENG_CTL_CNT_CLR, .wo⟩, ⟨F.ENG_CTL_FAIL, .wo⟩, ⟨F.ENG_CTL_KILL, .wo⟩, ⟨F.ENG_CTL_EN, .rw⟩]⟩,
  ⟨"ENG_STAT", 0x10100004, 16, 0x10000, 1, 0x0, 32, 0x1,
    [⟨F.ENG_STAT_FAULT, .ro⟩, ⟨F.ENG_STAT_HOSTING, .ro⟩, ⟨F.ENG_STAT_STATE, .ro⟩]⟩,
  ⟨"ENG_RELOC", 0x10100008, 16, 0x10000, 1, 0x0, 32, 0x0,
    [⟨F.ENG_RELOC_RELOCATED, .rw⟩, ⟨F.ENG_RELOC_GUEST_VALID, .rw⟩, ⟨F.ENG_RELOC_GUEST, .rw⟩, ⟨F.ENG_RELOC_HOST_MASK, .rw⟩]⟩,
  ⟨"ENG_LOOKAHEAD", 0x1010000c, 16, 0x10000, 1, 0x0, 32, 0x0,
    [⟨F.ENG_LOOKAHEAD_AREA, .ro⟩, ⟨F.ENG_LOOKAHEAD_LIMIT, .ro⟩]⟩,
  ⟨"ENG_DRAIN_TMO", 0x10100010, 16, 0x10000, 1, 0x0, 32, 0x3e8,
    [⟨F.ENG_DRAIN_TMO_TMO_US, .rw⟩]⟩,
  ⟨"ENG_WAIT_TMO", 0x10100014, 16, 0x10000, 1, 0x0, 32, 0x64,
    [⟨F.ENG_WAIT_TMO_TMO_MS, .rw⟩]⟩,
  ⟨"ENG_WAIT_STAT", 0x10100018, 16, 0x10000, 1, 0x0, 32, 0x0,
    [⟨F.ENG_WAIT_STAT_VALID, .rw1c⟩, ⟨F.ENG_WAIT_STAT_OVER, .rw1c⟩, ⟨F.ENG_WAIT_STAT_WAIT, .ro⟩, ⟨F.ENG_WAIT_STAT_STAGE, .ro⟩]⟩,
  ⟨"ENG_FIRE_TMO", 0x1010001c, 16, 0x10000, 1, 0x0, 32, 0xa,
    [⟨F.ENG_FIRE_TMO_TMO_MS, .rw⟩]⟩]

/-- Rows of the register map, block ENG (R9, R32). -/
def regTableENG1 : List RegDesc := [
  ⟨"ENG_FIRE_CNT", 0x10100040, 16, 0x10000, 1, 0x0, 64, 0x0,
    [⟨F.ENG_FIRE_CNT_COUNT, .ro⟩]⟩,
  ⟨"ENG_MX_BUSY", 0x10100048, 16, 0x10000, 1, 0x0, 64, 0x0,
    [⟨F.ENG_MX_BUSY_COUNT, .ro⟩]⟩,
  ⟨"ENG_STALL_WS", 0x10100050, 16, 0x10000, 1, 0x0, 64, 0x0,
    [⟨F.ENG_STALL_WS_COUNT, .ro⟩]⟩,
  ⟨"ENG_STALL_IN", 0x10100058, 16, 0x10000, 1, 0x0, 64, 0x0,
    [⟨F.ENG_STALL_IN_COUNT, .ro⟩]⟩,
  ⟨"ENG_STALL_CRED", 0x10100060, 16, 0x10000, 1, 0x0, 64, 0x0,
    [⟨F.ENG_STALL_CRED_COUNT, .ro⟩]⟩,
  ⟨"ENG_STALL_WAIT", 0x10100068, 16, 0x10000, 1, 0x0, 64, 0x0,
    [⟨F.ENG_STALL_WAIT_COUNT, .ro⟩]⟩]

/-- Rows of the register map, block QZ (R9, R32). -/
def regTableQZ0 : List RegDesc := [
  ⟨"QZ_ACC_SAT", 0x10100800, 16, 0x10000, 1, 0x0, 32, 0x0,
    [⟨F.QZ_ACC_SAT_OVF, .rc⟩, ⟨F.QZ_ACC_SAT_COUNT, .rc⟩]⟩,
  ⟨"QZ_AMAX", 0x10100900, 16, 0x10000, 64, 0x4, 32, 0x0,
    [⟨F.QZ_AMAX_AMAX, .rc⟩]⟩,
  ⟨"QZ_EXT", 0x10100a00, 16, 0x10000, 64, 0x8, 64, 0x800000007fffffff,
    [⟨F.QZ_EXT_QMAX, .rc⟩, ⟨F.QZ_EXT_QMIN, .rc⟩]⟩,
  ⟨"QZ_SCALE", 0x10100c00, 16, 0x10000, 64, 0x10, 32, 0x0,
    [⟨F.QZ_SCALE_SCALE, .rw⟩]⟩,
  ⟨"QZ_STAT", 0x10100c04, 16, 0x10000, 64, 0x10, 32, 0x0,
    [⟨F.QZ_STAT_FALLEN, .ro⟩, ⟨F.QZ_STAT_VALID, .ro⟩, ⟨F.QZ_STAT_MODE, .ro⟩, ⟨F.QZ_STAT_OUT_FMT, .ro⟩, ⟨F.QZ_STAT_SHORT_ROW, .rw1c⟩, ⟨F.QZ_STAT_SCALE_REJ, .rw1c⟩, ⟨F.QZ_STAT_RANGE_HI, .rw1c⟩, ⟨F.QZ_STAT_RANGE_LO, .rw1c⟩, ⟨F.QZ_STAT_SAT, .rw1c⟩]⟩,
  ⟨"QZ_SAT_CNT", 0x10100c08, 16, 0x10000, 64, 0x10, 32, 0x0,
    [⟨F.QZ_SAT_CNT_OVF, .rc⟩, ⟨F.QZ_SAT_CNT_COUNT, .rc⟩]⟩,
  ⟨"QZ_RANGE_CNT", 0x10100c0c, 16, 0x10000, 64, 0x10, 32, 0x0,
    [⟨F.QZ_RANGE_CNT_OVF, .rc⟩, ⟨F.QZ_RANGE_CNT_HI, .rc⟩, ⟨F.QZ_RANGE_CNT_LO, .rc⟩]⟩]

/-- Rows of the register map, block FIFO (R9, R32). -/
def regTableFIFO0 : List RegDesc := [
  ⟨"FIFO_POOL", 0x10200000, 1, 0x0, 1, 0x0, 32, 0x0,
    [⟨F.FIFO_POOL_USED, .ro⟩]⟩,
  ⟨"FIFO_PIN_STAT", 0x10200004, 1, 0x0, 1, 0x0, 32, 0xff,
    [⟨F.FIFO_PIN_STAT_TL_FC_OUT, .ro⟩, ⟨F.FIFO_PIN_STAT_FC_OUT, .ro⟩]⟩,
  ⟨"FIFO_STARVE_TMO", 0x10200008, 1, 0x0, 1, 0x0, 32, 0xa,
    [⟨F.FIFO_STARVE_TMO_TMO_MS, .rw⟩]⟩,
  ⟨"FIFO_PIN_HOLD", 0x1020000c, 1, 0x0, 1, 0x0, 32, 0x64,
    [⟨F.FIFO_PIN_HOLD_HOLD_NS, .rw⟩]⟩,
  ⟨"FIFO_BIND", 0x10210000, 1024, 0x40, 1, 0x0, 64, 0x0,
    [⟨F.FIFO_BIND_VALID, .ro⟩, ⟨F.FIFO_BIND_DST_MASK, .ro⟩, ⟨F.FIFO_BIND_DST, .ro⟩, ⟨F.FIFO_BIND_SRC, .ro⟩]⟩,
  ⟨"FIFO_CFG", 0x10210008, 1024, 0x40, 1, 0x0, 32, 0x0,
    [⟨F.FIFO_CFG_CT_THRESH, .ro⟩, ⟨F.FIFO_CFG_WM_PIN, .ro⟩, ⟨F.FIFO_CFG_MODE, .ro⟩, ⟨F.FIFO_CFG_DEPTH_SEG, .ro⟩]⟩,
  ⟨"FIFO_WM", 0x1021000c, 1024, 0x40, 1, 0x0, 32, 0x0,
    [⟨F.FIFO_WM_WM_HIGH, .rw⟩, ⟨F.FIFO_WM_WM_LOW, .rw⟩]⟩,
  ⟨"FIFO_STAT", 0x10210010, 1024, 0x40, 1, 0x0, 32, 0x0,
    [⟨F.FIFO_STAT_ABOVE, .ro⟩, ⟨F.FIFO_STAT_MARKED, .ro⟩, ⟨F.FIFO_STAT_SAF_OVR, .rw1c⟩, ⟨F.FIFO_STAT_MARK_FULL, .rw1c⟩, ⟨F.FIFO_STAT_STARVED, .rw1c⟩, ⟨F.FIFO_STAT_PROD_LOST, .rw1c⟩, ⟨F.FIFO_STAT_WM_REJ, .rw1c⟩, ⟨F.FIFO_STAT_HELD, .ro⟩, ⟨F.FIFO_STAT_OCC, .ro⟩]⟩]

/-- Rows of the register map, block FIFO (R9, R32). -/
def regTableFIFO1 : List RegDesc := [
  ⟨"FIFO_PKT", 0x10210014, 1024, 0x40, 1, 0x0, 32, 0x0,
    [⟨F.FIFO_PKT_PKT_IN, .ro⟩, ⟨F.FIFO_PKT_PKT_OUT, .ro⟩]⟩,
  ⟨"FIFO_ERR", 0x10210018, 1024, 0x40, 1, 0x0, 32, 0x0,
    [⟨F.FIFO_ERR_OVF, .rc⟩, ⟨F.FIFO_ERR_POISON, .rc⟩, ⟨F.FIFO_ERR_CE, .rc⟩]⟩,
  ⟨"FIFO_MAXOCC", 0x1021001c, 1024, 0x40, 1, 0x0, 32, 0x0,
    [⟨F.FIFO_MAXOCC_MAXOCC, .rc⟩]⟩,
  ⟨"FIFO_ITEMS", 0x10210020, 1024, 0x40, 1, 0x0, 64, 0x0,
    [⟨F.FIFO_ITEMS_COUNT, .ro⟩]⟩]

/-- Rows of the register map, block ARY (R9, R32). -/
def regTableARY0 : List RegDesc := [
  ⟨"ARY_CMD_ARG", 0x10300000, 16, 0x10000, 1, 0x0, 32, 0x0,
    [⟨F.ARY_CMD_ARG_SPACE, .rw⟩, ⟨F.ARY_CMD_ARG_CLR_PW, .rw⟩, ⟨F.ARY_CMD_ARG_INDEX, .rw⟩, ⟨F.ARY_CMD_ARG_PAGE, .rw⟩]⟩,
  ⟨"ARY_PW", 0x10300008, 16, 0x10000, 1, 0x0, 64, 0x0,
    [⟨F.ARY_PW_PW, .wo⟩]⟩,
  ⟨"ARY_STAT", 0x10300010, 16, 0x10000, 1, 0x0, 32, 0x0,
    [⟨F.ARY_STAT_SEQ_ERR, .rw1c⟩, ⟨F.ARY_STAT_PW_BUSY, .ro⟩, ⟨F.ARY_STAT_PW_FAILS, .ro⟩, ⟨F.ARY_STAT_MODE, .ro⟩, ⟨F.ARY_STAT_PB_OPEN, .ro⟩, ⟨F.ARY_STAT_PB_GROUP, .ro⟩, ⟨F.ARY_STAT_WAIT_PWR, .ro⟩, ⟨F.ARY_STAT_SUSP, .ro⟩, ⟨F.ARY_STAT_BUSY, .ro⟩, ⟨F.ARY_STAT_LAST, .ro⟩]⟩,
  ⟨"ARY_OPSTAT", 0x10300020, 16, 0x10000, 5, 0x4, 32, 0x0,
    [⟨F.ARY_OPSTAT_BUSY, .ro⟩, ⟨F.ARY_OPSTAT_SUSP, .ro⟩, ⟨F.ARY_OPSTAT_WAIT_PWR, .ro⟩, ⟨F.ARY_OPSTAT_DONE, .rw1c⟩, ⟨F.ARY_OPSTAT_OP, .ro⟩, ⟨F.ARY_OPSTAT_PNE, .rw1c⟩, ⟨F.ARY_OPSTAT_FAIL, .rw1c⟩, ⟨F.ARY_OPSTAT_ERASE_SLOW, .rw1c⟩, ⟨F.ARY_OPSTAT_POISON_IN, .rw1c⟩, ⟨F.ARY_OPSTAT_PAGE, .ro⟩, ⟨F.ARY_OPSTAT_INDEX, .ro⟩, ⟨F.ARY_OPSTAT_CODE, .ro⟩]⟩,
  ⟨"ARY_SEQ_TMO", 0x10300040, 16, 0x10000, 1, 0x0, 32, 0x64,
    [⟨F.ARY_SEQ_TMO_TMO_US, .rw⟩]⟩,
  ⟨"ARY_PB_TMO", 0x10300044, 16, 0x10000, 1, 0x0, 32, 0xa,
    [⟨F.ARY_PB_TMO_TMO_MS, .rw⟩]⟩,
  ⟨"ARY_RETIRE", 0x10300048, 16, 0x10000, 1, 0x0, 32, 0x0,
    [⟨F.ARY_RETIRE_GO, .wo⟩, ⟨F.ARY_RETIRE_BLOCK, .wo⟩]⟩,
  ⟨"ARY_WEAR_LOG", 0x10300050, 16, 0x10000, 1, 0x0, 64, 0x0,
    [⟨F.ARY_WEAR_LOG_VALID, .rw1c⟩, ⟨F.ARY_WEAR_LOG_OVER, .rw1c⟩, ⟨F.ARY_WEAR_LOG_EVENT, .ro⟩, ⟨F.ARY_WEAR_LOG_COUNT, .ro⟩, ⟨F.ARY_WEAR_LOG_PSEC, .ro⟩, ⟨F.ARY_WEAR_LOG_INDEX, .ro⟩, ⟨F.ARY_WEAR_LOG_PAGE, .ro⟩]⟩]

/-- Rows of the register map, block ARY (R9, R32). -/
def regTableARY1 : List RegDesc := [
  ⟨"ARY_REGION", 0x10300058, 16, 0x10000, 1, 0x0, 32, 0x0,
    [⟨F.ARY_REGION_STATE, .ro⟩]⟩,
  ⟨"ARY_PSEC_PROT", 0x10300060, 16, 0x10000, 2, 0x8, 64, 0x0,
    [⟨F.ARY_PSEC_PROT_STATE, .ro⟩]⟩,
  ⟨"ARY_FAIL_CNT", 0x10300070, 16, 0x10000, 1, 0x0, 32, 0x0,
    [⟨F.ARY_FAIL_CNT_OVF, .rc⟩, ⟨F.ARY_FAIL_CNT_COUNT, .rc⟩]⟩,
  ⟨"ARY_GEOM", 0x10300200, 16, 0x10000, 1, 0x0, 32, 0x0,
    [⟨F.ARY_GEOM_LOADED, .ro⟩, ⟨F.ARY_GEOM_CAL_BAD, .ro⟩, ⟨F.ARY_GEOM_SSR, .ro⟩, ⟨F.ARY_GEOM_PSEC, .ro⟩, ⟨F.ARY_GEOM_BAD_CNT, .ro⟩, ⟨F.ARY_GEOM_BLOCKS, .ro⟩]⟩,
  ⟨"ARY_RD_CTL", 0x10300204, 16, 0x10000, 1, 0x0, 32, 0x3,
    [⟨F.ARY_RD_CTL_RETRY_EN, .rw⟩, ⟨F.ARY_RD_CTL_AUTO_SUSP, .rw⟩]⟩,
  ⟨"ARY_RD_SLOT", 0x10300208, 16, 0x10000, 1, 0x0, 32, 0x1f4,
    [⟨F.ARY_RD_SLOT_SLOT_US, .rw⟩]⟩,
  ⟨"ARY_RD_TMO", 0x1030020c, 16, 0x10000, 1, 0x0, 32, 0xa,
    [⟨F.ARY_RD_TMO_TMO_MS, .rw⟩]⟩,
  ⟨"ARY_RD_STAT", 0x10300210, 16, 0x10000, 1, 0x0, 32, 0x0,
    [⟨F.ARY_RD_STAT_SUSPENDED, .ro⟩, ⟨F.ARY_RD_STAT_TIMED_OUT, .rw1c⟩, ⟨F.ARY_RD_STAT_UNREADABLE_HIT, .rw1c⟩]⟩]

/-- Rows of the register map, block ARY (R9, R32). -/
def regTableARY2 : List RegDesc := [
  ⟨"ARY_CE_THRESH", 0x10300214, 16, 0x10000, 1, 0x0, 32, 0x30,
    [⟨F.ARY_CE_THRESH_BITS, .rw⟩]⟩,
  ⟨"ARY_CE_LOG", 0x10300218, 16, 0x10000, 1, 0x0, 64, 0x0,
    [⟨F.ARY_CE_LOG_VALID, .rw1c⟩, ⟨F.ARY_CE_LOG_OVER, .rw1c⟩, ⟨F.ARY_CE_LOG_BITS, .ro⟩, ⟨F.ARY_CE_LOG_PAGE, .ro⟩, ⟨F.ARY_CE_LOG_CW, .ro⟩, ⟨F.ARY_CE_LOG_BLOCK, .ro⟩]⟩,
  ⟨"ARY_CW_MAX", 0x10300220, 16, 0x10000, 1, 0x0, 32, 0x0,
    [⟨F.ARY_CW_MAX_BLOCK, .rc⟩, ⟨F.ARY_CW_MAX_BITS, .rc⟩]⟩,
  ⟨"ARY_CE_BITS", 0x10300228, 16, 0x10000, 1, 0x0, 64, 0x0,
    [⟨F.ARY_CE_BITS_COUNT, .rc⟩]⟩,
  ⟨"ARY_RETRY_CNT", 0x10300230, 16, 0x10000, 1, 0x0, 32, 0x0,
    [⟨F.ARY_RETRY_CNT_OVF, .rc⟩, ⟨F.ARY_RETRY_CNT_COUNT, .rc⟩]⟩,
  ⟨"ARY_INNER_UE", 0x10300234, 16, 0x10000, 1, 0x0, 32, 0x0,
    [⟨F.ARY_INNER_UE_OVF, .rc⟩, ⟨F.ARY_INNER_UE_COUNT, .rc⟩]⟩,
  ⟨"ARY_UE_CNT", 0x10300238, 16, 0x10000, 1, 0x0, 32, 0x0,
    [⟨F.ARY_UE_CNT_OVF, .rc⟩, ⟨F.ARY_UE_CNT_COUNT, .rc⟩]⟩,
  ⟨"ARY_SUSP_CNT", 0x1030023c, 16, 0x10000, 1, 0x0, 32, 0x0,
    [⟨F.ARY_SUSP_CNT_OVF, .rc⟩, ⟨F.ARY_SUSP_CNT_COUNT, .rc⟩]⟩]

/-- Rows of the register map, block ARY (R9, R32). -/
def regTableARY3 : List RegDesc := [
  ⟨"ARY_SENSE_CNT", 0x10300240, 16, 0x10000, 1, 0x0, 64, 0x0,
    [⟨F.ARY_SENSE_CNT_COUNT, .ro⟩]⟩]

/-- Rows of the register map, block TL (R9, R32). -/
def regTableTL0 : List RegDesc := [
  ⟨"TL_CTL", 0x10400000, 4, 0x10000, 1, 0x0, 32, 0xffff000c,
    [⟨F.TL_CTL_FC_MASK, .rw⟩, ⟨F.TL_CTL_TUNNEL_EN, .rw⟩, ⟨F.TL_CTL_FP_CHECK, .rw⟩, ⟨F.TL_CTL_KEEP_UP, .rw⟩, ⟨F.TL_CTL_EN, .rw⟩]⟩,
  ⟨"TL_STAT", 0x10400004, 4, 0x10000, 1, 0x0, 32, 0x0,
    [⟨F.TL_STAT_FP_MISMATCH, .ro⟩, ⟨F.TL_STAT_TOPO_ERR, .rw1c⟩, ⟨F.TL_STAT_FC_STUCK, .rw1c⟩, ⟨F.TL_STAT_FC_IN, .ro⟩, ⟨F.TL_STAT_TUNNEL, .ro⟩, ⟨F.TL_STAT_LANES, .ro⟩, ⟨F.TL_STAT_WIDTH, .ro⟩, ⟨F.TL_STAT_STATE, .ro⟩]⟩,
  ⟨"TL_NBR", 0x10400008, 4, 0x10000, 1, 0x0, 32, 0x0,
    [⟨F.TL_NBR_VALID, .ro⟩, ⟨F.TL_NBR_PORT, .ro⟩, ⟨F.TL_NBR_DEV_ID, .ro⟩]⟩,
  ⟨"TL_NBR_FP", 0x10400010, 4, 0x10000, 1, 0x0, 64, 0x0,
    [⟨F.TL_NBR_FP_FP, .ro⟩]⟩,
  ⟨"TL_TRAIN_TMO", 0x10400018, 4, 0x10000, 1, 0x0, 32, 0x64,
    [⟨F.TL_TRAIN_TMO_TMO_MS, .rw⟩]⟩,
  ⟨"TL_RETRY", 0x1040001c, 4, 0x10000, 1, 0x0, 32, 0x80007d0,
    [⟨F.TL_RETRY_MAX, .rw⟩, ⟨F.TL_RETRY_TMO_NS, .rw⟩]⟩,
  ⟨"TL_FC_TMO", 0x10400020, 4, 0x10000, 1, 0x0, 32, 0x64,
    [⟨F.TL_FC_TMO_TMO_MS, .rw⟩]⟩,
  ⟨"TL_CRC_CNT", 0x10400030, 4, 0x10000, 1, 0x0, 32, 0x0,
    [⟨F.TL_CRC_CNT_OVF, .rc⟩, ⟨F.TL_CRC_CNT_COUNT, .rc⟩]⟩]

/-- Rows of the register map, block TL (R9, R32). -/
def regTableTL1 : List RegDesc := [
  ⟨"TL_REPLAY_CNT", 0x10400034, 4, 0x10000, 1, 0x0, 32, 0x0,
    [⟨F.TL_REPLAY_CNT_OVF, .rc⟩, ⟨F.TL_REPLAY_CNT_COUNT, .rc⟩]⟩,
  ⟨"TL_RETRAIN_CNT", 0x10400038, 4, 0x10000, 1, 0x0, 32, 0x0,
    [⟨F.TL_RETRAIN_CNT_OVF, .rc⟩, ⟨F.TL_RETRAIN_CNT_COUNT, .rc⟩]⟩,
  ⟨"TL_WAKE_CNT", 0x1040003c, 4, 0x10000, 1, 0x0, 32, 0x0,
    [⟨F.TL_WAKE_CNT_OVF, .rc⟩, ⟨F.TL_WAKE_CNT_COUNT, .rc⟩]⟩,
  ⟨"TL_DROP_CNT", 0x10400040, 4, 0x10000, 1, 0x0, 32, 0x0,
    [⟨F.TL_DROP_CNT_OVF, .rc⟩, ⟨F.TL_DROP_CNT_COUNT, .rc⟩]⟩,
  ⟨"TL_TX_FLITS", 0x10400048, 4, 0x10000, 1, 0x0, 64, 0x0,
    [⟨F.TL_TX_FLITS_COUNT, .ro⟩]⟩,
  ⟨"TL_RX_FLITS", 0x10400050, 4, 0x10000, 1, 0x0, 64, 0x0,
    [⟨F.TL_RX_FLITS_COUNT, .ro⟩]⟩,
  ⟨"TL_TORUS", 0x10400800, 1, 0x0, 1, 0x0, 32, 0x0,
    [⟨F.TL_TORUS_ROWS, .rwl⟩, ⟨F.TL_TORUS_COLS, .rwl⟩]⟩,
  ⟨"TL_FP_SETTLE", 0x10400804, 1, 0x0, 1, 0x0, 32, 0x14,
    [⟨F.TL_FP_SETTLE_US, .rw⟩]⟩]

/-- Rows of the register map, block TL (R9, R32). -/
def regTableTL2 : List RegDesc := [
  ⟨"TL_RT_COL", 0x10400810, 1, 0x0, 8, 0x4, 32, 0x0,
    [⟨F.TL_RT_COL_ENTRY0, .rw⟩, ⟨F.TL_RT_COL_ENTRY1, .rw⟩, ⟨F.TL_RT_COL_ENTRY2, .rw⟩, ⟨F.TL_RT_COL_ENTRY3, .rw⟩, ⟨F.TL_RT_COL_ENTRY4, .rw⟩, ⟨F.TL_RT_COL_ENTRY5, .rw⟩, ⟨F.TL_RT_COL_ENTRY6, .rw⟩, ⟨F.TL_RT_COL_ENTRY7, .rw⟩]⟩,
  ⟨"TL_RT_ROW", 0x10400830, 1, 0x0, 8, 0x4, 32, 0x0,
    [⟨F.TL_RT_ROW_ENTRY0, .rw⟩, ⟨F.TL_RT_ROW_ENTRY1, .rw⟩, ⟨F.TL_RT_ROW_ENTRY2, .rw⟩, ⟨F.TL_RT_ROW_ENTRY3, .rw⟩, ⟨F.TL_RT_ROW_ENTRY4, .rw⟩, ⟨F.TL_RT_ROW_ENTRY5, .rw⟩, ⟨F.TL_RT_ROW_ENTRY6, .rw⟩, ⟨F.TL_RT_ROW_ENTRY7, .rw⟩]⟩,
  ⟨"TL_ROUTE_ERR", 0x10400850, 1, 0x0, 1, 0x0, 32, 0x0,
    [⟨F.TL_ROUTE_ERR_OVF, .rc⟩, ⟨F.TL_ROUTE_ERR_COUNT, .rc⟩]⟩]

/-- Rows of the register map, block PCIE (R9, R32). -/
def regTablePCIE0 : List RegDesc := [
  ⟨"PCIE_CTL", 0x10500000, 1, 0x0, 1, 0x0, 32, 0x5400064,
    [⟨F.PCIE_CTL_EN, .rw⟩, ⟨F.PCIE_CTL_MODE, .ro⟩, ⟨F.PCIE_CTL_RATE_MAX, .rw⟩, ⟨F.PCIE_CTL_WIDTH_MAX, .rw⟩, ⟨F.PCIE_CTL_TMO, .rw⟩]⟩,
  ⟨"PCIE_IRQ_STAT", 0x10500004, 1, 0x0, 1, 0x0, 32, 0x0,
    [⟨F.PCIE_IRQ_STAT_BITS, .rw1c⟩]⟩,
  ⟨"PCIE_IRQ_EN", 0x10500008, 1, 0x0, 1, 0x0, 32, 0x0,
    [⟨F.PCIE_IRQ_EN_BITS, .rw⟩]⟩,
  ⟨"PCIE_STAT", 0x1050000c, 1, 0x0, 1, 0x0, 32, 0x0,
    [⟨F.PCIE_STAT_LINK_UP, .ro⟩, ⟨F.PCIE_STAT_RATE, .ro⟩, ⟨F.PCIE_STAT_WIDTH, .ro⟩]⟩,
  ⟨"PCIE_MSIX_EN", 0x10500010, 1, 0x0, 1, 0x0, 32, 0x0,
    [⟨F.PCIE_MSIX_EN_EN, .rw⟩]⟩,
  ⟨"PCIE_BAR2_XLAT", 0x10500018, 1, 0x0, 1, 0x0, 64, 0x1000000000,
    [⟨F.PCIE_BAR2_XLAT_BASE, .rw⟩]⟩,
  ⟨"PCIE_EP_CNT", 0x10500020, 1, 0x0, 1, 0x0, 32, 0x0,
    [⟨F.PCIE_EP_CNT_OVF, .rc⟩, ⟨F.PCIE_EP_CNT_COUNT, .rc⟩]⟩,
  ⟨"PCIE_CFG_ERR", 0x10500024, 1, 0x0, 1, 0x0, 32, 0x0,
    [⟨F.PCIE_CFG_ERR_OVF, .rc⟩, ⟨F.PCIE_CFG_ERR_COUNT, .rc⟩]⟩]

/-- Rows of the register map, block ETH (R9, R32). -/
def regTableETH0 : List RegDesc := [
  ⟨"ETH_CTL", 0x10510000, 2, 0x10000, 1, 0x0, 32, 0x24000000,
    [⟨F.ETH_CTL_EN, .rw⟩, ⟨F.ETH_CTL_PAUSE_EN, .rw⟩, ⟨F.ETH_CTL_MAX_LEN, .rw⟩, ⟨F.ETH_CTL_ETYPE, .rw⟩]⟩,
  ⟨"ETH_IRQ_STAT", 0x10510004, 2, 0x10000, 1, 0x0, 32, 0x0,
    [⟨F.ETH_IRQ_STAT_BITS, .rw1c⟩]⟩,
  ⟨"ETH_IRQ_EN", 0x10510008, 2, 0x10000, 1, 0x0, 32, 0x0,
    [⟨F.ETH_IRQ_EN_BITS, .rw⟩]⟩,
  ⟨"ETH_STAT", 0x1051000c, 2, 0x10000, 1, 0x0, 32, 0x0,
    [⟨F.ETH_STAT_LINK, .ro⟩, ⟨F.ETH_STAT_TAIL_ERR, .rw1c⟩]⟩,
  ⟨"ETH_MAC", 0x10510010, 2, 0x10000, 1, 0x0, 64, 0x0,
    [⟨F.ETH_MAC_ADDR, .rw⟩]⟩,
  ⟨"ETH_RX_BASE", 0x10510018, 2, 0x10000, 1, 0x0, 64, 0x0,
    [⟨F.ETH_RX_BASE_ADDR, .rw⟩]⟩,
  ⟨"ETH_TX_BASE", 0x10510020, 2, 0x10000, 1, 0x0, 64, 0x0,
    [⟨F.ETH_TX_BASE_ADDR, .rw⟩]⟩,
  ⟨"ETH_RING_CFG", 0x10510028, 2, 0x10000, 1, 0x0, 32, 0x40004,
    [⟨F.ETH_RING_CFG_TX_LOG2, .rw⟩, ⟨F.ETH_RING_CFG_RX_LOG2, .rw⟩]⟩]

/-- Rows of the register map, block ETH (R9, R32). -/
def regTableETH1 : List RegDesc := [
  ⟨"ETH_RX_HEAD", 0x1051002c, 2, 0x10000, 1, 0x0, 32, 0x0,
    [⟨F.ETH_RX_HEAD_INDEX, .ro⟩]⟩,
  ⟨"ETH_RX_TAIL", 0x10510030, 2, 0x10000, 1, 0x0, 32, 0x0,
    [⟨F.ETH_RX_TAIL_INDEX, .rw⟩]⟩,
  ⟨"ETH_TX_HEAD", 0x10510034, 2, 0x10000, 1, 0x0, 32, 0x0,
    [⟨F.ETH_TX_HEAD_INDEX, .ro⟩]⟩,
  ⟨"ETH_TX_TAIL", 0x10510038, 2, 0x10000, 1, 0x0, 32, 0x0,
    [⟨F.ETH_TX_TAIL_INDEX, .rw⟩]⟩,
  ⟨"ETH_DROP", 0x10510040, 2, 0x10000, 1, 0x0, 32, 0x0,
    [⟨F.ETH_DROP_OVF, .rc⟩, ⟨F.ETH_DROP_COUNT, .rc⟩]⟩,
  ⟨"ETH_FCS_ERR", 0x10510044, 2, 0x10000, 1, 0x0, 32, 0x0,
    [⟨F.ETH_FCS_ERR_OVF, .rc⟩, ⟨F.ETH_FCS_ERR_COUNT, .rc⟩]⟩,
  ⟨"ETH_TX_ERR", 0x10510048, 2, 0x10000, 1, 0x0, 32, 0x0,
    [⟨F.ETH_TX_ERR_OVF, .rc⟩, ⟨F.ETH_TX_ERR_COUNT, .rc⟩]⟩]

/-- Rows of the register map, block USB (R9, R32). -/
def regTableUSB0 : List RegDesc := [
  ⟨"USB_CTL", 0x10530000, 1, 0x0, 1, 0x0, 32, 0x40000000,
    [⟨F.USB_CTL_EN, .rw⟩, ⟨F.USB_CTL_SS_EN, .rw⟩]⟩,
  ⟨"USB_IRQ_STAT", 0x10530004, 1, 0x0, 1, 0x0, 32, 0x0,
    [⟨F.USB_IRQ_STAT_BITS, .rw1c⟩]⟩,
  ⟨"USB_IRQ_EN", 0x10530008, 1, 0x0, 1, 0x0, 32, 0x0,
    [⟨F.USB_IRQ_EN_BITS, .rw⟩]⟩,
  ⟨"USB_STAT", 0x1053000c, 1, 0x0, 1, 0x0, 32, 0x0,
    [⟨F.USB_STAT_VBUS, .ro⟩, ⟨F.USB_STAT_CONFIGURED, .ro⟩, ⟨F.USB_STAT_SPEED, .ro⟩, ⟨F.USB_STAT_SUSPENDED, .ro⟩, ⟨F.USB_STAT_TAIL_ERR, .rw1c⟩]⟩,
  ⟨"USB_ID", 0x10530010, 1, 0x0, 1, 0x0, 32, 0x0,
    [⟨F.USB_ID_PID, .rw⟩, ⟨F.USB_ID_VID, .rw⟩]⟩,
  ⟨"USB_OUT_BASE", 0x10530018, 1, 0x0, 1, 0x0, 64, 0x0,
    [⟨F.USB_OUT_BASE_ADDR, .rw⟩]⟩,
  ⟨"USB_IN_BASE", 0x10530020, 1, 0x0, 1, 0x0, 64, 0x0,
    [⟨F.USB_IN_BASE_ADDR, .rw⟩]⟩,
  ⟨"USB_RING_CFG", 0x10530028, 1, 0x0, 1, 0x0, 32, 0x40004,
    [⟨F.USB_RING_CFG_IN_LOG2, .rw⟩, ⟨F.USB_RING_CFG_OUT_LOG2, .rw⟩]⟩]

/-- Rows of the register map, block USB (R9, R32). -/
def regTableUSB1 : List RegDesc := [
  ⟨"USB_OUT_HEAD", 0x1053002c, 1, 0x0, 1, 0x0, 32, 0x0,
    [⟨F.USB_OUT_HEAD_INDEX, .ro⟩]⟩,
  ⟨"USB_OUT_TAIL", 0x10530030, 1, 0x0, 1, 0x0, 32, 0x0,
    [⟨F.USB_OUT_TAIL_INDEX, .rw⟩]⟩,
  ⟨"USB_IN_HEAD", 0x10530034, 1, 0x0, 1, 0x0, 32, 0x0,
    [⟨F.USB_IN_HEAD_INDEX, .ro⟩]⟩,
  ⟨"USB_IN_TAIL", 0x10530038, 1, 0x0, 1, 0x0, 32, 0x0,
    [⟨F.USB_IN_TAIL_INDEX, .rw⟩]⟩,
  ⟨"USB_ERR", 0x10530040, 1, 0x0, 1, 0x0, 32, 0x0,
    [⟨F.USB_ERR_OVF, .rc⟩, ⟨F.USB_ERR_COUNT, .rc⟩]⟩]

/-- Rows of the register map, block CSI (R9, R32). -/
def regTableCSI0 : List RegDesc := [
  ⟨"CSI_CTL", 0x10540000, 4, 0x10000, 1, 0x0, 32, 0x2a0000,
    [⟨F.CSI_CTL_DT, .rw⟩, ⟨F.CSI_CTL_VC, .rw⟩]⟩,
  ⟨"CSI_IRQ_STAT", 0x10540004, 4, 0x10000, 1, 0x0, 32, 0x0,
    [⟨F.CSI_IRQ_STAT_BITS, .rw1c⟩]⟩,
  ⟨"CSI_IRQ_EN", 0x10540008, 4, 0x10000, 1, 0x0, 32, 0x0,
    [⟨F.CSI_IRQ_EN_BITS, .rw⟩]⟩,
  ⟨"CSI_LIM_MIN", 0x10540010, 4, 0x10000, 1, 0x0, 32, 0x0,
    [⟨F.CSI_LIM_MIN_LINES, .rw⟩, ⟨F.CSI_LIM_MIN_WIDTH, .rw⟩]⟩,
  ⟨"CSI_LIM_MAX", 0x10540014, 4, 0x10000, 1, 0x0, 32, 0xc001000,
    [⟨F.CSI_LIM_MAX_LINES, .rw⟩, ⟨F.CSI_LIM_MAX_WIDTH, .rw⟩]⟩,
  ⟨"CSI_FB_BASE", 0x10540018, 4, 0x10000, 1, 0x0, 64, 0x0,
    [⟨F.CSI_FB_BASE_ADDR, .rw⟩]⟩,
  ⟨"CSI_FB_CFG", 0x10540020, 4, 0x10000, 1, 0x0, 32, 0x0,
    [⟨F.CSI_FB_CFG_EN, .rw⟩, ⟨F.CSI_FB_CFG_HIGH, .rw⟩, ⟨F.CSI_FB_CFG_COUNT, .rw⟩, ⟨F.CSI_FB_CFG_LOW, .rw⟩, ⟨F.CSI_FB_CFG_SIZE, .rw⟩]⟩,
  ⟨"CSI_FB_REL", 0x10540024, 4, 0x10000, 1, 0x0, 32, 0x0,
    [⟨F.CSI_FB_REL_INDEX, .wo⟩]⟩]

/-- Rows of the register map, block CSI (R9, R32). -/
def regTableCSI1 : List RegDesc := [
  ⟨"CSI_FB_USE", 0x10540028, 4, 0x10000, 1, 0x0, 32, 0x0,
    [⟨F.CSI_FB_USE_WM, .ro⟩, ⟨F.CSI_FB_USE_IN_USE, .ro⟩]⟩,
  ⟨"CSI_FB_MAP", 0x10540030, 4, 0x10000, 1, 0x0, 64, 0x0,
    [⟨F.CSI_FB_MAP_MAP, .ro⟩]⟩,
  ⟨"CSI_FRAME_TMO", 0x10540038, 4, 0x10000, 1, 0x0, 32, 0x64,
    [⟨F.CSI_FRAME_TMO_MS, .rw⟩]⟩,
  ⟨"CSI_DROP_NOBUF", 0x10540040, 4, 0x10000, 1, 0x0, 32, 0x0,
    [⟨F.CSI_DROP_NOBUF_OVF, .rc⟩, ⟨F.CSI_DROP_NOBUF_COUNT, .rc⟩]⟩,
  ⟨"CSI_DROP_RANGE", 0x10540044, 4, 0x10000, 1, 0x0, 32, 0x0,
    [⟨F.CSI_DROP_RANGE_OVF, .rc⟩, ⟨F.CSI_DROP_RANGE_COUNT, .rc⟩]⟩,
  ⟨"CSI_DROP_TMO", 0x10540048, 4, 0x10000, 1, 0x0, 32, 0x0,
    [⟨F.CSI_DROP_TMO_OVF, .rc⟩, ⟨F.CSI_DROP_TMO_COUNT, .rc⟩]⟩,
  ⟨"CSI_DROP_BP", 0x1054004c, 4, 0x10000, 1, 0x0, 32, 0x0,
    [⟨F.CSI_DROP_BP_OVF, .rc⟩, ⟨F.CSI_DROP_BP_COUNT, .rc⟩]⟩,
  ⟨"CSI_FRAMES", 0x10540050, 4, 0x10000, 1, 0x0, 64, 0x0,
    [⟨F.CSI_FRAMES_COUNT, .ro⟩]⟩]

/-- Rows of the register map, block TDM (R9, R32). -/
def regTableTDM0 : List RegDesc := [
  ⟨"TDM_CTL", 0x10580000, 1, 0x0, 1, 0x0, 32, 0x0,
    [⟨F.TDM_CTL_EN, .rw⟩, ⟨F.TDM_CTL_SLOTS, .rw⟩, ⟨F.TDM_CTL_W24, .rw⟩, ⟨F.TDM_CTL_CH, .rw⟩]⟩,
  ⟨"TDM_IRQ_STAT", 0x10580004, 1, 0x0, 1, 0x0, 32, 0x0,
    [⟨F.TDM_IRQ_STAT_BITS, .rw1c⟩]⟩,
  ⟨"TDM_IRQ_EN", 0x10580008, 1, 0x0, 1, 0x0, 32, 0x0,
    [⟨F.TDM_IRQ_EN_BITS, .rw⟩]⟩,
  ⟨"TDM_PKT", 0x1058000c, 1, 0x0, 1, 0x0, 32, 0xf0,
    [⟨F.TDM_PKT_FRAMES, .rw⟩]⟩,
  ⟨"TDM_RING_BASE", 0x10580010, 1, 0x0, 1, 0x0, 64, 0x0,
    [⟨F.TDM_RING_BASE_ADDR, .rw⟩]⟩,
  ⟨"TDM_RING_CFG", 0x10580018, 1, 0x0, 1, 0x0, 32, 0x0,
    [⟨F.TDM_RING_CFG_WM_HIGH, .rw⟩, ⟨F.TDM_RING_CFG_WM_LOW, .rw⟩]⟩,
  ⟨"TDM_RING_SIZE", 0x10580020, 1, 0x0, 1, 0x0, 32, 0x0,
    [⟨F.TDM_RING_SIZE_TILES, .rw⟩]⟩,
  ⟨"TDM_RING_FILL", 0x10580024, 1, 0x0, 1, 0x0, 32, 0x0,
    [⟨F.TDM_RING_FILL_ITEMS, .ro⟩]⟩]

/-- Rows of the register map, block TDM (R9, R32). -/
def regTableTDM1 : List RegDesc := [
  ⟨"TDM_VAD", 0x10580028, 1, 0x0, 1, 0x0, 32, 0x0,
    [⟨F.TDM_VAD_EN, .rw⟩, ⟨F.TDM_VAD_CH, .rw⟩, ⟨F.TDM_VAD_THRESH, .rw⟩, ⟨F.TDM_VAD_HOLD, .rw⟩]⟩,
  ⟨"TDM_DROP", 0x10580030, 1, 0x0, 1, 0x0, 32, 0x0,
    [⟨F.TDM_DROP_OVF, .rc⟩, ⟨F.TDM_DROP_COUNT, .rc⟩]⟩,
  ⟨"TDM_FS_ERR", 0x10580034, 1, 0x0, 1, 0x0, 32, 0x0,
    [⟨F.TDM_FS_ERR_OVF, .rc⟩, ⟨F.TDM_FS_ERR_COUNT, .rc⟩]⟩]

/-- Rows of the register map, block GPIO (R9, R32). -/
def regTableGPIO0 : List RegDesc := [
  ⟨"GPIO_OUT", 0x10590000, 1, 0x0, 1, 0x0, 32, 0x0,
    [⟨F.GPIO_OUT_OUT, .rw⟩]⟩,
  ⟨"GPIO_IRQ_STAT", 0x10590004, 1, 0x0, 1, 0x0, 32, 0x0,
    [⟨F.GPIO_IRQ_STAT_BITS, .rw1c⟩]⟩,
  ⟨"GPIO_IRQ_EN", 0x10590008, 1, 0x0, 1, 0x0, 32, 0x0,
    [⟨F.GPIO_IRQ_EN_BITS, .rw⟩]⟩,
  ⟨"GPIO_IN", 0x1059000c, 1, 0x0, 1, 0x0, 32, 0x0,
    [⟨F.GPIO_IN_IN, .ro⟩]⟩,
  ⟨"GPIO_FC_SEL", 0x10590010, 1, 0x0, 1, 0x0, 32, 0x40404040,
    [⟨F.GPIO_FC_SEL_FC3, .rw⟩, ⟨F.GPIO_FC_SEL_FC2, .rw⟩, ⟨F.GPIO_FC_SEL_FC1, .rw⟩, ⟨F.GPIO_FC_SEL_FC0, .rw⟩]⟩,
  ⟨"GPIO_DIR", 0x10590014, 1, 0x0, 1, 0x0, 32, 0x0,
    [⟨F.GPIO_DIR_DIR, .rw⟩]⟩,
  ⟨"GPIO_FILT", 0x10590018, 1, 0x0, 1, 0x0, 32, 0x5,
    [⟨F.GPIO_FILT_FILT, .rw⟩]⟩,
  ⟨"GPIO_WAKE_POL", 0x1059001c, 1, 0x0, 1, 0x0, 32, 0x0,
    [⟨F.GPIO_WAKE_POL_POL, .rw⟩]⟩]

/-- Rows of the register map, block CPU (R9, R32). -/
def regTableCPU0 : List RegDesc := [
  ⟨"CPU_HOLD", 0x10600000, 1, 0x0, 1, 0x0, 32, 0xff,
    [⟨F.CPU_HOLD_HOLD, .rw⟩]⟩,
  ⟨"CPU_ENTRY", 0x10600008, 1, 0x0, 1, 0x0, 64, 0x0,
    [⟨F.CPU_ENTRY_ADDR, .rw⟩]⟩,
  ⟨"CPU_STAT", 0x10600010, 1, 0x0, 1, 0x0, 32, 0x0,
    [⟨F.CPU_STAT_WFP, .ro⟩, ⟨F.CPU_STAT_RUN, .ro⟩]⟩,
  ⟨"CPU_FREQ", 0x10600014, 1, 0x0, 1, 0x0, 32, 0x7d0,
    [⟨F.CPU_FREQ_MHZ, .rw⟩]⟩]

/-- The register map. -/
def regTable : List RegDesc :=
  regTableSYS0 ++ regTablePMU0 ++ regTablePMU1 ++ regTableAON0 ++ regTableAON1 ++ regTableFAST0 ++ regTableTIME0 ++ regTableIC0 ++ regTableIC1 ++ regTableTM0 ++ regTableTM1 ++ regTableTM2 ++ regTableLE0 ++ regTableLE1 ++ regTableLE2 ++ regTableSYNC0 ++ regTableARB0 ++ regTableARB1 ++ regTableARB2 ++ regTableARB3 ++ regTableARB4 ++ regTableINTG0 ++ regTableINTG1 ++ regTableINTG2 ++ regTableKEY0 ++ regTableKEY1 ++ regTableDDR0 ++ regTableIMG0 ++ regTableIMG1 ++ regTableIMG2 ++ regTableRING0 ++ regTableRING1 ++ regTableENG0 ++ regTableENG1 ++ regTableQZ0 ++ regTableFIFO0 ++ regTableFIFO1 ++ regTableARY0 ++ regTableARY1 ++ regTableARY2 ++ regTableARY3 ++ regTableTL0 ++ regTableTL1 ++ regTableTL2 ++ regTablePCIE0 ++ regTableETH0 ++ regTableETH1 ++ regTableUSB0 ++ regTableUSB1 ++ regTableCSI0 ++ regTableCSI1 ++ regTableTDM0 ++ regTableTDM1 ++ regTableGPIO0 ++ regTableCPU0

end Sys2Proof.Machine
end

