-- ==== Sys2Proof/Machine/Types.lean ====
section
/-! DEFINITION. The parts of the device's state that no register holds: tables, logs, queues, buffers and operations in
progress, block by block, with the chapter each comes from. All plain data. -/

namespace Sys2Proof.Machine

/-! ### Granule code and integrity logs (spec 13) -/

/-- Symbol errors of one granule's codeword: symbol position 0–34 and XOR value (R518, R547). -/
abbrev ErrPat := List (Nat × Nat)

/-- One entry of a store's correctable-error log (R527). -/
structure CeEnt where
  addr : Nat
  hits : Nat
  sym : Nat
deriving DecidableEq, Repr

/-- What each store holds for itself at INTG offsets 0x018–0x040 (R520, R527, R545); `begun` is whether the scrubber has read a granule
of it since the reset, before which INTG_SCRUB_POS reads its reset value. -/
structure IntgStore where
  ce : Nat := 0
  ue : Nat := 0
  ovf : Bool := false
  full : Bool := false
  log : FMap CeEnt := []
  lapUs : Nat := 0
  lapStart : Nat := 0
  pos : Nat := 0
  lapTmo : Nat := 0x0E10
  slow : Bool := false
  begun : Bool := false
deriving DecidableEq, Repr

/-- One entry of the device's UE log (R529, R530). -/
structure UeEnt where
  seq : Nat
  cause : Nat
  store : Nat
  addr : Nat
  time : Nat
deriving DecidableEq, Repr

/-- Integrity logs: per store, and the UE ring of 32. -/
structure Intg where
  stores : FMap IntgStore := []
  ueLog : FMap UeEnt := []
deriving DecidableEq, Repr

/-! ### Scoresheet writer (spec 14, PD_AON) -/

/-- A scoresheet record before it is laid out (R574); SEQ and BOOT are set when it enters the open page. -/
structure ScoreRec where
  event : Nat
  source : Nat
  aon : Nat
  args : List Nat
  flags : Nat
deriving DecidableEq, Repr

/-- A page being programmed: sector, page and the laid-out records. -/
structure ScorePage where
  sector : Nat
  page : Nat
  recs : List (List Byte)
deriving DecidableEq, Repr

/-- The scoresheet writer (R576 to R581): queue, open page, its position, the page being programmed, the ring sector
being erased, records dropped since the last one accepted, and whether the queue is closed by a power failure. -/
structure Score where
  queue : List ScoreRec := []
  page : List (List Byte) := []
  sector : Nat := 0
  pageIdx : Nat := 0
  prog : Option ScorePage := none
  erasing : Option Nat := none
  dropped : Nat := 0
  closed : Bool := false
deriving DecidableEq, Repr

/-! ### Command rings (spec 15) -/

/-- What a command entry's header gives (R594), with the ring it came from and its ring index, and for a START its pipeline,
whose limit its completion counts against until it is written (R593). -/
structure CmdHdr where
  ring : Nat
  idx : Nat
  tag : Nat
  opcode : Nat
  flags : Nat
  handle : Nat
  pipe : Nat := 64
deriving DecidableEq, Repr

/-- The payload of a START (R596). -/
structure StartP where
  pipe : Nat
  seqs : Nat
  sflags : Nat
  session : Nat
  adapter : Nat
  entryAddr : Nat
  entryLen : List Nat
  exitAddr : Nat
  exitLen : Nat
deriving DecidableEq, Repr

/-- One completion waiting to be written (R601). -/
structure Cpl where
  hdr : CmdHdr
  status : Nat
  cflags : Nat
  r0 : Nat
  r1 : Nat
  progress : Bool
deriving DecidableEq, Repr

/-- The states of a long operation (R606). -/
inductive OpState where
  | queued | running | adjourning | adjourned | resigning | done | resigned
deriving DecidableEq, Repr

/-- One entry of the handle table (R606): the command, its state, whether it was adjourned before it started, and its
progress for R604. -/
structure OpEnt where
  hdr : CmdHdr
  state : OpState
  adjQueued : Bool := false
  done : Nat := 0
deriving DecidableEq, Repr

/-- Ring controller state: held completions per ring, the START waiting for admission per ring, those rings in the order in which their
commands were read (R117), commands dispatched and
not finally completed per ring, the handle table, the pairs whose indices a re-enable keeps (R589), and the rings whose
stall has been signalled (R593). -/
structure Rings where
  held : FMap (List Cpl) := []
  waiting : FMap (CmdHdr × StartP) := []
  order : List Nat := []
  outst : FMap Nat := []
  ops : FMap OpEnt := []
  kept : FMap Unit := []
  stalled : FMap Unit := []
  last : Nat := 15
  admStop : Bool := false
deriving DecidableEq, Repr

/-! ### Interrupt controller (spec 17) -/

/-- Sources active on a core (source to core, R689) and the cores whose entry sequence has started on a presentation
(R690, R691), one bit each. -/
structure Ic where
  act : FMap Nat := []
  entry : Nat := 0
deriving DecidableEq, Repr

/-! ### Power controller (spec 18) -/

/-- An entry in progress: agents asked and the engines the PMU drains; the IC agent's ACCEPT, engine states before
PD_Ek went off (R733), whether CLK_REF runs, a fallback to RC during the stop (R737), and the always-on oscillator's
start-up (R741). -/
structure Pmu where
  asked : Nat := 0
  round2 : Bool := false
  drained : Nat := 0
  icAcc : Bool := false
  engSaved : FMap Nat := []
  clkRef : Bool := true
  fbInStop : Bool := false
  rcStart : Bool := true
  retry : Bool := false
  subS : Nat := 0
  subAon : Nat := 0
deriving DecidableEq, Repr

/-! ### Fabric images (spec 02) -/

/-- One section of a slot's configuration: entry count and bytes (R56, R82). -/
structure Sect where
  count : Nat
  bytes : List Byte
deriving DecidableEq, Repr

/-- Where an engine's CONST payload lies in the slot's MiB, and its digest (R84). -/
structure ConstRec where
  off : Nat
  len : Nat
  digest : List Byte
deriving DecidableEq, Repr

/-- The retention cells of one image slot: sections keyed by TYPE × 256 + ENGINE, CONST records by engine, ENGINE_MASK, and
the hosts of stages relocated at load (R79), keyed by engine × 512 + STAGE_ID. -/
structure ImgSlot where
  sects : FMap Sect := []
  consts : FMap ConstRec := []
  mask : Nat := 0
  compat : Bool := false
  hosts : FMap Nat := []
deriving DecidableEq, Repr

/-- A running image load: its pass, source, what pass 1 read of the header and the signature block with its digest, and the command that
started it. -/
structure ImgLoad where
  pass : Nat
  src : Nat
  len : Nat
  digest : List Byte := []
  head : List Byte := []
  sig : List Byte := []
  cmd : Option CmdHdr := none
deriving DecidableEq, Repr

/-- A running activation (R85): phase, who started it, its barrier and the GEN it arrived at. -/
structure ActRun where
  phase : Nat
  cmd : Option CmdHdr := none
  castle : Option Nat := none
  barrier : Option Nat := none
  gen : Option Nat := none
  constDone : Bool := false
deriving DecidableEq, Repr

/-- An IMG_LOAD or IMG_ACTIVATE command waiting under R818. -/
inductive ImgCmd where
  | load (h : CmdHdr) (src len : Nat)
  | act (h : CmdHdr) (barrier : Option Nat)
deriving DecidableEq, Repr

/-- What translating a BX408 body gives (R99, R101): the offset of a field that breaks the rules, or sections in the native layout as TYPE,
ENGINE and bytes, where ENGINE and the engine endpoints of routes are BX408 engine numbers 0 to 3. -/
inductive CompatOut where
  | bad (off : Nat)
  | good (sects : List (Nat × Nat × List Byte))
deriving DecidableEq, Repr

/-- The image loader and activation sequencer. -/
structure Img where
  slots : FMap ImgSlot := []
  load : Option ImgLoad := none
  act : Option ActRun := none
  queue : List ImgCmd := []
  running : Bool := false
deriving DecidableEq, Repr

/-! ### Stream FIFOs (spec 04) -/

/-- One item slot (R169) as it was written, and the errors that have struck it since: `err` at symbols 0 to 34 strikes CHECK and DATA,
at 35 the four bits of PARITY, and at 36, 37 and 38 the three copies of END, EMPTY and POISON (R170). `cnt` is whether FIFO_ERR.POISON
has counted it (R198). -/
structure Item where
  data : List Byte
  fin : Bool
  empty : Bool
  poison : Bool
  err : ErrPat := []
  cnt : Bool := false
deriving DecidableEq, Repr

/-- One destination of a FIFO (R178): items are numbered from binding. `pres` counts items presented, `shown` holds those presented and
not yet read, of an engine port the first two in the port's staging register (R208), `rp` is the next to read, `last` one past the item
read last and `hi` the highest it has been since the mark, `freed` the slots it has freed, `mark` its mark and `rew` the REWINDs to it
(R183, R184), `lead` the item that MARK's own read took, `atEnd` whether the item read last carried the end mark, and `starved` whether
this wait has been reported (R192). -/
structure FDst where
  pres : Nat := 0
  shown : List Item := []
  rp : Nat := 0
  last : Nat := 0
  hi : Nat := 0
  freed : Nat := 0
  mark : Option Nat := none
  rew : Nat := 0
  lead : Option Item := none
  atEnd : Bool := false
  starved : Bool := false
deriving DecidableEq, Repr

/-- A bound FIFO: its route, items from number `base`, items released for presentation, items and overrun of the packet being
written, credits held and in transit (R177), items waiting at the producer, its destinations by engine, the hosts to whose shadow ports
its producer and its destinations moved (R161, R210), and whether its producer's loss has been reported (R193). -/
structure Fifo where
  src : Nat
  dst : Nat
  mask : Nat
  seg : Nat
  cut : Bool
  markEn : Bool
  stall : Bool
  thresh : Nat
  pin : Nat
  base : Nat := 0
  items : List Item := []
  rel : Nat := 0
  pkt : Nat := 0
  open_ : Bool := false
  cred : Nat
  transit : Nat := 0
  backlog : List Item := []
  dsts : FMap FDst
  srcHost : Option Nat := none
  dstHosts : FMap Nat := []
  lost : Bool := false
deriving DecidableEq, Repr

/-! ### Engines (spec 03) -/

/-- A tile fetched ahead, in the order of use (R126): generator (4 for a column record group), the array page or local address
it comes from, its bytes, its poisoned granules and, where it has one, the fabric addresses of all, whether it has arrived,
and the side it was read for. -/
structure RunTile where
  ag : Nat
  off : Nat
  len : Nat
  data : List Byte := []
  bad : List Bool := []
  adr : List Nat := []
  here : Bool := false
  side : Nat := 0
deriving DecidableEq, Repr

/-- A write of a USE 3 generator that waits to be issued: the object, or none for a fabric address, the offset in it, the
bytes, and their poison. -/
structure PendWr where
  obj : Option Nat
  off : Nat
  bytes : List Byte
  poison : Bool
deriving DecidableEq, Repr

/-- A firing that has not ended (R106 to R111): the items taken from each input port, its loop position, the tiles that MX and VX have
taken over from the run-ahead area so far, the REWIND its items follow if their row is under a mark (R184), whether its results are
formed, which is when its MX and VX work is issued, the items still owed per output port, credits still reserved per output port, the
units it occupies until then, and whether it ends a pass or its batch. -/
structure Firing where
  ins : FMap (List Item) := []
  pos : List Nat
  ws : List RunTile := []
  au : List RunTile := []
  rew : Option Nat := none
  ready : Bool := false
  owed : List (Nat × Item) := []
  resv : FMap Nat := []
  mx : Bool := false
  vx : Bool := false
  passEnd : Bool := false
  last : Bool := false
deriving DecidableEq, Repr

/-- The MX accumulators of one output group in the current pass (R228, R229, R232, R241, R534): per token and column the sum, whether it
is held at a limit, and its poison bit; asum per token; bsum per column; K; the group's column records; and the token records. -/
structure MxAcc where
  sums : List (List ((Int × Bool) × Bool)) := []
  asum : List Int := []
  bsum : List Int := []
  k : Nat := 0
  recs : Option RunTile := none
  toks : List (Nat × Bool) := []
deriving DecidableEq, Repr

/-- A row that VX has begun (R138, R244, R252, R255): its record if it is static, its
input record, its elements so far, the clips among them, the elements
that pass 1 gathered, the codes that do not fill an item yet, and the items that the last pass hands out. -/
structure RowRt where
  rec_ : Option Nat := none
  arec : Nat × Bool := (0, false)
  n : Nat := 0
  clips : Nat := 0
  xs : List (Nat × Bool) := []
  out : List (Nat × Bool) := []
  items : List Item := []
deriving DecidableEq, Repr

/-- A stage as it runs: loop counters, the flow number of its batch, whether a pass is open, whether a stage without input ports has made
its pass, the ports it has written in this batch and those that carry the end mark, its firings that have not ended, oldest first,
run-ahead tiles of the streamer and the access unit, writes not yet issued, signals due (R145), the waits satisfied for the next pass and
those whose timeout has been reported (R146), accumulators by output group, rows by token, and records that do not fill an item yet
(R242). -/
structure StageRt where
  loops : List Nat := [0, 0, 0, 0]
  cur : Nat := 0
  inPass : Bool := false
  done : Bool := false
  wrote : Nat := 0
  marked : Nat := 0
  firings : List Firing := []
  ws : List RunTile := []
  au : List RunTile := []
  writes : List PendWr := []
  sigDue : Nat := 0
  waits : Nat := 0
  acc : FMap MxAcc := []
  rows : FMap RowRt := []
  recs : List (Nat × Bool) := []
deriving DecidableEq, Repr

/-- A quantiser entry beside its registers: the window of R258, a calibration that waits for the next row (R261), the batches in which each
range event has been raised (R257), and the batch whose row came last into the window. -/
structure QzRt where
  rows : Nat := 0
  elems : Nat := 0
  clips : Nat := 0
  cal : Bool := false
  lo : List (Nat × Nat) := []
  hi : List (Nat × Nat) := []
  own : Option (Nat × Nat) := none
deriving DecidableEq, Repr

/-- Engine state outside registers: stages by engine × 512 + STAGE_ID, quantiser entries by engine × 64 + QZ_ID, lane
generators by engine, the last stage fired (R110), stages relocated at run time to a host (R161), the pipeline and, by engine × 64 +
pipeline, the stage whose tile the streamer fetched last (R129), the free tiles it leaves to the access unit while that waits (R128), and
the engines whose drain has been reported slow (R149). -/
structure Engs where
  stages : FMap StageRt := []
  qz : FMap QzRt := []
  lanes : FMap (List Nat) := []
  last : FMap Nat := []
  hosts : FMap Nat := []
  wsPipe : FMap Nat := []
  wsStage : FMap Nat := []
  wsShare : FMap Nat := []
  slow : FMap Unit := []
deriving DecidableEq, Repr

/-! ### Pipelines and batches (spec 03, 15) -/

/-- Where a batch came from: a START command, a train-run's refresh batch, or its train batch of a step. -/
inductive BatchSrc where
  | start (h : CmdHdr)
  | refresh
  | train (step : Nat)
deriving DecidableEq, Repr

/-- A batch context entry (R115) and its progress. -/
structure Batch where
  seq : Nat
  seqs : Nat
  session : Nat
  side : Nat
  slot : Nat
  adapter : Nat
  time : Nat
  src : BatchSrc
  start : StartP
  flow : Nat
  exit : Nat := 0
  exitOver : Bool := false
  flags : Nat := 0
  poisoned : Bool := false
  ended : Bool := false
  held : Bool := false
  resigned : Bool := false
  adObj : Option Nat := none
deriving DecidableEq, Repr

/-- A pipeline: admitted batches in admission order, the last sequence number, the order in which batches entered it (flow
number to sequence number), the flow whose exit items arrive next, and whether relocation left it unavailable (R160). -/
structure Pipe where
  batches : List Batch := []
  nextSeq : Nat := 0
  flow : FMap Nat := []
  nextFlow : Nat := 0
  exitFlow : Nat := 0
  unavail : Option Nat := none
  relocStop : Bool := false
deriving DecidableEq, Repr

/-! ### Tier manager (spec 11) -/

/-- An object entry that is not FREE (R444). STATE follows from the operation running on it. `ctr` is the counter of a WINDOW
placement and its value when last used (R463); `saved` marks a T0 placement captured for a power-down (R474). -/
structure TmObj where
  kind : Nat
  flags : Nat
  pin : Nat := 0
  size : Nat
  back : Nat
  upTier : Nat := 0
  upEng : Nat := 0
  upMode : Nat := 0
  upFrame : Nat := 0
  upCount : Nat := 0
  upFirst : Nat := 0
  frontier : Nat := 0
  tag : Nat := 0
  ctr : Nat := 0
  ctrLast : Nat := 0
  stuck : Bool := false
  saved : Bool := false
deriving DecidableEq, Repr

/-- Who sent a TM operation: a ring command, the TM_CMD port for a master, hot promotion, or the load engine and arbiter. -/
inductive TmSrc where
  | ring (h : CmdHdr)
  | port (master : Nat)
  | hot
  | arb
deriving DecidableEq, Repr

/-- An operation descriptor (R451); `rsv` is whether a reserved byte is not 0. -/
structure TmDesc where
  op : Nat
  kindMode : Nat
  flagsTier : Nat
  engine : Nat
  obj : Nat
  tag : Nat
  backFirst : Nat
  sizeCount : Nat
  frame : Nat
  counter : Nat
  rsv : Bool := false
deriving DecidableEq, Repr

/-- An operation at the TM in order of arrival: whether it runs, was cancelled by a promotion, or waits for its old mapping to
quiesce (R448), and whether it stopped after its tile while EN is 0 (R472). -/
structure TmOp where
  src : TmSrc
  desc : TmDesc
  run : Bool := false
  cancel : Bool := false
  quiesce : Bool := false
  halt : Bool := false
  upTo : Nat := 0
deriving DecidableEq, Repr

/-- A write held while its tile is copied (R460): stage, object, byte offset, bytes, poison. -/
structure TmHeld where
  stage : Nat
  eng : Nat
  obj : Nat
  off : Nat
  bytes : List Byte
  poison : Bool
deriving DecidableEq, Repr

/-- The tier manager: object entries, operations, dirty frames (T1 frame f as f, T0 frame f of engine k as
1024 + 256 × k + f), read counts, held writes, and T0 tiles that a hosted engine's CONST data takes (R161). -/
structure Tm where
  objs : FMap TmObj := []
  ops : List TmOp := []
  dirty : FMap Unit := []
  reads : FMap Nat := []
  held : List TmHeld := []
  guestTiles : FMap Nat := []
deriving DecidableEq, Repr

/-! ### Tilhel links (spec 16) -/

/-- A routed message (R644): the header's fields and the data granules with their marks. `len` is the LEN of a READ,
which carries no data itself (log entry 54). -/
structure Msg where
  kind : Nat
  dst : Nat
  src : Nat
  hops : Nat := 0
  cls : Nat := 0
  revCol : Bool := false
  revRow : Bool := false
  master : Nat := 0
  tag : Nat := 0
  cause : Nat := 0
  addr : Nat := 0
  byteEn : Nat := 0xFFFFFFFF
  arg : Nat := 0
  spec : Nat := 0
  len : Nat := 0
  data : List (List Byte × Bool) := []
deriving DecidableEq, Repr

/-- One slot of a flit (R624, R626): channel, data, check symbols, flag byte. -/
structure Slot where
  ch : Nat
  data : List Byte
  chk : List Nat
  flags : Nat
deriving DecidableEq, Repr

/-- A flit (R624, R625). -/
structure Flit where
  type : Nat
  seq : Nat
  ack : Nat
  credCh : Nat
  credCnt : Nat
  slots : List Slot
deriving DecidableEq, Repr

/-- One port outside its registers: sequence numbers, the replay buffer (R634), credits held and credits to return (R630), slots
that wait for credit, receive buffers of the stream channels, granules of routed messages that have not arrived whole, replays
of the oldest flit in a row, failed attempts, a NAK already sent, whether every comparison has differed, an assertion of FC_IN already
reported as stuck (R633), the last idle item per channel (R632), messages held while the port wakes, wake patterns sent, and a SLEEP_NOTICE sent with whether it has been
acknowledged (R657). -/
structure LinkPort where
  txSeq : Nat := 0
  rxExp : Nat := 0
  replay : List Flit := []
  cred : FMap Nat := []
  credRet : FMap Nat := []
  pend : List Slot := []
  rx : FMap (List Item) := []
  parts : FMap (List (List Byte × Bool)) := []
  replays : Nat := 0
  attempts : Nat := 0
  naked : Bool := false
  fpDiff : Bool := false
  stuck : Bool := false
  idle : FMap (List Byte) := []
  held : List Msg := []
  wakes : Nat := 0
  sleepSeq : Option Nat := none
  noticed : Bool := false
  saved : Bool := false
deriving DecidableEq, Repr

/-- What a request of this device waits for (R27, R669, R92): an access of a master outside, the first granule of a write that lies in
two, or an access of the device's own masters, whose answer log entry 12 gives. -/
inductive ReqKind where
  | access (master : Nat) (write : Bool) (off len : Nat)
  | part (master : Nat)
  | own
  | signal (stage : Nat)
  | wait (stage idx : Nat)
  | actArrive
  | actWait
  | castleArrive (slot : Nat)
  | castleWait (slot : Nat)
deriving DecidableEq, Repr

/-- A routed request of this device by its TAG, and whether it has been sent: a further one than 256 waits (R652). -/
structure Req where
  kind : ReqKind
  msg : Msg
  sent : Bool := true
deriving DecidableEq, Repr

/-- A watch entry at this hub (R669): the WATCH and the port it arrived on; `told` is whether R822 has reported its fault. -/
structure Watch where
  port : Nat
  msg : Msg
  told : Bool := false
deriving DecidableEq, Repr

/-- A census in which this hub takes part (R676 to R680). -/
structure Census where
  init : Nat
  parent : Option Nat
  children : List Nat
  cmd : Option CmdHdr := none
  expect : Nat := 0
  busy : Bool := false
deriving DecidableEq, Repr

/-- Links, routed requests by TAG, watch entries, the census, waits whose fault R822 has
reported, with their object (by stage × 2 + index), the satisfied waits of R664, and remote waits whose NOTIFY has come. -/
structure Links where
  ports : FMap LinkPort := []
  reqs : FMap Req := []
  nextTag : Nat := 0
  watches : FMap Watch := []
  census : Option Census := none
  told : FMap Nat := []
  waitK : FMap Nat := []
  waitOk : FMap Unit := []
deriving DecidableEq, Repr

/-! ### The weight array (spec 07, 08) -/

/-- A program or erase in one plane group (R323): OP code of ARY_OPSTAT, target, whether it has begun, whether it waits for a
power grant, whether a command or a read slot suspends it, a command suspend held under R342, the FAST_TIME since which it
has run, and a program's buffer with its symbol errors. -/
structure AryOp where
  op : Nat
  index : Nat
  page : Nat
  begun : Bool := false
  wait : Bool := true
  byCmd : Bool := false
  bySlot : Bool := false
  held : Bool := false
  since : Nat := 0
  data : FMap Byte := []
  errs : FMap ErrPat := []
  master : Nat := 0
deriving DecidableEq, Repr

/-- The stack's open program buffer (R326). -/
structure AryPb where
  sector : Bool
  index : Nat
  page : Nat
  data : FMap Byte := []
  errs : FMap ErrPat := []
  master : Nat := 0
deriving DecidableEq, Repr

/-- One wear entry (R334), with the events raised once per block (R352). -/
structure Wear where
  eraseUs : Nat := 0
  retired : Bool := false
  slow : Bool := false
  near : Bool := false
  eOpen : Bool := false
  failed : Bool := false
  count : Nat := 0
deriving DecidableEq, Repr

/-- A page wanted by a read context: 0 home, 1 cross, 2 window (R284), and how many senses it has waited behind (R285). -/
structure Sense where
  ctx : Nat
  page : Nat
  behind : Nat := 0
deriving DecidableEq, Repr

/-- A page held in a plane's register (R283): whether its context's port still has to drain it, and the raw errors its last sense
left. -/
structure PageReg where
  page : Nat
  full : Bool
  raw : FMap ErrPat := []
  ctx : Nat := 2
deriving DecidableEq, Repr

/-- The continuous read of a context (R286 to R288): the engine and stage whose weights it reads, the window page it starts at, its length
in pages, and the page being transferred. -/
structure ContRead where
  eng : Nat
  key : Nat
  first : Nat
  len : Nat
  at_ : Nat
deriving DecidableEq, Repr

/-- A window read that waits for its page (R290), at a local address. -/
structure WinRead where
  master : Nat
  addr : Nat
  page : Nat
  len : Nat
deriving DecidableEq, Repr

/-- A password-table change being written (R361): region index, new state, CHECK bytes. -/
structure PwWrite where
  region : Nat
  set : Bool
  check : List Byte
deriving DecidableEq, Repr

/-- One stack's array controller: partial sequence (writes taken and master, R317), open buffer, operations by plane group,
wear record by block, or 1,024 + sector (R351), factory-bad blocks, senses in progress and wanted, plane registers, waiting
window reads, the continuous reads of the home and the cross context, the engine that holds the cross-path port (R22), the password
change being written, and whether the region states are loaded (R364). -/
structure Ary where
  seq : Option (Nat × Nat) := none
  pb : Option AryPb := none
  ops : FMap AryOp := []
  wear : FMap Wear := []
  bad : List Nat := []
  cur : FMap Sense := []
  want : List Sense := []
  dreg : FMap PageReg := []
  creg : FMap PageReg := []
  reads : List WinRead := []
  cont : FMap ContRead := []
  cross : Option Nat := none
  pwWrite : Option PwWrite := none
  prot : Bool := false
deriving DecidableEq, Repr

/-- The stacks, the power grants held, and the stacks that wait for one in order (R345, R346). -/
structure Arys where
  st : FMap Ary := []
  grants : List Nat := []
  waitq : List Nat := []
deriving DecidableEq, Repr

/-! ### Model slots, loads and castling (spec 09, 10) -/

/-- A shard entry of a manifest (R369). -/
structure ManShard where
  id : Nat
  kind : Nat
  engine : Nat
  flags : Nat
  srcKind : Nat
  len : Nat
  recOff : Nat
  src : Nat
  nsid : Nat
  ad : Nat
  digest : List Byte
deriving DecidableEq, Repr

/-- An adapter entry of a manifest (R371). -/
structure ManAd where
  id : Nat
  rank : Nat
  first : Nat
  count : Nat
  tag : Nat
deriving DecidableEq, Repr

/-- A manifest as read (R367). -/
structure Manifest where
  flags : Nat
  keySlot : Nat
  mask : Nat
  base : List Byte
  pub : List Byte
  shards : List ManShard
  ads : List ManAd
  digest : List Byte
deriving DecidableEq, Repr

/-- A resident adapter version (R380, R505): its object, the shards it came from or its commit digest, and whether R508 makes
it unavailable. -/
structure AdVer where
  obj : Nat
  tiles : Nat
  shards : List ManShard
  digest : List Byte
  commit : Bool := false
  unavail : Bool := false
deriving DecidableEq, Repr

/-- One side of a model slot (R411): state code, manifest digest and source, shards, shards shared with the other side (to its
shard), adapters, earlier adapter versions that batches still use (R506), DRAM shards lost (R398). -/
structure Side where
  st : Nat := 0
  digest : List Byte := []
  kind : Nat := 0
  addr : Nat := 0
  nsid : Nat := 0
  len : Nat := 0
  mask : Nat := 0
  shards : List ManShard := []
  share : FMap Nat := []
  ads : FMap AdVer := []
  old : List AdVer := []
  lost : FMap Unit := []
deriving DecidableEq, Repr

/-- A model slot: its sides (K is 0, Q is 1), the AON_TIME at which a hold ends with the retiring side, the outcome code that
makes it unavailable with its shard, whether admissions are stopped (R560), and the last switch. -/
structure MSlot where
  k : Side := {}
  q : Side := {}
  hold : Option (Nat × Nat) := none
  unavail : Option (Nat × Nat) := none
  stop : Bool := false
  time : Nat := 0
  seq : Nat := 0
deriving DecidableEq, Repr

/-- An extent (R383): its owner, first shard tile, length, place, and owner count (R433). -/
structure Extent where
  slot : Nat
  side : Nat
  shard : Nat
  first : Nat
  tiles : Nat
  dram : Bool
  stack : Nat
  loc : Nat
  owners : Nat := 1
deriving DecidableEq, Repr

/-- A castle that is QUEUED or RUNNING (R420): command, flags, barrier, the side that would become LIVE, the generation it
arrived at, and whether it has arrived. -/
structure Castle where
  h : CmdHdr
  flags : Nat
  barrier : Nat
  side : Nat
  gen : Option Nat := none
  arrived : Bool := false
deriving DecidableEq, Repr

/-- A session (R414): the side it is bound to, if its binding was not dropped, and closes that wait. -/
structure Session where
  side : Option Nat
  close : List CmdHdr := []
  ended : Bool := false
deriving DecidableEq, Repr

/-- Model slots, sessions by slot × 65,536 + session, and castles by slot. -/
structure Slots where
  slots : FMap MSlot := []
  sessions : FMap Session := []
  castles : FMap Castle := []
deriving DecidableEq, Repr

/-- A run of bytes of a shard in one program unit: stack, block, unit page, offset in the shard, length (R379, R387). -/
structure Piece where
  stack : Nat
  block : Nat
  unit : Nat
  off : Nat
  len : Nat
deriving DecidableEq, Repr

/-- A shard of a running load: its planned extents, the pieces still to program, whether it is shared, has arrived, has been
programmed and is eligible, its bytes while it is programmed, and how often it was placed again under R389 or R820 and under
R394. -/
structure ShardRun where
  exts : List Extent
  pieces : List Piece
  shared : Option Nat := none
  arrived : Bool := false
  done : Bool := false
  eligible : Bool := false
  data : List Byte := []
  again : Nat := 0
  reread : Nat := 0
deriving DecidableEq, Repr

/-- A load (R372): its command, manifest source and target, the manifest once read, its shards, NVMe data arrived for the
current read, whether an ADJOURN or a cleared EN adjourned it, and the bytes arrived. -/
structure LoadRun where
  h : CmdHdr
  kind : Nat
  addr : Nat
  nsid : Nat
  len : Nat
  slot : Nat
  side : Nat
  man : Option Manifest := none
  shards : FMap ShardRun := []
  nv : List Byte := []
  adj : Nat := 0
  bytes : Nat := 0
  objs : FMap AdVer := []
deriving DecidableEq, Repr

/-- A block the arbiter erases in the background, with the side that waits for it as slot × 2 + side, if any (R434); `check` after a
reset, when a block that reads as erased needs none (R441). -/
structure EraseJob where
  stack : Nat
  block : Nat
  owner : Option Nat
  check : Bool := false
deriving DecidableEq, Repr

/-- A patrol lap (R399): its AON_TIME start and the shards still to check as slot, side, shard or adapter, adapter or not. -/
structure Lap where
  start : Nat
  left : List (Nat × Nat × Nat × Bool)
deriving DecidableEq, Repr

/-- A source range still to be read through the NVMe queue: namespace, logical block, bytes (R385). -/
structure NvRead where
  nsid : Nat
  lba : Nat
  len : Nat
deriving DecidableEq, Repr

/-- The load engine: running load, waiting loads, extents by index, background erases, patrol, NVMe queue positions, reads not yet
submitted, and commands without a completion, of which `nvOld` are of loads that wait for them no more. -/
structure Le where
  run : Option LoadRun := none
  queue : List LoadRun := []
  exts : FMap Extent := []
  erases : List EraseJob := []
  lap : Option Lap := none
  sqTail : Nat := 0
  cqHead : Nat := 0
  nvq : List NvRead := []
  nvOut : Nat := 0
  nvOld : Nat := 0
  cid : Nat := 0
deriving DecidableEq, Repr

/-! ### The arbiter (spec 14) and train-runs (spec 12) -/

/-- A held batch (R554 to R559): reason code, replays made, detail, the UE sequence number that classified it, the FAST_TIME of
its hold, and whether it is classified or being replayed. -/
structure HeldB where
  pipe : Nat
  seq : Nat
  reason : Nat
  replays : Nat := 0
  detail : Nat := 0
  ue : Nat := 0
  time : Nat := 0
  classified : Bool := false
  replaying : Bool := false
deriving DecidableEq, Repr

/-- A migrated copy of a shard that no batch reads yet (R162): its slot, side and shard, and its place. -/
structure ShardCopy where
  slot : Nat
  side : Nat
  shard : Nat
  exts : List Extent
deriving DecidableEq, Repr

/-- The arbiter: the held-batch table, quarantined DRAM tiles, the unit
health table (R570: failures and powered time of each engine, state of each stack, with 1 DEGRADED and 2 DEAD, and powered
times of the events that R553 counts: of stack k, failed operations at k, uncorrectable codewords at 16 + k, window timeouts in a row at
32 + k, domain faults at 48 + k), the saved powered time with its AON_TIME (R571), blocks to retire once freed, and migrated copies that wait for an
admission. -/
structure Arb where
  held : FMap HeldB := []
  quar : List Nat := []
  fails : FMap (Nat × Nat) := []
  off : FMap Unit := []
  stackSt : FMap Nat := []
  opFails : FMap (List Nat) := []
  powered : Nat := 0
  savedAt : Nat := 0
  retire : List (Nat × Nat) := []
  moves : List ShardCopy := []
deriving DecidableEq, Repr

/-- A train-run (R492, R494): the descriptor's fields, steps completed, what it does next, and requests to adjourn or resign.
`phase` follows ARB_TR_STAT.PHASE; `out` is whether a batch of it is admitted. -/
structure TrainRun where
  h : CmdHdr
  desc : List Byte
  slot : Nat
  side : Nat
  done : Nat := 0
  phase : Nat := 1
  out : Bool := false
  needRefresh : Bool := true
  adjourn : Bool := false
  resign : Bool := false
  changed : Bool := false
  poison : Option Nat := none
  built : Bool := false
deriving DecidableEq, Repr

/-! ### Boot, keys and resets (spec 20) -/

/-- A fuse operation in progress (R769 to R772): 1 PROG, 2 REVOKE, 3 RAISE, with its slot or level. -/
structure FuseOp where
  kind : Nat
  arg : Nat
deriving DecidableEq, Repr

/-- The key block: fused hashes of slots by slot, a fuse operation, a report being signed (R774), and the digests of the running
firmware and loader. -/
structure Keys where
  hash : FMap (List Byte) := []
  fuse : Option FuseOp := none
  att : Option (List Byte) := none
  fw : List Byte := []
  ldr : List Byte := []
deriving DecidableEq, Repr

/-- The valid boot record (R759), none on a new device, and the values R766 has recorded since the last PD_SYS reset. -/
structure BootRec where
  epoch : Nat := 0
  auto : Nat := 0
  compat : Nat := 0
  base : Nat := 0
deriving DecidableEq, Repr

/-- An access held while its block's domain turns on (R42), or behind one of the same master to the same block (R36); `msg` is the
message, where it came over a link. -/
structure HeldAcc where
  master : Nat
  addr : Nat
  write : Bool
  len : Nat
  data : List Byte := []
  poison : Bool := false
  msg : Option Msg := none
deriving DecidableEq, Repr

/-- What the slot directory keeps over resets (R406, R434): the slots, their extents, the objects of their adapters, and the erases
not yet done. -/
structure SlotDir where
  slots : FMap MSlot
  exts : FMap Extent
  objs : FMap TmObj
  erases : List EraseJob
deriving DecidableEq, Repr

/-- Boot and reset state: the boot record, values for later versions (R766), whether PD_SYS is held in reset and for which
reset type (R754), what else holds it there (main supply off, thermal trip, JTAG, TEST_MODE), domains turning on by bit of PMU_DOM_STAT,
accesses held for them, writes of the device's own masters to registers and the hub, performed at the next clock cycle (log entry
115), the slot directory as it waits for the firmware to restore it (R406, R441), whether DRAM trains (1) or
is initialised (2), and whether the firmware activates the stored image it loads (R764). -/
structure Boot where
  rec_ : Option BootRec := none
  next : Option (Nat × Nat) := none
  inReset : Bool := false
  cause : Nat := 0
  supplyOff : Bool := false
  thermal : Bool := false
  jtag : Bool := false
  testMode : Bool := false
  rising : Nat := 0
  held : List HeldAcc := []
  posted : List HeldAcc := []
  dir : Option SlotDir := none
  ddr : Nat := 0
  auto : Bool := false
deriving DecidableEq, Repr

/-! ### Peripherals (spec 20) -/

/-- A camera port's frame in progress (R785): its buffer, its frame number and FAST_TIME at its start. -/
structure CsiFrame where
  buf : Nat
  num : Nat
  time : Nat
deriving DecidableEq, Repr

/-- The audio input: frames delivered since the last end mark, the DRAM ring's read index and its items' end marks in order, frame
syncs ignored in a row, whether items stopped, the ring's watermark, and windows above the threshold (R788 to R791). -/
structure Tdm where
  frames : Nat := 0
  rp : Nat := 0
  ends : List Bool := []
  ignored : Nat := 0
  stopped : Bool := false
  wm : Bool := false
  vad : Nat := 0
deriving DecidableEq, Repr

/-- The peripheral blocks beside their registers: frames in progress by camera port, the audio input, OUT data that waits for
buffers with whether its transfer has ended, the configuration the USB host has set, and the bytes written to the root port's
own configuration space. -/
structure Periph where
  csi : FMap CsiFrame := []
  tdm : Tdm := {}
  usbWait : List (List Byte × Bool) := []
  usbConf : Nat := 0
  cfgSpace : FMap Byte := []
deriving DecidableEq, Repr

end Sys2Proof.Machine
end

