-- ==== Sys2Proof/Machine/Operands.lean ====
section
/-! DEFINITION. Operands of commands that are not plain numbers: what the outside of the block supplies with an event. -/

namespace Sys2Proof.Machine

/-- What a reload of a shard meets outside the device (R560, R561): the bytes of its manifest and of its shard where their
sources are NVMe, and the outcome code of placing the copy, 0 if nothing fails. -/
structure ReloadIn where
  slot : Nat
  side : Nat
  shard : Nat
  man : List Byte := []
  data : List Byte := []
  fail : Nat := 0
deriving DecidableEq, Repr

/-- An access that a master presents (R23): its address, a fabric address or, for the endpoint's host, an offset in BAR0 (1) or BAR2 (2) by
`bar` (R777); its width in bytes; a write's data and poison; what has struck the stored granule since it was last read; what a device
below the root port answers, with the EP bit; and what reloads that it starts meet outside the device. -/
structure BusAcc where
  master : Nat
  addr : Nat
  bar : Nat := 0
  bytes : Nat
  write : Bool
  data : List Byte := []
  poison : Bool := false
  upset : ErrPat := []
  answer : Option (List Byte) := none
  answerEp : Bool := false
  reloads : List ReloadIn := []
deriving DecidableEq, Repr

/-- The levels of the pins that a release of the reset samples: PCIE_MODE, high for an endpoint (R802), and TEST_MODE (R803). -/
structure Straps where
  endpoint : Bool
  test : Bool := false
deriving DecidableEq, Repr

end Sys2Proof.Machine
end

