-- ==== Sys2Proof/Syntax.lean ====
section
/-! DEFINITION. The commands of the block: one constructor per row of the command table, with the operands that the rule of the row
names. An operand is what the sender or the outside supplies with the command. -/

namespace Sys2Proof

open Machine

/-- A command. -/
inductive Instr where
  -- registers, fabric accesses and held accesses (spec 01)
  /-- REGISTER_WRITE (R9). A write to a register field that has no row of its own stores or ignores the value by its access
  code and range. -/
  | registerWrite (addr value : Nat)
  /-- FABRIC_ACCESS (R23). A master presents a 53-bit fabric address, which the device decodes and performs locally, sends
  over a link or refuses with a bus error. -/
  | fabricAccess (x : BusAcc)
  /-- LINK_ACCESS_TIMEOUT (R29). An access sent over a link gets no response within SYS_TMO and returns TIMEOUT; a later
  response is discarded. -/
  | linkAccessTimeout (tag : Nat)
  /-- HELD_ACCESS_RELEASE (R42). An access held while its block's domain powers on is performed once the domain is ready. -/
  | heldAccessRelease (i : Nat)
  /-- POWER_UP_ACCESS_TIMEOUT (R42). An access held for a powering-on domain exceeds SYS_TMO and returns TIMEOUT. -/
  | powerUpAccessTimeout (i : Nat)
  /-- SYS_NODE_LOCK (R46). Setting SYS_NODE.LOCK freezes DEV_ID and TL_TORUS and enables global routing. -/
  | sysNodeLock
  -- fabric images (spec 02)
  /-- IMG_LOAD_GO (R73). Writing IMG_LOAD.GO starts pass 1 of an image load into the standby slot. -/
  | imgLoadGo
  /-- IMG_PASS1_READ_DONE (R73). Pass 1 has read the whole image and computed its digest, and checks the header, key and
  epoch. -/
  | imgPass1ReadDone
  /-- IMG_SIGNATURE_DONE (R81). Signature verification of pass 1 ends, and on success pass 2 starts with the standby slot
  LOADING. -/
  | imgSignatureDone
  /-- IMG_PASS2_DONE (R77). Pass 2 ends its read, checks every section and leaves the standby slot VALID or INVALID with a
  load code. -/
  | imgPass2Done (tr : CompatOut)
  /-- IMG_SOURCE_FAULT (R77). A source read or CONST-area write returns a bus error, poison or timeout and ends the load in
  that cycle. -/
  | imgSourceFault (code off : Nat)
  /-- IMG_LOAD_ABORT (R77). Writing IMG_LOAD.ABORT ends the running load with ABORTED. -/
  | imgLoadAbort
  /-- IMG_QUEUED_START (R818). A queued IMG_LOAD or IMG_ACTIVATE command starts once no load or activation runs. -/
  | imgQueuedStart
  /-- IMG_ACT_GO (R85). Writing IMG_ACT_CTL.GO starts an activation: step 1 checks run and admissions stop. -/
  | imgActGo
  /-- ACT_DRAIN_DONE (R86). The last admitted batch completes on the active image and the CONST copy of step 3 starts. -/
  | actDrainDone
  /-- ACT_CONST_COPY_DONE (R85). The CONST payloads are in the TS_CONST spans, and the activation goes on to the barrier or
  the switch. -/
  | actConstCopyDone
  /-- ACT_BARRIER_RELEASE (R85). The activation barrier releases and the activation proceeds to the switch of step 5. -/
  | actBarrierRelease
  /-- ACT_TIMEOUT (R89). Steps 1 to 4 exceed IMG_ACT_TMO; the activation is abandoned, CONST spans restored and the barrier
  arrival withdrawn. -/
  | actTimeout
  -- engines, stream FIFOs and quantiser windows (spec 03, 04, 06)
  /-- START (R596). A START command asks to admit a batch to a pipeline with its entry and exit buffers. -/
  | start (h : CmdHdr) (p : StartP)
  /-- ADMIT_BATCH (R113). Once the pipeline admits and has room, the ring controller enters the batch in its context table
  and writes its entry items. -/
  | admitBatch (ring : Option Nat)
  /-- STAGE_FIRE (R107). The sequencer fires a stage whose tokens, credits, waits and units are ready, reserving its tokens
  and credits. -/
  | stageFire (k written lackIn lackCred lackWait : Nat)
  /-- FIRING_END (R109). A firing ends and its unused credits return to the output FIFO. -/
  | firingEnd (k id : Nat)
  /-- FIFO_ITEM_PRESENT (R174). An item becomes presentable at its consumer after the FIFO's latency and is presented. -/
  | fifoItemPresent (id k : Nat) (upset : ErrPat)
  /-- FIFO_CREDIT_GRANT (R175). A slot freed by the consumer is granted as a credit to the producer two cycles later. -/
  | fifoCreditGrant (id n : Nat)
  /-- FIFO_MARK (R183). VX issues MARK with a read, recording the position so later reads free no slot. -/
  | fifoMark (id k : Nat)
  /-- FIFO_REWIND (R184). VX issues REWIND, returning the read pointer to the mark. -/
  | fifoRewind (id k : Nat)
  /-- FIFO_RELEASE (R185). VX issues RELEASE, freeing every slot from the mark to the last item read and clearing the mark.
  -/
  | fifoRelease (id k : Nat)
  /-- FIFO_STARVED (R192). A destination waits on an empty head longer than FIFO_STARVE_TMO, setting STARVED and raising
  FIFO_STARVED. -/
  | fifoStarved (id : Nat)
  /-- FC_PIN_HOLD_EXPIRY (R202). FIFO_PIN_HOLD ends after the OR of a pin falls, and the pin deasserts. -/
  | fcPinHoldExpiry (p : Nat)
  /-- FIFO_WM_WRITE (R204). A write to FIFO_WM of an active route is checked and applied at the next occupancy change, or
  refused with WM_REJ. -/
  | fifoWmWrite (id v : Nat)
  /-- STAGE_BATCH_END (R120). Every bound input port has presented a batch's end mark; the stage ends the batch and resets
  its loops. -/
  | stageBatchEnd (k id : Nat)
  /-- STAGE_SIGNAL_ISSUE (R145). After the pass's writes are acknowledged and outputs stand in FIFOs, the stage issues
  SIGNAL[0] then SIGNAL[1]. -/
  | stageSignalIssue (k id : Nat)
  /-- BATCH_COMPLETE (R123). A batch's end mark reaches the COMPLETE endpoint and the ring controller writes its completion.
  -/
  | batchComplete (p : Nat)
  /-- WS_FETCH (R129). The weight streamer issues a fetch of weight tiles ahead of MX, within its lookahead and free tiles.
  -/
  | wsFetch (k id : Nat)
  /-- AU_FETCH (R130). The access unit fetches activations or scale data ahead once the pass's waits are satisfied. -/
  | auFetch (k id : Nat)
  /-- AU_WRITE (R447). The access unit issues a write through a USE 3 address generator, translated by the tier manager. -/
  | auWrite (k id : Nat)
  /-- FETCH_ARRIVAL (R131). Fetched data arrives in its run-ahead tile for later consumption. -/
  | fetchArrival (k id : Nat) (weights : Bool) (stalled : Nat)
  /-- ENG_WAIT_TIMEOUT (R146). A WAIT unsatisfied for ENG_WAIT_TMO is recorded in ENG_WAIT_STAT and raises ENG_WAIT_TIMEOUT.
  -/
  | engWaitTimeout (k id w : Nat)
  /-- ENG_DRAIN (R147). Clearing ENG_CTL.EN puts the engine in DRAINING. -/
  | engDrain (k : Nat)
  /-- ENG_DRAINED (R148). The last firing in DRAINING ends; run-ahead tiles are discarded and ENG_DRAINED is raised. -/
  | engDrained (k : Nat)
  /-- ENG_DRAIN_SLOW (R149). DRAINING lasts longer than ENG_DRAIN_TMO and ENG_DRAIN_SLOW is raised once. -/
  | engDrainSlow (k : Nat)
  /-- ENG_ENABLE (R150). Setting ENG_CTL.EN returns a DRAINING, DRAINED or KILLED engine to RUNNING. -/
  | engEnable (k : Nat)
  /-- ENG_KILL (R152). Writing ENG_CTL.KILL stops every firing, poisons owed outputs and enters KILLED. -/
  | engKill (k : Nat)
  /-- ENG_FAIL_DECLARE (R155). Writing ENG_CTL.FAIL declares the engine FAILED with cause DECLARED. -/
  | engFailDeclare (k : Nat)
  /-- ENG_CNT_CLR (R168). Writing ENG_CTL.CNT_CLR clears the engine counters at 0x040–0x068. -/
  | engCntClr (k : Nat)
  /-- FIRE_HANG (R155). A firing does not end within ENG_FIRE_TMO and the engine fails with FIRE_HANG. -/
  | fireHang (k : Nat)
  /-- ENG_FAULT (R155). An engine detects CTRL_UE, MX_CHECK, PORT_PARITY or a domain fault, enters FAILED and raises
  ENG_FAULT. -/
  | engFault (k cause : Nat)
  /-- ARB_RELOCATION (R163). The arbiter kills the lost engine, chooses hosts, rebinds routes and replays held batches. -/
  | arbRelocation (k : Nat)
  /-- SHARD_MIGRATION (R162). The arbiter copies a lost engine's shard to a host's home stack and switches it at a batch
  admission. -/
  | shardMigration (r : ReloadIn)
  /-- QZ_SAT_WINDOW_END (R258). An entry's SAT_WINDOW-th static row ends and the window's clip fraction is evaluated. -/
  | qzSatWindowEnd (k n : Nat)
  /-- QZ_SCALE_CALIBRATE (R261). A write to QZ_SCALE installs a new static record from the next row and clears FALLEN. -/
  | qzScaleCalibrate (k n v : Nat)
  -- the weight array (spec 07, 08)
  /-- ARRAY_WINDOW_READ (R290). A fabric master reads the main-block span of an array window, from a register or through a
  sense. -/
  | arrayWindowRead (master k off n : Nat)
  /-- SENSE_COMPLETE (R283). A plane's sense ends, the page is decoded by the inner code and delivered or retried. -/
  | senseComplete (k p : Nat) (tries : List (List (Option Nat))) (raw : FMap ErrPat)
  /-- ARRAY_READ_TIMEOUT (R293). A window read unanswered within ARY_RD_TMO returns TIMEOUT and is cancelled. -/
  | arrayReadTimeout (master k : Nat)
  /-- STACK_POWER_ON (R304). PD_Sk turns on and the controller loads and checks its calibration row and wear record. -/
  | stackPowerOn (k : Nat)
  /-- AUTO_SUSPEND (R294). A sense needed in a programming or erasing plane group suspends the operation once 500 µs have
  run. -/
  | autoSuspend (k g : Nat)
  /-- AUTO_RESUME (R295). After 1 µs with no pending sense or ARY_RD_SLOT, the auto-suspended operation resumes. -/
  | autoResume (k g : Nat)
  /-- ARY_SEQ_KEY (R314). A key write to the array window advances the stack's command sequence state. -/
  | arySeqKey (master k : Nat) (second : Bool)
  /-- ARY_STRAY_WRITE (R319). A window write that is no sequence, single-write command or buffer data is ignored and sets
  SEQ_ERR. -/
  | aryStrayWrite (master k off : Nat) (data : List Byte)
  /-- ARY_SEQ_TIMEOUT (R318). A sequence whose next write misses ARY_SEQ_TMO is discarded with SEQ_ERR. -/
  | arySeqTimeout (k : Nat)
  /-- ARY_ERASE (R323). Command 0x60 checks and starts an erase of a main block or parameter sector. -/
  | aryErase (master k : Nat)
  /-- ARY_PROGRAM_BUFFER (R326). Command 0x81 opens the program buffer for a unit and fills it with 0xFF. -/
  | aryProgramBuffer (master k : Nat)
  /-- ARY_BUFFER_WRITE (R326). A write into the aperture places data in the open program buffer. -/
  | aryBufferWrite (master k off : Nat) (data : List Byte) (poison : Bool)
  /-- ARY_COMMIT (R328). The commit word closes the buffer, computes check symbols and starts the unit program. -/
  | aryCommit (master k : Nat)
  /-- ARY_PB_TIMEOUT (R329). No commit within ARY_PB_TMO discards the buffer with PB_TIMEOUT. -/
  | aryPbTimeout (k : Nat)
  /-- ARY_SUSPEND (R341). Command 0xB0 suspends every running program and erase of the stack. -/
  | arySuspend (master k : Nat)
  /-- ARY_SUSPEND_HELD_EXPIRY (R342). A suspend held until 500 µs of running takes effect. -/
  | arySuspendHeldExpiry (k : Nat)
  /-- ARY_RESUME (R343). Command 0xD0 resumes operations suspended by command, or cancels a held suspend. -/
  | aryResume (master k : Nat)
  /-- ARY_ABORT (R336). Command 0xF0 stops every operation, closes the buffer and returns the window to array mode. -/
  | aryAbort (master k : Nat)
  /-- ARY_STATUS (R332). Command 0x70 makes the next window read return ARY_STAT. -/
  | aryStatus (master k : Nat)
  /-- ARY_IDENTIFY (R333). Command 0x90 makes low window offsets return the identification and wear table. -/
  | aryIdentify (master k : Nat)
  /-- ARY_CONTINUOUS_READ (R335). Command 0xE8 makes the window context sense ahead in window order. -/
  | aryContinuousRead (master k : Nat)
  /-- ARY_PASSWORD_UNLOCK (R356). Command 0xC5 unlocks a region if ARY_PW matches, or counts a failure. -/
  | aryPasswordUnlock (master k : Nat)
  /-- ARY_LOCK (R356). Command 0xC6 sets a password, locks a region or clears a password. -/
  | aryLock (master k : Nat)
  /-- PW_TABLE_WRITE_DONE (R361). The new password table version is written and PW_BUSY clears. -/
  | pwTableWriteDone (k : Nat)
  /-- ARY_POWER_GRANT (R346). A waiting stack receives a program power grant and its operation starts or resumes. -/
  | aryPowerGrant
  /-- ARY_OP_DONE (R339). A program or erase ends with its outcome in ARY_OPSTAT and raises ARY_OP_DONE. -/
  | aryOpDone (k g us : Nat) (ok : Bool)
  /-- ARY_RETIRE (R353). Writing ARY_RETIRE aborts operations on a block, marks it RETIRED and unreadable. -/
  | aryRetire (k b : Nat)
  -- weight loading, castling and release (spec 09, 10)
  /-- LOAD (R372). A LOAD command names a manifest, slot and side for the load engine. -/
  | load (h : CmdHdr) (addr len slot side kind nsid : Nat)
  /-- LOAD_QUEUED_START (R372). A queued load starts once the load engine has finished the previous one. -/
  | loadQueuedStart
  /-- LOAD_MANIFEST_ARRIVAL (R375). The manifest has been read; it is checked and every shard's placement is planned. -/
  | loadManifestArrival
  /-- NVME_COMPLETION (R385). An NVMe completion arrives for a load read, with data or an error status. -/
  | nvmeCompletion (status : Nat) (shard : Option Nat) (data : List Byte)
  /-- SHARD_ARRIVAL_DONE (R391). A shard's last source byte arrives and its arrival digest is compared with DIGEST. -/
  | shardArrivalDone (i : Nat)
  /-- SHARD_READBACK_DONE (R393). The read-back digest of a programmed shard completes; an equal digest makes the shard
  eligible. -/
  | shardReadbackDone (i : Nat)
  /-- LOAD_SOURCE_FAULT (R408). A source read returns a bus error or poison and the load fails, freeing its quads. -/
  | loadSourceFault (shard : Option Nat) (poison : Bool) (cause : Nat)
  /-- LOAD_SOURCE_TIMEOUT (R408). No source data arrives for LE_TMO and the load fails with SRC_TIMEOUT. -/
  | loadSourceTimeout (shard : Option Nat)
  /-- LE_DISABLE (R402). Clearing LE_CTL.EN adjourns the running load. -/
  | leDisable
  /-- LE_ENABLE (R402). Setting LE_CTL.EN continues a load adjourned by clearing EN. -/
  | leEnable
  /-- PATROL_LAP_START (R399). LE_PATROL_INT elapses and the arbiter starts a digest patrol lap. -/
  | patrolLapStart
  /-- PATROL_SHARD_CHECK (R401). A patrol digest of a shard completes; a mismatch or poison raises LE_PATROL_MISMATCH. -/
  | patrolShardCheck
  /-- CASTLE (R420). A CASTLE command checks its preconditions and prepares to switch the slot's side pointer. -/
  | castle (h : CmdHdr) (slot flags barrier : Nat)
  /-- CASTLE_BARRIER_RELEASE (R420). The castle's barrier releases and the castle proceeds to its switch cycle. -/
  | castleBarrierRelease (slot : Nat)
  /-- CASTLE_TIMEOUT (R438). The barrier does not release within ARB_CASTLE_TMO; the arrival is withdrawn and the castle
  fails. -/
  | castleTimeout (slot : Nat)
  /-- CASTLE_HOLD_EXPIRY (R422). CASTLE_HOLD_LIMIT ends the hold and sessions still bound to the retiring side lose their
  binding. -/
  | castleHoldExpiry (slot : Nat)
  /-- ARB_SLOT_EXPIRE (R422). Writing ARB_SLOT_CTL.EXPIRE ends the selected slot's hold at once. -/
  | arbSlotExpire
  /-- RELEASE (R431). A RELEASE command moves a READY or LIVE side toward RELEASING and drops its session bindings. -/
  | release (h : CmdHdr) (slot side : Nat)
  /-- SESSION_CLOSE (R414). A SESSION_CLOSE command closes a session once its admitted batches complete. -/
  | sessionClose (h : CmdHdr) (slot session : Nat)
  -- memory tiers and adaptation (spec 11, 12)
  /-- TM_PLACE (R455). A PLACE operation writes a FREE object entry with its backing after range checks. -/
  | tmPlace (src : TmSrc) (t : TmDesc)
  /-- TM_FREE (R452). A FREE operation discards any placement and returns the entry to FREE. -/
  | tmFree (src : TmSrc) (t : TmDesc)
  /-- TM_PROMOTE (R456). A PROMOTE operation reserves frames and copies object tiles up a tier. -/
  | tmPromote (src : TmSrc) (t : TmDesc)
  /-- TM_CAPTURE (R461). A CAPTURE operation writes back dirty tiles and frees the placement, unless promotion wins. -/
  | tmCapture (src : TmSrc) (t : TmDesc)
  /-- TM_PIN (R452). A PIN operation adds 1 to the object's pin count. -/
  | tmPin (src : TmSrc) (t : TmDesc)
  /-- TM_UNPIN (R452). An UNPIN operation subtracts 1 from the object's pin count. -/
  | tmUnpin (src : TmSrc) (t : TmDesc)
  /-- TM_FLUSH (R452). A FLUSH operation writes back every dirty tile and keeps the placement. -/
  | tmFlush (src : TmSrc) (t : TmDesc)
  /-- TM_TILE_COPY_DONE (R454). A tile copy ends; the mapping switches, FRONTIER moves and held writes proceed. -/
  | tmTileCopyDone (n : Nat)
  /-- TM_MAPPING_QUIESCED (R448). Every cache invalidation is acknowledged and old-mapping accesses complete, so the old
  frame may be reused. -/
  | tmMappingQuiesced (n : Nat)
  /-- TM_HOT_INTERVAL (R467). TM_HOT_INT elapses and the hot KV objects are ranked, promoted and captured within the budget.
  -/
  | tmHotInterval
  /-- TM_DISABLE (R472). Clearing TM_CTL.EN stops running operations after their current tile. -/
  | tmDisable
  /-- TM_ENABLE (R472). Setting TM_CTL.EN continues every stopped operation from its FRONTIER. -/
  | tmEnable
  /-- TRAIN (R493). A TRAIN command checks a train-run descriptor and starts building OBJ_BSCALE. -/
  | train (h : CmdHdr) (addr : Nat)
  /-- TRAIN_SETUP_DONE (R488). OBJ_BSCALE is built; the run opens its session and admits the first refresh batch. -/
  | trainSetupDone
  /-- TRAIN_COMMIT_DONE (R505). The committed adapter is copied and digested and attached to the side in cycle C. -/
  | trainCommitDone
  -- integrity, failure handling and the scoresheet (spec 13, 14)
  /-- SCRUB_READ (R542). In an idle cycle, the scrubber reads the next granule of a store and acts on its decode. -/
  | scrubRead (st : Nat) (upset : ErrPat)
  /-- INTG_SCRUB_SLOW (R545). A scrub lap runs longer than the store's INTG_LAP_TMO and INTG_SCRUB_SLOW is raised. -/
  | intgScrubSlow (st : Nat)
  /-- INTG_FLIP_ARM (R547). A write setting INTG_FLIP.ARM arms the flip mask, or is ignored if its fields are invalid. -/
  | intgFlipArm (v : Nat)
  /-- ARB_HOLD_CLASSIFY (R554). The arbiter classifies a held batch by the UE log and treats it as TRANSIENT, SHARD, ADAPTER
  or DATA. -/
  | arbHoldClassify (i : Nat) (rs : List ReloadIn)
  /-- BATCH_REPLAY (R556). A held batch's entry data re-enters the pipeline as its original admission. -/
  | batchReplay (p seq : Nat)
  /-- ARB_HOLD_REPLAY (R557). Writing ARB_HOLD_CTL.REPLAY replays a held-batch entry. -/
  | arbHoldReplay (i : Nat)
  /-- ARB_HOLD_RESIGN (R559). Writing ARB_HOLD_CTL.RESIGN completes a held batch as resigned and releases withheld
  completions. -/
  | arbHoldResign (i : Nat)
  /-- SHARD_RELOAD (R560). The arbiter stops the slot's admissions, reloads a shard, switches its extents and replays. -/
  | shardReload (r : ReloadIn)
  /-- RELOAD_RETRY_TIMER (R561). ARB_RELOAD_RETRY elapses and the arbiter tries the reload of an unavailable slot again. -/
  | reloadRetryTimer (r : ReloadIn)
  /-- RECOV_RETRY_NOW (R561). Writing ARB_RECOV_CTL.RETRY_NOW retries reloads of unavailable slots at once. -/
  | recovRetryNow (rs : List ReloadIn)
  /-- STACK_DEGRADED (R565). The arbiter declares a stack DEGRADED, withdraws its quads and migrates its shards. -/
  | stackDegraded (k : Nat) (rs : List ReloadIn)
  /-- STACK_DEAD (R566). The arbiter declares a stack DEAD and evacuates its shards by reload. -/
  | stackDead (k : Nat) (rs : List ReloadIn)
  /-- ARB_BLOCK_RETIRE (R568). The arbiter retires a failed block once no extent covers it. -/
  | arbBlockRetire (k b : Nat) (rs : List ReloadIn)
  /-- ARB_CE_REPEAT_RESPONSE (R569). The arbiter reloads, moves or quarantines data at a repeated correctable address. -/
  | arbCeRepeatResponse (st a : Nat) (rs : List ReloadIn)
  /-- ARB_WATCHDOG_EXPIRY (R572). The arbiter misses its watchdog for 100 ms and is restarted alone, with ARB_RESTART
  recorded. -/
  | arbWatchdogExpiry
  /-- POWERED_TIME_SAVE (R571). An hour of AON_TIME passes and the powered-time count is saved. -/
  | poweredTimeSave
  /-- SCORE_RECORD_QUEUE (R576). A scoresheet record enters the writer's 64-entry queue or is dropped and counted. -/
  | scoreRecordQueue (event kind index : Nat) (args : List Nat)
  /-- SCORE_POST (R575). Writing ARB_SCORE_POST_CTL.GO queues a SOFTWARE record or is refused with POST_REJ. -/
  | scorePost (master : Nat)
  /-- SCORE_FLUSH (R577). Writing ARB_SCORE_FLUSH.GO programs the open page. -/
  | scoreFlush
  /-- SCORE_FLUSH_TIMEOUT (R577). A ring page's oldest record has waited ARB_SCORE_FLUSH_TMO and the page is programmed. -/
  | scoreFlushTimeout
  /-- SCORE_PAGE_PROGRAMMED (R578). A scoresheet page program ends and the writer moves on, erasing the next ring sector at a
  sector start. -/
  | scorePageProgrammed
  /-- SCORE_SECTOR_ERASED (R578). The erase of the next ring sector ends and ordinary records may fill the reserve. -/
  | scoreSectorErased
  /-- SCORE_SCAN_DONE (R581). The power-on scan of the scoresheet ends, sets ARB_SCORE_SEQ and releases queued records. -/
  | scoreScanDone
  /-- POWER_FAIL (R580). The PMU detects main supply failure and stops array operations and writes the final records from
  VHOLD. -/
  | powerFail (vhold : Bool)
  -- command rings and long operations (spec 15)
  /-- CMD_TAIL_WRITE (R586). Writing RING_CMD_TAILn posts new commands, or is ignored with TAIL_ERR. -/
  | cmdTailWrite (n v : Nat)
  /-- CPL_HEAD_WRITE (R587). Writing RING_CPL_HEADn frees completion entries, or is ignored with HEAD_ERR. -/
  | cplHeadWrite (n v : Nat)
  /-- RING_ENABLE (R589). Setting RING_CFGn.EN checks the ring configuration and resets or keeps the indices. -/
  | ringEnable (n : Nat)
  /-- RING_DISABLE (R590). Clearing RING_CFGn.EN stops fetching and holds completions. -/
  | ringDisable (n : Nat)
  /-- COMMAND_DISPATCH (R592). The ring controller fetches a ring's next command in round-robin, checks it and hands it to
  its executor. -/
  | commandDispatch
  /-- COMPLETION_RELEASE (R593). A full completion ring gains room and its held completions are written in order. -/
  | completionRelease (n : Nat)
  /-- RING_CPL_STALL (R593). A completion ring still full after RING_CPL_TMO sets CPL_FULL and raises RING_CPL_STALL. -/
  | ringCplStall (n : Nat)
  /-- RING_MOD_TIMER (R612). RING_MODn.US elapses since the oldest counted entry and the ring's interrupt source is
  signalled. -/
  | ringModTimer (n : Nat)
  /-- RING_PROGRESS_TIMER (R604). RING_PROG_INT elapses and a progress entry is written for a running long operation. -/
  | ringProgressTimer (t : Nat)
  /-- NOP (R595). A NOP command completes with no action. -/
  | nop (h : CmdHdr)
  /-- QUERY (R602). A QUERY command returns a handle, slot or fingerprint state in its completion. -/
  | query (h : CmdHdr) (kind index : Nat)
  /-- ADJOURN (R607). An ADJOURN command suspends a QUEUED or RUNNING long operation where allowed. -/
  | adjourn (h : CmdHdr) (t : Nat)
  /-- RESUME (R607). A RESUME command returns an ADJOURNED operation to RUNNING or QUEUED. -/
  | resume (h : CmdHdr) (t : Nat)
  /-- RESIGN (R607). A RESIGN command cancels a long operation where its table allows. -/
  | resign (h : CmdHdr) (t : Nat)
  /-- IMG_LOAD (R818). An IMG_LOAD command loads an image through IMG_SRC and IMG_SRC_LEN. -/
  | imgLoad (h : CmdHdr) (src len : Nat)
  /-- IMG_ACTIVATE (R85). An IMG_ACTIVATE command runs an activation with an optional barrier. -/
  | imgActivate (h : CmdHdr) (en barrier : Nat)
  /-- CENSUS (R680). A CENSUS command starts a fingerprint census of the torus from this device. -/
  | census (h : CmdHdr) (expect : Nat)
  -- Tilhel links and routed messages (spec 16)
  /-- TL_ENABLE (R620). Setting TL_CTLn.EN starts training of the port. -/
  | tlEnable (n : Nat)
  /-- TL_DISABLE (R654). Clearing TL_CTLn.EN stops the port and returns it to OFF. -/
  | tlDisable (n : Nat)
  /-- TL_TRAIN_FLIT (R628). A TRAIN flit is received and the width and topology checks are made. -/
  | tlTrainFlit (n lanes : Nat) (flit : List Byte)
  /-- TL_TRAIN_TIMEOUT (R622). Training misses TL_TRAIN_TMOn; the attempt is counted and repeated, or the port goes DOWN. -/
  | tlTrainTimeout (n : Nat)
  /-- TL_DATA_FLIT (R638). A DATA flit is received, CRC-checked, its slots decoded and delivered to their channels. -/
  | tlDataFlit (n : Nat) (flit : List Byte)
  /-- TL_IDLE_FLIT (R639). An IDLE flit is received and its fingerprint compared and stored. -/
  | tlIdleFlit (n : Nat) (flit : List Byte)
  /-- TL_ACK_FLIT (R634). An ACK flit frees acknowledged flits from the replay buffer. -/
  | tlAckFlit (n : Nat) (flit : List Byte)
  /-- TL_NAK_FLIT (R635). A NAK flit makes the sender resend every unacknowledged flit in order. -/
  | tlNakFlit (n : Nat) (flit : List Byte)
  /-- TL_SLEEP_NOTICE (R657). A SLEEP_NOTICE flit sets the port's STATE to LOW_POWER. -/
  | tlSleepNotice (n : Nat) (flit : List Byte)
  /-- TL_REPLAY_TIMEOUT (R636). The oldest unacknowledged flit gets no ACK within TMO_NS and is replayed. -/
  | tlReplayTimeout (n : Nat)
  /-- TL_ACK_TIMER (R634). 32 flits or 500 ns pass without a header and the receiver sends an ACK flit. -/
  | tlAckTimer (n : Nat)
  /-- TL_IDLE_INSERT (R639). After 4,096 flits without one, the port inserts an IDLE flit. -/
  | tlIdleInsert (n : Nat)
  /-- TL_VC_IDLE_SEND (R632). A bound virtual channel without payload sends its idle item in a VC_IDLE slot every 1 µs. -/
  | tlVcIdleSend (n v : Nat)
  /-- TL_FC_IN_CHANGE (R633). The filtered TLn_FC_IN level changes and pauses or resumes masked stream channels. -/
  | tlFcInChange (n : Nat) (level : Bool)
  /-- TL_FC_STUCK (R633). TLn_FC_IN stays asserted beyond TL_FC_TMOn, setting FC_STUCK and raising TL_FC_STUCK. -/
  | tlFcStuck (n : Nat)
  /-- TL_FP_SETTLE_EXPIRY (R640). Every fingerprint comparison over TL_FP_SETTLE has differed. -/
  | tlFpSettleExpiry (n : Nat)
  /-- TL_WAKE_RETRY (R658). The neighbour does not train after a wake pattern and the pattern is sent again or the port
  returns to LOW_POWER. -/
  | tlWakeRetry (n : Nat)
  /-- LINK_WAKE_DETECT (R660). The link wake detector recognises WAKE blocks and reports a link wake, or counts a false wake.
  -/
  | linkWakeDetect (n : Nat) (ok : Bool)
  /-- READ (R645). A routed READ request is forwarded or performed, answered with READ_RSP or ERR_RSP. -/
  | read (n : Nat) (m : Msg)
  /-- WRITE (R645). A routed WRITE request is forwarded or performed, answered with WRITE_ACK or ERR_RSP. -/
  | write (n : Nat) (m : Msg)
  /-- READ_RSP (R645). A READ_RSP is forwarded or completes the originator's read. -/
  | readRsp (n : Nat) (m : Msg)
  /-- WRITE_ACK (R645). A WRITE_ACK is forwarded or completes the originator's write. -/
  | writeAck (n : Nat) (m : Msg)
  /-- ERR_RSP (R645). An ERR_RSP is forwarded or ends the originator's access with a REMOTE error. -/
  | errRsp (n : Nat) (m : Msg)
  /-- SYNC_OP (R645). A SYNC_OP message performs a stage signal on an object of the owning device. -/
  | syncOp (n : Nat) (m : Msg)
  /-- WATCH (R669). A WATCH message takes a watch entry at the owning hub for a remote stage wait. -/
  | watch (n : Nat) (m : Msg)
  /-- NOTIFY (R645). A NOTIFY response satisfies the remote wait that sent the WATCH. -/
  | notify (n : Nat) (m : Msg)
  /-- WATCH_RETRY (R669). A WATCH refused for lack of entries is sent again after 2 µs. -/
  | watchRetry (tag : Nat)
  /-- STREAM (R645). A tunnelled STREAM message delivers one stream item, discarding already delivered SEQs. -/
  | stream (n : Nat) (m : Msg)
  /-- CENSUS_START (R677). A CENSUS_START message makes a hub initialise its census cells, contribute and forward to its
  children. -/
  | censusStart (n : Nat) (m : Msg)
  /-- CENSUS_PART (R677). A CENSUS_PART message contributes a child's results, and released cells are sent to the parent or
  complete the census. -/
  | censusPart (n : Nat) (m : Msg)
  /-- CENSUS_CHILD_TIMEOUT (R678). The wait for children ends and the cells' current values are sent in place of missing
  contributions. -/
  | censusChildTimeout
  -- synchronisation objects and interrupts (spec 16, 17)
  /-- COUNTER_ADD (R663). A counter add adds ARG to VALUE, saturating. -/
  | counterAdd (master n arg : Nat)
  /-- SEMAPHORE_RELEASE (R663). A semaphore release adds ARG free units. -/
  | semaphoreRelease (master n arg : Nat)
  /-- BARRIER_ARRIVE (R663). A barrier arrival adds 1 and at PARAM releases the generation. -/
  | barrierArrive (master n : Nat)
  /-- EVENT_FLAG_SET (R663). An event flag set writes ARG bit 0 to the flag. -/
  | eventFlagSet (master n arg : Nat)
  /-- REDUCTION_CONTRIBUTE (R663). A contribution folds ARG into a reduction cell and releases at its participant count. -/
  | reductionContribute (master n arg : Nat)
  /-- SYNC_TRY_ACQUIRE (R667). A 64-bit read at offset 0 of a semaphore tries to acquire one unit. -/
  | syncTryAcquire (master n : Nat)
  /-- SYNC_FIELD_STORE (R667). A 32-bit write at 0x4, 0x8 or 0xC stores the data as written. -/
  | syncFieldStore (n off v : Nat)
  /-- SYNC_PAIR_WRITE (R667). A 256-bit write stores an object pair and clears its poison and saturation. -/
  | syncPairWrite (m : Nat) (data : List Byte) (poison : Bool)
  /-- IC_SETPEND (R695). Writing an ID to IC_SETPEND sets that source pending, or sets BAD_ID. -/
  | icSetpend (id : Nat)
  /-- IC_CLRPEND (R695). Writing an ID to IC_CLRPEND clears that source's pending bit. -/
  | icClrpend (id : Nat) (raised : Bool)
  /-- IC_VECTOR_ACCEPT (R689). A core accepts the presented vector; the source becomes active and RPR rises. -/
  | icVectorAccept (c : Nat) (raised : Bool)
  /-- IC_EOI (R692). Writing an ID to IC_EOIc ends its active state and recomputes RPR, or sets EOI_ERR. -/
  | icEoi (c id : Nat)
  /-- IC_EN_WRITE (R697). A write to an IC_EN word stores every bit, overriding a same-cycle ONESHOT clear with MASK_RACE. -/
  | icEnWrite (m v : Nat) (race : Option Nat)
  -- power states, time, resets, boot and keys (spec 18, 20)
  /-- PMU_REQUEST_ENTRY (R710). Writing PMU_REQ with a deeper TARGET starts an entry and asks the round-1 agents. -/
  | pmuRequestEntry (target : Nat)
  /-- PMU_REQUEST_EXIT (R710). Writing PMU_REQ with TARGET RUN from IDLE or NAP starts an exit. -/
  | pmuRequestExit
  /-- AUTO_IDLE_ENTRY (R711). No batch and no firing for PMU_IDLE_DLY starts an entry to IDLE. -/
  | autoIdleEntry
  /-- AUTO_RUN_EXIT (R712). Demand for an engine or stack domain in IDLE or NAP starts an exit to RUN. -/
  | autoRunExit
  /-- AGENT_ANSWER (R715). A domain agent answers ACCEPT, DELAY or REFUSE to an entry request. -/
  | agentAnswer (a : Nat) (busy : Bool)
  /-- PMU_HANDSHAKE_TIMEOUT (R718). Not every ACCEPT arrives within PMU_HS_TMO; the entry is cancelled with TIMEOUT. -/
  | pmuHandshakeTimeout
  /-- WAKE_SOURCE (R728). An enabled wake source sets PMU_WAKE_PEND and aborts, cancels or ends a state. -/
  | wakeSource (src : Nat)
  /-- AON_CALIBRATE (R738). Writing AON_CAL.GO starts a calibration of CLK_REF against both always-on oscillators. -/
  | aonCalibrate
  /-- AON_CAL_DONE (R738). A calibration window ends and AON_RATIO and AON_RC_RATIO are set. -/
  | aonCalDone (xtal rc : Nat)
  /-- AON_CLOCK_FALLBACK (R739). The crystal gives no edge for 4 RC periods and CLK_AON switches to the RC oscillator. -/
  | aonClockFallback
  /-- AON_CLOCK_RETRY (R739). Writing AON_CLK.RETRY asks CLK_AON to return to the crystal. -/
  | aonClockRetry
  /-- AON_CRYSTAL_STABLE (R741). The crystal has given 4,096 stable cycles and CLK_AON switches to it. -/
  | aonCrystalStable
  /-- AON_ALARM (R742). AON_TIME reaches an armed alarm's compare value; it fires, clears ARM and sets its wake bit. -/
  | aonAlarm (n : Nat)
  /-- PMU_DOMAIN_FAULT (R744). A domain's supply or clock monitor trips and PMU_DOMAIN_FAULT is raised. -/
  | pmuDomainFault (dom kind : Nat)
  /-- POWER_ON_RESET (R754). PD_AON receives supply and every domain is reset. -/
  | powerOnReset
  /-- SUPPLY_RESET (R809). The main supply returns with PD_AON powered and every other domain is reset. -/
  | supplyReset
  /-- PIN_RESET (R757). RESET_N held low resets every domain except PD_AON after array stop and scoresheet flush. -/
  | pinReset (cool : Bool)
  /-- SOFTWARE_RESET (R754). KEY_RST.GO with CODE 0xB007 resets every domain except PD_AON, or is refused. -/
  | softwareReset (code : Nat)
  /-- PERST_FALL (R755). PERST_N falls in endpoint mode and resets the device or only the PCIe controller. -/
  | perstFall
  /-- KEY_RECOVER (R764). KEY_RECOVER.GO checks a firmware or loader object written for recovery. -/
  | keyRecover (type : Nat)
  /-- ARB_BOOT_CFG (R766). ARB_BOOT_CFG.GO records CONST_BASE and COMPAT_EN for later boots, or sets REJ. -/
  | arbBootCfg (base compat : Nat)
  /-- KEY_FUSE_PROG (R769). KEY_FUSE_CTL.PROG programs key-hash slot 2 or 3. -/
  | keyFuseProg (slot : Nat)
  /-- KEY_FUSE_REVOKE (R770). KEY_FUSE_CTL.REVOKE checks a revocation record and revokes its target slot. -/
  | keyFuseRevoke
  /-- KEY_FUSE_RAISE (R772). KEY_FUSE_CTL.RAISE raises the firmware fuse floor to LEVEL. -/
  | keyFuseRaise (level : Nat)
  /-- KEY_FUSE_DONE (R775). A fuse operation ends with its code in KEY_STAT.CODE. -/
  | keyFuseDone (ok : Bool)
  /-- KEY_ATTEST (R774). KEY_ATT_CTL.GO takes the report fields and starts signing an attestation report. -/
  | keyAttest
  /-- KEY_ATTEST_DONE (R774). The signed report is written to KEY_ATT_DST. -/
  | keyAttestDone
  /-- DDR_TRAIN (R797). DDR_CTL.TRAIN starts training every DRAM channel at DDR_CFG.RATE. -/
  | ddrTrain
  /-- DDR_TRAIN_DONE (R797). Training ends with TRAIN_DONE or TRAIN_FAIL and DRAM initialisation starts on success. -/
  | ddrTrainDone (mask : Nat)
  /-- DDR_TRAIN_TIMEOUT (R780). DRAM training exceeds DDR_TRAIN_TMO and fails. -/
  | ddrTrainTimeout (mask : Nat)
  /-- DDR_INIT_DONE (R524). DRAM initialisation ends, SYS_DRAM_TOP is written and INIT_DONE raised. -/
  | ddrInitDone (rs : List ReloadIn)
  /-- THERMAL_TRIP (R812). A sensor reaches 120 °C; THERMTRIP_N falls and the device shuts down as for supply failure. -/
  | thermalTrip (vhold : Bool)
  /-- JTAG_EXTEST (R804). EXTEST or CLAMP holds PD_SYS in reset, and leaving it performs a PIN reset. -/
  | jtagExtest (on : Bool)
  /-- RESET_RELEASE (R807). Once every group B and C rail has been in range for 1 ms and RESET_N is high, the device releases
  PD_SYS from reset and starts step 1 of R763. -/
  | resetRelease (strap : Straps)
  -- peripheral interfaces (spec 20)
  /-- ETH_RX_FRAME (R782). A received Ethernet frame goes to the INGEST route or a receive buffer, or is dropped whole and
  counted. -/
  | ethRxFrame (m : Nat) (frame : List Byte) (ok : Bool)
  /-- ETH_RX_TAIL_WRITE (R783). Writing ETH_RX_TAIL posts receive buffers, or sets TAIL_ERR. -/
  | ethRxTailWrite (m v : Nat)
  /-- ETH_TX_TAIL_WRITE (R783). Writing ETH_TX_TAIL posts frames to transmit, or sets TAIL_ERR. -/
  | ethTxTailWrite (m v : Nat)
  /-- ETH_TX_DONE (R783). A frame is sent, its descriptor status written and TX_DONE raised. -/
  | ethTxDone (m : Nat)
  /-- ETH_LINK_DOWN (R780). Ethernet block lock is lost for 10 ms and LINK_DOWN is raised. -/
  | ethLinkDown (m : Nat)
  /-- USB_OUT_TRANSFER (R784). A bulk OUT transfer fills OUT descriptors and raises OUT_DONE. -/
  | usbOutTransfer (data : List Byte) (ended : Bool)
  /-- USB_IN_DONE (R784). An IN descriptor is sent and IN_DONE raised. -/
  | usbInDone
  /-- USB_OUT_TAIL_WRITE (R784). Writing USB_OUT_TAIL posts OUT buffers, or sets TAIL_ERR. -/
  | usbOutTailWrite (v : Nat)
  /-- USB_IN_TAIL_WRITE (R784). Writing USB_IN_TAIL posts IN data, or sets TAIL_ERR. -/
  | usbInTailWrite (v : Nat)
  /-- USB_BUS_RESET (R780). A USB bus reset or handshake timeout raises BUS_RESET. -/
  | usbBusReset (speed : Nat)
  /-- CSI_FRAME_START (R786). A camera frame starts and takes a free buffer, or is dropped with NOBUF. -/
  | csiFrameStart (n num : Nat)
  /-- CSI_FRAME_END (R785). A frame ends and its descriptor item is written to the INGEST route, or the frame is dropped. -/
  | csiFrameEnd (n width lines dt vc : Nat) (data : List Byte)
  /-- CSI_FRAME_TIMEOUT (R780). No frame end within CSI_FRAME_TMO drops the frame with TIMEOUT. -/
  | csiFrameTimeout (n : Nat)
  /-- CSI_FB_REL (R786). Writing CSI_FB_REL frees a frame buffer, or sets REL_ERR for a free one. -/
  | csiFbRel (n i : Nat)
  /-- CSI_FB_CFG_WRITE (R787). A write setting CSI_FB_CFG.EN enables the port, or is ignored for invalid fields. -/
  | csiFbCfgWrite (n v : Nat)
  /-- TDM_FRAME (R788). A TDM frame becomes binary16 items to the INGEST route or the DRAM ring, or is dropped. -/
  | tdmFrame (samples : List Nat) (onTime : Bool)
  /-- TDM_RING_DRAIN (R789). The INGEST route grants credit and items leave the DRAM ring in order. -/
  | tdmRingDrain
  /-- TDM_FS_LOST (R780). No frame sync for 1 ms raises FS_LOST and items stop. -/
  | tdmFsLost
  /-- TDM_CTL_WRITE (R790). A write setting TDM_CTL.EN enables the input, or is ignored for invalid settings. -/
  | tdmCtlWrite (v : Nat)
  /-- VAD_WINDOW (R791). A 480-frame window ends and the detector raises VAD after HOLD windows above THRESH. -/
  | vadWindow (sum : Nat)
  /-- PCIE_LINK_TRAIN (R780). Setting PCIE_CTL.EN trains the PCIe link. -/
  | pcieLinkTrain
  /-- PCIE_LINK_FAIL (R780). PCIe link training exceeds PCIE_CTL.TMO, raises LINK_FAIL and retries. -/
  | pcieLinkFail
  /-- PCIE_CONFIG_ACCESS (R778). An access to the root-port configuration window issues a configuration request. -/
  | pcieConfigAccess (master off n : Nat) (wr : Bool) (data : List Byte) (answer : Option (List Byte))
  /-- CPU_HOLD_WRITE (R798). Writing CPU_HOLD starts released cores at CPU_ENTRY or resets held ones. -/
  | cpuHoldWrite (v : Nat)
  /-- CPU_FREQ_WRITE (R798). Writing CPU_FREQ relocks the CLK_A PLL while the cores stall. -/
  | cpuFreqWrite (v : Nat)
  /-- PCIE_LINK_UP (R794). PCIe link training succeeds, PCIE_STAT.LINK_UP becomes 1 and the LINK_UP cause is set. -/
  | pcieLinkUp (rate width : Nat)
  /-- ETH_BLOCK_LOCK (R780). The 10GBASE-R receiver gains block lock and ETH_STAT.LINK becomes 1. -/
  | ethBlockLock (m : Nat)
  /-- USB_BUS_SUSPEND (R794). The USB bus is suspended or resumed, changing USB_STAT.SUSPENDED and setting the SUSPEND cause.
  -/
  | usbBusSuspend (on : Bool)
  /-- USB_STANDARD_REQUEST (R784). The device answers a USB 3.2 standard request from the host itself, such as setting the
  configuration that sets USB_STAT.CONFIGURED. -/
  | usbStandardRequest (setup : List Byte)
deriving DecidableEq, Repr

end Sys2Proof
end

