-- ==== Sys2Proof/Decode.lean ====
section
/-! DEFINITION. Decoding of a command from a word. The command table gives no row any bits: the commands are register accesses, ring
entries, messages and events, whose own layouts the block reads itself (`payloadSpans`, `msgParse` and the register map). -/

namespace Sys2Proof

/-- The command that a word spells by the table's bits: none, since no row has bits. -/
def decodeTableWord (_nbits _w : Nat) : Option Instr := none

end Sys2Proof
end

