-- ==== Sys2Proof/Machine/Crypto.lean ====
section
/-! DEFINITION. The standard functions that the manual names without defining them: SHA-512 and ECDSA over P-521 (FIPS 180
and 186), CRC-32 of IEEE 802.3 (R303, R359) and the CRC of a flit (R625). -/

namespace Sys2Proof.Machine

/-- The largest number of `bits` bits whose `k`-th power is at most `x`, found bit by bit from above. -/
def floorRoot (k x : Nat) : Nat → Nat → Nat
  | 0, r => r
  | bits + 1, r => floorRoot k x bits (if (r + 2 ^ bits) ^ k ≤ x then r + 2 ^ bits else r)

/-- Is a number prime, by trial division? -/
def primeTrial (n : Nat) : Bool := decide (2 ≤ n) && (List.range n).all (fun i => decide (i < 2) || n % i != 0)

/-- The first 64 bits after the point of the `k`-th roots of the primes below `n`: FIPS 180 derives the constants of SHA-512 so. -/
def rootFractions (k n : Nat) : List Nat :=
  ((List.range n).filter primeTrial).map (fun p => floorRoot k (p * 2 ^ (64 * k)) 70 0 % 2 ^ 64)

/-- The 80 round constants: cube roots of the primes up to 409. -/
def shaK : List Nat := rootFractions 3 410

/-- The initial state of SHA-512: square roots of the primes up to 19. -/
def shaInit : List Nat := rootFractions 2 20

/-- 64-bit addition. -/
def add64 (a b : Nat) : Nat := (a + b) % 2 ^ 64

/-- Rotate a 64-bit word to the right. -/
def ror64 (x n : Nat) : Nat := (x / 2 ^ n ||| x * 2 ^ (64 - n)) % 2 ^ 64

/-- The 64 message-schedule words beyond the first 16, on the last 16 words, newest first. -/
def shaSched : Nat → List Nat → List Nat
  | 0, w => w
  | n + 1, w =>
    let a := w.getD 14 0
    let b := w.getD 1 0
    let s0 := ror64 a 1 ^^^ ror64 a 8 ^^^ a / 128
    let s1 := ror64 b 19 ^^^ ror64 b 61 ^^^ b / 64
    shaSched n (add64 (add64 (w.getD 15 0) s0) (add64 (w.getD 6 0) s1) :: w)

/-- One round: the eight working words with a schedule word and a constant. -/
def shaRound (s : List Nat) (wk : Nat × Nat) : List Nat :=
  match s with
  | [a, b, c, d, e, f, g, h] =>
    let t1 := add64 (add64 (add64 h (ror64 e 14 ^^^ ror64 e 18 ^^^ ror64 e 41))
      ((e &&& f) ^^^ ((2 ^ 64 - 1 - e) &&& g))) (add64 wk.1 wk.2)
    let t2 := add64 (ror64 a 28 ^^^ ror64 a 34 ^^^ ror64 a 39) ((a &&& b) ^^^ (a &&& c) ^^^ (b &&& c))
    [add64 t1 t2, a, b, c, add64 d t1, e, f, g]
  | s => s

/-- One 128-byte block. -/
def shaBlock (h : List Nat) (blk : List Byte) : List Nat :=
  let w := (chunksOf 8 16 blk).map (fun x => leNat x.reverse)
  let ws := (shaSched 64 w.reverse).reverse
  let r := (ws.zip shaK).foldl shaRound h
  (h.zip r).map (fun p => add64 p.1 p.2)

/-- Whole blocks of a padded message, `fuel` at most. -/
def shaBlocks : Nat → List Nat → List Byte → List Nat
  | 0, h, _ => h
  | _, h, [] => h
  | n + 1, h, m => shaBlocks n (shaBlock h (m.take 128)) (m.drop 128)

/-- SHA-512: 64 bytes. -/
def sha512 (m : List Byte) : List Byte :=
  let z := (239 - m.length % 128) % 128
  let p := m ++ [0x80] ++ List.replicate z 0 ++ (leBytes 16 (8 * m.length)).reverse
  (shaBlocks (p.length / 128) shaInit p).flatMap (fun x => (leBytes 8 x).reverse)

/-- One byte of CRC-32 with the reflected IEEE 802.3 polynomial. -/
def crc32Byte (c : Nat) (b : Byte) : Nat :=
  (List.range 8).foldl (fun c _ => if c % 2 = 1 then c / 2 ^^^ 0xEDB88320 else c / 2) (c ^^^ b.toNat)

/-- CRC-32 of a byte string. -/
def crc32 (m : List Byte) : Nat := m.foldl crc32Byte 0xFFFFFFFF ^^^ 0xFFFFFFFF

/-! ### P-521 -/

def p521 : Nat := 2 ^ 521 - 1
def n521 : Nat := 0x1fffffffffffffffffffffffffffffffffffffffffffffffffffffffffffffffffa51868783bf2f966b7fcc0148f709a5d03bb5c9b8899c47aebb6fb71e91386409
def b521 : Nat := 0x51953eb9618e1c9a1f929a21a0b68540eea2da725b99b315f3b8b489918ef109e156193951ec7e937b1652c0bd3bb1bf073573df883d2c34f1ef451fd46b503f00
def gx521 : Nat := 0xc6858e06b70404e9cd9e3ecb662395b4429c648139053fb521f828af606b4d3dbaa14b5e77efe75928fe1dc127a2ffa8de3348b3c1856a429bf97e7e31c2e5bd66
def gy521 : Nat := 0x11839296a789a3bc0045c8a5fb42c7d1bd998f54449579b446817afbd17273e662c97ee72995ef42640c550b9013fad0761353c7086a272c24088be94769fd16650

/-- Power modulo `m`, over the exponent's low `fuel` bits. -/
def powMod (m : Nat) : Nat → Nat → Nat → Nat → Nat
  | 0, _, _, acc => acc
  | n + 1, b, e, acc => powMod m n (b * b % m) (e / 2) (if e % 2 = 1 then acc * b % m else acc)

/-- Inverse modulo a prime of 521 bits. -/
def invMod (m a : Nat) : Nat := powMod m 521 (a % m) (m - 2) 1

/-- A point, affine; none is the point at infinity. -/
abbrev EcPoint := Option (Nat × Nat)

/-- Addition on the curve y² = x³ - 3x + b. -/
def ecAdd (p q : EcPoint) : EcPoint :=
  match p, q with
  | none, q => q
  | p, none => p
  | some (x1, y1), some (x2, y2) =>
    if x1 = x2 ∧ (y1 + y2) % p521 = 0 then none
    else
      let l := if x1 = x2 then (3 * x1 * x1 + p521 - 3) * invMod p521 (2 * y1) % p521
        else (y2 + p521 - y1) * invMod p521 (x2 + p521 - x1) % p521
      let x3 := (l * l + 2 * p521 - x1 - x2) % p521
      some (x3, (l * (x1 + p521 - x3) + p521 - y1) % p521)

/-- Scalar multiplication over the scalar's low `fuel` bits. -/
def ecMul : Nat → Nat → EcPoint → EcPoint → EcPoint
  | 0, _, _, acc => acc
  | n + 1, k, p, acc => ecMul n (k / 2) (ecAdd p p) (if k % 2 = 1 then ecAdd acc p else acc)

/-- Does a 133-byte PUBKEY (R55) name a point on the curve? -/
def pubPoint (pub : List Byte) : Option (Nat × Nat) :=
  let x := fieldAt pub 1 66
  let y := fieldAt pub 67 66
  if fieldAt pub 0 1 = 4 ∧ x < p521 ∧ y < p521 ∧ (y * y) % p521 = (x * x * x + (p521 - 3) * x + b521) % p521
  then some (x, y) else none

/-- ECDSA P-521 over a SHA-512 digest with the signature as r then s, 66 bytes each, little-endian (R59, R368). -/
def ecdsaOk (pub digest sig : List Byte) : Bool :=
  match pubPoint pub with
  | none => false
  | some q =>
    let r := fieldAt sig 0 66
    let s := fieldAt sig 66 66
    let e := leNat digest.reverse
    if r = 0 ∨ s = 0 ∨ n521 ≤ r ∨ n521 ≤ s then false
    else
      let w := invMod n521 s
      let u1 := e * w % n521
      let u2 := r * w % n521
      match ecAdd (ecMul 521 u1 (some (gx521, gy521)) none) (ecMul 521 u2 (some q) none) with
      | none => false
      | some (x, _) => x % n521 == r

end Sys2Proof.Machine
end

