-- ==== Sys2Proof/Config.lean ====
section
/-! DEFINITION. What one part fixes and the manual leaves open, as constants without a body: nothing can prove a value
of them, so a statement holds whatever they are (log entries 20 to 29). -/

namespace Sys2Proof.Config

/-- The bytes of the mask boot ROM, whose contents the manual does not give. -/
opaque bootRom : Nat → Byte

/-- The factory calibration rows (R303), one byte per offset of the 64 KiB range. -/
opaque calRow : Nat → Byte

/-- The identity window of the key block (R773), by byte offset. -/
opaque identity : Nat → Byte

/-- The device's attestation signature (R774): 132 bytes for the signed bytes. The private key is reached by no address. -/
opaque attestSignature : List Byte → List Byte

/-- The 64-byte hashes that Kenquel fuses into key-hash slots 0 and 1 at manufacture (R768), by slot and byte. -/
opaque keyHash : Nat → Nat → Byte

/-- A fresh 64-bit value for each count: a value the manual leaves undefined. -/
opaque freeValue : Nat → DWord

/-- VX results that the manual does not state: ROPE's, whose angle table it does not lay out, and SOFTMAX's of a row with an infinite
maximum (R137). By function code, element operands and position. -/
opaque vxFunction : Nat → List HWord → HWord

/-- How many places a VX result lies from the correctly rounded one, clamped by the user to the function's bound (R137): by function code
and operands. -/
opaque vxUlp : Nat → List HWord → Int

/-- Unused positions of the last item of a row that a stage without a quantiser entry takes: no field gives such a row's length (R220,
R815; log entry 126). By engine, stage and loop position. -/
opaque rowPad : Nat → Nat → Nat → Nat

/-- What a remote master or peripheral would have answered: data that no rule of the manual fixes. -/
opaque remoteData : Nat → Byte

/-- What the USB port answers to a standard request where the manual leaves it to the USB 3.2 specification (R784): by the eight setup
bytes and the device serial. -/
opaque usbReply : List Byte → List Byte → List Byte

/-- The root port's own Type 1 configuration space at reset (R778), which the PCI Express specification lays out: by byte. -/
opaque pcieCfg : Nat → Byte

/-- β to the power T in binary64 as the part computes it: the manual fixes the format and not the order of the multiplications
(R489). By the binary32 pattern of β and T. -/
opaque betaPow : Nat → Nat → DWord

end Sys2Proof.Config
end

