-- ==== Sys2Proof/Machine/Dev.lean ====
section
/-! DEFINITION. The device's state but for the queue of waiting commands: the registers, memory with its marks and
symbol errors, and every block's tables. -/

namespace Sys2Proof.Machine

/-- The order codes of R1. -/
inductive OrderCode where
  | bx1632fc | bx1632fi | bx1616fc
deriving DecidableEq, Repr

/-- What the part is and how the board straps it: its order code (R1), PCIE_MODE (R802), and DRAM fitted in bytes (R33). -/
structure Part where
  order : OrderCode := .bx1632fc
  endpoint : Bool := false
  dramBytes : Nat := 68719476736
deriving DecidableEq, Repr

/-- What leaves the device at its pins, buses and links, oldest first. -/
inductive Out where
  | busRead (master : Nat) (data : List Byte)
  | busWrote (master : Nat)
  | busError (master : Nat) (cause : Nat) (data : List Byte)
  | poisonAbort (master : Nat)
  | vector (core : Nat) (addr : Nat)
  | msix (n : Nat)
  | linkMsg (port : Nat) (bytes : List Byte)
  | flit (port : Nat) (bytes : List Byte)
  | frame (port : Nat) (bytes : List Byte) (badFcs : Bool)
  | usbData (bytes : List Byte) (abort : Bool)
  | usbReply (bytes : List Byte)
  | pcie (addr : Nat) (write : Bool) (bytes : List Byte) (ep : Bool)
  | pcieCfg (typeOne : Bool) (addr : Nat) (write : Bool) (bytes : List Byte)
  | wakePattern (port : Nat)
  | pin (name : String) (level : Bool)
deriving DecidableEq, Repr

/-- The device's state but for the queue of waiting commands. -/
structure Dev where
  part : Part := {}
  regs : FMap (BitVec 64) := []
  mem : List Host.Cell := []
  poison : FMap Unit := []
  errs : FMap ErrPat := []
  out : List Out := []
  free : Nat := 0
  intg : Intg := {}
  score : Score := {}
  rings : Rings := {}
  ic : Ic := {}
  pmu : Pmu := {}
  img : Img := {}
  fifos : FMap Fifo := []
  pinForce : Bool := true
  engs : Engs := {}
  pipes : FMap Pipe := []
  tm : Tm := {}
  links : Links := {}
  arys : Arys := {}
  boots : Nat := 0
  slots : Slots := {}
  le : Le := {}
  arb : Arb := {}
  train : Option TrainRun := none
  keys : Keys := {}
  boot : Boot := {}
  periph : Periph := {}
deriving DecidableEq, Repr

end Sys2Proof.Machine
end

