-- ==== Sys2Proof/Machine/Ops.lean ====
section
/-! DEFINITION. The shared operations: registers and fields, sticky counters and VALID/OVER logs, interrupts and wakes,
memory with its granule code, marks and logs, and access checks. -/

namespace Sys2Proof.Machine

/-! ### Registers and fields -/

/-- The value a register holds: the stored one, else its reset value (R16). -/
def regGet (rs : FMap (BitVec 64)) (r : Reg) : BitVec 64 := mgetD rs r.addr r.reset

/-- Store a register; a register at its reset value is not listed. -/
def regPut (rs : FMap (BitVec 64)) (r : Reg) (v : BitVec 64) : FMap (BitVec 64) :=
  if v = r.reset then mdel rs r.addr else mput rs r.addr v

/-- Field `f` of a register value. -/
def fldGet (v : BitVec 64) (f : Fld) : Nat := (v.extractLsb' f.lo f.len).toNat

/-- A register value with field `f` set to `x` (its low bits). -/
def fldPut (v : BitVec 64) (f : Fld) (x : Nat) : BitVec 64 :=
  let mask : BitVec 64 := (BitVec.ofNat 64 (2 ^ f.len - 1)) <<< f.lo
  (v &&& ~~~mask) ||| (((BitVec.ofNat 64 x) <<< f.lo) &&& mask)

/-- Read a register of the device. -/
def rd (d : Dev) (r : Reg) : BitVec 64 := regGet d.regs r

/-- Write a register of the device. -/
def wr (r : Reg) (v : BitVec 64) (d : Dev) : Dev := { d with regs := regPut d.regs r v }

/-- Read a field. -/
def gf (d : Dev) (r : Reg) (f : Fld) : Nat := fldGet (rd d r) f

/-- Read a one-bit field. -/
def gb (d : Dev) (r : Reg) (f : Fld) : Bool := gf d r f != 0

/-- Write a field. -/
def sf (r : Reg) (f : Fld) (x : Nat) (d : Dev) : Dev := wr r (fldPut (rd d r) f x) d

/-- A Bool as a field value. -/
def bit (b : Bool) : Nat := if b then 1 else 0

/-- Append one output. -/
def emit (o : Out) (d : Dev) : Dev := { d with out := d.out ++ [o] }

/-- Do `f` when `c` holds. -/
def whenB (c : Bool) (f : Dev → Dev) (d : Dev) : Dev := if c then f d else d

/-- FAST_TIME, the CLK_REF counter (R736). -/
def fastTime (d : Dev) : Nat := (rd d Reg.FAST_TIME).toNat

/-- AON_TIME, the CLK_AON counter (R736). -/
def aonTime (d : Dev) : Nat := (rd d Reg.AON_TIME).toNat

/-- A fresh undefined 64-bit value; the count advances. -/
def takeFree (d : Dev) : Nat × Dev := ((Config.freeValue d.free).toNat, { d with free := d.free + 1 })

/-! ### Interrupt sources (R684) -/

/-- Event position in the groups of R684. -/
def srcEng (e k : Nat) : Nat := 128 + 16 * e + k
def srcAry (e k : Nat) : Nat := 288 + 16 * e + k
def srcTl (e n : Nat) : Nat := 432 + 4 * e + n

/-- Is source `n` pending (R683)? -/
def icPending (d : Dev) (n : Nat) : Bool := (rd d (Reg.IC_PEND (n / 32))).getLsbD (n % 32)

/-- Is source `n` enabled? -/
def icEnabled (d : Dev) (n : Nat) : Bool := (rd d (Reg.IC_EN (n / 32))).getLsbD (n % 32)

/-- Set or clear bit `n` of a bank of 32-bit words. -/
def bankSet (r : Nat → Reg) (n : Nat) (b : Bool) (d : Dev) : Dev :=
  sf (r (n / 32)) ⟨n % 32, 1⟩ (bit b) d

/-- The running priority of core `c` (R688): the lowest PRIO among the sources active on it, or 16. -/
def icRpr (d : Dev) (c : Nat) : Nat :=
  (d.ic.act.filter (fun p => p.2 == c)).foldl
    (fun m p => min m (gf d (Reg.IC_SRCCFG p.1) F.IC_SRCCFG_PRIO)) 16

/-- Does source `n` qualify for core `c` (R686)? -/
def icQualifies (d : Dev) (c n : Nat) : Bool :=
  gb d Reg.IC_CTL F.IC_CTL_EN && icPending d n && !(mhas d.ic.act n) && icEnabled d n &&
  (gf d (Reg.IC_SRCCFG n) F.IC_SRCCFG_TARGET == c) &&
  decide (gf d (Reg.IC_SRCCFG n) F.IC_SRCCFG_PRIO < gf d (Reg.IC_PMR c) F.IC_PMR_PMR) &&
  decide (gf d (Reg.IC_SRCCFG n) F.IC_SRCCFG_PRIO < icRpr d c)

/-- The pending sources, by rising ID. -/
def icPendList (d : Dev) : List Nat :=
  (List.range 16).flatMap (fun m =>
    let w := rd d (Reg.IC_PEND m)
    if w = 0 then [] else ((List.range 32).filter (fun i => w.getLsbD i)).map (fun i => 32 * m + i))

/-- The source presented to core `c` (R687): the qualifying one with the lowest PRIO, then the lowest ID, or 1023. -/
def icHppi (d : Dev) (c : Nat) : Nat :=
  if gb d Reg.IC_CTL F.IC_CTL_EN then
    (((icPendList d).filter (icQualifies d c)).foldl
      (fun best n =>
        let p := gf d (Reg.IC_SRCCFG n) F.IC_SRCCFG_PRIO
        if p < best.1 then (p, n) else best) (16, 1023)).2
  else 1023

/-- A core that sees a presentation starts its entry sequence (R690, R691). -/
def icPresent (d : Dev) : Dev :=
  if gb d Reg.IC_CTL F.IC_CTL_EN then
    let e := (List.range 8).foldl (fun m c => if icHppi d c != 1023 then m ||| 2 ^ c else m) d.ic.entry
    { d with ic := { d.ic with entry := e } }
  else d

/-- Set source `n` pending (R683) and, in endpoint mode, send MSI-X vector `n - 16` for a completion source whose
PCIE_MSIX_EN bit is 1 (R777). The IC has the sources 0 to 511 (spec 17). -/
def raisePend (n : Nat) (d : Dev) : Dev :=
  if 512 ≤ n then d
  else
    let fresh := !(icPending d n)
    let d := icPresent (bankSet Reg.IC_PEND n true d)
    if fresh && decide (16 ≤ n) && decide (n < 32) && d.part.endpoint &&
        (rd d Reg.PCIE_MSIX_EN).getLsbD (n - 16) then
      emit (.msix (n - 16)) d
    else d

/-- Cancel a power-state entry that has not committed (R718): every asked agent resumes, the engines the PMU drained run again
(R719), and so do the cores that waited for power (R723). -/
def pmuCancel (last agent : Nat) (d : Dev) : Dev :=
  let d := forN 16 (fun k d =>
    if d.pmu.drained.testBit k && gf d (Reg.ENG_STAT k) F.ENG_STAT_STATE == 4 && gb d (Reg.ENG_CTL k) F.ENG_CTL_EN then
      sf (Reg.ENG_STAT k) F.ENG_STAT_STATE (if d.img.running then 2 else 1) d else d) d
  let d := if gf d Reg.CPU_STAT F.CPU_STAT_WFP = 0 then d
    else d |> sf Reg.CPU_STAT F.CPU_STAT_RUN (gf d Reg.CPU_STAT F.CPU_STAT_WFP) |> sf Reg.CPU_STAT F.CPU_STAT_WFP 0
  let d := { d with pmu := { d.pmu with asked := 0, round2 := false, drained := 0, icAcc := false },
                    rings := { d.rings with admStop := false } }
  d |> sf Reg.PMU_STAT F.PMU_STAT_BUSY 0 |> sf Reg.PMU_STAT F.PMU_STAT_PHASE 0
    |> sf Reg.PMU_STAT F.PMU_STAT_LAST last |> sf Reg.PMU_STAT F.PMU_STAT_AGENT agent

/-- Record the wake source in PMU_WAKE_CAUSE (R728). -/
def pmuCause (src : Nat) (d : Dev) : Dev :=
  d |> sf Reg.PMU_WAKE_CAUSE F.PMU_WAKE_CAUSE_VALID 1 |> sf Reg.PMU_WAKE_CAUSE F.PMU_WAKE_CAUSE_SRC src

/-- An enabled wake source sets its PMU_WAKE_PEND bit whatever the state (R727) and cancels an entry that has not
committed (R728). -/
def pmuWakeBit (src : Nat) (d : Dev) : Dev :=
  if (rd d Reg.PMU_WAKE_EN).getLsbD src then
    let d := sf Reg.PMU_WAKE_PEND ⟨src, 1⟩ 1 d
    if gb d Reg.PMU_STAT F.PMU_STAT_BUSY &&
        (gf d Reg.PMU_STAT F.PMU_STAT_PHASE == 1 || gf d Reg.PMU_STAT F.PMU_STAT_PHASE == 2) then
      pmuCancel 2 0 d |> pmuCause src |> raisePend 34
    else d
  else d

/-- Raise interrupt source `n` (R683), with the wake request of R702 and R727 after the IC agent's ACCEPT. -/
def raise (n : Nat) (d : Dev) : Dev :=
  let d := raisePend n d
  if d.pmu.icAcc && icEnabled d n &&
      (gb d (Reg.IC_SRCCFG n) F.IC_SRCCFG_WAKE || (decide (16 ≤ n) && decide (n < 32))) then
    pmuWakeBit 14 d
  else d

/-- Set cause bit `i` of a peripheral block and raise its source when the bit rises in the AND of status and enable
(R794). -/
def blkCause (stat en : Reg) (i src : Nat) (d : Dev) : Dev :=
  let rose := !((rd d stat).getLsbD i) && (rd d en).getLsbD i
  sf stat ⟨i, 1⟩ 1 d |> whenB rose (raise src)

/-! ### Counters and logs -/

/-- Add `n` to a counter that sticks at all-ones; on reaching all-ones set OVF and raise `src` once until the register is
read (R51, R211, R309, R552, R583, R617, R705 …). -/
def cntAdd (r : Reg) (fc fo : Fld) (n src : Nat) (d : Dev) : Dev :=
  let top := 2 ^ fc.len - 1
  let c := min (gf d r fc + n) top
  let d := sf r fc c d
  if c = top ∧ gf d r fo = 0 then sf r fo 1 d |> raise src else d

/-- Add `n` to a 64-bit counter that sticks at all-ones. -/
def cntAdd64 (r : Reg) (n : Nat) (d : Dev) : Dev := wr r (BitVec.ofNat 64 (min ((rd d r).toNat + n) (2 ^ 64 - 1))) d

/-- A log with VALID and OVER (R50): the fields are written only while VALID is 0, a further event sets OVER. -/
def logOnce (r : Reg) (fv fo : Fld) (fill : Dev → Dev) (d : Dev) : Dev :=
  if gb d r fv then sf r fo 1 d else fill (sf r fv 1 d)

/-! ### The local map and memory (R31, R518 to R532) -/

/-- The ranges of the local map (R31). -/
inductive Region where
  | rom | arbSram | mezz | tile (k : Nat) | regs | sync | psec (s : Nat) | scoreWin | calRow (k : Nat)
  | array (k : Nat) | dram | pcieOut | reserved
deriving DecidableEq, Repr

/-- Which range a local address lies in (R31). -/
def region (a : Nat) : Region :=
  if a < 0x10000 then .rom
  else if 0x800000 ≤ a ∧ a < 0x840000 then .arbSram
  else if 0x1000000 ≤ a ∧ a < 0x2000000 then .mezz
  else if 0x4000000 ≤ a ∧ a < 0x8000000 then .tile (a / 0x400000 % 16)
  else if 0x10000000 ≤ a ∧ a < 0x11000000 then .regs
  else if 0x11000000 ≤ a ∧ a < 0x11100000 then .sync
  else if 0x20000000 ≤ a ∧ a < 0x20400000 then .psec 0
  else if 0x20400000 ≤ a ∧ a < 0x20800000 then .psec 1
  else if 0x20800000 ≤ a ∧ a < 0x20900000 then .scoreWin
  else if 0x20900000 ≤ a ∧ a < 0x20910000 then .calRow (a / 0x1000 % 16)
  else if 0x800000000 ≤ a ∧ a < 0x1000000000 then .array (a / 0x80000000 % 16)
  else if 0x1000000000 ≤ a ∧ a < 0x2000000000 then .dram
  else if 0x4000000000 ≤ a ∧ a < 0x8000000000 then .pcieOut
  else .reserved

/-- Base addresses of R31. -/
def dramBase : Nat := 0x1000000000
def arrayBase (k : Nat) : Nat := 0x800000000 + 0x80000000 * k
def tileBase (k : Nat) : Nat := 0x4000000 + 0x400000 * k
def psecBase (s : Nat) : Nat := 0x20000000 + 0x400000 * s
def scoreBase : Nat := 0x20800000
def syncBase : Nat := 0x11000000

/-- Where an address lies within its array window, and the synchronisation object it belongs to. -/
def arrOff (a : Nat) : Nat := a % 0x80000000
def syncIdx (a : Nat) : Nat := a / 16 % 65536

/-- The bytes of parameter sector 62 of S1 at manufacture: an empty password table of version 0 in its first slot (R359, log
entry 6), the rest erased. -/
def pwFactory (o : Nat) : Byte :=
  if 0xFF0 ≤ o ∧ o < 0xFF4 then 0
  else if 0xFFC ≤ o ∧ o < 0x1000 then ((leBytes 4 3938100716).getD (o - 0xFFC) 0)
  else 0xFF

/-- What a byte of memory that nothing has written reads as: the boot ROM and calibration rows hold the part's own
bytes, erased non-volatile cells read 0xFF (log entry 5), every RAM is initialised as zero (R524). -/
def memDefault (a : Nat) : Byte :=
  match region a with
  | .rom => Config.bootRom a
  | .psec 1 => if a / 0x10000 = 0x207E then pwFactory (a % 0x10000) else 0xFF
  | .psec _ => 0xFF
  | .scoreWin => 0xFF
  | .array _ => 0xFF
  | _ => 0

/-- One byte of memory. -/
def byteAt (m : List Host.Cell) (a : Nat) : Byte := mgetD m a (memDefault a)

/-- Store one byte; a byte equal to what an unlisted address reads as is not listed. -/
def byteSet (m : List Host.Cell) (a : Nat) (b : Byte) : List Host.Cell :=
  if b = memDefault a then mdel m a else mput m a b

/-- The canonical form of memory: addresses strictly rising and no cell equal to what an unlisted address reads as. -/
abbrev Memory.wf (m : List Host.Cell) : Prop := Rising m ∧ ∀ c ∈ m, c.2 ≠ memDefault c.1

/-- Store a run of bytes from address `a`. -/
def bytesSet (m : List Host.Cell) (a : Nat) : List Byte → List Host.Cell
  | [] => m
  | b :: bs => bytesSet (byteSet m a b) (a + 1) bs

/-- The `n` bytes from address `a`, as stored. -/
def rawBytes (d : Dev) (a n : Nat) : List Byte := (List.range n).map (fun i => byteAt d.mem (a + i))

/-- Store bytes as they are, without marks or code (array cells, initialisation). -/
def rawStore (a : Nat) (bs : List Byte) (d : Dev) : Dev := { d with mem := bytesSet d.mem a bs }

/-- Return every byte of `[a, a + n)` to what an unlisted address reads as, with no mark and no symbol error (R524, an
erase). -/
def rawClear (a n : Nat) (d : Dev) : Dev :=
  { d with mem := d.mem.filter (fun c => !(decide (a ≤ c.1) && decide (c.1 < a + n))),
           poison := d.poison.filter (fun c => !(decide (a / 32 ≤ c.1) && decide (c.1 < (a + n + 31) / 32))),
           errs := d.errs.filter (fun c => !(decide (a / 32 ≤ c.1) && decide (c.1 < (a + n + 31) / 32))) }

/-- The store ID of a local address (R520). -/
def storeOf (a : Nat) : Option Nat :=
  match region a with
  | .tile k => some k
  | .mezz => some 0x10
  | .arbSram => some 0x11
  | .dram => some 0x14
  | .sync => some 0x15
  | .array k => some (0x20 + k)
  | .psec s => some (0x20 + s)
  | _ => none

/-! #### The Reed-Solomon code of R518 -/

/-- Multiplication in GF(2^8) with polynomial 0x11D (R518). -/
def gfMulAux : Nat → Nat → Nat → Nat → Nat
  | 0, _, _, acc => acc
  | n + 1, a, b, acc =>
    gfMulAux n (if a * 2 ≥ 256 then (a * 2) ^^^ 0x11D else a * 2) (b / 2) (if b % 2 = 1 then acc ^^^ a else acc)

def gfMul (a b : Nat) : Nat := gfMulAux 8 a b 0

/-- α to the power `l` (α = 2). -/
def gfPow : Nat → Nat
  | 0 => 1
  | l + 1 => gfMul (gfPow l) 2

/-- The syndromes of a codeword's symbols, numbered from `l`. -/
def syndromes : Nat → List Nat → Nat × Nat × Nat
  | _, [] => (0, 0, 0)
  | l, c :: cs =>
    let r := syndromes (l + 1) cs
    (c ^^^ r.1, gfMul c (gfPow l) ^^^ r.2.1, gfMul c (gfPow (2 * l)) ^^^ r.2.2)

/-- How a codeword decodes (R518). -/
inductive Dec where
  | clean
  | corrected (pos val : Nat)
  | uncorrectable
deriving DecidableEq, Repr

/-- decode of R518 on the syndromes: one symbol at position 0–34 is corrected. -/
def decodeSyn (s : Nat × Nat × Nat) : Dec :=
  if s = (0, 0, 0) then .clean
  else if s.1 ≠ 0 ∧ s.2.1 ≠ 0 ∧ gfMul s.2.1 s.2.1 = gfMul s.1 s.2.2 then
    match findBelow 35 (fun l => gfMul s.1 (gfPow l) == s.2.1) with
    | some l => .corrected l s.1
    | none => .uncorrectable
  else .uncorrectable

/-- The three check symbols of 32 data bytes: the unique ones that make the syndromes 0. -/
def checkSymbols (data : List Byte) : List Nat :=
  let s := syndromes 3 (data.map BitVec.toNat)
  -- p0 + p1 + p2 = s0, p0 + 2 p1 + 4 p2 = s1, p0 + 4 p1 + 16 p2 = s2 over GF(2^8)
  let u := s.1 ^^^ s.2.1
  let v := s.1 ^^^ s.2.2
  -- 3 p1 + 5 p2 = u, 5 p1 + 17 p2 = v; 3 * 17 + 5 * 5 and their inverse
  let dt := gfMul 3 17 ^^^ gfMul 5 5
  let inv := (findBelow 256 (fun x => gfMul dt x == 1)).getD 0
  let p1 := gfMul inv (gfMul 17 u ^^^ gfMul 5 v)
  let p2 := gfMul inv (gfMul 3 v ^^^ gfMul 5 u)
  [s.1 ^^^ p1 ^^^ p2, p1, p2]

/-- XOR a symbol error pattern into a codeword of 35 symbols (R547). -/
def applyErr (c : List Nat) (e : ErrPat) : List Nat :=
  e.foldl (fun c p => c.set p.1 (c.getD p.1 0 ^^^ p.2)) c

/-- The codeword of a granule's data with its symbol errors. -/
def codeword (data : List Byte) (e : ErrPat) : List Nat := applyErr (checkSymbols data ++ data.map BitVec.toNat) e

/-- decode of R518 on a granule's data and symbol errors: the result and the data as delivered. -/
def granDecode (data : List Byte) (e : ErrPat) : Dec × List Byte :=
  if e = [] then (.clean, data)
  else
    let c := codeword data e
    let r := decodeSyn (syndromes 0 c)
    let c := match r with
      | .corrected l v => c.set l (c.getD l 0 ^^^ v)
      | _ => c
    (r, (c.drop 3).map (BitVec.ofNat 8))

/-! #### Integrity counters and logs -/

/-- What a store holds for itself, at its reset values if nothing has changed it. -/
def intgOf (d : Dev) (st : Nat) : IntgStore := mgetD d.intg.stores st {}

/-- Change what a store holds for itself. -/
def intgUpd (st : Nat) (f : IntgStore → IntgStore) (d : Dev) : Dev :=
  { d with intg := { d.intg with stores := mupd d.intg.stores st {} f } }

/-- Raise INTG_CNT_OVF once when a store's counter has reached all-ones (R552). -/
def intgOvf (st : Nat) (d : Dev) : Dev :=
  let s := intgOf d st
  if (s.ce = 0xFFFFFFFF ∨ s.ue = 0x7FFFFFFF) ∧ s.ovf = false then
    intgUpd st (fun s => { s with ovf := true }) d |> raise 111
  else d

/-- Count and log a corrected granule of a store (R525, R527, R528). -/
def ceLog (st addr sym : Nat) (d : Dev) : Dev :=
  let d := intgUpd st (fun s => { s with ce := min (s.ce + 1) 0xFFFFFFFF }) d |> intgOvf st
  let s := intgOf d st
  let rep := gf d Reg.INTG_CTL F.INTG_CTL_REPEAT
  match s.log.find? (fun p => p.2.addr == addr) with
  | some (i, e) =>
    let h := min (e.hits + 1) 255
    let d := intgUpd st (fun s => { s with log := mput s.log i { e with hits := h, sym := sym } }) d
    if h = rep ∧ e.hits ≠ h then raise 108 d else d
  | none =>
    match findBelow 32 (fun i => !(mhas s.log i)) with
    | some i =>
      let d := intgUpd st (fun s => { s with log := mput s.log i ⟨addr, 1, sym⟩ }) d
      if rep = 1 then raise 108 d else d
    | none =>
      if s.full then d else intgUpd st (fun s => { s with full := true }) d |> raise 107

/-- Write a UE log entry and raise INTG_UE (R529, R530). -/
def ueEntry (st cause addr : Nat) (d : Dev) : Dev :=
  let n := gf d Reg.INTG_UE_SEQ F.INTG_UE_SEQ_SEQ
  let d := { d with intg := { d.intg with ueLog := mput d.intg.ueLog (n % 32) ⟨n, cause, st, addr, fastTime d⟩ } }
  d |> sf Reg.INTG_UE_SEQ F.INTG_UE_SEQ_SEQ (n + 1) |> raise 106

/-- A store decoded a granule as UNCORRECTABLE: count and log it with cause DECODE (R529). -/
def ueDecode (st addr : Nat) (d : Dev) : Dev :=
  intgUpd st (fun s => { s with ue := min (s.ue + 1) 0x7FFFFFFF }) d |> intgOvf st |> ueEntry st 0 addr

/-- A poisoned granule reaches a point of consumption (R539, R540). -/
def consume (cause master batch id addr : Nat) (d : Dev) : Dev :=
  cntAdd Reg.INTG_PC_CNT F.INTG_PC_CNT_COUNT F.INTG_PC_CNT_OVF 1 111 d
    |> logOnce Reg.INTG_PC_STAT F.INTG_PC_STAT_VALID F.INTG_PC_STAT_OVER (fun d =>
        d |> sf Reg.INTG_PC_STAT F.INTG_PC_STAT_CAUSE cause |> sf Reg.INTG_PC_STAT F.INTG_PC_STAT_MASTER master
          |> sf Reg.INTG_PC_INFO F.INTG_PC_INFO_BATCH batch |> sf Reg.INTG_PC_INFO F.INTG_PC_INFO_ID id
          |> sf Reg.INTG_PC_ADDR F.INTG_PC_ADDR_ADDR addr)
    |> raise 109

/-! #### Granule reads and writes -/

/-- Is granule `g` marked poisoned? -/
def poisoned (d : Dev) (g : Nat) : Bool := mhas d.poison g

/-- Mark granule `g`. -/
def markG (g : Nat) (d : Dev) : Dev := { d with poison := mput d.poison g () }

/-- Clear granule `g`'s mark. -/
def unmarkG (g : Nat) (d : Dev) : Dev := { d with poison := mdel d.poison g }

/-- The symbol errors of granule `g`. -/
def errOf (d : Dev) (g : Nat) : ErrPat := mgetD d.errs g []

/-- Set the symbol errors of granule `g`. -/
def errSet (g : Nat) (e : ErrPat) (d : Dev) : Dev :=
  { d with errs := if e = [] then mdel d.errs g else mput d.errs g e }

/-- Is the store one of the array's, which keeps poison as a pattern in the check symbols and never rewrites (R523,
R526)? -/
def isArrayStore (st : Nat) : Bool := decide (0x20 ≤ st) && decide (st < 0x30)

/-- Read granule `g` (local address over 32) of a store: the delivered bytes and its poison, with the counters, logs and
rewrite of R525 to R531. `scrub` reads rewrite whatever CE_WB holds and set the mark of an uncorrectable granule (R544). -/
def readGran (scrub : Bool) (g : Nat) (d : Dev) : (List Byte × Bool) × Dev :=
  let data := rawBytes d (32 * g) 32
  let e := errOf d g
  let st := (storeOf (32 * g)).getD 0x3F
  if poisoned d g then (((granDecode data e).2, true), d)
  else
    match granDecode data e with
    | (.clean, bs) => ((bs, false), d)
    | (.corrected l _, bs) =>
      let d := ceLog st (32 * g) l d
      let d := if (scrub || gb d Reg.INTG_CTL F.INTG_CTL_CE_WB) && !(isArrayStore st) then
          errSet g [] (rawStore (32 * g) bs d) else d
      ((bs, false), d)
    | (.uncorrectable, bs) =>
      let d := ueDecode st (32 * g) d
      let d := if scrub then markG g d else d
      ((bs, true), d)

/-- The flip mask on the first granule written into the armed store (R547, R548). -/
def flipApply (g st : Nat) (d : Dev) : Dev :=
  if gb d Reg.INTG_FLIP F.INTG_FLIP_ARM && gf d Reg.INTG_FLIP F.INTG_FLIP_STORE == st then
    let v0 := gf d Reg.INTG_FLIP F.INTG_FLIP_VAL0
    let v1 := gf d Reg.INTG_FLIP F.INTG_FLIP_VAL1
    let e := (if v0 = 0 then [] else [(gf d Reg.INTG_FLIP F.INTG_FLIP_POS0, v0)]) ++
             (if v1 = 0 then [] else [(gf d Reg.INTG_FLIP F.INTG_FLIP_POS1, v1)])
    let p := gb d Reg.INTG_FLIP F.INTG_FLIP_POISON
    let d := sf Reg.INTG_FLIP F.INTG_FLIP_ARM 0 d
    let d := errSet g e d
    if p then ueEntry st 5 (32 * g) (markG g d) else d
  else d

/-- Write `bs` into granule `g` at byte `o`: a whole granule stores fresh check symbols and clears the mark; a narrower
write is a read-modify-write that keeps the mark, or poisons an uncorrectable granule (R39, R532). `p` writes poisoned. -/
def writeGran (g o : Nat) (bs : List Byte) (p : Bool) (d : Dev) : Dev :=
  let st := (storeOf (32 * g)).getD 0x3F
  let d :=
    if bs.length = 32 then
      let d := errSet g [] (rawStore (32 * g) bs d)
      if p then markG g d else unmarkG g d
    else
      let r := readGran false g d
      let was := r.1.2
      let d := rawStore (32 * g) r.1.1 r.2
      let d := errSet g [] (rawStore (32 * g + o) bs d)
      if was || p then markG g d else d
  flipApply g st d

/-- Granules of `[a, a + n)`. -/
def granRange (a n : Nat) : List Nat :=
  if n = 0 then [] else (List.range ((a + n - 1) / 32 + 1 - a / 32)).map (fun i => a / 32 + i)

/-- Is granule `g` poisoned, or does it decode as uncorrectable? -/
def badGran (d : Dev) (g : Nat) : Bool :=
  poisoned d g || (granDecode (rawBytes d (32 * g) 32) (errOf d g)).1 == .uncorrectable

/-- Does a read of 32 bytes at a local address meet a poisoned or uncorrectable granule? -/
def granBad (d : Dev) (a : Nat) : Bool := (granRange a 32).any (badGran d)

/-- The local address of a fabric address that this device serves, if it does (R23 to R26). -/
def localOf (d : Dev) (fa : Nat) : Option Nat :=
  let la := fa % 2 ^ 40
  if fa / 2 ^ 40 = 0 then some la
  else if fa / 2 ^ 52 % 2 = 1 ∧ fa / 2 ^ 40 % 4096 = gf d Reg.SYS_NODE F.SYS_NODE_DEV_ID then some la
  else none

/-- The fabric address of the first poisoned granule of a read of `n` bytes at `fa` (R540); the read's first granule where none
stands in this device. -/
def poisonAt (d : Dev) (fa n : Nat) : Nat :=
  let first := fa / 32 * 32
  match localOf d fa with
  | none => first
  | some a =>
    match (granRange a n).find? (badGran d) with
    | some g => first + (32 * g - a / 32 * 32)
    | none => first

/-- Poison met by a read of `n` bytes at `fa` is consumed. -/
def consumeRead (cause master fa n : Nat) (d : Dev) : Dev := consume cause master 0 0 (poisonAt d fa n) d

/-- Read `n` bytes at a local address through the granule code: bytes, poison of any granule, state. -/
def readMem (a n : Nat) (d : Dev) : (List Byte × Bool) × Dev :=
  let r := (granRange a n).foldl
    (fun acc g =>
      let q := readGran false g acc.2
      ((acc.1.1 ++ q.1.1, acc.1.2 || q.1.2), q.2)) (([], false), d)
  (((r.1.1.drop (a % 32)).take n, r.1.2), r.2)

/-- Write bytes at a local address through the granule code, poisoned or not. -/
def writeMem (a : Nat) (bs : List Byte) (p : Bool) (d : Dev) : Dev :=
  (granRange a bs.length).foldl
    (fun d g =>
      let lo := max a (32 * g)
      let hi := min (a + bs.length) (32 * g + 32)
      writeGran g (lo - 32 * g) ((bs.drop (lo - a)).take (hi - lo)) p d) d

/-! #### Access checks of the device's own masters (R31 to R47) -/

/-- Bus error causes (R45). -/
def causeUnmapped : Nat := 1
def causeDomainOff : Nat := 2
def causeTimeout : Nat := 3
def causeAlign : Nat := 4
def causeBeyondTop : Nat := 5
def causeNoRoute : Nat := 6
def causeRemote : Nat := 7
def causeReadOnly : Nat := 8

/-- Is domain bit `i` of PMU_DOM_STAT on? -/
def domOn (d : Dev) (i : Nat) : Bool := (rd d Reg.PMU_DOM_STAT).getLsbD i

/-- Is domain bit `i` being switched on (R42)? -/
def rising (d : Dev) (i : Nat) : Bool := d.boot.rising.testBit i

/-- The agents of R714 that answer for domain bit `i`. -/
def domAgent (i : Nat) : Option Nat :=
  if i = 3 then some 39 else if i = 4 then some 44
  else if 5 ≤ i ∧ i < 9 then some (35 + i)
  else if 16 ≤ i ∧ i < 48 then some (i - 16) else none

/-- Has the PMU asked agent `a` in the entry that runs (R715)? -/
def agentAsked (d : Dev) (a : Nat) : Bool := gb d Reg.PMU_STAT F.PMU_STAT_BUSY && d.pmu.asked.testBit a

/-- Has agent `a` answered ACCEPT in the entry that runs? -/
def agentAcc (d : Dev) (a : Nat) : Bool := agentAsked d a && (rd d Reg.PMU_AGENT_ACC).getLsbD a

/-- Does an access find domain bit `i` on: not off, and its agent has not accepted a power-down (R41, R43)? The engines' agents
accept IDLE too, which turns no domain off (R713). -/
def domServes (d : Dev) (i : Nat) : Bool :=
  domOn d i && !(match domAgent i with
    | some a => agentAcc d a && decide (2 ≤ gf d Reg.PMU_STAT F.PMU_STAT_TARGET)
    | none => false)

/-- In RUN with no entry under way: engines fire and batches are admitted (R708, R716). -/
def pmuRun (d : Dev) : Bool := gf d Reg.PMU_STAT F.PMU_STAT_STATE == 0 && !(gb d Reg.PMU_STAT F.PMU_STAT_BUSY)

/-- The domain bit of PMU_DOM_STAT that serves a local address; of the ENG registers only the counters lie in PD_Ek (R165, R166),
and TDM_VAD and GPIO_WAKE_POL lie in PD_AON (R796). -/
def domOf (a : Nat) : Nat :=
  match region a with
  | .tile k => 16 + k
  | .array k => 32 + k
  | .psec s => 32 + s
  | .scoreWin => 33
  | .calRow k => 32 + k
  | .dram => 3
  | .pcieOut => 4
  | .regs =>
    let b := a / 0x10000 % 0x100
    if b = 0x01 ∨ b = 0x02 then 0
    else if b = 0x0A then 3
    else if 0x10 ≤ b ∧ b < 0x20 ∧ 0x40 ≤ a % 0x10000 ∧ a % 0x10000 < 0x70 then 16 + (b - 0x10)
    else if a = Reg.TDM_VAD.addr ∨ a = Reg.GPIO_WAKE_POL.addr then 0
    else if 0x50 ≤ b ∧ b < 0x5A then 4
    else 1
  | _ => 1

/-- Main blocks of each stack (R1). -/
def mainBlocks (d : Dev) : Nat := if d.part.order = .bx1616fc then 256 else 512

/-- SYS_DRAM_TOP.TOP, the DRAM data bytes (R33). -/
def dramTop (d : Dev) : Nat := gf d Reg.SYS_DRAM_TOP F.SYS_DRAM_TOP_TOP

/-- The bus error cause of the byte at local address `a`, if any (R31, R41, R45, R47): with SYS_DRAM_TOP.TOP 0 every DRAM address is
beyond the top, whatever PD_MEM does (R54). -/
def byteCause (d : Dev) (a : Nat) (write : Bool) : Option Nat :=
  match region a with
  | .reserved => some causeUnmapped
  | .pcieOut => if d.part.endpoint then some causeUnmapped else if domServes d 4 then none else some causeDomainOff
  | .dram =>
    if dramTop d = 0 then some causeBeyondTop
    else if !(domServes d 3) then some causeDomainOff
    else if a % 2 ^ 36 ≥ dramTop d then some causeBeyondTop else none
  | .array k =>
    if !(domServes d (32 + k)) then some causeDomainOff
    else if arrOff a / 0x400000 ≥ mainBlocks d then some causeBeyondTop else none
  | .rom => if write then some causeReadOnly else none
  | .scoreWin => if write then some causeReadOnly else if domServes d 33 then none else some causeDomainOff
  | .calRow k => if write then some causeReadOnly else if domServes d (32 + k) then none else some causeDomainOff
  | _ => if domServes d (domOf a) then none else some causeDomainOff

/-- The bus error cause of a local access of `n` bytes at `a`, if any: that of its first byte, else that of its last; the widths that
registers and synchronisation objects take are checked where these are decoded. -/
def accessCause (d : Dev) (a n : Nat) (write : Bool) : Option Nat :=
  match byteCause d a write with
  | some c => some c
  | none => byteCause d (a + n - 1) write

/-- Does an access wait for its block's domain, which is being switched on (R42)? -/
def accessWaits (d : Dev) (a n : Nat) (write : Bool) : Bool :=
  accessCause d a n write == some causeDomainOff && rising d (domOf a)

/-- The target block of a local address, for the order of R36: a register block, a stack, or a memory by its range. -/
def blockOf (a : Nat) : Nat :=
  match region a with
  | .regs => a / 65536
  | .array k | .calRow k => 2 ^ 32 + k
  | .psec k => 2 ^ 32 + k
  | .scoreWin => 2 ^ 32 + 1
  | .tile k => 2 ^ 33 + k
  | .rom => 2 ^ 34
  | .arbSram => 2 ^ 34 + 1
  | .mezz => 2 ^ 34 + 2
  | .sync => 2 ^ 34 + 3
  | .dram => 2 ^ 34 + 4
  | .pcieOut => 2 ^ 34 + 5
  | .reserved => 2 ^ 34 + 6

/-- Log and count a bus error (R44, R50, R51). -/
def busError (cause master : Nat) (write : Bool) (addr : Nat) (d : Dev) : Dev :=
  cntAdd Reg.SYS_BERR_CNT F.SYS_BERR_CNT_COUNT F.SYS_BERR_CNT_OVF 1 80 d
    |> logOnce Reg.SYS_BERR_STAT F.SYS_BERR_STAT_VALID F.SYS_BERR_STAT_OVER (fun d =>
        d |> sf Reg.SYS_BERR_STAT F.SYS_BERR_STAT_CAUSE cause |> sf Reg.SYS_BERR_STAT F.SYS_BERR_STAT_MASTER master
          |> sf Reg.SYS_BERR_STAT F.SYS_BERR_STAT_WRITE (bit write)
          |> sf Reg.SYS_BERR_ADDR F.SYS_BERR_ADDR_ADDR addr)

end Sys2Proof.Machine
end

