-- ==== Sys2Proof/Machine/Score.lean ====
section
/-! DEFINITION. The scoresheet writer's queue and open page (spec 14, R574 to R578), and powered time (R571). -/

namespace Sys2Proof.Machine

/-! ### Scoresheet records (R574 to R577) -/

/-- Records queued or in the open page. -/
def scoreQueued (d : Dev) : Nat := d.score.queue.length + d.score.page.length

/-- Lay out a record as 64 bytes with its check symbols (R574). -/
def scoreBytes (seq boot : Nat) (r : ScoreRec) : List Byte :=
  let g0 := leBytes 4 seq ++ leBytes 2 r.event ++ leBytes 2 r.source ++ leBytes 8 r.aon ++
    leBytes 8 (r.args.getD 0 0) ++ leBytes 8 (r.args.getD 1 0)
  let g1 := leBytes 8 (r.args.getD 2 0) ++ leBytes 8 (r.args.getD 3 0) ++ leBytes 4 boot ++ leBytes 2 r.flags ++
    leBytes 4 0
  let z : List Byte := List.replicate 6 0
  g0 ++ g1 ++ (checkSymbols g0).map (BitVec.ofNat 8) ++ (checkSymbols (g1 ++ z)).map (BitVec.ofNat 8)

/-- Start programming the open page if it holds a record and no page is being programmed; ordinary records enter the
last 2 pages of erased space only after the erase of the next sector has completed (R577, R578). -/
def scoreProgram (final : Bool) (d : Dev) : Dev :=
  let s := d.score
  let reserve := s.sector ≠ 0 ∧ s.pageIdx ≥ 6 ∧ s.erasing.isSome
  if s.page = [] ∨ s.prog.isSome ∨ (reserve ∧ final = false) then d
  else
    let sec := if s.pageIdx = 7 then (if s.sector = 63 then 1 else s.sector + 1) else s.sector
    let pg := if s.pageIdx = 7 then 0 else s.pageIdx + 1
    { d with score := { s with prog := some ⟨s.sector, s.pageIdx, s.page⟩, page := [], sector := sec, pageIdx := pg } }

/-- Move queued records into the open page while it has free slots and no scan runs; a full page is programmed (R576,
R577). `fuel` bounds the records moved. -/
def scoreFill : Nat → Dev → Dev
  | 0, d => d
  | fuel + 1, d =>
    if gb d Reg.ARB_SCORE_STAT F.ARB_SCORE_STAT_SCANNING then d
    else
      match d.score.queue with
      | [] => d
      | r :: rest =>
        if d.score.page.length ≥ 32 then d
        else
          let n := gf d Reg.ARB_SCORE_SEQ F.ARB_SCORE_SEQ_NEXT
          let r := if d.score.sector = 0 then { r with flags := r.flags ||| 2 } else r
          let bs := scoreBytes n d.boots r
          let d := { d with score := { d.score with queue := rest, page := d.score.page ++ [bs] } }
          let d := sf Reg.ARB_SCORE_SEQ F.ARB_SCORE_SEQ_NEXT (n + 1) d
          let d := if d.score.page.length = 32 then scoreProgram false d else d
          scoreFill fuel d

/-- A record arrives at the writer's queue of 64, or is dropped and counted; a QUEUE_LOST record precedes the next one
accepted after drops (R576). -/
def scoreQueue (r : ScoreRec) (d : Dev) : Dev :=
  if d.score.closed then d
  else if scoreQueued d ≥ 64 ∨ (d.score.dropped > 0 ∧ scoreQueued d ≥ 63) then
    { d with score := { d.score with dropped := d.score.dropped + 1 } }
      |> cntAdd Reg.ARB_SCORE_LOST F.ARB_SCORE_LOST_COUNT F.ARB_SCORE_LOST_OVF 1 105
  else
    let s := d.score
    let lost : List ScoreRec :=
      if s.dropped > 0 then [⟨0x0070, 0, aonTime d, [s.dropped, 0, 0, 0], 0⟩] else []
    let r := if s.dropped > 0 then { r with flags := r.flags ||| 4 } else r
    scoreFill 2 { d with score := { s with queue := s.queue ++ lost ++ [r], dropped := 0 } }

/-- The device queues a record of event `ev` from unit `kind`, `index` (R574, R575). -/
def scoreEvent (ev kind index : Nat) (args : List Nat) (d : Dev) : Dev :=
  scoreQueue ⟨ev, kind * 256 + index, aonTime d, args, 0⟩ d

/-! ### Powered time (R571) -/

/-- CLK_AON cycles during which PD_AON had supply. -/
def poweredTime (d : Dev) : Nat := d.arb.powered + (aonTime d - d.arb.savedAt)

/-- Note `n` events that R553 counts, at their key in the health table; the last 16 are kept. -/
def stackEvent (key n : Nat) (d : Dev) : Dev :=
  let l := mgetD d.arb.opFails key [] ++ List.replicate (min n 16) (poweredTime d)
  if n = 0 then d else { d with arb := { d.arb with opFails := mput d.arb.opFails key (l.drop (l.length - 16)) } }

end Sys2Proof.Machine
end

