-- ==== Sys2Proof/Machine/Array.lean ====
section
/-! DEFINITION. The weight array: window geometry, senses and window reads, command sequences, programs and erases with
their grants, suspends and outcomes, wear and password protection (spec 07 and 08). -/

namespace Sys2Proof.Machine

/-! ### Geometry (R268 to R273) -/

/-- What stack `k`'s controller holds. -/
def aryOf (d : Dev) (k : Nat) : Ary := mgetD d.arys.st k {}

/-- Change what stack `k`'s controller holds. -/
def aryUpd (k : Nat) (f : Ary → Ary) (d : Dev) : Dev :=
  { d with arys := { d.arys with st := mupd d.arys.st k {} f } }

/-- Quads of a stack, Q of R269. -/
def aryQ (d : Dev) : Nat := mainBlocks d / 4

/-- The page of window offset `a`, as block × 256 + page (R272, R273). -/
def pageId (d : Dev) (a : Nat) : Nat :=
  (a / 2 ^ 19 % 4 * aryQ d + a / 2 ^ 24 % 128) * 256 + 2 * (4 * (a / 2 ^ 14 % 32) + a / 2 ^ 22 % 4) + a / 2 ^ 21 % 2

/-- The plane that holds a page (R270). Pages of the parameter sectors, numbered from 2^20, and of the scoresheet region, from 2^21, lie in
arrays of their own, planes 128 and 160: the parameter array is plane group 4 (R280, R281). -/
def pagePlane (d : Dev) (p : Nat) : Nat :=
  if 2 ^ 21 ≤ p then 160 else if 2 ^ 20 ≤ p then 128 else 32 * (p / 256 / aryQ d) + p % 256 / 8

/-- The 2 KiB page of a parameter-sector or scoresheet address (R279 to R282). -/
def psecPage (a : Nat) : Nat :=
  match region a with
  | .scoreWin => 2 ^ 21 + (a - scoreBase) / 2048
  | _ => 2 ^ 20 + a % 0x400000 / 2048

/-- The window offset of a page's first byte (R272). -/
def pageOff (d : Dev) (p : Nat) : Nat :=
  p / 256 % aryQ d * 2 ^ 24 + p % 256 / 2 % 4 * 2 ^ 22 + p % 2 * 2 ^ 21 + pagePlane d p * 2 ^ 14

/-- The window offset of unit `u` = 2 × WL + UPPER of block `b` (R311). -/
def unitOff (d : Dev) (b u : Nat) : Nat :=
  b % aryQ d * 2 ^ 24 + u / 2 * 2 ^ 22 + u % 2 * 2 ^ 21 + b / aryQ d * 2 ^ 19

/-- Plane group of a target: the block's, or 4 for the parameter array (R269, R323). -/
def aryGroup (d : Dev) (sector : Bool) (index : Nat) : Nat := if sector then 4 else index / aryQ d

/-- The wear entry of a target (R351). -/
def wearKey (sector : Bool) (index : Nat) : Nat := if sector then 1024 + index else index
def wearOf (d : Dev) (k : Nat) (sector : Bool) (index : Nat) : Wear := mgetD (aryOf d k).wear (wearKey sector index) {}
def wearUpd (k : Nat) (sector : Bool) (index : Nat) (f : Wear → Wear) (d : Dev) : Dev :=
  aryUpd k (fun a => { a with wear := mupd a.wear (wearKey sector index) {} f }) d

/-- Is main block `b` of stack `k` unreadable (R274, R566)? -/
def unreadable (d : Dev) (k b : Nat) : Bool :=
  gb d (Reg.ARY_GEOM k) F.ARY_GEOM_CAL_BAD || (aryOf d k).bad.contains b || (wearOf d k false b).retired ||
  mgetD d.arb.stackSt k 0 == 2 || (aryOf d k).ops.any (fun p => p.1 != 4 && p.2.index == b)

/-! ### Events and views -/

/-- A wear event in ARY_WEAR_LOG and at its source (R352): 1 WEAR_NEAR, 2 ERASE_SLOW, 3 OP_FAIL. -/
def wearEvent (k ev : Nat) (sector : Bool) (index page : Nat) (d : Dev) : Dev :=
  logOnce (Reg.ARY_WEAR_LOG k) F.ARY_WEAR_LOG_VALID F.ARY_WEAR_LOG_OVER (fun d =>
      d |> sf (Reg.ARY_WEAR_LOG k) F.ARY_WEAR_LOG_EVENT ev
        |> sf (Reg.ARY_WEAR_LOG k) F.ARY_WEAR_LOG_COUNT (wearOf d k sector index).count
        |> sf (Reg.ARY_WEAR_LOG k) F.ARY_WEAR_LOG_PSEC (bit sector)
        |> sf (Reg.ARY_WEAR_LOG k) F.ARY_WEAR_LOG_INDEX index
        |> sf (Reg.ARY_WEAR_LOG k) F.ARY_WEAR_LOG_PAGE page) d
    |> raise (srcAry (if ev = 1 then 4 else if ev = 2 then 3 else 1) k)
    |> scoreEvent 0x0024 2 k [ev, index] |> stackEvent k (if ev = 3 then 1 else 0)

/-- An operation runs: it neither waits for a grant nor is suspended. -/
def AryOp.runs (o : AryOp) : Bool := !o.wait && !o.byCmd && !o.bySlot

/-- Bits of a plane-group mask over the operations that satisfy a test. -/
def opMask (a : Ary) (f : AryOp → Bool) : Nat := a.ops.foldl (fun m p => if f p.2 then m + 2 ^ p.1 else m) 0

/-- ARY_STAT as it reads: the open buffer and the plane groups' states beside the stored fields. -/
def aryStatView (d : Dev) (k : Nat) : BitVec 64 :=
  let a := aryOf d k
  let v := rd d (Reg.ARY_STAT k)
  let v := fldPut v F.ARY_STAT_PB_OPEN (bit a.pb.isSome)
  let v := fldPut v F.ARY_STAT_PB_GROUP (match a.pb with | some b => aryGroup d b.sector b.index | none => 0)
  let v := fldPut v F.ARY_STAT_WAIT_PWR (opMask a (fun o => o.wait))
  let v := fldPut v F.ARY_STAT_SUSP (opMask a (fun o => o.byCmd || o.bySlot))
  fldPut v F.ARY_STAT_BUSY (opMask a AryOp.runs)

/-- ARY_OPSTAT of a plane group as it reads. -/
def aryOpstatView (d : Dev) (k g : Nat) : BitVec 64 :=
  let v := rd d (Reg.ARY_OPSTAT k g)
  match mget (aryOf d k).ops g with
  | none => v
  | some o =>
    let v := fldPut v F.ARY_OPSTAT_BUSY (bit o.runs)
    let v := fldPut v F.ARY_OPSTAT_SUSP (bit (o.byCmd || o.bySlot))
    fldPut v F.ARY_OPSTAT_WAIT_PWR (bit o.wait)

/-! ### Senses and window reads (R283 to R298) -/

/-- Deliver a read to its master; poison is consumed by a core, the arbiter and PCIe (R539). -/
def busDeliver (master fa : Nat) (bs : List Byte) (p : Bool) (d : Dev) : Dev :=
  if p && decide (master < 8) then emit (.poisonAbort master) d |> consumeRead 1 master fa bs.length
  else if p && master == 8 then emit (.poisonAbort 8) d |> consumeRead 2 8 fa bs.length
  else if p && (master == 0x10 || master == 0x11) then emit (.pcie fa false bs true) d |> consumeRead 3 master fa bs.length
  else emit (.busRead master bs) d

/-- Deliver a bus error to its master, logged and counted (R44, R50): a write is discarded, a read of `n` bytes returns all-ones. -/
def busFail (cause master : Nat) (write : Bool) (fa n : Nat) (d : Dev) : Dev :=
  busError cause master write fa d |> emit (.busError master cause (if write then [] else List.replicate n 0xFF))

/-- Does a plane group serve senses: no operation runs in it (R294 to R298)? -/
def groupFree (a : Ary) (g : Nat) : Bool :=
  match mget a.ops g with
  | some o => !o.runs
  | none => true

/-- The next sense of plane `p` (R284, R285): a window sense that waited behind two, else home, cross, window. -/
def nextSense (d : Dev) (a : Ary) (p : Nat) : Option Sense :=
  let l := a.want.filter (fun s => pagePlane d s.page == p)
  match l.find? (fun s => s.ctx == 2 && decide (s.behind ≥ 2)) with
  | some s => some s
  | none =>
    match l.find? (fun s => s.ctx == 0) with
    | some s => some s
    | none =>
      match l.find? (fun s => s.ctx == 1) with
      | some s => some s
      | none => l.head?

/-- Start the sense of plane `p` if the plane can. -/
def senseStart (k p : Nat) (d : Dev) : Dev :=
  let a := aryOf d k
  if mhas a.cur p || mhas a.dreg p || !(groupFree a (p / 32)) then d
  else
    match nextSense d a p with
    | none => d
    | some s =>
      aryUpd k (fun a =>
        { a with
          cur := mput a.cur p s,
          want := (a.want.filter (fun t => t != s)).map (fun t =>
            if t.ctx == 2 && s.ctx != 2 && pagePlane d t.page == p then { t with behind := t.behind + 1 } else t) }) d

/-- Start every sense that can start. -/
def sensesStart (k : Nat) (d : Dev) : Dev :=
  ((aryOf d k).want.map (fun s => pagePlane d s.page)).foldl (fun d p => senseStart k p d) d

/-- The register that holds a page, if a plane has it. -/
def pageHeld (d : Dev) (k page : Nat) : Option PageReg :=
  let p := pagePlane d page
  let a := aryOf d k
  match (mget a.creg p).filter (fun r => r.page == page) with
  | some r => some r
  | none => (mget a.dreg p).filter (fun r => r.page == page)

/-- A context wants a page: queue its sense unless it is held, sensing or wanted. -/
def senseWant (k ctx page : Nat) (d : Dev) : Dev :=
  let a := aryOf d k
  let has := (pageHeld d k page).isSome || a.cur.any (fun c => c.2.page == page && c.2.ctx == ctx) ||
    a.want.any (fun s => s.page == page && s.ctx == ctx)
  if has then d else aryUpd k (fun a => { a with want := a.want ++ [⟨ctx, page, 0⟩] }) d |> senseStart k (pagePlane d page)

/-- The port that owns a page has drained its register: a page in the data register moves across (R283). -/
def regDrain (k page : Nat) (d : Dev) : Dev :=
  let p := pagePlane d page
  let d := aryUpd k (fun a =>
    if (mget a.creg p).any (fun r => r.page == page) then
      match mget a.dreg p, mget a.creg p with
      | some q, _ => { a with creg := mput a.creg p q, dreg := mdel a.dreg p }
      | none, some r => { a with creg := mput a.creg p { r with full := false } }
      | none, none => a
    else if (mget a.dreg p).any (fun r => r.page == page) then { a with dreg := mdel a.dreg p }
    else a) d
  senseStart k p d

/-! ### Continuous reads (R286 to R289) -/

/-- Pages that a continuous read may sense now: from the one being transferred to two stripes beyond it, within its length, in window
order. -/
def contPages (d : Dev) (k : Nat) (c : ContRead) : List Nat :=
  ((List.range (min (c.first + c.len) (c.at_ + 257) - c.at_)).map (fun i => pageId d (2 ^ 14 * (c.at_ + i)))).filter
    (fun p => !(unreadable d k (p / 256)))

/-- Sense ahead (R286). -/
def contAhead (k ctx : Nat) (d : Dev) : Dev :=
  match mget (aryOf d k).cont ctx with
  | some c => forEach (contPages d k c) (senseWant k ctx) d
  | none => d

/-- A continuous read stops: the senses it has started and not transferred are discarded (R287), and so are the pages that wait in its
registers. -/
def contStop (k ctx : Nat) (d : Dev) : Dev :=
  aryUpd k (fun a =>
    { a with
      cont := mdel a.cont ctx, want := a.want.filter (fun s => s.ctx != ctx), cur := a.cur.filter (fun s => s.2.ctx != ctx),
      dreg := a.dreg.filter (fun r => r.2.ctx != ctx),
      creg := mmap a.creg (fun _ r => if r.ctx = ctx then { r with full := false } else r) }) d
    |> sensesStart k

/-- The streamer of an engine names `n` pages from window page `w` for a stage: its read goes on where they continue it, else another
starts in its place (R286, R287). -/
def contRead (k ctx eng key w n : Nat) (d : Dev) : Dev :=
  let go := fun (c : ContRead) (d : Dev) => contAhead k ctx (aryUpd k (fun a => { a with cont := mput a.cont ctx c }) d)
  let new : ContRead := ⟨eng, key, w, n, w⟩
  match mget (aryOf d k).cont ctx with
  | some c =>
    if c.eng = eng ∧ c.key = key ∧ c.at_ ≤ w ∧ w ≤ c.first + c.len then go { c with len := max c.len (w + n - c.first) } d
    else go new (contStop k ctx d)
  | none => go new d

/-- A page of a continuous read has been transferred; after its last page the read stops. -/
def contNext (k ctx page : Nat) (d : Dev) : Dev :=
  let d := regDrain k page d
  match mget (aryOf d k).cont ctx with
  | none => d
  | some c =>
    let w := pageOff d page / 2 ^ 14
    if w < c.at_ then d
    else if c.first + c.len ≤ w + 1 then contStop k ctx d
    else contAhead k ctx (aryUpd k (fun a => { a with cont := mput a.cont ctx { c with at_ := w + 1 } }) d)

/-- Read `n` bytes at a local address through a page register: the register's raw errors join those of the cells. -/
def readReg (r : PageReg) (addr n : Nat) (d : Dev) : (List Byte × Bool) × Dev :=
  let d1 := forEach r.raw (fun e d => errSet e.1 (errOf d e.1 ++ e.2) d) d
  let q := readMem addr n d1
  (q.1, { q.2 with errs := d.errs })

/-- The code of the order code (R303, R333). -/
def orderCode (d : Dev) : Nat := match d.part.order with | .bx1632fc => 0 | .bx1632fi => 1 | .bx1616fc => 2

/-- Stack `k`'s factory-bad main blocks, ascending, at most 8 (R2, R303): which blocks is the part's. -/
def calBad (d : Dev) (k : Nat) : List Nat :=
  let l := (List.range 8).map (fun i => leNat [Config.calRow (0x1000 * k + 0x0C + 2 * i), Config.calRow (0x1000 * k + 0x0D + 2 * i)])
  (List.range (mainBlocks d)).filter (fun b => l.contains b)

/-- Stack `k`'s calibration row (R303): order code, blocks and regions as R1 to R3 say, the measured values the part's own. A row that
is damaged shows it by its CRC (R304). -/
def calRowBytes (d : Dev) (k : Nat) : List Byte :=
  let own := fun (o n : Nat) => (List.range n).map (fun i => Config.calRow (0x1000 * k + o + i))
  let bad := calBad d k
  let body := leBytes 4 0x5EC7CA1B ++ leBytes 2 0x0100 ++ leBytes 1 k ++ leBytes 1 (orderCode d) ++ leBytes 2 (mainBlocks d) ++
    leBytes 1 bad.length ++ leBytes 1 (bit (decide (k < 2)) + 2 * bit (decide (k = 1))) ++
    padTo 16 0xFF (bad.flatMap (leBytes 2)) ++ padTo 4 0 [] ++ own 0x20 0x60
  let body := padTo 0xFFC 0 body
  body ++ leBytes 4 (crc32 body ^^^ leNat (own 0xFFC 4))

/-- The identity window (R773), its order code and die revision as R1 and SYS_ID give them. -/
def identityBytes (d : Dev) : List Byte :=
  let own := fun (o n : Nat) => (List.range n).map (fun i => Config.identity (o + i))
  let b := leBytes 4 0xB1C310E0 ++ leBytes 2 0x0100 ++ leBytes 1 (orderCode d) ++ leBytes 1 1 ++ own 8 20 ++ leBytes 4 0 ++
    own 0x20 133 ++ List.replicate 27 0 ++ leBytes 1 (bit (leNat (own 0xC0 1) % 2 == 1)) ++ List.replicate 63 0 ++ own 0x100 132 ++
    List.replicate 120 0
  b ++ leBytes 4 (crc32 b ^^^ leNat (own 0x1FC 4))

/-- The identification table (R333). -/
def identBytes (d : Dev) (k : Nat) : List Byte :=
  let a := aryOf d k
  let n := mainBlocks d
  let psec := gb d (Reg.ARY_GEOM k) F.ARY_GEOM_PSEC
  let ret := countBelow n (fun b => (wearOf d k false b).retired)
  let out := countBelow n (fun b => (wearOf d k false b).retired || a.bad.contains b)
  let ent := fun (s : Bool) (i rated : Nat) =>
    let w := wearOf d k s i
    leBytes 8 (2 ^ 32 * w.eraseUs + bit (!s && a.bad.contains i) * 2 ^ 31 + bit w.retired * 2 ^ 30 + bit w.slow * 2 ^ 29 +
      bit (decide (w.count * 10 ≥ rated * 9)) * 2 ^ 28 + bit w.eOpen * 2 ^ 27 + bit w.failed * 2 ^ 26 + w.count)
  let head := leBytes 2 0x4B51 ++ leBytes 2 (if n = 256 then 0x1616 else 0x1632) ++
    leBytes 1 (orderCode d) ++ leBytes 1 k ++
    leBytes 2 n ++ leBytes 2 ret ++ leBytes 2 (n - out) ++ leBytes 4 3000 ++ leBytes 4 (if psec then 100000 else 0)
  padTo 0x1000 0 head ++ padTo 0x1000 0 ((List.range n).flatMap (fun b => ent false b 3000)) ++
    padTo 0xE000 0 (if psec then (List.range 64).flatMap (fun b => ent true b 100000) else [])

/-- In continuous-read mode the window context senses the stripe beyond an offset (R335): the next 128 pages in window order. -/
def winAhead (k o : Nat) (d : Dev) : Dev :=
  forN 128 (fun i d =>
    let q := 2 ^ 14 * (o / 2 ^ 14 + i + 1)
    let page := pageId d q
    if q < 0x400000 * mainBlocks d ∧ unreadable d k (page / 256) = false then senseWant k 2 page d else d) d

/-- A window read of `n` bytes at offset `o` of stack `k` by a fabric master whose access has passed the bus checks (R275,
R290, R332, R333, R335). -/
def winRead (master k o n : Nat) (d : Dev) : Dev :=
  let fa := arrayBase k + o
  let mode := gf d (Reg.ARY_STAT k) F.ARY_STAT_MODE
  if mode = 1 then
    let v := (aryStatView d k).toNat
    sf (Reg.ARY_STAT k) F.ARY_STAT_MODE 0 d |> busDeliver master fa (leBytes n (v % 2 ^ 32)) false
  else if mode = 2 ∧ o < 0x10000 then busDeliver master fa (((identBytes d k).drop o).take n) false d
  else
    let page := pageId d o
    if unreadable d k (page / 256) then
      sf (Reg.ARY_RD_STAT k) F.ARY_RD_STAT_UNREADABLE_HIT 1 d |> busDeliver master fa (List.replicate n 0xFF) false
    else
      let d := match pageHeld d k page with
        | some r => let q := readReg r fa n d; busDeliver master fa q.1.1 q.1.2 q.2
        | none => aryUpd k (fun a => { a with reads := a.reads ++ [⟨master, fa, page, n⟩] }) d |> senseWant k 2 page
      if mode = 3 then winAhead k o d else d

/-- A read of the parameter sectors or the scoresheet region by a fabric master (R279 to R282): from a page register, or through a sense
that waits while the parameter array erases or programs. -/
def psecRead (master k a n : Nat) (d : Dev) : Dev :=
  let page := psecPage a
  match pageHeld d k page with
  | some r =>
    let q := readReg r a n d
    busDeliver master a q.1.1 q.1.2 q.2
  | none => aryUpd k (fun x => { x with reads := x.reads ++ [⟨master, a, page, n⟩] }) d |> senseWant k 2 page

/-- A window read timed out (R293): the master's oldest waiting read is cancelled. -/
def winTimeout (master k : Nat) (d : Dev) : Dev :=
  match (aryOf d k).reads.find? (fun r => r.master == master) with
  | none => d
  | some r =>
    let d := aryUpd k (fun a =>
      let rest := a.reads.erase r
      let still := rest.any (fun q => q.page == r.page)
      { a with reads := rest, want := if still then a.want else a.want.filter (fun s => s.ctx != 2 || s.page != r.page) }) d
    sf (Reg.ARY_RD_STAT k) F.ARY_RD_STAT_TIMED_OUT 1 d |> stackEvent (32 + k) 1 |> busFail causeTimeout master false r.addr r.len

/-- One codeword's outcome over the senses of its page, from the first: the sense in which it decoded and its corrected
bits. -/
def cwDecode (i : Nat) : List (Option Nat) → Option (Nat × Nat)
  | [] => none
  | some b :: _ => some (i, b)
  | none :: rest => cwDecode (i + 1) rest

/-- Add the bits corrected in a codeword (R301, R309). -/
def ceBits (k bits : Nat) (d : Dev) : Dev :=
  let c0 := (rd d (Reg.ARY_CE_BITS k)).toNat
  let d := cntAdd64 (Reg.ARY_CE_BITS k) bits d
  whenB (decide (c0 < 2 ^ 64 - 1) && decide (c0 + bits ≥ 2 ^ 64 - 1)) (raise (srcAry 8 k)) d

/-- Add corrected bits of a main page, keep the largest codeword count, and log one above the threshold (R301, R302). -/
def cwCount (k page cw bits : Nat) (d : Dev) : Dev :=
  let d := ceBits k bits d
  let d := if bits > gf d (Reg.ARY_CW_MAX k) F.ARY_CW_MAX_BITS then
      d |> sf (Reg.ARY_CW_MAX k) F.ARY_CW_MAX_BITS bits |> sf (Reg.ARY_CW_MAX k) F.ARY_CW_MAX_BLOCK (page / 256) else d
  if bits > gf d (Reg.ARY_CE_THRESH k) F.ARY_CE_THRESH_BITS then
    logOnce (Reg.ARY_CE_LOG k) F.ARY_CE_LOG_VALID F.ARY_CE_LOG_OVER (fun d =>
        d |> sf (Reg.ARY_CE_LOG k) F.ARY_CE_LOG_BITS bits |> sf (Reg.ARY_CE_LOG k) F.ARY_CE_LOG_PAGE (page % 256)
          |> sf (Reg.ARY_CE_LOG k) F.ARY_CE_LOG_CW cw |> sf (Reg.ARY_CE_LOG k) F.ARY_CE_LOG_BLOCK (page / 256)) d
      |> raise (srcAry 6 k)
  else d

/-- Count a sense of a main page (R309). -/
def senseCount (k n : Nat) (d : Dev) : Dev :=
  let c0 := (rd d (Reg.ARY_SENSE_CNT k)).toNat
  cntAdd64 (Reg.ARY_SENSE_CNT k) n d
    |> whenB (decide (c0 < 2 ^ 64 - 1) && decide (c0 + n ≥ 2 ^ 64 - 1)) (raise (srcAry 8 k))

/-- The page is in its register: answer the window reads that wait for it. -/
def winServe (k page : Nat) (r : PageReg) (d : Dev) : Dev :=
  let l := (aryOf d k).reads.filter (fun q => q.page == page)
  let d := aryUpd k (fun a => { a with reads := a.reads.filter (fun q => q.page != page) }) d
  let d := if l = [] then d else { d with arb := { d.arb with opFails := mdel d.arb.opFails (32 + k) } }
  forEach l (fun q d =>
    let v := readReg r q.addr q.len d
    busDeliver q.master q.addr v.1.1 v.1.2 v.2) d

/-- A block becomes unreadable while window reads wait for its pages: they return all-ones (R275). -/
def winBlank (k b : Nat) (d : Dev) : Dev :=
  let l := (aryOf d k).reads.filter (fun q => q.page / 256 == b)
  let d := aryUpd k (fun a => { a with reads := a.reads.filter (fun q => q.page / 256 != b) }) d
  forEach l (fun q d =>
    sf (Reg.ARY_RD_STAT k) F.ARY_RD_STAT_UNREADABLE_HIT 1 d |> busDeliver q.master q.addr (List.replicate q.len 0xFF) false) d

/-- Does `[a, a + n)` read as erased (R278)? -/
def readsErased (d : Dev) (a n : Nat) : Bool :=
  (d.mem.filter (fun c => decide (a ≤ c.1) && decide (c.1 < a + n))).all (fun c => c.2 == 0xFF) &&
  !(d.errs.any (fun e => decide (a ≤ 32 * e.1) && decide (32 * e.1 < a + n)))

/-- The local address of a page's first byte and its length in codewords of 2 KiB. -/
def pageAt (d : Dev) (k p : Nat) : Nat × Nat :=
  if 2 ^ 21 ≤ p then (scoreBase + 2048 * (p - 2 ^ 21), 1)
  else if 2 ^ 20 ≤ p then (psecBase (k % 2) + 2048 * (p - 2 ^ 20), 1)
  else (arrayBase k + pageOff d p, 8)

/-- A plane's sense ends (R283, R299 to R302). `tries` gives, per sense of the page, its codewords' outcomes, eight of a main page and one of
a page of R280: bits corrected, or uncorrectable; retries beyond the first count only with RETRY_EN, three at most. `raw` is the raw error
left in the granules of codewords that stay uncorrectable. A page without data whose codewords hold at most 8 bits at 0 reads as erased: no
correction counts (R278). Senses are counted of main pages (R309). -/
def senseComplete (k p : Nat) (tries : List (List (Option Nat))) (raw : FMap ErrPat) (d : Dev) : Dev :=
  match mget (aryOf d k).cur p with
  | none => d
  | some s =>
    let tries := tries.take (if gb d (Reg.ARY_RD_CTL k) F.ARY_RD_CTL_RETRY_EN then 4 else 1)
    let pa := pageAt d k s.page
    let main := decide (s.page < 2 ^ 20)
    let blank := readsErased d pa.1 (2048 * pa.2) &&
      (List.range pa.2).all (fun c => ((tries.getD 0 []).getD c (some 0)).any (fun b => decide (b ≤ 8)))
    let out := (List.range 8).map (fun c => if blank || decide (pa.2 ≤ c) then some (0, 0) else cwDecode 0 (tries.map (fun t => t.getD c (some 0))))
    let used := out.foldl (fun m o => max m (match o with | some (i, _) => i + 1 | none => tries.length)) 1
    let good := countBelow 4 (fun i => i != 0 && out.any (fun o => o.any (fun q => q.1 == i)))
    let bad := countBelow 8 (fun c => (out.getD c none).isNone)
    let d := whenB main (senseCount k used) d
    let d := forN pa.2 (fun c d => match out.getD c none with
      | some (_, b) => if main then cwCount k s.page c b d else ceBits k b d
      | none => d) d
    let d := cntAdd (Reg.ARY_RETRY_CNT k) F.ARY_RETRY_CNT_COUNT F.ARY_RETRY_CNT_OVF good (srcAry 8 k) d
    let d := cntAdd (Reg.ARY_INNER_UE k) F.ARY_INNER_UE_COUNT F.ARY_INNER_UE_OVF bad (srcAry 8 k) d |> stackEvent (16 + k) bad
    let raw := (raw.filter (fun e => decide (e.1 < 64 * pa.2) && (out.getD (e.1 / 64) none).isNone)).map (fun e => (pa.1 / 32 + e.1, e.2))
    let r : PageReg := ⟨s.page, s.ctx != 2, raw, s.ctx⟩
    let d := aryUpd k (fun a =>
      let a := { a with cur := mdel a.cur p }
      match mget a.creg p with
      | some q => if q.full then { a with dreg := mput a.dreg p r } else { a with creg := mput a.creg p r }
      | none => { a with creg := mput a.creg p r }) d
    winServe k s.page r d |> senseStart k p

/-! ### Contents -/

/-- Replace every byte of `[a, a + bs.length)`; the bytes are listed from the lowest address. -/
def rawReplace (a : Nat) (bs : List Byte) (d : Dev) : Dev :=
  let new := ((List.range bs.length).zip bs).filterMap (fun p =>
    if p.2 = memDefault (a + p.1) then none else some (a + p.1, p.2))
  { d with mem := d.mem.filter (fun c => decide (c.1 < a)) ++ new ++
      d.mem.filter (fun c => decide (a + bs.length ≤ c.1)) }

/-- The symbol errors that read as poison from an array store (R330, R523). -/
def poisonPat : ErrPat := [(0, 0x5A), (2, 0xA5)]

/-- Leave `[a, a + n)` of an array undefined (R337, R349): free bytes, and granules that may read with poison. -/
def damage (a n : Nat) (d : Dev) : Dev :=
  let f := d.free
  let bs := (List.range n).map (fun i => ((Config.freeValue (f + i / 8)).toNat / 2 ^ (i % 8 * 8) : Nat))
  let d := rawReplace a (bs.map (BitVec.ofNat 8)) { d with free := f + n / 8 + n / 32 }
  forN (n / 32) (fun g d =>
    errSet (a / 32 + g) (if (Config.freeValue (f + n / 8 + g)).getLsbD 0 then poisonPat else []) d) d

/-- The address and size of unit `u` of a target. -/
def targetAt (d : Dev) (k : Nat) (sector : Bool) (index page : Nat) : Nat × Nat :=
  if sector then (psecBase k + 0x10000 * index + page * 0x800, 0x800)
  else (arrayBase k + unitOff d index (page % 8), 0x80000)

/-- Erase a target: every page reads as erased (R324). -/
def eraseTarget (k : Nat) (sector : Bool) (index : Nat) (d : Dev) : Dev :=
  if sector then
    let a := psecBase k + 0x10000 * index
    rawReplace a (List.replicate 0x10000 0xFF) { d with errs := d.errs.filter (fun e => decide (e.1 < a / 32) || decide (a / 32 + 0x800 ≤ e.1)) }
  else
    forN 8 (fun u d => rawClear (arrayBase k + unitOff d index u) 0x80000 d) d

/-- Program one granule: erased cells take the data and its symbols, others the AND of old and new codewords (R331). Answers
whether the AND differs from the buffer. -/
def programGran (g : Nat) (bs : List Byte) (e : ErrPat) (d : Dev) : Bool × Dev :=
  let old := rawBytes d (32 * g) 32
  if old.all (fun b => b == 0xFF) && errOf d g == [] then (false, errSet g e (rawStore (32 * g) bs d))
  else
    let cw := ((codeword old (errOf d g)).zip (codeword bs e)).map (fun (p : Nat × Nat) => p.1 &&& p.2)
    let data := (cw.drop 3).map (BitVec.ofNat 8)
    let pat := ((List.range 3).zip ((cw.take 3).zip (checkSymbols data))).filterMap (fun (p : Nat × Nat × Nat) =>
      if p.2.1 = p.2.2 then none else some (p.1, p.2.1 ^^^ p.2.2))
    (cw != codeword bs e, errSet g pat (rawStore (32 * g) data d))

/-- Program the buffer of an operation (R328, R330, R331); answers PNE. -/
def programUnit (a : Nat) (o : AryOp) (d : Dev) : Bool × Dev :=
  let ks := o.data.foldr (fun (x : Nat × Byte) (l : List Nat) => if l.head? = some (x.1 / 32) then l else x.1 / 32 :: l) []
  let gs := ks ++ (o.errs.map (fun (x : Nat × ErrPat) => x.1)).filter (fun g => !(ks.contains g))
  gs.foldl (fun acc g =>
    let bs := (List.range 32).map (fun i => mgetD o.data (32 * g + i) 0xFF)
    let r := programGran (a / 32 + g) bs (mgetD o.errs g []) acc.2
    (acc.1 || r.1, r.2)) (false, d)

/-! ### Operations, grants and outcomes -/

/-- Pages of a block leave every register, senses of it end, and window reads that wait for them return all-ones (R275, R277). -/
def invalidate (k b : Nat) (d : Dev) : Dev :=
  aryUpd k (fun a => { a with creg := a.creg.filter (fun r => r.2.page / 256 != b),
                              dreg := a.dreg.filter (fun r => r.2.page / 256 != b),
                              cur := a.cur.filter (fun s => s.2.page / 256 != b),
                              want := a.want.filter (fun s => s.page / 256 != b) }) d |> winBlank k b

/-- Pages of a parameter sector leave the register of their array, and a read that waits for one senses it after the operation. -/
def psecInvalidate (k n : Nat) (d : Dev) : Dev :=
  let out := fun (p : Nat) => !(decide (2 ^ 20 ≤ p) && p / 32 == 2 ^ 15 + n)
  aryUpd k (fun a => { a with creg := a.creg.filter (fun r => out r.2.page), dreg := a.dreg.filter (fun r => out r.2.page),
                              cur := a.cur.filter (fun s => out s.2.page),
                              want := a.want ++ ((a.cur.filter (fun s => !(out s.2.page))).map (fun s => s.2)) }) d

/-- Does any operation of stack `k` run? -/
def aryRunning (d : Dev) (k : Nat) : Bool := (aryOf d k).ops.any (fun p => p.2.runs)

/-- A stack with no running operation gives its grant back, and one with none that waits leaves the queue (R345, R346). -/
def grantBack (k : Nat) (d : Dev) : Dev :=
  let d := if aryRunning d k then d else { d with arys := { d.arys with grants := d.arys.grants.filter (fun j => j != k) } }
  if (aryOf d k).ops.any (fun p => p.2.wait) then d
  else { d with arys := { d.arys with waitq := d.arys.waitq.filter (fun j => j != k) } }

/-- Before the first erase pulse the erase count rises with ERASE_OPEN set (R324), and WEAR_NEAR is raised once (R352). -/
def eraseBegin (k : Nat) (sector : Bool) (index : Nat) (d : Dev) : Dev :=
  let w := wearOf d k sector index
  let d := wearUpd k sector index (fun w => { w with count := min (w.count + 1) 0xFFFFFF, eOpen := true }) d
  if w.count + 1 ≥ (if sector then 90000 else 2700) ∧ w.near = false then
    wearUpd k sector index (fun w => { w with near := true }) d |> wearEvent k 1 sector index 0
  else d

/-- The operation of group `g` runs, with a grant held (R346, R347). -/
def opRun (k g : Nat) (d : Dev) : Dev :=
  match mget (aryOf d k).ops g with
  | none => d
  | some o =>
    let d := aryUpd k (fun a => { a with ops := mput a.ops g { o with wait := false, bySlot := false, begun := true, since := fastTime d } }) d
    let d := if o.begun then d else if g ≠ 4 then invalidate k o.index d else psecInvalidate k o.index d
    let d := if o.begun = false ∧ (o.op = 1 ∨ o.op = 3) then eraseBegin k (o.op == 3) o.index d else d
    if (aryOf d k).ops.any (fun p => p.2.bySlot) then d else sf (Reg.ARY_RD_STAT k) F.ARY_RD_STAT_SUSPENDED 0 d

/-- Operations of stack `k` that wait run now: a grant is held. -/
def opsRun (k : Nat) (d : Dev) : Dev :=
  forEach ((aryOf d k).ops.filter (fun p => p.2.wait)) (fun p d => opRun k p.1 d) d

/-- A stack asks for a grant (R345, R346): it has one, takes a free one, or waits in order. -/
def grantAsk (k : Nat) (d : Dev) : Dev :=
  if d.arys.grants.contains k then opsRun k d
  else if d.arys.waitq.contains k then d
  else if d.arys.grants.length < 8 ∧ d.arys.waitq = [] then
    opsRun k { d with arys := { d.arys with grants := d.arys.grants ++ [k] } }
  else { d with arys := { d.arys with waitq := d.arys.waitq ++ [k] } }

/-- The first waiting stack receives a free grant (R346). -/
def grantGive (d : Dev) : Dev :=
  match d.arys.waitq with
  | [] => d
  | k :: rest =>
    if d.arys.grants.length < 8 then
      let d := { d with arys := { d.arys with waitq := rest } }
      if (aryOf d k).ops.any (fun p => p.2.wait) then
        opsRun k { d with arys := { d.arys with grants := d.arys.grants ++ [k] } }
      else d
    else d

/-- Record a target in its group's ARY_OPSTAT. -/
def opstatTarget (k g op index page : Nat) (d : Dev) : Dev :=
  d |> sf (Reg.ARY_OPSTAT k g) F.ARY_OPSTAT_OP op |> sf (Reg.ARY_OPSTAT k g) F.ARY_OPSTAT_INDEX index
    |> sf (Reg.ARY_OPSTAT k g) F.ARY_OPSTAT_PAGE page

/-- Report an outcome in a group's ARY_OPSTAT and raise ARY_OP_DONE (R339). -/
def opOutcome (k g code : Nat) (d : Dev) : Dev :=
  d |> sf (Reg.ARY_OPSTAT k g) F.ARY_OPSTAT_CODE code |> sf (Reg.ARY_OPSTAT k g) F.ARY_OPSTAT_DONE 1
    |> raise (srcAry 0 k)

/-- Start an operation: it takes its plane group and a grant, or waits for one (R323, R345). -/
def opStart (k : Nat) (o : AryOp) (d : Dev) : Dev :=
  let g := aryGroup d (decide (o.op ≥ 3)) o.index
  let d := opstatTarget k g o.op o.index o.page d
  aryUpd k (fun a => { a with ops := mput a.ops g o }) d |> grantAsk k

/-- Take an operation away, give the grant back and let waiting senses start. -/
def opDrop (k g : Nat) (d : Dev) : Dev :=
  let d := aryUpd k (fun a => { a with ops := mdel a.ops g }) d
  let d := if (aryOf d k).ops.any (fun p => p.2.bySlot) then d else sf (Reg.ARY_RD_STAT k) F.ARY_RD_STAT_SUSPENDED 0 d
  grantBack k d |> sensesStart k

/-- Stop the operation of group `g` with ABORTED (R336): an erase that began leaves its block undefined with ERASE_OPEN set, a
program its unit and, for an upper unit, the paired lower one (R337, R349). -/
def opAbort (k g : Nat) (d : Dev) : Dev :=
  match mget (aryOf d k).ops g with
  | none => d
  | some o =>
    let d :=
      if o.begun = false then d
      else if o.op = 1 then forN 8 (fun u d => damage (arrayBase k + unitOff d o.index u) 0x80000 d) d
      else if o.op = 3 then damage (psecBase k + 0x10000 * o.index) 0x10000 d
      else
        let t := targetAt d k (o.op == 4) o.index o.page
        let d := damage t.1 t.2 d
        if o.op = 2 ∧ o.page % 2 = 1 then
          let l := targetAt d k false o.index (o.page - 1)
          damage l.1 l.2 d
        else d
    opDrop k g d |> opOutcome k g 8

/-- Command 0xF0 (R336): every operation stops with ABORTED, the buffer closes, the window returns to array mode. -/
def aryAbort (k : Nat) (d : Dev) : Dev :=
  let d := forN 5 (fun g d => opAbort k g d) d
  aryUpd k (fun a => { a with pb := none, seq := none }) d |> sf (Reg.ARY_STAT k) F.ARY_STAT_MODE 0

/-- FAST_TIME cycles in 500 µs (R342; CLK_REF is 38.4 MHz). -/
def run500 : Nat := 19200

/-- Command 0xB0 (R341, R342): running operations suspend, or the suspend is held until 500 µs of running. -/
def arySuspend (k : Nat) (d : Dev) : Dev :=
  let t := fastTime d
  let d := aryUpd k (fun a => { a with ops := mmap a.ops (fun _ o =>
    if o.wait && !o.bySlot then { o with wait := false, byCmd := true }
    else if o.bySlot then { o with wait := false, byCmd := true }
    else if o.runs then (if t - o.since < run500 then { o with held := true } else { o with byCmd := true })
    else o) }) d
  grantBack k d |> sensesStart k

/-- A held suspend takes effect (R342). -/
def arySuspendDue (k : Nat) (d : Dev) : Dev :=
  let d := aryUpd k (fun a => { a with ops := mmap a.ops (fun _ o =>
    if o.held then { o with held := false, byCmd := o.byCmd || o.runs } else o) }) d
  grantBack k d |> sensesStart k

/-- Command 0xD0 (R343): a held suspend is cancelled; else each operation suspended by command resumes, after a grant, and one
in a read slot at the slot's end (R297). -/
def aryResume (k : Nat) (d : Dev) : Dev :=
  let a := aryOf d k
  if a.ops.any (fun p => p.2.held) then aryUpd k (fun a => { a with ops := mmap a.ops (fun _ o => { o with held := false }) }) d
  else if a.ops.any (fun p => p.2.byCmd) then
    let d := aryUpd k (fun a => { a with ops := mmap a.ops (fun _ o =>
      if o.byCmd then { o with byCmd := false, wait := !o.bySlot } else o) }) d
    if (aryOf d k).ops.any (fun p => p.2.wait) then grantAsk k d else d
  else d

/-- The operation of a group is suspended for a read slot, which ARY_SUSP_CNT counts (R294, R295). -/
def slotOpen (k g : Nat) (d : Dev) : Dev :=
  match mget (aryOf d k).ops g with
  | none => d
  | some o =>
    let d := aryUpd k (fun a => { a with ops := mput a.ops g { o with bySlot := true, byCmd := o.held, held := false } }) d
      |> cntAdd (Reg.ARY_SUSP_CNT k) F.ARY_SUSP_CNT_COUNT F.ARY_SUSP_CNT_OVF 1 (srcAry 8 k)
      |> sf (Reg.ARY_RD_STAT k) F.ARY_RD_STAT_SUSPENDED 1
    grantBack k d |> sensesStart k

/-- A sense needs a group whose operation runs: the operation is suspended for a read slot (R294, R295). -/
def autoSuspend (k g : Nat) (d : Dev) : Dev :=
  match mget (aryOf d k).ops g with
  | none => d
  | some o =>
    if o.runs && gb d (Reg.ARY_RD_CTL k) F.ARY_RD_CTL_AUTO_SUSP &&
        (aryOf d k).want.any (fun s => pagePlane d s.page / 32 == g) then slotOpen k g d
    else d

/-- The read slot of a group ends (R295): its operation asks for a grant and runs once it has one (R347), unless a command
suspends it. -/
def autoResume (k g : Nat) (d : Dev) : Dev :=
  match mget (aryOf d k).ops g with
  | none => d
  | some o =>
    if !o.bySlot || o.wait then d
    else if o.byCmd then
      let d := aryUpd k (fun a => { a with ops := mput a.ops g { o with bySlot := false } }) d
      if (aryOf d k).ops.any (fun p => p.2.bySlot) then d else sf (Reg.ARY_RD_STAT k) F.ARY_RD_STAT_SUSPENDED 0 d
    else aryUpd k (fun a => { a with ops := mput a.ops g { o with wait := true } }) d |> grantAsk k

/-- An operation ends after `us` µs of running, verified or not (R324, R331, R339, R352). -/
def opDone (k g us : Nat) (ok : Bool) (d : Dev) : Dev :=
  match mget (aryOf d k).ops g with
  | none => d
  | some o =>
    if !o.runs then d
    else
      let sector := decide (o.op ≥ 3)
      let erase := o.op == 1 || o.op == 3
      let nom := fieldAt (calRowBytes d k) (if sector then 0x30 else 0x28) (if sector then 2 else 4)
      let t := targetAt d k sector o.index o.page
      let d := if erase && decide (us > 2 * nom) then
          let d := sf (Reg.ARY_OPSTAT k g) F.ARY_OPSTAT_ERASE_SLOW 1 d
          if (wearOf d k sector o.index).slow then d
          else wearUpd k sector o.index (fun w => { w with slow := true }) d |> wearEvent k 2 sector o.index 0
        else d
      let d :=
        if ok then
          if erase then
            eraseTarget k sector o.index d
              |> wearUpd k sector o.index (fun w => { w with eOpen := false, eraseUs := min (us / 4) 0xFFFF })
          else
            let r := programUnit t.1 o d
            if r.1 then sf (Reg.ARY_OPSTAT k g) F.ARY_OPSTAT_PNE 1 r.2 |> raise (srcAry 2 k) else r.2
        else
          let d := if erase then
              (if sector then damage (psecBase k + 0x10000 * o.index) 0x10000 d
               else forN 8 (fun u d => damage (arrayBase k + unitOff d o.index u) 0x80000 d) d)
            else damage t.1 t.2 d
          d |> sf (Reg.ARY_OPSTAT k g) F.ARY_OPSTAT_FAIL 1
            |> cntAdd (Reg.ARY_FAIL_CNT k) F.ARY_FAIL_CNT_COUNT F.ARY_FAIL_CNT_OVF 1 (srcAry 8 k)
            |> wearUpd k sector o.index (fun w => { w with failed := true })
            |> wearEvent k 3 sector o.index (if erase then 0 else o.page)
      opDrop k g d |> opOutcome k g (if ok then 0 else 7)

/-- Retire a main block (R353). -/
def aryRetire (k b : Nat) (d : Dev) : Dev :=
  let g := b / aryQ d
  let d := match mget (aryOf d k).ops g with
    | some o => if g < 4 ∧ o.index = b then opAbort k g d else d
    | none => d
  wearUpd k false b (fun w => { w with retired := true }) d |> invalidate k b

/-! ### Password protection (R354 to R362) -/

/-- The state of the region that holds a target: 0 OPEN, 1 LOCKED, 2 UNLOCKED (R354, R355). -/
def regionState (d : Dev) (k : Nat) (sector : Bool) (index : Nat) : Nat :=
  if sector then (rd d (Reg.ARY_PSEC_PROT k (index / 32))).toNat / 4 ^ (index % 32) % 4
  else gf d (Reg.ARY_REGION k) F.ARY_REGION_STATE / 4 ^ (index % aryQ d / 16) % 4

/-- Set the state of the region that holds a target. -/
def regionSet (k : Nat) (sector : Bool) (index v : Nat) (d : Dev) : Dev :=
  if sector then sf (Reg.ARY_PSEC_PROT k (index / 32)) ⟨2 * (index % 32), 2⟩ v d
  else sf (Reg.ARY_REGION k) ⟨2 * (index % aryQ d / 16), 2⟩ v d

/-- The region index of a target (R360). -/
def regionIdx (d : Dev) (k : Nat) (sector : Bool) (index : Nat) : Nat :=
  if sector then 128 + 64 * k + index else 8 * k + index % aryQ d / 16

/-- The bytes of password-table slot `i`, 0–15 in sector 62 and 16–31 in sector 63 of S1 (R358, R359). -/
def pwSlotAt (i : Nat) : Nat := psecBase 1 + 62 * 0x10000 + 0x1000 * i
def pwSlot (d : Dev) (i : Nat) : List Byte := rawBytes d (pwSlotAt i) 0x1000

/-- The newest table version whose CRC is correct, by slot (R359), while PD_S1 is on. -/
def pwValid (d : Dev) : Option Nat :=
  if !(domOn d 33) then none
  else
    (List.range 32).foldl (fun best i =>
      let b := pwSlot d i
      if crc32 (b.take 0xFFC) ≠ fieldAt b 0xFFC 4 then best
      else
        match best with
        | none => some i
        | some j =>
          if (fieldAt b 0xFF0 4 + 2 ^ 32 - fieldAt (pwSlot d j) 0xFF0 4) % 2 ^ 32 < 2 ^ 31 then some i else best) none

/-- CHECK of a password (R359). -/
def pwCheck (d : Dev) (k i pw : Nat) : List Byte :=
  (sha512 (((calRowBytes d k).drop 0x20).take 8 ++ leBytes 2 i ++ leBytes 8 pw)).take 8

/-- A table version's entry of region `i`. -/
def pwEntry (d : Dev) (slot i : Nat) : List Byte := ((pwSlot d slot).drop (16 * i)).take 16

/-- Set the region states of stack `k` from the table at a PD_SYS reset: a region with a password is LOCKED, and without a
valid table every region is (R355, R362, R364). -/
def regionsLoad (k : Nat) (d : Dev) : Dev :=
  let v := pwValid d
  let st := fun (i : Nat) => match v with
    | none => 1
    | some s => if (pwEntry d s i).getD 8 0 = 1 then 1 else 0
  let n := mainBlocks d / 64
  let w := (List.range n).foldl (fun m r => m + st (8 * k + r) * 4 ^ r) 0
  let d := sf (Reg.ARY_REGION k) F.ARY_REGION_STATE w d
  let d := if k < 2 then
      forN 2 (fun h d => wr (Reg.ARY_PSEC_PROT k h)
        (BitVec.ofNat 64 ((List.range 32).foldl (fun m i => m + st (128 + 64 * k + 32 * h + i) * 4 ^ i) 0)) d) d
    else d
  aryUpd k (fun a => { a with prot := true }) d

/-- The bytes of a table version with one entry changed and the next version number (R359, R361). -/
def pwNext (b : List Byte) (w : PwWrite) : List Byte :=
  let e := if w.set then w.check ++ [1] ++ List.replicate 7 0xFF else List.replicate 16 0xFF
  let body := b.take (16 * w.region) ++ e ++ (b.take 0xFF0).drop (16 * w.region + 16)
  let v := body ++ leBytes 4 (fieldAt b 0xFF0 4 + 1) ++ List.replicate 8 0xFF
  v ++ leBytes 4 (crc32 v)

/-- The new table version is written and verified (R361): into the next free slot of the current sector, or the erased
other sector. -/
def pwWritten (k : Nat) (d : Dev) : Dev :=
  match (aryOf d k).pwWrite with
  | none => d
  | some w =>
    let d := match pwValid d with
      | none => d
      | some j =>
        let b := pwNext (pwSlot d j) w
        match (List.range 16).find? (fun i => decide (i > j % 16) && (pwSlot d (j / 16 * 16 + i)).all (fun x => x == 0xFF)) with
        | some i => rawReplace (pwSlotAt (j / 16 * 16 + i)) b d
        | none =>
          let o := 1 - j / 16
          eraseBegin 1 true (62 + o) d |> wearUpd 1 true (62 + o) (fun w => { w with eOpen := false })
            |> rawReplace (pwSlotAt (16 * o)) (b ++ List.replicate 0xF000 0xFF)
    let sector := decide (w.region ≥ 128)
    let idx := if sector then (w.region - 128) % 64 else w.region % 8 * 16
    aryUpd k (fun a => { a with pwWrite := none }) d |> sf (Reg.ARY_STAT k) F.ARY_STAT_PW_BUSY 0
      |> regionSet k sector idx (bit w.set)

/-! ### Command sequences (R314 to R322) -/

def cmdOff : Nat := 0x0E2D6000
def key2Off : Nat := 0x01D29000

/-- A sequence is wrong: SEQ_ERR, with the partial sequence discarded (R317 to R319). -/
def seqErr (k : Nat) (d : Dev) : Dev :=
  aryUpd k (fun a => { a with seq := none }) d |> sf (Reg.ARY_STAT k) F.ARY_STAT_SEQ_ERR 1

/-- A write that is none of the window's is ignored and sets SEQ_ERR (R319). -/
def strayWrite (k : Nat) (d : Dev) : Dev := sf (Reg.ARY_STAT k) F.ARY_STAT_SEQ_ERR 1 d

/-- The target's checks in the order of R320; PROT only for an erase or program (R354, R358). -/
def targetCheck (d : Dev) (k : Nat) (sector : Bool) (index page : Nat) (change : Bool) : Nat :=
  let a := aryOf d k
  if sector && (decide (index > 63) || decide (k > 1)) then 1
  else if !sector && (decide (index ≥ gf d (Reg.ARY_GEOM k) F.ARY_GEOM_BLOCKS) || decide (page ≥ 8)) then 1
  else if !sector && a.bad.contains index then 2
  else if !sector && (wearOf d k false index).retired then 3
  else if change && (regionState d k sector index == 1 || (sector && k == 1 && decide (index ≥ 62))) then 4
  else if mhas a.ops (aryGroup d sector index) || a.pb.isSome || gb d (Reg.ARY_STAT k) F.ARY_STAT_PW_BUSY then 5
  else 0

/-- The target that ARY_CMD_ARG names. -/
def cmdArg (d : Dev) (k : Nat) : Bool × Nat × Nat :=
  (gb d (Reg.ARY_CMD_ARG k) F.ARY_CMD_ARG_SPACE, gf d (Reg.ARY_CMD_ARG k) F.ARY_CMD_ARG_INDEX,
   gf d (Reg.ARY_CMD_ARG k) F.ARY_CMD_ARG_PAGE)

/-- Write ARY_STAT.LAST (R320). -/
def setLast (k code : Nat) (d : Dev) : Dev := sf (Reg.ARY_STAT k) F.ARY_STAT_LAST code d

/-- Command 0x60 at its third write (R323, R324). -/
def cmdErase (k master : Nat) (d : Dev) : Dev :=
  let t := cmdArg d k
  let c := targetCheck d k t.1 t.2.1 t.2.2 true
  let d := setLast k c d
  if c = 0 then opStart k { op := if t.1 then 3 else 1, index := t.2.1, page := 0, master := master } d else d

/-- Command 0x81 at its third write (R326). -/
def cmdBuffer (k master : Nat) (d : Dev) : Dev :=
  let t := cmdArg d k
  let c := targetCheck d k t.1 t.2.1 t.2.2 true
  let d := setLast k c d
  if c = 0 then aryUpd k (fun a => { a with pb := some ⟨t.1, t.2.1, t.2.2, [], [], master⟩ }) d else d

/-- Command 0xC5 (R356, R357); PW_TABLE where it needs the table and none is valid (R362). -/
def cmdUnlock (k : Nat) (d : Dev) : Dev :=
  let t := cmdArg d k
  let c := targetCheck d k t.1 t.2.1 t.2.2 false
  if c ≠ 0 then setLast k c d
  else if gf d (Reg.ARY_STAT k) F.ARY_STAT_PW_FAILS ≥ 8 then setLast k 11 d
  else
    if regionState d k t.1 t.2.1 = 0 then setLast k 0 d
    else
      match pwValid d with
      | none => setLast k 13 d
      | some s =>
        let i := regionIdx d k t.1 t.2.1
        let e := pwEntry d s i
        if e.getD 8 0 = 1 ∧ e.take 8 = pwCheck d k i (rd d (Reg.ARY_PW k)).toNat then
          setLast k 0 d |> regionSet k t.1 t.2.1 2
        else
          let f := gf d (Reg.ARY_STAT k) F.ARY_STAT_PW_FAILS + 1
          let d := setLast k 10 d |> sf (Reg.ARY_STAT k) F.ARY_STAT_PW_FAILS f
          if f = 8 then raise (srcAry 5 k) d |> scoreEvent 0x0060 2 k [] else d

/-- Command 0xC6 (R356, R358, R361); PW_TABLE where a password is set or removed and no table is valid (R362). -/
def cmdLock (k : Nat) (d : Dev) : Dev :=
  let t := cmdArg d k
  let c := targetCheck d k t.1 t.2.1 t.2.2 false
  if c ≠ 0 then setLast k c d
  else if t.1 && k == 1 && decide (t.2.1 ≥ 62) then setLast k 4 d
  else
    let st := regionState d k t.1 t.2.1
    let clr := gb d (Reg.ARY_CMD_ARG k) F.ARY_CMD_ARG_CLR_PW
    let pw := (rd d (Reg.ARY_PW k)).toNat
    let i := regionIdx d k t.1 t.2.1
    let change := fun (set : Bool) (d : Dev) =>
      if (pwValid d).isNone then setLast k 13 d
      else
        aryUpd k (fun a => { a with pwWrite := some ⟨i, set, pwCheck d k i pw⟩ }) d
          |> sf (Reg.ARY_STAT k) F.ARY_STAT_PW_BUSY 1 |> setLast k 0
    if clr then (if st = 2 then change false d else setLast k 4 d)
    else if st = 0 then (if pw = 0 ∨ pw = 2 ^ 64 - 1 then setLast k 12 d else change true d)
    else setLast k 0 d |> regionSet k t.1 t.2.1 1

/-- The third write of a sequence: the command word acts (R314, R319 to R321). While a password change is written every other
sequence is refused with BUSY (R361). -/
def seqThird (k master w : Nat) (d : Dev) : Dev :=
  let c := w % 256
  let known := [0x60, 0x81, 0xB0, 0xD0, 0xF0, 0x70, 0x90, 0xE8, 0xC5, 0xC6].contains c
  let d := aryUpd k (fun a => { a with seq := none }) d
  if w / 256 ≠ 255 - c ∨ known = false then strayWrite k d
  else
    let busy := gb d (Reg.ARY_STAT k) F.ARY_STAT_PW_BUSY && c != 0xB0 && c != 0xD0
    let d := sf (Reg.ARY_STAT k) F.ARY_STAT_MODE 0 d
    if busy then setLast k 5 d
    else if c = 0x60 then cmdErase k master d
    else if c = 0x81 then cmdBuffer k master d
    else if c = 0xC5 then cmdUnlock k d
    else if c = 0xC6 then cmdLock k d
    else
      let d := setLast k 0 d
      if c = 0xB0 then arySuspend k d
      else if c = 0xD0 then aryResume k d
      else if c = 0xF0 then aryAbort k d
      else if c = 0x70 then sf (Reg.ARY_STAT k) F.ARY_STAT_MODE 1 d
      else if c = 0x90 then sf (Reg.ARY_STAT k) F.ARY_STAT_MODE 2 d
      else sf (Reg.ARY_STAT k) F.ARY_STAT_MODE 3 d

/-- The flip mask on the first granule of the next unit committed to stack `k`'s main blocks (R547, R548): the symbol errors that the
program of the unit stores, and the state with ARM cleared. -/
def flipProgram (k block page : Nat) (d : Dev) : FMap ErrPat × Dev :=
  if gb d Reg.INTG_FLIP F.INTG_FLIP_ARM && gf d Reg.INTG_FLIP F.INTG_FLIP_STORE == 0x20 + k then
    let g := (targetAt d k false block page).1 / 32
    let d1 := flipApply g (0x20 + k) d
    let e := if gb d Reg.INTG_FLIP F.INTG_FLIP_POISON then poisonPat else errOf d1 g
    ([(0, e)], { d1 with errs := d.errs, poison := d.poison })
  else ([], d)

/-- The commit word (R316, R328): the buffer closes, an upper unit over an erased lower unit is rejected with ORDER (R313), and
the unit's program starts. -/
def pbCommit (k : Nat) (d : Dev) : Dev :=
  match (aryOf d k).pb with
  | none => d
  | some b =>
    let d := aryUpd k (fun a => { a with pb := none }) d
    let g := aryGroup d b.sector b.index
    let op := if b.sector then 4 else 2
    let low := targetAt d k false b.index (b.page - 1)
    if b.sector = false ∧ b.page % 2 = 1 ∧ readsErased d low.1 low.2 then
      opstatTarget k g op b.index b.page d |> opOutcome k g 6
    else
      let d := if b.errs.any (fun e => e.2 == poisonPat) then sf (Reg.ARY_OPSTAT k g) F.ARY_OPSTAT_POISON_IN 1 d else d
      let r := if b.sector then ([], d) else flipProgram k b.index b.page d
      opStart k { op := op, index := b.index, page := b.page, data := b.data, errs := r.1.foldl (fun m e => mput m e.1 e.2) b.errs,
                  master := b.master } r.2

/-- No commit came in time (R329). -/
def pbTimeout (k : Nat) (d : Dev) : Dev :=
  match (aryOf d k).pb with
  | none => d
  | some b =>
    let g := aryGroup d b.sector b.index
    aryUpd k (fun a => { a with pb := none }) d
      |> opstatTarget k g (if b.sector then 4 else 2) b.index b.page |> opOutcome k g 9

/-- Bytes of the buffer aperture (R326). -/
def pbSize (b : AryPb) : Nat := if b.sector then 0x800 else 0x80000

/-- Data into the open buffer (R326); a whole granule replaces its mark, a narrower write keeps it (R39, R330). -/
def pbWrite (k o : Nat) (bs : List Byte) (p : Bool) (d : Dev) : Dev :=
  aryUpd k (fun a =>
    match a.pb with
    | none => a
    | some b =>
      let data := ((List.range bs.length).zip bs).foldl (fun m x => mput m (o + x.1) x.2) b.data
      let errs :=
        if p then (granRange o bs.length).foldl (fun m g => mput m g poisonPat) b.errs
        else if bs.length = 32 then mdel b.errs (o / 32) else b.errs
      { a with pb := some { b with data := data, errs := errs } }) d

/-- A write into the main-block span of stack `k`'s window (R314 to R319, R326, R327). -/
def winWrite (master k o : Nat) (bs : List Byte) (p : Bool) (d : Dev) : Dev :=
  let a := aryOf d k
  let w := leNat bs
  let cmdw := bs.length == 4 && o == cmdOff
  let single := cmdw && (w == 0x4FB0 || w == 0x2FD0)
  let commit := cmdw && w == 0x7E81 && a.pb.isSome
  let data := a.pb.any (fun b => decide (o + bs.length ≤ pbSize b))
  let act := fun (d : Dev) => if w = 0x4FB0 then arySuspend k d else aryResume k d
  let fresh := fun (d : Dev) =>
    if single then act d
    else if cmdw && w == 0x6E2D then aryUpd k (fun a => { a with seq := some (1, master) }) d
    else if commit then pbCommit k d
    else if data then pbWrite k o bs p d
    else strayWrite k d
  match a.seq with
  | none => fresh d
  | some (n, m) =>
    if n = 2 ∧ cmdw = true ∧ master = m then seqThird k master w d
    else if single || commit || data then fresh d
    else if n = 1 ∧ master = m ∧ bs.length = 4 ∧ o = key2Off ∧ w = 0x91D2 then
      aryUpd k (fun a => { a with seq := some (2, m) }) d
    else
      let d := seqErr k d
      if bs.length = 4 ∧ (o = cmdOff ∨ o = key2Off) ∧ master ≠ m then d else fresh d

/-! ### Power-on (R304 to R308, R363, R364) -/

/-- PD_Sk has turned on: the calibration row is checked and loaded, with the wear record and the region states. -/
def stackLoad (k : Nat) (d : Dev) : Dev :=
  let c := calRowBytes d k
  let ok := decide (fieldAt c 0 4 = 0x5EC7CA1B) && decide (fieldAt c 4 2 = 0x0100) && decide (crc32 (c.take 0xFFC) = fieldAt c 0xFFC 4)
  let d := aryUpd k (fun a => { a with cur := [], want := [], dreg := [], creg := [], reads := [], cont := [], cross := none }) d
  let d := wr (Reg.ARY_GEOM k) 0 d
  let d :=
    if ok then
      aryUpd k (fun a => { a with bad := calBad d k }) d
        |> sf (Reg.ARY_GEOM k) F.ARY_GEOM_LOADED 1 |> sf (Reg.ARY_GEOM k) F.ARY_GEOM_BLOCKS (fieldAt c 8 2)
        |> sf (Reg.ARY_GEOM k) F.ARY_GEOM_BAD_CNT (fieldAt c 0x0A 1) |> sf (Reg.ARY_GEOM k) F.ARY_GEOM_PSEC (fieldAt c 0x0B 1 % 2)
        |> sf (Reg.ARY_GEOM k) F.ARY_GEOM_SSR (fieldAt c 0x0B 1 / 2 % 2)
    else sf (Reg.ARY_GEOM k) F.ARY_GEOM_CAL_BAD 1 d |> raise (srcAry 7 k)
  if (aryOf d k).prot then d else regionsLoad k d

/-! ### The rows of the array -/

/-- The naturally aligned widths of R38. -/
def widthOk (a n : Nat) : Bool := (n == 1 || n == 2 || n == 4 || n == 8 || n == 32) && a % n == 0

/-- The next write of a sequence did not come in time (R318). -/
def xSeqTimeout (k : Nat) (d : Dev) : Dev := if (aryOf d k).seq.isSome then seqErr k d else d

end Sys2Proof.Machine
end

