-- ==== Sys2Proof/Machine/Hub.lean ====
section
/-! DEFINITION. The synchronisation objects as data, and a try-acquire (spec 16, R663, R667). -/

namespace Sys2Proof.Machine

/-- The four words of an object. -/
structure SyncObj where
  value : Nat
  param : Nat
  aux : Nat
  status : Nat
deriving DecidableEq, Repr

def SyncObj.ovf (o : SyncObj) : Bool := bitAt o.status 31

def SyncObj.type (o : SyncObj) : Nat := bitsOf o.status 30 28

def objAddr (n : Nat) : Nat := syncBase + 16 * n

def objBytes (o : SyncObj) : List Byte := leBytes 4 o.value ++ leBytes 4 o.param ++ leBytes 4 o.aux ++ leBytes 4 o.status

def objParse (b : List Byte) : SyncObj := ⟨fieldAt b 0 4, fieldAt b 4 4, fieldAt b 8 4, fieldAt b 12 4⟩

/-- An object read through the hub: its words and the poison of its granule. -/
def objRead (n : Nat) (d : Dev) : (SyncObj × Bool) × Dev :=
  let r := readMem (objAddr n) 16 d
  ((objParse r.1.1, r.1.2), r.2)

/-- Store an object after an operation. -/
def objStore (n : Nat) (o : SyncObj) (d : Dev) : Dev := writeMem (objAddr n) (objBytes o) false d

def syncPoison (master n : Nat) (d : Dev) : Dev :=
  d |> sf Reg.SYNC_STAT F.SYNC_STAT_POISON_OP 1 |> sf Reg.SYNC_STAT F.SYNC_STAT_OBJ n
    |> consume 0xA master 0 0 (objAddr n / 32 * 32)

/-- A 64-bit read at offset 0 (R667, R671): the data and its poison. -/
def tryAcquire (master n : Nat) (d : Dev) : (Nat × Bool) × Dev :=
  let r := objRead n d
  let o := r.1.1
  if r.1.2 then ((o.value + 2 ^ 32 * o.param, true), if o.type = 1 then syncPoison master n r.2 else r.2)
  else if o.type = 1 then
    if o.value ≥ 1 then
      ((2 ^ 32 + o.value, false), objStore n { o with value := if o.ovf then o.value else o.value - 1 } r.2)
    else ((o.value, false), r.2)
  else ((o.value + 2 ^ 32 * o.param, false), r.2)

end Sys2Proof.Machine
end

