-- ==== Sys2Proof/Machine/LinkSend.lean ====
section
/-! DEFINITION. Messages and flits as this device sends them: routes, channels, credits and requests (spec 16). -/

namespace Sys2Proof.Machine

def crcBits : Nat → Nat → Nat
  | 0, c => c
  | k + 1, c => crcBits k (if c.testBit 63 then (c * 2 % 2 ^ 64) ^^^ 0x42F0E1EBA9EA3693 else c * 2 % 2 ^ 64)

/-- CRC-64 of R627. -/
def crc64 (bs : List Byte) : Nat :=
  bs.foldl (fun c b => crcBits 8 (c ^^^ (b.toNat * 2 ^ 56))) (2 ^ 64 - 1) ^^^ (2 ^ 64 - 1)

/-- A slot that is not valid. -/
def slotNone : Slot := ⟨0, List.replicate 32 0, [0, 0, 0], 0⟩

def flitHeader (f : Flit) : Nat :=
  f.type * 2 ^ 60 + f.seq % 4096 * 2 ^ 48 + f.ack % 4096 * 2 ^ 36 + f.credCh % 32 * 2 ^ 31 + f.credCnt % 2048 * 2 ^ 20 +
    (List.range 4).foldl (fun a i => a + ((f.slots[i]?).getD slotNone).ch % 32 * 2 ^ (5 * i)) 0

def slotBytes (s : Slot) : List Byte :=
  padTo 32 0 s.data ++ (padTo 3 0 s.chk).map (BitVec.ofNat 8) ++ leBytes 1 s.flags

/-- The 160 bytes of a flit. -/
def flitBytes (f : Flit) : List Byte :=
  let body := leBytes 8 (flitHeader f) ++ ((List.range 4).flatMap (fun i => slotBytes ((f.slots[i]?).getD slotNone)))
  body ++ leBytes 8 (crc64 body)

/-- Count in a 64-bit flit counter (R682). -/
def flitCount (r : Reg) (n : Nat) (d : Dev) : Dev :=
  let c := (rd d r).toNat
  cntAdd64 r 1 d |> whenB (decide (c = 2 ^ 64 - 2)) (raise (srcTl 6 n))

def portOf (d : Dev) (n : Nat) : LinkPort := mgetD d.links.ports n {}

def setLinks (l : Links) (d : Dev) : Dev := { d with links := l }

def portPut (n : Nat) (p : LinkPort) (d : Dev) : Dev := setLinks { d.links with ports := mput d.links.ports n p } d

/-- Put a flit on the wire with the current ACK_SEQ. -/
def flitOut (n : Nat) (f : Flit) (d : Dev) : Dev :=
  let f := { f with ack := ((portOf d n).rxExp + 4095) % 4096 }
  emit (.flit n (flitBytes f)) d |> flitCount (Reg.TL_TX_FLITS n) n

/-- Send a sequenced flit and keep it in the replay buffer (R634). It returns one channel's credits, and does so again when it is
replayed (log entry 129). -/
def flitSeq (n type : Nat) (slots : List Slot) (d : Dev) : Dev :=
  let p := portOf d n
  let cr := (p.credRet.find? (fun q => decide (0 < q.2))).getD (0, 0)
  let f : Flit := ⟨type, p.txSeq, 0, cr.1, cr.2, slots⟩
  let rest := if cr.2 = 0 then p.credRet else mdel p.credRet cr.1
  let d := portPut n { p with txSeq := (p.txSeq + 1) % 4096, replay := p.replay ++ [f], credRet := rest } d
  flitOut n f d

def isResponse (kind : Nat) : Bool := kind == 3 || kind == 4 || kind == 5 || kind == 0x12 || kind == 0x21

def portState (d : Dev) (n : Nat) : Nat := gf d (Reg.TL_STAT n) F.TL_STAT_STATE

/-- UP is state 2. -/
def portUp (d : Dev) (n : Nat) : Bool := portState d n == 2

/-- Take up to `k` waiting slots whose channels have credit, in order per channel: those taken, those left, credits. -/
def takeSlots : Nat → List Slot → FMap Nat → List Nat → List Slot × List Slot × FMap Nat
  | 0, l, c, _ => ([], l, c)
  | _, [], c, _ => ([], [], c)
  | k + 1, s :: r, c, blocked =>
    if mgetD c s.ch 0 > 0 ∧ blocked.contains s.ch = false then
      let q := takeSlots k r (mput c s.ch (mgetD c s.ch 0 - 1)) blocked
      (s :: q.1, q.2.1, q.2.2)
    else
      let q := takeSlots (k + 1) r c (s.ch :: blocked)
      (q.1, s :: q.2.1, q.2.2)

/-- Form DATA flits from waiting slots while the port is UP and the replay buffer has room; `fuel` bounds them. -/
def linkPump : Nat → Nat → Dev → Dev
  | 0, _, d => d
  | fuel + 1, n, d =>
    let p := portOf d n
    if portUp d n && decide (p.replay.length < 256) then
      let q := takeSlots 4 p.pend p.cred []
      if q.1 = [] then d
      else linkPump fuel n (flitSeq n 1 q.1 (portPut n { p with pend := q.2.1, cred := q.2.2 } d))
    else d

def portUpd (n : Nat) (f : LinkPort → LinkPort) (d : Dev) : Dev := portPut n (f (portOf d n)) d

/-- Queue slots on a port and send what may go. -/
def linkSlots (n : Nat) (ss : List Slot) (d : Dev) : Dev :=
  let d := portUpd n (fun p => { p with pend := p.pend ++ ss }) d
  linkPump (portOf d n).pend.length n d

/-- The channel of a message (R629, R645). -/
def msgChan (m : Msg) : Nat := (if isResponse m.kind then 18 else 16) + m.cls % 2

/-- The header granule of a message (R644). -/
def msgHeader (m : Msg) : List Byte :=
  leBytes 8 m.spec ++ leBytes 4 m.arg ++ leBytes 4 m.byteEn ++ leBytes 5 m.addr ++ leBytes 1 m.cause ++
    leBytes 1 (if m.kind = 1 then m.len else m.data.length) ++ leBytes 2 m.tag ++ leBytes 1 m.master ++
    leBytes 6 ((if m.revRow then 2 ^ 5 else 0) + (if m.revCol then 2 ^ 6 else 0) + m.cls % 2 * 2 ^ 7 +
      m.hops % 256 * 2 ^ 8 + m.src % 4096 * 2 ^ 16 + m.dst % 4096 * 2 ^ 28 + m.kind % 256 * 2 ^ 40)

/-- Check symbols of a slot about to be sent, with the flip mask of a link store (R548). -/
def slotMake (n ch : Nat) (data : List Byte) (flags : Nat) (d : Dev) : Slot × Dev :=
  let p := checkSymbols data
  if gb d Reg.INTG_FLIP F.INTG_FLIP_ARM && gf d Reg.INTG_FLIP F.INTG_FLIP_STORE == 0x30 + n then
    let e : ErrPat := [(gf d Reg.INTG_FLIP F.INTG_FLIP_POS0, gf d Reg.INTG_FLIP F.INTG_FLIP_VAL0),
      (gf d Reg.INTG_FLIP F.INTG_FLIP_POS1, gf d Reg.INTG_FLIP F.INTG_FLIP_VAL1)]
    let c := applyErr (p ++ data.map BitVec.toNat) e
    let q := gb d Reg.INTG_FLIP F.INTG_FLIP_POISON
    let d := sf Reg.INTG_FLIP F.INTG_FLIP_ARM 0 d |> whenB q (ueEntry (0x30 + n) 5 0)
    (⟨ch, (c.drop 3).map (BitVec.ofNat 8), c.take 3, if q then flags ||| 8 else flags⟩, d)
  else (⟨ch, data, p, flags⟩, d)

/-- The slots of a message (R644). -/
def msgSlots (n : Nat) (m : Msg) (d : Dev) : List Slot × Dev :=
  let gs := (msgHeader m, false, true) :: m.data.map (fun g => (g.1, g.2, false))
  gs.foldl (fun acc g =>
    let fl := 1 + (if g.2.1 then 8 else 0) + (if g.2.2 then 32 else 0)
    let r := slotMake n (msgChan m) g.1 fl acc.2
    (acc.1 ++ [r.1], r.2)) ([], d)

def setPortState (n s : Nat) (d : Dev) : Dev := sf (Reg.TL_STAT n) F.TL_STAT_STATE s d

/-- Send a message by port `n`: on an UP port at once; a LOW_POWER port is woken and the message held (R649, R658); on a port
that is not UP yet it is held. -/
def msgPort (n : Nat) (m : Msg) (d : Dev) : Dev :=
  if portUp d n then
    let r := msgSlots n m d
    linkSlots n r.1 r.2
  else
    let d := portUpd n (fun p => { p with held := p.held ++ [m] }) d
    if portState d n = 3 then
      emit (.wakePattern n) (portUpd n (fun p => { p with wakes := 1 }) (setPortState n 4 d))
    else d

def opposite (n : Nat) : Nat := (n + 2) % 4

def devId (d : Dev) : Nat := gf d Reg.SYS_NODE F.SYS_NODE_DEV_ID

def idCol (i : Nat) : Nat := i % 64

/-- The routing entry for column or row `i`: its port, if valid. -/
def rtEntry (d : Dev) (row : Bool) (i : Nat) : Option Nat :=
  let r := if row then Reg.TL_RT_ROW (i / 8) else Reg.TL_RT_COL (i / 8)
  let e := gf d r ⟨4 * (i % 8), 4⟩
  if e.testBit 3 then some (e % 4) else none

def idRow (i : Nat) : Nat := i / 64 % 64

def torusCols (d : Dev) : Nat := gf d Reg.TL_TORUS F.TL_TORUS_COLS

def torusRows (d : Dev) : Nat := gf d Reg.TL_TORUS F.TL_TORUS_ROWS

/-- Where a message leaves: the port and the message with its REV, HOPS and CLASS updated, if it can be forwarded. -/
def routeHop (d : Dev) (m : Msg) : Option (Nat × Msg) :=
  let own := devId d
  let rowLeg := idCol m.dst == idCol own
  if m.hops ≥ 128 then none
  else
    match rtEntry d rowLeg (if rowLeg then idRow m.dst else idCol m.dst) with
    | none => none
    | some q =>
      let rev := if rowLeg then m.revRow else m.revCol
      let q := if rev then opposite q else q
      let down := portState d q == 5
      if down && rev then none
      else
        let q := if down then opposite q else q
        let wrap :=
          (q == 1 && idCol own + 1 == torusCols d) || (q == 3 && idCol own == 0) ||
          (q == 2 && idRow own + 1 == torusRows d) || (q == 0 && idRow own == 0)
        some (q, { m with hops := m.hops + 1, cls := if wrap then 1 else m.cls, revRow := m.revRow || (down && rowLeg),
                          revCol := m.revCol || (down && !rowLeg) })

/-- Send a message toward its DST: whether it could be forwarded. -/
def sendMsg (m : Msg) (d : Dev) : Bool × Dev :=
  match routeHop d m with
  | some (q, m) => (true, msgPort q m d)
  | none => (false, d)

/-- Count a message refused or discarded (R648). -/
def routeErr (d : Dev) : Dev := cntAdd Reg.TL_ROUTE_ERR F.TL_ROUTE_ERR_COUNT F.TL_ROUTE_ERR_OVF 1 (srcTl 6 0) d

/-- Send the request with a TAG; one that cannot be forwarded is dropped, counted and logged with NO_ROUTE (R648). -/
def reqSend (tag : Nat) (d : Dev) : Bool × Dev :=
  match mget d.links.reqs tag with
  | none => (false, d)
  | some q =>
    match sendMsg q.msg (setLinks { d.links with reqs := mput d.links.reqs tag { q with sent := true } } d) with
    | (true, d) => (true, d)
    | (false, d) =>
      (false, busError causeNoRoute q.msg.master (q.msg.kind == 2) (2 ^ 52 + q.msg.dst * 2 ^ 40 + q.msg.addr)
        (routeErr (setLinks { d.links with reqs := mdel d.links.reqs tag } d)))

/-- Requests of this device that have been sent and not answered. -/
def reqsOut (d : Dev) : Nat := (d.links.reqs.filter (fun q => q.2.sent)).length

/-- Start a routed request of this device and remember what waits for its response (R645, R652); while 256 are outstanding it
waits unsent. TAG 0 is kept for the messages that have no response. Answers whether it was not refused. -/
def request (k : ReqKind) (m : Msg) (d : Dev) : Bool × Dev :=
  let t := (findBelow 65536 (fun i => (d.links.nextTag + i) % 65536 != 0 && !(mhas d.links.reqs ((d.links.nextTag + i) % 65536)))).getD 0
  let tag := (d.links.nextTag + t) % 65536
  let m := { m with src := devId d, tag := tag }
  let go := decide (reqsOut d < 256)
  let d := setLinks { d.links with reqs := mput d.links.reqs tag ⟨k, m, false⟩, nextTag := (tag + 1) % 65536 } d
  if go then reqSend tag d else (true, d)

/-- The device and port at the other end of TLn (R619). -/
def neighbour (d : Dev) (n : Nat) : Nat × Nat :=
  let r := idRow (devId d)
  let c := idCol (devId d)
  let rs := torusRows d
  let cs := torusCols d
  match n with
  | 0 => ((r + rs - 1) % rs * 64 + c, 2)
  | 1 => (r * 64 + (c + 1) % cs, 3)
  | 2 => ((r + 1) % rs * 64 + c, 0)
  | _ => (r * 64 + (c + cs - 1) % cs, 1)

def nodeLocked (d : Dev) : Bool := gb d Reg.SYS_NODE F.SYS_NODE_LOCK

/-- Does the device hold a route to another device (R28)? -/
def hasRoute (d : Dev) (dst : Nat) : Bool :=
  nodeLocked d && (rtEntry d (idCol dst == idCol (devId d))
    (if idCol dst = idCol (devId d) then idRow dst else idCol dst)).isSome

/-- Is port `n` DOWN with its neighbour reached by another route and tunnelling on (R655)? TL_STATn.TUNNEL shows it. -/
def tunnels (d : Dev) (n : Nat) : Bool :=
  portState d n == 5 && gb d (Reg.TL_CTL n) F.TL_CTL_TUNNEL_EN && nodeLocked d &&
    (routeHop d { kind := 0x30, dst := (neighbour d n).1, src := devId d }).isSome

end Sys2Proof.Machine
end

