-- ==== Sys2Proof/Machine/Ic.lean ====
section
/-! DEFINITION. The interrupt controller's commands (spec 17, R689 to R697); raising and presentation stand in Ops. -/

namespace Sys2Proof.Machine

/-- A write of IC_SETPEND (R695). -/
def icSetPend (id : Nat) (d : Dev) : Dev := if id > 511 then sf Reg.IC_STAT F.IC_STAT_BAD_ID 1 d else raise id d

/-- A write of IC_CLRPEND (R695); `raised` is whether the source is raised in the same cycle (R696). -/
def icClrPend (id : Nat) (raised : Bool) (d : Dev) : Dev :=
  if id > 511 then sf Reg.IC_STAT F.IC_STAT_BAD_ID 1 d
  else if raised then raise id d
  else bankSet Reg.IC_PEND id false d

/-- Core `c` accepts the vector presented to it at the end of an entry sequence (R689 to R691); `raised` is whether the accepted
source is raised in the same cycle (R696). -/
def icAccept (c : Nat) (raised : Bool) (d : Dev) : Dev :=
  if !(d.ic.entry.testBit c) then d
  else
    let id := icHppi d c
    let d := { d with ic := { d.ic with entry := setBit d.ic.entry c false } }
    let d := emit (.vector c ((rd d (Reg.IC_VBAR c)).toNat + 64 * id)) d
    if id = 1023 then cntAdd (Reg.IC_SPUR c) F.IC_SPUR_COUNT F.IC_SPUR_OVF 1 118 d
    else
      let d := bankSet Reg.IC_PEND id raised d
      let d := { d with ic := { d.ic with act := mput d.ic.act id c } }
      let d := if gb d (Reg.IC_SRCCFG id) F.IC_SRCCFG_ONESHOT then
          bankSet Reg.IC_EN id false d
            |> sf Reg.IC_AM_SEQ F.IC_AM_SEQ_SEQ (gf d Reg.IC_AM_SEQ F.IC_AM_SEQ_SEQ + 1)
        else d
      icPresent d

/-- A write of IC_EOIc (R692). -/
def icEoi (c id : Nat) (d : Dev) : Dev :=
  if id % 1024 = 1023 then d
  else if mget d.ic.act (id % 1024) = some c then
    icPresent { d with ic := { d.ic with act := mdel d.ic.act (id % 1024) } }
  else sf Reg.IC_STAT F.IC_STAT_EOI_ERR 1 d

/-- A write of word `m` of IC_EN (R697): every bit is stored. `race` is a core that accepts its vector in the same cycle; the clear
of a ONESHOT source of the word is lost. -/
def icEnWrite (m v : Nat) (race : Option Nat) (d : Dev) : Dev :=
  let d := match race with
    | none => d
    | some c =>
      let id := icHppi d c
      let lost := d.ic.entry.testBit c && id != 1023 && gb d (Reg.IC_SRCCFG id) F.IC_SRCCFG_ONESHOT && id / 32 == m
      let d := icAccept c false d
      if lost then d |> sf Reg.IC_STAT F.IC_STAT_MASK_RACE 1 |> sf Reg.IC_STAT F.IC_STAT_RACE_ID id else d
  icPresent (wr (Reg.IC_EN m) (BitVec.ofNat 64 (v % 2 ^ 32)) d)

/-- PD_APP turns on (R703): active states end; what qualifies is presented. -/
def icAppOn (d : Dev) : Dev := icPresent { d with ic := { act := [], entry := 0 } }

end Sys2Proof.Machine
end

