-- ==== Sys2Proof/Machine/Views.lean ====
section
/-! DEFINITION. Registers as an access finds them: the register at an address, and the registers that show what the device's tables hold. -/

namespace Sys2Proof.Machine

/-- A register: its row of the map, its block or window index and its index among equal registers. -/
structure RegAt where
  desc : RegDesc
  i : Nat
  j : Nat
deriving DecidableEq, Repr

def RegAt.reg (r : RegAt) : Reg := ⟨r.desc.base + r.i * r.desc.s1 + r.j * r.desc.s2, r.desc.reset⟩

/-- The bits of the fields of a register whose access code satisfies a test. -/
def accMask (t : RegDesc) (p : Acc → Bool) : BitVec 64 :=
  t.flds.foldl (fun m f => if p f.acc then m ||| BitVec.ofNat 64 ((2 ^ f.fld.len - 1) * 2 ^ f.fld.lo) else m) 0

def slotCfg (d : Dev) (s : Nat) : ImgSlot := mgetD d.img.slots s {}

/-- The configuration that the banks hold: the slot that was activated last. It stays bound when its state turns INVALID
under R104. -/
def activeCfg (d : Dev) : ImgSlot :=
  if d.img.running then slotCfg d (gf d Reg.IMG_SLOT_STAT F.IMG_SLOT_STAT_ACTIVE) else {}

/-- The state code of an image slot: 0 EMPTY, 1 LOADING, 2 VALID, 3 ACTIVE, 4 INVALID. -/
def slotState (d : Dev) (s : Nat) : Nat :=
  if s = 0 then gf d Reg.IMG_SLOT_STAT F.IMG_SLOT_STAT_A_STATE else gf d Reg.IMG_SLOT_STAT F.IMG_SLOT_STAT_B_STATE

/-- The active slot, if an image is active. -/
def activeSlot (d : Dev) : Option Nat :=
  if slotState d 0 = 3 then some 0 else if slotState d 1 = 3 then some 1 else none

/-- FAST seconds of CLK_AON (R736). -/
def aonHz : Nat := 32768

/-- Is a block factory-bad or retired (R379)? -/
def blockBad (d : Dev) (k b : Nat) : Bool := (aryOf d k).bad.contains b || (wearOf d k false b).retired

/-- The key of a (TYPE, ENGINE) pair. -/
def secKey (t e : Nat) : Nat := t * 256 + e

/-- Entry size of a section type; 0 for raw bytes. -/
def secSize (t : Nat) : Nat :=
  match t with
  | 1 => 24 | 2 => 256 | 3 => 16 | 4 => 32 | 5 => 16 | 6 => 32 | _ => 0

/-- The entries of a section of a configuration. -/
def secEntries (sects : FMap Sect) (t e : Nat) : List (List Byte) :=
  match mget sects (secKey t e) with
  | none => []
  | some s => chunksOf (secSize t) s.count s.bytes

def secEngine : Nat := 6

/-- LOOKAHEAD, STAGE_COUNT and TS_CONST of an ENGINE section (R71); 0 without one. -/
def cfgEng (c : ImgSlot) (k : Nat) : Nat × Nat × Nat :=
  match secEntries c.sects secEngine k with
  | [] => (0, 0, 0)
  | b :: _ => (fieldAt b 0 2, fieldAt b 2 2, fieldAt b 4 4)

/-- TS_CONST of engine `k` in the active image, in tiles of 16 KiB. -/
def constTiles (d : Dev) (k : Nat) : Nat := (cfgEng (activeCfg d) k).2.2 / 16384

/-- The extents in use, those of migrated copies among them (R162). -/
def extsNow (d : Dev) : List Extent := d.le.exts.map Prod.snd ++ d.arb.moves.flatMap ShardCopy.exts

/-- Slots held under marks, the largest over destinations (FIFO_STAT.HELD). -/
def fifoHeld (f : Fifo) : Nat :=
  f.dsts.foldl (fun m p => match p.2.mark with | some k => max m (p.2.hi - k) | none => m) 0

/-- Occupancy (R177). -/
def fifoOcc (f : Fifo) : Nat := f.items.length

/-- Local address of frame `f` of a tier. -/
def frameAddr (tier eng f : Nat) : Nat := if tier = 1 then 0x1000000 + 16384 * f else tileBase eng + 16384 * f

/-- Frames of a tier that a promotion may name (R140, R456). -/
def frameLimit (d : Dev) (tier eng : Nat) : Nat :=
  if tier = 1 then 1024 else if (activeSlot d).isSome && domOn d (16 + eng) then 256 - constTiles d eng else 0

def isT1 (a : Nat) : Bool := decide (0x1000000 ≤ a) && decide (a < 0x2000000)

/-- Is frame `f` of a tier named by a placement or, in T1, by a backing copy? -/
def frameUsed (d : Dev) (tier eng f : Nat) : Bool :=
  d.tm.objs.any (fun p =>
    let o := p.2
    (o.upTier == tier && (tier == 1 || o.upEng == eng) && decide (o.upFrame ≤ f) && decide (f < o.upFrame + o.upCount)) ||
    (tier == 1 && isT1 o.back && decide (o.back ≤ frameAddr 1 0 f) && decide (frameAddr 1 0 f < o.back + 16384 * o.size)))

/-- ARB_HOLD_ENT of the entry that ARB_HOLD_IDX selects. -/
def holdView (d : Dev) : Nat :=
  match mget d.arb.held (gf d Reg.ARB_HOLD_IDX F.ARB_HOLD_IDX_INDEX) with
  | none => 0
  | some h =>
    let x := (mgetD d.pipes h.pipe {}).batches.find? (fun b => b.seq == h.seq)
    let slot := match x with | some b => b.slot | none => 0
    let side := match x with | some b => b.side | none => 0
    2 ^ 63 + h.reason % 8 * 2 ^ 60 + h.pipe % 64 * 2 ^ 54 + h.seq % 65536 * 2 ^ 38 + slot % 64 * 2 ^ 32 + side % 2 * 2 ^ 31 +
      min h.replays 15 * 2 ^ 27 + h.detail % 2 ^ 14

/-- The store that INTG_SEL selects. -/
def intgSel (d : Dev) : Nat := gf d Reg.INTG_SEL F.INTG_SEL_STORE

/-- LE_STAT as it reads. -/
def leStatView (d : Dev) : BitVec 64 :=
  let v := rd d Reg.LE_STAT
  match d.le.run with
  | none => v
  | some r =>
    let prog := countBelow 16 (fun k => (aryOf d k).ops.any (fun o => o.2.master == 0x20))
    let ph := if r.adj ≠ 0 then 5 else if r.man.isNone then 1
      else if r.shards.all (fun s => s.2.arrived || s.2.shared.isSome) then 4 else 3
    fldPut (fldPut (fldPut v F.LE_STAT_BUSY 1) F.LE_STAT_PHASE ph) F.LE_STAT_PROGRAMMING prog

def mslot (d : Dev) (n : Nat) : MSlot := mgetD d.slots.slots n {}

/-- Side 0 is K, side 1 is Q. -/
def sideOf (d : Dev) (n s : Nat) : Side := if s = 0 then (mslot d n).k else (mslot d n).q

/-- The LIVE side of a slot, if any. -/
def liveSide (d : Dev) (n : Nat) : Option Nat :=
  if (sideOf d n 0).st = 3 then some 0 else if (sideOf d n 1).st = 3 then some 1 else none

/-- The longest run of free frames among the first `n`. -/
def longestRun (free : Nat → Bool) (n : Nat) : Nat :=
  ((List.range n).foldl (fun (a : Nat × Nat) f =>
    let c := if free f then a.1 + 1 else 0
    (c, max a.2 c)) (0, 0)).2

/-- The run-ahead area of engine `k` in tiles (R127). -/
def runAheadArea (d : Dev) (k : Nat) : Nat :=
  256 - constTiles d k - mgetD d.tm.guestTiles k 0 - countBelow 256 (frameUsed d 2 k)

/-- The engine's LOOKAHEAD in the active image (R126): in compatibility mode at most 64 tiles, and 64 where the translated image has none
(R100). -/
def engLook (d : Dev) (k : Nat) : Nat :=
  let n := (cfgEng (activeCfg d) k).1
  if (activeCfg d).compat then (if n = 0 then 64 else min n 64) else n

/-- ENG_LOOKAHEAD as it reads. -/
def lookaheadView (d : Dev) (k : Nat) : BitVec 64 :=
  BitVec.ofNat 64 (runAheadArea d k * 65536 + engLook d k)

/-- The code of an operation's state (R606). -/
def opCode : OpState → Nat
  | .queued => 0 | .running => 1 | .adjourning => 2 | .adjourned => 3 | .resigning => 4 | .done => 5 | .resigned => 6

/-- RING_OP_ENT for a handle. -/
def opEntView (d : Dev) (t : Nat) : Nat :=
  match mget d.rings.ops t with
  | none => 0
  | some e => 2 ^ 63 + opCode e.state * 2 ^ 60 + e.hdr.opcode % 256 * 2 ^ 52 + e.hdr.ring % 16 * 2 ^ 48 +
      e.hdr.tag % 65536 * 2 ^ 32 + e.hdr.idx % 2 ^ 32

/-- Quad `q` of stack `k` as its four blocks. -/
def quadBlocks (d : Dev) (q : Nat) : List Nat := (List.range 4).map (fun g => g * aryQ d + q)

/-- Broken: some block of it cannot be used (R379). -/
def quadBroken (d : Dev) (k q : Nat) : Bool := (quadBlocks d q).any (blockBad d k)

/-- Bytes in a quad and in a program unit of one block. -/
def quadBytes : Nat := 0x1000000

/-- Is quad `q` covered by an extent? -/
def quadUsed (exts : List Extent) (k q : Nat) : Bool :=
  exts.any (fun e => !e.dram && e.stack == k && decide (e.loc / quadBytes ≤ q) &&
    decide (q ≤ (e.loc + 16384 * e.tiles - 1) / quadBytes))

/-- Free under R377: no extent covers it, no operation of the arbiter runs in it, its region is not LOCKED, and its stack is in use
(R565). -/
def quadFree (d : Dev) (exts : List Extent) (k q : Nat) : Bool :=
  !(quadUsed exts k q) && !((aryOf d k).ops.any (fun o => o.1 != 4 && o.2.master == 8 && o.2.index % aryQ d == q)) && regionState d k false q != 1 && mgetD d.arb.stackSt k 0 == 0 &&
  !(gb d (Reg.ARY_GEOM k) F.ARY_GEOM_CAL_BAD)

/-- Admitted and not completed batches bound to a side, held ones included. -/
def refBatches (d : Dev) (n s : Nat) : Nat :=
  d.pipes.foldl (fun m p => m + (p.2.batches.filter (fun b => b.slot == n && b.side == s)).length) 0

/-- Open sessions bound to a side. -/
def refSessions (d : Dev) (n s : Nat) : Nat :=
  (d.slots.sessions.filter (fun p => p.1 / 65536 == n && p.2.side == some s)).length

/-- The register of a row that covers a byte address. -/
def regMatch (a : Nat) (t : RegDesc) : Option RegAt :=
  let off := a - t.base
  let i := if t.n1 = 1 then 0 else off / t.s1
  let o := off - i * t.s1
  let j := if t.n2 = 1 then 0 else o / t.s2
  if t.base ≤ a ∧ i < t.n1 ∧ j < t.n2 ∧ o - j * t.s2 < t.width / 8 then some ⟨t, i, j⟩ else none

/-- The register that covers a byte address, if any. -/
def regFind (a : Nat) : Option RegAt := regTable.findSome? (regMatch a)

/-- Does an address of the register range lie in a block of R32? -/
def regListed (a : Nat) : Bool :=
  let p := a / 65536
  (decide (0x1000 ≤ p) && decide (p ≤ 0x100C)) || (decide (0x1010 ≤ p) && decide (p ≤ 0x1043)) ||
  (decide (0x1050 ≤ p) && decide (p ≤ 0x1059)) || p == 0x1060

/-- The effect of a read: fields that a read clears return to their reset value. -/
def regReadEff (r : RegAt) (d : Dev) : Dev :=
  if r.desc.base = Reg.INTG_CNT.addr then intgUpd (intgSel d) (fun s => { s with ce := 0, ue := 0, ovf := false }) d
  else
    let m := accMask r.desc (· == .rc)
    if m = 0 then d else wr r.reg ((rd d r.reg &&& ~~~m) ||| (r.desc.reset &&& m)) d

def word64 (n : Nat) : BitVec 64 := BitVec.ofNat 64 n

/-- IC_ACT, IC_RPR and IC_HPPI. -/
def viewIc (d : Dev) (b i j : Nat) : Option (BitVec 64) :=
  if b = (Reg.IC_ACT 0).addr then
    some (word64 (d.ic.act.foldl (fun m p => if p.1 / 32 = j then m ||| 2 ^ (p.1 % 32) else m) 0))
  else if b = (Reg.IC_RPR 0).addr then some (word64 (icRpr d i))
  else if b = (Reg.IC_HPPI 0).addr then some (word64 (icHppi d i))
  else none

/-- Operations that copy and run now. -/
def tmRunning (d : Dev) : Nat := (d.tm.ops.filter (fun o => o.run && o.desc.op != 2)).length

def tmObj (d : Dev) (n : Nat) : Option TmObj := mget d.tm.objs n

/-- STATE of an object entry (R444): its running operation, else its placement. -/
def tmState (d : Dev) (n : Nat) : Nat :=
  match tmObj d n with
  | none => 0
  | some o =>
    match d.tm.ops.find? (fun p => p.run && p.desc.obj == n) with
    | some p => if p.desc.op = 3 then 2 else if p.desc.op = 7 then 5 else 4
    | none => if o.saved then 2 else if o.upTier = 0 then 1 else 3

/-- The 32 bytes of an object entry (R444). -/
def tmEntry (d : Dev) (n : Nat) : List Byte :=
  match tmObj d n with
  | none => List.replicate 32 0
  | some o =>
    leBytes 1 (tmState d n) ++ leBytes 1 o.kind ++ leBytes 1 o.flags ++ leBytes 1 o.pin ++ leBytes 4 o.size ++
      leBytes 8 o.back ++ leBytes 1 o.upTier ++ leBytes 1 o.upEng ++ leBytes 1 o.upMode ++ leBytes 1 0 ++
      leBytes 2 o.upFrame ++ leBytes 2 o.upCount ++ leBytes 4 o.upFirst ++ leBytes 2 o.frontier ++ leBytes 2 o.tag

/-- Frames of T0 that promotions may take on engine `k` (R127, R140, R456): their number and the longest run. -/
def t0Free (d : Dev) (k : Nat) : Nat × Nat :=
  let l := frameLimit d 2 k
  let free := fun f => !(frameUsed d 2 k f)
  let room := if l = 0 then 0 else runAheadArea d k - 8
  (min (countBelow l free) room, min (longestRun free l) room)

/-- TM_STAT, TM_OBJ_ENTn, TM_OBJ_RDCNT, TM_T1_FREE and TM_T0_FREEn. -/
def viewTm (d : Dev) (b j : Nat) : Option (BitVec 64) :=
  let n := gf d Reg.TM_OBJ_IDX F.TM_OBJ_IDX_INDEX
  if b = Reg.TM_STAT.addr then
    some (word64 (bit (!d.tm.ops.isEmpty) * 2 ^ 31 + tmRunning d * 2 ^ 24 +
      min ((d.tm.ops.filter (fun o => !o.run)).length) 255 * 2 ^ 16 + (16384 - d.tm.objs.length)))
  else if b = (Reg.TM_OBJ_ENT 0).addr then some (word64 (fieldAt (tmEntry d n) (8 * j) 8))
  else if b = Reg.TM_OBJ_RDCNT.addr then
    some (word64 (match tmObj d n with
      | some o => if o.kind == 1 && o.flags.testBit 1 then min (mgetD d.tm.reads n 0) 0xFFFFFFFF else 0
      | none => 0))
  else if b = Reg.TM_T1_FREE.addr then
    let free := fun f => !(frameUsed d 1 0 f)
    some (word64 (longestRun free 1024 * 65536 + countBelow 1024 free))
  else if b = (Reg.TM_T0_FREE 0).addr then some (word64 ((t0Free d j).2 * 65536 + (t0Free d j).1))
  else none

/-- LE_STAT, LE_FREEn, which reads its reset value until the boot ROM has handed over to the firmware that restores the extents (log entry
116), and the extent that LE_EXT_IDX selects. -/
def viewLe (d : Dev) (b j : Nat) : Option (BitVec 64) :=
  let e := mget d.le.exts (gf d Reg.LE_EXT_IDX F.LE_EXT_IDX_INDEX)
  let show_ := fun (f : Extent → Nat) => some (word64 (match e with | some e => f e | none => 0))
  if b = Reg.LE_STAT.addr then some (leStatView d)
  else if b = (Reg.LE_FREE 0).addr then
    let free := (List.range (aryQ d)).filter (fun q => quadFree d (extsNow d) j q)
    let broken := (free.filter (fun q => quadBroken d j q)).length
    some (word64 (if gf d Reg.KEY_BOOT_STAT F.KEY_BOOT_STAT_PHASE = 0 then 0 else 65536 * broken + (free.length - broken)))
  else if b = Reg.LE_EXT_OWNER.addr then show_ (fun e => 2 ^ 31 + 2 ^ 30 * e.side + 2 ^ 24 * e.slot + e.shard % 4096)
  else if b = Reg.LE_EXT_DATA.addr then
    show_ (fun e => bit e.dram * 2 ^ 63 + e.tiles % 2 ^ 23 * 2 ^ 40 + e.stack % 16 * 2 ^ 36 + e.loc % 2 ^ 36)
  else if b = Reg.LE_EXT_TILE.addr then show_ (fun e => e.first)
  else none

/-- A slot is available for new admissions (R412), unless a reload stops them (R560) or DRAM shards are lost (R398). -/
def slotUnavail (d : Dev) (n : Nat) : Bool := (mslot d n).unavail.isSome

/-- ARB_SLOT_STAT for a slot. -/
def slotStatView (d : Dev) (n : Nat) : Nat :=
  let s := mslot d n
  let live := liveSide d n
  bit live.isSome * 2 ^ 31 + live.getD 0 * 2 ^ 30 + bit (mhas d.slots.castles n) * 2 ^ 29 +
  bit (slotUnavail d n) * 2 ^ 28 + bit s.hold.isSome * 2 ^ 27 + s.q.st % 8 * 16 + s.k.st % 8

/-- ARB_SIDE_REF_K or _Q for a side of a slot. -/
def sideRefView (d : Dev) (n s : Nat) : Nat := refSessions d n s % 65536 * 65536 + refBatches d n s % 65536

/-- The arbiter's registers on held batches, the scoresheet writer, model slots and sessions. -/
def viewArb (d : Dev) (b : Nat) : Option (BitVec 64) :=
  let n := gf d Reg.ARB_SLOT_IDX F.ARB_SLOT_IDX_SLOT
  let map := fun (f : Nat → Bool) => (List.range 64).foldl (fun m i => if f i then m + 2 ^ i else m) 0
  if b = Reg.ARB_HELD.addr then some (word64 d.arb.held.length)
  else if b = Reg.ARB_HOLD_ENT.addr then some (word64 (holdView d))
  else if b = Reg.ARB_SCORE_STAT.addr then
    let v := fldPut (rd d Reg.ARB_SCORE_STAT) F.ARB_SCORE_STAT_ERASING (bit d.score.erasing.isSome)
    some (fldPut v F.ARB_SCORE_STAT_QUEUED (min (d.score.queue.length + d.score.page.length) 64))
  else if b = Reg.ARB_SLOT_STAT.addr then some (word64 (slotStatView d n))
  else if b = Reg.ARB_SIDE_REF_K.addr then some (word64 (sideRefView d n 0))
  else if b = Reg.ARB_SIDE_REF_Q.addr then some (word64 (sideRefView d n 1))
  else if b = Reg.ARB_HOLD_LEFT.addr then
    some (word64 (match (mslot d n).hold with | some h => min ((h.1 - aonTime d) / aonHz) 65535 | none => 0))
  else if b = Reg.ARB_SLOT_SWITCH.addr then some (word64 (mslot d n).time)
  else if b = Reg.ARB_SLOT_SEQ.addr then some (word64 ((mslot d n).seq % 2 ^ 32))
  else if b = Reg.ARB_SLOT_LIVE.addr then some (word64 (map (fun i => (liveSide d i).isSome)))
  else if b = Reg.ARB_SLOT_UNAVAIL.addr then some (word64 (map (fun i => (mslot d i).unavail.isSome)))
  else if b = Reg.ARB_SESSIONS.addr then
    some (fldPut (rd d Reg.ARB_SESSIONS) F.ARB_SESSIONS_OPEN d.slots.sessions.length)
  else none

/-- The first local address of a store in the local map; the descriptor cells and the object table have none and count from 0. -/
def storeBase (st : Nat) : Nat :=
  if st < 16 then tileBase st
  else match st with
    | 0x10 => 0x1000000
    | 0x11 => 0x800000
    | 0x14 => dramBase
    | 0x15 => syncBase
    | _ => 0

/-- The registers that every store holds for itself, and the UE log (R527 to R530, R545). -/
def viewIntg (d : Dev) (b : Nat) : Option (BitVec 64) :=
  let st := intgSel d
  let s := intgOf d st
  let u := mget d.intg.ueLog (gf d Reg.INTG_UE_IDX F.INTG_UE_IDX_INDEX)
  let ue := fun (f : UeEnt → Nat) => some (word64 (match u with | some e => f e | none => 0))
  if b = Reg.INTG_CNT.addr then some (word64 (bit s.ovf * 2 ^ 63 + 2 ^ 32 * s.ue + s.ce))
  else if b = Reg.INTG_LOG_STAT.addr then some (word64 (bit s.full * 2 ^ 31 + s.log.length))
  else if b = Reg.INTG_LOG_ENT.addr then
    some (word64 (match mget s.log (gf d Reg.INTG_LOG_IDX F.INTG_LOG_IDX_INDEX) with
      | some e => 2 ^ 63 + min e.hits 255 * 2 ^ 48 + e.sym % 64 * 2 ^ 40 + e.addr % 2 ^ 40 / 32 * 32
      | none => 0))
  else if b = Reg.INTG_LAP.addr then some (word64 s.lapUs)
  else if b = Reg.INTG_SCRUB_POS.addr then some (word64 (if s.begun then storeBase st + 32 * s.pos else 0))
  else if b = Reg.INTG_LAP_TMO.addr then some (word64 s.lapTmo)
  else if b = Reg.INTG_UE_ENT0.addr then ue (fun e => e.seq % 2 ^ 32 * 2 ^ 32 + e.cause % 16 * 2 ^ 12 + e.store % 64)
  else if b = Reg.INTG_UE_ENT1.addr then ue (fun e => e.addr % 2 ^ 53)
  else if b = Reg.INTG_UE_ENT2.addr then ue (fun e => e.time)
  else none

/-- ENG_STAT.HOSTING and ENG_LOOKAHEAD, which shows nothing without an active image. -/
def viewEng (d : Dev) (b i : Nat) : Option (BitVec 64) :=
  if b = (Reg.ENG_STAT 0).addr then
    some (fldPut (rd d (Reg.ENG_STAT i)) F.ENG_STAT_HOSTING (gf d (Reg.ENG_RELOC i) F.ENG_RELOC_GUEST_VALID))
  else if b = (Reg.ENG_LOOKAHEAD 0).addr then some (if (activeSlot d).isSome then lookaheadView d i else 0)
  else none

/-- The endpoint code of a shadow port of host `h`: port 8 + PORT of that engine (R161, R210; log entry 122). -/
def shadowEp (e h : Nat) : Nat := e / 4096 * 4096 + h * 256 + 8 + e % 256

/-- The producer and the consumer that FIFO_BIND shows (R210). -/
def bindSrc (f : Fifo) : Nat := f.srcHost.elim f.src (shadowEp f.src)
def bindDst (f : Fifo) : Nat :=
  if f.mask = 0 then (mget f.dstHosts (f.dst / 256 % 16)).elim f.dst (shadowEp f.dst) else f.dst

/-- The engines of a broadcast that FIFO_BIND shows: a host in place of each engine whose port has moved (R210). -/
def bindMask (f : Fifo) : Nat :=
  if f.mask = 0 then 0
  else (List.range 16).foldl (fun m k => if f.mask.testBit k then m ||| 2 ^ mgetD f.dstHosts k k else m) 0

/-- The window of a bound route (R206 to R210). -/
def viewFifo (d : Dev) (b i : Nat) : Option (BitVec 64) :=
  match mget d.fifos i with
  | none => none
  | some f =>
    if b = (Reg.FIFO_BIND 0).addr then
      some (word64 (2 ^ 63 + bindMask f % 65536 * 2 ^ 32 + bindDst f % 65536 * 65536 + bindSrc f % 65536))
    else if b = (Reg.FIFO_CFG 0).addr then
      some (word64 (f.thresh % 1024 * 65536 + f.pin % 16 * 4096 + bit f.stall * 1024 + bit f.markEn * 512 + bit f.cut * 256 + f.seg))
    else if b = (Reg.FIFO_STAT 0).addr then
      let v := fldPut (rd d (Reg.FIFO_STAT i)) F.FIFO_STAT_MARKED (bit (f.dsts.any (fun p => p.2.mark.isSome)))
      some (fldPut (fldPut v F.FIFO_STAT_HELD (fifoHeld f)) F.FIFO_STAT_OCC (fifoOcc f))
    else none

/-- The value of a register: shown from the tables it stands for, else as stored. -/
def regView (d : Dev) (r : RegAt) : BitVec 64 :=
  let b := r.desc.base
  let v := match b / 65536 with
    | 0x1003 => viewIc d b r.i r.j
    | 0x1004 => viewTm d b r.j
    | 0x1005 => viewLe d b r.j
    | 0x1006 => if b = Reg.SYNC_WATCH.addr then some (word64 d.links.watches.length) else none
    | 0x1007 => viewArb d b
    | 0x1008 => viewIntg d b
    | 0x100C =>
      if b = Reg.RING_OP_ENT.addr then some (word64 (opEntView d (gf d Reg.RING_OP_IDX F.RING_OP_IDX_HANDLE))) else none
    | 0x1010 => viewEng d b r.i
    | 0x1021 => viewFifo d b r.i
    | 0x1040 =>
      if b = (Reg.TL_STAT 0).addr then some (fldPut (rd d (Reg.TL_STAT r.i)) F.TL_STAT_TUNNEL (bit (tunnels d r.i))) else none
    | 0x1030 =>
      if b = (Reg.ARY_STAT 0).addr then some (aryStatView d r.i)
      else if b = (Reg.ARY_OPSTAT 0 0).addr then some (aryOpstatView d r.i r.j)
      else none
    | _ => none
  v.getD (rd d r.reg)

/-- What a read returns: reserved bits and write-only fields read 0. -/
def regReadVal (d : Dev) (r : RegAt) : BitVec 64 := regView d r &&& accMask r.desc (· != .wo)

/-- The registers that an access of `n` bytes at `a` touches, in rising order. -/
def regsTouched (a n : Nat) : List RegAt :=
  (List.range ((a + n + 3) / 4 - a / 4)).filterMap (fun i =>
    match regFind (a / 4 * 4 + 4 * i) with
    | some r => if i = 0 ∨ r.reg.addr = a / 4 * 4 + 4 * i then some r else none
    | none => none)

/-- Does an access of `n` bytes at `a` cover every register that it touches (R15)? -/
def regsWhole (a n : Nat) : Bool :=
  (regsTouched a n).all (fun r => decide (a ≤ r.reg.addr) && decide (r.reg.addr + r.desc.width / 8 ≤ a + n))

/-- A read of the register range: the data, or none for ALIGN where a register is touched and not covered (R14, R15). An access that
covers several registers reads each at its own width (log entry 9). No register lies in the identity window (R773). -/
def regRead (a n : Nat) (d : Dev) : Option (List Byte) × Dev :=
  if a / 512 = 0x80488 then (some (((identityBytes d).drop (a % 512)).take n), d)
  else if regsWhole a n then
    let r := (regsTouched a n).foldl (fun (acc : List Byte × Dev) (r : RegAt) =>
      let o := r.reg.addr - a
      let bs := leBytes (r.desc.width / 8) (regReadVal acc.2 r).toNat
      (acc.1.take o ++ bs ++ acc.1.drop (o + bs.length), regReadEff r acc.2)) (List.replicate n 0, d)
    (some r.1, r.2)
  else (none, d)

end Sys2Proof.Machine
end

