-- ==== Sys2Proof/Machine/Master.lean ====
section
/-! DEFINITION. Accesses of the device's own masters, and completions. -/

namespace Sys2Proof.Machine

/-- What a master's read returns. -/
inductive RdRes where
  | ok (bytes : List Byte) (poison : Bool)
  | err (cause : Nat)
deriving DecidableEq, Repr

/-! ### Addresses of other devices (R23 to R30, R641) -/

/-- `n` bytes that another device or a PCIe device answered with: a fresh undefined value each (log entry 12). -/
def outsideBytes (n : Nat) (d : Dev) : List Byte := (List.range n).map (fun i => Config.remoteData (2 ^ 32 * d.free + i))

/-- How an access to another device, or out of the PCIe window, ends: a cause, or done and with poison, as an undefined value
chooses among the outcomes of R29, R30 and R42 (log entry 12). -/
def outsideEnd (link : Bool) (d : Dev) : (Option Nat × Bool) × Dev :=
  let r := takeFree d
  let c := match r.1 % 4 with
    | 2 => some causeTimeout
    | 3 => if link then some causeRemote else some causeTimeout
    | _ => none
  ((c, r.1 % 4 == 1), r.2)

/-- May the window context sense a page now: does no operation run in its plane group, or do reads suspend it (R294, R296)? -/
def ownSenses (d : Dev) (k page : Nat) : Bool :=
  groupFree (aryOf d k) (pagePlane d page / 32) || gb d (Reg.ARY_RD_CTL k) F.ARY_RD_CTL_AUTO_SUSP

/-- The window context senses a page for the device itself, suspending an operation of its plane group (R283, R290, R294); the page decodes
at its first sense (log entry 57). -/
def ownSense (k page : Nat) (d : Dev) : Dev :=
  let p := pagePlane d page
  let d := if groupFree (aryOf d k) (p / 32) then d else slotOpen k (p / 32) d
  aryUpd k (fun a =>
    match mget a.creg p with
    | some q => if q.full then a else { a with creg := mput a.creg p ⟨page, false, [], 2⟩ }
    | none => { a with creg := mput a.creg p ⟨page, false, [], 2⟩ }) (senseCount k 1 d)

/-- A window read by one of the device's own masters, page by page (R275, R290, R291, R332, R333); none where a page waits for an operation that reads
do not suspend, beyond ARY_RD_TMO (R293, R296). -/
def winOwn (k o n : Nat) (d : Dev) : Option (List Byte × Bool) × Dev :=
  (List.range ((o % 16384 + n + 16383) / 16384)).foldl (fun acc i =>
    match acc.1 with
    | none => acc
    | some x =>
      let d := acc.2
      let a := max o (16384 * (o / 16384 + i))
      let m := min (o + n) (16384 * (o / 16384 + i + 1)) - a
      let page := pageId d a
      let mode := gf d (Reg.ARY_STAT k) F.ARY_STAT_MODE
      if mode = 1 then
        (some (x.1 ++ leBytes m ((aryStatView d k).toNat % 2 ^ 32), x.2), sf (Reg.ARY_STAT k) F.ARY_STAT_MODE 0 d)
      else if mode = 2 ∧ a < 0x10000 then (some (x.1 ++ ((identBytes d k).drop a).take m, x.2), d)
      else if unreadable d k (page / 256) then
        (some (x.1 ++ List.replicate m 0xFF, x.2), sf (Reg.ARY_RD_STAT k) F.ARY_RD_STAT_UNREADABLE_HIT 1 d)
      else
        match pageHeld d k page with
        | some r => let q := readReg r (arrayBase k + a) m d; (some (x.1 ++ q.1.1, x.2 || q.1.2), q.2)
        | none =>
          if ownSenses d k page then
            let q := readMem (arrayBase k + a) m (ownSense k page d)
            (some (x.1 ++ q.1.1, x.2 || q.1.2), q.2)
          else (none, sf (Reg.ARY_RD_STAT k) F.ARY_RD_STAT_TIMED_OUT 1 d)) (some ([], false), d)

/-- A 32-byte piece or less of a read of the hub's objects (R667): data and poison, or none for ALIGN. -/
def syncGet (master a n : Nat) (d : Dev) : Option (List Byte × Bool) × Dev :=
  let o := a % 16
  if n = 32 ∧ a % 32 = 0 then let r := readMem a 32 d; (some r.1, r.2)
  else if n = 8 ∧ o = 0 then
    let r := tryAcquire master (syncIdx a) d
    (some (leBytes 8 r.1.1, r.1.2), r.2)
  else if (n = 8 ∧ o = 8) ∨ (n = 4 ∧ a % 4 = 0) then let r := readMem a n d; (some r.1, r.2)
  else (none, d)

/-- The pieces of `[a, a + n)` that lie in one granule each: address and length. -/
def granPieces (a n : Nat) : List (Nat × Nat) :=
  (granRange a n).map (fun g => (max a (32 * g), min (a + n) (32 * g + 32) - max a (32 * g)))

/-- The local ranges that a master reads without a bus error: their data and poison, or none: ALIGN (R15, R667), and of
the array TIMEOUT (R293). -/
def ownServe (master a n : Nat) (d : Dev) : Option (List Byte × Bool) × Dev :=
  match region a with
  | .array k => winOwn k (arrOff a) n d
  | .regs => let r := regRead a n d; (r.1.map (fun bs => (bs, false)), r.2)
  | .sync =>
    (granPieces a n).foldl (fun acc p =>
      match acc.1 with
      | none => acc
      | some x =>
        match syncGet master p.1 p.2 acc.2 with
        | (some y, d) => (some (x.1 ++ y.1, x.2 || y.2), d)
        | (none, d) => (none, d)) (some ([], false), d)
  | .calRow k => (some (((calRowBytes d k).drop (a % 0x1000)).take n, false), d)
  | _ => let r := readMem a n d; (some r.1, r.2)

/-- The requests that carry an own master's access to another device: granules from a local address, at most 64 a message, a granule
written in part alone (R644, R645). -/
def ownMsgs (master dst a n : Nat) (wr : Option (List Byte × Bool)) : List Msg :=
  match wr with
  | none =>
    let m := (granRange a n).length
    (List.range ((m + 63) / 64)).map (fun i =>
      { kind := 1, dst := dst, src := 0, master := master, addr := a / 32 * 32 + 2048 * i, len := min 64 (m - 64 * i) })
  | some w =>
    (granPieces a n).map (fun p =>
      let o := p.1 % 32
      { kind := 2, dst := dst, src := 0, master := master, addr := p.1, byteEn := (2 ^ p.2 - 1) * 2 ^ o,
        data := [(padTo 32 0 (List.replicate o 0 ++ (w.1.drop (p.1 - a)).take p.2), w.2)] })

/-- Send an own master's access over a link (R27): whether every request could go. -/
def ownSend (ms : List Msg) (d : Dev) : Bool × Dev :=
  ms.foldl (fun acc m => if acc.1 then request .own m acc.2 else acc) (true, d)

/-- The end of an own master's access that outside answers, or that waited for its domain (R42): a cause, else whether with poison. -/
def ownEnd (link : Bool) (master fa : Nat) (write : Bool) (d : Dev) : Option Nat × Bool × Dev :=
  match outsideEnd link d with
  | ((some c, _), d) => (some c, false, busError c master write fa d)
  | ((none, p), d) => (none, p, d)

/-- The range that an own master's access names is refused, or waits for its domain and is served or times out (R42): an undefined
value chooses, since the model gives such a wait no time (log entry 12). -/
def ownCause (master fa a n : Nat) (write : Bool) (d : Dev) : Option Nat × Dev :=
  if region a = .regs ∧ regListed a = false then (some causeUnmapped, busError causeUnmapped master write fa d)
  else
    match accessCause d a n write with
    | none => (none, d)
    | some c =>
      if accessWaits d a n write then
        let r := takeFree d
        if r.1 % 2 = 0 then (none, r.2) else (some causeTimeout, busError causeTimeout master write fa r.2)
      else (some c, busError c master write fa d)

/-- A read by one of the device's own masters, with its bus error logged (R27 to R34). -/
def masterRead (master fa n : Nat) (d : Dev) : RdRes × Dev :=
  let out := fun (link : Bool) (d : Dev) =>
    let bs := outsideBytes n d
    match ownEnd link master fa false d with
    | (some c, _, d) => (RdRes.err c, d)
    | (none, p, d) => (.ok bs p, d)
  match localOf d fa with
  | none =>
    if fa / 2 ^ 52 % 2 = 1 then
      if hasRoute d (fa / 2 ^ 40 % 4096) then
        match ownSend (ownMsgs master (fa / 2 ^ 40 % 4096) (fa % 2 ^ 40) n none) d with
        | (true, d) => out true d
        | (false, d) => (.err causeNoRoute, d)
      else (.err causeNoRoute, busError causeNoRoute master false fa d)
    else (.err causeUnmapped, busError causeUnmapped master false fa d)
  | some a =>
    match ownCause master fa a n false d with
    | (some c, d) => (.err c, d)
    | (none, d) =>
      if region a = .pcieOut then out false d
      else
        match ownServe master a n d with
        | (some r, d) => (.ok r.1 r.2, d)
        | (none, d) =>
          let c := match region a with | .array _ => causeTimeout | _ => causeAlign
          (.err c, busError c master false fa d)

/-- Does the hub take a write of `n` bytes at an address (R667)? -/
def syncWrites (a n : Nat) : Bool := (n == 32 && a % 32 == 0) || (n == 4 && a % 4 == 0)

/-- A write of an own master that is performed at the next clock cycle (log entry 115). -/
def post (master a : Nat) (bs : List Byte) (p : Bool) (d : Dev) : Dev :=
  { d with boot := { d.boot with posted := d.boot.posted ++ [⟨master, a, true, bs.length, bs, p, none⟩] } }

/-- A write by one of the device's own masters: whether it was taken, with its bus error logged (R27 to R34). -/
def masterWrite (master fa : Nat) (bs : List Byte) (p : Bool) (d : Dev) : Bool × Dev :=
  let align := fun (d : Dev) => (false, busError causeAlign master true fa d)
  match localOf d fa with
  | none =>
    if fa / 2 ^ 52 % 2 = 1 then
      if hasRoute d (fa / 2 ^ 40 % 4096) then
        match ownSend (ownMsgs master (fa / 2 ^ 40 % 4096) (fa % 2 ^ 40) bs.length (some (bs, p))) d with
        | (true, d) =>
          match ownEnd true master fa true d with
          | (some _, _, d) => (false, d)
          | (none, _, d) => (true, d)
        | (false, d) => (false, d)
      else (false, busError causeNoRoute master true fa d)
    else (false, busError causeUnmapped master true fa d)
  | some a =>
    match ownCause master fa a bs.length true d with
    | (some _, d) => (false, d)
    | (none, d) =>
      match region a with
      | .array k => (true, winWrite master k (arrOff a) bs p d)
      | .psec _ => (true, d)
      | .pcieOut => (true, emit (.pcie (a % 2 ^ 38) true bs false) d)
      | .regs => if regsWhole a bs.length then (true, post master a bs p d) else align d
      | .sync =>
        let ps := granPieces a bs.length
        if ps.all (fun q => syncWrites q.1 q.2) then
          (true, ps.foldl (fun d q => post master q.1 ((bs.drop (q.1 - a)).take q.2) p d) d)
        else align d
      | _ => (true, writeMem a bs p d)

/-! ### Completions (R587 to R603, R612) -/

/-- Signal the interrupt source of completion ring `n` and clear its count (R612). -/
def ringSignal (n : Nat) (d : Dev) : Dev := sf (Reg.RING_STAT n) F.RING_STAT_PENDING 0 d |> raise (16 + n)

/-- Stop a ring pair after a bus error (R591): cause 1 command fetch, 2 completion write. -/
def ringStop (n cause : Nat) (d : Dev) : Dev :=
  let d := d |> sf (Reg.RING_STAT n) F.RING_STAT_STOPPED 1 |> sf (Reg.RING_STAT n) F.RING_STAT_CAUSE cause
    |> sf (Reg.RING_CFG n) F.RING_CFG_EN 0
  { d with rings := { d.rings with kept := mdel d.rings.kept n } } |> raise 112

/-- Is completion ring `n` full (R585)? -/
def cplFull (d : Dev) (n : Nat) : Bool :=
  ((rd d (Reg.RING_CPL_TAIL n)).toNat + 2 ^ 32 - (rd d (Reg.RING_CPL_HEAD n)).toNat) % 2 ^ 32
    ≥ 2 ^ gf d (Reg.RING_CFG n) F.RING_CFG_CPL_LOG2

/-- The 32 bytes of a completion entry at ring index `i` (R588, R601). -/
def cplBytes (c : Cpl) (i lg : Nat) (time : Nat) : List Byte :=
  let phase := 1 - i / 2 ^ lg % 2
  leBytes 2 c.hdr.tag ++ leBytes 1 c.status ++ leBytes 1 (c.cflags + 128 * phase + (if c.progress then 64 else 0)) ++
  leBytes 1 c.hdr.opcode ++ leBytes 1 c.hdr.handle ++ leBytes 2 c.hdr.idx ++ leBytes 8 c.r0 ++ leBytes 8 c.r1 ++
  leBytes 8 time

/-- A long operation's handle is released when its final completion is written (R606). -/
def opFinish (c : Cpl) (d : Dev) : Dev :=
  if c.progress then d
  else
    let h := c.hdr
    let d := { d with rings := { d.rings with outst := mput d.rings.outst h.ring (mgetD d.rings.outst h.ring 0 - 1) } }
    match mget d.rings.ops h.handle with
    | some e => if e.hdr = h then { d with rings := { d.rings with ops := mdel d.rings.ops h.handle } } else d
    | none => d

/-- Write one completion entry at the ring's tail as one 256-bit write, count it and signal under R612; a bus error stops
the pair and holds the completion (R587, R591). Answers whether it was written. The device has 16 ring pairs. -/
def cplWrite (c : Cpl) (d : Dev) : Bool × Dev :=
  let n := c.hdr.ring % 16
  let i := (rd d (Reg.RING_CPL_TAIL n)).toNat
  let lg := gf d (Reg.RING_CFG n) F.RING_CFG_CPL_LOG2
  let a := gf d (Reg.RING_CPL_BASE n) F.RING_CPL_BASE_ADDR + i % 2 ^ lg * 32
  match masterWrite 0x23 a (cplBytes c i lg (fastTime d)) false d with
  | (false, d) => (false, ringStop n 2 d)
  | (true, d) =>
    let d := sf (Reg.RING_CPL_TAIL n) F.RING_CPL_TAIL_INDEX (i + 1) d
    let p := min (gf d (Reg.RING_STAT n) F.RING_STAT_PENDING + 1) 255
    let d := sf (Reg.RING_STAT n) F.RING_STAT_PENDING p d
    let now := !c.progress && c.hdr.flags.testBit 1
    let d := if p ≥ gf d (Reg.RING_MOD n) F.RING_MOD_CNT || now || d.pmu.icAcc then ringSignal n d else d
    (true, opFinish c d)

/-- Write the held completions of ring `n` in order while the pair is enabled and its ring has room (R589, R593);
`fuel` bounds the entries written. -/
def cplDrain : Nat → Nat → Dev → Dev
  | 0, _, d => d
  | fuel + 1, n, d =>
    if gb d (Reg.RING_CFG n) F.RING_CFG_EN && !(cplFull d n) then
      match mgetD d.rings.held n [] with
      | [] => d
      | c :: rest =>
        match cplWrite c d with
        | (false, d) => d
        | (true, d) => cplDrain fuel n { d with rings := { d.rings with held := mput d.rings.held n rest } }
    else d

/-- A completion becomes final, or a progress entry is due: it is written behind the ring's held completions, or held
(R587, R590, R593, R603). -/
def complete (c : Cpl) (d : Dev) : Dev :=
  let n := c.hdr.ring % 16
  let l := mgetD d.rings.held n [] ++ [c]
  cplDrain l.length n { d with rings := { d.rings with held := mput d.rings.held n l } }

/-- The final completion of a command with a status and results. -/
def finish (h : CmdHdr) (status r0 r1 : Nat) (d : Dev) : Dev := complete ⟨h, status, 0, r0, r1, false⟩ d

end Sys2Proof.Machine
end

