-- ==== Sys2Proof/Machine/Fifo.lean ====
section
/-! DEFINITION. Stream FIFOs (spec 04): items, credits, release, presentation, marks, watermarks and pins. -/

namespace Sys2Proof.Machine

/-! ### Endpoints and lookup (R61) -/

def epKind (e : Nat) : Nat := e / 4096 % 16
def epInst (e : Nat) : Nat := e / 256 % 16
def epPort (e : Nat) : Nat := e % 256
def epMk (kind inst port : Nat) : Nat := kind * 4096 + inst * 256 + port

def fifoDepth (f : Fifo) : Nat := 32 * f.seg

/-- One past the last item written. -/
def fifoEnd (f : Fifo) : Nat := f.base + f.items.length

/-- The route whose producer is endpoint `e`. -/
def routeBySrc (d : Dev) (e : Nat) : Option Nat := (d.fifos.find? (fun p => p.2.src == e)).map Prod.fst

/-- Does the FIFO deliver to endpoint `e`, directly or by broadcast (R60)? -/
def feeds (f : Fifo) (e : Nat) : Bool :=
  if f.mask = 0 then f.dst == e
  else epKind e == 1 && epPort e == epPort f.dst && f.mask.testBit (epInst e)

/-- The route that feeds consumer endpoint `e`. -/
def routeByDst (d : Dev) (e : Nat) : Option Nat := (d.fifos.find? (fun p => feeds p.2 e)).map Prod.fst

/-- The key of the destination that endpoint `e` is: its engine for an engine port, else 0. -/
def dstKey (e : Nat) : Nat := if epKind e = 1 then epInst e else 0

/-- The destination keys of a binding. -/
def dstKeys (dst mask : Nat) : List Nat :=
  if mask = 0 then [dstKey dst] else (List.range 16).filter (fun k => mask.testBit k)

/-- A FIFO bound empty, every credit with the producer (R172, R206); in stall mode it grants none in advance and MARK_EN is 0 (R194). -/
def fifoNew (src dst mask seg mode pin thresh : Nat) : Fifo :=
  { src := src, dst := dst, mask := mask, seg := seg, cut := mode.testBit 0, markEn := mode.testBit 1 && !(mode.testBit 2),
    stall := mode.testBit 2, thresh := thresh, pin := pin, cred := if mode.testBit 2 then 0 else 32 * seg,
    dsts := (dstKeys dst mask).map (fun k => (k, {})) }

def setFifo (id : Nat) (f : Fifo) (d : Dev) : Dev := { d with fifos := mput d.fifos id f }

/-! ### Producers (R191, R193) -/

/-- PROD_STATE of a FIFO (R191): the state of the engine whose output port, own or shadow (R161), feeds it, else whether the producer's
domain is on. A LINK_IN route shows what the last idle item of its channel said, and 0 while the port is DOWN and not tunnelled
(R632). -/
def prodState (d : Dev) (f : Fifo) : Nat :=
  if epKind f.src = 0 then gf d (Reg.ENG_STAT (f.srcHost.getD (epInst f.src))) F.ENG_STAT_STATE
  else if epKind f.src = 4 then
    let n := epInst f.src
    if (portState d n = 5 ∧ tunnels d n = false) ∨ domOn d (5 + n) = false then 0
    else match mget (portOf d n).idle (epPort f.src) with
      | some b => (b.getD 0 0).toNat % 8
      | none => 2
  else if domOn d (if epKind f.src = 5 then 4 else 1) then 2 else 0

/-- Idle items of an empty FIFO report a producer that is killed, failed or off: PROD_LOST is set and its event raised once, until the
producer is back (R193). A stall-mode route has no idle items (R194). -/
def prodCheck (id : Nat) (d : Dev) : Dev :=
  match mget d.fifos id with
  | none => d
  | some f =>
    let s := prodState d f
    if !(s == 0 || s == 5 || s == 6) then (if f.lost then setFifo id { f with lost := false } d else d)
    else if f.items.isEmpty && !f.stall && !f.lost then
      setFifo id { f with lost := true } d |> sf (Reg.FIFO_STAT id) F.FIFO_STAT_PROD_LOST 1 |> raise 87
    else d

/-- Every FIFO looks at its producer again (R193). -/
def prodCheckAll (d : Dev) : Dev := forEach (d.fifos.map Prod.fst) prodCheck d

/-- Items written and not yet presentable (R191). -/
def fifoWaiting (f : Fifo) : Nat := fifoEnd f - f.rel

/-! ### Watermarks and pins (R200 to R205) -/

/-- The OR of ABOVE over the routes bound to pin `p`, 1 to 8 (R201). -/
def pinOr (d : Dev) (p : Nat) : Bool :=
  d.fifos.any (fun q => q.2.pin == p && gb d (Reg.FIFO_STAT q.1) F.FIFO_STAT_ABOVE)

/-- Drive pin `p`: asserted while the OR holds; with a hold of 0 ns it falls with the OR, else at the hold's expiry (R202). -/
def pinDrive (p : Nat) (d : Dev) : Dev :=
  if p = 0 then d
  else if pinOr d p || d.pinForce then sf Reg.FIFO_PIN_STAT ⟨p - 1, 1⟩ 1 d
  else if gf d Reg.FIFO_PIN_HOLD F.FIFO_PIN_HOLD_HOLD_NS = 0 then sf Reg.FIFO_PIN_STAT ⟨p - 1, 1⟩ 0 d
  else d

/-- FIFO_PIN_HOLD has passed since the OR of pin `p` fell (R202). -/
def pinHoldExpiry (p : Nat) (d : Dev) : Dev :=
  if p = 0 ∨ p > 8 ∨ pinOr d p ∨ d.pinForce then d else sf Reg.FIFO_PIN_STAT ⟨p - 1, 1⟩ 0 d

/-- Drive every pin asserted, or hand them back to R201 (R205, R209). -/
def pinForceAll (on : Bool) (d : Dev) : Dev :=
  let d := { d with pinForce := on }
  if on then sf Reg.FIFO_PIN_STAT ⟨0, 8⟩ 0xFF d else forN 8 (fun i d => pinDrive (i + 1) d) d

/-- After a change of occupancy: MAXOCC, and ABOVE against the levels in force (R200, R204). -/
def fifoLevel (id : Nat) (d : Dev) : Dev :=
  match mget d.fifos id with
  | none => d
  | some f =>
    let o := fifoOcc f
    let d := if o > gf d (Reg.FIFO_MAXOCC id) F.FIFO_MAXOCC_MAXOCC then
        sf (Reg.FIFO_MAXOCC id) F.FIFO_MAXOCC_MAXOCC o d else d
    let d := if o ≥ gf d (Reg.FIFO_WM id) F.FIFO_WM_WM_HIGH then sf (Reg.FIFO_STAT id) F.FIFO_STAT_ABOVE 1 d
      else if o ≤ gf d (Reg.FIFO_WM id) F.FIFO_WM_WM_LOW then sf (Reg.FIFO_STAT id) F.FIFO_STAT_ABOVE 0 d
      else d
    pinDrive f.pin d

/-! ### Writing items (R173, R179 to R181, R194) -/

/-- May the producer write one item now? -/
def fifoCanWrite (f : Fifo) : Bool :=
  if f.stall then decide (fifoOcc f < fifoDepth f) else decide (0 < f.cred)

/-- Is every slot held under one destination's mark whose reads have reached the last item, its packet not ended (R187)? Such a
destination waits for a further item. -/
def markFull (f : Fifo) : Bool :=
  decide (fifoOcc f = fifoDepth f) &&
    f.dsts.any (fun p => p.2.mark == some f.base && p.2.rp == fifoEnd f && !p.2.atEnd)

/-- Set MARK_FULL and raise its event once. -/
def markFullCheck (id : Nat) (d : Dev) : Dev :=
  match mget d.fifos id with
  | some f =>
    if markFull f && !(gb d (Reg.FIFO_STAT id) F.FIFO_STAT_MARK_FULL) then
      sf (Reg.FIFO_STAT id) F.FIFO_STAT_MARK_FULL 1 d |> raise 85
    else d
  | none => d

/-- A producer writes one item with one credit: the release of its packet, the counters, and the flip mask of R548. -/
def fifoPut (id : Nat) (it : Item) (d : Dev) : Dev :=
  match mget d.fifos id with
  | none => d
  | some f =>
    let armed := gb d Reg.INTG_FLIP F.INTG_FLIP_ARM && gf d Reg.INTG_FLIP F.INTG_FLIP_STORE == 0x13
    let v0 := gf d Reg.INTG_FLIP F.INTG_FLIP_VAL0
    let v1 := gf d Reg.INTG_FLIP F.INTG_FLIP_VAL1
    let e : ErrPat := (if v0 = 0 then [] else [(gf d Reg.INTG_FLIP F.INTG_FLIP_POS0, v0)]) ++
      (if v1 = 0 then [] else [(gf d Reg.INTG_FLIP F.INTG_FLIP_POS1, v1)])
    let fp := armed && gb d Reg.INTG_FLIP F.INTG_FLIP_POISON
    let it := { it with err := if armed then e else [], poison := it.poison || fp, cnt := false }
    let d := whenB armed (sf Reg.INTG_FLIP F.INTG_FLIP_ARM 0) d
    let d := whenB fp (ueEntry 0x13 5 0) d
    let n := f.pkt + 1
    let full := fifoOcc f + 1 = fifoDepth f
    let thr := if f.stall then 1 else f.thresh
    let cut := f.cut || f.stall
    let ovr := !cut && decide (n = fifoDepth f) && decide full && !it.fin && !f.open_
    let opn := f.open_ || it.fin || (cut && decide (n ≥ thr)) || ovr
    let en := fifoEnd f + 1
    let rel := if opn then en else f.rel
    let f := { f with items := f.items ++ [it], cred := if f.stall then f.cred else f.cred - 1, rel := rel,
                      pkt := if it.fin then 0 else n, open_ := opn && !it.fin }
    let d := setFifo id f d
    let d := whenB ovr (fun d => sf (Reg.FIFO_STAT id) F.FIFO_STAT_SAF_OVR 1 d |> raise 84) d
    let d := whenB it.fin (fun d =>
      sf (Reg.FIFO_PKT id) F.FIFO_PKT_PKT_IN (gf d (Reg.FIFO_PKT id) F.FIFO_PKT_PKT_IN + 1) d) d
    let c := (rd d (Reg.FIFO_ITEMS id)).toNat
    let d := cntAdd64 (Reg.FIFO_ITEMS id) 1 d
    let d := whenB (decide (c = 2 ^ 64 - 2)) (raise 88) d
    fifoLevel id d |> markFullCheck id

/-- Write waiting items of the producer while it may (R173); `fuel` bounds them. -/
def fifoDrain : Nat → Nat → Dev → Dev
  | 0, _, d => d
  | fuel + 1, id, d =>
    match mget d.fifos id with
    | none => d
    | some f =>
      match f.backlog with
      | [] => d
      | it :: rest =>
        if fifoCanWrite f then fifoDrain fuel id (fifoPut id it (setFifo id { f with backlog := rest } d)) else d

/-- A producer hands over items: written as credits allow, the rest waits with the producer. -/
def fifoSend (id : Nat) (its : List Item) (d : Dev) : Dev :=
  match mget d.fifos id with
  | none => d
  | some f =>
    let l := f.backlog ++ its
    fifoDrain l.length id (setFifo id { f with backlog := l } d)

/-- A slot freed two cycles ago is granted as a credit (R175): `n` of them. -/
def creditGrant (id n : Nat) (d : Dev) : Dev :=
  match mget d.fifos id with
  | none => d
  | some f =>
    let m := min n f.transit
    fifoDrain f.backlog.length id (setFifo id { f with cred := f.cred + m, transit := f.transit - m } d)

/-! ### Freeing slots (R175, R178, R185) -/

/-- The majority of three copies of a flag of an item: `pos` is the symbol that holds their flips (R170). -/
def flagRead (it : Item) (pos : Nat) (v : Bool) : Bool :=
  let flips := it.err.foldl (fun m p => if p.1 = pos then m ^^^ p.2 else m) 0
  v != decide (2 ≤ countBelow 3 (fun i => flips.testBit i))

/-- END of an item as the route switch reads it (R170). -/
def itemEnd (it : Item) : Bool := flagRead it 36 it.fin

/-- After a destination freed slots: free what every destination has freed. -/
def fifoFree (id : Nat) (d : Dev) : Dev :=
  match mget d.fifos id with
  | none => d
  | some f =>
    let b := f.dsts.foldl (fun m p => min m p.2.freed) (fifoEnd f)
    let n := b - f.base
    if n = 0 then d
    else
      let ends := ((f.items.take n).filter itemEnd).length
      let f := { f with base := b, items := f.items.drop n, transit := if f.stall then 0 else f.transit + n }
      let d := setFifo id f d
      let d := sf (Reg.FIFO_PKT id) F.FIFO_PKT_PKT_OUT (gf d (Reg.FIFO_PKT id) F.FIFO_PKT_PKT_OUT + ends) d
      let d := fifoLevel id d
      (if f.stall then fifoDrain f.backlog.length id d else d) |> prodCheck id

def setDst (id k : Nat) (x : FDst) (d : Dev) : Dev :=
  match mget d.fifos id with
  | some f => setFifo id { f with dsts := mput f.dsts k x } d
  | none => d

/-- A destination after reading the first `n` of the items shown to it: without a mark their slots are freed (R183). -/
def dstRead (n : Nat) (x : FDst) : FDst :=
  let l := x.shown.take n
  let r := x.rp + l.length
  { x with shown := x.shown.drop n, rp := r, last := r, hi := max x.hi r, freed := if x.mark.isNone then max x.freed r else x.freed,
           atEnd := if l.isEmpty then x.atEnd else (l.getLast?.map Item.fin).getD false }

/-- A destination reads `n` presented items; a full FIFO all of whose slots it holds then waits (R183, R187). -/
def fifoRead (id k n : Nat) (d : Dev) : Dev :=
  match mget d.fifos id with
  | none => d
  | some f =>
    match mget f.dsts k with
    | none => d
    | some x => fifoFree id (setDst id k (dstRead n x) d) |> markFullCheck id

/-! ### Mark, rewind, release (R183 to R189) -/

/-- RELEASE (R185, R188): every slot up to and including the item read last is freed, an end mark in it counts, and what follows it is
presented next. -/
def fifoRelease (id k : Nat) (d : Dev) : Dev :=
  match mget d.fifos id with
  | none => d
  | some f =>
    match mget f.dsts k with
    | none => d
    | some x =>
      if x.mark = none then d
      else
        let fin := ((f.items[x.last - 1 - f.base]?).map itemEnd).getD x.atEnd
        let x := { x with mark := none, rew := 0, freed := max x.freed x.last, hi := max x.rp x.last, atEnd := fin,
                          shown := x.shown.drop (x.last - x.rp), rp := max x.rp x.last, pres := max x.pres x.last }
        fifoFree id (setDst id k x d)

/-- MARK with a read of the next presented item (R183). A mark held before frees the slots before the new position (R186). -/
def fifoMark (id k : Nat) (d : Dev) : Dev :=
  match mget d.fifos id with
  | none => d
  | some f =>
    match mget f.dsts k with
    | none => d
    | some x =>
      if f.markEn && !x.shown.isEmpty then
        let old := { x with mark := none, freed := if x.mark.isNone then x.freed else max x.freed x.rp }
        let new := dstRead 1 { old with mark := some x.rp, rew := 0, hi := x.rp, lead := x.shown.head? }
        fifoFree id (setDst id k new d) |> markFullCheck id
      else d

/-- REWIND (R184): the marked item and those after it are presented and read again. -/
def fifoRewind (id k : Nat) (d : Dev) : Dev :=
  match mget d.fifos id with
  | none => d
  | some f =>
    match mget f.dsts k with
    | none => d
    | some x =>
      match x.mark with
      | some m => setDst id k { x with rp := m, pres := m, shown := [], lead := none, atEnd := false, rew := x.rew + 1 } d
      | none => d

/-! ### Presentation (R174, R179, R197, R198) -/

/-- Does PARITY fail: do the errors change an odd number of bits of some 64-bit quarter of DATA and its parity bit (R169, R196)? DATA
is symbols 3 to 34 of the codeword, PARITY symbol 35. -/
def parityFails (e : ErrPat) : Bool :=
  (List.range 4).any (fun q =>
    (e.foldl (fun n p =>
      if 3 + 8 * q ≤ p.1 ∧ p.1 < 11 + 8 * q then n + countBelow 8 (fun i => p.2.testBit i)
      else if p.1 = 35 then n + bit (p.2.testBit q) else n) 0) % 2 == 1)

/-- Count in a FIFO_ERR field that sticks, with OVF and the event (R211). -/
def fifoErrCnt (id : Nat) (f : Fld) (d : Dev) : Dev :=
  let top := 2 ^ f.len - 1
  let c := gf d (Reg.FIFO_ERR id) f
  if c = top then d
  else
    let d := sf (Reg.FIFO_ERR id) f (c + 1) d
    if c + 1 = top then sf (Reg.FIFO_ERR id) F.FIFO_ERR_OVF 1 d |> raise 88 else d

/-- An item as a check point delivers it (R196, R197): the flags by majority, DATA as it stands or, where PARITY fails, as the granule
code decodes it; and the counts of that check. The slot keeps what it holds (R526). -/
def itemCheck (id : Nat) (it : Item) (d : Dev) : Item × Dev :=
  let p := flagRead it 38 it.poison
  let r : (List Byte × Bool) × Dev :=
    if parityFails it.err && !p then
      match granDecode it.data (it.err.filter (fun x => x.1 < 35)) with
      | (.corrected l _, bs) => ((bs, p), fifoErrCnt id F.FIFO_ERR_CE d |> ceLog 0x13 (32 * id) l)
      | (.uncorrectable, bs) => ((bs, true), ueDecode 0x13 0 d)
      | (.clean, bs) => ((bs, p), d)
    else ((((codeword it.data it.err).drop 3).map (BitVec.ofNat 8), p), d)
  ({ data := r.1.1, fin := itemEnd it, empty := flagRead it 37 it.empty, poison := r.1.2 }, r.2)

/-- Present the next released item to destination `k`, with the errors `upset` that have struck its slot (R174, R189, R198). -/
def fifoPresent (id k : Nat) (upset : ErrPat) (d : Dev) : Option Item × Dev :=
  match mget d.fifos id with
  | none => (none, d)
  | some f =>
    match mget f.dsts k with
    | none => (none, d)
    | some x =>
      if x.pres < f.rel then
        match f.items[x.pres - f.base]? with
        | none => (none, d)
        | some it =>
          let it := { it with err := it.err ++ upset }
          let r := itemCheck id it d
          let f := { f with items := f.items.set (x.pres - f.base) { it with cnt := it.cnt || r.1.poison },
                            dsts := mput f.dsts k { x with pres := x.pres + 1, shown := x.shown ++ [r.1], starved := false } }
          (some r.1, whenB (r.1.poison && !it.cnt) (fifoErrCnt id F.FIFO_ERR_POISON) (setFifo id f r.2))
      else (none, d)

/-! ### Killed engines and lost staging (R190, R208) -/

/-- Change the destinations that are input ports of engine `h`, own or shadow (R161). -/
def portsOf (h : Nat) (g : Nat → Nat → FDst → Dev → Dev) (d : Dev) : Dev :=
  d.fifos.foldl (fun d p =>
    if epKind p.2.dst = 1 then
      p.2.dsts.foldl (fun d x => if mgetD p.2.dstHosts x.1 x.1 = h then g p.1 x.1 x.2 d else d) d
    else d) d

/-- KILL frees the slots that the engine's ports hold under marks (R190). -/
def killMarks (h : Nat) (d : Dev) : Dev :=
  portsOf h (fun id k x d =>
    if x.mark = none then d
    else fifoFree id (setDst id k { x with mark := none, rew := 0, lead := none, freed := max x.freed x.hi,
                                           shown := x.shown.drop (x.hi - x.rp), rp := x.hi, pres := max x.pres x.hi } d)) d

/-- The two items in the staging register of each port are lost when PD_Ek turns off (R167, R208). -/
def stagingLost (h : Nat) (d : Dev) : Dev := portsOf h (fun id k x d => if x.shown.isEmpty then d else fifoRead id k 2 d) d

/-- A stage has taken all of a batch from one of its ports: the port goes on to the next batch (R119). -/
def portNext (id k : Nat) (d : Dev) : Dev :=
  match (mget d.fifos id).bind (fun f => mget f.dsts k) with
  | some x => setDst id k { x with atEnd := false, starved := false } d
  | none => d

/-- The end mark goes onto the item that a producer wrote last (R120) while no destination has been shown it, else it follows as an empty
packet (log entry 35). -/
def fifoEndLast (id : Nat) (d : Dev) : Dev :=
  match mget d.fifos id with
  | none => d
  | some f =>
    let blank : Item := { data := List.replicate 32 0, fin := true, empty := true, poison := false }
    match f.backlog.reverse, f.items.reverse with
    | it :: l, _ => setFifo id { f with backlog := (({ it with fin := true } : Item) :: l).reverse } d
    | [], it :: l =>
      if it.fin || f.dsts.any (fun p => decide (fifoEnd f ≤ p.2.pres)) then fifoSend id [blank] d
      else
        setFifo id { f with items := (({ it with fin := true } : Item) :: l).reverse, rel := fifoEnd f, pkt := 0, open_ := false } d
          |> sf (Reg.FIFO_PKT id) F.FIFO_PKT_PKT_IN (gf d (Reg.FIFO_PKT id) F.FIFO_PKT_PKT_IN + 1)
    | [], [] => fifoSend id [blank] d

/-! ### FIFO_WM (R204) -/

/-- A write to FIFO_WM of route `id`. -/
def fifoWm (id v : Nat) (d : Dev) : Dev :=
  match mget d.fifos id with
  | none => d
  | some f =>
    let x := BitVec.ofNat 64 v
    let hi := fldGet x F.FIFO_WM_WM_HIGH
    let lo := fldGet x F.FIFO_WM_WM_LOW
    if lo ≥ hi ∨ hi > fifoDepth f ∨ hi = 0 then sf (Reg.FIFO_STAT id) F.FIFO_STAT_WM_REJ 1 d
    else d |> sf (Reg.FIFO_WM id) F.FIFO_WM_WM_HIGH hi |> sf (Reg.FIFO_WM id) F.FIFO_WM_WM_LOW lo

/-! ### Binding (R172, R206, R207) -/

/-- Unbind every route: its windows return to reset values. -/
def fifoRegsReset (id : Nat) (d : Dev) : Dev :=
  d |> wr (Reg.FIFO_WM id) 0 |> wr (Reg.FIFO_STAT id) 0 |> wr (Reg.FIFO_PKT id) 0 |> wr (Reg.FIFO_ERR id) 0
    |> wr (Reg.FIFO_MAXOCC id) 0 |> wr (Reg.FIFO_ITEMS id) 0

end Sys2Proof.Machine
end

