-- ==== Sys2Proof/Machine/Integ.lean ====
section
/-! DEFINITION. The scrubber and the flip mask (spec 13, R542 to R550). -/

namespace Sys2Proof.Machine

/-- Does R520 name the store? -/
def storeKnown (st : Nat) : Bool := decide (st ≤ 0x16) || isArrayStore st || (decide (0x30 ≤ st) && decide (st ≤ 0x33))

/-- The stores that R520 marks as scrubbed. -/
def storeScrubbed (st : Nat) : Bool := decide (st ≤ 0x16) && st != 0x13

/-- The granules of a scrubbed store (R520). -/
def storeGrans (d : Dev) (st : Nat) : Nat :=
  if st < 16 then 131072
  else match st with
    | 0x10 => 524288
    | 0x11 => 8192
    | 0x12 => 270336
    | 0x14 => dramTop d / 32
    | 0x15 => 32768
    | 0x16 => 16384
    | _ => 0

/-- The key of granule `i` of a store in the tables of marks and symbol errors. -/
def granKey (st i : Nat) : Nat := if st = 0x12 ∨ st = 0x16 then 2 ^ 40 + 2 ^ 32 * st + i else storeBase st / 32 + i

/-- Can the scrubber read a store now (R546)? -/
def storeOn (d : Dev) (st : Nat) : Bool :=
  if st < 16 then domOn d (16 + st)
  else if st = 0x14 then domOn d 3 && gf d Reg.PMU_STAT F.PMU_STAT_STATE != 3
  else domOn d 1

/-- Granule `i` of a store that has no local address is read by the scrubber: only its symbol errors show. -/
def scrubCell (st i : Nat) (d : Dev) : Dev :=
  let g := granKey st i
  if poisoned d g then d
  else
    match granDecode (List.replicate 32 0) (errOf d g) with
    | (.clean, _) => d
    | (.corrected l _, _) => errSet g [] (ceLog st (32 * i) l d)
    | (.uncorrectable, _) => markG g (ueDecode st (32 * i) d)

/-- SCRUB_READ of the next granule of a store (R542 to R546); `upset` is what has struck its stored symbols since they were last
read. -/
def scrubRead (st : Nat) (upset : ErrPat) (d : Dev) : Dev :=
  if !(storeScrubbed st) || !((rd d Reg.INTG_SCRUB_EN).getLsbD st) || storeGrans d st == 0 then d
  else if !(storeOn d st) then
    if st = 0x14 && domOn d 3 then d
    else intgUpd st (fun s => { s with pos := 0, lapStart := fastTime d, slow := false }) d
  else
    let i := (intgOf d st).pos
    let g := granKey st i
    let d := intgUpd st (fun s => { s with begun := true }) (errSet g (errOf d g ++ upset) d)
    let d := if st = 0x12 ∨ st = 0x16 then scrubCell st i d else (readGran true g d).2
    if i + 1 < storeGrans d st then intgUpd st (fun s => { s with pos := i + 1 }) d
    else
      let now := fastTime d
      intgUpd st (fun s => { s with pos := 0, lapUs := min ((now - s.lapStart) * 10 / 384) 0xFFFFFFFF, lapStart := now, slow := false }) d

/-- A lap has run longer than the store's INTG_LAP_TMO: the event is raised once for the lap (R545); a store that is not read has no
lap that runs (R542, R546). -/
def scrubSlow (st : Nat) (d : Dev) : Dev :=
  if (intgOf d st).slow || !(storeScrubbed st) || !((rd d Reg.INTG_SCRUB_EN).getLsbD st) || !(storeOn d st) then d else raise 110 (intgUpd st (fun s => { s with slow := true }) d)

/-- A write of INTG_FLIP (R547, R550): ARM is set only with positions and a store that exist. -/
def flipWrite (v : BitVec 64) (d : Dev) : Dev :=
  let f := fldGet v
  let bad := (decide (f F.INTG_FLIP_POS0 > 34) && f F.INTG_FLIP_VAL0 != 0) ||
    (decide (f F.INTG_FLIP_POS1 > 34) && f F.INTG_FLIP_VAL1 != 0) || !(storeKnown (f F.INTG_FLIP_STORE))
  let put := fun (x : Fld) d => sf Reg.INTG_FLIP x (f x) d
  let d := d |> put F.INTG_FLIP_POISON |> put F.INTG_FLIP_STORE |> put F.INTG_FLIP_POS0 |> put F.INTG_FLIP_VAL0
    |> put F.INTG_FLIP_POS1 |> put F.INTG_FLIP_VAL1
  if f F.INTG_FLIP_ARM = 1 ∧ bad = true then d else put F.INTG_FLIP_ARM d

end Sys2Proof.Machine
end

