-- ==== Sys2Proof/Machine/ImgCfg.lean ====
section
/-! DEFINITION. The configuration that an image slot holds (spec 02, R55 to R72): sections read as routes, stage
descriptors, pipelines, quantiser entries, synchronisation values and engine settings. -/

namespace Sys2Proof.Machine

/-! ### Section codes (R58) -/

def secRoutes : Nat := 1
def secStages : Nat := 2
def secPipes : Nat := 3
def secQz : Nat := 4
def secSync : Nat := 5
def secConst : Nat := 7
def secCompat : Nat := 8

/-- Most entries of a section type. -/
def secMax (t : Nat) : Nat :=
  match t with
  | 1 => 1024 | 2 => 512 | 3 => 64 | 4 => 64 | 5 => 65536 | 6 => 1 | _ => 0

/-- Is the section type per engine? -/
def secPerEngine (t : Nat) : Bool := t == 2 || t == 4 || t == 6 || t == 7

/-! ### Entries -/

/-- A route entry (R60). -/
structure Route where
  id : Nat
  src : Nat
  dst : Nat
  mask : Nat
  seg : Nat
  mode : Nat
  pin : Nat
  thresh : Nat
  hi : Nat
  lo : Nat
deriving DecidableEq, Repr

def routeParse (b : List Byte) : Route :=
  { id := fieldAt b 0 2, src := fieldAt b 2 2, dst := fieldAt b 4 2, mask := fieldAt b 6 2, seg := fieldAt b 8 1,
    mode := fieldAt b 9 1, pin := fieldAt b 10 1, thresh := fieldAt b 12 2, hi := fieldAt b 14 2, lo := fieldAt b 16 2 }

/-- An address generator (R64). -/
structure Ag where
  base : Nat
  stride : List Int
  len : Nat
  use : Nat
deriving DecidableEq, Repr

def agParse (b : List Byte) : Ag :=
  { base := fieldAt b 0 8, stride := (List.range 4).map (fun i => sgn32 (fieldAt b (8 + 4 * i) 4)),
    len := fieldAt b 24 4, use := fieldAt b 28 1 % 16 }
where
  /-- A signed 32-bit stride. -/
  sgn32 (v : Nat) : Int := if v < 2 ^ 31 then v else (v : Int) - 2 ^ 32

/-- A WAIT: object, value, condition (R65). -/
structure Wait where
  obj : Nat
  value : Nat
  cond : Nat
deriving DecidableEq, Repr

/-- A SIGNAL: object, argument, operation (R65). -/
structure Sig where
  obj : Nat
  arg : Nat
  op : Nat
deriving DecidableEq, Repr

/-- A stage descriptor (R63). -/
structure Stg where
  id : Nat
  pipe : Nat
  flags : Nat
  mx : Nat
  vx : Nat
  qz : Nat
  wsrc : Nat
  inTok : List Nat
  outCred : List Nat
  loop : List Nat
  ags : List Ag
  waits : List Wait
  sigs : List Sig
  look : Nat
  eps : Nat
deriving DecidableEq, Repr

def stgParse (b : List Byte) : Stg :=
  { id := fieldAt b 0 2, pipe := fieldAt b 2 1, flags := fieldAt b 3 1, mx := fieldAt b 4 1, vx := fieldAt b 5 1,
    qz := fieldAt b 6 1, wsrc := fieldAt b 7 1,
    inTok := (List.range 8).map (fun i => fieldAt b (8 + 2 * i) 2),
    outCred := (List.range 8).map (fun i => fieldAt b (0x18 + 2 * i) 2),
    loop := (List.range 4).map (fun i => fieldAt b (0x28 + 4 * i) 4),
    ags := (List.range 4).map (fun i => agParse ((b.drop (0x38 + 32 * i)).take 32)),
    waits := (List.range 2).map (fun i =>
      ⟨fieldAt b (0xB8 + 12 * i) 4, fieldAt b (0xBC + 12 * i) 4, fieldAt b (0xC0 + 12 * i) 1⟩),
    sigs := (List.range 2).map (fun i =>
      ⟨fieldAt b (0xD0 + 12 * i) 4, fieldAt b (0xD4 + 12 * i) 4, fieldAt b (0xD8 + 12 * i) 1⟩),
    look := fieldAt b 0xE8 2, eps := fieldAt b 0xEC 4 }

def Stg.valid (s : Stg) : Bool := s.flags.testBit 0
def Stg.passEob (s : Stg) : Bool := s.flags.testBit 1

/-- A pipeline entry (R68). -/
structure PipeCfg where
  id : Nat
  maxBatch : Nat
  slot : Nat
  flags : Nat
  entry : List Nat
  exit : Nat
deriving DecidableEq, Repr

def pipeParse (b : List Byte) : PipeCfg :=
  { id := fieldAt b 0 1, maxBatch := fieldAt b 1 1, slot := fieldAt b 2 1, flags := fieldAt b 3 1,
    entry := (List.range 4).map (fun i => fieldAt b (4 + 2 * i) 2), exit := fieldAt b 12 2 }

/-- A quantiser entry (R69). -/
structure QzCfg where
  id : Nat
  mode : Nat
  fmt : Nat
  port : Nat
  static : Nat
  out : Nat
  thresh : Nat
  window : Nat
  rowLen : Nat
deriving DecidableEq, Repr

def qzParse (b : List Byte) : QzCfg :=
  { id := fieldAt b 0 1, mode := fieldAt b 1 1, fmt := fieldAt b 2 1, port := fieldAt b 3 1, static := fieldAt b 4 4,
    out := fieldAt b 8 4, thresh := fieldAt b 12 2, window := fieldAt b 16 4, rowLen := fieldAt b 20 4 }

/-- A SYNC_INIT entry (R70). -/
structure SyncInit where
  obj : Nat
  type : Nat
  value : Nat
  param : Nat
deriving DecidableEq, Repr

def syncParse (b : List Byte) : SyncInit :=
  ⟨fieldAt b 0 2, fieldAt b 2 1, fieldAt b 4 4, fieldAt b 8 4⟩

/-! ### Slots -/

def setSlotState (s st : Nat) (d : Dev) : Dev :=
  if s = 0 then sf Reg.IMG_SLOT_STAT F.IMG_SLOT_STAT_A_STATE st d
  else sf Reg.IMG_SLOT_STAT F.IMG_SLOT_STAT_B_STATE st d

/-- The standby slot (R102): A until the first activation, then the one that is not ACTIVE. -/
def standbySlot (d : Dev) : Nat :=
  match activeSlot d with
  | some s => 1 - s
  | none => if d.img.running then 1 - gf d Reg.IMG_SLOT_STAT F.IMG_SLOT_STAT_ACTIVE else 0

/-- The epoch of a slot. -/
def slotEpoch (d : Dev) (s : Nat) : Nat :=
  if s = 0 then (rd d Reg.IMG_EPOCH_A).toNat else (rd d Reg.IMG_EPOCH_B).toNat

/-- The active epoch, 0 with none. -/
def activeEpoch (d : Dev) : Nat := match activeSlot d with | some s => slotEpoch d s | none => 0

/-! ### Reading a configuration -/

def cfgRoutes (c : ImgSlot) : List Route := (secEntries c.sects secRoutes 0xFF).map routeParse
def cfgStages (c : ImgSlot) (k : Nat) : List Stg := (secEntries c.sects secStages k).map stgParse
def cfgPipes (c : ImgSlot) : List PipeCfg := (secEntries c.sects secPipes 0xFF).map pipeParse
def cfgQz (c : ImgSlot) (k : Nat) : List QzCfg := (secEntries c.sects secQz k).map qzParse
def cfgSync (c : ImgSlot) : List SyncInit := (secEntries c.sects secSync 0xFF).map syncParse
/-- Stage `id` of engine `k` in the active image, if it is there and valid. -/
def stageOf (d : Dev) (k id : Nat) : Option Stg := (cfgStages (activeCfg d) k).find? (fun s => s.id == id && s.valid)

/-- Pipeline `p` of the active image. -/
def pipeOf (d : Dev) (p : Nat) : Option PipeCfg := (cfgPipes (activeCfg d)).find? (fun q => q.id == p)

/-- Quantiser entry `n` of engine `k`. -/
def qzOf (d : Dev) (k n : Nat) : Option QzCfg := (cfgQz (activeCfg d) k).find? (fun q => q.id == n)

/-- The valid stages of the active image, with their engines. -/
def allStages (c : ImgSlot) : List (Nat × Stg) :=
  (List.range 16).flatMap (fun k => ((cfgStages c k).filter Stg.valid).map (fun s => (k, s)))

/-- The engine that runs stage `id` of bank `k`: its host after relocation, else its own (R79, R161). -/
def hostOf (d : Dev) (k id : Nat) : Nat :=
  match mget d.engs.hosts (512 * k + id) with
  | some h => h
  | none => mgetD (activeCfg d).hosts (512 * k + id) k

/-- The barrier or synchronisation reference of R65: whether it is on this device, and its object number. -/
def objLocal (d : Dev) (obj : Nat) : Bool :=
  obj / 2 ^ 28 % 2 == 0 || obj / 65536 % 4096 == gf d Reg.SYS_NODE F.SYS_NODE_DEV_ID
def objNum (obj : Nat) : Nat := obj % 65536
def objDev (obj : Nat) : Nat := obj / 65536 % 4096

/-! ### What a stage works on (R137 to R139, R243) -/

def agAt (s : Stg) (i : Nat) : Ag := s.ags.getD i ⟨0, [], 0, 0⟩

/-- Generators of the stage with a use. -/
def agsOf (s : Stg) (u : Nat) : List Nat := (List.range 4).filter (fun i => (agAt s i).use == u)

/-- The port of the scale lane, if the stage's entry names one (R243). -/
def scaleOf (q : Option QzCfg) : Option Nat := q.bind (fun q => if q.port < 8 then some q.port else none)

/-- Input ports with data, lowest first. -/
def dataOf (s : Stg) (q : Option QzCfg) : List Nat := (List.range 8).filter (fun i => s.inTok.getD i 0 != 0 && scaleOf q != some i)

/-- Passes of a function over its row (R137, R246). -/
def vxPasses (s : Stg) (q : Option QzCfg) : Nat :=
  match s.vx with
  | 0x03 => if q.any (fun c => c.mode != 0) then 2 else 1
  | 0x0E => 3
  | 0x0F => 2
  | 0x10 => 2
  | _ => 1

/-- The loop level on which a stage reissues a USE 2 generator over its row (R138): the innermost level that keeps the generator where it
is, if it runs once per pass (log entry 40). -/
def agPassLevel (s : Stg) (q : Option QzCfg) : Option Nat :=
  match (dataOf s q).isEmpty, (agsOf s 2).head? with
  | true, some i =>
    ((List.range 4).find? (fun l => decide (1 < s.loop.getD l 1) && (agAt s i).stride.getD l 0 == 0)).filter
      (fun l => decide (1 < vxPasses s q) && s.loop.getD l 1 == vxPasses s q)
  | _, _ => none

/-- The pass that the firing at a position makes over a row that a generator reissues. -/
def agPass (s : Stg) (q : Option QzCfg) (pos : List Nat) : Option Nat := (agPassLevel s q).map (fun l => pos.getD l 0)

/-- The binary16 elements of a row that a USE 2 generator reads. -/
def agRow (s : Stg) (q : Option QzCfg) : Nat :=
  (s.loop.take ((agPassLevel s q).getD 0)).foldl (fun a t => a * max t 1) (((agsOf s 2).head?.map (fun i => (agAt s i).len / 2)).getD 0)

/-! ### Stages as they run -/

/-- The key of stage `id` of bank `k`. -/
def stKey (k id : Nat) : Nat := 512 * k + id
def stageRt (d : Dev) (key : Nat) : StageRt := mgetD d.engs.stages key {}
def stageUpd (key : Nat) (f : StageRt → StageRt) (d : Dev) : Dev :=
  { d with engs := { d.engs with stages := mupd d.engs.stages key {} f } }

/-- Row `t` of a stage, and a change of it. -/
def rowRt (d : Dev) (key t : Nat) : RowRt := mgetD (stageRt d key).rows t {}
def rowPut (key t : Nat) (r : RowRt) (d : Dev) : Dev := stageUpd key (fun rt => { rt with rows := mput rt.rows t r }) d
def rowDel (key t : Nat) (d : Dev) : Dev := stageUpd key (fun rt => { rt with rows := mdel rt.rows t }) d

end Sys2Proof.Machine
end

