-- ==== Sys2Proof/Machine/Tm.lean ====
section
/-! DEFINITION. The tier manager (spec 11): object entries, translation, operations, write-back, windows and tails, hot
promotion and forced captures. -/

namespace Sys2Proof.Machine

/-! ### Frames and objects -/

def setTm (t : Tm) (d : Dev) : Dev := { d with tm := t }
def tmPut (n : Nat) (o : TmObj) (d : Dev) : Dev := setTm { d.tm with objs := mput d.tm.objs n o } d

/-- The dirty-bit key of a frame (R459). -/
def dirtyKey (tier eng f : Nat) : Nat := if tier = 1 then f else 1024 + 256 * eng + f

/-- Is object tile `t` mapped up (R445)? -/
def mappedUp (o : TmObj) (t : Nat) : Bool :=
  o.upTier != 0 && decide (o.upFirst ≤ t) && decide (t < o.upFirst + o.frontier)

/-- The frame of tile `t` in the placement. -/
def tileFrame (o : TmObj) (t : Nat) : Nat := o.upFrame + t % o.upCount

/-- The local address of object tile `t` (R445). -/
def tileAddr (o : TmObj) (t : Nat) : Nat :=
  if mappedUp o t then frameAddr o.upTier o.upEng (tileFrame o t) else o.back + 16384 * t

def isDirty (d : Dev) (o : TmObj) (t : Nat) : Bool :=
  mappedUp o t && mhas d.tm.dirty (dirtyKey o.upTier o.upEng (tileFrame o t))

def setDirty (o : TmObj) (t : Nat) (b : Bool) (d : Dev) : Dev :=
  let k := dirtyKey o.upTier o.upEng (tileFrame o t)
  setTm { d.tm with dirty := if b then mput d.tm.dirty k () else mdel d.tm.dirty k } d

/-- Is `[f, f + n)` free and allowed? -/
def runFree (d : Dev) (tier eng f n : Nat) : Bool :=
  decide (f + n ≤ frameLimit d tier eng) && (List.range n).all (fun i => !(frameUsed d tier eng (f + i))) &&
    (tier == 1 || decide (runAheadArea d eng ≥ n + 8))

/-- The first frame of a promotion (R456), if it has room. -/
def pickRun (d : Dev) (tier eng frame n : Nat) : Option Nat :=
  if frame = 0xFFFF then findBelow (frameLimit d tier eng) (fun f => runFree d tier eng f n)
  else if runFree d tier eng frame n then some frame else none

/-! ### Copies (R454, R459, R460, R470) -/

/-- Copy one tile with its marks: whether it succeeded, with its bus error logged for master TM. -/
def tileCopy (src dst : Nat) (d : Dev) : Bool × Dev :=
  match accessCause d src 16384 false, accessCause d dst 16384 true with
  | some c, _ => (false, busError c 0x21 false src d)
  | none, some c => (false, busError c 0x21 true dst d)
  | none, none =>
    (true, (List.range 512).foldl (fun d i =>
      let r := readGran false (src / 32 + i) d
      writeGran (dst / 32 + i) 0 r.1.1 r.1.2 r.2) d)

/-- Count a tile copied up or written back, with the event of R477. -/
def tileCount (r : Reg) (d : Dev) : Dev :=
  let c := (rd d r).toNat
  cntAdd64 r 1 d |> whenB (decide (c = 2 ^ 64 - 2)) (raise 96)

/-- Write tile `t` of an object back if it is dirty and NO_WB is clear, and clear its dirty bit. -/
def writeBack (n t : Nat) (d : Dev) : Bool × Dev :=
  match tmObj d n with
  | none => (true, d)
  | some o =>
    if isDirty d o t then
      if o.flags.testBit 0 then (true, setDirty o t false d)
      else
        match tileCopy (tileAddr o t) (o.back + 16384 * t) d with
        | (false, d) => (false, d)
        | (true, d) => (true, setDirty o t false d |> tileCount Reg.TM_TILES_WB)
    else (true, d)

/-! ### Completion of operations -/

/-- Count a CANCELLED or DEFERRED outcome (R461, R468, R477). -/
def tmConflict (code : Nat) (d : Dev) : Dev :=
  if code = 0x6C then cntAdd Reg.TM_CONFLICT_CNT F.TM_CONFLICT_CNT_CANCELLED F.TM_CONFLICT_CNT_OVF 1 96 d
  else if code = 0x6B then cntAdd Reg.TM_CONFLICT_CNT F.TM_CONFLICT_CNT_DEFERRED F.TM_CONFLICT_CNT_OVF 1 96 d
  else d

/-- Complete an operation with a code (R471): to its ring, to the port, or counted. -/
def tmDone (op : TmOp) (code : Nat) (d : Dev) : Dev :=
  let d := setTm { d.tm with ops := d.tm.ops.erase op } d
  let d := tmConflict code d
  match op.src with
  | .ring h =>
    let fr := match tmObj d op.desc.obj with | some o => o.frontier | none => 0
    finish h code (op.desc.obj % 16384 + 2 ^ 32 * fr) 0 d
  | .port _ =>
    d |> sf Reg.TM_CMD_STAT F.TM_CMD_STAT_BUSY 0 |> sf Reg.TM_CMD_STAT F.TM_CMD_STAT_DONE 1
      |> sf Reg.TM_CMD_STAT F.TM_CMD_STAT_OBJ op.desc.obj |> sf Reg.TM_CMD_STAT F.TM_CMD_STAT_CODE code |> raise 92
  | _ => d

/-- Field checks of R451: known OP, fields in range, unused fields 0. -/
def tmFieldBad (t : TmDesc) : Bool :=
  t.rsv ||
  match t.op with
  | 1 => decide (t.kindMode > 2) || decide (t.flagsTier > 3) || t.engine != 0 || t.frame != 0 || t.counter != 0 ||
      decide (t.sizeCount = 0) || decide (t.sizeCount > 4194304) || decide (t.backFirst ≥ 2 ^ 40)
  | 3 => decide (t.kindMode > 2) || (t.flagsTier != 1 && t.flagsTier != 2) ||
      (if t.flagsTier = 2 then decide (t.engine > 15) else t.engine != 0) || t.tag != 0 ||
      decide (t.backFirst ≥ 2 ^ 32) || decide (t.sizeCount = 0) || decide (t.sizeCount > 1024) ||
      (t.frame != 0xFFFF && decide (t.frame ≥ 1024)) || (t.kindMode != 1 && t.counter != 0) ||
      decide (t.counter ≥ 2 ^ 29)
  | 2 | 4 | 5 | 6 | 7 => t.kindMode != 0 || t.flagsTier != 0 || t.engine != 0 || t.tag != 0 || t.backFirst != 0 ||
      t.sizeCount != 0 || t.frame != 0 || t.counter != 0
  | _ => true

def tmRangeBad (t : TmDesc) : Bool := decide (t.obj > 16383) && !(t.op == 1 && t.obj == 0xFFFF)

/-- May this source place and free ADAPTER objects (R458)? -/
def tmArb (s : TmSrc) : Bool :=
  match s with
  | .arb => true
  | .port m => m == 0x08
  | _ => false

/-- BACK_RANGE of R455. -/
def backBad (d : Dev) (s : TmSrc) (back size : Nat) : Bool :=
  let e := back + 16384 * size
  let ov := gf d Reg.LE_DRAM_BASE F.LE_DRAM_BASE_VALUE
  let on := (rd d Reg.LE_DRAM_SIZE).toNat
  back % 16384 != 0 ||
  !((decide (0x1000000 ≤ back) && decide (e ≤ 0x2000000)) ||
    (decide (dramBase ≤ back) && decide (e ≤ dramBase + dramTop d) &&
      ((match s with | .arb => true | _ => false) || on == 0 || decide (e ≤ ov) || decide (ov + on ≤ back))))

/-- The counter of a WINDOW promotion is a counter of this device (R466): its VALUE. -/
def counterValue (d : Dev) (ref : Nat) : Option Nat :=
  let a := syncBase + 16 * objNum ref
  if objLocal d ref && fieldAt (rawBytes d (a + 12) 4) 0 4 / 2 ^ 28 % 8 == 0 then some (fieldAt (rawBytes d a 4) 0 4)
  else none

/-- Does a promotion name the placement that the object has, with its range inside it (R461)? -/
def samePlace (o : TmObj) (t : TmDesc) : Bool :=
  o.upTier == t.flagsTier && (t.flagsTier == 1 || o.upEng == t.engine) && decide (o.upFirst ≤ t.backFirst) &&
    decide (t.backFirst + t.sizeCount ≤ o.upFirst + o.upCount)

/-- One past the last tile that a promotion maps (R452). -/
def promoteEnd (o : TmObj) (t : TmDesc) : Nat := min (t.backFirst + t.sizeCount) o.size

/-! ### Running the queue (R453, R461, R472) -/

def setOp (old new : TmOp) (d : Dev) : Dev :=
  setTm { d.tm with ops := d.tm.ops.map (fun o => if o = old then new else o) } d

/-- Start operation `op` of the queue on its object, in order (R452, R455 to R461, R471). -/
def tmStart (op : TmOp) (d : Dev) : Dev :=
  let t := op.desc
  if t.op = 1 then
    let n := if t.obj = 0xFFFF then findBelow 16384 (fun n => !(mhas d.tm.objs n)) else some t.obj
    match n with
    | none => tmDone op 0x64 d
    | some n =>
      let op' := { op with desc := { t with obj := n } }
      let d := setOp op op' d
      if mhas d.tm.objs n then tmDone op' 0x63 d
      else if t.kindMode = 2 && !(tmArb op.src) then tmDone op' 0x65 d
      else if backBad d op.src t.backFirst t.sizeCount then tmDone op' 0x66 d
      else if isT1 t.backFirst && (List.range t.sizeCount).any (fun i =>
          frameUsed d 1 0 ((t.backFirst - 0x1000000) / 16384 + i)) then tmDone op' 0x69 d
      else tmDone op' 0 (tmPut n { kind := t.kindMode, flags := t.flagsTier, size := t.sizeCount, back := t.backFirst,
                                   tag := t.tag } d)
  else
    match tmObj d t.obj with
    | none => tmDone op 0x62 d
    | some o =>
      match t.op with
      | 2 =>
        if o.kind = 2 && !(tmArb op.src) then tmDone op 0x65 d
        else if o.pin > 0 then tmDone op 0x6B d
        else setOp op { op with run := true, quiesce := true } (tmPut t.obj { o with frontier := 0 } d)
      | 3 =>
        if t.backFirst ≥ o.size ∨ (t.kindMode = 1 ∧ counterValue d t.counter = none) then tmDone op 0x60 d
        else if t.flagsTier = 1 && isT1 o.back then tmDone op 0x67 d
        else if t.flagsTier = 2 && (gf d (Reg.ENG_STAT t.engine) F.ENG_STAT_STATE == 6 ||
            gb d (Reg.ENG_RELOC t.engine) F.ENG_RELOC_RELOCATED || !(domOn d (16 + t.engine))) then tmDone op 0x68 d
        else if o.upTier ≠ 0 && samePlace o t then
          if o.frontier + o.upFirst ≥ promoteEnd o t then tmDone op 0 d
          else setOp op { op with run := true, upTo := promoteEnd o t } d
        else
          let full := t.kindMode != 0 &&
            decide (64 ≤ (d.tm.objs.filter (fun p => p.2.upTier != 0 && p.2.upMode != 0)).length)
          match pickRun d t.flagsTier t.engine t.frame t.sizeCount with
          | none => tmDone op 0x69 d
          | some f =>
            if full then tmDone op 0x69 d
            else if o.upTier ≠ 0 then tmDone op 0x6A d
            else
              let o' := { o with upTier := t.flagsTier, upEng := if t.flagsTier = 2 then t.engine else 0,
                                 upMode := t.kindMode, upFrame := f, upCount := t.sizeCount, upFirst := t.backFirst,
                                 frontier := 0, ctr := t.counter, stuck := false,
                                 flags := if op.src = .hot then o.flags ||| 4 else o.flags }
              setOp op { op with run := true, upTo := promoteEnd o t } (tmPut t.obj o' d)
      | 4 =>
        if o.pin > 0 then tmDone op 0x6B d
        else if o.upTier = 0 then tmDone op 0 d
        else setOp op { op with run := true, quiesce := o.frontier == 0 } d
      | 5 => if o.pin = 255 then tmDone op 0x6D d else tmDone op 0 (tmPut t.obj { o with pin := o.pin + 1 } d)
      | 6 => if o.pin = 0 then tmDone op 0x6E d else tmDone op 0 (tmPut t.obj { o with pin := o.pin - 1 } d)
      | _ =>
        if (List.range o.frontier).any (fun i => isDirty d o (o.upFirst + i)) then setOp op { op with run := true } d
        else tmDone op 0 d

/-- The next operation that may start: it does not run, no earlier one acts on its object, and a place among the 8 that copy
is free when it would copy (R453); a promotion to T0 waits for RUN (R712). -/
def tmNext (d : Dev) : Option TmOp :=
  let room := decide (tmRunning d < 8)
  (d.tm.ops.zipIdx.find? (fun p =>
    !p.1.run && (p.1.desc.op != 3 || p.1.desc.flagsTier != 2 || gf d Reg.PMU_STAT F.PMU_STAT_STATE == 0) &&
      !((d.tm.ops.take p.2).any (fun q => q.desc.obj == p.1.desc.obj)) &&
      (room || p.1.desc.op == 1 || p.1.desc.op == 2 || p.1.desc.op == 5 || p.1.desc.op == 6))).map Prod.fst

/-- Start what may start (R472, R716: nothing while EN is 0 or once the agent is asked); `fuel` bounds the operations. -/
def tmPump : Nat → Dev → Dev
  | 0, d => d
  | fuel + 1, d =>
    if gb d Reg.TM_CTL F.TM_CTL_EN && !(agentAsked d 33) then
      match tmNext d with
      | some op => tmPump fuel (tmStart op d)
      | none => d
    else d

def tmGo (d : Dev) : Dev := tmPump d.tm.ops.length d

/-- An operation arrives (R453, R461): the descriptor checks, a CAPTURE that a promotion outruns, a promotion that cancels a
capture, else the queue. -/
def tmSubmit (s : TmSrc) (t : TmDesc) (d : Dev) : Dev :=
  let op : TmOp := { src := s, desc := t }
  let pend := d.tm.ops.filter (fun o => o.desc.obj == t.obj)
  let d := setTm { d.tm with ops := d.tm.ops ++ [op] } d
  if tmFieldBad t then tmDone op 0x60 d
  else if tmRangeBad t then tmDone op 0x61 d
  else if t.op = 4 && ((match tmObj d t.obj with | some o => decide (o.pin > 0) | none => false) ||
      pend.any (fun o => o.desc.op == 3)) && mhas d.tm.objs t.obj then tmDone op 0x6B d
  else
    let d :=
      match pend.find? (fun o => o.run && o.desc.op == 4), tmObj d t.obj with
      | some c, some o => if t.op = 3 && samePlace o t && !c.quiesce then setOp c { c with cancel := true } d else d
      | _, _ => d
    tmGo d

/-- The port's GO (TM_CMD_GO): the descriptor of TM_CMD0 to TM_CMD3, ignored while BUSY is 1. -/
def tmParse (b : List Byte) : TmDesc :=
  { op := fieldAt b 0 1, kindMode := fieldAt b 1 1, flagsTier := fieldAt b 2 1, engine := fieldAt b 3 1,
    obj := fieldAt b 4 2, tag := fieldAt b 6 2, backFirst := fieldAt b 8 8, sizeCount := fieldAt b 16 4,
    frame := fieldAt b 20 2, counter := fieldAt b 24 4,
    rsv := fieldAt b 22 2 != 0 || fieldAt b 28 4 != 0 }

/-- Submit through the port (TM_CMD_GO): ignored while BUSY is 1. -/
def tmPortGo (master : Nat) (t : TmDesc) (d : Dev) : Dev :=
  if gb d Reg.TM_CMD_STAT F.TM_CMD_STAT_BUSY then d
  else
    d |> sf Reg.TM_CMD_STAT F.TM_CMD_STAT_BUSY 1 |> sf Reg.TM_CMD_STAT F.TM_CMD_STAT_OBJ t.obj
      |> tmSubmit (.port master) t

/-- A TM operation from a ring, the port or the device itself. -/
def tmRow (s : TmSrc) (t : TmDesc) (d : Dev) : Dev :=
  match s with
  | .port m => tmPortGo m t d
  | .ring h => tmSubmit s t { d with rings := { d.rings with outst := mupd d.rings.outst h.ring 0 (· + 1) } }
  | _ => tmSubmit s t d

/-! ### Tile by tile (R452, R460) -/

/-- A translated access is refused (R449). -/
def xlateFault (eng n tile : Nat) (write : Bool) (d : Dev) : Dev :=
  cntAdd Reg.TM_XLATE_ERR F.TM_XLATE_ERR_COUNT F.TM_XLATE_ERR_OVF 1 96 d
    |> logOnce Reg.TM_XLATE_LOG F.TM_XLATE_LOG_VALID F.TM_XLATE_LOG_OVER (fun d =>
        d |> sf Reg.TM_XLATE_LOG F.TM_XLATE_LOG_WRITE (bit write) |> sf Reg.TM_XLATE_LOG F.TM_XLATE_LOG_ENGINE eng
          |> sf Reg.TM_XLATE_LOG F.TM_XLATE_LOG_OBJ n |> sf Reg.TM_XLATE_LOG F.TM_XLATE_LOG_TILE tile)
    |> raise 93

/-- Perform the writes held on an object's tile, at the mapping now in force (R460). -/
def heldFlush (n : Nat) (d : Dev) : Dev :=
  let mine := d.tm.held.filter (fun w => w.obj == n)
  let d := setTm { d.tm with held := d.tm.held.filter (fun w => w.obj != n) } d
  mine.foldl (fun d w =>
    match tmObj d n with
    | none => xlateFault w.eng n (w.off / 16384) true d
    | some o =>
      let t := w.off / 16384
      let d := if mappedUp o t then setDirty o t true d else d
      (masterWrite (0x30 + w.eng) (tileAddr o t + w.off % 16384) w.bytes w.poison d).2) d

/-- The placement of an object is gone: its frames are free. -/
def dropPlace (n : Nat) (d : Dev) : Dev :=
  match tmObj d n with
  | none => d
  | some o =>
    let d := (List.range o.upCount).foldl (fun d i =>
      setTm { d.tm with dirty := mdel d.tm.dirty (dirtyKey o.upTier o.upEng (o.upFrame + i)) } d) d
    tmPut n { o with upTier := 0, upEng := 0, upMode := 0, upFrame := 0, upCount := 0, upFirst := 0, frontier := 0,
                     ctr := 0, ctrLast := 0, stuck := false, saved := false, flags := o.flags % 4 } d

/-- A tile copy of the operation running on object `n` ends (TM_TILE_COPY_DONE): the mapping switches, FRONTIER moves and held
writes proceed. -/
def tileCopyDone (n : Nat) (d : Dev) : Dev :=
  match d.tm.ops.find? (fun p => p.run && p.desc.obj == n && !p.quiesce && !p.halt), tmObj d n with
  | some op0, some o =>
    let op := if gb d Reg.TM_CTL F.TM_CTL_EN then op0 else { op0 with halt := true }
    let d := setOp op0 op d
    let d :=
      match op.desc.op with
      | 3 =>
        let t := o.upFirst + o.frontier
        match tileCopy (o.back + 16384 * t) (frameAddr o.upTier o.upEng (tileFrame o t)) d with
        | (false, d) => tmDone op 0x6F d
        | (true, d) =>
          let o := { o with frontier := o.frontier + 1 }
          let d := tmPut n o d |> setDirty o t false |> tileCount Reg.TM_TILES_UP
          if o.upFirst + o.frontier ≥ op.upTo then
            let d := match o.upMode, counterValue d o.ctr with
              | 1, some v => tmPut n { o with ctrLast := v } d
              | _, _ => d
            tmDone op 0 d
          else d
      | 4 =>
        if o.frontier = 0 then d
        else
          let t := o.upFirst + o.frontier - 1
          match writeBack n t d with
          | (false, d) => tmDone op 0x6F d
          | (true, d) =>
            let d := tmPut n { o with frontier := o.frontier - 1 } d
            if op.cancel then tmDone op 0x6C d
            else if o.frontier = 1 then setOp op { op with quiesce := true } d
            else d
      | _ =>
        match (List.range o.frontier).find? (fun i => isDirty d o (o.upFirst + i)) with
        | none => tmDone op 0 d
        | some i =>
          match writeBack n (o.upFirst + i) d with
          | (false, d) => tmDone op 0x6F d
          | (true, d) =>
            if (List.range o.frontier).any (fun i => isDirty d o (o.upFirst + i)) then d else tmDone op 0 d
    heldFlush n d |> tmGo
  | _, _ => d

/-- Every invalidation is acknowledged and the old mapping's accesses have completed (R448): the frames are free, and a
CAPTURE or FREE completes. -/
def mappingQuiesced (n : Nat) (d : Dev) : Dev :=
  match d.tm.ops.find? (fun p => p.run && p.desc.obj == n && p.quiesce) with
  | none => d
  | some op =>
    let d := dropPlace n d
    let d := if op.desc.op = 2 then setTm { d.tm with objs := mdel d.tm.objs n, reads := mdel d.tm.reads n } d else d
    heldFlush n (tmDone op 0 d) |> tmGo

/-! ### Translation (R447 to R450, R459, R467) -/

/-- Pieces of `[off, off + len)` that lie in one tile each; `fuel` bounds them. -/
def tilePieces : Nat → Nat → Nat → List (Nat × Nat)
  | 0, _, _ => []
  | f + 1, off, len =>
    if len = 0 then []
    else
      let k := min len (16384 - off % 16384)
      (off, k) :: tilePieces f (off + k) (len - k)

/-- An access-unit fetch from object `n` (R447): bytes and poison. -/
def xlateRead (eng n off len : Nat) (d : Dev) : (List Byte × Bool) × Dev :=
  (tilePieces 3 off len).foldl (fun acc p =>
    let d := acc.2
    let t := p.1 / 16384
    match tmObj d n with
    | none =>
      let d := xlateFault eng n t false d |> ueEntry 0x16 3 0
      ((acc.1.1 ++ List.replicate p.2 0, true), d)
    | some o =>
      if t ≥ o.size then
        let d := xlateFault eng n t false d |> ueEntry 0x16 3 (o.back + p.1)
        ((acc.1.1 ++ List.replicate p.2 0, true), d)
      else
        let d := if o.kind = 1 && o.flags.testBit 1 then
            setTm { d.tm with reads := mput d.tm.reads n (min (mgetD d.tm.reads n 0 + 1) 0xFFFFFFFF) } d else d
        match masterRead (0x30 + eng) (tileAddr o t + p.1 % 16384) p.2 d with
        | (.ok bs q, d) => ((acc.1.1 ++ bs, acc.1.2 || q), d)
        | (.err _, d) => ((acc.1.1 ++ List.replicate p.2 0xFF, true), d)) (([], false), d)

/-- The tile of object `n` that an operation is copying now, if one is (R460). -/
def copyingTile (d : Dev) (n : Nat) : Option Nat :=
  match d.tm.ops.find? (fun p => p.run && p.desc.obj == n && !p.quiesce && !p.halt), tmObj d n with
  | some op, some o =>
    match op.desc.op with
    | 3 => some (o.upFirst + o.frontier)
    | 4 => if o.frontier = 0 then none else some (o.upFirst + o.frontier - 1)
    | _ => ((List.range o.frontier).find? (fun i => isDirty d o (o.upFirst + i))).map (fun i => o.upFirst + i)
  | _, _ => none

/-- Slide a placement by one tile (R463): write back and release the lowest tile, copy the new one into its frame. -/
def slideUp (n : Nat) (d : Dev) : Dev :=
  match tmObj d n with
  | none => d
  | some o =>
    if o.upTier = 0 ∨ o.frontier < o.upCount ∨ o.upFirst + o.upCount ≥ o.size then d
    else
      match writeBack n o.upFirst d with
      | (false, d) => d
      | (true, d) =>
        let t := o.upFirst + o.upCount
        match tileCopy (o.back + 16384 * t) (frameAddr o.upTier o.upEng (tileFrame o t)) d with
        | (false, d) => tmPut n { o with upFirst := o.upFirst + 1, frontier := o.frontier - 1 } d
        | (true, d) =>
          let o := { o with upFirst := o.upFirst + 1 }
          tmPut n o d |> setDirty o t false |> tileCount Reg.TM_TILES_UP

/-- A counter of this device changed: every complete WINDOW placement on it advances by the increments (R463), or is stuck
when the counter saturated (R466). -/
def windowAdvance (ctr value : Nat) (sat : Bool) (d : Dev) : Dev :=
  d.tm.objs.foldl (fun d p =>
    match tmObj d p.1 with
    | none => d
    | some o =>
      if o.upTier ≠ 0 && o.upMode == 1 && objNum o.ctr == ctr && objLocal d o.ctr && tmState d p.1 == 3 && !o.stuck then
        if sat then tmPut p.1 { o with stuck := true } d |> raise 94
        else
          let k := min (value - o.ctrLast) (o.size - (o.upFirst + o.upCount))
          let d := forN k (fun _ d => slideUp p.1 d) d
          match tmObj d p.1 with
          | some o => tmPut p.1 { o with ctrLast := value } d
          | none => d
      else d) d

/-- An access-unit write to object `n` (R447): refused, held, or stored with its dirty bit; a write just past a TAIL
placement advances it first (R464). -/
def xlateWrite (eng stage n off : Nat) (bs : List Byte) (poison : Bool) (d : Dev) : Dev :=
  (tilePieces 3 off bs.length).foldl (fun d p =>
    let t := p.1 / 16384
    let piece := (bs.drop (p.1 - off)).take p.2
    match tmObj d n with
    | none => xlateFault eng n t true d
    | some o =>
      if t ≥ o.size then xlateFault eng n t true d
      else if copyingTile d n = some t then
        setTm { d.tm with held := d.tm.held ++ [⟨stage, eng, n, p.1, piece, poison⟩] } d
      else
        let d := if o.upMode == 2 && o.upTier ≠ 0 && decide (t = o.upFirst + o.upCount) then slideUp n d else d
        match tmObj d n with
        | none => d
        | some o =>
          let d := if mappedUp o t then setDirty o t true d else d
          (masterWrite (0x30 + eng) (tileAddr o t + p.1 % 16384) piece poison d).2) d

/-! ### Hot promotion (R467, R468) -/

/-- Objects of KIND KV with FLAGS.HOT, ranked by reads, ties to the lower number. -/
def hotRank (d : Dev) : List (Nat × TmObj) :=
  let l := d.tm.objs.filter (fun p => p.2.kind == 1 && p.2.flags.testBit 1)
  l.foldl (fun acc p => ins (mgetD d.tm.reads p.1 0) p acc) [] |>.map Prod.snd
where
  ins (c : Nat) (p : Nat × TmObj) : List (Nat × (Nat × TmObj)) → List (Nat × (Nat × TmObj))
    | [] => [(c, p)]
    | q :: qs => if c > q.1 then (c, p) :: q :: qs else q :: ins c p qs

/-- The objects kept in T1 within the budget: those larger than it or placed otherwise are skipped. -/
def hotPick (budget : Nat) : List (Nat × TmObj) → List Nat
  | [] => []
  | (n, o) :: r =>
    if o.size > budget ∨ (o.upTier ≠ 0 ∧ o.flags.testBit 2 = false) ∨ isT1 o.back then hotPick budget r
    else n :: hotPick (budget - o.size) r

/-- TM_HOT_INT elapses while HOT_EN is 1. -/
def hotInterval (d : Dev) : Dev :=
  if gb d Reg.TM_CTL F.TM_CTL_HOT_EN then
    let keep := hotPick (gf d Reg.TM_HOT_BUDGET F.TM_HOT_BUDGET_FRAMES) (hotRank d)
    let z : TmDesc := ⟨4, 0, 0, 0, 0, 0, 0, 0, 0, 0, false⟩
    let old := d.tm.objs.filter (fun p => p.2.flags.testBit 2 && !(keep.contains p.1))
    let d := old.foldl (fun d p => tmSubmit .hot { z with obj := p.1 } d) d
    let d := keep.foldl (fun d n =>
      match tmObj d n with
      | some o =>
        if o.upTier = 0 then
          tmSubmit .hot { z with op := 3, flagsTier := 1, obj := n, sizeCount := o.size, frame := 0xFFFF } d
        else d
      | none => d) d
    setTm { d.tm with reads := [] } d
  else d

/-! ### Forced captures and restoration (R469, R470, R474, R475) -/

/-- What a forced capture does to the operation that runs on its object (R469, log entry 128): a CAPTURE or FLUSH has nothing left to do, a
PROMOTE goes back to the queue, and a FREE goes on. -/
def forceOps (n : Nat) (d : Dev) : Dev :=
  match d.tm.ops.find? (fun p => p.run && p.desc.obj == n) with
  | none => d
  | some op =>
    if op.desc.op = 3 then setOp op { op with run := false, halt := false } d
    else if op.desc.op = 2 then d
    else tmDone op 0 d

/-- Write back and drop a T0 placement regardless of PIN; a tile that cannot be read is written back poisoned (R470). -/
def forceCapture (n : Nat) (keep : Bool) (d : Dev) : Dev :=
  match tmObj d n with
  | none => d
  | some o =>
    let on := domOn d (16 + o.upEng)
    let d := (List.range o.frontier).foldl (fun d i =>
      let t := o.upFirst + i
      if isDirty d o t && !(o.flags.testBit 0) then
        if on then (writeBack n t d).2
        else
          let d := (List.range 512).foldl (fun d g =>
            writeGran ((o.back + 16384 * t) / 32 + g) 0 (List.replicate 32 0) true d) d
          ueEntry 0x16 4 (o.back + 16384 * t) (setDirty o t false d) |> raise 95
      else setDirty o t false d) d
    let going := d.tm.ops.any (fun p => p.run && p.desc.obj == n && (p.desc.op == 2 || p.desc.op == 4))
    let d := forceOps n d
    heldFlush n (if keep && !going then tmPut n { o with frontier := 0, saved := true } d else dropPlace n d)

/-- The T0 placements on engine `k`. -/
def t0On (d : Dev) (k : Nat) : List Nat := ((d.tm.objs.filter (fun p => p.2.upTier == 2 && p.2.upEng == k)).map Prod.fst)

/-- ENG_FAULT of engine `k`: every T0 placement on it is captured. -/
def captureEngine (k : Nat) (d : Dev) : Dev := (t0On d k).foldl (fun d n => forceCapture n false d) d

/-- Capture T0 placements of engine `k`, highest frames first, until they fit below `limit` frames with 8 tiles of run-ahead
area (R469); `fuel` bounds them. -/
def captureFit : Nat → Nat → Nat → Dev → Dev
  | 0, _, _, d => d
  | fuel + 1, k, limit, d =>
    let ps := t0On d k
    let top := ps.foldl (fun b n =>
      match tmObj d n with
      | some o => if o.upFrame + o.upCount > b.1 then (o.upFrame + o.upCount, n) else b
      | none => b) (0, 0)
    let used := countBelow 256 (frameUsed d 2 k)
    if ps ≠ [] ∧ (top.1 > limit ∨ used + 8 > limit) then captureFit fuel k limit (forceCapture top.2 false d) else d

/-- Before NAP or deeper: every T0 placement is captured and remembered (R474). -/
def captureAllT0 (d : Dev) : Dev :=
  (d.tm.objs.filter (fun p => p.2.upTier == 2)).foldl (fun d p => forceCapture p.1 true d) d

/-- On return to RUN the remembered placements are copied up again in object order (R475). -/
def restoreT0 (d : Dev) : Dev :=
  (d.tm.objs.filter (fun p => p.2.saved)).foldl (fun d p =>
    match tmObj d p.1 with
    | some o =>
      let e := min (o.upFirst + o.upCount) o.size
      (List.range (e - o.upFirst)).foldl (fun d i =>
        match tmObj d p.1 with
        | some o =>
          if o.frontier = i then
            match tileCopy (o.back + 16384 * (o.upFirst + i)) (frameAddr 2 o.upEng (tileFrame o (o.upFirst + i))) d with
            | (true, d) => tmPut p.1 { o with frontier := i + 1 } d |> tileCount Reg.TM_TILES_UP
            | (false, d) => d
          else d
        | none => d) (tmPut p.1 { o with saved := false } d)
    | none => d) d

/-! ### Enable and views -/

/-- TM_CTL.EN cleared: running operations stop after their tile and queued ones stay (R472). -/
def tmDisable (d : Dev) : Dev := sf Reg.TM_CTL F.TM_CTL_EN 0 d

/-- TM_CTL.EN set: stopped operations continue (R472). -/
def tmEnable (d : Dev) : Dev :=
  let d := sf Reg.TM_CTL F.TM_CTL_EN 1 d
  tmGo (setTm { d.tm with ops := d.tm.ops.map (fun o => { o with halt := false }) } d)

end Sys2Proof.Machine
end

