-- ==== Sys2Proof/Machine/Link.lean ====
section
/-! DEFINITION. Tilhel ports (spec 16, R618 to R660): flits, credits, retry, training, routing of messages and low power. -/

namespace Sys2Proof.Machine

/-! ### CRC and layout (R624 to R627) -/

/-- A received flit's fields. -/
def flitParse (b : List Byte) : Flit :=
  let h := fieldAt b 0 8
  { type := bitsOf h 63 60, seq := bitsOf h 59 48, ack := bitsOf h 47 36, credCh := bitsOf h 35 31, credCnt := bitsOf h 30 20,
    slots := (List.range 4).map (fun i =>
      { ch := bitsOf h (5 * i + 4) (5 * i), data := (b.drop (8 + 36 * i)).take 32,
        chk := ((b.drop (40 + 36 * i)).take 3).map BitVec.toNat, flags := fieldAt b (43 + 36 * i) 1 }) }

def flitCrcOk (b : List Byte) : Bool := b.length == 160 && fieldAt b 152 8 == crc64 (b.take 152)

/-- A message from its header granule and data granules. -/
def msgParse (h : List Byte) (data : List (List Byte × Bool)) : Msg :=
  let t := fieldAt h 26 6
  { kind := bitsOf t 47 40, dst := bitsOf t 39 28, src := bitsOf t 27 16, hops := bitsOf t 15 8, cls := bitsOf t 7 7,
    revCol := bitAt t 6, revRow := bitAt t 5, master := fieldAt h 25 1, tag := fieldAt h 23 2, cause := fieldAt h 21 1,
    addr := fieldAt h 16 5, byteEn := fieldAt h 12 4, arg := fieldAt h 8 4, spec := fieldAt h 0 8, len := fieldAt h 22 1, data := data }

/-- The data granules that follow a header granule: LEN, none for a READ. -/
def msgLen (h : List Byte) : Nat := if fieldAt h 31 1 = 1 then 0 else fieldAt h 22 1

/-! ### Sending (R630, R634, R639, R548) -/

def chanBuf (ch : Nat) : Nat := if ch < 16 then 64 else 256

/-! ### Routing (R641, R642, R647, R648) -/

/-- A message turns from its column leg into its row leg at this device: it returns to class 0 (R647). -/
def turnClass (d : Dev) (port : Nat) (m : Msg) : Msg :=
  if (port == 1 || port == 3) && idCol m.dst == idCol (devId d) then { m with cls := 0 } else m

/-- Send waiting requests, lowest TAG first, while fewer than 256 are outstanding (R652); `fuel` bounds them. -/
def reqPump : Nat → Dev → Dev
  | 0, d => d
  | fuel + 1, d =>
    match d.links.reqs.find? (fun q => !q.2.sent) with
    | none => d
    | some q => if reqsOut d < 256 then reqPump fuel (reqSend q.1 d).2 else d

/-- The request with a TAG is over: it is forgotten, and one that waits is sent. -/
def reqDone (tag : Nat) (d : Dev) : Dev :=
  reqPump 1 (setLinks { d.links with reqs := mdel d.links.reqs tag } d)

/-! ### Lock and routing table (R46, R642, R643) -/

/-- The routing word `j` of a dimension of size `n` for own position `p`: ports `up` forward and `dn` back. -/
def rtWord (n p up dn j : Nat) : Nat :=
  (List.range 8).foldl (fun a i =>
    let t := 8 * j + i
    if t < n then a + (8 + (if (t + n - p % n) % n ≤ n / 2 then up else dn)) * 2 ^ (4 * i) else a) 0

/-- Setting SYS_NODE.LOCK freezes DEV_ID and TL_TORUS and fills the routing table. -/
def nodeLock (d : Dev) : Dev :=
  if nodeLocked d then d
  else
    let d := sf Reg.SYS_NODE F.SYS_NODE_LOCK 1 d
    let rs := torusRows d
    let cs := torusCols d
    let ok := decide (1 ≤ rs) && decide (rs ≤ 64) && decide (1 ≤ cs) && decide (cs ≤ 64)
    forN 8 (fun j d =>
      d |> wr (Reg.TL_RT_COL j) (BitVec.ofNat 64 (if ok then rtWord cs (idCol (devId d)) 1 3 j else 0))
        |> wr (Reg.TL_RT_ROW j) (BitVec.ofNat 64 (if ok then rtWord rs (idRow (devId d)) 2 0 j else 0))) d

/-! ### Training and state changes (R620 to R623, R637, R653 to R656) -/

def tlCnt (r : Reg) (n : Nat) (d : Dev) : Dev := cntAdd r F.TL_CRC_CNT_COUNT F.TL_CRC_CNT_OVF 1 (srcTl 6 n) d

/-- Set TOPO_ERR and raise its event once (R621, R643). -/
def topoErr (n : Nat) (d : Dev) : Dev :=
  if gb d (Reg.TL_STAT n) F.TL_STAT_TOPO_ERR then d
  else sf (Reg.TL_STAT n) F.TL_STAT_TOPO_ERR 1 d |> raise (srcTl 3 n)

/-- Start training port `n` if R620, R621 and R643 let it. -/
def tlTrain (n : Nat) (d : Dev) : Dev :=
  if !(nodeLocked d) || !(domOn d (5 + n)) then d
  else if torusRows d = 0 ∨ torusCols d = 0 ∨ (neighbour d n).1 = devId d then topoErr n d
  else
    portUpd n (fun p => { p with attempts := 0 }) d |> setPortState n 1
      |> sf (Reg.TL_STAT n) F.TL_STAT_LANES 0

/-- TL_CTLn.EN written 1. -/
def tlEnable (n : Nat) (d : Dev) : Dev :=
  let was := gb d (Reg.TL_CTL n) F.TL_CTL_EN && portState d n != 0
  let d := sf (Reg.TL_CTL n) F.TL_CTL_EN 1 d
  if was then d else tlTrain n d

/-- TL_CTLn.EN written 0: the port stops and returns to OFF. -/
def tlDisable (n : Nat) (d : Dev) : Dev :=
  d |> sf (Reg.TL_CTL n) F.TL_CTL_EN 0 |> portPut n {} |> setPortState n 0 |> sf (Reg.TL_STAT n) F.TL_STAT_WIDTH 0
    |> sf (Reg.TL_STAT n) F.TL_STAT_FP_MISMATCH 0

/-- Messages in waiting and replayed slots of a port, whole ones only, and the stream slots in order. -/
def slotMsgs : List Slot → List (Nat × List (List Byte × Bool)) → List Msg × List Slot
  | [], _ => ([], [])
  | s :: r, part =>
    if s.ch < 16 then
      let q := slotMsgs r part
      (q.1, s :: q.2)
    else
      let g := (s.data, s.flags.testBit 3)
      let cur := if s.flags.testBit 5 then [g] else mgetD part s.ch [] ++ [g]
      match cur with
      | [] => slotMsgs r part
      | h :: data =>
        if data.length = msgLen h.1 then
          let q := slotMsgs r (mdel part s.ch)
          (msgParse h.1 data :: q.1, q.2)
        else slotMsgs r (mput part s.ch cur)

/-- Carry one stream slot of a DOWN port as a STREAM message to the neighbour's port (R655). SPEC carries the link SEQ `sq` and the
channel, and above them the slot's flags and the neighbour's port, for which R645 names no place (log entry 55). -/
def tunnelSlot (n sq : Nat) (s : Slot) (d : Dev) : Dev :=
  let m : Msg := { kind := 0x30, dst := (neighbour d n).1, src := devId d,
                   spec := sq % 65536 + 65536 * s.ch + s.flags % 16 * 2 ^ 20 + (neighbour d n).2 * 2 ^ 24,
                   data := [(s.data, s.flags.testBit 3)] }
  (sendMsg m d).2

/-- Port `n` enters DOWN (R622, R623, R653): its messages take new routes and its stream items the tunnel; a message that no route takes
stays with the port until it is refused. -/
def portDown (n : Nat) (d : Dev) : Dev :=
  let p := portOf d n
  let d := setPortState n 5 d |> sf (Reg.TL_STAT n) F.TL_STAT_WIDTH 0 |> sf (Reg.TL_STAT n) F.TL_STAT_FP_MISMATCH 0
    |> sf Reg.ARB_HEALTH ⟨8 + n, 1⟩ 1 |> raise (srcTl 1 n) |> scoreEvent 0x0051 3 n []
  let sent := (p.replay.flatMap (fun f => f.slots.map (fun s => (f.seq, s)))).filter (fun (q : Nat × Slot) =>
    q.2.flags.testBit 0 && !(q.2.flags.testBit 4))
  let all := sent ++ p.pend.map (fun s => (p.txSeq, s))
  let q := slotMsgs (all.map (fun (x : Nat × Slot) => x.2)) []
  let st := all.filter (fun (x : Nat × Slot) => decide (x.2.ch < 16))
  let d := portPut n { p with replay := [], pend := [], held := [] } d
  let r := (q.1 ++ p.held).foldl (fun (acc : List Msg × Dev) m =>
    match sendMsg m acc.2 with
    | (true, d) => (acc.1, d)
    | (false, d) => (acc.1 ++ [m], d)) ([], d)
  let d := portUpd n (fun p => { p with held := r.1 }) r.2
  (if tunnels d n then st.foldl (fun d (x : Nat × Slot) => tunnelSlot n x.1 x.2 d) d else portUpd n (fun p => { p with pend := q.2 }) d)
    |> prodCheckAll

/-- The width that usable lanes give (R623): lanes and code; 0 for none. -/
def laneWidth (m : Nat) : Nat × Nat :=
  if m % 256 = 0xFF then (0xFF, 3)
  else if m &&& 0x0F = 0x0F then (0x0F, 2)
  else if m &&& 0xF0 = 0xF0 then (0xF0, 2)
  else
    match findBelow 4 (fun i => (m / 2 ^ (2 * i)) % 4 == 3) with
    | some i => (3 * 2 ^ (2 * i), 1)
    | none => (0, 0)

/-- Send a TRAIN flit on each lane of `lanes`, those that passed equalisation here (R620 step 3, R628). -/
def trainSend (n lanes : Nat) (d : Dev) : Dev :=
  forN 8 (fun l d =>
    if lanes.testBit l then
      let data := leBytes 2 (devId d) ++ leBytes 1 n ++ leBytes 1 (torusRows d) ++ leBytes 1 (torusCols d) ++ leBytes 1 lanes ++
        leBytes 2 l ++ leBytes 8 (rd d Reg.IMG_FP).toNat ++ List.replicate 16 0
      let r := slotMake n 0 data 1 d
      flitOut n ⟨6, 0, 0, 0, 0, [r.1]⟩ r.2
    else d) d

/-- What a port in LOW_POWER or WAKING keeps for a neighbour whose PD_LINK turned off and on: both number their flits from 0 and the
neighbour's receive buffers are empty (R681, log entry 130). -/
def portFresh (p : LinkPort) : LinkPort :=
  { p with txSeq := p.replay.length % 4096, rxExp := 0, credRet := [], cred := (List.range 20).map (fun c => (c, chanBuf c)),
           replay := p.replay.zipIdx.map (fun (x : Flit × Nat) => { x.1 with seq := x.2 % 4096, credCh := 0, credCnt := 0 }) }

/-- A TRAIN flit arrives while the port trains, waits for a neighbour it woke, or is in LOW_POWER and its neighbour returns; the port's own
TRAIN flits go; `lanes` passed equalisation here (R620 to R623, R637). -/
def trainFlit (n lanes : Nat) (b : List Byte) (d : Dev) : Dev :=
  let f := flitParse b
  let s := (f.slots.getD 0 slotNone).data
  if !(flitCrcOk b) || f.type != 6 || !(portState d n == 1 || portState d n == 3 || portState d n == 4) then d
  else
    let d := if portState d n = 1 then d else portUpd n portFresh d
    let d := trainSend n lanes d
    let ex := neighbour d n
    if fieldAt s 0 2 % 4096 ≠ ex.1 ∨ fieldAt s 2 1 ≠ ex.2 ∨ fieldAt s 3 1 ≠ torusRows d ∨ fieldAt s 4 1 ≠ torusCols d then
      topoErr n (setPortState n 1 d)
    else
      let w := laneWidth (lanes &&& fieldAt s 5 1)
      let was := gf d (Reg.TL_STAT n) F.TL_STAT_WIDTH
      let d := sf (Reg.TL_STAT n) F.TL_STAT_LANES (lanes &&& fieldAt s 5 1) d
      let d := d |> sf (Reg.TL_NBR n) F.TL_NBR_VALID 1 |> sf (Reg.TL_NBR n) F.TL_NBR_PORT (fieldAt s 2 1)
        |> sf (Reg.TL_NBR n) F.TL_NBR_DEV_ID (fieldAt s 0 2 % 4096)
      if w.2 = 0 then portDown n d
      else
        let p := portOf d n
        let again := p.saved
        let cr : FMap Nat := (List.range 20).map (fun c => (c, chanBuf c))
        let held := p.held
        let d := portPut n { p with cred := if again then p.cred else cr, attempts := 0, replays := 0, held := [],
                                    wakes := 0, saved := true, fpDiff := false, naked := false } d
        let d := setPortState n 2 d |> sf (Reg.TL_STAT n) F.TL_STAT_WIDTH w.2
          |> sf Reg.ARB_HEALTH ⟨8 + n, 1⟩ 0 |> sf Reg.ARB_HEALTH ⟨12 + n, 1⟩ (bit (w.2 != 3)) |> raise (srcTl 0 n)
        let d := if again && decide (w.2 < was) then
            raise (srcTl 2 n) d |> scoreEvent 0x0050 3 n [2 ^ w.2] else d
        let d := (portOf d n).replay.foldl (fun d f => flitOut n f d) d
        let d := held.foldl (fun d m => msgPort n m d) d
        linkPump (portOf d n).pend.length n d

/-- Training misses TL_TRAIN_TMO (R621, R622). -/
def trainTimeout (n : Nat) (d : Dev) : Dev :=
  if portState d n = 1 then
    let d := tlCnt (Reg.TL_RETRAIN_CNT n) n d
    let a := (portOf d n).attempts + 1
    let d := portUpd n (fun p => { p with attempts := a }) d
    if a ≥ 3 then portDown n d else sf (Reg.TL_STAT n) F.TL_STAT_LANES 0 d
  else d

/-- The port retrains with its buffers kept (R637). -/
def tlRetrain (n : Nat) (d : Dev) : Dev :=
  tlCnt (Reg.TL_RETRAIN_CNT n) n d |> portUpd n (fun p => { p with attempts := 0, saved := true }) |> setPortState n 1
    |> sf (Reg.TL_STAT n) F.TL_STAT_FP_MISMATCH 0

/-! ### Receiving (R634 to R640) -/

/-- Is `x` at or before `ack` in the window of the replay buffer (modulo 4,096)? -/
def ackCovers (ack x : Nat) : Bool := decide ((ack + 4096 - x) % 4096 < 2048)

/-- Returned credits and ACK_SEQ of a good flit's header free the replay buffer and let slots go; a SLEEP_NOTICE among the flits is then
acknowledged (R657). -/
def flitCredits (n : Nat) (f : Flit) (d : Dev) : Dev :=
  let d := portUpd n (fun p =>
    let rest := p.replay.dropWhile (fun q => ackCovers f.ack q.seq)
    { p with replay := rest, sleepSeq := if rest = [] then none else p.sleepSeq,
             noticed := p.noticed || (p.sleepSeq.isSome && decide (rest = [])), replays := if rest.length = p.replay.length then p.replays else 0,
             cred := if f.credCnt = 0 then p.cred else mupd p.cred f.credCh 0 (· + f.credCnt) }) d
  linkPump ((portOf d n).pend.length) n d

/-- A flit that fails its CRC or is out of sequence is discarded and one NAK goes back (R635). -/
def flitNak (n : Nat) (d : Dev) : Dev :=
  if (portOf d n).naked then d else flitOut n ⟨4, 0, 0, 0, 0, []⟩ (portUpd n (fun p => { p with naked := true }) d)

/-- Accept a received flit of a type: its fields if the CRC is good and, for a sequenced type, the SEQ is the expected one. -/
def flitAccept (n type : Nat) (b : List Byte) (d : Dev) : Option Flit × Dev :=
  if !(portUp d n) then (none, d)
  else if !(flitCrcOk b) then (none, flitNak n (tlCnt (Reg.TL_CRC_CNT n) n d))
  else
    let f := flitParse b
    if f.type ≠ type then (none, d)
    else
      let d := flitCount (Reg.TL_RX_FLITS n) n d
      let sq := type == 1 || type == 2 || type == 5
      if sq && f.seq != (portOf d n).rxExp then (none, flitNak n d)
      else
        let d := if sq then portUpd n (fun p => { p with rxExp := (p.rxExp + 1) % 4096, naked := false }) d else d
        (some f, flitCredits n f d)

/-- Decode a received slot with the granule code as store 0x30 + n (R638): data and poison. -/
def slotDecode (n : Nat) (s : Slot) (d : Dev) : (List Byte × Bool) × Dev :=
  let q := s.flags.testBit 3
  let c := s.chk ++ s.data.map BitVec.toNat
  match decodeSyn (syndromes 0 c) with
  | .clean => ((s.data, q), d)
  | .corrected l v =>
    let c := c.set l (c.getD l 0 ^^^ v)
    (((c.drop 3).map (BitVec.ofNat 8), q), if q then d else ceLog (0x30 + n) 0 l d)
  | .uncorrectable => ((s.data, true), if q then d else ueDecode (0x30 + n) 0 d)

/-- Return one credit of a channel to the neighbour with a later header. -/
def creditBack (n ch : Nat) (d : Dev) : Dev := portUpd n (fun p => { p with credRet := mupd p.credRet ch 0 (· + 1) }) d

/-- Move received stream items of channel `v` into the LINK_IN route bound to it, or discard them (R631); `fuel` bounds them. -/
def linkIn : Nat → Nat → Nat → Dev → Dev
  | 0, _, _, d => d
  | fuel + 1, n, v, d =>
    match mgetD (portOf d n).rx v [] with
    | [] => d
    | it :: rest =>
      let pop := fun d => creditBack n v (portUpd n (fun p => { p with rx := mput p.rx v rest }) d)
      match routeBySrc d (epMk 4 n v) with
      | none => linkIn fuel n v (tlCnt (Reg.TL_DROP_CNT n) n (pop d))
      | some id =>
        match mget d.fifos id with
        | some f => if fifoCanWrite f then linkIn fuel n v (fifoPut id it (pop d)) else d
        | none => d

/-- An IDLE flit: store the neighbour's fingerprint and compare it (R640). -/
def idleFlit (n : Nat) (b : List Byte) (d : Dev) : Dev :=
  match flitAccept n 2 b d with
  | (none, d) => d
  | (some f, d) =>
    if gb d (Reg.TL_CTL n) F.TL_CTL_FP_CHECK then
      let fp := fieldAt (f.slots.getD 0 slotNone).data 0 8
      let same := (rd d Reg.IMG_FP).toNat == fp
      let d := wr (Reg.TL_NBR_FP n) (BitVec.ofNat 64 fp) d |> portUpd n (fun p => { p with fpDiff := !same })
      if same then sf (Reg.TL_STAT n) F.TL_STAT_FP_MISMATCH 0 d else d
    else d

/-- Every comparison over TL_FP_SETTLE has differed (R640). -/
def fpSettle (n : Nat) (d : Dev) : Dev :=
  if portUp d n && gb d (Reg.TL_CTL n) F.TL_CTL_FP_CHECK && (portOf d n).fpDiff &&
      !(gb d (Reg.TL_STAT n) F.TL_STAT_FP_MISMATCH) then
    sf (Reg.TL_STAT n) F.TL_STAT_FP_MISMATCH 1 d |> raise (srcTl 5 n)
      |> scoreEvent 0x0052 3 n [(rd d Reg.IMG_FP).toNat, (rd d (Reg.TL_NBR_FP n)).toNat]
  else d

/-- Resend every unacknowledged flit in order; too many replays of one flit retrain the port (R635 to R637). -/
def tlReplay (n : Nat) (d : Dev) : Dev :=
  let d := tlCnt (Reg.TL_REPLAY_CNT n) n d
  let k := (portOf d n).replays + 1
  let d := portUpd n (fun p => { p with replays := k }) d
  if k > gf d (Reg.TL_RETRY n) F.TL_RETRY_MAX then tlRetrain n d
  else (portOf d n).replay.foldl (fun d f => flitOut n f d) d

/-- An ACK flit frees acknowledged flits. -/
def ackFlit (n : Nat) (b : List Byte) (d : Dev) : Dev := (flitAccept n 3 b d).2

/-- A NAK flit (R635). -/
def nakFlit (n : Nat) (b : List Byte) (d : Dev) : Dev :=
  match flitAccept n 4 b d with
  | (none, d) => d
  | (some _, d) => if (portOf d n).replay = [] then d else tlReplay n d

/-- The oldest unacknowledged flit got no ACK within TMO_NS (R636). -/
def replayTimeout (n : Nat) (d : Dev) : Dev :=
  if portUp d n && (portOf d n).replay != [] then tlReplay n d else d

/-- 32 flits or 500 ns without a header: an ACK flit goes (R634). -/
def ackTimer (n : Nat) (d : Dev) : Dev := if portUp d n then flitOut n ⟨3, 0, 0, 0, 0, []⟩ d else d

/-- An IDLE flit with the device's fingerprint (R639). -/
def idleInsert (n : Nat) (d : Dev) : Dev :=
  if portUp d n && decide ((portOf d n).replay.length < 256) then
    let data := leBytes 8 (rd d Reg.IMG_FP).toNat ++ leBytes 4 (rd d Reg.IMG_FP_SEQ).toNat ++ leBytes 2 (devId d) ++
      leBytes 1 n ++ List.replicate 17 0
    let r := slotMake n 0 data 1 d
    flitSeq n 2 [r.1] r.2
  else d

/-- A neighbour's SLEEP_NOTICE (R657). -/
def sleepNotice (n : Nat) (b : List Byte) (d : Dev) : Dev :=
  match flitAccept n 5 b d with
  | (none, d) => d
  | (some _, d) => setPortState n 3 (flitOut n ⟨3, 0, 0, 0, 0, []⟩ d) |> sf (Reg.TL_STAT n) F.TL_STAT_FP_MISMATCH 0

/-- The idle item of a FIFO (R191): that of a LINK_IN route is the last one its port received, with PROD_STATE 0 while the port is
DOWN and not tunnelled (R632). -/
def idleItem (d : Dev) (id : Nat) (f : Fifo) : List Byte :=
  let low := prodState d f % 8 + fifoWaiting f % 2048 * 2 ^ 16
  let own := leBytes 4 low ++ leBytes 2 (gf d (Reg.FIFO_PKT id) F.FIFO_PKT_PKT_IN) ++
    leBytes 2 (gf d (Reg.FIFO_PKT id) F.FIFO_PKT_PKT_OUT) ++ leBytes 8 (rd d Reg.IMG_FP).toNat ++ List.replicate 16 0
  if epKind f.src = 4 then
    let n := epInst f.src
    let b := mgetD (portOf d n).idle (epPort f.src) own
    if portState d n = 5 ∧ tunnels d n = false then (b.getD 0 0 &&& 0xF8) :: b.drop 1 else b
  else own

/-- A bound channel without payload, its FIFO's head holding no item to present, sends its idle item in a VC_IDLE slot (R191, R632). -/
def vcIdleSend (n v : Nat) (d : Dev) : Dev :=
  match routeByDst d (epMk 3 n v) with
  | none => d
  | some id =>
    match mget d.fifos id with
    | none => d
    | some f =>
      let head := (mget f.dsts 0).any (fun x => decide (x.pres < f.rel))
      if portUp d n && decide ((portOf d n).replay.length < 256) && !f.stall && !head then
        let r := slotMake n v (idleItem d id f) 17 d
        flitSeq n 1 [r.1] r.2
      else d

/-- The filtered level of TLn_FC_IN changes (R633). -/
def fcIn (n : Nat) (level : Bool) (d : Dev) : Dev :=
  let d := if level && gb d (Reg.TL_STAT n) F.TL_STAT_FC_IN then d else portUpd n (fun p => { p with stuck := false }) d
  sf (Reg.TL_STAT n) F.TL_STAT_FC_IN (bit level) d

/-- TLn_FC_IN stayed asserted beyond TL_FC_TMO: reported once for the assertion (R633). -/
def fcStuck (n : Nat) (d : Dev) : Dev :=
  if gb d (Reg.TL_STAT n) F.TL_STAT_FC_IN && !(portOf d n).stuck then
    portUpd n (fun p => { p with stuck := true }) d |> sf (Reg.TL_STAT n) F.TL_STAT_FC_STUCK 1 |> raise (srcTl 4 n)
  else d

/-- Is stream channel `v` of port `n` paused (R633)? -/
def fcPaused (d : Dev) (n v : Nat) : Bool :=
  gb d (Reg.TL_STAT n) F.TL_STAT_FC_IN && (gf d (Reg.TL_CTL n) F.TL_CTL_FC_MASK).testBit v

/-- May the port take an item of its LINK_OUT route on channel `v` (R631, R655)? -/
def linkTakes (d : Dev) (n v : Nat) : Bool :=
  if portUp d n then
    decide (0 < mgetD (portOf d n).cred v 0) && !(fcPaused d n v) && decide ((portOf d n).replay.length < 256)
  else tunnels d n

/-- Send a stream item on channel `v` of port `n`, as a slot or through the tunnel. -/
def linkItem (n v : Nat) (it : Item) (d : Dev) : Dev :=
  let fl := 1 + (if it.fin then 2 else 0) + (if it.empty then 4 else 0) + (if it.poison then 8 else 0)
  if portUp d n then
    let r := slotMake n v it.data fl d
    linkSlots n [r.1] r.2
  else tunnelSlot n (portOf d n).txSeq ⟨v, it.data, [], fl⟩ d

/-- The neighbour does not train after a wake pattern (R658). -/
def wakeRetry (n : Nat) (d : Dev) : Dev :=
  if portState d n = 4 then
    let w := (portOf d n).wakes
    if w < 3 then emit (.wakePattern n) (portUpd n (fun p => { p with wakes := w + 1 }) d) else setPortState n 3 d
  else d

end Sys2Proof.Machine
end

