-- ==== Sys2Proof/Machine/Sync.lean ====
section
/-! DEFINITION. The synchronisation hub (spec 16, R661 to R674, R822): objects, operations, waits, watches, and barrier
arrivals and withdrawals of activations and castles. -/

namespace Sys2Proof.Machine

/-! ### Objects (R661, R662) -/

/-- STATUS from OVF, TYPE, COUNT and GEN. -/
def statusMk (ovf : Bool) (type count gen : Nat) : Nat :=
  (if ovf then 2 ^ 31 else 0) + type % 8 * 2 ^ 28 + count % 8192 * 4096 + gen % 4096

def SyncObj.count (o : SyncObj) : Nat := bitsOf o.status 24 12
def SyncObj.gen (o : SyncObj) : Nat := bitsOf o.status 11 0

/-- The words of an object as stored. -/
def objPeek (d : Dev) (n : Nat) : SyncObj := objParse (rawBytes d (objAddr n) 16)

/-! ### Faults (R666, R670, R671, R822) -/

def syncOvf (n : Nat) (d : Dev) : Dev :=
  d |> sf Reg.SYNC_STAT F.SYNC_STAT_OVF_SEEN 1 |> sf Reg.SYNC_STAT F.SYNC_STAT_OBJ n
    |> cntAdd Reg.SYNC_OVF_CNT F.SYNC_OVF_CNT_COUNT F.SYNC_OVF_CNT_OVF 1 117 |> raise 115

def syncTypeErr (n : Nat) (d : Dev) : Dev :=
  d |> sf Reg.SYNC_STAT F.SYNC_STAT_TYPE_ERR 1 |> sf Reg.SYNC_STAT F.SYNC_STAT_OBJ n |> raise 116

/-! ### Operations (R663 to R666) -/

/-- A saturating add to VALUE: the new object and whether it saturated. -/
def objAdd (o : SyncObj) (arg : Nat) : SyncObj × Bool :=
  if o.value + arg > 0xFFFFFFFF then ({ o with value := 0xFFFFFFFF, status := setBit o.status 31 true }, true)
  else ({ o with value := if o.ovf then 0xFFFFFFFF else o.value + arg }, false)

/-- A reduction operation on unsigned words other than ADD (R665). -/
def redOp (op v a : Nat) : Nat :=
  match op with
  | 1 => min v a
  | 2 => max v a
  | 3 => v &&& a
  | 4 => v ||| a
  | _ => v ^^^ a

def redIdentity (op : Nat) : Nat := if op = 1 ∨ op = 3 then 0xFFFFFFFF else 0

/-- The operation of R65 with code `op` on an object: none for a type error; else the object after it and whether VALUE
saturated. -/
def objOp (o : SyncObj) (op arg : Nat) : Option (SyncObj × Bool) :=
  match op, o.type with
  | 1, 0 => some (objAdd o arg)
  | 2, 1 => some (objAdd o arg)
  | 3, 2 =>
    if o.value + 1 ≥ o.param then
      some ({ o with value := 0, status := statusMk o.ovf 2 o.count (o.gen + 1) }, false)
    else some ({ o with value := o.value + 1 }, false)
  | 4, 3 => some ({ o with value := arg % 2 }, false)
  | 5, 4 =>
    let rop := bitsOf o.param 31 28
    let n := bitsOf o.param 12 0
    if rop > 5 ∨ bitsOf o.param 27 13 ≠ 0 ∨ n = 0 ∨ n > 4096 then none
    else
      let r := if o.ovf then (o, decide (rop = 0) && decide (o.value + arg > 0xFFFFFFFF))
        else if rop = 0 then objAdd o arg
        else ({ o with value := redOp rop o.value arg }, false)
      let v := r.1
      if v.count + 1 ≥ n then
        some ({ v with aux := v.value, value := if v.ovf then 0xFFFFFFFF else redIdentity rop,
                       status := statusMk v.ovf 4 0 (v.gen + 1) }, r.2)
      else some ({ v with status := statusMk v.ovf 4 (v.count + 1) v.gen }, r.2)
  | _, _ => none

/-- Is a wait's condition met (R663, R664), and the object after a semaphore acquire; none for a type error. -/
def objWait (o : SyncObj) (cond value k : Nat) : Option (Option SyncObj) :=
  match cond, o.type with
  | 1, 0 => some (if o.value ≥ value then some o else none)
  | 2, 3 => some (if o.value % 2 = 1 then some o else none)
  | 3, 2 => some (if 1 ≤ (o.gen + 4096 - k % 4096) % 4096 ∧ (o.gen + 4096 - k % 4096) % 4096 ≤ 2047 then some o else none)
  | 3, 4 => some (if 1 ≤ (o.gen + 4096 - k % 4096) % 4096 ∧ (o.gen + 4096 - k % 4096) % 4096 ≤ 2047 then some o else none)
  | 4, 1 =>
    let u := if value = 0 then 1 else value
    some (if o.value ≥ u then some { o with value := if o.ovf then o.value else o.value - u } else none)
  | _, _ => none

/-! ### Watches of other devices (R669, R822) -/

/-- Evaluate one watch; a met one is answered with NOTIFY and its entry freed. -/
def watchEval (i : Nat) (d : Dev) : Dev :=
  match mget d.links.watches i with
  | none => d
  | some w =>
    let n := syncIdx w.msg.addr
    let told := fun d => setLinks { d.links with watches := mput d.links.watches i { w with told := true } } d
    let r := objRead n d
    if r.1.2 then
      if w.told then r.2 else told (syncPoison (0x40 + w.port) n r.2)
    else
      match objWait r.1.1 (w.msg.spec % 16) w.msg.arg w.msg.arg with
      | none => if w.told then r.2 else told (syncTypeErr n r.2)
      | some none => if w.told then setLinks { r.2.links with watches := mput r.2.links.watches i { w with told := false } } r.2 else r.2
      | some (some o) =>
        let d := if o = r.1.1 then r.2 else objStore n o r.2
        let d := setLinks { d.links with watches := mdel d.links.watches i } d
        match sendMsg { kind := 0x12, dst := w.msg.src, src := devId d, tag := w.msg.tag, master := w.msg.master,
                        cls := 0 } d with
        | (true, d) => d
        | (false, d) => routeErr d

/-- Evaluate every watch held on an object, in order of entry. -/
def watchesOn (n : Nat) (d : Dev) : Dev :=
  (d.links.watches.filter (fun w => w.2.msg.addr == objAddr n)).foldl (fun d w => watchEval w.1 d) d

/-! ### Operations at the hub -/

/-- Perform operation `op` on object `n` for a master: poison and type errors discard it (R670, R671). -/
def syncOp (master n op arg : Nat) (d : Dev) : Dev :=
  let r := objRead n d
  if r.1.2 then syncPoison master n r.2
  else
    match objOp r.1.1 op (arg % 2 ^ 32) with
    | none => syncTypeErr n r.2
    | some (o, sat) =>
      let d := objStore n o r.2
      let d := whenB sat (syncOvf n) d
      let d := if r.1.1.type = 0 then windowAdvance n o.value (o.ovf) d else d
      watchesOn n d

/-- The operation that a 32-bit write at offset 0 performs (R667): that of the object's type. -/
def typeOp (t : Nat) : Nat :=
  match t with
  | 0 => 1 | 1 => 2 | 2 => 3 | 3 => 4 | 4 => 5 | _ => 0

/-- A 32-bit write at 0x4, 0x8 or 0xC stores the data as written (R667). -/
def syncField (n off v : Nat) (d : Dev) : Dev :=
  if off = 4 ∨ off = 8 ∨ off = 12 then writeMem (objAddr n + off) (leBytes 4 v) false d else d

/-- After a rewrite of objects: faults of their waits may be reported again (R822), and watches are evaluated (R672). -/
def syncRewritten (ns : List Nat) (d : Dev) : Dev :=
  let d := setLinks { d.links with told := d.links.told.filter (fun p => !(ns.contains p.2)),
                                   watches := d.links.watches.map (fun w =>
                                     if ns.contains (syncIdx w.2.msg.addr) then (w.1, { w.2 with told := false })
                                     else w) } d
  ns.foldl (fun d n => watchesOn n d) d

/-- A 256-bit write of objects 2m and 2m + 1 (R667). -/
def syncPair (m : Nat) (bs : List Byte) (poison : Bool) (d : Dev) : Dev :=
  syncRewritten [2 * m, 2 * m + 1] (writeMem (objAddr (2 * m)) (padTo 32 0 (bs.take 32)) poison d)

/-- The activation writes its SYNC_INIT entries (R662, R671): a granule both of whose objects are named is written whole. -/
def syncInitWrite (es : List SyncInit) (d : Dev) : Dev :=
  let obj := fun (e : SyncInit) => objBytes ⟨e.value, e.param, 0, statusMk false e.type 0 0⟩
  let d := es.foldl (fun d e =>
    match es.find? (fun x => x.obj == e.obj ^^^ 1) with
    | some x =>
      if e.obj % 2 = 0 then writeMem (objAddr e.obj) (obj e ++ obj x) false d else d
    | none => writeMem (objAddr e.obj) (obj e) false d) d
  syncRewritten (es.map SyncInit.obj) d

/-! ### Stage waits and signals (R143, R145, R664, R669) -/

/-- Evaluate WAIT `idx` of the stage with key `key` on engine `eng`: whether it is satisfied now. -/
def stageWait (eng key idx : Nat) (w : Wait) (d : Dev) : Bool × Dev :=
  let wk := 2 * key + idx
  let k := mgetD d.links.waitK wk 0
  let sat := fun d => setLinks { d.links with waitK := if w.cond = 3 then mput d.links.waitK wk (k + 1) else d.links.waitK,
                                              told := mdel d.links.told wk } d
  if w.cond = 0 then (true, d)
  else if objLocal d w.obj then
    let n := objNum w.obj
    let told := fun d => setLinks { d.links with told := mput d.links.told wk n } d
    let r := objRead n d
    if r.1.2 then (false, if mhas d.links.told wk then r.2 else told (syncPoison (0x30 + eng) n r.2))
    else
      match objWait r.1.1 w.cond w.value k with
      | none => (false, if mhas d.links.told wk then r.2 else told (syncTypeErr n r.2))
      | some none => (false, r.2)
      | some (some o) => (true, sat (if o = r.1.1 then r.2 else objStore n o r.2))
  else if mhas d.links.waitOk wk then
    (true, sat (setLinks { d.links with waitOk := mdel d.links.waitOk wk } d))
  else if d.links.reqs.any (fun q => q.2.kind == .wait key idx) then (false, d)
  else
    (false, (request (.wait key idx) { kind := 0x11, dst := objDev w.obj, src := 0, master := 0x30 + eng,
                                        addr := objAddr (objNum w.obj), arg := if w.cond = 3 then k % 4096 else w.value,
                                        spec := w.cond } d).2)

/-- Issue one SIGNAL of a stage (R65, R663). -/
def stageSignal (eng key : Nat) (s : Sig) (d : Dev) : Dev :=
  if s.op = 0 then d
  else
    let arg := if s.op = 4 then 1 else s.arg
    if objLocal d s.obj then syncOp (0x30 + eng) (objNum s.obj) s.op arg d
    else
      (request (.signal key) { kind := 0x10, dst := objDev s.obj, src := 0, master := 0x30 + eng,
                               addr := objAddr (objNum s.obj), arg := arg, spec := s.op } d).2

/-! ### Barriers of activations and castles (R85, R420, R673, R817) -/

/-- Is the object, if on this device, a barrier? -/
def barrierOk (d : Dev) (obj : Nat) : Bool := !(objLocal d obj) || (objPeek d (objNum obj)).type == 2

/-- The place among the reported waits (R822) of an activation's or a castle's wait; those of stages lie below. -/
def barrierKey : ReqKind → Nat
  | .castleArrive n => 2 ^ 20 + 1 + n
  | _ => 2 ^ 20

/-- Arrive at a barrier: the GEN before the arrival on this device, and whether the barrier can be reached; a remote arrival and its wait
are sent. The wait's WATCH carries compare value 0: R664 gives one only for the WAITs of a stage (log entry 118). -/
def barrierArrive (master obj : Nat) (ka kw : ReqKind) (d : Dev) : Option Nat × Bool × Dev :=
  if objLocal d obj then
    let g := (objPeek d (objNum obj)).gen
    let d := setLinks { d.links with told := mdel d.links.told (barrierKey ka) } d
    (some g, true, syncOp master (objNum obj) 3 0 d)
  else
    let m : Msg := { kind := 0x10, dst := objDev obj, src := 0, master := master, addr := objAddr (objNum obj), spec := 3 }
    match request ka m d with
    | (false, d) => (none, false, d)
    | (true, d) => (none, request kw { m with kind := 0x11, spec := 3, arg := 0 } d)

/-- Evaluate the wait at a barrier of this device: has it released since an arrival at GEN `g`? A wait that meets poison or another type
is not satisfied, and the fault is reported once (R670, R671, R822). -/
def barrierWait (master obj : Nat) (ka : ReqKind) (g : Option Nat) (d : Dev) : Bool × Dev :=
  match g with
  | none => (false, d)
  | some g =>
    if !(objLocal d obj) then (false, d)
    else
      let n := objNum obj
      let k := barrierKey ka
      let r := objRead n d
      let told := fun (f : Dev → Dev) (d : Dev) =>
        if mhas d.links.told k then d else setLinks { (f d).links with told := mput (f d).links.told k n } (f d)
      if r.1.2 then (false, told (syncPoison master n) r.2)
      else if r.1.1.type ≠ 2 then (false, told (syncTypeErr n) r.2)
      else (r.1.1.gen != g, r.2)

/-- Withdraw an arrival: VALUE falls by 1 if GEN has not changed since (R673). R645 names no message that withdraws an arrival at another
device's barrier: nothing is sent, and the arrival and wait not yet answered are forgotten (log entry 118). -/
def barrierWithdraw (master obj : Nat) (g : Option Nat) (ka kw : ReqKind) (d : Dev) : Dev :=
  match g with
  | some g =>
    let n := objNum obj
    let r := objRead n d
    if r.1.2 then syncPoison master n r.2
    else if r.1.1.gen = g ∧ r.1.1.type = 2 then objStore n { r.1.1 with value := r.1.1.value - 1 } r.2
    else r.2
  | none => setLinks { d.links with reqs := d.links.reqs.filter (fun q => !(q.2.kind == ka || q.2.kind == kw)) } d

end Sys2Proof.Machine
end

