-- ==== Sys2Proof/Machine/Census.lean ====
section
/-! DEFINITION. The census (spec 16, R674 to R680): objects 0xFFF0 to 0xFFF4 reduce the fingerprints of the torus. -/

namespace Sys2Proof.Machine

/-- The first census object (R674). -/
def censusObj : Nat := 0xFFF0

/-- The neighbour of a device by column and row steps, modulo the torus. -/
def torusStep (d : Dev) (i dr dc : Nat) : Nat :=
  (idRow i + dr) % torusRows d * 64 + (idCol i + dc) % torusCols d

/-- The children of this device in a census of device `init` (R676): east and west along the initiator's row, south and north
along every column. -/
def censusChildren (d : Dev) (init : Nat) : List Nat :=
  let own := devId d
  let rs := torusRows d
  let cs := torusCols d
  let e := cs / 2
  let s := rs / 2
  let dc := (idCol own + cs - idCol init % cs) % cs
  let dr := (idRow own + rs - idRow init % rs) % rs
  let east := decide (dr = 0) && decide (dc < e)
  let west := decide (dr = 0) && (if dc = 0 then decide (e + 1 < cs) else decide (e < dc) && decide (e + 1 < dc))
  let south := decide (dr < s)
  let north := if dr = 0 then decide (s + 1 < rs) else decide (s < dr) && decide (s + 1 < dr)
  (if east then [torusStep d own 0 1] else []) ++ (if west then [torusStep d own 0 (cs - 1)] else []) ++
  (if south then [torusStep d own 1 0] else []) ++ (if north then [torusStep d own (rs - 1) 0] else [])

/-- Send a census message, or count it as one that cannot be forwarded (R646, R648). -/
def censusSend (kind dst spec : Nat) (data : List (List Byte × Bool)) (d : Dev) : Dev :=
  match sendMsg { kind := kind, dst := dst, src := devId d, master := 0x23, spec := spec, data := data } d with
  | (true, d) => d
  | (false, d) => routeErr d

/-- The data granule of a CENSUS_PART from its five words (R646). -/
def censusData (ws : List Nat) : List (List Byte × Bool) := [(padTo 32 0 (ws.flatMap (leBytes 4)), false)]

/-- The identities of the five cells, which a BUSY answer carries (R646). -/
def censusIdentity : List Nat := [0xFFFFFFFF, 0, 0xFFFFFFFF, 0, 0]

/-- Contribute five words to the cells for a master (R677). -/
def censusContribute (master : Nat) (ws : List Nat) (d : Dev) : Dev :=
  forN 5 (fun i d => syncOp master (censusObj + i) 5 (ws[i]?.getD 0) d) d

/-- Initialise the five cells with `n` participants each (R677): MIN, MAX, MIN, MAX and ADD. -/
def censusInit (n : Nat) (d : Dev) : Dev :=
  syncInitWrite ([1, 2, 1, 2, 0].zipIdx.map (fun (p : Nat × Nat) =>
    ⟨censusObj + p.2, 4, redIdentity p.1, 2 ^ 28 * p.1 + n⟩)) d

/-- Have all five cells released? -/
def censusReleased (d : Dev) : Bool := (List.range 5).all (fun i => (objPeek d (censusObj + i)).gen != 0)

/-- What a hub sends up: AUX of a released cell, VALUE of another (R677, R678). -/
def censusWords (d : Dev) : List Nat :=
  (List.range 5).map (fun i =>
    let o := objPeek d (censusObj + i)
    if o.gen ≠ 0 then o.aux else o.value)

def setCensus (c : Option Census) (d : Dev) : Dev :=
  sf Reg.SYNC_CENSUS_STAT F.SYNC_CENSUS_STAT_BUSY (bit c.isSome) (setLinks { d.links with census := c } d)

/-- The hub's part ends: to the parent goes CENSUS_PART; the initiator writes its registers and completes the command with the
first code of R680 that applies. -/
def censusEnd (c : Census) (d : Dev) : Dev :=
  let ws := censusWords d
  let w := fun i => ws[i]?.getD 0
  let d := setCensus none d
  match c.parent with
  | some p => censusSend 0x21 p (bit c.busy) (censusData ws) d
  | none =>
    let want := if c.expect = 0 then torusRows d * torusCols d else c.expect
    let code := if c.busy then 0xE2 else if w 0 ≠ w 1 ∨ w 2 ≠ w 3 then 0xE0 else if w 4 < want then 0xE1 else 0
    let d := d |> wr Reg.SYNC_CENSUS_MIN (BitVec.ofNat 64 (w 0 * 2 ^ 32 + w 2))
      |> wr Reg.SYNC_CENSUS_MAX (BitVec.ofNat 64 (w 1 * 2 ^ 32 + w 3))
      |> sf Reg.SYNC_CENSUS_STAT F.SYNC_CENSUS_STAT_CODE code
      |> sf Reg.SYNC_CENSUS_STAT F.SYNC_CENSUS_STAT_COUNT (min (w 4) 4096)
    match c.cmd with
    | some h => finish h code 0 0 d
    | none => d

/-- End the hub's part once its cells have released. -/
def censusCheck (d : Dev) : Dev :=
  match d.links.census with
  | none => d
  | some c => if censusReleased d then censusEnd c d else d

/-- A hub enters a census (R676, R677): it sends START on, initialises the cells and contributes its own fingerprint. -/
def censusEnter (c : Census) (master : Nat) (d : Dev) : Dev :=
  let fp := (rd d Reg.IMG_FP).toNat
  let hi := fp / 2 ^ 32
  let lo := fp % 2 ^ 32
  setCensus (some c) d
    |> forEach c.children (fun ch d => censusSend 0x20 ch c.init [] d)
    |> censusInit (1 + c.children.length)
    |> censusContribute master [hi, hi, lo, lo, 1]
    |> censusCheck

/-- The CENSUS command (R675, R680): the torus and field checks, then this device initiates. A census in which this hub takes
part is BUSY (R679, log entry 44). -/
def xCensus (h : CmdHdr) (expect : Nat) (d : Dev) : Dev :=
  let rs := torusRows d
  let cs := torusCols d
  let done := fun code d => finish h code 0 0 (sf Reg.SYNC_CENSUS_STAT F.SYNC_CENSUS_STAT_CODE code d)
  if !nodeLocked d || rs == 0 || cs == 0 then done 0xE3 d
  else if expect > rs * cs then done 0xE4 d
  else if d.links.census.isSome then done 0xE2 d
  else
    censusEnter { init := devId d, parent := none, children := censusChildren d (devId d), cmd := some h, expect := expect } 0x23 d

/-- CENSUS_START arrives on port `n` for this device (R676, R677, R679). -/
def censusStart (n : Nat) (m : Msg) (d : Dev) : Dev :=
  if d.links.census.isSome then censusSend 0x21 m.src 1 (censusData censusIdentity) d
  else
    let init := m.spec % 4096
    censusEnter { init := init, parent := some m.src, children := censusChildren d init } (0x40 + n) d

/-- CENSUS_PART arrives on port `n` for this device (R677, R680): one from a child of a census in progress is contributed. A
poisoned part is consumed and does not count (R671, log entry 44). -/
def censusPart (n : Nat) (m : Msg) (d : Dev) : Dev :=
  match d.links.census, m.data with
  | some c, (bs, bad) :: _ =>
    if !c.children.contains m.src then d
    else if bad then syncPoison (0x40 + n) censusObj d
    else
      setLinks { d.links with census := some { c with busy := c.busy || bitAt m.spec 0 } } d
        |> censusContribute (0x40 + n) ((List.range 5).map (fun i => fieldAt bs (4 * i) 4))
        |> censusCheck
  | _, _ => d

/-- The wait of R678 for children ends. -/
def censusTimeout (d : Dev) : Dev :=
  match d.links.census with
  | none => d
  | some c => censusEnd c d

end Sys2Proof.Machine
end

