-- ==== Sys2Proof/Machine/Arith.lean ====
section
/-! DEFINITION. Arithmetic of the engines (spec 05, 06, 12): exact floating point over binary16, binary32 and binary64,
the integer quantise and requantise steps, matrix correction, stochastic rounding, row statistics and the optimiser. -/

namespace Sys2Proof.Machine

/-! ### Integers -/

/-- floor_log2 for numbers below 2 to the `fuel`. -/
def flog2Aux : Nat → Nat → Nat
  | 0, _ => 0
  | f + 1, x => if x < 2 then 0 else 1 + flog2Aux f (x / 2)

/-- The index of the highest set bit. -/
def flog2 (x : Nat) : Nat := flog2Aux 700 x

/-- The integer square root, rounded down, of a number below 4 to the `fuel`. -/
def isqrtAux : Nat → Nat → Nat
  | 0, _ => 0
  | f + 1, n =>
    if n = 0 then 0
    else
      let r := 2 * isqrtAux f (n / 4)
      if (r + 1) * (r + 1) ≤ n then r + 1 else r

def isqrt (n : Nat) : Nat := isqrtAux 400 n

/-- The two's complement value of the low `w` bits. -/
def sgn (w v : Nat) : Int := if v % 2 ^ w < 2 ^ (w - 1) then (v % 2 ^ w : Nat) else ((v % 2 ^ w : Nat) : Int) - 2 ^ w

/-- The low `w` bits of a signed number. -/
def lowBits (w : Nat) (x : Int) : Nat := (x % (2 ^ w : Int)).toNat

/-- Clamp to a range. -/
def clampI (lo hi x : Int) : Int := if x > hi then hi else if x < lo then lo else x

/-! ### Floating point (R233) -/

/-- A floating-point value, exactly: the magnitude of a finite one is `m * 2^e`. -/
inductive FV where
  | nan
  | inf (neg : Bool)
  | fin (neg : Bool) (m : Nat) (e : Int)
deriving DecidableEq, Repr

/-- The value of an IEEE 754 bit pattern with `eb` exponent and `mb` fraction bits. -/
def fUnpack (eb mb bits : Nat) : FV :=
  let s := bits.testBit (eb + mb)
  let ex := bits / 2 ^ mb % 2 ^ eb
  let f := bits % 2 ^ mb
  let bias : Int := 2 ^ (eb - 1) - 1
  if ex = 2 ^ eb - 1 then (if f = 0 then .inf s else .nan)
  else if ex = 0 then .fin s f (1 - bias - mb)
  else .fin s (2 ^ mb + f) ((ex : Int) - bias - mb)

/-- `m / 2^sh`, rounded half to even. -/
def rheNat (m sh : Nat) : Nat :=
  let q := m / 2 ^ sh
  let r := m % 2 ^ sh
  if 2 * r > 2 ^ sh ∨ (2 * r = 2 ^ sh ∧ q % 2 = 1) then q + 1 else q

/-- Round to nearest, ties to even (R233): subnormals kept, overflow to infinity, one quiet NaN. -/
def fPack (eb mb : Nat) : FV → Nat
  | .nan => (2 ^ eb - 1) * 2 ^ mb + 2 ^ (mb - 1)
  | .inf s => (if s then 2 ^ (eb + mb) else 0) + (2 ^ eb - 1) * 2 ^ mb
  | .fin s m e =>
    let sg := if s then 2 ^ (eb + mb) else 0
    if m = 0 then sg
    else
      let bias : Int := 2 ^ (eb - 1) - 1
      let top : Int := flog2 m + e
      let qe : Int := max top (1 - bias) - mb
      let q := if qe ≤ e then m * 2 ^ (e - qe).toNat else rheNat m (qe - e).toNat
      let b : Nat := ((qe + mb + bias) * 2 ^ mb + q - 2 ^ mb : Int).toNat
      if b ≥ (2 ^ eb - 1) * 2 ^ mb then sg + (2 ^ eb - 1) * 2 ^ mb else sg + b

def f16 (h : Nat) : FV := fUnpack 5 10 h
def to16 (v : FV) : Nat := fPack 5 10 v
def f32 (h : Nat) : FV := fUnpack 8 23 h
def to32 (v : FV) : Nat := fPack 8 23 v
def to64 (v : FV) : Nat := fPack 11 52 v
def f64 (h : Nat) : FV := fUnpack 11 52 h

/-- Round to binary32 and keep the value. -/
def r32 (v : FV) : FV := f32 (to32 v)

def fNeg : FV → FV
  | .nan => .nan
  | .inf s => .inf (!s)
  | .fin s m e => .fin (!s) m e

/-- The exact sum. -/
def fAdd : FV → FV → FV
  | .nan, _ => .nan
  | _, .nan => .nan
  | .inf s, .inf t => if s = t then .inf s else .nan
  | .inf s, _ => .inf s
  | _, .inf t => .inf t
  | .fin s m e, .fin t n f =>
    let b := min e f
    let x : Int := (if s then -1 else 1) * (m * 2 ^ (e - b).toNat : Nat)
    let y : Int := (if t then -1 else 1) * (n * 2 ^ (f - b).toNat : Nat)
    if x + y = 0 then .fin (s && t) 0 b else .fin (decide (x + y < 0)) (x + y).natAbs b

/-- The exact product. -/
def fMul : FV → FV → FV
  | .nan, _ => .nan
  | _, .nan => .nan
  | .inf s, .inf t => .inf (s != t)
  | .inf s, .fin t n _ => if n = 0 then .nan else .inf (s != t)
  | .fin s m _, .inf t => if m = 0 then .nan else .inf (s != t)
  | .fin s m e, .fin t n f => .fin (s != t) (m * n) (e + f)

/-- The quotient with 140 extra bits and a sticky bit, which rounds correctly to any of the formats. -/
def fDiv : FV → FV → FV
  | .nan, _ => .nan
  | _, .nan => .nan
  | .inf _, .inf _ => .nan
  | .inf s, .fin t _ _ => .inf (s != t)
  | .fin s _ _, .inf t => .fin (s != t) 0 0
  | .fin s m e, .fin t n f =>
    if n = 0 then (if m = 0 then .nan else .inf (s != t))
    else
      let a := m * 2 ^ 140
      .fin (s != t) (2 * (a / n) + (if a % n = 0 then 0 else 1)) (e - f - 141)

/-- The square root with extra bits and a sticky bit. -/
def fSqrt : FV → FV
  | .nan => .nan
  | .inf s => if s then .nan else .inf false
  | .fin s m e =>
    if m = 0 then .fin s 0 e
    else if s then .nan
    else
      let odd := e % 2
      let a := m * 2 ^ (140 + odd.toNat)
      let r := isqrt a
      .fin false (2 * r + (if r * r = a then 0 else 1)) ((e - odd) / 2 - 71)

/-- `a < b` for values that are not NaN. -/
def fLt (a b : FV) : Bool :=
  match fAdd b (fNeg a) with
  | .fin s m _ => !s && decide (m ≠ 0)
  | .inf s => !s && decide (a ≠ b)
  | .nan => false

def isNan : FV → Bool
  | .nan => true
  | _ => false

def isFin : FV → Bool
  | .fin _ _ _ => true
  | _ => false

/-- An integer as a value. -/
def fInt (x : Int) : FV := .fin (decide (x < 0)) x.natAbs 0

/-! ### Scale records (R215) -/

def recMant (r : Nat) : Nat := r % 65536
def recExp (r : Nat) : Int := sgn 8 (r / 65536)
def recZp (r : Nat) : Nat := r / 16777216 % 256
/-- MANT bit 15 is set (R217, R245). -/
def recValid (r : Nat) : Bool := decide (recMant r ≥ 0x8000)
/-- The scale m × 2^(e − 15). -/
def recScale (r : Nat) : FV := .fin false (recMant r) (recExp r - 15)
/-- The smallest scale of a format with zero point `zp` (R216). -/
def recSmallest (zp : Nat) : Nat := 16777216 * zp + 0x00808000

/-! ### Integer quantise steps (R247 to R253) -/

/-- rhe_div of *Integer arithmetic*. -/
def rheDiv (a b : Nat) : Nat :=
  let q := a / b
  let r := a % b
  if 2 * r > b ∨ (2 * r = b ∧ q % 2 = 1) then q + 1 else q

/-- norm_mult. -/
def normMult (num den : Nat) : Nat × Int :=
  let d0 : Int := flog2 num - 45
  let d := if num * 2 ^ (-d0).toNat < den * 2 ^ d0.toNat * 2 ^ 30 then d0 - 1 else d0
  let m := rheDiv (num * 2 ^ (-d).toNat) (den * 2 ^ d.toNat)
  if m = 0x80000000 then (0x40000000, d + 1) else (m, d)

/-- rhe_shift. -/
def rheShift (v sh : Int) : Int :=
  if sh < 0 then (if v = 0 then 0 else if v > 0 then 2 ^ 40 else -(2 ^ 40))
  else if sh > 63 then 0
  else if sh = 0 then v
  else
    let k : Int := 2 ^ sh.toNat
    let q := v / k
    let r := v - q * k
    let half := k / 2
    if r > half ∨ (r = half ∧ q % 2 = 1) then q + 1 else q

/-- split of a finite binary16. -/
def split16 (x : Nat) : Nat × Int :=
  let ef := x / 1024 % 32
  let mf := x % 1024
  if ef = 0 then (mf, -24) else (mf + 0x400, (ef : Int) - 25)

/-- Which range event a record or shift belongs to (R217, R247, R250). -/
inductive RangeEv where
  | none | lo | hi
deriving DecidableEq, Repr

/-- A code with its clip, its range event and `y + zp` before clipping where one is formed. -/
structure QRes where
  q : Int
  clip : Bool := false
  ev : RangeEv := .none
  raw : Option Int := none
deriving DecidableEq, Repr

/-- Clip `y` to a code range. -/
def clipTo (lo hi y : Int) : QRes :=
  if y > hi then { q := hi, clip := true, raw := some y }
  else if y < lo then { q := lo, clip := true, raw := some y }
  else { q := y, raw := some y }

/-- rq_a8 (R247). -/
def rqA8 (acc : Int) (wrec arec orec : Nat) : QRes :=
  let zo := recZp orec
  if !(recValid wrec) || !(recValid arec) || !(recValid orec) then { q := zo, ev := .lo }
  else
    let p := normMult (recMant wrec * recMant arec) (recMant orec)
    let sh := 15 - p.2 - recExp wrec - recExp arec + recExp orec
    let y := rheShift (acc * p.1) sh + zo
    { clipTo 0 255 y with ev := if sh > 63 then .lo else if sh < 0 then .hi else .none }

/-- Code range and rounding of an output format: 0 A8, 1 G8, 2 M8, 3 V8 (R249, R253). -/
def fmtLo (f : Nat) : Int := if f = 1 ∨ f = 2 then -127 else 0
def fmtHi (f : Nat) : Int := if f = 1 ∨ f = 2 then 127 else 255
def fmtQmax (f : Nat) : Nat := if f = 3 then 255 else 127
def fmtZp (f : Nat) : Nat := if f = 0 then 128 else 0

/-- The zero point that a record gives in a format: bits [31:24] count only for A8 (R214). -/
def fmtRecZp (f rec : Nat) : Nat := if f = 0 then recZp rec else 0

/-- The range event of a record in QZ (R250). -/
def qzRange (rec : Nat) : RangeEv :=
  if !(recValid rec) then .lo
  else
    let p := normMult (2 ^ 31) (recMant rec)
    let shT := 16 + recExp rec - p.2
    if shT - 5 > 63 then .lo else if shT + 24 < 0 then .hi else .none

/-- Does QZ round element `x` stochastically under record `rec` (R237, R251)? -/
def qzRounds (x rec : Nat) : Bool :=
  let sh := 16 + recExp rec - (normMult (2 ^ 31) (recMant rec)).2 - (split16 x).2
  recValid rec && isFin (f16 x) && decide (0 ≤ sh) && decide (sh ≤ 63)

/-- qz_code (R249), with the stochastic rounding of R251 for G8 when a 16-bit `u` is given. -/
def qzCode (x rec : Nat) (fmt : Nat) (u : Option Nat) : QRes :=
  let zp : Int := fmtRecZp fmt rec
  let ev := qzRange rec
  if !(recValid rec) then { q := zp, ev := ev }
  else
    match f16 x with
    | .nan => { q := zp, clip := true, ev := ev }
    | .inf s => { q := if s then fmtLo fmt else fmtHi fmt, clip := true, ev := ev }
    | .fin s _ _ =>
      let fx := split16 x
      let p := normMult (2 ^ 31) (recMant rec)
      let sh := 16 + recExp rec - p.2 - fx.2
      let v : Int := fx.1 * p.1
      let sg : Int := if s then -1 else 1
      let y :=
        match u with
        | none => sg * rheShift v sh
        | some u =>
          if sh < 0 ∨ sh > 63 then sg * rheShift v sh
          else (sg * v * 65536 + u * 2 ^ sh.toNat) / (2 ^ (sh.toNat + 16) : Int)
      { clipTo (fmtLo fmt) (fmtHi fmt) (y + zp) with ev := ev }

/-- The smallest k at or above `k` with f × 2^k ≥ 0x8000 × qmax; `fuel` bounds the steps. -/
def dynK : Nat → Nat → Nat → Nat → Nat
  | 0, _, _, k => k
  | n + 1, f, qmax, k => if f * 2 ^ k < 0x8000 * qmax then dynK n f qmax (k + 1) else k

/-- dyn_scale (R252). -/
def dynScale (amax qmax zp : Nat) : Nat :=
  if amax % 0x8000 = 0 then recSmallest zp
  else
    let fx := split16 amax
    let k := dynK 64 fx.1 qmax 0
    let m := ceilDiv (fx.1 * 2 ^ k) qmax
    let m' := if m = 0x10000 then 0x8000 else m
    let k' : Int := if m = 0x10000 then k - 1 else k
    zp * 16777216 + lowBits 8 (fx.2 - k' + 15) * 65536 + m'

/-- The V8 element of x: √max(x, 0), rounded once to binary16 (R253). -/
def v8Root (x : Nat) : Nat :=
  match f16 x with
  | .nan => 0x7E00
  | .inf s => if s then 0 else 0x7C00
  | .fin s m e => if s ∨ m = 0 then 0 else to16 (fSqrt (.fin false m e))

/-- The magnitude of a finite element, 0 for others (R252). -/
def finMag (x : Nat) : Nat := if isFin (f16 x) then x % 0x8000 else 0

/-- amax of a row (R252): binary16 magnitudes order as their bit patterns. -/
def rowAmax (xs : List Nat) : Nat := xs.foldl (fun m x => max m (finMag x)) 0

/-! ### Stochastic rounding (R237 to R239) -/

/-- next_u (R238): the lane's new state, of which u is bits [15:0]. -/
def nextLane (st : Nat) : Nat := if st % 2 = 1 then (st / 2) ^^^ 0x80200003 else st / 2

/-- The seed of lane `l` on engine `k` (R239). -/
def laneSeed (seed l k : Nat) : Nat :=
  let s := seed ^^^ (0x9E3779B9 * l % 2 ^ 32) ^^^ (2 ^ 24 * k)
  if s = 0 then 1 else s

/-! ### Matrix accumulation (R228 to R231, R236) -/

/-- sat32 (R229): the delivered value and whether it was clipped (R230). -/
def sat32 (x : Int) : Int × Bool :=
  if x > 2147483647 then (2147483647, true) else if x < -2147483648 then (-2147483648, true) else (x, false)

/-- The corrected accumulator of R229 in its 48-bit width, before sat32. -/
def drainCorr (op : Nat) (raw za zb wsum asum bsum : Int) (k : Nat) : Int :=
  if op = 1 ∨ op = 2 then raw - za * wsum
  else if op = 3 ∨ op = 4 then raw - za * bsum
  else if op = 5 then raw - zb * asum - za * bsum + k * za * zb
  else raw

/-- Code `(i, j)` of a weight block of 128 inputs (R221): W8 in 128-byte columns, W4 in 64-byte columns. -/
def blockCode (w4 : Bool) (blk : List Byte) (i j : Nat) : Int :=
  if w4 then
    let b := (blk.getD (64 * j + i / 2) 0).toNat
    sgn 4 (if i % 2 = 0 then b % 16 else b / 16)
  else sgn 8 (blk.getD (128 * j + i) 0).toNat

/-- Add a product to a 40-bit accumulator: once one would carry it beyond its range it stays at the nearest limit for the rest of the
pass (R228). -/
def accAdd (a : Int × Bool) (p : Int) : Int × Bool :=
  if a.2 then a
  else
    let x := a.1 + p
    if x > 2 ^ 39 - 1 then (2 ^ 39 - 1, true) else if x < -(2 ^ 39) then (-(2 ^ 39), true) else (x, false)

/-- A sum of products from 0. -/
def acc40 (ps : List Int) : Int := (ps.foldl accAdd (0, false)).1

/-! ### Vector functions (R137, R233, R235, R814) -/

/-- RQ_F16 (R235, R248): one rounding of the exact product. -/
def rqF16 (acc : Int) (wrec arec : Nat) : Nat × Bool :=
  if !(recValid wrec) || !(recValid arec) then (0, true)
  else (to16 (fMul (fInt acc) (fMul (recScale wrec) (recScale arec))), false)

/-- DEQ_A8 (R235, R248). -/
def deqA8 (q rec : Nat) : Nat × Bool :=
  if !(recValid rec) then (0, true)
  else (to16 (fMul (fInt ((q : Int) - recZp rec)) (recScale rec)), false)

/-- A binary16 value moved by at most `bound` places, the device's own choice within its accuracy (R137); `xs` are its operands. -/
def ulpMove (bound : Int) (func : Nat) (xs : List Nat) (v : Nat) : Nat :=
  let mv := clampI (-bound) bound (Config.vxUlp func (xs.map (BitVec.ofNat 16)))
  let y := (v % 0x8000 : Nat) + mv
  if 0x400 ≤ v % 0x8000 ∧ v % 0x8000 < 0x7C00 ∧ 0x400 ≤ y ∧ y < 0x7C00 then v / 0x8000 * 0x8000 + y.toNat else v

/-- A finite value in units of 2^−160, clamped to ±64: beyond it every function below has reached its limit in binary16. -/
def fixOf : FV → Int
  | .fin s m e =>
    let x : Nat := if 0 ≤ e + 160 then m * 2 ^ (e + 160).toNat else m / 2 ^ (-(e + 160)).toNat
    clampI (-64 * 2 ^ 160) (64 * 2 ^ 160) (if s then -(x : Int) else x)
  | _ => 0

/-- The exponential of a number in units of 2^−160, in those units: the Taylor series at a 4,096th of the argument, squared twelve
times. -/
def expFix (x : Int) : Int :=
  let y := x / 4096
  let t := (List.range 24).foldl (fun (a : Int × Int) n => let t := a.2 * y / 2 ^ 160 / (n + 1 : Nat); (a.1 + t, t))
    ((2 ^ 160 : Int), (2 ^ 160 : Int))
  (List.range 12).foldl (fun a _ => a * a / 2 ^ 160) t.1

/-- A number in units of 2^−160 as a value. -/
def ofFix (x : Int) : FV := .fin (decide (x < 0)) x.natAbs (-160)

/-- e^y / (1 + e^y). -/
def sigmoidV (y : Int) : FV := let e := expFix y; fDiv (ofFix e) (ofFix (2 ^ 160 + e))

/-- The exact value of an element function at a finite operand (R137): EXP, TANH, GELU in its tanh form, SILU. -/
def vxExact (func : Nat) (x : FV) : FV :=
  match func with
  | 0x08 => ofFix (expFix (fixOf x))
  | 0x0B => let e := expFix (fixOf (fMul (fInt 2) x)); fDiv (ofFix (e - 2 ^ 160)) (ofFix (e + 2 ^ 160))
  | 0x0C =>
    -- 2 √(2 / π) (x + 0.044715 x³), with 2 / π to 40 decimal places
    let c := fSqrt (fDiv (fInt 6366197723675813430755350534900574481378) (fInt (10 ^ 40)))
    let u := fMul (fMul (fInt 2) c) (fAdd x (fMul (fDiv (fInt 44715) (fInt 1000000)) (fMul x (fMul x x))))
    fMul x (sigmoidV (fixOf u))
  | _ => fMul x (sigmoidV (fixOf x))

/-- The limits of R814 at infinities, zeros and NaN for the element functions 0x08 to 0x0D; none elsewhere. -/
def vxLimit (func x : Nat) : Option Nat :=
  match f16 x with
  | .nan => some 0x7E00
  | .inf s =>
    match func with
    | 0x08 => some (if s then 0 else 0x7C00)
    | 0x09 => some (if s then 0x8000 else 0)
    | 0x0A => some (if s then 0x7E00 else 0)
    | 0x0B => some (if s then 0xBC00 else 0x3C00)
    | _ => some (if s then 0x8000 else 0x7C00)
  | .fin s m _ =>
    if m = 0 then
      match func with
      | 0x08 => some 0x3C00
      | 0x09 => some (if s then 0xFC00 else 0x7C00)
      | 0x0A => some (if s then 0xFC00 else 0x7C00)
      | _ => some (if s then 0x8000 else 0)
    else if func = 0x0A ∧ s then some 0x7E00
    else none

/-- A one-operand function of binary16: EXP, RECIP, RSQRT, TANH, GELU, SILU (R137, R233, R814). -/
def vxUnary (func x : Nat) : Nat :=
  match vxLimit func x with
  | some y => y
  | none =>
    if func = 0x09 then ulpMove 1 func [x] (to16 (fDiv (fInt 1) (f16 x)))
    else if func = 0x0A then ulpMove 1 func [x] (to16 (fDiv (fInt 1) (fSqrt (f16 x))))
    else ulpMove (if func = 0x08 then 1 else 2) func [x] (to16 (vxExact func (f16 x)))

def vxAdd (a b : Nat) : Nat := to16 (fAdd (f16 a) (f16 b))
def vxMul (a b : Nat) : Nat := to16 (fMul (f16 a) (f16 b))
def vxMulAdd (a b c : Nat) : Nat := to16 (fAdd (fMul (f16 a) (f16 b)) (f16 c))

/-- ADD_I32 (R236). -/
def addI32 (a b : Nat) : Nat × Bool :=
  let r := sat32 (sgn 32 a + sgn 32 b)
  (lowBits 32 r.1, r.2)

/-- SOFTMAX of a row (R137, R233): a NaN makes every output 0x7E00; a row whose maximum is infinite has no outputs that the manual
states. -/
def vxSoftmax (xs : List Nat) : List Nat :=
  let vs := xs.map f16
  let top := vs.foldl (fun m x => if fLt m x then x else m) (.inf true)
  if vs.any isNan then xs.map (fun _ => 0x7E00)
  else if !(isFin top) then
    (List.range xs.length).map (fun i => (Config.vxFunction 0x0E (BitVec.ofNat 16 i :: xs.map (BitVec.ofNat 16))).toNat)
  else
    let es := vs.map (fun x => if isFin x then expFix (fixOf (fAdd x (fNeg top))) else 0)
    let t := es.foldl (fun a e => a + e) 0
    es.zipIdx.map (fun (e : Int × Nat) => ulpMove 3 0x0E (e.2 :: xs) (to16 (fDiv (ofFix e.1) (ofFix t))))

/-- ARGMAX of a row: the first NaN, else the lowest index of the maximum (R137, R233). -/
def vxArgmax (xs : List Nat) : Nat :=
  match xs.findIdx? (fun x => isNan (f16 x)) with
  | some i => i
  | none =>
    (xs.zipIdx.foldl (fun (b : Nat × Nat) p => if fLt (f16 b.1) (f16 p.1) then p else b) (xs.getD 0 0, 0)).2

/-- ROPE of element pair `(a, b)` at a position, with the angle table's bytes (R137); a NaN gives NaN (R233). The manual does not say how
the table's bytes give the angles. -/
def vxRope (a b pos i : Nat) (table : List Nat) : Nat × Nat :=
  let h := BitVec.ofNat 16
  let ops := [h a, h b, h pos, h (pos / 65536), h i] ++ table.map h
  if isNan (f16 a) ∨ isNan (f16 b) then (0x7E00, 0x7E00)
  else ((Config.vxFunction 0x11 (0 :: ops)).toNat, (Config.vxFunction 0x11 (1 :: ops)).toNat)

/-- Pairwise addition over the lower `w` lanes (R815). -/
def foldLanes (w : Nat) (lane : List FV) : List FV :=
  (List.range w).map (fun l => r32 (fAdd (lane.getD l .nan) (lane.getD (l + w) .nan)))

/-- row_sum32 (R815). -/
def rowSum32 (vs : List FV) : FV :=
  let z := List.replicate 64 (FV.fin false 0 0)
  let lanes := (vs.zipIdx).foldl (fun ln p =>
    ln.set (p.2 % 64) (r32 (fAdd (ln.getD (p.2 % 64) .nan) p.1))) z
  (([32, 16, 8, 4, 2, 1].foldl (fun ln w => foldLanes w ln) lanes).getD 0 .nan)

/-- norm_stats (R815): mean and r. -/
def normStats (layer : Bool) (xs : List Nat) (eps : Nat) : FV × FV :=
  let xf := xs.map f16
  let n := fInt xs.length
  let ms := r32 (fDiv (rowSum32 (xf.map (fun x => r32 (fMul x x)))) n)
  let mean := if layer then r32 (fDiv (rowSum32 xf) n) else .fin false 0 0
  let var :=
    if layer then
      let v := r32 (fAdd ms (fNeg (r32 (fMul mean mean))))
      if fLt (.fin false 0 0) v then v else .fin false 0 0
    else ms
  (mean, r32 (fDiv (fInt 1) (r32 (fSqrt (r32 (fAdd var (f32 eps)))))))

/-- RMSNORM or LAYERNORM of a row with its gain and bias (R815). -/
def vxNorm (layer : Bool) (xs gain bias : List Nat) (eps : Nat) : List Nat :=
  if xs.any (fun x => !(isFin (f16 x))) then xs.map (fun _ => 0x7E00)
  else
    let st := normStats layer xs eps
    xs.zipIdx.map (fun p =>
      let y := fMul (fMul (fAdd (f16 p.1) (fNeg st.1)) st.2) (f16 (gain.getD p.2 0))
      to16 (if layer then fAdd y (f16 (bias.getD p.2 0)) else y))

/-! ### The optimiser (R503) -/

/-- The fields of a step record that OPT_STEP reads (R489). -/
structure StepRec where
  lr : Nat
  b1 : Nat
  omb1 : Nat
  b2 : Nat
  omb2 : Nat
  eps : Nat
  wd : Nat
  c1 : Nat
  c2 : Nat
deriving DecidableEq, Repr

def m32 (a b : FV) : FV := r32 (fMul a b)
def a32 (a b : FV) : FV := r32 (fAdd a b)

/-- opt_elem (R503): new moments, new master, and whether the master was kept. -/
def optElem (qg : Int) (grec : Nat) (qm : Int) (mrec : Nat) (qv vrec w : Nat) (k : StepRec) : (FV × FV) × (Nat × Bool) :=
  let sc := fun r => r32 (recScale r)
  let g := m32 (sc grec) (fInt qg)
  let m := m32 (sc mrec) (fInt qm)
  let r := m32 (sc vrec) (fInt qv)
  let v := m32 r r
  let m1 := a32 (m32 (f32 k.b1) m) (m32 (f32 k.omb1) g)
  let v1 := a32 (m32 (f32 k.b2) v) (m32 (f32 k.omb2) (m32 g g))
  let dd := r32 (fDiv (m32 m1 (f32 k.c1)) (a32 (r32 (fSqrt (m32 v1 (f32 k.c2)))) (f32 k.eps)))
  let w32 := f16 w
  let w2 := a32 w32 (fNeg (m32 (f32 k.lr) (a32 dd (m32 (f32 k.wd) w32))))
  let keep := !(isFin w2) || !(isFin (f16 (to16 w2)))
  ((m1, v1), (if keep then w else to16 w2, keep))

/-- The bias-correction fields of a step record (R489): 1 − β and 1 / (1 − β^T), in binary64, rounded once to binary32. The
binary64 power is the implementation's own. -/
def oneMinus (beta : Nat) : Nat := to32 (f64 (to64 (fAdd (fInt 1) (fNeg (f32 beta)))))
def biasCorr (beta t : Nat) : Nat :=
  let p := f64 (Config.betaPow beta t).toNat
  to32 (f64 (to64 (fDiv (fInt 1) (f64 (to64 (fAdd (fInt 1) (fNeg p)))))))

end Sys2Proof.Machine
end

