-- ==== Sys2Proof/Machine/Quant.lean ====
section
/-! DEFINITION. Quantiser entries (spec 06): rows and their records, clips, range events, saturation windows, fallback and
calibration (R242 to R267). -/

namespace Sys2Proof.Machine

/-- An element as VX holds it: its bits and whether a poisoned input fed it (R534 to R537). -/
abbrev Elem := Nat × Bool

/-- What entry `n` of engine `k` holds beside its registers. -/
def qzRt (d : Dev) (k n : Nat) : QzRt := mgetD d.engs.qz (64 * k + n) {}
def qzUpd (k n : Nat) (f : QzRt → QzRt) (d : Dev) : Dev :=
  { d with engs := { d.engs with qz := mupd d.engs.qz (64 * k + n) {} f } }

/-- Set completion flags of a batch (R260). -/
def batchFlags (own : Option (Nat × Nat)) (flags : Nat) (d : Dev) : Dev :=
  match own with
  | none => d
  | some (p, q) =>
    if flags = 0 then d
    else
      let pp := mgetD d.pipes p {}
      { d with pipes := mput d.pipes p { pp with batches := pp.batches.map (fun b =>
          if b.seq = q then { b with flags := b.flags ||| flags } else b) } }

/-! ### Counters (R230, R236, R258, R267) -/

/-- Count accumulator clips on engine `k` and raise MX_ACC_SAT (R230, R236). -/
def accClips (k n : Nat) (d : Dev) : Dev :=
  if n = 0 then d
  else cntAdd (Reg.QZ_ACC_SAT k) F.QZ_ACC_SAT_COUNT F.QZ_ACC_SAT_OVF n (srcEng 8 k) d |> raise (srcEng 9 k)

/-- Count clipped elements of an entry (R258). -/
def qzClips (k n c : Nat) (d : Dev) : Dev :=
  if c = 0 then d
  else cntAdd (Reg.QZ_SAT_CNT k n) F.QZ_SAT_CNT_COUNT F.QZ_SAT_CNT_OVF c (srcEng 8 k) d

/-- The batches of a list that are still in their pipelines, with one more. -/
def ownAdd (d : Dev) (own : Nat × Nat) (l : List (Nat × Nat)) : List (Nat × Nat) :=
  l.filter (fun x => (mgetD d.pipes x.1 {}).batches.any (fun b => b.seq == x.2)) ++ [own]

/-- Has an event been raised for a batch already? Work that belongs to no batch raises it each time. -/
def ownSeen (own : Option (Nat × Nat)) (l : List (Nat × Nat)) : Bool := own.any (fun o => l.contains o)

/-- Elements under a range event: counted each, raised once per entry and batch (R250, R257). -/
def qzRanges (k n lo hi : Nat) (own : Option (Nat × Nat)) (d : Dev) : Dev :=
  let d := if lo = 0 then d else
    let d := cntAdd (Reg.QZ_RANGE_CNT k n) F.QZ_RANGE_CNT_LO F.QZ_RANGE_CNT_OVF lo (srcEng 8 k) d
    if ownSeen own (qzRt d k n).lo then d
    else qzUpd k n (fun q => { q with lo := (own.map (fun o => ownAdd d o q.lo)).getD q.lo }) d
      |> sf (Reg.QZ_STAT k n) F.QZ_STAT_RANGE_LO 1 |> raise (srcEng 6 k) |> batchFlags own 16
  if hi = 0 then d
  else
    let d := cntAdd (Reg.QZ_RANGE_CNT k n) F.QZ_RANGE_CNT_HI F.QZ_RANGE_CNT_OVF hi (srcEng 8 k) d
    if ownSeen own (qzRt d k n).hi then d
    else qzUpd k n (fun q => { q with hi := (own.map (fun o => ownAdd d o q.hi)).getD q.hi }) d
      |> sf (Reg.QZ_STAT k n) F.QZ_STAT_RANGE_HI 1 |> raise (srcEng 7 k) |> batchFlags own 16

/-- RQ_F16 and DEQ_A8 raise QZ_RANGE_LO for a record with MANT bit 15 clear (R248). -/
def qzLow (k n : Nat) (lo : Nat) (own : Option (Nat × Nat)) (d : Dev) : Dev := qzRanges k n lo 0 own d

/-- Count the results of a run of elements: clips, range events, and the extremes of `y + zp` (R258, QZ_EXT). -/
def qzCount (k n : Nat) (rs : List QRes) (own : Option (Nat × Nat)) (d : Dev) : Dev :=
  let clips := (rs.filter QRes.clip).length
  let lo := (rs.filter (fun r => r.ev == .lo)).length
  let hi := (rs.filter (fun r => r.ev == .hi)).length
  let raws := rs.filterMap QRes.raw
  let d := qzClips k n clips d |> qzRanges k n lo hi own
  raws.foldl (fun d (y : Int) =>
    let y := clampI (-(2 ^ 31)) (2 ^ 31 - 1) y
    let d := if y > sgn 32 (gf d (Reg.QZ_EXT k n) F.QZ_EXT_QMAX) then
        sf (Reg.QZ_EXT k n) F.QZ_EXT_QMAX (lowBits 32 y) d else d
    if y < sgn 32 (gf d (Reg.QZ_EXT k n) F.QZ_EXT_QMIN) then
      sf (Reg.QZ_EXT k n) F.QZ_EXT_QMIN (lowBits 32 y) d else d) d

/-- The largest finite input magnitude of a QZ stage (QZ_AMAX). -/
def qzAmax (k n : Nat) (xs : List Nat) (d : Dev) : Dev :=
  let m := rowAmax xs
  if m > gf d (Reg.QZ_AMAX k n) F.QZ_AMAX_AMAX then sf (Reg.QZ_AMAX k n) F.QZ_AMAX_AMAX m d else d

/-! ### Windows, fallback and calibration (R258 to R263) -/

/-- Evaluate a full window (R258): the clip fraction against SAT_THRESH, the event, and the fallback of a MODE 2 entry
(R259). -/
def qzWindowEnd (k n : Nat) (d : Dev) : Dev :=
  match qzOf d k n with
  | none => d
  | some c =>
    let q := qzRt d k n
    if q.rows < c.window then d
    else
      let sat := decide (65536 * q.clips > c.thresh * q.elems)
      let d := qzUpd k n (fun q => { q with rows := 0, elems := 0, clips := 0, own := none }) d
      if sat then
        let d := sf (Reg.QZ_STAT k n) F.QZ_STAT_SAT 1 d |> raise (srcEng 5 k) |> batchFlags q.own 4
        if c.mode = 2 then sf (Reg.QZ_STAT k n) F.QZ_STAT_FALLEN 1 d else d
      else d

/-- Evaluate every full window: a batch completes with the events of its rows (R260). -/
def qzSettle (d : Dev) : Dev := forEach (d.engs.qz.map Prod.fst) (fun x d => qzWindowEnd (x / 64) (x % 64) d) d

/-- A write to QZ_SCALE (R261 to R263): a window that is full is evaluated first; a bad record, an entry that is not VALID or one
whose OUT_SCALE is 0 is refused. -/
def qzCalibrate (k n v : Nat) (d : Dev) : Dev :=
  let d := qzWindowEnd k n d
  let out := ((qzOf d k n).map QzCfg.out).getD 0
  if recValid v && gb d (Reg.QZ_STAT k n) F.QZ_STAT_VALID && out != 0 then
    sf (Reg.QZ_SCALE k n) F.QZ_SCALE_SCALE v d |> qzUpd k n (fun q => { q with cal := true })
  else sf (Reg.QZ_STAT k n) F.QZ_STAT_SCALE_REJ 1 d

/-- A row of an entry begins (R244, R258, R259, R261): a due window is evaluated, a waiting calibration takes effect, and the row takes
its record, none while the entry has fallen back. -/
def qzRowStart (k n : Nat) (d : Dev) : Option Nat × Dev :=
  let d := qzWindowEnd k n d
  let d := if (qzRt d k n).cal then
      sf (Reg.QZ_STAT k n) F.QZ_STAT_FALLEN 0 d
        |> qzUpd k n (fun q => { q with cal := false, rows := 0, elems := 0, clips := 0, own := none })
    else d
  (if gb d (Reg.QZ_STAT k n) F.QZ_STAT_FALLEN then none else some (gf d (Reg.QZ_SCALE k n) F.QZ_SCALE_SCALE), d)

/-- A static row of an entry ends: it joins the window unless the entry has fallen back (R258, R259). -/
def qzRowEnd (k n : Nat) (r : RowRt) (own : Option (Nat × Nat)) (d : Dev) : Dev :=
  whenB (r.rec_.isSome && !(gb d (Reg.QZ_STAT k n) F.QZ_STAT_FALLEN)) (qzUpd k n (fun x =>
    { x with rows := x.rows + 1, elems := x.elems + r.n, clips := x.clips + r.clips, own := own })) d

/-- The batch ended for a stage: rows of its entry that are not full are short rows (R255). -/
def qzBatchEnd (key k n : Nat) (own : Option (Nat × Nat)) (d : Dev) : Dev :=
  let open_ := (stageRt d key).rows.filter (fun r => r.2.n != 0 || !r.2.xs.isEmpty)
  open_.foldl (fun d r => sf (Reg.QZ_STAT k n) F.QZ_STAT_SHORT_ROW 1 d |> qzRowEnd k n r.2 own) d

/-! ### Rows of QZ (R249 to R256) -/

/-- The codes of a run of elements under one static record: a part of row `r`, which they join. -/
def qzStatic (k n fmt rec_ : Nat) (own : Option (Nat × Nat)) (xs : List Elem) (r : RowRt) (d : Dev) : List Elem × RowRt × Dev :=
  let rs := xs.map (fun x => qzCode x.1 rec_ fmt none)
  let d := qzCount k n rs own d |> qzAmax k n (xs.map Prod.fst)
  ((rs.zip xs).map (fun (p : QRes × Elem) => (lowBits 8 p.1.q, p.2.2)),
    { r with n := r.n + xs.length, clips := r.clips + rs.countP QRes.clip }, d)

/-- Draw values from the lane generators for elements `i …` that are rounded, element `n` of a row from lane `n mod 64` (R238). -/
def laneDraw : List Bool → Nat → List Nat → List Nat × List Nat
  | [], _, ls => ([], ls)
  | false :: bs, i, ls => let r := laneDraw bs (i + 1) ls; (0 :: r.1, r.2)
  | true :: bs, i, ls =>
    let s := nextLane (ls.getD (i % 64) 1)
    let r := laneDraw bs (i + 1) (ls.set (i % 64) s)
    (s % 65536 :: r.1, r.2)

/-- The codes and the record of a whole dynamic row or block (R252 to R254): `h` is the engine whose lanes round G8. A poisoned
element poisons every code and the record (R536). -/
def qzDynamic (h k n fmt : Nat) (own : Option (Nat × Nat)) (xs : List Elem) (d : Dev) : (List Elem × Elem) × Dev :=
  let vs := xs.map (fun x => if fmt = 3 then v8Root x.1 else x.1)
  let rec_ := dynScale (rowAmax vs) (fmtQmax fmt) (fmtZp fmt)
  let lanes := mgetD d.engs.lanes h (List.replicate 64 1)
  let us := if fmt = 1 then laneDraw (vs.map (fun x => qzRounds x rec_)) 0 lanes else ([], lanes)
  let d := if fmt = 1 then { d with engs := { d.engs with lanes := mput d.engs.lanes h us.2 } } else d
  let rs := vs.zipIdx.map (fun (p : Nat × Nat) => qzCode p.1 rec_ fmt (if fmt = 1 then some (us.1.getD p.2 0) else none))
  let d := qzClips k n (rs.filter QRes.clip).length d |> qzAmax k n (xs.map Prod.fst)
  let d := batchFlags own (if gb d (Reg.QZ_STAT k n) F.QZ_STAT_FALLEN then 8 else 0) d
  let p := xs.any Prod.snd
  ((rs.map (fun r => (lowBits 8 r.q, p)), (rec_, p)), d)

end Sys2Proof.Machine
end

