-- ==== Sys2Proof/Machine/Slots.lean ====
section
/-! DEFINITION. Model slots and their sides, extents and free space, sessions and reference counts, releases with their
background erases, and the side switch of a castle (spec 09 and 10). -/

namespace Sys2Proof.Machine

/-! ### Slots and sides (R411, R412) -/

def mslotUpd (n : Nat) (f : MSlot → MSlot) (d : Dev) : Dev :=
  { d with slots := { d.slots with slots := mupd d.slots.slots n {} f } }

def sideUpd (n s : Nat) (f : Side → Side) (d : Dev) : Dev :=
  mslotUpd n (fun m => if s = 0 then { m with k := f m.k } else { m with q := f m.q }) d

/-! ### Fingerprint (R96 to R98) -/

/-- Recompute the fingerprint (R97); it reads 0 with no active image (R98). -/
def fpRecompute (d : Dev) : Dev :=
  let v :=
    match activeSlot d with
    | none => 0
    | some _ =>
      let img := (List.range 8).flatMap (fun i => leBytes 8 (rd d (Reg.IMG_DIGEST_ACT i)).toNat)
      let sides := (List.range 64).flatMap (fun n =>
        match liveSide d n with
        | some s => padTo 64 0 (sideOf d n s).digest
        | none => List.replicate 64 0)
      leNat ((sha512 (img ++ sides ++ leBytes 4 (activeEpoch d))).take 8)
  wr Reg.IMG_FP (BitVec.ofNat 64 v) d
    |> sf Reg.IMG_FP_SEQ F.IMG_FP_SEQ_SEQ (gf d Reg.IMG_FP_SEQ F.IMG_FP_SEQ_SEQ + 1)

/-! ### Reference counts and sessions (R414, R419) -/

def sessKey (slot s : Nat) : Nat := 65536 * slot + s

def refCount (d : Dev) (n s : Nat) : Nat := refBatches d n s + refSessions d n s

/-! ### Extents and free space (R376 to R383) -/

def unitBytes : Nat := 0x80000

/-- The extents of a shard of a side, a shared one through the other side (R382). -/
def shardExts (d : Dev) (n s shard : Nat) : List Extent :=
  let own := fun (s shard : Nat) =>
    (d.le.exts.filter (fun e => e.2.slot == n && e.2.side == s && e.2.shard == shard)).map Prod.snd
  match mget (sideOf d n s).share shard with
  | some t => own (1 - s) t
  | none => own s shard

/-- The first local address of an extent. -/
def extAddr (e : Extent) : Nat := if e.dram then dramBase + e.loc else arrayBase e.stack + e.loc

/-- The local address of tile `t` of a shard placed in `es`. -/
def extTile (es : List Extent) (t : Nat) : Option Nat :=
  (es.find? (fun e => decide (e.first ≤ t) && decide (t < e.first + e.tiles))).map (fun e => extAddr e + 16384 * (t - e.first))

/-- The `len` bytes of a shard through a read of each tile: poison of any granule (R392). -/
def extRead (master : Nat) (es : List Extent) (len : Nat) (d : Dev) : Option (List Byte × Bool) × Dev :=
  (List.range (len / 16384)).foldl (fun acc t =>
    match acc.1, extTile es t with
    | some (bs, p), some a =>
      match masterRead master a 16384 acc.2 with
      | (.ok x q, d) => (some (bs ++ x, p || q), d)
      | (.err _, d) => (none, d)
    | _, _ => (none, acc.2)) (some ([], false), d)

/-- The address of the first poisoned granule of the first `len` bytes of extents (R540), 0 if none stands there. -/
def extPoisonAt (d : Dev) (es : List Extent) (len : Nat) : Nat :=
  ((List.range (len / 16384)).findSome? (fun t => (extTile es t).bind (fun a =>
    ((granRange a 16384).find? (badGran d)).map (32 * ·)))).getD 0

/-- The plane groups of a quad that hold data. -/
def quadGroups (d : Dev) (k q : Nat) : List Nat := (List.range 4).filter (fun g => !(blockBad d k (g * aryQ d + q)))

/-- Insert by a key, keeping equal keys in order. -/
def insertBy {α : Type} (key : α → Nat) (x : α) : List α → List α
  | [] => [x]
  | y :: ys => if key x < key y then x :: y :: ys else y :: insertBy key x ys

def sortBy {α : Type} (key : α → Nat) (l : List α) : List α := l.foldl (fun acc x => insertBy key x acc) []

/-- Free quads of a stack in the order of R377 and R379: whole ones by largest erase count then position, then broken ones. -/
def quadOrder (d : Dev) (exts : List Extent) (k : Nat) : List Nat :=
  let free := (List.range (aryQ d)).filter (quadFree d exts k)
  let wear := fun q => ((quadBlocks d q).map (fun b => (wearOf d k false b).count)).foldl max 0
  sortBy wear (free.filter (fun q => !(quadBroken d k q))) ++
    sortBy wear (free.filter (fun q => quadBroken d k q && quadGroups d k q != []))

/-- The pieces of a quad in window order, from shard offset `off` (R379). -/
def quadPieces (d : Dev) (k q off len : Nat) : List Piece :=
  ((List.range 8).flatMap (fun u => (quadGroups d k q).map (fun g => (u, g)))).zipIdx.filterMap (fun p =>
    let o := off + p.2 * unitBytes
    if o < len then some ⟨k, p.1.2 * aryQ d + q, p.1.1, o, min unitBytes (len - o)⟩ else none)

/-- Take quads in order until `len` bytes fit; none if they do not (R376, R378). -/
def takeQuads (d : Dev) (k len : Nat) : Nat → List Nat → Option (List Piece)
  | off, [] => if off ≥ len then some [] else none
  | off, q :: qs =>
    if off ≥ len then some []
    else
      let n := (quadGroups d k q).length * 8 * unitBytes
      (takeQuads d k len (off + n) qs).map (fun l => quadPieces d k q off len ++ l)

/-- Merge pieces at consecutive window offsets into extents (R383). -/
def pieceExts (d : Dev) (n s shard : Nat) (ps : List Piece) : List Extent :=
  (ps.foldl (fun acc p =>
    let loc := unitOff d p.block p.unit
    match acc with
    | e :: rest =>
      if e.stack = p.stack ∧ e.loc + 16384 * e.tiles = loc ∧ (e.first + e.tiles) * 16384 = p.off then
        { e with tiles := e.tiles + p.len / 16384 } :: rest
      else ⟨n, s, shard, p.off / 16384, p.len / 16384, false, p.stack, loc, 1⟩ :: acc
    | [] => [⟨n, s, shard, p.off / 16384, p.len / 16384, false, p.stack, loc, 1⟩]) []).reverse

/-- Free quads of a stack, for R376 step 2. -/
def freeQuads (d : Dev) (exts : List Extent) (k : Nat) : Nat := (quadOrder d exts k).length

/-- Is the DRAM tile at offset `loc` from the DRAM base in use: by an extent, a placed adapter, or quarantine (R569)? -/
def dramUsed (d : Dev) (exts : List Extent) (objs : List (Nat × Nat)) (loc : Nat) : Bool :=
  exts.any (fun e => e.dram && decide (e.loc ≤ loc) && decide (loc < e.loc + 16384 * e.tiles)) ||
  objs.any (fun o => decide (o.1 ≤ loc) && decide (loc < o.1 + 16384 * o.2)) ||
  d.arb.quar.contains (dramBase + loc)

/-- Adapter objects as DRAM offset and tiles. -/
def adapterSpans (d : Dev) : List (Nat × Nat) :=
  (d.tm.objs.filter (fun o => o.2.kind == 2)).map (fun o => (o.2.back - dramBase, o.2.size))

/-- First fit of `tiles` consecutive tiles in the overflow area (R381). -/
def dramFit (d : Dev) (exts : List Extent) (objs : List (Nat × Nat)) (tiles : Nat) : Option Nat :=
  let base := (rd d Reg.LE_DRAM_BASE).toNat
  let n := (rd d Reg.LE_DRAM_SIZE).toNat / 16384
  if base < dramBase then none
  else
    ((List.range (n + 1 - tiles)).find? (fun i =>
      (List.range tiles).all (fun j => !(dramUsed d exts objs (base - dramBase + 16384 * (i + j)))))).map
        (fun i => base - dramBase + 16384 * i)

/-- The stacks in the order R376 step 2 tries first: the most free quads, the lower index on a tie. -/
def crossStack (d : Dev) (exts : List Extent) (skip : Nat) : Option Nat :=
  ((List.range 16).filter (fun k => k != skip)).foldl (fun best k =>
    match best with
    | none => some k
    | some j => if freeQuads d exts k > freeQuads d exts j then some k else best) none

/-- Place one shard (R376): home stack, cross stack, DRAM; `any` ignores its flags (R560). -/
def placeShard (d : Dev) (exts : List Extent) (objs : List (Nat × Nat)) (any : Bool) (n s : Nat) (m : ManShard) :
    Option (List Extent × List Piece) :=
  let quads := fun k => (takeQuads d k m.len 0 (quadOrder d exts k)).map (fun ps => (pieceExts d n s m.id ps, ps))
  match quads m.engine with
  | some r => some r
  | none =>
    let cross := if any || m.flags.testBit 0 then (crossStack d exts 16).bind quads else none
    match cross with
    | some r => some r
    | none =>
      if any || m.flags.testBit 1 then
        (dramFit d exts objs (m.len / 16384)).map (fun loc => ([⟨n, s, m.id, 0, m.len / 16384, true, 0, loc, 1⟩], []))
      else none

/-- Add extents at the lowest free indices; the table holds 16,384 (R383). -/
def extsAdd (es : List Extent) (d : Dev) : Dev :=
  es.foldl (fun d e =>
    match findBelow 16384 (fun i => !(mhas d.le.exts i)) with
    | some i => { d with le := { d.le with exts := mput d.le.exts i e } }
    | none => d) d

/-- Remove the extents of a shard of a side. -/
def extsDrop (n s shard : Nat) (d : Dev) : Dev :=
  { d with le := { d.le with exts := d.le.exts.filter (fun e => !(e.2.slot == n && e.2.side == s && e.2.shard == shard)) } }

/-! ### Background erases (R404, R434) -/

/-- The blocks that an extent's quads hold. -/
def extBlocks (d : Dev) (e : Extent) : List (Nat × Nat) :=
  if e.dram then []
  else
    let q0 := e.loc / quadBytes
    let q1 := (e.loc + 16384 * e.tiles - 1) / quadBytes
    (List.range (q1 + 1 - q0)).flatMap (fun i => (quadGroups d e.stack (q0 + i)).map (fun g => (e.stack, g * aryQ d + q0 + i)))

/-- Does block `b` read as erased (R278)? -/
def blockErased (d : Dev) (k b : Nat) : Bool :=
  (List.range 8).all (fun u => readsErased d (arrayBase k + unitOff d b u) unitBytes)

/-- A side left RELEASING with nothing to erase is EMPTY (R434). -/
def eraseSettle (d : Dev) : Dev :=
  forN 128 (fun i d =>
    if (sideOf d (i / 2) (i % 2)).st = 5 ∧ d.le.erases.all (fun j => j.owner != some i) then
      sideUpd (i / 2) (i % 2) (fun _ => {}) d |> raise 98
    else d) d

/-- The load engine and the arbiter name their target in ARY_CMD_ARG, as every sequence does (R320, log entry 59). -/
def argSet (k b page : Nat) (d : Dev) : Dev :=
  wr (Reg.ARY_CMD_ARG k) 0 d |> sf (Reg.ARY_CMD_ARG k) F.ARY_CMD_ARG_INDEX b |> sf (Reg.ARY_CMD_ARG k) F.ARY_CMD_ARG_PAGE page

/-- Start every waiting background erase that can start; a refused one is dropped. -/
def eraseKick (d : Dev) : Dev :=
  let d := forEach d.le.erases (fun j d =>
    let k := j.stack
    let g := aryGroup d false j.block
    let drop := fun (d : Dev) => { d with le := { d.le with erases := d.le.erases.erase j } }
    if !(domOn d (32 + k)) then d
    else if (mget (aryOf d k).ops g).any (fun o => o.master == 8 && o.index == j.block) then d
    else if j.check && blockErased d k j.block then drop d
    else
      let c := targetCheck d k false j.block 0 true
      if c = 5 then d
      else if c = 0 then
        setLast k 0 (argSet k j.block 0 d) |> opStart k { op := 1, index := j.block, page := 0, master := 8 }
      else drop (setLast k c (argSet k j.block 0 d))) d
  eraseSettle d

/-- An erase of the arbiter has ended, whatever its outcome: it waits no more (R434). -/
def eraseEnded (k b : Nat) (d : Dev) : Dev :=
  { d with le := { d.le with erases := d.le.erases.filter (fun j => !(j.stack == k && j.block == b)) } }

/-- Free the quads of extents: their blocks are erased in the background, for a side or for none (R404, R433), with `check` only
those that do not read as erased (log entry 60). Blocks marked for retirement are retired instead (R568). -/
def freeExts (owner : Option Nat) (check : Bool) (es : List Extent) (d : Dev) : Dev :=
  forEach (es.flatMap (extBlocks d)) (fun b d =>
    if d.arb.retire.contains b then
      let c := (wearOf d b.1 false b.2).count
      aryRetire b.1 b.2 { d with arb := { d.arb with retire := d.arb.retire.erase b } }
        |> scoreEvent 0x0023 2 b.1 [b.2, c]
    else { d with le := { d.le with erases := d.le.erases ++ [⟨b.1, b.2, owner, check⟩] } }) d

/-! ### Release and retirement (R413, R425, R431, R433) -/

/-- Free an adapter version: its object entry and tiles (R433, R506). -/
def adFree (a : AdVer) (d : Dev) : Dev :=
  let d := dropPlace a.obj d
  { d with tm := { d.tm with objs := mdel d.tm.objs a.obj, ops := d.tm.ops.filter (fun o => o.desc.obj != a.obj) } }

/-- A side is released while migrated copies of its shards wait (R162): those of shards that the other side shares go to that side, the
others are given up. Answers the extents given up. -/
def copiesRelease (n s : Nat) (d : Dev) : List Extent × Dev :=
  let other := (sideOf d n (1 - s)).share
  let mine := fun (c : ShardCopy) => c.slot == n && c.side == s
  let heir := fun (c : ShardCopy) => (other.find? (fun p => p.2 == c.shard)).map Prod.fst
  ((d.arb.moves.filter (fun c => mine c && (heir c).isNone)).flatMap ShardCopy.exts,
    { d with arb := { d.arb with moves := d.arb.moves.filterMap (fun c =>
      if mine c then
        (heir c).map (fun t => { c with side := 1 - s, shard := t, exts := c.exts.map (fun e => { e with side := 1 - s, shard := t }) })
      else some c) } })

/-- A side enters RELEASING: owner counts fall, quads and tiles nobody else holds are freed, adapters are released (R433). -/
def sideRelease (n s : Nat) (d : Dev) : Dev :=
  let me := sideOf d n s
  let other := sideOf d n (1 - s)
  let cs := copiesRelease n s d
  let d := cs.2
  -- extents of mine that the other side shares become the other side's
  let d := { d with le := { d.le with exts := mmap d.le.exts (fun _ e =>
    if e.slot == n && e.side == s then
      match other.share.find? (fun p => p.2 == e.shard) with
      | some (t, _) => { e with side := 1 - s, shard := t, owners := 1 }
      | none => e
    else if e.slot == n && e.side == 1 - s && me.share.any (fun p => p.2 == e.shard) then { e with owners := 1 }
    else e) } }
  let d := sideUpd n (1 - s) (fun o => { o with share := [] }) d
  let gone := (d.le.exts.filter (fun e => e.2.slot == n && e.2.side == s)).map Prod.snd
  let d := { d with le := { d.le with exts := d.le.exts.filter (fun e => !(e.2.slot == n && e.2.side == s)) } }
  let d := forEach (me.ads.map Prod.snd ++ me.old) (fun a d => adFree a d) d
  let d := sideUpd n s (fun o => { o with st := 5, ads := [], old := [], share := [] }) d
  freeExts (some (2 * n + s)) false (gone ++ cs.1) d |> eraseKick

/-- A RETIRING side whose reference count has reached 0 goes to RELEASING, with ARB_SIDE_RETIRED (R425). -/
def retireCheck (n s : Nat) (d : Dev) : Dev :=
  if (sideOf d n s).st = 4 ∧ refCount d n s = 0 then sideRelease n s d |> raise 97 else d

/-- Both sides of a slot. -/
def retireChecks (n : Nat) (d : Dev) : Dev := retireCheck n 0 d |> retireCheck n 1

/-- Earlier versions of an adapter whose last batch has completed are freed (R506). -/
def oldAdapters (n s : Nat) (d : Dev) : Dev :=
  let used := fun (a : AdVer) => d.pipes.any (fun p => p.2.batches.any (fun b => b.slot == n && b.side == s && b.adObj == some a.obj))
  let gone := (sideOf d n s).old.filter (fun a => !(used a))
  forEach gone (fun a d => adFree a d) (sideUpd n s (fun o => { o with old := o.old.filter used }) d)

/-- Drop the binding of every session bound to a side; they leave its count (R422, R431). -/
def dropBindings (n s : Nat) (d : Dev) : Dev :=
  { d with slots := { d.slots with sessions := mmap d.slots.sessions (fun k x =>
    if k / 65536 == n && x.side == some s then { x with side := none } else x) } }

/-- The hold of a slot ends (R422, R423); a train-run bound to the slot then ends after its step (R498). -/
def holdEnd (n : Nat) (d : Dev) : Dev :=
  match (mslot d n).hold with
  | none => d
  | some (_, s) =>
    let d := mslotUpd n (fun m => { m with hold := none }) d |> dropBindings n s
    let d := { d with train := d.train.map (fun t => if t.slot == n && t.side == s then { t with changed := true } else t) }
    wr Reg.ARB_HOLD_DONE (rd d Reg.ARB_HOLD_DONE ||| BitVec.ofNat 64 (2 ^ n)) d |> raise 99 |> retireCheck n s

/-- The switch cycle S of a castle (R420 step 4, R421, R425 to R427): side `s` becomes LIVE. -/
def castleSwitch (n s : Nat) (rebind : Bool) (d : Dev) : Dev :=
  let d := holdEnd n d
  let old := liveSide d n
  let d := sideUpd n s (fun x => { x with st := 3 }) d
  let d := mslotUpd n (fun m => { m with time := fastTime d, seq := (m.seq + 1) % 2 ^ 32, unavail := none }) d
  let d :=
    match old with
    | none => d
    | some o =>
      let limit := gf d Reg.ARB_CASTLE_HOLD F.ARB_CASTLE_HOLD_HOLD_S * aonHz
      let d := mslotUpd n (fun m => { m with hold := some (aonTime d + limit, o) }) d
      let d := if refCount d n o = 0 then sideRelease n o (sideUpd n o (fun x => { x with st := 4 }) d)
        else sideUpd n o (fun x => { x with st := 4 }) d
      if rebind then holdEnd n d else d
  fpRecompute d

/-- RESULT0 and RESULT1 of an OK castle (R439, R602): shards shared, bytes that the retiring side alone holds. -/
def castleResults (d : Dev) (n s : Nat) : Nat × Nat :=
  let me := sideOf d n s
  let o := sideOf d n (1 - s)
  if (liveSide d n).isNone then (0, 0)
  else
    let shared := me.share.length + o.share.length
    let alone := (o.shards.filter (fun m => !(mhas o.share m.id) && !(me.share.any (fun p => p.2 == m.id)))).foldl
      (fun t m => t + m.len) 0
    (shared, alone)

/-- The side that a castle of a slot would make LIVE, if READY (R420, R426). -/
def castleTarget (d : Dev) (n : Nat) : Option Nat :=
  match liveSide d n with
  | some s => if (sideOf d n (1 - s)).st = 2 then some (1 - s) else none
  | none => if (sideOf d n 0).st = 2 then some 0 else if (sideOf d n 1).st = 2 then some 1 else none

/-- The engines of valid active stages that stream from a slot (R428). -/
def castleEngines (d : Dev) (n mask : Nat) : Bool :=
  (allStages (activeCfg d)).all (fun p => p.2.wsrc != n || mask.testBit p.1)

/-! ### Weight addresses (R64, R370) -/

/-- The local address of byte `o` of engine `k`'s weights on a side: the engine's shards in SHARD_ID order as one range. -/
def weightAddr (d : Dev) (n s k o : Nat) : Option Nat :=
  let l := (sideOf d n s).shards.filter (fun m => m.kind == 0 && m.engine == k)
  let r := l.foldl (fun (acc : Nat × Option Nat) m =>
    match acc.2 with
    | some _ => acc
    | none =>
      if o < acc.1 + m.len then
        let t := o - acc.1
        (acc.1, (extTile (shardExts d n s m.id) (t / 16384)).map (fun a => a + t % 16384))
      else (acc.1 + m.len, none)) (0, none)
  r.2

/-- The shard that holds byte `o` of engine `k`'s weights, with the offset in it. -/
def weightShard (d : Dev) (n s k o : Nat) : Option (ManShard × Nat) :=
  ((sideOf d n s).shards.filter (fun m => m.kind == 0 && m.engine == k)).foldl
    (fun (acc : Nat × Option (ManShard × Nat)) m =>
      match acc.2 with
      | some _ => acc
      | none => if o < acc.1 + m.len then (acc.1, some (m, o - acc.1)) else (acc.1 + m.len, none)) (0, none) |>.2

end Sys2Proof.Machine
end

