-- ==== Sys2Proof/Machine/Fire.lean ====
section
/-! DEFINITION. What a firing computes (spec 03, 05, 06, 12): its operands from items and run-ahead tiles, the matrix unit, the
vector unit with QZ and RQ, and the optimiser step. How a descriptor maps to arithmetic is log entry 40. -/

namespace Sys2Proof.Machine

/-! ### Loops (R64, R106) -/

/-- The linear index of a loop position, innermost first. -/
def posLin (l p : List Nat) : Nat := (l.zip p).foldr (fun x acc => x.2 + x.1 * acc) 0

/-- The loop position of a linear index. -/
def linPos : List Nat → Nat → List Nat
  | [], _ => []
  | t :: l, n => n % max t 1 :: linPos l (n / max t 1)

def loopTotal (l : List Nat) : Nat := l.foldl (fun a t => a * max t 1) 1

/-- A position `n` iterations later, wrapping at the end of the pass. -/
def posAdd (l p : List Nat) (n : Nat) : List Nat := linPos l ((posLin l p + n) % loopTotal l)

/-! ### How loops and output groups lie (R222, R228, R229; log entry 40) -/

/-- Do the blocks of a stage advance along loop level `l`? -/
def blocksMove (s : Stg) (l : Nat) : Bool :=
  (if s.mx = 5 then (agsOf s 2).take 1 else agsOf s 1).any (fun i => (agAt s i).stride.getD l 0 != 0)

/-- Do its tokens? Each firing takes new ones from a port. -/
def tokensMove (s : Stg) (q : Option QzCfg) (l : Nat) : Bool :=
  !(dataOf s q).isEmpty || (if s.mx = 5 then (agsOf s 2)[1]? else (agsOf s 2).head?).any (fun i => (agAt s i).stride.getD l 0 != 0)

/-- Level `l` runs over the input blocks of an output group: new blocks meet new codes of the tokens, and their products add up. -/
def sumLevel (s : Stg) (q : Option QzCfg) (l : Nat) : Bool :=
  decide (1 < s.loop.getD l 1) && blocksMove s l && tokensMove s q l

/-- Level `l` runs over tokens: new tokens meet the same blocks. -/
def tokLevel (s : Stg) (q : Option QzCfg) (l : Nat) : Bool := !(blocksMove s l) && tokensMove s q l

/-- A loop position with the levels that fail a test at 0, as one number. -/
def posOn (s : Stg) (keep : Nat → Bool) (pos : List Nat) : Nat :=
  posLin s.loop (pos.zipIdx.map (fun p => if keep p.2 then p.1 else 0))

/-- The output group, with its tokens, that the firing at a position adds to. -/
def groupKey (s : Stg) (q : Option QzCfg) (pos : List Nat) : Nat := posOn s (fun l => !(sumLevel s q l)) pos

/-- Is the firing at a position the first of its output group, and is it the last? -/
def groupFirst (s : Stg) (q : Option QzCfg) (pos : List Nat) : Bool := posOn s (sumLevel s q) pos == 0
def groupLast (s : Stg) (q : Option QzCfg) (pos : List Nat) : Bool :=
  pos.zipIdx.all (fun p => !(sumLevel s q p.2) || p.1 + 1 == s.loop.getD p.2 1)

/-- The input blocks of an output group, C of R222. -/
def groupBlocks (s : Stg) (q : Option QzCfg) : Nat :=
  (agsOf s 1).foldl (fun a i => a + (agAt s i).len) 0 / 4096 *
    ((List.range 4).filter (sumLevel s q)).foldl (fun a l => a * s.loop.getD l 1) 1

/-- The weight fetches of the firing at a position: the USE 1 generators in order, and beside the first block of an output group 4
for its column record group (R226). -/
def wsSeq (s : Stg) (q : Option QzCfg) (pos : List Nat) : List Nat :=
  match agsOf s 1 with
  | [] => []
  | i :: l => if (s.mx = 1 ∨ s.mx = 2) ∧ groupFirst s q pos = true then i :: 4 :: l else i :: l

/-- The access-unit fetches of one firing: the USE 2 and USE 4 generators in order. -/
def auList (s : Stg) : List Nat := (List.range 4).filter (fun i => (agAt s i).use == 2 || (agAt s i).use == 4)

/-! ### Operands -/

/-- What a firing works on: host and bank engine, stage, quantiser entry, batch, items by port, tiles of the weight streamer and
the access unit, its loop position, whether a train-run's batch it is and whether it is the last of its batch, and the REWIND that its
items follow if they are under a mark. -/
structure FireIn where
  h : Nat
  k : Nat
  s : Stg
  q : Option QzCfg
  own : Option (Nat × Nat)
  ins : FMap (List Item)
  ws : List RunTile
  au : List RunTile
  pos : List Nat
  train : Bool
  last : Bool
  rew : Option Nat
deriving DecidableEq, Repr

/-- The results of a firing: main items, and records of rows and blocks. -/
structure FireOut where
  main : List Item := []
  recs : List Elem := []
deriving DecidableEq, Repr

/-- The elements of `w` bytes of items; an empty packet holds none (R171, R219). -/
def itemElems (w : Nat) (its : List Item) : List Elem :=
  (its.filter (fun i => !i.empty)).flatMap (fun i => (chunksOf w 32 i.data).map (fun c => (leNat c, i.poison)))

/-- A tile as items, one per granule. -/
def tileItems (t : RunTile) : List Item :=
  ((chunksOf 32 t.data.length t.data).zipIdx).map (fun (p : List Byte × Nat) =>
    { data := p.1, fin := false, empty := false, poison := t.bad.getD p.2 false })

/-- Pack elements of `w` bytes into items, padding the last with `pad` (R219, R220); an item with a poisoned element is poisoned
whole (R537). -/
def packItems (w pad : Nat) (es : List Elem) : List Item :=
  (chunksOf (32 / w) es.length es).map (fun c =>
    { data := (padTo (32 / w) (pad, false) c).flatMap (fun e => leBytes w e.1), fin := false, empty := false,
      poison := c.any Prod.snd })

/-- Pack what fills items, all of it where the row ends: the items and the elements that wait. -/
def packSome (w pad : Nat) (full : Bool) (es : List Elem) : List Item × List Elem :=
  let m := if full then es.length else es.length / (32 / w) * (32 / w)
  (packItems w pad (es.take m), es.drop m)

def scalePort (f : FireIn) : Option Nat := scaleOf f.q
def dataPorts (f : FireIn) : List Nat := dataOf f.s f.q

/-- The access-unit tiles of the firing for generators with a use. -/
def auTiles (f : FireIn) (u : Nat) : List RunTile :=
  f.au.filter (fun t => (agAt f.s t.ag).use == u)

/-- The operands of VX in order: data ports, then USE 2 tiles (R139). -/
def vxOperands (f : FireIn) : List (List Item) :=
  (dataPorts f).map (fun p => (mgetD f.ins p []).filter (fun i => !i.empty)) ++ (auTiles f 2).map tileItems

/-- The records of the scale lane that the firing took. -/
def laneRecs (f : FireIn) : List Elem := (scalePort f).elim [] (fun p => itemElems 4 (mgetD f.ins p []))

/-- The record of token `t` (R243): from the scale lane, or STATIC_SCALE. A token without one reads MANT bit 15 clear (log
entry 40). -/
def tokRec (f : FireIn) (toks : List Elem) (t : Nat) : Elem :=
  match scalePort f with
  | some _ => toks.getD t (0, false)
  | none => (((f.q.map QzCfg.static).getD 0), false)

/-- Poisoned record items that a firing takes from port `p` are consumed (R218). -/
def portConsume (f : FireIn) (p : Nat) (d : Dev) : Dev :=
  let n := ((mgetD f.ins p []).filter Item.poison).length
  forN n (fun _ d => consume 8 (0x30 + f.h) 0 ((routeByDst d (epMk 1 f.k p)).getD 0) 0 d) d

/-- Poisoned record items of the scale lane are consumed (R218, R535). -/
def tokConsume (f : FireIn) (d : Dev) : Dev :=
  match scalePort f with
  | some p => portConsume f p d
  | none => d

/-- A poisoned granule of records in a fetched group is consumed (R535). -/
def recConsume (f : FireIn) (t : RunTile) (n : Nat) (d : Dev) : Dev :=
  forEach ((List.range (n / 8)).filter (fun i => t.bad.getD i false))
    (fun i d => consume 8 (0x30 + f.h) 0 0 (t.adr.getD i 0) d) d

/-! ### The matrix unit (R133, R221 to R232, R500, R534, R535) -/

/-- A held block: bytes and poisoned granules. -/
abbrev Block := List Byte × List Bool

/-- Cut tiles into 4 KiB blocks. -/
def tileBlocks (ts : List RunTile) : List Block :=
  ts.flatMap (fun t => (List.range (t.data.length / 4096)).map (fun b =>
    ((t.data.drop (4096 * b)).take 4096, (t.bad.drop (128 * b)).take 128)))

/-- Inputs and outputs of a held block by MX_OP (R133). -/
def mxIn (op : Nat) : Nat := if op = 3 then 32 else if op = 4 then 64 else 128
def mxOut (op : Nat) : Nat := if op = 2 then 64 else if op = 3 ∨ op = 4 then 128 else 32

/-- Code of input `i` and output `j` of a block. -/
def mxCode (op : Nat) (b : List Byte) (i j : Nat) : Int :=
  match op with
  | 1 => blockCode false b i j
  | 2 => blockCode true b i j
  | 3 => blockCode false b j i
  | 4 => blockCode true b j i
  | _ => (b.getD (128 * j + i) 0).toNat

/-- Does a poisoned granule of a block feed output `j` (R534)? -/
def mxBad (op : Nat) (bad : List Bool) (j : Nat) : Bool :=
  match op with
  | 2 => (List.range 2).any (fun g => bad.getD (2 * j + g) false)
  | 3 => (List.range 32).any (fun i => bad.getD (4 * i + j / 32) false)
  | 4 => (List.range 64).any (fun i => bad.getD (2 * i + j / 64) false)
  | _ => (List.range 4).any (fun g => bad.getD (4 * j + g) false)

/-- Token rows of `n` codes in a tile, input-block-major: code k of token t at (k / 128 × B + t) × 128 + k mod 128 (R227). Each code with
whether its granule is poisoned. -/
def tileRows (n : Nat) (t : RunTile) : List (List Elem) :=
  let b := t.data.length / (128 * ceilDiv n 128)
  (List.range b).map (fun r => (List.range n).map (fun c =>
    let o := (c / 128 * b + r) * 128 + c % 128
    ((t.data.getD o 0).toNat, t.bad.getD (o / 32) false)))

/-- Token rows of `n` codes in items, in row order (R219). -/
def portRows (n : Nat) (its : List Item) : List (List Elem) :=
  let its := its.filter (fun i => !i.empty)
  ((chunksOf (n / 32) its.length its).filter (fun c => c.length == n / 32)).map (itemElems 1)

/-- Token rows of `n` codes: from the first data port, else from a tile. -/
def mxRows (f : FireIn) (n : Nat) (tile : Option RunTile) : List (List Elem) :=
  match (dataPorts f).head? with
  | some p => portRows n (mgetD f.ins p [])
  | none => (tile.map (tileRows n)).getD []

/-- The outcome of MX: rows of INT32 values per token, the scale record of each column with its poison, and the token records. -/
structure MxOut where
  rows : List (List (Int × Bool))
  wrec : List Elem
  toks : List Elem
deriving DecidableEq, Repr

/-- The column record group that comes with the firing: records and sums (R224), or records of a USE 4 generator (GEMM_A8, R480). -/
def colGroup (f : FireIn) : Option RunTile :=
  match f.s.mx with
  | 1 => f.ws.find? (fun t => t.ag == 4)
  | 2 => f.ws.find? (fun t => t.ag == 4)
  | 5 => (auTiles f 4).head?
  | _ => none

/-- A GEMM firing adds its blocks to the accumulators of its output group (R228, R229, R232, R534): every token row against every block. The
products are counted busy. -/
def mxAdd (f : FireIn) (a : MxAcc) (d : Dev) : MxAcc × Dev :=
  let op := f.s.mx
  let n := mxOut op
  let blks := tileBlocks (if op = 5 then (auTiles f 2).take 1 else f.ws.filter (fun t => t.ag != 4))
  let k := mxIn op * blks.length
  let rows := mxRows f k (if op = 5 then (auTiles f 2)[1]? else (auTiles f 2).head?)
  let signed := op == 3 || op == 4
  let cols := (List.range n).map (fun j =>
    (blks.flatMap (fun b => (List.range (mxIn op)).map (fun i => mxCode op b.1 i j)), blks.any (fun b => mxBad op b.2 j)))
  let codes := rows.map (fun r => (r.map (fun e => if signed then sgn 8 e.1 else (e.1 : Int)), r.any Prod.snd))
  let sums := (List.range (max rows.length a.sums.length)).map (fun t =>
    let old := a.sums.getD t (List.replicate n ((0, false), false))
    match codes[t]? with
    | none => old
    | some r => cols.zipIdx.map (fun (c : (List Int × Bool) × Nat) =>
        let o := old.getD c.2 ((0, false), false)
        ((List.zipWith (fun x w => x * w) r.1 c.1.1).foldl accAdd o.1, o.2 || r.2 || c.1.2)))
  let total := fun (l : List Int) => l.foldl (fun x y => x + y) 0
  let lane := laneRecs f
  ({ sums := sums,
     asum := (List.range sums.length).map (fun t => a.asum.getD t 0 + (codes[t]?).elim 0 (fun r => total r.1)),
     bsum := cols.zipIdx.map (fun c => a.bsum.getD c.2 0 + total c.1.1),
     k := a.k + k, recs := (colGroup f).or a.recs, toks := if lane.isEmpty then a.toks else lane },
    cntAdd64 (Reg.ENG_MX_BUSY f.h) (rows.length * blks.length) d)

/-- Drain an output group (R229, R230, R535): the corrections, the saturation and its counts, and what the records poison. -/
def mxDrain (f : FireIn) (a : MxAcc) (d : Dev) : MxOut × Dev :=
  let op := f.s.mx
  let n := mxOut op
  let wrec : List Elem := match a.recs with
    | some t => (List.range n).map (fun j => (fieldAt t.data (4 * j) 4, t.bad.getD (j / 8) false))
    | none => List.replicate n (0x00008000, false)
  let sums : List (Int × Bool) := match a.recs with
    | some t => (List.range n).map (fun j => (sgn 32 (fieldAt t.data (4 * n + 4 * j) 4), t.bad.getD (n / 8 + j / 8) false))
    | none => List.replicate n (0, false)
  let useRec := f.s.vx == 1 || f.s.vx == 2 || op == 5
  let useTok := f.q.isSome && (op == 1 || op == 2 || op == 5)
  let d := match a.recs with
    | some t => if useRec then recConsume f t n d else d
    | none => d
  let out := a.sums.zipIdx.map (fun (r : List ((Int × Bool) × Bool) × Nat) =>
    let rec_ := tokRec f a.toks r.2
    let za : Int := if useTok then recZp rec_.1 else 0
    r.1.zipIdx.map (fun (c : ((Int × Bool) × Bool) × Nat) =>
      let zb : Int := if op = 5 then recZp (wrec.getD c.2 (0, false)).1 else 0
      let s := sums.getD c.2 (0, false)
      let v := sat32 (drainCorr op c.1.1.1 za zb s.1 (a.asum.getD r.2 0) (a.bsum.getD c.2 0) a.k)
      (v, c.1.2 || (useTok && rec_.2) || ((op == 1 || op == 2) && s.2) || (useRec && (wrec.getD c.2 (0, false)).2))))
  let clips := (out.flatMap id).countP (fun v => v.1.2)
  (⟨out.map (fun r => r.map (fun v => (v.1.1, v.2))), wrec, a.toks⟩, accClips f.h clips d)

/-- Run a GEMM firing: none while its output group goes on in a later firing of the pass. -/
def mxRun (f : FireIn) (d : Dev) : Option MxOut × Dev :=
  let key := stKey f.k f.s.id
  let g := groupKey f.s f.q f.pos
  let old := if groupFirst f.s f.q f.pos then {} else mgetD (stageRt d key).acc g {}
  let a := mxAdd f old d
  if groupLast f.s f.q f.pos then
    let o := mxDrain f a.1 (stageUpd key (fun rt => { rt with acc := mdel rt.acc g }) a.2)
    (some o.1, o.2)
  else (none, stageUpd key (fun rt => { rt with acc := mput rt.acc g a.1 }) a.2)

/-- OUTER_G8 (R231, R534): the block's contributions of G8 rows (first operand) and A8 rows (second), from ports or from tiles, added to
the INT32 tile `cur`, whose row for G8 index i holds the 32 sums of the A8 columns (log entry 40). Answers the tile's bytes and its
poisoned granules. -/
def outerG8 (f : FireIn) (cur : List Byte) (curBad : List Bool) (d : Dev) : (List Byte × List Bool) × Dev :=
  let rowsOf := fun (n : Nat) => (dataPorts f).map (fun p => portRows n (mgetD f.ins p [])) ++ (auTiles f 2).map (tileRows n)
  let gs := (rowsOf 128).getD 0 []
  let as_ := (rowsOf 32).getD 1 []
  let recs := (auTiles f 4).flatMap (fun t => itemElems 4 (tileItems t))
  let d := (auTiles f 4).foldl (fun d t => recConsume f t (8 * t.bad.length) d) d
  let toks := (gs.zip as_).zipIdx
  let cells := (List.range 128).flatMap (fun i => (List.range 32).map (fun j =>
    let ps := toks.map (fun (t : (List Elem × List Elem) × Nat) =>
      let za : Int := recZp (recs.getD t.2 (0, false)).1
      sgn 8 (t.1.1.getD i (0, false)).1 * (((t.1.2.getD j (0, false)).1 : Int) - za))
    let p := toks.any (fun (t : (List Elem × List Elem) × Nat) =>
      (t.1.1.getD i (0, false)).2 || (t.1.2.getD j (0, false)).2 || (recs.getD t.2 (0, false)).2)
    let o := 32 * i + j
    let old := sgn 32 (fieldAt cur (4 * o) 4)
    let v := sat32 (old + acc40 ps)
    (v.1, v.2, p || curBad.getD (o / 8) false)))
  let clips := cells.countP (fun c => c.2.1)
  let bad := (chunksOf 8 cells.length cells).map (fun c => c.any (fun x => x.2.2))
  let d := accClips f.h clips d |> cntAdd64 (Reg.ENG_MX_BUSY f.h) toks.length
  ((cells.flatMap (fun c => leBytes 4 (lowBits 32 c.1)), bad), d)

/-! ### The vector unit (R137 to R139, R243 to R256) -/

/-- A part of a row in a firing's items: its elements, the position of the first in the row, and whether the row ends with them. -/
structure Seg where
  es : List Elem
  at_ : Nat
  full : Bool
deriving DecidableEq, Repr

/-- Cut items into parts of rows of `len` elements of `w` bytes, each row in items of its own (R219, R220): `n` elements of the first row
have passed before. `fuel` bounds the parts. -/
def rowSegs (w len : Nat) : Nat → Nat → List Item → List Seg
  | 0, _, _ => []
  | fuel + 1, n, its =>
    if its.isEmpty then []
    else
      let m := max 1 (ceilDiv ((len - n) * w) 32)
      let es := (itemElems w (its.take m)).take (len - n)
      let full := decide (len ≤ n + es.length)
      ⟨es, n, full⟩ :: rowSegs w len fuel (if full then 0 else n + es.length) (its.drop m)

/-- The items that the first `n` elements of a row have due, of all its items: those they fill, all at the row's end. -/
def itemsDue (p n len : Nat) (its : List Item) : List Item := if len ≤ n then its else its.take (n / p)

/-- The last pass over a marked row hands out its items as its elements are read again (R138, R184): `len` elements in all, `m` now. The
row ends with its last element. -/
def rowEmit (key p len m : Nat) (r : RowRt) (d : Dev) : List Item × Dev :=
  let its := (itemsDue p (r.n + m) len r.items).drop (itemsDue p r.n len r.items).length
  (its, if len ≤ r.n + m then rowDel key 0 d else rowPut key 0 { r with n := r.n + m } d)

/-- Quantise a whole dynamic row: M8 and V8 in blocks of 256 elements (R252, R253). Answers its codes and records. -/
def qzRow (f : FireIn) (c : QzCfg) (xs : List Elem) (d : Dev) : (List Elem × List Elem) × Dev :=
  let blk := if c.fmt ≥ 2 then 256 else max 1 xs.length
  (chunksOf blk xs.length xs).foldl (fun (acc : (List Elem × List Elem) × Dev) b =>
    let o := qzDynamic f.h f.k c.id c.fmt f.own b acc.2
    let d := if f.train && c.fmt == 1 then
        cntAdd Reg.ARB_TR_GCLIP F.ARB_TR_GCLIP_COUNT F.ARB_TR_GCLIP_OVF (b.countP (fun x => !(isFin (f16 x.1)))) 101 o.2 else o.2
    ((acc.1.1 ++ o.1.1, acc.1.2 ++ [o.1.2]), d)) (([], []), d)

/-- QZ over one part of a row (R244, R249 to R256): a static row gives codes as it comes, a dynamic one when pass 1 has seen all of it,
short at the batch's last firing (R255). -/
def qzSeg (f : FireIn) (c : QzCfg) (s : Seg) (lastSeg : Bool) (d : Dev) : FireOut × Dev :=
  let key := stKey f.k f.s.id
  let again := f.rew.any (fun p => p != 0)
  let st : RowRt × Dev := match mget (stageRt d key).rows 0 with
    | some r => (r, d)
    | none =>
      if again then ({}, d)
      else
        let x := qzRowStart f.k c.id d
        ({ rec_ := if c.mode = 1 then none else x.1 }, x.2)
  let r := st.1
  let d := st.2
  match r.rec_ with
  | some q =>
    let o := qzStatic f.k c.id c.fmt q f.own s.es r d
    let pk := packSome 1 (if c.fmt = 0 then recZp q else 0) (s.full || lastSeg) (r.out ++ o.1)
    let r' := { o.2.1 with out := pk.2 }
    ({ main := pk.1, recs := if r.n = 0 then [(q, false)] else [] },
      if s.full then qzRowEnd f.k c.id r' f.own (rowDel key 0 o.2.2) else rowPut key 0 r' o.2.2)
  | none =>
    -- a static row has one pass: reading it again gives nothing
    if again && r.xs.isEmpty then ({}, d) else
    let whole := fun (xs : List Elem) (short : Bool) (d : Dev) =>
      let o := qzRow f c xs (if short then sf (Reg.QZ_STAT f.k c.id) F.QZ_STAT_SHORT_ROW 1 d else d)
      (packItems 1 (fmtZp c.fmt) o.1.1, o.1.2, o.2)
    match f.rew with
    | some 0 => ({}, rowPut key 0 { r with xs := r.xs ++ s.es } d)
    | some _ =>
      let fresh := r.items.isEmpty
      let o := if fresh then whole r.xs (decide (r.xs.length < c.rowLen)) d else (r.items, [], d)
      let e := rowEmit key 32 r.xs.length s.es.length { r with items := o.1 } o.2.2
      ({ main := e.1, recs := o.2.1 }, e.2)
    | none =>
      let xs := r.xs ++ s.es
      if s.full || lastSeg then
        let o := whole xs (!s.full) (rowDel key 0 d)
        ({ main := o.1, recs := o.2.1 }, o.2.2)
      else ({}, rowPut key 0 { r with xs := xs } d)

/-- QZ over a firing's binary16 items (R244, R249 to R256). -/
def qzRun (f : FireIn) (c : QzCfg) (its : List Item) (d : Dev) : FireOut × Dev :=
  let r := rowRt d (stKey f.k f.s.id) 0
  let n := if r.rec_.isSome || f.rew.any (fun p => p != 0) then r.n else r.xs.length
  let segs := rowSegs 2 c.rowLen (its.length + 1) n its
  segs.zipIdx.foldl (fun (acc : FireOut × Dev) s =>
    let o := qzSeg f c s.1 (f.last && s.2 + 1 == segs.length) acc.2
    ({ main := acc.1.main ++ o.1.main, recs := acc.1.recs ++ o.1.recs }, o.2)) ({}, d)

/-- RQ_A8 of elements of token row `t` that follow those before (R243, R244, R247, R255, R258): values with their column records. A row
ends after ROW_LEN elements; `fuel` bounds the rows. A poisoned record poisons what it makes (R218, R256). -/
def rqRow (f : FireIn) (c : QzCfg) (t : Nat) (arec : Elem) : Nat → List ((Int × Bool) × Elem) → Dev → FireOut × Dev
  | 0, _, d => ({}, d)
  | fuel + 1, vals, d =>
    if vals.isEmpty then ({}, d)
    else
      let key := stKey f.k f.s.id
      let st : RowRt × Dev := match mget (stageRt d key).rows t with
        | some r => (r, d)
        | none => let x := qzRowStart f.k c.id d; ({ rec_ := x.1 }, x.2)
      let r := st.1
      let q := r.rec_.getD (gf st.2 (Reg.QZ_SCALE f.k c.id) F.QZ_SCALE_SCALE)
      let part := vals.take (c.rowLen - r.n)
      let rs := part.map (fun v => rqA8 v.1.1 v.2.1 arec.1 q)
      let d := qzCount f.k c.id rs f.own st.2
      let r' := { r with n := r.n + part.length, clips := r.clips + rs.countP QRes.clip }
      let full := decide (c.rowLen ≤ r'.n)
      let codes := (rs.zip part).map (fun (p : QRes × ((Int × Bool) × Elem)) => (lowBits 8 p.1.q, p.2.1.2 || p.2.2.2 || arec.2))
      let pk := packSome 1 (recZp q) (full || f.last) (r.out ++ codes)
      let d := if full then qzRowEnd f.k c.id r' f.own (rowDel key t d) else rowPut key t { r' with out := pk.2, arec := arec } d
      let o := rqRow f c t arec fuel (vals.drop (c.rowLen - r.n)) d
      ({ main := pk.1 ++ o.1.main, recs := (if r.n = 0 then [(q, false)] else []) ++ o.1.recs }, o.2)

/-- Parts of rows in a firing's items with the input record of each row, that of a row begun before kept (R243). `len` elements of `w`
bytes a row. -/
def tokSegs (f : FireIn) (w len : Nat) (its : List Item) (d : Dev) : List (Seg × Elem) :=
  let r := rowRt d (stKey f.k f.s.id) 0
  ((rowSegs w len (its.length + 1) r.n its).foldl (fun (acc : List (Seg × Elem) × Elem × Nat) s =>
    let e := if s.at_ = 0 then tokRec f (laneRecs f) acc.2.2 else acc.2.1
    (acc.1 ++ [(s, e)], e, if s.at_ = 0 then acc.2.2 + 1 else acc.2.2)) ([], r.arec, 0)).1

/-- Keep where the row in progress stands, with its record. -/
def tokKeep (f : FireIn) (l : List (Seg × Elem)) (d : Dev) : Dev :=
  let key := stKey f.k f.s.id
  match l.getLast? with
  | none => d
  | some s => if s.1.full then rowDel key 0 d else rowPut key 0 { arec := s.2, n := s.1.at_ + s.1.es.length } d

/-- The column records that a stage without MX takes from a USE 4 generator. -/
def streamRecs (f : FireIn) (d : Dev) : List Elem × Dev :=
  ((auTiles f 4).flatMap (fun t => itemElems 4 (tileItems t)), (auTiles f 4).foldl (fun d t => recConsume f t (8 * t.bad.length) d) d)

/-- RQ_F16 or DEQ_A8 of values with their column records under a token record: elements and how many records were too small (R248). -/
def rqF16s (vals : List ((Int × Bool) × Elem)) (arec : Elem) : List Elem × Nat :=
  let rs := vals.map (fun v => let y := rqF16 v.1.1 v.2.1 arec.1; ((y.1, v.1.2 || v.2.2 || arec.2), y.2))
  (rs.map Prod.fst, rs.countP Prod.snd)

/-- A binary function over two operands, the shorter repeated (log entry 40). -/
def zipElems (g : Nat → Nat → Nat) (a b : List Elem) : List Elem :=
  a.zipIdx.map (fun (x : Elem × Nat) =>
    let y := b.getD (x.2 % max b.length 1) (0, false)
    (g x.1.1 y.1, x.1.2 || y.2))

/-- The square root of a binary32 value as a V8 element (R253, R504). -/
def v8RootF (x : FV) : Nat :=
  match x with
  | .nan => 0x7E00
  | .inf s => if s then 0 else 0x7C00
  | .fin s m e => if s ∨ m = 0 then 0 else to16 (fSqrt (.fin false m e))

/-- The step record of R489 from its bytes. -/
def stepRec (b : List Byte) : StepRec :=
  { lr := fieldAt b 4 4, b1 := fieldAt b 8 4, omb1 := fieldAt b 12 4, b2 := fieldAt b 16 4, omb2 := fieldAt b 20 4,
    eps := fieldAt b 24 4, wd := fieldAt b 28 4, c1 := fieldAt b 32 4, c2 := fieldAt b 36 4 }

/-- One 256-element block of OPT_STEP (R503, R504): new M codes and record, V codes and record, master, clips, and masters kept.
Under a record with MANT bit 15 clear every element is 0 (R217). -/
def optBlock (k : StepRec) (gs : List Elem) (grec : Elem) (ms : List Elem) (mrec : Elem) (vs : List Elem) (vrec : Elem)
    (ws : List Elem) : (List Elem × Elem) × (List Elem × Elem) × List Elem × Nat × Nat :=
  let p := (gs ++ ms ++ vs ++ ws).any Prod.snd || grec.2 || mrec.2 || vrec.2
  let code := fun {α : Type} [OfNat α 0] (r : Elem) (x : α) => if recValid r.1 then x else 0
  let rs := gs.zipIdx.map (fun (g : Elem × Nat) =>
    optElem (code grec (sgn 8 g.1.1)) grec.1 (code mrec (sgn 8 (ms.getD g.2 (0, false)).1)) mrec.1
      (code vrec (vs.getD g.2 (0, false)).1) vrec.1 (ws.getD g.2 (0, false)).1 k)
  let m1 := rs.map (fun r => to16 r.1.1)
  let v1 := rs.map (fun r => v8RootF r.1.2)
  let mr := dynScale (rowAmax m1) 127 0
  let vr := dynScale (rowAmax v1) 255 0
  let mq := m1.map (fun x => qzCode x mr 2 none)
  let vq := v1.map (fun x => qzCode x vr 3 none)
  let clips := mq.countP QRes.clip + vq.countP QRes.clip
  ((mq.map (fun r => (lowBits 8 r.q, p)), (mr, p)), (vq.map (fun r => (lowBits 8 r.q, p)), (vr, p)),
   rs.map (fun r => (r.2.1, p)), clips, rs.countP (fun r => r.2.2))

/-- The elements of a row that a stage without a quantiser entry takes, without the row's padding (R220, R815): no field gives the
length, so how much of the last item is padding is free (log entry 126). -/
def rowElems (f : FireIn) (es : List Elem) : List Elem :=
  es.take (es.length - Config.rowPad f.k f.s.id (posLin f.s.loop f.pos) % 16)

/-- A row function of binary16 elements (R138): over the firing's items, or over a marked row, gathered in pass 1 and handed out in the
last pass as its items are read again. -/
def vxRow (f : FireIn) (g : List Nat → List Nat) (p : Bool) (es : List Elem) (d : Dev) : FireOut × Dev :=
  let key := stKey f.k f.s.id
  let form := fun (xs : List Elem) =>
    let xs := rowElems f xs
    packItems 2 0 ((g (xs.map Prod.fst)).map (fun x => (x, p || xs.any Prod.snd)))
  match f.rew with
  | none => ({ main := form es }, d)
  | some i =>
    let r := rowRt d key 0
    if i = 0 then ({}, rowPut key 0 { r with xs := r.xs ++ es } d)
    else if i + 1 < vxPasses f.s f.q then ({}, d)
    else
      let e := rowEmit key 16 r.xs.length es.length { r with items := if r.items.isEmpty then form r.xs else r.items } d
      ({ main := e.1 }, e.2)

/-- What VX delivers, for every function but OPT_STEP (R137): `mx` is what MX passed to it. -/
def vxRun (f : FireIn) (mx : Option MxOut) (d : Dev) : FireOut × Dev :=
  let ops := vxOperands f
  let a := ops.getD 0 []
  let e2 := fun i => itemElems 2 (ops.getD i [])
  let x2 := rowElems f (e2 0)
  let accs := fun (m : MxOut) => (m.rows.flatMap id).map (fun v => (lowBits 32 v.1, v.2))
  let un := fun (g : Nat → Nat) => (({ main := packItems 2 0 (x2.map (fun x => (g x.1, x.2))) } : FireOut), d)
  match f.s.vx with
  | 0x00 => ({ main := match mx with | some m => packItems 4 0 (accs m) | none => [] }, d)
  | 0x01 =>
    match f.q with
    | none => ({}, d)
    | some c =>
      match mx with
      | some m =>
        m.rows.zipIdx.foldl (fun (acc : FireOut × Dev) (v : List (Int × Bool) × Nat) =>
          let t := v.2 + 65536 * posOn f.s (tokLevel f.s f.q) f.pos
          let o := rqRow f c t (tokRec f m.toks v.2) (v.1.length + 1) (v.1.zip m.wrec) acc.2
          ({ main := acc.1.main ++ o.1.main, recs := acc.1.recs ++ o.1.recs }, o.2)) ({}, d)
      | none =>
        let w := streamRecs f d
        (tokSegs f 4 c.rowLen a w.2).foldl (fun (acc : FireOut × Dev) (v : Seg × Elem) =>
          let vals := v.1.es.zipIdx.map (fun (x : Elem × Nat) => ((sgn 32 x.1.1, x.1.2), w.1.getD (v.1.at_ + x.2) (0x00008000, false)))
          let o := rqRow f c 0 v.2 (vals.length + 1) vals acc.2
          ({ main := acc.1.main ++ o.1.main, recs := acc.1.recs ++ o.1.recs }, o.2)) ({}, w.2)
  | 0x02 =>
    match f.q with
    | none => ({}, d)
    | some c =>
      match mx with
      | some m =>
        let rows := m.rows.zipIdx.map (fun (v : List (Int × Bool) × Nat) => rqF16s (v.1.zip m.wrec) (tokRec f m.toks v.2))
        ({ main := rows.flatMap (fun r => packItems 2 0 r.1) }, qzLow f.k c.id ((rows.map Prod.snd).sum) f.own d)
      | none =>
        let w := streamRecs f d
        let t := tokSegs f 4 c.rowLen a w.2
        let rows := t.map (fun (v : Seg × Elem) => rqF16s (v.1.es.zipIdx.map (fun (x : Elem × Nat) =>
          ((sgn 32 x.1.1, x.1.2), w.1.getD (v.1.at_ + x.2) (0x00008000, false)))) v.2)
        ({ main := rows.flatMap (fun r => packItems 2 0 r.1) }, qzLow f.k c.id ((rows.map Prod.snd).sum) f.own (tokKeep f t w.2))
  | 0x03 =>
    match f.q with
    | none => ({}, d)
    | some c => qzRun f c a d
  | 0x04 =>
    match f.q with
    | none => ({}, d)
    | some c =>
      let t := tokSegs f 1 c.rowLen a d
      let rows := t.map (fun (v : Seg × Elem) =>
        v.1.es.map (fun x => let y := deqA8 x.1 v.2.1; ((y.1, x.2 || v.2.2), y.2)))
      ({ main := rows.flatMap (fun r => packItems 2 0 (r.map Prod.fst)) }, qzLow f.k c.id ((rows.flatMap id).countP Prod.snd) f.own (tokKeep f t d))
  | 0x05 => ({ main := packItems 2 0 (zipElems vxAdd x2 (e2 1)) }, d)
  | 0x06 => ({ main := packItems 2 0 (zipElems vxMul x2 (e2 1)) }, d)
  | 0x07 =>
    let b := e2 1
    let c := e2 2
    ({ main := packItems 2 0 (x2.zipIdx.map (fun (x : Elem × Nat) =>
        let y := b.getD (x.2 % max b.length 1) (0, false)
        let z := c.getD (x.2 % max c.length 1) (0, false)
        (vxMulAdd x.1.1 y.1 z.1, x.1.2 || y.2 || z.2))) }, d)
  | 0x0E => vxRow f vxSoftmax false (e2 0) d
  | 0x0F => vxRow f (fun xs => vxNorm false xs ((e2 1).map Prod.fst) [] f.s.eps) ((e2 1).any Prod.snd) (e2 0) d
  | 0x10 =>
    vxRow f (fun xs => vxNorm true xs ((e2 1).map Prod.fst) ((e2 2).map Prod.fst) f.s.eps)
      ((e2 1).any Prod.snd || (e2 2).any Prod.snd) (e2 0) d
  | 0x11 =>
    let pos := (itemElems 4 (ops.getD 1 [])).getD 0 (0, false)
    let tab := e2 2
    ({ main := packItems 2 0 ((List.range (x2.length / 2)).flatMap (fun i =>
        let x := x2.getD (2 * i) (0, false)
        let y := x2.getD (2 * i + 1) (0, false)
        let r := vxRope x.1 y.1 pos.1 i (tab.map Prod.fst)
        let p := x.2 || y.2 || pos.2 || tab.any Prod.snd
        [(r.1, p), (r.2, p)])) }, d)
  | 0x12 =>
    let xs := match mx with | some m => accs m | none => itemElems 4 (ops.getD 0 [])
    let ys := itemElems 4 (ops.getD 1 [])
    let rs := xs.zipIdx.map (fun (x : Elem × Nat) =>
      let y := ys.getD (x.2 % max ys.length 1) (0, false)
      let r := addI32 x.1.1 y.1
      ((r.1, x.1.2 || y.2), r.2))
    ({ main := packItems 4 0 (rs.map Prod.fst) }, accClips f.h (rs.countP Prod.snd) d)
  | 0x13 => ({ main := packItems 4 0 [(vxArgmax (x2.map Prod.fst), x2.any Prod.snd)] }, d)
  | g => un (vxUnary g)

end Sys2Proof.Machine
end

