-- ==== Sys2Proof/Machine/Engine.lean ====
section
/-! DEFINITION. Engines (spec 03): the stage sequencer, the weight streamer and the access unit, batch ends and signals,
enable, drain, kill and faults (R106 to R168). -/

namespace Sys2Proof.Machine

/-! ### State access -/

/-- ENG_STAT.STATE of an engine: 0 OFF, 1 IDLE, 2 RUNNING, 3 DRAINING, 4 DRAINED, 5 KILLED, 6 FAILED. -/
def engState (d : Dev) (k : Nat) : Nat := gf d (Reg.ENG_STAT k) F.ENG_STAT_STATE
def setEngState (k st : Nat) (d : Dev) : Dev := sf (Reg.ENG_STAT k) F.ENG_STAT_STATE st d

/-- Does engine `h`'s shadow context carry bank `k` (R157, ENG_RELOC)? -/
def hostsBank (d : Dev) (h k : Nat) : Bool :=
  gb d (Reg.ENG_RELOC h) F.ENG_RELOC_GUEST_VALID && gf d (Reg.ENG_RELOC h) F.ENG_RELOC_GUEST == k

/-- The valid stages that engine `h` runs, with their banks: its own and, in its shadow context, a lost engine's. -/
def engStages (d : Dev) (h : Nat) : List (Nat × Stg) :=
  (allStages (activeCfg d)).filter (fun p => hostOf d p.1 p.2.id == h && (p.1 == h || hostsBank d h p.1))

/-- The admitted batch that a stage is working on, if it is still in its pipeline. -/
def stageBatch (d : Dev) (s : Stg) (rt : StageRt) : Option Batch :=
  ((mgetD d.pipes s.pipe {}).batches).find? (fun b => b.flow == rt.cur)

/-- Did a train-run admit the batch? -/
def isTrain (b : Option Batch) : Bool :=
  match b with
  | some x => match x.src with
    | .start _ => false
    | _ => true
  | none => false

/-! ### Addresses (R64) -/

/-- The byte offset that the strides give at a loop position. -/
def agOff (a : Ag) (p : List Nat) : Int := (a.stride.zip p).foldl (fun x q => x + q.1 * q.2) 0

/-- An offset from the start of an object or of an engine's weights, 53 bits wide: one before the start lies beyond every end (log
entry 120). -/
def offNat (i : Int) : Nat := (i % 2 ^ 53).toNat

/-- Where an address generator points: an object and offset, a fabric address, granules of 0x80 (R483), or nothing that may be
reached (R484). -/
inductive Tgt where
  | obj (n off : Nat)
  | fab (a : Nat)
  | blank
  | refused (n : Nat)
deriving DecidableEq, Repr

/-- A field of the running train-run's descriptor (R492). -/
def trField (d : Dev) (o n : Nat) : Nat := ((d.train.map (fun t => fieldAt t.desc o n)).getD 0)

/-- The object of a role in a train-run (R482): 2 master, 3 M, 4 V, 5 work, 6 const, 7 bscale. -/
def roleObj (d : Dev) (role : Nat) : Nat := trField d (0x2C + 2 * (role - 2)) 2

/-- The byte offset of the half of a role's object that a batch reads or writes (R485, R495). -/
def roleHalf (d : Dev) (b : Option Batch) (role : Nat) (write : Bool) : Nat :=
  if role = 2 ∨ role = 3 ∨ role = 4 then
    let s := match b.map Batch.src with
      | some (.train s) => s
      | _ => (d.train.map TrainRun.done).getD 0
    if (trField d 0x0C 4 + s + bit write) % 2 = 1 then
      ((tmObj d (roleObj d role)).map (fun o => 16384 * (o.size / 2))).getD 0
    else 0
  else 0

/-- Resolve a generator at a loop position for the stage's batch (R64, R482 to R485). -/
def agTarget (d : Dev) (s : Stg) (b : Option Batch) (i : Nat) (pos : List Nat) (write : Bool) : Tgt :=
  let a := agAt s i
  let off := agOff a pos
  if a.base.testBit 63 then
    let role := a.base / 2 ^ 60 % 8
    if role = 0 then .obj (a.base % 16384) (offNat off)
    else if role = 1 then
      if isTrain b then .obj (roleObj d 5) (offNat off)
      else
        match b.bind Batch.adObj with
        | some n => .obj n (offNat off)
        | none => .blank
    else if isTrain b then .obj (roleObj d role) (offNat ((roleHalf d b role write : Nat) + off))
    else .refused (a.base % 16384)
  else .fab (offNat ((a.base % 2 ^ 53 : Nat) + off))

/-! ### Reads of the access unit -/

/-- The poisoned granules of a read: those that hold poison, or all of them when the whole read failed. -/
def readBads (p : Bool) (flags : List Bool) : List Bool :=
  if p then (if flags.any id then flags else flags.map (fun _ => true)) else flags.map (fun _ => false)

/-- A generator that names the CONST span of an engine that `h` hosts reaches the tiles of `h` that took the data (R161). -/
def constRedir (h a : Nat) (d : Dev) : Nat :=
  match region a with
  | .tile k =>
    let lim := 16384 * (256 - constTiles d k)
    if k ≠ h && hostsBank d h k && decide (lim ≤ a - tileBase k) then
      tileBase h + 16384 * (256 - constTiles d h - constTiles d k) + (a - tileBase k - lim)
    else a
  | _ => a

/-- Read `len` bytes of a target for engine `h`: bytes, poisoned granules, state. -/
def tgtRead (h : Nat) (t : Tgt) (len : Nat) (d : Dev) : (List Byte × List Bool) × Dev :=
  let n := ceilDiv len 32
  match t with
  | .obj o off =>
    let flags := (List.range n).map (fun i =>
      match tmObj d o with
      | some ob =>
        decide (ob.size ≤ (off + 32 * i) / 16384) || granBad d (tileAddr ob ((off + 32 * i) / 16384) + (off + 32 * i) % 16384)
      | none => true)
    let r := xlateRead h o off len d
    ((r.1.1, readBads r.1.2 flags), r.2)
  | .fab a =>
    let a := constRedir h a d
    let flags := (List.range n).map (fun i =>
      match localOf d (a + 32 * i) with
      | some x => granBad d x
      | none => true)
    match masterRead (0x30 + h) a len d with
    | (.ok bs p, d) => ((bs, readBads p flags), d)
    | (.err _, d) => ((List.replicate len 0xFF, List.replicate n true), d)
  | .blank => ((List.replicate len 0x80, List.replicate n false), d)
  | .refused o => ((List.replicate len 0, List.replicate n true), xlateFault h o 0 false d |> ueEntry 0x16 3 0)

/-- The fabric addresses of the granules of a target, 0 for one that has none. -/
def tgtAddrs (d : Dev) (h : Nat) (t : Tgt) (len : Nat) : List Nat :=
  (List.range (ceilDiv len 32)).map (fun i =>
    match t with
    | .obj o off => ((tmObj d o).map (fun ob => tileAddr ob ((off + 32 * i) / 16384) + (off + 32 * i) % 16384)).getD 0
    | .fab a => constRedir h a d + 32 * i
    | _ => 0)

/-- Write one run of bytes to a target (R447, R484, R533). -/
def tgtWrite (h stage : Nat) (w : PendWr) (d : Dev) : Dev :=
  match w.obj with
  | some n => xlateWrite h stage n w.off w.bytes w.poison d
  | none => (masterWrite (0x30 + h) w.off w.bytes w.poison d).2

/-- A run of bytes with poisoned granules, as writes of equal poison in order. -/
def wrRuns (obj : Option Nat) (off : Nat) (bs : List Byte) (bad : List Bool) : List PendWr :=
  ((chunksOf 32 bs.length bs).zipIdx).foldl (fun (acc : List PendWr) (c : List Byte × Nat) =>
    let p := bad.getD c.2 false
    match acc.getLast? with
    | some w =>
      if w.poison = p then acc.dropLast ++ [{ w with bytes := w.bytes ++ c.1 }]
      else acc ++ [⟨obj, off + 32 * c.2, c.1, p⟩]
    | none => [⟨obj, off + 32 * c.2, c.1, p⟩]) []

/-- The writes of a target, none for one that may not be reached, which is counted and logged (R484). -/
def tgtWrites (h : Nat) (t : Tgt) (bs : List Byte) (bad : List Bool) (d : Dev) : List PendWr × Dev :=
  match t with
  | .obj n off => (wrRuns (some n) off bs bad, d)
  | .fab a => (wrRuns none a bs bad, d)
  | .blank => ([], d)
  | .refused n => ([], xlateFault h n 0 true d)

/-! ### Run-ahead (R126 to R132) -/

/-- The lead limit of a stage (R100, R126). -/
def leadLimit (d : Dev) (k : Nat) (s : Stg) : Nat := if s.look = 0 then engLook d k else s.look

/-- Run-ahead tiles in use on an engine: the streamer's, the access unit's. -/
def tilesUsed (d : Dev) (h : Nat) : Nat × Nat :=
  (engStages d h).foldl (fun acc p =>
    let rt := stageRt d (stKey p.1 p.2.id)
    (acc.1 + rt.ws.length, acc.2 + rt.au.length)) (0, 0)

/-- Run-ahead tiles that are free on an engine (R127). -/
def tilesFree (d : Dev) (h : Nat) : Nat := let u := tilesUsed d h; runAheadArea d h - u.1 - u.2

/-- May the units of an engine issue fetches (R147)? None is issued in DRAINING, also for a firing that lacks a tile (log entry 125). -/
def fetchOn (d : Dev) (h : Nat) : Bool := engState d h == 2 && gf d Reg.PMU_STAT F.PMU_STAT_STATE == 0

/-- The firing of a stage that still works on its operands. -/
def firingNow (rt : StageRt) : Option Firing := rt.firings.find? (fun f => !f.ready)

/-- The position that the first run-ahead tile serves, and how many tiles of it MX or VX have taken over. -/
def leadPos (rt : StageRt) (taken : Firing → Nat) : List Nat × Nat :=
  match firingNow rt with
  | some f => (f.pos, taken f)
  | none => (rt.loops, 0)

/-- The side whose weights a stage reads now: its batch's, else the live one (R124). -/
def wsSide (d : Dev) (s : Stg) (rt : StageRt) : Nat :=
  match stageBatch d s rt with
  | some b => b.side
  | none => (liveSide d s.wsrc).getD 0

/-- The quantiser entry that a stage names. -/
def stageQz (d : Dev) (k : Nat) (s : Stg) : Option QzCfg := if s.qz = 0xFF then none else qzOf d k s.qz

/-- The offset in the engine's weights of the record group of the output group whose blocks start at `o` (R222, R224, R370). -/
def recGroupOff (d : Dev) (s : Stg) (k side o : Nat) : Nat :=
  match weightShard d s.wsrc side k o with
  | some (m, so) => o - so + m.recOff + 512 * (so / 4096 / max 1 (groupBlocks s (stageQz d k s)))
  | none => o

/-- The firing position and the generator of the weight fetch `n` after those of a position; `fuel` bounds the firings passed. -/
def wsAt (s : Stg) (q : Option QzCfg) : Nat → List Nat → Nat → List Nat × Nat
  | 0, pos, _ => (pos, 0)
  | fuel + 1, pos, n =>
    let l := wsSeq s q pos
    if n < l.length then (pos, l.getD n 0) else wsAt s q fuel (posAdd s.loop pos 1) (n - l.length)

/-- The tile `i` after the last one that the streamer has fetched for a stage. -/
def wsTile (d : Dev) (k : Nat) (s : Stg) (rt : StageRt) (i : Nat) : RunTile :=
  let p := leadPos rt (fun f => f.ws.length)
  let n := p.2 + rt.ws.length + i
  let w := wsAt s (stageQz d k s) (n + 1) p.1 n
  let side := wsSide d s rt
  let a := agAt s (if w.2 = 4 then (agsOf s 1).getD 0 0 else w.2)
  let o := offNat ((a.base : Int) + agOff a w.1)
  if w.2 = 4 then { ag := 4, off := recGroupOff d s k side o, len := if s.mx = 1 then 256 else 512, side := side }
  else { ag := w.2, off := o, len := a.len, side := side }

/-- The local addresses of a weight fetch by granule. -/
def wsAddrs (d : Dev) (k : Nat) (s : Stg) (t : RunTile) : List (Option Nat) :=
  (List.range (ceilDiv t.len 32)).map (fun i => weightAddr d s.wsrc t.side k (t.off + 32 * i))

/-- The array pages that addresses lie in, once each, as stack and page. -/
def addrPages (d : Dev) (as_ : List (Option Nat)) : List (Nat × Nat) :=
  as_.foldl (fun l a =>
    match a with
    | none => l
    | some x =>
      match region x with
      | .array st =>
        let p := (st, pageId d (arrOff x))
        if l.contains p then l else l ++ [p]
      | _ => l) []

/-- The array pages of a weight tile: a 16 KiB tile of a shard lies in one page (R383). -/
def wsPages (d : Dev) (k : Nat) (s : Stg) (t : RunTile) : List (Nat × Nat) :=
  addrPages d ((t.off :: (List.range (t.len / 16384 + 1)).map (fun i => (t.off / 16384 + i + 1) * 16384)).filter
    (fun o => decide (o < t.off + t.len)) |>.map (weightAddr d s.wsrc t.side k))

/-- The pages of a stage's fetches up to its lead limit, the next one at least. -/
def wsLead (d : Dev) (k : Nat) (s : Stg) (rt : StageRt) : List (Nat × Nat) :=
  (List.range (max 1 (leadLimit d k s - rt.ws.length))).flatMap (fun i => wsPages d k s (wsTile d k s rt i))

/-- The window page of a page. -/
def winPage (d : Dev) (page : Nat) : Nat := pageOff d page / 2 ^ 14

/-- Window pages from `w` that follow each other in a list; `fuel` bounds them. -/
def runLen (l : List Nat) : Nat → Nat → Nat
  | 0, _ => 0
  | fuel + 1, w => if l.contains w then 1 + runLen l fuel (w + 1) else 0

/-- The streamer of engine `h` reads a page of a stack for a stage: in the home context of its own stack, else in the cross context (R132,
R286, R288). The read it names runs over the pages that the stage's lead limit allows (log entry 121). -/
def wsSense (h k : Nat) (s : Stg) (p : Nat × Nat) (d : Dev) : Dev :=
  let rt := stageRt d (stKey k s.id)
  let l := ((wsLead d k s rt).filter (fun q => q.1 == p.1)).map (fun q => winPage d q.2)
  let w := winPage d p.2
  contRead p.1 (if p.1 = h then 0 else 1) h (stKey k s.id) w (max 1 (runLen (w :: l) (l.length + 1) w)) d

/-! ### The cross switch (R22) -/

/-- Is the cross-path port of a stack free to engine `h`, whose own input is connected to no stack? -/
def crossFree (d : Dev) (h st : Nat) : Bool :=
  (aryOf d st).cross.isNone && (List.range 16).all (fun i => (aryOf d i).cross != some h)

def crossTake (h st : Nat) (d : Dev) : Dev := aryUpd st (fun a => { a with cross := some h }) d

/-- Engine `h` releases the cross-path port that it holds. -/
def crossDrop (h : Nat) (d : Dev) : Dev :=
  forN 16 (fun i d => if (aryOf d i).cross = some h then aryUpd i (fun a => { a with cross := none }) d else d) d

/-- Stop the continuous reads of engine `h`, all or those for one stage, and release its cross-path port (R287). -/
def readsStop (h : Nat) (key : Option Nat) (d : Dev) : Dev :=
  let mine := fun (c : ContRead) => c.eng == h && key.all (fun x => c.key == x)
  forN 16 (fun i d =>
    let stop := fun (ctx : Nat) (d : Dev) => if (mget (aryOf d i).cont ctx).any mine then contStop i ctx d else d
    let d := if (aryOf d i).cross = some h ∧ (mget (aryOf d i).cont 1).all mine = true then
        aryUpd i (fun a => { a with cross := none }) d else d
    stop 0 d |> stop 1) d

/-- Drop a stage's fetched weight tiles and stop the reads made for them. -/
def wsDrop (h key : Nat) (d : Dev) : Dev :=
  stageUpd key (fun rt => { rt with ws := [] }) d |> readsStop h (some key)

/-! ### Fetches of the access unit (R128, R130) -/

/-- Are the waits satisfied of the pass that the next fetch of the access unit for a stage belongs to (R130)? A pass belongs to an
admitted batch. -/
def auPass (d : Dev) (s : Stg) (rt : StageRt) : Bool :=
  let l := auList s
  let p := leadPos rt (fun f => f.au.length)
  let wraps := decide (loopTotal s.loop ≤ posLin s.loop p.1 + (p.2 + rt.au.length) / max l.length 1)
  let cond := fun (i : Nat) => (s.waits.getD i ⟨0, 0, 0⟩).cond == 0
  let none_ := cond 0 && cond 1
  let done := (List.range 2).all (fun i => cond i || rt.waits.testBit i)
  (stageBatch d s rt).isSome &&
    (if wraps then none_ || (!rt.inPass && done && (firingNow rt).isSome) else (firingNow rt).isSome || rt.inPass || done)

/-- May the access unit fetch for a stage, free tiles aside? -/
def auMay (d : Dev) (h k : Nat) (s : Stg) : Bool :=
  let rt := stageRt d (stKey k s.id)
  fetchOn d h && !(auList s).isEmpty && decide (rt.au.length < leadLimit d k s) && auPass d s rt

/-- Does the access unit of an engine have a fetch waiting (R128)? -/
def auWaits (d : Dev) (h : Nat) : Bool := (engStages d h).any (fun p => auMay d h p.1 p.2)

/-- The free tiles that the streamer leaves to the access unit while it waits: none kept when the streamer's request fits (R128). -/
def wsShare (d : Dev) (h want : Nat) : Option Nat :=
  if auWaits d h && decide (tilesFree d h < want) then some (mgetD d.engs.wsShare h (tilesFree d h / 2)) else none

/-- The access unit issues the next fetch of a stage once the waits of the pass are satisfied (R126 to R130, R139, R447,
R482 to R484): the data is read as it is now (R131). -/
def auFetch (k id : Nat) (d : Dev) : Dev :=
  match stageOf d k id with
  | none => d
  | some s =>
    let h := hostOf d k id
    let rt := stageRt d (stKey k id)
    if !(auMay d h k s) || tilesFree d h == 0 then d
    else
      let l := auList s
      let p := leadPos rt (fun f => f.au.length)
      let n := p.2 + rt.au.length
      let pos := posAdd s.loop p.1 (n / l.length)
      let i := l.getD (n % l.length) 0
      let a := agAt s i
      let tg := agTarget d s (stageBatch d s rt) i pos false
      let r := tgtRead h tg a.len d
      let t : RunTile := { ag := i, off := offNat (agOff a pos), len := a.len, data := r.1.1, bad := r.1.2,
                           adr := if r.1.2.contains true then tgtAddrs d h tg a.len else [] }
      let d := stageUpd (stKey k id) (fun rt => { rt with au := rt.au ++ [t] }) r.2
      match mget d.engs.wsShare h with
      | some (x + 2) => { d with engs := { d.engs with wsShare := mput d.engs.wsShare h (x + 1) } }
      | _ => { d with engs := { d.engs with wsShare := mdel d.engs.wsShare h } }

/-! ### Fetches of the weight streamer (R126 to R129, R132, R276) -/

/-- May the streamer fetch for a stage, free tiles aside? -/
def wsMay (d : Dev) (h k : Nat) (s : Stg) : Bool :=
  let rt := stageRt d (stKey k s.id)
  fetchOn d h && !(agsOf s 1).isEmpty && decide (rt.ws.length < leadLimit d k s) &&
    ((stageBatch d s rt).isSome || (liveSide d s.wsrc).isSome)

/-- The order of an engine's stages: by STAGE_ID, then bank. -/
def stageOrd (p : Nat × Stg) : Nat := 16 * p.2.id + p.1

/-- The least entry after `n` by a key, from the least one of all again after the greatest. -/
def nextBy {α : Type} (key : α → Nat) (n : Option Nat) (l : List α) : Option α :=
  let l := sortBy key l
  match n with
  | some x => (l.find? (fun y => decide (x < key y))).or l.head?
  | none => l.head?

/-- The stage that the streamer fetches for next (R129): the pipelines of the engine take turns, and a pipeline's stage keeps its turns until
its lead is reached (log entry 100). -/
def wsPick (d : Dev) (h : Nat) : Option (Nat × Stg) :=
  let c := (engStages d h).filter (fun p => wsMay d h p.1 p.2)
  match nextBy id (mget d.engs.wsPipe h) (c.map (fun p => p.2.pipe)) with
  | none => none
  | some p =>
    let l := c.filter (fun x => x.2.pipe == p)
    let last := mget d.engs.wsStage (64 * h + p)
    (l.find? (fun x => some (stageOrd x) == last)).or (nextBy stageOrd last l)

/-- The page of a fetch that cannot be read, if one cannot (R274, R276). -/
def wsBad (d : Dev) (pages : List (Nat × Nat)) : Option (Nat × Nat) :=
  pages.find? (fun p => unreadable d p.1 (p.2 / 256) || !(domOn d (32 + p.1)))

/-- Every granule of a fetch from an unreadable block is poisoned, and the fetch is counted (R276). -/
def wsBlank (t : RunTile) (p : Nat × Nat) (d : Dev) : RunTile × Dev :=
  ({ t with data := List.replicate t.len 0, bad := List.replicate (ceilDiv t.len 32) true },
    cntAdd (Reg.ARY_UE_CNT p.1) F.ARY_UE_CNT_COUNT F.ARY_UE_CNT_OVF 1 (srcAry 8 p.1) d
      |> ueEntry (0x20 + p.1) 1 (arrayBase p.1 + pageOff d p.2))

/-- A weight tile joins a stage's run-ahead tiles, and the turn goes on (R129). -/
def wsJoin (h k : Nat) (s : Stg) (t : RunTile) (share : Option Nat) (d : Dev) : Dev :=
  let d := stageUpd (stKey k s.id) (fun rt => { rt with ws := rt.ws ++ [t] }) d
  { d with engs := { d.engs with
    wsPipe := mput d.engs.wsPipe h s.pipe, wsStage := mput d.engs.wsStage (64 * h + s.pipe) (stageOrd (k, s)),
    wsShare := match share with | some x => mput d.engs.wsShare h x | none => mdel d.engs.wsShare h } }

/-- The weight streamer issues its next fetch, if it is the named stage's turn (R22, R126 to R129, R132, R276). A fetch over the cross path
waits for the stack's port. -/
def wsFetch (k id : Nat) (d : Dev) : Dev :=
  match stageOf d k id with
  | none => d
  | some s =>
    let h := hostOf d k id
    let rt := stageRt d (stKey k id)
    let share := wsShare d h (leadLimit d k s - rt.ws.length)
    let t := wsTile d k s rt 0
    let pages := wsPages d k s t
    if (wsPick d h).map (fun p => (p.1, p.2.id)) != some (k, id) || decide (tilesFree d h ≤ share.getD 0) ||
        pages.any (fun p => rising d (32 + p.1)) then d
    else
      match wsBad d pages with
      | some p => let b := wsBlank t p d; wsJoin h k s b.1 share b.2
      | none =>
        let go := fun (d : Dev) =>
          pages.reverse.foldl (fun d p => wsSense h k s p d) (wsJoin h k s t share d)
        match pages.find? (fun p => p.1 != h) with
        | none => go d
        | some p => if crossFree d h p.1 then go (crossTake h p.1 d) else d

/-- Read a weight tile whose pages are held: bytes, poisoned granules, state. A granule without a place is poisoned. -/
def wsRead (ad : List (Option Nat)) (d : Dev) : (List Byte × List Bool) × Dev :=
  ad.foldl (fun (acc : (List Byte × List Bool) × Dev) a =>
    match a with
    | none => ((acc.1.1 ++ List.replicate 32 0, acc.1.2 ++ [true]), acc.2)
    | some x =>
      let d := acc.2
      let q := match region x with
        | .array st =>
          match pageHeld d st (pageId d (arrOff x)) with
          | some r => readReg r x 32 d
          | none => readMem x 32 d
        | _ => readMem x 32 d
      ((acc.1.1 ++ q.1.1, acc.1.2 ++ [q.1.2]), q.2)) (([], []), d)

/-- Pages that fetches of engine `h` still need: those not arrived, and those within a stage's lead. -/
def wsNeeds (d : Dev) (h : Nat) : List (Nat × Nat) :=
  (engStages d h).flatMap (fun p =>
    let rt := stageRt d (stKey p.1 p.2.id)
    if (agsOf p.2 1).isEmpty then []
    else (rt.ws.filter (fun t => !t.here && t.data.isEmpty)).flatMap (fun t => wsPages d p.1 p.2 t) ++
      (if wsMay d h p.1 p.2 then wsLead d p.1 p.2 rt else []))

/-- A weight tile has been transferred: the port releases the pages that no fetch needs, and the cross path is free (R22, R283). -/
def wsDone (h : Nat) (pages : List (Nat × Nat)) (d : Dev) : Dev :=
  let d := if pages.any (fun p => p.1 != h) then crossDrop h d else d
  let need := wsNeeds d h
  (pages.filter (fun p => !(need.contains p))).foldl (fun d p => contNext p.1 (if p.1 = h then 0 else 1) p.2 d) d

/-! ### Results of a firing -/

/-- Change the firing of a stage that still works on its operands. -/
def firingUpd (key : Nat) (g : Firing → Firing) (d : Dev) : Dev :=
  stageUpd key (fun rt => { rt with firings := rt.firings.map (fun f => if f.ready then f else g f) }) d

/-- Give credits back to a route's producer (R109). -/
def credBack (k port n : Nat) (d : Dev) : Dev :=
  match routeBySrc d (epMk 0 k port) with
  | none => d
  | some r =>
    match mget d.fifos r with
    | some f => setFifo r { f with cred := f.cred + n } d
    | none => d

/-- Write the first `n` items that the stage's firings owe, oldest first, each with one of its firing's reserved credits if it has one left
(R109). -/
def owedFlush (k id : Nat) : Nat → Dev → Dev
  | 0, d => d
  | n + 1, d =>
    let l := (stageRt d (stKey k id)).firings
    match l.findIdx? (fun f => !f.owed.isEmpty) with
    | none => d
    | some i =>
      match l[i]? with
      | none => d
      | some f =>
        match f.owed with
        | [] => d
        | p :: rest =>
          let c := mgetD f.resv p.1 0
          let f := { f with owed := rest, resv := mput f.resv p.1 (c - 1) }
          let d := stageUpd (stKey k id) (fun rt => { rt with firings := rt.firings.set i f }) d
          let d := if c = 0 then d else credBack k p.1 1 d
          owedFlush k id n (match routeBySrc d (epMk 0 k p.1) with | some r => fifoSend r [p.2] d | none => d)

/-- Output ports in use, lowest first. -/
def outPorts (s : Stg) : List Nat := (List.range 8).filter (fun i => s.outCred.getD i 0 != 0)

/-- The last item written to a port in the batch carries the end mark (R120). -/
def markLast (its : List (Nat × Item)) (p : Nat) : List (Nat × Item) :=
  match its.reverse.span (fun x => x.1 != p) with
  | (a, x :: b) => (a ++ (x.1, { x.2 with fin := true }) :: b).reverse
  | (_, []) => its

/-- Hand out a firing's results (R64, R106, R242, R244): the main items to the first USE 3 generator or output port, the records to the
next. A port takes OUT_CRED items at most (log entry 35); records that fill no item wait for those of later firings, until the batch's
last one. -/
def fireDeliver (k : Nat) (s : Stg) (o : FireOut) (d : Dev) : Dev :=
  let key := stKey k s.id
  let rt := stageRt d key
  let h := hostOf d k s.id
  match firingNow rt with
  | none => d
  | some f =>
    let b := stageBatch d s rt
    let mem := if s.mx = 6 ∨ s.vx = 0x14 then [] else agsOf s 3
    let ports := outPorts s
    let store := fun (its : List Item) (i : Nat) (d : Dev) =>
      let its := its.take ((agAt s i).len / 32)
      let w := tgtWrites h (agTarget d s b i f.pos true) (its.flatMap Item.data) (its.map Item.poison) d
      stageUpd key (fun rt => { rt with writes := rt.writes ++ w.1 }) w.2
    let owe := fun (its : List Item) (p : Nat) (d : Dev) =>
      firingUpd key (fun f => { f with owed := f.owed ++ (its.take (s.outCred.getD p 0)).map (fun i => (p, i)) }) d
    let d := match mem[0]?, ports[0]? with
      | some i, _ => store o.main i d
      | none, some p => owe o.main p d
      | none, none => d
    let d := match mem[1]?, (if mem.isEmpty then ports[1]? else ports[0]?) with
      | some i, _ => store (packItems 4 0x00008000 o.recs) i d
      | none, some p =>
        let l := rt.recs ++ o.recs
        let n := if f.last then l.length else min (l.length / 8) (s.outCred.getD p 0) * 8
        owe (packItems 4 0x00008000 (l.take n)) p (stageUpd key (fun rt => { rt with recs := l.drop n }) d)
      | none, none => d
    stageUpd key (fun rt =>
      match firingNow rt with
      | none => rt
      | some f =>
        let ps := ports.filter (fun p => f.owed.any (fun x => x.1 == p))
        let m := ps.foldl (fun m p => m ||| 2 ^ p) 0
        let mark := f.last && s.passEob
        let g : Firing := { f with owed := if mark then ps.foldl markLast f.owed else f.owed, ready := true }
        { rt with firings := rt.firings.map (fun x => if x.ready then x else g),
                  wrote := rt.wrote ||| m, marked := if mark then rt.marked ||| m else rt.marked }) d

/-- The tensors of the train-run's layers in the order of R486: elements of each, read from OBJ_WORK's layer table (R478,
R479, R491). -/
def layerTensors (d : Dev) : List Nat :=
  match tmObj d (roleObj d 5) with
  | none => []
  | some o =>
    let rdw := fun (off n : Nat) => leNat (rawBytes d (tileAddr o (off / 16384) + off % 16384) n)
    let rank := rdw 8 2
    (List.range (rdw 6 2)).flatMap (fun i => [rdw (0x44 + 32 * i) 4 * rank, rdw (0x48 + 32 * i) 4 * rank])

/-- The offset, in an M or V half, of the record of the block at code offset `o` (R487). -/
def optRecOff (ts : List Nat) (o : Nat) : Nat :=
  let tiles := ts.foldl (fun a n => a + ceilDiv n 16384) 0
  let r := ts.foldl (fun (acc : Nat × Nat × Option Nat) n =>
    match acc.2.2 with
    | some _ => acc
    | none =>
      let t := ceilDiv n 16384
      if o < 16384 * (acc.1 + t) then (acc.1, acc.2.1, some (acc.2.1 + (o - 16384 * acc.1) / 256))
      else (acc.1 + t, acc.2.1 + ceilDiv n 256, none)) (0, 0, none)
  16384 * tiles + 4 * (r.2.2.getD r.2.1)

/-- OPT_STEP of one firing (R217, R218, R502 to R504): its reads beyond the tiles, and its writes to the write halves. -/
def optFire (f : FireIn) (d : Dev) : List PendWr × Dev :=
  let ps := dataPorts f
  let d := portConsume f (ps.getD 1 8) d
  let gs := itemElems 1 (mgetD f.ins (ps.getD 0 8) [])
  let grec := (itemElems 4 (mgetD f.ins (ps.getD 1 8) [])).getD 0 (0, false)
  let role := fun (r : Nat) => f.au.find? (fun t => (agAt f.s t.ag).base.testBit 63 && (agAt f.s t.ag).base / 2 ^ 60 % 8 == r)
  let els := fun (w : Nat) (t : Option RunTile) => (t.map (fun t => itemElems w (tileItems t))).getD []
  let ms := els 1 (role 3)
  let vs := els 1 (role 4)
  let ws := els 2 (role 2)
  let off := fun (r : Nat) => ((role r).map RunTile.off).getD 0
  let b := (mgetD d.pipes f.s.pipe {}).batches.find? (fun b => some (f.s.pipe, b.seq) == f.own)
  let st := xlateRead f.h (roleObj d 6) 0 64 d
  let k := stepRec st.1.1
  let ts := layerTensors st.2
  let blks := (chunksOf 256 gs.length gs).zipIdx
  let clipsAt := (f.q.map QzCfg.id).getD 0
  let r := blks.foldl (fun (acc : List PendWr × Dev) (g : List Elem × Nat) =>
    let o := 256 * g.2
    let mo := optRecOff ts (off 3 + o)
    let vo := optRecOff ts (off 4 + o)
    let mr := xlateRead f.h (roleObj acc.2 3) (roleHalf acc.2 b 3 false + mo) 4 acc.2
    let vr := xlateRead f.h (roleObj mr.2 4) (roleHalf mr.2 b 4 false + vo) 4 mr.2
    let x := optBlock k g.1 grec ((ms.drop o).take g.1.length) (leNat mr.1.1, mr.1.2)
      ((vs.drop o).take g.1.length) (leNat vr.1.1, vr.1.2) ((ws.drop o).take g.1.length)
    let d := vr.2
    let mk := fun (r w at_ : Nat) (es : List Elem) =>
      [(⟨some (roleObj d r), roleHalf d b r true + at_, es.flatMap (fun e => leBytes w e.1), es.any Prod.snd⟩ : PendWr)]
    let wr_ := mk 3 1 (off 3 + o) x.1.1 ++ mk 3 4 mo [x.1.2] ++ mk 4 1 (off 4 + o) x.2.1.1 ++ mk 4 4 vo [x.2.1.2] ++
      mk 2 2 (off 2 + 2 * o) x.2.2.1
    let low := [grec.1, leNat mr.1.1, leNat vr.1.1].countP (fun r => !(recValid r))
    let d := qzClips f.k clipsAt x.2.2.2.1 d |> qzLow f.k clipsAt low f.own
      |> cntAdd Reg.ARB_TR_NONFIN F.ARB_TR_NONFIN_COUNT F.ARB_TR_NONFIN_OVF x.2.2.2.2 101
    (acc.1 ++ wr_, d)) ([], st.2)
  r

/-- Seed the lanes of an engine at the first firing of a pass that quantises to G8 (R239, R490). Outside a train-run the manual
gives no SEED: a free value. -/
def laneSeeds (h : Nat) (train : Bool) (d : Dev) : Dev :=
  let r : Nat × Dev :=
    if train then
      let t := trField d 0x0C 4 + (d.train.map TrainRun.done).getD 0 + 1
      (trField d 0x10 4 ^^^ (0x85EBCA6B * t % 2 ^ 32), d)
    else ((takeFree d).1 % 2 ^ 32, (takeFree d).2)
  { r.2 with engs := { r.2.engs with lanes := mput r.2.engs.lanes h ((List.range 64).map (fun l => laneSeed r.1 l h)) } }

/-- MX and VX take over the run-ahead tiles that a firing needs next and that have arrived (R108, R126): tiles of the other side are
discarded first (R124). -/
def firePull (k : Nat) (s : Stg) (d : Dev) : Dev :=
  let key := stKey k s.id
  let rt := stageRt d key
  match firingNow rt with
  | none => d
  | some f =>
    let side := wsSide d s rt
    let d := if rt.ws.any (fun t => t.side != side) then wsDrop (hostOf d k s.id) key d else d
    let rt := stageRt d key
    let nw := (wsSeq s (stageQz d k s) f.pos).length - f.ws.length
    let na := (auList s).length - f.au.length
    let w := (rt.ws.take nw).takeWhile RunTile.here
    let a := (rt.au.take na).takeWhile RunTile.here
    stageUpd key (fun rt => { rt with ws := rt.ws.drop w.length, au := rt.au.drop a.length }) d
      |> firingUpd key (fun f => { f with ws := f.ws ++ w, au := f.au ++ a })

/-- Form the results of a firing once it has every tile that it needs (R107, R108). -/
def fireCompute (k : Nat) (s : Stg) (d : Dev) : Dev :=
  let key := stKey k s.id
  let d := firePull k s d
  let rt := stageRt d key
  match firingNow rt with
  | none => d
  | some f =>
    let q := stageQz d k s
    if f.ws.length < (wsSeq s q f.pos).length ∨ f.au.length < (auList s).length then d
    else
      let b := stageBatch d s rt
      let fi : FireIn :=
        { h := hostOf d k s.id, k := k, s := s, q := q, own := b.map (fun b => (s.pipe, b.seq)), ins := f.ins, ws := f.ws, au := f.au,
          pos := f.pos, train := isTrain b, last := f.last, rew := f.rew.or (agPass s q f.pos) }
      let d := tokConsume fi d
      let g8 := s.vx == 3 && (fi.q.map QzCfg.fmt) == some 1
      let d := if g8 && f.pos.all (fun x => x == 0) then laneSeeds fi.h fi.train d else d
      if s.mx = 6 then
        match (agsOf s 3).head? with
        | some i =>
          let t := agTarget d s b i f.pos true
          let cur := tgtRead fi.h t 16384 d
          let o := outerG8 fi cur.1.1 cur.1.2 cur.2
          let w := tgtWrites fi.h t o.1.1 o.1.2 o.2
          fireDeliver k s {} (w.1.foldl (fun d x => tgtWrite fi.h s.id x d) w.2)
        | none => fireDeliver k s {} d
      else if s.vx = 0x14 then
        let o := optFire fi d
        fireDeliver k s {} (stageUpd key (fun rt => { rt with writes := rt.writes ++ o.1 }) o.2)
      else if s.mx = 0 then
        let o := vxRun fi none d
        fireDeliver k s o.1 o.2
      else
        match mxRun fi d with
        | (none, d) => fireDeliver k s {} d
        | (some m, d) =>
          let o := vxRun fi (some m) d
          fireDeliver k s o.1 o.2

/-! ### Firing (R107 to R112) -/

/-- The destination of a stage's input port: its route, its reads, and the items that a firing may take, with one that a MARK has read
first (R183). -/
def portView (d : Dev) (k p : Nat) : Option (Nat × FDst × List Item) :=
  match routeByDst d (epMk 1 k p) with
  | none => none
  | some r =>
    match (mget d.fifos r).bind (fun f => mget f.dsts (dstKey (epMk 1 k p))) with
    | none => none
    | some x => some (r, x, x.lead.toList ++ x.shown)

/-- Input ports in use, lowest first. -/
def inPorts (s : Stg) : List Nat := (List.range 8).filter (fun i => s.inTok.getD i 0 != 0)

/-- Has the port read its end mark in this batch? -/
def portEnded (x : FDst) : Bool := x.atEnd && x.lead.isNone

/-- Take items up to and with the first end mark, `n` at most. -/
def takeTok : Nat → List Item → List Item
  | 0, _ => []
  | _, [] => []
  | n + 1, i :: l => if i.fin then [i] else i :: takeTok n l

/-- The items a firing would take from each port in use, if R107 condition 3 holds; a port whose end mark has been taken in this
batch gives none. -/
def fireTokens (d : Dev) (k : Nat) (s : Stg) (rt : StageRt) : Option (FMap (List Item)) :=
  let ports := inPorts s
  let ended := fun (p : Nat) => (portView d k p).any (fun v => portEnded v.2.1)
  if ports.isEmpty then (if rt.done then none else some [])
  else if ports.all ended then none
  else
    ports.foldl (fun (acc : Option (FMap (List Item))) p =>
      match acc with
      | none => none
      | some m =>
        if ended p then some m
        else
          match portView d k p with
          | none => none
          | some v =>
            let n := s.inTok.getD p 0
            let t := takeTok n v.2.2
            if t.length = n ∨ (t.getLast?.map Item.fin) = some true then some (mput m p t) else none) (some [])

/-- Condition 4 of R107: credits on every output port in use, or one free slot of a stall-mode route (R194). -/
def fireCredits (d : Dev) (k : Nat) (s : Stg) : Bool :=
  (outPorts s).all (fun p =>
    match (routeBySrc d (epMk 0 k p)).bind (fun r => mget d.fifos r) with
    | none => false
    | some f =>
      f.backlog.isEmpty && (if f.stall then decide (fifoOcc f < fifoDepth f) else decide (s.outCred.getD p 0 ≤ f.cred)))

/-- Condition 6 of R107: the units that the stage needs can take a firing on its engine. -/
def fireUnits (d : Dev) (h : Nat) (s : Stg) : Bool :=
  (engStages d h).all (fun p =>
    match firingNow (stageRt d (stKey p.1 p.2.id)) with
    | some f => !(f.mx && s.mx != 0) && !(f.vx && s.vx != 0)
    | none => true)

/-- Evaluate the waits of a pass in order (R143): whether all are satisfied. -/
def fireWaits (h key : Nat) (s : Stg) (d : Dev) : Bool × Dev :=
  if (stageRt d key).inPass then (true, d)
  else
    (List.range 2).foldl (fun (acc : Bool × Dev) i =>
      if !acc.1 || (stageRt acc.2 key).waits.testBit i then acc
      else
        let w := s.waits.getD i ⟨0, 0, 0⟩
        let r := stageWait h key i w acc.2
        if r.1 && w.cond != 0 then (true, stageUpd key (fun rt => { rt with waits := rt.waits ||| 2 ^ i }) r.2)
        else r) (true, d)

/-- The items that a stage would take if it may fire, its waits aside (R107, conditions 1 to 4, 6 and 7). -/
def fireReady (d : Dev) (h k : Nat) (s : Stg) : Option (FMap (List Item)) :=
  let rt := stageRt d (stKey k s.id)
  if fetchOn d h && (firingNow rt).isNone && decide (rt.cur < (mgetD d.pipes s.pipe {}).nextFlow) && fireCredits d k s &&
      fireUnits d h s then fireTokens d k s rt
  else none

/-- Take the items of a firing from its ports (R106, R119). -/
def fireTake (k : Nat) (ins : FMap (List Item)) (d : Dev) : Dev :=
  ins.foldl (fun d q =>
    match portView d k q.1 with
    | none => d
    | some v =>
      let key := dstKey (epMk 1 k q.1)
      fifoRead v.1 key (q.2.length - v.2.1.lead.toList.length) (setDst v.1 key { v.2.1 with lead := none } d)) d

/-- Reserve the credits of a firing (R109). -/
def fireReserve (k : Nat) (s : Stg) (d : Dev) : FMap Nat × Dev :=
  (outPorts s).foldl (fun (acc : FMap Nat × Dev) q =>
    match routeBySrc acc.2 (epMk 0 k q) with
    | none => acc
    | some r =>
      match mget acc.2.fifos r with
      | none => acc
      | some f =>
        if f.stall then acc
        else (mput acc.1 q (s.outCred.getD q 0), setFifo r { f with cred := f.cred - s.outCred.getD q 0 } acc.2)) ([], d)

/-- Fire stage `s` of bank `k` on engine `h` if R107 holds: whether it fired. -/
def fireTry (h k : Nat) (s : Stg) (d : Dev) : Bool × Dev :=
  let key := stKey k s.id
  match fireReady d h k s with
  | none => (false, d)
  | some ins =>
    match fireWaits h key s d with
    | (false, d) => (false, d)
    | (true, d) =>
      let rt := stageRt d key
      let ports := inPorts s
      let q := stageQz d k s
      let rews := ports.map (fun p => (portView d k p).bind (fun v => v.2.1.mark.map (fun _ => v.2.1.rew)))
      let next := posAdd s.loop rt.loops 1
      let passEnd := next.all (fun x => x == 0)
      let d := fireTake k ins d
      let ended := ports.all (fun p => (portView d k p).any (fun v => v.2.1.atEnd))
      let more := rews.any (fun r => r.any (fun n => decide (n + 1 < vxPasses s q)))
      let last := if ports.isEmpty then passEnd else ended && !more
      let rs := fireReserve k s d
      let f : Firing := { ins := ins, pos := rt.loops, resv := rs.1, mx := s.mx != 0, vx := s.vx != 0,
                          rew := ((dataOf s q).head?.bind (fun p => ports.findIdx? (fun x => x == p))).bind (fun i => rews.getD i none),
                          passEnd := passEnd, last := last }
      let d := stageUpd key (fun rt => { rt with
        loops := next, inPass := !passEnd, waits := if passEnd then 0 else rt.waits, done := rt.done || (ports.isEmpty && last),
        firings := rt.firings ++ [f] }) rs.2
      let d := { d with engs := { d.engs with last := mput d.engs.last h (stageOrd (k, s)) } }
      (true, fireCompute k s (cntAdd64 (Reg.ENG_FIRE_CNT h) 1 d))

/-- Count stalled cycles (R108, R168). -/
def stallAdd (r : Reg) (h n : Nat) (d : Dev) : Dev :=
  let c := (rd d r).toNat
  let d := cntAdd64 r n d
  if c < 2 ^ 64 - 1 ∧ c + n ≥ 2 ^ 64 - 1 then raise (srcEng 4 h) d else d

/-- The sequencer of engine `h` fires the first ready stage in round-robin order (R110); its first `written` items are written
at once. `lackIn`, `lackCred` and `lackWait` are the cycles in which a valid stage lacked tokens, credits or a wait. -/
def stageFire (h written lackIn lackCred lackWait : Nat) (d : Dev) : Dev :=
  let d := stallAdd (Reg.ENG_STALL_IN h) h lackIn d |> stallAdd (Reg.ENG_STALL_CRED h) h lackCred
    |> stallAdd (Reg.ENG_STALL_WAIT h) h lackWait
  let l := sortBy stageOrd (engStages d h)
  let after : List (Nat × Stg) := match mget d.engs.last h with
    | some n => l.filter (fun p => decide (n < stageOrd p)) ++ l.filter (fun p => decide (stageOrd p ≤ n))
    | none => l
  let r := after.foldl (fun (acc : Option (Nat × Nat) × Dev) (p : Nat × Stg) =>
    match acc.1 with
    | some _ => acc
    | none =>
      let x := fireTry h p.1 p.2 acc.2
      (if x.1 then some (p.1, p.2.id) else none, x.2)) (none, d)
  match r.1 with
  | some p => owedFlush p.1 p.2 written r.2
  | none => r.2

/-- Is a firing of the stage stalled for a weight tile (R108)? -/
def wsStalled (d : Dev) (k : Nat) (s : Stg) : Bool :=
  (firingNow (stageRt d (stKey k s.id))).any (fun f => decide (f.ws.length < (wsSeq s (stageQz d k s) f.pos).length))

/-- A fetched weight tile arrives (R131, R276): its data is read from the page registers that hold it, or from DRAM. Pages that are not held
are sensed, and one held in a plane group that programs or erases is not delivered to the home context (R298). A firing that waited for the tile counted `stalled` cycles (R108). -/
def wsArrival (k : Nat) (s : Stg) (stalled : Nat) (d : Dev) : Dev :=
  let key := stKey k s.id
  let rt := stageRt d key
  let h := hostOf d k s.id
  match rt.ws.findIdx? (fun t => !t.here) with
  | none => d
  | some i =>
    let t := rt.ws.getD i { ag := 0, off := 0, len := 0 }
    let ad := wsAddrs d k s t
    let pages := wsPages d k s t
    let put := fun (t : RunTile) (d : Dev) =>
      let wait := wsStalled d k s
      stageUpd key (fun rt => { rt with ws := rt.ws.set i { t with here := true } }) d
        |> whenB wait (stallAdd (Reg.ENG_STALL_WS h) h stalled) |> wsDone h pages |> fireCompute k s
    if !t.data.isEmpty then put t d
    else
      match wsBad d pages, pages.find? (fun p => (pageHeld d p.1 p.2).isNone) with
      | some p, _ => let b := wsBlank t p d; put b.1 b.2
      | none, some p =>
        if p.1 = h ∨ (aryOf d p.1).cross = some h then wsSense h k s p d
        else
          let d := crossDrop h d
          if crossFree d h p.1 then wsSense h k s p (crossTake h p.1 d) else d
      | none, none =>
        if pages.any (fun p => decide (p.1 = h) && !(groupFree (aryOf d p.1) (pagePlane d p.2 / 32))) then d
        else
          let r := wsRead ad d
          put { t with data := r.1.1, bad := r.1.2,
                       adr := if r.1.2.contains true then ad.map (fun (a : Option Nat) => a.getD 0) else [] } r.2

/-- A fetched tile arrives (R131): weights, or the data of the access unit. -/
def fetchArrival (k id : Nat) (weights : Bool) (stalled : Nat) (d : Dev) : Dev :=
  match stageOf d k id with
  | none => d
  | some s =>
    let key := stKey k id
    if weights then wsArrival k s stalled d
    else
      match (stageRt d key).au.findIdx? (fun t => !t.here) with
      | none => d
      | some i =>
        stageUpd key (fun rt => { rt with au := rt.au.set i { rt.au.getD i { ag := 0, off := 0, len := 0 } with here := true } }) d
          |> fireCompute k s

/-- The access unit issues the next write of a stage (R447). A train-run that writes poison into a run object stops after its
step (R513). -/
def auWrite (k id : Nat) (d : Dev) : Dev :=
  let key := stKey k id
  match (stageRt d key).writes with
  | [] => d
  | w :: rest =>
    let d := stageUpd key (fun rt => { rt with writes := rest }) d
    let d := match d.train with
      | some t =>
        let run := [2, 3, 4, 5].any (fun r => w.obj == some (roleObj d r))
        if w.poison && run && t.poison.isNone then { d with train := some { t with poison := w.obj } } else d
      | none => d
    tgtWrite (hostOf d k id) id w d

/-- The oldest firing ends (R109): what it owes is written, unused credits return, and a pass that ended inside the batch makes its
signals due (R122, R145). -/
def firingEnd (k id : Nat) (d : Dev) : Dev :=
  let key := stKey k id
  match (stageRt d key).firings.head? with
  | none => d
  | some f =>
    if f.ready then
      let d := owedFlush k id f.owed.length d
      let resv := ((stageRt d key).firings.head?.map Firing.resv).getD []
      let d := resv.foldl (fun d q => credBack k q.1 q.2 d) d
      stageUpd key (fun rt => { rt with
        firings := rt.firings.tail, sigDue := if f.passEnd && !f.last then rt.sigDue + 1 else rt.sigDue }) d
    else d

/-- The end mark of a batch on output port `p` (R120, R121): on the last item written to it, or as an empty packet. -/
def portMark (k : Nat) (rt : StageRt) (p : Nat) (d : Dev) : Dev :=
  match routeBySrc d (epMk 0 k p) with
  | none => d
  | some r =>
    if rt.marked.testBit p then d
    else if rt.wrote.testBit p then fifoEndLast r d
    else fifoSend r [{ data := List.replicate 32 0, fin := true, empty := true, poison := false }] d

/-- Do the tiles that the access unit has fetched for the next pass depend on the batch (R482)? -/
def auBatched (s : Stg) : Bool := (auList s).any (fun i => (agAt s i).base.testBit 63 && (agAt s i).base / 2 ^ 60 % 8 != 0)

/-- The batch ends for a stage (R119 to R121, R188): every input port's end mark has been taken and its slot freed. -/
def stageBatchEnd (k id : Nat) (d : Dev) : Dev :=
  match stageOf d k id with
  | none => d
  | some s =>
    let key := stKey k id
    let rt := stageRt d key
    let ports := inPorts s
    let all := if ports.isEmpty then rt.done
      else ports.all (fun p => (portView d k p).any (fun v => portEnded v.2.1 && v.2.1.mark.isNone))
    if !rt.firings.isEmpty || !all then d
    else
      let own := (stageBatch d s rt).map (fun b => (s.pipe, b.seq))
      let d := if s.passEob then forEach (outPorts s) (portMark k rt) d else d
      let d := ports.foldl (fun d p => match portView d k p with
        | some v => portNext v.1 (dstKey (epMk 1 k p)) d
        | none => d) d
      let d := if s.qz = 0xFF then d else qzBatchEnd key k s.qz own d
      let open_ := rt.loops.any (fun x => x != 0)
      let d := if open_ then wsDrop (hostOf d k id) key d else d
      stageUpd key (fun rt => { rt with
        loops := [0, 0, 0, 0], cur := rt.cur + 1, inPass := false, done := false, wrote := 0, marked := 0, waits := 0,
        au := if open_ || auBatched s then [] else rt.au, acc := [], rows := [], recs := [], sigDue := rt.sigDue + 1 }) d

/-- A stage issues its two signals once its writes are acknowledged and its items stand in their FIFOs (R145). -/
def stageSignals (k id : Nat) (d : Dev) : Dev :=
  match stageOf d k id with
  | none => d
  | some s =>
    let key := stKey k id
    let rt := stageRt d key
    let stand := (outPorts s).all (fun p =>
      match (routeBySrc d (epMk 0 k p)).bind (fun r => mget d.fifos r) with
      | some f => f.backlog.isEmpty
      | none => true)
    let held := d.tm.held.any (fun w => w.stage == id && w.eng == hostOf d k id)
    if rt.sigDue = 0 || !rt.writes.isEmpty || !stand || held then d
    else
      let d := stageUpd key (fun rt => { rt with sigDue := rt.sigDue - 1 }) d
      s.sigs.foldl (fun d g => stageSignal (hostOf d k id) key g d) d

/-- A wait of a stage stays unsatisfied beyond ENG_WAIT_TMO (R146): the stage is about to make the first firing of a pass, and the wait is
the one it waits for (R143). Each is reported once. -/
def engWaitTimeout (k id w : Nat) (d : Dev) : Dev :=
  match stageOf d k id with
  | none => d
  | some s =>
    let h := hostOf d k id
    let key := stKey k id
    if (fireReady d h k s).isNone then d
    else
      match fireWaits h key s d with
      | (true, d) => d
      | (false, d) =>
        let rt := stageRt d key
        let now := (List.range 2).find? (fun i => (s.waits.getD i ⟨0, 0, 0⟩).cond != 0 && !(rt.waits.testBit i))
        if now != some w || rt.waits.testBit (2 + w) then d
        else
          stageUpd key (fun rt => { rt with waits := rt.waits ||| 2 ^ (2 + w) }) d
            |> logOnce (Reg.ENG_WAIT_STAT h) F.ENG_WAIT_STAT_VALID F.ENG_WAIT_STAT_OVER (fun d =>
                d |> sf (Reg.ENG_WAIT_STAT h) F.ENG_WAIT_STAT_WAIT w |> sf (Reg.ENG_WAIT_STAT h) F.ENG_WAIT_STAT_STAGE id)
            |> raise (srcEng 2 h)

/-! ### Shadow ports (R161, R210) -/

/-- The engine whose port, own or shadow, a port of bank `k` is: that of the stages that use it. -/
def portHost (d : Dev) (k : Nat) (uses : Stg → Bool) : Option Nat :=
  (((cfgStages (activeCfg d) k).find? (fun s => s.valid && uses s)).map (fun s => hostOf d k s.id)).filter (fun h => h != k)

/-- Every route is bound to the shadow ports of the hosts that run its stages. -/
def hostPorts (d : Dev) : Dev :=
  let src := fun (f : Fifo) => if epKind f.src = 0 then portHost d (epInst f.src) (fun s => s.outCred.getD (epPort f.src) 0 != 0) else none
  let dst := fun (f : Fifo) => if epKind f.dst = 1 then
      (f.dsts.map Prod.fst).foldl (fun m k => match portHost d k (fun s => s.inTok.getD (epPort f.dst) 0 != 0) with
        | some h => mput m k h
        | none => m) []
    else []
  { d with fifos := mmap d.fifos (fun _ f => { f with srcHost := src f, dstHosts := dst f }) }

/-! ### Enable, drain, kill and faults (R147 to R156, R164, R168) -/

/-- Run a change over the stages that an engine runs. -/
def engEach (h : Nat) (f : Nat → Nat → Dev → Dev) (d : Dev) : Dev :=
  (engStages d h).foldl (fun d p => f p.1 p.2.id d) d

/-- Discard an engine's run-ahead tiles, and stop the reads made for them (R287). -/
def engDiscard (h : Nat) (d : Dev) : Dev :=
  engEach h (fun k id d => stageUpd (stKey k id) (fun rt => { rt with ws := [], au := [] }) d) d |> readsStop h none

/-- Has PD_Ek turned off? The state that the engine takes when it is on again is then kept (R165). -/
def engOff (d : Dev) (k : Nat) : Bool := mhas d.pmu.engSaved k

/-- The state that an engine keeps while its domain is off, else the one it is in. -/
def engKept (d : Dev) (k : Nat) : Nat := mgetD d.pmu.engSaved k (engState d k)

/-- An engine takes a state: at once, and where its domain is off also for the time it is on again. -/
def engTake (k st : Nat) (d : Dev) : Dev :=
  let d := setEngState k st d
  if engOff d k then { d with pmu := { d.pmu with engSaved := mput d.pmu.engSaved k st } } else d

/-- The state of an enabled engine that nothing holds (R164). -/
def engRun (d : Dev) : Nat := if d.img.running then 2 else 1

/-- An engine whose domain is off keeps a state for the time it is on. -/
def engKeep (k st : Nat) (d : Dev) : Dev :=
  { setEngState k 0 d with pmu := { d.pmu with engSaved := mput d.pmu.engSaved k st } }

/-- ENG_CTL.EN cleared: the engine drains (R147), at once or when its domain is on. -/
def engDrain (k : Nat) (d : Dev) : Dev :=
  let d := sf (Reg.ENG_CTL k) F.ENG_CTL_EN 0 d
  let st := engKept d k
  if st = 1 ∨ st = 2 then
    { (if engOff d k then engKeep k 3 d else setEngState k 3 d) with engs := { d.engs with slow := mdel d.engs.slow k } }
  else d

/-- Is nothing of an engine in flight: no firing, and no write that is not acknowledged (R148, R153)? -/
def engIdle (d : Dev) (k : Nat) : Bool :=
  (engStages d k).all (fun p => let rt := stageRt d (stKey p.1 p.2.id); rt.firings.isEmpty && rt.writes.isEmpty) &&
    !(d.tm.held.any (fun w => w.eng == k))

/-- The last firing of a draining engine has ended (R148). -/
def engDrained (k : Nat) (d : Dev) : Dev :=
  if engState d k = 3 ∧ engIdle d k = true then engDiscard k d |> setEngState k 4 |> raise (srcEng 0 k) else d

/-- Draining has lasted longer than ENG_DRAIN_TMO: reported once (R149). -/
def engDrainSlow (k : Nat) (d : Dev) : Dev :=
  if engState d k = 3 ∧ mhas d.engs.slow k = false then
    raise (srcEng 1 k) { d with engs := { d.engs with slow := mput d.engs.slow k () } }
  else d

/-- Every stage of an engine begins again with its loop counters at 0 (R154). -/
def engRestart (k : Nat) (d : Dev) : Dev :=
  engEach k (fun b id d => stageUpd (stKey b id) (fun rt =>
    { rt with loops := [0, 0, 0, 0], inPass := false, done := false, waits := 0, acc := [], rows := [], recs := [] }) d) d

/-- ENG_CTL.EN set (R150, R154, R164), with its effect when the domain is on. -/
def engEnable (k : Nat) (d : Dev) : Dev :=
  let d := sf (Reg.ENG_CTL k) F.ENG_CTL_EN 1 d
  let st := engKept d k
  let go := fun (d : Dev) => if engOff d k then engKeep k (engRun d) d else setEngState k (engRun d) d
  if st = 3 ∨ st = 4 then go d
  else if st = 5 then go (engRestart k d)
  else d

/-- Write the items that a stage's stopped firings owe as poisoned items on their reserved credits, oldest firing first (R152). -/
def killFirings (k id : Nat) (d : Dev) : Dev :=
  let key := stKey k id
  match stageOf d k id with
  | none => d
  | some s =>
    let blank : Item := { data := List.replicate 32 0, fin := false, empty := false, poison := true }
    let owed := fun (f : Firing) =>
      if f.ready then f.owed.map (fun p => (p.1, { p.2 with poison := true }))
      else
        let l := f.resv.flatMap (fun q => List.replicate q.2 (q.1, blank))
        if f.last && s.passEob then (f.resv.map Prod.fst).foldl markLast l else l
    let mask := fun (l : List (Nat × Item)) => l.foldl (fun m p => m ||| 2 ^ p.1) 0
    let d := stageUpd key (fun rt => { rt with
      firings := rt.firings.map (fun f => { f with owed := owed f, ready := true }),
      wrote := rt.firings.foldl (fun m f => m ||| mask (owed f)) rt.wrote,
      marked := rt.firings.foldl (fun m f => if f.last && s.passEob then m ||| mask (owed f) else m) rt.marked }) d
    let n := ((stageRt d key).firings.map (fun f => f.owed.length)).sum
    let d := forN n (fun _ => ueEntry 0x13 2 0) d
    let d := owedFlush k id n d
    let d := (stageRt d key).firings.foldl (fun d f => f.resv.foldl (fun d q => credBack k q.1 q.2 d) d) d
    stageUpd key (fun rt => { rt with firings := [], acc := [], rows := [], recs := [] }) d

/-- The address that a write of a stage goes to, 0 for none. -/
def pendAddr (d : Dev) (w : PendWr) : Nat :=
  match w.obj with
  | some n => ((tmObj d n).map (fun o => tileAddr o (w.off / 16384) + w.off % 16384)).getD 0
  | none => w.off

/-- The writes of an engine that the tier manager holds back store poison (R152, R460). -/
def killHeld (h : Nat) (d : Dev) : Dev :=
  let n := d.tm.held.countP (fun w => w.eng == h)
  forN n (fun _ => ueEntry 0x16 2 0)
    { d with tm := { d.tm with held := d.tm.held.map (fun w => if w.eng = h then { w with poison := true } else w) } }

/-- KILL (R152, R153, R190): firings stop, what they owe is poisoned, unfinished writes store poison. -/
def engKill (h : Nat) (d : Dev) : Dev :=
  let d := engEach h (fun k id d =>
    let d := killFirings k id d
    let ws := (stageRt d (stKey k id)).writes
    let d := ws.foldl (fun d w =>
      let a := pendAddr d w
      ueEntry ((storeOf a).getD 0x16) 2 a (tgtWrite h id { w with poison := true } d)) d
    stageUpd (stKey k id) (fun rt => { rt with writes := [] }) d) d
  killHeld h d |> engDiscard h |> killMarks h |> (if engKept d h = 6 then id else engTake h 5) |> prodCheckAll

/-- The engine enters FAILED with a cause of R155, raises ENG_FAULT, and its T0 placements are captured (R469). -/
def engFail (k cause : Nat) (d : Dev) : Dev :=
  if engKept d k = 6 then d
  else
    engTake k 6 d |> sf (Reg.ENG_STAT k) F.ENG_STAT_FAULT cause |> raise (srcEng 3 k) |> prodCheckAll |> captureEngine k

/-- A firing has not ended within ENG_FIRE_TMO (R155). -/
def fireHang (k : Nat) (d : Dev) : Dev :=
  if (engStages d k).any (fun p => !(stageRt d (stKey p.1 p.2.id)).firings.isEmpty) then engFail k 1 d else d

/-- ENG_CTL.CNT_CLR (R168). -/
def engCntClr (k : Nat) (d : Dev) : Dev :=
  [Reg.ENG_FIRE_CNT k, Reg.ENG_MX_BUSY k, Reg.ENG_STALL_WS k, Reg.ENG_STALL_IN k, Reg.ENG_STALL_CRED k,
    Reg.ENG_STALL_WAIT k].foldl (fun d r => wr r 0 d) d

end Sys2Proof.Machine
end

