-- ==== Sys2Proof/Machine/Load.lean ====
section
/-! DEFINITION. The load engine: manifests, placement, arrival, programming and read-back of shards, adjourn and resign, and
the digest patrol (spec 09). -/

namespace Sys2Proof.Machine

/-! ### Commands and long operations (R594, R600, R606) -/

/-- A command has been handed to its executor: it counts as outstanding until its final completion. -/
def cmdIn (h : CmdHdr) (d : Dev) : Dev :=
  { d with rings := { d.rings with outst := mupd d.rings.outst h.ring 0 (· + 1) } }

/-- RING_CMD_HEADn advances past the command that has been dispatched (R586). -/
def headPast (h : CmdHdr) (d : Dev) : Dev :=
  if gf d (Reg.RING_CMD_HEAD h.ring) F.RING_CMD_HEAD_INDEX = h.idx then
    sf (Reg.RING_CMD_HEAD h.ring) F.RING_CMD_HEAD_INDEX (h.idx + 1) d
  else d

/-- A long operation takes its handle. -/
def opOpen (h : CmdHdr) (st : OpState) (d : Dev) : Dev :=
  { d with rings := { d.rings with ops := mput d.rings.ops h.handle { hdr := h, state := st } } }

/-- Set the state of the long operation of a command. -/
def opState (h : CmdHdr) (st : OpState) (d : Dev) : Dev :=
  match mget d.rings.ops h.handle with
  | some e => if e.hdr = h then { d with rings := { d.rings with ops := mput d.rings.ops h.handle { e with state := st } } } else d
  | none => d

/-- The operation enters ADJOURNED: with PROGRESS set it writes one entry more, unless it never started (R604). -/
def opAdjourned (h : CmdHdr) (r0 r1 : Nat) (started : Bool) (d : Dev) : Dev :=
  let d := opState h .adjourned d
  if started && h.flags.testBit 2 then complete ⟨h, 0, 1, r0, r1, true⟩ d else d

/-- Hand a long operation to its executor unless its handle is in use (R600). -/
def longCmd (h : CmdHdr) (f : Dev → Dev) (d : Dev) : Dev :=
  let d := cmdIn h d
  if mhas d.rings.ops h.handle then finish h 0xCB 0 0 d else f d

/-! ### Keys (R767, R768) -/

/-- The fused hash of a key-hash slot. -/
def keyHash (d : Dev) (s : Nat) : List Byte :=
  match mget d.keys.hash s with
  | some h => h
  | none => (List.range 64).map (Config.keyHash s)

/-- Bits of a slot in KEY_SLOT_STAT: 0 PROGRAMMED, 1 REVOKED, 2 FW_OK, 3 DAMAGED. -/
def keyBit (d : Dev) (s b : Nat) : Bool := (rd d Reg.KEY_SLOT_STAT).getLsbD (4 * s + b)

/-- May a key sign: 0, or 4 not programmed, 5 revoked, 6 hash mismatch (R77, R408). -/
def keyCheck (d : Dev) (s : Nat) (pub : List Byte) : Nat :=
  if s > 3 ∨ keyBit d s 0 = false ∨ keyBit d s 3 = true then 4
  else if keyBit d s 1 then 5
  else if sha512 pub ≠ keyHash d s then 6
  else 0

/-! ### Manifests (R367 to R371) -/

def shardParse (b : List Byte) : ManShard :=
  { id := fieldAt b 0 2, kind := fieldAt b 2 1, engine := fieldAt b 3 1, flags := fieldAt b 4 1, srcKind := fieldAt b 5 1,
    len := fieldAt b 8 8, recOff := fieldAt b 0x10 8, src := fieldAt b 0x18 8, nsid := fieldAt b 0x20 4,
    ad := fieldAt b 0x24 2, digest := (b.drop 0x40).take 64 }

def adParse (b : List Byte) : ManAd :=
  ⟨fieldAt b 0 2, fieldAt b 2 2, fieldAt b 4 2, fieldAt b 6 2, fieldAt b 8 8⟩

/-- Bytes of a manifest's shard and adapter entries. -/
def manShard (m : List Byte) (i : Nat) : List Byte := (m.drop (0x100 + 128 * i)).take 128
def manAd (m : List Byte) (i : Nat) : List Byte := (m.drop (0x100 + 128 * fieldAt m 0x0C 2 + 32 * i)).take 32

def manParse (m : List Byte) : Manifest :=
  { flags := fieldAt m 6 2, keySlot := fieldAt m 0x10 1, mask := fieldAt m 0x12 2, base := (m.drop 0x20).take 64,
    pub := (m.drop 0x60).take 133,
    shards := (List.range (fieldAt m 0x0C 2)).map (fun i => shardParse (manShard m i)),
    ads := (List.range (fieldAt m 0x0E 2)).map (fun i => adParse (manAd m i)),
    digest := sha512 (m.take (m.length - 132)) }

/-- All bytes of a span are 0. -/
def zeros (b : List Byte) (o n : Nat) : Bool := ((b.drop o).take n).all (fun x => x == 0)

/-- Is a shard entry in range (R369)? -/
def shardFieldOk (set : Bool) (i : Nat) (b : List Byte) (ads : List ManAd) : Bool :=
  let s := shardParse b
  decide (s.id = i) && decide (s.kind = bit set) && (if set then s.engine == 0xFF else decide (s.engine < 16)) &&
  decide (s.flags < (if set then 1 else 4)) && decide (s.srcKind < 2) && zeros b 6 2 && decide (s.len % 16384 = 0) &&
  decide (16384 ≤ s.len) && decide (s.len ≤ 0x80000000) &&
  (if set then s.recOff == 0 else s.recOff % 16384 == 0 && decide (s.recOff < s.len)) &&
  (if s.srcKind = 0 then s.src % 32 == 0 && s.nsid == 0 else s.nsid != 0) &&
  (if set then
     match ads[s.ad]? with
     | some a => decide (a.first ≤ i) && decide (i < a.first + a.count)
     | none => false
   else s.ad == 0xFFFF) && zeros b 0x26 26

/-- Is every header, shard and adapter field of a manifest in range (R367 to R371)? -/
def manFieldOk (m : List Byte) : Bool :=
  let p := manParse m
  let set := p.flags.testBit 0
  let sc := fieldAt m 0x0C 2
  let ac := fieldAt m 0x0E 2
  decide (1 ≤ sc) && decide (sc ≤ 4096) && (if set then decide (1 ≤ ac) && decide (ac ≤ 1024) else ac == 0) && zeros m 0x11 1 &&
  zeros m 0xE5 27 && (if set then true else zeros m 0x20 64 && p.mask != 0) &&
  decide (p.mask = (List.range 16).foldl (fun x k => if p.shards.any (fun s => s.engine == k) then x + 2 ^ k else x) 0) &&
  (List.range sc).all (fun i => shardFieldOk set i (manShard m i) p.ads) &&
  (List.range ac).all (fun i =>
    let a := p.ads.getD i ⟨0, 0, 0, 0, 0⟩
    p.shards.all (fun s => !(decide (a.first ≤ s.id) && decide (s.id < a.first + a.count)) || s.ad == i) &&
    decide (a.id < 1024) && decide (1 ≤ a.rank) && decide (a.rank ≤ 256) && decide (1 ≤ a.count) &&
    decide (a.first + a.count ≤ sc) && zeros (manAd m i) 16 16 && !((p.ads.take i).any (fun x => x.id == a.id)))

/-- The side of a slot that an adapter manifest attaches to (R373): READY or LIVE with the digest. -/
def baseSide (d : Dev) (n : Nat) (base : List Byte) : Option Nat :=
  (List.range 2).find? (fun s => ((sideOf d n s).st == 2 || (sideOf d n s).st == 3) && (sideOf d n s).digest == base)

/-- Resident adapters of the device (R374). -/
def residentAds (d : Dev) : Nat := d.slots.slots.foldl (fun t p => t + p.2.k.ads.length + p.2.q.ads.length) 0

/-- The checks of R408 up to ADAPTER_LIMIT, in table order. -/
def manCheck (d : Dev) (r : LoadRun) (m : List Byte) : Nat :=
  let p := manParse m
  let set := p.flags.testBit 0
  if fieldAt m 8 4 ≠ 0x100 + 128 * fieldAt m 0x0C 2 + 32 * fieldAt m 0x0E 2 + 132 ∨ fieldAt m 8 4 ≠ r.len then 1
  else if fieldAt m 0 4 ≠ 0xB1C33A8D then 2
  else if fieldAt m 4 2 ≠ 0x0100 ∨ p.flags > 1 then 3
  else
    let k := keyCheck d p.keySlot p.pub
    if k ≠ 0 then k
    else if ecdsaOk p.pub p.digest (m.drop (m.length - 132)) = false then 7
    else if manFieldOk m = false then 8
    else if set then
      match baseSide d r.slot p.base with
      | none => 10
      | some s =>
        if p.ads.any (fun a => mhas (sideOf d r.slot s).ads a.id) then 8
        else if residentAds d + p.ads.length > 1024 then 11 else 0
    else if r.slot > 63 ∨ (sideOf d r.slot r.side).st ≠ 0 ∨ mhas d.slots.castles r.slot then 9
    else 0

/-! ### Sources (R384 to R386) -/

/-- Read `len` bytes of a fabric source as master LE, poison of any granule; none on a bus error. -/
def srcRead (a len : Nat) (d : Dev) : Option (List Byte × Bool) × Dev :=
  match masterRead 0x20 a len d with
  | (.ok bs p, d) => (some (bs, p), d)
  | (.err _, d) => (none, d)

/-- Entries of the NVMe queue pair (R385). -/
def nvmeDepth (d : Dev) : Nat := max 2 (gf d Reg.LE_NVME_CFG F.LE_NVME_CFG_DEPTH)

/-- Submit one NVMe Read of at most 128 KiB (R385) for the first range that waits, if the submission queue has room. -/
def nvmeSubmit (d : Dev) : Dev :=
  match d.le.nvq with
  | [] => d
  | r :: rest =>
    if nvmeDepth d ≤ d.le.nvOut + 1 then d
    else
      let sh := gf d Reg.LE_NVME_CFG F.LE_NVME_CFG_LBA_SHIFT
      let l := min 131072 r.len
      let e := leBytes 4 (0x02 + 65536 * d.le.cid) ++ leBytes 4 r.nsid ++ List.replicate 32 0 ++
        leBytes 8 r.lba ++ leBytes 4 (ceilDiv l (2 ^ sh) - 1) ++ List.replicate 12 0
      let d := (masterWrite 0x20 ((rd d Reg.LE_NVME_SQ).toNat + d.le.sqTail * 64) e false d).2
      let nvq := if r.len ≤ 131072 then rest else ⟨r.nsid, r.lba + 131072 / 2 ^ sh, r.len - 131072⟩ :: rest
      let d := { d with le := { d.le with sqTail := (d.le.sqTail + 1) % nvmeDepth d, cid := (d.le.cid + 1) % 65536,
                                          nvq := nvq, nvOut := d.le.nvOut + 1 } }
      (masterWrite 0x20 (rd d Reg.LE_NVME_SQDB).toNat (leBytes 4 d.le.sqTail) false d).2

/-- Submit what the queue has room for. -/
def nvmeFill (d : Dev) : Dev := forN (nvmeDepth d) (fun _ d => nvmeSubmit d) d

/-- Queue a source range for the NVMe controller. -/
def nvmeRead (nsid lba len : Nat) (d : Dev) : Dev := { d with le := { d.le with nvq := d.le.nvq ++ [⟨nsid, lba, len⟩] } }

/-- The load engine waits no more for what it has asked of the NVMe controller. -/
def nvmeDrop (d : Dev) : Dev := { d with le := { d.le with nvq := [], nvOld := d.le.nvOut } }

/-- NVMe loads need a queue pair that is set up (R385, LE_NVME_CFG). -/
def nvmeOk (d : Dev) : Bool :=
  gb d Reg.LE_NVME_CFG F.LE_NVME_CFG_VALID &&
  (gf d Reg.LE_NVME_CFG F.LE_NVME_CFG_LBA_SHIFT == 9 || gf d Reg.LE_NVME_CFG F.LE_NVME_CFG_LBA_SHIFT == 12)

/-! ### The running load -/

def setLe (l : Le) (d : Dev) : Dev := { d with le := l }
def setRun (r : LoadRun) (d : Dev) : Dev := setLe { d.le with run := some r } d

/-- Change one shard of the running load. -/
def shardUpd (i : Nat) (f : ShardRun → ShardRun) (d : Dev) : Dev :=
  match d.le.run with
  | none => d
  | some r => setRun { r with shards := mupd r.shards i ⟨[], [], none, false, false, false, [], 0, 0⟩ f } d

/-- Is the running load an adapter load? -/
def LoadRun.adapters (r : LoadRun) : Bool := r.man.any (fun m => m.flags.testBit 0)

/-- Bytes the load placed in DRAM (R396). -/
def dramBytes (r : LoadRun) : Nat :=
  r.shards.foldl (fun t s => t + s.2.exts.foldl (fun t e => if e.dram then t + 16384 * e.tiles else t) 0) 0 +
    r.objs.foldl (fun t a => t + 16384 * a.2.tiles) 0

def eligibleCount (r : LoadRun) : Nat := (r.shards.filter (fun s => s.2.eligible)).length

/-- LE_PROGRESS follows the load. -/
def leProgress (d : Dev) : Dev :=
  match d.le.run with
  | none => d
  | some r => d |> sf Reg.LE_PROGRESS F.LE_PROGRESS_ELIGIBLE (eligibleCount r)
      |> sf Reg.LE_PROGRESS F.LE_PROGRESS_ARRIVED_MB (r.bytes / 1048576)

/-- The load completes with a code (R408, R602). -/
def loadDone (code : Nat) (d : Dev) : Dev :=
  match d.le.run with
  | none => d
  | some r =>
    let dr := dramBytes r
    let err := if gb d Reg.LE_ERR F.LE_ERR_VALID then gf d Reg.LE_ERR F.LE_ERR_SHARD else 0
    let d := nvmeDrop (setLe { d.le with run := none } d)
    let d := sf Reg.LE_STAT F.LE_STAT_CODE code d |> raise 89
    let spill := if code = 0 ∧ dr > 0 ∧ r.adapters = false then 32 else 0
    complete ⟨r.h, code, spill, dr, err + eligibleCount r * 2 ^ 32, false⟩ d

/-- Return everything the load holds to the free pool (R404, R409). -/
def loadFree (d : Dev) : Dev :=
  match d.le.run with
  | none => d
  | some r =>
    let d := forEach r.objs (fun a d => adFree a.2 d) d
    if r.adapters || r.man.isNone then d
    else
      let other := r.shards.filterMap (fun p => p.2.shared)
      let d := setLe { d.le with exts := mmap d.le.exts (fun _ e =>
        if e.slot == r.slot && e.side == 1 - r.side && other.contains e.shard then { e with owners := 1 } else e) } d
      let gone := (d.le.exts.filter (fun e => e.2.slot == r.slot && e.2.side == r.side)).map Prod.snd
      let d := setLe { d.le with exts := d.le.exts.filter (fun e => !(e.2.slot == r.slot && e.2.side == r.side)) } d
      sideUpd r.slot r.side (fun _ => {}) d |> freeExts none true gone |> eraseKick

/-- The load fails with a code, naming a shard in LE_ERR if one failed (R409). -/
def loadFail (code : Nat) (shard : Option Nat) (d : Dev) : Dev :=
  let d := match shard with
    | some s => d |> sf Reg.LE_ERR F.LE_ERR_VALID 1 |> sf Reg.LE_ERR F.LE_ERR_SHARD s
    | none => d
  loadDone code (loadFree d)

/-- Start a load (R372): a manifest from NVMe is requested at once. -/
def loadStart (r : LoadRun) (d : Dev) : Dev :=
  let d := setRun r d |> opState r.h .running
  let d := d |> sf Reg.LE_STAT F.LE_STAT_SLOT r.slot |> sf Reg.LE_STAT F.LE_STAT_SIDE r.side |> wr Reg.LE_PROGRESS 0
  if r.kind = 1 then
    if nvmeOk d then nvmeFill (nvmeRead r.nsid r.addr r.len d) else loadDone 0x11 d
  else d

/-- A LOAD command (R372): it runs, or waits while another load runs, the engine is disabled, or the device is
not in RUN (R712, R716). -/
def xLoad (h : CmdHdr) (addr len slot side kind nsid : Nat) : Dev → Dev :=
  longCmd h (fun d =>
    let r : LoadRun := { h := h, kind := kind, addr := addr, nsid := nsid, len := len, slot := slot, side := side }
    let d := opOpen h .queued d
    if d.le.run.isNone && d.le.queue == [] && gb d Reg.LE_CTL F.LE_CTL_EN && pmuRun d then loadStart r d
    else setLe { d.le with queue := d.le.queue ++ [r] } d)

/-- A waiting load starts (R372); one adjourned while it waited is passed over (R607). -/
def xLoadNext (d : Dev) : Dev :=
  if d.le.run.isSome || !(gb d Reg.LE_CTL F.LE_CTL_EN) || !(pmuRun d) then d
  else
    match d.le.queue.find? (fun r => r.adj == 0) with
    | none => d
    | some r => loadStart r (setLe { d.le with queue := d.le.queue.erase r } d)

/-! ### Planning (R376 to R383) -/

/-- A verified shard of the other side that a shard can share (R382). -/
def shareWith (d : Dev) (n s : Nat) (m : ManShard) : Option Nat :=
  let o := sideOf d n (1 - s)
  if o.st = 2 ∨ o.st = 3 ∨ o.st = 4 then
    (o.shards.find? (fun x => x.digest == m.digest && x.engine == m.engine && x.len == m.len && !(mhas o.share x.id))).map
      (fun x => x.id)
  else none

/-- Plan every shard of a base side, sharing what can be shared or nothing. -/
def planShards (d : Dev) (n s : Nat) (share : Bool) (l : List ManShard) : Option (FMap ShardRun) :=
  (l.foldl (fun (acc : Option (FMap ShardRun × List Extent)) m =>
    acc.bind (fun a =>
      match if share then shareWith d n s m else none with
      | some t => some (mput a.1 m.id ⟨[], [], some t, false, false, true, [], 0, 0⟩, a.2)
      | none => (placeShard d a.2 (adapterSpans d) false n s m).map (fun p =>
          (mput a.1 m.id ⟨p.1, p.2, none, false, false, false, [], 0, 0⟩, a.2 ++ p.1)))) (some ([], extsNow d))).map Prod.fst

/-- The highest-numbered FREE object entry (log entry 31). -/
def freeObj (d : Dev) (taken : List Nat) : Option Nat :=
  (List.range 16384).findSome? (fun i => if mhas d.tm.objs (16383 - i) || taken.contains (16383 - i) then none else some (16383 - i))

/-- Plan the adapters of a manifest: one object each, its shards consecutive in the overflow area (R380). -/
def planAds (d : Dev) (m : Manifest) : Option (FMap AdVer × FMap TmObj) :=
  m.ads.foldl (fun (acc : Option (FMap AdVer × FMap TmObj)) a =>
    acc.bind (fun p =>
      let sh := m.shards.filter (fun s => decide (a.first ≤ s.id) && decide (s.id < a.first + a.count))
      let tiles := sh.foldl (fun t s => t + s.len / 16384) 0
      let spans := adapterSpans d ++ p.2.map (fun o => (o.2.back - dramBase, o.2.size))
      match dramFit d (extsNow d) spans tiles, freeObj d (p.2.map Prod.fst) with
      | some loc, some n =>
        some (mput p.1 a.id { obj := n, tiles := tiles, shards := sh, digest := [] },
              mput p.2 n { kind := 2, flags := 0, size := tiles, back := dramBase + loc })
      | _, _ => none)) (some ([], []))

/-- A side whose every shard is eligible becomes READY; adapters attach; the load completes (R375, R413). -/
def loadSettle (d : Dev) : Dev :=
  match d.le.run with
  | none => d
  | some r =>
    if r.man.isSome && r.shards.all (fun s => s.2.eligible) then
      match r.man with
      | none => d
      | some m =>
        let d :=
          if r.adapters then
            match baseSide d r.slot m.base with
            | some s => sideUpd r.slot s (fun x => { x with ads := r.objs.foldl (fun a o => mput a o.1 o.2) x.ads }) d
            | none => forEach r.objs (fun a d => adFree a.2 d) d
          else sideUpd r.slot r.side (fun x => { x with st := 2 }) d
        loadDone 0 d
    else d

/-- Shards of the running load that come from NVMe and have not arrived are read from their start (R384, R385, R403). -/
def shardsRead (which : Nat → Bool) (d : Dev) : Dev :=
  match d.le.run with
  | none => d
  | some r =>
    let l := (r.man.map (fun m => m.shards)).getD []
    nvmeFill (forEach (l.filter (fun m => m.srcKind == 1 && which m.id &&
      (mget r.shards m.id).any (fun s => !s.arrived && !s.eligible))) (fun m d => nvmeRead m.nsid m.src m.len d) d)

/-- The plan is complete: nothing was written before (R372). -/
def loadPlan (r : LoadRun) (m : Manifest) (d : Dev) : Dev :=
  if m.shards.any (fun s => s.srcKind == 1) && !(nvmeOk d) then loadDone 0x11 d
  else if m.flags.testBit 0 then
    match planAds d m with
    | none => loadDone 0x0C d
    | some (ads, objs) =>
      let d := { d with tm := { d.tm with objs := objs.foldl (fun t o => mput t o.1 o.2) d.tm.objs } }
      let shards := m.shards.foldl (fun t s => mput t s.id ⟨[], [], none, false, false, false, [], 0, 0⟩) []
      setRun { r with man := some m, shards := shards, objs := ads } d |> shardsRead (fun _ => true)
  else
    let plan := match planShards d r.slot r.side false m.shards with
      | some p => some p
      | none => planShards d r.slot r.side true m.shards
    match plan with
    | none => loadDone 0x0C d
    | some p =>
      let es := p.flatMap (fun s => s.2.exts)
      if d.le.exts.length + es.length > 16384 then loadDone 0x0D d
      else
        let share := p.foldl (fun t s => match s.2.shared with | some x => mput t s.1 x | none => t) []
        let d := sideUpd r.slot r.side (fun _ =>
          { st := 1, digest := m.digest, kind := r.kind, addr := r.addr, nsid := r.nsid, len := r.len, mask := m.mask,
            shards := m.shards, share := share }) d
        let d := extsAdd es d
        let d := setLe { d.le with exts := mmap d.le.exts (fun _ e =>
          if e.slot == r.slot && e.side == 1 - r.side && share.any (fun x => x.2 == e.shard) then { e with owners := 2 } else e) } d
        -- a taken quad waits for no background erase of a released side
        let taken := es.flatMap (extBlocks d)
        let d := setLe { d.le with erases := d.le.erases.filter (fun j => !(taken.contains (j.stack, j.block))) } d
        setRun { r with man := some m, shards := p } d |> shardsRead (fun _ => true) |> eraseSettle |> leProgress |> loadSettle

/-- The manifest has been read (R372, R375): it is checked and every shard's placement is planned. -/
def xManifest (d : Dev) : Dev :=
  match d.le.run with
  | none => d
  | some r =>
    if r.man.isSome || r.adj != 0 then d
    else
      let got := if r.kind = 1 then (some (r.nv.take r.len, false), d) else srcRead r.addr r.len d
      match got with
      | (none, d) => loadDone 0x0E d
      | (some (m, p), d) =>
        if m.length < r.len then d
        else if p then consumeRead 9 0x20 r.addr r.len d |> loadDone 0x0F
        else
          let c := manCheck d r m
          if c ≠ 0 then loadDone c d else loadPlan { r with nv := [] } (manParse m) d

/-! ### Programming (R387 to R390, R820) -/

/-- The pieces of extents, in shard order. -/
def extPieces (d : Dev) (es : List Extent) : List Piece :=
  es.flatMap (fun e =>
    if e.dram then []
    else (List.range (ceilDiv (16384 * e.tiles) unitBytes)).map (fun i =>
      let o := e.loc + i * unitBytes
      ⟨e.stack, o / 2 ^ 19 % 4 * aryQ d + o / 2 ^ 24 % 128, o / 2 ^ 21 % 8, 16384 * e.first + i * unitBytes,
        min unitBytes (16384 * e.tiles - i * unitBytes)⟩))

/-- The place of a unit in the order of R312. -/
def unitRank (u : Nat) : Nat := [0, 2, 1, 4, 3, 6, 5, 7].getD u 0

/-- The next piece of a shard for one plane group: its first block's lowest unit in program order. -/
def nextPiece (d : Dev) (k g : Nat) (ps : List Piece) : Option Piece :=
  let mine := ps.filter (fun p => p.stack == k && aryGroup d false p.block == g)
  match mine with
  | [] => none
  | p :: _ => (sortBy (fun q => unitRank q.unit) (mine.filter (fun q => q.block == p.block))).head?

/-- Place a shard again in other quads (R389, R394, R820); `code` fails the load when it cannot be. -/
def placeAgain (i code : Nat) (again reread : Bool) (d : Dev) : Dev :=
  match d.le.run with
  | none => d
  | some r =>
    let s := mgetD r.shards i ⟨[], [], none, false, false, false, [], 0, 0⟩
    if (again && decide (s.again ≥ 1)) || (reread && decide (s.reread ≥ 1)) then loadFail code (some i) d
    else
      match (r.man.bind (fun m => m.shards.find? (fun x => x.id == i))) with
      | none => d
      | some m =>
        if r.adapters then
          shardUpd i (fun s => { s with arrived := false, done := false, data := [], reread := s.reread + bit reread }) d
            |> shardsRead (· == i)
        else
          match placeShard d (extsNow d) (adapterSpans d) false r.slot r.side m with
          | none => loadFail code (some i) d
          | some (es, ps) =>
            let old := s.exts
            let d := extsDrop r.slot r.side i d |> extsAdd es |> freeExts none (!reread) old
            shardUpd i (fun s => { s with exts := es, pieces := ps, arrived := false, done := false, data := [],
                                          again := s.again + bit again, reread := s.reread + bit reread }) d
              |> shardsRead (· == i)

/-- Start the load engine's next operation in plane group `g` of stack `k`, if it has one and the group is free. The sequence
meets another master's partial sequence once at most (R388); a refusal other than BUSY places the shard again (R820). -/
def leStart (k g : Nat) (d : Dev) : Dev :=
  match d.le.run with
  | none => d
  | some r =>
    if r.adj != 0 || !(domOn d (32 + k)) then d
    else
      match r.shards.find? (fun s => s.2.arrived && !s.2.done && (nextPiece d k g s.2.pieces).isSome) with
      | none => d
      | some (i, s) =>
        match nextPiece d k g s.pieces with
        | none => d
        | some p =>
          let c := targetCheck d k false p.block p.unit true
          if c = 5 then d
          else
            let d := if (aryOf d k).seq.isSome then seqErr k d else d
            let total := (extPieces d s.exts).filter (fun q => q.block == p.block && q.stack == k)
            let left := s.pieces.filter (fun q => q.block == p.block && q.stack == k)
            let erase := decide (left.length = total.length) && !(blockErased d k p.block)
            let d := setLast k c (argSet k p.block (if erase then 0 else p.unit) d) |> sf (Reg.ARY_STAT k) F.ARY_STAT_MODE 0
            if c ≠ 0 then placeAgain i 0x15 true false d
            else
              if erase then
                opStart k { op := 1, index := p.block, page := 0, master := 0x20 } d
              else
                let bs := (s.data.drop p.off).take p.len
                let low := targetAt d k false p.block (p.unit - 1)
                if p.unit % 2 = 1 ∧ readsErased d low.1 low.2 then
                  opstatTarget k g 2 p.block p.unit d |> opOutcome k g 6 |> placeAgain i 0x15 true false
                else
                  let r := flipProgram k p.block p.unit d
                  opStart k { op := 2, index := p.block, page := p.unit, master := 0x20, errs := r.1,
                              data := ((List.range bs.length).zip bs).map (fun x => (x.1, x.2)) } r.2

/-- Start whatever the load engine and the arbiter's background erases can start. -/
def aryKick (d : Dev) : Dev :=
  let d := forN 64 (fun i d => leStart (i / 4) (i % 4) d) d
  eraseKick d

/-- Operations of the load engine and the arbiter, by stack × 8 + group. -/
def ownOps (d : Dev) : FMap AryOp :=
  d.arys.st.flatMap (fun s => (s.2.ops.filter (fun o => o.2.master == 0x20 || o.2.master == 8)).map
    (fun o => (s.1 * 8 + o.1, o.2)))

/-- RESULT1 of a load's progress entries (R604): shards and their MiB. -/
def loadTotals (r : LoadRun) : Nat :=
  match r.man with
  | none => 0
  | some m => m.shards.length * 2 ^ 32 + (m.shards.map (fun s => s.len)).sum / 1048576

/-- An adjourned load whose units have all ended is ADJOURNED (R402). -/
def loadAdjSettle (d : Dev) : Dev :=
  match d.le.run with
  | none => d
  | some r =>
    if r.adj != 0 && (mget d.rings.ops r.h.handle).any (fun e => e.hdr == r.h && e.state == .adjourning) &&
        !((ownOps d).any (fun o => o.2.master == 0x20)) then
      opAdjourned r.h (rd d Reg.LE_PROGRESS).toNat (loadTotals r) true d
    else d

/-- The shard whose piece an operation programs or whose block it erases. -/
def opShard (d : Dev) (k : Nat) (o : AryOp) : Option Nat :=
  match d.le.run with
  | none => none
  | some r => (r.shards.find? (fun s => s.2.pieces.any (fun p => p.stack == k && p.block == o.index))).map Prod.fst

/-- After a step that may have stopped operations (R336, R353): those of the load engine that are gone ended ABORTED (R820), and
those of the arbiter wait no more; then whatever can start starts. -/
def aryAfter (f : Dev → Dev) (d : Dev) : Dev :=
  let before := ownOps d
  let d := f d
  let d := forEach before (fun o d =>
    if (mget (aryOf d (o.1 / 8)).ops (o.1 % 8)).isSome then d
    else if o.2.master = 8 then eraseEnded (o.1 / 8) o.2.index d
    else
      match opShard d (o.1 / 8) o.2 with
      | some i => placeAgain i 0x15 true false d
      | none => d) d
  aryKick d |> loadAdjSettle

/-- A block that failed is retired, now if no extent covers it, else once it is freed (R389, R568). -/
def blockFailed (k b : Nat) (d : Dev) : Dev :=
  if (extsNow d).any (fun e => (extBlocks d e).contains (k, b)) then
    { d with arb := { d.arb with retire := d.arb.retire ++ [(k, b)] } }
  else if (wearOf d k false b).retired then d
  else
    let c := (wearOf d k false b).count
    eraseEnded k b d |> aryRetire k b |> scoreEvent 0x0023 2 k [b, c]

/-- An operation of plane group `g` ends (ARY_OP_DONE): its outcome, what the load engine does with it (R389, R390), the release
it may finish (R434), and the block's retirement after FAIL (R553, R568). -/
def xOpDone (k g us : Nat) (ok : Bool) (d : Dev) : Dev :=
  match mget (aryOf d k).ops g with
  | none => d
  | some o =>
    if !o.runs then d
    else
      let d := opDone k g us ok d
      let d :=
        if o.master = 0x20 then
          match opShard d k o with
          | none => if ok || g == 4 then d else blockFailed k o.index d
          | some i =>
            if ok then
              if o.op = 2 then
                let d := shardUpd i (fun s =>
                  let ps := s.pieces.filter (fun p => !(p.stack == k && p.block == o.index && p.unit == o.page))
                  { s with pieces := ps, done := decide (ps = []), data := if ps = [] then [] else s.data }) d
                d
              else d
            else placeAgain i 0x14 true false (blockFailed k o.index d)
        else
          let d := if o.master = 8 ∧ g ≠ 4 then eraseEnded k o.index d else d
          if ok || g == 4 then d else blockFailed k o.index d
      aryKick d |> loadAdjSettle

/-! ### Arrival and read-back (R384, R391 to R394) -/

/-- The adapter version and offset that an adapter shard of the running load fills. -/
def adapterPlace (r : LoadRun) (m : ManShard) : Option (AdVer × Nat) :=
  (r.objs.find? (fun a => a.2.shards.any (fun s => s.id == m.id))).map (fun a =>
    (a.2, (a.2.shards.takeWhile (fun s => s.id != m.id)).foldl (fun t s => t + s.len) 0))

/-- The shard entry of the running load. -/
def runShard (r : LoadRun) (i : Nat) : Option ManShard := r.man.bind (fun m => m.shards.find? (fun s => s.id == i))

/-- A shard's last source byte arrives (R391): its arrival digest is compared; a DRAM shard is written, one for the array is
programmed. -/
def xArrival (i : Nat) (d : Dev) : Dev :=
  match d.le.run with
  | none => d
  | some r =>
    match runShard r i, mget r.shards i with
    | some m, some s =>
      if s.arrived || s.eligible || r.adj != 0 then d
      else
        let got := if m.srcKind = 1 then (some (s.data.take m.len, false), d) else srcRead m.src m.len d
        match got with
        | (none, d) => loadFail 0x0E (some i) d
        | (some (bs, p), d) =>
          if bs.length < m.len then d
          else if p then consumeRead 9 0x20 m.src m.len d |> loadFail 0x0F (some i)
          else if sha512 bs ≠ m.digest then loadFail 0x12 (some i) d
          else
            let d := setRun { r with bytes := r.bytes + m.len } d
            let at_ := if r.adapters then (adapterPlace r m).bind (fun a => (tmObj d a.1.obj).map (fun o => o.back + a.2))
              else (s.exts.head?.filter (fun e => e.dram)).map extAddr
            let d :=
              match at_ with
              | some a =>
                match masterWrite 0x20 a bs false d with
                | (true, d) => shardUpd i (fun s => { s with arrived := true, done := true, data := [] }) d
                | (false, d) => loadFail 0x17 (some i) d
              | none => shardUpd i (fun s => { s with arrived := true, data := bs }) d
            leProgress d |> aryKick
    | _, _ => d

/-- The read-back digest of a programmed shard completes (R392 to R394). -/
def xReadback (i : Nat) (d : Dev) : Dev :=
  match d.le.run with
  | none => d
  | some r =>
    match runShard r i, mget r.shards i with
    | some m, some s =>
      if !s.done || s.eligible || r.adj != 0 then d
      else
        let place := (adapterPlace r m).bind (fun a => (tmObj d a.1.obj).map (fun o => o.back + a.2))
        let got :=
          if r.adapters then
            match place with
            | some a => srcRead a m.len d
            | none => (none, d)
          else extRead 0x20 s.exts m.len d
        let at_ := fun (d : Dev) => match place with
          | some a => poisonAt d a m.len
          | none => extPoisonAt d s.exts m.len
        match got with
        | (none, d) => loadFail 0x17 (some i) d
        | (some (bs, p), d) =>
          let d := if p then consume 9 0x20 0 0 (at_ d) d else d
          if p || sha512 bs != m.digest then placeAgain i 0x13 false true d |> aryKick
          else shardUpd i (fun s => { s with eligible := true }) d |> leProgress |> loadSettle
    | _, _ => d

/-- Is the load reading the source of its manifest (none) or of shard `i`? -/
def LoadRun.reads (r : LoadRun) (i : Option Nat) : Bool :=
  r.adj == 0 && (match r.man, i with
    | none, none => true
    | some _, some i => (mget r.shards i).any (fun s => !s.arrived && !s.eligible)
    | _, _ => false)

/-- A source read of the manifest, or of shard `i`, returned a bus error or arrived poisoned (R408). -/
def xSourceFault (i : Option Nat) (poison : Bool) (cause : Nat) (d : Dev) : Dev :=
  match d.le.run with
  | none => d
  | some r =>
    if !(r.reads i) then d
    else
      let a := match i.bind (runShard r) with | some m => (m.src, m.len) | none => (r.addr, r.len)
      let d := if poison then consumeRead 9 0x20 a.1 a.2 d else busError cause 0x20 false a.1 d
      let c := if poison then 0x0F else 0x0E
      match r.man with
      | none => loadDone c d
      | some _ => loadFail c i d

/-- No source data arrived for LE_TMO (R408). -/
def xSourceTimeout (i : Option Nat) (d : Dev) : Dev :=
  match d.le.run with
  | none => d
  | some r =>
    if !(r.reads i) then d
    else
      match r.man with
      | none => loadDone 0x10 d
      | some _ => loadFail 0x10 i d

/-- An NVMe completion for a read that is outstanding (R385): the completion head doorbell is written, an error status fails the load, data
joins what has arrived of the manifest or of shard `i`, and the next reads are submitted. One for a load that waits for it no more is
passed over. -/
def xNvme (status : Nat) (i : Option Nat) (data : List Byte) (d : Dev) : Dev :=
  if d.le.nvOut = 0 then d
  else
    let old := decide (0 < d.le.nvOld)
    let d := setLe { d.le with cqHead := (d.le.cqHead + 1) % nvmeDepth d, nvOut := d.le.nvOut - 1, nvOld := d.le.nvOld - 1 } d
    let d := (masterWrite 0x20 (rd d Reg.LE_NVME_CQDB).toNat (leBytes 4 d.le.cqHead) false d).2
    match d.le.run with
    | none => d
    | some r =>
      if old || !(r.reads i) then nvmeFill d
      else if status ≠ 0 then
        match r.man with
        | none => loadDone 0x11 d
        | some _ => loadFail 0x11 i d
      else
        nvmeFill (match i with
          | none => setRun { r with nv := r.nv ++ data } d
          | some i => shardUpd i (fun s => { s with data := s.data ++ data }) d)

/-! ### Adjourn, resume, resign (R402 to R404) -/

/-- Adjourn the running load: by a cleared EN (1) or an ADJOURN command (2). -/
def loadAdjourn (how : Nat) (d : Dev) : Dev :=
  match d.le.run with
  | none => d
  | some r =>
    if r.adj != 0 then d else nvmeDrop (setRun { r with adj := how } d) |> opState r.h .adjourning |> loadAdjSettle

/-- Resume the load (R402, R403): EN is 1, and every shard not yet eligible is loaded again from its start. -/
def loadResume (d : Dev) : Dev :=
  match d.le.run with
  | none => d
  | some r =>
    let d := setRun { r with adj := 0, nv := [], shards := mmap r.shards (fun _ s =>
      if s.eligible then s
      else { s with arrived := false, done := false, data := [], pieces := extPieces d s.exts }) } d |> opState r.h .running
      |> sf Reg.LE_CTL F.LE_CTL_EN 1
    if r.man.isSome then shardsRead (fun _ => true) d
    else if r.kind = 1 then nvmeFill (nvmeRead r.nsid r.addr r.len d)
    else d

/-- Resign the load (R404): code RESIGNED. -/
def loadResign (d : Dev) : Dev := loadDone 0x16 (loadFree d)

/-- LE_CTL.EN cleared (R402). -/
def xLeDisable (d : Dev) : Dev := sf Reg.LE_CTL F.LE_CTL_EN 0 d |> loadAdjourn 1

/-- LE_CTL.EN set (R402). -/
def xLeEnable (d : Dev) : Dev :=
  let d := sf Reg.LE_CTL F.LE_CTL_EN 1 d
  if d.le.run.any (fun r => r.adj == 1) then loadResume d else d

/-! ### Digest patrol (R399 to R401) -/

/-- A patrol lap starts (R399): every shard of READY and live sides and every resident adapter. -/
def xPatrolStart (d : Dev) : Dev :=
  if !(gb d Reg.LE_CTL F.LE_CTL_PATROL_EN) || d.le.lap.isSome then d
  else
    let l := (List.range 128).flatMap (fun i =>
      let s := sideOf d (i / 2) (i % 2)
      if s.st = 2 ∨ s.st = 3 then
        s.shards.map (fun m => (i / 2, i % 2, m.id, false)) ++ s.ads.map (fun a => (i / 2, i % 2, a.1, true))
      else [])
    setLe { d.le with lap := some ⟨aonTime d, l⟩ } d

/-- A patrol digest failed: counted, and the event raised (R401, R410). -/
def patrolBad (d : Dev) : Dev :=
  cntAdd Reg.LE_PATROL_CNT F.LE_PATROL_CNT_COUNT F.LE_PATROL_CNT_OVF 1 91 d |> raise 90

/-- Does the patrolled data at the head of a lap match its digest? Poison counts as a mismatch and is consumed. -/
def patrolCheck (n s i : Nat) (ad : Bool) (d : Dev) : Option Bool × Dev :=
  let x := sideOf d n s
  let fin := fun (got : Option (List Byte × Bool) × Dev) (at_ : Dev → Nat) (dig : List Byte) =>
    match got with
    | (none, d) => (none, d)
    | (some (bs, p), d) => (some (!p && sha512 bs == dig), if p then consume 9 8 0 0 (at_ d) d else d)
  if ad then
    match mget x.ads i with
    | none => (none, d)
    | some a =>
      match tmObj d a.obj with
      | none => (none, d)
      | some o =>
        if a.commit then fin (srcRead o.back (16384 * a.tiles) d) (fun d => poisonAt d o.back (16384 * a.tiles)) a.digest
        else
          let r := a.shards.foldl (fun (acc : Nat × Bool × Dev) m =>
            match fin (srcRead (o.back + acc.1) m.len acc.2.2) (fun d => poisonAt d (o.back + acc.1) m.len) m.digest with
            | (some b, d) => (acc.1 + m.len, acc.2.1 && b, d)
            | (none, d) => (acc.1 + m.len, acc.2.1, d)) (0, true, d)
          (some r.2.1, r.2.2)
  else
    match x.shards.find? (fun m => m.id == i) with
    | none => (none, d)
    | some m => fin (extRead 8 (shardExts d n s i) m.len d) (fun e => extPoisonAt e (shardExts d n s i) m.len) m.digest

/-- The next shard of the lap has been digested (R401); a lap that ends writes its duration (R400). A committed adapter that
fails is unavailable to new admissions (R508). -/
def xPatrolCheck (d : Dev) : Dev :=
  match d.le.lap with
  | none => d
  | some lap =>
    match lap.left with
    | [] => setLe { d.le with lap := none } d |> sf Reg.LE_PATROL_LAP F.LE_PATROL_LAP_SECONDS ((aonTime d - lap.start) / aonHz)
    | (n, s, i, ad) :: rest =>
      let d :=
        match patrolCheck n s i ad d with
        | (some false, d) =>
          let d := if ad then sideUpd n s (fun x => { x with ads := mmap x.ads (fun k a =>
              if k == i && a.commit then { a with unavail := true } else a) }) d else d
          patrolBad d
        | (_, d) => d
      let d := setLe { d.le with lap := some { lap with left := rest } } d
      if rest = [] then
        setLe { d.le with lap := none } d |> sf Reg.LE_PATROL_LAP F.LE_PATROL_LAP_SECONDS ((aonTime d - lap.start) / aonHz)
      else d

end Sys2Proof.Machine
end

