-- ==== Sys2Proof/Machine/Batch.lean ====
section
/-! DEFINITION. Batches (spec 03, 10, 14, 15): START commands and their checks, admission and binding, entry and exit data,
completion, sessions, and the held-batch table. -/

namespace Sys2Proof.Machine

/-! ### Pipelines and sessions -/

def pipeSt (d : Dev) (p : Nat) : Pipe := mgetD d.pipes p {}
def pipeUpd (p : Nat) (f : Pipe → Pipe) (d : Dev) : Dev := { d with pipes := mupd d.pipes p {} f }

/-- Change a batch of a pipeline. -/
def batchUpd (p seq : Nat) (f : Batch → Batch) (d : Dev) : Dev :=
  pipeUpd p (fun x => { x with batches := x.batches.map (fun b => if b.seq = seq then f b else b) }) d

def setSessions (m : FMap Session) (d : Dev) : Dev := { d with slots := { d.slots with sessions := m } }

/-- The model slot of a pipeline, if it has one (R68). -/
def pipeSlot (d : Dev) (p : Nat) : Option Nat :=
  match pipeOf d p with
  | some c => if c.slot < 64 then some c.slot else none
  | none => none

/-- The side that a batch of a session would bind to (R416), and whether the session binds anew. -/
def bindSide (d : Dev) (slot session : Nat) : Option (Nat × Bool) :=
  match (if session = 0 then none else mget d.slots.sessions (sessKey slot session)) with
  | some x =>
    match x.side with
    | some s => some (s, false)
    | none => (liveSide d slot).map (fun s => (s, true))
  | none => (liveSide d slot).map (fun s => (s, false))

/-! ### Checks of a START (R596, R600, R605) -/

/-- Is a START payload out of range (R594, R596, R600)? Lengths of unused entry routes count when the pipeline is known. -/
def startFieldBad (d : Dev) (h : CmdHdr) (p : StartP) : Bool :=
  let unused := match pipeOf d p.pipe with
    | some c => (List.range 4).any (fun i => c.entry.getD i 0xFFFF == 0xFFFF && p.entryLen.getD i 0 != 0)
    | none => false
  h.handle != 0 || decide (h.flags > 7) || decide (p.pipe > 63) || decide (p.sflags > 1) || (decide (p.adapter > 1023) && p.adapter != 0xFFFF) ||
  p.entryAddr % 32 != 0 || decide (p.entryAddr ≥ 2 ^ 53) || p.entryLen.any (fun l => l % 32 != 0) ||
  p.exitAddr % 32 != 0 || decide (p.exitAddr ≥ 2 ^ 53) || p.exitLen % 32 != 0 || unused

/-- The checks of R605 from CMD_FIELD to SESSION_FULL: 0, or the code of the first that fails. -/
def startCheck (d : Dev) (h : CmdHdr) (p : StartP) : Nat :=
  if startFieldBad d h p then 0xC2
  else
    match (if (activeSlot d).isSome then pipeOf d p.pipe else none) with
    | none => 0xC3
    | some c =>
      if p.seqs = 0 ∨ p.seqs > c.maxBatch then 0xC4
      else
        let bind := if c.slot < 64 then bindSide d c.slot p.session else none
        let adOk := p.adapter == 0xFFFF || (match bind with
          | some (s, _) => match mget (sideOf d c.slot s).ads p.adapter with
            | some a => !a.unavail
            | none => false
          | none => false)
        if c.slot < 64 && bind.isNone then 0xC5
        else if c.slot < 64 && slotUnavail d c.slot then 0xC6
        else if (pipeSt d p.pipe).unavail.isSome then 0xD3
        else if !adOk then 0xC8
        else if c.slot < 64 && p.session != 0 && !(mhas d.slots.sessions (sessKey c.slot p.session)) &&
            decide (d.slots.sessions.length ≥ 4096) then 0xC7
        else 0

/-- Completions of a pipeline's batches that are not written yet (R593). -/
def heldCpls (d : Dev) (p : Nat) : Nat :=
  (d.rings.held.map (fun r => (r.2.filter (fun c => c.hdr.opcode == 1 && c.hdr.pipe == p)).length)).sum

/-- Does a pipeline admit, and has it room (R113, R85 step 1, R104, R560, R160, R722)? -/
def canAdmit (d : Dev) (p : Nat) : Bool :=
  pmuRun d && (activeSlot d).isSome && d.img.act.isNone && !d.rings.admStop && !(pipeSt d p).relocStop &&
  (match pipeSlot d p with | some n => !(mslot d n).stop | none => true) &&
  decide ((pipeSt d p).batches.length + heldCpls d p < 16)

/-! ### Admission (R113 to R118, R416, R597, R598) -/

/-- Read one 32-byte item of entry data as the ring controller. -/
def entryItem (a : Nat) (last : Bool) (d : Dev) : Option Item × Dev :=
  match masterRead 0x23 a 32 d with
  | (.ok bs p, d) => (some { data := bs, fin := last, empty := false, poison := p }, d)
  | (.err _, d) => (none, d)

/-- Items `i … n - 1` of a route's entry data: after a failed read the rest are poisoned (R598). Answers the items and whether a
read failed. -/
def entryItems (a n : Nat) : Nat → Nat → Bool → Dev → (List Item × Bool) × Dev
  | 0, _, bad, d => (([], bad), d)
  | fuel + 1, i, bad, d =>
    let fin := i + 1 == n
    if bad then
      let r := entryItems a n fuel (i + 1) true d
      (({ data := List.replicate 32 0, fin := fin, empty := false, poison := true } :: r.1.1, true), r.2)
    else
      match entryItem (a + 32 * i) fin d with
      | (some it, d) =>
        let r := entryItems a n fuel (i + 1) false d
        ((it :: r.1.1, r.1.2), r.2)
      | (none, d) =>
        let r := entryItems a n fuel (i + 1) true d
        (({ data := List.replicate 32 0, fin := fin, empty := false, poison := true } :: r.1.1, true), r.2)

/-- Write a batch's entry data into its pipeline (R597, R598): it becomes the pipeline's next flow. -/
def entryWrite (p : Nat) (seq : Nat) (st : StartP) (d : Dev) : Dev :=
  match pipeOf d p with
  | none => d
  | some c =>
    let pp := pipeSt d p
    let flow := pp.nextFlow
    let d := pipeUpd p (fun x => { x with flow := mput x.flow flow seq, nextFlow := flow + 1 }) d
    let d := batchUpd p seq (fun b => { b with flow := flow, exit := 0, exitOver := false, poisoned := false, ended := false }) d
    let r := (List.range 4).foldl (fun (acc : (Nat × Bool) × Dev) i =>
      let rt := c.entry.getD i 0xFFFF
      if rt = 0xFFFF then acc
      else
        let len := st.entryLen.getD i 0
        if len = 0 then
          (acc.1, fifoSend rt [{ data := List.replicate 32 0, fin := true, empty := true, poison := false }] acc.2)
        else
          let q := entryItems (st.entryAddr + acc.1.1) (len / 32) (len / 32) 0 false acc.2
          ((acc.1.1 + len, acc.1.2 || q.1.2), fifoSend rt q.1.1 q.2)) ((0, false), d)
    if r.1.2 then cntAdd Reg.RING_ENTRY_ERR F.RING_ENTRY_ERR_COUNT F.RING_ENTRY_ERR_OVF 1 114 r.2 else r.2

/-- Is a batch bound to a slot in flight? -/
def slotBusy (d : Dev) (n : Nat) : Bool := d.pipes.any (fun p => p.2.batches.any (fun b => b.slot == n))

/-- A side switches to the migrated copy of a shard, whose old place is freed (R162, R560). -/
def copyTake (c : ShardCopy) (d : Dev) : Dev :=
  let old := shardExts d c.slot c.side c.shard
  let owners := ((old.head?).map Extent.owners).getD 1
  extsDrop c.slot c.side c.shard d |> extsAdd (c.exts.map (fun e => { e with owners := owners })) |> freeExts none true old |> aryKick

/-- At an admission to a slot without a batch in flight, its migrated copies take over, so that no batch reads both (R162): run-ahead tiles
of the old copies are dropped (log entry 89). -/
def copiesTake (n : Nat) (d : Dev) : Dev :=
  let l := d.arb.moves.filter (fun c => c.slot == n)
  if l.isEmpty || slotBusy d n then d
  else
    let d := { d with arb := { d.arb with moves := d.arb.moves.filter (fun c => c.slot != n) } }
    let d := forEach l copyTake d
    ((allStages (activeCfg d)).filter (fun p => p.2.wsrc == n)).foldl (fun d p => wsDrop (hostOf d p.1 p.2.id) (stKey p.1 p.2.id) d) d

/-- Enter a batch in the pipeline's context table, bind it and its session, and write its entry data. -/
def admitBatch (p : Nat) (st : StartP) (src : BatchSrc) (d : Dev) : Dev :=
  let slot := (pipeSlot d p).getD 0xFF
  let d := copiesTake slot d
  let bind := if slot < 64 then bindSide d slot st.session else none
  let side := (bind.map Prod.fst).getD 0
  let reb := (bind.map Prod.snd).getD false
  let ad := if st.adapter = 0xFFFF then none else (mget (sideOf d slot side).ads st.adapter).map AdVer.obj
  let seq := (pipeSt d p).nextSeq
  let b : Batch :=
    { seq := seq, seqs := st.seqs, session := st.session, side := side, slot := slot, adapter := st.adapter, time := fastTime d,
      src := src, start := st, flow := 0, flags := if reb then 2 else 0, adObj := ad }
  let d := if slot < 64 && st.session != 0 then
      setSessions (mupd d.slots.sessions (sessKey slot st.session) { side := some side } (fun x => { x with side := some side })) d
    else d
  pipeUpd p (fun x => { x with batches := x.batches ++ [b], nextSeq := (seq + 1) % 65536 }) d |> entryWrite p seq st

/-- A START command (R596, R605): refused with its code, or waiting for its admission. -/
def startCmd (h : CmdHdr) (p : StartP) (d : Dev) : Dev :=
  let h := { h with pipe := p.pipe }
  let d := cmdIn h d
  let c := startCheck d h p
  if c = 0 then
    let wt := mput d.rings.waiting h.ring (h, p)
    let od := d.rings.order.filter (fun r => r != h.ring) ++ [h.ring]
    let d := { d with rings := { d.rings with waiting := wt, order := od } }
    if canAdmit d p.pipe then d else sf (Reg.RING_STAT h.ring) F.RING_STAT_WAIT_ADMIT 1 d
  else
    let d := if c = 0xC7 then sf Reg.ARB_SESSIONS F.ARB_SESSIONS_FULL_SEEN 1 d else d
    finish h c 0 0 (headPast h d)

/-- Does a START of the same pipeline wait that was read before that of ring `n` (R117)? -/
def startBehind (d : Dev) (n p : Nat) : Bool :=
  (d.rings.order.takeWhile (fun r => r != n)).any (fun r => (mget d.rings.waiting r).any (fun w => w.2.pipe == p))

/-- The waiting START of a ring is admitted once its pipeline admits and has room (R113), those read before it first (R117); checks that no
longer hold complete it with their code. -/
def admitRing (n : Nat) (d : Dev) : Dev :=
  match mget d.rings.waiting n with
  | none => d
  | some (h, p) =>
    let drop := fun (d : Dev) =>
      headPast h <| sf (Reg.RING_STAT n) F.RING_STAT_WAIT_ADMIT 0
        { d with rings := { d.rings with waiting := mdel d.rings.waiting n, order := d.rings.order.filter (fun r => r != n) } }
    let c := startCheck d h p
    if c ≠ 0 then
      let d := if c = 0xC7 then sf Reg.ARB_SESSIONS F.ARB_SESSIONS_FULL_SEEN 1 d else d
      finish h c 0 0 (drop d)
    else if canAdmit d p.pipe && !(startBehind d n p.pipe) then admitBatch p.pipe p (.start h) (drop d)
    else d

/-! ### Exit data (R123, R496, R541, R599) -/

/-- An item reaches the COMPLETE endpoint of pipeline `p`: its data goes to the batch's exit buffer; one that no batch awaits is
dropped. -/
def exitItem (p : Nat) (it : Item) (d : Dev) : Dev :=
  let pp := pipeSt d p
  match mget pp.flow pp.exitFlow with
  | none => d
  | some seq =>
    let b := pp.batches.find? (fun b => b.flow == pp.exitFlow)
    let d := if it.fin then
        pipeUpd p (fun x => { x with exitFlow := x.exitFlow + 1, flow := mdel x.flow x.exitFlow }) d else d
    match b with
    | none => d
    | some b =>
      let discard := match b.src with
        | .start _ => false
        | .refresh => true
        | .train _ => b.start.exitAddr == 0
      let d :=
        if it.empty || discard then d
        else if b.exit + 32 ≤ b.start.exitLen then
          let d := (masterWrite 0x23 (b.start.exitAddr + b.exit) it.data it.poison d).2
          batchUpd p seq (fun b => { b with exit := b.exit + 32 }) d
        else batchUpd p seq (fun b => { b with exitOver := true }) d
      batchUpd p seq (fun b => { b with poisoned := b.poisoned || it.poison, ended := b.ended || it.fin }) d

/-! ### Sessions (R414) -/

/-- Has a session admitted batches? -/
def sessBusy (d : Dev) (slot s : Nat) : Bool :=
  d.pipes.any (fun p => p.2.batches.any (fun b => b.slot == slot && b.session == s))

/-- Close a session: waiting closes complete, its side may retire. -/
def sessClose (slot s : Nat) (d : Dev) : Dev :=
  match mget d.slots.sessions (sessKey slot s) with
  | none => d
  | some x =>
    let d := setSessions (mdel d.slots.sessions (sessKey slot s)) d
    x.close.foldl (fun d h => finish h 0 0 0 d) d |> retireChecks slot

/-- A SESSION_CLOSE command (R414, R605). -/
def sessionCloseCmd (h : CmdHdr) (slot s : Nat) (d : Dev) : Dev :=
  let d := cmdIn h d
  if h.handle ≠ 0 ∨ h.flags > 7 then finish h 0xC2 0 0 d
  else
    match mget d.slots.sessions (sessKey slot s) with
    | none => finish h 0xD0 0 0 d
    | some _ =>
      let d := setSessions (mupd d.slots.sessions (sessKey slot s) { side := none } (fun x => { x with close := x.close ++ [h] })) d
      if sessBusy d slot s then d else sessClose slot s d

/-! ### Holding and completing (R117, R541, R555, R602) -/

/-- Put a batch into the held-batch table at the lowest free entry (R554). -/
def holdEnter (e : HeldB) (d : Dev) : Dev :=
  match findBelow 1024 (fun i => !(mhas d.arb.held i)) with
  | some i => { d with arb := { d.arb with held := mput d.arb.held i e } } |> raise 102
  | none => d

/-- The held-batch entry of a batch. -/
def heldOf (d : Dev) (p seq : Nat) : Option (Nat × HeldB) := d.arb.held.find? (fun x => x.2.pipe == p && x.2.seq == seq)

def heldDrop (p seq : Nat) (d : Dev) : Dev :=
  { d with arb := { d.arb with held := d.arb.held.filter (fun x => !(x.2.pipe == p && x.2.seq == seq)) } }

/-- A batch whose exit items carried poison is held (R541, R555, R558): a batch held before that was being replayed is held
again. -/
def batchHold (p : Nat) (b : Batch) (d : Dev) : Dev :=
  let d := consume 6 0x23 b.seq p 0 (batchUpd p b.seq (fun b => { b with held := true }) d)
  match heldOf d p b.seq with
  | some (i, e) =>
    let m := gf d Reg.ARB_RECOV_CTL F.ARB_RECOV_CTL_REPLAY_MAX
    let e := { e with replaying := false, classified := false, time := fastTime d }
    let e := if e.replays ≥ m then { e with reason := 4, detail := 0, classified := true } else e
    { d with arb := { d.arb with held := mput d.arb.held i e } }
  | none => holdEnter { pipe := p, seq := b.seq, reason := 2, time := fastTime d } d

/-- Does a batch use a version of a committed adapter that failed, so that no batch may read it (R508)? -/
def adapterGone (d : Dev) (b : Batch) : Bool :=
  b.adObj.any (fun n => ((sideOf d b.slot b.side).ads.map Prod.snd ++ (sideOf d b.slot b.side).old).any (fun v =>
    v.obj == n && v.commit && v.unavail))

/-- The batch leaves its pipeline: a session that it ends closes, closes that waited complete, references and adapter versions
that only it held go (R414, R425, R506). -/
def batchLeave (p : Nat) (b : Batch) (d : Dev) : Dev :=
  let d := pipeUpd p (fun x => { x with batches := x.batches.filter (fun y => y.seq != b.seq) }) d |> heldDrop p b.seq
  if b.slot < 64 then
    let d := if b.session = 0 then d
      else
        match mget d.slots.sessions (sessKey b.slot b.session) with
        | none => d
        | some x =>
          let fin := x.ended || b.start.sflags % 2 == 1
          let d := setSessions (mput d.slots.sessions (sessKey b.slot b.session) { x with ended := fin }) d
          if b.start.sflags % 2 = 1 || (!(sessBusy d b.slot b.session) && !x.close.isEmpty) then sessClose b.slot b.session d
          else d
    oldAdapters b.slot b.side d |> retireChecks b.slot
  else d

/-- The completion of a START's batch (R599, R602). -/
def batchCpl (h : CmdHdr) (b : Batch) (status : Nat) (d : Dev) : Dev :=
  complete ⟨h, status, b.flags, b.seq + 65536 * b.side + 2 ^ 32 * b.exit, b.time, false⟩ d

end Sys2Proof.Machine
end

