-- ==== Sys2Proof/Machine/ImgCheck.lean ====
section
/-! DEFINITION. The checks of a fabric image (spec 02, R55 to R72, R77, R99, R100, R138, R182, R245, R502, R674, R816) and the
choice of hosts for the stages of lost engines (R79, R158, R159). -/

namespace Sys2Proof.Machine

/-! ### Checks with the byte they concern -/

/-- A check: the offset of the byte it concerns, and whether it holds. -/
abbrev Chk := Nat × Bool

/-- The lowest offset of a check that fails (R77). -/
def firstBad (l : List Chk) : Option Nat :=
  l.foldl (fun m c => if c.2 then m else match m with | some o => some (min o c.1) | none => some c.1) none

/-- Checks moved to offset `o`. -/
def chkAt (o : Nat) (l : List Chk) : List Chk := l.map (fun c => (o + c.1, c.2))

/-- A span of reserved bytes, byte by byte. -/
def chkZero (b : List Byte) (o n : Nat) : List Chk :=
  (List.range n).map (fun i => (o + i, decide (fieldAt b (o + i) 1 = 0)))

/-- The first index of each key that stood earlier in the list. -/
def dupChk (keys : List Nat) (o size : Nat) : List Chk :=
  keys.zipIdx.map (fun (p : Nat × Nat) => (o + size * p.2, !((keys.take p.2).contains p.1)))

/-! ### Header and directory (R55 to R57, R77) -/

/-- An error code with the offset of the first failing byte. -/
abbrev ImgErr := Option (Nat × Nat)

/-- The checks of pass 1 up to the key, on the image's bytes: SIZE, MAGIC, VERSION, KEY_SLOT, KEY_REVOKED, KEY_HASH. -/
def hdrCheck (d : Dev) (len : Nat) (m : List Byte) : ImgErr :=
  let k := keyCheck d (fieldAt m 0x12 1) ((m.drop 0x60).take 133)
  if fieldAt m 0x0C 4 ≠ len ∨ len < 0x220 ∨ len > 0x1000000 ∨ len % 4 ≠ 0 then some (0x01, 0x0C)
  else if fieldAt m 0 4 ≠ 0xB1C3F0A7 then some (0x02, 0)
  else if fieldAt m 4 2 ≠ 0x0100 then some (0x03, 4)
  else if fieldAt m 6 2 > 3 then some (0x03, 6)
  else if k = 6 then some (0x06, 0x60)
  else if k ≠ 0 then some (k, 0x12)
  else none

/-- The epoch check (EPOCH_OLD): not 0, not below the floor, and above the active epoch while an image is active. -/
def epochOk (d : Dev) (e : Nat) : Bool :=
  e != 0 && decide (gf d Reg.IMG_EPOCH_MIN F.IMG_EPOCH_MIN_FLOOR ≤ e) &&
    ((activeSlot d).isNone || decide (activeEpoch d < e))

/-- A directory entry (R56). -/
structure DirEnt where
  type : Nat
  eng : Nat
  rsv : Nat
  off : Nat
  len : Nat
  count : Nat
deriving DecidableEq, Repr

def dirParse (m : List Byte) : List DirEnt :=
  (List.range (fieldAt m 0x10 2)).map (fun i =>
    let o := fieldAt m 0x18 4 + 16 * i
    ⟨fieldAt m o 2, fieldAt m (o + 2) 1, fieldAt m (o + 3) 1, fieldAt m (o + 4) 4, fieldAt m (o + 8) 4, fieldAt m (o + 12) 4⟩)

def dirKnown (t : Nat) : Bool := decide (1 ≤ t) && decide (t ≤ 8)

/-- DIR: header reserved fields, ENGINE_MASK, BASE_DIGEST, and the placement of the directory and sections. -/
def dirCheck (len : Nat) (m : List Byte) : ImgErr :=
  let o := fieldAt m 0x18 4
  let n := fieldAt m 0x10 2
  let es := dirParse m
  let head : List Chk := chkZero m 0x13 1 ++ [(0x14, fieldAt m 0x14 2 != 0)] ++ chkZero m 0x16 2 ++
    [(0x10, decide (1 ≤ n) && decide (n ≤ 64)), (0x18, decide (0x100 ≤ o) && o % 64 == 0 && decide (o + 16 * n ≤ len - 132))] ++
    chkZero m 0x1C 4 ++ (if (fieldAt m 6 2).testBit 0 then [] else chkZero m 0x20 64) ++ chkZero m 0xE5 27
  let ent := fun (p : DirEnt × Nat) =>
    let e := p.1
    let other := (es.take p.2).any (fun x => decide (x.off < e.off + e.len) && decide (e.off < x.off + x.len))
    let twice := (es.take p.2).any (fun x => x.type == e.type && x.eng == e.eng)
    let sz := secSize e.type
    chkAt (o + 16 * p.2)
      [(0, !twice),
       (2, if dirKnown e.type then (if secPerEngine e.type then decide (e.eng < 16) else e.eng == 0xFF)
           else decide (e.eng < 16) || e.eng == 0xFF),
       (3, e.rsv == 0),
       (4, e.off % 64 == 0 && decide (o + 16 * n ≤ e.off) && decide (e.off + e.len ≤ len - 132) && !other),
       (8, if sz = 0 then true else e.len == e.count * sz),
       (12, if e.type = 7 ∨ e.type = 8 then e.count == 0
            else if e.type = 6 then e.count == 1 else if sz = 0 then true else decide (e.count ≤ secMax e.type))]
  match firstBad (head ++ es.zipIdx.flatMap ent) with
  | some x => some (0x09, x)
  | none => none

/-! ### Sections of a configuration -/

/-- What a check of a configuration works on: its sections, ENGINE_MASK, CONST lengths by engine, where each carried section
stands in the image, and the directory entry of each. -/
structure CfgIn where
  sects : FMap Sect
  mask : Nat
  consts : FMap Nat
  offs : FMap Nat
  dirs : FMap Nat
  compat : Bool := false
deriving DecidableEq, Repr

def CfgIn.cfg (c : CfgIn) : ImgSlot := { sects := c.sects, mask := c.mask }
/-- Where a section stands in the image; a field of a section that a partial image does not carry is counted from offset 0 (log entry
117). -/
def CfgIn.at (c : CfgIn) (t e : Nat) : Nat := mgetD c.offs (secKey t e) 0
def CfgIn.engines (c : CfgIn) : List Nat := (List.range 16).filter (fun k => c.mask.testBit k)

/-- SECTION_TYPE for a native image: known types, engines of the mask, and every section that R58 requires; a missing one is reported at the
directory's offset, as it has no byte of its own (log entry 117). -/
def typeCheck (c : CfgIn) (es : List DirEnt) (dirOff : Nat) : ImgErr :=
  let unknown := firstBad (es.zipIdx.map (fun (p : DirEnt × Nat) =>
    (dirOff + 16 * p.2, dirKnown p.1.type && (!(secPerEngine p.1.type) || c.mask.testBit p.1.eng) &&
      (c.compat || p.1.type != 8))))
  let stray := c.sects.any (fun s => decide (s.1 % 256 < 16) && !(c.mask.testBit (s.1 % 256))) ||
    c.consts.any (fun s => !(c.mask.testBit s.1))
  let need := mhas c.sects (secKey secRoutes 0xFF) && mhas c.sects (secKey secPipes 0xFF) &&
    c.engines.all (fun k => mhas c.sects (secKey secEngine k) && mhas c.sects (secKey secStages k))
  match unknown with
  | some x => some (0x0A, x)
  | none => if stray || !(c.compat || need) then some (0x0A, dirOff) else none

/-- May an endpoint produce, or consume (R61, R62)? -/
def epRange (e : Nat) : Bool :=
  match epKind e with
  | 0 | 1 => decide (epPort e < 8)
  | 2 => epInst e == 0 && decide (epPort e < 32)
  | 3 | 4 => decide (epInst e < 4) && decide (epPort e < 16)
  | 5 => decide (epInst e < 7) && epPort e == 0
  | 6 | 7 => epInst e == 0 && decide (epPort e < 64)
  | _ => false
def epProduces (e : Nat) : Bool := epRange e && (epKind e == 0 || epKind e == 2 || epKind e == 4 || epKind e == 5 || epKind e == 6)
def epConsumes (e : Nat) : Bool := epRange e && (epKind e == 1 || epKind e == 2 || epKind e == 3 || epKind e == 7)

/-- The consumer endpoints of a route. -/
def routeDsts (r : Route) : List Nat :=
  if r.mask = 0 then [r.dst]
  else ((List.range 16).filter (fun k => r.mask.testBit k)).map (fun k => epMk 1 k (epPort r.dst))

/-- One route entry (R60, R61, R182, R100). -/
def routeChk (compat : Bool) (b : List Byte) : List Chk :=
  let r := routeParse b
  let dp := 32 * r.seg
  let cut := r.mode.testBit 0
  [(0, decide (r.id < 1024)), (2, epProduces r.src), (4, epConsumes r.dst), (6, r.mask == 0 || epKind r.dst == 1),
   (8, decide (1 ≤ r.seg) && decide (r.seg ≤ 16)),
   (9, decide (r.mode < 8) && (!(r.mode.testBit 1) || epKind r.dst == 1) && r.mode.testBit 2 == compat),
   (10, decide (r.pin ≤ 8))] ++ chkZero b 11 1 ++
  [(12, if cut then decide (1 ≤ r.thresh) && decide (r.thresh ≤ dp) else r.thresh == 0),
   (14, decide (1 ≤ r.hi) && decide (r.hi ≤ dp)), (16, decide (r.lo < r.hi))] ++ chkZero b 18 6

/-- ROUTE_FIELD and ROUTE_CONFLICT. -/
def routesCheck (c : CfgIn) : ImgErr :=
  let bs := secEntries c.sects secRoutes 0xFF
  let rs := bs.map routeParse
  let o := c.at secRoutes 0xFF
  match firstBad (bs.zipIdx.flatMap (fun (p : List Byte × Nat) => chkAt (o + 24 * p.2) (routeChk c.compat p.1)) ++
      dupChk (rs.map Route.id) o 24) with
  | some x => some (0x0B, x)
  | none =>
    let clash := rs.zipIdx.map (fun (p : Route × Nat) =>
      let prev := rs.take p.2
      let ds := prev.flatMap routeDsts
      (o + 24 * p.2, !(prev.any (fun q => q.src == p.1.src)) && !((routeDsts p.1).any (fun e => ds.contains e)) &&
        decide ((rs.take (p.2 + 1)).foldl (fun t r => t + r.seg) 0 ≤ 2048)))
    match firstBad clash with
    | some x => some (0x0C, x)
    | none => none

/-! ### Stages (R63 to R67, R138, R246, R816) -/

/-- The route that a stage's input or output port is bound to. -/
def cfgIn (rs : List Route) (k p : Nat) : Option Route := rs.find? (fun r => (routeDsts r).contains (epMk 1 k p))
def cfgOut (rs : List Route) (k p : Nat) : Option Route := rs.find? (fun r => r.src == epMk 0 k p)

/-- An address generator of a valid stage. -/
def agChk (b : List Byte) (wsrc : Nat) : List Chk :=
  let a := agParse b
  let used := a.use != 0
  (if used then [(24, decide (32 ≤ a.len) && decide (a.len ≤ 16384) && a.len % 32 == 0)] else []) ++
  [(28, decide (fieldAt b 28 1 ≤ 4) && (a.use != 1 || wsrc != 0xFF))] ++ chkZero b 29 3

/-- The OBJ of a used WAIT or SIGNAL (R65). -/
def objOk (o : Nat) : Bool := decide (o < 2 ^ 29) && (o.testBit 28 || objDev o == 0)

/-- A stage of more than one pass can read its row again (R138): by rewinding the route of its row, whose depth the row of a QZ entry must
not exceed, or by reissuing the USE 2 generator over it. -/
def passOk (rs : List Route) (k : Nat) (s : Stg) (q : Option QzCfg) : Bool :=
  if vxPasses s q ≤ 1 then true
  else
    match (dataOf s q).head? with
    | some p => match cfgIn rs k p with
      | some r => r.mode.testBit 1 && (s.vx != 0x03 || decide (ceilDiv (2 * (q.map QzCfg.rowLen).getD 0) 32 ≤ 32 * r.seg))
      | none => false
    | none => !(agsOf s 2).isEmpty && decide (agRow s q ≤ 65536)

/-- One descriptor of engine `k`. -/
def stageChk (c : CfgIn) (k : Nat) (b : List Byte) : List Chk :=
  let s := stgParse b
  let rs := cfgRoutes c.cfg
  let lim := (cfgEng c.cfg k).1
  let pipe := (cfgPipes c.cfg).find? (fun p => p.id == s.pipe)
  let q := if s.qz = 0xFF then none else (cfgQz c.cfg k).find? (fun q => q.id == s.qz)
  let depth := fun (r : Option Route) (t : Nat) => match r with
    | some r => decide (t ≤ 32 * r.seg)
    | none => true
  [(0, decide (s.id < 512)), (3, decide (s.flags < 4))] ++
  (if !s.valid then []
   else
    [(2, decide (s.pipe < 64)), (4, decide (s.mx ≤ 6)), (5, decide (s.vx ≤ 0x14)), (6, decide (s.qz < 64) || s.qz == 0xFF),
     (7, (decide (s.wsrc < 64) || s.wsrc == 0xFF) && (s.wsrc == 0xFF || (pipe.map (fun p => p.slot == s.wsrc)).getD true))] ++
    (List.range 8).map (fun p => (8 + 2 * p, depth (cfgIn rs k p) (s.inTok.getD p 0))) ++
    (List.range 8).map (fun p => (0x18 + 2 * p, depth (cfgOut rs k p) (s.outCred.getD p 0))) ++
    (List.range 4).map (fun i => (0x28 + 4 * i, decide (1 ≤ s.loop.getD i 0) && decide (s.loop.getD i 0 ≤ 16777216))) ++
    (List.range 4).flatMap (fun i => chkAt (0x38 + 32 * i) (agChk ((b.drop (0x38 + 32 * i)).take 32) s.wsrc)) ++
    s.waits.zipIdx.flatMap (fun (w : Wait × Nat) =>
      (0xB8 + 12 * w.2, w.1.cond == 0 || objOk w.1.obj) :: (0xC0 + 12 * w.2, decide (w.1.cond ≤ 4)) ::
        chkZero b (0xC1 + 12 * w.2) 3) ++
    s.sigs.zipIdx.flatMap (fun (w : Sig × Nat) =>
      (0xD0 + 12 * w.2, w.1.op == 0 || objOk w.1.obj) :: (0xD8 + 12 * w.2, decide (w.1.op ≤ 5)) ::
        chkZero b (0xD9 + 12 * w.2) 3) ++
    [(0xE8, decide (s.look ≤ (if c.compat then min lim 64 else lim)))] ++ chkZero b 0xEA 2 ++
    [(0xEC, if s.vx = 0x0F ∨ s.vx = 0x10 then decide (s.eps < 2 ^ 31) && decide (s.eps / 2 ^ 23 < 255) else s.eps == 0)] ++
    chkZero b 0xF0 16 ++ [(5, passOk rs k s q)])

/-- STAGE_FIELD, STAGE_COUNT and STAGE_PORT. -/
def stagesCheck (c : CfgIn) : ImgErr :=
  let rs := cfgRoutes c.cfg
  let field := c.engines.flatMap (fun k =>
    let bs := secEntries c.sects secStages k
    let o := c.at secStages k
    bs.zipIdx.flatMap (fun (p : List Byte × Nat) => chkAt (o + 256 * p.2) (stageChk c k p.1)) ++
      dupChk (bs.map (fun b => fieldAt b 0 2)) o 256)
  let count := c.engines.map (fun k =>
    (c.at secEngine k + 2, (cfgEng c.cfg k).2.1 == (secEntries c.sects secStages k).length))
  let port := c.engines.flatMap (fun k =>
    (cfgStages c.cfg k).zipIdx.flatMap (fun (p : Stg × Nat) =>
      if !p.1.valid then []
      else chkAt (c.at secStages k + 256 * p.2)
        ((List.range 8).map (fun i => (8 + 2 * i, p.1.inTok.getD i 0 == 0 || (cfgIn rs k i).isSome)) ++
         (List.range 8).map (fun i => (0x18 + 2 * i, p.1.outCred.getD i 0 == 0 || (cfgOut rs k i).isSome)))))
  match firstBad field, firstBad count, firstBad port with
  | some x, _, _ => some (0x0D, x)
  | none, some x, _ => some (0x0E, x)
  | none, none, some x => some (0x0F, x)
  | none, none, none => none

/-! ### Pipelines, quantiser entries, synchronisation values, engine settings (R68 to R72) -/

/-- PIPE_FIELD. -/
def pipesCheck (c : CfgIn) : ImgErr :=
  let bs := secEntries c.sects secPipes 0xFF
  let o := c.at secPipes 0xFF
  let rs := cfgRoutes c.cfg
  let one := fun (b : List Byte) =>
    let p := pipeParse b
    [(0, decide (p.id < 64)), (1, decide (1 ≤ p.maxBatch) && decide (p.maxBatch ≤ 64)),
     (2, decide (p.slot < 64) || p.slot == 0xFF), (3, p.flags == 0)] ++
    (List.range 4).map (fun i =>
      let r := p.entry.getD i 0xFFFF
      (4 + 2 * i, r == 0xFFFF || rs.any (fun x => x.id == r && x.src == epMk 6 0 p.id))) ++
    [(4, p.entry.any (fun r => r != 0xFFFF)), (12, rs.any (fun x => x.id == p.exit && x.mask == 0 && x.dst == epMk 7 0 p.id))] ++
    chkZero b 14 2
  let known := (cfgPipes c.cfg).map PipeCfg.id
  let stages := c.engines.flatMap (fun k => (cfgStages c.cfg k).zipIdx.map (fun (p : Stg × Nat) =>
    (c.at secStages k + 256 * p.2 + 2, !p.1.valid || known.contains p.1.pipe)))
  match firstBad (bs.zipIdx.flatMap (fun (p : List Byte × Nat) => chkAt (o + 16 * p.2) (one p.1)) ++ dupChk known o 16 ++ stages) with
  | some x => some (0x10, x)
  | none => none

/-- Does R245 or R502 allow an entry for a stage? Offsets are in the entry. -/
def qzUse (s : Stg) (q : QzCfg) : List Chk :=
  let valid := fun (r : Nat) => (r / 32768) % 2 == 1
  let port := [(3, decide (q.port < 8) || q.port == 0xFF), (4, if q.port = 0xFF then valid q.static else q.static == 0)]
  let gemm := decide (1 ≤ s.mx) && decide (s.mx ≤ 5)
  if s.vx = 0x01 then [(1, q.mode == 0), (2, q.fmt == 0)] ++ port ++ [(8, valid q.out)]
  else if s.vx = 0x02 ∨ s.vx = 0x04 ∨ (s.vx = 0 ∧ gemm) then [(1, q.mode == 0), (2, q.fmt == 0)] ++ port ++ [(8, q.out == 0)]
  else if s.vx = 0x03 then
    if q.mode = 1 then [(3, q.port == 0xFF), (4, q.static == 0), (8, q.out == 0)]
    else [(2, q.fmt == 0), (3, q.port == 0xFF), (4, q.static == 0), (8, valid q.out)]
  else if s.vx = 0x14 then
    [(1, q.mode == 1), (2, q.fmt == 2), (3, q.port == 0xFF), (4, q.static == 0), (8, q.out == 0), (0x14, q.rowLen == 256)]
  else [(0, false)]

/-- QZ_FIELD. -/
def qzCheck (c : CfgIn) : ImgErr :=
  let one := fun (i : Nat) (b : List Byte) =>
    let q := qzParse b
    [(0, q.id == i), (1, decide (q.mode ≤ 2) && (!c.compat || q.mode == 0)), (2, decide (q.fmt ≤ 3)), (3, decide (q.port < 8) || q.port == 0xFF),
     (4, q.mode != 1 || q.static == 0), (12, q.thresh != 0)] ++ chkZero b 14 2 ++
    [(16, decide (1 ≤ q.window) && decide (q.window ≤ 16777216)), (20, decide (1 ≤ q.rowLen) && decide (q.rowLen ≤ 65536))] ++
    chkZero b 24 8
  let entries := c.engines.flatMap (fun k =>
    (secEntries c.sects secQz k).zipIdx.flatMap (fun (p : List Byte × Nat) => chkAt (c.at secQz k + 32 * p.2) (one p.2 p.1)))
  let uses := c.engines.flatMap (fun k => (cfgStages c.cfg k).zipIdx.flatMap (fun (p : Stg × Nat) =>
    let s := p.1
    let so := c.at secStages k + 256 * p.2 + 6
    let must := s.vx == 1 || s.vx == 2 || s.vx == 3 || s.vx == 4 || s.vx == 0x14
    if !s.valid then []
    else if s.qz = 0xFF then [(so, !must)]
    else
      match (cfgQz c.cfg k).find? (fun q => q.id == s.qz) with
      | none => [(so, false)]
      | some q => if firstBad (qzUse s q) = some 0 then [(so, false)] else chkAt (c.at secQz k + 32 * s.qz) (qzUse s q)))
  match firstBad (entries ++ uses) with
  | some x => some (0x11, x)
  | none => none

/-- SYNC_FIELD (R70, R665, R674). -/
def syncCheck (c : CfgIn) : ImgErr :=
  let bs := secEntries c.sects secSync 0xFF
  let o := c.at secSync 0xFF
  let one := fun (b : List Byte) =>
    let e := syncParse b
    [(0, decide (e.obj < 0xFFF0)), (2, decide (e.type ≤ 4))] ++ chkZero b 3 1 ++
    [(4, if e.type = 3 then decide (e.value ≤ 1) else if e.type = 2 then decide (e.value < e.param) else true),
     (8, if e.type = 2 then decide (1 ≤ e.param) && decide (e.param ≤ 4096)
         else if e.type = 4 then decide (e.param / 2 ^ 28 ≤ 5) && e.param / 2 ^ 13 % 2 ^ 15 == 0 &&
           decide (1 ≤ e.param % 2 ^ 13) && decide (e.param % 2 ^ 13 ≤ 4096)
         else e.param == 0)] ++ chkZero b 12 4
  match firstBad (bs.zipIdx.flatMap (fun (p : List Byte × Nat) => chkAt (o + 16 * p.2) (one p.1)) ++
      dupChk (bs.map (fun b => fieldAt b 0 2)) o 16) with
  | some x => some (0x12, x)
  | none => none

/-- CONST_FIELD (R71, R72); `set` is whether IMG_CONST_BASE is set. -/
def constCheck (c : CfgIn) (set : Bool) : ImgErr :=
  let eng := c.engines.flatMap (fun k =>
    match secEntries c.sects secEngine k with
    | [] => []
    | b :: _ => chkAt (c.at secEngine k)
        ([(0, decide (1 ≤ fieldAt b 0 2) && decide (fieldAt b 0 2 ≤ 256)),
          (4, fieldAt b 4 4 % 16384 == 0 && decide (fieldAt b 4 4 ≤ 262144))] ++ chkZero b 8 24))
  let len := c.consts.map (fun p => (c.at secConst p.1, decide (p.2 ≤ (cfgEng c.cfg p.1).2.2)))
  let total := c.consts.foldl (fun t p => t + p.2) 0
  let first := match c.consts with | [] => 0 | p :: _ => c.at secConst p.1
  match firstBad (eng ++ len ++ [(first, decide (total ≤ 1048576)), (first, set || c.consts.isEmpty)]) with
  | some x => some (0x13, x)
  | none => none

/-! ### Hosts for lost engines (R79, R158, R159) -/

/-- The MX work that a stage's loop nest implies, as its firings. -/
def stageWork (s : Stg) : Nat := if s.mx = 0 then 0 else s.loop.foldl (· * ·) 1

/-- Descriptors and MX work that engine `h` carries. -/
def hostLoad (c : ImgSlot) (hosts : FMap Nat) (h : Nat) : Nat × Nat :=
  let own := cfgStages c h
  let guests := (allStages c).filter (fun p => mget hosts (512 * p.1 + p.2.id) == some h)
  (own.length + guests.length,
   (own.filter Stg.valid).foldl (fun t s => t + stageWork s) 0 + guests.foldl (fun t p => t + stageWork p.2) 0)

/-- Place the valid stages of lost engine `k` on the engines of `pool`: each on the one with the least MX work that has room, the
lower number on a tie (R158; the balance is log entry 41). -/
def hostStages (c : ImgSlot) (k : Nat) (pool : List Nat) (hosts : FMap Nat) : Option (FMap Nat) :=
  ((cfgStages c k).filter Stg.valid).foldl (fun acc s =>
    match acc with
    | none => none
    | some hs =>
      let fit := (pool.filter (fun h => decide ((hostLoad c hs h).1 < 512))).foldl (fun best h =>
        match best with
        | none => some h
        | some b => if (hostLoad c hs h).2 < (hostLoad c hs b).2 then some h else best) (none : Option Nat)
      fit.map (fun h => mput hs (512 * k + s.id) h)) (some hosts)

/-- Give each engine with room to one of several lost engines, so that each finds room for the stages that need it (R158, R159): some way to
do so, if there is one. -/
def dealSearch : List (Nat × Nat) → List Nat → Option (List (Nat × Nat))
  | [], needs => if needs.all (fun n => n == 0) then some [] else none
  | (h, room) :: l, needs => (List.range needs.length).findSome? (fun j =>
      (dealSearch l (needs.set j (needs.getD j 0 - room))).map (fun r => (h, j) :: r))

/-- The pools of hosts to try for lost engines that need `needs` places each: the engines dealt in turn, then a split that is found to fit
(log entry 41). -/
def deals (rooms : List (Nat × Nat)) (needs : List Nat) : List (List (Nat × Nat)) :=
  rooms.zipIdx.map (fun (a : (Nat × Nat) × Nat) => (a.1.1, a.2 % needs.length)) :: (dealSearch rooms needs).toList

/-- Place the stages of every lost engine, each on hosts of its own (R159). -/
def hostPlan (c : ImgSlot) (lost avail : List Nat) : Option (FMap Nat) :=
  let lost := lost.filter (fun k => (cfgStages c k).any Stg.valid)
  let rooms := avail.map (fun h => (h, 512 - (hostLoad c [] h).1))
  (deals rooms (lost.map (fun k => ((cfgStages c k).filter Stg.valid).length))).findSome? (fun split =>
    lost.zipIdx.foldl (fun (acc : Option (FMap Nat)) (p : Nat × Nat) =>
      acc.bind (hostStages c p.1 ((split.filter (fun a => a.2 == p.2)).map Prod.fst))) (some []))

/-- Is an engine lost to an image: disabled or failed (R79)? -/
def engLost (d : Dev) (k : Nat) : Bool :=
  !(gb d (Reg.ENG_CTL k) F.ENG_CTL_EN) || gf d (Reg.ENG_STAT k) F.ENG_STAT_STATE == 6

/-- The hosts of a configuration's lost engines, none if they do not fit (RESOURCE). -/
def cfgHosts (d : Dev) (c : ImgSlot) : Option (FMap Nat) :=
  hostPlan c ((List.range 16).filter (fun k => c.mask.testBit k && engLost d k))
    ((List.range 16).filter (fun k => !(engLost d k)))

/-! ### All checks of pass 2 in order -/

/-- The first error among the checks from SECTION_TYPE to CONST_FIELD. -/
def cfgCheck (c : CfgIn) (es : List DirEnt) (dirOff : Nat) (set : Bool) : ImgErr :=
  match typeCheck c es dirOff with
  | some e => some e
  | none =>
    match routesCheck c with
    | some e => some e
    | none =>
      match stagesCheck c with
      | some e => some e
      | none =>
        match pipesCheck c with
        | some e => some e
        | none =>
          match qzCheck c with
          | some e => some e
          | none =>
            match syncCheck c with
            | some e => some e
            | none => constCheck c set

end Sys2Proof.Machine
end

