-- ==== Sys2Proof/Machine/Image.lean ====
section
/-! DEFINITION. Loading and activating fabric images (spec 02, R73 to R105, R817 to R819), with what an activation binds (R164,
R206, R207, R265, R662) and the boot record that follows it (R760). -/

namespace Sys2Proof.Machine

def setImg (x : Img) (d : Dev) : Dev := { d with img := x }

/-- Is an image load or an activation running? -/
def imgBusy (d : Dev) : Bool := d.img.load.isSome || d.img.act.isSome

/-- Write the epoch of slot `s`. -/
def setEpoch (s e : Nat) (d : Dev) : Dev :=
  if s = 0 then sf Reg.IMG_EPOCH_A F.IMG_EPOCH_A_EPOCH e d else sf Reg.IMG_EPOCH_B F.IMG_EPOCH_B_EPOCH e d

/-- The digest registers of slot `s`, or of the active image for 2. -/
def digestReg (s : Nat) : Nat → Reg :=
  if s = 0 then Reg.IMG_DIGEST_A else if s = 1 then Reg.IMG_DIGEST_B else Reg.IMG_DIGEST_ACT
def digestOf (d : Dev) (s : Nat) : List Byte := (List.range 8).flatMap (fun i => leBytes 8 (rd d (digestReg s i)).toNat)
def setDigest (s : Nat) (b : List Byte) (d : Dev) : Dev :=
  forN 8 (fun i d => wr (digestReg s i) (BitVec.ofNat 64 (fieldAt b (8 * i) 8)) d) d

/-! ### Loading (R73 to R84) -/

/-- A load ends with a code and an error offset: the registers, the event, the completion of its command (R77, R602, R611). -/
def imgLoadDone (code off : Nat) (d : Dev) : Dev :=
  match d.img.load with
  | none => d
  | some l =>
    let d := if l.pass = 2 && code != 0 then setSlotState (standbySlot d) 4 d else d
    let d := setImg { d.img with load := none } d
    let d := d |> sf Reg.IMG_LOAD_STAT F.IMG_LOAD_STAT_BUSY 0 |> sf Reg.IMG_LOAD_STAT F.IMG_LOAD_STAT_PASS 0
      |> sf Reg.IMG_LOAD_STAT F.IMG_LOAD_STAT_CODE code |> sf Reg.IMG_ERR_OFF F.IMG_ERR_OFF_OFFSET off |> raise 81
    match l.cmd with
    | some h => finish h code off (slotEpoch d (standbySlot d)) d
    | none => d

/-- Start pass 1 of a load. -/
def imgLoadStart (cmd : Option CmdHdr) (d : Dev) : Dev :=
  let l : ImgLoad := { pass := 1, src := gf d Reg.IMG_SRC F.IMG_SRC_ADDR, len := (rd d Reg.IMG_SRC_LEN).toNat, cmd := cmd }
  let d := match cmd with | some h => opState h .running d | none => d
  setImg { d.img with load := some l } d |> sf Reg.IMG_LOAD_STAT F.IMG_LOAD_STAT_BUSY 1
    |> sf Reg.IMG_LOAD_STAT F.IMG_LOAD_STAT_PASS 1

/-- IMG_LOAD.GO (R73, R105). -/
def imgGo (d : Dev) : Dev :=
  if imgBusy d then sf Reg.IMG_LOAD_STAT F.IMG_LOAD_STAT_REFUSED 1 d else imgLoadStart none d

/-- Read granules `i …` of a source as master IMG until one fails: the bytes, or the code and offset of the first that is a bus
error, a timeout or poison (R77, R78, R817). -/
def imgRead (src len : Nat) : Nat → Nat → Dev → (List Byte × ImgErr) × Dev
  | 0, _, d => (([], none), d)
  | fuel + 1, i, d =>
    let o := 32 * i
    if o ≥ len then (([], none), d)
    else
      match masterRead 0x24 (src + o) (min 32 (len - o)) d with
      | (.err c, d) => (([], some (if c = causeTimeout then 0x1A else 0x18, o)), d)
      | (.ok _ true, d) => (([], some (0x19, o)), consume 9 0x24 0 0 (src + o) d)
      | (.ok bs false, d) =>
        let r := imgRead src len fuel (i + 1) d
        ((bs ++ r.1.1, r.1.2), r.2)

/-- The whole source of a load: the granules of its header first, and the rest if TOTAL_SIZE and IMG_SRC fit (R77, log entry 58). -/
def imgSource (l : ImgLoad) (d : Dev) : (List Byte × ImgErr) × Dev :=
  let m := l.src % 32
  let h := imgRead (l.src - m) (min l.len 0x100 + m) 9 0 d
  match h.1.2 with
  | some e => (([], some (e.1, e.2 - m)), h.2)
  | none =>
    if m ≠ 0 ∨ l.len < 0x220 ∨ l.len > 0x1000000 ∨ l.len % 4 ≠ 0 ∨ fieldAt h.1.1 0x0C 4 ≠ l.len then (([], some (0x01, 0x0C)), h.2)
    else
      let r := imgRead l.src l.len (ceilDiv l.len 32) 8 h.2
      ((h.1.1 ++ r.1.1, r.1.2), r.2)

/-- Pass 1 has read the image and digested it (R73, R74): the checks up to the key. -/
def imgPass1Done (d : Dev) : Dev :=
  match d.img.load with
  | none => d
  | some l =>
    if l.pass ≠ 1 ∨ l.digest ≠ [] then d
    else
      let r := imgSource l d
      match r.1.2 with
      | some e => imgLoadDone e.1 e.2 r.2
      | none =>
        match hdrCheck r.2 l.len r.1.1 with
        | some e => imgLoadDone e.1 e.2 r.2
        | none =>
          setImg { r.2.img with load := some { l with digest := sha512 (r.1.1.take (l.len - 132)), head := r.1.1.take 0x100,
                                                      sig := r.1.1.drop (l.len - 132) } } r.2

/-- Signature verification ends (R59, R77): then the epoch is checked, and pass 2 begins with the slot LOADING (R75). Key, signature and
epoch are those that pass 1 read (R73). -/
def imgSignatureDone (d : Dev) : Dev :=
  match d.img.load with
  | none => d
  | some l =>
    if l.pass ≠ 1 ∨ l.digest = [] then d
    else if ecdsaOk ((l.head.drop 0x60).take 133) l.digest l.sig = false then imgLoadDone 0x07 (l.len - 132) d
    else if epochOk d (fieldAt l.head 8 4) = false then imgLoadDone 0x08 0x08 d
    else
      setImg { d.img with load := some { l with pass := 2 } } d |> setSlotState (standbySlot d) 1
        |> sf Reg.IMG_LOAD_STAT F.IMG_LOAD_STAT_PASS 2

/-- What a CONST payload comes from: bytes of the image, with the offset of its section, or the active slot's area. -/
structure ConstSrc where
  eng : Nat
  bytes : List Byte
  old : Option ConstRec
  secOff : Nat
deriving DecidableEq, Repr

/-- The MiB of slot `s` in the IMG_CONST_BASE area. -/
def constMib (d : Dev) (s : Nat) : Nat := gf d Reg.IMG_CONST_BASE F.IMG_CONST_BASE_ADDR + 0x100000 * s

/-- Copy `len` bytes between fabric addresses as master IMG in granules, marks included: which of read and write failed. -/
def imgCopy (src dst len : Nat) : Nat → Nat → Dev → (Option Bool × List Byte) × Dev
  | 0, _, d => ((none, []), d)
  | fuel + 1, i, d =>
    let o := 32 * i
    if o ≥ len then ((none, []), d)
    else
      match masterRead 0x24 (src + o) (min 32 (len - o)) d with
      | (.err _, d) => ((some false, []), d)
      | (.ok bs p, d) =>
        match masterWrite 0x24 (dst + o) bs p d with
        | (false, d) => ((some true, []), d)
        | (true, d) =>
          let r := imgCopy src dst len fuel (i + 1) d
          ((r.1.1, bs ++ r.1.2), r.2)

/-- Write the CONST payloads of the standby slot into its MiB, packed in engine order (R84): the records, or the offset of the
section whose write failed. A payload copied from the active slot's MiB keeps the digest of its record, and a failed read or write of that
copy, whose section the image does not carry, reports offset 0 (log entry 117). -/
def constPack (sb : Nat) : List ConstSrc → Nat → FMap ConstRec → Dev → (Option Nat × FMap ConstRec) × Dev
  | [], _, acc, d => ((none, acc), d)
  | c :: cs, o, acc, d =>
    let dst := constMib d sb + o
    match c.old with
    | none =>
      let w := masterWrite 0x24 dst c.bytes false d
      if w.1 then constPack sb cs (o + c.bytes.length) (mput acc c.eng ⟨o, c.bytes.length, sha512 c.bytes⟩) w.2
      else ((some c.secOff, acc), w.2)
    | some rc =>
      let r := imgCopy (constMib d (1 - sb) + rc.off) dst rc.len (ceilDiv rc.len 32) 0 d
      match r.1.1 with
      | some _ => ((some 0, acc), r.2)
      | none => constPack sb cs (o + rc.len) (mput acc c.eng ⟨o, rc.len, rc.digest⟩) r.2

/-- Sections of a list as (TYPE, ENGINE, count, bytes), CONST and COMPAT bodies left out. -/
def sectsOf (l : List (Nat × Nat × Nat × List Byte)) (base : FMap Sect) : FMap Sect :=
  l.foldl (fun m s => if s.1 = secConst ∨ s.1 = secCompat then m else mput m (secKey s.1 s.2.1) ⟨s.2.2.1, s.2.2.2⟩) base

/-- An endpoint of a translated route: BX408 engine j is E(4g + j), whose home stack is S(4g + j) (R99). -/
def compatEp (g e : Nat) : Nat := if epKind e ≤ 1 then epMk (epKind e) (4 * g + epInst e) (epPort e) else e

/-- A translated route entry on the engines of group `g`. -/
def compatRoute (g : Nat) (b : List Byte) : List Byte :=
  b.take 2 ++ leBytes 2 (compatEp g (fieldAt b 2 2)) ++ leBytes 2 (compatEp g (fieldAt b 4 2)) ++
    leBytes 2 (2 ^ (4 * g) * fieldAt b 6 2) ++ b.drop 8

/-- A translated section on the engines of group `g` (R99): TYPE, ENGINE, entry count and bytes. -/
def compatSect (g : Nat) (s : Nat × Nat × List Byte) : Nat × Nat × Nat × List Byte :=
  let n := if secSize s.1 = 0 then 0 else s.2.2.length / secSize s.1
  let e := if secPerEngine s.1 then 4 * g + s.2.1 else s.2.1
  (s.1, e, n, if s.1 = secRoutes then (List.range n).flatMap (fun i => compatRoute g ((s.2.2.drop (24 * i)).take 24)) else s.2.2)

/-- The group g that a COMPAT image's ENGINE_MASK selects (R99). -/
def compatGroup (mask : Nat) : Option Nat := (List.range 4).find? (fun g => mask == 2 ^ (4 * g) * 0xF)

/-- Pass 2 ends (R75 to R84): the composed configuration is checked in the order of R77, its CONST payloads are stored, and the
standby slot becomes VALID or INVALID. `tr` is what translating a BX408 body gives (R99, R101). Where R77 names no byte, IMG_ERR_OFF is the
model's choice (log entry 117): 0x14 for RESOURCE, 0 for SOURCE_CHANGED, the COMPAT section's start where a translated configuration fails
the native checks. -/
def imgPass2Done (tr : CompatOut) (d : Dev) : Dev :=
  match d.img.load with
  | none => d
  | some l =>
    if l.pass ≠ 2 then d
    else
      let r := imgSource l d
      let d := r.2
      let m := r.1.1
      match r.1.2 with
      | some e => imgLoadDone e.1 e.2 d
      | none =>
        let sb := standbySlot d
        let flags := fieldAt m 6 2
        let part := flags.testBit 0
        let comp := flags.testBit 1
        let es := dirParse m
        let carried := es.map (fun e => (e.type, e.eng, e.count, (m.drop e.off).take e.len))
        let base : ImgSlot := if part then (match activeSlot d with | some a => slotCfg d a | none => {}) else {}
        let offs : FMap Nat := es.foldl (fun o e => mput o (secKey e.type e.eng) e.off) []
        let mask := fieldAt m 0x14 2
        let transl : List (Nat × Nat × Nat × List Byte) := match tr with
          | .good ss => ss.map (compatSect ((compatGroup mask).getD 0))
          | .bad _ => []
        let sects := if comp then sectsOf (transl ++ carried) [] else sectsOf carried base.sects
        let newC : List ConstSrc := ((if comp then transl else carried).filter (fun s => s.1 == secConst)).map (fun s =>
          ⟨s.2.1, s.2.2.2, none, mgetD offs (secKey secConst s.2.1) 0⟩)
        let oldC : List ConstSrc := (base.consts.filter (fun p => !(newC.any (fun c => c.eng == p.1)))).map (fun p =>
          ⟨p.1, [], some p.2, 0⟩)
        let cs := sortBy ConstSrc.eng (newC ++ oldC)
        let lens : FMap Nat := cs.foldl (fun a c => mput a c.eng (match c.old with | some x => x.len | none => c.bytes.length)) []
        let set := gf d Reg.IMG_CONST_BASE F.IMG_CONST_BASE_ADDR != 0
        let cin : CfgIn := { sects := sects, mask := mask, consts := lens, offs := offs, dirs := [], compat := comp }
        let body := mgetD offs (secKey secCompat 0xFF) (fieldAt m 0x18 4)
        let unknown := firstBad (es.zipIdx.map (fun (p : DirEnt × Nat) => (fieldAt m 0x18 4 + 16 * p.2, dirKnown p.1.type)))
        let baseOk := !part || ((activeSlot d).isSome && (m.drop 0x20).take 64 == digestOf d 2)
        let compChks : List Chk := [(0x14, (compatGroup mask).isSome), (6, !part)] ++
          es.zipIdx.map (fun (p : DirEnt × Nat) => (fieldAt m 0x18 4 + 16 * p.2, p.1.type == secCompat || p.1.type == secSync)) ++
          [(body, mhas offs (secKey secCompat 0xFF) && es.all (fun e => e.type != secCompat || decide (e.len ≤ 4194304)))] ++
          (match tr with | .bad o => [(o, false)] | .good _ => [])
        let compErr : ImgErr :=
          if !baseOk then some (0x15, 0x20)
          else if gb d Reg.IMG_CTL F.IMG_CTL_COMPAT_EN = false then some (0x16, 6)
          else
            match firstBad compChks with
            | some x => some (0x17, x)
            | none => (cfgCheck cin [] 0 set).map (fun _ => (0x17, body))
        let cfg : ImgSlot := { sects := sects, mask := mask, compat := comp }
        let hosts := cfgHosts d cfg
        let err : ImgErr :=
          match dirCheck l.len m with
          | some e => some e
          | none =>
            if comp then
              match unknown with
              | some x => some (0x0A, x)
              | none =>
                match (syncCheck cin) with
                | some e => some e
                | none => if hosts.isNone then some (0x14, 0x14) else compErr
            else
              match cfgCheck cin es (fieldAt m 0x18 4) set with
              | some e => some e
              | none =>
                if hosts.isNone then some (0x14, 0x14)
                else if !baseOk then some (0x15, 0x20)
                else none
        let err := match err with
          | some e => some e
          | none => if sha512 (m.take (l.len - 132)) ≠ l.digest then some (0x1B, 0) else none
        match err with
        | some e => imgLoadDone e.1 e.2 d
        | none =>
          let w := constPack sb cs 0 [] d
          let d := w.2
          match w.1.1 with
          | some o => imgLoadDone 0x18 o d
          | none =>
            let dig := if part then sha512 (digestOf d 2 ++ l.digest) else l.digest
            let slot := { cfg with consts := w.1.2, hosts := hosts.getD [] }
            let d := setImg { d.img with slots := mput d.img.slots sb slot } d
            imgLoadDone 0 0 (d |> setSlotState sb 2 |> setEpoch sb (fieldAt m 8 4) |> setDigest sb dig)

/-- A source read, or a write into the IMG_CONST_BASE area in pass 2, ends with a bus error, poison or a timeout (R77): `code` is
that of R77, `off` the offset it reports. The fault is logged or counted as R44 and R78 say. -/
def imgSourceFault (code off : Nat) (d : Dev) : Dev :=
  match d.img.load with
  | none => d
  | some l =>
    if code = 0x19 then imgLoadDone 0x19 off (consume 9 0x24 0 0 (l.src + off) d)
    else if code = 0x18 ∨ code = 0x1A then
      imgLoadDone code off (busError (if code = 0x1A then causeTimeout else causeRemote) 0x24 false (l.src + off) d)
    else d

/-- IMG_LOAD.ABORT, or the resign of an IMG_LOAD command (R77, R609): ABORTED, with offset 0 (log entry 42). -/
def imgAbort (d : Dev) : Dev := imgLoadDone 0x1C 0 d

/-! ### What an activation binds -/

/-- Count items dropped at an ingest port in its drop counter (R87, R207, R794, R795): cameras count BP. -/
def blkCount (r : Reg) (stat en : Reg) (src n : Nat) (d : Dev) : Dev :=
  let c := min (gf d r ⟨0, 31⟩ + n) 0x7FFFFFFF
  let d := sf r ⟨0, 31⟩ c d
  if c = 0x7FFFFFFF ∧ gf d r ⟨31, 1⟩ = 0 then sf r ⟨31, 1⟩ 1 d |> blkCause stat en 4 src else d

def ingestDrop (inst n : Nat) (d : Dev) : Dev :=
  if n = 0 then d
  else if inst < 4 then
    blkCount (Reg.CSI_DROP_BP inst) (Reg.CSI_IRQ_STAT inst) (Reg.CSI_IRQ_EN inst) (52 + inst) n d
      |> blkCause (Reg.CSI_IRQ_STAT inst) (Reg.CSI_IRQ_EN inst) 1 (52 + inst)
  else if inst = 4 then
    blkCount Reg.TDM_DROP Reg.TDM_IRQ_STAT Reg.TDM_IRQ_EN 56 n d |> blkCause Reg.TDM_IRQ_STAT Reg.TDM_IRQ_EN 2 56
  else
    blkCount (Reg.ETH_DROP (inst - 5)) (Reg.ETH_IRQ_STAT (inst - 5)) (Reg.ETH_IRQ_EN (inst - 5)) (49 + (inst - 5)) n d
      |> blkCause (Reg.ETH_IRQ_STAT (inst - 5)) (Reg.ETH_IRQ_EN (inst - 5)) 3 (49 + (inst - 5))

/-- Unbind the old routes and bind those of the new image (R87, R172, R206, R207). Items that still wait at an ingest port for credits are
not in the FIFO: with no new route they go uncounted, and a camera's buffers stay in use (log entry 119). -/
def routesBind (c : ImgSlot) (d : Dev) : Dev :=
  let old := d.fifos.filter (fun p => epKind p.2.src == 5)
  let d := d.fifos.foldl (fun d p => fifoRegsReset p.1 d) d
  let rs := cfgRoutes c
  let d := { d with fifos := rs.foldl (fun m r => mput m r.id (fifoNew r.src r.dst r.mask r.seg r.mode r.pin r.thresh)) [] }
  let d := rs.foldl (fun d r =>
    d |> sf (Reg.FIFO_WM r.id) F.FIFO_WM_WM_HIGH r.hi |> sf (Reg.FIFO_WM r.id) F.FIFO_WM_WM_LOW r.lo) d
  let d := sf Reg.FIFO_POOL F.FIFO_POOL_USED (rs.foldl (fun t r => t + r.seg) 0) d
  old.foldl (fun d p =>
    let inst := epInst p.2.src
    match routeBySrc d p.2.src with
    | none => ingestDrop inst p.2.items.length d
    | some id =>
      match mget d.fifos id with
      | none => d
      | some f =>
        let keep := p.2.items.take (fifoDepth f)
        let d := keep.foldl (fun d it => fifoPut id it d) d
        fifoSend id p.2.backlog (ingestDrop inst (p.2.items.length - keep.length) d)) d
    |> forN 8 (fun i d => pinDrive (i + 1) d)

/-- Load the quantiser entries of the new image (R265). -/
def qzBind (c : ImgSlot) (d : Dev) : Dev :=
  forN 16 (fun k d => forN 64 (fun n d =>
    match (cfgQz c k).find? (fun q => q.id == n) with
    | some q => d |> sf (Reg.QZ_SCALE k n) F.QZ_SCALE_SCALE q.out |> sf (Reg.QZ_STAT k n) F.QZ_STAT_VALID 1
        |> sf (Reg.QZ_STAT k n) F.QZ_STAT_MODE q.mode |> sf (Reg.QZ_STAT k n) F.QZ_STAT_OUT_FMT q.fmt
        |> sf (Reg.QZ_STAT k n) F.QZ_STAT_FALLEN 0
    | none => d |> sf (Reg.QZ_SCALE k n) F.QZ_SCALE_SCALE 0 |> sf (Reg.QZ_STAT k n) F.QZ_STAT_VALID 0
        |> sf (Reg.QZ_STAT k n) F.QZ_STAT_MODE 0 |> sf (Reg.QZ_STAT k n) F.QZ_STAT_OUT_FMT 0) d)
    { d with engs := { d.engs with qz := [] } }

/-- Write ENG_RELOC of lost engines and hosts, and take the hosts' tiles for the lost engines' CONST data (R159, R161, R163;
log entry 41). -/
def relocRegs (c : ImgSlot) (hosts : FMap Nat) (d : Dev) : Dev :=
  let d := hosts.foldl (fun d p =>
    let k := p.1 / 512
    let h := p.2
    d |> sf (Reg.ENG_RELOC k) F.ENG_RELOC_RELOCATED 1
      |> sf (Reg.ENG_RELOC k) F.ENG_RELOC_HOST_MASK (gf d (Reg.ENG_RELOC k) F.ENG_RELOC_HOST_MASK ||| 2 ^ h)
      |> sf (Reg.ENG_RELOC h) F.ENG_RELOC_GUEST_VALID 1 |> sf (Reg.ENG_RELOC h) F.ENG_RELOC_GUEST k) d
  let g : FMap Nat := hosts.foldl (fun m p => mput m p.2 ((cfgEng c (p.1 / 512)).2.2 / 16384)) d.tm.guestTiles
  { d with tm := { d.tm with guestTiles := g } }

/-- Is a stored image of the parameter sectors the one with a digest (R758, R760)? -/
def storedIs (d : Dev) (s : Nat) (dig : List Byte) : Bool :=
  let a := 0x40000 + psecBase s
  let n := leNat (rawBytes d (a + 0x0C) 4)
  decide (0x220 ≤ n) && decide (n ≤ 3276800) && sha512 (rawBytes d a (n - 132)) == dig

/-- The arbiter writes a new boot-record version (R760). -/
def bootRecWrite (d : Dev) : Dev :=
  let v := match d.boot.next with
    | some p => p
    | none => (gf d Reg.IMG_CONST_BASE F.IMG_CONST_BASE_ADDR, gf d Reg.IMG_CTL F.IMG_CTL_COMPAT_EN)
  let dig := digestOf d 2
  let auto := if storedIs d 0 dig then 1 else if storedIs d 1 dig then 2 else 0
  { d with boot := { d.boot with rec_ := some ⟨activeEpoch d, auto, v.2, v.1⟩ } }

/-! ### Activation (R85 to R95, R430, R469, R817, R819) -/

/-- Copy the CONST payloads of a slot into the TS_CONST spans, or to the hosts of lost engines (R85 step 3, R140, R161, R533):
whether a read of the area failed, and the bytes delivered by engine. `only` picks engines; the active image's stages may have moved since
(R161). -/
def constCopyOf (only : Nat → Bool) (s : Nat) (d : Dev) : (Bool × List (Nat × List Byte)) × Dev :=
  let c := slotCfg d s
  let c := if activeSlot d = some s then { c with hosts := d.engs.hosts.foldl (fun m p => mput m p.1 p.2) c.hosts } else c
  (c.consts.filter (fun p => only p.1)).foldl (fun (acc : (Bool × List (Nat × List Byte)) × Dev) p =>
    if acc.1.1 then acc
    else
      let k := p.1
      let hs := (List.range 16).filter (fun h => c.hosts.any (fun q => q.1 / 512 == k && q.2 == h))
      let top := 256 - (cfgEng c k).2.2 / 16384
      let dsts := if hs.isEmpty then (if domOn acc.2 (16 + k) then [tileBase k + 16384 * top] else [])
        else hs.map (fun h => tileBase h + (256 - (cfgEng c h).2.2 / 16384 - (cfgEng c k).2.2 / 16384) * 16384)
      dsts.foldl (fun (acc : (Bool × List (Nat × List Byte)) × Dev) a =>
        if acc.1.1 then acc
        else
          let r := imgCopy (constMib acc.2 s + p.2.off) a p.2.len (ceilDiv p.2.len 32) 0 acc.2
          ((r.1.1 == some false, acc.1.2 ++ [(k, r.1.2)]), r.2)) acc) ((false, []), d)

/-- The copy for every engine. -/
def constCopy (s : Nat) (d : Dev) : (Bool × List (Nat × List Byte)) × Dev := constCopyOf (fun _ => true) s d

/-- An activation has ended with a code (R90, R819): its registers, its event, the completions of its command or castle. -/
def actEnd (code : Nat) (a : ActRun) (silent : Bool) (d : Dev) : Dev :=
  let d := setImg { d.img with act := none } d
  let d := d |> sf Reg.IMG_ACT_STAT F.IMG_ACT_STAT_BUSY 0 |> sf Reg.IMG_ACT_STAT F.IMG_ACT_STAT_PHASE 0
  let d := if silent then d else sf Reg.IMG_ACT_STAT F.IMG_ACT_STAT_CODE code d |> raise 82
  match a.cmd with
  | some h => finish h code (rd d Reg.IMG_FP).toNat (activeEpoch d) d
  | none => d

/-- Forget the castle that an activation ran, with its completion (R430). -/
def castleEnd (n code r0 r1 : Nat) (d : Dev) : Dev :=
  match mget d.slots.castles n with
  | none => d
  | some c =>
    let d := { d with slots := { d.slots with castles := mdel d.slots.castles n } }
    finish c.h code r0 r1 d

/-- Abandon an activation before step 5 (R89, R92, R436, R821): the arrival is withdrawn, the CONST spans are restored, and
admissions resume on the unchanged image. `silent` keeps IMG_ACT_STAT.CODE (R436). -/
def actAbandon (code castleCode : Nat) (silent : Bool) (d : Dev) : Dev :=
  match d.img.act with
  | none => d
  | some a =>
    let d := match a.barrier with
      | some o => if a.phase = 3 then barrierWithdraw 0x24 o a.gen .actArrive .actWait d else d
      | none => d
    let d := if a.constDone then (match activeSlot d with | some s => (constCopy s d).2 | none => d) else d
    let d := actEnd code a silent d
    match a.castle with
    | some n => castleEnd n castleCode 0 0 d
    | none => d

/-- Step 5 and 6: the banks switch, SYNC_INIT is written, admissions resume, the fingerprint and boot record follow. -/
def actSwitch (d : Dev) : Dev :=
  match d.img.act with
  | none => d
  | some a =>
    let sb := standbySlot d
    let first := !d.img.running
    let res := match a.castle with
      | some n => (mget d.slots.castles n).map (fun c => (n, castleResults d n c.side))
      | none => none
    let d := match a.castle with
      | some n => (match mget d.slots.castles n with
        | some c => castleSwitch n c.side true d
        | none => d)
      | none => d
    let d := match activeSlot d with | some o => setSlotState o 2 d | none => d
    let d := setSlotState sb 3 d |> sf Reg.IMG_SLOT_STAT F.IMG_SLOT_STAT_ACTIVE sb |> setDigest 2 (digestOf d sb)
    let d := setImg { d.img with running := true } d
    let c := slotCfg d sb
    let d := { d with
      engs := { d.engs with stages := [], last := [], hosts := [], lanes := [], wsPipe := [], wsStage := [], wsShare := [] },
      tm := { d.tm with guestTiles := [] },
      pipes := mmap d.pipes (fun _ p => { p with batches := [], flow := [], nextFlow := 0, exitFlow := 0, unavail := none, relocStop := false }),
      links := { d.links with told := [], waitK := [], waitOk := [] } }
    let d := forN 16 (fun k d => readsStop k none d) d
    let d := forN 16 (fun k d => wr (Reg.ENG_RELOC k) 0 d) d |> relocRegs c c.hosts
    let d := forN 16 (fun k d => if engState d k = 1 && domOn d (16 + k) then setEngState k 2 d else d) d
    let d := routesBind c d |> hostPorts |> prodCheckAll |> qzBind c |> syncInitWrite (cfgSync c)
    let d := if first && decide (gf d Reg.PMU_STAT F.PMU_STAT_STATE < 3) then pinForceAll false d else d
    let d := bootRecWrite (fpRecompute d)
    let d := actEnd 0 a false d
    match res with
    | some (n, r0, r1) => castleEnd n 0 r0 r1 d
    | none => d

/-- Step 4: arrive at the barrier, or go on; an arrival that releases the barrier goes on at once, and a barrier on another device to which
no request can go abandons the activation with ACT_BARRIER (R92). -/
def actArrive (d : Dev) : Dev :=
  match d.img.act with
  | none => d
  | some a =>
    match a.barrier with
    | none => actSwitch d
    | some o =>
      let r := barrierArrive 0x24 o .actArrive .actWait d
      let d := setImg { r.2.2.img with act := some { a with phase := 3, gen := r.1, constDone := true } } r.2.2
        |> sf Reg.IMG_ACT_STAT F.IMG_ACT_STAT_PHASE 3
      let w := barrierWait 0x24 o .actArrive r.1 d
      if !r.2.1 then actAbandon 0x24 0x24 false d else if w.1 then actSwitch w.2 else w.2

/-- Does step 2 still wait: for an admitted batch, for a firing and its writes, or for items in a FIFO that no ingest port feeds (R86,
R206)? -/
def anyBatch (d : Dev) : Bool :=
  d.pipes.any (fun p => !p.2.batches.isEmpty) || d.engs.stages.any (fun p => !p.2.firings.isEmpty || !p.2.writes.isEmpty) ||
    d.fifos.any (fun p => epKind p.2.src != 5 && !(p.2.items.isEmpty && p.2.backlog.isEmpty))

/-- Step 2 has ended (R86): placements that the new TS_CONST needs are captured (R469), and the copy of step 3 starts; an image
without CONST data goes on at once. -/
def actDrained (d : Dev) : Dev :=
  match d.img.act with
  | none => d
  | some a =>
    if a.phase ≠ 1 ∨ anyBatch d then d
    else
      let c := slotCfg d (standbySlot d)
      let d := forN 16 (fun k d => if domOn d (16 + k) then captureFit 256 k (256 - (cfgEng c k).2.2 / 16384) d else d) d
      if c.consts.isEmpty then actArrive d
      else setImg { d.img with act := some { a with phase := 2 } } d |> sf Reg.IMG_ACT_STAT F.IMG_ACT_STAT_PHASE 2

/-- The CONST copy of step 3 has been made (R85): a failed read abandons the activation with ACT_CONST. -/
def actConstDone (d : Dev) : Dev :=
  match d.img.act with
  | none => d
  | some a =>
    if a.phase ≠ 2 then d
    else
      let d := setImg { d.img with act := some { a with constDone := true } } d
      let r := constCopy (standbySlot d) d
      if r.1.1 then actAbandon 0x25 0x25 false r.2 else actArrive r.2

/-- The barrier on this device has released (R85 step 4). -/
def actReleased (d : Dev) : Dev :=
  match d.img.act with
  | none => d
  | some a =>
    match a.barrier with
    | some o =>
      if a.phase = 3 then
        let w := barrierWait 0x24 o .actArrive a.gen d
        if w.1 then actSwitch w.2 else w.2
      else d
    | none => d

/-- IMG_ACT_TMO has passed in steps 1 to 4 (R89). -/
def actTimeout (d : Dev) : Dev := actAbandon 0x22 0x22 false d

/-- Start an activation: the checks of step 1 (R85, R91), then the steps that wait for nothing. -/
def actStart (cmd : Option CmdHdr) (castle barrier : Option Nat) (d : Dev) : Dev :=
  let a : ActRun := { phase := 1, cmd := cmd, castle := castle, barrier := barrier }
  let sb := standbySlot d
  let e := slotEpoch d sb
  let d := match cmd with | some h => opState h .running d | none => d
  let refuse := fun (code : Nat) (d : Dev) =>
    let d := actEnd code a false d
    match castle with | some n => castleEnd n code 0 0 d | none => d
  if slotState d sb ≠ 2 then refuse 0x20 d
  else if gf d Reg.IMG_EPOCH_MIN F.IMG_EPOCH_MIN_FLOOR > e ∨ ((activeSlot d).isSome ∧ e ≤ activeEpoch d) then refuse 0x21 d
  else if barrier.any (fun o => !(barrierOk d o)) then refuse 0x24 d
  else
    let d := setImg { d.img with act := some a } d |> sf Reg.IMG_ACT_STAT F.IMG_ACT_STAT_BUSY 1
      |> sf Reg.IMG_ACT_STAT F.IMG_ACT_STAT_PHASE 1
    actDrained d

/-- IMG_ACT_CTL.GO (R85, R819). -/
def actGo (d : Dev) : Dev :=
  if imgBusy d then sf Reg.IMG_ACT_STAT F.IMG_ACT_STAT_REFUSED 1 d
  else actStart none none
    (if gb d Reg.IMG_ACT_CTL F.IMG_ACT_CTL_BARRIER_EN then some (gf d Reg.IMG_ACT_CTL F.IMG_ACT_CTL_BARRIER) else none) d

/-! ### IMG_LOAD and IMG_ACTIVATE commands (R85, R818) -/

def imgCmdStart (c : ImgCmd) (d : Dev) : Dev :=
  match c with
  | .load h src len => d |> sf Reg.IMG_SRC F.IMG_SRC_ADDR src |> wr Reg.IMG_SRC_LEN (BitVec.ofNat 64 len) |> imgLoadStart (some h)
  | .act h b => actStart (some h) none b d

/-- An IMG_LOAD or IMG_ACTIVATE command: it runs, or waits behind a load or activation. -/
def imgCmd (h : CmdHdr) (c : ImgCmd) (d : Dev) : Dev :=
  longCmd h (fun d =>
    let d := opOpen h .queued d
    if imgBusy d || !d.img.queue.isEmpty then setImg { d.img with queue := d.img.queue ++ [c] } d else imgCmdStart c d) d

/-- A waiting command starts once neither runs (R818). -/
def imgQueuedStart (d : Dev) : Dev :=
  match d.img.queue with
  | [] => d
  | c :: rest => if imgBusy d then d else imgCmdStart c (setImg { d.img with queue := rest } d)

/-- Restore the CONST spans on the way to RUN (R104), with the digest taken over the bytes as they were delivered: a read error or a digest
that differs raises IMG_CONST_BAD and marks the
active slot INVALID, and with no image active IMG_FP reads 0 (R98). -/
def constRestore (d : Dev) : Dev :=
  match activeSlot d with
  | none => d
  | some s =>
    let c := slotCfg d s
    let r := constCopy s d
    let ok := c.consts.all (fun p => r.1.2.all (fun q => q.1 != p.1 || sha512 q.2 == p.2.digest))
    if r.1.1 || !ok then setSlotState s 4 r.2 |> wr Reg.IMG_FP 0 |> raise 83 else r.2

end Sys2Proof.Machine
end

