-- ==== Sys2Proof/Machine/Castle.lean ====
section
/-! DEFINITION. Castling and releasing the sides of model slots (spec 10, R420 to R439, R821). -/

namespace Sys2Proof.Machine

def setCastles (m : FMap Castle) (d : Dev) : Dev := { d with slots := { d.slots with castles := m } }

/-- Step 4 of a castle without an image (R420): the pointer moves in cycle S and the castle completes with OK, or with
CASTLE_NOT_READY if the side has left READY (R821). -/
def castleDo (n : Nat) (d : Dev) : Dev :=
  match mget d.slots.castles n with
  | none => d
  | some c =>
    if (sideOf d n c.side).st ≠ 2 then castleEnd n 0x42 0 0 d
    else
      let r := castleResults d n c.side
      castleEnd n 0 r.1 r.2 (castleSwitch n c.side (c.flags.testBit 0) d)

/-- A CASTLE command (R420, R428 to R430, R439): the checks in table order, then the switch, the barrier or the activation. -/
def castleRun (h : CmdHdr) (n flags barrier : Nat) (d : Dev) : Dev :=
  let d := opOpen h .running d
  let img := flags.testBit 1
  let obj := if flags.testBit 2 then some barrier else none
  if n > 63 then finish h 0x40 0 0 d
  else if mhas d.slots.castles n ∨ (img ∧ imgBusy d) then finish h 0x41 0 0 d
  else
    match castleTarget d n with
    | none => finish h 0x42 0 0 d
    | some s =>
      if castleEngines d n (sideOf d n s).mask = false then finish h 0x43 0 0 d
      else if obj.any (fun o => !(barrierOk d o) || (!img && !(objLocal d o) && !(hasRoute d (objDev o)))) then finish h 0x44 0 0 d
      else
        let d := setCastles (mput d.slots.castles n { h := h, flags := flags, barrier := barrier, side := s }) d
        if img then actStart none (some n) obj d
        else
          match obj with
          | none => castleDo n d
          | some o =>
            match barrierArrive 8 o (.castleArrive n) (.castleWait n) d with
            | (_, false, d) => castleEnd n 0x44 0 0 d
            | (g, true, d) =>
              let d := setCastles (mupd d.slots.castles n ⟨h, flags, barrier, s, none, false⟩
                (fun c => { c with gen := g, arrived := true })) d
              let w := barrierWait 8 o (.castleArrive n) g d
              if w.1 then castleDo n w.2 else w.2

def xCastle (h : CmdHdr) (n flags barrier : Nat) (d : Dev) : Dev := longCmd h (castleRun h n flags barrier) d

/-- Withdraw a castle's arrival, or abandon its activation, and complete it with a code (R436, R438, R821). The abandoned activation keeps
IMG_ACT_STAT.CODE when the castle is resigned, and ends with ACT_TIMEOUT when its side has left READY, as R821 has it abandoned as R89
does and names no code (log entry 37). -/
def castleStop (n code : Nat) (d : Dev) : Dev :=
  match mget d.slots.castles n with
  | none => d
  | some c =>
    if c.flags.testBit 1 then actAbandon (if code = 0x42 then 0x22 else code) code (code == 0x46) d
    else
      let d := if c.arrived then barrierWithdraw 8 c.barrier c.gen (.castleArrive n) (.castleWait n) d else d
      castleEnd n code 0 0 d

/-- The castle's barrier on this device has released (R420 step 3). -/
def castleReleased (n : Nat) (d : Dev) : Dev :=
  match mget d.slots.castles n with
  | some c =>
    if !(c.flags.testBit 1) && c.arrived then
      let w := barrierWait 8 c.barrier (.castleArrive n) c.gen d
      if w.1 then castleDo n w.2 else w.2
    else d
  | none => d

/-- ARB_CASTLE_TMO has passed at the barrier (R438). -/
def castleTimeout (n : Nat) (d : Dev) : Dev :=
  match mget d.slots.castles n with
  | some c => if !(c.flags.testBit 1) && c.arrived then castleStop n 0x45 d else d
  | none => d

/-- CASTLE_HOLD_LIMIT ends the hold of a slot (R422, R423). -/
def holdExpiry (n : Nat) (d : Dev) : Dev :=
  match (mslot d n).hold with
  | some (t, _) => if aonTime d ≥ t then holdEnd n d else d
  | none => d

/-- ARB_SLOT_CTL.EXPIRE (R422). -/
def slotExpire (d : Dev) : Dev := holdEnd (gf d Reg.ARB_SLOT_IDX F.ARB_SLOT_IDX_SLOT) d

/-- A side has left READY: a castle that would make it LIVE completes with CASTLE_NOT_READY (R821). -/
def castleRecheck (n s : Nat) (d : Dev) : Dev :=
  match mget d.slots.castles n with
  | some c => if c.side = s ∧ (sideOf d n s).st ≠ 2 then castleStop n 0x42 d else d
  | none => d

/-- A RELEASE command (R431, R439, R600). -/
def releaseCmd (h : CmdHdr) (n s : Nat) (d : Dev) : Dev :=
  let d := cmdIn h d
  if h.handle ≠ 0 ∨ h.flags > 7 then finish h 0xC2 0 0 d
  else if n > 63 then finish h 0x40 0 0 d
  else
    match (sideOf d n s).st with
    | 2 => finish h 0 0 0 (castleRecheck n s (sideRelease n s d))
    | 3 =>
      let d := holdEnd n d
      let d := dropBindings n s d
      let d := sideUpd n s (fun x => { x with st := 4 }) d
      let d := if refCount d n s = 0 then sideRelease n s d else d
      finish h 0 0 0 (fpRecompute d)
    | _ => finish h 0x47 0 0 d

end Sys2Proof.Machine
end

