-- ==== Sys2Proof/Machine/Train.lean ====
section
/-! DEFINITION. The completion of batches (spec 03 and 15, R117, R123, R541, R555) and train-runs (spec 12, R485 to R517). -/

namespace Sys2Proof.Machine

/-! ### Run objects -/

/-- Write bytes at an offset of an object through its mapping, with the marks of poisoned granules and dirty tiles. -/
def objWrite (n off : Nat) (bs : List Byte) (p : Bool) (d : Dev) : Dev :=
  (tilePieces (bs.length / 16384 + 2) off bs.length).foldl (fun d q =>
    match tmObj d n with
    | none => d
    | some o =>
      let t := q.1 / 16384
      let d := writeMem (tileAddr o t + q.1 % 16384) ((bs.drop (q.1 - off)).take q.2) p d
      if mappedUp o t then setDirty o t true d else d) d

/-- Read bytes at an offset of an object: bytes and poison. -/
def objRead' (n off len : Nat) (d : Dev) : (List Byte × Bool) × Dev :=
  (tilePieces (len / 16384 + 2) off len).foldl (fun (acc : (List Byte × Bool) × Dev) q =>
    match tmObj acc.2 n with
    | none => acc
    | some o =>
      let r := readMem (tileAddr o (q.1 / 16384) + q.1 % 16384) q.2 acc.2
      ((acc.1.1 ++ r.1.1, acc.1.2 || r.1.2), r.2)) (([], false), d)

/-- Object `r` of a descriptor, in the order MASTER, M, V, WORK, CONST, BSCALE. -/
def descObj (b : List Byte) (i : Nat) : Nat := fieldAt b (0x2C + 2 * i) 2

/-! ### Checks of a descriptor (R492, R493, R516) -/

def finite32 (v : Nat) : Bool := decide (v / 2 ^ 23 % 256 < 255)
def positive32 (v : Nat) : Bool := decide (v < 2 ^ 31) && v != 0
def below1 (v : Nat) : Bool := decide (v < 0x3F800000)

/-- TR_FIELD: every field of R492 in range. -/
def trFieldOk (d : Dev) (b : List Byte) : Bool :=
  let objs := (List.range 6).map (descObj b)
  let seqs := fieldAt b 6 1
  decide (fieldAt b 0 1 < 64) && decide (fieldAt b 1 1 < 64) && decide (fieldAt b 2 2 < 1024) && fieldAt b 4 2 != 0 &&
  decide (1 ≤ seqs) && decide (seqs ≤ ((pipeOf d (fieldAt b 0 1)).map PipeCfg.maxBatch).getD 64) && decide (fieldAt b 7 1 ≤ 1) &&
  decide (fieldAt b 0x0C 4 + fieldAt b 8 4 < 2 ^ 32) && fieldAt b 0x14 4 != 0 && fieldAt b 0x14 4 % 32 == 0 &&
  fieldAt b 0x18 8 % 32 == 0 && decide (fieldAt b 0x18 8 < 2 ^ 53) && fieldAt b 0x20 8 % 32 == 0 &&
  decide (fieldAt b 0x20 8 < 2 ^ 53) && fieldAt b 0x28 4 % 32 == 0 && (fieldAt b 0x28 4 == 0) == (fieldAt b 0x20 8 == 0) &&
  objs.all (fun o => decide (o < 16384)) && decide objs.Nodup &&
  finite32 (fieldAt b 0x38 4) && positive32 (fieldAt b 0x38 4) && below1 (fieldAt b 0x3C 4) && below1 (fieldAt b 0x40 4) &&
  finite32 (fieldAt b 0x44 4) && positive32 (fieldAt b 0x44 4) && finite32 (fieldAt b 0x48 4) && decide (fieldAt b 0x48 4 < 2 ^ 31) &&
  zeros b 0x4C 20

/-- TR_PIPE: the two pipelines of R492, with some stage of the train pipeline on a live engine. -/
def trPipeOk (d : Dev) (b : List Byte) : Bool :=
  let stages := fun (p : Nat) => (allStages (activeCfg d)).filter (fun s => s.2.pipe == p)
  let tp := fieldAt b 0 1
  let rp := fieldAt b 1 1
  (activeSlot d).isSome && (pipeOf d tp).any (fun p => decide (p.slot < 64)) && (pipeOf d rp).any (fun p => p.slot == 0xFF) &&
  (stages rp).all (fun s => s.2.inTok.all (fun t => t == 0)) &&
  (stages tp).any (fun s => engState d (hostOf d s.1 s.2.id) == 2)

/-- An entry of OBJ_WORK's layer table (R479): D_IN, D_OUT, A_TILE, B_TILE. -/
structure Layer where
  din : Nat
  dout : Nat
  atile : Nat
  btile : Nat
deriving DecidableEq, Repr

/-- Tiles of a tensor in the form of R480: blocks of 128 inputs by 32 outputs, then record groups of 256 bytes. -/
def formTiles (inputs outputs : Nat) : Nat :=
  let g := ceilDiv outputs 32
  ceilDiv (ceilDiv inputs 128 * g) 4 + ceilDiv (256 * g) 16384

/-- Header and layers of an inference form, if they are in range (R478, R479): every tensor lies in the form's tiles after the layer table. -/
def layersOk (b : List Byte) (size : Nat) : Option (Nat × Nat × List Layer) :=
  let n := fieldAt b 6 2
  let rank := fieldAt b 8 2
  let total := fieldAt b 0x0C 4
  let ls := (List.range n).map (fun i =>
    let o := 0x40 + 32 * i
    (⟨fieldAt b (o + 4) 4, fieldAt b (o + 8) 4, fieldAt b (o + 12) 4, fieldAt b (o + 16) 4⟩ : Layer))
  let dim := fun (x : Nat) => decide (128 ≤ x) && decide (x ≤ 65536) && x % 128 == 0
  let fits := fun (t len : Nat) => decide (ceilDiv (0x40 + 32 * n) 16384 ≤ t) && decide (t + len ≤ total)
  if fieldAt b 0 4 = 0xB1C3AD0A ∧ fieldAt b 4 2 = 0x0100 ∧ 1 ≤ n ∧ n ≤ 512 ∧ 1 ≤ rank ∧ rank ≤ 256 ∧
      fieldAt b 0x0A 2 / 1024 % 32 < 31 ∧ 1 ≤ total ∧ total ≤ size ∧ zeros b 0x10 48 = true ∧
      ls.all (fun l => dim l.din && dim l.dout && fits l.atile (formTiles l.din rank) && fits l.btile (formTiles rank l.dout)) = true ∧
      (List.range n).all (fun i => zeros b (0x42 + 32 * i) 2 && zeros b (0x54 + 32 * i) 12) = true
  then some (rank, total, ls) else none

/-- Records of engine `k` in the shards of a side (R224, R370, R488): groups of 64 for W4 stages, else 32, whole groups of zeros at
the end being padding. -/
def engRecords (d : Dev) (n s k pipe : Nat) : List (Nat × Nat) :=
  let w4 := ((cfgStages (activeCfg d) k).find? (fun x => x.valid && x.pipe == pipe && x.wsrc == n && x.mx != 0)).any
    (fun x => x.mx == 2 || x.mx == 4)
  let per := if w4 then 64 else 32
  let shards := (sideOf d n s).shards.filter (fun m => m.engine == k)
  let groups : List (Nat × Nat) := shards.flatMap (fun m => (List.range ((m.len - m.recOff) / 512)).map (fun g => (m.id, m.recOff + 512 * g)))
  let blank := fun (q : Nat × Nat) => match extTile (shardExts d n s q.1) (q.2 / 16384) with
    | some a => (rawBytes d (a + q.2 % 16384) (4 * per)).all (fun b => b == 0)
    | none => false
  let keep := groups.zipIdx.filter (fun (p : (Nat × Nat) × Nat) => !((groups.drop p.2).all (fun q => q.1 != p.1.1 || blank q)))
  keep.flatMap (fun p => (List.range per).map (fun i => (p.1.1, p.1.2 + 4 * i)))

/-- Tiles that OBJ_BSCALE needs (R488). -/
def bscaleTiles (d : Dev) (n s pipe : Nat) : Nat :=
  (List.range 16).foldl (fun t k => t + ceilDiv (2 * (engRecords d n s k pipe).length) 16384) 0

/-- TR_OBJ without the sizes that the layer table gives: every object placed, of KIND DATA, with the parity of R485. -/
def trObjBasic (d : Dev) (b : List Byte) : Bool :=
  (List.range 6).all (fun i => match tmObj d (descObj b i) with
    | some o => o.kind == 0 && decide (1 ≤ o.size) && (decide (2 < i) || o.size % 2 == 0)
    | none => false)

/-- TR_OBJ for the sizes of R486 to R488 and R491. -/
def trObjSizes (d : Dev) (b : List Byte) (n s : Nat) (l : Nat × Nat × List Layer) : Bool :=
  let size := fun (i : Nat) => ((tmObj d (descObj b i)).map TmObj.size).getD 0
  let els := l.2.2.flatMap (fun x => [x.din * l.1, x.dout * l.1])
  let master := els.foldl (fun t e => t + ceilDiv (2 * e) 16384) 0
  let mom := els.foldl (fun t e => t + ceilDiv e 16384) 0 + ceilDiv (4 * els.foldl (fun t e => t + ceilDiv e 256) 0) 16384
  let work := l.2.1 + l.2.2.foldl (fun t x => t + formTiles l.1 x.din + formTiles x.dout l.1) 0
  decide (2 * master ≤ size 0) && decide (2 * mom ≤ size 1) && decide (2 * mom ≤ size 2) && decide (work ≤ size 3) &&
    decide (bscaleTiles d n s (fieldAt b 0 1) ≤ size 5)

/-- The header granule and layer table of OBJ_WORK. -/
def workHeader (b : List Byte) (d : Dev) : (List Byte × Bool) × Dev :=
  objRead' (descObj b 3) 0 (min 16448 (16384 * ((tmObj d (descObj b 3)).map TmObj.size).getD 0)) d

/-- The checks of R516 from TR_FIELD to TR_LAYOUT, in table order; TR_OBJ counts the sizes only under a table that is in range. -/
def trCheck (b : List Byte) (d : Dev) : Nat × Dev :=
  if trFieldOk d b = false then (0x80, d)
  else if d.train.isSome then (0x81, d)
  else if trPipeOk d b = false then (0x82, d)
  else
    let n := (pipeSlot d (fieldAt b 0 1)).getD 0
    match liveSide d n with
    | none => (0x83, d)
    | some s =>
      if slotUnavail d n then (0x83, d)
      else if mhas d.slots.sessions (sessKey n (fieldAt b 4 2)) ∨ d.slots.sessions.length ≥ 4096 then (0x84, d)
      else if trObjBasic d b = false then (0x85, d)
      else
        let r := workHeader b d
        match layersOk r.1.1 (((tmObj d (descObj b 3)).map TmObj.size).getD 0) with
        | none => (0x86, r.2)
        | some l => if trObjSizes d b n s l then (0, r.2) else (0x85, r.2)

/-! ### The run (R494 to R498, R510, R511) -/

def setTrain (t : TrainRun) (d : Dev) : Dev := { d with train := some t }

/-- Show the run in ARB_TR_STAT, ARB_TR_STEP and ARB_TR_T. -/
def trShow (d : Dev) : Dev :=
  match d.train with
  | none => d |> sf Reg.ARB_TR_STAT F.ARB_TR_STAT_BUSY 0 |> sf Reg.ARB_TR_STAT F.ARB_TR_STAT_PHASE 0
  | some t =>
    d |> sf Reg.ARB_TR_STAT F.ARB_TR_STAT_BUSY 1 |> sf Reg.ARB_TR_STAT F.ARB_TR_STAT_PHASE t.phase
      |> sf Reg.ARB_TR_STAT F.ARB_TR_STAT_HANDLE t.h.handle |> sf Reg.ARB_TR_STEP F.ARB_TR_STEP_DONE t.done
      |> sf Reg.ARB_TR_T F.ARB_TR_T_T (fieldAt t.desc 0x0C 4 + t.done)

/-- A train-run completes with a code (R494 step 5, R511, R516, R602). -/
def trEnd (code obj : Nat) (d : Dev) : Dev :=
  match d.train with
  | none => d
  | some t =>
    let d := if t.built then sessClose t.slot (fieldAt t.desc 4 2) d else d
    let d := trShow { d with train := none } |> sf Reg.ARB_TR_STAT F.ARB_TR_STAT_CODE code |> raise 100
    finish t.h code t.done ((fieldAt t.desc 0x0C 4 + t.done) % 2 + 65536 * obj) d

/-- The step record of the next train batch (R489, R490), written to tile 0 of OBJ_CONST. -/
def stepRecord (t : TrainRun) (d : Dev) : Dev :=
  let f := fieldAt t.desc
  let n := f 0x0C 4 + t.done + 1
  let seed := f 0x10 4 ^^^ (0x85EBCA6B * n % 2 ^ 32)
  let b := leBytes 4 n ++ leBytes 4 (f 0x38 4) ++ leBytes 4 (f 0x3C 4) ++ leBytes 4 (oneMinus (f 0x3C 4)) ++
    leBytes 4 (f 0x40 4) ++ leBytes 4 (oneMinus (f 0x40 4)) ++ leBytes 4 (f 0x44 4) ++ leBytes 4 (f 0x48 4) ++
    leBytes 4 (biasCorr (f 0x3C 4) n) ++ leBytes 4 (biasCorr (f 0x40 4) n) ++ leBytes 4 seed ++ List.replicate 20 0
  objWrite (descObj t.desc 4) 0 b false d

/-- Admit the run's next batch if its pipeline admits (R494): a refresh batch, or the train batch of the next step. -/
def trAdmit (d : Dev) : Dev :=
  match d.train with
  | none => d
  | some t =>
    if t.out ∨ (t.phase ≠ 2 ∧ t.phase ≠ 3) then d
    else
      let f := fieldAt t.desc
      let p := if t.needRefresh then f 1 1 else f 0 1
      if (pipeOf d p).isNone ∨ canAdmit d p = false ∨ (pipeSt d p).unavail.isSome then d
      else if t.needRefresh then
        admitBatch p { pipe := p, seqs := 1, sflags := 0, session := 0, adapter := 0xFFFF, entryAddr := 0,
                       entryLen := [0, 0, 0, 0], exitAddr := 0, exitLen := 0 } .refresh (setTrain { t with out := true } d)
      else
        let first := ((pipeOf d p).map (fun c => (List.range 4).map (fun i =>
          if c.entry.getD i 0xFFFF != 0xFFFF && (c.entry.take i).all (fun r => r == 0xFFFF) then f 0x14 4 else 0))).getD []
        let out := f 0x20 8
        let st : StartP := { pipe := p, seqs := f 6 1, sflags := 0, session := f 4 2, adapter := 0xFFFF,
                             entryAddr := f 0x18 8 + t.done * f 0x14 4, entryLen := first,
                             exitAddr := if out = 0 then 0 else out + t.done * f 0x28 4, exitLen := f 0x28 4 }
        admitBatch p st (.train t.done) (setTrain { t with out := true } (stepRecord t d))

/-- The run goes on after a batch, or on RESUME: what its state asks for next (R494, R495, R498, R510, R511, R513). -/
def trNext (d : Dev) : Dev :=
  match d.train with
  | none => d
  | some t =>
    if t.out then d
    else if t.poison.isSome then trEnd 0x89 (t.poison.getD 0) d
    else if t.needRefresh && !(t.phase == 2 && (t.adjourn || t.resign)) then trAdmit (trShow d)
    else if t.resign then trEnd 0x8D 0 d
    else if t.changed then trEnd 0x8A 0 d
    else if t.adjourn then
      trShow (setTrain { t with phase := 5 } d) |> opAdjourned t.h t.done (fieldAt t.desc 8 4) true
    else if t.done ≥ fieldAt t.desc 8 4 then
      if fieldAt t.desc 7 1 % 2 = 1 then trShow (setTrain { t with phase := 4 } d) else trEnd 0 0 d
    else trAdmit (trShow (setTrain { t with phase := 3 } d))

/-- A batch of the run has completed (R485, R494, R496). -/
def trBatchDone (b : Batch) (d : Dev) : Dev :=
  match d.train with
  | none => d
  | some t =>
    if b.resigned then trEnd 0x89 0 (setTrain { t with out := false } d)
    else
      match b.src with
      | .train _ =>
        let d := trShow (setTrain { t with out := false, done := t.done + 1, needRefresh := true } d)
        if b.exitOver then trEnd 0x88 0 d else trNext d
      | _ => trNext (setTrain { t with out := false, needRefresh := false } d)

/-- A hold that ended while the run was adjourned ends the run (R498). -/
def trPoke (d : Dev) : Dev :=
  match d.train with
  | some t => if t.changed && t.phase == 5 then trEnd 0x8A 0 d else d
  | none => d

/-- A TRAIN command (R492, R493): the descriptor is read and checked, and OBJ_BSCALE is started. -/
def xTrain (h : CmdHdr) (addr : Nat) (d : Dev) : Dev :=
  let d := cmdIn h d
  if h.flags > 7 ∨ addr % 32 ≠ 0 ∨ addr ≥ 2 ^ 53 then finish h 0xC2 0 0 d
  else
    let r := masterRead 0x23 addr 96 d
    match r.1 with
    | .ok _ true => finish h 0xC1 0 0 (consumeRead 7 0x23 addr 96 r.2)
    | x =>
      if mhas r.2.rings.ops h.handle then finish h 0xCB 0 0 r.2
      else
        let b := match x with
          | .ok bs _ => bs
          | .err _ => List.replicate 96 0xFF
        let c := trCheck b r.2
        if c.1 ≠ 0 then
          let d := if c.1 = 0x81 then c.2 else sf Reg.ARB_TR_STAT F.ARB_TR_STAT_CODE c.1 c.2 |> raise 100
          finish h c.1 0 0 d
        else
          let n := (pipeSlot c.2 (fieldAt b 0 1)).getD 0
          let s := (liveSide c.2 n).getD 0
          let d := opOpen h .running c.2
          trShow (setTrain { h := h, desc := b, slot := n, side := s } d)

/-- OBJ_BSCALE has been built (R488): a scale that leaves the binary16 range ends the run, else it opens its session and admits the
first refresh batch (R494). -/
def trSetup (d : Dev) : Dev :=
  match d.train with
  | none => d
  | some t =>
    if t.phase ≠ 1 then d
    else
      let sess := fieldAt t.desc 4 2
      let build := (List.range 16).foldl (fun (acc : (Nat × Bool) × Dev) k =>
        let rs := engRecords acc.2 t.slot t.side k (fieldAt t.desc 0 1)
        let w := rs.zipIdx.foldl (fun (a : Bool × Dev) (q : (Nat × Nat) × Nat) =>
          match extTile (shardExts a.2 t.slot t.side q.1.1) (q.1.2 / 16384) with
          | none => a
          | some la =>
            let r := readMem (la + q.1.2 % 16384) 4 a.2
            let v := to16 (recScale (leNat r.1.1))
            (a.1 || v % 32768 == 0 || decide (0x7C00 ≤ v % 32768),
             objWrite (descObj t.desc 5) (16384 * acc.1.1 + 2 * q.2) (leBytes 2 v) r.1.2 r.2)) (acc.1.2, acc.2)
        ((acc.1.1 + ceilDiv (2 * rs.length) 16384, w.1), w.2)) ((0, false), d)
      let d := build.2
      if build.1.2 then trEnd 0x87 0 d
      else if mhas d.slots.sessions (sessKey t.slot sess) ∨ d.slots.sessions.length ≥ 4096 then trEnd 0x84 0 d
      else if t.resign then trEnd 0x8D 0 d
      else
        let d := setSessions (mput d.slots.sessions (sessKey t.slot sess) { side := some t.side }) d
        trNext (setTrain { t with built := true, phase := 2 } d)

/-- ADJOURN of the run (R510). -/
def trAdjourn (d : Dev) : Dev :=
  match d.train with
  | none => d
  | some t =>
    let d := setTrain { t with adjourn := true } d
    if t.out || t.phase == 1 || t.phase == 4 then d else trNext d

/-- RESUME of the run (R510). -/
def trResume (d : Dev) : Dev :=
  match d.train with
  | none => d
  | some t => trNext (setTrain { t with adjourn := false, phase := if t.done = 0 ∧ t.needRefresh = true then 2 else 3 } d)

/-- RESIGN of the run (R511). -/
def trResign (d : Dev) : Dev :=
  match d.train with
  | none => d
  | some t =>
    let d := setTrain { t with resign := true, adjourn := false } d
    if t.phase == 4 then trEnd 0x8D 0 d else if t.out || t.phase == 1 then d else trNext d

/-! ### Holding and replaying (R117, R541, R555, R556) -/

/-- Replay a held batch: its entry data re-enters the pipeline behind the flows admitted so far, with the batch's number, side and
halves (R512, R556). -/
def batchReplay (p seq : Nat) (d : Dev) : Dev :=
  match (pipeSt d p).batches.find? (fun b => b.seq == seq), heldOf d p seq with
  | some b, some (i, e) =>
    if e.replaying then d
    else
      let d := { d with arb := { d.arb with held := mput d.arb.held i { e with replays := min 15 (e.replays + 1), replaying := true } } }
      let d := batchUpd p seq (fun b => { b with held := false }) d
      entryWrite p seq b.start d
  | _, _ => d

/-- Hold every ended batch of a pipeline whose exit items carried poison (R541) or whose committed adapter has failed (R508). -/
def holdEnded (p : Nat) (d : Dev) : Dev :=
  ((pipeSt d p).batches.filter (fun b => b.ended && (b.poisoned || adapterGone d b) && !b.held && !b.resigned)).foldl (fun d b => batchHold p b d) d

/-- Complete the batches at the head of a pipeline that have ended, in admission order (R117, R555); `fuel` bounds them. -/
def releaseHead : Nat → Nat → Dev → Dev
  | 0, _, d => d
  | fuel + 1, p, d =>
    match (pipeSt d p).batches with
    | [] => d
    | b :: _ =>
      if !b.ended || b.held then d
      else
        let d := batchLeave p b d
        let d := match b.src with
          | .start h => batchCpl h b (if b.resigned then 0xC9 else if b.exitOver then 0xCA else 0) d
          | _ => trBatchDone b d
        releaseHead fuel p d

/-- Batches of a pipeline whose end marks have reached its COMPLETE endpoint complete or are held (BATCH_COMPLETE). -/
def batchComplete (p : Nat) (d : Dev) : Dev := releaseHead 16 p (holdEnded p (qzSettle d))

/-- Resign a held batch (R559): it ends with BATCH_RESIGNED in its place, which may release those behind it. -/
def heldResign (p seq : Nat) (d : Dev) : Dev :=
  let d := batchUpd p seq (fun b => { b with held := false, ended := true, resigned := true }) d |> heldDrop p seq
  releaseHead 16 p d

/-! ### Commit (R505 to R509) -/

/-- The commit has been copied and digested: in cycle C the adapter attaches to the run's side. -/
def trCommit (d : Dev) : Dev :=
  match d.train with
  | none => d
  | some t =>
    if t.phase ≠ 4 then d
    else
      let id := fieldAt t.desc 2 2
      let x := sideOf d t.slot t.side
      let old := mget x.ads id
      let r := objRead' (descObj t.desc 3) 0 16384 d
      let tiles := fieldAt r.1.1 0x0C 4
      let d := r.2
      if old.isNone && decide (residentAds d ≥ 1024) then trEnd 0x8B 0 d
      else
        match dramFit d (extsNow d) (adapterSpans d) tiles, freeObj d [] with
        | some loc, some n =>
          let q := objRead' (descObj t.desc 3) 0 (16384 * tiles) d
          if q.1.2 then trEnd 0x89 (descObj t.desc 3) q.2
          else
            let d := writeMem (dramBase + loc) q.1.1 false q.2
            let d := { d with tm := { d.tm with objs := mput d.tm.objs n { kind := 2, flags := 0, size := tiles, back := dramBase + loc } } }
            let v : AdVer := { obj := n, tiles := tiles, shards := [], digest := sha512 q.1.1, commit := true }
            let d := sideUpd t.slot t.side (fun x => { x with ads := mput x.ads id v, old := x.old ++ old.toList }) d
            let d := oldAdapters t.slot t.side d
            let waiting := d.arb.held.filter (fun e => e.2.reason == 1)
            let d := waiting.foldl (fun d e =>
              match (pipeSt d e.2.pipe).batches.find? (fun b => b.seq == e.2.seq) with
              | some b =>
                if b.slot == t.slot && b.side == t.side && b.adapter == id then
                  batchReplay e.2.pipe e.2.seq (batchUpd e.2.pipe e.2.seq (fun b => { b with adObj := some n }) d)
                else d
              | none => d) d
            trEnd 0 0 (oldAdapters t.slot t.side d)
        | _, _ => trEnd 0x8C 0 d

/-! ### Items that become presentable (R174, R60, R123, R631) -/

/-- The route out of a MEZZ endpoint can take an item (R19). -/
def mezzTakes (d : Dev) (e id : Nat) : Bool :=
  (routeBySrc d e).any (fun r => r != id && (mget d.fifos r).any (fun f => f.backlog.isEmpty && fifoCanWrite f))

/-- Does destination `k` of a route wait on an empty head (R192)? An engine port while a stage whose batch is not finished lacks tokens there,
COMPLETE while a batch of its pipeline has not ended, another consumer while it is ready for an item. -/
def fifoWaits (d : Dev) (id k : Nat) (f : Fifo) (x : FDst) : Bool :=
  !f.stall && decide (f.rel ≤ x.pres) &&
    match epKind f.dst with
    | 1 =>
      let p := epPort f.dst
      !(portEnded x) && ((cfgStages (activeCfg d) k).filter Stg.valid).any (fun s =>
        let n := s.inTok.getD p 0
        let t := takeTok n (x.lead.toList ++ x.shown)
        n != 0 && decide ((stageRt d (stKey k s.id)).cur < (mgetD d.pipes s.pipe {}).nextFlow) && decide (t.length < n) &&
          (t.getLast?.map Item.fin) != some true)
    | 7 => (mgetD d.pipes (epPort f.dst) {}).batches.any (fun b => !b.ended)
    | 3 => linkTakes d (epInst f.dst) (epPort f.dst)
    | _ => mezzTakes d f.dst id

/-- A destination of a route has waited on an empty head beyond FIFO_STARVE_TMO: reported once for each wait (R192). -/
def fifoStarve (id : Nat) (d : Dev) : Dev :=
  match mget d.fifos id with
  | none => d
  | some f =>
    let new := f.dsts.any (fun p => fifoWaits d id p.1 f p.2 && !p.2.starved)
    setFifo id { f with dsts := mmap f.dsts (fun k x => { x with starved := fifoWaits d id k f x }) } d
      |> whenB new (fun d => sf (Reg.FIFO_STAT id) F.FIFO_STAT_STARVED 1 d |> raise 86)

/-- An item becomes presentable at a destination: an engine port shows it to its stage, the other consumers take it while they can. -/
def itemPresent (id k : Nat) (upset : ErrPat) (d : Dev) : Dev :=
  match mget d.fifos id with
  | none => d
  | some f =>
    let take := fun (g : Item → Dev → Dev) =>
      match fifoPresent id k upset d with
      | (some it, d) => fifoRead id k 1 d |> g it
      | (none, d) => d
    match epKind f.dst with
    | 1 => (fifoPresent id k upset d).2
    | 7 => take (fun it d => exitItem (epPort f.dst) it d)
    | 3 => if linkTakes d (epInst f.dst) (epPort f.dst) then take (fun it d => linkItem (epInst f.dst) (epPort f.dst) it d) else d
    | _ =>
      match routeBySrc d f.dst with
      | some r => if mezzTakes d f.dst id then take (fun it d => fifoSend r [it] d) else d
      | none => d

end Sys2Proof.Machine
end

