-- ==== Sys2Proof/Machine/Rings.lean ====
section
/-! DEFINITION. Command rings (spec 15, R584 to R617): doorbells, enabling, dispatch and its checks, the ring controller's own
commands, adjourning and resigning of long operations, stalls, progress and moderation. -/

namespace Sys2Proof.Machine

def setRings (r : Rings) (d : Dev) : Dev := { d with rings := r }

/-! ### Views that commands return (R412, R606) -/

/-! ### Doorbells (R585 to R587) -/

def ring32 (a b : Nat) : Nat := (a + 2 ^ 32 - b % 2 ^ 32) % 2 ^ 32

/-- Writing RING_CMD_TAILn (R586). -/
def cmdTailWrite (n v : Nat) (d : Dev) : Dev :=
  if ring32 v (gf d (Reg.RING_CMD_HEAD n) F.RING_CMD_HEAD_INDEX) > 2 ^ gf d (Reg.RING_CFG n) F.RING_CFG_CMD_LOG2 then
    sf (Reg.RING_STAT n) F.RING_STAT_TAIL_ERR 1 d
  else sf (Reg.RING_CMD_TAIL n) F.RING_CMD_TAIL_INDEX v d

/-- The held completions of a ring are written as far as there is room; a ring that has room may stall again (R593). -/
def completionRelease (n : Nat) (d : Dev) : Dev :=
  let d := cplDrain (mgetD d.rings.held n []).length n d
  if cplFull d n then d else setRings { d.rings with stalled := mdel d.rings.stalled n } d

/-- Writing RING_CPL_HEADn (R587). -/
def cplHeadWrite (n v : Nat) (d : Dev) : Dev :=
  let h := gf d (Reg.RING_CPL_HEAD n) F.RING_CPL_HEAD_INDEX
  let t := gf d (Reg.RING_CPL_TAIL n) F.RING_CPL_TAIL_INDEX
  if ring32 v h > ring32 t h then sf (Reg.RING_STAT n) F.RING_STAT_HEAD_ERR 1 d
  else sf (Reg.RING_CPL_HEAD n) F.RING_CPL_HEAD_INDEX v d |> completionRelease n

/-! ### Enabling (R584, R589 to R591) -/

/-- A ring's base and LOG2 satisfy R584. -/
def ringBaseOk (d : Dev) (a lg : Nat) : Bool :=
  decide (4 ≤ lg) && decide (lg ≤ 16) && a % 4096 == 0 && decide (dramBase ≤ a) && decide (a < dramBase + dramTop d)

/-- RING_CFGn.EN set (R589). -/
def ringEnable (n : Nat) (d : Dev) : Dev :=
  if gb d (Reg.RING_CFG n) F.RING_CFG_EN then d
  else
    let ok := ringBaseOk d (gf d (Reg.RING_CMD_BASE n) F.RING_CMD_BASE_ADDR) (gf d (Reg.RING_CFG n) F.RING_CFG_CMD_LOG2) &&
      ringBaseOk d (gf d (Reg.RING_CPL_BASE n) F.RING_CPL_BASE_ADDR) (gf d (Reg.RING_CFG n) F.RING_CFG_CPL_LOG2)
    if !ok then sf (Reg.RING_STAT n) F.RING_STAT_CAUSE 3 d
    else
      let fresh := fun (d : Dev) =>
        let lost := (mgetD d.rings.held n []).filter (fun c => !c.progress)
        let d := d |> wr (Reg.RING_CMD_HEAD n) 0 |> wr (Reg.RING_CMD_TAIL n) 0 |> wr (Reg.RING_CPL_HEAD n) 0
          |> wr (Reg.RING_CPL_TAIL n) 0 |> sf (Reg.RING_STAT n) F.RING_STAT_WAIT_ADMIT 0
        let d := lost.foldl (fun d c => opFinish c d) d
        let w := if mhas d.rings.waiting n then 1 else 0
        setRings { d.rings with held := mdel d.rings.held n, waiting := mdel d.rings.waiting n,
                                order := d.rings.order.filter (fun r => r != n),
                                outst := mput d.rings.outst n (mgetD d.rings.outst n 0 - w) } d
      let d := if mhas d.rings.kept n then d else fresh d
      setRings { d.rings with kept := mput d.rings.kept n () } (sf (Reg.RING_CFG n) F.RING_CFG_EN 1 d) |> completionRelease n

/-- RING_CFGn.EN cleared (R590). -/
def ringDisable (n : Nat) (d : Dev) : Dev := sf (Reg.RING_CFG n) F.RING_CFG_EN 0 d

/-- A base or LOG2 of a ring has been written: the next enable starts afresh (R589). -/
def ringChanged (n : Nat) (d : Dev) : Dev := setRings { d.rings with kept := mdel d.rings.kept n } d

/-! ### The ring controller's own commands (R595, R602, R605) -/

/-- NOP. -/
def nopCmd (h : CmdHdr) (d : Dev) : Dev := finish h (if h.handle ≠ 0 ∨ h.flags > 7 then 0xC2 else 0) 0 0 (cmdIn h d)

/-- QUERY (R602). -/
def queryCmd (h : CmdHdr) (kind index : Nat) (d : Dev) : Dev :=
  let d := cmdIn h d
  if h.handle ≠ 0 ∨ h.flags > 7 ∨ kind > 2 ∨ (kind = 1 ∧ index > 63) then finish h 0xC2 0 0 d
  else if kind = 0 then
    match mget d.rings.ops index with
    | none => finish h 0xCC 0 0 d
    | some e =>
      let n := match e.hdr.opcode, d.train, d.le.run with
        | 0x30, some t, _ => if t.h = e.hdr then t.done else 0
        | 0x10, _, some r => if r.h = e.hdr then (rd d Reg.LE_PROGRESS).toNat else 0
        | _, _, _ => 0
      finish h 0 (opEntView d index) n d
  else if kind = 1 then
    finish h 0 (slotStatView d index) (sideRefView d index 0 + sideRefView d index 1 * 2 ^ 32) d
  else finish h 0 (rd d Reg.IMG_FP).toNat (rd d Reg.IMG_FP_SEQ).toNat d

/-! ### Long operations (R606 to R611) -/

/-- The castle of a command, by its slot. -/
def castleOf (d : Dev) (h : CmdHdr) : Option Nat := (d.slots.castles.find? (fun c => c.2.h == h)).map (fun c => c.1)

def opSet (t : Nat) (f : OpEnt → OpEnt) (d : Dev) : Dev :=
  match mget d.rings.ops t with
  | some e => setRings { d.rings with ops := mput d.rings.ops t (f e) } d
  | none => d

/-- Set the adjourn flag of a load that waits. -/
def loadMark (h : CmdHdr) (v : Nat) (d : Dev) : Dev :=
  { d with le := { d.le with queue := d.le.queue.map (fun r => if r.h = h then { r with adj := v } else r) } }

/-- ADJOURN (R607, R609). -/
def adjournCmd (h : CmdHdr) (t : Nat) (d : Dev) : Dev :=
  let d := cmdIn h d
  if h.handle ≠ 0 ∨ h.flags > 7 then finish h 0xC2 0 0 d
  else
    match mget d.rings.ops t with
    | none => finish h 0xCC 0 0 d
    | some e =>
      let st := opCode e.state
      if e.hdr.opcode ≠ 0x10 ∧ e.hdr.opcode ≠ 0x30 then finish h 0xCD st 0 d
      else
        match e.state with
        | .queued =>
          finish h 0 st 0 (opSet t (fun e => { e with state := .adjourned, adjQueued := true }) d |> loadMark e.hdr 2)
        | .running =>
          if e.hdr.opcode = 0x10 then finish h 0 st 0 (loadAdjourn 2 d)
          else finish h 0 st 0 (trAdjourn (opState e.hdr .adjourning d))
        | _ => finish h 0xCE st 0 d

/-- RESUME (R607): an operation adjourned before it started waits again. -/
def resumeCmd (h : CmdHdr) (t : Nat) (d : Dev) : Dev :=
  let d := cmdIn h d
  if h.handle ≠ 0 ∨ h.flags > 7 then finish h 0xC2 0 0 d
  else
    match mget d.rings.ops t with
    | none => finish h 0xCC 0 0 d
    | some e =>
      let st := opCode e.state
      if e.state ≠ .adjourned then finish h 0xCE st 0 d
      else if e.adjQueued then
        finish h 0 st 0 (opSet t (fun e => { e with state := .queued, adjQueued := false }) d |> loadMark e.hdr 0)
      else if e.hdr.opcode = 0x10 then finish h 0 st 0 (loadResume d)
      else finish h 0 st 0 (trResume (opState e.hdr .running d))

/-- A queued operation that resigns leaves its executor's queue and ends with its resign code (R609, R611). -/
def resignQueued (e : OpEnt) (d : Dev) : Dev :=
  let h := e.hdr
  match h.opcode with
  | 0x10 => finish h 0x16 0 0 { d with le := { d.le with queue := d.le.queue.filter (fun r => r.h != h) } }
  | 0x40 =>
    finish h 0x1C 0 0 { d with img := { d.img with queue := d.img.queue.filter (fun c =>
      match c with | .load g _ _ => g != h | .act _ _ => true) } }
  | 0x11 => finish h 0x46 0 0 d
  | 0x30 => finish h 0x8D 0 0 d
  | _ => finish h 0xD1 0 0 d

/-- RESIGN (R607, R609). -/
def resignCmd (h : CmdHdr) (t : Nat) (d : Dev) : Dev :=
  let d := cmdIn h d
  if h.handle ≠ 0 ∨ h.flags > 7 then finish h 0xC2 0 0 d
  else
    match mget d.rings.ops t with
    | none => finish h 0xCC 0 0 d
    | some e =>
      let st := opCode e.state
      let op := e.hdr.opcode
      let waits := e.state == .queued || e.adjQueued
      if op = 0x41 ∨ (op = 0x50 ∧ e.state ≠ .queued) then finish h 0xD2 st 0 d
      else if e.state = .resigning ∨ e.state = .done ∨ e.state = .resigned then finish h 0xCE st 0 d
      else if waits then finish h 0 st 0 (resignQueued e d)
      else
        let d := opState e.hdr .resigning d
        let d := match op with
          | 0x10 => loadResign d
          | 0x30 => trResign d
          | 0x40 => imgAbort d
          | _ => match castleOf d e.hdr with
            | some n => castleStop n 0x46 d
            | none => d
        finish h 0 st 0 d

/-! ### Commands of other executors as the ring hands them over (R594, R595, R600) -/

/-- A command with a field out of range, or a reserved bit of FLAGS set (R594), ends with CMD_FIELD. -/
def fieldCmd (h : CmdHdr) (bad : Bool) (f : Dev → Dev) (d : Dev) : Dev :=
  if bad || decide (h.flags > 7) then finish h 0xC2 0 0 (cmdIn h d) else f d

/-- LOAD: the lists of codes and the address and namespace rules of R595. -/
def loadCmd (h : CmdHdr) (addr len slot side kind nsid : Nat) : Dev → Dev :=
  fieldCmd h (decide (side > 1) || decide (kind > 1) || (kind == 0 && (addr % 32 != 0 || decide (addr ≥ 2 ^ 53) || nsid != 0)) ||
    (kind == 1 && nsid == 0)) (xLoad h addr len slot side kind nsid)

/-- CASTLE. -/
def castleCmd (h : CmdHdr) (slot flags barrier : Nat) : Dev → Dev :=
  fieldCmd h (decide (flags > 7)) (xCastle h slot flags barrier)

/-- RELEASE. -/
def releaseRow (h : CmdHdr) (slot side : Nat) : Dev → Dev := fieldCmd h (decide (side > 1)) (releaseCmd h slot side)

/-- TM_OP (R451, R600), or an operation of another source. -/
def tmCmd (s : TmSrc) (t : TmDesc) : Dev → Dev :=
  match s with
  | .ring h => fieldCmd h (h.handle != 0) (tmRow s t)
  | _ => tmRow s t

/-- IMG_LOAD. -/
def imgLoadCmd (h : CmdHdr) (src len : Nat) : Dev → Dev := fieldCmd h false (imgCmd h (.load h src len))

/-- IMG_ACTIVATE. -/
def imgActCmd (h : CmdHdr) (en barrier : Nat) : Dev → Dev :=
  fieldCmd h (decide (en > 1)) (imgCmd h (.act h (if en = 1 then some barrier else none)))

/-- CENSUS as a long operation. -/
def censusCmd (h : CmdHdr) (expect : Nat) : Dev → Dev :=
  fieldCmd h false (longCmd h (fun d => xCensus h expect (opOpen h .running d)))

/-! ### Dispatch (R592 to R595, R605) -/

/-- The bytes from 0x08 on that an opcode's payload names, as offset and length; none for an unknown opcode. -/
def payloadSpans (op : Nat) : Option (List (Nat × Nat)) :=
  match op with
  | 0x00 => some []
  | 0x01 => some [(0x08, 3), (0x0C, 4), (0x10, 36)]
  | 0x02 => some [(0x08, 1), (0x0A, 2)]
  | 0x10 => some [(0x08, 15), (0x18, 4)]
  | 0x11 => some [(0x08, 2), (0x0C, 4)]
  | 0x12 => some [(0x08, 2)]
  | 0x20 => some [(0x08, 32)]
  | 0x30 => some [(0x08, 8)]
  | 0x40 => some [(0x08, 12)]
  | 0x41 => some [(0x08, 1), (0x0C, 4)]
  | 0x50 => some [(0x08, 2)]
  | 0x60 => some [(0x08, 2)]
  | 0x70 => some [(0x08, 1)]
  | 0x71 => some [(0x08, 1)]
  | 0x72 => some [(0x08, 1)]
  | _ => none

/-- Is the opcode unknown or a reserved byte not 0 (R594, R595)? -/
def opcodeBad (b : List Byte) : Bool :=
  match payloadSpans (fieldAt b 0 1) with
  | none => true
  | some l =>
    fieldAt b 5 3 != 0 ||
    (List.range 56).any (fun i => fieldAt b (8 + i) 1 != 0 && !(l.any (fun s => s.1 ≤ 8 + i && 8 + i < s.1 + s.2)))

/-- The payload of a START (R596). -/
def startParse (b : List Byte) : StartP :=
  { pipe := fieldAt b 8 1, seqs := fieldAt b 9 1, sflags := fieldAt b 0x0A 1, session := fieldAt b 0x0C 2, adapter := fieldAt b 0x0E 2,
    entryAddr := fieldAt b 0x10 8, entryLen := (List.range 4).map (fun i => fieldAt b (0x18 + 4 * i) 4),
    exitAddr := fieldAt b 0x28 8, exitLen := fieldAt b 0x30 4 }

/-- Hand a checked entry to its executor. -/
def cmdRun (h : CmdHdr) (b : List Byte) (d : Dev) : Dev :=
  let f := fieldAt b
  match h.opcode with
  | 0x01 => startCmd h (startParse b) d
  | 0x02 => sessionCloseCmd h (f 8 1) (f 0x0A 2) d
  | 0x10 => loadCmd h (f 8 8) (f 0x10 4) (f 0x14 1) (f 0x15 1) (f 0x16 1) (f 0x18 4) d
  | 0x11 => castleCmd h (f 8 1) (f 9 1) (f 0x0C 4) d
  | 0x12 => releaseRow h (f 8 1) (f 9 1) d
  | 0x20 => tmCmd (.ring h) (tmParse ((b.drop 8).take 32)) d
  | 0x30 => xTrain h (f 8 8) d
  | 0x40 => imgLoadCmd h (f 8 8) (f 0x10 4) d
  | 0x41 => imgActCmd h (f 8 1) (f 0x0C 4) d
  | 0x50 => censusCmd h (f 8 2) d
  | 0x60 => queryCmd h (f 8 1) (f 9 1) d
  | 0x70 => adjournCmd h (f 8 1) d
  | 0x71 => resumeCmd h (f 8 1) d
  | 0x72 => resignCmd h (f 8 1) d
  | _ => nopCmd h d

/-- May ring `n` dispatch its next command: enabled, not empty, its head not waiting for admission, its completion ring not full
(R585, R590, R592, R593)? -/
def canDispatch (d : Dev) (n : Nat) : Bool :=
  gb d (Reg.RING_CFG n) F.RING_CFG_EN && !(mhas d.rings.waiting n) && !(cplFull d n) &&
  gf d (Reg.RING_CMD_HEAD n) F.RING_CMD_HEAD_INDEX != gf d (Reg.RING_CMD_TAIL n) F.RING_CMD_TAIL_INDEX

/-- Dispatch the next command of ring `n`, if it may be: fetch, checks, hand-over. A FENCE waits for the ring's earlier commands, and a
CASTLE, TRAIN or IMG_ACTIVATE for RUN (R712). -/
def dispatchRing (n : Nat) (d : Dev) : Dev :=
  if !(canDispatch d n) then d
  else
    let i := gf d (Reg.RING_CMD_HEAD n) F.RING_CMD_HEAD_INDEX
    let a := gf d (Reg.RING_CMD_BASE n) F.RING_CMD_BASE_ADDR + i % 2 ^ gf d (Reg.RING_CFG n) F.RING_CFG_CMD_LOG2 * 64
    match masterRead 0x23 a 64 d with
    | (.err _, d') => ringStop n 1 d'
    | (.ok b poison, d') =>
      let f := fieldAt b
      let h : CmdHdr := { ring := n, idx := i, tag := f 2 2, opcode := f 0 1, flags := f 1 1, handle := f 4 1 }
      if h.flags.testBit 0 && mgetD d.rings.outst n 0 != 0 then d
      else
        let d := setRings { d'.rings with last := n } d'
        if poison then finish h 0xC1 0 0 (consumeRead 7 0x23 a 64 (headPast h (cmdIn h d)))
        else if opcodeBad b then finish h 0xC0 0 0 (headPast h (cmdIn h d))
        else if (h.opcode == 0x11 || h.opcode == 0x30 || h.opcode == 0x41) && !(pmuRun d) then d
        else if h.opcode = 1 then cmdRun h b d
        else cmdRun h b (headPast h d)

/-- The ring that round robin serves next (R592): the first that may dispatch after the last one served. -/
def ringTurn (d : Dev) : Option Nat :=
  ((List.range 16).map (fun i => (d.rings.last + 1 + i) % 16)).find? (canDispatch d)

/-- COMMAND_DISPATCH: one turn of the ring controller. -/
def commandDispatch (d : Dev) : Dev :=
  match ringTurn d with
  | none => d
  | some n =>
    let d' := dispatchRing n d
    if d'.rings.last = n then d' else setRings { d'.rings with last := n } d'

/-! ### Stalls, moderation and progress (R593, R604, R612) -/

/-- The completion ring is still full after RING_CPL_TMO. -/
def cplStall (n : Nat) (d : Dev) : Dev :=
  if cplFull d n && !(mhas d.rings.stalled n) then
    setRings { d.rings with stalled := mput d.rings.stalled n () } d |> sf (Reg.RING_STAT n) F.RING_STAT_CPL_FULL 1 |> raise 113
  else d

/-- RING_MODn.US has passed since the oldest counted entry. -/
def modTimer (n : Nat) (d : Dev) : Dev :=
  if gf d (Reg.RING_MOD n) F.RING_MOD_US ≠ 0 ∧ gf d (Reg.RING_STAT n) F.RING_STAT_PENDING ≠ 0 then ringSignal n d else d

/-- RING_PROG_INT has passed for the operation with handle `t`. -/
def progressTimer (t : Nat) (d : Dev) : Dev :=
  match mget d.rings.ops t with
  | none => d
  | some e =>
    if e.state = .running ∧ e.hdr.flags.testBit 2 then
      let r := match e.hdr.opcode, d.le.run, d.train with
        | 0x10, some r, _ => ((rd d Reg.LE_PROGRESS).toNat, loadTotals r)
        | 0x30, _, some t => (t.done, fieldAt t.desc 8 4)
        | _, _, _ => (0, 0)
      complete ⟨e.hdr, 0, 0, r.1, r.2, true⟩ d
    else d

end Sys2Proof.Machine
end

