-- ==== Sys2Proof/Machine/Arb.lean ====
section
/-! DEFINITION. Failure handling by the arbiter (spec 03 and 14): held batches, reloads, migration, engine and stack loss, blocks
and DRAM tiles, the unit health table, and the scoresheet writer's programs, scan and power-fail procedure. -/

namespace Sys2Proof.Machine

def setArb (a : Arb) (d : Dev) : Dev := { d with arb := a }

/-! ### Unit health table (R570, R571) -/

/-- The arbiter writes the unit health table: powered time is saved with it. -/
def healthWrite (d : Dev) : Dev := setArb { d.arb with powered := poweredTime d, savedAt := aonTime d } d

/-- A recovery action has ended (ARB_RECOV_STAT, ARB_RECOV_DONE). -/
def recovDone (slot side shard code : Nat) (d : Dev) : Dev :=
  d |> sf Reg.ARB_RECOV_STAT F.ARB_RECOV_STAT_SLOT slot |> sf Reg.ARB_RECOV_STAT F.ARB_RECOV_STAT_SIDE side
    |> sf Reg.ARB_RECOV_STAT F.ARB_RECOV_STAT_SHARD shard |> sf Reg.ARB_RECOV_STAT F.ARB_RECOV_STAT_CODE code |> raise 104

/-! ### Held batches (R554 to R559) -/

/-- Replay a held batch and record it (R556, R575). -/
def arbReplay (p seq : Nat) (d : Dev) : Dev :=
  match heldOf d p seq with
  | some (_, e) => if e.replaying then d else batchReplay p seq d |> scoreEvent 0x0032 4 p [65536 * p + seq]
  | none => d

/-- BATCH_REPLAY: the arbiter replays a batch that it holds with reason TRANSIENT (R557). -/
def batchReplayRow (p seq : Nat) (d : Dev) : Dev :=
  match heldOf d p seq with
  | some (_, e) => if e.classified && e.reason == 2 then arbReplay p seq d else d
  | none => d

/-- ARB_HOLD_CTL.REPLAY. -/
def holdReplay (i : Nat) (d : Dev) : Dev :=
  match mget d.arb.held i with
  | some e => arbReplay e.pipe e.seq d
  | none => d

/-- ARB_HOLD_CTL.RESIGN (R559). -/
def holdResign (i : Nat) (d : Dev) : Dev :=
  match mget d.arb.held i with
  | some e => scoreEvent 0x0035 4 e.pipe [65536 * e.pipe + e.seq] d |> heldResign e.pipe e.seq
  | none => d

/-- Does an extent cover a local address? -/
def extCovers (a : Nat) (e : Extent) : Bool := decide (extAddr e ≤ a) && decide (a < extAddr e + 16384 * e.tiles)

/-- The shard of a side that an address lies in. -/
def shardAt (d : Dev) (n s a : Nat) : Option Nat :=
  ((sideOf d n s).shards.find? (fun m => (shardExts d n s m.id).any (extCovers a))).map ManShard.id

/-- Does an object's backing copy or placement cover an address? -/
def objCovers (a : Nat) (o : TmObj) : Bool :=
  (decide (o.back ≤ a) && decide (a < o.back + 16384 * o.size)) ||
  (o.upTier != 0 && decide (frameAddr o.upTier o.upEng o.upFrame ≤ a) &&
    decide (a < frameAddr o.upTier o.upEng o.upFrame + 16384 * o.upCount))

/-- The class of a held batch (R508, R554): reason, detail and the UE sequence number of the entry that decides it. -/
def heldClass (d : Dev) (b : Batch) (e : HeldB) : Nat × Nat × Nat :=
  let es := sortBy UeEnt.seq ((d.intg.ueLog.map Prod.snd).filter (fun u => decide (b.time ≤ u.time) && decide (u.time ≤ e.time)))
  let shard := es.find? (fun u => (isArrayStore u.store || u.store == 0x14) && b.slot < 64 && (shardAt d b.slot b.side u.addr).isSome)
  let gone := adapterGone d b
  let adapter := es.find? (fun u => b.adObj.any (fun n => (tmObj d n).any (objCovers u.addr)))
  let obj := fun (u : UeEnt) => d.tm.objs.find? (fun o => o.2.kind != 2 && objCovers u.addr o.2)
  let data := es.find? (fun u => u.cause == 3 || u.cause == 4 || (obj u).isSome)
  match shard, adapter, data with
  | some u, _, _ => (0, (shardAt d b.slot b.side u.addr).getD 0, u.seq)
  | none, some u, _ => (1, b.adObj.getD 0, u.seq)
  | none, none, some u => if gone then (1, b.adObj.getD 0, u.seq) else (3, ((obj u).map Prod.fst).getD 0, u.seq)
  | none, none, none => (if gone then 1 else 2, if gone then b.adObj.getD 0 else 0, (es.head?.map UeEnt.seq).getD 0)

def heldSet (i : Nat) (e : HeldB) (d : Dev) : Dev := setArb { d.arb with held := mput d.arb.held i e } d

/-! ### Reloads (R560, R561) -/

/-- Where the extents of a shard are owned: the side itself, or the other side for a shared shard (R382). -/
def shardOwner (d : Dev) (n s i : Nat) : Nat × Nat :=
  match mget (sideOf d n s).share i with
  | some t => (1 - s, t)
  | none => (s, i)

/-- The bytes of a verified copy from a shard's manifest source, or NO_SOURCE or SRC_DIGEST (R406, R561). -/
def reloadSource (r : ReloadIn) (x : Side) (m : ManShard) (d : Dev) : (Nat × List Byte) × Dev :=
  let man := if x.kind = 0 then srcRead x.addr x.len d
    else (if r.man.length = x.len then some (r.man, false) else none, d)
  match man with
  | (some (bs, false), d) =>
    if sha512 bs ≠ x.digest then ((0xA1, []), d)
    else
      let sh := if m.srcKind = 0 then srcRead m.src m.len d
        else (if r.data.length = m.len then some (r.data, false) else none, d)
      match sh with
      | (some (bs, false), d) => (if sha512 bs = m.digest then (0, bs) else (0xA1, []), d)
      | (_, d) => ((0xA0, []), d)
  | (_, d) => ((0xA0, []), d)

/-- Erase a block that does not read as erased, and program the pieces of a copy into the cells. -/
def piecesWrite (ps : List Piece) (bs : List Byte) (d : Dev) : Dev :=
  forEach ps (fun p d =>
    let d := if blockErased d p.stack p.block ∨ p.unit ≠ 0 then d
      else eraseBegin p.stack false p.block d |> eraseTarget p.stack false p.block
        |> wearUpd p.stack false p.block (fun w => { w with eOpen := false })
    rawReplace (arrayBase p.stack + unitOff d p.block p.unit) ((bs.drop p.off).take p.len) (invalidate p.stack p.block d)) d

/-- Write a verified copy of a shard to its new place. -/
def shardCopy (place : List Extent × List Piece) (bs : List Byte) (d : Dev) : Dev :=
  match place.2, place.1 with
  | [], e :: _ => writeMem (extAddr e) bs false d
  | ps, _ => piecesWrite ps bs d

/-- Put a verified copy of a shard in its new place and switch the side's extents to it in one cycle (R560 steps 3, 4 and 6): the
old quads are freed. -/
def shardSwitch (n s : Nat) (m : ManShard) (place : List Extent × List Piece) (bs : List Byte) (d : Dev) : Dev :=
  shardCopy place bs d |> copyTake ⟨n, s, m.id, place.1⟩

/-- Held batches of a slot that a shard's reload lets go (R557, R561). -/
def heldFor (d : Dev) (n i : Nat) : List HeldB :=
  (d.arb.held.map Prod.snd).filter (fun e => e.classified && (e.reason == 0 || e.reason == 5) && e.detail == i &&
    ((pipeSt d e.pipe).batches.find? (fun b => b.seq == e.seq)).any (fun b => b.slot == n))

/-- Blocks of a shard's old place that gave the uncorrectable granules of held batches are retired when they are freed. -/
def retireCulprits (n s i : Nat) (d : Dev) : Dev :=
  let es := shardExts d n s i
  let as_ := (heldFor d n i).filterMap (fun e => ((d.intg.ueLog.find? (fun u => u.2.seq == e.ue)).map (fun u => u.2.addr)))
  forEach as_ (fun a d =>
    match es.find? (fun e => !e.dram && extCovers a e) with
    | some e =>
      let b := (e.stack, pageId d (arrOff a) / 256)
      if d.arb.retire.contains b then d else setArb { d.arb with retire := d.arb.retire ++ [b] } d
    | none => d) d

/-- Admissions of a slot stay stopped while its live side has lost DRAM shards (R398). -/
def slotGo (n : Nat) (d : Dev) : Dev :=
  let lost := match liveSide d n with | some s => !(sideOf d n s).lost.isEmpty | none => false
  mslotUpd n (fun x => { x with stop := lost }) d

/-- A reload has failed with a code (R561): the slot is unavailable, and its held batches for the shard stay held. `where_` is the
owner side and shard that a retry reloads. -/
def reloadFailed (n side shard where_ code : Nat) (d : Dev) : Dev :=
  let d := mslotUpd n (fun y => { y with unavail := some (code, where_), stop := false }) d
  let d := (heldFor d n shard).foldl (fun d e =>
    match heldOf d e.pipe e.seq with
    | some (i, e) => heldSet i { e with reason := 5 } d
    | none => d) d
  scoreEvent 0x0033 5 n [n, code] d |> raise 103 |> recovDone n side shard code

/-- Reload a shard of a side (R560, R561). -/
def shardReload (r : ReloadIn) (d : Dev) : Dev :=
  let n := r.slot
  let o := shardOwner d n r.side r.shard
  let s := o.1
  let x := sideOf d n s
  match x.shards.find? (fun m => m.id == o.2) with
  | none => d
  | some m =>
    let src := reloadSource r x m d
    let d := src.2
    let id := 2 ^ 24 * n + 65536 * r.side + r.shard
    let place := placeShard d (extsNow d) (adapterSpans d) true n s m
    let code := if src.1.1 ≠ 0 then src.1.1 else if place.isNone then 0xA2 else r.fail
    let d := scoreEvent 0x0031 5 n [id, code] d
    match place, code with
    | some pl, 0 =>
      let d := retireCulprits n s o.2 d |> shardSwitch n s m pl src.1.2
      let clr := fun (y : Side) => { y with lost := mdel y.lost r.shard }
      let d := sideUpd n r.side clr (sideUpd n s (fun y => { y with lost := mdel y.lost o.2 }) d)
      let d := if (mslot d n).unavail.isSome then
          mslotUpd n (fun y => { y with unavail := none }) d |> scoreEvent 0x0034 5 n [n]
        else d
      let d := (heldFor d n r.shard ++ heldFor d n o.2).foldl (fun d e => arbReplay e.pipe e.seq d) d
      slotGo n d |> recovDone n r.side r.shard 0
    | _, _ => reloadFailed n r.side r.shard (65536 * s + o.2) code d

/-- Retry the reload of an unavailable slot (R561); `r` gives what its sources return. -/
def reloadRetry (r : ReloadIn) (d : Dev) : Dev :=
  match (mslot d r.slot).unavail with
  | some (_, i) => shardReload { r with side := i / 65536, shard := i % 65536 } d
  | none => d

/-- ARB_RECOV_CTL.RETRY_NOW: every unavailable slot is tried at once, with the source data of `rs`. -/
def retryNow (rs : List ReloadIn) (d : Dev) : Dev :=
  forN 64 (fun n d => reloadRetry ((rs.find? (fun r => r.slot == n)).getD { slot := n, side := 0, shard := 0 }) d) d

/-- Read again the shards of an adapter that verify at their sources, into its object (R557); a committed one, or one that
does not verify, is unavailable (R508). Answers whether the adapter holds good data. -/
def adapterReload (n s obj : Nat) (rs : List ReloadIn) (d : Dev) : Bool × Dev :=
  match (sideOf d n s).ads.find? (fun a => a.2.obj == obj) with
  | none => (false, d)
  | some (id, v) =>
    let gone := fun d => sideUpd n s (fun x => { x with ads := mput x.ads id { v with unavail := true } }) d
    if v.commit then (false, gone d)
    else
      let r := v.shards.foldl (fun (acc : (Bool × List Byte) × Dev) m =>
        let src := if m.srcKind = 0 then srcRead m.src m.len acc.2
          else (((rs.find? (fun r => r.shard == m.id)).map (fun r => (r.data, false))), acc.2)
        match src with
        | (some (bs, false), d) => ((acc.1.1 && sha512 bs == m.digest, acc.1.2 ++ bs), d)
        | (_, d) => ((false, acc.1.2), d)) ((true, []), d)
      if r.1.1 then
        let back := ((tmObj r.2 obj).map TmObj.back).getD 0
        (true, objWrite obj 0 r.1.2 false (writeMem back r.1.2 false r.2))
      else (false, gone r.2)

/-- ARB_HOLD_CLASSIFY of held-batch entry `i` (R554, R557): TRANSIENT replays at once, ADAPTER reloads and replays, SHARD stops
the slot's admissions until its reload, DATA stays held. `rs` gives NVMe sources of an adapter. -/
def holdClassify (i : Nat) (rs : List ReloadIn) (d : Dev) : Dev :=
  match mget d.arb.held i with
  | none => d
  | some e =>
    match (pipeSt d e.pipe).batches.find? (fun b => b.seq == e.seq) with
    | none => d
    | some b =>
      if e.classified || e.replaying then d
      else
        let c := heldClass d b e
        let d := heldSet i { e with reason := c.1, detail := c.2.1, ue := c.2.2, classified := true } d
          |> scoreEvent 0x0030 4 e.pipe [65536 * e.pipe + e.seq, c.1, c.2.2]
        match c.1 with
        | 0 => mslotUpd b.slot (fun x => { x with stop := true }) d
        | 1 =>
          let r := adapterReload b.slot b.side c.2.1 rs d
          if r.1 then arbReplay e.pipe e.seq r.2 else r.2
        | 2 => arbReplay e.pipe e.seq d
        | _ => d

/-! ### Engine loss (R158 to R163, R564) -/

/-- Descriptors and MX work that engine `h` runs now, with further stages placed on it (R158). -/
def liveLoad (d : Dev) (plan : FMap Nat) (h : Nat) : Nat × Nat :=
  let now := engStages d h
  let more := (allStages (activeCfg d)).filter (fun p => mget plan (512 * p.1 + p.2.id) == some h)
  ((cfgStages (activeCfg d) h).length + (now.filter (fun p => p.1 != h)).length + more.length,
    (now ++ more).foldl (fun t p => t + stageWork p.2) 0)

/-- Hosts for the stages that lost engine `k` runs, each bank on engines of its own (R158, R159), as in log entry 41. -/
def relocPlan (d : Dev) (k : Nat) : Option (FMap Nat) :=
  let sts := engStages d k
  let banks := (List.range 16).filter (fun b => sts.any (fun p => p.1 == b))
  let free := (List.range 16).filter (fun h => h != k && !(engLost d h) && !(gb d (Reg.ENG_RELOC h) F.ENG_RELOC_GUEST_VALID))
  let rooms := free.map (fun h => (h, 512 - (liveLoad d [] h).1))
  (deals rooms (banks.map (fun b => sts.countP (fun p => p.1 == b)))).findSome? (fun split => sts.foldl (fun acc p =>
    match acc with
    | none => none
    | some plan =>
      let j := (banks.takeWhile (fun b => b != p.1)).length
      let pool := (split.filter (fun a => a.2 == j)).map Prod.fst
      let fit := (pool.filter (fun h => decide ((liveLoad d plan h).1 < 512))).foldl (fun best h =>
        match best with
        | none => some h
        | some b => if (liveLoad d plan h).2 < (liveLoad d plan b).2 then some h else best) (none : Option Nat)
      fit.map (fun h => mput plan (512 * p.1 + p.2.id) h)) (some []))

/-- Does a granule of store 0x12 decode? -/
def cellReads (d : Dev) (i : Nat) : Bool :=
  !(poisoned d (granKey 0x12 i)) && (granDecode (List.replicate 32 0) (errOf d (granKey 0x12 i))).1 != .uncorrectable

/-- Is descriptor `id` of bank `k` of the active image served: does one of the two copies of each of its granules decode (R157)? Where the
copies lie in store 0x12 is log entry 124. -/
def descServed (d : Dev) (k id : Nat) : Bool :=
  let s := (activeSlot d).getD 0
  (List.range 8).all (fun j => (List.range 2).any (fun c => cellReads d (65536 * (2 * s + c) + 4096 * k + 8 * id + j)))

/-- The shards of an engine in every side that holds shards. -/
def engShards (d : Dev) (k : Nat) : List (Nat × Nat × Nat) :=
  (List.range 128).flatMap (fun i =>
    ((sideOf d (i / 2) (i % 2)).shards.filter (fun m => m.engine == k)).map (fun m => (i / 2, i % 2, m.id)))

def setMigrate (left : Nat) (d : Dev) : Dev :=
  d |> sf Reg.ARB_MIGRATE F.ARB_MIGRATE_LEFT left |> sf Reg.ARB_MIGRATE F.ARB_MIGRATE_BUSY (bit (left != 0))

/-- Relocation of the stages of FAILED engine `k`, whose descriptors the arbiter reads (R157, R160, R161, R163, R469, R564). -/
def arbRelocate (k : Nat) (d : Dev) : Dev :=
  if engState d k ≠ 6 ∨ gb d Reg.ARB_HEALTH ⟨48 + k, 1⟩ then d
  else
    let sts := engStages d k
    let pipes := (List.range 64).filter (fun p => sts.any (fun s => s.2.pipe == p))
    let plan := if sts.all (fun p => descServed d p.1 p.2.id) then relocPlan d k else none
    let hostMask := (plan.getD []).foldl (fun m p => m ||| 2 ^ p.2) 0
    let n := (mgetD d.arb.fails k (0, 0)).1
    let old := mgetD d.arb.fails k (0, 0)
    let off := if n ≥ 1 ∧ poweredTime d - old.2 ≤ 30 * 86400 * aonHz then mput d.arb.off k () else d.arb.off
    let d := engKill k d |> setArb { d.arb with fails := mput d.arb.fails k (n + 1, poweredTime d), off := off }
    let d := sf Reg.ARB_HEALTH ⟨48 + k, 1⟩ 1 d
      |> scoreEvent 0x0010 1 k [gf d (Reg.ENG_STAT k) F.ENG_STAT_FAULT, hostMask] |> healthWrite
    match plan with
    | some hosts =>
      let banks := (List.range 16).filter (fun b => sts.any (fun p => p.1 == b))
      let d := banks.foldl (fun d b =>
        sf (Reg.ENG_RELOC b) F.ENG_RELOC_HOST_MASK (gf d (Reg.ENG_RELOC b) F.ENG_RELOC_HOST_MASK &&& (65535 - 2 ^ k)) d) d
      let d := sf (Reg.ENG_RELOC k) F.ENG_RELOC_GUEST_VALID 0 d
      let d := relocRegs (activeCfg d) hosts d
      let d := hostPorts { d with engs := { d.engs with hosts := hosts.foldl (fun m p => mput m p.1 p.2) d.engs.hosts } }
      let d := forN 16 (fun h d =>
        if hostMask.testBit h then
          captureFit 256 h (256 - (cfgEng (activeCfg d) h).2.2 / 16384 - mgetD d.tm.guestTiles h 0) d else d) d
      let d := match activeSlot d with
        | some s => (constCopyOf (fun b => banks.contains b) s d).2
        | none => d
      let d := ((d.arb.held.map Prod.snd).filter (fun e => pipes.contains e.pipe && (!e.classified || e.reason == 2 || e.reason == 6))).foldl
        (fun d e => arbReplay e.pipe e.seq d) d
      let d := if gb d Reg.ARB_RECOV_CTL F.ARB_RECOV_CTL_MIGRATE_EN then setMigrate (engShards d k).length d else d
      recovDone 0 0 0 0 d
    | none =>
      let d := pipes.foldl (fun d p =>
        let d := pipeUpd p (fun x => { x with unavail := some k }) d
        ((pipeSt d p).batches).foldl (fun d b =>
          let e : HeldB := { pipe := p, seq := b.seq, reason := 6, detail := k, time := fastTime d, classified := true }
          let d := batchUpd p b.seq (fun b => { b with held := true }) d
          match heldOf d p b.seq with
          | some (i, x) => heldSet i { e with replays := x.replays } d
          | none => holdEnter e d) d) d
      scoreEvent 0x0012 1 k [k, pipes.foldl (fun m p => m ||| 2 ^ p) 0] d |> recovDone 0 0 0 0xA4

/-- The blocks of shard `id` of slot `n` and side `side` that a stage of lost engine `k` reads over its loop nest (R129, R370). -/
def stageBlocks (d : Dev) (k n side id : Nat) (s : Stg) : List Nat :=
  (List.range (loopTotal s.loop)).flatMap (fun q => (agsOf s 1).flatMap (fun i =>
    let o := offNat ((agAt s i).base + agOff (agAt s i) (linPos s.loop q))
    (List.range ((agAt s i).len / 4096)).filterMap (fun j =>
      match weightShard d n side k (o + 4096 * j) with
      | some (m, t) => if m.id == id && decide (t < m.recOff) then some (t / 4096) else none
      | none => none)))

/-- The host of lost engine `k` whose relocated stages read the most of a shard's blocks, the lower number on a tie. -/
def mainHost (d : Dev) (k n side id : Nat) : Option Nat :=
  let reads := fun h => (((engStages d h).filter (fun p => p.1 == k && p.2.wsrc == n)).flatMap
    (fun p => stageBlocks d k n side id p.2)).eraseDups.length
  ((List.range 16).filter (fun h => h != k && hostsBank d h k)).foldl (fun best h =>
    match best with
    | none => some h
    | some b => if reads h > reads b then some h else best) none

/-- Move a shard from its old copy: into the quads of stack `target` alone, where batches read it from a later admission on (R162), or
wherever R565 places it; a copy that does not verify is reloaded from its source instead when `again` holds. -/
def shardMove (r : ReloadIn) (target : Option Nat) (again : Bool) (d : Dev) : Dev :=
  let o := shardOwner d r.slot r.side r.shard
  match (sideOf d r.slot o.1).shards.find? (fun m => m.id == o.2) with
  | none => d
  | some m =>
    let old := shardExts d r.slot o.1 m.id
    match extRead 8 old m.len d with
    | (some (bs, false), d) =>
      if sha512 bs ≠ m.digest then (if again then shardReload r d else d)
      else
        let place := match target with
          | some k => (takeQuads d k m.len 0 (quadOrder d (extsNow d) k)).map (fun ps => (pieceExts d r.slot o.1 m.id ps, ps))
          | none => placeShard d (extsNow d) (adapterSpans d) true r.slot o.1 m
        match place with
        | none => d
        | some pl =>
          if r.fail ≠ 0 then d
          else
            let loc := fun (l : List Extent) => ((l.head?).map extAddr).getD 0
            (if target.isSome then
                shardCopy pl bs (setArb { d.arb with moves := d.arb.moves ++ [⟨r.slot, o.1, m.id, pl.1⟩] } d)
              else shardSwitch r.slot o.1 m pl bs d)
              |> scoreEvent 0x0022 5 r.slot [2 ^ 24 * r.slot + 65536 * r.side + r.shard, loc old, loc pl.1]
    | (_, d) => if again then shardReload r d else d

/-- SHARD_MIGRATION (R162): one shard of a lost engine moves to its main host's home stack, where there is room. -/
def shardMigrate (r : ReloadIn) (d : Dev) : Dev :=
  let left := gf d Reg.ARB_MIGRATE F.ARB_MIGRATE_LEFT
  let k := ((sideOf d r.slot r.side).shards.find? (fun m => m.id == r.shard)).map ManShard.engine
  match k with
  | none => d
  | some k =>
    let o := shardOwner d r.slot r.side r.shard
    if left = 0 ∨ engState d k ≠ 6 ∨ d.arb.moves.any (fun c => c.slot == r.slot && c.side == o.1 && c.shard == o.2) = true then d
    else
      let d := match mainHost d k r.slot r.side r.shard with
        | some h => shardMove r (some h) false d
        | none => d
      setMigrate (left - 1) d |> recovDone r.slot r.side r.shard 0

/-! ### Stack loss (R565 to R567) -/

/-- Shards whose own extents lie on a stack. -/
def stackShards (d : Dev) (k : Nat) : List (Nat × Nat × Nat) :=
  let l := (d.le.exts.filter (fun e => !e.2.dram && e.2.stack == k)).map (fun e => (e.2.slot, e.2.side, e.2.shard))
  l.foldl (fun acc x => if acc.contains x then acc else acc ++ [x]) []

/-- The operand of a shard, or one with nothing from NVMe. -/
def inFor (rs : List ReloadIn) (x : Nat × Nat × Nat) : ReloadIn :=
  (rs.find? (fun r => r.slot == x.1 && r.side == x.2.1 && r.shard == x.2.2)).getD { slot := x.1, side := x.2.1, shard := x.2.2 }

/-- STACK_DEGRADED: the counts of R553 have been reached within 24 h of powered time; the stack's shards move away. -/
def stackDegraded (k : Nat) (rs : List ReloadIn) (d : Dev) : Dev :=
  let recent := fun key => ((mgetD d.arb.opFails key []).filter (fun t => decide (poweredTime d < t + 86400 * aonHz))).length
  if mgetD d.arb.stackSt k 0 ≠ 0 ∨ (recent k < 4 ∧ recent (16 + k) < 16) then d
  else
    let d := setArb { d.arb with stackSt := mput d.arb.stackSt k 1 } d |> sf Reg.ARB_HEALTH ⟨32 + k, 1⟩ 1
      |> scoreEvent 0x0020 2 k [6] |> healthWrite
    let l := stackShards d k
    let d := l.foldl (fun d x => shardMove (inFor rs x) none true d) d
    recovDone 0 0 0 0 d

/-- Has stack `k` met a trigger of DEAD (R553): ARY_CAL_BAD, a domain fault on PD_Sk, or three window reads in a row that timed out? -/
def stackGone (d : Dev) (k : Nat) : Bool :=
  gb d (Reg.ARY_GEOM k) F.ARY_GEOM_CAL_BAD || !(mgetD d.arb.opFails (48 + k) []).isEmpty ||
  decide (3 ≤ (mgetD d.arb.opFails (32 + k) []).length)

/-- STACK_DEAD: calibration, the stack's domain or its window reads have failed (R553); its shards are reloaded elsewhere. -/
def stackDead (k : Nat) (rs : List ReloadIn) (d : Dev) : Dev :=
  if mgetD d.arb.stackSt k 0 = 2 ∨ stackGone d k = false then d
  else
    let d := setArb { d.arb with stackSt := mput d.arb.stackSt k 2 } d |> sf Reg.ARB_HEALTH ⟨16 + k, 1⟩ 1
      |> sf Reg.ARB_HEALTH ⟨32 + k, 1⟩ 0 |> scoreEvent 0x0021 2 k [5] |> healthWrite
    (stackShards d k).foldl (fun d x => shardReload (inFor rs x) d) d

/-! ### Blocks and DRAM tiles (R568, R569) -/

/-- The shards whose own extents satisfy a test. -/
def shardsWith (d : Dev) (f : Extent → Bool) : List (Nat × Nat × Nat) :=
  ((d.le.exts.filter (fun e => f e.2)).map (fun e => (e.2.slot, e.2.side, e.2.shard))).foldl
    (fun acc x => if acc.contains x then acc else acc ++ [x]) []

/-- ARB_BLOCK_RETIRE of a block that has failed (R553): one that no extent covers is retired now, one with live data is emptied by reloads
first. -/
def blockRetire (k b : Nat) (rs : List ReloadIn) (d : Dev) : Dev :=
  if !(wearOf d k false b).failed && !(d.arb.retire.contains (k, b)) then d
  else
  let d := blockFailed k b d
  (shardsWith d (fun e => (extBlocks d e).contains (k, b))).foldl (fun d x => shardReload (inFor rs x) d) d

/-- Move the DRAM tiles of an adapter object that covers an address to other tiles of the overflow area. -/
def adapterMove (a : Nat) (d : Dev) : Dev :=
  match d.tm.objs.find? (fun o => o.2.kind == 2 && decide (o.2.back ≤ a) && decide (a < o.2.back + 16384 * o.2.size)) with
  | none => d
  | some (n, o) =>
    match dramFit d (extsNow d) (adapterSpans d) o.size with
    | none => d
    | some loc =>
      let d := (List.range o.size).foldl (fun d t => (tileCopy (o.back + 16384 * t) (dramBase + loc + 16384 * t) d).2) d
      tmPut n { o with back := dramBase + loc } d

/-- ARB_CE_REPEAT_RESPONSE: a granule of store `st` at local address `a` whose log entry has reached REPEAT (R528, R569). -/
def ceRepeat (st a : Nat) (rs : List ReloadIn) (d : Dev) : Dev :=
  if !((intgOf d st).log.any (fun e => e.2.addr == a && decide (gf d Reg.INTG_CTL F.INTG_CTL_REPEAT ≤ e.2.hits))) then d
  else
  let d := scoreEvent 0x0040 6 st [st, a] d
  let hit := shardsWith d (extCovers a)
  let reload := fun d => hit.foldl (fun d x => shardReload (inFor rs x) d) d
  if isArrayStore st then
    match region a with
    | .array k' => reload (blockFailed k' (pageId d (arrOff a) / 256) d)
    | _ => reload d
  else if st = 0x14 then
    let t := 16384 * (a / 16384)
    let base := (rd d Reg.LE_DRAM_BASE).toNat
    let inArea := decide (base ≤ t) && decide (t < base + (rd d Reg.LE_DRAM_SIZE).toNat)
    let d := if inArea && !(d.arb.quar.contains t) && decide (d.arb.quar.length < 256) then
        setArb { d.arb with quar := d.arb.quar ++ [t] } d |> sf Reg.ARB_QUAR F.ARB_QUAR_TILES (d.arb.quar.length + 1)
          |> scoreEvent 0x0041 6 st [t]
      else d
    adapterMove a (reload d)
  else d

/-! ### Watchdog and powered time (R571, R572) -/

/-- The watchdog restarts the arbiter alone. -/
def watchdogExpiry (d : Dev) : Dev := scoreEvent 0x0004 0 0 [] (sf Reg.ARB_STAT F.ARB_STAT_RESTARTED 1 d)

/-! ### Scoresheet writer (R575 to R581) -/

/-- ARB_SCORE_POST_CTL.GO by a master. -/
def scorePost (master : Nat) (d : Dev) : Dev :=
  if scoreQueued d ≥ 32 then sf Reg.ARB_SCORE_STAT F.ARB_SCORE_STAT_POST_REJ 1 d
  else scoreEvent 0x0071 7 master ((List.range 4).map (fun i => (rd d (Reg.ARB_SCORE_POST i)).toNat)) d

/-- ARB_SCORE_FLUSH_TMO has passed for the oldest record of a ring page. -/
def scoreFlushTimeout (d : Dev) : Dev := if d.score.sector ≠ 0 then scoreProgram false d else d

/-- Write a page's records into its cells. -/
def scorePageStore (p : ScorePage) (d : Dev) : Dev :=
  rawReplace (scoreBase + 0x4000 * p.sector + p.page * 2048) p.recs.flatten d

/-- The ring sector after a sector (R578). -/
def ringNext (s : Nat) : Nat := if s = 63 then 1 else s + 1

/-- A page's program has ended: the writer goes on, and on starting a ring sector erases the next one. -/
def scorePageDone (d : Dev) : Dev :=
  match d.score.prog with
  | none => d
  | some p =>
    let d := scorePageStore p d
    let er := if p.page = 7 then some (ringNext (ringNext p.sector)) else d.score.erasing
    let d := { d with score := { d.score with prog := none, erasing := er } }
    let d := if d.score.page.length = 32 then scoreProgram false d else d
    scoreFill 64 d

/-- The erase of the next ring sector has ended. -/
def scoreErased (d : Dev) : Dev :=
  match d.score.erasing with
  | none => d
  | some s =>
    let d := rawReplace (scoreBase + 0x4000 * s) (List.replicate 0x4000 0xFF) d
    let d := { d with score := { d.score with erasing := none } }
    let d := if d.score.page.length = 32 then scoreProgram false d else d
    scoreFill 64 d

/-- A granule of a record with its check symbols, corrected, if it decodes (R518, R574). -/
def recGran (data check : List Byte) : Option (List Byte) :=
  let c := (check ++ data).map BitVec.toNat
  match decodeSyn (syndromes 0 c) with
  | .clean => some data
  | .corrected l v => some (((c.set l (c.getD l 0 ^^^ v)).drop 3).map (BitVec.ofNat 8))
  | .uncorrectable => none

/-- The SEQ of record slot `i` of the region, if both its granules decode (R574). -/
def scoreSlot (d : Dev) (i : Nat) : Option Nat :=
  let b := rawBytes d (scoreBase + i * 64) 64
  if b.all (fun x => x == 0xFF) then none
  else
    match recGran (b.take 32) ((b.drop 0x3A).take 3), recGran ((b.drop 32).take 26 ++ List.replicate 6 0) (b.drop 0x3D) with
    | some g, some _ => some (fieldAt g 0 4)
    | _, _ => none

/-- Pages of the region, `n` of them, from page `p` on, in the order the writer takes them. -/
def scorePages : Nat → Nat → List Nat
  | 0, _ => []
  | n + 1, p => p :: scorePages n (if p = 511 then 8 else p + 1)

/-- The power-on scan has ended (R581): the next SEQ follows the highest valid one, the writer resumes in the first empty page after it, and
the erase of the next ring sector is made up for where that sector is not empty (R578). -/
def scoreScanDone (d : Dev) : Dev :=
  if !(gb d Reg.ARB_SCORE_STAT F.ARB_SCORE_STAT_SCANNING) then d
  else
    let best := (List.range 16384).foldl (fun (b : Option (Nat × Nat)) i =>
      match scoreSlot d i, b with
      | some q, some (_, m) => if ring32 q m < 2 ^ 31 then some (i, q) else b
      | some q, none => some (i, q)
      | none, _ => b) none
    let d := sf Reg.ARB_SCORE_STAT F.ARB_SCORE_STAT_SCANNING 0 d
    let d := match best with
      | none => d
      | some (_, q) => sf Reg.ARB_SCORE_SEQ F.ARB_SCORE_SEQ_NEXT (q + 1) d
    let from_ := match best with
      | none => 0
      | some (i, _) => if i / 32 = 511 then 8 else i / 32 + 1
    let p := ((scorePages 512 from_).find? (fun p => readsErased d (scoreBase + 2048 * p) 2048)).getD from_
    let next := ringNext (p / 8)
    let er := if p / 8 = 0 ∨ readsErased d (scoreBase + 0x4000 * next) 0x4000 = true then none else some next
    scoreFill 64 { d with score := { d.score with sector := p / 8, pageIdx := p % 8, erasing := er } }

/-- The word that names an interrupted operation (R575). -/
def interruptedWord (k g : Nat) (o : AryOp) : Nat :=
  k * 2 ^ 20 + 2 ^ 17 * g + o.op % 8 * 2 ^ 14 + o.index % 512 * 32 + o.page % 32

/-- Power failure (R348, R580): array operations stop, and the open page and at most one more take the final records. -/
def powerFail (d : Dev) : Dev :=
  let ops := d.arys.st.flatMap (fun s => s.2.ops.map (fun o => interruptedWord s.1 o.1 o.2))
  let t := aonTime d
  let first : ScoreRec := ⟨0x0002, 0, t, [fastTime d, gf d Reg.PMU_STAT F.PMU_STAT_STATE, ops.length, 0], 1⟩
  let d := d.arys.st.foldl (fun d s => aryAbort s.1 d) d
  let arr := (chunksOf 4 ops.length ops).map (fun l => (⟨0x0003, 0, t, padTo 4 (2 ^ 64 - 1) l, 1⟩ : ScoreRec))
  let d := match d.score.prog with
    | some p => { (scorePageStore p d) with score := { d.score with prog := none } }
    | none => d
  let d := if d.score.page.length < 32 then d
    else
      let d := scoreProgram true d
      match d.score.prog with
      | some p => { (scorePageStore p d) with score := { d.score with prog := none } }
      | none => d
  let room := 32 - d.score.page.length + 32
  let q := (d.score.queue.map (fun r => { r with flags := r.flags ||| 1 }))
  let space := room - 1 - arr.length
  let fits := decide (q.length ≤ space)
  let keep := if fits then q else q.take (space - 1)
  let drop := q.length - keep.length
  let lost : List ScoreRec := if fits then [] else [⟨0x0070, 0, t, [drop, 0, 0, 0], 1⟩]
  let d := if drop = 0 then d else cntAdd Reg.ARB_SCORE_LOST F.ARB_SCORE_LOST_COUNT F.ARB_SCORE_LOST_OVF drop 105 d
  let all := first :: arr ++ keep ++ lost
  let d := all.foldl (fun d r =>
    let n := gf d Reg.ARB_SCORE_SEQ F.ARB_SCORE_SEQ_NEXT
    let r := if d.score.sector = 0 then { r with flags := r.flags ||| 2 } else r
    let page := d.score.page ++ [scoreBytes n d.boots r]
    let d := sf Reg.ARB_SCORE_SEQ F.ARB_SCORE_SEQ_NEXT (n + 1) { d with score := { d.score with page := page } }
    if page.length = 32 then
      let d := scoreProgram true d
      match d.score.prog with
      | some p => { (scorePageStore p d) with score := { d.score with prog := none } }
      | none => d
    else d) { d with score := { d.score with queue := [], closed := true } }
  let d := scoreProgram true d
  match d.score.prog with
  | some p => { (scorePageStore p d) with score := { d.score with prog := none } }
  | none => d

end Sys2Proof.Machine
end

