-- ==== Sys2Proof/Machine/Boot.lean ====
section
/-! DEFINITION. Resets, the power-on sequence, boot objects, DRAM training and CLK_REF (spec 18 and 20, R737, R754 to R766, R797,
R807). -/

namespace Sys2Proof.Machine

def setBoot (b : Boot) (d : Dev) : Dev := { d with boot := b }
def setPmu (p : Pmu) (d : Dev) : Dev := { d with pmu := p }

/-- Turn domain bits on or off in PMU_DOM_STAT. -/
def domsOn (mask : Nat) (d : Dev) : Dev := wr Reg.PMU_DOM_STAT (rd d Reg.PMU_DOM_STAT ||| BitVec.ofNat 64 mask) d
def domsOff (mask : Nat) (d : Dev) : Dev := wr Reg.PMU_DOM_STAT (rd d Reg.PMU_DOM_STAT &&& ~~~(BitVec.ofNat 64 mask)) d

/-- Bits of PD_E0 to PD_E15 and of PD_S0 to PD_S15. -/
def domsE : Nat := 0xFFFF0000
def domsS : Nat := 0xFFFF00000000

/-! ### CLK_REF stops and starts (R736 to R740) -/

/-- CLK_REF stops: the counters are saved (R737). -/
def refStop (d : Dev) : Dev :=
  if d.pmu.clkRef then
    d |> wr Reg.AON_FAST_SAVED (rd d Reg.FAST_TIME) |> wr Reg.AON_STOP_AT (rd d Reg.AON_TIME)
      |> setPmu { d.pmu with clkRef := false, fbInStop := gb d Reg.TIME_STAT F.TIME_STAT_SRC }
  else d

/-- The nominal ratio of the RC oscillator (R737). -/
def rcNominal : Nat := 0x000004B000000000

/-- FAST_TIME and AON_FRAC after a stop (R737), from the saved FAST_TIME, elapsed crystal and RC cycles, the two ratios and the
fraction carried. -/
def fastRestored (saved ex er ratio rc frac : Nat) : Nat × Nat :=
  let acc := ex * ratio + er * rc + frac
  ((saved + acc / 2 ^ 32) % 2 ^ 64, acc % 2 ^ 32)

/-- A calibration starts (R738). -/
def calStart (d : Dev) : Dev := if d.pmu.clkRef then sf Reg.AON_CAL F.AON_CAL_BUSY 1 d else d

/-- CLK_REF runs again: FAST_TIME is restored, its error bounded, and a calibration started (R737, R738, R740). A stop that began on
the RC oscillator has no crystal cycles (log entry 45). -/
def refStart (d : Dev) : Dev :=
  if d.pmu.clkRef then d
  else
    let d := wr Reg.AON_START_AT (rd d Reg.AON_TIME) d
    let stop := (rd d Reg.AON_STOP_AT).toNat
    let start := aonTime d
    let fb := (rd d Reg.AON_FB_AT).toNat
    let fell := d.pmu.fbInStop
    let cal := gb d Reg.TIME_STAT F.TIME_STAT_RC_CAL
    let ex := if fell then fb - stop else start - stop
    let er := if fell then start - max fb stop else 0
    let rc := if cal then (rd d Reg.AON_RC_RATIO).toNat else rcNominal
    let r := fastRestored (rd d Reg.AON_FAST_SAVED).toNat ex er (rd d Reg.AON_RATIO).toNat rc (gf d Reg.AON_FRAC F.AON_FRAC_FRAC)
    let x := gf d Reg.AON_CAL_PPM F.AON_CAL_PPM_XTAL_PPM
    let ppm := 1 + x + (if fell then (if cal then gf d Reg.AON_CAL_PPM F.AON_CAL_PPM_RC_PPM else 50000) else 0)
    let d := d |> wr Reg.FAST_TIME (BitVec.ofNat 64 r.1) |> sf Reg.AON_FRAC F.AON_FRAC_FRAC r.2
      |> sf Reg.TIME_STAT F.TIME_STAT_ERR_PPM ppm |> setPmu { d.pmu with clkRef := true, fbInStop := false }
    whenB (gb d Reg.AON_CAL F.AON_CAL_ON_WAKE || !cal) calStart d

/-! ### Resets (R754 to R757) -/

/-- Is an address a register that no PD_SYS reset changes: PMU and AON (R746), the scoresheet writer's mirror (R582), TDM_VAD and
GPIO_WAKE_POL (R796), and KEY_SLOT_STAT, which shows fuses (R768)? -/
def aonReg (a : Nat) : Bool :=
  (decide (0x10010000 ≤ a) && decide (a < 0x10030000)) || (decide (0x10070200 ≤ a) && decide (a < 0x10070300)) ||
    a == Reg.TDM_VAD.addr || a == Reg.GPIO_WAKE_POL.addr || a == Reg.KEY_SLOT_STAT.addr

/-- Does a byte of memory survive every reset and power state (R307, R754)? -/
def nonVolatile (a : Nat) : Bool :=
  match region a with
  | .psec _ | .scoreWin | .array _ => true
  | _ => false

/-- Program the open page to its end, and the pages that filling brings, while the reset is held (R577, R757). -/
def scoreSettle (d : Dev) : Dev :=
  let d := match d.score.prog with
    | some _ => scorePageDone d
    | none => d
  let d := scoreProgram true d
  match d.score.prog with
  | some _ => scorePageDone d
  | none => d

/-- Array operations stop, named in final records (R348, R757). -/
def arrayStop (d : Dev) : Dev :=
  let ops := d.arys.st.flatMap (fun s => s.2.ops.map (fun o => interruptedWord s.1 o.1 o.2))
  let t := aonTime d
  let d := d.arys.st.foldl (fun d s => aryAbort s.1 d) d
  (chunksOf 4 ops.length ops).foldl (fun d l => scoreQueue ⟨0x0003, 0, t, padTo 4 (2 ^ 64 - 1) l, 1⟩ d) d

/-- A fuse programming that a reset interrupts leaves its slot DAMAGED (R769). -/
def fuseCut (d : Dev) : Dev :=
  match d.keys.fuse with
  | some f => if f.kind = 1 then sf Reg.KEY_SLOT_STAT ⟨4 * f.arg + 3, 1⟩ 1 d else d
  | none => d

/-- The slot directory as it stands (R406): the sides, their extents, the objects of their adapters, and erases not yet done. -/
def dirOf (d : Dev) : SlotDir :=
  match d.boot.dir with
  | some x => x
  | none =>
    { slots := d.slots.slots, exts := d.le.exts,
      erases := d.le.erases ++ ((d.arb.moves.flatMap ShardCopy.exts).flatMap (extBlocks d)).map (fun b => ⟨b.1, b.2, none, true⟩),
      objs := d.tm.objs.filter (fun o => o.2.kind == 2 && (List.range 128).any (fun i =>
        let x := sideOf d (i / 2) (i % 2)
        decide (2 ≤ x.st) && x.ads.any (fun a => a.2.obj == o.1))) }

/-- What a reset of every domain but PD_AON leaves: registers and stores at their reset contents (R16, R53, R102, R164, R209, R308,
R364, R407, R441, R473, R551, R582, R615, R681, R704), array cells, fuses, the boot record, the health table, the slot directory
and PD_AON kept. -/
def sysCleared (d : Dev) : Dev :=
  { part := d.part, regs := d.regs.filter (fun r => aonReg r.1), mem := d.mem.filter (fun c => nonVolatile c.1),
    poison := d.poison.filter (fun g => nonVolatile (32 * g.1)), errs := d.errs.filter (fun g => nonVolatile (32 * g.1)),
    out := d.out, free := d.free, score := d.score,
    pmu := { clkRef := d.pmu.clkRef, fbInStop := d.pmu.fbInStop, rcStart := d.pmu.rcStart, retry := d.pmu.retry,
             subS := d.pmu.subS, subAon := d.pmu.subAon },
    arys := { st := mmap d.arys.st (fun _ a => { wear := a.wear, bad := a.bad }) },
    arb := { fails := d.arb.fails, off := d.arb.off, stackSt := d.arb.stackSt, opFails := d.arb.opFails,
             powered := d.arb.powered, savedAt := d.arb.savedAt },
    boots := d.boots, keys := { hash := d.keys.hash },
    boot := { rec_ := d.boot.rec_, dir := some (dirOf d), supplyOff := d.boot.supplyOff, thermal := d.boot.thermal,
              jtag := d.boot.jtag, testMode := d.boot.testMode } }

/-- A reset of a type of R754 takes effect: PD_SYS is held in reset until R807 is met. The domains other than PD_AON and PD_SYS are
off, CLK_REF stops, and every FC pin is asserted (R205, R801). -/
def resetBegin (type : Nat) (d : Dev) : Dev :=
  let d := if 3 ≤ type then scoreSettle (arrayStop d) else d.arys.st.foldl (fun d s => aryAbort s.1 d) d
  let d := sysCleared (fuseCut (refStop d))
  let d := d |> wr Reg.PMU_DOM_STAT 3 |> sf Reg.PMU_STAT F.PMU_STAT_BUSY 0 |> sf Reg.PMU_STAT F.PMU_STAT_PHASE 0
    |> sf Reg.PMU_STAT F.PMU_STAT_STATE 0 |> sf Reg.KEY_BOOT_STAT F.KEY_BOOT_STAT_CAUSE type
  pinForceAll true (setBoot { d.boot with inReset := true, cause := type } d)

/-- PD_AON receives supply (R741, R746, R581, R571): its registers, the writer and the counters start anew. -/
def powerOn (d : Dev) : Dev :=
  let d := resetBegin 0 d
  let keep := d.regs.filter (fun r => r.1 == Reg.KEY_SLOT_STAT.addr)
  { d with regs := keep, pmu := { clkRef := false }, score := {}, arb := { d.arb with savedAt := 0 },
           boot := { d.boot with supplyOff := false, thermal := false } }
    |> sf Reg.KEY_BOOT_STAT F.KEY_BOOT_STAT_CAUSE 0 |> sf Reg.ARB_SCORE_STAT F.ARB_SCORE_STAT_SCANNING 1
    |> pinForceAll true

/-! ### Boot objects (R761, R762, R767, R768) -/

/-- All bytes of a range are 0. -/
def zeroAt (b : List Byte) (o n : Nat) : Bool := ((b.drop o).take n).all (fun x => x == 0)

/-- The first check of R762 that a boot object fails, or 0; `max` is the largest TOTAL_SIZE of its type. -/
def objCheck (d : Dev) (type max : Nat) (b : List Byte) : Nat :=
  let f := fieldAt b
  let total := f 0x00C 4
  let body := b.take (total - 132)
  let pub := (b.drop 0x060).take 133
  let key := keyCheck d (f 0x010 1) pub
  if f 0 4 ≠ 0xB1C3B007 then 2
  else if f 4 2 ≠ 0x0100 ∨ f 6 2 ≠ type ∨ !(zeroAt b 0x011 3 && zeroAt b 0x018 72 && zeroAt b 0x0E5 27) then 3
  else if total % 4 ≠ 0 ∨ total > max ∨ total < 0x100 + 132 ∨ f 0x014 4 ≥ total ∨ f 0x014 4 % 4 ≠ 0 then 4
  else if key = 4 ∨ (type = 1 ∧ keyBit d (f 0x010 1) 2 = false) then 5
  else if key = 5 then 6
  else if key = 6 then 7
  else if !(ecdsaOk pub (sha512 body) ((b.drop (total - 132)).take 132)) then 8
  else if type = 1 ∧ f 0x008 4 / 2 ^ 24 < gf d Reg.KEY_SLOT_STAT F.KEY_SLOT_STAT_FLOOR then 9
  else 0

/-- Read and check an object as the arbiter: its bytes and the code of R762. -/
def objLoad (type max a : Nat) (d : Dev) : (List Byte × Nat) × Dev :=
  match masterRead 8 a max d with
  | (.err _, d) => (([], 1), d)
  | (.ok _ true, d) => (([], 1), d)
  | (.ok b false, d) => ((b.take (fieldAt b 0x00C 4), objCheck d type max b), d)

/-- The digest of a boot object: over its bytes before the signature block, as R59 defines an image's. -/
def objDigest (b : List Byte) : List Byte := sha512 (b.take (b.length - 132))

/-! ### DRAM training (R776, R797) -/

/-- Bytes of capacity code CAP. -/
def capBytes (c : Nat) : Nat := 2 ^ 30 * [8, 16, 32, 48, 64].getD c 0

/-- DDR_CTL.TRAIN (R797): training starts, or fails at once for a DDR_CFG that no configuration of R776 matches. -/
def ddrTrain (d : Dev) : Dev :=
  let c := gf d Reg.DDR_CFG F.DDR_CFG_CAP
  let r := gf d Reg.DDR_CFG F.DDR_CFG_RANKS
  if !(domOn d 3) || d.boot.ddr != 0 then d
  else
    let d := sf Reg.DDR_CTL F.DDR_CTL_TRAIN 1 d
    if c > 4 ∨ r = 0 ∨ r = 3 ∨ gf d Reg.DDR_CFG F.DDR_CFG_RATE = 3 then
      sf Reg.DDR_STAT F.DDR_STAT_CFG_ERR 1 d |> blkCause Reg.DDR_IRQ_STAT Reg.DDR_IRQ_EN 1 59
    else setBoot { d.boot with ddr := 1 } d

/-- Step 11 of R763: C0 to C7 are released at the loader's entry once training has ended, however it ended (R764). -/
def coresRelease (d : Dev) : Dev :=
  if gf d Reg.KEY_BOOT_STAT F.KEY_BOOT_STAT_PHASE = 2 ∧ d.boot.ddr ≠ 1 then
    d |> wr Reg.CPU_HOLD 0 |> sf Reg.CPU_STAT F.CPU_STAT_RUN 255 |> sf Reg.KEY_BOOT_STAT F.KEY_BOOT_STAT_PHASE 3
  else d

/-- Training fails on the channels of a mask. -/
def ddrFail (mask : Nat) (d : Dev) : Dev :=
  setBoot { d.boot with ddr := 0 } d |> sf Reg.DDR_STAT F.DDR_STAT_FAIL_CH mask
    |> blkCause Reg.DDR_IRQ_STAT Reg.DDR_IRQ_EN 1 59 |> coresRelease

/-- Training ends: on success DRAM initialisation starts (R524). `mask` names the channels that failed. -/
def ddrTrainDone (mask : Nat) (d : Dev) : Dev :=
  if d.boot.ddr ≠ 1 then d
  else if mask % 256 ≠ 0 then ddrFail mask d
  else
    setBoot { d.boot with ddr := 2 } d |> rawClear dramBase (2 ^ 36) |> sf Reg.DDR_STAT F.DDR_STAT_FAIL_CH 0
      |> sf Reg.DDR_STAT F.DDR_STAT_TRAINED 1
      |> blkCause Reg.DDR_IRQ_STAT Reg.DDR_IRQ_EN 0 59 |> coresRelease

/-- Training has lasted DDR_TRAIN_TMO (R780); the channels of `mask` are not trained. -/
def ddrTimeout (mask : Nat) (d : Dev) : Dev := if d.boot.ddr = 1 then ddrFail mask d else d

/-! ### The firmware's boot (R763 steps 7 to 12, R764, R765) -/

/-- A side found LOADING returns to EMPTY, its own quads freed (R406). -/
def loadingDrop (n s : Nat) (d : Dev) : Dev :=
  let shared := (sideOf d n s).share.map Prod.snd
  let d := setLe { d.le with exts := mmap d.le.exts (fun _ e =>
    if e.slot == n && e.side == 1 - s && shared.contains e.shard then { e with owners := 1 } else e) } d
  let gone := (d.le.exts.filter (fun e => e.2.slot == n && e.2.side == s)).map Prod.snd
  let d := setLe { d.le with exts := d.le.exts.filter (fun e => !(e.2.slot == n && e.2.side == s)) } d
  sideUpd n s (fun _ => {}) d |> freeExts none true gone

/-- Restore one side (R398, R406, R441): shards and adapters placed in DRAM are lost. -/
def sideRestore (n s : Nat) (d : Dev) : Dev :=
  let x := sideOf d n s
  let dram := (d.le.exts.filter (fun e => e.2.slot == n && e.2.side == s && e.2.dram)).map (fun e => e.2.shard)
  match x.st with
  | 1 => loadingDrop n s d
  | 4 => sideRelease n s d
  | 2 | 3 =>
    sideUpd n s (fun y =>
      let lost := dram.foldl (fun m i => mput m i ()) y.lost
      { y with lost := lost, old := [], ads := mmap y.ads (fun _ (a : AdVer) => { a with unavail := true }) }) d
  | _ => d

/-- The arbiter restores the slot directory (R406, R441, R473). -/
def dirRestore (d : Dev) : Dev :=
  match d.boot.dir with
  | none => d
  | some x =>
    let sl := mmap x.slots (fun _ m => { m with hold := none, unavail := none, stop := false })
    let objs := mmap x.objs (fun _ (o : TmObj) =>
      ({ kind := o.kind, flags := o.flags % 4, size := o.size, back := o.back, tag := o.tag } : TmObj))
    let d := setBoot { d.boot with dir := none } d
    let d := { d with slots := { slots := sl }, le := { d.le with exts := x.exts, erases := x.erases.map (fun j => { j with check := true }) },
                      tm := { d.tm with objs := objs } }
    let d := forN 128 (fun i d => sideRestore (i / 2) (i % 2) d) d
    forN 64 slotGo d |> eraseKick

/-- The unit health table is restored (R564, R570): engines stay disabled for the device's life, or run again after one failure. -/
def healthRestore (d : Dev) : Dev :=
  forN 16 (fun k d =>
    let n := (mgetD d.arb.fails k (0, 0)).1
    let off := mhas d.arb.off k || (n != 0 && !(gb d Reg.ARB_RECOV_CTL F.ARB_RECOV_CTL_REENABLE_EN))
    let st := mgetD d.arb.stackSt k 0
    let d := if off then sf Reg.ARB_HEALTH ⟨48 + k, 1⟩ 1 d |> engDrain k |> engDrained k else d
    let d := whenB (mhas d.arb.off k) (scoreEvent 0x0011 1 k [n]) d
    d |> sf Reg.ARB_HEALTH ⟨32 + k, 1⟩ (bit (st == 1)) |> sf Reg.ARB_HEALTH ⟨16 + k, 1⟩ (bit (st == 2))) d

/-- R765: what boot firmware writes from the boot record, and locks. -/
def bootRecApply (d : Dev) : Dev :=
  match d.boot.rec_ with
  | none => sf Reg.IMG_CTL F.IMG_CTL_LOCK 1 d
  | some r =>
    let d := sf Reg.IMG_EPOCH_MIN F.IMG_EPOCH_MIN_FLOOR r.epoch d |> sf Reg.IMG_CTL F.IMG_CTL_LOCK 1
    if r.base ≠ 0 ∨ r.compat = 1 then
      d |> sf Reg.IMG_CONST_BASE F.IMG_CONST_BASE_ADDR r.base |> sf Reg.IMG_CTL F.IMG_CTL_COMPAT_EN r.compat
        |> sf Reg.IMG_CTL F.IMG_CTL_CFG_LOCK 1
    else d

/-- Step 9: a loader that passes its checks is in the mezzanine; the cores wait for the end of training. -/
def loaderRun (b : List Byte) (d : Dev) : Dev :=
  writeMem 0x1000000 b false { d with keys := { d.keys with ldr := objDigest b } }
    |> sf Reg.CPU_ENTRY F.CPU_ENTRY_ADDR (0x1000000 + fieldAt b 0x014 4) |> sf Reg.KEY_BOOT_STAT F.KEY_BOOT_STAT_PHASE 2
    |> coresRelease

/-- Steps 6 to 9: the firmware `b` runs. Slots that are live again after a reset change from empty to live, so the fingerprint is computed
anew (R97; log entry 123). -/
def firmwareRun (b : List Byte) (d : Dev) : Dev :=
  let d := writeMem 0x800000 b false { d with keys := { d.keys with fw := objDigest b } }
  let d := d |> sf Reg.ARB_FW_VER F.ARB_FW_VER_VERSION (fieldAt b 8 4) |> sf Reg.ARB_STAT F.ARB_STAT_READY 1
    |> sf Reg.KEY_BOOT_STAT F.KEY_BOOT_STAT_PHASE 1
  let d := d |> domsOn (domsE ||| 0x1FC) |> icAppOn
  let d := setBoot { d.boot with rising := domsS &&& (2 ^ 48 - 1 - 3 * 2 ^ 32) } d
  let cap := [8, 16, 32, 48, 64].findIdx (fun c => c * 2 ^ 30 == d.part.dramBytes)
  let d := d |> sf Reg.DDR_CFG F.DDR_CFG_CAP cap |> ddrTrain
  let d := d |> healthRestore |> dirRestore |> bootRecApply
  let d := if (List.range 64).any (fun n => (liveSide d n).isSome) then fpRecompute d else d
  let d := scoreEvent 0x0001 0 0 [d.boot.cause, fieldAt b 8 4, activeEpoch d, (rd d Reg.IMG_FP).toNat] d
  match objLoad 2 0x60000 (psecBase 1 + 56 * 65536) d with
  | ((l, 0), d) => loaderRun l (sf Reg.KEY_BOOT_STAT F.KEY_BOOT_STAT_LDR_CODE 0 d)
  | ((_, c), d) => sf Reg.KEY_BOOT_STAT F.KEY_BOOT_STAT_LDR_CODE c d |> sf Reg.KEY_BOOT_STAT F.KEY_BOOT_STAT_PHASE 4

/-- Steps 1 to 6 (R763, R764): the boot ROM tries firmware copy 0, then copy 1. -/
def bootRun (d : Dev) : Dev :=
  let d := refStart { d with boots := (d.boots + 1) % 2 ^ 32 }
  let d := domsOn (3 * 2 ^ 32) d |> stackLoad 0 |> stackLoad 1
  match objLoad 1 0x40000 (psecBase 0) d with
  | ((b, 0), d) => firmwareRun b d
  | ((_, c0), d) =>
    let d := sf Reg.KEY_BOOT_STAT F.KEY_BOOT_STAT_CODE0 c0 d
    match objLoad 1 0x40000 (psecBase 1) d with
    | ((b, 0), d) => firmwareRun b (sf Reg.KEY_BOOT_STAT F.KEY_BOOT_STAT_COPY 1 d)
    | ((_, c1), d) => sf Reg.KEY_BOOT_STAT F.KEY_BOOT_STAT_CODE1 c1 d |> sf Reg.KEY_BOOT_STAT F.KEY_BOOT_STAT_PHASE 4

/-- PD_SYS leaves reset once nothing holds it there (R802 to R804, R807, R812). TEST_MODE holds the device while it is high (R803;
log entry 127). -/
def resetRelease (strap : Straps) (d : Dev) : Dev :=
  if !d.boot.inReset || d.boot.supplyOff || d.boot.thermal || d.boot.jtag then d
  else if strap.test then setBoot { d.boot with testMode := true } d
  else
    let d := { d with part := { d.part with endpoint := strap.endpoint }, boot := { d.boot with inReset := false, testMode := false } }
    bootRun (sf Reg.PCIE_CTL F.PCIE_CTL_MODE (bit strap.endpoint) d)

/-- DRAM is initialised (step 12): SYS_DRAM_TOP is written (R33), adapters are read again from their sources (R398), and the stored
image that AUTO_IMG names is loaded (R764). -/
def ddrInitDone (rs : List ReloadIn) (d : Dev) : Dev :=
  if d.boot.ddr ≠ 2 then d
  else
    let top := 16384 * (8 * capBytes (gf d Reg.DDR_CFG F.DDR_CFG_CAP) / 9 / 16384)
    let d := setBoot { d.boot with ddr := 0 } d |> sf Reg.SYS_DRAM_TOP F.SYS_DRAM_TOP_TOP top
      |> sf Reg.DDR_STAT F.DDR_STAT_INIT_DONE 1 |> blkCause Reg.DDR_IRQ_STAT Reg.DDR_IRQ_EN 2 59
    let d := forN 128 (fun i d =>
      let n := i / 2
      let s := i % 2
      (sideOf d n s).ads.foldl (fun d a =>
        if a.2.unavail then
          match adapterReload n s a.2.obj (rs.filter (fun r => r.slot == n && r.side == s)) d with
          | (true, d) => sideUpd n s (fun x => { x with ads := mput x.ads a.1 { a.2 with unavail := false } }) d
          | (false, d) => d
        else d) d) d
    match d.boot.rec_, gf d Reg.ARB_STAT F.ARB_STAT_READY with
    | some r, 1 =>
      if r.auto = 0 then d
      else
        let a := 0x40000 + psecBase (r.auto - 1)
        match masterRead 8 a 16 d with
        | (.ok b _, d) =>
          imgGo (setBoot { d.boot with auto := true } d |> sf Reg.IMG_SRC F.IMG_SRC_ADDR a
            |> sf Reg.IMG_SRC_LEN F.IMG_SRC_LEN_LEN (fieldAt b 0x00C 4))
        | (_, d) => d
    | _, _ => d

/-- After pass 2 the firmware activates the stored image it loaded (R764). -/
def autoActivate (d : Dev) : Dev :=
  if d.boot.auto && d.img.load.isNone then
    let d := setBoot { d.boot with auto := false } d
    if gf d Reg.IMG_LOAD_STAT F.IMG_LOAD_STAT_CODE = 0 then actGo d else d
  else d

/-! ### Reset events -/

/-- RESET_N is low for longer than its filter (R757, R812); `cool` is whether every sensor reads below 100 °C. -/
def pinReset (cool : Bool) (d : Dev) : Dev :=
  if d.boot.thermal then
    if cool then
      let d := setBoot { d.boot with thermal := false, supplyOff := false } d
      emit (.pin "THERMTRIP_N" true) (resetBegin 3 d)
    else d
  else resetBegin 3 d

/-- KEY_RST.GO with a CODE (R754, R756). -/
def softReset (code : Nat) (d : Dev) : Dev :=
  if code = 0xB007 then resetRelease ⟨d.part.endpoint, d.boot.testMode⟩ (resetBegin 4 d)
  else sf Reg.KEY_STAT F.KEY_STAT_REFUSED 1 d

/-- The main supply returns with PD_AON powered (R745, R809). -/
def supplyReset (d : Dev) : Dev :=
  if d.boot.supplyOff && !d.boot.thermal then
    resetBegin 1 (setBoot { d.boot with supplyOff := false } { d with score := { d.score with closed := false } })
  else d

/-- Every domain but PD_AON turns off after a failure of the main supply (R745, R809). With VHOLD in range the procedure of R580 runs
first; without it the open page and the queue are lost. -/
def supplyLost (vhold : Bool) (d : Dev) : Dev :=
  let d :=
    if vhold && !d.boot.supplyOff then powerFail d
    else
      let d := d.arys.st.foldl (fun d s => aryAbort s.1 d) d
      { d with score := { d.score with queue := [], page := [], prog := none, closed := true } }
  let d := resetBegin 1 d |> wr Reg.PMU_DOM_STAT 1
  setBoot { d.boot with supplyOff := true } d

/-- A sensor reaches 120 °C (R812). -/
def thermalTrip (vhold : Bool) (d : Dev) : Dev :=
  let d := supplyLost vhold (emit (.pin "THERMTRIP_N" false) d)
  setBoot { d.boot with thermal := true } d

/-- EXTEST or CLAMP holds PD_SYS in reset; leaving it is a PIN reset (R804). -/
def jtagExtest (on : Bool) (d : Dev) : Dev :=
  if on then setBoot { (resetBegin 3 d).boot with jtag := true } (resetBegin 3 d)
  else if d.boot.jtag then resetBegin 3 (setBoot { d.boot with jtag := false } d) else d

/-- KEY_RECOVER.GO with a TYPE (R764): while the boot ROM or the loader's recovery waits, a written object is checked. A recovered
firmware continues the sequence; its code, or the loader's, is recorded (log entry 46). -/
def keyRecover (type : Nat) (d : Dev) : Dev :=
  if gf d Reg.KEY_BOOT_STAT F.KEY_BOOT_STAT_PHASE ≠ 4 then d
  else if type = 1 ∧ gf d Reg.ARB_STAT F.ARB_STAT_READY = 0 then
    match objLoad 1 0x40000 0x800000 d with
    | ((b, 0), d) => firmwareRun b (sf Reg.KEY_BOOT_STAT F.KEY_BOOT_STAT_CODE0 0 d)
    | ((_, c), d) => sf Reg.KEY_BOOT_STAT F.KEY_BOOT_STAT_CODE0 c d
  else if type = 2 ∧ gf d Reg.ARB_STAT F.ARB_STAT_READY = 1 then
    match objLoad 2 0x60000 0x1000000 d with
    | ((b, 0), d) => loaderRun b (sf Reg.KEY_BOOT_STAT F.KEY_BOOT_STAT_LDR_CODE 0 d)
    | ((_, c), d) => sf Reg.KEY_BOOT_STAT F.KEY_BOOT_STAT_LDR_CODE c d
  else d

/-- ARB_BOOT_CFG.GO (R766): a legal CONST_BASE makes a new boot-record version and holds for every later one. -/
def bootCfg (base compat : Nat) (d : Dev) : Dev :=
  let d := d |> sf Reg.ARB_BOOT_CFG F.ARB_BOOT_CFG_CONST_BASE base |> sf Reg.ARB_BOOT_CFG F.ARB_BOOT_CFG_COMPAT_EN compat
  if base = 0 ∨ (base % 16384 = 0 ∧ dramBase ≤ base ∧ 2 ^ 21 + base ≤ dramBase + dramTop d) then
    let r := d.boot.rec_.getD {}
    setBoot { d.boot with rec_ := some { r with base := base, compat := compat }, next := some (base, compat) } d
      |> sf Reg.ARB_BOOT_CFG F.ARB_BOOT_CFG_DONE 1
  else sf Reg.ARB_BOOT_CFG F.ARB_BOOT_CFG_REJ 1 d

end Sys2Proof.Machine
end

