-- ==== Sys2Proof/Machine/Keys.lean ====
section
/-! DEFINITION. The key block's fuse and attestation operations (spec 20, R767 to R775). -/

namespace Sys2Proof.Machine

def setKeys (k : Keys) (d : Dev) : Dev := { d with keys := k }

/-- BUSY of KEY_STAT: a fuse or attestation operation runs. -/
def keyBusy (d : Dev) : Dev := sf Reg.KEY_STAT F.KEY_STAT_BUSY (bit (d.keys.fuse.isSome || d.keys.att.isSome)) d

/-- An operation of the key block ends with a code of R775. -/
def keyEnd (code : Nat) (d : Dev) : Dev := keyBusy (sf Reg.KEY_STAT F.KEY_STAT_CODE code d)

/-- A GO to the fuse unit: ignored with REFUSED while it is busy (R775). -/
def fuseGo (f : Dev → Dev) (d : Dev) : Dev :=
  if d.keys.fuse.isSome then sf Reg.KEY_STAT F.KEY_STAT_REFUSED 1 d else f d

/-- A fuse operation that passes its checks runs. -/
def fuseStart (kind arg : Nat) (d : Dev) : Dev := keyBusy (setKeys { d.keys with fuse := some ⟨kind, arg⟩ } d)

/-- KEY_FUSE_CTL.PROG with a SLOT (R769): the digest in KEY_HASH0 to KEY_HASH7 is programmed. -/
def fuseProg (slot : Nat) : Dev → Dev :=
  fuseGo (fun d =>
    let d := sf Reg.KEY_FUSE_CTL F.KEY_FUSE_CTL_SLOT slot d
    if slot < 2 ∨ 3 < slot ∨ keyBit d slot 0 = true ∨ keyBit d slot 3 = true then keyEnd 0xF0 d
    else
      let h := (List.range 8).flatMap (fun i => leBytes 8 (rd d (Reg.KEY_HASH i)).toNat)
      fuseStart 1 slot (setKeys { d.keys with hash := mput d.keys.hash slot h } d))

/-- A slot that is programmed, unrevoked and not damaged. -/
def slotUsable (d : Dev) (s : Nat) : Bool := keyBit d s 0 && !(keyBit d s 1) && !(keyBit d s 3)

/-- The first code of R775 that a revocation record fails, in the table's order, or 0 (R770, R771). -/
def recordCheck (d : Dev) (b : List Byte) : Nat :=
  let f := fieldAt b
  let target := f 6 1
  let signer := f 7 1
  let pub := (b.drop 0x020).take 133
  let others := (List.range 4).filter (fun s => s != target && slotUsable d s)
  if f 0 4 ≠ 0xB1C35E70 ∨ f 4 2 ≠ 0x0100 ∨ target > 3 ∨ signer > 3 ∨ !(zeroAt b 0x018 8 && zeroAt b 0x0A5 27) then 0xF1
  else if (b.drop 8).take 16 ≠ (List.range 16).map (fun i => Config.identity (8 + i)) then 0xF2
  else if keyCheck d signer pub ≠ 0 then 0xF3
  else if !(ecdsaOk pub (sha512 (b.take 0x0C0)) ((b.drop 0x0C0).take 132)) then 0xF4
  else if others.isEmpty || !(others.any (fun s => keyBit d s 2)) then 0xF5
  else 0

/-- KEY_FUSE_CTL.REVOKE (R770): the record at KEY_REC_ADDR is read and checked. -/
def fuseRevoke : Dev → Dev :=
  fuseGo (fun d =>
    match masterRead 8 (rd d Reg.KEY_REC_ADDR).toNat 324 d with
    | (.err _, d) => keyEnd 0xFA d
    | (.ok _ true, d) => keyEnd 0xFA d
    | (.ok b false, d) =>
      let c := recordCheck d b
      if c = 0 then fuseStart 2 (fieldAt b 6 1) d else keyEnd c d)

/-- KEY_FUSE_CTL.RAISE with a LEVEL (R772); a LEVEL that 32 fuses cannot show is refused like one above the firmware's (log entry 48). -/
def fuseRaise (level : Nat) : Dev → Dev :=
  fuseGo (fun d =>
    let d := sf Reg.KEY_FUSE_CTL F.KEY_FUSE_CTL_LEVEL level d
    if level < gf d Reg.KEY_SLOT_STAT F.KEY_SLOT_STAT_FLOOR ∨ 32 < level ∨ gf d Reg.ARB_FW_VER F.ARB_FW_VER_VERSION / 2 ^ 24 < level then
      keyEnd 0xF6 d
    else fuseStart 3 level d)

/-- The fuse operation ends; `ok` is whether its fuses verified. A slot whose programming fails is DAMAGED (log entry 48). -/
def fuseDone (ok : Bool) (d : Dev) : Dev :=
  match d.keys.fuse with
  | none => d
  | some f =>
    let d := setKeys { d.keys with fuse := none } d
    if ok then
      let d := match f.kind with
        | 1 => sf Reg.KEY_SLOT_STAT ⟨4 * f.arg, 1⟩ 1 d
        | 2 => sf Reg.KEY_SLOT_STAT ⟨4 * f.arg + 1, 1⟩ 1 d
        | _ => sf Reg.KEY_SLOT_STAT F.KEY_SLOT_STAT_FLOOR f.arg d
      keyEnd 0 d
    else keyEnd 0xF7 (if f.kind = 1 then sf Reg.KEY_SLOT_STAT ⟨4 * f.arg + 3, 1⟩ 1 d else d)

/-- Does the identity window pass its CRC (R773)? -/
def identityOk (d : Dev) : Bool :=
  let b := identityBytes d
  crc32 (b.take 0x1FC) == fieldAt b 0x1FC 4

/-- The report's bytes before its signature (R774). -/
def attReport (d : Dev) : List Byte :=
  let regs := fun (r : Nat → Reg) => (List.range 8).flatMap (fun i => leBytes 8 (rd d (r i)).toNat)
  let z := fun (n : Nat) => List.replicate n (0 : Byte)
  leBytes 4 0xB1C3A77E ++ leBytes 2 0x0100 ++ leBytes 2 (gf d Reg.KEY_SLOT_STAT F.KEY_SLOT_STAT_SLOT) ++
    (List.range 16).map (fun i => Config.identity (8 + i)) ++ leBytes 4 d.boots ++
    leBytes 4 (gf d Reg.ARB_FW_VER F.ARB_FW_VER_VERSION) ++ leBytes 8 (aonTime d) ++ leBytes 8 (rd d Reg.IMG_FP).toNat ++
    leBytes 4 (activeEpoch d) ++ leBytes 4 0 ++ leBytes 8 (rd d Reg.ARB_HEALTH).toNat ++ regs Reg.KEY_NONCE ++
    padTo 64 0 d.keys.fw ++ digestOf d 2 ++ padTo 64 0 d.keys.ldr ++ z 60

/-- KEY_ATT_CTL.GO (R774): the fields are taken and signing starts. -/
def attGo (d : Dev) : Dev :=
  if d.keys.att.isSome then sf Reg.KEY_STAT F.KEY_STAT_REFUSED 1 d
  else if identityOk d then keyBusy (setKeys { d.keys with att := some (attReport d) } d)
  else keyEnd 0xF9 d

/-- The 132 bytes of a report's signature (R774). -/
def attSignature (r : List Byte) : List Byte := padTo 132 0 ((Config.attestSignature r).take 132)

/-- The signed report is written to KEY_ATT_DST. -/
def attDone (d : Dev) : Dev :=
  match d.keys.att with
  | none => d
  | some r =>
    let d := setKeys { d.keys with att := none } d
    match masterWrite 8 (rd d Reg.KEY_ATT_DST).toNat (r ++ attSignature r) false d with
    | (true, d) => keyEnd 0 d
    | (false, d) => keyEnd 0xF8 d

end Sys2Proof.Machine
end

