-- ==== Sys2Proof/Machine/Power.lean ====
section
/-! DEFINITION. Power states: requests, domain agents, commits, exits, wakes, calibration and the always-on clock (spec 18, R708 to
R746). -/

namespace Sys2Proof.Machine

def pmuState (d : Dev) : Nat := gf d Reg.PMU_STAT F.PMU_STAT_STATE
def pmuTarget (d : Dev) : Nat := gf d Reg.PMU_STAT F.PMU_STAT_TARGET
def pmuBusy (d : Dev) : Bool := gb d Reg.PMU_STAT F.PMU_STAT_BUSY

/-! ### Requests (R710 to R715) -/

/-- The agents of round 1 for a target state (R714). -/
def roundOne (target : Nat) : Nat :=
  if target = 1 then 0xFFFF else if target = 2 then 2 ^ 36 - 1 else 2 ^ 39 - 1 + 31 * 2 ^ 40

/-- The lowest wake source pending. -/
def lowestWake (d : Dev) : Nat := (findBelow 15 (fun i => (rd d Reg.PMU_WAKE_PEND).getLsbD i)).getD 0

/-- Start an entry: with a wake pending it is not started (R728), else round 1 is asked (R715). -/
def pmuEntry (target : Nat) (d : Dev) : Dev :=
  if rd d Reg.PMU_WAKE_PEND ≠ 0 then
    sf Reg.PMU_STAT F.PMU_STAT_LAST 1 d |> pmuCause (lowestWake d) |> raise 34
  else
    let m := roundOne target
    let d := forN 4 (fun n d => if mhas d.links.ports n then
      portUpd n (fun p => { p with sleepSeq := none, noticed := false }) d else d) d
    let d := setPmu { d.pmu with asked := m, round2 := false, drained := 0, icAcc := false } d
    let d := { d with rings := { d.rings with admStop := m.testBit 32 } }
    d |> sf Reg.PMU_STAT F.PMU_STAT_BUSY 1 |> sf Reg.PMU_STAT F.PMU_STAT_PHASE 1 |> sf Reg.PMU_STAT F.PMU_STAT_TARGET target
      |> wr Reg.PMU_AGENT_ACC 0 |> wr Reg.PMU_AGENT_DLY 0

/-! ### Commit (R709, R717, R735) -/

/-- PD_E0 to PD_E15 and PD_S0 to PD_S15 turn off (R142, R167, R208, R307, R733): a window read that waits times out (R293). -/
def napOff (d : Dev) : Dev :=
  let d := captureAllT0 d
  let d := forN 16 (fun k d =>
    let st := if d.pmu.drained.testBit k then (if gb d (Reg.ENG_CTL k) F.ENG_CTL_EN then engRun d else 4) else engKept d k
    let d := stagingLost k (engKeep k st d)
    let l := (aryOf d k).reads
    let d := aryUpd k (fun a => { a with cur := [], want := [], dreg := [], creg := [], reads := [], cont := [], cross := none }) d
    forEach l (fun r d => sf (Reg.ARY_RD_STAT k) F.ARY_RD_STAT_TIMED_OUT 1 d |> busFail causeTimeout r.master false r.addr r.len) d) d
  let d := forN 16 (fun k d => if gf d (Reg.ARY_STAT k) F.ARY_STAT_MODE = 3 then sf (Reg.ARY_STAT k) F.ARY_STAT_MODE 0 d else d) d
  let stages := mmap d.engs.stages (fun _ (rt : StageRt) => { rt with loops := [0, 0, 0, 0], inPass := false, waits := 0, ws := [], au := [], acc := [], rows := [], recs := [] })
  let d := { d with engs := { d.engs with stages := stages } }
  setBoot { d.boot with rising := 0 } d |> domsOff (domsE ||| domsS) |> rawClear (tileBase 0) 0x4000000 |> prodCheckAll

/-- PD_APP, PD_IO and PD_LINK0 to PD_LINK3 turn off too, and every clock but CLK_AON stops (R205, R709, R737). -/
def sleepOff (d : Dev) : Dev :=
  let d := napOff d
  let d := forN 4 (fun n d =>
    let d := if mhas d.links.ports n then portPut n {} d else d
    d |> setPortState n 0 |> sf (Reg.TL_STAT n) F.TL_STAT_WIDTH 0 |> sf (Reg.TL_STAT n) F.TL_STAT_FP_MISMATCH 0) d
  let d := d |> sf Reg.CPU_STAT F.CPU_STAT_RUN 0 |> sf Reg.CPU_STAT F.CPU_STAT_WFP 0
  d |> domsOff 0x1F4 |> refStop |> pinForceAll true |> prodCheckAll

/-- The commit cycle (R717): the target state's clocks and domains turn off and the entry ends. What DEEP loses of PD_SYS and PD_MEM is
gone at its wake (R734). -/
def pmuCommit (d : Dev) : Dev :=
  let t := pmuTarget d
  let d := if t = 1 then d else if t = 2 then napOff d else if t = 3 then sleepOff d
    else domsOff 0xA (sleepOff d)
  let acc := d.pmu.icAcc
  let d := setPmu { d.pmu with asked := 0, round2 := false, drained := 0, icAcc := acc } d
  d |> sf Reg.PMU_STAT F.PMU_STAT_STATE t |> sf Reg.PMU_STAT F.PMU_STAT_BUSY 0 |> sf Reg.PMU_STAT F.PMU_STAT_PHASE 0
    |> sf Reg.PMU_STAT F.PMU_STAT_LAST 0 |> whenB (t ≤ 2) (raise 32)

/-- Every asked agent has accepted: round 2 is asked for SLEEP and DEEP, else the entry commits (R715, R717). -/
def pmuAdvance (d : Dev) : Dev :=
  if !(pmuBusy d) || rd d Reg.PMU_AGENT_ACC ≠ BitVec.ofNat 64 d.pmu.asked then d
  else if 3 ≤ pmuTarget d ∧ d.pmu.round2 = false then
    setPmu { d.pmu with asked := d.pmu.asked + 2 ^ 39, round2 := true } d |> sf Reg.PMU_STAT F.PMU_STAT_PHASE 2
  else pmuCommit d

/-! ### Domain agents (R365, R474, R613, R657, R701, R719 to R725) -/

/-- What an agent answers (R715). -/
inductive Reply where
  | accept | delay | refuse
deriving DecidableEq, Repr

/-- An engine agent (R719). -/
def engineReply (k : Nat) (d : Dev) : Reply × Dev :=
  let st := engState d k
  let busy := (engStages d k).any (fun p => !(pipeSt d p.2.pipe).batches.isEmpty)
  if st = 0 ∨ 5 ≤ st then (.accept, d)
  else if !(engIdle d k) || busy then (.delay, d)
  else if pmuTarget d = 1 ∨ st = 4 then (.accept, d)
  else if st = 3 then (.delay, d)
  else
    (.accept, setPmu { d.pmu with drained := d.pmu.drained ||| 2 ^ k } (engDrained k (setEngState k 3 d)))

/-- A stack agent (R365). -/
def stackReply (k : Nat) (d : Dev) : Reply :=
  let a := aryOf d k
  if a.ops.any (fun o => o.2.byCmd) then .refuse
  else if !a.ops.isEmpty || a.pb.isSome then .delay else .accept

/-- A Tilhel port's agent (R628, R657). -/
def portReply (n : Nat) (d : Dev) : Reply × Dev :=
  let p := portOf d n
  let inCensus := d.links.census.any (fun c => (c.parent.toList ++ c.children).any (fun x =>
    (routeHop d { kind := 0x20, dst := x, src := devId d }).any (fun q => q.1 == n)))
  if gb d (Reg.TL_CTL n) F.TL_CTL_KEEP_UP || inCensus then (.refuse, d)
  else if !p.replay.isEmpty || !p.held.isEmpty || !p.pend.isEmpty then (.delay, d)
  else if !(portUp d n) || p.noticed then (.accept, d)
  else
    let d := portUpd n (fun p => { p with sleepSeq := some p.txSeq }) d
    let r := slotMake n 0 (leBytes 2 (devId d) ++ leBytes 1 n ++ leBytes 1 (pmuTarget d) ++ List.replicate 28 0) 1 d
    (.delay, flitSeq n 5 [r.1] r.2)

/-- The interrupt controller's agent (R613, R701): a completion ring with a count is signalled at once. -/
def icReply (d : Dev) : Reply × Dev :=
  let rs := (List.range 16).filter (fun n => gf d (Reg.RING_STAT n) F.RING_STAT_PENDING != 0)
  let wants := (List.range 8).any (fun c => icHppi d c != 1023)
  if rs != [] || wants then (.delay, rs.foldl (fun d n => ringSignal n d) d) else (.accept, d)

/-- The arbiter's agent (R722): for DEEP the tables are written and the open page programmed first. -/
def arbReply (d : Dev) : Reply × Dev :=
  if gb d Reg.ARB_RECOV_STAT F.ARB_RECOV_STAT_BUSY then (.delay, d)
  else if pmuTarget d = 4 then
    let d := scoreProgram true (healthWrite d)
    (if d.score.prog.isSome || d.score.page != [] then .delay else .accept, d)
  else (.accept, d)

/-- A camera frame in progress when the peripheral agent accepts is dropped with TIMEOUT (R792). -/
def framesDrop (d : Dev) : Dev :=
  let d := d.periph.csi.foldl (fun d f => blkCount (Reg.CSI_DROP_TMO f.1) (Reg.CSI_IRQ_STAT f.1) (Reg.CSI_IRQ_EN f.1) (52 + f.1) 1 d
    |> blkCause (Reg.CSI_IRQ_STAT f.1) (Reg.CSI_IRQ_EN f.1) 1 (52 + f.1)) d
  { d with periph := { d.periph with csi := [] } }

/-- The answer of agent `a`; `busy` is what only its outside shows: a TM capture that runs, a core not yet waiting, a DMA transfer or
a DRAM access in flight. -/
def agentReply (a : Nat) (busy : Bool) (d : Dev) : Reply × Dev :=
  let slow := fun (x : Bool) => if x then Reply.delay else .accept
  if a < 16 then engineReply a d
  else if a < 32 then (stackReply (a - 16) d, d)
  else if a = 32 then
    (slow ((List.range 64).any (fun p => !(pipeSt d p).batches.isEmpty) || d.img.act.isSome), d)
  else if a = 33 then (slow (busy || decide (tmRunning d ≠ 0)), d)
  else if a = 34 then (slow (match d.train with | some t => t.out | none => false), d)
  else if a = 35 then ((match d.le.run with | some r => if r.adj = 0 then .refuse else .accept | none => .accept), d)
  else if a = 36 then arbReply d
  else if a = 37 then icReply d
  else if 40 ≤ a ∧ a < 44 then portReply (a - 40) d
  else (slow busy, d)

/-- What follows from an ACCEPT: the IC passes wakes on (R702), cores wait for power (R723), ingest stops (R724). -/
def agentAccepted (a : Nat) (d : Dev) : Dev :=
  if a = 37 then setPmu { d.pmu with icAcc := true } d
  else if a = 38 then d |> sf Reg.CPU_STAT F.CPU_STAT_WFP (gf d Reg.CPU_STAT F.CPU_STAT_RUN) |> sf Reg.CPU_STAT F.CPU_STAT_RUN 0
  else if a = 44 then framesDrop d
  else d

/-- An entry ends before its commit with a LAST code, naming an agent (R718). -/
def pmuRefused (last a : Nat) (d : Dev) : Dev := pmuCancel last a d |> raise 33 |> tmGo

/-- AGENT_ANSWER. -/
def agentAnswer (a : Nat) (busy : Bool) (d : Dev) : Dev :=
  if !(agentAsked d a) || agentAcc d a then d
  else
    match agentReply a busy d with
    | (.accept, d) =>
      agentAccepted a d |> sf Reg.PMU_AGENT_ACC ⟨a, 1⟩ 1 |> sf Reg.PMU_AGENT_DLY ⟨a, 1⟩ 0 |> pmuAdvance
    | (.delay, d) =>
      let d := sf Reg.PMU_AGENT_DLY ⟨a, 1⟩ 1 d
      if a = 37 then pmuRefused 5 0 d else d
    | (.refuse, d) => pmuRefused 3 a d

/-- PMU_HS_TMO has passed since the request (R718). -/
def pmuTimeout (d : Dev) : Dev :=
  if !(pmuBusy d) then d
  else pmuRefused 4 ((findBelow 45 (fun a => d.pmu.asked.testBit a && !(agentAcc d a))).getD 0) d

/-! ### Exits (R731 to R735) -/

/-- The engine and stack domains turn on and the device enters RUN (R104, R142, R166, R475, R524, R732, R733). Stacks serve reads once
they have loaded (STACK_POWER_ON). -/
def napOn (d : Dev) : Dev :=
  let d := domsOn domsE (rawClear (tileBase 0) 0x4000000 d)
  let d := setBoot { d.boot with rising := domsS } d
  let d := forN 16 (fun k d => setEngState k (mgetD d.pmu.engSaved k 1) (engCntClr k d)) d
  let d := prodCheckAll (setPmu { d.pmu with engSaved := [] } d)
  restoreT0 (sf Reg.PMU_STAT F.PMU_STAT_STATE 0 (constRestore d))

/-- Registers of PD_IO return to their reset values when it turns on (R796). -/
def ioOn (d : Dev) : Dev :=
  let keep := fun (a : Nat) => decide (a < 0x10500000) || decide (0x105A0000 ≤ a) || aonReg a
  { d with regs := d.regs.filter (fun r => keep r.1), periph := {} }
    |> sf Reg.PCIE_CTL F.PCIE_CTL_MODE (bit d.part.endpoint)

/-- PD_APP, PD_IO and the enabled PD_LINKn turn on, cores start at PMU_RESUME, ports retrain (R637, R660, R703, R731, R798). -/
def sleepOn (d : Dev) : Dev :=
  let d := refStart d
  let links := (List.range 4).foldl (fun m n => if gb d (Reg.TL_CTL n) F.TL_CTL_EN then m ||| 2 ^ (5 + n) else m) 0
  let d := ioOn (domsOn (0x14 ||| links) d)
  let d := setPmu { d.pmu with icAcc := false } d
  let d := { d with rings := { d.rings with admStop := false } }
  let d := icAppOn d |> sf Reg.CPU_STAT F.CPU_STAT_RUN (255 - gf d Reg.CPU_HOLD F.CPU_HOLD_HOLD)
  let d := napOn d
  let d := forN 4 (fun n d => if gb d (Reg.TL_CTL n) F.TL_CTL_EN then tlTrain n (tlCnt (Reg.TL_RETRAIN_CNT n) n d) else d) d
  whenB d.img.running (pinForceAll false) d

/-- An exit to RUN; `wake` is the source that caused it (R728, R735). An exit from DEEP is a power-on of PD_SYS (R734). -/
def pmuExit (wake : Option Nat) (d : Dev) : Dev :=
  let s := pmuState d
  let d := sf Reg.PMU_STAT F.PMU_STAT_TARGET 0 d |> sf Reg.PMU_STAT F.PMU_STAT_LAST 0
  let d := match wake with
    | some w => pmuCause w d
    | none => d
  let d :=
    if s = 1 then sf Reg.PMU_STAT F.PMU_STAT_STATE 0 d
    else if s = 2 then napOn { d with rings := { d.rings with admStop := false } }
    else if s = 3 then sleepOn d
    else resetRelease ⟨d.part.endpoint, d.boot.testMode⟩ (resetBegin 2 d)
  raise 32 d |> whenB wake.isSome (raise 34) |> tmGo

/-- PMU_REQ with GO and a TARGET (R710). -/
def pmuRequest (target : Nat) (d : Dev) : Dev :=
  let s := pmuState d
  if pmuBusy d then sf Reg.PMU_STAT F.PMU_STAT_REQ_REJ 1 d
  else if s < target ∧ target ≤ 4 then pmuEntry target d
  else if target = 0 ∧ (s = 1 ∨ s = 2) then pmuExit none d
  else sf Reg.PMU_STAT F.PMU_STAT_LAST 6 d

/-- No pipeline has had a batch and no engine has fired for PMU_IDLE_DLY (R711). -/
def autoIdle (d : Dev) : Dev :=
  let quiet := (List.range 64).all (fun p => (pipeSt d p).batches.isEmpty) && d.engs.stages.all (fun s => s.2.firings.isEmpty)
  if gb d Reg.PMU_CTL F.PMU_CTL_AUTO_IDLE && pmuRun d && quiet then pmuEntry 1 d else d

/-- Demand for an engine or stack domain (R712). -/
def autoRun (d : Dev) : Dev :=
  if gb d Reg.PMU_CTL F.PMU_CTL_AUTO_RUN && !(pmuBusy d) && (pmuState d == 1 || pmuState d == 2) then pmuExit none d else d

/-! ### Wakes (R726 to R728) -/

/-- In SLEEP or DEEP a pending enabled wake starts the exit; an IC wake leaves SLEEP only (R726). -/
def wakeSettle (d : Dev) : Dev :=
  let s := pmuState d
  if (s = 3 ∨ s = 4) ∧ d.boot.inReset = false ∧ d.boot.supplyOff = false then
    match findBelow (if s = 3 then 15 else 14) (fun i => (rd d Reg.PMU_WAKE_PEND).getLsbD i && (rd d Reg.PMU_WAKE_EN).getLsbD i) with
    | some w => pmuExit (some w) d
    | none => d
  else d

/-- A wake source is active. -/
def wakeSource (src : Nat) (d : Dev) : Dev := if src < 15 then wakeSettle (pmuWakeBit src d) else d

/-- Wake inputs GPIO0 to GPIO3 and PERST_N set their blocks' causes too (R793, R794). -/
def wakePin (src : Nat) (d : Dev) : Dev :=
  let d := wakeSource src d
  if 9 ≤ src ∧ src < 13 ∧ domOn d 4 then blkCause Reg.GPIO_IRQ_STAT Reg.GPIO_IRQ_EN 0 58 d else d

/-! ### The always-on clock (R738 to R742) -/

/-- AON_CAL.GO: ignored while a calibration runs. -/
def calGo (d : Dev) : Dev := if gb d Reg.AON_CAL F.AON_CAL_BUSY then d else calStart d

/-- A count × 2^32 / WINDOW, rounded half to even (R738). -/
def calRatio (count window : Nat) : Nat :=
  let n := 2 ^ 32 * count
  let q := n / window
  let r := n % window
  if 2 * r > window ∨ (2 * r = window ∧ q % 2 = 1) then q + 1 else q

/-- A calibration ends with its two counts of CLK_REF cycles, for the crystal and for the RC oscillator. -/
def calDone (xtal rc : Nat) (d : Dev) : Dev :=
  if !(gb d Reg.AON_CAL F.AON_CAL_BUSY) then d
  else
    let w := gf d Reg.AON_CAL F.AON_CAL_WINDOW
    d |> wr Reg.AON_RATIO (BitVec.ofNat 64 (calRatio xtal w)) |> wr Reg.AON_RC_RATIO (BitVec.ofNat 64 (calRatio rc w))
      |> sf Reg.TIME_STAT F.TIME_STAT_RC_CAL 1 |> sf Reg.AON_CAL F.AON_CAL_BUSY 0

/-- The crystal gives no edge for 4 RC periods (R739). -/
def clockFallback (d : Dev) : Dev :=
  if gb d Reg.TIME_STAT F.TIME_STAT_SRC || d.pmu.rcStart then d
  else
    let d := d |> wr Reg.AON_FB_AT (rd d Reg.AON_TIME) |> sf Reg.TIME_STAT F.TIME_STAT_SRC 1
      |> sf Reg.TIME_STAT F.TIME_STAT_SRC_CHANGED 1
      |> sf Reg.AON_CLK F.AON_CLK_FB_COUNT (min (gf d Reg.AON_CLK F.AON_CLK_FB_COUNT + 1) 0xFFFF)
    wakeSettle (raise 35 (setPmu { d.pmu with retry := false, fbInStop := d.pmu.fbInStop || !d.pmu.clkRef } d))

/-- AON_CLK.RETRY (R739). -/
def clockRetry (d : Dev) : Dev :=
  if gb d Reg.TIME_STAT F.TIME_STAT_SRC then setPmu { d.pmu with retry := true } d else d

/-- The crystal has given 4,096 stable cycles: CLK_AON switches to it at power-on or after a RETRY (R739, R741). -/
def crystalStable (d : Dev) : Dev :=
  if d.pmu.rcStart then setPmu { d.pmu with rcStart := false } d
  else if d.pmu.retry then setPmu { d.pmu with retry := false } (sf Reg.TIME_STAT F.TIME_STAT_SRC 0 d)
  else d

/-- Alarm `n` fires (R742): armed, and its compare value reached. -/
def alarmFire (n : Nat) (d : Dev) : Dev :=
  if n < 4 ∧ gf d (Reg.AON_ALARM_CTL n) F.AON_ALARM_CTL_ARM = 1 ∧ (rd d (Reg.AON_ALARM n)).toNat ≤ aonTime d then
    d |> sf (Reg.AON_ALARM_CTL n) F.AON_ALARM_CTL_ARM 0 |> sf (Reg.AON_ALARM_CTL n) F.AON_ALARM_CTL_FIRED 1
      |> raise (36 + n) |> wakeSource n
  else d

/-- A supply or clock monitor trips for domain bit `dom` (R744): PD_Ek fails its engine with DOMAIN; a stack is the arbiter's. -/
def domainFault (dom kind : Nat) (d : Dev) : Dev :=
  let d := logOnce Reg.PMU_FAULT F.PMU_FAULT_VALID F.PMU_FAULT_OVER (fun d =>
      d |> sf Reg.PMU_FAULT F.PMU_FAULT_DOMAIN dom |> sf Reg.PMU_FAULT F.PMU_FAULT_KIND kind) d |> raise 40
  wakeSettle (if 16 ≤ dom ∧ dom < 32 then engFail (dom - 16) 5 d else if 32 ≤ dom ∧ dom < 48 then stackEvent (16 + dom) 1 d else d)

/-! ### Time (R736) -/

/-- One CLK_AON cycle in SLEEP, DEEP or reset; one CLK_S cycle else: 1,000 of its cycles last 38.4 of CLK_REF, and 10^9 last 32,768 of
the crystal or 32,000 of the RC oscillator (log entry 47). -/
def tick (d : Dev) : Dev :=
  let aon := fun (d : Dev) => wr Reg.AON_TIME (rd d Reg.AON_TIME + 1) d
  if d.pmu.clkRef then
    let s := d.pmu.subS + 384
    let hz := if gb d Reg.TIME_STAT F.TIME_STAT_SRC || d.pmu.rcStart then 32000 else 32768
    let a := d.pmu.subAon + hz
    let d := setPmu { d.pmu with subS := s % 10000, subAon := a % 1000000000 } d
    let d := if s / 10000 = 1 then wr Reg.FAST_TIME (rd d Reg.FAST_TIME + 1) d else d
    if a / 1000000000 = 1 then aon d else d
  else aon d

end Sys2Proof.Machine
end

