-- ==== Sys2Proof/Machine/Periph.lean ====
section
/-! DEFINITION. The peripheral interfaces: PCIe, Ethernet, USB, cameras, audio, GPIO and the core block (spec 20, R776 to R798). -/

namespace Sys2Proof.Machine

def setPeriph (p : Periph) (d : Dev) : Dev := { d with periph := p }

/-- Do the ingest ports deliver (R724, R792)? PD_IO is on and its agent has not accepted a power-down. -/
def ingestOn (d : Dev) : Bool := domOn d 4 && !(agentAcc d 44)

/-! ### Ingest routes (R87, R175, R782) -/

/-- The route of ingest port `inst` and the credits free for it: none while items wait. -/
def ingestRoute (d : Dev) (inst : Nat) : Option (Nat × Nat) :=
  match routeBySrc d (epMk 5 inst 0) with
  | none => none
  | some id =>
    match mget d.fifos id with
    | none => none
    | some f =>
      let room := if f.stall then fifoDepth f - fifoOcc f else f.cred
      some (id, if f.backlog = [] then room else 0)

/-- Bytes as items of 32, the last padded with 0 and carrying the end mark. -/
def itemsOf (bs : List Byte) : List Item :=
  let cs := chunksOf 32 bs.length bs
  cs.zipIdx.map (fun (p : List Byte × Nat) =>
    ({ data := padTo 32 0 p.1, fin := p.2 + 1 == cs.length, empty := false, poison := false } : Item))

/-! ### Descriptor rings (R782 to R784) -/

/-- A DMA ring: its registers, its LOG2 and its master. -/
structure DmaRing where
  base : Reg
  head : Reg
  tail : Reg
  log2 : Nat
  master : Nat

def ethRx (d : Dev) (m : Nat) : DmaRing :=
  ⟨Reg.ETH_RX_BASE m, Reg.ETH_RX_HEAD m, Reg.ETH_RX_TAIL m, gf d (Reg.ETH_RING_CFG m) F.ETH_RING_CFG_RX_LOG2, 0x51 + m⟩
def ethTx (d : Dev) (m : Nat) : DmaRing :=
  ⟨Reg.ETH_TX_BASE m, Reg.ETH_TX_HEAD m, Reg.ETH_TX_TAIL m, gf d (Reg.ETH_RING_CFG m) F.ETH_RING_CFG_TX_LOG2, 0x51 + m⟩
def usbOut (d : Dev) : DmaRing :=
  ⟨Reg.USB_OUT_BASE, Reg.USB_OUT_HEAD, Reg.USB_OUT_TAIL, gf d Reg.USB_RING_CFG F.USB_RING_CFG_OUT_LOG2, 0x50⟩
def usbIn (d : Dev) : DmaRing :=
  ⟨Reg.USB_IN_BASE, Reg.USB_IN_HEAD, Reg.USB_IN_TAIL, gf d Reg.USB_RING_CFG F.USB_RING_CFG_IN_LOG2, 0x50⟩

/-- Descriptors between head and tail, modulo 2^32. -/
def ringFill (d : Dev) (r : DmaRing) : Nat := ((rd d r.tail).toNat + 2 ^ 32 - (rd d r.head).toNat) % 2 ^ 32

/-- A tail write: stored, or ignored with TAIL_ERR when more descriptors than the ring holds would be posted (R783). -/
def ringTail (r : DmaRing) (v : Nat) (err : Dev → Dev) (d : Dev) : Dev :=
  if (v % 2 ^ 32 + 2 ^ 32 - (rd d r.head).toNat) % 2 ^ 32 > 2 ^ r.log2 then err d
  else wr r.tail (BitVec.ofNat 64 (v % 2 ^ 32)) d

/-- The fabric address of the descriptor at the head. -/
def descAddr (d : Dev) (r : DmaRing) : Nat := (rd d r.base).toNat + (rd d r.head).toNat % 2 ^ r.log2 * 16

/-- The descriptor at the head: its buffer and length, or none after a bus error. -/
def descRead (r : DmaRing) (d : Dev) : Option (Nat × Nat) × Dev :=
  match masterRead r.master (descAddr d r) 16 d with
  | (.ok b _, d) => (some (fieldAt b 0 8, fieldAt b 8 2), d)
  | (.err _, d) => (none, d)

/-- Write the length and the status with DONE into the descriptor at the head and advance the head. -/
def descDone (r : DmaRing) (len code : Nat) (d : Dev) : Dev :=
  let d := (masterWrite r.master (descAddr d r + 8) (leBytes 2 len ++ leBytes 2 (0x8000 + code)) false d).2
  wr r.head (BitVec.ofNat 64 (((rd d r.head).toNat + 1) % 2 ^ 32)) d

/-! ### Ethernet (R782, R783) -/

def ethCause (m i : Nat) (d : Dev) : Dev := blkCause (Reg.ETH_IRQ_STAT m) (Reg.ETH_IRQ_EN m) i (49 + m) d
def ethCount (r : Nat → Reg) (m : Nat) (d : Dev) : Dev := blkCount (r m) (Reg.ETH_IRQ_STAT m) (Reg.ETH_IRQ_EN m) (49 + m) 1 d

/-- A frame dropped whole (R781). -/
def ethDrop (m : Nat) (d : Dev) : Dev := ethCount Reg.ETH_DROP m d |> ethCause m 3

/-- Is a frame for this station: its address, the broadcast or a group address (ETH_MAC; byte 0 of a frame is bits [7:0], log entry 49)? -/
def ethMine (d : Dev) (m : Nat) (fr : List Byte) : Bool :=
  (fr.getD 0 0).getLsbD 0 || fieldAt fr 0 6 == gf d (Reg.ETH_MAC m) F.ETH_MAC_ADDR

/-- A frame has arrived, without its FCS; `ok` is whether the FCS is right. Pause frames act on timing only. -/
def ethRxFrame (m : Nat) (fr : List Byte) (ok : Bool) (d : Dev) : Dev :=
  if !(gb d (Reg.ETH_CTL m) F.ETH_CTL_EN) || !(ingestOn d) || !(ethMine d m fr) then d
  else if !ok then ethCount Reg.ETH_FCS_ERR m d
  else
    let type := (fr.getD 12 0).toNat * 256 + (fr.getD 13 0).toNat
    let etype := gf d (Reg.ETH_CTL m) F.ETH_CTL_ETYPE
    if gb d (Reg.ETH_CTL m) F.ETH_CTL_PAUSE_EN && type == 0x8808 then d
    else if fr.length > gf d (Reg.ETH_CTL m) F.ETH_CTL_MAX_LEN then ethDrop m d
    else if etype ≠ 0 ∧ type = etype then
      let its := itemsOf fr
      match ingestRoute d (5 + m) with
      | some (id, c) => if its.length ≤ c then fifoSend id its d else ethDrop m d
      | none => ethDrop m d
    else
      let r := ethRx d m
      if ringFill d r = 0 then ethDrop m d
      else
        match descRead r d with
        | (none, d) => descDone r 0 3 d |> ethCause m 1
        | (some (buf, len), d) =>
          if fr.length > len then ethDrop m d
          else
            match masterWrite r.master buf fr false d with
            | (true, d) => descDone r fr.length 0 d |> ethCause m 1
            | (false, d) => descDone r fr.length 3 d |> ethCause m 1

def ethRxTail (m v : Nat) (d : Dev) : Dev := ringTail (ethRx d m) v (sf (Reg.ETH_STAT m) F.ETH_STAT_TAIL_ERR 1) d
def ethTxTail (m v : Nat) (d : Dev) : Dev := ringTail (ethTx d m) v (sf (Reg.ETH_STAT m) F.ETH_STAT_TAIL_ERR 1) d

/-- The oldest posted frame is sent (R539, R783). -/
def ethTxDone (m : Nat) (d : Dev) : Dev :=
  let r := ethTx d m
  if !(gb d (Reg.ETH_CTL m) F.ETH_CTL_EN) || !(gb d (Reg.ETH_STAT m) F.ETH_STAT_LINK) || ringFill d r == 0 then d
  else
    let fin := fun (len code : Nat) (d : Dev) => descDone r len code d |> ethCause m 2
    match descRead r d with
    | (none, d) => fin 0 3 d
    | (some (buf, len), d) =>
      if len = 0 ∨ len > gf d (Reg.ETH_CTL m) F.ETH_CTL_MAX_LEN then fin len 2 (ethCount Reg.ETH_TX_ERR m d)
      else
        match masterRead r.master buf len d with
        | (.err _, d) => fin len 3 d
        | (.ok b true, d) =>
          fin len 1 (ethCount Reg.ETH_TX_ERR m (emit (.frame m b true) (consumeRead 4 r.master buf len d)))
        | (.ok b false, d) => fin len 0 (emit (.frame m b false) d)

/-- Block lock is lost for 10 ms (R780), or gained. -/
def ethLinkDown (m : Nat) (d : Dev) : Dev := sf (Reg.ETH_STAT m) F.ETH_STAT_LINK 0 d |> ethCause m 0
def ethBlockLock (m : Nat) (d : Dev) : Dev :=
  if gb d (Reg.ETH_CTL m) F.ETH_CTL_EN then sf (Reg.ETH_STAT m) F.ETH_STAT_LINK 1 d else d

/-! ### USB (R784) -/

def usbCause (i : Nat) (d : Dev) : Dev := blkCause Reg.USB_IRQ_STAT Reg.USB_IRQ_EN i 51 d
def usbErr (d : Dev) : Dev := blkCount Reg.USB_ERR Reg.USB_IRQ_STAT Reg.USB_IRQ_EN 51 1 d

/-- The largest data packet of the bus speed: 1,024 bytes at SuperSpeed, 512 at High-Speed. -/
def usbPacket (d : Dev) : Nat := if gf d Reg.USB_STAT F.USB_STAT_SPEED = 2 then 1024 else 512

/-- Waiting OUT data fills descriptors while there are free ones: a buffer filled before the transfer ends carries MORE, and its end
comes in the next. The end of data that fills a buffer comes as a zero-length packet when the data is whole packets. `fuel`
bounds the descriptors. -/
def usbFill : Nat → Dev → Dev
  | 0, d => d
  | fuel + 1, d =>
    match d.periph.usbWait with
    | [] => d
    | (bs, ended) :: rest =>
      let r := usbOut d
      if ringFill d r = 0 then d
      else if bs = [] ∧ ended = false then usbFill fuel (setPeriph { d.periph with usbWait := rest } d)
      else
        match descRead r d with
        | (none, d) => usbFill fuel (descDone r 0 3 (usbErr d) |> usbCause 1)
        | (some (buf, len), d) =>
          let now := bs.take len
          let left := bs.drop len
          let zlp := decide (now.length = len) && left.isEmpty && decide (bs.length % usbPacket d = 0)
          let more := decide (left ≠ []) || zlp || (left.isEmpty && !ended)
          let rest := if left = [] ∧ zlp = false then rest else (left, ended) :: rest
          let d := setPeriph { d.periph with usbWait := rest } d
          match masterWrite r.master buf now false d with
          | (true, d) => usbFill fuel (descDone r now.length (if more then 4 else 0) d |> usbCause 1)
          | (false, d) => usbFill fuel (descDone r now.length 3 (usbErr d) |> usbCause 1)

def usbRun (d : Dev) : Dev := usbFill 8192 d

/-- Data of a bulk OUT transfer, with whether the transfer ends with it. -/
def usbOutTransfer (bs : List Byte) (ended : Bool) (d : Dev) : Dev :=
  if gb d Reg.USB_CTL F.USB_CTL_EN && gb d Reg.USB_STAT F.USB_STAT_CONFIGURED then
    usbRun (setPeriph { d.periph with usbWait := d.periph.usbWait ++ [(bs, ended)] } d)
  else d

def usbOutTail (v : Nat) (d : Dev) : Dev := usbRun (ringTail (usbOut d) v (sf Reg.USB_STAT F.USB_STAT_TAIL_ERR 1) d)
def usbInTail (v : Nat) (d : Dev) : Dev := ringTail (usbIn d) v (sf Reg.USB_STAT F.USB_STAT_TAIL_ERR 1) d

/-- The host has taken the oldest IN descriptor (R539, R784). -/
def usbInDone (d : Dev) : Dev :=
  let r := usbIn d
  if !(gb d Reg.USB_CTL F.USB_CTL_EN) || !(gb d Reg.USB_STAT F.USB_STAT_CONFIGURED) || ringFill d r == 0 then d
  else
    let fin := fun (len code : Nat) (d : Dev) => descDone r len code d |> usbCause 2
    match descRead r d with
    | (none, d) => fin 0 3 (usbErr d)
    | (some (buf, len), d) =>
      if len = 0 then fin 0 2 (usbErr d)
      else
        match masterRead r.master buf len d with
        | (.err _, d) => fin len 3 (usbErr d)
        | (.ok b true, d) => fin len 1 (usbErr (emit (.usbData b true) (consumeRead 5 r.master buf len d)))
        | (.ok b false, d) => fin len 0 (emit (.usbData b false) d)

/-- A bus reset or a handshake timeout (R780); the bus comes back at `speed`. -/
def usbBusReset (speed : Nat) (d : Dev) : Dev :=
  if gb d Reg.USB_CTL F.USB_CTL_EN then
    setPeriph { d.periph with usbConf := 0, usbWait := [] } d |> sf Reg.USB_STAT F.USB_STAT_CONFIGURED 0
      |> sf Reg.USB_STAT F.USB_STAT_SUSPENDED 0 |> sf Reg.USB_STAT F.USB_STAT_SPEED speed |> sf Reg.USB_STAT F.USB_STAT_VBUS 1
      |> usbCause 0
  else d

/-- The bus is suspended or resumed (R794). -/
def usbSuspend (on : Bool) (d : Dev) : Dev :=
  if gb d Reg.USB_CTL F.USB_CTL_EN then sf Reg.USB_STAT F.USB_STAT_SUSPENDED (bit on) d |> usbCause 3 else d

/-- A standard request (R784): SET_CONFIGURATION chooses the one configuration; the device descriptor carries the IDs of USB_ID. -/
def usbRequest (setup : List Byte) (d : Dev) : Dev :=
  if !(gb d Reg.USB_CTL F.USB_CTL_EN) then d
  else
    let req := fieldAt setup 1 1
    let val := fieldAt setup 2 2
    let len := fieldAt setup 6 2
    let serial := (List.range 16).map (fun i => Config.identity (8 + i))
    if req = 9 then
      if val % 256 ≤ 1 then
        setPeriph { d.periph with usbConf := val % 256 } d |> sf Reg.USB_STAT F.USB_STAT_CONFIGURED (val % 256)
          |> emit (.usbReply [])
      else d
    else if req = 8 then emit (.usbReply (leBytes 1 d.periph.usbConf)) d
    else if req = 6 ∧ val = 0x0100 then
      let b := Config.usbReply setup serial
      let ids := leBytes 2 (gf d Reg.USB_ID F.USB_ID_VID) ++ leBytes 2 (gf d Reg.USB_ID F.USB_ID_PID)
      emit (.usbReply ((padTo 8 0 (b.take 8) ++ ids ++ b.drop 12).take (min len 18))) d
    else emit (.usbReply (Config.usbReply setup serial)) d

/-! ### Cameras (R785 to R787) -/

def csiCause (n i : Nat) (d : Dev) : Dev := blkCause (Reg.CSI_IRQ_STAT n) (Reg.CSI_IRQ_EN n) i (52 + n) d

/-- A frame dropped whole, counted in one of the four counters. -/
def csiDrop (r : Nat → Reg) (n : Nat) (d : Dev) : Dev :=
  blkCount (r n) (Reg.CSI_IRQ_STAT n) (Reg.CSI_IRQ_EN n) (52 + n) 1 d |> csiCause n 1

/-- Buffers in use. -/
def popCount (n v : Nat) : Nat := countBelow n (fun i => v.testBit i)

/-- After a change of CSI_FB_MAP: the count in use and the watermark (R787). -/
def csiUse (n : Nat) (d : Dev) : Dev :=
  let u := popCount 64 (rd d (Reg.CSI_FB_MAP n)).toNat
  let was := gf d (Reg.CSI_FB_USE n) F.CSI_FB_USE_IN_USE
  let d := sf (Reg.CSI_FB_USE n) F.CSI_FB_USE_IN_USE u d
  if was < u ∧ u = gf d (Reg.CSI_FB_CFG n) F.CSI_FB_CFG_HIGH then sf (Reg.CSI_FB_USE n) F.CSI_FB_USE_WM 1 d |> csiCause n 2
  else if u < was ∧ u = gf d (Reg.CSI_FB_CFG n) F.CSI_FB_CFG_LOW then sf (Reg.CSI_FB_USE n) F.CSI_FB_USE_WM 0 d
  else d

/-- Take or free a buffer. -/
def csiBuf (n i : Nat) (used : Bool) (d : Dev) : Dev := csiUse n (sf (Reg.CSI_FB_MAP n) ⟨i, 1⟩ (bit used) d)

/-- A frame start (R786): a frame that never ended is dropped with TIMEOUT first (log entry 50). -/
def csiFrameStart (n num : Nat) (d : Dev) : Dev :=
  if !(gb d (Reg.CSI_FB_CFG n) F.CSI_FB_CFG_EN) || !(ingestOn d) then d
  else
    let d := match mget d.periph.csi n with
      | some f => csiBuf n f.buf false (csiDrop Reg.CSI_DROP_TMO n (setPeriph { d.periph with csi := mdel d.periph.csi n } d))
      | none => d
    match findBelow (gf d (Reg.CSI_FB_CFG n) F.CSI_FB_CFG_COUNT) (fun i => !((rd d (Reg.CSI_FB_MAP n)).getLsbD i)) with
    | none => csiDrop Reg.CSI_DROP_NOBUF n d
    | some b => csiBuf n b true (setPeriph { d.periph with csi := mput d.periph.csi n ⟨b, num, fastTime d⟩ } d)

/-- The descriptor item of a frame (R785). -/
def csiDesc (addr num width lines dt buf time : Nat) : List Byte :=
  leBytes 8 addr ++ leBytes 4 num ++ leBytes 2 width ++ leBytes 2 lines ++ leBytes 1 dt ++ leBytes 1 buf ++ leBytes 6 0 ++
    leBytes 8 time

/-- A frame end (R785 to R787), with the frame's width, lines, data type and virtual channel as received, and its bytes. A buffer that
cannot be written drops the frame as RANGE (log entry 50). -/
def csiFrameEnd (n width lines dt vc : Nat) (bs : List Byte) (d : Dev) : Dev :=
  match mget d.periph.csi n with
  | none => d
  | some f =>
    let d := setPeriph { d.periph with csi := mdel d.periph.csi n } d
    let size := 16384 * gf d (Reg.CSI_FB_CFG n) F.CSI_FB_CFG_SIZE
    let addr := (rd d (Reg.CSI_FB_BASE n)).toNat + f.buf * size
    let lo := Reg.CSI_LIM_MIN n
    let hi := Reg.CSI_LIM_MAX n
    let wait := match routeBySrc d (epMk 5 n 0) with
      | some id => ((mget d.fifos id).map (fun x => x.backlog.length)).getD 0
      | none => 0
    let free := fun (d : Dev) => csiBuf n f.buf false d
    if vc ≠ gf d (Reg.CSI_CTL n) F.CSI_CTL_VC ∨ dt ≠ gf d (Reg.CSI_CTL n) F.CSI_CTL_DT ∨
        width < gf d lo F.CSI_LIM_MIN_WIDTH ∨ gf d hi F.CSI_LIM_MAX_WIDTH < width ∨
        lines < gf d lo F.CSI_LIM_MIN_LINES ∨ gf d hi F.CSI_LIM_MAX_LINES < lines ∨ size < bs.length then
      free (csiDrop Reg.CSI_DROP_RANGE n d)
    else if wait ≥ 4 then free (csiDrop Reg.CSI_DROP_BP n d)
    else
      match masterWrite (0x54 + n) addr bs false d with
      | (false, d) => free (csiDrop Reg.CSI_DROP_RANGE n d)
      | (true, d) =>
        let it : Item := { data := csiDesc addr f.num width lines dt f.buf f.time, fin := true, empty := false, poison := false }
        match routeBySrc d (epMk 5 n 0) with
        | none => free (ingestDrop n 1 d)
        | some id => fifoSend id [it] (cntAdd64 (Reg.CSI_FRAMES n) 1 d) |> csiCause n 0

/-- No frame end within CSI_FRAME_TMO (R780). -/
def csiTimeout (n : Nat) (d : Dev) : Dev :=
  match mget d.periph.csi n with
  | none => d
  | some f => csiBuf n f.buf false (csiDrop Reg.CSI_DROP_TMO n (setPeriph { d.periph with csi := mdel d.periph.csi n } d))

/-- A write of CSI_FB_REL (R786). -/
def csiRelease (n i : Nat) (d : Dev) : Dev :=
  if (rd d (Reg.CSI_FB_MAP n)).getLsbD (i % 64) then csiBuf n (i % 64) false d else csiCause n 3 d

/-- A write of CSI_FB_CFG (R787): one that sets EN with COUNT 0, above 64 or SIZE 0, or with HIGH not above LOW, is ignored. -/
def csiCfgWrite (n v : Nat) (d : Dev) : Dev :=
  let r : BitVec 64 := BitVec.ofNat 64 (v % 2 ^ 32)
  let g := fldGet r
  if g F.CSI_FB_CFG_EN = 1 ∧ (g F.CSI_FB_CFG_COUNT = 0 ∨ g F.CSI_FB_CFG_COUNT > 64 ∨ g F.CSI_FB_CFG_SIZE = 0 ∨
      g F.CSI_FB_CFG_HIGH ≤ g F.CSI_FB_CFG_LOW) then d
  else
    let d := wr (Reg.CSI_FB_CFG n) r d
    if g F.CSI_FB_CFG_EN = 1 then d
    else
      match mget d.periph.csi n with
      | some f => csiBuf n f.buf false (setPeriph { d.periph with csi := mdel d.periph.csi n } d)
      | none => d

/-! ### Audio and voice activity (R788 to R791) -/

def tdmCause (i : Nat) (d : Dev) : Dev := blkCause Reg.TDM_IRQ_STAT Reg.TDM_IRQ_EN i 56 d
def setTdm (t : Tdm) (d : Dev) : Dev := setPeriph { d.periph with tdm := t } d

/-- Items the DRAM ring holds at most (R790): 512 to a tile. -/
def tdmCap (d : Dev) : Nat := gf d Reg.TDM_RING_SIZE F.TDM_RING_SIZE_TILES * 512

/-- After a change of the ring: TDM_RING_FILL and the watermark (R789). -/
def tdmLevel (d : Dev) : Dev :=
  let n := d.periph.tdm.ends.length
  let d := wr Reg.TDM_RING_FILL (BitVec.ofNat 64 n) d
  if !d.periph.tdm.wm && decide (gf d Reg.TDM_RING_CFG F.TDM_RING_CFG_WM_HIGH * 512 ≤ n) && n != 0 then
    setTdm { d.periph.tdm with wm := true } d |> tdmCause 1
  else if d.periph.tdm.wm && decide (n ≤ gf d Reg.TDM_RING_CFG F.TDM_RING_CFG_WM_LOW * 512) then
    setTdm { d.periph.tdm with wm := false } d
  else d

/-- A sample of `w` bits in binary16 (R788). -/
def tdmSample (w s : Nat) : Nat :=
  let x := sgn w s
  to16 (.fin (decide (x < 0)) x.natAbs (-((w : Int) - 1)))

/-- The items of a frame: 16 samples each, unused positions +0; `fin` marks the last. -/
def tdmItems (w : Nat) (samples : List Nat) (fin : Bool) : List Item :=
  let cs := chunksOf 16 samples.length (samples.map (tdmSample w))
  cs.zipIdx.map (fun (p : List Nat × Nat) =>
    ({ data := (padTo 16 0 p.1).flatMap (leBytes 2), fin := fin && p.2 + 1 == cs.length, empty := false, poison := false } : Item))

/-- Items into the DRAM ring, in order. -/
def tdmStore (its : List Item) (d : Dev) : Dev :=
  its.foldl (fun d it =>
    let t := d.periph.tdm
    let a := (rd d Reg.TDM_RING_BASE).toNat + (t.rp + t.ends.length) % tdmCap d * 32
    let d := (masterWrite 0x58 a it.data false d).2
    setTdm { t with ends := t.ends ++ [it.fin] } d) d

/-- A frame sync with its samples, one per channel; `onTime` is whether it lies 32 × slots BCLK from the last one (R779): one that does
not is ignored and counted, and the fourth in a row resynchronises. -/
def tdmFrame (samples : List Nat) (onTime : Bool) (d : Dev) : Dev :=
  if !(gb d Reg.TDM_CTL F.TDM_CTL_EN) || !(ingestOn d) then d
  else if !onTime then
    let d := blkCount Reg.TDM_FS_ERR Reg.TDM_IRQ_STAT Reg.TDM_IRQ_EN 56 1 d
    let t := d.periph.tdm
    if t.ignored = 3 then setTdm { t with ignored := 0, stopped := false } d else setTdm { t with ignored := t.ignored + 1 } d
  else
    let d := setTdm { d.periph.tdm with ignored := 0 } d
    if d.periph.tdm.stopped then d
    else
      let w := if gb d Reg.TDM_CTL F.TDM_CTL_W24 then 24 else 16
      let ch := gf d Reg.TDM_CTL F.TDM_CTL_CH
      let t := d.periph.tdm
      let k := t.frames + 1
      let last := decide (gf d Reg.TDM_PKT F.TDM_PKT_FRAMES ≤ k)
      let its := tdmItems w (padTo ch 0 (samples.take ch)) last
      let r := ingestRoute d 4
      let room := if t.ends = [] then (match r with | some (_, c) => c | none => 0) else 0
      let direct := its.take room
      let later := its.drop room
      if tdmCap d < t.ends.length + later.length then
        blkCount Reg.TDM_DROP Reg.TDM_IRQ_STAT Reg.TDM_IRQ_EN 56 1 d |> tdmCause 2
      else
        let d := setTdm { t with frames := if last then 0 else k } d
        let d := match r with
          | some (id, _) => fifoSend id direct d
          | none => d
        tdmLevel (tdmStore later d)

/-- The route grants credit: items leave the DRAM ring in order (R789). -/
def tdmDrain (d : Dev) : Dev :=
  match ingestRoute d 4 with
  | none => d
  | some (id, c) =>
    let n := min c d.periph.tdm.ends.length
    let d := (List.range n).foldl (fun d _ =>
      let t := d.periph.tdm
      let a := (rd d Reg.TDM_RING_BASE).toNat + t.rp % tdmCap d * 32
      let fin := t.ends.headD false
      let r := masterRead 0x58 a 32 d
      let it : Item := match r.1 with
        | .ok b p => { data := b, fin := fin, empty := false, poison := p }
        | .err _ => { data := List.replicate 32 0, fin := fin, empty := false, poison := true }
      fifoSend id [it] (setTdm { t with rp := (t.rp + 1) % tdmCap d, ends := t.ends.drop 1 } r.2)) d
    tdmLevel d

/-- No frame sync for 1 ms (R780). -/
def tdmLost (d : Dev) : Dev :=
  if gb d Reg.TDM_CTL F.TDM_CTL_EN then setTdm { d.periph.tdm with stopped := true } d |> tdmCause 0 else d

/-- A write of TDM_CTL (R790): one that sets EN with no ring, CH 0 or above the slots, or WM_LOW not below WM_HIGH, is ignored. -/
def tdmCtlWrite (v : Nat) (d : Dev) : Dev :=
  let r : BitVec 64 := BitVec.ofNat 64 (v % 2 ^ 32)
  let ch := fldGet r F.TDM_CTL_CH
  let slots := [8, 16, 32].getD (fldGet r F.TDM_CTL_SLOTS) 0
  if fldGet r F.TDM_CTL_EN = 1 ∧ (gf d Reg.TDM_RING_SIZE F.TDM_RING_SIZE_TILES = 0 ∨ ch = 0 ∨ slots < ch ∨
      gf d Reg.TDM_RING_CFG F.TDM_RING_CFG_WM_HIGH ≤ gf d Reg.TDM_RING_CFG F.TDM_RING_CFG_WM_LOW) then d
  else wr Reg.TDM_CTL r d

/-- A 480-frame window ends with the sum of the squared samples of the detector's channel (R791). The threshold is T half-decibels
below a full-scale constant level (log entry 51): sum > 480 × FS² × 10^(−T/20), compared exactly. -/
def vadWindow (sum : Nat) (d : Dev) : Dev :=
  if !(gb d Reg.TDM_VAD F.TDM_VAD_EN) then d
  else
    let w := if gb d Reg.TDM_CTL F.TDM_CTL_W24 then 24 else 16
    let t := gf d Reg.TDM_VAD F.TDM_VAD_THRESH
    if (480 * (2 ^ (w - 1)) ^ 2) ^ 20 < sum ^ 20 * 10 ^ t then
      let n := d.periph.tdm.vad + 1
      let d := setTdm { d.periph.tdm with vad := n } d
      if n = gf d Reg.TDM_VAD F.TDM_VAD_HOLD then
        raise 57 d |> whenB (domOn d 4) (tdmCause 3) |> wakeSource 4
      else d
    else setTdm { d.periph.tdm with vad := 0 } d

/-! ### GPIO (R793) -/

/-- The level of FC_OUTn. -/
def fcOut (d : Dev) (n : Nat) : Bool :=
  let b := gf d Reg.GPIO_FC_SEL ⟨8 * n, 8⟩
  match b / 64 with
  | 0 => b % 2 == 1
  | 1 => (rd d Reg.FIFO_PIN_STAT).getLsbD n
  | 2 => d.pinForce || gb d (Reg.CSI_FB_USE (b % 4)) F.CSI_FB_USE_WM
  | _ => d.pinForce || d.periph.tdm.wm

/-! ### PCIe (R755, R777 to R780) -/

def pcieCause (i : Nat) (d : Dev) : Dev := blkCause Reg.PCIE_IRQ_STAT Reg.PCIE_IRQ_EN i 48 d

/-- PCIE_CTL.EN set: the link trains. -/
def pcieTrain (d : Dev) : Dev := sf Reg.PCIE_CTL F.PCIE_CTL_EN 1 d

/-- Training succeeds at a rate and width within PCIE_CTL's limits. -/
def pcieUp (rate width : Nat) (d : Dev) : Dev :=
  if gb d Reg.PCIE_CTL F.PCIE_CTL_EN then
    d |> sf Reg.PCIE_STAT F.PCIE_STAT_LINK_UP 1
      |> sf Reg.PCIE_STAT F.PCIE_STAT_RATE (min rate (gf d Reg.PCIE_CTL F.PCIE_CTL_RATE_MAX))
      |> sf Reg.PCIE_STAT F.PCIE_STAT_WIDTH (min width (gf d Reg.PCIE_CTL F.PCIE_CTL_WIDTH_MAX)) |> pcieCause 0
  else d

/-- Training exceeds PCIE_CTL.TMO; it is retried. -/
def pcieFail (d : Dev) : Dev :=
  if gb d Reg.PCIE_CTL F.PCIE_CTL_EN && !(gb d Reg.PCIE_STAT F.PCIE_STAT_LINK_UP) then pcieCause 1 d else d

/-- The PCIe controller alone is reset (R755). -/
def pcieReset (d : Dev) : Dev :=
  let keep := fun (a : Nat) => decide (a < Reg.PCIE_CTL.addr) || decide (Reg.PCIE_CTL.addr + 0x10000 ≤ a)
  setPeriph { d.periph with cfgSpace := [] } { d with regs := d.regs.filter (fun r => keep r.1) }
    |> sf Reg.PCIE_CTL F.PCIE_CTL_MODE (bit d.part.endpoint)

/-- PERST_N falls (R754, R755). -/
def perstFall (d : Dev) : Dev :=
  if !d.part.endpoint then d
  else if gb d Reg.KEY_CTL F.KEY_CTL_PERST_RESET then resetRelease ⟨d.part.endpoint, d.boot.testMode⟩ (resetBegin 5 d)
  else if domOn d 4 then pcieReset d |> pcieCause 2
  else d

/-- A byte of the root port's own configuration space. -/
def cfgByte (d : Dev) (o : Nat) : Byte := mgetD d.periph.cfgSpace o (Config.pcieCfg o)

/-- The bytes of a Type 1 header that software writes: command and status, cache line size, bus numbers and timer, windows, interrupt line
and bridge control (log entry 52). -/
def cfgWritable (o : Nat) : Bool :=
  (decide (4 ≤ o) && decide (o < 8)) || o == 0x0C || (decide (0x18 ≤ o) && decide (o < 0x34)) || o == 0x3C || o == 0x3E || o == 0x3F

/-- An access of `n` bytes at offset `o` of the configuration window (R778). `answer` is what a device below the port returns, or none
for Unsupported Request or a timeout. -/
def pcieConfig (master o n : Nat) (write : Bool) (data : List Byte) (answer : Option (List Byte)) (d : Dev) : Dev :=
  let bus := o / 2 ^ 20 % 256
  let fn := o / 2 ^ 12 % 256
  let a := 0x7FF0000000 + o
  let ones := List.replicate n (0xFF : Byte)
  let done := fun (bs : List Byte) (d : Dev) => if write then emit (.busWrote master) d else emit (.busRead master bs) d
  let fail := fun (d : Dev) => done ones (blkCount Reg.PCIE_CFG_ERR Reg.PCIE_IRQ_STAT Reg.PCIE_IRQ_EN 48 1 d)
  if d.part.endpoint then busFail causeUnmapped master write a n d
  else if !(domServes d 4) then busFail causeDomainOff master write a n d
  else if !(n == 1 || n == 2 || n == 4) || o % n != 0 || decide (2 ^ 28 ≤ o) then
    busFail causeAlign master write a n d
  else if bus = 0 then
    if fn ≠ 0 then fail d
    else
      let r := o % 4096
      if write then
        let m := (List.range n).foldl (fun m i => if cfgWritable (r + i) then mput m (r + i) (data.getD i 0) else m) d.periph.cfgSpace
        done [] (setPeriph { d.periph with cfgSpace := m } d)
      else done ((List.range n).map (fun i => cfgByte d (r + i))) d
  else
    let sec := (cfgByte d 0x19).toNat
    let sub := (cfgByte d 0x1A).toNat
    if bus < sec ∨ sub < bus ∨ gf d Reg.PCIE_STAT F.PCIE_STAT_LINK_UP = 0 then fail d
    else
      let d := emit (.pcieCfg (bus != sec) o write (if write then data.take n else [])) d
      match answer with
      | some bs => done (padTo n 0 (bs.take n)) d
      | none => fail d

/-! ### The application cores' block (R798) -/

/-- A write of CPU_HOLD: cores whose bit is cleared start, cores whose bit is set are reset. -/
def cpuHold (v : Nat) (d : Dev) : Dev :=
  let old := gf d Reg.CPU_HOLD F.CPU_HOLD_HOLD
  let new := v % 256
  let run := (List.range 8).foldl (fun m c =>
    let was := (gf d Reg.CPU_STAT F.CPU_STAT_RUN).testBit c
    if new.testBit c then m else if old.testBit c || was then m ||| 2 ^ c else m) 0
  let wfp := (List.range 8).foldl (fun m c =>
    if new.testBit c || !((gf d Reg.CPU_STAT F.CPU_STAT_WFP).testBit c) then m else m ||| 2 ^ c) 0
  d |> sf Reg.CPU_HOLD F.CPU_HOLD_HOLD new |> sf Reg.CPU_STAT F.CPU_STAT_RUN run |> sf Reg.CPU_STAT F.CPU_STAT_WFP wfp

/-- A write of CPU_FREQ: out of range or off a step, it is ignored. -/
def cpuFreq (v : Nat) (d : Dev) : Dev :=
  let m := v % 4096
  if 400 ≤ m ∧ m ≤ 2000 ∧ m % 25 = 0 then sf Reg.CPU_FREQ F.CPU_FREQ_MHZ m d else d

end Sys2Proof.Machine
end

