-- ==== Sys2Proof/Machine/RegWrite.lean ====
section
/-! DEFINITION. Writes to registers: what each field stores by its access code, lock and range (R9, R12, R48), and what the fields
that act start. -/

namespace Sys2Proof.Machine

/-! ### Ranges and locks -/

/-- Fields whose register description ignores a write outside a range, with the least and the largest value taken (R48). -/
def rangeTab : List (Nat × Fld × Nat × Nat) := [
  (Reg.SYS_TMO.addr, F.SYS_TMO_TMO_US, 1, 1000000),
  (Reg.IMG_ACT_TMO.addr, F.IMG_ACT_TMO_TMO_MS, 1, 60000),
  ((Reg.ENG_DRAIN_TMO 0).addr, F.ENG_DRAIN_TMO_TMO_US, 1, 1000000),
  ((Reg.ENG_WAIT_TMO 0).addr, F.ENG_WAIT_TMO_TMO_MS, 1, 60000),
  ((Reg.ENG_FIRE_TMO 0).addr, F.ENG_FIRE_TMO_TMO_MS, 1, 60000),
  (Reg.FIFO_STARVE_TMO.addr, F.FIFO_STARVE_TMO_TMO_MS, 1, 60000),
  ((Reg.ARY_RD_SLOT 0).addr, F.ARY_RD_SLOT_SLOT_US, 20, 5000),
  ((Reg.ARY_RD_TMO 0).addr, F.ARY_RD_TMO_TMO_MS, 1, 1000),
  ((Reg.ARY_PB_TMO 0).addr, F.ARY_PB_TMO_TMO_MS, 1, 1000),
  ((Reg.ARY_SEQ_TMO 0).addr, F.ARY_SEQ_TMO_TMO_US, 1, 10000),
  ((Reg.ARY_CE_THRESH 0).addr, F.ARY_CE_THRESH_BITS, 1, 72)]

def rangeTab1 : List (Nat × Fld × Nat × Nat) := [
  (Reg.LE_TMO.addr, F.LE_TMO_TMO_MS, 1, 60000),
  (Reg.LE_PATROL_INT.addr, F.LE_PATROL_INT_HOURS, 1, 8760),
  (Reg.LE_PATROL_RATE.addr, F.LE_PATROL_RATE_MBPS, 10, 16000),
  (Reg.ARB_CASTLE_HOLD.addr, F.ARB_CASTLE_HOLD_HOLD_S, 1, 65535),
  (Reg.ARB_CASTLE_TMO.addr, F.ARB_CASTLE_TMO_TMO_MS, 1, 60000),
  (Reg.ARB_RELOAD_RETRY.addr, F.ARB_RELOAD_RETRY_SECONDS, 1, 65535),
  (Reg.ARB_RECOV_CTL.addr, F.ARB_RECOV_CTL_REPLAY_MAX, 1, 15),
  (Reg.ARB_SCORE_FLUSH_TMO.addr, F.ARB_SCORE_FLUSH_TMO_SECONDS, 1, 3600),
  (Reg.TM_HOT_INT.addr, F.TM_HOT_INT_MS, 1, 60000),
  (Reg.TM_HOT_BUDGET.addr, F.TM_HOT_BUDGET_FRAMES, 0, 1024),
  (Reg.INTG_CTL.addr, F.INTG_CTL_REPEAT, 1, 15),
  (Reg.RING_PROG_INT.addr, F.RING_PROG_INT_MS, 1, 60000),
  (Reg.RING_CPL_TMO.addr, F.RING_CPL_TMO_MS, 1, 60000),
  ((Reg.RING_MOD 0).addr, F.RING_MOD_CNT, 1, 255)]

def rangeTab2 : List (Nat × Fld × Nat × Nat) := [
  ((Reg.TL_TRAIN_TMO 0).addr, F.TL_TRAIN_TMO_TMO_MS, 1, 60000),
  ((Reg.TL_FC_TMO 0).addr, F.TL_FC_TMO_TMO_MS, 1, 60000),
  ((Reg.TL_RETRY 0).addr, F.TL_RETRY_TMO_NS, 100, 65535),
  ((Reg.TL_RETRY 0).addr, F.TL_RETRY_MAX, 1, 255),
  (Reg.TL_FP_SETTLE.addr, F.TL_FP_SETTLE_US, 1, 65535),
  (Reg.SYNC_CENSUS_TMO.addr, F.SYNC_CENSUS_TMO_HOP_NS, 100, 65535),
  (Reg.PMU_IDLE_DLY.addr, F.PMU_IDLE_DLY_US, 1, 65535),
  (Reg.PMU_HS_TMO.addr, F.PMU_HS_TMO_MS, 1, 60000),
  (Reg.AON_CAL.addr, F.AON_CAL_WINDOW, 256, 65535),
  ((Reg.IC_PMR 0).addr, F.IC_PMR_PMR, 0, 16),
  (Reg.PCIE_CTL.addr, F.PCIE_CTL_RATE_MAX, 1, 5),
  (Reg.PCIE_CTL.addr, F.PCIE_CTL_TMO, 1, 60000),
  ((Reg.ETH_CTL 0).addr, F.ETH_CTL_MAX_LEN, 64, 9216),
  ((Reg.CSI_FRAME_TMO 0).addr, F.CSI_FRAME_TMO_MS, 1, 60000),
  (Reg.TDM_PKT.addr, F.TDM_PKT_FRAMES, 1, 65535),
  (Reg.GPIO_FILT.addr, F.GPIO_FILT_FILT, 1, 255),
  (Reg.DDR_TRAIN_TMO.addr, F.DDR_TRAIN_TMO_MS, 1, 60000)]

/-- May field `f` of the register with base `b` take the value `x`? -/
def fldTakes (b : Nat) (f : Fld) (x : Nat) : Bool :=
  if b = Reg.PCIE_CTL.addr ∧ f = F.PCIE_CTL_WIDTH_MAX then x == 1 || x == 2 || x == 4
  else if b = (Reg.CSI_CTL 0).addr ∧ f = F.CSI_CTL_DT then x == 0x1E || x == 0x2A || x == 0x2B || x == 0x2C
  else if b = Reg.LE_DRAM_BASE.addr ∨ b = Reg.LE_DRAM_SIZE.addr then x % 16384 == 0
  else (rangeTab ++ rangeTab1 ++ rangeTab2).all (fun t =>
    !(t.1 == b && t.2.1 == f) || (decide (t.2.2.1 ≤ x) && decide (x ≤ t.2.2.2)))

/-- Is a register that a lock freezes locked now (R12, R46, R105)? -/
def regLocked (d : Dev) (b : Nat) : Bool :=
  if b = Reg.SYS_NODE.addr ∨ b = Reg.TL_TORUS.addr then nodeLocked d
  else if b = Reg.IMG_CTL.addr ∨ b = Reg.IMG_CONST_BASE.addr then gb d Reg.IMG_CTL F.IMG_CTL_CFG_LOCK
  else if b = Reg.IMG_EPOCH_MIN.addr then gb d Reg.IMG_CTL F.IMG_CTL_LOCK
  else false

/-- Does a register ignore a write now: the base of an enabled ring or buffer, DDR_CFG after TRAIN, the overflow area while a load
runs? -/
def regIgnores (d : Dev) (b i : Nat) : Bool :=
  if b = (Reg.RING_CMD_BASE 0).addr ∨ b = (Reg.RING_CPL_BASE 0).addr then gb d (Reg.RING_CFG i) F.RING_CFG_EN
  else if b = (Reg.ETH_RX_BASE 0).addr ∨ b = (Reg.ETH_TX_BASE 0).addr then gb d (Reg.ETH_CTL i) F.ETH_CTL_EN
  else if b = Reg.USB_OUT_BASE.addr ∨ b = Reg.USB_IN_BASE.addr then gb d Reg.USB_CTL F.USB_CTL_EN
  else if b = (Reg.CSI_FB_BASE 0).addr then gb d (Reg.CSI_FB_CFG i) F.CSI_FB_CFG_EN
  else if b = Reg.TDM_RING_BASE.addr ∨ b = Reg.TDM_RING_SIZE.addr then gb d Reg.TDM_CTL F.TDM_CTL_EN
  else if b = Reg.DDR_CFG.addr then gb d Reg.DDR_CTL F.DDR_CTL_TRAIN
  else if b = Reg.LE_DRAM_BASE.addr ∨ b = Reg.LE_DRAM_SIZE.addr then d.le.run.isSome
  else false

/-- Fields that start something and have a command of their own: a plain register write leaves them. -/
def fldActs (b : Nat) (f : Fld) : Bool :=
  [(Reg.SYS_NODE.addr, F.SYS_NODE_LOCK), (Reg.TM_CTL.addr, F.TM_CTL_EN), (Reg.LE_CTL.addr, F.LE_CTL_EN),
   ((Reg.RING_CFG 0).addr, F.RING_CFG_EN), ((Reg.ENG_CTL 0).addr, F.ENG_CTL_EN), ((Reg.TL_CTL 0).addr, F.TL_CTL_EN),
   (Reg.PCIE_CTL.addr, F.PCIE_CTL_EN)].contains (b, f) ||
  [(Reg.IC_EN 0).addr, (Reg.QZ_SCALE 0 0).addr, (Reg.FIFO_WM 0).addr, (Reg.CSI_FB_CFG 0).addr, Reg.TDM_CTL.addr,
   Reg.CPU_HOLD.addr, Reg.CPU_FREQ.addr, (Reg.RING_CMD_TAIL 0).addr, (Reg.RING_CPL_HEAD 0).addr, (Reg.ETH_RX_TAIL 0).addr,
   (Reg.ETH_TX_TAIL 0).addr, Reg.USB_OUT_TAIL.addr, Reg.USB_IN_TAIL.addr, Reg.INTG_FLIP.addr].contains b

/-! ### Storing (R9) -/

/-- What field `f` holds after a write of `x` over `old`. -/
def fldStore (d : Dev) (b : Nat) (f : FldDesc) (old x : Nat) : Nat :=
  if fldActs b f.fld then old
  else match f.acc with
    | .ro | .rc => old
    | .wo => if b = (Reg.ARY_PW 0).addr then x else old
    | .rw => if fldTakes b f.fld x then x else old
    | .rw1c => old &&& (2 ^ f.fld.len - 1 - x)
    | .w1s => old ||| x
    | .rwl => if !(regLocked d b) && fldTakes b f.fld x then x else old

/-- Bits that a register stores as 0 whatever is written. -/
def regFixed (b : Nat) (v : BitVec 64) : BitVec 64 :=
  if b = Reg.CPU_ENTRY.addr ∨ b = Reg.PMU_RESUME.addr then v &&& ~~~0x3F
  else if b = Reg.INTG_SCRUB_EN.addr then v &&& 0x77FFFF
  else if b = (Reg.TL_RT_COL 0).addr ∨ b = (Reg.TL_RT_ROW 0).addr then v &&& ~~~0x44444444
  else if b = Reg.LE_NVME_CFG.addr then
    let sh := fldGet v F.LE_NVME_CFG_LBA_SHIFT
    if sh = 9 ∨ sh = 12 then v else fldPut v F.LE_NVME_CFG_VALID 0
  else v

/-- The value a register holds after a write of `v` over `old`. -/
def regNew (d : Dev) (t : RegDesc) (old v : BitVec 64) : BitVec 64 :=
  regFixed t.base (t.flds.foldl (fun w f => fldPut w f.fld (fldStore d t.base f (fldGet old f.fld) (fldGet v f.fld))) old)

/-- The source of a peripheral block's interrupt, by the base of its XX_IRQ_EN (R684, R794). -/
def irqSrc (b i : Nat) : Option (Reg × Nat) :=
  if b = Reg.PCIE_IRQ_EN.addr then some (Reg.PCIE_IRQ_STAT, 48)
  else if b = (Reg.ETH_IRQ_EN 0).addr then some (Reg.ETH_IRQ_STAT i, 49 + i)
  else if b = Reg.USB_IRQ_EN.addr then some (Reg.USB_IRQ_STAT, 51)
  else if b = (Reg.CSI_IRQ_EN 0).addr then some (Reg.CSI_IRQ_STAT i, 52 + i)
  else if b = Reg.TDM_IRQ_EN.addr then some (Reg.TDM_IRQ_STAT, 56)
  else if b = Reg.GPIO_IRQ_EN.addr then some (Reg.GPIO_IRQ_STAT, 58)
  else if b = Reg.DDR_IRQ_EN.addr then some (Reg.DDR_IRQ_STAT, 59)
  else none

/-- What follows from the new value of a register: an enabled cause raises its source, what the IC presents may change, a ring
whose base is written or whose length changes starts afresh (R589, R686, R794, log entry 14). -/
def regAfter (r : RegAt) (old new : BitVec 64) (d : Dev) : Dev :=
  let b := r.desc.base
  match irqSrc b r.i with
  | some (st, src) => whenB (rd d st &&& new &&& ~~~old != 0) (raise src) d
  | none =>
    if b = Reg.IC_CTL.addr ∨ b = (Reg.IC_SRCCFG 0).addr ∨ b = (Reg.IC_PMR 0).addr then icPresent d
    else if b = (Reg.RING_CMD_BASE 0).addr ∨ b = (Reg.RING_CPL_BASE 0).addr ∨ (b = (Reg.RING_CFG 0).addr ∧ new ≠ old) then
      ringChanged r.i d
    else d

/-- The registers that every store holds for itself, at the store selected (R527, R545); none for another register. -/
def intgStore (b : Nat) (v : BitVec 64) (d : Dev) : Option Dev :=
  let st := intgSel d
  if b = Reg.INTG_LOG_STAT.addr then
    some (if fldGet v F.INTG_LOG_STAT_FULL = 1 then intgUpd st (fun s => { s with full := false }) d else d)
  else if b = Reg.INTG_LOG_ENT.addr then
    some (if fldGet v F.INTG_LOG_ENT_VALID = 1 then
      intgUpd st (fun s => { s with log := mdel s.log (gf d Reg.INTG_LOG_IDX F.INTG_LOG_IDX_INDEX) }) d else d)
  else if b = Reg.INTG_LAP_TMO.addr then
    let x := fldGet v F.INTG_LAP_TMO_SECONDS
    some (if x = 0 then d else intgUpd st (fun s => { s with lapTmo := x }) d)
  else none

/-- REGISTER_WRITE of a register found: every field without a command of its own stores or ignores its part of `v`. -/
def regStore (r : RegAt) (v : BitVec 64) (d : Dev) : Dev :=
  match intgStore r.desc.base v d with
  | some d => d
  | none =>
    if regIgnores d r.desc.base r.i then d
    else
      let old := rd d r.reg
      let new := regNew d r.desc old v
      regAfter r old new (wr r.reg new d)

/-- REGISTER_WRITE: a value of the register's own width at its local address (R15). -/
def registerWrite (a v : Nat) (d : Dev) : Dev :=
  match regFind a with
  | some r => if r.reg.addr = a then regStore r (BitVec.ofNat 64 (v % 2 ^ r.desc.width)) d else d
  | none => d

/-! ### Fields that act -/

/-- ARB_SLOT_CTL.EXPIRE, and what a train-run then does (R422, R498). -/
def xSlotExpire (d : Dev) : Dev := trPoke (slotExpire d)

/-- IMG_ACT_CTL.GO. -/
def xActGo (d : Dev) : Dev := trPoke (actGo d)

/-- TM_CMD_GO: the descriptor in TM_CMD0 to TM_CMD3 (R451). -/
def xTmGo (master : Nat) (d : Dev) : Dev :=
  tmPortGo master (tmParse ((List.range 4).flatMap (fun j => leBytes 8 (rd d (Reg.TM_CMD j)).toNat))) d

/-- What the SYS, PMU, AON and IC registers start. -/
def actSys (r : RegAt) (v : BitVec 64) (d : Dev) : Dev :=
  let b := r.desc.base
  let go := fun (f : Fld) => fldGet v f == 1
  if b = Reg.SYS_NODE.addr then whenB (go F.SYS_NODE_LOCK) nodeLock d
  else if b = Reg.PMU_REQ.addr then whenB (go F.PMU_REQ_GO) (pmuRequest (fldGet v F.PMU_REQ_TARGET)) d
  else if b = Reg.AON_CAL.addr then whenB (go F.AON_CAL_GO) calGo d
  else if b = Reg.AON_CLK.addr then whenB (go F.AON_CLK_RETRY) clockRetry d
  else if b = Reg.IC_SETPEND.addr then icSetPend (fldGet v F.IC_SETPEND_ID) d
  else if b = Reg.IC_CLRPEND.addr then icClrPend (fldGet v F.IC_CLRPEND_ID) false d
  else if b = (Reg.IC_EN 0).addr then icEnWrite r.j v.toNat none d
  else if b = (Reg.IC_EOI 0).addr then icEoi r.i (fldGet v F.IC_EOI_ID) d
  else d

/-- What the TM, LE and ARB registers start; `rs` is what reloads meet outside the device. -/
def actArb (master : Nat) (r : RegAt) (v : BitVec 64) (rs : List ReloadIn) (d : Dev) : Dev :=
  let b := r.desc.base
  let go := fun (f : Fld) => fldGet v f == 1
  if b = Reg.TM_CTL.addr then
    if go F.TM_CTL_EN == gb d Reg.TM_CTL F.TM_CTL_EN then d else if go F.TM_CTL_EN then tmEnable d else tmDisable d
  else if b = Reg.TM_CMD_GO.addr then whenB (go F.TM_CMD_GO_GO) (xTmGo master) d
  else if b = Reg.LE_CTL.addr then
    if go F.LE_CTL_EN == gb d Reg.LE_CTL F.LE_CTL_EN then d else if go F.LE_CTL_EN then xLeEnable d else xLeDisable d
  else if b = Reg.ARB_BOOT_CFG.addr then
    whenB (go F.ARB_BOOT_CFG_GO) (bootCfg (fldGet v F.ARB_BOOT_CFG_CONST_BASE) (fldGet v F.ARB_BOOT_CFG_COMPAT_EN)) d
  else if b = Reg.ARB_RECOV_CTL.addr then whenB (go F.ARB_RECOV_CTL_RETRY_NOW) (retryNow rs) d
  else if b = Reg.ARB_HOLD_CTL.addr then
    let i := fldGet v F.ARB_HOLD_CTL_INDEX
    match go F.ARB_HOLD_CTL_REPLAY, go F.ARB_HOLD_CTL_RESIGN with
    | true, false => holdReplay i d
    | false, true => holdResign i d
    | _, _ => d
  else if b = Reg.ARB_SCORE_FLUSH.addr then whenB (go F.ARB_SCORE_FLUSH_GO) (scoreProgram false) d
  else if b = Reg.ARB_SCORE_POST_CTL.addr then whenB (go F.ARB_SCORE_POST_CTL_GO) (scorePost master) d
  else if b = Reg.ARB_SLOT_CTL.addr then whenB (go F.ARB_SLOT_CTL_EXPIRE) xSlotExpire d
  else d

/-- What the INTG, KEY, DDR, IMG and RING registers start. -/
def actImg (r : RegAt) (v : BitVec 64) (d : Dev) : Dev :=
  let b := r.desc.base
  let go := fun (f : Fld) => fldGet v f == 1
  if b = Reg.INTG_FLIP.addr then flipWrite v d
  else if b = Reg.KEY_FUSE_CTL.addr then
    d |> whenB (go F.KEY_FUSE_CTL_PROG) (fuseProg (fldGet v F.KEY_FUSE_CTL_SLOT)) |> whenB (go F.KEY_FUSE_CTL_REVOKE) fuseRevoke
      |> whenB (go F.KEY_FUSE_CTL_RAISE) (fuseRaise (fldGet v F.KEY_FUSE_CTL_LEVEL))
  else if b = Reg.KEY_ATT_CTL.addr then whenB (go F.KEY_ATT_CTL_GO) attGo d
  else if b = Reg.KEY_RST.addr then whenB (go F.KEY_RST_GO) (softReset (fldGet v F.KEY_RST_ARG)) d
  else if b = Reg.KEY_RECOVER.addr then whenB (go F.KEY_RECOVER_GO) (keyRecover (fldGet v F.KEY_RECOVER_ARG)) d
  else if b = Reg.DDR_CTL.addr then whenB (go F.DDR_CTL_TRAIN) ddrTrain d
  else if b = Reg.IMG_LOAD.addr then d |> whenB (go F.IMG_LOAD_ABORT) imgAbort |> whenB (go F.IMG_LOAD_GO) imgGo
  else if b = Reg.IMG_ACT_CTL.addr then whenB (go F.IMG_ACT_CTL_GO) xActGo d
  else if b = (Reg.RING_CFG 0).addr then if go F.RING_CFG_EN then ringEnable r.i d else ringDisable r.i d
  else if b = (Reg.RING_CMD_TAIL 0).addr then cmdTailWrite r.i v.toNat d
  else if b = (Reg.RING_CPL_HEAD 0).addr then cplHeadWrite r.i v.toNat d
  else d

/-- What the ENG, FIFO, ARY and TL registers start. -/
def actEng (r : RegAt) (v : BitVec 64) (d : Dev) : Dev :=
  let b := r.desc.base
  let go := fun (f : Fld) => fldGet v f == 1
  if b = (Reg.ENG_CTL 0).addr then
    (if go F.ENG_CTL_EN then engEnable r.i d else engDrain r.i d) |> whenB (go F.ENG_CTL_KILL) (engKill r.i)
      |> whenB (go F.ENG_CTL_FAIL) (engFail r.i 6) |> whenB (go F.ENG_CTL_CNT_CLR) (engCntClr r.i)
  else if b = (Reg.QZ_SCALE 0 0).addr then qzCalibrate r.i r.j v.toNat d
  else if b = (Reg.FIFO_WM 0).addr then fifoWm r.i v.toNat d
  else if b = (Reg.ARY_RETIRE 0).addr then
    whenB (go F.ARY_RETIRE_GO) (aryAfter (aryRetire r.i (fldGet v F.ARY_RETIRE_BLOCK))) d
  else if b = (Reg.TL_CTL 0).addr then if go F.TL_CTL_EN then tlEnable r.i d else tlDisable r.i d
  else d

/-- What the registers of the interfaces and the cores start. -/
def actPeriph (r : RegAt) (v : BitVec 64) (d : Dev) : Dev :=
  let b := r.desc.base
  if b = Reg.PCIE_CTL.addr then
    if fldGet v F.PCIE_CTL_EN = 0 then sf Reg.PCIE_CTL F.PCIE_CTL_EN 0 d
    else if gb d Reg.PCIE_CTL F.PCIE_CTL_EN then d else pcieTrain d
  else if b = (Reg.ETH_RX_TAIL 0).addr then ethRxTail r.i v.toNat d
  else if b = (Reg.ETH_TX_TAIL 0).addr then ethTxTail r.i v.toNat d
  else if b = Reg.USB_OUT_TAIL.addr then usbOutTail v.toNat d
  else if b = Reg.USB_IN_TAIL.addr then usbInTail v.toNat d
  else if b = (Reg.CSI_FB_CFG 0).addr then csiCfgWrite r.i v.toNat d
  else if b = (Reg.CSI_FB_REL 0).addr then csiRelease r.i (fldGet v F.CSI_FB_REL_INDEX) d
  else if b = Reg.TDM_CTL.addr then tdmCtlWrite v.toNat d
  else if b = Reg.CPU_HOLD.addr then cpuHold v.toNat d
  else if b = Reg.CPU_FREQ.addr then cpuFreq v.toNat d
  else d

/-- A master's write of a register: what its fields store, then what they start. -/
def regWrite (master : Nat) (r : RegAt) (v : BitVec 64) (rs : List ReloadIn) (d : Dev) : Dev :=
  d |> regStore r v |> actSys r v |> actArb master r v rs |> actImg r v |> actEng r v |> actPeriph r v

end Sys2Proof.Machine
end

