-- ==== Sys2Proof/Machine/Bus.lean ====
section
/-! DEFINITION. Fabric accesses of the masters that the block's outside stands for: decoding, registers, the synchronisation hub, array
windows, memory, other devices, and accesses held for a domain (spec 01, R23 to R54). -/

namespace Sys2Proof.Machine

/-! ### Registers and synchronisation objects -/

/-- A write of the register range by a master, or none for ALIGN (R14, R15): each register that it covers takes its part. -/
def regPutBus (master a : Nat) (bs : List Byte) (rs : List ReloadIn) (d : Dev) : Option Dev :=
  if regsWhole a bs.length then
    some ((regsTouched a bs.length).foldl (fun d (r : RegAt) =>
      regWrite master r (word64 (fieldAt bs (r.reg.addr - a) (r.desc.width / 8))) rs d) d)
  else none

/-- May an access of `n` bytes at `a` touch registers: none is touched, or the access is naturally aligned (R15)? -/
def regsNatural (a n : Nat) : Bool := (regsTouched a n).isEmpty || widthOk a n

/-- A write of the hub's objects (R667), or none for ALIGN. A poisoned argument is consumed and the operation not performed (log
entry 56). -/
def syncPut (master a : Nat) (bs : List Byte) (p : Bool) (d : Dev) : Option Dev :=
  let n := syncIdx a
  if !(syncWrites a bs.length) then none
  else if bs.length = 32 then some (syncPair (n / 2) bs p d)
  else
    if p then some (syncPoison master n d)
    else if a % 16 = 0 then some (syncOp master n (typeOp (objPeek d n).type) (fieldAt bs 0 4) d)
    else some (watchesOn n (syncField n (a % 16) (fieldAt bs 0 4) d))

/-! ### Local accesses -/

/-- Symbols that have been struck in the granule of an address, in a store that keeps its code (R518). -/
def strike (a : Nat) (e : ErrPat) (d : Dev) : Dev :=
  match storeOf a with
  | some st => if e.isEmpty || isArrayStore st then d else errSet (a / 32) (errOf d (a / 32) ++ e) d
  | none => d

/-- The bus error of a local access before its target is reached: blocks of R32, the domain and the range (R31, R41, R45); then a register
touched at an address or width that is not natural, and a window access of a width that R290 and R326 do not name (R15, log entry 9). -/
def localCause (d : Dev) (a n : Nat) (write : Bool) : Option Nat :=
  if region a = .regs ∧ regListed a = false then some causeUnmapped
  else
    match accessCause d a n write with
    | some c => some c
    | none =>
      match region a with
      | .regs => if regsNatural a n then none else some causeAlign
      | .array _ => if widthOk a n then none else some causeAlign
      | _ => none

/-- A master's local write: none when it is done, else the cause of its bus error, which is not yet logged. -/
def busPut (master a : Nat) (bs : List Byte) (p : Bool) (rs : List ReloadIn) (d : Dev) : Option Nat × Dev :=
  match localCause d a bs.length true with
  | some c => (some c, d)
  | none =>
    let done := fun (r : Option Dev) => match r with | some d => (none, d) | none => (some causeAlign, d)
    match region a with
    | .regs => done (regPutBus master a bs rs d)
    | .sync => done (syncPut master a bs p d)
    | .array k => (none, aryAfter (winWrite master k (arrOff a) bs p) d)
    | .psec _ => (none, d)
    | .pcieOut => (none, emit (.pcie (a % 2 ^ 38) true bs p) d)
    | _ => (none, writeMem a bs p d)

/-- Inbound PCIe data with the EP bit is counted and reported (R777). -/
def epCount (master : Nat) (p : Bool) (d : Dev) : Dev :=
  if p && (master == 0x10 || master == 0x11) then
    blkCount Reg.PCIE_EP_CNT Reg.PCIE_IRQ_STAT Reg.PCIE_IRQ_EN 48 1 d |> pcieCause 3
  else d

/-- A local access that no cause refuses before its target (R31, R38, R41). -/
def busServe (x : BusAcc) (fa : Nat) (d : Dev) : Dev :=
  let a := fa % 2 ^ 40
  if x.write then
    match busPut x.master a (padTo x.bytes 0 (x.data.take x.bytes)) x.poison x.reloads d with
    | (none, d) => emit (.busWrote x.master) d
    | (some c, d) => busFail c x.master true fa x.bytes d
  else
    let give := fun (r : Option (List Byte × Bool) × Dev) => match r.1 with
      | some q => busDeliver x.master fa q.1 q.2 r.2
      | none => busFail causeAlign x.master false fa x.bytes r.2
    match region a with
    | .regs => let r := regRead a x.bytes d; give (r.1.map (fun bs => (bs, false)), r.2)
    | .sync => give (syncGet x.master a x.bytes d)
    | .array k => winRead x.master k (arrOff a) x.bytes d
    | .psec k => psecRead x.master k a x.bytes d
    | .scoreWin => psecRead x.master 1 a x.bytes d
    | .calRow k => busDeliver x.master fa (((calRowBytes d k).drop (a % 0x1000)).take x.bytes) false d
    | .pcieOut =>
      let d := emit (.pcie (a % 2 ^ 38) false [] false) d
      match x.answer with
      | some bs => busDeliver x.master fa (padTo x.bytes 0 (bs.take x.bytes)) x.answerEp d
      | none => busFail causeTimeout x.master false fa x.bytes d
    | _ => let r := readMem a x.bytes d; busDeliver x.master fa r.1.1 r.1.2 r.2

/-- A local access of a master (R31, R41 to R45), performed now. `fa` is its fabric address. -/
def busDo (x : BusAcc) (fa : Nat) (d : Dev) : Dev :=
  let a := fa % 2 ^ 40
  if region a = .pcieOut ∧ 0x7FF0000000 ≤ a then
    pcieConfig x.master (a % 2 ^ 28) x.bytes x.write x.data x.answer d
  else
    let d := if x.write then epCount x.master x.poison d else d
    match localCause d a x.bytes x.write with
    | some c => busFail c x.master x.write fa x.bytes d
    | none => busServe x fa (strike a x.upset d)

/-- Does an earlier access of the same master to the same block still wait (R36), among the first `n` that are held? -/
def heldBefore (d : Dev) (master a n : Nat) : Bool :=
  (d.boot.held.take n).any (fun h => h.master == master && blockOf (h.addr % 2 ^ 40) == blockOf a)

/-- A local access of a master: one to a block whose domain is turning on is held (R42), and one behind it of the same master to the
same block waits too (R36). -/
def busLocal (x : BusAcc) (fa : Nat) (d : Dev) : Dev :=
  let a := fa % 2 ^ 40
  if accessWaits d a x.bytes x.write || heldBefore d x.master a d.boot.held.length then
    setBoot { d.boot with held := d.boot.held ++ [⟨x.master, fa, x.write, x.bytes, x.data, x.poison, none⟩] } d
  else busDo x fa d

/-! ### Accesses to other devices (R27 to R30, R652) -/

/-- A WRITE of part of one granule to another device. -/
def writeMsg (dst master a : Nat) (bs : List Byte) (p : Bool) : Msg :=
  { kind := 2, dst := dst, src := 0, master := master, addr := a, byteEn := (2 ^ bs.length - 1) * 2 ^ (a % 32),
    data := [(padTo 32 0 (List.replicate (a % 32) 0 ++ bs), p)] }

/-- A request for an access of master `x.master`; one that is refused delivers NO_ROUTE. -/
def reqOrFail (x : BusAcc) (k : ReqKind) (m : Msg) (d : Dev) : Bool × Dev :=
  match request k m d with
  | (true, d) => (true, d)
  | (false, d) => (false, emit (.busError x.master causeNoRoute (if x.write then [] else List.replicate x.bytes 0xFF)) d)

/-- Send an access to another device (R27, R645): a read of the granules it lies in, a write of its bytes of one granule. A write that
lies in two granules goes as two requests, and the second answers for both once the first has. -/
def busRemote (x : BusAcc) (fa : Nat) (d : Dev) : Dev :=
  let a := fa % 2 ^ 40
  let o := a % 32
  let dst := fa / 2 ^ 40 % 4096
  if !(hasRoute d dst) then busFail causeNoRoute x.master x.write fa x.bytes d
  else if x.write then
    let bs := padTo x.bytes 0 (x.data.take x.bytes)
    let n := min x.bytes (32 - o)
    let d := epCount x.master x.poison d
    if n = x.bytes then (reqOrFail x (.access x.master true o n) (writeMsg dst x.master a bs x.poison) d).2
    else
      match reqOrFail x (.part x.master) (writeMsg dst x.master a (bs.take n) x.poison) d with
      | (true, d) => (reqOrFail x (.access x.master true 0 (x.bytes - n)) (writeMsg dst x.master (a + n) (bs.drop n) x.poison) d).2
      | (false, d) => d
  else
    (reqOrFail x (.access x.master false o x.bytes)
      { kind := 1, dst := dst, src := 0, master := x.master, addr := a - o, len := (o + x.bytes + 31) / 32 } d).2

/-- The fabric address that an access presents: an endpoint host's BAR offset is mapped first (R777); none outside the BAR. -/
def accAddr (d : Dev) (x : BusAcc) : Option Nat :=
  match x.bar with
  | 0 => some x.addr
  | 1 => if x.addr < 0x4000000 then some (0x10000000 + x.addr) else none
  | 2 => if x.addr < 2 ^ 32 then some (gf d Reg.PCIE_BAR2_XLAT F.PCIE_BAR2_XLAT_BASE * 2 ^ 32 + x.addr) else none
  | _ => none

/-- FABRIC_ACCESS (R23 to R28): the access is performed here, sent over a link, or refused. A request from below the root port reaches the
local map alone (R777). -/
def fabricAccess (x : BusAcc) (d : Dev) : Dev :=
  match accAddr d x with
  | none => d
  | some fa =>
    let fa := fa % 2 ^ 53
    if x.master = 0x11 ∧ 2 ^ 40 ≤ fa then busFail causeUnmapped x.master x.write fa x.bytes d
    else match localOf d fa with
    | some _ => busLocal x fa d
    | none => if fa / 2 ^ 52 = 1 then busRemote x fa d else busFail causeUnmapped x.master x.write fa x.bytes d

/-! ### Held accesses (R42) -/

/-- The first write that the device's own masters posted is performed (R34); its target refused nothing when it was posted. -/
def postedRun (d : Dev) : Dev :=
  match d.boot.posted with
  | [] => d
  | h :: rest =>
    match busPut h.master h.addr h.data h.poison [] (setBoot { d.boot with posted := rest } d) with
    | (none, d) => d
    | (some c, d) => busError c h.master true h.addr d

end Sys2Proof.Machine
end

