-- ==== Sys2Proof/Machine/Mesh.lean ====
section
/-! DEFINITION. Routed messages as they arrive on a Tilhel port: forwarding, accesses performed for other devices, answers to this
device's requests, remote waits and signals, tunnelled items, and the DATA flits that carry them (spec 16, R638 to R669). -/

namespace Sys2Proof.Machine

/-! ### Answers and forwarding (R645, R648) -/

/-- Answer a request that arrived on a port; an answer that cannot be sent is discarded and counted (R648). -/
def respond (m : Msg) (kind cause : Nat) (data : List (List Byte × Bool)) (d : Dev) : Dev :=
  match sendMsg { kind := kind, dst := m.src, src := devId d, tag := m.tag, master := m.master, cause := cause, data := data } d with
  | (true, d) => d
  | (false, d) => routeErr d

/-- Answer with ERR_RSP. -/
def respondErr (m : Msg) (cause : Nat) (d : Dev) : Dev := respond m 5 cause [] d

/-- The global address of a message's access. -/
def msgAddr (m : Msg) : Nat := 2 ^ 52 + m.dst * 2 ^ 40 + m.addr

/-- A message that arrived on port `n`: one for another device is sent on, or refused where no route serves it (R647, R648); one for
this device is handled by `f`. -/
def arrive (n : Nat) (m : Msg) (f : Msg → Dev → Dev) (d : Dev) : Dev :=
  if m.dst = devId d then f m d
  else
    match sendMsg (turnClass d n m) d with
    | (true, d) => d
    | (false, d) =>
      if isResponse m.kind then routeErr d
      else routeErr d |> busError causeNoRoute (0x40 + n) (m.kind == 2) (msgAddr m) |> respondErr m causeNoRoute

/-! ### Accesses for other devices (R27, R30) -/

/-- Hold an access that came over a link and waits for its domain (R42), or behind an earlier one to the same block (R36). -/
def linkHold (n : Nat) (m : Msg) (write : Bool) (k : Dev → Dev) (d : Dev) : Dev :=
  let len := if write then 32 * m.data.length else 32 * m.len
  let a := m.addr / 32 * 32
  if accessWaits d a len write || heldBefore d (0x40 + n) a d.boot.held.length then
    setBoot { d.boot with held := d.boot.held ++ [⟨0x40 + n, msgAddr m, write, len, [], false, some m⟩] } d
  else k d

/-- Read granules from local address `a` as the link master of a port: their data and marks, or the first error's cause, logged. -/
def linkRead (master : Nat) : Nat → Nat → Dev → Option Nat × List (List Byte × Bool) × Dev
  | 0, _, d => (none, [], d)
  | k + 1, a, d =>
    match masterRead master a 32 d with
    | (.err c, d) => (some c, [], d)
    | (.ok bs p, d) =>
      match linkRead master k (a + 32) d with
      | (c, gs, d) => (c, (bs, p) :: gs, d)

/-- The granules of a READ, performed as the link master of a port. -/
def readDo (n : Nat) (m : Msg) (d : Dev) : Dev :=
  match linkRead (0x40 + n) (min m.len 64) (m.addr / 32 * 32) d with
  | (some c, _, d) => respondErr m c d
  | (none, gs, d) => respond m 3 0 gs d

/-- READ for this device. -/
def readHere (n : Nat) (m : Msg) (d : Dev) : Dev := linkHold n m false (readDo n m) d

/-- The runs of bytes that a WRITE stores: whole granules, or for one granule its enabled bytes, an aligned run of a width of R38 as
one access and any other set byte by byte. -/
def writeRuns (m : Msg) : List (Nat × List Byte × Bool) :=
  let base := m.addr / 32 * 32
  match m.data with
  | [g] =>
    let on := (List.range 32).filter (fun i => m.byteEn.testBit i)
    let lo := on.headD 0
    if on = (List.range on.length).map (fun i => lo + i) ∧ widthOk lo on.length then [(base + lo, (g.1.drop lo).take on.length, g.2)]
    else on.map (fun i => (base + i, [g.1.getD i 0], g.2))
  | gs => gs.zipIdx.map (fun (x : (List Byte × Bool) × Nat) => (base + 32 * x.2, x.1.1, x.1.2))

/-- Perform runs of writes as a master: the cause of the first that fails, logged; later ones are not performed. -/
def putRuns (master : Nat) : List (Nat × List Byte × Bool) → Dev → Option Nat × Dev
  | [], d => (none, d)
  | r :: rs, d =>
    match busPut master r.1 r.2.1 r.2.2 [] d with
    | (none, d) => putRuns master rs d
    | (some c, d) => (some c, busError c master true r.1 d)

/-- The granules of a WRITE, performed as the link master of a port. -/
def writeDo (n : Nat) (m : Msg) (d : Dev) : Dev :=
  match putRuns (0x40 + n) (writeRuns m) d with
  | (none, d) => respond m 4 0 [] d
  | (some c, d) => respondErr m c d

/-- WRITE for this device. -/
def writeHere (n : Nat) (m : Msg) (d : Dev) : Dev := linkHold n m true (writeDo n m) d

/-! ### Held accesses (R36, R42) -/

/-- The access held at place `i`, if no earlier one of its master to its block waits. -/
def heldAt (d : Dev) (i : Nat) : Option HeldAcc :=
  match d.boot.held[i]? with
  | some h => if heldBefore d h.master (h.addr % 2 ^ 40) i then none else some h
  | none => none

/-- The access held at place `i` is performed once its domain is ready. -/
def heldRelease (i : Nat) (d : Dev) : Dev :=
  match heldAt d i with
  | none => d
  | some h =>
    if accessWaits d (h.addr % 2 ^ 40) h.len h.write then d
    else
      let d := setBoot { d.boot with held := d.boot.held.eraseIdx i } d
      match h.msg with
      | some m => if h.write then writeDo (h.master - 0x40) m d else readDo (h.master - 0x40) m d
      | none =>
        busDo { master := h.master, addr := h.addr, bytes := h.len, write := h.write, data := h.data, poison := h.poison } h.addr d

/-- The access held at place `i` has waited longer than SYS_TMO; one that came over a link is answered so (R30). -/
def heldTimeout (i : Nat) (d : Dev) : Dev :=
  match heldAt d i with
  | none => d
  | some h =>
    let d := setBoot { d.boot with held := d.boot.held.eraseIdx i } d
    match h.msg with
    | some m => busError causeTimeout h.master h.write h.addr d |> respondErr m causeTimeout
    | none => busFail causeTimeout h.master h.write h.addr h.len d

/-- The object that a SYNC_OP or WATCH names, if its address is one. -/
def msgObj (m : Msg) : Option Nat := if region m.addr = .sync then some (syncIdx m.addr) else none

/-- SYNC_OP for this device: the stage signal is performed and answered with WRITE_ACK (log entry 53). -/
def syncHere (n : Nat) (m : Msg) (d : Dev) : Dev :=
  match msgObj m with
  | some o => respond m 4 0 [] (syncOp (0x40 + n) o (m.spec % 16) m.arg d)
  | none => respondErr m causeUnmapped (busError causeUnmapped (0x40 + n) true m.addr d)

/-- WATCH for this device takes the lowest free of 1,024 entries and is evaluated; with none free it is dropped, and the requester
sends it again (R669). -/
def watchHere (n : Nat) (m : Msg) (d : Dev) : Dev :=
  match msgObj m with
  | none => respondErr m causeUnmapped (busError causeUnmapped (0x40 + n) false m.addr d)
  | some _ =>
    match findBelow 1024 (fun i => !(mhas d.links.watches i)) with
    | none => d
    | some i => watchEval i (setLinks { d.links with watches := mput d.links.watches i ⟨n, m, false⟩ } d)

/-! ### Answers to this device's requests -/

/-- The fabric address of an access of this device. -/
def reqAddr (q : Req) : Nat := msgAddr q.msg

/-- READ_RSP for this device: the read completes with its part of the granules; without its request it is discarded (R29). -/
def readRspHere (m : Msg) (d : Dev) : Dev :=
  match mget d.links.reqs m.tag with
  | some q =>
    match q.kind with
    | .access master false off len =>
      let bs := m.data.flatMap (fun g => padTo 32 0 g.1)
      busDeliver master (reqAddr q + off) ((bs.drop off).take len) (m.data.any (fun g => g.2)) (reqDone m.tag d)
    | .own => reqDone m.tag d
    | _ => d
  | none => d

/-- WRITE_ACK for this device: the write, or the signal that took its place, is complete. -/
def writeAckHere (m : Msg) (d : Dev) : Dev :=
  match mget d.links.reqs m.tag with
  | some q =>
    match q.kind with
    | .access master true _ _ => emit (.busWrote master) (reqDone m.tag d)
    | .part _ | .own | .signal _ | .actArrive | .castleArrive _ => reqDone m.tag d
    | _ => d
  | none => d

/-- ERR_RSP for this device: an access ends with REMOTE (R30); an activation or castle whose remote barrier cannot be reached is
abandoned (R92, R430, R439). -/
def errRspHere (m : Msg) (d : Dev) : Dev :=
  match mget d.links.reqs m.tag with
  | some q =>
    let d := reqDone m.tag d
    match q.kind with
    | .access master w off n => busFail causeRemote master w (reqAddr q + (if w then 0 else off)) n d
    | .part master => busFail causeRemote master true (reqAddr q) 0 d
    | .own => d
    | .actArrive | .actWait => trPoke (actAbandon 0x24 0x24 false d)
    | .castleArrive n | .castleWait n => trPoke (castleStop n 0x44 d)
    | .signal _ | .wait _ _ => d
  | none => d

/-- NOTIFY for this device: the remote wait is satisfied (R669). -/
def notifyHere (m : Msg) (d : Dev) : Dev :=
  match mget d.links.reqs m.tag with
  | some q =>
    match q.kind with
    | .wait st i => let d := reqDone m.tag d; setLinks { d.links with waitOk := mput d.links.waitOk (st * 2 + i) () } d
    | .actWait =>
      let d := reqDone m.tag d
      match d.img.act with
      | some a => if a.phase = 3 then trPoke (actSwitch d) else d
      | none => d
    | .castleWait n => trPoke (castleDo n (reqDone m.tag d))
    | _ => d
  | none => d

/-- STREAM for this device: an item that the link had already delivered is discarded, another joins its channel (R653, R655). -/
def streamHere (m : Msg) (d : Dev) : Dev :=
  let p := m.spec / 2 ^ 24 % 4
  let ch := m.spec / 65536 % 16
  let fl := m.spec / 2 ^ 20 % 16
  match m.data with
  | g :: _ =>
    if ackCovers ((portOf d p).rxExp + 4095) (m.spec % 65536) then d
    else
      let it : Item := { data := padTo 32 0 (g.1.take 32), fin := fl.testBit 1, empty := fl.testBit 2, poison := g.2 || fl.testBit 3 }
      linkIn 1024 p ch (portUpd p (fun x => { x with rx := mupd x.rx ch [] (· ++ [it]) }) d)
  | [] => d

/-! ### Messages that a DOWN port leaves without a route (R648, R653) -/

/-- A message of this device that no route takes any more: its access ends with NO_ROUTE, and what else waits for it ends as on an ERR_RSP. -/
def ownRefused (m : Msg) (d : Dev) : Dev :=
  let d := routeErr d
  match (if m.kind == 1 || m.kind == 2 || m.kind == 0x10 || m.kind == 0x11 then mget d.links.reqs m.tag else none) with
  | some q =>
    match q.kind with
    | .access master w off n => busFail causeNoRoute master w (reqAddr q + (if w then 0 else off)) n (reqDone m.tag d)
    | .part master => busFail causeNoRoute master true (reqAddr q) 0 (reqDone m.tag d)
    | _ => errRspHere m (busError causeNoRoute m.master (m.kind == 2) (msgAddr m) d)
  | none => busError causeNoRoute m.master (m.kind == 2) (msgAddr m) d

/-- Refuse the messages that port `n`, which is DOWN, could not send by another route. -/
def downSettle (n : Nat) (d : Dev) : Dev :=
  if portState d n ≠ 5 then d
  else
    forEach (portOf d n).held (fun m d =>
      if isResponse m.kind then routeErr d
      else if m.src = devId d then ownRefused m d
      else routeErr d |> busError causeNoRoute (0x40 + n) (m.kind == 2) (msgAddr m) |> respondErr m causeNoRoute)
      (portUpd n (fun p => { p with held := [] }) d)

def rowTrainFlit (n lanes : Nat) (b : List Byte) (d : Dev) : Dev := downSettle n (trainFlit n lanes b d)
def rowTrainTimeout (n : Nat) (d : Dev) : Dev := downSettle n (trainTimeout n d)

/-! ### The message rows -/

def rowRead (n : Nat) (m : Msg) (d : Dev) : Dev := arrive n { m with kind := 1 } (readHere n) d
def rowWrite (n : Nat) (m : Msg) (d : Dev) : Dev := arrive n { m with kind := 2 } (writeHere n) d
def rowReadRsp (n : Nat) (m : Msg) (d : Dev) : Dev := arrive n { m with kind := 3 } readRspHere d
def rowWriteAck (n : Nat) (m : Msg) (d : Dev) : Dev := arrive n { m with kind := 4 } writeAckHere d
def rowErrRsp (n : Nat) (m : Msg) (d : Dev) : Dev := arrive n { m with kind := 5 } errRspHere d
def rowSyncOp (n : Nat) (m : Msg) (d : Dev) : Dev := arrive n { m with kind := 0x10 } (syncHere n) d
def rowWatch (n : Nat) (m : Msg) (d : Dev) : Dev := arrive n { m with kind := 0x11 } (watchHere n) d
def rowNotify (n : Nat) (m : Msg) (d : Dev) : Dev := arrive n { m with kind := 0x12 } notifyHere d
def rowStream (n : Nat) (m : Msg) (d : Dev) : Dev := arrive n { m with kind := 0x30 } streamHere d
def rowCensusStart (n : Nat) (m : Msg) (d : Dev) : Dev := arrive n { m with kind := 0x20 } (censusStart n) d
def rowCensusPart (n : Nat) (m : Msg) (d : Dev) : Dev := arrive n { m with kind := 0x21 } (censusPart n) d

/-- A whole message by its KIND; one of no kind of R645 is discarded and counted. -/
def rowMsg (n : Nat) (m : Msg) (d : Dev) : Dev :=
  match m.kind with
  | 1 => rowRead n m d
  | 2 => rowWrite n m d
  | 3 => rowReadRsp n m d
  | 4 => rowWriteAck n m d
  | 5 => rowErrRsp n m d
  | 0x10 => rowSyncOp n m d
  | 0x11 => rowWatch n m d
  | 0x12 => rowNotify n m d
  | 0x20 => rowCensusStart n m d
  | 0x21 => rowCensusPart n m d
  | 0x30 => rowStream n m d
  | _ => routeErr d

/-- WATCH_RETRY: 2 µs after a refusal the WATCH of the request with a TAG is sent again (R669). -/
def watchRetry (tag : Nat) (d : Dev) : Dev :=
  match mget d.links.reqs tag with
  | some q => if q.sent && q.msg.kind == 0x11 then (reqSend tag d).2 else d
  | none => d

/-- LINK_ACCESS_TIMEOUT: the request with a TAG got no response within SYS_TMO (R29, R652). -/
def linkTimeout (tag : Nat) (d : Dev) : Dev :=
  match mget d.links.reqs tag with
  | some q =>
    match q.kind with
    | .access master w off n => busFail causeTimeout master w (reqAddr q + (if w then 0 else off)) n (reqDone tag d)
    | .part master => busFail causeTimeout master true (reqAddr q) 0 (reqDone tag d)
    | .signal _ | .own => reqDone tag d
    | _ => d
  | none => d

/-! ### DATA flits (R626, R630 to R632, R638) -/

/-- A granule of a routed channel: the message is handled once it is whole, and the slot's credit goes back. -/
def partTake (n : Nat) (s : Slot) (g : List Byte × Bool) (d : Dev) : Dev :=
  let d := creditBack n s.ch d
  let cur := if s.flags.testBit 5 then [g] else match mgetD (portOf d n).parts s.ch [] with | [] => [] | l => l ++ [g]
  match cur with
  | [] => d
  | h :: data =>
    if data.length = msgLen h.1 then
      rowMsg n (msgParse h.1 data) (portUpd n (fun p => { p with parts := mdel p.parts s.ch }) d)
    else portUpd n (fun p => { p with parts := mput p.parts s.ch cur }) d

/-- One slot of a received flit. -/
def slotTake (n : Nat) (s : Slot) (d : Dev) : Dev :=
  if !(s.flags.testBit 0) then d
  else
    let r := slotDecode n s d
    if s.flags.testBit 4 then
      let d := portUpd n (fun p => { p with idle := mput p.idle s.ch r.1.1 }) r.2
      (routeBySrc d (epMk 4 n s.ch)).elim d (fun id => prodCheck id d)
    else if s.ch < 16 then
      let it : Item := { data := r.1.1, fin := s.flags.testBit 1, empty := s.flags.testBit 2, poison := r.1.2 }
      linkIn 1024 n s.ch (portUpd n (fun x => { x with rx := mupd x.rx s.ch [] (· ++ [it]) }) r.2)
    else partTake n s r.1 r.2

/-- TL_DATA_FLIT: a DATA flit's 160 bytes arrive on port `n`. -/
def dataFlit (n : Nat) (b : List Byte) (d : Dev) : Dev :=
  match flitAccept n 1 b d with
  | (some f, d) => f.slots.foldl (fun d s => slotTake n s d) d
  | (none, d) => d

/-- LINK_WAKE_DETECT: WAKE blocks recognised wake the device; otherwise a false wake is counted (R660). -/
def linkWake (n : Nat) (ok : Bool) (d : Dev) : Dev :=
  if ok then wakeSource (5 + n) d else tlCnt (Reg.TL_WAKE_CNT n) n d

end Sys2Proof.Machine
end

