-- ==== Sys2Proof/Machine/Compose.lean ====
section
/-! DEFINITION. What a row of the command table runs besides one block's own operation: what follows from it in other blocks within
the same command. -/

namespace Sys2Proof.Machine

/-- The header of a command that reached its executor under opcode `op` (R595). -/
def withOp (op : Nat) (h : CmdHdr) : CmdHdr := { h with opcode := op }

/-- A train-run moves on if what the command did lets it (R498). -/
def trAfter (f : Dev → Dev) (d : Dev) : Dev := trPoke (f d)

/-- The command may end an image load: the firmware then activates the stored image that it loaded at boot (R764). -/
def imgEnds (f : Dev → Dev) (d : Dev) : Dev := trPoke (autoActivate (f d))

/-- ADMIT_BATCH for a ring's waiting START, or for the train-run that executes. -/
def admitRow (ring : Option Nat) (d : Dev) : Dev :=
  match ring with
  | some n => admitRing n d
  | none => trAdmit d

/-- FIFO_CREDIT_GRANT; a FIFO whose items come over a link takes those that waited at its port. -/
def creditRow (id n : Nat) (d : Dev) : Dev :=
  let d := creditGrant id n d
  match mget d.fifos id with
  | some f => if epKind f.src = 4 then linkIn 1024 (epInst f.src) (epPort f.src) d else d
  | none => d

/-- A read of `n` bytes at an offset of stack `k`'s window, as any access is made. -/
def windowRead (master k off n : Nat) : Dev → Dev :=
  fabricAccess { master := master, addr := arrayBase k + off, bytes := n, write := false }

/-- A fabric master's write into stack `k`'s window (R314 to R319), as any access is made. -/
def xWindowWrite (master k off : Nat) (bs : List Byte) (p : Bool) : Dev → Dev :=
  fabricAccess { master := master, addr := arrayBase k + off, bytes := bs.length, write := true, data := bs, poison := p }

/-- The command word of a code (R314), written at the first key's offset. -/
def xCommandWord (master k code : Nat) : Dev → Dev :=
  xWindowWrite master k cmdOff (leBytes 4 (code + 256 * (255 - code))) false

/-- A key write: the first or the second key (R314). -/
def xKeyWrite (master k : Nat) (second : Bool) : Dev → Dev :=
  if second then xWindowWrite master k key2Off (leBytes 4 0x91D2) false
  else xWindowWrite master k cmdOff (leBytes 4 0x6E2D) false

/-- STACK_POWER_ON: PD_Sk, being switched on, is on; erases and loads that waited for it go on. -/
def stackOn (k : Nat) (d : Dev) : Dev :=
  if rising d (32 + k) then
    domsOn (2 ^ (32 + k)) (setBoot { d.boot with rising := d.boot.rising - 2 ^ (32 + k) } d) |> stackLoad k |> eraseKick |> aryKick
  else d

/-- A tier operation with its OP (R451). -/
def tmOpRow (src : TmSrc) (op : Nat) (t : TmDesc) : Dev → Dev := tmCmd src { t with op := op }

/-- SYNC_TRY_ACQUIRE: the 64-bit read at offset 0 and its delivery (R667). -/
def acquireRow (master n : Nat) (d : Dev) : Dev :=
  let r := tryAcquire master n d
  busDeliver master (objAddr n) (leBytes 8 r.1.1) r.1.2 r.2

/-- SYNC_FIELD_STORE; a watch of the object is then evaluated (R672). -/
def fieldRow (n off v : Nat) (d : Dev) : Dev := watchesOn n (syncField n off v d)

/-- Is PD_SYS clocked: not in SLEEP or DEEP, not in reset, and its supply on (R708, R745, R754)? -/
def sysClocked (d : Dev) : Bool := pmuState d != 3 && pmuState d != 4 && !d.boot.inReset && !d.boot.supplyOff

/-- A step on an empty queue: one clock cycle passes, and a write that the device's own masters posted is performed (log entry 115). -/
def idle (d : Dev) : Dev := if sysClocked d then postedRun (tick d) else tick d

end Sys2Proof.Machine
end

