-- ==== Sys2Proof/Machine/State.lean ====
section
/-! DEFINITION. The machine's state: the commands that wait, first in, first out, and the device itself. -/

namespace Sys2Proof.Machine

/-- Reasons for a stop without a next state that the hardware itself would show: none. Every error that the manual describes (a bus
error, poison, a refused command, a stopped ring, an engine fault) is a next state here. -/
inductive Fault where
deriving DecidableEq, Repr

/-- Reasons for which a command has no meaning. -/
inductive Refusal where
  /-- A command of the table without a meaning yet, by its mnemonic. Safe: nothing can be proved of its effect. No arm answers it. -/
  | notModelled (mnemonic : String)
  /-- Raised by every command whose operands do not fit their fields, which no sender can present. Safe: there is no such command. -/
  | illFormed
deriving DecidableEq, Repr

/-- The machine: the queue of waiting commands, and the device. -/
structure State where
  pending : List Instr
  dev : Dev
deriving DecidableEq, Repr

/-- The machine right after reset: no command waits, every register at its reset value, and nothing listed in any table. -/
def State.reset : State := { pending := [], dev := {} }

end Sys2Proof.Machine
end

