-- ==== Sys2Proof/WellFormed.lean ====
section
/-! DEFINITION. Well-formed commands: every operand fits the field, the port or the index that carries it. A command whose operands do
not fit is none that the block can receive. -/

namespace Sys2Proof.WellFormed

open Machine

/-- Below a bound. -/
def lt (a b : Nat) : Bool := decide (a < b)

/-- An optional operand below a bound. -/
def okOpt (o : Option Nat) (b : Nat) : Bool := o.all (fun a => lt a b)

/-- Symbol errors: positions 0 to 34, values of one byte other than 0 (R518, R547). -/
def okErr (e : ErrPat) : Bool := e.all (fun p => lt p.1 35 && lt 0 p.2 && lt p.2 256)

/-- Errors of a FIFO slot (R169): the granule's symbols, then 35 for PARITY and 36 to 38 for the copies of END, EMPTY and POISON. -/
def okItemErr (e : ErrPat) : Bool := e.all (fun p => lt p.1 39 && lt 0 p.2 && lt p.2 256)

/-- Raw errors by granule of a page (R266). -/
def okRaw (m : FMap ErrPat) : Bool := m.all (fun p => lt p.1 512 && okErr p.2)

/-- The senses of one page (R299): one to four, each with an outcome for the eight codewords. -/
def okTries (l : List (List (Option Nat))) : Bool :=
  lt 0 l.length && lt l.length 5 && l.all (fun t => decide (t.length = 8))

/-- A command entry's header (R594, R605): the ring, the entry's index, TAG, OPCODE, FLAGS and HANDLE. -/
def okHdr (h : CmdHdr) : Bool :=
  lt h.ring 16 && lt h.idx (2 ^ 32) && lt h.tag 65536 && lt h.opcode 256 && lt h.flags 256 && lt h.handle 256 && lt h.pipe 65

/-- The payload of a START (R596). -/
def okStart (p : StartP) : Bool :=
  lt p.pipe 256 && lt p.seqs 256 && lt p.sflags 256 && lt p.session 65536 && lt p.adapter 65536 && lt p.entryAddr (2 ^ 64)
    && decide (p.entryLen.length = 4) && p.entryLen.all (fun n => lt n (2 ^ 32)) && lt p.exitAddr (2 ^ 64) && lt p.exitLen (2 ^ 32)

/-- An access on the fabric (R23, R24): 1 to 32 bytes, a write with as much data. -/
def okAcc (x : BusAcc) : Bool :=
  lt x.master 256 && lt x.addr (2 ^ 53) && lt x.bar 3 && lt 0 x.bytes && lt x.bytes 33
    && (!x.write || decide (x.data.length = x.bytes)) && okErr x.upset

/-- What a reload meets outside: a slot, a side and a shard (R560). -/
def okReload (r : ReloadIn) : Bool := lt r.slot 64 && lt r.side 2 && lt r.shard 4096 && lt r.fail 256

/-- A tier operation's descriptor and source (R451). -/
def okTm (src : TmSrc) (t : TmDesc) : Bool :=
  (match src with
    | .ring h => okHdr h
    | .port m => lt m 256
    | .hot => true
    | .arb => true)
    && lt t.op 256 && lt t.kindMode 256 && lt t.flagsTier 256 && lt t.engine 256 && lt t.obj 65536 && lt t.tag 65536
    && lt t.backFirst (2 ^ 64) && lt t.sizeCount (2 ^ 32) && lt t.frame 65536 && lt t.counter (2 ^ 32)

/-- A flit is 160 bytes (R624). -/
def okFlit (b : List Byte) : Bool := decide (b.length = 160)

/-- A routed message (R644): the header's field widths, and data granules of 32 bytes. -/
def okMsg (m : Msg) : Bool :=
  lt m.kind 256 && lt m.dst 4096 && lt m.src 4096 && lt m.hops 256 && lt m.cls 2 && lt m.master 256 && lt m.tag 65536
    && lt m.cause 256 && lt m.addr (2 ^ 40) && lt m.byteEn (2 ^ 32) && lt m.arg (2 ^ 32) && lt m.spec (2 ^ 64) && lt m.len 65
    && lt m.data.length 65 && m.data.all (fun g => decide (g.1.length = 32))

/-- The offset of a field of a synchronisation object (R667). -/
def okField (o : Nat) : Bool := decide (o = 4) || decide (o = 8) || decide (o = 12)

end Sys2Proof.WellFormed

namespace Sys2Proof

open Machine WellFormed

/-- Is every operand of the command within the width of the field that carries it? -/
def Instr.wf : Instr → Bool
  | .registerWrite addr value => lt addr (2 ^ 40) && lt value (2 ^ 64)
  | .fabricAccess x => okAcc x
  | .linkAccessTimeout tag => lt tag 65536
  | .heldAccessRelease _ => true
  | .powerUpAccessTimeout _ => true
  | .sysNodeLock => true
  | .imgLoadGo => true
  | .imgPass1ReadDone => true
  | .imgSignatureDone => true
  | .imgPass2Done _ => true
  | .imgSourceFault code off => lt code 256 && lt off (2 ^ 32)
  | .imgLoadAbort => true
  | .imgQueuedStart => true
  | .imgActGo => true
  | .actDrainDone => true
  | .actConstCopyDone => true
  | .actBarrierRelease => true
  | .actTimeout => true
  | .start h p => okHdr h && okStart p
  | .admitBatch ring => okOpt ring 16
  | .stageFire k _ _ _ _ => lt k 16
  | .firingEnd k id => lt k 16 && lt id 512
  | .fifoItemPresent id k upset => lt id 1024 && lt k 16 && okItemErr upset
  | .fifoCreditGrant id n => lt id 1024 && lt n 513
  | .fifoMark id k => lt id 1024 && lt k 16
  | .fifoRewind id k => lt id 1024 && lt k 16
  | .fifoRelease id k => lt id 1024 && lt k 16
  | .fifoStarved id => lt id 1024
  | .fcPinHoldExpiry p => lt p 9
  | .fifoWmWrite id v => lt id 1024 && lt v (2 ^ 32)
  | .stageBatchEnd k id => lt k 16 && lt id 512
  | .stageSignalIssue k id => lt k 16 && lt id 512
  | .batchComplete p => lt p 64
  | .wsFetch k id => lt k 16 && lt id 512
  | .auFetch k id => lt k 16 && lt id 512
  | .auWrite k id => lt k 16 && lt id 512
  | .fetchArrival k id _ _ => lt k 16 && lt id 512
  | .engWaitTimeout k id w => lt k 16 && lt id 512 && lt w 2
  | .engDrain k => lt k 16
  | .engDrained k => lt k 16
  | .engDrainSlow k => lt k 16
  | .engEnable k => lt k 16
  | .engKill k => lt k 16
  | .engFailDeclare k => lt k 16
  | .engCntClr k => lt k 16
  | .fireHang k => lt k 16
  | .engFault k cause => lt k 16 && lt 1 cause && lt cause 6
  | .arbRelocation k => lt k 16
  | .shardMigration r => okReload r
  | .qzSatWindowEnd k n => lt k 16 && lt n 64
  | .qzScaleCalibrate k n v => lt k 16 && lt n 64 && lt v (2 ^ 32)
  | .arrayWindowRead master k off n => lt master 256 && lt k 16 && lt off (2 ^ 31) && lt 0 n && lt n 33
  | .senseComplete k p tries raw => lt k 16 && (lt p 129 || p == 160) && okTries tries && okRaw raw
  | .arrayReadTimeout master k => lt master 256 && lt k 16
  | .stackPowerOn k => lt k 16
  | .autoSuspend k g => lt k 16 && lt g 5
  | .autoResume k g => lt k 16 && lt g 5
  | .arySeqKey master k _ => lt master 256 && lt k 16
  | .aryStrayWrite master k off _ => lt master 256 && lt k 16 && lt off (2 ^ 31)
  | .arySeqTimeout k => lt k 16
  | .aryErase master k => lt master 256 && lt k 16
  | .aryProgramBuffer master k => lt master 256 && lt k 16
  | .aryBufferWrite master k off _ _ => lt master 256 && lt k 16 && lt off (2 ^ 31)
  | .aryCommit master k => lt master 256 && lt k 16
  | .aryPbTimeout k => lt k 16
  | .arySuspend master k => lt master 256 && lt k 16
  | .arySuspendHeldExpiry k => lt k 16
  | .aryResume master k => lt master 256 && lt k 16
  | .aryAbort master k => lt master 256 && lt k 16
  | .aryStatus master k => lt master 256 && lt k 16
  | .aryIdentify master k => lt master 256 && lt k 16
  | .aryContinuousRead master k => lt master 256 && lt k 16
  | .aryPasswordUnlock master k => lt master 256 && lt k 16
  | .aryLock master k => lt master 256 && lt k 16
  | .pwTableWriteDone k => lt k 16
  | .aryPowerGrant => true
  | .aryOpDone k g _ _ => lt k 16 && lt g 5
  | .aryRetire k b => lt k 16 && lt b 512
  | .load h addr len slot side kind nsid => okHdr h && lt addr (2 ^ 64) && lt len (2 ^ 32) && lt slot 256 && lt side 256 && lt kind 256 && lt nsid (2 ^ 32)
  | .loadQueuedStart => true
  | .loadManifestArrival => true
  | .nvmeCompletion status shard _ => lt status 32768 && okOpt shard 4096
  | .shardArrivalDone i => lt i 4096
  | .shardReadbackDone i => lt i 4096
  | .loadSourceFault shard _ cause => okOpt shard 4096 && lt cause 16
  | .loadSourceTimeout shard => okOpt shard 4096
  | .leDisable => true
  | .leEnable => true
  | .patrolLapStart => true
  | .patrolShardCheck => true
  | .castle h slot flags barrier => okHdr h && lt slot 256 && lt flags 256 && lt barrier (2 ^ 32)
  | .castleBarrierRelease slot => lt slot 64
  | .castleTimeout slot => lt slot 64
  | .castleHoldExpiry slot => lt slot 64
  | .arbSlotExpire => true
  | .release h slot side => okHdr h && lt slot 256 && lt side 256
  | .sessionClose h slot session => okHdr h && lt slot 256 && lt session 65536
  | .tmPlace src t => okTm src t
  | .tmFree src t => okTm src t
  | .tmPromote src t => okTm src t
  | .tmCapture src t => okTm src t
  | .tmPin src t => okTm src t
  | .tmUnpin src t => okTm src t
  | .tmFlush src t => okTm src t
  | .tmTileCopyDone n => lt n 16384
  | .tmMappingQuiesced n => lt n 16384
  | .tmHotInterval => true
  | .tmDisable => true
  | .tmEnable => true
  | .train h addr => okHdr h && lt addr (2 ^ 64)
  | .trainSetupDone => true
  | .trainCommitDone => true
  | .scrubRead st upset => lt st 64 && okErr upset
  | .intgScrubSlow st => lt st 64
  | .intgFlipArm v => lt v (2 ^ 64)
  | .arbHoldClassify i rs => lt i 1024 && rs.all okReload
  | .batchReplay p seq => lt p 64 && lt seq 65536
  | .arbHoldReplay i => lt i 1024
  | .arbHoldResign i => lt i 1024
  | .shardReload r => okReload r
  | .reloadRetryTimer r => okReload r
  | .recovRetryNow rs => rs.all okReload
  | .stackDegraded k rs => lt k 16 && rs.all okReload
  | .stackDead k rs => lt k 16 && rs.all okReload
  | .arbBlockRetire k b rs => lt k 16 && lt b 512 && rs.all okReload
  | .arbCeRepeatResponse st a rs => lt st 64 && lt a (2 ^ 40) && rs.all okReload
  | .arbWatchdogExpiry => true
  | .poweredTimeSave => true
  | .scoreRecordQueue event kind index args => lt event 65536 && lt kind 256 && lt index 256 && args.all (fun a => lt a (2 ^ 64))
  | .scorePost master => lt master 256
  | .scoreFlush => true
  | .scoreFlushTimeout => true
  | .scorePageProgrammed => true
  | .scoreSectorErased => true
  | .scoreScanDone => true
  | .powerFail _ => true
  | .cmdTailWrite n v => lt n 16 && lt v (2 ^ 32)
  | .cplHeadWrite n v => lt n 16 && lt v (2 ^ 32)
  | .ringEnable n => lt n 16
  | .ringDisable n => lt n 16
  | .commandDispatch => true
  | .completionRelease n => lt n 16
  | .ringCplStall n => lt n 16
  | .ringModTimer n => lt n 16
  | .ringProgressTimer t => lt t 256
  | .nop h => okHdr h
  | .query h kind index => okHdr h && lt kind 256 && lt index 256
  | .adjourn h t => okHdr h && lt t 256
  | .resume h t => okHdr h && lt t 256
  | .resign h t => okHdr h && lt t 256
  | .imgLoad h src len => okHdr h && lt src (2 ^ 64) && lt len (2 ^ 32)
  | .imgActivate h en barrier => okHdr h && lt en 256 && lt barrier (2 ^ 32)
  | .census h expect => okHdr h && lt expect 65536
  | .tlEnable n => lt n 4
  | .tlDisable n => lt n 4
  | .tlTrainFlit n lanes flit => lt n 4 && lt lanes 256 && okFlit flit
  | .tlTrainTimeout n => lt n 4
  | .tlDataFlit n flit => lt n 4 && okFlit flit
  | .tlIdleFlit n flit => lt n 4 && okFlit flit
  | .tlAckFlit n flit => lt n 4 && okFlit flit
  | .tlNakFlit n flit => lt n 4 && okFlit flit
  | .tlSleepNotice n flit => lt n 4 && okFlit flit
  | .tlReplayTimeout n => lt n 4
  | .tlAckTimer n => lt n 4
  | .tlIdleInsert n => lt n 4
  | .tlVcIdleSend n v => lt n 4 && lt v 16
  | .tlFcInChange n _ => lt n 4
  | .tlFcStuck n => lt n 4
  | .tlFpSettleExpiry n => lt n 4
  | .tlWakeRetry n => lt n 4
  | .linkWakeDetect n _ => lt n 4
  | .read n m => lt n 4 && okMsg m
  | .write n m => lt n 4 && okMsg m
  | .readRsp n m => lt n 4 && okMsg m
  | .writeAck n m => lt n 4 && okMsg m
  | .errRsp n m => lt n 4 && okMsg m
  | .syncOp n m => lt n 4 && okMsg m
  | .watch n m => lt n 4 && okMsg m
  | .notify n m => lt n 4 && okMsg m
  | .watchRetry tag => lt tag 65536
  | .stream n m => lt n 4 && okMsg m
  | .censusStart n m => lt n 4 && okMsg m
  | .censusPart n m => lt n 4 && okMsg m
  | .censusChildTimeout => true
  | .counterAdd master n arg => lt master 256 && lt n 65536 && lt arg (2 ^ 32)
  | .semaphoreRelease master n arg => lt master 256 && lt n 65536 && lt arg (2 ^ 32)
  | .barrierArrive master n => lt master 256 && lt n 65536
  | .eventFlagSet master n arg => lt master 256 && lt n 65536 && lt arg (2 ^ 32)
  | .reductionContribute master n arg => lt master 256 && lt n 65536 && lt arg (2 ^ 32)
  | .syncTryAcquire master n => lt master 256 && lt n 65536
  | .syncFieldStore n off v => lt n 65536 && okField off && lt v (2 ^ 32)
  | .syncPairWrite m data _ => lt m 32768 && lt data.length 33 && lt 31 data.length
  | .icSetpend id => lt id 1024
  | .icClrpend id _ => lt id 1024
  | .icVectorAccept c _ => lt c 8
  | .icEoi c id => lt c 8 && lt id 1024
  | .icEnWrite m v race => lt m 16 && lt v (2 ^ 32) && okOpt race 8
  | .pmuRequestEntry target => lt target 8
  | .pmuRequestExit => true
  | .autoIdleEntry => true
  | .autoRunExit => true
  | .agentAnswer a _ => lt a 45
  | .pmuHandshakeTimeout => true
  | .wakeSource src => lt src 15
  | .aonCalibrate => true
  | .aonCalDone xtal rc => lt xtal (2 ^ 32) && lt rc (2 ^ 32)
  | .aonClockFallback => true
  | .aonClockRetry => true
  | .aonCrystalStable => true
  | .aonAlarm n => lt n 4
  | .pmuDomainFault dom kind => lt dom 48 && lt kind 2
  | .powerOnReset => true
  | .supplyReset => true
  | .pinReset _ => true
  | .softwareReset code => lt code 65536
  | .perstFall => true
  | .keyRecover type => lt type 65536
  | .arbBootCfg base compat => lt base (2 ^ 40) && lt compat 2
  | .keyFuseProg slot => lt slot 4
  | .keyFuseRevoke => true
  | .keyFuseRaise level => lt level 64
  | .keyFuseDone _ => true
  | .keyAttest => true
  | .keyAttestDone => true
  | .ddrTrain => true
  | .ddrTrainDone mask => lt mask 256
  | .ddrTrainTimeout mask => lt mask 256
  | .ddrInitDone rs => rs.all okReload
  | .thermalTrip _ => true
  | .jtagExtest _ => true
  | .resetRelease _ => true
  | .ethRxFrame m _ _ => lt m 2
  | .ethRxTailWrite m v => lt m 2 && lt v (2 ^ 32)
  | .ethTxTailWrite m v => lt m 2 && lt v (2 ^ 32)
  | .ethTxDone m => lt m 2
  | .ethLinkDown m => lt m 2
  | .usbOutTransfer _ _ => true
  | .usbInDone => true
  | .usbOutTailWrite v => lt v (2 ^ 32)
  | .usbInTailWrite v => lt v (2 ^ 32)
  | .usbBusReset speed => lt speed 4
  | .csiFrameStart n num => lt n 4 && lt num 65536
  | .csiFrameEnd n width lines dt vc _ => lt n 4 && lt width 65536 && lt lines 65536 && lt dt 64 && lt vc 4
  | .csiFrameTimeout n => lt n 4
  | .csiFbRel n i => lt n 4 && lt i 64
  | .csiFbCfgWrite n v => lt n 4 && lt v (2 ^ 32)
  | .tdmFrame samples _ => samples.all (fun x => lt x (2 ^ 24))
  | .tdmRingDrain => true
  | .tdmFsLost => true
  | .tdmCtlWrite v => lt v (2 ^ 32)
  | .vadWindow _ => true
  | .pcieLinkTrain => true
  | .pcieLinkFail => true
  | .pcieConfigAccess master off n _ _ _ => lt master 256 && lt off (2 ^ 28) && lt n 33
  | .cpuHoldWrite v => lt v (2 ^ 32)
  | .cpuFreqWrite v => lt v (2 ^ 32)
  | .pcieLinkUp rate width => lt rate 6 && lt 0 rate && lt width 5 && lt 0 width
  | .ethBlockLock m => lt m 2
  | .usbBusSuspend _ => true
  | .usbStandardRequest setup => lt setup.length 9 && lt 7 setup.length

end Sys2Proof
end

