-- ==== Sys2Proof/Machine/Lift.lean ====
section
/-! DEFINITION. How a command's effect on the device becomes a step of the machine. -/

namespace Sys2Proof.Machine

/-- A well-formed command changes the device by `f` and leaves the queue as it is. -/
def lift (ok : Bool) (f : Dev → Dev) (s : State) : Host.Outcome State Fault Refusal :=
  if ok then .next { s with dev := f s.dev } else .refused .illFormed

/-- The same for a command of PD_SYS, which does nothing while PD_SYS has no clock (R708, R745, R754). -/
def liftSys (ok : Bool) (f : Dev → Dev) (s : State) : Host.Outcome State Fault Refusal :=
  lift ok (fun d => if sysClocked d then f d else d) s

end Sys2Proof.Machine
end

