-- ==== Sys2Proof/Machine/RowsArb.lean ====
section
/-! DEFINITION. The meanings of the commands on integrity, failure handling and the scoresheet (spec 13, 14). -/

namespace Sys2Proof.Machine

open WellFormed

/-- SCRUB_READ (R542). In an idle cycle, the scrubber reads the next granule of a store and acts on its decode. -/
def execScrubRead (st : Nat) (upset : ErrPat) (s : State) : Host.Outcome State Fault Refusal :=
  liftSys (lt st 64 && okErr upset) (scrubRead st upset) s

/-- INTG_SCRUB_SLOW (R545). A scrub lap runs longer than the store's INTG_LAP_TMO and INTG_SCRUB_SLOW is raised. -/
def execIntgScrubSlow (st : Nat) (s : State) : Host.Outcome State Fault Refusal :=
  liftSys (lt st 64) (scrubSlow st) s

/-- INTG_FLIP_ARM (R547). A write setting INTG_FLIP.ARM arms the flip mask, or is ignored if its fields are invalid. -/
def execIntgFlipArm (v : Nat) (s : State) : Host.Outcome State Fault Refusal :=
  liftSys (lt v (2 ^ 64)) (flipWrite (word64 v)) s

/-- ARB_HOLD_CLASSIFY (R554). The arbiter classifies a held batch by the UE log and treats it as TRANSIENT, SHARD, ADAPTER or
DATA. -/
def execArbHoldClassify (i : Nat) (rs : List ReloadIn) (s : State) : Host.Outcome State Fault Refusal :=
  liftSys (lt i 1024 && rs.all okReload) (holdClassify i rs) s

/-- BATCH_REPLAY (R556). A held batch's entry data re-enters the pipeline as its original admission. -/
def execBatchReplay (p seq : Nat) (s : State) : Host.Outcome State Fault Refusal :=
  liftSys (lt p 64 && lt seq 65536) (batchReplayRow p seq) s

/-- ARB_HOLD_REPLAY (R557). Writing ARB_HOLD_CTL.REPLAY replays a held-batch entry. -/
def execArbHoldReplay (i : Nat) (s : State) : Host.Outcome State Fault Refusal :=
  liftSys (lt i 1024) (holdReplay i) s

/-- ARB_HOLD_RESIGN (R559). Writing ARB_HOLD_CTL.RESIGN completes a held batch as resigned and releases withheld completions.
-/
def execArbHoldResign (i : Nat) (s : State) : Host.Outcome State Fault Refusal :=
  liftSys (lt i 1024) (holdResign i) s

/-- SHARD_RELOAD (R560). The arbiter stops the slot's admissions, reloads a shard, switches its extents and replays. -/
def execShardReload (r : ReloadIn) (s : State) : Host.Outcome State Fault Refusal :=
  liftSys (okReload r) (shardReload r) s

/-- RELOAD_RETRY_TIMER (R561). ARB_RELOAD_RETRY elapses and the arbiter tries the reload of an unavailable slot again. -/
def execReloadRetryTimer (r : ReloadIn) (s : State) : Host.Outcome State Fault Refusal :=
  liftSys (okReload r) (reloadRetry r) s

/-- RECOV_RETRY_NOW (R561). Writing ARB_RECOV_CTL.RETRY_NOW retries reloads of unavailable slots at once. -/
def execRecovRetryNow (rs : List ReloadIn) (s : State) : Host.Outcome State Fault Refusal :=
  liftSys (rs.all okReload) (retryNow rs) s

/-- STACK_DEGRADED (R565). The arbiter declares a stack DEGRADED, withdraws its quads and migrates its shards. -/
def execStackDegraded (k : Nat) (rs : List ReloadIn) (s : State) : Host.Outcome State Fault Refusal :=
  liftSys (lt k 16 && rs.all okReload) (stackDegraded k rs) s

/-- STACK_DEAD (R566). The arbiter declares a stack DEAD and evacuates its shards by reload. -/
def execStackDead (k : Nat) (rs : List ReloadIn) (s : State) : Host.Outcome State Fault Refusal :=
  liftSys (lt k 16 && rs.all okReload) (stackDead k rs) s

/-- ARB_BLOCK_RETIRE (R568). The arbiter retires a failed block once no extent covers it. -/
def execArbBlockRetire (k b : Nat) (rs : List ReloadIn) (s : State) : Host.Outcome State Fault Refusal :=
  liftSys (lt k 16 && lt b 512 && rs.all okReload) (blockRetire k b rs) s

/-- ARB_CE_REPEAT_RESPONSE (R569). The arbiter reloads, moves or quarantines data at a repeated correctable address. -/
def execArbCeRepeatResponse (st a : Nat) (rs : List ReloadIn) (s : State) : Host.Outcome State Fault Refusal :=
  liftSys (lt st 64 && lt a (2 ^ 40) && rs.all okReload) (ceRepeat st a rs) s

/-- ARB_WATCHDOG_EXPIRY (R572). The arbiter misses its watchdog for 100 ms and is restarted alone, with ARB_RESTART recorded.
-/
def execArbWatchdogExpiry (s : State) : Host.Outcome State Fault Refusal :=
  liftSys true watchdogExpiry s

/-- POWERED_TIME_SAVE (R571). An hour of AON_TIME passes and the powered-time count is saved. -/
def execPoweredTimeSave (s : State) : Host.Outcome State Fault Refusal :=
  liftSys true healthWrite s

/-- SCORE_RECORD_QUEUE (R576). A scoresheet record enters the writer's 64-entry queue or is dropped and counted. -/
def execScoreRecordQueue (event kind index : Nat) (args : List Nat) (s : State) : Host.Outcome State Fault Refusal :=
  liftSys (lt event 65536 && lt kind 256 && lt index 256 && args.all (fun a => lt a (2 ^ 64))) (scoreEvent event kind index args) s

/-- SCORE_POST (R575). Writing ARB_SCORE_POST_CTL.GO queues a SOFTWARE record or is refused with POST_REJ. -/
def execScorePost (master : Nat) (s : State) : Host.Outcome State Fault Refusal :=
  liftSys (lt master 256) (scorePost master) s

/-- SCORE_FLUSH (R577). Writing ARB_SCORE_FLUSH.GO programs the open page. -/
def execScoreFlush (s : State) : Host.Outcome State Fault Refusal :=
  liftSys true (scoreProgram false) s

/-- SCORE_FLUSH_TIMEOUT (R577). A ring page's oldest record has waited ARB_SCORE_FLUSH_TMO and the page is programmed. -/
def execScoreFlushTimeout (s : State) : Host.Outcome State Fault Refusal :=
  liftSys true scoreFlushTimeout s

/-- SCORE_PAGE_PROGRAMMED (R578). A scoresheet page program ends and the writer moves on, erasing the next ring sector at a
sector start. -/
def execScorePageProgrammed (s : State) : Host.Outcome State Fault Refusal :=
  lift true scorePageDone s

/-- SCORE_SECTOR_ERASED (R578). The erase of the next ring sector ends and ordinary records may fill the reserve. -/
def execScoreSectorErased (s : State) : Host.Outcome State Fault Refusal :=
  lift true scoreErased s

/-- SCORE_SCAN_DONE (R581). The power-on scan of the scoresheet ends, sets ARB_SCORE_SEQ and releases queued records. -/
def execScoreScanDone (s : State) : Host.Outcome State Fault Refusal :=
  lift true scoreScanDone s

/-- POWER_FAIL (R580). The PMU detects main supply failure and stops array operations and writes the final records from
VHOLD. -/
def execPowerFail (vhold : Bool) (s : State) : Host.Outcome State Fault Refusal :=
  lift true (supplyLost vhold) s

end Sys2Proof.Machine
end

