-- ==== Sys2Proof/Machine/RowsArray.lean ====
section
/-! DEFINITION. The meanings of the commands on the weight array (spec 07, 08). -/

namespace Sys2Proof.Machine

open WellFormed

/-- ARRAY_WINDOW_READ (R290). A fabric master reads the main-block span of an array window, from a register or through a
sense. -/
def execArrayWindowRead (master k off n : Nat) (s : State) : Host.Outcome State Fault Refusal :=
  liftSys (lt master 256 && lt k 16 && lt off (2 ^ 31) && lt 0 n && lt n 33) (windowRead master k off n) s

/-- SENSE_COMPLETE (R283). A plane's sense ends, the page is decoded by the inner code and delivered or retried. -/
def execSenseComplete (k p : Nat) (tries : List (List (Option Nat))) (raw : FMap ErrPat) (s : State) : Host.Outcome State Fault Refusal :=
  liftSys (lt k 16 && (lt p 129 || p == 160) && okTries tries && okRaw raw) (senseComplete k p tries raw) s

/-- ARRAY_READ_TIMEOUT (R293). A window read unanswered within ARY_RD_TMO returns TIMEOUT and is cancelled. -/
def execArrayReadTimeout (master k : Nat) (s : State) : Host.Outcome State Fault Refusal :=
  liftSys (lt master 256 && lt k 16) (winTimeout master k) s

/-- STACK_POWER_ON (R304). PD_Sk turns on and the controller loads and checks its calibration row and wear record. -/
def execStackPowerOn (k : Nat) (s : State) : Host.Outcome State Fault Refusal :=
  liftSys (lt k 16) (stackOn k) s

/-- AUTO_SUSPEND (R294). A sense needed in a programming or erasing plane group suspends the operation once 500 µs have run.
-/
def execAutoSuspend (k g : Nat) (s : State) : Host.Outcome State Fault Refusal :=
  liftSys (lt k 16 && lt g 5) (autoSuspend k g) s

/-- AUTO_RESUME (R295). After 1 µs with no pending sense or ARY_RD_SLOT, the auto-suspended operation resumes. -/
def execAutoResume (k g : Nat) (s : State) : Host.Outcome State Fault Refusal :=
  liftSys (lt k 16 && lt g 5) (autoResume k g) s

/-- ARY_SEQ_KEY (R314). A key write to the array window advances the stack's command sequence state. -/
def execArySeqKey (master k : Nat) (second : Bool) (s : State) : Host.Outcome State Fault Refusal :=
  liftSys (lt master 256 && lt k 16) (xKeyWrite master k second) s

/-- ARY_STRAY_WRITE (R319). A window write that is no sequence, single-write command or buffer data is ignored and sets
SEQ_ERR. -/
def execAryStrayWrite (master k off : Nat) (data : List Byte) (s : State) : Host.Outcome State Fault Refusal :=
  liftSys (lt master 256 && lt k 16 && lt off (2 ^ 31)) (xWindowWrite master k off data false) s

/-- ARY_SEQ_TIMEOUT (R318). A sequence whose next write misses ARY_SEQ_TMO is discarded with SEQ_ERR. -/
def execArySeqTimeout (k : Nat) (s : State) : Host.Outcome State Fault Refusal :=
  liftSys (lt k 16) (xSeqTimeout k) s

/-- ARY_ERASE (R323). Command 0x60 checks and starts an erase of a main block or parameter sector. -/
def execAryErase (master k : Nat) (s : State) : Host.Outcome State Fault Refusal :=
  liftSys (lt master 256 && lt k 16) (xCommandWord master k 0x60) s

/-- ARY_PROGRAM_BUFFER (R326). Command 0x81 opens the program buffer for a unit and fills it with 0xFF. -/
def execAryProgramBuffer (master k : Nat) (s : State) : Host.Outcome State Fault Refusal :=
  liftSys (lt master 256 && lt k 16) (xCommandWord master k 0x81) s

/-- ARY_BUFFER_WRITE (R326). A write into the aperture places data in the open program buffer. -/
def execAryBufferWrite (master k off : Nat) (data : List Byte) (poison : Bool) (s : State) : Host.Outcome State Fault Refusal :=
  liftSys (lt master 256 && lt k 16 && lt off (2 ^ 31)) (xWindowWrite master k off data poison) s

/-- ARY_COMMIT (R328). The commit word closes the buffer, computes check symbols and starts the unit program. -/
def execAryCommit (master k : Nat) (s : State) : Host.Outcome State Fault Refusal :=
  liftSys (lt master 256 && lt k 16) (xCommandWord master k 0x81) s

/-- ARY_PB_TIMEOUT (R329). No commit within ARY_PB_TMO discards the buffer with PB_TIMEOUT. -/
def execAryPbTimeout (k : Nat) (s : State) : Host.Outcome State Fault Refusal :=
  liftSys (lt k 16) (aryAfter (pbTimeout k)) s

/-- ARY_SUSPEND (R341). Command 0xB0 suspends every running program and erase of the stack. -/
def execArySuspend (master k : Nat) (s : State) : Host.Outcome State Fault Refusal :=
  liftSys (lt master 256 && lt k 16) (xCommandWord master k 0xB0) s

/-- ARY_SUSPEND_HELD_EXPIRY (R342). A suspend held until 500 µs of running takes effect. -/
def execArySuspendHeldExpiry (k : Nat) (s : State) : Host.Outcome State Fault Refusal :=
  liftSys (lt k 16) (arySuspendDue k) s

/-- ARY_RESUME (R343). Command 0xD0 resumes operations suspended by command, or cancels a held suspend. -/
def execAryResume (master k : Nat) (s : State) : Host.Outcome State Fault Refusal :=
  liftSys (lt master 256 && lt k 16) (xCommandWord master k 0xD0) s

/-- ARY_ABORT (R336). Command 0xF0 stops every operation, closes the buffer and returns the window to array mode. -/
def execAryAbort (master k : Nat) (s : State) : Host.Outcome State Fault Refusal :=
  liftSys (lt master 256 && lt k 16) (xCommandWord master k 0xF0) s

/-- ARY_STATUS (R332). Command 0x70 makes the next window read return ARY_STAT. -/
def execAryStatus (master k : Nat) (s : State) : Host.Outcome State Fault Refusal :=
  liftSys (lt master 256 && lt k 16) (xCommandWord master k 0x70) s

/-- ARY_IDENTIFY (R333). Command 0x90 makes low window offsets return the identification and wear table. -/
def execAryIdentify (master k : Nat) (s : State) : Host.Outcome State Fault Refusal :=
  liftSys (lt master 256 && lt k 16) (xCommandWord master k 0x90) s

/-- ARY_CONTINUOUS_READ (R335). Command 0xE8 makes the window context sense ahead in window order. -/
def execAryContinuousRead (master k : Nat) (s : State) : Host.Outcome State Fault Refusal :=
  liftSys (lt master 256 && lt k 16) (xCommandWord master k 0xE8) s

/-- ARY_PASSWORD_UNLOCK (R356). Command 0xC5 unlocks a region if ARY_PW matches, or counts a failure. -/
def execAryPasswordUnlock (master k : Nat) (s : State) : Host.Outcome State Fault Refusal :=
  liftSys (lt master 256 && lt k 16) (xCommandWord master k 0xC5) s

/-- ARY_LOCK (R356). Command 0xC6 sets a password, locks a region or clears a password. -/
def execAryLock (master k : Nat) (s : State) : Host.Outcome State Fault Refusal :=
  liftSys (lt master 256 && lt k 16) (xCommandWord master k 0xC6) s

/-- PW_TABLE_WRITE_DONE (R361). The new password table version is written and PW_BUSY clears. -/
def execPwTableWriteDone (k : Nat) (s : State) : Host.Outcome State Fault Refusal :=
  liftSys (lt k 16) (pwWritten k) s

/-- ARY_POWER_GRANT (R346). A waiting stack receives a program power grant and its operation starts or resumes. -/
def execAryPowerGrant (s : State) : Host.Outcome State Fault Refusal :=
  liftSys true grantGive s

/-- ARY_OP_DONE (R339). A program or erase ends with its outcome in ARY_OPSTAT and raises ARY_OP_DONE. -/
def execAryOpDone (k g us : Nat) (ok : Bool) (s : State) : Host.Outcome State Fault Refusal :=
  liftSys (lt k 16 && lt g 5) (xOpDone k g us ok) s

/-- ARY_RETIRE (R353). Writing ARY_RETIRE aborts operations on a block, marks it RETIRED and unreadable. -/
def execAryRetire (k b : Nat) (s : State) : Host.Outcome State Fault Refusal :=
  liftSys (lt k 16 && lt b 512) (aryAfter (aryRetire k b)) s

end Sys2Proof.Machine
end

