-- ==== Sys2Proof/Machine/RowsBus.lean ====
section
/-! DEFINITION. The meanings of the commands on registers, fabric accesses and held accesses (spec 01). -/

namespace Sys2Proof.Machine

open WellFormed

/-- REGISTER_WRITE (R9). A write to a register field that has no row of its own stores or ignores the value by its access
code and range. -/
def execRegisterWrite (addr value : Nat) (s : State) : Host.Outcome State Fault Refusal :=
  liftSys (lt addr (2 ^ 40) && lt value (2 ^ 64)) (registerWrite addr value) s

/-- FABRIC_ACCESS (R23). A master presents a 53-bit fabric address, which the device decodes and performs locally, sends over
a link or refuses with a bus error. -/
def execFabricAccess (x : BusAcc) (s : State) : Host.Outcome State Fault Refusal :=
  liftSys (okAcc x) (fabricAccess x) s

/-- LINK_ACCESS_TIMEOUT (R29). An access sent over a link gets no response within SYS_TMO and returns TIMEOUT; a later
response is discarded. -/
def execLinkAccessTimeout (tag : Nat) (s : State) : Host.Outcome State Fault Refusal :=
  liftSys (lt tag 65536) (linkTimeout tag) s

/-- HELD_ACCESS_RELEASE (R42). An access held while its block's domain powers on is performed once the domain is ready. -/
def execHeldAccessRelease (i : Nat) (s : State) : Host.Outcome State Fault Refusal :=
  liftSys true (heldRelease i) s

/-- POWER_UP_ACCESS_TIMEOUT (R42). An access held for a powering-on domain exceeds SYS_TMO and returns TIMEOUT. -/
def execPowerUpAccessTimeout (i : Nat) (s : State) : Host.Outcome State Fault Refusal :=
  liftSys true (heldTimeout i) s

/-- SYS_NODE_LOCK (R46). Setting SYS_NODE.LOCK freezes DEV_ID and TL_TORUS and enables global routing. -/
def execSysNodeLock (s : State) : Host.Outcome State Fault Refusal :=
  liftSys true nodeLock s

end Sys2Proof.Machine
end

