-- ==== Sys2Proof/Machine/RowsEngine.lean ====
section
/-! DEFINITION. The meanings of the commands on engines, stream FIFOs and quantiser windows (spec 03, 04, 06). -/

namespace Sys2Proof.Machine

open WellFormed

/-- START (R596). A START command asks to admit a batch to a pipeline with its entry and exit buffers. -/
def execStart (h : CmdHdr) (p : StartP) (s : State) : Host.Outcome State Fault Refusal :=
  liftSys (okHdr h && okStart p) (startCmd (withOp 0x01 h) p) s

/-- ADMIT_BATCH (R113). Once the pipeline admits and has room, the ring controller enters the batch in its context table and
writes its entry items. -/
def execAdmitBatch (ring : Option Nat) (s : State) : Host.Outcome State Fault Refusal :=
  liftSys (okOpt ring 16) (admitRow ring) s

/-- STAGE_FIRE (R107). The sequencer fires a stage whose tokens, credits, waits and units are ready, reserving its tokens and
credits. -/
def execStageFire (k written lackIn lackCred lackWait : Nat) (s : State) : Host.Outcome State Fault Refusal :=
  liftSys (lt k 16) (stageFire k written lackIn lackCred lackWait) s

/-- FIRING_END (R109). A firing ends and its unused credits return to the output FIFO. -/
def execFiringEnd (k id : Nat) (s : State) : Host.Outcome State Fault Refusal :=
  liftSys (lt k 16 && lt id 512) (firingEnd k id) s

/-- FIFO_ITEM_PRESENT (R174). An item becomes presentable at its consumer after the FIFO's latency and is presented. -/
def execFifoItemPresent (id k : Nat) (upset : ErrPat) (s : State) : Host.Outcome State Fault Refusal :=
  liftSys (lt id 1024 && lt k 16 && okItemErr upset) (itemPresent id k upset) s

/-- FIFO_CREDIT_GRANT (R175). A slot freed by the consumer is granted as a credit to the producer two cycles later. -/
def execFifoCreditGrant (id n : Nat) (s : State) : Host.Outcome State Fault Refusal :=
  liftSys (lt id 1024 && lt n 513) (creditRow id n) s

/-- FIFO_MARK (R183). VX issues MARK with a read, recording the position so later reads free no slot. -/
def execFifoMark (id k : Nat) (s : State) : Host.Outcome State Fault Refusal :=
  liftSys (lt id 1024 && lt k 16) (fifoMark id k) s

/-- FIFO_REWIND (R184). VX issues REWIND, returning the read pointer to the mark. -/
def execFifoRewind (id k : Nat) (s : State) : Host.Outcome State Fault Refusal :=
  liftSys (lt id 1024 && lt k 16) (fifoRewind id k) s

/-- FIFO_RELEASE (R185). VX issues RELEASE, freeing every slot from the mark to the last item read and clearing the mark. -/
def execFifoRelease (id k : Nat) (s : State) : Host.Outcome State Fault Refusal :=
  liftSys (lt id 1024 && lt k 16) (fifoRelease id k) s

/-- FIFO_STARVED (R192). A destination waits on an empty head longer than FIFO_STARVE_TMO, setting STARVED and raising
FIFO_STARVED. -/
def execFifoStarved (id : Nat) (s : State) : Host.Outcome State Fault Refusal :=
  liftSys (lt id 1024) (fifoStarve id) s

/-- FC_PIN_HOLD_EXPIRY (R202). FIFO_PIN_HOLD ends after the OR of a pin falls, and the pin deasserts. -/
def execFcPinHoldExpiry (p : Nat) (s : State) : Host.Outcome State Fault Refusal :=
  liftSys (lt p 9) (pinHoldExpiry p) s

/-- FIFO_WM_WRITE (R204). A write to FIFO_WM of an active route is checked and applied at the next occupancy change, or
refused with WM_REJ. -/
def execFifoWmWrite (id v : Nat) (s : State) : Host.Outcome State Fault Refusal :=
  liftSys (lt id 1024 && lt v (2 ^ 32)) (fifoWm id v) s

/-- STAGE_BATCH_END (R120). Every bound input port has presented a batch's end mark; the stage ends the batch and resets its
loops. -/
def execStageBatchEnd (k id : Nat) (s : State) : Host.Outcome State Fault Refusal :=
  liftSys (lt k 16 && lt id 512) (stageBatchEnd k id) s

/-- STAGE_SIGNAL_ISSUE (R145). After the pass's writes are acknowledged and outputs stand in FIFOs, the stage issues
SIGNAL[0] then SIGNAL[1]. -/
def execStageSignalIssue (k id : Nat) (s : State) : Host.Outcome State Fault Refusal :=
  liftSys (lt k 16 && lt id 512) (stageSignals k id) s

/-- BATCH_COMPLETE (R123). A batch's end mark reaches the COMPLETE endpoint and the ring controller writes its completion. -/
def execBatchComplete (p : Nat) (s : State) : Host.Outcome State Fault Refusal :=
  liftSys (lt p 64) (trAfter (batchComplete p)) s

/-- WS_FETCH (R129). The weight streamer issues a fetch of weight tiles ahead of MX, within its lookahead and free tiles. -/
def execWsFetch (k id : Nat) (s : State) : Host.Outcome State Fault Refusal :=
  liftSys (lt k 16 && lt id 512) (wsFetch k id) s

/-- AU_FETCH (R130). The access unit fetches activations or scale data ahead once the pass's waits are satisfied. -/
def execAuFetch (k id : Nat) (s : State) : Host.Outcome State Fault Refusal :=
  liftSys (lt k 16 && lt id 512) (auFetch k id) s

/-- AU_WRITE (R447). The access unit issues a write through a USE 3 address generator, translated by the tier manager. -/
def execAuWrite (k id : Nat) (s : State) : Host.Outcome State Fault Refusal :=
  liftSys (lt k 16 && lt id 512) (auWrite k id) s

/-- FETCH_ARRIVAL (R131). Fetched data arrives in its run-ahead tile for later consumption. -/
def execFetchArrival (k id : Nat) (weights : Bool) (stalled : Nat) (s : State) : Host.Outcome State Fault Refusal :=
  liftSys (lt k 16 && lt id 512) (fetchArrival k id weights stalled) s

/-- ENG_WAIT_TIMEOUT (R146). A WAIT unsatisfied for ENG_WAIT_TMO is recorded in ENG_WAIT_STAT and raises ENG_WAIT_TIMEOUT. -/
def execEngWaitTimeout (k id w : Nat) (s : State) : Host.Outcome State Fault Refusal :=
  liftSys (lt k 16 && lt id 512 && lt w 2) (engWaitTimeout k id w) s

/-- ENG_DRAIN (R147). Clearing ENG_CTL.EN puts the engine in DRAINING. -/
def execEngDrain (k : Nat) (s : State) : Host.Outcome State Fault Refusal :=
  liftSys (lt k 16) (engDrain k) s

/-- ENG_DRAINED (R148). The last firing in DRAINING ends; run-ahead tiles are discarded and ENG_DRAINED is raised. -/
def execEngDrained (k : Nat) (s : State) : Host.Outcome State Fault Refusal :=
  liftSys (lt k 16) (engDrained k) s

/-- ENG_DRAIN_SLOW (R149). DRAINING lasts longer than ENG_DRAIN_TMO and ENG_DRAIN_SLOW is raised once. -/
def execEngDrainSlow (k : Nat) (s : State) : Host.Outcome State Fault Refusal :=
  liftSys (lt k 16) (engDrainSlow k) s

/-- ENG_ENABLE (R150). Setting ENG_CTL.EN returns a DRAINING, DRAINED or KILLED engine to RUNNING. -/
def execEngEnable (k : Nat) (s : State) : Host.Outcome State Fault Refusal :=
  liftSys (lt k 16) (engEnable k) s

/-- ENG_KILL (R152). Writing ENG_CTL.KILL stops every firing, poisons owed outputs and enters KILLED. -/
def execEngKill (k : Nat) (s : State) : Host.Outcome State Fault Refusal :=
  liftSys (lt k 16) (engKill k) s

/-- ENG_FAIL_DECLARE (R155). Writing ENG_CTL.FAIL declares the engine FAILED with cause DECLARED. -/
def execEngFailDeclare (k : Nat) (s : State) : Host.Outcome State Fault Refusal :=
  liftSys (lt k 16) (engFail k 6) s

/-- ENG_CNT_CLR (R168). Writing ENG_CTL.CNT_CLR clears the engine counters at 0x040–0x068. -/
def execEngCntClr (k : Nat) (s : State) : Host.Outcome State Fault Refusal :=
  liftSys (lt k 16) (engCntClr k) s

/-- FIRE_HANG (R155). A firing does not end within ENG_FIRE_TMO and the engine fails with FIRE_HANG. -/
def execFireHang (k : Nat) (s : State) : Host.Outcome State Fault Refusal :=
  liftSys (lt k 16) (fireHang k) s

/-- ENG_FAULT (R155). An engine detects CTRL_UE, MX_CHECK, PORT_PARITY or a domain fault, enters FAILED and raises ENG_FAULT.
-/
def execEngFault (k cause : Nat) (s : State) : Host.Outcome State Fault Refusal :=
  liftSys (lt k 16 && lt 1 cause && lt cause 6) (engFail k cause) s

/-- ARB_RELOCATION (R163). The arbiter kills the lost engine, chooses hosts, rebinds routes and replays held batches. -/
def execArbRelocation (k : Nat) (s : State) : Host.Outcome State Fault Refusal :=
  liftSys (lt k 16) (arbRelocate k) s

/-- SHARD_MIGRATION (R162). The arbiter copies a lost engine's shard to a host's home stack and switches it at a batch
admission. -/
def execShardMigration (r : ReloadIn) (s : State) : Host.Outcome State Fault Refusal :=
  liftSys (okReload r) (shardMigrate r) s

/-- QZ_SAT_WINDOW_END (R258). An entry's SAT_WINDOW-th static row ends and the window's clip fraction is evaluated. -/
def execQzSatWindowEnd (k n : Nat) (s : State) : Host.Outcome State Fault Refusal :=
  liftSys (lt k 16 && lt n 64) (qzWindowEnd k n) s

/-- QZ_SCALE_CALIBRATE (R261). A write to QZ_SCALE installs a new static record from the next row and clears FALLEN. -/
def execQzScaleCalibrate (k n v : Nat) (s : State) : Host.Outcome State Fault Refusal :=
  liftSys (lt k 16 && lt n 64 && lt v (2 ^ 32)) (qzCalibrate k n v) s

end Sys2Proof.Machine
end

