-- ==== Sys2Proof/Machine/RowsImage.lean ====
section
/-! DEFINITION. The meanings of the commands on fabric images (spec 02). -/

namespace Sys2Proof.Machine

open WellFormed

/-- IMG_LOAD_GO (R73). Writing IMG_LOAD.GO starts pass 1 of an image load into the standby slot. -/
def execImgLoadGo (s : State) : Host.Outcome State Fault Refusal :=
  liftSys true imgGo s

/-- IMG_PASS1_READ_DONE (R73). Pass 1 has read the whole image and computed its digest, and checks the header, key and epoch.
-/
def execImgPass1ReadDone (s : State) : Host.Outcome State Fault Refusal :=
  liftSys true (imgEnds imgPass1Done) s

/-- IMG_SIGNATURE_DONE (R81). Signature verification of pass 1 ends, and on success pass 2 starts with the standby slot
LOADING. -/
def execImgSignatureDone (s : State) : Host.Outcome State Fault Refusal :=
  liftSys true (imgEnds imgSignatureDone) s

/-- IMG_PASS2_DONE (R77). Pass 2 ends its read, checks every section and leaves the standby slot VALID or INVALID with a load
code. -/
def execImgPass2Done (tr : CompatOut) (s : State) : Host.Outcome State Fault Refusal :=
  liftSys true (imgEnds (imgPass2Done tr)) s

/-- IMG_SOURCE_FAULT (R77). A source read or CONST-area write returns a bus error, poison or timeout and ends the load in
that cycle. -/
def execImgSourceFault (code off : Nat) (s : State) : Host.Outcome State Fault Refusal :=
  liftSys (lt code 256 && lt off (2 ^ 32)) (imgEnds (imgSourceFault code off)) s

/-- IMG_LOAD_ABORT (R77). Writing IMG_LOAD.ABORT ends the running load with ABORTED. -/
def execImgLoadAbort (s : State) : Host.Outcome State Fault Refusal :=
  liftSys true (imgEnds imgAbort) s

/-- IMG_QUEUED_START (R818). A queued IMG_LOAD or IMG_ACTIVATE command starts once no load or activation runs. -/
def execImgQueuedStart (s : State) : Host.Outcome State Fault Refusal :=
  liftSys true (trAfter imgQueuedStart) s

/-- IMG_ACT_GO (R85). Writing IMG_ACT_CTL.GO starts an activation: step 1 checks run and admissions stop. -/
def execImgActGo (s : State) : Host.Outcome State Fault Refusal :=
  liftSys true xActGo s

/-- ACT_DRAIN_DONE (R86). The last admitted batch completes on the active image and the CONST copy of step 3 starts. -/
def execActDrainDone (s : State) : Host.Outcome State Fault Refusal :=
  liftSys true (trAfter actDrained) s

/-- ACT_CONST_COPY_DONE (R85). The CONST payloads are in the TS_CONST spans, and the activation goes on to the barrier or the
switch. -/
def execActConstCopyDone (s : State) : Host.Outcome State Fault Refusal :=
  liftSys true (trAfter actConstDone) s

/-- ACT_BARRIER_RELEASE (R85). The activation barrier releases and the activation proceeds to the switch of step 5. -/
def execActBarrierRelease (s : State) : Host.Outcome State Fault Refusal :=
  liftSys true (trAfter actReleased) s

/-- ACT_TIMEOUT (R89). Steps 1 to 4 exceed IMG_ACT_TMO; the activation is abandoned, CONST spans restored and the barrier
arrival withdrawn. -/
def execActTimeout (s : State) : Host.Outcome State Fault Refusal :=
  liftSys true (trAfter actTimeout) s

end Sys2Proof.Machine
end

