-- ==== Sys2Proof/Machine/RowsLink.lean ====
section
/-! DEFINITION. The meanings of the commands on Tilhel links and routed messages (spec 16). -/

namespace Sys2Proof.Machine

open WellFormed

/-- TL_ENABLE (R620). Setting TL_CTLn.EN starts training of the port. -/
def execTlEnable (n : Nat) (s : State) : Host.Outcome State Fault Refusal :=
  liftSys (lt n 4) (tlEnable n) s

/-- TL_DISABLE (R654). Clearing TL_CTLn.EN stops the port and returns it to OFF. -/
def execTlDisable (n : Nat) (s : State) : Host.Outcome State Fault Refusal :=
  liftSys (lt n 4) (tlDisable n) s

/-- TL_TRAIN_FLIT (R628). A TRAIN flit is received and the width and topology checks are made. -/
def execTlTrainFlit (n lanes : Nat) (flit : List Byte) (s : State) : Host.Outcome State Fault Refusal :=
  liftSys (lt n 4 && lt lanes 256 && okFlit flit) (rowTrainFlit n lanes flit) s

/-- TL_TRAIN_TIMEOUT (R622). Training misses TL_TRAIN_TMOn; the attempt is counted and repeated, or the port goes DOWN. -/
def execTlTrainTimeout (n : Nat) (s : State) : Host.Outcome State Fault Refusal :=
  liftSys (lt n 4) (rowTrainTimeout n) s

/-- TL_DATA_FLIT (R638). A DATA flit is received, CRC-checked, its slots decoded and delivered to their channels. -/
def execTlDataFlit (n : Nat) (flit : List Byte) (s : State) : Host.Outcome State Fault Refusal :=
  liftSys (lt n 4 && okFlit flit) (dataFlit n flit) s

/-- TL_IDLE_FLIT (R639). An IDLE flit is received and its fingerprint compared and stored. -/
def execTlIdleFlit (n : Nat) (flit : List Byte) (s : State) : Host.Outcome State Fault Refusal :=
  liftSys (lt n 4 && okFlit flit) (idleFlit n flit) s

/-- TL_ACK_FLIT (R634). An ACK flit frees acknowledged flits from the replay buffer. -/
def execTlAckFlit (n : Nat) (flit : List Byte) (s : State) : Host.Outcome State Fault Refusal :=
  liftSys (lt n 4 && okFlit flit) (ackFlit n flit) s

/-- TL_NAK_FLIT (R635). A NAK flit makes the sender resend every unacknowledged flit in order. -/
def execTlNakFlit (n : Nat) (flit : List Byte) (s : State) : Host.Outcome State Fault Refusal :=
  liftSys (lt n 4 && okFlit flit) (nakFlit n flit) s

/-- TL_SLEEP_NOTICE (R657). A SLEEP_NOTICE flit sets the port's STATE to LOW_POWER. -/
def execTlSleepNotice (n : Nat) (flit : List Byte) (s : State) : Host.Outcome State Fault Refusal :=
  liftSys (lt n 4 && okFlit flit) (sleepNotice n flit) s

/-- TL_REPLAY_TIMEOUT (R636). The oldest unacknowledged flit gets no ACK within TMO_NS and is replayed. -/
def execTlReplayTimeout (n : Nat) (s : State) : Host.Outcome State Fault Refusal :=
  liftSys (lt n 4) (replayTimeout n) s

/-- TL_ACK_TIMER (R634). 32 flits or 500 ns pass without a header and the receiver sends an ACK flit. -/
def execTlAckTimer (n : Nat) (s : State) : Host.Outcome State Fault Refusal :=
  liftSys (lt n 4) (ackTimer n) s

/-- TL_IDLE_INSERT (R639). After 4,096 flits without one, the port inserts an IDLE flit. -/
def execTlIdleInsert (n : Nat) (s : State) : Host.Outcome State Fault Refusal :=
  liftSys (lt n 4) (idleInsert n) s

/-- TL_VC_IDLE_SEND (R632). A bound virtual channel without payload sends its idle item in a VC_IDLE slot every 1 µs. -/
def execTlVcIdleSend (n v : Nat) (s : State) : Host.Outcome State Fault Refusal :=
  liftSys (lt n 4 && lt v 16) (vcIdleSend n v) s

/-- TL_FC_IN_CHANGE (R633). The filtered TLn_FC_IN level changes and pauses or resumes masked stream channels. -/
def execTlFcInChange (n : Nat) (level : Bool) (s : State) : Host.Outcome State Fault Refusal :=
  liftSys (lt n 4) (fcIn n level) s

/-- TL_FC_STUCK (R633). TLn_FC_IN stays asserted beyond TL_FC_TMOn, setting FC_STUCK and raising TL_FC_STUCK. -/
def execTlFcStuck (n : Nat) (s : State) : Host.Outcome State Fault Refusal :=
  liftSys (lt n 4) (fcStuck n) s

/-- TL_FP_SETTLE_EXPIRY (R640). Every fingerprint comparison over TL_FP_SETTLE has differed. -/
def execTlFpSettleExpiry (n : Nat) (s : State) : Host.Outcome State Fault Refusal :=
  liftSys (lt n 4) (fpSettle n) s

/-- TL_WAKE_RETRY (R658). The neighbour does not train after a wake pattern and the pattern is sent again or the port returns
to LOW_POWER. -/
def execTlWakeRetry (n : Nat) (s : State) : Host.Outcome State Fault Refusal :=
  liftSys (lt n 4) (wakeRetry n) s

/-- LINK_WAKE_DETECT (R660). The link wake detector recognises WAKE blocks and reports a link wake, or counts a false wake.
-/
def execLinkWakeDetect (n : Nat) (ok : Bool) (s : State) : Host.Outcome State Fault Refusal :=
  lift (lt n 4) (linkWake n ok) s

/-- READ (R645). A routed READ request is forwarded or performed, answered with READ_RSP or ERR_RSP. -/
def execRead (n : Nat) (m : Msg) (s : State) : Host.Outcome State Fault Refusal :=
  liftSys (lt n 4 && okMsg m) (rowRead n m) s

/-- WRITE (R645). A routed WRITE request is forwarded or performed, answered with WRITE_ACK or ERR_RSP. -/
def execWrite (n : Nat) (m : Msg) (s : State) : Host.Outcome State Fault Refusal :=
  liftSys (lt n 4 && okMsg m) (rowWrite n m) s

/-- READ_RSP (R645). A READ_RSP is forwarded or completes the originator's read. -/
def execReadRsp (n : Nat) (m : Msg) (s : State) : Host.Outcome State Fault Refusal :=
  liftSys (lt n 4 && okMsg m) (rowReadRsp n m) s

/-- WRITE_ACK (R645). A WRITE_ACK is forwarded or completes the originator's write. -/
def execWriteAck (n : Nat) (m : Msg) (s : State) : Host.Outcome State Fault Refusal :=
  liftSys (lt n 4 && okMsg m) (rowWriteAck n m) s

/-- ERR_RSP (R645). An ERR_RSP is forwarded or ends the originator's access with a REMOTE error. -/
def execErrRsp (n : Nat) (m : Msg) (s : State) : Host.Outcome State Fault Refusal :=
  liftSys (lt n 4 && okMsg m) (rowErrRsp n m) s

/-- SYNC_OP (R645). A SYNC_OP message performs a stage signal on an object of the owning device. -/
def execSyncOp (n : Nat) (m : Msg) (s : State) : Host.Outcome State Fault Refusal :=
  liftSys (lt n 4 && okMsg m) (rowSyncOp n m) s

/-- WATCH (R669). A WATCH message takes a watch entry at the owning hub for a remote stage wait. -/
def execWatch (n : Nat) (m : Msg) (s : State) : Host.Outcome State Fault Refusal :=
  liftSys (lt n 4 && okMsg m) (rowWatch n m) s

/-- NOTIFY (R645). A NOTIFY response satisfies the remote wait that sent the WATCH. -/
def execNotify (n : Nat) (m : Msg) (s : State) : Host.Outcome State Fault Refusal :=
  liftSys (lt n 4 && okMsg m) (rowNotify n m) s

/-- WATCH_RETRY (R669). A WATCH refused for lack of entries is sent again after 2 µs. -/
def execWatchRetry (tag : Nat) (s : State) : Host.Outcome State Fault Refusal :=
  liftSys (lt tag 65536) (watchRetry tag) s

/-- STREAM (R645). A tunnelled STREAM message delivers one stream item, discarding already delivered SEQs. -/
def execStream (n : Nat) (m : Msg) (s : State) : Host.Outcome State Fault Refusal :=
  liftSys (lt n 4 && okMsg m) (rowStream n m) s

/-- CENSUS_START (R677). A CENSUS_START message makes a hub initialise its census cells, contribute and forward to its
children. -/
def execCensusStart (n : Nat) (m : Msg) (s : State) : Host.Outcome State Fault Refusal :=
  liftSys (lt n 4 && okMsg m) (rowCensusStart n m) s

/-- CENSUS_PART (R677). A CENSUS_PART message contributes a child's results, and released cells are sent to the parent or
complete the census. -/
def execCensusPart (n : Nat) (m : Msg) (s : State) : Host.Outcome State Fault Refusal :=
  liftSys (lt n 4 && okMsg m) (rowCensusPart n m) s

/-- CENSUS_CHILD_TIMEOUT (R678). The wait for children ends and the cells' current values are sent in place of missing
contributions. -/
def execCensusChildTimeout (s : State) : Host.Outcome State Fault Refusal :=
  liftSys true censusTimeout s

end Sys2Proof.Machine
end

