-- ==== Sys2Proof/Machine/RowsLoad.lean ====
section
/-! DEFINITION. The meanings of the commands on weight loading, castling and release (spec 09, 10). -/

namespace Sys2Proof.Machine

open WellFormed

/-- LOAD (R372). A LOAD command names a manifest, slot and side for the load engine. -/
def execLoad (h : CmdHdr) (addr len slot side kind nsid : Nat) (s : State) : Host.Outcome State Fault Refusal :=
  liftSys (okHdr h && lt addr (2 ^ 64) && lt len (2 ^ 32) && lt slot 256 && lt side 256 && lt kind 256 && lt nsid (2 ^ 32)) (loadCmd (withOp 0x10 h) addr len slot side kind nsid) s

/-- LOAD_QUEUED_START (R372). A queued load starts once the load engine has finished the previous one. -/
def execLoadQueuedStart (s : State) : Host.Outcome State Fault Refusal :=
  liftSys true xLoadNext s

/-- LOAD_MANIFEST_ARRIVAL (R375). The manifest has been read; it is checked and every shard's placement is planned. -/
def execLoadManifestArrival (s : State) : Host.Outcome State Fault Refusal :=
  liftSys true xManifest s

/-- NVME_COMPLETION (R385). An NVMe completion arrives for a load read, with data or an error status. -/
def execNvmeCompletion (status : Nat) (shard : Option Nat) (data : List Byte) (s : State) : Host.Outcome State Fault Refusal :=
  liftSys (lt status 32768 && okOpt shard 4096) (xNvme status shard data) s

/-- SHARD_ARRIVAL_DONE (R391). A shard's last source byte arrives and its arrival digest is compared with DIGEST. -/
def execShardArrivalDone (i : Nat) (s : State) : Host.Outcome State Fault Refusal :=
  liftSys (lt i 4096) (xArrival i) s

/-- SHARD_READBACK_DONE (R393). The read-back digest of a programmed shard completes; an equal digest makes the shard
eligible. -/
def execShardReadbackDone (i : Nat) (s : State) : Host.Outcome State Fault Refusal :=
  liftSys (lt i 4096) (xReadback i) s

/-- LOAD_SOURCE_FAULT (R408). A source read returns a bus error or poison and the load fails, freeing its quads. -/
def execLoadSourceFault (shard : Option Nat) (poison : Bool) (cause : Nat) (s : State) : Host.Outcome State Fault Refusal :=
  liftSys (okOpt shard 4096 && lt cause 16) (xSourceFault shard poison cause) s

/-- LOAD_SOURCE_TIMEOUT (R408). No source data arrives for LE_TMO and the load fails with SRC_TIMEOUT. -/
def execLoadSourceTimeout (shard : Option Nat) (s : State) : Host.Outcome State Fault Refusal :=
  liftSys (okOpt shard 4096) (xSourceTimeout shard) s

/-- LE_DISABLE (R402). Clearing LE_CTL.EN adjourns the running load. -/
def execLeDisable (s : State) : Host.Outcome State Fault Refusal :=
  liftSys true xLeDisable s

/-- LE_ENABLE (R402). Setting LE_CTL.EN continues a load adjourned by clearing EN. -/
def execLeEnable (s : State) : Host.Outcome State Fault Refusal :=
  liftSys true xLeEnable s

/-- PATROL_LAP_START (R399). LE_PATROL_INT elapses and the arbiter starts a digest patrol lap. -/
def execPatrolLapStart (s : State) : Host.Outcome State Fault Refusal :=
  liftSys true xPatrolStart s

/-- PATROL_SHARD_CHECK (R401). A patrol digest of a shard completes; a mismatch or poison raises LE_PATROL_MISMATCH. -/
def execPatrolShardCheck (s : State) : Host.Outcome State Fault Refusal :=
  liftSys true xPatrolCheck s

/-- CASTLE (R420). A CASTLE command checks its preconditions and prepares to switch the slot's side pointer. -/
def execCastle (h : CmdHdr) (slot flags barrier : Nat) (s : State) : Host.Outcome State Fault Refusal :=
  liftSys (okHdr h && lt slot 256 && lt flags 256 && lt barrier (2 ^ 32)) (trAfter (castleCmd (withOp 0x11 h) slot flags barrier)) s

/-- CASTLE_BARRIER_RELEASE (R420). The castle's barrier releases and the castle proceeds to its switch cycle. -/
def execCastleBarrierRelease (slot : Nat) (s : State) : Host.Outcome State Fault Refusal :=
  liftSys (lt slot 64) (trAfter (castleReleased slot)) s

/-- CASTLE_TIMEOUT (R438). The barrier does not release within ARB_CASTLE_TMO; the arrival is withdrawn and the castle fails.
-/
def execCastleTimeout (slot : Nat) (s : State) : Host.Outcome State Fault Refusal :=
  liftSys (lt slot 64) (castleTimeout slot) s

/-- CASTLE_HOLD_EXPIRY (R422). CASTLE_HOLD_LIMIT ends the hold and sessions still bound to the retiring side lose their
binding. -/
def execCastleHoldExpiry (slot : Nat) (s : State) : Host.Outcome State Fault Refusal :=
  liftSys (lt slot 64) (trAfter (holdExpiry slot)) s

/-- ARB_SLOT_EXPIRE (R422). Writing ARB_SLOT_CTL.EXPIRE ends the selected slot's hold at once. -/
def execArbSlotExpire (s : State) : Host.Outcome State Fault Refusal :=
  liftSys true xSlotExpire s

/-- RELEASE (R431). A RELEASE command moves a READY or LIVE side toward RELEASING and drops its session bindings. -/
def execRelease (h : CmdHdr) (slot side : Nat) (s : State) : Host.Outcome State Fault Refusal :=
  liftSys (okHdr h && lt slot 256 && lt side 256) (trAfter (releaseRow (withOp 0x12 h) slot side)) s

/-- SESSION_CLOSE (R414). A SESSION_CLOSE command closes a session once its admitted batches complete. -/
def execSessionClose (h : CmdHdr) (slot session : Nat) (s : State) : Host.Outcome State Fault Refusal :=
  liftSys (okHdr h && lt slot 256 && lt session 65536) (sessionCloseCmd (withOp 0x02 h) slot session) s

end Sys2Proof.Machine
end

