-- ==== Sys2Proof/Machine/RowsPeriph.lean ====
section
/-! DEFINITION. The meanings of the commands on peripheral interfaces (spec 20). -/

namespace Sys2Proof.Machine

open WellFormed

/-- ETH_RX_FRAME (R782). A received Ethernet frame goes to the INGEST route or a receive buffer, or is dropped whole and
counted. -/
def execEthRxFrame (m : Nat) (frame : List Byte) (ok : Bool) (s : State) : Host.Outcome State Fault Refusal :=
  liftSys (lt m 2) (ethRxFrame m frame ok) s

/-- ETH_RX_TAIL_WRITE (R783). Writing ETH_RX_TAIL posts receive buffers, or sets TAIL_ERR. -/
def execEthRxTailWrite (m v : Nat) (s : State) : Host.Outcome State Fault Refusal :=
  liftSys (lt m 2 && lt v (2 ^ 32)) (ethRxTail m v) s

/-- ETH_TX_TAIL_WRITE (R783). Writing ETH_TX_TAIL posts frames to transmit, or sets TAIL_ERR. -/
def execEthTxTailWrite (m v : Nat) (s : State) : Host.Outcome State Fault Refusal :=
  liftSys (lt m 2 && lt v (2 ^ 32)) (ethTxTail m v) s

/-- ETH_TX_DONE (R783). A frame is sent, its descriptor status written and TX_DONE raised. -/
def execEthTxDone (m : Nat) (s : State) : Host.Outcome State Fault Refusal :=
  liftSys (lt m 2) (ethTxDone m) s

/-- ETH_LINK_DOWN (R780). Ethernet block lock is lost for 10 ms and LINK_DOWN is raised. -/
def execEthLinkDown (m : Nat) (s : State) : Host.Outcome State Fault Refusal :=
  liftSys (lt m 2) (ethLinkDown m) s

/-- USB_OUT_TRANSFER (R784). A bulk OUT transfer fills OUT descriptors and raises OUT_DONE. -/
def execUsbOutTransfer (data : List Byte) (ended : Bool) (s : State) : Host.Outcome State Fault Refusal :=
  liftSys true (usbOutTransfer data ended) s

/-- USB_IN_DONE (R784). An IN descriptor is sent and IN_DONE raised. -/
def execUsbInDone (s : State) : Host.Outcome State Fault Refusal :=
  liftSys true usbInDone s

/-- USB_OUT_TAIL_WRITE (R784). Writing USB_OUT_TAIL posts OUT buffers, or sets TAIL_ERR. -/
def execUsbOutTailWrite (v : Nat) (s : State) : Host.Outcome State Fault Refusal :=
  liftSys (lt v (2 ^ 32)) (usbOutTail v) s

/-- USB_IN_TAIL_WRITE (R784). Writing USB_IN_TAIL posts IN data, or sets TAIL_ERR. -/
def execUsbInTailWrite (v : Nat) (s : State) : Host.Outcome State Fault Refusal :=
  liftSys (lt v (2 ^ 32)) (usbInTail v) s

/-- USB_BUS_RESET (R780). A USB bus reset or handshake timeout raises BUS_RESET. -/
def execUsbBusReset (speed : Nat) (s : State) : Host.Outcome State Fault Refusal :=
  liftSys (lt speed 4) (usbBusReset speed) s

/-- CSI_FRAME_START (R786). A camera frame starts and takes a free buffer, or is dropped with NOBUF. -/
def execCsiFrameStart (n num : Nat) (s : State) : Host.Outcome State Fault Refusal :=
  liftSys (lt n 4 && lt num 65536) (csiFrameStart n num) s

/-- CSI_FRAME_END (R785). A frame ends and its descriptor item is written to the INGEST route, or the frame is dropped. -/
def execCsiFrameEnd (n width lines dt vc : Nat) (data : List Byte) (s : State) : Host.Outcome State Fault Refusal :=
  liftSys (lt n 4 && lt width 65536 && lt lines 65536 && lt dt 64 && lt vc 4) (csiFrameEnd n width lines dt vc data) s

/-- CSI_FRAME_TIMEOUT (R780). No frame end within CSI_FRAME_TMO drops the frame with TIMEOUT. -/
def execCsiFrameTimeout (n : Nat) (s : State) : Host.Outcome State Fault Refusal :=
  liftSys (lt n 4) (csiTimeout n) s

/-- CSI_FB_REL (R786). Writing CSI_FB_REL frees a frame buffer, or sets REL_ERR for a free one. -/
def execCsiFbRel (n i : Nat) (s : State) : Host.Outcome State Fault Refusal :=
  liftSys (lt n 4 && lt i 64) (csiRelease n i) s

/-- CSI_FB_CFG_WRITE (R787). A write setting CSI_FB_CFG.EN enables the port, or is ignored for invalid fields. -/
def execCsiFbCfgWrite (n v : Nat) (s : State) : Host.Outcome State Fault Refusal :=
  liftSys (lt n 4 && lt v (2 ^ 32)) (csiCfgWrite n v) s

/-- TDM_FRAME (R788). A TDM frame becomes binary16 items to the INGEST route or the DRAM ring, or is dropped. -/
def execTdmFrame (samples : List Nat) (onTime : Bool) (s : State) : Host.Outcome State Fault Refusal :=
  liftSys (samples.all (fun x => lt x (2 ^ 24))) (tdmFrame samples onTime) s

/-- TDM_RING_DRAIN (R789). The INGEST route grants credit and items leave the DRAM ring in order. -/
def execTdmRingDrain (s : State) : Host.Outcome State Fault Refusal :=
  liftSys true tdmDrain s

/-- TDM_FS_LOST (R780). No frame sync for 1 ms raises FS_LOST and items stop. -/
def execTdmFsLost (s : State) : Host.Outcome State Fault Refusal :=
  liftSys true tdmLost s

/-- TDM_CTL_WRITE (R790). A write setting TDM_CTL.EN enables the input, or is ignored for invalid settings. -/
def execTdmCtlWrite (v : Nat) (s : State) : Host.Outcome State Fault Refusal :=
  liftSys (lt v (2 ^ 32)) (tdmCtlWrite v) s

/-- VAD_WINDOW (R791). A 480-frame window ends and the detector raises VAD after HOLD windows above THRESH. -/
def execVadWindow (sum : Nat) (s : State) : Host.Outcome State Fault Refusal :=
  lift true (vadWindow sum) s

/-- PCIE_LINK_TRAIN (R780). Setting PCIE_CTL.EN trains the PCIe link. -/
def execPcieLinkTrain (s : State) : Host.Outcome State Fault Refusal :=
  liftSys true pcieTrain s

/-- PCIE_LINK_FAIL (R780). PCIe link training exceeds PCIE_CTL.TMO, raises LINK_FAIL and retries. -/
def execPcieLinkFail (s : State) : Host.Outcome State Fault Refusal :=
  liftSys true pcieFail s

/-- PCIE_CONFIG_ACCESS (R778). An access to the root-port configuration window issues a configuration request. -/
def execPcieConfigAccess (master off n : Nat) (wr : Bool) (data : List Byte) (answer : Option (List Byte)) (s : State) : Host.Outcome State Fault Refusal :=
  liftSys (lt master 256 && lt off (2 ^ 28) && lt n 33) (pcieConfig master off n wr data answer) s

/-- CPU_HOLD_WRITE (R798). Writing CPU_HOLD starts released cores at CPU_ENTRY or resets held ones. -/
def execCpuHoldWrite (v : Nat) (s : State) : Host.Outcome State Fault Refusal :=
  liftSys (lt v (2 ^ 32)) (cpuHold v) s

/-- CPU_FREQ_WRITE (R798). Writing CPU_FREQ relocks the CLK_A PLL while the cores stall. -/
def execCpuFreqWrite (v : Nat) (s : State) : Host.Outcome State Fault Refusal :=
  liftSys (lt v (2 ^ 32)) (cpuFreq v) s

/-- PCIE_LINK_UP (R794). PCIe link training succeeds, PCIE_STAT.LINK_UP becomes 1 and the LINK_UP cause is set. -/
def execPcieLinkUp (rate width : Nat) (s : State) : Host.Outcome State Fault Refusal :=
  liftSys (lt rate 6 && lt 0 rate && lt width 5 && lt 0 width) (pcieUp rate width) s

/-- ETH_BLOCK_LOCK (R780). The 10GBASE-R receiver gains block lock and ETH_STAT.LINK becomes 1. -/
def execEthBlockLock (m : Nat) (s : State) : Host.Outcome State Fault Refusal :=
  liftSys (lt m 2) (ethBlockLock m) s

/-- USB_BUS_SUSPEND (R794). The USB bus is suspended or resumed, changing USB_STAT.SUSPENDED and setting the SUSPEND cause.
-/
def execUsbBusSuspend (on : Bool) (s : State) : Host.Outcome State Fault Refusal :=
  liftSys true (usbSuspend on) s

/-- USB_STANDARD_REQUEST (R784). The device answers a USB 3.2 standard request from the host itself, such as setting the
configuration that sets USB_STAT.CONFIGURED. -/
def execUsbStandardRequest (setup : List Byte) (s : State) : Host.Outcome State Fault Refusal :=
  liftSys (lt setup.length 9 && lt 7 setup.length) (usbRequest setup) s

end Sys2Proof.Machine
end

