-- ==== Sys2Proof/Machine/RowsPower.lean ====
section
/-! DEFINITION. The meanings of the commands on power states, time, resets, boot and keys (spec 18, 20). -/

namespace Sys2Proof.Machine

open WellFormed

/-- PMU_REQUEST_ENTRY (R710). Writing PMU_REQ with a deeper TARGET starts an entry and asks the round-1 agents. -/
def execPmuRequestEntry (target : Nat) (s : State) : Host.Outcome State Fault Refusal :=
  liftSys (lt target 8) (pmuRequest target) s

/-- PMU_REQUEST_EXIT (R710). Writing PMU_REQ with TARGET RUN from IDLE or NAP starts an exit. -/
def execPmuRequestExit (s : State) : Host.Outcome State Fault Refusal :=
  liftSys true (pmuRequest 0) s

/-- AUTO_IDLE_ENTRY (R711). No batch and no firing for PMU_IDLE_DLY starts an entry to IDLE. -/
def execAutoIdleEntry (s : State) : Host.Outcome State Fault Refusal :=
  liftSys true autoIdle s

/-- AUTO_RUN_EXIT (R712). Demand for an engine or stack domain in IDLE or NAP starts an exit to RUN. -/
def execAutoRunExit (s : State) : Host.Outcome State Fault Refusal :=
  liftSys true autoRun s

/-- AGENT_ANSWER (R715). A domain agent answers ACCEPT, DELAY or REFUSE to an entry request. -/
def execAgentAnswer (a : Nat) (busy : Bool) (s : State) : Host.Outcome State Fault Refusal :=
  liftSys (lt a 45) (agentAnswer a busy) s

/-- PMU_HANDSHAKE_TIMEOUT (R718). Not every ACCEPT arrives within PMU_HS_TMO; the entry is cancelled with TIMEOUT. -/
def execPmuHandshakeTimeout (s : State) : Host.Outcome State Fault Refusal :=
  liftSys true pmuTimeout s

/-- WAKE_SOURCE (R728). An enabled wake source sets PMU_WAKE_PEND and aborts, cancels or ends a state. -/
def execWakeSource (src : Nat) (s : State) : Host.Outcome State Fault Refusal :=
  lift (lt src 15) (wakePin src) s

/-- AON_CALIBRATE (R738). Writing AON_CAL.GO starts a calibration of CLK_REF against both always-on oscillators. -/
def execAonCalibrate (s : State) : Host.Outcome State Fault Refusal :=
  lift true calGo s

/-- AON_CAL_DONE (R738). A calibration window ends and AON_RATIO and AON_RC_RATIO are set. -/
def execAonCalDone (xtal rc : Nat) (s : State) : Host.Outcome State Fault Refusal :=
  lift (lt xtal (2 ^ 32) && lt rc (2 ^ 32)) (calDone xtal rc) s

/-- AON_CLOCK_FALLBACK (R739). The crystal gives no edge for 4 RC periods and CLK_AON switches to the RC oscillator. -/
def execAonClockFallback (s : State) : Host.Outcome State Fault Refusal :=
  lift true clockFallback s

/-- AON_CLOCK_RETRY (R739). Writing AON_CLK.RETRY asks CLK_AON to return to the crystal. -/
def execAonClockRetry (s : State) : Host.Outcome State Fault Refusal :=
  lift true clockRetry s

/-- AON_CRYSTAL_STABLE (R741). The crystal has given 4,096 stable cycles and CLK_AON switches to it. -/
def execAonCrystalStable (s : State) : Host.Outcome State Fault Refusal :=
  lift true crystalStable s

/-- AON_ALARM (R742). AON_TIME reaches an armed alarm's compare value; it fires, clears ARM and sets its wake bit. -/
def execAonAlarm (n : Nat) (s : State) : Host.Outcome State Fault Refusal :=
  lift (lt n 4) (alarmFire n) s

/-- PMU_DOMAIN_FAULT (R744). A domain's supply or clock monitor trips and PMU_DOMAIN_FAULT is raised. -/
def execPmuDomainFault (dom kind : Nat) (s : State) : Host.Outcome State Fault Refusal :=
  lift (lt dom 48 && lt kind 2) (domainFault dom kind) s

/-- POWER_ON_RESET (R754). PD_AON receives supply and every domain is reset. -/
def execPowerOnReset (s : State) : Host.Outcome State Fault Refusal :=
  lift true powerOn s

/-- SUPPLY_RESET (R809). The main supply returns with PD_AON powered and every other domain is reset. -/
def execSupplyReset (s : State) : Host.Outcome State Fault Refusal :=
  lift true supplyReset s

/-- PIN_RESET (R757). RESET_N held low resets every domain except PD_AON after array stop and scoresheet flush. -/
def execPinReset (cool : Bool) (s : State) : Host.Outcome State Fault Refusal :=
  lift true (pinReset cool) s

/-- SOFTWARE_RESET (R754). KEY_RST.GO with CODE 0xB007 resets every domain except PD_AON, or is refused. -/
def execSoftwareReset (code : Nat) (s : State) : Host.Outcome State Fault Refusal :=
  liftSys (lt code 65536) (softReset code) s

/-- PERST_FALL (R755). PERST_N falls in endpoint mode and resets the device or only the PCIe controller. -/
def execPerstFall (s : State) : Host.Outcome State Fault Refusal :=
  lift true perstFall s

/-- KEY_RECOVER (R764). KEY_RECOVER.GO checks a firmware or loader object written for recovery. -/
def execKeyRecover (type : Nat) (s : State) : Host.Outcome State Fault Refusal :=
  liftSys (lt type 65536) (keyRecover type) s

/-- ARB_BOOT_CFG (R766). ARB_BOOT_CFG.GO records CONST_BASE and COMPAT_EN for later boots, or sets REJ. -/
def execArbBootCfg (base compat : Nat) (s : State) : Host.Outcome State Fault Refusal :=
  liftSys (lt base (2 ^ 40) && lt compat 2) (bootCfg base compat) s

/-- KEY_FUSE_PROG (R769). KEY_FUSE_CTL.PROG programs key-hash slot 2 or 3. -/
def execKeyFuseProg (slot : Nat) (s : State) : Host.Outcome State Fault Refusal :=
  liftSys (lt slot 4) (fuseProg slot) s

/-- KEY_FUSE_REVOKE (R770). KEY_FUSE_CTL.REVOKE checks a revocation record and revokes its target slot. -/
def execKeyFuseRevoke (s : State) : Host.Outcome State Fault Refusal :=
  liftSys true fuseRevoke s

/-- KEY_FUSE_RAISE (R772). KEY_FUSE_CTL.RAISE raises the firmware fuse floor to LEVEL. -/
def execKeyFuseRaise (level : Nat) (s : State) : Host.Outcome State Fault Refusal :=
  liftSys (lt level 64) (fuseRaise level) s

/-- KEY_FUSE_DONE (R775). A fuse operation ends with its code in KEY_STAT.CODE. -/
def execKeyFuseDone (ok : Bool) (s : State) : Host.Outcome State Fault Refusal :=
  liftSys true (fuseDone ok) s

/-- KEY_ATTEST (R774). KEY_ATT_CTL.GO takes the report fields and starts signing an attestation report. -/
def execKeyAttest (s : State) : Host.Outcome State Fault Refusal :=
  liftSys true attGo s

/-- KEY_ATTEST_DONE (R774). The signed report is written to KEY_ATT_DST. -/
def execKeyAttestDone (s : State) : Host.Outcome State Fault Refusal :=
  liftSys true attDone s

/-- DDR_TRAIN (R797). DDR_CTL.TRAIN starts training every DRAM channel at DDR_CFG.RATE. -/
def execDdrTrain (s : State) : Host.Outcome State Fault Refusal :=
  liftSys true ddrTrain s

/-- DDR_TRAIN_DONE (R797). Training ends with TRAIN_DONE or TRAIN_FAIL and DRAM initialisation starts on success. -/
def execDdrTrainDone (mask : Nat) (s : State) : Host.Outcome State Fault Refusal :=
  liftSys (lt mask 256) (ddrTrainDone mask) s

/-- DDR_TRAIN_TIMEOUT (R780). DRAM training exceeds DDR_TRAIN_TMO and fails. -/
def execDdrTrainTimeout (mask : Nat) (s : State) : Host.Outcome State Fault Refusal :=
  liftSys (lt mask 256) (ddrTimeout mask) s

/-- DDR_INIT_DONE (R524). DRAM initialisation ends, SYS_DRAM_TOP is written and INIT_DONE raised. -/
def execDdrInitDone (rs : List ReloadIn) (s : State) : Host.Outcome State Fault Refusal :=
  liftSys (rs.all okReload) (ddrInitDone rs) s

/-- THERMAL_TRIP (R812). A sensor reaches 120 °C; THERMTRIP_N falls and the device shuts down as for supply failure. -/
def execThermalTrip (vhold : Bool) (s : State) : Host.Outcome State Fault Refusal :=
  lift true (thermalTrip vhold) s

/-- JTAG_EXTEST (R804). EXTEST or CLAMP holds PD_SYS in reset, and leaving it performs a PIN reset. -/
def execJtagExtest (on : Bool) (s : State) : Host.Outcome State Fault Refusal :=
  lift true (jtagExtest on) s

/-- RESET_RELEASE (R807). Once every group B and C rail has been in range for 1 ms and RESET_N is high, the device releases
PD_SYS from reset and starts step 1 of R763. -/
def execResetRelease (strap : Straps) (s : State) : Host.Outcome State Fault Refusal :=
  lift true (resetRelease strap) s

end Sys2Proof.Machine
end

