-- ==== Sys2Proof/Machine/RowsRing.lean ====
section
/-! DEFINITION. The meanings of the commands on command rings and long operations (spec 15). -/

namespace Sys2Proof.Machine

open WellFormed

/-- CMD_TAIL_WRITE (R586). Writing RING_CMD_TAILn posts new commands, or is ignored with TAIL_ERR. -/
def execCmdTailWrite (n v : Nat) (s : State) : Host.Outcome State Fault Refusal :=
  liftSys (lt n 16 && lt v (2 ^ 32)) (cmdTailWrite n v) s

/-- CPL_HEAD_WRITE (R587). Writing RING_CPL_HEADn frees completion entries, or is ignored with HEAD_ERR. -/
def execCplHeadWrite (n v : Nat) (s : State) : Host.Outcome State Fault Refusal :=
  liftSys (lt n 16 && lt v (2 ^ 32)) (cplHeadWrite n v) s

/-- RING_ENABLE (R589). Setting RING_CFGn.EN checks the ring configuration and resets or keeps the indices. -/
def execRingEnable (n : Nat) (s : State) : Host.Outcome State Fault Refusal :=
  liftSys (lt n 16) (ringEnable n) s

/-- RING_DISABLE (R590). Clearing RING_CFGn.EN stops fetching and holds completions. -/
def execRingDisable (n : Nat) (s : State) : Host.Outcome State Fault Refusal :=
  liftSys (lt n 16) (ringDisable n) s

/-- COMMAND_DISPATCH (R592). The ring controller fetches a ring's next command in round-robin, checks it and hands it to its
executor. -/
def execCommandDispatch (s : State) : Host.Outcome State Fault Refusal :=
  liftSys true (trAfter commandDispatch) s

/-- COMPLETION_RELEASE (R593). A full completion ring gains room and its held completions are written in order. -/
def execCompletionRelease (n : Nat) (s : State) : Host.Outcome State Fault Refusal :=
  liftSys (lt n 16) (completionRelease n) s

/-- RING_CPL_STALL (R593). A completion ring still full after RING_CPL_TMO sets CPL_FULL and raises RING_CPL_STALL. -/
def execRingCplStall (n : Nat) (s : State) : Host.Outcome State Fault Refusal :=
  liftSys (lt n 16) (cplStall n) s

/-- RING_MOD_TIMER (R612). RING_MODn.US elapses since the oldest counted entry and the ring's interrupt source is signalled.
-/
def execRingModTimer (n : Nat) (s : State) : Host.Outcome State Fault Refusal :=
  liftSys (lt n 16) (modTimer n) s

/-- RING_PROGRESS_TIMER (R604). RING_PROG_INT elapses and a progress entry is written for a running long operation. -/
def execRingProgressTimer (t : Nat) (s : State) : Host.Outcome State Fault Refusal :=
  liftSys (lt t 256) (progressTimer t) s

/-- NOP (R595). A NOP command completes with no action. -/
def execNop (h : CmdHdr) (s : State) : Host.Outcome State Fault Refusal :=
  liftSys (okHdr h) (nopCmd (withOp 0x00 h)) s

/-- QUERY (R602). A QUERY command returns a handle, slot or fingerprint state in its completion. -/
def execQuery (h : CmdHdr) (kind index : Nat) (s : State) : Host.Outcome State Fault Refusal :=
  liftSys (okHdr h && lt kind 256 && lt index 256) (queryCmd (withOp 0x60 h) kind index) s

/-- ADJOURN (R607). An ADJOURN command suspends a QUEUED or RUNNING long operation where allowed. -/
def execAdjourn (h : CmdHdr) (t : Nat) (s : State) : Host.Outcome State Fault Refusal :=
  liftSys (okHdr h && lt t 256) (adjournCmd (withOp 0x70 h) t) s

/-- RESUME (R607). A RESUME command returns an ADJOURNED operation to RUNNING or QUEUED. -/
def execResume (h : CmdHdr) (t : Nat) (s : State) : Host.Outcome State Fault Refusal :=
  liftSys (okHdr h && lt t 256) (resumeCmd (withOp 0x71 h) t) s

/-- RESIGN (R607). A RESIGN command cancels a long operation where its table allows. -/
def execResign (h : CmdHdr) (t : Nat) (s : State) : Host.Outcome State Fault Refusal :=
  liftSys (okHdr h && lt t 256) (trAfter (resignCmd (withOp 0x72 h) t)) s

/-- IMG_LOAD (R818). An IMG_LOAD command loads an image through IMG_SRC and IMG_SRC_LEN. -/
def execImgLoad (h : CmdHdr) (src len : Nat) (s : State) : Host.Outcome State Fault Refusal :=
  liftSys (okHdr h && lt src (2 ^ 64) && lt len (2 ^ 32)) (imgLoadCmd (withOp 0x40 h) src len) s

/-- IMG_ACTIVATE (R85). An IMG_ACTIVATE command runs an activation with an optional barrier. -/
def execImgActivate (h : CmdHdr) (en barrier : Nat) (s : State) : Host.Outcome State Fault Refusal :=
  liftSys (okHdr h && lt en 256 && lt barrier (2 ^ 32)) (trAfter (imgActCmd (withOp 0x41 h) en barrier)) s

/-- CENSUS (R680). A CENSUS command starts a fingerprint census of the torus from this device. -/
def execCensus (h : CmdHdr) (expect : Nat) (s : State) : Host.Outcome State Fault Refusal :=
  liftSys (okHdr h && lt expect 65536) (censusCmd (withOp 0x50 h) expect) s

end Sys2Proof.Machine
end

