-- ==== Sys2Proof/Machine/RowsSync.lean ====
section
/-! DEFINITION. The meanings of the commands on synchronisation objects and interrupts (spec 16, 17). -/

namespace Sys2Proof.Machine

open WellFormed

/-- COUNTER_ADD (R663). A counter add adds ARG to VALUE, saturating. -/
def execCounterAdd (master n arg : Nat) (s : State) : Host.Outcome State Fault Refusal :=
  liftSys (lt master 256 && lt n 65536 && lt arg (2 ^ 32)) (syncOp master n 1 arg) s

/-- SEMAPHORE_RELEASE (R663). A semaphore release adds ARG free units. -/
def execSemaphoreRelease (master n arg : Nat) (s : State) : Host.Outcome State Fault Refusal :=
  liftSys (lt master 256 && lt n 65536 && lt arg (2 ^ 32)) (syncOp master n 2 arg) s

/-- BARRIER_ARRIVE (R663). A barrier arrival adds 1 and at PARAM releases the generation. -/
def execBarrierArrive (master n : Nat) (s : State) : Host.Outcome State Fault Refusal :=
  liftSys (lt master 256 && lt n 65536) (syncOp master n 3 0) s

/-- EVENT_FLAG_SET (R663). An event flag set writes ARG bit 0 to the flag. -/
def execEventFlagSet (master n arg : Nat) (s : State) : Host.Outcome State Fault Refusal :=
  liftSys (lt master 256 && lt n 65536 && lt arg (2 ^ 32)) (syncOp master n 4 arg) s

/-- REDUCTION_CONTRIBUTE (R663). A contribution folds ARG into a reduction cell and releases at its participant count. -/
def execReductionContribute (master n arg : Nat) (s : State) : Host.Outcome State Fault Refusal :=
  liftSys (lt master 256 && lt n 65536 && lt arg (2 ^ 32)) (syncOp master n 5 arg) s

/-- SYNC_TRY_ACQUIRE (R667). A 64-bit read at offset 0 of a semaphore tries to acquire one unit. -/
def execSyncTryAcquire (master n : Nat) (s : State) : Host.Outcome State Fault Refusal :=
  liftSys (lt master 256 && lt n 65536) (acquireRow master n) s

/-- SYNC_FIELD_STORE (R667). A 32-bit write at 0x4, 0x8 or 0xC stores the data as written. -/
def execSyncFieldStore (n off v : Nat) (s : State) : Host.Outcome State Fault Refusal :=
  liftSys (lt n 65536 && okField off && lt v (2 ^ 32)) (fieldRow n off v) s

/-- SYNC_PAIR_WRITE (R667). A 256-bit write stores an object pair and clears its poison and saturation. -/
def execSyncPairWrite (m : Nat) (data : List Byte) (poison : Bool) (s : State) : Host.Outcome State Fault Refusal :=
  liftSys (lt m 32768 && lt data.length 33 && lt 31 data.length) (syncPair m data poison) s

/-- IC_SETPEND (R695). Writing an ID to IC_SETPEND sets that source pending, or sets BAD_ID. -/
def execIcSetpend (id : Nat) (s : State) : Host.Outcome State Fault Refusal :=
  liftSys (lt id 1024) (icSetPend id) s

/-- IC_CLRPEND (R695). Writing an ID to IC_CLRPEND clears that source's pending bit. -/
def execIcClrpend (id : Nat) (raised : Bool) (s : State) : Host.Outcome State Fault Refusal :=
  liftSys (lt id 1024) (icClrPend id raised) s

/-- IC_VECTOR_ACCEPT (R689). A core accepts the presented vector; the source becomes active and RPR rises. -/
def execIcVectorAccept (c : Nat) (raised : Bool) (s : State) : Host.Outcome State Fault Refusal :=
  liftSys (lt c 8) (icAccept c raised) s

/-- IC_EOI (R692). Writing an ID to IC_EOIc ends its active state and recomputes RPR, or sets EOI_ERR. -/
def execIcEoi (c id : Nat) (s : State) : Host.Outcome State Fault Refusal :=
  liftSys (lt c 8 && lt id 1024) (icEoi c id) s

/-- IC_EN_WRITE (R697). A write to an IC_EN word stores every bit, overriding a same-cycle ONESHOT clear with MASK_RACE. -/
def execIcEnWrite (m v : Nat) (race : Option Nat) (s : State) : Host.Outcome State Fault Refusal :=
  liftSys (lt m 16 && lt v (2 ^ 32) && okOpt race 8) (icEnWrite m v race) s

end Sys2Proof.Machine
end

