-- ==== Sys2Proof/Machine/RowsTier.lean ====
section
/-! DEFINITION. The meanings of the commands on memory tiers and adaptation (spec 11, 12). -/

namespace Sys2Proof.Machine

open WellFormed

/-- TM_PLACE (R455). A PLACE operation writes a FREE object entry with its backing after range checks. -/
def execTmPlace (src : TmSrc) (t : TmDesc) (s : State) : Host.Outcome State Fault Refusal :=
  liftSys (okTm src t) (tmOpRow src 1 t) s

/-- TM_FREE (R452). A FREE operation discards any placement and returns the entry to FREE. -/
def execTmFree (src : TmSrc) (t : TmDesc) (s : State) : Host.Outcome State Fault Refusal :=
  liftSys (okTm src t) (tmOpRow src 2 t) s

/-- TM_PROMOTE (R456). A PROMOTE operation reserves frames and copies object tiles up a tier. -/
def execTmPromote (src : TmSrc) (t : TmDesc) (s : State) : Host.Outcome State Fault Refusal :=
  liftSys (okTm src t) (tmOpRow src 3 t) s

/-- TM_CAPTURE (R461). A CAPTURE operation writes back dirty tiles and frees the placement, unless promotion wins. -/
def execTmCapture (src : TmSrc) (t : TmDesc) (s : State) : Host.Outcome State Fault Refusal :=
  liftSys (okTm src t) (tmOpRow src 4 t) s

/-- TM_PIN (R452). A PIN operation adds 1 to the object's pin count. -/
def execTmPin (src : TmSrc) (t : TmDesc) (s : State) : Host.Outcome State Fault Refusal :=
  liftSys (okTm src t) (tmOpRow src 5 t) s

/-- TM_UNPIN (R452). An UNPIN operation subtracts 1 from the object's pin count. -/
def execTmUnpin (src : TmSrc) (t : TmDesc) (s : State) : Host.Outcome State Fault Refusal :=
  liftSys (okTm src t) (tmOpRow src 6 t) s

/-- TM_FLUSH (R452). A FLUSH operation writes back every dirty tile and keeps the placement. -/
def execTmFlush (src : TmSrc) (t : TmDesc) (s : State) : Host.Outcome State Fault Refusal :=
  liftSys (okTm src t) (tmOpRow src 7 t) s

/-- TM_TILE_COPY_DONE (R454). A tile copy ends; the mapping switches, FRONTIER moves and held writes proceed. -/
def execTmTileCopyDone (n : Nat) (s : State) : Host.Outcome State Fault Refusal :=
  liftSys (lt n 16384) (tileCopyDone n) s

/-- TM_MAPPING_QUIESCED (R448). Every cache invalidation is acknowledged and old-mapping accesses complete, so the old frame
may be reused. -/
def execTmMappingQuiesced (n : Nat) (s : State) : Host.Outcome State Fault Refusal :=
  liftSys (lt n 16384) (mappingQuiesced n) s

/-- TM_HOT_INTERVAL (R467). TM_HOT_INT elapses and the hot KV objects are ranked, promoted and captured within the budget. -/
def execTmHotInterval (s : State) : Host.Outcome State Fault Refusal :=
  liftSys true hotInterval s

/-- TM_DISABLE (R472). Clearing TM_CTL.EN stops running operations after their current tile. -/
def execTmDisable (s : State) : Host.Outcome State Fault Refusal :=
  liftSys true tmDisable s

/-- TM_ENABLE (R472). Setting TM_CTL.EN continues every stopped operation from its FRONTIER. -/
def execTmEnable (s : State) : Host.Outcome State Fault Refusal :=
  liftSys true tmEnable s

/-- TRAIN (R493). A TRAIN command checks a train-run descriptor and starts building OBJ_BSCALE. -/
def execTrain (h : CmdHdr) (addr : Nat) (s : State) : Host.Outcome State Fault Refusal :=
  liftSys (okHdr h && lt addr (2 ^ 64)) (xTrain (withOp 0x30 h) addr) s

/-- TRAIN_SETUP_DONE (R488). OBJ_BSCALE is built; the run opens its session and admits the first refresh batch. -/
def execTrainSetupDone (s : State) : Host.Outcome State Fault Refusal :=
  liftSys true trSetup s

/-- TRAIN_COMMIT_DONE (R505). The committed adapter is copied and digested and attached to the side in cycle C. -/
def execTrainCommitDone (s : State) : Host.Outcome State Fault Refusal :=
  liftSys true trCommit s

end Sys2Proof.Machine
end

