-- ==== Sys2Proof/Machine/Dispatch.lean ====
section
/-! DEFINITION. Dispatch: one arm per command of the table. -/

namespace Sys2Proof.Machine

def exec (i : Instr) (s : State) : Host.Outcome State Fault Refusal :=
  match i with
  | .registerWrite addr value => Sys2Proof.Machine.execRegisterWrite addr value s
  | .fabricAccess x => Sys2Proof.Machine.execFabricAccess x s
  | .linkAccessTimeout tag => Sys2Proof.Machine.execLinkAccessTimeout tag s
  | .heldAccessRelease idx => Sys2Proof.Machine.execHeldAccessRelease idx s
  | .powerUpAccessTimeout idx => Sys2Proof.Machine.execPowerUpAccessTimeout idx s
  | .sysNodeLock => Sys2Proof.Machine.execSysNodeLock s
  | .imgLoadGo => Sys2Proof.Machine.execImgLoadGo s
  | .imgPass1ReadDone => Sys2Proof.Machine.execImgPass1ReadDone s
  | .imgSignatureDone => Sys2Proof.Machine.execImgSignatureDone s
  | .imgPass2Done tr => Sys2Proof.Machine.execImgPass2Done tr s
  | .imgSourceFault code off => Sys2Proof.Machine.execImgSourceFault code off s
  | .imgLoadAbort => Sys2Proof.Machine.execImgLoadAbort s
  | .imgQueuedStart => Sys2Proof.Machine.execImgQueuedStart s
  | .imgActGo => Sys2Proof.Machine.execImgActGo s
  | .actDrainDone => Sys2Proof.Machine.execActDrainDone s
  | .actConstCopyDone => Sys2Proof.Machine.execActConstCopyDone s
  | .actBarrierRelease => Sys2Proof.Machine.execActBarrierRelease s
  | .actTimeout => Sys2Proof.Machine.execActTimeout s
  | .start h p => Sys2Proof.Machine.execStart h p s
  | .admitBatch ring => Sys2Proof.Machine.execAdmitBatch ring s
  | .stageFire k written lackIn lackCred lackWait => Sys2Proof.Machine.execStageFire k written lackIn lackCred lackWait s
  | .firingEnd k id => Sys2Proof.Machine.execFiringEnd k id s
  | .fifoItemPresent id k upset => Sys2Proof.Machine.execFifoItemPresent id k upset s
  | .fifoCreditGrant id n => Sys2Proof.Machine.execFifoCreditGrant id n s
  | .fifoMark id k => Sys2Proof.Machine.execFifoMark id k s
  | .fifoRewind id k => Sys2Proof.Machine.execFifoRewind id k s
  | .fifoRelease id k => Sys2Proof.Machine.execFifoRelease id k s
  | .fifoStarved id => Sys2Proof.Machine.execFifoStarved id s
  | .fcPinHoldExpiry p => Sys2Proof.Machine.execFcPinHoldExpiry p s
  | .fifoWmWrite id v => Sys2Proof.Machine.execFifoWmWrite id v s
  | .stageBatchEnd k id => Sys2Proof.Machine.execStageBatchEnd k id s
  | .stageSignalIssue k id => Sys2Proof.Machine.execStageSignalIssue k id s
  | .batchComplete p => Sys2Proof.Machine.execBatchComplete p s
  | .wsFetch k id => Sys2Proof.Machine.execWsFetch k id s
  | .auFetch k id => Sys2Proof.Machine.execAuFetch k id s
  | .auWrite k id => Sys2Proof.Machine.execAuWrite k id s
  | .fetchArrival k id weights stalled => Sys2Proof.Machine.execFetchArrival k id weights stalled s
  | .engWaitTimeout k id w => Sys2Proof.Machine.execEngWaitTimeout k id w s
  | .engDrain k => Sys2Proof.Machine.execEngDrain k s
  | .engDrained k => Sys2Proof.Machine.execEngDrained k s
  | .engDrainSlow k => Sys2Proof.Machine.execEngDrainSlow k s
  | .engEnable k => Sys2Proof.Machine.execEngEnable k s
  | .engKill k => Sys2Proof.Machine.execEngKill k s
  | .engFailDeclare k => Sys2Proof.Machine.execEngFailDeclare k s
  | .engCntClr k => Sys2Proof.Machine.execEngCntClr k s
  | .fireHang k => Sys2Proof.Machine.execFireHang k s
  | .engFault k cause => Sys2Proof.Machine.execEngFault k cause s
  | .arbRelocation k => Sys2Proof.Machine.execArbRelocation k s
  | .shardMigration r => Sys2Proof.Machine.execShardMigration r s
  | .qzSatWindowEnd k n => Sys2Proof.Machine.execQzSatWindowEnd k n s
  | .qzScaleCalibrate k n v => Sys2Proof.Machine.execQzScaleCalibrate k n v s
  | .arrayWindowRead master k off n => Sys2Proof.Machine.execArrayWindowRead master k off n s
  | .senseComplete k p tries raw => Sys2Proof.Machine.execSenseComplete k p tries raw s
  | .arrayReadTimeout master k => Sys2Proof.Machine.execArrayReadTimeout master k s
  | .stackPowerOn k => Sys2Proof.Machine.execStackPowerOn k s
  | .autoSuspend k g => Sys2Proof.Machine.execAutoSuspend k g s
  | .autoResume k g => Sys2Proof.Machine.execAutoResume k g s
  | .arySeqKey master k second => Sys2Proof.Machine.execArySeqKey master k second s
  | .aryStrayWrite master k off data => Sys2Proof.Machine.execAryStrayWrite master k off data s
  | .arySeqTimeout k => Sys2Proof.Machine.execArySeqTimeout k s
  | .aryErase master k => Sys2Proof.Machine.execAryErase master k s
  | .aryProgramBuffer master k => Sys2Proof.Machine.execAryProgramBuffer master k s
  | .aryBufferWrite master k off data poison => Sys2Proof.Machine.execAryBufferWrite master k off data poison s
  | .aryCommit master k => Sys2Proof.Machine.execAryCommit master k s
  | .aryPbTimeout k => Sys2Proof.Machine.execAryPbTimeout k s
  | .arySuspend master k => Sys2Proof.Machine.execArySuspend master k s
  | .arySuspendHeldExpiry k => Sys2Proof.Machine.execArySuspendHeldExpiry k s
  | .aryResume master k => Sys2Proof.Machine.execAryResume master k s
  | .aryAbort master k => Sys2Proof.Machine.execAryAbort master k s
  | .aryStatus master k => Sys2Proof.Machine.execAryStatus master k s
  | .aryIdentify master k => Sys2Proof.Machine.execAryIdentify master k s
  | .aryContinuousRead master k => Sys2Proof.Machine.execAryContinuousRead master k s
  | .aryPasswordUnlock master k => Sys2Proof.Machine.execAryPasswordUnlock master k s
  | .aryLock master k => Sys2Proof.Machine.execAryLock master k s
  | .pwTableWriteDone k => Sys2Proof.Machine.execPwTableWriteDone k s
  | .aryPowerGrant => Sys2Proof.Machine.execAryPowerGrant s
  | .aryOpDone k g us ok => Sys2Proof.Machine.execAryOpDone k g us ok s
  | .aryRetire k b => Sys2Proof.Machine.execAryRetire k b s
  | .load h addr len slot side kind nsid => Sys2Proof.Machine.execLoad h addr len slot side kind nsid s
  | .loadQueuedStart => Sys2Proof.Machine.execLoadQueuedStart s
  | .loadManifestArrival => Sys2Proof.Machine.execLoadManifestArrival s
  | .nvmeCompletion status shard data => Sys2Proof.Machine.execNvmeCompletion status shard data s
  | .shardArrivalDone idx => Sys2Proof.Machine.execShardArrivalDone idx s
  | .shardReadbackDone idx => Sys2Proof.Machine.execShardReadbackDone idx s
  | .loadSourceFault shard poison cause => Sys2Proof.Machine.execLoadSourceFault shard poison cause s
  | .loadSourceTimeout shard => Sys2Proof.Machine.execLoadSourceTimeout shard s
  | .leDisable => Sys2Proof.Machine.execLeDisable s
  | .leEnable => Sys2Proof.Machine.execLeEnable s
  | .patrolLapStart => Sys2Proof.Machine.execPatrolLapStart s
  | .patrolShardCheck => Sys2Proof.Machine.execPatrolShardCheck s
  | .castle h slot flags barrier => Sys2Proof.Machine.execCastle h slot flags barrier s
  | .castleBarrierRelease slot => Sys2Proof.Machine.execCastleBarrierRelease slot s
  | .castleTimeout slot => Sys2Proof.Machine.execCastleTimeout slot s
  | .castleHoldExpiry slot => Sys2Proof.Machine.execCastleHoldExpiry slot s
  | .arbSlotExpire => Sys2Proof.Machine.execArbSlotExpire s
  | .release h slot side => Sys2Proof.Machine.execRelease h slot side s
  | .sessionClose h slot session => Sys2Proof.Machine.execSessionClose h slot session s
  | .tmPlace src t => Sys2Proof.Machine.execTmPlace src t s
  | .tmFree src t => Sys2Proof.Machine.execTmFree src t s
  | .tmPromote src t => Sys2Proof.Machine.execTmPromote src t s
  | .tmCapture src t => Sys2Proof.Machine.execTmCapture src t s
  | .tmPin src t => Sys2Proof.Machine.execTmPin src t s
  | .tmUnpin src t => Sys2Proof.Machine.execTmUnpin src t s
  | .tmFlush src t => Sys2Proof.Machine.execTmFlush src t s
  | .tmTileCopyDone n => Sys2Proof.Machine.execTmTileCopyDone n s
  | .tmMappingQuiesced n => Sys2Proof.Machine.execTmMappingQuiesced n s
  | .tmHotInterval => Sys2Proof.Machine.execTmHotInterval s
  | .tmDisable => Sys2Proof.Machine.execTmDisable s
  | .tmEnable => Sys2Proof.Machine.execTmEnable s
  | .train h addr => Sys2Proof.Machine.execTrain h addr s
  | .trainSetupDone => Sys2Proof.Machine.execTrainSetupDone s
  | .trainCommitDone => Sys2Proof.Machine.execTrainCommitDone s
  | .scrubRead st upset => Sys2Proof.Machine.execScrubRead st upset s
  | .intgScrubSlow st => Sys2Proof.Machine.execIntgScrubSlow st s
  | .intgFlipArm v => Sys2Proof.Machine.execIntgFlipArm v s
  | .arbHoldClassify idx rs => Sys2Proof.Machine.execArbHoldClassify idx rs s
  | .batchReplay p seq => Sys2Proof.Machine.execBatchReplay p seq s
  | .arbHoldReplay idx => Sys2Proof.Machine.execArbHoldReplay idx s
  | .arbHoldResign idx => Sys2Proof.Machine.execArbHoldResign idx s
  | .shardReload r => Sys2Proof.Machine.execShardReload r s
  | .reloadRetryTimer r => Sys2Proof.Machine.execReloadRetryTimer r s
  | .recovRetryNow rs => Sys2Proof.Machine.execRecovRetryNow rs s
  | .stackDegraded k rs => Sys2Proof.Machine.execStackDegraded k rs s
  | .stackDead k rs => Sys2Proof.Machine.execStackDead k rs s
  | .arbBlockRetire k b rs => Sys2Proof.Machine.execArbBlockRetire k b rs s
  | .arbCeRepeatResponse st a rs => Sys2Proof.Machine.execArbCeRepeatResponse st a rs s
  | .arbWatchdogExpiry => Sys2Proof.Machine.execArbWatchdogExpiry s
  | .poweredTimeSave => Sys2Proof.Machine.execPoweredTimeSave s
  | .scoreRecordQueue event kind index args => Sys2Proof.Machine.execScoreRecordQueue event kind index args s
  | .scorePost master => Sys2Proof.Machine.execScorePost master s
  | .scoreFlush => Sys2Proof.Machine.execScoreFlush s
  | .scoreFlushTimeout => Sys2Proof.Machine.execScoreFlushTimeout s
  | .scorePageProgrammed => Sys2Proof.Machine.execScorePageProgrammed s
  | .scoreSectorErased => Sys2Proof.Machine.execScoreSectorErased s
  | .scoreScanDone => Sys2Proof.Machine.execScoreScanDone s
  | .powerFail vhold => Sys2Proof.Machine.execPowerFail vhold s
  | .cmdTailWrite n v => Sys2Proof.Machine.execCmdTailWrite n v s
  | .cplHeadWrite n v => Sys2Proof.Machine.execCplHeadWrite n v s
  | .ringEnable n => Sys2Proof.Machine.execRingEnable n s
  | .ringDisable n => Sys2Proof.Machine.execRingDisable n s
  | .commandDispatch => Sys2Proof.Machine.execCommandDispatch s
  | .completionRelease n => Sys2Proof.Machine.execCompletionRelease n s
  | .ringCplStall n => Sys2Proof.Machine.execRingCplStall n s
  | .ringModTimer n => Sys2Proof.Machine.execRingModTimer n s
  | .ringProgressTimer t => Sys2Proof.Machine.execRingProgressTimer t s
  | .nop h => Sys2Proof.Machine.execNop h s
  | .query h kind index => Sys2Proof.Machine.execQuery h kind index s
  | .adjourn h t => Sys2Proof.Machine.execAdjourn h t s
  | .resume h t => Sys2Proof.Machine.execResume h t s
  | .resign h t => Sys2Proof.Machine.execResign h t s
  | .imgLoad h src len => Sys2Proof.Machine.execImgLoad h src len s
  | .imgActivate h en barrier => Sys2Proof.Machine.execImgActivate h en barrier s
  | .census h expect => Sys2Proof.Machine.execCensus h expect s
  | .tlEnable n => Sys2Proof.Machine.execTlEnable n s
  | .tlDisable n => Sys2Proof.Machine.execTlDisable n s
  | .tlTrainFlit n lanes flit => Sys2Proof.Machine.execTlTrainFlit n lanes flit s
  | .tlTrainTimeout n => Sys2Proof.Machine.execTlTrainTimeout n s
  | .tlDataFlit n flit => Sys2Proof.Machine.execTlDataFlit n flit s
  | .tlIdleFlit n flit => Sys2Proof.Machine.execTlIdleFlit n flit s
  | .tlAckFlit n flit => Sys2Proof.Machine.execTlAckFlit n flit s
  | .tlNakFlit n flit => Sys2Proof.Machine.execTlNakFlit n flit s
  | .tlSleepNotice n flit => Sys2Proof.Machine.execTlSleepNotice n flit s
  | .tlReplayTimeout n => Sys2Proof.Machine.execTlReplayTimeout n s
  | .tlAckTimer n => Sys2Proof.Machine.execTlAckTimer n s
  | .tlIdleInsert n => Sys2Proof.Machine.execTlIdleInsert n s
  | .tlVcIdleSend n v => Sys2Proof.Machine.execTlVcIdleSend n v s
  | .tlFcInChange n level => Sys2Proof.Machine.execTlFcInChange n level s
  | .tlFcStuck n => Sys2Proof.Machine.execTlFcStuck n s
  | .tlFpSettleExpiry n => Sys2Proof.Machine.execTlFpSettleExpiry n s
  | .tlWakeRetry n => Sys2Proof.Machine.execTlWakeRetry n s
  | .linkWakeDetect n ok => Sys2Proof.Machine.execLinkWakeDetect n ok s
  | .read n m => Sys2Proof.Machine.execRead n m s
  | .write n m => Sys2Proof.Machine.execWrite n m s
  | .readRsp n m => Sys2Proof.Machine.execReadRsp n m s
  | .writeAck n m => Sys2Proof.Machine.execWriteAck n m s
  | .errRsp n m => Sys2Proof.Machine.execErrRsp n m s
  | .syncOp n m => Sys2Proof.Machine.execSyncOp n m s
  | .watch n m => Sys2Proof.Machine.execWatch n m s
  | .notify n m => Sys2Proof.Machine.execNotify n m s
  | .watchRetry tag => Sys2Proof.Machine.execWatchRetry tag s
  | .stream n m => Sys2Proof.Machine.execStream n m s
  | .censusStart n m => Sys2Proof.Machine.execCensusStart n m s
  | .censusPart n m => Sys2Proof.Machine.execCensusPart n m s
  | .censusChildTimeout => Sys2Proof.Machine.execCensusChildTimeout s
  | .counterAdd master n arg => Sys2Proof.Machine.execCounterAdd master n arg s
  | .semaphoreRelease master n arg => Sys2Proof.Machine.execSemaphoreRelease master n arg s
  | .barrierArrive master n => Sys2Proof.Machine.execBarrierArrive master n s
  | .eventFlagSet master n arg => Sys2Proof.Machine.execEventFlagSet master n arg s
  | .reductionContribute master n arg => Sys2Proof.Machine.execReductionContribute master n arg s
  | .syncTryAcquire master n => Sys2Proof.Machine.execSyncTryAcquire master n s
  | .syncFieldStore n off v => Sys2Proof.Machine.execSyncFieldStore n off v s
  | .syncPairWrite m data poison => Sys2Proof.Machine.execSyncPairWrite m data poison s
  | .icSetpend id => Sys2Proof.Machine.execIcSetpend id s
  | .icClrpend id raised => Sys2Proof.Machine.execIcClrpend id raised s
  | .icVectorAccept c raised => Sys2Proof.Machine.execIcVectorAccept c raised s
  | .icEoi c id => Sys2Proof.Machine.execIcEoi c id s
  | .icEnWrite m v race => Sys2Proof.Machine.execIcEnWrite m v race s
  | .pmuRequestEntry target => Sys2Proof.Machine.execPmuRequestEntry target s
  | .pmuRequestExit => Sys2Proof.Machine.execPmuRequestExit s
  | .autoIdleEntry => Sys2Proof.Machine.execAutoIdleEntry s
  | .autoRunExit => Sys2Proof.Machine.execAutoRunExit s
  | .agentAnswer a busy => Sys2Proof.Machine.execAgentAnswer a busy s
  | .pmuHandshakeTimeout => Sys2Proof.Machine.execPmuHandshakeTimeout s
  | .wakeSource src => Sys2Proof.Machine.execWakeSource src s
  | .aonCalibrate => Sys2Proof.Machine.execAonCalibrate s
  | .aonCalDone xtal rc => Sys2Proof.Machine.execAonCalDone xtal rc s
  | .aonClockFallback => Sys2Proof.Machine.execAonClockFallback s
  | .aonClockRetry => Sys2Proof.Machine.execAonClockRetry s
  | .aonCrystalStable => Sys2Proof.Machine.execAonCrystalStable s
  | .aonAlarm n => Sys2Proof.Machine.execAonAlarm n s
  | .pmuDomainFault dom kind => Sys2Proof.Machine.execPmuDomainFault dom kind s
  | .powerOnReset => Sys2Proof.Machine.execPowerOnReset s
  | .supplyReset => Sys2Proof.Machine.execSupplyReset s
  | .pinReset cool => Sys2Proof.Machine.execPinReset cool s
  | .softwareReset code => Sys2Proof.Machine.execSoftwareReset code s
  | .perstFall => Sys2Proof.Machine.execPerstFall s
  | .keyRecover type => Sys2Proof.Machine.execKeyRecover type s
  | .arbBootCfg base compat => Sys2Proof.Machine.execArbBootCfg base compat s
  | .keyFuseProg slot => Sys2Proof.Machine.execKeyFuseProg slot s
  | .keyFuseRevoke => Sys2Proof.Machine.execKeyFuseRevoke s
  | .keyFuseRaise level => Sys2Proof.Machine.execKeyFuseRaise level s
  | .keyFuseDone ok => Sys2Proof.Machine.execKeyFuseDone ok s
  | .keyAttest => Sys2Proof.Machine.execKeyAttest s
  | .keyAttestDone => Sys2Proof.Machine.execKeyAttestDone s
  | .ddrTrain => Sys2Proof.Machine.execDdrTrain s
  | .ddrTrainDone mask => Sys2Proof.Machine.execDdrTrainDone mask s
  | .ddrTrainTimeout mask => Sys2Proof.Machine.execDdrTrainTimeout mask s
  | .ddrInitDone rs => Sys2Proof.Machine.execDdrInitDone rs s
  | .thermalTrip vhold => Sys2Proof.Machine.execThermalTrip vhold s
  | .jtagExtest on => Sys2Proof.Machine.execJtagExtest on s
  | .resetRelease strap => Sys2Proof.Machine.execResetRelease strap s
  | .ethRxFrame m frame ok => Sys2Proof.Machine.execEthRxFrame m frame ok s
  | .ethRxTailWrite m v => Sys2Proof.Machine.execEthRxTailWrite m v s
  | .ethTxTailWrite m v => Sys2Proof.Machine.execEthTxTailWrite m v s
  | .ethTxDone m => Sys2Proof.Machine.execEthTxDone m s
  | .ethLinkDown m => Sys2Proof.Machine.execEthLinkDown m s
  | .usbOutTransfer data ended => Sys2Proof.Machine.execUsbOutTransfer data ended s
  | .usbInDone => Sys2Proof.Machine.execUsbInDone s
  | .usbOutTailWrite v => Sys2Proof.Machine.execUsbOutTailWrite v s
  | .usbInTailWrite v => Sys2Proof.Machine.execUsbInTailWrite v s
  | .usbBusReset speed => Sys2Proof.Machine.execUsbBusReset speed s
  | .csiFrameStart n num => Sys2Proof.Machine.execCsiFrameStart n num s
  | .csiFrameEnd n width lines dt vc data => Sys2Proof.Machine.execCsiFrameEnd n width lines dt vc data s
  | .csiFrameTimeout n => Sys2Proof.Machine.execCsiFrameTimeout n s
  | .csiFbRel n idx => Sys2Proof.Machine.execCsiFbRel n idx s
  | .csiFbCfgWrite n v => Sys2Proof.Machine.execCsiFbCfgWrite n v s
  | .tdmFrame samples onTime => Sys2Proof.Machine.execTdmFrame samples onTime s
  | .tdmRingDrain => Sys2Proof.Machine.execTdmRingDrain s
  | .tdmFsLost => Sys2Proof.Machine.execTdmFsLost s
  | .tdmCtlWrite v => Sys2Proof.Machine.execTdmCtlWrite v s
  | .vadWindow sum => Sys2Proof.Machine.execVadWindow sum s
  | .pcieLinkTrain => Sys2Proof.Machine.execPcieLinkTrain s
  | .pcieLinkFail => Sys2Proof.Machine.execPcieLinkFail s
  | .pcieConfigAccess master off n wr data answer => Sys2Proof.Machine.execPcieConfigAccess master off n wr data answer s
  | .cpuHoldWrite v => Sys2Proof.Machine.execCpuHoldWrite v s
  | .cpuFreqWrite v => Sys2Proof.Machine.execCpuFreqWrite v s
  | .pcieLinkUp rate width => Sys2Proof.Machine.execPcieLinkUp rate width s
  | .ethBlockLock m => Sys2Proof.Machine.execEthBlockLock m s
  | .usbBusSuspend on => Sys2Proof.Machine.execUsbBusSuspend on s
  | .usbStandardRequest setup => Sys2Proof.Machine.execUsbStandardRequest setup s

end Sys2Proof.Machine
end

