-- ==== Sys2Proof/Frames.lean ====
section
/-! DEFINITION. How a statement speaks of a command's effect: that the command completes, what it leaves alone, and what the events
that many commands share leave behind. -/

namespace Sys2Proof

/-- The rows of PD_AON, of the supplies and pins, and of the array's and scoresheet's own completions, which take place also while PD_SYS
has no clock (R708, R745, R754). -/
def Instr.always : Instr → Bool
  | .scorePageProgrammed ..
  | .scoreSectorErased ..
  | .scoreScanDone ..
  | .powerFail ..
  | .linkWakeDetect ..
  | .vadWindow ..
  | .wakeSource ..
  | .aonCalibrate ..
  | .aonCalDone ..
  | .aonClockFallback ..
  | .aonClockRetry ..
  | .aonCrystalStable ..
  | .aonAlarm ..
  | .pmuDomainFault ..
  | .powerOnReset ..
  | .supplyReset ..
  | .pinReset ..
  | .perstFall ..
  | .thermalTrip ..
  | .jtagExtest ..
  | .resetRelease .. => true
  | _ => false

end Sys2Proof

namespace Sys2Proof.Machine

/-- A command completes: it answers a next state in which the same commands wait and the device satisfies `P`. -/
def Completes (c : Instr) (s : State) (P : Dev → Prop) : Prop := ∃ t, exec c s = .next t ∧ t.pending = s.pending ∧ P t.dev

/-- The registers that raising an interrupt may write, besides those of the command itself: the IC's pending bits, PMU_STAT,
PMU_WAKE_PEND and PMU_WAKE_CAUSE, CPU_STAT, and ENG_STAT of the engines, which leave DRAINING when a wake cancels an entry (R727, R728). -/
def raised (a : Nat) : Prop :=
  (0x10030100 ≤ a ∧ a < 0x10030140) ∨ a = 0x10010004 ∨ a = 0x10010024 ∨ a = 0x10010028 ∨ a = 0x10600010 ∨
  (0x10100000 ≤ a ∧ a < 0x10200000 ∧ a % 0x10000 = 4)

/-- The registers that a record queued at the scoresheet may write: its next number and the count of lost records (R576). -/
def scored (a : Nat) : Prop := a = Reg.ARB_SCORE_SEQ.addr ∨ a = Reg.ARB_SCORE_LOST.addr

/-- The frame of a command that stores nothing: every register outside `w` and the interrupt registers reads as before, and so do
every byte of memory, every poison mark and every symbol error. -/
def Touches (w : Nat → Prop) (d e : Dev) : Prop :=
  (∀ r : Reg, ¬ w r.addr → ¬ raised r.addr → rd e r = rd d r) ∧ e.mem = d.mem ∧ e.poison = d.poison ∧ e.errs = d.errs

/-- The granules of `n` bytes at `a` carry no poison mark and no symbol error. -/
abbrev Clean (d : Dev) (a n : Nat) : Prop := ∀ g ∈ granRange a n, poisoned d g = false ∧ errOf d g = []

/-- A store of `bs` at `a` through the granule code (R39, R532): those bytes and no other change, and the granules they lie in carry no
symbol error, and a mark where the data was poisoned. -/
def Stored (a : Nat) (bs : List Byte) (p : Bool) (d e : Dev) : Prop :=
  (∀ b, byteAt e.mem b = if a ≤ b ∧ b < a + bs.length then bs.getD (b - a) 0 else byteAt d.mem b) ∧
  (∀ g, poisoned e g = if g ∈ granRange a bs.length then p else poisoned d g) ∧
  (∀ g, errOf e g = if g ∈ granRange a bs.length then [] else errOf d g)

/-- What a bus error leaves (R44, R50, R51): its master is told, a read with `n` bytes of all-ones, SYS_BERR_CNT counts it and sticks, and the log takes it while VALID is 0
and sets OVER otherwise. -/
def BusErrored (cause master : Nat) (write : Bool) (fa n : Nat) (d e : Dev) : Prop :=
  e.out = d.out ++ [.busError master cause (if write then [] else List.replicate n 0xFF)] ∧
  gf e Reg.SYS_BERR_CNT F.SYS_BERR_CNT_COUNT = min (gf d Reg.SYS_BERR_CNT F.SYS_BERR_CNT_COUNT + 1) 0x7FFFFFFF ∧
  (0x7FFFFFFE ≤ gf d Reg.SYS_BERR_CNT F.SYS_BERR_CNT_COUNT → gb e Reg.SYS_BERR_CNT F.SYS_BERR_CNT_OVF = true ∧
    (gb d Reg.SYS_BERR_CNT F.SYS_BERR_CNT_OVF = false → icPending e 80 = true)) ∧
  gb e Reg.SYS_BERR_STAT F.SYS_BERR_STAT_VALID = true ∧
  (gb d Reg.SYS_BERR_STAT F.SYS_BERR_STAT_VALID = false →
    gf e Reg.SYS_BERR_STAT F.SYS_BERR_STAT_CAUSE = cause ∧ gf e Reg.SYS_BERR_STAT F.SYS_BERR_STAT_MASTER = master ∧
    gf e Reg.SYS_BERR_STAT F.SYS_BERR_STAT_WRITE = bit write ∧ gf e Reg.SYS_BERR_ADDR F.SYS_BERR_ADDR_ADDR = fa) ∧
  (gb d Reg.SYS_BERR_STAT F.SYS_BERR_STAT_VALID = true →
    gb e Reg.SYS_BERR_STAT F.SYS_BERR_STAT_OVER = true ∧
    gf e Reg.SYS_BERR_STAT F.SYS_BERR_STAT_CAUSE = gf d Reg.SYS_BERR_STAT F.SYS_BERR_STAT_CAUSE ∧
    gf e Reg.SYS_BERR_STAT F.SYS_BERR_STAT_MASTER = gf d Reg.SYS_BERR_STAT F.SYS_BERR_STAT_MASTER ∧
    rd e Reg.SYS_BERR_ADDR = rd d Reg.SYS_BERR_ADDR) ∧
  Touches (fun a => a = Reg.SYS_BERR_STAT.addr ∨ a = Reg.SYS_BERR_ADDR.addr ∨ a = Reg.SYS_BERR_CNT.addr) d e

/-- The address of the next completion entry of ring pair `n` (R587). -/
def cplNext (d : Dev) (n : Nat) : Nat :=
  gf d (Reg.RING_CPL_BASE n) F.RING_CPL_BASE_ADDR + (rd d (Reg.RING_CPL_TAIL n)).toNat % 2 ^ gf d (Reg.RING_CFG n) F.RING_CFG_CPL_LOG2 * 32

/-- Ring pair `n` can write a completion: it is enabled and has room, its next entry lies in clean main memory, and no flip is armed. -/
def RingReady (d : Dev) (n : Nat) : Prop :=
  gb d (Reg.RING_CFG n) F.RING_CFG_EN = true ∧ cplFull d n = false ∧ cplNext d n + 32 ≤ 2 ^ 40 ∧
  region (cplNext d n) = .dram ∧ accessCause d (cplNext d n) 32 true = none ∧ Clean d (cplNext d n) 32 ∧
  gb d Reg.INTG_FLIP F.INTG_FLIP_ARM = false

/-- One completion entry has been written at the tail of its ring, which advances and counts it, and signals under RING_MOD, for an
interrupt that the command asks for, or while the IC takes its wakes (R587, R601, R612); nothing else has changed. -/
def CplWritten (c : Cpl) (d e : Dev) : Prop :=
  let n := c.hdr.ring
  let p := min (gf d (Reg.RING_STAT n) F.RING_STAT_PENDING + 1) 255
  let now := p ≥ gf d (Reg.RING_MOD n) F.RING_MOD_CNT ∨ (c.progress = false ∧ c.hdr.flags.testBit 1 = true) ∨ d.pmu.icAcc = true
  Stored (cplNext d n) (cplBytes c (rd d (Reg.RING_CPL_TAIL n)).toNat (gf d (Reg.RING_CFG n) F.RING_CFG_CPL_LOG2) (fastTime d)) false d e ∧
  gf e (Reg.RING_CPL_TAIL n) F.RING_CPL_TAIL_INDEX = ((rd d (Reg.RING_CPL_TAIL n)).toNat + 1) % 2 ^ 32 ∧
  (now → gf e (Reg.RING_STAT n) F.RING_STAT_PENDING = 0 ∧ icPending e (16 + n) = true) ∧
  (¬ now → gf e (Reg.RING_STAT n) F.RING_STAT_PENDING = p) ∧
  (∀ r : Reg, r.addr ≠ (Reg.RING_CPL_TAIL n).addr → r.addr ≠ (Reg.RING_STAT n).addr → ¬ raised r.addr → rd e r = rd d r)

/-- No load runs, no background erase waits, no side is being released, and no operation of the load engine or the arbiter exists: a
command to the array starts nothing besides. -/
def ArrayQuiet (d : Dev) : Prop :=
  d.le.run = none ∧ d.le.erases = [] ∧ ownOps d = [] ∧ ∀ i, i < 128 → (sideOf d (i / 2) (i % 2)).st ≠ 5

/-- PD_SYS is held in a reset of a type of R754 (R16, R205, R737, R754, R757, R801): the cause is recorded, CLK_REF is stopped, no power
transition runs, every FC pin is asserted, every register outside PD_AON and the fuses reads its reset value (but KEY_BOOT_STAT and
FIFO_PIN_STAT, which are set as said), and every byte of memory that the reset clears reads as nothing had written it. -/
def HeldInReset (type : Nat) (e : Dev) : Prop :=
  e.boot.inReset = true ∧ e.boot.cause = type ∧ gf e Reg.KEY_BOOT_STAT F.KEY_BOOT_STAT_CAUSE = type ∧ e.pmu.clkRef = false ∧
  pmuState e = 0 ∧ pmuBusy e = false ∧ gf e Reg.FIFO_PIN_STAT ⟨0, 8⟩ = 0xFF ∧
  (∀ r : Reg, aonReg r.addr = false → r.addr ≠ Reg.KEY_BOOT_STAT.addr → r.addr ≠ Reg.FIFO_PIN_STAT.addr → rd e r = r.reset) ∧
  (∀ a, nonVolatile a = false → byteAt e.mem a = memDefault a)

end Sys2Proof.Machine
end

