-- ==== Sys2Proof/Safety.lean ====
section
/-! DEFINITION. What counts as a good state and a good command: the canonical forms that every step keeps, and operands that fit their
fields. -/

namespace Sys2Proof.Machine

/-- The device's sparse tables are in their canonical form: memory lists no byte at what an unlisted address reads as, and the keys of
memory, of the poison marks, of the symbol errors and of the stored registers rise strictly, so that equal contents are equal data. -/
def Dev.ok (d : Dev) : Prop := Memory.wf d.mem ∧ Rising d.poison ∧ Rising d.errs ∧ Rising d.regs

/-- Every command that waits has operands that fit their fields. -/
def State.queueOk (s : State) : Prop := ∀ c ∈ s.pending, c.wf = true

/-- A good state of the machine. -/
def State.ok (s : State) : Prop := s.dev.ok ∧ s.queueOk

end Sys2Proof.Machine
end

