-- ==== Sys2Proof/Certificates/Slice0/Obligations.lean ====
section
/-! DEFINITION. The statements for the provers, family by family of the command table. -/

open Sys2Proof Sys2Proof.Machine

/-- A step runs the command at the front of the queue on the rest of it. For every command c and every state s, step of s with c put at the
front of its queue is exec of c on s. The model's choice of one queue is log entry 99. (spec/95_what_each_step_holds.md) -/
def Obligations.StepRunsFrontCommand : Prop :=
  ∀ (c : Instr) (s : State), step { s with pending := c :: s.pending } = exec c s

/-- With no command waiting, a step advances the time counters and performs one posted write. On an empty queue a step answers a next state
with an empty queue. FAST_TIME stops while CLK_REF is stopped, AON_TIME then advances by one, and while no write of the device's own
masters is posted, or PD_SYS has no clock, no register but the two time counters and no byte of memory changes. While one is posted, the
oldest is performed after the tick as its master's access. The step on an empty queue is the model's choice, log entries 1 and 115. (R736,
R737) -/
def Obligations.EmptyQueueTicks : Prop :=
  ∀ s : State, s.pending = [] → ∃ t e, step s = .next t ∧ t.pending = [] ∧
    (t.dev = if sysClocked s.dev then postedRun e else e) ∧ e.boot = s.dev.boot ∧
    (sysClocked s.dev = false ∨ s.dev.boot.posted = [] → t.dev = e) ∧
    (s.dev.pmu.clkRef = false → rd e Reg.AON_TIME = rd s.dev Reg.AON_TIME + 1 ∧ rd e Reg.FAST_TIME = rd s.dev Reg.FAST_TIME) ∧
    (rd e Reg.FAST_TIME = rd s.dev Reg.FAST_TIME ∨ rd e Reg.FAST_TIME = rd s.dev Reg.FAST_TIME + 1) ∧
    (∀ r : Reg, r.addr ≠ Reg.AON_TIME.addr → r.addr ≠ Reg.FAST_TIME.addr → rd e r = rd s.dev r) ∧
    e.mem = s.dev.mem ∧ e.poison = s.dev.poison ∧ e.errs = s.dev.errs ∧ e.out = s.dev.out

/-- Every command whose operands fit its fields completes in every state; one whose operands do not fit is refused. exec never faults, never
answers notModelled, and answers a next state with the same queue exactly for the well-formed commands; an ill-formed term is refused as
illFormed, which is the model's choice in log entry 7. (spec/95_what_each_step_holds.md) -/
def Obligations.CommandsCompleteOrAreNoCommand : Prop :=
  ∀ (c : Instr) (s : State), (c.wf = true ↔ ∃ t, exec c s = .next t) ∧ (∀ t, exec c s = .next t → t.pending = s.pending) ∧
    (c.wf = false → exec c s = .refused .illFormed)

/-- While PD_SYS has no clock, every command of PD_SYS leaves the machine as it is. In SLEEP, in DEEP, in reset and without the main supply, a
well-formed command that is not one of the rows of PD_AON, of the supplies and pins or of the scoresheet's own completions answers the
same state. That such a row does nothing is the model's reading, log entry 8. (R708, R745, R754) -/
def Obligations.UnclockedDomainDoesNothing : Prop :=
  ∀ (c : Instr) (s : State), sysClocked s.dev = false → c.always = false → c.wf = true → exec c s = .next s

/-- Every step keeps memory, marks, symbol errors and registers in their one canonical form. From every state whose memory, poison marks,
symbol errors and stored registers are in canonical form (keys rising, no byte listed at what an unlisted address reads as), whatever
command runs, the next state is in canonical form; equal contents are therefore equal data. (R7, R8, R16, R38) -/
def Obligations.StepKeepsCanonicalForm : Prop :=
  ∀ s t : State, s.dev.ok → step s = .next t → t.dev.ok

/-- The state after reset is in canonical form, with no command waiting. State.reset satisfies the invariant that every step keeps, and its
queue is empty. (R16) -/
def Obligations.ResetIsCanonical : Prop :=
  State.reset.ok ∧ State.reset.pending = [] ∧ Memory.wf State.reset.dev.mem

/-- A queue of well-formed commands never stops the machine. From every state whose waiting commands are well-formed a step answers a next
state whose waiting commands are the rest of the queue, again well-formed, so that no command the hardware can receive ends a run.
(spec/95_what_each_step_holds.md) -/
def Obligations.QueueKeepsRunning : Prop :=
  ∀ s : State, s.queueOk → ∃ t, step s = .next t ∧ t.queueOk ∧ t.pending = s.pending.tail

/-- An access with GLOBAL 0 and a DEV_ID other than 0 returns UNMAPPED. For every well-formed access of a bus master at fabric address a (no
BAR offset), with a's GLOBAL bit 0 and a's DEV_ID not 0, FABRIC_ACCESS completes, and leaves exactly what a bus error of cause UNMAPPED
leaves: the master is told (a read returns all-ones), the error is counted and logged, and nothing else changes. (R25) -/
def Obligations.UnmappedWhenNotGlobal : Prop :=
  ∀ (s : State) (x : BusAcc), sysClocked s.dev = true → (Instr.fabricAccess x).wf = true → x.bar = 0 →
    x.addr / 2 ^ 52 = 0 → x.addr / 2 ^ 40 % 4096 ≠ 0 →
    Completes (.fabricAccess x) s (BusErrored 1 x.master x.write x.addr x.bytes s.dev)

/-- A bus error is counted always and logged only while the log is empty. For every state, cause, master and address, the shared bus-error
operation tells the master, with all-ones for the bytes of a read, logs cause, master, direction and address into SYS_BERR_STAT and
SYS_BERR_ADDR while VALID is 0 and sets VALID; while VALID is 1 it sets OVER and keeps the logged error; it adds one to SYS_BERR_CNT (held
at 0x7FFF_FFFF), and when COUNT reaches 0x7FFF_FFFF it sets OVF and, where OVF was clear, raises SYS_CNT_OVF (source 80); no other
register and no byte of memory changes. (R50, R51) -/
def Obligations.BusErrorsAreLoggedAndCounted : Prop :=
  ∀ (d : Dev) (cause master fa n : Nat) (write : Bool), cause < 16 → master < 256 → fa < 2 ^ 53 →
    BusErrored cause master write fa n d (busFail cause master write fa n d)

/-- Where FABRIC_ACCESS returns a bus error before its target is reached, and where it is held. For every well-formed access at a fabric
address a, not an inbound PCIe write with EP: a request from below the root port beyond the local map is UNMAPPED; one to another device
is NO_ROUTE when no route leads there. A local one outside the PCIe window is held while its block's domain turns on, or behind a held
access of the same master to the same block. Else it is UNMAPPED in a reserved range or a register block that R32 does not list, READ_ONLY
for a write of ROM, scoresheet or calibration rows, BEYOND_TOP in main memory at or past the top (for any access while TOP is 0) and past
a stack's blocks, DOMAIN_OFF for a block whose domain does not serve, and ALIGN where it touches a register unnaturally. Each completes
and leaves what a bus error of that cause leaves. The order among causes is the model's, log entry 9. (R15, R26, R27, R28, R31, R36, R41,
R42, R45, R47, R777) -/
def Obligations.RefusedAccesses : Prop :=
  ∀ (s : State) (x : BusAcc), sysClocked s.dev = true → (Instr.fabricAccess x).wf = true → x.bar = 0 → x.addr < 2 ^ 53 →
    (x.poison = true → x.master ≠ 0x10 ∧ x.master ≠ 0x11) →
    let a := x.addr % 2 ^ 40
    let refused := fun cause => Completes (.fabricAccess x) s (BusErrored cause x.master x.write x.addr x.bytes s.dev)
    let waits := accessWaits s.dev a x.bytes x.write = true ∨ heldBefore s.dev x.master a s.dev.boot.held.length = true
    (x.master = 0x11 → 2 ^ 40 ≤ x.addr → refused 1) ∧
    (x.master ≠ 0x11 → localOf s.dev x.addr = none → x.addr / 2 ^ 52 = 1 → hasRoute s.dev (x.addr / 2 ^ 40 % 4096) = false → refused 6) ∧
    ((x.master = 0x11 → x.addr < 2 ^ 40) → localOf s.dev x.addr = some a → region a ≠ .pcieOut →
      (waits → Completes (.fabricAccess x) s (fun d => Touches (fun _ => False) s.dev d ∧
        d.boot.held = s.dev.boot.held ++ [⟨x.master, x.addr, x.write, x.bytes, x.data, x.poison, none⟩])) ∧
      (¬ waits →
        (region a = .reserved → refused 1) ∧
        (region a = .regs → regListed a = false → refused 1) ∧
        (region a = .rom ∨ region a = .scoreWin ∨ (∃ k, region a = .calRow k) → x.write = true → refused 8) ∧
        ((region a = .regs ∧ regListed a = true) ∨ region a = .arbSram ∨ region a = .mezz ∨ region a = .sync ∨ (∃ k, region a = .tile k) ∨
            (region a = .dram ∧ dramTop s.dev ≠ 0) ∨ (∃ k, region a = .array k) ∨ (∃ k, region a = .psec k) →
          domServes s.dev (domOf a) = false → refused 2) ∧
        (region a = .dram → dramTop s.dev = 0 ∨ (domServes s.dev 3 = true ∧ dramTop s.dev ≤ a % 2 ^ 36) → refused 5) ∧
        (region a = .dram → region (a + x.bytes - 1) = .dram → domServes s.dev 3 = true → a % 2 ^ 36 < dramTop s.dev →
          dramTop s.dev ≤ (a + x.bytes - 1) % 2 ^ 36 → refused 5) ∧
        (∀ k, region a = .array k → domServes s.dev (32 + k) = true → mainBlocks s.dev ≤ arrOff a / 0x400000 → refused 5) ∧
        (region a = .regs → regListed a = true → accessCause s.dev a x.bytes x.write = none → regsNatural a x.bytes = false → refused 4)))

/-- REGISTER_WRITE stores each field by its access code, lock and range, and touches no other register. A write to a register at its own
address completes; each field without a command of its own stores or keeps its bits by its access code (RO and RC keep, RW stores a value
in range, RWL stores only while its lock is open, RW1C clears the bits written 1, W1S sets them), and nothing but that register, the
interrupt registers and no byte of memory changes. Registers with one more rule of their own (CPU_ENTRY, PMU_RESUME, INTG_SCRUB_EN,
LE_NVME_CFG, TL_RT_COL, TL_RT_ROW) and the windows of a selected store are left out. (R9, R12, R13, R14) -/
def Obligations.RegisterWriteByAccessCode : Prop :=
  ∀ (s : State) (a v : Nat) (r : RegAt) (f : FldDesc),
    sysClocked s.dev = true → a < 2 ^ 40 → v < 2 ^ 64 → regFind a = some r → r.reg.addr = a → f ∈ r.desc.flds →
    fldActs r.desc.base f.fld = false → regIgnores s.dev r.desc.base r.i = false →
    r.desc.base ∉ [Reg.INTG_LOG_STAT.addr, Reg.INTG_LOG_ENT.addr, Reg.INTG_LAP_TMO.addr, Reg.CPU_ENTRY.addr, Reg.PMU_RESUME.addr,
      Reg.INTG_SCRUB_EN.addr, Reg.LE_NVME_CFG.addr,
      (Reg.TL_RT_COL 0).addr, (Reg.TL_RT_ROW 0).addr] →
    Completes (.registerWrite a v) s (fun d =>
      let old := gf s.dev r.reg f.fld
      let x := v % 2 ^ r.desc.width / 2 ^ f.fld.lo % 2 ^ f.fld.len
      (f.acc = .ro ∨ f.acc = .rc → gf d r.reg f.fld = old) ∧
      (f.acc = .rw → gf d r.reg f.fld = if fldTakes r.desc.base f.fld x then x else old) ∧
      (f.acc = .rwl → gf d r.reg f.fld = if regLocked s.dev r.desc.base = false ∧ fldTakes r.desc.base f.fld x then x else old) ∧
      (f.acc = .rw1c → ∀ i < f.fld.len, (gf d r.reg f.fld).testBit i = (old.testBit i && !x.testBit i)) ∧
      (f.acc = .w1s → ∀ i, (gf d r.reg f.fld).testBit i = (old.testBit i || x.testBit i)) ∧
      Touches (fun b => b = a) s.dev d)

/-- FABRIC_ACCESS of a memory reads its bytes or stores exactly the bytes written. For every well-formed access at a local address of main
memory, the arbiter's SRAM, the mezzanine store or a tile store, that no bus error refuses and nothing holds, whose granules carry no
poison mark and no symbol error: a read completes, gives its master the bytes that stand there, and changes nothing; a write of a master
with no flip armed completes, tells its master, stores exactly its bytes (every other byte reads as before), leaves the granules it lies
in without symbol error and marked where the data came poisoned, and changes no register. (R23, R31, R38, R39, R44, R532, R539) -/
def Obligations.MemoryReadsAndWrites : Prop :=
  ∀ (s : State) (x : BusAcc), sysClocked s.dev = true → (Instr.fabricAccess x).wf = true → x.bar = 0 → x.addr < 2 ^ 40 → x.upset = [] →
    (region x.addr = .dram ∨ region x.addr = .arbSram ∨ region x.addr = .mezz ∨ ∃ k, region x.addr = .tile k) →
    accessWaits s.dev x.addr x.bytes x.write = false → heldBefore s.dev x.master x.addr s.dev.boot.held.length = false →
    localCause s.dev x.addr x.bytes x.write = none → Clean s.dev x.addr x.bytes →
    (x.write = false → Completes (.fabricAccess x) s (fun d =>
      d = emit (.busRead x.master ((List.range x.bytes).map (fun i => byteAt s.dev.mem (x.addr + i)))) s.dev)) ∧
    (x.write = true → (x.poison = true → x.master ≠ 0x10 ∧ x.master ≠ 0x11) → gb s.dev Reg.INTG_FLIP F.INTG_FLIP_ARM = false →
      Completes (.fabricAccess x) s (fun d =>
        d.out = s.dev.out ++ [.busWrote x.master] ∧ Stored x.addr x.data x.poison s.dev d ∧ ∀ r, rd d r = rd s.dev r))

/-- HELD_ACCESS_RELEASE, POWER_UP_ACCESS_TIMEOUT and LINK_ACCESS_TIMEOUT: how an access that waits ends. For the held access at place i that
no earlier one of its master and block precedes, made by a master of this device: while its block still turns on, a release changes
nothing; else it leaves the queue and is performed (a read of clean main memory gives its bytes); a time-out takes it out of the queue and
leaves exactly a bus error of cause TIMEOUT. A place that holds none changes nothing. For a request sent over a link whose TAG waits, with
no other waiting unsent: the TAG is free again and the master gets a bus error of cause TIMEOUT; a TAG that waits for nothing changes
nothing. (R28, R29, R30, R36, R42, R44, R652) -/
def Obligations.HeldAndLinkAccessesEnd : Prop :=
  ∀ (s : State), sysClocked s.dev = true →
    (∀ i h, heldAt s.dev i = some h → h.msg = none → h.master < 256 → h.addr < 2 ^ 53 →
      Completes (.powerUpAccessTimeout i) s (fun d => BusErrored 3 h.master h.write h.addr h.len s.dev d ∧
        d.boot.held = s.dev.boot.held.eraseIdx i) ∧
      (accessWaits s.dev (h.addr % 2 ^ 40) h.len h.write = true → Completes (.heldAccessRelease i) s (fun d => d = s.dev)) ∧
      (h.write = false → accessWaits s.dev (h.addr % 2 ^ 40) h.len false = false → region (h.addr % 2 ^ 40) = .dram →
        localCause s.dev (h.addr % 2 ^ 40) h.len false = none → Clean s.dev (h.addr % 2 ^ 40) h.len →
        Completes (.heldAccessRelease i) s (fun d =>
          d.out = s.dev.out ++ [.busRead h.master ((List.range h.len).map (fun k => byteAt s.dev.mem (h.addr % 2 ^ 40 + k)))] ∧
          d.boot.held = s.dev.boot.held.eraseIdx i ∧ Touches (fun _ => False) s.dev d))) ∧
    (∀ i, heldAt s.dev i = none → Completes (.heldAccessRelease i) s (fun d => d = s.dev) ∧
      Completes (.powerUpAccessTimeout i) s (fun d => d = s.dev)) ∧
    (∀ tag q m w off n, tag < 65536 → mget s.dev.links.reqs tag = some q → q.kind = .access m w off n → m < 256 →
      q.msg.dst < 4096 → q.msg.addr + 64 < 2 ^ 40 → off < 32 → (∀ p ∈ s.dev.links.reqs, p.2.sent = true) →
      Completes (.linkAccessTimeout tag) s (fun d => mget d.links.reqs tag = none ∧
        BusErrored 3 m w (2 ^ 52 + q.msg.dst * 2 ^ 40 + q.msg.addr + (if w then 0 else off)) n s.dev d)) ∧
    (∀ tag, tag < 65536 → mget s.dev.links.reqs tag = none → Completes (.linkAccessTimeout tag) s (fun d => d = s.dev))

/-- SYS_NODE_LOCK sets LOCK, keeps DEV_ID and fills every routing entry from the torus. While LOCK is 0 and TL_TORUS holds 1 to 64 rows and
columns, SYS_NODE_LOCK completes: LOCK reads 1 and DEV_ID as before; the column entry for t is TL1 when (t - c) mod COLS is at most COLS /
2 and TL3 otherwise, the row entry TL2 or TL0 by (t - r) mod ROWS, and the entries at and past COLS and ROWS are invalid; no other
register and no byte of memory changes. With LOCK set already it changes nothing. (R642) -/
def Obligations.NodeLockFillsTheRoutes : Prop :=
  ∀ s : State, sysClocked s.dev = true →
    (nodeLocked s.dev = true → Completes .sysNodeLock s (fun d => d = s.dev)) ∧
    (nodeLocked s.dev = false → 1 ≤ torusRows s.dev → torusRows s.dev ≤ 64 → 1 ≤ torusCols s.dev → torusCols s.dev ≤ 64 →
      let r := devId s.dev / 64 % 64
      let c := devId s.dev % 64
      Completes .sysNodeLock s (fun d =>
        nodeLocked d = true ∧ devId d = devId s.dev ∧
        (∀ t < 64, rtEntry d false t = if t < torusCols s.dev then
            some (if (t + torusCols s.dev - c % torusCols s.dev) % torusCols s.dev ≤ torusCols s.dev / 2 then 1 else 3) else none) ∧
        (∀ t < 64, rtEntry d true t = if t < torusRows s.dev then
            some (if (t + torusRows s.dev - r % torusRows s.dev) % torusRows s.dev ≤ torusRows s.dev / 2 then 2 else 0) else none) ∧
        Touches (fun a => a = Reg.SYS_NODE.addr ∨ (∃ j < 8, a = (Reg.TL_RT_COL j).addr ∨ a = (Reg.TL_RT_ROW j).addr)) s.dev d))

/-- IMG_LOAD_GO, IMG_PASS1_READ_DONE, IMG_SIGNATURE_DONE, IMG_PASS2_DONE, IMG_SOURCE_FAULT, IMG_LOAD_ABORT and IMG_QUEUED_START. With PD_SYS
clocked, no train-run and no boot activation waiting. GO starts pass 1 on IMG_SRC and IMG_SRC_LEN, and sets REFUSED while a load or
activation runs. The end of pass 1 keeps the digest, header and signature it read, or ends the load with the first failing header check.
The end of signature verification ends it with 0x07 or 0x08, or starts pass 2 with the standby slot LOADING. The end of pass 2 leaves the
standby slot VALID with code 0, or INVALID with a code other than 0. A source fault and an abort end the load with their code. Ending
writes BUSY and PASS 0, CODE and IMG_ERR_OFF and raises IMG_LOAD_DONE (81). A queued IMG_LOAD starts once neither runs. Rows without a
load change nothing. (R73, R74, R75, R77, R78, R81, R105, R602, R817, R818) -/
def Obligations.ImageLoadsRunAndEnd : Prop :=
  ∀ (s : State), sysClocked s.dev = true → s.dev.train = none → s.dev.boot.auto = false →
    let d0 := s.dev
    let st := Reg.IMG_LOAD_STAT.addr
    let ended := fun (d : Dev) => d.img.load = none ∧ gb d Reg.IMG_LOAD_STAT F.IMG_LOAD_STAT_BUSY = false ∧
      gf d Reg.IMG_LOAD_STAT F.IMG_LOAD_STAT_PASS = 0 ∧ icPending d 81 = true
    let failed := fun (pass code off : Nat) (d : Dev) => ended d ∧ gf d Reg.IMG_LOAD_STAT F.IMG_LOAD_STAT_CODE = code ∧
      gf d Reg.IMG_ERR_OFF F.IMG_ERR_OFF_OFFSET = off ∧ (pass = 2 → slotState d (standbySlot d0) = 4) ∧
      Touches (fun a => a = st ∨ a = Reg.IMG_ERR_OFF.addr ∨ (pass = 2 ∧ a = Reg.IMG_SLOT_STAT.addr)) d0 d
    (imgBusy d0 = false → Completes .imgLoadGo s (fun d =>
      d.img.load = some { pass := 1, src := gf d0 Reg.IMG_SRC F.IMG_SRC_ADDR, len := (rd d0 Reg.IMG_SRC_LEN).toNat } ∧
      gb d Reg.IMG_LOAD_STAT F.IMG_LOAD_STAT_BUSY = true ∧ gf d Reg.IMG_LOAD_STAT F.IMG_LOAD_STAT_PASS = 1 ∧ Touches (fun a => a = st) d0 d)) ∧
    (imgBusy d0 = true → Completes .imgLoadGo s (fun d =>
      gb d Reg.IMG_LOAD_STAT F.IMG_LOAD_STAT_REFUSED = true ∧ d.img = d0.img ∧ Touches (fun a => a = st) d0 d)) ∧
    (∀ l m, d0.img.load = some l → l.pass = 1 → l.digest = [] → l.cmd = none → imgSource l d0 = ((m, none), d0) → l.len ≤ 0x1000000 →
      Completes .imgPass1ReadDone s (fun d => match hdrCheck d0 l.len m with
        | some e => failed 1 e.1 e.2 d
        | none => d.img = { d0.img with load := some { l with
            digest := sha512 (m.take (l.len - 132)), head := m.take 0x100, sig := m.drop (l.len - 132) } } ∧ Touches (fun _ => False) d0 d)) ∧
    (∀ l, d0.img.load = some l → l.pass = 1 → l.digest ≠ [] → l.cmd = none → 132 ≤ l.len → l.len ≤ 0x1000000 →
      Completes .imgSignatureDone s (fun d =>
        if ecdsaOk ((l.head.drop 0x60).take 133) l.digest l.sig = false then failed 1 7 (l.len - 132) d
        else if epochOk d0 (fieldAt l.head 8 4) = false then failed 1 8 8 d
        else d.img = { d0.img with load := some { l with pass := 2 } } ∧ slotState d (standbySlot d0) = 1 ∧
          gf d Reg.IMG_LOAD_STAT F.IMG_LOAD_STAT_PASS = 2 ∧ Touches (fun a => a = st ∨ a = Reg.IMG_SLOT_STAT.addr) d0 d)) ∧
    (∀ l m tr, d0.img.load = some l → l.pass = 2 → l.cmd = none → imgSource l d0 = ((m, none), d0) →
      Completes (.imgPass2Done tr) s (fun d => ended d ∧
        (slotState d (standbySlot d0) = 2 ∧ gf d Reg.IMG_LOAD_STAT F.IMG_LOAD_STAT_CODE = 0 ∨
          slotState d (standbySlot d0) = 4 ∧ gf d Reg.IMG_LOAD_STAT F.IMG_LOAD_STAT_CODE ≠ 0))) ∧
    (∀ l m tr e, d0.img.load = some l → l.pass = 2 → l.cmd = none → imgSource l d0 = ((m, none), d0) → dirCheck l.len m = some e →
      e.1 < 256 → e.2 < 2 ^ 32 → Completes (.imgPass2Done tr) s (failed 2 e.1 e.2)) ∧
    (∀ l off, d0.img.load = some l → l.cmd = none → off < 2 ^ 32 → Completes (.imgSourceFault 0x18 off) s (fun d => ended d ∧
      gf d Reg.IMG_LOAD_STAT F.IMG_LOAD_STAT_CODE = 0x18 ∧ gf d Reg.IMG_ERR_OFF F.IMG_ERR_OFF_OFFSET = off ∧
      gb d Reg.SYS_BERR_STAT F.SYS_BERR_STAT_VALID = true)) ∧
    (∀ l, d0.img.load = some l → l.cmd = none → Completes .imgLoadAbort s (failed l.pass 0x1C 0)) ∧
    (d0.img.load = none → Completes .imgLoadAbort s (fun d => d = d0) ∧ Completes .imgPass1ReadDone s (fun d => d = d0) ∧
      Completes .imgSignatureDone s (fun d => d = d0)) ∧
    (∀ h src len q, d0.img.queue = .load h src len :: q → imgBusy d0 = false → src < 2 ^ 53 → len < 2 ^ 32 → Completes .imgQueuedStart s (fun d =>
      d.img.queue = q ∧ d.img.load = some { pass := 1, src := src, len := len, cmd := some h } ∧
      gb d Reg.IMG_LOAD_STAT F.IMG_LOAD_STAT_BUSY = true ∧ gf d Reg.IMG_SRC F.IMG_SRC_ADDR = src ∧
      Touches (fun a => a = st ∨ a = Reg.IMG_SRC.addr ∨ a = Reg.IMG_SRC_LEN.addr) d0 d)) ∧
    (imgBusy d0 = true → Completes .imgQueuedStart s (fun d => d = d0))

/-- IMG_ACT_GO, ACT_DRAIN_DONE, ACT_CONST_COPY_DONE, ACT_BARRIER_RELEASE and ACT_TIMEOUT: the phases of an activation and its switch. With
PD_SYS clocked and no train-run. GO with a standby slot that is not VALID ends 0x20, with an epoch below the floor 0x21; else with no
batch barrier it starts phase 1 and waits while batches run; while a load or activation runs it sets REFUSED. The end of the drain does
nothing while work remains, and with none starts the copy of an image's CONST data as phase 2. An image without CONST data switches at
once, as does an activation whose copy has ended with no barrier and one whose own barrier has released; the switch makes the standby slot
ACTIVE, the old one VALID, copies its digest to IMG_DIGEST_ACT, and ends with code 0. A time-out before the copy ends it with 0x22. Each
end writes BUSY and PHASE 0 and raises IMG_ACT_DONE (82). Rows whose phase is not the activation's change nothing. (R85, R86, R87, R89,
R90, R91, R102, R817, R818, R819) -/
def Obligations.ActivationsRunAndEnd : Prop :=
  ∀ (s : State), sysClocked s.dev = true → s.dev.train = none →
    let d0 := s.dev
    let st := Reg.IMG_ACT_STAT.addr
    let sb := standbySlot d0
    let ended := fun (code : Nat) (d : Dev) => d.img.act = none ∧ gb d Reg.IMG_ACT_STAT F.IMG_ACT_STAT_BUSY = false ∧
      gf d Reg.IMG_ACT_STAT F.IMG_ACT_STAT_PHASE = 0 ∧ gf d Reg.IMG_ACT_STAT F.IMG_ACT_STAT_CODE = code ∧ icPending d 82 = true
    let switched := fun (d : Dev) => ended 0 d ∧ d.img.running = true ∧ slotState d sb = 3 ∧
      gf d Reg.IMG_SLOT_STAT F.IMG_SLOT_STAT_ACTIVE = sb ∧ (∀ o, activeSlot d0 = some o → slotState d o = 2) ∧
      (∀ i < 8, rd d (Reg.IMG_DIGEST_ACT i) = rd d0 (digestReg sb i)) ∧
      gf d Reg.IMG_FP_SEQ F.IMG_FP_SEQ_SEQ = (gf d0 Reg.IMG_FP_SEQ F.IMG_FP_SEQ_SEQ + 1) % 2 ^ 32 ∧ d.mem = d0.mem
    let plain := fun (a : ActRun) => a.cmd = none ∧ a.castle = none
    let barrierOff := gb d0 Reg.IMG_ACT_CTL F.IMG_ACT_CTL_BARRIER_EN = false
    (imgBusy d0 = true → Completes .imgActGo s (fun d =>
      gb d Reg.IMG_ACT_STAT F.IMG_ACT_STAT_REFUSED = true ∧ d.img = d0.img ∧ Touches (fun a => a = st) d0 d)) ∧
    (imgBusy d0 = false → slotState d0 sb ≠ 2 → Completes .imgActGo s (fun d => ended 0x20 d ∧ Touches (fun a => a = st) d0 d)) ∧
    (imgBusy d0 = false → slotState d0 sb = 2 → slotEpoch d0 sb < gf d0 Reg.IMG_EPOCH_MIN F.IMG_EPOCH_MIN_FLOOR →
      Completes .imgActGo s (fun d => ended 0x21 d ∧ Touches (fun a => a = st) d0 d)) ∧
    (imgBusy d0 = false → barrierOff → slotState d0 sb = 2 → gf d0 Reg.IMG_EPOCH_MIN F.IMG_EPOCH_MIN_FLOOR ≤ slotEpoch d0 sb →
      ((activeSlot d0).isSome → activeEpoch d0 < slotEpoch d0 sb) → anyBatch d0 = true → Completes .imgActGo s (fun d =>
        d.img = { d0.img with act := some { phase := 1 } } ∧ gb d Reg.IMG_ACT_STAT F.IMG_ACT_STAT_BUSY = true ∧
        gf d Reg.IMG_ACT_STAT F.IMG_ACT_STAT_PHASE = 1 ∧ Touches (fun a => a = st) d0 d)) ∧
    (∀ a, d0.img.act = some a → a.phase = 1 → anyBatch d0 = true → Completes .actDrainDone s (fun d => d = d0)) ∧
    (∀ a, d0.img.act = some a → a.phase = 1 → anyBatch d0 = false → d0.tm = {} → (slotCfg d0 sb).consts ≠ [] →
      Completes .actDrainDone s (fun d => d.img = { d0.img with act := some { a with phase := 2 } } ∧
        gf d Reg.IMG_ACT_STAT F.IMG_ACT_STAT_PHASE = 2 ∧ Touches (fun a => a = st) d0 d)) ∧
    (∀ a, d0.img.act = some a → plain a → a.phase = 1 → a.barrier = none → anyBatch d0 = false → d0.tm = {} → (slotCfg d0 sb).consts = [] →
      cfgSync (slotCfg d0 sb) = [] → Completes .actDrainDone s switched) ∧
    (∀ a, d0.img.act = some a → plain a → a.phase = 2 → a.barrier = none → (slotCfg d0 sb).consts = [] → cfgSync (slotCfg d0 sb) = [] →
      Completes .actConstCopyDone s switched) ∧
    (∀ a o g, d0.img.act = some a → plain a → a.phase = 3 → a.barrier = some o → a.gen = some g → objLocal d0 o = true →
      Clean d0 (objAddr (objNum o)) 16 → (objPeek d0 (objNum o)).type = 2 → cfgSync (slotCfg d0 sb) = [] →
      ((objPeek d0 (objNum o)).gen = g → Completes .actBarrierRelease s (fun d => d = d0)) ∧
      ((objPeek d0 (objNum o)).gen ≠ g → Completes .actBarrierRelease s switched)) ∧
    (∀ a, d0.img.act = some a → plain a → a.phase < 3 → a.constDone = false → Completes .actTimeout s (fun d =>
      ended 0x22 d ∧ Touches (fun a => a = st) d0 d)) ∧
    (d0.img.act = none → ∀ c, c = .actDrainDone ∨ c = .actConstCopyDone ∨ c = .actBarrierRelease ∨ c = .actTimeout →
      Completes c s (fun d => d = d0))

/-- ENG_DRAIN, ENG_DRAINED, ENG_DRAIN_SLOW, ENG_ENABLE, ENG_KILL, ENG_FAIL_DECLARE, ENG_FAULT, FIRE_HANG and ENG_CNT_CLR: the states of an
engine. With PD_SYS clocked and engine k's domain on. Clearing EN drains an IDLE or RUNNING engine and leaves another's state; a draining
engine with nothing in flight is DRAINED and raises its event; one that drains too long raises ENG_DRAIN_SLOW, once. Setting EN returns a
DRAINING, DRAINED or KILLED engine to RUNNING while an image is active, to IDLE otherwise, and leaves a FAILED one. With no FIFO bound, no
placement and no stage of its own, KILL enters KILLED unless the engine has FAILED; a declaration, a fault with cause 2 to 5 and a firing
that hangs enter FAILED with their cause and raise ENG_FAULT, and a FAILED engine stays as it is. CNT_CLR reads the six counters 0. Each
touches only ENG_CTL, ENG_STAT or the counters of its engine. (R147, R148, R149, R150, R152, R154, R155, R156, R164, R168) -/
def Obligations.EngineStates : Prop :=
  ∀ (s : State) (k : Nat), sysClocked s.dev = true → k < 16 → engOff s.dev k = false →
    let d0 := s.dev
    let ctl := (Reg.ENG_CTL k).addr
    let stat := (Reg.ENG_STAT k).addr
    let on := fun d => gb d (Reg.ENG_CTL k) F.ENG_CTL_EN
    let only := Touches (fun a => a = ctl ∨ a = stat) d0
    let alone := d0.fifos = [] ∧ d0.tm = {}
    let failed := fun (cause : Nat) (d : Dev) => engState d k = 6 ∧ gf d (Reg.ENG_STAT k) F.ENG_STAT_FAULT = cause ∧
      icPending d (srcEng 3 k) = true ∧ only d
    (engState d0 k = 1 ∨ engState d0 k = 2 → Completes (.engDrain k) s (fun d => on d = false ∧ engState d k = 3 ∧ only d)) ∧
    (engState d0 k ≠ 1 → engState d0 k ≠ 2 → Completes (.engDrain k) s (fun d =>
      on d = false ∧ engState d k = engState d0 k ∧ Touches (fun a => a = ctl) d0 d)) ∧
    (engState d0 k = 3 → engIdle d0 k = true → Completes (.engDrained k) s (fun d =>
      icPending d (srcEng 0 k) = true ∧ (pmuBusy d0 = false → engState d k = 4) ∧ only d)) ∧
    (engState d0 k ≠ 3 ∨ engIdle d0 k = false → Completes (.engDrained k) s (fun d => d = d0)) ∧
    (engState d0 k = 3 → mhas d0.engs.slow k = false → Completes (.engDrainSlow k) s (fun d =>
      icPending d (srcEng 1 k) = true ∧ mhas d.engs.slow k = true ∧ (pmuBusy d0 = false → engState d k = 3) ∧ Touches (fun _ => False) d0 d)) ∧
    (engState d0 k ≠ 3 ∨ mhas d0.engs.slow k = true → Completes (.engDrainSlow k) s (fun d => d = d0)) ∧
    (3 ≤ engState d0 k → engState d0 k ≤ 5 → Completes (.engEnable k) s (fun d =>
      on d = true ∧ engState d k = engRun d0 ∧ only d)) ∧
    (engState d0 k < 3 ∨ engState d0 k = 6 → Completes (.engEnable k) s (fun d =>
      on d = true ∧ engState d k = engState d0 k ∧ Touches (fun a => a = ctl) d0 d)) ∧
    (alone → engStages d0 k = [] → Completes (.engKill k) s (fun d =>
      engState d k = (if engState d0 k = 6 then 6 else 5) ∧ Touches (fun a => a = stat) d0 d)) ∧
    (alone → pmuBusy d0 = false → engState d0 k ≠ 6 → Completes (.engFailDeclare k) s (failed 6) ∧
      (∀ cause, 1 < cause → cause < 6 → Completes (.engFault k cause) s (failed cause)) ∧
      ((∃ p ∈ engStages d0 k, (stageRt d0 (stKey p.1 p.2.id)).firings ≠ []) → Completes (.fireHang k) s (failed 1))) ∧
    (engState d0 k = 6 → Completes (.engFailDeclare k) s (fun d => d = d0) ∧
      (∀ cause, 1 < cause → cause < 6 → Completes (.engFault k cause) s (fun d => d = d0)) ∧ Completes (.fireHang k) s (fun d => d = d0)) ∧
    Completes (.engCntClr k) s (fun d =>
      (∀ r ∈ [Reg.ENG_FIRE_CNT k, Reg.ENG_MX_BUSY k, Reg.ENG_STALL_WS k, Reg.ENG_STALL_IN k, Reg.ENG_STALL_CRED k, Reg.ENG_STALL_WAIT k],
        rd d r = 0) ∧ d.engs = d0.engs ∧
      Touches (fun a => ∃ r ∈ [Reg.ENG_FIRE_CNT k, Reg.ENG_MX_BUSY k, Reg.ENG_STALL_WS k, Reg.ENG_STALL_IN k, Reg.ENG_STALL_CRED k,
        Reg.ENG_STALL_WAIT k], a = r.addr) d0 d)

/-- STAGE_FIRE, FIRING_END, STAGE_BATCH_END, STAGE_SIGNAL_ISSUE and ENG_WAIT_TIMEOUT: a stage's firings, batches and signals. For stage st of
bank k on its engine h. A stage alone on h, ready and with no wait to meet, fires: its loop counters advance, a firing with the items it
takes and its position joins its firings and waits for its tiles, OUT_CRED credits of each credit-mode port are reserved, h counts one
firing. With no stage STAGE_FIRE adds its stalled cycles. An oldest firing that owes nothing ends: its reserved credits return and, if its
pass ended inside the batch, signals come due. With no firing left and every port ended, the batch ends: counters 0, next batch, signals
due. Due signals are issued once writes are done: a local one is performed. A wait not met beyond the time-out is logged once in
ENG_WAIT_STAT and raised. (R106, R107, R109, R111, R119, R120, R122, R123, R143, R145, R146, R168) -/
def Obligations.StagesFireAndEnd : Prop :=
  ∀ (s : State) (k id : Nat) (st : Stg), sysClocked s.dev = true → k < 16 → id < 512 → stageOf s.dev k id = some st → Rising s.dev.fifos →
    let d0 := s.dev
    let key := stKey k id
    let rt := stageRt d0 key
    let h := hostOf d0 k id
    let cred := fun (d : Dev) (p : Nat) => ((routeBySrc d (epMk 0 k p)).bind (mget d.fifos)).map Fifo.cred
    (∀ ins, h < 16 → engStages d0 h = [(k, st)] → fireReady d0 h k st = some ins → (rt.inPass = true ∨ ∀ w ∈ st.waits, w.cond = 0) →
      wsSeq st (stageQz d0 k st) rt.loops ≠ [] → rt.ws = [] → rt.au = [] → Completes (.stageFire h 0 0 0 0) s (fun d =>
        (stageRt d key).loops = posAdd st.loop rt.loops 1 ∧
        (∃ f, (stageRt d key).firings = rt.firings ++ [f] ∧ f.ins = ins ∧ f.pos = rt.loops ∧ f.ready = false) ∧
        (∀ p ∈ outPorts st, ∀ r x, routeBySrc d0 (epMk 0 k p) = some r → mget d0.fifos r = some x → x.stall = false →
          cred d p = some (x.cred - st.outCred.getD p 0)) ∧
        mget d.engs.last h = some (stageOrd (k, st)) ∧
        (rd d (Reg.ENG_FIRE_CNT h)).toNat = min ((rd d0 (Reg.ENG_FIRE_CNT h)).toNat + 1) (2 ^ 64 - 1) ∧ d.mem = d0.mem)) ∧
    (∀ e a b c, e < 16 → engStages d0 e = [] → Completes (.stageFire e 0 a b c) s (fun d =>
      let add := fun (r : Reg) (n : Nat) => (rd d r).toNat = min ((rd d0 r).toNat + n) (2 ^ 64 - 1)
      add (Reg.ENG_STALL_IN e) a ∧ add (Reg.ENG_STALL_CRED e) b ∧ add (Reg.ENG_STALL_WAIT e) c ∧
      Touches (fun x => x = (Reg.ENG_STALL_IN e).addr ∨ x = (Reg.ENG_STALL_CRED e).addr ∨ x = (Reg.ENG_STALL_WAIT e).addr) d0 d)) ∧
    (∀ f, rt.firings.head? = some f → f.ready = true → f.owed = [] → (f.resv.map Prod.fst).Nodup → (∀ q ∈ f.resv, q.1 < 8) →
      Completes (.firingEnd k id) s (fun d => (stageRt d key).firings = rt.firings.tail ∧
        (stageRt d key).sigDue = rt.sigDue + bit (f.passEnd && !f.last) ∧
        (∀ q ∈ f.resv, ∀ c, cred d0 q.1 = some c → cred d q.1 = some (c + q.2)) ∧ Touches (fun _ => False) d0 d)) ∧
    (rt.firings = [] → (inPorts st = [] → rt.done = true) →
      (∀ p ∈ inPorts st, ∃ v, portView d0 k p = some v ∧ portEnded v.2.1 = true ∧ v.2.1.mark = none) →
      Completes (.stageBatchEnd k id) s (fun d => (stageRt d key).loops = [0, 0, 0, 0] ∧ (stageRt d key).cur = rt.cur + 1 ∧
        (stageRt d key).inPass = false ∧ (stageRt d key).waits = 0 ∧ (stageRt d key).sigDue = rt.sigDue + 1 ∧
        (st.passEob = false → st.qz = 0xFF → (∀ x ∈ rt.loops, x = 0) → Touches (fun _ => False) d0 d))) ∧
    (0 < rt.sigDue → rt.writes = [] → d0.tm.held = [] →
      (∀ p ∈ outPorts st, ∀ r x, routeBySrc d0 (epMk 0 k p) = some r → mget d0.fifos r = some x → x.backlog = []) →
      let d1 := stageUpd key (fun rt => { rt with sigDue := rt.sigDue - 1 }) d0
      ((∀ g ∈ st.sigs, g.op = 0) → Completes (.stageSignalIssue k id) s (fun d => d = d1)) ∧
      (∀ g g2, st.sigs = [g, g2] → g.op ≠ 0 → g2.op = 0 → objLocal d0 g.obj = true → Completes (.stageSignalIssue k id) s (fun d =>
        d = syncOp (0x30 + h) (objNum g.obj) g.op (if g.op = 4 then 1 else g.arg) d1))) ∧
    (∀ w, w < 2 → h < 16 → (fireReady d0 h k st).isSome = true → fireWaits h key st d0 = (false, d0) →
      (st.waits.getD w ⟨0, 0, 0⟩).cond ≠ 0 → rt.waits.testBit w = false → (w = 1 → (st.waits.getD 0 ⟨0, 0, 0⟩).cond = 0 ∨ rt.waits.testBit 0 = true) →
      (rt.waits.testBit (2 + w) = false → Completes (.engWaitTimeout k id w) s (fun d =>
        icPending d (srcEng 2 h) = true ∧ gb d (Reg.ENG_WAIT_STAT h) F.ENG_WAIT_STAT_VALID = true ∧
        (gb d0 (Reg.ENG_WAIT_STAT h) F.ENG_WAIT_STAT_VALID = false → gf d (Reg.ENG_WAIT_STAT h) F.ENG_WAIT_STAT_WAIT = w ∧
          gf d (Reg.ENG_WAIT_STAT h) F.ENG_WAIT_STAT_STAGE = id) ∧
        (gb d0 (Reg.ENG_WAIT_STAT h) F.ENG_WAIT_STAT_VALID = true → gb d (Reg.ENG_WAIT_STAT h) F.ENG_WAIT_STAT_OVER = true) ∧
        (stageRt d key).waits.testBit (2 + w) = true ∧ Touches (fun a => a = (Reg.ENG_WAIT_STAT h).addr) d0 d)) ∧
      (rt.waits.testBit (2 + w) = true → Completes (.engWaitTimeout k id w) s (fun d => d = d0)))

/-- WS_FETCH, AU_FETCH, AU_WRITE and FETCH_ARRIVAL: run-ahead tiles and writes of a stage. For stage st of bank k on its engine h. If it is
the stage's turn, tiles are free, and the pages of its next weight tile can be read and lie in h's own stack, the tile joins its run-ahead
tiles and the turn goes on; otherwise, not its turn, nothing happens. If the access unit may fetch and a tile is free, one more
access-unit tile with the data read now joins. A pending write to clean main memory stores its bytes and leaves the list. An access-unit
tile on its way arrives; a weight tile in clean DRAM arrives with the bytes that stand there. With no firing that waits, an arrival
changes nothing else of the stage's firings. (R22, R126, R127, R129, R130, R131, R139, R276, R286, R447) -/
def Obligations.StageTilesAreFetched : Prop :=
  ∀ (s : State) (k id : Nat) (st : Stg), sysClocked s.dev = true → k < 16 → id < 512 → stageOf s.dev k id = some st →
    let d0 := s.dev
    let key := stKey k id
    let rt := stageRt d0 key
    let h := hostOf d0 k id
    let t0 := wsTile d0 k st rt 0
    ((wsPick d0 h).map (fun p => (p.1, p.2.id)) = some (k, id) → auWaits d0 h = false → 0 < tilesFree d0 h → wsBad d0 (wsPages d0 k st t0) = none →
      (∀ p ∈ wsPages d0 k st t0, p.1 = h ∧ rising d0 (32 + p.1) = false) → Completes (.wsFetch k id) s (fun d =>
        (stageRt d key).ws = rt.ws ++ [t0] ∧ (stageRt d key).firings = rt.firings ∧ mget d.engs.wsPipe h = some st.pipe ∧
        mget d.engs.wsStage (64 * h + st.pipe) = some (stageOrd (k, st)) ∧ d.mem = d0.mem ∧
        (wsPages d0 k st t0 = [] → Touches (fun _ => False) d0 d))) ∧
    ((wsPick d0 h).map (fun p => (p.1, p.2.id)) ≠ some (k, id) → Completes (.wsFetch k id) s (fun d => d = d0)) ∧
    (auMay d0 h k st = true → 0 < tilesFree d0 h → Completes (.auFetch k id) s (fun d =>
      ∃ t, (stageRt d key).au = rt.au ++ [t] ∧ t.ag ∈ auList st ∧ t.len = (agAt st t.ag).len ∧ t.here = false)) ∧
    (auMay d0 h k st = false ∨ tilesFree d0 h = 0 → Completes (.auFetch k id) s (fun d => d = d0)) ∧
    (∀ w rest, rt.writes = w :: rest → w.obj = none → w.off < 2 ^ 40 → region w.off = .dram → d0.train = none →
      accessCause d0 w.off w.bytes.length true = none → Clean d0 w.off w.bytes.length →
      gb d0 Reg.INTG_FLIP F.INTG_FLIP_ARM = false → Completes (.auWrite k id) s (fun d =>
        (stageRt d key).writes = rest ∧ Stored w.off w.bytes w.poison d0 d ∧ ∀ r, rd d r = rd d0 r)) ∧
    (rt.writes = [] → Completes (.auWrite k id) s (fun d => d = d0)) ∧
    (firingNow rt = none → ∀ stalled,
      (∀ i t, rt.au[i]? = some t → t.here = false → (∀ j u, j < i → rt.au[j]? = some u → u.here = true) →
        Completes (.fetchArrival k id false stalled) s (fun d =>
          (stageRt d key).au = rt.au.set i { t with here := true } ∧ (stageRt d key).firings = rt.firings ∧ Touches (fun _ => False) d0 d)) ∧
      (∀ i t l, rt.ws[i]? = some t → t.here = false → t.data = [] → (∀ j u, j < i → rt.ws[j]? = some u → u.here = true) →
        wsPages d0 k st t = [] → wsAddrs d0 k st t = l.map some → l ≠ [] → (∀ a ∈ l, region a = .dram ∧ Clean d0 a 32) →
        Completes (.fetchArrival k id true stalled) s (fun d =>
          (stageRt d key).ws = rt.ws.set i { t with
            here := true, adr := [], bad := List.replicate l.length false,
            data := l.flatMap (fun a => (List.range 32).map (fun j => byteAt d0.mem (a + j))) } ∧
          (stageRt d key).firings = rt.firings ∧ Touches (fun _ => False) d0 d)))

/-- START, ADMIT_BATCH and BATCH_COMPLETE: a batch from its command to its completion. A START whose checks all hold waits at its ring in
order, with WAIT_ADMIT set unless its pipeline admits now; one that fails a check moves the ring past it and completes with the code of
the first failing check. A waiting START whose pipeline admits and that none read before it on the same pipeline waits for, is admitted:
the ring's head passes it, it waits no more, and a batch with the pipeline's next number, its sequence count, session, model slot and
FAST_TIME is last in the context table; one whose checks fail by then completes with the code; otherwise nothing changes. A pipeline's
only batch, ended, clean and bound to no model slot, completes with status 0, its flags, number, side, exit length and admission time, and
leaves; one not ended changes nothing. (R113, R114, R115, R117, R123, R416, R596, R599, R602, R605) -/
def Obligations.BatchesAreAdmittedAndComplete : Prop :=
  ∀ (s : State), sysClocked s.dev = true → s.dev.train = none →
    let d0 := s.dev
    (∀ (h0 : CmdHdr) (p : StartP), WellFormed.okHdr h0 = true → WellFormed.okStart p = true →
      let h := { withOp 0x01 h0 with pipe := p.pipe }
      let stat := Reg.RING_STAT h0.ring
      (startCheck d0 h p = 0 → Completes (.start h0 p) s (fun d =>
        mget d.rings.waiting h.ring = some (h, p) ∧ d.rings.order = d0.rings.order.filter (fun r => r != h.ring) ++ [h.ring] ∧
        mgetD d.rings.outst h.ring 0 = mgetD d0.rings.outst h.ring 0 + 1 ∧
        gb d stat F.RING_STAT_WAIT_ADMIT = (!(canAdmit d0 p.pipe) || gb d0 stat F.RING_STAT_WAIT_ADMIT) ∧
        Touches (fun a => a = stat.addr) d0 d)) ∧
      (startCheck d0 h p ≠ 0 → startCheck d0 h p ≠ 0xC7 → RingReady d0 h.ring → mgetD d0.rings.held h.ring [] = [] →
        Completes (.start h0 p) s (fun d => CplWritten ⟨h, startCheck d0 h p, 0, 0, 0, false⟩ (headPast h d0) d))) ∧
    (∀ n h p, n < 16 → mget d0.rings.waiting n = some (h, p) →
      (startCheck d0 h p = 0 → canAdmit d0 p.pipe = true → startBehind d0 n p.pipe = false →
        (∀ b ∈ (pipeSt d0 p.pipe).batches, b.seq ≠ (pipeSt d0 p.pipe).nextSeq) → Completes (.admitBatch (some n)) s (fun d =>
        mget d.rings.waiting n = none ∧ (pipeSt d p.pipe).nextSeq = ((pipeSt d0 p.pipe).nextSeq + 1) % 65536 ∧
        (pipeSt d p.pipe).nextFlow = (pipeSt d0 p.pipe).nextFlow + 1 ∧
        ∃ b, (pipeSt d p.pipe).batches = (pipeSt d0 p.pipe).batches ++ [b] ∧ b.seq = (pipeSt d0 p.pipe).nextSeq ∧ b.seqs = p.seqs ∧
          b.session = p.session ∧ b.time = fastTime d0 ∧ b.src = .start h ∧ b.slot = (pipeSlot d0 p.pipe).getD 0xFF ∧
          b.ended = false ∧ b.exit = 0)) ∧
      (startCheck d0 h p = 0 → canAdmit d0 p.pipe = false ∨ startBehind d0 n p.pipe = true → Completes (.admitBatch (some n)) s (fun d => d = d0)) ∧
      (startCheck d0 h p ≠ 0 → startCheck d0 h p ≠ 0xC7 → h.ring = n → RingReady d0 n → mgetD d0.rings.held n [] = [] →
        Completes (.admitBatch (some n)) s (fun d => mget d.rings.waiting n = none ∧
          (∃ e, e = headPast h (sf (Reg.RING_STAT n) F.RING_STAT_WAIT_ADMIT 0 d0) ∧ CplWritten ⟨h, startCheck d0 h p, 0, 0, 0, false⟩ e d)))) ∧
    (∀ n, n < 16 → mget d0.rings.waiting n = none → Completes (.admitBatch (some n)) s (fun d => d = d0)) ∧
    Completes (.admitBatch none) s (fun d => d = d0) ∧
    (∀ p b h, p < 64 → d0.engs.qz = [] → (pipeSt d0 p).batches = [b] → b.held = false →
      (b.ended = true → b.poisoned = false → b.resigned = false → b.exitOver = false → 64 ≤ b.slot → adapterGone d0 b = false →
        b.src = .start h → h.ring < 16 → RingReady d0 h.ring → mgetD d0.rings.held h.ring [] = [] → Completes (.batchComplete p) s (fun d =>
          CplWritten ⟨h, 0, b.flags, b.seq + 65536 * b.side + 2 ^ 32 * b.exit, b.time, false⟩ d0 d ∧ (pipeSt d p).batches = [])) ∧
      (b.ended = false → Completes (.batchComplete p) s (fun d => d = d0)))

/-- FIFO_ITEM_PRESENT, CREDIT_GRANT, MARK, REWIND, RELEASE, STARVED, FC_PIN_HOLD_EXPIRY and FIFO_WM_WRITE: what a stream FIFO does. For a
bound FIFO and one of its destinations x. A released item without error is shown to an engine port; COMPLETE takes it into its batch's
exit data; one not released is not shown. Freed slots become credits of the producer. MARK of a marking route reads the next shown item
and keeps its slot, REWIND shows the items from the mark again, RELEASE drops the mark and frees the slots up to the item read last, each
as two cycles later credits. A wait on an empty head sets STARVED and raises its event, once a wait. A pin falls after its hold with no
route above its mark. A watermark pair with LOW below HIGH and HIGH at most the depth is taken, another sets WM_REJ and is not. (R174,
R175, R183, R184, R185, R186, R192, R201, R202, R204) -/
def Obligations.StreamFifosMoveItems : Prop :=
  ∀ (s : State) (id : Nat) (f : Fifo), sysClocked s.dev = true → id < 1024 → mget s.dev.fifos id = some f →
    let d0 := s.dev
    let stat := Reg.FIFO_STAT id
    (∀ k x, k < 16 → mget f.dsts k = some x →
      let dst := fun (d : Dev) => (mget d.fifos id).bind (fun f => mget f.dsts k)
      (∀ it : Item, x.pres < f.rel → f.items[x.pres - f.base]? = some it → it.err = [] → it.data.length = 32 → it.poison = false →
        let it0 : Item := { data := it.data, fin := it.fin, empty := it.empty, poison := false }
        let shown := setFifo id { f with dsts := mput f.dsts k { x with pres := x.pres + 1, shown := x.shown ++ [it0], starved := false } } d0
        (epKind f.dst = 1 → Completes (.fifoItemPresent id k []) s (fun d => d = shown)) ∧
        (epKind f.dst = 7 → Completes (.fifoItemPresent id k []) s (fun d => d = exitItem (epPort f.dst) it0 (fifoRead id k 1 shown)))) ∧
      (f.rel ≤ x.pres → epKind f.dst = 1 ∨ epKind f.dst = 7 → Completes (.fifoItemPresent id k []) s (fun d => d = d0)) ∧
      (∀ i rest, f.markEn = true → x.shown = i :: rest → Completes (.fifoMark id k) s (fun d =>
        dst d = some { x with
          mark := some x.rp, rew := 0, hi := x.rp + 1, lead := some i, shown := rest, rp := x.rp + 1, last := x.rp + 1, atEnd := i.fin,
          freed := if x.mark.isNone then x.freed else max x.freed x.rp })) ∧
      (f.markEn = false ∨ x.shown = [] → Completes (.fifoMark id k) s (fun d => d = d0)) ∧
      (∀ m, x.mark = some m → Completes (.fifoRewind id k) s (fun d =>
          d = setDst id k { x with rp := m, pres := m, shown := [], lead := none, atEnd := false, rew := x.rew + 1 } d0) ∧
        Completes (.fifoRelease id k) s (fun d =>
          (dst d).map (fun y => (y.mark, y.rew, y.freed, y.rp)) = some (none, 0, max x.freed x.last, max x.rp x.last) ∧
          (f.dsts = [(k, x)] → f.stall = false → f.base ≤ x.freed → x.freed ≤ fifoEnd f → x.last ≤ fifoEnd f →
            (mget d.fifos id).map (fun y => (y.base, y.transit)) = some (max x.freed x.last, f.transit + (max x.freed x.last - f.base))))) ∧
      (x.mark = none → Completes (.fifoRewind id k) s (fun d => d = d0) ∧ Completes (.fifoRelease id k) s (fun d => d = d0))) ∧
    (∀ n, n < 513 → f.backlog = [] → epKind f.src ≠ 4 → Completes (.fifoCreditGrant id n) s (fun d =>
      d = setFifo id { f with cred := f.cred + min n f.transit, transit := f.transit - min n f.transit } d0)) ∧
    ((∃ p ∈ f.dsts, fifoWaits d0 id p.1 f p.2 = true ∧ p.2.starved = false) → Completes (.fifoStarved id) s (fun d =>
      gb d stat F.FIFO_STAT_STARVED = true ∧ icPending d 86 = true ∧ Touches (fun a => a = stat.addr) d0 d)) ∧
    ((∀ p ∈ f.dsts, fifoWaits d0 id p.1 f p.2 = true → p.2.starved = true) → Completes (.fifoStarved id) s (Touches (fun _ => False) d0)) ∧
    (∀ p, 0 < p → p < 9 →
      (pinOr d0 p = false → d0.pinForce = false → Completes (.fcPinHoldExpiry p) s (fun d =>
        gf d Reg.FIFO_PIN_STAT ⟨p - 1, 1⟩ = 0 ∧ Touches (fun a => a = Reg.FIFO_PIN_STAT.addr) d0 d)) ∧
      (pinOr d0 p = true ∨ d0.pinForce = true → Completes (.fcPinHoldExpiry p) s (fun d => d = d0))) ∧
    (∀ hi lo, hi < 1024 → lo < 1024 →
      (lo < hi → hi ≤ fifoDepth f → Completes (.fifoWmWrite id (hi * 65536 + lo)) s (fun d =>
        gf d (Reg.FIFO_WM id) F.FIFO_WM_WM_HIGH = hi ∧ gf d (Reg.FIFO_WM id) F.FIFO_WM_WM_LOW = lo ∧
        Touches (fun a => a = (Reg.FIFO_WM id).addr) d0 d)) ∧
      (hi ≤ lo ∨ fifoDepth f < hi → Completes (.fifoWmWrite id (hi * 65536 + lo)) s (fun d =>
        gb d stat F.FIFO_STAT_WM_REJ = true ∧ Touches (fun a => a = stat.addr) d0 d)))

/-- QZ_SAT_WINDOW_END, QZ_SCALE_CALIBRATE, ARB_RELOCATION and SHARD_MIGRATION: windows of an entry, and stages and shards of a lost engine. A
window of an entry that is not full is not evaluated. A full one starts again; if its clip fraction is above SAT_THRESH, SAT is set and
raised, and an entry of MODE 2 falls back. A write to QZ_SCALE of a valid record to a VALID entry with a record of its own is taken, for
its next row; another sets SCALE_REJ. A FAILED engine that has not been relocated yet is recorded in ARB_HEALTH, and its stages go to
their hosts, with code 0, or, where there is no placement, their pipelines become unavailable, with code 0xA4. A shard of a lost engine
that waits to migrate is taken off the count and reported. (R157, R160, R162, R258, R259, R261, R262, R263, R564) -/
def Obligations.QuantiserWindowsAndRelocation : Prop :=
  ∀ (s : State), sysClocked s.dev = true →
    let d0 := s.dev
    (∀ k n c, k < 16 → n < 64 → qzOf d0 k n = some c →
      let q := qzRt d0 k n
      let st := Reg.QZ_STAT k n
      (q.rows < c.window → Completes (.qzSatWindowEnd k n) s (fun d => d = d0)) ∧
      (c.window ≤ q.rows → 65536 * q.clips ≤ c.thresh * q.elems → Completes (.qzSatWindowEnd k n) s (fun d =>
        qzRt d k n = { q with rows := 0, elems := 0, clips := 0, own := none } ∧ Touches (fun _ => False) d0 d)) ∧
      (c.window ≤ q.rows → c.thresh * q.elems < 65536 * q.clips → Completes (.qzSatWindowEnd k n) s (fun d =>
        qzRt d k n = { q with rows := 0, elems := 0, clips := 0, own := none } ∧ gb d st F.QZ_STAT_SAT = true ∧
        icPending d (srcEng 5 k) = true ∧ gb d st F.QZ_STAT_FALLEN = (decide (c.mode = 2) || gb d0 st F.QZ_STAT_FALLEN) ∧
        Touches (fun a => a = st.addr) d0 d)) ∧
      (∀ v, v < 2 ^ 32 → q.rows < c.window →
        (recValid v = true → gb d0 st F.QZ_STAT_VALID = true → c.out ≠ 0 → Completes (.qzScaleCalibrate k n v) s (fun d =>
          gf d (Reg.QZ_SCALE k n) F.QZ_SCALE_SCALE = v ∧ qzRt d k n = { q with cal := true } ∧
          Touches (fun a => a = (Reg.QZ_SCALE k n).addr) d0 d)) ∧
        (recValid v = false ∨ gb d0 st F.QZ_STAT_VALID = false ∨ c.out = 0 → Completes (.qzScaleCalibrate k n v) s (fun d =>
          gb d st F.QZ_STAT_SCALE_REJ = true ∧ Touches (fun a => a = st.addr) d0 d)))) ∧
    (∀ k, k < 16 →
      let lost := engState d0 k = 6 ∧ gb d0 Reg.ARB_HEALTH ⟨48 + k, 1⟩ = false
      let plan := if (engStages d0 k).all (fun p => descServed d0 p.1 p.2.id) = true then relocPlan d0 k else none
      (lost → Completes (.arbRelocation k) s (fun d => gb d Reg.ARB_HEALTH ⟨48 + k, 1⟩ = true ∧ icPending d 104 = true ∧
        (mgetD d.arb.fails k (0, 0)).1 = (mgetD d0.arb.fails k (0, 0)).1 + 1 ∧
        (plan ≠ none → gf d Reg.ARB_RECOV_STAT F.ARB_RECOV_STAT_CODE = 0 ∧ gb d (Reg.ENG_RELOC k) F.ENG_RELOC_GUEST_VALID = false) ∧
        (plan = none → gf d Reg.ARB_RECOV_STAT F.ARB_RECOV_STAT_CODE = 0xA4 ∧
          ∀ p ∈ engStages d0 k, p.2.pipe < 64 → (pipeSt d p.2.pipe).unavail = some k))) ∧
      (¬ lost → Completes (.arbRelocation k) s (fun d => d = d0))) ∧
    (∀ r m, WellFormed.okReload r = true → (sideOf d0 r.slot r.side).shards.find? (fun m => m.id == r.shard) = some m → engState d0 m.engine = 6 →
      d0.arb.moves = [] → 0 < gf d0 Reg.ARB_MIGRATE F.ARB_MIGRATE_LEFT → Completes (.shardMigration r) s (fun d =>
        gf d Reg.ARB_MIGRATE F.ARB_MIGRATE_LEFT = gf d0 Reg.ARB_MIGRATE F.ARB_MIGRATE_LEFT - 1 ∧
        gb d Reg.ARB_MIGRATE F.ARB_MIGRATE_BUSY = decide (1 < gf d0 Reg.ARB_MIGRATE F.ARB_MIGRATE_LEFT) ∧
        gf d Reg.ARB_RECOV_STAT F.ARB_RECOV_STAT_SHARD = r.shard ∧ gf d Reg.ARB_RECOV_STAT F.ARB_RECOV_STAT_SLOT = r.slot ∧
        gf d Reg.ARB_RECOV_STAT F.ARB_RECOV_STAT_CODE = 0 ∧ icPending d 104 = true)) ∧
    (∀ r, WellFormed.okReload r = true → gf d0 Reg.ARB_MIGRATE F.ARB_MIGRATE_LEFT = 0 → Completes (.shardMigration r) s (fun d => d = d0))

/-- ARY_SEQ_KEY, ARY_SEQ_TIMEOUT, ARY_STRAY_WRITE and the command words of a stack: ARY_ERASE, ARY_PROGRAM_BUFFER, ARY_STATUS and others. In a
stack whose window takes writes, with no load or background erase: the two keys advance the sequence for their master; a late one is
discarded with SEQ_ERR, and a write that is none of the window's is ignored with SEQ_ERR. The third write ends the sequence and sets MODE
0, and LAST takes the first code that applies: RANGE 1, BAD 2, RETIRED 3, PROT 4, BUSY 5, and nothing starts; while a password change is
written every other command than suspend and resume gives 5. A permitted erase takes its plane group and, with a grant free, begins: its
count rises, ERASE_OPEN is set and its OPSTAT names it; with none free it waits. A permitted 0x81 opens the empty buffer for its unit.
0x70, 0x90 and 0xE8 set MODE 1, 2 and 3. 0xB0 suspends an operation that has run 500 µs and holds the suspend of a younger one; 0xD0
cancels a held suspend; 0xF0 closes the buffer and ends an operation that has not begun with code 8, DONE and source ARY_OP_DONE. (R314,
R315, R316, R317, R318, R319, R320, R323, R326, R332, R341, R361) -/
def Obligations.WindowSequencesAct : Prop :=
  ∀ (s : State) (master k : Nat), sysClocked s.dev = true → master < 256 → k < 16 →
    let d0 := s.dev
    let a0 := aryOf d0 k
    d0.boot.held = [] → localCause d0 (arrayBase k + 0x0E2D6000) 4 true = none → localCause d0 (arrayBase k + 0x01D29000) 4 true = none →
    ArrayQuiet d0 → a0.want = [] → a0.reads = [] →
    let stat := (Reg.ARY_STAT k).addr
    let wrote := fun (d : Dev) => d.out = d0.out ++ [.busWrote master]
    let field := fun (d : Dev) (f : Fld) => gf d (Reg.ARY_STAT k) f
    let only := fun (d : Dev) => Touches (fun a => a = stat) d0 d
    (a0.seq = none → Completes (.arySeqKey master k false) s (fun d => wrote d ∧ aryOf d k = { a0 with seq := some (1, master) } ∧ Touches (fun _ => False) d0 d)) ∧
    (a0.seq = some (1, master) → a0.pb = none → Completes (.arySeqKey master k true) s (fun d =>
      wrote d ∧ aryOf d k = { a0 with seq := some (2, master) } ∧ Touches (fun _ => False) d0 d)) ∧
    (a0.seq ≠ none → Completes (.arySeqTimeout k) s (fun d => aryOf d k = { a0 with seq := none } ∧ field d F.ARY_STAT_SEQ_ERR = 1 ∧ only d)) ∧
    (a0.seq = none → Completes (.arySeqTimeout k) s (fun d => d = d0)) ∧
    (∀ off bs, off < 2 ^ 31 → a0.seq = none → a0.pb = none → localCause d0 (arrayBase k + off) bs.length true = none → bs.length ≤ 32 →
      (off = 0x0E2D6000 → leNat bs ∉ [0x4FB0, 0x2FD0, 0x6E2D]) → Completes (.aryStrayWrite master k off bs) s (fun d =>
        wrote d ∧ aryOf d k = a0 ∧ field d F.ARY_STAT_SEQ_ERR = 1 ∧ only d)) ∧
    (a0.seq = some (2, master) →
      let ended := fun (last mode : Nat) (d : Dev) => wrote d ∧ (aryOf d k).seq = none ∧ field d F.ARY_STAT_LAST = last ∧ field d F.ARY_STAT_MODE = mode
      let sector := gb d0 (Reg.ARY_CMD_ARG k) F.ARY_CMD_ARG_SPACE
      let index := gf d0 (Reg.ARY_CMD_ARG k) F.ARY_CMD_ARG_INDEX
      let page := gf d0 (Reg.ARY_CMD_ARG k) F.ARY_CMD_ARG_PAGE
      let g := if sector then 4 else index / (mainBlocks d0 / 4)
      let busy := field d0 F.ARY_STAT_PW_BUSY = 1
      let code := if sector = true ∧ (63 < index ∨ 1 < k) then 1
        else if sector = false ∧ (gf d0 (Reg.ARY_GEOM k) F.ARY_GEOM_BLOCKS ≤ index ∨ 8 ≤ page) then 1
        else if sector = false ∧ index ∈ a0.bad then 2 else if sector = false ∧ (wearOf d0 k false index).retired = true then 3
        else if regionState d0 k sector index = 1 ∨ (sector = true ∧ k = 1 ∧ 62 ≤ index) then 4
        else if mget a0.ops g ≠ none ∨ a0.pb ≠ none then 5 else 0
      (busy → ∀ c ∈ [Instr.aryErase master k, .aryProgramBuffer master k, .aryAbort master k, .aryStatus master k, .aryIdentify master k,
          .aryContinuousRead master k, .aryPasswordUnlock master k, .aryLock master k],
        Completes c s (fun d => ended 5 0 d ∧ aryOf d k = { a0 with seq := none } ∧ only d)) ∧
      (¬ busy →
        (code ≠ 0 → ∀ c ∈ [Instr.aryErase master k, .aryProgramBuffer master k],
          Completes c s (fun d => ended code 0 d ∧ aryOf d k = { a0 with seq := none } ∧ only d)) ∧
        (code = 0 → Completes (.aryProgramBuffer master k) s (fun d => ended 0 0 d ∧
          aryOf d k = { a0 with seq := none, pb := some ⟨sector, index, page, [], [], master⟩ } ∧ only d)) ∧
        (code = 0 → k ∉ d0.arys.grants → (∀ p ∈ a0.ops, p.2.wait = false) →
          let op : AryOp := { op := if sector then 3 else 1, index := index, page := 0, master := master }
          let named := fun (d : Dev) => gf d (Reg.ARY_OPSTAT k g) F.ARY_OPSTAT_OP = (if sector then 3 else 1) ∧
            gf d (Reg.ARY_OPSTAT k g) F.ARY_OPSTAT_INDEX = index ∧ gf d (Reg.ARY_OPSTAT k g) F.ARY_OPSTAT_PAGE = 0
          let w := wearOf d0 k sector index
          (d0.arys.grants.length < 8 → d0.arys.waitq = [] → w.count + 1 < 2700 → Completes (.aryErase master k) s (fun d =>
            ended 0 0 d ∧ named d ∧ d.arys.grants = d0.arys.grants ++ [k] ∧
            mget (aryOf d k).ops g = some { op with wait := false, begun := true, since := fastTime d0 } ∧
            wearOf d k sector index = { w with count := w.count + 1, eOpen := true } ∧
            Touches (fun a => a = stat ∨ a = (Reg.ARY_OPSTAT k g).addr ∨ a = (Reg.ARY_RD_STAT k).addr) d0 d)) ∧
          (8 ≤ d0.arys.grants.length → k ∉ d0.arys.waitq → Completes (.aryErase master k) s (fun d =>
            ended 0 0 d ∧ named d ∧ d.arys.waitq = d0.arys.waitq ++ [k] ∧ aryOf d k = { a0 with seq := none, ops := mput a0.ops g op } ∧
            Touches (fun a => a = stat ∨ a = (Reg.ARY_OPSTAT k g).addr) d0 d))) ∧
        (∀ c ∈ [(1, Instr.aryStatus master k), (2, .aryIdentify master k), (3, .aryContinuousRead master k)],
          Completes c.2 s (fun d => ended 0 c.1 d ∧ aryOf d k = { a0 with seq := none } ∧ only d)) ∧
        (a0.ops = [] → Completes (.aryAbort master k) s (fun d => ended 0 0 d ∧ aryOf d k = { a0 with seq := none, pb := none } ∧ only d)) ∧
        (∀ j o, j < 5 → a0.ops = [(j, o)] → o.begun = false → Completes (.aryAbort master k) s (fun d => ended 0 0 d ∧
          (aryOf d k).ops = [] ∧ (aryOf d k).pb = none ∧ k ∉ d.arys.grants ∧ k ∉ d.arys.waitq ∧ gf d (Reg.ARY_OPSTAT k j) F.ARY_OPSTAT_CODE = 8 ∧
          gb d (Reg.ARY_OPSTAT k j) F.ARY_OPSTAT_DONE = true ∧ icPending d (srcAry 0 k) = true ∧
          Touches (fun a => a = stat ∨ a = (Reg.ARY_OPSTAT k j).addr ∨ a = (Reg.ARY_RD_STAT k).addr) d0 d))) ∧
      (∀ j o, j < 5 → a0.ops = [(j, o)] →
        (o.runs = true → fastTime d0 - o.since < 19200 → Completes (.arySuspend master k) s (fun d => ended 0 0 d ∧
          (aryOf d k).ops = [(j, { o with held := true })] ∧ only d)) ∧
        (o.runs = true → 19200 ≤ fastTime d0 - o.since → Completes (.arySuspend master k) s (fun d => ended 0 0 d ∧
          (aryOf d k).ops = [(j, { o with byCmd := true })] ∧ k ∉ d.arys.grants ∧ only d)) ∧
        (o.held = true → Completes (.aryResume master k) s (fun d => ended 0 0 d ∧ (aryOf d k).ops = [(j, { o with held := false })] ∧ only d)) ∧
        (o.held = false → o.byCmd = true → o.bySlot = false → o.begun = true → k ∉ d0.arys.grants → k ∉ d0.arys.waitq →
          8 ≤ d0.arys.grants.length → Completes (.aryResume master k) s (fun d => ended 0 0 d ∧ d.arys.waitq = d0.arys.waitq ++ [k] ∧
            (aryOf d k).ops = [(j, { o with byCmd := false, wait := true })] ∧ only d))))

/-- ARY_PASSWORD_UNLOCK, ARY_LOCK, PW_TABLE_WRITE_DONE and STACK_POWER_ON: the passwords of regions and the load of a stack. At the third
write, in a stack with no password change being written: a target that R320 refuses (but for PROT) gives its code. Unlock: after eight
failures 11; an OPEN region 0; with no valid table 13; with the password that the table's CHECK answers to, 0, and the region is UNLOCKED;
otherwise 10, and PW_FAILS rises. Lock: sectors 62 and 63 of S1 4; CLR_PW of a region that is not UNLOCKED 4; a password of all zeros or
ones for an OPEN region 12; a password set or removed with no valid table 13, else 0, and PW_BUSY stands while the change is written; a
region with a password is LOCKED. The change once written is the table's next version in the next free slot, PW_BUSY clears, and the
region is LOCKED or OPEN. A stack that turns on takes its calibration row into ARY_GEOM, or, where its CRC fails, sets CAL_BAD and raises
its source; region states loaded before stay. (R303, R304, R308, R354, R355, R356, R357, R358, R361, R362, R363) -/
def Obligations.PasswordsGuardRegions : Prop :=
  ∀ (s : State) (master k : Nat), sysClocked s.dev = true → master < 256 → k < 16 →
    let d0 := s.dev
    let a0 := aryOf d0 k
    let stat := (Reg.ARY_STAT k).addr
    let field := fun (d : Dev) (f : Fld) => gf d (Reg.ARY_STAT k) f
    let regions := fun (a : Nat) => a = (Reg.ARY_REGION k).addr ∨ a = (Reg.ARY_PSEC_PROT k 0).addr ∨ a = (Reg.ARY_PSEC_PROT k 1).addr
    let sector := gb d0 (Reg.ARY_CMD_ARG k) F.ARY_CMD_ARG_SPACE
    let index := gf d0 (Reg.ARY_CMD_ARG k) F.ARY_CMD_ARG_INDEX
    let page := gf d0 (Reg.ARY_CMD_ARG k) F.ARY_CMD_ARG_PAGE
    (d0.boot.held = [] → localCause d0 (arrayBase k + 0x0E2D6000) 4 true = none → ArrayQuiet d0 → a0.seq = some (2, master) → field d0 F.ARY_STAT_PW_BUSY = 0 →
      let last := fun (v : Nat) (d : Dev) => d.out = d0.out ++ [.busWrote master] ∧ (aryOf d k).seq = none ∧ field d F.ARY_STAT_LAST = v ∧ field d F.ARY_STAT_MODE = 0
      let ended := fun (v : Nat) (d : Dev) => last v d ∧ aryOf d k = { a0 with seq := none } ∧ Touches (fun a => a = stat) d0 d
      let g := if sector then 4 else index / (mainBlocks d0 / 4)
      let code := if sector = true ∧ (63 < index ∨ 1 < k) then 1
        else if sector = false ∧ (gf d0 (Reg.ARY_GEOM k) F.ARY_GEOM_BLOCKS ≤ index ∨ 8 ≤ page) then 1
        else if sector = false ∧ index ∈ a0.bad then 2 else if sector = false ∧ (wearOf d0 k false index).retired = true then 3
        else if mget a0.ops g ≠ none ∨ a0.pb ≠ none then 5 else 0
      let st := regionState d0 k sector index
      let i := regionIdx d0 k sector index
      let pw := (rd d0 (Reg.ARY_PW k)).toNat
      let fails := field d0 F.ARY_STAT_PW_FAILS
      let becomes := fun (v : Nat) (d : Dev) => last 0 d ∧ regionState d k sector index = v ∧ Touches (fun a => a = stat ∨ regions a) d0 d
      let fits := fun (t : Nat) => (pwEntry d0 t i).getD 8 0 = 1 ∧ (pwEntry d0 t i).take 8 = pwCheck d0 k i pw
      (code ≠ 0 → Completes (.aryPasswordUnlock master k) s (ended code) ∧ Completes (.aryLock master k) s (ended code)) ∧
      (code = 0 → let c := Instr.aryPasswordUnlock master k
        (8 ≤ fails → Completes c s (ended 11)) ∧
        (fails < 8 → st = 0 → Completes c s (ended 0)) ∧
        (fails < 8 → st ≠ 0 → pwValid d0 = none → Completes c s (ended 13)) ∧
        (∀ t, fails < 8 → st ≠ 0 → pwValid d0 = some t →
          (fits t → Completes c s (becomes 2)) ∧
          (¬ fits t → fails < 7 → Completes c s (fun d => ended 10 d ∧ field d F.ARY_STAT_PW_FAILS = fails + 1)) ∧
          (¬ fits t → fails = 7 → Completes c s (fun d => last 10 d ∧ field d F.ARY_STAT_PW_FAILS = 8 ∧ icPending d (srcAry 5 k) = true)))) ∧
      (code = 0 → let c := Instr.aryLock master k
        let clr := gb d0 (Reg.ARY_CMD_ARG k) F.ARY_CMD_ARG_CLR_PW
        let own := sector = true ∧ k = 1 ∧ 62 ≤ index
        let ill := pw = 0 ∨ pw = 2 ^ 64 - 1
        let changes := fun (set : Bool) (d : Dev) => last 0 d ∧ field d F.ARY_STAT_PW_BUSY = 1 ∧
          aryOf d k = { a0 with seq := none, pwWrite := some ⟨i, set, pwCheck d0 k i pw⟩ } ∧ Touches (fun a => a = stat) d0 d
        (own → Completes c s (ended 4)) ∧ (¬ own → clr = true → st ≠ 2 → Completes c s (ended 4)) ∧
        (¬ own → clr = true → st = 2 → Completes c s (if pwValid d0 = none then ended 13 else changes false)) ∧
        (¬ own → clr = false → st = 0 → ill → Completes c s (ended 12)) ∧
        (¬ own → clr = false → st = 0 → ¬ ill → Completes c s (if pwValid d0 = none then ended 13 else changes true)) ∧
        (¬ own → clr = false → st ≠ 0 → Completes c s (becomes 1)))) ∧
    (a0.pwWrite = none → Completes (.pwTableWriteDone k) s (fun d => d = d0)) ∧
    (∀ w j x, a0.pwWrite = some w → w.region < 254 → w.check.length = 8 → pwValid d0 = some j →
      (List.range 16).find? (fun x => decide (x > j % 16) && (pwSlot d0 (j / 16 * 16 + x)).all (fun b => b == 0xFF)) = some x →
      Completes (.pwTableWriteDone k) s (fun d => let t := j / 16 * 16 + x
        pwSlot d t = pwNext (pwSlot d0 j) w ∧ (∀ b, b < pwSlotAt t ∨ pwSlotAt t + 0x1000 ≤ b → byteAt d.mem b = byteAt d0.mem b) ∧
        (aryOf d k).pwWrite = none ∧ field d F.ARY_STAT_PW_BUSY = 0 ∧
        regionState d k (decide (128 ≤ w.region)) (if 128 ≤ w.region then (w.region - 128) % 64 else w.region % 8 * 16) = bit w.set ∧
        (∀ r : Reg, r.addr ≠ stat → ¬ regions r.addr → rd d r = rd d0 r))) ∧
    (rising d0 (32 + k) = false → Completes (.stackPowerOn k) s (fun d => d = d0)) ∧
    (rising d0 (32 + k) = true → ArrayQuiet d0 → a0.prot = true → Completes (.stackPowerOn k) s (fun d =>
      let c := calRowBytes d0 k
      let geom := fun (f : Fld) => gf d (Reg.ARY_GEOM k) f
      let good := fieldAt c 0 4 = 0x5EC7CA1B ∧ fieldAt c 4 2 = 0x0100 ∧ crc32 (c.take 0xFFC) = fieldAt c 0xFFC 4
      domOn d (32 + k) = true ∧ (aryOf d k).reads = [] ∧ (aryOf d k).cur = [] ∧
      (good → geom F.ARY_GEOM_LOADED = 1 ∧ geom F.ARY_GEOM_CAL_BAD = 0 ∧ geom F.ARY_GEOM_BLOCKS = fieldAt c 8 2 % 1024) ∧
      (¬ good → geom F.ARY_GEOM_LOADED = 0 ∧ geom F.ARY_GEOM_CAL_BAD = 1 ∧ icPending d (srcAry 7 k) = true) ∧
      Touches (fun a => a = (Reg.ARY_GEOM k).addr ∨ a = Reg.PMU_DOM_STAT.addr) d0 d))

/-- ARY_BUFFER_WRITE, ARY_COMMIT, ARY_PB_TIMEOUT, ARY_SUSPEND_HELD_EXPIRY, ARY_POWER_GRANT, AUTO_SUSPEND, AUTO_RESUME, ARY_OP_DONE and
ARY_RETIRE. A write into the aperture stands in the open buffer, poisoned granules marked. The commit closes it: over an erased lower unit
an upper one ends with code 6, DONE and source ARY_OP_DONE; otherwise, with a grant free, the program of its data begins. A buffer whose
time is over ends with code 9. A held suspend whose 500 µs are over takes effect. The first stack that waits gets a free grant and its
operation runs; with eight given nothing happens. A sense that waits suspends the running operation of its group under AUTO_SUSP, counted;
at the slot's end the operation runs again, or stays suspended by command. A main erase that verifies leaves its eight units reading 0xFF
and every other byte alone, ERASE_OPEN clear, code 0 and DONE; a program that verifies into erased cells stores exactly its data; a
sector's program that fails ends with code 7, FAIL and one more failure. A retired block reads as unreadable. A stack with no such
operation does nothing. (R275, R294, R295, R297, R312, R313, R324, R326, R328, R329, R331, R339) -/
def Obligations.ProgramsAndErasesRunAndEnd : Prop :=
  ∀ (s : State) (master k g : Nat), sysClocked s.dev = true → master < 256 → k < 16 → g < 5 →
    let d0 := s.dev
    let a0 := aryOf d0 k
    let wrote := fun (d : Dev) => d.out = d0.out ++ [.busWrote master]
    let ops := fun (d : Dev) => (aryOf d k).ops
    let op := Reg.ARY_OPSTAT k
    let outcome := fun (j c : Nat) (d : Dev) => gf d (op j) F.ARY_OPSTAT_CODE = c ∧ gb d (op j) F.ARY_OPSTAT_DONE = true ∧ icPending d (srcAry 0 k) = true
    let only := fun (j : Nat) (d : Dev) => Touches (fun a => a = (op j).addr ∨ a = (Reg.ARY_RD_STAT k).addr) d0 d
    let free := k ∉ d0.arys.grants ∧ d0.arys.grants.length < 8 ∧ d0.arys.waitq = []
    let slot := fun (d : Dev) => gb d (Reg.ARY_RD_STAT k) F.ARY_RD_STAT_SUSPENDED
    (∀ o x, a0.ops = [(g, o)] → o.runs = true → x ∈ a0.want → pagePlane d0 x.page / 32 = g →
      (gb d0 (Reg.ARY_RD_CTL k) F.ARY_RD_CTL_AUTO_SUSP = true → Completes (.autoSuspend k g) s (fun d => slot d = true ∧
        ops d = [(g, { o with bySlot := true, byCmd := o.held, held := false })] ∧ k ∉ d.arys.grants ∧
        gf d (Reg.ARY_SUSP_CNT k) F.ARY_SUSP_CNT_COUNT = min (gf d0 (Reg.ARY_SUSP_CNT k) F.ARY_SUSP_CNT_COUNT + 1) 0x7FFFFFFF ∧
        Touches (fun a => a = (Reg.ARY_SUSP_CNT k).addr ∨ a = (Reg.ARY_RD_STAT k).addr) d0 d)) ∧
      (gb d0 (Reg.ARY_RD_CTL k) F.ARY_RD_CTL_AUTO_SUSP = false → Completes (.autoSuspend k g) s (fun d => d = d0))) ∧
    (a0.want = [] → a0.reads = [] → ArrayQuiet d0 → d0.boot.held = [] →
    (∀ b off bs p, a0.pb = some b → off < 2 ^ 31 → off + bs.length ≤ (if b.sector then 0x800 else 0x80000) → bs.length ≤ 32 →
      localCause d0 (arrayBase k + off) bs.length true = none → (p = true → master ≠ 0x10 ∧ master ≠ 0x11) →
      Completes (.aryBufferWrite master k off bs p) s (fun d => wrote d ∧ Touches (fun _ => False) d0 d ∧
        ∃ q : FMap Byte × FMap ErrPat, aryOf d k = { a0 with pb := some { b with data := q.1, errs := q.2 } } ∧ (∀ i, i < bs.length → mget q.1 (off + i) = some (bs.getD i 0)) ∧
          (∀ x, x < off ∨ off + bs.length ≤ x → mget q.1 x = mget b.data x) ∧ (p = true → ∀ x ∈ granRange off bs.length, mget q.2 x = some poisonPat) ∧
          (p = false → bs.length = 32 → mget q.2 (off / 32) = none) ∧ (p = false → bs.length ≠ 32 → q.2 = b.errs))) ∧
    (a0.seq = none → localCause d0 (arrayBase k + 0x0E2D6000) 4 true = none → ∀ b, a0.pb = some b →
      let j := if b.sector then 4 else b.index / (mainBlocks d0 / 4)
      let low := targetAt d0 k false b.index (b.page - 1)
      let early := b.sector = false ∧ b.page % 2 = 1 ∧ readsErased d0 low.1 low.2 = true
      b.index < 512 → b.page < 32 → j < 5 → mget a0.ops j = none → gb d0 Reg.INTG_FLIP F.INTG_FLIP_ARM = false →
      (early → Completes (.aryCommit master k) s (fun d => wrote d ∧ aryOf d k = { a0 with pb := none } ∧ outcome j 6 d ∧ only j d)) ∧
      (¬ early → free → (∀ p ∈ a0.ops, p.2.wait = false) → (∀ e ∈ b.errs, e.2 ≠ poisonPat) → Completes (.aryCommit master k) s (fun d => wrote d ∧
        (aryOf d k).pb = none ∧ d.arys.grants = d0.arys.grants ++ [k] ∧ gf d (op j) F.ARY_OPSTAT_OP = (if b.sector then 4 else 2) ∧
        gf d (op j) F.ARY_OPSTAT_INDEX = b.index ∧ gf d (op j) F.ARY_OPSTAT_PAGE = b.page ∧ mget (ops d) j = some {
          op := (if b.sector then 4 else 2), index := b.index, page := b.page, data := b.data, errs := b.errs, master := b.master,
          wait := false, begun := true, since := fastTime d0 } ∧ only j d))) ∧
    (∀ b, a0.pb = some b → let j := if b.sector then 4 else b.index / (mainBlocks d0 / 4)
      j < 5 → Completes (.aryPbTimeout k) s (fun d => aryOf d k = { a0 with pb := none } ∧ outcome j 9 d ∧ only j d)) ∧
    (a0.pb = none → Completes (.aryPbTimeout k) s (fun d => d = d0)) ∧
    (d0.arys.waitq = [] ∨ 8 ≤ d0.arys.grants.length → Completes .aryPowerGrant s (fun d => d = d0)) ∧
    (mget a0.ops g = none → Completes (.autoSuspend k g) s (fun d => d = d0) ∧ Completes (.autoResume k g) s (fun d => d = d0) ∧
      ∀ us ok, Completes (.aryOpDone k g us ok) s (fun d => d = d0)) ∧
    (∀ o, a0.ops = [(g, o)] →
      (o.held = true → o.runs = true → Completes (.arySuspendHeldExpiry k) s (fun d => ops d = [(g, { o with held := false, byCmd := true })] ∧
        k ∉ d.arys.grants ∧ Touches (fun _ => False) d0 d)) ∧
      (∀ rest, d0.arys.waitq = k :: rest → d0.arys.grants.length < 8 → o.wait = true → o.begun = true → Completes .aryPowerGrant s (fun d =>
        ops d = [(g, { o with wait := false, bySlot := false, since := fastTime d0 })] ∧ d.arys.waitq = rest ∧
        d.arys.grants = d0.arys.grants ++ [k] ∧ only g d)) ∧
      (o.runs = true → Completes (.autoSuspend k g) s (fun d => d = d0)) ∧
      (o.bySlot = true → o.wait = false → o.byCmd = false → o.begun = true → free → Completes (.autoResume k g) s (fun d =>
        ops d = [(g, { o with bySlot := false, since := fastTime d0 })] ∧ d.arys.grants = d0.arys.grants ++ [k] ∧ slot d = false ∧ only g d)) ∧
      (o.bySlot = true → o.wait = false → o.byCmd = true → Completes (.autoResume k g) s (fun d => ops d = [(g, { o with bySlot := false })] ∧
        slot d = false ∧ only g d)) ∧
      (∀ ok us, o.runs = true → o.master < 8 → us ≤ 2 * fieldAt (calRowBytes d0 k) (if o.op ≥ 3 then 0x30 else 0x28) (if o.op ≥ 3 then 2 else 4) →
        let t := targetAt d0 k (decide (o.op ≥ 3)) o.index o.page
        let ended := fun (c : Nat) (d : Dev) => ops d = [] ∧ k ∉ d.arys.grants ∧ outcome g c d
        (ok = true → o.op = 1 → g < 4 → o.index < mainBlocks d0 → Completes (.aryOpDone k g us ok) s (fun d => ended 0 d ∧
          (wearOf d k false o.index).eOpen = false ∧
          (∀ u x, u < 8 → arrayBase k + unitOff d0 o.index u ≤ x → x < arrayBase k + unitOff d0 o.index u + 0x80000 → byteAt d.mem x = 0xFF) ∧
          (∀ x, (∀ u, u < 8 → x < arrayBase k + unitOff d0 o.index u ∨ arrayBase k + unitOff d0 o.index u + 0x80000 ≤ x) →
            byteAt d.mem x = byteAt d0.mem x))) ∧
        (ok = true → o.op = 2 → g < 4 → o.index < mainBlocks d0 → Rising o.data → (∀ x ∈ o.data, x.1 < 0x80000) → o.errs = [] → readsErased d0 t.1 t.2 = true → Completes (.aryOpDone k g us ok) s (fun d =>
          ended 0 d ∧ (∀ x, byteAt d.mem x = if t.1 ≤ x ∧ x < t.1 + 0x80000 then mgetD o.data (x - t.1) 0xFF else byteAt d0.mem x) ∧
          gf d (op g) F.ARY_OPSTAT_PNE = gf d0 (op g) F.ARY_OPSTAT_PNE)) ∧
        (ok = false → o.op = 4 → g = 4 → Completes (.aryOpDone k g us ok) s (fun d => ended 7 d ∧ gb d (op g) F.ARY_OPSTAT_FAIL = true ∧
          gf d (Reg.ARY_FAIL_CNT k) F.ARY_FAIL_CNT_COUNT = min (gf d0 (Reg.ARY_FAIL_CNT k) F.ARY_FAIL_CNT_COUNT + 1) 0x7FFFFFFF ∧
          (wearOf d k true o.index).failed = true)))) ∧
    (∀ b, b < 512 → mget a0.ops (b / (mainBlocks d0 / 4)) = none → Completes (.aryRetire k b) s (fun d => unreadable d k b = true ∧
      (wearOf d k false b).retired = true ∧ ops d = a0.ops ∧ Touches (fun _ => False) d0 d)))

/-- ARRAY_WINDOW_READ, SENSE_COMPLETE and ARRAY_READ_TIMEOUT: reads of a stack's window and the senses they wait for. A read of the window in
status mode gives ARY_STAT as it reads and ends the mode; in array mode a page of an unreadable block reads as all-ones and sets
UNREADABLE_HIT; one whose page a register holds gives its clean cells' bytes; another waits, and its plane, if it has nothing else to do,
starts its sense. A sense that ends with eight good codewords takes its page into the cache register, counts one sense and the bits
corrected, keeps the largest count, and the read that waits for the page gets its bytes; a codeword that stays uncorrectable without
retries is counted in ARY_INNER_UE. A read that waited too long is cancelled: TIMED_OUT is set and its master gets a bus error of cause
TIMEOUT. With no sense in the plane, or no read of the master, nothing changes. (R274, R275, R283, R290, R293, R299, R300, R301, R332,
R333) -/
def Obligations.SensesServeReads : Prop :=
  ∀ (s : State) (master k off n p : Nat), sysClocked s.dev = true → master < 256 → k < 16 → off < 2 ^ 31 → 0 < n → n ≤ 32 → p < 128 →
    let d0 := s.dev
    let a0 := aryOf d0 k
    let fa := arrayBase k + off
    let page := pageId d0 off
    let mode := gf d0 (Reg.ARY_STAT k) F.ARY_STAT_MODE
    let gives := fun (bs : List Byte) (d : Dev) => d.out = d0.out ++ [.busRead master bs]
    let bytes := fun (a m : Nat) => (List.range m).map (fun i => byteAt d0.mem (a + i))
    (d0.boot.held = [] → localCause d0 fa n false = none →
      (mode = 1 → Completes (.arrayWindowRead master k off n) s (fun d => gives (leBytes n ((aryStatView d0 k).toNat % 2 ^ 32)) d ∧
        gf d (Reg.ARY_STAT k) F.ARY_STAT_MODE = 0 ∧ Touches (fun a => a = (Reg.ARY_STAT k).addr) d0 d)) ∧
      (mode = 0 → unreadable d0 k (page / 256) = true → Completes (.arrayWindowRead master k off n) s (fun d => gives (List.replicate n 0xFF) d ∧
        gb d (Reg.ARY_RD_STAT k) F.ARY_RD_STAT_UNREADABLE_HIT = true ∧ Touches (fun a => a = (Reg.ARY_RD_STAT k).addr) d0 d)) ∧
      (mode = 0 → unreadable d0 k (page / 256) = false →
        (∀ r, pageHeld d0 k page = some r → r.raw = [] → Clean d0 fa n → Completes (.arrayWindowRead master k off n) s (fun d =>
          gives (bytes fa n) d ∧ Touches (fun _ => False) d0 d)) ∧
        (pageHeld d0 k page = none → a0.want = [] → a0.cur = [] → Completes (.arrayWindowRead master k off n) s (fun d => d.out = d0.out ∧
          (aryOf d k).reads = a0.reads ++ [⟨master, fa, page, n⟩] ∧ Touches (fun _ => False) d0 d ∧
          (mhas a0.dreg (pagePlane d0 page) = false → mget a0.ops (pagePlane d0 page / 32) = none →
            mget (aryOf d k).cur (pagePlane d0 page) = some ⟨2, page, 0⟩))))) ∧
    (mget a0.cur p = none → ∀ tries raw, WellFormed.okTries tries = true → WellFormed.okRaw raw = true →
      Completes (.senseComplete k p tries raw) s (fun d => d = d0)) ∧
    (∀ x, mget a0.cur p = some x → x.page < 2 ^ 17 → pagePlane d0 x.page = p → a0.want = [] → mget a0.creg p = none →
      let cnts := fun (a : Nat) => a = (Reg.ARY_SENSE_CNT k).addr ∨ a = (Reg.ARY_RETRY_CNT k).addr ∨ a = (Reg.ARY_INNER_UE k).addr
      let kept := fun (d : Dev) => mget (aryOf d k).cur p = none ∧ mget (aryOf d k).creg p = some ⟨x.page, x.ctx != 2, [], x.ctx⟩ ∧
        (rd d (Reg.ARY_SENSE_CNT k)).toNat = min ((rd d0 (Reg.ARY_SENSE_CNT k)).toNat + 1) (2 ^ 64 - 1)
      (∀ q, a0.reads = [q] → q.page = x.page → Clean d0 q.addr q.len → Completes (.senseComplete k p [List.replicate 8 (some 0)] []) s (fun d => kept d ∧
        d.out = d0.out ++ [.busRead q.master (bytes q.addr q.len)] ∧ (aryOf d k).reads = [] ∧
        Touches cnts d0 d)) ∧
      (∀ t : List (Option Nat), a0.reads = [] → t.length = 8 → WellFormed.okTries [t] = true → (∀ b ∈ t, b ≠ none) → 8 < (t.getD 0 none).getD 0 →
        (∀ b ∈ t, b.getD 0 ≤ gf d0 (Reg.ARY_CE_THRESH k) F.ARY_CE_THRESH_BITS) →
        Completes (.senseComplete k p [t] []) s (fun d => kept d ∧
          (rd d (Reg.ARY_CE_BITS k)).toNat = min ((rd d0 (Reg.ARY_CE_BITS k)).toNat + (t.map (fun b => b.getD 0)).sum) (2 ^ 64 - 1) ∧
          gf d (Reg.ARY_CW_MAX k) F.ARY_CW_MAX_BITS = (t.map (fun b => b.getD 0)).foldl max (gf d0 (Reg.ARY_CW_MAX k) F.ARY_CW_MAX_BITS) ∧
          Touches (fun a => cnts a ∨ a = (Reg.ARY_CE_BITS k).addr ∨ a = (Reg.ARY_CW_MAX k).addr) d0 d)) ∧
      (a0.reads = [] → gb d0 (Reg.ARY_RD_CTL k) F.ARY_RD_CTL_RETRY_EN = false → Completes (.senseComplete k p [none :: List.replicate 7 (some 0)] []) s (fun d => kept d ∧
        gf d (Reg.ARY_INNER_UE k) F.ARY_INNER_UE_COUNT = min (gf d0 (Reg.ARY_INNER_UE k) F.ARY_INNER_UE_COUNT + 1) 0x7FFFFFFF ∧
        Touches cnts d0 d))) ∧
    ((∀ r ∈ a0.reads, r.master ≠ master) → Completes (.arrayReadTimeout master k) s (fun d => d = d0)) ∧
    (∀ r, a0.reads = [r] → r.master = master → r.addr < 2 ^ 53 → Completes (.arrayReadTimeout master k) s (fun d => (aryOf d k).reads = [] ∧
      BusErrored 3 master false r.addr r.len (sf (Reg.ARY_RD_STAT k) F.ARY_RD_STAT_TIMED_OUT 1 d0) d))

/-- LOAD, LOAD_QUEUED_START, LE_DISABLE, LE_ENABLE and NVME_COMPLETION: a load runs, waits, is held, and takes what the controller returns. A
LOAD with a reserved flag, a side or source kind beyond 1, or an address and namespace that do not fit the kind completes with 0xC2, with
its handle in use with 0xCB. Otherwise it takes its handle: QUEUED behind another load, or while EN is 0 or the device is not in RUN; else
RUNNING, LE_STAT showing slot and side and LE_PROGRESS 0. A load that waits starts once nothing runs, EN is 1 and the device is in RUN.
Clearing EN holds the running load: what it asked of the controller is forgotten, and with no array operation of its own under way it is
ADJOURNED; setting EN lets it go on. A completion with no read outstanding changes nothing; otherwise the head doorbell is written, in
clean memory, and the read is counted off; an error status ends a load that waits for its manifest with 0x11, and data joins what has
arrived of it. (R372, R385, R402, R408, R594, R600, R606, R712, R716) -/
def Obligations.LoadsAreTakenAndHeld : Prop :=
  ∀ (s : State), sysClocked s.dev = true →
    let d0 := s.dev
    let en := gb d0 Reg.LE_CTL F.LE_CTL_EN = true
    let ctl := fun (a : Nat) => a = Reg.LE_CTL.addr
    (∀ (h : CmdHdr) (addr len slot side kind nsid : Nat), WellFormed.okHdr h = true → addr < 2 ^ 64 → len < 2 ^ 32 → slot < 256 → side < 256 →
      kind < 256 → nsid < 2 ^ 32 → RingReady d0 h.ring → mgetD d0.rings.held h.ring [] = [] →
      let H := withOp 0x10 h
      let r : LoadRun := { h := H, kind := kind, addr := addr, nsid := nsid, len := len, slot := slot, side := side }
      let bad := 7 < h.flags ∨ 1 < side ∨ 1 < kind ∨ (kind = 0 ∧ (addr % 32 ≠ 0 ∨ 2 ^ 53 ≤ addr ∨ nsid ≠ 0)) ∨ (kind = 1 ∧ nsid = 0)
      let starts := d0.le.run = none ∧ d0.le.queue = [] ∧ en ∧ pmuRun d0 = true
      let row := Instr.load h addr len slot side kind nsid
      (bad → Completes row s (fun d => CplWritten ⟨H, 0xC2, 0, 0, 0, false⟩ d0 d)) ∧
      (¬ bad → mhas d0.rings.ops h.handle = true → Completes row s (fun d => CplWritten ⟨H, 0xCB, 0, 0, 0, false⟩ d0 d)) ∧
      (¬ bad → mhas d0.rings.ops h.handle = false →
        (¬ starts → Completes row s (fun d => d.le = { d0.le with queue := d0.le.queue ++ [r] } ∧
          mget d.rings.ops h.handle = some { hdr := H, state := .queued } ∧ Touches (fun _ => False) d0 d)) ∧
        (starts → kind = 0 → slot < 64 → Completes row s (fun d => d.le = { d0.le with run := some r } ∧
          mget d.rings.ops h.handle = some { hdr := H, state := .running } ∧ gf d Reg.LE_STAT F.LE_STAT_SLOT = slot ∧
          gf d Reg.LE_STAT F.LE_STAT_SIDE = side ∧ rd d Reg.LE_PROGRESS = 0 ∧
          Touches (fun a => a = Reg.LE_STAT.addr ∨ a = Reg.LE_PROGRESS.addr) d0 d)))) ∧
    (d0.le.run ≠ none ∨ ¬ en ∨ pmuRun d0 = false ∨ d0.le.queue = [] → Completes .loadQueuedStart s (fun d => d = d0)) ∧
    (∀ r rest e, d0.le.run = none → en → pmuRun d0 = true → d0.le.queue = r :: rest → r.adj = 0 → r.kind = 0 → r.slot < 64 → r.side < 2 →
      mget d0.rings.ops r.h.handle = some e → e.hdr = r.h → Completes .loadQueuedStart s (fun d =>
        d.le = { d0.le with run := some r, queue := rest } ∧ mget d.rings.ops r.h.handle = some { e with state := .running } ∧
        gf d Reg.LE_STAT F.LE_STAT_SLOT = r.slot ∧ gf d Reg.LE_STAT F.LE_STAT_SIDE = r.side ∧ rd d Reg.LE_PROGRESS = 0 ∧
        Touches (fun a => a = Reg.LE_STAT.addr ∨ a = Reg.LE_PROGRESS.addr) d0 d)) ∧
    (d0.le.run = none → Completes .leDisable s (fun d => gb d Reg.LE_CTL F.LE_CTL_EN = false ∧ d.le = d0.le ∧ Touches ctl d0 d) ∧
      Completes .leEnable s (fun d => gb d Reg.LE_CTL F.LE_CTL_EN = true ∧ d.le = d0.le ∧ Touches ctl d0 d)) ∧
    (∀ r e, d0.le.run = some r → mget d0.rings.ops r.h.handle = some e → e.hdr = r.h → e.hdr.flags.testBit 2 = false →
      (r.adj = 0 → ownOps d0 = [] → Completes .leDisable s (fun d => gb d Reg.LE_CTL F.LE_CTL_EN = false ∧
        d.le = { d0.le with run := some { r with adj := 1 }, nvq := [], nvOld := d0.le.nvOut } ∧
        mget d.rings.ops r.h.handle = some { e with state := .adjourned } ∧ Touches ctl d0 d)) ∧
      (r.adj = 1 → r.kind = 0 → r.man = none → r.shards = [] → Completes .leEnable s (fun d => gb d Reg.LE_CTL F.LE_CTL_EN = true ∧
        d.le = { d0.le with run := some { r with adj := 0, nv := [] } } ∧
        mget d.rings.ops r.h.handle = some { e with state := .running } ∧ Touches ctl d0 d))) ∧
    (∀ status i data, status < 32768 → WellFormed.okOpt i 4096 = true →
      let row := Instr.nvmeCompletion status i data
      let q := (rd d0 Reg.LE_NVME_CQDB).toNat
      let head := (d0.le.cqHead + 1) % nvmeDepth d0
      let taken := { d0.le with cqHead := head, nvOut := d0.le.nvOut - 1, nvOld := d0.le.nvOld - 1 }
      (d0.le.nvOut = 0 → Completes row s (fun d => d = d0)) ∧
      (d0.le.nvOut ≠ 0 → d0.le.nvq = [] → q + 4 ≤ 2 ^ 40 → q % 4 = 0 → region q = .dram → accessCause d0 q 4 true = none → Clean d0 q 4 →
        gb d0 Reg.INTG_FLIP F.INTG_FLIP_ARM = false →
        (d0.le.run = none → Completes row s (fun d => Stored q (leBytes 4 head) false d0 d ∧ d.le = taken ∧ ∀ r, rd d r = rd d0 r)) ∧
        (∀ r, d0.le.run = some r → d0.le.nvOld = 0 → r.adj = 0 → r.man = none → i = none →
          (status = 0 → Completes row s (fun d => Stored q (leBytes 4 head) false d0 d ∧
            d.le = { taken with run := some { r with nv := r.nv ++ data } } ∧ ∀ r, rd d r = rd d0 r)) ∧
          (status ≠ 0 → Completes row s (fun d => ∃ e : Dev, Stored q (leBytes 4 head) false d0 e ∧ e.le = taken ∧
            (∀ r, rd e r = rd d0 r) ∧ d = loadDone 0x11 e)))))

/-- LOAD_MANIFEST_ARRIVAL, SHARD_ARRIVAL_DONE, SHARD_READBACK_DONE, LOAD_SOURCE_FAULT and LOAD_SOURCE_TIMEOUT. What the running load does not
wait for changes nothing. A manifest, from clean memory or whole from the controller, is checked in R408's order: a code ends the load
with it, and 0 plans the shards. A shard's bytes are held to its digest: another digest fails the load with 0x12, naming the shard; a good
shard for DRAM is written to its place, clean memory, and is done, one for the array keeps its bytes to be programmed. A read-back whose
digest is equal makes the shard eligible, and the load completes once every shard is; another digest places the shard again, or fails the
load with 0x13. A source that answers with a bus error fails the load with 0x0E, that error logged for master 0x20, and a source that does
not answer with 0x10; before the manifest the load then ends with that code in LE_STAT, source 89 pending, and its completion written.
(R375, R384, R391, R393, R394, R408, R409, R413) -/
def Obligations.LoadsArriveAndEnd : Prop :=
  ∀ (s : State), sysClocked s.dev = true →
    let d0 := s.dev
    let clean := fun (a n : Nat) => a + n ≤ 2 ^ 40 ∧ region a = .dram ∧ accessCause d0 a n false = none ∧ Clean d0 a n
    ((∀ r, d0.le.run = some r → r.man ≠ none ∨ r.adj ≠ 0 ∨ (r.kind = 1 ∧ r.nv.length < r.len)) →
      Completes .loadManifestArrival s (fun d => d = d0)) ∧
    (∀ r m, d0.le.run = some r → r.man = none → r.adj = 0 →
      (if r.kind = 1 then r.len ≤ r.nv.length ∧ m = r.nv.take r.len else 0 < r.len ∧ clean r.addr r.len ∧ m = rawBytes d0 r.addr r.len) →
      (manCheck d0 r m ≠ 0 → Completes .loadManifestArrival s (fun d => d = loadDone (manCheck d0 r m) d0)) ∧
      (manCheck d0 r m = 0 → Completes .loadManifestArrival s (fun d => d = loadPlan { r with nv := [] } (manParse m) d0))) ∧
    (∀ i, i < 4096 →
      ((∀ r m h, d0.le.run = some r → runShard r i = some m → mget r.shards i = some h →
        h.arrived = true ∨ h.eligible = true ∨ r.adj ≠ 0 ∨ (m.srcKind = 1 ∧ h.data.length < m.len)) →
        Completes (.shardArrivalDone i) s (fun d => d = d0)) ∧
      ((∀ r m h, d0.le.run = some r → runShard r i = some m → mget r.shards i = some h → h.done = false ∨ h.eligible = true ∨ r.adj ≠ 0) →
        Completes (.shardReadbackDone i) s (fun d => d = d0)) ∧
      (∀ r m h bs, d0.le.run = some r → runShard r i = some m → mget r.shards i = some h → r.adj = 0 → h.eligible = false → r.adapters = false →
        (h.arrived = false → 0 < m.len →
          (if m.srcKind = 1 then m.len ≤ h.data.length ∧ bs = h.data.take m.len else clean m.src m.len ∧ bs = rawBytes d0 m.src m.len) →
          let e := setRun { r with bytes := r.bytes + m.len } d0
          (sha512 bs ≠ m.digest → Completes (.shardArrivalDone i) s (fun d => d = loadFail 0x12 (some i) d0)) ∧
          (sha512 bs = m.digest →
            (h.exts.head?.filter (fun x => x.dram) = none → Completes (.shardArrivalDone i) s (fun d =>
              d = aryKick (leProgress (shardUpd i (fun h => { h with arrived := true, data := bs }) e)))) ∧
            (∀ x, h.exts.head?.filter (fun x => x.dram) = some x → extAddr x % 32 = 0 → m.len % 32 = 0 → extAddr x + m.len ≤ 2 ^ 40 →
              region (extAddr x) = .dram → accessCause d0 (extAddr x) m.len true = none → gb d0 Reg.INTG_FLIP F.INTG_FLIP_ARM = false →
              Completes (.shardArrivalDone i) s (fun d => ∃ f : Dev, Stored (extAddr x) bs false d0 f ∧ f.le = e.le ∧ (∀ r, rd f r = rd d0 r) ∧
                d = aryKick (leProgress (shardUpd i (fun h => { h with arrived := true, done := true, data := [] }) f)))))) ∧
        (h.done = true → extRead 0x20 h.exts m.len d0 = (some (bs, false), d0) →
          (sha512 bs = m.digest → Completes (.shardReadbackDone i) s (fun d =>
            d = loadSettle (leProgress (shardUpd i (fun h => { h with eligible := true }) d0)))) ∧
          (sha512 bs ≠ m.digest → Completes (.shardReadbackDone i) s (fun d => d = aryKick (placeAgain i 0x13 false true d0)))))) ∧
    (∀ i c, WellFormed.okOpt i 4096 = true → c < 16 →
      ((∀ r, d0.le.run = some r → r.reads i = false) → ∀ p, Completes (.loadSourceFault i p c) s (fun d => d = d0) ∧
        Completes (.loadSourceTimeout i) s (fun d => d = d0)) ∧
      (∀ r, d0.le.run = some r → r.reads i = true →
        (r.man ≠ none → Completes (.loadSourceTimeout i) s (fun d => d = loadFail 0x10 i d0) ∧
          ∀ j m, i = some j → runShard r j = some m → Completes (.loadSourceFault i false c) s (fun d =>
            d = loadFail 0x0E i (busError c 0x20 false m.src d0))) ∧
        (r.man = none → Completes (.loadSourceFault i false c) s (fun d => d = loadDone 0x0E (busError c 0x20 false r.addr d0))) ∧
        (r.man = none → r.shards = [] → r.objs = [] → gb d0 Reg.LE_ERR F.LE_ERR_VALID = false → RingReady d0 r.h.ring →
          mgetD d0.rings.held r.h.ring [] = [] → Completes (.loadSourceTimeout i) s (fun d => d.le.run = none ∧
            ∃ e : Dev, gf e Reg.LE_STAT F.LE_STAT_CODE = 0x10 ∧ icPending e 89 = true ∧ Touches (fun a => a = Reg.LE_STAT.addr) d0 e ∧
              CplWritten ⟨r.h, 0x10, 0, 0, 0, false⟩ e d))))

/-- CASTLE, CASTLE_BARRIER_RELEASE, CASTLE_TIMEOUT, CASTLE_HOLD_EXPIRY and ARB_SLOT_EXPIRE: a slot's sides change places. With no train-run. A
CASTLE with a reserved flag completes with 0xC2, with its handle in use with 0xCB; then in table order a slot above 63 with 0x40, a castle
of the slot under way (or an image operation, with IMAGE) with 0x41, no side that can become LIVE with 0x42, a missing engine with 0x43
and a barrier that is none with 0x44. Without image or barrier the side becomes LIVE at once, the switch count steps and the command
completes with 0; with a barrier of this device the arbiter arrives at it, and the castle waits unless that released it. A release, a
time-out or a hold's end of a castle or hold that is not there changes nothing; a released barrier lets the castle switch, a time-out
withdraws the arrival and completes the castle with 0x45. The end of a hold, by its time or by EXPIRE, drops it and the bindings to the
retiring side, and sets the slot's bit of ARB_HOLD_DONE with source 99. (R417, R420, R421, R422, R423, R428, R429, R436, R438, R439, R602) -/
def Obligations.SidesAreCastled : Prop :=
  ∀ (s : State), sysClocked s.dev = true → s.dev.train = none →
    let d0 := s.dev
    (∀ (h : CmdHdr) (n flags b : Nat), WellFormed.okHdr h = true → n < 256 → flags < 256 → b < 2 ^ 32 → RingReady d0 h.ring →
      mgetD d0.rings.held h.ring [] = [] →
      let H := withOp 0x11 h
      let row := Instr.castle h n flags b
      let ends := fun (code : Nat) => Completes row s (fun d => CplWritten ⟨H, code, 0, 0, 0, false⟩ d0 d)
      let img := flags.testBit 1 = true
      let bar := flags.testBit 2 = true
      let busy := mhas d0.slots.castles n = true ∨ (img ∧ imgBusy d0 = true)
      (7 < h.flags ∨ 7 < flags → ends 0xC2) ∧
      (h.flags ≤ 7 → flags ≤ 7 →
        (mhas d0.rings.ops h.handle = true → ends 0xCB) ∧
        (mhas d0.rings.ops h.handle = false →
          (63 < n → ends 0x40) ∧
          (n ≤ 63 → busy → ends 0x41) ∧
          (n ≤ 63 → ¬ busy →
            (castleTarget d0 n = none → ends 0x42) ∧
            (∀ x, castleTarget d0 n = some x →
              let engines := castleEngines d0 n (sideOf d0 n x).mask = true
              let none_ := bar ∧ (barrierOk d0 b = false ∨ (¬ img ∧ objLocal d0 b = false ∧ hasRoute d0 (objDev b) = false))
              let c : Castle := { h := H, flags := flags, barrier := b, side := x }
              let open_ := setCastles (mput d0.slots.castles n c) (opOpen H .running (cmdIn H d0))
              (¬ engines → ends 0x43) ∧ (engines → none_ → ends 0x44) ∧
              (engines → ¬ none_ →
                (img → (actStart none (some n) (if bar then some b else none) open_).train = none →
                  Completes row s (fun d => d = actStart none (some n) (if bar then some b else none) open_)) ∧
                (¬ img → ¬ bar → liveSide d0 n = none → (mslot d0 n).hold = none → Completes row s (fun d =>
                  (sideOf d n x).st = 3 ∧ (mslot d n).seq = ((mslot d0 n).seq + 1) % 2 ^ 32 ∧ mget d.slots.castles n = none ∧
                  ∃ e : Dev, Touches (fun a => a = Reg.IMG_FP.addr ∨ a = Reg.IMG_FP_SEQ.addr) d0 e ∧
                    CplWritten ⟨H, 0, 0, 0, 0, false⟩ e d)) ∧
                (¬ img → ¬ bar → Completes row s (fun d => d = castleDo n open_)) ∧
                (¬ img → bar → objLocal d0 b = true →
                  let a := barrierArrive 8 b (.castleArrive n) (.castleWait n) open_
                  let w := barrierWait 8 b (.castleArrive n) a.1 (setCastles (mput a.2.2.slots.castles n { c with gen := a.1, arrived := true }) a.2.2)
                  mget a.2.2.slots.castles n = some c → (castleDo n w.2).train = none → w.2.train = none →
                  Completes row s (fun d => d = if w.1 then castleDo n w.2 else w.2)))))))) ∧
    (∀ n, n < 64 →
      ((∀ c, mget d0.slots.castles n = some c → c.flags.testBit 1 = true ∨ c.arrived = false) →
        Completes (.castleBarrierRelease n) s (fun d => d = d0) ∧ Completes (.castleTimeout n) s (fun d => d = d0)) ∧
      (∀ c, mget d0.slots.castles n = some c → c.flags.testBit 1 = false → c.arrived = true →
        let w := barrierWait 8 c.barrier (.castleArrive n) c.gen d0
        ((castleDo n w.2).train = none → w.2.train = none →
          Completes (.castleBarrierRelease n) s (fun d => d = if w.1 then castleDo n w.2 else w.2)) ∧
        Completes (.castleTimeout n) s (fun d =>
          d = castleEnd n 0x45 0 0 (barrierWithdraw 8 c.barrier c.gen (.castleArrive n) (.castleWait n) d0))) ∧
      ((mslot d0 n).hold = none → Completes (.castleHoldExpiry n) s (fun d => d = d0) ∧
        (gf d0 Reg.ARB_SLOT_IDX F.ARB_SLOT_IDX_SLOT = n → Completes .arbSlotExpire s (fun d => d = d0))) ∧
      (∀ t x, (mslot d0 n).hold = some (t, x) →
        let ended := fun (d : Dev) => mslot d n = { mslot d0 n with hold := none } ∧
          (∀ k y, mget d0.slots.sessions k = some y → mget d.slots.sessions k = some (if k / 65536 = n ∧ y.side = some x then { y with side := none } else y)) ∧
          (rd d Reg.ARB_HOLD_DONE).getLsbD n = true ∧ icPending d 99 = true ∧ Touches (fun a => a = Reg.ARB_HOLD_DONE.addr) d0 d
        (aonTime d0 < t → Completes (.castleHoldExpiry n) s (fun d => d = d0)) ∧
        (0 < refBatches d0 n x →
          (t ≤ aonTime d0 → Completes (.castleHoldExpiry n) s ended) ∧
          (gf d0 Reg.ARB_SLOT_IDX F.ARB_SLOT_IDX_SLOT = n → Completes .arbSlotExpire s ended))))

/-- PATROL_LAP_START, PATROL_SHARD_CHECK, RELEASE and SESSION_CLOSE: shards are digested in laps; sides and sessions are let go. A lap starts
with PATROL_EN 1 and none running: every shard and adapter of every READY or LIVE side; otherwise nothing changes. With no lap a check
changes nothing. A shard that reads clean with its digest is passed, one with another digest is counted in LE_PATROL_CNT with source 90
pending, and the lap's last shard ends it with its duration in LE_PATROL_LAP. With no train-run, a RELEASE with a reserved flag, a handle
or a side beyond 1 completes with 0xC2, of a slot above 63 with 0x40, of a side neither READY nor LIVE with 0x47; a READY side is
released, a LIVE one retires with its bindings dropped and the fingerprint recomputed, and goes on to its release where nothing refers to
it. A SESSION_CLOSE with a handle or a reserved flag completes with 0xC2, of no session with 0xD0; a session with batches keeps the close,
one without any is closed and the command completes with 0. (R399, R400, R401, R410, R414, R431, R439, R602, R605) -/
def Obligations.PatrolLapsAndReleases : Prop :=
  ∀ (s : State), sysClocked s.dev = true →
    let d0 := s.dev
    let lapEnds := fun (l : Lap) (d : Dev) => d.le = { d0.le with lap := none } ∧
      gf d Reg.LE_PATROL_LAP F.LE_PATROL_LAP_SECONDS = (aonTime d0 - l.start) / aonHz % 2 ^ 32
    (gb d0 Reg.LE_CTL F.LE_CTL_PATROL_EN = false ∨ d0.le.lap ≠ none → Completes .patrolLapStart s (fun d => d = d0)) ∧
    (gb d0 Reg.LE_CTL F.LE_CTL_PATROL_EN = true → d0.le.lap = none → Completes .patrolLapStart s (fun d =>
      Touches (fun _ => False) d0 d ∧ ∃ l, d.le = { d0.le with lap := some ⟨aonTime d0, l⟩ } ∧ ∀ n x i (ad : Bool), (n, x, i, ad) ∈ l ↔
        n < 64 ∧ x < 2 ∧ ((sideOf d0 n x).st = 2 ∨ (sideOf d0 n x).st = 3) ∧
        (if ad then ∃ v, (i, v) ∈ (sideOf d0 n x).ads else ∃ m ∈ (sideOf d0 n x).shards, m.id = i))) ∧
    (d0.le.lap = none → Completes .patrolShardCheck s (fun d => d = d0)) ∧
    (∀ l, d0.le.lap = some l →
      (l.left = [] → Completes .patrolShardCheck s (fun d => lapEnds l d ∧ Touches (fun a => a = Reg.LE_PATROL_LAP.addr) d0 d)) ∧
      (∀ n x i rest m bs, l.left = (n, x, i, false) :: rest → (sideOf d0 n x).shards.find? (fun m => m.id == i) = some m →
        extRead 8 (shardExts d0 n x i) m.len d0 = (some (bs, false), d0) → Completes .patrolShardCheck s (fun d =>
          (rest = [] → lapEnds l d) ∧ (rest ≠ [] → d.le = { d0.le with lap := some { l with left := rest } }) ∧
          (sha512 bs ≠ m.digest → gf d Reg.LE_PATROL_CNT F.LE_PATROL_CNT_COUNT = min (gf d0 Reg.LE_PATROL_CNT F.LE_PATROL_CNT_COUNT + 1) 0x7FFFFFFF ∧
            icPending d 90 = true) ∧
          Touches (fun a => (a = Reg.LE_PATROL_LAP.addr ∧ rest = []) ∨ (a = Reg.LE_PATROL_CNT.addr ∧ sha512 bs ≠ m.digest)) d0 d))) ∧
    (∀ (h : CmdHdr), WellFormed.okHdr h = true → RingReady d0 h.ring → mgetD d0.rings.held h.ring [] = [] →
      (d0.train = none → ∀ n x, n < 256 → x < 256 →
        let H := withOp 0x12 h
        let d1 := cmdIn H d0
        let row := Instr.release h n x
        let ends := fun (code : Nat) => Completes row s (fun d => CplWritten ⟨H, code, 0, 0, 0, false⟩ d0 d)
        (7 < h.flags ∨ h.handle ≠ 0 ∨ 1 < x → ends 0xC2) ∧
        (h.flags ≤ 7 → h.handle = 0 → x ≤ 1 →
          (63 < n → ends 0x40) ∧
          (n ≤ 63 →
            ((sideOf d0 n x).st ≠ 2 → (sideOf d0 n x).st ≠ 3 → ends 0x47) ∧
            ((sideOf d0 n x).st = 2 → mget d0.slots.castles n = none → (finish H 0 0 0 (sideRelease n x d1)).train = none →
              (sideRelease n x d1).slots.castles = d1.slots.castles → Completes row s (fun d => d = finish H 0 0 0 (sideRelease n x d1))) ∧
            ((sideOf d0 n x).st = 3 → (mslot d0 n).hold = none →
              let e := sideUpd n x (fun y => { y with st := 4 }) (dropBindings n x d1)
              let f := if refCount e n x = 0 then sideRelease n x e else e
              (finish H 0 0 0 (fpRecompute f)).train = none → Completes row s (fun d => d = finish H 0 0 0 (fpRecompute f)))))) ∧
      (∀ n k, n < 256 → k < 65536 →
        let H := withOp 0x02 h
        let row := Instr.sessionClose h n k
        let ends := fun (code : Nat) => Completes row s (fun d => CplWritten ⟨H, code, 0, 0, 0, false⟩ d0 d)
        (7 < h.flags ∨ h.handle ≠ 0 → ends 0xC2) ∧
        (h.flags ≤ 7 → h.handle = 0 →
          (mget d0.slots.sessions (sessKey n k) = none → ends 0xD0) ∧
          (∀ y, mget d0.slots.sessions (sessKey n k) = some y →
            (sessBusy d0 n k = true → Completes row s (fun d => mget d.slots.sessions (sessKey n k) = some { y with close := y.close ++ [H] } ∧
              (∀ j, j ≠ sessKey n k → mget d.slots.sessions j = mget d0.slots.sessions j) ∧ Touches (fun _ => False) d0 d)) ∧
            (sessBusy d0 n k = false → y.close = [] → (sideOf d0 n 0).st ≠ 4 → (sideOf d0 n 1).st ≠ 4 → Completes row s (fun d =>
              mget d.slots.sessions (sessKey n k) = none ∧ CplWritten ⟨H, 0, 0, 0, 0, false⟩ d0 d))))))

/-- TM_PLACE, TM_FREE, TM_PROMOTE, TM_CAPTURE, TM_PIN, TM_UNPIN and TM_FLUSH: what an operation at the port answers, or starts. Through
TM_CMD, not BUSY, with no other operation at the TM and the agent not asked. With EN 0 a good operation waits, BUSY. Otherwise a
descriptor out of range is answered with 0x60, an object number above 16383 with 0x61, an object that is FREE with 0x62 (for PLACE, one
that exists with 0x63), and each operation with the codes of its own table; a PLACE that meets none of them writes the entry, PIN and
UNPIN move the count by one, and the answer is 0 with DONE set, BUSY clear, the object and its code shown, and source 92 pending. A
PROMOTE that meets none reserves its placement and runs; a FREE, a CAPTURE of a placement and a FLUSH with a dirty tile run. From a ring,
a PIN completes with its object and FRONTIER. (R451, R452, R453, R455, R456, R461, R471, R472) -/
def Obligations.TierOperationsAreAnswered : Prop :=
  ∀ (s : State) (m : Nat) (t : TmDesc), sysClocked s.dev = true → WellFormed.okTm (.port m) t = true →
    let d0 := s.dev
    d0.tm.ops = [] → gb d0 Reg.TM_CMD_STAT F.TM_CMD_STAT_BUSY = false → agentAsked d0 33 = false →
    let ends := fun (c : TmSrc → TmDesc → Instr) (code obj : Nat) (objs : FMap TmObj) => Completes (c (.port m) t) s (fun d =>
      gb d Reg.TM_CMD_STAT F.TM_CMD_STAT_BUSY = false ∧ gb d Reg.TM_CMD_STAT F.TM_CMD_STAT_DONE = true ∧
      gf d Reg.TM_CMD_STAT F.TM_CMD_STAT_OBJ = obj % 16384 ∧ gf d Reg.TM_CMD_STAT F.TM_CMD_STAT_CODE = code ∧ icPending d 92 = true ∧
      d.tm = { d0.tm with objs := objs } ∧
      Touches (fun a => a = Reg.TM_CMD_STAT.addr ∨ (a = Reg.TM_CONFLICT_CNT.addr ∧ code = 0x6B)) d0 d)
    let fails := fun (c : TmSrc → TmDesc → Instr) (code : Nat) => ends c code t.obj d0.tm.objs
    let stays := fun (c : TmSrc → TmDesc → Instr) (op : TmOp) (objs : FMap TmObj) => Completes (c (.port m) t) s (fun d =>
      gb d Reg.TM_CMD_STAT F.TM_CMD_STAT_BUSY = true ∧ d.tm = { d0.tm with objs := objs, ops := [op] } ∧
      Touches (fun a => a = Reg.TM_CMD_STAT.addr) d0 d)
    let rows : List ((TmSrc → TmDesc → Instr) × Nat) :=
      [(.tmPlace, 1), (.tmFree, 2), (.tmPromote, 3), (.tmCapture, 4), (.tmPin, 5), (.tmUnpin, 6), (.tmFlush, 7)]
    let op := fun (k : Nat) => ({ src := .port m, desc := { t with op := k } } : TmOp)
    let good := fun (k : Nat) => tmFieldBad { t with op := k } = false ∧ tmRangeBad { t with op := k } = false
    (gb d0 Reg.TM_CTL F.TM_CTL_EN = false → ∀ x ∈ rows, good x.2 → (∀ o, tmObj d0 t.obj = some o → o.pin = 0) → stays x.1 (op x.2) d0.tm.objs) ∧
    (∀ x ∈ rows, tmFieldBad { t with op := x.2 } = true → fails x.1 0x60) ∧
    (∀ x ∈ rows, tmFieldBad { t with op := x.2 } = false → tmRangeBad { t with op := x.2 } = true → fails x.1 0x61) ∧
    (gb d0 Reg.TM_CTL F.TM_CTL_EN = true →
      (∀ x ∈ rows, x.2 ≠ 1 → x.2 ≠ 3 ∨ t.flagsTier ≠ 2 ∨ gf d0 Reg.PMU_STAT F.PMU_STAT_STATE = 0 → good x.2 → tmObj d0 t.obj = none → fails x.1 0x62) ∧
      (good 1 →
        (t.obj = 0xFFFF → (∀ n, n < 16384 → tmObj d0 n ≠ none) → fails .tmPlace 0x64) ∧
        (∀ n, (if t.obj = 0xFFFF then n < 16384 ∧ tmObj d0 n = none ∧ ∀ i, i < n → tmObj d0 i ≠ none else n = t.obj) →
          let no := fun (code : Nat) => ends .tmPlace code n d0.tm.objs
          let ad := t.kindMode = 2 ∧ m ≠ 8
          let back := backBad d0 (.port m) t.backFirst t.sizeCount = true
          let taken := isT1 t.backFirst = true ∧ ∃ i, i < t.sizeCount ∧ frameUsed d0 1 0 ((t.backFirst - 0x1000000) / 16384 + i) = true
          (tmObj d0 n ≠ none → no 0x63) ∧
          (tmObj d0 n = none →
            (ad → no 0x65) ∧ (¬ ad → back → no 0x66) ∧ (¬ ad → ¬ back → taken → no 0x69) ∧
            (¬ ad → ¬ back → ¬ taken → ends .tmPlace 0 n (mput d0.tm.objs n
              { kind := t.kindMode, flags := t.flagsTier, size := t.sizeCount, back := t.backFirst, tag := t.tag }))))) ∧
      (∀ o, tmObj d0 t.obj = some o →
        let pinned := 0 < o.pin
        (good 2 →
          let ad := o.kind = 2 ∧ m ≠ 8
          (ad → fails .tmFree 0x65) ∧ (¬ ad → pinned → fails .tmFree 0x6B) ∧
          (¬ ad → ¬ pinned → stays .tmFree { op 2 with run := true, quiesce := true } (mput d0.tm.objs t.obj { o with frontier := 0 }))) ∧
        (good 4 →
          (pinned → fails .tmCapture 0x6B) ∧ (¬ pinned → o.upTier = 0 → fails .tmCapture 0) ∧
          (¬ pinned → o.upTier ≠ 0 → stays .tmCapture { op 4 with run := true, quiesce := o.frontier == 0 } d0.tm.objs)) ∧
        (good 5 →
          (o.pin = 255 → fails .tmPin 0x6D) ∧
          (o.pin ≠ 255 → ends .tmPin 0 t.obj (mput d0.tm.objs t.obj { o with pin := o.pin + 1 }) ∧
            ∀ h : CmdHdr, WellFormed.okHdr h = true → h.handle = 0 → h.flags ≤ 7 → RingReady d0 h.ring → mgetD d0.rings.held h.ring [] = [] →
              Completes (.tmPin (.ring h) t) s (fun d => tmObj d t.obj = some { o with pin := o.pin + 1 } ∧
                CplWritten ⟨h, 0, 0, t.obj + 2 ^ 32 * o.frontier, 0, false⟩ d0 d))) ∧
        (good 6 →
          (o.pin = 0 → fails .tmUnpin 0x6E) ∧ (o.pin ≠ 0 → ends .tmUnpin 0 t.obj (mput d0.tm.objs t.obj { o with pin := o.pin - 1 }))) ∧
        (good 7 →
          let dirty := ∃ i, i < o.frontier ∧ isDirty d0 o (o.upFirst + i) = true
          (¬ dirty → fails .tmFlush 0) ∧ (dirty → stays .tmFlush { op 7 with run := true } d0.tm.objs)) ∧
        (good 3 →
          let e := min (t.backFirst + t.sizeCount) o.size
          let tier := fun (d : Dev) => t.flagsTier = 2 ∧ (gf d (Reg.ENG_STAT t.engine) F.ENG_STAT_STATE = 6 ∨
            gb d (Reg.ENG_RELOC t.engine) F.ENG_RELOC_RELOCATED = true ∨ domOn d (16 + t.engine) = false)
          let bad := o.size ≤ t.backFirst ∨ (t.kindMode = 1 ∧ counterValue d0 t.counter = none)
          (t.flagsTier ≠ 2 ∨ gf d0 Reg.PMU_STAT F.PMU_STAT_STATE = 0) →
          (bad → fails .tmPromote 0x60) ∧
          (¬ bad → t.flagsTier = 1 → isT1 o.back = true → fails .tmPromote 0x67) ∧
          (¬ bad → tier d0 → fails .tmPromote 0x68) ∧
          (¬ bad → ¬ (t.flagsTier = 1 ∧ isT1 o.back = true) → ¬ tier d0 →
            (o.upTier ≠ 0 → samePlace o t = true →
              (e ≤ o.frontier + o.upFirst → fails .tmPromote 0) ∧
              (o.frontier + o.upFirst < e → stays .tmPromote { op 3 with run := true, upTo := e } d0.tm.objs)) ∧
            (o.upTier = 0 →
              (pickRun d0 t.flagsTier t.engine t.frame t.sizeCount = none → fails .tmPromote 0x69) ∧
              (∀ f, pickRun d0 t.flagsTier t.engine t.frame t.sizeCount = some f → t.kindMode = 0 →
                stays .tmPromote { op 3 with run := true, upTo := e } (mput d0.tm.objs t.obj
                  { o with
                    upTier := t.flagsTier, upEng := if t.flagsTier = 2 then t.engine else 0, upMode := 0, upFrame := f,
                    upCount := t.sizeCount, upFirst := t.backFirst, frontier := 0, ctr := t.counter, stuck := false }))) ∧
            (o.upTier ≠ 0 → samePlace o t = false → ∀ f, pickRun d0 t.flagsTier t.engine t.frame t.sizeCount = some f → t.kindMode = 0 →
              fails .tmPromote 0x6A)))))

/-- TM_TILE_COPY_DONE, TM_MAPPING_QUIESCED, TM_HOT_INTERVAL, TM_DISABLE and TM_ENABLE. A tile copy or a quiesced mapping that no running
operation on the object waits for changes nothing. The one operation at the TM, of the port, with no write held and no flip armed. A tile
of a PROMOTE, between clean tiles of memory that do not overlap, is copied to its frame, FRONTIER and TM_TILES_UP move by one, and on the
last tile the port answers 0 with source 92. A mapping quiesced after a CAPTURE takes the placement away and after a FREE the entry too,
and the port answers 0. The hot interval with HOT_EN 0 changes nothing; with nothing hot it clears the read counts; with one hot object
within the budget and not placed up it starts that object's promotion to T1. Disabling clears EN alone; enabling sets it and lets a
stopped operation go on. (R445, R448, R452, R453, R454, R463, R467, R472, R477) -/
def Obligations.TierOperationsRunAndEnd : Prop :=
  ∀ (s : State) (n m : Nat), sysClocked s.dev = true → n < 16384 →
    let d0 := s.dev
    let copies := d0.tm.ops.find? (fun p => p.run && p.desc.obj == n && !p.quiesce && !p.halt)
    let waits := d0.tm.ops.find? (fun p => p.run && p.desc.obj == n && p.quiesce)
    let answered := fun (code : Nat) (d : Dev) => d.tm.ops = [] ∧
      gb d Reg.TM_CMD_STAT F.TM_CMD_STAT_BUSY = false ∧ gb d Reg.TM_CMD_STAT F.TM_CMD_STAT_DONE = true ∧
      gf d Reg.TM_CMD_STAT F.TM_CMD_STAT_OBJ = n ∧ gf d Reg.TM_CMD_STAT F.TM_CMD_STAT_CODE = code ∧ icPending d 92 = true
    let others := fun (d : Dev) => ∀ k, k ≠ n → tmObj d k = tmObj d0 k
    let stat := fun (a : Nat) => a = Reg.TM_CMD_STAT.addr
    let ctl := fun (a : Nat) => a = Reg.TM_CTL.addr
    (copies = none ∨ tmObj d0 n = none → Completes (.tmTileCopyDone n) s (fun d => d = d0)) ∧
    (waits = none → Completes (.tmMappingQuiesced n) s (fun d => d = d0)) ∧
    (∀ (o : TmObj) (p : TmOp), tmObj d0 n = some o → d0.tm.ops = [p] → p.src = .port m → p.desc.obj = n → p.run = true → d0.tm.held = [] →
      (p.quiesce = true →
        (p.desc.op = 2 → Completes (.tmMappingQuiesced n) s (fun d => answered 0 d ∧ others d ∧ tmObj d n = none ∧ Touches stat d0 d)) ∧
        (p.desc.op = 4 → Completes (.tmMappingQuiesced n) s (fun d => answered 0 d ∧ others d ∧ Touches stat d0 d ∧
          tmObj d n = some { o with
            upTier := 0, upEng := 0, upMode := 0, upFrame := 0, upCount := 0, upFirst := 0, frontier := 0, ctr := 0, ctrLast := 0,
            stuck := false, saved := false, flags := o.flags % 4 }))) ∧
      (p.quiesce = false → p.halt = false → p.desc.op = 3 → gb d0 Reg.TM_CTL F.TM_CTL_EN = true → o.upMode ≠ 1 →
        let src := o.back + 16384 * (o.upFirst + o.frontier)
        let dst := frameAddr o.upTier o.upEng (tileFrame o (o.upFirst + o.frontier))
        let o' := { o with frontier := o.frontier + 1 }
        o.back % 16384 = 0 → accessCause d0 src 16384 false = none → accessCause d0 dst 16384 true = none →
        src + 16384 ≤ dst ∨ dst + 16384 ≤ src → Clean d0 src 16384 → gb d0 Reg.INTG_FLIP F.INTG_FLIP_ARM = false →
        Completes (.tmTileCopyDone n) s (fun d => others d ∧ tmObj d n = some o' ∧
          Stored dst ((List.range 16384).map (fun i => byteAt d0.mem (src + i))) false d0 d ∧
          (rd d Reg.TM_TILES_UP).toNat = min ((rd d0 Reg.TM_TILES_UP).toNat + 1) (2 ^ 64 - 1) ∧
          (∀ r : Reg, r.addr ≠ Reg.TM_TILES_UP.addr → r.addr ≠ Reg.TM_CMD_STAT.addr → ¬ raised r.addr → rd d r = rd d0 r) ∧
          (p.upTo ≤ o.upFirst + o.frontier + 1 → answered 0 d) ∧
          (o.upFirst + o.frontier + 1 < p.upTo → d.tm.ops = [p] ∧ rd d Reg.TM_CMD_STAT = rd d0 Reg.TM_CMD_STAT)))) ∧
    (gb d0 Reg.TM_CTL F.TM_CTL_HOT_EN = false → Completes .tmHotInterval s (fun d => d = d0)) ∧
    (gb d0 Reg.TM_CTL F.TM_CTL_HOT_EN = true →
      ((∀ x ∈ d0.tm.objs, x.2.flags < 2) → Completes .tmHotInterval s (fun d => d = setTm { d0.tm with reads := [] } d0)) ∧
      (∀ (o : TmObj) (f : Nat), d0.tm.objs = [(n, o)] → d0.tm.ops = [] → o.kind = 1 → o.flags = 2 → o.upTier = 0 → isT1 o.back = false →
        1 ≤ o.size → o.size ≤ 1024 → o.size ≤ gf d0 Reg.TM_HOT_BUDGET F.TM_HOT_BUDGET_FRAMES → gb d0 Reg.TM_CTL F.TM_CTL_EN = true →
        agentAsked d0 33 = false → pickRun d0 1 0 0xFFFF o.size = some f →
        Completes .tmHotInterval s (fun d => d = setTm { d0.tm with
          reads := [], objs := [(n, { o with upTier := 1, upEng := 0, upMode := 0, upFrame := f, upCount := o.size, upFirst := 0, frontier := 0, ctr := 0, stuck := false, flags := 6 })],
          ops := [⟨.hot, ⟨3, 0, 1, 0, n, 0, 0, o.size, 0xFFFF, 0, false⟩, true, false, false, false, o.size⟩] } d0))) ∧
    Completes .tmDisable s (fun d => gb d Reg.TM_CTL F.TM_CTL_EN = false ∧ d.tm = d0.tm ∧ Touches ctl d0 d) ∧
    ((∀ p ∈ d0.tm.ops, p.run = true) → Completes .tmEnable s (fun d => gb d Reg.TM_CTL F.TM_CTL_EN = true ∧
      d.tm = { d0.tm with ops := d0.tm.ops.map (fun o => { o with halt := false }) } ∧ Touches ctl d0 d))

/-- TRAIN, TRAIN_SETUP_DONE and TRAIN_COMMIT_DONE: a train-run is checked, opens its session, and commits its adapter. A TRAIN with a reserved
flag, or an address not aligned to 32 or beyond 2^53, completes with 0xC2; with its handle in use with 0xCB. Otherwise its descriptor, in
clean main memory, is checked in R516's order: a code is shown with source 100 pending (but of a second run) and completes the command,
and 0 opens the operation and shows the run BUSY in phase 1. The set-up ending changes nothing outside phase 1; of a side without shards
it ends the run with 0x84 where its session is known or the table is full, with 0x8D once resigned, and otherwise opens the session on the
run's side and asks for the first refresh batch. The commit ending changes nothing outside phase 4; the run ends with 0x8B with 1,024
adapters resident, with 0x8C without room, and otherwise the work object's tiles are copied to the overflow area as a new object and
attached to the side with their digest, and the run ends with 0. (R488, R492, R493, R494, R505, R506, R511, R516, R602) -/
def Obligations.TrainRunsStartAndCommit : Prop :=
  ∀ (s : State), sysClocked s.dev = true →
    let d0 := s.dev
    (∀ (h : CmdHdr) (addr : Nat), WellFormed.okHdr h = true → addr < 2 ^ 64 → RingReady d0 h.ring → mgetD d0.rings.held h.ring [] = [] →
      let H := withOp 0x30 h
      let bad := 7 < h.flags ∨ addr % 32 ≠ 0 ∨ 2 ^ 53 ≤ addr
      (bad → Completes (.train h addr) s (fun d => CplWritten ⟨H, 0xC2, 0, 0, 0, false⟩ d0 d)) ∧
      (¬ bad → addr + 96 ≤ 2 ^ 40 → region addr = .dram → accessCause d0 addr 96 false = none → Clean d0 addr 96 →
        (mhas d0.rings.ops h.handle = true → Completes (.train h addr) s (fun d => CplWritten ⟨H, 0xCB, 0, 0, 0, false⟩ d0 d)) ∧
        (mhas d0.rings.ops h.handle = false → ∀ (c : Nat) (e : Dev), trCheck (rawBytes d0 addr 96) (cmdIn H d0) = (c, e) →
          (c = 0x81 → Completes (.train h addr) s (fun d => d = finish H c 0 0 e)) ∧
          (c ≠ 0 → c ≠ 0x81 → Completes (.train h addr) s (fun d =>
            d = finish H c 0 0 (raise 100 (sf Reg.ARB_TR_STAT F.ARB_TR_STAT_CODE c e)))) ∧
          (c = 0 → Completes (.train h addr) s (fun d => ∃ slot side, pipeSlot e (fieldAt (rawBytes d0 addr 96) 0 1) = some slot ∧
            liveSide e slot = some side ∧ d = trShow (setTrain { h := H, desc := rawBytes d0 addr 96, slot := slot, side := side } (opOpen H .running e))))))) ∧
    ((∀ t, d0.train = some t → t.phase ≠ 1) → Completes .trainSetupDone s (fun d => d = d0)) ∧
    ((∀ t, d0.train = some t → t.phase ≠ 4) → Completes .trainCommitDone s (fun d => d = d0)) ∧
    (∀ t, d0.train = some t → t.phase = 1 → (sideOf d0 t.slot t.side).shards = [] →
      let k := sessKey t.slot (fieldAt t.desc 4 2)
      let known := mhas d0.slots.sessions k = true ∨ 4096 ≤ d0.slots.sessions.length
      (known → Completes .trainSetupDone s (fun d => d = trEnd 0x84 0 d0)) ∧
      (¬ known → t.resign = true → Completes .trainSetupDone s (fun d => d = trEnd 0x8D 0 d0)) ∧
      (¬ known → t.resign = false → t.out = false → t.poison = none → t.needRefresh = true → t.adjourn = false →
        Completes .trainSetupDone s (fun d => d = trAdmit (trShow (setTrain { t with built := true, phase := 2 }
          (setSessions (mput d0.slots.sessions k { side := some t.side }) d0)))))) ∧
    (∀ t, d0.train = some t → t.phase = 4 → t.slot < 64 → t.side < 2 →
      let id := fieldAt t.desc 2 2
      let x := sideOf d0 t.slot t.side
      ∀ o, tmObj d0 (descObj t.desc 3) = some o → o.upTier = 0 → o.back % 16384 = 0 → Clean d0 o.back 16384 →
        let tiles := fieldAt (rawBytes d0 o.back 16384) 0x0C 4
        mget x.ads id = none →
        (1024 ≤ residentAds d0 → Completes .trainCommitDone s (fun d => d = trEnd 0x8B 0 d0)) ∧
        (residentAds d0 < 1024 → dramFit d0 (extsNow d0) (adapterSpans d0) tiles = none →
          Completes .trainCommitDone s (fun d => d = trEnd 0x8C 0 d0)) ∧
        (residentAds d0 < 1024 → ∀ loc n, dramFit d0 (extsNow d0) (adapterSpans d0) tiles = some loc → freeObj d0 [] = some n →
          0 < tiles → Clean d0 o.back (16384 * tiles) → (rd d0 Reg.LE_DRAM_BASE).toNat % 32 = 0 → x.old = [] → d0.arb.held = [] →
          gb d0 Reg.INTG_FLIP F.INTG_FLIP_ARM = false →
          Completes .trainCommitDone s (fun d => ∃ e : Dev, Stored (dramBase + loc) (rawBytes d0 o.back (16384 * tiles)) false d0 e ∧
            tmObj e n = some { kind := 2, flags := 0, size := tiles, back := dramBase + loc } ∧
            mget (sideOf e t.slot t.side).ads id = some { obj := n, tiles := tiles, shards := [], digest := sha512 (rawBytes d0 o.back (16384 * tiles)), commit := true } ∧
            e.train = some t ∧ (∀ r, rd e r = rd d0 r) ∧ d = trEnd 0 0 e)))

/-- SCRUB_READ, INTG_SCRUB_SLOW and INTG_FLIP_ARM. A store that R520 does not mark as scrubbed, that INTG_SCRUB_EN leaves out or that has no
granules is not read; one that cannot be read now starts its lap anew, except main memory with its domain on. The next granule of a store,
with no mark, no symbol error and nothing that has struck it, is read, and the position moves on; the last one ends the lap, whose
duration in microseconds is kept, and starts the next. A slow lap of a store that is scrubbed is reported with source 110, once. A write
of INTG_FLIP stores its fields, and ARM with them unless it names a position or a store that does not exist. (R542, R544, R545, R546,
R547, R550) -/
def Obligations.GranulesAreScrubbedAndFlipped : Prop :=
  ∀ (s : State), sysClocked s.dev = true →
    let d0 := s.dev
    let same := Touches (fun _ => False) d0
    let only := fun (st : Nat) (x : IntgStore) (d : Dev) => intgOf d st = x ∧ ∀ k, k ≠ st → intgOf d k = intgOf d0 k
    (∀ st, st < 64 →
      let x := intgOf d0 st
      let reads := storeScrubbed st = true ∧ (rd d0 Reg.INTG_SCRUB_EN).getLsbD st = true ∧ storeGrans d0 st ≠ 0
      (∀ u, WellFormed.okErr u = true → (¬ reads ∨ (storeOn d0 st = false ∧ st = 0x14 ∧ domOn d0 3 = true) →
          Completes (.scrubRead st u) s (fun d => d = d0)) ∧
        (reads → storeOn d0 st = false → ¬ (st = 0x14 ∧ domOn d0 3 = true) → Completes (.scrubRead st u) s (fun d =>
          only st { x with pos := 0, lapStart := fastTime d0, slow := false } d ∧ same d))) ∧
      (reads → storeOn d0 st = true → poisoned d0 (granKey st x.pos) = false → errOf d0 (granKey st x.pos) = [] →
        (x.pos + 1 < storeGrans d0 st → Completes (.scrubRead st []) s (fun d => only st { x with begun := true, pos := x.pos + 1 } d ∧ same d)) ∧
        (storeGrans d0 st ≤ x.pos + 1 → Completes (.scrubRead st []) s (fun d =>
          only st { x with begun := true, pos := 0, lapUs := min ((fastTime d0 - x.lapStart) * 10 / 384) 0xFFFFFFFF, lapStart := fastTime d0, slow := false } d ∧ same d))) ∧
      let laps := x.slow = false ∧ storeScrubbed st = true ∧ (rd d0 Reg.INTG_SCRUB_EN).getLsbD st = true ∧ storeOn d0 st = true
      (¬ laps → Completes (.intgScrubSlow st) s (fun d => d = d0)) ∧
      (laps → Completes (.intgScrubSlow st) s (fun d => only st { x with slow := true } d ∧ icPending d 110 = true ∧ same d))) ∧
    (∀ v, v < 2 ^ 64 →
      let f := fldGet (word64 v)
      let bad := (34 < f F.INTG_FLIP_POS0 ∧ f F.INTG_FLIP_VAL0 ≠ 0) ∨ (34 < f F.INTG_FLIP_POS1 ∧ f F.INTG_FLIP_VAL1 ≠ 0) ∨
        storeKnown (f F.INTG_FLIP_STORE) = false
      Completes (.intgFlipArm v) s (fun d =>
        (∀ x ∈ [F.INTG_FLIP_POISON, F.INTG_FLIP_STORE, F.INTG_FLIP_POS0, F.INTG_FLIP_VAL0, F.INTG_FLIP_POS1, F.INTG_FLIP_VAL1],
          gf d Reg.INTG_FLIP x = f x) ∧
        gf d Reg.INTG_FLIP F.INTG_FLIP_ARM = (if f F.INTG_FLIP_ARM = 1 ∧ bad then gf d0 Reg.INTG_FLIP F.INTG_FLIP_ARM else f F.INTG_FLIP_ARM) ∧
        Touches (fun a => a = Reg.INTG_FLIP.addr) d0 d))

/-- ARB_HOLD_CLASSIFY, BATCH_REPLAY, ARB_HOLD_REPLAY and ARB_HOLD_RESIGN. An entry that holds no batch, or one that is classified or
replaying, is not classified. Otherwise the reason, its detail and the UE entry that decides it are kept and recorded at the scoresheet;
SHARD stops the slot's admissions, ADAPTER reads the adapter again and replays the batch where that succeeds, TRANSIENT replays the batch,
and DATA leaves it held. BATCH_REPLAY replays only a batch held as TRANSIENT, ARB_HOLD_CTL.REPLAY any; a batch already replaying stays as
it is. A replay counts up to 15, marks the entry, and has the batch's entry data enter the pipeline again, recorded at the scoresheet. A
resign records it and ends the batch in its place. (R508, R541, R554, R556, R557, R559, R575) -/
def Obligations.HeldBatchesAreResolved : Prop :=
  ∀ (s : State), sysClocked s.dev = true →
    let d0 := s.dev
    let batch := fun (p seq : Nat) => (pipeSt d0 p).batches.find? (fun b => b.seq == seq)
    let replayed := fun (p seq i : Nat) (e : HeldB) (b : Batch) (d : Dev) =>
      d = scoreEvent 0x0032 4 p [65536 * p + seq] (entryWrite p seq b.start (batchUpd p seq (fun b => { b with held := false })
        (setArb { d0.arb with held := mput d0.arb.held i { e with replays := min 15 (e.replays + 1), replaying := true } } d0)))
    (∀ i rs, i < 1024 → rs.all WellFormed.okReload = true →
      ((∀ e, mget d0.arb.held i = some e → batch e.pipe e.seq = none ∨ e.classified = true ∨ e.replaying = true) →
        Completes (.arbHoldClassify i rs) s (fun d => d = d0)) ∧
      (∀ e b, mget d0.arb.held i = some e → batch e.pipe e.seq = some b → e.classified = false → e.replaying = false →
        let c := heldClass d0 b e
        let f := scoreEvent 0x0030 4 e.pipe [65536 * e.pipe + e.seq, c.1, c.2.2]
          (heldSet i { e with reason := c.1, detail := c.2.1, ue := c.2.2, classified := true } d0)
        let a := adapterReload b.slot b.side c.2.1 rs f
        Completes (.arbHoldClassify i rs) s (fun d => d =
          if c.1 = 0 then mslotUpd b.slot (fun x => { x with stop := true }) f
          else if c.1 = 1 then (if a.1 then arbReplay e.pipe e.seq a.2 else a.2)
          else if c.1 = 2 then arbReplay e.pipe e.seq f else f))) ∧
    (∀ p seq, p < 64 → seq < 65536 →
      ((∀ i e, heldOf d0 p seq = some (i, e) → e.classified = false ∨ e.reason ≠ 2 ∨ e.replaying = true) →
        Completes (.batchReplay p seq) s (fun d => d = d0)) ∧
      (∀ i e b, heldOf d0 p seq = some (i, e) → e.classified = true → e.reason = 2 → e.replaying = false → batch p seq = some b →
        Completes (.batchReplay p seq) s (replayed p seq i e b))) ∧
    (∀ i, i < 1024 →
      (mget d0.arb.held i = none → Completes (.arbHoldReplay i) s (fun d => d = d0) ∧ Completes (.arbHoldResign i) s (fun d => d = d0)) ∧
      (∀ e, mget d0.arb.held i = some e →
        (∀ j f, heldOf d0 e.pipe e.seq = some (j, f) →
          (f.replaying = true → Completes (.arbHoldReplay i) s (fun d => d = d0)) ∧
          (f.replaying = false → ∀ b, batch e.pipe e.seq = some b → Completes (.arbHoldReplay i) s (replayed e.pipe e.seq j f b))) ∧
        Completes (.arbHoldResign i) s (fun d => d = heldResign e.pipe e.seq (scoreEvent 0x0035 4 e.pipe [65536 * e.pipe + e.seq] d0))))

/-- SHARD_RELOAD, the retries, STACK_DEGRADED, STACK_DEAD, ARB_BLOCK_RETIRE, ARB_CE_REPEAT_RESPONSE, ARB_WATCHDOG_EXPIRY and
POWERED_TIME_SAVE. With no batch held. A reload of an unknown shard changes nothing. One whose manifest and shard come from NVMe fails
with 0xA0 when either is not whole, 0xA1 when either has another digest, 0xA2 without a place, or the code of the copy: the slot is
unavailable with that code, sources 103 and 104 are pending and ARB_RECOV_STAT shows it; one that finds a place in DRAM, with the array
quiet, is stored there and the slot is available. A retry reloads the shard that made its slot unavailable. A stack is declared DEGRADED
only on R553's counts and DEAD only on its triggers; with no shard on it that sets its bit of ARB_HEALTH. A block that has not failed is
not retired; a repeated correctable address that the log does not show changes nothing, one in the overflow area that nothing uses is
quarantined. The watchdog shows RESTARTED; saving powered time writes it alone. (R553, R560, R561, R565, R566, R568, R569, R571, R572) -/
def Obligations.LostUnitsAreMadeGood : Prop :=
  ∀ (s : State), sysClocked s.dev = true →
    let d0 := s.dev
    let recov := fun (slot side shard code : Nat) (d : Dev) => gf d Reg.ARB_RECOV_STAT F.ARB_RECOV_STAT_SLOT = slot ∧
      gf d Reg.ARB_RECOV_STAT F.ARB_RECOV_STAT_SIDE = side ∧ gf d Reg.ARB_RECOV_STAT F.ARB_RECOV_STAT_SHARD = shard ∧
      gf d Reg.ARB_RECOV_STAT F.ARB_RECOV_STAT_CODE = code ∧ icPending d 104 = true
    (∀ r, WellFormed.okReload r = true →
      let n := r.slot
      let o := shardOwner d0 n r.side r.shard
      let x := sideOf d0 n o.1
      let m? := x.shards.find? (fun m => m.id == o.2)
      (m? = none → Completes (.shardReload r) s (fun d => d = d0)) ∧
      ((mslot d0 n).unavail = none → Completes (.reloadRetryTimer r) s (fun d => d = d0)) ∧
      (∀ c i, (mslot d0 n).unavail = some (c, i) → Completes (.reloadRetryTimer r) s (fun d =>
        d = shardReload { r with side := i / 65536, shard := i % 65536 } d0)) ∧
      (∀ m, m? = some m → x.kind ≠ 0 → m.srcKind ≠ 0 → d0.arb.held = [] →
        let place := placeShard d0 (extsNow d0) (adapterSpans d0) true n o.1 m
        let code := if r.man.length ≠ x.len then 0xA0 else if sha512 r.man ≠ x.digest then 0xA1 else if r.data.length ≠ m.len then 0xA0
          else if sha512 r.data ≠ m.digest then 0xA1 else if place = none then 0xA2 else r.fail
        (code ≠ 0 → Completes (.shardReload r) s (fun d => recov n r.side r.shard code d ∧ icPending d 103 = true ∧
          mslot d n = { mslot d0 n with unavail := some (code, 65536 * o.1 + o.2), stop := false } ∧
          Touches (fun a => a = Reg.ARB_RECOV_STAT.addr ∨ scored a) d0 d)) ∧
        (∀ e, code = 0 → place = some ([e], []) → e.dram = true → extAddr e % 32 = 0 → m.len % 32 = 0 → 0 < m.len →
          shardExts d0 n o.1 m.id = [] → ArrayQuiet d0 → gb d0 Reg.INTG_FLIP F.INTG_FLIP_ARM = false →
          Completes (.shardReload r) s (fun d => recov n r.side r.shard 0 d ∧ (mslot d n).unavail = none ∧ Stored (extAddr e) r.data false d0 d)))) ∧
    (∀ rs, rs.all WellFormed.okReload = true →
      ((∀ n, n < 64 → (mslot d0 n).unavail = none) → Completes (.recovRetryNow rs) s (fun d => d = d0)) ∧
      Completes (.recovRetryNow rs) s (fun d =>
        d = forN 64 (fun n d => reloadRetry ((rs.find? (fun r => r.slot == n)).getD { slot := n, side := 0, shard := 0 }) d) d0) ∧
      (∀ k, k < 16 →
        let recent := fun (key : Nat) => ((mgetD d0.arb.opFails key []).filter (fun t => decide (poweredTime d0 < t + 86400 * aonHz))).length
        let st := mgetD d0.arb.stackSt k 0
        (st ≠ 0 ∨ (recent k < 4 ∧ recent (16 + k) < 16) → Completes (.stackDegraded k rs) s (fun d => d = d0)) ∧
        (st = 2 ∨ stackGone d0 k = false → Completes (.stackDead k rs) s (fun d => d = d0)) ∧
        (d0.le.exts = [] →
          (st = 0 → 4 ≤ recent k ∨ 16 ≤ recent (16 + k) → Completes (.stackDegraded k rs) s (fun d => recov 0 0 0 0 d ∧
            mgetD d.arb.stackSt k 0 = 1 ∧ gb d Reg.ARB_HEALTH ⟨32 + k, 1⟩ = true ∧
            Touches (fun a => a = Reg.ARB_HEALTH.addr ∨ a = Reg.ARB_RECOV_STAT.addr ∨ scored a) d0 d)) ∧
          (st ≠ 2 → stackGone d0 k = true → Completes (.stackDead k rs) s (fun d => mgetD d.arb.stackSt k 0 = 2 ∧
            gb d Reg.ARB_HEALTH ⟨16 + k, 1⟩ = true ∧ gb d Reg.ARB_HEALTH ⟨32 + k, 1⟩ = false ∧
            Touches (fun a => a = Reg.ARB_HEALTH.addr ∨ scored a) d0 d))) ∧
        (∀ b, b < 512 →
          ((wearOf d0 k false b).failed = false → d0.arb.retire.contains (k, b) = false → Completes (.arbBlockRetire k b rs) s (fun d => d = d0)) ∧
          ((wearOf d0 k false b).failed = true → d0.le.exts = [] → (blockFailed k b d0).le.exts = [] →
            Completes (.arbBlockRetire k b rs) s (fun d => d = blockFailed k b d0)))) ∧
      (∀ st a, st < 64 → a < 2 ^ 40 →
        let shown := (intgOf d0 st).log.any (fun e => e.2.addr == a && decide (gf d0 Reg.INTG_CTL F.INTG_CTL_REPEAT ≤ e.2.hits)) = true
        let base := (rd d0 Reg.LE_DRAM_BASE).toNat
        let t := 16384 * (a / 16384)
        (¬ shown → Completes (.arbCeRepeatResponse st a rs) s (fun d => d = d0)) ∧
        (shown → isArrayStore st = false → st ≠ 0x14 → Completes (.arbCeRepeatResponse st a rs) s (fun d => d = scoreEvent 0x0040 6 st [st, a] d0)) ∧
        (shown → st = 0x14 → base ≤ t → t < base + (rd d0 Reg.LE_DRAM_SIZE).toNat → d0.arb.quar.contains t = false → d0.arb.quar.length < 256 →
          d0.le.exts = [] → (∀ o ∈ d0.tm.objs, o.2.kind ≠ 2) → Completes (.arbCeRepeatResponse st a rs) s (fun d =>
            d.arb.quar = d0.arb.quar ++ [t] ∧ gf d Reg.ARB_QUAR F.ARB_QUAR_TILES = d0.arb.quar.length + 1 ∧
            Touches (fun a => a = Reg.ARB_QUAR.addr ∨ scored a) d0 d)))) ∧
    Completes .arbWatchdogExpiry s (fun d => gb d Reg.ARB_STAT F.ARB_STAT_RESTARTED = true ∧
      Touches (fun a => a = Reg.ARB_STAT.addr ∨ scored a) d0 d) ∧
    Completes .poweredTimeSave s (fun d => d = setArb { d0.arb with powered := poweredTime d0, savedAt := aonTime d0 } d0)

/-- SCORE_RECORD_QUEUE, SCORE_POST, SCORE_FLUSH, SCORE_FLUSH_TIMEOUT, SCORE_PAGE_PROGRAMMED, SCORE_SECTOR_ERASED, SCORE_SCAN_DONE, POWER_FAIL.
A record is dropped once the writer is closed, dropped and counted in ARB_SCORE_LOST at 64, or 63 after a drop, waits during the scan, and
otherwise enters the open page under the next SEQ. A post is refused with POST_REJ at 32 records, else queued as a SOFTWARE record with
ARB_SCORE_POST's four values. A flush, or a ring page's time-out, with a record in the open page and no program running starts that page's
program outside the reserve; nothing to program changes nothing. A program's end puts the records into the page's cells and, after the
last page of a sector, starts the erase two sectors on; an erase's end leaves the sector reading 0xFF. The scan of a region with nothing
in it ends at sector 0, page 0. POWER_FAIL leaves the device in a SUPPLY reset with only PD_AON on; from VHOLD, with nothing waiting and
no array operation, its record stands in the open page's cells. (R574, R575, R576, R577, R578, R580, R581, R745) -/
def Obligations.ScoresheetIsWritten : Prop :=
  ∀ (s : State),
    let d0 := s.dev
    let sc := d0.score
    let put := fun (a : Nat) (bs : List Byte) (d : Dev) =>
      ∀ b, byteAt d.mem b = if a ≤ b ∧ b < a + bs.length then bs.getD (b - a) 0 else byteAt d0.mem b
    let next := gf d0 Reg.ARB_SCORE_SEQ F.ARB_SCORE_SEQ_NEXT
    let cell := scoreBase + 0x4000 * sc.sector + sc.pageIdx * 2048
    (sysClocked d0 = true →
      (∀ ev kind idx args, ev < 65536 → kind < 256 → idx < 256 → args.all (fun a => WellFormed.lt a (2 ^ 64)) = true →
        let row := Instr.scoreRecordQueue ev kind idx args
        let r : ScoreRec := ⟨ev, kind * 256 + idx, aonTime d0, args, 0⟩
        let full := 64 ≤ scoreQueued d0 ∨ (0 < sc.dropped ∧ 63 ≤ scoreQueued d0)
        let scan := gb d0 Reg.ARB_SCORE_STAT F.ARB_SCORE_STAT_SCANNING = true
        (sc.closed = true → Completes row s (fun d => d = d0)) ∧
        (sc.closed = false → full → Completes row s (fun d => d.score = { sc with dropped := sc.dropped + 1 } ∧
          gf d Reg.ARB_SCORE_LOST F.ARB_SCORE_LOST_COUNT = min (gf d0 Reg.ARB_SCORE_LOST F.ARB_SCORE_LOST_COUNT + 1) 0x7FFFFFFF ∧
          Touches (fun a => a = Reg.ARB_SCORE_LOST.addr) d0 d)) ∧
        (sc.closed = false → ¬ full → sc.dropped = 0 → scan → Completes row s (fun d =>
          d.score = { sc with queue := sc.queue ++ [r] } ∧ Touches (fun _ => False) d0 d)) ∧
        (sc.closed = false → sc.dropped = 0 → ¬ scan → sc.queue = [] → sc.page.length < 31 → Completes row s (fun d =>
          d.score = { sc with page := sc.page ++ [scoreBytes next d0.boots { r with flags := if sc.sector = 0 then 2 else 0 }] } ∧
          gf d Reg.ARB_SCORE_SEQ F.ARB_SCORE_SEQ_NEXT = (next + 1) % 2 ^ 32 ∧ Touches (fun a => a = Reg.ARB_SCORE_SEQ.addr) d0 d))) ∧
      (∀ m, m < 256 →
        (32 ≤ scoreQueued d0 → Completes (.scorePost m) s (fun d => gb d Reg.ARB_SCORE_STAT F.ARB_SCORE_STAT_POST_REJ = true ∧
          Touches (fun a => a = Reg.ARB_SCORE_STAT.addr) d0 d)) ∧
        (scoreQueued d0 < 32 → Completes (.scorePost m) s (fun d =>
          d = scoreEvent 0x0071 7 m ((List.range 4).map (fun i => (rd d0 (Reg.ARB_SCORE_POST i)).toNat)) d0))) ∧
      (∀ row ∈ [Instr.scoreFlush, .scoreFlushTimeout],
        let reserve := sc.sector ≠ 0 ∧ 6 ≤ sc.pageIdx ∧ sc.erasing ≠ none
        (sc.page = [] ∨ sc.prog ≠ none ∨ reserve ∨ (row = .scoreFlushTimeout ∧ sc.sector = 0) → Completes row s (fun d => d = d0)) ∧
        (sc.page ≠ [] → sc.prog = none → ¬ reserve → ¬ (row = .scoreFlushTimeout ∧ sc.sector = 0) → Completes row s (fun d =>
          d = { d0 with score := { sc with prog := some ⟨sc.sector, sc.pageIdx, sc.page⟩, page := [], sector := if sc.pageIdx = 7 then ringNext sc.sector else sc.sector, pageIdx := if sc.pageIdx = 7 then 0 else sc.pageIdx + 1 } })))) ∧
    (sc.prog = none → Completes .scorePageProgrammed s (fun d => d = d0)) ∧
    (sc.erasing = none → Completes .scoreSectorErased s (fun d => d = d0)) ∧
    (gb d0 Reg.ARB_SCORE_STAT F.ARB_SCORE_STAT_SCANNING = false → Completes .scoreScanDone s (fun d => d = d0)) ∧
    (sc.queue = [] → sc.page.length < 32 →
      (∀ p, sc.prog = some p → Completes .scorePageProgrammed s (fun d =>
        d.score = { sc with prog := none, erasing := if p.page = 7 then some (ringNext (ringNext p.sector)) else sc.erasing } ∧
        put (scoreBase + 0x4000 * p.sector + p.page * 2048) p.recs.flatten d ∧ ∀ r, rd d r = rd d0 r)) ∧
      (∀ x, sc.erasing = some x → Completes .scoreSectorErased s (fun d => d.score = { sc with erasing := none } ∧
        put (scoreBase + 0x4000 * x) (List.replicate 0x4000 0xFF) d ∧ ∀ r, rd d r = rd d0 r)) ∧
      (gb d0 Reg.ARB_SCORE_STAT F.ARB_SCORE_STAT_SCANNING = true → (∀ c ∈ d0.mem, c.1 < scoreBase ∨ scoreBase + 2 ^ 20 ≤ c.1) →
        (∀ e ∈ d0.errs, 32 * e.1 < scoreBase ∨ scoreBase + 2 ^ 20 ≤ 32 * e.1) → Completes .scoreScanDone s (fun d =>
          d.score = { sc with sector := 0, pageIdx := 0, erasing := none } ∧ gb d Reg.ARB_SCORE_STAT F.ARB_SCORE_STAT_SCANNING = false ∧
          Touches (fun a => a = Reg.ARB_SCORE_STAT.addr) d0 d))) ∧
    (∀ v, Completes (.powerFail v) s (fun d => HeldInReset 1 d ∧ d.boot.supplyOff = true ∧ rd d Reg.PMU_DOM_STAT = 1 ∧
      (v = true → d0.boot.supplyOff = false → (∀ x ∈ d0.arys.st, x.2.ops = []) → sc.queue = [] → sc.page = [] → sc.prog = none →
        sc.sector < 64 → sc.pageIdx < 8 → rawBytes d cell 64 = scoreBytes next d0.boots
          ⟨0x0002, 0, aonTime d0, [fastTime d0, gf d0 Reg.PMU_STAT F.PMU_STAT_STATE, 0, 0], if sc.sector = 0 then 3 else 1⟩)))

/-- CMD_TAIL_WRITE, CPL_HEAD_WRITE, RING_ENABLE and RING_DISABLE: the doorbells and the switch of a ring pair. With PD_SYS clocked and n a
ring pair. A command tail that is at most the ring's size ahead of the head is taken; another is ignored with TAIL_ERR. A completion head
that does not pass the tail is taken, with no held completion to write; another is ignored with HEAD_ERR. Setting EN of a disabled pair
with both bases and sizes as R584 asks and no completion held enables it, with all four indices 0 and no START waiting unless the pair was
only disabled, when they are kept; with a bad base or size CAUSE reads 3 and the pair stays disabled; an enabled pair stays as it is.
Clearing EN disables it. Each writes nothing else. (R584, R585, R586, R587, R589, R590) -/
def Obligations.RingDoorbellsAndEnables : Prop :=
  ∀ (s : State) (n v : Nat), sysClocked s.dev = true → n < 16 → v < 2 ^ 32 →
    let d0 := s.dev
    let stat := (Reg.RING_STAT n).addr
    let cfg := (Reg.RING_CFG n).addr
    let ahead := fun (r : Reg) (f : Fld) (x : Nat) => ring32 x (gf d0 r f)
    let head := ahead (Reg.RING_CMD_HEAD n) F.RING_CMD_HEAD_INDEX v
    let free := ahead (Reg.RING_CPL_HEAD n) F.RING_CPL_HEAD_INDEX v
    let used := ahead (Reg.RING_CPL_HEAD n) F.RING_CPL_HEAD_INDEX (gf d0 (Reg.RING_CPL_TAIL n) F.RING_CPL_TAIL_INDEX)
    let ok := ringBaseOk d0 (gf d0 (Reg.RING_CMD_BASE n) F.RING_CMD_BASE_ADDR) (gf d0 (Reg.RING_CFG n) F.RING_CFG_CMD_LOG2) &&
      ringBaseOk d0 (gf d0 (Reg.RING_CPL_BASE n) F.RING_CPL_BASE_ADDR) (gf d0 (Reg.RING_CFG n) F.RING_CFG_CPL_LOG2)
    let on := gb d0 (Reg.RING_CFG n) F.RING_CFG_EN
    (head ≤ 2 ^ gf d0 (Reg.RING_CFG n) F.RING_CFG_CMD_LOG2 → Completes (.cmdTailWrite n v) s (fun d =>
      gf d (Reg.RING_CMD_TAIL n) F.RING_CMD_TAIL_INDEX = v ∧ Touches (fun a => a = (Reg.RING_CMD_TAIL n).addr) d0 d)) ∧
    (2 ^ gf d0 (Reg.RING_CFG n) F.RING_CFG_CMD_LOG2 < head → Completes (.cmdTailWrite n v) s (fun d =>
      gb d (Reg.RING_STAT n) F.RING_STAT_TAIL_ERR = true ∧ Touches (fun a => a = stat) d0 d)) ∧
    (free ≤ used → mgetD d0.rings.held n [] = [] → Completes (.cplHeadWrite n v) s (fun d =>
      gf d (Reg.RING_CPL_HEAD n) F.RING_CPL_HEAD_INDEX = v ∧ Touches (fun a => a = (Reg.RING_CPL_HEAD n).addr) d0 d)) ∧
    (used < free → Completes (.cplHeadWrite n v) s (fun d =>
      gb d (Reg.RING_STAT n) F.RING_STAT_HEAD_ERR = true ∧ Touches (fun a => a = stat) d0 d)) ∧
    (on = false → ok = true → mgetD d0.rings.held n [] = [] →
      (mhas d0.rings.kept n = false → Completes (.ringEnable n) s (fun d =>
        gb d (Reg.RING_CFG n) F.RING_CFG_EN = true ∧ mhas d.rings.kept n = true ∧ mget d.rings.waiting n = none ∧
        (∀ r ∈ [Reg.RING_CMD_HEAD n, Reg.RING_CMD_TAIL n, Reg.RING_CPL_HEAD n, Reg.RING_CPL_TAIL n], rd d r = 0) ∧
        gb d (Reg.RING_STAT n) F.RING_STAT_WAIT_ADMIT = false ∧
        Touches (fun a => (cfg ≤ a ∧ a ≤ (Reg.RING_CPL_TAIL n).addr) ∨ a = stat) d0 d)) ∧
      (mhas d0.rings.kept n = true → Completes (.ringEnable n) s (fun d =>
        gb d (Reg.RING_CFG n) F.RING_CFG_EN = true ∧ d.rings.waiting = d0.rings.waiting ∧ Touches (fun a => a = cfg) d0 d))) ∧
    (on = false → ok = false → Completes (.ringEnable n) s (fun d =>
      gf d (Reg.RING_STAT n) F.RING_STAT_CAUSE = 3 ∧ gb d (Reg.RING_CFG n) F.RING_CFG_EN = false ∧ Touches (fun a => a = stat) d0 d)) ∧
    (on = true → Completes (.ringEnable n) s (fun d => d = d0)) ∧
    Completes (.ringDisable n) s (fun d =>
      gb d (Reg.RING_CFG n) F.RING_CFG_EN = false ∧ d.rings = d0.rings ∧ Touches (fun a => a = cfg) d0 d)

/-- NOP, COMPLETION_RELEASE, RING_CPL_STALL, RING_MOD_TIMER and RING_PROGRESS_TIMER: how completions reach their ring. A NOP on a ring pair
that can write and holds none writes its completion, status 0 (0xC2 if HANDLE or a reserved flag is set), as one 32-byte entry at the
tail, which advances and counts it; on a disabled or full ring it is held behind those that wait, and nothing else changes. A held
completion is written once the ring can. A ring still full after RING_CPL_TMO sets CPL_FULL and raises RING_CPL_STALL, once. With entries
counted and a time set, the timer signals the ring and clears the count. A running operation that asks for progress gets a progress entry;
one that does not, none. (R585, R587, R588, R590, R593, R595, R601, R604, R612) -/
def Obligations.CompletionsAreWritten : Prop :=
  ∀ (s : State), sysClocked s.dev = true →
    let d0 := s.dev
    (∀ h : CmdHdr, WellFormed.okHdr h = true →
      let c : Cpl := ⟨withOp 0x00 h, if h.handle ≠ 0 ∨ h.flags > 7 then 0xC2 else 0, 0, 0, 0, false⟩
      let l := mgetD d0.rings.held h.ring []
      (RingReady d0 h.ring → l = [] → Completes (.nop h) s (fun d => CplWritten c d0 d ∧ mgetD d.rings.held h.ring [] = [])) ∧
      (gb d0 (Reg.RING_CFG h.ring) F.RING_CFG_EN = false ∨ cplFull d0 h.ring = true → Completes (.nop h) s (fun d =>
        mgetD d.rings.held h.ring [] = l ++ [c] ∧ Touches (fun _ => False) d0 d))) ∧
    (∀ n, n < 16 →
      (∀ c, mgetD d0.rings.held n [] = [c] → c.hdr.ring = n → RingReady d0 n → Completes (.completionRelease n) s (fun d =>
        CplWritten c d0 d ∧ mgetD d.rings.held n [] = [])) ∧
      (cplFull d0 n = true → mhas d0.rings.stalled n = false → Completes (.ringCplStall n) s (fun d =>
        gb d (Reg.RING_STAT n) F.RING_STAT_CPL_FULL = true ∧ icPending d 113 = true ∧ mhas d.rings.stalled n = true ∧
        Touches (fun a => a = (Reg.RING_STAT n).addr) d0 d)) ∧
      (cplFull d0 n = false ∨ mhas d0.rings.stalled n = true → Completes (.ringCplStall n) s (fun d => d = d0)) ∧
      (let due := gf d0 (Reg.RING_MOD n) F.RING_MOD_US ≠ 0 ∧ gf d0 (Reg.RING_STAT n) F.RING_STAT_PENDING ≠ 0
       (due → Completes (.ringModTimer n) s (fun d => gf d (Reg.RING_STAT n) F.RING_STAT_PENDING = 0 ∧
          icPending d (16 + n) = true ∧ Touches (fun a => a = (Reg.RING_STAT n).addr) d0 d)) ∧
       (¬ due → Completes (.ringModTimer n) s (fun d => d = d0)))) ∧
    (∀ t e, t < 256 → mget d0.rings.ops t = some e →
      let run := e.state = .running ∧ e.hdr.flags.testBit 2 = true
      (run → e.hdr.opcode ≠ 0x10 → e.hdr.ring < 16 → RingReady d0 e.hdr.ring → mgetD d0.rings.held e.hdr.ring [] = [] →
        Completes (.ringProgressTimer t) s (fun d => ∃ r0 r1, CplWritten ⟨e.hdr, 0, 0, r0, r1, true⟩ d0 d ∧
          (∀ t, d0.train = some t → e.hdr.opcode = 0x30 → r0 = t.done ∧ r1 = fieldAt t.desc 8 4) ∧ mget d.rings.ops t = some e)) ∧
      (run → ∀ r, d0.le.run = some r → e.hdr.opcode = 0x10 → e.hdr.ring < 16 → RingReady d0 e.hdr.ring → mgetD d0.rings.held e.hdr.ring [] = [] →
        Completes (.ringProgressTimer t) s (fun d =>
          CplWritten ⟨e.hdr, 0, 0, (rd d0 Reg.LE_PROGRESS).toNat, loadTotals r, true⟩ d0 d ∧ mget d.rings.ops t = some e)) ∧
      (¬ run → Completes (.ringProgressTimer t) s (fun d => d = d0)))

/-- QUERY, ADJOURN, RESUME, RESIGN and COMMAND_DISPATCH: the ring controller's own commands and its turns. On a ring pair that can write and
holds no completion. QUERY completes with the handle's entry, the slot's state and references, or IMG_FP and its count; a kind or index
out of range with 0xC2, an unused handle with 0xCC. ADJOURN, RESUME and RESIGN of an unused handle complete with 0xCC; of an operation
whose table does not allow them with 0xCD, 0xCE or 0xD2 and its state. A queued LOAD is adjourned, an operation adjourned before it
started waits again, each with its old state in R0. A dispatch serves the next ring: it fetches the 64 bytes at the head, refuses an
unknown opcode with 0xC0, hands a START to its executor with the head in place and any other command with the head past it; behind a FENCE
only the turn passes. (R592, R593, R594, R595, R602, R605, R607, R609) -/
def Obligations.RingControllerCommands : Prop :=
  ∀ (s : State), sysClocked s.dev = true → s.dev.train = none →
    let d0 := s.dev
    (∀ (h : CmdHdr) (t : Nat), WellFormed.okHdr h = true → t < 256 → h.handle = 0 → h.flags ≤ 7 → RingReady d0 h.ring →
      mgetD d0.rings.held h.ring [] = [] →
      let ends := fun (op st r0 r1 : Nat) (d : Dev) => CplWritten ⟨withOp op h, st, 0, r0, r1, false⟩ d0 d
      (∀ e, mget d0.rings.ops t = some e → e.hdr.opcode ≠ 0x10 → e.hdr.opcode ≠ 0x30 →
        Completes (.query h 0 t) s (ends 0x60 0 (opEntView d0 t) 0) ∧
        Completes (.adjourn h t) s (fun d => ends 0x70 0xCD (opCode e.state) 0 d ∧ d.le = d0.le)) ∧
      (mget d0.rings.ops t = none → Completes (.query h 0 t) s (ends 0x60 0xCC 0 0) ∧ Completes (.adjourn h t) s (ends 0x70 0xCC 0 0) ∧
        Completes (.resume h t) s (ends 0x71 0xCC 0 0) ∧ Completes (.resign h t) s (ends 0x72 0xCC 0 0)) ∧
      (t < 64 → Completes (.query h 1 t) s (ends 0x60 0 (slotStatView d0 t) (sideRefView d0 t 0 + sideRefView d0 t 1 * 2 ^ 32))) ∧
      Completes (.query h 2 t) s (ends 0x60 0 (rd d0 Reg.IMG_FP).toNat (rd d0 Reg.IMG_FP_SEQ).toNat) ∧
      (∀ kind, kind < 256 → 2 < kind ∨ (kind = 1 ∧ 63 < t) → Completes (.query h kind t) s (ends 0x60 0xC2 0 0)) ∧
      (∀ e, mget d0.rings.ops t = some e → e.hdr.opcode = 0x10 → e.state = .queued → Completes (.adjourn h t) s (fun d =>
        ends 0x70 0 (opCode .queued) 0 d ∧ mget d.rings.ops t = some { e with state := .adjourned, adjQueued := true })) ∧
      (∀ e, mget d0.rings.ops t = some e → e.state = .adjourned → e.adjQueued = true → e.hdr.opcode ≠ 0x71 → Completes (.resume h t) s (fun d =>
        ends 0x71 0 (opCode .adjourned) 0 d ∧ mget d.rings.ops t = some { e with state := .queued, adjQueued := false })) ∧
      (∀ e, mget d0.rings.ops t = some e → e.state ≠ .adjourned → Completes (.resume h t) s (ends 0x71 0xCE (opCode e.state) 0)) ∧
      (∀ e, mget d0.rings.ops t = some e → e.hdr.opcode = 0x41 → Completes (.resign h t) s (ends 0x72 0xD2 (opCode e.state) 0)) ∧
      (∀ e, mget d0.rings.ops t = some e → e.hdr.opcode = 0x10 → e.state = .queued → Completes (.resign h t) s (fun d =>
        d = finish (withOp 0x72 h) 0 (opCode .queued) 0 (resignQueued e (cmdIn (withOp 0x72 h) d0))))) ∧
    (ringTurn d0 = none → Completes .commandDispatch s (fun d => d = d0)) ∧
    (∀ n i a b, ringTurn d0 = some n → i = gf d0 (Reg.RING_CMD_HEAD n) F.RING_CMD_HEAD_INDEX →
      a = gf d0 (Reg.RING_CMD_BASE n) F.RING_CMD_BASE_ADDR + i % 2 ^ gf d0 (Reg.RING_CFG n) F.RING_CFG_CMD_LOG2 * 64 →
      region a = .dram → a + 64 ≤ 2 ^ 40 → accessCause d0 a 64 false = none → Clean d0 a 64 →
      b = (List.range 64).map (fun k => byteAt d0.mem (a + k)) →
      let h : CmdHdr := { ring := n, idx := i, tag := fieldAt b 2 2, opcode := fieldAt b 0 1, flags := fieldAt b 1 1, handle := fieldAt b 4 1 }
      let past := sf (Reg.RING_CMD_HEAD n) F.RING_CMD_HEAD_INDEX (i + 1) d0
      let mine := fun (d : Dev) => { d with rings := { d.rings with last := n } }
      let fence := h.flags.testBit 0 = true ∧ mgetD d0.rings.outst n 0 ≠ 0
      (fence → Completes .commandDispatch s (fun d => d = mine d0)) ∧
      (¬ fence → opcodeBad b = true → RingReady d0 n → mgetD d0.rings.held n [] = [] → Completes .commandDispatch s (fun d =>
        CplWritten ⟨h, 0xC0, 0, 0, 0, false⟩ past d ∧ d.rings.last = n)) ∧
      (¬ fence → opcodeBad b = false → h.opcode = 0 → RingReady d0 n → mgetD d0.rings.held n [] = [] → Completes .commandDispatch s (fun d =>
        CplWritten ⟨h, if h.handle ≠ 0 ∨ h.flags > 7 then 0xC2 else 0, 0, 0, 0, false⟩ past d ∧ d.rings.last = n)) ∧
      (¬ fence → opcodeBad b = false → h.opcode = 1 → Completes .commandDispatch s (fun d => mine d = mine (startCmd h (startParse b) (mine d0)))) ∧
      (¬ fence → opcodeBad b = false → 1 < h.opcode → h.opcode ≠ 0x11 → h.opcode ≠ 0x30 → h.opcode ≠ 0x41 → (cmdRun h b (mine past)).train = none →
        Completes .commandDispatch s (fun d => mine d = mine (cmdRun h b (mine past)))))

/-- IMG_LOAD, IMG_ACTIVATE and CENSUS: the long operations of the image loader and the census, as the ring hands them over. With a reserved
flag set, or EN of IMG_ACTIVATE beyond 1, the command completes with 0xC2; with its handle in use, with 0xCB. Otherwise it takes its
handle as QUEUED and waits behind a load, an activation or another command, or, with none, starts: IMG_LOAD writes its source and length
to IMG_SRC and IMG_SRC_LEN and starts a load, IMG_ACTIVATE an activation with its barrier. A CENSUS takes its handle as RUNNING; before
LOCK, or with no torus, it ends with 0xE3, with more devices expected than the torus has with 0xE4, while this hub takes part in a census
with 0xE2, each shown in SYNC_CENSUS_STAT, and otherwise this device enters the census as its initiator. (R85, R594, R595, R606, R675,
R680, R818) -/
def Obligations.ImageAndCensusCommands : Prop :=
  ∀ (s : State) (h0 : CmdHdr), sysClocked s.dev = true → s.dev.train = none → WellFormed.okHdr h0 = true →
    let d0 := s.dev
    let h := fun (op : Nat) => withOp op h0
    let open_ := fun (op : Nat) (st : OpState) => opOpen (h op) st (cmdIn (h op) d0)
    let busy := imgBusy d0 || !d0.img.queue.isEmpty
    let free := h0.flags ≤ 7 ∧ mhas d0.rings.ops h0.handle = false
    let ends := fun (op st : Nat) (d : Dev) => CplWritten ⟨h op, st, 0, 0, 0, false⟩ d0 d
    let code := fun (c : Nat) (d : Dev) => CplWritten ⟨h 0x50, c, 0, 0, 0, false⟩ (sf Reg.SYNC_CENSUS_STAT F.SYNC_CENSUS_STAT_CODE c d0) d
    (∀ src len, src < 2 ^ 64 → len < 2 ^ 32 → free →
      (busy = true → Completes (.imgLoad h0 src len) s (fun d => d.img.queue = d0.img.queue ++ [.load (h 0x40) src len] ∧
        mget d.rings.ops h0.handle = some { hdr := h 0x40, state := .queued } ∧ Touches (fun _ => False) d0 d)) ∧
      (busy = false → Completes (.imgLoad h0 src len) s (fun d =>
        d = imgLoadStart (some (h 0x40)) (wr Reg.IMG_SRC_LEN (BitVec.ofNat 64 len) (sf Reg.IMG_SRC F.IMG_SRC_ADDR src (open_ 0x40 .queued)))))) ∧
    (∀ en b, en ≤ 1 → b < 2 ^ 32 → free →
      let bar := if en = 1 then some b else none
      (busy = true → Completes (.imgActivate h0 en b) s (fun d => d.img.queue = d0.img.queue ++ [.act (h 0x41) bar] ∧
        mget d.rings.ops h0.handle = some { hdr := h 0x41, state := .queued } ∧ Touches (fun _ => False) d0 d)) ∧
      (busy = false → (actStart (some (h 0x41)) none bar (open_ 0x41 .queued)).train = none → Completes (.imgActivate h0 en b) s (fun d =>
        d = actStart (some (h 0x41)) none bar (open_ 0x41 .queued)))) ∧
    (∀ ex, ex < 65536 → free →
      let torus := nodeLocked d0 = true ∧ torusRows d0 ≠ 0 ∧ torusCols d0 ≠ 0
      (RingReady d0 h0.ring → mgetD d0.rings.held h0.ring [] = [] →
        (¬ torus → Completes (.census h0 ex) s (code 0xE3)) ∧
        (torus → torusRows d0 * torusCols d0 < ex → Completes (.census h0 ex) s (code 0xE4)) ∧
        (torus → ex ≤ torusRows d0 * torusCols d0 → d0.links.census.isSome = true → Completes (.census h0 ex) s (code 0xE2))) ∧
      (torus → ex ≤ torusRows d0 * torusCols d0 → d0.links.census = none → Completes (.census h0 ex) s (fun d =>
        d = censusEnter { init := devId d0, parent := none, children := censusChildren d0 (devId d0), cmd := some (h 0x50), expect := ex } 0x23
          (open_ 0x50 .running)))) ∧
    (RingReady d0 h0.ring → mgetD d0.rings.held h0.ring [] = [] → ∀ src len en b ex, src < 2 ^ 64 → len < 2 ^ 32 → en < 256 → b < 2 ^ 32 → ex < 65536 →
      (7 < h0.flags → Completes (.imgLoad h0 src len) s (ends 0x40 0xC2) ∧ Completes (.census h0 ex) s (ends 0x50 0xC2)) ∧
      (7 < h0.flags ∨ 1 < en → Completes (.imgActivate h0 en b) s (ends 0x41 0xC2)) ∧
      (h0.flags ≤ 7 → mhas d0.rings.ops h0.handle = true → Completes (.imgLoad h0 src len) s (ends 0x40 0xCB) ∧
        Completes (.census h0 ex) s (ends 0x50 0xCB) ∧ (en ≤ 1 → Completes (.imgActivate h0 en b) s (ends 0x41 0xCB))))

/-- TL_ENABLE, TL_DISABLE, TL_TRAIN_TIMEOUT, TL_FC_IN_CHANGE, TL_FC_STUCK, TL_FP_SETTLE_EXPIRY, TL_WAKE_RETRY and LINK_WAKE_DETECT: what a
port's state does. With PD_SYS clocked and n a port. Setting EN of an OFF port whose node is locked, whose PD_LINK is on and whose
neighbour is another device trains it (STATE 1, no lanes); before LOCK only EN is set; with itself as neighbour TOPO_ERR is set and
raised. Clearing EN stops the port: STATE OFF, WIDTH and FP_MISMATCH 0, buffers empty. A missed training short of the third is counted and
repeated. FC_IN shows the level; a stuck level is reported once. A fingerprint that differed over TL_FP_SETTLE on an UP port sets
FP_MISMATCH and raises it. A wake pattern is sent again up to the third time, then the port is in LOW_POWER. A link wake sets its bit of
PMU_WAKE_PEND; a false one is counted. Each writes nothing else. (R618, R620, R621, R622, R633, R640, R642, R643, R654, R658, R660) -/
def Obligations.LinkPortsStartAndStop : Prop :=
  ∀ (s : State) (n : Nat), sysClocked s.dev = true → n < 4 →
    let stat := (Reg.TL_STAT n).addr
    let off := portState s.dev n = 0
    (off → nodeLocked s.dev = true → domOn s.dev (5 + n) = true → torusRows s.dev ≠ 0 → torusCols s.dev ≠ 0 →
      (neighbour s.dev n).1 ≠ devId s.dev → Completes (.tlEnable n) s (fun d =>
        gb d (Reg.TL_CTL n) F.TL_CTL_EN = true ∧ portState d n = 1 ∧ gf d (Reg.TL_STAT n) F.TL_STAT_LANES = 0 ∧
        Touches (fun a => a = (Reg.TL_CTL n).addr ∨ a = stat) s.dev d)) ∧
    (off → nodeLocked s.dev = false → Completes (.tlEnable n) s (fun d =>
        gb d (Reg.TL_CTL n) F.TL_CTL_EN = true ∧ Touches (fun a => a = (Reg.TL_CTL n).addr) s.dev d)) ∧
    (off → nodeLocked s.dev = true → domOn s.dev (5 + n) = true → (neighbour s.dev n).1 = devId s.dev →
      gb s.dev (Reg.TL_STAT n) F.TL_STAT_TOPO_ERR = false → Completes (.tlEnable n) s (fun d =>
        gb d (Reg.TL_STAT n) F.TL_STAT_TOPO_ERR = true ∧ portState d n = 0 ∧ icPending d (srcTl 3 n) = true ∧
        Touches (fun a => a = (Reg.TL_CTL n).addr ∨ a = stat) s.dev d)) ∧
    Completes (.tlDisable n) s (fun d =>
      gb d (Reg.TL_CTL n) F.TL_CTL_EN = false ∧ portState d n = 0 ∧ gf d (Reg.TL_STAT n) F.TL_STAT_WIDTH = 0 ∧
      gf d (Reg.TL_STAT n) F.TL_STAT_FP_MISMATCH = 0 ∧ portOf d n = {} ∧
      Touches (fun a => a = (Reg.TL_CTL n).addr ∨ a = stat) s.dev d) ∧
    (portState s.dev n = 1 → (portOf s.dev n).attempts < 2 → Completes (.tlTrainTimeout n) s (fun d =>
        portState d n = 1 ∧ gf d (Reg.TL_STAT n) F.TL_STAT_LANES = 0 ∧
        gf d (Reg.TL_RETRAIN_CNT n) F.TL_CRC_CNT_COUNT = min (gf s.dev (Reg.TL_RETRAIN_CNT n) F.TL_CRC_CNT_COUNT + 1) 0x7FFFFFFF ∧
        (portOf d n).attempts = (portOf s.dev n).attempts + 1 ∧
        Touches (fun a => a = (Reg.TL_RETRAIN_CNT n).addr ∨ a = stat) s.dev d)) ∧
    (∀ level, Completes (.tlFcInChange n level) s (fun d =>
      gb d (Reg.TL_STAT n) F.TL_STAT_FC_IN = level ∧ Touches (fun a => a = stat) s.dev d)) ∧
    (gb s.dev (Reg.TL_STAT n) F.TL_STAT_FC_IN = true → (portOf s.dev n).stuck = false → Completes (.tlFcStuck n) s (fun d =>
      gb d (Reg.TL_STAT n) F.TL_STAT_FC_STUCK = true ∧ icPending d (srcTl 4 n) = true ∧ (portOf d n).stuck = true ∧
      Touches (fun a => a = stat) s.dev d)) ∧
    (gb s.dev (Reg.TL_STAT n) F.TL_STAT_FC_IN = false ∨ (portOf s.dev n).stuck = true → Completes (.tlFcStuck n) s (fun d => d = s.dev)) ∧
    (portState s.dev n = 2 → gb s.dev (Reg.TL_CTL n) F.TL_CTL_FP_CHECK = true → (portOf s.dev n).fpDiff = true →
      gb s.dev (Reg.TL_STAT n) F.TL_STAT_FP_MISMATCH = false → Completes (.tlFpSettleExpiry n) s (fun d =>
        gb d (Reg.TL_STAT n) F.TL_STAT_FP_MISMATCH = true ∧ icPending d (srcTl 5 n) = true ∧
        Touches (fun a => a = stat ∨ scored a) s.dev d)) ∧
    (portState s.dev n = 4 → (portOf s.dev n).wakes < 3 → Completes (.tlWakeRetry n) s (fun d =>
      d.out = s.dev.out ++ [.wakePattern n] ∧ (portOf d n).wakes = (portOf s.dev n).wakes + 1 ∧ portState d n = 4 ∧
      Touches (fun _ => False) s.dev d)) ∧
    (portState s.dev n = 4 → 3 ≤ (portOf s.dev n).wakes → Completes (.tlWakeRetry n) s (fun d =>
      portState d n = 3 ∧ Touches (fun a => a = stat) s.dev d)) ∧
    Completes (.linkWakeDetect n false) s (fun d =>
      gf d (Reg.TL_WAKE_CNT n) F.TL_CRC_CNT_COUNT = min (gf s.dev (Reg.TL_WAKE_CNT n) F.TL_CRC_CNT_COUNT + 1) 0x7FFFFFFF ∧
      Touches (fun a => a = (Reg.TL_WAKE_CNT n).addr) s.dev d) ∧
    (pmuBusy s.dev = false → pmuState s.dev ≠ 3 → pmuState s.dev ≠ 4 → (rd s.dev Reg.PMU_WAKE_EN).getLsbD (5 + n) = true →
      Completes (.linkWakeDetect n true) s (fun d =>
        (rd d Reg.PMU_WAKE_PEND).getLsbD (5 + n) = true ∧ Touches (fun _ => False) s.dev d))

/-- TL_TRAIN_FLIT, TL_DATA_FLIT, TL_IDLE_FLIT, TL_ACK_FLIT, TL_NAK_FLIT and TL_SLEEP_NOTICE: what a received flit does. With nothing waiting
at port n. While it trains, a TRAIN flit of the right neighbour with enough common lanes brings it UP with their width, the neighbour
shown and TL_UP raised; with another neighbour TOPO_ERR is set and it trains on; with too few lanes it is DOWN. On an UP port a flit with
a bad CRC is counted and, unless one was sent, a NAK goes; a good one is counted. ACK frees the flits it covers; NAK has every
unacknowledged flit sent again in order and counted, or, beyond MAX, the port retrains. In sequence: IDLE stores the neighbour's
fingerprint and whether it differs, SLEEP_NOTICE is acknowledged and puts the port in LOW_POWER, and a DATA flit's stream item joins the
FIFO bound to its channel, or is dropped and counted where none is, its credit going back, and a whole message is handled as its row. On a
port not UP none of the five does anything. (R620, R621, R622, R623, R628, R631, R634, R635, R637, R638, R640, R657) -/
def Obligations.FlitsAreReceived : Prop :=
  ∀ (s : State) (n : Nat) (b : List Byte), sysClocked s.dev = true → n < 4 → b.length = 160 →
    let d0 := s.dev
    let p := portOf d0 n
    let f := flitParse b
    let cnt := fun (r : Nat → Reg) (d : Dev) => gf d (r n) F.TL_CRC_CNT_COUNT = min (gf d0 (r n) F.TL_CRC_CNT_COUNT + 1) 0x7FFFFFFF
    let counted := fun (d : Dev) => (rd d (Reg.TL_RX_FLITS n)).toNat = min ((rd d0 (Reg.TL_RX_FLITS n)).toNat + 1) (2 ^ 64 - 1)
    let wire := fun (g : Flit) => Out.flit n (flitBytes { g with ack := (p.rxExp + 4095) % 4096 })
    let flat := gb d0 Reg.INTG_FLIP F.INTG_FLIP_ARM = false
    let good := fun (type : Nat) => portUp d0 n = true ∧ flitCrcOk b = true ∧ f.type = type ∧ p.pend = []
    let next := fun (d : Dev) => (portOf d n).rxExp = (p.rxExp + 1) % 4096 ∧ counted d
    let nbr := fieldAt (f.slots.getD 0 slotNone).data
    let right := nbr 0 2 % 4096 = (neighbour d0 n).1 ∧ nbr 2 1 = (neighbour d0 n).2 ∧ nbr 3 1 = torusRows d0 ∧ nbr 4 1 = torusCols d0
    (∀ lanes, lanes < 256 →
      let w := (laneWidth (lanes &&& nbr 5 1)).2
      let train := portState d0 n = 1 ∧ flitCrcOk b = true ∧ f.type = 6 ∧ flat ∧ p.pend = [] ∧ p.held = [] ∧ p.replay = [] ∧ p.saved = false
      (train → right → w ≠ 0 → Completes (.tlTrainFlit n lanes b) s (fun d => portState d n = 2 ∧ gf d (Reg.TL_STAT n) F.TL_STAT_WIDTH = w ∧
        gf d (Reg.TL_STAT n) F.TL_STAT_LANES = lanes &&& nbr 5 1 ∧ gb d (Reg.TL_NBR n) F.TL_NBR_VALID = true ∧
        gf d (Reg.TL_NBR n) F.TL_NBR_DEV_ID = (neighbour d0 n).1 ∧ gb d Reg.ARB_HEALTH ⟨8 + n, 1⟩ = false ∧
        gb d Reg.ARB_HEALTH ⟨12 + n, 1⟩ = (w != 3) ∧ icPending d (srcTl 0 n) = true ∧
        Touches (fun a => a = (Reg.TL_STAT n).addr ∨ a = (Reg.TL_NBR n).addr ∨ a = Reg.ARB_HEALTH.addr ∨ a = (Reg.TL_TX_FLITS n).addr) d0 d)) ∧
      (train → ¬ right → Completes (.tlTrainFlit n lanes b) s (fun d => portState d n = 1 ∧ gb d (Reg.TL_STAT n) F.TL_STAT_TOPO_ERR = true ∧
        Touches (fun a => a = (Reg.TL_STAT n).addr ∨ a = (Reg.TL_TX_FLITS n).addr) d0 d)) ∧
      (train → right → w = 0 → d0.fifos = [] → Completes (.tlTrainFlit n lanes b) s (fun d => portState d n = 5 ∧
        gf d (Reg.TL_STAT n) F.TL_STAT_WIDTH = 0 ∧ gb d Reg.ARB_HEALTH ⟨8 + n, 1⟩ = true ∧ icPending d (srcTl 1 n) = true)) ∧
      (portState d0 n ≠ 1 → portState d0 n ≠ 3 → portState d0 n ≠ 4 → portState d0 n ≠ 5 → Completes (.tlTrainFlit n lanes b) s (fun d => d = d0))) ∧
    (∀ c ∈ [Instr.tlDataFlit n b, .tlIdleFlit n b, .tlAckFlit n b, .tlNakFlit n b, .tlSleepNotice n b],
      (portUp d0 n = false → Completes c s (fun d => d = d0)) ∧
      (portUp d0 n = true → flitCrcOk b = false → Completes c s (fun d => cnt Reg.TL_CRC_CNT d ∧ (portOf d n).naked = true ∧
        d.out = (if p.naked then d0.out else d0.out ++ [wire ⟨4, 0, 0, 0, 0, []⟩]) ∧
        Touches (fun a => a = (Reg.TL_CRC_CNT n).addr ∨ a = (Reg.TL_TX_FLITS n).addr) d0 d))) ∧
    (good 3 → Completes (.tlAckFlit n b) s (fun d => (portOf d n).replay = p.replay.dropWhile (fun q => ackCovers f.ack q.seq) ∧
      (portOf d n).rxExp = p.rxExp ∧ counted d ∧ Touches (fun a => a = (Reg.TL_RX_FLITS n).addr) d0 d)) ∧
    (good 4 → p.replay.dropWhile (fun q => ackCovers f.ack q.seq) = p.replay → p.replay ≠ [] →
      (p.replays + 1 ≤ gf d0 (Reg.TL_RETRY n) F.TL_RETRY_MAX → Completes (.tlNakFlit n b) s (fun d => cnt Reg.TL_REPLAY_CNT d ∧ counted d ∧
        (portOf d n).replay = p.replay ∧ (portOf d n).replays = p.replays + 1 ∧ d.out = d0.out ++ p.replay.map wire ∧
        Touches (fun a => a = (Reg.TL_RX_FLITS n).addr ∨ a = (Reg.TL_REPLAY_CNT n).addr ∨ a = (Reg.TL_TX_FLITS n).addr) d0 d)) ∧
      (gf d0 (Reg.TL_RETRY n) F.TL_RETRY_MAX < p.replays + 1 → Completes (.tlNakFlit n b) s (fun d => portState d n = 1 ∧
        cnt Reg.TL_REPLAY_CNT d ∧ cnt Reg.TL_RETRAIN_CNT d ∧ (portOf d n).replay = p.replay ∧ d.out = d0.out))) ∧
    (good 2 → f.seq = p.rxExp → gb d0 (Reg.TL_CTL n) F.TL_CTL_FP_CHECK = true → Completes (.tlIdleFlit n b) s (fun d =>
      next d ∧ (rd d (Reg.TL_NBR_FP n)).toNat = nbr 0 8 ∧ (portOf d n).fpDiff = ((rd d0 Reg.IMG_FP).toNat != nbr 0 8) ∧
      Touches (fun a => a = (Reg.TL_RX_FLITS n).addr ∨ a = (Reg.TL_NBR_FP n).addr ∨ a = (Reg.TL_STAT n).addr) d0 d)) ∧
    (good 5 → f.seq = p.rxExp → Completes (.tlSleepNotice n b) s (fun d => next d ∧ portState d n = 3 ∧
      gf d (Reg.TL_STAT n) F.TL_STAT_FP_MISMATCH = 0 ∧ d.out.length = d0.out.length + 1 ∧
      Touches (fun a => a = (Reg.TL_RX_FLITS n).addr ∨ a = (Reg.TL_TX_FLITS n).addr ∨ a = (Reg.TL_STAT n).addr) d0 d)) ∧
    (∀ x rest, good 1 → f.seq = p.rxExp → f.slots = x :: rest → (∀ y ∈ rest, y.flags.testBit 0 = false) → x.flags.testBit 0 = true →
      x.flags.testBit 4 = false → decodeSyn (syndromes 0 (x.chk ++ x.data.map BitVec.toNat)) = .clean →
      (∀ it : Item, x.ch < 16 → mgetD p.rx x.ch [] = [] →
        it = { data := x.data, fin := x.flags.testBit 1, empty := x.flags.testBit 2, poison := x.flags.testBit 3 } →
        (routeBySrc d0 (epMk 4 n x.ch) = none → Completes (.tlDataFlit n b) s (fun d => next d ∧ cnt Reg.TL_DROP_CNT d ∧
          mgetD (portOf d n).credRet x.ch 0 = mgetD p.credRet x.ch 0 + 1 ∧
          Touches (fun a => a = (Reg.TL_RX_FLITS n).addr ∨ a = (Reg.TL_DROP_CNT n).addr) d0 d)) ∧
        (∀ r g, routeBySrc d0 (epMk 4 n x.ch) = some r → mget d0.fifos r = some g → fifoCanWrite g = true → flat →
          Completes (.tlDataFlit n b) s (fun d => next d ∧ (mget d.fifos r).map Fifo.items = some (g.items ++ [it]) ∧
            mgetD (portOf d n).credRet x.ch 0 = mgetD p.credRet x.ch 0 + 1 ∧ d.mem = d0.mem))) ∧
      (16 ≤ x.ch → x.flags.testBit 3 = false → x.flags.testBit 5 = true → msgLen x.data = 0 → Completes (.tlDataFlit n b) s (fun d =>
        ∃ e, next e ∧ Touches (fun a => a = (Reg.TL_RX_FLITS n).addr) d0 e ∧ e.links.reqs = d0.links.reqs ∧ d = rowMsg n (msgParse x.data []) e)))

/-- TL_REPLAY_TIMEOUT, TL_ACK_TIMER, TL_IDLE_INSERT, TL_VC_IDLE_SEND and WATCH_RETRY: what a port sends of itself. On an UP port n with no
flip armed. Unacknowledged flits that time out are all sent again in order, counted once, or, beyond MAX replays, the port retrains. The
ACK timer sends an ACK flit with the number accepted last. With room in the replay buffer, an IDLE flit with IMG_FP, its count, the device
and port number takes the next sequence number and is kept for replay, and so is a VC_IDLE slot with the idle item of a bound channel
whose FIFO has no item to present. A WATCH that waits for its answer is sent again on its route. On a port not UP, with nothing to replay,
on an unbound channel and for a TAG that waits for no watch, nothing changes. (R630, R632, R634, R635, R636, R637, R639, R669) -/
def Obligations.FlitsAreSent : Prop :=
  ∀ (s : State) (n : Nat), sysClocked s.dev = true → n < 4 →
    let d0 := s.dev
    let p := portOf d0 n
    let up := portUp d0 n = true
    let cnt := fun (r : Nat → Reg) (d : Dev) => gf d (r n) F.TL_CRC_CNT_COUNT = min (gf d0 (r n) F.TL_CRC_CNT_COUNT + 1) 0x7FFFFFFF
    let ack := (p.rxExp + 4095) % 4096
    let wire := fun (g : Flit) => Out.flit n (flitBytes { g with ack := ack })
    let tx := (Reg.TL_TX_FLITS n).addr
    let flat := gb d0 Reg.INTG_FLIP F.INTG_FLIP_ARM = false
    let kept := fun (type : Nat) (x : Slot) (d : Dev) => ∃ g : Flit, (portOf d n).replay = p.replay ++ [g] ∧ g.type = type ∧ g.seq = p.txSeq ∧
      g.slots = [x] ∧ (portOf d n).txSeq = (p.txSeq + 1) % 4096 ∧ d.out = d0.out ++ [wire g] ∧ Touches (fun a => a = tx) d0 d
    (up → p.replay ≠ [] → p.replays + 1 ≤ gf d0 (Reg.TL_RETRY n) F.TL_RETRY_MAX → Completes (.tlReplayTimeout n) s (fun d =>
      cnt Reg.TL_REPLAY_CNT d ∧ d.out = d0.out ++ p.replay.map wire ∧ (portOf d n).replay = p.replay ∧ (portOf d n).replays = p.replays + 1 ∧
      Touches (fun a => a = tx ∨ a = (Reg.TL_REPLAY_CNT n).addr) d0 d)) ∧
    (up → p.replay ≠ [] → gf d0 (Reg.TL_RETRY n) F.TL_RETRY_MAX < p.replays + 1 → Completes (.tlReplayTimeout n) s (fun d =>
      portState d n = 1 ∧ cnt Reg.TL_REPLAY_CNT d ∧ cnt Reg.TL_RETRAIN_CNT d ∧ (portOf d n).replay = p.replay ∧
      Touches (fun a => a = (Reg.TL_STAT n).addr ∨ a = (Reg.TL_REPLAY_CNT n).addr ∨ a = (Reg.TL_RETRAIN_CNT n).addr) d0 d)) ∧
    (¬ up ∨ p.replay = [] → Completes (.tlReplayTimeout n) s (fun d => d = d0)) ∧
    (up → Completes (.tlAckTimer n) s (fun d => d.out = d0.out ++ [wire ⟨3, 0, 0, 0, 0, []⟩] ∧
      (rd d (Reg.TL_TX_FLITS n)).toNat = min ((rd d0 (Reg.TL_TX_FLITS n)).toNat + 1) (2 ^ 64 - 1) ∧ Touches (fun a => a = tx) d0 d)) ∧
    (up → flat → p.replay.length < 256 →
      let data := leBytes 8 (rd d0 Reg.IMG_FP).toNat ++ leBytes 4 (rd d0 Reg.IMG_FP_SEQ).toNat ++ leBytes 2 (devId d0) ++ leBytes 1 n ++ List.replicate 17 0
      Completes (.tlIdleInsert n) s (kept 2 ⟨0, data, checkSymbols data, 1⟩)) ∧
    (∀ v id f, v < 16 → routeByDst d0 (epMk 3 n v) = some id → mget d0.fifos id = some f →
      (up → flat → p.replay.length < 256 → f.stall = false → (∀ x, mget f.dsts 0 = some x → f.rel ≤ x.pres) →
        Completes (.tlVcIdleSend n v) s (kept 1 ⟨v, idleItem d0 id f, checkSymbols (idleItem d0 id f), 17⟩)) ∧
      (¬ up ∨ f.stall = true → Completes (.tlVcIdleSend n v) s (fun d => d = d0))) ∧
    (∀ v, v < 16 → routeByDst d0 (epMk 3 n v) = none → Completes (.tlVcIdleSend n v) s (fun d => d = d0)) ∧
    (¬ up → Completes (.tlAckTimer n) s (fun d => d = d0) ∧ Completes (.tlIdleInsert n) s (fun d => d = d0)) ∧
    (∀ t q d1, t < 65536 → mget d0.links.reqs t = some q → q.sent = true → q.msg.kind = 0x11 →
      sendMsg q.msg { d0 with links := { d0.links with reqs := mput d0.links.reqs t { q with sent := true } } } = (true, d1) →
      Completes (.watchRetry t) s (fun d => d = d1)) ∧
    (∀ t, t < 65536 → (∀ q, mget d0.links.reqs t = some q → q.sent = false ∨ q.msg.kind ≠ 0x11) → Completes (.watchRetry t) s (fun d => d = d0))

/-- READ, WRITE, READ_RSP, WRITE_ACK, ERR_RSP, SYNC_OP, WATCH, NOTIFY and STREAM for this device. A READ of at most 64 clean granules of main
memory is answered with READ_RSP and what stands there; a WRITE of the aligned bytes of one granule that its enables select stores exactly
those bytes and is answered with WRITE_ACK. READ_RSP and WRITE_ACK give the master that waits on their TAG its bytes or its completion,
and ERR_RSP a bus error of cause REMOTE; the TAG is then free; a TAG that nothing waits on changes nothing. SYNC_OP performs its operation
and is answered with WRITE_ACK; at an address of no object it is logged and answered with ERR_RSP of cause UNMAPPED. A WATCH whose wait is
not met takes the first entry; one already met is answered with NOTIFY at once. NOTIFY satisfies the stage's wait. A STREAM item already
delivered is discarded; another joins its channel, into the FIFO of the bound route, or is discarded and counted where none is bound.
(R27, R28, R29, R30, R645, R648, R652, R653, R655, R664, R669) -/
def Obligations.MessagesForThisDeviceAreServed : Prop :=
  ∀ (s : State) (n : Nat) (m : Msg), sysClocked s.dev = true → n < 4 → WellFormed.okMsg m = true →
    let d0 := s.dev
    m.dst = devId d0 →
    let a := m.addr / 32 * 32
    let flat := gb d0 Reg.INTG_FLIP F.INTG_FLIP_ARM = false
    let quiet := fun (d : Dev) => d.regs = d0.regs ∧ d.mem = d0.mem ∧ d.poison = d0.poison ∧ d.errs = d0.errs
    let free := fun (d : Dev) => mget d.links.reqs m.tag = none
    (region m.addr = .dram → heldBefore d0 (0x40 + n) a d0.boot.held.length = false →
      (accessWaits d0 a (32 * m.len) false = false → (∀ i, i < m.len → region (a + 32 * i) = .dram ∧ accessCause d0 (a + 32 * i) 32 false = none ∧
          Clean d0 (a + 32 * i) 32) →
        Completes (.read n m) s (fun d => d = respond m 3 0 ((List.range m.len).map (fun i =>
          ((List.range 32).map (fun k => byteAt d0.mem (a + 32 * i + k)), false))) d0)) ∧
      (∀ bs p lo w, m.data = [(bs, p)] → flat → (w = 1 ∨ w = 2 ∨ w = 4 ∨ w = 8 ∨ w = 32) → lo % w = 0 → lo + w ≤ 32 →
        m.byteEn = (2 ^ w - 1) * 2 ^ lo → accessWaits d0 a 32 true = false → accessCause d0 (a + lo) w true = none → Clean d0 a 32 →
        Completes (.write n m) s (fun d => ∃ e, Stored (a + lo) ((bs.drop lo).take w) p d0 e ∧ (∀ r, rd e r = rd d0 r) ∧ d = respond m 4 0 [] e))) ∧
    (∀ q, mget d0.links.reqs m.tag = some q → (∀ x ∈ d0.links.reqs, x.2.sent = true) →
      (∀ master off len, q.kind = .access master false off len → (∀ g ∈ m.data, g.2 = false) → Completes (.readRsp n m) s (fun d => free d ∧ quiet d ∧
        d.out = d0.out ++ [.busRead master (((m.data.flatMap (fun g => g.1)).drop off).take len)])) ∧
      (∀ master off len, q.kind = .access master true off len → Completes (.writeAck n m) s (fun d => free d ∧ quiet d ∧
        d.out = d0.out ++ [.busWrote master])) ∧
      (∀ master w off len, q.kind = .access master w off len → master < 256 → q.msg.dst < 4096 → q.msg.addr + 64 < 2 ^ 40 → off < 32 →
        Completes (.errRsp n m) s (fun d => free d ∧
          BusErrored 7 master w (2 ^ 52 + q.msg.dst * 2 ^ 40 + q.msg.addr + (if w then 0 else off)) len d0 d)) ∧
      (∀ st i, q.kind = .wait st i → Completes (.notify n m) s (fun d => free d ∧ quiet d ∧
        d.links.waitOk = mput d0.links.waitOk (st * 2 + i) () ∧ d.out = d0.out))) ∧
    (mget d0.links.reqs m.tag = none → ∀ c ∈ [Instr.readRsp n m, .writeAck n m, .errRsp n m, .notify n m], Completes c s (fun d => d = d0)) ∧
    (region m.addr = .sync → Completes (.syncOp n m) s (fun d =>
      d = respond m 4 0 [] (syncOp (0x40 + n) (syncIdx m.addr) (m.spec % 16) m.arg d0))) ∧
    (region m.addr ≠ .sync → Completes (.syncOp n m) s (fun d => d = respond m 5 1 [] (busError 1 (0x40 + n) true m.addr d0)) ∧
      Completes (.watch n m) s (fun d => d = respond m 5 1 [] (busError 1 (0x40 + n) false m.addr d0))) ∧
    (region m.addr = .sync → d0.links.watches = [] → Clean d0 (objAddr (syncIdx m.addr)) 16 →
      let o := objPeek d0 (syncIdx m.addr)
      (objWait o (m.spec % 16) m.arg m.arg = some none → Completes (.watch n m) s (fun d => quiet d ∧ d.out = d0.out ∧
        d.links.watches = [(0, ⟨n, { m with kind := 0x11 }, false⟩)])) ∧
      (∀ d1, objWait o (m.spec % 16) m.arg m.arg = some (some o) →
        sendMsg { kind := 0x12, dst := m.src, src := devId d0, tag := m.tag, master := m.master, cls := 0 } d0 = (true, d1) →
        Completes (.watch n m) s (fun d => d = d1))) ∧
    (∀ g rest, m.data = g :: rest →
      let p := m.spec / 2 ^ 24 % 4
      let ch := m.spec / 65536 % 16
      let fl := m.spec / 2 ^ 20 % 16
      let it : Item := { data := g.1, fin := fl.testBit 1, empty := fl.testBit 2, poison := g.2 || fl.testBit 3 }
      (ackCovers ((portOf d0 p).rxExp + 4095) (m.spec % 65536) = true → Completes (.stream n m) s (fun d => d = d0)) ∧
      (ackCovers ((portOf d0 p).rxExp + 4095) (m.spec % 65536) = false → mgetD (portOf d0 p).rx ch [] = [] →
        (routeBySrc d0 (epMk 4 p ch) = none → Completes (.stream n m) s (fun d =>
          gf d (Reg.TL_DROP_CNT p) F.TL_CRC_CNT_COUNT = min (gf d0 (Reg.TL_DROP_CNT p) F.TL_CRC_CNT_COUNT + 1) 0x7FFFFFFF ∧
          Touches (fun r => r = (Reg.TL_DROP_CNT p).addr) d0 d)) ∧
        (∀ r f, routeBySrc d0 (epMk 4 p ch) = some r → mget d0.fifos r = some f → fifoCanWrite f = true → flat → Completes (.stream n m) s (fun d =>
          (mget d.fifos r).map Fifo.items = some (f.items ++ [it]) ∧ d.mem = d0.mem))))

/-- READ to CENSUS_PART that are for another device are sent on toward it, or refused. A message of any kind whose DST is another device, and
that the routing table can serve, is sent on by its route with its class turned where R634 has it, and nothing else happens. One that no
route serves is counted in TL_ROUTE_ERR; a response is then discarded, and a request is logged as a bus error of cause NO_ROUTE of the
port's master and answered with ERR_RSP of that cause. (R27, R30, R645, R647, R648) -/
def Obligations.MessagesForOthersAreForwarded : Prop :=
  ∀ (s : State) (n : Nat) (m : Msg), sysClocked s.dev = true → n < 4 → WellFormed.okMsg m = true →
    let d0 := s.dev
    m.dst ≠ devId d0 → ∀ c ∈ [(1, Instr.read n m), (2, .write n m), (3, .readRsp n m), (4, .writeAck n m), (5, .errRsp n m), (0x10, .syncOp n m),
        (0x11, .watch n m), (0x12, .notify n m), (0x20, .censusStart n m), (0x21, .censusPart n m), (0x30, .stream n m)],
      let x := turnClass d0 n { m with kind := c.1 }
      (∀ q y, routeHop d0 x = some (q, y) → Completes c.2 s (fun d => d = msgPort q y d0)) ∧
      (routeHop d0 x = none → Completes c.2 s (fun d => ∃ e,
        gf e Reg.TL_ROUTE_ERR F.TL_ROUTE_ERR_COUNT = min (gf d0 Reg.TL_ROUTE_ERR F.TL_ROUTE_ERR_COUNT + 1) 0x7FFFFFFF ∧
        Touches (fun a => a = Reg.TL_ROUTE_ERR.addr) d0 e ∧
        (isResponse c.1 = true → d = e) ∧
        (isResponse c.1 = false → d = respond m 5 6 [] (busError 6 (0x40 + n) (c.1 == 2) (2 ^ 52 + m.dst * 2 ^ 40 + m.addr) e))))

/-- CENSUS_START, CENSUS_PART and CENSUS_CHILD_TIMEOUT for this device. A START while this hub takes part in a census is answered with a
CENSUS_PART of status 1 and the identities. Otherwise, at a device with no children, the five cells take this device's fingerprint and
count 1 and release, and CENSUS_PART with them goes to the sender; at one with children the hub takes part, BUSY, until their parts come.
A PART from a device that is no child changes nothing; a poisoned one from a child is consumed; another is contributed to the five cells,
a BUSY status is kept, and the hub's part ends once the cells have released. When the wait for children ends: a hub with a parent leaves
the census and sends the cells' current values up; the initiator leaves it, writes the least and greatest halves to SYNC_CENSUS_MIN and
MAX, the count and the first code that applies (0xE2 busy, 0xE0 differing, 0xE1 too few) and completes its command with that code; with no
census nothing changes. (R646, R675, R676, R677, R678, R679, R680) -/
def Obligations.CensusesCollectTheFingerprints : Prop :=
  ∀ (s : State) (n : Nat) (m : Msg), sysClocked s.dev = true → n < 4 → WellFormed.okMsg m = true →
    let d0 := s.dev
    m.dst = devId d0 →
    let part := fun (dst st : Nat) (ws : List Nat) => censusSend 0x21 dst st [(padTo 32 0 (ws.flatMap (leBytes 4)), false)]
    let hi := (rd d0 Reg.IMG_FP).toNat / 2 ^ 32
    let lo := (rd d0 Reg.IMG_FP).toNat % 2 ^ 32
    let stat := Reg.SYNC_CENSUS_STAT.addr
    let busy := fun (d : Dev) => gb d Reg.SYNC_CENSUS_STAT F.SYNC_CENSUS_STAT_BUSY
    let kids := censusChildren d0 (m.spec % 4096)
    (d0.links.census ≠ none → Completes (.censusStart n m) s (fun d => d = part m.src 1 [0xFFFFFFFF, 0, 0xFFFFFFFF, 0, 0] d0)) ∧
    (d0.links.census = none → d0.links.watches = [] → d0.tm.objs = [] → gb d0 Reg.INTG_FLIP F.INTG_FLIP_ARM = false → Clean d0 (objAddr 0xFFF0) 96 →
      (kids = [] → Completes (.censusStart n m) s (fun d => ∃ e, e.links.census = none ∧ busy e = false ∧ (∀ r : Reg, r.addr ≠ stat → rd e r = rd d0 r) ∧
        e.out = d0.out ∧ (∀ i, i < 5 → (objPeek e (0xFFF0 + i)).aux = [hi, hi, lo, lo, 1].getD i 0 ∧ (objPeek e (0xFFF0 + i)).gen = 1) ∧
        d = part m.src 0 [hi, hi, lo, lo, 1] e)) ∧
      (kids ≠ [] → (∀ k ∈ kids, ∃ y, routeHop d0 { kind := 0x20, dst := k, src := devId d0, master := 0x23, spec := m.spec % 4096 } = some y) →
        Completes (.censusStart n m) s (fun d => busy d = true ∧
          d.links.census = some { init := m.spec % 4096, parent := some m.src, children := kids }))) ∧
    (∀ c bs bad rest, m.data = (bs, bad) :: rest → d0.links.census = some c →
      (m.src ∉ c.children → Completes (.censusPart n m) s (fun d => d = d0)) ∧
      (m.src ∈ c.children → bad = true → Completes (.censusPart n m) s (fun d =>
        gb d Reg.SYNC_STAT F.SYNC_STAT_POISON_OP = true ∧ gf d Reg.SYNC_STAT F.SYNC_STAT_OBJ = 0xFFF0 ∧ d.links.census = some c ∧
        Touches (fun a => a = Reg.SYNC_STAT.addr ∨ a = Reg.INTG_PC_CNT.addr ∨ a = Reg.INTG_PC_STAT.addr ∨ a = Reg.INTG_PC_INFO.addr ∨
          a = Reg.INTG_PC_ADDR.addr) d0 d)) ∧
      (m.src ∈ c.children → bad = false → Completes (.censusPart n m) s (fun d => ∃ e,
        e = (List.range 5).foldl (fun d i => syncOp (0x40 + n) (0xFFF0 + i) 5 (leNat ((bs.drop (4 * i)).take 4)) d)
          (setLinks { d0.links with census := some { c with busy := c.busy || m.spec.testBit 0 } } d0) ∧
        ((∃ i, i < 5 ∧ (objPeek e (0xFFF0 + i)).gen = 0) → d = e) ∧
        ((∀ i, i < 5 → (objPeek e (0xFFF0 + i)).gen ≠ 0) → ∃ c', e.links.census = some c' ∧ d = censusEnd c' e)))) ∧
    (d0.links.census = none → Completes (.censusPart n m) s (fun d => d = d0) ∧ Completes .censusChildTimeout s (fun d => d = d0)) ∧
    (∀ c, d0.links.census = some c →
      let w := fun i => let o := objPeek d0 (0xFFF0 + i); if o.gen ≠ 0 then o.aux else o.value
      let want := if c.expect = 0 then torusRows d0 * torusCols d0 else c.expect
      let code := if c.busy then 0xE2 else if w 0 ≠ w 1 ∨ w 2 ≠ w 3 then 0xE0 else if w 4 < want then 0xE1 else 0
      (∀ p, c.parent = some p → Completes .censusChildTimeout s (fun d => ∃ e, e.links.census = none ∧ busy e = false ∧
        Touches (fun a => a = stat) d0 e ∧ d = part p (bit c.busy) [w 0, w 1, w 2, w 3, w 4] e)) ∧
      (∀ h, c.parent = none → c.cmd = some h → Completes .censusChildTimeout s (fun d => ∃ e, e.links.census = none ∧ busy e = false ∧
        Touches (fun a => a = stat ∨ a = Reg.SYNC_CENSUS_MIN.addr ∨ a = Reg.SYNC_CENSUS_MAX.addr) d0 e ∧
        (rd e Reg.SYNC_CENSUS_MIN).toNat = w 0 * 2 ^ 32 + w 2 ∧ (rd e Reg.SYNC_CENSUS_MAX).toNat = w 1 * 2 ^ 32 + w 3 ∧
        gf e Reg.SYNC_CENSUS_STAT F.SYNC_CENSUS_STAT_CODE = code ∧ gf e Reg.SYNC_CENSUS_STAT F.SYNC_CENSUS_STAT_COUNT = min (w 4) 4096 ∧
        d = finish h code 0 0 e)))

/-- COUNTER_ADD, SEMAPHORE_RELEASE, BARRIER_ARRIVE, EVENT_FLAG_SET, REDUCTION_CONTRIBUTE, SYNC_TRY_ACQUIRE, SYNC_FIELD_STORE and
SYNC_PAIR_WRITE. For object n in a clean granule, with no watch held, no window placed and no flip armed. An operation on an object of its
type stores exactly its new words and changes no register: a counter or semaphore adds ARG to VALUE; a barrier adds 1, or at PARAM clears
VALUE and steps GEN; a flag takes ARG bit 0; a reduction cell folds ARG by the operation of PARAM, counting, or at its participant count
moves the result to AUX, takes the identity and steps GEN. A sum above 0xFFFFFFFF saturates VALUE, sets the object's OVF,
SYNC_STAT.OVF_SEEN and OBJ, counts once and raises source 115. Another type sets TYPE_ERR and OBJ and raises 116; a poisoned object sets
POISON_OP and OBJ, counts one consumption and raises 109: memory is unchanged. A try-acquire delivers 1 above VALUE and takes one unit, or
delivers VALUE; on another type it reads. A 32-bit write at 0x4, 0x8 or 0xC and a pair write store exactly what they are given. (R38,
R661, R662, R663, R665, R666, R667, R670, R671) -/
def Obligations.ObjectsTakeTheirOperations : Prop :=
  ∀ (s : State) (master n arg : Nat), sysClocked s.dev = true → master < 256 → n < 65536 → arg < 2 ^ 32 →
    let d0 := s.dev
    let o := objPeek d0 n
    d0.links.watches = [] → d0.tm.objs = [] → gb d0 Reg.INTG_FLIP F.INTG_FLIP_ARM = false →
    let becomes := fun (q : SyncObj) (d : Dev) => Stored (objAddr n) (objBytes q) false d0 d ∧ (∀ r, rd d r = rd d0 r) ∧ d.out = d0.out
    let same := fun (d : Dev) => ∀ r, rd d r = rd d0 r
    let reported := fun (f : Fld) (src : Nat) (d : Dev) => gb d Reg.SYNC_STAT f = true ∧ gf d Reg.SYNC_STAT F.SYNC_STAT_OBJ = n ∧ icPending d src = true
    let saturates := fun (d : Dev) => Stored (objAddr n) (objBytes { o with
        value := 0xFFFFFFFF, status := setBit o.status 31 true }) false d0 d ∧ reported F.SYNC_STAT_OVF_SEEN 115 d ∧
      gf d Reg.SYNC_OVF_CNT F.SYNC_OVF_CNT_COUNT = min (gf d0 Reg.SYNC_OVF_CNT F.SYNC_OVF_CNT_COUNT + 1) 0x7FFFFFFF ∧
      (∀ r : Reg, r.addr ≠ Reg.SYNC_STAT.addr → r.addr ≠ Reg.SYNC_OVF_CNT.addr → ¬ raised r.addr → rd d r = rd d0 r)
    let adds := fun (c : Instr) => o.ovf = false →
      (o.value + arg ≤ 0xFFFFFFFF → Completes c s (becomes { o with value := o.value + arg })) ∧
      (0xFFFFFFFF < o.value + arg → Completes c s saturates)
    (Clean d0 (objAddr n) 16 →
      (o.type = 0 → adds (.counterAdd master n arg)) ∧ (o.type = 1 → adds (.semaphoreRelease master n arg)) ∧
      (o.type = 2 → (o.value + 1 < o.param → Completes (.barrierArrive master n) s (becomes { o with value := o.value + 1 })) ∧
        (o.param ≤ o.value + 1 → Completes (.barrierArrive master n) s (becomes { o with
          value := 0, status := statusMk o.ovf 2 o.count (o.gen + 1) }))) ∧
      (o.type = 3 → Completes (.eventFlagSet master n arg) s (becomes { o with value := arg % 2 })) ∧
      (∀ op k v, o.type = 4 → o.param = op * 2 ^ 28 + k → op ≤ 5 → 1 ≤ k → k ≤ 4096 → o.ovf = false → (op = 0 → o.value + arg ≤ 0xFFFFFFFF) →
        v = ([o.value + arg, min o.value arg, max o.value arg, o.value &&& arg, o.value ||| arg, o.value ^^^ arg].getD op 0) →
        (o.count + 1 < k → Completes (.reductionContribute master n arg) s (becomes { o with
          value := v, status := statusMk false 4 (o.count + 1) o.gen })) ∧
        (k ≤ o.count + 1 → Completes (.reductionContribute master n arg) s (becomes { o with
          aux := v, value := (if op = 1 ∨ op = 3 then 0xFFFFFFFF else 0), status := statusMk false 4 0 (o.gen + 1) }))) ∧
      (∀ c ∈ [(0, Instr.counterAdd master n arg), (1, .semaphoreRelease master n arg), (2, .barrierArrive master n),
          (3, .eventFlagSet master n arg), (4, .reductionContribute master n arg)], o.type ≠ c.1 → Completes c.2 s (fun d =>
        reported F.SYNC_STAT_TYPE_ERR 116 d ∧ Touches (fun a => a = Reg.SYNC_STAT.addr) d0 d)) ∧
      (let read := fun (v : Nat) (d : Dev) => d.out = d0.out ++ [.busRead master (leBytes 8 v)] ∧ same d
       (o.type = 1 → o.ovf = false → 1 ≤ o.value → Completes (.syncTryAcquire master n) s (fun d => read (2 ^ 32 + o.value) d ∧
         Stored (objAddr n) (objBytes { o with value := o.value - 1 }) false d0 d)) ∧
       (o.type = 1 → o.value = 0 → Completes (.syncTryAcquire master n) s (fun d => read 0 d ∧ d.mem = d0.mem)) ∧
       (o.type ≠ 1 → Completes (.syncTryAcquire master n) s (fun d => read (o.value + 2 ^ 32 * o.param) d ∧ d.mem = d0.mem))) ∧
      (∀ off, off = 4 ∨ off = 8 ∨ off = 12 → Completes (.syncFieldStore n off arg) s (fun d =>
        Stored (objAddr n + off) (leBytes 4 arg) false d0 d ∧ same d)) ∧
      (∀ m bs p, n = 2 * m → bs.length = 32 → Completes (.syncPairWrite m bs p) s (fun d => Stored (objAddr n) bs p d0 d ∧ same d))) ∧
    (poisoned d0 (objAddr n / 32) = true → errOf d0 (objAddr n / 32) = [] → ∀ c ∈ [Instr.counterAdd master n arg,
        .semaphoreRelease master n arg, .barrierArrive master n, .eventFlagSet master n arg, .reductionContribute master n arg],
      Completes c s (fun d => gb d Reg.SYNC_STAT F.SYNC_STAT_POISON_OP = true ∧ gf d Reg.SYNC_STAT F.SYNC_STAT_OBJ = n ∧ icPending d 109 = true ∧
        gf d Reg.INTG_PC_CNT F.INTG_PC_CNT_COUNT = min (gf d0 Reg.INTG_PC_CNT F.INTG_PC_CNT_COUNT + 1) 0x7FFFFFFF ∧
        Touches (fun a => a = Reg.SYNC_STAT.addr ∨ a = Reg.INTG_PC_CNT.addr ∨ a = Reg.INTG_PC_STAT.addr ∨ a = Reg.INTG_PC_INFO.addr ∨
          a = Reg.INTG_PC_ADDR.addr) d0 d))

/-- IC_SETPEND, IC_CLRPEND, IC_VECTOR_ACCEPT, IC_EOI and IC_EN_WRITE: pending and active states of sources. While the IC does not take its
wakes: IC_SETPEND of a source sets its pending bit, and IC_CLRPEND clears it (unless the source is raised in the same cycle), and no other
source's; an ID above 511 sets BAD_ID and no pending bit. A core in an entry sequence that accepts goes to VBAR + 64 times the ID
presented; the source's pending bit clears (stays, if raised in the same cycle), it becomes active on the core, and a ONESHOT source is
disabled and AM_SEQ steps; ID 1023 is counted as spurious and leaves the sequence. With no entry sequence nothing changes. IC_EOI of a
source active on the core ends its active state and changes no register; of ID 1023 nothing changes; of another ID EOI_ERR is set. A write
of IC_EN stores every bit of its word and changes nothing else; where a core accepts a ONESHOT source of the word in the same cycle,
MASK_RACE and its ID are set and the bits stored stand. (R683, R689, R690, R691, R692, R695, R696, R697) -/
def Obligations.InterruptsAreTakenAndEnded : Prop :=
  ∀ (s : State) (c id m v : Nat) (q : Bool), sysClocked s.dev = true → c < 8 → id < 1024 → m < 16 → v < 2 ^ 32 →
    let d0 := s.dev
    let others := fun (d : Dev) => ∀ k, k < 512 → k ≠ id → icPending d k = icPending d0 k
    let err := fun (f : Fld) (d : Dev) => gb d Reg.IC_STAT f = true ∧ (∀ r : Reg, r.addr ≠ Reg.IC_STAT.addr → rd d r = rd d0 r) ∧ d.ic = d0.ic
    let p := icHppi d0 c
    d0.pmu.icAcc = false →
    (id ≤ 511 → Completes (.icSetpend id) s (fun d => icPending d id = true ∧ others d ∧ Touches (fun _ => False) d0 d)) ∧
    (id ≤ 511 → Completes (.icClrpend id q) s (fun d => icPending d id = q ∧ others d ∧ Touches (fun _ => False) d0 d)) ∧
    (511 < id → Completes (.icSetpend id) s (err F.IC_STAT_BAD_ID) ∧ Completes (.icClrpend id q) s (err F.IC_STAT_BAD_ID)) ∧
    (d0.ic.entry.testBit c = false → Completes (.icVectorAccept c q) s (fun d => d = d0)) ∧
    (d0.ic.entry.testBit c = true →
      (p = 1023 → Completes (.icVectorAccept c q) s (fun d => d.out = d0.out ++ [.vector c ((rd d0 (Reg.IC_VBAR c)).toNat + 64 * 1023)] ∧
        gf d (Reg.IC_SPUR c) F.IC_SPUR_COUNT = min (gf d0 (Reg.IC_SPUR c) F.IC_SPUR_COUNT + 1) 0x7FFFFFFF ∧ d.ic.act = d0.ic.act ∧
        Touches (fun a => a = (Reg.IC_SPUR c).addr) d0 d)) ∧
      (p < 512 → Completes (.icVectorAccept c q) s (fun d => d.out = d0.out ++ [.vector c ((rd d0 (Reg.IC_VBAR c)).toNat + 64 * p)] ∧
        icPending d p = q ∧ d.ic.act = mput d0.ic.act p c ∧ (∀ k, k < 512 → k ≠ p → icPending d k = icPending d0 k) ∧
        (gb d0 (Reg.IC_SRCCFG p) F.IC_SRCCFG_ONESHOT = true → icEnabled d p = false ∧
          gf d Reg.IC_AM_SEQ F.IC_AM_SEQ_SEQ = (gf d0 Reg.IC_AM_SEQ F.IC_AM_SEQ_SEQ + 1) % 2 ^ 32) ∧
        (gb d0 (Reg.IC_SRCCFG p) F.IC_SRCCFG_ONESHOT = false → icEnabled d p = icEnabled d0 p ∧ rd d Reg.IC_AM_SEQ = rd d0 Reg.IC_AM_SEQ) ∧
        Touches (fun a => a = (Reg.IC_EN (p / 32)).addr ∨ a = Reg.IC_AM_SEQ.addr) d0 d))) ∧
    (id = 1023 → Completes (.icEoi c id) s (fun d => d = d0)) ∧
    (id ≠ 1023 → mget d0.ic.act id = some c → Completes (.icEoi c id) s (fun d => d.ic.act = mdel d0.ic.act id ∧ d.regs = d0.regs ∧ d.out = d0.out)) ∧
    (id ≠ 1023 → mget d0.ic.act id ≠ some c → Completes (.icEoi c id) s (err F.IC_STAT_EOI_ERR)) ∧
    (Completes (.icEnWrite m v none) s (fun d => (rd d (Reg.IC_EN m)).toNat = v ∧ d.ic.act = d0.ic.act ∧
      ∀ r : Reg, r.addr ≠ (Reg.IC_EN m).addr → rd d r = rd d0 r)) ∧
    (d0.ic.entry.testBit c = true → p < 512 → gb d0 (Reg.IC_SRCCFG p) F.IC_SRCCFG_ONESHOT = true → p / 32 = m →
      Completes (.icEnWrite m v (some c)) s (fun d => (rd d (Reg.IC_EN m)).toNat = v ∧ gb d Reg.IC_STAT F.IC_STAT_MASK_RACE = true ∧
        gf d Reg.IC_STAT F.IC_STAT_RACE_ID = p ∧ d.ic.act = mput d0.ic.act p c ∧ icPending d p = false))

/-- PMU_REQUEST_ENTRY, PMU_REQUEST_EXIT, AUTO_IDLE_ENTRY and AUTO_RUN_EXIT: what a power request starts. With PD_SYS clocked. A request for a
deeper state, no transition running and no wake pending, sets BUSY and PHASE 1, records TARGET, clears the agents' answers and asks in
round 1 the agents of R714; AUTO_IDLE_ENTRY does so for IDLE when AUTO_IDLE is set in RUN with no batch and no firing. A request while
BUSY only sets REQ_REJ; one that is neither deeper nor RUN ends with LAST 6; one with a wake pending ends with LAST 1 and raises source
34. From IDLE, PMU_REQUEST_EXIT and AUTO_RUN_EXIT (with AUTO_RUN set) enter RUN, raise source 32 and, no tier operation waiting, write
nothing but PMU_STAT. (R710, R711, R712, R714, R715, R728, R732) -/
def Obligations.PowerRequests : Prop :=
  ∀ s : State, sysClocked s.dev = true →
    let entered := fun (target : Nat) (d : Dev) =>
      gf d Reg.PMU_STAT F.PMU_STAT_BUSY = 1 ∧ gf d Reg.PMU_STAT F.PMU_STAT_PHASE = 1 ∧ gf d Reg.PMU_STAT F.PMU_STAT_TARGET = target ∧
      pmuState d = pmuState s.dev ∧ rd d Reg.PMU_AGENT_ACC = 0 ∧ rd d Reg.PMU_AGENT_DLY = 0 ∧
      (∀ a < 64, d.pmu.asked.testBit a =
        (decide (a < 16) || (decide (2 ≤ target) && decide (a < 36)) || (decide (3 ≤ target) && decide (a < 45) && a != 39))) ∧
      Touches (fun a => a = Reg.PMU_STAT.addr ∨ a = Reg.PMU_AGENT_ACC.addr ∨ a = Reg.PMU_AGENT_DLY.addr) s.dev d
    let resumed := fun (d : Dev) =>
      pmuState d = 0 ∧ pmuTarget d = 0 ∧ gf d Reg.PMU_STAT F.PMU_STAT_LAST = 0 ∧ icPending d 32 = true ∧
      Touches (fun a => a = Reg.PMU_STAT.addr) s.dev d
    (∀ target, pmuBusy s.dev = false → pmuState s.dev < target → target ≤ 4 → rd s.dev Reg.PMU_WAKE_PEND = 0 →
      Completes (.pmuRequestEntry target) s (entered target)) ∧
    (∀ target, pmuBusy s.dev = true → target < 8 → Completes (.pmuRequestEntry target) s (fun d =>
      gf d Reg.PMU_STAT F.PMU_STAT_REQ_REJ = 1 ∧ pmuState d = pmuState s.dev ∧ pmuBusy d = true ∧
      Touches (fun a => a = Reg.PMU_STAT.addr) s.dev d)) ∧
    (∀ target, pmuBusy s.dev = false → target < 8 → 4 < target ∨ (target ≤ pmuState s.dev ∧ target ≠ 0) →
      Completes (.pmuRequestEntry target) s (fun d =>
        gf d Reg.PMU_STAT F.PMU_STAT_LAST = 6 ∧ pmuState d = pmuState s.dev ∧ pmuBusy d = false ∧
        Touches (fun a => a = Reg.PMU_STAT.addr) s.dev d)) ∧
    (∀ target, pmuBusy s.dev = false → pmuState s.dev < target → target ≤ 4 → rd s.dev Reg.PMU_WAKE_PEND ≠ 0 →
      Completes (.pmuRequestEntry target) s (fun d =>
        gf d Reg.PMU_STAT F.PMU_STAT_LAST = 1 ∧ pmuState d = pmuState s.dev ∧ pmuBusy d = false ∧ icPending d 34 = true ∧
        Touches (fun a => a = Reg.PMU_STAT.addr ∨ a = Reg.PMU_WAKE_CAUSE.addr) s.dev d)) ∧
    (gb s.dev Reg.PMU_CTL F.PMU_CTL_AUTO_IDLE = true → pmuRun s.dev = true → s.dev.engs.stages = [] →
      (∀ p < 64, (pipeSt s.dev p).batches = []) → rd s.dev Reg.PMU_WAKE_PEND = 0 → Completes .autoIdleEntry s (entered 1)) ∧
    (pmuState s.dev = 1 → pmuBusy s.dev = false → s.dev.tm.ops = [] → Completes .pmuRequestExit s resumed) ∧
    (gb s.dev Reg.PMU_CTL F.PMU_CTL_AUTO_RUN = true → pmuState s.dev = 1 → pmuBusy s.dev = false → s.dev.tm.ops = [] →
      Completes .autoRunExit s resumed)

/-- AGENT_ANSWER and PMU_HANDSHAKE_TIMEOUT: accept, delay, refuse, commit and give up. For an agent that is asked and has not accepted: busy
cores delay, which sets only their bit of PMU_AGENT_DLY; cores that accept set their bit of PMU_AGENT_ACC, clear that of PMU_AGENT_DLY and
wait for power; the last accept of round 1 of a SLEEP or DEEP entry asks main memory in round 2; the last accept of an IDLE entry, here by
an engine that is off, commits: STATE 1, BUSY and PHASE 0, LAST 0, source 32 raised; a running load that R365 does not adjourn refuses:
LAST 3 names the agent, source 33 is raised and the entry ends. PMU_HANDSHAKE_TIMEOUT ends it with LAST 4 and the lowest agent that has
not accepted. The last two hold with no tier operation waiting. (R714, R715, R717, R718, R723) -/
def Obligations.AgentsAnswerAndTimeOut : Prop :=
  ∀ s : State, sysClocked s.dev = true →
    let asks := fun a => agentAsked s.dev a = true ∧ agentAcc s.dev a = false
    let all := fun a => rd (sf Reg.PMU_AGENT_ACC ⟨a, 1⟩ 1 s.dev) Reg.PMU_AGENT_ACC = BitVec.ofNat 64 s.dev.pmu.asked
    let answered := fun a (d : Dev) => (rd d Reg.PMU_AGENT_ACC).getLsbD a = true ∧ (rd d Reg.PMU_AGENT_DLY).getLsbD a = false
    let ended := fun last a (d : Dev) => pmuBusy d = false ∧ gf d Reg.PMU_STAT F.PMU_STAT_PHASE = 0 ∧
      pmuState d = pmuState s.dev ∧ gf d Reg.PMU_STAT F.PMU_STAT_LAST = last ∧ gf d Reg.PMU_STAT F.PMU_STAT_AGENT = a ∧
      icPending d 33 = true ∧ Touches (fun _ => False) s.dev d
    (asks 38 → Completes (.agentAnswer 38 true) s (fun d => (rd d Reg.PMU_AGENT_DLY).getLsbD 38 = true ∧
      Touches (fun a => a = Reg.PMU_AGENT_DLY.addr) s.dev d)) ∧
    (asks 38 → ¬ all 38 → Completes (.agentAnswer 38 false) s (fun d => answered 38 d ∧ pmuBusy d = true ∧
      gf d Reg.CPU_STAT F.CPU_STAT_WFP = gf s.dev Reg.CPU_STAT F.CPU_STAT_RUN ∧ gf d Reg.CPU_STAT F.CPU_STAT_RUN = 0 ∧
      Touches (fun a => a = Reg.PMU_AGENT_DLY.addr ∨ a = Reg.PMU_AGENT_ACC.addr) s.dev d)) ∧
    (asks 38 → all 38 → 3 ≤ pmuTarget s.dev → s.dev.pmu.round2 = false → Completes (.agentAnswer 38 false) s (fun d =>
      answered 38 d ∧ pmuBusy d = true ∧ gf d Reg.PMU_STAT F.PMU_STAT_PHASE = 2 ∧ d.pmu.asked = s.dev.pmu.asked + 2 ^ 39 ∧
      Touches (fun a => a = Reg.PMU_AGENT_DLY.addr ∨ a = Reg.PMU_AGENT_ACC.addr) s.dev d)) ∧
    (∀ a < 16, asks a → all a → pmuTarget s.dev = 1 → engState s.dev a = 0 → Completes (.agentAnswer a false) s (fun d =>
      answered a d ∧ pmuState d = 1 ∧ pmuBusy d = false ∧ gf d Reg.PMU_STAT F.PMU_STAT_PHASE = 0 ∧
      gf d Reg.PMU_STAT F.PMU_STAT_LAST = 0 ∧ icPending d 32 = true ∧
      Touches (fun a => a = Reg.PMU_AGENT_DLY.addr ∨ a = Reg.PMU_AGENT_ACC.addr) s.dev d)) ∧
    (∀ r, asks 35 → s.dev.le.run = some r → r.adj = 0 → s.dev.tm.ops = [] → Completes (.agentAnswer 35 false) s (ended 3 35)) ∧
    (∀ a < 45, pmuBusy s.dev = true → asks a → (∀ b < a, s.dev.pmu.asked.testBit b = true → agentAcc s.dev b = true) → s.dev.tm.ops = [] →
      Completes .pmuHandshakeTimeout s (ended 4 a))

/-- Wake sources, calibration, the always-on clock, alarms and domain faults. In RUN, IDLE or NAP with no transition, a wake source enabled in
PMU_WAKE_EN sets its bit of PMU_WAKE_PEND and one that is not enabled does nothing (GPIO0 to GPIO3, which also set GPIO_IRQ_STAT, apart).
AON_CALIBRATE sets BUSY; AON_CAL_DONE writes the two ratios, each the count times 2^32 over WINDOW to the nearest integer, sets RC_CAL and
clears BUSY. A fallback records AON_TIME, counts, sets SRC and SRC_CHANGED and raises source 35; RETRY waits for a stable crystal, which
clears SRC, and ends the RC start of a power-on. An armed alarm whose time is reached fires: ARM 0, FIRED 1, source 36 + n. A domain fault
(not of an engine) is logged while the log is empty, sets OVER otherwise, and raises source 40. Each writes nothing else. (R726, R727,
R738, R739, R741, R742, R744) -/
def Obligations.WakesClockAndFaults : Prop :=
  ∀ s : State,
    let calm := pmuBusy s.dev = false ∧ pmuState s.dev ≠ 3 ∧ pmuState s.dev ≠ 4
    (∀ src < 15, calm → src < 9 ∨ 13 ≤ src → (rd s.dev Reg.PMU_WAKE_EN).getLsbD src = true → Completes (.wakeSource src) s (fun d =>
      (rd d Reg.PMU_WAKE_PEND).getLsbD src = true ∧ Touches (fun _ => False) s.dev d)) ∧
    (∀ src < 15, calm → src < 9 ∨ 13 ≤ src → (rd s.dev Reg.PMU_WAKE_EN).getLsbD src = false → Completes (.wakeSource src) s (fun d => d = s.dev)) ∧
    (gb s.dev Reg.AON_CAL F.AON_CAL_BUSY = false → s.dev.pmu.clkRef = true → Completes .aonCalibrate s (fun d =>
      gb d Reg.AON_CAL F.AON_CAL_BUSY = true ∧ Touches (fun a => a = Reg.AON_CAL.addr) s.dev d)) ∧
    (∀ xtal rc, xtal < 2 ^ 32 → rc < 2 ^ 32 → gb s.dev Reg.AON_CAL F.AON_CAL_BUSY = true → 0 < gf s.dev Reg.AON_CAL F.AON_CAL_WINDOW →
      Completes (.aonCalDone xtal rc) s (fun d =>
        let near := fun (count : Nat) (r : Reg) => ∃ q, rd d r = BitVec.ofNat 64 q ∧
          2 * (2 ^ 32 * count) ≤ (2 * q + 1) * gf s.dev Reg.AON_CAL F.AON_CAL_WINDOW ∧
          2 * q * gf s.dev Reg.AON_CAL F.AON_CAL_WINDOW ≤ 2 * (2 ^ 32 * count) + gf s.dev Reg.AON_CAL F.AON_CAL_WINDOW
        near xtal Reg.AON_RATIO ∧ near rc Reg.AON_RC_RATIO ∧ gb d Reg.TIME_STAT F.TIME_STAT_RC_CAL = true ∧
        gb d Reg.AON_CAL F.AON_CAL_BUSY = false ∧
        Touches (fun a => a = Reg.AON_CAL.addr ∨ a = Reg.TIME_STAT.addr ∨ a = Reg.AON_RATIO.addr ∨ a = Reg.AON_RC_RATIO.addr) s.dev d)) ∧
    (calm → gb s.dev Reg.TIME_STAT F.TIME_STAT_SRC = false → s.dev.pmu.rcStart = false → Completes .aonClockFallback s (fun d =>
      rd d Reg.AON_FB_AT = rd s.dev Reg.AON_TIME ∧ gb d Reg.TIME_STAT F.TIME_STAT_SRC = true ∧
      gb d Reg.TIME_STAT F.TIME_STAT_SRC_CHANGED = true ∧
      gf d Reg.AON_CLK F.AON_CLK_FB_COUNT = min (gf s.dev Reg.AON_CLK F.AON_CLK_FB_COUNT + 1) 0xFFFF ∧ icPending d 35 = true ∧
      Touches (fun a => a = Reg.AON_FB_AT.addr ∨ a = Reg.TIME_STAT.addr ∨ a = Reg.AON_CLK.addr) s.dev d)) ∧
    (gb s.dev Reg.TIME_STAT F.TIME_STAT_SRC = true → Completes .aonClockRetry s (fun d =>
      d.pmu.retry = true ∧ Touches (fun _ => False) s.dev d)) ∧
    (s.dev.pmu.rcStart = true → Completes .aonCrystalStable s (fun d => d.pmu.rcStart = false ∧ Touches (fun _ => False) s.dev d)) ∧
    (s.dev.pmu.rcStart = false → s.dev.pmu.retry = true → Completes .aonCrystalStable s (fun d =>
      gb d Reg.TIME_STAT F.TIME_STAT_SRC = false ∧ d.pmu.retry = false ∧ Touches (fun a => a = Reg.TIME_STAT.addr) s.dev d)) ∧
    (∀ n < 4, calm → gf s.dev (Reg.AON_ALARM_CTL n) F.AON_ALARM_CTL_ARM = 1 → (rd s.dev (Reg.AON_ALARM n)).toNat ≤ aonTime s.dev →
      Completes (.aonAlarm n) s (fun d => gf d (Reg.AON_ALARM_CTL n) F.AON_ALARM_CTL_ARM = 0 ∧
        gf d (Reg.AON_ALARM_CTL n) F.AON_ALARM_CTL_FIRED = 1 ∧ icPending d (36 + n) = true ∧
        Touches (fun a => a = (Reg.AON_ALARM_CTL n).addr) s.dev d)) ∧
    (∀ dom kind, calm → dom < 16 ∨ (32 ≤ dom ∧ dom < 48) → kind < 2 → Completes (.pmuDomainFault dom kind) s (fun d =>
      gb d Reg.PMU_FAULT F.PMU_FAULT_VALID = true ∧ icPending d 40 = true ∧
      (if gb s.dev Reg.PMU_FAULT F.PMU_FAULT_VALID then gb d Reg.PMU_FAULT F.PMU_FAULT_OVER = true ∧
          gf d Reg.PMU_FAULT F.PMU_FAULT_DOMAIN = gf s.dev Reg.PMU_FAULT F.PMU_FAULT_DOMAIN
        else gf d Reg.PMU_FAULT F.PMU_FAULT_DOMAIN = dom ∧ gf d Reg.PMU_FAULT F.PMU_FAULT_KIND = kind) ∧
      Touches (fun a => a = Reg.PMU_FAULT.addr) s.dev d))

/-- Resets: what each reset event leaves, and where releasing the reset ends. POWER_ON_RESET, SUPPLY_RESET (after a failure of the main
supply), PIN_RESET, JTAG_EXTEST, THERMAL_TRIP, SOFTWARE_RESET with its key and PERST_FALL of an endpoint with PERST_RESET each leave
PD_SYS held in a reset of their type; power-on also resets PD_AON and starts the scoresheet scan; the trip leaves the supply off until a
cool pin reset; a software or PERST_N reset is released at once, as RESET_RELEASE releases it. A wrong key sets REFUSED; PERST_N below a
root complex does nothing, else resets the PCIe block. RESET_RELEASE runs the boot, which ends with the loader started (PHASE 3, every
core released), ready but for DRAM training (PHASE 2), or waiting for a recovery (PHASE 4); while TEST_MODE is high it leaves the device
in reset, and it does nothing while a trip, the supply or JTAG holds the reset. (R16, R205, R741, R745, R754, R756, R757, R764, R801,
R803, R804, R807) -/
def Obligations.ResetsHoldTheDevice : Prop :=
  ∀ s : State,
    Completes .powerOnReset s (fun d => HeldInReset 0 d ∧ gb d Reg.ARB_SCORE_STAT F.ARB_SCORE_STAT_SCANNING = true ∧
      ∀ r : Reg, r.addr ∉ [Reg.KEY_SLOT_STAT.addr, Reg.KEY_BOOT_STAT.addr, Reg.ARB_SCORE_STAT.addr, Reg.FIFO_PIN_STAT.addr] → rd d r = r.reset) ∧
    (s.dev.boot.supplyOff = true → s.dev.boot.thermal = false → Completes .supplyReset s (fun d => HeldInReset 1 d ∧ d.boot.supplyOff = false)) ∧
    (∀ cool, s.dev.boot.thermal = false → Completes (.pinReset cool) s (HeldInReset 3)) ∧
    (s.dev.boot.thermal = true → Completes (.pinReset true) s (fun d => HeldInReset 3 d ∧ d.boot.thermal = false ∧ d.boot.supplyOff = false)) ∧
    (∀ code < 65536, code ≠ 0xB007 → sysClocked s.dev = true → Completes (.softwareReset code) s (fun d =>
      gb d Reg.KEY_STAT F.KEY_STAT_REFUSED = true ∧ Touches (fun a => a = Reg.KEY_STAT.addr) s.dev d)) ∧
    (sysClocked s.dev = true → Completes (.softwareReset 0xB007) s (fun d => ∃ e, HeldInReset 4 e ∧
      exec (.resetRelease ⟨s.dev.part.endpoint, s.dev.boot.testMode⟩) { s with dev := e } = .next { s with dev := d })) ∧
    (s.dev.part.endpoint = false → Completes .perstFall s (fun d => d = s.dev)) ∧
    (s.dev.part.endpoint = true → gb s.dev Reg.KEY_CTL F.KEY_CTL_PERST_RESET = true → Completes .perstFall s (fun d => ∃ e, HeldInReset 5 e ∧
      exec (.resetRelease ⟨true, s.dev.boot.testMode⟩) { s with dev := e } = .next { s with dev := d })) ∧
    (s.dev.part.endpoint = true → gb s.dev Reg.KEY_CTL F.KEY_CTL_PERST_RESET = false → domOn s.dev 4 = true → Completes .perstFall s (fun d =>
      (rd d Reg.PCIE_IRQ_STAT).getLsbD 2 = true ∧ rd d Reg.PCIE_STAT = Reg.PCIE_STAT.reset ∧
      Touches (fun a => Reg.PCIE_CTL.addr ≤ a ∧ a < Reg.PCIE_CTL.addr + 0x10000) s.dev d)) ∧
    (∀ vhold, Completes (.thermalTrip vhold) s (fun d => HeldInReset 1 d ∧ d.boot.thermal = true ∧ d.boot.supplyOff = true ∧ rd d Reg.PMU_DOM_STAT = 1)) ∧
    Completes (.jtagExtest true) s (fun d => HeldInReset 3 d ∧ d.boot.jtag = true) ∧
    (s.dev.boot.jtag = true → Completes (.jtagExtest false) s (fun d => HeldInReset 3 d ∧ d.boot.jtag = false)) ∧
    (∀ strap, s.dev.boot.inReset = false ∨ s.dev.boot.supplyOff = true ∨ s.dev.boot.thermal = true ∨ s.dev.boot.jtag = true →
      Completes (.resetRelease strap) s (fun d => d = s.dev)) ∧
    (∀ strap, strap.test = true → s.dev.boot.inReset = true → s.dev.boot.supplyOff = false → s.dev.boot.thermal = false →
      s.dev.boot.jtag = false → Completes (.resetRelease strap) s (fun d => d.boot = { s.dev.boot with testMode := true } ∧ Touches (fun _ => False) s.dev d)) ∧
    (∀ strap, strap.test = false → s.dev.boot.inReset = true → s.dev.boot.supplyOff = false → s.dev.boot.thermal = false → s.dev.boot.jtag = false →
      Completes (.resetRelease strap) s (fun d =>
        (gf d Reg.KEY_BOOT_STAT F.KEY_BOOT_STAT_PHASE = 2 ∨ gf d Reg.KEY_BOOT_STAT F.KEY_BOOT_STAT_PHASE = 3 ∨
          gf d Reg.KEY_BOOT_STAT F.KEY_BOOT_STAT_PHASE = 4) ∧
        (gf d Reg.KEY_BOOT_STAT F.KEY_BOOT_STAT_PHASE = 3 → rd d Reg.CPU_HOLD = 0 ∧ gf d Reg.CPU_STAT F.CPU_STAT_RUN = 255)))

/-- KEY_FUSE_PROG, KEY_FUSE_REVOKE, KEY_FUSE_RAISE, KEY_FUSE_DONE, KEY_ATTEST and KEY_ATTEST_DONE: each check, its code and its effect. With
PD_SYS clocked. While the fuse unit is busy a fuse GO only sets KEY_STAT.REFUSED. Else PROG of slot 2 or 3 that is neither programmed nor
damaged takes KEY_HASH and runs, and any other slot ends 0xF0; RAISE runs for a LEVEL from the floor to the firmware's major version and
at most 32 (log entry 48), and ends 0xF6 otherwise; REVOKE of a record in clean main memory runs where every check of R770 and R771
passes, and else ends with the first failing code. The end of a fuse operation clears it: one that verified sets the slot's programmed or
revoked bit or the floor with code 0, one that did not ends 0xF7, and a slot's programming then marks it damaged. ATTEST takes the report
or ends 0xF9, or is REFUSED while one is signed; its end writes the report and its signature to KEY_ATT_DST with code 0. Ends without an
operation change nothing. Each touches only the registers named. (R769, R770, R772, R774, R775) -/
def Obligations.FuseAndAttestOperations : Prop :=
  ∀ (s : State), sysClocked s.dev = true →
    let d0 := s.dev
    let stat := Reg.KEY_STAT.addr
    let ctl := Reg.KEY_FUSE_CTL.addr
    let code := fun d => gf d Reg.KEY_STAT F.KEY_STAT_CODE
    let busy := fun d => gb d Reg.KEY_STAT F.KEY_STAT_BUSY
    (d0.keys.fuse ≠ none → ∀ c, (c = .keyFuseRevoke ∨ (∃ k < 4, c = .keyFuseProg k) ∨ ∃ l < 64, c = .keyFuseRaise l) → Completes c s (fun d =>
      gb d Reg.KEY_STAT F.KEY_STAT_REFUSED = true ∧ d.keys = d0.keys ∧ Touches (fun a => a = stat) d0 d)) ∧
    (d0.keys.fuse = none → ∀ k, k = 2 ∨ k = 3 → keyBit d0 k 0 = false → keyBit d0 k 3 = false → Completes (.keyFuseProg k) s (fun d =>
      d.keys.fuse = some ⟨1, k⟩ ∧ mget d.keys.hash k = some ((List.range 8).flatMap (fun i => leBytes 8 (rd d0 (Reg.KEY_HASH i)).toNat)) ∧
      busy d = true ∧ gf d Reg.KEY_FUSE_CTL F.KEY_FUSE_CTL_SLOT = k ∧ Touches (fun a => a = stat ∨ a = ctl) d0 d)) ∧
    (d0.keys.fuse = none → ∀ k < 4, k < 2 ∨ keyBit d0 k 0 = true ∨ keyBit d0 k 3 = true → Completes (.keyFuseProg k) s (fun d =>
      code d = 0xF0 ∧ d.keys = d0.keys ∧ Touches (fun a => a = stat ∨ a = ctl) d0 d)) ∧
    (d0.keys.fuse = none → ∀ l < 64, gf d0 Reg.KEY_SLOT_STAT F.KEY_SLOT_STAT_FLOOR ≤ l → l ≤ 32 →
      l ≤ gf d0 Reg.ARB_FW_VER F.ARB_FW_VER_VERSION / 2 ^ 24 → Completes (.keyFuseRaise l) s (fun d =>
        d.keys.fuse = some ⟨3, l⟩ ∧ busy d = true ∧ Touches (fun a => a = stat ∨ a = ctl) d0 d)) ∧
    (d0.keys.fuse = none → ∀ l < 64, l < gf d0 Reg.KEY_SLOT_STAT F.KEY_SLOT_STAT_FLOOR ∨ 32 < l ∨
      gf d0 Reg.ARB_FW_VER F.ARB_FW_VER_VERSION / 2 ^ 24 < l → Completes (.keyFuseRaise l) s (fun d =>
        code d = 0xF6 ∧ d.keys = d0.keys ∧ Touches (fun a => a = stat ∨ a = ctl) d0 d)) ∧
    (d0.keys.fuse = none → ∀ a, a = (rd d0 Reg.KEY_REC_ADDR).toNat → a < 2 ^ 40 → region a = .dram → accessCause d0 a 324 false = none →
      Clean d0 a 324 → Completes .keyFuseRevoke s (fun d =>
        let b := rawBytes d0 a 324
        (recordCheck d0 b = 0 → d.keys.fuse = some ⟨2, fieldAt b 6 1⟩ ∧ busy d = true) ∧
        (recordCheck d0 b ≠ 0 → code d = recordCheck d0 b % 256 ∧ d.keys = d0.keys) ∧ Touches (fun a => a = stat) d0 d)) ∧
    (∀ f, d0.keys.fuse = some f → f.arg < 4 → Completes (.keyFuseDone true) s (fun d =>
      d.keys.fuse = none ∧ code d = 0 ∧ busy d = d0.keys.att.isSome ∧ (f.kind = 1 → keyBit d f.arg 0 = true) ∧
      (f.kind = 2 → keyBit d f.arg 1 = true) ∧ (f.kind = 3 → gf d Reg.KEY_SLOT_STAT F.KEY_SLOT_STAT_FLOOR = f.arg) ∧
      Touches (fun a => a = stat ∨ a = Reg.KEY_SLOT_STAT.addr) d0 d)) ∧
    (∀ f, d0.keys.fuse = some f → f.arg < 4 → Completes (.keyFuseDone false) s (fun d =>
      d.keys.fuse = none ∧ code d = 0xF7 ∧ (f.kind = 1 → keyBit d f.arg 3 = true) ∧ (f.kind ≠ 1 → rd d Reg.KEY_SLOT_STAT = rd d0 Reg.KEY_SLOT_STAT) ∧
      Touches (fun a => a = stat ∨ a = Reg.KEY_SLOT_STAT.addr) d0 d)) ∧
    (d0.keys.fuse = none → ∀ ok, Completes (.keyFuseDone ok) s (fun d => d = d0)) ∧
    (d0.keys.att = none → Completes .keyAttest s (fun d =>
      (if identityOk d0 then d.keys.att = some (attReport d0) ∧ busy d = true else code d = 0xF9 ∧ d.keys = d0.keys) ∧
      Touches (fun a => a = stat) d0 d)) ∧
    (d0.keys.att ≠ none → Completes .keyAttest s (fun d =>
      gb d Reg.KEY_STAT F.KEY_STAT_REFUSED = true ∧ d.keys = d0.keys ∧ Touches (fun a => a = stat) d0 d)) ∧
    (d0.keys.att = none → Completes .keyAttestDone s (fun d => d = d0)) ∧
    (∀ r a, d0.keys.att = some r → r.length = 380 → a = (rd d0 Reg.KEY_ATT_DST).toNat → a < 2 ^ 40 → region a = .dram →
      accessCause d0 a 512 true = none → Clean d0 a 512 → gb d0 Reg.INTG_FLIP F.INTG_FLIP_ARM = false → Completes .keyAttestDone s (fun d =>
        d.keys.att = none ∧ code d = 0 ∧ busy d = d0.keys.fuse.isSome ∧ Stored a (r ++ attSignature r) false d0 d ∧
        ∀ q : Reg, q.addr ≠ stat → rd d q = rd d0 q))

/-- DDR_TRAIN, DDR_TRAIN_DONE, DDR_TRAIN_TIMEOUT, DDR_INIT_DONE, ARB_BOOT_CFG and KEY_RECOVER: their effects. With PD_SYS clocked. TRAIN with
PD_MEM on and none under way starts training of a legal DDR_CFG, and sets CFG_ERR with its interrupt bit for another; while DRAM trains or
initialises it changes nothing. Training that ends on every channel sets TRAINED, clears FAIL_CH, returns every DRAM byte to its unwritten
value and no other byte; one that ends or times out with a channel failed records FAIL_CH; each sets its interrupt bit, and at loader
entry the cores are released. Initialisation's end with no adapter to read again and no boot record writes SYS_DRAM_TOP and INIT_DONE.
ARB_BOOT_CFG records a CONST_BASE that is 0 or lies on a 16 KiB step with 2 MiB below the top and sets DONE, and sets REJ for another.
KEY_RECOVER waits for PHASE 4: the firmware object in the arbiter's SRAM is checked, and one that fails leaves its code in CODE0. (R33,
R524, R763, R764, R766, R776, R780, R797) -/
def Obligations.DramTrainingAndRecovery : Prop :=
  ∀ (s : State), sysClocked s.dev = true →
    let d0 := s.dev
    let top := Reg.SYS_DRAM_TOP.addr
    let st := Reg.DDR_STAT.addr
    let irq := Reg.DDR_IRQ_STAT.addr
    let told := fun (i : Nat) (d : Dev) => (rd d Reg.DDR_IRQ_STAT).getLsbD i = true ∧
      ((rd d0 Reg.DDR_IRQ_STAT).getLsbD i = false → (rd d0 Reg.DDR_IRQ_EN).getLsbD i = true → icPending d 59 = true)
    let legal := gf d0 Reg.DDR_CFG F.DDR_CFG_CAP ≤ 4 ∧ (gf d0 Reg.DDR_CFG F.DDR_CFG_RANKS = 1 ∨ gf d0 Reg.DDR_CFG F.DDR_CFG_RANKS = 2) ∧
      gf d0 Reg.DDR_CFG F.DDR_CFG_RATE < 3
    (domOn d0 3 = true → d0.boot.ddr = 0 → legal → Completes .ddrTrain s (fun d =>
      d.boot = { d0.boot with ddr := 1 } ∧ gb d Reg.DDR_CTL F.DDR_CTL_TRAIN = true ∧ Touches (fun a => a = Reg.DDR_CTL.addr) d0 d)) ∧
    (domOn d0 3 = true → d0.boot.ddr = 0 → ¬ legal → Completes .ddrTrain s (fun d =>
      gb d Reg.DDR_STAT F.DDR_STAT_CFG_ERR = true ∧ told 1 d ∧ Touches (fun a => a = Reg.DDR_CTL.addr ∨ a = st ∨ a = irq) d0 d)) ∧
    (domOn d0 3 = false ∨ d0.boot.ddr ≠ 0 → Completes .ddrTrain s (fun d => d = d0)) ∧
    (d0.boot.ddr = 1 → ∀ atEntry : Bool, decide (gf d0 Reg.KEY_BOOT_STAT F.KEY_BOOT_STAT_PHASE = 2) = atEntry →
      Completes (.ddrTrainDone 0) s (fun d =>
        d.boot.ddr = 2 ∧ gb d Reg.DDR_STAT F.DDR_STAT_TRAINED = true ∧ gf d Reg.DDR_STAT F.DDR_STAT_FAIL_CH = 0 ∧ told 0 d ∧
        (∀ a, byteAt d.mem a = if dramBase ≤ a ∧ a < 2 * dramBase then memDefault a else byteAt d0.mem a) ∧
        (atEntry = true → rd d Reg.CPU_HOLD = 0 ∧ gf d Reg.CPU_STAT F.CPU_STAT_RUN = 255 ∧ gf d Reg.KEY_BOOT_STAT F.KEY_BOOT_STAT_PHASE = 3) ∧
        (atEntry = false → rd d Reg.CPU_HOLD = rd d0 Reg.CPU_HOLD ∧ rd d Reg.KEY_BOOT_STAT = rd d0 Reg.KEY_BOOT_STAT))) ∧
    (d0.boot.ddr = 1 → ∀ mask c, 0 < mask → mask < 256 → c = .ddrTrainDone mask ∨ c = .ddrTrainTimeout mask →
      gf d0 Reg.KEY_BOOT_STAT F.KEY_BOOT_STAT_PHASE ≠ 2 → Completes c s (fun d =>
        d.boot = { d0.boot with ddr := 0 } ∧ gf d Reg.DDR_STAT F.DDR_STAT_FAIL_CH = mask ∧ told 1 d ∧ Touches (fun a => a = st ∨ a = irq) d0 d)) ∧
    (d0.boot.ddr ≠ 1 → ∀ mask < 256, Completes (.ddrTrainDone mask) s (fun d => d = d0) ∧ Completes (.ddrTrainTimeout mask) s (fun d => d = d0)) ∧
    (d0.boot.ddr = 2 → d0.slots = {} → d0.boot.rec_ = none → Completes (.ddrInitDone []) s (fun d =>
      d.boot.ddr = 0 ∧ gf d Reg.SYS_DRAM_TOP F.SYS_DRAM_TOP_TOP = 16384 * (8 * capBytes (gf d0 Reg.DDR_CFG F.DDR_CFG_CAP) / 9 / 16384) ∧
      gb d Reg.DDR_STAT F.DDR_STAT_INIT_DONE = true ∧ told 2 d ∧ Touches (fun a => a = st ∨ a = irq ∨ a = top) d0 d)) ∧
    (d0.boot.ddr ≠ 2 → Completes (.ddrInitDone []) s (fun d => d = d0)) ∧
    (∀ base compat, base < 2 ^ 40 → compat < 2 →
      let fits := base = 0 ∨ (base % 16384 = 0 ∧ dramBase ≤ base ∧ 2 ^ 21 + base ≤ dramBase + dramTop d0)
      Completes (.arbBootCfg base compat) s (fun d =>
        gf d Reg.ARB_BOOT_CFG F.ARB_BOOT_CFG_CONST_BASE = base ∧ gf d Reg.ARB_BOOT_CFG F.ARB_BOOT_CFG_COMPAT_EN = compat ∧
        (fits → gb d Reg.ARB_BOOT_CFG F.ARB_BOOT_CFG_DONE = true ∧ d.boot.next = some (base, compat) ∧
          d.boot.rec_ = some { d0.boot.rec_.getD {} with base := base, compat := compat }) ∧
        (¬ fits → gb d Reg.ARB_BOOT_CFG F.ARB_BOOT_CFG_REJ = true ∧ d.boot = d0.boot) ∧
        Touches (fun a => a = Reg.ARB_BOOT_CFG.addr) d0 d)) ∧
    (∀ type < 65536, gf d0 Reg.KEY_BOOT_STAT F.KEY_BOOT_STAT_PHASE ≠ 4 → Completes (.keyRecover type) s (fun d => d = d0)) ∧
    (gf d0 Reg.KEY_BOOT_STAT F.KEY_BOOT_STAT_PHASE = 4 → gf d0 Reg.ARB_STAT F.ARB_STAT_READY = 0 →
      accessCause d0 0x800000 0x40000 false = none → d0.poison = [] → d0.errs = [] → Completes (.keyRecover 1) s (fun d =>
        let b := rawBytes d0 0x800000 0x40000
        let c := objCheck d0 1 0x40000 b
        (c = 0 → d = firmwareRun (b.take (fieldAt b 0x00C 4)) (sf Reg.KEY_BOOT_STAT F.KEY_BOOT_STAT_CODE0 0 d0)) ∧
        (c ≠ 0 → gf d Reg.KEY_BOOT_STAT F.KEY_BOOT_STAT_CODE0 = c % 256 ∧ Touches (fun a => a = Reg.KEY_BOOT_STAT.addr) d0 d)))

/-- ETH_RX_FRAME, ETH_RX_TAIL_WRITE, ETH_TX_TAIL_WRITE, ETH_TX_DONE, ETH_LINK_DOWN and ETH_BLOCK_LOCK. On port m with no flip armed. With EN 0
a frame changes nothing. A frame for this station: with a wrong FCS it is counted; longer than MAX_LEN, or with no descriptor posted, or
of the routed type with no route bound, it is dropped, counted, and sets cause 3; otherwise its bytes go to the buffer of the descriptor
at the head, in clean main memory, then its length and DONE into the descriptor, the head advances and cause 1 is set. A tail that posts
at most what the ring holds is stored; another is ignored with TAIL_ERR. The oldest frame posted, read from clean main memory, is sent,
its descriptor done, the head advances and cause 2 is set; with no link or nothing posted nothing changes. Losing block lock clears LINK
and sets cause 0; gaining it sets LINK while EN. A cause that rises while enabled raises the block's source. (R780, R781, R782, R783,
R794) -/
def Obligations.EthernetFramesMove : Prop :=
  ∀ (s : State) (m : Nat) (fr : List Byte), sysClocked s.dev = true → m < 2 →
    let d0 := s.dev
    let stat := Reg.ETH_IRQ_STAT m
    let en := gb d0 (Reg.ETH_CTL m) F.ETH_CTL_EN = true
    let ctl := fun (f : Fld) => gf d0 (Reg.ETH_CTL m) f
    let caused := fun (i : Nat) (d : Dev) => gb d stat ⟨i, 1⟩ = true ∧
      (gb d0 stat ⟨i, 1⟩ = false → (rd d0 (Reg.ETH_IRQ_EN m)).getLsbD i = true → icPending d (49 + m) = true)
    let counted := fun (r : Nat → Reg) (d : Dev) => gf d (r m) ⟨0, 31⟩ = min (gf d0 (r m) ⟨0, 31⟩ + 1) 0x7FFFFFFF
    let only := fun (r : Nat → Reg) (d : Dev) => Touches (fun a => a = (r m).addr ∨ a = stat.addr) d0 d
    let mem := fun (a n : Nat) (w : Bool) => a + n ≤ 2 ^ 40 ∧ region a = .dram ∧ accessCause d0 a n w = none ∧ Clean d0 a n
    let rx := Reg.ETH_RX_HEAD m
    let tx := Reg.ETH_TX_HEAD m
    let lg := fun (f : Fld) => 2 ^ gf d0 (Reg.ETH_RING_CFG m) f
    let posted := fun (t h : Reg) => ((rd d0 t).toNat + 2 ^ 32 - (rd d0 h).toNat) % 2 ^ 32
    let desc := fun (b h : Reg) (f : Fld) => (rd d0 b).toNat + (rd d0 h).toNat % lg f * 16
    let done := fun (h : Reg) (a len : Nat) (e d : Dev) => Stored (a + 8) (leBytes 2 len ++ leBytes 2 0x8000) false e d ∧
      (rd d h).toNat = ((rd d0 h).toNat + 1) % 2 ^ 32 ∧ ∀ r : Reg, r.addr ≠ h.addr → r.addr ≠ stat.addr → ¬ raised r.addr → rd d r = rd d0 r
    let type := (fr.getD 12 0).toNat * 256 + (fr.getD 13 0).toNat
    gb d0 Reg.INTG_FLIP F.INTG_FLIP_ARM = false →
    (¬ en → ∀ ok, Completes (.ethRxFrame m fr ok) s (fun d => d = d0) ∧ Completes (.ethTxDone m) s (fun d => d = d0) ∧
      Completes (.ethBlockLock m) s (fun d => d = d0)) ∧
    (en → ingestOn d0 = true → ethMine d0 m fr = true → 0 < fr.length → fr.length < 65536 →
      let drops := Completes (.ethRxFrame m fr true) s (fun d => counted Reg.ETH_DROP d ∧ caused 3 d ∧ only Reg.ETH_DROP d)
      Completes (.ethRxFrame m fr false) s (fun d => counted Reg.ETH_FCS_ERR d ∧ only Reg.ETH_FCS_ERR d) ∧
      (type ≠ 0x8808 →
        (ctl F.ETH_CTL_MAX_LEN < fr.length → drops) ∧
        (type = ctl F.ETH_CTL_ETYPE → type ≠ 0 → routeBySrc d0 (epMk 5 (5 + m) 0) = none → drops) ∧
        (fr.length ≤ ctl F.ETH_CTL_MAX_LEN → type ≠ ctl F.ETH_CTL_ETYPE → posted (Reg.ETH_RX_TAIL m) rx = 0 → drops) ∧
        (fr.length ≤ ctl F.ETH_CTL_MAX_LEN → type ≠ ctl F.ETH_CTL_ETYPE → posted (Reg.ETH_RX_TAIL m) rx ≠ 0 →
          let a := desc (Reg.ETH_RX_BASE m) rx F.ETH_RING_CFG_RX_LOG2
          let buf := fieldAt (rawBytes d0 a 16) 0 8
          fr.length ≤ fieldAt (rawBytes d0 a 16) 8 2 → mem a 16 false → mem (a + 8) 4 true → mem buf fr.length true →
          Completes (.ethRxFrame m fr true) s (fun d => caused 1 d ∧ ∃ e, Stored buf fr false d0 e ∧ done rx a fr.length e d)))) ∧
    (∀ x ∈ [(Instr.ethRxTailWrite m, Reg.ETH_RX_TAIL m, rx, lg F.ETH_RING_CFG_RX_LOG2), (.ethTxTailWrite m, Reg.ETH_TX_TAIL m, tx, lg F.ETH_RING_CFG_TX_LOG2)],
      ∀ v, v < 2 ^ 32 →
        ((v + 2 ^ 32 - (rd d0 x.2.2.1).toNat) % 2 ^ 32 ≤ x.2.2.2 → Completes (x.1 v) s (fun d => (rd d x.2.1).toNat = v ∧
          Touches (fun a => a = x.2.1.addr) d0 d)) ∧
        (x.2.2.2 < (v + 2 ^ 32 - (rd d0 x.2.2.1).toNat) % 2 ^ 32 → Completes (x.1 v) s (fun d => gb d (Reg.ETH_STAT m) F.ETH_STAT_TAIL_ERR = true ∧
          Touches (fun a => a = (Reg.ETH_STAT m).addr) d0 d))) ∧
    (gb d0 (Reg.ETH_STAT m) F.ETH_STAT_LINK = false ∨ posted (Reg.ETH_TX_TAIL m) tx = 0 → Completes (.ethTxDone m) s (fun d => d = d0)) ∧
    (en → gb d0 (Reg.ETH_STAT m) F.ETH_STAT_LINK = true → posted (Reg.ETH_TX_TAIL m) tx ≠ 0 →
      let a := desc (Reg.ETH_TX_BASE m) tx F.ETH_RING_CFG_TX_LOG2
      let buf := fieldAt (rawBytes d0 a 16) 0 8
      let len := fieldAt (rawBytes d0 a 16) 8 2
      0 < len → len ≤ ctl F.ETH_CTL_MAX_LEN → mem a 16 false → mem (a + 8) 4 true → mem buf len false → Completes (.ethTxDone m) s (fun d =>
        d.out = d0.out ++ [.frame m ((List.range len).map (fun i => byteAt d0.mem (buf + i))) false] ∧ caused 2 d ∧ done tx a len d0 d)) ∧
    Completes (.ethLinkDown m) s (fun d => gb d (Reg.ETH_STAT m) F.ETH_STAT_LINK = false ∧ caused 0 d ∧ only Reg.ETH_STAT d) ∧
    (en → Completes (.ethBlockLock m) s (fun d => gb d (Reg.ETH_STAT m) F.ETH_STAT_LINK = true ∧ Touches (fun a => a = (Reg.ETH_STAT m).addr) d0 d))

/-- USB_OUT_TRANSFER, USB_IN_DONE, USB_OUT_TAIL_WRITE, USB_IN_TAIL_WRITE, USB_BUS_RESET, USB_BUS_SUSPEND and USB_STANDARD_REQUEST. With EN 0
the bus does nothing. With EN and CONFIGURED, and no flip armed: data that ends a transfer, shorter than the buffer of the descriptor at
the head in clean main memory, goes there, its length and DONE into the descriptor, the head advances and cause 1 is set; with no
descriptor posted it waits. The oldest IN descriptor's bytes, read from clean main memory, go to the host, the descriptor is done, the
head advances and cause 2 is set. A tail that posts at most what the ring holds is stored, another is ignored with TAIL_ERR. A bus reset
unconfigures the device, forgets the data that waits, takes the bus's speed, sets VBUS and cause 0; a suspend or resume is shown in
SUSPENDED with cause 3. SET_CONFIGURATION of 0 or 1 takes that configuration and answers an empty status; GET_CONFIGURATION answers it.
(R539, R780, R784, R794) -/
def Obligations.UsbTransfersRun : Prop :=
  ∀ (s : State) (bs : List Byte), sysClocked s.dev = true →
    let d0 := s.dev
    let stat := Reg.USB_IRQ_STAT
    let en := gb d0 Reg.USB_CTL F.USB_CTL_EN = true
    let conf := gb d0 Reg.USB_STAT F.USB_STAT_CONFIGURED = true
    let caused := fun (i : Nat) (d : Dev) => gb d stat ⟨i, 1⟩ = true ∧
      (gb d0 stat ⟨i, 1⟩ = false → (rd d0 Reg.USB_IRQ_EN).getLsbD i = true → icPending d 51 = true)
    let mem := fun (a n : Nat) (w : Bool) => a + n ≤ 2 ^ 40 ∧ region a = .dram ∧ accessCause d0 a n w = none ∧ Clean d0 a n
    let lg := fun (f : Fld) => 2 ^ gf d0 Reg.USB_RING_CFG f
    let posted := fun (t h : Reg) => ((rd d0 t).toNat + 2 ^ 32 - (rd d0 h).toNat) % 2 ^ 32
    let done := fun (h : Reg) (a len : Nat) (e d : Dev) => Stored (a + 8) (leBytes 2 len ++ leBytes 2 0x8000) false e d ∧
      (rd d h).toNat = ((rd d0 h).toNat + 1) % 2 ^ 32 ∧ ∀ r : Reg, r.addr ≠ h.addr → r.addr ≠ stat.addr → ¬ raised r.addr → rd d r = rd d0 r
    let usb := fun (f : Fld) (d : Dev) => gf d Reg.USB_STAT f
    let only := fun (d : Dev) => Touches (fun a => a = Reg.USB_STAT.addr ∨ a = stat.addr) d0 d
    gb d0 Reg.INTG_FLIP F.INTG_FLIP_ARM = false →
    (¬ en → ∀ speed on ended setup, speed < 4 → setup.length = 8 → ∀ c ∈ [Instr.usbOutTransfer bs ended, .usbInDone, .usbBusReset speed,
      .usbBusSuspend on, .usbStandardRequest setup], Completes c s (fun d => d = d0)) ∧
    (¬ conf → ∀ ended, Completes (.usbOutTransfer bs ended) s (fun d => d = d0) ∧ Completes .usbInDone s (fun d => d = d0)) ∧
    (en → conf → d0.periph.usbWait = [] →
      (0 < bs.length → posted Reg.USB_OUT_TAIL Reg.USB_OUT_HEAD = 0 → ∀ ended, Completes (.usbOutTransfer bs ended) s (fun d =>
        d.periph.usbWait = [(bs, ended)] ∧ Touches (fun _ => False) d0 d)) ∧
      (posted Reg.USB_OUT_TAIL Reg.USB_OUT_HEAD ≠ 0 →
        let a := (rd d0 Reg.USB_OUT_BASE).toNat + (rd d0 Reg.USB_OUT_HEAD).toNat % lg F.USB_RING_CFG_OUT_LOG2 * 16
        let buf := fieldAt (rawBytes d0 a 16) 0 8
        0 < bs.length → bs.length < fieldAt (rawBytes d0 a 16) 8 2 → mem a 16 false → mem (a + 8) 4 true → mem buf bs.length true →
        Completes (.usbOutTransfer bs true) s (fun d => caused 1 d ∧ d.periph.usbWait = [] ∧ ∃ e, Stored buf bs false d0 e ∧
          done Reg.USB_OUT_HEAD a bs.length e d))) ∧
    (posted Reg.USB_IN_TAIL Reg.USB_IN_HEAD = 0 → Completes .usbInDone s (fun d => d = d0)) ∧
    (en → conf → posted Reg.USB_IN_TAIL Reg.USB_IN_HEAD ≠ 0 →
      let a := (rd d0 Reg.USB_IN_BASE).toNat + (rd d0 Reg.USB_IN_HEAD).toNat % lg F.USB_RING_CFG_IN_LOG2 * 16
      let buf := fieldAt (rawBytes d0 a 16) 0 8
      let len := fieldAt (rawBytes d0 a 16) 8 2
      0 < len → mem a 16 false → mem (a + 8) 4 true → mem buf len false → Completes .usbInDone s (fun d =>
        d.out = d0.out ++ [.usbData ((List.range len).map (fun i => byteAt d0.mem (buf + i))) false] ∧ caused 2 d ∧
        done Reg.USB_IN_HEAD a len d0 d)) ∧
    (d0.periph.usbWait = [] → ∀ x ∈ [(Instr.usbOutTailWrite, Reg.USB_OUT_TAIL, Reg.USB_OUT_HEAD, lg F.USB_RING_CFG_OUT_LOG2),
        (.usbInTailWrite, Reg.USB_IN_TAIL, Reg.USB_IN_HEAD, lg F.USB_RING_CFG_IN_LOG2)], ∀ v, v < 2 ^ 32 →
      ((v + 2 ^ 32 - (rd d0 x.2.2.1).toNat) % 2 ^ 32 ≤ x.2.2.2 → Completes (x.1 v) s (fun d => (rd d x.2.1).toNat = v ∧
        Touches (fun a => a = x.2.1.addr) d0 d)) ∧
      (x.2.2.2 < (v + 2 ^ 32 - (rd d0 x.2.2.1).toNat) % 2 ^ 32 → Completes (x.1 v) s (fun d => usb F.USB_STAT_TAIL_ERR d = 1 ∧
        Touches (fun a => a = Reg.USB_STAT.addr) d0 d))) ∧
    (en → ∀ speed on, speed < 4 →
      Completes (.usbBusReset speed) s (fun d => usb F.USB_STAT_CONFIGURED d = 0 ∧ usb F.USB_STAT_SUSPENDED d = 0 ∧ usb F.USB_STAT_SPEED d = speed ∧
        usb F.USB_STAT_VBUS d = 1 ∧ d.periph.usbConf = 0 ∧ d.periph.usbWait = [] ∧ caused 0 d ∧ only d) ∧
      Completes (.usbBusSuspend on) s (fun d => usb F.USB_STAT_SUSPENDED d = bit on ∧ caused 3 d ∧ only d)) ∧
    (en → ∀ v t0 t1 t2 t3 t4 t5 : Byte, v = 0 ∨ v = 1 →
      Completes (.usbStandardRequest [t0, 9, v, t1, t2, t3, t4, t5]) s (fun d => usb F.USB_STAT_CONFIGURED d = v.toNat ∧ d.periph.usbConf = v.toNat ∧
        d.out = d0.out ++ [.usbReply []] ∧ Touches (fun a => a = Reg.USB_STAT.addr) d0 d) ∧
      Completes (.usbStandardRequest [t0, 8, v, t1, t2, t3, t4, t5]) s (fun d => d.out = d0.out ++ [.usbReply (leBytes 1 d0.periph.usbConf)] ∧
        Touches (fun _ => False) d0 d))

/-- CSI_FRAME_START, CSI_FRAME_END, CSI_FRAME_TIMEOUT, CSI_FB_REL and CSI_FB_CFG_WRITE: camera frames and their buffers. On port n with no
flip armed. While the port is disabled a frame start changes nothing; otherwise, with no frame in progress, a frame takes the lowest free
buffer with its number and start time, or, with none free, is dropped and counted in CSI_DROP_NOBUF. A frame of another virtual channel
than CSI_CTL's, or one longer than a buffer, is dropped and counted in CSI_DROP_RANGE; another goes to its buffer in main memory, and with
a route that takes it its descriptor item is written there, marked as an end, the frame is counted and cause 0 is set while the buffer
stays in use; with no route bound it is dropped. A frame that does not end in time is counted in CSI_DROP_TMO. A dropped frame's buffer is
free again, and cause 1 is set. CSI_FB_REL frees a buffer in use and sets cause 3 for a free one. A write of CSI_FB_CFG that enables the
port with COUNT 0 or above 64, SIZE 0 or HIGH not above LOW is ignored; another is stored. With no frame in progress an end or time-out
changes nothing. (R724, R780, R781, R782, R785, R786, R787, R792, R794) -/
def Obligations.CamerasDeliverFrames : Prop :=
  ∀ (s : State) (n num : Nat), sysClocked s.dev = true → n < 4 → num < 65536 →
    let d0 := s.dev
    let stat := Reg.CSI_IRQ_STAT n
    let cfg := fun (f : Fld) => gf d0 (Reg.CSI_FB_CFG n) f
    let map := Reg.CSI_FB_MAP n
    let used := fun (i : Nat) (d : Dev) => (rd d map).getLsbD i
    let buf := fun (i : Nat) (b : Bool) (d : Dev) => ∀ j, j < 64 → used j d = if j = i then b else used j d0
    let caused := fun (i : Nat) (d : Dev) => gb d stat ⟨i, 1⟩ = true ∧
      (gb d0 stat ⟨i, 1⟩ = false → (rd d0 (Reg.CSI_IRQ_EN n)).getLsbD i = true → icPending d (52 + n) = true)
    let regs := fun (r : Nat → Reg) (d : Dev) => Touches (fun a => a = (r n).addr ∨ a = stat.addr ∨ a = map.addr ∨ a = (Reg.CSI_FB_USE n).addr) d0 d
    let dropped := fun (r : Nat → Reg) (d : Dev) => gf d (r n) ⟨0, 31⟩ = min (gf d0 (r n) ⟨0, 31⟩ + 1) 0x7FFFFFFF ∧ caused 1 d
    let frame := fun (d : Dev) => mget d.periph.csi n
    gb d0 Reg.INTG_FLIP F.INTG_FLIP_ARM = false →
    (cfg F.CSI_FB_CFG_EN = 0 → Completes (.csiFrameStart n num) s (fun d => d = d0)) ∧
    (cfg F.CSI_FB_CFG_EN = 1 → ingestOn d0 = true → frame d0 = none →
      (∀ b, b < 64 → b < cfg F.CSI_FB_CFG_COUNT → used b d0 = false → (∀ i, i < b → used i d0 = true) →
        Completes (.csiFrameStart n num) s (fun d => frame d = some ⟨b, num, fastTime d0⟩ ∧ buf b true d ∧ regs Reg.CSI_FB_MAP d)) ∧
      ((∀ i, i < cfg F.CSI_FB_CFG_COUNT → used i d0 = true) → Completes (.csiFrameStart n num) s (fun d => dropped Reg.CSI_DROP_NOBUF d ∧
        frame d = none ∧ regs Reg.CSI_DROP_NOBUF d))) ∧
    (frame d0 = none → Completes (.csiFrameTimeout n) s (fun d => d = d0) ∧
      ∀ w l dt vc bs, w < 65536 → l < 65536 → dt < 64 → vc < 4 → Completes (.csiFrameEnd n w l dt vc bs) s (fun d => d = d0)) ∧
    (∀ f, frame d0 = some f → f.buf < 64 →
      let size := 16384 * cfg F.CSI_FB_CFG_SIZE
      let addr := (rd d0 (Reg.CSI_FB_BASE n)).toNat + f.buf * size
      Completes (.csiFrameTimeout n) s (fun d => dropped Reg.CSI_DROP_TMO d ∧ frame d = none ∧ buf f.buf false d ∧ regs Reg.CSI_DROP_TMO d) ∧
      (∀ w l dt vc bs, w < 65536 → l < 65536 → dt < 64 → vc < 4 →
        let c := Instr.csiFrameEnd n w l dt vc bs
        (vc ≠ gf d0 (Reg.CSI_CTL n) F.CSI_CTL_VC ∨ size < bs.length → Completes c s (fun d =>
          dropped Reg.CSI_DROP_RANGE d ∧ frame d = none ∧ buf f.buf false d ∧ regs Reg.CSI_DROP_RANGE d)) ∧
        (vc = gf d0 (Reg.CSI_CTL n) F.CSI_CTL_VC → dt = gf d0 (Reg.CSI_CTL n) F.CSI_CTL_DT → gf d0 (Reg.CSI_LIM_MIN n) F.CSI_LIM_MIN_WIDTH ≤ w →
          w ≤ gf d0 (Reg.CSI_LIM_MAX n) F.CSI_LIM_MAX_WIDTH → gf d0 (Reg.CSI_LIM_MIN n) F.CSI_LIM_MIN_LINES ≤ l →
          l ≤ gf d0 (Reg.CSI_LIM_MAX n) F.CSI_LIM_MAX_LINES → bs.length ≤ size → 0 < bs.length → addr + size ≤ 2 ^ 40 → region addr = .dram →
          accessCause d0 addr bs.length true = none → Clean d0 addr bs.length →
          (routeBySrc d0 (epMk 5 n 0) = none → Completes c s (fun d => dropped Reg.CSI_DROP_BP d ∧ frame d = none ∧ buf f.buf false d ∧
            Stored addr bs false d0 d)) ∧
          (∀ r g, routeBySrc d0 (epMk 5 n 0) = some r → mget d0.fifos r = some g → g.backlog = [] → fifoCanWrite g = true →
            let item := leBytes 8 addr ++ leBytes 4 f.num ++ leBytes 2 w ++ leBytes 2 l ++ leBytes 1 dt ++ leBytes 1 f.buf ++ leBytes 6 0 ++ leBytes 8 f.time
            Completes c s (fun d => (mget d.fifos r).map Fifo.items = some (g.items ++ [{ data := item, fin := true, empty := false, poison := false }]) ∧
              frame d = none ∧ rd d map = rd d0 map ∧ caused 0 d ∧ Stored addr bs false d0 d ∧
              (rd d (Reg.CSI_FRAMES n)).toNat = min ((rd d0 (Reg.CSI_FRAMES n)).toNat + 1) (2 ^ 64 - 1)))))) ∧
    (∀ i, i < 64 → (used i d0 = true → Completes (.csiFbRel n i) s (fun d => buf i false d ∧ regs Reg.CSI_FB_MAP d)) ∧
      (used i d0 = false → Completes (.csiFbRel n i) s (fun d => caused 3 d ∧ Touches (fun a => a = stat.addr) d0 d))) ∧
    (∀ en hi cnt lo sz, en < 2 → hi < 256 → cnt < 128 → lo < 64 → sz < 1024 →
      let v := en * 2 ^ 31 + hi * 2 ^ 23 + cnt * 2 ^ 16 + lo * 2 ^ 10 + sz
      (en = 1 → cnt = 0 ∨ 64 < cnt ∨ sz = 0 ∨ hi ≤ lo → Completes (.csiFbCfgWrite n v) s (fun d => d = d0)) ∧
      (en = 1 → 0 < cnt → cnt ≤ 64 → 0 < sz → lo < hi → Completes (.csiFbCfgWrite n v) s (fun d => (rd d (Reg.CSI_FB_CFG n)).toNat = v ∧
        Touches (fun a => a = (Reg.CSI_FB_CFG n).addr) d0 d)) ∧
      (en = 0 → frame d0 = none → Completes (.csiFbCfgWrite n v) s (fun d => (rd d (Reg.CSI_FB_CFG n)).toNat = v ∧
        Touches (fun a => a = (Reg.CSI_FB_CFG n).addr) d0 d)))

/-- TDM_FRAME, TDM_RING_DRAIN, TDM_FS_LOST, TDM_CTL_WRITE and VAD_WINDOW: the audio input and its detector. While TDM_CTL.EN is 0 a frame or a
lost sync changes nothing, and a frame after the sync was lost delivers nothing. An untimely sync is ignored and counted, and the fourth
in a row resynchronises. A frame of at most 16 channels becomes one item of binary16 samples, unused positions 0, with an end mark on the
last frame of a packet: into the route with a credit, or into the next place of the ring in main memory, which then holds one item more;
with the ring full it is dropped and counted with cause 2. With a credit the oldest item leaves the ring for the route. No sync for 1 ms
stops items and sets cause 0. A write of TDM_CTL that enables the input with no ring, no or more channels than slots, or WM_HIGH not above
WM_LOW is ignored; another is stored. In ACTIVE, a detector window whose sum lies above the threshold counts, and the HOLD-th raises VAD;
one that does not starts the count again. (R779, R780, R788, R789, R790, R791) -/
def Obligations.AudioFramesAreDelivered : Prop :=
  ∀ (s : State) (samples : List Nat) (sum : Nat), sysClocked s.dev = true → (∀ x ∈ samples, x < 2 ^ 24) →
    let d0 := s.dev
    let t := d0.periph.tdm
    let stat := Reg.TDM_IRQ_STAT
    let en := gb d0 Reg.TDM_CTL F.TDM_CTL_EN = true
    let caused := fun (i : Nat) (d : Dev) => gb d stat ⟨i, 1⟩ = true ∧
      (gb d0 stat ⟨i, 1⟩ = false → (rd d0 Reg.TDM_IRQ_EN).getLsbD i = true → icPending d 56 = true)
    let counted := fun (r : Reg) (d : Dev) => gf d r ⟨0, 31⟩ = min (gf d0 r ⟨0, 31⟩ + 1) 0x7FFFFFFF ∧ Touches (fun a => a = r.addr ∨ a = stat.addr) d0 d
    let tdm := fun (d : Dev) => d.periph.tdm
    let w := if gb d0 Reg.TDM_CTL F.TDM_CTL_W24 then 24 else 16
    let cap := gf d0 Reg.TDM_RING_SIZE F.TDM_RING_SIZE_TILES * 512
    let base := (rd d0 Reg.TDM_RING_BASE).toNat
    let mem := fun (a : Nat) (write : Bool) => a + 32 ≤ 2 ^ 40 ∧ a % 32 = 0 ∧ region a = .dram ∧ accessCause d0 a 32 write = none ∧ Clean d0 a 32
    gb d0 Reg.INTG_FLIP F.INTG_FLIP_ARM = false →
    (¬ en → (∀ ok, Completes (.tdmFrame samples ok) s (fun d => d = d0)) ∧ Completes .tdmFsLost s (fun d => d = d0)) ∧
    (en → ingestOn d0 = true →
      (t.ignored ≠ 3 → Completes (.tdmFrame samples false) s (fun d => tdm d = { t with ignored := t.ignored + 1 } ∧ counted Reg.TDM_FS_ERR d)) ∧
      (t.ignored = 3 → Completes (.tdmFrame samples false) s (fun d => tdm d = { t with ignored := 0, stopped := false } ∧ counted Reg.TDM_FS_ERR d)) ∧
      (t.stopped = true → Completes (.tdmFrame samples true) s (fun d => tdm d = { t with ignored := 0 } ∧ Touches (fun _ => False) d0 d)) ∧
      (t.stopped = false → t.ends = [] → 0 < samples.length → samples.length ≤ 16 → gf d0 Reg.TDM_CTL F.TDM_CTL_CH = samples.length →
        let last := decide (gf d0 Reg.TDM_PKT F.TDM_PKT_FRAMES ≤ t.frames + 1)
        let data := (padTo 16 0 (samples.map (fun x => to16 (.fin (decide (sgn w x < 0)) (sgn w x).natAbs (-((w : Int) - 1)))))).flatMap (leBytes 2)
        (∀ r f, routeBySrc d0 (epMk 5 4 0) = some r → mget d0.fifos r = some f → f.backlog = [] → f.stall = false → 1 ≤ f.cred → fifoCanWrite f = true →
          Completes (.tdmFrame samples true) s (fun d =>
            (mget d.fifos r).map Fifo.items = some (f.items ++ [{ data := data, fin := last, empty := false, poison := false }]) ∧
            (tdm d).frames = (if last then 0 else t.frames + 1) ∧ (tdm d).ends = [] ∧ d.mem = d0.mem)) ∧
        (routeBySrc d0 (epMk 5 4 0) = none → 1 ≤ cap → mem (base + t.rp % cap * 32) true → Completes (.tdmFrame samples true) s (fun d =>
          Stored (base + t.rp % cap * 32) data false d0 d ∧ (tdm d).ends = [last] ∧ (tdm d).frames = (if last then 0 else t.frames + 1) ∧
          (rd d Reg.TDM_RING_FILL).toNat = 1 ∧ ∀ r : Reg, r.addr ≠ stat.addr → r.addr ≠ Reg.TDM_RING_FILL.addr → ¬ raised r.addr → rd d r = rd d0 r)) ∧
        (routeBySrc d0 (epMk 5 4 0) = none → cap = 0 → Completes (.tdmFrame samples true) s (fun d => counted Reg.TDM_DROP d ∧ caused 2 d)))) ∧
    (routeBySrc d0 (epMk 5 4 0) = none → Completes .tdmRingDrain s (fun d => d = d0)) ∧
    (∀ r f fin, routeBySrc d0 (epMk 5 4 0) = some r → mget d0.fifos r = some f → f.backlog = [] → f.stall = false → 1 ≤ f.cred → fifoCanWrite f = true →
      t.ends = [fin] → 1 ≤ cap → mem (base + t.rp % cap * 32) false →
      let data := (List.range 32).map (fun i => byteAt d0.mem (base + t.rp % cap * 32 + i))
      Completes .tdmRingDrain s (fun d =>
        (mget d.fifos r).map Fifo.items = some (f.items ++ [{ data := data, fin := fin, empty := false, poison := false }]) ∧
        (tdm d).ends = [] ∧ (tdm d).rp = (t.rp + 1) % cap ∧ (rd d Reg.TDM_RING_FILL).toNat = 0 ∧ d.mem = d0.mem)) ∧
    (en → Completes .tdmFsLost s (fun d => tdm d = { t with stopped := true } ∧ caused 0 d ∧ Touches (fun a => a = stat.addr) d0 d)) ∧
    (∀ e slots w24 ch, e < 2 → slots < 3 → w24 < 2 → ch < 64 →
      let v := e * 2 ^ 31 + slots * 2 ^ 12 + w24 * 2 ^ 11 + ch
      let ok := 1 ≤ gf d0 Reg.TDM_RING_SIZE F.TDM_RING_SIZE_TILES ∧ 1 ≤ ch ∧ ch ≤ 8 * 2 ^ slots ∧
        gf d0 Reg.TDM_RING_CFG F.TDM_RING_CFG_WM_LOW < gf d0 Reg.TDM_RING_CFG F.TDM_RING_CFG_WM_HIGH
      (e = 1 → ¬ ok → Completes (.tdmCtlWrite v) s (fun d => d = d0)) ∧
      (e = 0 ∨ ok → Completes (.tdmCtlWrite v) s (fun d => (rd d Reg.TDM_CTL).toNat = v ∧ Touches (fun a => a = Reg.TDM_CTL.addr) d0 d))) ∧
    (let vad := fun (f : Fld) => gf d0 Reg.TDM_VAD f
     let above := (480 * (2 ^ (w - 1)) ^ 2) ^ 20 < sum ^ 20 * 10 ^ vad F.TDM_VAD_THRESH
     (vad F.TDM_VAD_EN = 0 → Completes (.vadWindow sum) s (fun d => d = d0)) ∧
     (vad F.TDM_VAD_EN = 1 → ¬ above → Completes (.vadWindow sum) s (fun d => tdm d = { t with vad := 0 } ∧ Touches (fun _ => False) d0 d)) ∧
     (vad F.TDM_VAD_EN = 1 → above → t.vad + 1 ≠ vad F.TDM_VAD_HOLD → Completes (.vadWindow sum) s (fun d => tdm d = { t with vad := t.vad + 1 } ∧
       Touches (fun _ => False) d0 d)) ∧
     (vad F.TDM_VAD_EN = 1 → above → t.vad + 1 = vad F.TDM_VAD_HOLD → pmuState d0 = 0 → pmuBusy d0 = false → Completes (.vadWindow sum) s (fun d =>
       tdm d = { t with vad := t.vad + 1 } ∧ icPending d 57 = true ∧ (domOn d0 4 = true → caused 3 d) ∧ Touches (fun a => a = stat.addr) d0 d)))

/-- PCIE_LINK_TRAIN, PCIE_LINK_UP, PCIE_LINK_FAIL, PCIE_CONFIG_ACCESS, CPU_HOLD_WRITE and CPU_FREQ_WRITE. Training sets PCIE_CTL.EN; its
success, while EN, shows LINK_UP with the rate and width within PCIE_CTL's limits and sets cause 0; its failure, while EN and not up, sets
cause 1. An access to the configuration window of an endpoint is a bus error UNMAPPED, while PD_IO serves none DOMAIN_OFF, and one of
another width than 1, 2 or 4 or misaligned ALIGN. A root port's own header reads as its bytes and takes a write of the bytes that software
writes; another function of bus 0, and a bus below while the link is down, complete with all-ones and are counted. With the link up a
request for the bus below goes out and its answer comes back. CPU_HOLD resets the cores whose bit is 1 and starts those whose bit falls;
CPU_FREQ takes a multiple of 25 from 400 to 2000 and ignores another. (R44, R778, R780, R794, R798) -/
def Obligations.PcieAndCoresAreControlled : Prop :=
  ∀ (s : State) (master off n v : Nat) (data : List Byte) (answer : Option (List Byte)), sysClocked s.dev = true → master < 256 → off < 2 ^ 28 →
    n ≤ 32 → v < 2 ^ 32 →
    let d0 := s.dev
    let stat := Reg.PCIE_IRQ_STAT
    let en := gb d0 Reg.PCIE_CTL F.PCIE_CTL_EN = true
    let up := gb d0 Reg.PCIE_STAT F.PCIE_STAT_LINK_UP = true
    let caused := fun (i : Nat) (d : Dev) => gb d stat ⟨i, 1⟩ = true ∧
      (gb d0 stat ⟨i, 1⟩ = false → (rd d0 Reg.PCIE_IRQ_EN).getLsbD i = true → icPending d 48 = true)
    let acc := fun (wr : Bool) => Instr.pcieConfigAccess master off n wr data answer
    let fa := 0x7FF0000000 + off
    let done := fun (wr : Bool) (bs : List Byte) (o : List Out) (d : Dev) => d.out = d0.out ++ o ++ [if wr then .busWrote master else .busRead master bs]
    let failed := fun (wr : Bool) (o : List Out) (d : Dev) => done wr (List.replicate n 0xFF) o d ∧
      gf d Reg.PCIE_CFG_ERR ⟨0, 31⟩ = min (gf d0 Reg.PCIE_CFG_ERR ⟨0, 31⟩ + 1) 0x7FFFFFFF ∧ Touches (fun a => a = Reg.PCIE_CFG_ERR.addr ∨ a = stat.addr) d0 d
    let wide := (n = 1 ∨ n = 2 ∨ n = 4) ∧ off % n = 0
    let bus := off / 2 ^ 20
    Completes .pcieLinkTrain s (fun d => gb d Reg.PCIE_CTL F.PCIE_CTL_EN = true ∧ Touches (fun a => a = Reg.PCIE_CTL.addr) d0 d) ∧
    (¬ en → Completes .pcieLinkFail s (fun d => d = d0)) ∧
    (up → Completes .pcieLinkFail s (fun d => d = d0)) ∧
    (en → ¬ up → Completes .pcieLinkFail s (fun d => caused 1 d ∧ Touches (fun a => a = stat.addr) d0 d)) ∧
    (∀ r w, 0 < r → r < 6 → 0 < w → w < 5 → (¬ en → Completes (.pcieLinkUp r w) s (fun d => d = d0)) ∧
      (en → Completes (.pcieLinkUp r w) s (fun d => gb d Reg.PCIE_STAT F.PCIE_STAT_LINK_UP = true ∧
        gf d Reg.PCIE_STAT F.PCIE_STAT_RATE = min r (gf d0 Reg.PCIE_CTL F.PCIE_CTL_RATE_MAX) ∧
        gf d Reg.PCIE_STAT F.PCIE_STAT_WIDTH = min w (gf d0 Reg.PCIE_CTL F.PCIE_CTL_WIDTH_MAX) ∧ caused 0 d ∧
        Touches (fun a => a = Reg.PCIE_STAT.addr ∨ a = stat.addr) d0 d))) ∧
    (∀ wr : Bool,
      (d0.part.endpoint = true → Completes (acc wr) s (BusErrored 1 master wr fa n d0)) ∧
      (d0.part.endpoint = false → domServes d0 4 = false → Completes (acc wr) s (BusErrored 2 master wr fa n d0)) ∧
      (d0.part.endpoint = false → domServes d0 4 = true → ¬ wide → Completes (acc wr) s (BusErrored 4 master wr fa n d0)) ∧
      (d0.part.endpoint = false → domServes d0 4 = true → wide →
        (bus = 0 → off / 4096 % 256 ≠ 0 → Completes (acc wr) s (failed wr [])) ∧
        (bus ≠ 0 → ¬ up → Completes (acc wr) s (failed wr [])) ∧
        (let sec := (cfgByte d0 0x19).toNat
         let sub := (cfgByte d0 0x1A).toNat
         let sent := Out.pcieCfg (bus != sec) off wr (if wr then data.take n else [])
         bus ≠ 0 → up → sec ≤ bus → bus ≤ sub →
          (answer = none → Completes (acc wr) s (failed wr [sent])) ∧
          (∀ bs, answer = some bs → bs.length = n → Completes (acc wr) s (fun d => done wr bs [sent] d ∧ Touches (fun _ => False) d0 d))))) ∧
    (d0.part.endpoint = false → domServes d0 4 = true → wide → bus = 0 → off / 4096 % 256 = 0 →
      Completes (acc false) s (fun d => done false ((List.range n).map (fun i => cfgByte d0 (off % 4096 + i))) [] d ∧ Touches (fun _ => False) d0 d) ∧
      (data.length = n → Completes (acc true) s (fun d => done true [] [] d ∧ Touches (fun _ => False) d0 d ∧
        ∀ r, cfgByte d r = if off % 4096 ≤ r ∧ r < off % 4096 + n ∧ cfgWritable r = true then data.getD (r - off % 4096) 0 else cfgByte d0 r))) ∧
    Completes (.cpuHoldWrite v) s (fun d => gf d Reg.CPU_HOLD F.CPU_HOLD_HOLD = v % 256 ∧
      (∀ c, c < 8 → (gf d Reg.CPU_STAT F.CPU_STAT_RUN).testBit c =
        (!v.testBit c && ((gf d0 Reg.CPU_HOLD F.CPU_HOLD_HOLD).testBit c || (gf d0 Reg.CPU_STAT F.CPU_STAT_RUN).testBit c))) ∧
      Touches (fun a => a = Reg.CPU_HOLD.addr ∨ a = Reg.CPU_STAT.addr) d0 d) ∧
    (v < 4096 → 400 ≤ v → v ≤ 2000 → v % 25 = 0 → Completes (.cpuFreqWrite v) s (fun d => gf d Reg.CPU_FREQ F.CPU_FREQ_MHZ = v ∧
      Touches (fun a => a = Reg.CPU_FREQ.addr) d0 d)) ∧
    (v < 4096 → v < 400 ∨ 2000 < v ∨ v % 25 ≠ 0 → Completes (.cpuFreqWrite v) s (fun d => d = d0))
end

