-- ==== Sys2Proof/Laws/Maps.lean ====
section
/-! SUPPORT. Finite maps: what a store, a removal and a filter do to every key, and that each keeps the canonical form. -/

namespace Sys2Proof.Machine

theorem mget_mput_same {α : Type} (m : FMap α) (a : Nat) (v : α) : mget (mput m a v) a = some v := by
  induction m with
  | nil => simp [mput, mget]
  | cons p m ih =>
    obtain ⟨k, w⟩ := p
    unfold mput
    split
    · simp [mget]
    · split
      · simp [mget]
      · simp [mget, *]

theorem mget_mput_ne {α : Type} (m : FMap α) {a b : Nat} (v : α) (h : b ≠ a) : mget (mput m a v) b = mget m b := by
  induction m with
  | nil => simp [mput, mget, h]
  | cons p m ih =>
    obtain ⟨k, w⟩ := p
    unfold mput
    split
    · simp [mget, h]
    · split
      · subst_vars
        simp [mget, h]
      · simp [mget, ih]

@[simp] theorem mgetD_mput_same {α : Type} (m : FMap α) (a : Nat) (v x : α) : mgetD (mput m a v) a x = v := by
  simp [mgetD, mget_mput_same]

theorem mgetD_mput_ne {α : Type} (m : FMap α) {a b : Nat} (v x : α) (h : b ≠ a) : mgetD (mput m a v) b x = mgetD m b x := by
  simp [mgetD, mget_mput_ne m v h]

@[simp] theorem mget_mdel_same {α : Type} (m : FMap α) (a : Nat) : mget (mdel m a) a = none := by
  induction m with
  | nil => rfl
  | cons p m ih =>
    obtain ⟨k, w⟩ := p
    unfold mdel at *
    by_cases h : k = a
    · simp [h, ih]
    · simp [h, mget, ih, Ne.symm h]

theorem mget_mdel_ne {α : Type} (m : FMap α) {a b : Nat} (h : b ≠ a) : mget (mdel m a) b = mget m b := by
  induction m with
  | nil => rfl
  | cons p m ih =>
    obtain ⟨k, w⟩ := p
    unfold mdel at *
    by_cases hk : k = a
    · subst hk
      simp [mget, ih, h]
    · simp [hk, mget, ih]

@[simp] theorem mgetD_mdel_same {α : Type} (m : FMap α) (a : Nat) (x : α) : mgetD (mdel m a) a x = x := by
  simp [mgetD]

theorem mgetD_mdel_ne {α : Type} (m : FMap α) {a b : Nat} (x : α) (h : b ≠ a) : mgetD (mdel m a) b x = mgetD m b x := by
  simp [mgetD, mget_mdel_ne m h]

/-- A key of a store is the stored key or one that was there. -/
theorem mem_mput {α : Type} (m : FMap α) (a : Nat) (v : α) (p : Nat × α) (h : p ∈ mput m a v) : p = (a, v) ∨ p ∈ m := by
  induction m with
  | nil => simpa [mput] using h
  | cons q m ih =>
    obtain ⟨k, w⟩ := q
    unfold mput at h
    split at h
    · simpa using h
    · split at h
      · rcases List.mem_cons.mp h with h | h
        · exact Or.inl h
        · exact Or.inr (List.mem_cons_of_mem _ h)
      · rcases List.mem_cons.mp h with h | h
        · exact Or.inr (by simp [h])
        · rcases ih h with h | h
          · exact Or.inl h
          · exact Or.inr (List.mem_cons_of_mem _ h)

/-- A store keeps the keys rising. -/
theorem rising_mput {α : Type} (m : FMap α) (a : Nat) (v : α) (h : Rising m) : Rising (mput m a v) := by
  induction m with
  | nil => simp [mput, Rising]
  | cons q m ih =>
    obtain ⟨k, w⟩ := q
    simp only [Rising, List.map_cons, List.pairwise_cons] at h
    unfold mput
    split
    · rename_i hak
      simp only [Rising, List.map_cons, List.pairwise_cons]
      refine ⟨?_, h⟩
      intro x hx
      rcases List.mem_cons.mp hx with hx | hx
      · omega
      · exact lt_trans hak (h.1 x hx)
    · split
      · rename_i hak
        subst hak
        exact List.pairwise_cons.mpr h
      · rename_i h1 h2
        simp only [Rising, List.map_cons, List.pairwise_cons]
        refine ⟨?_, ih h.2⟩
        intro x hx
        obtain ⟨p, hp, rfl⟩ := List.mem_map.mp hx
        rcases mem_mput m a v p hp with hp | hp
        · subst hp
          show k < a
          omega
        · exact h.1 _ (List.mem_map_of_mem hp)

/-- Leaving entries out keeps the keys rising. -/
theorem rising_filter {α : Type} (m : FMap α) (f : Nat × α → Bool) (h : Rising m) : Rising (m.filter f) := by
  have : ((m.filter f).map Prod.fst).Sublist (m.map Prod.fst) := List.Sublist.map _ List.filter_sublist
  exact List.Pairwise.sublist this h

theorem rising_mdel {α : Type} (m : FMap α) (a : Nat) (h : Rising m) : Rising (mdel m a) := rising_filter m _ h

/-- A change of values alone keeps the keys rising. -/
theorem rising_mmap {α β : Type} (m : FMap α) (f : Nat → α → β) (h : Rising m) : Rising (mmap m f) := by
  unfold Rising mmap at *
  rw [List.map_map]
  exact h

theorem rising_mupd {α : Type} (m : FMap α) (a : Nat) (x : α) (f : α → α) (h : Rising m) : Rising (mupd m a x f) :=
  rising_mput m a _ h

theorem rising_nil {α : Type} : Rising ([] : FMap α) := List.Pairwise.nil

end Sys2Proof.Machine
end

