-- ==== Sys2Proof/Laws/Regs.lean ====
section
/-! SUPPORT. Registers and fields: a read after a write of the same register or field gives what was written, and a write leaves
every other register and every disjoint field alone. -/

namespace Sys2Proof.Machine

theorem regGet_regPut_same (rs : FMap (BitVec 64)) (r : Reg) (v : BitVec 64) : regGet (regPut rs r v) r = v := by
  unfold regGet regPut
  split
  · simp [*]
  · simp

theorem regGet_regPut_ne (rs : FMap (BitVec 64)) (r q : Reg) (v : BitVec 64) (h : q.addr ≠ r.addr) :
    regGet (regPut rs r v) q = regGet rs q := by
  unfold regGet regPut
  split
  · exact mgetD_mdel_ne _ _ h
  · exact mgetD_mput_ne _ _ _ h

@[simp] theorem rd_wr_same (r : Reg) (v : BitVec 64) (d : Dev) : rd (wr r v d) r = v := regGet_regPut_same _ _ _

theorem rd_wr_ne {r q : Reg} (v : BitVec 64) (d : Dev) (h : q.addr ≠ r.addr) : rd (wr r v d) q = rd d q :=
  regGet_regPut_ne _ _ _ _ h

/-- Bit `i` of the mask of a field. -/
theorem fldMask_bit (f : Fld) (h : f.lo + f.len ≤ 64) (i : Nat) :
    ((BitVec.ofNat 64 (2 ^ f.len - 1)) <<< f.lo : BitVec 64).getLsbD i = (decide (f.lo ≤ i) && decide (i < f.lo + f.len)) := by
  simp only [BitVec.getLsbD_shiftLeft, BitVec.getLsbD_ofNat, Nat.testBit_two_pow_sub_one]
  grind

/-- Bit `i` of a register with field `f` set to `x`. -/
theorem fldPut_bit (v : BitVec 64) (f : Fld) (x : Nat) (h : f.lo + f.len ≤ 64) (i : Nat) :
    (fldPut v f x).getLsbD i =
      if f.lo ≤ i ∧ i < f.lo + f.len then x.testBit (i - f.lo) else v.getLsbD i := by
  unfold fldPut
  simp only [BitVec.getLsbD_or, BitVec.getLsbD_and, BitVec.getLsbD_not, fldMask_bit f h, BitVec.getLsbD_shiftLeft,
    BitVec.getLsbD_ofNat]
  by_cases hi : i < 64
  · by_cases hf : f.lo ≤ i ∧ i < f.lo + f.len
    · have : i - f.lo < 64 := by omega
      simp [hf, hi, this]
    · grind
  · have := v.getLsbD_of_ge i (by omega)
    grind

theorem fldGet_fldPut_same (v : BitVec 64) (f : Fld) (x : Nat) (h : f.lo + f.len ≤ 64) :
    fldGet (fldPut v f x) f = x % 2 ^ f.len := by
  apply Nat.eq_of_testBit_eq
  intro i
  unfold fldGet
  rw [BitVec.testBit_toNat, BitVec.getLsbD_extractLsb', fldPut_bit v f x h, Nat.testBit_mod_two_pow]
  by_cases hi : i < f.len
  · simp [hi]
  · simp [hi]

theorem fldGet_fldPut_disj (v : BitVec 64) (f g : Fld) (x : Nat) (h : f.lo + f.len ≤ 64)
    (hd : f.lo + f.len ≤ g.lo ∨ g.lo + g.len ≤ f.lo) : fldGet (fldPut v f x) g = fldGet v g := by
  apply Nat.eq_of_testBit_eq
  intro i
  unfold fldGet
  rw [BitVec.testBit_toNat, BitVec.testBit_toNat, BitVec.getLsbD_extractLsb', BitVec.getLsbD_extractLsb', fldPut_bit v f x h]
  by_cases hi : i < g.len
  · have : ¬ (f.lo ≤ g.lo + i ∧ g.lo + i < f.lo + f.len) := by omega
    simp [this]
  · simp [hi]

theorem fldGet_lt (v : BitVec 64) (f : Fld) : fldGet v f < 2 ^ f.len := BitVec.isLt _

theorem gf_sf_same (r : Reg) (f : Fld) (x : Nat) (d : Dev) (h : f.lo + f.len ≤ 64) : gf (sf r f x d) r f = x % 2 ^ f.len := by
  simp [gf, sf, fldGet_fldPut_same _ _ _ h]

theorem gf_sf_disj (r : Reg) (f g : Fld) (x : Nat) (d : Dev) (h : f.lo + f.len ≤ 64)
    (hd : f.lo + f.len ≤ g.lo ∨ g.lo + g.len ≤ f.lo) : gf (sf r f x d) r g = gf d r g := by
  simp [gf, sf, fldGet_fldPut_disj _ _ _ _ h hd]

theorem rd_sf_ne {r q : Reg} (f : Fld) (x : Nat) (d : Dev) (h : q.addr ≠ r.addr) : rd (sf r f x d) q = rd d q :=
  rd_wr_ne _ _ h

theorem gf_sf_ne {r q : Reg} (f g : Fld) (x : Nat) (d : Dev) (h : q.addr ≠ r.addr) : gf (sf r f x d) q g = gf d q g := by
  simp [gf, rd_sf_ne f x d h]

theorem gf_wr_same (r : Reg) (v : BitVec 64) (f : Fld) (d : Dev) : gf (wr r v d) r f = fldGet v f := by simp [gf]

theorem gf_wr_ne {r q : Reg} (v : BitVec 64) (f : Fld) (d : Dev) (h : q.addr ≠ r.addr) : gf (wr r v d) q f = gf d q f := by
  simp [gf, rd_wr_ne v d h]

/-- The stored registers keep their canonical form. -/
theorem rising_regPut (rs : FMap (BitVec 64)) (r : Reg) (v : BitVec 64) (h : Rising rs) : Rising (regPut rs r v) := by
  unfold regPut
  split
  · exact rising_mdel _ _ h
  · exact rising_mput _ _ _ h

end Sys2Proof.Machine
end

