-- ==== Sys2Proof/Laws/Memory.lean ====
section
/-! SUPPORT. Memory: a byte reads back as it was stored, a store leaves every other byte alone, and every memory operation keeps the
canonical form. -/

namespace Sys2Proof.Machine

@[simp] theorem byteAt_byteSet_same (m : List Host.Cell) (a : Nat) (b : Byte) : byteAt (byteSet m a b) a = b := by
  unfold byteAt byteSet
  split
  · simp [*]
  · simp

theorem byteAt_byteSet_ne (m : List Host.Cell) {a c : Nat} (b : Byte) (h : c ≠ a) : byteAt (byteSet m a b) c = byteAt m c := by
  unfold byteAt byteSet
  split
  · exact mgetD_mdel_ne _ _ h
  · exact mgetD_mput_ne _ _ _ h

/-- Bytes outside a stored run read as before. -/
theorem byteAt_bytesSet_out (bs : List Byte) : ∀ (m : List Host.Cell) (a c : Nat), (c < a ∨ a + bs.length ≤ c) →
    byteAt (bytesSet m a bs) c = byteAt m c := by
  induction bs with
  | nil => intros; rfl
  | cons b bs ih =>
    intro m a c h
    simp only [List.length_cons] at h
    unfold bytesSet
    rw [ih _ _ _ (by omega), byteAt_byteSet_ne _ _ (by omega)]

/-- A byte of a stored run reads as stored. -/
theorem byteAt_bytesSet_in (bs : List Byte) : ∀ (m : List Host.Cell) (a i : Nat) (h : i < bs.length),
    byteAt (bytesSet m a bs) (a + i) = bs[i] := by
  induction bs with
  | nil => intro m a i h; simp at h
  | cons b bs ih =>
    intro m a i h
    unfold bytesSet
    cases i with
    | zero => rw [byteAt_bytesSet_out _ _ _ _ (by omega)]; simp
    | succ i =>
      have := ih (byteSet m a b) (a + 1) i (by simpa using h)
      rw [show a + (i + 1) = a + 1 + i by omega, this]
      simp

/-- One byte stored keeps the canonical form. -/
theorem byteSet_wf (m : List Host.Cell) (a : Nat) (b : Byte) (h : Memory.wf m) : Memory.wf (byteSet m a b) := by
  unfold byteSet
  split
  · exact ⟨rising_mdel _ _ h.1, fun c hc => h.2 c (List.mem_of_mem_filter hc)⟩
  · rename_i hb
    refine ⟨rising_mput _ _ _ h.1, fun c hc => ?_⟩
    rcases mem_mput _ _ _ _ hc with rfl | hc
    · exact hb
    · exact h.2 c hc

theorem bytesSet_wf (bs : List Byte) : ∀ (m : List Host.Cell) (a : Nat), Memory.wf m → Memory.wf (bytesSet m a bs) := by
  induction bs with
  | nil => intro m a h; exact h
  | cons b bs ih => intro m a h; exact ih _ _ (byteSet_wf m a b h)

/-- Leaving cells out keeps the canonical form. -/
theorem filter_wf (m : List Host.Cell) (f : Host.Cell → Bool) (h : Memory.wf m) : Memory.wf (m.filter f) :=
  ⟨rising_filter m f h.1, fun c hc => h.2 c (List.mem_of_mem_filter hc)⟩

/-- The listed cells of a run of bytes: rising from its first address, inside it, and none at its default. -/
theorem newCells_wf (bs : List Byte) : ∀ (a : Nat) (i : Nat),
    let new := ((List.range' i bs.length).zip bs).filterMap (fun p =>
      if p.2 = memDefault (a + p.1) then none else some (a + p.1, p.2))
    Memory.wf new ∧ ∀ c ∈ new, a + i ≤ c.1 ∧ c.1 < a + i + bs.length := by
  induction bs with
  | nil => intro a i; simp [Memory.wf, Rising]
  | cons b bs ih =>
    intro a i
    have h := ih a (i + 1)
    simp only [List.length_cons, List.range'_succ, List.zip_cons_cons, List.filterMap_cons] at h ⊢
    split
    · rename_i heq
      refine ⟨h.1, fun c hc => ?_⟩
      have := h.2 c hc
      omega
    · rename_i v heq
      split at heq
      · simp at heq
      · rename_i hb
        obtain rfl : (a + i, b) = v := by simpa using heq
        refine ⟨⟨?_, ?_⟩, ?_⟩
        · simp only [Rising, List.map_cons, List.pairwise_cons]
          refine ⟨?_, h.1.1⟩
          intro x hx
          obtain ⟨c, hc, rfl⟩ := List.mem_map.mp hx
          have := h.2 c hc
          omega
        · intro c hc
          rcases List.mem_cons.mp hc with rfl | hc
          · exact hb
          · exact h.1.2 c hc
        · intro c hc
          rcases List.mem_cons.mp hc with rfl | hc
          · exact ⟨Nat.le_refl _, by show a + i < _; omega⟩
          · have := h.2 c hc
            omega

/-- Cells below, inside and from the end of a run, joined, keep the canonical form. -/
theorem append3_wf (l m r : List Host.Cell) (a b : Nat) (hab : a ≤ b) (hl : Memory.wf l) (hm : Memory.wf m) (hr : Memory.wf r)
    (h1 : ∀ c ∈ l, c.1 < a) (h2 : ∀ c ∈ m, a ≤ c.1 ∧ c.1 < b) (h3 : ∀ c ∈ r, b ≤ c.1) : Memory.wf (l ++ m ++ r) := by
  refine ⟨?_, ?_⟩
  · simp only [Rising, List.map_append, List.pairwise_append, List.mem_append, List.mem_map]
    refine ⟨⟨hl.1, hm.1, ?_⟩, hr.1, ?_⟩
    · rintro x ⟨c, hc, rfl⟩ y ⟨e, he, rfl⟩
      have := h1 c hc
      have := h2 e he
      omega
    · rintro x (⟨c, hc, rfl⟩ | ⟨c, hc, rfl⟩) y ⟨e, he, rfl⟩
      · have := h1 c hc
        have := h3 e he
        omega
      · have := h2 c hc
        have := h3 e he
        omega
  · intro c hc
    rcases List.mem_append.mp hc with hc | hc
    · rcases List.mem_append.mp hc with hc | hc
      · exact hl.2 c hc
      · exact hm.2 c hc
    · exact hr.2 c hc

theorem rawReplace_wf (a : Nat) (bs : List Byte) (d : Dev) (h : Memory.wf d.mem) : Memory.wf (rawReplace a bs d).mem := by
  have hn := newCells_wf bs a 0
  rw [← List.range_eq_range'] at hn
  refine append3_wf _ _ _ a (a + bs.length) (by omega) (filter_wf _ _ h) hn.1 (filter_wf _ _ h) ?_ ?_ ?_
  · intro c hc
    simpa using (List.mem_filter.mp hc).2
  · intro c hc
    simpa using hn.2 c hc
  · intro c hc
    simpa using (List.mem_filter.mp hc).2

end Sys2Proof.Machine
end

