-- ==== Sys2Proof/Laws/Frame.lean ====
section
/-! SUPPORT. What the shared services leave alone: raising an interrupt, logging, memory, array and posted accesses of the device's own masters,
and writing completions change only some registers, and none of the tables that belong to the other blocks. -/

namespace Sys2Proof.Machine

/-- The registers that a shared service may write: those of the SYS, PMU, IC, INTG and RING blocks, CPU_STAT, ENG_STAT of the engines,
the scoresheet writer's status and everything from the array blocks upward. -/
def shared (a : Nat) : Prop :=
  (0x10000000 ≤ a ∧ a < 0x10020000) ∨ (0x10030000 ≤ a ∧ a < 0x10040000) ∨ (0x10080000 ≤ a ∧ a < 0x10090000) ∨
  (0x100C0000 ≤ a ∧ a < 0x100D0000) ∨ (0x10100000 ≤ a ∧ a < 0x10200000 ∧ a % 0x10000 = 4) ∨
  a = 0x10070200 ∨ a = 0x10070204 ∨ a = 0x10070234 ∨ 0x10300000 ≤ a

/-- The tables that no shared service changes, but for the writes that wait to be performed (`Boot.posted`). -/
abbrev Kept : Type := Part × Img × FMap Fifo × Bool × Engs × FMap Pipe × Tm × Nat × Slots × Le × Option TrainRun × Keys × Boot × Periph

def Dev.kept (d : Dev) : Kept :=
  (d.part, d.img, d.fifos, d.pinForce, d.engs, d.pipes, d.tm, d.boots, d.slots, d.le, d.train, d.keys, { d.boot with posted := [] }, d.periph)

/-- A shared register other than the pending bits of the IC. -/
def svc (a : Nat) : Prop := shared a ∧ (a < 0x10030100 ∨ 0x10030140 ≤ a)

/-- A register outside the shared ones holds `v`, the kept tables are `k`, and the sources in `p` are pending. -/
def Holds (r : Reg) (v : BitVec 64) (k : Kept) (p : Nat → Bool) (d : Dev) : Prop :=
  ¬ shared r.addr ∧ rd d r = v ∧ d.kept = k ∧ ∀ n < 512, p n = true → icPending d n = true

variable {rr : Reg} {vv : BitVec 64} {kk : Kept} {pp : Nat → Bool}

/-- A shared register is not one outside them. -/
theorem ne_shared {a b : Nat} (ha : ¬ shared a) (hb : shared b) : a ≠ b := by
  rintro rfl
  exact ha hb

theorem mk_h {mem : List Host.Cell} {poison : FMap Unit} {errs : FMap ErrPat} {out : List Out} {free : Nat} {intg : Intg} {score : Score}
    {rings : Rings} {ic : Ic} {pmu : Pmu} {links : Links} {arys : Arys} {arb : Arb} {d : Dev} (h : Holds rr vv kk pp d) :
    Holds rr vv kk pp (Dev.mk d.part d.regs mem poison errs out free intg score rings ic pmu d.img d.fifos d.pinForce d.engs d.pipes d.tm
      links arys d.boots d.slots d.le arb d.train d.keys d.boot d.periph) := h

theorem wr_h (r : Reg) (v : BitVec 64) (d : Dev) (h : Holds rr vv kk pp d) (hr : svc r.addr) : Holds rr vv kk pp (wr r v d) := by
  refine ⟨h.1, (rd_wr_ne v d (ne_shared h.1 hr.1)).trans h.2.1, h.2.2.1, fun n hn hp => ?_⟩
  have hne : (Reg.IC_PEND (n / 32)).addr ≠ r.addr := by
    intro he
    rw [← he] at hr
    have := hr.2
    simp only [Reg.IC_PEND] at this
    omega
  unfold icPending
  rw [rd_wr_ne v d hne]
  exact h.2.2.2 n hn hp

theorem sf_h (r : Reg) (f : Fld) (x : Nat) (d : Dev) (h : Holds rr vv kk pp d) (hr : svc r.addr) : Holds rr vv kk pp (sf r f x d) :=
  wr_h _ _ _ h hr

/-- An interrupt bit that is set stays set, and nothing else changes. -/
theorem pendSet_h (n : Nat) (d : Dev) (h : Holds rr vv kk pp d) (hn : n < 512) : Holds rr vv kk pp (bankSet Reg.IC_PEND n true d) := by
  have hs : rr.addr ≠ (Reg.IC_PEND (n / 32)).addr := by
    refine ne_shared h.1 ?_
    simp only [shared, Reg.IC_PEND]
    omega
  refine ⟨h.1, (rd_wr_ne _ d hs).trans h.2.1, h.2.2.1, fun m hm hp => ?_⟩
  have old := h.2.2.2 m hm hp
  unfold icPending at old ⊢
  by_cases hq : m / 32 = n / 32
  · unfold bankSet sf
    rw [hq] at old ⊢
    rw [rd_wr_same, fldPut_bit _ _ _ (by dsimp only; omega)]
    split
    · rename_i hb
      have : m % 32 - n % 32 = 0 := by
        dsimp only at hb
        omega
      simp [this, bit]
    · exact old
  · have hne : (Reg.IC_PEND (m / 32)).addr ≠ (Reg.IC_PEND (n / 32)).addr := by
      simp only [Reg.IC_PEND]
      omega
    rw [show bankSet Reg.IC_PEND n true d = wr (Reg.IC_PEND (n / 32)) (fldPut (rd d (Reg.IC_PEND (n / 32))) ⟨n % 32, 1⟩ (bit true)) d from rfl,
      rd_wr_ne _ d hne]
    exact old

theorem ite_h {c : Prop} [Decidable c] {a b : Dev} (ha : Holds rr vv kk pp a) (hb : Holds rr vv kk pp b) :
    Holds rr vv kk pp (if c then a else b) := by
  split
  · exact ha
  · exact hb

theorem ite2_h {α : Type} {c : Prop} [Decidable c] {a b : α × Dev} (ha : Holds rr vv kk pp a.2) (hb : Holds rr vv kk pp b.2) :
    Holds rr vv kk pp (if c then a else b).2 := by
  split
  · exact ha
  · exact hb

theorem forEach_h {α : Type} (l : List α) (f : α → Dev → Dev) (d : Dev) (hf : ∀ x d, Holds rr vv kk pp d → Holds rr vv kk pp (f x d))
    (h : Holds rr vv kk pp d) : Holds rr vv kk pp (forEach l f d) := by
  unfold forEach
  induction l generalizing d with
  | nil => exact h
  | cons x l ih => exact ih _ (hf x d h)

theorem forN_h (n : Nat) (f : Nat → Dev → Dev) (d : Dev)
    (hf : ∀ x d, x < n → Holds rr vv kk pp d → Holds rr vv kk pp (f x d)) (h : Holds rr vv kk pp d) : Holds rr vv kk pp (forN n f d) := by
  unfold forN forEach
  have : ∀ (l : List Nat) (d : Dev), (∀ x ∈ l, x < n) → Holds rr vv kk pp d → Holds rr vv kk pp (l.foldl (fun d x => f x d) d) := by
    intro l
    induction l with
    | nil => exact fun d _ h => h
    | cons x l ih => exact fun d hl h => ih _ (fun y hy => hl y (List.mem_cons_of_mem _ hy)) (hf x d (hl x List.mem_cons_self) h)
  exact this _ d (fun x hx => List.mem_range.mp hx) h

theorem foldl_h {α : Type} (l : List α) (f : Dev → α → Dev) (d : Dev) (hf : ∀ d x, Holds rr vv kk pp d → Holds rr vv kk pp (f d x))
    (h : Holds rr vv kk pp d) : Holds rr vv kk pp (l.foldl f d) := by
  induction l generalizing d with
  | nil => exact h
  | cons x l ih => exact ih _ (hf d x h)

theorem foldl2_h {α β : Type} (l : List α) (f : β × Dev → α → β × Dev) (p : β × Dev)
    (hf : ∀ p x, Holds rr vv kk pp p.2 → Holds rr vv kk pp (f p x).2) (h : Holds rr vv kk pp p.2) : Holds rr vv kk pp (l.foldl f p).2 := by
  induction l generalizing p with
  | nil => exact h
  | cons x l ih => exact ih _ (hf p x h)

theorem h_of_eq {α : Type} {p : α × Dev} {a : α} {d : Dev} (h : p = (a, d)) (hp : Holds rr vv kk pp p.2) : Holds rr vv kk pp d := by
  subst h
  exact hp

theorem h2_of_eq {α β : Type} {p : α × β × Dev} {a : α} {b : β} {d : Dev} (h : p = (a, b, d)) (hp : Holds rr vv kk pp p.2.2) :
    Holds rr vv kk pp d := by
  subst h
  exact hp

end Sys2Proof.Machine
end

