-- ==== Sys2Proof/Laws/Services.lean ====
section
/-! SUPPORT. The shared services (`Frame.lean`) one by one: each keeps every register outside the shared ones, the kept tables and
the interrupts that are pending. -/

namespace Sys2Proof.Machine

variable {rr : Reg} {vv : BitVec 64} {kk : Kept} {pp : Nat → Bool}

theorem emit_h (o : Out) (d : Dev) (hd : Holds rr vv kk pp d) : Holds rr vv kk pp (emit o d) := by
  unfold emit
  apply mk_h
  with_reducible assumption

theorem whenB_h (c : Bool) (f : Dev → Dev) (d : Dev) (hf : ∀ v0, Holds rr vv kk pp v0 → Holds rr vv kk pp (f v0)) (hd : Holds rr vv kk pp d) : Holds rr vv kk pp (whenB c f d) := by
  unfold whenB
  apply ite_h
  · apply hf
    with_reducible assumption
  · with_reducible assumption

theorem takeFree_h (d : Dev) (hd : Holds rr vv kk pp d) : Holds rr vv kk pp (takeFree d).2 := by
  unfold takeFree
  dsimp only
  apply mk_h
  with_reducible assumption

theorem icPresent_h (d : Dev) (hd : Holds rr vv kk pp d) : Holds rr vv kk pp (icPresent d) := by
  unfold icPresent
  lift_lets
  intro x0 x1
  apply ite_h
  · apply mk_h
    with_reducible assumption
  · with_reducible assumption

theorem raisePend_h (n : Nat) (d : Dev) (hd : Holds rr vv kk pp d) : Holds rr vv kk pp (raisePend n d) := by
  unfold raisePend
  dsimp only
  split
  · exact hd
  · have h := icPresent_h _ (pendSet_h n d hd (by omega))
    split
    · exact emit_h _ _ h
    · exact h

theorem pmuCancel_h (last : Nat) (agent : Nat) (d : Dev) (hd : Holds rr vv kk pp d) : Holds rr vv kk pp (pmuCancel last agent d) := by
  unfold pmuCancel
  lift_lets
  intro x0 x1 x2 x3 x4
  have h5 : (Holds rr vv kk pp x0) := by
    dsimp only [x0]
    apply forN_h
    · intro y6 y7 y8 y9
      apply ite_h
      · apply sf_h
        · with_reducible assumption
        · simp only [svc, shared, Reg.ENG_STAT] <;> omega
      · with_reducible assumption
    · with_reducible assumption
  have h10 : (Holds rr vv kk pp x1) := by
    dsimp only [x1]
    apply ite_h
    · with_reducible assumption
    · apply sf_h
      · apply sf_h
        · with_reducible assumption
        · simp only [svc, shared, Reg.CPU_STAT] <;> omega
      · simp only [svc, shared, Reg.CPU_STAT] <;> omega
  have h11 : (Holds rr vv kk pp x4) := by
    dsimp only [x4]
    apply mk_h
    with_reducible assumption
  apply sf_h
  · apply sf_h
    · apply sf_h
      · apply sf_h
        · with_reducible assumption
        · simp only [svc, shared, Reg.PMU_STAT] <;> omega
      · simp only [svc, shared, Reg.PMU_STAT] <;> omega
    · simp only [svc, shared, Reg.PMU_STAT] <;> omega
  · simp only [svc, shared, Reg.PMU_STAT] <;> omega

theorem pmuCause_h (src : Nat) (d : Dev) (hd : Holds rr vv kk pp d) : Holds rr vv kk pp (pmuCause src d) := by
  unfold pmuCause
  apply sf_h
  · apply sf_h
    · with_reducible assumption
    · simp only [svc, shared, Reg.PMU_WAKE_CAUSE] <;> omega
  · simp only [svc, shared, Reg.PMU_WAKE_CAUSE] <;> omega

theorem pmuWakeBit_h (src : Nat) (d : Dev) (hd : Holds rr vv kk pp d) : Holds rr vv kk pp (pmuWakeBit src d) := by
  unfold pmuWakeBit
  lift_lets
  intro x0
  have h1 : (Holds rr vv kk pp x0) := by
    dsimp only [x0]
    apply sf_h
    · with_reducible assumption
    · simp only [svc, shared, Reg.PMU_WAKE_PEND] <;> omega
  apply ite_h
  · apply ite_h
    · apply raisePend_h
      apply pmuCause_h
      apply pmuCancel_h
      with_reducible assumption
    · with_reducible assumption
  · with_reducible assumption

theorem raise_h (n : Nat) (d : Dev) (hd : Holds rr vv kk pp d) : Holds rr vv kk pp (raise n d) := by
  unfold raise
  lift_lets
  intro x0
  have h1 : (Holds rr vv kk pp x0) := by
    dsimp only [x0]
    apply raisePend_h
    with_reducible assumption
  apply ite_h
  · apply pmuWakeBit_h
    with_reducible assumption
  · with_reducible assumption

theorem cntAdd_h (r : Reg) (fc : Fld) (fo : Fld) (n : Nat) (src : Nat) (d : Dev) (hd : Holds rr vv kk pp d) (hr : svc r.addr) : Holds rr vv kk pp (cntAdd r fc fo n src d) := by
  unfold cntAdd
  lift_lets
  intro x0 x1 x2
  have h3 : (Holds rr vv kk pp x2) := by
    dsimp only [x2]
    apply sf_h
    · with_reducible assumption
    · assumption
  apply ite_h
  · apply raise_h
    apply sf_h
    · with_reducible assumption
    · assumption
  · with_reducible assumption

theorem cntAdd64_h (r : Reg) (n : Nat) (d : Dev) (hd : Holds rr vv kk pp d) (hr : svc r.addr) : Holds rr vv kk pp (cntAdd64 r n d) := by
  unfold cntAdd64
  apply wr_h
  · with_reducible assumption
  · assumption

theorem logOnce_h (r : Reg) (fv : Fld) (fo : Fld) (fill : Dev → Dev) (d : Dev) (hfill : ∀ v0, Holds rr vv kk pp v0 → Holds rr vv kk pp (fill v0)) (hd : Holds rr vv kk pp d) (hr : svc r.addr) : Holds rr vv kk pp (logOnce r fv fo fill d) := by
  unfold logOnce
  apply ite_h
  · apply sf_h
    · with_reducible assumption
    · assumption
  · apply hfill
    apply sf_h
    · with_reducible assumption
    · assumption

theorem rawStore_h (a : Nat) (bs : List Byte) (d : Dev) (hd : Holds rr vv kk pp d) : Holds rr vv kk pp (rawStore a bs d) := by
  unfold rawStore
  apply mk_h
  with_reducible assumption

theorem intgUpd_h (st : Nat) (f : IntgStore → IntgStore) (d : Dev) (hd : Holds rr vv kk pp d) : Holds rr vv kk pp (intgUpd st f d) := by
  unfold intgUpd
  lift_lets
  intro x0
  apply mk_h
  with_reducible assumption

theorem intgOvf_h (st : Nat) (d : Dev) (hd : Holds rr vv kk pp d) : Holds rr vv kk pp (intgOvf st d) := by
  unfold intgOvf
  lift_lets
  intro x0
  apply ite_h
  · apply raise_h
    apply intgUpd_h
    with_reducible assumption
  · with_reducible assumption

theorem ceLog_h (st : Nat) (addr : Nat) (sym : Nat) (d : Dev) (hd : Holds rr vv kk pp d) : Holds rr vv kk pp (ceLog st addr sym d) := by
  unfold ceLog
  lift_lets
  intro x0 x1 x2
  have h3 : (Holds rr vv kk pp x0) := by
    dsimp only [x0]
    apply intgOvf_h
    apply intgUpd_h
    with_reducible assumption
  split
  · lift_lets
    intro x4 x5
    have h6 : (Holds rr vv kk pp x5) := by
      dsimp only [x5]
      apply intgUpd_h
      with_reducible assumption
    apply ite_h
    · apply raise_h
      with_reducible assumption
    · with_reducible assumption
  · split
    · lift_lets
      intro x7
      have h8 : (Holds rr vv kk pp x7) := by
        dsimp only [x7]
        apply intgUpd_h
        with_reducible assumption
      apply ite_h
      · apply raise_h
        with_reducible assumption
      · with_reducible assumption
    · apply ite_h
      · with_reducible assumption
      · apply raise_h
        apply intgUpd_h
        with_reducible assumption

theorem ueEntry_h (st : Nat) (cause : Nat) (addr : Nat) (d : Dev) (hd : Holds rr vv kk pp d) : Holds rr vv kk pp (ueEntry st cause addr d) := by
  unfold ueEntry
  lift_lets
  intro x0 x1 x2
  have h3 : (Holds rr vv kk pp x2) := by
    dsimp only [x2]
    apply mk_h
    with_reducible assumption
  apply raise_h
  apply sf_h
  · with_reducible assumption
  · simp only [svc, shared, Reg.INTG_UE_SEQ] <;> omega

theorem ueDecode_h (st : Nat) (addr : Nat) (d : Dev) (hd : Holds rr vv kk pp d) : Holds rr vv kk pp (ueDecode st addr d) := by
  unfold ueDecode
  apply ueEntry_h
  apply intgOvf_h
  apply intgUpd_h
  with_reducible assumption

theorem consume_h (cause : Nat) (master : Nat) (batch : Nat) (id : Nat) (addr : Nat) (d : Dev) (hd : Holds rr vv kk pp d) : Holds rr vv kk pp (consume cause master batch id addr d) := by
  unfold consume
  apply raise_h
  apply logOnce_h
  · intro y0 y1
    apply sf_h
    · apply sf_h
      · apply sf_h
        · apply sf_h
          · apply sf_h
            · with_reducible assumption
            · simp only [svc, shared, Reg.INTG_PC_STAT] <;> omega
          · simp only [svc, shared, Reg.INTG_PC_STAT] <;> omega
        · simp only [svc, shared, Reg.INTG_PC_INFO] <;> omega
      · simp only [svc, shared, Reg.INTG_PC_INFO] <;> omega
    · simp only [svc, shared, Reg.INTG_PC_ADDR] <;> omega
  · apply cntAdd_h
    · with_reducible assumption
    · simp only [svc, shared, Reg.INTG_PC_CNT] <;> omega
  · simp only [svc, shared, Reg.INTG_PC_STAT] <;> omega

theorem markG_h (g : Nat) (d : Dev) (hd : Holds rr vv kk pp d) : Holds rr vv kk pp (markG g d) := by
  unfold markG
  apply mk_h
  with_reducible assumption

theorem unmarkG_h (g : Nat) (d : Dev) (hd : Holds rr vv kk pp d) : Holds rr vv kk pp (unmarkG g d) := by
  unfold unmarkG
  apply mk_h
  with_reducible assumption

theorem errSet_h (g : Nat) (e : ErrPat) (d : Dev) (hd : Holds rr vv kk pp d) : Holds rr vv kk pp (errSet g e d) := by
  unfold errSet
  apply mk_h
  with_reducible assumption

theorem readGran_h (scrub : Bool) (g : Nat) (d : Dev) (hd : Holds rr vv kk pp d) : Holds rr vv kk pp (readGran scrub g d).2 := by
  unfold readGran
  dsimp only
  split
  · exact hd
  · rcases granDecode (rawBytes d (32 * g) 32) (errOf d g) with ⟨_ | ⟨l, _⟩ | _, bs⟩ <;> dsimp only
    · exact hd
    · split
      · exact errSet_h _ _ _ (rawStore_h _ _ _ (ceLog_h _ _ _ _ hd))
      · exact ceLog_h _ _ _ _ hd
    · split
      · exact markG_h _ _ (ueDecode_h _ _ _ hd)
      · exact ueDecode_h _ _ _ hd

theorem flipApply_h (g : Nat) (st : Nat) (d : Dev) (hd : Holds rr vv kk pp d) : Holds rr vv kk pp (flipApply g st d) := by
  unfold flipApply
  lift_lets
  intro x0 x1 x2 x3 x4 x5
  have h6 : (Holds rr vv kk pp x4) := by
    dsimp only [x4]
    apply sf_h
    · with_reducible assumption
    · simp only [svc, shared, Reg.INTG_FLIP] <;> omega
  have h7 : (Holds rr vv kk pp x5) := by
    dsimp only [x5]
    apply errSet_h
    with_reducible assumption
  apply ite_h
  · apply ite_h
    · apply ueEntry_h
      apply markG_h
      with_reducible assumption
    · with_reducible assumption
  · with_reducible assumption

theorem writeGran_h (g : Nat) (o : Nat) (bs : List Byte) (p : Bool) (d : Dev) (hd : Holds rr vv kk pp d) : Holds rr vv kk pp (writeGran g o bs p d) := by
  unfold writeGran
  lift_lets
  intro x0 x1 x2 x3 x4 x5 x6
  have h7 : (Holds rr vv kk pp x1) := by
    dsimp only [x1]
    apply errSet_h
    apply rawStore_h
    with_reducible assumption
  have h8 : (Holds rr vv kk pp (x2).2) := by
    dsimp only [x2]
    apply readGran_h
    with_reducible assumption
  have h9 : (Holds rr vv kk pp x4) := by
    dsimp only [x4]
    apply rawStore_h
    with_reducible assumption
  have h10 : (Holds rr vv kk pp x5) := by
    dsimp only [x5]
    apply errSet_h
    apply rawStore_h
    with_reducible assumption
  have h11 : (Holds rr vv kk pp x6) := by
    dsimp only [x6]
    apply ite_h
    · apply ite_h
      · apply markG_h
        with_reducible assumption
      · apply unmarkG_h
        with_reducible assumption
    · apply ite_h
      · apply markG_h
        with_reducible assumption
      · with_reducible assumption
  apply flipApply_h
  with_reducible assumption

theorem consumeRead_h (cause : Nat) (master : Nat) (fa : Nat) (n : Nat) (d : Dev) (hd : Holds rr vv kk pp d) : Holds rr vv kk pp (consumeRead cause master fa n d) := by
  unfold consumeRead
  apply consume_h
  with_reducible assumption

theorem readMem_h (a : Nat) (n : Nat) (d : Dev) (hd : Holds rr vv kk pp d) : Holds rr vv kk pp (readMem a n d).2 := by
  unfold readMem
  lift_lets
  intro x0
  have h1 : (Holds rr vv kk pp (x0).2) := by
    dsimp only [x0]
    apply foldl2_h
    · intro y2 y3 y4
      dsimp only
      apply readGran_h
      with_reducible assumption
    · with_reducible assumption
  with_reducible assumption

theorem writeMem_h (a : Nat) (bs : List Byte) (p : Bool) (d : Dev) (hd : Holds rr vv kk pp d) : Holds rr vv kk pp (writeMem a bs p d) := by
  unfold writeMem
  apply foldl_h
  · intro y0 y1 y2
    lift_lets
    intro x3 x4
    apply writeGran_h
    with_reducible assumption
  · with_reducible assumption

theorem busError_h (cause : Nat) (master : Nat) (write : Bool) (addr : Nat) (d : Dev) (hd : Holds rr vv kk pp d) : Holds rr vv kk pp (busError cause master write addr d) := by
  unfold busError
  apply logOnce_h
  · intro y0 y1
    apply sf_h
    · apply sf_h
      · apply sf_h
        · apply sf_h
          · with_reducible assumption
          · simp only [svc, shared, Reg.SYS_BERR_STAT] <;> omega
        · simp only [svc, shared, Reg.SYS_BERR_STAT] <;> omega
      · simp only [svc, shared, Reg.SYS_BERR_STAT] <;> omega
    · simp only [svc, shared, Reg.SYS_BERR_ADDR] <;> omega
  · apply cntAdd_h
    · with_reducible assumption
    · simp only [svc, shared, Reg.SYS_BERR_CNT] <;> omega
  · simp only [svc, shared, Reg.SYS_BERR_STAT] <;> omega

theorem scoreProgram_h (final : Bool) (d : Dev) (hd : Holds rr vv kk pp d) : Holds rr vv kk pp (scoreProgram final d) := by
  unfold scoreProgram
  lift_lets
  intro x0 x1 x2 x3
  apply ite_h
  · with_reducible assumption
  · apply mk_h
    with_reducible assumption

theorem scoreFill_h (a0 : Nat) (a1 : Dev) (ha1 : Holds rr vv kk pp a1) : Holds rr vv kk pp (scoreFill a0 a1) := by
  induction a0 generalizing rr vv kk pp a1
  · unfold scoreFill
    with_reducible assumption
  · rename_i u0 ih
    unfold scoreFill
    apply ite_h
    · with_reducible assumption
    · split
      · with_reducible assumption
      · lift_lets
        intro x0 x1 x2 x3 x4 x5 x6
        have h7 : (Holds rr vv kk pp x4) := by
          dsimp only [x4]
          apply mk_h
          with_reducible assumption
        have h8 : (Holds rr vv kk pp x5) := by
          dsimp only [x5]
          apply sf_h
          · with_reducible assumption
          · (unfold svc shared; decide)
        have h9 : (Holds rr vv kk pp x6) := by
          dsimp only [x6]
          apply ite_h
          · apply scoreProgram_h
            with_reducible assumption
          · with_reducible assumption
        apply ite_h
        · with_reducible assumption
        · apply ih
          with_reducible assumption

theorem scoreQueue_h (r : ScoreRec) (d : Dev) (hd : Holds rr vv kk pp d) : Holds rr vv kk pp (scoreQueue r d) := by
  unfold scoreQueue
  lift_lets
  intro x0 x1 x2
  apply ite_h
  · with_reducible assumption
  · apply ite_h
    · apply cntAdd_h
      · apply mk_h
        with_reducible assumption
      · (unfold svc shared; decide)
    · apply scoreFill_h
      apply mk_h
      with_reducible assumption

theorem scoreEvent_h (ev : Nat) (kind : Nat) (index : Nat) (args : List Nat) (d : Dev) (hd : Holds rr vv kk pp d) : Holds rr vv kk pp (scoreEvent ev kind index args d) := by
  unfold scoreEvent
  apply scoreQueue_h
  with_reducible assumption

theorem stackEvent_h (key : Nat) (n : Nat) (d : Dev) (hd : Holds rr vv kk pp d) : Holds rr vv kk pp (stackEvent key n d) := by
  unfold stackEvent
  lift_lets
  intro x0 x1
  apply ite_h
  · with_reducible assumption
  · apply mk_h
    with_reducible assumption

theorem aryUpd_h (k : Nat) (f : Ary → Ary) (d : Dev) (hd : Holds rr vv kk pp d) : Holds rr vv kk pp (aryUpd k f d) := by
  unfold aryUpd
  lift_lets
  intro x0
  apply mk_h
  with_reducible assumption

theorem wearUpd_h (k : Nat) (sector : Bool) (index : Nat) (f : Wear → Wear) (d : Dev) (hd : Holds rr vv kk pp d) : Holds rr vv kk pp (wearUpd k sector index f d) := by
  unfold wearUpd
  apply aryUpd_h
  with_reducible assumption

theorem wearEvent_h (k : Nat) (ev : Nat) (sector : Bool) (index : Nat) (page : Nat) (d : Dev) (hd : Holds rr vv kk pp d) : Holds rr vv kk pp (wearEvent k ev sector index page d) := by
  unfold wearEvent
  apply stackEvent_h
  apply scoreEvent_h
  apply raise_h
  apply logOnce_h
  · intro y0 y1
    apply sf_h
    · apply sf_h
      · apply sf_h
        · apply sf_h
          · apply sf_h
            · with_reducible assumption
            · simp only [svc, shared, Reg.ARY_WEAR_LOG] <;> omega
          · simp only [svc, shared, Reg.ARY_WEAR_LOG] <;> omega
        · simp only [svc, shared, Reg.ARY_WEAR_LOG] <;> omega
      · simp only [svc, shared, Reg.ARY_WEAR_LOG] <;> omega
    · simp only [svc, shared, Reg.ARY_WEAR_LOG] <;> omega
  · with_reducible assumption
  · simp only [svc, shared, Reg.ARY_WEAR_LOG] <;> omega

theorem busDeliver_h (master : Nat) (fa : Nat) (bs : List Byte) (p : Bool) (d : Dev) (hd : Holds rr vv kk pp d) : Holds rr vv kk pp (busDeliver master fa bs p d) := by
  unfold busDeliver
  apply ite_h
  · apply consumeRead_h
    apply emit_h
    with_reducible assumption
  · apply ite_h
    · apply consumeRead_h
      apply emit_h
      with_reducible assumption
    · apply ite_h
      · apply consumeRead_h
        apply emit_h
        with_reducible assumption
      · apply emit_h
        with_reducible assumption

theorem busFail_h (cause : Nat) (master : Nat) (write : Bool) (fa : Nat) (n : Nat) (d : Dev) (hd : Holds rr vv kk pp d) : Holds rr vv kk pp (busFail cause master write fa n d) := by
  unfold busFail
  apply emit_h
  apply busError_h
  with_reducible assumption

theorem senseStart_h (k : Nat) (p : Nat) (d : Dev) (hd : Holds rr vv kk pp d) : Holds rr vv kk pp (senseStart k p d) := by
  unfold senseStart
  lift_lets
  intro x0
  apply ite_h
  · with_reducible assumption
  · split
    · with_reducible assumption
    · apply aryUpd_h
      with_reducible assumption

theorem sensesStart_h (k : Nat) (d : Dev) (hd : Holds rr vv kk pp d) : Holds rr vv kk pp (sensesStart k d) := by
  unfold sensesStart
  apply foldl_h
  · intro y0 y1 y2
    apply senseStart_h
    with_reducible assumption
  · with_reducible assumption

theorem readReg_h (r : PageReg) (addr : Nat) (n : Nat) (d : Dev) (hd : Holds rr vv kk pp d) : Holds rr vv kk pp (readReg r addr n d).2 := by
  unfold readReg
  lift_lets
  intro x0 x1 x2
  have h3 : (Holds rr vv kk pp x0) := by
    dsimp only [x0]
    apply forEach_h
    · intro y4 y5 y6
      apply errSet_h
      with_reducible assumption
    · with_reducible assumption
  have h7 : (Holds rr vv kk pp (x1).2) := by
    dsimp only [x1]
    apply readMem_h
    with_reducible assumption
  have h8 : (Holds rr vv kk pp x2) := by
    dsimp only [x2]
    with_reducible assumption
  dsimp only
  apply mk_h
  with_reducible assumption

theorem senseCount_h (k : Nat) (n : Nat) (d : Dev) (hd : Holds rr vv kk pp d) : Holds rr vv kk pp (senseCount k n d) := by
  unfold senseCount
  lift_lets
  intro x0
  apply whenB_h
  · intro y1 y2
    apply raise_h
    with_reducible assumption
  · apply cntAdd64_h
    · with_reducible assumption
    · simp only [svc, shared, Reg.ARY_SENSE_CNT] <;> omega

theorem winBlank_h (k : Nat) (b : Nat) (d : Dev) (hd : Holds rr vv kk pp d) : Holds rr vv kk pp (winBlank k b d) := by
  unfold winBlank
  lift_lets
  intro x0 x1
  have h2 : (Holds rr vv kk pp x1) := by
    dsimp only [x1]
    apply aryUpd_h
    with_reducible assumption
  apply forEach_h
  · intro y3 y4 y5
    apply busDeliver_h
    apply sf_h
    · with_reducible assumption
    · simp only [svc, shared, Reg.ARY_RD_STAT] <;> omega
  · with_reducible assumption

theorem rawReplace_h (a : Nat) (bs : List Byte) (d : Dev) (hd : Holds rr vv kk pp d) : Holds rr vv kk pp (rawReplace a bs d) := by
  unfold rawReplace
  lift_lets
  intro x0
  apply mk_h
  with_reducible assumption

theorem damage_h (a : Nat) (n : Nat) (d : Dev) (hd : Holds rr vv kk pp d) : Holds rr vv kk pp (damage a n d) := by
  unfold damage
  lift_lets
  intro x0 x1 x2
  have h3 : (Holds rr vv kk pp x2) := by
    dsimp only [x2]
    apply rawReplace_h
    apply mk_h
    with_reducible assumption
  apply forN_h
  · intro y4 y5 y6 y7
    apply errSet_h
    with_reducible assumption
  · with_reducible assumption

theorem invalidate_h (k : Nat) (b : Nat) (d : Dev) (hd : Holds rr vv kk pp d) : Holds rr vv kk pp (invalidate k b d) := by
  unfold invalidate
  apply winBlank_h
  apply aryUpd_h
  with_reducible assumption

theorem psecInvalidate_h (k : Nat) (n : Nat) (d : Dev) (hd : Holds rr vv kk pp d) : Holds rr vv kk pp (psecInvalidate k n d) := by
  unfold psecInvalidate
  lift_lets
  intro x0
  apply aryUpd_h
  with_reducible assumption

theorem grantBack_h (k : Nat) (d : Dev) (hd : Holds rr vv kk pp d) : Holds rr vv kk pp (grantBack k d) := by
  unfold grantBack
  lift_lets
  intro x0 x1 x2
  have h3 : (Holds rr vv kk pp x1) := by
    dsimp only [x1]
    apply ite_h
    · with_reducible assumption
    · apply mk_h
      with_reducible assumption
  apply ite_h
  · with_reducible assumption
  · apply mk_h
    with_reducible assumption

theorem eraseBegin_h (k : Nat) (sector : Bool) (index : Nat) (d : Dev) (hd : Holds rr vv kk pp d) : Holds rr vv kk pp (eraseBegin k sector index d) := by
  unfold eraseBegin
  lift_lets
  intro x0 x1
  have h2 : (Holds rr vv kk pp x1) := by
    dsimp only [x1]
    apply wearUpd_h
    with_reducible assumption
  apply ite_h
  · apply wearEvent_h
    apply wearUpd_h
    with_reducible assumption
  · with_reducible assumption

theorem opRun_h (k : Nat) (g : Nat) (d : Dev) (hd : Holds rr vv kk pp d) : Holds rr vv kk pp (opRun k g d) := by
  unfold opRun
  split
  · with_reducible assumption
  · lift_lets
    intro x0 x1 x2
    have h3 : (Holds rr vv kk pp x0) := by
      dsimp only [x0]
      apply aryUpd_h
      with_reducible assumption
    have h4 : (Holds rr vv kk pp x1) := by
      dsimp only [x1]
      apply ite_h
      · with_reducible assumption
      · apply ite_h
        · apply invalidate_h
          with_reducible assumption
        · apply psecInvalidate_h
          with_reducible assumption
    have h5 : (Holds rr vv kk pp x2) := by
      dsimp only [x2]
      apply ite_h
      · apply eraseBegin_h
        with_reducible assumption
      · with_reducible assumption
    apply ite_h
    · with_reducible assumption
    · apply sf_h
      · with_reducible assumption
      · simp only [svc, shared, Reg.ARY_RD_STAT] <;> omega

theorem opsRun_h (k : Nat) (d : Dev) (hd : Holds rr vv kk pp d) : Holds rr vv kk pp (opsRun k d) := by
  unfold opsRun
  apply forEach_h
  · intro y0 y1 y2
    apply opRun_h
    with_reducible assumption
  · with_reducible assumption

theorem grantAsk_h (k : Nat) (d : Dev) (hd : Holds rr vv kk pp d) : Holds rr vv kk pp (grantAsk k d) := by
  unfold grantAsk
  lift_lets
  intro x0
  apply ite_h
  · apply opsRun_h
    with_reducible assumption
  · apply ite_h
    · with_reducible assumption
    · apply ite_h
      · apply opsRun_h
        apply mk_h
        with_reducible assumption
      · apply mk_h
        with_reducible assumption

theorem opstatTarget_h (k : Nat) (g : Nat) (op : Nat) (index : Nat) (page : Nat) (d : Dev) (hd : Holds rr vv kk pp d) : Holds rr vv kk pp (opstatTarget k g op index page d) := by
  unfold opstatTarget
  apply sf_h
  · apply sf_h
    · apply sf_h
      · with_reducible assumption
      · simp only [svc, shared, Reg.ARY_OPSTAT] <;> omega
    · simp only [svc, shared, Reg.ARY_OPSTAT] <;> omega
  · simp only [svc, shared, Reg.ARY_OPSTAT] <;> omega

theorem opOutcome_h (k : Nat) (g : Nat) (code : Nat) (d : Dev) (hd : Holds rr vv kk pp d) : Holds rr vv kk pp (opOutcome k g code d) := by
  unfold opOutcome
  apply raise_h
  apply sf_h
  · apply sf_h
    · with_reducible assumption
    · simp only [svc, shared, Reg.ARY_OPSTAT] <;> omega
  · simp only [svc, shared, Reg.ARY_OPSTAT] <;> omega

theorem opStart_h (k : Nat) (o : AryOp) (d : Dev) (hd : Holds rr vv kk pp d) : Holds rr vv kk pp (opStart k o d) := by
  unfold opStart
  lift_lets
  intro x0 x1
  have h2 : (Holds rr vv kk pp x1) := by
    dsimp only [x1]
    apply opstatTarget_h
    with_reducible assumption
  apply grantAsk_h
  apply aryUpd_h
  with_reducible assumption

theorem opDrop_h (k : Nat) (g : Nat) (d : Dev) (hd : Holds rr vv kk pp d) : Holds rr vv kk pp (opDrop k g d) := by
  unfold opDrop
  lift_lets
  intro x0 x1
  have h2 : (Holds rr vv kk pp x0) := by
    dsimp only [x0]
    apply aryUpd_h
    with_reducible assumption
  have h3 : (Holds rr vv kk pp x1) := by
    dsimp only [x1]
    apply ite_h
    · with_reducible assumption
    · apply sf_h
      · with_reducible assumption
      · simp only [svc, shared, Reg.ARY_RD_STAT] <;> omega
  apply sensesStart_h
  apply grantBack_h
  with_reducible assumption

theorem opAbort_h (k : Nat) (g : Nat) (d : Dev) (hd : Holds rr vv kk pp d) : Holds rr vv kk pp (opAbort k g d) := by
  unfold opAbort
  split
  · with_reducible assumption
  · lift_lets
    intro x0 x1 x2 x3
    have h4 : (Holds rr vv kk pp x1) := by
      dsimp only [x1]
      apply damage_h
      with_reducible assumption
    have h5 : (Holds rr vv kk pp x3) := by
      dsimp only [x3]
      apply ite_h
      · with_reducible assumption
      · apply ite_h
        · apply forN_h
          · intro y6 y7 y8 y9
            apply damage_h
            with_reducible assumption
          · with_reducible assumption
        · apply ite_h
          · apply damage_h
            with_reducible assumption
          · apply ite_h
            · apply damage_h
              with_reducible assumption
            · with_reducible assumption
    apply opOutcome_h
    apply opDrop_h
    with_reducible assumption

theorem aryAbort_h (k : Nat) (d : Dev) (hd : Holds rr vv kk pp d) : Holds rr vv kk pp (aryAbort k d) := by
  unfold aryAbort
  lift_lets
  intro x0
  have h1 : (Holds rr vv kk pp x0) := by
    dsimp only [x0]
    apply forN_h
    · intro y2 y3 y4 y5
      apply opAbort_h
      with_reducible assumption
    · with_reducible assumption
  apply sf_h
  · apply aryUpd_h
    with_reducible assumption
  · simp only [svc, shared, Reg.ARY_STAT] <;> omega

theorem arySuspend_h (k : Nat) (d : Dev) (hd : Holds rr vv kk pp d) : Holds rr vv kk pp (arySuspend k d) := by
  unfold arySuspend
  lift_lets
  intro x0 x1
  have h2 : (Holds rr vv kk pp x1) := by
    dsimp only [x1]
    apply aryUpd_h
    with_reducible assumption
  apply sensesStart_h
  apply grantBack_h
  with_reducible assumption

theorem aryResume_h (k : Nat) (d : Dev) (hd : Holds rr vv kk pp d) : Holds rr vv kk pp (aryResume k d) := by
  unfold aryResume
  lift_lets
  intro x0 x1
  have h2 : (Holds rr vv kk pp x1) := by
    dsimp only [x1]
    apply aryUpd_h
    with_reducible assumption
  apply ite_h
  · apply aryUpd_h
    with_reducible assumption
  · apply ite_h
    · apply ite_h
      · apply grantAsk_h
        with_reducible assumption
      · with_reducible assumption
    · with_reducible assumption

theorem slotOpen_h (k : Nat) (g : Nat) (d : Dev) (hd : Holds rr vv kk pp d) : Holds rr vv kk pp (slotOpen k g d) := by
  unfold slotOpen
  split
  · with_reducible assumption
  · lift_lets
    intro x0
    have h1 : (Holds rr vv kk pp x0) := by
      dsimp only [x0]
      apply sf_h
      · apply cntAdd_h
        · apply aryUpd_h
          with_reducible assumption
        · simp only [svc, shared, Reg.ARY_SUSP_CNT] <;> omega
      · simp only [svc, shared, Reg.ARY_RD_STAT] <;> omega
    apply sensesStart_h
    apply grantBack_h
    with_reducible assumption

theorem regionSet_h (k : Nat) (sector : Bool) (index : Nat) (v : Nat) (d : Dev) (hd : Holds rr vv kk pp d) : Holds rr vv kk pp (regionSet k sector index v d) := by
  unfold regionSet
  apply ite_h
  · apply sf_h
    · with_reducible assumption
    · simp only [svc, shared, Reg.ARY_PSEC_PROT] <;> omega
  · apply sf_h
    · with_reducible assumption
    · simp only [svc, shared, Reg.ARY_REGION] <;> omega

theorem seqErr_h (k : Nat) (d : Dev) (hd : Holds rr vv kk pp d) : Holds rr vv kk pp (seqErr k d) := by
  unfold seqErr
  apply sf_h
  · apply aryUpd_h
    with_reducible assumption
  · simp only [svc, shared, Reg.ARY_STAT] <;> omega

theorem strayWrite_h (k : Nat) (d : Dev) (hd : Holds rr vv kk pp d) : Holds rr vv kk pp (strayWrite k d) := by
  unfold strayWrite
  apply sf_h
  · with_reducible assumption
  · simp only [svc, shared, Reg.ARY_STAT] <;> omega

theorem setLast_h (k : Nat) (code : Nat) (d : Dev) (hd : Holds rr vv kk pp d) : Holds rr vv kk pp (setLast k code d) := by
  unfold setLast
  apply sf_h
  · with_reducible assumption
  · simp only [svc, shared, Reg.ARY_STAT] <;> omega

theorem cmdErase_h (k : Nat) (master : Nat) (d : Dev) (hd : Holds rr vv kk pp d) : Holds rr vv kk pp (cmdErase k master d) := by
  unfold cmdErase
  lift_lets
  intro x0 x1 x2
  have h3 : (Holds rr vv kk pp x2) := by
    dsimp only [x2]
    apply setLast_h
    with_reducible assumption
  apply ite_h
  · apply opStart_h
    with_reducible assumption
  · with_reducible assumption

theorem cmdBuffer_h (k : Nat) (master : Nat) (d : Dev) (hd : Holds rr vv kk pp d) : Holds rr vv kk pp (cmdBuffer k master d) := by
  unfold cmdBuffer
  lift_lets
  intro x0 x1 x2
  have h3 : (Holds rr vv kk pp x2) := by
    dsimp only [x2]
    apply setLast_h
    with_reducible assumption
  apply ite_h
  · apply aryUpd_h
    with_reducible assumption
  · with_reducible assumption

theorem cmdUnlock_h (k : Nat) (d : Dev) (hd : Holds rr vv kk pp d) : Holds rr vv kk pp (cmdUnlock k d) := by
  unfold cmdUnlock
  lift_lets
  intro x0 x1 x2 x3 x4
  have h5 : (Holds rr vv kk pp x4) := by
    dsimp only [x4]
    apply sf_h
    · apply setLast_h
      with_reducible assumption
    · simp only [svc, shared, Reg.ARY_STAT] <;> omega
  apply ite_h
  · apply setLast_h
    with_reducible assumption
  · apply ite_h
    · apply setLast_h
      with_reducible assumption
    · apply ite_h
      · apply setLast_h
        with_reducible assumption
      · split
        · apply setLast_h
          with_reducible assumption
        · lift_lets
          intro x6
          apply ite_h
          · apply regionSet_h
            apply setLast_h
            with_reducible assumption
          · apply ite_h
            · apply scoreEvent_h
              apply raise_h
              with_reducible assumption
            · with_reducible assumption

theorem cmdLock_h (k : Nat) (d : Dev) (hd : Holds rr vv kk pp d) : Holds rr vv kk pp (cmdLock k d) := by
  unfold cmdLock
  lift_lets
  intro x0 x1 x2 x3 x4 x5 x6
  have h9 : (∀ z7 z8, Holds rr vv kk pp z8 → Holds rr vv kk pp (x6 z7 z8)) := by
    intro y10 y11 y12
    dsimp only [x6]
    apply ite_h
    · apply setLast_h
      with_reducible assumption
    · apply setLast_h
      apply sf_h
      · apply aryUpd_h
        with_reducible assumption
      · simp only [svc, shared, Reg.ARY_STAT] <;> omega
  apply ite_h
  · apply setLast_h
    with_reducible assumption
  · apply ite_h
    · apply setLast_h
      with_reducible assumption
    · apply ite_h
      · apply ite_h
        · apply h9
          with_reducible assumption
        · apply setLast_h
          with_reducible assumption
      · apply ite_h
        · apply ite_h
          · apply setLast_h
            with_reducible assumption
          · apply h9
            with_reducible assumption
        · apply regionSet_h
          apply setLast_h
          with_reducible assumption

theorem seqThird_h (k : Nat) (master : Nat) (w : Nat) (d : Dev) (hd : Holds rr vv kk pp d) : Holds rr vv kk pp (seqThird k master w d) := by
  unfold seqThird
  lift_lets
  intro x0 x1 x2 x3 x4 x5
  have h6 : (Holds rr vv kk pp x2) := by
    dsimp only [x2]
    apply aryUpd_h
    with_reducible assumption
  have h7 : (Holds rr vv kk pp x4) := by
    dsimp only [x4]
    apply sf_h
    · with_reducible assumption
    · simp only [svc, shared, Reg.ARY_STAT] <;> omega
  have h8 : (Holds rr vv kk pp x5) := by
    dsimp only [x5]
    apply setLast_h
    with_reducible assumption
  apply ite_h
  · apply strayWrite_h
    with_reducible assumption
  · apply ite_h
    · apply setLast_h
      with_reducible assumption
    · apply ite_h
      · apply cmdErase_h
        with_reducible assumption
      · apply ite_h
        · apply cmdBuffer_h
          with_reducible assumption
        · apply ite_h
          · apply cmdUnlock_h
            with_reducible assumption
          · apply ite_h
            · apply cmdLock_h
              with_reducible assumption
            · apply ite_h
              · apply arySuspend_h
                with_reducible assumption
              · apply ite_h
                · apply aryResume_h
                  with_reducible assumption
                · apply ite_h
                  · apply aryAbort_h
                    with_reducible assumption
                  · apply ite_h
                    · apply sf_h
                      · with_reducible assumption
                      · simp only [svc, shared, Reg.ARY_STAT] <;> omega
                    · apply ite_h
                      · apply sf_h
                        · with_reducible assumption
                        · simp only [svc, shared, Reg.ARY_STAT] <;> omega
                      · apply sf_h
                        · with_reducible assumption
                        · simp only [svc, shared, Reg.ARY_STAT] <;> omega

theorem flipProgram_h (k : Nat) (block : Nat) (page : Nat) (d : Dev) (hd : Holds rr vv kk pp d) : Holds rr vv kk pp (flipProgram k block page d).2 := by
  unfold flipProgram
  lift_lets
  intro x0 x1 x2
  have h3 : (Holds rr vv kk pp x1) := by
    dsimp only [x1]
    apply flipApply_h
    with_reducible assumption
  apply ite2_h
  · dsimp only
    apply mk_h
    with_reducible assumption
  · with_reducible assumption

theorem pbCommit_h (k : Nat) (d : Dev) (hd : Holds rr vv kk pp d) : Holds rr vv kk pp (pbCommit k d) := by
  unfold pbCommit
  split
  · with_reducible assumption
  · lift_lets
    intro x0 x1 x2 x3 x4 x5
    have h6 : (Holds rr vv kk pp x0) := by
      dsimp only [x0]
      apply aryUpd_h
      with_reducible assumption
    have h7 : (Holds rr vv kk pp x4) := by
      dsimp only [x4]
      apply ite_h
      · apply sf_h
        · with_reducible assumption
        · simp only [svc, shared, Reg.ARY_OPSTAT] <;> omega
      · with_reducible assumption
    have h8 : (Holds rr vv kk pp (x5).2) := by
      dsimp only [x5]
      apply ite2_h
      · with_reducible assumption
      · apply flipProgram_h
        with_reducible assumption
    apply ite_h
    · apply opOutcome_h
      apply opstatTarget_h
      with_reducible assumption
    · apply opStart_h
      with_reducible assumption

theorem pbWrite_h (k : Nat) (o : Nat) (bs : List Byte) (p : Bool) (d : Dev) (hd : Holds rr vv kk pp d) : Holds rr vv kk pp (pbWrite k o bs p d) := by
  unfold pbWrite
  apply aryUpd_h
  with_reducible assumption

theorem winWrite_h (master : Nat) (k : Nat) (o : Nat) (bs : List Byte) (p : Bool) (d : Dev) (hd : Holds rr vv kk pp d) : Holds rr vv kk pp (winWrite master k o bs p d) := by
  unfold winWrite
  lift_lets
  intro x0 x1 x2 x3 x4 x5 x6 x7 x8
  have h10 : (∀ z9, Holds rr vv kk pp z9 → Holds rr vv kk pp (x6 z9)) := by
    intro y11 y12
    dsimp only [x6]
    apply ite_h
    · apply arySuspend_h
      with_reducible assumption
    · apply aryResume_h
      with_reducible assumption
  have h14 : (∀ z13, Holds rr vv kk pp z13 → Holds rr vv kk pp (x7 z13)) := by
    intro y15 y16
    dsimp only [x7]
    apply ite_h
    · apply h10
      with_reducible assumption
    · apply ite_h
      · apply aryUpd_h
        with_reducible assumption
      · apply ite_h
        · apply pbCommit_h
          with_reducible assumption
        · apply ite_h
          · apply pbWrite_h
            with_reducible assumption
          · apply strayWrite_h
            with_reducible assumption
  have h17 : (Holds rr vv kk pp x8) := by
    dsimp only [x8]
    apply seqErr_h
    with_reducible assumption
  split
  · apply h14
    with_reducible assumption
  · apply ite_h
    · apply seqThird_h
      with_reducible assumption
    · apply ite_h
      · apply h14
        with_reducible assumption
      · apply ite_h
        · apply aryUpd_h
          with_reducible assumption
        · apply ite_h
          · with_reducible assumption
          · apply h14
            with_reducible assumption

theorem flitCount_h (r : Reg) (n : Nat) (d : Dev) (hd : Holds rr vv kk pp d) (hr : svc r.addr) : Holds rr vv kk pp (flitCount r n d) := by
  unfold flitCount
  lift_lets
  intro x0
  apply whenB_h
  · intro y1 y2
    apply raise_h
    with_reducible assumption
  · apply cntAdd64_h
    · with_reducible assumption
    · assumption

theorem setLinks_h (l : Links) (d : Dev) (hd : Holds rr vv kk pp d) : Holds rr vv kk pp (setLinks l d) := by
  unfold setLinks
  apply mk_h
  with_reducible assumption

theorem portPut_h (n : Nat) (p : LinkPort) (d : Dev) (hd : Holds rr vv kk pp d) : Holds rr vv kk pp (portPut n p d) := by
  unfold portPut
  lift_lets
  intro x0
  apply setLinks_h
  with_reducible assumption

theorem flitOut_h (n : Nat) (f : Flit) (d : Dev) (hd : Holds rr vv kk pp d) : Holds rr vv kk pp (flitOut n f d) := by
  unfold flitOut
  lift_lets
  intro x0
  apply flitCount_h
  · apply emit_h
    with_reducible assumption
  · simp only [svc, shared, Reg.TL_TX_FLITS] <;> omega

theorem flitSeq_h (n : Nat) (type : Nat) (slots : List Slot) (d : Dev) (hd : Holds rr vv kk pp d) : Holds rr vv kk pp (flitSeq n type slots d) := by
  unfold flitSeq
  lift_lets
  intro x0 x1 x2 x3 x4
  have h5 : (Holds rr vv kk pp x4) := by
    dsimp only [x4]
    apply portPut_h
    with_reducible assumption
  apply flitOut_h
  with_reducible assumption

theorem linkPump_h (a0 : Nat) (a1 : Nat) (a2 : Dev) (ha2 : Holds rr vv kk pp a2) : Holds rr vv kk pp (linkPump a0 a1 a2) := by
  induction a0 generalizing rr vv kk pp a1 a2
  · unfold linkPump
    with_reducible assumption
  · rename_i u0 ih
    unfold linkPump
    lift_lets
    intro x0 x1
    apply ite_h
    · apply ite_h
      · with_reducible assumption
      · apply ih
        apply flitSeq_h
        apply portPut_h
        with_reducible assumption
    · with_reducible assumption

theorem portUpd_h (n : Nat) (f : LinkPort → LinkPort) (d : Dev) (hd : Holds rr vv kk pp d) : Holds rr vv kk pp (portUpd n f d) := by
  unfold portUpd
  apply portPut_h
  with_reducible assumption

theorem linkSlots_h (n : Nat) (ss : List Slot) (d : Dev) (hd : Holds rr vv kk pp d) : Holds rr vv kk pp (linkSlots n ss d) := by
  unfold linkSlots
  lift_lets
  intro x0
  have h1 : (Holds rr vv kk pp x0) := by
    dsimp only [x0]
    apply portUpd_h
    with_reducible assumption
  apply linkPump_h
  with_reducible assumption

theorem slotMake_h (n : Nat) (ch : Nat) (data : List Byte) (flags : Nat) (d : Dev) (hd : Holds rr vv kk pp d) : Holds rr vv kk pp (slotMake n ch data flags d).2 := by
  unfold slotMake
  lift_lets
  intro x0 x1 x2 x3 x4
  have h5 : (Holds rr vv kk pp x4) := by
    dsimp only [x4]
    apply whenB_h
    · intro y6 y7
      apply ueEntry_h
      with_reducible assumption
    · apply sf_h
      · with_reducible assumption
      · simp only [svc, shared, Reg.INTG_FLIP] <;> omega
  apply ite2_h
  · with_reducible assumption
  · with_reducible assumption

theorem msgSlots_h (n : Nat) (m : Msg) (d : Dev) (hd : Holds rr vv kk pp d) : Holds rr vv kk pp (msgSlots n m d).2 := by
  unfold msgSlots
  lift_lets
  intro x0
  apply foldl2_h
  · intro y1 y2 y3
    lift_lets
    intro x4 x5
    have h6 : (Holds rr vv kk pp (x5).2) := by
      dsimp only [x5]
      apply slotMake_h
      with_reducible assumption
    with_reducible assumption
  · with_reducible assumption

theorem setPortState_h (n : Nat) (s : Nat) (d : Dev) (hd : Holds rr vv kk pp d) : Holds rr vv kk pp (setPortState n s d) := by
  unfold setPortState
  apply sf_h
  · with_reducible assumption
  · simp only [svc, shared, Reg.TL_STAT] <;> omega

theorem msgPort_h (n : Nat) (m : Msg) (d : Dev) (hd : Holds rr vv kk pp d) : Holds rr vv kk pp (msgPort n m d) := by
  unfold msgPort
  lift_lets
  intro x0 x1
  have h2 : (Holds rr vv kk pp (x0).2) := by
    dsimp only [x0]
    apply msgSlots_h
    with_reducible assumption
  have h3 : (Holds rr vv kk pp x1) := by
    dsimp only [x1]
    apply portUpd_h
    with_reducible assumption
  apply ite_h
  · apply linkSlots_h
    with_reducible assumption
  · apply ite_h
    · apply emit_h
      apply portUpd_h
      apply setPortState_h
      with_reducible assumption
    · with_reducible assumption

theorem sendMsg_h (m : Msg) (d : Dev) (hd : Holds rr vv kk pp d) : Holds rr vv kk pp (sendMsg m d).2 := by
  unfold sendMsg
  split
  · dsimp only
    apply msgPort_h
    with_reducible assumption
  · with_reducible assumption

theorem routeErr_h (d : Dev) (hd : Holds rr vv kk pp d) : Holds rr vv kk pp (routeErr d) := by
  unfold routeErr
  apply cntAdd_h
  · with_reducible assumption
  · simp only [svc, shared, Reg.TL_ROUTE_ERR] <;> omega

theorem reqSend_h (tag : Nat) (d : Dev) (hd : Holds rr vv kk pp d) : Holds rr vv kk pp (reqSend tag d).2 := by
  unfold reqSend
  split
  · with_reducible assumption
  · lift_lets
    intro x0
    split
    · rename_i w1 w2 w3 w4 w5 w6
      have h7 := h_of_eq (rr := rr) (vv := vv) (kk := kk) (pp := pp) w6 (by
        apply sendMsg_h
        apply setLinks_h
        with_reducible assumption)
      with_reducible assumption
    · rename_i w8 w9 w10 w11 w12 w13
      have h14 := h_of_eq (rr := rr) (vv := vv) (kk := kk) (pp := pp) w13 (by
        apply sendMsg_h
        apply setLinks_h
        with_reducible assumption)
      lift_lets
      intro x15
      dsimp only
      apply busError_h
      apply routeErr_h
      apply setLinks_h
      with_reducible assumption

theorem request_h (k : ReqKind) (m : Msg) (d : Dev) (hd : Holds rr vv kk pp d) : Holds rr vv kk pp (request k m d).2 := by
  unfold request
  lift_lets
  intro x0 x1 x2 x3 x4 x5
  have h6 : (Holds rr vv kk pp x5) := by
    dsimp only [x5]
    apply setLinks_h
    with_reducible assumption
  apply ite2_h
  · apply reqSend_h
    with_reducible assumption
  · with_reducible assumption

theorem outsideEnd_h (link : Bool) (d : Dev) (hd : Holds rr vv kk pp d) : Holds rr vv kk pp (outsideEnd link d).2 := by
  unfold outsideEnd
  lift_lets
  intro x0 x1
  have h2 : (Holds rr vv kk pp (x0).2) := by
    dsimp only [x0]
    apply takeFree_h
    with_reducible assumption
  with_reducible assumption

theorem ownSense_h (k : Nat) (page : Nat) (d : Dev) (hd : Holds rr vv kk pp d) : Holds rr vv kk pp (ownSense k page d) := by
  unfold ownSense
  lift_lets
  intro x0 x1
  have h2 : (Holds rr vv kk pp x1) := by
    dsimp only [x1]
    apply ite_h
    · with_reducible assumption
    · apply slotOpen_h
      with_reducible assumption
  apply aryUpd_h
  apply senseCount_h
  with_reducible assumption

theorem winOwn_h (k : Nat) (o : Nat) (n : Nat) (d : Dev) (hd : Holds rr vv kk pp d) : Holds rr vv kk pp (winOwn k o n d).2 := by
  unfold winOwn
  apply foldl2_h
  · intro y0 y1 y2
    split
    · with_reducible assumption
    · lift_lets
      intro x3 x4 x5 x6 x7 x8
      have h9 : (Holds rr vv kk pp x3) := by
        dsimp only [x3]
        with_reducible assumption
      have h10 : (Holds rr vv kk pp (x8).2) := by
        dsimp only [x8]
        apply readMem_h
        apply ownSense_h
        with_reducible assumption
      apply ite2_h
      · dsimp only
        apply sf_h
        · with_reducible assumption
        · simp only [svc, shared, Reg.ARY_STAT] <;> omega
      · apply ite2_h
        · with_reducible assumption
        · apply ite2_h
          · dsimp only
            apply sf_h
            · with_reducible assumption
            · simp only [svc, shared, Reg.ARY_RD_STAT] <;> omega
          · split
            · lift_lets
              intro x11
              have h12 : (Holds rr vv kk pp (x11).2) := by
                dsimp only [x11]
                apply readReg_h
                with_reducible assumption
              with_reducible assumption
            · apply ite2_h
              · with_reducible assumption
              · dsimp only
                apply sf_h
                · with_reducible assumption
                · simp only [svc, shared, Reg.ARY_RD_STAT] <;> omega
  · with_reducible assumption

theorem ownServe_h (master a n : Nat) (d : Dev) (hd : Holds rr vv kk pp d) (h : region a ≠ .regs ∧ region a ≠ .sync) :
    Holds rr vv kk pp (ownServe master a n d).2 := by
  unfold ownServe
  dsimp only
  split
  · exact winOwn_h _ _ _ _ hd
  · exact absurd ‹_› h.1
  · exact absurd ‹_› h.2
  · exact hd
  · exact readMem_h _ _ _ hd

theorem ownSend_h (ms : List Msg) (d : Dev) (hd : Holds rr vv kk pp d) : Holds rr vv kk pp (ownSend ms d).2 := by
  unfold ownSend
  apply foldl2_h
  · intro y0 y1 y2
    apply ite2_h
    · apply request_h
      with_reducible assumption
    · with_reducible assumption
  · with_reducible assumption

theorem ownEnd_h (link : Bool) (master : Nat) (fa : Nat) (write : Bool) (d : Dev) (hd : Holds rr vv kk pp d) : Holds rr vv kk pp (ownEnd link master fa write d).2.2 := by
  unfold ownEnd
  split
  · rename_i w0 w1 w2 w3 w4
    have h5 := h_of_eq (rr := rr) (vv := vv) (kk := kk) (pp := pp) w4 (by
      apply outsideEnd_h
      with_reducible assumption)
    dsimp only
    apply busError_h
    with_reducible assumption
  · rename_i w6 w7 w8 w9
    have h10 := h_of_eq (rr := rr) (vv := vv) (kk := kk) (pp := pp) w9 (by
      apply outsideEnd_h
      with_reducible assumption)
    with_reducible assumption

theorem ownCause_h (master : Nat) (fa : Nat) (a : Nat) (n : Nat) (write : Bool) (d : Dev) (hd : Holds rr vv kk pp d) : Holds rr vv kk pp (ownCause master fa a n write d).2 := by
  unfold ownCause
  apply ite2_h
  · dsimp only
    apply busError_h
    with_reducible assumption
  · split
    · with_reducible assumption
    · lift_lets
      intro x0
      have h1 : (Holds rr vv kk pp (x0).2) := by
        dsimp only [x0]
        apply takeFree_h
        with_reducible assumption
      apply ite2_h
      · apply ite2_h
        · with_reducible assumption
        · dsimp only
          apply busError_h
          with_reducible assumption
      · dsimp only
        apply busError_h
        with_reducible assumption

theorem masterRead_h (master fa n : Nat) (d : Dev) (hd : Holds rr vv kk pp d)
    (h : ∀ a, localOf d fa = some a → region a ≠ .regs ∧ region a ≠ .sync) : Holds rr vv kk pp (masterRead master fa n d).2 := by
  have out : ∀ (l : Bool) (e : Dev), Holds rr vv kk pp e → Holds rr vv kk pp
      (match ownEnd l master fa false e with | (some c, _, d) => (RdRes.err c, d) | (none, p, d) => (.ok (outsideBytes n e) p, d)).2 := by
    intro l e he
    have q := ownEnd_h l master fa false e he
    rcases hq : ownEnd l master fa false e with ⟨_ | c, p, g⟩ <;> rw [hq] at q <;> exact q
  unfold masterRead
  cases hl : localOf d fa with
  | none =>
    dsimp only
    split
    · split
      · rcases hq : ownSend (ownMsgs master (fa / 2 ^ 40 % 4096) (fa % 2 ^ 40) n none) d with ⟨b, g⟩
        have q := ownSend_h (ownMsgs master (fa / 2 ^ 40 % 4096) (fa % 2 ^ 40) n none) d hd
        rw [hq] at q
        cases b
        · exact q
        · exact out _ _ q
      · exact busError_h _ _ _ _ _ hd
    · exact busError_h _ _ _ _ _ hd
  | some a =>
    dsimp only
    have q := ownCause_h master fa a n false d hd
    rcases hq : ownCause master fa a n false d with ⟨_ | c, g⟩ <;> rw [hq] at q <;> dsimp only
    · split
      · exact out _ _ q
      · have w := ownServe_h master a n g q (h a hl)
        rcases hw : ownServe master a n g with ⟨_ | r, f⟩ <;> rw [hw] at w
        · exact busError_h _ _ _ _ _ w
        · exact w
    · exact q

theorem post_h (master : Nat) (a : Nat) (bs : List Byte) (p : Bool) (d : Dev) (hd : Holds rr vv kk pp d) :
    Holds rr vv kk pp (post master a bs p d) := hd

theorem masterWrite_h (master : Nat) (fa : Nat) (bs : List Byte) (p : Bool) (d : Dev) (hd : Holds rr vv kk pp d) : Holds rr vv kk pp (masterWrite master fa bs p d).2 := by
  unfold masterWrite
  lift_lets
  intro x0
  have h2 : (∀ z1, Holds rr vv kk pp z1 → Holds rr vv kk pp ((x0 z1)).2) := by
    intro y3 y4
    dsimp only [x0]
    apply busError_h
    with_reducible assumption
  split
  · apply ite2_h
    · apply ite2_h
      · split
        · rename_i w5 w6 w7 w8 w9
          have h10 := h_of_eq (rr := rr) (vv := vv) (kk := kk) (pp := pp) w9 (by
            apply ownSend_h
            with_reducible assumption)
          split
          · rename_i w11 w12 w13 w14 w15
            have h16 := h2_of_eq (rr := rr) (vv := vv) (kk := kk) (pp := pp) w15 (by
              apply ownEnd_h
              with_reducible assumption)
            with_reducible assumption
          · rename_i w17 w18 w19 w20
            have h21 := h2_of_eq (rr := rr) (vv := vv) (kk := kk) (pp := pp) w20 (by
              apply ownEnd_h
              with_reducible assumption)
            with_reducible assumption
        · rename_i w22 w23 w24 w25 w26
          have h27 := h_of_eq (rr := rr) (vv := vv) (kk := kk) (pp := pp) w26 (by
            apply ownSend_h
            with_reducible assumption)
          with_reducible assumption
      · dsimp only
        apply busError_h
        with_reducible assumption
    · dsimp only
      apply busError_h
      with_reducible assumption
  · lift_lets
    intro x28
    split
    · rename_i w29 w30 w31 w32 w33 w34 w35
      have h36 := h_of_eq (rr := rr) (vv := vv) (kk := kk) (pp := pp) w35 (by
        apply ownCause_h
        with_reducible assumption)
      with_reducible assumption
    · rename_i w37 w38 w39 w40 w41 w42
      have h43 := h_of_eq (rr := rr) (vv := vv) (kk := kk) (pp := pp) w42 (by
        apply ownCause_h
        with_reducible assumption)
      split
      · dsimp only
        apply winWrite_h
        with_reducible assumption
      · with_reducible assumption
      · dsimp only
        apply emit_h
        with_reducible assumption
      · apply ite2_h
        · dsimp only
          apply post_h
          with_reducible assumption
        · apply h2
          with_reducible assumption
      · apply ite2_h
        · dsimp only
          apply foldl_h
          · intro y44 y45 y46
            apply post_h
            with_reducible assumption
          · with_reducible assumption
        · apply h2
          with_reducible assumption
      · dsimp only
        apply writeMem_h
        with_reducible assumption

theorem ringSignal_h (n : Nat) (d : Dev) (hd : Holds rr vv kk pp d) (hn : n < 16) : Holds rr vv kk pp (ringSignal n d) := by
  unfold ringSignal
  apply raise_h
  apply sf_h
  · with_reducible assumption
  · simp only [svc, shared, Reg.RING_STAT] <;> omega

theorem ringStop_h (n : Nat) (cause : Nat) (d : Dev) (hd : Holds rr vv kk pp d) (hn : n < 16) : Holds rr vv kk pp (ringStop n cause d) := by
  unfold ringStop
  lift_lets
  intro x0 x1
  have h2 : (Holds rr vv kk pp x0) := by
    dsimp only [x0]
    apply sf_h
    · apply sf_h
      · apply sf_h
        · with_reducible assumption
        · simp only [svc, shared, Reg.RING_STAT] <;> omega
      · simp only [svc, shared, Reg.RING_STAT] <;> omega
    · simp only [svc, shared, Reg.RING_CFG] <;> omega
  apply raise_h
  apply mk_h
  with_reducible assumption

theorem opFinish_h (c : Cpl) (d : Dev) (hd : Holds rr vv kk pp d) : Holds rr vv kk pp (opFinish c d) := by
  unfold opFinish
  lift_lets
  intro x0 x1 x2 x3
  have h4 : (Holds rr vv kk pp x2) := by
    dsimp only [x2]
    apply mk_h
    with_reducible assumption
  apply ite_h
  · with_reducible assumption
  · split
    · apply ite_h
      · apply mk_h
        with_reducible assumption
      · with_reducible assumption
    · with_reducible assumption

theorem cplWrite_h (c : Cpl) (d : Dev) (hd : Holds rr vv kk pp d) : Holds rr vv kk pp (cplWrite c d).2 := by
  unfold cplWrite
  lift_lets
  intro x0 x1 x2 x3 x4
  split
  · rename_i w5 w6 w7
    have h8 := h_of_eq (rr := rr) (vv := vv) (kk := kk) (pp := pp) w7 (by
      apply masterWrite_h
      with_reducible assumption)
    dsimp only
    apply ringStop_h
    · with_reducible assumption
    · omega
  · rename_i w9 w10 w11
    have h12 := h_of_eq (rr := rr) (vv := vv) (kk := kk) (pp := pp) w11 (by
      apply masterWrite_h
      with_reducible assumption)
    lift_lets
    intro x13 x14 x15 x16
    have h17 : (Holds rr vv kk pp x13) := by
      dsimp only [x13]
      apply sf_h
      · with_reducible assumption
      · simp only [svc, shared, Reg.RING_CPL_TAIL] <;> omega
    have h18 : (Holds rr vv kk pp x15) := by
      dsimp only [x15]
      apply sf_h
      · with_reducible assumption
      · simp only [svc, shared, Reg.RING_STAT] <;> omega
    have h19 : (Holds rr vv kk pp x16) := by
      dsimp only [x16]
      apply ite_h
      · apply ringSignal_h
        · with_reducible assumption
        · omega
      · with_reducible assumption
    dsimp only
    apply opFinish_h
    with_reducible assumption

theorem cplDrain_h (a0 : Nat) (a1 : Nat) (a2 : Dev) (ha2 : Holds rr vv kk pp a2) : Holds rr vv kk pp (cplDrain a0 a1 a2) := by
  induction a0 generalizing rr vv kk pp a1 a2
  · unfold cplDrain
    with_reducible assumption
  · rename_i u0 ih
    unfold cplDrain
    apply ite_h
    · split
      · with_reducible assumption
      · split
        · rename_i w0 w1 w2 w3 w4 w5 w6
          have h7 := h_of_eq (rr := rr) (vv := vv) (kk := kk) (pp := pp) w6 (by
            apply cplWrite_h
            with_reducible assumption)
          with_reducible assumption
        · rename_i w8 w9 w10 w11 w12 w13 w14
          have h15 := h_of_eq (rr := rr) (vv := vv) (kk := kk) (pp := pp) w14 (by
            apply cplWrite_h
            with_reducible assumption)
          lift_lets
          intro x16
          apply ih
          apply mk_h
          with_reducible assumption
    · with_reducible assumption

theorem complete_h (c : Cpl) (d : Dev) (hd : Holds rr vv kk pp d) : Holds rr vv kk pp (complete c d) := by
  unfold complete
  lift_lets
  intro x0 x1 x2
  apply cplDrain_h
  apply mk_h
  with_reducible assumption

theorem finish_h (a0 : CmdHdr) (status : Nat) (r0 : Nat) (r1 : Nat) (d : Dev) (hd : Holds rr vv kk pp d) : Holds rr vv kk pp (finish a0 status r0 r1 d) := by
  unfold finish
  apply complete_h
  with_reducible assumption

end Sys2Proof.Machine
end

