-- ==== Sys2Proof/Laws/Ops.lean ====
section
/-! SUPPORT. What the shared operations do: an interrupt that is raised is pending, and nothing but the IC's pending bits and what a
wake from an entry under way changes is written; counters that stick; and, for each shared service, that it keeps the registers and the
tables outside its reach. -/

namespace Sys2Proof.Machine

/-! ### Raising an interrupt -/

theorem rd_icPresent (d : Dev) (r : Reg) : rd (icPresent d) r = rd d r := by
  unfold icPresent
  split <;> rfl

theorem rd_raisePend (n : Nat) (d : Dev) (r : Reg) (hr : ¬ raised r.addr) : rd (raisePend n d) r = rd d r := by
  unfold raisePend
  dsimp only
  split
  · rfl
  · have h : rd (icPresent (bankSet Reg.IC_PEND n true d)) r = rd d r := by
      rw [rd_icPresent]
      refine rd_sf_ne _ _ _ ?_
      intro he
      apply hr
      rw [he]
      simp only [raised, Reg.IC_PEND]
      omega
    split
    · exact h
    · exact h

theorem rd_forN (r : Reg) (n : Nat) (f : Nat → Dev → Dev) (d : Dev) (hf : ∀ x d, x < n → rd (f x d) r = rd d r) :
    rd (forN n f d) r = rd d r := by
  unfold forN forEach
  have : ∀ (l : List Nat) (d : Dev), (∀ x ∈ l, x < n) → rd (l.foldl (fun d x => f x d) d) r = rd d r := by
    intro l
    induction l with
    | nil => exact fun d _ => rfl
    | cons x l ih =>
      intro d hl
      rw [List.foldl_cons, ih _ (fun y hy => hl y (List.mem_cons_of_mem _ hy)), hf x d (hl x List.mem_cons_self)]
  exact this _ d (fun x hx => List.mem_range.mp hx)

theorem rd_pmuCancel (last agent : Nat) (d : Dev) (r : Reg) (hr : ¬ raised r.addr) : rd (pmuCancel last agent d) r = rd d r := by
  have hp : r.addr ≠ Reg.PMU_STAT.addr := fun he => hr (by rw [he]; unfold raised; decide)
  have hc : r.addr ≠ Reg.CPU_STAT.addr := fun he => hr (by rw [he]; unfold raised; decide)
  have he : ∀ k < 16, r.addr ≠ (Reg.ENG_STAT k).addr := by
    intro k hk he
    apply hr
    rw [he]
    simp only [raised, Reg.ENG_STAT]
    omega
  unfold pmuCancel
  dsimp only
  rw [rd_sf_ne _ _ _ hp, rd_sf_ne _ _ _ hp, rd_sf_ne _ _ _ hp, rd_sf_ne _ _ _ hp]
  refine Eq.trans (b := rd _ r) (show _ = rd (ite _ _ _) r from rfl) ?_
  split
  · refine rd_forN r 16 _ d fun k e hk => ?_
    split
    · exact rd_sf_ne _ _ _ (he k hk)
    · rfl
  · rw [rd_sf_ne _ _ _ hc, rd_sf_ne _ _ _ hc]
    refine rd_forN r 16 _ d fun k e hk => ?_
    split
    · exact rd_sf_ne _ _ _ (he k hk)
    · rfl

theorem rd_pmuWakeBit (src : Nat) (d : Dev) (r : Reg) (hr : ¬ raised r.addr) : rd (pmuWakeBit src d) r = rd d r := by
  have hp : r.addr ≠ Reg.PMU_WAKE_PEND.addr := fun he => hr (by rw [he]; unfold raised; decide)
  have hc : r.addr ≠ Reg.PMU_WAKE_CAUSE.addr := fun he => hr (by rw [he]; unfold raised; decide)
  unfold pmuWakeBit
  split
  · dsimp only
    split
    · rw [rd_raisePend _ _ _ hr]
      unfold pmuCause
      rw [rd_sf_ne _ _ _ hc, rd_sf_ne _ _ _ hc, rd_pmuCancel _ _ _ _ hr, rd_sf_ne _ _ _ hp]
    · exact rd_sf_ne _ _ _ hp
  · rfl

/-- Raising an interrupt leaves every register alone but the pending bits and those of an entry that it cancels. -/
theorem rd_raise (n : Nat) (d : Dev) (r : Reg) (hr : ¬ raised r.addr) : rd (raise n d) r = rd d r := by
  unfold raise
  dsimp only
  split
  · rw [rd_pmuWakeBit _ _ _ hr, rd_raisePend _ _ _ hr]
  · exact rd_raisePend _ _ _ hr

theorem gf_raise (n : Nat) (d : Dev) (r : Reg) (f : Fld) (hr : ¬ raised r.addr) : gf (raise n d) r f = gf d r f := by
  unfold gf
  rw [rd_raise n d r hr]

/-- A register that no service writes, to use the service lemmas for tables and interrupts alone. -/
def quiet : Reg := ⟨0, 0⟩

theorem holds_self (r : Reg) (hr : ¬ shared r.addr) (d : Dev) : Holds r (rd d r) d.kept (icPending d) d :=
  ⟨hr, rfl, rfl, fun _ _ h => h⟩

theorem quiet_free : ¬ shared quiet.addr := by
  unfold shared quiet
  decide

/-- What is pending stays pending when another interrupt is raised. -/
theorem icPending_raise_mono (n m : Nat) (d : Dev) (hm : m < 512) (h : icPending d m = true) : icPending (raise n d) m = true :=
  (raise_h n d (holds_self quiet quiet_free d)).2.2.2 m hm h

theorem icPending_bankSet (n : Nat) (d : Dev) : icPending (bankSet Reg.IC_PEND n true d) n = true := by
  unfold icPending bankSet sf
  rw [rd_wr_same, fldPut_bit _ _ _ (by dsimp only; omega)]
  simp [bit]

theorem icPending_icPresent (n : Nat) (d : Dev) : icPending (icPresent d) n = icPending d n := by
  unfold icPending
  rw [rd_icPresent]

theorem icPending_raisePend (n : Nat) (d : Dev) (hn : n < 512) : icPending (raisePend n d) n = true := by
  have h : icPending (icPresent (bankSet Reg.IC_PEND n true d)) n = true := by
    rw [icPending_icPresent, icPending_bankSet]
  unfold raisePend
  dsimp only
  rw [if_neg (by omega)]
  split
  · exact h
  · exact h

/-- An interrupt that has been raised is pending (R683). -/
theorem icPending_raise (n : Nat) (d : Dev) (hn : n < 512) : icPending (raise n d) n = true := by
  unfold raise
  dsimp only
  have h := icPending_raisePend n d hn
  split
  · exact (pmuWakeBit_h 14 _ (holds_self quiet quiet_free _)).2.2.2 n hn h
  · exact h

/-! ### Counters and logs -/

/-- A counter adds, and sticks at its all-ones value. -/
theorem gf_cntAdd (r : Reg) (fc fo : Fld) (n src : Nat) (d : Dev) (hc : fc.lo + fc.len ≤ 64) (ho : fo.lo + fo.len ≤ 64)
    (hd : fo.lo + fo.len ≤ fc.lo ∨ fc.lo + fc.len ≤ fo.lo) (hr : ¬ raised r.addr) :
    gf (cntAdd r fc fo n src d) r fc = min (gf d r fc + n) (2 ^ fc.len - 1) := by
  have hp : 0 < 2 ^ fc.len := Nat.two_pow_pos _
  have hv : gf (sf r fc (min (gf d r fc + n) (2 ^ fc.len - 1)) d) r fc = min (gf d r fc + n) (2 ^ fc.len - 1) := by
    rw [gf_sf_same _ _ _ _ hc]
    exact Nat.mod_eq_of_lt (by omega)
  unfold cntAdd
  dsimp only
  split
  · rw [gf_raise _ _ _ _ hr, gf_sf_disj _ _ _ _ _ ho hd, hv]
  · exact hv

/-- A counter leaves every other register alone, but for what its interrupt may write. -/
theorem rd_cntAdd_ne (r q : Reg) (fc fo : Fld) (n src : Nat) (d : Dev) (hq : q.addr ≠ r.addr) (hr : ¬ raised q.addr) :
    rd (cntAdd r fc fo n src d) q = rd d q := by
  unfold cntAdd
  dsimp only
  split
  · rw [rd_raise _ _ _ hr, rd_sf_ne _ _ _ hq, rd_sf_ne _ _ _ hq]
  · exact rd_sf_ne _ _ _ hq

/-! ### The services, one by one -/

theorem rd_finish (h : CmdHdr) (c a b : Nat) (d : Dev) (r : Reg) (hr : ¬ shared r.addr) : rd (finish h c a b d) r = rd d r :=
  (finish_h h c a b d (holds_self r hr d)).2.1

theorem gf_finish (h : CmdHdr) (c a b : Nat) (d : Dev) (r : Reg) (f : Fld) (hr : ¬ shared r.addr) :
    gf (finish h c a b d) r f = gf d r f := by
  unfold gf
  rw [rd_finish h c a b d r hr]

theorem kept_finish (h : CmdHdr) (c a b : Nat) (d : Dev) : (finish h c a b d).kept = d.kept :=
  (finish_h h c a b d (holds_self quiet quiet_free d)).2.2.1

theorem icPending_finish (h : CmdHdr) (c a b : Nat) (d : Dev) (n : Nat) (hn : n < 512) (hp : icPending d n = true) :
    icPending (finish h c a b d) n = true := (finish_h h c a b d (holds_self quiet quiet_free d)).2.2.2 n hn hp

theorem kept_raise (n : Nat) (d : Dev) : (raise n d).kept = d.kept := (raise_h n d (holds_self quiet quiet_free d)).2.2.1

theorem rd_consume (c m b i a : Nat) (d : Dev) (r : Reg) (hr : ¬ shared r.addr) : rd (consume c m b i a d) r = rd d r :=
  (consume_h c m b i a d (holds_self r hr d)).2.1

theorem kept_consume (c m b i a : Nat) (d : Dev) : (consume c m b i a d).kept = d.kept :=
  (consume_h c m b i a d (holds_self quiet quiet_free d)).2.2.1

theorem rd_busFail (c m : Nat) (w : Bool) (a n : Nat) (d : Dev) (r : Reg) (hr : ¬ shared r.addr) : rd (busFail c m w a n d) r = rd d r :=
  (busFail_h c m w a n d (holds_self r hr d)).2.1

theorem kept_busFail (c m : Nat) (w : Bool) (a n : Nat) (d : Dev) : (busFail c m w a n d).kept = d.kept :=
  (busFail_h c m w a n d (holds_self quiet quiet_free d)).2.2.1

theorem rd_masterRead (m fa n : Nat) (d : Dev) (r : Reg) (hr : ¬ shared r.addr)
    (h : ∀ a, localOf d fa = some a → region a ≠ .regs ∧ region a ≠ .sync) : rd (masterRead m fa n d).2 r = rd d r :=
  (masterRead_h m fa n d (holds_self r hr d) h).2.1

theorem kept_masterRead (m fa n : Nat) (d : Dev) (h : ∀ a, localOf d fa = some a → region a ≠ .regs ∧ region a ≠ .sync) :
    (masterRead m fa n d).2.kept = d.kept := (masterRead_h m fa n d (holds_self quiet quiet_free d) h).2.2.1

theorem rd_masterWrite (m fa : Nat) (bs : List Byte) (p : Bool) (d : Dev) (r : Reg) (hr : ¬ shared r.addr) :
    rd (masterWrite m fa bs p d).2 r = rd d r := (masterWrite_h m fa bs p d (holds_self r hr d)).2.1

theorem kept_masterWrite (m fa : Nat) (bs : List Byte) (p : Bool) (d : Dev) : (masterWrite m fa bs p d).2.kept = d.kept :=
  (masterWrite_h m fa bs p d (holds_self quiet quiet_free d)).2.2.1

end Sys2Proof.Machine
end

