-- ==== Sys2Proof/Laws/State.lean ====
section
/-! SUPPORT. Each update of a field of the state leaves every other field alone, and a field that is set reads as it was set. -/

namespace Sys2Proof.Machine

@[simp] theorem State.dev_pending (s : State) (d : Dev) : { s with dev := d }.pending = s.pending := rfl
@[simp] theorem State.dev_dev (s : State) (d : Dev) : { s with dev := d }.dev = d := rfl
@[simp] theorem State.pending_dev (s : State) (q : List Instr) : { s with pending := q }.dev = s.dev := rfl
@[simp] theorem State.pending_pending (s : State) (q : List Instr) : { s with pending := q }.pending = q := rfl

@[simp] theorem wr_part (r : Reg) (v : BitVec 64) (d : Dev) : (wr r v d).part = d.part := rfl
@[simp] theorem wr_mem (r : Reg) (v : BitVec 64) (d : Dev) : (wr r v d).mem = d.mem := rfl
@[simp] theorem wr_poison (r : Reg) (v : BitVec 64) (d : Dev) : (wr r v d).poison = d.poison := rfl
@[simp] theorem wr_errs (r : Reg) (v : BitVec 64) (d : Dev) : (wr r v d).errs = d.errs := rfl
@[simp] theorem wr_out (r : Reg) (v : BitVec 64) (d : Dev) : (wr r v d).out = d.out := rfl
@[simp] theorem wr_free (r : Reg) (v : BitVec 64) (d : Dev) : (wr r v d).free = d.free := rfl
@[simp] theorem wr_intg (r : Reg) (v : BitVec 64) (d : Dev) : (wr r v d).intg = d.intg := rfl
@[simp] theorem wr_score (r : Reg) (v : BitVec 64) (d : Dev) : (wr r v d).score = d.score := rfl
@[simp] theorem wr_rings (r : Reg) (v : BitVec 64) (d : Dev) : (wr r v d).rings = d.rings := rfl
@[simp] theorem wr_ic (r : Reg) (v : BitVec 64) (d : Dev) : (wr r v d).ic = d.ic := rfl
@[simp] theorem wr_pmu (r : Reg) (v : BitVec 64) (d : Dev) : (wr r v d).pmu = d.pmu := rfl
@[simp] theorem wr_img (r : Reg) (v : BitVec 64) (d : Dev) : (wr r v d).img = d.img := rfl
@[simp] theorem wr_fifos (r : Reg) (v : BitVec 64) (d : Dev) : (wr r v d).fifos = d.fifos := rfl
@[simp] theorem wr_pinForce (r : Reg) (v : BitVec 64) (d : Dev) : (wr r v d).pinForce = d.pinForce := rfl
@[simp] theorem wr_engs (r : Reg) (v : BitVec 64) (d : Dev) : (wr r v d).engs = d.engs := rfl
@[simp] theorem wr_pipes (r : Reg) (v : BitVec 64) (d : Dev) : (wr r v d).pipes = d.pipes := rfl
@[simp] theorem wr_tm (r : Reg) (v : BitVec 64) (d : Dev) : (wr r v d).tm = d.tm := rfl
@[simp] theorem wr_links (r : Reg) (v : BitVec 64) (d : Dev) : (wr r v d).links = d.links := rfl
@[simp] theorem wr_arys (r : Reg) (v : BitVec 64) (d : Dev) : (wr r v d).arys = d.arys := rfl
@[simp] theorem wr_boots (r : Reg) (v : BitVec 64) (d : Dev) : (wr r v d).boots = d.boots := rfl
@[simp] theorem wr_slots (r : Reg) (v : BitVec 64) (d : Dev) : (wr r v d).slots = d.slots := rfl
@[simp] theorem wr_le (r : Reg) (v : BitVec 64) (d : Dev) : (wr r v d).le = d.le := rfl
@[simp] theorem wr_arb (r : Reg) (v : BitVec 64) (d : Dev) : (wr r v d).arb = d.arb := rfl
@[simp] theorem wr_train (r : Reg) (v : BitVec 64) (d : Dev) : (wr r v d).train = d.train := rfl
@[simp] theorem wr_keys (r : Reg) (v : BitVec 64) (d : Dev) : (wr r v d).keys = d.keys := rfl
@[simp] theorem wr_boot (r : Reg) (v : BitVec 64) (d : Dev) : (wr r v d).boot = d.boot := rfl
@[simp] theorem wr_periph (r : Reg) (v : BitVec 64) (d : Dev) : (wr r v d).periph = d.periph := rfl

@[simp] theorem sf_part (r : Reg) (f : Fld) (x : Nat) (d : Dev) : (sf r f x d).part = d.part := rfl
@[simp] theorem sf_mem (r : Reg) (f : Fld) (x : Nat) (d : Dev) : (sf r f x d).mem = d.mem := rfl
@[simp] theorem sf_poison (r : Reg) (f : Fld) (x : Nat) (d : Dev) : (sf r f x d).poison = d.poison := rfl
@[simp] theorem sf_errs (r : Reg) (f : Fld) (x : Nat) (d : Dev) : (sf r f x d).errs = d.errs := rfl
@[simp] theorem sf_out (r : Reg) (f : Fld) (x : Nat) (d : Dev) : (sf r f x d).out = d.out := rfl
@[simp] theorem sf_free (r : Reg) (f : Fld) (x : Nat) (d : Dev) : (sf r f x d).free = d.free := rfl
@[simp] theorem sf_intg (r : Reg) (f : Fld) (x : Nat) (d : Dev) : (sf r f x d).intg = d.intg := rfl
@[simp] theorem sf_score (r : Reg) (f : Fld) (x : Nat) (d : Dev) : (sf r f x d).score = d.score := rfl
@[simp] theorem sf_rings (r : Reg) (f : Fld) (x : Nat) (d : Dev) : (sf r f x d).rings = d.rings := rfl
@[simp] theorem sf_ic (r : Reg) (f : Fld) (x : Nat) (d : Dev) : (sf r f x d).ic = d.ic := rfl
@[simp] theorem sf_pmu (r : Reg) (f : Fld) (x : Nat) (d : Dev) : (sf r f x d).pmu = d.pmu := rfl
@[simp] theorem sf_img (r : Reg) (f : Fld) (x : Nat) (d : Dev) : (sf r f x d).img = d.img := rfl
@[simp] theorem sf_fifos (r : Reg) (f : Fld) (x : Nat) (d : Dev) : (sf r f x d).fifos = d.fifos := rfl
@[simp] theorem sf_pinForce (r : Reg) (f : Fld) (x : Nat) (d : Dev) : (sf r f x d).pinForce = d.pinForce := rfl
@[simp] theorem sf_engs (r : Reg) (f : Fld) (x : Nat) (d : Dev) : (sf r f x d).engs = d.engs := rfl
@[simp] theorem sf_pipes (r : Reg) (f : Fld) (x : Nat) (d : Dev) : (sf r f x d).pipes = d.pipes := rfl
@[simp] theorem sf_tm (r : Reg) (f : Fld) (x : Nat) (d : Dev) : (sf r f x d).tm = d.tm := rfl
@[simp] theorem sf_links (r : Reg) (f : Fld) (x : Nat) (d : Dev) : (sf r f x d).links = d.links := rfl
@[simp] theorem sf_arys (r : Reg) (f : Fld) (x : Nat) (d : Dev) : (sf r f x d).arys = d.arys := rfl
@[simp] theorem sf_boots (r : Reg) (f : Fld) (x : Nat) (d : Dev) : (sf r f x d).boots = d.boots := rfl
@[simp] theorem sf_slots (r : Reg) (f : Fld) (x : Nat) (d : Dev) : (sf r f x d).slots = d.slots := rfl
@[simp] theorem sf_le (r : Reg) (f : Fld) (x : Nat) (d : Dev) : (sf r f x d).le = d.le := rfl
@[simp] theorem sf_arb (r : Reg) (f : Fld) (x : Nat) (d : Dev) : (sf r f x d).arb = d.arb := rfl
@[simp] theorem sf_train (r : Reg) (f : Fld) (x : Nat) (d : Dev) : (sf r f x d).train = d.train := rfl
@[simp] theorem sf_keys (r : Reg) (f : Fld) (x : Nat) (d : Dev) : (sf r f x d).keys = d.keys := rfl
@[simp] theorem sf_boot (r : Reg) (f : Fld) (x : Nat) (d : Dev) : (sf r f x d).boot = d.boot := rfl
@[simp] theorem sf_periph (r : Reg) (f : Fld) (x : Nat) (d : Dev) : (sf r f x d).periph = d.periph := rfl

@[simp] theorem emit_part (o : Out) (d : Dev) : (emit o d).part = d.part := rfl
@[simp] theorem emit_regs (o : Out) (d : Dev) : (emit o d).regs = d.regs := rfl
@[simp] theorem emit_mem (o : Out) (d : Dev) : (emit o d).mem = d.mem := rfl
@[simp] theorem emit_poison (o : Out) (d : Dev) : (emit o d).poison = d.poison := rfl
@[simp] theorem emit_errs (o : Out) (d : Dev) : (emit o d).errs = d.errs := rfl
@[simp] theorem emit_free (o : Out) (d : Dev) : (emit o d).free = d.free := rfl
@[simp] theorem emit_intg (o : Out) (d : Dev) : (emit o d).intg = d.intg := rfl
@[simp] theorem emit_score (o : Out) (d : Dev) : (emit o d).score = d.score := rfl
@[simp] theorem emit_rings (o : Out) (d : Dev) : (emit o d).rings = d.rings := rfl
@[simp] theorem emit_ic (o : Out) (d : Dev) : (emit o d).ic = d.ic := rfl
@[simp] theorem emit_pmu (o : Out) (d : Dev) : (emit o d).pmu = d.pmu := rfl
@[simp] theorem emit_img (o : Out) (d : Dev) : (emit o d).img = d.img := rfl
@[simp] theorem emit_fifos (o : Out) (d : Dev) : (emit o d).fifos = d.fifos := rfl
@[simp] theorem emit_pinForce (o : Out) (d : Dev) : (emit o d).pinForce = d.pinForce := rfl
@[simp] theorem emit_engs (o : Out) (d : Dev) : (emit o d).engs = d.engs := rfl
@[simp] theorem emit_pipes (o : Out) (d : Dev) : (emit o d).pipes = d.pipes := rfl
@[simp] theorem emit_tm (o : Out) (d : Dev) : (emit o d).tm = d.tm := rfl
@[simp] theorem emit_links (o : Out) (d : Dev) : (emit o d).links = d.links := rfl
@[simp] theorem emit_arys (o : Out) (d : Dev) : (emit o d).arys = d.arys := rfl
@[simp] theorem emit_boots (o : Out) (d : Dev) : (emit o d).boots = d.boots := rfl
@[simp] theorem emit_slots (o : Out) (d : Dev) : (emit o d).slots = d.slots := rfl
@[simp] theorem emit_le (o : Out) (d : Dev) : (emit o d).le = d.le := rfl
@[simp] theorem emit_arb (o : Out) (d : Dev) : (emit o d).arb = d.arb := rfl
@[simp] theorem emit_train (o : Out) (d : Dev) : (emit o d).train = d.train := rfl
@[simp] theorem emit_keys (o : Out) (d : Dev) : (emit o d).keys = d.keys := rfl
@[simp] theorem emit_boot (o : Out) (d : Dev) : (emit o d).boot = d.boot := rfl
@[simp] theorem emit_periph (o : Out) (d : Dev) : (emit o d).periph = d.periph := rfl

@[simp] theorem rawStore_part (a : Nat) (bs : List Byte) (d : Dev) : (rawStore a bs d).part = d.part := rfl
@[simp] theorem rawStore_regs (a : Nat) (bs : List Byte) (d : Dev) : (rawStore a bs d).regs = d.regs := rfl
@[simp] theorem rawStore_poison (a : Nat) (bs : List Byte) (d : Dev) : (rawStore a bs d).poison = d.poison := rfl
@[simp] theorem rawStore_errs (a : Nat) (bs : List Byte) (d : Dev) : (rawStore a bs d).errs = d.errs := rfl
@[simp] theorem rawStore_out (a : Nat) (bs : List Byte) (d : Dev) : (rawStore a bs d).out = d.out := rfl
@[simp] theorem rawStore_free (a : Nat) (bs : List Byte) (d : Dev) : (rawStore a bs d).free = d.free := rfl
@[simp] theorem rawStore_intg (a : Nat) (bs : List Byte) (d : Dev) : (rawStore a bs d).intg = d.intg := rfl
@[simp] theorem rawStore_score (a : Nat) (bs : List Byte) (d : Dev) : (rawStore a bs d).score = d.score := rfl
@[simp] theorem rawStore_rings (a : Nat) (bs : List Byte) (d : Dev) : (rawStore a bs d).rings = d.rings := rfl
@[simp] theorem rawStore_ic (a : Nat) (bs : List Byte) (d : Dev) : (rawStore a bs d).ic = d.ic := rfl
@[simp] theorem rawStore_pmu (a : Nat) (bs : List Byte) (d : Dev) : (rawStore a bs d).pmu = d.pmu := rfl
@[simp] theorem rawStore_img (a : Nat) (bs : List Byte) (d : Dev) : (rawStore a bs d).img = d.img := rfl
@[simp] theorem rawStore_fifos (a : Nat) (bs : List Byte) (d : Dev) : (rawStore a bs d).fifos = d.fifos := rfl
@[simp] theorem rawStore_pinForce (a : Nat) (bs : List Byte) (d : Dev) : (rawStore a bs d).pinForce = d.pinForce := rfl
@[simp] theorem rawStore_engs (a : Nat) (bs : List Byte) (d : Dev) : (rawStore a bs d).engs = d.engs := rfl
@[simp] theorem rawStore_pipes (a : Nat) (bs : List Byte) (d : Dev) : (rawStore a bs d).pipes = d.pipes := rfl
@[simp] theorem rawStore_tm (a : Nat) (bs : List Byte) (d : Dev) : (rawStore a bs d).tm = d.tm := rfl
@[simp] theorem rawStore_links (a : Nat) (bs : List Byte) (d : Dev) : (rawStore a bs d).links = d.links := rfl
@[simp] theorem rawStore_arys (a : Nat) (bs : List Byte) (d : Dev) : (rawStore a bs d).arys = d.arys := rfl
@[simp] theorem rawStore_boots (a : Nat) (bs : List Byte) (d : Dev) : (rawStore a bs d).boots = d.boots := rfl
@[simp] theorem rawStore_slots (a : Nat) (bs : List Byte) (d : Dev) : (rawStore a bs d).slots = d.slots := rfl
@[simp] theorem rawStore_le (a : Nat) (bs : List Byte) (d : Dev) : (rawStore a bs d).le = d.le := rfl
@[simp] theorem rawStore_arb (a : Nat) (bs : List Byte) (d : Dev) : (rawStore a bs d).arb = d.arb := rfl
@[simp] theorem rawStore_train (a : Nat) (bs : List Byte) (d : Dev) : (rawStore a bs d).train = d.train := rfl
@[simp] theorem rawStore_keys (a : Nat) (bs : List Byte) (d : Dev) : (rawStore a bs d).keys = d.keys := rfl
@[simp] theorem rawStore_boot (a : Nat) (bs : List Byte) (d : Dev) : (rawStore a bs d).boot = d.boot := rfl
@[simp] theorem rawStore_periph (a : Nat) (bs : List Byte) (d : Dev) : (rawStore a bs d).periph = d.periph := rfl

@[simp] theorem markG_part (g : Nat) (d : Dev) : (markG g d).part = d.part := rfl
@[simp] theorem markG_regs (g : Nat) (d : Dev) : (markG g d).regs = d.regs := rfl
@[simp] theorem markG_mem (g : Nat) (d : Dev) : (markG g d).mem = d.mem := rfl
@[simp] theorem markG_errs (g : Nat) (d : Dev) : (markG g d).errs = d.errs := rfl
@[simp] theorem markG_out (g : Nat) (d : Dev) : (markG g d).out = d.out := rfl
@[simp] theorem markG_free (g : Nat) (d : Dev) : (markG g d).free = d.free := rfl
@[simp] theorem markG_intg (g : Nat) (d : Dev) : (markG g d).intg = d.intg := rfl
@[simp] theorem markG_score (g : Nat) (d : Dev) : (markG g d).score = d.score := rfl
@[simp] theorem markG_rings (g : Nat) (d : Dev) : (markG g d).rings = d.rings := rfl
@[simp] theorem markG_ic (g : Nat) (d : Dev) : (markG g d).ic = d.ic := rfl
@[simp] theorem markG_pmu (g : Nat) (d : Dev) : (markG g d).pmu = d.pmu := rfl
@[simp] theorem markG_img (g : Nat) (d : Dev) : (markG g d).img = d.img := rfl
@[simp] theorem markG_fifos (g : Nat) (d : Dev) : (markG g d).fifos = d.fifos := rfl
@[simp] theorem markG_pinForce (g : Nat) (d : Dev) : (markG g d).pinForce = d.pinForce := rfl
@[simp] theorem markG_engs (g : Nat) (d : Dev) : (markG g d).engs = d.engs := rfl
@[simp] theorem markG_pipes (g : Nat) (d : Dev) : (markG g d).pipes = d.pipes := rfl
@[simp] theorem markG_tm (g : Nat) (d : Dev) : (markG g d).tm = d.tm := rfl
@[simp] theorem markG_links (g : Nat) (d : Dev) : (markG g d).links = d.links := rfl
@[simp] theorem markG_arys (g : Nat) (d : Dev) : (markG g d).arys = d.arys := rfl
@[simp] theorem markG_boots (g : Nat) (d : Dev) : (markG g d).boots = d.boots := rfl
@[simp] theorem markG_slots (g : Nat) (d : Dev) : (markG g d).slots = d.slots := rfl
@[simp] theorem markG_le (g : Nat) (d : Dev) : (markG g d).le = d.le := rfl
@[simp] theorem markG_arb (g : Nat) (d : Dev) : (markG g d).arb = d.arb := rfl
@[simp] theorem markG_train (g : Nat) (d : Dev) : (markG g d).train = d.train := rfl
@[simp] theorem markG_keys (g : Nat) (d : Dev) : (markG g d).keys = d.keys := rfl
@[simp] theorem markG_boot (g : Nat) (d : Dev) : (markG g d).boot = d.boot := rfl
@[simp] theorem markG_periph (g : Nat) (d : Dev) : (markG g d).periph = d.periph := rfl

@[simp] theorem unmarkG_part (g : Nat) (d : Dev) : (unmarkG g d).part = d.part := rfl
@[simp] theorem unmarkG_regs (g : Nat) (d : Dev) : (unmarkG g d).regs = d.regs := rfl
@[simp] theorem unmarkG_mem (g : Nat) (d : Dev) : (unmarkG g d).mem = d.mem := rfl
@[simp] theorem unmarkG_errs (g : Nat) (d : Dev) : (unmarkG g d).errs = d.errs := rfl
@[simp] theorem unmarkG_out (g : Nat) (d : Dev) : (unmarkG g d).out = d.out := rfl
@[simp] theorem unmarkG_free (g : Nat) (d : Dev) : (unmarkG g d).free = d.free := rfl
@[simp] theorem unmarkG_intg (g : Nat) (d : Dev) : (unmarkG g d).intg = d.intg := rfl
@[simp] theorem unmarkG_score (g : Nat) (d : Dev) : (unmarkG g d).score = d.score := rfl
@[simp] theorem unmarkG_rings (g : Nat) (d : Dev) : (unmarkG g d).rings = d.rings := rfl
@[simp] theorem unmarkG_ic (g : Nat) (d : Dev) : (unmarkG g d).ic = d.ic := rfl
@[simp] theorem unmarkG_pmu (g : Nat) (d : Dev) : (unmarkG g d).pmu = d.pmu := rfl
@[simp] theorem unmarkG_img (g : Nat) (d : Dev) : (unmarkG g d).img = d.img := rfl
@[simp] theorem unmarkG_fifos (g : Nat) (d : Dev) : (unmarkG g d).fifos = d.fifos := rfl
@[simp] theorem unmarkG_pinForce (g : Nat) (d : Dev) : (unmarkG g d).pinForce = d.pinForce := rfl
@[simp] theorem unmarkG_engs (g : Nat) (d : Dev) : (unmarkG g d).engs = d.engs := rfl
@[simp] theorem unmarkG_pipes (g : Nat) (d : Dev) : (unmarkG g d).pipes = d.pipes := rfl
@[simp] theorem unmarkG_tm (g : Nat) (d : Dev) : (unmarkG g d).tm = d.tm := rfl
@[simp] theorem unmarkG_links (g : Nat) (d : Dev) : (unmarkG g d).links = d.links := rfl
@[simp] theorem unmarkG_arys (g : Nat) (d : Dev) : (unmarkG g d).arys = d.arys := rfl
@[simp] theorem unmarkG_boots (g : Nat) (d : Dev) : (unmarkG g d).boots = d.boots := rfl
@[simp] theorem unmarkG_slots (g : Nat) (d : Dev) : (unmarkG g d).slots = d.slots := rfl
@[simp] theorem unmarkG_le (g : Nat) (d : Dev) : (unmarkG g d).le = d.le := rfl
@[simp] theorem unmarkG_arb (g : Nat) (d : Dev) : (unmarkG g d).arb = d.arb := rfl
@[simp] theorem unmarkG_train (g : Nat) (d : Dev) : (unmarkG g d).train = d.train := rfl
@[simp] theorem unmarkG_keys (g : Nat) (d : Dev) : (unmarkG g d).keys = d.keys := rfl
@[simp] theorem unmarkG_boot (g : Nat) (d : Dev) : (unmarkG g d).boot = d.boot := rfl
@[simp] theorem unmarkG_periph (g : Nat) (d : Dev) : (unmarkG g d).periph = d.periph := rfl

@[simp] theorem errSet_part (g : Nat) (e : ErrPat) (d : Dev) : (errSet g e d).part = d.part := rfl
@[simp] theorem errSet_regs (g : Nat) (e : ErrPat) (d : Dev) : (errSet g e d).regs = d.regs := rfl
@[simp] theorem errSet_mem (g : Nat) (e : ErrPat) (d : Dev) : (errSet g e d).mem = d.mem := rfl
@[simp] theorem errSet_poison (g : Nat) (e : ErrPat) (d : Dev) : (errSet g e d).poison = d.poison := rfl
@[simp] theorem errSet_out (g : Nat) (e : ErrPat) (d : Dev) : (errSet g e d).out = d.out := rfl
@[simp] theorem errSet_free (g : Nat) (e : ErrPat) (d : Dev) : (errSet g e d).free = d.free := rfl
@[simp] theorem errSet_intg (g : Nat) (e : ErrPat) (d : Dev) : (errSet g e d).intg = d.intg := rfl
@[simp] theorem errSet_score (g : Nat) (e : ErrPat) (d : Dev) : (errSet g e d).score = d.score := rfl
@[simp] theorem errSet_rings (g : Nat) (e : ErrPat) (d : Dev) : (errSet g e d).rings = d.rings := rfl
@[simp] theorem errSet_ic (g : Nat) (e : ErrPat) (d : Dev) : (errSet g e d).ic = d.ic := rfl
@[simp] theorem errSet_pmu (g : Nat) (e : ErrPat) (d : Dev) : (errSet g e d).pmu = d.pmu := rfl
@[simp] theorem errSet_img (g : Nat) (e : ErrPat) (d : Dev) : (errSet g e d).img = d.img := rfl
@[simp] theorem errSet_fifos (g : Nat) (e : ErrPat) (d : Dev) : (errSet g e d).fifos = d.fifos := rfl
@[simp] theorem errSet_pinForce (g : Nat) (e : ErrPat) (d : Dev) : (errSet g e d).pinForce = d.pinForce := rfl
@[simp] theorem errSet_engs (g : Nat) (e : ErrPat) (d : Dev) : (errSet g e d).engs = d.engs := rfl
@[simp] theorem errSet_pipes (g : Nat) (e : ErrPat) (d : Dev) : (errSet g e d).pipes = d.pipes := rfl
@[simp] theorem errSet_tm (g : Nat) (e : ErrPat) (d : Dev) : (errSet g e d).tm = d.tm := rfl
@[simp] theorem errSet_links (g : Nat) (e : ErrPat) (d : Dev) : (errSet g e d).links = d.links := rfl
@[simp] theorem errSet_arys (g : Nat) (e : ErrPat) (d : Dev) : (errSet g e d).arys = d.arys := rfl
@[simp] theorem errSet_boots (g : Nat) (e : ErrPat) (d : Dev) : (errSet g e d).boots = d.boots := rfl
@[simp] theorem errSet_slots (g : Nat) (e : ErrPat) (d : Dev) : (errSet g e d).slots = d.slots := rfl
@[simp] theorem errSet_le (g : Nat) (e : ErrPat) (d : Dev) : (errSet g e d).le = d.le := rfl
@[simp] theorem errSet_arb (g : Nat) (e : ErrPat) (d : Dev) : (errSet g e d).arb = d.arb := rfl
@[simp] theorem errSet_train (g : Nat) (e : ErrPat) (d : Dev) : (errSet g e d).train = d.train := rfl
@[simp] theorem errSet_keys (g : Nat) (e : ErrPat) (d : Dev) : (errSet g e d).keys = d.keys := rfl
@[simp] theorem errSet_boot (g : Nat) (e : ErrPat) (d : Dev) : (errSet g e d).boot = d.boot := rfl
@[simp] theorem errSet_periph (g : Nat) (e : ErrPat) (d : Dev) : (errSet g e d).periph = d.periph := rfl

@[simp] theorem intgUpd_part (st : Nat) (f : IntgStore → IntgStore) (d : Dev) : (intgUpd st f d).part = d.part := rfl
@[simp] theorem intgUpd_regs (st : Nat) (f : IntgStore → IntgStore) (d : Dev) : (intgUpd st f d).regs = d.regs := rfl
@[simp] theorem intgUpd_mem (st : Nat) (f : IntgStore → IntgStore) (d : Dev) : (intgUpd st f d).mem = d.mem := rfl
@[simp] theorem intgUpd_poison (st : Nat) (f : IntgStore → IntgStore) (d : Dev) : (intgUpd st f d).poison = d.poison := rfl
@[simp] theorem intgUpd_errs (st : Nat) (f : IntgStore → IntgStore) (d : Dev) : (intgUpd st f d).errs = d.errs := rfl
@[simp] theorem intgUpd_out (st : Nat) (f : IntgStore → IntgStore) (d : Dev) : (intgUpd st f d).out = d.out := rfl
@[simp] theorem intgUpd_free (st : Nat) (f : IntgStore → IntgStore) (d : Dev) : (intgUpd st f d).free = d.free := rfl
@[simp] theorem intgUpd_score (st : Nat) (f : IntgStore → IntgStore) (d : Dev) : (intgUpd st f d).score = d.score := rfl
@[simp] theorem intgUpd_rings (st : Nat) (f : IntgStore → IntgStore) (d : Dev) : (intgUpd st f d).rings = d.rings := rfl
@[simp] theorem intgUpd_ic (st : Nat) (f : IntgStore → IntgStore) (d : Dev) : (intgUpd st f d).ic = d.ic := rfl
@[simp] theorem intgUpd_pmu (st : Nat) (f : IntgStore → IntgStore) (d : Dev) : (intgUpd st f d).pmu = d.pmu := rfl
@[simp] theorem intgUpd_img (st : Nat) (f : IntgStore → IntgStore) (d : Dev) : (intgUpd st f d).img = d.img := rfl
@[simp] theorem intgUpd_fifos (st : Nat) (f : IntgStore → IntgStore) (d : Dev) : (intgUpd st f d).fifos = d.fifos := rfl
@[simp] theorem intgUpd_pinForce (st : Nat) (f : IntgStore → IntgStore) (d : Dev) : (intgUpd st f d).pinForce = d.pinForce := rfl
@[simp] theorem intgUpd_engs (st : Nat) (f : IntgStore → IntgStore) (d : Dev) : (intgUpd st f d).engs = d.engs := rfl
@[simp] theorem intgUpd_pipes (st : Nat) (f : IntgStore → IntgStore) (d : Dev) : (intgUpd st f d).pipes = d.pipes := rfl
@[simp] theorem intgUpd_tm (st : Nat) (f : IntgStore → IntgStore) (d : Dev) : (intgUpd st f d).tm = d.tm := rfl
@[simp] theorem intgUpd_links (st : Nat) (f : IntgStore → IntgStore) (d : Dev) : (intgUpd st f d).links = d.links := rfl
@[simp] theorem intgUpd_arys (st : Nat) (f : IntgStore → IntgStore) (d : Dev) : (intgUpd st f d).arys = d.arys := rfl
@[simp] theorem intgUpd_boots (st : Nat) (f : IntgStore → IntgStore) (d : Dev) : (intgUpd st f d).boots = d.boots := rfl
@[simp] theorem intgUpd_slots (st : Nat) (f : IntgStore → IntgStore) (d : Dev) : (intgUpd st f d).slots = d.slots := rfl
@[simp] theorem intgUpd_le (st : Nat) (f : IntgStore → IntgStore) (d : Dev) : (intgUpd st f d).le = d.le := rfl
@[simp] theorem intgUpd_arb (st : Nat) (f : IntgStore → IntgStore) (d : Dev) : (intgUpd st f d).arb = d.arb := rfl
@[simp] theorem intgUpd_train (st : Nat) (f : IntgStore → IntgStore) (d : Dev) : (intgUpd st f d).train = d.train := rfl
@[simp] theorem intgUpd_keys (st : Nat) (f : IntgStore → IntgStore) (d : Dev) : (intgUpd st f d).keys = d.keys := rfl
@[simp] theorem intgUpd_boot (st : Nat) (f : IntgStore → IntgStore) (d : Dev) : (intgUpd st f d).boot = d.boot := rfl
@[simp] theorem intgUpd_periph (st : Nat) (f : IntgStore → IntgStore) (d : Dev) : (intgUpd st f d).periph = d.periph := rfl

@[simp] theorem setFifo_part (id : Nat) (f : Fifo) (d : Dev) : (setFifo id f d).part = d.part := rfl
@[simp] theorem setFifo_regs (id : Nat) (f : Fifo) (d : Dev) : (setFifo id f d).regs = d.regs := rfl
@[simp] theorem setFifo_mem (id : Nat) (f : Fifo) (d : Dev) : (setFifo id f d).mem = d.mem := rfl
@[simp] theorem setFifo_poison (id : Nat) (f : Fifo) (d : Dev) : (setFifo id f d).poison = d.poison := rfl
@[simp] theorem setFifo_errs (id : Nat) (f : Fifo) (d : Dev) : (setFifo id f d).errs = d.errs := rfl
@[simp] theorem setFifo_out (id : Nat) (f : Fifo) (d : Dev) : (setFifo id f d).out = d.out := rfl
@[simp] theorem setFifo_free (id : Nat) (f : Fifo) (d : Dev) : (setFifo id f d).free = d.free := rfl
@[simp] theorem setFifo_intg (id : Nat) (f : Fifo) (d : Dev) : (setFifo id f d).intg = d.intg := rfl
@[simp] theorem setFifo_score (id : Nat) (f : Fifo) (d : Dev) : (setFifo id f d).score = d.score := rfl
@[simp] theorem setFifo_rings (id : Nat) (f : Fifo) (d : Dev) : (setFifo id f d).rings = d.rings := rfl
@[simp] theorem setFifo_ic (id : Nat) (f : Fifo) (d : Dev) : (setFifo id f d).ic = d.ic := rfl
@[simp] theorem setFifo_pmu (id : Nat) (f : Fifo) (d : Dev) : (setFifo id f d).pmu = d.pmu := rfl
@[simp] theorem setFifo_img (id : Nat) (f : Fifo) (d : Dev) : (setFifo id f d).img = d.img := rfl
@[simp] theorem setFifo_pinForce (id : Nat) (f : Fifo) (d : Dev) : (setFifo id f d).pinForce = d.pinForce := rfl
@[simp] theorem setFifo_engs (id : Nat) (f : Fifo) (d : Dev) : (setFifo id f d).engs = d.engs := rfl
@[simp] theorem setFifo_pipes (id : Nat) (f : Fifo) (d : Dev) : (setFifo id f d).pipes = d.pipes := rfl
@[simp] theorem setFifo_tm (id : Nat) (f : Fifo) (d : Dev) : (setFifo id f d).tm = d.tm := rfl
@[simp] theorem setFifo_links (id : Nat) (f : Fifo) (d : Dev) : (setFifo id f d).links = d.links := rfl
@[simp] theorem setFifo_arys (id : Nat) (f : Fifo) (d : Dev) : (setFifo id f d).arys = d.arys := rfl
@[simp] theorem setFifo_boots (id : Nat) (f : Fifo) (d : Dev) : (setFifo id f d).boots = d.boots := rfl
@[simp] theorem setFifo_slots (id : Nat) (f : Fifo) (d : Dev) : (setFifo id f d).slots = d.slots := rfl
@[simp] theorem setFifo_le (id : Nat) (f : Fifo) (d : Dev) : (setFifo id f d).le = d.le := rfl
@[simp] theorem setFifo_arb (id : Nat) (f : Fifo) (d : Dev) : (setFifo id f d).arb = d.arb := rfl
@[simp] theorem setFifo_train (id : Nat) (f : Fifo) (d : Dev) : (setFifo id f d).train = d.train := rfl
@[simp] theorem setFifo_keys (id : Nat) (f : Fifo) (d : Dev) : (setFifo id f d).keys = d.keys := rfl
@[simp] theorem setFifo_boot (id : Nat) (f : Fifo) (d : Dev) : (setFifo id f d).boot = d.boot := rfl
@[simp] theorem setFifo_periph (id : Nat) (f : Fifo) (d : Dev) : (setFifo id f d).periph = d.periph := rfl

@[simp] theorem aryUpd_part (k : Nat) (f : Ary → Ary) (d : Dev) : (aryUpd k f d).part = d.part := rfl
@[simp] theorem aryUpd_regs (k : Nat) (f : Ary → Ary) (d : Dev) : (aryUpd k f d).regs = d.regs := rfl
@[simp] theorem aryUpd_mem (k : Nat) (f : Ary → Ary) (d : Dev) : (aryUpd k f d).mem = d.mem := rfl
@[simp] theorem aryUpd_poison (k : Nat) (f : Ary → Ary) (d : Dev) : (aryUpd k f d).poison = d.poison := rfl
@[simp] theorem aryUpd_errs (k : Nat) (f : Ary → Ary) (d : Dev) : (aryUpd k f d).errs = d.errs := rfl
@[simp] theorem aryUpd_out (k : Nat) (f : Ary → Ary) (d : Dev) : (aryUpd k f d).out = d.out := rfl
@[simp] theorem aryUpd_free (k : Nat) (f : Ary → Ary) (d : Dev) : (aryUpd k f d).free = d.free := rfl
@[simp] theorem aryUpd_intg (k : Nat) (f : Ary → Ary) (d : Dev) : (aryUpd k f d).intg = d.intg := rfl
@[simp] theorem aryUpd_score (k : Nat) (f : Ary → Ary) (d : Dev) : (aryUpd k f d).score = d.score := rfl
@[simp] theorem aryUpd_rings (k : Nat) (f : Ary → Ary) (d : Dev) : (aryUpd k f d).rings = d.rings := rfl
@[simp] theorem aryUpd_ic (k : Nat) (f : Ary → Ary) (d : Dev) : (aryUpd k f d).ic = d.ic := rfl
@[simp] theorem aryUpd_pmu (k : Nat) (f : Ary → Ary) (d : Dev) : (aryUpd k f d).pmu = d.pmu := rfl
@[simp] theorem aryUpd_img (k : Nat) (f : Ary → Ary) (d : Dev) : (aryUpd k f d).img = d.img := rfl
@[simp] theorem aryUpd_fifos (k : Nat) (f : Ary → Ary) (d : Dev) : (aryUpd k f d).fifos = d.fifos := rfl
@[simp] theorem aryUpd_pinForce (k : Nat) (f : Ary → Ary) (d : Dev) : (aryUpd k f d).pinForce = d.pinForce := rfl
@[simp] theorem aryUpd_engs (k : Nat) (f : Ary → Ary) (d : Dev) : (aryUpd k f d).engs = d.engs := rfl
@[simp] theorem aryUpd_pipes (k : Nat) (f : Ary → Ary) (d : Dev) : (aryUpd k f d).pipes = d.pipes := rfl
@[simp] theorem aryUpd_tm (k : Nat) (f : Ary → Ary) (d : Dev) : (aryUpd k f d).tm = d.tm := rfl
@[simp] theorem aryUpd_links (k : Nat) (f : Ary → Ary) (d : Dev) : (aryUpd k f d).links = d.links := rfl
@[simp] theorem aryUpd_boots (k : Nat) (f : Ary → Ary) (d : Dev) : (aryUpd k f d).boots = d.boots := rfl
@[simp] theorem aryUpd_slots (k : Nat) (f : Ary → Ary) (d : Dev) : (aryUpd k f d).slots = d.slots := rfl
@[simp] theorem aryUpd_le (k : Nat) (f : Ary → Ary) (d : Dev) : (aryUpd k f d).le = d.le := rfl
@[simp] theorem aryUpd_arb (k : Nat) (f : Ary → Ary) (d : Dev) : (aryUpd k f d).arb = d.arb := rfl
@[simp] theorem aryUpd_train (k : Nat) (f : Ary → Ary) (d : Dev) : (aryUpd k f d).train = d.train := rfl
@[simp] theorem aryUpd_keys (k : Nat) (f : Ary → Ary) (d : Dev) : (aryUpd k f d).keys = d.keys := rfl
@[simp] theorem aryUpd_boot (k : Nat) (f : Ary → Ary) (d : Dev) : (aryUpd k f d).boot = d.boot := rfl
@[simp] theorem aryUpd_periph (k : Nat) (f : Ary → Ary) (d : Dev) : (aryUpd k f d).periph = d.periph := rfl

@[simp] theorem setTm_tm (t : Tm) (d : Dev) : (setTm t d).tm = t := rfl
@[simp] theorem setTm_part (t : Tm) (d : Dev) : (setTm t d).part = d.part := rfl
@[simp] theorem setTm_regs (t : Tm) (d : Dev) : (setTm t d).regs = d.regs := rfl
@[simp] theorem setTm_mem (t : Tm) (d : Dev) : (setTm t d).mem = d.mem := rfl
@[simp] theorem setTm_poison (t : Tm) (d : Dev) : (setTm t d).poison = d.poison := rfl
@[simp] theorem setTm_errs (t : Tm) (d : Dev) : (setTm t d).errs = d.errs := rfl
@[simp] theorem setTm_out (t : Tm) (d : Dev) : (setTm t d).out = d.out := rfl
@[simp] theorem setTm_free (t : Tm) (d : Dev) : (setTm t d).free = d.free := rfl
@[simp] theorem setTm_intg (t : Tm) (d : Dev) : (setTm t d).intg = d.intg := rfl
@[simp] theorem setTm_score (t : Tm) (d : Dev) : (setTm t d).score = d.score := rfl
@[simp] theorem setTm_rings (t : Tm) (d : Dev) : (setTm t d).rings = d.rings := rfl
@[simp] theorem setTm_ic (t : Tm) (d : Dev) : (setTm t d).ic = d.ic := rfl
@[simp] theorem setTm_pmu (t : Tm) (d : Dev) : (setTm t d).pmu = d.pmu := rfl
@[simp] theorem setTm_img (t : Tm) (d : Dev) : (setTm t d).img = d.img := rfl
@[simp] theorem setTm_fifos (t : Tm) (d : Dev) : (setTm t d).fifos = d.fifos := rfl
@[simp] theorem setTm_pinForce (t : Tm) (d : Dev) : (setTm t d).pinForce = d.pinForce := rfl
@[simp] theorem setTm_engs (t : Tm) (d : Dev) : (setTm t d).engs = d.engs := rfl
@[simp] theorem setTm_pipes (t : Tm) (d : Dev) : (setTm t d).pipes = d.pipes := rfl
@[simp] theorem setTm_links (t : Tm) (d : Dev) : (setTm t d).links = d.links := rfl
@[simp] theorem setTm_arys (t : Tm) (d : Dev) : (setTm t d).arys = d.arys := rfl
@[simp] theorem setTm_boots (t : Tm) (d : Dev) : (setTm t d).boots = d.boots := rfl
@[simp] theorem setTm_slots (t : Tm) (d : Dev) : (setTm t d).slots = d.slots := rfl
@[simp] theorem setTm_le (t : Tm) (d : Dev) : (setTm t d).le = d.le := rfl
@[simp] theorem setTm_arb (t : Tm) (d : Dev) : (setTm t d).arb = d.arb := rfl
@[simp] theorem setTm_train (t : Tm) (d : Dev) : (setTm t d).train = d.train := rfl
@[simp] theorem setTm_keys (t : Tm) (d : Dev) : (setTm t d).keys = d.keys := rfl
@[simp] theorem setTm_boot (t : Tm) (d : Dev) : (setTm t d).boot = d.boot := rfl
@[simp] theorem setTm_periph (t : Tm) (d : Dev) : (setTm t d).periph = d.periph := rfl

@[simp] theorem setLinks_links (l : Links) (d : Dev) : (setLinks l d).links = l := rfl
@[simp] theorem setLinks_part (l : Links) (d : Dev) : (setLinks l d).part = d.part := rfl
@[simp] theorem setLinks_regs (l : Links) (d : Dev) : (setLinks l d).regs = d.regs := rfl
@[simp] theorem setLinks_mem (l : Links) (d : Dev) : (setLinks l d).mem = d.mem := rfl
@[simp] theorem setLinks_poison (l : Links) (d : Dev) : (setLinks l d).poison = d.poison := rfl
@[simp] theorem setLinks_errs (l : Links) (d : Dev) : (setLinks l d).errs = d.errs := rfl
@[simp] theorem setLinks_out (l : Links) (d : Dev) : (setLinks l d).out = d.out := rfl
@[simp] theorem setLinks_free (l : Links) (d : Dev) : (setLinks l d).free = d.free := rfl
@[simp] theorem setLinks_intg (l : Links) (d : Dev) : (setLinks l d).intg = d.intg := rfl
@[simp] theorem setLinks_score (l : Links) (d : Dev) : (setLinks l d).score = d.score := rfl
@[simp] theorem setLinks_rings (l : Links) (d : Dev) : (setLinks l d).rings = d.rings := rfl
@[simp] theorem setLinks_ic (l : Links) (d : Dev) : (setLinks l d).ic = d.ic := rfl
@[simp] theorem setLinks_pmu (l : Links) (d : Dev) : (setLinks l d).pmu = d.pmu := rfl
@[simp] theorem setLinks_img (l : Links) (d : Dev) : (setLinks l d).img = d.img := rfl
@[simp] theorem setLinks_fifos (l : Links) (d : Dev) : (setLinks l d).fifos = d.fifos := rfl
@[simp] theorem setLinks_pinForce (l : Links) (d : Dev) : (setLinks l d).pinForce = d.pinForce := rfl
@[simp] theorem setLinks_engs (l : Links) (d : Dev) : (setLinks l d).engs = d.engs := rfl
@[simp] theorem setLinks_pipes (l : Links) (d : Dev) : (setLinks l d).pipes = d.pipes := rfl
@[simp] theorem setLinks_tm (l : Links) (d : Dev) : (setLinks l d).tm = d.tm := rfl
@[simp] theorem setLinks_arys (l : Links) (d : Dev) : (setLinks l d).arys = d.arys := rfl
@[simp] theorem setLinks_boots (l : Links) (d : Dev) : (setLinks l d).boots = d.boots := rfl
@[simp] theorem setLinks_slots (l : Links) (d : Dev) : (setLinks l d).slots = d.slots := rfl
@[simp] theorem setLinks_le (l : Links) (d : Dev) : (setLinks l d).le = d.le := rfl
@[simp] theorem setLinks_arb (l : Links) (d : Dev) : (setLinks l d).arb = d.arb := rfl
@[simp] theorem setLinks_train (l : Links) (d : Dev) : (setLinks l d).train = d.train := rfl
@[simp] theorem setLinks_keys (l : Links) (d : Dev) : (setLinks l d).keys = d.keys := rfl
@[simp] theorem setLinks_boot (l : Links) (d : Dev) : (setLinks l d).boot = d.boot := rfl
@[simp] theorem setLinks_periph (l : Links) (d : Dev) : (setLinks l d).periph = d.periph := rfl

@[simp] theorem setLe_le (l : Le) (d : Dev) : (setLe l d).le = l := rfl
@[simp] theorem setLe_part (l : Le) (d : Dev) : (setLe l d).part = d.part := rfl
@[simp] theorem setLe_regs (l : Le) (d : Dev) : (setLe l d).regs = d.regs := rfl
@[simp] theorem setLe_mem (l : Le) (d : Dev) : (setLe l d).mem = d.mem := rfl
@[simp] theorem setLe_poison (l : Le) (d : Dev) : (setLe l d).poison = d.poison := rfl
@[simp] theorem setLe_errs (l : Le) (d : Dev) : (setLe l d).errs = d.errs := rfl
@[simp] theorem setLe_out (l : Le) (d : Dev) : (setLe l d).out = d.out := rfl
@[simp] theorem setLe_free (l : Le) (d : Dev) : (setLe l d).free = d.free := rfl
@[simp] theorem setLe_intg (l : Le) (d : Dev) : (setLe l d).intg = d.intg := rfl
@[simp] theorem setLe_score (l : Le) (d : Dev) : (setLe l d).score = d.score := rfl
@[simp] theorem setLe_rings (l : Le) (d : Dev) : (setLe l d).rings = d.rings := rfl
@[simp] theorem setLe_ic (l : Le) (d : Dev) : (setLe l d).ic = d.ic := rfl
@[simp] theorem setLe_pmu (l : Le) (d : Dev) : (setLe l d).pmu = d.pmu := rfl
@[simp] theorem setLe_img (l : Le) (d : Dev) : (setLe l d).img = d.img := rfl
@[simp] theorem setLe_fifos (l : Le) (d : Dev) : (setLe l d).fifos = d.fifos := rfl
@[simp] theorem setLe_pinForce (l : Le) (d : Dev) : (setLe l d).pinForce = d.pinForce := rfl
@[simp] theorem setLe_engs (l : Le) (d : Dev) : (setLe l d).engs = d.engs := rfl
@[simp] theorem setLe_pipes (l : Le) (d : Dev) : (setLe l d).pipes = d.pipes := rfl
@[simp] theorem setLe_tm (l : Le) (d : Dev) : (setLe l d).tm = d.tm := rfl
@[simp] theorem setLe_links (l : Le) (d : Dev) : (setLe l d).links = d.links := rfl
@[simp] theorem setLe_arys (l : Le) (d : Dev) : (setLe l d).arys = d.arys := rfl
@[simp] theorem setLe_boots (l : Le) (d : Dev) : (setLe l d).boots = d.boots := rfl
@[simp] theorem setLe_slots (l : Le) (d : Dev) : (setLe l d).slots = d.slots := rfl
@[simp] theorem setLe_arb (l : Le) (d : Dev) : (setLe l d).arb = d.arb := rfl
@[simp] theorem setLe_train (l : Le) (d : Dev) : (setLe l d).train = d.train := rfl
@[simp] theorem setLe_keys (l : Le) (d : Dev) : (setLe l d).keys = d.keys := rfl
@[simp] theorem setLe_boot (l : Le) (d : Dev) : (setLe l d).boot = d.boot := rfl
@[simp] theorem setLe_periph (l : Le) (d : Dev) : (setLe l d).periph = d.periph := rfl

@[simp] theorem setRings_rings (x : Rings) (d : Dev) : (setRings x d).rings = x := rfl
@[simp] theorem setRings_part (x : Rings) (d : Dev) : (setRings x d).part = d.part := rfl
@[simp] theorem setRings_regs (x : Rings) (d : Dev) : (setRings x d).regs = d.regs := rfl
@[simp] theorem setRings_mem (x : Rings) (d : Dev) : (setRings x d).mem = d.mem := rfl
@[simp] theorem setRings_poison (x : Rings) (d : Dev) : (setRings x d).poison = d.poison := rfl
@[simp] theorem setRings_errs (x : Rings) (d : Dev) : (setRings x d).errs = d.errs := rfl
@[simp] theorem setRings_out (x : Rings) (d : Dev) : (setRings x d).out = d.out := rfl
@[simp] theorem setRings_free (x : Rings) (d : Dev) : (setRings x d).free = d.free := rfl
@[simp] theorem setRings_intg (x : Rings) (d : Dev) : (setRings x d).intg = d.intg := rfl
@[simp] theorem setRings_score (x : Rings) (d : Dev) : (setRings x d).score = d.score := rfl
@[simp] theorem setRings_ic (x : Rings) (d : Dev) : (setRings x d).ic = d.ic := rfl
@[simp] theorem setRings_pmu (x : Rings) (d : Dev) : (setRings x d).pmu = d.pmu := rfl
@[simp] theorem setRings_img (x : Rings) (d : Dev) : (setRings x d).img = d.img := rfl
@[simp] theorem setRings_fifos (x : Rings) (d : Dev) : (setRings x d).fifos = d.fifos := rfl
@[simp] theorem setRings_pinForce (x : Rings) (d : Dev) : (setRings x d).pinForce = d.pinForce := rfl
@[simp] theorem setRings_engs (x : Rings) (d : Dev) : (setRings x d).engs = d.engs := rfl
@[simp] theorem setRings_pipes (x : Rings) (d : Dev) : (setRings x d).pipes = d.pipes := rfl
@[simp] theorem setRings_tm (x : Rings) (d : Dev) : (setRings x d).tm = d.tm := rfl
@[simp] theorem setRings_links (x : Rings) (d : Dev) : (setRings x d).links = d.links := rfl
@[simp] theorem setRings_arys (x : Rings) (d : Dev) : (setRings x d).arys = d.arys := rfl
@[simp] theorem setRings_boots (x : Rings) (d : Dev) : (setRings x d).boots = d.boots := rfl
@[simp] theorem setRings_slots (x : Rings) (d : Dev) : (setRings x d).slots = d.slots := rfl
@[simp] theorem setRings_le (x : Rings) (d : Dev) : (setRings x d).le = d.le := rfl
@[simp] theorem setRings_arb (x : Rings) (d : Dev) : (setRings x d).arb = d.arb := rfl
@[simp] theorem setRings_train (x : Rings) (d : Dev) : (setRings x d).train = d.train := rfl
@[simp] theorem setRings_keys (x : Rings) (d : Dev) : (setRings x d).keys = d.keys := rfl
@[simp] theorem setRings_boot (x : Rings) (d : Dev) : (setRings x d).boot = d.boot := rfl
@[simp] theorem setRings_periph (x : Rings) (d : Dev) : (setRings x d).periph = d.periph := rfl

@[simp] theorem setArb_arb (a : Arb) (d : Dev) : (setArb a d).arb = a := rfl
@[simp] theorem setArb_part (a : Arb) (d : Dev) : (setArb a d).part = d.part := rfl
@[simp] theorem setArb_regs (a : Arb) (d : Dev) : (setArb a d).regs = d.regs := rfl
@[simp] theorem setArb_mem (a : Arb) (d : Dev) : (setArb a d).mem = d.mem := rfl
@[simp] theorem setArb_poison (a : Arb) (d : Dev) : (setArb a d).poison = d.poison := rfl
@[simp] theorem setArb_errs (a : Arb) (d : Dev) : (setArb a d).errs = d.errs := rfl
@[simp] theorem setArb_out (a : Arb) (d : Dev) : (setArb a d).out = d.out := rfl
@[simp] theorem setArb_free (a : Arb) (d : Dev) : (setArb a d).free = d.free := rfl
@[simp] theorem setArb_intg (a : Arb) (d : Dev) : (setArb a d).intg = d.intg := rfl
@[simp] theorem setArb_score (a : Arb) (d : Dev) : (setArb a d).score = d.score := rfl
@[simp] theorem setArb_rings (a : Arb) (d : Dev) : (setArb a d).rings = d.rings := rfl
@[simp] theorem setArb_ic (a : Arb) (d : Dev) : (setArb a d).ic = d.ic := rfl
@[simp] theorem setArb_pmu (a : Arb) (d : Dev) : (setArb a d).pmu = d.pmu := rfl
@[simp] theorem setArb_img (a : Arb) (d : Dev) : (setArb a d).img = d.img := rfl
@[simp] theorem setArb_fifos (a : Arb) (d : Dev) : (setArb a d).fifos = d.fifos := rfl
@[simp] theorem setArb_pinForce (a : Arb) (d : Dev) : (setArb a d).pinForce = d.pinForce := rfl
@[simp] theorem setArb_engs (a : Arb) (d : Dev) : (setArb a d).engs = d.engs := rfl
@[simp] theorem setArb_pipes (a : Arb) (d : Dev) : (setArb a d).pipes = d.pipes := rfl
@[simp] theorem setArb_tm (a : Arb) (d : Dev) : (setArb a d).tm = d.tm := rfl
@[simp] theorem setArb_links (a : Arb) (d : Dev) : (setArb a d).links = d.links := rfl
@[simp] theorem setArb_arys (a : Arb) (d : Dev) : (setArb a d).arys = d.arys := rfl
@[simp] theorem setArb_boots (a : Arb) (d : Dev) : (setArb a d).boots = d.boots := rfl
@[simp] theorem setArb_slots (a : Arb) (d : Dev) : (setArb a d).slots = d.slots := rfl
@[simp] theorem setArb_le (a : Arb) (d : Dev) : (setArb a d).le = d.le := rfl
@[simp] theorem setArb_train (a : Arb) (d : Dev) : (setArb a d).train = d.train := rfl
@[simp] theorem setArb_keys (a : Arb) (d : Dev) : (setArb a d).keys = d.keys := rfl
@[simp] theorem setArb_boot (a : Arb) (d : Dev) : (setArb a d).boot = d.boot := rfl
@[simp] theorem setArb_periph (a : Arb) (d : Dev) : (setArb a d).periph = d.periph := rfl

@[simp] theorem setBoot_boot (b : Boot) (d : Dev) : (setBoot b d).boot = b := rfl
@[simp] theorem setBoot_part (b : Boot) (d : Dev) : (setBoot b d).part = d.part := rfl
@[simp] theorem setBoot_regs (b : Boot) (d : Dev) : (setBoot b d).regs = d.regs := rfl
@[simp] theorem setBoot_mem (b : Boot) (d : Dev) : (setBoot b d).mem = d.mem := rfl
@[simp] theorem setBoot_poison (b : Boot) (d : Dev) : (setBoot b d).poison = d.poison := rfl
@[simp] theorem setBoot_errs (b : Boot) (d : Dev) : (setBoot b d).errs = d.errs := rfl
@[simp] theorem setBoot_out (b : Boot) (d : Dev) : (setBoot b d).out = d.out := rfl
@[simp] theorem setBoot_free (b : Boot) (d : Dev) : (setBoot b d).free = d.free := rfl
@[simp] theorem setBoot_intg (b : Boot) (d : Dev) : (setBoot b d).intg = d.intg := rfl
@[simp] theorem setBoot_score (b : Boot) (d : Dev) : (setBoot b d).score = d.score := rfl
@[simp] theorem setBoot_rings (b : Boot) (d : Dev) : (setBoot b d).rings = d.rings := rfl
@[simp] theorem setBoot_ic (b : Boot) (d : Dev) : (setBoot b d).ic = d.ic := rfl
@[simp] theorem setBoot_pmu (b : Boot) (d : Dev) : (setBoot b d).pmu = d.pmu := rfl
@[simp] theorem setBoot_img (b : Boot) (d : Dev) : (setBoot b d).img = d.img := rfl
@[simp] theorem setBoot_fifos (b : Boot) (d : Dev) : (setBoot b d).fifos = d.fifos := rfl
@[simp] theorem setBoot_pinForce (b : Boot) (d : Dev) : (setBoot b d).pinForce = d.pinForce := rfl
@[simp] theorem setBoot_engs (b : Boot) (d : Dev) : (setBoot b d).engs = d.engs := rfl
@[simp] theorem setBoot_pipes (b : Boot) (d : Dev) : (setBoot b d).pipes = d.pipes := rfl
@[simp] theorem setBoot_tm (b : Boot) (d : Dev) : (setBoot b d).tm = d.tm := rfl
@[simp] theorem setBoot_links (b : Boot) (d : Dev) : (setBoot b d).links = d.links := rfl
@[simp] theorem setBoot_arys (b : Boot) (d : Dev) : (setBoot b d).arys = d.arys := rfl
@[simp] theorem setBoot_boots (b : Boot) (d : Dev) : (setBoot b d).boots = d.boots := rfl
@[simp] theorem setBoot_slots (b : Boot) (d : Dev) : (setBoot b d).slots = d.slots := rfl
@[simp] theorem setBoot_le (b : Boot) (d : Dev) : (setBoot b d).le = d.le := rfl
@[simp] theorem setBoot_arb (b : Boot) (d : Dev) : (setBoot b d).arb = d.arb := rfl
@[simp] theorem setBoot_train (b : Boot) (d : Dev) : (setBoot b d).train = d.train := rfl
@[simp] theorem setBoot_keys (b : Boot) (d : Dev) : (setBoot b d).keys = d.keys := rfl
@[simp] theorem setBoot_periph (b : Boot) (d : Dev) : (setBoot b d).periph = d.periph := rfl

@[simp] theorem setPmu_pmu (p : Pmu) (d : Dev) : (setPmu p d).pmu = p := rfl
@[simp] theorem setPmu_part (p : Pmu) (d : Dev) : (setPmu p d).part = d.part := rfl
@[simp] theorem setPmu_regs (p : Pmu) (d : Dev) : (setPmu p d).regs = d.regs := rfl
@[simp] theorem setPmu_mem (p : Pmu) (d : Dev) : (setPmu p d).mem = d.mem := rfl
@[simp] theorem setPmu_poison (p : Pmu) (d : Dev) : (setPmu p d).poison = d.poison := rfl
@[simp] theorem setPmu_errs (p : Pmu) (d : Dev) : (setPmu p d).errs = d.errs := rfl
@[simp] theorem setPmu_out (p : Pmu) (d : Dev) : (setPmu p d).out = d.out := rfl
@[simp] theorem setPmu_free (p : Pmu) (d : Dev) : (setPmu p d).free = d.free := rfl
@[simp] theorem setPmu_intg (p : Pmu) (d : Dev) : (setPmu p d).intg = d.intg := rfl
@[simp] theorem setPmu_score (p : Pmu) (d : Dev) : (setPmu p d).score = d.score := rfl
@[simp] theorem setPmu_rings (p : Pmu) (d : Dev) : (setPmu p d).rings = d.rings := rfl
@[simp] theorem setPmu_ic (p : Pmu) (d : Dev) : (setPmu p d).ic = d.ic := rfl
@[simp] theorem setPmu_img (p : Pmu) (d : Dev) : (setPmu p d).img = d.img := rfl
@[simp] theorem setPmu_fifos (p : Pmu) (d : Dev) : (setPmu p d).fifos = d.fifos := rfl
@[simp] theorem setPmu_pinForce (p : Pmu) (d : Dev) : (setPmu p d).pinForce = d.pinForce := rfl
@[simp] theorem setPmu_engs (p : Pmu) (d : Dev) : (setPmu p d).engs = d.engs := rfl
@[simp] theorem setPmu_pipes (p : Pmu) (d : Dev) : (setPmu p d).pipes = d.pipes := rfl
@[simp] theorem setPmu_tm (p : Pmu) (d : Dev) : (setPmu p d).tm = d.tm := rfl
@[simp] theorem setPmu_links (p : Pmu) (d : Dev) : (setPmu p d).links = d.links := rfl
@[simp] theorem setPmu_arys (p : Pmu) (d : Dev) : (setPmu p d).arys = d.arys := rfl
@[simp] theorem setPmu_boots (p : Pmu) (d : Dev) : (setPmu p d).boots = d.boots := rfl
@[simp] theorem setPmu_slots (p : Pmu) (d : Dev) : (setPmu p d).slots = d.slots := rfl
@[simp] theorem setPmu_le (p : Pmu) (d : Dev) : (setPmu p d).le = d.le := rfl
@[simp] theorem setPmu_arb (p : Pmu) (d : Dev) : (setPmu p d).arb = d.arb := rfl
@[simp] theorem setPmu_train (p : Pmu) (d : Dev) : (setPmu p d).train = d.train := rfl
@[simp] theorem setPmu_keys (p : Pmu) (d : Dev) : (setPmu p d).keys = d.keys := rfl
@[simp] theorem setPmu_boot (p : Pmu) (d : Dev) : (setPmu p d).boot = d.boot := rfl
@[simp] theorem setPmu_periph (p : Pmu) (d : Dev) : (setPmu p d).periph = d.periph := rfl

@[simp] theorem setImg_img (x : Img) (d : Dev) : (setImg x d).img = x := rfl
@[simp] theorem setImg_part (x : Img) (d : Dev) : (setImg x d).part = d.part := rfl
@[simp] theorem setImg_regs (x : Img) (d : Dev) : (setImg x d).regs = d.regs := rfl
@[simp] theorem setImg_mem (x : Img) (d : Dev) : (setImg x d).mem = d.mem := rfl
@[simp] theorem setImg_poison (x : Img) (d : Dev) : (setImg x d).poison = d.poison := rfl
@[simp] theorem setImg_errs (x : Img) (d : Dev) : (setImg x d).errs = d.errs := rfl
@[simp] theorem setImg_out (x : Img) (d : Dev) : (setImg x d).out = d.out := rfl
@[simp] theorem setImg_free (x : Img) (d : Dev) : (setImg x d).free = d.free := rfl
@[simp] theorem setImg_intg (x : Img) (d : Dev) : (setImg x d).intg = d.intg := rfl
@[simp] theorem setImg_score (x : Img) (d : Dev) : (setImg x d).score = d.score := rfl
@[simp] theorem setImg_rings (x : Img) (d : Dev) : (setImg x d).rings = d.rings := rfl
@[simp] theorem setImg_ic (x : Img) (d : Dev) : (setImg x d).ic = d.ic := rfl
@[simp] theorem setImg_pmu (x : Img) (d : Dev) : (setImg x d).pmu = d.pmu := rfl
@[simp] theorem setImg_fifos (x : Img) (d : Dev) : (setImg x d).fifos = d.fifos := rfl
@[simp] theorem setImg_pinForce (x : Img) (d : Dev) : (setImg x d).pinForce = d.pinForce := rfl
@[simp] theorem setImg_engs (x : Img) (d : Dev) : (setImg x d).engs = d.engs := rfl
@[simp] theorem setImg_pipes (x : Img) (d : Dev) : (setImg x d).pipes = d.pipes := rfl
@[simp] theorem setImg_tm (x : Img) (d : Dev) : (setImg x d).tm = d.tm := rfl
@[simp] theorem setImg_links (x : Img) (d : Dev) : (setImg x d).links = d.links := rfl
@[simp] theorem setImg_arys (x : Img) (d : Dev) : (setImg x d).arys = d.arys := rfl
@[simp] theorem setImg_boots (x : Img) (d : Dev) : (setImg x d).boots = d.boots := rfl
@[simp] theorem setImg_slots (x : Img) (d : Dev) : (setImg x d).slots = d.slots := rfl
@[simp] theorem setImg_le (x : Img) (d : Dev) : (setImg x d).le = d.le := rfl
@[simp] theorem setImg_arb (x : Img) (d : Dev) : (setImg x d).arb = d.arb := rfl
@[simp] theorem setImg_train (x : Img) (d : Dev) : (setImg x d).train = d.train := rfl
@[simp] theorem setImg_keys (x : Img) (d : Dev) : (setImg x d).keys = d.keys := rfl
@[simp] theorem setImg_boot (x : Img) (d : Dev) : (setImg x d).boot = d.boot := rfl
@[simp] theorem setImg_periph (x : Img) (d : Dev) : (setImg x d).periph = d.periph := rfl

@[simp] theorem setTrain_part (t : TrainRun) (d : Dev) : (setTrain t d).part = d.part := rfl
@[simp] theorem setTrain_regs (t : TrainRun) (d : Dev) : (setTrain t d).regs = d.regs := rfl
@[simp] theorem setTrain_mem (t : TrainRun) (d : Dev) : (setTrain t d).mem = d.mem := rfl
@[simp] theorem setTrain_poison (t : TrainRun) (d : Dev) : (setTrain t d).poison = d.poison := rfl
@[simp] theorem setTrain_errs (t : TrainRun) (d : Dev) : (setTrain t d).errs = d.errs := rfl
@[simp] theorem setTrain_out (t : TrainRun) (d : Dev) : (setTrain t d).out = d.out := rfl
@[simp] theorem setTrain_free (t : TrainRun) (d : Dev) : (setTrain t d).free = d.free := rfl
@[simp] theorem setTrain_intg (t : TrainRun) (d : Dev) : (setTrain t d).intg = d.intg := rfl
@[simp] theorem setTrain_score (t : TrainRun) (d : Dev) : (setTrain t d).score = d.score := rfl
@[simp] theorem setTrain_rings (t : TrainRun) (d : Dev) : (setTrain t d).rings = d.rings := rfl
@[simp] theorem setTrain_ic (t : TrainRun) (d : Dev) : (setTrain t d).ic = d.ic := rfl
@[simp] theorem setTrain_pmu (t : TrainRun) (d : Dev) : (setTrain t d).pmu = d.pmu := rfl
@[simp] theorem setTrain_img (t : TrainRun) (d : Dev) : (setTrain t d).img = d.img := rfl
@[simp] theorem setTrain_fifos (t : TrainRun) (d : Dev) : (setTrain t d).fifos = d.fifos := rfl
@[simp] theorem setTrain_pinForce (t : TrainRun) (d : Dev) : (setTrain t d).pinForce = d.pinForce := rfl
@[simp] theorem setTrain_engs (t : TrainRun) (d : Dev) : (setTrain t d).engs = d.engs := rfl
@[simp] theorem setTrain_pipes (t : TrainRun) (d : Dev) : (setTrain t d).pipes = d.pipes := rfl
@[simp] theorem setTrain_tm (t : TrainRun) (d : Dev) : (setTrain t d).tm = d.tm := rfl
@[simp] theorem setTrain_links (t : TrainRun) (d : Dev) : (setTrain t d).links = d.links := rfl
@[simp] theorem setTrain_arys (t : TrainRun) (d : Dev) : (setTrain t d).arys = d.arys := rfl
@[simp] theorem setTrain_boots (t : TrainRun) (d : Dev) : (setTrain t d).boots = d.boots := rfl
@[simp] theorem setTrain_slots (t : TrainRun) (d : Dev) : (setTrain t d).slots = d.slots := rfl
@[simp] theorem setTrain_le (t : TrainRun) (d : Dev) : (setTrain t d).le = d.le := rfl
@[simp] theorem setTrain_arb (t : TrainRun) (d : Dev) : (setTrain t d).arb = d.arb := rfl
@[simp] theorem setTrain_keys (t : TrainRun) (d : Dev) : (setTrain t d).keys = d.keys := rfl
@[simp] theorem setTrain_boot (t : TrainRun) (d : Dev) : (setTrain t d).boot = d.boot := rfl
@[simp] theorem setTrain_periph (t : TrainRun) (d : Dev) : (setTrain t d).periph = d.periph := rfl

@[simp] theorem setPeriph_periph (p : Periph) (d : Dev) : (setPeriph p d).periph = p := rfl
@[simp] theorem setPeriph_part (p : Periph) (d : Dev) : (setPeriph p d).part = d.part := rfl
@[simp] theorem setPeriph_regs (p : Periph) (d : Dev) : (setPeriph p d).regs = d.regs := rfl
@[simp] theorem setPeriph_mem (p : Periph) (d : Dev) : (setPeriph p d).mem = d.mem := rfl
@[simp] theorem setPeriph_poison (p : Periph) (d : Dev) : (setPeriph p d).poison = d.poison := rfl
@[simp] theorem setPeriph_errs (p : Periph) (d : Dev) : (setPeriph p d).errs = d.errs := rfl
@[simp] theorem setPeriph_out (p : Periph) (d : Dev) : (setPeriph p d).out = d.out := rfl
@[simp] theorem setPeriph_free (p : Periph) (d : Dev) : (setPeriph p d).free = d.free := rfl
@[simp] theorem setPeriph_intg (p : Periph) (d : Dev) : (setPeriph p d).intg = d.intg := rfl
@[simp] theorem setPeriph_score (p : Periph) (d : Dev) : (setPeriph p d).score = d.score := rfl
@[simp] theorem setPeriph_rings (p : Periph) (d : Dev) : (setPeriph p d).rings = d.rings := rfl
@[simp] theorem setPeriph_ic (p : Periph) (d : Dev) : (setPeriph p d).ic = d.ic := rfl
@[simp] theorem setPeriph_pmu (p : Periph) (d : Dev) : (setPeriph p d).pmu = d.pmu := rfl
@[simp] theorem setPeriph_img (p : Periph) (d : Dev) : (setPeriph p d).img = d.img := rfl
@[simp] theorem setPeriph_fifos (p : Periph) (d : Dev) : (setPeriph p d).fifos = d.fifos := rfl
@[simp] theorem setPeriph_pinForce (p : Periph) (d : Dev) : (setPeriph p d).pinForce = d.pinForce := rfl
@[simp] theorem setPeriph_engs (p : Periph) (d : Dev) : (setPeriph p d).engs = d.engs := rfl
@[simp] theorem setPeriph_pipes (p : Periph) (d : Dev) : (setPeriph p d).pipes = d.pipes := rfl
@[simp] theorem setPeriph_tm (p : Periph) (d : Dev) : (setPeriph p d).tm = d.tm := rfl
@[simp] theorem setPeriph_links (p : Periph) (d : Dev) : (setPeriph p d).links = d.links := rfl
@[simp] theorem setPeriph_arys (p : Periph) (d : Dev) : (setPeriph p d).arys = d.arys := rfl
@[simp] theorem setPeriph_boots (p : Periph) (d : Dev) : (setPeriph p d).boots = d.boots := rfl
@[simp] theorem setPeriph_slots (p : Periph) (d : Dev) : (setPeriph p d).slots = d.slots := rfl
@[simp] theorem setPeriph_le (p : Periph) (d : Dev) : (setPeriph p d).le = d.le := rfl
@[simp] theorem setPeriph_arb (p : Periph) (d : Dev) : (setPeriph p d).arb = d.arb := rfl
@[simp] theorem setPeriph_train (p : Periph) (d : Dev) : (setPeriph p d).train = d.train := rfl
@[simp] theorem setPeriph_keys (p : Periph) (d : Dev) : (setPeriph p d).keys = d.keys := rfl
@[simp] theorem setPeriph_boot (p : Periph) (d : Dev) : (setPeriph p d).boot = d.boot := rfl

@[simp] theorem setKeys_keys (k : Keys) (d : Dev) : (setKeys k d).keys = k := rfl
@[simp] theorem setKeys_part (k : Keys) (d : Dev) : (setKeys k d).part = d.part := rfl
@[simp] theorem setKeys_regs (k : Keys) (d : Dev) : (setKeys k d).regs = d.regs := rfl
@[simp] theorem setKeys_mem (k : Keys) (d : Dev) : (setKeys k d).mem = d.mem := rfl
@[simp] theorem setKeys_poison (k : Keys) (d : Dev) : (setKeys k d).poison = d.poison := rfl
@[simp] theorem setKeys_errs (k : Keys) (d : Dev) : (setKeys k d).errs = d.errs := rfl
@[simp] theorem setKeys_out (k : Keys) (d : Dev) : (setKeys k d).out = d.out := rfl
@[simp] theorem setKeys_free (k : Keys) (d : Dev) : (setKeys k d).free = d.free := rfl
@[simp] theorem setKeys_intg (k : Keys) (d : Dev) : (setKeys k d).intg = d.intg := rfl
@[simp] theorem setKeys_score (k : Keys) (d : Dev) : (setKeys k d).score = d.score := rfl
@[simp] theorem setKeys_rings (k : Keys) (d : Dev) : (setKeys k d).rings = d.rings := rfl
@[simp] theorem setKeys_ic (k : Keys) (d : Dev) : (setKeys k d).ic = d.ic := rfl
@[simp] theorem setKeys_pmu (k : Keys) (d : Dev) : (setKeys k d).pmu = d.pmu := rfl
@[simp] theorem setKeys_img (k : Keys) (d : Dev) : (setKeys k d).img = d.img := rfl
@[simp] theorem setKeys_fifos (k : Keys) (d : Dev) : (setKeys k d).fifos = d.fifos := rfl
@[simp] theorem setKeys_pinForce (k : Keys) (d : Dev) : (setKeys k d).pinForce = d.pinForce := rfl
@[simp] theorem setKeys_engs (k : Keys) (d : Dev) : (setKeys k d).engs = d.engs := rfl
@[simp] theorem setKeys_pipes (k : Keys) (d : Dev) : (setKeys k d).pipes = d.pipes := rfl
@[simp] theorem setKeys_tm (k : Keys) (d : Dev) : (setKeys k d).tm = d.tm := rfl
@[simp] theorem setKeys_links (k : Keys) (d : Dev) : (setKeys k d).links = d.links := rfl
@[simp] theorem setKeys_arys (k : Keys) (d : Dev) : (setKeys k d).arys = d.arys := rfl
@[simp] theorem setKeys_boots (k : Keys) (d : Dev) : (setKeys k d).boots = d.boots := rfl
@[simp] theorem setKeys_slots (k : Keys) (d : Dev) : (setKeys k d).slots = d.slots := rfl
@[simp] theorem setKeys_le (k : Keys) (d : Dev) : (setKeys k d).le = d.le := rfl
@[simp] theorem setKeys_arb (k : Keys) (d : Dev) : (setKeys k d).arb = d.arb := rfl
@[simp] theorem setKeys_train (k : Keys) (d : Dev) : (setKeys k d).train = d.train := rfl
@[simp] theorem setKeys_boot (k : Keys) (d : Dev) : (setKeys k d).boot = d.boot := rfl
@[simp] theorem setKeys_periph (k : Keys) (d : Dev) : (setKeys k d).periph = d.periph := rfl

@[simp] theorem stageUpd_part (key : Nat) (f : StageRt → StageRt) (d : Dev) : (stageUpd key f d).part = d.part := rfl
@[simp] theorem stageUpd_regs (key : Nat) (f : StageRt → StageRt) (d : Dev) : (stageUpd key f d).regs = d.regs := rfl
@[simp] theorem stageUpd_mem (key : Nat) (f : StageRt → StageRt) (d : Dev) : (stageUpd key f d).mem = d.mem := rfl
@[simp] theorem stageUpd_poison (key : Nat) (f : StageRt → StageRt) (d : Dev) : (stageUpd key f d).poison = d.poison := rfl
@[simp] theorem stageUpd_errs (key : Nat) (f : StageRt → StageRt) (d : Dev) : (stageUpd key f d).errs = d.errs := rfl
@[simp] theorem stageUpd_out (key : Nat) (f : StageRt → StageRt) (d : Dev) : (stageUpd key f d).out = d.out := rfl
@[simp] theorem stageUpd_free (key : Nat) (f : StageRt → StageRt) (d : Dev) : (stageUpd key f d).free = d.free := rfl
@[simp] theorem stageUpd_intg (key : Nat) (f : StageRt → StageRt) (d : Dev) : (stageUpd key f d).intg = d.intg := rfl
@[simp] theorem stageUpd_score (key : Nat) (f : StageRt → StageRt) (d : Dev) : (stageUpd key f d).score = d.score := rfl
@[simp] theorem stageUpd_rings (key : Nat) (f : StageRt → StageRt) (d : Dev) : (stageUpd key f d).rings = d.rings := rfl
@[simp] theorem stageUpd_ic (key : Nat) (f : StageRt → StageRt) (d : Dev) : (stageUpd key f d).ic = d.ic := rfl
@[simp] theorem stageUpd_pmu (key : Nat) (f : StageRt → StageRt) (d : Dev) : (stageUpd key f d).pmu = d.pmu := rfl
@[simp] theorem stageUpd_img (key : Nat) (f : StageRt → StageRt) (d : Dev) : (stageUpd key f d).img = d.img := rfl
@[simp] theorem stageUpd_fifos (key : Nat) (f : StageRt → StageRt) (d : Dev) : (stageUpd key f d).fifos = d.fifos := rfl
@[simp] theorem stageUpd_pinForce (key : Nat) (f : StageRt → StageRt) (d : Dev) : (stageUpd key f d).pinForce = d.pinForce := rfl
@[simp] theorem stageUpd_pipes (key : Nat) (f : StageRt → StageRt) (d : Dev) : (stageUpd key f d).pipes = d.pipes := rfl
@[simp] theorem stageUpd_tm (key : Nat) (f : StageRt → StageRt) (d : Dev) : (stageUpd key f d).tm = d.tm := rfl
@[simp] theorem stageUpd_links (key : Nat) (f : StageRt → StageRt) (d : Dev) : (stageUpd key f d).links = d.links := rfl
@[simp] theorem stageUpd_arys (key : Nat) (f : StageRt → StageRt) (d : Dev) : (stageUpd key f d).arys = d.arys := rfl
@[simp] theorem stageUpd_boots (key : Nat) (f : StageRt → StageRt) (d : Dev) : (stageUpd key f d).boots = d.boots := rfl
@[simp] theorem stageUpd_slots (key : Nat) (f : StageRt → StageRt) (d : Dev) : (stageUpd key f d).slots = d.slots := rfl
@[simp] theorem stageUpd_le (key : Nat) (f : StageRt → StageRt) (d : Dev) : (stageUpd key f d).le = d.le := rfl
@[simp] theorem stageUpd_arb (key : Nat) (f : StageRt → StageRt) (d : Dev) : (stageUpd key f d).arb = d.arb := rfl
@[simp] theorem stageUpd_train (key : Nat) (f : StageRt → StageRt) (d : Dev) : (stageUpd key f d).train = d.train := rfl
@[simp] theorem stageUpd_keys (key : Nat) (f : StageRt → StageRt) (d : Dev) : (stageUpd key f d).keys = d.keys := rfl
@[simp] theorem stageUpd_boot (key : Nat) (f : StageRt → StageRt) (d : Dev) : (stageUpd key f d).boot = d.boot := rfl
@[simp] theorem stageUpd_periph (key : Nat) (f : StageRt → StageRt) (d : Dev) : (stageUpd key f d).periph = d.periph := rfl

@[simp] theorem qzUpd_part (k n : Nat) (f : QzRt → QzRt) (d : Dev) : (qzUpd k n f d).part = d.part := rfl
@[simp] theorem qzUpd_regs (k n : Nat) (f : QzRt → QzRt) (d : Dev) : (qzUpd k n f d).regs = d.regs := rfl
@[simp] theorem qzUpd_mem (k n : Nat) (f : QzRt → QzRt) (d : Dev) : (qzUpd k n f d).mem = d.mem := rfl
@[simp] theorem qzUpd_poison (k n : Nat) (f : QzRt → QzRt) (d : Dev) : (qzUpd k n f d).poison = d.poison := rfl
@[simp] theorem qzUpd_errs (k n : Nat) (f : QzRt → QzRt) (d : Dev) : (qzUpd k n f d).errs = d.errs := rfl
@[simp] theorem qzUpd_out (k n : Nat) (f : QzRt → QzRt) (d : Dev) : (qzUpd k n f d).out = d.out := rfl
@[simp] theorem qzUpd_free (k n : Nat) (f : QzRt → QzRt) (d : Dev) : (qzUpd k n f d).free = d.free := rfl
@[simp] theorem qzUpd_intg (k n : Nat) (f : QzRt → QzRt) (d : Dev) : (qzUpd k n f d).intg = d.intg := rfl
@[simp] theorem qzUpd_score (k n : Nat) (f : QzRt → QzRt) (d : Dev) : (qzUpd k n f d).score = d.score := rfl
@[simp] theorem qzUpd_rings (k n : Nat) (f : QzRt → QzRt) (d : Dev) : (qzUpd k n f d).rings = d.rings := rfl
@[simp] theorem qzUpd_ic (k n : Nat) (f : QzRt → QzRt) (d : Dev) : (qzUpd k n f d).ic = d.ic := rfl
@[simp] theorem qzUpd_pmu (k n : Nat) (f : QzRt → QzRt) (d : Dev) : (qzUpd k n f d).pmu = d.pmu := rfl
@[simp] theorem qzUpd_img (k n : Nat) (f : QzRt → QzRt) (d : Dev) : (qzUpd k n f d).img = d.img := rfl
@[simp] theorem qzUpd_fifos (k n : Nat) (f : QzRt → QzRt) (d : Dev) : (qzUpd k n f d).fifos = d.fifos := rfl
@[simp] theorem qzUpd_pinForce (k n : Nat) (f : QzRt → QzRt) (d : Dev) : (qzUpd k n f d).pinForce = d.pinForce := rfl
@[simp] theorem qzUpd_pipes (k n : Nat) (f : QzRt → QzRt) (d : Dev) : (qzUpd k n f d).pipes = d.pipes := rfl
@[simp] theorem qzUpd_tm (k n : Nat) (f : QzRt → QzRt) (d : Dev) : (qzUpd k n f d).tm = d.tm := rfl
@[simp] theorem qzUpd_links (k n : Nat) (f : QzRt → QzRt) (d : Dev) : (qzUpd k n f d).links = d.links := rfl
@[simp] theorem qzUpd_arys (k n : Nat) (f : QzRt → QzRt) (d : Dev) : (qzUpd k n f d).arys = d.arys := rfl
@[simp] theorem qzUpd_boots (k n : Nat) (f : QzRt → QzRt) (d : Dev) : (qzUpd k n f d).boots = d.boots := rfl
@[simp] theorem qzUpd_slots (k n : Nat) (f : QzRt → QzRt) (d : Dev) : (qzUpd k n f d).slots = d.slots := rfl
@[simp] theorem qzUpd_le (k n : Nat) (f : QzRt → QzRt) (d : Dev) : (qzUpd k n f d).le = d.le := rfl
@[simp] theorem qzUpd_arb (k n : Nat) (f : QzRt → QzRt) (d : Dev) : (qzUpd k n f d).arb = d.arb := rfl
@[simp] theorem qzUpd_train (k n : Nat) (f : QzRt → QzRt) (d : Dev) : (qzUpd k n f d).train = d.train := rfl
@[simp] theorem qzUpd_keys (k n : Nat) (f : QzRt → QzRt) (d : Dev) : (qzUpd k n f d).keys = d.keys := rfl
@[simp] theorem qzUpd_boot (k n : Nat) (f : QzRt → QzRt) (d : Dev) : (qzUpd k n f d).boot = d.boot := rfl
@[simp] theorem qzUpd_periph (k n : Nat) (f : QzRt → QzRt) (d : Dev) : (qzUpd k n f d).periph = d.periph := rfl

@[simp] theorem pipeUpd_part (p : Nat) (f : Pipe → Pipe) (d : Dev) : (pipeUpd p f d).part = d.part := rfl
@[simp] theorem pipeUpd_regs (p : Nat) (f : Pipe → Pipe) (d : Dev) : (pipeUpd p f d).regs = d.regs := rfl
@[simp] theorem pipeUpd_mem (p : Nat) (f : Pipe → Pipe) (d : Dev) : (pipeUpd p f d).mem = d.mem := rfl
@[simp] theorem pipeUpd_poison (p : Nat) (f : Pipe → Pipe) (d : Dev) : (pipeUpd p f d).poison = d.poison := rfl
@[simp] theorem pipeUpd_errs (p : Nat) (f : Pipe → Pipe) (d : Dev) : (pipeUpd p f d).errs = d.errs := rfl
@[simp] theorem pipeUpd_out (p : Nat) (f : Pipe → Pipe) (d : Dev) : (pipeUpd p f d).out = d.out := rfl
@[simp] theorem pipeUpd_free (p : Nat) (f : Pipe → Pipe) (d : Dev) : (pipeUpd p f d).free = d.free := rfl
@[simp] theorem pipeUpd_intg (p : Nat) (f : Pipe → Pipe) (d : Dev) : (pipeUpd p f d).intg = d.intg := rfl
@[simp] theorem pipeUpd_score (p : Nat) (f : Pipe → Pipe) (d : Dev) : (pipeUpd p f d).score = d.score := rfl
@[simp] theorem pipeUpd_rings (p : Nat) (f : Pipe → Pipe) (d : Dev) : (pipeUpd p f d).rings = d.rings := rfl
@[simp] theorem pipeUpd_ic (p : Nat) (f : Pipe → Pipe) (d : Dev) : (pipeUpd p f d).ic = d.ic := rfl
@[simp] theorem pipeUpd_pmu (p : Nat) (f : Pipe → Pipe) (d : Dev) : (pipeUpd p f d).pmu = d.pmu := rfl
@[simp] theorem pipeUpd_img (p : Nat) (f : Pipe → Pipe) (d : Dev) : (pipeUpd p f d).img = d.img := rfl
@[simp] theorem pipeUpd_fifos (p : Nat) (f : Pipe → Pipe) (d : Dev) : (pipeUpd p f d).fifos = d.fifos := rfl
@[simp] theorem pipeUpd_pinForce (p : Nat) (f : Pipe → Pipe) (d : Dev) : (pipeUpd p f d).pinForce = d.pinForce := rfl
@[simp] theorem pipeUpd_engs (p : Nat) (f : Pipe → Pipe) (d : Dev) : (pipeUpd p f d).engs = d.engs := rfl
@[simp] theorem pipeUpd_tm (p : Nat) (f : Pipe → Pipe) (d : Dev) : (pipeUpd p f d).tm = d.tm := rfl
@[simp] theorem pipeUpd_links (p : Nat) (f : Pipe → Pipe) (d : Dev) : (pipeUpd p f d).links = d.links := rfl
@[simp] theorem pipeUpd_arys (p : Nat) (f : Pipe → Pipe) (d : Dev) : (pipeUpd p f d).arys = d.arys := rfl
@[simp] theorem pipeUpd_boots (p : Nat) (f : Pipe → Pipe) (d : Dev) : (pipeUpd p f d).boots = d.boots := rfl
@[simp] theorem pipeUpd_slots (p : Nat) (f : Pipe → Pipe) (d : Dev) : (pipeUpd p f d).slots = d.slots := rfl
@[simp] theorem pipeUpd_le (p : Nat) (f : Pipe → Pipe) (d : Dev) : (pipeUpd p f d).le = d.le := rfl
@[simp] theorem pipeUpd_arb (p : Nat) (f : Pipe → Pipe) (d : Dev) : (pipeUpd p f d).arb = d.arb := rfl
@[simp] theorem pipeUpd_train (p : Nat) (f : Pipe → Pipe) (d : Dev) : (pipeUpd p f d).train = d.train := rfl
@[simp] theorem pipeUpd_keys (p : Nat) (f : Pipe → Pipe) (d : Dev) : (pipeUpd p f d).keys = d.keys := rfl
@[simp] theorem pipeUpd_boot (p : Nat) (f : Pipe → Pipe) (d : Dev) : (pipeUpd p f d).boot = d.boot := rfl
@[simp] theorem pipeUpd_periph (p : Nat) (f : Pipe → Pipe) (d : Dev) : (pipeUpd p f d).periph = d.periph := rfl

@[simp] theorem mslotUpd_part (n : Nat) (f : MSlot → MSlot) (d : Dev) : (mslotUpd n f d).part = d.part := rfl
@[simp] theorem mslotUpd_regs (n : Nat) (f : MSlot → MSlot) (d : Dev) : (mslotUpd n f d).regs = d.regs := rfl
@[simp] theorem mslotUpd_mem (n : Nat) (f : MSlot → MSlot) (d : Dev) : (mslotUpd n f d).mem = d.mem := rfl
@[simp] theorem mslotUpd_poison (n : Nat) (f : MSlot → MSlot) (d : Dev) : (mslotUpd n f d).poison = d.poison := rfl
@[simp] theorem mslotUpd_errs (n : Nat) (f : MSlot → MSlot) (d : Dev) : (mslotUpd n f d).errs = d.errs := rfl
@[simp] theorem mslotUpd_out (n : Nat) (f : MSlot → MSlot) (d : Dev) : (mslotUpd n f d).out = d.out := rfl
@[simp] theorem mslotUpd_free (n : Nat) (f : MSlot → MSlot) (d : Dev) : (mslotUpd n f d).free = d.free := rfl
@[simp] theorem mslotUpd_intg (n : Nat) (f : MSlot → MSlot) (d : Dev) : (mslotUpd n f d).intg = d.intg := rfl
@[simp] theorem mslotUpd_score (n : Nat) (f : MSlot → MSlot) (d : Dev) : (mslotUpd n f d).score = d.score := rfl
@[simp] theorem mslotUpd_rings (n : Nat) (f : MSlot → MSlot) (d : Dev) : (mslotUpd n f d).rings = d.rings := rfl
@[simp] theorem mslotUpd_ic (n : Nat) (f : MSlot → MSlot) (d : Dev) : (mslotUpd n f d).ic = d.ic := rfl
@[simp] theorem mslotUpd_pmu (n : Nat) (f : MSlot → MSlot) (d : Dev) : (mslotUpd n f d).pmu = d.pmu := rfl
@[simp] theorem mslotUpd_img (n : Nat) (f : MSlot → MSlot) (d : Dev) : (mslotUpd n f d).img = d.img := rfl
@[simp] theorem mslotUpd_fifos (n : Nat) (f : MSlot → MSlot) (d : Dev) : (mslotUpd n f d).fifos = d.fifos := rfl
@[simp] theorem mslotUpd_pinForce (n : Nat) (f : MSlot → MSlot) (d : Dev) : (mslotUpd n f d).pinForce = d.pinForce := rfl
@[simp] theorem mslotUpd_engs (n : Nat) (f : MSlot → MSlot) (d : Dev) : (mslotUpd n f d).engs = d.engs := rfl
@[simp] theorem mslotUpd_pipes (n : Nat) (f : MSlot → MSlot) (d : Dev) : (mslotUpd n f d).pipes = d.pipes := rfl
@[simp] theorem mslotUpd_tm (n : Nat) (f : MSlot → MSlot) (d : Dev) : (mslotUpd n f d).tm = d.tm := rfl
@[simp] theorem mslotUpd_links (n : Nat) (f : MSlot → MSlot) (d : Dev) : (mslotUpd n f d).links = d.links := rfl
@[simp] theorem mslotUpd_arys (n : Nat) (f : MSlot → MSlot) (d : Dev) : (mslotUpd n f d).arys = d.arys := rfl
@[simp] theorem mslotUpd_boots (n : Nat) (f : MSlot → MSlot) (d : Dev) : (mslotUpd n f d).boots = d.boots := rfl
@[simp] theorem mslotUpd_le (n : Nat) (f : MSlot → MSlot) (d : Dev) : (mslotUpd n f d).le = d.le := rfl
@[simp] theorem mslotUpd_arb (n : Nat) (f : MSlot → MSlot) (d : Dev) : (mslotUpd n f d).arb = d.arb := rfl
@[simp] theorem mslotUpd_train (n : Nat) (f : MSlot → MSlot) (d : Dev) : (mslotUpd n f d).train = d.train := rfl
@[simp] theorem mslotUpd_keys (n : Nat) (f : MSlot → MSlot) (d : Dev) : (mslotUpd n f d).keys = d.keys := rfl
@[simp] theorem mslotUpd_boot (n : Nat) (f : MSlot → MSlot) (d : Dev) : (mslotUpd n f d).boot = d.boot := rfl
@[simp] theorem mslotUpd_periph (n : Nat) (f : MSlot → MSlot) (d : Dev) : (mslotUpd n f d).periph = d.periph := rfl

@[simp] theorem sideUpd_part (n s : Nat) (f : Side → Side) (d : Dev) : (sideUpd n s f d).part = d.part := rfl
@[simp] theorem sideUpd_regs (n s : Nat) (f : Side → Side) (d : Dev) : (sideUpd n s f d).regs = d.regs := rfl
@[simp] theorem sideUpd_mem (n s : Nat) (f : Side → Side) (d : Dev) : (sideUpd n s f d).mem = d.mem := rfl
@[simp] theorem sideUpd_poison (n s : Nat) (f : Side → Side) (d : Dev) : (sideUpd n s f d).poison = d.poison := rfl
@[simp] theorem sideUpd_errs (n s : Nat) (f : Side → Side) (d : Dev) : (sideUpd n s f d).errs = d.errs := rfl
@[simp] theorem sideUpd_out (n s : Nat) (f : Side → Side) (d : Dev) : (sideUpd n s f d).out = d.out := rfl
@[simp] theorem sideUpd_free (n s : Nat) (f : Side → Side) (d : Dev) : (sideUpd n s f d).free = d.free := rfl
@[simp] theorem sideUpd_intg (n s : Nat) (f : Side → Side) (d : Dev) : (sideUpd n s f d).intg = d.intg := rfl
@[simp] theorem sideUpd_score (n s : Nat) (f : Side → Side) (d : Dev) : (sideUpd n s f d).score = d.score := rfl
@[simp] theorem sideUpd_rings (n s : Nat) (f : Side → Side) (d : Dev) : (sideUpd n s f d).rings = d.rings := rfl
@[simp] theorem sideUpd_ic (n s : Nat) (f : Side → Side) (d : Dev) : (sideUpd n s f d).ic = d.ic := rfl
@[simp] theorem sideUpd_pmu (n s : Nat) (f : Side → Side) (d : Dev) : (sideUpd n s f d).pmu = d.pmu := rfl
@[simp] theorem sideUpd_img (n s : Nat) (f : Side → Side) (d : Dev) : (sideUpd n s f d).img = d.img := rfl
@[simp] theorem sideUpd_fifos (n s : Nat) (f : Side → Side) (d : Dev) : (sideUpd n s f d).fifos = d.fifos := rfl
@[simp] theorem sideUpd_pinForce (n s : Nat) (f : Side → Side) (d : Dev) : (sideUpd n s f d).pinForce = d.pinForce := rfl
@[simp] theorem sideUpd_engs (n s : Nat) (f : Side → Side) (d : Dev) : (sideUpd n s f d).engs = d.engs := rfl
@[simp] theorem sideUpd_pipes (n s : Nat) (f : Side → Side) (d : Dev) : (sideUpd n s f d).pipes = d.pipes := rfl
@[simp] theorem sideUpd_tm (n s : Nat) (f : Side → Side) (d : Dev) : (sideUpd n s f d).tm = d.tm := rfl
@[simp] theorem sideUpd_links (n s : Nat) (f : Side → Side) (d : Dev) : (sideUpd n s f d).links = d.links := rfl
@[simp] theorem sideUpd_arys (n s : Nat) (f : Side → Side) (d : Dev) : (sideUpd n s f d).arys = d.arys := rfl
@[simp] theorem sideUpd_boots (n s : Nat) (f : Side → Side) (d : Dev) : (sideUpd n s f d).boots = d.boots := rfl
@[simp] theorem sideUpd_le (n s : Nat) (f : Side → Side) (d : Dev) : (sideUpd n s f d).le = d.le := rfl
@[simp] theorem sideUpd_arb (n s : Nat) (f : Side → Side) (d : Dev) : (sideUpd n s f d).arb = d.arb := rfl
@[simp] theorem sideUpd_train (n s : Nat) (f : Side → Side) (d : Dev) : (sideUpd n s f d).train = d.train := rfl
@[simp] theorem sideUpd_keys (n s : Nat) (f : Side → Side) (d : Dev) : (sideUpd n s f d).keys = d.keys := rfl
@[simp] theorem sideUpd_boot (n s : Nat) (f : Side → Side) (d : Dev) : (sideUpd n s f d).boot = d.boot := rfl
@[simp] theorem sideUpd_periph (n s : Nat) (f : Side → Side) (d : Dev) : (sideUpd n s f d).periph = d.periph := rfl

@[simp] theorem setSessions_part (m : FMap Session) (d : Dev) : (setSessions m d).part = d.part := rfl
@[simp] theorem setSessions_regs (m : FMap Session) (d : Dev) : (setSessions m d).regs = d.regs := rfl
@[simp] theorem setSessions_mem (m : FMap Session) (d : Dev) : (setSessions m d).mem = d.mem := rfl
@[simp] theorem setSessions_poison (m : FMap Session) (d : Dev) : (setSessions m d).poison = d.poison := rfl
@[simp] theorem setSessions_errs (m : FMap Session) (d : Dev) : (setSessions m d).errs = d.errs := rfl
@[simp] theorem setSessions_out (m : FMap Session) (d : Dev) : (setSessions m d).out = d.out := rfl
@[simp] theorem setSessions_free (m : FMap Session) (d : Dev) : (setSessions m d).free = d.free := rfl
@[simp] theorem setSessions_intg (m : FMap Session) (d : Dev) : (setSessions m d).intg = d.intg := rfl
@[simp] theorem setSessions_score (m : FMap Session) (d : Dev) : (setSessions m d).score = d.score := rfl
@[simp] theorem setSessions_rings (m : FMap Session) (d : Dev) : (setSessions m d).rings = d.rings := rfl
@[simp] theorem setSessions_ic (m : FMap Session) (d : Dev) : (setSessions m d).ic = d.ic := rfl
@[simp] theorem setSessions_pmu (m : FMap Session) (d : Dev) : (setSessions m d).pmu = d.pmu := rfl
@[simp] theorem setSessions_img (m : FMap Session) (d : Dev) : (setSessions m d).img = d.img := rfl
@[simp] theorem setSessions_fifos (m : FMap Session) (d : Dev) : (setSessions m d).fifos = d.fifos := rfl
@[simp] theorem setSessions_pinForce (m : FMap Session) (d : Dev) : (setSessions m d).pinForce = d.pinForce := rfl
@[simp] theorem setSessions_engs (m : FMap Session) (d : Dev) : (setSessions m d).engs = d.engs := rfl
@[simp] theorem setSessions_pipes (m : FMap Session) (d : Dev) : (setSessions m d).pipes = d.pipes := rfl
@[simp] theorem setSessions_tm (m : FMap Session) (d : Dev) : (setSessions m d).tm = d.tm := rfl
@[simp] theorem setSessions_links (m : FMap Session) (d : Dev) : (setSessions m d).links = d.links := rfl
@[simp] theorem setSessions_arys (m : FMap Session) (d : Dev) : (setSessions m d).arys = d.arys := rfl
@[simp] theorem setSessions_boots (m : FMap Session) (d : Dev) : (setSessions m d).boots = d.boots := rfl
@[simp] theorem setSessions_le (m : FMap Session) (d : Dev) : (setSessions m d).le = d.le := rfl
@[simp] theorem setSessions_arb (m : FMap Session) (d : Dev) : (setSessions m d).arb = d.arb := rfl
@[simp] theorem setSessions_train (m : FMap Session) (d : Dev) : (setSessions m d).train = d.train := rfl
@[simp] theorem setSessions_keys (m : FMap Session) (d : Dev) : (setSessions m d).keys = d.keys := rfl
@[simp] theorem setSessions_boot (m : FMap Session) (d : Dev) : (setSessions m d).boot = d.boot := rfl
@[simp] theorem setSessions_periph (m : FMap Session) (d : Dev) : (setSessions m d).periph = d.periph := rfl

@[simp] theorem setCastles_part (m : FMap Castle) (d : Dev) : (setCastles m d).part = d.part := rfl
@[simp] theorem setCastles_regs (m : FMap Castle) (d : Dev) : (setCastles m d).regs = d.regs := rfl
@[simp] theorem setCastles_mem (m : FMap Castle) (d : Dev) : (setCastles m d).mem = d.mem := rfl
@[simp] theorem setCastles_poison (m : FMap Castle) (d : Dev) : (setCastles m d).poison = d.poison := rfl
@[simp] theorem setCastles_errs (m : FMap Castle) (d : Dev) : (setCastles m d).errs = d.errs := rfl
@[simp] theorem setCastles_out (m : FMap Castle) (d : Dev) : (setCastles m d).out = d.out := rfl
@[simp] theorem setCastles_free (m : FMap Castle) (d : Dev) : (setCastles m d).free = d.free := rfl
@[simp] theorem setCastles_intg (m : FMap Castle) (d : Dev) : (setCastles m d).intg = d.intg := rfl
@[simp] theorem setCastles_score (m : FMap Castle) (d : Dev) : (setCastles m d).score = d.score := rfl
@[simp] theorem setCastles_rings (m : FMap Castle) (d : Dev) : (setCastles m d).rings = d.rings := rfl
@[simp] theorem setCastles_ic (m : FMap Castle) (d : Dev) : (setCastles m d).ic = d.ic := rfl
@[simp] theorem setCastles_pmu (m : FMap Castle) (d : Dev) : (setCastles m d).pmu = d.pmu := rfl
@[simp] theorem setCastles_img (m : FMap Castle) (d : Dev) : (setCastles m d).img = d.img := rfl
@[simp] theorem setCastles_fifos (m : FMap Castle) (d : Dev) : (setCastles m d).fifos = d.fifos := rfl
@[simp] theorem setCastles_pinForce (m : FMap Castle) (d : Dev) : (setCastles m d).pinForce = d.pinForce := rfl
@[simp] theorem setCastles_engs (m : FMap Castle) (d : Dev) : (setCastles m d).engs = d.engs := rfl
@[simp] theorem setCastles_pipes (m : FMap Castle) (d : Dev) : (setCastles m d).pipes = d.pipes := rfl
@[simp] theorem setCastles_tm (m : FMap Castle) (d : Dev) : (setCastles m d).tm = d.tm := rfl
@[simp] theorem setCastles_links (m : FMap Castle) (d : Dev) : (setCastles m d).links = d.links := rfl
@[simp] theorem setCastles_arys (m : FMap Castle) (d : Dev) : (setCastles m d).arys = d.arys := rfl
@[simp] theorem setCastles_boots (m : FMap Castle) (d : Dev) : (setCastles m d).boots = d.boots := rfl
@[simp] theorem setCastles_le (m : FMap Castle) (d : Dev) : (setCastles m d).le = d.le := rfl
@[simp] theorem setCastles_arb (m : FMap Castle) (d : Dev) : (setCastles m d).arb = d.arb := rfl
@[simp] theorem setCastles_train (m : FMap Castle) (d : Dev) : (setCastles m d).train = d.train := rfl
@[simp] theorem setCastles_keys (m : FMap Castle) (d : Dev) : (setCastles m d).keys = d.keys := rfl
@[simp] theorem setCastles_boot (m : FMap Castle) (d : Dev) : (setCastles m d).boot = d.boot := rfl
@[simp] theorem setCastles_periph (m : FMap Castle) (d : Dev) : (setCastles m d).periph = d.periph := rfl

@[simp] theorem portUpd_part (n : Nat) (f : LinkPort → LinkPort) (d : Dev) : (portUpd n f d).part = d.part := rfl
@[simp] theorem portUpd_regs (n : Nat) (f : LinkPort → LinkPort) (d : Dev) : (portUpd n f d).regs = d.regs := rfl
@[simp] theorem portUpd_mem (n : Nat) (f : LinkPort → LinkPort) (d : Dev) : (portUpd n f d).mem = d.mem := rfl
@[simp] theorem portUpd_poison (n : Nat) (f : LinkPort → LinkPort) (d : Dev) : (portUpd n f d).poison = d.poison := rfl
@[simp] theorem portUpd_errs (n : Nat) (f : LinkPort → LinkPort) (d : Dev) : (portUpd n f d).errs = d.errs := rfl
@[simp] theorem portUpd_out (n : Nat) (f : LinkPort → LinkPort) (d : Dev) : (portUpd n f d).out = d.out := rfl
@[simp] theorem portUpd_free (n : Nat) (f : LinkPort → LinkPort) (d : Dev) : (portUpd n f d).free = d.free := rfl
@[simp] theorem portUpd_intg (n : Nat) (f : LinkPort → LinkPort) (d : Dev) : (portUpd n f d).intg = d.intg := rfl
@[simp] theorem portUpd_score (n : Nat) (f : LinkPort → LinkPort) (d : Dev) : (portUpd n f d).score = d.score := rfl
@[simp] theorem portUpd_rings (n : Nat) (f : LinkPort → LinkPort) (d : Dev) : (portUpd n f d).rings = d.rings := rfl
@[simp] theorem portUpd_ic (n : Nat) (f : LinkPort → LinkPort) (d : Dev) : (portUpd n f d).ic = d.ic := rfl
@[simp] theorem portUpd_pmu (n : Nat) (f : LinkPort → LinkPort) (d : Dev) : (portUpd n f d).pmu = d.pmu := rfl
@[simp] theorem portUpd_img (n : Nat) (f : LinkPort → LinkPort) (d : Dev) : (portUpd n f d).img = d.img := rfl
@[simp] theorem portUpd_fifos (n : Nat) (f : LinkPort → LinkPort) (d : Dev) : (portUpd n f d).fifos = d.fifos := rfl
@[simp] theorem portUpd_pinForce (n : Nat) (f : LinkPort → LinkPort) (d : Dev) : (portUpd n f d).pinForce = d.pinForce := rfl
@[simp] theorem portUpd_engs (n : Nat) (f : LinkPort → LinkPort) (d : Dev) : (portUpd n f d).engs = d.engs := rfl
@[simp] theorem portUpd_pipes (n : Nat) (f : LinkPort → LinkPort) (d : Dev) : (portUpd n f d).pipes = d.pipes := rfl
@[simp] theorem portUpd_tm (n : Nat) (f : LinkPort → LinkPort) (d : Dev) : (portUpd n f d).tm = d.tm := rfl
@[simp] theorem portUpd_arys (n : Nat) (f : LinkPort → LinkPort) (d : Dev) : (portUpd n f d).arys = d.arys := rfl
@[simp] theorem portUpd_boots (n : Nat) (f : LinkPort → LinkPort) (d : Dev) : (portUpd n f d).boots = d.boots := rfl
@[simp] theorem portUpd_slots (n : Nat) (f : LinkPort → LinkPort) (d : Dev) : (portUpd n f d).slots = d.slots := rfl
@[simp] theorem portUpd_le (n : Nat) (f : LinkPort → LinkPort) (d : Dev) : (portUpd n f d).le = d.le := rfl
@[simp] theorem portUpd_arb (n : Nat) (f : LinkPort → LinkPort) (d : Dev) : (portUpd n f d).arb = d.arb := rfl
@[simp] theorem portUpd_train (n : Nat) (f : LinkPort → LinkPort) (d : Dev) : (portUpd n f d).train = d.train := rfl
@[simp] theorem portUpd_keys (n : Nat) (f : LinkPort → LinkPort) (d : Dev) : (portUpd n f d).keys = d.keys := rfl
@[simp] theorem portUpd_boot (n : Nat) (f : LinkPort → LinkPort) (d : Dev) : (portUpd n f d).boot = d.boot := rfl
@[simp] theorem portUpd_periph (n : Nat) (f : LinkPort → LinkPort) (d : Dev) : (portUpd n f d).periph = d.periph := rfl

@[simp] theorem rowPut_part (key t : Nat) (r : RowRt) (d : Dev) : (rowPut key t r d).part = d.part := rfl
@[simp] theorem rowPut_regs (key t : Nat) (r : RowRt) (d : Dev) : (rowPut key t r d).regs = d.regs := rfl
@[simp] theorem rowPut_mem (key t : Nat) (r : RowRt) (d : Dev) : (rowPut key t r d).mem = d.mem := rfl
@[simp] theorem rowPut_poison (key t : Nat) (r : RowRt) (d : Dev) : (rowPut key t r d).poison = d.poison := rfl
@[simp] theorem rowPut_errs (key t : Nat) (r : RowRt) (d : Dev) : (rowPut key t r d).errs = d.errs := rfl
@[simp] theorem rowPut_out (key t : Nat) (r : RowRt) (d : Dev) : (rowPut key t r d).out = d.out := rfl
@[simp] theorem rowPut_free (key t : Nat) (r : RowRt) (d : Dev) : (rowPut key t r d).free = d.free := rfl
@[simp] theorem rowPut_intg (key t : Nat) (r : RowRt) (d : Dev) : (rowPut key t r d).intg = d.intg := rfl
@[simp] theorem rowPut_score (key t : Nat) (r : RowRt) (d : Dev) : (rowPut key t r d).score = d.score := rfl
@[simp] theorem rowPut_rings (key t : Nat) (r : RowRt) (d : Dev) : (rowPut key t r d).rings = d.rings := rfl
@[simp] theorem rowPut_ic (key t : Nat) (r : RowRt) (d : Dev) : (rowPut key t r d).ic = d.ic := rfl
@[simp] theorem rowPut_pmu (key t : Nat) (r : RowRt) (d : Dev) : (rowPut key t r d).pmu = d.pmu := rfl
@[simp] theorem rowPut_img (key t : Nat) (r : RowRt) (d : Dev) : (rowPut key t r d).img = d.img := rfl
@[simp] theorem rowPut_fifos (key t : Nat) (r : RowRt) (d : Dev) : (rowPut key t r d).fifos = d.fifos := rfl
@[simp] theorem rowPut_pinForce (key t : Nat) (r : RowRt) (d : Dev) : (rowPut key t r d).pinForce = d.pinForce := rfl
@[simp] theorem rowPut_pipes (key t : Nat) (r : RowRt) (d : Dev) : (rowPut key t r d).pipes = d.pipes := rfl
@[simp] theorem rowPut_tm (key t : Nat) (r : RowRt) (d : Dev) : (rowPut key t r d).tm = d.tm := rfl
@[simp] theorem rowPut_links (key t : Nat) (r : RowRt) (d : Dev) : (rowPut key t r d).links = d.links := rfl
@[simp] theorem rowPut_arys (key t : Nat) (r : RowRt) (d : Dev) : (rowPut key t r d).arys = d.arys := rfl
@[simp] theorem rowPut_boots (key t : Nat) (r : RowRt) (d : Dev) : (rowPut key t r d).boots = d.boots := rfl
@[simp] theorem rowPut_slots (key t : Nat) (r : RowRt) (d : Dev) : (rowPut key t r d).slots = d.slots := rfl
@[simp] theorem rowPut_le (key t : Nat) (r : RowRt) (d : Dev) : (rowPut key t r d).le = d.le := rfl
@[simp] theorem rowPut_arb (key t : Nat) (r : RowRt) (d : Dev) : (rowPut key t r d).arb = d.arb := rfl
@[simp] theorem rowPut_train (key t : Nat) (r : RowRt) (d : Dev) : (rowPut key t r d).train = d.train := rfl
@[simp] theorem rowPut_keys (key t : Nat) (r : RowRt) (d : Dev) : (rowPut key t r d).keys = d.keys := rfl
@[simp] theorem rowPut_boot (key t : Nat) (r : RowRt) (d : Dev) : (rowPut key t r d).boot = d.boot := rfl
@[simp] theorem rowPut_periph (key t : Nat) (r : RowRt) (d : Dev) : (rowPut key t r d).periph = d.periph := rfl

@[simp] theorem rowDel_part (key t : Nat) (d : Dev) : (rowDel key t d).part = d.part := rfl
@[simp] theorem rowDel_regs (key t : Nat) (d : Dev) : (rowDel key t d).regs = d.regs := rfl
@[simp] theorem rowDel_mem (key t : Nat) (d : Dev) : (rowDel key t d).mem = d.mem := rfl
@[simp] theorem rowDel_poison (key t : Nat) (d : Dev) : (rowDel key t d).poison = d.poison := rfl
@[simp] theorem rowDel_errs (key t : Nat) (d : Dev) : (rowDel key t d).errs = d.errs := rfl
@[simp] theorem rowDel_out (key t : Nat) (d : Dev) : (rowDel key t d).out = d.out := rfl
@[simp] theorem rowDel_free (key t : Nat) (d : Dev) : (rowDel key t d).free = d.free := rfl
@[simp] theorem rowDel_intg (key t : Nat) (d : Dev) : (rowDel key t d).intg = d.intg := rfl
@[simp] theorem rowDel_score (key t : Nat) (d : Dev) : (rowDel key t d).score = d.score := rfl
@[simp] theorem rowDel_rings (key t : Nat) (d : Dev) : (rowDel key t d).rings = d.rings := rfl
@[simp] theorem rowDel_ic (key t : Nat) (d : Dev) : (rowDel key t d).ic = d.ic := rfl
@[simp] theorem rowDel_pmu (key t : Nat) (d : Dev) : (rowDel key t d).pmu = d.pmu := rfl
@[simp] theorem rowDel_img (key t : Nat) (d : Dev) : (rowDel key t d).img = d.img := rfl
@[simp] theorem rowDel_fifos (key t : Nat) (d : Dev) : (rowDel key t d).fifos = d.fifos := rfl
@[simp] theorem rowDel_pinForce (key t : Nat) (d : Dev) : (rowDel key t d).pinForce = d.pinForce := rfl
@[simp] theorem rowDel_pipes (key t : Nat) (d : Dev) : (rowDel key t d).pipes = d.pipes := rfl
@[simp] theorem rowDel_tm (key t : Nat) (d : Dev) : (rowDel key t d).tm = d.tm := rfl
@[simp] theorem rowDel_links (key t : Nat) (d : Dev) : (rowDel key t d).links = d.links := rfl
@[simp] theorem rowDel_arys (key t : Nat) (d : Dev) : (rowDel key t d).arys = d.arys := rfl
@[simp] theorem rowDel_boots (key t : Nat) (d : Dev) : (rowDel key t d).boots = d.boots := rfl
@[simp] theorem rowDel_slots (key t : Nat) (d : Dev) : (rowDel key t d).slots = d.slots := rfl
@[simp] theorem rowDel_le (key t : Nat) (d : Dev) : (rowDel key t d).le = d.le := rfl
@[simp] theorem rowDel_arb (key t : Nat) (d : Dev) : (rowDel key t d).arb = d.arb := rfl
@[simp] theorem rowDel_train (key t : Nat) (d : Dev) : (rowDel key t d).train = d.train := rfl
@[simp] theorem rowDel_keys (key t : Nat) (d : Dev) : (rowDel key t d).keys = d.keys := rfl
@[simp] theorem rowDel_boot (key t : Nat) (d : Dev) : (rowDel key t d).boot = d.boot := rfl
@[simp] theorem rowDel_periph (key t : Nat) (d : Dev) : (rowDel key t d).periph = d.periph := rfl

@[simp] theorem firingUpd_part (key : Nat) (g : Firing → Firing) (d : Dev) : (firingUpd key g d).part = d.part := rfl
@[simp] theorem firingUpd_regs (key : Nat) (g : Firing → Firing) (d : Dev) : (firingUpd key g d).regs = d.regs := rfl
@[simp] theorem firingUpd_mem (key : Nat) (g : Firing → Firing) (d : Dev) : (firingUpd key g d).mem = d.mem := rfl
@[simp] theorem firingUpd_poison (key : Nat) (g : Firing → Firing) (d : Dev) : (firingUpd key g d).poison = d.poison := rfl
@[simp] theorem firingUpd_errs (key : Nat) (g : Firing → Firing) (d : Dev) : (firingUpd key g d).errs = d.errs := rfl
@[simp] theorem firingUpd_out (key : Nat) (g : Firing → Firing) (d : Dev) : (firingUpd key g d).out = d.out := rfl
@[simp] theorem firingUpd_free (key : Nat) (g : Firing → Firing) (d : Dev) : (firingUpd key g d).free = d.free := rfl
@[simp] theorem firingUpd_intg (key : Nat) (g : Firing → Firing) (d : Dev) : (firingUpd key g d).intg = d.intg := rfl
@[simp] theorem firingUpd_score (key : Nat) (g : Firing → Firing) (d : Dev) : (firingUpd key g d).score = d.score := rfl
@[simp] theorem firingUpd_rings (key : Nat) (g : Firing → Firing) (d : Dev) : (firingUpd key g d).rings = d.rings := rfl
@[simp] theorem firingUpd_ic (key : Nat) (g : Firing → Firing) (d : Dev) : (firingUpd key g d).ic = d.ic := rfl
@[simp] theorem firingUpd_pmu (key : Nat) (g : Firing → Firing) (d : Dev) : (firingUpd key g d).pmu = d.pmu := rfl
@[simp] theorem firingUpd_img (key : Nat) (g : Firing → Firing) (d : Dev) : (firingUpd key g d).img = d.img := rfl
@[simp] theorem firingUpd_fifos (key : Nat) (g : Firing → Firing) (d : Dev) : (firingUpd key g d).fifos = d.fifos := rfl
@[simp] theorem firingUpd_pinForce (key : Nat) (g : Firing → Firing) (d : Dev) : (firingUpd key g d).pinForce = d.pinForce := rfl
@[simp] theorem firingUpd_pipes (key : Nat) (g : Firing → Firing) (d : Dev) : (firingUpd key g d).pipes = d.pipes := rfl
@[simp] theorem firingUpd_tm (key : Nat) (g : Firing → Firing) (d : Dev) : (firingUpd key g d).tm = d.tm := rfl
@[simp] theorem firingUpd_links (key : Nat) (g : Firing → Firing) (d : Dev) : (firingUpd key g d).links = d.links := rfl
@[simp] theorem firingUpd_arys (key : Nat) (g : Firing → Firing) (d : Dev) : (firingUpd key g d).arys = d.arys := rfl
@[simp] theorem firingUpd_boots (key : Nat) (g : Firing → Firing) (d : Dev) : (firingUpd key g d).boots = d.boots := rfl
@[simp] theorem firingUpd_slots (key : Nat) (g : Firing → Firing) (d : Dev) : (firingUpd key g d).slots = d.slots := rfl
@[simp] theorem firingUpd_le (key : Nat) (g : Firing → Firing) (d : Dev) : (firingUpd key g d).le = d.le := rfl
@[simp] theorem firingUpd_arb (key : Nat) (g : Firing → Firing) (d : Dev) : (firingUpd key g d).arb = d.arb := rfl
@[simp] theorem firingUpd_train (key : Nat) (g : Firing → Firing) (d : Dev) : (firingUpd key g d).train = d.train := rfl
@[simp] theorem firingUpd_keys (key : Nat) (g : Firing → Firing) (d : Dev) : (firingUpd key g d).keys = d.keys := rfl
@[simp] theorem firingUpd_boot (key : Nat) (g : Firing → Firing) (d : Dev) : (firingUpd key g d).boot = d.boot := rfl
@[simp] theorem firingUpd_periph (key : Nat) (g : Firing → Firing) (d : Dev) : (firingUpd key g d).periph = d.periph := rfl

@[simp] theorem hostPorts_part  (d : Dev) : (hostPorts  d).part = d.part := rfl
@[simp] theorem hostPorts_regs  (d : Dev) : (hostPorts  d).regs = d.regs := rfl
@[simp] theorem hostPorts_mem  (d : Dev) : (hostPorts  d).mem = d.mem := rfl
@[simp] theorem hostPorts_poison  (d : Dev) : (hostPorts  d).poison = d.poison := rfl
@[simp] theorem hostPorts_errs  (d : Dev) : (hostPorts  d).errs = d.errs := rfl
@[simp] theorem hostPorts_out  (d : Dev) : (hostPorts  d).out = d.out := rfl
@[simp] theorem hostPorts_free  (d : Dev) : (hostPorts  d).free = d.free := rfl
@[simp] theorem hostPorts_intg  (d : Dev) : (hostPorts  d).intg = d.intg := rfl
@[simp] theorem hostPorts_score  (d : Dev) : (hostPorts  d).score = d.score := rfl
@[simp] theorem hostPorts_rings  (d : Dev) : (hostPorts  d).rings = d.rings := rfl
@[simp] theorem hostPorts_ic  (d : Dev) : (hostPorts  d).ic = d.ic := rfl
@[simp] theorem hostPorts_pmu  (d : Dev) : (hostPorts  d).pmu = d.pmu := rfl
@[simp] theorem hostPorts_img  (d : Dev) : (hostPorts  d).img = d.img := rfl
@[simp] theorem hostPorts_pinForce  (d : Dev) : (hostPorts  d).pinForce = d.pinForce := rfl
@[simp] theorem hostPorts_engs  (d : Dev) : (hostPorts  d).engs = d.engs := rfl
@[simp] theorem hostPorts_pipes  (d : Dev) : (hostPorts  d).pipes = d.pipes := rfl
@[simp] theorem hostPorts_tm  (d : Dev) : (hostPorts  d).tm = d.tm := rfl
@[simp] theorem hostPorts_links  (d : Dev) : (hostPorts  d).links = d.links := rfl
@[simp] theorem hostPorts_arys  (d : Dev) : (hostPorts  d).arys = d.arys := rfl
@[simp] theorem hostPorts_boots  (d : Dev) : (hostPorts  d).boots = d.boots := rfl
@[simp] theorem hostPorts_slots  (d : Dev) : (hostPorts  d).slots = d.slots := rfl
@[simp] theorem hostPorts_le  (d : Dev) : (hostPorts  d).le = d.le := rfl
@[simp] theorem hostPorts_arb  (d : Dev) : (hostPorts  d).arb = d.arb := rfl
@[simp] theorem hostPorts_train  (d : Dev) : (hostPorts  d).train = d.train := rfl
@[simp] theorem hostPorts_keys  (d : Dev) : (hostPorts  d).keys = d.keys := rfl
@[simp] theorem hostPorts_boot  (d : Dev) : (hostPorts  d).boot = d.boot := rfl
@[simp] theorem hostPorts_periph  (d : Dev) : (hostPorts  d).periph = d.periph := rfl

@[simp] theorem post_part (master a : Nat) (bs : List Byte) (p : Bool) (d : Dev) : (post master a bs p d).part = d.part := rfl
@[simp] theorem post_regs (master a : Nat) (bs : List Byte) (p : Bool) (d : Dev) : (post master a bs p d).regs = d.regs := rfl
@[simp] theorem post_mem (master a : Nat) (bs : List Byte) (p : Bool) (d : Dev) : (post master a bs p d).mem = d.mem := rfl
@[simp] theorem post_poison (master a : Nat) (bs : List Byte) (p : Bool) (d : Dev) : (post master a bs p d).poison = d.poison := rfl
@[simp] theorem post_errs (master a : Nat) (bs : List Byte) (p : Bool) (d : Dev) : (post master a bs p d).errs = d.errs := rfl
@[simp] theorem post_out (master a : Nat) (bs : List Byte) (p : Bool) (d : Dev) : (post master a bs p d).out = d.out := rfl
@[simp] theorem post_free (master a : Nat) (bs : List Byte) (p : Bool) (d : Dev) : (post master a bs p d).free = d.free := rfl
@[simp] theorem post_intg (master a : Nat) (bs : List Byte) (p : Bool) (d : Dev) : (post master a bs p d).intg = d.intg := rfl
@[simp] theorem post_score (master a : Nat) (bs : List Byte) (p : Bool) (d : Dev) : (post master a bs p d).score = d.score := rfl
@[simp] theorem post_rings (master a : Nat) (bs : List Byte) (p : Bool) (d : Dev) : (post master a bs p d).rings = d.rings := rfl
@[simp] theorem post_ic (master a : Nat) (bs : List Byte) (p : Bool) (d : Dev) : (post master a bs p d).ic = d.ic := rfl
@[simp] theorem post_pmu (master a : Nat) (bs : List Byte) (p : Bool) (d : Dev) : (post master a bs p d).pmu = d.pmu := rfl
@[simp] theorem post_img (master a : Nat) (bs : List Byte) (p : Bool) (d : Dev) : (post master a bs p d).img = d.img := rfl
@[simp] theorem post_fifos (master a : Nat) (bs : List Byte) (p : Bool) (d : Dev) : (post master a bs p d).fifos = d.fifos := rfl
@[simp] theorem post_pinForce (master a : Nat) (bs : List Byte) (p : Bool) (d : Dev) : (post master a bs p d).pinForce = d.pinForce := rfl
@[simp] theorem post_engs (master a : Nat) (bs : List Byte) (p : Bool) (d : Dev) : (post master a bs p d).engs = d.engs := rfl
@[simp] theorem post_pipes (master a : Nat) (bs : List Byte) (p : Bool) (d : Dev) : (post master a bs p d).pipes = d.pipes := rfl
@[simp] theorem post_tm (master a : Nat) (bs : List Byte) (p : Bool) (d : Dev) : (post master a bs p d).tm = d.tm := rfl
@[simp] theorem post_links (master a : Nat) (bs : List Byte) (p : Bool) (d : Dev) : (post master a bs p d).links = d.links := rfl
@[simp] theorem post_arys (master a : Nat) (bs : List Byte) (p : Bool) (d : Dev) : (post master a bs p d).arys = d.arys := rfl
@[simp] theorem post_boots (master a : Nat) (bs : List Byte) (p : Bool) (d : Dev) : (post master a bs p d).boots = d.boots := rfl
@[simp] theorem post_slots (master a : Nat) (bs : List Byte) (p : Bool) (d : Dev) : (post master a bs p d).slots = d.slots := rfl
@[simp] theorem post_le (master a : Nat) (bs : List Byte) (p : Bool) (d : Dev) : (post master a bs p d).le = d.le := rfl
@[simp] theorem post_arb (master a : Nat) (bs : List Byte) (p : Bool) (d : Dev) : (post master a bs p d).arb = d.arb := rfl
@[simp] theorem post_train (master a : Nat) (bs : List Byte) (p : Bool) (d : Dev) : (post master a bs p d).train = d.train := rfl
@[simp] theorem post_keys (master a : Nat) (bs : List Byte) (p : Bool) (d : Dev) : (post master a bs p d).keys = d.keys := rfl
@[simp] theorem post_periph (master a : Nat) (bs : List Byte) (p : Bool) (d : Dev) : (post master a bs p d).periph = d.periph := rfl

end Sys2Proof.Machine
end

