-- ==== Sys2Proof/Laws/Rows.lean ====
section
/-! SUPPORT. What a row of the command table does once its operands fit, and the frame of the shared operations: which registers each
writes, and that none of them stores to memory. -/

namespace Sys2Proof.Machine

/-! ### From a row's meaning to its completion -/

theorem completes_lift {c : Instr} {s : State} {ok : Bool} {f : Dev → Dev} {P : Dev → Prop} (h : exec c s = lift ok f s) (hok : ok = true)
    (hP : P (f s.dev)) : Completes c s P := by
  subst hok
  exact ⟨{ s with dev := f s.dev }, h, rfl, hP⟩

theorem completes_sys {c : Instr} {s : State} {ok : Bool} {f : Dev → Dev} {P : Dev → Prop} (h : exec c s = liftSys ok f s) (hok : ok = true)
    (hc : sysClocked s.dev = true) (hP : P (f s.dev)) : Completes c s P :=
  completes_lift (f := fun d => if sysClocked d then f d else d) h hok (by rw [hc]; exact hP)

/-! ### Frames -/

section
variable {w : Nat → Prop} {d e : Dev}

theorem Touches.refl (d : Dev) : Touches w d d := ⟨fun _ _ _ => rfl, rfl, rfl, rfl⟩

theorem Touches.trans {g : Dev} (h : Touches w d e) (k : Touches w e g) : Touches w d g :=
  ⟨fun r hw hr => (k.1 r hw hr).trans (h.1 r hw hr), k.2.1.trans h.2.1, k.2.2.1.trans h.2.2.1, k.2.2.2.trans h.2.2.2⟩

theorem Touches.mono {v : Nat → Prop} (h : Touches w d e) (hv : ∀ a, w a → v a) : Touches v d e :=
  ⟨fun r hw hr => h.1 r (fun hx => hw (hv _ hx)) hr, h.2⟩

theorem Touches.wr (h : Touches w d e) (r : Reg) (v : BitVec 64) (hr : w r.addr ∨ raised r.addr) : Touches w d (wr r v e) := by
  refine ⟨fun q hw hq => ?_, h.2⟩
  rw [rd_wr_ne v e, h.1 q hw hq]
  intro he
  rcases hr with hr | hr
  · exact hw (he ▸ hr)
  · exact hq (he ▸ hr)

theorem Touches.sf (h : Touches w d e) (r : Reg) (f : Fld) (x : Nat) (hr : w r.addr ∨ raised r.addr) : Touches w d (sf r f x e) :=
  h.wr r _ hr

/-- A change of anything but the registers and the stores. -/
theorem Touches.mk {part : Part} {out : List Out} {free : Nat} {intg : Intg} {score : Score} {rings : Rings} {ic : Ic} {pmu : Pmu}
    {img : Img} {fifos : FMap Fifo} {pinForce : Bool} {engs : Engs} {pipes : FMap Pipe} {tm : Tm} {links : Links} {arys : Arys}
    {boots : Nat} {slots : Slots} {le : Le} {arb : Arb} {train : Option TrainRun} {keys : Keys} {boot : Boot} {periph : Periph}
    (h : Touches w d e) : Touches w d (Dev.mk part e.regs e.mem e.poison e.errs out free intg score rings ic pmu img fifos pinForce engs
      pipes tm links arys boots slots le arb train keys boot periph) := h

theorem Touches.ite {c : Prop} [Decidable c] {e f : Dev} (h : Touches w d e) (k : Touches w d f) : Touches w d (if c then e else f) := by
  split
  · exact h
  · exact k

theorem Touches.forEach {α : Type} (f : α → Dev → Dev) (hf : ∀ x e, Touches w d e → Touches w d (f x e)) :
    ∀ (l : List α) (e : Dev), Touches w d e → Touches w d (l.foldl (fun e x => f x e) e)
  | [], _, h => h
  | x :: l, e, h => Touches.forEach f hf l _ (hf x e h)

theorem Touches.forN (n : Nat) (f : Nat → Dev → Dev) (h : Touches w d e) (hf : ∀ x e, Touches w d e → Touches w d (f x e)) :
    Touches w d (forN n f e) := Touches.forEach f hf _ _ h

theorem Touches.emit (h : Touches w d e) (o : Out) : Touches w d (emit o e) := h

theorem Touches.icPresent (h : Touches w d e) : Touches w d (icPresent e) := by
  unfold Machine.icPresent
  split <;> exact h

theorem raised_pend (n : Nat) (hn : n < 512) : raised (Reg.IC_PEND (n / 32)).addr := by
  unfold raised Reg.IC_PEND
  dsimp only
  omega

theorem Touches.raisePend (h : Touches w d e) (n : Nat) : Touches w d (raisePend n e) := by
  unfold Machine.raisePend
  split
  · exact h
  · rename_i hn
    have hb : Touches w d (Machine.icPresent (bankSet Reg.IC_PEND n true e)) :=
      (h.sf _ _ _ (.inr (raised_pend n (by omega)))).icPresent
    dsimp only
    split
    · exact hb.emit _
    · exact hb

theorem Touches.pmuCancel (h : Touches w d e) (last agent : Nat) : Touches w d (pmuCancel last agent e) := by
  have hp : raised Reg.PMU_STAT.addr := by unfold raised; decide
  have hc : raised Reg.CPU_STAT.addr := by unfold raised; decide
  have h1 : Touches w d (Machine.forN 16 (fun k d => if d.pmu.drained.testBit k && gf d (Reg.ENG_STAT k) F.ENG_STAT_STATE == 4 && gb d (Reg.ENG_CTL k) F.ENG_CTL_EN then
      Machine.sf (Reg.ENG_STAT k) F.ENG_STAT_STATE (if d.img.running then 2 else 1) d else d) e) := by
    unfold Machine.forN Machine.forEach
    have : ∀ (l : List Nat) (e : Dev), (∀ k ∈ l, k < 16) → Touches w d e → Touches w d (l.foldl (fun d k =>
        if d.pmu.drained.testBit k && gf d (Reg.ENG_STAT k) F.ENG_STAT_STATE == 4 && gb d (Reg.ENG_CTL k) F.ENG_CTL_EN then
          Machine.sf (Reg.ENG_STAT k) F.ENG_STAT_STATE (if d.img.running then 2 else 1) d else d) e) := by
      intro l
      induction l with
      | nil => exact fun e _ h => h
      | cons k l ih =>
        intro e hl h
        refine ih _ (fun x hx => hl x (List.mem_cons_of_mem _ hx)) (Touches.ite (h.sf _ _ _ (.inr ?_)) h)
        have := hl k List.mem_cons_self
        unfold raised Reg.ENG_STAT
        dsimp only
        omega
    exact this _ _ (fun k hk => List.mem_range.mp hk) h
  unfold Machine.pmuCancel
  dsimp only
  refine Touches.sf (Touches.sf (Touches.sf (Touches.sf (Touches.mk ?_) _ _ _ (.inr hp)) _ _ _ (.inr hp)) _ _ _ (.inr hp)) _ _ _ (.inr hp)
  split
  · exact h1
  · exact (h1.sf _ _ _ (.inr hc)).sf _ _ _ (.inr hc)

theorem Touches.pmuWakeBit (h : Touches w d e) (src : Nat) : Touches w d (pmuWakeBit src e) := by
  have hp : raised Reg.PMU_WAKE_PEND.addr := by unfold raised; decide
  have hc : raised Reg.PMU_WAKE_CAUSE.addr := by unfold raised; decide
  unfold Machine.pmuWakeBit
  dsimp only
  split
  · split
    · exact (((Touches.pmuCancel (h.sf _ _ _ (.inr hp)) 2 0).sf _ _ _ (.inr hc)).sf _ _ _ (.inr hc)).raisePend 34
    · exact h.sf _ _ _ (.inr hp)
  · exact h

/-- Raising an interrupt stores nothing, and writes the interrupt registers alone. -/
theorem Touches.raise (h : Touches w d e) (n : Nat) : Touches w d (raise n e) := by
  unfold Machine.raise
  dsimp only
  split
  · exact (h.raisePend n).pmuWakeBit 14
  · exact h.raisePend n

theorem Touches.whenB (h : Touches w d e) (c : Bool) (f : Dev → Dev) (hf : Touches w d (f e)) : Touches w d (whenB c f e) := by
  unfold Machine.whenB
  split
  · exact hf
  · exact h

theorem Touches.cntAdd (h : Touches w d e) (r : Reg) (fc fo : Fld) (n src : Nat) (hr : w r.addr ∨ raised r.addr) :
    Touches w d (cntAdd r fc fo n src e) := by
  unfold Machine.cntAdd
  dsimp only
  split
  · exact ((h.sf _ _ _ hr).sf _ _ _ hr).raise src
  · exact h.sf _ _ _ hr

theorem Touches.logOnce (h : Touches w d e) (r : Reg) (fv fo : Fld) (fill : Dev → Dev) (hr : w r.addr ∨ raised r.addr)
    (hf : ∀ e, Touches w d e → Touches w d (fill e)) : Touches w d (logOnce r fv fo fill e) := by
  unfold Machine.logOnce
  split
  · exact h.sf _ _ _ hr
  · exact hf _ (h.sf _ _ _ hr)

end

/-! ### What leaves the device, and bus errors -/

theorem out_icPresent (d : Dev) : (icPresent d).out = d.out := by
  unfold icPresent
  split <;> rfl

theorem out_raisePend (n : Nat) (d : Dev) (hn : n < 16 ∨ 32 ≤ n) : (raisePend n d).out = d.out := by
  unfold raisePend
  split
  · rfl
  · dsimp only
    rw [if_neg (by simp only [Bool.and_eq_true, decide_eq_true_eq]; omega)]
    exact out_icPresent _

/-- What every step of a loop leaves alone, the loop leaves alone. -/
theorem proj_forN {α : Type} (p : Dev → α) {f : Nat → Dev → Dev} (hf : ∀ x d, p (f x d) = p d) (n : Nat) (d : Dev) :
    p (forN n f d) = p d := by
  unfold forN forEach
  have : ∀ (l : List Nat) (d : Dev), p (l.foldl (fun d x => f x d) d) = p d := by
    intro l
    induction l with
    | nil => exact fun _ => rfl
    | cons x l ih => exact fun d => (ih _).trans (hf x d)
  exact this _ _

theorem out_forN {f : Nat → Dev → Dev} (hf : ∀ x d, (f x d).out = d.out) (n : Nat) (d : Dev) : (forN n f d).out = d.out :=
  proj_forN Dev.out hf n d

theorem boot_pmuCancel (last agent : Nat) (d : Dev) : (pmuCancel last agent d).boot = d.boot := by
  have h1 := proj_forN Dev.boot (f := fun k d => if d.pmu.drained.testBit k && gf d (Reg.ENG_STAT k) F.ENG_STAT_STATE == 4 &&
      gb d (Reg.ENG_CTL k) F.ENG_CTL_EN then sf (Reg.ENG_STAT k) F.ENG_STAT_STATE (if d.img.running then 2 else 1) d else d)
    (by intro x d; split <;> rfl) 16 d
  unfold pmuCancel
  dsimp only [sf_boot]
  split
  · exact h1
  · exact h1

theorem boot_raisePend (n : Nat) (d : Dev) : (raisePend n d).boot = d.boot := by
  have h : ∀ e : Dev, (icPresent e).boot = e.boot := by
    intro e
    unfold icPresent
    split <;> rfl
  unfold raisePend
  split
  · rfl
  · dsimp only
    split
    · exact h _
    · exact h _

/-- Raising an interrupt leaves the boot state alone, posted writes included. -/
theorem boot_raise (n : Nat) (d : Dev) : (raise n d).boot = d.boot := by
  unfold raise
  dsimp only
  split
  · unfold pmuWakeBit
    split
    · dsimp only
      split
      · rw [boot_raisePend]
        unfold pmuCause
        dsimp only [sf_boot]
        rw [boot_pmuCancel]
        exact boot_raisePend n d
      · exact boot_raisePend n d
    · exact boot_raisePend n d
  · exact boot_raisePend n d

theorem out_pmuCancel (last agent : Nat) (d : Dev) : (pmuCancel last agent d).out = d.out := by
  have h1 := out_forN (f := fun k d => if d.pmu.drained.testBit k && gf d (Reg.ENG_STAT k) F.ENG_STAT_STATE == 4 && gb d (Reg.ENG_CTL k) F.ENG_CTL_EN then
      sf (Reg.ENG_STAT k) F.ENG_STAT_STATE (if d.img.running then 2 else 1) d else d) (by intro x d; split <;> rfl) 16 d
  unfold pmuCancel
  dsimp only [sf_out]
  split
  · exact h1
  · exact h1

/-- Raising a source other than a completion ring's sends nothing out. -/
theorem out_raise (n : Nat) (d : Dev) (hn : n < 16 ∨ 32 ≤ n) : (raise n d).out = d.out := by
  unfold raise
  dsimp only
  split
  · unfold pmuWakeBit
    split
    · dsimp only
      split
      · rw [out_raisePend _ _ (by omega)]
        unfold pmuCause
        dsimp only [sf_out]
        rw [out_pmuCancel]
        exact out_raisePend n d hn
      · exact out_raisePend n d hn
    · exact out_raisePend n d hn
  · exact out_raisePend n d hn

theorem out_cntAdd (r : Reg) (fc fo : Fld) (n src : Nat) (d : Dev) (hs : src < 16 ∨ 32 ≤ src) : (cntAdd r fc fo n src d).out = d.out := by
  unfold cntAdd
  dsimp only
  split
  · rw [out_raise _ _ hs]
    rfl
  · rfl

/-- A counter that reaches its all-ones value sets its overflow bit, and raises its source the first time. -/
theorem cntAdd_full (r : Reg) (fc fo : Fld) (n src : Nat) (d : Dev) (ho : fo.lo + fo.len ≤ 64) (hl : 0 < fo.len) (hc : fc.lo + fc.len ≤ 64)
    (hd : fc.lo + fc.len ≤ fo.lo ∨ fo.lo + fo.len ≤ fc.lo) (hr : ¬ raised r.addr) (hs : src < 512)
    (h : 2 ^ fc.len - 1 ≤ gf d r fc + n) :
    gb (cntAdd r fc fo n src d) r fo = true ∧ (gb d r fo = false → icPending (cntAdd r fc fo n src d) src = true) := by
  unfold cntAdd
  dsimp only
  rw [Nat.min_eq_right h]
  have hg : gf (sf r fc (2 ^ fc.len - 1) d) r fo = gf d r fo := gf_sf_disj _ _ _ _ _ hc hd
  have hp : 2 ≤ 2 ^ fo.len := by
    calc 2 = 2 ^ 1 := rfl
      _ ≤ 2 ^ fo.len := Nat.pow_le_pow_right (by omega) hl
  by_cases hz : gf d r fo = 0
  · rw [if_pos ⟨rfl, by rw [hg]; exact hz⟩]
    refine ⟨?_, fun _ => icPending_raise _ _ hs⟩
    unfold gb
    rw [gf_raise _ _ _ _ hr, gf_sf_same _ _ _ _ ho, Nat.mod_eq_of_lt (by omega)]
    rfl
  · rw [if_neg (by rw [hg]; tauto)]
    refine ⟨by unfold gb; rw [hg]; simpa using hz, fun hb => absurd hb (by unfold gb; simpa using hz)⟩

theorem icPending_wr_ne (r : Reg) (v : BitVec 64) (d : Dev) (n : Nat) (h : r.addr < 0x10030100) : icPending (wr r v d) n = icPending d n := by
  unfold icPending
  rw [rd_wr_ne v d (by simp only [Reg.IC_PEND]; omega)]

theorem icPending_sf_ne (r : Reg) (f : Fld) (x : Nat) (d : Dev) (n : Nat) (h : r.addr < 0x10030100) :
    icPending (sf r f x d) n = icPending d n := icPending_wr_ne r _ d n h

theorem gf_emit (o : Out) (d : Dev) (r : Reg) (f : Fld) : gf (emit o d) r f = gf d r f := rfl

theorem rd_emit (o : Out) (d : Dev) (r : Reg) : rd (emit o d) r = rd d r := rfl

theorem icPending_emit (o : Out) (d : Dev) (n : Nat) : icPending (emit o d) n = icPending d n := rfl

/-- What the first bus error writes into its log. -/
def berrFill (cause master : Nat) (write : Bool) (fa : Nat) (d : Dev) : Dev :=
  sf Reg.SYS_BERR_ADDR F.SYS_BERR_ADDR_ADDR fa (sf Reg.SYS_BERR_STAT F.SYS_BERR_STAT_WRITE (bit write)
    (sf Reg.SYS_BERR_STAT F.SYS_BERR_STAT_MASTER master (sf Reg.SYS_BERR_STAT F.SYS_BERR_STAT_CAUSE cause
      (sf Reg.SYS_BERR_STAT F.SYS_BERR_STAT_VALID 1 d))))

theorem berrFill_cause (cause master : Nat) (write : Bool) (fa : Nat) (d : Dev) (h : cause < 16) :
    gf (berrFill cause master write fa d) Reg.SYS_BERR_STAT F.SYS_BERR_STAT_CAUSE = cause := by
  unfold berrFill
  rw [gf_sf_ne _ _ _ _ (by decide), gf_sf_disj _ _ _ _ _ (by decide) (by decide), gf_sf_disj _ _ _ _ _ (by decide) (by decide),
    gf_sf_same _ _ _ _ (by decide)]
  exact Nat.mod_eq_of_lt h

theorem berrFill_master (cause master : Nat) (write : Bool) (fa : Nat) (d : Dev) (h : master < 256) :
    gf (berrFill cause master write fa d) Reg.SYS_BERR_STAT F.SYS_BERR_STAT_MASTER = master := by
  unfold berrFill
  rw [gf_sf_ne _ _ _ _ (by decide), gf_sf_disj _ _ _ _ _ (by decide) (by decide), gf_sf_same _ _ _ _ (by decide)]
  exact Nat.mod_eq_of_lt h

theorem berrFill_write (cause master : Nat) (write : Bool) (fa : Nat) (d : Dev) :
    gf (berrFill cause master write fa d) Reg.SYS_BERR_STAT F.SYS_BERR_STAT_WRITE = bit write := by
  unfold berrFill
  rw [gf_sf_ne _ _ _ _ (by decide), gf_sf_same _ _ _ _ (by decide)]
  cases write <;> rfl

theorem berrFill_valid (cause master : Nat) (write : Bool) (fa : Nat) (d : Dev) :
    gf (berrFill cause master write fa d) Reg.SYS_BERR_STAT F.SYS_BERR_STAT_VALID = 1 := by
  unfold berrFill
  rw [gf_sf_ne _ _ _ _ (by decide), gf_sf_disj _ _ _ _ _ (by decide) (by decide), gf_sf_disj _ _ _ _ _ (by decide) (by decide),
    gf_sf_disj _ _ _ _ _ (by decide) (by decide), gf_sf_same _ _ _ _ (by decide)]
  rfl

theorem berrFill_addr (cause master : Nat) (write : Bool) (fa : Nat) (d : Dev) (h : fa < 2 ^ 53) :
    gf (berrFill cause master write fa d) Reg.SYS_BERR_ADDR F.SYS_BERR_ADDR_ADDR = fa := by
  unfold berrFill
  rw [gf_sf_same _ _ _ _ (by decide)]
  exact Nat.mod_eq_of_lt h

theorem berrFill_cnt (cause master : Nat) (write : Bool) (fa : Nat) (d : Dev) (f : Fld) :
    gf (berrFill cause master write fa d) Reg.SYS_BERR_CNT f = gf d Reg.SYS_BERR_CNT f := by
  unfold berrFill
  rw [gf_sf_ne _ _ _ _ (by decide), gf_sf_ne _ _ _ _ (by decide), gf_sf_ne _ _ _ _ (by decide), gf_sf_ne _ _ _ _ (by decide),
    gf_sf_ne _ _ _ _ (by decide)]

theorem berrFill_pend (cause master : Nat) (write : Bool) (fa : Nat) (d : Dev) (n : Nat) :
    icPending (berrFill cause master write fa d) n = icPending d n := by
  unfold berrFill
  rw [icPending_sf_ne _ _ _ _ _ (by decide), icPending_sf_ne _ _ _ _ _ (by decide), icPending_sf_ne _ _ _ _ _ (by decide),
    icPending_sf_ne _ _ _ _ _ (by decide), icPending_sf_ne _ _ _ _ _ (by decide)]

theorem Touches.berrFill {w : Nat → Prop} {d e : Dev} (h : Touches w d e) (cause master : Nat) (write : Bool) (fa : Nat)
    (h1 : w Reg.SYS_BERR_STAT.addr) (h2 : w Reg.SYS_BERR_ADDR.addr) : Touches w d (berrFill cause master write fa e) :=
  ((((h.sf _ _ _ (.inl h1)).sf _ _ _ (.inl h1)).sf _ _ _ (.inl h1)).sf _ _ _ (.inl h1)).sf _ _ _ (.inl h2)

theorem busFail_eq (cause master : Nat) (write : Bool) (fa n : Nat) (d : Dev) :
    busFail cause master write fa n d = emit (.busError master cause (if write then [] else List.replicate n 0xFF))
      (if gb (cntAdd Reg.SYS_BERR_CNT F.SYS_BERR_CNT_COUNT F.SYS_BERR_CNT_OVF 1 80 d) Reg.SYS_BERR_STAT F.SYS_BERR_STAT_VALID then
        sf Reg.SYS_BERR_STAT F.SYS_BERR_STAT_OVER 1 (cntAdd Reg.SYS_BERR_CNT F.SYS_BERR_CNT_COUNT F.SYS_BERR_CNT_OVF 1 80 d)
      else berrFill cause master write fa (cntAdd Reg.SYS_BERR_CNT F.SYS_BERR_CNT_COUNT F.SYS_BERR_CNT_OVF 1 80 d)) := rfl

/-- A bus error leaves what R44, R50 and R51 say. -/
theorem busFail_errored (cause master : Nat) (write : Bool) (fa n : Nat) (d : Dev) (hc : cause < 16) (hm : master < 256)
    (hf : fa < 2 ^ 53) : BusErrored cause master write fa n d (busFail cause master write fa n d) := by
  have nr : ¬ raised Reg.SYS_BERR_CNT.addr := by unfold raised; decide
  have hst : rd (cntAdd Reg.SYS_BERR_CNT F.SYS_BERR_CNT_COUNT F.SYS_BERR_CNT_OVF 1 80 d) Reg.SYS_BERR_STAT = rd d Reg.SYS_BERR_STAT :=
    rd_cntAdd_ne _ _ _ _ _ _ _ (by decide) (by unfold raised; decide)
  have had : rd (cntAdd Reg.SYS_BERR_CNT F.SYS_BERR_CNT_COUNT F.SYS_BERR_CNT_OVF 1 80 d) Reg.SYS_BERR_ADDR = rd d Reg.SYS_BERR_ADDR :=
    rd_cntAdd_ne _ _ _ _ _ _ _ (by decide) (by unfold raised; decide)
  have hcnt := gf_cntAdd Reg.SYS_BERR_CNT F.SYS_BERR_CNT_COUNT F.SYS_BERR_CNT_OVF 1 80 d (by decide) (by decide) (by decide) nr
  have hful := cntAdd_full Reg.SYS_BERR_CNT F.SYS_BERR_CNT_COUNT F.SYS_BERR_CNT_OVF 1 80 d (by decide) (by decide) (by decide) (by decide) nr
    (by decide)
  have hout := out_cntAdd Reg.SYS_BERR_CNT F.SYS_BERR_CNT_COUNT F.SYS_BERR_CNT_OVF 1 80 d (by decide)
  have ht : Touches (fun a => a = Reg.SYS_BERR_STAT.addr ∨ a = Reg.SYS_BERR_ADDR.addr ∨ a = Reg.SYS_BERR_CNT.addr) d
      (cntAdd Reg.SYS_BERR_CNT F.SYS_BERR_CNT_COUNT F.SYS_BERR_CNT_OVF 1 80 d) :=
    (Touches.refl d).cntAdd _ _ _ _ _ (.inl (.inr (.inr rfl)))
  rw [busFail_eq]
  generalize cntAdd Reg.SYS_BERR_CNT F.SYS_BERR_CNT_COUNT F.SYS_BERR_CNT_OVF 1 80 d = e at *
  have hv : gb e Reg.SYS_BERR_STAT F.SYS_BERR_STAT_VALID = gb d Reg.SYS_BERR_STAT F.SYS_BERR_STAT_VALID := by unfold gb gf; rw [hst]
  have hge : 0x7FFFFFFE ≤ gf d Reg.SYS_BERR_CNT F.SYS_BERR_CNT_COUNT →
      2 ^ F.SYS_BERR_CNT_COUNT.len - 1 ≤ gf d Reg.SYS_BERR_CNT F.SYS_BERR_CNT_COUNT + 1 := by
    intro h
    simp only [F.SYS_BERR_CNT_COUNT] at h ⊢
    omega
  by_cases h : gb d Reg.SYS_BERR_STAT F.SYS_BERR_STAT_VALID = true
  · rw [hv, if_pos h]
    refine ⟨?_, ?_, ?_, ?_, fun hn => absurd h (by simp [hn]), fun _ => ⟨?_, ?_, ?_, ?_⟩, (ht.sf _ _ _ (.inl (.inl rfl))).emit _⟩
    · simp only [emit, sf_out, hout]
    · rw [gf_emit, gf_sf_ne _ _ _ _ (by decide)]
      exact hcnt
    · intro hx
      have := hful (hge hx)
      unfold gb
      rw [gf_emit, gf_sf_ne _ _ _ _ (by decide), icPending_emit, icPending_sf_ne _ _ _ _ _ (by decide)]
      exact this
    · unfold gb
      rw [gf_emit, gf_sf_disj _ _ _ _ _ (by decide) (by decide)]
      exact hv.trans h
    · unfold gb
      rw [gf_emit, gf_sf_same _ _ _ _ (by decide)]
      rfl
    · rw [gf_emit, gf_sf_disj _ _ _ _ _ (by decide) (by decide)]
      unfold gf
      rw [hst]
    · rw [gf_emit, gf_sf_disj _ _ _ _ _ (by decide) (by decide)]
      unfold gf
      rw [hst]
    · rw [rd_emit, rd_sf_ne _ _ _ (by decide), had]
  · rw [hv, if_neg h]
    refine ⟨?_, ?_, ?_, ?_, fun _ => ⟨?_, ?_, ?_, ?_⟩, fun hy => absurd hy h,
      (ht.berrFill _ _ _ _ (.inl rfl) (.inr (.inl rfl))).emit _⟩
    · simp only [emit, berrFill, sf_out, hout]
    · rw [gf_emit, berrFill_cnt]
      exact hcnt
    · intro hx
      have := hful (hge hx)
      unfold gb
      rw [gf_emit, berrFill_cnt, icPending_emit, berrFill_pend]
      exact this
    · unfold gb
      rw [gf_emit, berrFill_valid]
      rfl
    · rw [gf_emit, berrFill_cause _ _ _ _ _ hc]
    · rw [gf_emit, berrFill_master _ _ _ _ _ hm]
    · rw [gf_emit, berrFill_write]
    · rw [gf_emit, berrFill_addr _ _ _ _ _ hf]

end Sys2Proof.Machine
end

