-- ==== Sys2Proof/Laws/Effects.lean ====
section
/-! SUPPORT. What the shared effects of many rows leave alone: scoresheet records, 64-bit counters, block causes and flits write only
their own registers, and no memory. -/

namespace Sys2Proof.Machine

section
variable {w : Nat → Prop} {d e : Dev}

theorem Touches.scoreProgram (h : Touches w d e) (final : Bool) : Touches w d (scoreProgram final e) := by
  unfold Machine.scoreProgram
  dsimp only
  split
  · exact h
  · exact Touches.mk h

theorem Touches.scoreFill (hw : ∀ a, scored a → w a) (fuel : Nat) : ∀ {e : Dev}, Touches w d e → Touches w d (scoreFill fuel e) := by
  induction fuel with
  | zero => exact fun h => h
  | succ k ih =>
    intro e h
    unfold Machine.scoreFill
    split
    · exact h
    · split
      · exact h
      · split
        · exact h
        · dsimp only
          have hs : Touches w d (Machine.sf Reg.ARB_SCORE_SEQ F.ARB_SCORE_SEQ_NEXT (gf e Reg.ARB_SCORE_SEQ F.ARB_SCORE_SEQ_NEXT + 1) e) :=
            h.sf _ _ _ (.inl (hw _ (.inl rfl)))
          refine ih (Touches.ite (Touches.scoreProgram ?_ _) ?_)
          · exact hs
          · exact hs

theorem Touches.scoreQueue (h : Touches w d e) (r : ScoreRec) (hw : ∀ a, scored a → w a) : Touches w d (scoreQueue r e) := by
  unfold Machine.scoreQueue
  split
  · exact h
  · split
    · exact (Touches.mk h).cntAdd _ _ _ _ _ (.inl (hw _ (.inr rfl)))
    · exact Touches.scoreFill hw 2 (Touches.mk h)

/-- A record queued at the scoresheet writes only its own two registers. -/
theorem Touches.scoreEvent (h : Touches w d e) (ev kind index : Nat) (args : List Nat) (hw : ∀ a, scored a → w a) :
    Touches w d (scoreEvent ev kind index args e) := h.scoreQueue _ hw

theorem Touches.cntAdd64 (h : Touches w d e) (r : Reg) (n : Nat) (hr : w r.addr ∨ raised r.addr) : Touches w d (cntAdd64 r n e) :=
  h.wr _ _ hr

theorem Touches.flitCount (h : Touches w d e) (r : Reg) (n : Nat) (hr : w r.addr ∨ raised r.addr) : Touches w d (flitCount r n e) :=
  (h.cntAdd64 r 1 hr).whenB _ _ ((h.cntAdd64 r 1 hr).raise _)

theorem Touches.portUpd (h : Touches w d e) (n : Nat) (f : LinkPort → LinkPort) : Touches w d (portUpd n f e) := Touches.mk h

theorem Touches.flitOut (h : Touches w d e) (n : Nat) (f : Flit) (hr : w (Reg.TL_TX_FLITS n).addr) : Touches w d (flitOut n f e) :=
  (h.emit _).flitCount _ _ (.inl hr)

theorem Touches.flitSeq (h : Touches w d e) (n type : Nat) (ss : List Slot) (hr : w (Reg.TL_TX_FLITS n).addr) :
    Touches w d (flitSeq n type ss e) := Touches.flitOut (Touches.mk h) n _ hr

theorem Touches.blkCause (h : Touches w d e) (stat en : Reg) (i src : Nat) (hr : w stat.addr ∨ raised stat.addr) :
    Touches w d (blkCause stat en i src e) :=
  (h.sf _ _ _ hr).whenB _ _ ((h.sf _ _ _ hr).raise _)

end

/-- A register outside a frame reads as before. -/
theorem Touches.rd_eq {w : Nat → Prop} {d e : Dev} (h : Touches w d e) (r : Reg) (h1 : ¬ w r.addr) (h2 : ¬ raised r.addr) : rd e r = rd d r :=
  h.1 r h1 h2

theorem Touches.gf_eq {w : Nat → Prop} {d e : Dev} (h : Touches w d e) (r : Reg) (f : Fld) (h1 : ¬ w r.addr) (h2 : ¬ raised r.addr) :
    gf e r f = gf d r f := by
  unfold gf
  rw [h.1 r h1 h2]

/-! ### Reads and writes of granules that carry no mark and no error -/

theorem rawBytes_append (d : Dev) (a m n : Nat) : rawBytes d a (m + n) = rawBytes d a m ++ rawBytes d (a + m) n := by
  unfold rawBytes
  rw [List.range_add, List.map_append, List.map_map]
  congr 1
  refine List.map_congr_left fun i _ => ?_
  simp [Nat.add_assoc]

theorem rawBytes_length (d : Dev) (a n : Nat) : (rawBytes d a n).length = n := by simp [rawBytes]

/-- A granule with no mark and no error reads as its bytes, and nothing changes. -/
theorem readGran_clean (g : Nat) (d : Dev) (h : poisoned d g = false) (he : errOf d g = []) :
    readGran false g d = ((rawBytes d (32 * g) 32, false), d) := by
  unfold readGran
  simp only [h, he, granDecode, if_true, Bool.false_eq_true, if_false]

/-- A read of clean granules gives their bytes, and nothing changes. -/
theorem readMem_clean (a n : Nat) (d : Dev) (h : Clean d a n) : readMem a n d = ((rawBytes d a n, false), d) := by
  unfold readMem
  by_cases hn : n = 0
  · subst hn
    simp [granRange, rawBytes]
  have key : ∀ (k g : Nat) (bs : List Byte), (∀ i < k, poisoned d (g + i) = false ∧ errOf d (g + i) = []) →
      ((List.range k).map (fun i => g + i)).foldl (fun (acc : (List Byte × Bool) × Dev) g =>
        ((acc.1.1 ++ (readGran false g acc.2).1.1, acc.1.2 || (readGran false g acc.2).1.2), (readGran false g acc.2).2)) ((bs, false), d)
      = ((bs ++ rawBytes d (32 * g) (32 * k), false), d) := by
    intro k
    induction k with
    | zero => intro g bs _; simp [rawBytes]
    | succ k ih =>
      intro g bs hk
      rw [List.range_succ, List.map_append, List.foldl_append, ih g bs (fun i hi => hk i (by omega))]
      have := hk k (by omega)
      simp only [List.map_cons, List.map_nil, List.foldl_cons, List.foldl_nil, readGran_clean _ _ this.1 this.2, Bool.or_false]
      rw [show 32 * (k + 1) = 32 * k + 32 by omega, rawBytes_append, List.append_assoc, show 32 * g + 32 * k = 32 * (g + k) by omega]
  unfold Clean granRange at h
  rw [if_neg hn] at h
  unfold granRange
  rw [if_neg hn, key _ _ _ (fun i hi => h _ (List.mem_map_of_mem (by simpa using hi)))]
  simp only [List.nil_append, Prod.mk.injEq, and_true]
  generalize hk : (a + n - 1) / 32 + 1 - a / 32 = k
  have e1 : 32 * k = a % 32 + (n + (32 * k - a % 32 - n)) := by omega
  rw [e1, rawBytes_append, List.drop_left' (rawBytes_length _ _ _), rawBytes_append, List.take_left' (rawBytes_length _ _ _)]
  congr 1
  omega

/-- A write of part of a clean granule, with no flip armed. -/
theorem writeGran_clean (g o : Nat) (bs : List Byte) (p : Bool) (d : Dev) (h : poisoned d g = false) (he : errOf d g = [])
    (ha : gb d Reg.INTG_FLIP F.INTG_FLIP_ARM = false) (hl : o + bs.length ≤ 32) :
    (∀ b, byteAt (writeGran g o bs p d).mem b = if 32 * g + o ≤ b ∧ b < 32 * g + o + bs.length then bs.getD (b - (32 * g + o)) 0
      else byteAt d.mem b) ∧
    (∀ g', poisoned (writeGran g o bs p d) g' = if g' = g then p else poisoned d g') ∧
    (∀ g', errOf (writeGran g o bs p d) g' = if g' = g then [] else errOf d g') ∧
    (writeGran g o bs p d).regs = d.regs := by
  have hmem : ∀ (a : Nat) (bs : List Byte) (m : List Host.Cell) (b : Nat), byteAt (bytesSet m a bs) b =
      if a ≤ b ∧ b < a + bs.length then bs.getD (b - a) 0 else byteAt m b := by
    intro a bs m b
    by_cases hb : a ≤ b ∧ b < a + bs.length
    · rw [if_pos hb]
      have := byteAt_bytesSet_in bs m a (b - a) (by omega)
      rw [show a + (b - a) = b by omega] at this
      rw [this, List.getD_eq_getElem]
    · rw [if_neg hb, byteAt_bytesSet_out]
      omega
  have hfl : ∀ e : Dev, e.regs = d.regs → flipApply g ((storeOf (32 * g)).getD 0x3F) e = e := by
    intro e hr
    unfold flipApply
    have : gb e Reg.INTG_FLIP F.INTG_FLIP_ARM = false := by
      rw [← ha]
      unfold gb gf rd
      rw [hr]
    rw [this]
    rfl
  have hpm : ∀ (e : Dev) (g' : Nat), poisoned (markG g e) g' = if g' = g then true else poisoned e g' := by
    intro e g'
    unfold poisoned markG mhas
    dsimp only
    split
    · rename_i h; subst h; rw [mget_mput_same]; rfl
    · rename_i h; rw [mget_mput_ne _ _ h]
  have hpu : ∀ (e : Dev) (g' : Nat), poisoned (unmarkG g e) g' = if g' = g then false else poisoned e g' := by
    intro e g'
    unfold poisoned unmarkG mhas
    dsimp only
    split
    · rename_i h; subst h; rw [mget_mdel_same]; rfl
    · rename_i h; rw [mget_mdel_ne _ h]
  have hes : ∀ (e : Dev) (g' : Nat), errOf (errSet g [] e) g' = if g' = g then [] else errOf e g' := by
    intro e g'
    unfold errOf errSet
    simp only [if_true]
    split
    · rename_i h; subst h; unfold mgetD; rw [mget_mdel_same]; rfl
    · rename_i h; rw [mgetD_mdel_ne _ _ h]
  unfold writeGran
  dsimp only
  by_cases hw : bs.length = 32
  · have h0 : o = 0 := by omega
    subst h0
    rw [if_pos hw, hfl _ (by cases p <;> rfl)]
    refine ⟨fun b => ?_, fun g' => ?_, fun g' => ?_, by cases p <;> rfl⟩
    · have : ((if p = true then markG g (errSet g [] (rawStore (32 * g) bs d)) else unmarkG g (errSet g [] (rawStore (32 * g) bs d)))).mem
          = bytesSet d.mem (32 * g) bs := by cases p <;> rfl
      rw [this, hmem, Nat.add_zero]
    · cases p
      · simp only [Bool.false_eq_true, if_false]
        exact hpu _ _
      · simp only [if_true]
        exact hpm _ _
    · have : errOf (if p = true then markG g (errSet g [] (rawStore (32 * g) bs d)) else unmarkG g (errSet g [] (rawStore (32 * g) bs d))) g'
          = errOf (errSet g [] (rawStore (32 * g) bs d)) g' := by cases p <;> rfl
      rw [this, hes]
      rfl
  · rw [if_neg hw, readGran_clean g d h he, hfl _ (by cases p <;> rfl)]
    have hsame : ∀ b, byteAt (bytesSet d.mem (32 * g) (rawBytes d (32 * g) 32)) b = byteAt d.mem b := by
      intro b
      rw [hmem]
      split
      · rename_i hb
        rw [rawBytes_length] at hb
        rw [List.getD_eq_getElem _ _ (by rw [rawBytes_length]; omega)]
        simp only [rawBytes, List.getElem_map, List.getElem_range]
        congr 1
        omega
      · rfl
    dsimp only
    simp only [Bool.false_or]
    refine ⟨fun b => ?_, fun g' => ?_, fun g' => ?_, by cases p <;> rfl⟩
    · have : ((if p = true then markG g (errSet g [] (rawStore (32 * g + o) bs (rawStore (32 * g) (rawBytes d (32 * g) 32) d)))
          else errSet g [] (rawStore (32 * g + o) bs (rawStore (32 * g) (rawBytes d (32 * g) 32) d)))).mem
          = bytesSet (bytesSet d.mem (32 * g) (rawBytes d (32 * g) 32)) (32 * g + o) bs := by cases p <;> rfl
      rw [this, hmem, hsame]
    · cases p
      · simp only [Bool.false_eq_true, if_false]
        split
        · rename_i hg; subst hg; exact h
        · rfl
      · simp only [if_true]
        exact hpm _ _
    · have : errOf (if p = true then markG g (errSet g [] (rawStore (32 * g + o) bs (rawStore (32 * g) (rawBytes d (32 * g) 32) d)))
          else errSet g [] (rawStore (32 * g + o) bs (rawStore (32 * g) (rawBytes d (32 * g) 32) d))) g'
          = errOf (errSet g [] (rawStore (32 * g + o) bs (rawStore (32 * g) (rawBytes d (32 * g) 32) d))) g' := by cases p <;> rfl
      rw [this, hes]
      rfl

/-- A write of clean granules, with no flip armed, stores exactly its bytes and leaves every register. -/
theorem writeMem_clean (a : Nat) (bs : List Byte) (p : Bool) (d : Dev) (h : Clean d a bs.length)
    (ha : gb d Reg.INTG_FLIP F.INTG_FLIP_ARM = false) : Stored a bs p d (writeMem a bs p d) ∧ (writeMem a bs p d).regs = d.regs := by
  by_cases hn : bs.length = 0
  · have : bs = [] := List.length_eq_zero_iff.mp hn
    subst this
    refine ⟨⟨fun b => ?_, fun g => ?_, fun g => ?_⟩, rfl⟩
    · rw [if_neg (by simp)]; rfl
    · rw [if_neg (by simp [granRange])]; rfl
    · rw [if_neg (by simp [granRange])]; rfl
  unfold Clean granRange at h
  rw [if_neg hn] at h
  generalize hk : (a + bs.length - 1) / 32 + 1 - a / 32 = k at h
  have key : ∀ j ≤ k, ∀ e, e = ((List.range j).map (fun i => a / 32 + i)).foldl (fun d g =>
      writeGran g (max a (32 * g) - 32 * g) ((bs.drop (max a (32 * g) - a)).take (min (a + bs.length) (32 * g + 32) - max a (32 * g))) p d) d →
      (∀ b, byteAt e.mem b = if a ≤ b ∧ b < a + bs.length ∧ b / 32 < a / 32 + j then bs.getD (b - a) 0 else byteAt d.mem b) ∧
      (∀ g, poisoned e g = if a / 32 ≤ g ∧ g < a / 32 + j then p else poisoned d g) ∧
      (∀ g, errOf e g = if a / 32 ≤ g ∧ g < a / 32 + j then [] else errOf d g) ∧ e.regs = d.regs := by
    intro j
    induction j with
    | zero =>
      intro _ e he
      subst he
      refine ⟨fun b => ?_, fun g => ?_, fun g => ?_, rfl⟩
      · rw [if_neg (by omega)]
      · rw [if_neg (by omega)]
      · rw [if_neg (by omega)]
    | succ j ih =>
      intro hj e he
      obtain ⟨i1, i2, i3, i4⟩ := ih (by omega) _ rfl
      rw [List.range_succ, List.map_append, List.foldl_append] at he
      simp only [List.map_cons, List.map_nil, List.foldl_cons, List.foldl_nil] at he
      generalize ((List.range j).map (fun i => a / 32 + i)).foldl (fun d g =>
        writeGran g (max a (32 * g) - 32 * g) ((bs.drop (max a (32 * g) - a)).take (min (a + bs.length) (32 * g + 32) - max a (32 * g))) p d) d
        = e1 at i1 i2 i3 i4 he
      generalize hg : a / 32 + j = g at he
      have hc := h g (hg ▸ List.mem_map_of_mem (by simpa using hj))
      have hlen : ((bs.drop (max a (32 * g) - a)).take (min (a + bs.length) (32 * g + 32) - max a (32 * g))).length
          = min (a + bs.length) (32 * g + 32) - max a (32 * g) := by
        rw [List.length_take, List.length_drop]; omega
      obtain ⟨w1, w2, w3, w4⟩ := writeGran_clean g (max a (32 * g) - 32 * g)
        ((bs.drop (max a (32 * g) - a)).take (min (a + bs.length) (32 * g + 32) - max a (32 * g))) p e1
        (by rw [i2, if_neg (by omega)]; exact hc.1) (by rw [i3, if_neg (by omega)]; exact hc.2)
        (by rw [← ha]; unfold gb gf rd; rw [i4]) (by rw [hlen]; omega)
      rw [← he] at w1 w2 w3 w4
      refine ⟨fun b => ?_, fun g' => ?_, fun g' => ?_, w4.trans i4⟩
      · rw [w1, hlen, i1]
        by_cases hb : a ≤ b ∧ b < a + bs.length ∧ b / 32 = g
        · rw [if_pos (by omega), if_pos (by omega)]
          have hi : b - (32 * g + (max a (32 * g) - 32 * g)) < ((bs.drop (max a (32 * g) - a)).take (min (a + bs.length) (32 * g + 32) - max a (32 * g))).length := by
            rw [hlen]; omega
          rw [List.getD_eq_getElem _ _ hi, List.getElem_take, List.getElem_drop, List.getD_eq_getElem _ _ (by omega)]
          congr 1
          omega
        · rw [if_neg (by omega)]
          by_cases hb' : a ≤ b ∧ b < a + bs.length ∧ b / 32 < a / 32 + j
          · rw [if_pos hb', if_pos (by omega)]
          · rw [if_neg hb', if_neg (by omega)]
      · rw [w2, i2]
        split
        · rw [if_pos (by omega)]
        · split
          · rw [if_pos (by omega)]
          · rw [if_neg (by omega)]
      · rw [w3, i3]
        split
        · rw [if_pos (by omega)]
        · split
          · rw [if_pos (by omega)]
          · rw [if_neg (by omega)]
  have hmem : ∀ g, g ∈ granRange a bs.length ↔ a / 32 ≤ g ∧ g < a / 32 + k := by
    intro g
    unfold granRange
    rw [if_neg hn, hk]
    simp only [List.mem_map, List.mem_range]
    constructor
    · rintro ⟨i, hi, rfl⟩; omega
    · intro hg; exact ⟨g - a / 32, by omega, by omega⟩
  have hw : writeMem a bs p d = ((List.range k).map (fun i => a / 32 + i)).foldl (fun d g =>
      writeGran g (max a (32 * g) - 32 * g) ((bs.drop (max a (32 * g) - a)).take (min (a + bs.length) (32 * g + 32) - max a (32 * g))) p d) d := by
    unfold writeMem granRange
    rw [if_neg hn, hk]
  obtain ⟨k1, k2, k3, k4⟩ := key k (Nat.le_refl k) _ hw
  refine ⟨⟨fun b => ?_, fun g => ?_, fun g => ?_⟩, k4⟩
  · rw [k1]
    by_cases hb : a ≤ b ∧ b < a + bs.length
    · rw [if_pos (by omega), if_pos hb]
    · rw [if_neg (by omega), if_neg hb]
  · rw [k2]
    simp only [hmem]
  · rw [k3]
    simp only [hmem]

end Sys2Proof.Machine
end

