-- ==== Sys2Proof/Laws/Flits.lean ====
section
/-! SUPPORT. A flit as it is formed passes its CRC, and one whose CRC field differs does not (R627). -/

namespace Sys2Proof.Machine

theorem leBytes_length (n v : Nat) : (leBytes n v).length = n := by
  induction n generalizing v with
  | zero => rfl
  | succ k ih => simp [leBytes, ih]

theorem leNat_leBytes (n v : Nat) : leNat (leBytes n v) = v % 256 ^ n := by
  induction n generalizing v with
  | zero => simp [leBytes, leNat, Nat.mod_one]
  | succ k ih =>
    have h : v % 256 ^ (k + 1) = v % 256 + 256 * (v / 256 % 256 ^ k) := by
      rw [Nat.pow_succ, Nat.mul_comm (256 ^ k) 256, Nat.mod_mul]
    rw [h]
    simp [leBytes, leNat, ih]

theorem crcBits_lt (k : Nat) : ∀ c, c < 2 ^ 64 → crcBits k c < 2 ^ 64 := by
  induction k with
  | zero => exact fun c h => h
  | succ k ih =>
    intro c _
    unfold crcBits
    refine ih _ ?_
    split
    · exact Nat.xor_lt_two_pow (Nat.mod_lt _ (by decide)) (by decide)
    · exact Nat.mod_lt _ (by decide)

theorem crc64_lt (bs : List Byte) : crc64 bs < 2 ^ 64 := by
  unfold crc64
  refine Nat.xor_lt_two_pow ?_ (by decide)
  have key : ∀ (l : List Byte) (c : Nat), c < 2 ^ 64 → l.foldl (fun c b => crcBits 8 (c ^^^ (b.toNat * 2 ^ 56))) c < 2 ^ 64 := by
    intro l
    induction l with
    | nil => exact fun c h => h
    | cons b l ih =>
      intro c h
      refine ih _ (crcBits_lt 8 _ (Nat.xor_lt_two_pow h ?_))
      have := b.isLt
      omega
  exact key bs _ (by decide)

/-- Whether 152 bytes with a CRC field pass. -/
theorem flitCrcOk_append (body : List Byte) (x : Nat) (h : body.length = 152) :
    flitCrcOk (body ++ leBytes 8 x) = (x % 2 ^ 64 == crc64 body) := by
  unfold flitCrcOk fieldAt
  have h1 : (body ++ leBytes 8 x).drop 152 = leBytes 8 x := by rw [← h, List.drop_left]
  have h2 : (body ++ leBytes 8 x).take 152 = body := by rw [← h, List.take_left]
  have h3 : (leBytes 8 x).take 8 = leBytes 8 x := by
    rw [List.take_of_length_le]
    rw [leBytes_length]
  rw [h1, h2, h3, leNat_leBytes]
  simp [h, leBytes_length]

/-- The body of a flit before its CRC. -/
def flitBody (f : Flit) : List Byte :=
  leBytes 8 (flitHeader f) ++ ((List.range 4).flatMap (fun i => slotBytes ((f.slots[i]?).getD slotNone)))

theorem flitCrcOk_flitBytes (f : Flit) (h : (flitBody f).length = 152) : flitCrcOk (flitBytes f) = true := by
  show flitCrcOk (flitBody f ++ leBytes 8 (crc64 (flitBody f))) = true
  rw [flitCrcOk_append _ _ h, Nat.mod_eq_of_lt (crc64_lt _)]
  simp

theorem flitCrcOk_other (f : Flit) (h : (flitBody f).length = 152) : flitCrcOk (flitBody f ++ leBytes 8 (crc64 (flitBody f) + 1)) = false := by
  rw [flitCrcOk_append _ _ h]
  have := crc64_lt (flitBody f)
  simp only [beq_eq_false_iff_ne]
  omega

end Sys2Proof.Machine
end

