-- ==== Sys2Proof/Laws/Keeps.lean ====
section
/-! SUPPORT. The canonical forms of a device are kept by the few operations that write its tables directly; by every change of another
field; and by folds of operations that keep them. -/

namespace Sys2Proof.Machine

/-- A change of other fields keeps the canonical forms. -/
theorem mk_ok {part : Part} {out : List Out} {free : Nat} {intg : Intg} {score : Score} {rings : Rings} {ic : Ic} {pmu : Pmu} {img :
    Img} {fifos : FMap Fifo} {pinForce : Bool} {engs : Engs} {pipes : FMap Pipe} {tm : Tm} {links : Links} {arys : Arys}
    {boots : Nat} {slots : Slots} {le : Le} {arb : Arb} {train : Option TrainRun} {keys : Keys} {boot : Boot} {periph :
    Periph} {d : Dev}
    (h : d.ok) : (Dev.mk part d.regs d.mem d.poison d.errs out free intg score rings ic pmu img fifos pinForce engs pipes tm
      links arys boots slots le arb train keys boot periph).ok := h

theorem wr_ok (r : Reg) (v : BitVec 64) (d : Dev) (h : d.ok) : (wr r v d).ok :=
  ⟨h.1, h.2.1, h.2.2.1, rising_regPut _ _ _ h.2.2.2⟩

theorem rawStore_ok (a : Nat) (bs : List Byte) (d : Dev) (h : d.ok) : (rawStore a bs d).ok :=
  ⟨bytesSet_wf _ _ _ h.1, h.2.1, h.2.2.1, h.2.2.2⟩

theorem rawClear_ok (a n : Nat) (d : Dev) (h : d.ok) : (rawClear a n d).ok :=
  ⟨filter_wf _ _ h.1, rising_filter _ _ h.2.1, rising_filter _ _ h.2.2.1, h.2.2.2⟩

theorem rawReplace_ok (a : Nat) (bs : List Byte) (d : Dev) (h : d.ok) : (rawReplace a bs d).ok :=
  ⟨rawReplace_wf a bs d h.1, h.2.1, h.2.2.1, h.2.2.2⟩

theorem markG_ok (g : Nat) (d : Dev) (h : d.ok) : (markG g d).ok := ⟨h.1, rising_mput _ _ _ h.2.1, h.2.2.1, h.2.2.2⟩

theorem unmarkG_ok (g : Nat) (d : Dev) (h : d.ok) : (unmarkG g d).ok := ⟨h.1, rising_mdel _ _ h.2.1, h.2.2.1, h.2.2.2⟩

theorem errSet_ok (g : Nat) (e : ErrPat) (d : Dev) (h : d.ok) : (errSet g e d).ok := by
  refine ⟨h.1, h.2.1, ?_, h.2.2.2⟩
  unfold errSet
  dsimp only
  split
  · exact rising_mdel _ _ h.2.2.1
  · exact rising_mput _ _ _ h.2.2.1

/-- Both branches keep the canonical forms. -/
theorem ite_ok {c : Prop} [Decidable c] {a b : Dev} (ha : a.ok) (hb : b.ok) : (if c then a else b).ok := by
  split
  · exact ha
  · exact hb

theorem ite2_ok {α : Type} {c : Prop} [Decidable c] {a b : α × Dev} (ha : a.2.ok) (hb : b.2.ok) : (if c then a else b).2.ok := by
  split
  · exact ha
  · exact hb

theorem ite3_ok {α β : Type} {c : Prop} [Decidable c] {a b : α × β × Dev} (ha : a.2.2.ok) (hb : b.2.2.ok) :
    (if c then a else b).2.2.ok := by
  split
  · exact ha
  · exact hb

/-- A loop over a list keeps what its body keeps. -/
theorem forEach_ok {α : Type} (l : List α) (f : α → Dev → Dev) (d : Dev) (hf : ∀ x d, d.ok → (f x d).ok) (h : d.ok) :
    (forEach l f d).ok := by
  unfold forEach
  induction l generalizing d with
  | nil => exact h
  | cons x l ih => exact ih _ (hf x d h)

theorem forN_ok (n : Nat) (f : Nat → Dev → Dev) (d : Dev) (hf : ∀ x d, d.ok → (f x d).ok) (h : d.ok) : (forN n f d).ok :=
  forEach_ok _ f d hf h

theorem foldl_ok {α : Type} (l : List α) (f : Dev → α → Dev) (d : Dev) (hf : ∀ d x, d.ok → (f d x).ok) (h : d.ok) :
    (l.foldl f d).ok := by
  induction l generalizing d with
  | nil => exact h
  | cons x l ih => exact ih _ (hf d x h)

/-- A fold that carries a value beside the device. -/
theorem foldl2_ok {α β : Type} (l : List α) (f : β × Dev → α → β × Dev) (p : β × Dev) (hf : ∀ p x, p.2.ok → (f p x).2.ok)
    (h : p.2.ok) : (l.foldl f p).2.ok := by
  induction l generalizing p with
  | nil => exact h
  | cons x l ih => exact ih _ (hf p x h)

/-- A fold that carries two values beside the device. -/
theorem foldl3_ok {α β γ : Type} (l : List α) (f : β × γ × Dev → α → β × γ × Dev) (p : β × γ × Dev)
    (hf : ∀ p x, p.2.2.ok → (f p x).2.2.ok) (h : p.2.2.ok) : (l.foldl f p).2.2.ok := by
  induction l generalizing p with
  | nil => exact h
  | cons x l ih => exact ih _ (hf p x h)

/-- The device of a result that is known as a pair. -/
theorem snd_of_eq {α : Type} {p : α × Dev} {a : α} {d : Dev} (h : p = (a, d)) (hp : p.2.ok) : d.ok := by
  subst h
  exact hp

/-- The device of a result that is known as a triple. -/
theorem snd2_of_eq {α β : Type} {p : α × β × Dev} {a : α} {b : β} {d : Dev} (h : p = (a, b, d)) (hp : p.2.2.ok) : d.ok := by
  subst h
  exact hp

end Sys2Proof.Machine
end

