-- ==== Sys2Proof/Laws/KeepsOps.lean ====
section
/-! SUPPORT. Every operation of Machine/Ops.lean keeps the canonical form of the sparse stores
(`Dev.ok`): memory, error marks, poison marks and registers. -/

namespace Sys2Proof.Machine

theorem sf_ok (r : Reg) (f : Fld) (x : Nat) (d : Dev) (hd : d.ok) : (sf r f x d).ok := by
  unfold sf
  apply wr_ok
  with_reducible assumption

theorem emit_ok (o : Out) (d : Dev) (hd : d.ok) : (emit o d).ok := by
  unfold emit
  apply mk_ok
  with_reducible assumption

theorem whenB_ok (c : Bool) (f : Dev → Dev) (d : Dev) (hf : ∀ v0, v0.ok → (f v0).ok) (hd : d.ok) : (whenB c f d).ok := by
  unfold whenB
  apply ite_ok
  · apply hf
    with_reducible assumption
  · with_reducible assumption

theorem takeFree_ok (d : Dev) (hd : d.ok) : (takeFree d).2.ok := by
  unfold takeFree
  dsimp only
  apply mk_ok
  with_reducible assumption

theorem bankSet_ok (r : Nat → Reg) (n : Nat) (b : Bool) (d : Dev) (hd : d.ok) : (bankSet r n b d).ok := by
  unfold bankSet
  apply sf_ok
  with_reducible assumption

theorem icPresent_ok (d : Dev) (hd : d.ok) : (icPresent d).ok := by
  unfold icPresent
  lift_lets
  intro x0 x1
  apply ite_ok
  · apply mk_ok
    with_reducible assumption
  · with_reducible assumption

theorem raisePend_ok (n : Nat) (d : Dev) (hd : d.ok) : (raisePend n d).ok := by
  have h := icPresent_ok _ (bankSet_ok Reg.IC_PEND n true d hd)
  unfold raisePend
  dsimp only
  split
  · exact hd
  · split
    · exact emit_ok _ _ h
    · exact h

theorem pmuCancel_ok (last : Nat) (agent : Nat) (d : Dev) (hd : d.ok) : (pmuCancel last agent d).ok := by
  unfold pmuCancel
  lift_lets
  intro x0 x1 x2 x3 x4
  have h5 : (Dev.ok x0) := by
    dsimp only [x0]
    apply forN_ok
    · intro y6 y7 y8
      apply ite_ok
      · apply sf_ok
        with_reducible assumption
      · with_reducible assumption
    · with_reducible assumption
  have h9 : (Dev.ok x1) := by
    dsimp only [x1]
    apply ite_ok
    · with_reducible assumption
    · apply sf_ok
      apply sf_ok
      with_reducible assumption
  have h10 : (Dev.ok x4) := by
    dsimp only [x4]
    apply mk_ok
    with_reducible assumption
  apply sf_ok
  apply sf_ok
  apply sf_ok
  apply sf_ok
  with_reducible assumption

theorem pmuCause_ok (src : Nat) (d : Dev) (hd : d.ok) : (pmuCause src d).ok := by
  unfold pmuCause
  apply sf_ok
  apply sf_ok
  with_reducible assumption

theorem pmuWakeBit_ok (src : Nat) (d : Dev) (hd : d.ok) : (pmuWakeBit src d).ok := by
  unfold pmuWakeBit
  lift_lets
  intro x0
  have h1 : (Dev.ok x0) := by
    dsimp only [x0]
    apply sf_ok
    with_reducible assumption
  apply ite_ok
  · apply ite_ok
    · apply raisePend_ok
      apply pmuCause_ok
      apply pmuCancel_ok
      with_reducible assumption
    · with_reducible assumption
  · with_reducible assumption

theorem raise_ok (n : Nat) (d : Dev) (hd : d.ok) : (raise n d).ok := by
  unfold raise
  lift_lets
  intro x0
  have h1 : (Dev.ok x0) := by
    dsimp only [x0]
    apply raisePend_ok
    with_reducible assumption
  apply ite_ok
  · apply pmuWakeBit_ok
    with_reducible assumption
  · with_reducible assumption

theorem blkCause_ok (stat : Reg) (en : Reg) (i : Nat) (src : Nat) (d : Dev) (hd : d.ok) : (blkCause stat en i src d).ok := by
  unfold blkCause
  lift_lets
  intro x0
  apply whenB_ok
  · intro y1 y2
    apply raise_ok
    with_reducible assumption
  · apply sf_ok
    with_reducible assumption

theorem cntAdd_ok (r : Reg) (fc : Fld) (fo : Fld) (n : Nat) (src : Nat) (d : Dev) (hd : d.ok) : (cntAdd r fc fo n src d).ok := by
  unfold cntAdd
  lift_lets
  intro x0 x1 x2
  have h3 : (Dev.ok x2) := by
    dsimp only [x2]
    apply sf_ok
    with_reducible assumption
  apply ite_ok
  · apply raise_ok
    apply sf_ok
    with_reducible assumption
  · with_reducible assumption

theorem cntAdd64_ok (r : Reg) (n : Nat) (d : Dev) (hd : d.ok) : (cntAdd64 r n d).ok := by
  unfold cntAdd64
  apply wr_ok
  with_reducible assumption

theorem logOnce_ok (r : Reg) (fv : Fld) (fo : Fld) (fill : Dev → Dev) (d : Dev) (hfill : ∀ v0, v0.ok → (fill v0).ok) (hd : d.ok) : (logOnce r fv fo fill d).ok := by
  unfold logOnce
  apply ite_ok
  · apply sf_ok
    with_reducible assumption
  · apply hfill
    apply sf_ok
    with_reducible assumption

theorem intgUpd_ok (st : Nat) (f : IntgStore → IntgStore) (d : Dev) (hd : d.ok) : (intgUpd st f d).ok := by
  unfold intgUpd
  lift_lets
  intro x0
  apply mk_ok
  with_reducible assumption

theorem intgOvf_ok (st : Nat) (d : Dev) (hd : d.ok) : (intgOvf st d).ok := by
  unfold intgOvf
  lift_lets
  intro x0
  apply ite_ok
  · apply raise_ok
    apply intgUpd_ok
    with_reducible assumption
  · with_reducible assumption

theorem ceLog_ok (st : Nat) (addr : Nat) (sym : Nat) (d : Dev) (hd : d.ok) : (ceLog st addr sym d).ok := by
  unfold ceLog
  lift_lets
  intro x0 x1 x2
  have h3 : (Dev.ok x0) := by
    dsimp only [x0]
    apply intgOvf_ok
    apply intgUpd_ok
    with_reducible assumption
  split
  · lift_lets
    intro x4 x5
    have h6 : (Dev.ok x5) := by
      dsimp only [x5]
      apply intgUpd_ok
      with_reducible assumption
    apply ite_ok
    · apply raise_ok
      with_reducible assumption
    · with_reducible assumption
  · split
    · lift_lets
      intro x7
      have h8 : (Dev.ok x7) := by
        dsimp only [x7]
        apply intgUpd_ok
        with_reducible assumption
      apply ite_ok
      · apply raise_ok
        with_reducible assumption
      · with_reducible assumption
    · apply ite_ok
      · with_reducible assumption
      · apply raise_ok
        apply intgUpd_ok
        with_reducible assumption

theorem ueEntry_ok (st : Nat) (cause : Nat) (addr : Nat) (d : Dev) (hd : d.ok) : (ueEntry st cause addr d).ok := by
  unfold ueEntry
  lift_lets
  intro x0 x1 x2
  have h3 : (Dev.ok x2) := by
    dsimp only [x2]
    apply mk_ok
    with_reducible assumption
  apply raise_ok
  apply sf_ok
  with_reducible assumption

theorem ueDecode_ok (st : Nat) (addr : Nat) (d : Dev) (hd : d.ok) : (ueDecode st addr d).ok := by
  unfold ueDecode
  apply ueEntry_ok
  apply intgOvf_ok
  apply intgUpd_ok
  with_reducible assumption

theorem consume_ok (cause : Nat) (master : Nat) (batch : Nat) (id : Nat) (addr : Nat) (d : Dev) (hd : d.ok) : (consume cause master batch id addr d).ok := by
  unfold consume
  apply raise_ok
  apply logOnce_ok
  · intro y0 y1
    apply sf_ok
    apply sf_ok
    apply sf_ok
    apply sf_ok
    apply sf_ok
    with_reducible assumption
  · apply cntAdd_ok
    with_reducible assumption

theorem readGran_ok (scrub : Bool) (g : Nat) (d : Dev) (hd : d.ok) : (readGran scrub g d).2.ok := by
  unfold readGran
  dsimp only
  split
  · exact hd
  · rcases granDecode (rawBytes d (32 * g) 32) (errOf d g) with ⟨_ | ⟨l, _⟩ | _, bs⟩ <;> dsimp only
    · exact hd
    · split
      · exact errSet_ok _ _ _ (rawStore_ok _ _ _ (ceLog_ok _ _ _ _ hd))
      · exact ceLog_ok _ _ _ _ hd
    · split
      · exact markG_ok _ _ (ueDecode_ok _ _ _ hd)
      · exact ueDecode_ok _ _ _ hd

theorem flipApply_ok (g : Nat) (st : Nat) (d : Dev) (hd : d.ok) : (flipApply g st d).ok := by
  unfold flipApply
  lift_lets
  intro x0 x1 x2 x3 x4 x5
  have h6 : (Dev.ok x4) := by
    dsimp only [x4]
    apply sf_ok
    with_reducible assumption
  have h7 : (Dev.ok x5) := by
    dsimp only [x5]
    apply errSet_ok
    with_reducible assumption
  apply ite_ok
  · apply ite_ok
    · apply ueEntry_ok
      apply markG_ok
      with_reducible assumption
    · with_reducible assumption
  · with_reducible assumption

theorem writeGran_ok (g : Nat) (o : Nat) (bs : List Byte) (p : Bool) (d : Dev) (hd : d.ok) : (writeGran g o bs p d).ok := by
  unfold writeGran
  lift_lets
  intro x0 x1 x2 x3 x4 x5 x6
  have h7 : (Dev.ok x1) := by
    dsimp only [x1]
    apply errSet_ok
    apply rawStore_ok
    with_reducible assumption
  have h8 : (Dev.ok (x2).2) := by
    dsimp only [x2]
    apply readGran_ok
    with_reducible assumption
  have h9 : (Dev.ok x4) := by
    dsimp only [x4]
    apply rawStore_ok
    with_reducible assumption
  have h10 : (Dev.ok x5) := by
    dsimp only [x5]
    apply errSet_ok
    apply rawStore_ok
    with_reducible assumption
  have h11 : (Dev.ok x6) := by
    dsimp only [x6]
    apply ite_ok
    · apply ite_ok
      · apply markG_ok
        with_reducible assumption
      · apply unmarkG_ok
        with_reducible assumption
    · apply ite_ok
      · apply markG_ok
        with_reducible assumption
      · with_reducible assumption
  apply flipApply_ok
  with_reducible assumption

theorem consumeRead_ok (cause : Nat) (master : Nat) (fa : Nat) (n : Nat) (d : Dev) (hd : d.ok) : (consumeRead cause master fa n d).ok := by
  unfold consumeRead
  apply consume_ok
  with_reducible assumption

theorem readMem_ok (a : Nat) (n : Nat) (d : Dev) (hd : d.ok) : (readMem a n d).2.ok := by
  unfold readMem
  lift_lets
  intro x0
  have h1 : (Dev.ok (x0).2) := by
    dsimp only [x0]
    apply foldl2_ok
    · intro y2 y3 y4
      dsimp only
      apply readGran_ok
      with_reducible assumption
    · with_reducible assumption
  with_reducible assumption

theorem writeMem_ok (a : Nat) (bs : List Byte) (p : Bool) (d : Dev) (hd : d.ok) : (writeMem a bs p d).ok := by
  unfold writeMem
  apply foldl_ok
  · intro y0 y1 y2
    lift_lets
    intro x3 x4
    apply writeGran_ok
    with_reducible assumption
  · with_reducible assumption

theorem busError_ok (cause : Nat) (master : Nat) (write : Bool) (addr : Nat) (d : Dev) (hd : d.ok) : (busError cause master write addr d).ok := by
  unfold busError
  apply logOnce_ok
  · intro y0 y1
    apply sf_ok
    apply sf_ok
    apply sf_ok
    apply sf_ok
    with_reducible assumption
  · apply cntAdd_ok
    with_reducible assumption

end Sys2Proof.Machine
end

