-- ==== Sys2Proof/Laws/KeepsScore.lean ====
section
/-! SUPPORT. Every operation of Machine/Score.lean keeps the canonical form of the sparse stores
(`Dev.ok`): memory, error marks, poison marks and registers. -/

namespace Sys2Proof.Machine

theorem scoreProgram_ok (final : Bool) (d : Dev) (hd : d.ok) : (scoreProgram final d).ok := by
  unfold scoreProgram
  lift_lets
  intro x0 x1 x2 x3
  apply ite_ok
  · with_reducible assumption
  · apply mk_ok
    with_reducible assumption

theorem scoreFill_ok (a0 : Nat) (a1 : Dev) (ha1 : a1.ok) : (scoreFill a0 a1).ok := by
  induction a0 generalizing a1
  · unfold scoreFill
    with_reducible assumption
  · rename_i u0 ih
    unfold scoreFill
    apply ite_ok
    · with_reducible assumption
    · split
      · with_reducible assumption
      · lift_lets
        intro x0 x1 x2 x3 x4 x5 x6
        have h7 : (Dev.ok x4) := by
          dsimp only [x4]
          apply mk_ok
          with_reducible assumption
        have h8 : (Dev.ok x5) := by
          dsimp only [x5]
          apply sf_ok
          with_reducible assumption
        have h9 : (Dev.ok x6) := by
          dsimp only [x6]
          apply ite_ok
          · apply scoreProgram_ok
            with_reducible assumption
          · with_reducible assumption
        apply ite_ok
        · with_reducible assumption
        · apply ih
          with_reducible assumption

theorem scoreQueue_ok (r : ScoreRec) (d : Dev) (hd : d.ok) : (scoreQueue r d).ok := by
  unfold scoreQueue
  lift_lets
  intro x0 x1 x2
  apply ite_ok
  · with_reducible assumption
  · apply ite_ok
    · apply cntAdd_ok
      apply mk_ok
      with_reducible assumption
    · apply scoreFill_ok
      apply mk_ok
      with_reducible assumption

theorem scoreEvent_ok (ev : Nat) (kind : Nat) (index : Nat) (args : List Nat) (d : Dev) (hd : d.ok) : (scoreEvent ev kind index args d).ok := by
  unfold scoreEvent
  apply scoreQueue_ok
  with_reducible assumption

theorem stackEvent_ok (key : Nat) (n : Nat) (d : Dev) (hd : d.ok) : (stackEvent key n d).ok := by
  unfold stackEvent
  lift_lets
  intro x0 x1
  apply ite_ok
  · with_reducible assumption
  · apply mk_ok
    with_reducible assumption

end Sys2Proof.Machine
end

