-- ==== Sys2Proof/Laws/KeepsArray.lean ====
section
/-! SUPPORT. Every operation of Machine/Array.lean keeps the canonical form of the sparse stores
(`Dev.ok`): memory, error marks, poison marks and registers. -/

namespace Sys2Proof.Machine

theorem aryUpd_ok (k : Nat) (f : Ary → Ary) (d : Dev) (hd : d.ok) : (aryUpd k f d).ok := by
  unfold aryUpd
  lift_lets
  intro x0
  apply mk_ok
  with_reducible assumption

theorem wearUpd_ok (k : Nat) (sector : Bool) (index : Nat) (f : Wear → Wear) (d : Dev) (hd : d.ok) : (wearUpd k sector index f d).ok := by
  unfold wearUpd
  apply aryUpd_ok
  with_reducible assumption

theorem wearEvent_ok (k : Nat) (ev : Nat) (sector : Bool) (index : Nat) (page : Nat) (d : Dev) (hd : d.ok) : (wearEvent k ev sector index page d).ok := by
  unfold wearEvent
  apply stackEvent_ok
  apply scoreEvent_ok
  apply raise_ok
  apply logOnce_ok
  · intro y0 y1
    apply sf_ok
    apply sf_ok
    apply sf_ok
    apply sf_ok
    apply sf_ok
    with_reducible assumption
  · with_reducible assumption

theorem busDeliver_ok (master : Nat) (fa : Nat) (bs : List Byte) (p : Bool) (d : Dev) (hd : d.ok) : (busDeliver master fa bs p d).ok := by
  unfold busDeliver
  apply ite_ok
  · apply consumeRead_ok
    apply emit_ok
    with_reducible assumption
  · apply ite_ok
    · apply consumeRead_ok
      apply emit_ok
      with_reducible assumption
    · apply ite_ok
      · apply consumeRead_ok
        apply emit_ok
        with_reducible assumption
      · apply emit_ok
        with_reducible assumption

theorem busFail_ok (cause : Nat) (master : Nat) (write : Bool) (fa : Nat) (n : Nat) (d : Dev) (hd : d.ok) : (busFail cause master write fa n d).ok := by
  unfold busFail
  apply emit_ok
  apply busError_ok
  with_reducible assumption

theorem senseStart_ok (k : Nat) (p : Nat) (d : Dev) (hd : d.ok) : (senseStart k p d).ok := by
  unfold senseStart
  lift_lets
  intro x0
  apply ite_ok
  · with_reducible assumption
  · split
    · with_reducible assumption
    · apply aryUpd_ok
      with_reducible assumption

theorem sensesStart_ok (k : Nat) (d : Dev) (hd : d.ok) : (sensesStart k d).ok := by
  unfold sensesStart
  apply foldl_ok
  · intro y0 y1 y2
    apply senseStart_ok
    with_reducible assumption
  · with_reducible assumption

theorem senseWant_ok (k : Nat) (ctx : Nat) (page : Nat) (d : Dev) (hd : d.ok) : (senseWant k ctx page d).ok := by
  unfold senseWant
  lift_lets
  intro x0 x1
  apply ite_ok
  · with_reducible assumption
  · apply senseStart_ok
    apply aryUpd_ok
    with_reducible assumption

theorem regDrain_ok (k : Nat) (page : Nat) (d : Dev) (hd : d.ok) : (regDrain k page d).ok := by
  unfold regDrain
  lift_lets
  intro x0 x1
  have h2 : (Dev.ok x1) := by
    dsimp only [x1]
    apply aryUpd_ok
    with_reducible assumption
  apply senseStart_ok
  with_reducible assumption

theorem contAhead_ok (k : Nat) (ctx : Nat) (d : Dev) (hd : d.ok) : (contAhead k ctx d).ok := by
  unfold contAhead
  split
  · apply forEach_ok
    · intro y0 y1 y2
      apply senseWant_ok
      with_reducible assumption
    · with_reducible assumption
  · with_reducible assumption

theorem contStop_ok (k : Nat) (ctx : Nat) (d : Dev) (hd : d.ok) : (contStop k ctx d).ok := by
  unfold contStop
  apply sensesStart_ok
  apply aryUpd_ok
  with_reducible assumption

theorem contRead_ok (k : Nat) (ctx : Nat) (eng : Nat) (key : Nat) (w : Nat) (n : Nat) (d : Dev) (hd : d.ok) : (contRead k ctx eng key w n d).ok := by
  unfold contRead
  lift_lets
  intro x0 x1
  have h4 : (∀ z2 z3, Dev.ok z3 → Dev.ok (x0 z2 z3)) := by
    intro y5 y6 y7
    dsimp only [x0]
    apply contAhead_ok
    apply aryUpd_ok
    with_reducible assumption
  split
  · apply ite_ok
    · apply h4
      with_reducible assumption
    · apply h4
      apply contStop_ok
      with_reducible assumption
  · apply h4
    with_reducible assumption

theorem contNext_ok (k : Nat) (ctx : Nat) (page : Nat) (d : Dev) (hd : d.ok) : (contNext k ctx page d).ok := by
  unfold contNext
  lift_lets
  intro x0 x1
  have h2 : (Dev.ok x0) := by
    dsimp only [x0]
    apply regDrain_ok
    with_reducible assumption
  split
  · with_reducible assumption
  · apply ite_ok
    · with_reducible assumption
    · apply ite_ok
      · apply contStop_ok
        with_reducible assumption
      · apply contAhead_ok
        apply aryUpd_ok
        with_reducible assumption

theorem readReg_ok (r : PageReg) (addr : Nat) (n : Nat) (d : Dev) (hd : d.ok) : (readReg r addr n d).2.ok := by
  have h := readMem_ok addr n _ (forEach_ok r.raw (fun e d => errSet e.1 (errOf d e.1 ++ e.2) d) d
    (fun x e he => errSet_ok _ _ _ he) hd)
  exact ⟨h.1, h.2.1, hd.2.2.1, h.2.2.2⟩

theorem winAhead_ok (k : Nat) (o : Nat) (d : Dev) (hd : d.ok) : (winAhead k o d).ok := by
  unfold winAhead
  apply forN_ok
  · intro y0 y1 y2
    lift_lets
    intro x3 x4
    apply ite_ok
    · apply senseWant_ok
      with_reducible assumption
    · with_reducible assumption
  · with_reducible assumption

theorem winRead_ok (master : Nat) (k : Nat) (o : Nat) (n : Nat) (d : Dev) (hd : d.ok) : (winRead master k o n d).ok := by
  unfold winRead
  lift_lets
  intro x0 x1 x2 x3 x4
  have h5 : (Dev.ok x4) := by
    dsimp only [x4]
    split
    · apply busDeliver_ok
      apply readReg_ok
      with_reducible assumption
    · apply senseWant_ok
      apply aryUpd_ok
      with_reducible assumption
  apply ite_ok
  · apply busDeliver_ok
    apply sf_ok
    with_reducible assumption
  · apply ite_ok
    · apply busDeliver_ok
      with_reducible assumption
    · apply ite_ok
      · apply busDeliver_ok
        apply sf_ok
        with_reducible assumption
      · apply ite_ok
        · apply winAhead_ok
          with_reducible assumption
        · with_reducible assumption

theorem psecRead_ok (master : Nat) (k : Nat) (a : Nat) (n : Nat) (d : Dev) (hd : d.ok) : (psecRead master k a n d).ok := by
  unfold psecRead
  lift_lets
  intro x0
  split
  · lift_lets
    intro x1
    have h2 : (Dev.ok (x1).2) := by
      dsimp only [x1]
      apply readReg_ok
      with_reducible assumption
    apply busDeliver_ok
    with_reducible assumption
  · apply senseWant_ok
    apply aryUpd_ok
    with_reducible assumption

theorem winTimeout_ok (master : Nat) (k : Nat) (d : Dev) (hd : d.ok) : (winTimeout master k d).ok := by
  unfold winTimeout
  split
  · with_reducible assumption
  · lift_lets
    intro x0
    have h1 : (Dev.ok x0) := by
      dsimp only [x0]
      apply aryUpd_ok
      with_reducible assumption
    apply busFail_ok
    apply stackEvent_ok
    apply sf_ok
    with_reducible assumption

theorem ceBits_ok (k : Nat) (bits : Nat) (d : Dev) (hd : d.ok) : (ceBits k bits d).ok := by
  unfold ceBits
  lift_lets
  intro x0 x1
  have h2 : (Dev.ok x1) := by
    dsimp only [x1]
    apply cntAdd64_ok
    with_reducible assumption
  apply whenB_ok
  · intro y3 y4
    apply raise_ok
    with_reducible assumption
  · with_reducible assumption

theorem cwCount_ok (k : Nat) (page : Nat) (cw : Nat) (bits : Nat) (d : Dev) (hd : d.ok) : (cwCount k page cw bits d).ok := by
  unfold cwCount
  lift_lets
  intro x0 x1
  have h2 : (Dev.ok x0) := by
    dsimp only [x0]
    apply ceBits_ok
    with_reducible assumption
  have h3 : (Dev.ok x1) := by
    dsimp only [x1]
    apply ite_ok
    · apply sf_ok
      apply sf_ok
      with_reducible assumption
    · with_reducible assumption
  apply ite_ok
  · apply raise_ok
    apply logOnce_ok
    · intro y4 y5
      apply sf_ok
      apply sf_ok
      apply sf_ok
      apply sf_ok
      with_reducible assumption
    · with_reducible assumption
  · with_reducible assumption

theorem senseCount_ok (k : Nat) (n : Nat) (d : Dev) (hd : d.ok) : (senseCount k n d).ok := by
  unfold senseCount
  lift_lets
  intro x0
  apply whenB_ok
  · intro y1 y2
    apply raise_ok
    with_reducible assumption
  · apply cntAdd64_ok
    with_reducible assumption

theorem winServe_ok (k : Nat) (page : Nat) (r : PageReg) (d : Dev) (hd : d.ok) : (winServe k page r d).ok := by
  unfold winServe
  lift_lets
  intro x0 x1 x2 x3
  have h4 : (Dev.ok x1) := by
    dsimp only [x1]
    apply aryUpd_ok
    with_reducible assumption
  have h5 : (Dev.ok x3) := by
    dsimp only [x3]
    apply ite_ok
    · with_reducible assumption
    · apply mk_ok
      with_reducible assumption
  apply forEach_ok
  · intro y6 y7 y8
    lift_lets
    intro x9
    have h10 : (Dev.ok (x9).2) := by
      dsimp only [x9]
      apply readReg_ok
      with_reducible assumption
    apply busDeliver_ok
    with_reducible assumption
  · with_reducible assumption

theorem winBlank_ok (k : Nat) (b : Nat) (d : Dev) (hd : d.ok) : (winBlank k b d).ok := by
  unfold winBlank
  lift_lets
  intro x0 x1
  have h2 : (Dev.ok x1) := by
    dsimp only [x1]
    apply aryUpd_ok
    with_reducible assumption
  apply forEach_ok
  · intro y3 y4 y5
    apply busDeliver_ok
    apply sf_ok
    with_reducible assumption
  · with_reducible assumption

theorem senseComplete_ok (k : Nat) (p : Nat) (tries : List (List (Option Nat))) (raw : FMap ErrPat) (d : Dev) (hd : d.ok) : (senseComplete k p tries raw d).ok := by
  unfold senseComplete
  split
  · with_reducible assumption
  · lift_lets
    intro x0 x1 x2 x3 x4 x5 x6 x7 x8 x9 x10 x11 x12 x13 x14
    have h15 : (Dev.ok x8) := by
      dsimp only [x8]
      apply whenB_ok
      · intro y16 y17
        apply senseCount_ok
        with_reducible assumption
      · with_reducible assumption
    have h18 : (Dev.ok x9) := by
      dsimp only [x9]
      apply forN_ok
      · intro y19 y20 y21
        split
        · apply ite_ok
          · apply cwCount_ok
            with_reducible assumption
          · apply ceBits_ok
            with_reducible assumption
        · with_reducible assumption
      · with_reducible assumption
    have h22 : (Dev.ok x10) := by
      dsimp only [x10]
      apply cntAdd_ok
      with_reducible assumption
    have h23 : (Dev.ok x11) := by
      dsimp only [x11]
      apply stackEvent_ok
      apply cntAdd_ok
      with_reducible assumption
    have h24 : (Dev.ok x14) := by
      dsimp only [x14]
      apply aryUpd_ok
      with_reducible assumption
    apply senseStart_ok
    apply winServe_ok
    with_reducible assumption

theorem damage_ok (a : Nat) (n : Nat) (d : Dev) (hd : d.ok) : (damage a n d).ok := by
  unfold damage
  lift_lets
  intro x0 x1 x2
  have h3 : (Dev.ok x2) := by
    dsimp only [x2]
    apply rawReplace_ok
    apply mk_ok
    with_reducible assumption
  apply forN_ok
  · intro y4 y5 y6
    apply errSet_ok
    with_reducible assumption
  · with_reducible assumption

theorem eraseTarget_ok (k : Nat) (sector : Bool) (index : Nat) (d : Dev) (hd : d.ok) : (eraseTarget k sector index d).ok := by
  unfold eraseTarget
  dsimp only
  split
  · exact rawReplace_ok _ _ _ ⟨hd.1, hd.2.1, rising_filter _ _ hd.2.2.1, hd.2.2.2⟩
  · exact forN_ok _ _ _ (fun _ _ h => rawClear_ok _ _ _ h) hd

theorem programGran_ok (g : Nat) (bs : List Byte) (e : ErrPat) (d : Dev) (hd : d.ok) : (programGran g bs e d).2.ok := by
  unfold programGran
  lift_lets
  intro x0 x1 x2 x3
  apply ite2_ok
  · dsimp only
    apply errSet_ok
    apply rawStore_ok
    with_reducible assumption
  · dsimp only
    apply errSet_ok
    apply rawStore_ok
    with_reducible assumption

theorem programUnit_ok (a : Nat) (o : AryOp) (d : Dev) (hd : d.ok) : (programUnit a o d).2.ok := by
  unfold programUnit
  lift_lets
  intro x0 x1
  apply foldl2_ok
  · intro y2 y3 y4
    lift_lets
    intro x5 x6
    have h7 : (Dev.ok (x6).2) := by
      dsimp only [x6]
      apply programGran_ok
      with_reducible assumption
    with_reducible assumption
  · with_reducible assumption

theorem invalidate_ok (k : Nat) (b : Nat) (d : Dev) (hd : d.ok) : (invalidate k b d).ok := by
  unfold invalidate
  apply winBlank_ok
  apply aryUpd_ok
  with_reducible assumption

theorem psecInvalidate_ok (k : Nat) (n : Nat) (d : Dev) (hd : d.ok) : (psecInvalidate k n d).ok := by
  unfold psecInvalidate
  lift_lets
  intro x0
  apply aryUpd_ok
  with_reducible assumption

theorem grantBack_ok (k : Nat) (d : Dev) (hd : d.ok) : (grantBack k d).ok := by
  unfold grantBack
  lift_lets
  intro x0 x1 x2
  have h3 : (Dev.ok x1) := by
    dsimp only [x1]
    apply ite_ok
    · with_reducible assumption
    · apply mk_ok
      with_reducible assumption
  apply ite_ok
  · with_reducible assumption
  · apply mk_ok
    with_reducible assumption

theorem eraseBegin_ok (k : Nat) (sector : Bool) (index : Nat) (d : Dev) (hd : d.ok) : (eraseBegin k sector index d).ok := by
  unfold eraseBegin
  lift_lets
  intro x0 x1
  have h2 : (Dev.ok x1) := by
    dsimp only [x1]
    apply wearUpd_ok
    with_reducible assumption
  apply ite_ok
  · apply wearEvent_ok
    apply wearUpd_ok
    with_reducible assumption
  · with_reducible assumption

theorem opRun_ok (k : Nat) (g : Nat) (d : Dev) (hd : d.ok) : (opRun k g d).ok := by
  unfold opRun
  split
  · with_reducible assumption
  · lift_lets
    intro x0 x1 x2
    have h3 : (Dev.ok x0) := by
      dsimp only [x0]
      apply aryUpd_ok
      with_reducible assumption
    have h4 : (Dev.ok x1) := by
      dsimp only [x1]
      apply ite_ok
      · with_reducible assumption
      · apply ite_ok
        · apply invalidate_ok
          with_reducible assumption
        · apply psecInvalidate_ok
          with_reducible assumption
    have h5 : (Dev.ok x2) := by
      dsimp only [x2]
      apply ite_ok
      · apply eraseBegin_ok
        with_reducible assumption
      · with_reducible assumption
    apply ite_ok
    · with_reducible assumption
    · apply sf_ok
      with_reducible assumption

theorem opsRun_ok (k : Nat) (d : Dev) (hd : d.ok) : (opsRun k d).ok := by
  unfold opsRun
  apply forEach_ok
  · intro y0 y1 y2
    apply opRun_ok
    with_reducible assumption
  · with_reducible assumption

theorem grantAsk_ok (k : Nat) (d : Dev) (hd : d.ok) : (grantAsk k d).ok := by
  unfold grantAsk
  lift_lets
  intro x0
  apply ite_ok
  · apply opsRun_ok
    with_reducible assumption
  · apply ite_ok
    · with_reducible assumption
    · apply ite_ok
      · apply opsRun_ok
        apply mk_ok
        with_reducible assumption
      · apply mk_ok
        with_reducible assumption

theorem grantGive_ok (d : Dev) (hd : d.ok) : (grantGive d).ok := by
  unfold grantGive
  split
  · with_reducible assumption
  · lift_lets
    intro x0 x1 x2
    have h3 : (Dev.ok x1) := by
      dsimp only [x1]
      apply mk_ok
      with_reducible assumption
    apply ite_ok
    · apply ite_ok
      · apply opsRun_ok
        apply mk_ok
        with_reducible assumption
      · with_reducible assumption
    · with_reducible assumption

theorem opstatTarget_ok (k : Nat) (g : Nat) (op : Nat) (index : Nat) (page : Nat) (d : Dev) (hd : d.ok) : (opstatTarget k g op index page d).ok := by
  unfold opstatTarget
  apply sf_ok
  apply sf_ok
  apply sf_ok
  with_reducible assumption

theorem opOutcome_ok (k : Nat) (g : Nat) (code : Nat) (d : Dev) (hd : d.ok) : (opOutcome k g code d).ok := by
  unfold opOutcome
  apply raise_ok
  apply sf_ok
  apply sf_ok
  with_reducible assumption

theorem opStart_ok (k : Nat) (o : AryOp) (d : Dev) (hd : d.ok) : (opStart k o d).ok := by
  unfold opStart
  lift_lets
  intro x0 x1
  have h2 : (Dev.ok x1) := by
    dsimp only [x1]
    apply opstatTarget_ok
    with_reducible assumption
  apply grantAsk_ok
  apply aryUpd_ok
  with_reducible assumption

theorem opDrop_ok (k : Nat) (g : Nat) (d : Dev) (hd : d.ok) : (opDrop k g d).ok := by
  unfold opDrop
  lift_lets
  intro x0 x1
  have h2 : (Dev.ok x0) := by
    dsimp only [x0]
    apply aryUpd_ok
    with_reducible assumption
  have h3 : (Dev.ok x1) := by
    dsimp only [x1]
    apply ite_ok
    · with_reducible assumption
    · apply sf_ok
      with_reducible assumption
  apply sensesStart_ok
  apply grantBack_ok
  with_reducible assumption

theorem opAbort_ok (k : Nat) (g : Nat) (d : Dev) (hd : d.ok) : (opAbort k g d).ok := by
  unfold opAbort
  split
  · with_reducible assumption
  · lift_lets
    intro x0 x1 x2 x3
    have h4 : (Dev.ok x1) := by
      dsimp only [x1]
      apply damage_ok
      with_reducible assumption
    have h5 : (Dev.ok x3) := by
      dsimp only [x3]
      apply ite_ok
      · with_reducible assumption
      · apply ite_ok
        · apply forN_ok
          · intro y6 y7 y8
            apply damage_ok
            with_reducible assumption
          · with_reducible assumption
        · apply ite_ok
          · apply damage_ok
            with_reducible assumption
          · apply ite_ok
            · apply damage_ok
              with_reducible assumption
            · with_reducible assumption
    apply opOutcome_ok
    apply opDrop_ok
    with_reducible assumption

theorem aryAbort_ok (k : Nat) (d : Dev) (hd : d.ok) : (aryAbort k d).ok := by
  unfold aryAbort
  lift_lets
  intro x0
  have h1 : (Dev.ok x0) := by
    dsimp only [x0]
    apply forN_ok
    · intro y2 y3 y4
      apply opAbort_ok
      with_reducible assumption
    · with_reducible assumption
  apply sf_ok
  apply aryUpd_ok
  with_reducible assumption

theorem arySuspend_ok (k : Nat) (d : Dev) (hd : d.ok) : (arySuspend k d).ok := by
  unfold arySuspend
  lift_lets
  intro x0 x1
  have h2 : (Dev.ok x1) := by
    dsimp only [x1]
    apply aryUpd_ok
    with_reducible assumption
  apply sensesStart_ok
  apply grantBack_ok
  with_reducible assumption

theorem arySuspendDue_ok (k : Nat) (d : Dev) (hd : d.ok) : (arySuspendDue k d).ok := by
  unfold arySuspendDue
  lift_lets
  intro x0
  have h1 : (Dev.ok x0) := by
    dsimp only [x0]
    apply aryUpd_ok
    with_reducible assumption
  apply sensesStart_ok
  apply grantBack_ok
  with_reducible assumption

theorem aryResume_ok (k : Nat) (d : Dev) (hd : d.ok) : (aryResume k d).ok := by
  unfold aryResume
  lift_lets
  intro x0 x1
  have h2 : (Dev.ok x1) := by
    dsimp only [x1]
    apply aryUpd_ok
    with_reducible assumption
  apply ite_ok
  · apply aryUpd_ok
    with_reducible assumption
  · apply ite_ok
    · apply ite_ok
      · apply grantAsk_ok
        with_reducible assumption
      · with_reducible assumption
    · with_reducible assumption

theorem slotOpen_ok (k : Nat) (g : Nat) (d : Dev) (hd : d.ok) : (slotOpen k g d).ok := by
  unfold slotOpen
  split
  · with_reducible assumption
  · lift_lets
    intro x0
    have h1 : (Dev.ok x0) := by
      dsimp only [x0]
      apply sf_ok
      apply cntAdd_ok
      apply aryUpd_ok
      with_reducible assumption
    apply sensesStart_ok
    apply grantBack_ok
    with_reducible assumption

theorem autoSuspend_ok (k : Nat) (g : Nat) (d : Dev) (hd : d.ok) : (autoSuspend k g d).ok := by
  unfold autoSuspend
  split
  · with_reducible assumption
  · apply ite_ok
    · apply slotOpen_ok
      with_reducible assumption
    · with_reducible assumption

theorem autoResume_ok (k : Nat) (g : Nat) (d : Dev) (hd : d.ok) : (autoResume k g d).ok := by
  unfold autoResume
  split
  · with_reducible assumption
  · lift_lets
    intro x0
    have h1 : (Dev.ok x0) := by
      dsimp only [x0]
      apply aryUpd_ok
      with_reducible assumption
    apply ite_ok
    · with_reducible assumption
    · apply ite_ok
      · apply ite_ok
        · with_reducible assumption
        · apply sf_ok
          with_reducible assumption
      · apply grantAsk_ok
        apply aryUpd_ok
        with_reducible assumption

theorem opDone_ok (k : Nat) (g : Nat) (us : Nat) (ok : Bool) (d : Dev) (hd : d.ok) : (opDone k g us ok d).ok := by
  unfold opDone
  split
  · with_reducible assumption
  · lift_lets
    intro x0 x1 x2 x3 x4 x5 x6 x7 x8
    have h9 : (Dev.ok x4) := by
      dsimp only [x4]
      apply sf_ok
      with_reducible assumption
    have h10 : (Dev.ok x5) := by
      dsimp only [x5]
      apply ite_ok
      · apply ite_ok
        · with_reducible assumption
        · apply wearEvent_ok
          apply wearUpd_ok
          with_reducible assumption
      · with_reducible assumption
    have h11 : (Dev.ok (x6).2) := by
      dsimp only [x6]
      apply programUnit_ok
      with_reducible assumption
    have h12 : (Dev.ok x7) := by
      dsimp only [x7]
      apply ite_ok
      · apply ite_ok
        · apply damage_ok
          with_reducible assumption
        · apply forN_ok
          · intro y13 y14 y15
            apply damage_ok
            with_reducible assumption
          · with_reducible assumption
      · apply damage_ok
        with_reducible assumption
    have h16 : (Dev.ok x8) := by
      dsimp only [x8]
      apply ite_ok
      · apply ite_ok
        · apply wearUpd_ok
          apply eraseTarget_ok
          with_reducible assumption
        · apply ite_ok
          · apply raise_ok
            apply sf_ok
            with_reducible assumption
          · with_reducible assumption
      · apply wearEvent_ok
        apply wearUpd_ok
        apply cntAdd_ok
        apply sf_ok
        with_reducible assumption
    apply ite_ok
    · with_reducible assumption
    · apply opOutcome_ok
      apply opDrop_ok
      with_reducible assumption

theorem aryRetire_ok (k : Nat) (b : Nat) (d : Dev) (hd : d.ok) : (aryRetire k b d).ok := by
  unfold aryRetire
  lift_lets
  intro x0 x1
  have h2 : (Dev.ok x1) := by
    dsimp only [x1]
    split
    · apply ite_ok
      · apply opAbort_ok
        with_reducible assumption
      · with_reducible assumption
    · with_reducible assumption
  apply invalidate_ok
  apply wearUpd_ok
  with_reducible assumption

theorem regionSet_ok (k : Nat) (sector : Bool) (index : Nat) (v : Nat) (d : Dev) (hd : d.ok) : (regionSet k sector index v d).ok := by
  unfold regionSet
  apply ite_ok
  · apply sf_ok
    with_reducible assumption
  · apply sf_ok
    with_reducible assumption

theorem regionsLoad_ok (k : Nat) (d : Dev) (hd : d.ok) : (regionsLoad k d).ok := by
  unfold regionsLoad
  lift_lets
  intro x0 x1 x2 x3 x4 x5
  have h6 : (Dev.ok x4) := by
    dsimp only [x4]
    apply sf_ok
    with_reducible assumption
  have h7 : (Dev.ok x5) := by
    dsimp only [x5]
    apply ite_ok
    · apply forN_ok
      · intro y8 y9 y10
        apply wr_ok
        with_reducible assumption
      · with_reducible assumption
    · with_reducible assumption
  apply aryUpd_ok
  with_reducible assumption

theorem pwWritten_ok (k : Nat) (d : Dev) (hd : d.ok) : (pwWritten k d).ok := by
  unfold pwWritten
  split
  · with_reducible assumption
  · lift_lets
    intro x0 x1 x2
    have h3 : (Dev.ok x0) := by
      dsimp only [x0]
      split
      · with_reducible assumption
      · split
        · apply rawReplace_ok
          with_reducible assumption
        · apply rawReplace_ok
          apply wearUpd_ok
          apply eraseBegin_ok
          with_reducible assumption
    apply regionSet_ok
    apply sf_ok
    apply aryUpd_ok
    with_reducible assumption

theorem seqErr_ok (k : Nat) (d : Dev) (hd : d.ok) : (seqErr k d).ok := by
  unfold seqErr
  apply sf_ok
  apply aryUpd_ok
  with_reducible assumption

theorem strayWrite_ok (k : Nat) (d : Dev) (hd : d.ok) : (strayWrite k d).ok := by
  unfold strayWrite
  apply sf_ok
  with_reducible assumption

theorem setLast_ok (k : Nat) (code : Nat) (d : Dev) (hd : d.ok) : (setLast k code d).ok := by
  unfold setLast
  apply sf_ok
  with_reducible assumption

theorem cmdErase_ok (k : Nat) (master : Nat) (d : Dev) (hd : d.ok) : (cmdErase k master d).ok := by
  unfold cmdErase
  lift_lets
  intro x0 x1 x2
  have h3 : (Dev.ok x2) := by
    dsimp only [x2]
    apply setLast_ok
    with_reducible assumption
  apply ite_ok
  · apply opStart_ok
    with_reducible assumption
  · with_reducible assumption

theorem cmdBuffer_ok (k : Nat) (master : Nat) (d : Dev) (hd : d.ok) : (cmdBuffer k master d).ok := by
  unfold cmdBuffer
  lift_lets
  intro x0 x1 x2
  have h3 : (Dev.ok x2) := by
    dsimp only [x2]
    apply setLast_ok
    with_reducible assumption
  apply ite_ok
  · apply aryUpd_ok
    with_reducible assumption
  · with_reducible assumption

theorem cmdUnlock_ok (k : Nat) (d : Dev) (hd : d.ok) : (cmdUnlock k d).ok := by
  unfold cmdUnlock
  lift_lets
  intro x0 x1 x2 x3 x4
  have h5 : (Dev.ok x4) := by
    dsimp only [x4]
    apply sf_ok
    apply setLast_ok
    with_reducible assumption
  apply ite_ok
  · apply setLast_ok
    with_reducible assumption
  · apply ite_ok
    · apply setLast_ok
      with_reducible assumption
    · apply ite_ok
      · apply setLast_ok
        with_reducible assumption
      · split
        · apply setLast_ok
          with_reducible assumption
        · lift_lets
          intro x6
          apply ite_ok
          · apply regionSet_ok
            apply setLast_ok
            with_reducible assumption
          · apply ite_ok
            · apply scoreEvent_ok
              apply raise_ok
              with_reducible assumption
            · with_reducible assumption

theorem cmdLock_ok (k : Nat) (d : Dev) (hd : d.ok) : (cmdLock k d).ok := by
  unfold cmdLock
  lift_lets
  intro x0 x1 x2 x3 x4 x5 x6
  have h9 : (∀ z7 z8, Dev.ok z8 → Dev.ok (x6 z7 z8)) := by
    intro y10 y11 y12
    dsimp only [x6]
    apply ite_ok
    · apply setLast_ok
      with_reducible assumption
    · apply setLast_ok
      apply sf_ok
      apply aryUpd_ok
      with_reducible assumption
  apply ite_ok
  · apply setLast_ok
    with_reducible assumption
  · apply ite_ok
    · apply setLast_ok
      with_reducible assumption
    · apply ite_ok
      · apply ite_ok
        · apply h9
          with_reducible assumption
        · apply setLast_ok
          with_reducible assumption
      · apply ite_ok
        · apply ite_ok
          · apply setLast_ok
            with_reducible assumption
          · apply h9
            with_reducible assumption
        · apply regionSet_ok
          apply setLast_ok
          with_reducible assumption

theorem seqThird_ok (k : Nat) (master : Nat) (w : Nat) (d : Dev) (hd : d.ok) : (seqThird k master w d).ok := by
  unfold seqThird
  lift_lets
  intro x0 x1 x2 x3 x4 x5
  have h6 : (Dev.ok x2) := by
    dsimp only [x2]
    apply aryUpd_ok
    with_reducible assumption
  have h7 : (Dev.ok x4) := by
    dsimp only [x4]
    apply sf_ok
    with_reducible assumption
  have h8 : (Dev.ok x5) := by
    dsimp only [x5]
    apply setLast_ok
    with_reducible assumption
  apply ite_ok
  · apply strayWrite_ok
    with_reducible assumption
  · apply ite_ok
    · apply setLast_ok
      with_reducible assumption
    · apply ite_ok
      · apply cmdErase_ok
        with_reducible assumption
      · apply ite_ok
        · apply cmdBuffer_ok
          with_reducible assumption
        · apply ite_ok
          · apply cmdUnlock_ok
            with_reducible assumption
          · apply ite_ok
            · apply cmdLock_ok
              with_reducible assumption
            · apply ite_ok
              · apply arySuspend_ok
                with_reducible assumption
              · apply ite_ok
                · apply aryResume_ok
                  with_reducible assumption
                · apply ite_ok
                  · apply aryAbort_ok
                    with_reducible assumption
                  · apply ite_ok
                    · apply sf_ok
                      with_reducible assumption
                    · apply ite_ok
                      · apply sf_ok
                        with_reducible assumption
                      · apply sf_ok
                        with_reducible assumption

theorem flipProgram_ok (k : Nat) (block : Nat) (page : Nat) (d : Dev) (hd : d.ok) : (flipProgram k block page d).2.ok := by
  unfold flipProgram
  dsimp only
  split
  · have h := flipApply_ok ((targetAt d k false block page).1 / 32) (0x20 + k) d hd
    exact ⟨h.1, hd.2.1, hd.2.2.1, h.2.2.2⟩
  · exact hd

theorem pbCommit_ok (k : Nat) (d : Dev) (hd : d.ok) : (pbCommit k d).ok := by
  unfold pbCommit
  split
  · with_reducible assumption
  · lift_lets
    intro x0 x1 x2 x3 x4 x5
    have h6 : (Dev.ok x0) := by
      dsimp only [x0]
      apply aryUpd_ok
      with_reducible assumption
    have h7 : (Dev.ok x4) := by
      dsimp only [x4]
      apply ite_ok
      · apply sf_ok
        with_reducible assumption
      · with_reducible assumption
    have h8 : (Dev.ok (x5).2) := by
      dsimp only [x5]
      apply ite2_ok
      · with_reducible assumption
      · apply flipProgram_ok
        with_reducible assumption
    apply ite_ok
    · apply opOutcome_ok
      apply opstatTarget_ok
      with_reducible assumption
    · apply opStart_ok
      with_reducible assumption

theorem pbTimeout_ok (k : Nat) (d : Dev) (hd : d.ok) : (pbTimeout k d).ok := by
  unfold pbTimeout
  split
  · with_reducible assumption
  · lift_lets
    intro x0
    apply opOutcome_ok
    apply opstatTarget_ok
    apply aryUpd_ok
    with_reducible assumption

theorem pbWrite_ok (k : Nat) (o : Nat) (bs : List Byte) (p : Bool) (d : Dev) (hd : d.ok) : (pbWrite k o bs p d).ok := by
  unfold pbWrite
  apply aryUpd_ok
  with_reducible assumption

theorem winWrite_ok (master : Nat) (k : Nat) (o : Nat) (bs : List Byte) (p : Bool) (d : Dev) (hd : d.ok) : (winWrite master k o bs p d).ok := by
  unfold winWrite
  lift_lets
  intro x0 x1 x2 x3 x4 x5 x6 x7 x8
  have h10 : (∀ z9, Dev.ok z9 → Dev.ok (x6 z9)) := by
    intro y11 y12
    dsimp only [x6]
    apply ite_ok
    · apply arySuspend_ok
      with_reducible assumption
    · apply aryResume_ok
      with_reducible assumption
  have h14 : (∀ z13, Dev.ok z13 → Dev.ok (x7 z13)) := by
    intro y15 y16
    dsimp only [x7]
    apply ite_ok
    · apply h10
      with_reducible assumption
    · apply ite_ok
      · apply aryUpd_ok
        with_reducible assumption
      · apply ite_ok
        · apply pbCommit_ok
          with_reducible assumption
        · apply ite_ok
          · apply pbWrite_ok
            with_reducible assumption
          · apply strayWrite_ok
            with_reducible assumption
  have h17 : (Dev.ok x8) := by
    dsimp only [x8]
    apply seqErr_ok
    with_reducible assumption
  split
  · apply h14
    with_reducible assumption
  · apply ite_ok
    · apply seqThird_ok
      with_reducible assumption
    · apply ite_ok
      · apply h14
        with_reducible assumption
      · apply ite_ok
        · apply aryUpd_ok
          with_reducible assumption
        · apply ite_ok
          · with_reducible assumption
          · apply h14
            with_reducible assumption

theorem stackLoad_ok (k : Nat) (d : Dev) (hd : d.ok) : (stackLoad k d).ok := by
  unfold stackLoad
  lift_lets
  intro x0 x1 x2 x3 x4
  have h5 : (Dev.ok x2) := by
    dsimp only [x2]
    apply aryUpd_ok
    with_reducible assumption
  have h6 : (Dev.ok x3) := by
    dsimp only [x3]
    apply wr_ok
    with_reducible assumption
  have h7 : (Dev.ok x4) := by
    dsimp only [x4]
    apply ite_ok
    · apply sf_ok
      apply sf_ok
      apply sf_ok
      apply sf_ok
      apply sf_ok
      apply aryUpd_ok
      with_reducible assumption
    · apply raise_ok
      apply sf_ok
      with_reducible assumption
  apply ite_ok
  · with_reducible assumption
  · apply regionsLoad_ok
    with_reducible assumption

theorem xSeqTimeout_ok (k : Nat) (d : Dev) (hd : d.ok) : (xSeqTimeout k d).ok := by
  unfold xSeqTimeout
  apply ite_ok
  · apply seqErr_ok
    with_reducible assumption
  · with_reducible assumption

end Sys2Proof.Machine
end

