-- ==== Sys2Proof/Laws/KeepsHub.lean ====
section
/-! SUPPORT. Every operation of Machine/Hub.lean keeps the canonical form of the sparse stores
(`Dev.ok`): memory, error marks, poison marks and registers. -/

namespace Sys2Proof.Machine

theorem objRead_ok (n : Nat) (d : Dev) (hd : d.ok) : (objRead n d).2.ok := by
  unfold objRead
  lift_lets
  intro x0
  have h1 : (Dev.ok (x0).2) := by
    dsimp only [x0]
    apply readMem_ok
    with_reducible assumption
  with_reducible assumption

theorem objStore_ok (n : Nat) (o : SyncObj) (d : Dev) (hd : d.ok) : (objStore n o d).ok := by
  unfold objStore
  apply writeMem_ok
  with_reducible assumption

theorem syncPoison_ok (master : Nat) (n : Nat) (d : Dev) (hd : d.ok) : (syncPoison master n d).ok := by
  unfold syncPoison
  apply consume_ok
  apply sf_ok
  apply sf_ok
  with_reducible assumption

theorem tryAcquire_ok (master : Nat) (n : Nat) (d : Dev) (hd : d.ok) : (tryAcquire master n d).2.ok := by
  unfold tryAcquire
  lift_lets
  intro x0 x1
  have h2 : (Dev.ok (x0).2) := by
    dsimp only [x0]
    apply objRead_ok
    with_reducible assumption
  apply ite2_ok
  · dsimp only
    apply ite_ok
    · apply syncPoison_ok
      with_reducible assumption
    · with_reducible assumption
  · apply ite2_ok
    · apply ite2_ok
      · dsimp only
        apply objStore_ok
        with_reducible assumption
      · with_reducible assumption
    · with_reducible assumption

end Sys2Proof.Machine
end

