-- ==== Sys2Proof/Laws/KeepsLinkSend.lean ====
section
/-! SUPPORT. Every operation of Machine/LinkSend.lean keeps the canonical form of the sparse stores
(`Dev.ok`): memory, error marks, poison marks and registers. -/

namespace Sys2Proof.Machine

theorem flitCount_ok (r : Reg) (n : Nat) (d : Dev) (hd : d.ok) : (flitCount r n d).ok := by
  unfold flitCount
  lift_lets
  intro x0
  apply whenB_ok
  · intro y1 y2
    apply raise_ok
    with_reducible assumption
  · apply cntAdd64_ok
    with_reducible assumption

theorem setLinks_ok (l : Links) (d : Dev) (hd : d.ok) : (setLinks l d).ok := by
  unfold setLinks
  apply mk_ok
  with_reducible assumption

theorem portPut_ok (n : Nat) (p : LinkPort) (d : Dev) (hd : d.ok) : (portPut n p d).ok := by
  unfold portPut
  lift_lets
  intro x0
  apply setLinks_ok
  with_reducible assumption

theorem flitOut_ok (n : Nat) (f : Flit) (d : Dev) (hd : d.ok) : (flitOut n f d).ok := by
  unfold flitOut
  lift_lets
  intro x0
  apply flitCount_ok
  apply emit_ok
  with_reducible assumption

theorem flitSeq_ok (n : Nat) (type : Nat) (slots : List Slot) (d : Dev) (hd : d.ok) : (flitSeq n type slots d).ok := by
  unfold flitSeq
  lift_lets
  intro x0 x1 x2 x3 x4
  have h5 : (Dev.ok x4) := by
    dsimp only [x4]
    apply portPut_ok
    with_reducible assumption
  apply flitOut_ok
  with_reducible assumption

theorem linkPump_ok (a0 : Nat) (a1 : Nat) (a2 : Dev) (ha2 : a2.ok) : (linkPump a0 a1 a2).ok := by
  induction a0 generalizing a1 a2
  · unfold linkPump
    with_reducible assumption
  · rename_i u0 ih
    unfold linkPump
    lift_lets
    intro x0 x1
    apply ite_ok
    · apply ite_ok
      · with_reducible assumption
      · apply ih
        apply flitSeq_ok
        apply portPut_ok
        with_reducible assumption
    · with_reducible assumption

theorem portUpd_ok (n : Nat) (f : LinkPort → LinkPort) (d : Dev) (hd : d.ok) : (portUpd n f d).ok := by
  unfold portUpd
  apply portPut_ok
  with_reducible assumption

theorem linkSlots_ok (n : Nat) (ss : List Slot) (d : Dev) (hd : d.ok) : (linkSlots n ss d).ok := by
  unfold linkSlots
  lift_lets
  intro x0
  have h1 : (Dev.ok x0) := by
    dsimp only [x0]
    apply portUpd_ok
    with_reducible assumption
  apply linkPump_ok
  with_reducible assumption

theorem slotMake_ok (n : Nat) (ch : Nat) (data : List Byte) (flags : Nat) (d : Dev) (hd : d.ok) : (slotMake n ch data flags d).2.ok := by
  unfold slotMake
  lift_lets
  intro x0 x1 x2 x3 x4
  have h5 : (Dev.ok x4) := by
    dsimp only [x4]
    apply whenB_ok
    · intro y6 y7
      apply ueEntry_ok
      with_reducible assumption
    · apply sf_ok
      with_reducible assumption
  apply ite2_ok
  · with_reducible assumption
  · with_reducible assumption

theorem msgSlots_ok (n : Nat) (m : Msg) (d : Dev) (hd : d.ok) : (msgSlots n m d).2.ok := by
  unfold msgSlots
  lift_lets
  intro x0
  apply foldl2_ok
  · intro y1 y2 y3
    lift_lets
    intro x4 x5
    have h6 : (Dev.ok (x5).2) := by
      dsimp only [x5]
      apply slotMake_ok
      with_reducible assumption
    with_reducible assumption
  · with_reducible assumption

theorem setPortState_ok (n : Nat) (s : Nat) (d : Dev) (hd : d.ok) : (setPortState n s d).ok := by
  unfold setPortState
  apply sf_ok
  with_reducible assumption

theorem msgPort_ok (n : Nat) (m : Msg) (d : Dev) (hd : d.ok) : (msgPort n m d).ok := by
  unfold msgPort
  lift_lets
  intro x0 x1
  have h2 : (Dev.ok (x0).2) := by
    dsimp only [x0]
    apply msgSlots_ok
    with_reducible assumption
  have h3 : (Dev.ok x1) := by
    dsimp only [x1]
    apply portUpd_ok
    with_reducible assumption
  apply ite_ok
  · apply linkSlots_ok
    with_reducible assumption
  · apply ite_ok
    · apply emit_ok
      apply portUpd_ok
      apply setPortState_ok
      with_reducible assumption
    · with_reducible assumption

theorem sendMsg_ok (m : Msg) (d : Dev) (hd : d.ok) : (sendMsg m d).2.ok := by
  unfold sendMsg
  split
  · dsimp only
    apply msgPort_ok
    with_reducible assumption
  · with_reducible assumption

theorem routeErr_ok (d : Dev) (hd : d.ok) : (routeErr d).ok := by
  unfold routeErr
  apply cntAdd_ok
  with_reducible assumption

theorem reqSend_ok (tag : Nat) (d : Dev) (hd : d.ok) : (reqSend tag d).2.ok := by
  unfold reqSend
  split
  · with_reducible assumption
  · lift_lets
    intro x0
    split
    · rename_i w1 w2 w3 w4 w5 w6
      have h7 := snd_of_eq w6 (by
        apply sendMsg_ok
        apply setLinks_ok
        with_reducible assumption)
      with_reducible assumption
    · rename_i w8 w9 w10 w11 w12 w13
      have h14 := snd_of_eq w13 (by
        apply sendMsg_ok
        apply setLinks_ok
        with_reducible assumption)
      lift_lets
      intro x15
      dsimp only
      apply busError_ok
      apply routeErr_ok
      apply setLinks_ok
      with_reducible assumption

theorem request_ok (k : ReqKind) (m : Msg) (d : Dev) (hd : d.ok) : (request k m d).2.ok := by
  unfold request
  lift_lets
  intro x0 x1 x2 x3 x4 x5
  have h6 : (Dev.ok x5) := by
    dsimp only [x5]
    apply setLinks_ok
    with_reducible assumption
  apply ite2_ok
  · apply reqSend_ok
    with_reducible assumption
  · with_reducible assumption

end Sys2Proof.Machine
end

