-- ==== Sys2Proof/Laws/KeepsIc.lean ====
section
/-! SUPPORT. Every operation of Machine/Ic.lean keeps the canonical form of the sparse stores
(`Dev.ok`): memory, error marks, poison marks and registers. -/

namespace Sys2Proof.Machine

theorem icSetPend_ok (id : Nat) (d : Dev) (hd : d.ok) : (icSetPend id d).ok := by
  unfold icSetPend
  apply ite_ok
  · apply sf_ok
    with_reducible assumption
  · apply raise_ok
    with_reducible assumption

theorem icClrPend_ok (id : Nat) (raised : Bool) (d : Dev) (hd : d.ok) : (icClrPend id raised d).ok := by
  unfold icClrPend
  apply ite_ok
  · apply sf_ok
    with_reducible assumption
  · apply ite_ok
    · apply raise_ok
      with_reducible assumption
    · apply bankSet_ok
      with_reducible assumption

theorem icAccept_ok (c : Nat) (raised : Bool) (d : Dev) (hd : d.ok) : (icAccept c raised d).ok := by
  unfold icAccept
  lift_lets
  intro x0 x1 x2 x3 x4 x5 x6 x7
  have h8 : (Dev.ok x2) := by
    dsimp only [x2]
    apply mk_ok
    with_reducible assumption
  have h9 : (Dev.ok x3) := by
    dsimp only [x3]
    apply emit_ok
    with_reducible assumption
  have h10 : (Dev.ok x4) := by
    dsimp only [x4]
    apply bankSet_ok
    with_reducible assumption
  have h11 : (Dev.ok x6) := by
    dsimp only [x6]
    apply mk_ok
    with_reducible assumption
  have h12 : (Dev.ok x7) := by
    dsimp only [x7]
    apply ite_ok
    · apply sf_ok
      apply bankSet_ok
      with_reducible assumption
    · with_reducible assumption
  apply ite_ok
  · with_reducible assumption
  · apply ite_ok
    · apply cntAdd_ok
      with_reducible assumption
    · apply icPresent_ok
      with_reducible assumption

theorem icEoi_ok (c : Nat) (id : Nat) (d : Dev) (hd : d.ok) : (icEoi c id d).ok := by
  unfold icEoi
  lift_lets
  intro x0
  apply ite_ok
  · with_reducible assumption
  · apply ite_ok
    · apply icPresent_ok
      apply mk_ok
      with_reducible assumption
    · apply sf_ok
      with_reducible assumption

theorem icEnWrite_ok (m : Nat) (v : Nat) (race : Option Nat) (d : Dev) (hd : d.ok) : (icEnWrite m v race d).ok := by
  unfold icEnWrite
  lift_lets
  intro x0
  have h1 : (Dev.ok x0) := by
    dsimp only [x0]
    split
    · with_reducible assumption
    · apply ite_ok
      · apply sf_ok
        apply sf_ok
        apply icAccept_ok
        with_reducible assumption
      · apply icAccept_ok
        with_reducible assumption
  apply icPresent_ok
  apply wr_ok
  with_reducible assumption

theorem icAppOn_ok (d : Dev) (hd : d.ok) : (icAppOn d).ok := by
  unfold icAppOn
  apply icPresent_ok
  apply mk_ok
  with_reducible assumption

end Sys2Proof.Machine
end

