-- ==== Sys2Proof/Laws/KeepsViews.lean ====
section
/-! SUPPORT. Every operation of Machine/Views.lean keeps the canonical form of the sparse stores
(`Dev.ok`): memory, error marks, poison marks and registers. -/

namespace Sys2Proof.Machine

theorem regReadEff_ok (r : RegAt) (d : Dev) (hd : d.ok) : (regReadEff r d).ok := by
  unfold regReadEff
  lift_lets
  intro x0
  apply ite_ok
  · apply intgUpd_ok
    with_reducible assumption
  · apply ite_ok
    · with_reducible assumption
    · apply wr_ok
      with_reducible assumption

theorem regRead_ok (a : Nat) (n : Nat) (d : Dev) (hd : d.ok) : (regRead a n d).2.ok := by
  unfold regRead
  lift_lets
  intro x0
  have h1 : (Dev.ok (x0).2) := by
    dsimp only [x0]
    apply foldl2_ok
    · intro y2 y3 y4
      dsimp only
      apply regReadEff_ok
      with_reducible assumption
    · with_reducible assumption
  apply ite2_ok
  · with_reducible assumption
  · apply ite2_ok
    · with_reducible assumption
    · with_reducible assumption

end Sys2Proof.Machine
end

