-- ==== Sys2Proof/Laws/KeepsMaster.lean ====
section
/-! SUPPORT. Every operation of Machine/Master.lean keeps the canonical form of the sparse stores
(`Dev.ok`): memory, error marks, poison marks and registers. -/

namespace Sys2Proof.Machine

theorem outsideEnd_ok (link : Bool) (d : Dev) (hd : d.ok) : (outsideEnd link d).2.ok := by
  unfold outsideEnd
  lift_lets
  intro x0 x1
  have h2 : (Dev.ok (x0).2) := by
    dsimp only [x0]
    apply takeFree_ok
    with_reducible assumption
  with_reducible assumption

theorem ownSense_ok (k : Nat) (page : Nat) (d : Dev) (hd : d.ok) : (ownSense k page d).ok := by
  unfold ownSense
  lift_lets
  intro x0 x1
  have h2 : (Dev.ok x1) := by
    dsimp only [x1]
    apply ite_ok
    · with_reducible assumption
    · apply slotOpen_ok
      with_reducible assumption
  apply aryUpd_ok
  apply senseCount_ok
  with_reducible assumption

theorem winOwn_ok (k : Nat) (o : Nat) (n : Nat) (d : Dev) (hd : d.ok) : (winOwn k o n d).2.ok := by
  unfold winOwn
  apply foldl2_ok
  · intro y0 y1 y2
    split
    · with_reducible assumption
    · lift_lets
      intro x3 x4 x5 x6 x7 x8
      have h9 : (Dev.ok x3) := by
        dsimp only [x3]
        with_reducible assumption
      have h10 : (Dev.ok (x8).2) := by
        dsimp only [x8]
        apply readMem_ok
        apply ownSense_ok
        with_reducible assumption
      apply ite2_ok
      · dsimp only
        apply sf_ok
        with_reducible assumption
      · apply ite2_ok
        · with_reducible assumption
        · apply ite2_ok
          · dsimp only
            apply sf_ok
            with_reducible assumption
          · split
            · lift_lets
              intro x11
              have h12 : (Dev.ok (x11).2) := by
                dsimp only [x11]
                apply readReg_ok
                with_reducible assumption
              with_reducible assumption
            · apply ite2_ok
              · with_reducible assumption
              · dsimp only
                apply sf_ok
                with_reducible assumption
  · with_reducible assumption

theorem syncGet_ok (master : Nat) (a : Nat) (n : Nat) (d : Dev) (hd : d.ok) : (syncGet master a n d).2.ok := by
  unfold syncGet
  dsimp only
  apply ite2_ok
  · exact readMem_ok _ _ _ hd
  · apply ite2_ok
    · exact tryAcquire_ok _ _ _ hd
    · apply ite2_ok
      · exact readMem_ok _ _ _ hd
      · exact hd

theorem ownServe_ok (master : Nat) (a : Nat) (n : Nat) (d : Dev) (hd : d.ok) : (ownServe master a n d).2.ok := by
  unfold ownServe
  split
  · apply winOwn_ok
    with_reducible assumption
  · lift_lets
    intro x0
    have h1 : (Dev.ok (x0).2) := by
      dsimp only [x0]
      apply regRead_ok
      with_reducible assumption
    with_reducible assumption
  · apply foldl2_ok
    · intro y2 y3 y4
      split
      · with_reducible assumption
      · split
        · rename_i w5 w6 w7 w8 w9 w10 w11 w12 w13
          have h14 := snd_of_eq w13 (by
            apply syncGet_ok
            with_reducible assumption)
          with_reducible assumption
        · rename_i w15 w16 w17 w18 w19 w20 w21 w22
          have h23 := snd_of_eq w22 (by
            apply syncGet_ok
            with_reducible assumption)
          with_reducible assumption
    · with_reducible assumption
  · with_reducible assumption
  · lift_lets
    intro x24
    have h25 : (Dev.ok (x24).2) := by
      dsimp only [x24]
      apply readMem_ok
      with_reducible assumption
    with_reducible assumption

theorem ownSend_ok (ms : List Msg) (d : Dev) (hd : d.ok) : (ownSend ms d).2.ok := by
  unfold ownSend
  apply foldl2_ok
  · intro y0 y1 y2
    apply ite2_ok
    · apply request_ok
      with_reducible assumption
    · with_reducible assumption
  · with_reducible assumption

theorem ownEnd_ok (link : Bool) (master : Nat) (fa : Nat) (write : Bool) (d : Dev) (hd : d.ok) : (ownEnd link master fa write d).2.2.ok := by
  unfold ownEnd
  split
  · rename_i w0 w1 w2 w3 w4
    have h5 := snd_of_eq w4 (by
      apply outsideEnd_ok
      with_reducible assumption)
    dsimp only
    apply busError_ok
    with_reducible assumption
  · rename_i w6 w7 w8 w9
    have h10 := snd_of_eq w9 (by
      apply outsideEnd_ok
      with_reducible assumption)
    with_reducible assumption

theorem ownCause_ok (master : Nat) (fa : Nat) (a : Nat) (n : Nat) (write : Bool) (d : Dev) (hd : d.ok) : (ownCause master fa a n write d).2.ok := by
  unfold ownCause
  apply ite2_ok
  · dsimp only
    apply busError_ok
    with_reducible assumption
  · split
    · with_reducible assumption
    · lift_lets
      intro x0
      have h1 : (Dev.ok (x0).2) := by
        dsimp only [x0]
        apply takeFree_ok
        with_reducible assumption
      apply ite2_ok
      · apply ite2_ok
        · with_reducible assumption
        · dsimp only
          apply busError_ok
          with_reducible assumption
      · dsimp only
        apply busError_ok
        with_reducible assumption

theorem masterRead_ok (master : Nat) (fa : Nat) (n : Nat) (d : Dev) (hd : d.ok) : (masterRead master fa n d).2.ok := by
  unfold masterRead
  lift_lets
  intro x0
  have h3 : (∀ z1 z2, Dev.ok z2 → Dev.ok ((x0 z1 z2)).2) := by
    intro y4 y5 y6
    dsimp only [x0]
    split
    · rename_i w7 w8 w9 w10 w11
      have h12 := snd2_of_eq w11 (by
        apply ownEnd_ok
        with_reducible assumption)
      with_reducible assumption
    · rename_i w13 w14 w15 w16
      have h17 := snd2_of_eq w16 (by
        apply ownEnd_ok
        with_reducible assumption)
      with_reducible assumption
  split
  · apply ite2_ok
    · apply ite2_ok
      · split
        · rename_i w18 w19 w20 w21 w22
          have h23 := snd_of_eq w22 (by
            apply ownSend_ok
            with_reducible assumption)
          apply h3
          with_reducible assumption
        · rename_i w24 w25 w26 w27 w28
          have h29 := snd_of_eq w28 (by
            apply ownSend_ok
            with_reducible assumption)
          with_reducible assumption
      · dsimp only
        apply busError_ok
        with_reducible assumption
    · dsimp only
      apply busError_ok
      with_reducible assumption
  · lift_lets
    intro x30
    split
    · rename_i w31 w32 w33 w34 w35 w36 w37
      have h38 := snd_of_eq w37 (by
        apply ownCause_ok
        with_reducible assumption)
      with_reducible assumption
    · rename_i w39 w40 w41 w42 w43 w44
      have h45 := snd_of_eq w44 (by
        apply ownCause_ok
        with_reducible assumption)
      apply ite2_ok
      · apply h3
        with_reducible assumption
      · split
        · rename_i w46 w47 w48 w49
          have h50 := snd_of_eq w49 (by
            apply ownServe_ok
            with_reducible assumption)
          with_reducible assumption
        · rename_i w51 w52 w53
          have h54 := snd_of_eq w53 (by
            apply ownServe_ok
            with_reducible assumption)
          dsimp only
          apply busError_ok
          with_reducible assumption

theorem post_ok (master : Nat) (a : Nat) (bs : List Byte) (p : Bool) (d : Dev) (hd : d.ok) : (post master a bs p d).ok := by
  unfold post
  lift_lets
  intro x0
  apply mk_ok
  with_reducible assumption

theorem masterWrite_ok (master : Nat) (fa : Nat) (bs : List Byte) (p : Bool) (d : Dev) (hd : d.ok) : (masterWrite master fa bs p d).2.ok := by
  unfold masterWrite
  lift_lets
  intro x0
  have h2 : (∀ z1, Dev.ok z1 → Dev.ok ((x0 z1)).2) := by
    intro y3 y4
    dsimp only [x0]
    apply busError_ok
    with_reducible assumption
  split
  · apply ite2_ok
    · apply ite2_ok
      · split
        · rename_i w5 w6 w7 w8 w9
          have h10 := snd_of_eq w9 (by
            apply ownSend_ok
            with_reducible assumption)
          split
          · rename_i w11 w12 w13 w14 w15
            have h16 := snd2_of_eq w15 (by
              apply ownEnd_ok
              with_reducible assumption)
            with_reducible assumption
          · rename_i w17 w18 w19 w20
            have h21 := snd2_of_eq w20 (by
              apply ownEnd_ok
              with_reducible assumption)
            with_reducible assumption
        · rename_i w22 w23 w24 w25 w26
          have h27 := snd_of_eq w26 (by
            apply ownSend_ok
            with_reducible assumption)
          with_reducible assumption
      · dsimp only
        apply busError_ok
        with_reducible assumption
    · dsimp only
      apply busError_ok
      with_reducible assumption
  · lift_lets
    intro x28
    split
    · rename_i w29 w30 w31 w32 w33 w34 w35
      have h36 := snd_of_eq w35 (by
        apply ownCause_ok
        with_reducible assumption)
      with_reducible assumption
    · rename_i w37 w38 w39 w40 w41 w42
      have h43 := snd_of_eq w42 (by
        apply ownCause_ok
        with_reducible assumption)
      split
      · dsimp only
        apply winWrite_ok
        with_reducible assumption
      · with_reducible assumption
      · dsimp only
        apply emit_ok
        with_reducible assumption
      · apply ite2_ok
        · dsimp only
          apply post_ok
          with_reducible assumption
        · apply h2
          with_reducible assumption
      · apply ite2_ok
        · dsimp only
          apply foldl_ok
          · intro y44 y45 y46
            apply post_ok
            with_reducible assumption
          · with_reducible assumption
        · apply h2
          with_reducible assumption
      · dsimp only
        apply writeMem_ok
        with_reducible assumption

theorem ringSignal_ok (n : Nat) (d : Dev) (hd : d.ok) : (ringSignal n d).ok := by
  unfold ringSignal
  apply raise_ok
  apply sf_ok
  with_reducible assumption

theorem ringStop_ok (n : Nat) (cause : Nat) (d : Dev) (hd : d.ok) : (ringStop n cause d).ok := by
  unfold ringStop
  lift_lets
  intro x0 x1
  have h2 : (Dev.ok x0) := by
    dsimp only [x0]
    apply sf_ok
    apply sf_ok
    apply sf_ok
    with_reducible assumption
  apply raise_ok
  apply mk_ok
  with_reducible assumption

theorem opFinish_ok (c : Cpl) (d : Dev) (hd : d.ok) : (opFinish c d).ok := by
  unfold opFinish
  lift_lets
  intro x0 x1 x2 x3
  have h4 : (Dev.ok x2) := by
    dsimp only [x2]
    apply mk_ok
    with_reducible assumption
  apply ite_ok
  · with_reducible assumption
  · split
    · apply ite_ok
      · apply mk_ok
        with_reducible assumption
      · with_reducible assumption
    · with_reducible assumption

theorem cplWrite_ok (c : Cpl) (d : Dev) (hd : d.ok) : (cplWrite c d).2.ok := by
  unfold cplWrite
  lift_lets
  intro x0 x1 x2 x3 x4
  split
  · rename_i w5 w6 w7
    have h8 := snd_of_eq w7 (by
      apply masterWrite_ok
      with_reducible assumption)
    dsimp only
    apply ringStop_ok
    with_reducible assumption
  · rename_i w9 w10 w11
    have h12 := snd_of_eq w11 (by
      apply masterWrite_ok
      with_reducible assumption)
    lift_lets
    intro x13 x14 x15 x16
    have h17 : (Dev.ok x13) := by
      dsimp only [x13]
      apply sf_ok
      with_reducible assumption
    have h18 : (Dev.ok x15) := by
      dsimp only [x15]
      apply sf_ok
      with_reducible assumption
    have h19 : (Dev.ok x16) := by
      dsimp only [x16]
      apply ite_ok
      · apply ringSignal_ok
        with_reducible assumption
      · with_reducible assumption
    dsimp only
    apply opFinish_ok
    with_reducible assumption

theorem cplDrain_ok (a0 : Nat) (a1 : Nat) (a2 : Dev) (ha2 : a2.ok) : (cplDrain a0 a1 a2).ok := by
  induction a0 generalizing a1 a2
  · unfold cplDrain
    with_reducible assumption
  · rename_i u0 ih
    unfold cplDrain
    apply ite_ok
    · split
      · with_reducible assumption
      · split
        · rename_i w0 w1 w2 w3 w4 w5 w6
          have h7 := snd_of_eq w6 (by
            apply cplWrite_ok
            with_reducible assumption)
          with_reducible assumption
        · rename_i w8 w9 w10 w11 w12 w13 w14
          have h15 := snd_of_eq w14 (by
            apply cplWrite_ok
            with_reducible assumption)
          lift_lets
          intro x16
          apply ih
          apply mk_ok
          with_reducible assumption
    · with_reducible assumption

theorem complete_ok (c : Cpl) (d : Dev) (hd : d.ok) : (complete c d).ok := by
  unfold complete
  lift_lets
  intro x0 x1 x2
  apply cplDrain_ok
  apply mk_ok
  with_reducible assumption

theorem finish_ok (a0 : CmdHdr) (status : Nat) (r0 : Nat) (r1 : Nat) (d : Dev) (hd : d.ok) : (finish a0 status r0 r1 d).ok := by
  unfold finish
  apply complete_ok
  with_reducible assumption

end Sys2Proof.Machine
end

