-- ==== Sys2Proof/Laws/KeepsFifo.lean ====
section
/-! SUPPORT. Every operation of Machine/Fifo.lean keeps the canonical form of the sparse stores
(`Dev.ok`): memory, error marks, poison marks and registers. -/

namespace Sys2Proof.Machine

theorem setFifo_ok (id : Nat) (f : Fifo) (d : Dev) (hd : d.ok) : (setFifo id f d).ok := by
  unfold setFifo
  apply mk_ok
  with_reducible assumption

theorem prodCheck_ok (id : Nat) (d : Dev) (hd : d.ok) : (prodCheck id d).ok := by
  unfold prodCheck
  split
  · with_reducible assumption
  · lift_lets
    intro x0
    apply ite_ok
    · apply ite_ok
      · apply setFifo_ok
        with_reducible assumption
      · with_reducible assumption
    · apply ite_ok
      · apply raise_ok
        apply sf_ok
        apply setFifo_ok
        with_reducible assumption
      · with_reducible assumption

theorem prodCheckAll_ok (d : Dev) (hd : d.ok) : (prodCheckAll d).ok := by
  unfold prodCheckAll
  apply forEach_ok
  · intro y0 y1 y2
    apply prodCheck_ok
    with_reducible assumption
  · with_reducible assumption

theorem pinDrive_ok (p : Nat) (d : Dev) (hd : d.ok) : (pinDrive p d).ok := by
  unfold pinDrive
  apply ite_ok
  · with_reducible assumption
  · apply ite_ok
    · apply sf_ok
      with_reducible assumption
    · apply ite_ok
      · apply sf_ok
        with_reducible assumption
      · with_reducible assumption

theorem pinHoldExpiry_ok (p : Nat) (d : Dev) (hd : d.ok) : (pinHoldExpiry p d).ok := by
  unfold pinHoldExpiry
  apply ite_ok
  · with_reducible assumption
  · apply sf_ok
    with_reducible assumption

theorem pinForceAll_ok (on : Bool) (d : Dev) (hd : d.ok) : (pinForceAll on d).ok := by
  unfold pinForceAll
  lift_lets
  intro x0
  have h1 : (Dev.ok x0) := by
    dsimp only [x0]
    apply mk_ok
    with_reducible assumption
  apply ite_ok
  · apply sf_ok
    with_reducible assumption
  · apply forN_ok
    · intro y2 y3 y4
      apply pinDrive_ok
      with_reducible assumption
    · with_reducible assumption

theorem fifoLevel_ok (id : Nat) (d : Dev) (hd : d.ok) : (fifoLevel id d).ok := by
  unfold fifoLevel
  split
  · with_reducible assumption
  · lift_lets
    intro x0 x1 x2
    have h3 : (Dev.ok x1) := by
      dsimp only [x1]
      apply ite_ok
      · apply sf_ok
        with_reducible assumption
      · with_reducible assumption
    have h4 : (Dev.ok x2) := by
      dsimp only [x2]
      apply ite_ok
      · apply sf_ok
        with_reducible assumption
      · apply ite_ok
        · apply sf_ok
          with_reducible assumption
        · with_reducible assumption
    apply pinDrive_ok
    with_reducible assumption

theorem markFullCheck_ok (id : Nat) (d : Dev) (hd : d.ok) : (markFullCheck id d).ok := by
  unfold markFullCheck
  split
  · apply ite_ok
    · apply raise_ok
      apply sf_ok
      with_reducible assumption
    · with_reducible assumption
  · with_reducible assumption

theorem fifoPut_ok (id : Nat) (it : Item) (d : Dev) (hd : d.ok) : (fifoPut id it d).ok := by
  unfold fifoPut
  split
  · with_reducible assumption
  · lift_lets
    intro x0 x1 x2 x3 x4 x5 x6 x7 x8 x9 x10 x11 x12 x13 x14 x15 x16 x17 x18 x19 x20 x21 x22
    have h23 : (Dev.ok x6) := by
      dsimp only [x6]
      apply whenB_ok
      · intro y24 y25
        apply sf_ok
        with_reducible assumption
      · with_reducible assumption
    have h26 : (Dev.ok x7) := by
      dsimp only [x7]
      apply whenB_ok
      · intro y27 y28
        apply ueEntry_ok
        with_reducible assumption
      · with_reducible assumption
    have h29 : (Dev.ok x17) := by
      dsimp only [x17]
      apply setFifo_ok
      with_reducible assumption
    have h30 : (Dev.ok x18) := by
      dsimp only [x18]
      apply whenB_ok
      · intro y31 y32
        apply raise_ok
        apply sf_ok
        with_reducible assumption
      · with_reducible assumption
    have h33 : (Dev.ok x19) := by
      dsimp only [x19]
      apply whenB_ok
      · intro y34 y35
        apply sf_ok
        with_reducible assumption
      · with_reducible assumption
    have h36 : (Dev.ok x21) := by
      dsimp only [x21]
      apply cntAdd64_ok
      with_reducible assumption
    have h37 : (Dev.ok x22) := by
      dsimp only [x22]
      apply whenB_ok
      · intro y38 y39
        apply raise_ok
        with_reducible assumption
      · with_reducible assumption
    apply markFullCheck_ok
    apply fifoLevel_ok
    with_reducible assumption

theorem fifoDrain_ok (a0 : Nat) (a1 : Nat) (a2 : Dev) (ha2 : a2.ok) : (fifoDrain a0 a1 a2).ok := by
  induction a0 generalizing a1 a2
  · unfold fifoDrain
    with_reducible assumption
  · rename_i u0 ih
    unfold fifoDrain
    split
    · with_reducible assumption
    · split
      · with_reducible assumption
      · apply ite_ok
        · apply ih
          apply fifoPut_ok
          apply setFifo_ok
          with_reducible assumption
        · with_reducible assumption

theorem fifoSend_ok (id : Nat) (its : List Item) (d : Dev) (hd : d.ok) : (fifoSend id its d).ok := by
  unfold fifoSend
  split
  · with_reducible assumption
  · lift_lets
    intro x0
    apply fifoDrain_ok
    apply setFifo_ok
    with_reducible assumption

theorem creditGrant_ok (id : Nat) (n : Nat) (d : Dev) (hd : d.ok) : (creditGrant id n d).ok := by
  unfold creditGrant
  split
  · with_reducible assumption
  · lift_lets
    intro x0
    apply fifoDrain_ok
    apply setFifo_ok
    with_reducible assumption

theorem fifoFree_ok (id : Nat) (d : Dev) (hd : d.ok) : (fifoFree id d).ok := by
  unfold fifoFree
  split
  · with_reducible assumption
  · lift_lets
    intro x0 x1 x2 x3 x4 x5 x6
    have h7 : (Dev.ok x4) := by
      dsimp only [x4]
      apply setFifo_ok
      with_reducible assumption
    have h8 : (Dev.ok x5) := by
      dsimp only [x5]
      apply sf_ok
      with_reducible assumption
    have h9 : (Dev.ok x6) := by
      dsimp only [x6]
      apply fifoLevel_ok
      with_reducible assumption
    apply ite_ok
    · with_reducible assumption
    · apply prodCheck_ok
      apply ite_ok
      · apply fifoDrain_ok
        with_reducible assumption
      · with_reducible assumption

theorem setDst_ok (id : Nat) (k : Nat) (x : FDst) (d : Dev) (hd : d.ok) : (setDst id k x d).ok := by
  unfold setDst
  split
  · apply setFifo_ok
    with_reducible assumption
  · with_reducible assumption

theorem fifoRead_ok (id : Nat) (k : Nat) (n : Nat) (d : Dev) (hd : d.ok) : (fifoRead id k n d).ok := by
  unfold fifoRead
  split
  · with_reducible assumption
  · split
    · with_reducible assumption
    · apply markFullCheck_ok
      apply fifoFree_ok
      apply setDst_ok
      with_reducible assumption

theorem fifoRelease_ok (id : Nat) (k : Nat) (d : Dev) (hd : d.ok) : (fifoRelease id k d).ok := by
  unfold fifoRelease
  split
  · with_reducible assumption
  · split
    · with_reducible assumption
    · lift_lets
      intro x0 x1
      apply ite_ok
      · with_reducible assumption
      · apply fifoFree_ok
        apply setDst_ok
        with_reducible assumption

theorem fifoMark_ok (id : Nat) (k : Nat) (d : Dev) (hd : d.ok) : (fifoMark id k d).ok := by
  unfold fifoMark
  split
  · with_reducible assumption
  · split
    · with_reducible assumption
    · lift_lets
      intro x0 x1
      apply ite_ok
      · apply markFullCheck_ok
        apply fifoFree_ok
        apply setDst_ok
        with_reducible assumption
      · with_reducible assumption

theorem fifoRewind_ok (id : Nat) (k : Nat) (d : Dev) (hd : d.ok) : (fifoRewind id k d).ok := by
  unfold fifoRewind
  split
  · with_reducible assumption
  · split
    · with_reducible assumption
    · split
      · apply setDst_ok
        with_reducible assumption
      · with_reducible assumption

theorem fifoErrCnt_ok (id : Nat) (f : Fld) (d : Dev) (hd : d.ok) : (fifoErrCnt id f d).ok := by
  unfold fifoErrCnt
  lift_lets
  intro x0 x1 x2
  have h3 : (Dev.ok x2) := by
    dsimp only [x2]
    apply sf_ok
    with_reducible assumption
  apply ite_ok
  · with_reducible assumption
  · apply ite_ok
    · apply raise_ok
      apply sf_ok
      with_reducible assumption
    · with_reducible assumption

theorem itemCheck_ok (id : Nat) (it : Item) (d : Dev) (hd : d.ok) : (itemCheck id it d).2.ok := by
  unfold itemCheck
  lift_lets
  intro x0 x1
  have h2 : (Dev.ok (x1).2) := by
    dsimp only [x1]
    apply ite2_ok
    · split
      · dsimp only
        apply ceLog_ok
        apply fifoErrCnt_ok
        with_reducible assumption
      · dsimp only
        apply ueDecode_ok
        with_reducible assumption
      · with_reducible assumption
    · with_reducible assumption
  with_reducible assumption

theorem fifoPresent_ok (id : Nat) (k : Nat) (upset : ErrPat) (d : Dev) (hd : d.ok) : (fifoPresent id k upset d).2.ok := by
  unfold fifoPresent
  split
  · with_reducible assumption
  · split
    · with_reducible assumption
    · apply ite2_ok
      · split
        · with_reducible assumption
        · lift_lets
          intro x0 x1 x2
          have h3 : (Dev.ok (x1).2) := by
            dsimp only [x1]
            apply itemCheck_ok
            with_reducible assumption
          dsimp only
          apply whenB_ok
          · intro y4 y5
            apply fifoErrCnt_ok
            with_reducible assumption
          · apply setFifo_ok
            with_reducible assumption
      · with_reducible assumption

theorem portsOf_ok (a0 : Nat) (g : Nat → Nat → FDst → Dev → Dev) (d : Dev) (hg : ∀ v0 v1 v2 v3, v3.ok → (g v0 v1 v2 v3).ok) (hd : d.ok) : (portsOf a0 g d).ok := by
  unfold portsOf
  apply foldl_ok
  · intro y0 y1 y2
    apply ite_ok
    · apply foldl_ok
      · intro y3 y4 y5
        apply ite_ok
        · apply hg
          with_reducible assumption
        · with_reducible assumption
      · with_reducible assumption
    · with_reducible assumption
  · with_reducible assumption

theorem killMarks_ok (a0 : Nat) (d : Dev) (hd : d.ok) : (killMarks a0 d).ok := by
  unfold killMarks
  apply portsOf_ok
  · intro y0 y1 y2 y3 y4
    apply ite_ok
    · with_reducible assumption
    · apply fifoFree_ok
      apply setDst_ok
      with_reducible assumption
  · with_reducible assumption

theorem stagingLost_ok (a0 : Nat) (d : Dev) (hd : d.ok) : (stagingLost a0 d).ok := by
  unfold stagingLost
  apply portsOf_ok
  · intro y0 y1 y2 y3 y4
    apply ite_ok
    · with_reducible assumption
    · apply fifoRead_ok
      with_reducible assumption
  · with_reducible assumption

theorem portNext_ok (id : Nat) (k : Nat) (d : Dev) (hd : d.ok) : (portNext id k d).ok := by
  unfold portNext
  split
  · apply setDst_ok
    with_reducible assumption
  · with_reducible assumption

theorem fifoEndLast_ok (id : Nat) (d : Dev) (hd : d.ok) : (fifoEndLast id d).ok := by
  unfold fifoEndLast
  split
  · with_reducible assumption
  · lift_lets
    intro x0
    split
    · apply setFifo_ok
      with_reducible assumption
    · apply ite_ok
      · apply fifoSend_ok
        with_reducible assumption
      · apply sf_ok
        apply setFifo_ok
        with_reducible assumption
    · apply fifoSend_ok
      with_reducible assumption

theorem fifoWm_ok (id : Nat) (v : Nat) (d : Dev) (hd : d.ok) : (fifoWm id v d).ok := by
  unfold fifoWm
  split
  · with_reducible assumption
  · lift_lets
    intro x0 x1 x2
    apply ite_ok
    · apply sf_ok
      with_reducible assumption
    · apply sf_ok
      apply sf_ok
      with_reducible assumption

theorem fifoRegsReset_ok (id : Nat) (d : Dev) (hd : d.ok) : (fifoRegsReset id d).ok := by
  unfold fifoRegsReset
  apply wr_ok
  apply wr_ok
  apply wr_ok
  apply wr_ok
  apply wr_ok
  apply wr_ok
  with_reducible assumption

end Sys2Proof.Machine
end

