-- ==== Sys2Proof/Laws/KeepsInteg.lean ====
section
/-! SUPPORT. Every operation of Machine/Integ.lean keeps the canonical form of the sparse stores
(`Dev.ok`): memory, error marks, poison marks and registers. -/

namespace Sys2Proof.Machine

theorem scrubCell_ok (st : Nat) (i : Nat) (d : Dev) (hd : d.ok) : (scrubCell st i d).ok := by
  unfold scrubCell
  lift_lets
  intro x0
  apply ite_ok
  · with_reducible assumption
  · split
    · with_reducible assumption
    · apply errSet_ok
      apply ceLog_ok
      with_reducible assumption
    · apply markG_ok
      apply ueDecode_ok
      with_reducible assumption

theorem scrubRead_ok (st : Nat) (upset : ErrPat) (d : Dev) (hd : d.ok) : (scrubRead st upset d).ok := by
  unfold scrubRead
  lift_lets
  intro x0 x1 x2 x3 x4
  have h5 : (Dev.ok x2) := by
    dsimp only [x2]
    apply intgUpd_ok
    apply errSet_ok
    with_reducible assumption
  have h6 : (Dev.ok x3) := by
    dsimp only [x3]
    apply ite_ok
    · apply scrubCell_ok
      with_reducible assumption
    · apply readGran_ok
      with_reducible assumption
  apply ite_ok
  · with_reducible assumption
  · apply ite_ok
    · apply ite_ok
      · with_reducible assumption
      · apply intgUpd_ok
        with_reducible assumption
    · apply ite_ok
      · apply intgUpd_ok
        with_reducible assumption
      · apply intgUpd_ok
        with_reducible assumption

theorem scrubSlow_ok (st : Nat) (d : Dev) (hd : d.ok) : (scrubSlow st d).ok := by
  unfold scrubSlow
  apply ite_ok
  · with_reducible assumption
  · apply raise_ok
    apply intgUpd_ok
    with_reducible assumption

theorem flipWrite_ok (v : BitVec 64) (d : Dev) (hd : d.ok) : (flipWrite v d).ok := by
  unfold flipWrite
  lift_lets
  intro x0 x1 x2 x3
  have h6 : (∀ z4 z5, Dev.ok z5 → Dev.ok (x2 z4 z5)) := by
    intro y7 y8 y9
    dsimp only [x2]
    apply sf_ok
    with_reducible assumption
  have h10 : (Dev.ok x3) := by
    dsimp only [x3]
    apply h6
    apply h6
    apply h6
    apply h6
    apply h6
    apply h6
    with_reducible assumption
  apply ite_ok
  · with_reducible assumption
  · apply h6
    with_reducible assumption

end Sys2Proof.Machine
end

