-- ==== Sys2Proof/Laws/KeepsImgCfg.lean ====
section
/-! SUPPORT. Every operation of Machine/ImgCfg.lean keeps the canonical form of the sparse stores
(`Dev.ok`): memory, error marks, poison marks and registers. -/

namespace Sys2Proof.Machine

theorem setSlotState_ok (s : Nat) (st : Nat) (d : Dev) (hd : d.ok) : (setSlotState s st d).ok := by
  unfold setSlotState
  apply ite_ok
  · apply sf_ok
    with_reducible assumption
  · apply sf_ok
    with_reducible assumption

theorem stageUpd_ok (key : Nat) (f : StageRt → StageRt) (d : Dev) (hd : d.ok) : (stageUpd key f d).ok := by
  unfold stageUpd
  lift_lets
  intro x0
  apply mk_ok
  with_reducible assumption

theorem rowPut_ok (key : Nat) (t : Nat) (r : RowRt) (d : Dev) (hd : d.ok) : (rowPut key t r d).ok := by
  unfold rowPut
  apply stageUpd_ok
  with_reducible assumption

theorem rowDel_ok (key : Nat) (t : Nat) (d : Dev) (hd : d.ok) : (rowDel key t d).ok := by
  unfold rowDel
  apply stageUpd_ok
  with_reducible assumption

end Sys2Proof.Machine
end

