-- ==== Sys2Proof/Laws/KeepsTm.lean ====
section
/-! SUPPORT. Every operation of Machine/Tm.lean keeps the canonical form of the sparse stores
(`Dev.ok`): memory, error marks, poison marks and registers. -/

namespace Sys2Proof.Machine

theorem setTm_ok (t : Tm) (d : Dev) (hd : d.ok) : (setTm t d).ok := by
  unfold setTm
  apply mk_ok
  with_reducible assumption

theorem tmPut_ok (n : Nat) (o : TmObj) (d : Dev) (hd : d.ok) : (tmPut n o d).ok := by
  unfold tmPut
  lift_lets
  intro x0
  apply setTm_ok
  with_reducible assumption

theorem setDirty_ok (o : TmObj) (t : Nat) (b : Bool) (d : Dev) (hd : d.ok) : (setDirty o t b d).ok := by
  unfold setDirty
  lift_lets
  intro x0 x1
  apply setTm_ok
  with_reducible assumption

theorem tileCopy_ok (src : Nat) (dst : Nat) (d : Dev) (hd : d.ok) : (tileCopy src dst d).2.ok := by
  unfold tileCopy
  split
  · dsimp only
    apply busError_ok
    with_reducible assumption
  · dsimp only
    apply busError_ok
    with_reducible assumption
  · dsimp only
    apply foldl_ok
    · intro y0 y1 y2
      apply writeGran_ok
      apply readGran_ok
      with_reducible assumption
    · with_reducible assumption

theorem tileCount_ok (r : Reg) (d : Dev) (hd : d.ok) : (tileCount r d).ok := by
  unfold tileCount
  lift_lets
  intro x0
  apply whenB_ok
  · intro y1 y2
    apply raise_ok
    with_reducible assumption
  · apply cntAdd64_ok
    with_reducible assumption

theorem writeBack_ok (n : Nat) (t : Nat) (d : Dev) (hd : d.ok) : (writeBack n t d).2.ok := by
  unfold writeBack
  split
  · with_reducible assumption
  · apply ite2_ok
    · apply ite2_ok
      · dsimp only
        apply setDirty_ok
        with_reducible assumption
      · split
        · rename_i w0 w1 w2 w3 w4 w5
          have h6 := snd_of_eq w5 (by
            apply tileCopy_ok
            with_reducible assumption)
          with_reducible assumption
        · rename_i w7 w8 w9 w10 w11 w12
          have h13 := snd_of_eq w12 (by
            apply tileCopy_ok
            with_reducible assumption)
          dsimp only
          apply tileCount_ok
          apply setDirty_ok
          with_reducible assumption
    · with_reducible assumption

theorem tmConflict_ok (code : Nat) (d : Dev) (hd : d.ok) : (tmConflict code d).ok := by
  unfold tmConflict
  apply ite_ok
  · apply cntAdd_ok
    with_reducible assumption
  · apply ite_ok
    · apply cntAdd_ok
      with_reducible assumption
    · with_reducible assumption

theorem tmDone_ok (op : TmOp) (code : Nat) (d : Dev) (hd : d.ok) : (tmDone op code d).ok := by
  unfold tmDone
  lift_lets
  intro x0 x1 x2 x3
  have h4 : (Dev.ok x1) := by
    dsimp only [x1]
    apply setTm_ok
    with_reducible assumption
  have h5 : (Dev.ok x2) := by
    dsimp only [x2]
    apply tmConflict_ok
    with_reducible assumption
  split
  · apply finish_ok
    with_reducible assumption
  · apply raise_ok
    apply sf_ok
    apply sf_ok
    apply sf_ok
    apply sf_ok
    with_reducible assumption
  · with_reducible assumption

theorem setOp_ok (old : TmOp) (new : TmOp) (d : Dev) (hd : d.ok) : (setOp old new d).ok := by
  unfold setOp
  lift_lets
  intro x0
  apply setTm_ok
  with_reducible assumption

theorem tmStart_ok (op : TmOp) (d : Dev) (hd : d.ok) : (tmStart op d).ok := by
  unfold tmStart
  lift_lets
  intro x0 x1 x2
  apply ite_ok
  · clear_value x0 x1
    split
    · apply tmDone_ok
      with_reducible assumption
    · lift_lets
      intro x3 x4
      have h5 : (Dev.ok x4) := by
        dsimp only [x4]
        apply setOp_ok
        with_reducible assumption
      apply ite_ok
      · apply tmDone_ok
        with_reducible assumption
      · apply ite_ok
        · apply tmDone_ok
          with_reducible assumption
        · apply ite_ok
          · apply tmDone_ok
            with_reducible assumption
          · apply ite_ok
            · apply tmDone_ok
              with_reducible assumption
            · apply tmDone_ok
              apply tmPut_ok
              with_reducible assumption
  · split
    · apply tmDone_ok
      with_reducible assumption
    · split
      · apply ite_ok
        · apply tmDone_ok
          with_reducible assumption
        · apply ite_ok
          · apply tmDone_ok
            with_reducible assumption
          · apply setOp_ok
            apply tmPut_ok
            with_reducible assumption
      · apply ite_ok
        · apply tmDone_ok
          with_reducible assumption
        · apply ite_ok
          · apply tmDone_ok
            with_reducible assumption
          · apply ite_ok
            · apply tmDone_ok
              with_reducible assumption
            · apply ite_ok
              · apply ite_ok
                · apply tmDone_ok
                  with_reducible assumption
                · apply setOp_ok
                  with_reducible assumption
              · split
                · apply tmDone_ok
                  with_reducible assumption
                · lift_lets
                  intro x6
                  apply ite_ok
                  · apply tmDone_ok
                    with_reducible assumption
                  · apply ite_ok
                    · apply tmDone_ok
                      with_reducible assumption
                    · apply setOp_ok
                      apply tmPut_ok
                      with_reducible assumption
      · apply ite_ok
        · apply tmDone_ok
          with_reducible assumption
        · apply ite_ok
          · apply tmDone_ok
            with_reducible assumption
          · apply setOp_ok
            with_reducible assumption
      · apply ite_ok
        · apply tmDone_ok
          with_reducible assumption
        · apply tmDone_ok
          apply tmPut_ok
          with_reducible assumption
      · apply ite_ok
        · apply tmDone_ok
          with_reducible assumption
        · apply tmDone_ok
          apply tmPut_ok
          with_reducible assumption
      · apply ite_ok
        · apply setOp_ok
          with_reducible assumption
        · apply tmDone_ok
          with_reducible assumption

theorem tmPump_ok (a0 : Nat) (a1 : Dev) (ha1 : a1.ok) : (tmPump a0 a1).ok := by
  induction a0 generalizing a1
  · unfold tmPump
    with_reducible assumption
  · rename_i u0 ih
    unfold tmPump
    apply ite_ok
    · split
      · apply ih
        apply tmStart_ok
        with_reducible assumption
      · with_reducible assumption
    · with_reducible assumption

theorem tmGo_ok (d : Dev) (hd : d.ok) : (tmGo d).ok := by
  unfold tmGo
  apply tmPump_ok
  with_reducible assumption

theorem tmSubmit_ok (s : TmSrc) (t : TmDesc) (d : Dev) (hd : d.ok) : (tmSubmit s t d).ok := by
  unfold tmSubmit
  lift_lets
  intro x0 x1 x2 x3 x4
  have h5 : (Dev.ok x3) := by
    dsimp only [x3]
    apply setTm_ok
    with_reducible assumption
  have h6 : (Dev.ok x4) := by
    dsimp only [x4]
    split
    · apply ite_ok
      · apply setOp_ok
        with_reducible assumption
      · with_reducible assumption
    · with_reducible assumption
  apply ite_ok
  · apply tmDone_ok
    with_reducible assumption
  · apply ite_ok
    · apply tmDone_ok
      with_reducible assumption
    · apply ite_ok
      · apply tmDone_ok
        with_reducible assumption
      · apply tmGo_ok
        with_reducible assumption

theorem tmPortGo_ok (master : Nat) (t : TmDesc) (d : Dev) (hd : d.ok) : (tmPortGo master t d).ok := by
  unfold tmPortGo
  apply ite_ok
  · with_reducible assumption
  · apply tmSubmit_ok
    apply sf_ok
    apply sf_ok
    with_reducible assumption

theorem tmRow_ok (s : TmSrc) (t : TmDesc) (d : Dev) (hd : d.ok) : (tmRow s t d).ok := by
  unfold tmRow
  split
  · apply tmPortGo_ok
    with_reducible assumption
  · lift_lets
    intro x0
    apply tmSubmit_ok
    apply mk_ok
    with_reducible assumption
  · apply tmSubmit_ok
    with_reducible assumption

theorem xlateFault_ok (eng : Nat) (n : Nat) (tile : Nat) (write : Bool) (d : Dev) (hd : d.ok) : (xlateFault eng n tile write d).ok := by
  unfold xlateFault
  apply raise_ok
  apply logOnce_ok
  · intro y0 y1
    apply sf_ok
    apply sf_ok
    apply sf_ok
    apply sf_ok
    with_reducible assumption
  · apply cntAdd_ok
    with_reducible assumption

theorem heldFlush_ok (n : Nat) (d : Dev) (hd : d.ok) : (heldFlush n d).ok := by
  unfold heldFlush
  lift_lets
  intro x0 x1 x2
  have h3 : (Dev.ok x2) := by
    dsimp only [x2]
    apply setTm_ok
    with_reducible assumption
  apply foldl_ok
  · intro y4 y5 y6
    lift_lets
    intro x7
    split
    · apply xlateFault_ok
      with_reducible assumption
    · lift_lets
      intro x8
      have h9 : (Dev.ok x8) := by
        dsimp only [x8]
        apply ite_ok
        · apply setDirty_ok
          with_reducible assumption
        · with_reducible assumption
      apply masterWrite_ok
      with_reducible assumption
  · with_reducible assumption

theorem dropPlace_ok (n : Nat) (d : Dev) (hd : d.ok) : (dropPlace n d).ok := by
  unfold dropPlace
  split
  · with_reducible assumption
  · lift_lets
    intro x0
    have h1 : (Dev.ok x0) := by
      dsimp only [x0]
      apply foldl_ok
      · intro y2 y3 y4
        apply setTm_ok
        with_reducible assumption
      · with_reducible assumption
    apply tmPut_ok
    with_reducible assumption

theorem tileCopyDone_ok (n : Nat) (d : Dev) (hd : d.ok) : (tileCopyDone n d).ok := by
  unfold tileCopyDone
  split
  · lift_lets
    intro x0 x1 x2 x3 x4 x5
    have h6 : (Dev.ok x1) := by
      dsimp only [x1]
      apply setOp_ok
      with_reducible assumption
    have h7 : (Dev.ok x5) := by
      dsimp only [x5]
      split
      · split
        · rename_i w8 w9 w10 w11 w12 w13 w14 w15 w16 w17 w18
          have h19 := snd_of_eq w18 (by
            apply tileCopy_ok
            with_reducible assumption)
          apply tmDone_ok
          with_reducible assumption
        · rename_i w20 w21 w22 w23 w24 w25 w26 w27 w28 w29 w30
          have h31 := snd_of_eq w30 (by
            apply tileCopy_ok
            with_reducible assumption)
          apply ite_ok
          · apply tmDone_ok
            split
            · apply tmPut_ok
              apply tileCount_ok
              apply setDirty_ok
              apply tmPut_ok
              with_reducible assumption
            · apply tileCount_ok
              apply setDirty_ok
              apply tmPut_ok
              with_reducible assumption
          · apply tileCount_ok
            apply setDirty_ok
            apply tmPut_ok
            with_reducible assumption
      · apply ite_ok
        · with_reducible assumption
        · split
          · rename_i w32 w33 w34 w35 w36 w37 w38 w39 w40 w41 w42
            have h43 := snd_of_eq w42 (by
              apply writeBack_ok
              with_reducible assumption)
            apply tmDone_ok
            with_reducible assumption
          · rename_i w44 w45 w46 w47 w48 w49 w50 w51 w52 w53 w54
            have h55 := snd_of_eq w54 (by
              apply writeBack_ok
              with_reducible assumption)
            apply ite_ok
            · apply tmDone_ok
              apply tmPut_ok
              with_reducible assumption
            · apply ite_ok
              · apply setOp_ok
                apply tmPut_ok
                with_reducible assumption
              · apply tmPut_ok
                with_reducible assumption
      · split
        · apply tmDone_ok
          with_reducible assumption
        · split
          · rename_i w56 w57 w58 w59 w60 w61 w62 w63 w64 w65 w66 w67 w68 w69 w70
            have h71 := snd_of_eq w70 (by
              apply writeBack_ok
              with_reducible assumption)
            apply tmDone_ok
            with_reducible assumption
          · rename_i w72 w73 w74 w75 w76 w77 w78 w79 w80 w81 w82 w83 w84 w85 w86
            have h87 := snd_of_eq w86 (by
              apply writeBack_ok
              with_reducible assumption)
            apply ite_ok
            · with_reducible assumption
            · apply tmDone_ok
              with_reducible assumption
    apply tmGo_ok
    apply heldFlush_ok
    with_reducible assumption
  · with_reducible assumption

theorem mappingQuiesced_ok (n : Nat) (d : Dev) (hd : d.ok) : (mappingQuiesced n d).ok := by
  unfold mappingQuiesced
  split
  · with_reducible assumption
  · lift_lets
    intro x0 x1 x2
    have h3 : (Dev.ok x0) := by
      dsimp only [x0]
      apply dropPlace_ok
      with_reducible assumption
    have h4 : (Dev.ok x2) := by
      dsimp only [x2]
      apply ite_ok
      · apply setTm_ok
        with_reducible assumption
      · with_reducible assumption
    apply tmGo_ok
    apply heldFlush_ok
    apply tmDone_ok
    with_reducible assumption

theorem xlateRead_ok (eng : Nat) (n : Nat) (off : Nat) (len : Nat) (d : Dev) (hd : d.ok) : (xlateRead eng n off len d).2.ok := by
  unfold xlateRead
  apply foldl2_ok
  · intro y0 y1 y2
    lift_lets
    intro x3 x4 x5 x6
    have h7 : (Dev.ok x3) := by
      dsimp only [x3]
      with_reducible assumption
    have h8 : (Dev.ok x5) := by
      dsimp only [x5]
      apply ueEntry_ok
      apply xlateFault_ok
      with_reducible assumption
    split
    · with_reducible assumption
    · lift_lets
      intro x9 x10
      have h11 : (Dev.ok x9) := by
        dsimp only [x9]
        apply ueEntry_ok
        apply xlateFault_ok
        with_reducible assumption
      have h12 : (Dev.ok x10) := by
        dsimp only [x10]
        apply ite_ok
        · apply setTm_ok
          with_reducible assumption
        · with_reducible assumption
      apply ite2_ok
      · with_reducible assumption
      · split
        · rename_i w13 w14 w15 w16 w17 w18 w19 w20
          have h21 := snd_of_eq w20 (by
            apply masterRead_ok
            with_reducible assumption)
          with_reducible assumption
        · rename_i w22 w23 w24 w25 w26 w27 w28
          have h29 := snd_of_eq w28 (by
            apply masterRead_ok
            with_reducible assumption)
          with_reducible assumption
  · with_reducible assumption

theorem slideUp_ok (n : Nat) (d : Dev) (hd : d.ok) : (slideUp n d).ok := by
  unfold slideUp
  split
  · with_reducible assumption
  · apply ite_ok
    · with_reducible assumption
    · split
      · rename_i w0 w1 w2 w3 w4 w5
        have h6 := snd_of_eq w5 (by
          apply writeBack_ok
          with_reducible assumption)
        with_reducible assumption
      · rename_i w7 w8 w9 w10 w11 w12
        have h13 := snd_of_eq w12 (by
          apply writeBack_ok
          with_reducible assumption)
        lift_lets
        intro x14 x15
        split
        · rename_i w16 w17 w18
          have h19 := snd_of_eq w18 (by
            apply tileCopy_ok
            with_reducible assumption)
          apply tmPut_ok
          with_reducible assumption
        · rename_i w20 w21 w22
          have h23 := snd_of_eq w22 (by
            apply tileCopy_ok
            with_reducible assumption)
          apply tileCount_ok
          apply setDirty_ok
          apply tmPut_ok
          with_reducible assumption

theorem windowAdvance_ok (ctr : Nat) (value : Nat) (sat : Bool) (d : Dev) (hd : d.ok) : (windowAdvance ctr value sat d).ok := by
  unfold windowAdvance
  apply foldl_ok
  · intro y0 y1 y2
    split
    · with_reducible assumption
    · lift_lets
      intro x3 x4
      have h5 : (Dev.ok x4) := by
        dsimp only [x4]
        apply forN_ok
        · intro y6 y7 y8
          apply slideUp_ok
          with_reducible assumption
        · with_reducible assumption
      apply ite_ok
      · apply ite_ok
        · apply raise_ok
          apply tmPut_ok
          with_reducible assumption
        · split
          · apply tmPut_ok
            with_reducible assumption
          · with_reducible assumption
      · with_reducible assumption
  · with_reducible assumption

theorem xlateWrite_ok (eng : Nat) (stage : Nat) (n : Nat) (off : Nat) (bs : List Byte) (poison : Bool) (d : Dev) (hd : d.ok) : (xlateWrite eng stage n off bs poison d).ok := by
  unfold xlateWrite
  apply foldl_ok
  · intro y0 y1 y2
    lift_lets
    intro x3 x4 x5
    split
    · apply xlateFault_ok
      with_reducible assumption
    · lift_lets
      intro x6
      have h7 : (Dev.ok x6) := by
        dsimp only [x6]
        apply ite_ok
        · apply slideUp_ok
          with_reducible assumption
        · with_reducible assumption
      apply ite_ok
      · apply xlateFault_ok
        with_reducible assumption
      · apply ite_ok
        · apply setTm_ok
          with_reducible assumption
        · split
          · with_reducible assumption
          · lift_lets
            intro x8
            have h9 : (Dev.ok x8) := by
              dsimp only [x8]
              apply ite_ok
              · apply setDirty_ok
                with_reducible assumption
              · with_reducible assumption
            apply masterWrite_ok
            with_reducible assumption
  · with_reducible assumption

theorem hotInterval_ok (d : Dev) (hd : d.ok) : (hotInterval d).ok := by
  unfold hotInterval
  lift_lets
  intro x0 x1 x2 x3 x4 x5
  have h6 : (Dev.ok x3) := by
    dsimp only [x3]
    apply foldl_ok
    · intro y7 y8 y9
      apply tmSubmit_ok
      with_reducible assumption
    · with_reducible assumption
  have h10 : (Dev.ok x4) := by
    dsimp only [x4]
    apply foldl_ok
    · intro y11 y12 y13
      split
      · apply ite_ok
        · apply tmSubmit_ok
          with_reducible assumption
        · with_reducible assumption
      · with_reducible assumption
    · with_reducible assumption
  apply ite_ok
  · apply setTm_ok
    with_reducible assumption
  · with_reducible assumption

theorem forceOps_ok (n : Nat) (d : Dev) (hd : d.ok) : (forceOps n d).ok := by
  unfold forceOps
  split
  · with_reducible assumption
  · apply ite_ok
    · apply setOp_ok
      with_reducible assumption
    · apply ite_ok
      · with_reducible assumption
      · apply tmDone_ok
        with_reducible assumption

theorem forceCapture_ok (n : Nat) (keep : Bool) (d : Dev) (hd : d.ok) : (forceCapture n keep d).ok := by
  unfold forceCapture
  split
  · with_reducible assumption
  · lift_lets
    intro x0 x1 x2 x3
    have h4 : (Dev.ok x1) := by
      dsimp only [x1]
      apply foldl_ok
      · intro y5 y6 y7
        apply ite_ok
        · apply ite_ok
          · apply writeBack_ok
            with_reducible assumption
          · apply raise_ok
            apply ueEntry_ok
            apply setDirty_ok
            apply foldl_ok
            · intro y8 y9 y10
              apply writeGran_ok
              with_reducible assumption
            · with_reducible assumption
        · apply setDirty_ok
          with_reducible assumption
      · with_reducible assumption
    have h11 : (Dev.ok x3) := by
      dsimp only [x3]
      apply forceOps_ok
      with_reducible assumption
    apply heldFlush_ok
    apply ite_ok
    · apply tmPut_ok
      with_reducible assumption
    · apply dropPlace_ok
      with_reducible assumption

theorem captureEngine_ok (k : Nat) (d : Dev) (hd : d.ok) : (captureEngine k d).ok := by
  unfold captureEngine
  apply foldl_ok
  · intro y0 y1 y2
    apply forceCapture_ok
    with_reducible assumption
  · with_reducible assumption

theorem captureFit_ok (a0 : Nat) (a1 : Nat) (a2 : Nat) (a3 : Dev) (ha3 : a3.ok) : (captureFit a0 a1 a2 a3).ok := by
  induction a0 generalizing a1 a2 a3
  · unfold captureFit
    with_reducible assumption
  · rename_i u0 ih
    unfold captureFit
    lift_lets
    intro x0 x1 x2
    apply ite_ok
    · apply ih
      apply forceCapture_ok
      with_reducible assumption
    · with_reducible assumption

theorem captureAllT0_ok (d : Dev) (hd : d.ok) : (captureAllT0 d).ok := by
  unfold captureAllT0
  apply foldl_ok
  · intro y0 y1 y2
    apply forceCapture_ok
    with_reducible assumption
  · with_reducible assumption

theorem restoreT0_ok (d : Dev) (hd : d.ok) : (restoreT0 d).ok := by
  unfold restoreT0
  apply foldl_ok
  · intro y0 y1 y2
    split
    · lift_lets
      intro x3
      apply foldl_ok
      · intro y4 y5 y6
        split
        · apply ite_ok
          · split
            · rename_i w7 w8 w9 w10 w11 w12 w13 w14 w15
              have h16 := snd_of_eq w15 (by
                apply tileCopy_ok
                with_reducible assumption)
              apply tileCount_ok
              apply tmPut_ok
              with_reducible assumption
            · rename_i w17 w18 w19 w20 w21 w22 w23 w24 w25
              have h26 := snd_of_eq w25 (by
                apply tileCopy_ok
                with_reducible assumption)
              with_reducible assumption
          · with_reducible assumption
        · with_reducible assumption
      · apply tmPut_ok
        with_reducible assumption
    · with_reducible assumption
  · with_reducible assumption

theorem tmDisable_ok (d : Dev) (hd : d.ok) : (tmDisable d).ok := by
  unfold tmDisable
  apply sf_ok
  with_reducible assumption

theorem tmEnable_ok (d : Dev) (hd : d.ok) : (tmEnable d).ok := by
  unfold tmEnable
  lift_lets
  intro x0 x1
  have h2 : (Dev.ok x0) := by
    dsimp only [x0]
    apply sf_ok
    with_reducible assumption
  apply tmGo_ok
  apply setTm_ok
  with_reducible assumption

end Sys2Proof.Machine
end

