-- ==== Sys2Proof/Laws/KeepsLink.lean ====
section
/-! SUPPORT. Every operation of Machine/Link.lean keeps the canonical form of the sparse stores
(`Dev.ok`): memory, error marks, poison marks and registers. -/

namespace Sys2Proof.Machine

theorem reqPump_ok (a0 : Nat) (a1 : Dev) (ha1 : a1.ok) : (reqPump a0 a1).ok := by
  induction a0 generalizing a1
  · unfold reqPump
    with_reducible assumption
  · rename_i u0 ih
    unfold reqPump
    split
    · with_reducible assumption
    · apply ite_ok
      · apply ih
        apply reqSend_ok
        with_reducible assumption
      · with_reducible assumption

theorem reqDone_ok (tag : Nat) (d : Dev) (hd : d.ok) : (reqDone tag d).ok := by
  unfold reqDone
  lift_lets
  intro x0
  apply reqPump_ok
  apply setLinks_ok
  with_reducible assumption

theorem nodeLock_ok (d : Dev) (hd : d.ok) : (nodeLock d).ok := by
  unfold nodeLock
  lift_lets
  intro x0 x1 x2 x3
  have h4 : (Dev.ok x0) := by
    dsimp only [x0]
    apply sf_ok
    with_reducible assumption
  apply ite_ok
  · with_reducible assumption
  · apply forN_ok
    · intro y5 y6 y7
      apply wr_ok
      apply wr_ok
      with_reducible assumption
    · with_reducible assumption

theorem tlCnt_ok (r : Reg) (n : Nat) (d : Dev) (hd : d.ok) : (tlCnt r n d).ok := by
  unfold tlCnt
  apply cntAdd_ok
  with_reducible assumption

theorem topoErr_ok (n : Nat) (d : Dev) (hd : d.ok) : (topoErr n d).ok := by
  unfold topoErr
  apply ite_ok
  · with_reducible assumption
  · apply raise_ok
    apply sf_ok
    with_reducible assumption

theorem tlTrain_ok (n : Nat) (d : Dev) (hd : d.ok) : (tlTrain n d).ok := by
  unfold tlTrain
  apply ite_ok
  · with_reducible assumption
  · apply ite_ok
    · apply topoErr_ok
      with_reducible assumption
    · apply sf_ok
      apply setPortState_ok
      apply portUpd_ok
      with_reducible assumption

theorem tlEnable_ok (n : Nat) (d : Dev) (hd : d.ok) : (tlEnable n d).ok := by
  unfold tlEnable
  lift_lets
  intro x0 x1
  have h2 : (Dev.ok x1) := by
    dsimp only [x1]
    apply sf_ok
    with_reducible assumption
  apply ite_ok
  · with_reducible assumption
  · apply tlTrain_ok
    with_reducible assumption

theorem tlDisable_ok (n : Nat) (d : Dev) (hd : d.ok) : (tlDisable n d).ok := by
  unfold tlDisable
  apply sf_ok
  apply sf_ok
  apply setPortState_ok
  apply portPut_ok
  apply sf_ok
  with_reducible assumption

theorem tunnelSlot_ok (n : Nat) (sq : Nat) (s : Slot) (d : Dev) (hd : d.ok) : (tunnelSlot n sq s d).ok := by
  unfold tunnelSlot
  lift_lets
  intro x0
  apply sendMsg_ok
  with_reducible assumption

theorem portDown_ok (n : Nat) (d : Dev) (hd : d.ok) : (portDown n d).ok := by
  unfold portDown
  lift_lets
  intro x0 x1 x2 x3 x4 x5 x6 x7 x8
  have h9 : (Dev.ok x1) := by
    dsimp only [x1]
    apply scoreEvent_ok
    apply raise_ok
    apply sf_ok
    apply sf_ok
    apply sf_ok
    apply setPortState_ok
    with_reducible assumption
  have h10 : (Dev.ok x6) := by
    dsimp only [x6]
    apply portPut_ok
    with_reducible assumption
  have h11 : (Dev.ok (x7).2) := by
    dsimp only [x7]
    apply foldl2_ok
    · intro y12 y13 y14
      split
      · rename_i w15 w16 w17
        have h18 := snd_of_eq w17 (by
          apply sendMsg_ok
          with_reducible assumption)
        with_reducible assumption
      · rename_i w19 w20 w21
        have h22 := snd_of_eq w21 (by
          apply sendMsg_ok
          with_reducible assumption)
        with_reducible assumption
    · with_reducible assumption
  have h23 : (Dev.ok x8) := by
    dsimp only [x8]
    apply portUpd_ok
    with_reducible assumption
  apply prodCheckAll_ok
  apply ite_ok
  · apply foldl_ok
    · intro y24 y25 y26
      apply tunnelSlot_ok
      with_reducible assumption
    · with_reducible assumption
  · apply portUpd_ok
    with_reducible assumption

theorem trainSend_ok (n : Nat) (lanes : Nat) (d : Dev) (hd : d.ok) : (trainSend n lanes d).ok := by
  unfold trainSend
  apply forN_ok
  · intro y0 y1 y2
    lift_lets
    intro x3 x4
    have h5 : (Dev.ok (x4).2) := by
      dsimp only [x4]
      apply slotMake_ok
      with_reducible assumption
    apply ite_ok
    · apply flitOut_ok
      with_reducible assumption
    · with_reducible assumption
  · with_reducible assumption

theorem trainFlit_ok (n : Nat) (lanes : Nat) (b : List Byte) (d : Dev) (hd : d.ok) : (trainFlit n lanes b d).ok := by
  unfold trainFlit
  lift_lets
  intro x0 x1 x2 x3 x4 x5 x6 x7 x8 x9 x10 x11 x12 x13 x14 x15 x16 x17
  have h18 : (Dev.ok x2) := by
    dsimp only [x2]
    apply ite_ok
    · with_reducible assumption
    · apply portUpd_ok
      with_reducible assumption
  have h19 : (Dev.ok x3) := by
    dsimp only [x3]
    apply trainSend_ok
    with_reducible assumption
  have h20 : (Dev.ok x7) := by
    dsimp only [x7]
    apply sf_ok
    with_reducible assumption
  have h21 : (Dev.ok x8) := by
    dsimp only [x8]
    apply sf_ok
    apply sf_ok
    apply sf_ok
    with_reducible assumption
  have h22 : (Dev.ok x13) := by
    dsimp only [x13]
    apply portPut_ok
    with_reducible assumption
  have h23 : (Dev.ok x14) := by
    dsimp only [x14]
    apply raise_ok
    apply sf_ok
    apply sf_ok
    apply sf_ok
    apply setPortState_ok
    with_reducible assumption
  have h24 : (Dev.ok x15) := by
    dsimp only [x15]
    apply ite_ok
    · apply scoreEvent_ok
      apply raise_ok
      with_reducible assumption
    · with_reducible assumption
  have h25 : (Dev.ok x16) := by
    dsimp only [x16]
    apply foldl_ok
    · intro y26 y27 y28
      apply flitOut_ok
      with_reducible assumption
    · with_reducible assumption
  have h29 : (Dev.ok x17) := by
    dsimp only [x17]
    apply foldl_ok
    · intro y30 y31 y32
      apply msgPort_ok
      with_reducible assumption
    · with_reducible assumption
  apply ite_ok
  · with_reducible assumption
  · apply ite_ok
    · apply topoErr_ok
      apply setPortState_ok
      with_reducible assumption
    · apply ite_ok
      · apply portDown_ok
        with_reducible assumption
      · apply linkPump_ok
        with_reducible assumption

theorem trainTimeout_ok (n : Nat) (d : Dev) (hd : d.ok) : (trainTimeout n d).ok := by
  unfold trainTimeout
  lift_lets
  intro x0 x1 x2
  have h3 : (Dev.ok x0) := by
    dsimp only [x0]
    apply tlCnt_ok
    with_reducible assumption
  have h4 : (Dev.ok x2) := by
    dsimp only [x2]
    apply portUpd_ok
    with_reducible assumption
  apply ite_ok
  · apply ite_ok
    · apply portDown_ok
      with_reducible assumption
    · apply sf_ok
      with_reducible assumption
  · with_reducible assumption

theorem tlRetrain_ok (n : Nat) (d : Dev) (hd : d.ok) : (tlRetrain n d).ok := by
  unfold tlRetrain
  apply sf_ok
  apply setPortState_ok
  apply portUpd_ok
  apply tlCnt_ok
  with_reducible assumption

theorem flitCredits_ok (n : Nat) (f : Flit) (d : Dev) (hd : d.ok) : (flitCredits n f d).ok := by
  unfold flitCredits
  lift_lets
  intro x0
  have h1 : (Dev.ok x0) := by
    dsimp only [x0]
    apply portUpd_ok
    with_reducible assumption
  apply linkPump_ok
  with_reducible assumption

theorem flitNak_ok (n : Nat) (d : Dev) (hd : d.ok) : (flitNak n d).ok := by
  unfold flitNak
  apply ite_ok
  · with_reducible assumption
  · apply flitOut_ok
    apply portUpd_ok
    with_reducible assumption

theorem flitAccept_ok (n : Nat) (type : Nat) (b : List Byte) (d : Dev) (hd : d.ok) : (flitAccept n type b d).2.ok := by
  unfold flitAccept
  lift_lets
  intro x0 x1 x2 x3
  have h4 : (Dev.ok x1) := by
    dsimp only [x1]
    apply flitCount_ok
    with_reducible assumption
  have h5 : (Dev.ok x3) := by
    dsimp only [x3]
    apply ite_ok
    · apply portUpd_ok
      with_reducible assumption
    · with_reducible assumption
  apply ite2_ok
  · with_reducible assumption
  · apply ite2_ok
    · dsimp only
      apply flitNak_ok
      apply tlCnt_ok
      with_reducible assumption
    · apply ite2_ok
      · with_reducible assumption
      · apply ite2_ok
        · dsimp only
          apply flitNak_ok
          with_reducible assumption
        · dsimp only
          apply flitCredits_ok
          with_reducible assumption

theorem slotDecode_ok (n : Nat) (s : Slot) (d : Dev) (hd : d.ok) : (slotDecode n s d).2.ok := by
  unfold slotDecode
  lift_lets
  intro x0 x1
  split
  · with_reducible assumption
  · lift_lets
    intro x2
    dsimp only
    apply ite_ok
    · with_reducible assumption
    · apply ceLog_ok
      with_reducible assumption
  · dsimp only
    apply ite_ok
    · with_reducible assumption
    · apply ueDecode_ok
      with_reducible assumption

theorem creditBack_ok (n : Nat) (ch : Nat) (d : Dev) (hd : d.ok) : (creditBack n ch d).ok := by
  unfold creditBack
  apply portUpd_ok
  with_reducible assumption

theorem linkIn_ok (a0 : Nat) (a1 : Nat) (a2 : Nat) (a3 : Dev) (ha3 : a3.ok) : (linkIn a0 a1 a2 a3).ok := by
  induction a0 generalizing a1 a2 a3
  · unfold linkIn
    with_reducible assumption
  · rename_i u0 ih
    unfold linkIn
    split
    · with_reducible assumption
    · lift_lets
      intro x0
      have h2 : (∀ z1, Dev.ok z1 → Dev.ok (x0 z1)) := by
        intro y3 y4
        dsimp only [x0]
        apply creditBack_ok
        apply portUpd_ok
        with_reducible assumption
      split
      · apply ih
        apply tlCnt_ok
        apply h2
        with_reducible assumption
      · split
        · apply ite_ok
          · apply ih
            apply fifoPut_ok
            apply h2
            with_reducible assumption
          · with_reducible assumption
        · with_reducible assumption

theorem idleFlit_ok (n : Nat) (b : List Byte) (d : Dev) (hd : d.ok) : (idleFlit n b d).ok := by
  unfold idleFlit
  split
  · rename_i w0 w1 w2
    have h3 := snd_of_eq w2 (by
      apply flitAccept_ok
      with_reducible assumption)
    with_reducible assumption
  · rename_i w4 w5 w6 w7
    have h8 := snd_of_eq w7 (by
      apply flitAccept_ok
      with_reducible assumption)
    lift_lets
    intro x9 x10 x11
    have h12 : (Dev.ok x11) := by
      dsimp only [x11]
      apply portUpd_ok
      apply wr_ok
      with_reducible assumption
    apply ite_ok
    · apply ite_ok
      · apply sf_ok
        with_reducible assumption
      · with_reducible assumption
    · with_reducible assumption

theorem fpSettle_ok (n : Nat) (d : Dev) (hd : d.ok) : (fpSettle n d).ok := by
  unfold fpSettle
  apply ite_ok
  · apply scoreEvent_ok
    apply raise_ok
    apply sf_ok
    with_reducible assumption
  · with_reducible assumption

theorem tlReplay_ok (n : Nat) (d : Dev) (hd : d.ok) : (tlReplay n d).ok := by
  unfold tlReplay
  lift_lets
  intro x0 x1 x2
  have h3 : (Dev.ok x0) := by
    dsimp only [x0]
    apply tlCnt_ok
    with_reducible assumption
  have h4 : (Dev.ok x2) := by
    dsimp only [x2]
    apply portUpd_ok
    with_reducible assumption
  apply ite_ok
  · apply tlRetrain_ok
    with_reducible assumption
  · apply foldl_ok
    · intro y5 y6 y7
      apply flitOut_ok
      with_reducible assumption
    · with_reducible assumption

theorem ackFlit_ok (n : Nat) (b : List Byte) (d : Dev) (hd : d.ok) : (ackFlit n b d).ok := by
  unfold ackFlit
  apply flitAccept_ok
  with_reducible assumption

theorem nakFlit_ok (n : Nat) (b : List Byte) (d : Dev) (hd : d.ok) : (nakFlit n b d).ok := by
  unfold nakFlit
  split
  · rename_i w0 w1 w2
    have h3 := snd_of_eq w2 (by
      apply flitAccept_ok
      with_reducible assumption)
    with_reducible assumption
  · rename_i w4 w5 w6 w7
    have h8 := snd_of_eq w7 (by
      apply flitAccept_ok
      with_reducible assumption)
    apply ite_ok
    · with_reducible assumption
    · apply tlReplay_ok
      with_reducible assumption

theorem replayTimeout_ok (n : Nat) (d : Dev) (hd : d.ok) : (replayTimeout n d).ok := by
  unfold replayTimeout
  apply ite_ok
  · apply tlReplay_ok
    with_reducible assumption
  · with_reducible assumption

theorem ackTimer_ok (n : Nat) (d : Dev) (hd : d.ok) : (ackTimer n d).ok := by
  unfold ackTimer
  apply ite_ok
  · apply flitOut_ok
    with_reducible assumption
  · with_reducible assumption

theorem idleInsert_ok (n : Nat) (d : Dev) (hd : d.ok) : (idleInsert n d).ok := by
  unfold idleInsert
  lift_lets
  intro x0 x1
  have h2 : (Dev.ok (x1).2) := by
    dsimp only [x1]
    apply slotMake_ok
    with_reducible assumption
  apply ite_ok
  · apply flitSeq_ok
    with_reducible assumption
  · with_reducible assumption

theorem sleepNotice_ok (n : Nat) (b : List Byte) (d : Dev) (hd : d.ok) : (sleepNotice n b d).ok := by
  unfold sleepNotice
  split
  · rename_i w0 w1 w2
    have h3 := snd_of_eq w2 (by
      apply flitAccept_ok
      with_reducible assumption)
    with_reducible assumption
  · rename_i w4 w5 w6 w7
    have h8 := snd_of_eq w7 (by
      apply flitAccept_ok
      with_reducible assumption)
    apply sf_ok
    apply setPortState_ok
    apply flitOut_ok
    with_reducible assumption

theorem vcIdleSend_ok (n : Nat) (v : Nat) (d : Dev) (hd : d.ok) : (vcIdleSend n v d).ok := by
  unfold vcIdleSend
  split
  · with_reducible assumption
  · split
    · with_reducible assumption
    · lift_lets
      intro x0 x1
      have h2 : (Dev.ok (x1).2) := by
        dsimp only [x1]
        apply slotMake_ok
        with_reducible assumption
      apply ite_ok
      · apply flitSeq_ok
        with_reducible assumption
      · with_reducible assumption

theorem fcIn_ok (n : Nat) (level : Bool) (d : Dev) (hd : d.ok) : (fcIn n level d).ok := by
  unfold fcIn
  lift_lets
  intro x0
  have h1 : (Dev.ok x0) := by
    dsimp only [x0]
    apply ite_ok
    · with_reducible assumption
    · apply portUpd_ok
      with_reducible assumption
  apply sf_ok
  with_reducible assumption

theorem fcStuck_ok (n : Nat) (d : Dev) (hd : d.ok) : (fcStuck n d).ok := by
  unfold fcStuck
  apply ite_ok
  · apply raise_ok
    apply sf_ok
    apply portUpd_ok
    with_reducible assumption
  · with_reducible assumption

theorem linkItem_ok (n : Nat) (v : Nat) (it : Item) (d : Dev) (hd : d.ok) : (linkItem n v it d).ok := by
  unfold linkItem
  lift_lets
  intro x0 x1
  have h2 : (Dev.ok (x1).2) := by
    dsimp only [x1]
    apply slotMake_ok
    with_reducible assumption
  apply ite_ok
  · apply linkSlots_ok
    with_reducible assumption
  · apply tunnelSlot_ok
    with_reducible assumption

theorem wakeRetry_ok (n : Nat) (d : Dev) (hd : d.ok) : (wakeRetry n d).ok := by
  unfold wakeRetry
  lift_lets
  intro x0
  apply ite_ok
  · apply ite_ok
    · apply emit_ok
      apply portUpd_ok
      with_reducible assumption
    · apply setPortState_ok
      with_reducible assumption
  · with_reducible assumption

end Sys2Proof.Machine
end

