-- ==== Sys2Proof/Laws/KeepsSync.lean ====
section
/-! SUPPORT. Every operation of Machine/Sync.lean keeps the canonical form of the sparse stores
(`Dev.ok`): memory, error marks, poison marks and registers. -/

namespace Sys2Proof.Machine

theorem syncOvf_ok (n : Nat) (d : Dev) (hd : d.ok) : (syncOvf n d).ok := by
  unfold syncOvf
  apply raise_ok
  apply cntAdd_ok
  apply sf_ok
  apply sf_ok
  with_reducible assumption

theorem syncTypeErr_ok (n : Nat) (d : Dev) (hd : d.ok) : (syncTypeErr n d).ok := by
  unfold syncTypeErr
  apply raise_ok
  apply sf_ok
  apply sf_ok
  with_reducible assumption

theorem watchEval_ok (i : Nat) (d : Dev) (hd : d.ok) : (watchEval i d).ok := by
  unfold watchEval
  split
  · with_reducible assumption
  · lift_lets
    intro x0 x1 x2 x3
    have h5 : (∀ z4, Dev.ok z4 → Dev.ok (x1 z4)) := by
      intro y6 y7
      dsimp only [x1]
      apply setLinks_ok
      with_reducible assumption
    have h8 : (Dev.ok (x2).2) := by
      dsimp only [x2]
      apply objRead_ok
      with_reducible assumption
    apply ite_ok
    · apply ite_ok
      · with_reducible assumption
      · apply h5
        apply syncPoison_ok
        with_reducible assumption
    · split
      · apply ite_ok
        · with_reducible assumption
        · apply h5
          apply syncTypeErr_ok
          with_reducible assumption
      · apply ite_ok
        · apply setLinks_ok
          with_reducible assumption
        · with_reducible assumption
      · lift_lets
        intro x9 x10 x11
        have h12 : (Dev.ok x9) := by
          dsimp only [x9]
          apply ite_ok
          · with_reducible assumption
          · apply objStore_ok
            with_reducible assumption
        have h13 : (Dev.ok x11) := by
          dsimp only [x11]
          apply setLinks_ok
          with_reducible assumption
        split
        · rename_i w14 w15 w16 w17 w18 w19 w20 w21 w22
          have h23 := snd_of_eq w22 (by
            apply sendMsg_ok
            with_reducible assumption)
          with_reducible assumption
        · rename_i w24 w25 w26 w27 w28 w29 w30 w31 w32
          have h33 := snd_of_eq w32 (by
            apply sendMsg_ok
            with_reducible assumption)
          apply routeErr_ok
          with_reducible assumption

theorem watchesOn_ok (n : Nat) (d : Dev) (hd : d.ok) : (watchesOn n d).ok := by
  unfold watchesOn
  apply foldl_ok
  · intro y0 y1 y2
    apply watchEval_ok
    with_reducible assumption
  · with_reducible assumption

theorem syncOp_ok (master : Nat) (n : Nat) (op : Nat) (arg : Nat) (d : Dev) (hd : d.ok) : (syncOp master n op arg d).ok := by
  have hr := objRead_ok n d hd
  unfold syncOp
  dsimp only
  split
  · exact syncPoison_ok _ _ _ hr
  · rcases objOp (objRead n d).1.1 op (arg % 2 ^ 32) with _ | ⟨o, sat⟩ <;> dsimp only
    · exact syncTypeErr_ok _ _ hr
    · apply watchesOn_ok
      split
      · exact windowAdvance_ok _ _ _ _ (whenB_ok _ _ _ (fun e he => syncOvf_ok _ _ he) (objStore_ok _ _ _ hr))
      · exact whenB_ok _ _ _ (fun e he => syncOvf_ok _ _ he) (objStore_ok _ _ _ hr)

theorem syncField_ok (n : Nat) (off : Nat) (v : Nat) (d : Dev) (hd : d.ok) : (syncField n off v d).ok := by
  unfold syncField
  apply ite_ok
  · apply writeMem_ok
    with_reducible assumption
  · with_reducible assumption

theorem syncRewritten_ok (ns : List Nat) (d : Dev) (hd : d.ok) : (syncRewritten ns d).ok := by
  unfold syncRewritten
  lift_lets
  intro x0 x1
  have h2 : (Dev.ok x1) := by
    dsimp only [x1]
    apply setLinks_ok
    with_reducible assumption
  apply foldl_ok
  · intro y3 y4 y5
    apply watchesOn_ok
    with_reducible assumption
  · with_reducible assumption

theorem syncPair_ok (m : Nat) (bs : List Byte) (poison : Bool) (d : Dev) (hd : d.ok) : (syncPair m bs poison d).ok := by
  unfold syncPair
  apply syncRewritten_ok
  apply writeMem_ok
  with_reducible assumption

theorem syncInitWrite_ok (es : List SyncInit) (d : Dev) (hd : d.ok) : (syncInitWrite es d).ok := by
  unfold syncInitWrite
  lift_lets
  intro x0 x1
  have h2 : (Dev.ok x1) := by
    dsimp only [x1]
    apply foldl_ok
    · intro y3 y4 y5
      split
      · apply ite_ok
        · apply writeMem_ok
          with_reducible assumption
        · with_reducible assumption
      · apply writeMem_ok
        with_reducible assumption
    · with_reducible assumption
  apply syncRewritten_ok
  with_reducible assumption

theorem stageWait_ok (eng : Nat) (key : Nat) (idx : Nat) (w : Wait) (d : Dev) (hd : d.ok) : (stageWait eng key idx w d).2.ok := by
  unfold stageWait
  lift_lets
  intro x0 x1 x2 x3 x4 x5 x6
  have h8 : (∀ z7, Dev.ok z7 → Dev.ok (x2 z7)) := by
    intro y9 y10
    dsimp only [x2]
    apply setLinks_ok
    with_reducible assumption
  have h12 : (∀ z11, Dev.ok z11 → Dev.ok (x4 z11)) := by
    intro y13 y14
    dsimp only [x4]
    apply setLinks_ok
    with_reducible assumption
  have h15 : (Dev.ok (x5).2) := by
    dsimp only [x5]
    apply objRead_ok
    with_reducible assumption
  apply ite2_ok
  · with_reducible assumption
  · apply ite2_ok
    · apply ite2_ok
      · dsimp only
        apply ite_ok
        · with_reducible assumption
        · apply h12
          apply syncPoison_ok
          with_reducible assumption
      · split
        · dsimp only
          apply ite_ok
          · with_reducible assumption
          · apply h12
            apply syncTypeErr_ok
            with_reducible assumption
        · with_reducible assumption
        · dsimp only
          apply h8
          apply ite_ok
          · with_reducible assumption
          · apply objStore_ok
            with_reducible assumption
    · apply ite2_ok
      · dsimp only
        apply h8
        apply setLinks_ok
        with_reducible assumption
      · apply ite2_ok
        · with_reducible assumption
        · dsimp only
          apply request_ok
          with_reducible assumption

theorem stageSignal_ok (eng : Nat) (key : Nat) (s : Sig) (d : Dev) (hd : d.ok) : (stageSignal eng key s d).ok := by
  unfold stageSignal
  lift_lets
  intro x0
  apply ite_ok
  · with_reducible assumption
  · apply ite_ok
    · apply syncOp_ok
      with_reducible assumption
    · apply request_ok
      with_reducible assumption

theorem barrierArrive_ok (master : Nat) (obj : Nat) (ka : ReqKind) (kw : ReqKind) (d : Dev) (hd : d.ok) : (barrierArrive master obj ka kw d).2.2.ok := by
  unfold barrierArrive
  lift_lets
  intro x0 x1 x2 x3
  have h4 : (Dev.ok x2) := by
    dsimp only [x2]
    apply setLinks_ok
    with_reducible assumption
  apply ite3_ok
  · dsimp only
    apply syncOp_ok
    with_reducible assumption
  · split
    · rename_i w5 w6 w7
      have h8 := snd_of_eq w7 (by
        apply request_ok
        with_reducible assumption)
      with_reducible assumption
    · rename_i w9 w10 w11
      have h12 := snd_of_eq w11 (by
        apply request_ok
        with_reducible assumption)
      dsimp only
      apply request_ok
      with_reducible assumption

theorem barrierWait_ok (master : Nat) (obj : Nat) (ka : ReqKind) (g : Option Nat) (d : Dev) (hd : d.ok) :
    (barrierWait master obj ka g d).2.ok := by
  unfold barrierWait
  split
  · exact hd
  · split
    · exact hd
    · dsimp only
      have h := objRead_ok (objNum obj) d hd
      split
      · split
        · exact h
        · exact setLinks_ok _ _ (syncPoison_ok _ _ _ h)
      · split
        · split
          · exact h
          · exact setLinks_ok _ _ (syncTypeErr_ok _ _ h)
        · exact h

theorem barrierWithdraw_ok (master : Nat) (obj : Nat) (g : Option Nat) (ka : ReqKind) (kw : ReqKind) (d : Dev) (hd : d.ok) : (barrierWithdraw master obj g ka kw d).ok := by
  unfold barrierWithdraw
  split
  · lift_lets
    intro x0 x1 x2
    have h3 : (Dev.ok (x1).2) := by
      dsimp only [x1]
      apply objRead_ok
      with_reducible assumption
    apply ite_ok
    · apply syncPoison_ok
      with_reducible assumption
    · apply ite_ok
      · apply objStore_ok
        with_reducible assumption
      · with_reducible assumption
  · lift_lets
    intro x4
    apply setLinks_ok
    with_reducible assumption

end Sys2Proof.Machine
end

