-- ==== Sys2Proof/Laws/KeepsCensus.lean ====
section
/-! SUPPORT. Every operation of Machine/Census.lean keeps the canonical form of the sparse stores
(`Dev.ok`): memory, error marks, poison marks and registers. -/

namespace Sys2Proof.Machine

theorem censusSend_ok (kind : Nat) (dst : Nat) (spec : Nat) (data : List (List Byte × Bool)) (d : Dev) (hd : d.ok) : (censusSend kind dst spec data d).ok := by
  unfold censusSend
  split
  · rename_i w0 w1 w2
    have h3 := snd_of_eq w2 (by
      apply sendMsg_ok
      with_reducible assumption)
    with_reducible assumption
  · rename_i w4 w5 w6
    have h7 := snd_of_eq w6 (by
      apply sendMsg_ok
      with_reducible assumption)
    apply routeErr_ok
    with_reducible assumption

theorem censusContribute_ok (master : Nat) (ws : List Nat) (d : Dev) (hd : d.ok) : (censusContribute master ws d).ok := by
  unfold censusContribute
  apply forN_ok
  · intro y0 y1 y2
    apply syncOp_ok
    with_reducible assumption
  · with_reducible assumption

theorem censusInit_ok (n : Nat) (d : Dev) (hd : d.ok) : (censusInit n d).ok := by
  unfold censusInit
  apply syncInitWrite_ok
  with_reducible assumption

theorem setCensus_ok (c : Option Census) (d : Dev) (hd : d.ok) : (setCensus c d).ok := by
  unfold setCensus
  lift_lets
  intro x0
  apply sf_ok
  apply setLinks_ok
  with_reducible assumption

theorem censusEnd_ok (c : Census) (d : Dev) (hd : d.ok) : (censusEnd c d).ok := by
  unfold censusEnd
  lift_lets
  intro x0 x1 x2 x3 x4 x5
  have h6 : (Dev.ok x2) := by
    dsimp only [x2]
    apply setCensus_ok
    with_reducible assumption
  have h7 : (Dev.ok x5) := by
    dsimp only [x5]
    apply sf_ok
    apply sf_ok
    apply wr_ok
    apply wr_ok
    with_reducible assumption
  split
  · apply censusSend_ok
    with_reducible assumption
  · split
    · apply finish_ok
      with_reducible assumption
    · with_reducible assumption

theorem censusCheck_ok (d : Dev) (hd : d.ok) : (censusCheck d).ok := by
  unfold censusCheck
  split
  · with_reducible assumption
  · apply ite_ok
    · apply censusEnd_ok
      with_reducible assumption
    · with_reducible assumption

theorem censusEnter_ok (c : Census) (master : Nat) (d : Dev) (hd : d.ok) : (censusEnter c master d).ok := by
  unfold censusEnter
  lift_lets
  intro x0 x1 x2
  apply censusCheck_ok
  apply censusContribute_ok
  apply censusInit_ok
  apply forEach_ok
  · intro y3 y4 y5
    apply censusSend_ok
    with_reducible assumption
  · apply setCensus_ok
    with_reducible assumption

theorem xCensus_ok (a0 : CmdHdr) (expect : Nat) (d : Dev) (hd : d.ok) : (xCensus a0 expect d).ok := by
  unfold xCensus
  lift_lets
  intro x0 x1 x2
  have h5 : (∀ z3 z4, Dev.ok z4 → Dev.ok (x2 z3 z4)) := by
    intro y6 y7 y8
    dsimp only [x2]
    apply finish_ok
    apply sf_ok
    with_reducible assumption
  apply ite_ok
  · apply h5
    with_reducible assumption
  · apply ite_ok
    · apply h5
      with_reducible assumption
    · apply ite_ok
      · apply h5
        with_reducible assumption
      · apply censusEnter_ok
        with_reducible assumption

theorem censusStart_ok (n : Nat) (m : Msg) (d : Dev) (hd : d.ok) : (censusStart n m d).ok := by
  unfold censusStart
  lift_lets
  intro x0
  apply ite_ok
  · apply censusSend_ok
    with_reducible assumption
  · apply censusEnter_ok
    with_reducible assumption

theorem censusPart_ok (n : Nat) (m : Msg) (d : Dev) (hd : d.ok) : (censusPart n m d).ok := by
  unfold censusPart
  split
  · lift_lets
    intro x0
    apply ite_ok
    · with_reducible assumption
    · apply ite_ok
      · apply syncPoison_ok
        with_reducible assumption
      · apply censusCheck_ok
        apply censusContribute_ok
        apply setLinks_ok
        with_reducible assumption
  · with_reducible assumption

theorem censusTimeout_ok (d : Dev) (hd : d.ok) : (censusTimeout d).ok := by
  unfold censusTimeout
  split
  · with_reducible assumption
  · apply censusEnd_ok
    with_reducible assumption

end Sys2Proof.Machine
end

