-- ==== Sys2Proof/Laws/KeepsQuant.lean ====
section
/-! SUPPORT. Every operation of Machine/Quant.lean keeps the canonical form of the sparse stores
(`Dev.ok`): memory, error marks, poison marks and registers. -/

namespace Sys2Proof.Machine

theorem qzUpd_ok (k : Nat) (n : Nat) (f : QzRt → QzRt) (d : Dev) (hd : d.ok) : (qzUpd k n f d).ok := by
  unfold qzUpd
  lift_lets
  intro x0
  apply mk_ok
  with_reducible assumption

theorem batchFlags_ok (own : Option (Nat × Nat)) (flags : Nat) (d : Dev) (hd : d.ok) : (batchFlags own flags d).ok := by
  unfold batchFlags
  split
  · with_reducible assumption
  · lift_lets
    intro x0
    apply ite_ok
    · with_reducible assumption
    · apply mk_ok
      with_reducible assumption

theorem accClips_ok (k : Nat) (n : Nat) (d : Dev) (hd : d.ok) : (accClips k n d).ok := by
  unfold accClips
  apply ite_ok
  · with_reducible assumption
  · apply raise_ok
    apply cntAdd_ok
    with_reducible assumption

theorem qzClips_ok (k : Nat) (n : Nat) (c : Nat) (d : Dev) (hd : d.ok) : (qzClips k n c d).ok := by
  unfold qzClips
  apply ite_ok
  · with_reducible assumption
  · apply cntAdd_ok
    with_reducible assumption

theorem qzRanges_ok (k : Nat) (n : Nat) (lo : Nat) (hi : Nat) (own : Option (Nat × Nat)) (d : Dev) (hd : d.ok) : (qzRanges k n lo hi own d).ok := by
  unfold qzRanges
  lift_lets
  intro x0 x1 x2
  have h3 : (Dev.ok x0) := by
    dsimp only [x0]
    apply cntAdd_ok
    with_reducible assumption
  have h4 : (Dev.ok x1) := by
    dsimp only [x1]
    apply ite_ok
    · with_reducible assumption
    · apply ite_ok
      · with_reducible assumption
      · apply batchFlags_ok
        apply raise_ok
        apply sf_ok
        apply qzUpd_ok
        with_reducible assumption
  have h5 : (Dev.ok x2) := by
    dsimp only [x2]
    apply cntAdd_ok
    with_reducible assumption
  apply ite_ok
  · with_reducible assumption
  · apply ite_ok
    · with_reducible assumption
    · apply batchFlags_ok
      apply raise_ok
      apply sf_ok
      apply qzUpd_ok
      with_reducible assumption

theorem qzLow_ok (k : Nat) (n : Nat) (lo : Nat) (own : Option (Nat × Nat)) (d : Dev) (hd : d.ok) : (qzLow k n lo own d).ok := by
  unfold qzLow
  apply qzRanges_ok
  with_reducible assumption

theorem qzCount_ok (k : Nat) (n : Nat) (rs : List QRes) (own : Option (Nat × Nat)) (d : Dev) (hd : d.ok) : (qzCount k n rs own d).ok := by
  unfold qzCount
  lift_lets
  intro x0 x1 x2 x3 x4
  have h5 : (Dev.ok x4) := by
    dsimp only [x4]
    apply qzRanges_ok
    apply qzClips_ok
    with_reducible assumption
  apply foldl_ok
  · intro y6 y7 y8
    lift_lets
    intro x9 x10
    have h11 : (Dev.ok x10) := by
      dsimp only [x10]
      apply ite_ok
      · apply sf_ok
        with_reducible assumption
      · with_reducible assumption
    apply ite_ok
    · apply sf_ok
      with_reducible assumption
    · with_reducible assumption
  · with_reducible assumption

theorem qzAmax_ok (k : Nat) (n : Nat) (xs : List Nat) (d : Dev) (hd : d.ok) : (qzAmax k n xs d).ok := by
  unfold qzAmax
  lift_lets
  intro x0
  apply ite_ok
  · apply sf_ok
    with_reducible assumption
  · with_reducible assumption

theorem qzWindowEnd_ok (k : Nat) (n : Nat) (d : Dev) (hd : d.ok) : (qzWindowEnd k n d).ok := by
  unfold qzWindowEnd
  split
  · with_reducible assumption
  · lift_lets
    intro x0 x1 x2 x3
    have h4 : (Dev.ok x2) := by
      dsimp only [x2]
      apply qzUpd_ok
      with_reducible assumption
    have h5 : (Dev.ok x3) := by
      dsimp only [x3]
      apply batchFlags_ok
      apply raise_ok
      apply sf_ok
      with_reducible assumption
    apply ite_ok
    · with_reducible assumption
    · apply ite_ok
      · apply ite_ok
        · apply sf_ok
          with_reducible assumption
        · with_reducible assumption
      · with_reducible assumption

theorem qzSettle_ok (d : Dev) (hd : d.ok) : (qzSettle d).ok := by
  unfold qzSettle
  apply forEach_ok
  · intro y0 y1 y2
    apply qzWindowEnd_ok
    with_reducible assumption
  · with_reducible assumption

theorem qzCalibrate_ok (k : Nat) (n : Nat) (v : Nat) (d : Dev) (hd : d.ok) : (qzCalibrate k n v d).ok := by
  unfold qzCalibrate
  lift_lets
  intro x0 x1
  have h2 : (Dev.ok x0) := by
    dsimp only [x0]
    apply qzWindowEnd_ok
    with_reducible assumption
  apply ite_ok
  · apply qzUpd_ok
    apply sf_ok
    with_reducible assumption
  · apply sf_ok
    with_reducible assumption

theorem qzRowStart_ok (k : Nat) (n : Nat) (d : Dev) (hd : d.ok) : (qzRowStart k n d).2.ok := by
  unfold qzRowStart
  lift_lets
  intro x0 x1
  have h2 : (Dev.ok x0) := by
    dsimp only [x0]
    apply qzWindowEnd_ok
    with_reducible assumption
  have h3 : (Dev.ok x1) := by
    dsimp only [x1]
    apply ite_ok
    · apply qzUpd_ok
      apply sf_ok
      with_reducible assumption
    · with_reducible assumption
  with_reducible assumption

theorem qzRowEnd_ok (k : Nat) (n : Nat) (r : RowRt) (own : Option (Nat × Nat)) (d : Dev) (hd : d.ok) : (qzRowEnd k n r own d).ok := by
  unfold qzRowEnd
  apply whenB_ok
  · intro y0 y1
    apply qzUpd_ok
    with_reducible assumption
  · with_reducible assumption

theorem qzBatchEnd_ok (key : Nat) (k : Nat) (n : Nat) (own : Option (Nat × Nat)) (d : Dev) (hd : d.ok) : (qzBatchEnd key k n own d).ok := by
  unfold qzBatchEnd
  lift_lets
  intro x0
  apply foldl_ok
  · intro y1 y2 y3
    apply qzRowEnd_ok
    apply sf_ok
    with_reducible assumption
  · with_reducible assumption

theorem qzStatic_ok (k : Nat) (n : Nat) (fmt : Nat) (rec_ : Nat) (own : Option (Nat × Nat)) (xs : List Elem) (r : RowRt) (d : Dev) (hd : d.ok) : (qzStatic k n fmt rec_ own xs r d).2.2.ok := by
  unfold qzStatic
  lift_lets
  intro x0 x1
  have h2 : (Dev.ok x1) := by
    dsimp only [x1]
    apply qzAmax_ok
    apply qzCount_ok
    with_reducible assumption
  with_reducible assumption

theorem qzDynamic_ok (a0 : Nat) (k : Nat) (n : Nat) (fmt : Nat) (own : Option (Nat × Nat)) (xs : List Elem) (d : Dev) (hd : d.ok) : (qzDynamic a0 k n fmt own xs d).2.ok := by
  unfold qzDynamic
  lift_lets
  intro x0 x1 x2 x3 x4 x5 x6 x7 x8 x9
  have h10 : (Dev.ok x5) := by
    dsimp only [x5]
    apply ite_ok
    · apply mk_ok
      with_reducible assumption
    · with_reducible assumption
  have h11 : (Dev.ok x7) := by
    dsimp only [x7]
    apply qzAmax_ok
    apply qzClips_ok
    with_reducible assumption
  have h12 : (Dev.ok x8) := by
    dsimp only [x8]
    apply batchFlags_ok
    with_reducible assumption
  with_reducible assumption

end Sys2Proof.Machine
end

