-- ==== Sys2Proof/Laws/KeepsSlots.lean ====
section
/-! SUPPORT. Every operation of Machine/Slots.lean keeps the canonical form of the sparse stores
(`Dev.ok`): memory, error marks, poison marks and registers. -/

namespace Sys2Proof.Machine

theorem mslotUpd_ok (n : Nat) (f : MSlot → MSlot) (d : Dev) (hd : d.ok) : (mslotUpd n f d).ok := by
  unfold mslotUpd
  lift_lets
  intro x0
  apply mk_ok
  with_reducible assumption

theorem sideUpd_ok (n : Nat) (s : Nat) (f : Side → Side) (d : Dev) (hd : d.ok) : (sideUpd n s f d).ok := by
  unfold sideUpd
  apply mslotUpd_ok
  with_reducible assumption

theorem fpRecompute_ok (d : Dev) (hd : d.ok) : (fpRecompute d).ok := by
  unfold fpRecompute
  lift_lets
  intro x0 x1 x2
  apply sf_ok
  apply wr_ok
  with_reducible assumption

theorem extRead_ok (master : Nat) (es : List Extent) (len : Nat) (d : Dev) (hd : d.ok) : (extRead master es len d).2.ok := by
  unfold extRead
  apply foldl2_ok
  · intro y0 y1 y2
    split
    · split
      · rename_i w3 w4 w5 w6 w7 w8 w9 w10 w11 w12 w13 w14
        have h15 := snd_of_eq w14 (by
          apply masterRead_ok
          with_reducible assumption)
        with_reducible assumption
      · rename_i w16 w17 w18 w19 w20 w21 w22 w23 w24 w25 w26
        have h27 := snd_of_eq w26 (by
          apply masterRead_ok
          with_reducible assumption)
        with_reducible assumption
    · with_reducible assumption
  · with_reducible assumption

theorem extsAdd_ok (es : List Extent) (d : Dev) (hd : d.ok) : (extsAdd es d).ok := by
  unfold extsAdd
  apply foldl_ok
  · intro y0 y1 y2
    split
    · lift_lets
      intro x3
      apply mk_ok
      with_reducible assumption
    · with_reducible assumption
  · with_reducible assumption

theorem extsDrop_ok (n : Nat) (s : Nat) (shard : Nat) (d : Dev) (hd : d.ok) : (extsDrop n s shard d).ok := by
  unfold extsDrop
  lift_lets
  intro x0
  apply mk_ok
  with_reducible assumption

theorem eraseSettle_ok (d : Dev) (hd : d.ok) : (eraseSettle d).ok := by
  unfold eraseSettle
  apply forN_ok
  · intro y0 y1 y2
    apply ite_ok
    · apply raise_ok
      apply sideUpd_ok
      with_reducible assumption
    · with_reducible assumption
  · with_reducible assumption

theorem argSet_ok (k : Nat) (b : Nat) (page : Nat) (d : Dev) (hd : d.ok) : (argSet k b page d).ok := by
  unfold argSet
  apply sf_ok
  apply sf_ok
  apply wr_ok
  with_reducible assumption

theorem eraseKick_ok (d : Dev) (hd : d.ok) : (eraseKick d).ok := by
  unfold eraseKick
  lift_lets
  intro x0
  have h1 : (Dev.ok x0) := by
    dsimp only [x0]
    apply forEach_ok
    · intro y2 y3 y4
      apply ite_ok
      · with_reducible assumption
      · apply ite_ok
        · with_reducible assumption
        · apply ite_ok
          · apply mk_ok
            with_reducible assumption
          · apply ite_ok
            · with_reducible assumption
            · apply ite_ok
              · apply opStart_ok
                apply setLast_ok
                apply argSet_ok
                with_reducible assumption
              · apply mk_ok
                apply setLast_ok
                apply argSet_ok
                with_reducible assumption
    · with_reducible assumption
  apply eraseSettle_ok
  with_reducible assumption

theorem eraseEnded_ok (k : Nat) (b : Nat) (d : Dev) (hd : d.ok) : (eraseEnded k b d).ok := by
  unfold eraseEnded
  lift_lets
  intro x0
  apply mk_ok
  with_reducible assumption

theorem freeExts_ok (owner : Option Nat) (check : Bool) (es : List Extent) (d : Dev) (hd : d.ok) : (freeExts owner check es d).ok := by
  unfold freeExts
  apply forEach_ok
  · intro y0 y1 y2
    lift_lets
    intro x3 x4 x5
    apply ite_ok
    · apply scoreEvent_ok
      apply aryRetire_ok
      apply mk_ok
      with_reducible assumption
    · apply mk_ok
      with_reducible assumption
  · with_reducible assumption

theorem adFree_ok (a : AdVer) (d : Dev) (hd : d.ok) : (adFree a d).ok := by
  unfold adFree
  lift_lets
  intro x0 x1
  have h2 : (Dev.ok x0) := by
    dsimp only [x0]
    apply dropPlace_ok
    with_reducible assumption
  apply mk_ok
  with_reducible assumption

theorem copiesRelease_ok (n : Nat) (s : Nat) (d : Dev) (hd : d.ok) : (copiesRelease n s d).2.ok := by
  unfold copiesRelease
  lift_lets
  intro x0 x1 x2 x3
  dsimp only
  apply mk_ok
  with_reducible assumption

theorem sideRelease_ok (n : Nat) (s : Nat) (d : Dev) (hd : d.ok) : (sideRelease n s d).ok := by
  unfold sideRelease
  lift_lets
  intro x0 x1 x2 x3 x4 x5 x6 x7 x8 x9 x10 x11
  have h12 : (Dev.ok (x2).2) := by
    dsimp only [x2]
    apply copiesRelease_ok
    with_reducible assumption
  have h13 : (Dev.ok x3) := by
    dsimp only [x3]
    with_reducible assumption
  have h14 : (Dev.ok x5) := by
    dsimp only [x5]
    apply mk_ok
    with_reducible assumption
  have h15 : (Dev.ok x6) := by
    dsimp only [x6]
    apply sideUpd_ok
    with_reducible assumption
  have h16 : (Dev.ok x9) := by
    dsimp only [x9]
    apply mk_ok
    with_reducible assumption
  have h17 : (Dev.ok x10) := by
    dsimp only [x10]
    apply forEach_ok
    · intro y18 y19 y20
      apply adFree_ok
      with_reducible assumption
    · with_reducible assumption
  have h21 : (Dev.ok x11) := by
    dsimp only [x11]
    apply sideUpd_ok
    with_reducible assumption
  apply eraseKick_ok
  apply freeExts_ok
  with_reducible assumption

theorem retireCheck_ok (n : Nat) (s : Nat) (d : Dev) (hd : d.ok) : (retireCheck n s d).ok := by
  unfold retireCheck
  apply ite_ok
  · apply raise_ok
    apply sideRelease_ok
    with_reducible assumption
  · with_reducible assumption

theorem retireChecks_ok (n : Nat) (d : Dev) (hd : d.ok) : (retireChecks n d).ok := by
  unfold retireChecks
  apply retireCheck_ok
  apply retireCheck_ok
  with_reducible assumption

theorem oldAdapters_ok (n : Nat) (s : Nat) (d : Dev) (hd : d.ok) : (oldAdapters n s d).ok := by
  unfold oldAdapters
  lift_lets
  intro x0 x1
  apply forEach_ok
  · intro y2 y3 y4
    apply adFree_ok
    with_reducible assumption
  · apply sideUpd_ok
    with_reducible assumption

theorem dropBindings_ok (n : Nat) (s : Nat) (d : Dev) (hd : d.ok) : (dropBindings n s d).ok := by
  unfold dropBindings
  lift_lets
  intro x0
  apply mk_ok
  with_reducible assumption

theorem holdEnd_ok (n : Nat) (d : Dev) (hd : d.ok) : (holdEnd n d).ok := by
  unfold holdEnd
  split
  · with_reducible assumption
  · lift_lets
    intro x0 x1
    have h2 : (Dev.ok x0) := by
      dsimp only [x0]
      apply dropBindings_ok
      apply mslotUpd_ok
      with_reducible assumption
    have h3 : (Dev.ok x1) := by
      dsimp only [x1]
      apply mk_ok
      with_reducible assumption
    apply retireCheck_ok
    apply raise_ok
    apply wr_ok
    with_reducible assumption

theorem castleSwitch_ok (n : Nat) (s : Nat) (rebind : Bool) (d : Dev) (hd : d.ok) : (castleSwitch n s rebind d).ok := by
  unfold castleSwitch
  lift_lets
  intro x0 x1 x2 x3 x4 x5
  have h6 : (Dev.ok x0) := by
    dsimp only [x0]
    apply holdEnd_ok
    with_reducible assumption
  have h7 : (Dev.ok x2) := by
    dsimp only [x2]
    apply sideUpd_ok
    with_reducible assumption
  have h8 : (Dev.ok x3) := by
    dsimp only [x3]
    apply mslotUpd_ok
    with_reducible assumption
  have h9 : (Dev.ok x5) := by
    dsimp only [x5]
    clear_value x1 x3 x4
    split
    · with_reducible assumption
    · apply ite_ok
      · apply holdEnd_ok
        apply ite_ok
        · apply sideRelease_ok
          apply sideUpd_ok
          apply mslotUpd_ok
          with_reducible assumption
        · apply sideUpd_ok
          apply mslotUpd_ok
          with_reducible assumption
      · apply ite_ok
        · apply sideRelease_ok
          apply sideUpd_ok
          apply mslotUpd_ok
          with_reducible assumption
        · apply sideUpd_ok
          apply mslotUpd_ok
          with_reducible assumption
  apply fpRecompute_ok
  with_reducible assumption

end Sys2Proof.Machine
end

