-- ==== Sys2Proof/Laws/KeepsFire.lean ====
section
/-! SUPPORT. Every operation of Machine/Fire.lean keeps the canonical form of the sparse stores
(`Dev.ok`): memory, error marks, poison marks and registers. -/

namespace Sys2Proof.Machine

theorem portConsume_ok (f : FireIn) (p : Nat) (d : Dev) (hd : d.ok) : (portConsume f p d).ok := by
  unfold portConsume
  lift_lets
  intro x0
  apply forN_ok
  · intro y1 y2 y3
    apply consume_ok
    with_reducible assumption
  · with_reducible assumption

theorem tokConsume_ok (f : FireIn) (d : Dev) (hd : d.ok) : (tokConsume f d).ok := by
  unfold tokConsume
  split
  · apply portConsume_ok
    with_reducible assumption
  · with_reducible assumption

theorem recConsume_ok (f : FireIn) (t : RunTile) (n : Nat) (d : Dev) (hd : d.ok) : (recConsume f t n d).ok := by
  unfold recConsume
  apply forEach_ok
  · intro y0 y1 y2
    apply consume_ok
    with_reducible assumption
  · with_reducible assumption

theorem mxAdd_ok (f : FireIn) (a : MxAcc) (d : Dev) (hd : d.ok) : (mxAdd f a d).2.ok := by
  unfold mxAdd
  lift_lets
  intro x0 x1 x2 x3 x4 x5 x6 x7 x8 x9 x10
  dsimp only
  apply cntAdd64_ok
  with_reducible assumption

theorem mxDrain_ok (f : FireIn) (a : MxAcc) (d : Dev) (hd : d.ok) : (mxDrain f a d).2.ok := by
  unfold mxDrain
  lift_lets
  intro x0 x1 x2 x3 x4 x5 x6 x7 x8
  have h9 : (Dev.ok x6) := by
    dsimp only [x6]
    split
    · apply ite_ok
      · apply recConsume_ok
        with_reducible assumption
      · with_reducible assumption
    · with_reducible assumption
  dsimp only
  apply accClips_ok
  with_reducible assumption

theorem mxRun_ok (f : FireIn) (d : Dev) (hd : d.ok) : (mxRun f d).2.ok := by
  unfold mxRun
  lift_lets
  intro x0 x1 x2 x3 x4
  have h5 : (Dev.ok (x3).2) := by
    dsimp only [x3]
    apply mxAdd_ok
    with_reducible assumption
  have h6 : (Dev.ok (x4).2) := by
    dsimp only [x4]
    apply mxDrain_ok
    apply stageUpd_ok
    with_reducible assumption
  apply ite2_ok
  · with_reducible assumption
  · dsimp only
    apply stageUpd_ok
    with_reducible assumption

theorem outerG8_ok (f : FireIn) (cur : List Byte) (curBad : List Bool) (d : Dev) (hd : d.ok) : (outerG8 f cur curBad d).2.ok := by
  unfold outerG8
  lift_lets
  intro x0 x1 x2 x3 x4 x5 x6 x7 x8 x9
  have h10 : (Dev.ok x4) := by
    dsimp only [x4]
    apply foldl_ok
    · intro y11 y12 y13
      apply recConsume_ok
      with_reducible assumption
    · with_reducible assumption
  have h14 : (Dev.ok x9) := by
    dsimp only [x9]
    apply cntAdd64_ok
    apply accClips_ok
    with_reducible assumption
  with_reducible assumption

theorem rowEmit_ok (key : Nat) (p : Nat) (len : Nat) (m : Nat) (r : RowRt) (d : Dev) (hd : d.ok) : (rowEmit key p len m r d).2.ok := by
  unfold rowEmit
  lift_lets
  intro x0
  dsimp only
  apply ite_ok
  · apply rowDel_ok
    with_reducible assumption
  · apply rowPut_ok
    with_reducible assumption

theorem qzRow_ok (f : FireIn) (c : QzCfg) (xs : List Elem) (d : Dev) (hd : d.ok) : (qzRow f c xs d).2.ok := by
  unfold qzRow
  lift_lets
  intro x0
  apply foldl2_ok
  · intro y1 y2 y3
    lift_lets
    intro x4 x5
    have h6 : (Dev.ok (x4).2) := by
      dsimp only [x4]
      apply qzDynamic_ok
      with_reducible assumption
    have h7 : (Dev.ok x5) := by
      dsimp only [x5]
      apply ite_ok
      · apply cntAdd_ok
        with_reducible assumption
      · with_reducible assumption
    with_reducible assumption
  · with_reducible assumption

theorem qzSeg_ok (f : FireIn) (c : QzCfg) (s : Seg) (lastSeg : Bool) (d : Dev) (hd : d.ok) : (qzSeg f c s lastSeg d).2.ok := by
  unfold qzSeg
  lift_lets
  intro x0 x1 x2 x3 x4 x5 x6 x7 x8 x9 x10 x11
  have h12 : (Dev.ok (x2).2) := by
    dsimp only [x2]
    apply qzRowStart_ok
    with_reducible assumption
  have h13 : (Dev.ok (x3).2) := by
    dsimp only [x3]
    split
    · with_reducible assumption
    · apply ite2_ok
      · with_reducible assumption
      · with_reducible assumption
  have h14 : (Dev.ok x5) := by
    dsimp only [x5]
    with_reducible assumption
  have h18 : (∀ z15 z16 z17, Dev.ok z17 → Dev.ok (((x6 z15 z16 z17)).2).2) := by
    intro y19 y20 y21 y22
    dsimp only [x6]
    apply qzRow_ok
    apply ite_ok
    · apply sf_ok
      with_reducible assumption
    · with_reducible assumption
  have h23 : (Dev.ok ((x8).2).2) := by
    dsimp only [x8]
    apply ite3_ok
    · apply h18
      with_reducible assumption
    · with_reducible assumption
  have h24 : (Dev.ok (x9).2) := by
    dsimp only [x9]
    apply rowEmit_ok
    with_reducible assumption
  have h25 : (Dev.ok ((x11).2).2) := by
    dsimp only [x11]
    apply h18
    apply rowDel_ok
    with_reducible assumption
  split
  · lift_lets
    intro x26 x27 x28 x29
    have h30 : (Dev.ok ((x26).2).2) := by
      dsimp only [x26]
      apply qzStatic_ok
      with_reducible assumption
    dsimp only
    apply ite_ok
    · apply qzRowEnd_ok
      apply rowDel_ok
      with_reducible assumption
    · apply rowPut_ok
      with_reducible assumption
  · apply ite2_ok
    · with_reducible assumption
    · split
      · dsimp only
        apply rowPut_ok
        with_reducible assumption
      · with_reducible assumption
      · apply ite2_ok
        · with_reducible assumption
        · dsimp only
          apply rowPut_ok
          with_reducible assumption

theorem qzRun_ok (f : FireIn) (c : QzCfg) (its : List Item) (d : Dev) (hd : d.ok) : (qzRun f c its d).2.ok := by
  unfold qzRun
  lift_lets
  intro x0 x1 x2
  apply foldl2_ok
  · intro y3 y4 y5
    lift_lets
    intro x6
    have h7 : (Dev.ok (x6).2) := by
      dsimp only [x6]
      apply qzSeg_ok
      with_reducible assumption
    with_reducible assumption
  · with_reducible assumption

theorem rqRow_ok (f : FireIn) (c : QzCfg) (t : Nat) (arec : Elem) (a4 : Nat) (a5 : List ((Int × Bool) × Elem)) (a6 : Dev) (ha6 : a6.ok) : (rqRow f c t arec a4 a5 a6).2.ok := by
  induction a4 generalizing f c t arec a5 a6
  · unfold rqRow
    with_reducible assumption
  · rename_i u0 ih
    unfold rqRow
    lift_lets
    intro x0 x1 x2 x3 x4 x5 x6 x7 x8 x9 x10 x11 x12 x13
    have h14 : (Dev.ok (x1).2) := by
      dsimp only [x1]
      apply qzRowStart_ok
      with_reducible assumption
    have h15 : (Dev.ok (x2).2) := by
      dsimp only [x2]
      split
      · with_reducible assumption
      · with_reducible assumption
    have h16 : (Dev.ok x7) := by
      dsimp only [x7]
      apply qzCount_ok
      with_reducible assumption
    have h17 : (Dev.ok x12) := by
      dsimp only [x12]
      apply ite_ok
      · apply qzRowEnd_ok
        apply rowDel_ok
        with_reducible assumption
      · apply rowPut_ok
        with_reducible assumption
    have h18 : (Dev.ok (x13).2) := by
      dsimp only [x13]
      apply ih
      with_reducible assumption
    apply ite2_ok
    · with_reducible assumption
    · with_reducible assumption

theorem tokKeep_ok (f : FireIn) (l : List (Seg × Elem)) (d : Dev) (hd : d.ok) : (tokKeep f l d).ok := by
  unfold tokKeep
  lift_lets
  intro x0
  split
  · with_reducible assumption
  · apply ite_ok
    · apply rowDel_ok
      with_reducible assumption
    · apply rowPut_ok
      with_reducible assumption

theorem streamRecs_ok (f : FireIn) (d : Dev) (hd : d.ok) : (streamRecs f d).2.ok := by
  unfold streamRecs
  dsimp only
  apply foldl_ok
  · intro y0 y1 y2
    apply recConsume_ok
    with_reducible assumption
  · with_reducible assumption

theorem vxRow_ok (f : FireIn) (g : List Nat → List Nat) (p : Bool) (es : List Elem) (d : Dev) (hd : d.ok) : (vxRow f g p es d).2.ok := by
  unfold vxRow
  lift_lets
  intro x0 x1 x2 x3
  have h4 : (Dev.ok (x3).2) := by
    dsimp only [x3]
    apply rowEmit_ok
    with_reducible assumption
  split
  · with_reducible assumption
  · apply ite2_ok
    · dsimp only
      apply rowPut_ok
      with_reducible assumption
    · apply ite2_ok
      · with_reducible assumption
      · with_reducible assumption

theorem vxRun_ok (f : FireIn) (mx : Option MxOut) (d : Dev) (hd : d.ok) : (vxRun f mx d).2.ok := by
  unfold vxRun
  lift_lets
  intro x0 x1 x2 x3 x4 x5 x6 x7 x8 x9 x10 x11 x12
  have h14 : (∀ z13, Dev.ok ((x5 z13)).2) := by
    intro y15
    dsimp only [x5]
    with_reducible assumption
  have h16 : (Dev.ok (x6).2) := by
    dsimp only [x6]
    apply streamRecs_ok
    with_reducible assumption
  split
  · with_reducible assumption
  · split
    · with_reducible assumption
    · split
      · apply foldl2_ok
        · intro y17 y18 y19
          lift_lets
          intro x20 x21
          have h22 : (Dev.ok (x21).2) := by
            dsimp only [x21]
            apply rqRow_ok
            with_reducible assumption
          with_reducible assumption
        · with_reducible assumption
      · apply foldl2_ok
        · intro y23 y24 y25
          lift_lets
          intro x26 x27
          have h28 : (Dev.ok (x27).2) := by
            dsimp only [x27]
            apply rqRow_ok
            with_reducible assumption
          with_reducible assumption
        · with_reducible assumption
  · split
    · with_reducible assumption
    · lift_lets
      intro x29 x30
      split
      · lift_lets
        intro x31
        dsimp only
        apply qzLow_ok
        with_reducible assumption
      · dsimp only
        apply qzLow_ok
        apply tokKeep_ok
        with_reducible assumption
  · split
    · with_reducible assumption
    · apply qzRun_ok
      with_reducible assumption
  · split
    · with_reducible assumption
    · lift_lets
      intro x32 x33
      dsimp only
      apply qzLow_ok
      apply tokKeep_ok
      with_reducible assumption
  · with_reducible assumption
  · with_reducible assumption
  · with_reducible assumption
  · apply vxRow_ok
    with_reducible assumption
  · apply vxRow_ok
    with_reducible assumption
  · apply vxRow_ok
    with_reducible assumption
  · with_reducible assumption
  · dsimp only
    apply accClips_ok
    with_reducible assumption
  · with_reducible assumption
  · with_reducible assumption

end Sys2Proof.Machine
end

