-- ==== Sys2Proof/Laws/KeepsEngine.lean ====
section
/-! SUPPORT. Every operation of Machine/Engine.lean keeps the canonical form of the sparse stores
(`Dev.ok`): memory, error marks, poison marks and registers. -/

namespace Sys2Proof.Machine

theorem setEngState_ok (k : Nat) (st : Nat) (d : Dev) (hd : d.ok) : (setEngState k st d).ok := by
  unfold setEngState
  apply sf_ok
  with_reducible assumption

theorem tgtRead_ok (a0 : Nat) (t : Tgt) (len : Nat) (d : Dev) (hd : d.ok) : (tgtRead a0 t len d).2.ok := by
  unfold tgtRead
  lift_lets
  intro x0
  split
  · lift_lets
    intro x1 x2
    have h3 : (Dev.ok (x2).2) := by
      dsimp only [x2]
      apply xlateRead_ok
      with_reducible assumption
    with_reducible assumption
  · lift_lets
    intro x4 x5
    split
    · rename_i w6 w7 w8 w9 w10 w11 w12
      have h13 := snd_of_eq w12 (by
        apply masterRead_ok
        with_reducible assumption)
      with_reducible assumption
    · rename_i w14 w15 w16 w17 w18 w19
      have h20 := snd_of_eq w19 (by
        apply masterRead_ok
        with_reducible assumption)
      with_reducible assumption
  · with_reducible assumption
  · dsimp only
    apply ueEntry_ok
    apply xlateFault_ok
    with_reducible assumption

theorem tgtWrite_ok (a0 : Nat) (stage : Nat) (w : PendWr) (d : Dev) (hd : d.ok) : (tgtWrite a0 stage w d).ok := by
  unfold tgtWrite
  split
  · apply xlateWrite_ok
    with_reducible assumption
  · apply masterWrite_ok
    with_reducible assumption

theorem tgtWrites_ok (a0 : Nat) (t : Tgt) (bs : List Byte) (bad : List Bool) (d : Dev) (hd : d.ok) : (tgtWrites a0 t bs bad d).2.ok := by
  unfold tgtWrites
  split
  · with_reducible assumption
  · with_reducible assumption
  · with_reducible assumption
  · dsimp only
    apply xlateFault_ok
    with_reducible assumption

theorem wsSense_ok (a0 : Nat) (k : Nat) (s : Stg) (p : Nat × Nat) (d : Dev) (hd : d.ok) : (wsSense a0 k s p d).ok := by
  unfold wsSense
  lift_lets
  intro x0 x1 x2
  apply contRead_ok
  with_reducible assumption

theorem crossTake_ok (a0 : Nat) (st : Nat) (d : Dev) (hd : d.ok) : (crossTake a0 st d).ok := by
  unfold crossTake
  apply aryUpd_ok
  with_reducible assumption

theorem crossDrop_ok (a0 : Nat) (d : Dev) (hd : d.ok) : (crossDrop a0 d).ok := by
  unfold crossDrop
  apply forN_ok
  · intro y0 y1 y2
    apply ite_ok
    · apply aryUpd_ok
      with_reducible assumption
    · with_reducible assumption
  · with_reducible assumption

theorem readsStop_ok (a0 : Nat) (key : Option Nat) (d : Dev) (hd : d.ok) : (readsStop a0 key d).ok := by
  unfold readsStop
  lift_lets
  intro x0
  apply forN_ok
  · intro y1 y2 y3
    lift_lets
    intro x4
    have h5 : (Dev.ok x4) := by
      dsimp only [x4]
      apply ite_ok
      · apply aryUpd_ok
        with_reducible assumption
      · with_reducible assumption
    beta_reduce
    apply ite_ok
    · apply contStop_ok
      apply ite_ok
      · apply contStop_ok
        with_reducible assumption
      · with_reducible assumption
    · apply ite_ok
      · apply contStop_ok
        with_reducible assumption
      · with_reducible assumption
  · with_reducible assumption

theorem wsDrop_ok (a0 : Nat) (key : Nat) (d : Dev) (hd : d.ok) : (wsDrop a0 key d).ok := by
  unfold wsDrop
  apply readsStop_ok
  apply stageUpd_ok
  with_reducible assumption

theorem auFetch_ok (k : Nat) (id : Nat) (d : Dev) (hd : d.ok) : (auFetch k id d).ok := by
  unfold auFetch
  split
  · with_reducible assumption
  · lift_lets
    intro x0 x1 x2 x3 x4 x5 x6 x7 x8 x9 x10 x11 x12
    have h13 : (Dev.ok (x9).2) := by
      dsimp only [x9]
      apply tgtRead_ok
      with_reducible assumption
    have h14 : (Dev.ok x11) := by
      dsimp only [x11]
      apply stageUpd_ok
      with_reducible assumption
    apply ite_ok
    · with_reducible assumption
    · split
      · apply mk_ok
        with_reducible assumption
      · apply mk_ok
        with_reducible assumption

theorem wsBlank_ok (t : RunTile) (p : Nat × Nat) (d : Dev) (hd : d.ok) : (wsBlank t p d).2.ok := by
  unfold wsBlank
  dsimp only
  apply ueEntry_ok
  apply cntAdd_ok
  with_reducible assumption

theorem wsJoin_ok (a0 : Nat) (k : Nat) (s : Stg) (t : RunTile) (share : Option Nat) (d : Dev) (hd : d.ok) : (wsJoin a0 k s t share d).ok := by
  unfold wsJoin
  lift_lets
  intro x0 x1
  have h2 : (Dev.ok x0) := by
    dsimp only [x0]
    apply stageUpd_ok
    with_reducible assumption
  apply mk_ok
  with_reducible assumption

theorem wsFetch_ok (k : Nat) (id : Nat) (d : Dev) (hd : d.ok) : (wsFetch k id d).ok := by
  unfold wsFetch
  split
  · with_reducible assumption
  · lift_lets
    intro x0 x1 x2 x3 x4 x5
    have h7 : (∀ z6, Dev.ok z6 → Dev.ok (x5 z6)) := by
      intro y8 y9
      dsimp only [x5]
      apply foldl_ok
      · intro y10 y11 y12
        apply wsSense_ok
        with_reducible assumption
      · apply wsJoin_ok
        with_reducible assumption
    apply ite_ok
    · with_reducible assumption
    · split
      · lift_lets
        intro x13
        have h14 : (Dev.ok (x13).2) := by
          dsimp only [x13]
          apply wsBlank_ok
          with_reducible assumption
        apply wsJoin_ok
        with_reducible assumption
      · split
        · apply h7
          with_reducible assumption
        · apply ite_ok
          · apply h7
            apply crossTake_ok
            with_reducible assumption
          · with_reducible assumption

theorem wsRead_ok (ad : List (Option Nat)) (d : Dev) (hd : d.ok) : (wsRead ad d).2.ok := by
  unfold wsRead
  apply foldl2_ok
  · intro y0 y1 y2
    split
    · with_reducible assumption
    · lift_lets
      intro x3 x4
      have h5 : (Dev.ok x3) := by
        dsimp only [x3]
        with_reducible assumption
      have h6 : (Dev.ok (x4).2) := by
        dsimp only [x4]
        split
        · split
          · apply readReg_ok
            with_reducible assumption
          · apply readMem_ok
            with_reducible assumption
        · apply readMem_ok
          with_reducible assumption
      with_reducible assumption
  · with_reducible assumption

theorem wsDone_ok (a0 : Nat) (pages : List (Nat × Nat)) (d : Dev) (hd : d.ok) : (wsDone a0 pages d).ok := by
  unfold wsDone
  lift_lets
  intro x0 x1
  have h2 : (Dev.ok x0) := by
    dsimp only [x0]
    apply ite_ok
    · apply crossDrop_ok
      with_reducible assumption
    · with_reducible assumption
  apply foldl_ok
  · intro y3 y4 y5
    apply contNext_ok
    with_reducible assumption
  · with_reducible assumption

theorem firingUpd_ok (key : Nat) (g : Firing → Firing) (d : Dev) (hd : d.ok) : (firingUpd key g d).ok := by
  unfold firingUpd
  apply stageUpd_ok
  with_reducible assumption

theorem credBack_ok (k : Nat) (port : Nat) (n : Nat) (d : Dev) (hd : d.ok) : (credBack k port n d).ok := by
  unfold credBack
  split
  · with_reducible assumption
  · split
    · apply setFifo_ok
      with_reducible assumption
    · with_reducible assumption

theorem owedFlush_ok (k : Nat) (id : Nat) (n : Nat) (d : Dev) (hd : d.ok) : (owedFlush k id n d).ok := by
  induction n generalizing d with
  | zero => exact hd
  | succ n ih =>
    unfold owedFlush
    dsimp only
    split
    · exact hd
    · split
      · exact hd
      · split
        · exact hd
        · apply ih
          split
          · apply fifoSend_ok
            split
            · exact stageUpd_ok _ _ _ hd
            · exact credBack_ok _ _ _ _ (stageUpd_ok _ _ _ hd)
          · split
            · exact stageUpd_ok _ _ _ hd
            · exact credBack_ok _ _ _ _ (stageUpd_ok _ _ _ hd)

theorem fireDeliver_ok (k : Nat) (s : Stg) (o : FireOut) (d : Dev) (hd : d.ok) : (fireDeliver k s o d).ok := by
  unfold fireDeliver
  lift_lets
  intro x0 x1 x2 x3 x4 x5 x6 x7
  have h11 : (∀ z8 z9 z10, Dev.ok z10 → Dev.ok (x6 z8 z9 z10)) := by
    intro y12 y13 y14 y15
    dsimp only [x6]
    apply firingUpd_ok
    with_reducible assumption
  split
  · with_reducible assumption
  · lift_lets
    intro x16 x17 x18
    have h22 : (∀ z19 z20 z21, Dev.ok z21 → Dev.ok (x16 z19 z20 z21)) := by
      intro y23 y24 y25 y26
      dsimp only [x16]
      apply stageUpd_ok
      apply tgtWrites_ok
      with_reducible assumption
    have h27 : (Dev.ok x17) := by
      dsimp only [x17]
      split
      · apply h22
        with_reducible assumption
      · apply h11
        with_reducible assumption
      · with_reducible assumption
    have h28 : (Dev.ok x18) := by
      dsimp only [x18]
      split
      · apply h22
        with_reducible assumption
      · apply h11
        apply stageUpd_ok
        with_reducible assumption
      · with_reducible assumption
    apply stageUpd_ok
    with_reducible assumption

theorem optFire_ok (f : FireIn) (d : Dev) (hd : d.ok) : (optFire f d).2.ok := by
  unfold optFire
  lift_lets
  intro x0 x1 x2 x3 x4 x5 x6 x7 x8 x9 x10 x11 x12 x13 x14 x15 x16
  have h17 : (Dev.ok x1) := by
    dsimp only [x1]
    apply portConsume_ok
    with_reducible assumption
  have h18 : (Dev.ok (x11).2) := by
    dsimp only [x11]
    apply xlateRead_ok
    with_reducible assumption
  have h19 : (Dev.ok (x16).2) := by
    dsimp only [x16]
    apply foldl2_ok
    · intro y20 y21 y22
      dsimp only
      apply cntAdd_ok
      apply qzLow_ok
      apply qzClips_ok
      apply xlateRead_ok
      apply xlateRead_ok
      with_reducible assumption
    · with_reducible assumption
  with_reducible assumption

theorem laneSeeds_ok (a0 : Nat) (train : Bool) (d : Dev) (hd : d.ok) : (laneSeeds a0 train d).ok := by
  unfold laneSeeds
  lift_lets
  intro x0 x1 x2 x3
  have h4 : (Dev.ok (x1).2) := by
    dsimp only [x1]
    apply ite2_ok
    · with_reducible assumption
    · dsimp only
      apply takeFree_ok
      with_reducible assumption
  have h5 : (Dev.ok x2) := by
    dsimp only [x2]
    with_reducible assumption
  apply mk_ok
  with_reducible assumption

theorem firePull_ok (k : Nat) (s : Stg) (d : Dev) (hd : d.ok) : (firePull k s d).ok := by
  unfold firePull
  lift_lets
  intro x0 x1 x2 x3 x4
  have h5 : (Dev.ok x3) := by
    dsimp only [x3]
    apply ite_ok
    · apply wsDrop_ok
      with_reducible assumption
    · with_reducible assumption
  split
  · with_reducible assumption
  · lift_lets
    intro x6 x7 x8 x9
    apply firingUpd_ok
    apply stageUpd_ok
    with_reducible assumption

theorem fireCompute_ok (k : Nat) (s : Stg) (d : Dev) (hd : d.ok) : (fireCompute k s d).ok := by
  unfold fireCompute
  lift_lets
  intro x0 x1 x2 x3 x4
  have h5 : (Dev.ok x1) := by
    dsimp only [x1]
    apply firePull_ok
    with_reducible assumption
  split
  · with_reducible assumption
  · lift_lets
    intro x6 x7 x8 x9 x10 x11
    have h12 : (Dev.ok x7) := by
      dsimp only [x7]
      apply tokConsume_ok
      with_reducible assumption
    have h13 : (Dev.ok x9) := by
      dsimp only [x9]
      apply ite_ok
      · apply laneSeeds_ok
        with_reducible assumption
      · with_reducible assumption
    have h14 : (Dev.ok (x10).2) := by
      dsimp only [x10]
      apply optFire_ok
      with_reducible assumption
    have h15 : (Dev.ok (x11).2) := by
      dsimp only [x11]
      apply vxRun_ok
      with_reducible assumption
    apply ite_ok
    · with_reducible assumption
    · apply ite_ok
      · split
        · lift_lets
          intro x16 x17 x18 x19
          have h20 : (Dev.ok (x17).2) := by
            dsimp only [x17]
            apply tgtRead_ok
            with_reducible assumption
          have h21 : (Dev.ok (x18).2) := by
            dsimp only [x18]
            apply outerG8_ok
            with_reducible assumption
          have h22 : (Dev.ok (x19).2) := by
            dsimp only [x19]
            apply tgtWrites_ok
            with_reducible assumption
          apply fireDeliver_ok
          apply foldl_ok
          · intro y23 y24 y25
            apply tgtWrite_ok
            with_reducible assumption
          · with_reducible assumption
        · apply fireDeliver_ok
          with_reducible assumption
      · apply ite_ok
        · apply fireDeliver_ok
          apply stageUpd_ok
          with_reducible assumption
        · apply ite_ok
          · apply fireDeliver_ok
            with_reducible assumption
          · split
            · rename_i w26 w27 w28 w29 w30 w31
              have h32 := snd_of_eq w31 (by
                apply mxRun_ok
                with_reducible assumption)
              apply fireDeliver_ok
              with_reducible assumption
            · rename_i w33 w34 w35 w36 w37 w38 w39
              have h40 := snd_of_eq w39 (by
                apply mxRun_ok
                with_reducible assumption)
              lift_lets
              intro x41
              have h42 : (Dev.ok (x41).2) := by
                dsimp only [x41]
                apply vxRun_ok
                with_reducible assumption
              apply fireDeliver_ok
              with_reducible assumption

theorem fireWaits_ok (a0 : Nat) (key : Nat) (s : Stg) (d : Dev) (hd : d.ok) : (fireWaits a0 key s d).2.ok := by
  unfold fireWaits
  apply ite2_ok
  · with_reducible assumption
  · apply foldl2_ok
    · intro y0 y1 y2
      lift_lets
      intro x3 x4
      have h5 : (Dev.ok (x4).2) := by
        dsimp only [x4]
        apply stageWait_ok
        with_reducible assumption
      apply ite2_ok
      · with_reducible assumption
      · apply ite2_ok
        · dsimp only
          apply stageUpd_ok
          with_reducible assumption
        · with_reducible assumption
    · with_reducible assumption

theorem fireTake_ok (k : Nat) (ins : FMap (List Item)) (d : Dev) (hd : d.ok) : (fireTake k ins d).ok := by
  unfold fireTake
  apply foldl_ok
  · intro y0 y1 y2
    split
    · with_reducible assumption
    · lift_lets
      intro x3 x4
      apply fifoRead_ok
      apply setDst_ok
      with_reducible assumption
  · with_reducible assumption

theorem fireReserve_ok (k : Nat) (s : Stg) (d : Dev) (hd : d.ok) : (fireReserve k s d).2.ok := by
  unfold fireReserve
  apply foldl2_ok
  · intro y0 y1 y2
    split
    · with_reducible assumption
    · split
      · with_reducible assumption
      · apply ite2_ok
        · with_reducible assumption
        · dsimp only
          apply setFifo_ok
          with_reducible assumption
  · with_reducible assumption

theorem fireTry_ok (a0 : Nat) (k : Nat) (s : Stg) (d : Dev) (hd : d.ok) : (fireTry a0 k s d).2.ok := by
  unfold fireTry
  lift_lets
  intro x0 x1
  split
  · with_reducible assumption
  · split
    · rename_i w2 w3 w4 w5 w6 w7
      have h8 := snd_of_eq w7 (by
        apply fireWaits_ok
        with_reducible assumption)
      with_reducible assumption
    · rename_i w9 w10 w11 w12 w13 w14
      have h15 := snd_of_eq w14 (by
        apply fireWaits_ok
        with_reducible assumption)
      lift_lets
      intro x16 x17 x18 x19 x20 x21 x22 x23 x24 x25 x26 x27 x28 x29
      have h30 : (Dev.ok x21) := by
        dsimp only [x21]
        apply fireTake_ok
        with_reducible assumption
      have h31 : (Dev.ok (x25).2) := by
        dsimp only [x25]
        apply fireReserve_ok
        with_reducible assumption
      have h32 : (Dev.ok x27) := by
        dsimp only [x27]
        apply stageUpd_ok
        with_reducible assumption
      have h33 : (Dev.ok x29) := by
        dsimp only [x29]
        apply mk_ok
        with_reducible assumption
      dsimp only
      apply fireCompute_ok
      apply cntAdd64_ok
      with_reducible assumption

theorem stallAdd_ok (r : Reg) (a1 : Nat) (n : Nat) (d : Dev) (hd : d.ok) : (stallAdd r a1 n d).ok := by
  unfold stallAdd
  lift_lets
  intro x0 x1
  have h2 : (Dev.ok x1) := by
    dsimp only [x1]
    apply cntAdd64_ok
    with_reducible assumption
  apply ite_ok
  · apply raise_ok
    with_reducible assumption
  · with_reducible assumption

theorem stageFire_ok (a0 : Nat) (written : Nat) (lackIn : Nat) (lackCred : Nat) (lackWait : Nat) (d : Dev) (hd : d.ok) : (stageFire a0 written lackIn lackCred lackWait d).ok := by
  unfold stageFire
  lift_lets
  intro x0 x1 x2 x3
  have h4 : (Dev.ok x0) := by
    dsimp only [x0]
    apply stallAdd_ok
    apply stallAdd_ok
    apply stallAdd_ok
    with_reducible assumption
  have h5 : (Dev.ok (x3).2) := by
    dsimp only [x3]
    apply foldl2_ok
    · intro y6 y7 y8
      split
      · with_reducible assumption
      · dsimp only
        apply fireTry_ok
        with_reducible assumption
    · with_reducible assumption
  split
  · apply owedFlush_ok
    with_reducible assumption
  · with_reducible assumption

theorem wsArrival_ok (k : Nat) (s : Stg) (stalled : Nat) (d : Dev) (hd : d.ok) : (wsArrival k s stalled d).ok := by
  unfold wsArrival
  dsimp only
  split
  · exact hd
  · have put : ∀ (b : Bool) (r : Reg) (n h : Nat) (pages : List (Nat × Nat)) (f : StageRt → StageRt) (e : Dev), e.ok →
        Dev.ok (fireCompute k s (wsDone h pages (whenB b (stallAdd r h n) (stageUpd (stKey k s.id) f e)))) := by
      intro b r n h pages f e he
      exact fireCompute_ok _ _ _ (wsDone_ok _ _ _ (whenB_ok _ _ _ (fun v hv => stallAdd_ok _ _ _ _ hv) (stageUpd_ok _ _ _ he)))
    split
    · exact put _ _ _ _ _ _ _ hd
    · split
      · exact put _ _ _ _ _ _ _ (wsBlank_ok _ _ _ hd)
      · split
        · exact wsSense_ok _ _ _ _ _ hd
        · split
          · exact wsSense_ok _ _ _ _ _ (crossTake_ok _ _ _ (crossDrop_ok _ _ hd))
          · exact crossDrop_ok _ _ hd
      · split
        · exact hd
        · exact put _ _ _ _ _ _ _ (wsRead_ok _ _ hd)

theorem fetchArrival_ok (k : Nat) (id : Nat) (weights : Bool) (stalled : Nat) (d : Dev) (hd : d.ok) : (fetchArrival k id weights stalled d).ok := by
  unfold fetchArrival
  split
  · with_reducible assumption
  · lift_lets
    intro x0
    apply ite_ok
    · apply wsArrival_ok
      with_reducible assumption
    · split
      · with_reducible assumption
      · apply fireCompute_ok
        apply stageUpd_ok
        with_reducible assumption

theorem auWrite_ok (k : Nat) (id : Nat) (d : Dev) (hd : d.ok) : (auWrite k id d).ok := by
  unfold auWrite
  lift_lets
  intro x0
  split
  · with_reducible assumption
  · lift_lets
    intro x1 x2 x3
    have h4 : (Dev.ok x1) := by
      dsimp only [x1]
      apply stageUpd_ok
      with_reducible assumption
    have h5 : (Dev.ok x3) := by
      dsimp only [x3]
      split
      · apply ite_ok
        · apply mk_ok
          with_reducible assumption
        · with_reducible assumption
      · with_reducible assumption
    apply tgtWrite_ok
    with_reducible assumption

theorem firingEnd_ok (k : Nat) (id : Nat) (d : Dev) (hd : d.ok) : (firingEnd k id d).ok := by
  unfold firingEnd
  lift_lets
  intro x0
  split
  · with_reducible assumption
  · lift_lets
    intro x1 x2 x3
    have h4 : (Dev.ok x1) := by
      dsimp only [x1]
      apply owedFlush_ok
      with_reducible assumption
    have h5 : (Dev.ok x3) := by
      dsimp only [x3]
      apply foldl_ok
      · intro y6 y7 y8
        apply credBack_ok
        with_reducible assumption
      · with_reducible assumption
    apply ite_ok
    · apply stageUpd_ok
      with_reducible assumption
    · with_reducible assumption

theorem portMark_ok (k : Nat) (rt : StageRt) (p : Nat) (d : Dev) (hd : d.ok) : (portMark k rt p d).ok := by
  unfold portMark
  split
  · with_reducible assumption
  · apply ite_ok
    · with_reducible assumption
    · apply ite_ok
      · apply fifoEndLast_ok
        with_reducible assumption
      · apply fifoSend_ok
        with_reducible assumption

theorem stageBatchEnd_ok (k : Nat) (id : Nat) (d : Dev) (hd : d.ok) : (stageBatchEnd k id d).ok := by
  unfold stageBatchEnd
  split
  · with_reducible assumption
  · lift_lets
    intro x0 x1 x2 x3 x4 x5 x6 x7 x8 x9
    have h10 : (Dev.ok x5) := by
      dsimp only [x5]
      apply ite_ok
      · apply forEach_ok
        · intro y11 y12 y13
          apply portMark_ok
          with_reducible assumption
        · with_reducible assumption
      · with_reducible assumption
    have h14 : (Dev.ok x6) := by
      dsimp only [x6]
      apply foldl_ok
      · intro y15 y16 y17
        split
        · apply portNext_ok
          with_reducible assumption
        · with_reducible assumption
      · with_reducible assumption
    have h18 : (Dev.ok x7) := by
      dsimp only [x7]
      apply ite_ok
      · with_reducible assumption
      · apply qzBatchEnd_ok
        with_reducible assumption
    have h19 : (Dev.ok x9) := by
      dsimp only [x9]
      apply ite_ok
      · apply wsDrop_ok
        with_reducible assumption
      · with_reducible assumption
    apply ite_ok
    · with_reducible assumption
    · apply stageUpd_ok
      with_reducible assumption

theorem stageSignals_ok (k : Nat) (id : Nat) (d : Dev) (hd : d.ok) : (stageSignals k id d).ok := by
  unfold stageSignals
  split
  · with_reducible assumption
  · lift_lets
    intro x0 x1 x2 x3 x4
    have h5 : (Dev.ok x4) := by
      dsimp only [x4]
      apply stageUpd_ok
      with_reducible assumption
    apply ite_ok
    · with_reducible assumption
    · apply foldl_ok
      · intro y6 y7 y8
        apply stageSignal_ok
        with_reducible assumption
      · with_reducible assumption

theorem engWaitTimeout_ok (k : Nat) (id : Nat) (w : Nat) (d : Dev) (hd : d.ok) : (engWaitTimeout k id w d).ok := by
  unfold engWaitTimeout
  split
  · with_reducible assumption
  · lift_lets
    intro x0 x1
    apply ite_ok
    · with_reducible assumption
    · split
      · rename_i w2 w3 w4 w5 w6 w7
        have h8 := snd_of_eq w7 (by
          apply fireWaits_ok
          with_reducible assumption)
        with_reducible assumption
      · rename_i w9 w10 w11 w12 w13 w14
        have h15 := snd_of_eq w14 (by
          apply fireWaits_ok
          with_reducible assumption)
        lift_lets
        intro x16 x17
        apply ite_ok
        · with_reducible assumption
        · apply raise_ok
          apply logOnce_ok
          · intro y18 y19
            apply sf_ok
            apply sf_ok
            with_reducible assumption
          · apply stageUpd_ok
            with_reducible assumption

theorem hostPorts_ok (d : Dev) (hd : d.ok) : (hostPorts d).ok := by
  unfold hostPorts
  lift_lets
  intro x0 x1
  apply mk_ok
  with_reducible assumption

theorem engEach_ok (a0 : Nat) (f : Nat → Nat → Dev → Dev) (d : Dev) (hf : ∀ v0 v1 v2, v2.ok → (f v0 v1 v2).ok) (hd : d.ok) : (engEach a0 f d).ok := by
  unfold engEach
  apply foldl_ok
  · intro y0 y1 y2
    apply hf
    with_reducible assumption
  · with_reducible assumption

theorem engDiscard_ok (a0 : Nat) (d : Dev) (hd : d.ok) : (engDiscard a0 d).ok := by
  unfold engDiscard
  apply readsStop_ok
  apply engEach_ok
  · intro y0 y1 y2 y3
    apply stageUpd_ok
    with_reducible assumption
  · with_reducible assumption

theorem engTake_ok (k : Nat) (st : Nat) (d : Dev) (hd : d.ok) : (engTake k st d).ok := by
  unfold engTake
  lift_lets
  intro x0 x1
  have h2 : (Dev.ok x0) := by
    dsimp only [x0]
    apply setEngState_ok
    with_reducible assumption
  apply ite_ok
  · apply mk_ok
    with_reducible assumption
  · with_reducible assumption

theorem engKeep_ok (k : Nat) (st : Nat) (d : Dev) (hd : d.ok) : (engKeep k st d).ok := by
  unfold engKeep
  lift_lets
  intro x0 x1
  have h2 : (Dev.ok x0) := by
    dsimp only [x0]
    apply setEngState_ok
    with_reducible assumption
  apply mk_ok
  with_reducible assumption

theorem engDrain_ok (k : Nat) (d : Dev) (hd : d.ok) : (engDrain k d).ok := by
  unfold engDrain
  lift_lets
  intro x0 x1 x2 x3
  have h4 : (Dev.ok x0) := by
    dsimp only [x0]
    apply sf_ok
    with_reducible assumption
  have h5 : (Dev.ok x2) := by
    dsimp only [x2]
    apply ite_ok
    · apply engKeep_ok
      with_reducible assumption
    · apply setEngState_ok
      with_reducible assumption
  apply ite_ok
  · apply mk_ok
    with_reducible assumption
  · with_reducible assumption

theorem engDrained_ok (k : Nat) (d : Dev) (hd : d.ok) : (engDrained k d).ok := by
  unfold engDrained
  apply ite_ok
  · apply raise_ok
    apply setEngState_ok
    apply engDiscard_ok
    with_reducible assumption
  · with_reducible assumption

theorem engDrainSlow_ok (k : Nat) (d : Dev) (hd : d.ok) : (engDrainSlow k d).ok := by
  unfold engDrainSlow
  lift_lets
  intro x0
  apply ite_ok
  · apply raise_ok
    apply mk_ok
    with_reducible assumption
  · with_reducible assumption

theorem engRestart_ok (k : Nat) (d : Dev) (hd : d.ok) : (engRestart k d).ok := by
  unfold engRestart
  apply engEach_ok
  · intro y0 y1 y2 y3
    apply stageUpd_ok
    with_reducible assumption
  · with_reducible assumption

theorem engEnable_ok (k : Nat) (d : Dev) (hd : d.ok) : (engEnable k d).ok := by
  unfold engEnable
  lift_lets
  intro x0 x1 x2
  have h3 : (Dev.ok x0) := by
    dsimp only [x0]
    apply sf_ok
    with_reducible assumption
  have h5 : (∀ z4, Dev.ok z4 → Dev.ok (x2 z4)) := by
    intro y6 y7
    dsimp only [x2]
    apply ite_ok
    · apply engKeep_ok
      with_reducible assumption
    · apply setEngState_ok
      with_reducible assumption
  apply ite_ok
  · apply h5
    with_reducible assumption
  · apply ite_ok
    · apply h5
      apply engRestart_ok
      with_reducible assumption
    · with_reducible assumption

theorem killFirings_ok (k : Nat) (id : Nat) (d : Dev) (hd : d.ok) : (killFirings k id d).ok := by
  unfold killFirings
  lift_lets
  intro x0 x1 x2
  split
  · with_reducible assumption
  · lift_lets
    intro x3 x4 x5 x6 x7 x8
    have h9 : (Dev.ok x4) := by
      dsimp only [x4]
      apply stageUpd_ok
      with_reducible assumption
    have h10 : (Dev.ok x6) := by
      dsimp only [x6]
      apply forN_ok
      · intro y11 y12 y13
        apply ueEntry_ok
        with_reducible assumption
      · with_reducible assumption
    have h14 : (Dev.ok x7) := by
      dsimp only [x7]
      apply owedFlush_ok
      with_reducible assumption
    have h15 : (Dev.ok x8) := by
      dsimp only [x8]
      apply foldl_ok
      · intro y16 y17 y18
        apply foldl_ok
        · intro y19 y20 y21
          apply credBack_ok
          with_reducible assumption
        · with_reducible assumption
      · with_reducible assumption
    apply stageUpd_ok
    with_reducible assumption

theorem killHeld_ok (a0 : Nat) (d : Dev) (hd : d.ok) : (killHeld a0 d).ok := by
  unfold killHeld
  lift_lets
  intro x0 x1
  apply forN_ok
  · intro y2 y3 y4
    apply ueEntry_ok
    with_reducible assumption
  · apply mk_ok
    with_reducible assumption

theorem engKill_ok (a0 : Nat) (d : Dev) (hd : d.ok) : (engKill a0 d).ok := by
  unfold engKill
  lift_lets
  intro x0
  have h1 : (Dev.ok x0) := by
    dsimp only [x0]
    apply engEach_ok
    · intro y2 y3 y4 y5
      apply stageUpd_ok
      apply foldl_ok
      · intro y6 y7 y8
        apply ueEntry_ok
        apply tgtWrite_ok
        with_reducible assumption
      · apply killFirings_ok
        with_reducible assumption
    · with_reducible assumption
  apply prodCheckAll_ok
  split
  · dsimp only [id]
    apply killMarks_ok
    apply engDiscard_ok
    apply killHeld_ok
    with_reducible assumption
  · apply engTake_ok
    apply killMarks_ok
    apply engDiscard_ok
    apply killHeld_ok
    with_reducible assumption

theorem engFail_ok (k : Nat) (cause : Nat) (d : Dev) (hd : d.ok) : (engFail k cause d).ok := by
  unfold engFail
  apply ite_ok
  · with_reducible assumption
  · apply captureEngine_ok
    apply prodCheckAll_ok
    apply raise_ok
    apply sf_ok
    apply engTake_ok
    with_reducible assumption

theorem fireHang_ok (k : Nat) (d : Dev) (hd : d.ok) : (fireHang k d).ok := by
  unfold fireHang
  apply ite_ok
  · apply engFail_ok
    with_reducible assumption
  · with_reducible assumption

theorem engCntClr_ok (k : Nat) (d : Dev) (hd : d.ok) : (engCntClr k d).ok := by
  unfold engCntClr
  apply foldl_ok
  · intro y0 y1 y2
    apply wr_ok
    with_reducible assumption
  · with_reducible assumption

end Sys2Proof.Machine
end

