-- ==== Sys2Proof/Laws/KeepsLoad.lean ====
section
/-! SUPPORT. Every operation of Machine/Load.lean keeps the canonical form of the sparse stores
(`Dev.ok`): memory, error marks, poison marks and registers. -/

namespace Sys2Proof.Machine

theorem cmdIn_ok (a0 : CmdHdr) (d : Dev) (hd : d.ok) : (cmdIn a0 d).ok := by
  unfold cmdIn
  lift_lets
  intro x0
  apply mk_ok
  with_reducible assumption

theorem headPast_ok (a0 : CmdHdr) (d : Dev) (hd : d.ok) : (headPast a0 d).ok := by
  unfold headPast
  apply ite_ok
  · apply sf_ok
    with_reducible assumption
  · with_reducible assumption

theorem opOpen_ok (a0 : CmdHdr) (st : OpState) (d : Dev) (hd : d.ok) : (opOpen a0 st d).ok := by
  unfold opOpen
  lift_lets
  intro x0
  apply mk_ok
  with_reducible assumption

theorem opState_ok (a0 : CmdHdr) (st : OpState) (d : Dev) (hd : d.ok) : (opState a0 st d).ok := by
  unfold opState
  split
  · lift_lets
    intro x0
    apply ite_ok
    · apply mk_ok
      with_reducible assumption
    · with_reducible assumption
  · with_reducible assumption

theorem opAdjourned_ok (a0 : CmdHdr) (r0 : Nat) (r1 : Nat) (started : Bool) (d : Dev) (hd : d.ok) : (opAdjourned a0 r0 r1 started d).ok := by
  unfold opAdjourned
  lift_lets
  intro x0
  have h1 : (Dev.ok x0) := by
    dsimp only [x0]
    apply opState_ok
    with_reducible assumption
  apply ite_ok
  · apply complete_ok
    with_reducible assumption
  · with_reducible assumption

theorem longCmd_ok (a0 : CmdHdr) (f : Dev → Dev) (d : Dev) (hf : ∀ v0, v0.ok → (f v0).ok) (hd : d.ok) : (longCmd a0 f d).ok := by
  unfold longCmd
  lift_lets
  intro x0
  have h1 : (Dev.ok x0) := by
    dsimp only [x0]
    apply cmdIn_ok
    with_reducible assumption
  apply ite_ok
  · apply finish_ok
    with_reducible assumption
  · apply hf
    with_reducible assumption

theorem srcRead_ok (a : Nat) (len : Nat) (d : Dev) (hd : d.ok) : (srcRead a len d).2.ok := by
  unfold srcRead
  split
  · rename_i w0 w1 w2 w3 w4
    have h5 := snd_of_eq w4 (by
      apply masterRead_ok
      with_reducible assumption)
    with_reducible assumption
  · rename_i w6 w7 w8 w9
    have h10 := snd_of_eq w9 (by
      apply masterRead_ok
      with_reducible assumption)
    with_reducible assumption

theorem nvmeSubmit_ok (d : Dev) (hd : d.ok) : (nvmeSubmit d).ok := by
  unfold nvmeSubmit
  split
  · with_reducible assumption
  · lift_lets
    intro x0 x1 x2 x3 x4 x5 x6
    have h7 : (Dev.ok x3) := by
      dsimp only [x3]
      apply masterWrite_ok
      with_reducible assumption
    have h8 : (Dev.ok x6) := by
      dsimp only [x6]
      apply mk_ok
      with_reducible assumption
    apply ite_ok
    · with_reducible assumption
    · apply masterWrite_ok
      with_reducible assumption

theorem nvmeFill_ok (d : Dev) (hd : d.ok) : (nvmeFill d).ok := by
  unfold nvmeFill
  apply forN_ok
  · intro y0 y1 y2
    apply nvmeSubmit_ok
    with_reducible assumption
  · with_reducible assumption

theorem nvmeRead_ok (nsid : Nat) (lba : Nat) (len : Nat) (d : Dev) (hd : d.ok) : (nvmeRead nsid lba len d).ok := by
  unfold nvmeRead
  lift_lets
  intro x0
  apply mk_ok
  with_reducible assumption

theorem nvmeDrop_ok (d : Dev) (hd : d.ok) : (nvmeDrop d).ok := by
  unfold nvmeDrop
  lift_lets
  intro x0
  apply mk_ok
  with_reducible assumption

theorem setLe_ok (l : Le) (d : Dev) (hd : d.ok) : (setLe l d).ok := by
  unfold setLe
  apply mk_ok
  with_reducible assumption

theorem setRun_ok (r : LoadRun) (d : Dev) (hd : d.ok) : (setRun r d).ok := by
  unfold setRun
  lift_lets
  intro x0
  apply setLe_ok
  with_reducible assumption

theorem shardUpd_ok (i : Nat) (f : ShardRun → ShardRun) (d : Dev) (hd : d.ok) : (shardUpd i f d).ok := by
  unfold shardUpd
  split
  · with_reducible assumption
  · apply setRun_ok
    with_reducible assumption

theorem leProgress_ok (d : Dev) (hd : d.ok) : (leProgress d).ok := by
  unfold leProgress
  split
  · with_reducible assumption
  · apply sf_ok
    apply sf_ok
    with_reducible assumption

theorem loadDone_ok (code : Nat) (d : Dev) (hd : d.ok) : (loadDone code d).ok := by
  unfold loadDone
  split
  · with_reducible assumption
  · lift_lets
    intro x0 x1 x2 x3 x4 x5
    have h6 : (Dev.ok x3) := by
      dsimp only [x3]
      apply nvmeDrop_ok
      apply setLe_ok
      with_reducible assumption
    have h7 : (Dev.ok x4) := by
      dsimp only [x4]
      apply raise_ok
      apply sf_ok
      with_reducible assumption
    apply complete_ok
    with_reducible assumption

theorem loadFree_ok (d : Dev) (hd : d.ok) : (loadFree d).ok := by
  unfold loadFree
  split
  · with_reducible assumption
  · lift_lets
    intro x0 x1 x2 x3 x4 x5 x6
    have h7 : (Dev.ok x0) := by
      dsimp only [x0]
      apply forEach_ok
      · intro y8 y9 y10
        apply adFree_ok
        with_reducible assumption
      · with_reducible assumption
    have h11 : (Dev.ok x3) := by
      dsimp only [x3]
      apply setLe_ok
      with_reducible assumption
    have h12 : (Dev.ok x6) := by
      dsimp only [x6]
      apply setLe_ok
      with_reducible assumption
    apply ite_ok
    · with_reducible assumption
    · apply eraseKick_ok
      apply freeExts_ok
      apply sideUpd_ok
      with_reducible assumption

theorem loadFail_ok (code : Nat) (shard : Option Nat) (d : Dev) (hd : d.ok) : (loadFail code shard d).ok := by
  unfold loadFail
  lift_lets
  intro x0
  have h1 : (Dev.ok x0) := by
    dsimp only [x0]
    split
    · apply sf_ok
      apply sf_ok
      with_reducible assumption
    · with_reducible assumption
  apply loadDone_ok
  apply loadFree_ok
  with_reducible assumption

theorem loadStart_ok (r : LoadRun) (d : Dev) (hd : d.ok) : (loadStart r d).ok := by
  unfold loadStart
  lift_lets
  intro x0 x1
  have h2 : (Dev.ok x0) := by
    dsimp only [x0]
    apply opState_ok
    apply setRun_ok
    with_reducible assumption
  have h3 : (Dev.ok x1) := by
    dsimp only [x1]
    apply wr_ok
    apply sf_ok
    apply sf_ok
    with_reducible assumption
  apply ite_ok
  · apply ite_ok
    · apply nvmeFill_ok
      apply nvmeRead_ok
      with_reducible assumption
    · apply loadDone_ok
      with_reducible assumption
  · with_reducible assumption

theorem xLoad_ok (a0 : CmdHdr) (addr : Nat) (len : Nat) (slot : Nat) (side : Nat) (kind : Nat) (nsid : Nat) (a7 : Dev) (ha7 : a7.ok) : (xLoad a0 addr len slot side kind nsid a7).ok := by
  unfold xLoad
  apply longCmd_ok
  · intro y0 y1
    lift_lets
    intro x2 x3 x4
    have h5 : (Dev.ok x3) := by
      dsimp only [x3]
      apply opOpen_ok
      with_reducible assumption
    apply ite_ok
    · apply loadStart_ok
      with_reducible assumption
    · apply setLe_ok
      with_reducible assumption
  · with_reducible assumption

theorem xLoadNext_ok (d : Dev) (hd : d.ok) : (xLoadNext d).ok := by
  unfold xLoadNext
  apply ite_ok
  · with_reducible assumption
  · split
    · with_reducible assumption
    · lift_lets
      intro x0
      apply loadStart_ok
      apply setLe_ok
      with_reducible assumption

theorem loadSettle_ok (d : Dev) (hd : d.ok) : (loadSettle d).ok := by
  unfold loadSettle
  split
  · with_reducible assumption
  · apply ite_ok
    · split
      · with_reducible assumption
      · lift_lets
        intro x0
        have h1 : (Dev.ok x0) := by
          dsimp only [x0]
          apply ite_ok
          · split
            · apply sideUpd_ok
              with_reducible assumption
            · apply forEach_ok
              · intro y2 y3 y4
                apply adFree_ok
                with_reducible assumption
              · with_reducible assumption
          · apply sideUpd_ok
            with_reducible assumption
        apply loadDone_ok
        with_reducible assumption
    · with_reducible assumption

theorem shardsRead_ok (which : Nat → Bool) (d : Dev) (hd : d.ok) : (shardsRead which d).ok := by
  unfold shardsRead
  split
  · with_reducible assumption
  · lift_lets
    intro x0
    apply nvmeFill_ok
    apply forEach_ok
    · intro y1 y2 y3
      apply nvmeRead_ok
      with_reducible assumption
    · with_reducible assumption

theorem loadPlan_ok (r : LoadRun) (m : Manifest) (d : Dev) (hd : d.ok) : (loadPlan r m d).ok := by
  unfold loadPlan
  lift_lets
  intro x0 x1 x2
  apply ite_ok
  · apply loadDone_ok
    with_reducible assumption
  · apply ite_ok
    · split
      · apply loadDone_ok
        with_reducible assumption
      · lift_lets
        intro x3
        have h4 : (Dev.ok x3) := by
          dsimp only [x3]
          apply mk_ok
          with_reducible assumption
        apply shardsRead_ok
        apply setRun_ok
        with_reducible assumption
    · clear_value x2
      split
      · apply loadDone_ok
        with_reducible assumption
      · lift_lets
        intro x5 x6 x7 x8 x9 x10 x11 x12 x13
        have h14 : (Dev.ok x7) := by
          dsimp only [x7]
          apply sideUpd_ok
          with_reducible assumption
        have h15 : (Dev.ok x8) := by
          dsimp only [x8]
          apply extsAdd_ok
          with_reducible assumption
        have h16 : (Dev.ok x10) := by
          dsimp only [x10]
          apply setLe_ok
          with_reducible assumption
        have h17 : (Dev.ok x13) := by
          dsimp only [x13]
          apply setLe_ok
          with_reducible assumption
        apply ite_ok
        · apply loadDone_ok
          with_reducible assumption
        · apply loadSettle_ok
          apply leProgress_ok
          apply eraseSettle_ok
          apply shardsRead_ok
          apply setRun_ok
          with_reducible assumption

theorem xManifest_ok (d : Dev) (hd : d.ok) : (xManifest d).ok := by
  unfold xManifest
  split
  · with_reducible assumption
  · lift_lets
    intro x0
    have h1 : (Dev.ok (x0).2) := by
      dsimp only [x0]
      apply ite2_ok
      · with_reducible assumption
      · apply srcRead_ok
        with_reducible assumption
    apply ite_ok
    · with_reducible assumption
    · clear_value x0
      split
      · apply loadDone_ok
        with_reducible assumption
      · lift_lets
        intro x2
        apply ite_ok
        · with_reducible assumption
        · apply ite_ok
          · apply loadDone_ok
            apply consumeRead_ok
            with_reducible assumption
          · apply ite_ok
            · apply loadDone_ok
              with_reducible assumption
            · apply loadPlan_ok
              with_reducible assumption

theorem placeAgain_ok (i : Nat) (code : Nat) (again : Bool) (reread : Bool) (d : Dev) (hd : d.ok) :
    (placeAgain i code again reread d).ok := by
  unfold placeAgain
  split
  · exact hd
  · dsimp only
    split
    · exact loadFail_ok _ _ _ hd
    · split
      · exact hd
      · split
        · exact shardsRead_ok _ _ (shardUpd_ok _ _ _ hd)
        · split
          · exact loadFail_ok _ _ _ hd
          · exact shardsRead_ok _ _ (shardUpd_ok _ _ _ (freeExts_ok _ _ _ _ (extsAdd_ok _ _ (extsDrop_ok _ _ _ _ hd))))

theorem leStart_ok (k : Nat) (g : Nat) (d : Dev) (hd : d.ok) : (leStart k g d).ok := by
  unfold leStart
  split
  · with_reducible assumption
  · apply ite_ok
    · with_reducible assumption
    · split
      · with_reducible assumption
      · split
        · with_reducible assumption
        · lift_lets
          intro x0 x1 x2 x3 x4 x5 x6 x7 x8
          have h9 : (Dev.ok x1) := by
            dsimp only [x1]
            apply ite_ok
            · apply seqErr_ok
              with_reducible assumption
            · with_reducible assumption
          have h10 : (Dev.ok x5) := by
            dsimp only [x5]
            apply sf_ok
            apply setLast_ok
            apply argSet_ok
            with_reducible assumption
          have h11 : (Dev.ok (x8).2) := by
            dsimp only [x8]
            apply flipProgram_ok
            with_reducible assumption
          apply ite_ok
          · with_reducible assumption
          · apply ite_ok
            · apply placeAgain_ok
              with_reducible assumption
            · apply ite_ok
              · apply opStart_ok
                with_reducible assumption
              · apply ite_ok
                · apply placeAgain_ok
                  apply opOutcome_ok
                  apply opstatTarget_ok
                  with_reducible assumption
                · apply opStart_ok
                  with_reducible assumption

theorem aryKick_ok (d : Dev) (hd : d.ok) : (aryKick d).ok := by
  unfold aryKick
  lift_lets
  intro x0
  have h1 : (Dev.ok x0) := by
    dsimp only [x0]
    apply forN_ok
    · intro y2 y3 y4
      apply leStart_ok
      with_reducible assumption
    · with_reducible assumption
  apply eraseKick_ok
  with_reducible assumption

theorem loadAdjSettle_ok (d : Dev) (hd : d.ok) : (loadAdjSettle d).ok := by
  unfold loadAdjSettle
  split
  · with_reducible assumption
  · apply ite_ok
    · apply opAdjourned_ok
      with_reducible assumption
    · with_reducible assumption

theorem aryAfter_ok (f : Dev → Dev) (d : Dev) (hf : ∀ v0, v0.ok → (f v0).ok) (hd : d.ok) : (aryAfter f d).ok := by
  unfold aryAfter
  lift_lets
  intro x0 x1 x2
  have h3 : (Dev.ok x1) := by
    dsimp only [x1]
    apply hf
    with_reducible assumption
  have h4 : (Dev.ok x2) := by
    dsimp only [x2]
    apply forEach_ok
    · intro y5 y6 y7
      apply ite_ok
      · with_reducible assumption
      · apply ite_ok
        · apply eraseEnded_ok
          with_reducible assumption
        · split
          · apply placeAgain_ok
            with_reducible assumption
          · with_reducible assumption
    · with_reducible assumption
  apply loadAdjSettle_ok
  apply aryKick_ok
  with_reducible assumption

theorem blockFailed_ok (k : Nat) (b : Nat) (d : Dev) (hd : d.ok) : (blockFailed k b d).ok := by
  unfold blockFailed
  lift_lets
  intro x0 x1
  apply ite_ok
  · apply mk_ok
    with_reducible assumption
  · apply ite_ok
    · with_reducible assumption
    · apply scoreEvent_ok
      apply aryRetire_ok
      apply eraseEnded_ok
      with_reducible assumption

theorem xOpDone_ok (k : Nat) (g : Nat) (us : Nat) (ok : Bool) (d : Dev) (hd : d.ok) : (xOpDone k g us ok d).ok := by
  unfold xOpDone
  split
  · with_reducible assumption
  · lift_lets
    intro x0 x1 x2
    have h3 : (Dev.ok x0) := by
      dsimp only [x0]
      apply opDone_ok
      with_reducible assumption
    have h4 : (Dev.ok x1) := by
      dsimp only [x1]
      apply ite_ok
      · apply eraseEnded_ok
        with_reducible assumption
      · with_reducible assumption
    have h5 : (Dev.ok x2) := by
      dsimp only [x2]
      apply ite_ok
      · split
        · apply ite_ok
          · with_reducible assumption
          · apply blockFailed_ok
            with_reducible assumption
        · apply ite_ok
          · apply ite_ok
            · apply shardUpd_ok
              with_reducible assumption
            · with_reducible assumption
          · apply placeAgain_ok
            apply blockFailed_ok
            with_reducible assumption
      · apply ite_ok
        · with_reducible assumption
        · apply blockFailed_ok
          with_reducible assumption
    apply ite_ok
    · with_reducible assumption
    · apply loadAdjSettle_ok
      apply aryKick_ok
      with_reducible assumption

theorem xArrival_ok (i : Nat) (d : Dev) (hd : d.ok) : (xArrival i d).ok := by
  unfold xArrival
  split
  · with_reducible assumption
  · split
    · lift_lets
      intro x0
      have h1 : (Dev.ok (x0).2) := by
        dsimp only [x0]
        apply ite2_ok
        · with_reducible assumption
        · apply srcRead_ok
          with_reducible assumption
      apply ite_ok
      · with_reducible assumption
      · clear_value x0
        split
        · apply loadFail_ok
          with_reducible assumption
        · lift_lets
          intro x2 x3 x4
          have h5 : (Dev.ok x2) := by
            dsimp only [x2]
            apply setRun_ok
            with_reducible assumption
          have h6 : (Dev.ok x4) := by
            dsimp only [x4]
            clear_value x2 x3
            split
            · split
              · rename_i w7 w8 w9 w10 w11 w12 w13 w14 w15 w16 w17 w18 w19 w20 w21 w22 w23 w24
                have h25 := snd_of_eq w24 (by
                  apply masterWrite_ok
                  with_reducible assumption)
                apply shardUpd_ok
                with_reducible assumption
              · rename_i w26 w27 w28 w29 w30 w31 w32 w33 w34 w35 w36 w37 w38 w39 w40 w41 w42 w43
                have h44 := snd_of_eq w43 (by
                  apply masterWrite_ok
                  with_reducible assumption)
                apply loadFail_ok
                with_reducible assumption
            · apply shardUpd_ok
              with_reducible assumption
          apply ite_ok
          · with_reducible assumption
          · apply ite_ok
            · apply loadFail_ok
              apply consumeRead_ok
              with_reducible assumption
            · apply ite_ok
              · apply loadFail_ok
                with_reducible assumption
              · apply aryKick_ok
                apply leProgress_ok
                with_reducible assumption
    · with_reducible assumption

theorem xReadback_ok (i : Nat) (d : Dev) (hd : d.ok) : (xReadback i d).ok := by
  unfold xReadback
  split
  · with_reducible assumption
  · split
    · lift_lets
      intro x0 x1 x2
      have h3 : (Dev.ok (x1).2) := by
        dsimp only [x1]
        apply ite2_ok
        · clear_value x0
          split
          · apply srcRead_ok
            with_reducible assumption
          · with_reducible assumption
        · apply extRead_ok
          with_reducible assumption
      apply ite_ok
      · with_reducible assumption
      · clear_value x1 x2
        split
        · apply loadFail_ok
          with_reducible assumption
        · lift_lets
          intro x4
          have h5 : (Dev.ok x4) := by
            dsimp only [x4]
            apply ite_ok
            · apply consume_ok
              with_reducible assumption
            · with_reducible assumption
          apply ite_ok
          · apply aryKick_ok
            apply placeAgain_ok
            with_reducible assumption
          · apply loadSettle_ok
            apply leProgress_ok
            apply shardUpd_ok
            with_reducible assumption
    · with_reducible assumption

theorem xSourceFault_ok (i : Option Nat) (poison : Bool) (cause : Nat) (d : Dev) (hd : d.ok) : (xSourceFault i poison cause d).ok := by
  unfold xSourceFault
  split
  · with_reducible assumption
  · lift_lets
    intro x0 x1 x2
    have h3 : (Dev.ok x1) := by
      dsimp only [x1]
      apply ite_ok
      · apply consumeRead_ok
        with_reducible assumption
      · apply busError_ok
        with_reducible assumption
    apply ite_ok
    · with_reducible assumption
    · split
      · apply loadDone_ok
        with_reducible assumption
      · apply loadFail_ok
        with_reducible assumption

theorem xSourceTimeout_ok (i : Option Nat) (d : Dev) (hd : d.ok) : (xSourceTimeout i d).ok := by
  unfold xSourceTimeout
  split
  · with_reducible assumption
  · apply ite_ok
    · with_reducible assumption
    · split
      · apply loadDone_ok
        with_reducible assumption
      · apply loadFail_ok
        with_reducible assumption

theorem xNvme_ok (status : Nat) (i : Option Nat) (data : List Byte) (d : Dev) (hd : d.ok) : (xNvme status i data d).ok := by
  unfold xNvme
  lift_lets
  intro x0 x1 x2 x3
  have h4 : (Dev.ok x2) := by
    dsimp only [x2]
    apply setLe_ok
    with_reducible assumption
  have h5 : (Dev.ok x3) := by
    dsimp only [x3]
    apply masterWrite_ok
    with_reducible assumption
  apply ite_ok
  · with_reducible assumption
  · split
    · with_reducible assumption
    · apply ite_ok
      · apply nvmeFill_ok
        with_reducible assumption
      · apply ite_ok
        · split
          · apply loadDone_ok
            with_reducible assumption
          · apply loadFail_ok
            with_reducible assumption
        · apply nvmeFill_ok
          split
          · apply setRun_ok
            with_reducible assumption
          · apply shardUpd_ok
            with_reducible assumption

theorem loadAdjourn_ok (how : Nat) (d : Dev) (hd : d.ok) : (loadAdjourn how d).ok := by
  unfold loadAdjourn
  split
  · with_reducible assumption
  · apply ite_ok
    · with_reducible assumption
    · apply loadAdjSettle_ok
      apply opState_ok
      apply nvmeDrop_ok
      apply setRun_ok
      with_reducible assumption

theorem loadResume_ok (d : Dev) (hd : d.ok) : (loadResume d).ok := by
  unfold loadResume
  split
  · with_reducible assumption
  · lift_lets
    intro x0
    have h1 : (Dev.ok x0) := by
      dsimp only [x0]
      apply sf_ok
      apply opState_ok
      apply setRun_ok
      with_reducible assumption
    apply ite_ok
    · apply shardsRead_ok
      with_reducible assumption
    · apply ite_ok
      · apply nvmeFill_ok
        apply nvmeRead_ok
        with_reducible assumption
      · with_reducible assumption

theorem loadResign_ok (d : Dev) (hd : d.ok) : (loadResign d).ok := by
  unfold loadResign
  apply loadDone_ok
  apply loadFree_ok
  with_reducible assumption

theorem xLeDisable_ok (d : Dev) (hd : d.ok) : (xLeDisable d).ok := by
  unfold xLeDisable
  apply loadAdjourn_ok
  apply sf_ok
  with_reducible assumption

theorem xLeEnable_ok (d : Dev) (hd : d.ok) : (xLeEnable d).ok := by
  unfold xLeEnable
  lift_lets
  intro x0
  have h1 : (Dev.ok x0) := by
    dsimp only [x0]
    apply sf_ok
    with_reducible assumption
  apply ite_ok
  · apply loadResume_ok
    with_reducible assumption
  · with_reducible assumption

theorem xPatrolStart_ok (d : Dev) (hd : d.ok) : (xPatrolStart d).ok := by
  unfold xPatrolStart
  lift_lets
  intro x0 x1
  apply ite_ok
  · with_reducible assumption
  · apply setLe_ok
    with_reducible assumption

theorem patrolBad_ok (d : Dev) (hd : d.ok) : (patrolBad d).ok := by
  unfold patrolBad
  apply raise_ok
  apply cntAdd_ok
  with_reducible assumption

theorem patrolCheck_ok (n : Nat) (s : Nat) (i : Nat) (ad : Bool) (d : Dev) (hd : d.ok) : (patrolCheck n s i ad d).2.ok := by
  unfold patrolCheck
  lift_lets
  intro x0 x1
  have h5 : (∀ z2 z3 z4, Dev.ok (z2).2 → Dev.ok ((x1 z2 z3 z4)).2) := by
    intro y6 y7 y8 y9
    dsimp only [x1]
    split
    · with_reducible assumption
    · dsimp only
      apply ite_ok
      · apply consume_ok
        with_reducible assumption
      · with_reducible assumption
  apply ite2_ok
  · split
    · with_reducible assumption
    · split
      · with_reducible assumption
      · lift_lets
        intro x10
        have h11 : (Dev.ok ((x10).2).2) := by
          dsimp only [x10]
          apply foldl3_ok
          · intro y12 y13 y14
            split
            · rename_i w15 w16 w17 w18 w19 w20 w21 w22 w23 w24
              have h25 := snd_of_eq w24 (by
                apply h5
                apply srcRead_ok
                with_reducible assumption)
              with_reducible assumption
            · rename_i w26 w27 w28 w29 w30 w31 w32 w33 w34
              have h35 := snd_of_eq w34 (by
                apply h5
                apply srcRead_ok
                with_reducible assumption)
              with_reducible assumption
          · with_reducible assumption
        apply ite2_ok
        · apply h5
          apply srcRead_ok
          with_reducible assumption
        · with_reducible assumption
  · split
    · with_reducible assumption
    · apply h5
      apply extRead_ok
      with_reducible assumption

theorem xPatrolCheck_ok (d : Dev) (hd : d.ok) : (xPatrolCheck d).ok := by
  unfold xPatrolCheck
  split
  · with_reducible assumption
  · split
    · lift_lets
      intro x0
      apply sf_ok
      apply setLe_ok
      with_reducible assumption
    · lift_lets
      intro x1 x2 x3 x4
      have h5 : (Dev.ok x1) := by
        dsimp only [x1]
        split
        · rename_i w6 w7 w8 w9 w10 w11 w12 w13 w14 w15 w16 w17 w18
          have h19 := snd_of_eq w18 (by
            apply patrolCheck_ok
            with_reducible assumption)
          apply patrolBad_ok
          apply ite_ok
          · apply sideUpd_ok
            with_reducible assumption
          · with_reducible assumption
        · rename_i w20 w21 w22 w23 w24 w25 w26 w27 w28 w29 w30 w31 w32 w33 w34
          have h35 := snd_of_eq w34 (by
            apply patrolCheck_ok
            with_reducible assumption)
          with_reducible assumption
      have h36 : (Dev.ok x3) := by
        dsimp only [x3]
        apply setLe_ok
        with_reducible assumption
      apply ite_ok
      · apply sf_ok
        apply setLe_ok
        with_reducible assumption
      · with_reducible assumption

end Sys2Proof.Machine
end

