-- ==== Sys2Proof/Laws/KeepsBatch.lean ====
section
/-! SUPPORT. Every operation of Machine/Batch.lean keeps the canonical form of the sparse stores
(`Dev.ok`): memory, error marks, poison marks and registers. -/

namespace Sys2Proof.Machine

theorem pipeUpd_ok (p : Nat) (f : Pipe → Pipe) (d : Dev) (hd : d.ok) : (pipeUpd p f d).ok := by
  unfold pipeUpd
  apply mk_ok
  with_reducible assumption

theorem batchUpd_ok (p : Nat) (seq : Nat) (f : Batch → Batch) (d : Dev) (hd : d.ok) : (batchUpd p seq f d).ok := by
  unfold batchUpd
  apply pipeUpd_ok
  with_reducible assumption

theorem setSessions_ok (m : FMap Session) (d : Dev) (hd : d.ok) : (setSessions m d).ok := by
  unfold setSessions
  lift_lets
  intro x0
  apply mk_ok
  with_reducible assumption

theorem entryItem_ok (a : Nat) (last : Bool) (d : Dev) (hd : d.ok) : (entryItem a last d).2.ok := by
  unfold entryItem
  split
  · rename_i w0 w1 w2 w3 w4
    have h5 := snd_of_eq w4 (by
      apply masterRead_ok
      with_reducible assumption)
    with_reducible assumption
  · rename_i w6 w7 w8 w9
    have h10 := snd_of_eq w9 (by
      apply masterRead_ok
      with_reducible assumption)
    with_reducible assumption

theorem entryItems_ok (a : Nat) (n : Nat) (a2 : Nat) (a3 : Nat) (a4 : Bool) (a5 : Dev) (ha5 : a5.ok) : (entryItems a n a2 a3 a4 a5).2.ok := by
  induction a2 generalizing a n a3 a4 a5
  · unfold entryItems
    with_reducible assumption
  · rename_i u0 ih
    unfold entryItems
    lift_lets
    intro x0 x1
    have h2 : (Dev.ok (x1).2) := by
      dsimp only [x1]
      apply ih
      with_reducible assumption
    apply ite2_ok
    · with_reducible assumption
    · split
      · rename_i w3 w4 w5 w6
        have h7 := snd_of_eq w6 (by
          apply entryItem_ok
          with_reducible assumption)
        lift_lets
        intro x8
        have h9 : (Dev.ok (x8).2) := by
          dsimp only [x8]
          apply ih
          with_reducible assumption
        with_reducible assumption
      · rename_i w10 w11 w12
        have h13 := snd_of_eq w12 (by
          apply entryItem_ok
          with_reducible assumption)
        lift_lets
        intro x14
        have h15 : (Dev.ok (x14).2) := by
          dsimp only [x14]
          apply ih
          with_reducible assumption
        with_reducible assumption

theorem entryWrite_ok (p : Nat) (seq : Nat) (st : StartP) (d : Dev) (hd : d.ok) : (entryWrite p seq st d).ok := by
  unfold entryWrite
  split
  · with_reducible assumption
  · lift_lets
    intro x0 x1 x2 x3 x4
    have h5 : (Dev.ok x2) := by
      dsimp only [x2]
      apply pipeUpd_ok
      with_reducible assumption
    have h6 : (Dev.ok x3) := by
      dsimp only [x3]
      apply batchUpd_ok
      with_reducible assumption
    have h7 : (Dev.ok (x4).2) := by
      dsimp only [x4]
      apply foldl2_ok
      · intro y8 y9 y10
        apply ite2_ok
        · with_reducible assumption
        · apply ite2_ok
          · dsimp only
            apply fifoSend_ok
            with_reducible assumption
          · dsimp only
            apply fifoSend_ok
            apply entryItems_ok
            with_reducible assumption
      · with_reducible assumption
    apply ite_ok
    · apply cntAdd_ok
      with_reducible assumption
    · with_reducible assumption

theorem copyTake_ok (c : ShardCopy) (d : Dev) (hd : d.ok) : (copyTake c d).ok := by
  unfold copyTake
  lift_lets
  intro x0 x1
  apply aryKick_ok
  apply freeExts_ok
  apply extsAdd_ok
  apply extsDrop_ok
  with_reducible assumption

theorem copiesTake_ok (n : Nat) (d : Dev) (hd : d.ok) : (copiesTake n d).ok := by
  unfold copiesTake
  lift_lets
  intro x0 x1 x2 x3
  have h4 : (Dev.ok x2) := by
    dsimp only [x2]
    apply mk_ok
    with_reducible assumption
  have h5 : (Dev.ok x3) := by
    dsimp only [x3]
    apply forEach_ok
    · intro y6 y7 y8
      apply copyTake_ok
      with_reducible assumption
    · with_reducible assumption
  apply ite_ok
  · with_reducible assumption
  · apply foldl_ok
    · intro y9 y10 y11
      apply wsDrop_ok
      with_reducible assumption
    · with_reducible assumption

theorem admitBatch_ok (p : Nat) (st : StartP) (src : BatchSrc) (d : Dev) (hd : d.ok) : (admitBatch p st src d).ok := by
  unfold admitBatch
  lift_lets
  intro x0 x1 x2 x3 x4 x5 x6 x7 x8
  have h9 : (Dev.ok x1) := by
    dsimp only [x1]
    apply copiesTake_ok
    with_reducible assumption
  have h10 : (Dev.ok x8) := by
    dsimp only [x8]
    apply ite_ok
    · apply setSessions_ok
      with_reducible assumption
    · with_reducible assumption
  apply entryWrite_ok
  apply pipeUpd_ok
  with_reducible assumption

theorem startCmd_ok (a0 : CmdHdr) (p : StartP) (d : Dev) (hd : d.ok) : (startCmd a0 p d).ok := by
  unfold startCmd
  lift_lets
  intro x0 x1 x2 x3 x4 x5 x6 x7
  have h8 : (Dev.ok x1) := by
    dsimp only [x1]
    apply cmdIn_ok
    with_reducible assumption
  have h9 : (Dev.ok x6) := by
    dsimp only [x6]
    apply mk_ok
    with_reducible assumption
  have h10 : (Dev.ok x7) := by
    dsimp only [x7]
    apply ite_ok
    · apply sf_ok
      with_reducible assumption
    · with_reducible assumption
  apply ite_ok
  · apply ite_ok
    · with_reducible assumption
    · apply sf_ok
      with_reducible assumption
  · apply finish_ok
    apply headPast_ok
    with_reducible assumption

theorem admitRing_ok (n : Nat) (d : Dev) (hd : d.ok) : (admitRing n d).ok := by
  unfold admitRing
  split
  · with_reducible assumption
  · lift_lets
    intro x0 x1 x2
    have h4 : (∀ z3, Dev.ok z3 → Dev.ok (x0 z3)) := by
      intro y5 y6
      dsimp only [x0]
      apply headPast_ok
      apply sf_ok
      apply mk_ok
      with_reducible assumption
    have h7 : (Dev.ok x2) := by
      dsimp only [x2]
      apply ite_ok
      · apply sf_ok
        with_reducible assumption
      · with_reducible assumption
    apply ite_ok
    · apply finish_ok
      apply h4
      with_reducible assumption
    · apply ite_ok
      · apply admitBatch_ok
        apply h4
        with_reducible assumption
      · with_reducible assumption

theorem exitItem_ok (p : Nat) (it : Item) (d : Dev) (hd : d.ok) : (exitItem p it d).ok := by
  unfold exitItem
  lift_lets
  intro x0 x1 x2
  have h3 : (Dev.ok x2) := by
    dsimp only [x2]
    apply ite_ok
    · apply pipeUpd_ok
      with_reducible assumption
    · with_reducible assumption
  split
  · with_reducible assumption
  · clear_value x1 x2
    split
    · with_reducible assumption
    · lift_lets
      intro x4 x5 x6
      have h7 : (Dev.ok x5) := by
        dsimp only [x5]
        apply masterWrite_ok
        with_reducible assumption
      have h8 : (Dev.ok x6) := by
        dsimp only [x6]
        apply ite_ok
        · with_reducible assumption
        · apply ite_ok
          · apply batchUpd_ok
            with_reducible assumption
          · apply batchUpd_ok
            with_reducible assumption
      apply batchUpd_ok
      with_reducible assumption

theorem sessClose_ok (slot : Nat) (s : Nat) (d : Dev) (hd : d.ok) : (sessClose slot s d).ok := by
  unfold sessClose
  split
  · with_reducible assumption
  · lift_lets
    intro x0
    have h1 : (Dev.ok x0) := by
      dsimp only [x0]
      apply setSessions_ok
      with_reducible assumption
    apply retireChecks_ok
    apply foldl_ok
    · intro y2 y3 y4
      apply finish_ok
      with_reducible assumption
    · with_reducible assumption

theorem sessionCloseCmd_ok (a0 : CmdHdr) (slot : Nat) (s : Nat) (d : Dev) (hd : d.ok) : (sessionCloseCmd a0 slot s d).ok := by
  unfold sessionCloseCmd
  lift_lets
  intro x0 x1
  have h2 : (Dev.ok x0) := by
    dsimp only [x0]
    apply cmdIn_ok
    with_reducible assumption
  have h3 : (Dev.ok x1) := by
    dsimp only [x1]
    apply setSessions_ok
    with_reducible assumption
  apply ite_ok
  · apply finish_ok
    with_reducible assumption
  · split
    · apply finish_ok
      with_reducible assumption
    · apply ite_ok
      · with_reducible assumption
      · apply sessClose_ok
        with_reducible assumption

theorem holdEnter_ok (e : HeldB) (d : Dev) (hd : d.ok) : (holdEnter e d).ok := by
  unfold holdEnter
  split
  · lift_lets
    intro x0
    apply raise_ok
    apply mk_ok
    with_reducible assumption
  · with_reducible assumption

theorem heldDrop_ok (p : Nat) (seq : Nat) (d : Dev) (hd : d.ok) : (heldDrop p seq d).ok := by
  unfold heldDrop
  lift_lets
  intro x0
  apply mk_ok
  with_reducible assumption

theorem batchHold_ok (p : Nat) (b : Batch) (d : Dev) (hd : d.ok) : (batchHold p b d).ok := by
  unfold batchHold
  lift_lets
  intro x0 x1 x2
  have h3 : (Dev.ok x0) := by
    dsimp only [x0]
    apply consume_ok
    apply batchUpd_ok
    with_reducible assumption
  split
  · lift_lets
    intro x4 x5
    apply mk_ok
    with_reducible assumption
  · apply holdEnter_ok
    with_reducible assumption

theorem batchLeave_ok (p : Nat) (b : Batch) (d : Dev) (hd : d.ok) : (batchLeave p b d).ok := by
  unfold batchLeave
  lift_lets
  intro x0 x1
  have h2 : (Dev.ok x0) := by
    dsimp only [x0]
    apply heldDrop_ok
    apply pipeUpd_ok
    with_reducible assumption
  have h3 : (Dev.ok x1) := by
    dsimp only [x1]
    apply ite_ok
    · with_reducible assumption
    · split
      · with_reducible assumption
      · apply ite_ok
        · apply sessClose_ok
          apply setSessions_ok
          with_reducible assumption
        · apply setSessions_ok
          with_reducible assumption
  apply ite_ok
  · apply retireChecks_ok
    apply oldAdapters_ok
    with_reducible assumption
  · with_reducible assumption

theorem batchCpl_ok (a0 : CmdHdr) (b : Batch) (status : Nat) (d : Dev) (hd : d.ok) : (batchCpl a0 b status d).ok := by
  unfold batchCpl
  apply complete_ok
  with_reducible assumption

end Sys2Proof.Machine
end

