-- ==== Sys2Proof/Laws/KeepsImage.lean ====
section
/-! SUPPORT. Every operation of Machine/Image.lean keeps the canonical form of the sparse stores
(`Dev.ok`): memory, error marks, poison marks and registers. -/

namespace Sys2Proof.Machine

theorem setImg_ok (x : Img) (d : Dev) (hd : d.ok) : (setImg x d).ok := by
  unfold setImg
  apply mk_ok
  with_reducible assumption

theorem setEpoch_ok (s : Nat) (e : Nat) (d : Dev) (hd : d.ok) : (setEpoch s e d).ok := by
  unfold setEpoch
  apply ite_ok
  · apply sf_ok
    with_reducible assumption
  · apply sf_ok
    with_reducible assumption

theorem setDigest_ok (s : Nat) (b : List Byte) (d : Dev) (hd : d.ok) : (setDigest s b d).ok := by
  unfold setDigest
  apply forN_ok
  · intro y0 y1 y2
    apply wr_ok
    with_reducible assumption
  · with_reducible assumption

theorem imgLoadDone_ok (code : Nat) (off : Nat) (d : Dev) (hd : d.ok) : (imgLoadDone code off d).ok := by
  unfold imgLoadDone
  split
  · with_reducible assumption
  · lift_lets
    intro x0 x1 x2 x3
    have h4 : (Dev.ok x0) := by
      dsimp only [x0]
      apply ite_ok
      · apply setSlotState_ok
        with_reducible assumption
      · with_reducible assumption
    have h5 : (Dev.ok x2) := by
      dsimp only [x2]
      apply setImg_ok
      with_reducible assumption
    have h6 : (Dev.ok x3) := by
      dsimp only [x3]
      apply raise_ok
      apply sf_ok
      apply sf_ok
      apply sf_ok
      apply sf_ok
      with_reducible assumption
    split
    · apply finish_ok
      with_reducible assumption
    · with_reducible assumption

theorem imgLoadStart_ok (cmd : Option CmdHdr) (d : Dev) (hd : d.ok) : (imgLoadStart cmd d).ok := by
  unfold imgLoadStart
  lift_lets
  intro x0 x1 x2
  have h3 : (Dev.ok x1) := by
    dsimp only [x1]
    split
    · apply opState_ok
      with_reducible assumption
    · with_reducible assumption
  apply sf_ok
  apply sf_ok
  apply setImg_ok
  with_reducible assumption

theorem imgGo_ok (d : Dev) (hd : d.ok) : (imgGo d).ok := by
  unfold imgGo
  apply ite_ok
  · apply sf_ok
    with_reducible assumption
  · apply imgLoadStart_ok
    with_reducible assumption

theorem imgRead_ok (src : Nat) (len : Nat) (a2 : Nat) (a3 : Nat) (a4 : Dev) (ha4 : a4.ok) : (imgRead src len a2 a3 a4).2.ok := by
  induction a2 generalizing src len a3 a4
  · unfold imgRead
    with_reducible assumption
  · rename_i u0 ih
    unfold imgRead
    lift_lets
    intro x0
    apply ite2_ok
    · with_reducible assumption
    · split
      · rename_i w1 w2 w3 w4
        have h5 := snd_of_eq w4 (by
          apply masterRead_ok
          with_reducible assumption)
        with_reducible assumption
      · rename_i w6 w7 w8 w9
        have h10 := snd_of_eq w9 (by
          apply masterRead_ok
          with_reducible assumption)
        dsimp only
        apply consume_ok
        with_reducible assumption
      · rename_i w11 w12 w13 w14
        have h15 := snd_of_eq w14 (by
          apply masterRead_ok
          with_reducible assumption)
        lift_lets
        intro x16
        have h17 : (Dev.ok (x16).2) := by
          dsimp only [x16]
          apply ih
          with_reducible assumption
        with_reducible assumption

theorem imgSource_ok (l : ImgLoad) (d : Dev) (hd : d.ok) : (imgSource l d).2.ok := by
  unfold imgSource
  lift_lets
  intro x0 x1 x2
  have h3 : (Dev.ok (x1).2) := by
    dsimp only [x1]
    apply imgRead_ok
    with_reducible assumption
  have h4 : (Dev.ok (x2).2) := by
    dsimp only [x2]
    apply imgRead_ok
    with_reducible assumption
  split
  · with_reducible assumption
  · apply ite2_ok
    · with_reducible assumption
    · with_reducible assumption

theorem imgPass1Done_ok (d : Dev) (hd : d.ok) : (imgPass1Done d).ok := by
  unfold imgPass1Done
  split
  · with_reducible assumption
  · lift_lets
    intro x0 x1
    have h2 : (Dev.ok (x0).2) := by
      dsimp only [x0]
      apply imgSource_ok
      with_reducible assumption
    apply ite_ok
    · with_reducible assumption
    · split
      · apply imgLoadDone_ok
        with_reducible assumption
      · split
        · apply imgLoadDone_ok
          with_reducible assumption
        · apply setImg_ok
          with_reducible assumption

theorem imgSignatureDone_ok (d : Dev) (hd : d.ok) : (imgSignatureDone d).ok := by
  unfold imgSignatureDone
  split
  · with_reducible assumption
  · lift_lets
    intro x0
    apply ite_ok
    · with_reducible assumption
    · apply ite_ok
      · apply imgLoadDone_ok
        with_reducible assumption
      · apply ite_ok
        · apply imgLoadDone_ok
          with_reducible assumption
        · apply sf_ok
          apply setSlotState_ok
          apply setImg_ok
          with_reducible assumption

theorem imgCopy_ok (src : Nat) (dst : Nat) (len : Nat) (a3 : Nat) (a4 : Nat) (a5 : Dev) (ha5 : a5.ok) : (imgCopy src dst len a3 a4 a5).2.ok := by
  induction a3 generalizing src dst len a4 a5
  · unfold imgCopy
    with_reducible assumption
  · rename_i u0 ih
    unfold imgCopy
    lift_lets
    intro x0
    apply ite2_ok
    · with_reducible assumption
    · split
      · rename_i w1 w2 w3 w4
        have h5 := snd_of_eq w4 (by
          apply masterRead_ok
          with_reducible assumption)
        with_reducible assumption
      · rename_i w6 w7 w8 w9 w10
        have h11 := snd_of_eq w10 (by
          apply masterRead_ok
          with_reducible assumption)
        split
        · rename_i w12 w13 w14
          have h15 := snd_of_eq w14 (by
            apply masterWrite_ok
            with_reducible assumption)
          with_reducible assumption
        · rename_i w16 w17 w18
          have h19 := snd_of_eq w18 (by
            apply masterWrite_ok
            with_reducible assumption)
          lift_lets
          intro x20
          have h21 : (Dev.ok (x20).2) := by
            dsimp only [x20]
            apply ih
            with_reducible assumption
          with_reducible assumption

theorem constPack_ok (sb : Nat) (a1 : List ConstSrc) (a2 : Nat) (a3 : FMap ConstRec) (a4 : Dev) (ha4 : a4.ok) : (constPack sb a1 a2 a3 a4).2.ok := by
  induction a1 generalizing sb a2 a3 a4
  · unfold constPack
    with_reducible assumption
  · rename_i u0 u1 ih
    unfold constPack
    lift_lets
    intro x0 x1
    have h2 : (Dev.ok (x1).2) := by
      dsimp only [x1]
      apply masterWrite_ok
      with_reducible assumption
    split
    · apply ite2_ok
      · apply ih
        with_reducible assumption
      · with_reducible assumption
    · lift_lets
      intro x3
      have h4 : (Dev.ok (x3).2) := by
        dsimp only [x3]
        apply imgCopy_ok
        with_reducible assumption
      split
      · with_reducible assumption
      · apply ih
        with_reducible assumption

theorem imgPass2Done_ok (tr : CompatOut) (d : Dev) (hd : d.ok) : (imgPass2Done tr d).ok := by
  unfold imgPass2Done
  split
  · with_reducible assumption
  · lift_lets
    intro x0 x1 x2 x3 x4 x5 x6 x7 x8 x9 x10 x11 x12 x13 x14 x15 x16 x17 x18 x19 x20 x21 x22 x23 x24 x25 x26 x27 x28 x29 x30 x31 x32 x33 x34
    have h35 : (Dev.ok (x0).2) := by
      dsimp only [x0]
      apply imgSource_ok
      with_reducible assumption
    have h36 : (Dev.ok x1) := by
      dsimp only [x1]
      with_reducible assumption
    have h37 : (Dev.ok (x29).2) := by
      dsimp only [x29]
      apply constPack_ok
      with_reducible assumption
    have h38 : (Dev.ok x30) := by
      dsimp only [x30]
      with_reducible assumption
    have h39 : (Dev.ok x34) := by
      dsimp only [x34]
      apply setImg_ok
      with_reducible assumption
    apply ite_ok
    · with_reducible assumption
    · split
      · apply imgLoadDone_ok
        with_reducible assumption
      · split
        · clear_value x1 x28 x30
          split
          · apply imgLoadDone_ok
            with_reducible assumption
          · apply imgLoadDone_ok
            with_reducible assumption
        · clear_value x1 x2 x3 x28 x31 x34
          split
          · apply imgLoadDone_ok
            with_reducible assumption
          · apply imgLoadDone_ok
            apply setDigest_ok
            apply setEpoch_ok
            apply setSlotState_ok
            with_reducible assumption

theorem imgSourceFault_ok (code : Nat) (off : Nat) (d : Dev) (hd : d.ok) : (imgSourceFault code off d).ok := by
  unfold imgSourceFault
  split
  · with_reducible assumption
  · apply ite_ok
    · apply imgLoadDone_ok
      apply consume_ok
      with_reducible assumption
    · apply ite_ok
      · apply imgLoadDone_ok
        apply busError_ok
        with_reducible assumption
      · with_reducible assumption

theorem imgAbort_ok (d : Dev) (hd : d.ok) : (imgAbort d).ok := by
  unfold imgAbort
  apply imgLoadDone_ok
  with_reducible assumption

theorem blkCount_ok (r : Reg) (stat : Reg) (en : Reg) (src : Nat) (n : Nat) (d : Dev) (hd : d.ok) : (blkCount r stat en src n d).ok := by
  unfold blkCount
  lift_lets
  intro x0 x1
  have h2 : (Dev.ok x1) := by
    dsimp only [x1]
    apply sf_ok
    with_reducible assumption
  apply ite_ok
  · apply blkCause_ok
    apply sf_ok
    with_reducible assumption
  · with_reducible assumption

theorem ingestDrop_ok (inst : Nat) (n : Nat) (d : Dev) (hd : d.ok) : (ingestDrop inst n d).ok := by
  unfold ingestDrop
  apply ite_ok
  · with_reducible assumption
  · apply ite_ok
    · apply blkCause_ok
      apply blkCount_ok
      with_reducible assumption
    · apply ite_ok
      · apply blkCause_ok
        apply blkCount_ok
        with_reducible assumption
      · apply blkCause_ok
        apply blkCount_ok
        with_reducible assumption

theorem routesBind_ok (c : ImgSlot) (d : Dev) (hd : d.ok) : (routesBind c d).ok := by
  unfold routesBind
  lift_lets
  intro x0 x1 x2 x3 x4 x5
  have h6 : (Dev.ok x1) := by
    dsimp only [x1]
    apply foldl_ok
    · intro y7 y8 y9
      apply fifoRegsReset_ok
      with_reducible assumption
    · with_reducible assumption
  have h10 : (Dev.ok x3) := by
    dsimp only [x3]
    apply mk_ok
    with_reducible assumption
  have h11 : (Dev.ok x4) := by
    dsimp only [x4]
    apply foldl_ok
    · intro y12 y13 y14
      apply sf_ok
      apply sf_ok
      with_reducible assumption
    · with_reducible assumption
  have h15 : (Dev.ok x5) := by
    dsimp only [x5]
    apply sf_ok
    with_reducible assumption
  apply forN_ok
  · intro y16 y17 y18
    apply pinDrive_ok
    with_reducible assumption
  · apply foldl_ok
    · intro y19 y20 y21
      lift_lets
      intro x22
      split
      · apply ingestDrop_ok
        with_reducible assumption
      · split
        · with_reducible assumption
        · lift_lets
          intro x23 x24
          have h25 : (Dev.ok x24) := by
            dsimp only [x24]
            apply foldl_ok
            · intro y26 y27 y28
              apply fifoPut_ok
              with_reducible assumption
            · with_reducible assumption
          apply fifoSend_ok
          apply ingestDrop_ok
          with_reducible assumption
    · with_reducible assumption

theorem qzBind_ok (c : ImgSlot) (d : Dev) (hd : d.ok) : (qzBind c d).ok := by
  unfold qzBind
  lift_lets
  intro x0
  apply forN_ok
  · intro y1 y2 y3
    apply forN_ok
    · intro y4 y5 y6
      split
      · apply sf_ok
        apply sf_ok
        apply sf_ok
        apply sf_ok
        apply sf_ok
        with_reducible assumption
      · apply sf_ok
        apply sf_ok
        apply sf_ok
        apply sf_ok
        with_reducible assumption
    · with_reducible assumption
  · apply mk_ok
    with_reducible assumption

theorem relocRegs_ok (c : ImgSlot) (hosts : FMap Nat) (d : Dev) (hd : d.ok) : (relocRegs c hosts d).ok := by
  unfold relocRegs
  lift_lets
  intro x0 x1 x2
  have h3 : (Dev.ok x0) := by
    dsimp only [x0]
    apply foldl_ok
    · intro y4 y5 y6
      apply sf_ok
      apply sf_ok
      apply sf_ok
      apply sf_ok
      with_reducible assumption
    · with_reducible assumption
  apply mk_ok
  with_reducible assumption

theorem bootRecWrite_ok (d : Dev) (hd : d.ok) : (bootRecWrite d).ok := by
  unfold bootRecWrite
  lift_lets
  intro x0 x1 x2 x3
  apply mk_ok
  with_reducible assumption

theorem constCopyOf_ok (only : Nat → Bool) (s : Nat) (d : Dev) (hd : d.ok) : (constCopyOf only s d).2.ok := by
  unfold constCopyOf
  lift_lets
  intro x0 x1
  apply foldl2_ok
  · intro y2 y3 y4
    lift_lets
    intro x5 x6 x7 x8
    apply ite2_ok
    · with_reducible assumption
    · apply foldl2_ok
      · intro y9 y10 y11
        lift_lets
        intro x12
        have h13 : (Dev.ok (x12).2) := by
          dsimp only [x12]
          apply imgCopy_ok
          with_reducible assumption
        apply ite2_ok
        · with_reducible assumption
        · with_reducible assumption
      · with_reducible assumption
  · with_reducible assumption

theorem constCopy_ok (s : Nat) (d : Dev) (hd : d.ok) : (constCopy s d).2.ok := by
  unfold constCopy
  apply constCopyOf_ok
  with_reducible assumption

theorem actEnd_ok (code : Nat) (a : ActRun) (silent : Bool) (d : Dev) (hd : d.ok) : (actEnd code a silent d).ok := by
  unfold actEnd
  lift_lets
  intro x0 x1 x2 x3
  have h4 : (Dev.ok x1) := by
    dsimp only [x1]
    apply setImg_ok
    with_reducible assumption
  have h5 : (Dev.ok x2) := by
    dsimp only [x2]
    apply sf_ok
    apply sf_ok
    with_reducible assumption
  have h6 : (Dev.ok x3) := by
    dsimp only [x3]
    apply ite_ok
    · with_reducible assumption
    · apply raise_ok
      apply sf_ok
      with_reducible assumption
  split
  · apply finish_ok
    with_reducible assumption
  · with_reducible assumption

theorem castleEnd_ok (n : Nat) (code : Nat) (r0 : Nat) (r1 : Nat) (d : Dev) (hd : d.ok) : (castleEnd n code r0 r1 d).ok := by
  unfold castleEnd
  split
  · with_reducible assumption
  · lift_lets
    intro x0 x1
    have h2 : (Dev.ok x1) := by
      dsimp only [x1]
      apply mk_ok
      with_reducible assumption
    apply finish_ok
    with_reducible assumption

theorem actAbandon_ok (code : Nat) (castleCode : Nat) (silent : Bool) (d : Dev) (hd : d.ok) : (actAbandon code castleCode silent d).ok := by
  unfold actAbandon
  split
  · with_reducible assumption
  · lift_lets
    intro x0 x1 x2
    have h3 : (Dev.ok x0) := by
      dsimp only [x0]
      split
      · apply ite_ok
        · apply barrierWithdraw_ok
          with_reducible assumption
        · with_reducible assumption
      · with_reducible assumption
    have h4 : (Dev.ok x1) := by
      dsimp only [x1]
      apply ite_ok
      · split
        · apply constCopy_ok
          with_reducible assumption
        · with_reducible assumption
      · with_reducible assumption
    have h5 : (Dev.ok x2) := by
      dsimp only [x2]
      apply actEnd_ok
      with_reducible assumption
    split
    · apply castleEnd_ok
      with_reducible assumption
    · with_reducible assumption

theorem actSwitch_ok (d : Dev) (hd : d.ok) : (actSwitch d).ok := by
  unfold actSwitch
  split
  · with_reducible assumption
  · lift_lets
    intro x0 x1 x2 x3 x4 x5 x6 x7 x8 x9 x10 x11 x12 x13 x14 x15 x16 x17 x18 x19
    have h20 : (Dev.ok x3) := by
      dsimp only [x3]
      split
      · split
        · apply castleSwitch_ok
          with_reducible assumption
        · with_reducible assumption
      · with_reducible assumption
    have h21 : (Dev.ok x4) := by
      dsimp only [x4]
      split
      · apply setSlotState_ok
        with_reducible assumption
      · with_reducible assumption
    have h22 : (Dev.ok x5) := by
      dsimp only [x5]
      apply setDigest_ok
      apply sf_ok
      apply setSlotState_ok
      with_reducible assumption
    have h23 : (Dev.ok x7) := by
      dsimp only [x7]
      apply setImg_ok
      with_reducible assumption
    have h24 : (Dev.ok x12) := by
      dsimp only [x12]
      apply mk_ok
      with_reducible assumption
    have h25 : (Dev.ok x13) := by
      dsimp only [x13]
      apply forN_ok
      · intro y26 y27 y28
        apply readsStop_ok
        with_reducible assumption
      · with_reducible assumption
    have h29 : (Dev.ok x14) := by
      dsimp only [x14]
      apply relocRegs_ok
      apply forN_ok
      · intro y30 y31 y32
        apply wr_ok
        with_reducible assumption
      · with_reducible assumption
    have h33 : (Dev.ok x15) := by
      dsimp only [x15]
      apply forN_ok
      · intro y34 y35 y36
        apply ite_ok
        · apply setEngState_ok
          with_reducible assumption
        · with_reducible assumption
      · with_reducible assumption
    have h37 : (Dev.ok x16) := by
      dsimp only [x16]
      apply syncInitWrite_ok
      apply qzBind_ok
      apply prodCheckAll_ok
      apply hostPorts_ok
      apply routesBind_ok
      with_reducible assumption
    have h38 : (Dev.ok x17) := by
      dsimp only [x17]
      apply ite_ok
      · apply pinForceAll_ok
        with_reducible assumption
      · with_reducible assumption
    have h39 : (Dev.ok x18) := by
      dsimp only [x18]
      apply bootRecWrite_ok
      apply fpRecompute_ok
      with_reducible assumption
    have h40 : (Dev.ok x19) := by
      dsimp only [x19]
      apply actEnd_ok
      with_reducible assumption
    clear_value x2 x19
    split
    · apply castleEnd_ok
      with_reducible assumption
    · with_reducible assumption

theorem actArrive_ok (d : Dev) (hd : d.ok) : (actArrive d).ok := by
  unfold actArrive
  split
  · with_reducible assumption
  · split
    · apply actSwitch_ok
      with_reducible assumption
    · lift_lets
      intro x0 x1 x2 x3
      have h4 : (Dev.ok ((x0).2).2) := by
        dsimp only [x0]
        apply barrierArrive_ok
        with_reducible assumption
      have h5 : (Dev.ok x2) := by
        dsimp only [x2]
        apply sf_ok
        apply setImg_ok
        with_reducible assumption
      have h6 : (Dev.ok (x3).2) := by
        dsimp only [x3]
        apply barrierWait_ok
        with_reducible assumption
      apply ite_ok
      · apply actAbandon_ok
        with_reducible assumption
      · apply ite_ok
        · apply actSwitch_ok
          with_reducible assumption
        · with_reducible assumption

theorem actDrained_ok (d : Dev) (hd : d.ok) : (actDrained d).ok := by
  unfold actDrained
  split
  · with_reducible assumption
  · lift_lets
    intro x0 x1 x2
    have h3 : (Dev.ok x1) := by
      dsimp only [x1]
      apply forN_ok
      · intro y4 y5 y6
        apply ite_ok
        · apply captureFit_ok
          with_reducible assumption
        · with_reducible assumption
      · with_reducible assumption
    apply ite_ok
    · with_reducible assumption
    · apply ite_ok
      · apply actArrive_ok
        with_reducible assumption
      · apply sf_ok
        apply setImg_ok
        with_reducible assumption

theorem actConstDone_ok (d : Dev) (hd : d.ok) : (actConstDone d).ok := by
  unfold actConstDone
  split
  · with_reducible assumption
  · lift_lets
    intro x0 x1 x2
    have h3 : (Dev.ok x1) := by
      dsimp only [x1]
      apply setImg_ok
      with_reducible assumption
    have h4 : (Dev.ok (x2).2) := by
      dsimp only [x2]
      apply constCopy_ok
      with_reducible assumption
    apply ite_ok
    · with_reducible assumption
    · apply ite_ok
      · apply actAbandon_ok
        with_reducible assumption
      · apply actArrive_ok
        with_reducible assumption

theorem actReleased_ok (d : Dev) (hd : d.ok) : (actReleased d).ok := by
  unfold actReleased
  split
  · with_reducible assumption
  · split
    · lift_lets
      intro x0
      have h1 : (Dev.ok (x0).2) := by
        dsimp only [x0]
        apply barrierWait_ok
        with_reducible assumption
      apply ite_ok
      · apply ite_ok
        · apply actSwitch_ok
          with_reducible assumption
        · with_reducible assumption
      · with_reducible assumption
    · with_reducible assumption

theorem actTimeout_ok (d : Dev) (hd : d.ok) : (actTimeout d).ok := by
  unfold actTimeout
  apply actAbandon_ok
  with_reducible assumption

theorem actStart_ok (cmd : Option CmdHdr) (castle : Option Nat) (barrier : Option Nat) (d : Dev) (hd : d.ok) : (actStart cmd castle barrier d).ok := by
  unfold actStart
  lift_lets
  intro x0 x1 x2 x3 x4 x5 x6
  have h7 : (Dev.ok x3) := by
    dsimp only [x3]
    split
    · apply opState_ok
      with_reducible assumption
    · with_reducible assumption
  have h10 : (∀ z8 z9, Dev.ok z9 → Dev.ok (x4 z8 z9)) := by
    intro y11 y12 y13
    dsimp only [x4]
    split
    · apply castleEnd_ok
      apply actEnd_ok
      with_reducible assumption
    · apply actEnd_ok
      with_reducible assumption
  have h14 : (Dev.ok x6) := by
    dsimp only [x6]
    apply sf_ok
    apply sf_ok
    apply setImg_ok
    with_reducible assumption
  apply ite_ok
  · apply h10
    with_reducible assumption
  · apply ite_ok
    · apply h10
      with_reducible assumption
    · apply ite_ok
      · apply h10
        with_reducible assumption
      · apply actDrained_ok
        with_reducible assumption

theorem actGo_ok (d : Dev) (hd : d.ok) : (actGo d).ok := by
  unfold actGo
  apply ite_ok
  · apply sf_ok
    with_reducible assumption
  · apply actStart_ok
    with_reducible assumption

theorem imgCmdStart_ok (c : ImgCmd) (d : Dev) (hd : d.ok) : (imgCmdStart c d).ok := by
  unfold imgCmdStart
  split
  · apply imgLoadStart_ok
    apply wr_ok
    apply sf_ok
    with_reducible assumption
  · apply actStart_ok
    with_reducible assumption

theorem imgCmd_ok (a0 : CmdHdr) (c : ImgCmd) (d : Dev) (hd : d.ok) : (imgCmd a0 c d).ok := by
  unfold imgCmd
  apply longCmd_ok
  · intro y0 y1
    lift_lets
    intro x2 x3
    have h4 : (Dev.ok x2) := by
      dsimp only [x2]
      apply opOpen_ok
      with_reducible assumption
    apply ite_ok
    · apply setImg_ok
      with_reducible assumption
    · apply imgCmdStart_ok
      with_reducible assumption
  · with_reducible assumption

theorem imgQueuedStart_ok (d : Dev) (hd : d.ok) : (imgQueuedStart d).ok := by
  unfold imgQueuedStart
  split
  · with_reducible assumption
  · lift_lets
    intro x0
    apply ite_ok
    · with_reducible assumption
    · apply imgCmdStart_ok
      apply setImg_ok
      with_reducible assumption

theorem constRestore_ok (d : Dev) (hd : d.ok) : (constRestore d).ok := by
  unfold constRestore
  split
  · with_reducible assumption
  · lift_lets
    intro x0 x1 x2
    have h3 : (Dev.ok (x1).2) := by
      dsimp only [x1]
      apply constCopy_ok
      with_reducible assumption
    apply ite_ok
    · apply raise_ok
      apply wr_ok
      apply setSlotState_ok
      with_reducible assumption
    · with_reducible assumption

end Sys2Proof.Machine
end

