-- ==== Sys2Proof/Laws/KeepsCastle.lean ====
section
/-! SUPPORT. Every operation of Machine/Castle.lean keeps the canonical form of the sparse stores
(`Dev.ok`): memory, error marks, poison marks and registers. -/

namespace Sys2Proof.Machine

theorem setCastles_ok (m : FMap Castle) (d : Dev) (hd : d.ok) : (setCastles m d).ok := by
  unfold setCastles
  lift_lets
  intro x0
  apply mk_ok
  with_reducible assumption

theorem castleDo_ok (n : Nat) (d : Dev) (hd : d.ok) : (castleDo n d).ok := by
  unfold castleDo
  split
  · with_reducible assumption
  · lift_lets
    intro x0
    apply ite_ok
    · apply castleEnd_ok
      with_reducible assumption
    · apply castleEnd_ok
      apply castleSwitch_ok
      with_reducible assumption

theorem castleRun_ok (a0 : CmdHdr) (n : Nat) (flags : Nat) (barrier : Nat) (d : Dev) (hd : d.ok) : (castleRun a0 n flags barrier d).ok := by
  unfold castleRun
  lift_lets
  intro x0 x1 x2
  have h3 : (Dev.ok x0) := by
    dsimp only [x0]
    apply opOpen_ok
    with_reducible assumption
  apply ite_ok
  · apply finish_ok
    with_reducible assumption
  · apply ite_ok
    · apply finish_ok
      with_reducible assumption
    · split
      · apply finish_ok
        with_reducible assumption
      · lift_lets
        intro x4
        have h5 : (Dev.ok x4) := by
          dsimp only [x4]
          apply setCastles_ok
          with_reducible assumption
        apply ite_ok
        · apply finish_ok
          with_reducible assumption
        · apply ite_ok
          · apply finish_ok
            with_reducible assumption
          · apply ite_ok
            · apply actStart_ok
              with_reducible assumption
            · clear_value x2 x4
              split
              · apply castleDo_ok
                with_reducible assumption
              · split
                · rename_i w6 w7 w8 w9 w10 w11 w12 w13 w14
                  have h15 := snd2_of_eq w14 (by
                    apply barrierArrive_ok
                    with_reducible assumption)
                  apply castleEnd_ok
                  with_reducible assumption
                · rename_i w16 w17 w18 w19 w20 w21 w22 w23 w24
                  have h25 := snd2_of_eq w24 (by
                    apply barrierArrive_ok
                    with_reducible assumption)
                  lift_lets
                  intro x26 x27
                  have h28 : (Dev.ok x26) := by
                    dsimp only [x26]
                    apply setCastles_ok
                    with_reducible assumption
                  have h29 : (Dev.ok (x27).2) := by
                    dsimp only [x27]
                    apply barrierWait_ok
                    with_reducible assumption
                  apply ite_ok
                  · apply castleDo_ok
                    with_reducible assumption
                  · with_reducible assumption

theorem xCastle_ok (a0 : CmdHdr) (n : Nat) (flags : Nat) (barrier : Nat) (d : Dev) (hd : d.ok) : (xCastle a0 n flags barrier d).ok := by
  unfold xCastle
  apply longCmd_ok
  · intro y0 y1
    apply castleRun_ok
    with_reducible assumption
  · with_reducible assumption

theorem castleStop_ok (n : Nat) (code : Nat) (d : Dev) (hd : d.ok) : (castleStop n code d).ok := by
  unfold castleStop
  split
  · with_reducible assumption
  · lift_lets
    intro x0
    have h1 : (Dev.ok x0) := by
      dsimp only [x0]
      apply ite_ok
      · apply barrierWithdraw_ok
        with_reducible assumption
      · with_reducible assumption
    apply ite_ok
    · apply actAbandon_ok
      with_reducible assumption
    · apply castleEnd_ok
      with_reducible assumption

theorem castleReleased_ok (n : Nat) (d : Dev) (hd : d.ok) : (castleReleased n d).ok := by
  unfold castleReleased
  split
  · lift_lets
    intro x0
    have h1 : (Dev.ok (x0).2) := by
      dsimp only [x0]
      apply barrierWait_ok
      with_reducible assumption
    apply ite_ok
    · apply ite_ok
      · apply castleDo_ok
        with_reducible assumption
      · with_reducible assumption
    · with_reducible assumption
  · with_reducible assumption

theorem castleTimeout_ok (n : Nat) (d : Dev) (hd : d.ok) : (castleTimeout n d).ok := by
  unfold castleTimeout
  split
  · apply ite_ok
    · apply castleStop_ok
      with_reducible assumption
    · with_reducible assumption
  · with_reducible assumption

theorem holdExpiry_ok (n : Nat) (d : Dev) (hd : d.ok) : (holdExpiry n d).ok := by
  unfold holdExpiry
  split
  · apply ite_ok
    · apply holdEnd_ok
      with_reducible assumption
    · with_reducible assumption
  · with_reducible assumption

theorem slotExpire_ok (d : Dev) (hd : d.ok) : (slotExpire d).ok := by
  unfold slotExpire
  apply holdEnd_ok
  with_reducible assumption

theorem castleRecheck_ok (n : Nat) (s : Nat) (d : Dev) (hd : d.ok) : (castleRecheck n s d).ok := by
  unfold castleRecheck
  split
  · apply ite_ok
    · apply castleStop_ok
      with_reducible assumption
    · with_reducible assumption
  · with_reducible assumption

theorem releaseCmd_ok (a0 : CmdHdr) (n : Nat) (s : Nat) (d : Dev) (hd : d.ok) : (releaseCmd a0 n s d).ok := by
  unfold releaseCmd
  lift_lets
  intro x0 x1 x2 x3 x4
  have h5 : (Dev.ok x0) := by
    dsimp only [x0]
    apply cmdIn_ok
    with_reducible assumption
  have h6 : (Dev.ok x1) := by
    dsimp only [x1]
    apply holdEnd_ok
    with_reducible assumption
  have h7 : (Dev.ok x2) := by
    dsimp only [x2]
    apply dropBindings_ok
    with_reducible assumption
  have h8 : (Dev.ok x3) := by
    dsimp only [x3]
    apply sideUpd_ok
    with_reducible assumption
  have h9 : (Dev.ok x4) := by
    dsimp only [x4]
    apply ite_ok
    · apply sideRelease_ok
      with_reducible assumption
    · with_reducible assumption
  apply ite_ok
  · apply finish_ok
    with_reducible assumption
  · apply ite_ok
    · apply finish_ok
      with_reducible assumption
    · split
      · apply finish_ok
        apply castleRecheck_ok
        apply sideRelease_ok
        with_reducible assumption
      · apply finish_ok
        apply fpRecompute_ok
        with_reducible assumption
      · apply finish_ok
        with_reducible assumption

end Sys2Proof.Machine
end

