-- ==== Sys2Proof/Laws/KeepsTrain.lean ====
section
/-! SUPPORT. Every operation of Machine/Train.lean keeps the canonical form of the sparse stores
(`Dev.ok`): memory, error marks, poison marks and registers. -/

namespace Sys2Proof.Machine

theorem objWrite_ok (n : Nat) (off : Nat) (bs : List Byte) (p : Bool) (d : Dev) (hd : d.ok) : (objWrite n off bs p d).ok := by
  unfold objWrite
  apply foldl_ok
  · intro y0 y1 y2
    split
    · with_reducible assumption
    · lift_lets
      intro x3 x4
      have h5 : (Dev.ok x4) := by
        dsimp only [x4]
        apply writeMem_ok
        with_reducible assumption
      apply ite_ok
      · apply setDirty_ok
        with_reducible assumption
      · with_reducible assumption
  · with_reducible assumption

theorem objRead'_ok (n : Nat) (off : Nat) (len : Nat) (d : Dev) (hd : d.ok) : (objRead' n off len d).2.ok := by
  unfold objRead'
  apply foldl2_ok
  · intro y0 y1 y2
    split
    · with_reducible assumption
    · lift_lets
      intro x3
      have h4 : (Dev.ok (x3).2) := by
        dsimp only [x3]
        apply readMem_ok
        with_reducible assumption
      with_reducible assumption
  · with_reducible assumption

theorem workHeader_ok (b : List Byte) (d : Dev) (hd : d.ok) : (workHeader b d).2.ok := by
  unfold workHeader
  apply objRead'_ok
  with_reducible assumption

theorem trCheck_ok (b : List Byte) (d : Dev) (hd : d.ok) : (trCheck b d).2.ok := by
  unfold trCheck
  lift_lets
  intro x0 x1
  have h2 : (Dev.ok (x1).2) := by
    dsimp only [x1]
    apply workHeader_ok
    with_reducible assumption
  apply ite2_ok
  · with_reducible assumption
  · apply ite2_ok
    · with_reducible assumption
    · apply ite2_ok
      · with_reducible assumption
      · split
        · with_reducible assumption
        · apply ite2_ok
          · with_reducible assumption
          · apply ite2_ok
            · with_reducible assumption
            · apply ite2_ok
              · with_reducible assumption
              · split
                · with_reducible assumption
                · apply ite2_ok
                  · with_reducible assumption
                  · with_reducible assumption

theorem setTrain_ok (t : TrainRun) (d : Dev) (hd : d.ok) : (setTrain t d).ok := by
  unfold setTrain
  apply mk_ok
  with_reducible assumption

theorem trShow_ok (d : Dev) (hd : d.ok) : (trShow d).ok := by
  unfold trShow
  split
  · apply sf_ok
    apply sf_ok
    with_reducible assumption
  · apply sf_ok
    apply sf_ok
    apply sf_ok
    apply sf_ok
    apply sf_ok
    with_reducible assumption

theorem trEnd_ok (code : Nat) (obj : Nat) (d : Dev) (hd : d.ok) : (trEnd code obj d).ok := by
  unfold trEnd
  split
  · with_reducible assumption
  · lift_lets
    intro x0 x1
    have h2 : (Dev.ok x0) := by
      dsimp only [x0]
      apply ite_ok
      · apply sessClose_ok
        with_reducible assumption
      · with_reducible assumption
    have h3 : (Dev.ok x1) := by
      dsimp only [x1]
      apply raise_ok
      apply sf_ok
      apply trShow_ok
      apply mk_ok
      with_reducible assumption
    apply finish_ok
    with_reducible assumption

theorem stepRecord_ok (t : TrainRun) (d : Dev) (hd : d.ok) : (stepRecord t d).ok := by
  unfold stepRecord
  lift_lets
  intro x0 x1 x2 x3
  apply objWrite_ok
  with_reducible assumption

theorem trAdmit_ok (d : Dev) (hd : d.ok) : (trAdmit d).ok := by
  unfold trAdmit
  split
  · with_reducible assumption
  · lift_lets
    intro x0 x1 x2 x3 x4
    apply ite_ok
    · with_reducible assumption
    · apply ite_ok
      · with_reducible assumption
      · apply ite_ok
        · apply admitBatch_ok
          apply setTrain_ok
          with_reducible assumption
        · apply admitBatch_ok
          apply setTrain_ok
          apply stepRecord_ok
          with_reducible assumption

theorem trNext_ok (d : Dev) (hd : d.ok) : (trNext d).ok := by
  unfold trNext
  split
  · with_reducible assumption
  · apply ite_ok
    · with_reducible assumption
    · apply ite_ok
      · apply trEnd_ok
        with_reducible assumption
      · apply ite_ok
        · apply trAdmit_ok
          apply trShow_ok
          with_reducible assumption
        · apply ite_ok
          · apply trEnd_ok
            with_reducible assumption
          · apply ite_ok
            · apply trEnd_ok
              with_reducible assumption
            · apply ite_ok
              · apply opAdjourned_ok
                apply trShow_ok
                apply setTrain_ok
                with_reducible assumption
              · apply ite_ok
                · apply ite_ok
                  · apply trShow_ok
                    apply setTrain_ok
                    with_reducible assumption
                  · apply trEnd_ok
                    with_reducible assumption
                · apply trAdmit_ok
                  apply trShow_ok
                  apply setTrain_ok
                  with_reducible assumption

theorem trBatchDone_ok (b : Batch) (d : Dev) (hd : d.ok) : (trBatchDone b d).ok := by
  unfold trBatchDone
  split
  · with_reducible assumption
  · apply ite_ok
    · apply trEnd_ok
      apply setTrain_ok
      with_reducible assumption
    · split
      · lift_lets
        intro x0
        have h1 : (Dev.ok x0) := by
          dsimp only [x0]
          apply trShow_ok
          apply setTrain_ok
          with_reducible assumption
        apply ite_ok
        · apply trEnd_ok
          with_reducible assumption
        · apply trNext_ok
          with_reducible assumption
      · apply trNext_ok
        apply setTrain_ok
        with_reducible assumption

theorem trPoke_ok (d : Dev) (hd : d.ok) : (trPoke d).ok := by
  unfold trPoke
  split
  · apply ite_ok
    · apply trEnd_ok
      with_reducible assumption
    · with_reducible assumption
  · with_reducible assumption

theorem xTrain_ok (a0 : CmdHdr) (addr : Nat) (d : Dev) (hd : d.ok) : (xTrain a0 addr d).ok := by
  unfold xTrain
  lift_lets
  intro x0 x1
  have h2 : (Dev.ok x0) := by
    dsimp only [x0]
    apply cmdIn_ok
    with_reducible assumption
  have h3 : (Dev.ok (x1).2) := by
    dsimp only [x1]
    apply masterRead_ok
    with_reducible assumption
  apply ite_ok
  · apply finish_ok
    with_reducible assumption
  · split
    · apply finish_ok
      apply consumeRead_ok
      with_reducible assumption
    · lift_lets
      intro x4 x5 x6 x7 x8 x9
      have h10 : (Dev.ok (x5).2) := by
        dsimp only [x5]
        apply trCheck_ok
        with_reducible assumption
      have h11 : (Dev.ok x6) := by
        dsimp only [x6]
        apply ite_ok
        · with_reducible assumption
        · apply raise_ok
          apply sf_ok
          with_reducible assumption
      have h12 : (Dev.ok x9) := by
        dsimp only [x9]
        apply opOpen_ok
        with_reducible assumption
      apply ite_ok
      · apply finish_ok
        with_reducible assumption
      · apply ite_ok
        · apply finish_ok
          with_reducible assumption
        · apply trShow_ok
          apply setTrain_ok
          with_reducible assumption

theorem trSetup_ok (d : Dev) (hd : d.ok) : (trSetup d).ok := by
  unfold trSetup
  split
  · with_reducible assumption
  · lift_lets
    intro x0 x1 x2 x3
    have h4 : (Dev.ok (x1).2) := by
      dsimp only [x1]
      apply foldl2_ok
      · intro y5 y6 y7
        dsimp only
        apply foldl2_ok
        · intro y8 y9 y10
          split
          · with_reducible assumption
          · dsimp only
            apply objWrite_ok
            apply readMem_ok
            with_reducible assumption
        · with_reducible assumption
      · with_reducible assumption
    have h11 : (Dev.ok x2) := by
      dsimp only [x2]
      with_reducible assumption
    have h12 : (Dev.ok x3) := by
      dsimp only [x3]
      apply setSessions_ok
      with_reducible assumption
    apply ite_ok
    · with_reducible assumption
    · apply ite_ok
      · apply trEnd_ok
        with_reducible assumption
      · apply ite_ok
        · apply trEnd_ok
          with_reducible assumption
        · apply ite_ok
          · apply trEnd_ok
            with_reducible assumption
          · apply trNext_ok
            apply setTrain_ok
            with_reducible assumption

theorem trAdjourn_ok (d : Dev) (hd : d.ok) : (trAdjourn d).ok := by
  unfold trAdjourn
  split
  · with_reducible assumption
  · lift_lets
    intro x0
    have h1 : (Dev.ok x0) := by
      dsimp only [x0]
      apply setTrain_ok
      with_reducible assumption
    apply ite_ok
    · with_reducible assumption
    · apply trNext_ok
      with_reducible assumption

theorem trResume_ok (d : Dev) (hd : d.ok) : (trResume d).ok := by
  unfold trResume
  split
  · with_reducible assumption
  · apply trNext_ok
    apply setTrain_ok
    with_reducible assumption

theorem trResign_ok (d : Dev) (hd : d.ok) : (trResign d).ok := by
  unfold trResign
  split
  · with_reducible assumption
  · lift_lets
    intro x0
    have h1 : (Dev.ok x0) := by
      dsimp only [x0]
      apply setTrain_ok
      with_reducible assumption
    apply ite_ok
    · apply trEnd_ok
      with_reducible assumption
    · apply ite_ok
      · with_reducible assumption
      · apply trNext_ok
        with_reducible assumption

theorem batchReplay_ok (p : Nat) (seq : Nat) (d : Dev) (hd : d.ok) : (batchReplay p seq d).ok := by
  unfold batchReplay
  split
  · lift_lets
    intro x0 x1 x2
    have h3 : (Dev.ok x1) := by
      dsimp only [x1]
      apply mk_ok
      with_reducible assumption
    have h4 : (Dev.ok x2) := by
      dsimp only [x2]
      apply batchUpd_ok
      with_reducible assumption
    apply ite_ok
    · with_reducible assumption
    · apply entryWrite_ok
      with_reducible assumption
  · with_reducible assumption

theorem holdEnded_ok (p : Nat) (d : Dev) (hd : d.ok) : (holdEnded p d).ok := by
  unfold holdEnded
  apply foldl_ok
  · intro y0 y1 y2
    apply batchHold_ok
    with_reducible assumption
  · with_reducible assumption

theorem releaseHead_ok (a0 : Nat) (a1 : Nat) (a2 : Dev) (ha2 : a2.ok) : (releaseHead a0 a1 a2).ok := by
  induction a0 generalizing a1 a2
  · unfold releaseHead
    with_reducible assumption
  · rename_i u0 ih
    unfold releaseHead
    split
    · with_reducible assumption
    · lift_lets
      intro x0 x1
      have h2 : (Dev.ok x0) := by
        dsimp only [x0]
        apply batchLeave_ok
        with_reducible assumption
      have h3 : (Dev.ok x1) := by
        dsimp only [x1]
        split
        · apply batchCpl_ok
          with_reducible assumption
        · apply trBatchDone_ok
          with_reducible assumption
      apply ite_ok
      · with_reducible assumption
      · apply ih
        with_reducible assumption

theorem batchComplete_ok (p : Nat) (d : Dev) (hd : d.ok) : (batchComplete p d).ok := by
  unfold batchComplete
  apply releaseHead_ok
  apply holdEnded_ok
  apply qzSettle_ok
  with_reducible assumption

theorem heldResign_ok (p : Nat) (seq : Nat) (d : Dev) (hd : d.ok) : (heldResign p seq d).ok := by
  unfold heldResign
  lift_lets
  intro x0
  have h1 : (Dev.ok x0) := by
    dsimp only [x0]
    apply heldDrop_ok
    apply batchUpd_ok
    with_reducible assumption
  apply releaseHead_ok
  with_reducible assumption

theorem trCommit_ok (d : Dev) (hd : d.ok) : (trCommit d).ok := by
  unfold trCommit
  split
  · exact hd
  · split
    · exact hd
    · dsimp only
      have h1 := objRead'_ok (descObj (‹TrainRun›).desc 3) 0 16384 d hd
      split
      · exact trEnd_ok _ _ _ h1
      · split
        · split
          · exact trEnd_ok _ _ _ (objRead'_ok _ _ _ _ h1)
          · apply trEnd_ok
            apply oldAdapters_ok
            apply foldl_ok
            · intro e x he
              split
              · split
                · exact batchReplay_ok _ _ _ (batchUpd_ok _ _ _ _ he)
                · exact he
              · exact he
            · apply oldAdapters_ok
              apply sideUpd_ok
              exact mk_ok (writeMem_ok _ _ _ _ (objRead'_ok _ _ _ _ h1))
        · exact trEnd_ok _ _ _ h1

theorem fifoStarve_ok (id : Nat) (d : Dev) (hd : d.ok) : (fifoStarve id d).ok := by
  unfold fifoStarve
  split
  · with_reducible assumption
  · lift_lets
    intro x0
    apply whenB_ok
    · intro y1 y2
      apply raise_ok
      apply sf_ok
      with_reducible assumption
    · apply setFifo_ok
      with_reducible assumption

theorem itemPresent_ok (id : Nat) (k : Nat) (upset : ErrPat) (d : Dev) (hd : d.ok) : (itemPresent id k upset d).ok := by
  have take : ∀ g : Item → Dev → Dev, (∀ it e, e.ok → (g it e).ok) → Dev.ok (match fifoPresent id k upset d with
      | (some it, d) => g it (fifoRead id k 1 d)
      | (none, d) => d) := by
    intro g hg
    have h := fifoPresent_ok id k upset d hd
    rcases hq : fifoPresent id k upset d with ⟨_ | it, e⟩ <;> rw [hq] at h
    · exact h
    · exact hg _ _ (fifoRead_ok _ _ _ _ h)
  unfold itemPresent
  split
  · exact hd
  · dsimp only
    split
    · exact fifoPresent_ok _ _ _ _ hd
    · exact take _ (fun it e he => exitItem_ok _ _ _ he)
    · split
      · exact take _ (fun it e he => linkItem_ok _ _ _ _ he)
      · exact hd
    · split
      · split
        · exact take _ (fun it e he => fifoSend_ok _ _ _ he)
        · exact hd
      · exact hd

end Sys2Proof.Machine
end

