-- ==== Sys2Proof/Laws/KeepsRings.lean ====
section
/-! SUPPORT. Every operation of Machine/Rings.lean keeps the canonical form of the sparse stores
(`Dev.ok`): memory, error marks, poison marks and registers. -/

namespace Sys2Proof.Machine

theorem setRings_ok (r : Rings) (d : Dev) (hd : d.ok) : (setRings r d).ok := by
  unfold setRings
  apply mk_ok
  with_reducible assumption

theorem cmdTailWrite_ok (n : Nat) (v : Nat) (d : Dev) (hd : d.ok) : (cmdTailWrite n v d).ok := by
  unfold cmdTailWrite
  apply ite_ok
  · apply sf_ok
    with_reducible assumption
  · apply sf_ok
    with_reducible assumption

theorem completionRelease_ok (n : Nat) (d : Dev) (hd : d.ok) : (completionRelease n d).ok := by
  unfold completionRelease
  lift_lets
  intro x0 x1
  have h2 : (Dev.ok x0) := by
    dsimp only [x0]
    apply cplDrain_ok
    with_reducible assumption
  apply ite_ok
  · with_reducible assumption
  · apply setRings_ok
    with_reducible assumption

theorem cplHeadWrite_ok (n : Nat) (v : Nat) (d : Dev) (hd : d.ok) : (cplHeadWrite n v d).ok := by
  unfold cplHeadWrite
  lift_lets
  intro x0 x1
  apply ite_ok
  · apply sf_ok
    with_reducible assumption
  · apply completionRelease_ok
    apply sf_ok
    with_reducible assumption

theorem ringEnable_ok (n : Nat) (d : Dev) (hd : d.ok) : (ringEnable n d).ok := by
  unfold ringEnable
  lift_lets
  intro x0 x1 x2 x3
  have h5 : (∀ z4, Dev.ok z4 → Dev.ok (x1 z4)) := by
    intro y6 y7
    dsimp only [x1]
    apply setRings_ok
    apply foldl_ok
    · intro y8 y9 y10
      apply opFinish_ok
      with_reducible assumption
    · apply sf_ok
      apply wr_ok
      apply wr_ok
      apply wr_ok
      apply wr_ok
      with_reducible assumption
  have h11 : (Dev.ok x2) := by
    dsimp only [x2]
    apply ite_ok
    · with_reducible assumption
    · apply h5
      with_reducible assumption
  apply ite_ok
  · with_reducible assumption
  · apply ite_ok
    · apply sf_ok
      with_reducible assumption
    · apply completionRelease_ok
      apply setRings_ok
      apply sf_ok
      with_reducible assumption

theorem ringDisable_ok (n : Nat) (d : Dev) (hd : d.ok) : (ringDisable n d).ok := by
  unfold ringDisable
  apply sf_ok
  with_reducible assumption

theorem ringChanged_ok (n : Nat) (d : Dev) (hd : d.ok) : (ringChanged n d).ok := by
  unfold ringChanged
  lift_lets
  intro x0
  apply setRings_ok
  with_reducible assumption

theorem nopCmd_ok (a0 : CmdHdr) (d : Dev) (hd : d.ok) : (nopCmd a0 d).ok := by
  unfold nopCmd
  apply finish_ok
  apply cmdIn_ok
  with_reducible assumption

theorem queryCmd_ok (a0 : CmdHdr) (kind : Nat) (index : Nat) (d : Dev) (hd : d.ok) : (queryCmd a0 kind index d).ok := by
  unfold queryCmd
  lift_lets
  intro x0
  have h1 : (Dev.ok x0) := by
    dsimp only [x0]
    apply cmdIn_ok
    with_reducible assumption
  apply ite_ok
  · apply finish_ok
    with_reducible assumption
  · apply ite_ok
    · split
      · apply finish_ok
        with_reducible assumption
      · lift_lets
        intro x2
        apply finish_ok
        with_reducible assumption
    · apply ite_ok
      · apply finish_ok
        with_reducible assumption
      · apply finish_ok
        with_reducible assumption

theorem opSet_ok (t : Nat) (f : OpEnt → OpEnt) (d : Dev) (hd : d.ok) : (opSet t f d).ok := by
  unfold opSet
  split
  · lift_lets
    intro x0
    apply setRings_ok
    with_reducible assumption
  · with_reducible assumption

theorem loadMark_ok (a0 : CmdHdr) (v : Nat) (d : Dev) (hd : d.ok) : (loadMark a0 v d).ok := by
  unfold loadMark
  lift_lets
  intro x0
  apply mk_ok
  with_reducible assumption

theorem adjournCmd_ok (a0 : CmdHdr) (t : Nat) (d : Dev) (hd : d.ok) : (adjournCmd a0 t d).ok := by
  unfold adjournCmd
  lift_lets
  intro x0
  have h1 : (Dev.ok x0) := by
    dsimp only [x0]
    apply cmdIn_ok
    with_reducible assumption
  apply ite_ok
  · apply finish_ok
    with_reducible assumption
  · split
    · apply finish_ok
      with_reducible assumption
    · lift_lets
      intro x2
      apply ite_ok
      · apply finish_ok
        with_reducible assumption
      · split
        · apply finish_ok
          apply loadMark_ok
          apply opSet_ok
          with_reducible assumption
        · apply ite_ok
          · apply finish_ok
            apply loadAdjourn_ok
            with_reducible assumption
          · apply finish_ok
            apply trAdjourn_ok
            apply opState_ok
            with_reducible assumption
        · apply finish_ok
          with_reducible assumption

theorem resumeCmd_ok (a0 : CmdHdr) (t : Nat) (d : Dev) (hd : d.ok) : (resumeCmd a0 t d).ok := by
  unfold resumeCmd
  lift_lets
  intro x0
  have h1 : (Dev.ok x0) := by
    dsimp only [x0]
    apply cmdIn_ok
    with_reducible assumption
  apply ite_ok
  · apply finish_ok
    with_reducible assumption
  · split
    · apply finish_ok
      with_reducible assumption
    · lift_lets
      intro x2
      apply ite_ok
      · apply finish_ok
        with_reducible assumption
      · apply ite_ok
        · apply finish_ok
          apply loadMark_ok
          apply opSet_ok
          with_reducible assumption
        · apply ite_ok
          · apply finish_ok
            apply loadResume_ok
            with_reducible assumption
          · apply finish_ok
            apply trResume_ok
            apply opState_ok
            with_reducible assumption

theorem resignQueued_ok (e : OpEnt) (d : Dev) (hd : d.ok) : (resignQueued e d).ok := by
  unfold resignQueued
  lift_lets
  intro x0 x1 x2
  split
  · apply finish_ok
    apply mk_ok
    with_reducible assumption
  · apply finish_ok
    apply mk_ok
    with_reducible assumption
  · apply finish_ok
    with_reducible assumption
  · apply finish_ok
    with_reducible assumption
  · apply finish_ok
    with_reducible assumption

theorem resignCmd_ok (a0 : CmdHdr) (t : Nat) (d : Dev) (hd : d.ok) : (resignCmd a0 t d).ok := by
  unfold resignCmd
  lift_lets
  intro x0
  have h1 : (Dev.ok x0) := by
    dsimp only [x0]
    apply cmdIn_ok
    with_reducible assumption
  apply ite_ok
  · apply finish_ok
    with_reducible assumption
  · split
    · apply finish_ok
      with_reducible assumption
    · lift_lets
      intro x2 x3 x4 x5 x6
      have h7 : (Dev.ok x5) := by
        dsimp only [x5]
        apply opState_ok
        with_reducible assumption
      have h8 : (Dev.ok x6) := by
        dsimp only [x6]
        split
        · clear_value x3 x5
          split
          · apply loadResign_ok
            with_reducible assumption
          · apply trResign_ok
            with_reducible assumption
          · apply imgAbort_ok
            with_reducible assumption
          · apply castleStop_ok
            with_reducible assumption
        · clear_value x3 x5
          split
          · apply loadResign_ok
            with_reducible assumption
          · apply trResign_ok
            with_reducible assumption
          · apply imgAbort_ok
            with_reducible assumption
          · with_reducible assumption
      apply ite_ok
      · apply finish_ok
        with_reducible assumption
      · apply ite_ok
        · apply finish_ok
          with_reducible assumption
        · apply ite_ok
          · apply finish_ok
            apply resignQueued_ok
            with_reducible assumption
          · apply finish_ok
            with_reducible assumption

theorem fieldCmd_ok (a0 : CmdHdr) (bad : Bool) (f : Dev → Dev) (d : Dev) (hf : ∀ v0, v0.ok → (f v0).ok) (hd : d.ok) : (fieldCmd a0 bad f d).ok := by
  unfold fieldCmd
  apply ite_ok
  · apply finish_ok
    apply cmdIn_ok
    with_reducible assumption
  · apply hf
    with_reducible assumption

theorem loadCmd_ok (a0 : CmdHdr) (addr : Nat) (len : Nat) (slot : Nat) (side : Nat) (kind : Nat) (nsid : Nat) (a7 : Dev) (ha7 : a7.ok) : (loadCmd a0 addr len slot side kind nsid a7).ok := by
  unfold loadCmd
  apply fieldCmd_ok
  · intro y0 y1
    apply xLoad_ok
    with_reducible assumption
  · with_reducible assumption

theorem castleCmd_ok (a0 : CmdHdr) (slot : Nat) (flags : Nat) (barrier : Nat) (a4 : Dev) (ha4 : a4.ok) : (castleCmd a0 slot flags barrier a4).ok := by
  unfold castleCmd
  apply fieldCmd_ok
  · intro y0 y1
    apply xCastle_ok
    with_reducible assumption
  · with_reducible assumption

theorem releaseRow_ok (a0 : CmdHdr) (slot : Nat) (side : Nat) (a3 : Dev) (ha3 : a3.ok) : (releaseRow a0 slot side a3).ok := by
  unfold releaseRow
  apply fieldCmd_ok
  · intro y0 y1
    apply releaseCmd_ok
    with_reducible assumption
  · with_reducible assumption

theorem tmCmd_ok (s : TmSrc) (t : TmDesc) (a2 : Dev) (ha2 : a2.ok) : (tmCmd s t a2).ok := by
  unfold tmCmd
  split
  · apply fieldCmd_ok
    · intro y0 y1
      apply tmRow_ok
      with_reducible assumption
    · with_reducible assumption
  · apply tmRow_ok
    with_reducible assumption

theorem imgLoadCmd_ok (a0 : CmdHdr) (src : Nat) (len : Nat) (a3 : Dev) (ha3 : a3.ok) : (imgLoadCmd a0 src len a3).ok := by
  unfold imgLoadCmd
  apply fieldCmd_ok
  · intro y0 y1
    apply imgCmd_ok
    with_reducible assumption
  · with_reducible assumption

theorem imgActCmd_ok (a0 : CmdHdr) (en : Nat) (barrier : Nat) (a3 : Dev) (ha3 : a3.ok) : (imgActCmd a0 en barrier a3).ok := by
  unfold imgActCmd
  apply fieldCmd_ok
  · intro y0 y1
    apply imgCmd_ok
    with_reducible assumption
  · with_reducible assumption

theorem censusCmd_ok (a0 : CmdHdr) (expect : Nat) (a2 : Dev) (ha2 : a2.ok) : (censusCmd a0 expect a2).ok := by
  unfold censusCmd
  apply fieldCmd_ok
  · intro y0 y1
    apply longCmd_ok
    · intro y2 y3
      apply xCensus_ok
      apply opOpen_ok
      with_reducible assumption
    · with_reducible assumption
  · with_reducible assumption

theorem cmdRun_ok (a0 : CmdHdr) (b : List Byte) (d : Dev) (hd : d.ok) : (cmdRun a0 b d).ok := by
  unfold cmdRun
  lift_lets
  intro x0
  split
  · apply startCmd_ok
    with_reducible assumption
  · apply sessionCloseCmd_ok
    with_reducible assumption
  · apply loadCmd_ok
    with_reducible assumption
  · apply castleCmd_ok
    with_reducible assumption
  · apply releaseRow_ok
    with_reducible assumption
  · apply tmCmd_ok
    with_reducible assumption
  · apply xTrain_ok
    with_reducible assumption
  · apply imgLoadCmd_ok
    with_reducible assumption
  · apply imgActCmd_ok
    with_reducible assumption
  · apply censusCmd_ok
    with_reducible assumption
  · apply queryCmd_ok
    with_reducible assumption
  · apply adjournCmd_ok
    with_reducible assumption
  · apply resumeCmd_ok
    with_reducible assumption
  · apply resignCmd_ok
    with_reducible assumption
  · apply nopCmd_ok
    with_reducible assumption

theorem dispatchRing_ok (n : Nat) (d : Dev) (hd : d.ok) : (dispatchRing n d).ok := by
  unfold dispatchRing
  split
  · exact hd
  · dsimp only
    generalize ha : gf d (Reg.RING_CMD_BASE n) F.RING_CMD_BASE_ADDR + gf d (Reg.RING_CMD_HEAD n) F.RING_CMD_HEAD_INDEX %
      2 ^ gf d (Reg.RING_CFG n) F.RING_CFG_CMD_LOG2 * 64 = a
    have h := masterRead_ok 0x23 a 64 d hd
    rcases hq : masterRead 0x23 a 64 d with ⟨⟨b, poison⟩ | _, e⟩ <;> rw [hq] at h <;> dsimp only at h ⊢
    · have h2 : ∀ r, (setRings r e).ok := fun r => setRings_ok _ _ h
      split
      · exact hd
      · split
        · exact finish_ok _ _ _ _ _ (consumeRead_ok _ _ _ _ _ (headPast_ok _ _ (cmdIn_ok _ _ (h2 _))))
        · split
          · exact finish_ok _ _ _ _ _ (headPast_ok _ _ (cmdIn_ok _ _ (h2 _)))
          · split
            · exact h2 _
            · split
              · exact cmdRun_ok _ _ _ (h2 _)
              · exact cmdRun_ok _ _ _ (headPast_ok _ _ (h2 _))
    · exact ringStop_ok _ _ _ h

theorem commandDispatch_ok (d : Dev) (hd : d.ok) : (commandDispatch d).ok := by
  unfold commandDispatch
  split
  · with_reducible assumption
  · lift_lets
    intro x0 x1
    have h2 : (Dev.ok x0) := by
      dsimp only [x0]
      apply dispatchRing_ok
      with_reducible assumption
    apply ite_ok
    · with_reducible assumption
    · apply setRings_ok
      with_reducible assumption

theorem cplStall_ok (n : Nat) (d : Dev) (hd : d.ok) : (cplStall n d).ok := by
  unfold cplStall
  lift_lets
  intro x0
  apply ite_ok
  · apply raise_ok
    apply sf_ok
    apply setRings_ok
    with_reducible assumption
  · with_reducible assumption

theorem modTimer_ok (n : Nat) (d : Dev) (hd : d.ok) : (modTimer n d).ok := by
  unfold modTimer
  apply ite_ok
  · apply ringSignal_ok
    with_reducible assumption
  · with_reducible assumption

theorem progressTimer_ok (t : Nat) (d : Dev) (hd : d.ok) : (progressTimer t d).ok := by
  unfold progressTimer
  split
  · with_reducible assumption
  · lift_lets
    intro x0
    apply ite_ok
    · apply complete_ok
      with_reducible assumption
    · with_reducible assumption

end Sys2Proof.Machine
end

