-- ==== Sys2Proof/Laws/KeepsArb.lean ====
section
/-! SUPPORT. Every operation of Machine/Arb.lean keeps the canonical form of the sparse stores
(`Dev.ok`): memory, error marks, poison marks and registers. -/

namespace Sys2Proof.Machine

theorem setArb_ok (a : Arb) (d : Dev) (hd : d.ok) : (setArb a d).ok := by
  unfold setArb
  apply mk_ok
  with_reducible assumption

theorem healthWrite_ok (d : Dev) (hd : d.ok) : (healthWrite d).ok := by
  unfold healthWrite
  lift_lets
  intro x0
  apply setArb_ok
  with_reducible assumption

theorem recovDone_ok (slot : Nat) (side : Nat) (shard : Nat) (code : Nat) (d : Dev) (hd : d.ok) : (recovDone slot side shard code d).ok := by
  unfold recovDone
  apply raise_ok
  apply sf_ok
  apply sf_ok
  apply sf_ok
  apply sf_ok
  with_reducible assumption

theorem arbReplay_ok (p : Nat) (seq : Nat) (d : Dev) (hd : d.ok) : (arbReplay p seq d).ok := by
  unfold arbReplay
  split
  · apply ite_ok
    · with_reducible assumption
    · apply scoreEvent_ok
      apply batchReplay_ok
      with_reducible assumption
  · with_reducible assumption

theorem batchReplayRow_ok (p : Nat) (seq : Nat) (d : Dev) (hd : d.ok) : (batchReplayRow p seq d).ok := by
  unfold batchReplayRow
  split
  · apply ite_ok
    · apply arbReplay_ok
      with_reducible assumption
    · with_reducible assumption
  · with_reducible assumption

theorem holdReplay_ok (i : Nat) (d : Dev) (hd : d.ok) : (holdReplay i d).ok := by
  unfold holdReplay
  split
  · apply arbReplay_ok
    with_reducible assumption
  · with_reducible assumption

theorem holdResign_ok (i : Nat) (d : Dev) (hd : d.ok) : (holdResign i d).ok := by
  unfold holdResign
  split
  · apply heldResign_ok
    apply scoreEvent_ok
    with_reducible assumption
  · with_reducible assumption

theorem heldSet_ok (i : Nat) (e : HeldB) (d : Dev) (hd : d.ok) : (heldSet i e d).ok := by
  unfold heldSet
  lift_lets
  intro x0
  apply setArb_ok
  with_reducible assumption

theorem reloadSource_ok (r : ReloadIn) (x : Side) (m : ManShard) (d : Dev) (hd : d.ok) : (reloadSource r x m d).2.ok := by
  unfold reloadSource
  lift_lets
  intro x0
  have h1 : (Dev.ok (x0).2) := by
    dsimp only [x0]
    apply ite2_ok
    · apply srcRead_ok
      with_reducible assumption
    · with_reducible assumption
  clear_value x0
  split
  · lift_lets
    intro x2
    have h3 : (Dev.ok (x2).2) := by
      dsimp only [x2]
      apply ite2_ok
      · apply srcRead_ok
        with_reducible assumption
      · with_reducible assumption
    apply ite2_ok
    · with_reducible assumption
    · clear_value x2
      split
      · with_reducible assumption
      · with_reducible assumption
  · with_reducible assumption

theorem piecesWrite_ok (ps : List Piece) (bs : List Byte) (d : Dev) (hd : d.ok) : (piecesWrite ps bs d).ok := by
  unfold piecesWrite
  apply forEach_ok
  · intro y0 y1 y2
    lift_lets
    intro x3
    have h4 : (Dev.ok x3) := by
      dsimp only [x3]
      apply ite_ok
      · with_reducible assumption
      · apply wearUpd_ok
        apply eraseTarget_ok
        apply eraseBegin_ok
        with_reducible assumption
    apply rawReplace_ok
    apply invalidate_ok
    with_reducible assumption
  · with_reducible assumption

theorem shardCopy_ok (place : List Extent × List Piece) (bs : List Byte) (d : Dev) (hd : d.ok) : (shardCopy place bs d).ok := by
  unfold shardCopy
  split
  · apply writeMem_ok
    with_reducible assumption
  · apply piecesWrite_ok
    with_reducible assumption

theorem shardSwitch_ok (n : Nat) (s : Nat) (m : ManShard) (place : List Extent × List Piece) (bs : List Byte) (d : Dev) (hd : d.ok) : (shardSwitch n s m place bs d).ok := by
  unfold shardSwitch
  apply copyTake_ok
  apply shardCopy_ok
  with_reducible assumption

theorem retireCulprits_ok (n : Nat) (s : Nat) (i : Nat) (d : Dev) (hd : d.ok) : (retireCulprits n s i d).ok := by
  unfold retireCulprits
  lift_lets
  intro x0 x1
  apply forEach_ok
  · intro y2 y3 y4
    lift_lets
    intro x5
    split
    · lift_lets
      intro x6
      apply ite_ok
      · with_reducible assumption
      · apply setArb_ok
        with_reducible assumption
    · with_reducible assumption
  · with_reducible assumption

theorem slotGo_ok (n : Nat) (d : Dev) (hd : d.ok) : (slotGo n d).ok := by
  unfold slotGo
  lift_lets
  intro x0
  apply mslotUpd_ok
  with_reducible assumption

theorem reloadFailed_ok (n : Nat) (side : Nat) (shard : Nat) (where_ : Nat) (code : Nat) (d : Dev) (hd : d.ok) : (reloadFailed n side shard where_ code d).ok := by
  unfold reloadFailed
  lift_lets
  intro x0 x1
  have h2 : (Dev.ok x0) := by
    dsimp only [x0]
    apply mslotUpd_ok
    with_reducible assumption
  have h3 : (Dev.ok x1) := by
    dsimp only [x1]
    apply foldl_ok
    · intro y4 y5 y6
      split
      · apply heldSet_ok
        with_reducible assumption
      · with_reducible assumption
    · with_reducible assumption
  apply recovDone_ok
  apply raise_ok
  apply scoreEvent_ok
  with_reducible assumption

theorem shardReload_ok (r : ReloadIn) (d : Dev) (hd : d.ok) : (shardReload r d).ok := by
  unfold shardReload
  lift_lets
  intro x0 x1 x2 x3 x4 x5
  split
  · with_reducible assumption
  · lift_lets
    intro x6 x7 x8 x9 x10
    have h11 : (Dev.ok (x6).2) := by
      dsimp only [x6]
      apply reloadSource_ok
      with_reducible assumption
    have h12 : (Dev.ok x7) := by
      dsimp only [x7]
      with_reducible assumption
    have h13 : (Dev.ok x10) := by
      dsimp only [x10]
      apply scoreEvent_ok
      with_reducible assumption
    clear_value x0 x1 x2 x5 x6 x8 x9 x10
    split
    · lift_lets
      intro x14 x15 x16 x17
      have h18 : (Dev.ok x14) := by
        dsimp only [x14]
        apply shardSwitch_ok
        apply retireCulprits_ok
        with_reducible assumption
      have h19 : (Dev.ok x15) := by
        dsimp only [x15]
        apply sideUpd_ok
        apply sideUpd_ok
        with_reducible assumption
      have h20 : (Dev.ok x16) := by
        dsimp only [x16]
        apply ite_ok
        · apply scoreEvent_ok
          apply mslotUpd_ok
          with_reducible assumption
        · with_reducible assumption
      have h21 : (Dev.ok x17) := by
        dsimp only [x17]
        apply foldl_ok
        · intro y22 y23 y24
          apply arbReplay_ok
          with_reducible assumption
        · with_reducible assumption
      apply recovDone_ok
      apply slotGo_ok
      with_reducible assumption
    · apply reloadFailed_ok
      with_reducible assumption

theorem reloadRetry_ok (r : ReloadIn) (d : Dev) (hd : d.ok) : (reloadRetry r d).ok := by
  unfold reloadRetry
  split
  · apply shardReload_ok
    with_reducible assumption
  · with_reducible assumption

theorem retryNow_ok (rs : List ReloadIn) (d : Dev) (hd : d.ok) : (retryNow rs d).ok := by
  unfold retryNow
  apply forN_ok
  · intro y0 y1 y2
    apply reloadRetry_ok
    with_reducible assumption
  · with_reducible assumption

theorem adapterReload_ok (n : Nat) (s : Nat) (obj : Nat) (rs : List ReloadIn) (d : Dev) (hd : d.ok) : (adapterReload n s obj rs d).2.ok := by
  unfold adapterReload
  split
  · with_reducible assumption
  · lift_lets
    intro x0 x1 x2
    have h4 : (∀ z3, Dev.ok z3 → Dev.ok (x0 z3)) := by
      intro y5 y6
      dsimp only [x0]
      apply sideUpd_ok
      with_reducible assumption
    have h7 : (Dev.ok (x1).2) := by
      dsimp only [x1]
      apply foldl2_ok
      · intro y8 y9 y10
        split
        · rename_i w11 w12 w13 w14 w15 w16 w17 w18
          have h19 := snd_of_eq w18 (by
            apply ite2_ok
            · apply srcRead_ok
              with_reducible assumption
            · with_reducible assumption)
          with_reducible assumption
        · rename_i w20 w21 w22 w23 w24 w25 w26 w27 w28
          have h29 := snd_of_eq w28 (by
            apply ite2_ok
            · apply srcRead_ok
              with_reducible assumption
            · with_reducible assumption)
          with_reducible assumption
      · with_reducible assumption
    apply ite2_ok
    · dsimp only
      apply h4
      with_reducible assumption
    · apply ite2_ok
      · dsimp only
        apply objWrite_ok
        apply writeMem_ok
        with_reducible assumption
      · dsimp only
        apply h4
        with_reducible assumption

theorem holdClassify_ok (i : Nat) (rs : List ReloadIn) (d : Dev) (hd : d.ok) : (holdClassify i rs d).ok := by
  unfold holdClassify
  split
  · with_reducible assumption
  · split
    · with_reducible assumption
    · lift_lets
      intro x0 x1 x2
      have h3 : (Dev.ok x1) := by
        dsimp only [x1]
        apply scoreEvent_ok
        apply heldSet_ok
        with_reducible assumption
      have h4 : (Dev.ok (x2).2) := by
        dsimp only [x2]
        apply adapterReload_ok
        with_reducible assumption
      apply ite_ok
      · with_reducible assumption
      · split
        · apply mslotUpd_ok
          with_reducible assumption
        · apply ite_ok
          · apply arbReplay_ok
            with_reducible assumption
          · with_reducible assumption
        · apply arbReplay_ok
          with_reducible assumption
        · with_reducible assumption

theorem setMigrate_ok (left : Nat) (d : Dev) (hd : d.ok) : (setMigrate left d).ok := by
  unfold setMigrate
  apply sf_ok
  apply sf_ok
  with_reducible assumption

theorem arbRelocate_ok (k : Nat) (d : Dev) (hd : d.ok) : (arbRelocate k d).ok := by
  unfold arbRelocate
  lift_lets
  intro x0 x1 x2 x3 x4 x5 x6 x7 x8 x9 x10 x11 x12 x13
  have h14 : (Dev.ok x8) := by
    dsimp only [x8]
    apply setArb_ok
    apply engKill_ok
    with_reducible assumption
  have h15 : (Dev.ok x9) := by
    dsimp only [x9]
    apply healthWrite_ok
    apply scoreEvent_ok
    apply sf_ok
    with_reducible assumption
  have h16 : (Dev.ok x11) := by
    dsimp only [x11]
    apply foldl_ok
    · intro y17 y18 y19
      apply sf_ok
      with_reducible assumption
    · with_reducible assumption
  have h20 : (Dev.ok x12) := by
    dsimp only [x12]
    apply sf_ok
    with_reducible assumption
  have h21 : (Dev.ok x13) := by
    dsimp only [x13]
    apply foldl_ok
    · intro y22 y23 y24
      apply foldl_ok
      · intro y25 y26 y27
        split
        · apply heldSet_ok
          apply batchUpd_ok
          with_reducible assumption
        · apply holdEnter_ok
          apply batchUpd_ok
          with_reducible assumption
      · apply pipeUpd_ok
        with_reducible assumption
    · with_reducible assumption
  apply ite_ok
  · with_reducible assumption
  · clear_value x1 x2 x3 x10 x12 x13
    split
    · lift_lets
      intro x28 x29 x30 x31 x32 x33 x34
      have h35 : (Dev.ok x28) := by
        dsimp only [x28]
        apply relocRegs_ok
        with_reducible assumption
      have h36 : (Dev.ok x30) := by
        dsimp only [x30]
        apply hostPorts_ok
        apply mk_ok
        with_reducible assumption
      have h37 : (Dev.ok x31) := by
        dsimp only [x31]
        apply forN_ok
        · intro y38 y39 y40
          apply ite_ok
          · apply captureFit_ok
            with_reducible assumption
          · with_reducible assumption
        · with_reducible assumption
      have h41 : (Dev.ok x32) := by
        dsimp only [x32]
        split
        · apply constCopyOf_ok
          with_reducible assumption
        · with_reducible assumption
      have h42 : (Dev.ok x33) := by
        dsimp only [x33]
        apply foldl_ok
        · intro y43 y44 y45
          apply arbReplay_ok
          with_reducible assumption
        · with_reducible assumption
      have h46 : (Dev.ok x34) := by
        dsimp only [x34]
        apply ite_ok
        · apply setMigrate_ok
          with_reducible assumption
        · with_reducible assumption
      apply recovDone_ok
      with_reducible assumption
    · apply recovDone_ok
      apply scoreEvent_ok
      with_reducible assumption

theorem shardMove_ok (r : ReloadIn) (target : Option Nat) (again : Bool) (d : Dev) (hd : d.ok) : (shardMove r target again d).ok := by
  unfold shardMove
  lift_lets
  intro x0 x1
  split
  · with_reducible assumption
  · lift_lets
    intro x2
    split
    · rename_i w3 w4 w5 w6 w7 w8 w9
      have h10 := snd_of_eq w9 (by
        apply extRead_ok
        with_reducible assumption)
      lift_lets
      intro x11 x12
      apply ite_ok
      · apply ite_ok
        · apply shardReload_ok
          with_reducible assumption
        · with_reducible assumption
      · clear_value x0 x1 x2 x11 x12
        split
        · with_reducible assumption
        · apply ite_ok
          · with_reducible assumption
          · apply scoreEvent_ok
            apply ite_ok
            · apply shardCopy_ok
              apply setArb_ok
              with_reducible assumption
            · apply shardSwitch_ok
              with_reducible assumption
    · rename_i w13 w14 w15 w16 w17 w18 w19 w20
      have h21 := snd_of_eq w20 (by
        apply extRead_ok
        with_reducible assumption)
      apply ite_ok
      · apply shardReload_ok
        with_reducible assumption
      · with_reducible assumption

theorem shardMigrate_ok (r : ReloadIn) (d : Dev) (hd : d.ok) : (shardMigrate r d).ok := by
  unfold shardMigrate
  lift_lets
  intro x0 x1 x2
  clear_value x0 x1 x2
  split
  · with_reducible assumption
  · lift_lets
    intro x3
    have h4 : (Dev.ok x3) := by
      dsimp only [x3]
      split
      · apply shardMove_ok
        with_reducible assumption
      · with_reducible assumption
    apply ite_ok
    · with_reducible assumption
    · apply recovDone_ok
      apply setMigrate_ok
      with_reducible assumption

theorem stackDegraded_ok (k : Nat) (rs : List ReloadIn) (d : Dev) (hd : d.ok) : (stackDegraded k rs d).ok := by
  unfold stackDegraded
  lift_lets
  intro x0 x1 x2 x3 x4
  have h5 : (Dev.ok x2) := by
    dsimp only [x2]
    apply healthWrite_ok
    apply scoreEvent_ok
    apply sf_ok
    apply setArb_ok
    with_reducible assumption
  have h6 : (Dev.ok x4) := by
    dsimp only [x4]
    apply foldl_ok
    · intro y7 y8 y9
      apply shardMove_ok
      with_reducible assumption
    · with_reducible assumption
  apply ite_ok
  · with_reducible assumption
  · apply recovDone_ok
    with_reducible assumption

theorem stackDead_ok (k : Nat) (rs : List ReloadIn) (d : Dev) (hd : d.ok) : (stackDead k rs d).ok := by
  unfold stackDead
  lift_lets
  intro x0 x1
  have h2 : (Dev.ok x1) := by
    dsimp only [x1]
    apply healthWrite_ok
    apply scoreEvent_ok
    apply sf_ok
    apply sf_ok
    apply setArb_ok
    with_reducible assumption
  apply ite_ok
  · with_reducible assumption
  · apply foldl_ok
    · intro y3 y4 y5
      apply shardReload_ok
      with_reducible assumption
    · with_reducible assumption

theorem blockRetire_ok (k : Nat) (b : Nat) (rs : List ReloadIn) (d : Dev) (hd : d.ok) : (blockRetire k b rs d).ok := by
  unfold blockRetire
  lift_lets
  intro x0
  have h1 : (Dev.ok x0) := by
    dsimp only [x0]
    apply blockFailed_ok
    with_reducible assumption
  apply ite_ok
  · with_reducible assumption
  · apply foldl_ok
    · intro y2 y3 y4
      apply shardReload_ok
      with_reducible assumption
    · with_reducible assumption

theorem adapterMove_ok (a : Nat) (d : Dev) (hd : d.ok) : (adapterMove a d).ok := by
  unfold adapterMove
  split
  · with_reducible assumption
  · split
    · with_reducible assumption
    · lift_lets
      intro x0
      have h1 : (Dev.ok x0) := by
        dsimp only [x0]
        apply foldl_ok
        · intro y2 y3 y4
          apply tileCopy_ok
          with_reducible assumption
        · with_reducible assumption
      apply tmPut_ok
      with_reducible assumption

theorem ceRepeat_ok (st : Nat) (a : Nat) (rs : List ReloadIn) (d : Dev) (hd : d.ok) : (ceRepeat st a rs d).ok := by
  unfold ceRepeat
  lift_lets
  intro x0 x1 x2 x3 x4 x5 x6 x7
  have h8 : (Dev.ok x0) := by
    dsimp only [x0]
    apply scoreEvent_ok
    with_reducible assumption
  have h10 : (∀ z9, Dev.ok z9 → Dev.ok (x2 z9)) := by
    intro y11 y12
    dsimp only [x2]
    apply foldl_ok
    · intro y13 y14 y15
      apply shardReload_ok
      with_reducible assumption
    · with_reducible assumption
  have h16 : (Dev.ok x7) := by
    dsimp only [x7]
    apply ite_ok
    · apply scoreEvent_ok
      apply sf_ok
      apply setArb_ok
      with_reducible assumption
    · with_reducible assumption
  apply ite_ok
  · with_reducible assumption
  · apply ite_ok
    · split
      · apply h10
        apply blockFailed_ok
        with_reducible assumption
      · apply h10
        with_reducible assumption
    · apply ite_ok
      · apply adapterMove_ok
        apply h10
        with_reducible assumption
      · with_reducible assumption

theorem watchdogExpiry_ok (d : Dev) (hd : d.ok) : (watchdogExpiry d).ok := by
  unfold watchdogExpiry
  apply scoreEvent_ok
  apply sf_ok
  with_reducible assumption

theorem scorePost_ok (master : Nat) (d : Dev) (hd : d.ok) : (scorePost master d).ok := by
  unfold scorePost
  apply ite_ok
  · apply sf_ok
    with_reducible assumption
  · apply scoreEvent_ok
    with_reducible assumption

theorem scoreFlushTimeout_ok (d : Dev) (hd : d.ok) : (scoreFlushTimeout d).ok := by
  unfold scoreFlushTimeout
  apply ite_ok
  · apply scoreProgram_ok
    with_reducible assumption
  · with_reducible assumption

theorem scorePageStore_ok (p : ScorePage) (d : Dev) (hd : d.ok) : (scorePageStore p d).ok := by
  unfold scorePageStore
  apply rawReplace_ok
  with_reducible assumption

theorem scorePageDone_ok (d : Dev) (hd : d.ok) : (scorePageDone d).ok := by
  unfold scorePageDone
  split
  · exact hd
  · dsimp only
    apply scoreFill_ok
    split
    · exact scoreProgram_ok _ _ (mk_ok (scorePageStore_ok _ _ hd))
    · exact mk_ok (scorePageStore_ok _ _ hd)

theorem scoreErased_ok (d : Dev) (hd : d.ok) : (scoreErased d).ok := by
  unfold scoreErased
  split
  · exact hd
  · dsimp only
    apply scoreFill_ok
    split
    · exact scoreProgram_ok _ _ (mk_ok (rawReplace_ok _ _ _ hd))
    · exact mk_ok (rawReplace_ok _ _ _ hd)

theorem scoreScanDone_ok (d : Dev) (hd : d.ok) : (scoreScanDone d).ok := by
  unfold scoreScanDone
  split
  · exact hd
  · dsimp only
    generalize List.foldl _ none (List.range 16384) = best
    apply scoreFill_ok
    split
    · exact mk_ok (sf_ok _ _ _ _ hd)
    · split
      · exact mk_ok (sf_ok _ _ _ _ (sf_ok _ _ _ _ hd))
      · exact mk_ok (sf_ok _ _ _ _ (sf_ok _ _ _ _ hd))

theorem powerFail_ok (d : Dev) (hd : d.ok) : (powerFail d).ok := by
  unfold powerFail
  lift_lets
  intro x0 x1 x2 x3 x4 x5 x6 x7 x8 x9 x10 x11 x12 x13 x14 x15 x16 x17 x18 x19 x20 x21 x22
  have h23 : (Dev.ok x3) := by
    dsimp only [x3]
    apply foldl_ok
    · intro y24 y25 y26
      apply aryAbort_ok
      with_reducible assumption
    · with_reducible assumption
  have h27 : (Dev.ok x6) := by
    dsimp only [x6]
    split
    · apply mk_ok
      apply scorePageStore_ok
      with_reducible assumption
    · with_reducible assumption
  have h28 : (Dev.ok x7) := by
    dsimp only [x7]
    apply scoreProgram_ok
    with_reducible assumption
  have h29 : (Dev.ok x9) := by
    dsimp only [x9]
    apply ite_ok
    · with_reducible assumption
    · split
      · apply mk_ok
        apply scorePageStore_ok
        with_reducible assumption
      · with_reducible assumption
  have h30 : (Dev.ok x17) := by
    dsimp only [x17]
    apply ite_ok
    · with_reducible assumption
    · apply cntAdd_ok
      with_reducible assumption
  have h31 : (Dev.ok x20) := by
    dsimp only [x20]
    apply foldl_ok
    · intro y32 y33 y34
      apply ite_ok
      · split
        · apply mk_ok
          apply scorePageStore_ok
          apply scoreProgram_ok
          apply sf_ok
          apply mk_ok
          with_reducible assumption
        · apply scoreProgram_ok
          apply sf_ok
          apply mk_ok
          with_reducible assumption
      · apply sf_ok
        apply mk_ok
        with_reducible assumption
    · apply mk_ok
      with_reducible assumption
  have h35 : (Dev.ok x21) := by
    dsimp only [x21]
    apply scoreProgram_ok
    with_reducible assumption
  split
  · lift_lets
    intro x36
    have h37 : (Dev.ok x36) := by
      dsimp only [x36]
      apply scorePageStore_ok
      with_reducible assumption
    apply mk_ok
    with_reducible assumption
  · with_reducible assumption

end Sys2Proof.Machine
end

