-- ==== Sys2Proof/Laws/KeepsBoot.lean ====
section
/-! SUPPORT. Every operation of Machine/Boot.lean keeps the canonical form of the sparse stores
(`Dev.ok`): memory, error marks, poison marks and registers. -/

namespace Sys2Proof.Machine

theorem setBoot_ok (b : Boot) (d : Dev) (hd : d.ok) : (setBoot b d).ok := by
  unfold setBoot
  apply mk_ok
  with_reducible assumption

theorem setPmu_ok (p : Pmu) (d : Dev) (hd : d.ok) : (setPmu p d).ok := by
  unfold setPmu
  apply mk_ok
  with_reducible assumption

theorem domsOn_ok (mask : Nat) (d : Dev) (hd : d.ok) : (domsOn mask d).ok := by
  unfold domsOn
  apply wr_ok
  with_reducible assumption

theorem domsOff_ok (mask : Nat) (d : Dev) (hd : d.ok) : (domsOff mask d).ok := by
  unfold domsOff
  apply wr_ok
  with_reducible assumption

theorem refStop_ok (d : Dev) (hd : d.ok) : (refStop d).ok := by
  unfold refStop
  lift_lets
  intro x0
  apply ite_ok
  · apply setPmu_ok
    apply wr_ok
    apply wr_ok
    with_reducible assumption
  · with_reducible assumption

theorem calStart_ok (d : Dev) (hd : d.ok) : (calStart d).ok := by
  unfold calStart
  apply ite_ok
  · apply sf_ok
    with_reducible assumption
  · with_reducible assumption

theorem refStart_ok (d : Dev) (hd : d.ok) : (refStart d).ok := by
  unfold refStart
  lift_lets
  intro x0 x1 x2 x3 x4 x5 x6 x7 x8 x9 x10 x11 x12 x13
  have h14 : (Dev.ok x0) := by
    dsimp only [x0]
    apply wr_ok
    with_reducible assumption
  have h15 : (Dev.ok x13) := by
    dsimp only [x13]
    apply setPmu_ok
    apply sf_ok
    apply sf_ok
    apply wr_ok
    with_reducible assumption
  apply ite_ok
  · with_reducible assumption
  · apply whenB_ok
    · intro y16 y17
      apply calStart_ok
      with_reducible assumption
    · with_reducible assumption

theorem scoreSettle_ok (d : Dev) (hd : d.ok) : (scoreSettle d).ok := by
  unfold scoreSettle
  lift_lets
  intro x0 x1
  have h2 : (Dev.ok x0) := by
    dsimp only [x0]
    split
    · apply scorePageDone_ok
      with_reducible assumption
    · with_reducible assumption
  have h3 : (Dev.ok x1) := by
    dsimp only [x1]
    apply scoreProgram_ok
    with_reducible assumption
  split
  · apply scorePageDone_ok
    with_reducible assumption
  · with_reducible assumption

theorem arrayStop_ok (d : Dev) (hd : d.ok) : (arrayStop d).ok := by
  unfold arrayStop
  lift_lets
  intro x0 x1 x2
  have h3 : (Dev.ok x2) := by
    dsimp only [x2]
    apply foldl_ok
    · intro y4 y5 y6
      apply aryAbort_ok
      with_reducible assumption
    · with_reducible assumption
  apply foldl_ok
  · intro y7 y8 y9
    apply scoreQueue_ok
    with_reducible assumption
  · with_reducible assumption

theorem fuseCut_ok (d : Dev) (hd : d.ok) : (fuseCut d).ok := by
  unfold fuseCut
  split
  · apply ite_ok
    · apply sf_ok
      with_reducible assumption
    · with_reducible assumption
  · with_reducible assumption

theorem sysCleared_ok (d : Dev) (hd : d.ok) : (sysCleared d).ok :=
  ⟨filter_wf _ _ hd.1, rising_filter _ _ hd.2.1, rising_filter _ _ hd.2.2.1, rising_filter _ _ hd.2.2.2⟩

theorem resetBegin_ok (type : Nat) (d : Dev) (hd : d.ok) : (resetBegin type d).ok := by
  unfold resetBegin
  lift_lets
  intro x0 x1 x2 x3
  have h4 : (Dev.ok x0) := by
    dsimp only [x0]
    apply ite_ok
    · apply scoreSettle_ok
      apply arrayStop_ok
      with_reducible assumption
    · apply foldl_ok
      · intro y5 y6 y7
        apply aryAbort_ok
        with_reducible assumption
      · with_reducible assumption
  have h8 : (Dev.ok x1) := by
    dsimp only [x1]
    apply sysCleared_ok
    apply fuseCut_ok
    apply refStop_ok
    with_reducible assumption
  have h9 : (Dev.ok x2) := by
    dsimp only [x2]
    apply sf_ok
    apply sf_ok
    apply sf_ok
    apply sf_ok
    apply wr_ok
    with_reducible assumption
  apply pinForceAll_ok
  apply setBoot_ok
  with_reducible assumption

theorem powerOn_ok (d : Dev) (hd : d.ok) : (powerOn d).ok := by
  have h := resetBegin_ok 0 d hd
  unfold powerOn
  apply pinForceAll_ok
  apply sf_ok
  apply sf_ok
  exact ⟨h.1, h.2.1, h.2.2.1, rising_filter _ _ h.2.2.2⟩

theorem objLoad_ok (type : Nat) (max : Nat) (a : Nat) (d : Dev) (hd : d.ok) : (objLoad type max a d).2.ok := by
  unfold objLoad
  split
  · rename_i w0 w1 w2 w3
    have h4 := snd_of_eq w3 (by
      apply masterRead_ok
      with_reducible assumption)
    with_reducible assumption
  · rename_i w5 w6 w7 w8
    have h9 := snd_of_eq w8 (by
      apply masterRead_ok
      with_reducible assumption)
    with_reducible assumption
  · rename_i w10 w11 w12 w13
    have h14 := snd_of_eq w13 (by
      apply masterRead_ok
      with_reducible assumption)
    with_reducible assumption

theorem ddrTrain_ok (d : Dev) (hd : d.ok) : (ddrTrain d).ok := by
  unfold ddrTrain
  lift_lets
  intro x0 x1 x2 x3
  have h4 : (Dev.ok x2) := by
    dsimp only [x2]
    apply sf_ok
    with_reducible assumption
  apply ite_ok
  · with_reducible assumption
  · apply ite_ok
    · apply blkCause_ok
      apply sf_ok
      with_reducible assumption
    · apply setBoot_ok
      with_reducible assumption

theorem coresRelease_ok (d : Dev) (hd : d.ok) : (coresRelease d).ok := by
  unfold coresRelease
  apply ite_ok
  · apply sf_ok
    apply sf_ok
    apply wr_ok
    with_reducible assumption
  · with_reducible assumption

theorem ddrFail_ok (mask : Nat) (d : Dev) (hd : d.ok) : (ddrFail mask d).ok := by
  unfold ddrFail
  lift_lets
  intro x0
  apply coresRelease_ok
  apply blkCause_ok
  apply sf_ok
  apply setBoot_ok
  with_reducible assumption

theorem ddrTrainDone_ok (mask : Nat) (d : Dev) (hd : d.ok) : (ddrTrainDone mask d).ok := by
  unfold ddrTrainDone
  lift_lets
  intro x0
  apply ite_ok
  · with_reducible assumption
  · apply ite_ok
    · apply ddrFail_ok
      with_reducible assumption
    · apply coresRelease_ok
      apply blkCause_ok
      apply sf_ok
      apply sf_ok
      apply rawClear_ok
      apply setBoot_ok
      with_reducible assumption

theorem ddrTimeout_ok (mask : Nat) (d : Dev) (hd : d.ok) : (ddrTimeout mask d).ok := by
  unfold ddrTimeout
  apply ite_ok
  · apply ddrFail_ok
    with_reducible assumption
  · with_reducible assumption

theorem loadingDrop_ok (n : Nat) (s : Nat) (d : Dev) (hd : d.ok) : (loadingDrop n s d).ok := by
  unfold loadingDrop
  lift_lets
  intro x0 x1 x2 x3 x4 x5
  have h6 : (Dev.ok x2) := by
    dsimp only [x2]
    apply setLe_ok
    with_reducible assumption
  have h7 : (Dev.ok x5) := by
    dsimp only [x5]
    apply setLe_ok
    with_reducible assumption
  apply freeExts_ok
  apply sideUpd_ok
  with_reducible assumption

theorem sideRestore_ok (n : Nat) (s : Nat) (d : Dev) (hd : d.ok) : (sideRestore n s d).ok := by
  unfold sideRestore
  lift_lets
  intro x0 x1
  split
  · apply loadingDrop_ok
    with_reducible assumption
  · apply sideRelease_ok
    with_reducible assumption
  · apply sideUpd_ok
    with_reducible assumption
  · apply sideUpd_ok
    with_reducible assumption
  · with_reducible assumption

theorem dirRestore_ok (d : Dev) (hd : d.ok) : (dirRestore d).ok := by
  unfold dirRestore
  split
  · with_reducible assumption
  · lift_lets
    intro x0 x1 x2 x3 x4 x5 x6 x7
    have h8 : (Dev.ok x3) := by
      dsimp only [x3]
      apply setBoot_ok
      with_reducible assumption
    have h9 : (Dev.ok x6) := by
      dsimp only [x6]
      apply mk_ok
      with_reducible assumption
    have h10 : (Dev.ok x7) := by
      dsimp only [x7]
      apply forN_ok
      · intro y11 y12 y13
        apply sideRestore_ok
        with_reducible assumption
      · with_reducible assumption
    apply eraseKick_ok
    apply forN_ok
    · intro y14 y15 y16
      apply slotGo_ok
      with_reducible assumption
    · with_reducible assumption

theorem healthRestore_ok (d : Dev) (hd : d.ok) : (healthRestore d).ok := by
  unfold healthRestore
  apply forN_ok
  · intro y0 y1 y2
    lift_lets
    intro x3 x4 x5 x6 x7
    have h8 : (Dev.ok x6) := by
      dsimp only [x6]
      apply ite_ok
      · apply engDrained_ok
        apply engDrain_ok
        apply sf_ok
        with_reducible assumption
      · with_reducible assumption
    have h9 : (Dev.ok x7) := by
      dsimp only [x7]
      apply whenB_ok
      · intro y10 y11
        apply scoreEvent_ok
        with_reducible assumption
      · with_reducible assumption
    apply sf_ok
    apply sf_ok
    with_reducible assumption
  · with_reducible assumption

theorem bootRecApply_ok (d : Dev) (hd : d.ok) : (bootRecApply d).ok := by
  unfold bootRecApply
  split
  · apply sf_ok
    with_reducible assumption
  · lift_lets
    intro x0
    have h1 : (Dev.ok x0) := by
      dsimp only [x0]
      apply sf_ok
      apply sf_ok
      with_reducible assumption
    apply ite_ok
    · apply sf_ok
      apply sf_ok
      apply sf_ok
      with_reducible assumption
    · with_reducible assumption

theorem loaderRun_ok (b : List Byte) (d : Dev) (hd : d.ok) : (loaderRun b d).ok := by
  unfold loaderRun
  lift_lets
  intro x0
  apply coresRelease_ok
  apply sf_ok
  apply sf_ok
  apply writeMem_ok
  apply mk_ok
  with_reducible assumption

theorem firmwareRun_ok (b : List Byte) (d : Dev) (hd : d.ok) : (firmwareRun b d).ok := by
  unfold firmwareRun
  lift_lets
  intro x0 x1 x2 x3 x4 x5 x6 x7 x8 x9 x10
  have h11 : (Dev.ok x1) := by
    dsimp only [x1]
    apply writeMem_ok
    apply mk_ok
    with_reducible assumption
  have h12 : (Dev.ok x2) := by
    dsimp only [x2]
    apply sf_ok
    apply sf_ok
    apply sf_ok
    with_reducible assumption
  have h13 : (Dev.ok x3) := by
    dsimp only [x3]
    apply icAppOn_ok
    apply domsOn_ok
    with_reducible assumption
  have h14 : (Dev.ok x5) := by
    dsimp only [x5]
    apply setBoot_ok
    with_reducible assumption
  have h15 : (Dev.ok x7) := by
    dsimp only [x7]
    apply ddrTrain_ok
    apply sf_ok
    with_reducible assumption
  have h16 : (Dev.ok x8) := by
    dsimp only [x8]
    apply bootRecApply_ok
    apply dirRestore_ok
    apply healthRestore_ok
    with_reducible assumption
  have h17 : (Dev.ok x9) := by
    dsimp only [x9]
    apply ite_ok
    · apply fpRecompute_ok
      with_reducible assumption
    · with_reducible assumption
  have h18 : (Dev.ok x10) := by
    dsimp only [x10]
    apply scoreEvent_ok
    with_reducible assumption
  split
  · rename_i w19 w20 w21 w22
    have h23 := snd_of_eq w22 (by
      apply objLoad_ok
      with_reducible assumption)
    apply loaderRun_ok
    apply sf_ok
    with_reducible assumption
  · rename_i w24 w25 w26 w27 w28 w29
    have h30 := snd_of_eq w29 (by
      apply objLoad_ok
      with_reducible assumption)
    apply sf_ok
    apply sf_ok
    with_reducible assumption

theorem bootRun_ok (d : Dev) (hd : d.ok) : (bootRun d).ok := by
  unfold bootRun
  lift_lets
  intro x0 x1
  have h2 : (Dev.ok x0) := by
    dsimp only [x0]
    apply refStart_ok
    apply mk_ok
    with_reducible assumption
  have h3 : (Dev.ok x1) := by
    dsimp only [x1]
    apply stackLoad_ok
    apply stackLoad_ok
    apply domsOn_ok
    with_reducible assumption
  split
  · rename_i w4 w5 w6 w7
    have h8 := snd_of_eq w7 (by
      apply objLoad_ok
      with_reducible assumption)
    apply firmwareRun_ok
    with_reducible assumption
  · rename_i w9 w10 w11 w12 w13 w14
    have h15 := snd_of_eq w14 (by
      apply objLoad_ok
      with_reducible assumption)
    lift_lets
    intro x16
    have h17 : (Dev.ok x16) := by
      dsimp only [x16]
      apply sf_ok
      with_reducible assumption
    split
    · rename_i w18 w19 w20 w21
      have h22 := snd_of_eq w21 (by
        apply objLoad_ok
        with_reducible assumption)
      apply firmwareRun_ok
      apply sf_ok
      with_reducible assumption
    · rename_i w23 w24 w25 w26 w27 w28
      have h29 := snd_of_eq w28 (by
        apply objLoad_ok
        with_reducible assumption)
      apply sf_ok
      apply sf_ok
      with_reducible assumption

theorem resetRelease_ok (strap : Straps) (d : Dev) (hd : d.ok) : (resetRelease strap d).ok := by
  unfold resetRelease
  lift_lets
  intro x0 x1 x2
  have h3 : (Dev.ok x2) := by
    dsimp only [x2]
    apply mk_ok
    with_reducible assumption
  apply ite_ok
  · with_reducible assumption
  · apply ite_ok
    · apply setBoot_ok
      with_reducible assumption
    · apply bootRun_ok
      apply sf_ok
      with_reducible assumption

theorem ddrInitDone_ok (rs : List ReloadIn) (d : Dev) (hd : d.ok) : (ddrInitDone rs d).ok := by
  unfold ddrInitDone
  lift_lets
  intro x0 x1 x2 x3
  have h4 : (Dev.ok x2) := by
    dsimp only [x2]
    apply blkCause_ok
    apply sf_ok
    apply sf_ok
    apply setBoot_ok
    with_reducible assumption
  have h5 : (Dev.ok x3) := by
    dsimp only [x3]
    apply forN_ok
    · intro y6 y7 y8
      apply foldl_ok
      · intro y9 y10 y11
        apply ite_ok
        · split
          · rename_i w12 w13 w14
            have h15 := snd_of_eq w14 (by
              apply adapterReload_ok
              with_reducible assumption)
            apply sideUpd_ok
            with_reducible assumption
          · rename_i w16 w17 w18
            have h19 := snd_of_eq w18 (by
              apply adapterReload_ok
              with_reducible assumption)
            with_reducible assumption
        · with_reducible assumption
      · with_reducible assumption
    · with_reducible assumption
  apply ite_ok
  · with_reducible assumption
  · split
    · lift_lets
      intro x20
      apply ite_ok
      · with_reducible assumption
      · split
        · rename_i w21 w22 w23 w24 w25 w26 w27 w28 w29 w30
          have h31 := snd_of_eq w30 (by
            apply masterRead_ok
            with_reducible assumption)
          lift_lets
          intro x32
          apply imgGo_ok
          apply sf_ok
          apply sf_ok
          apply setBoot_ok
          with_reducible assumption
        · rename_i w33 w34 w35 w36 w37 w38 w39 w40 w41 w42
          have h43 := snd_of_eq w42 (by
            apply masterRead_ok
            with_reducible assumption)
          with_reducible assumption
    · with_reducible assumption

theorem autoActivate_ok (d : Dev) (hd : d.ok) : (autoActivate d).ok := by
  unfold autoActivate
  lift_lets
  intro x0 x1
  have h2 : (Dev.ok x1) := by
    dsimp only [x1]
    apply setBoot_ok
    with_reducible assumption
  apply ite_ok
  · apply ite_ok
    · apply actGo_ok
      with_reducible assumption
    · with_reducible assumption
  · with_reducible assumption

theorem pinReset_ok (cool : Bool) (d : Dev) (hd : d.ok) : (pinReset cool d).ok := by
  unfold pinReset
  lift_lets
  intro x0 x1
  have h2 : (Dev.ok x1) := by
    dsimp only [x1]
    apply setBoot_ok
    with_reducible assumption
  apply ite_ok
  · apply ite_ok
    · apply emit_ok
      apply resetBegin_ok
      with_reducible assumption
    · with_reducible assumption
  · apply resetBegin_ok
    with_reducible assumption

theorem softReset_ok (code : Nat) (d : Dev) (hd : d.ok) : (softReset code d).ok := by
  unfold softReset
  apply ite_ok
  · apply resetRelease_ok
    apply resetBegin_ok
    with_reducible assumption
  · apply sf_ok
    with_reducible assumption

theorem supplyReset_ok (d : Dev) (hd : d.ok) : (supplyReset d).ok := by
  unfold supplyReset
  lift_lets
  intro x0 x1
  apply ite_ok
  · apply resetBegin_ok
    apply setBoot_ok
    apply mk_ok
    with_reducible assumption
  · with_reducible assumption

theorem supplyLost_ok (vhold : Bool) (d : Dev) (hd : d.ok) : (supplyLost vhold d).ok := by
  unfold supplyLost
  lift_lets
  intro x0 x1 x2 x3 x4
  have h5 : (Dev.ok x0) := by
    dsimp only [x0]
    apply foldl_ok
    · intro y6 y7 y8
      apply aryAbort_ok
      with_reducible assumption
    · with_reducible assumption
  have h9 : (Dev.ok x2) := by
    dsimp only [x2]
    apply ite_ok
    · apply powerFail_ok
      with_reducible assumption
    · apply mk_ok
      with_reducible assumption
  have h10 : (Dev.ok x3) := by
    dsimp only [x3]
    apply wr_ok
    apply resetBegin_ok
    with_reducible assumption
  apply setBoot_ok
  with_reducible assumption

theorem thermalTrip_ok (vhold : Bool) (d : Dev) (hd : d.ok) : (thermalTrip vhold d).ok := by
  unfold thermalTrip
  lift_lets
  intro x0 x1
  have h2 : (Dev.ok x0) := by
    dsimp only [x0]
    apply supplyLost_ok
    apply emit_ok
    with_reducible assumption
  apply setBoot_ok
  with_reducible assumption

theorem jtagExtest_ok (on : Bool) (d : Dev) (hd : d.ok) : (jtagExtest on d).ok := by
  unfold jtagExtest
  lift_lets
  intro x0 x1
  apply ite_ok
  · apply setBoot_ok
    apply resetBegin_ok
    with_reducible assumption
  · apply ite_ok
    · apply resetBegin_ok
      apply setBoot_ok
      with_reducible assumption
    · with_reducible assumption

theorem keyRecover_ok (type : Nat) (d : Dev) (hd : d.ok) : (keyRecover type d).ok := by
  unfold keyRecover
  apply ite_ok
  · with_reducible assumption
  · apply ite_ok
    · split
      · rename_i w0 w1 w2 w3
        have h4 := snd_of_eq w3 (by
          apply objLoad_ok
          with_reducible assumption)
        apply firmwareRun_ok
        apply sf_ok
        with_reducible assumption
      · rename_i w5 w6 w7 w8 w9 w10
        have h11 := snd_of_eq w10 (by
          apply objLoad_ok
          with_reducible assumption)
        apply sf_ok
        with_reducible assumption
    · apply ite_ok
      · split
        · rename_i w12 w13 w14 w15
          have h16 := snd_of_eq w15 (by
            apply objLoad_ok
            with_reducible assumption)
          apply loaderRun_ok
          apply sf_ok
          with_reducible assumption
        · rename_i w17 w18 w19 w20 w21 w22
          have h23 := snd_of_eq w22 (by
            apply objLoad_ok
            with_reducible assumption)
          apply sf_ok
          with_reducible assumption
      · with_reducible assumption

theorem bootCfg_ok (base : Nat) (compat : Nat) (d : Dev) (hd : d.ok) : (bootCfg base compat d).ok := by
  unfold bootCfg
  lift_lets
  intro x0 x1 x2
  have h3 : (Dev.ok x0) := by
    dsimp only [x0]
    apply sf_ok
    apply sf_ok
    with_reducible assumption
  apply ite_ok
  · apply sf_ok
    apply setBoot_ok
    with_reducible assumption
  · apply sf_ok
    with_reducible assumption

end Sys2Proof.Machine
end

