-- ==== Sys2Proof/Laws/KeepsKeys.lean ====
section
/-! SUPPORT. Every operation of Machine/Keys.lean keeps the canonical form of the sparse stores
(`Dev.ok`): memory, error marks, poison marks and registers. -/

namespace Sys2Proof.Machine

theorem setKeys_ok (k : Keys) (d : Dev) (hd : d.ok) : (setKeys k d).ok := by
  unfold setKeys
  apply mk_ok
  with_reducible assumption

theorem keyBusy_ok (d : Dev) (hd : d.ok) : (keyBusy d).ok := by
  unfold keyBusy
  apply sf_ok
  with_reducible assumption

theorem keyEnd_ok (code : Nat) (d : Dev) (hd : d.ok) : (keyEnd code d).ok := by
  unfold keyEnd
  apply keyBusy_ok
  apply sf_ok
  with_reducible assumption

theorem fuseGo_ok (f : Dev → Dev) (d : Dev) (hf : ∀ v0, v0.ok → (f v0).ok) (hd : d.ok) : (fuseGo f d).ok := by
  unfold fuseGo
  apply ite_ok
  · apply sf_ok
    with_reducible assumption
  · apply hf
    with_reducible assumption

theorem fuseStart_ok (kind : Nat) (arg : Nat) (d : Dev) (hd : d.ok) : (fuseStart kind arg d).ok := by
  unfold fuseStart
  lift_lets
  intro x0
  apply keyBusy_ok
  apply setKeys_ok
  with_reducible assumption

theorem fuseProg_ok (slot : Nat) (a1 : Dev) (ha1 : a1.ok) : (fuseProg slot a1).ok := by
  unfold fuseProg
  apply fuseGo_ok
  · intro y0 y1
    lift_lets
    intro x2 x3 x4
    have h5 : (Dev.ok x2) := by
      dsimp only [x2]
      apply sf_ok
      with_reducible assumption
    apply ite_ok
    · apply keyEnd_ok
      with_reducible assumption
    · apply fuseStart_ok
      apply setKeys_ok
      with_reducible assumption
  · with_reducible assumption

theorem fuseRevoke_ok (a0 : Dev) (ha0 : a0.ok) : (fuseRevoke a0).ok := by
  unfold fuseRevoke
  apply fuseGo_ok
  · intro y0 y1
    split
    · rename_i w2 w3 w4 w5
      have h6 := snd_of_eq w5 (by
        apply masterRead_ok
        with_reducible assumption)
      apply keyEnd_ok
      with_reducible assumption
    · rename_i w7 w8 w9 w10
      have h11 := snd_of_eq w10 (by
        apply masterRead_ok
        with_reducible assumption)
      apply keyEnd_ok
      with_reducible assumption
    · rename_i w12 w13 w14 w15
      have h16 := snd_of_eq w15 (by
        apply masterRead_ok
        with_reducible assumption)
      lift_lets
      intro x17
      apply ite_ok
      · apply fuseStart_ok
        with_reducible assumption
      · apply keyEnd_ok
        with_reducible assumption
  · with_reducible assumption

theorem fuseRaise_ok (level : Nat) (a1 : Dev) (ha1 : a1.ok) : (fuseRaise level a1).ok := by
  unfold fuseRaise
  apply fuseGo_ok
  · intro y0 y1
    lift_lets
    intro x2
    have h3 : (Dev.ok x2) := by
      dsimp only [x2]
      apply sf_ok
      with_reducible assumption
    apply ite_ok
    · apply keyEnd_ok
      with_reducible assumption
    · apply fuseStart_ok
      with_reducible assumption
  · with_reducible assumption

theorem fuseDone_ok (ok : Bool) (d : Dev) (hd : d.ok) : (fuseDone ok d).ok := by
  unfold fuseDone
  split
  · with_reducible assumption
  · lift_lets
    intro x0 x1 x2
    have h3 : (Dev.ok x1) := by
      dsimp only [x1]
      apply setKeys_ok
      with_reducible assumption
    have h4 : (Dev.ok x2) := by
      dsimp only [x2]
      split
      · apply sf_ok
        with_reducible assumption
      · apply sf_ok
        with_reducible assumption
      · apply sf_ok
        with_reducible assumption
    apply ite_ok
    · apply keyEnd_ok
      with_reducible assumption
    · apply keyEnd_ok
      apply ite_ok
      · apply sf_ok
        with_reducible assumption
      · with_reducible assumption

theorem attGo_ok (d : Dev) (hd : d.ok) : (attGo d).ok := by
  unfold attGo
  lift_lets
  intro x0
  apply ite_ok
  · apply sf_ok
    with_reducible assumption
  · apply ite_ok
    · apply keyBusy_ok
      apply setKeys_ok
      with_reducible assumption
    · apply keyEnd_ok
      with_reducible assumption

theorem attDone_ok (d : Dev) (hd : d.ok) : (attDone d).ok := by
  unfold attDone
  split
  · with_reducible assumption
  · lift_lets
    intro x0 x1
    have h2 : (Dev.ok x1) := by
      dsimp only [x1]
      apply setKeys_ok
      with_reducible assumption
    split
    · rename_i w3 w4 w5 w6 w7 w8
      have h9 := snd_of_eq w8 (by
        apply masterWrite_ok
        with_reducible assumption)
      apply keyEnd_ok
      with_reducible assumption
    · rename_i w10 w11 w12 w13 w14 w15
      have h16 := snd_of_eq w15 (by
        apply masterWrite_ok
        with_reducible assumption)
      apply keyEnd_ok
      with_reducible assumption

end Sys2Proof.Machine
end

