-- ==== Sys2Proof/Laws/KeepsPower.lean ====
section
/-! SUPPORT. Every operation of Machine/Power.lean keeps the canonical form of the sparse stores
(`Dev.ok`): memory, error marks, poison marks and registers. -/

namespace Sys2Proof.Machine

theorem pmuEntry_ok (target : Nat) (d : Dev) (hd : d.ok) : (pmuEntry target d).ok := by
  unfold pmuEntry
  lift_lets
  intro x0 x1 x2 x3 x4 x5
  have h6 : (Dev.ok x1) := by
    dsimp only [x1]
    apply forN_ok
    · intro y7 y8 y9
      apply ite_ok
      · apply portUpd_ok
        with_reducible assumption
      · with_reducible assumption
    · with_reducible assumption
  have h10 : (Dev.ok x3) := by
    dsimp only [x3]
    apply setPmu_ok
    with_reducible assumption
  have h11 : (Dev.ok x5) := by
    dsimp only [x5]
    apply mk_ok
    with_reducible assumption
  apply ite_ok
  · apply raise_ok
    apply pmuCause_ok
    apply sf_ok
    with_reducible assumption
  · apply wr_ok
    apply wr_ok
    apply sf_ok
    apply sf_ok
    apply sf_ok
    with_reducible assumption

theorem napOff_ok (d : Dev) (hd : d.ok) : (napOff d).ok := by
  unfold napOff
  lift_lets
  intro x0 x1 x2 x3 x4 x5 x6
  have h7 : (Dev.ok x0) := by
    dsimp only [x0]
    apply captureAllT0_ok
    with_reducible assumption
  have h8 : (Dev.ok x1) := by
    dsimp only [x1]
    apply forN_ok
    · intro y9 y10 y11
      apply forEach_ok
      · intro y12 y13 y14
        apply busFail_ok
        apply sf_ok
        with_reducible assumption
      · apply aryUpd_ok
        apply stagingLost_ok
        apply engKeep_ok
        with_reducible assumption
    · with_reducible assumption
  have h15 : (Dev.ok x2) := by
    dsimp only [x2]
    apply forN_ok
    · intro y16 y17 y18
      apply ite_ok
      · apply sf_ok
        with_reducible assumption
      · with_reducible assumption
    · with_reducible assumption
  have h19 : (Dev.ok x5) := by
    dsimp only [x5]
    apply mk_ok
    with_reducible assumption
  apply prodCheckAll_ok
  apply rawClear_ok
  apply domsOff_ok
  apply setBoot_ok
  with_reducible assumption

theorem sleepOff_ok (d : Dev) (hd : d.ok) : (sleepOff d).ok := by
  unfold sleepOff
  lift_lets
  intro x0 x1 x2
  have h3 : (Dev.ok x0) := by
    dsimp only [x0]
    apply napOff_ok
    with_reducible assumption
  have h4 : (Dev.ok x1) := by
    dsimp only [x1]
    apply forN_ok
    · intro y5 y6 y7
      apply sf_ok
      apply sf_ok
      apply setPortState_ok
      apply ite_ok
      · apply portPut_ok
        with_reducible assumption
      · with_reducible assumption
    · with_reducible assumption
  have h8 : (Dev.ok x2) := by
    dsimp only [x2]
    apply sf_ok
    apply sf_ok
    with_reducible assumption
  apply prodCheckAll_ok
  apply pinForceAll_ok
  apply refStop_ok
  apply domsOff_ok
  with_reducible assumption

theorem pmuCommit_ok (d : Dev) (hd : d.ok) : (pmuCommit d).ok := by
  unfold pmuCommit
  lift_lets
  intro x0 x1 x2 x3 x4
  have h5 : (Dev.ok x1) := by
    dsimp only [x1]
    apply ite_ok
    · with_reducible assumption
    · apply ite_ok
      · apply napOff_ok
        with_reducible assumption
      · apply ite_ok
        · apply sleepOff_ok
          with_reducible assumption
        · apply domsOff_ok
          apply sleepOff_ok
          with_reducible assumption
  have h6 : (Dev.ok x4) := by
    dsimp only [x4]
    apply setPmu_ok
    with_reducible assumption
  apply whenB_ok
  · intro y7 y8
    apply raise_ok
    with_reducible assumption
  · apply sf_ok
    apply sf_ok
    apply sf_ok
    apply sf_ok
    with_reducible assumption

theorem pmuAdvance_ok (d : Dev) (hd : d.ok) : (pmuAdvance d).ok := by
  unfold pmuAdvance
  lift_lets
  intro x0
  apply ite_ok
  · with_reducible assumption
  · apply ite_ok
    · apply sf_ok
      apply setPmu_ok
      with_reducible assumption
    · apply pmuCommit_ok
      with_reducible assumption

theorem engineReply_ok (k : Nat) (d : Dev) (hd : d.ok) : (engineReply k d).2.ok := by
  unfold engineReply
  lift_lets
  intro x0 x1 x2
  apply ite2_ok
  · with_reducible assumption
  · apply ite2_ok
    · with_reducible assumption
    · apply ite2_ok
      · with_reducible assumption
      · apply ite2_ok
        · with_reducible assumption
        · dsimp only
          apply setPmu_ok
          apply engDrained_ok
          apply setEngState_ok
          with_reducible assumption

theorem portReply_ok (n : Nat) (d : Dev) (hd : d.ok) : (portReply n d).2.ok := by
  unfold portReply
  lift_lets
  intro x0 x1 x2 x3
  have h4 : (Dev.ok x2) := by
    dsimp only [x2]
    apply portUpd_ok
    with_reducible assumption
  have h5 : (Dev.ok (x3).2) := by
    dsimp only [x3]
    apply slotMake_ok
    with_reducible assumption
  apply ite2_ok
  · with_reducible assumption
  · apply ite2_ok
    · with_reducible assumption
    · apply ite2_ok
      · with_reducible assumption
      · dsimp only
        apply flitSeq_ok
        with_reducible assumption

theorem icReply_ok (d : Dev) (hd : d.ok) : (icReply d).2.ok := by
  unfold icReply
  lift_lets
  intro x0 x1
  apply ite2_ok
  · dsimp only
    apply foldl_ok
    · intro y2 y3 y4
      apply ringSignal_ok
      with_reducible assumption
    · with_reducible assumption
  · with_reducible assumption

theorem arbReply_ok (d : Dev) (hd : d.ok) : (arbReply d).2.ok := by
  unfold arbReply
  lift_lets
  intro x0
  have h1 : (Dev.ok x0) := by
    dsimp only [x0]
    apply scoreProgram_ok
    apply healthWrite_ok
    with_reducible assumption
  apply ite2_ok
  · with_reducible assumption
  · apply ite2_ok
    · with_reducible assumption
    · with_reducible assumption

theorem framesDrop_ok (d : Dev) (hd : d.ok) : (framesDrop d).ok := by
  unfold framesDrop
  lift_lets
  intro x0 x1
  have h2 : (Dev.ok x0) := by
    dsimp only [x0]
    apply foldl_ok
    · intro y3 y4 y5
      apply blkCause_ok
      apply blkCount_ok
      with_reducible assumption
    · with_reducible assumption
  apply mk_ok
  with_reducible assumption

theorem agentReply_ok (a : Nat) (busy : Bool) (d : Dev) (hd : d.ok) : (agentReply a busy d).2.ok := by
  unfold agentReply
  lift_lets
  intro x0
  apply ite2_ok
  · apply engineReply_ok
    with_reducible assumption
  · apply ite2_ok
    · with_reducible assumption
    · apply ite2_ok
      · with_reducible assumption
      · apply ite2_ok
        · with_reducible assumption
        · apply ite2_ok
          · with_reducible assumption
          · apply ite2_ok
            · with_reducible assumption
            · apply ite2_ok
              · apply arbReply_ok
                with_reducible assumption
              · apply ite2_ok
                · apply icReply_ok
                  with_reducible assumption
                · apply ite2_ok
                  · apply portReply_ok
                    with_reducible assumption
                  · with_reducible assumption

theorem agentAccepted_ok (a : Nat) (d : Dev) (hd : d.ok) : (agentAccepted a d).ok := by
  unfold agentAccepted
  lift_lets
  intro x0
  apply ite_ok
  · apply setPmu_ok
    with_reducible assumption
  · apply ite_ok
    · apply sf_ok
      apply sf_ok
      with_reducible assumption
    · apply ite_ok
      · apply framesDrop_ok
        with_reducible assumption
      · with_reducible assumption

theorem pmuRefused_ok (last : Nat) (a : Nat) (d : Dev) (hd : d.ok) : (pmuRefused last a d).ok := by
  unfold pmuRefused
  apply tmGo_ok
  apply raise_ok
  apply pmuCancel_ok
  with_reducible assumption

theorem agentAnswer_ok (a : Nat) (busy : Bool) (d : Dev) (hd : d.ok) : (agentAnswer a busy d).ok := by
  unfold agentAnswer
  apply ite_ok
  · with_reducible assumption
  · split
    · rename_i w0 w1 w2
      have h3 := snd_of_eq w2 (by
        apply agentReply_ok
        with_reducible assumption)
      apply pmuAdvance_ok
      apply sf_ok
      apply sf_ok
      apply agentAccepted_ok
      with_reducible assumption
    · rename_i w4 w5 w6
      have h7 := snd_of_eq w6 (by
        apply agentReply_ok
        with_reducible assumption)
      lift_lets
      intro x8
      have h9 : (Dev.ok x8) := by
        dsimp only [x8]
        apply sf_ok
        with_reducible assumption
      apply ite_ok
      · apply pmuRefused_ok
        with_reducible assumption
      · with_reducible assumption
    · rename_i w10 w11 w12
      have h13 := snd_of_eq w12 (by
        apply agentReply_ok
        with_reducible assumption)
      apply pmuRefused_ok
      with_reducible assumption

theorem pmuTimeout_ok (d : Dev) (hd : d.ok) : (pmuTimeout d).ok := by
  unfold pmuTimeout
  apply ite_ok
  · with_reducible assumption
  · apply pmuRefused_ok
    with_reducible assumption

theorem napOn_ok (d : Dev) (hd : d.ok) : (napOn d).ok := by
  unfold napOn
  lift_lets
  intro x0 x1 x2 x3 x4 x5
  have h6 : (Dev.ok x0) := by
    dsimp only [x0]
    apply domsOn_ok
    apply rawClear_ok
    with_reducible assumption
  have h7 : (Dev.ok x2) := by
    dsimp only [x2]
    apply setBoot_ok
    with_reducible assumption
  have h8 : (Dev.ok x3) := by
    dsimp only [x3]
    apply forN_ok
    · intro y9 y10 y11
      apply setEngState_ok
      apply engCntClr_ok
      with_reducible assumption
    · with_reducible assumption
  have h12 : (Dev.ok x5) := by
    dsimp only [x5]
    apply prodCheckAll_ok
    apply setPmu_ok
    with_reducible assumption
  apply restoreT0_ok
  apply sf_ok
  apply constRestore_ok
  with_reducible assumption

theorem ioOn_ok (d : Dev) (hd : d.ok) : (ioOn d).ok :=
  sf_ok _ _ _ _ ⟨hd.1, hd.2.1, hd.2.2.1, rising_filter _ _ hd.2.2.2⟩

theorem sleepOn_ok (d : Dev) (hd : d.ok) : (sleepOn d).ok := by
  unfold sleepOn
  lift_lets
  intro x0 x1 x2 x3 x4 x5 x6 x7 x8 x9
  have h10 : (Dev.ok x0) := by
    dsimp only [x0]
    apply refStart_ok
    with_reducible assumption
  have h11 : (Dev.ok x2) := by
    dsimp only [x2]
    apply ioOn_ok
    apply domsOn_ok
    with_reducible assumption
  have h12 : (Dev.ok x4) := by
    dsimp only [x4]
    apply setPmu_ok
    with_reducible assumption
  have h13 : (Dev.ok x6) := by
    dsimp only [x6]
    apply mk_ok
    with_reducible assumption
  have h14 : (Dev.ok x7) := by
    dsimp only [x7]
    apply sf_ok
    apply icAppOn_ok
    with_reducible assumption
  have h15 : (Dev.ok x8) := by
    dsimp only [x8]
    apply napOn_ok
    with_reducible assumption
  have h16 : (Dev.ok x9) := by
    dsimp only [x9]
    apply forN_ok
    · intro y17 y18 y19
      apply ite_ok
      · apply tlTrain_ok
        apply tlCnt_ok
        with_reducible assumption
      · with_reducible assumption
    · with_reducible assumption
  apply whenB_ok
  · intro y20 y21
    apply pinForceAll_ok
    with_reducible assumption
  · with_reducible assumption

theorem pmuExit_ok (wake : Option Nat) (d : Dev) (hd : d.ok) : (pmuExit wake d).ok := by
  unfold pmuExit
  lift_lets
  intro x0 x1 x2 x3 x4
  have h5 : (Dev.ok x1) := by
    dsimp only [x1]
    apply sf_ok
    apply sf_ok
    with_reducible assumption
  have h6 : (Dev.ok x2) := by
    dsimp only [x2]
    split
    · apply pmuCause_ok
      with_reducible assumption
    · with_reducible assumption
  have h7 : (Dev.ok x4) := by
    dsimp only [x4]
    apply ite_ok
    · apply sf_ok
      with_reducible assumption
    · apply ite_ok
      · apply napOn_ok
        apply mk_ok
        with_reducible assumption
      · apply ite_ok
        · apply sleepOn_ok
          with_reducible assumption
        · apply resetRelease_ok
          apply resetBegin_ok
          with_reducible assumption
  apply tmGo_ok
  apply whenB_ok
  · intro y8 y9
    apply raise_ok
    with_reducible assumption
  · apply raise_ok
    with_reducible assumption

theorem pmuRequest_ok (target : Nat) (d : Dev) (hd : d.ok) : (pmuRequest target d).ok := by
  unfold pmuRequest
  lift_lets
  intro x0
  apply ite_ok
  · apply sf_ok
    with_reducible assumption
  · apply ite_ok
    · apply pmuEntry_ok
      with_reducible assumption
    · apply ite_ok
      · apply pmuExit_ok
        with_reducible assumption
      · apply sf_ok
        with_reducible assumption

theorem autoIdle_ok (d : Dev) (hd : d.ok) : (autoIdle d).ok := by
  unfold autoIdle
  lift_lets
  intro x0
  apply ite_ok
  · apply pmuEntry_ok
    with_reducible assumption
  · with_reducible assumption

theorem autoRun_ok (d : Dev) (hd : d.ok) : (autoRun d).ok := by
  unfold autoRun
  apply ite_ok
  · apply pmuExit_ok
    with_reducible assumption
  · with_reducible assumption

theorem wakeSettle_ok (d : Dev) (hd : d.ok) : (wakeSettle d).ok := by
  unfold wakeSettle
  lift_lets
  intro x0
  apply ite_ok
  · split
    · apply pmuExit_ok
      with_reducible assumption
    · with_reducible assumption
  · with_reducible assumption

theorem wakeSource_ok (src : Nat) (d : Dev) (hd : d.ok) : (wakeSource src d).ok := by
  unfold wakeSource
  apply ite_ok
  · apply wakeSettle_ok
    apply pmuWakeBit_ok
    with_reducible assumption
  · with_reducible assumption

theorem wakePin_ok (src : Nat) (d : Dev) (hd : d.ok) : (wakePin src d).ok := by
  unfold wakePin
  lift_lets
  intro x0
  have h1 : (Dev.ok x0) := by
    dsimp only [x0]
    apply wakeSource_ok
    with_reducible assumption
  apply ite_ok
  · apply blkCause_ok
    with_reducible assumption
  · with_reducible assumption

theorem calGo_ok (d : Dev) (hd : d.ok) : (calGo d).ok := by
  unfold calGo
  apply ite_ok
  · with_reducible assumption
  · apply calStart_ok
    with_reducible assumption

theorem calDone_ok (xtal : Nat) (rc : Nat) (d : Dev) (hd : d.ok) : (calDone xtal rc d).ok := by
  unfold calDone
  lift_lets
  intro x0
  apply ite_ok
  · with_reducible assumption
  · apply sf_ok
    apply sf_ok
    apply wr_ok
    apply wr_ok
    with_reducible assumption

theorem clockFallback_ok (d : Dev) (hd : d.ok) : (clockFallback d).ok := by
  unfold clockFallback
  lift_lets
  intro x0 x1
  have h2 : (Dev.ok x0) := by
    dsimp only [x0]
    apply sf_ok
    apply sf_ok
    apply sf_ok
    apply wr_ok
    with_reducible assumption
  apply ite_ok
  · with_reducible assumption
  · apply wakeSettle_ok
    apply raise_ok
    apply setPmu_ok
    with_reducible assumption

theorem clockRetry_ok (d : Dev) (hd : d.ok) : (clockRetry d).ok := by
  unfold clockRetry
  lift_lets
  intro x0
  apply ite_ok
  · apply setPmu_ok
    with_reducible assumption
  · with_reducible assumption

theorem crystalStable_ok (d : Dev) (hd : d.ok) : (crystalStable d).ok := by
  unfold crystalStable
  lift_lets
  intro x0
  apply ite_ok
  · apply setPmu_ok
    with_reducible assumption
  · apply ite_ok
    · apply setPmu_ok
      apply sf_ok
      with_reducible assumption
    · with_reducible assumption

theorem alarmFire_ok (n : Nat) (d : Dev) (hd : d.ok) : (alarmFire n d).ok := by
  unfold alarmFire
  apply ite_ok
  · apply wakeSource_ok
    apply raise_ok
    apply sf_ok
    apply sf_ok
    with_reducible assumption
  · with_reducible assumption

theorem domainFault_ok (dom : Nat) (kind : Nat) (d : Dev) (hd : d.ok) : (domainFault dom kind d).ok := by
  unfold domainFault
  lift_lets
  intro x0
  have h1 : (Dev.ok x0) := by
    dsimp only [x0]
    apply raise_ok
    apply logOnce_ok
    · intro y2 y3
      apply sf_ok
      apply sf_ok
      with_reducible assumption
    · with_reducible assumption
  apply wakeSettle_ok
  apply ite_ok
  · apply engFail_ok
    with_reducible assumption
  · apply ite_ok
    · apply stackEvent_ok
      with_reducible assumption
    · with_reducible assumption

theorem tick_ok (d : Dev) (hd : d.ok) : (tick d).ok := by
  unfold tick
  lift_lets
  intro x0 x1 x2 x3 x4 x5 x6
  have h8 : (∀ z7, Dev.ok z7 → Dev.ok (x0 z7)) := by
    intro y9 y10
    dsimp only [x0]
    apply wr_ok
    with_reducible assumption
  have h11 : (Dev.ok x5) := by
    dsimp only [x5]
    apply setPmu_ok
    with_reducible assumption
  have h12 : (Dev.ok x6) := by
    dsimp only [x6]
    apply ite_ok
    · apply wr_ok
      with_reducible assumption
    · with_reducible assumption
  apply ite_ok
  · apply ite_ok
    · apply h8
      with_reducible assumption
    · with_reducible assumption
  · apply h8
    with_reducible assumption

end Sys2Proof.Machine
end

