-- ==== Sys2Proof/Laws/KeepsPeriph.lean ====
section
/-! SUPPORT. Every operation of Machine/Periph.lean keeps the canonical form of the sparse stores
(`Dev.ok`): memory, error marks, poison marks and registers. -/

namespace Sys2Proof.Machine

theorem setPeriph_ok (p : Periph) (d : Dev) (hd : d.ok) : (setPeriph p d).ok := by
  unfold setPeriph
  apply mk_ok
  with_reducible assumption

theorem ringTail_ok (r : DmaRing) (v : Nat) (err : Dev → Dev) (d : Dev) (herr : ∀ v0, v0.ok → (err v0).ok) (hd : d.ok) : (ringTail r v err d).ok := by
  unfold ringTail
  apply ite_ok
  · apply herr
    with_reducible assumption
  · apply wr_ok
    with_reducible assumption

theorem descRead_ok (r : DmaRing) (d : Dev) (hd : d.ok) : (descRead r d).2.ok := by
  unfold descRead
  split
  · rename_i w0 w1 w2 w3 w4
    have h5 := snd_of_eq w4 (by
      apply masterRead_ok
      with_reducible assumption)
    with_reducible assumption
  · rename_i w6 w7 w8 w9
    have h10 := snd_of_eq w9 (by
      apply masterRead_ok
      with_reducible assumption)
    with_reducible assumption

theorem descDone_ok (r : DmaRing) (len : Nat) (code : Nat) (d : Dev) (hd : d.ok) : (descDone r len code d).ok := by
  unfold descDone
  lift_lets
  intro x0
  have h1 : (Dev.ok x0) := by
    dsimp only [x0]
    apply masterWrite_ok
    with_reducible assumption
  apply wr_ok
  with_reducible assumption

theorem ethCause_ok (m : Nat) (i : Nat) (d : Dev) (hd : d.ok) : (ethCause m i d).ok := by
  unfold ethCause
  apply blkCause_ok
  with_reducible assumption

theorem ethCount_ok (r : Nat → Reg) (m : Nat) (d : Dev) (hd : d.ok) : (ethCount r m d).ok := by
  unfold ethCount
  apply blkCount_ok
  with_reducible assumption

theorem ethDrop_ok (m : Nat) (d : Dev) (hd : d.ok) : (ethDrop m d).ok := by
  unfold ethDrop
  apply ethCause_ok
  apply ethCount_ok
  with_reducible assumption

theorem ethRxFrame_ok (m : Nat) (fr : List Byte) (ok : Bool) (d : Dev) (hd : d.ok) : (ethRxFrame m fr ok d).ok := by
  unfold ethRxFrame
  lift_lets
  intro x0 x1 x2 x3
  apply ite_ok
  · with_reducible assumption
  · apply ite_ok
    · apply ethCount_ok
      with_reducible assumption
    · apply ite_ok
      · with_reducible assumption
      · apply ite_ok
        · apply ethDrop_ok
          with_reducible assumption
        · apply ite_ok
          · split
            · apply ite_ok
              · apply fifoSend_ok
                with_reducible assumption
              · apply ethDrop_ok
                with_reducible assumption
            · apply ethDrop_ok
              with_reducible assumption
          · apply ite_ok
            · apply ethDrop_ok
              with_reducible assumption
            · split
              · rename_i w4 w5 w6
                have h7 := snd_of_eq w6 (by
                  apply descRead_ok
                  with_reducible assumption)
                apply ethCause_ok
                apply descDone_ok
                with_reducible assumption
              · rename_i w8 w9 w10 w11 w12
                have h13 := snd_of_eq w12 (by
                  apply descRead_ok
                  with_reducible assumption)
                apply ite_ok
                · apply ethDrop_ok
                  with_reducible assumption
                · split
                  · rename_i w14 w15 w16
                    have h17 := snd_of_eq w16 (by
                      apply masterWrite_ok
                      with_reducible assumption)
                    apply ethCause_ok
                    apply descDone_ok
                    with_reducible assumption
                  · rename_i w18 w19 w20
                    have h21 := snd_of_eq w20 (by
                      apply masterWrite_ok
                      with_reducible assumption)
                    apply ethCause_ok
                    apply descDone_ok
                    with_reducible assumption

theorem ethRxTail_ok (m : Nat) (v : Nat) (d : Dev) (hd : d.ok) : (ethRxTail m v d).ok := by
  unfold ethRxTail
  apply ringTail_ok
  · intro y0 y1
    apply sf_ok
    with_reducible assumption
  · with_reducible assumption

theorem ethTxTail_ok (m : Nat) (v : Nat) (d : Dev) (hd : d.ok) : (ethTxTail m v d).ok := by
  unfold ethTxTail
  apply ringTail_ok
  · intro y0 y1
    apply sf_ok
    with_reducible assumption
  · with_reducible assumption

theorem ethTxDone_ok (m : Nat) (d : Dev) (hd : d.ok) : (ethTxDone m d).ok := by
  unfold ethTxDone
  lift_lets
  intro x0 x1
  have h5 : (∀ z2 z3 z4, Dev.ok z4 → Dev.ok (x1 z2 z3 z4)) := by
    intro y6 y7 y8 y9
    dsimp only [x1]
    apply ethCause_ok
    apply descDone_ok
    with_reducible assumption
  apply ite_ok
  · with_reducible assumption
  · split
    · rename_i w10 w11 w12
      have h13 := snd_of_eq w12 (by
        apply descRead_ok
        with_reducible assumption)
      apply h5
      with_reducible assumption
    · rename_i w14 w15 w16 w17 w18
      have h19 := snd_of_eq w18 (by
        apply descRead_ok
        with_reducible assumption)
      apply ite_ok
      · apply h5
        apply ethCount_ok
        with_reducible assumption
      · split
        · rename_i w20 w21 w22 w23
          have h24 := snd_of_eq w23 (by
            apply masterRead_ok
            with_reducible assumption)
          apply h5
          with_reducible assumption
        · rename_i w25 w26 w27 w28
          have h29 := snd_of_eq w28 (by
            apply masterRead_ok
            with_reducible assumption)
          apply h5
          apply ethCount_ok
          apply emit_ok
          apply consumeRead_ok
          with_reducible assumption
        · rename_i w30 w31 w32 w33
          have h34 := snd_of_eq w33 (by
            apply masterRead_ok
            with_reducible assumption)
          apply h5
          apply emit_ok
          with_reducible assumption

theorem ethLinkDown_ok (m : Nat) (d : Dev) (hd : d.ok) : (ethLinkDown m d).ok := by
  unfold ethLinkDown
  apply ethCause_ok
  apply sf_ok
  with_reducible assumption

theorem ethBlockLock_ok (m : Nat) (d : Dev) (hd : d.ok) : (ethBlockLock m d).ok := by
  unfold ethBlockLock
  apply ite_ok
  · apply sf_ok
    with_reducible assumption
  · with_reducible assumption

theorem usbCause_ok (i : Nat) (d : Dev) (hd : d.ok) : (usbCause i d).ok := by
  unfold usbCause
  apply blkCause_ok
  with_reducible assumption

theorem usbErr_ok (d : Dev) (hd : d.ok) : (usbErr d).ok := by
  unfold usbErr
  apply blkCount_ok
  with_reducible assumption

theorem usbFill_ok (n : Nat) (d : Dev) (hd : d.ok) : (usbFill n d).ok := by
  induction n generalizing d with
  | zero => exact hd
  | succ n ih =>
    unfold usbFill
    split
    · exact hd
    · dsimp only
      split
      · exact hd
      · split
        · exact ih _ (setPeriph_ok _ _ hd)
        · have h := descRead_ok (usbOut d) d hd
          rcases hq : descRead (usbOut d) d with ⟨_ | ⟨buf, len⟩, e⟩ <;> rw [hq] at h <;> dsimp only at h ⊢
          · exact ih _ (usbCause_ok _ _ (descDone_ok _ _ _ _ (usbErr_ok _ h)))
          · generalize hx : setPeriph _ e = x
            have hk : x.ok := hx ▸ setPeriph_ok _ _ h
            rename_i bs _ _ _ _ _
            have hw := masterWrite_ok (usbOut d).master buf (bs.take len) false x hk
            rcases hq : masterWrite (usbOut d).master buf (bs.take len) false x with ⟨_ | _, y⟩ <;> rw [hq] at hw <;> dsimp only at hw ⊢
            · exact ih _ (usbCause_ok _ _ (descDone_ok _ _ _ _ (usbErr_ok _ hw)))
            · exact ih _ (usbCause_ok _ _ (descDone_ok _ _ _ _ hw))

theorem usbRun_ok (d : Dev) (hd : d.ok) : (usbRun d).ok := by
  unfold usbRun
  apply usbFill_ok
  with_reducible assumption

theorem usbOutTransfer_ok (bs : List Byte) (ended : Bool) (d : Dev) (hd : d.ok) : (usbOutTransfer bs ended d).ok := by
  unfold usbOutTransfer
  lift_lets
  intro x0
  apply ite_ok
  · apply usbRun_ok
    apply setPeriph_ok
    with_reducible assumption
  · with_reducible assumption

theorem usbOutTail_ok (v : Nat) (d : Dev) (hd : d.ok) : (usbOutTail v d).ok := by
  unfold usbOutTail
  apply usbRun_ok
  apply ringTail_ok
  · intro y0 y1
    apply sf_ok
    with_reducible assumption
  · with_reducible assumption

theorem usbInTail_ok (v : Nat) (d : Dev) (hd : d.ok) : (usbInTail v d).ok := by
  unfold usbInTail
  apply ringTail_ok
  · intro y0 y1
    apply sf_ok
    with_reducible assumption
  · with_reducible assumption

theorem usbInDone_ok (d : Dev) (hd : d.ok) : (usbInDone d).ok := by
  unfold usbInDone
  lift_lets
  intro x0 x1
  have h5 : (∀ z2 z3 z4, Dev.ok z4 → Dev.ok (x1 z2 z3 z4)) := by
    intro y6 y7 y8 y9
    dsimp only [x1]
    apply usbCause_ok
    apply descDone_ok
    with_reducible assumption
  apply ite_ok
  · with_reducible assumption
  · split
    · rename_i w10 w11 w12
      have h13 := snd_of_eq w12 (by
        apply descRead_ok
        with_reducible assumption)
      apply h5
      apply usbErr_ok
      with_reducible assumption
    · rename_i w14 w15 w16 w17 w18
      have h19 := snd_of_eq w18 (by
        apply descRead_ok
        with_reducible assumption)
      apply ite_ok
      · apply h5
        apply usbErr_ok
        with_reducible assumption
      · split
        · rename_i w20 w21 w22 w23
          have h24 := snd_of_eq w23 (by
            apply masterRead_ok
            with_reducible assumption)
          apply h5
          apply usbErr_ok
          with_reducible assumption
        · rename_i w25 w26 w27 w28
          have h29 := snd_of_eq w28 (by
            apply masterRead_ok
            with_reducible assumption)
          apply h5
          apply usbErr_ok
          apply emit_ok
          apply consumeRead_ok
          with_reducible assumption
        · rename_i w30 w31 w32 w33
          have h34 := snd_of_eq w33 (by
            apply masterRead_ok
            with_reducible assumption)
          apply h5
          apply emit_ok
          with_reducible assumption

theorem usbBusReset_ok (speed : Nat) (d : Dev) (hd : d.ok) : (usbBusReset speed d).ok := by
  unfold usbBusReset
  lift_lets
  intro x0
  apply ite_ok
  · apply usbCause_ok
    apply sf_ok
    apply sf_ok
    apply sf_ok
    apply sf_ok
    apply setPeriph_ok
    with_reducible assumption
  · with_reducible assumption

theorem usbSuspend_ok (on : Bool) (d : Dev) (hd : d.ok) : (usbSuspend on d).ok := by
  unfold usbSuspend
  apply ite_ok
  · apply usbCause_ok
    apply sf_ok
    with_reducible assumption
  · with_reducible assumption

theorem usbRequest_ok (setup : List Byte) (d : Dev) (hd : d.ok) : (usbRequest setup d).ok := by
  unfold usbRequest
  lift_lets
  intro x0 x1 x2 x3 x4 x5 x6
  apply ite_ok
  · with_reducible assumption
  · apply ite_ok
    · apply ite_ok
      · apply emit_ok
        apply sf_ok
        apply setPeriph_ok
        with_reducible assumption
      · with_reducible assumption
    · apply ite_ok
      · apply emit_ok
        with_reducible assumption
      · apply ite_ok
        · apply emit_ok
          with_reducible assumption
        · apply emit_ok
          with_reducible assumption

theorem csiCause_ok (n : Nat) (i : Nat) (d : Dev) (hd : d.ok) : (csiCause n i d).ok := by
  unfold csiCause
  apply blkCause_ok
  with_reducible assumption

theorem csiDrop_ok (r : Nat → Reg) (n : Nat) (d : Dev) (hd : d.ok) : (csiDrop r n d).ok := by
  unfold csiDrop
  apply csiCause_ok
  apply blkCount_ok
  with_reducible assumption

theorem csiUse_ok (n : Nat) (d : Dev) (hd : d.ok) : (csiUse n d).ok := by
  unfold csiUse
  lift_lets
  intro x0 x1 x2
  have h3 : (Dev.ok x2) := by
    dsimp only [x2]
    apply sf_ok
    with_reducible assumption
  apply ite_ok
  · apply csiCause_ok
    apply sf_ok
    with_reducible assumption
  · apply ite_ok
    · apply sf_ok
      with_reducible assumption
    · with_reducible assumption

theorem csiBuf_ok (n : Nat) (i : Nat) (used : Bool) (d : Dev) (hd : d.ok) : (csiBuf n i used d).ok := by
  unfold csiBuf
  apply csiUse_ok
  apply sf_ok
  with_reducible assumption

theorem csiFrameStart_ok (n : Nat) (num : Nat) (d : Dev) (hd : d.ok) : (csiFrameStart n num d).ok := by
  unfold csiFrameStart
  lift_lets
  intro x0 x1 x2
  have h3 : (Dev.ok x1) := by
    dsimp only [x1]
    split
    · apply csiBuf_ok
      apply csiDrop_ok
      apply setPeriph_ok
      with_reducible assumption
    · with_reducible assumption
  apply ite_ok
  · with_reducible assumption
  · split
    · apply csiDrop_ok
      with_reducible assumption
    · apply csiBuf_ok
      apply setPeriph_ok
      with_reducible assumption

theorem csiFrameEnd_ok (n : Nat) (width : Nat) (lines : Nat) (dt : Nat) (vc : Nat) (bs : List Byte) (d : Dev) (hd : d.ok) : (csiFrameEnd n width lines dt vc bs d).ok := by
  unfold csiFrameEnd
  split
  · with_reducible assumption
  · lift_lets
    intro x0 x1 x2 x3 x4 x5 x6 x7 x8
    have h9 : (Dev.ok x1) := by
      dsimp only [x1]
      apply setPeriph_ok
      with_reducible assumption
    have h11 : (∀ z10, Dev.ok z10 → Dev.ok (x7 z10)) := by
      intro y12 y13
      dsimp only [x7]
      apply csiBuf_ok
      with_reducible assumption
    apply ite_ok
    · apply h11
      apply csiDrop_ok
      with_reducible assumption
    · apply ite_ok
      · apply h11
        apply csiDrop_ok
        with_reducible assumption
      · split
        · rename_i w14 w15 w16 w17 w18 w19
          have h20 := snd_of_eq w19 (by
            apply masterWrite_ok
            with_reducible assumption)
          apply h11
          apply csiDrop_ok
          with_reducible assumption
        · rename_i w21 w22 w23 w24 w25 w26
          have h27 := snd_of_eq w26 (by
            apply masterWrite_ok
            with_reducible assumption)
          split
          · apply h11
            apply ingestDrop_ok
            with_reducible assumption
          · apply csiCause_ok
            apply fifoSend_ok
            apply cntAdd64_ok
            with_reducible assumption

theorem csiTimeout_ok (n : Nat) (d : Dev) (hd : d.ok) : (csiTimeout n d).ok := by
  unfold csiTimeout
  split
  · with_reducible assumption
  · lift_lets
    intro x0
    apply csiBuf_ok
    apply csiDrop_ok
    apply setPeriph_ok
    with_reducible assumption

theorem csiRelease_ok (n : Nat) (i : Nat) (d : Dev) (hd : d.ok) : (csiRelease n i d).ok := by
  unfold csiRelease
  apply ite_ok
  · apply csiBuf_ok
    with_reducible assumption
  · apply csiCause_ok
    with_reducible assumption

theorem csiCfgWrite_ok (n : Nat) (v : Nat) (d : Dev) (hd : d.ok) : (csiCfgWrite n v d).ok := by
  unfold csiCfgWrite
  lift_lets
  intro x0 x1 x2 x3
  have h4 : (Dev.ok x2) := by
    dsimp only [x2]
    apply wr_ok
    with_reducible assumption
  apply ite_ok
  · with_reducible assumption
  · apply ite_ok
    · with_reducible assumption
    · split
      · apply csiBuf_ok
        apply setPeriph_ok
        with_reducible assumption
      · with_reducible assumption

theorem tdmCause_ok (i : Nat) (d : Dev) (hd : d.ok) : (tdmCause i d).ok := by
  unfold tdmCause
  apply blkCause_ok
  with_reducible assumption

theorem setTdm_ok (t : Tdm) (d : Dev) (hd : d.ok) : (setTdm t d).ok := by
  unfold setTdm
  lift_lets
  intro x0
  apply setPeriph_ok
  with_reducible assumption

theorem tdmLevel_ok (d : Dev) (hd : d.ok) : (tdmLevel d).ok := by
  unfold tdmLevel
  lift_lets
  intro x0 x1 x2
  have h3 : (Dev.ok x1) := by
    dsimp only [x1]
    apply wr_ok
    with_reducible assumption
  apply ite_ok
  · apply tdmCause_ok
    apply setTdm_ok
    with_reducible assumption
  · apply ite_ok
    · apply setTdm_ok
      with_reducible assumption
    · with_reducible assumption

theorem tdmStore_ok (its : List Item) (d : Dev) (hd : d.ok) : (tdmStore its d).ok := by
  unfold tdmStore
  apply foldl_ok
  · intro y0 y1 y2
    lift_lets
    intro x3 x4 x5
    have h6 : (Dev.ok x5) := by
      dsimp only [x5]
      apply masterWrite_ok
      with_reducible assumption
    apply setTdm_ok
    with_reducible assumption
  · with_reducible assumption

theorem tdmFrame_ok (samples : List Nat) (onTime : Bool) (d : Dev) (hd : d.ok) : (tdmFrame samples onTime d).ok := by
  unfold tdmFrame
  lift_lets
  intro x0 x1 x2 x3 x4 x5 x6 x7 x8 x9 x10 x11 x12 x13 x14 x15
  have h16 : (Dev.ok x0) := by
    dsimp only [x0]
    apply blkCount_ok
    with_reducible assumption
  have h17 : (Dev.ok x3) := by
    dsimp only [x3]
    apply setTdm_ok
    with_reducible assumption
  have h18 : (Dev.ok x14) := by
    dsimp only [x14]
    apply setTdm_ok
    with_reducible assumption
  have h19 : (Dev.ok x15) := by
    dsimp only [x15]
    clear_value x10 x12 x14
    split
    · apply fifoSend_ok
      with_reducible assumption
    · with_reducible assumption
  apply ite_ok
  · with_reducible assumption
  · apply ite_ok
    · apply ite_ok
      · apply setTdm_ok
        with_reducible assumption
      · apply setTdm_ok
        with_reducible assumption
    · apply ite_ok
      · with_reducible assumption
      · apply ite_ok
        · apply tdmCause_ok
          apply blkCount_ok
          with_reducible assumption
        · apply tdmLevel_ok
          apply tdmStore_ok
          with_reducible assumption

theorem tdmDrain_ok (d : Dev) (hd : d.ok) : (tdmDrain d).ok := by
  unfold tdmDrain
  split
  · with_reducible assumption
  · lift_lets
    intro x0 x1
    have h2 : (Dev.ok x1) := by
      dsimp only [x1]
      apply foldl_ok
      · intro y3 y4 y5
        apply fifoSend_ok
        apply setTdm_ok
        apply masterRead_ok
        with_reducible assumption
      · with_reducible assumption
    apply tdmLevel_ok
    with_reducible assumption

theorem tdmLost_ok (d : Dev) (hd : d.ok) : (tdmLost d).ok := by
  unfold tdmLost
  lift_lets
  intro x0
  apply ite_ok
  · apply tdmCause_ok
    apply setTdm_ok
    with_reducible assumption
  · with_reducible assumption

theorem tdmCtlWrite_ok (v : Nat) (d : Dev) (hd : d.ok) : (tdmCtlWrite v d).ok := by
  unfold tdmCtlWrite
  lift_lets
  intro x0 x1 x2
  apply ite_ok
  · with_reducible assumption
  · apply wr_ok
    with_reducible assumption

theorem vadWindow_ok (sum : Nat) (d : Dev) (hd : d.ok) : (vadWindow sum d).ok := by
  unfold vadWindow
  lift_lets
  intro x0 x1 x2 x3 x4
  have h5 : (Dev.ok x4) := by
    dsimp only [x4]
    apply setTdm_ok
    with_reducible assumption
  apply ite_ok
  · with_reducible assumption
  · apply ite_ok
    · apply ite_ok
      · apply wakeSource_ok
        apply whenB_ok
        · intro y6 y7
          apply tdmCause_ok
          with_reducible assumption
        · apply raise_ok
          with_reducible assumption
      · with_reducible assumption
    · apply setTdm_ok
      with_reducible assumption

theorem pcieCause_ok (i : Nat) (d : Dev) (hd : d.ok) : (pcieCause i d).ok := by
  unfold pcieCause
  apply blkCause_ok
  with_reducible assumption

theorem pcieTrain_ok (d : Dev) (hd : d.ok) : (pcieTrain d).ok := by
  unfold pcieTrain
  apply sf_ok
  with_reducible assumption

theorem pcieUp_ok (rate : Nat) (width : Nat) (d : Dev) (hd : d.ok) : (pcieUp rate width d).ok := by
  unfold pcieUp
  apply ite_ok
  · apply pcieCause_ok
    apply sf_ok
    apply sf_ok
    apply sf_ok
    with_reducible assumption
  · with_reducible assumption

theorem pcieFail_ok (d : Dev) (hd : d.ok) : (pcieFail d).ok := by
  unfold pcieFail
  apply ite_ok
  · apply pcieCause_ok
    with_reducible assumption
  · with_reducible assumption

theorem pcieReset_ok (d : Dev) (hd : d.ok) : (pcieReset d).ok :=
  sf_ok _ _ _ _ (setPeriph_ok _ _ ⟨hd.1, hd.2.1, hd.2.2.1, rising_filter _ _ hd.2.2.2⟩)

theorem perstFall_ok (d : Dev) (hd : d.ok) : (perstFall d).ok := by
  unfold perstFall
  apply ite_ok
  · with_reducible assumption
  · apply ite_ok
    · apply resetRelease_ok
      apply resetBegin_ok
      with_reducible assumption
    · apply ite_ok
      · apply pcieCause_ok
        apply pcieReset_ok
        with_reducible assumption
      · with_reducible assumption

theorem pcieConfig_ok (master : Nat) (o : Nat) (n : Nat) (write : Bool) (data : List Byte) (answer : Option (List Byte)) (d : Dev) (hd : d.ok) : (pcieConfig master o n write data answer d).ok := by
  unfold pcieConfig
  lift_lets
  intro x0 x1 x2 x3 x4 x5 x6 x7 x8 x9 x10 x11
  have h14 : (∀ z12 z13, Dev.ok z13 → Dev.ok (x4 z12 z13)) := by
    intro y15 y16 y17
    dsimp only [x4]
    apply ite_ok
    · apply emit_ok
      with_reducible assumption
    · apply emit_ok
      with_reducible assumption
  have h19 : (∀ z18, Dev.ok z18 → Dev.ok (x5 z18)) := by
    intro y20 y21
    dsimp only [x5]
    apply h14
    apply blkCount_ok
    with_reducible assumption
  have h22 : (Dev.ok x11) := by
    dsimp only [x11]
    apply emit_ok
    with_reducible assumption
  apply ite_ok
  · apply busFail_ok
    with_reducible assumption
  · apply ite_ok
    · apply busFail_ok
      with_reducible assumption
    · apply ite_ok
      · apply busFail_ok
        with_reducible assumption
      · apply ite_ok
        · apply ite_ok
          · apply h19
            with_reducible assumption
          · apply ite_ok
            · apply h14
              apply setPeriph_ok
              with_reducible assumption
            · apply h14
              with_reducible assumption
        · apply ite_ok
          · apply h19
            with_reducible assumption
          · split
            · apply h14
              with_reducible assumption
            · apply h19
              with_reducible assumption

theorem cpuHold_ok (v : Nat) (d : Dev) (hd : d.ok) : (cpuHold v d).ok := by
  unfold cpuHold
  lift_lets
  intro x0 x1 x2 x3
  apply sf_ok
  apply sf_ok
  apply sf_ok
  with_reducible assumption

theorem cpuFreq_ok (v : Nat) (d : Dev) (hd : d.ok) : (cpuFreq v d).ok := by
  unfold cpuFreq
  lift_lets
  intro x0
  apply ite_ok
  · apply sf_ok
    with_reducible assumption
  · with_reducible assumption

end Sys2Proof.Machine
end

