-- ==== Sys2Proof/Laws/KeepsRegWrite.lean ====
section
/-! SUPPORT. Every operation of Machine/RegWrite.lean keeps the canonical form of the sparse stores
(`Dev.ok`): memory, error marks, poison marks and registers. -/

namespace Sys2Proof.Machine

theorem regAfter_ok (r : RegAt) (old : BitVec 64) (new : BitVec 64) (d : Dev) (hd : d.ok) : (regAfter r old new d).ok := by
  unfold regAfter
  lift_lets
  intro x0
  split
  · apply whenB_ok
    · intro y1 y2
      apply raise_ok
      with_reducible assumption
    · with_reducible assumption
  · apply ite_ok
    · apply icPresent_ok
      with_reducible assumption
    · apply ite_ok
      · apply ringChanged_ok
        with_reducible assumption
      · with_reducible assumption

theorem intgStore_ok (b : Nat) (v : BitVec 64) (d : Dev) (hd : d.ok) (e : Dev) (he : intgStore b v d = some e) : e.ok := by
  unfold intgStore at he
  dsimp only at he
  split at he
  · cases he
    split
    · exact intgUpd_ok _ _ _ hd
    · exact hd
  · split at he
    · cases he
      split
      · exact intgUpd_ok _ _ _ hd
      · exact hd
    · split at he
      · cases he
        split
        · exact hd
        · exact intgUpd_ok _ _ _ hd
      · cases he

theorem regStore_ok (r : RegAt) (v : BitVec 64) (d : Dev) (hd : d.ok) : (regStore r v d).ok := by
  unfold regStore
  split
  · exact intgStore_ok _ _ _ hd _ ‹_›
  · split
    · exact hd
    · exact regAfter_ok _ _ _ _ (wr_ok _ _ _ hd)

theorem registerWrite_ok (a : Nat) (v : Nat) (d : Dev) (hd : d.ok) : (registerWrite a v d).ok := by
  unfold registerWrite
  split
  · apply ite_ok
    · apply regStore_ok
      with_reducible assumption
    · with_reducible assumption
  · with_reducible assumption

theorem xSlotExpire_ok (d : Dev) (hd : d.ok) : (xSlotExpire d).ok := by
  unfold xSlotExpire
  apply trPoke_ok
  apply slotExpire_ok
  with_reducible assumption

theorem xActGo_ok (d : Dev) (hd : d.ok) : (xActGo d).ok := by
  unfold xActGo
  apply trPoke_ok
  apply actGo_ok
  with_reducible assumption

theorem xTmGo_ok (master : Nat) (d : Dev) (hd : d.ok) : (xTmGo master d).ok := by
  unfold xTmGo
  apply tmPortGo_ok
  with_reducible assumption

theorem actSys_ok (r : RegAt) (v : BitVec 64) (d : Dev) (hd : d.ok) : (actSys r v d).ok := by
  unfold actSys
  lift_lets
  intro x0 x1
  apply ite_ok
  · apply whenB_ok
    · intro y2 y3
      apply nodeLock_ok
      with_reducible assumption
    · with_reducible assumption
  · apply ite_ok
    · apply whenB_ok
      · intro y4 y5
        apply pmuRequest_ok
        with_reducible assumption
      · with_reducible assumption
    · apply ite_ok
      · apply whenB_ok
        · intro y6 y7
          apply calGo_ok
          with_reducible assumption
        · with_reducible assumption
      · apply ite_ok
        · apply whenB_ok
          · intro y8 y9
            apply clockRetry_ok
            with_reducible assumption
          · with_reducible assumption
        · apply ite_ok
          · apply icSetPend_ok
            with_reducible assumption
          · apply ite_ok
            · apply icClrPend_ok
              with_reducible assumption
            · apply ite_ok
              · apply icEnWrite_ok
                with_reducible assumption
              · apply ite_ok
                · apply icEoi_ok
                  with_reducible assumption
                · with_reducible assumption

theorem actArb_ok (master : Nat) (r : RegAt) (v : BitVec 64) (rs : List ReloadIn) (d : Dev) (hd : d.ok) : (actArb master r v rs d).ok := by
  unfold actArb
  lift_lets
  intro x0 x1 x2
  apply ite_ok
  · apply ite_ok
    · with_reducible assumption
    · apply ite_ok
      · apply tmEnable_ok
        with_reducible assumption
      · apply tmDisable_ok
        with_reducible assumption
  · apply ite_ok
    · apply whenB_ok
      · intro y3 y4
        apply xTmGo_ok
        with_reducible assumption
      · with_reducible assumption
    · apply ite_ok
      · apply ite_ok
        · with_reducible assumption
        · apply ite_ok
          · apply xLeEnable_ok
            with_reducible assumption
          · apply xLeDisable_ok
            with_reducible assumption
      · apply ite_ok
        · apply whenB_ok
          · intro y5 y6
            apply bootCfg_ok
            with_reducible assumption
          · with_reducible assumption
        · apply ite_ok
          · apply whenB_ok
            · intro y7 y8
              apply retryNow_ok
              with_reducible assumption
            · with_reducible assumption
          · apply ite_ok
            · split
              · apply holdReplay_ok
                with_reducible assumption
              · apply holdResign_ok
                with_reducible assumption
              · with_reducible assumption
            · apply ite_ok
              · apply whenB_ok
                · intro y9 y10
                  apply scoreProgram_ok
                  with_reducible assumption
                · with_reducible assumption
              · apply ite_ok
                · apply whenB_ok
                  · intro y11 y12
                    apply scorePost_ok
                    with_reducible assumption
                  · with_reducible assumption
                · apply ite_ok
                  · apply whenB_ok
                    · intro y13 y14
                      apply xSlotExpire_ok
                      with_reducible assumption
                    · with_reducible assumption
                  · with_reducible assumption

theorem actImg_ok (r : RegAt) (v : BitVec 64) (d : Dev) (hd : d.ok) : (actImg r v d).ok := by
  unfold actImg
  lift_lets
  intro x0 x1
  apply ite_ok
  · apply flipWrite_ok
    with_reducible assumption
  · apply ite_ok
    · apply whenB_ok
      · intro y2 y3
        apply fuseRaise_ok
        with_reducible assumption
      · apply whenB_ok
        · intro y4 y5
          apply fuseRevoke_ok
          with_reducible assumption
        · apply whenB_ok
          · intro y6 y7
            apply fuseProg_ok
            with_reducible assumption
          · with_reducible assumption
    · apply ite_ok
      · apply whenB_ok
        · intro y8 y9
          apply attGo_ok
          with_reducible assumption
        · with_reducible assumption
      · apply ite_ok
        · apply whenB_ok
          · intro y10 y11
            apply softReset_ok
            with_reducible assumption
          · with_reducible assumption
        · apply ite_ok
          · apply whenB_ok
            · intro y12 y13
              apply keyRecover_ok
              with_reducible assumption
            · with_reducible assumption
          · apply ite_ok
            · apply whenB_ok
              · intro y14 y15
                apply ddrTrain_ok
                with_reducible assumption
              · with_reducible assumption
            · apply ite_ok
              · apply whenB_ok
                · intro y16 y17
                  apply imgGo_ok
                  with_reducible assumption
                · apply whenB_ok
                  · intro y18 y19
                    apply imgAbort_ok
                    with_reducible assumption
                  · with_reducible assumption
              · apply ite_ok
                · apply whenB_ok
                  · intro y20 y21
                    apply xActGo_ok
                    with_reducible assumption
                  · with_reducible assumption
                · apply ite_ok
                  · apply ite_ok
                    · apply ringEnable_ok
                      with_reducible assumption
                    · apply ringDisable_ok
                      with_reducible assumption
                  · apply ite_ok
                    · apply cmdTailWrite_ok
                      with_reducible assumption
                    · apply ite_ok
                      · apply cplHeadWrite_ok
                        with_reducible assumption
                      · with_reducible assumption

theorem actEng_ok (r : RegAt) (v : BitVec 64) (d : Dev) (hd : d.ok) : (actEng r v d).ok := by
  unfold actEng
  lift_lets
  intro x0 x1
  apply ite_ok
  · apply whenB_ok
    · intro y2 y3
      apply engCntClr_ok
      with_reducible assumption
    · apply whenB_ok
      · intro y4 y5
        apply engFail_ok
        with_reducible assumption
      · apply whenB_ok
        · intro y6 y7
          apply engKill_ok
          with_reducible assumption
        · apply ite_ok
          · apply engEnable_ok
            with_reducible assumption
          · apply engDrain_ok
            with_reducible assumption
  · apply ite_ok
    · apply qzCalibrate_ok
      with_reducible assumption
    · apply ite_ok
      · apply fifoWm_ok
        with_reducible assumption
      · apply ite_ok
        · apply whenB_ok
          · intro y8 y9
            apply aryAfter_ok
            · intro y10 y11
              apply aryRetire_ok
              with_reducible assumption
            · with_reducible assumption
          · with_reducible assumption
        · apply ite_ok
          · apply ite_ok
            · apply tlEnable_ok
              with_reducible assumption
            · apply tlDisable_ok
              with_reducible assumption
          · with_reducible assumption

theorem actPeriph_ok (r : RegAt) (v : BitVec 64) (d : Dev) (hd : d.ok) : (actPeriph r v d).ok := by
  unfold actPeriph
  lift_lets
  intro x0
  apply ite_ok
  · apply ite_ok
    · apply sf_ok
      with_reducible assumption
    · apply ite_ok
      · with_reducible assumption
      · apply pcieTrain_ok
        with_reducible assumption
  · apply ite_ok
    · apply ethRxTail_ok
      with_reducible assumption
    · apply ite_ok
      · apply ethTxTail_ok
        with_reducible assumption
      · apply ite_ok
        · apply usbOutTail_ok
          with_reducible assumption
        · apply ite_ok
          · apply usbInTail_ok
            with_reducible assumption
          · apply ite_ok
            · apply csiCfgWrite_ok
              with_reducible assumption
            · apply ite_ok
              · apply csiRelease_ok
                with_reducible assumption
              · apply ite_ok
                · apply tdmCtlWrite_ok
                  with_reducible assumption
                · apply ite_ok
                  · apply cpuHold_ok
                    with_reducible assumption
                  · apply ite_ok
                    · apply cpuFreq_ok
                      with_reducible assumption
                    · with_reducible assumption

theorem regWrite_ok (master : Nat) (r : RegAt) (v : BitVec 64) (rs : List ReloadIn) (d : Dev) (hd : d.ok) : (regWrite master r v rs d).ok := by
  unfold regWrite
  apply actPeriph_ok
  apply actEng_ok
  apply actImg_ok
  apply actArb_ok
  apply actSys_ok
  apply regStore_ok
  with_reducible assumption

end Sys2Proof.Machine
end

