-- ==== Sys2Proof/Laws/KeepsBus.lean ====
section
/-! SUPPORT. Every operation of Machine/Bus.lean keeps the canonical form of the sparse stores
(`Dev.ok`): memory, error marks, poison marks and registers. -/

namespace Sys2Proof.Machine

theorem regPutBus_ok (master : Nat) (a : Nat) (bs : List Byte) (rs : List ReloadIn) (d : Dev) (hd : d.ok) (e : Dev)
    (he : regPutBus master a bs rs d = some e) : e.ok := by
  unfold regPutBus at he
  split at he
  · cases he
    exact foldl_ok _ _ _ (fun _ _ h => regWrite_ok _ _ _ _ _ h) hd
  · cases he

theorem syncPut_ok (master : Nat) (a : Nat) (bs : List Byte) (p : Bool) (d : Dev) (hd : d.ok) (e : Dev)
    (he : syncPut master a bs p d = some e) : e.ok := by
  unfold syncPut at he
  dsimp only at he
  split at he
  · cases he
  · split at he
    · cases he
      exact syncPair_ok _ _ _ _ hd
    · split at he
      · cases he
        exact syncPoison_ok _ _ _ hd
      · split at he
        · cases he
          exact syncOp_ok _ _ _ _ _ hd
        · cases he
          exact watchesOn_ok _ _ (syncField_ok _ _ _ _ hd)

theorem strike_ok (a : Nat) (e : ErrPat) (d : Dev) (hd : d.ok) : (strike a e d).ok := by
  unfold strike
  split
  · apply ite_ok
    · with_reducible assumption
    · apply errSet_ok
      with_reducible assumption
  · with_reducible assumption

/-- The end of a write that may be refused for its width. -/
theorem busPutDone_ok (d : Dev) (hd : d.ok) (r : Option Dev) (hr : ∀ e, r = some e → e.ok) :
    Dev.ok (match r with | some d => ((none, d) : Option Nat × Dev) | none => (some causeAlign, d)).2 := by
  rcases r with _ | e
  · exact hd
  · exact hr e rfl

theorem busPut_ok (master : Nat) (a : Nat) (bs : List Byte) (p : Bool) (rs : List ReloadIn) (d : Dev) (hd : d.ok) :
    (busPut master a bs p rs d).2.ok := by
  have h1 := busPutDone_ok d hd _ (regPutBus_ok master a bs rs d hd)
  have h2 := busPutDone_ok d hd _ (syncPut_ok master a bs p d hd)
  have h3 : ∀ k, (aryAfter (winWrite master k (arrOff a) bs p) d).ok := fun k =>
    aryAfter_ok _ _ (fun e he => winWrite_ok _ _ _ _ _ _ he) hd
  have h5 := writeMem_ok a bs p d hd
  unfold busPut
  cases localCause d a bs.length true with
  | some c => exact hd
  | none =>
    dsimp only
    cases region a
    all_goals dsimp only
    case regs => exact h1
    case sync => exact h2
    case psec => with_reducible exact hd
    case array k => with_reducible exact h3 k
    case pcieOut => with_reducible exact emit_ok _ d hd
    all_goals with_reducible exact h5

theorem epCount_ok (master : Nat) (p : Bool) (d : Dev) (hd : d.ok) : (epCount master p d).ok := by
  unfold epCount
  apply ite_ok
  · apply pcieCause_ok
    apply blkCount_ok
    with_reducible assumption
  · with_reducible assumption

theorem busServe_ok (x : BusAcc) (fa : Nat) (d : Dev) (hd : d.ok) : (busServe x fa d).ok := by
  unfold busServe
  lift_lets
  intro x0 x1 x2 x3 x4
  have h6 : (∀ z5, Dev.ok (z5).2 → Dev.ok (x1 z5)) := by
    intro y7 y8
    dsimp only [x1]
    split
    · apply busDeliver_ok
      with_reducible assumption
    · apply busFail_ok
      with_reducible assumption
  have h9 : (Dev.ok (x2).2) := by
    dsimp only [x2]
    apply regRead_ok
    with_reducible assumption
  have h10 : (Dev.ok x3) := by
    dsimp only [x3]
    apply emit_ok
    with_reducible assumption
  have h11 : (Dev.ok (x4).2) := by
    dsimp only [x4]
    apply readMem_ok
    with_reducible assumption
  apply ite_ok
  · split
    · rename_i w12 w13 w14
      have h15 := snd_of_eq w14 (by
        apply busPut_ok
        with_reducible assumption)
      apply emit_ok
      with_reducible assumption
    · rename_i w16 w17 w18 w19
      have h20 := snd_of_eq w19 (by
        apply busPut_ok
        with_reducible assumption)
      apply busFail_ok
      with_reducible assumption
  · split
    · apply h6
      with_reducible assumption
    · apply h6
      apply syncGet_ok
      with_reducible assumption
    · apply winRead_ok
      with_reducible assumption
    · apply psecRead_ok
      with_reducible assumption
    · apply psecRead_ok
      with_reducible assumption
    · apply busDeliver_ok
      with_reducible assumption
    · split
      · apply busDeliver_ok
        with_reducible assumption
      · apply busFail_ok
        with_reducible assumption
    · apply busDeliver_ok
      with_reducible assumption

theorem busDo_ok (x : BusAcc) (fa : Nat) (d : Dev) (hd : d.ok) : (busDo x fa d).ok := by
  unfold busDo
  lift_lets
  intro x0 x1
  have h2 : (Dev.ok x1) := by
    dsimp only [x1]
    apply ite_ok
    · apply epCount_ok
      with_reducible assumption
    · with_reducible assumption
  apply ite_ok
  · apply pcieConfig_ok
    with_reducible assumption
  · split
    · apply busFail_ok
      with_reducible assumption
    · apply busServe_ok
      apply strike_ok
      with_reducible assumption

theorem busLocal_ok (x : BusAcc) (fa : Nat) (d : Dev) (hd : d.ok) : (busLocal x fa d).ok := by
  unfold busLocal
  lift_lets
  intro x0 x1
  apply ite_ok
  · apply setBoot_ok
    with_reducible assumption
  · apply busDo_ok
    with_reducible assumption

theorem reqOrFail_ok (x : BusAcc) (k : ReqKind) (m : Msg) (d : Dev) (hd : d.ok) : (reqOrFail x k m d).2.ok := by
  unfold reqOrFail
  split
  · rename_i w0 w1 w2
    have h3 := snd_of_eq w2 (by
      apply request_ok
      with_reducible assumption)
    with_reducible assumption
  · rename_i w4 w5 w6
    have h7 := snd_of_eq w6 (by
      apply request_ok
      with_reducible assumption)
    dsimp only
    apply emit_ok
    with_reducible assumption

theorem busRemote_ok (x : BusAcc) (fa : Nat) (d : Dev) (hd : d.ok) : (busRemote x fa d).ok := by
  unfold busRemote
  lift_lets
  intro x0 x1 x2 x3 x4 x5
  have h6 : (Dev.ok x5) := by
    dsimp only [x5]
    apply epCount_ok
    with_reducible assumption
  apply ite_ok
  · apply busFail_ok
    with_reducible assumption
  · apply ite_ok
    · apply ite_ok
      · apply reqOrFail_ok
        with_reducible assumption
      · split
        · rename_i w7 w8 w9
          have h10 := snd_of_eq w9 (by
            apply reqOrFail_ok
            with_reducible assumption)
          apply reqOrFail_ok
          with_reducible assumption
        · rename_i w11 w12 w13
          have h14 := snd_of_eq w13 (by
            apply reqOrFail_ok
            with_reducible assumption)
          with_reducible assumption
    · apply reqOrFail_ok
      with_reducible assumption

theorem fabricAccess_ok (x : BusAcc) (d : Dev) (hd : d.ok) : (fabricAccess x d).ok := by
  unfold fabricAccess
  split
  · with_reducible assumption
  · lift_lets
    intro x0
    apply ite_ok
    · apply busFail_ok
      with_reducible assumption
    · split
      · apply busLocal_ok
        with_reducible assumption
      · apply ite_ok
        · apply busRemote_ok
          with_reducible assumption
        · apply busFail_ok
          with_reducible assumption

theorem postedRun_ok (d : Dev) (hd : d.ok) : (postedRun d).ok := by
  unfold postedRun
  split
  · with_reducible assumption
  · lift_lets
    intro x0
    split
    · rename_i w1 w2 w3 w4 w5 w6 w7
      have h8 := snd_of_eq w7 (by
        apply busPut_ok
        apply setBoot_ok
        with_reducible assumption)
      with_reducible assumption
    · rename_i w9 w10 w11 w12 w13 w14 w15 w16
      have h17 := snd_of_eq w16 (by
        apply busPut_ok
        apply setBoot_ok
        with_reducible assumption)
      apply busError_ok
      with_reducible assumption

end Sys2Proof.Machine
end

