-- ==== Sys2Proof/Laws/KeepsMesh.lean ====
section
/-! SUPPORT. Every operation of Machine/Mesh.lean keeps the canonical form of the sparse stores
(`Dev.ok`): memory, error marks, poison marks and registers. -/

namespace Sys2Proof.Machine

theorem respond_ok (m : Msg) (kind : Nat) (cause : Nat) (data : List (List Byte × Bool)) (d : Dev) (hd : d.ok) : (respond m kind cause data d).ok := by
  unfold respond
  split
  · rename_i w0 w1 w2
    have h3 := snd_of_eq w2 (by
      apply sendMsg_ok
      with_reducible assumption)
    with_reducible assumption
  · rename_i w4 w5 w6
    have h7 := snd_of_eq w6 (by
      apply sendMsg_ok
      with_reducible assumption)
    apply routeErr_ok
    with_reducible assumption

theorem respondErr_ok (m : Msg) (cause : Nat) (d : Dev) (hd : d.ok) : (respondErr m cause d).ok := by
  unfold respondErr
  apply respond_ok
  with_reducible assumption

theorem arrive_ok (n : Nat) (m : Msg) (f : Msg → Dev → Dev) (d : Dev) (hf : ∀ v0 v1, v1.ok → (f v0 v1).ok) (hd : d.ok) : (arrive n m f d).ok := by
  unfold arrive
  apply ite_ok
  · apply hf
    with_reducible assumption
  · split
    · rename_i w0 w1 w2
      have h3 := snd_of_eq w2 (by
        apply sendMsg_ok
        with_reducible assumption)
      with_reducible assumption
    · rename_i w4 w5 w6
      have h7 := snd_of_eq w6 (by
        apply sendMsg_ok
        with_reducible assumption)
      apply ite_ok
      · apply routeErr_ok
        with_reducible assumption
      · apply respondErr_ok
        apply busError_ok
        apply routeErr_ok
        with_reducible assumption

theorem linkHold_ok (n : Nat) (m : Msg) (write : Bool) (k : Dev → Dev) (d : Dev) (hk : ∀ v0, v0.ok → (k v0).ok) (hd : d.ok) : (linkHold n m write k d).ok := by
  unfold linkHold
  lift_lets
  intro x0 x1 x2
  apply ite_ok
  · apply setBoot_ok
    with_reducible assumption
  · apply hk
    with_reducible assumption

theorem linkRead_ok (master : Nat) (a1 : Nat) (a2 : Nat) (a3 : Dev) (ha3 : a3.ok) : (linkRead master a1 a2 a3).2.2.ok := by
  induction a1 generalizing master a2 a3
  · unfold linkRead
    with_reducible assumption
  · rename_i u0 ih
    unfold linkRead
    split
    · rename_i w0 w1 w2 w3
      have h4 := snd_of_eq w3 (by
        apply masterRead_ok
        with_reducible assumption)
      with_reducible assumption
    · rename_i w5 w6 w7 w8 w9
      have h10 := snd_of_eq w9 (by
        apply masterRead_ok
        with_reducible assumption)
      split
      · rename_i w11 w12 w13 w14 w15
        have h16 := snd2_of_eq w15 (by
          apply ih
          with_reducible assumption)
        with_reducible assumption

theorem readDo_ok (n : Nat) (m : Msg) (d : Dev) (hd : d.ok) : (readDo n m d).ok := by
  unfold readDo
  split
  · rename_i w0 w1 w2 w3 w4
    have h5 := snd2_of_eq w4 (by
      apply linkRead_ok
      with_reducible assumption)
    apply respondErr_ok
    with_reducible assumption
  · rename_i w6 w7 w8 w9
    have h10 := snd2_of_eq w9 (by
      apply linkRead_ok
      with_reducible assumption)
    apply respond_ok
    with_reducible assumption

theorem readHere_ok (n : Nat) (m : Msg) (d : Dev) (hd : d.ok) : (readHere n m d).ok := by
  unfold readHere
  apply linkHold_ok
  · intro y0 y1
    apply readDo_ok
    with_reducible assumption
  · with_reducible assumption

theorem putRuns_ok (master : Nat) (a1 : List (Nat × List Byte × Bool)) (a2 : Dev) (ha2 : a2.ok) : (putRuns master a1 a2).2.ok := by
  induction a1 generalizing master a2
  · unfold putRuns
    with_reducible assumption
  · rename_i u0 u1 ih
    unfold putRuns
    split
    · rename_i w0 w1 w2
      have h3 := snd_of_eq w2 (by
        apply busPut_ok
        with_reducible assumption)
      apply ih
      with_reducible assumption
    · rename_i w4 w5 w6 w7
      have h8 := snd_of_eq w7 (by
        apply busPut_ok
        with_reducible assumption)
      dsimp only
      apply busError_ok
      with_reducible assumption

theorem writeDo_ok (n : Nat) (m : Msg) (d : Dev) (hd : d.ok) : (writeDo n m d).ok := by
  unfold writeDo
  split
  · rename_i w0 w1 w2
    have h3 := snd_of_eq w2 (by
      apply putRuns_ok
      with_reducible assumption)
    apply respond_ok
    with_reducible assumption
  · rename_i w4 w5 w6 w7
    have h8 := snd_of_eq w7 (by
      apply putRuns_ok
      with_reducible assumption)
    apply respondErr_ok
    with_reducible assumption

theorem writeHere_ok (n : Nat) (m : Msg) (d : Dev) (hd : d.ok) : (writeHere n m d).ok := by
  unfold writeHere
  apply linkHold_ok
  · intro y0 y1
    apply writeDo_ok
    with_reducible assumption
  · with_reducible assumption

theorem heldRelease_ok (i : Nat) (d : Dev) (hd : d.ok) : (heldRelease i d).ok := by
  unfold heldRelease
  split
  · with_reducible assumption
  · lift_lets
    intro x0 x1
    have h2 : (Dev.ok x1) := by
      dsimp only [x1]
      apply setBoot_ok
      with_reducible assumption
    apply ite_ok
    · with_reducible assumption
    · split
      · apply ite_ok
        · apply writeDo_ok
          with_reducible assumption
        · apply readDo_ok
          with_reducible assumption
      · apply busDo_ok
        with_reducible assumption

theorem heldTimeout_ok (i : Nat) (d : Dev) (hd : d.ok) : (heldTimeout i d).ok := by
  unfold heldTimeout
  split
  · with_reducible assumption
  · lift_lets
    intro x0 x1
    have h2 : (Dev.ok x1) := by
      dsimp only [x1]
      apply setBoot_ok
      with_reducible assumption
    split
    · apply respondErr_ok
      apply busError_ok
      with_reducible assumption
    · apply busFail_ok
      with_reducible assumption

theorem syncHere_ok (n : Nat) (m : Msg) (d : Dev) (hd : d.ok) : (syncHere n m d).ok := by
  unfold syncHere
  split
  · apply respond_ok
    apply syncOp_ok
    with_reducible assumption
  · apply respondErr_ok
    apply busError_ok
    with_reducible assumption

theorem watchHere_ok (n : Nat) (m : Msg) (d : Dev) (hd : d.ok) : (watchHere n m d).ok := by
  unfold watchHere
  split
  · apply respondErr_ok
    apply busError_ok
    with_reducible assumption
  · split
    · with_reducible assumption
    · lift_lets
      intro x0
      apply watchEval_ok
      apply setLinks_ok
      with_reducible assumption

theorem readRspHere_ok (m : Msg) (d : Dev) (hd : d.ok) : (readRspHere m d).ok := by
  unfold readRspHere
  split
  · split
    · lift_lets
      intro x0
      apply busDeliver_ok
      apply reqDone_ok
      with_reducible assumption
    · apply reqDone_ok
      with_reducible assumption
    · with_reducible assumption
  · with_reducible assumption

theorem writeAckHere_ok (m : Msg) (d : Dev) (hd : d.ok) : (writeAckHere m d).ok := by
  unfold writeAckHere
  split
  · split
    · apply emit_ok
      apply reqDone_ok
      with_reducible assumption
    · apply reqDone_ok
      with_reducible assumption
    · apply reqDone_ok
      with_reducible assumption
    · apply reqDone_ok
      with_reducible assumption
    · apply reqDone_ok
      with_reducible assumption
    · apply reqDone_ok
      with_reducible assumption
    · with_reducible assumption
  · with_reducible assumption

theorem errRspHere_ok (m : Msg) (d : Dev) (hd : d.ok) : (errRspHere m d).ok := by
  unfold errRspHere
  split
  · lift_lets
    intro x0
    have h1 : (Dev.ok x0) := by
      dsimp only [x0]
      apply reqDone_ok
      with_reducible assumption
    split
    · apply busFail_ok
      with_reducible assumption
    · apply busFail_ok
      with_reducible assumption
    · with_reducible assumption
    · apply trPoke_ok
      apply actAbandon_ok
      with_reducible assumption
    · apply trPoke_ok
      apply actAbandon_ok
      with_reducible assumption
    · apply trPoke_ok
      apply castleStop_ok
      with_reducible assumption
    · apply trPoke_ok
      apply castleStop_ok
      with_reducible assumption
    · with_reducible assumption
    · with_reducible assumption
  · with_reducible assumption

theorem notifyHere_ok (m : Msg) (d : Dev) (hd : d.ok) : (notifyHere m d).ok := by
  unfold notifyHere
  split
  · split
    · lift_lets
      intro x0 x1
      have h2 : (Dev.ok x0) := by
        dsimp only [x0]
        apply reqDone_ok
        with_reducible assumption
      apply setLinks_ok
      with_reducible assumption
    · lift_lets
      intro x3
      have h4 : (Dev.ok x3) := by
        dsimp only [x3]
        apply reqDone_ok
        with_reducible assumption
      split
      · apply ite_ok
        · apply trPoke_ok
          apply actSwitch_ok
          with_reducible assumption
        · with_reducible assumption
      · with_reducible assumption
    · apply trPoke_ok
      apply castleDo_ok
      apply reqDone_ok
      with_reducible assumption
    · with_reducible assumption
  · with_reducible assumption

theorem streamHere_ok (m : Msg) (d : Dev) (hd : d.ok) : (streamHere m d).ok := by
  unfold streamHere
  dsimp only
  split
  · split
    · exact hd
    · exact linkIn_ok _ _ _ _ (portUpd_ok _ _ _ hd)
  · exact hd

theorem ownRefused_ok (m : Msg) (d : Dev) (hd : d.ok) : (ownRefused m d).ok := by
  unfold ownRefused
  lift_lets
  intro x0
  have h1 : (Dev.ok x0) := by
    dsimp only [x0]
    apply routeErr_ok
    with_reducible assumption
  split
  · split
    · apply busFail_ok
      apply reqDone_ok
      with_reducible assumption
    · apply busFail_ok
      apply reqDone_ok
      with_reducible assumption
    · apply errRspHere_ok
      apply busError_ok
      with_reducible assumption
  · apply busError_ok
    with_reducible assumption

theorem downSettle_ok (n : Nat) (d : Dev) (hd : d.ok) : (downSettle n d).ok := by
  unfold downSettle
  apply ite_ok
  · with_reducible assumption
  · apply forEach_ok
    · intro y0 y1 y2
      apply ite_ok
      · apply routeErr_ok
        with_reducible assumption
      · apply ite_ok
        · apply ownRefused_ok
          with_reducible assumption
        · apply respondErr_ok
          apply busError_ok
          apply routeErr_ok
          with_reducible assumption
    · apply portUpd_ok
      with_reducible assumption

theorem rowTrainFlit_ok (n : Nat) (lanes : Nat) (b : List Byte) (d : Dev) (hd : d.ok) : (rowTrainFlit n lanes b d).ok := by
  unfold rowTrainFlit
  apply downSettle_ok
  apply trainFlit_ok
  with_reducible assumption

theorem rowTrainTimeout_ok (n : Nat) (d : Dev) (hd : d.ok) : (rowTrainTimeout n d).ok := by
  unfold rowTrainTimeout
  apply downSettle_ok
  apply trainTimeout_ok
  with_reducible assumption

theorem rowRead_ok (n : Nat) (m : Msg) (d : Dev) (hd : d.ok) : (rowRead n m d).ok := by
  unfold rowRead
  apply arrive_ok
  · intro y0 y1 y2
    apply readHere_ok
    with_reducible assumption
  · with_reducible assumption

theorem rowWrite_ok (n : Nat) (m : Msg) (d : Dev) (hd : d.ok) : (rowWrite n m d).ok := by
  unfold rowWrite
  apply arrive_ok
  · intro y0 y1 y2
    apply writeHere_ok
    with_reducible assumption
  · with_reducible assumption

theorem rowReadRsp_ok (n : Nat) (m : Msg) (d : Dev) (hd : d.ok) : (rowReadRsp n m d).ok := by
  unfold rowReadRsp
  apply arrive_ok
  · intro y0 y1 y2
    apply readRspHere_ok
    with_reducible assumption
  · with_reducible assumption

theorem rowWriteAck_ok (n : Nat) (m : Msg) (d : Dev) (hd : d.ok) : (rowWriteAck n m d).ok := by
  unfold rowWriteAck
  apply arrive_ok
  · intro y0 y1 y2
    apply writeAckHere_ok
    with_reducible assumption
  · with_reducible assumption

theorem rowErrRsp_ok (n : Nat) (m : Msg) (d : Dev) (hd : d.ok) : (rowErrRsp n m d).ok := by
  unfold rowErrRsp
  apply arrive_ok
  · intro y0 y1 y2
    apply errRspHere_ok
    with_reducible assumption
  · with_reducible assumption

theorem rowSyncOp_ok (n : Nat) (m : Msg) (d : Dev) (hd : d.ok) : (rowSyncOp n m d).ok := by
  unfold rowSyncOp
  apply arrive_ok
  · intro y0 y1 y2
    apply syncHere_ok
    with_reducible assumption
  · with_reducible assumption

theorem rowWatch_ok (n : Nat) (m : Msg) (d : Dev) (hd : d.ok) : (rowWatch n m d).ok := by
  unfold rowWatch
  apply arrive_ok
  · intro y0 y1 y2
    apply watchHere_ok
    with_reducible assumption
  · with_reducible assumption

theorem rowNotify_ok (n : Nat) (m : Msg) (d : Dev) (hd : d.ok) : (rowNotify n m d).ok := by
  unfold rowNotify
  apply arrive_ok
  · intro y0 y1 y2
    apply notifyHere_ok
    with_reducible assumption
  · with_reducible assumption

theorem rowStream_ok (n : Nat) (m : Msg) (d : Dev) (hd : d.ok) : (rowStream n m d).ok := by
  unfold rowStream
  apply arrive_ok
  · intro y0 y1 y2
    apply streamHere_ok
    with_reducible assumption
  · with_reducible assumption

theorem rowCensusStart_ok (n : Nat) (m : Msg) (d : Dev) (hd : d.ok) : (rowCensusStart n m d).ok := by
  unfold rowCensusStart
  apply arrive_ok
  · intro y0 y1 y2
    apply censusStart_ok
    with_reducible assumption
  · with_reducible assumption

theorem rowCensusPart_ok (n : Nat) (m : Msg) (d : Dev) (hd : d.ok) : (rowCensusPart n m d).ok := by
  unfold rowCensusPart
  apply arrive_ok
  · intro y0 y1 y2
    apply censusPart_ok
    with_reducible assumption
  · with_reducible assumption

theorem rowMsg_ok (n : Nat) (m : Msg) (d : Dev) (hd : d.ok) : (rowMsg n m d).ok := by
  unfold rowMsg
  split
  · apply rowRead_ok
    with_reducible assumption
  · apply rowWrite_ok
    with_reducible assumption
  · apply rowReadRsp_ok
    with_reducible assumption
  · apply rowWriteAck_ok
    with_reducible assumption
  · apply rowErrRsp_ok
    with_reducible assumption
  · apply rowSyncOp_ok
    with_reducible assumption
  · apply rowWatch_ok
    with_reducible assumption
  · apply rowNotify_ok
    with_reducible assumption
  · apply rowCensusStart_ok
    with_reducible assumption
  · apply rowCensusPart_ok
    with_reducible assumption
  · apply rowStream_ok
    with_reducible assumption
  · apply routeErr_ok
    with_reducible assumption

theorem watchRetry_ok (tag : Nat) (d : Dev) (hd : d.ok) : (watchRetry tag d).ok := by
  unfold watchRetry
  split
  · apply ite_ok
    · apply reqSend_ok
      with_reducible assumption
    · with_reducible assumption
  · with_reducible assumption

theorem linkTimeout_ok (tag : Nat) (d : Dev) (hd : d.ok) : (linkTimeout tag d).ok := by
  unfold linkTimeout
  split
  · split
    · apply busFail_ok
      apply reqDone_ok
      with_reducible assumption
    · apply busFail_ok
      apply reqDone_ok
      with_reducible assumption
    · apply reqDone_ok
      with_reducible assumption
    · apply reqDone_ok
      with_reducible assumption
    · with_reducible assumption
  · with_reducible assumption

theorem partTake_ok (n : Nat) (s : Slot) (g : List Byte × Bool) (d : Dev) (hd : d.ok) : (partTake n s g d).ok := by
  unfold partTake
  lift_lets
  intro x0 x1
  have h2 : (Dev.ok x0) := by
    dsimp only [x0]
    apply creditBack_ok
    with_reducible assumption
  clear_value x0 x1
  split
  · with_reducible assumption
  · apply ite_ok
    · apply rowMsg_ok
      apply portUpd_ok
      with_reducible assumption
    · apply portUpd_ok
      with_reducible assumption

theorem slotTake_ok (n : Nat) (s : Slot) (d : Dev) (hd : d.ok) : (slotTake n s d).ok := by
  have h := slotDecode_ok n s d hd
  unfold slotTake
  dsimp only
  split
  · exact hd
  · split
    · have hp := portUpd_ok n (fun p => { p with idle := mput p.idle s.ch (slotDecode n s d).1.1 }) _ h
      rcases routeBySrc (portUpd n (fun p => { p with idle := mput p.idle s.ch (slotDecode n s d).1.1 }) (slotDecode n s d).2)
        (epMk 4 n s.ch) with _ | id
      · exact hp
      · exact prodCheck_ok _ _ hp
    · split
      · exact linkIn_ok _ _ _ _ (portUpd_ok _ _ _ h)
      · exact partTake_ok _ _ _ _ h

theorem dataFlit_ok (n : Nat) (b : List Byte) (d : Dev) (hd : d.ok) : (dataFlit n b d).ok := by
  unfold dataFlit
  split
  · rename_i w0 w1 w2 w3
    have h4 := snd_of_eq w3 (by
      apply flitAccept_ok
      with_reducible assumption)
    apply foldl_ok
    · intro y5 y6 y7
      apply slotTake_ok
      with_reducible assumption
    · with_reducible assumption
  · rename_i w8 w9 w10
    have h11 := snd_of_eq w10 (by
      apply flitAccept_ok
      with_reducible assumption)
    with_reducible assumption

theorem linkWake_ok (n : Nat) (ok : Bool) (d : Dev) (hd : d.ok) : (linkWake n ok d).ok := by
  unfold linkWake
  apply ite_ok
  · apply wakeSource_ok
    with_reducible assumption
  · apply tlCnt_ok
    with_reducible assumption

end Sys2Proof.Machine
end

