-- ==== Sys2Proof/Laws/KeepsCompose.lean ====
section
/-! SUPPORT. Every operation of Machine/Compose.lean keeps the canonical form of the sparse stores
(`Dev.ok`): memory, error marks, poison marks and registers. -/

namespace Sys2Proof.Machine

theorem trAfter_ok (f : Dev → Dev) (d : Dev) (hf : ∀ v0, v0.ok → (f v0).ok) (hd : d.ok) : (trAfter f d).ok := by
  unfold trAfter
  apply trPoke_ok
  apply hf
  with_reducible assumption

theorem imgEnds_ok (f : Dev → Dev) (d : Dev) (hf : ∀ v0, v0.ok → (f v0).ok) (hd : d.ok) : (imgEnds f d).ok := by
  unfold imgEnds
  apply trPoke_ok
  apply autoActivate_ok
  apply hf
  with_reducible assumption

theorem admitRow_ok (ring : Option Nat) (d : Dev) (hd : d.ok) : (admitRow ring d).ok := by
  unfold admitRow
  split
  · apply admitRing_ok
    with_reducible assumption
  · apply trAdmit_ok
    with_reducible assumption

theorem creditRow_ok (id : Nat) (n : Nat) (d : Dev) (hd : d.ok) : (creditRow id n d).ok := by
  unfold creditRow
  lift_lets
  intro x0
  have h1 : (Dev.ok x0) := by
    dsimp only [x0]
    apply creditGrant_ok
    with_reducible assumption
  split
  · apply ite_ok
    · apply linkIn_ok
      with_reducible assumption
    · with_reducible assumption
  · with_reducible assumption

theorem windowRead_ok (master : Nat) (k : Nat) (off : Nat) (n : Nat) (a4 : Dev) (ha4 : a4.ok) : (windowRead master k off n a4).ok := by
  unfold windowRead
  apply fabricAccess_ok
  with_reducible assumption

theorem xWindowWrite_ok (master : Nat) (k : Nat) (off : Nat) (bs : List Byte) (p : Bool) (a5 : Dev) (ha5 : a5.ok) : (xWindowWrite master k off bs p a5).ok := by
  unfold xWindowWrite
  apply fabricAccess_ok
  with_reducible assumption

theorem xCommandWord_ok (master : Nat) (k : Nat) (code : Nat) (a3 : Dev) (ha3 : a3.ok) : (xCommandWord master k code a3).ok := by
  unfold xCommandWord
  apply xWindowWrite_ok
  with_reducible assumption

theorem xKeyWrite_ok (master : Nat) (k : Nat) (second : Bool) (a3 : Dev) (ha3 : a3.ok) : (xKeyWrite master k second a3).ok := by
  unfold xKeyWrite
  split
  · apply xWindowWrite_ok
    with_reducible assumption
  · apply xWindowWrite_ok
    with_reducible assumption

theorem stackOn_ok (k : Nat) (d : Dev) (hd : d.ok) : (stackOn k d).ok := by
  unfold stackOn
  lift_lets
  intro x0
  apply ite_ok
  · apply aryKick_ok
    apply eraseKick_ok
    apply stackLoad_ok
    apply domsOn_ok
    apply setBoot_ok
    with_reducible assumption
  · with_reducible assumption

end Sys2Proof.Machine
end

