-- ==== Sys2Proof/Laws/PerInstr.lean ====
section
/-! SUPPORT. The family Fields: a command whose operands fit completes, and one whose operands do not fit is refused as no command.
The family Clock: which rows need the clock of PD_SYS. -/

namespace Sys2Proof.Laws.Fields

open Sys2Proof.Machine

/-- Well-formedness decides the outcome: the operands fit and every state has a next one with the same queue, or they do not and the
command is refused. -/
def Statement (i : Instr) : Prop :=
  (i.wf = true ∧ ∀ s, ∃ d, exec i s = .next { s with dev := d }) ∨ (i.wf = false ∧ ∀ s, exec i s = .refused .illFormed)

theorem of_lift {i : Instr} {ok : Bool} {f : Dev → Dev} (hw : i.wf = ok) (he : ∀ s, exec i s = lift ok f s) : Statement i := by
  cases ok
  · exact .inr ⟨hw, he⟩
  · exact .inl ⟨hw, fun s => ⟨_, he s⟩⟩

theorem of_sys {i : Instr} {ok : Bool} {f : Dev → Dev} (hw : i.wf = ok) (he : ∀ s, exec i s = liftSys ok f s) : Statement i :=
  of_lift (f := fun d => if sysClocked d then f d else d) hw he

theorem registerWrite (addr value : Nat) : Statement (.registerWrite addr value) := of_sys rfl (fun _ => rfl)
theorem fabricAccess (x : BusAcc) : Statement (.fabricAccess x) := of_sys rfl (fun _ => rfl)
theorem linkAccessTimeout (tag : Nat) : Statement (.linkAccessTimeout tag) := of_sys rfl (fun _ => rfl)
theorem heldAccessRelease (i : Nat) : Statement (.heldAccessRelease i) := of_sys rfl (fun _ => rfl)
theorem powerUpAccessTimeout (i : Nat) : Statement (.powerUpAccessTimeout i) := of_sys rfl (fun _ => rfl)
theorem sysNodeLock : Statement (.sysNodeLock) := of_sys rfl (fun _ => rfl)
theorem imgLoadGo : Statement (.imgLoadGo) := of_sys rfl (fun _ => rfl)
theorem imgPass1ReadDone : Statement (.imgPass1ReadDone) := of_sys rfl (fun _ => rfl)
theorem imgSignatureDone : Statement (.imgSignatureDone) := of_sys rfl (fun _ => rfl)
theorem imgPass2Done (tr : CompatOut) : Statement (.imgPass2Done tr) := of_sys rfl (fun _ => rfl)
theorem imgSourceFault (code off : Nat) : Statement (.imgSourceFault code off) := of_sys rfl (fun _ => rfl)
theorem imgLoadAbort : Statement (.imgLoadAbort) := of_sys rfl (fun _ => rfl)
theorem imgQueuedStart : Statement (.imgQueuedStart) := of_sys rfl (fun _ => rfl)
theorem imgActGo : Statement (.imgActGo) := of_sys rfl (fun _ => rfl)
theorem actDrainDone : Statement (.actDrainDone) := of_sys rfl (fun _ => rfl)
theorem actConstCopyDone : Statement (.actConstCopyDone) := of_sys rfl (fun _ => rfl)
theorem actBarrierRelease : Statement (.actBarrierRelease) := of_sys rfl (fun _ => rfl)
theorem actTimeout : Statement (.actTimeout) := of_sys rfl (fun _ => rfl)
theorem start (h : CmdHdr) (p : StartP) : Statement (.start h p) := of_sys rfl (fun _ => rfl)
theorem admitBatch (ring : Option Nat) : Statement (.admitBatch ring) := of_sys rfl (fun _ => rfl)
theorem stageFire (k written lackIn lackCred lackWait : Nat) : Statement (.stageFire k written lackIn lackCred lackWait) := of_sys rfl (fun _ => rfl)
theorem firingEnd (k id : Nat) : Statement (.firingEnd k id) := of_sys rfl (fun _ => rfl)
theorem fifoItemPresent (id k : Nat) (upset : ErrPat) : Statement (.fifoItemPresent id k upset) := of_sys rfl (fun _ => rfl)
theorem fifoCreditGrant (id n : Nat) : Statement (.fifoCreditGrant id n) := of_sys rfl (fun _ => rfl)
theorem fifoMark (id k : Nat) : Statement (.fifoMark id k) := of_sys rfl (fun _ => rfl)
theorem fifoRewind (id k : Nat) : Statement (.fifoRewind id k) := of_sys rfl (fun _ => rfl)
theorem fifoRelease (id k : Nat) : Statement (.fifoRelease id k) := of_sys rfl (fun _ => rfl)
theorem fifoStarved (id : Nat) : Statement (.fifoStarved id) := of_sys rfl (fun _ => rfl)
theorem fcPinHoldExpiry (p : Nat) : Statement (.fcPinHoldExpiry p) := of_sys rfl (fun _ => rfl)
theorem fifoWmWrite (id v : Nat) : Statement (.fifoWmWrite id v) := of_sys rfl (fun _ => rfl)
theorem stageBatchEnd (k id : Nat) : Statement (.stageBatchEnd k id) := of_sys rfl (fun _ => rfl)
theorem stageSignalIssue (k id : Nat) : Statement (.stageSignalIssue k id) := of_sys rfl (fun _ => rfl)
theorem batchComplete (p : Nat) : Statement (.batchComplete p) := of_sys rfl (fun _ => rfl)
theorem wsFetch (k id : Nat) : Statement (.wsFetch k id) := of_sys rfl (fun _ => rfl)
theorem auFetch (k id : Nat) : Statement (.auFetch k id) := of_sys rfl (fun _ => rfl)
theorem auWrite (k id : Nat) : Statement (.auWrite k id) := of_sys rfl (fun _ => rfl)
theorem fetchArrival (k id : Nat) (weights : Bool) (stalled : Nat) : Statement (.fetchArrival k id weights stalled) := of_sys rfl (fun _ => rfl)
theorem engWaitTimeout (k id w : Nat) : Statement (.engWaitTimeout k id w) := of_sys rfl (fun _ => rfl)
theorem engDrain (k : Nat) : Statement (.engDrain k) := of_sys rfl (fun _ => rfl)
theorem engDrained (k : Nat) : Statement (.engDrained k) := of_sys rfl (fun _ => rfl)
theorem engDrainSlow (k : Nat) : Statement (.engDrainSlow k) := of_sys rfl (fun _ => rfl)
theorem engEnable (k : Nat) : Statement (.engEnable k) := of_sys rfl (fun _ => rfl)
theorem engKill (k : Nat) : Statement (.engKill k) := of_sys rfl (fun _ => rfl)
theorem engFailDeclare (k : Nat) : Statement (.engFailDeclare k) := of_sys rfl (fun _ => rfl)
theorem engCntClr (k : Nat) : Statement (.engCntClr k) := of_sys rfl (fun _ => rfl)
theorem fireHang (k : Nat) : Statement (.fireHang k) := of_sys rfl (fun _ => rfl)
theorem engFault (k cause : Nat) : Statement (.engFault k cause) := of_sys rfl (fun _ => rfl)
theorem arbRelocation (k : Nat) : Statement (.arbRelocation k) := of_sys rfl (fun _ => rfl)
theorem shardMigration (r : ReloadIn) : Statement (.shardMigration r) := of_sys rfl (fun _ => rfl)
theorem qzSatWindowEnd (k n : Nat) : Statement (.qzSatWindowEnd k n) := of_sys rfl (fun _ => rfl)
theorem qzScaleCalibrate (k n v : Nat) : Statement (.qzScaleCalibrate k n v) := of_sys rfl (fun _ => rfl)
theorem arrayWindowRead (master k off n : Nat) : Statement (.arrayWindowRead master k off n) := of_sys rfl (fun _ => rfl)
theorem senseComplete (k p : Nat) (tries : List (List (Option Nat))) (raw : FMap ErrPat) : Statement (.senseComplete k p tries raw) := of_sys rfl (fun _ => rfl)
theorem arrayReadTimeout (master k : Nat) : Statement (.arrayReadTimeout master k) := of_sys rfl (fun _ => rfl)
theorem stackPowerOn (k : Nat) : Statement (.stackPowerOn k) := of_sys rfl (fun _ => rfl)
theorem autoSuspend (k g : Nat) : Statement (.autoSuspend k g) := of_sys rfl (fun _ => rfl)
theorem autoResume (k g : Nat) : Statement (.autoResume k g) := of_sys rfl (fun _ => rfl)
theorem arySeqKey (master k : Nat) (second : Bool) : Statement (.arySeqKey master k second) := of_sys rfl (fun _ => rfl)
theorem aryStrayWrite (master k off : Nat) (data : List Byte) : Statement (.aryStrayWrite master k off data) := of_sys rfl (fun _ => rfl)
theorem arySeqTimeout (k : Nat) : Statement (.arySeqTimeout k) := of_sys rfl (fun _ => rfl)
theorem aryErase (master k : Nat) : Statement (.aryErase master k) := of_sys rfl (fun _ => rfl)
theorem aryProgramBuffer (master k : Nat) : Statement (.aryProgramBuffer master k) := of_sys rfl (fun _ => rfl)
theorem aryBufferWrite (master k off : Nat) (data : List Byte) (poison : Bool) : Statement (.aryBufferWrite master k off data poison) := of_sys rfl (fun _ => rfl)
theorem aryCommit (master k : Nat) : Statement (.aryCommit master k) := of_sys rfl (fun _ => rfl)
theorem aryPbTimeout (k : Nat) : Statement (.aryPbTimeout k) := of_sys rfl (fun _ => rfl)
theorem arySuspend (master k : Nat) : Statement (.arySuspend master k) := of_sys rfl (fun _ => rfl)
theorem arySuspendHeldExpiry (k : Nat) : Statement (.arySuspendHeldExpiry k) := of_sys rfl (fun _ => rfl)
theorem aryResume (master k : Nat) : Statement (.aryResume master k) := of_sys rfl (fun _ => rfl)
theorem aryAbort (master k : Nat) : Statement (.aryAbort master k) := of_sys rfl (fun _ => rfl)
theorem aryStatus (master k : Nat) : Statement (.aryStatus master k) := of_sys rfl (fun _ => rfl)
theorem aryIdentify (master k : Nat) : Statement (.aryIdentify master k) := of_sys rfl (fun _ => rfl)
theorem aryContinuousRead (master k : Nat) : Statement (.aryContinuousRead master k) := of_sys rfl (fun _ => rfl)
theorem aryPasswordUnlock (master k : Nat) : Statement (.aryPasswordUnlock master k) := of_sys rfl (fun _ => rfl)
theorem aryLock (master k : Nat) : Statement (.aryLock master k) := of_sys rfl (fun _ => rfl)
theorem pwTableWriteDone (k : Nat) : Statement (.pwTableWriteDone k) := of_sys rfl (fun _ => rfl)
theorem aryPowerGrant : Statement (.aryPowerGrant) := of_sys rfl (fun _ => rfl)
theorem aryOpDone (k g us : Nat) (ok : Bool) : Statement (.aryOpDone k g us ok) := of_sys rfl (fun _ => rfl)
theorem aryRetire (k b : Nat) : Statement (.aryRetire k b) := of_sys rfl (fun _ => rfl)
theorem load (h : CmdHdr) (addr len slot side kind nsid : Nat) : Statement (.load h addr len slot side kind nsid) := of_sys rfl (fun _ => rfl)
theorem loadQueuedStart : Statement (.loadQueuedStart) := of_sys rfl (fun _ => rfl)
theorem loadManifestArrival : Statement (.loadManifestArrival) := of_sys rfl (fun _ => rfl)
theorem nvmeCompletion (status : Nat) (shard : Option Nat) (data : List Byte) : Statement (.nvmeCompletion status shard data) := of_sys rfl (fun _ => rfl)
theorem shardArrivalDone (i : Nat) : Statement (.shardArrivalDone i) := of_sys rfl (fun _ => rfl)
theorem shardReadbackDone (i : Nat) : Statement (.shardReadbackDone i) := of_sys rfl (fun _ => rfl)
theorem loadSourceFault (shard : Option Nat) (poison : Bool) (cause : Nat) : Statement (.loadSourceFault shard poison cause) := of_sys rfl (fun _ => rfl)
theorem loadSourceTimeout (shard : Option Nat) : Statement (.loadSourceTimeout shard) := of_sys rfl (fun _ => rfl)
theorem leDisable : Statement (.leDisable) := of_sys rfl (fun _ => rfl)
theorem leEnable : Statement (.leEnable) := of_sys rfl (fun _ => rfl)
theorem patrolLapStart : Statement (.patrolLapStart) := of_sys rfl (fun _ => rfl)
theorem patrolShardCheck : Statement (.patrolShardCheck) := of_sys rfl (fun _ => rfl)
theorem castle (h : CmdHdr) (slot flags barrier : Nat) : Statement (.castle h slot flags barrier) := of_sys rfl (fun _ => rfl)
theorem castleBarrierRelease (slot : Nat) : Statement (.castleBarrierRelease slot) := of_sys rfl (fun _ => rfl)
theorem castleTimeout (slot : Nat) : Statement (.castleTimeout slot) := of_sys rfl (fun _ => rfl)
theorem castleHoldExpiry (slot : Nat) : Statement (.castleHoldExpiry slot) := of_sys rfl (fun _ => rfl)
theorem arbSlotExpire : Statement (.arbSlotExpire) := of_sys rfl (fun _ => rfl)
theorem release (h : CmdHdr) (slot side : Nat) : Statement (.release h slot side) := of_sys rfl (fun _ => rfl)
theorem sessionClose (h : CmdHdr) (slot session : Nat) : Statement (.sessionClose h slot session) := of_sys rfl (fun _ => rfl)
theorem tmPlace (src : TmSrc) (t : TmDesc) : Statement (.tmPlace src t) := of_sys rfl (fun _ => rfl)
theorem tmFree (src : TmSrc) (t : TmDesc) : Statement (.tmFree src t) := of_sys rfl (fun _ => rfl)
theorem tmPromote (src : TmSrc) (t : TmDesc) : Statement (.tmPromote src t) := of_sys rfl (fun _ => rfl)
theorem tmCapture (src : TmSrc) (t : TmDesc) : Statement (.tmCapture src t) := of_sys rfl (fun _ => rfl)
theorem tmPin (src : TmSrc) (t : TmDesc) : Statement (.tmPin src t) := of_sys rfl (fun _ => rfl)
theorem tmUnpin (src : TmSrc) (t : TmDesc) : Statement (.tmUnpin src t) := of_sys rfl (fun _ => rfl)
theorem tmFlush (src : TmSrc) (t : TmDesc) : Statement (.tmFlush src t) := of_sys rfl (fun _ => rfl)
theorem tmTileCopyDone (n : Nat) : Statement (.tmTileCopyDone n) := of_sys rfl (fun _ => rfl)
theorem tmMappingQuiesced (n : Nat) : Statement (.tmMappingQuiesced n) := of_sys rfl (fun _ => rfl)
theorem tmHotInterval : Statement (.tmHotInterval) := of_sys rfl (fun _ => rfl)
theorem tmDisable : Statement (.tmDisable) := of_sys rfl (fun _ => rfl)
theorem tmEnable : Statement (.tmEnable) := of_sys rfl (fun _ => rfl)
theorem train (h : CmdHdr) (addr : Nat) : Statement (.train h addr) := of_sys rfl (fun _ => rfl)
theorem trainSetupDone : Statement (.trainSetupDone) := of_sys rfl (fun _ => rfl)
theorem trainCommitDone : Statement (.trainCommitDone) := of_sys rfl (fun _ => rfl)
theorem scrubRead (st : Nat) (upset : ErrPat) : Statement (.scrubRead st upset) := of_sys rfl (fun _ => rfl)
theorem intgScrubSlow (st : Nat) : Statement (.intgScrubSlow st) := of_sys rfl (fun _ => rfl)
theorem intgFlipArm (v : Nat) : Statement (.intgFlipArm v) := of_sys rfl (fun _ => rfl)
theorem arbHoldClassify (i : Nat) (rs : List ReloadIn) : Statement (.arbHoldClassify i rs) := of_sys rfl (fun _ => rfl)
theorem batchReplay (p seq : Nat) : Statement (.batchReplay p seq) := of_sys rfl (fun _ => rfl)
theorem arbHoldReplay (i : Nat) : Statement (.arbHoldReplay i) := of_sys rfl (fun _ => rfl)
theorem arbHoldResign (i : Nat) : Statement (.arbHoldResign i) := of_sys rfl (fun _ => rfl)
theorem shardReload (r : ReloadIn) : Statement (.shardReload r) := of_sys rfl (fun _ => rfl)
theorem reloadRetryTimer (r : ReloadIn) : Statement (.reloadRetryTimer r) := of_sys rfl (fun _ => rfl)
theorem recovRetryNow (rs : List ReloadIn) : Statement (.recovRetryNow rs) := of_sys rfl (fun _ => rfl)
theorem stackDegraded (k : Nat) (rs : List ReloadIn) : Statement (.stackDegraded k rs) := of_sys rfl (fun _ => rfl)
theorem stackDead (k : Nat) (rs : List ReloadIn) : Statement (.stackDead k rs) := of_sys rfl (fun _ => rfl)
theorem arbBlockRetire (k b : Nat) (rs : List ReloadIn) : Statement (.arbBlockRetire k b rs) := of_sys rfl (fun _ => rfl)
theorem arbCeRepeatResponse (st a : Nat) (rs : List ReloadIn) : Statement (.arbCeRepeatResponse st a rs) := of_sys rfl (fun _ => rfl)
theorem arbWatchdogExpiry : Statement (.arbWatchdogExpiry) := of_sys rfl (fun _ => rfl)
theorem poweredTimeSave : Statement (.poweredTimeSave) := of_sys rfl (fun _ => rfl)
theorem scoreRecordQueue (event kind index : Nat) (args : List Nat) : Statement (.scoreRecordQueue event kind index args) := of_sys rfl (fun _ => rfl)
theorem scorePost (master : Nat) : Statement (.scorePost master) := of_sys rfl (fun _ => rfl)
theorem scoreFlush : Statement (.scoreFlush) := of_sys rfl (fun _ => rfl)
theorem scoreFlushTimeout : Statement (.scoreFlushTimeout) := of_sys rfl (fun _ => rfl)
theorem scorePageProgrammed : Statement (.scorePageProgrammed) := of_lift rfl (fun _ => rfl)
theorem scoreSectorErased : Statement (.scoreSectorErased) := of_lift rfl (fun _ => rfl)
theorem scoreScanDone : Statement (.scoreScanDone) := of_lift rfl (fun _ => rfl)
theorem powerFail (vhold : Bool) : Statement (.powerFail vhold) := of_lift rfl (fun _ => rfl)
theorem cmdTailWrite (n v : Nat) : Statement (.cmdTailWrite n v) := of_sys rfl (fun _ => rfl)
theorem cplHeadWrite (n v : Nat) : Statement (.cplHeadWrite n v) := of_sys rfl (fun _ => rfl)
theorem ringEnable (n : Nat) : Statement (.ringEnable n) := of_sys rfl (fun _ => rfl)
theorem ringDisable (n : Nat) : Statement (.ringDisable n) := of_sys rfl (fun _ => rfl)
theorem commandDispatch : Statement (.commandDispatch) := of_sys rfl (fun _ => rfl)
theorem completionRelease (n : Nat) : Statement (.completionRelease n) := of_sys rfl (fun _ => rfl)
theorem ringCplStall (n : Nat) : Statement (.ringCplStall n) := of_sys rfl (fun _ => rfl)
theorem ringModTimer (n : Nat) : Statement (.ringModTimer n) := of_sys rfl (fun _ => rfl)
theorem ringProgressTimer (t : Nat) : Statement (.ringProgressTimer t) := of_sys rfl (fun _ => rfl)
theorem nop (h : CmdHdr) : Statement (.nop h) := of_sys rfl (fun _ => rfl)
theorem query (h : CmdHdr) (kind index : Nat) : Statement (.query h kind index) := of_sys rfl (fun _ => rfl)
theorem adjourn (h : CmdHdr) (t : Nat) : Statement (.adjourn h t) := of_sys rfl (fun _ => rfl)
theorem resume (h : CmdHdr) (t : Nat) : Statement (.resume h t) := of_sys rfl (fun _ => rfl)
theorem resign (h : CmdHdr) (t : Nat) : Statement (.resign h t) := of_sys rfl (fun _ => rfl)
theorem imgLoad (h : CmdHdr) (src len : Nat) : Statement (.imgLoad h src len) := of_sys rfl (fun _ => rfl)
theorem imgActivate (h : CmdHdr) (en barrier : Nat) : Statement (.imgActivate h en barrier) := of_sys rfl (fun _ => rfl)
theorem census (h : CmdHdr) (expect : Nat) : Statement (.census h expect) := of_sys rfl (fun _ => rfl)
theorem tlEnable (n : Nat) : Statement (.tlEnable n) := of_sys rfl (fun _ => rfl)
theorem tlDisable (n : Nat) : Statement (.tlDisable n) := of_sys rfl (fun _ => rfl)
theorem tlTrainFlit (n lanes : Nat) (flit : List Byte) : Statement (.tlTrainFlit n lanes flit) := of_sys rfl (fun _ => rfl)
theorem tlTrainTimeout (n : Nat) : Statement (.tlTrainTimeout n) := of_sys rfl (fun _ => rfl)
theorem tlDataFlit (n : Nat) (flit : List Byte) : Statement (.tlDataFlit n flit) := of_sys rfl (fun _ => rfl)
theorem tlIdleFlit (n : Nat) (flit : List Byte) : Statement (.tlIdleFlit n flit) := of_sys rfl (fun _ => rfl)
theorem tlAckFlit (n : Nat) (flit : List Byte) : Statement (.tlAckFlit n flit) := of_sys rfl (fun _ => rfl)
theorem tlNakFlit (n : Nat) (flit : List Byte) : Statement (.tlNakFlit n flit) := of_sys rfl (fun _ => rfl)
theorem tlSleepNotice (n : Nat) (flit : List Byte) : Statement (.tlSleepNotice n flit) := of_sys rfl (fun _ => rfl)
theorem tlReplayTimeout (n : Nat) : Statement (.tlReplayTimeout n) := of_sys rfl (fun _ => rfl)
theorem tlAckTimer (n : Nat) : Statement (.tlAckTimer n) := of_sys rfl (fun _ => rfl)
theorem tlIdleInsert (n : Nat) : Statement (.tlIdleInsert n) := of_sys rfl (fun _ => rfl)
theorem tlVcIdleSend (n v : Nat) : Statement (.tlVcIdleSend n v) := of_sys rfl (fun _ => rfl)
theorem tlFcInChange (n : Nat) (level : Bool) : Statement (.tlFcInChange n level) := of_sys rfl (fun _ => rfl)
theorem tlFcStuck (n : Nat) : Statement (.tlFcStuck n) := of_sys rfl (fun _ => rfl)
theorem tlFpSettleExpiry (n : Nat) : Statement (.tlFpSettleExpiry n) := of_sys rfl (fun _ => rfl)
theorem tlWakeRetry (n : Nat) : Statement (.tlWakeRetry n) := of_sys rfl (fun _ => rfl)
theorem linkWakeDetect (n : Nat) (ok : Bool) : Statement (.linkWakeDetect n ok) := of_lift rfl (fun _ => rfl)
theorem read (n : Nat) (m : Msg) : Statement (.read n m) := of_sys rfl (fun _ => rfl)
theorem write (n : Nat) (m : Msg) : Statement (.write n m) := of_sys rfl (fun _ => rfl)
theorem readRsp (n : Nat) (m : Msg) : Statement (.readRsp n m) := of_sys rfl (fun _ => rfl)
theorem writeAck (n : Nat) (m : Msg) : Statement (.writeAck n m) := of_sys rfl (fun _ => rfl)
theorem errRsp (n : Nat) (m : Msg) : Statement (.errRsp n m) := of_sys rfl (fun _ => rfl)
theorem syncOp (n : Nat) (m : Msg) : Statement (.syncOp n m) := of_sys rfl (fun _ => rfl)
theorem watch (n : Nat) (m : Msg) : Statement (.watch n m) := of_sys rfl (fun _ => rfl)
theorem notify (n : Nat) (m : Msg) : Statement (.notify n m) := of_sys rfl (fun _ => rfl)
theorem watchRetry (tag : Nat) : Statement (.watchRetry tag) := of_sys rfl (fun _ => rfl)
theorem stream (n : Nat) (m : Msg) : Statement (.stream n m) := of_sys rfl (fun _ => rfl)
theorem censusStart (n : Nat) (m : Msg) : Statement (.censusStart n m) := of_sys rfl (fun _ => rfl)
theorem censusPart (n : Nat) (m : Msg) : Statement (.censusPart n m) := of_sys rfl (fun _ => rfl)
theorem censusChildTimeout : Statement (.censusChildTimeout) := of_sys rfl (fun _ => rfl)
theorem counterAdd (master n arg : Nat) : Statement (.counterAdd master n arg) := of_sys rfl (fun _ => rfl)
theorem semaphoreRelease (master n arg : Nat) : Statement (.semaphoreRelease master n arg) := of_sys rfl (fun _ => rfl)
theorem barrierArrive (master n : Nat) : Statement (.barrierArrive master n) := of_sys rfl (fun _ => rfl)
theorem eventFlagSet (master n arg : Nat) : Statement (.eventFlagSet master n arg) := of_sys rfl (fun _ => rfl)
theorem reductionContribute (master n arg : Nat) : Statement (.reductionContribute master n arg) := of_sys rfl (fun _ => rfl)
theorem syncTryAcquire (master n : Nat) : Statement (.syncTryAcquire master n) := of_sys rfl (fun _ => rfl)
theorem syncFieldStore (n off v : Nat) : Statement (.syncFieldStore n off v) := of_sys rfl (fun _ => rfl)
theorem syncPairWrite (m : Nat) (data : List Byte) (poison : Bool) : Statement (.syncPairWrite m data poison) := of_sys rfl (fun _ => rfl)
theorem icSetpend (id : Nat) : Statement (.icSetpend id) := of_sys rfl (fun _ => rfl)
theorem icClrpend (id : Nat) (raised : Bool) : Statement (.icClrpend id raised) := of_sys rfl (fun _ => rfl)
theorem icVectorAccept (c : Nat) (raised : Bool) : Statement (.icVectorAccept c raised) := of_sys rfl (fun _ => rfl)
theorem icEoi (c id : Nat) : Statement (.icEoi c id) := of_sys rfl (fun _ => rfl)
theorem icEnWrite (m v : Nat) (race : Option Nat) : Statement (.icEnWrite m v race) := of_sys rfl (fun _ => rfl)
theorem pmuRequestEntry (target : Nat) : Statement (.pmuRequestEntry target) := of_sys rfl (fun _ => rfl)
theorem pmuRequestExit : Statement (.pmuRequestExit) := of_sys rfl (fun _ => rfl)
theorem autoIdleEntry : Statement (.autoIdleEntry) := of_sys rfl (fun _ => rfl)
theorem autoRunExit : Statement (.autoRunExit) := of_sys rfl (fun _ => rfl)
theorem agentAnswer (a : Nat) (busy : Bool) : Statement (.agentAnswer a busy) := of_sys rfl (fun _ => rfl)
theorem pmuHandshakeTimeout : Statement (.pmuHandshakeTimeout) := of_sys rfl (fun _ => rfl)
theorem wakeSource (src : Nat) : Statement (.wakeSource src) := of_lift rfl (fun _ => rfl)
theorem aonCalibrate : Statement (.aonCalibrate) := of_lift rfl (fun _ => rfl)
theorem aonCalDone (xtal rc : Nat) : Statement (.aonCalDone xtal rc) := of_lift rfl (fun _ => rfl)
theorem aonClockFallback : Statement (.aonClockFallback) := of_lift rfl (fun _ => rfl)
theorem aonClockRetry : Statement (.aonClockRetry) := of_lift rfl (fun _ => rfl)
theorem aonCrystalStable : Statement (.aonCrystalStable) := of_lift rfl (fun _ => rfl)
theorem aonAlarm (n : Nat) : Statement (.aonAlarm n) := of_lift rfl (fun _ => rfl)
theorem pmuDomainFault (dom kind : Nat) : Statement (.pmuDomainFault dom kind) := of_lift rfl (fun _ => rfl)
theorem powerOnReset : Statement (.powerOnReset) := of_lift rfl (fun _ => rfl)
theorem supplyReset : Statement (.supplyReset) := of_lift rfl (fun _ => rfl)
theorem pinReset (cool : Bool) : Statement (.pinReset cool) := of_lift rfl (fun _ => rfl)
theorem softwareReset (code : Nat) : Statement (.softwareReset code) := of_sys rfl (fun _ => rfl)
theorem perstFall : Statement (.perstFall) := of_lift rfl (fun _ => rfl)
theorem keyRecover (type : Nat) : Statement (.keyRecover type) := of_sys rfl (fun _ => rfl)
theorem arbBootCfg (base compat : Nat) : Statement (.arbBootCfg base compat) := of_sys rfl (fun _ => rfl)
theorem keyFuseProg (slot : Nat) : Statement (.keyFuseProg slot) := of_sys rfl (fun _ => rfl)
theorem keyFuseRevoke : Statement (.keyFuseRevoke) := of_sys rfl (fun _ => rfl)
theorem keyFuseRaise (level : Nat) : Statement (.keyFuseRaise level) := of_sys rfl (fun _ => rfl)
theorem keyFuseDone (ok : Bool) : Statement (.keyFuseDone ok) := of_sys rfl (fun _ => rfl)
theorem keyAttest : Statement (.keyAttest) := of_sys rfl (fun _ => rfl)
theorem keyAttestDone : Statement (.keyAttestDone) := of_sys rfl (fun _ => rfl)
theorem ddrTrain : Statement (.ddrTrain) := of_sys rfl (fun _ => rfl)
theorem ddrTrainDone (mask : Nat) : Statement (.ddrTrainDone mask) := of_sys rfl (fun _ => rfl)
theorem ddrTrainTimeout (mask : Nat) : Statement (.ddrTrainTimeout mask) := of_sys rfl (fun _ => rfl)
theorem ddrInitDone (rs : List ReloadIn) : Statement (.ddrInitDone rs) := of_sys rfl (fun _ => rfl)
theorem thermalTrip (vhold : Bool) : Statement (.thermalTrip vhold) := of_lift rfl (fun _ => rfl)
theorem jtagExtest (on : Bool) : Statement (.jtagExtest on) := of_lift rfl (fun _ => rfl)
theorem resetRelease (strap : Straps) : Statement (.resetRelease strap) := of_lift rfl (fun _ => rfl)
theorem ethRxFrame (m : Nat) (frame : List Byte) (ok : Bool) : Statement (.ethRxFrame m frame ok) := of_sys rfl (fun _ => rfl)
theorem ethRxTailWrite (m v : Nat) : Statement (.ethRxTailWrite m v) := of_sys rfl (fun _ => rfl)
theorem ethTxTailWrite (m v : Nat) : Statement (.ethTxTailWrite m v) := of_sys rfl (fun _ => rfl)
theorem ethTxDone (m : Nat) : Statement (.ethTxDone m) := of_sys rfl (fun _ => rfl)
theorem ethLinkDown (m : Nat) : Statement (.ethLinkDown m) := of_sys rfl (fun _ => rfl)
theorem usbOutTransfer (data : List Byte) (ended : Bool) : Statement (.usbOutTransfer data ended) := of_sys rfl (fun _ => rfl)
theorem usbInDone : Statement (.usbInDone) := of_sys rfl (fun _ => rfl)
theorem usbOutTailWrite (v : Nat) : Statement (.usbOutTailWrite v) := of_sys rfl (fun _ => rfl)
theorem usbInTailWrite (v : Nat) : Statement (.usbInTailWrite v) := of_sys rfl (fun _ => rfl)
theorem usbBusReset (speed : Nat) : Statement (.usbBusReset speed) := of_sys rfl (fun _ => rfl)
theorem csiFrameStart (n num : Nat) : Statement (.csiFrameStart n num) := of_sys rfl (fun _ => rfl)
theorem csiFrameEnd (n width lines dt vc : Nat) (data : List Byte) : Statement (.csiFrameEnd n width lines dt vc data) := of_sys rfl (fun _ => rfl)
theorem csiFrameTimeout (n : Nat) : Statement (.csiFrameTimeout n) := of_sys rfl (fun _ => rfl)
theorem csiFbRel (n i : Nat) : Statement (.csiFbRel n i) := of_sys rfl (fun _ => rfl)
theorem csiFbCfgWrite (n v : Nat) : Statement (.csiFbCfgWrite n v) := of_sys rfl (fun _ => rfl)
theorem tdmFrame (samples : List Nat) (onTime : Bool) : Statement (.tdmFrame samples onTime) := of_sys rfl (fun _ => rfl)
theorem tdmRingDrain : Statement (.tdmRingDrain) := of_sys rfl (fun _ => rfl)
theorem tdmFsLost : Statement (.tdmFsLost) := of_sys rfl (fun _ => rfl)
theorem tdmCtlWrite (v : Nat) : Statement (.tdmCtlWrite v) := of_sys rfl (fun _ => rfl)
theorem vadWindow (sum : Nat) : Statement (.vadWindow sum) := of_lift rfl (fun _ => rfl)
theorem pcieLinkTrain : Statement (.pcieLinkTrain) := of_sys rfl (fun _ => rfl)
theorem pcieLinkFail : Statement (.pcieLinkFail) := of_sys rfl (fun _ => rfl)
theorem pcieConfigAccess (master off n : Nat) (wr : Bool) (data : List Byte) (answer : Option (List Byte)) : Statement (.pcieConfigAccess master off n wr data answer) := of_sys rfl (fun _ => rfl)
theorem cpuHoldWrite (v : Nat) : Statement (.cpuHoldWrite v) := of_sys rfl (fun _ => rfl)
theorem cpuFreqWrite (v : Nat) : Statement (.cpuFreqWrite v) := of_sys rfl (fun _ => rfl)
theorem pcieLinkUp (rate width : Nat) : Statement (.pcieLinkUp rate width) := of_sys rfl (fun _ => rfl)
theorem ethBlockLock (m : Nat) : Statement (.ethBlockLock m) := of_sys rfl (fun _ => rfl)
theorem usbBusSuspend (on : Bool) : Statement (.usbBusSuspend on) := of_sys rfl (fun _ => rfl)
theorem usbStandardRequest (setup : List Byte) : Statement (.usbStandardRequest setup) := of_sys rfl (fun _ => rfl)

/-- Every command, case by case. -/
theorem every (i : Instr) : Statement i := by
  cases i with
  | registerWrite addr value => exact registerWrite addr value
  | fabricAccess x => exact fabricAccess x
  | linkAccessTimeout tag => exact linkAccessTimeout tag
  | heldAccessRelease i => exact heldAccessRelease i
  | powerUpAccessTimeout i => exact powerUpAccessTimeout i
  | sysNodeLock => exact sysNodeLock
  | imgLoadGo => exact imgLoadGo
  | imgPass1ReadDone => exact imgPass1ReadDone
  | imgSignatureDone => exact imgSignatureDone
  | imgPass2Done tr => exact imgPass2Done tr
  | imgSourceFault code off => exact imgSourceFault code off
  | imgLoadAbort => exact imgLoadAbort
  | imgQueuedStart => exact imgQueuedStart
  | imgActGo => exact imgActGo
  | actDrainDone => exact actDrainDone
  | actConstCopyDone => exact actConstCopyDone
  | actBarrierRelease => exact actBarrierRelease
  | actTimeout => exact actTimeout
  | start h p => exact start h p
  | admitBatch ring => exact admitBatch ring
  | stageFire k written lackIn lackCred lackWait => exact stageFire k written lackIn lackCred lackWait
  | firingEnd k id => exact firingEnd k id
  | fifoItemPresent id k upset => exact fifoItemPresent id k upset
  | fifoCreditGrant id n => exact fifoCreditGrant id n
  | fifoMark id k => exact fifoMark id k
  | fifoRewind id k => exact fifoRewind id k
  | fifoRelease id k => exact fifoRelease id k
  | fifoStarved id => exact fifoStarved id
  | fcPinHoldExpiry p => exact fcPinHoldExpiry p
  | fifoWmWrite id v => exact fifoWmWrite id v
  | stageBatchEnd k id => exact stageBatchEnd k id
  | stageSignalIssue k id => exact stageSignalIssue k id
  | batchComplete p => exact batchComplete p
  | wsFetch k id => exact wsFetch k id
  | auFetch k id => exact auFetch k id
  | auWrite k id => exact auWrite k id
  | fetchArrival k id weights stalled => exact fetchArrival k id weights stalled
  | engWaitTimeout k id w => exact engWaitTimeout k id w
  | engDrain k => exact engDrain k
  | engDrained k => exact engDrained k
  | engDrainSlow k => exact engDrainSlow k
  | engEnable k => exact engEnable k
  | engKill k => exact engKill k
  | engFailDeclare k => exact engFailDeclare k
  | engCntClr k => exact engCntClr k
  | fireHang k => exact fireHang k
  | engFault k cause => exact engFault k cause
  | arbRelocation k => exact arbRelocation k
  | shardMigration r => exact shardMigration r
  | qzSatWindowEnd k n => exact qzSatWindowEnd k n
  | qzScaleCalibrate k n v => exact qzScaleCalibrate k n v
  | arrayWindowRead master k off n => exact arrayWindowRead master k off n
  | senseComplete k p tries raw => exact senseComplete k p tries raw
  | arrayReadTimeout master k => exact arrayReadTimeout master k
  | stackPowerOn k => exact stackPowerOn k
  | autoSuspend k g => exact autoSuspend k g
  | autoResume k g => exact autoResume k g
  | arySeqKey master k second => exact arySeqKey master k second
  | aryStrayWrite master k off data => exact aryStrayWrite master k off data
  | arySeqTimeout k => exact arySeqTimeout k
  | aryErase master k => exact aryErase master k
  | aryProgramBuffer master k => exact aryProgramBuffer master k
  | aryBufferWrite master k off data poison => exact aryBufferWrite master k off data poison
  | aryCommit master k => exact aryCommit master k
  | aryPbTimeout k => exact aryPbTimeout k
  | arySuspend master k => exact arySuspend master k
  | arySuspendHeldExpiry k => exact arySuspendHeldExpiry k
  | aryResume master k => exact aryResume master k
  | aryAbort master k => exact aryAbort master k
  | aryStatus master k => exact aryStatus master k
  | aryIdentify master k => exact aryIdentify master k
  | aryContinuousRead master k => exact aryContinuousRead master k
  | aryPasswordUnlock master k => exact aryPasswordUnlock master k
  | aryLock master k => exact aryLock master k
  | pwTableWriteDone k => exact pwTableWriteDone k
  | aryPowerGrant => exact aryPowerGrant
  | aryOpDone k g us ok => exact aryOpDone k g us ok
  | aryRetire k b => exact aryRetire k b
  | load h addr len slot side kind nsid => exact load h addr len slot side kind nsid
  | loadQueuedStart => exact loadQueuedStart
  | loadManifestArrival => exact loadManifestArrival
  | nvmeCompletion status shard data => exact nvmeCompletion status shard data
  | shardArrivalDone i => exact shardArrivalDone i
  | shardReadbackDone i => exact shardReadbackDone i
  | loadSourceFault shard poison cause => exact loadSourceFault shard poison cause
  | loadSourceTimeout shard => exact loadSourceTimeout shard
  | leDisable => exact leDisable
  | leEnable => exact leEnable
  | patrolLapStart => exact patrolLapStart
  | patrolShardCheck => exact patrolShardCheck
  | castle h slot flags barrier => exact castle h slot flags barrier
  | castleBarrierRelease slot => exact castleBarrierRelease slot
  | castleTimeout slot => exact castleTimeout slot
  | castleHoldExpiry slot => exact castleHoldExpiry slot
  | arbSlotExpire => exact arbSlotExpire
  | release h slot side => exact release h slot side
  | sessionClose h slot session => exact sessionClose h slot session
  | tmPlace src t => exact tmPlace src t
  | tmFree src t => exact tmFree src t
  | tmPromote src t => exact tmPromote src t
  | tmCapture src t => exact tmCapture src t
  | tmPin src t => exact tmPin src t
  | tmUnpin src t => exact tmUnpin src t
  | tmFlush src t => exact tmFlush src t
  | tmTileCopyDone n => exact tmTileCopyDone n
  | tmMappingQuiesced n => exact tmMappingQuiesced n
  | tmHotInterval => exact tmHotInterval
  | tmDisable => exact tmDisable
  | tmEnable => exact tmEnable
  | train h addr => exact train h addr
  | trainSetupDone => exact trainSetupDone
  | trainCommitDone => exact trainCommitDone
  | scrubRead st upset => exact scrubRead st upset
  | intgScrubSlow st => exact intgScrubSlow st
  | intgFlipArm v => exact intgFlipArm v
  | arbHoldClassify i rs => exact arbHoldClassify i rs
  | batchReplay p seq => exact batchReplay p seq
  | arbHoldReplay i => exact arbHoldReplay i
  | arbHoldResign i => exact arbHoldResign i
  | shardReload r => exact shardReload r
  | reloadRetryTimer r => exact reloadRetryTimer r
  | recovRetryNow rs => exact recovRetryNow rs
  | stackDegraded k rs => exact stackDegraded k rs
  | stackDead k rs => exact stackDead k rs
  | arbBlockRetire k b rs => exact arbBlockRetire k b rs
  | arbCeRepeatResponse st a rs => exact arbCeRepeatResponse st a rs
  | arbWatchdogExpiry => exact arbWatchdogExpiry
  | poweredTimeSave => exact poweredTimeSave
  | scoreRecordQueue event kind index args => exact scoreRecordQueue event kind index args
  | scorePost master => exact scorePost master
  | scoreFlush => exact scoreFlush
  | scoreFlushTimeout => exact scoreFlushTimeout
  | scorePageProgrammed => exact scorePageProgrammed
  | scoreSectorErased => exact scoreSectorErased
  | scoreScanDone => exact scoreScanDone
  | powerFail vhold => exact powerFail vhold
  | cmdTailWrite n v => exact cmdTailWrite n v
  | cplHeadWrite n v => exact cplHeadWrite n v
  | ringEnable n => exact ringEnable n
  | ringDisable n => exact ringDisable n
  | commandDispatch => exact commandDispatch
  | completionRelease n => exact completionRelease n
  | ringCplStall n => exact ringCplStall n
  | ringModTimer n => exact ringModTimer n
  | ringProgressTimer t => exact ringProgressTimer t
  | nop h => exact nop h
  | query h kind index => exact query h kind index
  | adjourn h t => exact adjourn h t
  | resume h t => exact resume h t
  | resign h t => exact resign h t
  | imgLoad h src len => exact imgLoad h src len
  | imgActivate h en barrier => exact imgActivate h en barrier
  | census h expect => exact census h expect
  | tlEnable n => exact tlEnable n
  | tlDisable n => exact tlDisable n
  | tlTrainFlit n lanes flit => exact tlTrainFlit n lanes flit
  | tlTrainTimeout n => exact tlTrainTimeout n
  | tlDataFlit n flit => exact tlDataFlit n flit
  | tlIdleFlit n flit => exact tlIdleFlit n flit
  | tlAckFlit n flit => exact tlAckFlit n flit
  | tlNakFlit n flit => exact tlNakFlit n flit
  | tlSleepNotice n flit => exact tlSleepNotice n flit
  | tlReplayTimeout n => exact tlReplayTimeout n
  | tlAckTimer n => exact tlAckTimer n
  | tlIdleInsert n => exact tlIdleInsert n
  | tlVcIdleSend n v => exact tlVcIdleSend n v
  | tlFcInChange n level => exact tlFcInChange n level
  | tlFcStuck n => exact tlFcStuck n
  | tlFpSettleExpiry n => exact tlFpSettleExpiry n
  | tlWakeRetry n => exact tlWakeRetry n
  | linkWakeDetect n ok => exact linkWakeDetect n ok
  | read n m => exact read n m
  | write n m => exact write n m
  | readRsp n m => exact readRsp n m
  | writeAck n m => exact writeAck n m
  | errRsp n m => exact errRsp n m
  | syncOp n m => exact syncOp n m
  | watch n m => exact watch n m
  | notify n m => exact notify n m
  | watchRetry tag => exact watchRetry tag
  | stream n m => exact stream n m
  | censusStart n m => exact censusStart n m
  | censusPart n m => exact censusPart n m
  | censusChildTimeout => exact censusChildTimeout
  | counterAdd master n arg => exact counterAdd master n arg
  | semaphoreRelease master n arg => exact semaphoreRelease master n arg
  | barrierArrive master n => exact barrierArrive master n
  | eventFlagSet master n arg => exact eventFlagSet master n arg
  | reductionContribute master n arg => exact reductionContribute master n arg
  | syncTryAcquire master n => exact syncTryAcquire master n
  | syncFieldStore n off v => exact syncFieldStore n off v
  | syncPairWrite m data poison => exact syncPairWrite m data poison
  | icSetpend id => exact icSetpend id
  | icClrpend id raised => exact icClrpend id raised
  | icVectorAccept c raised => exact icVectorAccept c raised
  | icEoi c id => exact icEoi c id
  | icEnWrite m v race => exact icEnWrite m v race
  | pmuRequestEntry target => exact pmuRequestEntry target
  | pmuRequestExit => exact pmuRequestExit
  | autoIdleEntry => exact autoIdleEntry
  | autoRunExit => exact autoRunExit
  | agentAnswer a busy => exact agentAnswer a busy
  | pmuHandshakeTimeout => exact pmuHandshakeTimeout
  | wakeSource src => exact wakeSource src
  | aonCalibrate => exact aonCalibrate
  | aonCalDone xtal rc => exact aonCalDone xtal rc
  | aonClockFallback => exact aonClockFallback
  | aonClockRetry => exact aonClockRetry
  | aonCrystalStable => exact aonCrystalStable
  | aonAlarm n => exact aonAlarm n
  | pmuDomainFault dom kind => exact pmuDomainFault dom kind
  | powerOnReset => exact powerOnReset
  | supplyReset => exact supplyReset
  | pinReset cool => exact pinReset cool
  | softwareReset code => exact softwareReset code
  | perstFall => exact perstFall
  | keyRecover type => exact keyRecover type
  | arbBootCfg base compat => exact arbBootCfg base compat
  | keyFuseProg slot => exact keyFuseProg slot
  | keyFuseRevoke => exact keyFuseRevoke
  | keyFuseRaise level => exact keyFuseRaise level
  | keyFuseDone ok => exact keyFuseDone ok
  | keyAttest => exact keyAttest
  | keyAttestDone => exact keyAttestDone
  | ddrTrain => exact ddrTrain
  | ddrTrainDone mask => exact ddrTrainDone mask
  | ddrTrainTimeout mask => exact ddrTrainTimeout mask
  | ddrInitDone rs => exact ddrInitDone rs
  | thermalTrip vhold => exact thermalTrip vhold
  | jtagExtest on => exact jtagExtest on
  | resetRelease strap => exact resetRelease strap
  | ethRxFrame m frame ok => exact ethRxFrame m frame ok
  | ethRxTailWrite m v => exact ethRxTailWrite m v
  | ethTxTailWrite m v => exact ethTxTailWrite m v
  | ethTxDone m => exact ethTxDone m
  | ethLinkDown m => exact ethLinkDown m
  | usbOutTransfer data ended => exact usbOutTransfer data ended
  | usbInDone => exact usbInDone
  | usbOutTailWrite v => exact usbOutTailWrite v
  | usbInTailWrite v => exact usbInTailWrite v
  | usbBusReset speed => exact usbBusReset speed
  | csiFrameStart n num => exact csiFrameStart n num
  | csiFrameEnd n width lines dt vc data => exact csiFrameEnd n width lines dt vc data
  | csiFrameTimeout n => exact csiFrameTimeout n
  | csiFbRel n i => exact csiFbRel n i
  | csiFbCfgWrite n v => exact csiFbCfgWrite n v
  | tdmFrame samples onTime => exact tdmFrame samples onTime
  | tdmRingDrain => exact tdmRingDrain
  | tdmFsLost => exact tdmFsLost
  | tdmCtlWrite v => exact tdmCtlWrite v
  | vadWindow sum => exact vadWindow sum
  | pcieLinkTrain => exact pcieLinkTrain
  | pcieLinkFail => exact pcieLinkFail
  | pcieConfigAccess master off n wr data answer => exact pcieConfigAccess master off n wr data answer
  | cpuHoldWrite v => exact cpuHoldWrite v
  | cpuFreqWrite v => exact cpuFreqWrite v
  | pcieLinkUp rate width => exact pcieLinkUp rate width
  | ethBlockLock m => exact ethBlockLock m
  | usbBusSuspend on => exact usbBusSuspend on
  | usbStandardRequest setup => exact usbStandardRequest setup

end Sys2Proof.Laws.Fields

namespace Sys2Proof.Laws.Clock

open Sys2Proof.Machine

/-- A row that needs the clock of PD_SYS is an effect on the device behind `liftSys`. -/
def Statement (i : Instr) : Prop := i.always = true ∨ ∃ f, ∀ s, exec i s = liftSys i.wf f s

theorem registerWrite (addr value : Nat) : Statement (.registerWrite addr value) := .inr ⟨_, fun _ => rfl⟩
theorem fabricAccess (x : BusAcc) : Statement (.fabricAccess x) := .inr ⟨_, fun _ => rfl⟩
theorem linkAccessTimeout (tag : Nat) : Statement (.linkAccessTimeout tag) := .inr ⟨_, fun _ => rfl⟩
theorem heldAccessRelease (i : Nat) : Statement (.heldAccessRelease i) := .inr ⟨_, fun _ => rfl⟩
theorem powerUpAccessTimeout (i : Nat) : Statement (.powerUpAccessTimeout i) := .inr ⟨_, fun _ => rfl⟩
theorem sysNodeLock : Statement (.sysNodeLock) := .inr ⟨_, fun _ => rfl⟩
theorem imgLoadGo : Statement (.imgLoadGo) := .inr ⟨_, fun _ => rfl⟩
theorem imgPass1ReadDone : Statement (.imgPass1ReadDone) := .inr ⟨_, fun _ => rfl⟩
theorem imgSignatureDone : Statement (.imgSignatureDone) := .inr ⟨_, fun _ => rfl⟩
theorem imgPass2Done (tr : CompatOut) : Statement (.imgPass2Done tr) := .inr ⟨_, fun _ => rfl⟩
theorem imgSourceFault (code off : Nat) : Statement (.imgSourceFault code off) := .inr ⟨_, fun _ => rfl⟩
theorem imgLoadAbort : Statement (.imgLoadAbort) := .inr ⟨_, fun _ => rfl⟩
theorem imgQueuedStart : Statement (.imgQueuedStart) := .inr ⟨_, fun _ => rfl⟩
theorem imgActGo : Statement (.imgActGo) := .inr ⟨_, fun _ => rfl⟩
theorem actDrainDone : Statement (.actDrainDone) := .inr ⟨_, fun _ => rfl⟩
theorem actConstCopyDone : Statement (.actConstCopyDone) := .inr ⟨_, fun _ => rfl⟩
theorem actBarrierRelease : Statement (.actBarrierRelease) := .inr ⟨_, fun _ => rfl⟩
theorem actTimeout : Statement (.actTimeout) := .inr ⟨_, fun _ => rfl⟩
theorem start (h : CmdHdr) (p : StartP) : Statement (.start h p) := .inr ⟨_, fun _ => rfl⟩
theorem admitBatch (ring : Option Nat) : Statement (.admitBatch ring) := .inr ⟨_, fun _ => rfl⟩
theorem stageFire (k written lackIn lackCred lackWait : Nat) : Statement (.stageFire k written lackIn lackCred lackWait) := .inr ⟨_, fun _ => rfl⟩
theorem firingEnd (k id : Nat) : Statement (.firingEnd k id) := .inr ⟨_, fun _ => rfl⟩
theorem fifoItemPresent (id k : Nat) (upset : ErrPat) : Statement (.fifoItemPresent id k upset) := .inr ⟨_, fun _ => rfl⟩
theorem fifoCreditGrant (id n : Nat) : Statement (.fifoCreditGrant id n) := .inr ⟨_, fun _ => rfl⟩
theorem fifoMark (id k : Nat) : Statement (.fifoMark id k) := .inr ⟨_, fun _ => rfl⟩
theorem fifoRewind (id k : Nat) : Statement (.fifoRewind id k) := .inr ⟨_, fun _ => rfl⟩
theorem fifoRelease (id k : Nat) : Statement (.fifoRelease id k) := .inr ⟨_, fun _ => rfl⟩
theorem fifoStarved (id : Nat) : Statement (.fifoStarved id) := .inr ⟨_, fun _ => rfl⟩
theorem fcPinHoldExpiry (p : Nat) : Statement (.fcPinHoldExpiry p) := .inr ⟨_, fun _ => rfl⟩
theorem fifoWmWrite (id v : Nat) : Statement (.fifoWmWrite id v) := .inr ⟨_, fun _ => rfl⟩
theorem stageBatchEnd (k id : Nat) : Statement (.stageBatchEnd k id) := .inr ⟨_, fun _ => rfl⟩
theorem stageSignalIssue (k id : Nat) : Statement (.stageSignalIssue k id) := .inr ⟨_, fun _ => rfl⟩
theorem batchComplete (p : Nat) : Statement (.batchComplete p) := .inr ⟨_, fun _ => rfl⟩
theorem wsFetch (k id : Nat) : Statement (.wsFetch k id) := .inr ⟨_, fun _ => rfl⟩
theorem auFetch (k id : Nat) : Statement (.auFetch k id) := .inr ⟨_, fun _ => rfl⟩
theorem auWrite (k id : Nat) : Statement (.auWrite k id) := .inr ⟨_, fun _ => rfl⟩
theorem fetchArrival (k id : Nat) (weights : Bool) (stalled : Nat) : Statement (.fetchArrival k id weights stalled) := .inr ⟨_, fun _ => rfl⟩
theorem engWaitTimeout (k id w : Nat) : Statement (.engWaitTimeout k id w) := .inr ⟨_, fun _ => rfl⟩
theorem engDrain (k : Nat) : Statement (.engDrain k) := .inr ⟨_, fun _ => rfl⟩
theorem engDrained (k : Nat) : Statement (.engDrained k) := .inr ⟨_, fun _ => rfl⟩
theorem engDrainSlow (k : Nat) : Statement (.engDrainSlow k) := .inr ⟨_, fun _ => rfl⟩
theorem engEnable (k : Nat) : Statement (.engEnable k) := .inr ⟨_, fun _ => rfl⟩
theorem engKill (k : Nat) : Statement (.engKill k) := .inr ⟨_, fun _ => rfl⟩
theorem engFailDeclare (k : Nat) : Statement (.engFailDeclare k) := .inr ⟨_, fun _ => rfl⟩
theorem engCntClr (k : Nat) : Statement (.engCntClr k) := .inr ⟨_, fun _ => rfl⟩
theorem fireHang (k : Nat) : Statement (.fireHang k) := .inr ⟨_, fun _ => rfl⟩
theorem engFault (k cause : Nat) : Statement (.engFault k cause) := .inr ⟨_, fun _ => rfl⟩
theorem arbRelocation (k : Nat) : Statement (.arbRelocation k) := .inr ⟨_, fun _ => rfl⟩
theorem shardMigration (r : ReloadIn) : Statement (.shardMigration r) := .inr ⟨_, fun _ => rfl⟩
theorem qzSatWindowEnd (k n : Nat) : Statement (.qzSatWindowEnd k n) := .inr ⟨_, fun _ => rfl⟩
theorem qzScaleCalibrate (k n v : Nat) : Statement (.qzScaleCalibrate k n v) := .inr ⟨_, fun _ => rfl⟩
theorem arrayWindowRead (master k off n : Nat) : Statement (.arrayWindowRead master k off n) := .inr ⟨_, fun _ => rfl⟩
theorem senseComplete (k p : Nat) (tries : List (List (Option Nat))) (raw : FMap ErrPat) : Statement (.senseComplete k p tries raw) := .inr ⟨_, fun _ => rfl⟩
theorem arrayReadTimeout (master k : Nat) : Statement (.arrayReadTimeout master k) := .inr ⟨_, fun _ => rfl⟩
theorem stackPowerOn (k : Nat) : Statement (.stackPowerOn k) := .inr ⟨_, fun _ => rfl⟩
theorem autoSuspend (k g : Nat) : Statement (.autoSuspend k g) := .inr ⟨_, fun _ => rfl⟩
theorem autoResume (k g : Nat) : Statement (.autoResume k g) := .inr ⟨_, fun _ => rfl⟩
theorem arySeqKey (master k : Nat) (second : Bool) : Statement (.arySeqKey master k second) := .inr ⟨_, fun _ => rfl⟩
theorem aryStrayWrite (master k off : Nat) (data : List Byte) : Statement (.aryStrayWrite master k off data) := .inr ⟨_, fun _ => rfl⟩
theorem arySeqTimeout (k : Nat) : Statement (.arySeqTimeout k) := .inr ⟨_, fun _ => rfl⟩
theorem aryErase (master k : Nat) : Statement (.aryErase master k) := .inr ⟨_, fun _ => rfl⟩
theorem aryProgramBuffer (master k : Nat) : Statement (.aryProgramBuffer master k) := .inr ⟨_, fun _ => rfl⟩
theorem aryBufferWrite (master k off : Nat) (data : List Byte) (poison : Bool) : Statement (.aryBufferWrite master k off data poison) := .inr ⟨_, fun _ => rfl⟩
theorem aryCommit (master k : Nat) : Statement (.aryCommit master k) := .inr ⟨_, fun _ => rfl⟩
theorem aryPbTimeout (k : Nat) : Statement (.aryPbTimeout k) := .inr ⟨_, fun _ => rfl⟩
theorem arySuspend (master k : Nat) : Statement (.arySuspend master k) := .inr ⟨_, fun _ => rfl⟩
theorem arySuspendHeldExpiry (k : Nat) : Statement (.arySuspendHeldExpiry k) := .inr ⟨_, fun _ => rfl⟩
theorem aryResume (master k : Nat) : Statement (.aryResume master k) := .inr ⟨_, fun _ => rfl⟩
theorem aryAbort (master k : Nat) : Statement (.aryAbort master k) := .inr ⟨_, fun _ => rfl⟩
theorem aryStatus (master k : Nat) : Statement (.aryStatus master k) := .inr ⟨_, fun _ => rfl⟩
theorem aryIdentify (master k : Nat) : Statement (.aryIdentify master k) := .inr ⟨_, fun _ => rfl⟩
theorem aryContinuousRead (master k : Nat) : Statement (.aryContinuousRead master k) := .inr ⟨_, fun _ => rfl⟩
theorem aryPasswordUnlock (master k : Nat) : Statement (.aryPasswordUnlock master k) := .inr ⟨_, fun _ => rfl⟩
theorem aryLock (master k : Nat) : Statement (.aryLock master k) := .inr ⟨_, fun _ => rfl⟩
theorem pwTableWriteDone (k : Nat) : Statement (.pwTableWriteDone k) := .inr ⟨_, fun _ => rfl⟩
theorem aryPowerGrant : Statement (.aryPowerGrant) := .inr ⟨_, fun _ => rfl⟩
theorem aryOpDone (k g us : Nat) (ok : Bool) : Statement (.aryOpDone k g us ok) := .inr ⟨_, fun _ => rfl⟩
theorem aryRetire (k b : Nat) : Statement (.aryRetire k b) := .inr ⟨_, fun _ => rfl⟩
theorem load (h : CmdHdr) (addr len slot side kind nsid : Nat) : Statement (.load h addr len slot side kind nsid) := .inr ⟨_, fun _ => rfl⟩
theorem loadQueuedStart : Statement (.loadQueuedStart) := .inr ⟨_, fun _ => rfl⟩
theorem loadManifestArrival : Statement (.loadManifestArrival) := .inr ⟨_, fun _ => rfl⟩
theorem nvmeCompletion (status : Nat) (shard : Option Nat) (data : List Byte) : Statement (.nvmeCompletion status shard data) := .inr ⟨_, fun _ => rfl⟩
theorem shardArrivalDone (i : Nat) : Statement (.shardArrivalDone i) := .inr ⟨_, fun _ => rfl⟩
theorem shardReadbackDone (i : Nat) : Statement (.shardReadbackDone i) := .inr ⟨_, fun _ => rfl⟩
theorem loadSourceFault (shard : Option Nat) (poison : Bool) (cause : Nat) : Statement (.loadSourceFault shard poison cause) := .inr ⟨_, fun _ => rfl⟩
theorem loadSourceTimeout (shard : Option Nat) : Statement (.loadSourceTimeout shard) := .inr ⟨_, fun _ => rfl⟩
theorem leDisable : Statement (.leDisable) := .inr ⟨_, fun _ => rfl⟩
theorem leEnable : Statement (.leEnable) := .inr ⟨_, fun _ => rfl⟩
theorem patrolLapStart : Statement (.patrolLapStart) := .inr ⟨_, fun _ => rfl⟩
theorem patrolShardCheck : Statement (.patrolShardCheck) := .inr ⟨_, fun _ => rfl⟩
theorem castle (h : CmdHdr) (slot flags barrier : Nat) : Statement (.castle h slot flags barrier) := .inr ⟨_, fun _ => rfl⟩
theorem castleBarrierRelease (slot : Nat) : Statement (.castleBarrierRelease slot) := .inr ⟨_, fun _ => rfl⟩
theorem castleTimeout (slot : Nat) : Statement (.castleTimeout slot) := .inr ⟨_, fun _ => rfl⟩
theorem castleHoldExpiry (slot : Nat) : Statement (.castleHoldExpiry slot) := .inr ⟨_, fun _ => rfl⟩
theorem arbSlotExpire : Statement (.arbSlotExpire) := .inr ⟨_, fun _ => rfl⟩
theorem release (h : CmdHdr) (slot side : Nat) : Statement (.release h slot side) := .inr ⟨_, fun _ => rfl⟩
theorem sessionClose (h : CmdHdr) (slot session : Nat) : Statement (.sessionClose h slot session) := .inr ⟨_, fun _ => rfl⟩
theorem tmPlace (src : TmSrc) (t : TmDesc) : Statement (.tmPlace src t) := .inr ⟨_, fun _ => rfl⟩
theorem tmFree (src : TmSrc) (t : TmDesc) : Statement (.tmFree src t) := .inr ⟨_, fun _ => rfl⟩
theorem tmPromote (src : TmSrc) (t : TmDesc) : Statement (.tmPromote src t) := .inr ⟨_, fun _ => rfl⟩
theorem tmCapture (src : TmSrc) (t : TmDesc) : Statement (.tmCapture src t) := .inr ⟨_, fun _ => rfl⟩
theorem tmPin (src : TmSrc) (t : TmDesc) : Statement (.tmPin src t) := .inr ⟨_, fun _ => rfl⟩
theorem tmUnpin (src : TmSrc) (t : TmDesc) : Statement (.tmUnpin src t) := .inr ⟨_, fun _ => rfl⟩
theorem tmFlush (src : TmSrc) (t : TmDesc) : Statement (.tmFlush src t) := .inr ⟨_, fun _ => rfl⟩
theorem tmTileCopyDone (n : Nat) : Statement (.tmTileCopyDone n) := .inr ⟨_, fun _ => rfl⟩
theorem tmMappingQuiesced (n : Nat) : Statement (.tmMappingQuiesced n) := .inr ⟨_, fun _ => rfl⟩
theorem tmHotInterval : Statement (.tmHotInterval) := .inr ⟨_, fun _ => rfl⟩
theorem tmDisable : Statement (.tmDisable) := .inr ⟨_, fun _ => rfl⟩
theorem tmEnable : Statement (.tmEnable) := .inr ⟨_, fun _ => rfl⟩
theorem train (h : CmdHdr) (addr : Nat) : Statement (.train h addr) := .inr ⟨_, fun _ => rfl⟩
theorem trainSetupDone : Statement (.trainSetupDone) := .inr ⟨_, fun _ => rfl⟩
theorem trainCommitDone : Statement (.trainCommitDone) := .inr ⟨_, fun _ => rfl⟩
theorem scrubRead (st : Nat) (upset : ErrPat) : Statement (.scrubRead st upset) := .inr ⟨_, fun _ => rfl⟩
theorem intgScrubSlow (st : Nat) : Statement (.intgScrubSlow st) := .inr ⟨_, fun _ => rfl⟩
theorem intgFlipArm (v : Nat) : Statement (.intgFlipArm v) := .inr ⟨_, fun _ => rfl⟩
theorem arbHoldClassify (i : Nat) (rs : List ReloadIn) : Statement (.arbHoldClassify i rs) := .inr ⟨_, fun _ => rfl⟩
theorem batchReplay (p seq : Nat) : Statement (.batchReplay p seq) := .inr ⟨_, fun _ => rfl⟩
theorem arbHoldReplay (i : Nat) : Statement (.arbHoldReplay i) := .inr ⟨_, fun _ => rfl⟩
theorem arbHoldResign (i : Nat) : Statement (.arbHoldResign i) := .inr ⟨_, fun _ => rfl⟩
theorem shardReload (r : ReloadIn) : Statement (.shardReload r) := .inr ⟨_, fun _ => rfl⟩
theorem reloadRetryTimer (r : ReloadIn) : Statement (.reloadRetryTimer r) := .inr ⟨_, fun _ => rfl⟩
theorem recovRetryNow (rs : List ReloadIn) : Statement (.recovRetryNow rs) := .inr ⟨_, fun _ => rfl⟩
theorem stackDegraded (k : Nat) (rs : List ReloadIn) : Statement (.stackDegraded k rs) := .inr ⟨_, fun _ => rfl⟩
theorem stackDead (k : Nat) (rs : List ReloadIn) : Statement (.stackDead k rs) := .inr ⟨_, fun _ => rfl⟩
theorem arbBlockRetire (k b : Nat) (rs : List ReloadIn) : Statement (.arbBlockRetire k b rs) := .inr ⟨_, fun _ => rfl⟩
theorem arbCeRepeatResponse (st a : Nat) (rs : List ReloadIn) : Statement (.arbCeRepeatResponse st a rs) := .inr ⟨_, fun _ => rfl⟩
theorem arbWatchdogExpiry : Statement (.arbWatchdogExpiry) := .inr ⟨_, fun _ => rfl⟩
theorem poweredTimeSave : Statement (.poweredTimeSave) := .inr ⟨_, fun _ => rfl⟩
theorem scoreRecordQueue (event kind index : Nat) (args : List Nat) : Statement (.scoreRecordQueue event kind index args) := .inr ⟨_, fun _ => rfl⟩
theorem scorePost (master : Nat) : Statement (.scorePost master) := .inr ⟨_, fun _ => rfl⟩
theorem scoreFlush : Statement (.scoreFlush) := .inr ⟨_, fun _ => rfl⟩
theorem scoreFlushTimeout : Statement (.scoreFlushTimeout) := .inr ⟨_, fun _ => rfl⟩
theorem scorePageProgrammed : Statement (.scorePageProgrammed) := .inl rfl
theorem scoreSectorErased : Statement (.scoreSectorErased) := .inl rfl
theorem scoreScanDone : Statement (.scoreScanDone) := .inl rfl
theorem powerFail (vhold : Bool) : Statement (.powerFail vhold) := .inl rfl
theorem cmdTailWrite (n v : Nat) : Statement (.cmdTailWrite n v) := .inr ⟨_, fun _ => rfl⟩
theorem cplHeadWrite (n v : Nat) : Statement (.cplHeadWrite n v) := .inr ⟨_, fun _ => rfl⟩
theorem ringEnable (n : Nat) : Statement (.ringEnable n) := .inr ⟨_, fun _ => rfl⟩
theorem ringDisable (n : Nat) : Statement (.ringDisable n) := .inr ⟨_, fun _ => rfl⟩
theorem commandDispatch : Statement (.commandDispatch) := .inr ⟨_, fun _ => rfl⟩
theorem completionRelease (n : Nat) : Statement (.completionRelease n) := .inr ⟨_, fun _ => rfl⟩
theorem ringCplStall (n : Nat) : Statement (.ringCplStall n) := .inr ⟨_, fun _ => rfl⟩
theorem ringModTimer (n : Nat) : Statement (.ringModTimer n) := .inr ⟨_, fun _ => rfl⟩
theorem ringProgressTimer (t : Nat) : Statement (.ringProgressTimer t) := .inr ⟨_, fun _ => rfl⟩
theorem nop (h : CmdHdr) : Statement (.nop h) := .inr ⟨_, fun _ => rfl⟩
theorem query (h : CmdHdr) (kind index : Nat) : Statement (.query h kind index) := .inr ⟨_, fun _ => rfl⟩
theorem adjourn (h : CmdHdr) (t : Nat) : Statement (.adjourn h t) := .inr ⟨_, fun _ => rfl⟩
theorem resume (h : CmdHdr) (t : Nat) : Statement (.resume h t) := .inr ⟨_, fun _ => rfl⟩
theorem resign (h : CmdHdr) (t : Nat) : Statement (.resign h t) := .inr ⟨_, fun _ => rfl⟩
theorem imgLoad (h : CmdHdr) (src len : Nat) : Statement (.imgLoad h src len) := .inr ⟨_, fun _ => rfl⟩
theorem imgActivate (h : CmdHdr) (en barrier : Nat) : Statement (.imgActivate h en barrier) := .inr ⟨_, fun _ => rfl⟩
theorem census (h : CmdHdr) (expect : Nat) : Statement (.census h expect) := .inr ⟨_, fun _ => rfl⟩
theorem tlEnable (n : Nat) : Statement (.tlEnable n) := .inr ⟨_, fun _ => rfl⟩
theorem tlDisable (n : Nat) : Statement (.tlDisable n) := .inr ⟨_, fun _ => rfl⟩
theorem tlTrainFlit (n lanes : Nat) (flit : List Byte) : Statement (.tlTrainFlit n lanes flit) := .inr ⟨_, fun _ => rfl⟩
theorem tlTrainTimeout (n : Nat) : Statement (.tlTrainTimeout n) := .inr ⟨_, fun _ => rfl⟩
theorem tlDataFlit (n : Nat) (flit : List Byte) : Statement (.tlDataFlit n flit) := .inr ⟨_, fun _ => rfl⟩
theorem tlIdleFlit (n : Nat) (flit : List Byte) : Statement (.tlIdleFlit n flit) := .inr ⟨_, fun _ => rfl⟩
theorem tlAckFlit (n : Nat) (flit : List Byte) : Statement (.tlAckFlit n flit) := .inr ⟨_, fun _ => rfl⟩
theorem tlNakFlit (n : Nat) (flit : List Byte) : Statement (.tlNakFlit n flit) := .inr ⟨_, fun _ => rfl⟩
theorem tlSleepNotice (n : Nat) (flit : List Byte) : Statement (.tlSleepNotice n flit) := .inr ⟨_, fun _ => rfl⟩
theorem tlReplayTimeout (n : Nat) : Statement (.tlReplayTimeout n) := .inr ⟨_, fun _ => rfl⟩
theorem tlAckTimer (n : Nat) : Statement (.tlAckTimer n) := .inr ⟨_, fun _ => rfl⟩
theorem tlIdleInsert (n : Nat) : Statement (.tlIdleInsert n) := .inr ⟨_, fun _ => rfl⟩
theorem tlVcIdleSend (n v : Nat) : Statement (.tlVcIdleSend n v) := .inr ⟨_, fun _ => rfl⟩
theorem tlFcInChange (n : Nat) (level : Bool) : Statement (.tlFcInChange n level) := .inr ⟨_, fun _ => rfl⟩
theorem tlFcStuck (n : Nat) : Statement (.tlFcStuck n) := .inr ⟨_, fun _ => rfl⟩
theorem tlFpSettleExpiry (n : Nat) : Statement (.tlFpSettleExpiry n) := .inr ⟨_, fun _ => rfl⟩
theorem tlWakeRetry (n : Nat) : Statement (.tlWakeRetry n) := .inr ⟨_, fun _ => rfl⟩
theorem linkWakeDetect (n : Nat) (ok : Bool) : Statement (.linkWakeDetect n ok) := .inl rfl
theorem read (n : Nat) (m : Msg) : Statement (.read n m) := .inr ⟨_, fun _ => rfl⟩
theorem write (n : Nat) (m : Msg) : Statement (.write n m) := .inr ⟨_, fun _ => rfl⟩
theorem readRsp (n : Nat) (m : Msg) : Statement (.readRsp n m) := .inr ⟨_, fun _ => rfl⟩
theorem writeAck (n : Nat) (m : Msg) : Statement (.writeAck n m) := .inr ⟨_, fun _ => rfl⟩
theorem errRsp (n : Nat) (m : Msg) : Statement (.errRsp n m) := .inr ⟨_, fun _ => rfl⟩
theorem syncOp (n : Nat) (m : Msg) : Statement (.syncOp n m) := .inr ⟨_, fun _ => rfl⟩
theorem watch (n : Nat) (m : Msg) : Statement (.watch n m) := .inr ⟨_, fun _ => rfl⟩
theorem notify (n : Nat) (m : Msg) : Statement (.notify n m) := .inr ⟨_, fun _ => rfl⟩
theorem watchRetry (tag : Nat) : Statement (.watchRetry tag) := .inr ⟨_, fun _ => rfl⟩
theorem stream (n : Nat) (m : Msg) : Statement (.stream n m) := .inr ⟨_, fun _ => rfl⟩
theorem censusStart (n : Nat) (m : Msg) : Statement (.censusStart n m) := .inr ⟨_, fun _ => rfl⟩
theorem censusPart (n : Nat) (m : Msg) : Statement (.censusPart n m) := .inr ⟨_, fun _ => rfl⟩
theorem censusChildTimeout : Statement (.censusChildTimeout) := .inr ⟨_, fun _ => rfl⟩
theorem counterAdd (master n arg : Nat) : Statement (.counterAdd master n arg) := .inr ⟨_, fun _ => rfl⟩
theorem semaphoreRelease (master n arg : Nat) : Statement (.semaphoreRelease master n arg) := .inr ⟨_, fun _ => rfl⟩
theorem barrierArrive (master n : Nat) : Statement (.barrierArrive master n) := .inr ⟨_, fun _ => rfl⟩
theorem eventFlagSet (master n arg : Nat) : Statement (.eventFlagSet master n arg) := .inr ⟨_, fun _ => rfl⟩
theorem reductionContribute (master n arg : Nat) : Statement (.reductionContribute master n arg) := .inr ⟨_, fun _ => rfl⟩
theorem syncTryAcquire (master n : Nat) : Statement (.syncTryAcquire master n) := .inr ⟨_, fun _ => rfl⟩
theorem syncFieldStore (n off v : Nat) : Statement (.syncFieldStore n off v) := .inr ⟨_, fun _ => rfl⟩
theorem syncPairWrite (m : Nat) (data : List Byte) (poison : Bool) : Statement (.syncPairWrite m data poison) := .inr ⟨_, fun _ => rfl⟩
theorem icSetpend (id : Nat) : Statement (.icSetpend id) := .inr ⟨_, fun _ => rfl⟩
theorem icClrpend (id : Nat) (raised : Bool) : Statement (.icClrpend id raised) := .inr ⟨_, fun _ => rfl⟩
theorem icVectorAccept (c : Nat) (raised : Bool) : Statement (.icVectorAccept c raised) := .inr ⟨_, fun _ => rfl⟩
theorem icEoi (c id : Nat) : Statement (.icEoi c id) := .inr ⟨_, fun _ => rfl⟩
theorem icEnWrite (m v : Nat) (race : Option Nat) : Statement (.icEnWrite m v race) := .inr ⟨_, fun _ => rfl⟩
theorem pmuRequestEntry (target : Nat) : Statement (.pmuRequestEntry target) := .inr ⟨_, fun _ => rfl⟩
theorem pmuRequestExit : Statement (.pmuRequestExit) := .inr ⟨_, fun _ => rfl⟩
theorem autoIdleEntry : Statement (.autoIdleEntry) := .inr ⟨_, fun _ => rfl⟩
theorem autoRunExit : Statement (.autoRunExit) := .inr ⟨_, fun _ => rfl⟩
theorem agentAnswer (a : Nat) (busy : Bool) : Statement (.agentAnswer a busy) := .inr ⟨_, fun _ => rfl⟩
theorem pmuHandshakeTimeout : Statement (.pmuHandshakeTimeout) := .inr ⟨_, fun _ => rfl⟩
theorem wakeSource (src : Nat) : Statement (.wakeSource src) := .inl rfl
theorem aonCalibrate : Statement (.aonCalibrate) := .inl rfl
theorem aonCalDone (xtal rc : Nat) : Statement (.aonCalDone xtal rc) := .inl rfl
theorem aonClockFallback : Statement (.aonClockFallback) := .inl rfl
theorem aonClockRetry : Statement (.aonClockRetry) := .inl rfl
theorem aonCrystalStable : Statement (.aonCrystalStable) := .inl rfl
theorem aonAlarm (n : Nat) : Statement (.aonAlarm n) := .inl rfl
theorem pmuDomainFault (dom kind : Nat) : Statement (.pmuDomainFault dom kind) := .inl rfl
theorem powerOnReset : Statement (.powerOnReset) := .inl rfl
theorem supplyReset : Statement (.supplyReset) := .inl rfl
theorem pinReset (cool : Bool) : Statement (.pinReset cool) := .inl rfl
theorem softwareReset (code : Nat) : Statement (.softwareReset code) := .inr ⟨_, fun _ => rfl⟩
theorem perstFall : Statement (.perstFall) := .inl rfl
theorem keyRecover (type : Nat) : Statement (.keyRecover type) := .inr ⟨_, fun _ => rfl⟩
theorem arbBootCfg (base compat : Nat) : Statement (.arbBootCfg base compat) := .inr ⟨_, fun _ => rfl⟩
theorem keyFuseProg (slot : Nat) : Statement (.keyFuseProg slot) := .inr ⟨_, fun _ => rfl⟩
theorem keyFuseRevoke : Statement (.keyFuseRevoke) := .inr ⟨_, fun _ => rfl⟩
theorem keyFuseRaise (level : Nat) : Statement (.keyFuseRaise level) := .inr ⟨_, fun _ => rfl⟩
theorem keyFuseDone (ok : Bool) : Statement (.keyFuseDone ok) := .inr ⟨_, fun _ => rfl⟩
theorem keyAttest : Statement (.keyAttest) := .inr ⟨_, fun _ => rfl⟩
theorem keyAttestDone : Statement (.keyAttestDone) := .inr ⟨_, fun _ => rfl⟩
theorem ddrTrain : Statement (.ddrTrain) := .inr ⟨_, fun _ => rfl⟩
theorem ddrTrainDone (mask : Nat) : Statement (.ddrTrainDone mask) := .inr ⟨_, fun _ => rfl⟩
theorem ddrTrainTimeout (mask : Nat) : Statement (.ddrTrainTimeout mask) := .inr ⟨_, fun _ => rfl⟩
theorem ddrInitDone (rs : List ReloadIn) : Statement (.ddrInitDone rs) := .inr ⟨_, fun _ => rfl⟩
theorem thermalTrip (vhold : Bool) : Statement (.thermalTrip vhold) := .inl rfl
theorem jtagExtest (on : Bool) : Statement (.jtagExtest on) := .inl rfl
theorem resetRelease (strap : Straps) : Statement (.resetRelease strap) := .inl rfl
theorem ethRxFrame (m : Nat) (frame : List Byte) (ok : Bool) : Statement (.ethRxFrame m frame ok) := .inr ⟨_, fun _ => rfl⟩
theorem ethRxTailWrite (m v : Nat) : Statement (.ethRxTailWrite m v) := .inr ⟨_, fun _ => rfl⟩
theorem ethTxTailWrite (m v : Nat) : Statement (.ethTxTailWrite m v) := .inr ⟨_, fun _ => rfl⟩
theorem ethTxDone (m : Nat) : Statement (.ethTxDone m) := .inr ⟨_, fun _ => rfl⟩
theorem ethLinkDown (m : Nat) : Statement (.ethLinkDown m) := .inr ⟨_, fun _ => rfl⟩
theorem usbOutTransfer (data : List Byte) (ended : Bool) : Statement (.usbOutTransfer data ended) := .inr ⟨_, fun _ => rfl⟩
theorem usbInDone : Statement (.usbInDone) := .inr ⟨_, fun _ => rfl⟩
theorem usbOutTailWrite (v : Nat) : Statement (.usbOutTailWrite v) := .inr ⟨_, fun _ => rfl⟩
theorem usbInTailWrite (v : Nat) : Statement (.usbInTailWrite v) := .inr ⟨_, fun _ => rfl⟩
theorem usbBusReset (speed : Nat) : Statement (.usbBusReset speed) := .inr ⟨_, fun _ => rfl⟩
theorem csiFrameStart (n num : Nat) : Statement (.csiFrameStart n num) := .inr ⟨_, fun _ => rfl⟩
theorem csiFrameEnd (n width lines dt vc : Nat) (data : List Byte) : Statement (.csiFrameEnd n width lines dt vc data) := .inr ⟨_, fun _ => rfl⟩
theorem csiFrameTimeout (n : Nat) : Statement (.csiFrameTimeout n) := .inr ⟨_, fun _ => rfl⟩
theorem csiFbRel (n i : Nat) : Statement (.csiFbRel n i) := .inr ⟨_, fun _ => rfl⟩
theorem csiFbCfgWrite (n v : Nat) : Statement (.csiFbCfgWrite n v) := .inr ⟨_, fun _ => rfl⟩
theorem tdmFrame (samples : List Nat) (onTime : Bool) : Statement (.tdmFrame samples onTime) := .inr ⟨_, fun _ => rfl⟩
theorem tdmRingDrain : Statement (.tdmRingDrain) := .inr ⟨_, fun _ => rfl⟩
theorem tdmFsLost : Statement (.tdmFsLost) := .inr ⟨_, fun _ => rfl⟩
theorem tdmCtlWrite (v : Nat) : Statement (.tdmCtlWrite v) := .inr ⟨_, fun _ => rfl⟩
theorem vadWindow (sum : Nat) : Statement (.vadWindow sum) := .inl rfl
theorem pcieLinkTrain : Statement (.pcieLinkTrain) := .inr ⟨_, fun _ => rfl⟩
theorem pcieLinkFail : Statement (.pcieLinkFail) := .inr ⟨_, fun _ => rfl⟩
theorem pcieConfigAccess (master off n : Nat) (wr : Bool) (data : List Byte) (answer : Option (List Byte)) : Statement (.pcieConfigAccess master off n wr data answer) := .inr ⟨_, fun _ => rfl⟩
theorem cpuHoldWrite (v : Nat) : Statement (.cpuHoldWrite v) := .inr ⟨_, fun _ => rfl⟩
theorem cpuFreqWrite (v : Nat) : Statement (.cpuFreqWrite v) := .inr ⟨_, fun _ => rfl⟩
theorem pcieLinkUp (rate width : Nat) : Statement (.pcieLinkUp rate width) := .inr ⟨_, fun _ => rfl⟩
theorem ethBlockLock (m : Nat) : Statement (.ethBlockLock m) := .inr ⟨_, fun _ => rfl⟩
theorem usbBusSuspend (on : Bool) : Statement (.usbBusSuspend on) := .inr ⟨_, fun _ => rfl⟩
theorem usbStandardRequest (setup : List Byte) : Statement (.usbStandardRequest setup) := .inr ⟨_, fun _ => rfl⟩

/-- Every command, case by case. -/
theorem every (i : Instr) : Statement i := by
  cases i with
  | registerWrite addr value => exact registerWrite addr value
  | fabricAccess x => exact fabricAccess x
  | linkAccessTimeout tag => exact linkAccessTimeout tag
  | heldAccessRelease i => exact heldAccessRelease i
  | powerUpAccessTimeout i => exact powerUpAccessTimeout i
  | sysNodeLock => exact sysNodeLock
  | imgLoadGo => exact imgLoadGo
  | imgPass1ReadDone => exact imgPass1ReadDone
  | imgSignatureDone => exact imgSignatureDone
  | imgPass2Done tr => exact imgPass2Done tr
  | imgSourceFault code off => exact imgSourceFault code off
  | imgLoadAbort => exact imgLoadAbort
  | imgQueuedStart => exact imgQueuedStart
  | imgActGo => exact imgActGo
  | actDrainDone => exact actDrainDone
  | actConstCopyDone => exact actConstCopyDone
  | actBarrierRelease => exact actBarrierRelease
  | actTimeout => exact actTimeout
  | start h p => exact start h p
  | admitBatch ring => exact admitBatch ring
  | stageFire k written lackIn lackCred lackWait => exact stageFire k written lackIn lackCred lackWait
  | firingEnd k id => exact firingEnd k id
  | fifoItemPresent id k upset => exact fifoItemPresent id k upset
  | fifoCreditGrant id n => exact fifoCreditGrant id n
  | fifoMark id k => exact fifoMark id k
  | fifoRewind id k => exact fifoRewind id k
  | fifoRelease id k => exact fifoRelease id k
  | fifoStarved id => exact fifoStarved id
  | fcPinHoldExpiry p => exact fcPinHoldExpiry p
  | fifoWmWrite id v => exact fifoWmWrite id v
  | stageBatchEnd k id => exact stageBatchEnd k id
  | stageSignalIssue k id => exact stageSignalIssue k id
  | batchComplete p => exact batchComplete p
  | wsFetch k id => exact wsFetch k id
  | auFetch k id => exact auFetch k id
  | auWrite k id => exact auWrite k id
  | fetchArrival k id weights stalled => exact fetchArrival k id weights stalled
  | engWaitTimeout k id w => exact engWaitTimeout k id w
  | engDrain k => exact engDrain k
  | engDrained k => exact engDrained k
  | engDrainSlow k => exact engDrainSlow k
  | engEnable k => exact engEnable k
  | engKill k => exact engKill k
  | engFailDeclare k => exact engFailDeclare k
  | engCntClr k => exact engCntClr k
  | fireHang k => exact fireHang k
  | engFault k cause => exact engFault k cause
  | arbRelocation k => exact arbRelocation k
  | shardMigration r => exact shardMigration r
  | qzSatWindowEnd k n => exact qzSatWindowEnd k n
  | qzScaleCalibrate k n v => exact qzScaleCalibrate k n v
  | arrayWindowRead master k off n => exact arrayWindowRead master k off n
  | senseComplete k p tries raw => exact senseComplete k p tries raw
  | arrayReadTimeout master k => exact arrayReadTimeout master k
  | stackPowerOn k => exact stackPowerOn k
  | autoSuspend k g => exact autoSuspend k g
  | autoResume k g => exact autoResume k g
  | arySeqKey master k second => exact arySeqKey master k second
  | aryStrayWrite master k off data => exact aryStrayWrite master k off data
  | arySeqTimeout k => exact arySeqTimeout k
  | aryErase master k => exact aryErase master k
  | aryProgramBuffer master k => exact aryProgramBuffer master k
  | aryBufferWrite master k off data poison => exact aryBufferWrite master k off data poison
  | aryCommit master k => exact aryCommit master k
  | aryPbTimeout k => exact aryPbTimeout k
  | arySuspend master k => exact arySuspend master k
  | arySuspendHeldExpiry k => exact arySuspendHeldExpiry k
  | aryResume master k => exact aryResume master k
  | aryAbort master k => exact aryAbort master k
  | aryStatus master k => exact aryStatus master k
  | aryIdentify master k => exact aryIdentify master k
  | aryContinuousRead master k => exact aryContinuousRead master k
  | aryPasswordUnlock master k => exact aryPasswordUnlock master k
  | aryLock master k => exact aryLock master k
  | pwTableWriteDone k => exact pwTableWriteDone k
  | aryPowerGrant => exact aryPowerGrant
  | aryOpDone k g us ok => exact aryOpDone k g us ok
  | aryRetire k b => exact aryRetire k b
  | load h addr len slot side kind nsid => exact load h addr len slot side kind nsid
  | loadQueuedStart => exact loadQueuedStart
  | loadManifestArrival => exact loadManifestArrival
  | nvmeCompletion status shard data => exact nvmeCompletion status shard data
  | shardArrivalDone i => exact shardArrivalDone i
  | shardReadbackDone i => exact shardReadbackDone i
  | loadSourceFault shard poison cause => exact loadSourceFault shard poison cause
  | loadSourceTimeout shard => exact loadSourceTimeout shard
  | leDisable => exact leDisable
  | leEnable => exact leEnable
  | patrolLapStart => exact patrolLapStart
  | patrolShardCheck => exact patrolShardCheck
  | castle h slot flags barrier => exact castle h slot flags barrier
  | castleBarrierRelease slot => exact castleBarrierRelease slot
  | castleTimeout slot => exact castleTimeout slot
  | castleHoldExpiry slot => exact castleHoldExpiry slot
  | arbSlotExpire => exact arbSlotExpire
  | release h slot side => exact release h slot side
  | sessionClose h slot session => exact sessionClose h slot session
  | tmPlace src t => exact tmPlace src t
  | tmFree src t => exact tmFree src t
  | tmPromote src t => exact tmPromote src t
  | tmCapture src t => exact tmCapture src t
  | tmPin src t => exact tmPin src t
  | tmUnpin src t => exact tmUnpin src t
  | tmFlush src t => exact tmFlush src t
  | tmTileCopyDone n => exact tmTileCopyDone n
  | tmMappingQuiesced n => exact tmMappingQuiesced n
  | tmHotInterval => exact tmHotInterval
  | tmDisable => exact tmDisable
  | tmEnable => exact tmEnable
  | train h addr => exact train h addr
  | trainSetupDone => exact trainSetupDone
  | trainCommitDone => exact trainCommitDone
  | scrubRead st upset => exact scrubRead st upset
  | intgScrubSlow st => exact intgScrubSlow st
  | intgFlipArm v => exact intgFlipArm v
  | arbHoldClassify i rs => exact arbHoldClassify i rs
  | batchReplay p seq => exact batchReplay p seq
  | arbHoldReplay i => exact arbHoldReplay i
  | arbHoldResign i => exact arbHoldResign i
  | shardReload r => exact shardReload r
  | reloadRetryTimer r => exact reloadRetryTimer r
  | recovRetryNow rs => exact recovRetryNow rs
  | stackDegraded k rs => exact stackDegraded k rs
  | stackDead k rs => exact stackDead k rs
  | arbBlockRetire k b rs => exact arbBlockRetire k b rs
  | arbCeRepeatResponse st a rs => exact arbCeRepeatResponse st a rs
  | arbWatchdogExpiry => exact arbWatchdogExpiry
  | poweredTimeSave => exact poweredTimeSave
  | scoreRecordQueue event kind index args => exact scoreRecordQueue event kind index args
  | scorePost master => exact scorePost master
  | scoreFlush => exact scoreFlush
  | scoreFlushTimeout => exact scoreFlushTimeout
  | scorePageProgrammed => exact scorePageProgrammed
  | scoreSectorErased => exact scoreSectorErased
  | scoreScanDone => exact scoreScanDone
  | powerFail vhold => exact powerFail vhold
  | cmdTailWrite n v => exact cmdTailWrite n v
  | cplHeadWrite n v => exact cplHeadWrite n v
  | ringEnable n => exact ringEnable n
  | ringDisable n => exact ringDisable n
  | commandDispatch => exact commandDispatch
  | completionRelease n => exact completionRelease n
  | ringCplStall n => exact ringCplStall n
  | ringModTimer n => exact ringModTimer n
  | ringProgressTimer t => exact ringProgressTimer t
  | nop h => exact nop h
  | query h kind index => exact query h kind index
  | adjourn h t => exact adjourn h t
  | resume h t => exact resume h t
  | resign h t => exact resign h t
  | imgLoad h src len => exact imgLoad h src len
  | imgActivate h en barrier => exact imgActivate h en barrier
  | census h expect => exact census h expect
  | tlEnable n => exact tlEnable n
  | tlDisable n => exact tlDisable n
  | tlTrainFlit n lanes flit => exact tlTrainFlit n lanes flit
  | tlTrainTimeout n => exact tlTrainTimeout n
  | tlDataFlit n flit => exact tlDataFlit n flit
  | tlIdleFlit n flit => exact tlIdleFlit n flit
  | tlAckFlit n flit => exact tlAckFlit n flit
  | tlNakFlit n flit => exact tlNakFlit n flit
  | tlSleepNotice n flit => exact tlSleepNotice n flit
  | tlReplayTimeout n => exact tlReplayTimeout n
  | tlAckTimer n => exact tlAckTimer n
  | tlIdleInsert n => exact tlIdleInsert n
  | tlVcIdleSend n v => exact tlVcIdleSend n v
  | tlFcInChange n level => exact tlFcInChange n level
  | tlFcStuck n => exact tlFcStuck n
  | tlFpSettleExpiry n => exact tlFpSettleExpiry n
  | tlWakeRetry n => exact tlWakeRetry n
  | linkWakeDetect n ok => exact linkWakeDetect n ok
  | read n m => exact read n m
  | write n m => exact write n m
  | readRsp n m => exact readRsp n m
  | writeAck n m => exact writeAck n m
  | errRsp n m => exact errRsp n m
  | syncOp n m => exact syncOp n m
  | watch n m => exact watch n m
  | notify n m => exact notify n m
  | watchRetry tag => exact watchRetry tag
  | stream n m => exact stream n m
  | censusStart n m => exact censusStart n m
  | censusPart n m => exact censusPart n m
  | censusChildTimeout => exact censusChildTimeout
  | counterAdd master n arg => exact counterAdd master n arg
  | semaphoreRelease master n arg => exact semaphoreRelease master n arg
  | barrierArrive master n => exact barrierArrive master n
  | eventFlagSet master n arg => exact eventFlagSet master n arg
  | reductionContribute master n arg => exact reductionContribute master n arg
  | syncTryAcquire master n => exact syncTryAcquire master n
  | syncFieldStore n off v => exact syncFieldStore n off v
  | syncPairWrite m data poison => exact syncPairWrite m data poison
  | icSetpend id => exact icSetpend id
  | icClrpend id raised => exact icClrpend id raised
  | icVectorAccept c raised => exact icVectorAccept c raised
  | icEoi c id => exact icEoi c id
  | icEnWrite m v race => exact icEnWrite m v race
  | pmuRequestEntry target => exact pmuRequestEntry target
  | pmuRequestExit => exact pmuRequestExit
  | autoIdleEntry => exact autoIdleEntry
  | autoRunExit => exact autoRunExit
  | agentAnswer a busy => exact agentAnswer a busy
  | pmuHandshakeTimeout => exact pmuHandshakeTimeout
  | wakeSource src => exact wakeSource src
  | aonCalibrate => exact aonCalibrate
  | aonCalDone xtal rc => exact aonCalDone xtal rc
  | aonClockFallback => exact aonClockFallback
  | aonClockRetry => exact aonClockRetry
  | aonCrystalStable => exact aonCrystalStable
  | aonAlarm n => exact aonAlarm n
  | pmuDomainFault dom kind => exact pmuDomainFault dom kind
  | powerOnReset => exact powerOnReset
  | supplyReset => exact supplyReset
  | pinReset cool => exact pinReset cool
  | softwareReset code => exact softwareReset code
  | perstFall => exact perstFall
  | keyRecover type => exact keyRecover type
  | arbBootCfg base compat => exact arbBootCfg base compat
  | keyFuseProg slot => exact keyFuseProg slot
  | keyFuseRevoke => exact keyFuseRevoke
  | keyFuseRaise level => exact keyFuseRaise level
  | keyFuseDone ok => exact keyFuseDone ok
  | keyAttest => exact keyAttest
  | keyAttestDone => exact keyAttestDone
  | ddrTrain => exact ddrTrain
  | ddrTrainDone mask => exact ddrTrainDone mask
  | ddrTrainTimeout mask => exact ddrTrainTimeout mask
  | ddrInitDone rs => exact ddrInitDone rs
  | thermalTrip vhold => exact thermalTrip vhold
  | jtagExtest on => exact jtagExtest on
  | resetRelease strap => exact resetRelease strap
  | ethRxFrame m frame ok => exact ethRxFrame m frame ok
  | ethRxTailWrite m v => exact ethRxTailWrite m v
  | ethTxTailWrite m v => exact ethTxTailWrite m v
  | ethTxDone m => exact ethTxDone m
  | ethLinkDown m => exact ethLinkDown m
  | usbOutTransfer data ended => exact usbOutTransfer data ended
  | usbInDone => exact usbInDone
  | usbOutTailWrite v => exact usbOutTailWrite v
  | usbInTailWrite v => exact usbInTailWrite v
  | usbBusReset speed => exact usbBusReset speed
  | csiFrameStart n num => exact csiFrameStart n num
  | csiFrameEnd n width lines dt vc data => exact csiFrameEnd n width lines dt vc data
  | csiFrameTimeout n => exact csiFrameTimeout n
  | csiFbRel n i => exact csiFbRel n i
  | csiFbCfgWrite n v => exact csiFbCfgWrite n v
  | tdmFrame samples onTime => exact tdmFrame samples onTime
  | tdmRingDrain => exact tdmRingDrain
  | tdmFsLost => exact tdmFsLost
  | tdmCtlWrite v => exact tdmCtlWrite v
  | vadWindow sum => exact vadWindow sum
  | pcieLinkTrain => exact pcieLinkTrain
  | pcieLinkFail => exact pcieLinkFail
  | pcieConfigAccess master off n wr data answer => exact pcieConfigAccess master off n wr data answer
  | cpuHoldWrite v => exact cpuHoldWrite v
  | cpuFreqWrite v => exact cpuFreqWrite v
  | pcieLinkUp rate width => exact pcieLinkUp rate width
  | ethBlockLock m => exact ethBlockLock m
  | usbBusSuspend on => exact usbBusSuspend on
  | usbStandardRequest setup => exact usbStandardRequest setup

end Sys2Proof.Laws.Clock
end

