-- ==== Sys2Proof/Tests/Slice0.lean ====
section
/-! SUPPORT. Tests: terms that the check of operands refuses, worked examples of the spec, and for every statement with hypotheses a concrete
state and operands that meet them. -/

namespace Sys2Proof.Tests

open Sys2Proof Sys2Proof.Machine

set_option Elab.async false

/-! ### Operands that do not fit are refused by the check: one ill-formed term for each kind of guard -/

/-- A header whose ring is 16: there are rings 0 to 15. -/
def badHdr : CmdHdr := { ring := 16, idx := 0, tag := 0, opcode := 0, flags := 0, handle := 0, pipe := 0 }

theorem test_wf_address : (Instr.registerWrite (2 ^ 40) 0).wf = false := by decide
theorem test_wf_value : (Instr.registerWrite 0x10000000 (2 ^ 64)).wf = false := by decide
theorem test_wf_access_length : (Instr.fabricAccess { master := 0, addr := 0, bytes := 33, write := false }).wf = false := by decide
theorem test_wf_access_data : (Instr.fabricAccess { master := 0, addr := 0, bytes := 4, write := true, data := [1] }).wf = false := by decide
theorem test_wf_tag : (Instr.linkAccessTimeout 65536).wf = false := by decide
theorem test_wf_load_code : (Instr.imgSourceFault 256 0).wf = false := by decide
theorem test_wf_header : (Instr.nop badHdr).wf = false := by decide
theorem test_wf_admit_ring : (Instr.admitBatch (some 16)).wf = false := by decide
theorem test_wf_engine : (Instr.engDrain 16).wf = false := by decide
theorem test_wf_fault_cause : (Instr.engFault 0 1).wf = false := by decide
theorem test_wf_fifo : (Instr.fifoStarved 1024).wf = false := by decide
theorem test_wf_symbol_error : (Instr.fifoItemPresent 0 0 [(39, 1)]).wf = false := by decide
theorem test_wf_symbol_zero : (Instr.scrubRead 0 [(3, 0)]).wf = false := by decide
theorem test_wf_pin : (Instr.fcPinHoldExpiry 9).wf = false := by decide
theorem test_wf_stack_group : (Instr.autoSuspend 0 5).wf = false := by decide
theorem test_wf_window : (Instr.arrayWindowRead 0 0 (2 ^ 31) 4).wf = false := by decide
theorem test_wf_senses : (Instr.senseComplete 0 0 [] []).wf = false := by decide
theorem test_wf_codewords : (Instr.senseComplete 0 0 [[none]] []).wf = false := by decide
theorem test_wf_shard : (Instr.shardArrivalDone 4096).wf = false := by decide
theorem test_wf_slot : (Instr.castleTimeout 64).wf = false := by decide
theorem test_wf_port : (Instr.tlEnable 4).wf = false := by decide
theorem test_wf_flit : (Instr.tlDataFlit 0 [0]).wf = false := by decide
theorem test_wf_message : (Instr.read 0 { kind := 1, dst := 4096, src := 0 }).wf = false := by decide
theorem test_wf_granule : (Instr.write 0 { kind := 2, dst := 0, src := 0, data := [([], false)] }).wf = false := by decide
theorem test_wf_object_field : (Instr.syncFieldStore 0 6 0).wf = false := by decide
theorem test_wf_pair : (Instr.syncPairWrite 0 [] false).wf = false := by decide
theorem test_wf_core : (Instr.icEoi 8 0).wf = false := by decide
theorem test_wf_agent : (Instr.agentAnswer 45 true).wf = false := by decide
theorem test_wf_link_rate : (Instr.pcieLinkUp 0 4).wf = false := by decide
theorem test_wf_setup : (Instr.usbStandardRequest []).wf = false := by decide
theorem test_wf_sample : (Instr.tdmFrame [2 ^ 24] 0).wf = false := by decide
theorem test_wf_reload : (Instr.shardReload { slot := 64, side := 0, shard := 0 }).wf = false := by decide

/-! ### Worked examples, read from the sections named -/

/-- 06_quantisation, the RQ_A8 example: the accumulator 697 becomes code 153. -/
theorem test_rq_example : (rqA8 697 0x00FA8000 0x80F9C000 0x7FF8A000).q = 153 := by decide
/-- 06_quantisation, the static A8 example: 1.25, 1.75, 63.75 and −64.25 in halves of scale 0.5. -/
theorem test_qz_static : [0x3D00, 0x3F00, 0x53F0, 0x53F8, 0xD404].map (fun x => ((qzCode x 0x80FF8000 0 none).q, (qzCode x 0x80FF8000 0 none).clip)) =
    [(130, false), (132, false), (255, false), (255, true), (0, false)] := by decide
/-- 06_quantisation, the dynamic A8 example: the record of a row whose largest value is 3.0. -/
theorem test_qz_dynamic : dynScale 0x4200 127 128 = 0x80FAC184 := by decide
/-- 05_number_formats, the W4 block example: −3 at input 5 and +6 at input 4 of output 2 share byte 130. -/
theorem test_w4_block : let b := (List.replicate 4096 (0 : Byte)).set 130 0xD6
    (blockCode true b 5 2, blockCode true b 4 2) = (-3, 6) := by decide +kernel
/-- 05_number_formats, the generator example: 3 is followed by 0x8020_0002. -/
theorem test_lane_next : nextLane 3 = 0x80200002 := by decide
/-- 07_weight_array, the window example: offset 0x1A3D_6F40 of S3 lies in block 410, page 169. -/
theorem test_window_page : arrayBase 3 + 0x1A3D6F40 = 0x99A3D6F40 ∧ pageId {} 0x1A3D6F40 = 410 * 256 + 169 := by decide
/-- 01_architecture, the addressing example: the tile store of E5 on device 0x283. -/
theorem test_address_example : let d := sf Reg.SYS_NODE F.SYS_NODE_DEV_ID 0x283 {}
    localOf d 0x12830005412340 = some 0x5412340 ∧ region 0x5412340 = .tile 5 := by decide
/-- 17_interrupts, the numbers of three sources. -/
theorem test_sources : srcEng 3 2 = 178 ∧ srcAry 6 9 = 393 ∧ srcTl 5 1 = 453 := by decide
/-- 18_power_and_time, the sleep example: the ratio that 1,200,002 cycles in 1,024 give. -/
theorem test_cal_ratio : calRatio 1200002 1024 = 0x493E0800000 := by decide
/-- 01_architecture, the 64 GiB example: eight ninths in whole tiles. -/
theorem test_dram_top : 16384 * (8 * capBytes 4 / 9 / 16384) = 0xE38E38000 := by decide

/-- A clocked device out of reset, with registers set in turn. -/
def stateOf (d : Dev) : State := { State.reset with dev := d }

/-- Main memory of 16 MiB with every domain on. -/
def memDev : Dev := wr Reg.PMU_DOM_STAT 0xFFFFFFFFFFFF (sf Reg.SYS_DRAM_TOP F.SYS_DRAM_TOP_TOP 0x1000000 {})

/-- An active image whose only stage is stage 0 of engine 3, and the engine's state. -/
def engDev (stg : List Byte) (st : Nat) : Dev :=
  setEngState 3 st { memDev with img := { running := true, slots := [(0, { mask := 8, sects := [(secKey secStages 3, ⟨1, stg⟩)] })] } }

/-- A stage entry that is valid and has no ports, generators, waits or signals. -/
def bareStage : List Byte := [0, 0, 0, 1] ++ List.replicate 252 0


/-- The same with one weight generator of 64 bytes. -/
def agStage : List Byte := [0x28, 0x2C, 0x30, 0x34].foldl (fun b i => b.set i 1) (((bareStage.set 0x50 64).set 0x54 1).set 0xE8 1)

/-- The same with an access-unit generator of 32 bytes at the start of main memory. -/
def auStage : List Byte := [0x28, 0x2C, 0x30, 0x34].foldl (fun b i => b.set i 1) ((((bareStage.set 0x3C 0x10).set 0x50 32).set 0x54 2).set 0xE8 1)

/-- A stage that waits for counter 0 to reach 1, and signals an ADD to it. -/
def waitStage : List Byte := (((bareStage.set 0xBC 1).set 0xC0 1).set 0xD4 1).set 0xD8 1

/-- Model slot 0 LIVE with one shard of engine 3, in main memory. -/
def shardDev (d : Dev) : Dev :=
  { d with slots := { slots := [(0, { k := { st := 3, shards := [⟨0, 0, 3, 0, 0, 16384, 0, 0, 0, 0, []⟩] } })] },
           le := { d.le with exts := [(0, { slot := 0, side := 0, shard := 0, first := 0, tiles := 1, dram := true, stack := 0, loc := 0 })] } }

/-- Ring pair 2 with 16 entries each in main memory; enabled where `en` is 16. -/
def ringDev (en : Nat) : Dev :=
  wr (Reg.RING_CMD_BASE 2) 0x1000000000 (wr (Reg.RING_CPL_BASE 2) 0x1000001000
    (wr (Reg.RING_CFG 2) (BitVec.ofNat 64 (en * 2 ^ 27 + 0x40004)) memDev))

/-- An active image with pipeline 5 alone, which has no entry route and no model slot. -/
def pipeDev (d : Dev) : Dev :=
  sf Reg.IMG_SLOT_STAT F.IMG_SLOT_STAT_A_STATE 3
    { d with img := { running := true, slots := [(0, { sects := [(secKey secPipes 0xFF, ⟨1, [5, 1, 0xFF, 0, 0xFF, 0xFF, 0xFF, 0xFF, 0xFF, 0xFF, 0xFF, 0xFF, 0, 0] ++ List.replicate 18 0⟩)] })] } }

/-- An active image with quantiser entry 0 of engine 3: MODE 2, a record of its own, SAT_THRESH 100, a window of two rows. -/
def qzDev : Dev :=
  { memDev with img := { running := true, slots := [(0, { mask := 8, sects := [(secKey secQz 3, ⟨1, [0, 2, 0, 8, 0, 0x80, 0, 0, 0, 0x80, 0, 0, 100, 0, 0, 0, 2, 0, 0, 0, 32, 0, 0, 0] ++ List.replicate 8 0⟩)] })] } }

/-- Device 0 of a locked torus of 2 × 2. -/
def torusDev (d : Dev) : Dev := nodeLock (sf Reg.TL_TORUS F.TL_TORUS_ROWS 2 (sf Reg.TL_TORUS F.TL_TORUS_COLS 2 d))

/-- The same with port 1 in a state. -/
def portDev (st : Nat) (p : LinkPort) : Dev := portPut 1 p (setPortState 1 st (torusDev memDev))
/-! ### The hypotheses of the statements are met -/

/-! EmptyQueueTicks -/

theorem witness_EmptyQueueTicks : State.reset.pending = [] := rfl

/-! UnclockedDomainDoesNothing -/

theorem witness_UnclockedDomainDoesNothing :
    sysClocked { State.reset.dev with boot := { State.reset.dev.boot with inReset := true } } = false ∧
    (Instr.sysNodeLock).always = false ∧ (Instr.sysNodeLock).wf = true := by decide

/-! StepKeepsCanonicalForm -/

theorem witness_StepKeepsCanonicalForm : State.reset.dev.ok := by
  refine ⟨⟨List.Pairwise.nil, ?_⟩, List.Pairwise.nil, List.Pairwise.nil, List.Pairwise.nil⟩
  intro c hc
  exact absurd hc List.not_mem_nil

/-! QueueKeepsRunning -/

theorem witness_QueueKeepsRunning : ∀ c ∈ [Instr.sysNodeLock, .imgLoadGo], c.wf = true := by decide

/-! UnmappedWhenNotGlobal -/

theorem witness_UnmappedWhenNotGlobal :
    (Instr.fabricAccess { master := 0, addr := 0x50000000000, bytes := 4, write := false }).wf = true ∧
    (0x50000000000 : Nat) / 2 ^ 52 = 0 ∧ (0x50000000000 : Nat) / 2 ^ 40 % 4096 ≠ 0 := by decide

/-! BusErrorsAreLoggedAndCounted -/

theorem witness_BusErrorsAreLoggedAndCounted : (4 : Nat) < 16 ∧ (0x21 : Nat) < 256 ∧ (0x10000010 : Nat) < 2 ^ 53 := by decide

/-! RefusedAccesses -/

theorem witness_RefusedAccesses :
    (Instr.fabricAccess { master := 0, addr := 0x30000, bytes := 4, write := false }).wf = true ∧
    localOf State.reset.dev 0x30000 = some 0x30000 ∧ region 0x30000 = .reserved ∧ region 0 = .rom ∧ region 0x20900000 = .calRow 0 ∧
    region 0x10FF0000 = .regs ∧ regListed 0x10FF0000 = false ∧ region 0x4400000 = .tile 1 ∧ region 0x1000000000 = .dram ∧
    dramTop State.reset.dev = 0 ∧ region 0x800000000 = .array 0 ∧ regListed 0x10000010 = true ∧ regsNatural 0x10000012 4 = false ∧
    accessCause State.reset.dev 0x10000012 4 false = none ∧ accessWaits State.reset.dev 0x30000 4 false = false ∧
    heldBefore State.reset.dev 0 0x30000 0 = false ∧ localOf State.reset.dev 0x18300054123400 = none ∧
    (0x18300054123400 : Nat) / 2 ^ 52 = 1 ∧ hasRoute State.reset.dev 0x830 = false ∧
    accessWaits (setBoot { State.reset.dev.boot with rising := 2 } (wr Reg.PMU_DOM_STAT 1 State.reset.dev)) 0x4400000 4 false = false := by decide

/-! RegisterWriteByAccessCode -/

theorem witness_RegisterWriteByAccessCode :
    sysClocked {} = true ∧ (0x10000010 : Nat) < 2 ^ 40 ∧ (5 : Nat) < 2 ^ 64 ∧ ((regFind 0x10000010).any (fun r => decide (r.reg.addr = 0x10000010) &&
      r.desc.flds.any (fun f => decide (f.acc = .rw) && !(fldActs r.desc.base f.fld)) && !(regIgnores {} r.desc.base r.i) &&
      decide (r.desc.base ∉ [Reg.INTG_LOG_STAT.addr, Reg.INTG_LOG_ENT.addr, Reg.INTG_LAP_TMO.addr, Reg.CPU_ENTRY.addr, Reg.PMU_RESUME.addr,
        Reg.INTG_SCRUB_EN.addr, Reg.LE_NVME_CFG.addr, (Reg.TL_RT_COL 0).addr, (Reg.TL_RT_ROW 0).addr]))) = true := by decide +kernel

/-! MemoryReadsAndWrites -/

theorem witness_MemoryReadsAndWrites :
    let s := stateOf memDev
    let r : BusAcc := { master := 1, addr := 0x1000000010, bytes := 32, write := false }
    let w : BusAcc := { master := 1, addr := 0x1000000010, bytes := 32, write := true, data := List.replicate 32 7, poison := true }
    sysClocked s.dev = true ∧ (Instr.fabricAccess r).wf = true ∧ (Instr.fabricAccess w).wf = true ∧ region r.addr = .dram ∧
    accessWaits s.dev r.addr 32 false = false ∧ accessWaits s.dev r.addr 32 true = false ∧ localCause s.dev r.addr 32 false = none ∧
    localCause s.dev r.addr 32 true = none ∧ Clean s.dev r.addr 32 ∧ gb s.dev Reg.INTG_FLIP F.INTG_FLIP_ARM = false := by decide

/-! HeldAndLinkAccessesEnd -/

/-- A held read of main memory, and a read sent over a link with TAG 5. -/
def waitDev : Dev := { memDev with
  boot := { held := [⟨1, 0x1000000000, false, 4, [], false, none⟩] },
  links := { reqs := [(5, ⟨.access 1 false 0 4, { kind := 1, dst := 65, src := 0, addr := 0x1000000000 }, true⟩)] } }
theorem witness_HeldAndLinkAccessesEnd : sysClocked waitDev = true ∧ (heldAt waitDev 0).isSome = true ∧ heldAt waitDev 1 = none ∧
    accessWaits waitDev 0x1000000000 4 false = false ∧ localCause waitDev 0x1000000000 4 false = none ∧ Clean waitDev 0x1000000000 4 ∧
    (mget waitDev.links.reqs 5).isSome = true ∧ (∀ p ∈ waitDev.links.reqs, p.2.sent = true) ∧ mget waitDev.links.reqs 6 = none := by decide
theorem witness_HeldAccessWaits :
    accessWaits (setBoot { waitDev.boot with rising := 8 } (wr Reg.PMU_DOM_STAT 0 waitDev)) 0x1000000000 4 false = true := by decide

/-! NodeLockFillsTheRoutes -/

theorem witness_NodeLockFillsTheRoutes :
    let s : State := { State.reset with dev := wr Reg.TL_TORUS 0x0404 State.reset.dev }
    nodeLocked s.dev = false ∧ torusRows s.dev = 4 ∧ torusCols s.dev = 4 := by decide

/-! ImageLoadsRunAndEnd -/

def imgDev (x : Img) : Dev := { memDev with img := x }
theorem witness_ImageLoadsRunAndEnd :
    sysClocked (imgDev {}) = true ∧ (imgDev {}).train = none ∧ (imgDev {}).boot.auto = false ∧ imgBusy (imgDev {}) = false ∧
    imgBusy (imgDev { load := some { pass := 1, src := 0x1000000000, len := 0x220 } }) = true ∧
    imgBusy (imgDev { queue := [.load { ring := 0, idx := 0, tag := 0, opcode := 0x12, flags := 0, handle := 1, pipe := 0 } 0x1000000000 0x220] }) = false := by
  decide
/-- An image of 0x220 bytes in main memory whose TOTAL_SIZE is right and whose directory is empty. -/
def imgMem (l : ImgLoad) : Dev := rawStore 0x10000000E (leBytes 2 0) (rawStore 0x100000000C (leBytes 4 0x220) (imgDev { load := some l }))
theorem witness_ImageLoadReads :
    let l : ImgLoad := { pass := 2, src := 0x1000000000, len := 0x220, digest := [1] }
    (imgSource l (imgMem l)).1.2 = none ∧ (imgSource l (imgMem l)).2 = imgMem l ∧ (dirCheck 0x220 (imgSource l (imgMem l)).1.1).isSome = true := by
  decide +kernel

/-! ActivationsRunAndEnd -/

/-- Slot states `st` with an activation. -/
def actDev (st : Nat) (x : Img) : Dev := wr Reg.IMG_SLOT_STAT (BitVec.ofNat 64 st) { memDev with img := x }
def actBarDev : Dev := rawStore (objAddr 6) (objBytes ⟨1, 4, 9, statusMk false 2 0 0⟩)
  (actDev 0x23 { act := some { phase := 3, barrier := some 6, gen := some 7 }, running := true })
theorem witness_ActivationsRunAndEnd :
    let e := actDev 0x00 {}
    let v := sf Reg.IMG_EPOCH_A F.IMG_EPOCH_A_EPOCH 5 (actDev 0x02 {})
    let low := sf Reg.IMG_EPOCH_MIN F.IMG_EPOCH_MIN_FLOOR 9 v
    let busy := { v with fifos := [(0, { fifoNew 0 1024 1 4 0 0 1 with items := [{ data := [], fin := false, empty := false, poison := false }] })] }
    sysClocked e = true ∧ e.train = none ∧ imgBusy e = false ∧ slotState e (standbySlot e) ≠ 2 ∧
    slotState v (standbySlot v) = 2 ∧ slotEpoch low (standbySlot low) < gf low Reg.IMG_EPOCH_MIN F.IMG_EPOCH_MIN_FLOOR ∧
    imgBusy busy = false ∧ gb busy Reg.IMG_ACT_CTL F.IMG_ACT_CTL_BARRIER_EN = false ∧
    gf busy Reg.IMG_EPOCH_MIN F.IMG_EPOCH_MIN_FLOOR ≤ slotEpoch busy (standbySlot busy) ∧ activeSlot busy = none ∧ anyBatch busy = true := by decide
theorem witness_ActivationPhases :
    let one := actDev 0x02 { act := some { phase := 1 } }
    let con := actDev 0x02 { act := some { phase := 1 }, slots := [(0, { consts := [(3, ⟨0, 32, []⟩)] })] }
    let two := actDev 0x23 { act := some { phase := 2 }, running := true }
    anyBatch one = false ∧ one.tm = {} ∧ (slotCfg one (standbySlot one)).consts = [] ∧ cfgSync (slotCfg one (standbySlot one)) = [] ∧
    imgBusy one = true ∧ anyBatch con = false ∧ (slotCfg con (standbySlot con)).consts ≠ [] ∧
    (slotCfg two (standbySlot two)).consts = [] ∧ cfgSync (slotCfg two (standbySlot two)) = [] := by decide
theorem witness_ActivationBarrier :
    let b := actBarDev
    objLocal b 6 = true ∧ Clean b (objAddr (objNum 6)) 16 ∧ (objPeek b (objNum 6)).type = 2 ∧ (objPeek b (objNum 6)).gen ≠ 7 ∧
    cfgSync (slotCfg b (standbySlot b)) = [] := by decide

/-! EngineStates -/

theorem witness_EngineStates :
    let d := engDev bareStage
    sysClocked (d 2) = true ∧ engOff (d 2) 3 = false ∧ engState (d 2) 3 = 2 ∧ engState (d 3) 3 = 3 ∧ engIdle (d 3) 3 = true ∧
    mhas (d 3).engs.slow 3 = false ∧ pmuBusy (d 3) = false ∧ engState (d 4) 3 = 4 ∧ engState (d 6) 3 = 6 ∧ (d 2).fifos = [] ∧ (d 2).tm = {} ∧
    engStages (setEngState 4 2 (d 2)) 4 = [] ∧ engOff (setEngState 4 2 (d 2)) 4 = false := by decide
theorem witness_EngineHangs :
    let d := stageUpd (stKey 3 0) (fun rt => { rt with firings := [{ pos := [0, 0, 0, 0] }] }) (engDev bareStage 2)
    sysClocked d = true ∧ engOff d 3 = false ∧ engState d 3 = 2 ∧ pmuBusy d = false ∧ d.fifos = [] ∧ d.tm = {} ∧
    (engStages d 3).any (fun p => !(stageRt d (stKey p.1 p.2.id)).firings.isEmpty) = true ∧ engIdle d 3 = false ∧
    mhas { d.engs with slow := [(3, ())] }.slow 3 = true := by decide

/-! StagesFireAndEnd -/

theorem witness_StageFires :
    let d := { engDev agStage 2 with pipes := [(0, { nextFlow := 1 })] }
    let st := (stageOf d 3 0).getD (stgParse [])
    sysClocked d = true ∧ stageOf d 3 0 = some st ∧ Rising d.fifos ∧ hostOf d 3 0 = 3 ∧ engStages d 3 = [(3, st)] ∧
    fireReady d 3 3 st = some [] ∧ (∀ w ∈ st.waits, w.cond = 0) ∧ wsSeq st (stageQz d 3 st) (stageRt d 1536).loops = [0] ∧
    engStages d 4 = [] := by decide
theorem witness_StageEnds :
    let d := stageUpd 1536 (fun rt => { rt with firings := [{ pos := [0, 0, 0, 0], ready := true, passEnd := true, resv := [(0, 2)] }] }) (engDev agStage 2)
    let e := stageUpd 1536 (fun rt => { rt with done := true, sigDue := 1 }) (engDev agStage 2)
    let st := (stageOf d 3 0).getD (stgParse [])
    stageOf d 3 0 = some st ∧ ((stageRt d 1536).firings.head?.map (fun f => (f.ready, f.owed, f.resv)) = some (true, [], [(0, 2)])) ∧
    (stageRt e 1536).firings = [] ∧ inPorts st = [] ∧ (stageRt e 1536).done = true ∧ (stageRt e 1536).sigDue = 1 ∧
    (stageRt e 1536).writes = [] ∧ e.tm.held = [] ∧ outPorts st = [] ∧ (∀ g ∈ st.sigs, g.op = 0) := by decide
theorem witness_StageWaitsAndSignals :
    let d := stageUpd 1536 (fun rt => { rt with sigDue := 1 }) { engDev waitStage 2 with pipes := [(0, { nextFlow := 1 })] }
    let st := (stageOf d 3 0).getD (stgParse [])
    stageOf d 3 0 = some st ∧ (fireReady d 3 3 st).isSome = true ∧ fireWaits 3 1536 st d = (false, d) ∧
    (st.waits.getD 0 ⟨0, 0, 0⟩).cond = 1 ∧ (stageRt d 1536).waits = 0 ∧ (∃ g g2, st.sigs = [g, g2] ∧ g.op = 1 ∧ g2.op = 0 ∧ objLocal d g.obj = true) := by
  refine ⟨?_, ?_, ?_, ?_, ?_, ⟨_, _, rfl, ?_, ?_, ?_⟩⟩ <;> decide +kernel

/-! StageTilesAreFetched -/

theorem witness_StageFetches :
    let d := shardDev { engDev agStage 2 with pipes := [(0, { nextFlow := 1 })] }
    let st := (stageOf d 3 0).getD (stgParse [])
    stageOf d 3 0 = some st ∧ (wsPick d 3).map (fun p => (p.1, p.2.id)) = some (3, 0) ∧ auWaits d 3 = false ∧ 0 < tilesFree d 3 ∧
    wsPages d 3 st (wsTile d 3 st (stageRt d 1536) 0) = [] ∧ (wsPick (engDev agStage 3) 3).map (fun p => (p.1, p.2.id)) ≠ some (3, 0) := by decide
theorem witness_StageReads :
    let d := { engDev auStage 2 with pipes := [(0, { nextFlow := 1, batches := [⟨0, 0, 0, 0, 0, 0, 0, .train 0, ⟨0, 0, 0, 0, 0, 0, [], 0, 0⟩, 0, 0, false, 0, false, false, false, false, none⟩] })] }
    let st := (stageOf d 3 0).getD (stgParse [])
    stageOf d 3 0 = some st ∧ auMay d 3 3 st = true ∧ 0 < tilesFree d 3 := by decide
theorem witness_StageWrites :
    let w : PendWr := ⟨none, 0x1000000020, List.replicate 32 7, true⟩
    let d := stageUpd 1536 (fun rt => { rt with writes := [w], au := [⟨0, 0, 32, [], [], [], false, 0⟩] }) (engDev auStage 2)
    region w.off = .dram ∧ d.train = none ∧ accessCause d w.off 32 true = none ∧ Clean d w.off 32 ∧
    gb d Reg.INTG_FLIP F.INTG_FLIP_ARM = false ∧ firingNow (stageRt d 1536) = none ∧
    ((stageRt d 1536).au[0]?).map RunTile.here = some false := by decide
theorem witness_WeightTileArrives :
    let t : RunTile := { ag := 0, off := 0, len := 64 }
    let d := stageUpd 1536 (fun rt => { rt with ws := [t] }) (shardDev (engDev agStage 2))
    let st := (stageOf d 3 0).getD (stgParse [])
    stageOf d 3 0 = some st ∧ wsPages d 3 st t = [] ∧ wsAddrs d 3 st t = [0x1000000000, 0x1000000020].map some ∧
    (∀ a ∈ [0x1000000000, 0x1000000020], region a = .dram ∧ Clean d a 32) := by decide

/-! BatchesAreAdmittedAndComplete -/

theorem witness_StartWaits :
    let h0 : CmdHdr := { ring := 2, idx := 0, tag := 7, opcode := 1, flags := 0, handle := 0 }
    let p : StartP := { pipe := 5, seqs := 1, sflags := 0, session := 0, adapter := 0xFFFF, entryAddr := 0, entryLen := [0, 0, 0, 0], exitAddr := 0, exitLen := 0 }
    let h := { withOp 0x01 h0 with pipe := 5 }
    let d := pipeDev (ringDev 16)
    let e := { d with rings := { d.rings with waiting := [(2, (h, p))], order := [2] } }
    sysClocked d = true ∧ d.train = none ∧ WellFormed.okHdr h0 = true ∧ WellFormed.okStart p = true ∧ startCheck d h p = 0 ∧
    startCheck (ringDev 16) h p = 0xC3 ∧ canAdmit e 5 = true ∧ startBehind e 2 5 = false ∧ (pipeSt e 5).batches = [] ∧ mget e.rings.waiting 3 = none ∧
    canAdmit { e with rings := { e.rings with admStop := true } } 5 = false := by decide
theorem witness_BatchEnds :
    let h : CmdHdr := { ring := 2, idx := 0, tag := 7, opcode := 1, flags := 0, handle := 0, pipe := 5 }
    let b : Batch := { seq := 3, seqs := 1, session := 0, side := 0, slot := 0xFF, adapter := 0xFFFF, time := 9, src := .start h, flow := 0, ended := true,
                       start := { pipe := 5, seqs := 1, sflags := 0, session := 0, adapter := 0xFFFF, entryAddr := 0, entryLen := [0, 0, 0, 0], exitAddr := 0, exitLen := 0 } }
    let d := { ringDev 16 with pipes := [(5, { batches := [b] })] }
    d.train = none ∧ d.engs.qz = [] ∧ (pipeSt d 5).batches = [b] ∧ adapterGone d b = false ∧ mgetD d.rings.held 2 [] = [] ∧ RingReady d 2 := by
  refine ⟨by decide, by decide, by decide, by decide, by decide, by decide, by decide, by decide, by decide, by decide, by decide, by decide⟩

/-! StreamFifosMoveItems -/

theorem witness_StreamFifosMoveItems :
    let it : Item := { data := List.replicate 32 7, fin := false, empty := false, poison := false }
    let x : FDst := { pres := 1, shown := [it], rp := 0 }
    let y : FDst := { pres := 2, rp := 2, last := 2, hi := 2, mark := some 0 }
    let f : Fifo := { src := 0, dst := epMk 1 3 0, mask := 0, seg := 1, cut := true, markEn := true, stall := false, thresh := 1, pin := 1,
                      items := [it, it], rel := 2, cred := 30, transit := 2, dsts := [(3, x)] }
    let d := { memDev with fifos := [(9, f)], pinForce := false }
    let g := { f with dsts := [(3, y)] }
    sysClocked d = true ∧ mget d.fifos 9 = some f ∧ x.pres < f.rel ∧ f.items[x.pres - f.base]? = some it ∧ it.data.length = 32 ∧ epKind f.dst = 1 ∧
    epKind (epMk 7 0 5) = 7 ∧ f.rel ≤ y.pres ∧ y.last ≤ fifoEnd g ∧ pinOr d 1 = false ∧ d.pinForce = false ∧ fifoDepth f = 32 ∧ epKind f.src ≠ 4 ∧
    fifoWaits d 9 3 f x = false ∧ pinOr (sf (Reg.FIFO_STAT 9) F.FIFO_STAT_ABOVE 1 d) 1 = true := by decide
theorem witness_FifoStarved :
    let b : Batch := { seq := 3, seqs := 1, session := 0, side := 0, slot := 0xFF, adapter := 0xFFFF, time := 9, src := .train 0, flow := 0,
                       start := { pipe := 5, seqs := 1, sflags := 0, session := 0, adapter := 0xFFFF, entryAddr := 0, entryLen := [0, 0, 0, 0], exitAddr := 0, exitLen := 0 } }
    let x : FDst := {}
    let f : Fifo := { src := 0, dst := epMk 7 0 5, mask := 0, seg := 1, cut := true, markEn := true, stall := false, thresh := 1, pin := 1, cred := 32, dsts := [(0, x)] }
    let d := { memDev with fifos := [(9, f)], pipes := [(5, { batches := [b] })] }
    mget d.fifos 9 = some f ∧ fifoWaits d 9 0 f x = true ∧ x.starved = false := by decide

/-! QuantiserWindowsAndRelocation -/

theorem witness_QuantiserWindows :
    let d := qzDev
    let c := (qzOf d 3 0).getD (qzParse [])
    let full := qzUpd 3 0 (fun q => { q with rows := 2, elems := 64, clips := 40 }) d
    sysClocked d = true ∧ qzOf d 3 0 = some c ∧ c.window = 2 ∧ (qzRt d 3 0).rows = 0 ∧ c.thresh * 64 < 65536 * 40 ∧ c.window ≤ (qzRt full 3 0).rows ∧
    recValid 0x8000 = true ∧ gb (sf (Reg.QZ_STAT 3 0) F.QZ_STAT_VALID 1 d) (Reg.QZ_STAT 3 0) F.QZ_STAT_VALID = true ∧ c.out ≠ 0 ∧
    gb d (Reg.QZ_STAT 3 0) F.QZ_STAT_VALID = false := by decide
theorem witness_LostEngine :
    let d := sf Reg.ARB_MIGRATE F.ARB_MIGRATE_LEFT 2 (shardDev (engDev bareStage 6))
    let r : ReloadIn := { slot := 0, side := 0, shard := 0 }
    engState d 3 = 6 ∧ gb d Reg.ARB_HEALTH ⟨51, 1⟩ = false ∧ WellFormed.okReload r = true ∧
    ((sideOf d 0 0).shards.find? (fun m => m.id == r.shard)).map ManShard.engine = some 3 ∧ d.arb.moves = [] ∧
    gf d Reg.ARB_MIGRATE F.ARB_MIGRATE_LEFT = 2 ∧ gf memDev Reg.ARB_MIGRATE F.ARB_MIGRATE_LEFT = 0 ∧
    ¬ (engState memDev 3 = 6 ∧ gb memDev Reg.ARB_HEALTH ⟨51, 1⟩ = false) := by decide

/-! WindowSequencesAct -/

theorem witness_WindowSequencesAct :
    let at' := fun (a : Ary) => aryUpd 3 (fun _ => a) (sf (Reg.ARY_GEOM 3) F.ARY_GEOM_BLOCKS 512 memDev)
    let d := at' { seq := some (2, 1) }
    sysClocked d = true ∧ d.boot.held = [] ∧ localCause d (arrayBase 3 + 0x0E2D6000) 4 true = none ∧
    localCause d (arrayBase 3 + 0x01D29000) 4 true = none ∧ (aryOf d 3).seq = some (2, 1) ∧ (aryOf d 3).want = [] ∧ (aryOf d 3).reads = [] ∧
    (aryOf (at' { seq := some (1, 1) }) 3).seq = some (1, 1) ∧ (aryOf (at' {}) 3).seq = none ∧ localCause d (arrayBase 3 + 64) 4 true = none ∧
    gf d (Reg.ARY_STAT 3) F.ARY_STAT_PW_BUSY = 0 ∧ gf (sf (Reg.ARY_STAT 3) F.ARY_STAT_PW_BUSY 1 d) (Reg.ARY_STAT 3) F.ARY_STAT_PW_BUSY = 1 ∧
    d.arys.grants = [] ∧ d.arys.waitq = [] ∧ (wearOf d 3 false 0).count = 0 ∧ regionState d 3 false 0 = 0 ∧
    (aryOf (at' { seq := some (2, 1), ops := [(1, { op := 1, index := 130, page := 0, wait := false, begun := true })] }) 3).ops =
      [(1, { op := 1, index := 130, page := 0, wait := false, begun := true })] ∧
    ({ op := 1, index := 130, page := 0, wait := false, begun := true } : AryOp).runs = true := by decide +kernel
theorem witness_ArrayQuiet :
    ArrayQuiet (aryUpd 3 (fun _ => { ops := [(1, { op := 1, index := 130, page := 0, wait := false, begun := true, master := 1 })] }) memDev) := by
  unfold ArrayQuiet; decide +kernel

/-! PasswordsGuardRegions -/

theorem witness_PasswordsGuardRegions :
    let d := aryUpd 3 (fun _ => { seq := some (2, 1) }) (sf (Reg.ARY_GEOM 3) F.ARY_GEOM_BLOCKS 512 memDev)
    let locked := sf (Reg.ARY_REGION 3) F.ARY_REGION_STATE 1 d
    sysClocked d = true ∧ d.boot.held = [] ∧ localCause d (arrayBase 3 + 0x0E2D6000) 4 true = none ∧ (aryOf d 3).seq = some (2, 1) ∧
    gf d (Reg.ARY_STAT 3) F.ARY_STAT_PW_BUSY = 0 ∧ gf d (Reg.ARY_STAT 3) F.ARY_STAT_PW_FAILS = 0 ∧
    gf (sf (Reg.ARY_STAT 3) F.ARY_STAT_PW_FAILS 8 d) (Reg.ARY_STAT 3) F.ARY_STAT_PW_FAILS = 8 ∧ regionState d 3 false 0 = 0 ∧
    regionState locked 3 false 0 = 1 ∧ regionState (sf (Reg.ARY_REGION 3) F.ARY_REGION_STATE 2 d) 3 false 0 = 2 ∧
    (rd d (Reg.ARY_PW 3)).toNat = 0 ∧ (aryOf (aryUpd 3 (fun _ => { pwWrite := some ⟨24, true, List.replicate 8 1⟩, prot := true }) memDev) 3).prot = true ∧
    rising d 35 = false ∧ rising { d with boot := { d.boot with rising := 2 ^ 35 } } 35 = true ∧ domOn d 33 = true ∧
    pwValid (domsOff (2 ^ 33) d) = none := by decide +kernel
theorem witness_ArrayQuietThere :
    ArrayQuiet (aryUpd 3 (fun _ => { seq := some (2, 1) }) (sf (Reg.ARY_GEOM 3) F.ARY_GEOM_BLOCKS 512 memDev)) := by
  unfold ArrayQuiet; decide +kernel

/-! ProgramsAndErasesRunAndEnd -/

theorem witness_ProgramsAndErasesRunAndEnd :
    let at' := fun (a : Ary) => aryUpd 3 (fun _ => a) (sf (Reg.ARY_GEOM 3) F.ARY_GEOM_BLOCKS 512 memDev)
    let o : AryOp := { op := 1, index := 130, page := 0, wait := false, begun := true, master := 1 }
    let b : AryPb := { sector := false, index := 130, page := 3, data := [(7, 9)] }
    let q : AryOp := { o with op := 2, data := [(7, 9)] }
    let d := at' { pb := some b }
    let e := sf (Reg.ARY_RD_CTL 3) F.ARY_RD_CTL_AUTO_SUSP 1 (at' { ops := [(1, o)], want := [⟨0, pageId d 0x80000, 0⟩] })
    sysClocked d = true ∧ (aryOf d 3).want = [] ∧ (aryOf d 3).reads = [] ∧ d.boot.held = [] ∧ (aryOf d 3).pb = some b ∧ (aryOf d 3).seq = none ∧
    localCause d (arrayBase 3 + 64) 32 true = none ∧ localCause d (arrayBase 3 + 0x0E2D6000) 4 true = none ∧ mget (aryOf d 3).ops 1 = none ∧
    mainBlocks d / 4 = 128 ∧ gb d Reg.INTG_FLIP F.INTG_FLIP_ARM = false ∧ readsErased d (targetAt d 3 false 130 2).1 0x80000 = true ∧
    readsErased (rawStore (targetAt d 3 false 130 2).1 [1] d) (targetAt d 3 false 130 2).1 0x80000 = false ∧
    d.arys.grants = [] ∧ d.arys.waitq = [] ∧ (aryOf e 3).ops = [(1, o)] ∧ o.runs = true ∧ (aryOf e 3).want = [⟨0, pageId d 0x80000, 0⟩] ∧
    pagePlane d (pageId d 0x80000) / 32 = 1 ∧ gb e (Reg.ARY_RD_CTL 3) F.ARY_RD_CTL_AUTO_SUSP = true ∧ gb (sf (Reg.ARY_RD_CTL 3) F.ARY_RD_CTL_AUTO_SUSP 0 e) (Reg.ARY_RD_CTL 3) F.ARY_RD_CTL_AUTO_SUSP = false ∧
    (aryOf (at' { ops := [(1, { o with bySlot := true })] }) 3).ops = [(1, { o with bySlot := true })] ∧ q.runs = true ∧ Rising q.data ∧
    (∀ x ∈ q.data, x.1 < 0x80000) := by decide +kernel
theorem witness_OperationQuiet :
    ArrayQuiet (aryUpd 3 (fun _ => { ops := [(1, { op := 1, index := 130, page := 0, wait := false, begun := true, master := 1 })] })
      (sf (Reg.ARY_GEOM 3) F.ARY_GEOM_BLOCKS 512 memDev)) := by
  unfold ArrayQuiet; decide +kernel

/-! SensesServeReads -/

theorem witness_SensesServeReads :
    let at' := fun (a : Ary) => aryUpd 3 (fun _ => a) memDev
    let d := at' { cur := [(0, ⟨2, 0, 0⟩)], reads := [⟨1, arrayBase 3 + 64, 0, 32⟩] }
    sysClocked d = true ∧ d.boot.held = [] ∧ localCause d (arrayBase 3 + 64) 32 false = none ∧ pageId d 64 = 0 ∧ pagePlane d 0 = 0 ∧
    gf d (Reg.ARY_STAT 3) F.ARY_STAT_MODE = 0 ∧ gf (sf (Reg.ARY_STAT 3) F.ARY_STAT_MODE 1 d) (Reg.ARY_STAT 3) F.ARY_STAT_MODE = 1 ∧
    unreadable d 3 0 = false ∧ unreadable (at' { bad := [0] }) 3 0 = true ∧ pageHeld d 3 0 = none ∧ pageHeld (at' { creg := [(0, ⟨0, true, [], 2⟩)] }) 3 0 = some ⟨0, true, [], 2⟩ ∧
    Clean d (arrayBase 3 + 64) 32 ∧ mget (aryOf d 3).cur 0 = some ⟨2, 0, 0⟩ ∧ mget (aryOf d 3).cur 1 = none ∧ mget (aryOf d 3).creg 0 = none ∧
    (aryOf d 3).want = [] ∧ (aryOf (at' {}) 3).cur = [] ∧ (aryOf d 3).reads = [⟨1, arrayBase 3 + 64, 0, 32⟩] ∧
    WellFormed.okTries [List.replicate 8 (some 9)] = true ∧ WellFormed.okTries [none :: List.replicate 7 (some 0)] = true ∧ WellFormed.okTries [List.replicate 8 (some 0)] = true ∧
    9 ≤ gf d (Reg.ARY_CE_THRESH 3) F.ARY_CE_THRESH_BITS ∧ gb (sf (Reg.ARY_RD_CTL 3) F.ARY_RD_CTL_RETRY_EN 0 d) (Reg.ARY_RD_CTL 3) F.ARY_RD_CTL_RETRY_EN = false := by
  decide +kernel

/-! LoadsAreTakenAndHeld -/

theorem witness_LoadsAreTakenAndHeld :
    let h : CmdHdr := { ring := 2, idx := 0, tag := 7, opcode := 0x10, flags := 0, handle := 5 }
    let r : LoadRun := { h := h, kind := 0, addr := 0x1000002000, nsid := 0, len := 512, slot := 3, side := 1 }
    let d := sf Reg.LE_CTL F.LE_CTL_EN 1 (ringDev 16)
    let ops := fun (st : OpState) (d : Dev) => { d with rings := { d.rings with ops := [(5, { hdr := h, state := st })] } }
    let q := ops .queued (setLe { d.le with queue := [r] } d)
    let run := ops .running (setRun r d)
    let adj := ops .adjourned (setRun { r with adj := 1 } d)
    let nv := wr Reg.LE_NVME_CQDB 0x1000003000 (setLe { d.le with run := some { r with kind := 1, nsid := 1 }, nvOut := 1 } d)
    sysClocked d = true ∧ WellFormed.okHdr h = true ∧ RingReady d 2 ∧ mgetD d.rings.held 2 [] = [] ∧ pmuRun d = true ∧ d.le.run = none ∧
    gb d Reg.LE_CTL F.LE_CTL_EN = true ∧ gb (sf Reg.LE_CTL F.LE_CTL_EN 0 d) Reg.LE_CTL F.LE_CTL_EN = false ∧ mhas d.rings.ops 5 = false ∧
    mhas run.rings.ops 5 = true ∧ q.le.queue = [r] ∧ mget q.rings.ops 5 = some { hdr := h, state := .queued } ∧ ownOps run = [] ∧
    run.le.run = some r ∧ adj.le.run.map LoadRun.adj = some 1 ∧ nv.le.nvOut = 1 ∧ nv.le.nvq = [] ∧ (rd nv Reg.LE_NVME_CQDB).toNat = 0x1000003000 ∧
    region 0x1000003000 = .dram ∧ accessCause nv 0x1000003000 4 true = none ∧ Clean nv 0x1000003000 4 := by
  refine ⟨by decide, by decide, ⟨by decide, by decide, by decide, by decide, by decide, by decide, by decide⟩, by decide, by decide, by decide, by decide, by decide, by decide, by decide, by decide, by decide, by decide, by decide, by decide, by decide, by decide, by decide, by decide, by decide, by decide⟩

/-! LoadsArriveAndEnd -/

theorem witness_LoadsArriveAndEnd :
    let h : CmdHdr := { ring := 2, idx := 0, tag := 7, opcode := 0x10, flags := 0, handle := 5 }
    let r : LoadRun := { h := h, kind := 0, addr := 0x1000002000, nsid := 0, len := 512, slot := 3, side := 1 }
    let d := setRun r (ringDev 16)
    let m : ManShard := ⟨4, 0, 3, 2, 0, 16384, 0, 0x1000004000, 0, 0xFFFF, List.replicate 64 0⟩
    let x : Extent := { slot := 3, side := 1, shard := 4, first := 0, tiles := 1, dram := true, stack := 0, loc := 0x100000 }
    let man : Manifest := { flags := 0, keySlot := 0, mask := 8, base := [], pub := [], shards := [m], ads := [], digest := [] }
    let arr : ShardRun := { exts := [x], pieces := [] }
    let run : LoadRun := { r with man := some man, shards := [(4, arr)] }
    let e := setRun run (ringDev 16)
    sysClocked d = true ∧ d.le.run = some r ∧ r.man = none ∧ region r.addr = .dram ∧ accessCause d r.addr 512 false = none ∧ Clean d r.addr 512 ∧
    manCheck d r (rawBytes d r.addr 512) = 1 ∧ runShard run 4 = some m ∧ mget run.shards 4 = some arr ∧ run.adapters = false ∧
    arr.exts.head?.filter (fun x => x.dram) = some x ∧ extAddr x = 0x1000100000 ∧ region 0x1000100000 = .dram ∧
    accessCause e 0x1000100000 16384 true = none ∧ accessCause e m.src 16384 false = none ∧ r.reads none = true ∧ run.reads (some 4) = true ∧
    r.reads (some 4) = false ∧ RingReady d 2 ∧ mgetD d.rings.held 2 [] = [] ∧ gb d Reg.LE_ERR F.LE_ERR_VALID = false := by
  refine ⟨by decide, by decide, by decide, by decide, by decide, by decide, by decide +kernel, by decide, by decide, by decide, by decide, by decide, by decide, by decide, by decide, by decide, by decide, by decide, ⟨by decide, by decide, by decide, by decide, by decide, by decide, by decide⟩, by decide, by decide⟩
theorem witness_CleanShard : Clean (ringDev 16) 0x1000004000 16384 := fun _ _ => ⟨rfl, rfl⟩

/-! SidesAreCastled -/

theorem witness_SidesAreCastled :
    let h : CmdHdr := { ring := 2, idx := 0, tag := 7, opcode := 0x11, flags := 0, handle := 5 }
    let d := { ringDev 16 with slots := { slots := [(3, { q := { st := 2, mask := 8 } })] } }
    let c : Castle := { h := h, flags := 4, barrier := 0, side := 1, gen := some 0, arrived := true }
    let w := setCastles [(3, c)] d
    let b : Batch := ⟨0, 0, 0, 0, 3, 0, 0, .train 0, ⟨0, 0, 0, 0, 0, 0, [], 0, 0⟩, 0, 0, false, 0, false, false, false, false, none⟩
    let hd := { d with slots := { d.slots with slots := [(3, { k := { st := 4 }, q := { st := 3 }, hold := some (9, 0) })] }, pipes := [(5, { batches := [b] })] }
    sysClocked d = true ∧ d.train = none ∧ WellFormed.okHdr h = true ∧ RingReady d 2 ∧ mgetD d.rings.held 2 [] = [] ∧ mhas d.rings.ops 5 = false ∧
    mhas d.slots.castles 3 = false ∧ castleTarget d 3 = some 1 ∧ castleTarget d 4 = none ∧ castleEngines d 3 8 = true ∧ liveSide d 3 = none ∧
    (mslot d 3).hold = none ∧ mget w.slots.castles 3 = some c ∧ (mslot hd 3).hold = some (9, 0) ∧ 0 < refBatches hd 3 0 ∧
    9 ≤ aonTime (wr Reg.AON_TIME 9 hd) ∧ aonTime hd < 9 ∧ gf (sf Reg.ARB_SLOT_IDX F.ARB_SLOT_IDX_SLOT 3 hd) Reg.ARB_SLOT_IDX F.ARB_SLOT_IDX_SLOT = 3 := by
  refine ⟨by decide, by decide, by decide, ⟨by decide, by decide, by decide, by decide, by decide, by decide, by decide⟩, by decide, by decide, by decide, by decide, by decide, by decide, by decide, by decide, by decide, by decide, by decide, by decide, by decide, by decide⟩

/-! PatrolLapsAndReleases -/

theorem witness_PatrolLapsAndReleases :
    let h : CmdHdr := { ring := 2, idx := 0, tag := 7, opcode := 0x12, flags := 0, handle := 0 }
    let m : ManShard := ⟨4, 0, 3, 2, 0, 16384, 0, 0x1000004000, 0, 0xFFFF, List.replicate 64 0⟩
    let d := sf Reg.LE_CTL F.LE_CTL_PATROL_EN 1 { ringDev 16 with slots := { slots := [(3, { q := { st := 2, shards := [m] } }), (4, { k := { st := 3 } })], sessions := [(sessKey 3 7, { side := some 1 })] } }
    let l : Lap := ⟨0, [(3, 1, 4, false)]⟩
    let e := setLe { d.le with lap := some l } d
    sysClocked d = true ∧ gb d Reg.LE_CTL F.LE_CTL_PATROL_EN = true ∧ d.le.lap = none ∧ e.le.lap = some l ∧
    (sideOf e 3 1).shards.find? (fun m => m.id == 4) = some m ∧ WellFormed.okHdr h = true ∧ RingReady d 2 ∧ mgetD d.rings.held 2 [] = [] ∧
    d.train = none ∧ (sideOf d 3 1).st = 2 ∧ (sideOf d 4 0).st = 3 ∧ (mslot d 4).hold = none ∧ (sideOf d 3 0).st = 0 ∧
    mget d.slots.sessions (sessKey 3 7) = some { side := some 1 } ∧ mget d.slots.sessions (sessKey 3 8) = none ∧ sessBusy d 3 7 = false := by
  refine ⟨by decide, by decide, by decide, by decide, by decide, by decide, ⟨by decide, by decide, by decide, by decide, by decide, by decide, by decide⟩, by decide, by decide, by decide, by decide, by decide, by decide, by decide, by decide, by decide⟩

/-! TierOperationsAreAnswered -/

theorem witness_TierOperationsAreAnswered :
    let t : TmDesc := ⟨0, 0, 1, 0, 5, 0, 0x1000000000, 4, 0, 0, false⟩
    let z : TmDesc := ⟨0, 0, 0, 0, 5, 0, 0, 0, 0, 0, false⟩
    let p : TmDesc := ⟨0, 0, 1, 0, 5, 0, 0, 4, 0xFFFF, 0, false⟩
    let o : TmObj := { kind := 0, flags := 0, size := 4, back := 0x1000000000 }
    let d := sf Reg.TM_CTL F.TM_CTL_EN 1 memDev
    let e := setTm { d.tm with objs := [(5, o)] } d
    let u := setTm { d.tm with objs := [(5, { o with upTier := 1, upCount := 4, frontier := 4 })], dirty := [(2, ())] } d
    let f : CmdHdr := { ring := 2, idx := 0, tag := 7, opcode := 0x25, flags := 0, handle := 0 }
    sysClocked d = true ∧ WellFormed.okTm (.port 3) t = true ∧ WellFormed.okTm (.port 3) z = true ∧ WellFormed.okTm (.port 3) p = true ∧
    d.tm.ops = [] ∧ gb d Reg.TM_CMD_STAT F.TM_CMD_STAT_BUSY = false ∧ agentAsked d 33 = false ∧ gb d Reg.TM_CTL F.TM_CTL_EN = true ∧
    gb (sf Reg.TM_CTL F.TM_CTL_EN 0 d) Reg.TM_CTL F.TM_CTL_EN = false ∧ tmFieldBad { t with op := 1 } = false ∧ tmRangeBad { t with op := 1 } = false ∧
    tmFieldBad { t with op := 5 } = true ∧ tmFieldBad { z with op := 5, obj := 20000 } = false ∧ tmRangeBad { z with op := 5, obj := 20000 } = true ∧
    tmObj d 5 = none ∧ backBad d (.port 3) t.backFirst 4 = false ∧ isT1 t.backFirst = false ∧ tmObj e 5 = some o ∧
    tmFieldBad { p with op := 3 } = false ∧ pickRun e 1 0 0xFFFF 4 = some 0 ∧ (tmObj u 5).any (fun o => isDirty u o 2 && samePlace o p) = true ∧
    WellFormed.okHdr f = true := by decide +kernel
theorem witness_PinFromRing :
    let o : TmObj := { kind := 0, flags := 0, size := 4, back := 0x1000000000 }
    let d := sf Reg.TM_CTL F.TM_CTL_EN 1 (setTm { (ringDev 16).tm with objs := [(5, o)] } (ringDev 16))
    RingReady d 2 ∧ mgetD d.rings.held 2 [] = [] ∧ tmObj d 5 = some o := by
  refine ⟨⟨by decide, by decide, by decide, by decide, by decide, by decide, by decide⟩, by decide, by decide⟩

/-! TierOperationsRunAndEnd -/

theorem witness_TierOperationsRunAndEnd :
    let o : TmObj := { kind := 1, flags := 2, size := 4, back := 0x1000000000 }
    let up : TmObj := { o with upTier := 1, upFrame := 8, upCount := 4, frontier := 3 }
    let p : TmOp := { src := .port 3, desc := ⟨3, 0, 1, 0, 5, 0, 0, 4, 0xFFFF, 0, false⟩, run := true, upTo := 4 }
    let d := sf Reg.TM_HOT_BUDGET F.TM_HOT_BUDGET_FRAMES 64 (sf Reg.TM_CTL F.TM_CTL_HOT_EN 1 (sf Reg.TM_CTL F.TM_CTL_EN 1 memDev))
    let e := setTm { d.tm with objs := [(5, up)], ops := [p] } d
    let q := setTm { d.tm with objs := [(5, { up with frontier := 0 })], ops := [{ p with desc := { p.desc with op := 4 }, quiesce := true }] } d
    let h := setTm { d.tm with objs := [(5, o)] } d
    sysClocked e = true ∧ tmObj e 5 = some up ∧ e.tm.held = [] ∧ tmObj d 5 = none ∧ (q.tm.ops.map TmOp.quiesce) = [true] ∧
    accessCause e (o.back + 16384 * 3) 16384 false = none ∧ frameAddr 1 0 (tileFrame up 3) = 0x102C000 ∧
    accessCause e 0x102C000 16384 true = none ∧ poisoned e (0x100000C000 / 32) = false ∧ errOf e (0x100000C000 / 32) = [] ∧
    gb e Reg.INTG_FLIP F.INTG_FLIP_ARM = false ∧ gb d Reg.TM_CTL F.TM_CTL_HOT_EN = true ∧ gb memDev Reg.TM_CTL F.TM_CTL_HOT_EN = false ∧
    gf h Reg.TM_HOT_BUDGET F.TM_HOT_BUDGET_FRAMES = 64 ∧ agentAsked h 33 = false ∧ pickRun h 1 0 0xFFFF 4 = some 0 := by decide +kernel
theorem witness_CleanTile : Clean memDev 0x100000C000 16384 := fun _ _ => ⟨rfl, rfl⟩

/-! TrainRunsStartAndCommit -/

theorem witness_TrainIsHandedOver :
    let h : CmdHdr := { ring := 2, idx := 0, tag := 7, opcode := 0x30, flags := 0, handle := 5 }
    let d := ringDev 16
    let a := 0x1000002000
    sysClocked d = true ∧ WellFormed.okHdr h = true ∧ RingReady d 2 ∧ mgetD d.rings.held 2 [] = [] ∧ region a = .dram ∧
    accessCause d a 96 false = none ∧ Clean d a 96 ∧ mhas d.rings.ops 5 = false ∧ (trCheck (rawBytes d a 96) (cmdIn (withOp 0x30 h) d)).1 = 0x80 := by
  refine ⟨by decide, by decide, ⟨by decide, by decide, by decide, by decide, by decide, by decide, by decide⟩, by decide, by decide, by decide, by decide, by decide, by decide +kernel⟩
theorem witness_TrainRunsStartAndCommit :
    let h : CmdHdr := { ring := 2, idx := 0, tag := 7, opcode := 0x30, flags := 0, handle := 5 }
    let desc : List Byte := (List.replicate 96 0).set 0x32 9
    let t : TrainRun := { h := h, desc := desc, slot := 3, side := 1 }
    let o : TmObj := { kind := 0, flags := 0, size := 4, back := 0x1000010000 }
    let d := rawStore 0x1000010000 [0, 0, 0, 0, 0, 0, 0, 0, 0, 0, 0, 0, 2] (wr Reg.LE_DRAM_BASE 0x1000100000 (wr Reg.LE_DRAM_SIZE 0x100000
      (setTm { memDev.tm with objs := [(9, o)] } (setTrain { t with phase := 4 } (ringDev 16)))))
    sysClocked d = true ∧ (setTrain t d).train.map TrainRun.phase = some 1 ∧ (sideOf d 3 1).shards = [] ∧ mhas d.slots.sessions (sessKey 3 0) = false ∧
    (mput d.slots.sessions (sessKey 3 0) { side := some 1 }).length = 1 ∧ descObj desc 3 = 9 ∧ tmObj d 9 = some o ∧
    fieldAt (rawBytes d o.back 16) 0x0C 4 = 2 ∧ mget (sideOf d 3 1).ads 0 = none ∧ residentAds d = 0 ∧
    dramFit d (extsNow d) (adapterSpans d) 2 = some 0x100000 ∧ freeObj d [] = some 16383 ∧ (rd d Reg.LE_DRAM_BASE).toNat % 32 = 0 ∧
    dramFit (wr Reg.LE_DRAM_SIZE 0 d) (extsNow d) (adapterSpans d) 2 = none ∧
    d.arb.held = [] ∧ gb d Reg.INTG_FLIP F.INTG_FLIP_ARM = false := by decide +kernel
theorem witness_CleanWork : Clean (ringDev 16) 0x1000010000 32768 := fun _ _ => ⟨rfl, rfl⟩

/-! GranulesAreScrubbedAndFlipped -/

theorem witness_GranulesAreScrubbedAndFlipped :
    let d := wr Reg.INTG_SCRUB_EN 0x100000 memDev
    let e := intgUpd 0x14 (fun x => { x with pos := 0x7FFFF }) d
    sysClocked d = true ∧ storeScrubbed 0x14 = true ∧ (rd d Reg.INTG_SCRUB_EN).getLsbD 0x14 = true ∧ storeGrans d 0x14 = 0x80000 ∧
    storeOn d 0x14 = true ∧ poisoned d (granKey 0x14 0) = false ∧ errOf d (granKey 0x14 0) = [] ∧ (intgOf e 0x14).pos + 1 = storeGrans e 0x14 ∧
    errOf e (granKey 0x14 0x7FFFF) = [] ∧ storeScrubbed 0x13 = false ∧ storeOn (wr Reg.PMU_DOM_STAT 1 d) 0x14 = false ∧
    domOn (wr Reg.PMU_DOM_STAT 1 d) 3 = false ∧ (intgOf d 0x14).slow = false ∧
    fldGet (word64 0x8014000000000001) F.INTG_FLIP_ARM = 1 ∧ storeKnown (fldGet (word64 0x8014000000000001) F.INTG_FLIP_STORE) = true ∧
    fldGet (word64 0x8000000000002301) F.INTG_FLIP_POS0 = 35 := by decide

/-! HeldBatchesAreResolved -/

theorem witness_HeldBatchesAreResolved :
    let b : Batch := ⟨7, 0, 0, 0, 3, 0, 0, .train 0, ⟨0, 0, 0, 0, 0, 0, [], 0, 0⟩, 0, 0, false, 0, false, true, true, false, none⟩
    let e : HeldB := { pipe := 5, seq := 7, reason := 2, time := 0, classified := true }
    let d := setArb { memDev.arb with held := [(9, e)] } { memDev with pipes := [(5, { batches := [b] })] }
    let n := setArb { memDev.arb with held := [(9, { e with classified := false })] } d
    sysClocked d = true ∧ mget d.arb.held 9 = some e ∧ heldOf d 5 7 = some (9, e) ∧ (pipeSt d 5).batches.find? (fun b => b.seq == 7) = some b ∧
    e.replaying = false ∧ mget d.arb.held 8 = none ∧ (mget n.arb.held 9).map HeldB.classified = some false ∧
    (heldClass n b { e with classified := false }).1 = 2 := by decide

/-! LostUnitsAreMadeGood -/

theorem witness_LostUnitsAreMadeGood :
    let m : ManShard := ⟨4, 0, 3, 2, 1, 16384, 0, 0, 1, 0xFFFF, []⟩
    let d := { memDev with slots := { slots := [(3, { q := { st := 3, kind := 1, len := 600, shards := [m] }, unavail := some (0xA0, 65540) })] } }
    let r : ReloadIn := { slot := 3, side := 1, shard := 4 }
    let f := setArb { memDev.arb with opFails := [(2, [0, 0, 0, 0]), (50, [0])] } memDev
    let q := wr Reg.LE_DRAM_BASE 0x1000100000 (wr Reg.LE_DRAM_SIZE 0x100000 (intgUpd 0x14 (fun x => { x with log := [(0, { addr := 0x1000104020, hits := 200, sym := 0 })] }) memDev))
    sysClocked d = true ∧ WellFormed.okReload r = true ∧ shardOwner d 3 1 4 = (1, 4) ∧ (sideOf d 3 1).shards.find? (fun m => m.id == 4) = some m ∧
    (mslot d 3).unavail = some (0xA0, 65540) ∧ (mslot memDev 3).unavail = none ∧ d.arb.held = [] ∧ d.le.exts = [] ∧ shardExts d 3 1 4 = [] ∧
    ((mgetD f.arb.opFails 2 []).filter (fun t => decide (poweredTime f < t + 86400 * aonHz))).length = 4 ∧ mgetD f.arb.stackSt 2 0 = 0 ∧
    stackGone f 2 = true ∧ stackGone memDev 2 = false ∧ (wearOf memDev 2 false 9).failed = false ∧
    (intgOf q 0x14).log.any (fun e => e.2.addr == 0x1000104020 && decide (gf q Reg.INTG_CTL F.INTG_CTL_REPEAT ≤ e.2.hits)) = true ∧
    (rd q Reg.LE_DRAM_BASE).toNat ≤ 0x1000104000 ∧ q.arb.quar = [] := by decide
theorem witness_QuietArray : ArrayQuiet memDev := ⟨rfl, rfl, rfl, by decide⟩

/-! ScoresheetIsWritten -/

theorem witness_ScoresheetIsWritten :
    let p : ScorePage := ⟨1, 7, [List.replicate 64 5]⟩
    let d := { memDev with score := { prog := some p, erasing := some 3, sector := 2, page := [List.replicate 64 6] } }
    let e := { memDev with score := { sector := 2, pageIdx := 3, page := [List.replicate 64 6] } }
    let f := { memDev with score := { queue := List.replicate 64 ⟨1, 0, 0, [], 0⟩ } }
    let c := { memDev with score := { closed := true } }
    let sn := sf Reg.ARB_SCORE_STAT F.ARB_SCORE_STAT_SCANNING 1 memDev
    sysClocked memDev = true ∧ memDev.score.closed = false ∧ scoreQueued memDev = 0 ∧ scoreQueued f = 64 ∧ c.score.closed = true ∧
    gb sn Reg.ARB_SCORE_STAT F.ARB_SCORE_STAT_SCANNING = true ∧ gb memDev Reg.ARB_SCORE_STAT F.ARB_SCORE_STAT_SCANNING = false ∧
    d.score.prog = some p ∧ d.score.erasing = some 3 ∧ d.score.queue = [] ∧ d.score.page.length = 1 ∧ e.score.prog = none ∧ e.score.page ≠ [] ∧
    e.score.erasing = none ∧ sn.mem = [] ∧ sn.errs = [] ∧ memDev.boot.supplyOff = false ∧ memDev.arys.st = [] := by decide

/-! RingDoorbellsAndEnables -/

theorem witness_RingDoorbellsAndEnables :
    let d := ringDev 16
    let off := ringDev 0
    let bad := wr (Reg.RING_CPL_BASE 2) 0x10 off
    sysClocked d = true ∧ mgetD d.rings.held 2 [] = [] ∧ gb d (Reg.RING_CFG 2) F.RING_CFG_EN = true ∧ gb off (Reg.RING_CFG 2) F.RING_CFG_EN = false ∧
    ring32 16 (gf d (Reg.RING_CMD_HEAD 2) F.RING_CMD_HEAD_INDEX) = 2 ^ gf d (Reg.RING_CFG 2) F.RING_CFG_CMD_LOG2 ∧
    ringBaseOk off (gf off (Reg.RING_CMD_BASE 2) F.RING_CMD_BASE_ADDR) (gf off (Reg.RING_CFG 2) F.RING_CFG_CMD_LOG2) = true ∧
    ringBaseOk off (gf off (Reg.RING_CPL_BASE 2) F.RING_CPL_BASE_ADDR) (gf off (Reg.RING_CFG 2) F.RING_CFG_CPL_LOG2) = true ∧
    ringBaseOk bad (gf bad (Reg.RING_CPL_BASE 2) F.RING_CPL_BASE_ADDR) (gf bad (Reg.RING_CFG 2) F.RING_CFG_CPL_LOG2) = false ∧
    mhas off.rings.kept 2 = false := by decide

/-! CompletionsAreWritten -/

theorem witness_CompletionsAreWritten :
    let d := ringDev 16
    let h : CmdHdr := { ring := 2, idx := 0, tag := 7, opcode := 0, flags := 0, handle := 0 }
    let f := wr (Reg.RING_CPL_TAIL 2) 16 d
    WellFormed.okHdr h = true ∧ RingReady d 2 ∧ mgetD d.rings.held 2 [] = [] ∧ cplFull f 2 = true ∧ mhas f.rings.stalled 2 = false ∧
    gb (ringDev 0) (Reg.RING_CFG 2) F.RING_CFG_EN = false := by
  refine ⟨by decide, ⟨by decide, by decide, by decide, by decide, by decide, by decide, by decide⟩, by decide, by decide, by decide, by decide⟩
theorem witness_RingTimers :
    let d := wr (Reg.RING_STAT 2) 0x300 (wr (Reg.RING_MOD 2) 0x50008 (ringDev 16))
    let h : CmdHdr := { ring := 2, idx := 0, tag := 7, opcode := 0x30, flags := 4, handle := 5 }
    let e := { ringDev 16 with rings := { (ringDev 16).rings with ops := [(5, { hdr := h, state := .running })] } }
    gf d (Reg.RING_MOD 2) F.RING_MOD_US ≠ 0 ∧ gf d (Reg.RING_STAT 2) F.RING_STAT_PENDING = 3 ∧
    (mget e.rings.ops 5).map (fun x => (x.state, x.hdr.flags.testBit 2)) = some (.running, true) := by decide

/-! RingControllerCommands -/

theorem witness_RingControllerCommands :
    let h : CmdHdr := { ring := 2, idx := 0, tag := 7, opcode := 0, flags := 0, handle := 0 }
    let g : CmdHdr := { ring := 2, idx := 0, tag := 7, opcode := 0x10, flags := 0, handle := 5 }
    let d := { ringDev 16 with rings := { (ringDev 16).rings with ops := [(5, { hdr := g, state := .queued })] } }
    sysClocked d = true ∧ d.train = none ∧ WellFormed.okHdr h = true ∧ RingReady d 2 ∧ mgetD d.rings.held 2 [] = [] ∧
    mget d.rings.ops 4 = none ∧ mget d.rings.ops 5 = some { hdr := g, state := .queued } ∧ ringTurn d = none := by
  refine ⟨by decide, by decide, by decide, ⟨by decide, by decide, by decide, by decide, by decide, by decide, by decide⟩, by decide, by decide, by decide, by decide⟩
theorem witness_OperationsToResume :
    let g : CmdHdr := { ring := 2, idx := 0, tag := 7, opcode := 0x41, flags := 0, handle := 5 }
    let f : CmdHdr := { g with opcode := 0x10 }
    let d := { ringDev 16 with rings := { (ringDev 16).rings with ops := [(5, { hdr := g, state := .queued }), (6, { hdr := f, state := .adjourned, adjQueued := true })] } }
    ((mget d.rings.ops 6).map (fun e => (e.state, e.adjQueued)) = some (.adjourned, true)) ∧ (mget d.rings.ops 5).map (fun e => e.hdr.opcode) = some 0x41 ∧
    d.train = none := by decide
theorem witness_Dispatch :
    let d := wr (Reg.RING_CMD_TAIL 2) 1 (ringDev 16)
    let one := { d with mem := [(0x1000000000, 1)] }
    let bad := { d with mem := [(0x1000000000, 0x99)] }
    let load := { d with mem := [(0x1000000000, 0x60)] }
    let b := fun (d : Dev) => (List.range 64).map (fun k => byteAt d.mem (0x1000000000 + k))
    ringTurn d = some 2 ∧ region 0x1000000000 = .dram ∧ accessCause d 0x1000000000 64 false = none ∧ Clean d 0x1000000000 64 ∧
    opcodeBad (b d) = false ∧ fieldAt (b d) 0 1 = 0 ∧ opcodeBad (b bad) = true ∧ fieldAt (b one) 0 1 = 1 ∧ fieldAt (b load) 0 1 = 0x60 ∧
    RingReady d 2 := by
  refine ⟨by decide, by decide, by decide, by decide, by decide, by decide, by decide, by decide, by decide, ⟨by decide, by decide, by decide, by decide, by decide, by decide, by decide⟩⟩

/-! ImageAndCensusCommands -/

theorem witness_ImageAndCensusCommands :
    let h : CmdHdr := { ring := 2, idx := 0, tag := 7, opcode := 0, flags := 0, handle := 5 }
    let d := ringDev 16
    let n := torusDev d
    let b := { d with img := { d.img with queue := [.load h 0 0] } }
    let u := { d with rings := { d.rings with ops := [(5, { hdr := h, state := .queued })] } }
    sysClocked d = true ∧ d.train = none ∧ WellFormed.okHdr h = true ∧ mhas d.rings.ops 5 = false ∧ imgBusy d = false ∧ d.img.queue = [] ∧
    b.img.queue.isEmpty = false ∧ nodeLocked d = false ∧ nodeLocked n = true ∧ torusRows n = 2 ∧ torusCols n = 2 ∧ n.links.census = none ∧
    mhas u.rings.ops 5 = true ∧ RingReady d 2 ∧ RingReady n 2 := by
  refine ⟨by decide, by decide, by decide, by decide, by decide, by decide, by decide, by decide, by decide, by decide, by decide, by decide, by decide,
    ⟨by decide, by decide, by decide, by decide, by decide, by decide, by decide⟩, ⟨by decide, by decide, by decide, by decide, by decide, by decide, by decide⟩⟩

/-! LinkPortsStartAndStop -/

theorem witness_LinkPortsStartAndStop :
    let d := torusDev memDev
    let self := sf Reg.TL_TORUS F.TL_TORUS_COLS 1 d
    let up := sf (Reg.TL_CTL 1) F.TL_CTL_FP_CHECK 1 (portDev 2 { fpDiff := true })
    let fc := sf (Reg.TL_STAT 1) F.TL_STAT_FC_IN 1 d
    sysClocked d = true ∧ portState d 1 = 0 ∧ nodeLocked d = true ∧ domOn d 6 = true ∧ torusRows d = 2 ∧ torusCols d = 2 ∧
    (neighbour d 1).1 ≠ devId d ∧ nodeLocked memDev = false ∧ (neighbour self 1).1 = devId self ∧ gb self (Reg.TL_STAT 1) F.TL_STAT_TOPO_ERR = false ∧
    portState (portDev 1 {}) 1 = 1 ∧ (portOf (portDev 1 {}) 1).attempts = 0 ∧ gb fc (Reg.TL_STAT 1) F.TL_STAT_FC_IN = true ∧ (portOf fc 1).stuck = false ∧
    portState up 1 = 2 ∧ gb up (Reg.TL_CTL 1) F.TL_CTL_FP_CHECK = true ∧ (portOf up 1).fpDiff = true ∧
    portState (portDev 4 { wakes := 3 }) 1 = 4 ∧ (portOf (portDev 4 { wakes := 3 }) 1).wakes = 3 ∧ pmuBusy d = false ∧ pmuState d = 0 ∧
    (rd (wr Reg.PMU_WAKE_EN 0x40 d) Reg.PMU_WAKE_EN).getLsbD 6 = true := by decide

/-! FlitsAreReceived -/

/-- Every flit this model forms passes its CRC; `flitBody f ++ …` with another CRC value does not. -/
theorem witness_FlitCrc (f : Flit) (h : (flitBody f).length = 152) :
    flitCrcOk (flitBytes f) = true ∧ flitCrcOk (flitBody f ++ leBytes 8 (crc64 (flitBody f) + 1)) = false :=
  ⟨flitCrcOk_flitBytes f h, flitCrcOk_other f h⟩
theorem witness_PortTrains :
    let d := portDev 1 {}
    let f : Flit := ⟨6, 0, 0, 0, 0, [⟨0, leBytes 2 1 ++ leBytes 1 3 ++ leBytes 1 2 ++ leBytes 1 2 ++ leBytes 1 0xFF ++ List.replicate 26 0, [0, 0, 0], 1⟩]⟩
    let b := flitBytes f
    let nbr := fieldAt ((flitParse b).slots.getD 0 slotNone).data
    sysClocked d = true ∧ (flitBody f).length = 152 ∧ b.length = 160 ∧ portState d 1 = 1 ∧ (flitParse b).type = 6 ∧
    gb d Reg.INTG_FLIP F.INTG_FLIP_ARM = false ∧ (portOf d 1) = {} ∧ nbr 0 2 % 4096 = (neighbour d 1).1 ∧ nbr 2 1 = (neighbour d 1).2 ∧
    nbr 3 1 = torusRows d ∧ nbr 4 1 = torusCols d ∧ (laneWidth (0xFF &&& nbr 5 1)).2 = 3 ∧ (laneWidth (1 &&& nbr 5 1)).2 = 0 := by decide +kernel
theorem witness_PortTrainsCrc :
    let f : Flit := ⟨6, 0, 0, 0, 0, [⟨0, leBytes 2 1 ++ leBytes 1 3 ++ leBytes 1 2 ++ leBytes 1 2 ++ leBytes 1 0xFF ++ List.replicate 26 0, [0, 0, 0], 1⟩]⟩
    flitCrcOk (flitBytes f) = true ∧ flitCrcOk (flitBody f ++ leBytes 8 (crc64 (flitBody f) + 1)) = false :=
  witness_FlitCrc _ (by decide +kernel)
theorem witness_FlitsAreReceived :
    let g : Flit := ⟨1, 0, 0, 0, 0, []⟩
    let d := sf (Reg.TL_CTL 1) F.TL_CTL_FP_CHECK 1 (portDev 2 { replay := [{ g with seq := 7 }] })
    portUp d 1 = true ∧ portUp (portDev 1 {}) 1 = false ∧ (∀ t ∈ [1, 2, 3, 4, 5],
      let f : Flit := ⟨t, 0, 0, 0, 0, []⟩
      (flitBody f).length = 152 ∧ (flitParse (flitBytes f)).type = t ∧ (flitParse (flitBytes f)).seq = 0) ∧
    (portOf d 1).pend = [] ∧ (portOf d 1).rxExp = 0 ∧
    (portOf d 1).replay.dropWhile (fun q => ackCovers 0 q.seq) = (portOf d 1).replay ∧ 1 ≤ gf d (Reg.TL_RETRY 1) F.TL_RETRY_MAX ∧
    gf (sf (Reg.TL_RETRY 1) F.TL_RETRY_MAX 0 d) (Reg.TL_RETRY 1) F.TL_RETRY_MAX = 0 := by decide +kernel
theorem witness_DataFlit :
    let z : List Byte := List.replicate 32 0
    let fb : Flit := ⟨1, 0, 0, 0, 0, [⟨5, z, checkSymbols z, 1⟩]⟩
    let fm : Flit := ⟨1, 0, 0, 0, 0, [⟨16, z, checkSymbols z, 33⟩]⟩
    let b := flitBytes fb
    let m := flitBytes fm
    let x := (flitParse b).slots.getD 0 slotNone
    let y := (flitParse m).slots.getD 0 slotNone
    let f : Fifo := { src := epMk 4 1 5, dst := 0, mask := 0, seg := 1, cut := true, markEn := false, stall := false, thresh := 1, pin := 0, cred := 32, dsts := [] }
    let d := { portDev 2 {} with fifos := [(9, f)] }
    (flitParse b).seq = 0 ∧ (flitBody fb).length = 152 ∧ (flitBody fm).length = 152 ∧ (∀ i ∈ (flitParse b).slots.tail, i.flags.testBit 0 = false) ∧
    (∀ i ∈ (flitParse m).slots.tail, i.flags.testBit 0 = false) ∧ x.ch = 5 ∧ x.flags = 1 ∧
    decodeSyn (syndromes 0 (x.chk ++ x.data.map BitVec.toNat)) = .clean ∧ decodeSyn (syndromes 0 (y.chk ++ y.data.map BitVec.toNat)) = .clean ∧
    y.ch = 16 ∧ y.flags = 33 ∧ msgLen y.data = 0 ∧ routeBySrc d (epMk 4 1 5) = some 9 ∧ fifoCanWrite f = true ∧
    routeBySrc (portDev 2 {}) (epMk 4 1 5) = none := by decide +kernel

/-! FlitsAreSent -/

theorem witness_FlitsAreSent :
    let g : Flit := ⟨1, 0, 0, 0, 0, []⟩
    let f : Fifo := { src := 0, dst := epMk 3 1 5, mask := 0, seg := 1, cut := true, markEn := false, stall := false, thresh := 1, pin := 0, cred := 32, dsts := [(0, {})] }
    let m : Msg := { kind := 0x11, dst := 1, src := 0, tag := 4 }
    let d := { portDev 2 { replay := [{ g with seq := 7 }] } with fifos := [(9, f)] }
    let e := setLinks { d.links with reqs := [(4, ⟨.wait 0 0, m, true⟩)] } d
    sysClocked d = true ∧ portUp d 1 = true ∧ (portOf d 1).replay ≠ [] ∧ (portOf d 1).replays = 0 ∧ 1 ≤ gf d (Reg.TL_RETRY 1) F.TL_RETRY_MAX ∧
    gb d Reg.INTG_FLIP F.INTG_FLIP_ARM = false ∧ routeByDst d (epMk 3 1 5) = some 9 ∧ f.rel = 0 ∧ routeByDst d (epMk 3 1 6) = none ∧
    (mget e.links.reqs 4).map (fun q => (q.sent, q.msg.kind)) = some (true, 0x11) ∧ (routeHop e m).isSome = true ∧ portUp (portDev 1 {}) 1 = false := by decide

/-! MessagesForThisDeviceAreServed -/

theorem witness_MessagesForThisDeviceAreServed :
    let m : Msg := { kind := 1, dst := 0, src := 1, tag := 5, addr := 0x1000000028, len := 2, byteEn := 0xFF00, data := [(List.replicate 32 9, true)] }
    let d := portDev 2 {}
    let req := fun (k : ReqKind) => setLinks { d.links with reqs := [(5, ⟨k, { m with src := 0, dst := 1 }, true⟩)] } d
    sysClocked d = true ∧ WellFormed.okMsg m = true ∧ m.dst = devId d ∧ gb d Reg.INTG_FLIP F.INTG_FLIP_ARM = false ∧ region m.addr = .dram ∧
    heldBefore d 0x41 0x1000000020 0 = false ∧ d.boot.held = [] ∧ accessWaits d 0x1000000020 64 false = false ∧ accessWaits d 0x1000000020 32 true = false ∧
    (∀ i < 2, region (0x1000000020 + 32 * i) = .dram ∧ accessCause d (0x1000000020 + 32 * i) 32 false = none ∧ Clean d (0x1000000020 + 32 * i) 32) ∧
    m.byteEn = (2 ^ 8 - 1) * 2 ^ 8 ∧ accessCause d 0x1000000028 8 true = none ∧
    mget (req (.access 1 false 8 40)).links.reqs 5 = some ⟨.access 1 false 8 40, { m with src := 0, dst := 1 }, true⟩ ∧
    mget (req (.wait 3 1)).links.reqs 5 = some ⟨.wait 3 1, { m with src := 0, dst := 1 }, true⟩ ∧ mget d.links.reqs 5 = none ∧
    (∀ x ∈ (req (.wait 3 1)).links.reqs, x.2.sent = true) := by decide +kernel
theorem witness_WatchesAndItems :
    let m : Msg := { kind := 1, dst := 0, src := 1, tag := 5, addr := 0x11000060, arg := 4, spec := 1 + 65536 * 5 + 2 ^ 24 * 1, data := [(List.replicate 32 9, true)] }
    let d := portDev 2 {}
    let f : Fifo := { src := epMk 4 1 5, dst := 0, mask := 0, seg := 1, cut := true, markEn := false, stall := false, thresh := 1, pin := 0, cred := 32, dsts := [] }
    WellFormed.okMsg m = true ∧ m.dst = devId d ∧ region m.addr = .sync ∧ region 0x1000000028 ≠ .sync ∧ d.links.watches = [] ∧ Clean d (objAddr 6) 16 ∧
    syncIdx m.addr = 6 ∧ objWait (objPeek d 6) 1 4 4 = some none ∧ objWait (objPeek d 6) 1 0 0 = some (some (objPeek d 6)) ∧
    (routeHop d { kind := 0x12, dst := 1, src := 0, tag := 5, cls := 0 }).isSome = true ∧
    ackCovers ((portOf d 1).rxExp + 4095) 1 = false ∧ ackCovers ((portOf d 1).rxExp + 4095) 4095 = true ∧ (portOf d 1).rx = [] ∧
    routeBySrc d (epMk 4 1 5) = none ∧ routeBySrc { d with fifos := [(9, f)] } (epMk 4 1 5) = some 9 ∧ fifoCanWrite f = true := by decide +kernel

/-! MessagesForOthersAreForwarded -/

theorem witness_MessagesForOthersAreForwarded :
    let m : Msg := { kind := 0, dst := 2, src := 1, tag := 5 }
    let d := portDev 2 {}
    WellFormed.okMsg m = true ∧ WellFormed.okMsg { m with dst := 1, hops := 128 } = true ∧ m.dst ≠ devId d ∧ sysClocked d = true ∧
    (∀ k ∈ [1, 2, 3, 4, 5, 0x10, 0x11, 0x12, 0x20, 0x21, 0x30],
      (routeHop d (turnClass d 1 { m with kind := k, dst := 1 })).isSome = true ∧
      (routeHop d (turnClass d 1 { m with kind := k, hops := 128 })).isSome = false) := by decide +kernel

/-! CensusesCollectTheFingerprints -/

theorem witness_CensusesCollectTheFingerprints :
    let d := portDev 2 {}
    let g : List Byte := List.replicate 32 0
    let m : Msg := { kind := 0x20, dst := 0, src := 1, spec := 0, data := [(g, false)] }
    let m2 : Msg := { m with spec := 1 + 64 }
    let c : Census := { init := 0, parent := none, children := [1, 64], cmd := some ⟨2, 0, 1, 0x50, 0, 0, 64⟩ }
    let e := setLinks { d.links with census := some c } d
    sysClocked d = true ∧ WellFormed.okMsg m = true ∧ WellFormed.okMsg m2 = true ∧ m.dst = devId d ∧ d.links.census = none ∧ d.links.watches = [] ∧
    d.tm.objs = [] ∧ gb d Reg.INTG_FLIP F.INTG_FLIP_ARM = false ∧ Clean d (objAddr 0xFFF0) 96 ∧ censusChildren d (m2.spec % 4096) = [] ∧
    censusChildren d (m.spec % 4096) ≠ [] ∧
    (∀ k ∈ censusChildren d 0, (routeHop d { kind := 0x20, dst := k, src := devId d, master := 0x23, spec := 0 }).isSome = true) ∧
    e.links.census = some c ∧ 1 ∈ c.children ∧ 2 ∉ c.children ∧ c.parent = none ∧
    (setLinks { d.links with census := some { c with parent := some 1 } } d).links.census = some { c with parent := some 1 } := by decide +kernel

/-! ObjectsTakeTheirOperations -/

theorem witness_ObjectsTakeTheirOperations :
    let at' := fun (v p st : Nat) => writeMem (objAddr 6) (objBytes ⟨v, p, 0, statusMk false st 0 0⟩) false memDev
    (∀ st < 5, let d := at' 3 3 st
      sysClocked d = true ∧ d.links.watches = [] ∧ d.tm.objs = [] ∧ gb d Reg.INTG_FLIP F.INTG_FLIP_ARM = false ∧ Clean d (objAddr 6) 16 ∧
      (objPeek d 6).type = st ∧ (objPeek d 6).ovf = false ∧ (objPeek d 6).value = 3 ∧ (objPeek d 6).param = 3) ∧
    (objPeek (at' 0xFFFFFFFF 0 0) 6).value = 0xFFFFFFFF ∧ (objPeek (at' 0xFFFFFFFF 0 0) 6).ovf = false ∧
    (objPeek (at' 0 0 1) 6).value = 0 ∧ (objPeek (at' 0 9 2) 6).param = 9 ∧ (objPeek (at' 5 (1 * 2 ^ 28 + 2) 4) 6).count = 0 ∧
    (objPeek (at' 5 (3 * 2 ^ 28 + 1) 4) 6).param = 3 * 2 ^ 28 + 1 := by decide +kernel
theorem witness_PoisonedObject :
    let d := writeMem (objAddr 6) (List.replicate 32 0) true memDev
    poisoned d (objAddr 6 / 32) = true ∧ errOf d (objAddr 6 / 32) = [] ∧ d.links.watches = [] := by decide +kernel

/-! InterruptsAreTakenAndEnded -/

theorem witness_InterruptsAreTakenAndEnded :
    let d := { memDev with ic := { act := [(70, 3)], entry := 8 } }
    let e := raise 64 (bankSet Reg.IC_EN 64 true (sf Reg.IC_CTL F.IC_CTL_EN 1
      (sf (Reg.IC_SRCCFG 64) F.IC_SRCCFG_ONESHOT 1 (sf (Reg.IC_SRCCFG 64) F.IC_SRCCFG_TARGET 3 (sf (Reg.IC_PMR 3) F.IC_PMR_PMR 16 memDev)))))
    sysClocked d = true ∧ d.pmu.icAcc = false ∧ icHppi d 3 = 1023 ∧ d.ic.entry.testBit 3 = true ∧ d.ic.entry.testBit 2 = false ∧ mget d.ic.act 70 = some 3 ∧
    mget d.ic.act 71 ≠ some 3 ∧ sysClocked e = true ∧ e.pmu.icAcc = false ∧ icHppi e 3 = 64 ∧ e.ic.entry.testBit 3 = true ∧
    gb e (Reg.IC_SRCCFG 64) F.IC_SRCCFG_ONESHOT = true ∧ gb (sf (Reg.IC_SRCCFG 64) F.IC_SRCCFG_ONESHOT 0 e) (Reg.IC_SRCCFG 64) F.IC_SRCCFG_ONESHOT = false := by
  decide +kernel

/-! PowerRequests -/

theorem witness_PowerRequests :
    let d := State.reset.dev
    let busy := sf Reg.PMU_STAT F.PMU_STAT_BUSY 1 d
    let idle := sf Reg.PMU_STAT F.PMU_STAT_STATE 1 d
    sysClocked d = true ∧ pmuBusy d = false ∧ pmuState d = 0 ∧ rd d Reg.PMU_WAKE_PEND = 0 ∧ pmuBusy busy = true ∧ sysClocked busy = true ∧
    rd (wr Reg.PMU_WAKE_PEND 4 d) Reg.PMU_WAKE_PEND ≠ 0 ∧ sysClocked idle = true ∧ pmuState idle = 1 ∧ pmuBusy idle = false ∧
    idle.tm.ops = [] ∧ gb (sf Reg.PMU_CTL F.PMU_CTL_AUTO_IDLE 1 d) Reg.PMU_CTL F.PMU_CTL_AUTO_IDLE = true ∧ pmuRun d = true ∧
    d.engs.stages = [] ∧ (∀ p < 64, (pipeSt d p).batches = []) ∧
    gb (sf Reg.PMU_CTL F.PMU_CTL_AUTO_RUN 1 idle) Reg.PMU_CTL F.PMU_CTL_AUTO_RUN = true := by decide

/-! AgentsAnswerAndTimeOut -/

/-- A device in an entry: the agents asked and the target. -/
def entering (asked target : Nat) : Dev :=
  setPmu { State.reset.dev.pmu with asked := asked } (sf Reg.PMU_STAT F.PMU_STAT_TARGET target (sf Reg.PMU_STAT F.PMU_STAT_BUSY 1 State.reset.dev))

theorem witness_AgentsAnswerAndTimeOut :
    sysClocked (entering (2 ^ 38) 3) = true ∧ agentAsked (entering (2 ^ 38) 3) 38 = true ∧ agentAcc (entering (2 ^ 38) 3) 38 = false ∧
    rd (sf Reg.PMU_AGENT_ACC ⟨38, 1⟩ 1 (entering (2 ^ 38) 3)) Reg.PMU_AGENT_ACC = BitVec.ofNat 64 (2 ^ 38) ∧
    pmuTarget (entering (2 ^ 38) 3) = 3 ∧ (entering (2 ^ 38) 3).pmu.round2 = false ∧
    rd (sf Reg.PMU_AGENT_ACC ⟨38, 1⟩ 1 (entering (2 ^ 38 + 1) 3)) Reg.PMU_AGENT_ACC ≠ BitVec.ofNat 64 (2 ^ 38 + 1) ∧
    agentAsked (entering 1 1) 0 = true ∧ pmuTarget (entering 1 1) = 1 ∧ engState (sf (Reg.ENG_STAT 0) F.ENG_STAT_STATE 0 (entering 1 1)) 0 = 0 ∧
    agentAsked (entering (2 ^ 35) 2) 35 = true ∧ (entering (2 ^ 35) 2).tm.ops = [] ∧
    (entering 2 1).pmu.asked.testBit 0 = false ∧ agentAsked (entering 2 1) 1 = true := by decide

/-! WakesClockAndFaults -/

theorem witness_WakesClockAndFaults :
    let d := State.reset.dev
    pmuBusy d = false ∧ pmuState d = 0 ∧ (rd (wr Reg.PMU_WAKE_EN 0x4000 d) Reg.PMU_WAKE_EN).getLsbD 14 = true ∧
    (rd d Reg.PMU_WAKE_EN).getLsbD 0 = false ∧ gb d Reg.AON_CAL F.AON_CAL_BUSY = false ∧
    gb (sf Reg.AON_CAL F.AON_CAL_BUSY 1 d) Reg.AON_CAL F.AON_CAL_BUSY = true ∧ 0 < gf d Reg.AON_CAL F.AON_CAL_WINDOW ∧
    gb d Reg.TIME_STAT F.TIME_STAT_SRC = false ∧ gb (sf Reg.TIME_STAT F.TIME_STAT_SRC 1 d) Reg.TIME_STAT F.TIME_STAT_SRC = true ∧
    gf (sf (Reg.AON_ALARM_CTL 3) F.AON_ALARM_CTL_ARM 1 d) (Reg.AON_ALARM_CTL 3) F.AON_ALARM_CTL_ARM = 1 ∧
    (rd (wr (Reg.AON_ALARM 3) 0 d) (Reg.AON_ALARM 3)).toNat ≤ aonTime d := by decide

/-! ResetsHoldTheDevice -/

theorem witness_ResetsHoldTheDevice :
    let b := State.reset.dev.boot
    (setBoot { b with supplyOff := true } State.reset.dev).boot.supplyOff = true ∧ b.thermal = false ∧
    (setBoot { b with thermal := true } State.reset.dev).boot.thermal = true ∧ (0x1234 : Nat) ≠ 0xB007 ∧
    sysClocked (setBoot { b with inReset := false } State.reset.dev) = true ∧ State.reset.dev.part.endpoint = false ∧
    gb (sf Reg.KEY_CTL F.KEY_CTL_PERST_RESET 1 State.reset.dev) Reg.KEY_CTL F.KEY_CTL_PERST_RESET = true ∧
    domOn (wr Reg.PMU_DOM_STAT 0x10 State.reset.dev) 4 = true ∧ (setBoot { b with jtag := true } State.reset.dev).boot.jtag = true ∧
    (setBoot { b with inReset := true } State.reset.dev).boot.inReset = true := by decide

/-! FuseAndAttestOperations -/

/-- A fuse operation of `kind` on slot 2, firmware version 5.0, records and reports in main memory. -/
def keyDev (fuse : Option FuseOp) (att : Option (List Byte)) : Dev :=
  { wr Reg.ARB_FW_VER 0x05000000 (wr Reg.KEY_REC_ADDR 0x1000000000 (wr Reg.KEY_ATT_DST 0x1000000000 memDev)) with keys := { fuse := fuse, att := att } }
theorem witness_FuseAndAttestOperations :
    let d := keyDev none none
    sysClocked d = true ∧ keyBit d 2 0 = false ∧ keyBit d 2 3 = false ∧ keyBit d 0 0 = true ∧ gf d Reg.KEY_SLOT_STAT F.KEY_SLOT_STAT_FLOOR ≤ 5 ∧
    5 ≤ gf d Reg.ARB_FW_VER F.ARB_FW_VER_VERSION / 2 ^ 24 ∧ gf d Reg.ARB_FW_VER F.ARB_FW_VER_VERSION / 2 ^ 24 < 6 ∧
    (rd d Reg.KEY_REC_ADDR).toNat = 0x1000000000 ∧ region 0x1000000000 = .dram ∧ accessCause d 0x1000000000 324 false = none ∧
    Clean d 0x1000000000 324 := by decide
theorem witness_FuseRunsAndReportIsSigned :
    let d := keyDev (some ⟨1, 2⟩) (some (List.replicate 380 0))
    sysClocked d = true ∧ d.keys.fuse ≠ none ∧ d.keys.att ≠ none ∧ (rd d Reg.KEY_ATT_DST).toNat = 0x1000000000 ∧
    accessCause d 0x1000000000 512 true = none ∧ Clean d 0x1000000000 512 ∧ gb d Reg.INTG_FLIP F.INTG_FLIP_ARM = false := by decide

/-! DramTrainingAndRecovery -/

theorem witness_DramTrainingAndRecovery :
    let d := sf Reg.DDR_CFG F.DDR_CFG_RANKS 1 memDev
    let t := setBoot { ddr := 1 } d
    sysClocked d = true ∧ domOn d 3 = true ∧ d.boot.ddr = 0 ∧ gf d Reg.DDR_CFG F.DDR_CFG_CAP ≤ 4 ∧ gf d Reg.DDR_CFG F.DDR_CFG_RANKS = 1 ∧
    gf d Reg.DDR_CFG F.DDR_CFG_RATE < 3 ∧ gf (sf Reg.DDR_CFG F.DDR_CFG_RANKS 0 d) Reg.DDR_CFG F.DDR_CFG_RANKS = 0 ∧ sysClocked t = true ∧
    gf t Reg.KEY_BOOT_STAT F.KEY_BOOT_STAT_PHASE ≠ 2 ∧
    gf (sf Reg.KEY_BOOT_STAT F.KEY_BOOT_STAT_PHASE 2 t) Reg.KEY_BOOT_STAT F.KEY_BOOT_STAT_PHASE = 2 ∧
    (setBoot { ddr := 2 } d).slots = {} ∧ (setBoot { ddr := 2 } d).boot.rec_ = none := by decide
theorem witness_RecoveryWaits :
    let d := sf Reg.KEY_BOOT_STAT F.KEY_BOOT_STAT_PHASE 4 memDev
    sysClocked d = true ∧ gf d Reg.KEY_BOOT_STAT F.KEY_BOOT_STAT_PHASE = 4 ∧ gf d Reg.ARB_STAT F.ARB_STAT_READY = 0 ∧
    accessCause d 0x800000 0x40000 false = none ∧ d.poison = [] ∧ d.errs = [] ∧
    gf memDev Reg.KEY_BOOT_STAT F.KEY_BOOT_STAT_PHASE ≠ 4 := by decide

/-! EthernetFramesMove -/

theorem witness_EthernetFramesMove :
    let a := 0x1000000000
    let d := rawStore a (leBytes 8 0x1000001000 ++ leBytes 2 100) (wr (Reg.ETH_RX_BASE 1) (BitVec.ofNat 64 a) (wr (Reg.ETH_TX_BASE 1) (BitVec.ofNat 64 a)
      (wr (Reg.ETH_RX_TAIL 1) 1 (wr (Reg.ETH_TX_TAIL 1) 1 (sf (Reg.ETH_STAT 1) F.ETH_STAT_LINK 1
        (sf (Reg.ETH_CTL 1) F.ETH_CTL_ETYPE 0x1234 (sf (Reg.ETH_CTL 1) F.ETH_CTL_MAX_LEN 1500 (sf (Reg.ETH_CTL 1) F.ETH_CTL_EN 1 memDev))))))))
    let fr : List Byte := List.replicate 6 0xFF ++ List.replicate 54 8
    let routed : List Byte := List.replicate 12 0xFF ++ [0x12, 0x34]
    sysClocked d = true ∧ gb d (Reg.ETH_CTL 1) F.ETH_CTL_EN = true ∧ gb (memDev) (Reg.ETH_CTL 1) F.ETH_CTL_EN = false ∧ ingestOn d = true ∧
    ethMine d 1 fr = true ∧ ethMine d 1 routed = true ∧ (rd d (Reg.ETH_RX_TAIL 1)).toNat = 1 ∧ gf d (Reg.ETH_CTL 1) F.ETH_CTL_MAX_LEN = 1500 ∧
    gf d (Reg.ETH_CTL 1) F.ETH_CTL_ETYPE = 0x1234 ∧ routeBySrc d (epMk 5 6 0) = none ∧ fieldAt (rawBytes d a 16) 0 8 = 0x1000001000 ∧
    fieldAt (rawBytes d a 16) 8 2 = 100 ∧ region a = .dram ∧ accessCause d a 16 false = none ∧ accessCause d (a + 8) 4 true = none ∧ Clean d a 16 ∧
    Clean d (a + 8) 4 ∧ region 0x1000001000 = .dram ∧ accessCause d 0x1000001000 60 true = none ∧ accessCause d 0x1000001000 100 false = none ∧
    Clean d 0x1000001000 100 ∧ Clean d 0x1000001000 60 ∧ gb d (Reg.ETH_STAT 1) F.ETH_STAT_LINK = true ∧ (rd memDev (Reg.ETH_RX_TAIL 1)).toNat = 0 ∧
    gb d Reg.INTG_FLIP F.INTG_FLIP_ARM = false := by decide +kernel

/-! UsbTransfersRun -/

theorem witness_UsbTransfersRun :
    let a := 0x1000000000
    let d := rawStore a (leBytes 8 0x1000001000 ++ leBytes 2 100) (wr Reg.USB_OUT_BASE (BitVec.ofNat 64 a) (wr Reg.USB_IN_BASE (BitVec.ofNat 64 a)
      (wr Reg.USB_OUT_TAIL 1 (wr Reg.USB_IN_TAIL 1 (sf Reg.USB_STAT F.USB_STAT_CONFIGURED 1 (sf Reg.USB_CTL F.USB_CTL_EN 1 memDev))))))
    sysClocked d = true ∧ gb d Reg.USB_CTL F.USB_CTL_EN = true ∧ gb d Reg.USB_STAT F.USB_STAT_CONFIGURED = true ∧
    gb memDev Reg.USB_CTL F.USB_CTL_EN = false ∧ gb memDev Reg.USB_STAT F.USB_STAT_CONFIGURED = false ∧ d.periph.usbWait = [] ∧
    (rd d Reg.USB_OUT_TAIL).toNat = 1 ∧ (rd memDev Reg.USB_OUT_TAIL).toNat = 0 ∧ (rd memDev Reg.USB_IN_TAIL).toNat = 0 ∧
    fieldAt (rawBytes d a 16) 0 8 = 0x1000001000 ∧ fieldAt (rawBytes d a 16) 8 2 = 100 ∧ region a = .dram ∧ accessCause d a 16 false = none ∧
    accessCause d (a + 8) 4 true = none ∧ Clean d a 16 ∧ Clean d (a + 8) 4 ∧ region 0x1000001000 = .dram ∧
    accessCause d 0x1000001000 60 true = none ∧ accessCause d 0x1000001000 100 false = none ∧ Clean d 0x1000001000 100 ∧
    Clean d 0x1000001000 60 ∧ gb d Reg.INTG_FLIP F.INTG_FLIP_ARM = false := by decide +kernel

/-! CamerasDeliverFrames -/

theorem witness_CamerasDeliverFrames :
    let d := { wr (Reg.CSI_FB_BASE 2) 0x1000000000 (wr (Reg.CSI_LIM_MAX 2) 0xFFFFFFFF
      (wr (Reg.CSI_FB_CFG 2) (BitVec.ofNat 64 (2 ^ 31 + 2 * 2 ^ 23 + 2 * 2 ^ 16 + 1)) memDev)) with
      periph := { csi := [(2, ⟨0, 7, 9⟩)] } }
    let e := { d with periph := {} }
    let f : Fifo := { src := epMk 5 2 0, dst := 0, mask := 0, seg := 1, cut := true, markEn := false, stall := false, thresh := 1, pin := 0, cred := 32, dsts := [] }
    let r := { d with fifos := [(9, f)] }
    sysClocked d = true ∧ gb d Reg.INTG_FLIP F.INTG_FLIP_ARM = false ∧ gf d (Reg.CSI_FB_CFG 2) F.CSI_FB_CFG_EN = 1 ∧ gf memDev (Reg.CSI_FB_CFG 2) F.CSI_FB_CFG_EN = 0 ∧
    ingestOn d = true ∧ mget e.periph.csi 2 = none ∧ mget d.periph.csi 2 = some ⟨0, 7, 9⟩ ∧ gf d (Reg.CSI_FB_CFG 2) F.CSI_FB_CFG_COUNT = 2 ∧
    (rd e (Reg.CSI_FB_MAP 2)).getLsbD 0 = false ∧ (∀ i < 2, (rd (wr (Reg.CSI_FB_MAP 2) 3 e) (Reg.CSI_FB_MAP 2)).getLsbD i = true) ∧
    gf d (Reg.CSI_CTL 2) F.CSI_CTL_VC = 0 ∧ gf d (Reg.CSI_CTL 2) F.CSI_CTL_DT = 42 ∧ gf d (Reg.CSI_LIM_MIN 2) F.CSI_LIM_MIN_WIDTH = 0 ∧
    gf d (Reg.CSI_LIM_MIN 2) F.CSI_LIM_MIN_LINES = 0 ∧ gf d (Reg.CSI_LIM_MAX 2) F.CSI_LIM_MAX_WIDTH = 65535 ∧
    gf d (Reg.CSI_LIM_MAX 2) F.CSI_LIM_MAX_LINES = 65535 ∧ gf d (Reg.CSI_FB_CFG 2) F.CSI_FB_CFG_SIZE = 1 ∧ (rd d (Reg.CSI_FB_BASE 2)).toNat = 0x1000000000 ∧
    region 0x1000000000 = .dram ∧ accessCause d 0x1000000000 64 true = none ∧ Clean d 0x1000000000 64 ∧ routeBySrc d (epMk 5 2 0) = none ∧
    routeBySrc r (epMk 5 2 0) = some 9 ∧ fifoCanWrite f = true ∧ f.backlog = [] := by decide +kernel

/-! AudioFramesAreDelivered -/

theorem witness_AudioFramesAreDelivered :
    let f : Fifo := { src := epMk 5 4 0, dst := 0, mask := 0, seg := 1, cut := true, markEn := false, stall := false, thresh := 1, pin := 0, cred := 32, dsts := [] }
    let d := sf Reg.TDM_RING_SIZE F.TDM_RING_SIZE_TILES 1 (wr Reg.TDM_RING_BASE 0x1000000000 (sf Reg.TDM_CTL F.TDM_CTL_CH 2
      (sf Reg.TDM_CTL F.TDM_CTL_EN 1 (sf Reg.TDM_VAD F.TDM_VAD_HOLD 1 (sf Reg.TDM_VAD F.TDM_VAD_EN 1 memDev)))))
    let r := { d with fifos := [(9, f)], periph := { tdm := { ends := [true] } } }
    sysClocked d = true ∧ gb d Reg.TDM_CTL F.TDM_CTL_EN = true ∧ gb memDev Reg.TDM_CTL F.TDM_CTL_EN = false ∧ ingestOn d = true ∧
    gb d Reg.INTG_FLIP F.INTG_FLIP_ARM = false ∧ d.periph.tdm = {} ∧ gf d Reg.TDM_CTL F.TDM_CTL_CH = 2 ∧ routeBySrc d (epMk 5 4 0) = none ∧
    routeBySrc r (epMk 5 4 0) = some 9 ∧ fifoCanWrite f = true ∧ r.periph.tdm.ends = [true] ∧ gf d Reg.TDM_RING_SIZE F.TDM_RING_SIZE_TILES = 1 ∧
    gf memDev Reg.TDM_RING_SIZE F.TDM_RING_SIZE_TILES = 0 ∧ region 0x1000000000 = .dram ∧ accessCause d 0x1000000000 32 true = none ∧
    accessCause r 0x1000000000 32 false = none ∧ Clean d 0x1000000000 32 ∧
    gf (sf Reg.TDM_RING_CFG F.TDM_RING_CFG_WM_HIGH 1 d) Reg.TDM_RING_CFG F.TDM_RING_CFG_WM_HIGH = 1 ∧
    gf d Reg.TDM_VAD F.TDM_VAD_EN = 1 ∧ gf memDev Reg.TDM_VAD F.TDM_VAD_EN = 0 ∧ gf d Reg.TDM_VAD F.TDM_VAD_HOLD = 1 ∧ pmuState d = 0 ∧
    pmuBusy d = false ∧ domOn d 4 = true ∧ (480 * (2 ^ 15) ^ 2) ^ 20 < (481 * 2 ^ 30) ^ 20 * 10 ^ gf d Reg.TDM_VAD F.TDM_VAD_THRESH := by decide +kernel

/-! PcieAndCoresAreControlled -/

theorem witness_PcieAndCoresAreControlled :
    let d := { sf Reg.PCIE_CTL F.PCIE_CTL_EN 1 memDev with part := { memDev.part with endpoint := false }, periph := { cfgSpace := [(0x19, 1), (0x1A, 3)] } }
    let u := sf Reg.PCIE_STAT F.PCIE_STAT_LINK_UP 1 d
    sysClocked d = true ∧ gb d Reg.PCIE_CTL F.PCIE_CTL_EN = true ∧ gb memDev Reg.PCIE_CTL F.PCIE_CTL_EN = false ∧
    gb d Reg.PCIE_STAT F.PCIE_STAT_LINK_UP = false ∧ gb u Reg.PCIE_STAT F.PCIE_STAT_LINK_UP = true ∧ d.part.endpoint = false ∧
    { d.part with endpoint := true }.endpoint = true ∧ domServes d 4 = true ∧ domServes (wr Reg.PMU_DOM_STAT 0 d) 4 = false ∧
    (cfgByte u 0x19).toNat ≤ 2 ∧ 2 ≤ (cfgByte u 0x1A).toNat ∧ 0x200004 / 2 ^ 20 = 2 ∧ 0x200004 % 4 = 0 := by decide +kernel

end Sys2Proof.Tests
end

/-! ## The canonical forms: every row of the command table keeps them, and so does an idle cycle -/

section
/-! SUPPORT and settlement of O5 and O6. -/

namespace Sys2Proof.Machine

/-- What a command keeps: from a device in canonical form, its next state is in canonical form. -/
def KeepsOk (i : Instr) : Prop := ∀ s t : State, s.dev.ok → exec i s = .next t → t.dev.ok

theorem KeepsOk.ofLift {i : Instr} {f : Dev → Dev} (he : ∀ s, exec i s = lift i.wf f s) (hf : ∀ d, d.ok → (f d).ok) :
    KeepsOk i := by
  intro s t hs ht
  rw [he s] at ht
  cases hw : i.wf <;> rw [hw] at ht
  · cases ht
  · obtain rfl : { s with dev := f s.dev } = t := Host.Outcome.next.inj ht
    exact hf _ hs

theorem KeepsOk.ofSys {i : Instr} {f : Dev → Dev} (he : ∀ s, exec i s = liftSys i.wf f s) (hf : ∀ d, d.ok → (f d).ok) :
    KeepsOk i :=
  KeepsOk.ofLift (f := fun d => if sysClocked d then f d else d) he fun d hd => ite_ok (hf d hd) hd

theorem tmOpRow_ok (src : TmSrc) (op : Nat) (t : TmDesc) (d : Dev) (hd : d.ok) : (tmOpRow src op t d).ok := tmCmd_ok src _ d hd

theorem acquireRow_ok (master n : Nat) (d : Dev) (hd : d.ok) : (acquireRow master n d).ok :=
  busDeliver_ok _ _ _ _ _ (tryAcquire_ok master n d hd)

theorem fieldRow_ok (n off v : Nat) (d : Dev) (hd : d.ok) : (fieldRow n off v d).ok :=
  watchesOn_ok n _ (syncField_ok n off v d hd)

theorem idle_ok (d : Dev) (hd : d.ok) : (idle d).ok := ite_ok (postedRun_ok _ (tick_ok d hd)) (tick_ok d hd)

/-- Every row of the command table keeps the canonical forms, because its effect on the device does. -/
theorem exec_keepsOk : ∀ i : Instr, KeepsOk i
  | .registerWrite addr value => .ofSys (fun _ => rfl) (registerWrite_ok addr value)
  | .fabricAccess x => .ofSys (fun _ => rfl) (fabricAccess_ok x)
  | .linkAccessTimeout tag => .ofSys (fun _ => rfl) (linkTimeout_ok tag)
  | .heldAccessRelease idx => .ofSys (fun _ => rfl) (heldRelease_ok idx)
  | .powerUpAccessTimeout idx => .ofSys (fun _ => rfl) (heldTimeout_ok idx)
  | .sysNodeLock => .ofSys (fun _ => rfl) nodeLock_ok
  | .imgLoadGo => .ofSys (fun _ => rfl) imgGo_ok
  | .imgPass1ReadDone => .ofSys (fun _ => rfl) (fun d => imgEnds_ok _ d imgPass1Done_ok)
  | .imgSignatureDone => .ofSys (fun _ => rfl) (fun d => imgEnds_ok _ d imgSignatureDone_ok)
  | .imgPass2Done tr => .ofSys (fun _ => rfl) (fun d => imgEnds_ok _ d (imgPass2Done_ok tr))
  | .imgSourceFault code off => .ofSys (fun _ => rfl) (fun d => imgEnds_ok _ d (imgSourceFault_ok code off))
  | .imgLoadAbort => .ofSys (fun _ => rfl) (fun d => imgEnds_ok _ d imgAbort_ok)
  | .imgQueuedStart => .ofSys (fun _ => rfl) (fun d => trAfter_ok _ d imgQueuedStart_ok)
  | .imgActGo => .ofSys (fun _ => rfl) xActGo_ok
  | .actDrainDone => .ofSys (fun _ => rfl) (fun d => trAfter_ok _ d actDrained_ok)
  | .actConstCopyDone => .ofSys (fun _ => rfl) (fun d => trAfter_ok _ d actConstDone_ok)
  | .actBarrierRelease => .ofSys (fun _ => rfl) (fun d => trAfter_ok _ d actReleased_ok)
  | .actTimeout => .ofSys (fun _ => rfl) (fun d => trAfter_ok _ d actTimeout_ok)
  | .start h p => .ofSys (fun _ => rfl) (startCmd_ok (withOp 0x01 h) p)
  | .admitBatch ring => .ofSys (fun _ => rfl) (admitRow_ok ring)
  | .stageFire k written lackIn lackCred lackWait => .ofSys (fun _ => rfl) (stageFire_ok k written lackIn lackCred lackWait)
  | .firingEnd k id => .ofSys (fun _ => rfl) (firingEnd_ok k id)
  | .fifoItemPresent id k upset => .ofSys (fun _ => rfl) (itemPresent_ok id k upset)
  | .fifoCreditGrant id n => .ofSys (fun _ => rfl) (creditRow_ok id n)
  | .fifoMark id k => .ofSys (fun _ => rfl) (fifoMark_ok id k)
  | .fifoRewind id k => .ofSys (fun _ => rfl) (fifoRewind_ok id k)
  | .fifoRelease id k => .ofSys (fun _ => rfl) (fifoRelease_ok id k)
  | .fifoStarved id => .ofSys (fun _ => rfl) (fifoStarve_ok id)
  | .fcPinHoldExpiry p => .ofSys (fun _ => rfl) (pinHoldExpiry_ok p)
  | .fifoWmWrite id v => .ofSys (fun _ => rfl) (fifoWm_ok id v)
  | .stageBatchEnd k id => .ofSys (fun _ => rfl) (stageBatchEnd_ok k id)
  | .stageSignalIssue k id => .ofSys (fun _ => rfl) (stageSignals_ok k id)
  | .batchComplete p => .ofSys (fun _ => rfl) (fun d => trAfter_ok _ d (batchComplete_ok p))
  | .wsFetch k id => .ofSys (fun _ => rfl) (wsFetch_ok k id)
  | .auFetch k id => .ofSys (fun _ => rfl) (auFetch_ok k id)
  | .auWrite k id => .ofSys (fun _ => rfl) (auWrite_ok k id)
  | .fetchArrival k id weights stalled => .ofSys (fun _ => rfl) (fetchArrival_ok k id weights stalled)
  | .engWaitTimeout k id w => .ofSys (fun _ => rfl) (engWaitTimeout_ok k id w)
  | .engDrain k => .ofSys (fun _ => rfl) (engDrain_ok k)
  | .engDrained k => .ofSys (fun _ => rfl) (engDrained_ok k)
  | .engDrainSlow k => .ofSys (fun _ => rfl) (engDrainSlow_ok k)
  | .engEnable k => .ofSys (fun _ => rfl) (engEnable_ok k)
  | .engKill k => .ofSys (fun _ => rfl) (engKill_ok k)
  | .engFailDeclare k => .ofSys (fun _ => rfl) (engFail_ok k 6)
  | .engCntClr k => .ofSys (fun _ => rfl) (engCntClr_ok k)
  | .fireHang k => .ofSys (fun _ => rfl) (fireHang_ok k)
  | .engFault k cause => .ofSys (fun _ => rfl) (engFail_ok k cause)
  | .arbRelocation k => .ofSys (fun _ => rfl) (arbRelocate_ok k)
  | .shardMigration r => .ofSys (fun _ => rfl) (shardMigrate_ok r)
  | .qzSatWindowEnd k n => .ofSys (fun _ => rfl) (qzWindowEnd_ok k n)
  | .qzScaleCalibrate k n v => .ofSys (fun _ => rfl) (qzCalibrate_ok k n v)
  | .arrayWindowRead master k off n => .ofSys (fun _ => rfl) (windowRead_ok master k off n)
  | .senseComplete k p tries raw => .ofSys (fun _ => rfl) (senseComplete_ok k p tries raw)
  | .arrayReadTimeout master k => .ofSys (fun _ => rfl) (winTimeout_ok master k)
  | .stackPowerOn k => .ofSys (fun _ => rfl) (stackOn_ok k)
  | .autoSuspend k g => .ofSys (fun _ => rfl) (autoSuspend_ok k g)
  | .autoResume k g => .ofSys (fun _ => rfl) (autoResume_ok k g)
  | .arySeqKey master k second => .ofSys (fun _ => rfl) (xKeyWrite_ok master k second)
  | .aryStrayWrite master k off data => .ofSys (fun _ => rfl) (xWindowWrite_ok master k off data false)
  | .arySeqTimeout k => .ofSys (fun _ => rfl) (xSeqTimeout_ok k)
  | .aryErase master k => .ofSys (fun _ => rfl) (xCommandWord_ok master k 0x60)
  | .aryProgramBuffer master k => .ofSys (fun _ => rfl) (xCommandWord_ok master k 0x81)
  | .aryBufferWrite master k off data poison => .ofSys (fun _ => rfl) (xWindowWrite_ok master k off data poison)
  | .aryCommit master k => .ofSys (fun _ => rfl) (xCommandWord_ok master k 0x81)
  | .aryPbTimeout k => .ofSys (fun _ => rfl) (fun d => aryAfter_ok _ d (pbTimeout_ok k))
  | .arySuspend master k => .ofSys (fun _ => rfl) (xCommandWord_ok master k 0xB0)
  | .arySuspendHeldExpiry k => .ofSys (fun _ => rfl) (arySuspendDue_ok k)
  | .aryResume master k => .ofSys (fun _ => rfl) (xCommandWord_ok master k 0xD0)
  | .aryAbort master k => .ofSys (fun _ => rfl) (xCommandWord_ok master k 0xF0)
  | .aryStatus master k => .ofSys (fun _ => rfl) (xCommandWord_ok master k 0x70)
  | .aryIdentify master k => .ofSys (fun _ => rfl) (xCommandWord_ok master k 0x90)
  | .aryContinuousRead master k => .ofSys (fun _ => rfl) (xCommandWord_ok master k 0xE8)
  | .aryPasswordUnlock master k => .ofSys (fun _ => rfl) (xCommandWord_ok master k 0xC5)
  | .aryLock master k => .ofSys (fun _ => rfl) (xCommandWord_ok master k 0xC6)
  | .pwTableWriteDone k => .ofSys (fun _ => rfl) (pwWritten_ok k)
  | .aryPowerGrant => .ofSys (fun _ => rfl) grantGive_ok
  | .aryOpDone k g us ok => .ofSys (fun _ => rfl) (xOpDone_ok k g us ok)
  | .aryRetire k b => .ofSys (fun _ => rfl) (fun d => aryAfter_ok _ d (aryRetire_ok k b))
  | .load h addr len slot side kind nsid => .ofSys (fun _ => rfl) (loadCmd_ok (withOp 0x10 h) addr len slot side kind nsid)
  | .loadQueuedStart => .ofSys (fun _ => rfl) xLoadNext_ok
  | .loadManifestArrival => .ofSys (fun _ => rfl) xManifest_ok
  | .nvmeCompletion status shard data => .ofSys (fun _ => rfl) (xNvme_ok status shard data)
  | .shardArrivalDone idx => .ofSys (fun _ => rfl) (xArrival_ok idx)
  | .shardReadbackDone idx => .ofSys (fun _ => rfl) (xReadback_ok idx)
  | .loadSourceFault shard poison cause => .ofSys (fun _ => rfl) (xSourceFault_ok shard poison cause)
  | .loadSourceTimeout shard => .ofSys (fun _ => rfl) (xSourceTimeout_ok shard)
  | .leDisable => .ofSys (fun _ => rfl) xLeDisable_ok
  | .leEnable => .ofSys (fun _ => rfl) xLeEnable_ok
  | .patrolLapStart => .ofSys (fun _ => rfl) xPatrolStart_ok
  | .patrolShardCheck => .ofSys (fun _ => rfl) xPatrolCheck_ok
  | .castle h slot flags barrier => .ofSys (fun _ => rfl) (fun d => trAfter_ok _ d (castleCmd_ok (withOp 0x11 h) slot flags barrier))
  | .castleBarrierRelease slot => .ofSys (fun _ => rfl) (fun d => trAfter_ok _ d (castleReleased_ok slot))
  | .castleTimeout slot => .ofSys (fun _ => rfl) (castleTimeout_ok slot)
  | .castleHoldExpiry slot => .ofSys (fun _ => rfl) (fun d => trAfter_ok _ d (holdExpiry_ok slot))
  | .arbSlotExpire => .ofSys (fun _ => rfl) xSlotExpire_ok
  | .release h slot side => .ofSys (fun _ => rfl) (fun d => trAfter_ok _ d (releaseRow_ok (withOp 0x12 h) slot side))
  | .sessionClose h slot session => .ofSys (fun _ => rfl) (sessionCloseCmd_ok (withOp 0x02 h) slot session)
  | .tmPlace src t => .ofSys (fun _ => rfl) (tmOpRow_ok src 1 t)
  | .tmFree src t => .ofSys (fun _ => rfl) (tmOpRow_ok src 2 t)
  | .tmPromote src t => .ofSys (fun _ => rfl) (tmOpRow_ok src 3 t)
  | .tmCapture src t => .ofSys (fun _ => rfl) (tmOpRow_ok src 4 t)
  | .tmPin src t => .ofSys (fun _ => rfl) (tmOpRow_ok src 5 t)
  | .tmUnpin src t => .ofSys (fun _ => rfl) (tmOpRow_ok src 6 t)
  | .tmFlush src t => .ofSys (fun _ => rfl) (tmOpRow_ok src 7 t)
  | .tmTileCopyDone n => .ofSys (fun _ => rfl) (tileCopyDone_ok n)
  | .tmMappingQuiesced n => .ofSys (fun _ => rfl) (mappingQuiesced_ok n)
  | .tmHotInterval => .ofSys (fun _ => rfl) hotInterval_ok
  | .tmDisable => .ofSys (fun _ => rfl) tmDisable_ok
  | .tmEnable => .ofSys (fun _ => rfl) tmEnable_ok
  | .train h addr => .ofSys (fun _ => rfl) (xTrain_ok (withOp 0x30 h) addr)
  | .trainSetupDone => .ofSys (fun _ => rfl) trSetup_ok
  | .trainCommitDone => .ofSys (fun _ => rfl) trCommit_ok
  | .scrubRead st upset => .ofSys (fun _ => rfl) (scrubRead_ok st upset)
  | .intgScrubSlow st => .ofSys (fun _ => rfl) (scrubSlow_ok st)
  | .intgFlipArm v => .ofSys (fun _ => rfl) (flipWrite_ok (word64 v))
  | .arbHoldClassify idx rs => .ofSys (fun _ => rfl) (holdClassify_ok idx rs)
  | .batchReplay p seq => .ofSys (fun _ => rfl) (batchReplayRow_ok p seq)
  | .arbHoldReplay idx => .ofSys (fun _ => rfl) (holdReplay_ok idx)
  | .arbHoldResign idx => .ofSys (fun _ => rfl) (holdResign_ok idx)
  | .shardReload r => .ofSys (fun _ => rfl) (shardReload_ok r)
  | .reloadRetryTimer r => .ofSys (fun _ => rfl) (reloadRetry_ok r)
  | .recovRetryNow rs => .ofSys (fun _ => rfl) (retryNow_ok rs)
  | .stackDegraded k rs => .ofSys (fun _ => rfl) (stackDegraded_ok k rs)
  | .stackDead k rs => .ofSys (fun _ => rfl) (stackDead_ok k rs)
  | .arbBlockRetire k b rs => .ofSys (fun _ => rfl) (blockRetire_ok k b rs)
  | .arbCeRepeatResponse st a rs => .ofSys (fun _ => rfl) (ceRepeat_ok st a rs)
  | .arbWatchdogExpiry => .ofSys (fun _ => rfl) watchdogExpiry_ok
  | .poweredTimeSave => .ofSys (fun _ => rfl) healthWrite_ok
  | .scoreRecordQueue event kind index args => .ofSys (fun _ => rfl) (scoreEvent_ok event kind index args)
  | .scorePost master => .ofSys (fun _ => rfl) (scorePost_ok master)
  | .scoreFlush => .ofSys (fun _ => rfl) (scoreProgram_ok false)
  | .scoreFlushTimeout => .ofSys (fun _ => rfl) scoreFlushTimeout_ok
  | .scorePageProgrammed => .ofLift (fun _ => rfl) scorePageDone_ok
  | .scoreSectorErased => .ofLift (fun _ => rfl) scoreErased_ok
  | .scoreScanDone => .ofLift (fun _ => rfl) scoreScanDone_ok
  | .powerFail vhold => .ofLift (fun _ => rfl) (supplyLost_ok vhold)
  | .cmdTailWrite n v => .ofSys (fun _ => rfl) (cmdTailWrite_ok n v)
  | .cplHeadWrite n v => .ofSys (fun _ => rfl) (cplHeadWrite_ok n v)
  | .ringEnable n => .ofSys (fun _ => rfl) (ringEnable_ok n)
  | .ringDisable n => .ofSys (fun _ => rfl) (ringDisable_ok n)
  | .commandDispatch => .ofSys (fun _ => rfl) (fun d => trAfter_ok _ d commandDispatch_ok)
  | .completionRelease n => .ofSys (fun _ => rfl) (completionRelease_ok n)
  | .ringCplStall n => .ofSys (fun _ => rfl) (cplStall_ok n)
  | .ringModTimer n => .ofSys (fun _ => rfl) (modTimer_ok n)
  | .ringProgressTimer t => .ofSys (fun _ => rfl) (progressTimer_ok t)
  | .nop h => .ofSys (fun _ => rfl) (nopCmd_ok (withOp 0x00 h))
  | .query h kind index => .ofSys (fun _ => rfl) (queryCmd_ok (withOp 0x60 h) kind index)
  | .adjourn h t => .ofSys (fun _ => rfl) (adjournCmd_ok (withOp 0x70 h) t)
  | .resume h t => .ofSys (fun _ => rfl) (resumeCmd_ok (withOp 0x71 h) t)
  | .resign h t => .ofSys (fun _ => rfl) (fun d => trAfter_ok _ d (resignCmd_ok (withOp 0x72 h) t))
  | .imgLoad h src len => .ofSys (fun _ => rfl) (imgLoadCmd_ok (withOp 0x40 h) src len)
  | .imgActivate h en barrier => .ofSys (fun _ => rfl) (fun d => trAfter_ok _ d (imgActCmd_ok (withOp 0x41 h) en barrier))
  | .census h expect => .ofSys (fun _ => rfl) (censusCmd_ok (withOp 0x50 h) expect)
  | .tlEnable n => .ofSys (fun _ => rfl) (tlEnable_ok n)
  | .tlDisable n => .ofSys (fun _ => rfl) (tlDisable_ok n)
  | .tlTrainFlit n lanes flit => .ofSys (fun _ => rfl) (rowTrainFlit_ok n lanes flit)
  | .tlTrainTimeout n => .ofSys (fun _ => rfl) (rowTrainTimeout_ok n)
  | .tlDataFlit n flit => .ofSys (fun _ => rfl) (dataFlit_ok n flit)
  | .tlIdleFlit n flit => .ofSys (fun _ => rfl) (idleFlit_ok n flit)
  | .tlAckFlit n flit => .ofSys (fun _ => rfl) (ackFlit_ok n flit)
  | .tlNakFlit n flit => .ofSys (fun _ => rfl) (nakFlit_ok n flit)
  | .tlSleepNotice n flit => .ofSys (fun _ => rfl) (sleepNotice_ok n flit)
  | .tlReplayTimeout n => .ofSys (fun _ => rfl) (replayTimeout_ok n)
  | .tlAckTimer n => .ofSys (fun _ => rfl) (ackTimer_ok n)
  | .tlIdleInsert n => .ofSys (fun _ => rfl) (idleInsert_ok n)
  | .tlVcIdleSend n v => .ofSys (fun _ => rfl) (vcIdleSend_ok n v)
  | .tlFcInChange n level => .ofSys (fun _ => rfl) (fcIn_ok n level)
  | .tlFcStuck n => .ofSys (fun _ => rfl) (fcStuck_ok n)
  | .tlFpSettleExpiry n => .ofSys (fun _ => rfl) (fpSettle_ok n)
  | .tlWakeRetry n => .ofSys (fun _ => rfl) (wakeRetry_ok n)
  | .linkWakeDetect n ok => .ofLift (fun _ => rfl) (linkWake_ok n ok)
  | .read n m => .ofSys (fun _ => rfl) (rowRead_ok n m)
  | .write n m => .ofSys (fun _ => rfl) (rowWrite_ok n m)
  | .readRsp n m => .ofSys (fun _ => rfl) (rowReadRsp_ok n m)
  | .writeAck n m => .ofSys (fun _ => rfl) (rowWriteAck_ok n m)
  | .errRsp n m => .ofSys (fun _ => rfl) (rowErrRsp_ok n m)
  | .syncOp n m => .ofSys (fun _ => rfl) (rowSyncOp_ok n m)
  | .watch n m => .ofSys (fun _ => rfl) (rowWatch_ok n m)
  | .notify n m => .ofSys (fun _ => rfl) (rowNotify_ok n m)
  | .watchRetry tag => .ofSys (fun _ => rfl) (watchRetry_ok tag)
  | .stream n m => .ofSys (fun _ => rfl) (rowStream_ok n m)
  | .censusStart n m => .ofSys (fun _ => rfl) (rowCensusStart_ok n m)
  | .censusPart n m => .ofSys (fun _ => rfl) (rowCensusPart_ok n m)
  | .censusChildTimeout => .ofSys (fun _ => rfl) censusTimeout_ok
  | .counterAdd master n arg => .ofSys (fun _ => rfl) (syncOp_ok master n 1 arg)
  | .semaphoreRelease master n arg => .ofSys (fun _ => rfl) (syncOp_ok master n 2 arg)
  | .barrierArrive master n => .ofSys (fun _ => rfl) (syncOp_ok master n 3 0)
  | .eventFlagSet master n arg => .ofSys (fun _ => rfl) (syncOp_ok master n 4 arg)
  | .reductionContribute master n arg => .ofSys (fun _ => rfl) (syncOp_ok master n 5 arg)
  | .syncTryAcquire master n => .ofSys (fun _ => rfl) (acquireRow_ok master n)
  | .syncFieldStore n off v => .ofSys (fun _ => rfl) (fieldRow_ok n off v)
  | .syncPairWrite m data poison => .ofSys (fun _ => rfl) (syncPair_ok m data poison)
  | .icSetpend id => .ofSys (fun _ => rfl) (icSetPend_ok id)
  | .icClrpend id raised => .ofSys (fun _ => rfl) (icClrPend_ok id raised)
  | .icVectorAccept c raised => .ofSys (fun _ => rfl) (icAccept_ok c raised)
  | .icEoi c id => .ofSys (fun _ => rfl) (icEoi_ok c id)
  | .icEnWrite m v race => .ofSys (fun _ => rfl) (icEnWrite_ok m v race)
  | .pmuRequestEntry target => .ofSys (fun _ => rfl) (pmuRequest_ok target)
  | .pmuRequestExit => .ofSys (fun _ => rfl) (pmuRequest_ok 0)
  | .autoIdleEntry => .ofSys (fun _ => rfl) autoIdle_ok
  | .autoRunExit => .ofSys (fun _ => rfl) autoRun_ok
  | .agentAnswer a busy => .ofSys (fun _ => rfl) (agentAnswer_ok a busy)
  | .pmuHandshakeTimeout => .ofSys (fun _ => rfl) pmuTimeout_ok
  | .wakeSource src => .ofLift (fun _ => rfl) (wakePin_ok src)
  | .aonCalibrate => .ofLift (fun _ => rfl) calGo_ok
  | .aonCalDone xtal rc => .ofLift (fun _ => rfl) (calDone_ok xtal rc)
  | .aonClockFallback => .ofLift (fun _ => rfl) clockFallback_ok
  | .aonClockRetry => .ofLift (fun _ => rfl) clockRetry_ok
  | .aonCrystalStable => .ofLift (fun _ => rfl) crystalStable_ok
  | .aonAlarm n => .ofLift (fun _ => rfl) (alarmFire_ok n)
  | .pmuDomainFault dom kind => .ofLift (fun _ => rfl) (domainFault_ok dom kind)
  | .powerOnReset => .ofLift (fun _ => rfl) powerOn_ok
  | .supplyReset => .ofLift (fun _ => rfl) supplyReset_ok
  | .pinReset cool => .ofLift (fun _ => rfl) (pinReset_ok cool)
  | .softwareReset code => .ofSys (fun _ => rfl) (softReset_ok code)
  | .perstFall => .ofLift (fun _ => rfl) perstFall_ok
  | .keyRecover type => .ofSys (fun _ => rfl) (keyRecover_ok type)
  | .arbBootCfg base compat => .ofSys (fun _ => rfl) (bootCfg_ok base compat)
  | .keyFuseProg slot => .ofSys (fun _ => rfl) (fuseProg_ok slot)
  | .keyFuseRevoke => .ofSys (fun _ => rfl) fuseRevoke_ok
  | .keyFuseRaise level => .ofSys (fun _ => rfl) (fuseRaise_ok level)
  | .keyFuseDone ok => .ofSys (fun _ => rfl) (fuseDone_ok ok)
  | .keyAttest => .ofSys (fun _ => rfl) attGo_ok
  | .keyAttestDone => .ofSys (fun _ => rfl) attDone_ok
  | .ddrTrain => .ofSys (fun _ => rfl) ddrTrain_ok
  | .ddrTrainDone mask => .ofSys (fun _ => rfl) (ddrTrainDone_ok mask)
  | .ddrTrainTimeout mask => .ofSys (fun _ => rfl) (ddrTimeout_ok mask)
  | .ddrInitDone rs => .ofSys (fun _ => rfl) (ddrInitDone_ok rs)
  | .thermalTrip vhold => .ofLift (fun _ => rfl) (thermalTrip_ok vhold)
  | .jtagExtest on => .ofLift (fun _ => rfl) (jtagExtest_ok on)
  | .resetRelease strap => .ofLift (fun _ => rfl) (resetRelease_ok strap)
  | .ethRxFrame m frame ok => .ofSys (fun _ => rfl) (ethRxFrame_ok m frame ok)
  | .ethRxTailWrite m v => .ofSys (fun _ => rfl) (ethRxTail_ok m v)
  | .ethTxTailWrite m v => .ofSys (fun _ => rfl) (ethTxTail_ok m v)
  | .ethTxDone m => .ofSys (fun _ => rfl) (ethTxDone_ok m)
  | .ethLinkDown m => .ofSys (fun _ => rfl) (ethLinkDown_ok m)
  | .usbOutTransfer data ended => .ofSys (fun _ => rfl) (usbOutTransfer_ok data ended)
  | .usbInDone => .ofSys (fun _ => rfl) usbInDone_ok
  | .usbOutTailWrite v => .ofSys (fun _ => rfl) (usbOutTail_ok v)
  | .usbInTailWrite v => .ofSys (fun _ => rfl) (usbInTail_ok v)
  | .usbBusReset speed => .ofSys (fun _ => rfl) (usbBusReset_ok speed)
  | .csiFrameStart n num => .ofSys (fun _ => rfl) (csiFrameStart_ok n num)
  | .csiFrameEnd n width lines dt vc data => .ofSys (fun _ => rfl) (csiFrameEnd_ok n width lines dt vc data)
  | .csiFrameTimeout n => .ofSys (fun _ => rfl) (csiTimeout_ok n)
  | .csiFbRel n idx => .ofSys (fun _ => rfl) (csiRelease_ok n idx)
  | .csiFbCfgWrite n v => .ofSys (fun _ => rfl) (csiCfgWrite_ok n v)
  | .tdmFrame samples onTime => .ofSys (fun _ => rfl) (tdmFrame_ok samples onTime)
  | .tdmRingDrain => .ofSys (fun _ => rfl) tdmDrain_ok
  | .tdmFsLost => .ofSys (fun _ => rfl) tdmLost_ok
  | .tdmCtlWrite v => .ofSys (fun _ => rfl) (tdmCtlWrite_ok v)
  | .vadWindow sum => .ofLift (fun _ => rfl) (vadWindow_ok sum)
  | .pcieLinkTrain => .ofSys (fun _ => rfl) pcieTrain_ok
  | .pcieLinkFail => .ofSys (fun _ => rfl) pcieFail_ok
  | .pcieConfigAccess master off n wr data answer => .ofSys (fun _ => rfl) (pcieConfig_ok master off n wr data answer)
  | .cpuHoldWrite v => .ofSys (fun _ => rfl) (cpuHold_ok v)
  | .cpuFreqWrite v => .ofSys (fun _ => rfl) (cpuFreq_ok v)
  | .pcieLinkUp rate width => .ofSys (fun _ => rfl) (pcieUp_ok rate width)
  | .ethBlockLock m => .ofSys (fun _ => rfl) (ethBlockLock_ok m)
  | .usbBusSuspend on => .ofSys (fun _ => rfl) (usbSuspend_ok on)
  | .usbStandardRequest setup => .ofSys (fun _ => rfl) (usbRequest_ok setup)

/-- Settles O5: the command at the front of the queue keeps the canonical forms, and so does the clock cycle of an empty queue. -/
theorem stepKeepsCanonicalForm : Obligations.StepKeepsCanonicalForm := by
  intro s t hs ht
  unfold step at ht
  split at ht
  next =>
    obtain rfl : { s with dev := idle s.dev } = t := Host.Outcome.next.inj ht
    exact idle_ok _ hs
  next c rest _ => exact exec_keepsOk c { s with pending := rest } t hs ht

/-- A device that lists nothing in its sparse tables is in canonical form. -/
theorem reset_dev_ok : State.reset.dev.ok :=
  ⟨⟨rising_nil, fun _ hc => absurd hc List.not_mem_nil⟩, rising_nil, rising_nil, rising_nil⟩

/-- Settles O6: nothing is listed after reset, and no command waits. -/
theorem resetIsCanonical : Obligations.ResetIsCanonical :=
  ⟨⟨reset_dev_ok, fun _ hc => absurd hc List.not_mem_nil⟩, rfl, reset_dev_ok.1⟩

end Sys2Proof.Machine
end

/-! ## Accesses that a bus error refuses -/

section
/-! SUPPORT and settlement of O10: how an access on the fabric is decoded, which cause a local address has, and what a refused access
leaves. -/

namespace Sys2Proof.Machine

/-! ### Decoding (R23 to R28) -/

section
variable {x : BusAcc} {d : Dev}

theorem accAddr_plain (hb : x.bar = 0) : accAddr d x = some x.addr := by simp [accAddr, hb]

theorem fabricAccess_beyondRootPort (hb : x.bar = 0) (ha : x.addr < 2 ^ 53) (hm : x.master = 0x11) (hr : 2 ^ 40 ≤ x.addr) :
    fabricAccess x d = busFail causeUnmapped x.master x.write x.addr x.bytes d := by
  unfold fabricAccess
  rw [accAddr_plain hb]
  dsimp only
  rw [Nat.mod_eq_of_lt ha, if_pos ⟨hm, hr⟩]

theorem fabricAccess_remote (hb : x.bar = 0) (ha : x.addr < 2 ^ 53) (hm : x.master ≠ 0x11) (hl : localOf d x.addr = none)
    (hg : x.addr / 2 ^ 52 = 1) : fabricAccess x d = busRemote x x.addr d := by
  unfold fabricAccess
  rw [accAddr_plain hb]
  dsimp only
  rw [Nat.mod_eq_of_lt ha, if_neg (fun h => hm h.1), hl]
  exact if_pos hg

theorem fabricAccess_local (hb : x.bar = 0) (ha : x.addr < 2 ^ 53) (hm : x.master = 0x11 → x.addr < 2 ^ 40) {a : Nat}
    (hl : localOf d x.addr = some a) : fabricAccess x d = busLocal x x.addr d := by
  unfold fabricAccess
  rw [accAddr_plain hb]
  dsimp only
  rw [Nat.mod_eq_of_lt ha, if_neg (fun h => Nat.not_le.mpr (hm h.1) h.2), hl]

theorem busRemote_noRoute {fa : Nat} (hr : hasRoute d (fa / 2 ^ 40 % 4096) = false) :
    busRemote x fa d = busFail causeNoRoute x.master x.write fa x.bytes d :=
  if_pos (by rw [hr]; rfl)

end

/-! ### A local access: held, or refused with its cause (R36, R42, R45) -/

/-- The access waits for its block's domain, or behind a held one of its master and block (R36, R42). -/
def localWaits (d : Dev) (x : BusAcc) (a : Nat) : Prop :=
  accessWaits d a x.bytes x.write = true ∨ heldBefore d x.master a d.boot.held.length = true

theorem busLocal_held {x : BusAcc} {fa : Nat} {d : Dev} (h : localWaits d x (fa % 2 ^ 40)) :
    busLocal x fa d = setBoot { d.boot with held := d.boot.held ++ [⟨x.master, fa, x.write, x.bytes, x.data, x.poison, none⟩] } d :=
  if_pos (Bool.or_eq_true_iff.mpr h)

/-- Data without the EP bit, or not from below PCIe, is not counted. -/
theorem epCount_none {master : Nat} {p : Bool} (d : Dev) (h : p = true → master ≠ 0x10 ∧ master ≠ 0x11) : epCount master p d = d := by
  unfold epCount
  cases p
  · rfl
  · simp [(h rfl).1, (h rfl).2]

theorem busLocal_refused {x : BusAcc} {fa c : Nat} {d : Dev} (hw : ¬ localWaits d x (fa % 2 ^ 40))
    (hp : x.poison = true → x.master ≠ 0x10 ∧ x.master ≠ 0x11) (hr : region (fa % 2 ^ 40) ≠ .pcieOut)
    (hc : localCause d (fa % 2 ^ 40) x.bytes x.write = some c) : busLocal x fa d = busFail c x.master x.write fa x.bytes d := by
  have hl : busLocal x fa d = busDo x fa d := if_neg (fun h => hw (Bool.or_eq_true_iff.mp h))
  rw [hl]
  unfold busDo
  dsimp only
  rw [if_neg (fun h => hr h.1), epCount_none d hp, ite_self, hc]

/-! ### The cause of a local address (R31, R41, R45, R47) -/

section
variable {d : Dev} {a n c : Nat} {w : Bool}

/-- The cause of the first byte is that of the access. -/
theorem accessCause_first (h : byteCause d a w = some c) : accessCause d a n w = some c := by
  unfold accessCause
  rw [h]

/-- Where the first byte has no cause, that of the last byte is the access's. -/
theorem accessCause_last (h : byteCause d a w = none) (hl : byteCause d (a + n - 1) w = some c) : accessCause d a n w = some c := by
  unfold accessCause
  rw [h, hl]

theorem localCause_unlisted (hr : region a = .regs) (hl : regListed a = false) : localCause d a n w = some causeUnmapped :=
  if_pos ⟨hr, hl⟩

/-- Outside an unlisted register block, the cause of the access's range and domain stands. -/
theorem localCause_access (hl : region a = .regs → regListed a = true) (h : accessCause d a n w = some c) :
    localCause d a n w = some c := by
  unfold localCause
  rw [if_neg (fun hx => by simp [hl hx.1] at hx), h]

theorem localCause_first (hl : region a = .regs → regListed a = true) (h : byteCause d a w = some c) : localCause d a n w = some c :=
  localCause_access hl (accessCause_first h)

theorem localCause_unnatural (hr : region a = .regs) (hl : regListed a = true) (h : accessCause d a n w = none)
    (hn : regsNatural a n = false) : localCause d a n w = some causeAlign := by
  unfold localCause
  rw [if_neg (fun hx => by simp [hl] at hx), h]
  simp [hr, hn]

theorem byteCause_reserved (hr : region a = .reserved) : byteCause d a w = some causeUnmapped := by
  simp [byteCause, hr]

/-- Boot ROM, scoresheet and calibration rows take no write. -/
theorem byteCause_readOnly (hr : region a = .rom ∨ region a = .scoreWin ∨ ∃ k, region a = .calRow k) :
    byteCause d a true = some causeReadOnly := by
  obtain hr | hr | ⟨k, hr⟩ := hr <;> simp [byteCause, hr]

/-- A range of memory or registers whose domain does not serve. -/
theorem byteCause_domainOff (hs : domServes d (domOf a) = false)
    (hr : region a = .regs ∨ region a = .arbSram ∨ region a = .mezz ∨ region a = .sync ∨ (∃ k, region a = .tile k) ∨
      (region a = .dram ∧ dramTop d ≠ 0) ∨ (∃ k, region a = .array k) ∨ (∃ k, region a = .psec k)) :
    byteCause d a w = some causeDomainOff := by
  obtain hr | hr | hr | hr | ⟨k, hr⟩ | ⟨hr, ht⟩ | ⟨k, hr⟩ | ⟨k, hr⟩ := hr
  case inr.inr.inr.inr.inr.inl =>
    have : domOf a = 3 := by simp [domOf, hr]
    rw [this] at hs
    simp [byteCause, hr, ht, hs]
  case inr.inr.inr.inr.inr.inr.inl =>
    have : domOf a = 32 + k := by simp [domOf, hr]
    rw [this] at hs
    simp [byteCause, hr, hs]
  all_goals simp [byteCause, hr, hs]

theorem byteCause_dram (hr : region a = .dram) (hs : domServes d 3 = true) :
    byteCause d a w = if dramTop d ≤ a % 2 ^ 36 then some causeBeyondTop else none := by
  by_cases ht : dramTop d = 0 <;> simp [byteCause, hr, hs, ht]

theorem byteCause_beyondTop (hr : region a = .dram) (h : dramTop d = 0 ∨ (domServes d 3 = true ∧ dramTop d ≤ a % 2 ^ 36)) :
    byteCause d a w = some causeBeyondTop := by
  obtain ht | ⟨hs, ht⟩ := h
  · simp [byteCause, hr, ht]
  · rw [byteCause_dram hr hs, if_pos ht]

theorem byteCause_beyondBlocks {k : Nat} (hr : region a = .array k) (hs : domServes d (32 + k) = true)
    (hb : mainBlocks d ≤ arrOff a / 0x400000) : byteCause d a w = some causeBeyondTop := by
  simp [byteCause, hr, hs, hb]

end

/-- A row that ends in a bus error completes and leaves what the error leaves. -/
theorem completes_busFail {x : BusAcc} {s : State} {c : Nat} (hs : sysClocked s.dev = true) (hw : (Instr.fabricAccess x).wf = true)
    (ha : x.addr < 2 ^ 53) (hc : c < 16) (h : fabricAccess x s.dev = busFail c x.master x.write x.addr x.bytes s.dev) :
    Completes (.fabricAccess x) s (BusErrored c x.master x.write x.addr x.bytes s.dev) := by
  have hm : x.master < 256 := by
    simp only [Instr.wf, WellFormed.okAcc, WellFormed.lt, Bool.and_eq_true, decide_eq_true_eq] at hw
    exact hw.1.1.1.1.1.1
  refine completes_sys (f := fabricAccess x) rfl hw hs ?_
  rw [h]
  exact busFail_errored _ _ _ _ _ _ hc hm ha

/-- Settles O10: each refusal is the cause that its address has, and a bus error of that cause is all the access leaves. -/
theorem refusedAccesses : Obligations.RefusedAccesses := by
  intro s x hs hw hb ha hp a refused waits
  have refuse : ∀ {c}, c < 16 → fabricAccess x s.dev = busFail c x.master x.write x.addr x.bytes s.dev → refused c :=
    fun hc h => completes_busFail hs hw ha hc h
  refine ⟨fun hm hr => refuse (by decide) (fabricAccess_beyondRootPort hb ha hm hr),
    fun hm hl hg hr => refuse (by decide) ((fabricAccess_remote hb ha hm hl hg).trans (busRemote_noRoute hr)),
    fun hm hl hpc => ⟨fun hx => ?_, fun hx => ?_⟩⟩
  · refine completes_sys (f := fabricAccess x) rfl hw hs ?_
    rw [fabricAccess_local hb ha hm hl, busLocal_held hx]
    exact ⟨(Touches.refl s.dev).mk, rfl⟩
  have cause : ∀ {c}, c < 16 → localCause s.dev a x.bytes x.write = some c → refused c := fun hc h =>
    refuse hc ((fabricAccess_local hb ha hm hl).trans (busLocal_refused hx hp hpc h))
  refine ⟨fun hr => ?_, fun hr hn => ?_, fun hr hwr => ?_, fun hr hd => ?_, fun hr ht => ?_, fun hr hr2 hd ht ht2 => ?_,
    fun k hr hd hbl => ?_, fun hr hn hac hnat => ?_⟩
  · exact cause (by decide) (localCause_first (by simp [hr]) (byteCause_reserved hr))
  · exact cause (by decide) (localCause_unlisted hr hn)
  · refine cause (by decide) (localCause_first (fun h => ?_) (hwr ▸ byteCause_readOnly hr))
    obtain hr | hr | ⟨k, hr⟩ := hr <;> simp [hr] at h
  · refine cause (by decide) (localCause_first (fun h => ?_) (byteCause_domainOff hd ?_))
    · obtain hr | hr := hr
      · exact hr.2
      · simp [h] at hr
    · exact hr.imp_left And.left
  · exact cause (by decide) (localCause_first (by simp [hr]) (byteCause_beyondTop hr ht))
  · refine cause (by decide) (localCause_access (by simp [hr]) (accessCause_last ?_ (byteCause_beyondTop hr2 (.inr ⟨hd, ht2⟩))))
    rw [byteCause_dram hr hd, if_neg (Nat.not_le.mpr ht)]
  · exact cause (by decide) (localCause_first (by simp [hr]) (byteCause_beyondBlocks hr hd hbl))
  · exact cause (by decide) (localCause_unnatural hr hn hac hnat)

end Sys2Proof.Machine
end

/-! ## Registers store by the access codes of their fields -/

section
/-! SUPPORT and settlement of O11: the fields of the register map fit and lie apart, so a register that is written field by field holds in
each what that field stores. -/

namespace Sys2Proof.Machine

/-! ### The register map (R9, R32) -/

/-- Two fields of one register share no bit. -/
abbrev Fld.Apart (f g : Fld) : Prop := f.lo + f.len ≤ g.lo ∨ g.lo + g.len ≤ f.lo

/-- The fields of a row lie within its width and apart from one another. -/
abbrev RegDesc.Fits (t : RegDesc) : Prop :=
  t.width ≤ 64 ∧ (∀ f ∈ t.flds, f.fld.lo + f.fld.len ≤ t.width) ∧ t.flds.Pairwise (fun f g => f.fld.Apart g.fld)

theorem regTable_fits : ∀ t ∈ regTable, t.Fits := by decide +kernel

/-- A register that is found stands in a row of the map, at indices within the row's bounds. -/
theorem regFind_mem {a : Nat} {r : RegAt} (h : regFind a = some r) : r.desc ∈ regTable ∧ r.i < r.desc.n1 ∧ r.j < r.desc.n2 := by
  obtain ⟨t, ht, hm⟩ := List.exists_of_findSome?_eq_some h
  unfold regMatch at hm
  simp only [Option.ite_none_right_eq_some, Option.some.injEq] at hm
  obtain ⟨⟨_, hi, hj, _⟩, rfl⟩ := hm
  exact ⟨ht, hi, hj⟩

/-- No register that enables a block's causes is one that raising an interrupt writes. -/
theorem irqEn_not_raised : ∀ t ∈ regTable, (irqSrc t.base 0).isSome → ∀ i < t.n1, ∀ j < t.n2,
    ¬ raised (t.base + i * t.s1 + j * t.s2) := by
  unfold raised
  decide +kernel

/-- Whether a row enables a block's causes does not depend on the register's index in the row. -/
theorem irqSrc_isSome (b i : Nat) : (irqSrc b i).isSome = (irqSrc b 0).isSome := by
  unfold irqSrc
  simp only [apply_ite Option.isSome, Option.isSome_some]

/-! ### Writing a register field by field -/

/-- A field apart from all those that are put keeps its value. -/
theorem fldGet_foldl_apart (x : FldDesc → Nat) (g : Fld) : ∀ (l : List FldDesc) (w : BitVec 64),
    (∀ f ∈ l, f.fld.lo + f.fld.len ≤ 64 ∧ f.fld.Apart g) → fldGet (l.foldl (fun w f => fldPut w f.fld (x f)) w) g = fldGet w g
  | [], _, _ => rfl
  | f :: l, w, h => by
    obtain ⟨hf, hd⟩ := h f List.mem_cons_self
    rw [List.foldl_cons, fldGet_foldl_apart x g l _ (fun q hq => h q (List.mem_cons_of_mem _ hq)), fldGet_fldPut_disj _ _ _ _ hf hd]

/-- Of fields that lie apart, each holds what was put there. -/
theorem fldGet_foldl_mem (x : FldDesc → Nat) (f : FldDesc) : ∀ (l : List FldDesc) (w : BitVec 64),
    (∀ q ∈ l, q.fld.lo + q.fld.len ≤ 64) → l.Pairwise (fun p q => p.fld.Apart q.fld) → f ∈ l →
    fldGet (l.foldl (fun w f => fldPut w f.fld (x f)) w) f.fld = x f % 2 ^ f.fld.len
  | p :: l, w, hl, hp, hf => by
    obtain ⟨hhead, htail⟩ := List.pairwise_cons.mp hp
    have hl' := fun q hq => hl q (List.mem_cons_of_mem p hq)
    rw [List.foldl_cons]
    rcases List.mem_cons.mp hf with rfl | hf
    · rw [fldGet_foldl_apart x f.fld l _ (fun q hq => ⟨hl' q hq, (hhead q hq).symm⟩),
        fldGet_fldPut_same _ _ _ (hl f List.mem_cons_self)]
    · exact fldGet_foldl_mem x f l _ hl' htail hf

/-- A field of a number. -/
theorem fldGet_ofNat (v : Nat) (f : Fld) (h : v < 2 ^ 64) : fldGet (BitVec.ofNat 64 v) f = v / 2 ^ f.lo % 2 ^ f.len := by
  unfold fldGet
  rw [BitVec.extractLsb'_toNat, BitVec.toNat_ofNat, Nat.mod_eq_of_lt h, Nat.shiftRight_eq_div_pow]

/-- The rows with one more rule of their own: some of their bits are stored as 0 whatever is written. -/
def fixedRows : List Nat :=
  [Reg.CPU_ENTRY.addr, Reg.PMU_RESUME.addr, Reg.INTG_SCRUB_EN.addr, Reg.LE_NVME_CFG.addr, (Reg.TL_RT_COL 0).addr, (Reg.TL_RT_ROW 0).addr]

theorem regFixed_other {b : Nat} (h : b ∉ fixedRows) (v : BitVec 64) : regFixed b v = v := by
  simp only [fixedRows, List.mem_cons, List.not_mem_nil, or_false, not_or] at h
  obtain ⟨h1, h2, h3, h4, h5, h6⟩ := h
  simp [regFixed, h1, h2, h3, h4, h5, h6]

/-- Each field of a new register value holds what the field stores. -/
theorem fldGet_regNew {t : RegDesc} (ht : t.Fits) (hb : t.base ∉ fixedRows) {f : FldDesc} (hf : f ∈ t.flds) (d : Dev)
    (old v : BitVec 64) :
    fldGet (regNew d t old v) f.fld = fldStore d t.base f (fldGet old f.fld) (fldGet v f.fld) % 2 ^ f.fld.len := by
  obtain ⟨hw, hin, hap⟩ := ht
  unfold regNew
  rw [regFixed_other hb]
  exact fldGet_foldl_mem _ f t.flds old (fun q hq => (hin q hq).trans hw) hap hf

/-! ### What follows a store -/

section
variable {w : Nat → Prop} {d e : Dev}

theorem Touches.regAfter (h : Touches w d e) (r : RegAt) (old new : BitVec 64) : Touches w d (regAfter r old new e) := by
  unfold Machine.regAfter
  dsimp only
  split
  · exact h.whenB _ _ (h.raise _)
  · exact Touches.ite h.icPresent (Touches.ite h.mk h)

end

/-- What follows a store leaves the register that was stored. -/
theorem rd_regAfter (r : RegAt) (old new : BitVec 64) (d : Dev) (q : Reg) (hq : (irqSrc r.desc.base r.i).isSome → ¬ raised q.addr) :
    rd (regAfter r old new d) q = rd d q := by
  unfold regAfter
  dsimp only
  split
  · rename_i st src hs
    have hr : ¬ raised q.addr := hq (by rw [hs]; rfl)
    unfold whenB
    split
    · exact rd_raise _ _ _ hr
    · rfl
  · split
    · exact rd_icPresent _ _
    · split <;> rfl

/-- The registers that the selected store holds for itself (R527, R545). -/
def storeRows : List Nat := [Reg.INTG_LOG_STAT.addr, Reg.INTG_LOG_ENT.addr, Reg.INTG_LAP_TMO.addr]

theorem intgStore_other {b : Nat} (h : b ∉ storeRows) (v : BitVec 64) (d : Dev) : intgStore b v d = none := by
  simp only [storeRows, List.mem_cons, List.not_mem_nil, or_false, not_or] at h
  obtain ⟨h1, h2, h3⟩ := h
  simp [intgStore, h1, h2, h3]

/-- A write of a register at its own address stores its new value, and what follows follows. -/
theorem registerWrite_eq {a v : Nat} {r : RegAt} {d : Dev} (hf : regFind a = some r) (ha : r.reg.addr = a)
    (hs : r.desc.base ∉ storeRows) (hi : regIgnores d r.desc.base r.i = false) :
    let new := regNew d r.desc (rd d r.reg) (BitVec.ofNat 64 (v % 2 ^ r.desc.width))
    registerWrite a v d = regAfter r (rd d r.reg) new (wr r.reg new d) := by
  intro new
  unfold registerWrite
  rw [hf]
  dsimp only
  rw [if_pos ha]
  unfold regStore
  rw [intgStore_other hs]
  dsimp only
  rw [if_neg (by rw [hi]; decide)]

section
variable {a v : Nat} {r : RegAt} {d : Dev}

/-- A written register holds in each field what the field stores. -/
theorem gf_registerWrite {f : FldDesc} (hfind : regFind a = some r) (ha : r.reg.addr = a) (hst : r.desc.base ∉ storeRows)
    (hfix : r.desc.base ∉ fixedRows) (hi : regIgnores d r.desc.base r.i = false) (hf : f ∈ r.desc.flds) :
    gf (registerWrite a v d) r.reg f.fld = fldStore d r.desc.base f (gf d r.reg f.fld)
      (v % 2 ^ r.desc.width / 2 ^ f.fld.lo % 2 ^ f.fld.len) % 2 ^ f.fld.len := by
  obtain ⟨hmem, hri, hrj⟩ := regFind_mem hfind
  have fits := regTable_fits _ hmem
  have hw : v % 2 ^ r.desc.width < 2 ^ 64 :=
    (Nat.mod_lt _ (Nat.two_pow_pos _)).trans_le (Nat.pow_le_pow_right (by decide) fits.1)
  have hq : (irqSrc r.desc.base r.i).isSome → ¬ raised r.reg.addr := fun h =>
    irqEn_not_raised _ hmem ((irqSrc_isSome _ _).symm.trans h) _ hri _ hrj
  rw [registerWrite_eq hfind ha hst hi]
  unfold gf
  rw [rd_regAfter _ _ _ _ _ hq, rd_wr_same, fldGet_regNew fits hfix hf, fldGet_ofNat _ _ hw]

/-- It touches no other register. -/
theorem Touches.registerWrite (hfind : regFind a = some r) (ha : r.reg.addr = a) (hst : r.desc.base ∉ storeRows)
    (hi : regIgnores d r.desc.base r.i = false) : Touches (fun b => b = a) d (registerWrite a v d) := by
  rw [registerWrite_eq hfind ha hst hi]
  exact ((Touches.refl d).wr _ _ (.inl ha)).regAfter _ _ _

end

/-! ### What a field stores (R9, R12) -/

section
variable {d : Dev} {b : Nat} {f : FldDesc} {old x : Nat}

theorem fldStore_keeps (h : f.acc = .ro ∨ f.acc = .rc) : fldStore d b f old x = old := by
  obtain h | h := h <;> simp [fldStore, h]

theorem fldStore_rw (ha : fldActs b f.fld = false) (h : f.acc = .rw) :
    fldStore d b f old x = if fldTakes b f.fld x then x else old := by
  simp [fldStore, ha, h]

theorem fldStore_rwl (ha : fldActs b f.fld = false) (h : f.acc = .rwl) :
    fldStore d b f old x = if regLocked d b = false ∧ fldTakes b f.fld x then x else old := by
  simp [fldStore, ha, h]

theorem fldStore_rw1c (ha : fldActs b f.fld = false) (h : f.acc = .rw1c) (hx : x < 2 ^ f.fld.len) {i : Nat} (hi : i < f.fld.len) :
    (fldStore d b f old x).testBit i = (old.testBit i && !x.testBit i) := by
  have he : fldStore d b f old x = old &&& (2 ^ f.fld.len - (x + 1)) := by
    simp [fldStore, ha, h, Nat.sub_sub, Nat.add_comm]
  rw [he, Nat.testBit_and, Nat.testBit_two_pow_sub_succ hx]
  simp [hi]

theorem fldStore_w1s (ha : fldActs b f.fld = false) (h : f.acc = .w1s) : fldStore d b f old x = old ||| x := by
  simp [fldStore, ha, h]

end

/-- Settles O11: the written register holds in each field what that field stores by its access code, and what follows the store touches
only the interrupt registers. -/
theorem registerWriteByAccessCode : Obligations.RegisterWriteByAccessCode := by
  intro s a v r f hs ha hv hfind hra hf hacts hign hbase
  have hrow : r.desc.base ∉ storeRows ++ fixedRows := hbase
  obtain ⟨hst, hfix⟩ := not_or.mp (mt List.mem_append.mpr hrow)
  refine completes_sys (f := registerWrite a v) rfl (Bool.and_eq_true_iff.mpr ⟨decide_eq_true ha, decide_eq_true hv⟩) hs ?_
  intro old x
  have hx : x < 2 ^ f.fld.len := Nat.mod_lt _ (Nat.two_pow_pos _)
  have hold : old < 2 ^ f.fld.len := fldGet_lt _ _
  have hnew : gf (registerWrite a v s.dev) r.reg f.fld = fldStore s.dev r.desc.base f old x % 2 ^ f.fld.len :=
    gf_registerWrite hfind hra hst hfix hign hf
  rw [hnew]
  refine ⟨fun h => ?_, fun h => ?_, fun h => ?_, fun h i hi => ?_, fun h i => ?_, Touches.registerWrite hfind hra hst hign⟩
  · rw [fldStore_keeps h, Nat.mod_eq_of_lt hold]
  · rw [fldStore_rw hacts h, Nat.mod_eq_of_lt (by split <;> assumption)]
  · rw [fldStore_rwl hacts h, Nat.mod_eq_of_lt (by split <;> assumption)]
  · rw [Nat.testBit_mod_two_pow, fldStore_rw1c hacts h hx hi]
    simp [hi]
  · rw [fldStore_w1s hacts h, Nat.mod_eq_of_lt (Nat.or_lt_two_pow hold hx), Nat.testBit_or]

end Sys2Proof.Machine
end

/-! ## Resets -/

section
/-! SUPPORT and settlement of O53: what a reset leaves whatever the device did before, which boot facts it keeps, and where the boot ends. -/

namespace Sys2Proof.Machine

/-! ### Tables filtered by their keys -/

theorem mget_filter_out {α : Type} (m : FMap α) {p : Nat → Bool} {a : Nat} (h : p a = false) :
    mget (m.filter (fun c => p c.1)) a = none := by
  induction m with
  | nil => rfl
  | cons c m ih =>
    obtain ⟨k, v⟩ := c
    cases hk : p k
    · simpa [hk] using ih
    · have hne : a ≠ k := by rintro rfl; simp [h] at hk
      simpa [hk, mget, hne] using ih

theorem mget_filter_in {α : Type} (m : FMap α) {p : Nat → Bool} {a : Nat} (h : p a = true) :
    mget (m.filter (fun c => p c.1)) a = mget m a := by
  induction m with
  | nil => rfl
  | cons c m ih =>
    obtain ⟨k, v⟩ := c
    cases hk : p k
    · have hne : a ≠ k := by rintro rfl; simp [h] at hk
      simpa [hk, mget, hne] using ih
    · by_cases ha : a = k <;> simp [hk, mget, ha, ih]

/-- A register whose address a filter leaves out reads its reset value. -/
theorem regGet_filter_out (m : FMap (BitVec 64)) {p : Nat → Bool} {q : Reg} (h : p q.addr = false) :
    regGet (m.filter (fun c => p c.1)) q = q.reset := by
  unfold regGet mgetD
  rw [mget_filter_out m h]
  rfl

theorem regGet_filter_in (m : FMap (BitVec 64)) {p : Nat → Bool} {q : Reg} (h : p q.addr = true) :
    regGet (m.filter (fun c => p c.1)) q = regGet m q := by
  unfold regGet mgetD
  rw [mget_filter_in m h]

theorem byteAt_filter_out (m : List Host.Cell) {p : Nat → Bool} {a : Nat} (h : p a = false) :
    byteAt (m.filter (fun c => p c.1)) a = memDefault a := by
  unfold byteAt mgetD
  rw [mget_filter_out m h]
  rfl

/-! ### The order of a reset (R205, R754, R757, R801) -/

/-- The array stops, and the writer programs its pages where the type of the reset lets it. -/
def resetStopped (type : Nat) (d : Dev) : Dev :=
  if 3 ≤ type then scoreSettle (arrayStop d) else d.arys.st.foldl (fun d s => aryAbort s.1 d) d

/-- Everything that the reset clears is cleared, once the array and CLK_REF have stopped. -/
def resetCleared (type : Nat) (d : Dev) : Dev := sysCleared (fuseCut (refStop (resetStopped type d)))

/-- The registers that a reset sets, once all else is cleared. -/
def resetSet (type : Nat) (d : Dev) : Dev :=
  d |> wr Reg.PMU_DOM_STAT 3 |> sf Reg.PMU_STAT F.PMU_STAT_BUSY 0 |> sf Reg.PMU_STAT F.PMU_STAT_PHASE 0
    |> sf Reg.PMU_STAT F.PMU_STAT_STATE 0 |> sf Reg.KEY_BOOT_STAT F.KEY_BOOT_STAT_CAUSE type

theorem pinForceAll_on (d : Dev) : pinForceAll true d = sf Reg.FIFO_PIN_STAT ⟨0, 8⟩ 0xFF { d with pinForce := true } := rfl

/-- The end of a reset: its registers, its type, and the pins. -/
def resetEnd (type : Nat) (c : Dev) : Dev :=
  pinForceAll true (setBoot { (resetSet type c).boot with inReset := true, cause := type } (resetSet type c))

theorem resetBegin_eq (type : Nat) (d : Dev) : resetBegin type d = resetEnd type (resetCleared type d) := rfl

theorem refStop_clkRef (d : Dev) : (refStop d).pmu.clkRef = false := by
  unfold refStop
  split
  · rfl
  · rename_i h
    exact Bool.eq_false_iff.mpr h

theorem refStop_boot (d : Dev) : (refStop d).boot = d.boot := by
  unfold refStop
  split <;> rfl

theorem fuseCut_frame (d : Dev) : (fuseCut d).pmu = d.pmu ∧ (fuseCut d).boot = d.boot := by
  unfold fuseCut
  split
  · split <;> exact ⟨rfl, rfl⟩
  · exact ⟨rfl, rfl⟩

/-- A register that PD_SYS resets is none of those it keeps. -/
theorem ne_aonReg {a b : Nat} (ha : aonReg a = false) (hb : aonReg b = true) : a ≠ b := by
  rintro rfl
  rw [ha] at hb
  cases hb

section
variable {d : Dev} {q : Reg} {type : Nat}

theorem rd_sysCleared (h : aonReg q.addr = false) : rd (sysCleared d) q = q.reset := regGet_filter_out d.regs h

theorem byteAt_sysCleared {a : Nat} (h : nonVolatile a = false) : byteAt (sysCleared d).mem a = memDefault a :=
  byteAt_filter_out d.mem h

theorem rd_resetSet (h : aonReg q.addr = false) (hk : q.addr ≠ Reg.KEY_BOOT_STAT.addr) : rd (resetSet type d) q = rd d q := by
  have hd : q.addr ≠ Reg.PMU_DOM_STAT.addr := ne_aonReg h (by decide)
  have hs : q.addr ≠ Reg.PMU_STAT.addr := ne_aonReg h (by decide)
  unfold resetSet
  rw [rd_sf_ne _ _ _ hk, rd_sf_ne _ _ _ hs, rd_sf_ne _ _ _ hs, rd_sf_ne _ _ _ hs, rd_wr_ne _ _ hd]

theorem resetSet_cause (h : type < 8) : gf (resetSet type d) Reg.KEY_BOOT_STAT F.KEY_BOOT_STAT_CAUSE = type := by
  unfold resetSet
  rw [gf_sf_same _ _ _ _ (by decide)]
  exact Nat.mod_eq_of_lt h

theorem resetSet_state : pmuState (resetSet type d) = 0 := by
  unfold pmuState resetSet
  rw [gf_sf_ne _ _ _ _ (by decide), gf_sf_same _ _ _ _ (by decide)]
  rfl

theorem resetSet_busy : pmuBusy (resetSet type d) = false := by
  unfold pmuBusy gb resetSet
  rw [gf_sf_ne _ _ _ _ (by decide), gf_sf_disj _ _ _ _ _ (by decide) (by decide), gf_sf_disj _ _ _ _ _ (by decide) (by decide),
    gf_sf_same _ _ _ _ (by decide)]
  rfl

end

theorem resetSet_frame (type : Nat) (d : Dev) :
    (resetSet type d).mem = d.mem ∧ (resetSet type d).pmu = d.pmu ∧ (resetSet type d).boot = d.boot := by
  simp only [resetSet, sf_mem, wr_mem, sf_pmu, wr_pmu, sf_boot, wr_boot, and_self]

/-- Forcing the pins writes their register alone. -/
theorem rd_pinForceAll_on {d : Dev} {q : Reg} (h : q.addr ≠ Reg.FIFO_PIN_STAT.addr) : rd (pinForceAll true d) q = rd d q :=
  rd_sf_ne _ _ _ h

theorem gf_pinForceAll_on {d : Dev} {q : Reg} (f : Fld) (h : q.addr ≠ Reg.FIFO_PIN_STAT.addr) :
    gf (pinForceAll true d) q f = gf d q f := gf_sf_ne _ _ _ _ h

theorem pinForceAll_pins (d : Dev) : gf (pinForceAll true d) Reg.FIFO_PIN_STAT ⟨0, 8⟩ = 0xFF := by
  rw [pinForceAll_on, gf_sf_same _ _ _ _ (by decide)]
  rfl

theorem pinForceAll_frame (d : Dev) :
    (pinForceAll true d).mem = d.mem ∧ (pinForceAll true d).pmu = d.pmu ∧ (pinForceAll true d).boot = d.boot := by
  simp only [pinForceAll_on, sf_mem, sf_pmu, sf_boot, and_self]

theorem rd_setBoot (b : Boot) (d : Dev) (q : Reg) : rd (setBoot b d) q = rd d q := rfl

/-- What `HeldInReset` says, but for the pins. -/
structure HeldUnpinned (type : Nat) (e : Dev) : Prop where
  inReset : e.boot.inReset = true
  cause : e.boot.cause = type
  stat : gf e Reg.KEY_BOOT_STAT F.KEY_BOOT_STAT_CAUSE = type
  clkRef : e.pmu.clkRef = false
  state : pmuState e = 0
  busy : pmuBusy e = false
  regs : ∀ q : Reg, aonReg q.addr = false → q.addr ≠ Reg.KEY_BOOT_STAT.addr → q.addr ≠ Reg.FIFO_PIN_STAT.addr → rd e q = q.reset
  mem : ∀ a, nonVolatile a = false → byteAt e.mem a = memDefault a

/-- Forcing the pins completes the hold. -/
theorem HeldUnpinned.pinForceAll {type : Nat} {e : Dev} (h : HeldUnpinned type e) : HeldInReset type (pinForceAll true e) := by
  obtain ⟨hmem, hpmu, hboot⟩ := pinForceAll_frame e
  unfold HeldInReset pmuState pmuBusy gb
  rw [hboot, hpmu, hmem, gf_pinForceAll_on _ (by decide), gf_pinForceAll_on _ (by decide), gf_pinForceAll_on _ (by decide)]
  exact ⟨h.inReset, h.cause, h.stat, h.clkRef, h.state, h.busy, pinForceAll_pins _,
    fun q ha hk hp => (rd_pinForceAll_on hp).trans (h.regs q ha hk hp), h.mem⟩

/-- A device whose registers and memory are cleared and whose CLK_REF has stopped ends up held in the reset. -/
theorem resetEnd_held {type : Nat} {c : Dev} (h : type < 8) (hr : ∀ q : Reg, aonReg q.addr = false → rd c q = q.reset)
    (hm : ∀ a, nonVolatile a = false → byteAt c.mem a = memDefault a) (hc : c.pmu.clkRef = false) :
    HeldInReset type (resetEnd type c) := by
  obtain ⟨hmem, hpmu, -⟩ := resetSet_frame type c
  have hcause := resetSet_cause (d := c) h
  have hstate := resetSet_state (d := c) (type := type)
  have hbusy := resetSet_busy (d := c) (type := type)
  have hregs := fun q ha hk => (rd_resetSet (d := c) (q := q) (type := type) ha hk).trans (hr q ha)
  rw [← hmem] at hm
  rw [← hpmu] at hc
  unfold resetEnd
  generalize resetSet type c = e at *
  exact HeldUnpinned.pinForceAll ⟨rfl, rfl, hcause, hc, hstate, hbusy, fun q ha hk _ => hregs q ha hk, hm⟩

theorem resetCleared_clkRef (type : Nat) (d : Dev) : (resetCleared type d).pmu.clkRef = false := by
  show (fuseCut (refStop (resetStopped type d))).pmu.clkRef = false
  rw [(fuseCut_frame _).1, refStop_clkRef]

/-- Whatever the device did, a reset of a type leaves PD_SYS held in a reset of that type. -/
theorem resetBegin_held (type : Nat) (d : Dev) (h : type < 8) : HeldInReset type (resetBegin type d) := by
  rw [resetBegin_eq]
  exact resetEnd_held h (fun _ => rd_sysCleared) (fun _ => byteAt_sysCleared) (resetCleared_clkRef type d)

/-! ### What a reset keeps of the supply, the trip and the boundary scan -/

section
variable {rr : Reg} {vv : BitVec 64} {kk : Kept} {pp : Nat → Bool} {d : Dev}

theorem scorePageDone_h (hd : Holds rr vv kk pp d) : Holds rr vv kk pp (scorePageDone d) := by
  unfold scorePageDone
  split
  · exact hd
  · exact scoreFill_h _ _ (ite_h (scoreProgram_h _ _ (mk_h (rawReplace_h _ _ _ hd))) (mk_h (rawReplace_h _ _ _ hd)))

theorem scoreSettle_h (hd : Holds rr vv kk pp d) : Holds rr vv kk pp (scoreSettle d) := by
  have programmed : ∀ {e : Dev}, Holds rr vv kk pp e →
      Holds rr vv kk pp (match e.score.prog with | some _ => scorePageDone e | none => e) := by
    intro e he
    split
    · exact scorePageDone_h he
    · exact he
  exact programmed (scoreProgram_h _ _ (programmed hd))

theorem aryAborts_h (l : FMap Ary) (hd : Holds rr vv kk pp d) : Holds rr vv kk pp (l.foldl (fun d s => aryAbort s.1 d) d) :=
  foldl_h _ _ _ (fun e s he => aryAbort_h s.1 e he) hd

theorem arrayStop_h (hd : Holds rr vv kk pp d) : Holds rr vv kk pp (arrayStop d) :=
  foldl_h _ _ _ (fun e _ he => scoreQueue_h _ e he) (aryAborts_h _ hd)

theorem resetStopped_h (type : Nat) (hd : Holds rr vv kk pp d) : Holds rr vv kk pp (resetStopped type d) :=
  ite_h (scoreSettle_h (arrayStop_h hd)) (aryAborts_h _ hd)

end

/-- The supply's failure, the trip and the boundary scan, which hold a reset. -/
def holds (b : Boot) : Bool × Bool × Bool := (b.supplyOff, b.thermal, b.jtag)

theorem resetStopped_holds (type : Nat) (d : Dev) : holds (resetStopped type d).boot = holds d.boot := by
  obtain ⟨_, _, hk, _⟩ := resetStopped_h type (holds_self quiet quiet_free d)
  simp only [Dev.kept, Prod.mk.injEq] at hk
  obtain ⟨_, _, _, _, _, _, _, _, _, _, _, _, hb, _⟩ := hk
  have hf := congrArg holds hb
  exact hf

theorem resetCleared_holds (type : Nat) (d : Dev) : holds (resetCleared type d).boot = holds d.boot := by
  have kept : ∀ e : Dev, holds (sysCleared e).boot = holds e.boot := fun _ => rfl
  rw [resetCleared, kept, (fuseCut_frame _).2, refStop_boot, resetStopped_holds]

/-- A reset keeps what holds it. -/
theorem resetBegin_holds (type : Nat) (d : Dev) : holds (resetBegin type d).boot = holds d.boot := by
  have kept : ∀ e : Dev, holds (setBoot { e.boot with inReset := true, cause := type } e).boot = holds e.boot := fun _ => rfl
  rw [resetBegin_eq, resetEnd, (pinForceAll_frame _).2.2, kept, (resetSet_frame _ _).2.2, resetCleared_holds]

theorem resetBegin_supplyOff (type : Nat) (d : Dev) : (resetBegin type d).boot.supplyOff = d.boot.supplyOff :=
  congrArg Prod.fst (resetBegin_holds type d)

theorem resetBegin_thermal (type : Nat) (d : Dev) : (resetBegin type d).boot.thermal = d.boot.thermal :=
  congrArg (fun h => h.2.1) (resetBegin_holds type d)

theorem resetBegin_jtag (type : Nat) (d : Dev) : (resetBegin type d).boot.jtag = d.boot.jtag :=
  congrArg (fun h => h.2.2) (resetBegin_holds type d)

/-! ### Each reset event -/

/-- A change of what holds the reset is no change of the hold itself. -/
theorem HeldInReset.setHolds {type : Nat} {e : Dev} (h : HeldInReset type e) (supplyOff thermal jtag : Bool) :
    HeldInReset type (setBoot { e.boot with supplyOff := supplyOff, thermal := thermal, jtag := jtag } e) := h

theorem HeldInReset.emit {type : Nat} {e : Dev} (h : HeldInReset type e) (o : Out) : HeldInReset type (emit o e) := h

/-- Turning domains off leaves PD_SYS held in reset. -/
theorem HeldInReset.wrDom {type : Nat} {e : Dev} (h : HeldInReset type e) (v : BitVec 64) :
    HeldInReset type (wr Reg.PMU_DOM_STAT v e) := by
  unfold HeldInReset pmuState pmuBusy gb at h ⊢
  obtain ⟨hin, hcause, hk, hc, hs, hb, hp, hr, hm⟩ := h
  rw [wr_boot, wr_pmu, wr_mem, gf_wr_ne _ _ _ (by decide), gf_wr_ne _ _ _ (by decide), gf_wr_ne _ _ _ (by decide),
    gf_wr_ne _ _ _ (by decide)]
  exact ⟨hin, hcause, hk, hc, hs, hb, hp, fun q ha hk hp => by rw [rd_wr_ne _ _ (ne_aonReg ha (by decide)), hr q ha hk hp], hm⟩

/-- The registers, the writer and the counters of PD_AON as its supply leaves them (R741, R746): the fuses' register stays. -/
def aonCleared (e : Dev) : Dev :=
  { e with regs := e.regs.filter (fun r => r.1 == Reg.KEY_SLOT_STAT.addr), pmu := { clkRef := false }, score := {},
           arb := { e.arb with savedAt := 0 }, boot := { e.boot with supplyOff := false, thermal := false } }

/-- The two registers of PD_AON that power-on sets. -/
def aonSet (e : Dev) : Dev :=
  e |> sf Reg.KEY_BOOT_STAT F.KEY_BOOT_STAT_CAUSE 0 |> sf Reg.ARB_SCORE_STAT F.ARB_SCORE_STAT_SCANNING 1

theorem powerOn_eq (d : Dev) : powerOn d = pinForceAll true (aonSet (aonCleared (resetBegin 0 d))) := rfl

theorem rd_aonCleared {e : Dev} {q : Reg} (h : q.addr ≠ Reg.KEY_SLOT_STAT.addr) : rd (aonCleared e) q = q.reset :=
  regGet_filter_out (p := fun a => a == Reg.KEY_SLOT_STAT.addr) e.regs (by simpa using h)

theorem rd_aonSet {e : Dev} {q : Reg} (hk : q.addr ≠ Reg.KEY_BOOT_STAT.addr) (hs : q.addr ≠ Reg.ARB_SCORE_STAT.addr) :
    rd (aonSet e) q = rd e q := by
  unfold aonSet
  rw [rd_sf_ne _ _ _ hs, rd_sf_ne _ _ _ hk]

theorem aonSet_frame (e : Dev) : (aonSet e).mem = e.mem ∧ (aonSet e).pmu = e.pmu ∧ (aonSet e).boot = e.boot := by
  simp only [aonSet, sf_mem, sf_pmu, sf_boot, and_self]

/-- A device held in a reset of type 0 is still held once the registers of PD_AON are gone too. -/
theorem aonCleared_held {e : Dev} (h : HeldInReset 0 e) : HeldUnpinned 0 (aonSet (aonCleared e)) := by
  obtain ⟨hin, hcause, -, -, -, -, -, -, hm⟩ := h
  obtain ⟨hmem, hpmu, hboot⟩ := aonSet_frame (aonCleared e)
  have hstat : rd (aonSet (aonCleared e)) Reg.PMU_STAT = 0 :=
    (rd_aonSet (by decide) (by decide)).trans (rd_aonCleared (by decide))
  constructor
  case inReset => rw [hboot]; exact hin
  case cause => rw [hboot]; exact hcause
  case stat =>
    unfold aonSet
    rw [gf_sf_ne _ _ _ _ (by decide), gf_sf_same _ _ _ _ (by decide)]
    rfl
  case clkRef => rw [hpmu]; rfl
  case state =>
    unfold pmuState gf
    rw [hstat]
    decide
  case busy =>
    unfold pmuBusy gb gf
    rw [hstat]
    decide
  case regs =>
    intro q ha hk _
    rw [rd_aonSet hk (ne_aonReg ha (by decide)), rd_aonCleared (ne_aonReg ha (by decide))]
  case mem => rw [hmem]; exact hm

/-- Power-on leaves no register stored but the fuses' and those that it sets. -/
theorem powerOn_held (d : Dev) : HeldInReset 0 (powerOn d) ∧
    gb (powerOn d) Reg.ARB_SCORE_STAT F.ARB_SCORE_STAT_SCANNING = true ∧
    ∀ q : Reg, q.addr ∉ [Reg.KEY_SLOT_STAT.addr, Reg.KEY_BOOT_STAT.addr, Reg.ARB_SCORE_STAT.addr, Reg.FIFO_PIN_STAT.addr] →
      rd (powerOn d) q = q.reset := by
  rw [powerOn_eq]
  refine ⟨(aonCleared_held (resetBegin_held 0 d (by decide))).pinForceAll, ?_, fun q hq => ?_⟩
  · unfold gb aonSet
    rw [gf_pinForceAll_on _ (by decide), gf_sf_same _ _ _ _ (by decide)]
    rfl
  · simp only [List.mem_cons, List.not_mem_nil, or_false, not_or] at hq
    obtain ⟨hf, hk, hs, hp⟩ := hq
    rw [rd_pinForceAll_on hp, rd_aonSet hk hs, rd_aonCleared hf]

/-- The supply's return starts a reset with the supply on (R745). -/
theorem supplyReset_held {d : Dev} (ho : d.boot.supplyOff = true) (ht : d.boot.thermal = false) :
    HeldInReset 1 (supplyReset d) ∧ (supplyReset d).boot.supplyOff = false := by
  unfold supplyReset
  rw [if_pos (by simp [ho, ht]), resetBegin_supplyOff]
  exact ⟨resetBegin_held 1 _ (by decide), rfl⟩

theorem pinReset_held {d : Dev} (cool : Bool) (ht : d.boot.thermal = false) : HeldInReset 3 (pinReset cool d) := by
  unfold pinReset
  rw [if_neg (by simp [ht])]
  exact resetBegin_held 3 _ (by decide)

/-- A cool pin reset ends a trip (R812). -/
theorem pinReset_cool {d : Dev} (ht : d.boot.thermal = true) :
    HeldInReset 3 (pinReset true d) ∧ (pinReset true d).boot.thermal = false ∧ (pinReset true d).boot.supplyOff = false := by
  unfold pinReset
  rw [if_pos ht, if_pos rfl]
  refine ⟨(resetBegin_held 3 _ (by decide)).emit _, ?_, ?_⟩
  · rw [emit_boot, resetBegin_thermal]
    rfl
  · rw [emit_boot, resetBegin_supplyOff]
    rfl

/-- What the array and the writer keep when the supply is lost (R580): with VHOLD in range the procedure runs, else what is open is lost. -/
def supplyStopped (vhold : Bool) (d : Dev) : Dev :=
  if vhold && !d.boot.supplyOff then powerFail d
  else
    let d := d.arys.st.foldl (fun d s => aryAbort s.1 d) d
    { d with score := { d.score with queue := [], page := [], prog := none, closed := true } }

/-- The main supply is off, and only PD_AON's own domain is on. -/
def unpowered (e : Dev) : Dev := setBoot { e.boot with supplyOff := true } (wr Reg.PMU_DOM_STAT 1 e)

theorem supplyLost_eq (vhold : Bool) (d : Dev) : supplyLost vhold d = unpowered (resetBegin 1 (supplyStopped vhold d)) := rfl

/-- The device after a trip (R812). -/
def tripped (e : Dev) : Dev := setBoot { e.boot with thermal := true } e

theorem thermalTrip_eq (vhold : Bool) (d : Dev) :
    thermalTrip vhold d = tripped (supplyLost vhold (emit (.pin "THERMTRIP_N" false) d)) := rfl

theorem HeldInReset.unpowered {type : Nat} {e : Dev} (h : HeldInReset type e) : HeldInReset type (unpowered e) :=
  (h.wrDom 1).setHolds true e.boot.thermal e.boot.jtag

theorem HeldInReset.tripped {type : Nat} {e : Dev} (h : HeldInReset type e) : HeldInReset type (tripped e) :=
  h.setHolds e.boot.supplyOff true e.boot.jtag

theorem rd_unpowered (e : Dev) : rd (unpowered e) Reg.PMU_DOM_STAT = 1 := by
  rw [unpowered, rd_setBoot, rd_wr_same]

/-- A trip leaves the supply off and PD_AON's own domain bit alone. -/
theorem thermalTrip_held (vhold : Bool) (d : Dev) : HeldInReset 1 (thermalTrip vhold d) ∧ (thermalTrip vhold d).boot.thermal = true ∧
    (thermalTrip vhold d).boot.supplyOff = true ∧ rd (thermalTrip vhold d) Reg.PMU_DOM_STAT = 1 := by
  rw [thermalTrip_eq, supplyLost_eq]
  exact ⟨(resetBegin_held 1 _ (by decide)).unpowered.tripped, rfl, rfl, rd_unpowered _⟩

theorem jtagExtest_on_held (d : Dev) : HeldInReset 3 (jtagExtest true d) ∧ (jtagExtest true d).boot.jtag = true := by
  have h := resetBegin_held 3 d (by decide)
  unfold jtagExtest
  rw [if_pos rfl]
  generalize resetBegin 3 d = g at h
  exact ⟨h.setHolds g.boot.supplyOff g.boot.thermal true, rfl⟩

theorem jtagExtest_off_held {d : Dev} (hj : d.boot.jtag = true) :
    HeldInReset 3 (jtagExtest false d) ∧ (jtagExtest false d).boot.jtag = false := by
  unfold jtagExtest
  rw [if_neg (by decide), if_pos hj, resetBegin_jtag]
  exact ⟨resetBegin_held 3 _ (by decide), rfl⟩

/-- Cause bit `i` of a block is set once the cause has come (R794). -/
theorem blkCause_bit (stat en : Reg) (i src : Nat) (d : Dev) (hi : i < 64) (hr : ¬ raised stat.addr) :
    (rd (blkCause stat en i src d) stat).getLsbD i = true := by
  have hset : (rd (sf stat ⟨i, 1⟩ 1 d) stat).getLsbD i = true := by
    unfold sf
    rw [rd_wr_same, fldPut_bit _ _ _ (by dsimp only; omega)]
    simp
  have ht : Touches (fun _ => False) (sf stat ⟨i, 1⟩ 1 d) (blkCause stat en i src d) :=
    (Touches.refl _).whenB _ _ ((Touches.refl _).raise _)
  rw [ht.rd_eq stat (fun h => h) hr, hset]

/-- A reset of the PCIe block returns its registers to their reset values and leaves every other (R755). -/
theorem rd_pcieReset_out {d : Dev} {q : Reg} (h : ¬ (Reg.PCIE_CTL.addr ≤ q.addr ∧ q.addr < Reg.PCIE_CTL.addr + 0x10000)) :
    rd (pcieReset d) q = rd d q := by
  unfold pcieReset
  dsimp only
  rw [rd_sf_ne _ _ _ (fun he => h (by rw [he]; decide))]
  exact regGet_filter_in (p := fun a => decide (a < Reg.PCIE_CTL.addr) || decide (Reg.PCIE_CTL.addr + 0x10000 ≤ a)) _
    (by simp only [Bool.or_eq_true, decide_eq_true_eq]; omega)

theorem rd_pcieReset_in {d : Dev} {q : Reg} (h : Reg.PCIE_CTL.addr ≤ q.addr ∧ q.addr < Reg.PCIE_CTL.addr + 0x10000)
    (hc : q.addr ≠ Reg.PCIE_CTL.addr) : rd (pcieReset d) q = q.reset := by
  unfold pcieReset
  dsimp only
  rw [rd_sf_ne _ _ _ hc]
  exact regGet_filter_out (p := fun a => decide (a < Reg.PCIE_CTL.addr) || decide (Reg.PCIE_CTL.addr + 0x10000 ≤ a)) _
    (by simp only [Bool.or_eq_false_iff, decide_eq_false_iff_not]; omega)

/-! ### Where the boot ends (R763, R764) -/

/-- The boot has ended with its sequence: ready but for DRAM training, with the loader started, or waiting for a recovery. -/
def Booted (d : Dev) : Prop :=
  (gf d Reg.KEY_BOOT_STAT F.KEY_BOOT_STAT_PHASE = 2 ∨ gf d Reg.KEY_BOOT_STAT F.KEY_BOOT_STAT_PHASE = 3 ∨
    gf d Reg.KEY_BOOT_STAT F.KEY_BOOT_STAT_PHASE = 4) ∧
  (gf d Reg.KEY_BOOT_STAT F.KEY_BOOT_STAT_PHASE = 3 → rd d Reg.CPU_HOLD = 0 ∧ gf d Reg.CPU_STAT F.CPU_STAT_RUN = 255)

theorem gf_phase (n : Nat) (d : Dev) (h : n < 8) :
    gf (sf Reg.KEY_BOOT_STAT F.KEY_BOOT_STAT_PHASE n d) Reg.KEY_BOOT_STAT F.KEY_BOOT_STAT_PHASE = n := by
  rw [gf_sf_same _ _ _ _ (by decide)]
  exact Nat.mod_eq_of_lt h

theorem booted_recovery (d : Dev) : Booted (sf Reg.KEY_BOOT_STAT F.KEY_BOOT_STAT_PHASE 4 d) := by
  have h := gf_phase 4 d (by decide)
  exact ⟨.inr (.inr h), fun h3 => by rw [h] at h3; cases h3⟩

theorem booted_coresRelease {d : Dev} (h : gf d Reg.KEY_BOOT_STAT F.KEY_BOOT_STAT_PHASE = 2) : Booted (coresRelease d) := by
  unfold coresRelease
  split
  · refine ⟨.inr (.inl (gf_phase 3 _ (by decide))), fun _ => ⟨?_, ?_⟩⟩
    · rw [rd_sf_ne _ _ _ (by decide), rd_sf_ne _ _ _ (by decide), rd_wr_same]
    · rw [gf_sf_ne _ _ _ _ (by decide), gf_sf_same _ _ _ _ (by decide)]
      rfl
  · exact ⟨.inl h, fun h3 => by rw [h] at h3; cases h3⟩

theorem booted_loaderRun (b : List Byte) (d : Dev) : Booted (loaderRun b d) := booted_coresRelease (gf_phase 2 _ (by decide))

theorem booted_firmwareRun (b : List Byte) (d : Dev) : Booted (firmwareRun b d) := by
  unfold firmwareRun
  extract_lets
  split
  · exact booted_loaderRun _ _
  · exact booted_recovery _

theorem booted_bootRun (d : Dev) : Booted (bootRun d) := by
  unfold bootRun
  extract_lets
  split
  · exact booted_firmwareRun _ _
  · extract_lets
    split
    · exact booted_firmwareRun _ _
    · exact booted_recovery _

/-! ### Releasing a reset (R803, R807) -/

section
variable {strap : Straps} {d : Dev}

theorem resetRelease_held (h : d.boot.inReset = false ∨ d.boot.supplyOff = true ∨ d.boot.thermal = true ∨ d.boot.jtag = true) :
    resetRelease strap d = d := by
  unfold resetRelease
  rw [if_pos]
  obtain h | h | h | h := h <;> simp [h]

theorem exec_resetRelease (strap : Straps) (s : State) :
    exec (.resetRelease strap) s = .next { s with dev := resetRelease strap s.dev } := rfl

/-- Nothing holds the reset any longer. -/
def Releasable (d : Dev) : Prop :=
  d.boot.inReset = true ∧ d.boot.supplyOff = false ∧ d.boot.thermal = false ∧ d.boot.jtag = false

theorem resetRelease_test (h : Releasable d) (ht : strap.test = true) :
    resetRelease strap d = setBoot { d.boot with testMode := true } d := by
  obtain ⟨hr, hs, hh, hj⟩ := h
  unfold resetRelease
  rw [if_neg (by simp [hr, hs, hh, hj]), if_pos ht]

theorem resetRelease_booted (h : Releasable d) (ht : strap.test = false) : Booted (resetRelease strap d) := by
  obtain ⟨hr, hs, hh, hj⟩ := h
  unfold resetRelease
  rw [if_neg (by simp [hr, hs, hh, hj]), if_neg (by simp [ht])]
  exact booted_bootRun _

end

/-- Settles O53, event by event: what each reset leaves does not depend on what the device did before. -/
theorem resetsHoldTheDevice : Obligations.ResetsHoldTheDevice := by
  intro s
  refine ⟨?_, fun ho ht => ?_, fun cool ht => ?_, fun ht => ?_, fun code hlt hne hs => ?_, fun hs => ?_, fun he => ?_, fun he hk => ?_,
    fun he hk hd => ?_, fun vhold => ?_, ?_, fun hj => ?_, fun strap h => ?_, fun strap ht hr hs hh hj => ?_,
    fun strap ht hr hs hh hj => ?_⟩
  · exact completes_lift (f := powerOn) rfl rfl (powerOn_held _)
  · exact completes_lift (f := supplyReset) rfl rfl (supplyReset_held ho ht)
  · exact completes_lift (f := pinReset cool) rfl rfl (pinReset_held cool ht)
  · exact completes_lift (f := pinReset true) rfl rfl (pinReset_cool ht)
  · refine completes_sys (f := softReset code) rfl (decide_eq_true hlt) hs ?_
    unfold softReset
    rw [if_neg hne]
    refine ⟨?_, (Touches.refl _).sf _ _ _ (.inl rfl)⟩
    unfold gb
    rw [gf_sf_same _ _ _ _ (by decide)]
    rfl
  · refine completes_sys (f := softReset 0xB007) rfl rfl hs ?_
    unfold softReset
    rw [if_pos rfl]
    exact ⟨resetBegin 4 s.dev, resetBegin_held 4 _ (by decide), exec_resetRelease _ _⟩
  · refine completes_lift (f := perstFall) rfl rfl ?_
    unfold perstFall
    rw [if_pos (by simp [he])]
  · refine completes_lift (f := perstFall) rfl rfl ?_
    unfold perstFall
    rw [if_neg (by simp [he]), if_pos hk, he]
    exact ⟨resetBegin 5 s.dev, resetBegin_held 5 _ (by decide), exec_resetRelease _ _⟩
  · refine completes_lift (f := perstFall) rfl rfl ?_
    unfold perstFall
    rw [if_neg (by simp [he]), if_neg (by simp [hk]), if_pos hd]
    have hcause : Touches (fun a => a = Reg.PCIE_IRQ_STAT.addr) (pcieReset s.dev) (pcieCause 2 (pcieReset s.dev)) :=
      (Touches.refl _).blkCause _ _ _ _ (.inl rfl)
    have hreset : Touches (fun a => Reg.PCIE_CTL.addr ≤ a ∧ a < Reg.PCIE_CTL.addr + 0x10000) s.dev (pcieReset s.dev) :=
      ⟨fun q hq _ => rd_pcieReset_out hq, rfl, rfl, rfl⟩
    refine ⟨blkCause_bit _ _ _ _ _ (by decide) (by unfold raised; decide), ?_, hreset.trans (hcause.mono ?_)⟩
    · rw [hcause.rd_eq _ (by decide) (by unfold raised; decide)]
      exact rd_pcieReset_in (by decide) (by decide)
    · rintro a rfl
      decide
  · exact completes_lift (f := thermalTrip vhold) rfl rfl (thermalTrip_held vhold _)
  · exact completes_lift (f := jtagExtest true) rfl rfl (jtagExtest_on_held _)
  · exact completes_lift (f := jtagExtest false) rfl rfl (jtagExtest_off_held hj)
  · exact completes_lift (f := resetRelease strap) rfl rfl (resetRelease_held h)
  · refine completes_lift (f := resetRelease strap) rfl rfl ?_
    rw [resetRelease_test ⟨hr, hs, hh, hj⟩ ht]
    exact ⟨rfl, (Touches.refl s.dev).mk⟩
  · exact completes_lift (f := resetRelease strap) rfl rfl (resetRelease_booted ⟨hr, hs, hh, hj⟩ ht)

end Sys2Proof.Machine
end

/-! ## What interrupts, bus errors and stores leave alone -/

section
/-! SUPPORT. Raising an interrupt, counting and logging change no table but those of interrupts, rings and power; a store to clean
memory changes nothing but memory, its marks and its symbol errors. -/

namespace Sys2Proof.Machine

/-! ### Interrupts, counters and logs -/

/-- Only registers, what has left the device, and the tables of the IC, the PMU and the rings have changed. -/
def IrqOnly (d e : Dev) : Prop :=
  ∃ regs out ic pmu rings, e = { d with regs := regs, out := out, ic := ic, pmu := pmu, rings := rings }

section
variable {d e : Dev}

theorem IrqOnly.refl (d : Dev) : IrqOnly d d := ⟨_, _, _, _, _, rfl⟩

theorem IrqOnly.trans {f : Dev} : IrqOnly d e → IrqOnly e f → IrqOnly d f := by
  rintro ⟨_, _, _, _, _, rfl⟩ ⟨r, o, i, p, g, rfl⟩
  exact ⟨r, o, i, p, g, rfl⟩

theorem IrqOnly.links (h : IrqOnly d e) : e.links = d.links := by obtain ⟨_, _, _, _, _, rfl⟩ := h; rfl

theorem IrqOnly.boot (h : IrqOnly d e) : e.boot = d.boot := by obtain ⟨_, _, _, _, _, rfl⟩ := h; rfl

theorem IrqOnly.tm (h : IrqOnly d e) : e.tm = d.tm := by obtain ⟨_, _, _, _, _, rfl⟩ := h; rfl

theorem IrqOnly.slots (h : IrqOnly d e) : e.slots = d.slots := by obtain ⟨_, _, _, _, _, rfl⟩ := h; rfl

theorem IrqOnly.periph (h : IrqOnly d e) : e.periph = d.periph := by obtain ⟨_, _, _, _, _, rfl⟩ := h; rfl

theorem IrqOnly.mem (h : IrqOnly d e) : e.mem = d.mem := by obtain ⟨_, _, _, _, _, rfl⟩ := h; rfl

theorem IrqOnly.wr (h : IrqOnly d e) (r : Reg) (v : BitVec 64) : IrqOnly d (wr r v e) := h.trans ⟨_, _, _, _, _, rfl⟩

theorem IrqOnly.sf (h : IrqOnly d e) (r : Reg) (f : Fld) (x : Nat) : IrqOnly d (sf r f x e) := h.wr _ _

theorem IrqOnly.emit (h : IrqOnly d e) (o : Out) : IrqOnly d (emit o e) := h.trans ⟨_, _, _, _, _, rfl⟩

theorem IrqOnly.ite {c : Prop} [Decidable c] {f : Dev} (h : IrqOnly d e) (k : IrqOnly d f) : IrqOnly d (if c then e else f) := by
  split
  · exact h
  · exact k

theorem IrqOnly.forN {f : Nat → Dev → Dev} (hf : ∀ x e, IrqOnly d e → IrqOnly d (f x e)) (n : Nat) (h : IrqOnly d e) :
    IrqOnly d (forN n f e) := by
  unfold Machine.forN Machine.forEach
  induction List.range n generalizing e with
  | nil => exact h
  | cons x l ih => exact ih (hf x e h)

theorem IrqOnly.icPresent (h : IrqOnly d e) : IrqOnly d (icPresent e) := by
  unfold Machine.icPresent
  exact IrqOnly.ite (h.trans ⟨_, _, _, _, _, rfl⟩) h

theorem IrqOnly.raisePend (h : IrqOnly d e) (n : Nat) : IrqOnly d (raisePend n e) := by
  unfold Machine.raisePend
  exact IrqOnly.ite h (IrqOnly.ite ((h.sf _ _ _).icPresent.emit _) (h.sf _ _ _).icPresent)

theorem IrqOnly.pmuCancel (h : IrqOnly d e) (last agent : Nat) : IrqOnly d (pmuCancel last agent e) := by
  have engines := h.forN (f := fun k d => if d.pmu.drained.testBit k && gf d (Reg.ENG_STAT k) F.ENG_STAT_STATE == 4 &&
      gb d (Reg.ENG_CTL k) F.ENG_CTL_EN then Machine.sf (Reg.ENG_STAT k) F.ENG_STAT_STATE (if d.img.running then 2 else 1) d else d)
    (fun _ _ k => IrqOnly.ite (k.sf _ _ _) k) 16
  refine IrqOnly.sf (IrqOnly.sf (IrqOnly.sf (IrqOnly.sf (IrqOnly.trans ?_ ⟨_, _, _, _, _, rfl⟩) _ _ _) _ _ _) _ _ _) _ _ _
  exact IrqOnly.ite engines ((engines.sf _ _ _).sf _ _ _)

theorem IrqOnly.raise (h : IrqOnly d e) (n : Nat) : IrqOnly d (raise n e) := by
  unfold Machine.raise pmuWakeBit
  refine IrqOnly.ite (IrqOnly.ite (IrqOnly.ite ?_ ?_) ?_) (h.raisePend n)
  · exact (((((h.raisePend n).sf _ _ _).pmuCancel _ _).sf _ _ _).sf _ _ _).raisePend _
  · exact (h.raisePend n).sf _ _ _
  · exact h.raisePend n

theorem IrqOnly.cntAdd (h : IrqOnly d e) (r : Reg) (fc fo : Fld) (n src : Nat) : IrqOnly d (cntAdd r fc fo n src e) := by
  unfold Machine.cntAdd
  exact IrqOnly.ite (((h.sf _ _ _).sf _ _ _).raise _) (h.sf _ _ _)

theorem IrqOnly.busError (h : IrqOnly d e) (cause master : Nat) (write : Bool) (fa : Nat) :
    IrqOnly d (busError cause master write fa e) := by
  unfold Machine.busError logOnce
  exact IrqOnly.ite ((h.cntAdd _ _ _ _ _).sf _ _ _)
    ((((((h.cntAdd _ _ _ _ _).sf _ _ _).sf _ _ _).sf _ _ _).sf _ _ _).sf _ _ _)

theorem IrqOnly.busFail (h : IrqOnly d e) (cause master : Nat) (write : Bool) (fa n : Nat) :
    IrqOnly d (busFail cause master write fa n e) := (h.busError _ _ _ _).emit _

end

/-! ### Stores to clean memory -/

/-- Only memory, its marks and its symbol errors have changed. -/
def MemOnly (d e : Dev) : Prop := ∃ m p r, e = { d with mem := m, poison := p, errs := r }

theorem MemOnly.trans {d e f : Dev} : MemOnly d e → MemOnly e f → MemOnly d f := by
  rintro ⟨_, _, _, rfl⟩ ⟨m, p, r, rfl⟩
  exact ⟨m, p, r, rfl⟩

theorem MemOnly.regs {d e : Dev} (h : MemOnly d e) : e.regs = d.regs := by obtain ⟨_, _, _, rfl⟩ := h; rfl

theorem MemOnly.out {d e : Dev} (h : MemOnly d e) : e.out = d.out := by obtain ⟨_, _, _, rfl⟩ := h; rfl

theorem MemOnly.links {d e : Dev} (h : MemOnly d e) : e.links = d.links := by obtain ⟨_, _, _, rfl⟩ := h; rfl

theorem MemOnly.tm {d e : Dev} (h : MemOnly d e) : e.tm = d.tm := by obtain ⟨_, _, _, rfl⟩ := h; rfl

theorem MemOnly.rd {d e : Dev} (h : MemOnly d e) (r : Reg) : rd e r = rd d r := congrArg (regGet · r) h.regs

theorem MemOnly.gb {d e : Dev} (h : MemOnly d e) (r : Reg) (f : Fld) : gb e r f = gb d r f := by
  unfold Machine.gb gf
  rw [h.rd]

/-- No flip is armed (R547). -/
def Disarmed (d : Dev) : Prop := gb d Reg.INTG_FLIP F.INTG_FLIP_ARM = false

theorem flipApply_disarmed {d : Dev} (h : Disarmed d) (g st : Nat) : flipApply g st d = d := by
  unfold flipApply
  rw [h]
  rfl

theorem memOnly_writeGran {g o : Nat} {bs : List Byte} {p : Bool} {d : Dev} (h : poisoned d g = false) (he : errOf d g = [])
    (ha : Disarmed d) : MemOnly d (writeGran g o bs p d) := by
  unfold writeGran
  rw [readGran_clean g d h he]
  dsimp only
  rw [flipApply_disarmed]
  · split <;> split <;> exact ⟨_, _, _, rfl⟩
  · split <;> split <;> exact ha

/-- A store to clean granules, with no flip armed, changes nothing but memory, its marks and its symbol errors. -/
theorem memOnly_writeMem {a : Nat} {bs : List Byte} {p : Bool} {d : Dev} (h : Clean d a bs.length) (ha : Disarmed d) :
    MemOnly d (writeMem a bs p d) := by
  have fold : ∀ (l : List Nat) (d : Dev), l.Nodup → (∀ g ∈ l, a / 32 ≤ g) → (∀ g ∈ l, poisoned d g = false ∧ errOf d g = []) →
      Disarmed d → MemOnly d (l.foldl (fun d g => writeGran g (max a (32 * g) - 32 * g)
        ((bs.drop (max a (32 * g) - a)).take (min (a + bs.length) (32 * g + 32) - max a (32 * g))) p d) d) := by
    intro l
    induction l with
    | nil => exact fun _ _ _ _ _ => ⟨_, _, _, rfl⟩
    | cons g l ih =>
      intro d hn hge hc hd
      obtain ⟨hg, hl⟩ := List.nodup_cons.mp hn
      obtain ⟨hp, he⟩ := hc g List.mem_cons_self
      have first := memOnly_writeGran (o := max a (32 * g) - 32 * g) (p := p)
        (bs := (bs.drop (max a (32 * g) - a)).take (min (a + bs.length) (32 * g + 32) - max a (32 * g))) hp he hd
      obtain ⟨-, marks, errs, -⟩ := writeGran_clean g (max a (32 * g) - 32 * g)
        ((bs.drop (max a (32 * g) - a)).take (min (a + bs.length) (32 * g + 32) - max a (32 * g))) p d hp he hd (by
          have := hge g List.mem_cons_self
          rw [List.length_take]
          omega)
      refine first.trans (ih _ hl (fun x hx => hge x (List.mem_cons_of_mem _ hx)) (fun x hx => ?_) ((first.gb _ _).trans hd))
      have hne : x ≠ g := fun h => hg (h ▸ hx)
      rw [marks, errs, if_neg hne, if_neg hne]
      exact hc x (List.mem_cons_of_mem _ hx)
  refine fold _ d ?_ ?_ h ha
  · unfold granRange
    split
    · exact List.nodup_nil
    · exact List.nodup_range.map (fun _ _ h => Nat.add_left_cancel h)
  · unfold granRange
    split
    · simp
    · simp only [List.mem_map, List.mem_range]
      rintro _ ⟨i, -, rfl⟩
      omega

end Sys2Proof.Machine
end

/-! ## Fabric accesses: outside the local map, memory, and accesses that wait -/

section
/-! SUPPORT and settlement of O8, O9, O12 and O13. -/

namespace Sys2Proof.Machine

/-! ### Bus errors (R25, R50, R51) -/

/-- An address with GLOBAL 0 and another DEV_ID than 0 is none of this device (R25). -/
theorem localOf_notGlobal {d : Dev} {fa : Nat} (hg : fa / 2 ^ 52 = 0) (hd : fa / 2 ^ 40 % 4096 ≠ 0) : localOf d fa = none := by
  unfold localOf
  rw [if_neg (fun h => hd (by rw [h])), if_neg (by rw [hg]; simp)]

theorem localOf_low {d : Dev} {a : Nat} (h : a < 2 ^ 40) : localOf d a = some a := by
  unfold localOf
  rw [if_pos (Nat.div_eq_of_lt h), Nat.mod_eq_of_lt h]

theorem fabricAccess_notGlobal {x : BusAcc} {d : Dev} (hb : x.bar = 0) (hg : x.addr / 2 ^ 52 = 0) (hd : x.addr / 2 ^ 40 % 4096 ≠ 0) :
    fabricAccess x d = busFail causeUnmapped x.master x.write x.addr x.bytes d := by
  have ha : x.addr < 2 ^ 53 := by omega
  unfold fabricAccess
  rw [accAddr_plain hb]
  dsimp only
  rw [Nat.mod_eq_of_lt ha, localOf_notGlobal hg hd, hg]
  split <;> rfl

/-- Settles O8: the address is none of this device, and a bus error of cause UNMAPPED is all that the access leaves. -/
theorem unmappedWhenNotGlobal : Obligations.UnmappedWhenNotGlobal := by
  intro s x hs hw hb hg hd
  exact completes_busFail hs hw (by omega) (by decide) (fabricAccess_notGlobal hb hg hd)

/-- Settles O9: it is what the shared bus-error operation leaves. -/
theorem busErrorsAreLoggedAndCounted : Obligations.BusErrorsAreLoggedAndCounted := by
  intro d cause master fa n write hc hm hf
  exact busFail_errored cause master write fa n d hc hm hf

/-! ### Accesses of memory (R31, R38, R39) -/

/-- The address lies in a memory: main memory, the arbiter's SRAM, the mezzanine store or a tile store. -/
def InMemory (a : Nat) : Prop := region a = .dram ∨ region a = .arbSram ∨ region a = .mezz ∨ ∃ k, region a = .tile k

theorem InMemory.not_pcieOut {a : Nat} (h : InMemory a) : region a ≠ .pcieOut := by
  obtain h | h | h | ⟨k, h⟩ := h <;> simp [h]

/-- A write of a memory that no cause refuses is a store. -/
theorem busPut_memory {master a : Nat} {bs : List Byte} {p : Bool} {rs : List ReloadIn} {d : Dev} (hm : InMemory a)
    (hc : localCause d a bs.length true = none) : busPut master a bs p rs d = (none, writeMem a bs p d) := by
  unfold busPut
  rw [hc]
  obtain h | h | h | ⟨k, h⟩ := hm <;> simp [h]

theorem strike_nil (a : Nat) (d : Dev) : strike a [] d = d := by
  unfold strike
  split <;> rfl

/-- Data without poison is delivered to its master. -/
theorem busDeliver_clean (master fa : Nat) (bs : List Byte) (d : Dev) : busDeliver master fa bs false d = emit (.busRead master bs) d := rfl

section
variable {x : BusAcc} {fa : Nat} {d : Dev}

/-- An access outside the PCIe window that no cause refuses is served. -/
theorem busDo_served (hr : region (fa % 2 ^ 40) ≠ .pcieOut) (hp : x.write = true → x.poison = true → x.master ≠ 0x10 ∧ x.master ≠ 0x11)
    (hc : localCause d (fa % 2 ^ 40) x.bytes x.write = none) (hu : x.upset = []) : busDo x fa d = busServe x fa d := by
  have counted : (if x.write = true then epCount x.master x.poison d else d) = d :=
    ite_eq_right_iff.mpr fun hw => epCount_none d (hp hw)
  unfold busDo
  dsimp only
  rw [if_neg (fun h => hr h.1), counted, hc, hu]
  dsimp only
  rw [strike_nil]

/-- A read of clean memory gives its bytes to the master. -/
theorem busServe_read (hw : x.write = false) (hm : InMemory (fa % 2 ^ 40)) (hcl : Clean d (fa % 2 ^ 40) x.bytes) :
    busServe x fa d = emit (.busRead x.master (rawBytes d (fa % 2 ^ 40) x.bytes)) d := by
  unfold busServe
  dsimp only
  rw [if_neg (by simp [hw])]
  obtain h | h | h | ⟨k, h⟩ := hm <;> simp only [h, readMem_clean _ _ _ hcl, busDeliver_clean]

theorem busServe_write (hw : x.write = true) (hl : x.data.length = x.bytes) (hm : InMemory (fa % 2 ^ 40))
    (hc : localCause d (fa % 2 ^ 40) x.bytes x.write = none) :
    busServe x fa d = emit (.busWrote x.master) (writeMem (fa % 2 ^ 40) x.data x.poison d) := by
  have hpad : padTo x.bytes 0 (x.data.take x.bytes) = x.data := by
    rw [List.take_of_length_le hl.le]
    unfold padTo
    rw [hl, Nat.sub_self, List.replicate_zero, List.append_nil]
  unfold busServe
  dsimp only
  rw [if_pos hw, hpad, busPut_memory hm (by rw [hl, ← hw]; exact hc)]

end

/-- A local access that neither waits nor is refused is served. -/
theorem fabricAccess_served {x : BusAcc} {d : Dev} (hb : x.bar = 0) (ha : x.addr < 2 ^ 40) (hw : ¬ localWaits d x x.addr)
    (hr : region x.addr ≠ .pcieOut) (hp : x.write = true → x.poison = true → x.master ≠ 0x10 ∧ x.master ≠ 0x11)
    (hc : localCause d x.addr x.bytes x.write = none) (hu : x.upset = []) : fabricAccess x d = busServe x x.addr d := by
  have hm : x.addr % 2 ^ 40 = x.addr := Nat.mod_eq_of_lt ha
  rw [fabricAccess_local hb (by omega) (fun _ => ha) (localOf_low ha),
    ← busDo_served (fa := x.addr) (by rw [hm]; exact hr) hp (by rw [hm]; exact hc) hu]
  exact if_neg (fun h => hw (hm ▸ Bool.or_eq_true_iff.mp h))

theorem InMemory.not_regs {a : Nat} (h : InMemory a) : region a ≠ .regs := by
  obtain h | h | h | ⟨k, h⟩ := h <;> simp [h]

/-- A read of clean memory by one of the device's own masters gives its bytes. -/
theorem masterRead_memory {master a n : Nat} {d : Dev} (ha : a < 2 ^ 40) (hm : InMemory a) (hc : accessCause d a n false = none)
    (hcl : Clean d a n) : masterRead master a n d = (.ok (rawBytes d a n) false, d) := by
  have cause : ownCause master a a n false d = (none, d) := by
    unfold ownCause
    rw [if_neg (fun h => hm.not_regs h.1), hc]
  have serve : ownServe master a n d = (some (rawBytes d a n, false), d) := by
    unfold ownServe
    obtain h | h | h | ⟨k, h⟩ := hm <;> simp only [h, readMem_clean _ _ _ hcl]
  unfold masterRead
  rw [localOf_low ha]
  dsimp only
  rw [cause]
  dsimp only
  rw [if_neg hm.not_pcieOut, serve]

/-- Settles O12: a read gives the bytes that stand there, a write is a store of its bytes, and each tells its master. -/
theorem memoryReadsAndWrites : Obligations.MemoryReadsAndWrites := by
  intro s x hs hwf hb ha hu hm hwait hheld hc hcl
  have hmod : x.addr % 2 ^ 40 = x.addr := Nat.mod_eq_of_lt ha
  have hm : InMemory x.addr := hm
  have hnw : ¬ localWaits s.dev x x.addr := by simp [localWaits, hwait, hheld]
  have served : (x.write = true → x.poison = true → x.master ≠ 0x10 ∧ x.master ≠ 0x11) → fabricAccess x s.dev = busServe x x.addr s.dev :=
    fun hp => fabricAccess_served hb ha hnw hm.not_pcieOut hp hc hu
  refine ⟨fun hw => ?_, fun hw hp hflip => ?_⟩
  · refine completes_sys (f := fabricAccess x) rfl hwf hs ?_
    rw [served (by simp [hw]), busServe_read hw (hmod.symm ▸ hm) (hmod.symm ▸ hcl), hmod]
    rfl
  · have hl : x.data.length = x.bytes := by
      simp only [Instr.wf, WellFormed.okAcc, hw, Bool.and_eq_true] at hwf
      simpa using hwf.1.2
    rw [← hl] at hcl
    refine completes_sys (f := fabricAccess x) rfl hwf hs ?_
    rw [served (fun _ => hp), busServe_write hw hl (hmod.symm ▸ hm) (hmod.symm ▸ hc), hmod]
    have only := memOnly_writeMem (p := x.poison) hcl hflip
    exact ⟨congrArg (· ++ [Out.busWrote x.master]) only.out, (writeMem_clean x.addr x.data x.poison s.dev hcl hflip).1, only.rd⟩

/-! ### Accesses that wait (R29, R30, R36, R42) -/

section
variable {d : Dev} {i : Nat} {h : HeldAcc}

/-- The device once the access held at place `i` has left the queue. -/
def unheld (i : Nat) (d : Dev) : Dev := setBoot { d.boot with held := d.boot.held.eraseIdx i } d

theorem heldTimeout_local (hh : heldAt d i = some h) (hm : h.msg = none) :
    heldTimeout i d = busFail causeTimeout h.master h.write h.addr h.len (unheld i d) := by
  unfold heldTimeout
  rw [hh]
  dsimp only
  rw [hm]
  rfl

theorem heldRelease_waits (hh : heldAt d i = some h) (hw : accessWaits d (h.addr % 2 ^ 40) h.len h.write = true) :
    heldRelease i d = d := by
  unfold heldRelease
  rw [hh]
  exact if_pos hw

/-- A held access of this device that no longer waits leaves the queue and is performed. -/
theorem heldRelease_local (hh : heldAt d i = some h) (hm : h.msg = none)
    (hw : accessWaits d (h.addr % 2 ^ 40) h.len h.write = false) :
    heldRelease i d = busDo { master := h.master, addr := h.addr, bytes := h.len, write := h.write, data := h.data, poison := h.poison }
      h.addr (unheld i d) := by
  unfold heldRelease
  rw [hh]
  dsimp only
  rw [if_neg (fun hx => Bool.false_ne_true (hw.symm.trans hx)), hm]
  rfl

theorem heldRelease_none (hh : heldAt d i = none) : heldRelease i d = d := by
  unfold heldRelease
  rw [hh]

theorem heldTimeout_none (hh : heldAt d i = none) : heldTimeout i d = d := by
  unfold heldTimeout
  rw [hh]

end

/-- The device once the request with a TAG is forgotten. -/
def unasked (tag : Nat) (d : Dev) : Dev := setLinks { d.links with reqs := mdel d.links.reqs tag } d

/-- Where every request has been sent, the end of one sends no other. -/
theorem reqDone_allSent {tag : Nat} {d : Dev} (h : ∀ p ∈ d.links.reqs, p.2.sent = true) : reqDone tag d = unasked tag d := by
  have none : (mdel d.links.reqs tag).find? (fun q => !q.2.sent) = none :=
    List.find?_eq_none.mpr fun p hp => by simp [h p (List.mem_of_mem_filter hp)]
  unfold reqDone reqPump
  dsimp only [setLinks]
  rw [none]
  rfl

theorem unasked_forgotten (tag : Nat) (d : Dev) : mget (unasked tag d).links.reqs tag = none := mget_mdel_same _ _

theorem linkTimeout_none {tag : Nat} {d : Dev} (h : mget d.links.reqs tag = none) : linkTimeout tag d = d := by
  unfold linkTimeout
  rw [h]

theorem linkTimeout_access {tag m off n : Nat} {w : Bool} {q : Req} {d : Dev} (h : mget d.links.reqs tag = some q)
    (hk : q.kind = .access m w off n) :
    linkTimeout tag d = busFail causeTimeout m w (reqAddr q + (if w then 0 else off)) n (reqDone tag d) := by
  unfold linkTimeout
  rw [h]
  dsimp only
  rw [hk]

/-- The fabric address of a request's access has 53 bits. -/
theorem reqAddr_lt {q : Req} {off : Nat} (w : Bool) (hd : q.msg.dst < 4096) (ha : q.msg.addr + 64 < 2 ^ 40) (ho : off < 32) :
    reqAddr q + (if w then 0 else off) < 2 ^ 53 := by
  unfold reqAddr msgAddr
  split <;> omega

/-- Settles O13: a held access is performed or times out once it has left the queue, and a request that times out is forgotten and its
master told. -/
theorem heldAndLinkAccessesEnd : Obligations.HeldAndLinkAccessesEnd := by
  intro s hs
  refine ⟨fun i h hh hmsg hm ha => ⟨?_, fun hw => ?_, fun hwr hw hr hc hcl => ?_⟩, fun i hh => ⟨?_, ?_⟩,
    fun tag q m w off n ht hq hk hm hd ha ho hsent => ?_, fun tag ht hq => ?_⟩
  · refine completes_sys (f := heldTimeout i) rfl rfl hs ?_
    rw [heldTimeout_local hh hmsg]
    exact ⟨busFail_errored causeTimeout h.master h.write h.addr h.len (unheld i s.dev) (by decide) hm ha,
      congrArg Boot.held ((IrqOnly.refl (unheld i s.dev)).busFail _ _ _ _ _).boot⟩
  · exact completes_sys (f := heldRelease i) rfl rfl hs (heldRelease_waits hh hw)
  · refine completes_sys (f := heldRelease i) rfl rfl hs ?_
    have hdram : InMemory (h.addr % 2 ^ 40) := .inl hr
    rw [heldRelease_local hh hmsg (by rw [hwr]; exact hw),
      busDo_served hdram.not_pcieOut (by simp [hwr]) (by dsimp only; rw [hwr]; exact hc) rfl, busServe_read hwr hdram hcl]
    exact ⟨rfl, rfl, (Touches.refl s.dev).mk⟩
  · exact completes_sys (f := heldRelease i) rfl rfl hs (heldRelease_none hh)
  · exact completes_sys (f := heldTimeout i) rfl rfl hs (heldTimeout_none hh)
  · refine completes_sys (f := linkTimeout tag) rfl (decide_eq_true ht) hs ?_
    rw [linkTimeout_access hq hk, reqDone_allSent hsent]
    exact ⟨((IrqOnly.refl (unasked tag s.dev)).busFail _ _ _ _ _).links ▸ unasked_forgotten tag s.dev,
      busFail_errored causeTimeout m w _ n (unasked tag s.dev) (by decide) hm (reqAddr_lt w hd ha ho)⟩
  · exact completes_sys (f := linkTimeout tag) rfl (decide_eq_true ht) hs (linkTimeout_none hq)

end Sys2Proof.Machine
end

/-! ## Messages for another device -/

section
/-! SUPPORT and settlement of O46. -/

namespace Sys2Proof.Machine

section
variable {n : Nat} {m : Msg} {f : Msg → Dev → Dev} {d : Dev}

/-- A message for another device that has a route is sent on by it (R647). -/
theorem arrive_forwarded {q : Nat} {y : Msg} (hd : m.dst ≠ devId d) (hr : routeHop d (turnClass d n m) = some (q, y)) :
    arrive n m f d = msgPort q y d := by
  unfold arrive sendMsg
  rw [if_neg hd, hr]

/-- One that has none is counted; a response is then discarded, a request logged and answered (R648). -/
theorem arrive_refused (hd : m.dst ≠ devId d) (hr : routeHop d (turnClass d n m) = none) :
    arrive n m f d = if isResponse m.kind then routeErr d else
      respondErr m causeNoRoute (busError causeNoRoute (0x40 + n) (m.kind == 2) (msgAddr m) (routeErr d)) := by
  unfold arrive sendMsg
  rw [if_neg hd, hr]

end

/-- A message that is refused or discarded is counted, and nothing else changes (R648). -/
theorem routeErr_counts (d : Dev) :
    gf (routeErr d) Reg.TL_ROUTE_ERR F.TL_ROUTE_ERR_COUNT = min (gf d Reg.TL_ROUTE_ERR F.TL_ROUTE_ERR_COUNT + 1) 0x7FFFFFFF ∧
    Touches (fun a => a = Reg.TL_ROUTE_ERR.addr) d (routeErr d) :=
  ⟨gf_cntAdd Reg.TL_ROUTE_ERR F.TL_ROUTE_ERR_COUNT F.TL_ROUTE_ERR_OVF 1 _ d (by decide) (by decide) (by decide)
    (by unfold raised; decide), (Touches.refl d).cntAdd _ _ _ _ _ (.inl rfl)⟩

/-- What O46 says of the row `c` for messages of kind `k`. -/
def ForwardsOrRefuses (s : State) (n : Nat) (m : Msg) (c : Nat × Instr) : Prop :=
  let x := turnClass s.dev n { m with kind := c.1 }
  (∀ q y, routeHop s.dev x = some (q, y) → Completes c.2 s (fun d => d = msgPort q y s.dev)) ∧
  (routeHop s.dev x = none → Completes c.2 s (fun d => ∃ e,
    gf e Reg.TL_ROUTE_ERR F.TL_ROUTE_ERR_COUNT = min (gf s.dev Reg.TL_ROUTE_ERR F.TL_ROUTE_ERR_COUNT + 1) 0x7FFFFFFF ∧
    Touches (fun a => a = Reg.TL_ROUTE_ERR.addr) s.dev e ∧
    (isResponse c.1 = true → d = e) ∧
    (isResponse c.1 = false → d = respond m 5 6 [] (busError 6 (0x40 + n) (c.1 == 2) (2 ^ 52 + m.dst * 2 ^ 40 + m.addr) e))))

/-- A row whose messages arrive on a port forwards or refuses those for another device, whatever it does with its own. -/
theorem forwardsOrRefuses_of_arrive {s : State} {n k : Nat} {m : Msg} {c : Instr} (f : Msg → Dev → Dev)
    (he : exec c s = liftSys (decide (n < 4) && WellFormed.okMsg m) (arrive n { m with kind := k } f) s)
    (hs : sysClocked s.dev = true) (hn : n < 4) (hm : WellFormed.okMsg m = true) (hd : m.dst ≠ devId s.dev) :
    ForwardsOrRefuses s n m (k, c) := by
  have ok : (decide (n < 4) && WellFormed.okMsg m) = true := Bool.and_eq_true_iff.mpr ⟨decide_eq_true hn, hm⟩
  refine ⟨fun q y hr => completes_sys he ok hs (arrive_forwarded hd hr), fun hr => completes_sys he ok hs ?_⟩
  obtain ⟨count, frame⟩ := routeErr_counts s.dev
  rw [arrive_refused (m := { m with kind := k }) hd hr]
  exact ⟨routeErr s.dev, count, frame, fun h => if_pos h, fun h => if_neg (by simp only [h, Bool.false_eq_true, not_false_eq_true])⟩

/-- Settles O46: every kind arrives in the same way, and a message for another device goes no further than its route. -/
theorem messagesForOthersAreForwarded : Obligations.MessagesForOthersAreForwarded := by
  intro s n m hs hn hm d0 hd
  suffices ∀ c ∈ _, ForwardsOrRefuses s n m c from this
  have row : ∀ {k c} (f : Msg → Dev → Dev), _ → ForwardsOrRefuses s n m (k, c) :=
    fun f he => forwardsOrRefuses_of_arrive f he hs hn hm hd
  simp only [List.forall_mem_cons]
  exact ⟨row (readHere n) rfl, row (writeHere n) rfl, row readRspHere rfl, row writeAckHere rfl, row errRspHere rfl,
    row (syncHere n) rfl, row (watchHere n) rfl, row notifyHere rfl, row (censusStart n) rfl, row (censusPart n) rfl,
    row streamHere rfl, List.forall_mem_nil _⟩

end Sys2Proof.Machine
end

/-! ## Synchronisation objects take their operations -/

section
/-! SUPPORT and settlement of O48. -/

namespace Sys2Proof.Machine

/-! ### An object in its granule (R661, R662) -/

theorem granRange_one {a k : Nat} (hk : 0 < k) (h : a % 32 + k ≤ 32) : granRange a k = [a / 32] := by
  have one : (a + k - 1) / 32 + 1 - a / 32 = 1 := by omega
  unfold granRange
  rw [if_neg (by omega), one]
  simp

theorem granRange_object (n : Nat) {off k : Nat} (hk : 0 < k) (h : off + k ≤ 16) :
    granRange (objAddr n + off) k = [objAddr n / 32] := by
  unfold objAddr syncBase
  rw [granRange_one hk (by omega)]
  congr 1
  omega

theorem granRange_pair (m : Nat) : granRange (objAddr (2 * m)) 32 = [objAddr (2 * m) / 32] :=
  granRange_one (by decide) (by unfold objAddr syncBase; omega)

theorem objBytes_length (o : SyncObj) : (objBytes o).length = 16 := by simp [objBytes, leBytes_length]

theorem objRead_clean {n : Nat} {d : Dev} (h : Clean d (objAddr n) 16) : objRead n d = ((objPeek d n, false), d) := by
  unfold objRead
  rw [readMem_clean _ _ _ h]
  rfl

/-- A read of an object in a poisoned granule changes nothing and gives the poison. -/
theorem objRead_poisoned {n : Nat} {d : Dev} (hp : poisoned d (objAddr n / 32) = true) :
    (objRead n d).1.2 = true ∧ (objRead n d).2 = d := by
  have gran : readGran false (objAddr n / 32) d =
      (((granDecode (rawBytes d (32 * (objAddr n / 32)) 32) (errOf d (objAddr n / 32))).2, true), d) := if_pos hp
  have range : granRange (objAddr n) 16 = [objAddr n / 32] := granRange_object n (off := 0) (by decide) (by decide)
  unfold objRead readMem
  simp [range, gran]

/-! ### What an operation does to its object (R663 to R665) -/

section
variable {o : SyncObj} {arg : Nat}

theorem objAdd_fits (ho : o.ovf = false) (h : o.value + arg ≤ 0xFFFFFFFF) : objAdd o arg = ({ o with value := o.value + arg }, false) := by
  unfold objAdd
  rw [if_neg (by omega), ho]
  rfl

theorem objAdd_saturates (h : 0xFFFFFFFF < o.value + arg) :
    objAdd o arg = ({ o with value := 0xFFFFFFFF, status := setBit o.status 31 true }, true) := if_pos h

theorem objOp_counter (ht : o.type = 0) : objOp o 1 arg = some (objAdd o arg) := by unfold objOp; rw [ht]; rfl

theorem objOp_semaphore (ht : o.type = 1) : objOp o 2 arg = some (objAdd o arg) := by unfold objOp; rw [ht]; rfl

theorem objOp_barrier (ht : o.type = 2) : objOp o 3 arg =
    if o.param ≤ o.value + 1 then some ({ o with value := 0, status := statusMk o.ovf 2 o.count (o.gen + 1) }, false)
    else some ({ o with value := o.value + 1 }, false) := by
  unfold objOp
  rw [ht]
  rfl

theorem objOp_flag (ht : o.type = 3) : objOp o 4 arg = some ({ o with value := arg % 2 }, false) := by unfold objOp; rw [ht]; rfl

/-- The value that a contribution leaves in a reduction cell, by the operation of PARAM (R665). -/
def folded (op v arg : Nat) : Nat := [v + arg, min v arg, max v arg, v &&& arg, v ||| arg, v ^^^ arg].getD op 0

/-- Below its participant count a cell folds the argument and counts; at it, it moves the result to AUX and steps GEN. -/
theorem objOp_reduction {op k : Nat} (ht : o.type = 4) (hp : o.param = op * 2 ^ 28 + k) (hop : op ≤ 5) (h1 : 1 ≤ k) (hk : k ≤ 4096)
    (ho : o.ovf = false) (hadd : op = 0 → o.value + arg ≤ 0xFFFFFFFF) : objOp o 5 arg =
    if k ≤ o.count + 1 then some ({ o with aux := folded op o.value arg, value := if op = 1 ∨ op = 3 then 0xFFFFFFFF else 0,
                                           status := statusMk false 4 0 (o.gen + 1) }, false)
    else some ({ o with value := folded op o.value arg, status := statusMk false 4 (o.count + 1) o.gen }, false) := by
  have code : bitsOf o.param 31 28 = op := by unfold bitsOf; omega
  have reserved : bitsOf o.param 27 13 = 0 := by unfold bitsOf; omega
  have parts : bitsOf o.param 12 0 = k := by unfold bitsOf; omega
  have fold : (if op = 0 then objAdd o arg else ({ o with value := redOp op o.value arg }, false)) =
      ({ o with value := folded op o.value arg }, false) := by
    split
    · next h => rw [objAdd_fits ho (hadd h), h]; rfl
    · obtain rfl | rfl | rfl | rfl | rfl : op = 1 ∨ op = 2 ∨ op = 3 ∨ op = 4 ∨ op = 5 := by omega
      all_goals rfl
  have legal : ¬ (op > 5 ∨ 0 ≠ 0 ∨ k = 0 ∨ k > 4096) := by omega
  unfold objOp
  rw [ht]
  dsimp only
  rw [code, reserved, parts, if_neg legal, ho]
  simp only [Bool.false_eq_true, if_false, fold]
  have hov : ({ o with value := folded op o.value arg } : SyncObj).ovf = false := ho
  rw [hov]
  rfl

/-- An operation on an object of another type is a type error (R670). -/
theorem objOp_otherType {t : Nat} (h : o.type ≠ t) : objOp o (t + 1) arg = none := by
  unfold objOp
  split
  case h_6 => rfl
  all_goals omega

end

/-! ### Faults of an operation (R666, R670, R671) -/

/-- A fault is reported: at SYNC_STAT, and by its interrupt source. -/
def Faulted (f : Fld) (src n : Nat) (d : Dev) : Prop :=
  gb d Reg.SYNC_STAT f = true ∧ gf d Reg.SYNC_STAT F.SYNC_STAT_OBJ = n ∧ icPending d src = true

/-- SYNC_STAT holds the fault bit `f` and names object `n`. -/
def Reports (f : Fld) (n : Nat) (d : Dev) : Prop := gb d Reg.SYNC_STAT f = true ∧ gf d Reg.SYNC_STAT F.SYNC_STAT_OBJ = n

theorem Reports.of_rd_eq {f : Fld} {n : Nat} {d e : Dev} (h : Reports f n d) (he : rd e Reg.SYNC_STAT = rd d Reg.SYNC_STAT) :
    Reports f n e := by
  unfold Reports gb gf at *
  rwa [he]

theorem reports_set {f : Fld} {n : Nat} (hn : n < 65536) (hl : f.len = 1) (hlo : 16 ≤ f.lo) (hf : f.lo + f.len ≤ 64) (d : Dev) :
    Reports f n (sf Reg.SYNC_STAT F.SYNC_STAT_OBJ n (sf Reg.SYNC_STAT f 1 d)) := by
  refine ⟨?_, (gf_sf_same _ _ _ _ (by decide)).trans (Nat.mod_eq_of_lt hn)⟩
  unfold gb
  rw [gf_sf_disj _ F.SYNC_STAT_OBJ _ _ _ (by decide) (.inl hlo), gf_sf_same _ _ _ _ hf, hl]
  rfl

theorem syncStat_quiet : ¬ raised Reg.SYNC_STAT.addr := by unfold raised; decide

/-- Faults write SYNC_STAT alone before what they count and raise. -/
theorem touches_reported {w : Nat → Prop} (hw : w Reg.SYNC_STAT.addr) (f : Fld) (n : Nat) (d : Dev) :
    Touches w d (sf Reg.SYNC_STAT F.SYNC_STAT_OBJ n (sf Reg.SYNC_STAT f 1 d)) :=
  ((Touches.refl d).sf _ _ _ (.inl hw)).sf _ _ _ (.inl hw)

section
variable {n : Nat} (hn : n < 65536) (d : Dev)
include hn

/-- A saturation is seen at SYNC_STAT, counted once and raised (R666). -/
theorem syncOvf_reports : Reports F.SYNC_STAT_OVF_SEEN n (syncOvf n d) ∧ icPending (syncOvf n d) 115 = true ∧
    gf (syncOvf n d) Reg.SYNC_OVF_CNT F.SYNC_OVF_CNT_COUNT = min (gf d Reg.SYNC_OVF_CNT F.SYNC_OVF_CNT_COUNT + 1) 0x7FFFFFFF ∧
    Touches (fun a => a = Reg.SYNC_STAT.addr ∨ a = Reg.SYNC_OVF_CNT.addr) d (syncOvf n d) := by
  have hc : ¬ raised Reg.SYNC_OVF_CNT.addr := by unfold raised; decide
  refine ⟨(reports_set hn rfl (by decide) (by decide) d).of_rd_eq ?_, icPending_raise _ _ (by decide), ?_,
    ((touches_reported (.inl rfl) _ n d).cntAdd _ _ _ _ _ (.inl (.inr rfl))).raise _⟩
  · exact (rd_raise _ _ _ syncStat_quiet).trans (rd_cntAdd_ne _ _ _ _ _ _ _ (by decide) syncStat_quiet)
  · refine (gf_raise _ _ _ _ hc).trans ((gf_cntAdd _ _ _ _ _ _ (by decide) (by decide) (by decide) hc).trans ?_)
    rw [gf_sf_ne _ _ _ _ (by decide), gf_sf_ne _ _ _ _ (by decide)]
    rfl

theorem syncTypeErr_reports : Reports F.SYNC_STAT_TYPE_ERR n (syncTypeErr n d) ∧ icPending (syncTypeErr n d) 116 = true ∧
    Touches (fun a => a = Reg.SYNC_STAT.addr) d (syncTypeErr n d) :=
  ⟨(reports_set hn rfl (by decide) (by decide) d).of_rd_eq (rd_raise _ _ _ syncStat_quiet), icPending_raise _ _ (by decide),
    (touches_reported (w := fun a => a = Reg.SYNC_STAT.addr) rfl _ n d).raise _⟩

end

/-- The registers that a consumption of poison writes (R539, R540). -/
def consumed (a : Nat) : Prop :=
  a = Reg.INTG_PC_CNT.addr ∨ a = Reg.INTG_PC_STAT.addr ∨ a = Reg.INTG_PC_INFO.addr ∨ a = Reg.INTG_PC_ADDR.addr

theorem Touches.consume {w : Nat → Prop} {d e : Dev} (h : Touches w d e) (hw : ∀ a, consumed a → w a) (cause master batch id addr : Nat) :
    Touches w d (consume cause master batch id addr e) := by
  have cnt := hw _ (.inl rfl)
  have stat := hw _ (.inr (.inl rfl))
  have info := hw _ (.inr (.inr (.inl rfl)))
  have ad := hw _ (.inr (.inr (.inr rfl)))
  refine ((h.cntAdd _ _ _ _ _ (.inl cnt)).logOnce _ _ _ _ (.inl stat) fun e h => ?_).raise _
  exact ((((h.sf _ _ _ (.inl stat)).sf _ _ _ (.inl stat)).sf _ _ _ (.inl info)).sf _ _ _ (.inl info)).sf _ _ _ (.inl ad)

/-- A consumption is counted once. -/
theorem gf_consume_cnt (cause master batch id addr : Nat) (d : Dev) :
    gf (consume cause master batch id addr d) Reg.INTG_PC_CNT F.INTG_PC_CNT_COUNT =
      min (gf d Reg.INTG_PC_CNT F.INTG_PC_CNT_COUNT + 1) 0x7FFFFFFF := by
  have hc : ¬ raised Reg.INTG_PC_CNT.addr := by unfold raised; decide
  have counted := gf_cntAdd Reg.INTG_PC_CNT F.INTG_PC_CNT_COUNT F.INTG_PC_CNT_OVF 1 111 d (by decide) (by decide) (by decide) hc
  refine (gf_raise _ _ _ _ hc).trans (Eq.trans ?_ counted)
  refine Touches.gf_eq (w := fun a => a ≠ Reg.INTG_PC_CNT.addr) ?_ _ _ (fun h => h rfl) hc
  refine (Touches.refl _).logOnce _ _ _ _ (.inl (by decide)) fun e h => ?_
  exact ((((h.sf _ _ _ (.inl (by decide))).sf _ _ _ (.inl (by decide))).sf _ _ _ (.inl (by decide))).sf _ _ _ (.inl (by decide))).sf
    _ _ _ (.inl (by decide))

/-- An operation on a poisoned object is reported and its poison consumed (R671). -/
theorem syncPoison_reports {n : Nat} (hn : n < 65536) (master : Nat) (d : Dev) :
    Reports F.SYNC_STAT_POISON_OP n (syncPoison master n d) ∧ icPending (syncPoison master n d) 109 = true ∧
    gf (syncPoison master n d) Reg.INTG_PC_CNT F.INTG_PC_CNT_COUNT = min (gf d Reg.INTG_PC_CNT F.INTG_PC_CNT_COUNT + 1) 0x7FFFFFFF ∧
    Touches (fun a => a = Reg.SYNC_STAT.addr ∨ consumed a) d (syncPoison master n d) := by
  have after := (Touches.refl (sf Reg.SYNC_STAT F.SYNC_STAT_OBJ n (sf Reg.SYNC_STAT F.SYNC_STAT_POISON_OP 1 d))).consume
    (w := consumed) (fun _ h => h) 0xA master 0 0 (objAddr n / 32 * 32)
  refine ⟨(reports_set hn rfl (by decide) (by decide) d).of_rd_eq (after.rd_eq _ (by unfold consumed; decide) syncStat_quiet),
    icPending_raise _ _ (by decide), (gf_consume_cnt _ _ _ _ _ _).trans ?_,
    (touches_reported (.inl rfl) _ n d).consume (fun _ h => .inr h) _ _ _ _ _⟩
  rw [gf_sf_ne _ _ _ _ (by decide), gf_sf_ne _ _ _ _ (by decide)]

/-! ### Operations at the hub (R663 to R667) -/

/-- No watch is held, no window is placed and no flip is armed. -/
structure HubIdle (d : Dev) : Prop where
  watches : d.links.watches = []
  objs : d.tm.objs = []
  disarmed : Disarmed d

theorem watchesOn_none {d : Dev} (h : d.links.watches = []) (n : Nat) : watchesOn n d = d := by
  unfold watchesOn
  rw [h]
  rfl

theorem windowAdvance_none {d : Dev} (h : d.tm.objs = []) (n v : Nat) (sat : Bool) : windowAdvance n v sat d = d := by
  unfold windowAdvance
  rw [h]
  rfl

/-- The device once an operation has stored its object, and reported a saturation. -/
def operated (n : Nat) (q : SyncObj) (sat : Bool) (d : Dev) : Dev := whenB sat (syncOvf n) (objStore n q d)

section
variable {master n op arg : Nat} {d : Dev}

theorem memOnly_objStore (hi : HubIdle d) (hc : Clean d (objAddr n) 16) (q : SyncObj) : MemOnly d (objStore n q d) :=
  memOnly_writeMem (by rw [objBytes_length]; exact hc) hi.disarmed

theorem stored_objStore (hi : HubIdle d) (hc : Clean d (objAddr n) 16) (q : SyncObj) :
    Stored (objAddr n) (objBytes q) false d (objStore n q d) :=
  (writeMem_clean _ _ _ d (by rw [objBytes_length]; exact hc) hi.disarmed).1

theorem irqOnly_syncOvf (d : Dev) : IrqOnly d (syncOvf n d) := (((IrqOnly.refl d).sf _ _ _).sf _ _ _ |>.cntAdd _ _ _ _ _).raise _

/-- An operation on a clean object of its type stores the object it leaves, and reports a saturation. -/
theorem syncOp_performs (hi : HubIdle d) (hc : Clean d (objAddr n) 16) (ha : arg < 2 ^ 32) {q : SyncObj} {sat : Bool}
    (h : objOp (objPeek d n) op arg = some (q, sat)) : syncOp master n op arg d = operated n q sat d := by
  have stored := memOnly_objStore hi hc q
  have same : (operated n q sat d).links = d.links ∧ (operated n q sat d).tm = d.tm := by
    unfold operated whenB
    split
    · exact ⟨(irqOnly_syncOvf _).links.trans stored.links, (irqOnly_syncOvf _).tm.trans stored.tm⟩
    · exact ⟨stored.links, stored.tm⟩
  unfold syncOp
  rw [objRead_clean hc, Nat.mod_eq_of_lt ha]
  dsimp only
  rw [h]
  change watchesOn n (if (objPeek d n).type = 0 then windowAdvance n q.value q.ovf (operated n q sat d) else operated n q sat d) = _
  rw [windowAdvance_none (same.2 ▸ hi.objs), ite_self, watchesOn_none (same.1 ▸ hi.watches)]

theorem syncOp_typeErr (hc : Clean d (objAddr n) 16) (ha : arg < 2 ^ 32) (h : objOp (objPeek d n) op arg = none) :
    syncOp master n op arg d = syncTypeErr n d := by
  unfold syncOp
  rw [objRead_clean hc, Nat.mod_eq_of_lt ha]
  dsimp only
  rw [h]
  rfl

theorem syncOp_poisoned (hp : poisoned d (objAddr n / 32) = true) : syncOp master n op arg d = syncPoison master n d := by
  obtain ⟨poison, same⟩ := objRead_poisoned hp
  unfold syncOp
  dsimp only
  rw [same]
  exact if_pos poison

end

/-! ### The rows that operate on an object -/

section
variable {s : State} {c : Instr} {ok : Bool} {master n op arg : Nat}

theorem completes_becomes (he : exec c s = liftSys ok (syncOp master n op arg) s) (hok : ok = true) (hs : sysClocked s.dev = true)
    (hi : HubIdle s.dev) (hc : Clean s.dev (objAddr n) 16) (ha : arg < 2 ^ 32) {q : SyncObj}
    (h : objOp (objPeek s.dev n) op arg = some (q, false)) : Completes c s (fun d =>
      Stored (objAddr n) (objBytes q) false s.dev d ∧ (∀ r, rd d r = rd s.dev r) ∧ d.out = s.dev.out) := by
  refine completes_sys he hok hs ?_
  rw [syncOp_performs hi hc ha h]
  exact ⟨stored_objStore hi hc q, (memOnly_objStore hi hc q).rd, (memOnly_objStore hi hc q).out⟩

theorem completes_saturates (he : exec c s = liftSys ok (syncOp master n op arg) s) (hok : ok = true) (hs : sysClocked s.dev = true)
    (hn : n < 65536) (hi : HubIdle s.dev) (hc : Clean s.dev (objAddr n) 16) (ha : arg < 2 ^ 32) {q : SyncObj}
    (h : objOp (objPeek s.dev n) op arg = some (q, true)) : Completes c s (fun d =>
      Stored (objAddr n) (objBytes q) false s.dev d ∧ Faulted F.SYNC_STAT_OVF_SEEN 115 n d ∧
      gf d Reg.SYNC_OVF_CNT F.SYNC_OVF_CNT_COUNT = min (gf s.dev Reg.SYNC_OVF_CNT F.SYNC_OVF_CNT_COUNT + 1) 0x7FFFFFFF ∧
      ∀ r : Reg, r.addr ≠ Reg.SYNC_STAT.addr → r.addr ≠ Reg.SYNC_OVF_CNT.addr → ¬ raised r.addr → rd d r = rd s.dev r) := by
  refine completes_sys he hok hs ?_
  rw [syncOp_performs hi hc ha h]
  obtain ⟨bytes, marks, errs⟩ := stored_objStore hi hc q
  have only := memOnly_objStore hi hc q
  obtain ⟨⟨bit, obj⟩, pending, count, frame, hmem, hpoison, herrs⟩ := syncOvf_reports hn (objStore n q s.dev)
  refine ⟨⟨fun b => ?_, fun g => ?_, fun g => ?_⟩, ⟨bit, obj, pending⟩, ?_, fun r h1 h2 h3 => ?_⟩
  · exact (congrArg (byteAt · b) hmem).trans (bytes b)
  · exact (congrArg (mhas · g) hpoison).trans (marks g)
  · exact (congrArg (mgetD · g []) herrs).trans (errs g)
  · unfold gf at count ⊢
    rw [← only.rd]
    exact count
  · exact (frame r (fun hx => hx.elim h1 h2) h3).trans (only.rd r)

theorem completes_typeErr (he : exec c s = liftSys ok (syncOp master n op arg) s) (hok : ok = true) (hs : sysClocked s.dev = true)
    (hn : n < 65536) (hc : Clean s.dev (objAddr n) 16) (ha : arg < 2 ^ 32) (h : objOp (objPeek s.dev n) op arg = none) :
    Completes c s (fun d => Faulted F.SYNC_STAT_TYPE_ERR 116 n d ∧
      Touches (fun a => a = Reg.SYNC_STAT.addr) s.dev d) := by
  refine completes_sys he hok hs ?_
  rw [syncOp_typeErr hc ha h]
  obtain ⟨⟨bit, obj⟩, pending, frame⟩ := syncTypeErr_reports hn s.dev
  exact ⟨⟨bit, obj, pending⟩, frame⟩

theorem completes_poisoned (he : exec c s = liftSys ok (syncOp master n op arg) s) (hok : ok = true) (hs : sysClocked s.dev = true)
    (hn : n < 65536) (hp : poisoned s.dev (objAddr n / 32) = true) : Completes c s (fun d =>
      gb d Reg.SYNC_STAT F.SYNC_STAT_POISON_OP = true ∧ gf d Reg.SYNC_STAT F.SYNC_STAT_OBJ = n ∧ icPending d 109 = true ∧
      gf d Reg.INTG_PC_CNT F.INTG_PC_CNT_COUNT = min (gf s.dev Reg.INTG_PC_CNT F.INTG_PC_CNT_COUNT + 1) 0x7FFFFFFF ∧
      Touches (fun a => a = Reg.SYNC_STAT.addr ∨ consumed a) s.dev d) := by
  refine completes_sys he hok hs ?_
  rw [syncOp_poisoned hp]
  obtain ⟨⟨bit, obj⟩, pending, count, frame⟩ := syncPoison_reports hn master s.dev
  exact ⟨bit, obj, pending, count, frame⟩

end

/-! ### Reads and writes of an object's words (R667) -/

section
variable {master n : Nat} {d : Dev} (hi : HubIdle d) (hc : Clean d (objAddr n) 16)
include hc

theorem acquireRow_semaphore (ht : (objPeek d n).type = 1) (ho : (objPeek d n).ovf = false) (h1 : 1 ≤ (objPeek d n).value) :
    acquireRow master n d = emit (.busRead master (leBytes 8 (2 ^ 32 + (objPeek d n).value)))
      (objStore n { objPeek d n with value := (objPeek d n).value - 1 } d) := by
  unfold acquireRow tryAcquire
  simp only [objRead_clean hc, ht, ho, ge_iff_le, h1, if_true, Bool.false_eq_true, if_false, busDeliver_clean]

theorem acquireRow_empty (ht : (objPeek d n).type = 1) (h0 : (objPeek d n).value = 0) :
    acquireRow master n d = emit (.busRead master (leBytes 8 0)) d := by
  unfold acquireRow tryAcquire
  simp [objRead_clean hc, ht, h0, busDeliver_clean]

theorem acquireRow_otherType (ht : (objPeek d n).type ≠ 1) :
    acquireRow master n d = emit (.busRead master (leBytes 8 ((objPeek d n).value + 2 ^ 32 * (objPeek d n).param))) d := by
  unfold acquireRow tryAcquire
  simp only [objRead_clean hc, ht, Bool.false_eq_true, if_false, busDeliver_clean]

theorem clean_field {off : Nat} (h : off + 4 ≤ 16) : Clean d (objAddr n + off) 4 := by
  unfold Clean at *
  rw [granRange_object n (by decide) h]
  rwa [← Nat.add_zero (objAddr n), granRange_object n (by decide) (by decide)] at hc

theorem clean_pair {m : Nat} (hm : n = 2 * m) : Clean d (objAddr n) 32 := by
  subst hm
  unfold Clean at *
  rw [granRange_pair]
  rwa [← Nat.add_zero (objAddr (2 * m)), granRange_object _ (by decide) (by decide)] at hc

include hi

theorem fieldRow_stores {off : Nat} (v : Nat) (h : off = 4 ∨ off = 8 ∨ off = 12) :
    fieldRow n off v d = writeMem (objAddr n + off) (leBytes 4 v) false d := by
  have only := memOnly_writeMem (a := objAddr n + off) (bs := leBytes 4 v) (p := false) (d := d)
    (by rw [leBytes_length]; exact clean_field hc (by omega)) hi.disarmed
  unfold fieldRow syncField
  rw [if_pos h, watchesOn_none (only.links ▸ hi.watches)]

/-- A pair write is a store, after which no fault of a wait on the pair counts as reported. -/
theorem syncPair_stores {m : Nat} (hm : n = 2 * m) {bs : List Byte} (p : Bool) (hb : bs.length = 32) :
    syncPair m bs p d = setLinks { d.links with told := d.links.told.filter (fun q => !([2 * m, 2 * m + 1].contains q.2)) }
      (writeMem (objAddr n) bs p d) := by
  have pad : padTo 32 0 (bs.take 32) = bs := by
    rw [List.take_of_length_le hb.le]
    unfold padTo
    rw [hb, Nat.sub_self, List.replicate_zero, List.append_nil]
  have only := memOnly_writeMem (p := p) (hb ▸ clean_pair hc hm) hi.disarmed
  unfold syncPair syncRewritten
  rw [pad, ← hm, only.links, hi.watches]
  simp only [List.map_nil, List.foldl_cons, List.foldl_nil]
  rw [watchesOn_none rfl, watchesOn_none rfl]
  exact congrArg (fun w => setLinks { d.links with watches := w, told := _ } _) hi.watches.symm

end

/-- Settles O48: each operation stores the object that it leaves, or reports its fault; a try-acquire and the writes of words are reads and
stores of the object's granule. -/
theorem objectsTakeTheirOperations : Obligations.ObjectsTakeTheirOperations := by
  intro s master n arg hs hm hn ha d0 o hw hobjs hflip becomes same reported saturates adds
  have hi : HubIdle d0 := ⟨hw, hobjs, hflip⟩
  have fits2 : (decide (master < 256) && decide (n < 65536)) = true := by simp [hm, hn]
  have fits3 : (decide (master < 256) && decide (n < 65536) && decide (arg < 2 ^ 32)) = true :=
    Bool.and_eq_true_iff.mpr ⟨fits2, decide_eq_true ha⟩
  have zero : 0 < 2 ^ 32 := by decide
  have addRow : Clean d0 (objAddr n) 16 → ∀ {c op},
      exec c s = liftSys (decide (master < 256) && decide (n < 65536) && decide (arg < 2 ^ 32)) (syncOp master n op arg) s →
      objOp o op arg = some (objAdd o arg) → adds c := by
    intro hc c op he hop ho
    exact ⟨fun h => completes_becomes he fits3 hs hi hc ha (hop.trans (by rw [objAdd_fits ho h])),
      fun h => completes_saturates he fits3 hs hn hi hc ha (hop.trans (by rw [objAdd_saturates h]))⟩
  refine ⟨fun hc => ⟨fun ht => addRow hc rfl (objOp_counter ht), fun ht => addRow hc rfl (objOp_semaphore ht),
    fun ht => ⟨fun h => ?_, fun h => ?_⟩, fun ht => ?_, fun op k v ht hp hop h1 hk ho hadd hv => ?_, ?_,
    ⟨fun ht ho h => ?_, fun ht h => ?_, fun ht => ?_⟩, fun off hoff => ?_, fun m bs p hnm hb => ?_⟩, fun hp _ => ?_⟩
  · exact completes_becomes rfl fits2 hs hi hc zero ((objOp_barrier ht).trans (if_neg (Nat.not_le.mpr h)))
  · exact completes_becomes rfl fits2 hs hi hc zero ((objOp_barrier ht).trans (if_pos h))
  · exact completes_becomes rfl fits3 hs hi hc ha (objOp_flag ht)
  · subst hv
    have contributes := objOp_reduction ht hp hop h1 hk ho hadd
    exact ⟨fun h => completes_becomes rfl fits3 hs hi hc ha (contributes.trans (if_neg (Nat.not_le.mpr h))),
      fun h => completes_becomes rfl fits3 hs hi hc ha (contributes.trans (if_pos h))⟩
  · simp only [List.forall_mem_cons]
    exact ⟨fun h => completes_typeErr rfl fits3 hs hn hc ha (objOp_otherType h),
      fun h => completes_typeErr rfl fits3 hs hn hc ha (objOp_otherType h),
      fun h => completes_typeErr rfl fits2 hs hn hc zero (objOp_otherType h),
      fun h => completes_typeErr rfl fits3 hs hn hc ha (objOp_otherType h),
      fun h => completes_typeErr rfl fits3 hs hn hc ha (objOp_otherType h), List.forall_mem_nil _⟩
  · refine completes_sys (f := acquireRow master n) rfl fits2 hs ?_
    rw [acquireRow_semaphore hc ht ho h]
    have only := memOnly_objStore hi hc { o with value := o.value - 1 }
    exact ⟨⟨congrArg (· ++ [Out.busRead master (leBytes 8 (2 ^ 32 + o.value))]) only.out, only.rd⟩, stored_objStore hi hc _⟩
  · refine completes_sys (f := acquireRow master n) rfl fits2 hs ?_
    rw [acquireRow_empty hc ht h]
    exact ⟨⟨rfl, fun _ => rfl⟩, rfl⟩
  · refine completes_sys (f := acquireRow master n) rfl fits2 hs ?_
    rw [acquireRow_otherType hc ht]
    exact ⟨⟨rfl, fun _ => rfl⟩, rfl⟩
  · have okField : WellFormed.okField off = true := by
      obtain rfl | rfl | rfl := hoff <;> rfl
    have hc4 : Clean d0 (objAddr n + off) (leBytes 4 arg).length := by
      rw [leBytes_length]
      exact clean_field hc (by omega)
    refine completes_sys (f := fieldRow n off arg) rfl (by simpa [WellFormed.lt, hn, okField] using ha) hs ?_
    rw [fieldRow_stores hi hc arg hoff]
    exact ⟨(writeMem_clean _ _ _ _ hc4 hflip).1, (memOnly_writeMem hc4 hflip).rd⟩
  · refine completes_sys (f := syncPair m bs p) rfl (by simp [WellFormed.lt, hb]; omega) hs ?_
    have hc32 : Clean d0 (objAddr n) bs.length := hb ▸ clean_pair hc hnm
    rw [syncPair_stores hi hc hnm p hb]
    exact ⟨(writeMem_clean _ _ p _ hc32 hflip).1, (memOnly_writeMem (p := p) hc32 hflip).rd⟩
  · simp only [List.forall_mem_cons]
    exact ⟨completes_poisoned rfl fits3 hs hn hp, completes_poisoned rfl fits3 hs hn hp, completes_poisoned rfl fits2 hs hn hp,
      completes_poisoned rfl fits3 hs hn hp, completes_poisoned rfl fits3 hs hn hp, List.forall_mem_nil _⟩

end Sys2Proof.Machine
end

/-! ## DRAM training and recovery -/

section
/-! SUPPORT and settlement of O55. -/

namespace Sys2Proof.Machine

/-! ### Causes of a block (R794) -/

/-- Cause `i` of a block stands, and its source is pending where the cause rose while it was enabled. -/
def CauseSet (stat en : Reg) (i src : Nat) (d e : Dev) : Prop :=
  (rd e stat).getLsbD i = true ∧ ((rd d stat).getLsbD i = false → (rd d en).getLsbD i = true → icPending e src = true)

theorem blkCause_set {stat en : Reg} {i src : Nat} (d : Dev) (hi : i < 64) (hs : src < 512) (hr : ¬ raised stat.addr) :
    CauseSet stat en i src d (blkCause stat en i src d) := by
  refine ⟨blkCause_bit stat en i src d hi hr, fun h0 h1 => ?_⟩
  unfold blkCause whenB
  rw [if_pos (by simp [h0, h1])]
  exact icPending_raise _ _ hs

/-- A cause set after registers of others have been written is set. -/
theorem CauseSet.of_rd_eq {stat en : Reg} {i src : Nat} {d d' e : Dev} (h : CauseSet stat en i src d' e) (hs : rd d' stat = rd d stat)
    (he : rd d' en = rd d en) : CauseSet stat en i src d e := by
  unfold CauseSet at *
  rwa [← hs, ← he]

theorem IrqOnly.blkCause {d e : Dev} (h : IrqOnly d e) (stat en : Reg) (i src : Nat) : IrqOnly d (blkCause stat en i src e) := by
  unfold Machine.blkCause whenB
  exact IrqOnly.ite ((h.sf _ _ _).raise _) (h.sf _ _ _)

/-! ### Training (R524, R776, R797) -/

/-- A DDR_CFG of R776. -/
def DdrLegal (d : Dev) : Prop := gf d Reg.DDR_CFG F.DDR_CFG_CAP ≤ 4 ∧
  (gf d Reg.DDR_CFG F.DDR_CFG_RANKS = 1 ∨ gf d Reg.DDR_CFG F.DDR_CFG_RANKS = 2) ∧ gf d Reg.DDR_CFG F.DDR_CFG_RATE < 3

theorem ddrLegal_iff {d : Dev} : DdrLegal d ↔ ¬ (gf d Reg.DDR_CFG F.DDR_CFG_CAP > 4 ∨ gf d Reg.DDR_CFG F.DDR_CFG_RANKS = 0 ∨
    gf d Reg.DDR_CFG F.DDR_CFG_RANKS = 3 ∨ gf d Reg.DDR_CFG F.DDR_CFG_RATE = 3) := by
  have ranks : gf d Reg.DDR_CFG F.DDR_CFG_RANKS < 4 := fldGet_lt _ _
  have rate : gf d Reg.DDR_CFG F.DDR_CFG_RATE < 4 := fldGet_lt _ _
  unfold DdrLegal
  omega

section
variable {d : Dev}

theorem ddrTrain_legal (hon : domOn d 3 = true) (h0 : d.boot.ddr = 0) (hl : DdrLegal d) :
    ddrTrain d = setBoot { d.boot with ddr := 1 } (sf Reg.DDR_CTL F.DDR_CTL_TRAIN 1 d) := by
  unfold ddrTrain
  dsimp only
  rw [if_neg (by simp [hon, h0]), gf_sf_ne _ _ _ _ (by decide), if_neg (ddrLegal_iff.mp hl)]
  rfl

theorem ddrTrain_illegal (hon : domOn d 3 = true) (h0 : d.boot.ddr = 0) (hl : ¬ DdrLegal d) :
    ddrTrain d = blkCause Reg.DDR_IRQ_STAT Reg.DDR_IRQ_EN 1 59 (sf Reg.DDR_STAT F.DDR_STAT_CFG_ERR 1 (sf Reg.DDR_CTL F.DDR_CTL_TRAIN 1 d)) := by
  unfold ddrTrain
  dsimp only
  rw [if_neg (by simp [hon, h0]), gf_sf_ne _ _ _ _ (by decide),
    if_pos (Classical.not_not.mp fun h => hl (ddrLegal_iff.mpr h))]

theorem ddrTrain_ignored (h : domOn d 3 = false ∨ d.boot.ddr ≠ 0) : ddrTrain d = d :=
  if_pos (by simpa using h)

end

/-! ### The cores' release (R763, R764) -/

section
variable {d : Dev}

theorem coresRelease_other (h : gf d Reg.KEY_BOOT_STAT F.KEY_BOOT_STAT_PHASE ≠ 2) : coresRelease d = d := if_neg fun hx => h hx.1

theorem rd_coresRelease {r : Reg} (h1 : r.addr ≠ Reg.CPU_HOLD.addr) (h2 : r.addr ≠ Reg.CPU_STAT.addr)
    (h3 : r.addr ≠ Reg.KEY_BOOT_STAT.addr) : rd (coresRelease d) r = rd d r := by
  unfold coresRelease
  split
  · rw [rd_sf_ne _ _ _ h3, rd_sf_ne _ _ _ h2, rd_wr_ne _ _ h1]
  · rfl

theorem coresRelease_kept : (coresRelease d).boot = d.boot ∧ (coresRelease d).mem = d.mem := by
  unfold coresRelease
  split <;> exact ⟨rfl, rfl⟩

/-- At the loader's entry, with training over, every core runs. -/
theorem coresRelease_entry (h : gf d Reg.KEY_BOOT_STAT F.KEY_BOOT_STAT_PHASE = 2) (hd : d.boot.ddr ≠ 1) :
    rd (coresRelease d) Reg.CPU_HOLD = 0 ∧ gf (coresRelease d) Reg.CPU_STAT F.CPU_STAT_RUN = 255 ∧
    gf (coresRelease d) Reg.KEY_BOOT_STAT F.KEY_BOOT_STAT_PHASE = 3 := by
  unfold coresRelease
  rw [if_pos ⟨h, hd⟩]
  refine ⟨?_, ?_, gf_sf_same _ _ _ _ (by decide)⟩
  · rw [rd_sf_ne _ _ _ (by decide), rd_sf_ne _ _ _ (by decide), rd_wr_same]
  · rw [gf_sf_ne _ _ _ _ (by decide)]
    exact gf_sf_same _ _ _ _ (by decide)

/-- What is set as a cause stays so while the cores are released. -/
theorem CauseSet.coresRelease {i : Nat} {e : Dev} (h : CauseSet Reg.DDR_IRQ_STAT Reg.DDR_IRQ_EN i 59 d e) :
    CauseSet Reg.DDR_IRQ_STAT Reg.DDR_IRQ_EN i 59 d (coresRelease e) := by
  unfold CauseSet icPending at *
  rwa [rd_coresRelease (by decide) (by decide) (by decide), rd_coresRelease (by decide) (by decide) (by decide)]

end

/-! ### The end of training (R524, R780) -/

/-- The device whose training has ended on every channel, but for the cores' release. -/
def ddrTrained (d : Dev) : Dev :=
  blkCause Reg.DDR_IRQ_STAT Reg.DDR_IRQ_EN 0 59 (sf Reg.DDR_STAT F.DDR_STAT_TRAINED 1 (sf Reg.DDR_STAT F.DDR_STAT_FAIL_CH 0
    (rawClear dramBase (2 ^ 36) (setBoot { d.boot with ddr := 2 } d))))

/-- The device whose training has failed on the channels of a mask, but for the cores' release. -/
def ddrFailed (mask : Nat) (d : Dev) : Dev :=
  blkCause Reg.DDR_IRQ_STAT Reg.DDR_IRQ_EN 1 59 (sf Reg.DDR_STAT F.DDR_STAT_FAIL_CH mask (setBoot { d.boot with ddr := 0 } d))

theorem ddrIrq_quiet : ¬ raised Reg.DDR_IRQ_STAT.addr := by unfold raised; decide

section
variable {d : Dev}

theorem ddrTrainDone_success (h : d.boot.ddr = 1) : ddrTrainDone 0 d = coresRelease (ddrTrained d) := by
  unfold ddrTrainDone
  rw [if_neg (by simp [h])]
  rfl

theorem ddrFail_eq (mask : Nat) (d : Dev) : ddrFail mask d = coresRelease (ddrFailed mask d) := rfl

theorem ddrTrainDone_failure {mask : Nat} (h : d.boot.ddr = 1) (h0 : 0 < mask) (hm : mask < 256) :
    ddrTrainDone mask d = ddrFail mask d := by
  unfold ddrTrainDone
  rw [if_neg (by simp [h]), if_pos (by omega)]

theorem rd_blkCause_ne {stat en q : Reg} {i src : Nat} (d : Dev) (hq : q.addr ≠ stat.addr) (hr : ¬ raised q.addr) :
    rd (blkCause stat en i src d) q = rd d q :=
  ((Touches.refl d).blkCause (w := fun a => a = stat.addr) stat en i src (.inl rfl)).rd_eq q hq hr

/-- Registers outside the DDR block read as before training ended. -/
theorem rd_ddrTrained {r : Reg} (h1 : r.addr ≠ Reg.DDR_STAT.addr) (h2 : r.addr ≠ Reg.DDR_IRQ_STAT.addr) (hr : ¬ raised r.addr) :
    rd (ddrTrained d) r = rd d r := by
  unfold ddrTrained
  rw [rd_blkCause_ne _ h2 hr, rd_sf_ne _ _ _ h1, rd_sf_ne _ _ _ h1]
  rfl

theorem ddrTrained_boot : (ddrTrained d).boot = { d.boot with ddr := 2 } := ((IrqOnly.refl _).blkCause _ _ _ _).boot

theorem ddrTrained_stat : gb (ddrTrained d) Reg.DDR_STAT F.DDR_STAT_TRAINED = true ∧
    gf (ddrTrained d) Reg.DDR_STAT F.DDR_STAT_FAIL_CH = 0 := by
  have keep : rd (ddrTrained d) Reg.DDR_STAT = _ := rd_blkCause_ne _ (by decide) (by unfold raised; decide)
  unfold gb gf
  rw [keep]
  refine ⟨?_, (gf_sf_disj Reg.DDR_STAT F.DDR_STAT_TRAINED F.DDR_STAT_FAIL_CH _ _ (by decide) (by decide)).trans
    (gf_sf_same _ _ _ _ (by decide))⟩
  exact congrArg (· != 0) (gf_sf_same Reg.DDR_STAT F.DDR_STAT_TRAINED 1 _ (by decide))

theorem ddrTrained_cause : CauseSet Reg.DDR_IRQ_STAT Reg.DDR_IRQ_EN 0 59 d (ddrTrained d) :=
  (blkCause_set _ (by decide) (by decide) ddrIrq_quiet).of_rd_eq
    ((rd_sf_ne _ _ _ (by decide)).trans (rd_sf_ne _ _ _ (by decide))) ((rd_sf_ne _ _ _ (by decide)).trans (rd_sf_ne _ _ _ (by decide)))

/-- Initialisation returns every byte of main memory to what nothing has written (R524). -/
theorem ddrTrained_mem (a : Nat) :
    byteAt (ddrTrained d).mem a = if dramBase ≤ a ∧ a < 2 * dramBase then memDefault a else byteAt d.mem a := by
  have mem : (ddrTrained d).mem = d.mem.filter (fun c => !(decide (dramBase ≤ c.1) && decide (c.1 < dramBase + 2 ^ 36))) :=
    ((IrqOnly.refl _).blkCause _ _ _ _).mem
  have twice : dramBase + 2 ^ 36 = 2 * dramBase := by decide
  rw [mem, twice]
  split
  · next h =>
    exact byteAt_filter_out (p := fun a => !(decide (dramBase ≤ a) && decide (a < 2 * dramBase))) _ (by simp [h.1, h.2])
  · next h =>
    unfold byteAt mgetD
    rw [mget_filter_in (p := fun a => !(decide (dramBase ≤ a) && decide (a < 2 * dramBase))) _
      (by simpa only [Bool.not_eq_true', Bool.and_eq_false_iff, decide_eq_false_iff_not, not_and_or] using h)]

theorem ddrFailed_leaves {mask : Nat} (hm : mask < 256) :
    (ddrFailed mask d).boot = { d.boot with ddr := 0 } ∧ gf (ddrFailed mask d) Reg.DDR_STAT F.DDR_STAT_FAIL_CH = mask ∧
    CauseSet Reg.DDR_IRQ_STAT Reg.DDR_IRQ_EN 1 59 d (ddrFailed mask d) ∧
    Touches (fun a => a = Reg.DDR_STAT.addr ∨ a = Reg.DDR_IRQ_STAT.addr) d (ddrFailed mask d) := by
  refine ⟨((IrqOnly.refl _).blkCause _ _ _ _).boot, ?_,
    (blkCause_set _ (by decide) (by decide) ddrIrq_quiet).of_rd_eq (rd_sf_ne _ _ _ (by decide)) (rd_sf_ne _ _ _ (by decide)),
    ((Touches.refl d).mk.sf _ _ _ (.inl (.inl rfl))).blkCause _ _ _ _ (.inl (.inr rfl))⟩
  have keep : rd (ddrFailed mask d) Reg.DDR_STAT = _ := rd_blkCause_ne _ (by decide) (by unfold raised; decide)
  unfold gf
  rw [keep]
  exact (gf_sf_same Reg.DDR_STAT F.DDR_STAT_FAIL_CH mask _ (by decide)).trans (Nat.mod_eq_of_lt hm)

end

/-! ### The end of initialisation (R33, R524) -/

/-- The device once DRAM is initialised, but for adapters and a stored image. -/
def ddrReady (d : Dev) : Dev :=
  blkCause Reg.DDR_IRQ_STAT Reg.DDR_IRQ_EN 2 59 (sf Reg.DDR_STAT F.DDR_STAT_INIT_DONE 1 (sf Reg.SYS_DRAM_TOP F.SYS_DRAM_TOP_TOP
    (16384 * (8 * capBytes (gf d Reg.DDR_CFG F.DDR_CFG_CAP) / 9 / 16384)) (setBoot { d.boot with ddr := 0 } d)))

theorem forN_fixed {f : Nat → Dev → Dev} {d : Dev} (hf : ∀ x, f x d = d) (n : Nat) : forN n f d = d := by
  unfold forN forEach
  induction List.range n with
  | nil => rfl
  | cons x l ih => rw [List.foldl_cons, hf, ih]

section
variable {d : Dev}

/-- With no slot in use and no boot record nothing is read again (R398, R764). -/
theorem ddrInitDone_alone (h2 : d.boot.ddr = 2) (hs : d.slots = {}) (hr : d.boot.rec_ = none) : ddrInitDone [] d = ddrReady d := by
  have only : IrqOnly (setBoot { d.boot with ddr := 0 } d) (ddrReady d) := (((IrqOnly.refl _).sf _ _ _).sf _ _ _).blkCause _ _ _ _
  have noAds : ∀ n s, (sideOf (ddrReady d) n s).ads = [] := by
    have slots : (ddrReady d).slots = {} := only.slots.trans hs
    intro n s
    unfold sideOf mslot
    rw [slots]
    split <;> rfl
  have noRec : (ddrReady d).boot.rec_ = none := (congrArg Boot.rec_ only.boot).trans hr
  unfold ddrInitDone
  rw [if_neg (by simp [h2])]
  dsimp only
  rw [← ddrReady, forN_fixed (fun x => by rw [noAds]; rfl), noRec]

theorem ddrInitDone_ignored (h : d.boot.ddr ≠ 2) (rs : List ReloadIn) : ddrInitDone rs d = d := if_pos h

theorem capBytes_le (c : Nat) : capBytes c ≤ 2 ^ 36 := by
  have cap : ∀ c < 5, [8, 16, 32, 48, 64].getD c 0 ≤ 64 := by decide
  unfold capBytes
  by_cases h : c < 5
  · have := cap c h
    omega
  · rw [List.getD_eq_default _ _ (by simpa using h)]
    decide

theorem ddrReady_leaves :
    (ddrReady d).boot = { d.boot with ddr := 0 } ∧
    gf (ddrReady d) Reg.SYS_DRAM_TOP F.SYS_DRAM_TOP_TOP = 16384 * (8 * capBytes (gf d Reg.DDR_CFG F.DDR_CFG_CAP) / 9 / 16384) ∧
    gb (ddrReady d) Reg.DDR_STAT F.DDR_STAT_INIT_DONE = true ∧
    CauseSet Reg.DDR_IRQ_STAT Reg.DDR_IRQ_EN 2 59 d (ddrReady d) ∧
    Touches (fun a => a = Reg.DDR_STAT.addr ∨ a = Reg.DDR_IRQ_STAT.addr ∨ a = Reg.SYS_DRAM_TOP.addr) d (ddrReady d) := by
  have top : rd (ddrReady d) Reg.SYS_DRAM_TOP = _ := rd_blkCause_ne _ (by decide) (by unfold raised; decide)
  have stat : rd (ddrReady d) Reg.DDR_STAT = _ := rd_blkCause_ne _ (by decide) (by unfold raised; decide)
  refine ⟨((IrqOnly.refl _).blkCause _ _ _ _).boot, ?_, ?_,
    (blkCause_set _ (by decide) (by decide) ddrIrq_quiet).of_rd_eq
      ((rd_sf_ne _ _ _ (by decide)).trans (rd_sf_ne _ _ _ (by decide))) ((rd_sf_ne _ _ _ (by decide)).trans (rd_sf_ne _ _ _ (by decide))),
    (((Touches.refl d).mk.sf _ _ _ (.inl (.inr (.inr rfl)))).sf _ _ _ (.inl (.inl rfl))).blkCause _ _ _ _ (.inl (.inr (.inl rfl)))⟩
  · unfold gf
    rw [top, rd_sf_ne _ _ _ (by decide)]
    refine (gf_sf_same Reg.SYS_DRAM_TOP F.SYS_DRAM_TOP_TOP _ _ (by decide)).trans (Nat.mod_eq_of_lt ?_)
    have := capBytes_le (gf d Reg.DDR_CFG F.DDR_CFG_CAP)
    dsimp only [F.SYS_DRAM_TOP_TOP]
    omega
  · unfold gb gf
    rw [stat]
    exact congrArg (· != 0) (gf_sf_same Reg.DDR_STAT F.DDR_STAT_INIT_DONE 1 _ (by decide))

end

/-! ### The boot record (R766) -/

/-- A CONST_BASE that the boot record takes: 0, or on a 16 KiB step with 2 MiB below the top. -/
def BaseFits (base : Nat) (d : Dev) : Prop := base = 0 ∨ (base % 16384 = 0 ∧ dramBase ≤ base ∧ 2 ^ 21 + base ≤ dramBase + dramTop d)

/-- The device once ARB_BOOT_CFG holds what it was given. -/
def bootCfgGiven (base compat : Nat) (d : Dev) : Dev :=
  sf Reg.ARB_BOOT_CFG F.ARB_BOOT_CFG_COMPAT_EN compat (sf Reg.ARB_BOOT_CFG F.ARB_BOOT_CFG_CONST_BASE base d)

section
variable {base compat : Nat} {d : Dev}

theorem dramTop_bootCfgGiven : dramTop (bootCfgGiven base compat d) = dramTop d :=
  (gf_sf_ne _ _ _ _ (by decide)).trans (gf_sf_ne _ _ _ _ (by decide))

theorem bootCfg_fits (h : BaseFits base d) : bootCfg base compat d = sf Reg.ARB_BOOT_CFG F.ARB_BOOT_CFG_DONE 1
    (setBoot { d.boot with rec_ := some { d.boot.rec_.getD {} with base := base, compat := compat }, next := some (base, compat) }
      (bootCfgGiven base compat d)) :=
  if_pos (dramTop_bootCfgGiven (base := base) (compat := compat) (d := d) ▸ h)

theorem bootCfg_refused (h : ¬ BaseFits base d) :
    bootCfg base compat d = sf Reg.ARB_BOOT_CFG F.ARB_BOOT_CFG_REJ 1 (bootCfgGiven base compat d) :=
  if_neg (dramTop_bootCfgGiven (base := base) (compat := compat) (d := d) ▸ h)

theorem bootCfgGiven_fields (hb : base < 2 ^ 40) (hc : compat < 2) :
    gf (bootCfgGiven base compat d) Reg.ARB_BOOT_CFG F.ARB_BOOT_CFG_CONST_BASE = base ∧
    gf (bootCfgGiven base compat d) Reg.ARB_BOOT_CFG F.ARB_BOOT_CFG_COMPAT_EN = compat := by
  refine ⟨?_, (gf_sf_same _ _ _ _ (by decide)).trans (Nat.mod_eq_of_lt hc)⟩
  exact (gf_sf_disj _ _ _ _ _ (by decide) (by decide)).trans ((gf_sf_same _ _ _ _ (by decide)).trans (Nat.mod_eq_of_lt hb))

/-- DONE or REJ joins what was given, and is all that is written besides. -/
theorem bootCfg_ended {f : Fld} (hb : base < 2 ^ 40) (hc : compat < 2) (hl : f.len = 1) (hlo : 54 ≤ f.lo) (hf : f.lo + f.len ≤ 64)
    (b : Boot) :
    let e := sf Reg.ARB_BOOT_CFG f 1 (setBoot b (bootCfgGiven base compat d))
    gf e Reg.ARB_BOOT_CFG F.ARB_BOOT_CFG_CONST_BASE = base ∧ gf e Reg.ARB_BOOT_CFG F.ARB_BOOT_CFG_COMPAT_EN = compat ∧
    gb e Reg.ARB_BOOT_CFG f = true ∧ Touches (fun a => a = Reg.ARB_BOOT_CFG.addr) d e := by
  obtain ⟨given, compatGiven⟩ := bootCfgGiven_fields (d := d) hb hc
  have frame : Touches (fun a => a = Reg.ARB_BOOT_CFG.addr) d (bootCfgGiven base compat d) :=
    ((Touches.refl (w := fun a => a = Reg.ARB_BOOT_CFG.addr) d).sf _ _ _ (.inl rfl)).sf _ _ _ (.inl rfl)
  refine ⟨(gf_sf_disj _ f F.ARB_BOOT_CFG_CONST_BASE _ _ hf (.inr ?_)).trans given,
    (gf_sf_disj _ f F.ARB_BOOT_CFG_COMPAT_EN _ _ hf (.inr ?_)).trans compatGiven, ?_,
    Touches.sf (e := setBoot b (bootCfgGiven base compat d)) frame.mk _ _ _ (.inl rfl)⟩
  · dsimp only [F.ARB_BOOT_CFG_CONST_BASE]
    omega
  · exact hlo
  · unfold gb
    rw [gf_sf_same _ _ _ _ hf, hl]
    rfl

end

/-! ### Recovery (R764) -/

/-- A boot object in clean memory is read and checked. -/
theorem objLoad_memory {type max a : Nat} {d : Dev} (ha : a < 2 ^ 40) (hm : InMemory a) (hc : accessCause d a max false = none)
    (hcl : Clean d a max) :
    objLoad type max a d = (((rawBytes d a max).take (fieldAt (rawBytes d a max) 0x00C 4), objCheck d type max (rawBytes d a max)), d) := by
  unfold objLoad
  rw [masterRead_memory ha hm hc hcl]

theorem clean_unmarked {d : Dev} (hp : d.poison = []) (he : d.errs = []) (a n : Nat) : Clean d a n := by
  intro g _
  unfold poisoned errOf
  rw [hp, he]
  exact ⟨rfl, rfl⟩

theorem keyRecover_ignored {type : Nat} {d : Dev} (h : gf d Reg.KEY_BOOT_STAT F.KEY_BOOT_STAT_PHASE ≠ 4) : keyRecover type d = d := if_pos h

/-- The firmware object in the arbiter's SRAM runs, or leaves its code. -/
theorem keyRecover_firmware {d : Dev} {b : List Byte} {c : Nat} (h4 : gf d Reg.KEY_BOOT_STAT F.KEY_BOOT_STAT_PHASE = 4)
    (hr : gf d Reg.ARB_STAT F.ARB_STAT_READY = 0) (ho : objLoad 1 0x40000 0x800000 d = ((b, c), d)) :
    keyRecover 1 d = if c = 0 then firmwareRun b (sf Reg.KEY_BOOT_STAT F.KEY_BOOT_STAT_CODE0 0 d)
      else sf Reg.KEY_BOOT_STAT F.KEY_BOOT_STAT_CODE0 c d := by
  unfold keyRecover
  rw [if_neg (by simp [h4]), if_pos ⟨rfl, hr⟩, ho]
  cases c <;> rfl

/-- Settles O55: training, initialisation, the boot record and a recovery each end in the device that their lemma names. -/
theorem dramTrainingAndRecovery : Obligations.DramTrainingAndRecovery := by
  intro s hs d0 top st irq told legal
  refine ⟨fun hon h0 hl => ?_, fun hon h0 hl => ?_, fun h => ?_, fun h1 atEntry hentry => ?_, fun h1 mask c hpos hm hc hphase => ?_,
    fun h1 mask hm => ⟨?_, ?_⟩, fun h2 hslots hrec => ?_, fun h2 => ?_, fun base compat hb hc => ?_, fun type ht hphase => ?_,
    fun h4 hready hcause hp he => ?_⟩
  · refine completes_sys (f := ddrTrain) rfl rfl hs ?_
    rw [ddrTrain_legal hon h0 hl]
    exact ⟨rfl, congrArg (· != 0) (gf_sf_same Reg.DDR_CTL F.DDR_CTL_TRAIN 1 s.dev (by decide)),
      Touches.mk ((Touches.refl s.dev).sf _ _ _ (.inl rfl))⟩
  · refine completes_sys (f := ddrTrain) rfl rfl hs ?_
    rw [ddrTrain_illegal hon h0 hl]
    have stat := rd_blkCause_ne (stat := Reg.DDR_IRQ_STAT) (en := Reg.DDR_IRQ_EN) (q := Reg.DDR_STAT) (i := 1) (src := 59)
      (sf Reg.DDR_STAT F.DDR_STAT_CFG_ERR 1 (sf Reg.DDR_CTL F.DDR_CTL_TRAIN 1 s.dev)) (by decide) (by unfold raised; decide)
    refine ⟨?_, (blkCause_set _ (by decide) (by decide) ddrIrq_quiet).of_rd_eq
        ((rd_sf_ne _ _ _ (by decide)).trans (rd_sf_ne _ _ _ (by decide))) ((rd_sf_ne _ _ _ (by decide)).trans (rd_sf_ne _ _ _ (by decide))),
      (((Touches.refl s.dev).sf _ _ _ (.inl (.inl rfl))).sf _ _ _ (.inl (.inr (.inl rfl)))).blkCause _ _ _ _ (.inl (.inr (.inr rfl)))⟩
    unfold gb gf
    rw [stat]
    exact congrArg (· != 0) (gf_sf_same Reg.DDR_STAT F.DDR_STAT_CFG_ERR 1 _ (by decide))
  · exact completes_sys (f := ddrTrain) rfl rfl hs (ddrTrain_ignored h)
  · refine completes_sys (f := ddrTrainDone 0) rfl rfl hs ?_
    rw [ddrTrainDone_success h1]
    obtain ⟨boot, mem⟩ := coresRelease_kept (d := ddrTrained s.dev)
    obtain ⟨trained, failCh⟩ := ddrTrained_stat (d := s.dev)
    have stat : rd (coresRelease (ddrTrained s.dev)) Reg.DDR_STAT = rd (ddrTrained s.dev) Reg.DDR_STAT :=
      rd_coresRelease (by decide) (by decide) (by decide)
    have phase : rd (ddrTrained s.dev) Reg.KEY_BOOT_STAT = rd s.dev Reg.KEY_BOOT_STAT :=
      rd_ddrTrained (by decide) (by decide) (by unfold raised; decide)
    have phaseEq : gf (ddrTrained s.dev) Reg.KEY_BOOT_STAT F.KEY_BOOT_STAT_PHASE = gf s.dev Reg.KEY_BOOT_STAT F.KEY_BOOT_STAT_PHASE := by
      unfold gf
      rw [phase]
    refine ⟨?_, ?_, ?_, ddrTrained_cause.coresRelease, fun a => ?_, fun h => ?_, fun h => ?_⟩
    · rw [boot, ddrTrained_boot]
    · unfold gb gf
      rw [stat]
      exact trained
    · unfold gf
      rw [stat]
      exact failCh
    · rw [mem]
      exact ddrTrained_mem a
    · refine coresRelease_entry (phaseEq.trans (of_decide_eq_true (hentry.trans h))) ?_
      rw [ddrTrained_boot]
      exact (by decide : 2 ≠ 1)
    · rw [coresRelease_other (by rw [phaseEq]; exact of_decide_eq_false (hentry.trans h))]
      exact ⟨rd_ddrTrained (by decide) (by decide) (by unfold raised; decide), phase⟩
  · have fails : Completes c s (fun d => d = ddrFail mask s.dev) := by
      obtain rfl | rfl := hc
      · exact completes_sys (f := ddrTrainDone mask) rfl (decide_eq_true hm) hs (ddrTrainDone_failure h1 hpos hm)
      · exact completes_sys (f := ddrTimeout mask) rfl (decide_eq_true hm) hs (if_pos h1)
    obtain ⟨t, hexec, hpend, hdev⟩ := fails
    refine ⟨t, hexec, hpend, ?_⟩
    obtain ⟨boot, failCh, cause, frame⟩ := ddrFailed_leaves (d := s.dev) hm
    have phaseEq : gf (ddrFailed mask s.dev) Reg.KEY_BOOT_STAT F.KEY_BOOT_STAT_PHASE = gf s.dev Reg.KEY_BOOT_STAT F.KEY_BOOT_STAT_PHASE :=
      frame.gf_eq _ _ (by decide) (by unfold raised; decide)
    rw [hdev, ddrFail_eq, coresRelease_other (by rw [phaseEq]; exact hphase)]
    exact ⟨boot, failCh, cause, frame⟩
  · exact completes_sys (f := ddrTrainDone mask) rfl (decide_eq_true hm) hs (if_pos h1)
  · exact completes_sys (f := ddrTimeout mask) rfl (decide_eq_true hm) hs (if_neg h1)
  · refine completes_sys (f := ddrInitDone []) rfl rfl hs ?_
    rw [ddrInitDone_alone h2 hslots hrec]
    obtain ⟨boot, leaves⟩ := ddrReady_leaves (d := s.dev)
    exact ⟨by rw [boot], leaves⟩
  · exact completes_sys (f := ddrInitDone []) rfl rfl hs (ddrInitDone_ignored h2 [])
  · intro fits
    refine completes_sys (f := bootCfg base compat) rfl (Bool.and_eq_true_iff.mpr ⟨decide_eq_true hb, decide_eq_true hc⟩) hs ?_
    by_cases hfit : BaseFits base s.dev
    · rw [bootCfg_fits hfit]
      obtain ⟨hbase, hcompat, done, frame⟩ := bootCfg_ended (d := s.dev) (f := F.ARB_BOOT_CFG_DONE) hb hc rfl (by decide) (by decide)
        { s.dev.boot with rec_ := some { s.dev.boot.rec_.getD {} with base := base, compat := compat }, next := some (base, compat) }
      exact ⟨hbase, hcompat, fun _ => ⟨done, rfl, rfl⟩, fun h => absurd hfit h, frame⟩
    · rw [bootCfg_refused hfit]
      obtain ⟨hbase, hcompat, rej, frame⟩ := bootCfg_ended (d := s.dev) (f := F.ARB_BOOT_CFG_REJ) hb hc rfl (by decide) (by decide) s.dev.boot
      exact ⟨hbase, hcompat, fun h => absurd h hfit, fun _ => ⟨rej, rfl⟩, frame⟩
  · exact completes_sys (f := keyRecover type) rfl (decide_eq_true ht) hs (keyRecover_ignored hphase)
  · refine completes_sys (f := keyRecover 1) rfl rfl hs ?_
    rw [keyRecover_firmware h4 hready (objLoad_memory (by decide) (.inr (.inl (by decide))) hcause (clean_unmarked hp he _ _))]
    refine ⟨fun h0 => if_pos h0, fun h0 => ?_⟩
    rw [if_neg h0]
    exact ⟨gf_sf_same _ _ _ _ (by decide), (Touches.refl s.dev).sf _ _ _ (.inl rfl)⟩

end Sys2Proof.Machine
end

/-! ## PCIe and the application cores -/

section
/-! SUPPORT and settlement of O60. -/

namespace Sys2Proof.Machine

/-! ### Single bits -/

theorem gb_bit (d : Dev) (r : Reg) (i : Nat) : gb d r ⟨i, 1⟩ = (rd d r).getLsbD i := by
  unfold gb gf fldGet
  rw [BitVec.extractLsb'_toNat, BitVec.getLsbD, Nat.testBit_eq_decide_div_mod_eq, Nat.shiftRight_eq_div_pow]
  obtain h | h : (rd d r).toNat / 2 ^ i % 2 = 0 ∨ (rd d r).toNat / 2 ^ i % 2 = 1 := by omega
  all_goals simp [h]

/-- The number with a bit for each member of a list that passes a test. -/
theorem testBit_foldl_or (q : Nat → Bool) (l : List Nat) (m c : Nat) :
    (l.foldl (fun m k => if q k then m ||| 2 ^ k else m) m).testBit c = (m.testBit c || (decide (c ∈ l) && q c)) := by
  induction l generalizing m with
  | nil => simp
  | cons k l ih =>
    rw [List.foldl_cons, ih]
    by_cases hk : c = k
    · subst hk
      by_cases hq : q c <;> simp [hq]
    · by_cases hq : q k <;> simp [hq, hk, Nat.testBit_or, Ne.symm hk]

/-! ### The link (R780, R794) -/

/-- Cause `i` of PCIe in terms of its field. -/
theorem pcieCause_set {i : Nat} {d d' : Dev} (hi : i < 64) (hs : rd d' Reg.PCIE_IRQ_STAT = rd d Reg.PCIE_IRQ_STAT)
    (he : rd d' Reg.PCIE_IRQ_EN = rd d Reg.PCIE_IRQ_EN) : gb (pcieCause i d') Reg.PCIE_IRQ_STAT ⟨i, 1⟩ = true ∧
    (gb d Reg.PCIE_IRQ_STAT ⟨i, 1⟩ = false → (rd d Reg.PCIE_IRQ_EN).getLsbD i = true → icPending (pcieCause i d') 48 = true) := by
  rw [gb_bit, gb_bit]
  exact (blkCause_set d' hi (by decide) (by unfold raised; decide)).of_rd_eq hs he

section
variable {d : Dev}

theorem pcieFail_sets (he : gb d Reg.PCIE_CTL F.PCIE_CTL_EN = true) (hu : ¬ gb d Reg.PCIE_STAT F.PCIE_STAT_LINK_UP = true) :
    pcieFail d = pcieCause 1 d := if_pos (by simp [he, hu])

theorem pcieFail_ignored (h : gb d Reg.PCIE_CTL F.PCIE_CTL_EN = false ∨ gb d Reg.PCIE_STAT F.PCIE_STAT_LINK_UP = true) :
    pcieFail d = d := if_neg (by obtain h | h := h <;> simp [h])

/-- PCIE_STAT once the link is up, at the rate and width reached. -/
def pcieShown (r w : Nat) (d : Dev) : Dev :=
  sf Reg.PCIE_STAT F.PCIE_STAT_WIDTH (min w (gf d Reg.PCIE_CTL F.PCIE_CTL_WIDTH_MAX)) (sf Reg.PCIE_STAT F.PCIE_STAT_RATE
    (min r (gf d Reg.PCIE_CTL F.PCIE_CTL_RATE_MAX)) (sf Reg.PCIE_STAT F.PCIE_STAT_LINK_UP 1 d))

theorem pcieUp_enabled {r w : Nat} (he : gb d Reg.PCIE_CTL F.PCIE_CTL_EN = true) : pcieUp r w d = pcieCause 0 (pcieShown r w d) := if_pos he

theorem pcieUp_disabled {r w : Nat} (he : ¬ gb d Reg.PCIE_CTL F.PCIE_CTL_EN = true) : pcieUp r w d = d := if_neg he

theorem pcieShown_fields {r w : Nat} (hr : r < 6) (hw : w < 5) : gb (pcieShown r w d) Reg.PCIE_STAT F.PCIE_STAT_LINK_UP = true ∧
    gf (pcieShown r w d) Reg.PCIE_STAT F.PCIE_STAT_RATE = min r (gf d Reg.PCIE_CTL F.PCIE_CTL_RATE_MAX) ∧
    gf (pcieShown r w d) Reg.PCIE_STAT F.PCIE_STAT_WIDTH = min w (gf d Reg.PCIE_CTL F.PCIE_CTL_WIDTH_MAX) := by
  unfold pcieShown
  refine ⟨?_, ?_, ?_⟩
  · unfold gb
    rw [gf_sf_disj _ _ _ _ _ (by decide) (by decide), gf_sf_disj _ _ _ _ _ (by decide) (by decide), gf_sf_same _ _ _ _ (by decide)]
    rfl
  · rw [gf_sf_disj _ _ _ _ _ (by decide) (by decide), gf_sf_same _ _ _ _ (by decide)]
    exact Nat.mod_eq_of_lt (lt_of_le_of_lt (Nat.min_le_left _ _) (hr.trans (by decide)))
  · rw [gf_sf_same _ _ _ _ (by decide)]
    exact Nat.mod_eq_of_lt (lt_of_le_of_lt (Nat.min_le_left _ _) (hw.trans (by decide)))

theorem rd_pcieShown {r w : Nat} {q : Reg} (h : q.addr ≠ Reg.PCIE_STAT.addr) : rd (pcieShown r w d) q = rd d q :=
  (rd_sf_ne _ _ _ h).trans ((rd_sf_ne _ _ _ h).trans (rd_sf_ne _ _ _ h))

end

/-! ### Counting at a block -/

/-- A block's counter sticks at its top; its overflow is told as cause 4. -/
theorem blkCount_leaves {r stat en : Reg} {src : Nat} (n : Nat) (d : Dev) (hr : ¬ raised r.addr) (hs : r.addr ≠ stat.addr)
    (hsrc : src < 16 ∨ 32 ≤ src) :
    (blkCount r stat en src n d).out = d.out ∧ gf (blkCount r stat en src n d) r ⟨0, 31⟩ = min (gf d r ⟨0, 31⟩ + n) 0x7FFFFFFF ∧
    Touches (fun a => a = r.addr ∨ a = stat.addr) d (blkCount r stat en src n d) := by
  have count : gf (sf r ⟨0, 31⟩ (min (gf d r ⟨0, 31⟩ + n) 0x7FFFFFFF) d) r ⟨0, 31⟩ = min (gf d r ⟨0, 31⟩ + n) 0x7FFFFFFF :=
    (gf_sf_same _ _ _ _ (by decide)).trans (Nat.mod_eq_of_lt (lt_of_le_of_lt (Nat.min_le_right _ _) (by decide)))
  unfold blkCount
  dsimp only
  split
  · refine ⟨?_, ?_, (((Touches.refl d).sf _ _ _ (.inl (.inl rfl))).sf _ _ _ (.inl (.inl rfl))).blkCause _ _ _ _ (.inl (.inr rfl))⟩
    · unfold blkCause whenB
      dsimp only
      split
      · exact out_raise _ _ hsrc
      · rfl
    · refine Eq.trans ?_ count
      unfold gf
      rw [rd_blkCause_ne _ hs hr]
      exact gf_sf_disj r ⟨31, 1⟩ ⟨0, 31⟩ _ _ (by decide) (by decide)
  · exact ⟨rfl, count, (Touches.refl d).sf _ _ _ (.inl (.inl rfl))⟩

/-! ### The configuration window (R44, R778) -/

/-- A configuration access is complete: its master is told, a read with bytes. -/
def cfgDone (master : Nat) (write : Bool) (bs : List Byte) (d : Dev) : Dev :=
  emit (if write then .busWrote master else .busRead master bs) d

/-- One that nothing answers is complete with all-ones and counted. -/
def cfgFailed (master n : Nat) (write : Bool) (d : Dev) : Dev :=
  cfgDone master write (List.replicate n 0xFF) (blkCount Reg.PCIE_CFG_ERR Reg.PCIE_IRQ_STAT Reg.PCIE_IRQ_EN 48 1 d)

/-- The root port's own header after a write of `n` bytes at register `r`. -/
def cfgWritten (r n : Nat) (data : List Byte) (m : FMap Byte) : FMap Byte :=
  (List.range n).foldl (fun m i => if cfgWritable (r + i) then mput m (r + i) (data.getD i 0) else m) m

theorem cfgFailed_leaves (master n : Nat) (write : Bool) (d : Dev) :
    (cfgFailed master n write d).out = d.out ++ [if write then .busWrote master else .busRead master (List.replicate n 0xFF)] ∧
    gf (cfgFailed master n write d) Reg.PCIE_CFG_ERR ⟨0, 31⟩ = min (gf d Reg.PCIE_CFG_ERR ⟨0, 31⟩ + 1) 0x7FFFFFFF ∧
    Touches (fun a => a = Reg.PCIE_CFG_ERR.addr ∨ a = Reg.PCIE_IRQ_STAT.addr) d (cfgFailed master n write d) := by
  obtain ⟨out, count, frame⟩ := blkCount_leaves (r := Reg.PCIE_CFG_ERR) (stat := Reg.PCIE_IRQ_STAT) (en := Reg.PCIE_IRQ_EN) (src := 48) 1 d
    (by unfold raised; decide) (by decide) (by decide)
  exact ⟨congrArg (· ++ _) out, count, frame.emit _⟩

/-- The bytes that software writes are stored, and every other byte stays (R778). -/
theorem mgetD_cfgWritten (r n : Nat) (data : List Byte) (m : FMap Byte) (k : Nat) (x : Byte) :
    mgetD (cfgWritten r n data m) k x = if r ≤ k ∧ k < r + n ∧ cfgWritable k = true then data.getD (k - r) 0 else mgetD m k x := by
  unfold cfgWritten
  induction n with
  | zero => rw [if_neg (by omega)]; rfl
  | succ n ih =>
    rw [List.range_succ, List.foldl_append, List.foldl_cons, List.foldl_nil]
    by_cases hk : k = r + n
    · subst hk
      by_cases hw : cfgWritable (r + n) = true
      · rw [if_pos hw, mgetD_mput_same, if_pos ⟨by omega, by omega, hw⟩, Nat.add_sub_cancel_left]
      · rw [if_neg hw, ih, if_neg (fun h => hw h.2.2), if_neg (fun h => hw h.2.2)]
    · have same : (r ≤ k ∧ k < r + (n + 1) ∧ cfgWritable k = true) ↔ (r ≤ k ∧ k < r + n ∧ cfgWritable k = true) := by
        constructor <;> rintro ⟨h1, h2, h3⟩ <;> exact ⟨h1, by omega, h3⟩
      simp only [same]
      split
      · rw [mgetD_mput_ne _ _ _ hk, ih]
      · exact ih

section
variable {master o n : Nat} {write : Bool} {data : List Byte} {answer : Option (List Byte)} {d : Dev}

theorem pcieConfig_endpoint (he : d.part.endpoint = true) :
    pcieConfig master o n write data answer d = busFail causeUnmapped master write (0x7FF0000000 + o) n d := if_pos he

theorem pcieConfig_domainOff (he : d.part.endpoint = false) (hd : domServes d 4 = false) :
    pcieConfig master o n write data answer d = busFail causeDomainOff master write (0x7FF0000000 + o) n d := by
  unfold pcieConfig
  dsimp only
  rw [if_neg (by simp [he]), if_pos (by simp [hd])]

theorem pcieConfig_align (he : d.part.endpoint = false) (hd : domServes d 4 = true) (hw : ¬ ((n = 1 ∨ n = 2 ∨ n = 4) ∧ o % n = 0)) :
    pcieConfig master o n write data answer d = busFail causeAlign master write (0x7FF0000000 + o) n d := by
  have narrow : (!(n == 1 || n == 2 || n == 4) || o % n != 0 || decide (2 ^ 28 ≤ o)) = true := by
    simp only [Bool.or_eq_true, Bool.not_eq_true', Bool.or_eq_false_iff, beq_eq_false_iff_ne, bne_iff_ne, decide_eq_true_eq]
    tauto
  unfold pcieConfig
  dsimp only
  rw [if_neg (by simp [he]), if_neg (by simp [hd]), if_pos narrow]

variable (he : d.part.endpoint = false) (hd : domServes d 4 = true) (hw : (n = 1 ∨ n = 2 ∨ n = 4) ∧ o % n = 0) (ho : o < 2 ^ 28)
include he hd hw ho

/-- An access of a natural width at a root port whose domain serves goes by its bus and function. -/
theorem pcieConfig_served : pcieConfig master o n write data answer d =
    if o / 2 ^ 20 = 0 then
      if o / 4096 % 256 ≠ 0 then cfgFailed master n write d
      else if write then cfgDone master write [] (setPeriph { d.periph with cfgSpace := cfgWritten (o % 4096) n data d.periph.cfgSpace } d)
      else cfgDone master write ((List.range n).map (fun i => cfgByte d (o % 4096 + i))) d
    else if o / 2 ^ 20 < (cfgByte d 0x19).toNat ∨ (cfgByte d 0x1A).toNat < o / 2 ^ 20 ∨ gf d Reg.PCIE_STAT F.PCIE_STAT_LINK_UP = 0 then
      cfgFailed master n write d
    else
      let e := emit (.pcieCfg (o / 2 ^ 20 != (cfgByte d 0x19).toNat) o write (if write then data.take n else [])) d
      match answer with
      | some bs => cfgDone master write (padTo n 0 (bs.take n)) e
      | none => cfgFailed master n write e := by
  have wide : ¬ (!(n == 1 || n == 2 || n == 4) || o % n != 0 || decide (2 ^ 28 ≤ o)) = true := by
    obtain ⟨hn, hz⟩ := hw
    simp only [Bool.or_eq_true, Bool.not_eq_true', Bool.or_eq_false_iff, beq_eq_false_iff_ne, bne_iff_ne, decide_eq_true_eq]
    omega
  have bus : o / 2 ^ 20 % 256 = o / 2 ^ 20 := Nat.mod_eq_of_lt (by omega)
  unfold pcieConfig
  dsimp only
  rw [if_neg (by simp [he]), if_neg (by simp [hd]), if_neg wide, bus]
  cases write <;> cases answer <;> rfl

end
/-! ### The application cores (R798) -/

/-- The cores that run after a write of CPU_HOLD: those not held that were held or ran. -/
def coreRuns (v : Nat) (d : Dev) (c : Nat) : Bool :=
  !(v % 256).testBit c && ((gf d Reg.CPU_HOLD F.CPU_HOLD_HOLD).testBit c || (gf d Reg.CPU_STAT F.CPU_STAT_RUN).testBit c)

theorem foldl_coreRuns (v : Nat) (d : Dev) : ((List.range 8).foldl (fun m c =>
    let was := (gf d Reg.CPU_STAT F.CPU_STAT_RUN).testBit c
    if (v % 256).testBit c then m else if (gf d Reg.CPU_HOLD F.CPU_HOLD_HOLD).testBit c || was then m ||| 2 ^ c else m) 0) =
    (List.range 8).foldl (fun m c => if coreRuns v d c then m ||| 2 ^ c else m) 0 := by
  congr 1
  funext m c
  unfold coreRuns
  cases (v % 256).testBit c <;> simp

theorem cpuHold_leaves (v : Nat) (d : Dev) : gf (cpuHold v d) Reg.CPU_HOLD F.CPU_HOLD_HOLD = v % 256 ∧
    (∀ c, c < 8 → (gf (cpuHold v d) Reg.CPU_STAT F.CPU_STAT_RUN).testBit c =
      (!v.testBit c && ((gf d Reg.CPU_HOLD F.CPU_HOLD_HOLD).testBit c || (gf d Reg.CPU_STAT F.CPU_STAT_RUN).testBit c))) ∧
    Touches (fun a => a = Reg.CPU_HOLD.addr ∨ a = Reg.CPU_STAT.addr) d (cpuHold v d) := by
  unfold cpuHold
  dsimp only
  refine ⟨?_, fun c hc => ?_, (((Touches.refl d).sf _ _ _ (.inl (.inl rfl))).sf _ _ _ (.inl (.inr rfl))).sf _ _ _ (.inl (.inr rfl))⟩
  · rw [gf_sf_ne _ _ _ _ (by decide), gf_sf_ne _ _ _ _ (by decide), gf_sf_same _ _ _ _ (by decide)]
    exact Nat.mod_mod _ _
  · rw [gf_sf_disj _ _ _ _ _ (by decide) (by decide), gf_sf_same _ _ _ _ (by decide), foldl_coreRuns]
    have held : (v % 256).testBit c = v.testBit c := by simpa [hc] using Nat.testBit_mod_two_pow v 8 c
    have width : F.CPU_STAT_RUN.len = 8 := rfl
    rw [width, Nat.testBit_mod_two_pow, testBit_foldl_or]
    simp [hc, coreRuns, held]

theorem cpuFreq_step {v : Nat} (d : Dev) (hv : v < 4096) (h : 400 ≤ v ∧ v ≤ 2000 ∧ v % 25 = 0) :
    cpuFreq v d = sf Reg.CPU_FREQ F.CPU_FREQ_MHZ v d := by
  unfold cpuFreq
  dsimp only
  rw [Nat.mod_eq_of_lt hv, if_pos h]

theorem cpuFreq_ignored {v : Nat} (d : Dev) (hv : v < 4096) (h : v < 400 ∨ 2000 < v ∨ v % 25 ≠ 0) : cpuFreq v d = d := by
  unfold cpuFreq
  dsimp only
  rw [Nat.mod_eq_of_lt hv, if_neg (by omega)]

/-! ### The obligation -/

/-- Settles O60. Each row by the equation of its case; `pcieConfig_served` says by its bus and function how the window answers. -/
theorem pcieAndCoresAreControlled : Obligations.PcieAndCoresAreControlled := by
  unfold Obligations.PcieAndCoresAreControlled
  intro s master off n v data answer hs hm hoff hn hv
  dsimp only
  have okAcc : (decide (master < 256) && decide (off < 2 ^ 28) && decide (n < 33)) = true := by
    simp only [Bool.and_eq_true, decide_eq_true_eq]
    omega
  have accOf : ∀ (wr : Bool) (P : Dev → Prop), P (pcieConfig master off n wr data answer s.dev) →
      Completes (.pcieConfigAccess master off n wr data answer) s P := fun wr P =>
    completes_sys (f := pcieConfig master off n wr data answer) rfl okAcc hs
  have addr : 0x7FF0000000 + off < 2 ^ 53 := by omega
  have down : ¬ gb s.dev Reg.PCIE_STAT F.PCIE_STAT_LINK_UP = true → gf s.dev Reg.PCIE_STAT F.PCIE_STAT_LINK_UP = 0 := fun h => by
    simpa [gb] using h
  have below : gb s.dev Reg.PCIE_STAT F.PCIE_STAT_LINK_UP = true → (cfgByte s.dev 0x19).toNat ≤ off / 2 ^ 20 →
      off / 2 ^ 20 ≤ (cfgByte s.dev 0x1A).toNat → ¬ (off / 2 ^ 20 < (cfgByte s.dev 0x19).toNat ∨ (cfgByte s.dev 0x1A).toNat < off / 2 ^ 20 ∨
        gf s.dev Reg.PCIE_STAT F.PCIE_STAT_LINK_UP = 0) := fun hup hsec hsub => by
    have linked : gf s.dev Reg.PCIE_STAT F.PCIE_STAT_LINK_UP ≠ 0 := by simpa [gb] using hup
    omega
  refine ⟨?_, fun hen => ?_, fun hup => ?_, fun hen hup => ?_, fun r w hr0 hr hw0 hw => ⟨fun hen => ?_, fun hen => ?_⟩,
    fun wr => ⟨fun he => ?_, fun he hd => ?_, fun he hd hwide => ?_, fun he hd hwide => ⟨fun hbus hfn => ?_, fun hbus hup => ?_,
      fun hbus hup hsec hsub => ⟨fun ha => ?_, fun bs ha hlen => ?_⟩⟩⟩,
    fun he hd hwide hbus hfn => ⟨?_, fun hlen => ?_⟩, ?_, fun hv4 h1 h2 h3 => ?_, fun hv4 h => ?_⟩
  · refine completes_sys (f := pcieTrain) rfl rfl hs ⟨?_, (Touches.refl s.dev).sf _ _ _ (.inl rfl)⟩
    unfold gb pcieTrain
    rw [gf_sf_same _ _ _ _ (by decide)]
    rfl
  · exact completes_sys (f := pcieFail) rfl rfl hs (pcieFail_ignored (.inl (Bool.eq_false_iff.mpr hen)))
  · exact completes_sys (f := pcieFail) rfl rfl hs (pcieFail_ignored (.inr hup))
  · refine completes_sys (f := pcieFail) rfl rfl hs ?_
    rw [pcieFail_sets hen hup]
    exact ⟨pcieCause_set (by decide) rfl rfl, (Touches.refl s.dev).blkCause _ _ _ _ (.inl rfl)⟩
  · exact completes_sys (f := pcieUp r w) rfl (by simp [WellFormed.lt, *]) hs (pcieUp_disabled hen)
  · refine completes_sys (f := pcieUp r w) rfl (by simp [WellFormed.lt, *]) hs ?_
    rw [pcieUp_enabled hen]
    have keeps : ∀ q : Reg, q.addr = Reg.PCIE_STAT.addr → rd (pcieCause 0 (pcieShown r w s.dev)) q = rd (pcieShown r w s.dev) q := fun q hq =>
      rd_blkCause_ne _ (by rw [hq]; decide) (by rw [hq]; unfold raised; decide)
    obtain ⟨up, rate, width⟩ := pcieShown_fields (d := s.dev) hr hw
    refine ⟨?_, ?_, ?_, pcieCause_set (by decide) (rd_pcieShown (by decide)) (rd_pcieShown (by decide)), ?_⟩
    · rw [← up]
      unfold gb gf
      rw [keeps _ rfl]
    · rw [← rate]
      unfold gf
      rw [keeps _ rfl]
    · rw [← width]
      unfold gf
      rw [keeps _ rfl]
    · exact ((((Touches.refl s.dev).sf _ _ _ (.inl (.inl rfl))).sf _ _ _ (.inl (.inl rfl))).sf _ _ _ (.inl (.inl rfl))).blkCause _ _ _ _
        (.inl (.inr rfl))
  · refine accOf wr _ ?_
    rw [pcieConfig_endpoint he]
    exact busFail_errored _ _ _ _ _ _ (by decide) hm addr
  · refine accOf wr _ ?_
    rw [pcieConfig_domainOff he hd]
    exact busFail_errored _ _ _ _ _ _ (by decide) hm addr
  · refine accOf wr _ ?_
    rw [pcieConfig_align he hd hwide]
    exact busFail_errored _ _ _ _ _ _ (by decide) hm addr
  · refine accOf wr _ ?_
    rw [pcieConfig_served he hd hwide hoff, if_pos hbus, if_pos hfn, List.append_nil]
    exact cfgFailed_leaves master n wr s.dev
  · refine accOf wr _ ?_
    rw [pcieConfig_served he hd hwide hoff, if_neg hbus, if_pos (.inr (.inr (down hup))), List.append_nil]
    exact cfgFailed_leaves master n wr s.dev
  · refine accOf wr _ ?_
    rw [pcieConfig_served he hd hwide hoff, if_neg hbus, if_neg (below hup hsec hsub), ha]
    obtain ⟨out, count, frame⟩ := cfgFailed_leaves master n wr (emit (.pcieCfg (off / 2 ^ 20 != (cfgByte s.dev 0x19).toNat) off wr
      (if wr then data.take n else [])) s.dev)
    exact ⟨out, count, ((Touches.refl s.dev).emit _).trans frame⟩
  · refine accOf wr _ ?_
    rw [pcieConfig_served he hd hwide hoff, if_neg hbus, if_neg (below hup hsec hsub), ha]
    have whole : padTo n 0 (bs.take n) = bs := by simp [padTo, hlen, List.take_of_length_le]
    dsimp only
    rw [whole]
    exact ⟨rfl, ((Touches.refl s.dev).emit _).emit _⟩
  · refine accOf false _ ?_
    rw [pcieConfig_served he hd hwide hoff, if_pos hbus, if_neg (not_not.mpr hfn), List.append_nil]
    exact ⟨rfl, (Touches.refl s.dev).emit _⟩
  · refine accOf true _ ?_
    rw [pcieConfig_served he hd hwide hoff, if_pos hbus, if_neg (not_not.mpr hfn), List.append_nil]
    exact ⟨rfl, (Touches.mk (Touches.refl s.dev)).emit _, fun k => mgetD_cfgWritten _ _ _ _ _ _⟩
  · exact completes_sys (f := cpuHold v) rfl (decide_eq_true hv) hs (cpuHold_leaves v s.dev)
  · refine completes_sys (f := cpuFreq v) rfl (decide_eq_true hv) hs ?_
    rw [cpuFreq_step s.dev hv4 ⟨h1, h2, h3⟩]
    exact ⟨(gf_sf_same _ _ _ _ (by decide)).trans (Nat.mod_eq_of_lt hv4), (Touches.refl s.dev).sf _ _ _ (.inl rfl)⟩
  · exact completes_sys (f := cpuFreq v) rfl (decide_eq_true hv) hs (cpuFreq_ignored s.dev hv4 h)

end Sys2Proof.Machine
end

/-! ## Messages for this device -/

section
/-! SUPPORT and settlement of O45. -/

namespace Sys2Proof.Machine

/-! ### Arrival (R645) -/

theorem arrive_here {n : Nat} {m : Msg} {f : Msg → Dev → Dev} {d : Dev} (h : m.dst = devId d) : arrive n m f d = f m d := if_pos h

/-- A row whose messages arrive on a port does with one for this device what its handler does. -/
theorem completes_arrive {s : State} {n k : Nat} {m : Msg} {c : Instr} {P : Dev → Prop} (f : Msg → Dev → Dev)
    (he : exec c s = liftSys (decide (n < 4) && WellFormed.okMsg m) (arrive n { m with kind := k } f) s)
    (hs : sysClocked s.dev = true) (hn : n < 4) (hm : WellFormed.okMsg m = true) (hd : m.dst = devId s.dev)
    (hP : P (f { m with kind := k } s.dev)) : Completes c s P := by
  refine completes_sys he (Bool.and_eq_true_iff.mpr ⟨decide_eq_true hn, hm⟩) hs ?_
  rwa [arrive_here (m := { m with kind := k }) hd]

/-- A well-formed message reads at most 64 granules and carries granules of 32 bytes (R644). -/
theorem okMsg_granules {m : Msg} (h : WellFormed.okMsg m = true) : m.len ≤ 64 ∧ ∀ g ∈ m.data, g.1.length = 32 := by
  simp only [WellFormed.okMsg, WellFormed.lt, Bool.and_eq_true, decide_eq_true_eq, List.all_eq_true] at h
  obtain ⟨⟨⟨-, len⟩, -⟩, bytes⟩ := h
  exact ⟨by omega, bytes⟩

theorem padTo_of_length {α : Type} {n : Nat} {x : α} {l : List α} (h : l.length = n) : padTo n x l = l := by
  unfold padTo
  rw [h, Nat.sub_self, List.replicate_zero, List.append_nil]

/-! ### READ and WRITE (R27, R38) -/

theorem region_dram_iff {a : Nat} : region a = .dram ↔ 0x1000000000 ≤ a ∧ a < 0x2000000000 := by
  constructor
  · intro h
    by_contra hn
    refine absurd h ?_
    unfold region
    rw [if_neg hn]
    repeat' refine iteInduction (motive := (· ≠ Region.dram)) (fun _ => ?_) (fun _ => ?_)
    all_goals exact Region.noConfusion
  · rintro ⟨h1, h2⟩
    unfold region
    repeat rw [if_neg (by omega)]
    rw [if_pos ⟨h1, h2⟩]

section
variable {n : Nat} {m : Msg} {d : Dev}

/-- An access that waits neither for its domain nor behind another is performed. -/
theorem linkHold_ready {write : Bool} {k : Dev → Dev}
    (hw : accessWaits d (m.addr / 32 * 32) (if write then 32 * m.data.length else 32 * m.len) write = false) (hh : heldBefore d (0x40 + n) (m.addr / 32 * 32) d.boot.held.length = false) : linkHold n m write k d = k d :=
  if_neg (by rw [hw, hh]; exact Bool.false_ne_true)

/-- Clean granules of main memory read as what stands there. -/
theorem linkRead_clean (master k a : Nat) (h : ∀ i, i < k → region (a + 32 * i) = .dram ∧ accessCause d (a + 32 * i) 32 false = none ∧
    Clean d (a + 32 * i) 32) : linkRead master k a d = (none, (List.range k).map (fun i => (rawBytes d (a + 32 * i) 32, false)), d) := by
  induction k generalizing a with
  | zero => rfl
  | succ k ih =>
    obtain ⟨hr, hc, hcl⟩ := h 0 k.succ_pos
    have first : masterRead master a 32 d = (.ok (rawBytes d a 32) false, d) :=
      masterRead_memory (by have := (region_dram_iff.mp hr).2; omega) (.inl hr) hc hcl
    have step : ∀ i, a + 32 + 32 * i = a + 32 * (i + 1) := fun i => by ring
    have rest := ih (a + 32) (fun i hi => by rw [step]; exact h (i + 1) (Nat.succ_lt_succ hi))
    unfold linkRead
    rw [first]
    dsimp only
    rw [rest, List.range_succ_eq_map, List.map_cons, List.map_map]
    simp only [step]
    rfl

/-- The places of the run of `w` enables from place `lo`. -/
theorem filter_enables {lo w : Nat} (h : lo + w ≤ 32) :
    (List.range 32).filter (fun i => ((2 ^ w - 1) * 2 ^ lo).testBit i) = (List.range w).map (lo + ·) := by
  have bits : ∀ i, ((2 ^ w - 1) * 2 ^ lo).testBit i = (decide (lo ≤ i) && decide (i - lo < w)) := fun i => by
    rw [Nat.testBit_mul_two_pow, Nat.testBit_two_pow_sub_one]
  obtain ⟨k, hk⟩ := Nat.exists_eq_add_of_le h
  have below : (List.range lo).filter (fun i => ((2 ^ w - 1) * 2 ^ lo).testBit i) = [] :=
    List.filter_eq_nil_iff.mpr fun i hi => by
      have := List.mem_range.mp hi
      simp [bits, this]
  have within : ((List.range w).map (lo + ·)).filter (fun i => ((2 ^ w - 1) * 2 ^ lo).testBit i) = (List.range w).map (lo + ·) :=
    List.filter_eq_self.mpr fun i hi => by
      obtain ⟨j, hj, rfl⟩ := List.mem_map.mp hi
      simp [bits, List.mem_range.mp hj]
  have above : ((List.range k).map (lo + w + ·)).filter (fun i => ((2 ^ w - 1) * 2 ^ lo).testBit i) = [] :=
    List.filter_eq_nil_iff.mpr fun i hi => by
      obtain ⟨j, -, rfl⟩ := List.mem_map.mp hi
      simp only [bits, Bool.and_eq_true, decide_eq_true_eq]
      omega
  rw [hk, List.range_add, List.range_add, List.filter_append, List.filter_append, below, within, above, List.nil_append, List.append_nil]

/-- The enables of an aligned run of a natural width are one access. -/
theorem writeRuns_run {bs : List Byte} {p : Bool} {lo w : Nat} (hd : m.data = [(bs, p)]) (hw : w = 1 ∨ w = 2 ∨ w = 4 ∨ w = 8 ∨ w = 32)
    (hlo : lo % w = 0) (h : lo + w ≤ 32) (he : m.byteEn = (2 ^ w - 1) * 2 ^ lo) :
    writeRuns m = [(m.addr / 32 * 32 + lo, (bs.drop lo).take w, p)] := by
  have head : ((List.range w).map (lo + ·)).headD 0 = lo := by
    obtain rfl | rfl | rfl | rfl | rfl := hw <;> rfl
  have width : widthOk lo w = true := by
    simp only [widthOk, Bool.and_eq_true, Bool.or_eq_true, beq_iff_eq]
    exact ⟨by omega, hlo⟩
  unfold writeRuns
  rw [hd]
  dsimp only
  rw [he, filter_enables h, head, List.length_map, List.length_range, if_pos ⟨rfl, width⟩]

/-- A WRITE of one run in clean main memory is a store of it. -/
theorem writeDo_run {a : Nat} {bs : List Byte} {p : Bool} (hr : writeRuns m = [(a, bs, p)]) (hm : region a = .dram)
    (hc : accessCause d a bs.length true = none) : writeDo n m d = respond m 4 0 [] (writeMem a bs p d) := by
  have cause : localCause d a bs.length true = none := by
    unfold localCause
    rw [if_neg (by simp [hm]), hc, hm]
  unfold writeDo
  rw [hr]
  unfold putRuns
  rw [busPut_memory (.inl hm) cause]
  rfl

end

/-- What lies within a clean granule is clean. -/
theorem Clean.within {d : Dev} {a lo w : Nat} (h : Clean d a 32) (ha : a % 32 = 0) (hw : 0 < w) (hb : lo + w ≤ 32) : Clean d (a + lo) w := by
  have whole : granRange a 32 = [a / 32] := granRange_one (by decide) (by omega)
  have part : granRange (a + lo) w = [a / 32] := by
    rw [granRange_one hw (by omega)]
    congr 1
    omega
  unfold Clean at *
  rwa [part, ← whole]

/-! ### Answers (R28 to R30, R652, R669) -/

section
variable {m : Msg} {q : Req} {d : Dev}

theorem readRspHere_access {master off len : Nat} (h : mget d.links.reqs m.tag = some q) (hk : q.kind = .access master false off len) :
    readRspHere m d = busDeliver master (reqAddr q + off) (((m.data.flatMap (fun g => padTo 32 0 g.1)).drop off).take len)
      (m.data.any (fun g => g.2)) (reqDone m.tag d) := by
  unfold readRspHere
  rw [h]
  dsimp only
  rw [hk]

theorem writeAckHere_access {master off len : Nat} (h : mget d.links.reqs m.tag = some q) (hk : q.kind = .access master true off len) :
    writeAckHere m d = emit (.busWrote master) (reqDone m.tag d) := by
  unfold writeAckHere
  rw [h]
  dsimp only
  rw [hk]

theorem errRspHere_access {master off len : Nat} {w : Bool} (h : mget d.links.reqs m.tag = some q) (hk : q.kind = .access master w off len) :
    errRspHere m d = busFail causeRemote master w (reqAddr q + (if w then 0 else off)) len (reqDone m.tag d) := by
  unfold errRspHere
  rw [h]
  dsimp only
  rw [hk]

/-- The device once the remote wait `i` of stage `st` is satisfied. -/
def waitMet (st i : Nat) (d : Dev) : Dev := setLinks { d.links with waitOk := mput d.links.waitOk (st * 2 + i) () } d

theorem notifyHere_wait {st i : Nat} (h : mget d.links.reqs m.tag = some q) (hk : q.kind = .wait st i) :
    notifyHere m d = waitMet st i (reqDone m.tag d) := by
  unfold notifyHere
  rw [h]
  dsimp only
  rw [hk]
  rfl

/-- An answer whose TAG waits for nothing changes nothing. -/
theorem answer_unasked {f : Msg → Dev → Dev} (hf : f ∈ [readRspHere, writeAckHere, errRspHere, notifyHere])
    (h : mget d.links.reqs m.tag = none) : f m d = d := by
  simp only [List.mem_cons, List.not_mem_nil, or_false] at hf
  obtain rfl | rfl | rfl | rfl := hf
  · unfold readRspHere; rw [h]
  · unfold writeAckHere; rw [h]
  · unfold errRspHere; rw [h]
  · unfold notifyHere; rw [h]

end

/-! ### SYNC_OP and WATCH (R664, R669) -/

section
variable {n : Nat} {m : Msg} {d : Dev}

theorem msgObj_sync (h : region m.addr = .sync) : msgObj m = some (syncIdx m.addr) := if_pos h

theorem msgObj_none (h : region m.addr ≠ .sync) : msgObj m = none := if_neg h

theorem syncHere_object (h : region m.addr = .sync) :
    syncHere n m d = respond m 4 0 [] (syncOp (0x40 + n) (syncIdx m.addr) (m.spec % 16) m.arg d) := by
  unfold syncHere
  rw [msgObj_sync h]

theorem syncHere_none (h : region m.addr ≠ .sync) : syncHere n m d = respond m 5 1 [] (busError 1 (0x40 + n) true m.addr d) := by
  unfold syncHere
  rw [msgObj_none h]
  rfl

theorem watchHere_none (h : region m.addr ≠ .sync) : watchHere n m d = respond m 5 1 [] (busError 1 (0x40 + n) false m.addr d) := by
  unfold watchHere
  rw [msgObj_none h]
  rfl

/-- The device that watches for one message alone. -/
def watching (n : Nat) (m : Msg) (d : Dev) : Dev := setLinks { d.links with watches := [(0, ⟨n, m, false⟩)] } d

/-- With no watch held, a WATCH takes the first entry and is evaluated. -/
theorem watchHere_first (h : region m.addr = .sync) (he : d.links.watches = []) : watchHere n m d = watchEval 0 (watching n m d) := by
  have first : findBelow 1024 (fun i => !(mhas ([] : FMap Watch) i)) = some 0 := by
    unfold findBelow
    rw [List.range_succ_eq_map]
    rfl
  unfold watchHere
  rw [msgObj_sync h]
  dsimp only
  rw [he, first]
  rfl

variable (hcl : Clean d (objAddr (syncIdx m.addr)) 16)
include hcl

theorem watchEval_unmet (hw : objWait (objPeek d (syncIdx m.addr)) (m.spec % 16) m.arg m.arg = some none) :
    watchEval 0 (watching n m d) = watching n m d := by
  have hw' : objWait (objPeek (watching n m d) (syncIdx m.addr)) (m.spec % 16) m.arg m.arg = some none := hw
  unfold watchEval
  simp only [show mget (watching n m d).links.watches 0 = some ⟨n, m, false⟩ from rfl]
  rw [objRead_clean (d := watching n m d) hcl]
  simp only [hw', Bool.false_eq_true, if_false]

/-- A met watch whose object stays as it is leaves its entry free and is answered. -/
theorem watchEval_met (he : d.links.watches = [])
    (hw : objWait (objPeek d (syncIdx m.addr)) (m.spec % 16) m.arg m.arg = some (some (objPeek d (syncIdx m.addr)))) {d1 : Dev}
    (hs : sendMsg { kind := 0x12, dst := m.src, src := devId d, tag := m.tag, master := m.master, cls := 0 } d = (true, d1)) :
    watchEval 0 (watching n m d) = d1 := by
  have hw' : objWait (objPeek (watching n m d) (syncIdx m.addr)) (m.spec % 16) m.arg m.arg =
    some (some (objPeek (watching n m d) (syncIdx m.addr))) := hw
  have freed : setLinks { (watching n m d).links with watches := mdel (watching n m d).links.watches 0 } (watching n m d) = d := by
    have none : mdel (watching n m d).links.watches 0 = d.links.watches := he.symm ▸ rfl
    rw [none]
    rfl
  unfold watchEval
  simp only [show mget (watching n m d).links.watches 0 = some ⟨n, m, false⟩ from rfl]
  rw [objRead_clean (d := watching n m d) hcl]
  simp only [hw', Bool.false_eq_true, if_false, if_true, freed, hs]

end

/-! ### STREAM (R631, R653, R655) -/

theorem portOf_portUpd (p : Nat) (f : LinkPort → LinkPort) (d : Dev) : portOf (portUpd p f d) p = f (portOf d p) := mgetD_mput_same _ _ _ _

section
variable {e d : Dev}

theorem IrqOnly.fifos (h : IrqOnly d e) : e.fifos = d.fifos := by obtain ⟨_, _, _, _, _, rfl⟩ := h; rfl

theorem IrqOnly.whenB (h : IrqOnly d e) {f : Dev → Dev} (hf : ∀ e, IrqOnly d e → IrqOnly d (f e)) (c : Bool) : IrqOnly d (whenB c f e) :=
  IrqOnly.ite (hf e h) h

theorem IrqOnly.pinDrive (h : IrqOnly d e) (p : Nat) : IrqOnly d (pinDrive p e) :=
  IrqOnly.ite h (IrqOnly.ite (h.sf _ _ _) (IrqOnly.ite (h.sf _ _ _) h))

theorem IrqOnly.fifoLevel (h : IrqOnly d e) (id : Nat) : IrqOnly d (fifoLevel id e) := by
  unfold Machine.fifoLevel
  split
  · exact h
  · have most := IrqOnly.ite (c := fifoOcc ‹_› > gf e (Reg.FIFO_MAXOCC id) F.FIFO_MAXOCC_MAXOCC) (h.sf (Reg.FIFO_MAXOCC id)
      F.FIFO_MAXOCC_MAXOCC (fifoOcc ‹_›)) h
    exact IrqOnly.pinDrive (IrqOnly.ite (most.sf _ _ _) (IrqOnly.ite (most.sf _ _ _) most)) _

theorem IrqOnly.markFullCheck (h : IrqOnly d e) (id : Nat) : IrqOnly d (markFullCheck id e) := by
  unfold Machine.markFullCheck
  split
  · exact IrqOnly.ite ((h.sf _ _ _).raise _) h
  · exact h

end

section
variable {p ch : Nat} {it : Item} {d : Dev}

/-- With no flip armed, an item joins its FIFO as it is, and no other table changes but those of interrupts. -/
theorem fifoPut_joins {id : Nat} {f : Fifo} (hf : mget d.fifos id = some f) (ha : Disarmed d) (hi : it.err = []) (hc : it.cnt = false) :
    ∃ f', f'.items = f.items ++ [it] ∧ IrqOnly (setFifo id f' d) (fifoPut id it d) := by
  have plain : ({ it with err := [], poison := it.poison || false, cnt := false } : Item) = it := by
    rw [Bool.or_false, ← hi, ← hc]
  have idle : ∀ (g : Dev → Dev), whenB false g d = d := fun _ => rfl
  unfold Disarmed at ha
  unfold fifoPut
  rw [hf]
  simp only [ha, Bool.false_and, Bool.false_eq_true, if_false, plain, idle]
  refine ⟨?joined, ?items, IrqOnly.markFullCheck (IrqOnly.fifoLevel ?only _) _⟩
  case only =>
    refine IrqOnly.whenB (IrqOnly.wr (IrqOnly.whenB (IrqOnly.whenB (IrqOnly.refl _) ?_ _) ?_ _) _ _) ?_ _
    · exact fun _ h => (h.sf _ _ _).raise _
    · exact fun _ h => h.sf _ _ _
    · exact fun _ h => h.raise _
  case items => rfl

/-- The device once an item has been received on channel `ch` of port `p`. -/
def received (p ch : Nat) (it : Item) (d : Dev) : Dev := portUpd p (fun x => { x with rx := mupd x.rx ch [] (· ++ [it]) }) d

/-- The device once the items received on a channel are down to `rest`, and a credit goes back. -/
def taken (p ch : Nat) (rest : List Item) (d : Dev) : Dev :=
  creditBack p ch (portUpd p (fun x => { x with rx := mput x.rx ch rest }) d)

theorem rx_received : mgetD (portOf (received p ch it d) p).rx ch [] = mgetD (portOf d p).rx ch [] ++ [it] := by
  unfold received
  rw [portOf_portUpd]
  exact mgetD_mput_same _ _ _ _

theorem rx_taken (rest : List Item) : mgetD (portOf (taken p ch rest d) p).rx ch [] = rest := by
  unfold taken creditBack
  rw [portOf_portUpd, portOf_portUpd]
  exact mgetD_mput_same _ _ _ _

/-- With its one item taken a channel is empty, and stays so whatever changes elsewhere. -/
theorem rx_emptied {e : Dev} (h : e.links = (taken p ch [] d).links) : mgetD (portOf e p).rx ch [] = [] := by
  unfold portOf
  rw [h]
  exact rx_taken []

theorem linkIn_empty (fuel : Nat) (h : mgetD (portOf d p).rx ch [] = []) : linkIn fuel p ch d = d := by
  cases fuel with
  | zero => rfl
  | succ => unfold linkIn; rw [h]

/-- The last item of a channel that no route takes is counted and dropped (R631). -/
theorem linkIn_dropped (fuel : Nat) (h : mgetD (portOf d p).rx ch [] = [it]) (hr : routeBySrc d (epMk 4 p ch) = none) :
    linkIn (fuel + 1) p ch d = tlCnt (Reg.TL_DROP_CNT p) p (taken p ch [] d) := by
  have counted : IrqOnly (taken p ch [] d) (tlCnt (Reg.TL_DROP_CNT p) p (taken p ch [] d)) := (IrqOnly.refl _).cntAdd _ _ _ _ _
  unfold linkIn
  rw [h]
  dsimp only
  rw [hr]
  exact linkIn_empty fuel (rx_emptied counted.links)

/-- The last item of a channel joins the FIFO of the route bound to it (R631). -/
theorem linkIn_joins (fuel : Nat) {r : Nat} {f : Fifo} (h : mgetD (portOf d p).rx ch [] = [it]) (hr : routeBySrc d (epMk 4 p ch) = some r)
    (hf : mget d.fifos r = some f) (hw : fifoCanWrite f = true) (ha : Disarmed d) (hi : it.err = []) (hc : it.cnt = false) :
    ∃ f', f'.items = f.items ++ [it] ∧ IrqOnly (setFifo r f' (taken p ch [] d)) (linkIn (fuel + 1) p ch d) := by
  obtain ⟨f', items, only⟩ := fifoPut_joins (d := taken p ch [] d) hf ha hi hc
  refine ⟨f', items, ?_⟩
  unfold linkIn
  rw [h]
  dsimp only
  rw [hr]
  dsimp only
  rw [hf]
  dsimp only
  rw [if_pos hw]
  change IrqOnly _ (linkIn fuel p ch (fifoPut r it (taken p ch [] d)))
  rwa [linkIn_empty fuel (rx_emptied only.links)]

end

section
variable {m : Msg} {g : List Byte × Bool} {rest : List (List Byte × Bool)} {d : Dev}

/-- An item that the link had delivered before is discarded. -/
theorem streamHere_again (h : m.data = g :: rest)
    (ha : ackCovers ((portOf d (m.spec / 2 ^ 24 % 4)).rxExp + 4095) (m.spec % 65536) = true) : streamHere m d = d := by
  unfold streamHere
  rw [h]
  exact if_pos ha

/-- The item that a STREAM message carries: a granule, and the flags of SPEC. -/
def streamItem (g : List Byte × Bool) (fl : Nat) : Item :=
  { data := g.1, fin := fl.testBit 1, empty := fl.testBit 2, poison := g.2 || fl.testBit 3 }

theorem streamHere_new (h : m.data = g :: rest) (hl : g.1.length = 32)
    (ha : ackCovers ((portOf d (m.spec / 2 ^ 24 % 4)).rxExp + 4095) (m.spec % 65536) = false) :
    streamHere m d = linkIn 1024 (m.spec / 2 ^ 24 % 4) (m.spec / 65536 % 16)
      (received (m.spec / 2 ^ 24 % 4) (m.spec / 65536 % 16) (streamItem g (m.spec / 2 ^ 20 % 16)) d) := by
  have whole : padTo 32 0 (g.1.take 32) = g.1 := by rw [List.take_of_length_le hl.le, padTo_of_length hl]
  unfold streamHere
  rw [h]
  dsimp only
  rw [whole]
  exact if_neg (by rw [ha]; exact Bool.false_ne_true)

end

/-- Dropping an item at one of the four ports is counted, and nothing else changes. -/
theorem dropped_counts {p : Nat} (hp : p < 4) (ch : Nat) (it : Item) (d : Dev) :
    gf (tlCnt (Reg.TL_DROP_CNT p) p (taken p ch [] (received p ch it d))) (Reg.TL_DROP_CNT p) F.TL_CRC_CNT_COUNT =
      min (gf d (Reg.TL_DROP_CNT p) F.TL_CRC_CNT_COUNT + 1) 0x7FFFFFFF ∧
    Touches (fun r => r = (Reg.TL_DROP_CNT p).addr) d (tlCnt (Reg.TL_DROP_CNT p) p (taken p ch [] (received p ch it d))) := by
  have quiet : ¬ raised (Reg.TL_DROP_CNT p).addr := by
    unfold raised Reg.TL_DROP_CNT
    dsimp only
    omega
  exact ⟨gf_cntAdd (Reg.TL_DROP_CNT p) F.TL_CRC_CNT_COUNT F.TL_CRC_CNT_OVF 1 _ (taken p ch [] (received p ch it d)) (by decide) (by decide)
    (by decide) quiet, ((((Touches.refl d).portUpd _ _).portUpd _ _).portUpd _ _).cntAdd _ _ _ _ _ (.inl rfl)⟩

/-! ### The obligation -/

/-- Settles O45: a message for this device goes to the handler of its kind, whose equation gives what it leaves. -/
theorem messagesForThisDeviceAreServed : Obligations.MessagesForThisDeviceAreServed := by
  unfold Obligations.MessagesForThisDeviceAreServed
  intro s n m hs hn hm
  dsimp only
  intro hd
  obtain ⟨hlen, hgran⟩ := okMsg_granules hm
  have row : ∀ {k : Nat} {c : Instr} {P : Dev → Prop} (f : Msg → Dev → Dev),
      exec c s = liftSys (decide (n < 4) && WellFormed.okMsg m) (arrive n { m with kind := k } f) s →
      P (f { m with kind := k } s.dev) → Completes c s P := fun f he => completes_arrive f he hs hn hm hd
  refine ⟨fun hr hheld => ⟨fun hw hcl => ?_, fun bs p lo w hdata hflat hwidth hlo hlw hen hw hc hcl => ?_⟩,
    fun q hq hsent => ⟨fun master off len hk hp => ?_, fun master off len hk => ?_, fun master w off len hk hmas hdst haddr hoff => ?_,
      fun st i hk => ?_⟩,
    fun hq => ?_, fun hsync => ?_, fun hsync => ⟨?_, ?_⟩, fun hsync hwatch hcl => ⟨fun hobj => ?_, fun d1 hobj hsend => ?_⟩,
    fun g rest hdata => ⟨fun hack => ?_, fun hack hrx => ⟨fun hroute => ?_, fun r f hroute hf hcan hflat => ?_⟩⟩⟩
  · refine row (readHere n) rfl ?_
    unfold readHere readDo
    rw [linkHold_ready (m := { m with kind := 1 }) hw hheld, Nat.min_eq_left hlen, linkRead_clean (0x40 + n) m.len _ hcl]
    rfl
  · refine row (writeHere n) rfl ?_
    have length : ((bs.drop lo).take w).length = w := by
      have : bs.length = 32 := hgran (bs, p) (hdata ▸ List.mem_singleton_self _)
      rw [List.length_take, List.length_drop]
      omega
    have clean : Clean s.dev (m.addr / 32 * 32 + lo) ((bs.drop lo).take w).length := by
      rw [length]
      exact hcl.within (Nat.mul_mod_left _ _) (by omega) hlw
    have dram : region (m.addr / 32 * 32 + lo) = .dram := by
      have := region_dram_iff.mp hr
      rw [region_dram_iff]
      omega
    unfold writeHere
    rw [linkHold_ready (m := { m with kind := 2 }) (by dsimp only; rw [hdata]; exact hw) hheld,
      writeDo_run (writeRuns_run (m := { m with kind := 2 }) hdata hwidth hlo hlw hen) dram (by rw [length]; exact hc)]
    exact ⟨_, (writeMem_clean _ _ p s.dev clean hflat).1, (memOnly_writeMem clean hflat).rd, rfl⟩
  · refine row readRspHere rfl ?_
    have pure : m.data.any (fun g => g.2) = false := List.any_eq_false.mpr fun g hg => by simp [hp g hg]
    have whole : m.data.flatMap (fun g => padTo 32 0 g.1) = m.data.flatMap (fun g => g.1) :=
      List.flatMap_congr fun g hg => padTo_of_length (hgran g hg)
    rw [readRspHere_access (m := { m with kind := 3 }) hq hk, reqDone_allSent hsent]
    dsimp only
    rw [pure, whole, busDeliver_clean]
    exact ⟨unasked_forgotten m.tag s.dev, ⟨rfl, rfl, rfl, rfl⟩, rfl⟩
  · refine row writeAckHere rfl ?_
    rw [writeAckHere_access (m := { m with kind := 4 }) hq hk, reqDone_allSent hsent]
    exact ⟨unasked_forgotten m.tag s.dev, ⟨rfl, rfl, rfl, rfl⟩, rfl⟩
  · refine row errRspHere rfl ?_
    rw [errRspHere_access (m := { m with kind := 5 }) hq hk, reqDone_allSent hsent]
    exact ⟨((IrqOnly.refl (unasked m.tag s.dev)).busFail _ _ _ _ _).links ▸ unasked_forgotten m.tag s.dev,
      busFail_errored causeRemote master w _ len (unasked m.tag s.dev) (by decide) hmas (reqAddr_lt w hdst haddr hoff)⟩
  · refine row notifyHere rfl ?_
    rw [notifyHere_wait (m := { m with kind := 0x12 }) hq hk, reqDone_allSent hsent]
    exact ⟨unasked_forgotten m.tag s.dev, ⟨rfl, rfl, rfl, rfl⟩, rfl, rfl⟩
  · have ignored : ∀ {k : Nat} {c : Instr} (f : Msg → Dev → Dev), f ∈ [readRspHere, writeAckHere, errRspHere, notifyHere] →
        exec c s = liftSys (decide (n < 4) && WellFormed.okMsg m) (arrive n { m with kind := k } f) s → Completes c s (fun d => d = s.dev) :=
      fun {k} _ f hf he => row f he (answer_unasked (m := { m with kind := k }) hf hq)
    simp only [List.forall_mem_cons]
    exact ⟨ignored readRspHere (by simp) rfl, ignored writeAckHere (by simp) rfl, ignored errRspHere (by simp) rfl,
      ignored notifyHere (by simp) rfl, List.forall_mem_nil _⟩
  · exact row (syncHere n) rfl (syncHere_object (m := { m with kind := 0x10 }) hsync)
  · exact row (syncHere n) rfl (syncHere_none (m := { m with kind := 0x10 }) hsync)
  · exact row (watchHere n) rfl (watchHere_none (m := { m with kind := 0x11 }) hsync)
  · refine row (watchHere n) rfl ?_
    rw [watchHere_first (m := { m with kind := 0x11 }) hsync hwatch, watchEval_unmet (m := { m with kind := 0x11 }) hcl hobj]
    exact ⟨⟨rfl, rfl, rfl, rfl⟩, rfl, rfl⟩
  · refine row (watchHere n) rfl ?_
    rw [watchHere_first (m := { m with kind := 0x11 }) hsync hwatch]
    exact watchEval_met (m := { m with kind := 0x11 }) hcl hwatch hobj hsend
  · exact row streamHere rfl (streamHere_again (m := { m with kind := 0x30 }) hdata hack)
  · refine row streamHere rfl ?_
    rw [streamHere_new (m := { m with kind := 0x30 }) hdata (hgran g (hdata ▸ List.mem_cons_self)) hack,
      linkIn_dropped 1023 (rx_received.trans (by rw [hrx]; rfl)) hroute]
    exact dropped_counts (Nat.mod_lt _ (by decide)) _ _ _
  · refine row streamHere rfl ?_
    rw [streamHere_new (m := { m with kind := 0x30 }) hdata (hgran g (hdata ▸ List.mem_cons_self)) hack]
    obtain ⟨f', items, only⟩ := linkIn_joins (it := streamItem g (m.spec / 2 ^ 20 % 16)) 1023
      (rx_received.trans (by rw [hrx]; rfl)) hroute hf hcan hflat rfl rfl
    refine ⟨?_, only.mem⟩
    rw [only.fifos]
    exact (congrArg (Option.map Fifo.items) (mget_mput_same _ _ _)).trans (congrArg some items)

end Sys2Proof.Machine
end

/-! ## Image loads -/

section
/-! SUPPORT and settlement of O15. -/

namespace Sys2Proof.Machine

/-! ### What the end of a command lets move on (R498, R764) -/

theorem IrqOnly.img {d e : Dev} (h : IrqOnly d e) : e.img = d.img := by obtain ⟨_, _, _, _, _, rfl⟩ := h; rfl

theorem IrqOnly.train {d e : Dev} (h : IrqOnly d e) : e.train = d.train := by obtain ⟨_, _, _, _, _, rfl⟩ := h; rfl

theorem trPoke_none {d : Dev} (h : d.train = none) : trPoke d = d := by
  unfold trPoke
  rw [h]

/-- No train-run waits for what a command leaves, and no boot activation for the end of a load. -/
def Unattended (d : Dev) : Prop := d.train = none ∧ d.boot.auto = false

theorem imgEnds_unattended {f : Dev → Dev} {d : Dev} (h : Unattended (f d)) : imgEnds f d = f d := by
  obtain ⟨ht, ha⟩ := h
  have idle : autoActivate (f d) = f d := if_neg (by simp [ha])
  unfold imgEnds
  rw [idle, trPoke_none ht]

theorem trAfter_none {f : Dev → Dev} {d : Dev} (h : (f d).train = none) : trAfter f d = f d := trPoke_none h

/-- A row that may end a load does what its own operation does, where nothing waits for that. -/
theorem completes_imgEnds {s : State} {c : Instr} {ok : Bool} {f : Dev → Dev} {P : Dev → Prop} (he : exec c s = liftSys ok (imgEnds f) s)
    (hok : ok = true) (hs : sysClocked s.dev = true) (hu : Unattended (f s.dev)) (hP : P (f s.dev)) : Completes c s P :=
  completes_sys he hok hs (by rwa [imgEnds_unattended hu])

theorem completes_idle {s : State} {c : Instr} {ok : Bool} {f : Dev → Dev} (he : exec c s = liftSys ok (imgEnds f) s) (hok : ok = true)
    (hs : sysClocked s.dev = true) (hu : Unattended s.dev) (hf : f s.dev = s.dev) : Completes c s (fun d => d = s.dev) :=
  completes_imgEnds he hok hs (hf.symm ▸ hu) hf

theorem train_of_kept {d e : Dev} (hk : e.kept = d.kept) : e.train = d.train := by
  simp only [Dev.kept, Prod.mk.injEq] at hk
  obtain ⟨-, -, -, -, -, -, -, -, -, -, htrain, -⟩ := hk
  exact htrain

theorem Unattended.of_kept {d e : Dev} (h : Unattended d) (hk : e.kept = d.kept) : Unattended e := by
  refine ⟨(train_of_kept hk).trans h.1, ?_⟩
  simp only [Dev.kept, Prod.mk.injEq] at hk
  obtain ⟨-, -, -, -, -, -, -, -, -, -, -, -, hboot, -⟩ := hk
  exact (congrArg Boot.auto hboot).trans h.2

theorem img_of_kept {d e : Dev} (hk : e.kept = d.kept) : e.img = d.img := congrArg (fun k : Kept => k.2.1) hk

theorem IrqOnly.unattended {d e : Dev} (hi : IrqOnly d e) (h : Unattended d) : Unattended e :=
  ⟨hi.train.trans h.1, (congrArg Boot.auto hi.boot).trans h.2⟩

/-! ### The state of a slot (R75, R102) -/

section
variable {d e : Dev} {s st : Nat}

theorem IrqOnly.setSlotState (h : IrqOnly d e) (s st : Nat) : IrqOnly d (setSlotState s st e) := by
  unfold Machine.setSlotState
  exact IrqOnly.ite (h.sf _ _ _) (h.sf _ _ _)

theorem Touches.setSlotState {w : Nat → Prop} (h : Touches w d e) (hw : w Reg.IMG_SLOT_STAT.addr) (s st : Nat) :
    Touches w d (setSlotState s st e) := by
  unfold Machine.setSlotState
  exact Touches.ite (h.sf _ _ _ (.inl hw)) (h.sf _ _ _ (.inl hw))

theorem slotState_setSlotState (hst : st < 8) : slotState (setSlotState s st d) s = st := by
  unfold slotState setSlotState
  split <;> exact (gf_sf_same _ _ _ _ (by decide)).trans (Nat.mod_eq_of_lt hst)

theorem slotState_of_rd (h : rd e Reg.IMG_SLOT_STAT = rd d Reg.IMG_SLOT_STAT) (s : Nat) : slotState e s = slotState d s := by
  unfold slotState gf
  rw [h]

theorem standbySlot_of_rd (h : rd e Reg.IMG_SLOT_STAT = rd d Reg.IMG_SLOT_STAT) (hi : e.img.running = d.img.running) :
    standbySlot e = standbySlot d := by
  unfold standbySlot activeSlot gf
  rw [slotState_of_rd h, slotState_of_rd h, h, hi]

end

/-! ### The end of a load (R77) -/

/-- The registers of a load as its end writes them. -/
def loadRegs (code off : Nat) (d : Dev) : Dev :=
  d |> sf Reg.IMG_LOAD_STAT F.IMG_LOAD_STAT_BUSY 0 |> sf Reg.IMG_LOAD_STAT F.IMG_LOAD_STAT_PASS 0
    |> sf Reg.IMG_LOAD_STAT F.IMG_LOAD_STAT_CODE code |> sf Reg.IMG_ERR_OFF F.IMG_ERR_OFF_OFFSET off

/-- A load that fails in pass 2 leaves the standby slot INVALID. -/
def slotSpoilt (pass code : Nat) (d : Dev) : Dev := if pass = 2 && code != 0 then setSlotState (standbySlot d) 4 d else d

/-- No load runs. -/
def unloaded (d : Dev) : Dev := setImg { d.img with load := none } d

/-- The end of a load that no command waits for. -/
def loadEnd (pass code off : Nat) (d : Dev) : Dev := raise 81 (loadRegs code off (unloaded (slotSpoilt pass code d)))

section
variable {d e : Dev} {l : ImgLoad} {pass code off : Nat}

theorem imgLoadDone_idle (h : d.img.load = none) : imgLoadDone code off d = d := by
  unfold imgLoadDone
  rw [h]

theorem imgLoadDone_eq (h : d.img.load = some l) (hc : l.cmd = none) : imgLoadDone code off d = loadEnd l.pass code off d := by
  unfold imgLoadDone
  rw [h]
  dsimp only
  rw [hc]
  rfl

theorem IrqOnly.slotSpoilt (h : IrqOnly d e) (pass code : Nat) : IrqOnly d (slotSpoilt pass code e) :=
  IrqOnly.ite (h.setSlotState _ _) h

theorem IrqOnly.loadRegs (h : IrqOnly d e) (code off : Nat) : IrqOnly d (loadRegs code off e) :=
  (((h.sf _ _ _).sf _ _ _).sf _ _ _).sf _ _ _

theorem irqOnly_loadEnd : IrqOnly (unloaded (slotSpoilt pass code d)) (loadEnd pass code off d) :=
  ((IrqOnly.refl _).loadRegs _ _).raise _

theorem Unattended.loadEnd (h : Unattended d) : Unattended (loadEnd pass code off d) :=
  irqOnly_loadEnd.unattended (((IrqOnly.refl d).slotSpoilt _ _).unattended h)

theorem loadEnd_img : (loadEnd pass code off d).img = { d.img with load := none } :=
  irqOnly_loadEnd.img.trans (by rw [unloaded, setImg_img, ((IrqOnly.refl d).slotSpoilt _ _).img])

theorem gf_loadEnd {r : Reg} (f : Fld) (h : ¬ raised r.addr) :
    gf (loadEnd pass code off d) r f = gf (loadRegs code off (unloaded (slotSpoilt pass code d))) r f := gf_raise _ _ _ _ h

theorem loadStat_not_raised : ¬ raised Reg.IMG_LOAD_STAT.addr := by unfold raised; decide

theorem errOff_not_raised : ¬ raised Reg.IMG_ERR_OFF.addr := by unfold raised; decide

theorem slotStat_not_raised : ¬ raised Reg.IMG_SLOT_STAT.addr := by unfold raised; decide

theorem loadEnd_stat : gb (loadEnd pass code off d) Reg.IMG_LOAD_STAT F.IMG_LOAD_STAT_BUSY = false ∧
    gf (loadEnd pass code off d) Reg.IMG_LOAD_STAT F.IMG_LOAD_STAT_PASS = 0 ∧
    gf (loadEnd pass code off d) Reg.IMG_LOAD_STAT F.IMG_LOAD_STAT_CODE = code % 256 := by
  unfold gb
  simp only [gf_loadEnd _ loadStat_not_raised, loadRegs]
  refine ⟨?_, ?_, ?_⟩
  · rw [gf_sf_ne _ _ _ _ (by decide), gf_sf_disj _ _ _ _ _ (by decide) (by decide), gf_sf_disj _ _ _ _ _ (by decide) (by decide),
      gf_sf_same _ _ _ _ (by decide)]
    rfl
  · rw [gf_sf_ne _ _ _ _ (by decide), gf_sf_disj _ _ _ _ _ (by decide) (by decide), gf_sf_same _ _ _ _ (by decide)]
    rfl
  · rw [gf_sf_ne _ _ _ _ (by decide), gf_sf_same _ _ _ _ (by decide)]
    rfl

theorem loadEnd_errOff : gf (loadEnd pass code off d) Reg.IMG_ERR_OFF F.IMG_ERR_OFF_OFFSET = off % 2 ^ 32 := by
  rw [gf_loadEnd _ errOff_not_raised]
  exact gf_sf_same _ _ _ _ (by decide)

theorem loadEnd_slotStat : rd (loadEnd pass code off d) Reg.IMG_SLOT_STAT = rd (slotSpoilt pass code d) Reg.IMG_SLOT_STAT := by
  unfold loadEnd loadRegs
  rw [rd_raise _ _ _ slotStat_not_raised, rd_sf_ne _ _ _ (by decide), rd_sf_ne _ _ _ (by decide), rd_sf_ne _ _ _ (by decide),
    rd_sf_ne _ _ _ (by decide)]
  rfl

/-- A load has ended: no load runs, IMG_LOAD_STAT shows none, and IMG_LOAD_DONE is pending. -/
def LoadEnded (e : Dev) : Prop := e.img.load = none ∧ gb e Reg.IMG_LOAD_STAT F.IMG_LOAD_STAT_BUSY = false ∧
  gf e Reg.IMG_LOAD_STAT F.IMG_LOAD_STAT_PASS = 0 ∧ icPending e 81 = true

/-- A load has failed in a pass, with a code and the offset that the code concerns. -/
def LoadFailed (d : Dev) (pass code off : Nat) (e : Dev) : Prop :=
  LoadEnded e ∧ gf e Reg.IMG_LOAD_STAT F.IMG_LOAD_STAT_CODE = code ∧ gf e Reg.IMG_ERR_OFF F.IMG_ERR_OFF_OFFSET = off ∧
  (pass = 2 → slotState e (standbySlot d) = 4) ∧
  Touches (fun a => a = Reg.IMG_LOAD_STAT.addr ∨ a = Reg.IMG_ERR_OFF.addr ∨ (pass = 2 ∧ a = Reg.IMG_SLOT_STAT.addr)) d e

theorem loadEnd_ended : LoadEnded (loadEnd pass code off d) := by
  obtain ⟨busy, hpass, -⟩ := loadEnd_stat (d := d) (pass := pass) (code := code) (off := off)
  exact ⟨congrArg Img.load loadEnd_img, busy, hpass, icPending_raise _ _ (by decide)⟩

theorem Touches.loadEnd {w : Nat → Prop} (h : Touches w d e) (hl : w Reg.IMG_LOAD_STAT.addr) (ho : w Reg.IMG_ERR_OFF.addr)
    (hs : pass = 2 → w Reg.IMG_SLOT_STAT.addr) : Touches w d (loadEnd pass code off e) := by
  have spoilt : Touches w d (slotSpoilt pass code e) := by
    unfold slotSpoilt
    split
    next hx => exact h.setSlotState (hs (by simp at hx; exact hx.1)) _ _
    next => exact h
  have freed : Touches w d (unloaded (slotSpoilt pass code e)) := spoilt
  exact ((((freed.sf _ _ _ (.inl hl)).sf _ _ _ (.inl hl)).sf _ _ _ (.inl hl)).sf _ _ _ (.inl ho)).raise _

/-- A load that fails in pass 2 leaves the standby slot INVALID. -/
theorem loadEnd_invalid (hc : code ≠ 0) : slotState (loadEnd 2 code off d) (standbySlot d) = 4 := by
  have spoilt : slotSpoilt 2 code d = setSlotState (standbySlot d) 4 d := if_pos (by simp [hc])
  rw [slotState_of_rd loadEnd_slotStat, spoilt, slotState_setSlotState (by decide)]

theorem loadEnd_failed (hc : code ≠ 0) (hc' : code < 256) (ho : off < 2 ^ 32) : LoadFailed d pass code off (loadEnd pass code off d) := by
  refine ⟨loadEnd_ended, ?_, ?_, ?_, ?_⟩
  · rw [loadEnd_stat.2.2, Nat.mod_eq_of_lt hc']
  · rw [loadEnd_errOff, Nat.mod_eq_of_lt ho]
  · rintro rfl
    exact loadEnd_invalid hc
  · exact (Touches.refl d).loadEnd (.inl rfl) (.inr (.inl rfl)) (fun h => .inr (.inr ⟨h, rfl⟩))

/-- A row that ends a load with a code. -/
theorem completes_loadDone {s : State} {c : Instr} {ok : Bool} {f : Dev → Dev} {P : Dev → Prop} {g : Dev}
    (he : exec c s = liftSys ok (imgEnds f) s) (hok : ok = true) (hs : sysClocked s.dev = true) (hf : f s.dev = imgLoadDone code off g)
    (hl : g.img.load = some l) (hc : l.cmd = none) (hu : Unattended g) (hP : P (loadEnd l.pass code off g)) : Completes c s P := by
  have hd : f s.dev = loadEnd l.pass code off g := hf.trans (imgLoadDone_eq hl hc)
  exact completes_imgEnds he hok hs (hd ▸ hu.loadEnd) (hd ▸ hP)

end

/-! ### The start of a load (R73, R105) -/

/-- IMG_LOAD_STAT as the start of a load writes it. -/
def loadBegun (l : ImgLoad) (d : Dev) : Dev :=
  setImg { d.img with load := some l } d |> sf Reg.IMG_LOAD_STAT F.IMG_LOAD_STAT_BUSY 1 |> sf Reg.IMG_LOAD_STAT F.IMG_LOAD_STAT_PASS 1

section
variable {d : Dev} {l : ImgLoad}

theorem loadBegun_stat : gb (loadBegun l d) Reg.IMG_LOAD_STAT F.IMG_LOAD_STAT_BUSY = true ∧
    gf (loadBegun l d) Reg.IMG_LOAD_STAT F.IMG_LOAD_STAT_PASS = 1 := by
  unfold gb loadBegun
  refine ⟨?_, gf_sf_same _ _ _ _ (by decide)⟩
  rw [gf_sf_disj _ _ _ _ _ (by decide) (by decide), gf_sf_same _ _ _ _ (by decide)]
  rfl

theorem Touches.loadBegun {w : Nat → Prop} {e : Dev} (h : Touches w d e) (hw : w Reg.IMG_LOAD_STAT.addr) : Touches w d (loadBegun l e) :=
  ((show Touches w d (setImg { e.img with load := some l } e) from h).sf _ _ _ (.inl hw)).sf _ _ _ (.inl hw)

theorem imgGo_busy (h : imgBusy d = true) : imgGo d = sf Reg.IMG_LOAD_STAT F.IMG_LOAD_STAT_REFUSED 1 d := if_pos h

theorem imgGo_free (h : imgBusy d = false) :
    imgGo d = loadBegun { pass := 1, src := gf d Reg.IMG_SRC F.IMG_SRC_ADDR, len := (rd d Reg.IMG_SRC_LEN).toNat } d :=
  if_neg (by simp [h])

theorem imgQueuedStart_busy (h : imgBusy d = true) : imgQueuedStart d = d := by
  unfold imgQueuedStart
  split
  · rfl
  · exact if_pos h

/-- A change of the handle table alone is a change of the rings. -/
theorem opState_rings (h : CmdHdr) (st : OpState) (d : Dev) : ∃ g, opState h st d = setRings g d := by
  unfold opState
  split
  · split
    · exact ⟨_, rfl⟩
    · exact ⟨d.rings, rfl⟩
  · exact ⟨d.rings, rfl⟩

/-- The source registers as a command gives them (R818). -/
def sourced (src len : Nat) (d : Dev) : Dev := wr Reg.IMG_SRC_LEN (BitVec.ofNat 64 len) (sf Reg.IMG_SRC F.IMG_SRC_ADDR src d)

theorem sourced_src {src len : Nat} (hs : src < 2 ^ 53) : gf (sourced src len d) Reg.IMG_SRC F.IMG_SRC_ADDR = src := by
  unfold sourced
  rw [gf_wr_ne _ _ _ (by decide), gf_sf_same _ _ _ _ (by decide)]
  exact Nat.mod_eq_of_lt hs

theorem sourced_len {src len : Nat} (hl : len < 2 ^ 32) : (rd (sourced src len d) Reg.IMG_SRC_LEN).toNat = len := by
  unfold sourced
  rw [rd_wr_same, BitVec.toNat_ofNat, Nat.mod_eq_of_lt (by omega)]

/-- The commands that still wait. -/
def queueLeft (q : List ImgCmd) (d : Dev) : Dev := setImg { d.img with queue := q } d

/-- A waiting IMG_LOAD starts the load of its source; the rings hold its state. -/
theorem imgQueuedStart_load {h : CmdHdr} {src len : Nat} {q : List ImgCmd} (hq : d.img.queue = .load h src len :: q)
    (hb : imgBusy d = false) (hs : src < 2 ^ 53) (hl : len < 2 ^ 32) :
    ∃ g, imgQueuedStart d = loadBegun { pass := 1, src := src, len := len, cmd := some h } (setRings g (sourced src len (queueLeft q d))) := by
  have first : imgQueuedStart d = imgLoadStart (some h) (sourced src len (queueLeft q d)) := by
    unfold imgQueuedStart
    rw [hq]
    exact if_neg (by simp [hb])
  obtain ⟨g, hg⟩ := opState_rings h .running (sourced src len (queueLeft q d))
  refine ⟨g, first.trans ?_⟩
  unfold imgLoadStart
  dsimp only
  rw [hg, sourced_src hs, sourced_len hl]
  rfl

end

/-! ### Pass 1 (R73, R74, R77) -/

section
variable {d : Dev} {len : Nat} {m : List Byte} {e : Nat × Nat}

theorem keyCheck_range (d : Dev) (s : Nat) (pub : List Byte) : keyCheck d s pub < 7 := by
  unfold keyCheck
  split
  · decide
  · split
    · decide
    · split <;> decide

/-- A failed header check has a code of R77, and concerns a byte of the header. -/
theorem hdrCheck_range (h : hdrCheck d len m = some e) : e.1 ≠ 0 ∧ e.1 < 256 ∧ e.2 < 2 ^ 32 := by
  have key := keyCheck_range d (fieldAt m 0x12 1) ((m.drop 0x60).take 133)
  unfold hdrCheck at h
  dsimp only at h
  split_ifs at h <;> cases h <;> dsimp only <;> omega

end

section
variable {d : Dev} {l : ImgLoad} {m : List Byte}

theorem imgPass1Done_idle (h : d.img.load = none) : imgPass1Done d = d := by
  unfold imgPass1Done
  rw [h]

/-- What pass 1 keeps of the image it has read (R73). -/
def passRead (l : ImgLoad) (m : List Byte) (d : Dev) : Dev :=
  setImg { d.img with load := some { l with
    digest := sha512 (m.take (l.len - 132)), head := m.take 0x100, sig := m.drop (l.len - 132) } } d

theorem imgPass1Done_read (h : d.img.load = some l) (hp : l.pass = 1) (hd : l.digest = []) (hr : imgSource l d = ((m, none), d)) :
    (∀ e, hdrCheck d l.len m = some e → imgPass1Done d = imgLoadDone e.1 e.2 d) ∧
    (hdrCheck d l.len m = none → imgPass1Done d = passRead l m d) := by
  unfold imgPass1Done
  rw [h]
  dsimp only
  rw [if_neg (by simp [hp, hd]), hr]
  dsimp only
  exact ⟨fun e he => by rw [he], fun he => by rw [he]; rfl⟩

theorem Touches.passRead {w : Nat → Prop} : Touches w d (passRead l m d) := Touches.mk (Touches.refl d)

theorem imgSignatureDone_idle (h : d.img.load = none) : imgSignatureDone d = d := by
  unfold imgSignatureDone
  rw [h]

/-- Pass 2 begins, with the standby slot LOADING (R75). -/
def pass2Begun (l : ImgLoad) (d : Dev) : Dev :=
  setImg { d.img with load := some { l with pass := 2 } } d |> setSlotState (standbySlot d) 1
    |> sf Reg.IMG_LOAD_STAT F.IMG_LOAD_STAT_PASS 2

theorem imgSignatureDone_read (h : d.img.load = some l) (hp : l.pass = 1) (hd : l.digest ≠ []) :
    imgSignatureDone d = if ecdsaOk ((l.head.drop 0x60).take 133) l.digest l.sig = false then imgLoadDone 7 (l.len - 132) d
      else if epochOk d (fieldAt l.head 8 4) = false then imgLoadDone 8 8 d
      else pass2Begun l d := by
  unfold imgSignatureDone
  rw [h]
  dsimp only
  rw [if_neg (by simp [hp, hd])]
  rfl

theorem irqOnly_pass2Begun : IrqOnly (setImg { d.img with load := some { l with pass := 2 } } d) (pass2Begun l d) :=
  ((IrqOnly.refl _).setSlotState _ _).sf _ _ _

theorem pass2Begun_begun : (pass2Begun l d).img = { d.img with load := some { l with pass := 2 } } ∧
    slotState (pass2Begun l d) (standbySlot d) = 1 ∧ gf (pass2Begun l d) Reg.IMG_LOAD_STAT F.IMG_LOAD_STAT_PASS = 2 ∧
    Touches (fun a => a = Reg.IMG_LOAD_STAT.addr ∨ a = Reg.IMG_SLOT_STAT.addr) d (pass2Begun l d) := by
  refine ⟨irqOnly_pass2Begun.img, ?_, gf_sf_same _ _ _ _ (by decide), ?_⟩
  · unfold pass2Begun
    rw [slotState_of_rd (rd_sf_ne _ _ _ (by decide)), slotState_setSlotState (by decide)]
  · exact (Touches.setSlotState (Touches.mk (Touches.refl d)) (.inr rfl) _ _).sf _ _ _ (.inl (.inl rfl))

end

/-! ### Accesses of the loader leave the slots' states (R84) -/

/-- IMG_SLOT_STAT and the tables that no shared service changes are what they were. -/
def Steady (d e : Dev) : Prop := Holds Reg.IMG_SLOT_STAT (rd d Reg.IMG_SLOT_STAT) d.kept (fun _ => false) e

theorem slotStat_not_shared : ¬ shared Reg.IMG_SLOT_STAT.addr := by unfold shared; decide

/-- No register with a field that a read clears is IMG_SLOT_STAT. -/
theorem readClears_ne_slotStat : ∀ t ∈ regTable, accMask t (· == .rc) ≠ 0 → ∀ i < t.n1, ∀ j < t.n2,
    t.base + i * t.s1 + j * t.s2 ≠ Reg.IMG_SLOT_STAT.addr := by decide +kernel

section
variable {d e : Dev}

theorem Steady.refl (d : Dev) : Steady d d := ⟨slotStat_not_shared, rfl, rfl, fun _ _ h => absurd h Bool.false_ne_true⟩

theorem Steady.rd (h : Steady d e) : rd e Reg.IMG_SLOT_STAT = rd d Reg.IMG_SLOT_STAT := h.2.1

theorem Steady.kept (h : Steady d e) : e.kept = d.kept := h.2.2.1

theorem Steady.wr (h : Steady d e) {r : Reg} (v : BitVec 64) (hr : r.addr ≠ Reg.IMG_SLOT_STAT.addr) : Steady d (wr r v e) :=
  ⟨slotStat_not_shared, (rd_wr_ne v e (Ne.symm hr)).trans h.rd, h.kept, fun _ _ h => absurd h Bool.false_ne_true⟩

theorem Steady.regReadEff (h : Steady d e) {r : RegAt} {a : Nat} (hf : regFind a = some r) : Steady d (regReadEff r e) := by
  obtain ⟨hmem, hi, hj⟩ := regFind_mem hf
  unfold Machine.regReadEff
  dsimp only
  split
  · exact intgUpd_h _ _ _ h
  · split
    · exact h
    next hm => exact h.wr _ (readClears_ne_slotStat _ hmem hm _ hi _ hj)

/-- A register that an access touches is found in the map. -/
theorem regsTouched_found {a n : Nat} {r : RegAt} (h : r ∈ regsTouched a n) : ∃ b, regFind b = some r := by
  obtain ⟨i, -, hi⟩ := List.mem_filterMap.mp h
  refine ⟨a / 4 * 4 + 4 * i, ?_⟩
  split at hi
  next q hq =>
    split at hi
    · rw [hq, hi]
    · cases hi
  next => cases hi

theorem Steady.regRead (h : Steady d e) (a n : Nat) : Steady d (regRead a n e).2 := by
  have fold : ∀ (l : List RegAt) (p : List Byte × Dev), (∀ r ∈ l, ∃ b, regFind b = some r) → Steady d p.2 →
      Steady d (l.foldl (fun (acc : List Byte × Dev) (r : RegAt) =>
        let o := r.reg.addr - a
        let bs := leBytes (r.desc.width / 8) (regReadVal acc.2 r).toNat
        (acc.1.take o ++ bs ++ acc.1.drop (o + bs.length), Machine.regReadEff r acc.2)) p).2 := by
    intro l
    induction l with
    | nil => exact fun _ _ hp => hp
    | cons r l ih =>
      intro p hl hp
      obtain ⟨b, hb⟩ := hl r List.mem_cons_self
      exact ih _ (fun q hq => hl q (List.mem_cons_of_mem _ hq)) (hp.regReadEff hb)
  unfold Machine.regRead
  split
  · exact h
  · split
    · exact fold _ _ (fun r hr => regsTouched_found hr) h
    · exact h

theorem Steady.tryAcquire (h : Steady d e) (master n : Nat) : Steady d (tryAcquire master n e).2 := by
  have read : Steady d (objRead n e).2 := readMem_h _ _ _ h
  have poison : Steady d (syncPoison master n (objRead n e).2) :=
    consume_h _ _ _ _ _ _ ((read.wr _ (by decide)).wr _ (by decide))
  unfold Machine.tryAcquire
  dsimp only
  split
  · exact ite_h poison read
  · split
    · split
      · exact writeMem_h _ _ _ _ read
      · exact read
    · exact read

theorem Steady.syncGet (h : Steady d e) (master a n : Nat) : Steady d (syncGet master a n e).2 := by
  unfold Machine.syncGet
  dsimp only
  split
  · exact readMem_h _ _ _ h
  · split
    · exact h.tryAcquire _ _
    · split
      · exact readMem_h _ _ _ h
      · exact h

theorem Steady.ownServe (h : Steady d e) (master a n : Nat) : Steady d (ownServe master a n e).2 := by
  by_cases hr : region a = .regs
  · unfold Machine.ownServe
    rw [hr]
    exact h.regRead _ _
  by_cases hs : region a = .sync
  · unfold Machine.ownServe
    rw [hs]
    refine foldl2_h _ _ _ (fun p x hp => ?_) h
    split
    · exact hp
    · have got := Steady.syncGet (d := d) hp master x.1 x.2
      split
      next hq => exact h_of_eq hq got
      next hq => exact h_of_eq hq got
  exact ownServe_h _ _ _ _ h ⟨hr, hs⟩

theorem Steady.masterRead (h : Steady d e) (master fa n : Nat) : Steady d (masterRead master fa n e).2 := by
  by_cases hp : ∀ a, localOf e fa = some a → region a ≠ .regs ∧ region a ≠ .sync
  · exact masterRead_h _ _ _ _ h hp
  push Not at hp
  obtain ⟨a, ha, hr⟩ := hp
  have inside : region a ≠ .pcieOut := fun hx => by simp [hx] at hr
  unfold Machine.masterRead
  dsimp only
  rw [ha]
  dsimp only
  have cause := ownCause_h master fa a n false e h
  split
  next hq => exact h_of_eq hq cause
  next f hq =>
    have serve := Steady.ownServe (d := d) (h_of_eq hq cause) master a n
    rw [if_neg inside]
    split
    next hw => exact h_of_eq hw serve
    next hw => exact busError_h _ _ _ _ _ (h_of_eq hw serve)

theorem Steady.imgCopy (src dst len fuel : Nat) : ∀ (i : Nat) {e : Dev}, Steady d e → Steady d (imgCopy src dst len fuel i e).2 := by
  induction fuel with
  | zero => exact fun _ _ h => h
  | succ fuel ih =>
    intro i e h
    unfold Machine.imgCopy
    dsimp only
    split
    · exact h
    · have read := h.masterRead 0x24 (src + 32 * i) (min 32 (len - 32 * i))
      split
      next hq => exact h_of_eq hq read
      next bs p f hq =>
        have write := masterWrite_h 0x24 (dst + 32 * i) bs p f (h_of_eq hq read)
        split
        next hw => exact h_of_eq hw write
        next hw => exact ih _ (h_of_eq hw write)

/-- Storing the CONST payloads leaves the slots' states and the loader's tables. -/
theorem Steady.constPack (sb : Nat) (cs : List ConstSrc) : ∀ (o : Nat) (acc : FMap ConstRec) {e : Dev}, Steady d e →
    Steady d (constPack sb cs o acc e).2 := by
  induction cs with
  | nil => exact fun _ _ _ h => h
  | cons c cs ih =>
    intro o acc e h
    unfold Machine.constPack
    dsimp only
    split
    · have write := masterWrite_h 0x24 (constMib e sb + o) c.bytes false e h
      split
      · exact ih _ _ write
      · exact write
    · have copy := Steady.imgCopy (d := d) (constMib e (1 - sb) + ‹ConstRec›.off) (constMib e sb + o) ‹ConstRec›.len
        (ceilDiv ‹ConstRec›.len 32) 0 h
      split
      · exact copy
      · exact ih _ _ copy

end

/-! ### Codes of the checks of pass 2 (R77) -/

/-- What a check finds, if anything, has one of the codes of R77. -/
def Coded (x : ImgErr) : Prop := ∀ e, x = some e → e.1 ≠ 0 ∧ e.1 < 256

theorem Coded.none : Coded none := fun _ h => nomatch h

theorem Coded.some {c : Nat} (o : Nat) (h : c ≠ 0 ∧ c < 256) : Coded (some (c, o)) := fun _ he => Option.some.inj he ▸ h

section
variable {x y : ImgErr}

/-- The first of two checks that finds something. -/
theorem Coded.orElse : Coded x → Coded y → Coded (match x with | Option.some e => Option.some e | Option.none => y) := by
  intro hx hy
  cases x with
  | none => exact hy
  | some e => exact hx

theorem Coded.ofBad (bad : Option Nat) {c : Nat} (h : c ≠ 0 ∧ c < 256) (hy : Coded y) :
    Coded (match bad with | Option.some o => Option.some (c, o) | Option.none => y) := by
  cases bad with
  | none => exact hy
  | some o => exact Coded.some o h

end

theorem dirCheck_coded (len : Nat) (m : List Byte) : Coded (dirCheck len m) := Coded.ofBad _ (by decide) Coded.none

theorem typeCheck_coded (c : CfgIn) (es : List DirEnt) (o : Nat) : Coded (typeCheck c es o) := by
  refine Coded.ofBad _ (by decide) ?_
  split
  · exact Coded.some _ (by decide)
  · exact Coded.none

theorem routesCheck_coded (c : CfgIn) : Coded (routesCheck c) :=
  Coded.ofBad _ (by decide) (Coded.ofBad _ (by decide) Coded.none)

theorem stagesCheck_coded (c : CfgIn) : Coded (stagesCheck c) := by
  unfold stagesCheck
  extract_lets rs field count port
  split
  · exact Coded.some _ (by decide)
  · exact Coded.some _ (by decide)
  · exact Coded.some _ (by decide)
  · exact Coded.none

theorem pipesCheck_coded (c : CfgIn) : Coded (pipesCheck c) := Coded.ofBad _ (by decide) Coded.none

theorem qzCheck_coded (c : CfgIn) : Coded (qzCheck c) := Coded.ofBad _ (by decide) Coded.none

theorem syncCheck_coded (c : CfgIn) : Coded (syncCheck c) := Coded.ofBad _ (by decide) Coded.none

theorem constCheck_coded (c : CfgIn) (set : Bool) : Coded (constCheck c set) := Coded.ofBad _ (by decide) Coded.none

theorem cfgCheck_coded (c : CfgIn) (es : List DirEnt) (o : Nat) (set : Bool) : Coded (cfgCheck c es o set) :=
  (typeCheck_coded c es o).orElse <| (routesCheck_coded c).orElse <| (stagesCheck_coded c).orElse <| (pipesCheck_coded c).orElse <|
    (qzCheck_coded c).orElse <| (syncCheck_coded c).orElse (constCheck_coded c set)

/-! ### Pass 2 (R75 to R84) -/

/-- The standby slot becomes VALID with its configuration, epoch and digest. -/
def slotTaken (sb : Nat) (slot : ImgSlot) (epoch : Nat) (dig : List Byte) (d : Dev) : Dev :=
  setDigest sb dig (setEpoch sb epoch (setSlotState sb 2 (setImg { d.img with slots := mput d.img.slots sb slot } d)))

/-- How pass 2 ends the load: with the code of a check, the directory's first; with a CONST payload that could not be stored; or with the
standby slot taken. -/
def Pass2Ends (l : ImgLoad) (m : List Byte) (d e : Dev) : Prop :=
  (∃ x : Nat × Nat, (x.1 ≠ 0 ∧ x.1 < 256) ∧ (∀ y, dirCheck l.len m = some y → y = x) ∧ e = imgLoadDone x.1 x.2 d) ∨
  (dirCheck l.len m = none ∧ ∃ cs, (∃ o, e = imgLoadDone 0x18 o (constPack (standbySlot d) cs 0 [] d).2) ∨
    ∃ slot epoch dig, e = imgLoadDone 0 0 (slotTaken (standbySlot d) slot epoch dig (constPack (standbySlot d) cs 0 [] d).2))

section
variable {d : Dev} {l : ImgLoad} {m : List Byte}

theorem imgPass2Done_ends (tr : CompatOut) (h : d.img.load = some l) (hp : l.pass = 2) (hr : imgSource l d = ((m, none), d)) :
    Pass2Ends l m d (imgPass2Done tr d) := by
  unfold imgPass2Done
  rw [h]
  dsimp -zeta only
  rw [if_neg (by simp [hp]), hr]
  extract_lets r d' m' sb flags part comp es carried base offs mask transl sects newC oldC cs lens set cin body unknown baseOk
    compChks compErr cfg hosts verdict err w d2 dig slot img d3
  have compat : Coded compErr := by
    dsimp only [compErr]
    split
    · exact Coded.some _ (by decide)
    · split
      · exact Coded.some _ (by decide)
      · refine Coded.ofBad _ (by decide) fun e he => ?_
        obtain ⟨-, -, rfl⟩ := Option.map_eq_some_iff.mp he
        exact Coded.some _ (by decide) _ rfl
  have verdictCoded : Coded verdict := by
    refine (dirCheck_coded _ _).orElse ?_
    split
    · refine Coded.ofBad _ (by decide) ((syncCheck_coded _).orElse ?_)
      split
      · exact Coded.some _ (by decide)
      · exact compat
    · refine (cfgCheck_coded _ _ _ _).orElse ?_
      split
      · exact Coded.some _ (by decide)
      · split
        · exact Coded.some _ (by decide)
        · exact Coded.none
  have errCoded : Coded err := by
    refine verdictCoded.orElse ?_
    split
    · exact Coded.some _ (by decide)
    · exact Coded.none
  have dir : ∀ y, dirCheck l.len m = some y → err = some y := by
    intro y hy
    simp only [err, verdict, m', r, hy]
  have read : r.1.2 = none := rfl
  rw [read]
  dsimp -zeta only
  cases he : err with
  | some x => exact .inl ⟨x, errCoded x he, fun y hy => Option.some.inj ((dir y hy).symm.trans he), rfl⟩
  | none =>
    refine .inr ⟨Option.eq_none_iff_forall_ne_some.mpr fun y hy => by simp [dir y hy] at he, cs, ?_⟩
    dsimp only
    split
    · exact .inl ⟨_, rfl⟩
    · exact .inr ⟨_, _, _, rfl⟩

/-- What the standby slot's registers become leaves its state VALID. -/
theorem rd_setEpoch (s e : Nat) : rd (setEpoch s e d) Reg.IMG_SLOT_STAT = rd d Reg.IMG_SLOT_STAT := by
  unfold setEpoch
  split <;> exact rd_sf_ne _ _ _ (by decide)

theorem rd_setDigest (s : Nat) (b : List Byte) : rd (setDigest s b d) Reg.IMG_SLOT_STAT = rd d Reg.IMG_SLOT_STAT := by
  refine rd_forN _ _ _ _ fun x d hx => rd_wr_ne _ _ ?_
  unfold digestReg
  split
  · exact fun h => by simp only [Reg.IMG_SLOT_STAT, Reg.IMG_DIGEST_A] at h; omega
  · split
    · exact fun h => by simp only [Reg.IMG_SLOT_STAT, Reg.IMG_DIGEST_B] at h; omega
    · exact fun h => by simp only [Reg.IMG_SLOT_STAT, Reg.IMG_DIGEST_ACT] at h; omega

theorem irqOnly_slotTaken (sb : Nat) (slot : ImgSlot) (epoch : Nat) (dig : List Byte) :
    IrqOnly (setImg { d.img with slots := mput d.img.slots sb slot } d) (slotTaken sb slot epoch dig d) := by
  unfold slotTaken setDigest setEpoch
  exact IrqOnly.forN (fun _ _ k => k.wr _ _) 8 (IrqOnly.ite (((IrqOnly.refl _).setSlotState _ _).sf _ _ _)
    (((IrqOnly.refl _).setSlotState _ _).sf _ _ _))

theorem slotTaken_valid (sb : Nat) (slot : ImgSlot) (epoch : Nat) (dig : List Byte) : slotState (slotTaken sb slot epoch dig d) sb = 2 := by
  unfold slotTaken
  rw [slotState_of_rd ((rd_setDigest _ _).trans (rd_setEpoch _ _)), slotState_setSlotState (by decide)]

end

section
variable {d : Dev} {l : ImgLoad} {m : List Byte}

/-- Pass 2 leaves no load, and the standby slot VALID with code 0 or INVALID with another. -/
theorem Pass2Ends.leaves {e : Dev} (h : Pass2Ends l m d e) (hl : d.img.load = some l) (hp : l.pass = 2) (hc : l.cmd = none)
    (hu : Unattended d) : Unattended e ∧ LoadEnded e ∧
      (slotState e (standbySlot d) = 2 ∧ gf e Reg.IMG_LOAD_STAT F.IMG_LOAD_STAT_CODE = 0 ∨
        slotState e (standbySlot d) = 4 ∧ gf e Reg.IMG_LOAD_STAT F.IMG_LOAD_STAT_CODE ≠ 0) := by
  have steady := fun cs => Steady.constPack (standbySlot d) cs 0 [] (Steady.refl d)
  obtain ⟨x, ⟨hx, hx'⟩, -, rfl⟩ | ⟨-, cs, ⟨o, rfl⟩ | ⟨slot, epoch, dig, rfl⟩⟩ := h
  · rw [imgLoadDone_eq hl hc, hp]
    refine ⟨hu.loadEnd, loadEnd_ended, .inr ⟨loadEnd_invalid hx, ?_⟩⟩
    rw [loadEnd_stat.2.2, Nat.mod_eq_of_lt hx']
    exact hx
  · specialize steady cs
    generalize (constPack (standbySlot d) cs 0 [] d).2 = g at steady
    have img := img_of_kept steady.kept
    rw [imgLoadDone_eq (img ▸ hl) hc, hp, ← standbySlot_of_rd steady.rd (congrArg Img.running img)]
    refine ⟨(hu.of_kept steady.kept).loadEnd, loadEnd_ended, .inr ⟨loadEnd_invalid (by decide), ?_⟩⟩
    rw [loadEnd_stat.2.2]
    decide
  · specialize steady cs
    generalize (constPack (standbySlot d) cs 0 [] d).2 = g at steady
    have calm : Unattended g := hu.of_kept steady.kept
    have taken := irqOnly_slotTaken (d := g) (standbySlot d) slot epoch dig
    have valid := slotTaken_valid (d := g) (standbySlot d) slot epoch dig
    have load : (slotTaken (standbySlot d) slot epoch dig g).img.load = some l := by
      rw [taken.img, setImg_img, img_of_kept steady.kept, hl]
    rw [imgLoadDone_eq load hc]
    refine ⟨(taken.unattended calm).loadEnd, loadEnd_ended, .inl ⟨?_, ?_⟩⟩
    · rw [slotState_of_rd loadEnd_slotStat]
      have spared : slotSpoilt l.pass 0 (slotTaken (standbySlot d) slot epoch dig g) = slotTaken (standbySlot d) slot epoch dig g :=
        if_neg (by simp)
      rw [spared, valid]
    · rw [loadEnd_stat.2.2]

/-- Where the directory's check fails, pass 2 ends the load with it. -/
theorem Pass2Ends.dir {e : Dev} {x : Nat × Nat} (h : Pass2Ends l m d e) (hx : dirCheck l.len m = some x) : e = imgLoadDone x.1 x.2 d := by
  obtain ⟨y, -, hy, rfl⟩ | ⟨hn, -⟩ := h
  · rw [hy x hx]
  · simp [hx] at hn

/-! ### A fault of the source (R44, R77) -/

theorem busError_logged (cause master : Nat) (write : Bool) (fa : Nat) :
    gb (busError cause master write fa d) Reg.SYS_BERR_STAT F.SYS_BERR_STAT_VALID = true := by
  unfold busError logOnce
  split
  next h =>
    refine Eq.trans ?_ h
    unfold gb
    rw [gf_sf_disj _ _ _ _ _ (by decide) (by decide)]
  next h =>
    have valid := berrFill_valid cause master write fa (cntAdd Reg.SYS_BERR_CNT F.SYS_BERR_CNT_COUNT F.SYS_BERR_CNT_OVF 1 80 d)
    exact bne_iff_ne.mpr (valid.trans_ne one_ne_zero)

theorem imgSourceFault_read (h : d.img.load = some l) (off : Nat) :
    imgSourceFault 0x18 off d = imgLoadDone 0x18 off (busError causeRemote 0x24 false (l.src + off) d) := by
  unfold imgSourceFault
  rw [h]
  rfl

end

/-- Settles O15: each row of the loader is the start, the next pass or the end of the load, and what these leave is said once for all. -/
theorem imageLoadsRunAndEnd : Obligations.ImageLoadsRunAndEnd := by
  unfold Obligations.ImageLoadsRunAndEnd
  intro s hs ht ha d0 st ended failed
  have hu : Unattended d0 := ⟨ht, ha⟩
  refine ⟨fun hb => ?_, fun hb => ?_, fun l m hl hp hd hc hr hlen => ?_, fun l hl hp hd hc hmin hlen => ?_,
    fun l m tr hl hp hc hr => ?_, fun l m tr e hl hp hc hr hdir he1 he2 => ?_, fun l off hl hc hoff => ?_, fun l hl hc => ?_,
    fun hl => ⟨?_, ?_, ?_⟩, fun h src len q hq hb hsrc hlen => ?_, fun hb => ?_⟩
  · refine completes_sys (f := imgGo) rfl rfl hs ?_
    rw [imgGo_free hb]
    exact ⟨rfl, loadBegun_stat.1, loadBegun_stat.2, (Touches.refl d0).loadBegun rfl⟩
  · refine completes_sys (f := imgGo) rfl rfl hs ?_
    rw [imgGo_busy hb]
    refine ⟨?_, rfl, (Touches.refl d0).sf _ _ _ (.inl rfl)⟩
    unfold gb
    rw [gf_sf_same _ _ _ _ (by decide)]
    rfl
  · obtain ⟨bad, good⟩ := imgPass1Done_read hl hp hd hr
    cases hh : hdrCheck d0 l.len m with
    | some e =>
      obtain ⟨h0, h8, h32⟩ := hdrCheck_range hh
      exact completes_loadDone rfl rfl hs (bad e hh) hl hc hu (hp ▸ loadEnd_failed h0 h8 h32)
    | none =>
      have kept := good hh
      exact completes_imgEnds (f := imgPass1Done) rfl rfl hs (kept ▸ hu) (kept ▸ ⟨rfl, Touches.passRead⟩)
  · have done := imgSignatureDone_read hl hp hd
    split_ifs at done ⊢
    · exact completes_loadDone rfl rfl hs done hl hc hu (hp ▸ loadEnd_failed (by decide) (by decide) (by omega))
    · exact completes_loadDone rfl rfl hs done hl hc hu (hp ▸ loadEnd_failed (by decide) (by decide) (by decide))
    · exact completes_imgEnds rfl rfl hs (done ▸ irqOnly_pass2Begun.unattended hu) (done ▸ pass2Begun_begun)
  · obtain ⟨quiet, leaves⟩ := (imgPass2Done_ends tr hl hp hr).leaves hl hp hc hu
    exact completes_imgEnds rfl rfl hs quiet leaves
  · exact completes_loadDone rfl rfl hs ((imgPass2Done_ends tr hl hp hr).dir hdir) hl hc hu
      (hp ▸ loadEnd_failed (dirCheck_coded _ _ e hdir).1 he1 he2)
  · have logged := (IrqOnly.refl d0).busError causeRemote 0x24 false (l.src + off)
    refine completes_loadDone rfl (Bool.and_eq_true_iff.mpr ⟨rfl, decide_eq_true hoff⟩) hs (imgSourceFault_read hl off)
      ((congrArg Img.load logged.img).trans hl) hc (logged.unattended hu) ⟨loadEnd_ended, ?_, ?_, ?_⟩
    · exact loadEnd_stat.2.2
    · rw [loadEnd_errOff, Nat.mod_eq_of_lt hoff]
    · refine Eq.trans ?_ (busError_logged (d := d0) causeRemote 0x24 false (l.src + off))
      unfold gb
      have frame := Touches.loadEnd (pass := l.pass) (code := 0x18) (off := off)
        (Touches.refl (w := fun a => a ≠ Reg.SYS_BERR_STAT.addr) (busError causeRemote 0x24 false (l.src + off) d0))
        (by decide) (by decide) (fun _ => by decide)
      rw [frame.gf_eq _ _ (by simp) (by unfold raised; decide)]
  · exact completes_loadDone rfl rfl hs rfl hl hc hu (loadEnd_failed (by decide) (by decide) (by decide))
  · exact completes_idle rfl rfl hs hu (imgLoadDone_idle hl)
  · exact completes_idle rfl rfl hs hu (imgPass1Done_idle hl)
  · exact completes_idle rfl rfl hs hu (imgSignatureDone_idle hl)
  · obtain ⟨g, started⟩ := imgQueuedStart_load hq hb hsrc hlen
    refine completes_sys (f := trAfter imgQueuedStart) rfl rfl hs ?_
    rw [trAfter_none (started ▸ ht), started]
    refine ⟨rfl, rfl, loadBegun_stat.1, ?_, ?_⟩
    · unfold loadBegun
      rw [gf_sf_ne _ _ _ _ (by decide), gf_sf_ne _ _ _ _ (by decide)]
      exact sourced_src hsrc
    · refine Touches.loadBegun ?_ (.inl rfl)
      exact Touches.mk (((Touches.mk (Touches.refl d0)).sf _ _ _ (.inl (.inr (.inl rfl)))).wr _ _ (.inl (.inr (.inr rfl))))
  · have idle := imgQueuedStart_busy hb
    exact completes_sys rfl rfl hs ((trAfter_none (idle.symm ▸ ht)).trans idle)

end Sys2Proof.Machine
end

/-! ## The commands of the image loader and the census -/

section
/-! SUPPORT and settlement of O41: how a completion is written to a ring that can take it, and how a long operation is handed over. -/

namespace Sys2Proof.Machine

/-! ### A completion is written (R587, R601, R612) -/

section
variable {c : Cpl} {d : Dev}

/-- The 32 bytes of the next completion entry of the ring. -/
def cplEntry (c : Cpl) (d : Dev) : List Byte :=
  cplBytes c (rd d (Reg.RING_CPL_TAIL c.hdr.ring)).toNat (gf d (Reg.RING_CFG c.hdr.ring) F.RING_CFG_CPL_LOG2) (fastTime d)

theorem cplEntry_length : (cplEntry c d).length = 32 := by
  simp [cplEntry, cplBytes, leBytes_length]

/-- The entry stands in memory. -/
def cplStored (c : Cpl) (d : Dev) : Dev := writeMem (cplNext d c.hdr.ring) (cplEntry c d) false d

/-- The entries that wait for a signal, with the new one. -/
def cplPending (c : Cpl) (d : Dev) : Nat := min (gf d (Reg.RING_STAT c.hdr.ring) F.RING_STAT_PENDING + 1) 255

/-- The new entry is signalled at once (R612). -/
def cplNow (c : Cpl) (d : Dev) : Bool :=
  cplPending c d ≥ gf d (Reg.RING_MOD c.hdr.ring) F.RING_MOD_CNT || (!c.progress && c.hdr.flags.testBit 1) || d.pmu.icAcc

/-- The tail has passed the new entry, and the entry is counted. -/
def cplCounted (c : Cpl) (d : Dev) : Dev :=
  sf (Reg.RING_STAT c.hdr.ring) F.RING_STAT_PENDING (cplPending c d)
    (sf (Reg.RING_CPL_TAIL c.hdr.ring) F.RING_CPL_TAIL_INDEX ((rd d (Reg.RING_CPL_TAIL c.hdr.ring)).toNat + 1) d)

/-- The new entry is counted, and signalled where it is due. -/
def cplSignalled (c : Cpl) (d : Dev) : Dev := if cplNow c d then ringSignal c.hdr.ring (cplCounted c d) else cplCounted c d

theorem ringTail_ne_stat (n : Nat) : (Reg.RING_STAT n).addr ≠ (Reg.RING_CPL_TAIL n).addr := by
  simp only [Reg.RING_STAT, Reg.RING_CPL_TAIL]
  omega

theorem ringReg_not_raised {n : Nat} (hn : n < 16) : ¬ raised (Reg.RING_STAT n).addr ∧ ¬ raised (Reg.RING_CPL_TAIL n).addr := by
  unfold raised Reg.RING_STAT Reg.RING_CPL_TAIL
  dsimp only
  omega

theorem memOnly_cplStored (h : RingReady d c.hdr.ring) : MemOnly d (cplStored c d) := by
  obtain ⟨-, -, -, -, -, clean, flat⟩ := h
  exact memOnly_writeMem (cplEntry_length.symm ▸ clean) flat

/-- A write by one of the device's own masters to memory that no cause refuses is a store. -/
theorem masterWrite_memory {master a : Nat} {bs : List Byte} {p : Bool} (ha : a < 2 ^ 40) (hm : InMemory a)
    (hc : accessCause d a bs.length true = none) : masterWrite master a bs p d = (true, writeMem a bs p d) := by
  have cause : ownCause master a a bs.length true d = (none, d) := by
    unfold ownCause
    rw [if_neg (fun h => hm.not_regs h.1), hc]
  unfold masterWrite
  dsimp only
  rw [localOf_low ha]
  dsimp only
  rw [cause]
  obtain h | h | h | ⟨k, h⟩ := hm <;> simp only [h]

theorem MemOnly.pmu {d e : Dev} (h : MemOnly d e) : e.pmu = d.pmu := by obtain ⟨_, _, _, rfl⟩ := h; rfl

/-- A ring that can take a completion gets it as its next entry (R587). -/
theorem cplWrite_ready (hn : c.hdr.ring < 16) (h : RingReady d c.hdr.ring) :
    cplWrite c d = (true, opFinish c (cplSignalled c (cplStored c d))) := by
  have mem := memOnly_cplStored h
  obtain ⟨-, -, low, dram, cause, -, -⟩ := h
  have put : masterWrite 0x23 (cplNext d c.hdr.ring) (cplEntry c d) false d = (true, cplStored c d) :=
    masterWrite_memory (by omega) (.inl dram) (by rw [cplEntry_length]; exact cause)
  have tail := mem.rd (Reg.RING_CPL_TAIL c.hdr.ring)
  unfold cplWrite
  dsimp only
  rw [Nat.mod_eq_of_lt hn]
  change (match masterWrite 0x23 (cplNext d c.hdr.ring) (cplEntry c d) false d with
    | (false, d) => _ | (true, d) => _) = _
  rw [put]
  have pending : gf (sf (Reg.RING_CPL_TAIL c.hdr.ring) F.RING_CPL_TAIL_INDEX ((rd d (Reg.RING_CPL_TAIL c.hdr.ring)).toNat + 1) (cplStored c d))
      (Reg.RING_STAT c.hdr.ring) F.RING_STAT_PENDING = gf (cplStored c d) (Reg.RING_STAT c.hdr.ring) F.RING_STAT_PENDING :=
    gf_sf_ne _ _ _ _ (ringTail_ne_stat _)
  dsimp only
  rw [pending, gf_sf_ne _ _ _ _ (by simp [Reg.RING_MOD, Reg.RING_STAT]), gf_sf_ne _ _ _ _ (by simp [Reg.RING_MOD, Reg.RING_CPL_TAIL]), ← tail]
  rfl

/-- The count, the time and the signal of an entry do not depend on memory. -/
theorem cplPending_mem {e : Dev} (h : MemOnly d e) : cplPending c e = cplPending c d := by
  unfold cplPending gf
  rw [h.rd]

theorem cplNow_mem {e : Dev} (h : MemOnly d e) : cplNow c e = cplNow c d := by
  unfold cplNow gf
  rw [cplPending_mem h, h.rd, h.pmu]

theorem touches_cplSignalled (e : Dev) :
    Touches (fun a => a = (Reg.RING_CPL_TAIL c.hdr.ring).addr ∨ a = (Reg.RING_STAT c.hdr.ring).addr) e (cplSignalled c e) := by
  have counted : Touches (fun a => a = (Reg.RING_CPL_TAIL c.hdr.ring).addr ∨ a = (Reg.RING_STAT c.hdr.ring).addr) e (cplCounted c e) :=
    ((Touches.refl e).sf _ _ _ (.inl (.inl rfl))).sf _ _ _ (.inl (.inr rfl))
  exact Touches.ite ((counted.sf _ _ _ (.inl (.inr rfl))).raise _) counted

theorem cplSignalled_tail (hn : c.hdr.ring < 16) (e : Dev) :
    gf (cplSignalled c e) (Reg.RING_CPL_TAIL c.hdr.ring) F.RING_CPL_TAIL_INDEX =
      ((rd e (Reg.RING_CPL_TAIL c.hdr.ring)).toNat + 1) % 2 ^ 32 := by
  have ne := (ringTail_ne_stat c.hdr.ring).symm
  have counted : gf (cplCounted c e) (Reg.RING_CPL_TAIL c.hdr.ring) F.RING_CPL_TAIL_INDEX =
      ((rd e (Reg.RING_CPL_TAIL c.hdr.ring)).toNat + 1) % 2 ^ 32 := by
    unfold cplCounted
    rw [gf_sf_ne _ _ _ _ ne, gf_sf_same _ _ _ _ (by decide)]
    rfl
  unfold cplSignalled
  split
  · unfold ringSignal
    rw [gf_raise _ _ _ _ (ringReg_not_raised hn).2, gf_sf_ne _ _ _ _ ne, counted]
  · exact counted

theorem cplSignalled_pending (hn : c.hdr.ring < 16) (e : Dev) :
    (cplNow c e = true → gf (cplSignalled c e) (Reg.RING_STAT c.hdr.ring) F.RING_STAT_PENDING = 0 ∧
      icPending (cplSignalled c e) (16 + c.hdr.ring) = true) ∧
    (cplNow c e = false → gf (cplSignalled c e) (Reg.RING_STAT c.hdr.ring) F.RING_STAT_PENDING = cplPending c e) := by
  refine ⟨fun h => ?_, fun h => ?_⟩
  · have signalled : cplSignalled c e = ringSignal c.hdr.ring (cplCounted c e) := if_pos h
    rw [signalled]
    refine ⟨?_, icPending_raise _ _ (by omega)⟩
    unfold ringSignal
    rw [gf_raise _ _ _ _ (ringReg_not_raised hn).1, gf_sf_same _ _ _ _ (by decide)]
    rfl
  · have counted : cplSignalled c e = cplCounted c e := if_neg (by simp [h])
    have small : cplPending c e < 256 := by
      unfold cplPending
      omega
    rw [counted]
    exact (gf_sf_same _ _ _ _ (by decide)).trans (Nat.mod_eq_of_lt small)

theorem Stored.touches {a : Nat} {bs : List Byte} {p : Bool} {e f : Dev} {w : Nat → Prop} (h : Stored a bs p d e) (k : Touches w e f) :
    Stored a bs p d f := by
  obtain ⟨-, mem, poison, errs⟩ := k
  unfold Stored poisoned errOf at *
  rwa [mem, poison, errs]

/-- The entry stored, counted and signalled is the completion written. -/
theorem cplWritten_signalled (hn : c.hdr.ring < 16) (h : RingReady d c.hdr.ring) : CplWritten c d (cplSignalled c (cplStored c d)) := by
  have mem := memOnly_cplStored h
  obtain ⟨-, -, -, -, -, clean, flat⟩ := h
  have stored := (writeMem_clean (cplNext d c.hdr.ring) (cplEntry c d) false d (cplEntry_length.symm ▸ clean) flat).1
  obtain ⟨due, undue⟩ := cplSignalled_pending hn (cplStored c d)
  rw [cplNow_mem mem] at due undue
  rw [cplPending_mem mem] at undue
  have now : cplNow c d = true ↔ cplPending c d ≥ gf d (Reg.RING_MOD c.hdr.ring) F.RING_MOD_CNT ∨
      (c.progress = false ∧ c.hdr.flags.testBit 1 = true) ∨ d.pmu.icAcc = true := by
    simp [cplNow, or_assoc]
  refine ⟨stored.touches (touches_cplSignalled _), ?_, fun hd => due (now.mpr hd),
    fun hd => undue (Bool.eq_false_iff.mpr fun hx => hd (now.mp hx)), fun r ht hs hr => ?_⟩
  · rw [cplSignalled_tail hn, mem.rd]
  · rw [(touches_cplSignalled _).rd_eq r (by simp [ht, hs]) hr, mem.rd]

theorem opFinish_rings (c : Cpl) (d : Dev) : ∃ g, opFinish c d = setRings g d := by
  unfold opFinish
  split
  · exact ⟨d.rings, rfl⟩
  · dsimp only
    split
    · split <;> exact ⟨_, rfl⟩
    · exact ⟨_, rfl⟩

/-- The completion waits at its ring. -/
def cplQueued (c : Cpl) (d : Dev) : Dev := setRings { d.rings with held := mput d.rings.held c.hdr.ring [c] } d

/-- A completion whose ring can take it, and holds none, is written at once. -/
theorem complete_ready (hn : c.hdr.ring < 16) (h : RingReady d c.hdr.ring) (hh : mgetD d.rings.held c.hdr.ring [] = []) :
    ∃ g, mgetD g.held c.hdr.ring [] = [] ∧ complete c d = setRings g (cplSignalled c (cplStored c (cplQueued c d))) := by
  have ready : RingReady (cplQueued c d) c.hdr.ring := h
  have room : (gb (cplQueued c d) (Reg.RING_CFG c.hdr.ring) F.RING_CFG_EN && !(cplFull (cplQueued c d) c.hdr.ring)) = true := by
    rw [ready.1, ready.2.1]
    rfl
  have held : mgetD (cplQueued c d).rings.held c.hdr.ring [] = [c] := mgetD_mput_same _ _ _ _
  have queued : complete c d = cplDrain 1 c.hdr.ring (cplQueued c d) := by
    unfold complete
    dsimp only
    rw [Nat.mod_eq_of_lt hn, hh]
    rfl
  obtain ⟨g, hg⟩ := opFinish_rings c (cplSignalled c (cplStored c (cplQueued c d)))
  refine ⟨{ g with held := mput g.held c.hdr.ring [] }, mgetD_mput_same _ _ _ _, ?_⟩
  rw [queued]
  unfold cplDrain
  rw [if_pos room, held]
  dsimp only
  rw [cplWrite_ready hn ready, hg]
  generalize cplSignalled c (cplStored c (cplQueued c d)) = e
  rfl

/-- A completion whose ring can take it, and holds none, is written and not held. -/
theorem cplWritten_complete (hn : c.hdr.ring < 16) (h : RingReady d c.hdr.ring) (hh : mgetD d.rings.held c.hdr.ring [] = []) :
    CplWritten c d (complete c d) ∧ mgetD (complete c d).rings.held c.hdr.ring [] = [] := by
  obtain ⟨g, held, written⟩ := complete_ready hn h hh
  have queued : RingReady (cplQueued c d) c.hdr.ring := h
  have signalled := cplWritten_signalled (d := cplQueued c d) hn queued
  rw [written]
  generalize cplSignalled c (cplStored c (cplQueued c d)) = e at signalled
  exact ⟨signalled, held⟩

end

/-! ### What a ring needs to take a completion -/

section
variable {d e : Dev}

/-- The registers that decide whether an access finds its range: SYS_DRAM_TOP and the state of the domains. -/
def causeReads : List Reg := [Reg.SYS_DRAM_TOP, Reg.PMU_DOM_STAT, Reg.PMU_STAT, Reg.PMU_AGENT_ACC]

theorem accessCause_wr {r : Reg} (v : BitVec 64) (hr : ∀ q ∈ causeReads, q.addr ≠ r.addr) (a n : Nat) (w : Bool) :
    accessCause (wr r v d) a n w = accessCause d a n w := by
  simp only [causeReads, List.forall_mem_cons] at hr
  obtain ⟨htop, hdom, hstat, hacc, -⟩ := hr
  have top : dramTop (wr r v d) = dramTop d := gf_wr_ne _ _ _ htop
  have serves : ∀ k, domServes (wr r v d) k = domServes d k := by
    intro k
    unfold domServes domOn agentAcc agentAsked gb
    rw [rd_wr_ne _ _ hdom, rd_wr_ne _ _ hacc, gf_wr_ne _ _ _ hstat, gf_wr_ne _ _ _ hstat, wr_pmu]
  have blocks : mainBlocks (wr r v d) = mainBlocks d := rfl
  have cause : ∀ b, byteCause (wr r v d) b w = byteCause d b w := by
    intro b
    unfold byteCause
    cases region b <;> simp only [top, serves, blocks, wr_part]
  unfold accessCause
  rw [cause, cause]

/-- The registers that decide whether a ring can take a completion. -/
def ringReads (n : Nat) : List Reg :=
  [Reg.RING_CFG n, Reg.RING_CPL_TAIL n, Reg.RING_CPL_HEAD n, Reg.RING_CPL_BASE n, Reg.INTG_FLIP] ++ causeReads

/-- A register that decides nothing for a ring leaves it ready. -/
theorem ringReady_wr {n : Nat} (h : RingReady d n) {r : Reg} (v : BitVec 64) (hr : ∀ q ∈ ringReads n, q.addr ≠ r.addr) :
    RingReady (wr r v d) n := by
  obtain ⟨hown, hcause⟩ := List.forall_mem_append.mp hr
  simp only [List.forall_mem_cons] at hown
  obtain ⟨hcfg, htail, hhead, hbase, hflip, -⟩ := hown
  have next : cplNext (wr r v d) n = cplNext d n := by
    unfold cplNext
    rw [gf_wr_ne _ _ _ hbase, rd_wr_ne _ _ htail, gf_wr_ne _ _ _ hcfg]
  have full : cplFull (wr r v d) n = cplFull d n := by
    unfold cplFull
    rw [rd_wr_ne _ _ htail, rd_wr_ne _ _ hhead, gf_wr_ne _ _ _ hcfg]
  unfold RingReady gb at *
  rw [next, full, accessCause_wr v hcause, gf_wr_ne _ _ _ hcfg, gf_wr_ne _ _ _ hflip]
  exact h

end

/-! ### Handing a command over (R594, R595, R600) -/

section
variable {h : CmdHdr} {d : Dev} {f : Dev → Dev} {bad : Bool}

/-- A command ends with a status where its ring can take a completion and holds none, whatever else the rings hold. -/
theorem cplWritten_finish (g : Rings) (st : Nat) (hn : h.ring < 16) (hr : RingReady d h.ring) (hh : mgetD g.held h.ring [] = []) :
    CplWritten ⟨h, st, 0, 0, 0, false⟩ d (finish h st 0 0 (setRings g d)) :=
  (cplWritten_complete (c := ⟨h, st, 0, 0, 0, false⟩) (d := setRings g d) hn hr hh).1

theorem fieldCmd_bad (hb : 7 < h.flags ∨ bad = true) : fieldCmd h bad f d = finish h 0xC2 0 0 (cmdIn h d) :=
  if_pos (by simpa using hb.symm)

theorem fieldCmd_good (hf : h.flags ≤ 7) : fieldCmd h false f d = f d := if_neg (by simpa using hf)

theorem longCmd_used (hu : mhas d.rings.ops h.handle = true) : longCmd h f d = finish h 0xCB 0 0 (cmdIn h d) := if_pos hu

theorem longCmd_free (hu : mhas d.rings.ops h.handle = false) : longCmd h f d = f (cmdIn h d) := if_neg (by simpa [cmdIn] using hu)

/-- A long operation has taken its handle. -/
def opTaken (h : CmdHdr) (st : OpState) (d : Dev) : Dev := opOpen h st (cmdIn h d)

theorem opTaken_entry (st : OpState) : mget (opTaken h st d).rings.ops h.handle = some { hdr := h, state := st } := mget_mput_same _ _ _

/-- An image command waits behind a load, an activation or another command (R818). -/
theorem imgCmd_waits {c : ImgCmd} (hu : mhas d.rings.ops h.handle = false) (hb : (imgBusy d || !d.img.queue.isEmpty) = true) :
    imgCmd h c d = setImg { d.img with queue := d.img.queue ++ [c] } (opTaken h .queued d) :=
  (longCmd_free hu).trans (if_pos hb)

theorem imgCmd_starts {c : ImgCmd} (hu : mhas d.rings.ops h.handle = false) (hb : (imgBusy d || !d.img.queue.isEmpty) = false) :
    imgCmd h c d = imgCmdStart c (opTaken h .queued d) :=
  (longCmd_free hu).trans (if_neg (Bool.eq_false_iff.mp hb))

end

/-! ### The census command (R675, R680) -/

section
variable {h : CmdHdr} {expect : Nat} {d : Dev}

/-- A census can run: the node is locked and the torus has rows and columns. -/
def OnTorus (d : Dev) : Prop := nodeLocked d = true ∧ torusRows d ≠ 0 ∧ torusCols d ≠ 0

/-- A census that ends at once shows its code and completes with it. -/
def censusRefused (h : CmdHdr) (code : Nat) (d : Dev) : Dev :=
  finish h code 0 0 (sf Reg.SYNC_CENSUS_STAT F.SYNC_CENSUS_STAT_CODE code d)

theorem xCensus_noTorus (ht : ¬ OnTorus d) : xCensus h expect d = censusRefused h 0xE3 d := by
  have : (!nodeLocked d || torusRows d == 0 || torusCols d == 0) = true := by
    by_contra hx
    simp at hx
    exact ht ⟨hx.1.1, hx.1.2, hx.2⟩
  exact if_pos this

theorem OnTorus.xCensus (ht : OnTorus d) : xCensus h expect d =
    if expect > torusRows d * torusCols d then censusRefused h 0xE4 d
    else if d.links.census.isSome then censusRefused h 0xE2 d
    else censusEnter { init := devId d, parent := none, children := censusChildren d (devId d), cmd := some h, expect := expect } 0x23 d := by
  obtain ⟨locked, rows, cols⟩ := ht
  exact if_neg (by simp [locked, rows, cols])

/-- No ring depends on the census's code. -/
theorem censusStat_apart {n : Nat} (hn : n < 16) : ∀ q ∈ ringReads n, q.addr ≠ Reg.SYNC_CENSUS_STAT.addr := by
  have ring : ∀ n < 16, ∀ q ∈ ringReads n, q.addr ≠ Reg.SYNC_CENSUS_STAT.addr := by decide
  exact ring n hn

end


/-! ### The outcomes of the three commands -/

section
variable {h : CmdHdr} {d : Dev} {f : Dev → Dev} {bad : Bool}

theorem train_finish (h : CmdHdr) (st : Nat) (d : Dev) : (finish h st 0 0 (cmdIn h d)).train = d.train :=
  (train_of_kept (kept_finish h st 0 0 (cmdIn h d))).trans rfl

/-- A command with a reserved flag, or with a bad field, completes with 0xC2. -/
theorem fieldCmd_ends (hb : 7 < h.flags ∨ bad = true) (hn : h.ring < 16) (hr : RingReady d h.ring)
    (hh : mgetD d.rings.held h.ring [] = []) :
    CplWritten ⟨h, 0xC2, 0, 0, 0, false⟩ d (fieldCmd h bad f d) ∧ (fieldCmd h bad f d).train = d.train := by
  rw [fieldCmd_bad hb]
  exact ⟨cplWritten_finish (cmdIn h d).rings 0xC2 hn hr hh, train_finish h 0xC2 d⟩

/-- A long operation whose handle is in use completes with 0xCB. -/
theorem longCmd_ends (hf : h.flags ≤ 7) (hu : mhas d.rings.ops h.handle = true) (hn : h.ring < 16) (hr : RingReady d h.ring)
    (hh : mgetD d.rings.held h.ring [] = []) : CplWritten ⟨h, 0xCB, 0, 0, 0, false⟩ d (fieldCmd h false (longCmd h f) d) ∧
    (fieldCmd h false (longCmd h f) d).train = d.train := by
  rw [fieldCmd_good hf, longCmd_used hu]
  exact ⟨cplWritten_finish (cmdIn h d).rings 0xCB hn hr hh, train_finish h 0xCB d⟩

theorem imgCmd_queued {c : ImgCmd} (hf : h.flags ≤ 7) (hu : mhas d.rings.ops h.handle = false)
    (hb : (imgBusy d || !d.img.queue.isEmpty) = true) :
    fieldCmd h false (imgCmd h c) d = setImg { d.img with queue := d.img.queue ++ [c] } (opTaken h .queued d) :=
  (fieldCmd_good hf).trans (imgCmd_waits hu hb)

/-- Taking a handle and joining the queue change no register and no memory. -/
theorem touches_queued (i : Img) (st : OpState) : Touches (fun _ => False) d (setImg i (opTaken h st d)) :=
  ⟨fun _ _ _ => rfl, rfl, rfl, rfl⟩

theorem imgCmd_started {c : ImgCmd} (hf : h.flags ≤ 7) (hu : mhas d.rings.ops h.handle = false)
    (hb : (imgBusy d || !d.img.queue.isEmpty) = false) : fieldCmd h false (imgCmd h c) d = imgCmdStart c (opTaken h .queued d) :=
  (fieldCmd_good hf).trans (imgCmd_starts hu hb)

/-- IMG_ACTIVATE with a valid EN is an image command. -/
theorem imgActCmd_valid {en b : Nat} (hen : en ≤ 1) :
    imgActCmd h en b = fieldCmd h false (imgCmd h (.act h (if en = 1 then some b else none))) := by
  unfold imgActCmd
  rw [decide_eq_false (by omega)]

theorem censusCmd_free {expect : Nat} (hf : h.flags ≤ 7) (hu : mhas d.rings.ops h.handle = false) :
    censusCmd h expect d = xCensus h expect (opTaken h .running d) :=
  (fieldCmd_good hf).trans (longCmd_free hu)

section
variable {expect : Nat}

theorem xCensus_taken_noTorus (ht : ¬ OnTorus d) : xCensus h expect (opTaken h .running d) = censusRefused h 0xE3 (opTaken h .running d) :=
  xCensus_noTorus ht

theorem xCensus_taken_tooMany (ht : OnTorus d) (hm : torusRows d * torusCols d < expect) :
    xCensus h expect (opTaken h .running d) = censusRefused h 0xE4 (opTaken h .running d) :=
  (OnTorus.xCensus (d := opTaken h .running d) ht).trans (if_pos hm)

theorem xCensus_taken_busy (ht : OnTorus d) (hm : expect ≤ torusRows d * torusCols d) (hc : d.links.census.isSome = true) :
    xCensus h expect (opTaken h .running d) = censusRefused h 0xE2 (opTaken h .running d) :=
  (OnTorus.xCensus (d := opTaken h .running d) ht).trans ((if_neg (Nat.not_lt.mpr hm)).trans (if_pos hc))

theorem xCensus_taken_enters (ht : OnTorus d) (hm : expect ≤ torusRows d * torusCols d) (hc : d.links.census = none) :
    xCensus h expect (opTaken h .running d) =
      censusEnter { init := devId d, parent := none, children := censusChildren d (devId d), cmd := some h, expect := expect } 0x23
        (opTaken h .running d) :=
  (OnTorus.xCensus (d := opTaken h .running d) ht).trans ((if_neg (Nat.not_lt.mpr hm)).trans (if_neg (by
    change ¬ d.links.census.isSome = true
    simp [hc])))

end

/-- A census refused at once writes its completion after its code. -/
theorem cplWritten_censusRefused (code : Nat) (hn : h.ring < 16) (hr : RingReady d h.ring) (hh : mgetD d.rings.held h.ring [] = []) :
    CplWritten ⟨h, code, 0, 0, 0, false⟩ (sf Reg.SYNC_CENSUS_STAT F.SYNC_CENSUS_STAT_CODE code d)
      (censusRefused h code (opTaken h .running d)) :=
  cplWritten_finish (opTaken h .running d).rings code hn (ringReady_wr hr _ (censusStat_apart hn)) hh

end

section
variable {h : CmdHdr} (hok : WellFormed.okHdr h = true)
include hok

theorem okLoad {src len : Nat} (hsrc : src < 2 ^ 64) (hlen : len < 2 ^ 32) :
    (WellFormed.okHdr h && WellFormed.lt src (2 ^ 64) && WellFormed.lt len (2 ^ 32)) = true := by
  simp only [hok, WellFormed.lt, hsrc, hlen, decide_true, Bool.and_self]

theorem okActivate {en b : Nat} (hen : en < 256) (hb : b < 2 ^ 32) :
    (WellFormed.okHdr h && WellFormed.lt en 256 && WellFormed.lt b (2 ^ 32)) = true := by
  simp only [hok, WellFormed.lt, hen, hb, decide_true, Bool.and_self]

theorem okCensus {expect : Nat} (he : expect < 65536) : (WellFormed.okHdr h && WellFormed.lt expect 65536) = true := by
  simp only [hok, WellFormed.lt, he, decide_true, Bool.and_self]

theorem ring_lt_of_okHdr : h.ring < 16 := by
  simp only [WellFormed.okHdr, WellFormed.lt, Bool.and_eq_true, decide_eq_true_eq] at hok
  obtain ⟨⟨⟨⟨⟨⟨hring, -⟩, -⟩, -⟩, -⟩, -⟩, -⟩ := hok
  exact hring

end

/-- Settles O41: a command is refused for its fields or its handle, or has taken its handle and waits, starts, or enters the census. -/
theorem imageAndCensusCommands : Obligations.ImageAndCensusCommands := by
  unfold Obligations.ImageAndCensusCommands
  intro s h0 hs ht hok d0 h open_ busy free ends code
  have hring := ring_lt_of_okHdr hok
  have load : ∀ {src len P}, src < 2 ^ 64 → len < 2 ^ 32 → P (imgLoadCmd (h 0x40) src len d0) → Completes (.imgLoad h0 src len) s P :=
    fun hsrc hlen hP => completes_sys rfl (okLoad hok hsrc hlen) hs hP
  have act : ∀ {en b P}, en < 256 → b < 2 ^ 32 → (imgActCmd (h 0x41) en b d0).train = none → P (imgActCmd (h 0x41) en b d0) →
      Completes (.imgActivate h0 en b) s P :=
    fun hen hb hT hP => completes_sys (f := trAfter _) rfl (okActivate hok hen hb) hs (by rwa [trAfter_none hT])
  have census : ∀ {ex P}, ex < 65536 → P (censusCmd (h 0x50) ex d0) → Completes (.census h0 ex) s P :=
    fun hex hP => completes_sys rfl (okCensus hok hex) hs hP
  have enters : ∀ {ex P}, ex < 65536 → free → P (xCensus (h 0x50) ex (open_ 0x50 .running)) → Completes (.census h0 ex) s P :=
    fun hex hfree hP => census hex (by rwa [censusCmd_free (h := h 0x50) hfree.1 hfree.2])
  have refused : ∀ {ex} c, RingReady d0 h0.ring → mgetD d0.rings.held h0.ring [] = [] → ex < 65536 → free →
      xCensus (h 0x50) ex (open_ 0x50 .running) = censusRefused (h 0x50) c (open_ 0x50 .running) → Completes (.census h0 ex) s (code c) :=
    fun c hr hh hex hfree hx => enters hex hfree (by
      rw [hx]
      exact cplWritten_censusRefused (h := h 0x50) (d := d0) c hring hr hh)
  refine ⟨fun src len hsrc hlen hfree => ⟨fun hb => load hsrc hlen ?_, fun hb => load hsrc hlen ?_⟩,
    fun en b hen hb32 hfree => ⟨fun hb => act (by omega) hb32 ?_ ?_, fun hb hT => act (by omega) hb32 ?_ ?_⟩,
    fun ex hex hfree => ⟨fun hr hh => ⟨fun hx => ?_, fun hx hm => ?_, fun hx hm hc => ?_⟩, fun hx hm hc => enters hex hfree ?_⟩,
    fun hr hh src len en b ex hsrc hlen hen hb32 hex => ⟨fun hf => ⟨load hsrc hlen ?_, census hex ?_⟩, fun hf => act hen hb32 ?_ ?_,
      fun hf hu => ⟨load hsrc hlen ?_, census hex ?_, fun hen1 => act hen hb32 ?_ ?_⟩⟩⟩
  · rw [show imgLoadCmd (h 0x40) src len d0 = _ from imgCmd_queued (h := h 0x40) hfree.1 hfree.2 hb]
    exact ⟨rfl, opTaken_entry _, touches_queued _ _⟩
  · exact imgCmd_started (h := h 0x40) hfree.1 hfree.2 hb
  · rw [imgActCmd_valid hen, imgCmd_queued (h := h 0x41) hfree.1 hfree.2 hb]
    exact ht
  · rw [imgActCmd_valid hen, imgCmd_queued (h := h 0x41) hfree.1 hfree.2 hb]
    exact ⟨rfl, opTaken_entry _, touches_queued _ _⟩
  · rw [imgActCmd_valid hen, imgCmd_started (h := h 0x41) hfree.1 hfree.2 hb]
    exact hT
  · rw [imgActCmd_valid hen, imgCmd_started (h := h 0x41) hfree.1 hfree.2 hb]
    rfl
  · exact refused 0xE3 hr hh hex hfree (xCensus_taken_noTorus (h := h 0x50) (d := d0) hx)
  · exact refused 0xE4 hr hh hex hfree (xCensus_taken_tooMany (h := h 0x50) (d := d0) hx hm)
  · exact refused 0xE2 hr hh hex hfree (xCensus_taken_busy (h := h 0x50) (d := d0) hx hm hc)
  · exact xCensus_taken_enters (h := h 0x50) (d := d0) hx hm hc
  · exact (fieldCmd_ends (h := h 0x40) (.inl hf) hring hr hh).1
  · exact (fieldCmd_ends (h := h 0x50) (.inl hf) hring hr hh).1
  · exact (fieldCmd_ends (h := h 0x41) (hf.imp_right decide_eq_true) hring hr hh).2.trans ht
  · exact (fieldCmd_ends (h := h 0x41) (hf.imp_right decide_eq_true) hring hr hh).1
  · exact (longCmd_ends (h := h 0x40) hf hu hring hr hh).1
  · exact (longCmd_ends (h := h 0x50) hf hu hring hr hh).1
  · rw [imgActCmd_valid hen1]
    exact (longCmd_ends (h := h 0x41) hf hu hring hr hh).2.trans ht
  · rw [imgActCmd_valid hen1]
    exact (longCmd_ends (h := h 0x41) hf hu hring hr hh).1

end Sys2Proof.Machine
end

/-! ## Engine states: drain, enable, kill, faults and counters -/

section
/-! SUPPORT and settlement of O17: what changes the tables of engines and arrays alone, what an interrupt leaves while no power transition
runs, and the equation of each row of an engine. -/

namespace Sys2Proof.Machine

/-! ### The tables of engines and arrays -/

/-- Only the tables of the engines and of the arrays have changed. -/
def EngsOnly (d e : Dev) : Prop := ∃ arys engs, e = { d with arys := arys, engs := engs }

section
variable {d e : Dev}

theorem EngsOnly.refl (d : Dev) : EngsOnly d d := ⟨_, _, rfl⟩

theorem EngsOnly.trans {f : Dev} : EngsOnly d e → EngsOnly e f → EngsOnly d f := by
  rintro ⟨_, _, rfl⟩ ⟨a, g, rfl⟩
  exact ⟨a, g, rfl⟩

theorem EngsOnly.rd (h : EngsOnly d e) (r : Reg) : rd e r = rd d r := by obtain ⟨_, _, rfl⟩ := h; rfl

theorem EngsOnly.gf (h : EngsOnly d e) (r : Reg) (f : Fld) : gf e r f = gf d r f := by obtain ⟨_, _, rfl⟩ := h; rfl

theorem EngsOnly.fifos (h : EngsOnly d e) : e.fifos = d.fifos := by obtain ⟨_, _, rfl⟩ := h; rfl

theorem EngsOnly.tm (h : EngsOnly d e) : e.tm = d.tm := by obtain ⟨_, _, rfl⟩ := h; rfl

theorem EngsOnly.pmu (h : EngsOnly d e) : e.pmu = d.pmu := by obtain ⟨_, _, rfl⟩ := h; rfl

theorem EngsOnly.img (h : EngsOnly d e) : e.img = d.img := by obtain ⟨_, _, rfl⟩ := h; rfl

theorem EngsOnly.touches {w : Nat → Prop} (h : EngsOnly d e) : Touches w d e := by
  obtain ⟨_, _, rfl⟩ := h
  exact Touches.mk (Touches.refl d)

theorem EngsOnly.ite {c : Prop} [Decidable c] {f : Dev} (h : EngsOnly d e) (k : EngsOnly d f) : EngsOnly d (if c then e else f) := by
  split
  · exact h
  · exact k

theorem EngsOnly.foldl {α : Type} {f : Dev → α → Dev} (hf : ∀ e x, EngsOnly d e → EngsOnly d (f e x)) :
    ∀ (l : List α) {e : Dev}, EngsOnly d e → EngsOnly d (l.foldl f e)
  | [], _, h => h
  | x :: l, e, h => EngsOnly.foldl hf l (hf e x h)

theorem EngsOnly.stageUpd (h : EngsOnly d e) (key : Nat) (f : StageRt → StageRt) : EngsOnly d (stageUpd key f e) := h.trans ⟨_, _, rfl⟩

theorem EngsOnly.aryUpd (h : EngsOnly d e) (k : Nat) (f : Ary → Ary) : EngsOnly d (aryUpd k f e) := h.trans ⟨_, _, rfl⟩

theorem EngsOnly.senseStart (h : EngsOnly d e) (k p : Nat) : EngsOnly d (senseStart k p e) := by
  unfold Machine.senseStart
  refine EngsOnly.ite h ?_
  split
  · exact h
  · exact h.aryUpd _ _

theorem EngsOnly.contStop (h : EngsOnly d e) (k ctx : Nat) : EngsOnly d (contStop k ctx e) :=
  EngsOnly.foldl (fun _ _ h => h.senseStart _ _) _ (h.aryUpd _ _)

/-- The reads that an engine stops are an affair of the arrays. -/
theorem EngsOnly.readsStop (h : EngsOnly d e) (k : Nat) (key : Option Nat) : EngsOnly d (readsStop k key e) :=
  EngsOnly.foldl (fun _ _ h =>
    have crossed := EngsOnly.ite (h.aryUpd _ _) h
    have first := EngsOnly.ite (crossed.contStop _ 0) crossed
    EngsOnly.ite (first.contStop _ 1) first) _ h

theorem EngsOnly.engEach (h : EngsOnly d e) (k : Nat) {f : Nat → Nat → Dev → Dev} (hf : ∀ b id e, EngsOnly d e → EngsOnly d (f b id e)) :
    EngsOnly d (engEach k f e) := EngsOnly.foldl (fun _ _ h => hf _ _ _ h) _ h

theorem EngsOnly.engDiscard (h : EngsOnly d e) (k : Nat) : EngsOnly d (engDiscard k e) :=
  (h.engEach k fun _ _ _ h => h.stageUpd _ _).readsStop _ _

theorem EngsOnly.engRestart (h : EngsOnly d e) (k : Nat) : EngsOnly d (engRestart k e) := h.engEach k fun _ _ _ h => h.stageUpd _ _

end

theorem IrqOnly.engs {d e : Dev} (h : IrqOnly d e) : e.engs = d.engs := by obtain ⟨_, _, _, _, _, rfl⟩ := h; rfl

/-! ### An interrupt while no power transition runs -/

theorem rd_raisePend_ne (n : Nat) (d : Dev) {r : Reg} (hr : r.addr < 0x10030100 ∨ 0x10030140 ≤ r.addr) : rd (raisePend n d) r = rd d r := by
  unfold raisePend
  dsimp only
  split
  · rfl
  · have pend : rd (icPresent (bankSet Reg.IC_PEND n true d)) r = rd d r := by
      rw [rd_icPresent]
      refine rd_sf_ne _ _ _ fun he => ?_
      rw [he] at hr
      simp only [Reg.IC_PEND] at hr
      omega
    split
    · exact pend
    · exact pend

theorem pmuWakeBit_idle (src : Nat) {d : Dev} (h : pmuBusy d = false) :
    pmuWakeBit src d = if (rd d Reg.PMU_WAKE_EN).getLsbD src then sf Reg.PMU_WAKE_PEND ⟨src, 1⟩ 1 d else d := by
  have busy : gb (sf Reg.PMU_WAKE_PEND ⟨src, 1⟩ 1 d) Reg.PMU_STAT F.PMU_STAT_BUSY = false := by
    unfold gb
    rw [gf_sf_ne _ _ _ _ (by decide)]
    exact h
  unfold pmuWakeBit
  simp only [busy, Bool.false_and, Bool.false_eq_true, if_false]

/-- With no power transition under way, an interrupt writes the pending bits and PMU_WAKE_PEND alone (R727). -/
theorem rd_raise_idle (n : Nat) {d : Dev} (h : pmuBusy d = false) {r : Reg} (hr : r.addr < 0x10030100 ∨ 0x10030140 ≤ r.addr)
    (hw : r.addr ≠ Reg.PMU_WAKE_PEND.addr) : rd (raise n d) r = rd d r := by
  have busy : pmuBusy (raisePend n d) = false := by
    unfold pmuBusy gb gf
    rw [rd_raisePend_ne n d (.inl (by decide))]
    exact h
  unfold raise
  dsimp only
  rw [pmuWakeBit_idle 14 busy]
  split
  · split
    · rw [rd_sf_ne _ _ _ hw, rd_raisePend_ne n d hr]
    · exact rd_raisePend_ne n d hr
  · exact rd_raisePend_ne n d hr

/-! ### States, FIFOs and placements of an engine -/

section
variable {d e : Dev} {k : Nat}

theorem engStat_raised (hk : k < 16) : raised (Reg.ENG_STAT k).addr := by
  simp only [raised, Reg.ENG_STAT]
  omega

theorem engCtl_ne_stat (k : Nat) : (Reg.ENG_CTL k).addr ≠ (Reg.ENG_STAT k).addr := by
  simp only [Reg.ENG_CTL, Reg.ENG_STAT]
  omega

theorem EngsOnly.engState (h : EngsOnly d e) (k : Nat) : engState e k = engState d k := h.gf _ _

theorem engState_of_rd (h : rd e (Reg.ENG_STAT k) = rd d (Reg.ENG_STAT k)) : engState e k = engState d k := by
  unfold engState gf
  rw [h]

theorem engState_setEngState {st : Nat} (h : st < 8) (d : Dev) : engState (setEngState k st d) k = st :=
  (gf_sf_same _ _ _ _ (by decide)).trans (Nat.mod_eq_of_lt h)

theorem engState_sf_ctl (f : Fld) (x : Nat) (d : Dev) : engState (sf (Reg.ENG_CTL k) f x d) k = engState d k :=
  gf_sf_ne _ _ _ _ (engCtl_ne_stat k).symm

theorem rd_raise_engStat (n : Nat) (h : pmuBusy d = false) (k : Nat) : rd (raise n d) (Reg.ENG_STAT k) = rd d (Reg.ENG_STAT k) := by
  refine rd_raise_idle n h (.inr ?_) ?_
  · simp only [Reg.ENG_STAT]
    omega
  · simp only [Reg.ENG_STAT, Reg.PMU_WAKE_PEND]
    omega

theorem pmuBusy_sf_engStat (f : Fld) (x : Nat) (d : Dev) : pmuBusy (sf (Reg.ENG_STAT k) f x d) = pmuBusy d := by
  unfold pmuBusy gb
  rw [gf_sf_ne]
  simp only [Reg.ENG_STAT, Reg.PMU_STAT]
  omega

theorem engKept_on (h : engOff d k = false) : engKept d k = engState d k := by
  have : mget d.pmu.engSaved k = none := by simpa [engOff, mhas] using h
  simp [engKept, mgetD, this]

theorem engKept_ctl (h : engOff d k = false) (f : Fld) (x : Nat) : engKept (sf (Reg.ENG_CTL k) f x d) k = engState d k :=
  (engKept_on (d := sf (Reg.ENG_CTL k) f x d) h).trans (engState_sf_ctl f x d)

theorem engTake_on (st : Nat) (h : engOff d k = false) : engTake k st d = setEngState k st d :=
  if_neg (Bool.eq_false_iff.mp h)

/-- With no FIFO bound, none loses its producer. -/
theorem prodCheckAll_unbound (h : d.fifos = []) : prodCheckAll d = d := by
  unfold prodCheckAll
  rw [h]
  rfl

theorem killMarks_unbound (h : d.fifos = []) (k : Nat) : killMarks k d = d := by
  unfold killMarks portsOf
  rw [h]
  rfl

/-- With nothing at the tier manager, no placement is captured. -/
theorem captureEngine_unplaced (h : d.tm = {}) (k : Nat) : captureEngine k d = d := by
  unfold captureEngine t0On
  rw [h]
  rfl

theorem killHeld_unplaced (h : d.tm = {}) (k : Nat) : killHeld k d = d := by
  unfold killHeld
  obtain ⟨⟩ := d
  subst h
  rfl

end

/-! ### Each row of the engine -/

section
variable {d : Dev} {k : Nat}

/-- A drain that begins has not been reported as slow (R149). -/
def slowForgotten (k : Nat) (d : Dev) : Dev := { d with engs := { d.engs with slow := mdel d.engs.slow k } }

theorem engsOnly_slowForgotten (k : Nat) (d : Dev) : EngsOnly d (slowForgotten k d) := ⟨_, _, rfl⟩

theorem engDrain_drains (hoff : engOff d k = false) (h : engState d k = 1 ∨ engState d k = 2) :
    engDrain k d = slowForgotten k (setEngState k 3 (sf (Reg.ENG_CTL k) F.ENG_CTL_EN 0 d)) := by
  have on : ¬ engOff (sf (Reg.ENG_CTL k) F.ENG_CTL_EN 0 d) k = true := Bool.eq_false_iff.mp hoff
  unfold engDrain
  dsimp only
  rw [engKept_ctl hoff, if_pos h, if_neg on]
  rfl

theorem engDrain_leaves (hoff : engOff d k = false) (h1 : engState d k ≠ 1) (h2 : engState d k ≠ 2) :
    engDrain k d = sf (Reg.ENG_CTL k) F.ENG_CTL_EN 0 d := by
  unfold engDrain
  dsimp only
  rw [engKept_ctl hoff, if_neg (by tauto)]

/-- What the engine has before ENG_CTL.EN returns it to work: a killed one begins its stages again (R154). -/
def engReady (k : Nat) (d : Dev) : Dev := if engState d k = 5 then engRestart k d else d

theorem engsOnly_engReady (k : Nat) (d : Dev) : EngsOnly d (engReady k d) := EngsOnly.ite ((EngsOnly.refl d).engRestart k) (EngsOnly.refl d)

theorem engEnable_returns (hoff : engOff d k = false) (h3 : 3 ≤ engState d k) (h5 : engState d k ≤ 5) :
    engEnable k d = setEngState k (engRun d) (engReady k (sf (Reg.ENG_CTL k) F.ENG_CTL_EN 1 d)) := by
  have st : engState (sf (Reg.ENG_CTL k) F.ENG_CTL_EN 1 d) k = engState d k := engState_sf_ctl _ _ d
  have on : ∀ e, EngsOnly (sf (Reg.ENG_CTL k) F.ENG_CTL_EN 1 d) e → engOff e k = false ∧ engRun e = engRun d := fun e he => by
    unfold engOff engRun
    rw [he.pmu, he.img]
    exact ⟨hoff, rfl⟩
  obtain ⟨offSame, runSame⟩ := on _ (EngsOnly.refl _)
  obtain ⟨offRestarted, runRestarted⟩ := on _ ((EngsOnly.refl _).engRestart k)
  unfold engEnable engReady
  dsimp only
  rw [engKept_ctl hoff, st]
  by_cases h : engState d k = 5
  · rw [if_neg (by omega), if_pos h, if_pos h, if_neg (Bool.eq_false_iff.mp offRestarted), runRestarted]
  · rw [if_pos (by omega), if_neg h, if_neg (Bool.eq_false_iff.mp offSame), runSame]

theorem engEnable_leaves (hoff : engOff d k = false) (h : engState d k < 3 ∨ engState d k = 6) :
    engEnable k d = sf (Reg.ENG_CTL k) F.ENG_CTL_EN 1 d := by
  unfold engEnable
  dsimp only
  rw [engKept_ctl hoff, if_neg (by omega), if_neg (by omega)]

theorem engDrained_ends (h : engState d k = 3) (hi : engIdle d k = true) :
    engDrained k d = raise (srcEng 0 k) (setEngState k 4 (engDiscard k d)) := if_pos ⟨h, hi⟩

theorem engDrained_waits (h : engState d k ≠ 3 ∨ engIdle d k = false) : engDrained k d = d := by
  refine if_neg fun hx => h.elim (· hx.1) fun hi => ?_
  rw [hi] at hx
  exact Bool.false_ne_true hx.2

/-- The engine has been reported as draining too long (R149). -/
def slowNoted (k : Nat) (d : Dev) : Dev := { d with engs := { d.engs with slow := mput d.engs.slow k () } }

theorem engDrainSlow_reports (h : engState d k = 3) (hs : mhas d.engs.slow k = false) :
    engDrainSlow k d = raise (srcEng 1 k) (slowNoted k d) := if_pos ⟨h, hs⟩

theorem engDrainSlow_silent (h : engState d k ≠ 3 ∨ mhas d.engs.slow k = true) : engDrainSlow k d = d := by
  refine if_neg fun hx => h.elim (· hx.1) fun hs => ?_
  rw [hs] at hx
  exact Bool.false_ne_true hx.2.symm

/-- An engine that nothing is bound to and that runs no stage is killed: its run-ahead tiles go, and it is KILLED unless it has FAILED. -/
theorem engKill_alone (hoff : engOff d k = false) (hf : d.fifos = []) (ht : d.tm = {}) (hs : engStages d k = []) :
    engKill k d = if engState d k = 6 then engDiscard k d else setEngState k 5 (engDiscard k d) := by
  have gone : EngsOnly d (engDiscard k d) := (EngsOnly.refl d).engDiscard k
  have off : engOff (engDiscard k d) k = false := by
    unfold engOff
    rw [gone.pmu]
    exact hoff
  have each : ∀ f, engEach k f d = d := fun f => by
    unfold engEach
    rw [hs]
    rfl
  unfold engKill
  rw [each]
  dsimp only
  rw [killHeld_unplaced ht, killMarks_unbound (gone.fifos.trans hf), engKept_on hoff]
  by_cases h : engState d k = 6
  · rw [if_pos h, if_pos h, id_eq]
    exact prodCheckAll_unbound (gone.fifos.trans hf)
  · rw [if_neg h, if_neg h, engTake_on 5 off]
    exact prodCheckAll_unbound ((sf_fifos _ _ _ _).trans (gone.fifos.trans hf))

/-- The engine has FAILED with its cause (R155). -/
def engFailed (k cause : Nat) (d : Dev) : Dev :=
  raise (srcEng 3 k) (sf (Reg.ENG_STAT k) F.ENG_STAT_FAULT cause (setEngState k 6 d))

theorem engFail_fails (cause : Nat) (hoff : engOff d k = false) (hf : d.fifos = []) (ht : d.tm = {}) (h : engState d k ≠ 6) :
    engFail k cause d = engFailed k cause d := by
  have quiet : IrqOnly d (engFailed k cause d) := (((IrqOnly.refl d).sf _ _ _).sf _ _ _).raise _
  unfold engFail
  rw [engKept_on hoff, if_neg h, engTake_on 6 hoff]
  exact (congrArg (captureEngine k) (prodCheckAll_unbound (quiet.fifos.trans hf))).trans (captureEngine_unplaced (quiet.tm.trans ht) k)

theorem engFail_again (cause : Nat) (hoff : engOff d k = false) (h : engState d k = 6) : engFail k cause d = d :=
  if_pos ((engKept_on hoff).trans h)

theorem engFailed_leaves {cause : Nat} (hk : k < 16) (hc : cause < 8) (hb : pmuBusy d = false) :
    engState (engFailed k cause d) k = 6 ∧ gf (engFailed k cause d) (Reg.ENG_STAT k) F.ENG_STAT_FAULT = cause ∧
    icPending (engFailed k cause d) (srcEng 3 k) = true ∧
    Touches (fun a => a = (Reg.ENG_CTL k).addr ∨ a = (Reg.ENG_STAT k).addr) d (engFailed k cause d) := by
  have stat : rd (engFailed k cause d) (Reg.ENG_STAT k) = rd (sf (Reg.ENG_STAT k) F.ENG_STAT_FAULT cause (setEngState k 6 d)) (Reg.ENG_STAT k) :=
    rd_raise_engStat _ ((pmuBusy_sf_engStat _ _ _).trans ((pmuBusy_sf_engStat _ _ _).trans hb)) k
  refine ⟨?_, ?_, icPending_raise _ _ ?_, (((Touches.refl d).sf _ _ _ (.inl (.inr rfl))).sf _ _ _ (.inl (.inr rfl))).raise _⟩
  · rw [engState_of_rd stat]
    exact (gf_sf_disj _ _ _ _ _ (by decide) (by decide)).trans (engState_setEngState (by decide) d)
  · unfold gf
    rw [stat]
    exact (gf_sf_same _ _ _ _ (by decide)).trans (Nat.mod_eq_of_lt (hc.trans (by decide)))
  · unfold srcEng
    omega

/-- The six counters that CNT_CLR clears (R168). -/
def engCounters (k : Nat) : List Reg :=
  [Reg.ENG_FIRE_CNT k, Reg.ENG_MX_BUSY k, Reg.ENG_STALL_WS k, Reg.ENG_STALL_IN k, Reg.ENG_STALL_CRED k, Reg.ENG_STALL_WAIT k]

/-- Write 0 to each of a list of registers. -/
def clearRegs (l : List Reg) (d : Dev) : Dev := l.foldl (fun d r => wr r 0 d) d

theorem engCntClr_clears : engCntClr k d = clearRegs (engCounters k) d := rfl

theorem engs_clearRegs (l : List Reg) (d : Dev) : (clearRegs l d).engs = d.engs := by
  unfold clearRegs
  induction l generalizing d with
  | nil => rfl
  | cons r l ih => exact (ih _).trans rfl

theorem Touches.clearRegs {w : Nat → Prop} {e : Dev} (l : List Reg) (hl : ∀ r ∈ l, w r.addr) (h : Touches w d e) :
    Touches w d (clearRegs l e) := by
  induction l generalizing e with
  | nil => exact h
  | cons r l ih => exact ih (fun q hq => hl q (List.mem_cons_of_mem _ hq)) (h.wr r 0 (.inl (hl r List.mem_cons_self)))

/-- A register that has been cleared stays so, and each of the list is. -/
theorem rd_clearRegs {q : Reg} (l : List Reg) (d : Dev) (hl : ∀ r ∈ l, r.addr = q.addr → r = q) (h : q ∈ l ∨ rd d q = 0) :
    rd (clearRegs l d) q = 0 := by
  induction l generalizing d with
  | nil => exact h.resolve_left List.not_mem_nil
  | cons r l ih =>
    refine ih (wr r 0 d) (fun p hp => hl p (List.mem_cons_of_mem _ hp)) ?_
    by_cases hr : r.addr = q.addr
    · obtain rfl := hl r List.mem_cons_self hr
      exact .inr (rd_wr_same _ _ _)
    · refine h.imp (fun hq => ?_) fun hq => (rd_wr_ne 0 d (Ne.symm hr)).trans hq
      exact (List.mem_cons.mp hq).resolve_left fun he => hr (he ▸ rfl)

theorem engCounters_zero {r : Reg} (hr : r ∈ engCounters k) : r = ⟨r.addr, 0⟩ := by
  simp only [engCounters, List.mem_cons, List.not_mem_nil, or_false] at hr
  rcases hr with rfl | rfl | rfl | rfl | rfl | rfl <;> rfl

theorem rd_clearRegs_engCounters {r : Reg} (hr : r ∈ engCounters k) (d : Dev) : rd (clearRegs (engCounters k) d) r = 0 :=
  rd_clearRegs _ _ (fun q hq he => by rw [engCounters_zero hq, engCounters_zero hr, he]) (.inl hr)

end

section
variable {d e : Dev} {k : Nat}

/-- ENG_CTL.EN as it has just been written, whatever else the row did to ENG_STAT. -/
theorem engCtl_en {x : Nat} (hx : x < 2) (st : Nat) (h : rd e (Reg.ENG_CTL k) = rd (sf (Reg.ENG_CTL k) F.ENG_CTL_EN x d) (Reg.ENG_CTL k)) :
    gb e (Reg.ENG_CTL k) F.ENG_CTL_EN = (x != 0) ∧ gb (setEngState k st e) (Reg.ENG_CTL k) F.ENG_CTL_EN = (x != 0) := by
  have written : gf e (Reg.ENG_CTL k) F.ENG_CTL_EN = x := by
    unfold gf
    rw [h]
    exact (gf_sf_same _ _ _ _ (by decide)).trans (Nat.mod_eq_of_lt hx)
  exact ⟨congrArg (· != 0) written, congrArg (· != 0) ((gf_sf_ne _ _ _ _ (engCtl_ne_stat k)).trans written)⟩

theorem touches_ctl (x : Nat) (d : Dev) : Touches (fun a => a = (Reg.ENG_CTL k).addr) d (sf (Reg.ENG_CTL k) F.ENG_CTL_EN x d) :=
  (Touches.refl d).sf _ _ _ (.inl rfl)

theorem Touches.setEngState {w : Nat → Prop} (h : Touches w d e) (hk : k < 16) (st : Nat) : Touches w d (setEngState k st e) :=
  h.sf _ _ _ (.inr (engStat_raised hk))

end

/-- Settles O17: each row is the equation of its case, and what a state, a fault and an interrupt leave is said once for all. -/
theorem engineStates : Obligations.EngineStates := by
  intro s k hs hk hoff d0 ctl stat on only alone failed
  have lt16 : WellFormed.lt k 16 = true := decide_eq_true hk
  have row : ∀ {c : Instr} {f : Dev → Dev} {P : Dev → Prop}, exec c s = liftSys (WellFormed.lt k 16) f s → P (f d0) → Completes c s P :=
    fun he hP => completes_sys he lt16 hs hP
  have drain : ∀ {P : Dev → Prop}, P (engDrain k d0) → Completes (.engDrain k) s P := fun h => row rfl h
  have drained : ∀ {P : Dev → Prop}, P (engDrained k d0) → Completes (.engDrained k) s P := fun h => row rfl h
  have slow : ∀ {P : Dev → Prop}, P (engDrainSlow k d0) → Completes (.engDrainSlow k) s P := fun h => row rfl h
  have enable : ∀ {P : Dev → Prop}, P (engEnable k d0) → Completes (.engEnable k) s P := fun h => row rfl h
  have fault : ∀ {P : Dev → Prop} (cause : Nat), 1 < cause → cause < 6 → P (engFail k cause d0) → Completes (.engFault k cause) s P :=
    fun cause h1 h6 h => completes_sys (f := engFail k cause) rfl (by simp [WellFormed.lt, hk, h1, h6]) hs h
  have fails : alone → pmuBusy d0 = false → engState d0 k ≠ 6 → ∀ cause, cause < 8 → failed cause (engFail k cause d0) :=
    fun ha hb h6 cause hc => by
      rw [engFail_fails cause hoff ha.1 ha.2 h6]
      exact engFailed_leaves hk hc hb
  refine ⟨fun h => drain ?_, fun h1 h2 => drain ?_, fun h hi => drained ?_, fun h => drained (engDrained_waits h), fun h hn => slow ?_,
    fun h => slow (engDrainSlow_silent h), fun h3 h5 => enable ?_, fun h => enable ?_, fun ha hst => row (f := engKill k) rfl ?_,
    fun ha hb h6 => ⟨row (f := engFail k 6) rfl (fails ha hb h6 6 (by decide)), fun cause h1 hc => fault cause h1 hc (fails ha hb h6 cause (by omega)),
      fun hf => row (f := fireHang k) rfl ?_⟩,
    fun h6 => ⟨row (f := engFail k 6) rfl (engFail_again 6 hoff h6), fun cause h1 hc => fault cause h1 hc (engFail_again cause hoff h6),
      row (f := fireHang k) rfl ?_⟩, row (f := engCntClr k) rfl ?_⟩
  · have note := engsOnly_slowForgotten k (setEngState k 3 (sf (Reg.ENG_CTL k) F.ENG_CTL_EN 0 d0))
    rw [engDrain_drains hoff h]
    exact ⟨(congrArg (· != 0) (note.gf _ _)).trans (engCtl_en (x := 0) (by decide) 3 rfl).2,
      (note.engState k).trans (engState_setEngState (by decide) _),
      (((touches_ctl 0 d0).setEngState hk 3).mono fun _ => .inl).trans note.touches⟩
  · rw [engDrain_leaves hoff h1 h2]
    exact ⟨(engCtl_en (x := 0) (by decide) 0 rfl).1, engState_sf_ctl _ _ d0, touches_ctl 0 d0⟩
  · have gone : EngsOnly d0 (engDiscard k d0) := (EngsOnly.refl d0).engDiscard k
    rw [engDrained_ends h hi]
    refine ⟨icPending_raise _ _ (by unfold srcEng; omega), fun hb => ?_, (gone.touches.setEngState hk 4).raise _⟩
    have busy : pmuBusy (setEngState k 4 (engDiscard k d0)) = false := by
      rw [setEngState, pmuBusy_sf_engStat, pmuBusy, gb, gone.gf]
      exact hb
    exact (engState_of_rd (rd_raise_engStat _ busy k)).trans (engState_setEngState (by decide) _)
  · rw [engDrainSlow_reports h hn]
    refine ⟨icPending_raise _ _ (by unfold srcEng; omega), ?_, fun hb => ?_, Touches.raise (Touches.mk (Touches.refl d0)) _⟩
    · rw [((IrqOnly.refl (slowNoted k d0)).raise _).engs]
      exact Option.isSome_iff_exists.mpr ⟨(), mget_mput_same _ _ _⟩
    · exact (engState_of_rd (rd_raise_engStat (d := slowNoted k d0) _ hb k)).trans h
  · have ready := engsOnly_engReady k (sf (Reg.ENG_CTL k) F.ENG_CTL_EN 1 d0)
    rw [engEnable_returns hoff h3 h5]
    refine ⟨(engCtl_en (x := 1) (by decide) _ (ready.rd _)).2, engState_setEngState ?_ _,
      (((touches_ctl 1 d0).trans ready.touches).setEngState hk _).mono fun _ => .inl⟩
    unfold engRun
    split <;> decide
  · rw [engEnable_leaves hoff h]
    exact ⟨(engCtl_en (x := 1) (by decide) 0 rfl).1, engState_sf_ctl _ _ d0, touches_ctl 1 d0⟩
  · have gone : EngsOnly d0 (engDiscard k d0) := (EngsOnly.refl d0).engDiscard k
    rw [engKill_alone hoff ha.1 ha.2 hst]
    by_cases h : engState d0 k = 6
    · rw [if_pos h, if_pos h]
      exact ⟨(gone.engState k).trans h, gone.touches⟩
    · rw [if_neg h, if_neg h]
      exact ⟨engState_setEngState (by decide) _, gone.touches.setEngState hk 5⟩
  · have hangs : fireHang k d0 = engFail k 1 d0 := if_pos (List.any_eq_true.mpr (hf.imp fun p hp => ⟨hp.1, by simpa using hp.2⟩))
    rw [hangs]
    exact fails ha hb h6 1 (by decide)
  · unfold fireHang
    rw [engFail_again 1 hoff h6, ite_self]
  · rw [engCntClr_clears]
    exact ⟨fun r hr => rd_clearRegs_engCounters hr d0, engs_clearRegs _ d0, (Touches.refl d0).clearRegs _ fun r hr => ⟨r, hr, rfl⟩⟩

end Sys2Proof.Machine
end

/-! ## What leaves the waiting STARTs and the pipelines alone -/

section
/-! SUPPORT of O20: reads, writes, items, completions and copies change neither the STARTs that wait, nor the pipelines, nor the images. -/

namespace Sys2Proof.Machine

/-- The STARTs that wait, the pipelines and the images. -/
def Dev.starts (d : Dev) : FMap (CmdHdr × StartP) × FMap Pipe × Img := (d.rings.waiting, d.pipes, d.img)

@[simp] theorem starts_mk {part : Part} {regs : FMap (BitVec 64)} {mem : List Host.Cell} {poison : FMap Unit} {errs : FMap ErrPat} {out : List Out} {free : Nat} {intg : Intg} {score : Score}
    {rings : Rings} {ic : Ic} {pmu : Pmu} {img : Img} {fifos : FMap Fifo} {pinForce : Bool} {engs : Engs} {pipes : FMap Pipe} {tm : Tm}
    {links : Links} {arys : Arys} {boots : Nat} {slots : Slots} {le : Le} {arb : Arb} {train : Option TrainRun} {keys : Keys} {boot : Boot} {periph : Periph} :
    (Dev.mk part regs mem poison errs out free intg score rings ic pmu img fifos pinForce engs pipes tm links arys boots slots le arb train
      keys boot periph).starts = (rings.waiting, pipes, img) := rfl

@[simp] theorem starts_eta (d : Dev) : (d.rings.waiting, d.pipes, d.img) = d.starts := rfl

theorem starts_of_eq {α : Type} {p : α × Dev} {a : α} {e : Dev} (h : p = (a, e)) : e.starts = p.2.starts := h ▸ rfl

theorem starts_of_eq2 {α β : Type} {p : α × β × Dev} {a : α} {b : β} {e : Dev} (h : p = (a, b, e)) : e.starts = p.2.2.starts := h ▸ rfl

@[simp] theorem starts_ite {c : Prop} [Decidable c] (a b : Dev) : (if c then a else b).starts = if c then a.starts else b.starts := apply_ite _ _ _ _

@[simp] theorem starts_ite2 {α : Type} {c : Prop} [Decidable c] (a b : α × Dev) : (if c then a else b).2.starts = if c then a.2.starts else b.2.starts :=
  apply_ite (fun p : α × Dev => p.2.starts) _ _ _

@[simp] theorem starts_foldl {α : Type} (l : List α) (f : Dev → α → Dev) (d : Dev) (hf : ∀ e x, (f e x).starts = e.starts) :
    (l.foldl f d).starts = d.starts := by
  induction l generalizing d with
  | nil => rfl
  | cons x l ih => exact (ih _).trans (hf d x)

@[simp] theorem starts_foldl2 {α β : Type} (l : List α) (f : β × Dev → α → β × Dev) (p : β × Dev) (hf : ∀ q x, (f q x).2.starts = q.2.starts) :
    (l.foldl f p).2.starts = p.2.starts := by
  induction l generalizing p with
  | nil => rfl
  | cons x l ih => exact (ih _).trans (hf p x)

@[simp] theorem starts_forEach {α : Type} (l : List α) (f : α → Dev → Dev) (d : Dev) (hf : ∀ x e, (f x e).starts = e.starts) :
    (forEach l f d).starts = d.starts := starts_foldl _ _ _ fun e x => hf x e

@[simp] theorem starts_forN (n : Nat) (f : Nat → Dev → Dev) (d : Dev) (hf : ∀ x e, (f x e).starts = e.starts) :
    (forN n f d).starts = d.starts := starts_forEach _ _ _ hf

@[simp] theorem starts_wr (r : Reg) (v : BitVec 64) (d : Dev) : (wr r v d).starts = d.starts := by simp [wr]

@[simp] theorem starts_sf (r : Reg) (f : Fld) (x : Nat) (d : Dev) : (sf r f x d).starts = d.starts := by simp [sf]

@[simp] theorem starts_emit (o : Out) (d : Dev) : (emit o d).starts = d.starts := by simp [emit]

@[simp] theorem starts_whenB (c : Bool) (f : Dev → Dev) (d : Dev) (hf : ∀ e, (f e).starts = e.starts) :
    (whenB c f d).starts = d.starts := by simp [whenB, hf]

@[simp] theorem starts_takeFree (d : Dev) : (takeFree d).2.starts = d.starts := by simp [takeFree]

@[simp] theorem starts_bankSet (r : Nat → Reg) (n : Nat) (b : Bool) (d : Dev) : (bankSet r n b d).starts = d.starts := by simp [bankSet]

@[simp] theorem starts_icPresent (d : Dev) : (icPresent d).starts = d.starts := by simp [icPresent]

@[simp] theorem starts_raisePend (n : Nat) (d : Dev) : (raisePend n d).starts = d.starts := by simp [raisePend]

@[simp] theorem starts_pmuCancel (last agent : Nat) (d : Dev) : (pmuCancel last agent d).starts = d.starts := by simp [pmuCancel]

@[simp] theorem starts_pmuCause (src : Nat) (d : Dev) : (pmuCause src d).starts = d.starts := by simp [pmuCause]

@[simp] theorem starts_pmuWakeBit (src : Nat) (d : Dev) : (pmuWakeBit src d).starts = d.starts := by simp [pmuWakeBit]

@[simp] theorem starts_raise (n : Nat) (d : Dev) : (raise n d).starts = d.starts := by simp [raise]

@[simp] theorem starts_cntAdd (r : Reg) (fc fo : Fld) (n src : Nat) (d : Dev) :
    (cntAdd r fc fo n src d).starts = d.starts := by simp [cntAdd]

@[simp] theorem starts_cntAdd64 (r : Reg) (n : Nat) (d : Dev) : (cntAdd64 r n d).starts = d.starts := by simp [cntAdd64]

@[simp] theorem starts_logOnce (r : Reg) (fv fo : Fld) (fill : Dev → Dev) (d : Dev) (hfill : ∀ e, (fill e).starts = e.starts) :
    (logOnce r fv fo fill d).starts = d.starts := by simp [logOnce, hfill]

@[simp] theorem starts_rawStore (a : Nat) (bs : List Byte) (d : Dev) : (rawStore a bs d).starts = d.starts := by simp [rawStore]

@[simp] theorem starts_intgUpd (st : Nat) (f : IntgStore → IntgStore) (d : Dev) : (intgUpd st f d).starts = d.starts := by simp [intgUpd]

@[simp] theorem starts_intgOvf (st : Nat) (d : Dev) : (intgOvf st d).starts = d.starts := by simp [intgOvf]

@[simp] theorem starts_ceLog (st addr sym : Nat) (d : Dev) : (ceLog st addr sym d).starts = d.starts := by
  unfold ceLog
  dsimp only
  (repeat' split) <;> simp

@[simp] theorem starts_ueEntry (st cause addr : Nat) (d : Dev) : (ueEntry st cause addr d).starts = d.starts := by simp [ueEntry]

@[simp] theorem starts_ueDecode (st addr : Nat) (d : Dev) : (ueDecode st addr d).starts = d.starts := by simp [ueDecode]

@[simp] theorem starts_consume (cause master batch id addr : Nat) (d : Dev) :
    (consume cause master batch id addr d).starts = d.starts := by simp [consume]

@[simp] theorem starts_markG (g : Nat) (d : Dev) : (markG g d).starts = d.starts := by simp [markG]

@[simp] theorem starts_unmarkG (g : Nat) (d : Dev) : (unmarkG g d).starts = d.starts := by simp [unmarkG]

@[simp] theorem starts_errSet (g : Nat) (e : ErrPat) (d : Dev) : (errSet g e d).starts = d.starts := by simp [errSet]

@[simp] theorem starts_readGran (scrub : Bool) (g : Nat) (d : Dev) : (readGran scrub g d).2.starts = d.starts := by
  unfold readGran
  dsimp only
  (repeat' split) <;> simp

@[simp] theorem starts_flipApply (g st : Nat) (d : Dev) : (flipApply g st d).starts = d.starts := by simp [flipApply]

@[simp] theorem starts_writeGran (g o : Nat) (bs : List Byte) (p : Bool) (d : Dev) :
    (writeGran g o bs p d).starts = d.starts := by simp [writeGran]

@[simp] theorem starts_consumeRead (cause master fa n : Nat) (d : Dev) :
    (consumeRead cause master fa n d).starts = d.starts := by simp [consumeRead]

@[simp] theorem starts_readMem (a n : Nat) (d : Dev) : (readMem a n d).2.starts = d.starts := by simp [readMem]

@[simp] theorem starts_writeMem (a : Nat) (bs : List Byte) (p : Bool) (d : Dev) :
    (writeMem a bs p d).starts = d.starts := by simp [writeMem]

@[simp] theorem starts_busError (cause master : Nat) (write : Bool) (addr : Nat) (d : Dev) :
    (busError cause master write addr d).starts = d.starts := by simp [busError]

@[simp] theorem starts_scoreProgram (final : Bool) (d : Dev) : (scoreProgram final d).starts = d.starts := by simp [scoreProgram]

@[simp] theorem starts_scoreFill (fuel : Nat) (d : Dev) : (scoreFill fuel d).starts = d.starts := by
  induction fuel generalizing d with
  | zero => rfl
  | succ fuel ih =>
    unfold scoreFill
    split
    · rfl
    · split
      · rfl
      · simp [ih]


@[simp] theorem starts_scoreQueue (r : ScoreRec) (d : Dev) : (scoreQueue r d).starts = d.starts := by simp [scoreQueue]

@[simp] theorem starts_scoreEvent (ev kind index : Nat) (args : List Nat) (d : Dev) :
    (scoreEvent ev kind index args d).starts = d.starts := by simp [scoreEvent]

@[simp] theorem starts_stackEvent (key n : Nat) (d : Dev) : (stackEvent key n d).starts = d.starts := by simp [stackEvent]

@[simp] theorem starts_aryUpd (k : Nat) (f : Ary → Ary) (d : Dev) : (aryUpd k f d).starts = d.starts := by simp [aryUpd]

@[simp] theorem starts_wearUpd (k : Nat) (sector : Bool) (index : Nat) (f : Wear → Wear) (d : Dev) :
    (wearUpd k sector index f d).starts = d.starts := by simp [wearUpd]

@[simp] theorem starts_wearEvent (k ev : Nat) (sector : Bool) (index page : Nat) (d : Dev) :
    (wearEvent k ev sector index page d).starts = d.starts := by simp [wearEvent]

@[simp] theorem starts_busDeliver (master fa : Nat) (bs : List Byte) (p : Bool) (d : Dev) :
    (busDeliver master fa bs p d).starts = d.starts := by simp [busDeliver]

@[simp] theorem starts_senseStart (k p : Nat) (d : Dev) : (senseStart k p d).starts = d.starts := by
  unfold senseStart
  dsimp only
  (repeat' split) <;> simp

@[simp] theorem starts_sensesStart (k : Nat) (d : Dev) : (sensesStart k d).starts = d.starts := by simp [sensesStart]

@[simp] theorem starts_contStop (k ctx : Nat) (d : Dev) : (contStop k ctx d).starts = d.starts := by simp [contStop]

@[simp] theorem starts_readReg (r : PageReg) (addr n : Nat) (d : Dev) : (readReg r addr n d).2.starts = d.starts := by simp [readReg]

@[simp] theorem starts_senseCount (k n : Nat) (d : Dev) : (senseCount k n d).starts = d.starts := by simp [senseCount]

@[simp] theorem starts_winBlank (k b : Nat) (d : Dev) : (winBlank k b d).starts = d.starts := by simp [winBlank]

@[simp] theorem starts_rawReplace (a : Nat) (bs : List Byte) (d : Dev) : (rawReplace a bs d).starts = d.starts := by simp [rawReplace]

@[simp] theorem starts_damage (a n : Nat) (d : Dev) : (damage a n d).starts = d.starts := by simp [damage]

@[simp] theorem starts_invalidate (k b : Nat) (d : Dev) : (invalidate k b d).starts = d.starts := by simp [invalidate]

@[simp] theorem starts_psecInvalidate (k n : Nat) (d : Dev) : (psecInvalidate k n d).starts = d.starts := by simp [psecInvalidate]

@[simp] theorem starts_grantBack (k : Nat) (d : Dev) : (grantBack k d).starts = d.starts := by simp [grantBack]

@[simp] theorem starts_eraseBegin (k : Nat) (sector : Bool) (index : Nat) (d : Dev) :
    (eraseBegin k sector index d).starts = d.starts := by simp [eraseBegin]

@[simp] theorem starts_opRun (k g : Nat) (d : Dev) : (opRun k g d).starts = d.starts := by
  unfold opRun
  split <;> simp

@[simp] theorem starts_opsRun (k : Nat) (d : Dev) : (opsRun k d).starts = d.starts := by simp [opsRun]

@[simp] theorem starts_grantAsk (k : Nat) (d : Dev) : (grantAsk k d).starts = d.starts := by simp [grantAsk]

@[simp] theorem starts_opstatTarget (k g op index page : Nat) (d : Dev) :
    (opstatTarget k g op index page d).starts = d.starts := by simp [opstatTarget]

@[simp] theorem starts_opOutcome (k g code : Nat) (d : Dev) : (opOutcome k g code d).starts = d.starts := by simp [opOutcome]

@[simp] theorem starts_opStart (k : Nat) (o : AryOp) (d : Dev) : (opStart k o d).starts = d.starts := by simp [opStart]

@[simp] theorem starts_opDrop (k g : Nat) (d : Dev) : (opDrop k g d).starts = d.starts := by simp [opDrop]


@[simp] theorem starts_opAbort (k g : Nat) (d : Dev) : (opAbort k g d).starts = d.starts := by
  unfold opAbort
  split <;> simp

@[simp] theorem starts_aryAbort (k : Nat) (d : Dev) : (aryAbort k d).starts = d.starts := by simp [aryAbort]


@[simp] theorem starts_arySuspend (k : Nat) (d : Dev) : (arySuspend k d).starts = d.starts := by simp [arySuspend]

@[simp] theorem starts_aryResume (k : Nat) (d : Dev) : (aryResume k d).starts = d.starts := by simp [aryResume]

@[simp] theorem starts_slotOpen (k g : Nat) (d : Dev) : (slotOpen k g d).starts = d.starts := by
  unfold slotOpen
  split <;> simp

@[simp] theorem starts_aryRetire (k b : Nat) (d : Dev) : (aryRetire k b d).starts = d.starts := by
  unfold aryRetire
  dsimp only
  split <;> simp

@[simp] theorem starts_regionSet (k : Nat) (sector : Bool) (index v : Nat) (d : Dev) :
    (regionSet k sector index v d).starts = d.starts := by simp [regionSet]

@[simp] theorem starts_seqErr (k : Nat) (d : Dev) : (seqErr k d).starts = d.starts := by simp [seqErr]

@[simp] theorem starts_strayWrite (k : Nat) (d : Dev) : (strayWrite k d).starts = d.starts := by simp [strayWrite]

@[simp] theorem starts_setLast (k code : Nat) (d : Dev) : (setLast k code d).starts = d.starts := by simp [setLast]

@[simp] theorem starts_cmdErase (k master : Nat) (d : Dev) : (cmdErase k master d).starts = d.starts := by simp [cmdErase]

@[simp] theorem starts_cmdBuffer (k master : Nat) (d : Dev) : (cmdBuffer k master d).starts = d.starts := by simp [cmdBuffer]

@[simp] theorem starts_cmdUnlock (k : Nat) (d : Dev) : (cmdUnlock k d).starts = d.starts := by
  unfold cmdUnlock
  dsimp only
  (repeat' split) <;> simp

@[simp] theorem starts_cmdLock (k : Nat) (d : Dev) : (cmdLock k d).starts = d.starts := by simp [cmdLock]

@[simp] theorem starts_seqThird (k master w : Nat) (d : Dev) : (seqThird k master w d).starts = d.starts := by simp [seqThird]

@[simp] theorem starts_flipProgram (k block page : Nat) (d : Dev) :
    (flipProgram k block page d).2.starts = d.starts := by simp [flipProgram]

@[simp] theorem starts_pbCommit (k : Nat) (d : Dev) : (pbCommit k d).starts = d.starts := by
  unfold pbCommit
  split <;> simp

@[simp] theorem starts_pbWrite (k o : Nat) (bs : List Byte) (p : Bool) (d : Dev) :
    (pbWrite k o bs p d).starts = d.starts := by simp [pbWrite]

@[simp] theorem starts_winWrite (master k o : Nat) (bs : List Byte) (p : Bool) (d : Dev) :
    (winWrite master k o bs p d).starts = d.starts := by
  unfold winWrite
  dsimp only
  split <;> simp

@[simp] theorem starts_objRead (n : Nat) (d : Dev) : (objRead n d).2.starts = d.starts := by simp [objRead]

@[simp] theorem starts_objStore (n : Nat) (o : SyncObj) (d : Dev) : (objStore n o d).starts = d.starts := by simp [objStore]

@[simp] theorem starts_syncPoison (master n : Nat) (d : Dev) : (syncPoison master n d).starts = d.starts := by simp [syncPoison]

@[simp] theorem starts_tryAcquire (master n : Nat) (d : Dev) : (tryAcquire master n d).2.starts = d.starts := by simp [tryAcquire]

@[simp] theorem starts_flitCount (r : Reg) (n : Nat) (d : Dev) : (flitCount r n d).starts = d.starts := by simp [flitCount]

@[simp] theorem starts_setLinks (l : Links) (d : Dev) : (setLinks l d).starts = d.starts := by simp [setLinks]

@[simp] theorem starts_portPut (n : Nat) (p : LinkPort) (d : Dev) : (portPut n p d).starts = d.starts := by simp [portPut]

@[simp] theorem starts_flitOut (n : Nat) (f : Flit) (d : Dev) : (flitOut n f d).starts = d.starts := by simp [flitOut]

@[simp] theorem starts_flitSeq (n type : Nat) (slots : List Slot) (d : Dev) :
    (flitSeq n type slots d).starts = d.starts := by simp [flitSeq]

@[simp] theorem starts_linkPump (fuel n : Nat) (d : Dev) : (linkPump fuel n d).starts = d.starts := by
  induction fuel generalizing d with
  | zero => rfl
  | succ fuel ih => simp [linkPump, ih]


@[simp] theorem starts_portUpd (n : Nat) (f : LinkPort → LinkPort) (d : Dev) : (portUpd n f d).starts = d.starts := by simp [portUpd]

@[simp] theorem starts_linkSlots (n : Nat) (ss : List Slot) (d : Dev) : (linkSlots n ss d).starts = d.starts := by simp [linkSlots]

@[simp] theorem starts_slotMake (n ch : Nat) (data : List Byte) (flags : Nat) (d : Dev) :
    (slotMake n ch data flags d).2.starts = d.starts := by simp [slotMake]

@[simp] theorem starts_msgSlots (n : Nat) (m : Msg) (d : Dev) : (msgSlots n m d).2.starts = d.starts := by simp [msgSlots]

@[simp] theorem starts_setPortState (n s : Nat) (d : Dev) : (setPortState n s d).starts = d.starts := by simp [setPortState]

@[simp] theorem starts_msgPort (n : Nat) (m : Msg) (d : Dev) : (msgPort n m d).starts = d.starts := by simp [msgPort]

@[simp] theorem starts_sendMsg (m : Msg) (d : Dev) : (sendMsg m d).2.starts = d.starts := by
  unfold sendMsg
  split <;> simp

@[simp] theorem starts_routeErr (d : Dev) : (routeErr d).starts = d.starts := by simp [routeErr]

@[simp] theorem starts_reqSend (tag : Nat) (d : Dev) : (reqSend tag d).2.starts = d.starts := by
  unfold reqSend
  split
  · rfl
  · split
    next hq => simp [starts_of_eq hq]
    next hq => simp [starts_of_eq hq]


@[simp] theorem starts_request (k : ReqKind) (m : Msg) (d : Dev) : (request k m d).2.starts = d.starts := by simp [request]

@[simp] theorem starts_regReadEff (r : RegAt) (d : Dev) : (regReadEff r d).starts = d.starts := by simp [regReadEff]

@[simp] theorem starts_regRead (a n : Nat) (d : Dev) : (regRead a n d).2.starts = d.starts := by simp [regRead]

@[simp] theorem starts_outsideEnd (link : Bool) (d : Dev) : (outsideEnd link d).2.starts = d.starts := by simp [outsideEnd]

@[simp] theorem starts_ownSense (k page : Nat) (d : Dev) : (ownSense k page d).starts = d.starts := by simp [ownSense]

@[simp] theorem starts_winOwn (k o n : Nat) (d : Dev) : (winOwn k o n d).2.starts = d.starts := by
  refine starts_foldl2 _ _ _ fun q i => ?_
  split
  · rfl
  · dsimp only
    (repeat' split) <;> simp


@[simp] theorem starts_syncGet (master a n : Nat) (d : Dev) : (syncGet master a n d).2.starts = d.starts := by simp [syncGet]

@[simp] theorem starts_ownServe (master a n : Nat) (d : Dev) : (ownServe master a n d).2.starts = d.starts := by
  unfold ownServe
  split
  case h_3 =>
    refine starts_foldl2 _ _ _ fun q p => ?_
    have got := starts_syncGet master p.1 p.2 q.2
    split
    · rfl
    · split
      next hq => exact (starts_of_eq hq).trans got
      next hq => exact (starts_of_eq hq).trans got
  all_goals simp


@[simp] theorem starts_ownSend (ms : List Msg) (d : Dev) : (ownSend ms d).2.starts = d.starts := by simp [ownSend]

@[simp] theorem starts_ownEnd (link : Bool) (master fa : Nat) (write : Bool) (d : Dev) :
    (ownEnd link master fa write d).2.2.starts = d.starts := by
  have outside := starts_outsideEnd link d
  unfold ownEnd
  split
  next hq => exact (starts_busError _ _ _ _ _).trans ((starts_of_eq hq).trans outside)
  next hq => exact (starts_of_eq hq).trans outside


@[simp] theorem starts_ownCause (master fa a n : Nat) (write : Bool) (d : Dev) : (ownCause master fa a n write d).2.starts = d.starts := by
  unfold ownCause
  dsimp only
  (repeat' split) <;> simp

@[simp] theorem starts_masterRead (master fa n : Nat) (d : Dev) : (masterRead master fa n d).2.starts = d.starts := by
  have out : ∀ (link : Bool) (e : Dev), (match ownEnd link master fa false e with
      | (some c, _, d) => (RdRes.err c, d)
      | (none, p, d) => (.ok (outsideBytes n e) p, d)).2.starts = e.starts := fun link e => by
    have ended := starts_ownEnd link master fa false e
    split
    next hq => exact (starts_of_eq2 hq).trans ended
    next hq => exact (starts_of_eq2 hq).trans ended
  unfold masterRead
  dsimp only
  split
  · have sent := starts_ownSend (ownMsgs master (fa / 2 ^ 40 % 4096) (fa % 2 ^ 40) n none) d
    split
    · split
      · split
        next hq => exact (out true _).trans ((starts_of_eq hq).trans sent)
        next hq => exact (starts_of_eq hq).trans sent
      · simp
    · simp
  next a _ =>
    have cause := starts_ownCause master fa a n false d
    split
    next hq => exact (starts_of_eq hq).trans cause
    next e hq =>
      have served := (starts_ownServe master a n e).trans ((starts_of_eq hq).trans cause)
      split
      · exact (out false e).trans ((starts_of_eq hq).trans cause)
      · split
        next hw => exact (starts_of_eq hw).trans served
        next hw => exact (starts_busError _ _ _ _ _).trans ((starts_of_eq hw).trans served)


@[simp] theorem starts_post (master a : Nat) (bs : List Byte) (p : Bool) (d : Dev) :
    (post master a bs p d).starts = d.starts := by simp [post]

@[simp] theorem starts_masterWrite (master fa : Nat) (bs : List Byte) (p : Bool) (d : Dev) :
    (masterWrite master fa bs p d).2.starts = d.starts := by
  unfold masterWrite
  dsimp only
  split
  · have sent := starts_ownSend (ownMsgs master (fa / 2 ^ 40 % 4096) (fa % 2 ^ 40) bs.length (some (bs, p))) d
    split
    · split
      · split
        next e hq =>
          have ended := (starts_ownEnd true master fa true e).trans ((starts_of_eq hq).trans sent)
          split
          next hw => exact (starts_of_eq2 hw).trans ended
          next hw => exact (starts_of_eq2 hw).trans ended
        next hq => exact (starts_of_eq hq).trans sent
      · simp
    · simp
  next a _ =>
    have cause := starts_ownCause master fa a bs.length true d
    split
    next hq => exact (starts_of_eq hq).trans cause
    next hq =>
      have cause := (starts_of_eq hq).trans cause
      split <;> simp [cause]


@[simp] theorem starts_ringSignal (n : Nat) (d : Dev) : (ringSignal n d).starts = d.starts := by simp [ringSignal]

@[simp] theorem starts_ringStop (n cause : Nat) (d : Dev) : (ringStop n cause d).starts = d.starts := by simp [ringStop]

@[simp] theorem starts_opFinish (c : Cpl) (d : Dev) : (opFinish c d).starts = d.starts := by
  unfold opFinish
  dsimp only
  (repeat' split) <;> simp

@[simp] theorem starts_cplWrite (c : Cpl) (d : Dev) : (cplWrite c d).2.starts = d.starts := by
  unfold cplWrite
  dsimp only
  split
  next hq => exact (starts_ringStop _ _ _).trans ((starts_of_eq hq).trans (starts_masterWrite _ _ _ _ d))
  next hq =>
    have stored := (starts_of_eq hq).trans (starts_masterWrite _ _ _ _ d)
    simp [stored]


@[simp] theorem starts_cplDrain (fuel n : Nat) (d : Dev) : (cplDrain fuel n d).starts = d.starts := by
  induction fuel generalizing d with
  | zero => rfl
  | succ fuel ih =>
    unfold cplDrain
    split
    · split
      · rfl
      next c _ _ =>
        split
        next hq => exact (starts_of_eq hq).trans (starts_cplWrite c d)
        next hq => exact (ih _).trans ((starts_of_eq hq).trans (starts_cplWrite c d))
    · rfl


@[simp] theorem starts_complete (c : Cpl) (d : Dev) : (complete c d).starts = d.starts := by simp [complete]

@[simp] theorem starts_finish (h : CmdHdr) (status r0 r1 : Nat) (d : Dev) : (finish h status r0 r1 d).starts = d.starts := by simp [finish]

@[simp] theorem starts_setFifo (id : Nat) (f : Fifo) (d : Dev) : (setFifo id f d).starts = d.starts := by simp [setFifo]

@[simp] theorem starts_pinDrive (p : Nat) (d : Dev) : (pinDrive p d).starts = d.starts := by simp [pinDrive]

@[simp] theorem starts_fifoLevel (id : Nat) (d : Dev) : (fifoLevel id d).starts = d.starts := by
  unfold fifoLevel
  split <;> simp

@[simp] theorem starts_markFullCheck (id : Nat) (d : Dev) : (markFullCheck id d).starts = d.starts := by
  unfold markFullCheck
  split <;> simp

@[simp] theorem starts_fifoPut (id : Nat) (it : Item) (d : Dev) : (fifoPut id it d).starts = d.starts := by
  unfold fifoPut
  split <;> simp

@[simp] theorem starts_fifoDrain (fuel id : Nat) (d : Dev) : (fifoDrain fuel id d).starts = d.starts := by
  induction fuel generalizing d with
  | zero => rfl
  | succ fuel ih =>
    unfold fifoDrain
    split
    · rfl
    · split
      · rfl
      · simp [ih]


@[simp] theorem starts_fifoSend (id : Nat) (its : List Item) (d : Dev) : (fifoSend id its d).starts = d.starts := by
  unfold fifoSend
  split <;> simp

@[simp] theorem starts_stageUpd (key : Nat) (f : StageRt → StageRt) (d : Dev) : (stageUpd key f d).starts = d.starts := by simp [stageUpd]

@[simp] theorem starts_setTm (t : Tm) (d : Dev) : (setTm t d).starts = d.starts := by simp [setTm]

@[simp] theorem starts_tmPut (n : Nat) (o : TmObj) (d : Dev) : (tmPut n o d).starts = d.starts := by simp [tmPut]

@[simp] theorem starts_dropPlace (n : Nat) (d : Dev) : (dropPlace n d).starts = d.starts := by
  unfold dropPlace
  split <;> simp

@[simp] theorem starts_mslotUpd (n : Nat) (f : MSlot → MSlot) (d : Dev) : (mslotUpd n f d).starts = d.starts := by simp [mslotUpd]

@[simp] theorem starts_sideUpd (n s : Nat) (f : Side → Side) (d : Dev) : (sideUpd n s f d).starts = d.starts := by simp [sideUpd]

@[simp] theorem starts_extsAdd (es : List Extent) (d : Dev) : (extsAdd es d).starts = d.starts := by
  refine starts_foldl _ _ _ fun e x => ?_
  split <;> simp


@[simp] theorem starts_extsDrop (n s shard : Nat) (d : Dev) : (extsDrop n s shard d).starts = d.starts := by simp [extsDrop]

@[simp] theorem starts_eraseSettle (d : Dev) : (eraseSettle d).starts = d.starts := by simp [eraseSettle]


@[simp] theorem starts_argSet (k b page : Nat) (d : Dev) : (argSet k b page d).starts = d.starts := by simp [argSet]

@[simp] theorem starts_eraseKick (d : Dev) : (eraseKick d).starts = d.starts := by simp [eraseKick]


@[simp] theorem starts_freeExts (owner : Option Nat) (check : Bool) (es : List Extent) (d : Dev) :
    (freeExts owner check es d).starts = d.starts := by simp [freeExts]

@[simp] theorem starts_adFree (a : AdVer) (d : Dev) : (adFree a d).starts = d.starts := by simp [adFree]

@[simp] theorem starts_readsStop (h : Nat) (key : Option Nat) (d : Dev) : (readsStop h key d).starts = d.starts := by simp [readsStop]


@[simp] theorem starts_wsDrop (h key : Nat) (d : Dev) : (wsDrop h key d).starts = d.starts := by simp [wsDrop]


@[simp] theorem starts_cmdIn (h : CmdHdr) (d : Dev) : (cmdIn h d).starts = d.starts := by simp [cmdIn]

@[simp] theorem starts_headPast (h : CmdHdr) (d : Dev) : (headPast h d).starts = d.starts := by simp [headPast]

@[simp] theorem starts_nvmeSubmit (d : Dev) : (nvmeSubmit d).starts = d.starts := by
  unfold nvmeSubmit
  split <;> simp

@[simp] theorem starts_nvmeFill (d : Dev) : (nvmeFill d).starts = d.starts := by simp [nvmeFill]

@[simp] theorem starts_nvmeRead (nsid lba len : Nat) (d : Dev) : (nvmeRead nsid lba len d).starts = d.starts := by simp [nvmeRead]

@[simp] theorem starts_nvmeDrop (d : Dev) : (nvmeDrop d).starts = d.starts := by simp [nvmeDrop]

@[simp] theorem starts_setLe (l : Le) (d : Dev) : (setLe l d).starts = d.starts := by simp [setLe]

@[simp] theorem starts_setRun (r : LoadRun) (d : Dev) : (setRun r d).starts = d.starts := by simp [setRun]

@[simp] theorem starts_shardUpd (i : Nat) (f : ShardRun → ShardRun) (d : Dev) : (shardUpd i f d).starts = d.starts := by
  unfold shardUpd
  split <;> simp

@[simp] theorem starts_loadDone (code : Nat) (d : Dev) : (loadDone code d).starts = d.starts := by
  unfold loadDone
  split <;> simp

@[simp] theorem starts_loadFree (d : Dev) : (loadFree d).starts = d.starts := by
  unfold loadFree
  split <;> simp

@[simp] theorem starts_loadFail (code : Nat) (shard : Option Nat) (d : Dev) : (loadFail code shard d).starts = d.starts := by
  unfold loadFail
  split <;> simp

@[simp] theorem starts_shardsRead (which : Nat → Bool) (d : Dev) : (shardsRead which d).starts = d.starts := by
  unfold shardsRead
  split <;> simp

@[simp] theorem starts_placeAgain (i code : Nat) (again reread : Bool) (d : Dev) :
    (placeAgain i code again reread d).starts = d.starts := by
  unfold placeAgain
  dsimp only
  (repeat' split) <;> simp

@[simp] theorem starts_leStart (k g : Nat) (d : Dev) : (leStart k g d).starts = d.starts := by
  unfold leStart
  dsimp only
  (repeat' split) <;> simp

@[simp] theorem starts_aryKick (d : Dev) : (aryKick d).starts = d.starts := by simp [aryKick]


@[simp] theorem starts_entryItem (a : Nat) (last : Bool) (d : Dev) : (entryItem a last d).2.starts = d.starts := by
  unfold entryItem
  split
  next hq => exact (starts_of_eq hq).trans (starts_masterRead 0x23 a 32 d)
  next hq => exact (starts_of_eq hq).trans (starts_masterRead 0x23 a 32 d)


@[simp] theorem starts_copyTake (c : ShardCopy) (d : Dev) : (copyTake c d).starts = d.starts := by simp [copyTake]


@[simp] theorem starts_copiesTake (n : Nat) (d : Dev) : (copiesTake n d).starts = d.starts := by simp [copiesTake]

end Sys2Proof.Machine
end

/-! ## What leaves the time and the active slot alone -/

section
/-! SUPPORT of O20: the copies that a batch takes with it change neither FAST_TIME nor IMG_SLOT_STAT. -/

namespace Sys2Proof.Machine

/-- FAST_TIME, and IMG_SLOT_STAT with the number of the active slot: registers that no shared service writes. -/
def Dev.dated (d : Dev) : BitVec 64 × BitVec 64 := (rd d Reg.FAST_TIME, rd d Reg.IMG_SLOT_STAT)

theorem dated_of_h {d e : Dev} (h : ∀ {rr vv kk pp}, Holds rr vv kk pp d → Holds rr vv kk pp e) : e.dated = d.dated := by
  have time := (h (holds_self Reg.FAST_TIME (by unfold shared; decide) d)).2.1
  have slot := (h (holds_self Reg.IMG_SLOT_STAT (by unfold shared; decide) d)).2.1
  exact Prod.ext time slot

theorem dated_wr {r : Reg} (v : BitVec 64) (d : Dev) (ht : Reg.FAST_TIME.addr ≠ r.addr) (hs : Reg.IMG_SLOT_STAT.addr ≠ r.addr) :
    (wr r v d).dated = d.dated := Prod.ext (rd_wr_ne v d ht) (rd_wr_ne v d hs)

@[simp] theorem dated_mk {d : Dev} {part : Part} {mem : List Host.Cell} {poison : FMap Unit} {errs : FMap ErrPat} {out : List Out} {free : Nat}
    {intg : Intg} {score : Score} {rings : Rings} {ic : Ic} {pmu : Pmu} {img : Img} {fifos : FMap Fifo} {pinForce : Bool} {engs : Engs}
    {pipes : FMap Pipe} {tm : Tm} {links : Links} {arys : Arys} {boots : Nat} {slots : Slots} {le : Le} {arb : Arb} {train : Option TrainRun}
    {keys : Keys} {boot : Boot} {periph : Periph} : (Dev.mk part d.regs mem poison errs out free intg score rings ic pmu img fifos pinForce
      engs pipes tm links arys boots slots le arb train keys boot periph).dated = d.dated := by simp [Dev.dated, rd]

@[simp] theorem dated_ite {c : Prop} [Decidable c] (a b : Dev) : (if c then a else b).dated = if c then a.dated else b.dated := apply_ite _ _ _ _

@[simp] theorem dated_foldl {α : Type} (l : List α) (f : Dev → α → Dev) (d : Dev) (hf : ∀ e x, (f e x).dated = e.dated) :
    (l.foldl f d).dated = d.dated := by
  induction l generalizing d with
  | nil => rfl
  | cons x l ih => exact (ih _).trans (hf d x)

@[simp] theorem dated_forEach {α : Type} (l : List α) (f : α → Dev → Dev) (d : Dev) (hf : ∀ x e, (f x e).dated = e.dated) :
    (forEach l f d).dated = d.dated := dated_foldl _ _ _ fun e x => hf x e

@[simp] theorem dated_forN (n : Nat) (f : Nat → Dev → Dev) (d : Dev) (hf : ∀ x e, (f x e).dated = e.dated) :
    (forN n f d).dated = d.dated := dated_forEach _ _ _ hf

@[simp] theorem dated_raise (n : Nat) (d : Dev) : (raise n d).dated = d.dated := dated_of_h (raise_h n d)

@[simp] theorem dated_setLast (k code : Nat) (d : Dev) : (setLast k code d).dated = d.dated := dated_of_h (setLast_h k code d)

@[simp] theorem dated_opStart (k : Nat) (o : AryOp) (d : Dev) : (opStart k o d).dated = d.dated := dated_of_h (opStart_h k o d)

@[simp] theorem dated_seqErr (k : Nat) (d : Dev) : (seqErr k d).dated = d.dated := dated_of_h (seqErr_h k d)

@[simp] theorem dated_opstatTarget (k g op index page : Nat) (d : Dev) : (opstatTarget k g op index page d).dated = d.dated :=
  dated_of_h (opstatTarget_h k g op index page d)

@[simp] theorem dated_opOutcome (k g code : Nat) (d : Dev) : (opOutcome k g code d).dated = d.dated := dated_of_h (opOutcome_h k g code d)

@[simp] theorem dated_flipProgram (k block page : Nat) (d : Dev) : (flipProgram k block page d).2.dated = d.dated :=
  dated_of_h (flipProgram_h k block page d)

@[simp] theorem dated_scoreEvent (ev kind index : Nat) (args : List Nat) (d : Dev) : (scoreEvent ev kind index args d).dated = d.dated :=
  dated_of_h (scoreEvent_h ev kind index args d)

@[simp] theorem dated_opAbort (k g : Nat) (d : Dev) : (opAbort k g d).dated = d.dated := dated_of_h (opAbort_h k g d)

@[simp] theorem dated_invalidate (k b : Nat) (d : Dev) : (invalidate k b d).dated = d.dated := dated_of_h (invalidate_h k b d)

@[simp] theorem dated_wearUpd (k : Nat) (sector : Bool) (index : Nat) (f : Wear → Wear) (d : Dev) :
    (wearUpd k sector index f d).dated = d.dated := dated_of_h (wearUpd_h k sector index f d)

@[simp] theorem dated_complete (c : Cpl) (d : Dev) : (complete c d).dated = d.dated := dated_of_h (complete_h c d)

@[simp] theorem dated_masterWrite (master fa : Nat) (bs : List Byte) (p : Bool) (d : Dev) : (masterWrite master fa bs p d).2.dated = d.dated :=
  dated_of_h (masterWrite_h master fa bs p d)

@[simp] theorem dated_sf_leErr (f : Fld) (x : Nat) (d : Dev) : (sf Reg.LE_ERR f x d).dated = d.dated := dated_wr _ _ (by decide) (by decide)

@[simp] theorem dated_sf_leStat (f : Fld) (x : Nat) (d : Dev) : (sf Reg.LE_STAT f x d).dated = d.dated := dated_wr _ _ (by decide) (by decide)

@[simp] theorem dated_sf_aryStat (k : Nat) (f : Fld) (x : Nat) (d : Dev) : (sf (Reg.ARY_STAT k) f x d).dated = d.dated := by
  refine dated_wr _ _ ?_ ?_ <;> simp only [Reg.FAST_TIME, Reg.IMG_SLOT_STAT, Reg.ARY_STAT] <;> omega

@[simp] theorem dated_wr_aryCmdArg (k : Nat) (v : BitVec 64) (d : Dev) : (wr (Reg.ARY_CMD_ARG k) v d).dated = d.dated := by
  refine dated_wr _ _ ?_ ?_ <;> simp only [Reg.FAST_TIME, Reg.IMG_SLOT_STAT, Reg.ARY_CMD_ARG] <;> omega

@[simp] theorem dated_aryRetire (k b : Nat) (d : Dev) : (aryRetire k b d).dated = d.dated := by
  unfold aryRetire
  dsimp only
  split <;> simp

@[simp] theorem dated_setTm (t : Tm) (d : Dev) : (setTm t d).dated = d.dated := by simp [setTm]

@[simp] theorem dated_tmPut (n : Nat) (o : TmObj) (d : Dev) : (tmPut n o d).dated = d.dated := by simp [tmPut]

@[simp] theorem dated_dropPlace (n : Nat) (d : Dev) : (dropPlace n d).dated = d.dated := by
  unfold dropPlace
  split <;> simp

@[simp] theorem dated_mslotUpd (n : Nat) (f : MSlot → MSlot) (d : Dev) : (mslotUpd n f d).dated = d.dated := by simp [mslotUpd]

@[simp] theorem dated_sideUpd (n s : Nat) (f : Side → Side) (d : Dev) : (sideUpd n s f d).dated = d.dated := by simp [sideUpd]

@[simp] theorem dated_extsAdd (es : List Extent) (d : Dev) : (extsAdd es d).dated = d.dated := by
  refine dated_foldl _ _ _ fun e x => ?_
  split <;> simp

@[simp] theorem dated_extsDrop (n s shard : Nat) (d : Dev) : (extsDrop n s shard d).dated = d.dated := by simp [extsDrop]

@[simp] theorem dated_eraseSettle (d : Dev) : (eraseSettle d).dated = d.dated := by simp [eraseSettle]

@[simp] theorem dated_argSet (k b page : Nat) (d : Dev) : (argSet k b page d).dated = d.dated := by simp [argSet, sf]

@[simp] theorem dated_eraseKick (d : Dev) : (eraseKick d).dated = d.dated := by simp [eraseKick]

@[simp] theorem dated_freeExts (owner : Option Nat) (check : Bool) (es : List Extent) (d : Dev) :
    (freeExts owner check es d).dated = d.dated := by simp [freeExts]

@[simp] theorem dated_adFree (a : AdVer) (d : Dev) : (adFree a d).dated = d.dated := by simp [adFree]

@[simp] theorem dated_nvmeSubmit (d : Dev) : (nvmeSubmit d).dated = d.dated := by
  unfold nvmeSubmit
  split <;> simp

@[simp] theorem dated_nvmeFill (d : Dev) : (nvmeFill d).dated = d.dated := by simp [nvmeFill]

@[simp] theorem dated_nvmeRead (nsid lba len : Nat) (d : Dev) : (nvmeRead nsid lba len d).dated = d.dated := by simp [nvmeRead]

@[simp] theorem dated_nvmeDrop (d : Dev) : (nvmeDrop d).dated = d.dated := by simp [nvmeDrop]

@[simp] theorem dated_setLe (l : Le) (d : Dev) : (setLe l d).dated = d.dated := by simp [setLe]

@[simp] theorem dated_setRun (r : LoadRun) (d : Dev) : (setRun r d).dated = d.dated := by simp [setRun]

@[simp] theorem dated_shardUpd (i : Nat) (f : ShardRun → ShardRun) (d : Dev) : (shardUpd i f d).dated = d.dated := by
  unfold shardUpd
  split <;> simp

@[simp] theorem dated_loadDone (code : Nat) (d : Dev) : (loadDone code d).dated = d.dated := by
  unfold loadDone
  split <;> simp

@[simp] theorem dated_loadFree (d : Dev) : (loadFree d).dated = d.dated := by
  unfold loadFree
  split <;> simp

@[simp] theorem dated_loadFail (code : Nat) (shard : Option Nat) (d : Dev) : (loadFail code shard d).dated = d.dated := by
  unfold loadFail
  split <;> simp

@[simp] theorem dated_shardsRead (which : Nat → Bool) (d : Dev) : (shardsRead which d).dated = d.dated := by
  unfold shardsRead
  split <;> simp

@[simp] theorem dated_placeAgain (i code : Nat) (again reread : Bool) (d : Dev) : (placeAgain i code again reread d).dated = d.dated := by
  unfold placeAgain
  dsimp only
  (repeat' split) <;> simp

@[simp] theorem dated_leStart (k g : Nat) (d : Dev) : (leStart k g d).dated = d.dated := by
  unfold leStart
  dsimp only
  (repeat' split) <;> simp

@[simp] theorem dated_aryKick (d : Dev) : (aryKick d).dated = d.dated := by simp [aryKick]

@[simp] theorem dated_copyTake (c : ShardCopy) (d : Dev) : (copyTake c d).dated = d.dated := by simp [copyTake]

@[simp] theorem dated_wsDrop (h key : Nat) (d : Dev) : (wsDrop h key d).dated = d.dated := by
  have engs : EngsOnly d (wsDrop h key d) := ((EngsOnly.refl d).stageUpd key _).readsStop h (some key)
  unfold Dev.dated
  rw [engs.rd, engs.rd]

@[simp] theorem dated_copiesTake (n : Nat) (d : Dev) : (copiesTake n d).dated = d.dated := by simp [copiesTake]

end Sys2Proof.Machine
end

/-! ## Batches: a START from its command to its completion -/

section
/-! SUPPORT and settlement of O20: the outcomes of a START, its admission, and the completion of a batch. -/

namespace Sys2Proof.Machine

/-! ### A START command (R596, R605) -/

section
variable {h : CmdHdr} {p : StartP} {d : Dev}

/-- The checks of a START look at no table of the rings. -/
theorem startCheck_rings (g : Rings) : startCheck (setRings g d) h p = startCheck d h p := rfl

/-- The START has been read and waits at its ring, last in the order of all. -/
def startQueued (h : CmdHdr) (p : StartP) (d : Dev) : Dev :=
  setRings { d.rings with outst := mupd d.rings.outst h.ring 0 (· + 1), waiting := mput d.rings.waiting h.ring (h, p),
                          order := d.rings.order.filter (fun r => r != h.ring) ++ [h.ring] } d

theorem startCmd_waits (hc : startCheck d { h with pipe := p.pipe } p = 0) :
    startCmd h p d = if canAdmit d p.pipe then startQueued { h with pipe := p.pipe } p d
      else sf (Reg.RING_STAT h.ring) F.RING_STAT_WAIT_ADMIT 1 (startQueued { h with pipe := p.pipe } p d) :=
  if_pos ((startCheck_rings (cmdIn { h with pipe := p.pipe } d).rings).trans hc)

theorem startCmd_refused {c : Nat} (hc : startCheck d { h with pipe := p.pipe } p = c) (h0 : c ≠ 0) (h7 : c ≠ 0xC7) :
    startCmd h p d = finish { h with pipe := p.pipe } c 0 0 (headPast { h with pipe := p.pipe } (cmdIn { h with pipe := p.pipe } d)) := by
  have same : startCheck (cmdIn { h with pipe := p.pipe } d) { h with pipe := p.pipe } p = c := (startCheck_rings _).trans hc
  unfold startCmd
  dsimp only
  rw [same, if_neg h0, if_neg h7]

/-- A START that waits is last in the order; WAIT_ADMIT is set unless its pipeline admits now. -/
theorem startCmd_queued (hc : startCheck d { h with pipe := p.pipe } p = 0) :
    mget (startCmd h p d).rings.waiting h.ring = some ({ h with pipe := p.pipe }, p) ∧
    (startCmd h p d).rings.order = d.rings.order.filter (fun r => r != h.ring) ++ [h.ring] ∧
    mgetD (startCmd h p d).rings.outst h.ring 0 = mgetD d.rings.outst h.ring 0 + 1 ∧
    gb (startCmd h p d) (Reg.RING_STAT h.ring) F.RING_STAT_WAIT_ADMIT =
      (!(canAdmit d p.pipe) || gb d (Reg.RING_STAT h.ring) F.RING_STAT_WAIT_ADMIT) ∧
    Touches (fun a => a = (Reg.RING_STAT h.ring).addr) d (startCmd h p d) := by
  have queued : Touches (fun a => a = (Reg.RING_STAT h.ring).addr) d (startQueued { h with pipe := p.pipe } p d) := Touches.mk (Touches.refl d)
  rw [startCmd_waits hc]
  cases canAdmit d p.pipe with
  | true => exact ⟨mget_mput_same _ _ _, rfl, mgetD_mput_same _ _ _ _, rfl, queued⟩
  | false =>
    exact ⟨mget_mput_same _ _ _, rfl, mgetD_mput_same _ _ _ _, congrArg (· != 0) (gf_sf_same _ _ _ _ (by decide)), queued.sf _ _ _ (.inl rfl)⟩

/-- Moving a ring's head changes nothing but its register. -/
theorem headPast_rings (g : Rings) : headPast h (setRings g d) = setRings g (headPast h d) :=
  (apply_ite (setRings g) (gf d (Reg.RING_CMD_HEAD h.ring) F.RING_CMD_HEAD_INDEX = h.idx)
    (sf (Reg.RING_CMD_HEAD h.ring) F.RING_CMD_HEAD_INDEX (h.idx + 1) d) d).symm

/-- No ring depends on a ring's head. -/
theorem cmdHead_apart {n m : Nat} (hn : n < 16) (hm : m < 16) : ∀ q ∈ ringReads n, q.addr ≠ (Reg.RING_CMD_HEAD m).addr := by
  have ring : ∀ n < 16, ∀ m < 16, ∀ q ∈ ringReads n, q.addr ≠ (Reg.RING_CMD_HEAD m).addr := by decide
  exact ring n hn m hm

theorem ringStat_apart {n m : Nat} (hn : n < 16) (hm : m < 16) : ∀ q ∈ ringReads n, q.addr ≠ (Reg.RING_STAT m).addr := by
  have ring : ∀ n < 16, ∀ m < 16, ∀ q ∈ ringReads n, q.addr ≠ (Reg.RING_STAT m).addr := by decide
  exact ring n hn m hm

theorem ringReady_headPast {n : Nat} (hn : n < 16) (hh : h.ring < 16) (hr : RingReady d n) : RingReady (headPast h d) n := by
  unfold headPast
  split
  · exact ringReady_wr hr _ (cmdHead_apart hn hh)
  · exact hr

/-- A START that fails a check moves the head and completes with the check's code. -/
theorem cplWritten_startRefused (g : Rings) (c : Nat) (hn : h.ring < 16) (hr : RingReady d h.ring) (hh : mgetD g.held h.ring [] = []) :
    CplWritten ⟨h, c, 0, 0, 0, false⟩ (headPast h d) (finish h c 0 0 (headPast h (setRings g d))) := by
  rw [headPast_rings]
  exact cplWritten_finish g c hn (ringReady_headPast hn hn hr) hh

end

/-! ### The admission of a START (R113, R114, R115) -/

section
variable {h : CmdHdr} {p : StartP} {n : Nat} {d : Dev}

/-- The START at ring `n` waits no more. -/
def startLeft (n : Nat) (d : Dev) : Dev :=
  setRings { d.rings with waiting := mdel d.rings.waiting n, order := d.rings.order.filter (fun r => r != n) } d

/-- The START at ring `n` waits no more and the ring's head has passed it. -/
def startDropped (h : CmdHdr) (n : Nat) (d : Dev) : Dev := headPast h (sf (Reg.RING_STAT n) F.RING_STAT_WAIT_ADMIT 0 (startLeft n d))

theorem admitRing_none (hw : mget d.rings.waiting n = none) : admitRing n d = d := by
  unfold admitRing
  rw [hw]

theorem admitRing_some (hw : mget d.rings.waiting n = some (h, p)) : admitRing n d =
    if startCheck d h p ≠ 0 then
      finish h (startCheck d h p) 0 0 (startDropped h n (if startCheck d h p = 0xC7 then sf Reg.ARB_SESSIONS F.ARB_SESSIONS_FULL_SEEN 1 d else d))
    else if canAdmit d p.pipe && !(startBehind d n p.pipe) then admitBatch p.pipe p (.start h) (startDropped h n d)
    else d := by
  unfold admitRing
  rw [hw]
  rfl

theorem starts_startDropped : (startDropped h n d).starts = (mdel d.rings.waiting n, d.pipes, d.img) := by
  simp [startDropped, startLeft, setRings]

/-- Neither the time nor the slots' states stand among the rings. -/
theorem dated_startDropped : (startDropped h n d).dated = d.dated := by
  have left : (sf (Reg.RING_STAT n) F.RING_STAT_WAIT_ADMIT 0 (startLeft n d)).dated = d.dated :=
    dated_wr _ (startLeft n d) (by simp [Reg.RING_STAT, Reg.FAST_TIME]; omega) (by simp [Reg.RING_STAT, Reg.IMG_SLOT_STAT]; omega)
  unfold startDropped headPast
  split
  · exact (dated_wr _ _ (by simp [Reg.RING_CMD_HEAD, Reg.FAST_TIME]; omega) (by simp [Reg.RING_CMD_HEAD, Reg.IMG_SLOT_STAT]; omega)).trans left
  · exact left

theorem pipeOf_congr {e : Dev} (hi : e.img = d.img) (hd : e.dated = d.dated) (q : Nat) : pipeOf e q = pipeOf d q := by
  have stat : rd e Reg.IMG_SLOT_STAT = rd d Reg.IMG_SLOT_STAT := congrArg Prod.snd hd
  unfold pipeOf activeCfg slotCfg gf
  rw [hi, stat]

theorem pipeSlot_congr {e : Dev} (hi : e.img = d.img) (hd : e.dated = d.dated) (q : Nat) : pipeSlot e q = pipeSlot d q := by
  unfold pipeSlot
  rw [pipeOf_congr hi hd]

/-- A START whose checks hold names a pipeline of the active image. -/
theorem pipeOf_of_startCheck (hc : startCheck d h p = 0) : ∃ c, pipeOf d p.pipe = some c := by
  cases hq : pipeOf d p.pipe with
  | some c => exact ⟨c, rfl⟩
  | none =>
    exfalso
    unfold startCheck at hc
    rw [hq, ite_self] at hc
    dsimp only at hc
    split at hc <;> omega

/-! ### Reading a batch's entry writes no batch -/

@[simp] theorem starts_entryItems (a n fuel i : Nat) (bad : Bool) (d : Dev) : (entryItems a n fuel i bad d).2.starts = d.starts := by
  induction fuel generalizing i bad d with
  | zero => simp [entryItems]
  | succ fuel ih =>
    unfold entryItems
    dsimp only
    split
    · exact ih _ _ _
    · split
      next it e he => exact (ih _ _ _).trans ((starts_of_eq he).trans (starts_entryItem _ _ _))
      next e he => exact (ih _ _ _).trans ((starts_of_eq he).trans (starts_entryItem _ _ _))

/-- The batch's flow has begun. -/
def flowBegun (q seq : Nat) (d : Dev) : Dev :=
  batchUpd q seq (fun b => { b with flow := (pipeSt d q).nextFlow, exit := 0, exitOver := false, poisoned := false, ended := false })
    (pipeUpd q (fun x => { x with flow := mput x.flow (pipeSt d q).nextFlow seq, nextFlow := (pipeSt d q).nextFlow + 1 }) d)

theorem starts_entryWrite {q seq : Nat} {c : PipeCfg} (hc : pipeOf d q = some c) :
    (entryWrite q seq p d).starts = (flowBegun q seq d).starts := by
  unfold entryWrite
  rw [hc]
  dsimp only
  generalize hr : List.foldl _ _ (List.range 4) = r
  have fed : r.2.starts = (flowBegun q seq d).starts := by
    rw [← hr]
    refine starts_foldl2 _ _ _ fun acc x => ?_
    (repeat' split) <;> simp
  rw [starts_ite, starts_cntAdd, ite_self, fed]

@[simp] theorem starts_setSessions (m : FMap Session) (d : Dev) : (setSessions m d).starts = d.starts := by simp [setSessions]

/-- Batch `b` is last in the context table. -/
def batchBegun (q : Nat) (b : Batch) (d : Dev) : Dev :=
  pipeUpd q (fun x => { x with batches := x.batches ++ [b], nextSeq := (b.seq + 1) % 65536 }) d

theorem pipeSt_pipeUpd (q : Nat) (f : Pipe → Pipe) (d : Dev) : pipeSt (pipeUpd q f d) q = f (pipeSt d q) := mgetD_mput_same _ _ _ _

theorem pipeSt_congr {e : Dev} (hs : e.starts = d.starts) (q : Nat) : pipeSt e q = pipeSt d q :=
  congrArg (fun x : FMap (CmdHdr × StartP) × FMap Pipe × Img => mgetD x.2.1 q {}) hs

theorem img_congr {e : Dev} (hs : e.starts = d.starts) : e.img = d.img := congrArg (fun x => x.2.2) hs

theorem waiting_congr {e : Dev} (hs : e.starts = d.starts) : e.rings.waiting = d.rings.waiting := congrArg Prod.fst hs

/-- A batch as its START begins it, before its entry is read. -/
structure BatchNew (q : Nat) (p : StartP) (src : BatchSrc) (d : Dev) (b : Batch) : Prop where
  seq : b.seq = (pipeSt d q).nextSeq
  seqs : b.seqs = p.seqs
  session : b.session = p.session
  time : b.time = fastTime d
  src : b.src = src
  slot : b.slot = (pipeSlot d q).getD 0xFF

theorem BatchNew.congr {q : Nat} {src : BatchSrc} {b : Batch} {e : Dev} (h : BatchNew q p src e b) (hs : e.starts = d.starts)
    (hd : e.dated = d.dated) : BatchNew q p src d b := by
  have time : fastTime e = fastTime d := congrArg (fun x => x.1.toNat) hd
  obtain ⟨h1, h2, h3, h4, h5, h6⟩ := h
  exact ⟨h1.trans (by rw [pipeSt_congr hs]), h2, h3, h4.trans time, h5, h6.trans (by rw [pipeSlot_congr (img_congr hs) hd])⟩

/-- The batch that a START begins, of the model slot bound to its pipeline. -/
def newBatch (q : Nat) (p : StartP) (src : BatchSrc) (slot : Nat) (d : Dev) : Batch :=
  let bind := if slot < 64 then bindSide d slot p.session else none
  let side := (bind.map Prod.fst).getD 0
  let ad := if p.adapter = 0xFFFF then none else (mget (sideOf d slot side).ads p.adapter).map AdVer.obj
  { seq := (pipeSt d q).nextSeq, seqs := p.seqs, session := p.session, side := side, slot := slot, adapter := p.adapter, time := fastTime d,
    src := src, start := p, flow := 0, flags := if (bind.map Prod.snd).getD false then 2 else 0, adObj := ad }

/-- The session of a new batch is bound to the batch's side. -/
def sessionBound (p : StartP) (slot side : Nat) (d : Dev) : Dev :=
  if slot < 64 && p.session != 0 then
    setSessions (mupd d.slots.sessions (sessKey slot p.session) { side := some side } (fun x => { x with side := some side })) d
  else d

theorem admitBatch_eq (q : Nat) (src : BatchSrc) (slot : Nat) (c : Dev) (hslot : (pipeSlot d q).getD 0xFF = slot) (hc : copiesTake slot d = c) :
    admitBatch q p src d = entryWrite q (newBatch q p src slot c).seq p
      (batchBegun q (newBatch q p src slot c) (sessionBound p slot (newBatch q p src slot c).side c)) := by
  subst hslot hc
  rfl

/-- A batch that is admitted has begun before its entry is written. -/
theorem admitBatch_begins (q : Nat) (src : BatchSrc) (d : Dev) : ∃ e b, e.starts = d.starts ∧ e.dated = d.dated ∧ BatchNew q p src d b ∧
    admitBatch q p src d = entryWrite q b.seq p (batchBegun q b e) := by
  generalize hslot : (pipeSlot d q).getD 0xFF = slot
  have starts : (copiesTake slot d).starts = d.starts := starts_copiesTake _ _
  have dated : (copiesTake slot d).dated = d.dated := dated_copiesTake _ _
  have eq := admitBatch_eq (p := p) q src slot _ hslot rfl
  generalize copiesTake slot d = c at starts dated eq
  have same : pipeSlot c q = pipeSlot d q := pipeSlot_congr (img_congr starts) dated q
  have new : BatchNew q p src c (newBatch q p src slot c) := ⟨rfl, rfl, rfl, rfl, rfl, by rw [same, hslot]; rfl⟩
  have bound : (sessionBound p slot (newBatch q p src slot c).side c).starts = c.starts := by simp [sessionBound]
  have boundDated : (sessionBound p slot (newBatch q p src slot c).side c).dated = c.dated := (dated_ite _ _).trans (ite_self _)
  exact ⟨_, _, bound.trans starts, boundDated.trans dated, new.congr starts dated, eq⟩

/-- Batch `b` in its pipeline once its entry has been written: it has a flow of its own. -/
theorem pipeSt_flowBegun {q : Nat} {b : Batch} {e : Dev} (hn : ∀ c ∈ (pipeSt e q).batches, c.seq ≠ b.seq) :
    (pipeSt (flowBegun q b.seq (batchBegun q b e)) q).nextSeq = (b.seq + 1) % 65536 ∧
    (pipeSt (flowBegun q b.seq (batchBegun q b e)) q).nextFlow = (pipeSt e q).nextFlow + 1 ∧
    (pipeSt (flowBegun q b.seq (batchBegun q b e)) q).batches = (pipeSt e q).batches ++
      [{ b with flow := (pipeSt e q).nextFlow, exit := 0, exitOver := false, poisoned := false, ended := false }] := by
  have others : (pipeSt e q).batches.map (fun c => if c.seq = b.seq then { c with
      flow := (pipeSt e q).nextFlow, exit := 0, exitOver := false, poisoned := false, ended := false } else c) = (pipeSt e q).batches :=
    (List.map_congr_left fun c hc => if_neg (hn c hc)).trans (List.map_id' _)
  unfold flowBegun batchUpd batchBegun
  simp only [pipeSt_pipeUpd, List.map_append, List.map_cons, List.map_nil, if_true, and_self, others]

/-- A START that is admitted begins a batch, last in the context table. -/
theorem admitBatch_admits {q : Nat} {src : BatchSrc} {c : PipeCfg} (hc : pipeOf d q = some c)
    (hn : ∀ b ∈ (pipeSt d q).batches, b.seq ≠ (pipeSt d q).nextSeq) : (admitBatch q p src d).rings.waiting = d.rings.waiting ∧
    (pipeSt (admitBatch q p src d) q).nextSeq = ((pipeSt d q).nextSeq + 1) % 65536 ∧
    (pipeSt (admitBatch q p src d) q).nextFlow = (pipeSt d q).nextFlow + 1 ∧ ∃ b, BatchNew q p src d b ∧ b.ended = false ∧ b.exit = 0 ∧
      (pipeSt (admitBatch q p src d) q).batches = (pipeSt d q).batches ++ [b] := by
  obtain ⟨e, b, starts, dated, new, eq⟩ := admitBatch_begins (p := p) q src d
  have known : pipeOf (batchBegun q b e) q = some c := (pipeOf_congr (img_congr starts) dated q).trans hc
  have entered := starts_entryWrite (p := p) (seq := b.seq) known
  have same := pipeSt_congr starts q
  obtain ⟨nextSeq, nextFlow, batches⟩ := pipeSt_flowBegun (q := q) (b := b) (e := e) (same.symm ▸ new.seq.symm ▸ hn)
  rw [eq, pipeSt_congr entered, waiting_congr entered, nextSeq, nextFlow, batches, same, new.seq]
  obtain ⟨h1, h2, h3, h4, h5, h6⟩ := new
  have waiting : e.rings.waiting = d.rings.waiting := waiting_congr starts
  refine ⟨waiting, rfl, rfl, { b with flow := (pipeSt d q).nextFlow, exit := 0, exitOver := false, poisoned := false, ended := false },
    ⟨h1, h2, h3, h4, h5, h6⟩, rfl, rfl, ?_⟩
  rw [h1]

theorem admitRing_admits (hw : mget d.rings.waiting n = some (h, p)) (hc : startCheck d h p = 0) (ha : canAdmit d p.pipe = true)
    (hb : startBehind d n p.pipe = false) : admitRing n d = admitBatch p.pipe p (.start h) (startDropped h n d) := by
  rw [admitRing_some hw, if_neg (not_not.mpr hc), if_pos (by rw [ha, hb]; rfl)]

theorem admitRing_waits (hw : mget d.rings.waiting n = some (h, p)) (hc : startCheck d h p = 0)
    (ha : canAdmit d p.pipe = false ∨ startBehind d n p.pipe = true) : admitRing n d = d := by
  rw [admitRing_some hw, if_neg (not_not.mpr hc), if_neg (by rcases ha with ha | ha <;> simp [ha])]

theorem admitRing_refuses (hw : mget d.rings.waiting n = some (h, p)) (hc : startCheck d h p ≠ 0) (h7 : startCheck d h p ≠ 0xC7) :
    admitRing n d = finish h (startCheck d h p) 0 0 (startDropped h n d) := by
  rw [admitRing_some hw, if_pos hc, if_neg h7]

/-- A START whose checks fail while it waits moves the head and completes with the check's code. -/
theorem cplWritten_startDropped (c : Nat) (hn : n < 16) (hh : h.ring = n) (hr : RingReady d n) (held : mgetD d.rings.held n [] = []) :
    CplWritten ⟨h, c, 0, 0, 0, false⟩ (headPast h (sf (Reg.RING_STAT n) F.RING_STAT_WAIT_ADMIT 0 d)) (finish h c 0 0 (startDropped h n d)) := by
  subst hh
  exact cplWritten_startRefused (d := sf (Reg.RING_STAT h.ring) F.RING_STAT_WAIT_ADMIT 0 d) _ c hn (ringReady_wr hr _ (ringStat_apart hn hn)) held

end

/-! ### The completion of a batch (R117, R123, R605) -/

section
variable {p : Nat} {b : Batch} {h : CmdHdr} {d : Dev}

theorem qzSettle_idle (hq : d.engs.qz = []) : qzSettle d = d := by
  unfold qzSettle
  rw [hq]
  rfl

/-- A batch that ended clean is not held. -/
theorem holdEnded_clean (hp : (pipeSt d p).batches = [b]) (hb : b.ended = true → b.poisoned = false ∧ adapterGone d b = false) : holdEnded p d = d := by
  unfold holdEnded
  rw [hp, List.filter_cons_of_neg]
  · rfl
  · intro hx
    simp only [Bool.and_eq_true, Bool.or_eq_true] at hx
    obtain ⟨⟨⟨he, hx⟩, -⟩, -⟩ := hx
    obtain ⟨h1, h2⟩ := hb he
    simp [h1, h2] at hx

theorem releaseHead_waits (fuel : Nat) (hp : (pipeSt d p).batches = [b]) (he : b.ended = false) : releaseHead (fuel + 1) p d = d := by
  unfold releaseHead
  rw [hp]
  dsimp only
  rw [if_pos (by simp [he])]

theorem releaseHead_empty (fuel : Nat) (hp : (pipeSt d p).batches = []) : releaseHead (fuel + 1) p d = d := by
  unfold releaseHead
  rw [hp]

/-- The batch is in the context table no more, and no completion of it is held. -/
def batchGone (p : Nat) (b : Batch) (d : Dev) : Dev :=
  heldDrop p b.seq (pipeUpd p (fun x => { x with batches := x.batches.filter (fun y => y.seq != b.seq) }) d)

theorem batchLeave_unbound (hs : 64 ≤ b.slot) : batchLeave p b d = batchGone p b d := if_neg (Nat.not_lt.mpr hs)

theorem batches_batchGone : (pipeSt (batchGone p b d) p).batches = (pipeSt d p).batches.filter (fun y => y.seq != b.seq) :=
  congrArg Pipe.batches (pipeSt_pipeUpd p (fun x => { x with batches := x.batches.filter (fun y => y.seq != b.seq) }) d)

@[simp] theorem starts_batchCpl (c : Nat) : (batchCpl h b c d).starts = d.starts := by simp [batchCpl]

/-- An ended batch leaves the table and its START completes. -/
theorem releaseHead_completes (fuel : Nat) (hp : (pipeSt d p).batches = [b]) (he : b.ended = true) (hh : b.held = false)
    (hr : b.resigned = false) (ho : b.exitOver = false) (hs : b.src = .start h) :
    releaseHead (fuel + 1) p d = releaseHead fuel p (batchCpl h b 0 (batchLeave p b d)) := by
  rw [releaseHead]
  rw [hp]
  dsimp only
  rw [if_neg (by simp [he, hh]), hs, hr, ho]
  rfl

theorem kept_batchCpl (c : Nat) : (batchCpl h b c d).kept = d.kept := (complete_h _ d (holds_self quiet quiet_free d)).2.2.1

/-- A pipeline's only batch, ended, clean and bound to no model slot. -/
structure BatchClean (p : Nat) (b : Batch) (h : CmdHdr) (d : Dev) : Prop where
  only : (pipeSt d p).batches = [b]
  ended : b.ended = true
  kept : b.held = false
  poisoned : b.poisoned = false
  resigned : b.resigned = false
  exitOver : b.exitOver = false
  slot : 64 ≤ b.slot
  adapter : adapterGone d b = false
  src : b.src = .start h

theorem batchComplete_clean (hq : d.engs.qz = []) (hc : BatchClean p b h d) : batchComplete p d =
    batchCpl h b 0 (batchGone p b d) ∧
    (pipeSt (batchComplete p d) p).batches = [] := by
  obtain ⟨only, ended, held, poisoned, resigned, exitOver, slot, adapter, src⟩ := hc
  have left := batches_batchGone (p := p) (b := b) (d := d)
  rw [only, List.filter_cons_of_neg (by simp)] at left
  unfold batchComplete
  rw [qzSettle_idle hq, holdEnded_clean only fun _ => ⟨poisoned, adapter⟩, releaseHead_completes 15 only ended held resigned exitOver src,
    batchLeave_unbound slot]
  generalize batchGone p b d = e at left
  have gone : (pipeSt (batchCpl h b 0 e) p).batches = [] := by
    rw [pipeSt_congr (starts_batchCpl 0)]
    exact left
  rw [releaseHead_empty 14 gone]
  exact ⟨rfl, gone⟩

theorem batchComplete_waits (hq : d.engs.qz = []) (hp : (pipeSt d p).batches = [b]) (he : b.ended = false) : batchComplete p d = d := by
  unfold batchComplete
  rw [qzSettle_idle hq, holdEnded_clean hp fun hx => by simp [he] at hx, releaseHead_waits 15 hp he]

end

/-- Settles O20: a START waits or is refused by its checks, an admitted one begins its pipeline's next batch, and a batch that has ended
clean leaves and completes. -/
theorem batchesAreAdmittedAndComplete : Obligations.BatchesAreAdmittedAndComplete := by
  intro s hs ht d0
  have atRing : ∀ {n : Nat} {P : Dev → Prop}, n < 16 → P (admitRing n d0) → Completes (.admitBatch (some n)) s P := fun {n _} hn hP =>
    completes_sys (f := admitRow (some n)) rfl (decide_eq_true hn) hs hP
  refine ⟨?_, fun n h p hn hw => ?_, fun n hn hw => atRing hn (admitRing_none hw), ?_, fun p b h hp hq only hheld => ?_⟩
  · intro h0 p hok hp h stat
    have row : ∀ {P : Dev → Prop}, P (startCmd (withOp 0x01 h0) p d0) → Completes (.start h0 p) s P := fun hP =>
      completes_sys rfl (by rw [hok, hp]; rfl) hs hP
    refine ⟨fun hc => row (startCmd_queued hc), fun hc h7 hr held => row ?_⟩
    rw [startCmd_refused rfl hc h7]
    exact cplWritten_startRefused (cmdIn h d0).rings _ (ring_lt_of_okHdr (h := h0) hok) hr held
  · have passed : (startDropped h n d0).starts = (mdel d0.rings.waiting n, d0.pipes, d0.img) := starts_startDropped
    have gone : mget (startDropped h n d0).rings.waiting n = none := by
      rw [show (startDropped h n d0).rings.waiting = _ from congrArg Prod.fst passed]
      exact mget_mdel_same _ _
    refine ⟨fun hc ha hb hseq => atRing hn ?_, fun hc ha => atRing hn (admitRing_waits hw hc ha), fun hc h7 hh hr held => atRing hn ?_⟩
    · have dated : (startDropped h n d0).dated = d0.dated := dated_startDropped
      have img : (startDropped h n d0).img = d0.img := congrArg (fun x => x.2.2) passed
      have pipe : pipeSt (startDropped h n d0) p.pipe = pipeSt d0 p.pipe := congrArg (fun x : FMap (CmdHdr × StartP) × FMap Pipe × Img => mgetD x.2.1 p.pipe {}) passed
      obtain ⟨c, known⟩ := pipeOf_of_startCheck hc
      obtain ⟨waiting, nextSeq, nextFlow, b, new, ended, exit, last⟩ :=
        admitBatch_admits (p := p) (src := .start h) ((pipeOf_congr img dated p.pipe).trans known) (pipe.symm ▸ hseq)
      obtain ⟨seq, seqs, session, time, src, slot⟩ := new
      rw [admitRing_admits hw hc ha hb, waiting, ← pipe]
      exact ⟨gone, nextSeq, nextFlow, b, last, seq, seqs, session, time.trans (congrArg (fun x => x.1.toNat) dated), src,
        slot.trans (by rw [pipeSlot_congr img dated]), ended, exit⟩
    · rw [admitRing_refuses hw hc h7]
      refine ⟨?_, _, rfl, cplWritten_startDropped _ hn hh hr held⟩
      rw [waiting_congr (starts_finish h _ 0 0 _)]
      exact gone
  · exact completes_sys (f := admitRow none) rfl rfl hs (by unfold admitRow trAdmit; rw [ht])
  · have row : ∀ {P : Dev → Prop}, (batchComplete p d0).train = none → P (batchComplete p d0) → Completes (.batchComplete p) s P :=
      fun {_} htr hP => completes_sys (f := trAfter (batchComplete p)) rfl (decide_eq_true hp) hs (by rwa [trAfter_none htr])
    refine ⟨fun he hpo hre hov hsl had hsrc hring hr held => ?_, fun he => ?_⟩
    · obtain ⟨eq, gone⟩ := batchComplete_clean hq ⟨only, he, hheld, hpo, hre, hov, hsl, had, hsrc⟩
      have written := (cplWritten_complete (c := ⟨h, 0, b.flags, b.seq + 65536 * b.side + 2 ^ 32 * b.exit, b.time, false⟩)
        (d := batchGone p b d0) hring hr held).1
      refine row ?_ ⟨?_, gone⟩
      · rw [eq]
        exact (train_of_kept (kept_batchCpl 0)).trans ht
      · rw [eq]
        exact written
    · have stays := batchComplete_waits hq only he
      exact row (stays.symm ▸ ht) stays

end Sys2Proof.Machine
end

/-! ## Stream routes, and the end of firings, batches, signals and waits -/

section
/-! SUPPORT of O18: what moves items at the stream FIFOs leaves, what a change of a port's credits leaves, and the equation of each row that ends
something at a stage. -/

namespace Sys2Proof.Machine

/-! ### Tables that rise -/

section
variable {α : Type}

theorem mget_of_lt {m : FMap α} {a : Nat} (h : ∀ b ∈ m.map Prod.fst, a < b) : mget m a = none := by
  induction m with
  | nil => rfl
  | cons p m ih =>
    obtain ⟨k, v⟩ := p
    simp only [List.map_cons, List.forall_mem_cons] at h
    obtain ⟨hk, hm⟩ := h
    exact (if_neg (Nat.ne_of_lt hk)).trans (ih hm)

/-- In a table that rises, an entry that is there is found. -/
theorem mget_of_mem {m : FMap α} (hm : Rising m) {a : Nat} {v : α} (h : (a, v) ∈ m) : mget m a = some v := by
  induction m with
  | nil => cases h
  | cons p m ih =>
    obtain ⟨k, w⟩ := p
    simp only [Rising, List.map_cons, List.pairwise_cons] at hm
    obtain ⟨first, rest⟩ := hm
    rcases List.mem_cons.mp h with heq | hin
    · cases heq
      exact if_pos rfl
    · exact (if_neg (Nat.ne_of_gt (first a (List.mem_map_of_mem hin)))).trans (ih rest hin)

/-- An entry that changes nothing a search looks at leaves what the search finds. -/
theorem find?_mput {m : FMap α} (hm : Rising m) {a : Nat} {v w : α} {q : α → Bool} (ha : mget m a = some w) (hq : q v = q w) :
    ((mput m a v).find? (fun p => q p.2)).map Prod.fst = (m.find? (fun p => q p.2)).map Prod.fst := by
  induction m with
  | nil => cases ha
  | cons p m ih =>
    obtain ⟨k, x⟩ := p
    simp only [Rising, List.map_cons, List.pairwise_cons] at hm
    obtain ⟨first, rest⟩ := hm
    by_cases heq : a = k
    · subst heq
      have same : x = w := Option.some.inj ((if_pos rfl).symm.trans ha)
      rw [mput, if_neg (Nat.lt_irrefl a), if_pos rfl, List.find?_cons, List.find?_cons, hq, same]
      cases q w <;> rfl
    · have later : mget m a = some w := (if_neg heq).symm.trans ha
      have above : ¬ a < k := fun hlt => by
        rw [mget_of_lt fun b hb => Nat.lt_trans hlt (first b hb)] at later
        cases later
      rw [mput, if_neg above, if_neg heq, List.find?_cons, List.find?_cons]
      cases q x
      · exact ih rest later
      · rfl

end

/-! ### The routes of the stream FIFOs -/

section
variable {d e : Dev} {id : Nat} {f g : Fifo}

/-- What a route's source sees of it: its own endpoint, its mode and its credits. -/
def routeView (d : Dev) (id : Nat) : Option (Nat × Bool × Nat) := (mget d.fifos id).map (fun f => (f.src, f.stall, f.cred))

theorem routeBySrc_setFifo (hr : Rising d.fifos) (hf : mget d.fifos id = some f) (hs : g.src = f.src) (p : Nat) :
    routeBySrc (setFifo id g d) p = routeBySrc d p :=
  find?_mput (q := fun f => f.src == p) hr hf (by rw [hs])

/-- The route that a source has is its own. -/
theorem src_of_routeBySrc (hr : Rising d.fifos) {p : Nat} (h : routeBySrc d p = some id) (hf : mget d.fifos id = some f) : f.src = p := by
  unfold routeBySrc at h
  cases hx : d.fifos.find? (fun q => q.2.src == p) with
  | none => rw [hx] at h; cases h
  | some q =>
    rw [hx] at h
    cases h
    have found : mget d.fifos q.1 = some q.2 := mget_of_mem hr (List.mem_of_find?_eq_some hx)
    rw [found] at hf
    cases hf
    simpa using List.find?_some hx

/-- The registers apart from those of the engines. -/
def notEngine (a : Nat) : Prop := a < 0x10100000 ∨ 0x10200000 ≤ a

/-- What moves items at the stream FIFOs leaves the engines, their registers, the memory, and the sources and credits of all routes. -/
structure AtFifos (d e : Dev) : Prop where
  engs : e.engs = d.engs
  touches : Touches notEngine d e
  rising : Rising e.fifos
  src : ∀ p, routeBySrc e p = routeBySrc d p
  view : ∀ id, routeView e id = routeView d id

theorem AtFifos.refl (h : Rising d.fifos) : AtFifos d d := ⟨rfl, Touches.refl d, h, fun _ => rfl, fun _ => rfl⟩

theorem AtFifos.trans (h : AtFifos d e) {e' : Dev} (k : AtFifos e e') : AtFifos d e' :=
  ⟨k.engs.trans h.engs, h.touches.trans k.touches, k.rising, fun p => (k.src p).trans (h.src p), fun id => (k.view id).trans (h.view id)⟩

theorem AtFifos.irq (h : AtFifos d e) {e' : Dev} (hi : IrqOnly e e') (ht : Touches notEngine e e') : AtFifos d e' := by
  obtain ⟨_, _, _, _, _, rfl⟩ := hi
  exact ⟨h.engs, h.touches.trans ht, h.rising, h.src, h.view⟩

theorem AtFifos.sf (h : AtFifos d e) (r : Reg) (fl : Fld) (x : Nat) (hr : notEngine r.addr) : AtFifos d (sf r fl x e) :=
  h.irq ((IrqOnly.refl e).sf r fl x) ((Touches.refl e).sf r fl x (.inl hr))

theorem AtFifos.raise (h : AtFifos d e) (n : Nat) : AtFifos d (raise n e) :=
  h.irq ((IrqOnly.refl e).raise n) ((Touches.refl e).raise n)

theorem AtFifos.cntAdd64 (h : AtFifos d e) (r : Reg) (n : Nat) (hr : notEngine r.addr) : AtFifos d (cntAdd64 r n e) :=
  h.irq ((IrqOnly.refl e).wr r _) ((Touches.refl e).cntAdd64 r n (.inl hr))

theorem AtFifos.ite (h : AtFifos d e) {c : Prop} [Decidable c] {e' : Dev} (h' : AtFifos d e') : AtFifos d (if c then e else e') := by
  split
  · exact h
  · exact h'

theorem AtFifos.whenB (h : AtFifos d e) {f : Dev → Dev} (hf : ∀ e, AtFifos d e → AtFifos d (f e)) (c : Bool) : AtFifos d (whenB c f e) :=
  (hf e h).ite h

theorem AtFifos.foldl {α : Type} {f : Dev → α → Dev} (hf : ∀ e x, AtFifos d e → AtFifos d (f e x)) :
    ∀ (l : List α) {e : Dev}, AtFifos d e → AtFifos d (l.foldl f e)
  | [], _, h => h
  | x :: l, e, h => AtFifos.foldl hf l (hf e x h)

theorem routeView_some (hf : mget d.fifos id = some f) : routeView d id = some (f.src, f.stall, f.cred) := congrArg (Option.map _) hf

/-- A FIFO changes in what its source does not see. -/
theorem AtFifos.setFifo (h : AtFifos d e) (hv : routeView e id = some (g.src, g.stall, g.cred)) : AtFifos d (setFifo id g e) := by
  obtain ⟨f, hf, hfg⟩ := Option.map_eq_some_iff.mp hv
  refine ⟨h.engs, Touches.mk h.touches, rising_mput _ _ _ h.rising,
    fun p => (routeBySrc_setFifo h.rising hf (congrArg Prod.fst hfg).symm p).trans (h.src p), fun j => (?_ : _ = routeView e j).trans (h.view j)⟩
  by_cases hj : j = id
  · subst hj
    exact (routeView_some (mget_mput_same _ _ _)).trans hv.symm
  · exact congrArg (Option.map _) (mget_mput_ne _ _ hj)

theorem AtFifos.setDst (h : AtFifos d e) (id k : Nat) (x : FDst) : AtFifos d (setDst id k x e) := by
  unfold Machine.setDst
  split
  next hf => exact h.setFifo (routeView_some hf :)
  · exact h

theorem notEngine_fifo (off id : Nat) : notEngine (0x10210000 + off + id * 0x40) := .inr (by omega)

theorem AtFifos.pinDrive (h : AtFifos d e) (p : Nat) : AtFifos d (pinDrive p e) :=
  h.ite (.ite (h.sf _ _ _ (.inr (by decide))) (.ite (h.sf _ _ _ (.inr (by decide))) h))

theorem AtFifos.fifoLevel (h : AtFifos d e) (id : Nat) : AtFifos d (fifoLevel id e) := by
  unfold Machine.fifoLevel
  split
  · exact h
  · have most := AtFifos.ite (c := fifoOcc ‹_› > gf e (Reg.FIFO_MAXOCC id) F.FIFO_MAXOCC_MAXOCC)
      (h.sf (Reg.FIFO_MAXOCC id) F.FIFO_MAXOCC_MAXOCC (fifoOcc ‹_›) (notEngine_fifo 0x1c id)) h
    exact AtFifos.pinDrive (.ite (most.sf _ _ _ (notEngine_fifo 0x10 id)) (.ite (most.sf _ _ _ (notEngine_fifo 0x10 id)) most)) _

theorem AtFifos.markFullCheck (h : AtFifos d e) (id : Nat) : AtFifos d (markFullCheck id e) := by
  unfold Machine.markFullCheck
  split
  · exact .ite ((h.sf _ _ _ (notEngine_fifo 0x10 id)).raise _) h
  · exact h

theorem AtFifos.prodCheck (h : AtFifos d e) (id : Nat) : AtFifos d (prodCheck id e) := by
  unfold Machine.prodCheck
  split
  · exact h
  · next hf =>
    dsimp only
    split
    · split
      · exact h.setFifo (routeView_some hf :)
      · exact h
    · split
      · exact (AtFifos.sf (h.setFifo (g := { ‹Fifo› with lost := true }) (routeView_some hf :)) (Reg.FIFO_STAT id) _ _ (notEngine_fifo 0x10 id)).raise _
      · exact h

theorem AtFifos.ueEntry (h : AtFifos d e) (st cause addr : Nat) : AtFifos d (ueEntry st cause addr e) := by
  have logged : ∀ g, AtFifos d { e with intg := g } := fun g => ⟨h.engs, Touches.mk h.touches, h.rising, h.src, h.view⟩
  exact ((logged _).sf _ _ _ (.inl (by decide))).raise _

/-- A FIFO in stall mode takes an item without a credit. -/
theorem AtFifos.fifoPut (h : AtFifos d e) (hf : mget e.fifos id = some f) (hs : f.stall = true) (it : Item) : AtFifos d (fifoPut id it e) := by
  have view := routeView_some hf
  unfold Machine.fifoPut
  rw [hf]
  dsimp only
  have flipped : ∀ a b, AtFifos e (Machine.whenB b (Machine.ueEntry 0x13 5 0) (Machine.whenB a (Machine.sf Reg.INTG_FLIP F.INTG_FLIP_ARM 0) e)) :=
    fun a b => AtFifos.whenB (AtFifos.whenB (.refl h.rising) (fun _ h => h.sf _ _ _ (.inl (by decide))) a) (fun _ h => h.ueEntry _ _ _) b
  refine h.trans (AtFifos.markFullCheck (AtFifos.fifoLevel (AtFifos.whenB (AtFifos.cntAdd64 (AtFifos.whenB (AtFifos.whenB
    (AtFifos.setFifo (flipped _ _) ?_) (fun _ h => (h.sf _ _ _ (notEngine_fifo 0x10 id)).raise _) _)
    (fun _ h => h.sf _ _ _ (notEngine_fifo 0x14 id)) _) _ _ (notEngine_fifo 0x20 id)) (fun _ h => h.raise _) _) _) _)
  exact (flipped _ _).view id |>.trans (view.trans (by simp only [if_pos hs]))

theorem AtFifos.fifoDrain (hs : ∀ v ∈ routeView d id, v.2.1 = true) (fuel : Nat) : ∀ {e : Dev}, AtFifos d e → AtFifos d (fifoDrain fuel id e) := by
  induction fuel with
  | zero => exact fun h => h
  | succ fuel ih =>
    intro e h
    unfold Machine.fifoDrain
    split
    · exact h
    next f hf =>
      split
      · exact h
      next it rest hb =>
        split
        · have stall : f.stall = true := hs _ ((h.view id).symm.trans (routeView_some hf))
          have popped : AtFifos d (Machine.setFifo id { f with backlog := rest } e) := h.setFifo (routeView_some hf :)
          exact ih (popped.fifoPut (f := { f with backlog := rest }) (mget_mput_same _ _ _) stall it)
        · exact h

theorem AtFifos.fifoFree (h : AtFifos d e) (id : Nat) : AtFifos d (fifoFree id e) := by
  unfold Machine.fifoFree
  split
  · exact h
  next f hf =>
    dsimp only
    split
    · exact h
    · have view := routeView_some hf
      have level : ∀ g x, (g.src, g.stall, g.cred) = (f.src, f.stall, f.cred) →
          AtFifos e (Machine.fifoLevel id (Machine.sf (Reg.FIFO_PKT id) F.FIFO_PKT_PKT_OUT x (Machine.setFifo id g e))) := fun g x hg =>
        ((AtFifos.setFifo (.refl h.rising) (view.trans (congrArg some hg.symm))).sf _ _ _ (notEngine_fifo 0x14 id)).fifoLevel id
      refine AtFifos.prodCheck (h.trans ?_) id
      split
      next hs =>
        refine AtFifos.fifoDrain (fun v hv => ?_) _ (level _ _ ?_)
        · rw [view] at hv
          cases hv
          exact hs
        · rfl
      · refine level _ _ ?_
        rfl

theorem AtFifos.fifoRead (h : AtFifos d e) (id k n : Nat) : AtFifos d (fifoRead id k n e) := by
  unfold Machine.fifoRead
  split
  · exact h
  · split
    · exact h
    · exact ((h.setDst id k _).fifoFree id).markFullCheck id

/-- Taking the items of a firing. -/
theorem AtFifos.fireTake (h : AtFifos d e) (k : Nat) (ins : FMap (List Item)) : AtFifos d (fireTake k ins e) := by
  refine AtFifos.foldl (fun e q h => ?_) ins h
  split
  · exact h
  · exact (h.setDst _ _ _).fifoRead _ _ _

end

/-! ### Credits (R145, R146) -/

section
variable {d e : Dev} {k : Nat}

theorem epMk_inj {p q : Nat} (h : epMk 0 k p = epMk 0 k q) : p = q := by
  unfold epMk at h
  omega

/-- The route that leaves port `p` of engine `k`. -/
def portFifo (d : Dev) (k p : Nat) : Option Fifo := (routeBySrc d (epMk 0 k p)).bind (mget d.fifos)

theorem portFifo_route {p r : Nat} {x : Fifo} (hr : routeBySrc d (epMk 0 k p) = some r) (hx : mget d.fifos r = some x) :
    portFifo d k p = some x := by
  unfold portFifo
  rw [hr, Option.bind_some, hx]

/-- The route of a port changes; that of every other port stays. -/
theorem portFifo_setFifo (hr : Rising d.fifos) {p r : Nat} {x g : Fifo} (hp : routeBySrc d (epMk 0 k p) = some r) (hx : mget d.fifos r = some x)
    (hs : g.src = x.src) (q : Nat) : portFifo (setFifo r g d) k q = if q = p then some g else portFifo d k q := by
  unfold portFifo
  rw [routeBySrc_setFifo hr hx hs]
  split
  next hq => rw [hq, hp, Option.bind_some, show mget (setFifo r g d).fifos r = some g from mget_mput_same _ _ _]
  next hq =>
    cases ho : routeBySrc d (epMk 0 k q) with
    | none => rfl
    | some o =>
      have apart : o ≠ r := fun h => hq <| by
        subst h
        exact epMk_inj ((src_of_routeBySrc hr ho hx).symm.trans (src_of_routeBySrc hr hp hx))
      exact mget_mput_ne _ _ apart

/-- Only the stream FIFOs' table has changed. -/
structure RoutesOnly (d e : Dev) : Prop where
  fifos : ∃ m, e = { d with fifos := m }
  rising : Rising e.fifos

theorem RoutesOnly.refl (h : Rising d.fifos) : RoutesOnly d d := ⟨⟨_, rfl⟩, h⟩

theorem RoutesOnly.trans {f : Dev} (h : RoutesOnly d e) (k : RoutesOnly e f) : RoutesOnly d f := by
  obtain ⟨⟨m, rfl⟩, -⟩ := h
  obtain ⟨⟨m, rfl⟩, hr⟩ := k
  exact ⟨⟨_, rfl⟩, hr⟩

theorem RoutesOnly.setFifo (h : RoutesOnly d e) (r : Nat) (g : Fifo) : RoutesOnly d (setFifo r g e) :=
  h.trans ⟨⟨_, rfl⟩, rising_mput _ _ _ h.rising⟩

/-- The route of port `p` has changed by `g`, that of no other port. -/
structure PortChanged (k p : Nat) (g : Fifo → Fifo) (d e : Dev) : Prop where
  only : RoutesOnly d e
  own : portFifo e k p = (portFifo d k p).map g
  others : ∀ q, q ≠ p → portFifo e k q = portFifo d k q

theorem PortChanged.same {p : Nat} {g : Fifo → Fifo} (hr : Rising d.fifos) (h : (portFifo d k p).map g = portFifo d k p) :
    PortChanged k p g d d := ⟨.refl hr, h.symm, fun _ _ => rfl⟩

theorem PortChanged.set {p r : Nat} {g : Fifo → Fifo} {x : Fifo} (hr : Rising d.fifos) (hp : routeBySrc d (epMk 0 k p) = some r)
    (hx : mget d.fifos r = some x) (hs : (g x).src = x.src) : PortChanged k p g d (setFifo r (g x) d) := by
  have after := portFifo_setFifo (k := k) hr hp hx hs
  refine ⟨(RoutesOnly.refl hr).setFifo _ _, ?_, fun q hq => (after q).trans (if_neg hq)⟩
  rw [after, if_pos rfl, portFifo_route hp hx, Option.map_some]

/-- Ports whose routes change one after the other, each once, change each by its own. -/
theorem PortChanged.foldl {α : Type} {port : α → Nat} {g : α → Fifo → Fifo} {op : Dev → α → Dev}
    (hop : ∀ d x, Rising d.fifos → PortChanged k (port x) (g x) d (op d x)) (l : List α) : ∀ {d : Dev}, Rising d.fifos → (l.map port).Nodup →
    RoutesOnly d (l.foldl op d) ∧ (∀ p ∉ l.map port, portFifo (l.foldl op d) k p = portFifo d k p) ∧
    ∀ x ∈ l, portFifo (l.foldl op d) k (port x) = (portFifo d k (port x)).map (g x) := by
  induction l with
  | nil => exact fun h _ => ⟨.refl h, fun _ _ => rfl, fun _ hq => absurd hq List.not_mem_nil⟩
  | cons x l ih =>
    intro d hr hn
    obtain ⟨fresh, hn⟩ := List.nodup_cons.mp hn
    obtain ⟨only, own, others⟩ := hop d x hr
    obtain ⟨only', others', own'⟩ := ih only.rising hn
    refine ⟨only.trans only', fun p hp => ?_, fun q hq => ?_⟩
    · obtain ⟨hx, hl⟩ := not_or.mp fun h => hp (List.mem_cons.mpr h)
      exact (others' p hl).trans (others p hx)
    · rcases List.mem_cons.mp hq with rfl | hl
      · exact (others' _ fresh).trans own
      · exact (own' q hl).trans (congrArg _ (others _ fun h => fresh (h ▸ List.mem_map_of_mem hl)))

/-- Credits that come back to a port. -/
theorem portChanged_credBack (hr : Rising d.fifos) (p n : Nat) : PortChanged k p (fun f => { f with cred := f.cred + n }) d (credBack k p n d) := by
  unfold credBack
  split
  next h0 => exact .same hr (by simp [portFifo, h0])
  next r hp =>
    split
    next f hf => exact .set hr hp hf rfl
    next hf => exact .same hr (by simp [portFifo, hp, hf])

/-- What a firing reserves of a route. -/
def credTaken (s : Stg) (p : Nat) (f : Fifo) : Fifo := if f.stall then f else { f with cred := f.cred - s.outCred.getD p 0 }

/-- The credits that one port of a firing reserves. -/
def credReserve (k : Nat) (s : Stg) (p : Nat) (d : Dev) : Dev :=
  match routeBySrc d (epMk 0 k p) with
  | none => d
  | some r =>
    match mget d.fifos r with
    | none => d
    | some f => if f.stall then d else setFifo r { f with cred := f.cred - s.outCred.getD p 0 } d

theorem portChanged_credReserve (s : Stg) (hr : Rising d.fifos) (p : Nat) : PortChanged k p (credTaken s p) d (credReserve k s p d) := by
  unfold credReserve
  split
  next h0 => exact .same hr (by simp [portFifo, h0])
  next r hp =>
    split
    next hf => exact .same hr (by simp [portFifo, hp, hf])
    next f hf =>
      have taken := PortChanged.set (g := credTaken s p) hr hp hf
      unfold credTaken at taken ⊢
      split
      next hs => exact .same hr (by simp [portFifo, hp, hf, hs])
      next hs =>
        rw [if_neg hs] at taken
        exact taken rfl

theorem fireReserve_dev (s : Stg) (d : Dev) : (fireReserve k s d).2 = (outPorts s).foldl (fun d p => credReserve k s p d) d := by
  refine (List.foldl_hom Prod.snd fun acc p => ?_).symm
  unfold credReserve
  cases routeBySrc acc.2 (epMk 0 k p) with
  | none => rfl
  | some r =>
    dsimp only
    cases mget acc.2.fifos r with
    | none => rfl
    | some f => exact (apply_ite Prod.snd (f.stall = true) acc
        (mput acc.1 p (s.outCred.getD p 0), setFifo r { f with cred := f.cred - s.outCred.getD p 0 } acc.2)).symm

theorem outPorts_nodup (s : Stg) : (outPorts s).Nodup := List.Nodup.filter _ List.nodup_range

/-- A firing reserves the credits of each of its ports in credit mode and changes nothing else. -/
theorem fireReserve_takes (s : Stg) (hr : Rising d.fifos) : RoutesOnly d (fireReserve k s d).2 ∧
    ∀ p ∈ outPorts s, portFifo (fireReserve k s d).2 k p = (portFifo d k p).map (credTaken s p) := by
  rw [fireReserve_dev]
  obtain ⟨only, -, own⟩ := PortChanged.foldl (port := id) (op := fun d p => credReserve k s p d)
    (fun _ p hr => portChanged_credReserve s hr p) (outPorts s) hr (by rw [List.map_id]; exact outPorts_nodup s)
  exact ⟨only, own⟩

/-- The credits of a firing that ends come back. -/
theorem credBack_foldl (l : FMap Nat) (hr : Rising d.fifos) (hn : (l.map Prod.fst).Nodup) :
    RoutesOnly d (l.foldl (fun d q => credBack k q.1 q.2 d) d) ∧
    ∀ q ∈ l, portFifo (l.foldl (fun d q => credBack k q.1 q.2 d) d) k q.1 = (portFifo d k q.1).map (fun f => { f with cred := f.cred + q.2 }) := by
  obtain ⟨only, -, own⟩ := PortChanged.foldl (g := fun q f => { f with cred := f.cred + q.2 }) (op := fun d q => credBack k q.1 q.2 d)
    (fun _ q hr => portChanged_credBack hr q.1 q.2) l hr hn
  exact ⟨only, own⟩

theorem portFifo_stageUpd (key : Nat) (u : StageRt → StageRt) (d : Dev) (p : Nat) : portFifo (stageUpd key u d) k p = portFifo d k p := rfl

theorem stageRt_stageUpd (key : Nat) (u : StageRt → StageRt) (d : Dev) : stageRt (stageUpd key u d) key = u (stageRt d key) :=
  mgetD_mput_same _ _ _ _

theorem RoutesOnly.engs (h : RoutesOnly d e) : e.engs = d.engs := by obtain ⟨⟨_, rfl⟩, -⟩ := h; rfl

theorem RoutesOnly.touches {w : Nat → Prop} (h : RoutesOnly d e) : Touches w d e := by
  obtain ⟨⟨_, rfl⟩, -⟩ := h
  exact Touches.mk (Touches.refl d)

theorem stageRt_congr (h : e.engs = d.engs) (key : Nat) : stageRt e key = stageRt d key := by
  unfold stageRt
  rw [h]

/-! ### FIRING_END -/

theorem firingEnd_owesNothing {id : Nat} {f : Firing} (hf : (stageRt d (stKey k id)).firings.head? = some f) (hr : f.ready = true) (ho : f.owed = []) :
    firingEnd k id d = stageUpd (stKey k id) (fun rt => { rt with
      firings := rt.firings.tail, sigDue := if f.passEnd && !f.last then rt.sigDue + 1 else rt.sigDue })
      (f.resv.foldl (fun d q => credBack k q.1 q.2 d) d) := by
  unfold firingEnd
  dsimp only
  rw [hf]
  dsimp only
  rw [if_pos hr, ho, show owedFlush k id ([] : List (Nat × Item)).length d = d from rfl, hf]
  rfl

/-- A firing that owes nothing ends: it leaves, its signals come due and its reserved credits come back. -/
theorem firingEnd_ends {id : Nat} {f : Firing} (hrise : Rising d.fifos) (hf : (stageRt d (stKey k id)).firings.head? = some f) (hr : f.ready = true)
    (ho : f.owed = []) (hn : (f.resv.map Prod.fst).Nodup) :
    (stageRt (firingEnd k id d) (stKey k id)).firings = (stageRt d (stKey k id)).firings.tail ∧
    (stageRt (firingEnd k id d) (stKey k id)).sigDue = (stageRt d (stKey k id)).sigDue + bit (f.passEnd && !f.last) ∧
    (∀ q ∈ f.resv, ∀ c, (portFifo d k q.1).map Fifo.cred = some c → (portFifo (firingEnd k id d) k q.1).map Fifo.cred = some (c + q.2)) ∧
    Touches (fun _ => False) d (firingEnd k id d) := by
  obtain ⟨only, back⟩ := credBack_foldl (k := k) f.resv hrise hn
  have stage := stageRt_congr only.engs (stKey k id)
  rw [firingEnd_owesNothing hf hr ho, stageRt_stageUpd, stage]
  refine ⟨rfl, ?_, fun q hq c hc => ?_, only.touches.trans (Touches.mk (Touches.refl _))⟩
  · cases f.passEnd && !f.last <;> rfl
  · rw [portFifo_stageUpd, back q hq]
    obtain ⟨x, hx, rfl⟩ := Option.map_eq_some_iff.mp hc
    rw [hx]
    rfl

end

/-! ### What leaves the stages alone -/

section
variable {d : Dev}

@[simp] theorem raise_engs (n : Nat) (d : Dev) : (raise n d).engs = d.engs := ((IrqOnly.refl d).raise n).engs

@[simp] theorem ite_engs {c : Prop} [Decidable c] (a b : Dev) : (if c then a else b).engs = if c then a.engs else b.engs := apply_ite _ _ _ _

@[simp] theorem ueEntry_engs (st cause addr : Nat) (d : Dev) : (ueEntry st cause addr d).engs = d.engs := by simp [ueEntry]

@[simp] theorem cntAdd64_engs (r : Reg) (n : Nat) (d : Dev) : (cntAdd64 r n d).engs = d.engs := rfl

@[simp] theorem fifoLevel_engs (id : Nat) (d : Dev) : (fifoLevel id d).engs = d.engs := ((IrqOnly.refl d).fifoLevel id).engs

@[simp] theorem markFullCheck_engs (id : Nat) (d : Dev) : (markFullCheck id d).engs = d.engs := ((IrqOnly.refl d).markFullCheck id).engs

@[simp] theorem fifoPut_engs (id : Nat) (it : Item) (d : Dev) : (fifoPut id it d).engs = d.engs := by
  unfold fifoPut
  split <;> simp [whenB]

@[simp] theorem fifoDrain_engs (fuel id : Nat) (d : Dev) : (fifoDrain fuel id d).engs = d.engs := by
  induction fuel generalizing d with
  | zero => rfl
  | succ fuel ih =>
    unfold fifoDrain
    split
    · rfl
    · split
      · rfl
      · simp [ih]

@[simp] theorem fifoSend_engs (id : Nat) (its : List Item) (d : Dev) : (fifoSend id its d).engs = d.engs := by
  unfold fifoSend
  split <;> simp

@[simp] theorem fifoEndLast_engs (id : Nat) (d : Dev) : (fifoEndLast id d).engs = d.engs := by
  unfold fifoEndLast
  split
  · rfl
  · dsimp only
    split <;> simp

@[simp] theorem portMark_engs (k : Nat) (rt : StageRt) (p : Nat) (d : Dev) : (portMark k rt p d).engs = d.engs := by
  unfold portMark
  split <;> simp

@[simp] theorem setDst_engs (id k : Nat) (x : FDst) (d : Dev) : (setDst id k x d).engs = d.engs := by
  unfold setDst
  split <;> rfl

@[simp] theorem portNext_engs (id k : Nat) (d : Dev) : (portNext id k d).engs = d.engs := by
  unfold portNext
  split <;> simp

theorem foldl_engs {α : Type} (l : List α) {f : Dev → α → Dev} (hf : ∀ e x, (f e x).engs = e.engs) (d : Dev) : (l.foldl f d).engs = d.engs := by
  induction l generalizing d with
  | nil => rfl
  | cons x l ih => exact (ih _).trans (hf d x)

theorem sensesStart_engs (k : Nat) (d : Dev) : (sensesStart k d).engs = d.engs := by
  refine foldl_engs _ (fun e p => ?_) d
  unfold senseStart
  dsimp only
  split
  · rfl
  · split <;> rfl

theorem contStop_engs (k ctx : Nat) (d : Dev) : (contStop k ctx d).engs = d.engs := sensesStart_engs k _

/-- The reads that stop are an affair of the arrays. -/
theorem readsStop_engs (h : Nat) (key : Option Nat) (d : Dev) : (readsStop h key d).engs = d.engs := by
  refine foldl_engs _ (fun e i => ?_) d
  simp only [ite_engs, contStop_engs, aryUpd_engs, ite_self]

/-- The stages' run-time state. -/
theorem stages_qzBatchEnd (key k n : Nat) (own : Option (Nat × Nat)) (d : Dev) : (qzBatchEnd key k n own d).engs.stages = d.engs.stages := by
  unfold qzBatchEnd
  dsimp only
  generalize ((stageRt d key).rows.filter _) = l
  induction l generalizing d with
  | nil => rfl
  | cons r l ih =>
    refine (ih _).trans ?_
    unfold qzRowEnd whenB
    dsimp only
    split <;> rfl

end

/-! ### STAGE_BATCH_END -/

section
variable {d : Dev} {k id : Nat} {st : Stg}

theorem id_of_stageOf (h : stageOf d k id = some st) : st.id = id := by
  have found := List.find?_some h
  simp only [Bool.and_eq_true, beq_iff_eq] at found
  exact found.1

/-- What a batch's end does at the stage's ports. -/
def portsEnd (k : Nat) (st : Stg) (rt : StageRt) (d : Dev) : Dev :=
  (inPorts st).foldl (fun d p => match portView d k p with
    | some v => portNext v.1 (dstKey (epMk 1 k p)) d
    | none => d) (if st.passEob then forEach (outPorts st) (portMark k rt) d else d)

theorem portsEnd_engs (rt : StageRt) : (portsEnd k st rt d).engs = d.engs := by
  have marked : (if st.passEob then forEach (outPorts st) (portMark k rt) d else d).engs = d.engs := by
    split
    · exact foldl_engs _ (fun e p => portMark_engs k rt p e) d
    · rfl
  refine (foldl_engs _ (fun e p => ?_) _).trans marked
  split <;> simp

theorem touches_setDst {w : Nat → Prop} {e : Dev} (h : Touches w d e) (f j : Nat) (x : FDst) : Touches w d (setDst f j x e) := by
  unfold setDst
  split
  · exact Touches.mk h
  · exact h

/-- The next batch's items at an input port are no register's affair. -/
theorem touches_portsEnd {w : Nat → Prop} (rt : StageRt) (he : st.passEob = false) : Touches w d (portsEnd k st rt d) := by
  have next : ∀ f j e, Touches w d e → Touches w d (portNext f j e) := fun f j e h => by
    unfold portNext
    split
    · exact touches_setDst h _ _ _
    · exact h
  unfold portsEnd
  rw [he]
  refine Touches.forEach (fun p e => match portView e k p with
    | some v => portNext v.1 (dstKey (epMk 1 k p)) e
    | none => e) (fun p e h => ?_) (inPorts st) d (Touches.refl d)
  split
  · exact next _ _ _ h
  · exact h

/-- All that the stage reads of the batch has come. -/
def batchIn (k : Nat) (st : Stg) (d : Dev) : Bool :=
  if (inPorts st).isEmpty then (stageRt d (stKey k st.id)).done
  else (inPorts st).all (fun p => (portView d k p).any (fun v => portEnded v.2.1 && v.2.1.mark.isNone))

theorem batchIn_ended (hn : inPorts st = [] → (stageRt d (stKey k st.id)).done = true)
    (hp : ∀ p ∈ inPorts st, ∃ v, portView d k p = some v ∧ portEnded v.2.1 = true ∧ v.2.1.mark = none) : batchIn k st d = true := by
  unfold batchIn
  split
  next h => exact hn (List.isEmpty_iff.mp h)
  · refine List.all_eq_true.mpr fun p hin => ?_
    obtain ⟨v, hv, ended, mark⟩ := hp p hin
    rw [hv, Option.any_some, ended, mark]
    rfl

/-- The stage's ports and its quantiser at a batch's end. -/
def batchSettled (k : Nat) (st : Stg) (d : Dev) : Dev :=
  if st.qz = 0xFF then portsEnd k st (stageRt d (stKey k st.id)) d
  else qzBatchEnd (stKey k st.id) k st.qz ((stageBatch d st (stageRt d (stKey k st.id))).map (fun b => (st.pipe, b.seq)))
    (portsEnd k st (stageRt d (stKey k st.id)) d)

theorem stages_batchSettled : (batchSettled k st d).engs.stages = d.engs.stages := by
  have ports := congrArg Engs.stages (portsEnd_engs (k := k) (st := st) (d := d) (stageRt d (stKey k st.id)))
  unfold batchSettled
  split
  · exact ports
  · exact (stages_qzBatchEnd _ _ _ _ _).trans ports

/-- The stage has passed items of the batch in part. -/
def passOpen (rt : StageRt) : Bool := rt.loops.any (fun x => x != 0)

/-- The stage as its next batch finds it. -/
def nextBatch (st : Stg) (open_ : Bool) (rt : StageRt) : StageRt :=
  { rt with
    loops := [0, 0, 0, 0], cur := rt.cur + 1, inPass := false, done := false, wrote := 0, marked := 0, waits := 0,
    au := if open_ || auBatched st then [] else rt.au, acc := [], rows := [], recs := [], sigDue := rt.sigDue + 1 }

theorem stageBatchEnd_eq (hst : stageOf d k id = some st) (hf : (stageRt d (stKey k id)).firings = []) (hb : batchIn k st d = true) :
    stageBatchEnd k id d = stageUpd (stKey k id) (nextBatch st (passOpen (stageRt d (stKey k id))))
      (if passOpen (stageRt d (stKey k id)) then wsDrop (hostOf (batchSettled k st d) k id) (stKey k id) (batchSettled k st d)
       else batchSettled k st d) := by
  obtain rfl := id_of_stageOf hst
  unfold stageBatchEnd
  rw [hst]
  dsimp only
  rw [hf, if_neg (by rw [show (if (inPorts st).isEmpty = true then _ else _) = true from hb]; decide)]
  rfl

theorem stageRt_wsDrop (h key : Nat) (d : Dev) : stageRt (wsDrop h key d) key = { stageRt d key with ws := [] } :=
  (stageRt_congr (readsStop_engs h (some key) _) key).trans (stageRt_stageUpd key _ d)

/-- The batch ends at the stage. -/
theorem stageBatchEnd_ends (hst : stageOf d k id = some st) (hf : (stageRt d (stKey k id)).firings = []) (hb : batchIn k st d = true) :
    ∃ rt : StageRt, rt.cur = (stageRt d (stKey k id)).cur ∧ rt.sigDue = (stageRt d (stKey k id)).sigDue ∧
      stageRt (stageBatchEnd k id d) (stKey k id) = nextBatch st (passOpen (stageRt d (stKey k id))) rt := by
  have settled : stageRt (batchSettled k st d) (stKey k id) = stageRt d (stKey k id) := by
    unfold stageRt
    rw [stages_batchSettled]
  rw [stageBatchEnd_eq hst hf hb, stageRt_stageUpd]
  split
  · rw [stageRt_wsDrop, settled]
    exact ⟨{ stageRt d (stKey k id) with ws := [] }, rfl, rfl, rfl⟩
  · rw [settled]
    exact ⟨stageRt d (stKey k id), rfl, rfl, rfl⟩

/-- A batch whose pass is complete ends without a register, where the stage neither marks its ports nor quantises. -/
theorem touches_stageBatchEnd {w : Nat → Prop} (hst : stageOf d k id = some st) (hf : (stageRt d (stKey k id)).firings = [])
    (hb : batchIn k st d = true) (he : st.passEob = false) (hq : st.qz = 0xFF) (hl : ∀ x ∈ (stageRt d (stKey k id)).loops, x = 0) :
    Touches w d (stageBatchEnd k id d) := by
  have whole : passOpen (stageRt d (stKey k id)) = false := List.any_eq_false.mpr fun x hx => by simp [hl x hx]
  rw [stageBatchEnd_eq hst hf hb, whole]
  unfold batchSettled
  rw [if_pos hq]
  exact Touches.mk (touches_portsEnd _ he)

end

/-! ### STAGE_SIGNAL_ISSUE -/

section
variable {d : Dev} {k id : Nat} {st : Stg}

/-- One signal comes due no more. -/
def signalTaken (key : Nat) (d : Dev) : Dev := stageUpd key (fun rt => { rt with sigDue := rt.sigDue - 1 }) d

theorem stageSignals_issues (hst : stageOf d k id = some st) (hs : 0 < (stageRt d (stKey k id)).sigDue) (hw : (stageRt d (stKey k id)).writes = [])
    (hh : d.tm.held = []) (hb : ∀ p ∈ outPorts st, ∀ r x, routeBySrc d (epMk 0 k p) = some r → mget d.fifos r = some x → x.backlog = []) :
    stageSignals k id d = st.sigs.foldl (fun d g => stageSignal (hostOf d k id) (stKey k id) g d) (signalTaken (stKey k id) d) := by
  have stand : ((outPorts st).all fun p => match (routeBySrc d (epMk 0 k p)).bind (fun r => mget d.fifos r) with
      | some f => f.backlog.isEmpty
      | none => true) = true := by
    refine List.all_eq_true.mpr fun p hp => ?_
    cases hr : routeBySrc d (epMk 0 k p) with
    | none => rfl
    | some r =>
      rw [Option.bind_some]
      cases hx : mget d.fifos r with
      | none => rfl
      | some x => exact List.isEmpty_iff.mpr (hb p hp r x hr hx)
  unfold stageSignals
  rw [hst]
  dsimp only
  rw [hw, hh]
  have due : ∀ b : Bool, b = true →
      ¬ (decide ((stageRt d (stKey k id)).sigDue = 0) || !([] : List PendWr).isEmpty || !b || false) = true := fun b hb => by
    simp [hb, Nat.ne_of_gt hs]
  exact if_neg (due _ stand)

theorem stageSignal_none {g : Sig} (hg : g.op = 0) (eng key : Nat) (d : Dev) : stageSignal eng key g d = d := if_pos hg

theorem stageSignal_here {g : Sig} (hg : g.op ≠ 0) (hl : objLocal d g.obj = true) (eng key : Nat) :
    stageSignal eng key g d = syncOp (0x30 + eng) (objNum g.obj) g.op (if g.op = 4 then 1 else g.arg) d :=
  (if_neg hg).trans (if_pos hl)

theorem stageSignals_none (key : Nat) : ∀ {l : List Sig}, (∀ g ∈ l, g.op = 0) → ∀ d,
    l.foldl (fun d g => stageSignal (hostOf d k id) key g d) d = d
  | [], _, _ => rfl
  | g :: l, h, d => by
    obtain ⟨hg, hl⟩ := List.forall_mem_cons.mp h
    rw [List.foldl_cons, stageSignal_none hg]
    exact stageSignals_none key hl d

end

/-! ### ENG_WAIT_TIMEOUT -/

section
variable {d : Dev} {h k id w : Nat} {st : Stg}

/-- The stage has a wait `i` and has not met it. -/
def waitDue (st : Stg) (rt : StageRt) (i : Nat) : Bool := (st.waits.getD i ⟨0, 0, 0⟩).cond != 0 && !(rt.waits.testBit i)

/-- The first wait that the stage has not met. -/
def waitNow (st : Stg) (rt : StageRt) : Option Nat := (List.range 2).find? (waitDue st rt)

theorem waitNow_eq {rt : StageRt} (hw : w < 2) (hc : (st.waits.getD w ⟨0, 0, 0⟩).cond ≠ 0) (ht : rt.waits.testBit w = false)
    (h1 : w = 1 → (st.waits.getD 0 ⟨0, 0, 0⟩).cond = 0 ∨ rt.waits.testBit 0 = true) : waitNow st rt = some w := by
  have now : waitDue st rt w = true := by
    unfold waitDue
    rw [ht, bne_iff_ne.mpr hc]
    rfl
  obtain rfl | rfl : w = 0 ∨ w = 1 := by omega
  · exact List.find?_cons_of_pos now
  · have met : ¬ waitDue st rt 0 = true := by
      unfold waitDue
      rcases h1 rfl with h0 | h0
      · rw [h0]
        exact Bool.false_ne_true
      · rw [h0, Bool.not_true, Bool.and_false]
        exact Bool.false_ne_true
    exact (List.find?_cons_of_neg met).trans (List.find?_cons_of_pos now)

/-- The log of a wait that was not met in time. -/
def waitLogged (h id w : Nat) (d : Dev) : Dev :=
  logOnce (Reg.ENG_WAIT_STAT h) F.ENG_WAIT_STAT_VALID F.ENG_WAIT_STAT_OVER (fun d =>
    d |> sf (Reg.ENG_WAIT_STAT h) F.ENG_WAIT_STAT_WAIT w |> sf (Reg.ENG_WAIT_STAT h) F.ENG_WAIT_STAT_STAGE id) d

/-- The stage has told that wait `w` is late. -/
def waitTold (key w : Nat) (d : Dev) : Dev := stageUpd key (fun rt => { rt with waits := rt.waits ||| 2 ^ (2 + w) }) d

theorem engWaitTimeout_eq (hst : stageOf d k id = some st) (hr : (fireReady d (hostOf d k id) k st).isSome = true)
    (hw : fireWaits (hostOf d k id) (stKey k id) st d = (false, d)) (hn : waitNow st (stageRt d (stKey k id)) = some w) :
    engWaitTimeout k id w d = if (stageRt d (stKey k id)).waits.testBit (2 + w) then d
      else raise (srcEng 2 (hostOf d k id)) (waitLogged (hostOf d k id) id w (waitTold (stKey k id) w d)) := by
  unfold engWaitTimeout
  rw [hst]
  dsimp only
  rw [if_neg (by rw [Option.isNone_iff_eq_none]; exact fun h0 => by rw [h0] at hr; cases hr), hw]
  dsimp only
  change (if (waitNow st (stageRt d (stKey k id)) != some w || (stageRt d (stKey k id)).waits.testBit (2 + w)) = true then d else _) = _
  rw [hn, bne_self_eq_false, Bool.false_or]
  rfl

theorem waitStat_not_raised (hh : h < 16) : ¬ raised (Reg.ENG_WAIT_STAT h).addr := by
  simp only [raised, Reg.ENG_WAIT_STAT]
  omega

theorem waitLogged_later (hv : gb d (Reg.ENG_WAIT_STAT h) F.ENG_WAIT_STAT_VALID = true) :
    waitLogged h id w d = sf (Reg.ENG_WAIT_STAT h) F.ENG_WAIT_STAT_OVER 1 d := if_pos hv

theorem waitLogged_first (hv : gb d (Reg.ENG_WAIT_STAT h) F.ENG_WAIT_STAT_VALID = false) : waitLogged h id w d =
    sf (Reg.ENG_WAIT_STAT h) F.ENG_WAIT_STAT_STAGE id (sf (Reg.ENG_WAIT_STAT h) F.ENG_WAIT_STAT_WAIT w
      (sf (Reg.ENG_WAIT_STAT h) F.ENG_WAIT_STAT_VALID 1 d)) := if_neg (Bool.eq_false_iff.mp hv)

/-- The log takes the first late wait and counts every later one as lost. -/
theorem waitLogged_log (h : Nat) {id w : Nat} (hi : id < 512) (hw : w < 2) (d : Dev) :
    gb (waitLogged h id w d) (Reg.ENG_WAIT_STAT h) F.ENG_WAIT_STAT_VALID = true ∧
    (gb d (Reg.ENG_WAIT_STAT h) F.ENG_WAIT_STAT_VALID = false →
      gf (waitLogged h id w d) (Reg.ENG_WAIT_STAT h) F.ENG_WAIT_STAT_WAIT = w ∧
      gf (waitLogged h id w d) (Reg.ENG_WAIT_STAT h) F.ENG_WAIT_STAT_STAGE = id) ∧
    (gb d (Reg.ENG_WAIT_STAT h) F.ENG_WAIT_STAT_VALID = true → gb (waitLogged h id w d) (Reg.ENG_WAIT_STAT h) F.ENG_WAIT_STAT_OVER = true) := by
  have apart : ∀ {f g : Fld} (x : Nat) (e : Dev), f.lo + f.len ≤ 64 → (f.lo + f.len ≤ g.lo ∨ g.lo + g.len ≤ f.lo) →
      gf (sf (Reg.ENG_WAIT_STAT h) f x e) (Reg.ENG_WAIT_STAT h) g = gf e (Reg.ENG_WAIT_STAT h) g := fun x e => gf_sf_disj _ _ _ x e
  have same : ∀ {f : Fld} (x : Nat) (e : Dev), f.lo + f.len ≤ 64 →
      gf (sf (Reg.ENG_WAIT_STAT h) f x e) (Reg.ENG_WAIT_STAT h) f = x % 2 ^ f.len := fun x e => gf_sf_same _ _ x e
  cases hv : gb d (Reg.ENG_WAIT_STAT h) F.ENG_WAIT_STAT_VALID with
  | true =>
    rw [waitLogged_later hv]
    unfold gb at hv ⊢
    rw [apart (f := F.ENG_WAIT_STAT_OVER) 1 d (by decide) (by decide), same 1 d (by decide)]
    exact ⟨hv, fun h0 => (Bool.noConfusion h0), fun _ => rfl⟩
  | false =>
    rw [waitLogged_first hv]
    unfold gb
    rw [apart (f := F.ENG_WAIT_STAT_STAGE) id _ (by decide) (by decide), apart (f := F.ENG_WAIT_STAT_WAIT) w _ (by decide) (by decide),
      same 1 d (by decide), apart (f := F.ENG_WAIT_STAT_STAGE) (g := F.ENG_WAIT_STAT_WAIT) id _ (by decide) (by decide), same w _ (by decide),
      same id _ (by decide)]
    exact ⟨rfl, fun _ => ⟨Nat.mod_eq_of_lt hw, Nat.mod_eq_of_lt hi⟩, fun h0 => (Bool.noConfusion h0)⟩

theorem waitLogged_engs (h id w : Nat) (d : Dev) : (waitLogged h id w d).engs = d.engs := by
  unfold waitLogged logOnce
  split <;> rfl

theorem touches_waitLogged {e : Dev} (ht : Touches (fun a => a = (Reg.ENG_WAIT_STAT h).addr) d e) :
    Touches (fun a => a = (Reg.ENG_WAIT_STAT h).addr) d (waitLogged h id w e) :=
  ht.logOnce _ _ _ _ (.inl rfl) fun _ ht => (ht.sf _ _ _ (.inl rfl)).sf _ _ _ (.inl rfl)

/-- What a late wait leaves: its interrupt, its log and the stage's note of it. -/
theorem waitLate_told {key : Nat} (hh : h < 16) (hi : id < 512) (hw : w < 2) (d : Dev) :
    let e := raise (srcEng 2 h) (waitLogged h id w (waitTold key w d))
    icPending e (srcEng 2 h) = true ∧ gb e (Reg.ENG_WAIT_STAT h) F.ENG_WAIT_STAT_VALID = true ∧
    (gb d (Reg.ENG_WAIT_STAT h) F.ENG_WAIT_STAT_VALID = false → gf e (Reg.ENG_WAIT_STAT h) F.ENG_WAIT_STAT_WAIT = w ∧
      gf e (Reg.ENG_WAIT_STAT h) F.ENG_WAIT_STAT_STAGE = id) ∧
    (gb d (Reg.ENG_WAIT_STAT h) F.ENG_WAIT_STAT_VALID = true → gb e (Reg.ENG_WAIT_STAT h) F.ENG_WAIT_STAT_OVER = true) ∧
    (stageRt e key).waits.testBit (2 + w) = true ∧ Touches (fun a => a = (Reg.ENG_WAIT_STAT h).addr) d e := by
  have stat : ∀ f, gf (raise (srcEng 2 h) (waitLogged h id w (waitTold key w d))) (Reg.ENG_WAIT_STAT h) f =
      gf (waitLogged h id w (waitTold key w d)) (Reg.ENG_WAIT_STAT h) f := fun f => gf_raise _ _ _ f (waitStat_not_raised hh)
  obtain ⟨valid, first, later⟩ := waitLogged_log h hi hw (waitTold key w d)
  have engs := (raise_engs (srcEng 2 h) _).trans (waitLogged_engs h id w (waitTold key w d))
  refine ⟨icPending_raise _ _ (by unfold srcEng; omega), (congrArg (· != 0) (stat _)).trans valid,
    fun h0 => ⟨(stat _).trans (first h0).1, (stat _).trans (first h0).2⟩, fun h1 => (congrArg (· != 0) (stat _)).trans (later h1), ?_,
    (touches_waitLogged (Touches.mk (Touches.refl d))).raise _⟩
  rw [stageRt_congr engs, waitTold, stageRt_stageUpd, Nat.testBit_or, Nat.testBit_two_pow_self, Bool.or_true]

end

end Sys2Proof.Machine
end

/-! ## Stages: a firing -/

section
/-! SUPPORT and settlement of O18: which stage an engine tries, what its firing takes and leaves, and the stalled cycles. -/

namespace Sys2Proof.Machine

/-! ### What a stage's firing reads -/

section
variable {d e : Dev} {h k : Nat} {s : Stg}

/-- The devices agree in all that decides which stages engine `h` has and how they stand. -/
structure StagesAgree (h : Nat) (d e : Dev) : Prop where
  img : e.img = d.img
  engs : e.engs = d.engs
  slots : rd e Reg.IMG_SLOT_STAT = rd d Reg.IMG_SLOT_STAT
  guest : rd e (Reg.ENG_RELOC h) = rd d (Reg.ENG_RELOC h)

theorem StagesAgree.cfg (ha : StagesAgree h d e) : activeCfg e = activeCfg d := by
  unfold activeCfg slotCfg gf
  rw [ha.img, ha.slots]

theorem StagesAgree.host (ha : StagesAgree h d e) (b id : Nat) : hostOf e b id = hostOf d b id := by
  unfold hostOf
  rw [ha.engs, ha.cfg]

theorem StagesAgree.stages (ha : StagesAgree h d e) : engStages e h = engStages d h := by
  have guest : ∀ b, hostsBank e h b = hostsBank d h b := fun b => by
    unfold hostsBank gb gf
    rw [ha.guest]
  unfold engStages
  rw [ha.cfg]
  congr 1
  funext p
  rw [ha.host, guest]

theorem StagesAgree.ready (ha : StagesAgree h d e) (hf : e.fifos = d.fifos) (hp : e.pipes = d.pipes) (hfetch : fetchOn e h = fetchOn d h) (k : Nat) (s : Stg) :
    fireReady e h k s = fireReady d h k s := by
  have view : ∀ p, portView e k p = portView d k p := fun p => by
    unfold portView routeByDst
    rw [hf]
  have units : fireUnits e h s = fireUnits d h s := by
    unfold fireUnits
    rw [ha.stages]
    unfold stageRt
    rw [ha.engs]
  have credits : fireCredits e k s = fireCredits d k s := by
    unfold fireCredits routeBySrc
    rw [hf]
  have tokens : ∀ rt, fireTokens e k s rt = fireTokens d k s rt := fun rt => by
    unfold fireTokens
    simp only [view]
  unfold fireReady
  rw [hfetch, units, credits, hp, stageRt_congr ha.engs]
  simp only [tokens]

end

/-! ### Stalled cycles (R168) -/

section
variable {d e : Dev} {h : Nat}

theorem rd_cntAdd64_same (r : Reg) (n : Nat) (d : Dev) : (rd (cntAdd64 r n d) r).toNat = min ((rd d r).toNat + n) (2 ^ 64 - 1) := by
  unfold cntAdd64
  rw [rd_wr_same, BitVec.toNat_ofNat, Nat.mod_eq_of_lt (by omega)]

theorem rd_cntAdd64_ne {r q : Reg} (n : Nat) (d : Dev) (hq : q.addr ≠ r.addr) : rd (cntAdd64 r n d) q = rd d q := rd_wr_ne _ _ hq

theorem stallAdd_zero (r : Reg) (h : Nat) (d : Dev) : stallAdd r h 0 d = cntAdd64 r 0 d := if_neg fun hx => by omega

theorem IrqOnly.stallAdd (hi : IrqOnly d e) (r : Reg) (h n : Nat) : IrqOnly d (stallAdd r h n e) :=
  .ite ((hi.wr r _).raise _) (hi.wr r _)

theorem Touches.stallAdd {w : Nat → Prop} (ht : Touches w d e) (r : Reg) (h n : Nat) (hr : w r.addr) : Touches w d (stallAdd r h n e) :=
  .ite ((ht.cntAdd64 r n (.inl hr)).raise _) (ht.cntAdd64 r n (.inl hr))

theorem rd_stallAdd_same {r : Reg} (hr : ¬ raised r.addr) (h n : Nat) (d : Dev) :
    (rd (stallAdd r h n d) r).toNat = min ((rd d r).toNat + n) (2 ^ 64 - 1) := by
  unfold stallAdd
  dsimp only
  split
  · rw [rd_raise _ _ _ hr, rd_cntAdd64_same]
  · exact rd_cntAdd64_same r n d

theorem rd_stallAdd_ne {r q : Reg} (hq : q.addr ≠ r.addr) (hr : ¬ raised q.addr) (h n : Nat) (d : Dev) : rd (stallAdd r h n d) q = rd d q :=
  (Touches.stallAdd (w := fun a => a = r.addr) (Touches.refl d) r h n rfl).rd_eq q hq hr

/-- The cycles that engine `h` stalled for items, credits and waits. -/
def stalls (h a b c : Nat) (d : Dev) : Dev :=
  stallAdd (Reg.ENG_STALL_WAIT h) h c (stallAdd (Reg.ENG_STALL_CRED h) h b (stallAdd (Reg.ENG_STALL_IN h) h a d))

/-- The counters of stalled cycles. -/
def stallCounter (h a : Nat) : Prop := a = (Reg.ENG_STALL_IN h).addr ∨ a = (Reg.ENG_STALL_CRED h).addr ∨ a = (Reg.ENG_STALL_WAIT h).addr

theorem touches_stalls (h a b c : Nat) (d : Dev) : Touches (stallCounter h) d (stalls h a b c d) :=
  (((Touches.refl d).stallAdd _ h a (.inl rfl)).stallAdd _ h b (.inr (.inl rfl))).stallAdd _ h c (.inr (.inr rfl))

theorem irqOnly_stalls (h a b c : Nat) (d : Dev) : IrqOnly d (stalls h a b c d) :=
  (((IrqOnly.refl d).stallAdd _ h a).stallAdd _ h b).stallAdd _ h c

theorem stallCounter_not_raised {a : Nat} (ha : stallCounter h a) : ¬ raised a := by
  simp only [stallCounter, Reg.ENG_STALL_IN, Reg.ENG_STALL_CRED, Reg.ENG_STALL_WAIT] at ha
  unfold raised
  omega

theorem stalls_add (a b c : Nat) (d : Dev) :
    (rd (stalls h a b c d) (Reg.ENG_STALL_IN h)).toNat = min ((rd d (Reg.ENG_STALL_IN h)).toNat + a) (2 ^ 64 - 1) ∧
    (rd (stalls h a b c d) (Reg.ENG_STALL_CRED h)).toNat = min ((rd d (Reg.ENG_STALL_CRED h)).toNat + b) (2 ^ 64 - 1) ∧
    (rd (stalls h a b c d) (Reg.ENG_STALL_WAIT h)).toNat = min ((rd d (Reg.ENG_STALL_WAIT h)).toNat + c) (2 ^ 64 - 1) := by
  have rin : ¬ raised (Reg.ENG_STALL_IN h).addr := stallCounter_not_raised (.inl rfl)
  have rcred : ¬ raised (Reg.ENG_STALL_CRED h).addr := stallCounter_not_raised (.inr (.inl rfl))
  have rwait : ¬ raised (Reg.ENG_STALL_WAIT h).addr := stallCounter_not_raised (.inr (.inr rfl))
  have inCred : (Reg.ENG_STALL_IN h).addr ≠ (Reg.ENG_STALL_CRED h).addr := by simp [Reg.ENG_STALL_IN, Reg.ENG_STALL_CRED]
  have inWait : (Reg.ENG_STALL_IN h).addr ≠ (Reg.ENG_STALL_WAIT h).addr := by simp [Reg.ENG_STALL_IN, Reg.ENG_STALL_WAIT]
  have credWait : (Reg.ENG_STALL_CRED h).addr ≠ (Reg.ENG_STALL_WAIT h).addr := by simp [Reg.ENG_STALL_CRED, Reg.ENG_STALL_WAIT]
  unfold stalls
  refine ⟨?_, ?_, ?_⟩
  · rw [rd_stallAdd_ne inWait rin, rd_stallAdd_ne inCred rin, rd_stallAdd_same rin]
  · rw [rd_stallAdd_ne credWait rcred, rd_stallAdd_same rcred, rd_stallAdd_ne inCred.symm rcred]
  · rw [rd_stallAdd_same rwait, rd_stallAdd_ne credWait.symm rwait, rd_stallAdd_ne inWait.symm rwait]

theorem stagesAgree_stalls (a b c : Nat) (d : Dev) : StagesAgree h d (stalls h a b c d) := by
  have irq := irqOnly_stalls h a b c d
  refine ⟨irq.img, irq.engs, (touches_stalls h a b c d).rd_eq _ ?_ ?_, (touches_stalls h a b c d).rd_eq _ ?_ ?_⟩
  · simp only [stallCounter, Reg.IMG_SLOT_STAT, Reg.ENG_STALL_IN, Reg.ENG_STALL_CRED, Reg.ENG_STALL_WAIT]
    omega
  · simp only [raised, Reg.IMG_SLOT_STAT]
    omega
  · simp only [stallCounter, Reg.ENG_RELOC, Reg.ENG_STALL_IN, Reg.ENG_STALL_CRED, Reg.ENG_STALL_WAIT]
    omega
  · simp only [raised, Reg.ENG_RELOC]
    omega

/-! ### The turn of an engine's stages -/

/-- The stages of engine `h` from the one whose turn it is. -/
def stagesInTurn (d : Dev) (h : Nat) : List (Nat × Stg) :=
  match mget d.engs.last h with
  | some n => (sortBy stageOrd (engStages d h)).filter (fun p => decide (n < stageOrd p)) ++
      (sortBy stageOrd (engStages d h)).filter (fun p => decide (stageOrd p ≤ n))
  | none => sortBy stageOrd (engStages d h)

theorem stagesInTurn_none (hs : engStages d h = []) : stagesInTurn d h = [] := by
  unfold stagesInTurn
  rw [hs]
  split <;> rfl

theorem stagesInTurn_one {p : Nat × Stg} (hs : engStages d h = [p]) : stagesInTurn d h = [p] := by
  have alone : sortBy stageOrd [p] = [p] := rfl
  unfold stagesInTurn
  rw [hs, alone]
  split
  next n hn =>
    by_cases hlt : n < stageOrd p
    · simp [hlt]
    · simp [hlt, Nat.le_of_not_lt hlt]
  · rfl

/-- The first stage that fires, and what the stages tried before it left. -/
def firstFire (h : Nat) (l : List (Nat × Stg)) (d : Dev) : Option (Nat × Nat) × Dev :=
  l.foldl (fun (acc : Option (Nat × Nat) × Dev) (p : Nat × Stg) =>
    match acc.1 with
    | some _ => acc
    | none =>
      let x := fireTry h p.1 p.2 acc.2
      (if x.1 then some (p.1, p.2.id) else none, x.2)) (none, d)

theorem stageFire_quiet (a b c : Nat) (d : Dev) :
    stageFire h 0 a b c d = (firstFire h (stagesInTurn (stalls h a b c d) h) (stalls h a b c d)).2 := by
  have eq : stageFire h 0 a b c d =
      match (firstFire h (stagesInTurn (stalls h a b c d) h) (stalls h a b c d)).1 with
      | some p => owedFlush p.1 p.2 0 (firstFire h (stagesInTurn (stalls h a b c d) h) (stalls h a b c d)).2
      | none => (firstFire h (stagesInTurn (stalls h a b c d) h) (stalls h a b c d)).2 := rfl
  rw [eq]
  split <;> rfl

/-- An engine with no stage only counts its stalled cycles. -/
theorem stageFire_none (hs : engStages d h = []) (a b c : Nat) : stageFire h 0 a b c d = stalls h a b c d := by
  rw [stageFire_quiet, stagesInTurn_none ((stagesAgree_stalls a b c d).stages.trans hs)]
  rfl

/-- A stage alone on its engine is the one that is tried. -/
theorem stageFire_alone {p : Nat × Stg} (hs : engStages d h = [p]) (a b c : Nat) :
    stageFire h 0 a b c d = (fireTry h p.1 p.2 (stalls h a b c d)).2 := by
  rw [stageFire_quiet, stagesInTurn_one ((stagesAgree_stalls a b c d).stages.trans hs)]
  rfl

end

/-! ### A firing -/

section
variable {d : Dev} {h k key : Nat} {s : Stg}

/-- A stage that is within a pass, or has no wait, waits for nothing. -/
theorem fireWaits_none (hw : (stageRt d key).inPass = true ∨ ∀ w ∈ s.waits, w.cond = 0) : fireWaits h key s d = (true, d) := by
  unfold fireWaits
  split
  · rfl
  next hp =>
    have no : ∀ i, (s.waits.getD i ⟨0, 0, 0⟩).cond = 0 := fun i => by
      rw [List.getD_eq_getElem?_getD]
      cases hi : s.waits[i]? with
      | none => rfl
      | some w => exact hw.resolve_left hp w (List.mem_of_getElem? hi)
    have met : ∀ i, stageWait h key i (s.waits.getD i ⟨0, 0, 0⟩) d = (true, d) := fun i => if_pos (no i)
    refine List.foldlRecOn (motive := fun acc => acc = (true, d)) _ _ rfl fun acc hacc i _ => ?_
    subst hacc
    dsimp only
    split
    · rfl
    · rw [met, no]
      rfl

/-- The engine has counted a firing of the stage and remembers its turn. -/
def fireCounted (h k : Nat) (s : Stg) (d : Dev) : Dev :=
  cntAdd64 (Reg.ENG_FIRE_CNT h) 1 { d with engs := { d.engs with last := mput d.engs.last h (stageOrd (k, s)) } }

/-- The items of a firing taken and its credits reserved. -/
def fireReserved (k : Nat) (s : Stg) (ins : FMap (List Item)) (d : Dev) : Dev := (fireReserve k s (fireTake k ins d)).2

/-- The rewinds of the marks at the stage's input ports. -/
def portRewinds (k : Nat) (s : Stg) (d : Dev) : List (Option Nat) :=
  (inPorts s).map (fun p => (portView d k p).bind (fun v => v.2.1.mark.map (fun _ => v.2.1.rew)))

/-- The firing is the last of its pass. -/
def firingPassEnd (s : Stg) (pos : List Nat) : Bool := (posAdd s.loop pos 1).all (fun x => x == 0)

/-- The firing is the last of its batch. -/
def firingLast (k : Nat) (s : Stg) (ins : FMap (List Item)) (d : Dev) : Bool :=
  if (inPorts s).isEmpty then firingPassEnd s (stageRt d (stKey k s.id)).loops
  else (inPorts s).all (fun p => (portView (fireTake k ins d) k p).any (fun v => v.2.1.atEnd)) &&
    !((portRewinds k s d).any (fun r => r.any (fun n => decide (n + 1 < vxPasses s (stageQz d k s)))))

/-- A firing as it joins its stage: it has its items and position and neither a tile nor a result. -/
def newFiring (k : Nat) (s : Stg) (ins : FMap (List Item)) (d : Dev) : Firing :=
  { ins := ins, pos := (stageRt d (stKey k s.id)).loops, resv := (fireReserve k s (fireTake k ins d)).1, mx := s.mx != 0, vx := s.vx != 0,
    rew := ((dataOf s (stageQz d k s)).head?.bind (fun p => (inPorts s).findIdx? (fun x => x == p))).bind (fun i => (portRewinds k s d).getD i none),
    passEnd := firingPassEnd s (stageRt d (stKey k s.id)).loops, last := firingLast k s ins d }

/-- The stage once a firing of position `f.pos` has joined it. -/
def stageFired (s : Stg) (f : Firing) (rt : StageRt) : StageRt :=
  { rt with
    loops := posAdd s.loop f.pos 1, inPass := !f.passEnd, waits := if f.passEnd then 0 else rt.waits,
    done := rt.done || ((inPorts s).isEmpty && f.last), firings := rt.firings ++ [f] }

theorem fireTry_fires {ins : FMap (List Item)} (hr : fireReady d h k s = some ins) (hw : fireWaits h (stKey k s.id) s d = (true, d)) :
    fireTry h k s d = (true, fireCompute k s (fireCounted h k s
      (stageUpd (stKey k s.id) (stageFired s (newFiring k s ins d)) (fireReserved k s ins d)))) := by
  unfold fireTry
  dsimp only
  rw [hr]
  dsimp only
  rw [hw]
  rfl

/-- Only the table of the stages has changed. -/
def StagesOnly (d e : Dev) : Prop := ∃ m, e = { d with engs := { d.engs with stages := m } }

theorem StagesOnly.stageUpd {e : Dev} (h : StagesOnly d e) (key : Nat) (u : StageRt → StageRt) : StagesOnly d (stageUpd key u e) := by
  obtain ⟨m, rfl⟩ := h
  exact ⟨_, rfl⟩

/-- A stage with no tile at hand gives its firing none. -/
theorem firePull_lacks {f : Firing} (hw : (stageRt d (stKey k s.id)).ws = []) (ha : (stageRt d (stKey k s.id)).au = [])
    (hf : firingNow (stageRt d (stKey k s.id)) = some f) :
    StagesOnly d (firePull k s d) ∧ stageRt (firePull k s d) (stKey k s.id) = stageRt d (stKey k s.id) := by
  have none : ∀ side, ((stageRt d (stKey k s.id)).ws.any fun t => t.side != side) = false := fun side => by rw [hw]; rfl
  have keeps : ∀ l : List Firing, l.map (fun f => if f.ready then f else { f with ws := f.ws ++ [], au := f.au ++ [] }) = l := fun l =>
    (List.map_congr_left fun f _ => by simp).trans (List.map_id l)
  unfold firePull
  dsimp only
  rw [hf]
  dsimp only
  rw [none, if_neg Bool.false_ne_true, hw, ha, List.take_nil, List.take_nil]
  refine ⟨StagesOnly.stageUpd (StagesOnly.stageUpd ⟨_, rfl⟩ _ _) _ _, ?_⟩
  unfold firingUpd
  rw [stageRt_stageUpd, stageRt_stageUpd]
  simp only [List.takeWhile_nil, List.length_nil, List.drop_zero, keeps]

/-- A firing that lacks a weight tile waits for it. -/
theorem fireCompute_lacks {f : Firing} (hw : (stageRt d (stKey k s.id)).ws = []) (ha : (stageRt d (stKey k s.id)).au = [])
    (hf : firingNow (stageRt d (stKey k s.id)) = some f) (hn : f.ws = []) (hs : ∀ q, wsSeq s q f.pos ≠ []) :
    StagesOnly d (fireCompute k s d) ∧ stageRt (fireCompute k s d) (stKey k s.id) = stageRt d (stKey k s.id) := by
  have pulled := firePull_lacks hw ha hf
  have waits : fireCompute k s d = firePull k s d := by
    unfold fireCompute
    dsimp only
    rw [pulled.2, hf]
    dsimp only
    rw [if_pos (.inl (by rw [hn]; exact List.length_pos_iff.mpr (hs _)))]
  rw [waits]
  exact pulled

/-- Whether a stage reads weight tiles is not the quantiser's affair. -/
theorem wsSeq_ne_nil {q q' : Option QzCfg} {pos : List Nat} (h : wsSeq s q pos ≠ []) : wsSeq s q' pos ≠ [] := by
  unfold wsSeq at h ⊢
  split
  next hn => exact absurd (by rw [hn]) h
  · split <;> exact List.cons_ne_nil _ _

end

/-! ### The device after a firing -/

section
variable {d : Dev} {h k : Nat} {s : Stg} {ins : FMap (List Item)}

theorem atFifos_fireTake (hr : Rising d.fifos) : AtFifos d (fireTake k ins d) := (AtFifos.refl hr).fireTake k ins

/-- What moves items leaves the mode and the credits of each port's route. -/
theorem AtFifos.portFifo {e : Dev} (ha : AtFifos d e) (p : Nat) :
    (portFifo e k p).map (fun f => (f.stall, f.cred)) = (portFifo d k p).map (fun f => (f.stall, f.cred)) := by
  unfold Machine.portFifo
  rw [ha.src]
  cases routeBySrc d (epMk 0 k p) with
  | none => rfl
  | some r =>
    have view := congrArg (Option.map Prod.snd) (ha.view r)
    unfold routeView at view
    rw [Option.map_map, Option.map_map] at view
    exact view

/-- A firing reserves its credits whatever its items were. -/
theorem fireReserved_cred (hr : Rising d.fifos) {p r : Nat} {x : Fifo} (hp : p ∈ outPorts s) (ho : routeBySrc d (epMk 0 k p) = some r)
    (hx : mget d.fifos r = some x) (hs : x.stall = false) :
    (portFifo (fireReserved k s ins d) k p).map Fifo.cred = some (x.cred - s.outCred.getD p 0) := by
  have taken := atFifos_fireTake (k := k) (ins := ins) hr
  have same := taken.portFifo (k := k) p
  obtain ⟨-, reserved⟩ := fireReserve_takes (k := k) s taken.rising
  rw [portFifo_route ho hx, Option.map_some] at same
  obtain ⟨y, hy, hyx⟩ := Option.map_eq_some_iff.mp same
  obtain ⟨stall, cred⟩ := Prod.mk.inj hyx
  unfold fireReserved
  rw [reserved p hp, hy, Option.map_some, Option.map_some, credTaken, if_neg (by rw [stall, hs]; decide), cred]

theorem fireReserved_engs (hr : Rising d.fifos) : (fireReserved k s ins d).engs = d.engs := by
  have taken := atFifos_fireTake (k := k) (ins := ins) hr
  exact (fireReserve_takes (k := k) s taken.rising).1.engs.trans taken.engs

theorem touches_fireReserved (hr : Rising d.fifos) : Touches notEngine d (fireReserved k s ins d) := by
  have taken := atFifos_fireTake (k := k) (ins := ins) hr
  exact taken.touches.trans (fireReserve_takes (k := k) s taken.rising).1.touches

theorem fireCnt_apart (h : Nat) (hh : h < 16) : ¬ notEngine (Reg.ENG_FIRE_CNT h).addr ∧ ¬ raised (Reg.ENG_FIRE_CNT h).addr := by
  simp only [notEngine, raised, Reg.ENG_FIRE_CNT]
  omega

/-- A stage that fires has no firing in work. -/
theorem firingNow_of_fireReady (hr : fireReady d h k s = some ins) : firingNow (stageRt d (stKey k s.id)) = none := by
  unfold fireReady at hr
  dsimp only at hr
  split at hr
  next hc =>
    simp only [Bool.and_eq_true, Option.isNone_iff_eq_none] at hc
    exact hc.1.1.1.2
  · cases hr

/-- The device before the firing is computed. -/
def fireBegun (h k : Nat) (s : Stg) (ins : FMap (List Item)) (d : Dev) : Dev :=
  fireCounted h k s (stageUpd (stKey k s.id) (stageFired s (newFiring k s ins d)) (fireReserved k s ins d))

theorem stageRt_fireBegun (hr : Rising d.fifos) : stageRt (fireBegun h k s ins d) (stKey k s.id) =
    stageFired s (newFiring k s ins d) (stageRt d (stKey k s.id)) :=
  (stageRt_stageUpd _ _ _).trans (congrArg _ (stageRt_congr (fireReserved_engs hr) _))

theorem rd_fireBegun (hh : h < 16) (hr : Rising d.fifos) :
    (rd (fireBegun h k s ins d) (Reg.ENG_FIRE_CNT h)).toNat = min ((rd d (Reg.ENG_FIRE_CNT h)).toNat + 1) (2 ^ 64 - 1) := by
  obtain ⟨apart, quiet⟩ := fireCnt_apart h hh
  have same := (touches_fireReserved (k := k) (s := s) (ins := ins) hr).rd_eq (Reg.ENG_FIRE_CNT h) apart quiet
  rw [← same]
  exact rd_cntAdd64_same _ 1 _

/-- What a firing leaves of its ports' credits, its engine's turn, its count and the memory. -/
theorem fireBegun_leaves (hh : h < 16) (hr : Rising d.fifos) :
    (∀ p ∈ outPorts s, ∀ r x, routeBySrc d (epMk 0 k p) = some r → mget d.fifos r = some x → x.stall = false →
      (portFifo (fireBegun h k s ins d) k p).map Fifo.cred = some (x.cred - s.outCred.getD p 0)) ∧
    mget (fireBegun h k s ins d).engs.last h = some (stageOrd (k, s)) ∧
    (rd (fireBegun h k s ins d) (Reg.ENG_FIRE_CNT h)).toNat = min ((rd d (Reg.ENG_FIRE_CNT h)).toNat + 1) (2 ^ 64 - 1) ∧
    (fireBegun h k s ins d).mem = d.mem :=
  ⟨fun _ hp _ _ ho hx hs => fireReserved_cred hr hp ho hx hs, mget_mput_same _ _ _, rd_fireBegun hh hr,
    (touches_fireReserved (k := k) (s := s) (ins := ins) hr).2.1⟩

theorem fireCnt_uncounted (h : Nat) : ¬ stallCounter h (Reg.ENG_FIRE_CNT h).addr := by
  simp only [stallCounter, Reg.ENG_FIRE_CNT, Reg.ENG_STALL_IN, Reg.ENG_STALL_CRED, Reg.ENG_STALL_WAIT]
  omega

/-- A stage that fires and has no tile at hand: what its firing leaves. -/
theorem fireTry_lacks (hrise : Rising d.fifos) (hr : fireReady d h k s = some ins)
    (hw : (stageRt d (stKey k s.id)).inPass = true ∨ ∀ w ∈ s.waits, w.cond = 0) {q : Option QzCfg}
    (hs : wsSeq s q (stageRt d (stKey k s.id)).loops ≠ []) (hws : (stageRt d (stKey k s.id)).ws = []) (hau : (stageRt d (stKey k s.id)).au = []) :
    StagesOnly (fireBegun h k s ins d) (fireTry h k s d).2 ∧
    stageRt (fireTry h k s d).2 (stKey k s.id) = stageFired s (newFiring k s ins d) (stageRt d (stKey k s.id)) := by
  have begun := stageRt_fireBegun (h := h) (k := k) (s := s) (ins := ins) hrise
  have now : firingNow (stageRt (fireBegun h k s ins d) (stKey k s.id)) = some (newFiring k s ins d) := by
    have before := firingNow_of_fireReady hr
    unfold firingNow at before ⊢
    rw [begun, show (stageFired s (newFiring k s ins d) (stageRt d (stKey k s.id))).firings = _ ++ [newFiring k s ins d] from rfl,
      List.find?_append, before]
    rfl
  have lacks := fireCompute_lacks (d := fireBegun h k s ins d) (by rw [begun]; exact hws) (by rw [begun]; exact hau) now rfl
    fun _ => wsSeq_ne_nil hs
  rw [fireTry_fires hr (fireWaits_none hw)]
  exact ⟨lacks.1, lacks.2.trans begun⟩

/-- A register that counts no stalled cycle is as it was when none is counted. -/
theorem rd_stalls_zero {r : Reg} (hr : ¬ stallCounter h r.addr) : rd (stalls h 0 0 0 d) r = rd d r := by
  obtain ⟨hin, hrest⟩ := not_or.mp hr
  obtain ⟨hcred, hwait⟩ := not_or.mp hrest
  unfold stalls
  rw [stallAdd_zero, stallAdd_zero, stallAdd_zero, rd_cntAdd64_ne _ _ hwait, rd_cntAdd64_ne _ _ hcred, rd_cntAdd64_ne _ _ hin]

theorem fetchOn_stalls_zero : fetchOn (stalls h 0 0 0 d) h = fetchOn d h := by
  have stat : rd (stalls h 0 0 0 d) (Reg.ENG_STAT h) = rd d (Reg.ENG_STAT h) := rd_stalls_zero (by
    simp only [stallCounter, Reg.ENG_STAT, Reg.ENG_STALL_IN, Reg.ENG_STALL_CRED, Reg.ENG_STALL_WAIT]
    omega)
  have pmu : rd (stalls h 0 0 0 d) Reg.PMU_STAT = rd d Reg.PMU_STAT := rd_stalls_zero (by
    simp only [stallCounter, Reg.PMU_STAT, Reg.ENG_STALL_IN, Reg.ENG_STALL_CRED, Reg.ENG_STALL_WAIT]
    omega)
  unfold fetchOn engState gf
  rw [stat, pmu]

theorem fireReady_stalls_zero (k : Nat) (s : Stg) : fireReady (stalls h 0 0 0 d) h k s = fireReady d h k s := by
  have irq := irqOnly_stalls h 0 0 0 d
  have pipes : (stalls h 0 0 0 d).pipes = d.pipes := by obtain ⟨_, _, _, _, _, he⟩ := irq; rw [he]
  exact (stagesAgree_stalls 0 0 0 d).ready irq.fifos pipes (fetchOn_stalls_zero) k s

end

/-- Settles O18: each row is the equation of its case; what the FIFOs do while a firing takes its items, and what a port's credits do, is
said once for all. -/
theorem stagesFireAndEnd : Obligations.StagesFireAndEnd := by
  intro s k id st hs hk hid hst hrise d0 key rt h cred
  have hkey : stKey k st.id = key := by rw [id_of_stageOf hst]
  have row : ∀ {c : Instr} {f : Dev → Dev} {P : Dev → Prop}, exec c s = liftSys (WellFormed.lt k 16 && WellFormed.lt id 512) f s → P (f d0) →
      Completes c s P := fun he hP => completes_sys he (by simp [WellFormed.lt, hk, hid]) hs hP
  refine ⟨fun ins hh hone hready hwait hseq hws hau => ?_, fun e a b c he hnone => ?_, fun f hf hr ho hn _ => ?_, fun hf hdone hports => ?_,
    ?_, fun w hw hh hready hwaits hcond htest hfirst => ?_⟩
  · have irq := irqOnly_stalls h 0 0 0 d0
    have fifos : (stalls h 0 0 0 d0).fifos = d0.fifos := irq.fifos
    have stage : stageRt (stalls h 0 0 0 d0) (stKey k st.id) = rt := by rw [hkey]; exact stageRt_congr irq.engs key
    obtain ⟨only, after⟩ := fireTry_lacks (h := h) (fifos.symm ▸ hrise) ((fireReady_stalls_zero k st).trans hready) (by rw [stage]; exact hwait)
      (by rw [stage]; exact hseq) (by rw [stage]; exact hws) (by rw [stage]; exact hau)
    obtain ⟨credits, last, count, mem⟩ := fireBegun_leaves (s := st) (k := k) (ins := ins) hh (d := stalls h 0 0 0 d0) (fifos.symm ▸ hrise)
    have pos : (newFiring k st ins (stalls h 0 0 0 d0)).pos = rt.loops := congrArg StageRt.loops stage
    refine completes_sys (f := stageFire h 0 0 0 0) rfl (decide_eq_true hh) hs ?_
    rw [stageFire_alone hone, ← hkey, after, stage]
    obtain ⟨m, he⟩ := only
    refine ⟨congrArg (posAdd st.loop · 1) pos, ⟨_, rfl, rfl, pos, rfl⟩, ?_⟩
    rw [he]
    refine ⟨fun p hp r x ho hx hstall => credits p hp r x ?_ (fifos.symm ▸ hx) hstall, last, ?_, mem.trans irq.mem⟩
    · unfold routeBySrc at ho ⊢
      rwa [fifos]
    · rw [← rd_stalls_zero (h := h) (d := d0) (fireCnt_uncounted h)]
      exact count
  · refine completes_sys (f := stageFire e 0 a b c) rfl (decide_eq_true he) hs ?_
    rw [stageFire_none hnone]
    obtain ⟨hin, hcred, hwait⟩ := stalls_add (h := e) a b c d0
    exact ⟨hin, hcred, hwait, touches_stalls e a b c d0⟩
  · exact row rfl (firingEnd_ends hrise hf hr ho hn)
  · have ended : batchIn k st d0 = true := batchIn_ended (fun hin => by rw [hkey]; exact hdone hin) hports
    obtain ⟨rt', cur, sig, stage⟩ := stageBatchEnd_ends hst hf ended
    refine row (f := stageBatchEnd k id) rfl ?_
    rw [show stageRt (stageBatchEnd k id d0) key = _ from stage]
    exact ⟨rfl, congrArg (· + 1) cur, rfl, rfl, congrArg (· + 1) sig, fun he hq hl => touches_stageBatchEnd hst hf ended he hq hl⟩
  · intro hdue hwr hheld hback d1
    have issues := stageSignals_issues hst hdue hwr hheld hback
    refine ⟨fun hnone => row (f := stageSignals k id) rfl (issues.trans (stageSignals_none _ hnone _)), fun g g2 hsig hop hop2 hl =>
      row (f := stageSignals k id) rfl (issues.trans ?_)⟩
    rw [hsig, List.foldl_cons, List.foldl_cons, List.foldl_nil, stageSignal_none hop2]
    exact stageSignal_here (d := d1) hop hl _ _
  · have eq := engWaitTimeout_eq hst hready hwaits (waitNow_eq hw hcond htest hfirst)
    have timeout : ∀ {P : Dev → Prop}, P (engWaitTimeout k id w d0) → Completes (.engWaitTimeout k id w) s P := fun {_} hP =>
      completes_sys (f := engWaitTimeout k id w) rfl (by simp [WellFormed.lt, hk, hid, hw]) hs hP
    refine ⟨fun hnew => timeout ?_, fun hold => timeout (eq.trans (if_pos hold))⟩
    rw [eq, if_neg (Bool.eq_false_iff.mp hnew)]
    exact waitLate_told hh hid hw d0

end Sys2Proof.Machine
end

/-! ## Stream FIFOs: items, marks, credits, pins and watermarks -/

section
/-! SUPPORT and settlement of O21: what freeing slots leaves of a FIFO, and the equation of each row of spec 04. -/

namespace Sys2Proof.Machine

/-! ### What freeing slots leaves -/

section
variable {d e : Dev} {id : Nat} {f g : Fifo}

/-- The destinations of a route. -/
def destsOf (id : Nat) (d : Dev) : Option (FMap FDst) := (mget d.fifos id).map Fifo.dsts

theorem mget_setFifo : mget (setFifo id g d).fifos id = some g := mget_mput_same _ _ _

theorem destsOf_some (hf : mget d.fifos id = some f) : destsOf id d = some f.dsts := congrArg (Option.map Fifo.dsts) hf

theorem destsOf_setFifo : destsOf id (setFifo id g d) = some g.dsts := destsOf_some mget_setFifo

theorem IrqOnly.destsOf (h : IrqOnly d e) (id : Nat) : destsOf id e = destsOf id d := by
  unfold Machine.destsOf
  rw [h.fifos]

/-- What a destination of a FIFO has been shown, read and freed is no affair of its producer's writes. -/
theorem destsOf_fifoPut (it : Item) : destsOf id (fifoPut id it d) = destsOf id d := by
  unfold fifoPut
  split
  · rfl
  next f hf =>
    refine (IrqOnly.destsOf (IrqOnly.markFullCheck (IrqOnly.fifoLevel (IrqOnly.whenB (IrqOnly.wr (IrqOnly.whenB (IrqOnly.whenB
      (IrqOnly.refl _) ?_ _) ?_ _) _ _) ?_ _) _) _) id).trans (destsOf_setFifo.trans (destsOf_some hf).symm)
    · exact fun _ h => (h.sf _ _ _).raise _
    · exact fun _ h => h.sf _ _ _
    · exact fun _ h => h.raise _

theorem destsOf_fifoDrain (fuel : Nat) : destsOf id (fifoDrain fuel id d) = destsOf id d := by
  induction fuel generalizing d with
  | zero => rfl
  | succ fuel ih =>
    unfold fifoDrain
    split
    · rfl
    next f hf =>
      split
      · rfl
      · split
        · exact ih.trans ((destsOf_fifoPut _).trans (destsOf_setFifo.trans (destsOf_some hf).symm))
        · rfl

/-- A look at its producer changes of a FIFO only whether its loss has been reported (R193). -/
theorem prodCheck_keeps {α : Type} {v : Fifo → α} (hv : ∀ f b, v { f with lost := b } = v f) :
    (mget (prodCheck id d).fifos id).map v = (mget d.fifos id).map v := by
  unfold prodCheck
  split
  · rfl
  next f hf =>
    have marked : ∀ b, (mget (setFifo id { f with lost := b } d).fifos id).map v = (mget d.fifos id).map v := fun b => by
      rw [mget_setFifo, hf, Option.map_some, Option.map_some, hv]
    dsimp only
    split
    · split
      · exact marked false
      · rfl
    · split
      · rw [(((IrqOnly.refl (setFifo id { f with lost := true } d)).sf _ _ _).raise 87).fifos]
        exact marked true
      · rfl

/-- One past the last item that every destination has freed. -/
def freedTo (f : Fifo) : Nat := f.dsts.foldl (fun m p => min m p.2.freed) (fifoEnd f)

theorem destsOf_fifoFree : destsOf id (fifoFree id d) = destsOf id d := by
  unfold fifoFree
  split
  · rfl
  next f hf =>
    dsimp only
    split
    · rfl
    · have level : ∀ g n, g.dsts = f.dsts →
          destsOf id (fifoLevel id (sf (Reg.FIFO_PKT id) F.FIFO_PKT_PKT_OUT n (setFifo id g d))) = destsOf id d := fun g n hg => by
        rw [(((IrqOnly.refl (setFifo id g d)).sf _ _ _).fifoLevel id).destsOf, destsOf_setFifo, hg, destsOf_some hf]
      refine (prodCheck_keeps fun _ _ => rfl).trans ?_
      split
      · exact (destsOf_fifoDrain _).trans (level _ _ rfl)
      · exact level _ _ rfl

/-- Freed slots leave the FIFO, and are on their way to the producer as credits (R175). -/
theorem fifoFree_slots (hf : mget d.fifos id = some f) (hs : f.stall = false) :
    (mget (fifoFree id d).fifos id).map (fun y => (y.base, y.transit)) = some (max f.base (freedTo f), f.transit + (freedTo f - f.base)) := by
  have base : max f.base (freedTo f) = f.base + (freedTo f - f.base) := by omega
  unfold fifoFree
  rw [hf]
  dsimp only
  split
  next hn =>
    have noneFreed : freedTo f - f.base = 0 := hn
    rw [hf, Option.map_some, base, noneFreed]
    rfl
  next hn =>
    have someFreed : freedTo f - f.base ≠ 0 := hn
    rw [hs, if_neg Bool.false_ne_true, prodCheck_keeps (fun _ _ => rfl), (((IrqOnly.refl _).sf _ _ _).fifoLevel id).fifos, mget_setFifo,
      Option.map_some, show max f.base (freedTo f) = freedTo f by omega]
    rfl

end

/-! ### FIFO_ITEM_PRESENT -/

section
variable {d : Dev} {id k : Nat} {f : Fifo} {x : FDst} {it : Item}

theorem codeword_clean (data : List Byte) : ((codeword data []).drop 3).map (BitVec.ofNat 8) = data := by
  have symbols : (codeword data []).drop 3 = data.map BitVec.toNat := rfl
  rw [symbols, List.map_map]
  exact (List.map_congr_left fun b _ => by simp).trans data.map_id

/-- The item as it is shown when nothing has struck it. -/
def plainItem (it : Item) : Item := { data := it.data, fin := it.fin, empty := it.empty, poison := false }

/-- A check point delivers an item that no error has struck as it is. -/
theorem itemCheck_clean (he : it.err = []) (hp : it.poison = false) (d : Dev) : itemCheck id it d = (plainItem it, d) := by
  have flag : ∀ pos v, flagRead it pos v = v := fun pos v => by simp [flagRead, he, countBelow]
  have parity : parityFails [] = false := rfl
  unfold itemCheck itemEnd plainItem
  simp only [flag, he, hp, parity, Bool.false_and, Bool.false_eq_true, if_false, codeword_clean]

/-- The route once `it` has been shown to destination `k`. -/
def shownTo (id k : Nat) (f : Fifo) (x : FDst) (it : Item) (d : Dev) : Dev :=
  setFifo id { f with dsts := mput f.dsts k { x with pres := x.pres + 1, shown := x.shown ++ [it], starved := false } } d

theorem fifoPresent_clean (hf : mget d.fifos id = some f) (hx : mget f.dsts k = some x) (hr : x.pres < f.rel)
    (hi : f.items[x.pres - f.base]? = some it) (he : it.err = []) (hp : it.poison = false) :
    fifoPresent id k [] d = (some (plainItem it), shownTo id k f x (plainItem it) d) := by
  obtain ⟨hlt, hget⟩ := List.getElem?_eq_some_iff.mp hi
  have kept : f.items.set (x.pres - f.base) { it with err := it.err ++ [], cnt := it.cnt || false } = f.items := by
    rw [Bool.or_false, List.append_nil, ← hget, List.set_getElem_self]
  have same : ({ it with err := it.err ++ [] } : Item) = it := by rw [List.append_nil]
  have poison : (plainItem it).poison = false := rfl
  unfold fifoPresent shownTo
  rw [hf]
  dsimp only
  rw [hx]
  dsimp only
  rw [if_pos hr, hi]
  dsimp only
  rw [same, itemCheck_clean he hp]
  dsimp only
  rw [poison, kept]
  rfl

theorem fifoPresent_unreleased (hf : mget d.fifos id = some f) (hx : mget f.dsts k = some x) (hr : f.rel ≤ x.pres) (upset : ErrPat) :
    fifoPresent id k upset d = (none, d) := by
  unfold fifoPresent
  rw [hf]
  dsimp only
  rw [hx]
  exact if_neg (Nat.not_lt.mpr hr)

theorem itemPresent_engine (hf : mget d.fifos id = some f) (hk : epKind f.dst = 1) (upset : ErrPat) :
    itemPresent id k upset d = (fifoPresent id k upset d).2 := by
  unfold itemPresent
  rw [hf]
  dsimp only
  rw [hk]
  rfl

/-- COMPLETE takes what it is shown into its batch's exit data (R123). -/
theorem itemPresent_complete (hf : mget d.fifos id = some f) (hk : epKind f.dst = 7) (upset : ErrPat) :
    itemPresent id k upset d = (fifoPresent id k upset d).1.elim (fifoPresent id k upset d).2
      (fun it => exitItem (epPort f.dst) it (fifoRead id k 1 (fifoPresent id k upset d).2)) := by
  unfold itemPresent
  rw [hf]
  dsimp only
  rw [hk]
  obtain ⟨_ | it, e⟩ := fifoPresent id k upset d <;> rfl

theorem itemPresent_unreleased (hf : mget d.fifos id = some f) (hx : mget f.dsts k = some x) (hr : f.rel ≤ x.pres)
    (hk : epKind f.dst = 1 ∨ epKind f.dst = 7) (upset : ErrPat) : itemPresent id k upset d = d := by
  have held := fifoPresent_unreleased hf hx hr upset
  rcases hk with hk | hk
  · rw [itemPresent_engine hf hk, held]
  · rw [itemPresent_complete hf hk, held]
    rfl

end

/-! ### MARK, REWIND and RELEASE -/

section
variable {d : Dev} {id k : Nat} {f : Fifo} {x y : FDst}

/-- Destination `k` of route `id`. -/
def destOf (id k : Nat) (d : Dev) : Option FDst := (mget d.fifos id).bind (fun f => mget f.dsts k)

theorem destOf_congr {e : Dev} (h : destsOf id e = destsOf id d) : destOf id k e = destOf id k d := by
  have of_dests : ∀ d, destOf id k d = (destsOf id d).bind (fun m => mget m k) := fun d => by
    unfold destOf destsOf
    cases mget d.fifos id <;> rfl
  rw [of_dests, of_dests, h]

theorem setDst_some (hf : mget d.fifos id = some f) : setDst id k y d = setFifo id { f with dsts := mput f.dsts k y } d := by
  unfold setDst
  rw [hf]

theorem destOf_setDst (hf : mget d.fifos id = some f) : destOf id k (setDst id k y d) = some y := by
  unfold destOf
  rw [setDst_some hf, mget_setFifo]
  exact mget_mput_same _ _ _

/-- Freeing slots leaves the destination as it freed them. -/
theorem destOf_freed (hf : mget d.fifos id = some f) : destOf id k (fifoFree id (setDst id k y d)) = some y :=
  (destOf_congr destsOf_fifoFree).trans (destOf_setDst hf)

/-- MARK with its read of item `i` (R183, R186): the mark stands at that item, and the slots before it that an older mark held are free. -/
def markedAt (x : FDst) (i : Item) (rest : List Item) : FDst :=
  { x with mark := some x.rp, rew := 0, hi := x.rp + 1, lead := some i, shown := rest, rp := x.rp + 1, last := x.rp + 1, atEnd := i.fin,
           freed := if x.mark.isNone then x.freed else max x.freed x.rp }

theorem fifoMark_eq (hf : mget d.fifos id = some f) (hx : mget f.dsts k = some x) : fifoMark id k d =
    if f.markEn && !x.shown.isEmpty then
      markFullCheck id (fifoFree id (setDst id k (dstRead 1
        { x with mark := some x.rp, freed := if x.mark.isNone then x.freed else max x.freed x.rp, rew := 0, hi := x.rp,
                 lead := x.shown.head? }) d))
    else d := by
  unfold fifoMark
  rw [hf]
  dsimp only
  rw [hx]

theorem fifoMark_marks (hf : mget d.fifos id = some f) (hx : mget f.dsts k = some x) {i : Item} {rest : List Item} (hm : f.markEn = true)
    (hs : x.shown = i :: rest) : fifoMark id k d = markFullCheck id (fifoFree id (setDst id k (markedAt x i rest) d)) := by
  have on : (f.markEn && !x.shown.isEmpty) = true := by rw [hm, hs]; rfl
  rw [fifoMark_eq hf hx, if_pos on]
  simp [dstRead, markedAt, hs]

theorem fifoMark_ignored (hf : mget d.fifos id = some f) (hx : mget f.dsts k = some x) (h : f.markEn = false ∨ x.shown = []) :
    fifoMark id k d = d := by
  have off : ¬ (f.markEn && !x.shown.isEmpty) = true := by
    rcases h with h | h <;> simp [h]
  exact (fifoMark_eq hf hx).trans (if_neg off)

/-- REWIND to the mark `m` (R184): the items from it on are shown again. -/
def rewoundTo (m : Nat) (x : FDst) : FDst := { x with rp := m, pres := m, shown := [], lead := none, atEnd := false, rew := x.rew + 1 }

theorem fifoRewind_eq (hf : mget d.fifos id = some f) (hx : mget f.dsts k = some x) :
    fifoRewind id k d = x.mark.elim d (fun m => setDst id k (rewoundTo m x) d) := by
  unfold fifoRewind
  rw [hf]
  dsimp only
  rw [hx]
  dsimp only
  split
  next m hm => simp only [hm, rewoundTo, Option.elim_some]
  next hm => rw [hm, Option.elim_none]

/-- RELEASE (R185): no mark, and the slots up to the item read last are free. -/
def releasedDst (f : Fifo) (x : FDst) : FDst :=
  { x with mark := none, rew := 0, freed := max x.freed x.last, hi := max x.rp x.last,
           atEnd := ((f.items[x.last - 1 - f.base]?).map itemEnd).getD x.atEnd, shown := x.shown.drop (x.last - x.rp), rp := max x.rp x.last,
           pres := max x.pres x.last }

theorem fifoRelease_eq (hf : mget d.fifos id = some f) (hx : mget f.dsts k = some x) :
    fifoRelease id k d = if x.mark = none then d else fifoFree id (setDst id k (releasedDst f x) d) := by
  unfold fifoRelease
  rw [hf]
  dsimp only
  rw [hx]
  rfl

/-- Where it alone is fed, all that the destination has freed goes back to the producer. -/
theorem fifoRelease_slots (hf : mget d.fifos id = some f) (hx : mget f.dsts k = some x) (hm : x.mark ≠ none) (ha : f.dsts = [(k, x)])
    (hs : f.stall = false) (hb : f.base ≤ x.freed) (he : x.freed ≤ fifoEnd f) (hl : x.last ≤ fifoEnd f) :
    (mget (fifoRelease id k d).fifos id).map (fun y => (y.base, y.transit)) =
      some (max x.freed x.last, f.transit + (max x.freed x.last - f.base)) := by
  have alone : mput f.dsts k (releasedDst f x) = [(k, releasedDst f x)] := by
    rw [ha, mput, if_neg (Nat.lt_irrefl k), if_pos rfl]
  have freed : freedTo { f with dsts := [(k, releasedDst f x)] } = max x.freed x.last := Nat.min_eq_right (Nat.max_le.mpr ⟨he, hl⟩)
  have slots := fifoFree_slots (d := setDst id k (releasedDst f x) d) (f := { f with dsts := [(k, releasedDst f x)] })
    (by rw [setDst_some hf, alone, mget_setFifo]) hs
  rw [fifoRelease_eq hf hx, if_neg hm, slots, freed, Nat.max_eq_right (Nat.le_trans hb (Nat.le_max_left _ _))]

end

/-! ### Credits, starving, pins and watermarks -/

section
variable {d : Dev} {id : Nat} {f : Fifo}

/-- A producer with nothing waiting keeps its credits; no link feeds the route. -/
theorem creditRow_grants (hf : mget d.fifos id = some f) (hb : f.backlog = []) (hs : epKind f.src ≠ 4) (n : Nat) :
    creditRow id n d = setFifo id { f with cred := f.cred + min n f.transit, transit := f.transit - min n f.transit } d := by
  have granted : creditGrant id n d = setFifo id { f with cred := f.cred + min n f.transit, transit := f.transit - min n f.transit } d := by
    unfold creditGrant
    rw [hf]
    dsimp only
    rw [hb]
    rfl
  unfold creditRow
  dsimp only
  rw [granted, mget_setFifo]
  exact if_neg hs

theorem fifoStat_not_raised (hid : id < 1024) : ¬ raised (Reg.FIFO_STAT id).addr := by
  simp only [raised, Reg.FIFO_STAT]
  omega

/-- The route with each destination's wait as it stands. -/
def starvedSeen (id : Nat) (f : Fifo) (d : Dev) : Dev :=
  setFifo id { f with dsts := mmap f.dsts (fun k x => { x with starved := fifoWaits d id k f x }) } d

/-- Some destination waits on an empty head and has not been reported for it. -/
def starvesAnew (id : Nat) (f : Fifo) (d : Dev) : Bool := f.dsts.any (fun p => fifoWaits d id p.1 f p.2 && !p.2.starved)

theorem fifoStarve_eq (hf : mget d.fifos id = some f) : fifoStarve id d =
    whenB (starvesAnew id f d) (fun d => raise 86 (sf (Reg.FIFO_STAT id) F.FIFO_STAT_STARVED 1 d)) (starvedSeen id f d) := by
  unfold fifoStarve
  rw [hf]
  rfl

theorem touches_starvedSeen (w : Nat → Prop) : Touches w d (starvedSeen id f d) := Touches.mk (Touches.refl d)

theorem fifoStarve_reports (hid : id < 1024) (hf : mget d.fifos id = some f)
    (h : ∃ p ∈ f.dsts, fifoWaits d id p.1 f p.2 = true ∧ p.2.starved = false) :
    gb (fifoStarve id d) (Reg.FIFO_STAT id) F.FIFO_STAT_STARVED = true ∧ icPending (fifoStarve id d) 86 = true ∧
    Touches (fun a => a = (Reg.FIFO_STAT id).addr) d (fifoStarve id d) := by
  have new : starvesAnew id f d = true := by
    obtain ⟨p, hp, waits, fresh⟩ := h
    exact List.any_eq_true.mpr ⟨p, hp, by rw [waits, fresh]; rfl⟩
  rw [fifoStarve_eq hf, new]
  refine ⟨?_, icPending_raise 86 _ (by decide), ((touches_starvedSeen fun a => a = (Reg.FIFO_STAT id).addr).sf _ _ _ (.inl rfl)).raise 86⟩
  exact congrArg (· != 0) ((gf_raise _ _ _ _ (fifoStat_not_raised hid)).trans (gf_sf_same _ F.FIFO_STAT_STARVED 1 _ (by decide)))

theorem fifoStarve_reported (hf : mget d.fifos id = some f)
    (h : ∀ p ∈ f.dsts, fifoWaits d id p.1 f p.2 = true → p.2.starved = true) : Touches (fun _ => False) d (fifoStarve id d) := by
  have old : starvesAnew id f d = false := List.any_eq_false.mpr fun p hp new => by
    obtain ⟨waits, fresh⟩ := Bool.and_eq_true_iff.mp new
    rw [h p hp waits] at fresh
    cases fresh
  rw [fifoStarve_eq hf, old]
  exact touches_starvedSeen _

theorem pinHoldExpiry_falls {p : Nat} (h0 : 0 < p) (h9 : p < 9) (ho : pinOr d p = false) (hf : d.pinForce = false) :
    pinHoldExpiry p d = sf Reg.FIFO_PIN_STAT ⟨p - 1, 1⟩ 0 d := by
  refine if_neg ?_
  rw [ho, hf]
  simp
  omega

theorem pinHoldExpiry_held {p : Nat} (h : pinOr d p = true ∨ d.pinForce = true) : pinHoldExpiry p d = d := if_pos (.inr (.inr h))

/-- The two levels of a written watermark pair. -/
theorem fldGet_wmPair {hi lo : Nat} (hh : hi < 1024) (hl : lo < 1024) :
    fldGet (BitVec.ofNat 64 (hi * 65536 + lo)) F.FIFO_WM_WM_HIGH = hi ∧ fldGet (BitVec.ofNat 64 (hi * 65536 + lo)) F.FIFO_WM_WM_LOW = lo := by
  simp only [fldGet, F.FIFO_WM_WM_HIGH, F.FIFO_WM_WM_LOW, BitVec.extractLsb'_toNat, BitVec.toNat_ofNat, Nat.shiftRight_eq_div_pow]
  omega

theorem fifoWm_eq {hi lo : Nat} (hf : mget d.fifos id = some f) (hh : hi < 1024) (hl : lo < 1024) : fifoWm id (hi * 65536 + lo) d =
    if lo ≥ hi ∨ hi > fifoDepth f ∨ hi = 0 then sf (Reg.FIFO_STAT id) F.FIFO_STAT_WM_REJ 1 d
    else sf (Reg.FIFO_WM id) F.FIFO_WM_WM_LOW lo (sf (Reg.FIFO_WM id) F.FIFO_WM_WM_HIGH hi d) := by
  obtain ⟨high, low⟩ := fldGet_wmPair hh hl
  unfold fifoWm
  rw [hf]
  dsimp only
  rw [high, low]

theorem fifoWm_takes {hi lo : Nat} (hf : mget d.fifos id = some f) (hh : hi < 1024) (hl : lo < 1024) (hlt : lo < hi) (hd : hi ≤ fifoDepth f) :
    gf (fifoWm id (hi * 65536 + lo) d) (Reg.FIFO_WM id) F.FIFO_WM_WM_HIGH = hi ∧
    gf (fifoWm id (hi * 65536 + lo) d) (Reg.FIFO_WM id) F.FIFO_WM_WM_LOW = lo ∧
    Touches (fun a => a = (Reg.FIFO_WM id).addr) d (fifoWm id (hi * 65536 + lo) d) := by
  rw [fifoWm_eq hf hh hl, if_neg (by omega)]
  refine ⟨?_, ?_, ((Touches.refl (w := fun a => a = (Reg.FIFO_WM id).addr) d).sf _ _ _ (.inl rfl)).sf _ _ _ (.inl rfl)⟩
  · rw [gf_sf_disj _ _ _ _ _ (by decide) (by decide), gf_sf_same _ _ _ _ (by decide)]
    exact Nat.mod_eq_of_lt hh
  · rw [gf_sf_same _ _ _ _ (by decide)]
    exact Nat.mod_eq_of_lt hl

theorem fifoWm_rejects {hi lo : Nat} (hf : mget d.fifos id = some f) (hh : hi < 1024) (hl : lo < 1024) (h : hi ≤ lo ∨ fifoDepth f < hi) :
    gb (fifoWm id (hi * 65536 + lo) d) (Reg.FIFO_STAT id) F.FIFO_STAT_WM_REJ = true ∧
    Touches (fun a => a = (Reg.FIFO_STAT id).addr) d (fifoWm id (hi * 65536 + lo) d) := by
  rw [fifoWm_eq hf hh hl, if_pos (by omega)]
  exact ⟨congrArg (· != 0) (gf_sf_same _ F.FIFO_STAT_WM_REJ 1 _ (by decide)), (Touches.refl d).sf _ _ _ (.inl rfl)⟩

end

/-- Settles O21: each row by the equation of its case; freeing slots leaves every destination as it freed them. -/
theorem streamFifosMoveItems : Obligations.StreamFifosMoveItems := by
  intro s id f hs hid hf d0 stat
  have row : ∀ {c : Instr} {g : Dev → Dev} {P : Dev → Prop}, exec c s = liftSys (WellFormed.lt id 1024) g s → P (g d0) → Completes c s P :=
    fun he hP => completes_sys he (decide_eq_true hid) hs hP
  refine ⟨?_, fun n hn hb hsrc => ?_, fun h => row (g := fifoStarve id) rfl (fifoStarve_reports hid hf h),
    fun h => row (g := fifoStarve id) rfl (fifoStarve_reported hf h), fun p h0 h9 => ?_, fun hi lo hh hl => ?_⟩
  · intro k x hk hx dst
    have port : ∀ {c : Instr} {g : Dev → Dev} {P : Dev → Prop},
        exec c s = liftSys (WellFormed.lt id 1024 && WellFormed.lt k 16) g s → P (g d0) → Completes c s P :=
      fun he hP => completes_sys he (by simp [WellFormed.lt, hid, hk]) hs hP
    have present : ∀ {P : Dev → Prop}, P (itemPresent id k [] d0) → Completes (.fifoItemPresent id k []) s P := fun hP =>
      completes_sys (f := itemPresent id k []) rfl (by simp [WellFormed.lt, WellFormed.okItemErr, hid, hk]) hs hP
    refine ⟨?_, fun hr hkind => present (itemPresent_unreleased hf hx hr hkind []), fun i rest hm hshown => ?_,
      fun h => port (g := fifoMark id k) rfl (fifoMark_ignored hf hx h), fun m hm => ?_, fun hm => ?_⟩
    · intro it hr hi he _ hp it0 shown
      have clean := fifoPresent_clean hf hx hr hi he hp
      refine ⟨fun hkind => present ?_, fun hkind => present ?_⟩
      · rw [itemPresent_engine hf hkind, clean]
        rfl
      · rw [itemPresent_complete hf hkind, clean]
        rfl
    · refine port (g := fifoMark id k) rfl ?_
      rw [fifoMark_marks hf hx hm hshown]
      exact (destOf_congr ((IrqOnly.refl _).markFullCheck id |>.destsOf id)).trans (destOf_freed hf)
    · have marked : x.mark ≠ none := fun h => by rw [h] at hm; cases hm
      refine ⟨port (g := fifoRewind id k) rfl ((fifoRewind_eq hf hx).trans (congrArg (Option.elim · _ _) hm)),
        port (g := fifoRelease id k) rfl ⟨?_, fifoRelease_slots hf hx marked⟩⟩
      rw [fifoRelease_eq hf hx, if_neg marked]
      exact congrArg (Option.map _) (destOf_freed hf)
    · exact ⟨port (g := fifoRewind id k) rfl ((fifoRewind_eq hf hx).trans (congrArg (Option.elim · _ _) hm)),
        port (g := fifoRelease id k) rfl ((fifoRelease_eq hf hx).trans (if_pos hm))⟩
  · exact completes_sys (f := creditRow id n) rfl (by simp [WellFormed.lt, hid, hn]) hs (creditRow_grants hf hb hsrc n)
  · have pin : ∀ {P : Dev → Prop}, P (pinHoldExpiry p d0) → Completes (.fcPinHoldExpiry p) s P := fun hP =>
      completes_sys (f := pinHoldExpiry p) rfl (decide_eq_true h9) hs hP
    refine ⟨fun ho hforce => pin ?_, fun h => pin (pinHoldExpiry_held h)⟩
    rw [pinHoldExpiry_falls h0 h9 ho hforce]
    exact ⟨gf_sf_same _ _ _ _ (by dsimp only; omega), (Touches.refl d0).sf _ _ _ (.inl rfl)⟩
  · have write : ∀ {P : Dev → Prop}, P (fifoWm id (hi * 65536 + lo) d0) → Completes (.fifoWmWrite id (hi * 65536 + lo)) s P := fun hP =>
      completes_sys (f := fifoWm id (hi * 65536 + lo)) rfl (by simp [WellFormed.lt, hid]; omega) hs hP
    exact ⟨fun hlt hd => write (fifoWm_takes hf hh hl hlt hd), fun h => write (fifoWm_rejects hf hh hl h)⟩

end Sys2Proof.Machine
end

/-! ## Senses and the reads that wait for them -/

section
/-! Settlement of O26. -/

namespace Sys2Proof.Machine

/-- A read of 32 bytes waits for page 0 of stack 0, whose sense is under way. The register table lists ARY_CE_BITS at its reset value,
which the canonical form never does. -/
def ceBitsListed : Dev :=
  { regs := [((Reg.ARY_CE_BITS 0).addr, (Reg.ARY_CE_BITS 0).reset)]
    arys := { st := [(0, { cur := [(0, ⟨2, 0, 0⟩)], reads := [⟨1, arrayBase 0, 0, 32⟩] })] } }

/-- The address of ARY_CE_BITS with a reset value that is not the register's own. -/
def ceBitsOther : Reg := ⟨(Reg.ARY_CE_BITS 0).addr, 1⟩

theorem rd_ceBitsListed : rd ceBitsListed ceBitsOther = 0 := rfl

/-- Counting no corrected bit stores ARY_CE_BITS at its reset value, so that the table lists the register no more. -/
theorem rd_senseComplete_ceBitsListed :
    rd (senseComplete 0 0 [List.replicate 8 (some 0)] [] ceBitsListed) ceBitsOther = 1 := by decide +kernel

/-- What a completed row left is what its operation on the device answers. -/
theorem Completes.of_sys {c : Instr} {s : State} {ok : Bool} {f : Dev → Dev} {P : Dev → Prop} (h : Completes c s P)
    (he : exec c s = liftSys ok f s) (hok : ok = true) (hs : sysClocked s.dev = true) : P (f s.dev) := by
  obtain ⟨t, ht, -, hP⟩ := h
  subst hok
  rw [he] at ht
  obtain rfl : { s with dev := if sysClocked s.dev then f s.dev else s.dev } = t := Host.Outcome.next.inj ht
  simpa only [hs, if_true] using hP

/-- Refutes O26: the frame of a sense without corrected bits leaves out ARY_CE_BITS, which the sense stores all the same. Where the
register table lists that register at its reset value, the store takes it off the table, and a read of its address under another reset
value changes. -/
theorem not_sensesServeReads : ¬ Obligations.SensesServeReads := by
  intro h
  obtain ⟨-, -, sense, -⟩ := h ⟨[], ceBitsListed⟩ 1 0 0 32 0 (by decide) (by decide) (by decide) (by decide) (by decide) (by decide) (by decide)
  have served := (sense ⟨2, 0, 0⟩ rfl (by decide) (by decide) rfl rfl).1 ⟨1, arrayBase 0, 0, 32⟩ rfl rfl (clean_unmarked rfl rfl _ _)
  obtain ⟨-, -, -, frame⟩ := served.of_sys (f := senseComplete 0 0 [List.replicate 8 (some 0)] []) rfl rfl (by decide)
  have same := frame.rd_eq ceBitsOther (by decide) (by unfold raised; decide)
  rw [rd_senseComplete_ceBitsListed, rd_ceBitsListed] at same
  exact absurd same (by decide)

end Sys2Proof.Machine
end

/-! ## The weight array's rows -/

section
/-! SUPPORT of O24 and O25: what a stack's controller holds after a change, writes into a stack's window, and what a quiet array
leaves alone. -/

namespace Sys2Proof.Machine

section
variable {d e : Dev} {k : Nat}

/-! ### What a stack's controller holds -/

@[simp] theorem aryOf_aryUpd (k : Nat) (f : Ary → Ary) (d : Dev) : aryOf (aryUpd k f d) k = f (aryOf d k) := mgetD_mput_same _ _ _ _

@[simp] theorem aryOf_sf (k : Nat) (r : Reg) (f : Fld) (x : Nat) (d : Dev) : aryOf (sf r f x d) k = aryOf d k := rfl

@[simp] theorem aryOf_emit (k : Nat) (o : Out) (d : Dev) : aryOf (emit o d) k = aryOf d k := rfl

@[simp] theorem gf_aryUpd (k : Nat) (f : Ary → Ary) (d : Dev) (r : Reg) (x : Fld) : gf (aryUpd k f d) r x = gf d r x := rfl

theorem IrqOnly.arys (h : IrqOnly d e) : e.arys = d.arys := by obtain ⟨_, _, _, _, _, rfl⟩ := h; rfl

theorem IrqOnly.arb (h : IrqOnly d e) : e.arb = d.arb := by obtain ⟨_, _, _, _, _, rfl⟩ := h; rfl

theorem IrqOnly.part (h : IrqOnly d e) : e.part = d.part := by obtain ⟨_, _, _, _, _, rfl⟩ := h; rfl

theorem aryOf_congr (h : e.arys = d.arys) (k : Nat) : aryOf e k = aryOf d k := congrArg (fun a : Arys => mgetD a.st k {}) h

@[simp] theorem arys_raise (n : Nat) (d : Dev) : (raise n d).arys = d.arys := ((IrqOnly.refl d).raise n).arys

@[simp] theorem aryOf_raise (k n : Nat) (d : Dev) : aryOf (raise n d) k = aryOf d k := aryOf_congr (arys_raise n d) k

@[simp] theorem arys_cntAdd (r : Reg) (fc fo : Fld) (n src : Nat) (d : Dev) : (cntAdd r fc fo n src d).arys = d.arys :=
  ((IrqOnly.refl d).cntAdd r fc fo n src).arys

@[simp] theorem aryOf_cntAdd (k : Nat) (r : Reg) (fc fo : Fld) (n src : Nat) (d : Dev) : aryOf (cntAdd r fc fo n src d) k = aryOf d k :=
  aryOf_congr (arys_cntAdd r fc fo n src d) k

theorem Touches.aryUpd {w : Nat → Prop} (h : Touches w d e) (k : Nat) (f : Ary → Ary) : Touches w d (aryUpd k f e) := Touches.mk h

/-- The registers of the array blocks are none that an interrupt writes. -/
theorem arrayReg_not_raised {a : Nat} (h : 0x10300000 ≤ a ∧ a < 0x10400000) : ¬ raised a := by
  unfold raised
  omega

/-- Nothing has left the device, and the tables of the arrays stand. -/
def Silent (d e : Dev) : Prop := e.out = d.out ∧ e.arys = d.arys

theorem Silent.trans {f : Dev} (h : Silent d e) (g : Silent e f) : Silent d f := ⟨g.1.trans h.1, g.2.trans h.2⟩

theorem Silent.aryOf (h : Silent d e) (k : Nat) : aryOf e k = aryOf d k := aryOf_congr h.2 k

theorem silent_raise {n : Nat} (hn : 32 ≤ n) (d : Dev) : Silent d (raise n d) := ⟨out_raise n d (.inr hn), arys_raise n d⟩

theorem silent_cntAdd (r : Reg) (fc fo : Fld) (n : Nat) {src : Nat} (hn : 32 ≤ src) (d : Dev) : Silent d (cntAdd r fc fo n src d) :=
  ⟨out_cntAdd r fc fo n src d (.inr hn), arys_cntAdd r fc fo n src d⟩

theorem Silent.ite {c : Prop} [Decidable c] {f : Dev} (h : Silent d e) (g : Silent d f) : Silent d (if c then e else f) := by
  split
  · exact h
  · exact g

theorem silent_scoreProgram (final : Bool) (d : Dev) : Silent d (scoreProgram final d) := Silent.ite ⟨rfl, rfl⟩ ⟨rfl, rfl⟩

theorem silent_scoreFill (fuel : Nat) (d : Dev) : Silent d (scoreFill fuel d) := by
  induction fuel generalizing d with
  | zero => exact ⟨rfl, rfl⟩
  | succ fuel ih =>
    unfold scoreFill
    split
    · exact ⟨rfl, rfl⟩
    · split
      · exact ⟨rfl, rfl⟩
      · split
        · exact ⟨rfl, rfl⟩
        · refine Silent.trans (Silent.ite ?_ ?_) (ih _)
          · exact Silent.trans ⟨rfl, rfl⟩ (silent_scoreProgram false _)
          · exact ⟨rfl, rfl⟩

/-- A record at the scoresheet sends nothing, and is no affair of the arrays. -/
theorem silent_scoreEvent (ev kind i : Nat) (args : List Nat) (d : Dev) : Silent d (scoreEvent ev kind i args d) := by
  unfold scoreEvent scoreQueue
  split
  · exact ⟨rfl, rfl⟩
  · split
    · exact silent_cntAdd _ _ _ _ (by decide) _
    · exact silent_scoreFill 2 _

/-! ### A quiet array -/

theorem le_of_kept (h : e.kept = d.kept) : e.le = d.le := congrArg (fun x : Kept => x.2.2.2.2.2.2.2.2.2.1) h

theorem slots_of_kept (h : e.kept = d.kept) : e.slots = d.slots := congrArg (fun x : Kept => x.2.2.2.2.2.2.2.2.1) h

theorem forN_fixed_below {f : Nat → Dev → Dev} {n : Nat} (hf : ∀ x < n, f x d = d) : forN n f d = d := by
  unfold forN forEach
  have hl : ∀ x ∈ List.range n, x < n := fun x => List.mem_range.mp
  revert hl
  induction List.range n with
  | nil => exact fun _ => rfl
  | cons x l ih => exact fun hl => by rw [List.foldl_cons, hf x (hl x List.mem_cons_self), ih fun y hy => hl y (List.mem_cons_of_mem _ hy)]

theorem ArrayQuiet.of_kept (h : ArrayQuiet d) (hk : e.kept = d.kept) :
    e.le.run = none ∧ e.le.erases = [] ∧ ∀ i, i < 128 → (sideOf e (i / 2) (i % 2)).st ≠ 5 := by
  obtain ⟨run, erases, -, sides⟩ := h
  refine ⟨(congrArg Le.run (le_of_kept hk)).trans run, (congrArg Le.erases (le_of_kept hk)).trans erases, fun i hi => ?_⟩
  unfold sideOf mslot
  rw [slots_of_kept hk]
  exact sides i hi

/-- No background erase starts, and no side is freed. -/
theorem ArrayQuiet.eraseKick (h : ArrayQuiet d) (hk : e.kept = d.kept) : eraseKick e = e := by
  obtain ⟨-, erases, sides⟩ := h.of_kept hk
  unfold Machine.eraseKick
  rw [erases]
  exact forN_fixed_below fun i hi => if_neg fun released => sides i hi released.1

/-- Neither the load engine nor a background erase starts an operation. -/
theorem ArrayQuiet.aryKick (h : ArrayQuiet d) (hk : e.kept = d.kept) : aryKick e = e := by
  obtain ⟨run, -, -⟩ := h.of_kept hk
  unfold Machine.aryKick
  rw [forN_fixed_below fun i _ => by unfold leStart; rw [run]]
  exact h.eraseKick hk

theorem ArrayQuiet.loadAdjSettle (h : ArrayQuiet d) (hk : e.kept = d.kept) : loadAdjSettle e = e := by
  obtain ⟨run, -, -⟩ := h.of_kept hk
  unfold Machine.loadAdjSettle
  rw [run]

/-- In a quiet array nothing follows from what an operation leaves. -/
theorem aryAfter_quiet {f : Dev → Dev} (h : ArrayQuiet d) (hk : (f d).kept = d.kept) : aryAfter f d = f d := by
  unfold aryAfter
  rw [h.2.2.1]
  exact (congrArg Machine.loadAdjSettle (h.aryKick hk)).trans (h.loadAdjSettle hk)

/-! ### Writes into a stack's window (R31, R314) -/

theorem region_window {k off : Nat} (hk : k < 16) (ho : off < 2 ^ 31) : region (arrayBase k + off) = .array k ∧ arrOff (arrayBase k + off) = off := by
  unfold region arrayBase arrOff
  constructor
  · iterate 10 rw [if_neg (by omega)]
    rw [if_pos (by omega)]
    congr 1
    omega
  · omega

theorem kept_winWrite (master k o : Nat) (bs : List Byte) (p : Bool) (d : Dev) : (winWrite master k o bs p d).kept = d.kept :=
  (winWrite_h master k o bs p d (holds_self quiet quiet_free d)).2.2.1

/-- In a quiet array a write that no cause refuses reaches the stack's controller, and nothing else follows. -/
theorem busPut_window {master k off : Nat} {bs : List Byte} {p : Bool} (rs : List ReloadIn) (hk : k < 16) (ho : off < 2 ^ 31)
    (hq : ArrayQuiet d) (hc : localCause d (arrayBase k + off) bs.length true = none) :
    busPut master (arrayBase k + off) bs p rs d = (none, winWrite master k off bs p d) := by
  obtain ⟨hr, hoff⟩ := region_window hk ho
  unfold busPut
  rw [hc, ← aryAfter_quiet hq (kept_winWrite master k off bs p d)]
  simp only [hr, hoff]

/-- An access of the window that no cause refuses does not wait either. -/
theorem window_access {k off n : Nat} {w : Bool} (hk : k < 16) (ho : off < 2 ^ 31) (hc : localCause d (arrayBase k + off) n w = none) :
    accessCause d (arrayBase k + off) n w = none := by
  obtain ⟨hr, -⟩ := region_window hk ho
  cases h : accessCause d (arrayBase k + off) n w with
  | none => rfl
  | some c =>
    rw [localCause_access (fun hx => by rw [hr] at hx; cases hx) h] at hc
    cases hc

/-- A write into the window that no cause refuses reaches the stack's controller, and its master is told. -/
theorem windowWrite_quiet {master k off : Nat} {bs : List Byte} {p : Bool} (hk : k < 16) (ho : off < 2 ^ 31) (hq : ArrayQuiet d)
    (hheld : d.boot.held = []) (hc : localCause d (arrayBase k + off) bs.length true = none)
    (hp : p = true → master ≠ 0x10 ∧ master ≠ 0x11) :
    xWindowWrite master k off bs p d = emit (.busWrote master) (winWrite master k off bs p d) := by
  have hlow : arrayBase k + off < 2 ^ 40 := by
    unfold arrayBase
    omega
  unfold xWindowWrite
  rw [fabricAccess_served rfl hlow (by simp [localWaits, accessWaits, window_access hk ho hc, heldBefore, hheld])
    (by rw [(region_window hk ho).1]; simp) (fun _ => hp) hc rfl]
  unfold busServe
  dsimp only
  rw [Nat.mod_eq_of_lt hlow, List.take_of_length_le (Nat.le_refl _), padTo_of_length rfl, busPut_window _ hk ho hq hc]
  rfl

end

end Sys2Proof.Machine
end

/-! ## Passwords of regions, and the load of a stack -/

section
/-! SUPPORT and settlement of O24. -/

namespace Sys2Proof.Machine

section
variable {d e : Dev} {k master v : Nat} {sector : Bool} {index page : Nat}

/-! ### The third write of a sequence (R314, R320) -/

/-- A command word, written by the master that wrote the keys, is the third write. -/
theorem winWrite_third {w : Nat} (hw : w < 2 ^ 32) (hseq : (aryOf d k).seq = some (2, master)) :
    winWrite master k cmdOff (leBytes 4 w) false d = seqThird k master w d := by
  have word : leNat (leBytes 4 w) = w := (leNat_leBytes 4 w).trans (Nat.mod_eq_of_lt hw)
  unfold winWrite
  dsimp only
  rw [word, hseq]
  exact if_pos ⟨rfl, by simp [leBytes_length], rfl⟩

/-- The device once the third write has taken the sequence, before its command acts. -/
def seqTaken (k : Nat) (d : Dev) : Dev := sf (Reg.ARY_STAT k) F.ARY_STAT_MODE 0 (aryUpd k (fun a => { a with seq := none }) d)

theorem gf_seqTaken_disj {f : Fld} (hf : f.lo + f.len ≤ 24 ∨ 26 ≤ f.lo) :
    gf (seqTaken k d) (Reg.ARY_STAT k) f = gf d (Reg.ARY_STAT k) f := gf_sf_disj _ _ _ _ _ (by decide) hf.symm

theorem rd_seqTaken {r : Reg} (h : r.addr ≠ (Reg.ARY_STAT k).addr) : rd (seqTaken k d) r = rd d r := rd_sf_ne _ _ _ h

theorem aryOf_seqTaken : aryOf (seqTaken k d) k = { aryOf d k with seq := none } := aryOf_aryUpd _ _ _

theorem seqThird_unlock (h : gf d (Reg.ARY_STAT k) F.ARY_STAT_PW_BUSY = 0) :
    seqThird k master (0xC5 + 256 * (255 - 0xC5)) d = cmdUnlock k (seqTaken k d) := by
  unfold seqThird
  simp [gb, h, seqTaken]

theorem seqThird_lock (h : gf d (Reg.ARY_STAT k) F.ARY_STAT_PW_BUSY = 0) :
    seqThird k master (0xC6 + 256 * (255 - 0xC6)) d = cmdLock k (seqTaken k d) := by
  unfold seqThird
  simp [gb, h, seqTaken]

/-- The sequence has ended with outcome `v`, and its master has been told. -/
def SeqLast (k master v : Nat) (d e : Dev) : Prop :=
  e.out = d.out ++ [.busWrote master] ∧ (aryOf e k).seq = none ∧ gf e (Reg.ARY_STAT k) F.ARY_STAT_LAST = v ∧
  gf e (Reg.ARY_STAT k) F.ARY_STAT_MODE = 0

/-- The sequence has ended with outcome `v`, and nothing else has changed. -/
def SeqEnded (k master v : Nat) (d e : Dev) : Prop :=
  SeqLast k master v d e ∧ aryOf e k = { aryOf d k with seq := none } ∧ Touches (fun a => a = (Reg.ARY_STAT k).addr) d e

theorem Touches.seqTaken {w : Nat → Prop} (h : Touches w d e) (hw : w (Reg.ARY_STAT k).addr) : Touches w d (seqTaken k e) :=
  Touches.sf (h.aryUpd k _) _ _ _ (.inl hw)

theorem Touches.setLast {w : Nat → Prop} (h : Touches w d e) (hw : w (Reg.ARY_STAT k).addr) (v : Nat) : Touches w d (setLast k v e) :=
  h.sf _ _ _ (.inl hw)

theorem gf_setLast (hv : v < 32) : gf (setLast k v d) (Reg.ARY_STAT k) F.ARY_STAT_LAST = v :=
  (gf_sf_same _ _ _ _ (by decide)).trans (Nat.mod_eq_of_lt hv)

theorem gf_setLast_disj {f : Fld} (hf : 5 ≤ f.lo) : gf (setLast k v d) (Reg.ARY_STAT k) f = gf d (Reg.ARY_STAT k) f :=
  gf_sf_disj _ _ _ _ _ (by decide) (.inl hf)

theorem gf_seqTaken_mode : gf (seqTaken k d) (Reg.ARY_STAT k) F.ARY_STAT_MODE = 0 := gf_sf_same _ _ _ _ (by decide)

theorem aryOf_setLast : aryOf (setLast k v d) k = aryOf d k := aryOf_sf _ _ _ _ _

theorem SeqLast.intro (hout : e.out = d.out) (hary : (aryOf e k).seq = none) (hlast : gf e (Reg.ARY_STAT k) F.ARY_STAT_LAST = v)
    (hmode : gf e (Reg.ARY_STAT k) F.ARY_STAT_MODE = 0) : SeqLast k master v d (emit (.busWrote master) e) :=
  ⟨congrArg (· ++ [Out.busWrote master]) hout, hary, hlast, hmode⟩

theorem seqLast_setLast (hv : v < 32) : SeqLast k master v d (emit (.busWrote master) (setLast k v (seqTaken k d))) :=
  .intro rfl (congrArg Ary.seq (aryOf_setLast.trans aryOf_seqTaken)) (gf_setLast hv) ((gf_setLast_disj (by decide)).trans gf_seqTaken_mode)

theorem seqEnded_setLast (hv : v < 32) : SeqEnded k master v d (emit (.busWrote master) (setLast k v (seqTaken k d))) :=
  ⟨seqLast_setLast hv, (aryOf_emit _ _ _).trans (aryOf_setLast.trans aryOf_seqTaken),
    (((Touches.refl (w := fun a => a = (Reg.ARY_STAT k).addr) d).seqTaken rfl).setLast rfl v).emit _⟩

/-! ### The target's checks (R320) -/

/-- The outcome of a target that is refused, whatever its protection; 0 of one that is not. -/
def refusal (d : Dev) (k : Nat) (sector : Bool) (index page : Nat) : Nat :=
  if sector = true ∧ (63 < index ∨ 1 < k) then 1
  else if sector = false ∧ (gf d (Reg.ARY_GEOM k) F.ARY_GEOM_BLOCKS ≤ index ∨ 8 ≤ page) then 1
  else if sector = false ∧ index ∈ (aryOf d k).bad then 2 else if sector = false ∧ (wearOf d k false index).retired = true then 3
  else if mget (aryOf d k).ops (if sector then 4 else index / (mainBlocks d / 4)) ≠ none ∨ (aryOf d k).pb ≠ none then 5 else 0

theorem refusal_lt : refusal d k sector index page < 32 := by
  unfold refusal
  split_ifs <;> decide

/-- A parameter sector that is not refused is one of the 64 of S0 or S1. -/
theorem index_of_refusal (h : refusal d k true index page = 0) : index < 64 := by
  by_contra hi
  unfold refusal at h
  rw [if_pos ⟨rfl, .inl (by omega)⟩] at h
  cases h

theorem targetCheck_seqTaken (hb : gf d (Reg.ARY_STAT k) F.ARY_STAT_PW_BUSY = 0) :
    targetCheck (seqTaken k d) k sector index page false = refusal d k sector index page := by
  have geom : gf (seqTaken k d) (Reg.ARY_GEOM k) F.ARY_GEOM_BLOCKS = gf d (Reg.ARY_GEOM k) F.ARY_GEOM_BLOCKS :=
    congrArg (fldGet · _) (rd_seqTaken (by simp [Reg.ARY_GEOM, Reg.ARY_STAT]))
  have busy : gb (seqTaken k d) (Reg.ARY_STAT k) F.ARY_STAT_PW_BUSY = false :=
    congrArg (· != 0) ((gf_seqTaken_disj (by decide)).trans hb)
  have group : aryGroup (seqTaken k d) sector index = if sector then 4 else index / (mainBlocks d / 4) := rfl
  unfold targetCheck refusal
  simp only [wearOf, aryOf_seqTaken, geom, busy, group]
  cases sector <;> simp [mhas, Option.isSome_iff_ne_none]

/-! ### The states of regions (R354, R355) -/

/-- The register and the field that hold the state of a target's region. -/
def regionReg (k : Nat) (sector : Bool) (index : Nat) : Reg := if sector then Reg.ARY_PSEC_PROT k (index / 32) else Reg.ARY_REGION k

def regionFld (d : Dev) (sector : Bool) (index : Nat) : Fld := ⟨2 * (if sector then index % 32 else index % aryQ d / 16), 2⟩

theorem aryQ_le (d : Dev) : aryQ d ≤ 128 := by
  unfold aryQ mainBlocks
  split <;> decide

theorem aryQ_pos (d : Dev) : 0 < aryQ d := by
  unfold aryQ mainBlocks
  split <;> decide

theorem region_in_reg (d : Dev) (index : Nat) : index % aryQ d / 16 < 8 := by
  have := Nat.mod_lt index (aryQ_pos d)
  have := aryQ_le d
  omega

theorem regionFld_fits (d : Dev) (sector : Bool) (index : Nat) : (regionFld d sector index).lo + (regionFld d sector index).len ≤ 64 := by
  have := region_in_reg d index
  unfold regionFld
  split <;> dsimp only <;> omega

theorem regionSet_eq : regionSet k sector index v d = sf (regionReg k sector index) (regionFld d sector index) v d := by
  cases sector <;> rfl

/-- Two bits of a number, as a field. -/
theorem fldGet_pair (w : BitVec 64) (i : Nat) : fldGet w ⟨2 * i, 2⟩ = w.toNat / 4 ^ i % 4 := by
  unfold fldGet
  rw [BitVec.extractLsb'_toNat, Nat.shiftRight_eq_div_pow, Nat.pow_mul]
  rfl

theorem regionState_eq : regionState d k sector index = gf d (regionReg k sector index) (regionFld d sector index) := by
  cases sector
  · have low := region_in_reg d index
    show fldGet _ ⟨0, 16⟩ / 4 ^ (index % aryQ d / 16) % 4 = fldGet _ ⟨2 * (index % aryQ d / 16), 2⟩
    rw [fldGet_pair, fldGet, BitVec.extractLsb'_toNat, Nat.shiftRight_zero]
    generalize index % aryQ d / 16 = i at low
    have width : 2 ^ 16 = 4 ^ i * 4 ^ (8 - i) := by rw [← pow_add, Nat.add_sub_cancel' low.le]; rfl
    show _ % 2 ^ 16 / 4 ^ i % 4 = _
    rw [width, Nat.mod_mul_right_div_self, Nat.mod_mod_of_dvd _ (dvd_pow_self 4 (by omega))]
    rfl
  · exact (fldGet_pair _ _).symm

theorem regionReg_ne_stat : (regionReg k sector index).addr ≠ (Reg.ARY_STAT k).addr := by
  unfold regionReg
  split <;> simp only [Reg.ARY_PSEC_PROT, Reg.ARY_REGION, Reg.ARY_STAT] <;> omega

/-- The registers that hold a stack's region states. -/
def regionRegs (k : Nat) (a : Nat) : Prop := a = (Reg.ARY_REGION k).addr ∨ a = (Reg.ARY_PSEC_PROT k 0).addr ∨ a = (Reg.ARY_PSEC_PROT k 1).addr

theorem regionReg_mem (h : sector = true → index < 64) : regionRegs k (regionReg k sector index).addr := by
  cases sector
  · exact .inl rfl
  · have := h rfl
    obtain hi | hi : index / 32 = 0 ∨ index / 32 = 1 := by omega
    · exact .inr (.inl (by simp [regionReg, hi]))
    · exact .inr (.inr (by simp [regionReg, hi]))

theorem regionState_regionSet (hv : v < 4) : regionState (regionSet k sector index v d) k sector index = v := by
  rw [regionState_eq, regionSet_eq]
  exact (gf_sf_same _ _ _ _ (regionFld_fits d sector index)).trans (Nat.mod_eq_of_lt hv)

theorem gf_regionSet_stat (f : Fld) : gf (regionSet k sector index v d) (Reg.ARY_STAT k) f = gf d (Reg.ARY_STAT k) f := by
  rw [regionSet_eq]
  exact gf_sf_ne _ _ _ _ regionReg_ne_stat.symm

theorem Touches.regionSet {w : Nat → Prop} (h : Touches w d e) (hw : w (regionReg k sector index).addr) (v : Nat) :
    Touches w d (regionSet k sector index v e) := by
  rw [regionSet_eq]
  exact h.sf _ _ _ (.inl hw)

theorem regionState_congr (hp : e.part = d.part) (hr : rd e (regionReg k sector index) = rd d (regionReg k sector index)) :
    regionState e k sector index = regionState d k sector index := by
  have fld : regionFld e sector index = regionFld d sector index := by
    unfold regionFld aryQ mainBlocks
    rw [hp]
  rw [regionState_eq, regionState_eq, fld]
  exact congrArg (fldGet · _) hr

theorem regionState_seqTaken : regionState (seqTaken k d) k sector index = regionState d k sector index :=
  regionState_congr rfl (rd_seqTaken regionReg_ne_stat)

/-! ### The password table (R358, R359) -/

/-- The table version `t` holds the password that ARY_PW gives for region `i`. -/
abbrev pwFits (d : Dev) (k t i : Nat) : Prop :=
  (pwEntry d t i).getD 8 0 = 1 ∧ (pwEntry d t i).take 8 = pwCheck d k i (rd d (Reg.ARY_PW k)).toNat

theorem domOn_seqTaken (i : Nat) : domOn (seqTaken k d) i = domOn d i := by
  unfold domOn
  rw [rd_seqTaken (by simp only [Reg.PMU_DOM_STAT, Reg.ARY_STAT]; omega)]

theorem pwValid_seqTaken : pwValid (seqTaken k d) = pwValid d := by
  unfold pwValid
  rw [domOn_seqTaken]
  rfl

theorem rd_seqTaken_pw : rd (seqTaken k d) (Reg.ARY_PW k) = rd d (Reg.ARY_PW k) :=
  rd_seqTaken (by simp [Reg.ARY_PW, Reg.ARY_STAT])

theorem rd_seqTaken_arg : rd (seqTaken k d) (Reg.ARY_CMD_ARG k) = rd d (Reg.ARY_CMD_ARG k) :=
  rd_seqTaken (by simp [Reg.ARY_CMD_ARG, Reg.ARY_STAT])

theorem cmdArg_seqTaken : cmdArg (seqTaken k d) k = cmdArg d k := by
  unfold cmdArg gb gf
  rw [rd_seqTaken_arg]

/-! ### Unlock (R356, R357, R362) -/

/-- A failed unlock: outcome 10 and one more failure, which at the eighth raises a source and writes a record. -/
def unlockFailed (k f : Nat) (d : Dev) : Dev :=
  let d := sf (Reg.ARY_STAT k) F.ARY_STAT_PW_FAILS f (setLast k 10 d)
  if f = 8 then scoreEvent 0x0060 2 k [] (raise (srcAry 5 k) d) else d

/-- What the unlock of a target does, in the order of its checks. -/
theorem cmdUnlock_eq (harg : cmdArg d k = (sector, index, page)) (hb : gf d (Reg.ARY_STAT k) F.ARY_STAT_PW_BUSY = 0) :
    cmdUnlock k (seqTaken k d) =
      if refusal d k sector index page ≠ 0 then setLast k (refusal d k sector index page) (seqTaken k d)
      else if 8 ≤ gf d (Reg.ARY_STAT k) F.ARY_STAT_PW_FAILS then setLast k 11 (seqTaken k d)
      else if regionState d k sector index = 0 then setLast k 0 (seqTaken k d)
      else (pwValid d).elim (setLast k 13 (seqTaken k d)) fun t =>
        if pwFits d k t (regionIdx d k sector index) then regionSet k sector index 2 (setLast k 0 (seqTaken k d))
        else unlockFailed k (gf d (Reg.ARY_STAT k) F.ARY_STAT_PW_FAILS + 1) (seqTaken k d) := by
  unfold cmdUnlock
  rw [cmdArg_seqTaken, harg]
  dsimp only
  rw [targetCheck_seqTaken hb, regionState_seqTaken, pwValid_seqTaken, gf_seqTaken_disj (by decide), rd_seqTaken_pw]
  cases pwValid d <;> rfl

theorem seqLast_regionSet (hv : v < 4) : SeqLast k master 0 d (emit (.busWrote master) (regionSet k sector index v (setLast k 0 (seqTaken k d)))) ∧
    regionState (emit (.busWrote master) (regionSet k sector index v (setLast k 0 (seqTaken k d)))) k sector index = v := by
  refine ⟨.intro ?_ ?_ ?_ ?_, regionState_regionSet hv⟩
  · rw [regionSet_eq]
    rfl
  · rw [regionSet_eq, aryOf_sf, aryOf_setLast, aryOf_seqTaken]
  · exact (gf_regionSet_stat _).trans (gf_setLast (by decide))
  · exact (gf_regionSet_stat _).trans ((gf_setLast_disj (by decide)).trans gf_seqTaken_mode)

/-- A region takes a state as the outcome of a sequence. -/
theorem touches_regionSet (h : sector = true → index < 64) : Touches (fun a => a = (Reg.ARY_STAT k).addr ∨ regionRegs k a) d
    (emit (.busWrote master) (regionSet k sector index v (setLast k 0 (seqTaken k d)))) :=
  ((((Touches.refl d).seqTaken (.inl rfl)).setLast (.inl rfl) 0).regionSet (.inr (regionReg_mem h)) v).emit _

theorem gf_raise_stat (n : Nat) (hk : k < 16) (f : Fld) (d : Dev) : gf (raise n d) (Reg.ARY_STAT k) f = gf d (Reg.ARY_STAT k) f :=
  gf_raise _ _ _ _ (arrayReg_not_raised (by simp only [Reg.ARY_STAT]; omega))

/-- A record at the scoresheet is none of a stack's affairs. -/
theorem touches_scoreEvent (ev kind i : Nat) (args : List Nat) (d : Dev) : Touches scored d (scoreEvent ev kind i args d) :=
  (Touches.refl d).scoreEvent _ _ _ _ fun _ h => h

/-- A failure below the eighth is counted, and that is all. -/
theorem seqEnded_unlockFailed {f : Nat} (hf : f < 8) : SeqEnded k master 10 d (emit (.busWrote master) (unlockFailed k f (seqTaken k d))) ∧
    gf (unlockFailed k f (seqTaken k d)) (Reg.ARY_STAT k) F.ARY_STAT_PW_FAILS = f := by
  have eq : unlockFailed k f (seqTaken k d) = sf (Reg.ARY_STAT k) F.ARY_STAT_PW_FAILS f (setLast k 10 (seqTaken k d)) := if_neg (by omega)
  rw [eq]
  refine ⟨⟨.intro rfl ?_ ?_ ?_, ?_, ?_⟩, ?_⟩
  · rw [aryOf_sf, aryOf_setLast, aryOf_seqTaken]
  · rw [gf_sf_disj _ _ _ _ _ (by decide) (by decide)]
    exact gf_setLast (by decide)
  · rw [gf_sf_disj _ _ _ _ _ (by decide) (by decide)]
    exact (gf_setLast_disj (by decide)).trans gf_seqTaken_mode
  · rw [aryOf_emit, aryOf_sf, aryOf_setLast, aryOf_seqTaken]
  · exact ((((Touches.refl (w := fun a => a = (Reg.ARY_STAT k).addr) d).seqTaken rfl).setLast rfl 10).sf _ _ _ (.inl rfl)).emit _
  · rw [gf_sf_same _ _ _ _ (by decide)]
    exact Nat.mod_eq_of_lt (by simp only [F.ARY_STAT_PW_FAILS]; omega)

/-- The eighth failure raises its source, and the outcome stands. -/
theorem seqLast_unlockFailed (hk : k < 16) : SeqLast k master 10 d (emit (.busWrote master) (unlockFailed k 8 (seqTaken k d))) ∧
    gf (unlockFailed k 8 (seqTaken k d)) (Reg.ARY_STAT k) F.ARY_STAT_PW_FAILS = 8 ∧
    icPending (unlockFailed k 8 (seqTaken k d)) (srcAry 5 k) = true := by
  have eq : unlockFailed k 8 (seqTaken k d) = scoreEvent 0x0060 2 k [] (raise (srcAry 5 k)
    (sf (Reg.ARY_STAT k) F.ARY_STAT_PW_FAILS 8 (setLast k 10 (seqTaken k d)))) := rfl
  have stat : ∀ f e, gf (scoreEvent 0x0060 2 k [] (raise (srcAry 5 k) e)) (Reg.ARY_STAT k) f = gf e (Reg.ARY_STAT k) f := fun f e =>
    ((touches_scoreEvent _ _ _ _ _).gf_eq _ f (by simp only [scored, Reg.ARY_STAT, Reg.ARB_SCORE_SEQ, Reg.ARB_SCORE_LOST]; omega)
      (arrayReg_not_raised (by simp only [Reg.ARY_STAT]; omega))).trans (gf_raise_stat _ hk f e)
  have silent : ∀ e, Silent e (scoreEvent 0x0060 2 k [] (raise (srcAry 5 k) e)) := fun e =>
    (silent_raise (by unfold srcAry; omega) e).trans (silent_scoreEvent _ _ _ _ _)
  rw [eq]
  refine ⟨.intro (silent _).1 ?_ ?_ ?_, ?_, ?_⟩
  · rw [(silent _).aryOf, aryOf_sf, aryOf_setLast, aryOf_seqTaken]
  · rw [stat, gf_sf_disj _ _ _ _ _ (by decide) (by decide)]
    exact gf_setLast (by decide)
  · rw [stat, gf_sf_disj _ _ _ _ _ (by decide) (by decide)]
    exact (gf_setLast_disj (by decide)).trans gf_seqTaken_mode
  · rw [stat, gf_sf_same _ _ _ _ (by decide)]
    rfl
  · exact (scoreEvent_h _ _ _ _ _ (holds_self quiet quiet_free _)).2.2.2 _ (by unfold srcAry; omega)
      (icPending_raise _ _ (by unfold srcAry; omega))

/-! ### Lock (R358, R361, R362) -/

/-- A password is being set for region `i` or removed, where a valid table can take the change. -/
def pwChanging (k i : Nat) (set : Bool) (d : Dev) : Dev :=
  if (pwValid d).isNone then setLast k 13 (seqTaken k d)
  else setLast k 0 (sf (Reg.ARY_STAT k) F.ARY_STAT_PW_BUSY 1 (aryUpd k (fun a =>
    { a with pwWrite := some ⟨i, set, pwCheck d k i (rd d (Reg.ARY_PW k)).toNat⟩ }) (seqTaken k d)))

/-- What the lock of a target does, in the order of its checks. -/
theorem cmdLock_eq (harg : cmdArg d k = (sector, index, page)) (hb : gf d (Reg.ARY_STAT k) F.ARY_STAT_PW_BUSY = 0) :
    cmdLock k (seqTaken k d) =
      if refusal d k sector index page ≠ 0 then setLast k (refusal d k sector index page) (seqTaken k d)
      else if sector = true ∧ k = 1 ∧ 62 ≤ index then setLast k 4 (seqTaken k d)
      else if gb d (Reg.ARY_CMD_ARG k) F.ARY_CMD_ARG_CLR_PW = true then
        if regionState d k sector index = 2 then pwChanging k (regionIdx d k sector index) false d else setLast k 4 (seqTaken k d)
      else if regionState d k sector index = 0 then
        if (rd d (Reg.ARY_PW k)).toNat = 0 ∨ (rd d (Reg.ARY_PW k)).toNat = 2 ^ 64 - 1 then setLast k 12 (seqTaken k d)
        else pwChanging k (regionIdx d k sector index) true d
      else regionSet k sector index 1 (setLast k 0 (seqTaken k d)) := by
  have clr : gb (seqTaken k d) (Reg.ARY_CMD_ARG k) F.ARY_CMD_ARG_CLR_PW = gb d (Reg.ARY_CMD_ARG k) F.ARY_CMD_ARG_CLR_PW := by
    unfold gb gf
    rw [rd_seqTaken_arg]
  unfold cmdLock
  rw [cmdArg_seqTaken, harg]
  dsimp only
  rw [targetCheck_seqTaken hb, regionState_seqTaken, pwValid_seqTaken, rd_seqTaken_pw, clr]
  simp only [Bool.and_eq_true, decide_eq_true_eq, beq_iff_eq, and_assoc]
  rfl

theorem pwChanging_none (h : pwValid d = none) (i : Nat) (set : Bool) : pwChanging k i set d = setLast k 13 (seqTaken k d) :=
  if_pos (by rw [h]; rfl)

/-- The change has been taken, and PW_BUSY stands while it is written. -/
theorem pwChanging_taken (h : pwValid d ≠ none) (i : Nat) (set : Bool) :
    SeqLast k master 0 d (emit (.busWrote master) (pwChanging k i set d)) ∧
    gf (pwChanging k i set d) (Reg.ARY_STAT k) F.ARY_STAT_PW_BUSY = 1 ∧
    aryOf (pwChanging k i set d) k = { aryOf d k with seq := none, pwWrite := some ⟨i, set, pwCheck d k i (rd d (Reg.ARY_PW k)).toNat⟩ } ∧
    Touches (fun a => a = (Reg.ARY_STAT k).addr) d (pwChanging k i set d) := by
  have eq : pwChanging k i set d = setLast k 0 (sf (Reg.ARY_STAT k) F.ARY_STAT_PW_BUSY 1 (aryUpd k (fun a =>
    { a with pwWrite := some ⟨i, set, pwCheck d k i (rd d (Reg.ARY_PW k)).toNat⟩ }) (seqTaken k d))) :=
    if_neg (by rw [Option.isNone_iff_eq_none]; exact h)
  have ary : aryOf (pwChanging k i set d) k =
      { aryOf d k with seq := none, pwWrite := some ⟨i, set, pwCheck d k i (rd d (Reg.ARY_PW k)).toNat⟩ } := by
    rw [eq, aryOf_setLast, aryOf_sf, aryOf_aryUpd, aryOf_seqTaken]
  refine ⟨.intro (by rw [eq]; rfl) (by rw [ary]) ?_ ?_, ?_, ary, ?_⟩
  · rw [eq]
    exact gf_setLast (by decide)
  · rw [eq, gf_setLast_disj (by decide), gf_sf_disj _ _ _ _ _ (by decide) (by decide), gf_aryUpd]
    exact gf_seqTaken_mode
  · rw [eq, gf_setLast_disj (by decide), gf_sf_same _ _ _ _ (by decide)]
    rfl
  · rw [eq]
    exact ((((Touches.refl (w := fun a => a = (Reg.ARY_STAT k).addr) d).seqTaken rfl).aryUpd k _).sf _ _ _ (.inl rfl)).setLast rfl 0

/-! ### Replacing a run of bytes -/

theorem mget_append {α : Type} (l m : FMap α) (a : Nat) : mget (l ++ m) a = (mget l a).or (mget m a) := by
  induction l with
  | nil => rfl
  | cons p l ih =>
    simp only [List.cons_append, mget, ih]
    split <;> rfl

/-- The cells that list the bytes `bs` from `a + i`. -/
def newCells (a i : Nat) (bs : List Byte) : List Host.Cell :=
  ((List.range' i bs.length).zip bs).filterMap (fun p => if p.2 = memDefault (a + p.1) then none else some (a + p.1, p.2))

theorem newCells_cons (a i : Nat) (x : Byte) (bs : List Byte) :
    newCells a i (x :: bs) = (if x = memDefault (a + i) then [] else [(a + i, x)]) ++ newCells a (i + 1) bs := by
  unfold newCells
  simp only [List.length_cons, List.range'_succ, List.zip_cons_cons, List.filterMap_cons]
  split <;> simp_all

theorem mget_newCells_out (a : Nat) (bs : List Byte) : ∀ {i b : Nat}, b < a + i ∨ a + i + bs.length ≤ b → mget (newCells a i bs) b = none := by
  induction bs with
  | nil => exact fun _ => rfl
  | cons x bs ih =>
    intro i b h
    rw [List.length_cons] at h
    rw [newCells_cons, mget_append, ih (by omega), Option.or_none]
    split
    · rfl
    · exact if_neg (by omega)

theorem byteAt_newCells (a : Nat) (bs : List Byte) : ∀ {i j : Nat}, j < bs.length → byteAt (newCells a i bs) (a + i + j) = bs.getD j 0 := by
  induction bs with
  | nil => exact fun h => absurd h (by simp)
  | cons x bs ih =>
    intro i j h
    unfold byteAt mgetD
    rw [newCells_cons, mget_append]
    cases j with
    | zero =>
      rw [mget_newCells_out a bs (by omega)]
      split
      next hx => exact hx.symm
      next => simp [mget]
    | succ j =>
      have rest := ih (i := i + 1) (j := j) (by simpa using h)
      have first : mget (if x = memDefault (a + i) then [] else [(a + i, x)]) (a + i + (j + 1)) = none := by
        split
        · rfl
        · exact if_neg (by omega)
      rw [first, Option.none_or, show a + i + (j + 1) = a + (i + 1) + j by omega]
      exact rest

/-- A run that is replaced reads as its new bytes, and every other byte as before. -/
theorem byteAt_rawReplace (a : Nat) (bs : List Byte) (d : Dev) (b : Nat) :
    byteAt (rawReplace a bs d).mem b = if a ≤ b ∧ b < a + bs.length then bs.getD (b - a) 0 else byteAt d.mem b := by
  have mem : (rawReplace a bs d).mem = d.mem.filter (fun c => decide (c.1 < a)) ++ newCells a 0 bs ++
      d.mem.filter (fun c => decide (a + bs.length ≤ c.1)) := by
    unfold rawReplace newCells
    rw [List.range_eq_range']
  unfold byteAt mgetD
  rw [mem, mget_append, mget_append]
  by_cases hlo : b < a
  · rw [mget_filter_in d.mem (p := fun x => decide (x < a)) (decide_eq_true hlo), mget_newCells_out a bs (.inl hlo),
      mget_filter_out d.mem (p := fun x => decide (a + bs.length ≤ x)) (by simp; omega), if_neg (by omega), Option.or_none, Option.or_none]
  · rw [mget_filter_out d.mem (p := fun x => decide (x < a)) (decide_eq_false hlo), Option.none_or]
    by_cases hhi : a + bs.length ≤ b
    · rw [mget_newCells_out a bs (.inr hhi), mget_filter_in d.mem (p := fun x => decide (a + bs.length ≤ x)) (decide_eq_true hhi),
        if_neg (by omega), Option.none_or]
    · have here := byteAt_newCells a bs (i := 0) (j := b - a) (by omega)
      rw [Nat.add_zero, Nat.add_sub_cancel' (by omega)] at here
      rw [mget_filter_out d.mem (p := fun x => decide (a + bs.length ≤ x)) (by simp; omega), if_pos (by omega), Option.or_none]
      exact here

/-- A run of bytes that has been replaced reads as its new bytes. -/
theorem rawBytes_rawReplace (a : Nat) (bs : List Byte) (d : Dev) : rawBytes (rawReplace a bs d) a bs.length = bs := by
  unfold rawBytes
  refine List.ext_getElem (by simp) fun i _ h => ?_
  rw [List.getElem_map, List.getElem_range, byteAt_rawReplace, if_pos (by omega), Nat.add_sub_cancel_left, List.getD_eq_getElem _ _ h]

/-! ### The table's next version (R359, R361) -/

theorem pwNext_length {b : List Byte} {w : PwWrite} (hb : b.length = 0x1000) (hr : w.region < 254) (hc : w.check.length = 8) :
    (pwNext b w).length = 0x1000 := by
  have entry : (if w.set = true then w.check ++ [1] ++ List.replicate 7 0xFF else List.replicate 16 0xFF : List Byte).length = 16 := by
    split <;> simp [hc]
  unfold pwNext
  simp only [List.length_append, List.length_take, List.length_drop, List.length_replicate, leBytes_length, entry, hb]
  omega

/-- The region that an entry of the table holds the password of. -/
def pwTarget (w : PwWrite) : Bool × Nat := (decide (128 ≤ w.region), if 128 ≤ w.region then (w.region - 128) % 64 else w.region % 8 * 16)

/-- The device once the table's next version stands in slot `t`. -/
def pwStored (k : Nat) (w : PwWrite) (j t : Nat) (d : Dev) : Dev :=
  regionSet k (pwTarget w).1 (pwTarget w).2 (bit w.set) (sf (Reg.ARY_STAT k) F.ARY_STAT_PW_BUSY 0
    (aryUpd k (fun a => { a with pwWrite := none }) (rawReplace (pwSlotAt t) (pwNext (pwSlot d j) w) d)))

theorem pwWritten_none (h : (aryOf d k).pwWrite = none) : pwWritten k d = d := by
  unfold pwWritten
  rw [h]

theorem pwWritten_stored {w : PwWrite} {j x : Nat} (hw : (aryOf d k).pwWrite = some w) (hj : pwValid d = some j)
    (hx : (List.range 16).find? (fun x => decide (x > j % 16) && (pwSlot d (j / 16 * 16 + x)).all (fun b => b == 0xFF)) = some x) :
    pwWritten k d = pwStored k w j (j / 16 * 16 + x) d := by
  unfold pwWritten
  rw [hw]
  dsimp only
  rw [hj]
  dsimp only
  rw [hx]
  by_cases hs : 128 ≤ w.region
  · simp [pwStored, pwTarget, hs]
  · simp [pwStored, pwTarget, hs]

theorem pwTarget_sector {w : PwWrite} (h : (pwTarget w).1 = true) : (pwTarget w).2 < 64 := by
  unfold pwTarget at *
  rw [if_pos (by simpa using h)]
  omega

theorem pwStored_written {w : PwWrite} {j t : Nat} (hr : w.region < 254) (hc : w.check.length = 8) :
    pwSlot (pwStored k w j t d) t = pwNext (pwSlot d j) w ∧
    (∀ b, b < pwSlotAt t ∨ pwSlotAt t + 0x1000 ≤ b → byteAt (pwStored k w j t d).mem b = byteAt d.mem b) ∧
    (aryOf (pwStored k w j t d) k).pwWrite = none ∧ gf (pwStored k w j t d) (Reg.ARY_STAT k) F.ARY_STAT_PW_BUSY = 0 ∧
    regionState (pwStored k w j t d) k (pwTarget w).1 (pwTarget w).2 = bit w.set ∧
    (∀ r : Reg, r.addr ≠ (Reg.ARY_STAT k).addr → ¬ regionRegs k r.addr → rd (pwStored k w j t d) r = rd d r) := by
  have len : (pwNext (pwSlot d j) w).length = 0x1000 := pwNext_length (rawBytes_length _ _ _) hr hc
  have mem : (pwStored k w j t d).mem = (rawReplace (pwSlotAt t) (pwNext (pwSlot d j) w) d).mem := by
    unfold pwStored
    rw [regionSet_eq]
    rfl
  refine ⟨?_, fun b hb => ?_, ?_, ?_, regionState_regionSet (by unfold bit; split <;> decide), fun r hs hreg => ?_⟩
  · have whole := rawBytes_rawReplace (pwSlotAt t) (pwNext (pwSlot d j) w) d
    rw [len] at whole
    unfold pwSlot rawBytes at whole ⊢
    rw [mem]
    exact whole
  · rw [mem, byteAt_rawReplace, len, if_neg (by omega)]
  · unfold pwStored
    rw [regionSet_eq, aryOf_sf, aryOf_sf, aryOf_aryUpd]
  · exact (gf_regionSet_stat _).trans (gf_sf_same _ _ _ _ (by decide))
  · have other : r.addr ≠ (regionReg k (pwTarget w).1 (pwTarget w).2).addr := fun h => hreg (h ▸ regionReg_mem pwTarget_sector)
    unfold pwStored
    rw [regionSet_eq, rd_sf_ne _ _ _ other, rd_sf_ne _ _ _ hs]
    rfl

/-! ### A stack turns on (R303, R304, R308, R363) -/

/-- The calibration row of a stack passes its checks. -/
abbrev calGood (c : List Byte) : Prop := fieldAt c 0 4 = 0x5EC7CA1B ∧ fieldAt c 4 2 = 0x0100 ∧ crc32 (c.take 0xFFC) = fieldAt c 0xFFC 4

/-- What ARY_GEOM shows of a calibration row that passes. -/
def geomLoaded (k : Nat) (c : List Byte) (d : Dev) : Dev :=
  d |> sf (Reg.ARY_GEOM k) F.ARY_GEOM_LOADED 1 |> sf (Reg.ARY_GEOM k) F.ARY_GEOM_BLOCKS (fieldAt c 8 2)
    |> sf (Reg.ARY_GEOM k) F.ARY_GEOM_BAD_CNT (fieldAt c 0x0A 1) |> sf (Reg.ARY_GEOM k) F.ARY_GEOM_PSEC (fieldAt c 0x0B 1 % 2)
    |> sf (Reg.ARY_GEOM k) F.ARY_GEOM_SSR (fieldAt c 0x0B 1 / 2 % 2)

/-- The stack's senses, registers and waiting reads are gone, and ARY_GEOM is clear. -/
def stackCleared (k : Nat) (d : Dev) : Dev :=
  wr (Reg.ARY_GEOM k) 0 (aryUpd k (fun a => { a with cur := [], want := [], dreg := [], creg := [], reads := [], cont := [], cross := none }) d)

theorem aryOf_geomLoaded (c : List Byte) : aryOf (geomLoaded k c d) k = aryOf d k := rfl

theorem aryOf_stackCleared : aryOf (stackCleared k d) k =
    { aryOf d k with cur := [], want := [], dreg := [], creg := [], reads := [], cont := [], cross := none } := aryOf_aryUpd _ _ _

/-- The load of a stack whose region states stand. -/
theorem stackLoad_eq (h : (aryOf d k).prot = true) : stackLoad k d =
    if calGood (calRowBytes d k) then geomLoaded k (calRowBytes d k) (aryUpd k (fun a => { a with bad := calBad d k }) (stackCleared k d))
    else raise (srcAry 7 k) (sf (Reg.ARY_GEOM k) F.ARY_GEOM_CAL_BAD 1 (stackCleared k d)) := by
  have good : ∀ c, (aryOf (geomLoaded k c (aryUpd k (fun a => { a with bad := calBad d k }) (stackCleared k d))) k).prot = true := fun c => by
    rw [aryOf_geomLoaded, aryOf_aryUpd, aryOf_stackCleared]
    exact h
  have bad : (aryOf (raise (srcAry 7 k) (sf (Reg.ARY_GEOM k) F.ARY_GEOM_CAL_BAD 1 (stackCleared k d))) k).prot = true := by
    rw [aryOf_raise, aryOf_sf, aryOf_stackCleared]
    exact h
  unfold stackLoad
  generalize calRowBytes d k = c
  by_cases hc : calGood c
  · have ok : (decide (fieldAt c 0 4 = 0x5EC7CA1B) && decide (fieldAt c 4 2 = 0x0100) && decide (crc32 (c.take 0xFFC) = fieldAt c 0xFFC 4)) = true := by
      simpa only [Bool.and_eq_true, decide_eq_true_eq, and_assoc] using hc
    rw [if_pos hc]
    simp only [ok, if_true]
    exact if_pos (good c)
  · have ok : (decide (fieldAt c 0 4 = 0x5EC7CA1B) && decide (fieldAt c 4 2 = 0x0100) && decide (crc32 (c.take 0xFFC) = fieldAt c 0xFFC 4)) = false := by
      rw [Bool.eq_false_iff]
      simpa only [ne_eq, Bool.and_eq_true, decide_eq_true_eq, and_assoc] using hc
    rw [if_neg hc]
    simp only [ok, Bool.false_eq_true, if_false]
    exact if_pos bad

theorem geomLoaded_shows (c : List Byte) (e : Dev) : gf (geomLoaded k c e) (Reg.ARY_GEOM k) F.ARY_GEOM_LOADED = 1 ∧
    gf (geomLoaded k c e) (Reg.ARY_GEOM k) F.ARY_GEOM_CAL_BAD = gf e (Reg.ARY_GEOM k) F.ARY_GEOM_CAL_BAD ∧
    gf (geomLoaded k c e) (Reg.ARY_GEOM k) F.ARY_GEOM_BLOCKS = fieldAt c 8 2 % 1024 := by
  have below : ∀ (f : Fld) (d : Dev), (f.lo + f.len ≤ 16 ∨ 26 ≤ f.lo) → ∀ a b c,
      gf (sf (Reg.ARY_GEOM k) F.ARY_GEOM_SSR c (sf (Reg.ARY_GEOM k) F.ARY_GEOM_PSEC b (sf (Reg.ARY_GEOM k) F.ARY_GEOM_BAD_CNT a d)))
        (Reg.ARY_GEOM k) f = gf d (Reg.ARY_GEOM k) f := by
    intro f d hf a b c
    rw [gf_sf_disj _ _ _ _ _ (by decide), gf_sf_disj _ _ _ _ _ (by decide), gf_sf_disj _ _ _ _ _ (by decide)]
    all_goals
      simp only [F.ARY_GEOM_SSR, F.ARY_GEOM_PSEC, F.ARY_GEOM_BAD_CNT]
      omega
  unfold geomLoaded
  refine ⟨?_, ?_, ?_⟩
  · rw [below _ _ (by decide), gf_sf_disj _ _ _ _ _ (by decide) (by decide), gf_sf_same _ _ _ _ (by decide)]
    rfl
  · rw [below _ _ (by decide), gf_sf_disj _ _ _ _ _ (by decide) (by decide), gf_sf_disj _ _ _ _ _ (by decide) (by decide)]
  · rw [below _ _ (by decide), gf_sf_same _ _ _ _ (by decide)]
    rfl

/-- PD_Sk is on, before its controller loads (R304). -/
def stackOnDev (k : Nat) (d : Dev) : Dev := domsOn (2 ^ (32 + k)) (setBoot { d.boot with rising := d.boot.rising - 2 ^ (32 + k) } d)

theorem domOn_stackOnDev (hk : k < 16) : domOn (stackOnDev k d) (32 + k) = true := by
  unfold domOn stackOnDev domsOn
  rw [rd_wr_same, BitVec.getLsbD_or, BitVec.getLsbD_ofNat, Nat.testBit_two_pow_self]
  simp
  omega

theorem stackOn_off (h : rising d (32 + k) = false) : stackOn k d = d := if_neg (by rw [h]; decide)

theorem kept_stackLoad (h : (aryOf d k).prot = true) : (stackLoad k d).kept = d.kept := by
  rw [stackLoad_eq h]
  split
  · rfl
  · exact kept_raise _ _

/-- Nothing but the stack's load follows when it turns on in a quiet array. -/
theorem stackOn_quiet (hr : rising d (32 + k) = true) (hq : ArrayQuiet d) (hp : (aryOf d k).prot = true) :
    stackOn k d = stackLoad k (stackOnDev k d) := by
  have quiet : ArrayQuiet (stackOnDev k d) := hq
  have kept : (stackLoad k (stackOnDev k d)).kept = (stackOnDev k d).kept := kept_stackLoad hp
  unfold stackOn
  rw [if_pos hr]
  exact (congrArg aryKick (quiet.eraseKick kept)).trans (quiet.aryKick kept)

theorem rd_geomLoaded_ne (c : List Byte) {r : Reg} (h : r.addr ≠ (Reg.ARY_GEOM k).addr) : rd (geomLoaded k c e) r = rd e r := by
  unfold geomLoaded
  rw [rd_sf_ne _ _ _ h, rd_sf_ne _ _ _ h, rd_sf_ne _ _ _ h, rd_sf_ne _ _ _ h, rd_sf_ne _ _ _ h]

theorem rd_stackCleared_ne {r : Reg} (h : r.addr ≠ (Reg.ARY_GEOM k).addr) : rd (stackCleared k e) r = rd e r := rd_wr_ne _ _ h

theorem gf_stackCleared (f : Fld) : gf (stackCleared k e) (Reg.ARY_GEOM k) f = 0 := by
  unfold stackCleared
  rw [gf_wr_same]
  simp [fldGet]

theorem geom_not_raised (hk : k < 16) : ¬ raised (Reg.ARY_GEOM k).addr :=
  arrayReg_not_raised (by simp only [Reg.ARY_GEOM]; omega)

theorem domStat_not_raised : ¬ raised Reg.PMU_DOM_STAT.addr := by unfold raised; decide

theorem domStat_ne_geom : Reg.PMU_DOM_STAT.addr ≠ (Reg.ARY_GEOM k).addr := by
  simp only [Reg.PMU_DOM_STAT, Reg.ARY_GEOM]
  omega

/-- What the load of a stack leaves: its state, ARY_GEOM as its calibration row says, or CAL_BAD and its source. -/
theorem stackLoad_loaded (hk : k < 16) (hp : (aryOf d k).prot = true) :
    rd (stackLoad k d) Reg.PMU_DOM_STAT = rd d Reg.PMU_DOM_STAT ∧ (aryOf (stackLoad k d) k).reads = [] ∧ (aryOf (stackLoad k d) k).cur = [] ∧
    (calGood (calRowBytes d k) → gf (stackLoad k d) (Reg.ARY_GEOM k) F.ARY_GEOM_LOADED = 1 ∧
      gf (stackLoad k d) (Reg.ARY_GEOM k) F.ARY_GEOM_CAL_BAD = 0 ∧
      gf (stackLoad k d) (Reg.ARY_GEOM k) F.ARY_GEOM_BLOCKS = fieldAt (calRowBytes d k) 8 2 % 1024) ∧
    (¬ calGood (calRowBytes d k) → gf (stackLoad k d) (Reg.ARY_GEOM k) F.ARY_GEOM_LOADED = 0 ∧
      gf (stackLoad k d) (Reg.ARY_GEOM k) F.ARY_GEOM_CAL_BAD = 1 ∧ icPending (stackLoad k d) (srcAry 7 k) = true) ∧
    Touches (fun a => a = (Reg.ARY_GEOM k).addr) d (stackLoad k d) := by
  have cleared : Touches (fun a => a = (Reg.ARY_GEOM k).addr) d (stackCleared k d) := ((Touches.refl d).aryUpd k _).wr _ _ (.inl rfl)
  rw [stackLoad_eq hp]
  generalize calRowBytes d k = c
  by_cases hc : calGood c
  · rw [if_pos hc]
    obtain ⟨loaded, bad, blocks⟩ := geomLoaded_shows (k := k) c (aryUpd k (fun a => { a with bad := calBad d k }) (stackCleared k d))
    refine ⟨(rd_geomLoaded_ne c domStat_ne_geom).trans (rd_stackCleared_ne domStat_ne_geom), ?_, ?_,
      fun _ => ⟨loaded, bad.trans (gf_stackCleared _), blocks⟩, fun h => absurd hc h, ?_⟩
    · rw [aryOf_geomLoaded, aryOf_aryUpd, aryOf_stackCleared]
    · rw [aryOf_geomLoaded, aryOf_aryUpd, aryOf_stackCleared]
    · unfold geomLoaded
      exact (((((cleared.aryUpd k _).sf _ _ _ (.inl rfl)).sf _ _ _ (.inl rfl)).sf _ _ _ (.inl rfl)).sf _ _ _ (.inl rfl)).sf _ _ _ (.inl rfl)
  · rw [if_neg hc]
    refine ⟨?_, ?_, ?_, fun h => absurd h hc, fun _ => ⟨?_, ?_, icPending_raise _ _ (by unfold srcAry; omega)⟩,
      (cleared.sf _ _ _ (.inl rfl)).raise _⟩
    · rw [rd_raise _ _ _ domStat_not_raised, rd_sf_ne _ _ _ domStat_ne_geom, rd_stackCleared_ne domStat_ne_geom]
    · rw [aryOf_raise, aryOf_sf, aryOf_stackCleared]
    · rw [aryOf_raise, aryOf_sf, aryOf_stackCleared]
    · rw [gf_raise _ _ _ _ (geom_not_raised hk), gf_sf_disj _ _ _ _ _ (by decide) (by decide), gf_stackCleared]
    · rw [gf_raise _ _ _ _ (geom_not_raised hk), gf_sf_same _ _ _ _ (by decide)]
      rfl

/-! ### The obligation -/

/-- The command word of an unlock or a lock, as the third write of a sequence of its master. -/
theorem commandWord_taken {w : Nat} {f : Dev → Dev} (hk : k < 16) (hq : ArrayQuiet d) (hheld : d.boot.held = [])
    (hc : localCause d (arrayBase k + cmdOff) 4 true = none) (hseq : (aryOf d k).seq = some (2, master)) (hw : w < 256)
    (hf : seqThird k master (w + 256 * (255 - w)) d = f (seqTaken k d)) :
    xCommandWord master k w d = emit (.busWrote master) (f (seqTaken k d)) := by
  have cause : localCause d (arrayBase k + cmdOff) (leBytes 4 (w + 256 * (255 - w))).length true = none := by
    rw [leBytes_length]
    exact hc
  unfold xCommandWord
  rw [windowWrite_quiet hk (by decide) hq hheld cause (fun h => absurd h (by decide)), winWrite_third (by omega) hseq, hf]

end

/-- Settles O24: an unlock and a lock by the checks that each makes in order; the table's next version and the load of a stack by what each
stores. -/
theorem passwordsGuardRegions : Obligations.PasswordsGuardRegions := by
  intro s master k hs hm hk d0 a0 stat field regions sector index page
  refine ⟨?_, ?_, ?_, ?_, ?_⟩
  · intro hheld hc hq hseq hbusy last ended g code st i pw fails becomes fits
    have unlock : ∀ {P : Dev → Prop}, P (emit (.busWrote master) (cmdUnlock k (seqTaken k d0))) → Completes (.aryPasswordUnlock master k) s P :=
      fun hP => completes_sys (f := xCommandWord master k 0xC5) rfl (by simp [WellFormed.lt, hm, hk]) hs
        (by rw [commandWord_taken hk hq hheld hc hseq (by decide) (seqThird_unlock hbusy)]; exact hP)
    have lock : ∀ {P : Dev → Prop}, P (emit (.busWrote master) (cmdLock k (seqTaken k d0))) → Completes (.aryLock master k) s P :=
      fun hP => completes_sys (f := xCommandWord master k 0xC6) rfl (by simp [WellFormed.lt, hm, hk]) hs
        (by rw [commandWord_taken hk hq hheld hc hseq (by decide) (seqThird_lock hbusy)]; exact hP)
    have unlocks := cmdUnlock_eq (sector := sector) (index := index) (page := page) rfl hbusy
    have locks := cmdLock_eq (sector := sector) (index := index) (page := page) rfl hbusy
    have same : code = refusal d0 k sector index page := rfl
    have inRange : refusal d0 k sector index page = 0 → sector = true → index < 64 := fun h hsec => by
      rw [hsec] at h
      exact index_of_refusal h
    rw [same]
    refine ⟨fun hcode => ⟨unlock ?_, lock ?_⟩, fun hcode => ?_, fun hcode => ?_⟩
    · rw [unlocks, if_pos hcode]
      exact seqEnded_setLast refusal_lt
    · rw [locks, if_pos hcode]
      exact seqEnded_setLast refusal_lt
    · rw [if_neg (fun h => h hcode)] at unlocks
      refine ⟨fun hf => unlock ?_, fun hf hst => unlock ?_, fun hf hst hv => unlock ?_, fun t hf hst hv =>
        ⟨fun hfit => unlock ?_, fun hfit hless => unlock ?_, fun hfit hlast => unlock ?_⟩⟩
      · rw [unlocks, if_pos hf]
        exact seqEnded_setLast (by decide)
      all_goals rw [if_neg (Nat.not_le.2 hf)] at unlocks
      · rw [unlocks, if_pos hst]
        exact seqEnded_setLast (by decide)
      all_goals rw [if_neg hst, hv] at unlocks
      · rw [unlocks]
        exact seqEnded_setLast (by decide)
      all_goals rw [Option.elim_some] at unlocks
      · rw [unlocks, if_pos hfit]
        exact ⟨(seqLast_regionSet (by decide)).1, (seqLast_regionSet (by decide)).2, touches_regionSet (inRange hcode)⟩
      · rw [unlocks, if_neg hfit]
        exact seqEnded_unlockFailed (Nat.succ_lt_succ hless)
      · rw [unlocks, if_neg hfit, show gf s.dev (Reg.ARY_STAT k) F.ARY_STAT_PW_FAILS + 1 = 8 from congrArg (· + 1) hlast]
        exact seqLast_unlockFailed hk
    · intro c clr own ill changes
      have taking : ∀ set, cmdLock k (seqTaken k d0) = pwChanging k i set d0 →
          Completes c s (if pwValid d0 = none then ended 13 else changes set) := fun set h => by
        by_cases hv : pwValid d0 = none
        · rw [if_pos hv]
          refine lock ?_
          rw [h, pwChanging_none hv]
          exact seqEnded_setLast (by decide)
        · rw [if_neg hv]
          refine lock ?_
          rw [h]
          obtain ⟨last, busy, ary, touches⟩ := pwChanging_taken (master := master) (k := k) hv i set
          exact ⟨last, busy, ary, touches.emit _⟩
      rw [if_neg (fun h => h hcode)] at locks
      refine ⟨fun hown => lock ?_, fun hown hclr hst => lock ?_, fun hown hclr hst => taking _ ?_, fun hown hclr hst hill => lock ?_,
        fun hown hclr hst hill => taking _ ?_, fun hown hclr hst => lock ?_⟩
      · rw [locks, if_pos hown]
        exact seqEnded_setLast (by decide)
      all_goals rw [if_neg hown] at locks
      · rw [locks, if_pos hclr, if_neg hst]
        exact seqEnded_setLast (by decide)
      · rw [locks, if_pos hclr, if_pos hst]
      all_goals rw [if_neg (Bool.eq_false_iff.1 hclr)] at locks
      · rw [locks, if_pos hst, if_pos hill]
        exact seqEnded_setLast (by decide)
      · rw [locks, if_pos hst, if_neg hill]
      · rw [locks, if_neg hst]
        exact ⟨(seqLast_regionSet (by decide)).1, (seqLast_regionSet (by decide)).2, touches_regionSet (inRange hcode)⟩
  · intro hw
    exact completes_sys (f := pwWritten k) rfl (by simp [WellFormed.lt, hk]) hs (pwWritten_none hw)
  · intro w j x hw hr hc hj hx
    refine completes_sys (f := pwWritten k) rfl (by simp [WellFormed.lt, hk]) hs ?_
    rw [pwWritten_stored hw hj hx]
    exact pwStored_written hr hc
  · intro hr
    exact completes_sys (f := stackOn k) rfl (by simp [WellFormed.lt, hk]) hs (stackOn_off hr)
  · intro hr hq hp
    refine completes_sys (f := stackOn k) rfl (by simp [WellFormed.lt, hk]) hs ?_
    rw [stackOn_quiet hr hq hp]
    obtain ⟨domStat, reads, cur, good, bad, touches⟩ := stackLoad_loaded (d := stackOnDev k d0) hk hp
    have on : domOn (stackLoad k (stackOnDev k d0)) (32 + k) = true := by
      unfold domOn
      rw [domStat]
      exact domOn_stackOnDev hk
    have power : Touches (fun a => a = (Reg.ARY_GEOM k).addr ∨ a = Reg.PMU_DOM_STAT.addr) d0 (stackOnDev k d0) :=
      (Touches.mk (Touches.refl d0)).wr _ _ (.inl (.inr rfl))
    exact ⟨on, reads, cur, good, bad, power.trans (touches.mono fun _ => .inl)⟩
end Sys2Proof.Machine
end

/-! ## Programs and erases -/

section
/-! SUPPORT and settlement of O25. -/

namespace Sys2Proof.Machine

section
variable {d e : Dev} {k g : Nat} {o : AryOp}

/-! ### The one operation of a stack -/

theorem mget_single {α : Type} (a : Nat) (x : α) : mget [(a, x)] a = some x := if_pos rfl

theorem mput_single {α : Type} (a : Nat) (x y : α) : mput [(a, x)] a y = [(a, y)] := by
  unfold mput
  rw [if_neg (Nat.lt_irrefl a), if_pos rfl]

theorem mdel_single {α : Type} (a : Nat) (x : α) : mdel [(a, x)] a = [] := by simp [mdel]

/-- The one operation of stack `k` becomes `o`. -/
def opPut (k g : Nat) (o : AryOp) (d : Dev) : Dev := aryUpd k (fun a => { a with ops := mput a.ops g o }) d

theorem ops_opPut {p : AryOp} (h : (aryOf d k).ops = [(g, o)]) : (aryOf (opPut k g p d) k).ops = [(g, p)] := by
  unfold opPut
  rw [aryOf_aryUpd, h, mput_single]

/-! ### Senses that start (R294 to R298) -/

theorem sensesStart_idle (h : (aryOf d k).want = []) : sensesStart k d = d := by
  unfold sensesStart
  rw [h]
  rfl

theorem engsOnly_sensesStart (k : Nat) (d : Dev) : EngsOnly d (sensesStart k d) :=
  EngsOnly.foldl (fun _ _ h => h.senseStart _ _) _ (EngsOnly.refl d)

/-- A sense that starts is no affair of the operations and their grants. -/
theorem ops_senseStart (p : Nat) (d : Dev) : (aryOf (senseStart k p d) k).ops = (aryOf d k).ops ∧ (senseStart k p d).arys.grants = d.arys.grants := by
  unfold senseStart
  dsimp only
  split
  · exact ⟨rfl, rfl⟩
  · split
    · exact ⟨rfl, rfl⟩
    · exact ⟨by rw [aryOf_aryUpd], rfl⟩

theorem ops_sensesStart (k : Nat) (d : Dev) : (aryOf (sensesStart k d) k).ops = (aryOf d k).ops ∧ (sensesStart k d).arys.grants = d.arys.grants := by
  unfold sensesStart
  generalize (aryOf d k).want.map (fun s => pagePlane d s.page) = l
  induction l generalizing d with
  | nil => exact ⟨rfl, rfl⟩
  | cons p l ih =>
    obtain ⟨ops, grants⟩ := ops_senseStart (k := k) p d
    exact ⟨(ih _).1.trans ops, (ih _).2.trans grants⟩

/-! ### Grants (R345, R346) -/

theorem engsOnly_grantBack (k : Nat) (d : Dev) : EngsOnly d (grantBack k d) := by
  unfold grantBack
  dsimp only
  split <;> split <;> exact ⟨_, _, rfl⟩

theorem aryOf_grantBack (k j : Nat) (d : Dev) : aryOf (grantBack k d) j = aryOf d j := by
  unfold grantBack
  dsimp only
  split <;> split <;> rfl

/-- A stack none of whose operations runs keeps no grant. -/
theorem grantBack_grants (h : aryRunning d k = false) : k ∉ (grantBack k d).arys.grants := by
  have gone : k ∉ d.arys.grants.filter (fun j => j != k) := by simp
  unfold grantBack
  simp only [h, Bool.false_eq_true, if_false]
  split
  · exact gone
  · exact gone

theorem aryRunning_single (h : (aryOf d k).ops = [(g, o)]) : aryRunning d k = o.runs := by
  unfold aryRunning
  rw [h]
  simp

/-- A grant is free for stack `k`. -/
abbrev grantFree (k : Nat) (d : Dev) : Prop := k ∉ d.arys.grants ∧ d.arys.grants.length < 8 ∧ d.arys.waitq = []

/-- Stack `k` has been given a grant. -/
def granted (k : Nat) (d : Dev) : Dev := { d with arys := { d.arys with grants := d.arys.grants ++ [k] } }

theorem grantAsk_free (h : grantFree k d) : grantAsk k d = opsRun k (granted k d) := by
  obtain ⟨none, room, queue⟩ := h
  unfold grantAsk
  rw [if_neg (by simpa using none), if_neg (by simp [queue]), if_pos ⟨room, queue⟩]
  rfl

/-! ### An operation runs (R346, R347) -/

/-- An operation that a grant lets run now. -/
def AryOp.running (o : AryOp) (d : Dev) : AryOp := { o with wait := false, bySlot := false, begun := true, since := fastTime d }

/-- No read slot is open in stack `k`. -/
def slotShut (k : Nat) (d : Dev) : Dev :=
  if (aryOf d k).ops.any (fun p => p.2.bySlot) then d else sf (Reg.ARY_RD_STAT k) F.ARY_RD_STAT_SUSPENDED 0 d

theorem slotShut_single (h : (aryOf d k).ops = [(g, o)]) (hs : o.bySlot = false) :
    slotShut k d = sf (Reg.ARY_RD_STAT k) F.ARY_RD_STAT_SUSPENDED 0 d := if_neg (by simp [h, hs])

/-- An operation that had begun runs on. -/
theorem opRun_begun (h : (aryOf d k).ops = [(g, o)]) (hb : o.begun = true) :
    opRun k g d = sf (Reg.ARY_RD_STAT k) F.ARY_RD_STAT_SUSPENDED 0 (opPut k g (o.running d) d) := by
  have shut : slotShut k (opPut k g (o.running d) d) = _ := slotShut_single (ops_opPut h) rfl
  unfold opRun
  rw [h, mget_single]
  simp only [hb, if_true, Bool.true_eq_false, false_and, if_false]
  exact shut

/-- The one operation that waits is the one that runs. -/
theorem opsRun_single (h : (aryOf d k).ops = [(g, o)]) (hw : o.wait = true) : opsRun k d = opRun k g d := by
  unfold opsRun
  rw [h, show [(g, o)].filter (fun p => p.2.wait) = [(g, o)] from List.filter_cons_of_pos hw]
  rfl

/-! ### Suspends (R294 to R297, R342) -/

theorem aryUpd_congr {f f' : Ary → Ary} (h : f (aryOf d k) = f' (aryOf d k)) : aryUpd k f d = aryUpd k f' d :=
  congrArg (fun a => { d with arys := { d.arys with st := mput d.arys.st k a } }) h

/-- The one operation is suspended: the grant goes back, and what waits may sense. -/
theorem suspended_single {p : AryOp} (h : (aryOf d k).ops = [(g, p)]) (hr : p.runs = false) :
    (aryOf (sensesStart k (grantBack k d)) k).ops = [(g, p)] ∧ k ∉ (sensesStart k (grantBack k d)).arys.grants ∧
    EngsOnly d (sensesStart k (grantBack k d)) := by
  obtain ⟨ops, grants⟩ := ops_sensesStart k (grantBack k d)
  refine ⟨ops.trans ((congrArg Ary.ops (aryOf_grantBack k k d)).trans h), ?_, (engsOnly_grantBack k d).trans (engsOnly_sensesStart k _)⟩
  rw [grants]
  exact grantBack_grants ((aryRunning_single h).trans hr)

/-- An operation that gives way to a read slot. -/
def AryOp.slotted (o : AryOp) : AryOp := { o with bySlot := true, byCmd := o.held, held := false }

theorem slotOpen_eq (h : (aryOf d k).ops = [(g, o)]) : slotOpen k g d =
    sensesStart k (grantBack k (sf (Reg.ARY_RD_STAT k) F.ARY_RD_STAT_SUSPENDED 1
      (cntAdd (Reg.ARY_SUSP_CNT k) F.ARY_SUSP_CNT_COUNT F.ARY_SUSP_CNT_OVF 1 (srcAry 8 k) (opPut k g o.slotted d)))) := by
  unfold slotOpen
  rw [h, mget_single]
  rfl

/-- A read slot opens, and is counted. -/
theorem slotOpen_opens (hk : k < 16) (h : (aryOf d k).ops = [(g, o)]) :
    gb (slotOpen k g d) (Reg.ARY_RD_STAT k) F.ARY_RD_STAT_SUSPENDED = true ∧ (aryOf (slotOpen k g d) k).ops = [(g, o.slotted)] ∧
    k ∉ (slotOpen k g d).arys.grants ∧ gf (slotOpen k g d) (Reg.ARY_SUSP_CNT k) F.ARY_SUSP_CNT_COUNT =
      min (gf d (Reg.ARY_SUSP_CNT k) F.ARY_SUSP_CNT_COUNT + 1) 0x7FFFFFFF ∧
    Touches (fun a => a = (Reg.ARY_SUSP_CNT k).addr ∨ a = (Reg.ARY_RD_STAT k).addr) d (slotOpen k g d) := by
  have counted : (aryOf (sf (Reg.ARY_RD_STAT k) F.ARY_RD_STAT_SUSPENDED 1 (cntAdd (Reg.ARY_SUSP_CNT k) F.ARY_SUSP_CNT_COUNT
      F.ARY_SUSP_CNT_OVF 1 (srcAry 8 k) (opPut k g o.slotted d))) k).ops = [(g, o.slotted)] := by
    rw [aryOf_sf, aryOf_cntAdd, ops_opPut h]
  obtain ⟨ops, grants, engs⟩ := suspended_single counted (by simp [AryOp.slotted, AryOp.runs])
  rw [slotOpen_eq h]
  refine ⟨?_, ops, grants, ?_, ?_⟩
  · unfold gb
    rw [engs.gf, gf_sf_same _ _ _ _ (by decide)]
    rfl
  · rw [engs.gf, gf_sf_ne _ _ _ _ (by simp [Reg.ARY_SUSP_CNT, Reg.ARY_RD_STAT]), gf_cntAdd _ _ _ _ _ _ (by decide) (by decide) (by decide)
      (arrayReg_not_raised (by simp only [Reg.ARY_SUSP_CNT]; omega))]
    rfl
  · exact ((((Touches.refl d).aryUpd k _).cntAdd _ _ _ _ _ (.inl (.inl rfl))).sf _ _ _ (.inl (.inr rfl))).trans engs.touches

/-- A sense that waits suspends the running operation of its group, where AUTO_SUSP allows it. -/
theorem autoSuspend_waited {x : Sense} (h : (aryOf d k).ops = [(g, o)]) (hr : o.runs = true) (hx : x ∈ (aryOf d k).want)
    (hp : pagePlane d x.page / 32 = g) :
    autoSuspend k g d = if gb d (Reg.ARY_RD_CTL k) F.ARY_RD_CTL_AUTO_SUSP = true then slotOpen k g d else d := by
  have waited : (aryOf d k).want.any (fun s => pagePlane d s.page / 32 == g) = true := List.any_eq_true.2 ⟨x, hx, by simpa using hp⟩
  unfold autoSuspend
  rw [h, mget_single]
  simp only [hr, waited, Bool.true_and, Bool.and_true]

theorem autoSuspend_idle (h : (aryOf d k).want = []) (g : Nat) : autoSuspend k g d = d := by
  unfold autoSuspend
  rw [h]
  split
  · rfl
  · exact if_neg (by simp)

/-- A held suspend takes effect. -/
theorem arySuspendDue_held (h : (aryOf d k).ops = [(g, o)]) (hh : o.held = true) (hr : o.runs = true) :
    arySuspendDue k d = sensesStart k (grantBack k (opPut k g { o with held := false, byCmd := true } d)) := by
  unfold arySuspendDue opPut
  rw [aryUpd_congr (f' := fun a => { a with ops := mput a.ops g { o with held := false, byCmd := true } })]
  rw [h, mput_single]
  simp [mmap, hh, hr]

/-! ### Grants that are given (R346) -/

theorem grantGive_none (h : d.arys.waitq = [] ∨ 8 ≤ d.arys.grants.length) : grantGive d = d := by
  unfold grantGive
  rcases h with h | h
  · rw [h]
  · split
    · rfl
    · exact if_neg (Nat.not_lt.2 h)

/-- The first stack of the queue has left it. -/
def queueNext (rest : List Nat) (d : Dev) : Dev := { d with arys := { d.arys with waitq := rest } }

theorem grantGive_first {rest : List Nat} (hq : d.arys.waitq = k :: rest) (hg : d.arys.grants.length < 8) (h : (aryOf d k).ops = [(g, o)])
    (hw : o.wait = true) : grantGive d = opsRun k (granted k (queueNext rest d)) := by
  have waits : (aryOf d k).ops.any (fun p => p.2.wait) = true := by simp [h, hw]
  unfold grantGive
  rw [hq]
  dsimp only
  rw [if_pos hg]
  exact if_pos waits

/-- The one operation, which had begun, runs on. -/
theorem opsRun_begun (h : (aryOf d k).ops = [(g, o)]) (hw : o.wait = true) (hb : o.begun = true) :
    (aryOf (opsRun k d) k).ops = [(g, o.running d)] ∧ (opsRun k d).arys.waitq = d.arys.waitq ∧ (opsRun k d).arys.grants = d.arys.grants ∧
    gb (opsRun k d) (Reg.ARY_RD_STAT k) F.ARY_RD_STAT_SUSPENDED = false ∧ Touches (fun a => a = (Reg.ARY_RD_STAT k).addr) d (opsRun k d) := by
  rw [opsRun_single h hw, opRun_begun h hb]
  refine ⟨ops_opPut h, rfl, rfl, ?_, ((Touches.refl d).aryUpd k _).sf _ _ _ (.inl rfl)⟩
  unfold gb
  rw [gf_sf_same _ _ _ _ (by decide)]
  rfl

/-! ### Read slots that end (R295, R297) -/

theorem autoResume_free (h : (aryOf d k).ops = [(g, o)]) (hs : o.bySlot = true) (hw : o.wait = false) (hc : o.byCmd = false)
    (hf : grantFree k d) : autoResume k g d = opsRun k (granted k (opPut k g { o with wait := true } d)) := by
  have free : grantFree k (opPut k g { o with wait := true } d) := hf
  unfold autoResume
  rw [h, mget_single]
  simp only [hs, hw, hc, Bool.not_true, Bool.or_self, Bool.false_eq_true, if_false]
  exact grantAsk_free free

theorem autoResume_held (h : (aryOf d k).ops = [(g, o)]) (hs : o.bySlot = true) (hw : o.wait = false) (hc : o.byCmd = true) :
    autoResume k g d = sf (Reg.ARY_RD_STAT k) F.ARY_RD_STAT_SUSPENDED 0 (opPut k g { o with bySlot := false } d) := by
  unfold autoResume
  rw [h, mget_single]
  simp only [hs, hw, hc, Bool.not_true, Bool.or_self, Bool.false_eq_true, if_false, if_true]
  exact slotShut_single (ops_opPut h) rfl

/-! ### Outcomes (R339) -/

/-- The outcome `c` stands in ARY_OPSTAT of group `g`, with DONE and its source. -/
def Outcome (k g c : Nat) (d : Dev) : Prop :=
  gf d (Reg.ARY_OPSTAT k g) F.ARY_OPSTAT_CODE = c ∧ gb d (Reg.ARY_OPSTAT k g) F.ARY_OPSTAT_DONE = true ∧ icPending d (srcAry 0 k) = true

/-- What an operation of group `g` may change of the registers. -/
abbrev opRegs (k g : Nat) (a : Nat) : Prop := a = (Reg.ARY_OPSTAT k g).addr ∨ a = (Reg.ARY_RD_STAT k).addr

theorem opstat_not_raised (hk : k < 16) (hg : g < 5) : ¬ raised (Reg.ARY_OPSTAT k g).addr :=
  arrayReg_not_raised (by simp only [Reg.ARY_OPSTAT]; omega)

theorem opOutcome_outcome (hk : k < 16) (hg : g < 5) {c : Nat} (hc : c < 128) : Outcome k g c (opOutcome k g c d) := by
  unfold opOutcome Outcome gb
  rw [gf_raise _ _ _ _ (opstat_not_raised hk hg), gf_raise _ _ _ _ (opstat_not_raised hk hg)]
  refine ⟨?_, ?_, icPending_raise _ _ (by unfold srcAry; omega)⟩
  · rw [gf_sf_disj _ _ _ _ _ (by decide) (by decide), gf_sf_same _ _ _ _ (by decide)]
    exact Nat.mod_eq_of_lt hc
  · rw [gf_sf_same _ _ _ _ (by decide)]
    rfl

theorem Touches.opOutcome (h : Touches (opRegs k g) d e) (c : Nat) : Touches (opRegs k g) d (opOutcome k g c e) :=
  ((h.sf _ _ _ (.inl (.inl rfl))).sf _ _ _ (.inl (.inl rfl))).raise _

theorem Touches.opstatTarget (h : Touches (opRegs k g) d e) (op index page : Nat) : Touches (opRegs k g) d (opstatTarget k g op index page e) :=
  ((h.sf _ _ _ (.inl (.inl rfl))).sf _ _ _ (.inl (.inl rfl))).sf _ _ _ (.inl (.inl rfl))

theorem aryOf_opOutcome (j c : Nat) : aryOf (opOutcome k g c d) j = aryOf d j := aryOf_raise j _ _

/-! ### A buffer whose time is over (R329) -/

/-- The open buffer is closed. -/
def bufferShut (k : Nat) (d : Dev) : Dev := aryUpd k (fun a => { a with pb := none }) d

theorem aryOf_bufferShut : aryOf (bufferShut k d) k = { aryOf d k with pb := none } := aryOf_aryUpd _ _ _

/-- A unit whose buffer closes without a program: its target and its outcome stand, and nothing else has changed. -/
theorem bufferEnded (hk : k < 16) (hg : g < 5) {op index page c : Nat} (hc : c < 128) :
    aryOf (opOutcome k g c (opstatTarget k g op index page (bufferShut k d))) k = { aryOf d k with pb := none } ∧
    Outcome k g c (opOutcome k g c (opstatTarget k g op index page (bufferShut k d))) ∧
    Touches (opRegs k g) d (opOutcome k g c (opstatTarget k g op index page (bufferShut k d))) :=
  ⟨(aryOf_opOutcome k c).trans aryOf_bufferShut, opOutcome_outcome hk hg hc,
    Touches.opOutcome (Touches.opstatTarget ((Touches.refl d).aryUpd k _) _ _ _) c⟩

theorem pbTimeout_none (h : (aryOf d k).pb = none) : pbTimeout k d = d := by
  unfold pbTimeout
  rw [h]

theorem pbTimeout_open {b : AryPb} (h : (aryOf d k).pb = some b) : pbTimeout k d =
    opOutcome k (aryGroup d b.sector b.index) 9
      (opstatTarget k (aryGroup d b.sector b.index) (if b.sector then 4 else 2) b.index b.page (bufferShut k d)) := by
  unfold pbTimeout
  rw [h]
  rfl

theorem kept_pbTimeout (k : Nat) (d : Dev) : (pbTimeout k d).kept = d.kept := by
  unfold pbTimeout
  split
  · rfl
  · exact (opOutcome_h _ _ _ _ (opstatTarget_h _ _ _ _ _ _ (holds_self quiet quiet_free _))).2.2.1

/-! ### A block that is retired (R353) -/

/-- The block is recorded as retired, and its pages leave the stack's registers. -/
theorem aryRetire_free {b : Nat} (h : mget (aryOf d k).ops (b / aryQ d) = none) :
    aryRetire k b d = invalidate k b (wearUpd k false b (fun w => { w with retired := true }) d) := by
  unfold aryRetire
  dsimp only
  rw [h]

/-- Where no read waits, a block's pages leave the registers and the senses of its stack, and no more. -/
theorem invalidate_unread (h : (aryOf d k).reads = []) (b : Nat) :
    (aryOf (invalidate k b d) k).ops = (aryOf d k).ops ∧ (aryOf (invalidate k b d) k).wear = (aryOf d k).wear ∧
    (aryOf (invalidate k b d) k).pb = (aryOf d k).pb ∧ (aryOf (invalidate k b d) k).reads = [] ∧
    (invalidate k b d).arys.grants = d.arys.grants ∧ (invalidate k b d).out = d.out ∧
    EngsOnly d (invalidate k b d) := by
  have blank : ∀ e, (aryOf e k).reads = [] → winBlank k b e = aryUpd k (fun a => { a with reads := a.reads.filter (fun q => q.page / 256 != b) }) e :=
    fun e he => by
      unfold winBlank
      rw [he]
      rfl
  unfold invalidate
  rw [blank _ (by rw [aryOf_aryUpd]; exact h)]
  simp only [aryOf_aryUpd, h]
  exact ⟨trivial, trivial, trivial, rfl, rfl, rfl, ((EngsOnly.refl d).aryUpd k _).aryUpd k _⟩

theorem wearOf_wearUpd (sector : Bool) (index : Nat) (f : Wear → Wear) :
    wearOf (wearUpd k sector index f d) k sector index = f (wearOf d k sector index) := by
  unfold wearUpd wearOf
  rw [aryOf_aryUpd]
  exact mgetD_mput_same _ _ _ _

theorem wearOf_congr (h : (aryOf e k).wear = (aryOf d k).wear) (sector : Bool) (index : Nat) : wearOf e k sector index = wearOf d k sector index :=
  congrArg (fun m : FMap Wear => mgetD m (wearKey sector index) {}) h

/-- A block of a group without an operation is retired: it is unreadable, and nothing else has changed. -/
theorem aryRetire_retires {b : Nat} (h : mget (aryOf d k).ops (b / aryQ d) = none) (hr : (aryOf d k).reads = []) :
    unreadable (aryRetire k b d) k b = true ∧ (wearOf (aryRetire k b d) k false b).retired = true ∧
    (aryOf (aryRetire k b d) k).ops = (aryOf d k).ops ∧ EngsOnly d (aryRetire k b d) := by
  have reads : (aryOf (wearUpd k false b (fun w => { w with retired := true }) d) k).reads = [] := by
    unfold wearUpd
    rw [aryOf_aryUpd]
    exact hr
  obtain ⟨ops, wear, -, -, -, -, engs⟩ := invalidate_unread reads b
  rw [aryRetire_free h]
  have retired := (congrArg Wear.retired ((wearOf_congr wear false b).trans (wearOf_wearUpd (d := d) (k := k) false b _)))
  refine ⟨?_, retired, ops.trans ?_, EngsOnly.trans ((EngsOnly.refl d).aryUpd k _) engs⟩
  · unfold unreadable
    rw [retired]
    simp
  · unfold wearUpd
    rw [aryOf_aryUpd]

theorem kept_aryRetire (h : mget (aryOf d k).ops (b / aryQ d) = none) : (aryRetire k b d).kept = d.kept := by
  rw [aryRetire_free h]
  exact (invalidate_h _ _ _ (holds_self quiet quiet_free _)).2.2.1

/-! ### The buffer's aperture (R326, R327, R330) -/

/-- A run of bytes laid down one by one leaves what lies outside it. -/
theorem mget_run_out (bs : List Byte) : ∀ {m : FMap Byte} {a i x : Nat}, x < a + i ∨ a + i + bs.length ≤ x →
    mget (((List.range' i bs.length).zip bs).foldl (fun m p => mput m (a + p.1) p.2) m) x = mget m x := by
  induction bs with
  | nil => exact fun _ => rfl
  | cons b bs ih =>
    intro m a i x h
    rw [List.length_cons] at h ⊢
    rw [List.range'_succ, List.zip_cons_cons, List.foldl_cons, ih (by omega), mget_mput_ne _ _ (by omega)]

theorem mget_run_in (bs : List Byte) : ∀ {m : FMap Byte} {a i j : Nat}, j < bs.length →
    mget (((List.range' i bs.length).zip bs).foldl (fun m p => mput m (a + p.1) p.2) m) (a + i + j) = some (bs.getD j 0) := by
  induction bs with
  | nil => exact fun h => absurd h (by simp)
  | cons b bs ih =>
    intro m a i j h
    rw [List.length_cons] at h ⊢
    rw [List.range'_succ, List.zip_cons_cons, List.foldl_cons]
    cases j with
    | zero =>
      rw [mget_run_out bs (by omega)]
      exact mget_mput_same _ _ _
    | succ j =>
      rw [show a + i + (j + 1) = a + (i + 1) + j by omega]
      exact ih (by omega)

/-- Every granule of a run that is marked carries its mark. -/
theorem mget_marked {α : Type} (v : α) (l : List Nat) : ∀ {m : FMap α} {x : Nat}, x ∈ l ∨ mget m x = some v →
    mget (l.foldl (fun m g => mput m g v) m) x = some v := by
  induction l with
  | nil => exact fun h => h.resolve_left (by simp)
  | cons y l ih =>
    intro m x h
    refine ih ?_
    by_cases hxy : x = y
    · exact .inr (hxy ▸ mget_mput_same _ _ _)
    · exact (h.imp (fun hm => (List.mem_cons.1 hm).resolve_left hxy) fun hm => (mget_mput_ne _ _ hxy).trans hm)

/-- The data of a buffer after the write of `bs` at `off`. -/
def bufferData (off : Nat) (bs : List Byte) (b : AryPb) : FMap Byte :=
  ((List.range bs.length).zip bs).foldl (fun m x => mput m (off + x.1) x.2) b.data

/-- The marks of a buffer after the write of `bs` at `off`. -/
def bufferMarks (off : Nat) (bs : List Byte) (p : Bool) (b : AryPb) : FMap ErrPat :=
  if p then (granRange off bs.length).foldl (fun m g => mput m g poisonPat) b.errs
  else if bs.length = 32 then mdel b.errs (off / 32) else b.errs

theorem aryOf_pbWrite {b : AryPb} (h : (aryOf d k).pb = some b) (off : Nat) (bs : List Byte) (p : Bool) :
    aryOf (pbWrite k off bs p d) k = { aryOf d k with pb := some { b with data := bufferData off bs b, errs := bufferMarks off bs p b } } := by
  unfold pbWrite
  rw [aryOf_aryUpd, h]
  rfl

theorem bufferData_in {b : AryPb} {off j : Nat} {bs : List Byte} (h : j < bs.length) : mget (bufferData off bs b) (off + j) = some (bs.getD j 0) := by
  unfold bufferData
  rw [List.range_eq_range']
  exact mget_run_in bs (i := 0) h

theorem bufferData_out {b : AryPb} {off x : Nat} {bs : List Byte} (h : x < off ∨ off + bs.length ≤ x) :
    mget (bufferData off bs b) x = mget b.data x := by
  unfold bufferData
  rw [List.range_eq_range']
  exact mget_run_out bs (i := 0) h

/-- A write that lies in the aperture of the open buffer is data, whatever sequence stands. -/
theorem winWrite_data {b : AryPb} {master off : Nat} {bs : List Byte} {p : Bool} (h : (aryOf d k).pb = some b)
    (hfit : off + bs.length ≤ if b.sector then 0x800 else 0x80000) : winWrite master k off bs p d = pbWrite k off bs p d := by
  have size : off + bs.length ≤ pbSize b := hfit
  have below : off + bs.length ≤ 0x80000 := by
    split at hfit
    · omega
    · exact hfit
  have noCommand : (bs.length == 4 && off == cmdOff) = false := by
    rw [Bool.and_eq_false_iff]
    exact .inr (beq_eq_false_iff_ne.2 (by unfold cmdOff; omega))
  have inAperture : (some b).any (fun b => decide (off + bs.length ≤ pbSize b)) = true := by simp [size]
  unfold winWrite
  simp only [h, noCommand, inAperture, Bool.false_and, Bool.or_true, if_true, Bool.false_eq_true, if_false, and_false, false_and]
  cases (aryOf d k).seq <;> rfl

/-! ### The commit (R313, R316, R328) -/

/-- The commit word, with no sequence begun and a buffer open. -/
theorem winWrite_commit {b : AryPb} {master : Nat} (h : (aryOf d k).pb = some b) (hs : (aryOf d k).seq = none) :
    winWrite master k cmdOff (leBytes 4 0x7E81) false d = pbCommit k d := by
  have word : leNat (leBytes 4 0x7E81) = 0x7E81 := by decide
  unfold winWrite
  dsimp only
  rw [word, hs, h]
  rfl

/-- A unit that must not be programmed before its lower one. -/
abbrev tooEarly (k : Nat) (b : AryPb) (d : Dev) : Prop :=
  b.sector = false ∧ b.page % 2 = 1 ∧ readsErased d (targetAt d k false b.index (b.page - 1)).1 (targetAt d k false b.index (b.page - 1)).2 = true

theorem pbCommit_early {b : AryPb} (h : (aryOf d k).pb = some b) (he : tooEarly k b d) : pbCommit k d =
    opOutcome k (aryGroup d b.sector b.index) 6
      (opstatTarget k (aryGroup d b.sector b.index) (if b.sector then 4 else 2) b.index b.page (bufferShut k d)) := by
  unfold pbCommit
  rw [h]
  exact if_pos he

/-- The operation that programs a buffer. -/
def bufferOp (b : AryPb) : AryOp :=
  { op := if b.sector then 4 else 2, index := b.index, page := b.page, data := b.data, errs := b.errs, master := b.master }

theorem flipProgram_idle (h : gb d Reg.INTG_FLIP F.INTG_FLIP_ARM = false) (k block page : Nat) : flipProgram k block page d = ([], d) := by
  unfold flipProgram
  rw [h]
  rfl

theorem pbCommit_starts {b : AryPb} (h : (aryOf d k).pb = some b) (he : ¬ tooEarly k b d) (hp : ∀ e ∈ b.errs, e.2 ≠ poisonPat)
    (hf : gb d Reg.INTG_FLIP F.INTG_FLIP_ARM = false) : pbCommit k d = opStart k (bufferOp b) (bufferShut k d) := by
  have clean : b.errs.any (fun e => e.2 == poisonPat) = false := by
    rw [List.any_eq_false]
    exact fun e he => by simpa using hp e he
  have flip : flipProgram k b.index b.page (bufferShut k d) = ([], bufferShut k d) :=
    flipProgram_idle (d := bufferShut k d) hf k b.index b.page
  unfold bufferShut at flip
  unfold pbCommit
  rw [h]
  refine (if_neg he).trans ?_
  simp only [clean, Bool.false_eq_true, if_false, flip, ite_self, List.foldl_nil]
  rfl

theorem aryGroup_bufferOp (b : AryPb) : aryGroup d (decide ((bufferOp b).op ≥ 3)) (bufferOp b).index = aryGroup d b.sector b.index := by
  cases hs : b.sector <;> simp [bufferOp, hs]

/-! ### An operation starts (R323, R345 to R347) -/

/-- The one operation that waits is the new one. -/
theorem filter_mput (f : Nat × AryOp → Bool) (hf : f (g, o) = true) (m : FMap AryOp) : mget m g = none → (∀ p ∈ m, f p = false) →
    (mput m g o).filter f = [(g, o)] := by
  induction m with
  | nil => intro _ _; simp [mput, hf]
  | cons p m ih =>
    obtain ⟨a, q⟩ := p
    intro hm ha
    have rest : m.filter f = [] := List.filter_eq_nil_iff.2 fun x hx => by simp [ha x (List.mem_cons_of_mem _ hx)]
    have head : f (a, q) = false := ha _ List.mem_cons_self
    have other : g ≠ a := by
      rintro rfl
      simp [mget] at hm
    unfold mput
    rw [if_neg other]
    split
    · simp [hf, head, rest]
    · rw [List.filter_cons_of_neg (by simp [head])]
      exact ih (by simpa [mget, other] using hm) fun x hx => ha x (List.mem_cons_of_mem _ hx)

/-- The pages of an operation's target leave the registers of its stack. -/
def opEntered (k g : Nat) (o : AryOp) (d : Dev) : Dev := if g ≠ 4 then invalidate k o.index d else psecInvalidate k o.index d

theorem opEntered_frame (h : (aryOf d k).reads = []) :
    (aryOf (opEntered k g o d) k).ops = (aryOf d k).ops ∧ (aryOf (opEntered k g o d) k).pb = (aryOf d k).pb ∧
    (opEntered k g o d).arys.grants = d.arys.grants ∧ (opEntered k g o d).out = d.out ∧ EngsOnly d (opEntered k g o d) := by
  unfold opEntered
  split
  · obtain ⟨ops, -, pb, -, grants, out, engs⟩ := invalidate_unread h o.index
    exact ⟨ops, pb, grants, out, engs⟩
  · unfold psecInvalidate
    dsimp only
    rw [aryOf_aryUpd]
    exact ⟨rfl, rfl, rfl, rfl, (EngsOnly.refl d).aryUpd k _⟩

/-- A program runs for the first time. -/
theorem opRun_first (h : mget (aryOf d k).ops g = some o) (hb : o.begun = false) (hop : o.op = 2 ∨ o.op = 4) :
    opRun k g d = slotShut k (opEntered k g o (opPut k g (o.running d) d)) := by
  have program : ¬ (o.op = 1 ∨ o.op = 3) := by omega
  unfold opRun
  rw [h]
  simp only [hb, Bool.false_eq_true, if_false, program, and_false]
  rfl

theorem slotShut_frame (k : Nat) (d : Dev) : (slotShut k d).arys = d.arys ∧ (slotShut k d).out = d.out ∧
    (∀ {r : Reg}, r.addr ≠ (Reg.ARY_RD_STAT k).addr → ∀ f, gf (slotShut k d) r f = gf d r f) ∧
    Touches (fun a => a = (Reg.ARY_RD_STAT k).addr) d (slotShut k d) := by
  unfold slotShut
  split
  · exact ⟨rfl, rfl, fun _ _ => rfl, Touches.refl d⟩
  · exact ⟨rfl, rfl, fun hr f => gf_sf_ne _ _ _ _ hr, (Touches.refl d).sf _ _ _ (.inl rfl)⟩

theorem opstat_ne_rdStat (hg : g < 5) : (Reg.ARY_OPSTAT k g).addr ≠ (Reg.ARY_RD_STAT k).addr := by
  simp only [Reg.ARY_OPSTAT, Reg.ARY_RD_STAT]
  omega

theorem fastTime_opstatTarget (hk : k < 16) (op index page : Nat) : fastTime (opstatTarget k g op index page d) = fastTime d := by
  have other : Reg.FAST_TIME.addr ≠ (Reg.ARY_OPSTAT k g).addr := by
    simp only [Reg.FAST_TIME, Reg.ARY_OPSTAT]
    omega
  unfold fastTime opstatTarget
  rw [rd_sf_ne _ _ _ other, rd_sf_ne _ _ _ other, rd_sf_ne _ _ _ other]

theorem opstatTarget_shows {op index page : Nat} (ho : op < 8) (hi : index < 512) (hp : page < 32) :
    gf (opstatTarget k g op index page d) (Reg.ARY_OPSTAT k g) F.ARY_OPSTAT_OP = op ∧
    gf (opstatTarget k g op index page d) (Reg.ARY_OPSTAT k g) F.ARY_OPSTAT_INDEX = index ∧
    gf (opstatTarget k g op index page d) (Reg.ARY_OPSTAT k g) F.ARY_OPSTAT_PAGE = page := by
  unfold opstatTarget
  refine ⟨?_, ?_, ?_⟩
  · rw [gf_sf_disj _ _ _ _ _ (by decide) (by decide), gf_sf_disj _ _ _ _ _ (by decide) (by decide), gf_sf_same _ _ _ _ (by decide)]
    exact Nat.mod_eq_of_lt ho
  · rw [gf_sf_disj _ _ _ _ _ (by decide) (by decide), gf_sf_same _ _ _ _ (by decide)]
    exact Nat.mod_eq_of_lt hi
  · rw [gf_sf_same _ _ _ _ (by decide)]
    exact Nat.mod_eq_of_lt hp

theorem aryOf_opPut : aryOf (opPut k g o d) k = { aryOf d k with ops := mput (aryOf d k).ops g o } := aryOf_aryUpd _ _ _

theorem AryOp.running_congr (h : fastTime e = fastTime d) (o : AryOp) : o.running e = o.running d := by
  unfold AryOp.running
  rw [h]

/-- What the first run of a program leaves. -/
theorem opRun_program (hg : g < 5) (h : mget (aryOf d k).ops g = some o) (hr : (aryOf d k).reads = []) (hb : o.begun = false)
    (hop : o.op = 2 ∨ o.op = 4) :
    (aryOf (opRun k g d) k).pb = (aryOf d k).pb ∧ (opRun k g d).arys.grants = d.arys.grants ∧
    (∀ f, gf (opRun k g d) (Reg.ARY_OPSTAT k g) f = gf d (Reg.ARY_OPSTAT k g) f) ∧
    mget (aryOf (opRun k g d) k).ops g = some (o.running d) ∧ (opRun k g d).out = d.out ∧ Touches (opRegs k g) d (opRun k g d) := by
  have reads : (aryOf (opPut k g (o.running d) d) k).reads = [] := by
    rw [aryOf_opPut]
    exact hr
  obtain ⟨ops, pb, grants, out, engs⟩ := opEntered_frame (g := g) (o := o) reads
  obtain ⟨shutArys, shutOut, shutSame, shut⟩ := slotShut_frame k (opEntered k g o (opPut k g (o.running d) d))
  have put : Touches (opRegs k g) d (opPut k g (o.running d) d) := (Touches.refl d).aryUpd k _
  rw [aryOf_opPut] at ops pb
  rw [opRun_first h hb hop, aryOf_congr shutArys]
  refine ⟨pb, (congrArg Arys.grants shutArys).trans grants, fun f => ?_, ?_, shutOut.trans out,
    (put.trans engs.touches).trans (shut.mono fun _ => .inr)⟩
  · rw [shutSame (opstat_ne_rdStat hg), engs.gf]
    rfl
  · rw [ops]
    exact mget_mput_same _ _ _

/-- The device once an operation has taken its plane group and a grant. -/
def groupTaken (k g : Nat) (o : AryOp) (d : Dev) : Dev := granted k (opPut k g o (opstatTarget k g o.op o.index o.page d))

theorem aryOf_groupTaken : aryOf (groupTaken k g o d) k = { aryOf d k with ops := mput (aryOf d k).ops g o } :=
  aryOf_opPut (d := opstatTarget k g o.op o.index o.page d)

theorem fastTime_groupTaken (hk : k < 16) : fastTime (groupTaken k g o d) = fastTime d :=
  fastTime_opstatTarget (d := d) (g := g) hk o.op o.index o.page

theorem touches_groupTaken : Touches (opRegs k g) d (groupTaken k g o d) :=
  Touches.mk (((Touches.refl d).opstatTarget o.op o.index o.page).aryUpd k _)

theorem opStart_free (hgroup : aryGroup d (decide (o.op ≥ 3)) o.index = g) (hf : grantFree k d)
    (hn : mget (aryOf d k).ops g = none) (hw : ∀ p ∈ (aryOf d k).ops, p.2.wait = false) (how : o.wait = true) :
    opStart k o d = opRun k g (groupTaken k g o d) := by
  have free : grantFree k (opPut k g o (opstatTarget k g o.op o.index o.page d)) := hf
  have only : (aryOf (groupTaken k g o d) k).ops.filter (fun p => p.2.wait) = [(g, o)] := by
    rw [aryOf_groupTaken]
    exact filter_mput _ how _ hn hw
  have asks : opStart k o d = grantAsk k (opPut k g o (opstatTarget k g o.op o.index o.page d)) := by
    unfold opStart
    rw [hgroup]
    rfl
  have runs : opsRun k (groupTaken k g o d) = opRun k g (groupTaken k g o d) := by
    unfold opsRun
    rw [only]
    rfl
  exact asks.trans ((grantAsk_free free).trans runs)

/-- A program takes its plane group and a free grant, and runs at once. -/
theorem opStart_program (hk : k < 16) (hg : g < 5) (hgroup : aryGroup d (decide (o.op ≥ 3)) o.index = g) (hf : grantFree k d)
    (hn : mget (aryOf d k).ops g = none) (hw : ∀ p ∈ (aryOf d k).ops, p.2.wait = false) (hr : (aryOf d k).reads = [])
    (how : o.wait = true) (hb : o.begun = false) (hop : o.op = 2 ∨ o.op = 4) (hi : o.index < 512) (hp : o.page < 32) :
    (aryOf (opStart k o d) k).pb = (aryOf d k).pb ∧ (opStart k o d).arys.grants = d.arys.grants ++ [k] ∧
    gf (opStart k o d) (Reg.ARY_OPSTAT k g) F.ARY_OPSTAT_OP = o.op ∧ gf (opStart k o d) (Reg.ARY_OPSTAT k g) F.ARY_OPSTAT_INDEX = o.index ∧
    gf (opStart k o d) (Reg.ARY_OPSTAT k g) F.ARY_OPSTAT_PAGE = o.page ∧ mget (aryOf (opStart k o d) k).ops g = some (o.running d) ∧
    (opStart k o d).out = d.out ∧ Touches (opRegs k g) d (opStart k o d) := by
  have reads : (aryOf (groupTaken k g o d) k).reads = [] := by
    rw [aryOf_groupTaken]
    exact hr
  have there : mget (aryOf (groupTaken k g o d) k).ops g = some o := by
    rw [aryOf_groupTaken]
    exact mget_mput_same _ _ _
  obtain ⟨pb, grants, shows, ops, out, touches⟩ := opRun_program hg there reads hb hop
  obtain ⟨shownOp, shownIndex, shownPage⟩ := opstatTarget_shows (d := d) (k := k) (g := g) (op := o.op) (by omega) hi hp
  rw [aryOf_groupTaken] at pb
  rw [AryOp.running_congr (fastTime_groupTaken hk)] at ops
  rw [opStart_free hgroup hf hn hw how, shows, shows, shows]
  exact ⟨pb, grants, shownOp, shownIndex, shownPage, ops, out, touches_groupTaken.trans touches⟩

/-- A command word with no sequence begun, whose other bytes no cause refuses. -/
theorem commandWord_commit {b : AryPb} {master : Nat} (hk : k < 16) (hq : ArrayQuiet d) (hheld : d.boot.held = [])
    (hc : localCause d (arrayBase k + cmdOff) 4 true = none) (hb : (aryOf d k).pb = some b) (hs : (aryOf d k).seq = none) :
    xCommandWord master k 0x81 d = emit (.busWrote master) (pbCommit k d) := by
  have cause : localCause d (arrayBase k + cmdOff) (leBytes 4 (0x81 + 256 * (255 - 0x81))).length true = none := by
    rw [leBytes_length]
    exact hc
  unfold xCommandWord
  rw [windowWrite_quiet hk (by decide) hq hheld cause (fun h => absurd h (by decide)), winWrite_commit hb hs]

/-! ### The stores -/

/-- Only the stored bytes, their marks and their errors have changed, and values drawn. -/
def StoreOnly (d e : Dev) : Prop := ∃ mem poison errs free, e = { d with mem := mem, poison := poison, errs := errs, free := free }

theorem StoreOnly.refl (d : Dev) : StoreOnly d d := ⟨_, _, _, _, rfl⟩

theorem StoreOnly.trans {f : Dev} : StoreOnly d e → StoreOnly e f → StoreOnly d f := by
  rintro ⟨_, _, _, _, rfl⟩ ⟨m, p, r, n, rfl⟩
  exact ⟨m, p, r, n, rfl⟩

theorem StoreOnly.gf (h : StoreOnly d e) (r : Reg) (f : Fld) : gf e r f = gf d r f := by obtain ⟨_, _, _, _, rfl⟩ := h; rfl

theorem StoreOnly.kept (h : StoreOnly d e) : e.kept = d.kept := by obtain ⟨_, _, _, _, rfl⟩ := h; rfl

theorem StoreOnly.arys (h : StoreOnly d e) : e.arys = d.arys := by obtain ⟨_, _, _, _, rfl⟩ := h; rfl

theorem StoreOnly.foldl {α : Type} {f : Dev → α → Dev} (hf : ∀ e x, StoreOnly e (f e x)) :
    ∀ (l : List α) (d : Dev), StoreOnly d (l.foldl f d)
  | [], d => StoreOnly.refl d
  | x :: l, d => (hf d x).trans (StoreOnly.foldl hf l (f d x))

theorem storeOnly_rawClear (a n : Nat) (d : Dev) : StoreOnly d (rawClear a n d) := ⟨_, _, _, _, rfl⟩

theorem storeOnly_errSet (g : Nat) (p : ErrPat) (d : Dev) : StoreOnly d (errSet g p d) := ⟨_, _, _, _, rfl⟩

theorem storeOnly_rawReplace (a : Nat) (bs : List Byte) (d : Dev) : StoreOnly d (rawReplace a bs d) := ⟨_, _, _, _, rfl⟩

theorem storeOnly_damage (a n : Nat) (d : Dev) : StoreOnly d (damage a n d) :=
  StoreOnly.trans (StoreOnly.trans ⟨_, _, _, _, rfl⟩ (storeOnly_rawReplace _ _ _)) (StoreOnly.foldl (fun _ _ => storeOnly_errSet _ _ _) _ _)

/-! ### The units of a block (R269, R311) -/

theorem unitOff_lt {b u : Nat} (hb : b < mainBlocks d) (hu : u < 8) : unitOff d b u + 0x80000 ≤ 2 ^ 31 := by
  unfold unitOff aryQ
  unfold mainBlocks at hb ⊢
  split at hb <;> simp only [*, if_true, if_false] <;> omega

theorem unitOff_aligned (b u : Nat) : unitOff d b u % 32 = 0 := by
  unfold unitOff
  omega

/-- A stack's main blocks read all-ones where nothing is stored. -/
theorem memDefault_window {off : Nat} (hk : k < 16) (ho : off < 2 ^ 31) : memDefault (arrayBase k + off) = 0xFF := by
  unfold memDefault
  rw [(region_window hk ho).1]

/-! ### An erase (R324) -/

/-- Unit `u` of block `b` in stack `k` holds the byte at `x`. -/
abbrev inUnit (d : Dev) (k b u x : Nat) : Prop := arrayBase k + unitOff d b u ≤ x ∧ x < arrayBase k + unitOff d b u + 0x80000

theorem byteAt_rawClear (a n x : Nat) (d : Dev) :
    byteAt (rawClear a n d).mem x = if a ≤ x ∧ x < a + n then memDefault x else byteAt d.mem x := by
  unfold rawClear
  dsimp only
  split
  next h => exact byteAt_filter_out d.mem (p := fun c => !(decide (a ≤ c) && decide (c < a + n))) (by simpa using h)
  next h =>
    unfold byteAt mgetD
    rw [mget_filter_in d.mem (p := fun c => !(decide (a ≤ c) && decide (c < a + n))) (by simp; omega)]

theorem storeOnly_unitsClear (b : Nat) (l : List Nat) (d : Dev) :
    StoreOnly d (l.foldl (fun d u => rawClear (arrayBase k + unitOff d b u) 0x80000 d) d) :=
  StoreOnly.foldl (fun _ _ => storeOnly_rawClear _ _ _) l d

theorem byteAt_unitsClear_out (b x : Nat) (l : List Nat) : ∀ d, (∀ u ∈ l, ¬ inUnit d k b u x) →
    byteAt (l.foldl (fun d u => rawClear (arrayBase k + unitOff d b u) 0x80000 d) d).mem x = byteAt d.mem x := by
  induction l with
  | nil => exact fun _ _ => rfl
  | cons u l ih =>
    intro d h
    refine (ih (rawClear (arrayBase k + unitOff d b u) 0x80000 d) fun v hv => h v (List.mem_cons_of_mem _ hv)).trans ?_
    rw [byteAt_rawClear]
    exact if_neg (h u List.mem_cons_self)

theorem byteAt_unitsClear_in (b x : Nat) (l : List Nat) : ∀ d, (∃ u ∈ l, inUnit d k b u x) →
    byteAt (l.foldl (fun d u => rawClear (arrayBase k + unitOff d b u) 0x80000 d) d).mem x = memDefault x := by
  induction l with
  | nil => exact fun _ h => absurd h (by simp)
  | cons u l ih =>
    intro d h
    by_cases later : ∃ v ∈ l, inUnit d k b v x
    · exact ih (rawClear (arrayBase k + unitOff d b u) 0x80000 d) later
    · have here : inUnit d k b u x := by
        obtain ⟨v, hv, hx⟩ := h
        exact (List.mem_cons.1 hv).elim (fun e => e ▸ hx) fun hl => absurd ⟨v, hl, hx⟩ later
      refine (byteAt_unitsClear_out b x l (rawClear (arrayBase k + unitOff d b u) 0x80000 d) fun v hv hx => later ⟨v, hv, hx⟩).trans ?_
      rw [byteAt_rawClear]
      exact if_pos here

theorem eraseTarget_main (b : Nat) (d : Dev) : eraseTarget k false b d =
    (List.range 8).foldl (fun d u => rawClear (arrayBase k + unitOff d b u) 0x80000 d) d := by
  unfold eraseTarget forN forEach
  exact if_neg Bool.false_ne_true

theorem storeOnly_eraseTarget (b : Nat) (d : Dev) : StoreOnly d (eraseTarget k false b d) := by
  rw [eraseTarget_main]
  exact storeOnly_unitsClear b _ d

/-- The units of an erased block read as erased. -/
theorem byteAt_eraseTarget_in {b u x : Nat} (hk : k < 16) (hb : b < mainBlocks d) (hu : u < 8) (hx : inUnit d k b u x) :
    byteAt (eraseTarget k false b d).mem x = 0xFF := by
  have within := unitOff_lt hb hu
  obtain ⟨lo, hi⟩ := hx
  have default := memDefault_window (off := x - arrayBase k) hk (by omega)
  rw [Nat.add_sub_cancel' (by omega)] at default
  rw [eraseTarget_main, byteAt_unitsClear_in b x _ d ⟨u, List.mem_range.2 hu, lo, hi⟩]
  exact default

theorem byteAt_eraseTarget_out {b x : Nat} (h : ∀ u < 8, ¬ inUnit d k b u x) : byteAt (eraseTarget k false b d).mem x = byteAt d.mem x := by
  rw [eraseTarget_main]
  exact byteAt_unitsClear_out b x _ d fun u hu => h u (List.mem_range.1 hu)

/-! ### A program (R328, R331) -/

theorem mem_of_mget {α : Type} {m : FMap α} {a : Nat} {v : α} (h : mget m a = some v) : (a, v) ∈ m := by
  induction m with
  | nil => cases h
  | cons p m ih =>
    obtain ⟨b, w⟩ := p
    unfold mget at h
    split at h
    next hab =>
      cases h
      exact hab ▸ List.mem_cons_self
    next => exact List.mem_cons_of_mem _ (ih h)

theorem readsErased_byte {a n x : Nat} (h : readsErased d a n = true) (hd : memDefault x = 0xFF) (hx : a ≤ x ∧ x < a + n) : byteAt d.mem x = 0xFF := by
  unfold readsErased at h
  rw [Bool.and_eq_true, List.all_eq_true] at h
  unfold byteAt mgetD
  cases hm : mget d.mem x with
  | none => exact hd
  | some v => exact eq_of_beq (h.1 (x, v) (List.mem_filter.2 ⟨mem_of_mget hm, by simpa using hx⟩))

theorem readsErased_errs {a n : Nat} (h : readsErased d a n = true) (hg : a ≤ 32 * g ∧ 32 * g < a + n) : errOf d g = [] := by
  unfold readsErased at h
  rw [Bool.and_eq_true, Bool.not_eq_true', List.any_eq_false] at h
  unfold errOf mgetD
  cases hm : mget d.errs g with
  | none => rfl
  | some v => exact absurd (by simpa using hg) (h.2 (g, v) (mem_of_mget hm))

/-- A granule of cells that read as erased, with no symbol error. -/
def granErased (d : Dev) (g : Nat) : Prop := (∀ i < 32, byteAt d.mem (32 * g + i) = 0xFF) ∧ errOf d g = []

/-- Erased cells take the data as it is (R331). -/
theorem programGran_erased (h : granErased d g) (bs : List Byte) : programGran g bs [] d = (false, errSet g [] (rawStore (32 * g) bs d)) := by
  have clean : (rawBytes d (32 * g) 32).all (fun b => b == 0xFF) = true := by
    rw [List.all_eq_true]
    intro b hb
    obtain ⟨i, hi, rfl⟩ := List.mem_map.1 hb
    exact beq_iff_eq.2 (h.1 i (List.mem_range.1 hi))
  unfold programGran
  dsimp only
  rw [clean, h.2]
  rfl

/-- A granule of a buffer. -/
def bufferGran (data : FMap Byte) (g : Nat) : List Byte := (List.range 32).map (fun i => mgetD data (32 * g + i) 0xFF)

theorem bufferGran_length (data : FMap Byte) (g : Nat) : (bufferGran data g).length = 32 := by simp [bufferGran]

/-- What the program of one granule leaves, over erased cells. -/
def granStored (a : Nat) (data : FMap Byte) (d : Dev) (g : Nat) : Dev := errSet (a / 32 + g) [] (rawStore (32 * (a / 32 + g)) (bufferGran data g) d)

theorem storeOnly_granStored (a : Nat) (data : FMap Byte) (d : Dev) (g : Nat) : StoreOnly d (granStored a data d g) := ⟨_, _, _, _, rfl⟩

theorem byteAt_granStored {a x : Nat} (ha : a % 32 = 0) (data : FMap Byte) : byteAt (granStored a data d g).mem x =
    if a ≤ x ∧ (x - a) / 32 = g then mgetD data (x - a) 0xFF else byteAt d.mem x := by
  have stored : (granStored a data d g).mem = bytesSet d.mem (32 * (a / 32 + g)) (bufferGran data g) := rfl
  rw [stored]
  split
  next h =>
    obtain ⟨i, hi, hx⟩ : ∃ i < 32, x = 32 * (a / 32 + g) + i := ⟨x - 32 * (a / 32 + g), by omega, by omega⟩
    rw [hx, byteAt_bytesSet_in _ _ _ i (by rw [bufferGran_length]; exact hi)]
    unfold bufferGran
    rw [List.getElem_map, List.getElem_range]
    congr 1
    omega
  next h => exact byteAt_bytesSet_out _ _ _ _ (by rw [bufferGran_length]; omega)

theorem granErased_granStored {a h : Nat} (he : granErased d h) (hne : h ≠ a / 32 + g) (data : FMap Byte) : granErased (granStored a data d g) h := by
  refine ⟨fun i hi => ?_, ?_⟩
  · refine (byteAt_bytesSet_out _ _ _ _ ?_).trans (he.1 i hi)
    rw [bufferGran_length]
    omega
  · exact (mgetD_mdel_ne _ _ hne).trans he.2

/-- One granule of the program of a unit. -/
def granProgram (a : Nat) (o : AryOp) (acc : Bool × Dev) (g : Nat) : Bool × Dev :=
  let r := programGran (a / 32 + g) (bufferGran o.data g) (mgetD o.errs g []) acc.2
  (acc.1 || r.1, r.2)

theorem granProgram_erased {a : Nat} (ho : o.errs = []) (h : granErased d (a / 32 + g)) (p : Bool) :
    granProgram a o (p, d) g = (p, granStored a o.data d g) := by
  have none : mgetD o.errs g [] = [] := by
    rw [ho]
    rfl
  unfold granProgram
  rw [none, programGran_erased h]
  exact Prod.ext (Bool.or_false p) rfl

/-- Granules of erased cells, each programmed once. -/
theorem granProgram_all {a : Nat} (ha : a % 32 = 0) (ho : o.errs = []) (p : Bool) : ∀ (l : List Nat) (d : Dev), l.Nodup →
    (∀ g ∈ l, granErased d (a / 32 + g)) → ∃ e, l.foldl (granProgram a o) (p, d) = (p, e) ∧ StoreOnly d e ∧
      ∀ x, byteAt e.mem x = if a ≤ x ∧ (x - a) / 32 ∈ l then mgetD o.data (x - a) 0xFF else byteAt d.mem x
  | [], d, _, _ => ⟨d, rfl, StoreOnly.refl d, fun x => (if_neg (by simp)).symm⟩
  | g :: l, d, hl, hd => by
    obtain ⟨once, nodup⟩ := List.nodup_cons.1 hl
    have rest : ∀ h ∈ l, granErased (granStored a o.data d g) (a / 32 + h) := fun h hh =>
      granErased_granStored (hd h (List.mem_cons_of_mem _ hh)) (fun he => once (by rwa [← Nat.add_left_cancel he])) _
    obtain ⟨e, fold, store, bytes⟩ := granProgram_all ha ho p l _ nodup rest
    refine ⟨e, ?_, (storeOnly_granStored a o.data d g).trans store, fun x => ?_⟩
    · rw [List.foldl_cons, granProgram_erased ho (hd g List.mem_cons_self)]
      exact fold
    · rw [bytes, byteAt_granStored ha]
      by_cases hx : a ≤ x
      · by_cases hm : (x - a) / 32 ∈ l
        · simp [hx, hm]
        · by_cases hg : (x - a) / 32 = g
          · simp [hx, hg]
          · simp [hx, hm, hg]
      · simp [hx]

/-- The granules that a buffer's bytes lie in, in their order. -/
def granKeys (m : FMap Byte) : List Nat :=
  m.foldr (fun (x : Nat × Byte) (l : List Nat) => if l.head? = some (x.1 / 32) then l else x.1 / 32 :: l) []

theorem programUnit_eq {a : Nat} (ho : o.errs = []) (d : Dev) : programUnit a o d = (granKeys o.data).foldl (granProgram a o) (false, d) := by
  unfold programUnit
  rw [ho]
  simp only [List.map_nil, List.filter_nil, List.append_nil]
  unfold granProgram
  rw [ho]
  rfl

theorem granKeys_cons (p : Nat × Byte) (m : FMap Byte) :
    granKeys (p :: m) = if (granKeys m).head? = some (p.1 / 32) then granKeys m else p.1 / 32 :: granKeys m := rfl

theorem mem_granKeys {m : FMap Byte} {h : Nat} : h ∈ granKeys m ↔ ∃ p ∈ m, p.1 / 32 = h := by
  induction m with
  | nil => simp [granKeys]
  | cons p m ih =>
    rw [granKeys_cons]
    split
    next hh =>
      have there : p.1 / 32 ∈ granKeys m := List.mem_of_mem_head? hh
      rw [List.exists_mem_cons_iff, ← ih]
      exact ⟨.inr, fun h => h.elim (fun e => e ▸ there) id⟩
    next => rw [List.exists_mem_cons_iff, ← ih, List.mem_cons, eq_comm]

theorem granKeys_sorted {m : FMap Byte} (h : Rising m) : (granKeys m).Pairwise (· < ·) := by
  induction m with
  | nil => exact List.Pairwise.nil
  | cons p m ih =>
    obtain ⟨first, rest⟩ := List.pairwise_cons.1 h
    have above : ∀ g ∈ granKeys m, p.1 / 32 ≤ g := fun g hg => by
      obtain ⟨q, hq, rfl⟩ := mem_granKeys.1 hg
      exact Nat.div_le_div_right (Nat.le_of_lt (first _ (List.mem_map_of_mem hq)))
    have sorted := ih rest
    rw [granKeys_cons]
    split
    · exact sorted
    next head =>
      refine List.pairwise_cons.2 ⟨fun g hg => Nat.lt_of_le_of_ne (above g hg) ?_, sorted⟩
      rintro rfl
      generalize granKeys m = l at *
      cases l with
      | nil => cases hg
      | cons z l =>
        have low := above z List.mem_cons_self
        rcases List.mem_cons.1 hg with hz | hl
        · exact head (congrArg some hz.symm)
        · have less := (List.pairwise_cons.1 sorted).1 _ hl
          omega

theorem granKeys_nodup {m : FMap Byte} (h : Rising m) : (granKeys m).Nodup := (granKeys_sorted h).imp Nat.ne_of_lt

/-- A program over erased cells stores exactly the data of its buffer, and every other byte of the unit stays erased (R331). -/
theorem programUnit_erased {a : Nat} (ha : a % 32 = 0) (ho : o.errs = []) (hr : Rising o.data) (hfit : ∀ x ∈ o.data, x.1 < 0x80000)
    (hdef : ∀ x, a ≤ x → x < a + 0x80000 → memDefault x = 0xFF) (he : readsErased d a 0x80000 = true) :
    ∃ e, programUnit a o d = (false, e) ∧ StoreOnly d e ∧
      ∀ x, byteAt e.mem x = if a ≤ x ∧ x < a + 0x80000 then mgetD o.data (x - a) 0xFF else byteAt d.mem x := by
  have below : ∀ g ∈ granKeys o.data, 32 * g < 0x80000 := fun g hg => by
    obtain ⟨q, hq, rfl⟩ := mem_granKeys.1 hg
    have := hfit q hq
    omega
  have erased : ∀ g ∈ granKeys o.data, granErased d (a / 32 + g) := fun g hg => by
    have fits := below g hg
    exact ⟨fun i hi => readsErased_byte he (hdef _ (by omega) (by omega)) (by omega), readsErased_errs he (by omega)⟩
  obtain ⟨e, fold, store, bytes⟩ := granProgram_all ha ho false _ d (granKeys_nodup hr) erased
  refine ⟨e, (programUnit_eq ho d).trans fold, store, fun x => ?_⟩
  rw [bytes]
  by_cases hin : a ≤ x ∧ x < a + 0x80000
  · rw [if_pos hin]
    by_cases hg : (x - a) / 32 ∈ granKeys o.data
    · exact if_pos ⟨hin.1, hg⟩
    · have missing : mget o.data (x - a) = none := by
        cases hm : mget o.data (x - a) with
        | none => rfl
        | some v => exact absurd (mem_granKeys.2 ⟨_, mem_of_mget hm, rfl⟩) hg
      rw [if_neg (fun h => hg h.2), readsErased_byte he (hdef x hin.1 hin.2) hin]
      unfold mgetD
      rw [missing]
      rfl
  · have outside : ¬ (a ≤ x ∧ (x - a) / 32 ∈ granKeys o.data) := fun h => by
      have := below _ h.2
      omega
    rw [if_neg hin, if_neg outside]

/-! ### An operation that ends (R339, R345) -/

/-- The operation of group `g` leaves its stack with the outcome `c`. -/
def opEnd (k g c : Nat) (d : Dev) : Dev := opOutcome k g c (opDrop k g d)

theorem kept_opEnd (k g c : Nat) (d : Dev) : (opEnd k g c d).kept = d.kept :=
  (opOutcome_h _ _ _ _ (opDrop_h _ _ _ (holds_self quiet quiet_free _))).2.2.1

/-- The one operation of a stack is gone. -/
def opGone (k g : Nat) (d : Dev) : Dev := aryUpd k (fun a => { a with ops := mdel a.ops g }) d

theorem aryOf_opGone (h : (aryOf d k).ops = [(g, o)]) : aryOf (opGone k g d) k = { aryOf d k with ops := [] } := by
  unfold opGone
  rw [aryOf_aryUpd, h, mdel_single]

theorem opDrop_single (h : (aryOf d k).ops = [(g, o)]) (hw : (aryOf d k).want = []) : opDrop k g d = grantBack k (slotShut k (opGone k g d)) := by
  have idle : (aryOf (grantBack k (slotShut k (opGone k g d))) k).want = [] := by
    rw [aryOf_grantBack, aryOf_congr (slotShut_frame k _).1, aryOf_opGone h]
    exact hw
  exact sensesStart_idle idle

theorem arys_opEnd (k g c : Nat) (d : Dev) : (opEnd k g c d).arys = (opDrop k g d).arys := by
  unfold opEnd opOutcome
  generalize opDrop k g d = e
  rw [arys_raise]
  rfl

theorem gf_opEnd (hk : k < 16) (hg : g < 5) (c : Nat) {f : Fld}
    (hf : F.ARY_OPSTAT_CODE.lo + F.ARY_OPSTAT_CODE.len ≤ f.lo ∧ f.lo + f.len ≤ F.ARY_OPSTAT_DONE.lo) :
    gf (opEnd k g c d) (Reg.ARY_OPSTAT k g) f = gf (opDrop k g d) (Reg.ARY_OPSTAT k g) f := by
  unfold opEnd opOutcome
  rw [gf_raise _ _ _ _ (opstat_not_raised hk hg), gf_sf_disj _ _ _ _ _ (by decide) (.inr hf.2), gf_sf_disj _ _ _ _ _ (by decide) (.inl hf.1)]

/-- What remains once the one operation of a stack has ended. -/
theorem opEnd_single {c : Nat} (hk : k < 16) (hg : g < 5) (hc : c < 128) (h : (aryOf d k).ops = [(g, o)]) (hw : (aryOf d k).want = []) :
    (aryOf (opEnd k g c d) k).ops = [] ∧ k ∉ (opEnd k g c d).arys.grants ∧ Outcome k g c (opEnd k g c d) ∧
    (aryOf (opEnd k g c d) k).wear = (aryOf d k).wear ∧
    (∀ f, (F.ARY_OPSTAT_CODE.lo + F.ARY_OPSTAT_CODE.len ≤ f.lo ∧ f.lo + f.len ≤ F.ARY_OPSTAT_DONE.lo) →
      gf (opEnd k g c d) (Reg.ARY_OPSTAT k g) f = gf d (Reg.ARY_OPSTAT k g) f) ∧ Touches (opRegs k g) d (opEnd k g c d) := by
  obtain ⟨arys, -, same, shut⟩ := slotShut_frame k (opGone k g d)
  have ary : aryOf (opEnd k g c d) k = { aryOf d k with ops := [] } := by
    rw [aryOf_congr (arys_opEnd k g c d), opDrop_single h hw, aryOf_grantBack, aryOf_congr arys, aryOf_opGone h]
  have idle : aryRunning (slotShut k (opGone k g d)) k = false := by
    unfold aryRunning
    rw [aryOf_congr arys, aryOf_opGone h]
    rfl
  have gone : Touches (opRegs k g) d (opGone k g d) := (Touches.refl d).aryUpd k _
  have dropped : Touches (opRegs k g) d (opDrop k g d) := by
    rw [opDrop_single h hw]
    exact (gone.trans (shut.mono fun _ => .inr)).trans (engsOnly_grantBack k _).touches
  refine ⟨by rw [ary], ?_, opOutcome_outcome hk hg hc, by rw [ary], fun f hf => ?_, Touches.opOutcome (e := opDrop k g d) dropped c⟩
  · rw [arys_opEnd, opDrop_single h hw]
    exact grantBack_grants idle
  · rw [gf_opEnd hk hg c hf, opDrop_single h hw, (engsOnly_grantBack k _).gf, same (opstat_ne_rdStat hg)]
    rfl

/-- The outcome of an operation of a client, where no block's retirement follows. -/
theorem xOpDone_client {us : Nat} {ok : Bool} (h : (aryOf d k).ops = [(g, o)]) (hr : o.runs = true) (hm : o.master < 8) (hq : ArrayQuiet d)
    (hok : ok = true ∨ g = 4) (hkept : (opDone k g us ok d).kept = d.kept) : xOpDone k g us ok d = opDone k g us ok d := by
  have settled : (ok || g == 4) = true := by rcases hok with h | h <;> simp [h]
  have client : ¬ (o.master = 0x20) ∧ ¬ (o.master = 8 ∧ g ≠ 4) := ⟨by omega, by omega⟩
  unfold xOpDone
  rw [h, mget_single]
  simp only [hr, Bool.not_true, Bool.false_eq_true, if_false, client, settled, if_true]
  rw [hq.aryKick hkept, hq.loadAdjSettle hkept]

/-- The nominal time of an operation (R324, R352). -/
abbrev opNominal (d : Dev) (k : Nat) (o : AryOp) : Nat := fieldAt (calRowBytes d k) (if o.op ≥ 3 then 0x30 else 0x28) (if o.op ≥ 3 then 2 else 4)

/-- An erase of a main block that verifies in time. -/
theorem opDone_erase {us : Nat} (h : (aryOf d k).ops = [(g, o)]) (hr : o.runs = true) (hop : o.op = 1) (hus : us ≤ 2 * opNominal d k o) :
    opDone k g us true d = opEnd k g 0 (wearUpd k false o.index (fun w => { w with eOpen := false, eraseUs := min (us / 4) 0xFFFF })
      (eraseTarget k false o.index d)) := by
  unfold opNominal at hus
  unfold opDone
  rw [h, mget_single]
  generalize calRowBytes d k = c at *
  simp only [hop, ge_iff_le, Nat.reduceLeDiff, if_false] at hus
  simp [hr, hop, Nat.not_lt.2 hus, opEnd]

/-- A program of a main block that verifies. -/
theorem opDone_program {us : Nat} (h : (aryOf d k).ops = [(g, o)]) (hr : o.runs = true) (hop : o.op = 2)
    (hp : programUnit (targetAt d k false o.index o.page).1 o d = (false, e)) : opDone k g us true d = opEnd k g 0 e := by
  unfold opDone
  rw [h, mget_single]
  generalize calRowBytes d k = c
  simp [hr, hop, hp, opEnd]

/-- What a failed program of a parameter sector leaves before it ends. -/
def sectorFailed (k g : Nat) (o : AryOp) (d : Dev) : Dev :=
  wearEvent k 3 true o.index o.page (wearUpd k true o.index (fun w => { w with failed := true })
    (cntAdd (Reg.ARY_FAIL_CNT k) F.ARY_FAIL_CNT_COUNT F.ARY_FAIL_CNT_OVF 1 (srcAry 8 k) (sf (Reg.ARY_OPSTAT k g) F.ARY_OPSTAT_FAIL 1
      (damage (targetAt d k true o.index o.page).1 (targetAt d k true o.index o.page).2 d))))

theorem opDone_sectorFailed {us : Nat} (h : (aryOf d k).ops = [(g, o)]) (hr : o.runs = true) (hop : o.op = 4) :
    opDone k g us false d = opEnd k g 7 (sectorFailed k g o d) := by
  unfold opDone
  rw [h, mget_single]
  generalize calRowBytes d k = c
  simp [hr, hop, opEnd, sectorFailed]

/-! ### A failure (R331, R351, R352) -/

theorem IrqOnly.kept (h : IrqOnly d e) : e.kept = d.kept := by obtain ⟨_, _, _, _, _, rfl⟩ := h; rfl

theorem arys_logOnce (r : Reg) (fv fo : Fld) {fill : Dev → Dev} (hf : ∀ e, (fill e).arys = e.arys) (d : Dev) :
    (logOnce r fv fo fill d).arys = d.arys := by
  unfold logOnce
  split
  · rfl
  · exact hf _

theorem arys_stackEvent (key n : Nat) (d : Dev) : (stackEvent key n d).arys = d.arys := by
  unfold stackEvent
  dsimp only
  split <;> rfl

theorem Touches.stackEvent {w : Nat → Prop} (h : Touches w d e) (key n : Nat) : Touches w d (stackEvent key n e) := by
  unfold Machine.stackEvent
  exact Touches.ite h (Touches.mk h)

/-- A wear event is recorded in its log, at its source and at the scoresheet. -/
theorem wearEvent_frame (ev : Nat) (sector : Bool) (index page : Nat) (d : Dev) :
    (wearEvent k ev sector index page d).arys = d.arys ∧
    Touches (fun a => a = (Reg.ARY_WEAR_LOG k).addr ∨ scored a) d (wearEvent k ev sector index page d) := by
  unfold wearEvent
  refine ⟨?_, Touches.stackEvent (Touches.scoreEvent (Touches.raise ((Touches.refl d).logOnce _ _ _ _ (.inl (.inl rfl)) fun e he => ?_) _)
    _ _ _ _ fun _ => .inr) _ _⟩
  · rw [arys_stackEvent, (silent_scoreEvent _ _ _ _ _).2, arys_raise]
    refine arys_logOnce _ _ _ (fun _ => ?_) d
    rfl
  · exact ((((he.sf _ _ _ (.inl (.inl rfl))).sf _ _ _ (.inl (.inl rfl))).sf _ _ _ (.inl (.inl rfl))).sf _ _ _ (.inl (.inl rfl))).sf _ _ _
      (.inl (.inl rfl))

/-- A failed program of a sector stands in ARY_OPSTAT, in the count of failures and in the wear record. -/
theorem sectorFailed_fails (hk : k < 16) (hg : g < 5) :
    gb (sectorFailed k g o d) (Reg.ARY_OPSTAT k g) F.ARY_OPSTAT_FAIL = true ∧
    gf (sectorFailed k g o d) (Reg.ARY_FAIL_CNT k) F.ARY_FAIL_CNT_COUNT = min (gf d (Reg.ARY_FAIL_CNT k) F.ARY_FAIL_CNT_COUNT + 1) 0x7FFFFFFF ∧
    (wearOf (sectorFailed k g o d) k true o.index).failed = true ∧ (aryOf (sectorFailed k g o d) k).ops = (aryOf d k).ops ∧
    (aryOf (sectorFailed k g o d) k).want = (aryOf d k).want ∧ (sectorFailed k g o d).kept = d.kept := by
  have other : (Reg.ARY_FAIL_CNT k).addr ≠ (Reg.ARY_OPSTAT k g).addr := by
    simp only [Reg.ARY_FAIL_CNT, Reg.ARY_OPSTAT]
    omega
  have failRaised : ¬ raised (Reg.ARY_FAIL_CNT k).addr := arrayReg_not_raised (by simp only [Reg.ARY_FAIL_CNT]; omega)
  unfold sectorFailed
  generalize hdam : damage (targetAt d k true o.index o.page).1 (targetAt d k true o.index o.page).2 d = dam
  have store : StoreOnly d dam := hdam ▸ storeOnly_damage _ _ _
  generalize hcnt : cntAdd (Reg.ARY_FAIL_CNT k) F.ARY_FAIL_CNT_COUNT F.ARY_FAIL_CNT_OVF 1 (srcAry 8 k)
    (sf (Reg.ARY_OPSTAT k g) F.ARY_OPSTAT_FAIL 1 dam) = cnt
  have aryCnt : aryOf cnt k = aryOf d k := by
    rw [← hcnt, aryOf_cntAdd, aryOf_sf]
    exact aryOf_congr store.arys k
  obtain ⟨arys, touches⟩ := wearEvent_frame (k := k) 3 true o.index o.page (wearUpd k true o.index (fun w => { w with failed := true }) cnt)
  have ary := aryOf_congr arys k
  have worn : aryOf (wearUpd k true o.index (fun w => { w with failed := true }) cnt) k =
      { aryOf d k with wear := mupd (aryOf d k).wear (wearKey true o.index) {} fun w => { w with failed := true } } := by
    unfold wearUpd
    rw [aryOf_aryUpd, aryCnt]
  refine ⟨?_, ?_, ?_, ?_, ?_, ?_⟩
  · have shows : gf cnt (Reg.ARY_OPSTAT k g) F.ARY_OPSTAT_FAIL = 1 := by
      rw [← hcnt]
      unfold gf
      rw [rd_cntAdd_ne _ _ _ _ _ _ _ other.symm (opstat_not_raised hk hg)]
      exact gf_sf_same _ _ _ _ (by decide)
    unfold gb
    rw [touches.gf_eq _ _ (by simp only [scored, Reg.ARY_OPSTAT, Reg.ARY_WEAR_LOG, Reg.ARB_SCORE_SEQ, Reg.ARB_SCORE_LOST]; omega)
      (opstat_not_raised hk hg)]
    exact congrArg (· != 0) shows
  · rw [touches.gf_eq _ _ (by simp only [scored, Reg.ARY_FAIL_CNT, Reg.ARY_WEAR_LOG, Reg.ARB_SCORE_SEQ, Reg.ARB_SCORE_LOST]; omega) failRaised]
    have counts : gf cnt (Reg.ARY_FAIL_CNT k) F.ARY_FAIL_CNT_COUNT = min (gf d (Reg.ARY_FAIL_CNT k) F.ARY_FAIL_CNT_COUNT + 1) 0x7FFFFFFF := by
      rw [← hcnt, gf_cntAdd _ _ _ _ _ _ (by decide) (by decide) (by decide) failRaised, gf_sf_ne _ _ _ _ other, store.gf]
      rfl
    exact counts
  · unfold wearOf
    rw [ary, worn]
    exact congrArg Wear.failed (mgetD_mput_same _ _ _ _)
  · rw [ary, worn]
  · rw [ary, worn]
  · have counted := ((IrqOnly.refl (sf (Reg.ARY_OPSTAT k g) F.ARY_OPSTAT_FAIL 1 dam)).cntAdd (Reg.ARY_FAIL_CNT k)
      F.ARY_FAIL_CNT_COUNT F.ARY_FAIL_CNT_OVF 1 (srcAry 8 k)).kept
    rw [hcnt] at counted
    have recorded := (wearEvent_h k 3 true o.index o.page (wearUpd k true o.index (fun w => { w with failed := true }) cnt)
      (holds_self quiet quiet_free _)).2.2.1
    have updated : (wearUpd k true o.index (fun w => { w with failed := true }) cnt).kept = cnt.kept := rfl
    exact recorded.trans (updated.trans (counted.trans store.kept))

/-! ### Rows without an operation -/

theorem out_opOutcome (k g c : Nat) (d : Dev) : (opOutcome k g c d).out = d.out := by
  unfold opOutcome
  rw [out_raise _ _ (.inr (by unfold srcAry; omega))]
  rfl

theorem autoResume_none (h : mget (aryOf d k).ops g = none) : autoResume k g d = d := by
  unfold autoResume
  rw [h]

theorem xOpDone_none (h : mget (aryOf d k).ops g = none) (us : Nat) (ok : Bool) : xOpDone k g us ok d = d := by
  unfold xOpDone
  rw [h]

theorem AryOp.running_begun (h : o.begun = true) : o.running d = { o with wait := false, bySlot := false, since := fastTime d } := by
  unfold AryOp.running
  rw [← h]

theorem kept_wearUpd (k : Nat) (sector : Bool) (index : Nat) (f : Wear → Wear) (d : Dev) : (wearUpd k sector index f d).kept = d.kept := rfl

theorem mem_wearUpd (k : Nat) (sector : Bool) (index : Nat) (f : Wear → Wear) (d : Dev) : (wearUpd k sector index f d).mem = d.mem := rfl

/-- The outcome `c` of the one operation of a stack stands, and the operation and the grant are gone. -/
def OpEnded (k g c : Nat) (d : Dev) : Prop := (aryOf d k).ops = [] ∧ k ∉ d.arys.grants ∧ Outcome k g c d

section
variable {c us : Nat} {ok : Bool} (hk : k < 16) (hq : ArrayQuiet d) (hw : (aryOf d k).want = []) (h : (aryOf d k).ops = [(g, o)])
  (hr : o.runs = true) (hm : o.master < 8)
include hk hq h hr hm

/-- A client's operation ends over the state `e` that its work leaves. -/
theorem xOpDone_over (hg : g < 5) (hc : c < 128) (hok : ok = true ∨ g = 4) (done : opDone k g us ok d = opEnd k g c e)
    (hops : (aryOf e k).ops = (aryOf d k).ops) (hwant : (aryOf e k).want = []) (hkept : e.kept = d.kept) :
    OpEnded k g c (xOpDone k g us ok d) ∧ (aryOf (xOpDone k g us ok d) k).wear = (aryOf e k).wear ∧
    (∀ f, (F.ARY_OPSTAT_CODE.lo + F.ARY_OPSTAT_CODE.len ≤ f.lo ∧ f.lo + f.len ≤ F.ARY_OPSTAT_DONE.lo) →
      gf (xOpDone k g us ok d) (Reg.ARY_OPSTAT k g) f = gf e (Reg.ARY_OPSTAT k g) f) ∧ Touches (opRegs k g) e (xOpDone k g us ok d) := by
  have kept : (opDone k g us ok d).kept = d.kept := by
    rw [done, kept_opEnd]
    exact hkept
  obtain ⟨ops, grants, outcome, wear, same, touches⟩ := opEnd_single hk hg hc (hops.trans h) hwant
  rw [xOpDone_client h hr hm hq hok kept, done]
  exact ⟨⟨ops, grants, outcome⟩, wear, same, touches⟩

include hw

/-- An erase of a main block that verifies: its eight units read as erased, and every other byte stands. -/
theorem xOpDone_erase (hg : g < 4) (hus : us ≤ 2 * opNominal d k o) (hop : o.op = 1) (hi : o.index < mainBlocks d) :
    OpEnded k g 0 (xOpDone k g us true d) ∧ (wearOf (xOpDone k g us true d) k false o.index).eOpen = false ∧
    (∀ u x, u < 8 → inUnit d k o.index u x → byteAt (xOpDone k g us true d).mem x = 0xFF) ∧
    (∀ x, (∀ u < 8, ¬ inUnit d k o.index u x) → byteAt (xOpDone k g us true d).mem x = byteAt d.mem x) := by
  have store : StoreOnly d (eraseTarget k false o.index d) := storeOnly_eraseTarget o.index d
  have ary := aryOf_congr store.arys k
  obtain ⟨ended, wear, -, touches⟩ := xOpDone_over hk hq h hr hm (by omega) (by decide) (.inl rfl) (opDone_erase h hr hop hus)
    (by unfold wearUpd; rw [aryOf_aryUpd, ary]) (by unfold wearUpd; rw [aryOf_aryUpd, ary]; exact hw)
    ((kept_wearUpd k false o.index _ _).trans store.kept)
  refine ⟨ended, ?_, fun u x hu hx => ?_, fun x hx => ?_⟩
  · rw [wearOf_congr wear, wearOf_wearUpd]
  · rw [touches.2.1, mem_wearUpd]
    exact byteAt_eraseTarget_in hk hi hu hx
  · rw [touches.2.1, mem_wearUpd]
    exact byteAt_eraseTarget_out hx

/-- A program of a main block that verifies, over erased cells: exactly its data are stored. -/
theorem xOpDone_program (hg : g < 4) (hop : o.op = 2) (hi : o.index < mainBlocks d) (hrise : Rising o.data)
    (hfit : ∀ x ∈ o.data, x.1 < 0x80000) (herrs : o.errs = []) {a : Nat} (ha : a = (targetAt d k false o.index o.page).1)
    (he : readsErased d a 0x80000 = true) :
    OpEnded k g 0 (xOpDone k g us true d) ∧
    (∀ x, byteAt (xOpDone k g us true d).mem x = if a ≤ x ∧ x < a + 0x80000 then mgetD o.data (x - a) 0xFF else byteAt d.mem x) ∧
    gf (xOpDone k g us true d) (Reg.ARY_OPSTAT k g) F.ARY_OPSTAT_PNE = gf d (Reg.ARY_OPSTAT k g) F.ARY_OPSTAT_PNE := by
  have unit : a = arrayBase k + unitOff d o.index (o.page % 8) := ha
  have within := unitOff_lt hi (Nat.mod_lt o.page (show 0 < 8 by decide))
  have aligned : a % 32 = 0 := by
    have := unitOff_aligned (d := d) o.index (o.page % 8)
    rw [unit]
    unfold arrayBase
    omega
  have default : ∀ x, a ≤ x → x < a + 0x80000 → memDefault x = 0xFF := fun x hlo hhi => by
    rw [← Nat.add_sub_cancel' (show arrayBase k ≤ x by omega)]
    exact memDefault_window hk (by omega)
  obtain ⟨e, program, store, bytes⟩ := programUnit_erased aligned herrs hrise hfit default he
  have ary : aryOf e k = aryOf d k := aryOf_congr store.arys k
  obtain ⟨ended, -, same, touches⟩ := xOpDone_over (us := us) hk hq h hr hm (by omega) (by decide) (.inl rfl)
    (opDone_program h hr hop (ha ▸ program)) (congrArg Ary.ops ary) ((congrArg Ary.want ary).trans hw) store.kept
  refine ⟨ended, fun x => ?_, (same _ (by decide)).trans (store.gf _ _)⟩
  rw [touches.2.1]
  exact bytes x

/-- A program of a parameter sector that fails. -/
theorem xOpDone_sectorFailed (hg : g = 4) (hop : o.op = 4) :
    OpEnded k g 7 (xOpDone k g us false d) ∧ gb (xOpDone k g us false d) (Reg.ARY_OPSTAT k g) F.ARY_OPSTAT_FAIL = true ∧
    gf (xOpDone k g us false d) (Reg.ARY_FAIL_CNT k) F.ARY_FAIL_CNT_COUNT = min (gf d (Reg.ARY_FAIL_CNT k) F.ARY_FAIL_CNT_COUNT + 1) 0x7FFFFFFF ∧
    (wearOf (xOpDone k g us false d) k true o.index).failed = true := by
  have group : g < 5 := by omega
  obtain ⟨fail, count, worn, failedOps, failedWant, failedKept⟩ := sectorFailed_fails (d := d) (o := o) hk group
  obtain ⟨ended, wear, same, touches⟩ := xOpDone_over (us := us) hk hq h hr hm group (by decide) (.inr hg)
    (opDone_sectorFailed h hr hop) failedOps (failedWant.trans hw) failedKept
  refine ⟨ended, (congrArg (· != 0) (same _ (by decide))).trans fail, ?_, ?_⟩
  · rw [touches.gf_eq _ _ (by simp only [opRegs, Reg.ARY_FAIL_CNT, Reg.ARY_OPSTAT, Reg.ARY_RD_STAT]; omega)
      (arrayReg_not_raised (by simp only [Reg.ARY_FAIL_CNT]; omega))]
    exact count
  · rw [wearOf_congr wear]
    exact worn

end

end

/-! ### The obligation -/

/-- Settles O25: writes into the buffer and the commit by what the controller makes of each; grants, suspends and read slots on the one
operation of a stack; and an operation's end by what the store is left with. -/
theorem programsAndErasesRunAndEnd : Obligations.ProgramsAndErasesRunAndEnd := by
  intro s master k g hs hm hk hg d0 a0 wrote ops op outcome only free slot
  refine ⟨fun o x hops hruns hx hplane => ⟨fun hauto => ?_, fun hauto => ?_⟩, fun hwant hreads hq hheld => ⟨?_, ?_, ?_, ?_, ?_, ?_, ?_, ?_⟩⟩
  · refine completes_sys (f := autoSuspend k g) rfl (by simp [WellFormed.lt, hk, hg]) hs ?_
    rw [autoSuspend_waited hops hruns hx hplane, if_pos hauto]
    exact slotOpen_opens hk hops
  · refine completes_sys (f := autoSuspend k g) rfl (by simp [WellFormed.lt, hk, hg]) hs ?_
    rw [autoSuspend_waited hops hruns hx hplane, if_neg (Bool.eq_false_iff.1 hauto)]
  · intro b off bs p hb hoff hfit _ hc hp
    refine completes_sys (f := xWindowWrite master k off bs p) rfl (by simp [WellFormed.lt, hm, hk]; exact hoff) hs ?_
    rw [windowWrite_quiet hk hoff hq hheld hc hp, winWrite_data hb hfit]
    refine ⟨rfl, ((Touches.refl d0).aryUpd k _).emit _, (bufferData off bs b, bufferMarks off bs p b), aryOf_pbWrite hb off bs p,
      fun i hi => bufferData_in hi, fun y hy => bufferData_out hy, fun hpt y hy => ?_, fun hpf hlen => ?_, fun hpf hlen => ?_⟩
    · exact (congrArg (mget · y) (if_pos hpt)).trans (mget_marked poisonPat _ (.inl hy))
    · exact (congrArg (mget · (off / 32)) ((if_neg (Bool.eq_false_iff.1 hpf)).trans (if_pos hlen))).trans (mget_mdel_same _ _)
    · exact (if_neg (Bool.eq_false_iff.1 hpf)).trans (if_neg hlen)
  · intro hseq hc b hb j low early hindex hpage hj hnone harm
    refine ⟨fun hearly => ?_, fun hearly hfree hwait hclean => ?_⟩
    · refine completes_sys (f := xCommandWord master k 0x81) rfl (by simp [WellFormed.lt, hm, hk]) hs ?_
      rw [commandWord_commit hk hq hheld hc hb hseq, pbCommit_early hb hearly]
      obtain ⟨ary, ended, touches⟩ := bufferEnded (d := d0) (op := if b.sector then 4 else 2) (index := b.index) (page := b.page) (c := 6) hk hj
        (by decide)
      exact ⟨congrArg (· ++ [Out.busWrote master]) (out_opOutcome _ _ _ _), ary, ended, touches.emit _⟩
    · refine completes_sys (f := xCommandWord master k 0x81) rfl (by simp [WellFormed.lt, hm, hk]) hs ?_
      rw [commandWord_commit hk hq hheld hc hb hseq, pbCommit_starts hb hearly hclean harm]
      have program : (bufferOp b).op = 2 ∨ (bufferOp b).op = 4 := by
        unfold bufferOp
        cases b.sector <;> simp
      have shut := aryOf_bufferShut (d := d0) (k := k)
      obtain ⟨pb, grants, shownOp, shownIndex, shownPage, there, out, touches⟩ := opStart_program (d := bufferShut k d0) (o := bufferOp b) hk hj
        (aryGroup_bufferOp b) hfree (by rw [shut]; exact hnone) (by rw [shut]; exact hwait) (by rw [shut]; exact hreads) rfl rfl program
        hindex hpage
      exact ⟨congrArg (· ++ [Out.busWrote master]) out, pb.trans (by rw [shut]), grants, shownOp, shownIndex, shownPage, there,
        (((Touches.refl d0).aryUpd k _).trans touches).emit _⟩
  · intro b hb j hj
    refine completes_sys (f := aryAfter (pbTimeout k)) rfl (by simp [WellFormed.lt, hk]) hs ?_
    rw [aryAfter_quiet hq (kept_pbTimeout k _), pbTimeout_open hb]
    exact bufferEnded hk hj (by decide)
  · intro hb
    refine completes_sys (f := aryAfter (pbTimeout k)) rfl (by simp [WellFormed.lt, hk]) hs ?_
    rw [aryAfter_quiet hq (kept_pbTimeout k _), pbTimeout_none hb]
  · exact fun h => completes_sys (f := grantGive) rfl rfl hs (grantGive_none h)
  · intro hnone
    exact ⟨completes_sys (f := autoSuspend k g) rfl (by simp [WellFormed.lt, hk, hg]) hs (autoSuspend_idle hwant g),
      completes_sys (f := autoResume k g) rfl (by simp [WellFormed.lt, hk, hg]) hs (autoResume_none hnone),
      fun us ok => completes_sys (f := xOpDone k g us ok) rfl (by simp [WellFormed.lt, hk, hg]) hs (xOpDone_none hnone us ok)⟩
  · intro o hops
    refine ⟨fun hh hr => ?_, fun rest hqueue hgrants how hbegun => ?_, fun _ => ?_, fun hslot how hcmd hbegun hfree => ?_,
      fun hslot how hcmd => ?_, fun ok us hruns hmaster hus => ?_⟩
    · refine completes_sys (f := arySuspendDue k) rfl (by simp [WellFormed.lt, hk]) hs ?_
      rw [arySuspendDue_held hops hh hr]
      obtain ⟨suspended, grants, engs⟩ := suspended_single (ops_opPut (p := { o with held := false, byCmd := true }) hops) (by simp [AryOp.runs])
      exact ⟨suspended, grants, ((Touches.refl d0).aryUpd k _).trans engs.touches⟩
    · refine completes_sys (f := grantGive) rfl rfl hs ?_
      rw [grantGive_first hqueue hgrants hops how]
      obtain ⟨run, queue, grants, -, touches⟩ := opsRun_begun (d := granted k (queueNext rest d0)) hops how hbegun
      exact ⟨run.trans (by rw [AryOp.running_begun hbegun]; rfl), queue, grants, (Touches.mk (Touches.refl d0)).trans (touches.mono fun _ => .inr)⟩
    · exact completes_sys (f := autoSuspend k g) rfl (by simp [WellFormed.lt, hk, hg]) hs (autoSuspend_idle hwant g)
    · refine completes_sys (f := autoResume k g) rfl (by simp [WellFormed.lt, hk, hg]) hs ?_
      rw [autoResume_free hops hslot how hcmd hfree]
      obtain ⟨run, -, grants, shut, touches⟩ := opsRun_begun (d := granted k (opPut k g { o with wait := true } d0)) (ops_opPut hops) rfl hbegun
      exact ⟨run.trans (by rw [AryOp.running_begun (o := { o with wait := true }) hbegun, how]; rfl), grants, shut,
        (Touches.mk ((Touches.refl d0).aryUpd k _)).trans (touches.mono fun _ => .inr)⟩
    · refine completes_sys (f := autoResume k g) rfl (by simp [WellFormed.lt, hk, hg]) hs ?_
      rw [autoResume_held hops hslot how hcmd]
      exact ⟨ops_opPut hops, congrArg (· != 0) (gf_sf_same _ _ _ _ (by decide)), ((Touches.refl d0).aryUpd k _).sf _ _ _ (.inl (.inr rfl))⟩
    · intro t ended
      refine ⟨fun hok hop hg4 hi => ?_, fun hok hop hg4 hi hrise hfit herrs he => ?_, fun hok hop hg4 => ?_⟩
      · subst hok
        refine completes_sys (f := xOpDone k g us true) rfl (by simp [WellFormed.lt, hk, hg]) hs ?_
        obtain ⟨gone, worn, inside, outside⟩ := xOpDone_erase hk hq hwant hops hruns hmaster hg4 hus hop hi
        exact ⟨gone, worn, fun u x hu hlo hhi => inside u x hu ⟨hlo, hhi⟩, fun x hx => outside x fun u hu hin =>
          (hx u hu).elim (Nat.not_lt.2 hin.1) (Nat.not_le.2 hin.2)⟩
      · subst hok
        have main : t = targetAt d0 k false o.index o.page := congrArg (targetAt d0 k · o.index o.page) (by simp [hop])
        exact completes_sys (f := xOpDone k g us true) rfl (by simp [WellFormed.lt, hk, hg]) hs
          (xOpDone_program hk hq hwant hops hruns hmaster hg4 hop hi hrise hfit herrs (congrArg Prod.fst main)
            ((congrArg (readsErased d0 t.1 ·) (congrArg Prod.snd main)).symm.trans he))
      · subst hok
        exact completes_sys (f := xOpDone k g us false) rfl (by simp [WellFormed.lt, hk, hg]) hs
          (xOpDone_sectorFailed hk hq hwant hops hruns hmaster hg4 hop)
  · intro b hb hnone
    refine completes_sys (f := aryAfter (aryRetire k b)) rfl (by simp [WellFormed.lt, hk, hb]) hs ?_
    rw [aryAfter_quiet hq (kept_aryRetire hnone)]
    obtain ⟨blind, retired, same, engs⟩ := aryRetire_retires hnone hreads
    exact ⟨blind, retired, same, engs.touches⟩

end Sys2Proof.Machine
end

/-! ## Command sequences at a stack's window -/

section
/-! SUPPORT and settlement of O23. -/

namespace Sys2Proof.Machine

section
variable {d e : Dev} {k master : Nat}

/-! ### Keys, late writes and stray writes (R314, R317 to R319) -/

/-- The first key begins a sequence. -/
theorem winWrite_firstKey (hseq : (aryOf d k).seq = none) :
    winWrite master k cmdOff (leBytes 4 0x6E2D) false d = aryUpd k (fun a => { a with seq := some (1, master) }) d := by
  have word : leNat (leBytes 4 0x6E2D) = 0x6E2D := by decide
  unfold winWrite
  dsimp only
  rw [word, hseq]
  rfl

/-- The second key, at its own offset, from the master of the first. -/
theorem winWrite_secondKey (hseq : (aryOf d k).seq = some (1, master)) (hpb : (aryOf d k).pb = none) :
    winWrite master k key2Off (leBytes 4 0x91D2) false d = aryUpd k (fun a => { a with seq := some (2, master) }) d := by
  have word : leNat (leBytes 4 0x91D2) = 0x91D2 := by decide
  unfold winWrite
  dsimp only
  rw [word, hseq, hpb]
  simp [leBytes_length, cmdOff, key2Off]

/-- With no sequence begun and no buffer open, a write that is no key and no single-write command is none of the window's. -/
theorem winWrite_stray {off : Nat} {bs : List Byte} {p : Bool} (hseq : (aryOf d k).seq = none) (hpb : (aryOf d k).pb = none)
    (hword : off = cmdOff → leNat bs ∉ [0x4FB0, 0x2FD0, 0x6E2D]) : winWrite master k off bs p d = strayWrite k d := by
  unfold winWrite
  dsimp only
  rw [hseq, hpb]
  by_cases hoff : off = cmdOff
  · have other := hword hoff
    simp only [List.mem_cons, List.not_mem_nil, or_false, not_or] at other
    obtain ⟨suspend, resume, key⟩ := other
    simp [suspend, resume, key]
  · simp [hoff]

/-- A whole word that no cause refuses, as `windowWrite_quiet` has it of any write. -/
theorem wordWrite_quiet {off w : Nat} (hk : k < 16) (ho : off < 2 ^ 31) (hq : ArrayQuiet d) (hheld : d.boot.held = [])
    (hc : localCause d (arrayBase k + off) 4 true = none) :
    xWindowWrite master k off (leBytes 4 w) false d = emit (.busWrote master) (winWrite master k off (leBytes 4 w) false d) :=
  windowWrite_quiet hk ho hq hheld (by rw [leBytes_length]; exact hc) (fun h => absurd h (by decide))

theorem xKeyWrite_first (hk : k < 16) (hq : ArrayQuiet d) (hheld : d.boot.held = []) (hc : localCause d (arrayBase k + cmdOff) 4 true = none)
    (hseq : (aryOf d k).seq = none) :
    xKeyWrite master k false d = emit (.busWrote master) (aryUpd k (fun a => { a with seq := some (1, master) }) d) := by
  unfold xKeyWrite
  rw [← winWrite_firstKey hseq, if_neg Bool.false_ne_true]
  exact wordWrite_quiet hk (by decide) hq hheld hc

theorem xKeyWrite_second (hk : k < 16) (hq : ArrayQuiet d) (hheld : d.boot.held = [])
    (hc : localCause d (arrayBase k + key2Off) 4 true = none) (hseq : (aryOf d k).seq = some (1, master)) (hpb : (aryOf d k).pb = none) :
    xKeyWrite master k true d = emit (.busWrote master) (aryUpd k (fun a => { a with seq := some (2, master) }) d) := by
  unfold xKeyWrite
  rw [← winWrite_secondKey hseq hpb, if_pos rfl]
  exact wordWrite_quiet hk (by decide) hq hheld hc

theorem aryOf_strayWrite : aryOf (strayWrite k d) k = aryOf d k := aryOf_sf _ _ _ _ _

theorem gf_strayWrite : gf (strayWrite k d) (Reg.ARY_STAT k) F.ARY_STAT_SEQ_ERR = 1 := gf_sf_same _ _ _ _ (by decide)

theorem touches_strayWrite : Touches (fun a => a = (Reg.ARY_STAT k).addr) d (strayWrite k d) := (Touches.refl d).sf _ _ _ (.inl rfl)

theorem aryOf_seqErr : aryOf (seqErr k d) k = { aryOf d k with seq := none } := aryOf_aryUpd _ _ _

theorem touches_seqErr : Touches (fun a => a = (Reg.ARY_STAT k).addr) d (seqErr k d) := ((Touches.refl d).aryUpd k _).sf _ _ _ (.inl rfl)

theorem gf_seqErr : gf (seqErr k d) (Reg.ARY_STAT k) F.ARY_STAT_SEQ_ERR = 1 := gf_sf_same _ _ _ _ (by decide)

theorem xSeqTimeout_begun (h : (aryOf d k).seq ≠ none) : xSeqTimeout k d = seqErr k d := if_pos (Option.isSome_iff_ne_none.2 h)

theorem xSeqTimeout_idle (h : (aryOf d k).seq = none) : xSeqTimeout k d = d := if_neg (by simp [h])

/-! ### The third write (R314, R320, R361) -/

/-- The codes of the command words. -/
def commandCodes : List Nat := [0x60, 0x81, 0xB0, 0xD0, 0xF0, 0x70, 0x90, 0xE8, 0xC5, 0xC6]

theorem commandCodes_lt : ∀ c ∈ commandCodes, c < 256 := by decide

/-- What the command of a code does, once its third write has taken the sequence. -/
def commandAct (k master c : Nat) (d : Dev) : Dev :=
  if c = 0x60 then cmdErase k master d
  else if c = 0x81 then cmdBuffer k master d
  else if c = 0xC5 then cmdUnlock k d
  else if c = 0xC6 then cmdLock k d
  else if c = 0xB0 then arySuspend k (setLast k 0 d)
  else if c = 0xD0 then aryResume k (setLast k 0 d)
  else if c = 0xF0 then aryAbort k (setLast k 0 d)
  else if c = 0x70 then sf (Reg.ARY_STAT k) F.ARY_STAT_MODE 1 (setLast k 0 d)
  else if c = 0x90 then sf (Reg.ARY_STAT k) F.ARY_STAT_MODE 2 (setLast k 0 d)
  else sf (Reg.ARY_STAT k) F.ARY_STAT_MODE 3 (setLast k 0 d)

/-- While a password change is written every command other than suspend and resume is refused with BUSY. -/
theorem seqThird_command {c : Nat} (hc : c ∈ commandCodes) : seqThird k master (c + 256 * (255 - c)) d =
    if gf d (Reg.ARY_STAT k) F.ARY_STAT_PW_BUSY ≠ 0 ∧ c ≠ 0xB0 ∧ c ≠ 0xD0 then setLast k 5 (seqTaken k d)
    else commandAct k master c (seqTaken k d) := by
  have below := commandCodes_lt c hc
  have low : (c + 256 * (255 - c)) % 256 = c := by omega
  have high : (c + 256 * (255 - c)) / 256 = 255 - c := by omega
  have known : [0x60, 0x81, 0xB0, 0xD0, 0xF0, 0x70, 0x90, 0xE8, 0xC5, 0xC6].contains c = true := List.contains_iff_mem.2 hc
  have busy : (gb d (Reg.ARY_STAT k) F.ARY_STAT_PW_BUSY && c != 0xB0 && c != 0xD0) = true ↔
      gf d (Reg.ARY_STAT k) F.ARY_STAT_PW_BUSY ≠ 0 ∧ c ≠ 0xB0 ∧ c ≠ 0xD0 := by simp [gb, and_assoc]
  unfold seqThird
  rw [low, high]
  dsimp only
  rw [known, if_neg (by simp)]
  by_cases h : gf d (Reg.ARY_STAT k) F.ARY_STAT_PW_BUSY ≠ 0 ∧ c ≠ 0xB0 ∧ c ≠ 0xD0
  · exact (if_pos (busy.2 h)).trans (if_pos h).symm
  · exact (if_neg (mt busy.1 h)).trans (if_neg h).symm

section
variable {w : Nat} (hk : k < 16) (hq : ArrayQuiet d) (hheld : d.boot.held = []) (hc : localCause d (arrayBase k + cmdOff) 4 true = none)
  (hseq : (aryOf d k).seq = some (2, master)) (hw : w ∈ commandCodes)
include hk hq hheld hc hseq hw

theorem commandWord_acts (h : gf d (Reg.ARY_STAT k) F.ARY_STAT_PW_BUSY = 0 ∨ w = 0xB0 ∨ w = 0xD0) :
    xCommandWord master k w d = emit (.busWrote master) (commandAct k master w (seqTaken k d)) :=
  commandWord_taken hk hq hheld hc hseq (commandCodes_lt w hw) ((seqThird_command hw).trans (if_neg (by omega)))

theorem commandWord_busy (h : gf d (Reg.ARY_STAT k) F.ARY_STAT_PW_BUSY ≠ 0) (hs : w ≠ 0xB0 ∧ w ≠ 0xD0) :
    xCommandWord master k w d = emit (.busWrote master) (setLast k 5 (seqTaken k d)) :=
  commandWord_taken hk hq hheld hc hseq (commandCodes_lt w hw) ((seqThird_command hw).trans (if_pos ⟨h, hs⟩))

end

/-- A row of the command table that is the command word `w`. -/
abbrev WordRow (c : Instr) (master k w : Nat) (s : State) : Prop :=
  exec c s = liftSys (WellFormed.lt master 256 && WellFormed.lt k 16) (xCommandWord master k w) s

/-- The device once a command has been accepted: the sequence is over and its outcome is 0. -/
def accepted (k : Nat) (d : Dev) : Dev := setLast k 0 (seqTaken k d)

theorem aryOf_accepted : aryOf (accepted k d) k = { aryOf d k with seq := none } := aryOf_setLast.trans aryOf_seqTaken

theorem touches_accepted : Touches (fun a => a = (Reg.ARY_STAT k).addr) d (accepted k d) :=
  ((Touches.refl (w := fun a => a = (Reg.ARY_STAT k).addr) d).seqTaken rfl).setLast rfl 0

theorem fastTime_accepted : fastTime (accepted k d) = fastTime d := by
  have other : Reg.FAST_TIME.addr ≠ (Reg.ARY_STAT k).addr := by
    simp only [Reg.FAST_TIME, Reg.ARY_STAT]
    omega
  unfold fastTime
  exact congrArg BitVec.toNat ((rd_sf_ne _ _ _ other).trans (rd_seqTaken other))

theorem stat_not_raised (hk : k < 16) : ¬ raised (Reg.ARY_STAT k).addr := arrayReg_not_raised (by simp only [Reg.ARY_STAT]; omega)

/-- What an accepted command does besides leaves its outcome standing, if it keeps off ARY_STAT and begins no sequence. -/
theorem seqLast_accepted {w : Nat → Prop} (hk : k < 16) (h : Touches w (accepted k d) e) (hw : ¬ w (Reg.ARY_STAT k).addr)
    (hout : e.out = d.out) (hseq : (aryOf e k).seq = none) : SeqLast k master 0 d (emit (.busWrote master) e) := by
  have same := fun f => h.gf_eq (Reg.ARY_STAT k) f hw (stat_not_raised hk)
  exact .intro hout hseq ((same _).trans (gf_setLast (by decide)))
    ((same _).trans ((gf_setLast_disj (by decide)).trans gf_seqTaken_mode))

/-! ### The target of an erase or a program (R320, R354, R358) -/

section
variable {sector : Bool} {index page : Nat}

/-- The outcome of a target that must not change, in the order of the checks; 0 of one that may. -/
def changeRefusal (d : Dev) (k : Nat) (sector : Bool) (index page : Nat) : Nat :=
  if sector = true ∧ (63 < index ∨ 1 < k) then 1
  else if sector = false ∧ (gf d (Reg.ARY_GEOM k) F.ARY_GEOM_BLOCKS ≤ index ∨ 8 ≤ page) then 1
  else if sector = false ∧ index ∈ (aryOf d k).bad then 2 else if sector = false ∧ (wearOf d k false index).retired = true then 3
  else if regionState d k sector index = 1 ∨ (sector = true ∧ k = 1 ∧ 62 ≤ index) then 4
  else if mget (aryOf d k).ops (aryGroup d sector index) ≠ none ∨ (aryOf d k).pb ≠ none then 5 else 0

theorem changeRefusal_lt : changeRefusal d k sector index page < 32 := by
  unfold changeRefusal
  split_ifs <;> decide

/-- A target that may change has no operation in its plane group. -/
theorem group_free (h : changeRefusal d k sector index page = 0) : mget (aryOf d k).ops (aryGroup d sector index) = none := by
  by_contra hops
  unfold changeRefusal at h
  split_ifs at h with _ _ _ _ _ busy
  exact busy (.inl hops)

theorem targetCheck_change (hb : gf d (Reg.ARY_STAT k) F.ARY_STAT_PW_BUSY = 0) :
    targetCheck (seqTaken k d) k sector index page true = changeRefusal d k sector index page := by
  have geom : gf (seqTaken k d) (Reg.ARY_GEOM k) F.ARY_GEOM_BLOCKS = gf d (Reg.ARY_GEOM k) F.ARY_GEOM_BLOCKS :=
    congrArg (fldGet · _) (rd_seqTaken (by simp [Reg.ARY_GEOM, Reg.ARY_STAT]))
  have busy : gb (seqTaken k d) (Reg.ARY_STAT k) F.ARY_STAT_PW_BUSY = false :=
    congrArg (· != 0) ((gf_seqTaken_disj (by decide)).trans hb)
  have group : aryGroup (seqTaken k d) sector index = aryGroup d sector index := rfl
  unfold targetCheck changeRefusal
  simp only [wearOf, aryOf_seqTaken, geom, busy, group, regionState_seqTaken]
  cases sector <;> simp [mhas, Option.isSome_iff_ne_none]

/-- The erase of a target. -/
def eraseOp (sector : Bool) (index master : Nat) : AryOp := { op := if sector then 3 else 1, index := index, page := 0, master := master }

theorem eraseOp_sector : ((eraseOp sector index master).op == 3) = sector := by cases sector <;> rfl

theorem aryGroup_eraseOp : aryGroup d (decide ((eraseOp sector index master).op ≥ 3)) index = aryGroup d sector index := by
  cases sector <;> rfl

theorem cmdErase_eq (harg : cmdArg d k = (sector, index, page)) (hb : gf d (Reg.ARY_STAT k) F.ARY_STAT_PW_BUSY = 0) :
    cmdErase k master (seqTaken k d) = if changeRefusal d k sector index page = 0 then opStart k (eraseOp sector index master) (accepted k d)
      else setLast k (changeRefusal d k sector index page) (seqTaken k d) := by
  unfold cmdErase
  rw [cmdArg_seqTaken, harg]
  dsimp only
  rw [targetCheck_change hb]
  split
  next h => rw [h]; rfl
  next => rfl

/-- A buffer is open for a unit, and empty. -/
def bufferOpened (k : Nat) (sector : Bool) (index page master : Nat) (d : Dev) : Dev :=
  aryUpd k (fun a => { a with pb := some ⟨sector, index, page, [], [], master⟩ }) d

theorem cmdBuffer_eq (harg : cmdArg d k = (sector, index, page)) (hb : gf d (Reg.ARY_STAT k) F.ARY_STAT_PW_BUSY = 0) :
    cmdBuffer k master (seqTaken k d) = if changeRefusal d k sector index page = 0 then bufferOpened k sector index page master (accepted k d)
      else setLast k (changeRefusal d k sector index page) (seqTaken k d) := by
  unfold cmdBuffer
  rw [cmdArg_seqTaken, harg]
  dsimp only
  rw [targetCheck_change hb]
  split
  next h => rw [h]; rfl
  next => rfl

end

/-- The empty buffer opens, and that is all. -/
theorem bufferOpened_shows {sector : Bool} {index page : Nat} (hk : k < 16)
    (he : e = bufferOpened k sector index page master (accepted k d)) :
    SeqLast k master 0 d (emit (.busWrote master) e) ∧ aryOf e k = { aryOf d k with seq := none, pb := some ⟨sector, index, page, [], [], master⟩ } ∧
    Touches (fun a => a = (Reg.ARY_STAT k).addr) d e := by
  have ary : aryOf e k = { aryOf d k with seq := none, pb := some ⟨sector, index, page, [], [], master⟩ } := by
    rw [he, bufferOpened, aryOf_aryUpd, aryOf_accepted]
  subst he
  have opened : Touches (fun _ => False) (accepted k d) (bufferOpened k sector index page master (accepted k d)) :=
    (Touches.refl _).aryUpd k _
  exact ⟨seqLast_accepted hk opened id rfl (congrArg Ary.seq ary), ary, touches_accepted.aryUpd k _⟩

/-- The window is in mode `m`. -/
def modeSet (k m : Nat) (d : Dev) : Dev := sf (Reg.ARY_STAT k) F.ARY_STAT_MODE m d

theorem modeSet_shows {m : Nat} (hm : m < 4) (he : e = modeSet k m (accepted k d)) :
    e.out = d.out ∧ gf e (Reg.ARY_STAT k) F.ARY_STAT_LAST = 0 ∧ gf e (Reg.ARY_STAT k) F.ARY_STAT_MODE = m ∧
    aryOf e k = { aryOf d k with seq := none } ∧ Touches (fun a => a = (Reg.ARY_STAT k).addr) d e := by
  subst he
  unfold modeSet
  refine ⟨rfl, ?_, ?_, (aryOf_sf _ _ _ _ _).trans aryOf_accepted, touches_accepted.sf _ _ _ (.inl rfl)⟩
  · rw [gf_sf_disj _ _ _ _ _ (by decide) (by decide)]
    exact gf_setLast (by decide)
  · rw [gf_sf_same _ _ _ _ (by decide)]
    exact Nat.mod_eq_of_lt hm

/-! ### An erase starts (R323, R324, R345, R346) -/

section
variable {g index : Nat} {o : AryOp} {sector : Bool}

theorem winBlank_unread (h : (aryOf d k).reads = []) (b : Nat) :
    winBlank k b d = aryUpd k (fun a => { a with reads := a.reads.filter (fun q => q.page / 256 != b) }) d := by
  unfold winBlank
  rw [h]
  rfl

/-- What an operation's start clears is no affair of the sequence or of the wear record. -/
theorem opEntered_keeps (h : (aryOf d k).reads = []) :
    (aryOf (opEntered k g o d) k).seq = (aryOf d k).seq ∧ (aryOf (opEntered k g o d) k).wear = (aryOf d k).wear := by
  unfold opEntered
  split
  · unfold invalidate
    rw [winBlank_unread (by rw [aryOf_aryUpd]; exact h), aryOf_aryUpd, aryOf_aryUpd]
    exact ⟨rfl, rfl⟩
  · unfold psecInvalidate
    dsimp only
    rw [aryOf_aryUpd]
    exact ⟨rfl, rfl⟩

/-- One more erase is counted, and the block's erase is open. -/
def Wear.erasing (w : Wear) : Wear := { w with count := w.count + 1, eOpen := true }

/-- Far from the rated count of erases the count rises, and no event follows. -/
theorem eraseBegin_counts (h : (wearOf d k sector index).count + 1 < 2700) : eraseBegin k sector index d = wearUpd k sector index Wear.erasing d := by
  have far : ¬ ((wearOf d k sector index).count + 1 ≥ if sector then 90000 else 2700) := by
    split <;> omega
  have count : min ((wearOf d k sector index).count + 1) 0xFFFFFF = (wearOf d k sector index).count + 1 := by omega
  unfold eraseBegin
  dsimp only
  rw [if_neg fun hn => far hn.1]
  refine aryUpd_congr ?_
  unfold mupd Wear.erasing
  unfold wearOf at count
  simp only [count]

/-- An erase runs for the first time. -/
theorem opRun_erase (h : mget (aryOf d k).ops g = some o) (hb : o.begun = false) (hop : o.op = 1 ∨ o.op = 3) :
    opRun k g d = slotShut k (eraseBegin k (o.op == 3) o.index (opEntered k g o (opPut k g (o.running d) d))) := by
  unfold opRun
  rw [h]
  simp only [hb, Bool.false_eq_true, if_false, hop, and_self, if_true]
  rfl

/-- What the first run of an erase leaves. -/
theorem opRun_erase_leaves (h : mget (aryOf d k).ops g = some o) (hr : (aryOf d k).reads = []) (hb : o.begun = false)
    (hop : o.op = 1 ∨ o.op = 3) (hw : (wearOf d k (o.op == 3) o.index).count + 1 < 2700) :
    (aryOf (opRun k g d) k).seq = (aryOf d k).seq ∧ (opRun k g d).arys.grants = d.arys.grants ∧ (opRun k g d).out = d.out ∧
    mget (aryOf (opRun k g d) k).ops g = some (o.running d) ∧
    wearOf (opRun k g d) k (o.op == 3) o.index = (wearOf d k (o.op == 3) o.index).erasing ∧
    Touches (fun a => a = (Reg.ARY_RD_STAT k).addr) d (opRun k g d) := by
  have put := aryOf_opPut (d := d) (k := k) (g := g) (o := o.running d)
  have reads : (aryOf (opPut k g (o.running d) d) k).reads = [] := by
    rw [put]
    exact hr
  obtain ⟨ops, -, grants, out, engs⟩ := opEntered_frame (g := g) (o := o) reads
  obtain ⟨seq, wear⟩ := opEntered_keeps (g := g) (o := o) reads
  rw [put] at ops seq wear
  have worn : wearOf (opEntered k g o (opPut k g (o.running d) d)) k (o.op == 3) o.index = wearOf d k (o.op == 3) o.index := wearOf_congr wear _ _
  rw [opRun_erase h hb hop, eraseBegin_counts (by rw [worn]; exact hw)]
  generalize opEntered k g o (opPut k g (o.running d) d) = e at *
  obtain ⟨arys, shutOut, -, shut⟩ := slotShut_frame k (wearUpd k (o.op == 3) o.index Wear.erasing e)
  have ary : aryOf (wearUpd k (o.op == 3) o.index Wear.erasing e) k =
      { aryOf e k with wear := mupd (aryOf e k).wear (wearKey (o.op == 3) o.index) {} Wear.erasing } := aryOf_aryUpd _ _ _
  refine ⟨?_, (congrArg Arys.grants arys).trans grants, shutOut.trans out, ?_, ?_, ?_⟩
  · rw [aryOf_congr arys, ary, seq]
  · rw [aryOf_congr arys, ary, ops]
    exact mget_mput_same _ _ _
  · rw [wearOf_congr (congrArg Ary.wear (aryOf_congr arys k)), wearOf_wearUpd, worn]
  · exact ((((Touches.refl d).aryUpd k _).trans engs.touches).aryUpd k _).trans shut

/-- A plane group's operation is at most the eighth of its stack, so its ARY_OPSTAT is none of the registers beside. -/
theorem aryGroup_lt (hi : index < 512) : aryGroup d sector index < 8 := by
  unfold aryGroup aryQ mainBlocks
  split
  · decide
  · split <;> omega

theorem group_not_raised (hk : k < 16) (hg : g < 8) : ¬ raised (Reg.ARY_OPSTAT k g).addr :=
  arrayReg_not_raised (by simp only [Reg.ARY_OPSTAT]; omega)

theorem stat_not_opRegs (hg : g < 8) : ¬ opRegs k g (Reg.ARY_STAT k).addr := by
  simp only [opRegs, Reg.ARY_STAT, Reg.ARY_OPSTAT, Reg.ARY_RD_STAT]
  omega

theorem group_ne_rdStat (hg : g < 8) : ¬ (Reg.ARY_OPSTAT k g).addr = (Reg.ARY_RD_STAT k).addr := by
  simp only [Reg.ARY_OPSTAT, Reg.ARY_RD_STAT]
  omega

/-- ARY_OPSTAT of group `g` names the operation's target. -/
def OpNamed (k g : Nat) (o : AryOp) (d : Dev) : Prop :=
  gf d (Reg.ARY_OPSTAT k g) F.ARY_OPSTAT_OP = o.op ∧ gf d (Reg.ARY_OPSTAT k g) F.ARY_OPSTAT_INDEX = o.index ∧
  gf d (Reg.ARY_OPSTAT k g) F.ARY_OPSTAT_PAGE = o.page

theorem OpNamed.congr (h : OpNamed k g o d) (he : ∀ f, gf e (Reg.ARY_OPSTAT k g) f = gf d (Reg.ARY_OPSTAT k g) f) : OpNamed k g o e := by
  unfold OpNamed
  rw [he, he, he]
  exact h

/-- An erase has taken group `g` and a grant, and runs. -/
def EraseBegins (k g : Nat) (o : AryOp) (d e : Dev) : Prop :=
  (aryOf e k).seq = (aryOf d k).seq ∧ e.out = d.out ∧ OpNamed k g o e ∧ e.arys.grants = d.arys.grants ++ [k] ∧
  mget (aryOf e k).ops g = some (o.running d) ∧ wearOf e k (o.op == 3) o.index = (wearOf d k (o.op == 3) o.index).erasing ∧
  Touches (opRegs k g) d e

/-- With a grant free an erase begins. -/
theorem opStart_erase (hk : k < 16) (hg : g < 8) (hgroup : aryGroup d (decide (o.op ≥ 3)) o.index = g) (hf : grantFree k d)
    (hn : mget (aryOf d k).ops g = none) (hw : ∀ p ∈ (aryOf d k).ops, p.2.wait = false) (hr : (aryOf d k).reads = [])
    (how : o.wait = true) (hb : o.begun = false) (hop : o.op = 1 ∨ o.op = 3) (hi : o.index < 512) (hp : o.page < 32)
    (hcount : (wearOf d k (o.op == 3) o.index).count + 1 < 2700) : EraseBegins k g o d (opStart k o d) := by
  have taken := aryOf_groupTaken (d := d) (k := k) (g := g) (o := o)
  have worn : wearOf (groupTaken k g o d) k (o.op == 3) o.index = wearOf d k (o.op == 3) o.index := wearOf_congr (by rw [taken]) _ _
  have there : mget (aryOf (groupTaken k g o d) k).ops g = some o := by
    rw [taken]
    exact mget_mput_same _ _ _
  obtain ⟨seq, grants, out, ops, wear, touches⟩ := opRun_erase_leaves there ((congrArg Ary.reads taken).trans hr) hb hop (by rw [worn]; exact hcount)
  have named : OpNamed k g o (opstatTarget k g o.op o.index o.page d) := opstatTarget_shows (by omega) hi hp
  rw [opStart_free hgroup hf hn hw how]
  refine ⟨seq.trans (by rw [taken]), out, named.congr fun f => ?_, grants, ?_, ?_, touches_groupTaken.trans (touches.mono fun _ => .inr)⟩
  · exact touches.gf_eq _ f (group_ne_rdStat hg) (group_not_raised hk hg)
  · rw [ops, AryOp.running_congr (fastTime_groupTaken hk)]
  · rw [wear, worn]

/-- Stack `k` waits for a grant, behind those that already do. -/
def queued (k : Nat) (d : Dev) : Dev := { d with arys := { d.arys with waitq := d.arys.waitq ++ [k] } }

/-- No grant is free for stack `k`, which neither has one nor waits for one. -/
abbrev grantFull (k : Nat) (d : Dev) : Prop := k ∉ d.arys.grants ∧ k ∉ d.arys.waitq ∧ 8 ≤ d.arys.grants.length

theorem grantAsk_full (h : grantFull k d) : grantAsk k d = queued k d := by
  obtain ⟨none, unasked, full⟩ := h
  unfold grantAsk
  rw [if_neg (by simpa using none), if_neg (by simpa using unasked), if_neg fun h => Nat.not_lt.2 full h.1]
  rfl

/-- An operation has taken group `g`, and its stack waits for a grant. -/
def OpWaits (k g : Nat) (o : AryOp) (d e : Dev) : Prop :=
  aryOf e k = { aryOf d k with ops := mput (aryOf d k).ops g o } ∧ e.out = d.out ∧ OpNamed k g o e ∧
  e.arys.waitq = d.arys.waitq ++ [k] ∧ Touches (fun a => a = (Reg.ARY_OPSTAT k g).addr) d e

/-- With no grant free an operation waits. -/
theorem opStart_waits (hgroup : aryGroup d (decide (o.op ≥ 3)) o.index = g) (hf : grantFull k d) (hop : o.op < 8) (hi : o.index < 512)
    (hp : o.page < 32) : OpWaits k g o d (opStart k o d) := by
  have full : grantFull k (opPut k g o (opstatTarget k g o.op o.index o.page d)) := hf
  have asks : opStart k o d = grantAsk k (opPut k g o (opstatTarget k g o.op o.index o.page d)) := by
    unfold opStart
    rw [hgroup]
    rfl
  have shown : Touches (fun a => a = (Reg.ARY_OPSTAT k g).addr) d (opstatTarget k g o.op o.index o.page d) :=
    (((Touches.refl (w := fun a => a = (Reg.ARY_OPSTAT k g).addr) d).sf _ _ _ (.inl rfl)).sf _ _ _ (.inl rfl)).sf _ _ _ (.inl rfl)
  have named : OpNamed k g o (opstatTarget k g o.op o.index o.page d) := opstatTarget_shows hop hi hp
  rw [asks, grantAsk_full full]
  exact ⟨aryOf_opPut (d := opstatTarget k g o.op o.index o.page d), rfl, named.congr fun _ => rfl, rfl, Touches.mk (shown.aryUpd k _)⟩

theorem touches_commanded {w : Nat → Prop} (h : Touches w (accepted k d) e) : Touches (fun a => a = (Reg.ARY_STAT k).addr ∨ w a) d e :=
  (touches_accepted.mono fun _ => .inl).trans (h.mono fun _ => .inr)

/-- What an erase that begins leaves since its third write. -/
theorem EraseBegins.accepted (h : EraseBegins k g (eraseOp sector index master) (accepted k d) e) (hk : k < 16) (hg : g < 8) :
    SeqLast k master 0 d (emit (.busWrote master) e) ∧ OpNamed k g (eraseOp sector index master) e ∧
    e.arys.grants = d.arys.grants ++ [k] ∧ mget (aryOf e k).ops g = some ((eraseOp sector index master).running d) ∧
    wearOf e k sector index = (wearOf d k sector index).erasing ∧ Touches (fun a => a = (Reg.ARY_STAT k).addr ∨ opRegs k g a) d e := by
  obtain ⟨seq, out, named, grants, ops, wear, touches⟩ := h
  have ary := aryOf_accepted (d := d) (k := k)
  rw [eraseOp_sector] at wear
  refine ⟨seqLast_accepted hk touches (stat_not_opRegs hg) out (seq.trans (by rw [ary])), named, grants, ?_,
    wear.trans (congrArg Wear.erasing (wearOf_congr (by rw [ary]) _ _)), touches_commanded touches⟩
  rw [ops, AryOp.running_congr fastTime_accepted]

/-- What an operation that waits leaves since its third write. -/
theorem OpWaits.accepted (h : OpWaits k g o (accepted k d) e) (hk : k < 16) (hg : g < 8) :
    SeqLast k master 0 d (emit (.busWrote master) e) ∧ OpNamed k g o e ∧ e.arys.waitq = d.arys.waitq ++ [k] ∧
    aryOf e k = { aryOf d k with seq := none, ops := mput (aryOf d k).ops g o } ∧
    Touches (fun a => a = (Reg.ARY_STAT k).addr ∨ a = (Reg.ARY_OPSTAT k g).addr) d e := by
  obtain ⟨ary, out, named, waitq, touches⟩ := h
  rw [aryOf_accepted] at ary
  exact ⟨seqLast_accepted hk touches (fun h => stat_not_opRegs hg (.inl h)) out (by rw [ary]), named, waitq, ary, touches_commanded touches⟩

/-- A permitted erase of a group without an operation begins, where a grant is free. -/
theorem cmdErase_begins (hk : k < 16) (hi : index < 512) (hn : mget (aryOf d k).ops (aryGroup d sector index) = none)
    (hw : ∀ p ∈ (aryOf d k).ops, p.2.wait = false) (hr : (aryOf d k).reads = []) (hf : grantFree k d)
    (hcount : (wearOf d k sector index).count + 1 < 2700) :
    EraseBegins k (aryGroup d sector index) (eraseOp sector index master) (accepted k d) (opStart k (eraseOp sector index master) (accepted k d)) := by
  have ary := aryOf_accepted (d := d) (k := k)
  have kind : (eraseOp sector index master).op = 1 ∨ (eraseOp sector index master).op = 3 := by cases sector <;> simp [eraseOp]
  have worn : wearOf (accepted k d) k ((eraseOp sector index master).op == 3) index = wearOf d k sector index := by
    rw [eraseOp_sector]
    exact wearOf_congr (by rw [ary]) _ _
  exact opStart_erase hk (aryGroup_lt hi) (aryGroup_eraseOp (d := accepted k d)) hf (by rw [ary]; exact hn) (by rw [ary]; exact hw)
    (by rw [ary]; exact hr) rfl rfl kind hi (show 0 < 32 by decide) ((congrArg (fun w : Wear => w.count + 1) worn).trans_lt hcount)

theorem cmdErase_waits (hi : index < 512) (hf : grantFull k d) :
    OpWaits k (aryGroup d sector index) (eraseOp sector index master) (accepted k d) (opStart k (eraseOp sector index master) (accepted k d)) :=
  opStart_waits (aryGroup_eraseOp (d := accepted k d)) hf (by cases sector <;> simp [eraseOp]) hi (show 0 < 32 by decide)

end

/-! ### The one operation is stopped, suspended or resumed (R336, R341 to R343) -/

section
variable {g j : Nat} {o p : AryOp}

theorem EngsOnly.out (h : EngsOnly d e) : e.out = d.out := by obtain ⟨_, _, rfl⟩ := h; rfl

/-- A step of a loop that alone changes something. -/
theorem forN_once {f : Nat → Dev → Dev} {n : Nat} (hj : j < n) (h : ∀ x, x ≠ j → f x d = d ∧ f x (f j d) = f j d) : forN n f d = f j d := by
  induction n with
  | zero => exact absurd hj (Nat.not_lt_zero j)
  | succ n ih =>
    have last : forN (n + 1) f d = f n (forN n f d) := by
      unfold forN forEach
      rw [List.range_succ, List.foldl_append]
      rfl
    rw [last]
    by_cases hn : n = j
    · subst hn
      rw [forN_fixed_below fun x hx => (h x (Nat.ne_of_lt hx)).1]
    · rw [ih (by omega)]
      exact (h n hn).2

theorem opAbort_none (h : mget (aryOf d k).ops g = none) : opAbort k g d = d := by
  unfold opAbort
  rw [h]

/-- An operation that has not begun leaves its target alone. -/
theorem opAbort_unbegun (h : (aryOf d k).ops = [(g, o)]) (hb : o.begun = false) : opAbort k g d = opEnd k g 8 d := by
  unfold opAbort
  rw [h, mget_single]
  simp only [hb, if_true]
  rfl

/-- The buffer is closed, no sequence stands, and the window is in array mode. -/
def windowCleared (k : Nat) (d : Dev) : Dev := modeSet k 0 (aryUpd k (fun a => { a with pb := none, seq := none }) d)

theorem aryOf_windowCleared : aryOf (windowCleared k d) k = { aryOf d k with pb := none, seq := none } := aryOf_aryUpd _ _ _

theorem aryAbort_none (h : (aryOf d k).ops = []) : aryAbort k d = windowCleared k d := by
  unfold aryAbort
  dsimp only
  rw [forN_fixed fun g => opAbort_none (by rw [h]; rfl)]
  rfl

theorem aryAbort_unbegun (hj : j < 5) (h : (aryOf d k).ops = [(j, o)]) (hb : o.begun = false) (hgone : (aryOf (opEnd k j 8 d) k).ops = []) :
    aryAbort k d = windowCleared k (opEnd k j 8 d) := by
  have once : forN 5 (fun g d => opAbort k g d) d = opAbort k j d :=
    forN_once hj fun x hx => ⟨opAbort_none (by rw [h]; exact if_neg hx), opAbort_none (by rw [opAbort_unbegun h hb, hgone]; rfl)⟩
  unfold aryAbort
  dsimp only
  rw [once, opAbort_unbegun h hb]
  rfl

/-- The abort's outcome stands over what the operations it ends leave. -/
theorem seqLast_cleared {w : Nat → Prop} (hk : k < 16) (h : Touches w (accepted k d) e) (hw : ¬ w (Reg.ARY_STAT k).addr)
    (hout : e.out = d.out) : SeqLast k master 0 d (emit (.busWrote master) (windowCleared k e)) := by
  refine .intro hout (by rw [aryOf_windowCleared]) ?_ (gf_sf_same _ _ _ _ (by decide))
  have same := h.gf_eq (Reg.ARY_STAT k) F.ARY_STAT_LAST hw (stat_not_raised hk)
  unfold windowCleared modeSet
  rw [gf_sf_disj _ _ _ _ _ (by decide) (by decide)]
  exact same.trans (gf_setLast (by decide))

/-- A stack none of whose operations waits leaves the queue for grants. -/
theorem grantBack_waitq (h : (aryOf d k).ops.any (fun p => p.2.wait) = false) : k ∉ (grantBack k d).arys.waitq := by
  unfold grantBack
  dsimp only
  split
  · refine (congrArg (fun e : Dev => k ∉ e.arys.waitq) (if_neg ?_)).mpr (by simp)
    exact Bool.eq_false_iff.1 h
  · refine (congrArg (fun e : Dev => k ∉ e.arys.waitq) (if_neg ?_)).mpr (by simp)
    exact Bool.eq_false_iff.1 h

/-- 0xF0 on a stack without operations. -/
theorem aryAbort_idle (hk : k < 16) (h : (aryOf d k).ops = []) (he : e = aryAbort k (accepted k d)) :
    SeqLast k master 0 d (emit (.busWrote master) e) ∧ aryOf e k = { aryOf d k with seq := none, pb := none } ∧
    Touches (fun a => a = (Reg.ARY_STAT k).addr) d e := by
  have ary := aryOf_accepted (d := d) (k := k)
  rw [aryAbort_none (by rw [ary]; exact h)] at he
  subst he
  refine ⟨seqLast_cleared (w := fun _ => False) hk (Touches.refl _) id rfl, ?_, (touches_accepted.aryUpd k _).sf _ _ _ (.inl rfl)⟩
  rw [aryOf_windowCleared, ary]

/-- What an operation that ends leaves to the device's other masters and stacks. -/
theorem opEnd_leaves {c : Nat} (h : (aryOf d k).ops = [(g, o)]) (hw : (aryOf d k).want = []) :
    (opEnd k g c d).out = d.out ∧ k ∉ (opEnd k g c d).arys.waitq := by
  obtain ⟨arys, out, -, -⟩ := slotShut_frame k (opGone k g d)
  have idle : (aryOf (slotShut k (opGone k g d)) k).ops = [] := by
    rw [aryOf_congr arys, aryOf_opGone h]
  constructor
  · unfold opEnd
    rw [out_opOutcome, opDrop_single h hw, (engsOnly_grantBack k _).out]
    exact out
  · rw [arys_opEnd, opDrop_single h hw]
    exact grantBack_waitq (by rw [idle]; rfl)

theorem Outcome.windowCleared {c : Nat} (h : Outcome k g c e) : Outcome k g c (windowCleared k e) := by
  have opstat : (Reg.ARY_OPSTAT k g).addr ≠ (Reg.ARY_STAT k).addr := by
    simp only [Reg.ARY_OPSTAT, Reg.ARY_STAT]
    omega
  have pend : (Reg.IC_PEND (srcAry 0 k / 32)).addr ≠ (Reg.ARY_STAT k).addr := by
    simp only [Reg.IC_PEND, Reg.ARY_STAT, srcAry]
    omega
  obtain ⟨code, done, pending⟩ := h
  exact ⟨(gf_sf_ne _ _ _ _ opstat).trans code, (congrArg (· != 0) (gf_sf_ne _ _ _ _ opstat)).trans done,
    (congrArg (BitVec.getLsbD · _) (rd_sf_ne _ _ _ pend)).trans pending⟩

theorem ops_accepted (h : (aryOf d k).ops = [(g, o)]) : (aryOf (accepted k d) k).ops = [(g, o)] := by
  rw [aryOf_accepted]
  exact h

theorem want_accepted (h : (aryOf d k).want = []) : (aryOf (accepted k d) k).want = [] := by
  rw [aryOf_accepted]
  exact h

/-- 0xF0 on an operation that has not begun. -/
theorem aryAbort_ends (hk : k < 16) (hj : j < 5) (h : (aryOf d k).ops = [(j, o)]) (hw : (aryOf d k).want = []) (hb : o.begun = false)
    (he : e = aryAbort k (accepted k d)) :
    SeqLast k master 0 d (emit (.busWrote master) e) ∧ (aryOf e k).ops = [] ∧ (aryOf e k).pb = none ∧ k ∉ e.arys.grants ∧ k ∉ e.arys.waitq ∧
    Outcome k j 8 e ∧ Touches (fun a => a = (Reg.ARY_STAT k).addr ∨ opRegs k j a) d e := by
  obtain ⟨ops, grants, outcome, -, -, touches⟩ := opEnd_single hk hj (show 8 < 128 by decide) (ops_accepted h) (want_accepted hw)
  obtain ⟨out, waitq⟩ := opEnd_leaves (c := 8) (ops_accepted h) (want_accepted hw)
  rw [aryAbort_unbegun hj (ops_accepted h) hb ops] at he
  generalize opEnd k j 8 (accepted k d) = f at *
  subst he
  refine ⟨seqLast_cleared hk touches (stat_not_opRegs (by omega)) out, ?_, ?_, grants, waitq, outcome.windowCleared,
    ((touches_commanded touches).aryUpd k _).sf _ _ _ (.inl (.inl rfl))⟩
  · rw [aryOf_windowCleared]
    exact ops
  · rw [aryOf_windowCleared]

/-- What an operation that runs becomes at a suspend: one that has not run for 500 µs runs on with the suspend held. -/
def AryOp.suspendedAt (t : Nat) (o : AryOp) : AryOp := if t - o.since < run500 then { o with held := true } else { o with byCmd := true }

theorem AryOp.suspendedAt_young {t : Nat} (h : t - o.since < run500) : o.suspendedAt t = { o with held := true } := if_pos h

theorem AryOp.suspendedAt_ripe {t : Nat} (h : run500 ≤ t - o.since) : o.suspendedAt t = { o with byCmd := true } := if_neg (Nat.not_lt.2 h)

theorem arySuspend_single (h : (aryOf d k).ops = [(g, o)]) (hr : o.runs = true) :
    arySuspend k d = sensesStart k (grantBack k (opPut k g (o.suspendedAt (fastTime d)) d)) := by
  have runs := hr
  unfold AryOp.runs at runs
  simp only [Bool.and_eq_true, Bool.not_eq_true'] at runs
  obtain ⟨⟨wait, -⟩, slot⟩ := runs
  unfold arySuspend opPut
  dsimp only
  rw [aryUpd_congr (f' := fun a => { a with ops := mput a.ops g (o.suspendedAt (fastTime d)) })]
  rw [h, mput_single]
  simp [mmap, wait, slot, hr, AryOp.suspendedAt]

/-- 0xB0 on an operation that runs. -/
theorem arySuspend_suspends (h : (aryOf d k).ops = [(g, o)]) (hw : (aryOf d k).want = []) (hr : o.runs = true) :
    aryOf (arySuspend k d) k = { aryOf d k with ops := [(g, o.suspendedAt (fastTime d))] } ∧ EngsOnly d (arySuspend k d) ∧
    ((o.suspendedAt (fastTime d)).runs = false → k ∉ (arySuspend k d).arys.grants) := by
  have put : aryOf (opPut k g (o.suspendedAt (fastTime d)) d) k = { aryOf d k with ops := [(g, o.suspendedAt (fastTime d))] } := by
    rw [aryOf_opPut, h, mput_single]
  have idle : sensesStart k (grantBack k (opPut k g (o.suspendedAt (fastTime d)) d)) = grantBack k (opPut k g (o.suspendedAt (fastTime d)) d) :=
    sensesStart_idle (by rw [aryOf_grantBack, put]; exact hw)
  rw [arySuspend_single h hr, idle]
  exact ⟨(aryOf_grantBack k k _).trans put, ((EngsOnly.refl d).aryUpd k _).trans (engsOnly_grantBack k _),
    fun stopped => grantBack_grants ((aryRunning_single (ops_opPut h)).trans stopped)⟩

/-- 0xD0 on an operation with a suspend held. -/
theorem aryResume_held (h : (aryOf d k).ops = [(g, o)]) (hh : o.held = true) : aryResume k d = opPut k g { o with held := false } d := by
  unfold aryResume opPut
  dsimp only
  rw [if_pos (by simp [h, hh])]
  refine aryUpd_congr ?_
  rw [h, mput_single]
  rfl

/-- An operation that asks for a grant to go on. -/
def AryOp.resumed (o : AryOp) : AryOp := { o with byCmd := false, wait := true }

/-- 0xD0 on an operation that a command suspends, with no grant free. -/
theorem aryResume_full (h : (aryOf d k).ops = [(g, o)]) (hh : o.held = false) (hc : o.byCmd = true) (hs : o.bySlot = false) (hf : grantFull k d) :
    aryResume k d = queued k (opPut k g o.resumed d) := by
  have full : grantFull k (opPut k g o.resumed d) := hf
  have waits : (aryOf (opPut k g o.resumed d) k).ops.any (fun p => p.2.wait) = true := by
    rw [ops_opPut h]
    rfl
  unfold aryResume
  dsimp only
  rw [if_neg (by simp [h, hh]), if_pos (by simp [h, hc]), aryUpd_congr (f' := fun a => { a with ops := mput a.ops g o.resumed })]
  · exact (if_pos waits).trans (grantAsk_full full)
  · rw [h, mput_single]
    simp [mmap, hc, hs, AryOp.resumed]

/-- What a suspend or a resume leaves of the sequence, where the tables of the arrays alone change. -/
theorem commanded_engs (hk : k < 16) (h : EngsOnly (accepted k d) e) (hseq : (aryOf e k).seq = none) :
    SeqLast k master 0 d (emit (.busWrote master) e) ∧ Touches (fun a => a = (Reg.ARY_STAT k).addr) d e :=
  ⟨seqLast_accepted (w := fun _ => False) hk h.touches id h.out hseq, touches_accepted.trans h.touches⟩

theorem arySuspend_commanded (hk : k < 16) (h : (aryOf d k).ops = [(g, o)]) (hw : (aryOf d k).want = []) (hr : o.runs = true)
    (hp : o.suspendedAt (fastTime d) = p) (he : e = arySuspend k (accepted k d)) :
    SeqLast k master 0 d (emit (.busWrote master) e) ∧ (aryOf e k).ops = [(g, p)] ∧ (p.runs = false → k ∉ e.arys.grants) ∧
    Touches (fun a => a = (Reg.ARY_STAT k).addr) d e := by
  obtain ⟨ary, engs, grants⟩ := arySuspend_suspends (ops_accepted h) (want_accepted hw) hr
  rw [← he, fastTime_accepted, hp] at ary grants
  rw [← he] at engs
  obtain ⟨last, touches⟩ := commanded_engs (master := master) hk engs (by rw [ary, aryOf_accepted])
  exact ⟨last, congrArg Ary.ops ary, grants, touches⟩

theorem aryResume_cancels (hk : k < 16) (h : (aryOf d k).ops = [(g, o)]) (hh : o.held = true) (he : e = aryResume k (accepted k d)) :
    SeqLast k master 0 d (emit (.busWrote master) e) ∧ (aryOf e k).ops = [(g, { o with held := false })] ∧
    Touches (fun a => a = (Reg.ARY_STAT k).addr) d e := by
  rw [aryResume_held (ops_accepted h) hh] at he
  subst he
  obtain ⟨last, touches⟩ := commanded_engs (master := master) (d := d) (e := opPut k g { o with held := false } (accepted k d)) hk ⟨_, _, rfl⟩
    (by rw [aryOf_opPut, aryOf_accepted])
  exact ⟨last, ops_opPut (ops_accepted h), touches⟩

theorem aryResume_queues (hk : k < 16) (h : (aryOf d k).ops = [(g, o)]) (hh : o.held = false) (hc : o.byCmd = true) (hs : o.bySlot = false)
    (hf : grantFull k d) (he : e = aryResume k (accepted k d)) :
    SeqLast k master 0 d (emit (.busWrote master) e) ∧ e.arys.waitq = d.arys.waitq ++ [k] ∧ (aryOf e k).ops = [(g, o.resumed)] ∧
    Touches (fun a => a = (Reg.ARY_STAT k).addr) d e := by
  rw [aryResume_full (ops_accepted h) hh hc hs hf] at he
  subst he
  have ary := aryOf_opPut (k := k) (g := g) (o := o.resumed) (d := accepted k d)
  obtain ⟨last, touches⟩ := commanded_engs (master := master) (d := d) (e := queued k (opPut k g o.resumed (accepted k d))) hk ⟨_, _, rfl⟩
    ((congrArg Ary.seq ary).trans (by rw [aryOf_accepted]))
  exact ⟨last, rfl, ops_opPut (ops_accepted h), touches⟩

end

end

/-! ### The obligation -/

/-- Settles O23: each write of a sequence by what the controller makes of it; a command by the checks of its target and by what it does to
the stack's operations and their grants. -/
theorem windowSequencesAct : Obligations.WindowSequencesAct := by
  intro s master k hs hm hk d0 a0 hheld hc hc2 hq hwant hreads stat wrote field only
  have fits : (WellFormed.lt master 256 && WellFormed.lt k 16) = true := by simp [WellFormed.lt, hm, hk]
  refine ⟨fun hseq => ?_, fun hseq hpb => ?_, fun hseq => ?_, fun hseq => ?_, fun off bs hoff hseq hpb hcause _ hword => ?_, fun hseq => ?_⟩
  · refine completes_sys (f := xKeyWrite master k false) rfl fits hs ?_
    rw [xKeyWrite_first hk hq hheld hc hseq]
    exact ⟨rfl, aryOf_aryUpd _ _ _, ((Touches.refl d0).aryUpd k _).emit _⟩
  · refine completes_sys (f := xKeyWrite master k true) rfl fits hs ?_
    rw [xKeyWrite_second hk hq hheld hc2 hseq hpb]
    exact ⟨rfl, aryOf_aryUpd _ _ _, ((Touches.refl d0).aryUpd k _).emit _⟩
  · refine completes_sys (f := xSeqTimeout k) rfl (by simp [WellFormed.lt, hk]) hs ?_
    rw [xSeqTimeout_begun hseq]
    exact ⟨aryOf_seqErr, gf_seqErr, touches_seqErr⟩
  · exact completes_sys (f := xSeqTimeout k) rfl (by simp [WellFormed.lt, hk]) hs (xSeqTimeout_idle hseq)
  · refine completes_sys (f := xWindowWrite master k off bs false) rfl (by simp [WellFormed.lt, hm, hk]; exact hoff) hs ?_
    rw [windowWrite_quiet hk hoff hq hheld hcause (fun h => absurd h (by decide)), winWrite_stray hseq hpb hword]
    exact ⟨rfl, aryOf_strayWrite (d := d0), gf_strayWrite (d := d0), touches_strayWrite.emit _⟩
  · intro ended sector index page g busy code
    have acts : ∀ {c : Instr} {w : Nat} {P : Dev → Prop}, WordRow c master k w s → w ∈ commandCodes →
        (field d0 F.ARY_STAT_PW_BUSY = 0 ∨ w = 0xB0 ∨ w = 0xD0) →
        (∀ e, e = commandAct k master w (seqTaken k d0) → P (emit (.busWrote master) e)) → Completes c s P := fun row hw hidle hP =>
      completes_sys row fits hs (by rw [commandWord_acts hk hq hheld hc hseq hw hidle]; exact hP _ rfl)
    refine ⟨fun hbusy => ?_, fun hbusy => ?_, fun j o hj hops => ⟨fun hr hyoung => ?_, fun hr hripe => ?_, fun hh => ?_,
      fun hh hcmd hslot _ hgrant hqueue hfull => ?_⟩⟩
    · have refused : ∀ {c : Instr} {w : Nat}, WordRow c master k w s → w ∈ commandCodes ∧ w ≠ 0xB0 ∧ w ≠ 0xD0 →
          Completes c s (fun d => ended 5 0 d ∧ aryOf d k = { a0 with seq := none } ∧ only d) := fun row ⟨hw, other⟩ =>
        completes_sys row fits hs (by
          rw [commandWord_busy hk hq hheld hc hseq hw (ne_of_eq_of_ne hbusy Nat.one_ne_zero) other]
          exact seqEnded_setLast (by decide))
      simp only [List.forall_mem_cons]
      exact ⟨refused rfl (by decide), refused rfl (by decide), refused rfl (by decide), refused rfl (by decide), refused rfl (by decide),
        refused rfl (by decide), refused rfl (by decide), refused rfl (by decide), by simp⟩
    · have hidle : field d0 F.ARY_STAT_PW_BUSY = 0 := by
        have bit : field d0 F.ARY_STAT_PW_BUSY < 2 := fldGet_lt _ _
        have : field d0 F.ARY_STAT_PW_BUSY ≠ 1 := hbusy
        omega
      have inField : index < 512 := fldGet_lt _ _
      have range : aryGroup d0 sector index < 8 := aryGroup_lt inField
      have same : code = changeRefusal d0 k sector index page := rfl
      have erases := cmdErase_eq (sector := sector) (index := index) (page := page) (master := master) rfl hidle
      have opens := cmdBuffer_eq (sector := sector) (index := index) (page := page) (master := master) rfl hidle
      rw [same]
      refine ⟨fun hcode => ?_, fun hcode => ?_, ?_, ?_, fun hops => ?_, fun j o hj hops hb => ?_⟩
      · rw [if_neg hcode] at erases opens
        simp only [List.forall_mem_cons]
        exact ⟨acts rfl (by decide) (.inl hidle) fun e he => he.trans erases ▸ seqEnded_setLast changeRefusal_lt,
          acts rfl (by decide) (.inl hidle) fun e he => he.trans opens ▸ seqEnded_setLast changeRefusal_lt, by simp⟩
      · rw [if_pos hcode] at opens
        refine acts rfl (by decide) (.inl hidle) fun e he => ?_
        obtain ⟨last, ary, touches⟩ := bufferOpened_shows (master := master) hk (he.trans opens)
        exact ⟨last, ary, touches.emit _⟩
      · intro hcode hgrant hwait op named w
        rw [if_pos hcode] at erases
        refine ⟨fun hroom hqueue hcount => acts rfl (by decide) (.inl hidle) fun e he => ?_,
          fun hfull hqueue => acts rfl (by decide) (.inl hidle) fun e he => ?_⟩
        · have begins := cmdErase_begins (master := master) hk inField (group_free hcode) hwait hreads ⟨hgrant, hroom, hqueue⟩ hcount
          rw [← he.trans erases] at begins
          obtain ⟨last, shown, grants, ops, wear, touches⟩ := begins.accepted hk range
          exact ⟨last, shown, grants, ops, wear, touches.emit _⟩
        · have waits := cmdErase_waits (master := master) (sector := sector) inField ⟨hgrant, hqueue, hfull⟩
          rw [← he.trans erases] at waits
          obtain ⟨last, shown, waitq, ary, touches⟩ := waits.accepted (master := master) hk range
          exact ⟨last, shown, waitq, ary, touches.emit _⟩
      · have sets : ∀ {c : Instr} {w m : Nat}, WordRow c master k w s → w ∈ commandCodes → m < 4 →
            commandAct k master w (seqTaken k d0) = modeSet k m (accepted k d0) →
            Completes c s (fun d => ended 0 m d ∧ aryOf d k = { a0 with seq := none } ∧ only d) := fun row hw hm act => by
          refine acts row hw (.inl hidle) fun e he => ?_
          obtain ⟨out, last, mode, ary, touches⟩ := modeSet_shows hm (he.trans act)
          exact ⟨⟨congrArg (· ++ [Out.busWrote master]) out, congrArg Ary.seq ary, last, mode⟩, ary, touches.emit _⟩
        simp only [List.forall_mem_cons]
        exact ⟨sets rfl (by decide) (by decide) rfl, sets rfl (by decide) (by decide) rfl, sets rfl (by decide) (by decide) rfl, by simp⟩
      · refine acts rfl (by decide) (.inl hidle) fun e he => ?_
        obtain ⟨last, ary, touches⟩ := aryAbort_idle (master := master) hk hops he
        exact ⟨last, ary, touches.emit _⟩
      · refine acts rfl (by decide) (.inl hidle) fun e he => ?_
        obtain ⟨last, ops, pb, grants, waitq, ⟨code, done, pending⟩, touches⟩ := aryAbort_ends (master := master) hk hj hops hwant hb he
        exact ⟨last, ops, pb, grants, waitq, code, done, pending, touches.emit _⟩
    · refine acts rfl (by decide) (.inr (.inl rfl)) fun e he => ?_
      obtain ⟨last, ops, -, touches⟩ := arySuspend_commanded (master := master) hk hops hwant hr (AryOp.suspendedAt_young hyoung) he
      exact ⟨last, ops, touches.emit _⟩
    · refine acts rfl (by decide) (.inr (.inl rfl)) fun e he => ?_
      obtain ⟨last, ops, grants, touches⟩ := arySuspend_commanded (master := master) hk hops hwant hr (AryOp.suspendedAt_ripe hripe) he
      exact ⟨last, ops, grants (by simp [AryOp.runs]), touches.emit _⟩
    · refine acts rfl (by decide) (.inr (.inr rfl)) fun e he => ?_
      obtain ⟨last, ops, touches⟩ := aryResume_cancels (master := master) hk hops hh he
      exact ⟨last, ops, touches.emit _⟩
    · refine acts rfl (by decide) (.inr (.inr rfl)) fun e he => ?_
      obtain ⟨last, waitq, ops, touches⟩ := aryResume_queues (master := master) hk hops hh hcmd hslot ⟨hgrant, hqueue, hfull⟩ he
      exact ⟨last, waitq, ops, touches.emit _⟩

end Sys2Proof.Machine
end

/-! ## Loads are taken, held and let go -/

section
/-! SUPPORT and settlement of O27. -/

namespace Sys2Proof.Machine

section
variable {d : Dev} {h : CmdHdr} {r : LoadRun} {e : OpEnt}

theorem gb_sf_same (r : Reg) (f : Fld) (x : Nat) (d : Dev) (h : f.lo + f.len ≤ 64) : gb (sf r f x d) r f = (x % 2 ^ f.len != 0) := by
  unfold gb
  rw [gf_sf_same _ _ _ _ h]

/-! ### The state of a long operation (R606) -/

/-- The operation of a command takes a new state in the handle table. -/
theorem opState_own (he : mget d.rings.ops h.handle = some e) (hh : e.hdr = h) (st : OpState) :
    opState h st d = setRings { d.rings with ops := mput d.rings.ops h.handle { e with state := st } } d := by
  unfold opState
  rw [he]
  exact if_pos hh

theorem le_opState (h : CmdHdr) (st : OpState) (d : Dev) : (opState h st d).le = d.le := by
  obtain ⟨g, hg⟩ := opState_rings h st d
  rw [hg]
  rfl

theorem rd_opState (h : CmdHdr) (st : OpState) (d : Dev) (q : Reg) : rd (opState h st d) q = rd d q := by
  obtain ⟨g, hg⟩ := opState_rings h st d
  rw [hg]
  rfl

theorem Touches.opState {w : Nat → Prop} {e : Dev} (k : Touches w d e) (h : CmdHdr) (st : OpState) : Touches w d (opState h st e) := by
  obtain ⟨g, hg⟩ := opState_rings h st e
  rw [hg]
  exact k

theorem mget_opState (he : mget d.rings.ops h.handle = some e) (hh : e.hdr = h) (st : OpState) :
    mget (opState h st d).rings.ops h.handle = some { e with state := st } := by
  rw [opState_own he hh]
  exact mget_mput_same _ _ _

/-! ### A load starts (R372, R408) -/

/-- LE_STAT and LE_PROGRESS show a load that has just started. -/
def loadShown (slot side : Nat) (d : Dev) : Dev :=
  wr Reg.LE_PROGRESS 0 (sf Reg.LE_STAT F.LE_STAT_SIDE side (sf Reg.LE_STAT F.LE_STAT_SLOT slot d))

theorem loadShown_slot {slot : Nat} (h : slot < 64) (side : Nat) : gf (loadShown slot side d) Reg.LE_STAT F.LE_STAT_SLOT = slot := by
  unfold loadShown
  rw [gf_wr_ne _ _ _ (by decide), gf_sf_disj _ _ _ _ _ (by decide) (by decide), gf_sf_same _ _ _ _ (by decide)]
  exact Nat.mod_eq_of_lt h

theorem loadShown_side (slot : Nat) {side : Nat} (h : side < 2) : gf (loadShown slot side d) Reg.LE_STAT F.LE_STAT_SIDE = side := by
  unfold loadShown
  rw [gf_wr_ne _ _ _ (by decide), gf_sf_same _ _ _ _ (by decide)]
  exact Nat.mod_eq_of_lt h

/-- What a started load leaves: it runs, and its operation, LE_STAT and LE_PROGRESS show it. -/
def LoadStarted (r : LoadRun) (e : OpEnt) (d0 : Dev) (queue : List LoadRun) (d : Dev) : Prop :=
  d.le = { d0.le with run := some r, queue := queue } ∧ mget d.rings.ops r.h.handle = some { e with state := .running } ∧
  gf d Reg.LE_STAT F.LE_STAT_SLOT = r.slot ∧ gf d Reg.LE_STAT F.LE_STAT_SIDE = r.side ∧ rd d Reg.LE_PROGRESS = 0 ∧
  Touches (fun a => a = Reg.LE_STAT.addr ∨ a = Reg.LE_PROGRESS.addr) d0 d

/-- A load whose manifest lies in the fabric starts. -/
theorem loadStart_fabric (hk : r.kind = 0) (hslot : r.slot < 64) (hside : r.side < 2) (he : mget d.rings.ops r.h.handle = some e)
    (hh : e.hdr = r.h) : LoadStarted r e d d.le.queue (loadStart r d) := by
  have shown : loadStart r d = loadShown r.slot r.side (opState r.h .running (setRun r d)) := if_neg (by omega)
  rw [shown]
  refine ⟨le_opState _ _ _, mget_opState (d := setRun r d) he hh _, loadShown_slot hslot _, loadShown_side _ hside, rd_wr_same _ _ _, ?_⟩
  have running : Touches (fun a => a = Reg.LE_STAT.addr ∨ a = Reg.LE_PROGRESS.addr) d (opState r.h .running (setRun r d)) :=
    Touches.opState (Touches.mk (Touches.refl d)) _ _
  exact ((running.sf _ _ _ (.inl (.inl rfl))).sf _ _ _ (.inl (.inl rfl))).wr _ _ (.inl (.inr rfl))

/-- Nothing keeps a new load from starting. -/
def LoadFree (d : Dev) : Prop := d.le.run = none ∧ d.le.queue = [] ∧ gb d Reg.LE_CTL F.LE_CTL_EN = true ∧ pmuRun d = true

theorem loadFree_iff : (d.le.run.isNone && d.le.queue == [] && gb d Reg.LE_CTL F.LE_CTL_EN && pmuRun d) = true ↔ LoadFree d := by
  simp [LoadFree, and_assoc]

section
variable {addr len slot side kind nsid : Nat}

/-- The load that a LOAD command names. -/
def loadNamed (h : CmdHdr) (addr len slot side kind nsid : Nat) : LoadRun :=
  { h := h, kind := kind, addr := addr, nsid := nsid, len := len, slot := slot, side := side }

theorem xLoad_starts (hu : mhas d.rings.ops h.handle = false) (hf : LoadFree d) :
    xLoad h addr len slot side kind nsid d = loadStart (loadNamed h addr len slot side kind nsid) (opTaken h .queued d) :=
  (longCmd_free hu).trans (if_pos (loadFree_iff.mpr hf))

theorem xLoad_waits (hu : mhas d.rings.ops h.handle = false) (hf : ¬ LoadFree d) :
    xLoad h addr len slot side kind nsid d =
      setLe { d.le with queue := d.le.queue ++ [loadNamed h addr len slot side kind nsid] } (opTaken h .queued d) :=
  (longCmd_free hu).trans (if_neg (mt loadFree_iff.mp hf))

/-- A field of a LOAD is out of range, or its address and namespace do not fit its source (R595). -/
def loadBad (addr side kind nsid : Nat) : Bool :=
  decide (side > 1) || decide (kind > 1) || (kind == 0 && (addr % 32 != 0 || decide (addr ≥ 2 ^ 53) || nsid != 0)) || (kind == 1 && nsid == 0)

theorem loadBad_iff : loadBad addr side kind nsid = true ↔
    1 < side ∨ 1 < kind ∨ (kind = 0 ∧ (addr % 32 ≠ 0 ∨ 2 ^ 53 ≤ addr ∨ nsid ≠ 0)) ∨ (kind = 1 ∧ nsid = 0) := by
  simp [loadBad, or_assoc]

theorem loadCmd_eq : loadCmd h addr len slot side kind nsid = fieldCmd h (loadBad addr side kind nsid) (xLoad h addr len slot side kind nsid) := rfl

end

/-- No load starts while one runs, while the engine is disabled or the device not in RUN, or with none waiting. -/
theorem xLoadNext_none (h : d.le.run ≠ none ∨ ¬ gb d Reg.LE_CTL F.LE_CTL_EN = true ∨ pmuRun d = false ∨ d.le.queue = []) : xLoadNext d = d := by
  unfold xLoadNext
  split
  · rfl
  · next hs =>
    simp only [Bool.or_eq_true, Bool.not_eq_true', not_or, Bool.not_eq_true, Option.isSome_eq_false_iff, Option.isNone_iff_eq_none,
      Bool.not_eq_false] at hs
    obtain ⟨⟨hr, hen⟩, hp⟩ := hs
    have empty : d.le.queue = [] := by simpa [hr, hen, hp] using h
    rw [empty]
    rfl

theorem xLoadNext_head {rest : List LoadRun} (hr : d.le.run = none) (hen : gb d Reg.LE_CTL F.LE_CTL_EN = true) (hp : pmuRun d = true)
    (hq : d.le.queue = r :: rest) (ha : r.adj = 0) : xLoadNext d = loadStart r (setLe { d.le with queue := rest } d) := by
  unfold xLoadNext
  rw [if_neg (by simp [hr, hen, hp]), hq, List.find?_cons_of_pos (by simp [ha])]
  dsimp only
  rw [List.erase_cons_head]

/-! ### Clearing and setting EN (R402) -/

/-- The running load is held, and what it asked of the controller is forgotten. -/
def loadHeld (r : LoadRun) (d : Dev) : Dev := nvmeDrop (setRun { r with adj := 1 } d)

/-- A load that no operation of its own still serves is ADJOURNED at once, and with no progress asked for nothing is written. -/
theorem loadAdjourn_settles (hr : d.le.run = some r) (ha : r.adj = 0) (he : mget d.rings.ops r.h.handle = some e) (hh : e.hdr = r.h)
    (hf : e.hdr.flags.testBit 2 = false) (ho : ownOps d = []) :
    loadAdjourn 1 d = opState r.h .adjourned (opState r.h .adjourning (loadHeld r d)) := by
  have adjourning := mget_opState (d := loadHeld r d) he hh .adjourning
  have run : (opState r.h .adjourning (loadHeld r d)).le.run = some { r with adj := 1 } := congrArg Le.run (le_opState _ _ _)
  have ops : ownOps (opState r.h .adjourning (loadHeld r d)) = [] := by
    rw [opState_own (d := loadHeld r d) he hh]
    exact ho
  have settle : loadAdjSettle (opState r.h .adjourning (loadHeld r d)) =
      opState r.h .adjourned (opState r.h .adjourning (loadHeld r d)) := by
    unfold loadAdjSettle
    rw [run]
    dsimp only
    rw [adjourning, ops, if_pos (by simp [hh])]
    unfold opAdjourned
    rw [← hh, hf]
    rfl
  unfold loadAdjourn
  rw [hr]
  dsimp only
  rw [if_neg (by simp [ha])]
  exact settle

theorem loadAdjourn_none (hr : d.le.run = none) : loadAdjourn 1 d = d := by
  unfold loadAdjourn
  rw [hr]

/-- A load held before its manifest from the fabric arrived goes on. -/
theorem loadResume_manifest (hr : d.le.run = some r) (hk : r.kind = 0) (hm : r.man = none) (hs : r.shards = []) :
    loadResume d = sf Reg.LE_CTL F.LE_CTL_EN 1 (opState r.h .running (setRun { r with adj := 0, nv := [] } d)) := by
  obtain ⟨h, kind, addr, nsid, len, slot, side, man, shards, nv, adj, bytes, objs⟩ := r
  obtain rfl : kind = 0 := hk
  obtain rfl : man = none := hm
  obtain rfl : shards = [] := hs
  unfold loadResume
  rw [hr]
  rfl

/-! ### A completion from the controller (R385) -/

theorem MemOnly.le {e : Dev} (h : MemOnly d e) : e.le = d.le := by obtain ⟨_, _, _, rfl⟩ := h; rfl

/-- An NVMe completion has been taken from its queue, and a read counted off. -/
def cqTaken (d : Dev) : Dev :=
  setLe { d.le with cqHead := (d.le.cqHead + 1) % nvmeDepth d, nvOut := d.le.nvOut - 1, nvOld := d.le.nvOld - 1 } d

/-- The head doorbell has been written. -/
def cqRung (d : Dev) : Dev := (masterWrite 0x20 (rd d Reg.LE_NVME_CQDB).toNat (leBytes 4 (cqTaken d).le.cqHead) false (cqTaken d)).2

/-- A doorbell in clean memory takes the head, and nothing else changes. -/
theorem cqRung_stores {q : Nat} (hq : (rd d Reg.LE_NVME_CQDB).toNat = q) (ha : q + 4 ≤ 2 ^ 40) (hm : region q = .dram)
    (hc : accessCause d q 4 true = none) (hcl : Clean d q 4) (hf : Disarmed d) :
    Stored q (leBytes 4 (cqTaken d).le.cqHead) false d (cqRung d) ∧ (cqRung d).le = (cqTaken d).le ∧ ∀ x, rd (cqRung d) x = rd d x := by
  have four := leBytes_length 4 (cqTaken d).le.cqHead
  have clean : Clean (cqTaken d) q (leBytes 4 (cqTaken d).le.cqHead).length := four.symm ▸ hcl
  have rung : cqRung d = writeMem q (leBytes 4 (cqTaken d).le.cqHead) false (cqTaken d) := by
    unfold cqRung
    rw [hq, masterWrite_memory (by omega) (.inl hm) (four.symm ▸ hc)]
  have mem := memOnly_writeMem (p := false) clean hf
  rw [rung]
  exact ⟨(writeMem_clean q _ false (cqTaken d) clean hf).1, mem.le, mem.rd⟩

theorem nvmeFill_empty (hq : d.le.nvq = []) : nvmeFill d = d :=
  forN_fixed (fun _ => by unfold nvmeSubmit; rw [hq]) _

section
variable {status : Nat} {i : Option Nat} {data : List Byte}

theorem xNvme_none (h : d.le.nvOut = 0) : xNvme status i data d = d := if_pos h

theorem xNvme_idle (h : d.le.nvOut ≠ 0) (hr : (cqRung d).le.run = none) : xNvme status i data d = cqRung d := by
  unfold xNvme
  rw [if_neg h]
  dsimp only
  split
  · rfl
  · next _ hrun => exact absurd (hr.symm.trans hrun) (by simp)

/-- Data joins what has arrived of the manifest; an error status ends the load. -/
theorem xNvme_manifest (h : d.le.nvOut ≠ 0) (hr : (cqRung d).le.run = some r) (ho : d.le.nvOld = 0) (ha : r.adj = 0) (hm : r.man = none) :
    xNvme status none data d = if status ≠ 0 then loadDone 0x11 (cqRung d) else nvmeFill (setRun { r with nv := r.nv ++ data } (cqRung d)) := by
  have wanted : ¬ (decide (0 < d.le.nvOld) || !(r.reads none)) = true := by simp [ho, LoadRun.reads, ha, hm]
  unfold xNvme
  rw [if_neg h]
  dsimp only
  split
  · next hrun => exact absurd (hr.symm.trans hrun) (by simp)
  · next q hrun =>
    obtain rfl : r = q := Option.some.inj (hr.symm.trans hrun)
    rw [if_neg wanted, hm]
    rfl

end

end

/-- Settles O27: a load is refused, waits or starts, as its fields, its handle and the engine have it; clearing and setting EN hold it
and let it go on; and a completion rings the doorbell before it ends the load or its data joins. -/
theorem loadsAreTakenAndHeld : Obligations.LoadsAreTakenAndHeld := by
  unfold Obligations.LoadsAreTakenAndHeld
  intro s hs d0 en ctl
  refine ⟨?_, fun hnone => completes_sys rfl rfl hs (xLoadNext_none hnone), fun r rest e hr hen hp hq ha hk hslot hside he hh => ?_,
    fun hr => ⟨?_, ?_⟩, fun r e hr he hh hf => ⟨fun ha ho => ?_, fun ha hk hm hsh => ?_⟩, ?_⟩
  · intro h addr len slot side kind nsid hok haddr hlen hslot hside hkind hnsid hready hheld H r bad starts row
    have hring := ring_lt_of_okHdr hok
    have ok : (WellFormed.okHdr h && WellFormed.lt addr (2 ^ 64) && WellFormed.lt len (2 ^ 32) && WellFormed.lt slot 256 &&
        WellFormed.lt side 256 && WellFormed.lt kind 256 && WellFormed.lt nsid (2 ^ 32)) = true := by
      simp only [hok, WellFormed.lt, haddr, hlen, hslot, hside, hkind, hnsid, decide_true, Bool.and_self]
    have load : ∀ {P}, P (fieldCmd H (loadBad addr side kind nsid) (xLoad H addr len slot side kind nsid) d0) → Completes row s P :=
      fun hP => completes_sys rfl ok hs hP
    have good : ¬ bad → H.flags ≤ 7 ∧ loadBad addr side kind nsid = false := fun hg =>
      ⟨Nat.not_lt.mp fun hf => hg (.inl hf), Bool.eq_false_iff.mpr fun hb => hg (.inr (loadBad_iff.mp hb))⟩
    refine ⟨fun hb => load ?_, fun hg hu => load ?_, fun hg hu => ⟨fun hw => load ?_, fun hgo hk hsl => load ?_⟩⟩
    · exact (fieldCmd_ends (h := H) (hb.imp_right loadBad_iff.mpr) hring hready hheld).1
    · rw [(good hg).2]
      exact (longCmd_ends (h := H) (good hg).1 hu hring hready hheld).1
    · rw [(good hg).2, fieldCmd_good (good hg).1, xLoad_waits (h := H) hu hw]
      exact ⟨rfl, opTaken_entry _, fun _ _ _ => rfl, rfl, rfl, rfl⟩
    · have hside1 : side < 2 := Nat.not_le.mp fun hx => hg (.inr (.inl hx))
      rw [(good hg).2, fieldCmd_good (good hg).1, xLoad_starts (h := H) hu hgo]
      obtain ⟨le, op, sl, sd, progress, touches⟩ := loadStart_fabric (r := r) (d := opTaken H .queued d0) hk hsl hside1 (opTaken_entry _) rfl
      exact ⟨le, op, sl, sd, progress, touches⟩
  · refine completes_sys (f := xLoadNext) rfl rfl hs ?_
    rw [xLoadNext_head hr hen hp hq ha]
    exact loadStart_fabric (d := setLe { d0.le with queue := rest } d0) hk hslot hside he hh
  · refine completes_sys (f := xLeDisable) rfl rfl hs ?_
    have off : xLeDisable d0 = sf Reg.LE_CTL F.LE_CTL_EN 0 d0 := loadAdjourn_none (d := sf Reg.LE_CTL F.LE_CTL_EN 0 d0) hr
    rw [off]
    exact ⟨gb_sf_same _ _ _ _ (by decide), rfl, (Touches.refl d0).sf _ _ _ (.inl rfl)⟩
  · refine completes_sys (f := xLeEnable) rfl rfl hs ?_
    have on : xLeEnable d0 = sf Reg.LE_CTL F.LE_CTL_EN 1 d0 := if_neg (by simp [hr, d0])
    rw [on]
    exact ⟨gb_sf_same _ _ _ _ (by decide), rfl, (Touches.refl d0).sf _ _ _ (.inl rfl)⟩
  · refine completes_sys (f := xLeDisable) rfl rfl hs ?_
    have held : xLeDisable d0 = opState r.h .adjourned (opState r.h .adjourning (loadHeld r (sf Reg.LE_CTL F.LE_CTL_EN 0 d0))) :=
      loadAdjourn_settles (d := sf Reg.LE_CTL F.LE_CTL_EN 0 d0) hr ha he hh hf ho
    have adjourning := mget_opState (d := loadHeld r (sf Reg.LE_CTL F.LE_CTL_EN 0 d0)) he hh .adjourning
    rw [held]
    refine ⟨?_, (le_opState _ _ _).trans (le_opState _ _ _), mget_opState adjourning hh .adjourned, ?_⟩
    · unfold gb gf
      rw [rd_opState, rd_opState]
      exact gb_sf_same Reg.LE_CTL _ 0 d0 (by decide)
    · have off : Touches ctl d0 (loadHeld r (sf Reg.LE_CTL F.LE_CTL_EN 0 d0)) := (Touches.refl d0).sf _ _ _ (.inl rfl)
      exact (off.opState _ _).opState _ _
  · refine completes_sys (f := xLeEnable) rfl rfl hs ?_
    have on : xLeEnable d0 = loadResume (sf Reg.LE_CTL F.LE_CTL_EN 1 d0) := if_pos (by simp [hr, d0, ha])
    rw [on, loadResume_manifest (d := sf Reg.LE_CTL F.LE_CTL_EN 1 d0) hr hk hm hsh]
    refine ⟨gb_sf_same _ _ _ _ (by decide), le_opState _ _ _,
      mget_opState (d := setRun { r with adj := 0, nv := [] } (sf Reg.LE_CTL F.LE_CTL_EN 1 d0)) he hh .running, ?_⟩
    exact (Touches.opState (w := ctl) (Touches.mk ((Touches.refl d0).sf _ _ _ (.inl rfl))) _ _).sf _ _ _ (.inl rfl)
  · intro status i data hst hi row q head taken
    have ok : (WellFormed.lt status 32768 && WellFormed.okOpt i 4096) = true := by
      simp only [hi, WellFormed.lt, hst, decide_true, Bool.and_self]
    have nvme : ∀ {P}, P (xNvme status i data d0) → Completes row s P := fun hP => completes_sys rfl ok hs hP
    refine ⟨fun hout => nvme (xNvme_none hout), fun hout hempty ha halign hm hc hcl hflip => ?_⟩
    obtain ⟨stored, le, regs⟩ := cqRung_stores (d := d0) rfl ha hm hc hcl hflip
    refine ⟨fun hr => nvme ?_, fun r hr hold hadj hman hnone => ⟨fun hst0 => nvme ?_, fun hst0 => nvme ?_⟩⟩
    · rw [xNvme_idle hout ((congrArg Le.run le).trans hr)]
      exact ⟨stored, le, regs⟩
    · rw [hnone, xNvme_manifest hout ((congrArg Le.run le).trans hr) hold hadj hman, if_neg (by simp [hst0]),
        nvmeFill_empty (d := setRun _ (cqRung d0)) ((congrArg Le.nvq le).trans hempty)]
      exact ⟨stored, congrArg (fun l : Le => { l with run := some { r with nv := r.nv ++ data } }) le, regs⟩
    · rw [hnone, xNvme_manifest hout ((congrArg Le.run le).trans hr) hold hadj hman, if_pos hst0]
      exact ⟨cqRung d0, stored, le, regs, rfl⟩

end Sys2Proof.Machine
end

/-! ## The end of a load whose command came over no ring -/

section
/-! Settlement of O28. -/

namespace Sys2Proof.Machine

/-- A load whose command names ring pair 16, where the device has 0 to 15. -/
def strayLoad : LoadRun :=
  { h := { ring := 16, idx := 0, tag := 0, opcode := 0x10, flags := 0, handle := 0 }
    kind := 0, addr := 0, nsid := 0, len := 0, slot := 0, side := 0 }

/-- It runs, and the registers at the addresses that ring pair 16 would have show a ring that can take a completion. -/
def strayDev : Dev :=
  { regs := [(Reg.SYS_DRAM_TOP.addr, 0x1000000), (Reg.PMU_DOM_STAT.addr, 8), ((Reg.RING_CPL_BASE 16).addr, 0x1000000000),
      ((Reg.RING_CFG 16).addr, 0x80000000)]
    le := { run := some strayLoad } }

theorem ringReady_strayDev : RingReady strayDev 16 :=
  ⟨by decide, by decide, by decide, by decide, by decide, clean_unmarked rfl rfl _ _, by decide⟩

/-- The completion goes to ring pair 0, its number's low four bits, which is disabled and holds it: the tail of pair 16 stands. -/
theorem strayDev_tail : gf (xSourceTimeout none strayDev) (Reg.RING_CPL_TAIL 16) F.RING_CPL_TAIL_INDEX = 0 := by decide +kernel

/-- Refutes O28: the load's ring number is bounded nowhere. A load of ring pair 16 that times out before its manifest completes at ring
pair 0, so that no entry is written at pair 16, however ready the registers there look. -/
theorem not_loadsArriveAndEnd : ¬ Obligations.LoadsArriveAndEnd := by
  intro h
  obtain ⟨-, -, -, ends⟩ := h ⟨[], strayDev⟩ (by decide)
  obtain ⟨-, -, timesOut⟩ := (ends none 0 rfl (by decide)).2 strayLoad rfl rfl
  have ended := timesOut rfl rfl rfl (by decide) ringReady_strayDev rfl
  obtain ⟨-, e, -, -, frame, -, tail, -⟩ := ended.of_sys (f := xSourceTimeout none) rfl rfl (by decide)
  have tail : gf (xSourceTimeout none strayDev) (Reg.RING_CPL_TAIL 16) F.RING_CPL_TAIL_INDEX =
      ((rd e (Reg.RING_CPL_TAIL 16)).toNat + 1) % 2 ^ 32 := tail
  rw [frame.rd_eq (Reg.RING_CPL_TAIL 16) (by decide) (by unfold raised; decide)] at tail
  exact absurd (strayDev_tail.symm.trans tail) (by decide)

end Sys2Proof.Machine
end

/-! ## Patrol laps, releases and the close of sessions -/

section
/-! SUPPORT and settlement of O30. -/

namespace Sys2Proof.Machine

theorem IrqOnly.le {d e : Dev} (h : IrqOnly d e) : e.le = d.le := by obtain ⟨_, _, _, _, _, rfl⟩ := h; rfl

/-! ### A lap and what it holds (R399) -/

section
variable {d : Dev}

/-- What a lap checks of a side: its shards and its adapters, while it is READY or LIVE. -/
def sideLap (n x : Nat) (s : Side) : List (Nat × Nat × Nat × Bool) :=
  if s.st = 2 ∨ s.st = 3 then s.shards.map (fun m => (n, x, m.id, false)) ++ s.ads.map (fun a => (n, x, a.1, true)) else []

/-- What a lap that starts now checks. -/
def lapList (d : Dev) : List (Nat × Nat × Nat × Bool) :=
  (List.range 128).flatMap (fun j => sideLap (j / 2) (j % 2) (sideOf d (j / 2) (j % 2)))

theorem xPatrolStart_starts (he : gb d Reg.LE_CTL F.LE_CTL_PATROL_EN = true) (hl : d.le.lap = none) :
    xPatrolStart d = setLe { d.le with lap := some ⟨aonTime d, lapList d⟩ } d := if_neg (by simp [he, hl])

theorem xPatrolStart_none (h : gb d Reg.LE_CTL F.LE_CTL_PATROL_EN = false ∨ d.le.lap ≠ none) : xPatrolStart d = d :=
  if_pos (by simpa [Option.isSome_iff_ne_none] using h)

theorem mem_sideLap {n x i m y : Nat} {ad : Bool} {s : Side} : (n, x, i, ad) ∈ sideLap m y s ↔
    n = m ∧ x = y ∧ (s.st = 2 ∨ s.st = 3) ∧ if ad then ∃ v, (i, v) ∈ s.ads else ∃ t ∈ s.shards, t.id = i := by
  unfold sideLap
  split
  · next checked =>
    constructor
    · intro hmem
      obtain hmem | hmem := List.mem_append.mp hmem
      · obtain ⟨t, ht, heq⟩ := List.mem_map.mp hmem
        cases heq
        exact ⟨rfl, rfl, checked, t, ht, rfl⟩
      · obtain ⟨⟨i, v⟩, hv, heq⟩ := List.mem_map.mp hmem
        cases heq
        exact ⟨rfl, rfl, checked, v, hv⟩
    · rintro ⟨rfl, rfl, -, hin⟩
      cases ad with
      | false =>
        obtain ⟨t, ht, rfl⟩ := hin
        exact List.mem_append_left _ (List.mem_map.mpr ⟨t, ht, rfl⟩)
      | true =>
        obtain ⟨v, hv⟩ := hin
        exact List.mem_append_right _ (List.mem_map.mpr ⟨(i, v), hv, rfl⟩)
  · next unchecked => simp [unchecked]

/-- Every shard and adapter of every READY or LIVE side. -/
theorem mem_lapList {n x i : Nat} {ad : Bool} : (n, x, i, ad) ∈ lapList d ↔
    n < 64 ∧ x < 2 ∧ ((sideOf d n x).st = 2 ∨ (sideOf d n x).st = 3) ∧
      if ad then ∃ v, (i, v) ∈ (sideOf d n x).ads else ∃ t ∈ (sideOf d n x).shards, t.id = i := by
  simp only [lapList, List.mem_flatMap, List.mem_range, mem_sideLap]
  constructor
  · rintro ⟨j, hj, rfl, rfl, rest⟩
    exact ⟨by omega, by omega, rest⟩
  · rintro ⟨hn, hx, rest⟩
    refine ⟨2 * n + x, by omega, by omega, by omega, ?_⟩
    rwa [show (2 * n + x) / 2 = n by omega, show (2 * n + x) % 2 = x by omega]

end

/-! ### A shard of the lap is checked (R400, R401) -/

section
variable {d : Dev} {l : Lap} {rest : List (Nat × Nat × Nat × Bool)}

/-- A register above the pending bits of the IC is none of them. -/
theorem icPending_sf_above (r : Reg) (f : Fld) (x : Nat) (d : Dev) (n : Nat) (hr : 0x10050000 ≤ r.addr) (hn : n < 512) :
    icPending (sf r f x d) n = icPending d n := by
  unfold icPending
  rw [rd_sf_ne _ _ _ (by simp only [Reg.IC_PEND]; omega)]

/-- The lap ends with its duration. -/
def lapDone (l : Lap) (d : Dev) : Dev :=
  sf Reg.LE_PATROL_LAP F.LE_PATROL_LAP_SECONDS ((aonTime d - l.start) / aonHz) (setLe { d.le with lap := none } d)

/-- The lap goes on with what is left, or ends. -/
def lapNext (l : Lap) (rest : List (Nat × Nat × Nat × Bool)) (d : Dev) : Dev :=
  if rest = [] then lapDone l d else setLe { d.le with lap := some { l with left := rest } } d

/-- The verdict on a shard: a digest that is not its own is counted and raised. -/
def lapVerdict (good : Bool) (d : Dev) : Dev := if good then d else patrolBad d

theorem xPatrolCheck_none (h : d.le.lap = none) : xPatrolCheck d = d := by
  unfold xPatrolCheck
  rw [h]

theorem xPatrolCheck_empty (h : d.le.lap = some l) (hl : l.left = []) : xPatrolCheck d = lapDone l d := by
  unfold xPatrolCheck
  rw [h]
  dsimp only
  rw [hl]
  rfl

/-- A shard that reads clean is judged by its digest. -/
theorem patrolCheck_shard {n x i : Nat} {m : ManShard} {bs : List Byte} (hm : (sideOf d n x).shards.find? (fun m => m.id == i) = some m)
    (hr : extRead 8 (shardExts d n x i) m.len d = (some (bs, false), d)) :
    patrolCheck n x i false d = (some (sha512 bs == m.digest), d) := by
  unfold patrolCheck
  dsimp only
  rw [if_neg Bool.false_ne_true, hm]
  dsimp only
  rw [hr]
  rfl

theorem xPatrolCheck_shard {n x i : Nat} {good : Bool} (h : d.le.lap = some l) (hl : l.left = (n, x, i, false) :: rest)
    (hc : patrolCheck n x i false d = (some good, d)) : xPatrolCheck d = lapNext l rest (lapVerdict good d) := by
  unfold xPatrolCheck
  rw [h]
  dsimp only
  rw [hl]
  dsimp only
  rw [hc]
  cases good <;> rfl

theorem lapDone_leaves (l : Lap) (d : Dev) : (lapDone l d).le = { d.le with lap := none } ∧
    gf (lapDone l d) Reg.LE_PATROL_LAP F.LE_PATROL_LAP_SECONDS = (aonTime d - l.start) / aonHz % 2 ^ 32 ∧
    Touches (fun a => a = Reg.LE_PATROL_LAP.addr) d (lapDone l d) :=
  ⟨rfl, gf_sf_same _ _ _ _ (by decide), (Touches.mk (Touches.refl d)).sf _ _ _ (.inl rfl)⟩

/-- Going on with the lap leaves the count and the interrupts alone. -/
theorem lapNext_leaves (l : Lap) (rest : List (Nat × Nat × Nat × Bool)) (d : Dev) :
    (rest ≠ [] → (lapNext l rest d).le = { d.le with lap := some { l with left := rest } }) ∧
    gf (lapNext l rest d) Reg.LE_PATROL_CNT F.LE_PATROL_CNT_COUNT = gf d Reg.LE_PATROL_CNT F.LE_PATROL_CNT_COUNT ∧
    icPending (lapNext l rest d) 90 = icPending d 90 ∧
    Touches (fun a => a = Reg.LE_PATROL_LAP.addr ∧ rest = []) d (lapNext l rest d) := by
  unfold lapNext
  split
  · next h =>
    exact ⟨fun hn => absurd h hn, gf_sf_ne _ _ _ _ (by decide), icPending_sf_above _ _ _ _ _ (by decide) (by decide),
      (lapDone_leaves l d).2.2.mono fun _ ha => ⟨ha, h⟩⟩
  · exact ⟨fun _ => rfl, rfl, rfl, Touches.mk (Touches.refl d)⟩

theorem patrolCnt_not_raised : ¬ raised Reg.LE_PATROL_CNT.addr := by unfold raised; decide

/-- The verdict changes no table of the load engine and no time; a bad one is counted and pending. -/
theorem lapVerdict_leaves (good : Bool) (d : Dev) : (lapVerdict good d).le = d.le ∧ aonTime (lapVerdict good d) = aonTime d ∧
    (good = false → gf (lapVerdict good d) Reg.LE_PATROL_CNT F.LE_PATROL_CNT_COUNT =
      min (gf d Reg.LE_PATROL_CNT F.LE_PATROL_CNT_COUNT + 1) 0x7FFFFFFF ∧ icPending (lapVerdict good d) 90 = true) ∧
    Touches (fun a => a = Reg.LE_PATROL_CNT.addr ∧ good = false) d (lapVerdict good d) := by
  cases good with
  | true => exact ⟨rfl, rfl, fun h => absurd h (by decide), Touches.refl d⟩
  | false =>
    have touches : Touches (fun a => a = Reg.LE_PATROL_CNT.addr ∧ false = false) d (patrolBad d) :=
      ((Touches.refl d).cntAdd _ _ _ _ _ (.inl ⟨rfl, rfl⟩)).raise 90
    refine ⟨(IrqOnly.raise (IrqOnly.cntAdd (IrqOnly.refl d) _ _ _ _ _) 90).le, ?_, fun _ => ⟨?_, icPending_raise _ _ (by decide)⟩, touches⟩
    · exact congrArg BitVec.toNat (touches.rd_eq Reg.AON_TIME (by decide) (by unfold raised; decide))
    · refine (gf_raise _ _ _ _ patrolCnt_not_raised).trans ?_
      exact gf_cntAdd _ _ _ _ _ _ (by decide) (by decide) (by decide) patrolCnt_not_raised

end

/-! ### RELEASE (R431, R439) -/

section
variable {d : Dev} {h : CmdHdr} {n x : Nat}

theorem releaseRow_bad (hb : 7 < h.flags ∨ h.handle ≠ 0 ∨ 1 < x) : releaseRow h n x d = finish h 0xC2 0 0 (cmdIn h d) := by
  by_cases hf : 7 < h.flags ∨ decide (x > 1) = true
  · exact fieldCmd_bad hf
  · obtain ⟨hflags, hx⟩ := not_or.mp hf
    have hh : h.handle ≠ 0 := by simp at hx; omega
    unfold releaseRow
    rw [Bool.eq_false_iff.mpr hx, fieldCmd_good (Nat.not_lt.mp hflags)]
    exact if_pos (.inl hh)

section
variable (hf : h.flags ≤ 7) (hx : x ≤ 1)
include hf hx

theorem releaseRow_good : releaseRow h n x d = releaseCmd h n x d := by
  unfold releaseRow
  rw [decide_eq_false (by omega), fieldCmd_good hf]

variable (hh : h.handle = 0)
include hh

theorem releaseRow_noSlot (hn : 63 < n) : releaseRow h n x d = finish h 0x40 0 0 (cmdIn h d) :=
  (releaseRow_good hf hx).trans ((if_neg (by omega)).trans (if_pos hn))

section
variable (hn : n ≤ 63)
include hn

theorem releaseRow_notReady (h2 : (sideOf d n x).st ≠ 2) (h3 : (sideOf d n x).st ≠ 3) :
    releaseRow h n x d = finish h 0x47 0 0 (cmdIn h d) := by
  rw [releaseRow_good hf hx]
  unfold releaseCmd
  dsimp only
  rw [if_neg (by omega), if_neg (by omega)]
  split
  · contradiction
  · contradiction
  · rfl

theorem releaseRow_ready (h2 : (sideOf d n x).st = 2) :
    releaseRow h n x d = finish h 0 0 0 (castleRecheck n x (sideRelease n x (cmdIn h d))) := by
  rw [releaseRow_good hf hx]
  unfold releaseCmd
  dsimp only
  rw [if_neg (by omega), if_neg (by omega), show (sideOf (cmdIn h d) n x).st = 2 from h2]
  rfl

/-- A side retires and is let go where nothing refers to it. -/
def sideRetired (n x : Nat) (d : Dev) : Dev :=
  let e := sideUpd n x (fun y => { y with st := 4 }) (dropBindings n x d)
  if refCount e n x = 0 then sideRelease n x e else e

theorem releaseRow_live (h3 : (sideOf d n x).st = 3) :
    releaseRow h n x d = finish h 0 0 0 (fpRecompute (sideRetired n x (holdEnd n (cmdIn h d)))) := by
  rw [releaseRow_good hf hx]
  unfold releaseCmd
  dsimp only
  rw [if_neg (by omega), if_neg (by omega), show (sideOf (cmdIn h d) n x).st = 3 from h3]
  rfl

end

end

theorem castleRecheck_none (hc : mget d.slots.castles n = none) : castleRecheck n x d = d := by
  unfold castleRecheck
  rw [hc]

theorem holdEnd_none (hh : (mslot d n).hold = none) : holdEnd n d = d := by
  unfold holdEnd
  rw [hh]

end

/-! ### SESSION_CLOSE (R414) -/

section
variable {d : Dev} {h : CmdHdr} {n k : Nat} {y : Session}

theorem sessionCloseCmd_bad (hb : 7 < h.flags ∨ h.handle ≠ 0) : sessionCloseCmd h n k d = finish h 0xC2 0 0 (cmdIn h d) := if_pos hb.symm

/-- The session keeps a close that waits. -/
def closeKept (h : CmdHdr) (n k : Nat) (y : Session) (d : Dev) : Dev :=
  setSessions (mput d.slots.sessions (sessKey n k) { y with close := y.close ++ [h] }) (cmdIn h d)

section
variable (hf : h.flags ≤ 7) (hh : h.handle = 0)
include hf hh

theorem sessionCloseCmd_none (hy : mget d.slots.sessions (sessKey n k) = none) :
    sessionCloseCmd h n k d = finish h 0xD0 0 0 (cmdIn h d) := by
  refine (if_neg (by omega)).trans ?_
  change (match mget d.slots.sessions (sessKey n k) with | none => _ | some _ => _) = _
  rw [hy]

theorem sessionCloseCmd_some (hy : mget d.slots.sessions (sessKey n k) = some y) : sessionCloseCmd h n k d =
    if sessBusy d n k then closeKept h n k y d else sessClose n k (closeKept h n k y d) := by
  have kept : mupd d.slots.sessions (sessKey n k) { side := none } (fun x => { x with close := x.close ++ [h] }) =
      mput d.slots.sessions (sessKey n k) { y with close := y.close ++ [h] } := by
    unfold mupd mgetD
    rw [hy]
    rfl
  unfold sessionCloseCmd
  dsimp only
  rw [if_neg (by omega)]
  split
  · next hn => exact absurd (hy.symm.trans hn) (by simp)
  · rw [show mupd (cmdIn h d).slots.sessions (sessKey n k) { side := none } (fun x => { x with close := x.close ++ [h] }) = _ from kept]
    rfl

end

/-- No side of the slot retires. -/
theorem retireChecks_none (h0 : (sideOf d n 0).st ≠ 4) (h1 : (sideOf d n 1).st ≠ 4) : retireChecks n d = d := by
  have first : retireCheck n 0 d = d := if_neg fun h => h0 h.1
  unfold retireChecks
  rw [first]
  exact if_neg fun h => h1 h.1

/-- The session is closed. -/
def sessionGone (h : CmdHdr) (n k : Nat) (y : Session) (d : Dev) : Dev :=
  setSessions (mdel (closeKept h n k y d).slots.sessions (sessKey n k)) (closeKept h n k y d)

theorem sessionGone_finish (h : CmdHdr) (n k : Nat) (y : Session) (d : Dev) :
    (finish h 0 0 0 (sessionGone h n k y d)).slots = (sessionGone h n k y d).slots := slots_of_kept (kept_finish _ _ _ _ _)

/-- A session without a close that waited before is closed, and this close completes. -/
theorem sessClose_closes (hc : y.close = []) (h0 : (sideOf d n 0).st ≠ 4) (h1 : (sideOf d n 1).st ≠ 4) :
    sessClose n k (closeKept h n k y d) = finish h 0 0 0 (sessionGone h n k y d) := by
  have sides : ∀ x, sideOf (finish h 0 0 0 (sessionGone h n k y d)) n x = sideOf d n x := fun x => by
    unfold sideOf mslot
    rw [sessionGone_finish]
    rfl
  have entry : mget (closeKept h n k y d).slots.sessions (sessKey n k) = some { y with close := [h] } := by
    refine (mget_mput_same _ _ _).trans ?_
    rw [hc]
    rfl
  unfold sessClose
  rw [entry]
  exact retireChecks_none ((sides 0).symm ▸ h0) ((sides 1).symm ▸ h1)

theorem cplWritten_sessionGone (hn : h.ring < 16) (hr : RingReady d h.ring) (hh : mgetD d.rings.held h.ring [] = []) :
    CplWritten ⟨h, 0, 0, 0, 0, false⟩ d (finish h 0 0 0 (sessionGone h n k y d)) := by
  have ready : RingReady (sessionGone h n k y d) h.ring := hr
  exact (cplWritten_complete (c := ⟨h, 0, 0, 0, 0, false⟩) hn ready hh).1

end

/-- Settles O30: a lap lists the sides that it checks and judges each shard by its digest; a RELEASE goes by the state of its side; and a
SESSION_CLOSE waits for the session's batches or closes it at once. -/
theorem patrolLapsAndReleases : Obligations.PatrolLapsAndReleases := by
  unfold Obligations.PatrolLapsAndReleases
  intro s hs d0 lapEnds
  refine ⟨fun hnone => completes_sys rfl rfl hs (xPatrolStart_none hnone), fun hen hlap => ?_,
    fun hlap => completes_sys rfl rfl hs (xPatrolCheck_none hlap), fun l hl => ⟨fun hleft => ?_, fun n x i rest m bs hleft hm hread => ?_⟩,
    fun h hok hready hheld => ⟨fun htrain n x hn hx => ?_, fun n k hn hk => ?_⟩⟩
  · refine completes_sys (f := xPatrolStart) rfl rfl hs ?_
    rw [xPatrolStart_starts hen hlap]
    exact ⟨Touches.mk (Touches.refl d0), lapList d0, rfl, fun n x i ad => mem_lapList⟩
  · refine completes_sys (f := xPatrolCheck) rfl rfl hs ?_
    rw [xPatrolCheck_empty hl hleft]
    obtain ⟨le, seconds, touches⟩ := lapDone_leaves l d0
    exact ⟨⟨le, seconds⟩, touches⟩
  · refine completes_sys (f := xPatrolCheck) rfl rfl hs ?_
    rw [xPatrolCheck_shard hl hleft (patrolCheck_shard hm hread)]
    obtain ⟨le, time, counted, verdict⟩ := lapVerdict_leaves (sha512 bs == m.digest) d0
    obtain ⟨left, count, pending, next⟩ := lapNext_leaves l rest (lapVerdict (sha512 bs == m.digest) d0)
    refine ⟨fun hrest => ?_, fun hrest => (left hrest).trans (by rw [le]), fun hbad => ?_, ?_⟩
    · have ended : lapNext l rest (lapVerdict (sha512 bs == m.digest) d0) = lapDone l (lapVerdict (sha512 bs == m.digest) d0) := if_pos hrest
      obtain ⟨lapLe, seconds, -⟩ := lapDone_leaves l (lapVerdict (sha512 bs == m.digest) d0)
      rw [ended]
      exact ⟨lapLe.trans (by rw [le]), seconds.trans (by rw [time])⟩
    · obtain ⟨counted, raised⟩ := counted (beq_eq_false_iff_ne.mpr hbad)
      exact ⟨count.trans counted, pending.trans raised⟩
    · exact (verdict.mono fun a ha => .inr ⟨ha.1, beq_eq_false_iff_ne.mp ha.2⟩).trans (next.mono fun a ha => .inl ha)
  · intro H d1 row ends
    have hring := ring_lt_of_okHdr hok
    have ok : (WellFormed.okHdr h && WellFormed.lt n 256 && WellFormed.lt x 256) = true := by
      simp only [hok, WellFormed.lt, hn, hx, decide_true, Bool.and_self]
    have release : ∀ {P} {e : Dev}, releaseRow H n x d0 = e → e.train = none → P e → Completes row s P := fun he ht hP =>
      completes_sys (f := trAfter _) rfl ok hs (by rwa [trAfter_none (he ▸ ht), he])
    have refused : ∀ {code}, releaseRow H n x d0 = finish H code 0 0 (cmdIn H d0) → ends code := fun he =>
      release he ((train_finish H _ d0).trans htrain) (cplWritten_finish (cmdIn H d0).rings _ hring hready hheld)
    refine ⟨fun hb => refused (releaseRow_bad hb), fun hf hh hx1 => ⟨fun hn63 => refused (releaseRow_noSlot hf hx1 hh hn63),
      fun hn63 => ⟨fun h2 h3 => refused (releaseRow_notReady hf hx1 hh hn63 h2 h3), fun h2 hc ht hsame => ?_, ?_⟩⟩⟩
    · have stays : mget (sideRelease n x d1).slots.castles n = none := by
        rw [hsame]
        exact hc
      refine release ?_ ht rfl
      rw [releaseRow_ready (h := H) hf hx1 hh hn63 h2, castleRecheck_none stays]
    · intro h3 hhold e f ht
      refine release ?_ ht rfl
      rw [releaseRow_live (h := H) hf hx1 hh hn63 h3, holdEnd_none (d := cmdIn H d0) hhold]
      rfl
  · intro H row ends
    have hring := ring_lt_of_okHdr hok
    have ok : (WellFormed.okHdr h && WellFormed.lt n 256 && WellFormed.lt k 65536) = true := by
      simp only [hok, WellFormed.lt, hn, hk, decide_true, Bool.and_self]
    have close : ∀ {P} {e : Dev}, sessionCloseCmd H n k d0 = e → P e → Completes row s P := fun he hP =>
      completes_sys rfl ok hs (by rwa [he])
    have refused : ∀ {code}, sessionCloseCmd H n k d0 = finish H code 0 0 (cmdIn H d0) → ends code := fun he =>
      close he (cplWritten_finish (cmdIn H d0).rings _ hring hready hheld)
    refine ⟨fun hb => refused (sessionCloseCmd_bad hb), fun hf hh => ⟨fun hy => refused (sessionCloseCmd_none hf hh hy), fun y hy =>
      ⟨fun hbusy => ?_, fun hbusy hclose h0 h1 => ?_⟩⟩⟩
    · exact close ((sessionCloseCmd_some (h := H) hf hh hy).trans (if_pos hbusy))
        ⟨mget_mput_same _ _ _, fun j hj => mget_mput_ne _ _ hj, fun _ _ _ => rfl, rfl, rfl, rfl⟩
    · refine close (((sessionCloseCmd_some (h := H) hf hh hy).trans (if_neg (Bool.eq_false_iff.mp hbusy))).trans (sessClose_closes hclose h0 h1)) ⟨?_, ?_⟩
      · rw [sessionGone_finish]
        exact mget_mdel_same _ _
      · exact cplWritten_sessionGone hring hready hheld

end Sys2Proof.Machine
end

/-! ## The sides of a slot change places -/

section
/-! SUPPORT and settlement of O29. -/

namespace Sys2Proof.Machine

theorem IrqOnly.pipes {d e : Dev} (h : IrqOnly d e) : e.pipes = d.pipes := by obtain ⟨_, _, _, _, _, rfl⟩ := h; rfl

/-! ### What leaves the train-run alone (R498) -/

theorem train_of_h {d e : Dev} (h : ∀ {rr vv kk pp}, Holds rr vv kk pp d → Holds rr vv kk pp e) : e.train = d.train :=
  train_of_kept (h (holds_self quiet quiet_free d)).2.2.1

@[simp] theorem ite_train {c : Prop} [Decidable c] (a b : Dev) : (if c then a else b).train = if c then a.train else b.train := apply_ite _ _ _ _

@[simp] theorem foldl_train {α : Type} (l : List α) (f : Dev → α → Dev) (d : Dev) (hf : ∀ e x, (f e x).train = e.train) :
    (l.foldl f d).train = d.train := by
  induction l generalizing d with
  | nil => rfl
  | cons x l ih => exact (ih _).trans (hf d x)

@[simp] theorem forEach_train {α : Type} (l : List α) (f : α → Dev → Dev) (d : Dev) (hf : ∀ x e, (f x e).train = e.train) :
    (forEach l f d).train = d.train := foldl_train _ _ _ fun e x => hf x e

@[simp] theorem forN_train (n : Nat) (f : Nat → Dev → Dev) (d : Dev) (hf : ∀ x e, (f x e).train = e.train) :
    (forN n f d).train = d.train := forEach_train _ _ _ hf

@[simp] theorem raise_train (n : Nat) (d : Dev) : (raise n d).train = d.train := train_of_h (raise_h n d)

@[simp] theorem finish_train (h : CmdHdr) (code r0 r1 : Nat) (d : Dev) : (finish h code r0 r1 d).train = d.train :=
  train_of_h (finish_h h code r0 r1 d)

@[simp] theorem setLast_train (k code : Nat) (d : Dev) : (setLast k code d).train = d.train := train_of_h (setLast_h k code d)

@[simp] theorem opStart_train (k : Nat) (o : AryOp) (d : Dev) : (opStart k o d).train = d.train := train_of_h (opStart_h k o d)

@[simp] theorem scoreEvent_train (ev kind index : Nat) (args : List Nat) (d : Dev) : (scoreEvent ev kind index args d).train = d.train :=
  train_of_h (scoreEvent_h ev kind index args d)

@[simp] theorem aryRetire_train (k b : Nat) (d : Dev) : (aryRetire k b d).train = d.train := by
  unfold aryRetire
  refine (train_of_h (invalidate_h k b _)).trans ?_
  split
  · exact (ite_train _ _).trans (by rw [train_of_h (opAbort_h k _ d), ite_self])
  · rfl

@[simp] theorem tmPut_train (n : Nat) (o : TmObj) (d : Dev) : (tmPut n o d).train = d.train := rfl

@[simp] theorem dropPlace_train (n : Nat) (d : Dev) : (dropPlace n d).train = d.train := by
  unfold dropPlace
  split
  · rfl
  · exact foldl_train _ _ _ fun _ _ => rfl

@[simp] theorem adFree_train (a : AdVer) (d : Dev) : (adFree a d).train = d.train := dropPlace_train _ d

@[simp] theorem eraseSettle_train (d : Dev) : (eraseSettle d).train = d.train := by simp [eraseSettle]

@[simp] theorem argSet_train (k b page : Nat) (d : Dev) : (argSet k b page d).train = d.train := rfl

@[simp] theorem eraseKick_train (d : Dev) : (eraseKick d).train = d.train := by simp [eraseKick]

@[simp] theorem freeExts_train (owner : Option Nat) (check : Bool) (es : List Extent) (d : Dev) :
    (freeExts owner check es d).train = d.train := by simp [freeExts]

@[simp] theorem sideRelease_train (n x : Nat) (d : Dev) : (sideRelease n x d).train = d.train := by simp [sideRelease, copiesRelease]

@[simp] theorem retireCheck_train (n x : Nat) (d : Dev) : (retireCheck n x d).train = d.train := by simp [retireCheck]

@[simp] theorem fpRecompute_train (d : Dev) : (fpRecompute d).train = d.train := rfl

@[simp] theorem castleEnd_train (n code r0 r1 : Nat) (d : Dev) : (castleEnd n code r0 r1 d).train = d.train := by
  unfold castleEnd
  split <;> simp

section
variable {d : Dev}

/-- The end of a hold and the switch of a castle mark a train-run, and start none. -/
theorem holdEnd_untrained (h : d.train = none) (n : Nat) : (holdEnd n d).train = none := by
  unfold holdEnd
  split
  · exact h
  · simp [dropBindings, h]

theorem castleSwitch_untrained (h : d.train = none) (n x : Nat) (rebind : Bool) : (castleSwitch n x rebind d).train = none := by
  have ended := holdEnd_untrained h n
  unfold castleSwitch
  dsimp only
  split
  · simpa using ended
  · rw [fpRecompute_train]
    split
    · exact holdEnd_untrained (by simpa using ended) n
    · simpa using ended

theorem castleDo_untrained (h : d.train = none) (n : Nat) : (castleDo n d).train = none := by
  unfold castleDo
  split
  · exact h
  · dsimp only
    split
    · simpa using h
    · simpa using castleSwitch_untrained h n _ _

end

/-- A row after which a train-run may move on does what its own operation does, where that leaves none. -/
theorem completes_trAfter {s : State} {c : Instr} {ok : Bool} {f : Dev → Dev} {P : Dev → Prop} {e : Dev}
    (hx : exec c s = liftSys ok (trAfter f) s) (hok : ok = true) (hs : sysClocked s.dev = true) (he : f s.dev = e) (ht : e.train = none)
    (hP : P e) : Completes c s P := completes_sys hx hok hs (by rwa [trAfter_none (he ▸ ht), he])

/-! ### CASTLE (R420, R428, R429, R439) -/

section
variable {d : Dev} {h : CmdHdr} {n flags b x : Nat}

theorem castleCmd_good (hf : h.flags ≤ 7) (hx : flags ≤ 7) : castleCmd h n flags b d = xCastle h n flags b d := by
  unfold castleCmd
  rw [decide_eq_false (by omega), fieldCmd_good hf]

theorem castleCmd_runs (hf : h.flags ≤ 7) (hx : flags ≤ 7) (hu : mhas d.rings.ops h.handle = false) :
    castleCmd h n flags b d = castleRun h n flags b (cmdIn h d) := (castleCmd_good hf hx).trans (longCmd_free hu)

theorem castleRun_noSlot (hn : 63 < n) : castleRun h n flags b (cmdIn h d) = finish h 0x40 0 0 (opTaken h .running d) := if_pos hn

/-- A castle of the slot is under way, or an image operation while the castle has an image. -/
def castleBusy (n flags : Nat) (d : Dev) : Prop := mhas d.slots.castles n = true ∨ (flags.testBit 1 = true ∧ imgBusy d = true)

/-- The barrier that a castle names, if it has one. -/
def castleBarrier (flags b : Nat) : Option Nat := if flags.testBit 2 then some b else none

/-- The castle has a barrier that is none, or that no request reaches. -/
def NoBarrier (flags b : Nat) (d : Dev) : Prop :=
  flags.testBit 2 = true ∧ (barrierOk d b = false ∨ (¬ flags.testBit 1 = true ∧ objLocal d b = false ∧ hasRoute d (objDev b) = false))

theorem noBarrier_iff : (castleBarrier flags b).any (fun o =>
    !(barrierOk d o) || (!(flags.testBit 1) && !(objLocal d o) && !(hasRoute d (objDev o)))) = true ↔ NoBarrier flags b d := by
  unfold castleBarrier NoBarrier
  split
  · next hb => simp [hb, and_assoc]
  · next hb => simp [hb]

/-- A castle as its command makes it. -/
def castleNew (h : CmdHdr) (flags b x : Nat) : Castle := { h := h, flags := flags, barrier := b, side := x }

/-- The castle has its handle and stands in the table. -/
def castleOpened (h : CmdHdr) (n flags b x : Nat) (d : Dev) : Dev :=
  setCastles (mput d.slots.castles n (castleNew h flags b x)) (opTaken h .running d)

/-- A castle arrives at its barrier, and waits there unless it has released. -/
def castleAwaits (n o : Nat) (c : Castle) (d : Dev) : Dev :=
  match barrierArrive 8 o (.castleArrive n) (.castleWait n) d with
  | (_, false, d) => castleEnd n 0x44 0 0 d
  | (g, true, d) =>
    let d := setCastles (mupd d.slots.castles n c (fun c => { c with gen := g, arrived := true })) d
    let w := barrierWait 8 o (.castleArrive n) g d
    if w.1 then castleDo n w.2 else w.2

/-- What a castle does that no check refuses. -/
def castleGoes (n : Nat) (c : Castle) (d : Dev) : Dev :=
  if c.flags.testBit 1 then actStart none (some n) (castleBarrier c.flags c.barrier) d
  else
    match castleBarrier c.flags c.barrier with
    | none => castleDo n d
    | some o => castleAwaits n o c d

section
variable (hn : n ≤ 63)
include hn

theorem castleRun_busy (hb : castleBusy n flags d) : castleRun h n flags b (cmdIn h d) = finish h 0x41 0 0 (opTaken h .running d) :=
  (if_neg (by omega)).trans (if_pos hb)

variable (hb : ¬ castleBusy n flags d)
include hb

theorem castleRun_noTarget (ht : castleTarget d n = none) : castleRun h n flags b (cmdIn h d) = finish h 0x42 0 0 (opTaken h .running d) := by
  refine (if_neg (by omega)).trans ((if_neg hb).trans ?_)
  split
  · rfl
  · next ht' => exact absurd (ht.symm.trans ht') (by simp)

variable (ht : castleTarget d n = some x)
include ht

theorem castleRun_target : castleRun h n flags b (cmdIn h d) =
    if castleEngines d n (sideOf d n x).mask = false then finish h 0x43 0 0 (opTaken h .running d)
    else if (castleBarrier flags b).any (fun o => !(barrierOk d o) || (!(flags.testBit 1) && !(objLocal d o) && !(hasRoute d (objDev o)))) then
      finish h 0x44 0 0 (opTaken h .running d)
    else castleGoes n (castleNew h flags b x) (castleOpened h n flags b x d) := by
  refine (if_neg (by omega)).trans ((if_neg hb).trans ?_)
  split
  · next ht' => exact absurd (ht.symm.trans ht') (by simp)
  · next y ht' =>
    obtain rfl : x = y := Option.some.inj (ht.symm.trans ht')
    rfl

theorem castleRun_noEngine (he : ¬ castleEngines d n (sideOf d n x).mask = true) :
    castleRun h n flags b (cmdIn h d) = finish h 0x43 0 0 (opTaken h .running d) :=
  (castleRun_target hn hb ht).trans (if_pos (Bool.eq_false_iff.mpr he))

variable (he : castleEngines d n (sideOf d n x).mask = true)
include he

theorem castleRun_noBarrier (hq : NoBarrier flags b d) : castleRun h n flags b (cmdIn h d) = finish h 0x44 0 0 (opTaken h .running d) :=
  (castleRun_target hn hb ht).trans ((if_neg (by simp [he])).trans (if_pos (noBarrier_iff.mpr hq)))

theorem castleRun_goes (hq : ¬ NoBarrier flags b d) :
    castleRun h n flags b (cmdIn h d) = castleGoes n (castleNew h flags b x) (castleOpened h n flags b x d) :=
  (castleRun_target hn hb ht).trans ((if_neg (by simp [he])).trans (if_neg (mt noBarrier_iff.mp hq)))

end

section
variable (hi : ¬ flags.testBit 1 = true)
include hi

theorem castleGoes_switch (hq : ¬ flags.testBit 2 = true) : castleGoes n (castleNew h flags b x) d = castleDo n d := by
  refine (if_neg hi).trans ?_
  rw [show castleBarrier (castleNew h flags b x).flags (castleNew h flags b x).barrier = none from if_neg hq]

theorem castleGoes_barrier (hq : flags.testBit 2 = true) :
    castleGoes n (castleNew h flags b x) d = castleAwaits n b (castleNew h flags b x) d := by
  refine (if_neg hi).trans ?_
  rw [show castleBarrier (castleNew h flags b x).flags (castleNew h flags b x).barrier = some b from if_pos hq]

end

/-- The castle, as the arrival has left it, switches where its barrier has released, and waits otherwise. -/
def castleSettled (n o : Nat) (c : Castle) (d : Dev) : Dev :=
  let w := barrierWait 8 o (.castleArrive n) c.gen d
  if w.1 then castleDo n w.2 else w.2

/-- At a barrier of this device a castle arrives, and then looks whether that has released it. -/
theorem castleAwaits_local {o : Nat} {c : Castle} (hl : objLocal d o = true)
    (hc : mget (barrierArrive 8 o (.castleArrive n) (.castleWait n) d).2.2.slots.castles n = some c) :
    castleAwaits n o c d =
      let a := barrierArrive 8 o (.castleArrive n) (.castleWait n) d
      let waiting := { c with gen := a.1, arrived := true }
      castleSettled n o waiting (setCastles (mput a.2.2.slots.castles n waiting) a.2.2) := by
  have arrives : ∃ g e, barrierArrive 8 o (.castleArrive n) (.castleWait n) d = (g, true, e) := ⟨_, _, if_pos hl⟩
  obtain ⟨g, e, arrives⟩ := arrives
  rw [arrives] at hc
  unfold castleAwaits mupd mgetD
  rw [arrives]
  dsimp only
  rw [show mget e.slots.castles n = some c from hc]
  rfl

end

/-! ### The switch of a castle (R420, R421) -/

section
variable {d : Dev} {n x : Nat} {c : Castle}

theorem mslot_mslotUpd (n : Nat) (f : MSlot → MSlot) (d : Dev) : mslot (mslotUpd n f d) n = f (mslot d n) := mgetD_mput_same _ _ _ _

theorem sideOf_sideUpd (n x : Nat) (f : Side → Side) (d : Dev) : sideOf (sideUpd n x f d) n x = f (sideOf d n x) := by
  unfold sideOf sideUpd
  rw [mslot_mslotUpd]
  split <;> rfl

/-- The castle completes with a code and leaves the table. -/
theorem castleEnd_castle (hc : mget d.slots.castles n = some c) (code r0 r1 : Nat) :
    castleEnd n code r0 r1 d = finish c.h code r0 r1 (setCastles (mdel d.slots.castles n) d) := by
  unfold castleEnd
  rw [hc]
  rfl

/-- The side enters LIVE, and the slot's switch is stamped and counted. -/
def sideEntered (n x : Nat) (d : Dev) : Dev :=
  mslotUpd n (fun m => { m with time := fastTime d, seq := (m.seq + 1) % 2 ^ 32, unavail := none })
    (sideUpd n x (fun y => { y with st := 3 }) d)

theorem castleTarget_ready (ht : castleTarget d n = some x) (hl : liveSide d n = none) : (sideOf d n x).st = 2 := by
  unfold castleTarget at ht
  rw [hl] at ht
  dsimp only at ht
  split at ht
  · next h0 =>
    obtain rfl := Option.some.inj ht
    exact h0
  · split at ht
    · next h1 =>
      obtain rfl := Option.some.inj ht
      exact h1
    · simp at ht

/-- Where no hold runs, only the side that was LIVE is there to retire. -/
theorem castleSwitch_first (hh : (mslot d n).hold = none) (hl : liveSide d n = none) (rebind : Bool) :
    castleSwitch n x rebind d = fpRecompute (sideEntered n x d) := by
  unfold castleSwitch
  rw [holdEnd_none hh]
  dsimp only
  rw [hl]
  rfl

theorem castleResults_first (hl : liveSide d n = none) (x : Nat) : castleResults d n x = (0, 0) := if_pos (by simp [hl])

/-- The castle of a slot without a LIVE side has switched, and is about to complete. -/
def castleFirst (n x : Nat) (d : Dev) : Dev :=
  setCastles (mdel d.slots.castles n) (fpRecompute (sideEntered n x d))

theorem castleDo_first (hc : mget d.slots.castles n = some c) (hs : (sideOf d n c.side).st = 2) (hh : (mslot d n).hold = none)
    (hl : liveSide d n = none) : castleDo n d = finish c.h 0 0 0 (castleFirst n c.side d) := by
  have entry : mget (fpRecompute (sideEntered n c.side d)).slots.castles n = some c := hc
  unfold castleDo
  rw [hc]
  dsimp only
  rw [if_neg (by simp [hs]), castleResults_first hl, castleSwitch_first hh hl, castleEnd_castle entry]
  rfl

/-- The side is LIVE, the switch is counted and the castle is over; the completion changes no slot. -/
theorem castleFirst_slots {e : Dev} (he : e.slots = (castleFirst n x d).slots) : (sideOf e n x).st = 3 ∧
    (mslot e n).seq = ((mslot d n).seq + 1) % 2 ^ 32 ∧ mget e.slots.castles n = none := by
  have slots : mslot e n = mslot (castleFirst n x d) n := congrArg (fun t : Slots => mgetD t.slots n {}) he
  have slot : mslot e n = mslot (sideEntered n x d) n := slots
  have entered : mslot (sideEntered n x d) n = { mslot (sideUpd n x (fun y => { y with st := 3 }) d) n with
      time := fastTime d, seq := ((mslot (sideUpd n x (fun y => { y with st := 3 }) d) n).seq + 1) % 2 ^ 32, unavail := none } :=
    mslot_mslotUpd _ _ _
  have live := congrArg Side.st (sideOf_sideUpd n x (fun y => { y with st := 3 }) d)
  have seq : (mslot (sideUpd n x (fun y => { y with st := 3 }) d) n).seq = (mslot d n).seq := by
    unfold sideUpd
    rw [mslot_mslotUpd]
    split <;> rfl
  refine ⟨?_, ?_, ?_⟩
  · unfold sideOf at live ⊢
    rw [slot, entered]
    exact live
  · rw [slot, entered, seq]
  · rw [he]
    exact mget_mdel_same _ _

/-- No ring depends on the fingerprint. -/
theorem fp_apart {k : Nat} (hk : k < 16) :
    (∀ q ∈ ringReads k, q.addr ≠ Reg.IMG_FP.addr) ∧ ∀ q ∈ ringReads k, q.addr ≠ Reg.IMG_FP_SEQ.addr := by
  have ring : ∀ k < 16, (∀ q ∈ ringReads k, q.addr ≠ Reg.IMG_FP.addr) ∧ ∀ q ∈ ringReads k, q.addr ≠ Reg.IMG_FP_SEQ.addr := by decide
  exact ring k hk

theorem touches_castleFirst (n x : Nat) (d : Dev) :
    Touches (fun a => a = Reg.IMG_FP.addr ∨ a = Reg.IMG_FP_SEQ.addr) d (castleFirst n x d) := by
  have entered : Touches (fun a => a = Reg.IMG_FP.addr ∨ a = Reg.IMG_FP_SEQ.addr) d (sideEntered n x d) :=
    ⟨fun _ _ _ => rfl, rfl, rfl, rfl⟩
  exact Touches.mk ((entered.wr _ _ (.inl (.inl rfl))).sf _ _ _ (.inl (.inr rfl)))

/-- The slots decide nothing for a ring, and neither do the handles. -/
theorem ringReady_slots {k : Nat} (h : RingReady d k) (t : Slots) : RingReady { d with slots := t } k := h

theorem ringReady_setRings {k : Nat} (h : RingReady d k) (g : Rings) : RingReady (setRings g d) k := h

theorem ringReady_castleFirst {k : Nat} (hk : k < 16) (h : RingReady d k) : RingReady (castleFirst n x d) k := by
  obtain ⟨fp, seq⟩ := fp_apart hk
  have entered : RingReady (sideEntered n x d) k := ringReady_slots h _
  exact ringReady_slots (ringReady_wr (ringReady_wr entered _ fp) _ seq) _

theorem rings_castleFirst (n x : Nat) (d : Dev) : (castleFirst n x d).rings = d.rings := rfl

section
variable {h : CmdHdr} {flags b : Nat}

theorem castleDo_opened_first (ht : castleTarget d n = some x) (hl : liveSide d n = none) (hh : (mslot d n).hold = none) :
    castleDo n (castleOpened h n flags b x d) = finish h 0 0 0 (castleFirst n x (castleOpened h n flags b x d)) :=
  castleDo_first (c := castleNew h flags b x) (mget_mput_same _ _ _) (castleTarget_ready ht hl) hh hl

theorem cplWritten_castleFirst (hr : h.ring < 16) (hready : RingReady d h.ring) (hheld : mgetD d.rings.held h.ring [] = []) :
    CplWritten ⟨h, 0, 0, 0, 0, false⟩ (castleFirst n x (castleOpened h n flags b x d))
      (finish h 0 0 0 (castleFirst n x (castleOpened h n flags b x d))) := by
  have ready : RingReady (castleOpened h n flags b x d) h.ring := ringReady_slots (ringReady_setRings hready _) _
  have switched : RingReady (castleFirst n x (castleOpened h n flags b x d)) h.ring := ringReady_castleFirst hr ready
  have held : mgetD (castleFirst n x (castleOpened h n flags b x d)).rings.held h.ring [] = [] := by
    rw [rings_castleFirst]
    exact hheld
  generalize castleFirst n x (castleOpened h n flags b x d) = e at switched held
  exact (cplWritten_complete (c := ⟨h, 0, 0, 0, 0, false⟩) hr switched held).1

/-- In a slot without a LIVE side the side enters LIVE at once, and the castle completes. -/
theorem castleFirst_ends (hr : h.ring < 16) (hready : RingReady d h.ring) (hheld : mgetD d.rings.held h.ring [] = []) {e : Dev}
    (he : e = finish h 0 0 0 (castleFirst n x (castleOpened h n flags b x d))) :
    (sideOf e n x).st = 3 ∧ (mslot e n).seq = ((mslot d n).seq + 1) % 2 ^ 32 ∧ mget e.slots.castles n = none ∧
      ∃ f : Dev, Touches (fun a => a = Reg.IMG_FP.addr ∨ a = Reg.IMG_FP_SEQ.addr) d f ∧ CplWritten ⟨h, 0, 0, 0, 0, false⟩ f e := by
  have written := cplWritten_castleFirst (n := n) (x := x) (flags := flags) (b := b) hr hready hheld
  have slots := slots_of_kept (kept_finish h 0 0 0 (castleFirst n x (castleOpened h n flags b x d)))
  rw [← he] at written slots
  obtain ⟨live, seq, gone⟩ := castleFirst_slots slots
  exact ⟨live, seq, gone, _, touches_castleFirst n x (castleOpened h n flags b x d), written⟩

end

end

/-! ### The barrier of a castle (R420, R438) -/

section
variable {d : Dev} {n : Nat} {c : Castle}

/-- The castle of the slot does not wait at a barrier of this device. -/
def NotAtBarrier (n : Nat) (d : Dev) : Prop := ∀ c, mget d.slots.castles n = some c → c.flags.testBit 1 = true ∨ c.arrived = false

theorem castleReleased_none (hq : NotAtBarrier n d) : castleReleased n d = d := by
  unfold castleReleased
  split
  · next c hc => exact if_neg (by cases hq c hc <;> simp [*])
  · rfl

theorem castleTimeout_none (hq : NotAtBarrier n d) : castleTimeout n d = d := by
  unfold castleTimeout
  split
  · next c hc => exact if_neg (by cases hq c hc <;> simp [*])
  · rfl

section
variable (hc : mget d.slots.castles n = some c) (hi : c.flags.testBit 1 = false) (ha : c.arrived = true)
include hc hi ha

theorem castleReleased_waits : castleReleased n d = castleSettled n c.barrier c d := by
  unfold castleReleased
  rw [hc]
  exact if_pos (by simp [hi, ha])

theorem castleTimeout_withdraws :
    castleTimeout n d = castleEnd n 0x45 0 0 (barrierWithdraw 8 c.barrier c.gen (.castleArrive n) (.castleWait n) d) := by
  have stop : castleStop n 0x45 d = castleEnd n 0x45 0 0 (barrierWithdraw 8 c.barrier c.gen (.castleArrive n) (.castleWait n) d) := by
    unfold castleStop
    rw [hc]
    dsimp only
    rw [hi, ha]
    rfl
  unfold castleTimeout
  rw [hc]
  exact (if_pos (by simp [hi, ha])).trans stop

end

theorem castleSettled_untrained {o : Nat} (hdo : (castleDo n (barrierWait 8 o (.castleArrive n) c.gen d).2).train = none)
    (hw : (barrierWait 8 o (.castleArrive n) c.gen d).2.train = none) : (castleSettled n o c d).train = none :=
  (ite_train _ _).trans (by rw [hdo, hw, ite_self])

end

/-! ### The end of a hold (R422, R423, R436) -/

section
variable {d : Dev} {n x t : Nat}

theorem holdExpiry_none (hh : (mslot d n).hold = none) : holdExpiry n d = d := by
  unfold holdExpiry
  rw [hh]

theorem holdExpiry_early (hh : (mslot d n).hold = some (t, x)) (ht : aonTime d < t) : holdExpiry n d = d := by
  unfold holdExpiry
  rw [hh]
  exact if_neg (by omega)

theorem holdExpiry_due (hh : (mslot d n).hold = some (t, x)) (ht : t ≤ aonTime d) : holdExpiry n d = holdEnd n d := by
  unfold holdExpiry
  rw [hh]
  exact if_pos ht

/-- The hold and the bindings to the retiring side are gone. -/
def holdDropped (n x : Nat) (d : Dev) : Dev := dropBindings n x (mslotUpd n (fun m => { m with hold := none }) d)

/-- The end of the hold is shown in ARB_HOLD_DONE. -/
def holdShown (n x : Nat) (d : Dev) : Dev :=
  wr Reg.ARB_HOLD_DONE (rd d Reg.ARB_HOLD_DONE ||| BitVec.ofNat 64 (2 ^ n)) (holdDropped n x d)

/-- The batches that a side's count takes do not depend on the hold. -/
theorem retireCheck_counted {e : Dev} (hi : IrqOnly (holdShown n x d) e) (hb : 0 < refBatches d n x) : retireCheck n x e = e := by
  refine if_neg fun hr => ?_
  have batches : refBatches e n x = refBatches d n x := by
    unfold refBatches
    rw [hi.pipes]
    rfl
  have := hr.2
  unfold refCount at this
  omega

/-- A side with batches stays RETIRING when the hold of its slot ends. -/
theorem holdEnd_holds (ht : d.train = none) (hh : (mslot d n).hold = some (t, x)) (hb : 0 < refBatches d n x) :
    holdEnd n d = raise 99 (holdShown n x d) := by
  have untrained : ∀ f : TrainRun → TrainRun, ({ holdDropped n x d with train := d.train.map f } : Dev) = holdDropped n x d := fun f => by
    rw [ht]
    exact congrArg (fun o => ({ holdDropped n x d with train := o } : Dev)) ht.symm
  unfold holdEnd
  rw [hh]
  refine Eq.trans ?_ (retireCheck_counted (IrqOnly.raise (IrqOnly.refl _) 99) hb)
  exact congrArg (fun e => retireCheck n x (raise 99 (wr Reg.ARB_HOLD_DONE (rd d Reg.ARB_HOLD_DONE ||| BitVec.ofNat 64 (2 ^ n)) e)))
    (untrained _)

theorem mget_mmap {α β : Type} (m : FMap α) (f : Nat → α → β) (k : Nat) : mget (mmap m f) k = (mget m k).map (f k) := by
  induction m with
  | nil => rfl
  | cons p m ih =>
    obtain ⟨j, v⟩ := p
    change (if k = j then some (f j v) else mget (mmap m f) k) = Option.map (f k) (if k = j then some v else mget m k)
    split
    · next hk =>
      subst hk
      rfl
    · exact ih

/-- A session bound to the side has lost its binding, and every other stands. -/
theorem mget_dropBindings {k : Nat} {y : Session} (hy : mget d.slots.sessions k = some y) :
    mget (dropBindings n x d).slots.sessions k = some (if k / 65536 = n ∧ y.side = some x then { y with side := none } else y) := by
  unfold dropBindings
  rw [mget_mmap, hy]
  simp

/-- What the end of a hold leaves: the slot without it, the sessions without the side, and the slot's bit with source 99. -/
def HoldEnded (n x : Nat) (d0 d : Dev) : Prop :=
  mslot d n = { mslot d0 n with hold := none } ∧
  (∀ k y, mget d0.slots.sessions k = some y →
    mget d.slots.sessions k = some (if k / 65536 = n ∧ y.side = some x then { y with side := none } else y)) ∧
  (rd d Reg.ARB_HOLD_DONE).getLsbD n = true ∧ icPending d 99 = true ∧ Touches (fun a => a = Reg.ARB_HOLD_DONE.addr) d0 d

theorem holdEnd_ended (hn : n < 64) (ht : d.train = none) (hh : (mslot d n).hold = some (t, x)) (hb : 0 < refBatches d n x) :
    HoldEnded n x d (holdEnd n d) ∧ (holdEnd n d).train = none := by
  refine ⟨?_, holdEnd_untrained ht n⟩
  rw [holdEnd_holds ht hh hb]
  have slots := (IrqOnly.raise (IrqOnly.refl (holdShown n x d)) 99).slots
  have dropped : Touches (fun a => a = Reg.ARB_HOLD_DONE.addr) d (holdDropped n x d) := ⟨fun _ _ _ => rfl, rfl, rfl, rfl⟩
  refine ⟨?_, fun k y hy => ?_, ?_, icPending_raise _ _ (by decide), (dropped.wr _ _ (.inl rfl)).raise 99⟩
  · unfold mslot
    rw [slots]
    exact mslot_mslotUpd n (fun m => { m with hold := none }) d
  · rw [slots]
    exact mget_dropBindings (d := mslotUpd n (fun m => { m with hold := none }) d) hy
  · rw [rd_raise _ _ _ (by unfold raised; decide)]
    unfold holdShown
    rw [rd_wr_same, BitVec.getLsbD_or, BitVec.getLsbD_ofNat, Nat.testBit_two_pow_self]
    simp [hn]

theorem slotExpire_at (hi : gf d Reg.ARB_SLOT_IDX F.ARB_SLOT_IDX_SLOT = n) : slotExpire d = holdEnd n d := by
  unfold slotExpire
  rw [hi]

end
/-- Settles O29: a CASTLE meets its checks in table order, and then switches, arrives at its barrier or starts its activation; the rows of
a barrier act on a castle that waits there; and the end of a hold drops it with the bindings to the retiring side. -/
theorem sidesAreCastled : Obligations.SidesAreCastled := by
  unfold Obligations.SidesAreCastled
  intro s hs htrain d0
  refine ⟨fun h n flags b hok hn hflags hb hready hheld => ?_, fun n hn => ?_⟩
  · intro H row ends img bar busy
    have hring := ring_lt_of_okHdr hok
    have ok : (WellFormed.okHdr h && WellFormed.lt n 256 && WellFormed.lt flags 256 && WellFormed.lt b (2 ^ 32)) = true := by
      simp only [hok, WellFormed.lt, hn, hflags, hb, decide_true, Bool.and_self]
    have castle : ∀ {P} {e : Dev}, castleCmd H n flags b d0 = e → e.train = none → P e → Completes row s P := fun he ht hP =>
      completes_trAfter rfl ok hs he ht hP
    have refused : ∀ {code} (g : Rings), castleCmd H n flags b d0 = finish H code 0 0 (setRings g d0) →
        mgetD g.held h.ring [] = [] → ends code := fun g he hg =>
      castle he ((finish_train _ _ _ _ _).trans htrain) (cplWritten_finish g _ hring hready hg)
    refine ⟨fun hbad => refused (cmdIn H d0).rings (fieldCmd_bad (h := H) (hbad.imp_right decide_eq_true)) hheld,
      fun hf hx => ⟨fun hu => ?_, fun hu => ?_⟩⟩
    · exact refused (cmdIn H d0).rings ((castleCmd_good (h := H) hf hx).trans (longCmd_used hu)) hheld
    have runs : castleCmd H n flags b d0 = castleRun H n flags b (cmdIn H d0) := castleCmd_runs (h := H) hf hx hu
    have stopped : ∀ {code}, castleRun H n flags b (cmdIn H d0) = finish H code 0 0 (opTaken H .running d0) → ends code := fun he =>
      refused (opTaken H .running d0).rings (runs.trans he) hheld
    refine ⟨fun hn => stopped (castleRun_noSlot hn), fun hn hbusy => stopped (castleRun_busy hn hbusy), fun hn hbusy =>
      ⟨fun ht => stopped (castleRun_noTarget hn hbusy ht), fun x ht => ?_⟩⟩
    intro engines none_ c open_
    refine ⟨fun he => stopped (castleRun_noEngine hn hbusy ht he), fun he hno => stopped (castleRun_noBarrier hn hbusy ht he hno),
      fun he hno => ?_⟩
    have goes : castleCmd H n flags b d0 = castleGoes n c open_ := runs.trans (castleRun_goes hn hbusy ht he hno)
    have switches : ¬ img → ¬ bar → castleCmd H n flags b d0 = castleDo n open_ := fun hi hq => goes.trans (castleGoes_switch hi hq)
    have untrained : (castleDo n open_).train = none := castleDo_untrained (d := castleOpened H n flags b x d0) htrain n
    refine ⟨fun hi ha => castle (goes.trans (if_pos hi)) ha rfl, fun hi hq hl hh => castle (switches hi hq) untrained ?_,
      fun hi hq => castle (switches hi hq) untrained rfl, fun hi hq hl => ?_⟩
    · exact castleFirst_ends (h := H) hring hready hheld (castleDo_opened_first (h := H) ht hl hh)
    · intro a w hc hdo hw
      have settled := (goes.trans (castleGoes_barrier hi hq)).trans (castleAwaits_local hl hc)
      exact castle settled (castleSettled_untrained hdo hw) rfl
  · have ok : WellFormed.lt n 64 = true := decide_eq_true hn
    have expires : ∀ {P} {e : Dev}, holdExpiry n d0 = e → e.train = none → P e → Completes (.castleHoldExpiry n) s P := fun he ht hP =>
      completes_trAfter rfl ok hs he ht hP
    have ends : ∀ {P} {e : Dev}, gf d0 Reg.ARB_SLOT_IDX F.ARB_SLOT_IDX_SLOT = n → holdEnd n d0 = e → e.train = none → P e →
        Completes .arbSlotExpire s P := fun hi he ht hP => completes_trAfter (f := slotExpire) rfl rfl hs ((slotExpire_at hi).trans he) ht hP
    refine ⟨fun hq => ⟨?_, completes_sys rfl ok hs (castleTimeout_none hq)⟩,
      fun c hc hi ha => ⟨fun hdo hw => ?_, completes_sys rfl ok hs (castleTimeout_withdraws hc hi ha)⟩,
      fun hh => ⟨expires (holdExpiry_none hh) htrain rfl, fun hi => ends hi (holdEnd_none hh) htrain rfl⟩,
      fun t x hh => ⟨fun ht => expires (holdExpiry_early hh ht) htrain rfl, fun hb => ?_⟩⟩
    · exact completes_trAfter rfl ok hs (castleReleased_none hq) htrain rfl
    · exact completes_trAfter rfl ok hs (castleReleased_waits hc hi ha) (castleSettled_untrained hdo hw) rfl
    · obtain ⟨ended, untrained⟩ := holdEnd_ended hn htrain hh hb
      exact ⟨fun ht => expires (holdExpiry_due hh ht) untrained ended, fun hi => ends hi rfl untrained ended⟩

end Sys2Proof.Machine
end

/-! ## The tier manager: operations arrive and start -/

section
/-! SUPPORT and settlement of O31: how an operation reaches the queue of the TM, the equation of each operation that starts, and what an
answer at the port leaves. -/

namespace Sys2Proof.Machine

/-! ### The queue (R453, R472) -/

/-- An operation as it arrives. -/
abbrev tmNew (s : TmSrc) (t : TmDesc) : TmOp := { src := s, desc := t }

/-- The operation is the only one at the TM. -/
def tmQueued (op : TmOp) (d : Dev) : Dev := setTm { d.tm with ops := [op] } d

/-- A promotion to T0 waits for RUN (R712). -/
def WaitsForRun (t : TmDesc) (d : Dev) : Prop := t.op = 3 ∧ t.flagsTier = 2 ∧ gf d Reg.PMU_STAT F.PMU_STAT_STATE ≠ 0

section
variable {s : TmSrc} {t : TmDesc} {d : Dev}

theorem tmNext_running (h : ∀ p ∈ d.tm.ops, p.run = true) : tmNext d = none := by
  unfold tmNext
  rw [Option.map_eq_none_iff, List.find?_eq_none]
  intro p hp
  have runs : p.1.run = true := h p.1 (List.fst_mem_of_mem_zipIdx hp)
  simp [runs]

theorem tmNext_queued (hw : ¬ WaitsForRun t d) : tmNext (tmQueued (tmNew s t) d) = some (tmNew s t) := by
  have ready : (t.op != 3 || t.flagsTier != 2 || gf (tmQueued (tmNew s t) d) Reg.PMU_STAT F.PMU_STAT_STATE == 0) = true := by
    by_contra hc
    simp only [Bool.or_eq_true, bne_iff_ne, beq_iff_eq, not_or, ne_eq, not_not] at hc
    exact hw ⟨hc.1.1, hc.1.2, hc.2⟩
  have alone : (tmQueued (tmNew s t) d).tm.ops = [tmNew s t] := rfl
  have room : tmRunning (tmQueued (tmNew s t) d) = 0 := rfl
  unfold tmNext
  simp only [room, alone, List.zipIdx_cons, List.zipIdx_nil, List.find?_cons, ready]
  rfl

/-- With every operation running, none starts. -/
theorem tmGo_running (h : ∀ p ∈ d.tm.ops, p.run = true) : tmGo d = d := by
  unfold tmGo
  cases d.tm.ops.length with
  | zero => rfl
  | succ k =>
    unfold tmPump
    rw [tmNext_running h]
    exact ite_self d

theorem tmGo_disabled (he : gb d Reg.TM_CTL F.TM_CTL_EN = false) : tmGo d = d := by
  unfold tmGo
  cases d.tm.ops.length with
  | zero => rfl
  | succ k =>
    unfold tmPump
    rw [he]
    rfl

theorem tmGo_queued (he : gb d Reg.TM_CTL F.TM_CTL_EN = true) (ha : agentAsked d 33 = false) (hw : ¬ WaitsForRun t d) :
    tmGo (tmQueued (tmNew s t) d) = tmStart (tmNew s t) (tmQueued (tmNew s t) d) := by
  have admitted : (gb (tmQueued (tmNew s t) d) Reg.TM_CTL F.TM_CTL_EN && !agentAsked (tmQueued (tmNew s t) d) 33) = true := by
    show (gb d Reg.TM_CTL F.TM_CTL_EN && !agentAsked d 33) = true
    rw [he, ha]
    rfl
  show tmPump 1 _ = _
  unfold tmPump
  rw [if_pos admitted, tmNext_queued hw]
  rfl

/-! ### Arrival (R451, R461) -/

theorem tmSubmit_badField (hq : d.tm.ops = []) (hf : tmFieldBad t = true) :
    tmSubmit s t d = tmDone (tmNew s t) 0x60 (tmQueued (tmNew s t) d) := by
  unfold tmSubmit
  rw [hq]
  exact if_pos hf

theorem tmSubmit_badRange (hq : d.tm.ops = []) (hf : tmFieldBad t = false) (hr : tmRangeBad t = true) :
    tmSubmit s t d = tmDone (tmNew s t) 0x61 (tmQueued (tmNew s t) d) := by
  unfold tmSubmit
  rw [hq]
  exact (if_neg (by simp [hf])).trans (if_pos hr)

/-- A CAPTURE of a pinned object is deferred as it arrives. -/
theorem tmSubmit_pinned {o : TmObj} (hq : d.tm.ops = []) (hf : tmFieldBad t = false) (hr : tmRangeBad t = false) (hc : t.op = 4)
    (ho : tmObj d t.obj = some o) (hp : 0 < o.pin) : tmSubmit s t d = tmDone (tmNew s t) 0x6B (tmQueued (tmNew s t) d) := by
  have listed : mhas d.tm.objs t.obj = true := Option.isSome_of_eq_some ho
  have pinned : (t.op = 4 && ((match tmObj d t.obj with | some o => decide (o.pin > 0) | none => false) || false) &&
      mhas d.tm.objs t.obj) = true := by
    rw [ho, listed]
    simp [hc, hp]
  unfold tmSubmit
  rw [hq]
  exact (if_neg (by simp [hf])).trans ((if_neg (by simp [hr])).trans (if_pos pinned))

theorem tmSubmit_queued (hq : d.tm.ops = []) (hf : tmFieldBad t = false) (hr : tmRangeBad t = false)
    (hp : t.op = 4 → ∀ o, tmObj d t.obj = some o → o.pin = 0) : tmSubmit s t d = tmGo (tmQueued (tmNew s t) d) := by
  have free : ¬ (t.op = 4 && ((match tmObj d t.obj with | some o => decide (o.pin > 0) | none => false) || false) &&
      mhas d.tm.objs t.obj) = true := by
    by_cases hc : t.op = 4
    · cases ho : tmObj d t.obj with
      | none => simp
      | some o => simp [hp hc o ho]
    · simp [hc]
  unfold tmSubmit
  rw [hq]
  exact (if_neg (by simp [hf])).trans ((if_neg (by simp [hr])).trans (if_neg free))

end

/-! ### Operations as they start (R452, R455, R456, R461) -/

section
variable {op : TmOp} {d : Dev} {n : Nat} {o : TmObj}

/-- The object number that a PLACE takes: that of its descriptor, or the lowest that is FREE. -/
def placeNumber (t : TmDesc) (d : Dev) : Option Nat :=
  if t.obj = 0xFFFF then findBelow 16384 (fun n => !(mhas d.tm.objs n)) else some t.obj

/-- The operation with the object number that a PLACE takes. -/
abbrev TmOp.numbered (op : TmOp) (n : Nat) : TmOp := { op with desc := { op.desc with obj := n } }

/-- The entry that a PLACE writes (R455). -/
def placed (t : TmDesc) : TmObj := { kind := t.kindMode, flags := t.flagsTier, size := t.sizeCount, back := t.backFirst, tag := t.tag }

theorem tmStart_place_full (hop : op.desc.op = 1) (hn : placeNumber op.desc d = none) : tmStart op d = tmDone op 0x64 d := by
  unfold placeNumber at hn
  unfold tmStart
  dsimp only
  rw [if_pos hop, hn]

theorem tmStart_place (hop : op.desc.op = 1) (hn : placeNumber op.desc d = some n) :
    tmStart op d =
      if mhas d.tm.objs n then tmDone (op.numbered n) 0x63 (setOp op (op.numbered n) d)
      else if op.desc.kindMode = 2 && !(tmArb op.src) then tmDone (op.numbered n) 0x65 (setOp op (op.numbered n) d)
      else if backBad d op.src op.desc.backFirst op.desc.sizeCount then tmDone (op.numbered n) 0x66 (setOp op (op.numbered n) d)
      else if isT1 op.desc.backFirst && (List.range op.desc.sizeCount).any (fun i =>
          frameUsed d 1 0 ((op.desc.backFirst - 0x1000000) / 16384 + i)) then tmDone (op.numbered n) 0x69 (setOp op (op.numbered n) d)
      else tmDone (op.numbered n) 0 (tmPut n (placed op.desc) (setOp op (op.numbered n) d)) := by
  unfold placeNumber at hn
  unfold tmStart
  dsimp only
  rw [if_pos hop, hn]
  rfl

theorem tmStart_absent (hop : op.desc.op ≠ 1) (ho : tmObj d op.desc.obj = none) : tmStart op d = tmDone op 0x62 d := by
  unfold tmStart
  dsimp only
  rw [if_neg hop, ho]

theorem tmStart_free (hop : op.desc.op = 2) (ho : tmObj d op.desc.obj = some o) :
    tmStart op d =
      if o.kind = 2 && !(tmArb op.src) then tmDone op 0x65 d
      else if o.pin > 0 then tmDone op 0x6B d
      else setOp op { op with run := true, quiesce := true } (tmPut op.desc.obj { o with frontier := 0 } d) := by
  unfold tmStart
  simp only [hop, ho, OfNat.ofNat_ne_one, if_false]

/-- The placement that a promotion reserves in frames `f` on. -/
def reserved (op : TmOp) (f : Nat) (o : TmObj) : TmObj :=
  { o with upTier := op.desc.flagsTier, upEng := if op.desc.flagsTier = 2 then op.desc.engine else 0, upMode := op.desc.kindMode,
           upFrame := f, upCount := op.desc.sizeCount, upFirst := op.desc.backFirst, frontier := 0, ctr := op.desc.counter,
           stuck := false, flags := if op.src = .hot then o.flags ||| 4 else o.flags }

/-- What a promotion that meets no refusal does: it goes on with the placement that it names, or reserves one. -/
def promotePlace (op : TmOp) (o : TmObj) (d : Dev) : Dev :=
  if o.upTier ≠ 0 && samePlace o op.desc then
    if o.frontier + o.upFirst ≥ promoteEnd o op.desc then tmDone op 0 d
    else setOp op { op with run := true, upTo := promoteEnd o op.desc } d
  else
    match pickRun d op.desc.flagsTier op.desc.engine op.desc.frame op.desc.sizeCount with
    | none => tmDone op 0x69 d
    | some f =>
      if op.desc.kindMode != 0 && decide (64 ≤ (d.tm.objs.filter (fun p => p.2.upTier != 0 && p.2.upMode != 0)).length) then
        tmDone op 0x69 d
      else if o.upTier ≠ 0 then tmDone op 0x6A d
      else setOp op { op with run := true, upTo := promoteEnd o op.desc } (tmPut op.desc.obj (reserved op f o) d)

theorem tmStart_promote (hop : op.desc.op = 3) (ho : tmObj d op.desc.obj = some o) :
    tmStart op d =
      if op.desc.backFirst ≥ o.size ∨ (op.desc.kindMode = 1 ∧ counterValue d op.desc.counter = none) then tmDone op 0x60 d
      else if op.desc.flagsTier = 1 && isT1 o.back then tmDone op 0x67 d
      else if op.desc.flagsTier = 2 && (gf d (Reg.ENG_STAT op.desc.engine) F.ENG_STAT_STATE == 6 ||
          gb d (Reg.ENG_RELOC op.desc.engine) F.ENG_RELOC_RELOCATED || !(domOn d (16 + op.desc.engine))) then tmDone op 0x68 d
      else promotePlace op o d := by
  unfold tmStart
  simp only [hop, ho, OfNat.ofNat_ne_one, if_false]
  rfl

theorem promotePlace_placed (hu : o.upTier ≠ 0) (hs : samePlace o op.desc = true) :
    promotePlace op o d =
      if o.frontier + o.upFirst ≥ promoteEnd o op.desc then tmDone op 0 d
      else setOp op { op with run := true, upTo := promoteEnd o op.desc } d := by
  unfold promotePlace
  exact if_pos (by simp [hu, hs])

section
variable (hs : o.upTier = 0 ∨ samePlace o op.desc = false)
include hs

theorem promotePlace_noRoom (hf : pickRun d op.desc.flagsTier op.desc.engine op.desc.frame op.desc.sizeCount = none) :
    promotePlace op o d = tmDone op 0x69 d := by
  unfold promotePlace
  rw [if_neg (by rcases hs with h | h <;> simp [h]), hf]

/-- A placement that lasts is not among the 64 that may move. -/
theorem promotePlace_room {f : Nat} (hf : pickRun d op.desc.flagsTier op.desc.engine op.desc.frame op.desc.sizeCount = some f)
    (hk : op.desc.kindMode = 0) :
    promotePlace op o d =
      if o.upTier ≠ 0 then tmDone op 0x6A d
      else setOp op { op with run := true, upTo := promoteEnd o op.desc } (tmPut op.desc.obj (reserved op f o) d) := by
  unfold promotePlace
  rw [if_neg (by rcases hs with h | h <;> simp [h]), hf]
  exact if_neg (by simp [hk])

end

theorem tmStart_capture (hop : op.desc.op = 4) (ho : tmObj d op.desc.obj = some o) :
    tmStart op d =
      if o.pin > 0 then tmDone op 0x6B d
      else if o.upTier = 0 then tmDone op 0 d
      else setOp op { op with run := true, quiesce := o.frontier == 0 } d := by
  unfold tmStart
  simp only [hop, ho, OfNat.ofNat_ne_one, if_false]

theorem tmStart_pin (hop : op.desc.op = 5) (ho : tmObj d op.desc.obj = some o) :
    tmStart op d = if o.pin = 255 then tmDone op 0x6D d else tmDone op 0 (tmPut op.desc.obj { o with pin := o.pin + 1 } d) := by
  unfold tmStart
  simp only [hop, ho, OfNat.ofNat_ne_one, if_false]

theorem tmStart_unpin (hop : op.desc.op = 6) (ho : tmObj d op.desc.obj = some o) :
    tmStart op d = if o.pin = 0 then tmDone op 0x6E d else tmDone op 0 (tmPut op.desc.obj { o with pin := o.pin - 1 } d) := by
  unfold tmStart
  simp only [hop, ho, OfNat.ofNat_ne_one, if_false]

theorem tmStart_flush (hop : op.desc.op = 7) (ho : tmObj d op.desc.obj = some o) :
    tmStart op d =
      if (List.range o.frontier).any (fun i => isDirty d o (o.upFirst + i)) then setOp op { op with run := true } d
      else tmDone op 0 d := by
  unfold tmStart
  simp only [hop, ho, OfNat.ofNat_ne_one, if_false]

end

/-! ### What an operation meets (R447, R456) -/

section
variable {d e : Dev}

/-- An operation that arrives in `e` meets what it would meet in `d`: the entries, the images and memory are the same, and so are the
registers but for TM_CMD_STAT. -/
structure TmMeets (d e : Dev) : Prop where
  mem : e.mem = d.mem
  img : e.img = d.img
  objs : e.tm.objs = d.tm.objs
  dirty : e.tm.dirty = d.tm.dirty
  guest : e.tm.guestTiles = d.tm.guestTiles
  regs : ∀ r : Reg, r.addr ≠ Reg.TM_CMD_STAT.addr → rd e r = rd d r

theorem TmMeets.gf (h : TmMeets d e) (r : Reg) (f : Fld) (hr : r.addr ≠ Reg.TM_CMD_STAT.addr) : gf e r f = gf d r f := by
  unfold Machine.gf
  rw [h.regs r hr]

theorem TmMeets.gb (h : TmMeets d e) (r : Reg) (f : Fld) (hr : r.addr ≠ Reg.TM_CMD_STAT.addr) : gb e r f = gb d r f := by
  unfold Machine.gb
  rw [h.gf r f hr]

theorem TmMeets.obj (h : TmMeets d e) (n : Nat) : tmObj e n = tmObj d n := congrArg (mget · n) h.objs

theorem TmMeets.number (h : TmMeets d e) (t : TmDesc) : placeNumber t e = placeNumber t d := by
  unfold placeNumber
  rw [h.objs]

theorem TmMeets.backBad (h : TmMeets d e) (s : TmSrc) (back size : Nat) : backBad e s back size = backBad d s back size := by
  unfold Machine.backBad dramTop
  rw [h.gf Reg.LE_DRAM_BASE _ (by decide), h.regs Reg.LE_DRAM_SIZE (by decide), h.gf Reg.SYS_DRAM_TOP _ (by decide)]

theorem TmMeets.frameUsed (h : TmMeets d e) (tier eng f : Nat) : frameUsed e tier eng f = frameUsed d tier eng f := by
  unfold Machine.frameUsed
  rw [h.objs]

theorem TmMeets.isDirty (h : TmMeets d e) (o : TmObj) (t : Nat) : isDirty e o t = isDirty d o t := by
  unfold Machine.isDirty
  rw [h.dirty]

theorem TmMeets.domOn (h : TmMeets d e) (i : Nat) : domOn e i = domOn d i := by
  unfold Machine.domOn
  rw [h.regs Reg.PMU_DOM_STAT (by decide)]

theorem TmMeets.counterValue (h : TmMeets d e) (c : Nat) : counterValue e c = counterValue d c := by
  unfold Machine.counterValue objLocal rawBytes
  rw [h.mem, h.gf Reg.SYS_NODE _ (by decide)]

theorem TmMeets.constTiles (h : TmMeets d e) (k : Nat) : constTiles e k = constTiles d k := by
  unfold Machine.constTiles activeCfg slotCfg
  rw [h.img, h.gf Reg.IMG_SLOT_STAT _ (by decide)]

theorem TmMeets.frameLimit (h : TmMeets d e) (tier eng : Nat) : frameLimit e tier eng = frameLimit d tier eng := by
  unfold Machine.frameLimit activeSlot slotState
  rw [h.constTiles, h.domOn, h.gf Reg.IMG_SLOT_STAT _ (by decide), h.gf Reg.IMG_SLOT_STAT _ (by decide)]

theorem TmMeets.pickRun (h : TmMeets d e) (tier eng frame n : Nat) : pickRun e tier eng frame n = pickRun d tier eng frame n := by
  have used : Machine.frameUsed e = Machine.frameUsed d := funext fun _ => funext fun _ => funext fun _ => h.frameUsed _ _ _
  have free : ∀ f, runFree e tier eng f n = runFree d tier eng f n := fun f => by
    unfold runFree runAheadArea
    rw [h.frameLimit, h.constTiles, h.guest, used]
  unfold Machine.pickRun
  simp only [h.frameLimit, free]

end

/-! ### Operations end (R471) -/

section
variable {d e : Dev} {op : TmOp} {code m : Nat} {w : Nat → Prop}

/-- The port shows an object and its code, done. -/
def portShown (n code : Nat) (d : Dev) : Dev :=
  raise 92 (sf Reg.TM_CMD_STAT F.TM_CMD_STAT_CODE code (sf Reg.TM_CMD_STAT F.TM_CMD_STAT_OBJ n
    (sf Reg.TM_CMD_STAT F.TM_CMD_STAT_DONE 1 (sf Reg.TM_CMD_STAT F.TM_CMD_STAT_BUSY 0 d))))

/-- The operation is counted where it was cancelled or deferred, and is no longer at the TM. -/
def tmGone (op : TmOp) (code : Nat) (d : Dev) : Dev := tmConflict code (setTm { d.tm with ops := d.tm.ops.erase op } d)

theorem tmDone_port (hs : op.src = .port m) : tmDone op code d = portShown op.desc.obj code (tmGone op code d) := by
  unfold tmDone
  rw [hs]
  rfl

theorem cmdStat_not_raised : ¬ raised Reg.TM_CMD_STAT.addr := by unfold raised; decide

theorem conflictCnt_not_raised : ¬ raised Reg.TM_CONFLICT_CNT.addr := by unfold raised; decide

theorem Touches.tmConflict (h : Touches w d e) (hw : code = 0x6C ∨ code = 0x6B → w Reg.TM_CONFLICT_CNT.addr) :
    Touches w d (tmConflict code e) := by
  unfold Machine.tmConflict
  split
  · exact h.cntAdd _ _ _ _ _ (.inl (hw (.inl ‹_›)))
  · split
    · exact h.cntAdd _ _ _ _ _ (.inl (hw (.inr ‹_›)))
    · exact h

theorem IrqOnly.tmConflict (h : IrqOnly d e) (code : Nat) : IrqOnly d (tmConflict code e) := by
  unfold Machine.tmConflict
  exact IrqOnly.ite (h.cntAdd _ _ _ _ _) (IrqOnly.ite (h.cntAdd _ _ _ _ _) h)

theorem Touches.portShown (h : Touches w d e) (hw : w Reg.TM_CMD_STAT.addr) (n code : Nat) : Touches w d (portShown n code e) :=
  ((((h.sf _ _ _ (.inl hw)).sf _ _ _ (.inl hw)).sf _ _ _ (.inl hw)).sf _ _ _ (.inl hw)).raise _

theorem Touches.tmDone_port (h : Touches w d e) (hs : op.src = .port m) (hw : w Reg.TM_CMD_STAT.addr)
    (hc : code = 0x6C ∨ code = 0x6B → w Reg.TM_CONFLICT_CNT.addr) : Touches w d (tmDone op code e) := by
  rw [Machine.tmDone_port hs]
  exact Touches.portShown (Touches.tmConflict (Touches.mk h) hc) hw _ _

theorem tm_tmDone_port (hs : op.src = .port m) : (tmDone op code e).tm = { e.tm with ops := e.tm.ops.erase op } := by
  rw [tmDone_port hs]
  exact (((((IrqOnly.refl _).sf _ _ _).sf _ _ _).sf _ _ _).sf _ _ _ |>.raise _).tm.trans ((IrqOnly.refl _).tmConflict _).tm

/-- What the port shows once its operation has ended. -/
def PortShows (code n : Nat) (e : Dev) : Prop :=
  gb e Reg.TM_CMD_STAT F.TM_CMD_STAT_BUSY = false ∧ gb e Reg.TM_CMD_STAT F.TM_CMD_STAT_DONE = true ∧
  gf e Reg.TM_CMD_STAT F.TM_CMD_STAT_OBJ = n % 16384 ∧ gf e Reg.TM_CMD_STAT F.TM_CMD_STAT_CODE = code ∧ icPending e 92 = true

theorem portShows_portShown (n : Nat) (hc : code < 256) : PortShows code n (portShown n code d) := by
  unfold PortShows portShown gb
  simp (disch := decide) only [gf_raise _ _ _ _ cmdStat_not_raised, gf_sf_same, gf_sf_disj]
  exact ⟨rfl, rfl, rfl, Nat.mod_eq_of_lt hc, icPending_raise _ _ (by decide)⟩

theorem portShows_tmDone (hs : op.src = .port m) (hc : code < 256) : PortShows code op.desc.obj (tmDone op code d) := by
  rw [tmDone_port hs]
  exact portShows_portShown _ hc

end

/-! ### Operations of the port -/

section
variable {d e : Dev} {op : TmOp} {objs : FMap TmObj}

/-- The register that shows the port's operation. -/
def cmdStat (a : Nat) : Prop := a = Reg.TM_CMD_STAT.addr

/-- The port's operation is the only one at the TM, and the entries are `objs`. -/
def PortHolds (op : TmOp) (objs : FMap TmObj) (d e : Dev) : Prop :=
  gb e Reg.TM_CMD_STAT F.TM_CMD_STAT_BUSY = true ∧ e.tm = { d.tm with objs := objs, ops := [op] } ∧
  Touches cmdStat d e

theorem PortHolds.tmPut (h : PortHolds op objs d e) (n : Nat) (o : TmObj) : PortHolds op (mput objs n o) d (tmPut n o e) := by
  obtain ⟨busy, tm, touches⟩ := h
  refine ⟨busy, ?_, Touches.mk touches⟩
  show { e.tm with objs := mput e.tm.objs n o } = _
  rw [tm]

theorem PortHolds.setOp (h : PortHolds op objs d e) (new : TmOp) : PortHolds new objs d (setOp op new e) := by
  obtain ⟨busy, tm, touches⟩ := h
  refine ⟨busy, ?_, Touches.mk touches⟩
  show { e.tm with ops := e.tm.ops.map (fun o => if o = op then new else o) } = _
  rw [tm, List.map_cons, if_pos rfl]
  rfl

/-- The port has answered with a code and an object, and the entries are `objs`. -/
def PortAnswers (code n : Nat) (objs : FMap TmObj) (d e : Dev) : Prop :=
  gb e Reg.TM_CMD_STAT F.TM_CMD_STAT_BUSY = false ∧ gb e Reg.TM_CMD_STAT F.TM_CMD_STAT_DONE = true ∧
  gf e Reg.TM_CMD_STAT F.TM_CMD_STAT_OBJ = n % 16384 ∧ gf e Reg.TM_CMD_STAT F.TM_CMD_STAT_CODE = code ∧ icPending e 92 = true ∧
  e.tm = { d.tm with objs := objs } ∧
  Touches (fun a => a = Reg.TM_CMD_STAT.addr ∨ (a = Reg.TM_CONFLICT_CNT.addr ∧ code = 0x6B)) d e

theorem PortHolds.answers {code m : Nat} (h : PortHolds op objs d e) (hq : d.tm.ops = []) (hs : op.src = .port m) (hc : code < 256)
    (hn : code ≠ 0x6C) : PortAnswers code op.desc.obj objs d (tmDone op code e) := by
  obtain ⟨-, tm, touches⟩ := h
  obtain ⟨busy, done, obj, shown, pending⟩ := portShows_tmDone (d := e) hs hc
  refine ⟨busy, done, obj, shown, pending, ?_, ?_⟩
  · rw [tm_tmDone_port hs, tm, ← hq]
    simp
  · exact (touches.mono fun _ => .inl).tmDone_port hs (.inl rfl) fun hx => .inr ⟨rfl, hx.resolve_left hn⟩

/-- The port shows the object and BUSY. -/
def portAsked (n : Nat) (d : Dev) : Dev := sf Reg.TM_CMD_STAT F.TM_CMD_STAT_OBJ n (sf Reg.TM_CMD_STAT F.TM_CMD_STAT_BUSY 1 d)

theorem tmPortGo_free {m : Nat} {t : TmDesc} (hb : gb d Reg.TM_CMD_STAT F.TM_CMD_STAT_BUSY = false) :
    tmPortGo m t d = tmSubmit (.port m) t (portAsked t.obj d) := if_neg (by simp [hb])

theorem portAsked_busy (n : Nat) : gb (portAsked n d) Reg.TM_CMD_STAT F.TM_CMD_STAT_BUSY = true := by
  unfold portAsked gb
  simp (disch := decide) only [gf_sf_same, gf_sf_disj]
  rfl

theorem rd_portAsked {r : Reg} (n : Nat) (hr : r.addr ≠ Reg.TM_CMD_STAT.addr) : rd (portAsked n d) r = rd d r :=
  (rd_sf_ne _ _ _ hr).trans (rd_sf_ne _ _ _ hr)

theorem Touches.portAsked {w : Nat → Prop} (h : Touches w d e) (hw : w Reg.TM_CMD_STAT.addr) (n : Nat) : Touches w d (portAsked n e) :=
  (h.sf _ _ _ (.inl hw)).sf _ _ _ (.inl hw)

theorem portHolds_queued (n : Nat) : PortHolds op d.tm.objs d (tmQueued op (portAsked n d)) :=
  ⟨portAsked_busy n, rfl, Touches.mk ((Touches.refl d).portAsked (w := cmdStat) rfl n)⟩

theorem tmMeets_queued (n : Nat) : TmMeets d (tmQueued op (portAsked n d)) := ⟨rfl, rfl, rfl, rfl, rfl, fun _ hr => rd_portAsked n hr⟩

end

/-! ### What an operation of the port answers, or starts -/

/-- The descriptor passes the checks of R451. -/
def TmGood (t : TmDesc) : Prop := tmFieldBad t = false ∧ tmRangeBad t = false

/-- The TM is enabled, has no operation, and its port and agent are idle. -/
structure PortReady (d : Dev) : Prop where
  alone : d.tm.ops = []
  idle : gb d Reg.TM_CMD_STAT F.TM_CMD_STAT_BUSY = false
  unasked : agentAsked d 33 = false
  enabled : gb d Reg.TM_CTL F.TM_CTL_EN = true

/-- A PROMOTE begins past the object's end, or waits on no counter (R456, R466). -/
def promoteBad (o : TmObj) (t : TmDesc) (d : Dev) : Prop := o.size ≤ t.backFirst ∨ (t.kindMode = 1 ∧ counterValue d t.counter = none)

/-- The engine of a PROMOTE to T0 has failed, is relocated, or its domain is off (R456). -/
def t0Lost (t : TmDesc) (d : Dev) : Prop :=
  t.flagsTier = 2 ∧ (gf d (Reg.ENG_STAT t.engine) F.ENG_STAT_STATE = 6 ∨ gb d (Reg.ENG_RELOC t.engine) F.ENG_RELOC_RELOCATED = true ∨
    domOn d (16 + t.engine) = false)

/-- A frame of T1 that a PLACE names as its backing is in use (R455). -/
def backTaken (t : TmDesc) (d : Dev) : Prop :=
  isT1 t.backFirst = true ∧ ∃ i, i < t.sizeCount ∧ frameUsed d 1 0 ((t.backFirst - 0x1000000) / 16384 + i) = true

theorem t0Lost_iff {t : TmDesc} {d e : Dev} (h : TmMeets d e) :
    (decide (t.flagsTier = 2) && (gf e (Reg.ENG_STAT t.engine) F.ENG_STAT_STATE == 6 ||
      gb e (Reg.ENG_RELOC t.engine) F.ENG_RELOC_RELOCATED || !(domOn e (16 + t.engine)))) = true ↔ t0Lost t d := by
  have stat : (Reg.ENG_STAT t.engine).addr ≠ Reg.TM_CMD_STAT.addr := by
    simp only [Reg.ENG_STAT, Reg.TM_CMD_STAT]
    omega
  have reloc : (Reg.ENG_RELOC t.engine).addr ≠ Reg.TM_CMD_STAT.addr := by
    simp only [Reg.ENG_RELOC, Reg.TM_CMD_STAT]
    omega
  rw [h.gf _ _ stat, h.gb _ _ reloc, h.domOn]
  simp [t0Lost, or_assoc]

section
variable {d : Dev} {t : TmDesc} {m k : Nat} {o : TmObj}

/-- The port's operation of kind `k`, and the device that holds it. -/
abbrev portOp (m k : Nat) (t : TmDesc) : TmOp := tmNew (.port m) { t with op := k }

def portDev (m k : Nat) (t : TmDesc) (d : Dev) : Dev := tmQueued (portOp m k t) (portAsked t.obj d)

theorem portDev_holds : PortHolds (portOp m k t) d.tm.objs d (portDev m k t d) := portHolds_queued t.obj

theorem portDev_meets : TmMeets d (portDev m k t d) := tmMeets_queued t.obj

section
variable {x e : Dev} {p : TmOp} {objs : FMap TmObj} {code n : Nat}

theorem PortHolds.portAnswers (h : PortHolds (p.numbered n) objs d e) (hq : d.tm.ops = []) (hs : p.src = .port m)
    (row : x = tmDone (p.numbered n) code e) (hc : code < 256 ∧ code ≠ 0x6C) : PortAnswers code n objs d x :=
  row ▸ h.answers hq hs hc.1 hc.2

theorem PortHolds.becomes {new : TmOp} (h : PortHolds p objs d e) (row : x = Machine.setOp p new e) : PortHolds new objs d x :=
  row ▸ PortHolds.setOp h new

/-- A refusal leaves the entries as they are. -/
theorem portRow_fails (hq : d.tm.ops = []) (row : x = tmDone (portOp m k t) code (portDev m k t d)) (hc : code < 256 ∧ code ≠ 0x6C) :
    PortAnswers code t.obj d.tm.objs d x := PortHolds.portAnswers (p := portOp m k t) portDev_holds hq rfl row hc

end

theorem portAsked_alone {n : Nat} (hq : d.tm.ops = []) : (portAsked n d).tm.ops = [] := hq

theorem portRow_submits (hb : gb d Reg.TM_CMD_STAT F.TM_CMD_STAT_BUSY = false) :
    tmOpRow (.port m) k t d = tmSubmit (.port m) { t with op := k } (portAsked t.obj d) := by
  show tmPortGo m { t with op := k } d = _
  exact tmPortGo_free hb

theorem portRow_badField (hq : d.tm.ops = []) (hb : gb d Reg.TM_CMD_STAT F.TM_CMD_STAT_BUSY = false)
    (hf : tmFieldBad { t with op := k } = true) : PortAnswers 0x60 t.obj d.tm.objs d (tmOpRow (.port m) k t d) :=
  portRow_fails hq ((portRow_submits hb).trans (tmSubmit_badField (portAsked_alone hq) hf)) (by decide)

theorem portRow_badRange (hq : d.tm.ops = []) (hb : gb d Reg.TM_CMD_STAT F.TM_CMD_STAT_BUSY = false)
    (hf : tmFieldBad { t with op := k } = false) (hr : tmRangeBad { t with op := k } = true) :
    PortAnswers 0x61 t.obj d.tm.objs d (tmOpRow (.port m) k t d) :=
  portRow_fails hq ((portRow_submits hb).trans (tmSubmit_badRange (portAsked_alone hq) hf hr)) (by decide)

theorem portRow_waits (hq : d.tm.ops = []) (hb : gb d Reg.TM_CMD_STAT F.TM_CMD_STAT_BUSY = false)
    (he : gb d Reg.TM_CTL F.TM_CTL_EN = false) (hg : TmGood { t with op := k }) (hp : ∀ o, tmObj d t.obj = some o → o.pin = 0) :
    PortHolds (portOp m k t) d.tm.objs d (tmOpRow (.port m) k t d) := by
  have off : gb (portDev m k t d) Reg.TM_CTL F.TM_CTL_EN = false := (portDev_meets.gb _ _ (by decide)).trans he
  have row : tmOpRow (.port m) k t d = portDev m k t d :=
    (portRow_submits hb).trans ((tmSubmit_queued (portAsked_alone hq) hg.1 hg.2 fun _ => hp).trans (tmGo_disabled off))
  exact row ▸ portDev_holds

variable (ready : PortReady d) (hg : TmGood { t with op := k })
include ready hg

theorem portRow_starts (hw : ¬ WaitsForRun { t with op := k } d) (hp : k = 4 → ∀ o, tmObj d t.obj = some o → o.pin = 0) :
    tmOpRow (.port m) k t d = tmStart (portOp m k t) (portDev m k t d) := by
  have unasked : agentAsked (portAsked t.obj d) 33 = false := by
    rw [← ready.unasked]
    unfold agentAsked gb gf
    rw [rd_portAsked _ (by decide)]
    rfl
  have enabled : gb (portAsked t.obj d) Reg.TM_CTL F.TM_CTL_EN = true := by
    rw [← ready.enabled]
    unfold gb gf
    rw [rd_portAsked _ (by decide)]
  have run : ¬ WaitsForRun { t with op := k } (portAsked t.obj d) := by
    unfold WaitsForRun gf
    rw [rd_portAsked _ (by decide)]
    exact hw
  exact (portRow_submits ready.idle).trans ((tmSubmit_queued (portAsked_alone ready.alone) hg.1 hg.2 hp).trans (tmGo_queued enabled unasked run))

theorem portRow_absent (hk : k ≠ 1) (hw : ¬ WaitsForRun { t with op := k } d) (ho : tmObj d t.obj = none) :
    PortAnswers 0x62 t.obj d.tm.objs d (tmOpRow (.port m) k t d) :=
  portRow_fails ready.alone ((portRow_starts ready hg hw fun _ o h => nomatch ho.symm.trans h).trans (tmStart_absent hk ho)) (by decide)

omit hg
variable (ho : tmObj d t.obj = some o)
include ho

theorem portRow_free (hg : TmGood { t with op := 2 }) :
    (o.kind = 2 ∧ m ≠ 8 → PortAnswers 0x65 t.obj d.tm.objs d (tmOpRow (.port m) 2 t d)) ∧
    (¬ (o.kind = 2 ∧ m ≠ 8) → 0 < o.pin → PortAnswers 0x6B t.obj d.tm.objs d (tmOpRow (.port m) 2 t d)) ∧
    (¬ (o.kind = 2 ∧ m ≠ 8) → ¬ 0 < o.pin → PortHolds { portOp m 2 t with run := true, quiesce := true }
      (mput d.tm.objs t.obj { o with frontier := 0 }) d (tmOpRow (.port m) 2 t d)) := by
  have row := (portRow_starts (m := m) ready hg (by simp [WaitsForRun]) (by simp)).trans (tmStart_free rfl ho)
  have adapter : (decide (o.kind = 2) && !(tmArb (.port m))) = true ↔ o.kind = 2 ∧ m ≠ 8 := by simp [tmArb]
  refine ⟨fun h => portRow_fails ready.alone (row.trans (if_pos (adapter.mpr h))) (by decide), fun h hp => ?_, fun h hp => ?_⟩
  · exact portRow_fails ready.alone (row.trans ((if_neg fun hx => h (adapter.mp hx)).trans (if_pos hp))) (by decide)
  · exact (portDev_holds.tmPut _ _).becomes (row.trans ((if_neg fun hx => h (adapter.mp hx)).trans (if_neg hp)))

theorem portRow_capture (hg : TmGood { t with op := 4 }) :
    (0 < o.pin → PortAnswers 0x6B t.obj d.tm.objs d (tmOpRow (.port m) 4 t d)) ∧
    (¬ 0 < o.pin → o.upTier = 0 → PortAnswers 0 t.obj d.tm.objs d (tmOpRow (.port m) 4 t d)) ∧
    (¬ 0 < o.pin → o.upTier ≠ 0 → PortHolds { portOp m 4 t with run := true, quiesce := o.frontier == 0 } d.tm.objs d
      (tmOpRow (.port m) 4 t d)) := by
  have row : ¬ 0 < o.pin → _ := fun hp =>
    (portRow_starts (m := m) ready hg (by simp [WaitsForRun]) fun _ x hx =>
      Option.some.inj (ho.symm.trans hx) ▸ Nat.eq_zero_of_not_pos hp).trans ((tmStart_capture rfl ho).trans (if_neg hp))
  refine ⟨fun hp => ?_, fun hp hu => portRow_fails ready.alone ((row hp).trans (if_pos hu)) (by decide), fun hp hu => ?_⟩
  · exact portRow_fails ready.alone ((portRow_submits ready.idle).trans (tmSubmit_pinned (portAsked_alone ready.alone) hg.1 hg.2 rfl ho hp)) (by decide)
  · exact portDev_holds.becomes ((row hp).trans (if_neg hu))

theorem portRow_pin (hg : TmGood { t with op := 5 }) :
    (o.pin = 255 → PortAnswers 0x6D t.obj d.tm.objs d (tmOpRow (.port m) 5 t d)) ∧
    (o.pin ≠ 255 → PortAnswers 0 t.obj (mput d.tm.objs t.obj { o with pin := o.pin + 1 }) d (tmOpRow (.port m) 5 t d)) := by
  have row := (portRow_starts (m := m) ready hg (by simp [WaitsForRun]) (by simp)).trans (tmStart_pin rfl ho)
  exact ⟨fun h => portRow_fails ready.alone (row.trans (if_pos h)) (by decide),
    fun h => (portDev_holds.tmPut _ _).portAnswers (p := portOp m 5 t) ready.alone rfl (row.trans (if_neg h)) (by decide)⟩

theorem portRow_unpin (hg : TmGood { t with op := 6 }) :
    (o.pin = 0 → PortAnswers 0x6E t.obj d.tm.objs d (tmOpRow (.port m) 6 t d)) ∧
    (o.pin ≠ 0 → PortAnswers 0 t.obj (mput d.tm.objs t.obj { o with pin := o.pin - 1 }) d (tmOpRow (.port m) 6 t d)) := by
  have row := (portRow_starts (m := m) ready hg (by simp [WaitsForRun]) (by simp)).trans (tmStart_unpin rfl ho)
  exact ⟨fun h => portRow_fails ready.alone (row.trans (if_pos h)) (by decide),
    fun h => (portDev_holds.tmPut _ _).portAnswers (p := portOp m 6 t) ready.alone rfl (row.trans (if_neg h)) (by decide)⟩

theorem portRow_flush (hg : TmGood { t with op := 7 }) :
    (¬ (∃ i, i < o.frontier ∧ isDirty d o (o.upFirst + i) = true) → PortAnswers 0 t.obj d.tm.objs d (tmOpRow (.port m) 7 t d)) ∧
    ((∃ i, i < o.frontier ∧ isDirty d o (o.upFirst + i) = true) →
      PortHolds { portOp m 7 t with run := true } d.tm.objs d (tmOpRow (.port m) 7 t d)) := by
  have row := (portRow_starts (m := m) ready hg (by simp [WaitsForRun]) (by simp)).trans (tmStart_flush rfl ho)
  have dirty : ((List.range o.frontier).any fun i => isDirty (portDev m 7 t d) o (o.upFirst + i)) = true ↔
      ∃ i, i < o.frontier ∧ isDirty d o (o.upFirst + i) = true := by
    simp only [portDev_meets.isDirty, List.any_eq_true, List.mem_range]
  exact ⟨fun h => portRow_fails ready.alone (row.trans (if_neg fun hx => h (dirty.mp hx))) (by decide),
    fun h => portDev_holds.becomes (row.trans (if_pos (dirty.mpr h)))⟩

/-- What a PROMOTE that meets no refusal starts from: the placement that it names, or frames for one. -/
theorem portRow_promotes (hg : TmGood { t with op := 3 }) (hrun : t.flagsTier ≠ 2 ∨ gf d Reg.PMU_STAT F.PMU_STAT_STATE = 0) :
    (promoteBad o t d → PortAnswers 0x60 t.obj d.tm.objs d (tmOpRow (.port m) 3 t d)) ∧
    (¬ promoteBad o t d → t.flagsTier = 1 → isT1 o.back = true → PortAnswers 0x67 t.obj d.tm.objs d (tmOpRow (.port m) 3 t d)) ∧
    (¬ promoteBad o t d → t0Lost t d → PortAnswers 0x68 t.obj d.tm.objs d (tmOpRow (.port m) 3 t d)) ∧
    (¬ promoteBad o t d → ¬ (t.flagsTier = 1 ∧ isT1 o.back = true) → ¬ t0Lost t d →
      tmOpRow (.port m) 3 t d = promotePlace (portOp m 3 t) o (portDev m 3 t d)) := by
  have row := (portRow_starts (m := m) ready hg (fun h => hrun.elim (· h.2.1) h.2.2) (by simp)).trans (tmStart_promote rfl ho)
  have bad : (t.backFirst ≥ o.size ∨ (t.kindMode = 1 ∧ counterValue (portDev m 3 t d) t.counter = none)) ↔ promoteBad o t d := by
    rw [portDev_meets.counterValue]
    rfl
  have home : (decide (t.flagsTier = 1) && isT1 o.back) = true ↔ t.flagsTier = 1 ∧ isT1 o.back = true := by simp
  have lost := t0Lost_iff (t := t) (portDev_meets (m := m) (k := 3) (t := t) (d := d))
  refine ⟨fun h => ?_, fun h h1 hb => ?_, fun h hl => ?_, fun h h1 hl => ?_⟩
  · exact portRow_fails ready.alone (row.trans (if_pos (bad.mpr h))) (by decide)
  · exact portRow_fails ready.alone (row.trans ((if_neg fun hx => h (bad.mp hx)).trans (if_pos (home.mpr ⟨h1, hb⟩)))) (by decide)
  · have other : ¬ (t.flagsTier = 1 ∧ isT1 o.back = true) := fun hx => by
      have := hl.1
      omega
    exact portRow_fails ready.alone (row.trans ((if_neg fun hx => h (bad.mp hx)).trans
      ((if_neg fun hx => other (home.mp hx)).trans (if_pos (lost.mpr hl))))) (by decide)
  · exact row.trans ((if_neg fun hx => h (bad.mp hx)).trans ((if_neg fun hx => h1 (home.mp hx)).trans (if_neg fun hx => hl (lost.mp hx))))

omit ho
variable (row : tmOpRow (.port m) 3 t d = promotePlace (portOp m 3 t) o (portDev m 3 t d))
include row

theorem portRow_promote_placed (hu : o.upTier ≠ 0) (hs : samePlace o t = true) :
    (promoteEnd o t ≤ o.frontier + o.upFirst → PortAnswers 0 t.obj d.tm.objs d (tmOpRow (.port m) 3 t d)) ∧
    (o.frontier + o.upFirst < promoteEnd o t → PortHolds { portOp m 3 t with run := true, upTo := promoteEnd o t } d.tm.objs d
      (tmOpRow (.port m) 3 t d)) := by
  have goes := row.trans (promotePlace_placed (op := portOp m 3 t) hu hs)
  exact ⟨fun h => portRow_fails ready.alone (goes.trans (if_pos h)) (by decide),
    fun h => portDev_holds.becomes (goes.trans (if_neg (Nat.not_le.mpr h)))⟩

theorem portRow_promote_noRoom (hu : o.upTier = 0) (hf : pickRun d t.flagsTier t.engine t.frame t.sizeCount = none) :
    PortAnswers 0x69 t.obj d.tm.objs d (tmOpRow (.port m) 3 t d) :=
  portRow_fails ready.alone (row.trans (promotePlace_noRoom (.inl hu) ((portDev_meets.pickRun _ _ _ _).trans hf))) (by decide)

theorem portRow_promote_elsewhere {f : Nat} (hu : o.upTier ≠ 0) (hs : samePlace o t = false)
    (hf : pickRun d t.flagsTier t.engine t.frame t.sizeCount = some f) (hk : t.kindMode = 0) :
    PortAnswers 0x6A t.obj d.tm.objs d (tmOpRow (.port m) 3 t d) := by
  have goes := row.trans (promotePlace_room (.inr hs) ((portDev_meets.pickRun _ _ _ _).trans hf) hk)
  exact portRow_fails ready.alone (goes.trans (if_pos hu)) (by decide)

omit ready
theorem portRow_promote_reserves {f : Nat} (hu : o.upTier = 0)
    (hf : pickRun d t.flagsTier t.engine t.frame t.sizeCount = some f) (hk : t.kindMode = 0) :
    PortHolds { portOp m 3 t with run := true, upTo := promoteEnd o t } (mput d.tm.objs t.obj (reserved (portOp m 3 t) f o)) d
      (tmOpRow (.port m) 3 t d) := by
  have goes := row.trans (promotePlace_room (.inl hu) ((portDev_meets.pickRun _ _ _ _).trans hf) hk)
  exact (portDev_holds.tmPut _ _).becomes (goes.trans (if_neg (not_not.mpr hu)))

end

/-! ### A PLACE of the port (R455) -/

section
variable {d : Dev} {t : TmDesc} {m n : Nat}

theorem placeNumber_full (ht : t.obj = 0xFFFF) (h : ∀ i, i < 16384 → tmObj d i ≠ none) : placeNumber t d = none := by
  unfold placeNumber findBelow
  rw [if_pos ht, List.find?_range_eq_none]
  intro i hi
  obtain ⟨o, ho⟩ := Option.ne_none_iff_exists'.mp (h i hi)
  have listed : mhas d.tm.objs i = true := Option.isSome_of_eq_some ho
  simp [listed]

theorem placeNumber_first (h : if t.obj = 0xFFFF then n < 16384 ∧ tmObj d n = none ∧ ∀ i, i < n → tmObj d i ≠ none else n = t.obj) :
    placeNumber t d = some n := by
  unfold placeNumber findBelow
  split at h
  · rename_i ht
    obtain ⟨hn, free, taken⟩ := h
    have unlisted : mhas d.tm.objs n = false := Option.isSome_eq_false_iff.mpr (Option.isNone_iff_eq_none.mpr free)
    rw [if_pos ht, List.find?_range_eq_some]
    refine ⟨by rw [unlisted]; rfl, List.mem_range.mpr hn, fun i hi => ?_⟩
    obtain ⟨o, ho⟩ := Option.ne_none_iff_exists'.mp (taken i hi)
    have listed : mhas d.tm.objs i = true := Option.isSome_of_eq_some ho
    simp [listed]
  · rename_i ht
    rw [if_neg ht, h]

variable (ready : PortReady d) (hg : TmGood { t with op := 1 })
include ready hg

theorem portRow_place_full (hn : placeNumber t d = none) : PortAnswers 0x64 t.obj d.tm.objs d (tmOpRow (.port m) 1 t d) :=
  portRow_fails ready.alone ((portRow_starts ready hg (by simp [WaitsForRun]) (by simp)).trans (tmStart_place_full rfl hn)) (by decide)

theorem portRow_place (hn : placeNumber t d = some n) :
    (tmObj d n ≠ none → PortAnswers 0x63 n d.tm.objs d (tmOpRow (.port m) 1 t d)) ∧
    (tmObj d n = none →
      (t.kindMode = 2 ∧ m ≠ 8 → PortAnswers 0x65 n d.tm.objs d (tmOpRow (.port m) 1 t d)) ∧
      (¬ (t.kindMode = 2 ∧ m ≠ 8) → backBad d (.port m) t.backFirst t.sizeCount = true →
        PortAnswers 0x66 n d.tm.objs d (tmOpRow (.port m) 1 t d)) ∧
      (¬ (t.kindMode = 2 ∧ m ≠ 8) → ¬ backBad d (.port m) t.backFirst t.sizeCount = true → backTaken t d →
        PortAnswers 0x69 n d.tm.objs d (tmOpRow (.port m) 1 t d)) ∧
      (¬ (t.kindMode = 2 ∧ m ≠ 8) → ¬ backBad d (.port m) t.backFirst t.sizeCount = true → ¬ backTaken t d →
        PortAnswers 0 n (mput d.tm.objs n (placed t)) d (tmOpRow (.port m) 1 t d))) := by
  have row := (portRow_starts (m := m) ready hg (by simp [WaitsForRun]) (by simp)).trans (tmStart_place rfl (n := n) hn)
  have numbered : PortHolds ((portOp m 1 t).numbered n) d.tm.objs d
      (setOp (portOp m 1 t) ((portOp m 1 t).numbered n) (portDev m 1 t d)) := portDev_holds.setOp _
  have fails : ∀ {code x}, x = tmDone ((portOp m 1 t).numbered n) code (setOp (portOp m 1 t) ((portOp m 1 t).numbered n) (portDev m 1 t d)) →
      code < 256 ∧ code ≠ 0x6C → PortAnswers code n d.tm.objs d x := fun h hc => numbered.portAnswers ready.alone rfl h hc
  have adapter : (decide (t.kindMode = 2) && !(tmArb (.port m))) = true ↔ t.kindMode = 2 ∧ m ≠ 8 := by simp [tmArb]
  have back : backBad (portDev m 1 t d) (.port m) t.backFirst t.sizeCount = backBad d (.port m) t.backFirst t.sizeCount :=
    portDev_meets.backBad _ _ _
  have taken : (isT1 t.backFirst && (List.range t.sizeCount).any (fun i =>
      frameUsed (portDev m 1 t d) 1 0 ((t.backFirst - 0x1000000) / 16384 + i))) = true ↔ backTaken t d := by
    simp only [portDev_meets.frameUsed, Bool.and_eq_true, List.any_eq_true, List.mem_range]
    rfl
  refine ⟨fun h => fails (row.trans (if_pos (Option.isSome_iff_ne_none.mpr h))) (by decide), fun h => ?_⟩
  have free := row.trans (if_neg fun hx => Option.isSome_iff_ne_none.mp hx h)
  refine ⟨fun ha => fails (free.trans (if_pos (adapter.mpr ha))) (by decide), fun ha hb => ?_, fun ha hb ht => ?_, fun ha hb ht => ?_⟩
  · exact fails (free.trans ((if_neg fun hx => ha (adapter.mp hx)).trans (if_pos (back.trans hb)))) (by decide)
  · exact fails (free.trans ((if_neg fun hx => ha (adapter.mp hx)).trans ((if_neg fun hx => hb (back.symm.trans hx)).trans
      (if_pos (taken.mpr ht))))) (by decide)
  · exact (numbered.tmPut _ _).portAnswers ready.alone rfl (free.trans ((if_neg fun hx => ha (adapter.mp hx)).trans
      ((if_neg fun hx => hb (back.symm.trans hx)).trans (if_neg fun hx => ht (taken.mp hx))))) (by decide)

end

/-! ### A PIN from a ring (R452, R471) -/

section
variable {d : Dev} {t : TmDesc} {h : CmdHdr} {o : TmObj} {op : TmOp}

theorem tm_finish (code r0 r1 : Nat) : (finish h code r0 r1 d).tm = d.tm :=
  congrArg (fun x : Kept => x.2.2.2.2.2.2.1) (kept_finish h code r0 r1 d)

/-- An operation from a ring that is neither cancelled nor deferred completes its command with its object and FRONTIER. -/
theorem tmDone_ring (hs : op.src = .ring h) (ho : tmObj d op.desc.obj = some o) :
    tmDone op 0 d = finish h 0 (op.desc.obj % 16384 + 2 ^ 32 * o.frontier) 0 (setTm { d.tm with ops := d.tm.ops.erase op } d) := by
  have kept : tmObj (tmConflict 0 (setTm { d.tm with ops := d.tm.ops.erase op } d)) op.desc.obj = some o := ho
  unfold tmDone
  rw [hs]
  dsimp only
  rw [kept]
  rfl

theorem ringPin_ends (ready : PortReady d) (hg : TmGood { t with op := 5 }) (ho : tmObj d t.obj = some o) (hp : o.pin ≠ 255)
    (hn : h.ring < 16) (hh : h.handle = 0) (hf : h.flags ≤ 7) (hr : RingReady d h.ring) (held : mgetD d.rings.held h.ring [] = []) :
    tmObj (tmOpRow (.ring h) 5 t d) t.obj = some { o with pin := o.pin + 1 } ∧
    CplWritten ⟨h, 0, 0, t.obj + 2 ^ 32 * o.frontier, 0, false⟩ d (tmOpRow (.ring h) 5 t d) := by
  let op := tmNew (.ring h) { t with op := 5 }
  let e := tmPut t.obj { o with pin := o.pin + 1 } (tmQueued op (cmdIn h d))
  have pinned : tmObj e t.obj = some { o with pin := o.pin + 1 } := mget_mput_same _ _ _
  have small : t.obj % 16384 = t.obj := by
    have range := hg.2
    simp [tmRangeBad] at range
    omega
  have row : ∃ x : Tm, mget x.objs t.obj = some { o with pin := o.pin + 1 } ∧
      tmOpRow (.ring h) 5 t d = finish h 0 (t.obj + 2 ^ 32 * o.frontier) 0 (setTm x (cmdIn h d)) := by
    refine ⟨{ e.tm with ops := e.tm.ops.erase op }, pinned, ?_⟩
    calc tmOpRow (.ring h) 5 t d = fieldCmd h (h.handle != 0) (fun d => tmSubmit (.ring h) { t with op := 5 } (cmdIn h d)) d := rfl
      _ = tmSubmit (.ring h) { t with op := 5 } (cmdIn h d) := if_neg (by simp [hh, hf])
      _ = tmGo (tmQueued op (cmdIn h d)) := tmSubmit_queued ready.alone hg.1 hg.2 (by simp)
      _ = tmStart op (tmQueued op (cmdIn h d)) := tmGo_queued ready.enabled ready.unasked (by simp [WaitsForRun])
      _ = tmDone op 0 e := (tmStart_pin rfl ho).trans (if_neg hp)
      _ = finish h 0 (t.obj % 16384 + 2 ^ 32 * o.frontier) 0 (setTm { e.tm with ops := e.tm.ops.erase op } e) :=
        tmDone_ring (o := { o with pin := o.pin + 1 }) rfl pinned
      _ = _ := by rw [small]; rfl
  obtain ⟨x, listed, row⟩ := row
  have written := (cplWritten_complete (c := ⟨h, 0, 0, t.obj + 2 ^ 32 * o.frontier, 0, false⟩) (d := setTm x (cmdIn h d)) hn hr held).1
  rw [row]
  refine ⟨?_, written⟩
  unfold tmObj
  rw [tm_finish]
  exact listed

end

/-- The rows of the TM's operations, with their OP (R451). -/
def tmRows : List ((TmSrc → TmDesc → Instr) × Nat) :=
  [(.tmPlace, 1), (.tmFree, 2), (.tmPromote, 3), (.tmCapture, 4), (.tmPin, 5), (.tmUnpin, 6), (.tmFlush, 7)]

theorem exec_tmRows {x : (TmSrc → TmDesc → Instr) × Nat} (hx : x ∈ tmRows) (src : TmSrc) (t : TmDesc) (s : State) :
    exec (x.1 src t) s = liftSys (WellFormed.okTm src t) (tmOpRow src x.2 t) s := by
  simp only [tmRows, List.mem_cons, List.not_mem_nil, or_false] at hx
  rcases hx with rfl | rfl | rfl | rfl | rfl | rfl | rfl <;> rfl

/-- Settles O31: an operation of the port is refused by its descriptor or waits, or it starts, and each kind of operation has its equation. -/
theorem tierOperationsAreAnswered : Obligations.TierOperationsAreAnswered := by
  unfold Obligations.TierOperationsAreAnswered
  intro s m t hs ok d0 alone idle unasked ends fails stays rows op good
  have row : ∀ {P : Dev → Prop}, ∀ x ∈ rows, P (tmOpRow (.port m) x.2 t d0) → Completes (x.1 (.port m) t) s P := fun x hx hP =>
    completes_sys (exec_tmRows hx _ _ _) ok hs hP
  refine ⟨fun he x hx hg hp => row x hx (portRow_waits alone idle he hg hp), fun x hx hf => row x hx (portRow_badField alone idle hf),
    fun x hx hf hr => row x hx (portRow_badRange alone idle hf hr), fun he => ?_⟩
  have ready : PortReady d0 := ⟨alone, idle, unasked, he⟩
  refine ⟨fun x hx h1 hw hg ho => row x hx ?_, fun hg => ⟨fun ht hn => ?_, fun n hn => ?_⟩, fun o ho => ?_⟩
  · exact portRow_absent ready hg h1 (fun ⟨h3, h2, h0⟩ => hw.elim (· h3) (·.elim (· h2) h0)) ho
  · exact completes_sys rfl ok hs (portRow_place_full ready hg (placeNumber_full ht hn))
  · obtain ⟨present, free⟩ := portRow_place ready hg (placeNumber_first hn)
    refine ⟨fun h => completes_sys rfl ok hs (present h), fun h => ?_⟩
    obtain ⟨adapter, back, taken, done⟩ := free h
    exact ⟨fun ha => completes_sys rfl ok hs (adapter ha), fun ha hb => completes_sys rfl ok hs (back ha hb),
      fun ha hb ht => completes_sys rfl ok hs (taken ha hb ht), fun ha hb ht => completes_sys rfl ok hs (done ha hb ht)⟩
  refine ⟨fun hg => ?_, fun hg => ?_, fun hg => ?_, fun hg => ?_, fun hg => ?_, fun hg => ?_⟩
  · obtain ⟨adapter, pinned, frees⟩ := portRow_free ready ho hg
    exact ⟨fun ha => completes_sys rfl ok hs (adapter ha), fun ha hp => completes_sys rfl ok hs (pinned ha hp),
      fun ha hp => completes_sys rfl ok hs (frees ha hp)⟩
  · obtain ⟨pinned, unplaced, captures⟩ := portRow_capture ready ho hg
    exact ⟨fun hp => completes_sys rfl ok hs (pinned hp), fun hp hu => completes_sys rfl ok hs (unplaced hp hu),
      fun hp hu => completes_sys rfl ok hs (captures hp hu)⟩
  · obtain ⟨full, pins⟩ := portRow_pin ready ho hg
    refine ⟨fun hp => completes_sys rfl ok hs (full hp), fun hp => ⟨completes_sys rfl ok hs (pins hp), fun h okh hh hf hr held => ?_⟩⟩
    have okRing : WellFormed.okTm (.ring h) t = true := by
      simp only [WellFormed.okTm, Bool.and_eq_true, and_assoc] at ok ⊢
      exact ⟨okh, ok.2⟩
    exact completes_sys rfl okRing hs (ringPin_ends ready hg ho hp (ring_lt_of_okHdr okh) hh hf hr held)
  · obtain ⟨unpinned, unpins⟩ := portRow_unpin ready ho hg
    exact ⟨fun hp => completes_sys rfl ok hs (unpinned hp), fun hp => completes_sys rfl ok hs (unpins hp)⟩
  · obtain ⟨clean, flushes⟩ := portRow_flush ready ho hg
    exact ⟨fun hd => completes_sys rfl ok hs (clean hd), fun hd => completes_sys rfl ok hs (flushes hd)⟩
  · intro e tier bad hrun
    obtain ⟨beyond, home, lost, goes⟩ := portRow_promotes (m := m) ready ho hg hrun
    refine ⟨fun hb => completes_sys rfl ok hs (beyond hb), fun hb h1 hi => completes_sys rfl ok hs (home hb h1 hi),
      fun hb hl => completes_sys rfl ok hs (lost hb hl), fun hb h1 hl => ?_⟩
    have place := goes hb h1 hl
    refine ⟨fun hu hsame => ?_, fun hu => ⟨fun hf => ?_, fun f hf hk => ?_⟩, fun hu hsame f hf hk => ?_⟩
    · obtain ⟨there, further⟩ := portRow_promote_placed ready place hu hsame
      exact ⟨fun h => completes_sys rfl ok hs (there h), fun h => completes_sys rfl ok hs (further h)⟩
    · exact completes_sys rfl ok hs (portRow_promote_noRoom ready place hu hf)
    · have reserves := portRow_promote_reserves place hu hf hk
      unfold reserved at reserves
      rw [hk] at reserves
      exact completes_sys rfl ok hs reserves
    · exact completes_sys rfl ok hs (portRow_promote_elsewhere ready place hu hsame hf hk)

end Sys2Proof.Machine
end

/-! ## The tier manager: tiles are copied, mappings quiesce, and hot objects move up -/

section
/-! SUPPORT and settlement of O32. -/

namespace Sys2Proof.Machine

/-! ### Stores that lie end to end -/

section
variable {d e f : Dev} {a g n : Nat} {p : Bool} {bs cs : List Byte}

theorem mem_granRange (ha : a % 32 = 0) : g ∈ granRange a n ↔ a ≤ 32 * g ∧ 32 * g < a + n := by
  unfold granRange
  split
  · simp only [List.not_mem_nil, false_iff]
    omega
  · simp only [List.mem_map, List.mem_range]
    constructor
    · rintro ⟨i, hi, rfl⟩
      omega
    · exact fun h => ⟨g - a / 32, by omega, by omega⟩

theorem byteAt_bytesSet (m : List Host.Cell) (a : Nat) (bs : List Byte) (b : Nat) :
    byteAt (bytesSet m a bs) b = if a ≤ b ∧ b < a + bs.length then bs.getD (b - a) 0 else byteAt m b := by
  split
  next hb =>
    have inside := byteAt_bytesSet_in bs m a (b - a) (by omega)
    rw [Nat.add_sub_cancel' hb.1] at inside
    rw [inside, List.getD_eq_getElem]
  next hb => exact byteAt_bytesSet_out _ _ _ _ (by omega)

theorem Stored.nil (a : Nat) (p : Bool) (d : Dev) : Stored a [] p d d := by
  refine ⟨fun b => (if_neg ?_).symm, fun g => (if_neg ?_).symm, fun g => (if_neg ?_).symm⟩
  · simp
  · simp [granRange]
  · simp [granRange]

theorem Stored.append (ha : a % 32 = 0) (hb : bs.length % 32 = 0) (h : Stored a bs p d e) (k : Stored (a + bs.length) cs p e f) :
    Stored a (bs ++ cs) p d f := by
  obtain ⟨hm, hp, he⟩ := h
  obtain ⟨km, kp, ke⟩ := k
  have inside : ∀ g, g ∈ granRange a (bs ++ cs).length ↔ g ∈ granRange (a + bs.length) cs.length ∨ g ∈ granRange a bs.length := fun g => by
    rw [mem_granRange ha, mem_granRange ha, mem_granRange (by omega), List.length_append]
    omega
  refine ⟨fun b => ?_, fun g => ?_, fun g => ?_⟩
  · rw [km, hm, List.length_append]
    by_cases first : b < a + bs.length
    · rw [if_neg (by omega)]
      by_cases low : a ≤ b
      · rw [if_pos ⟨low, first⟩, if_pos (by omega), List.getD_append _ _ _ _ (by omega)]
      · rw [if_neg (by omega), if_neg (by omega)]
    · by_cases second : b < a + bs.length + cs.length
      · rw [if_pos (by omega), if_pos (by omega), List.getD_append_right _ _ _ _ (by omega)]
        congr 1
        omega
      · rw [if_neg (by omega), if_neg (by omega), if_neg (by omega)]
  · rw [kp, hp]
    simp only [inside]
    split <;> simp_all
  · rw [ke, he]
    simp only [inside]
    split <;> simp_all

/-- A whole granule is written whatever it held before. -/
theorem writeGran_whole (hl : bs.length = 32) (ha : Disarmed d) :
    writeGran g 0 bs false d = unmarkG g (errSet g [] (rawStore (32 * g) bs d)) := by
  unfold writeGran
  dsimp only
  rw [if_pos hl]
  exact flipApply_disarmed (d := unmarkG g (errSet g [] (rawStore (32 * g) bs d))) ha g _

theorem stored_writeGran_whole (hl : bs.length = 32) (ha : Disarmed d) : Stored (32 * g) bs false d (writeGran g 0 bs false d) := by
  have one : ∀ x, x ∈ granRange (32 * g) bs.length ↔ x = g := fun x => by
    rw [mem_granRange (by omega), hl]
    omega
  rw [writeGran_whole hl ha]
  refine ⟨byteAt_bytesSet d.mem (32 * g) bs, fun x => ?_, fun x => ?_⟩
  · simp only [one]
    split
    next h => exact h ▸ congrArg Option.isSome (mget_mdel_same d.poison x)
    next h => exact congrArg Option.isSome (mget_mdel_ne d.poison h)
  · simp only [one]
    split
    next h => exact h ▸ mgetD_mdel_same d.errs x []
    next h => exact mgetD_mdel_ne d.errs [] h

theorem memOnly_writeGran_whole (hl : bs.length = 32) (ha : Disarmed d) : MemOnly d (writeGran g 0 bs false d) := by
  rw [writeGran_whole hl ha]
  exact ⟨_, _, _, rfl⟩

end

/-! ### A tile is copied (R454) -/

section
variable {d e : Dev} {src dst i n : Nat}

/-- One granule of a copy. -/
def granCopy (src dst : Nat) (d : Dev) (i : Nat) : Dev :=
  let r := readGran false (src / 32 + i) d
  writeGran (dst / 32 + i) 0 r.1.1 r.1.2 r.2

theorem granCopy_clean (hs : src % 32 = 0) (hd : dst % 32 = 0) (h : poisoned d (src / 32 + i) = false) (he : errOf d (src / 32 + i) = [])
    (ha : Disarmed d) : MemOnly d (granCopy src dst d i) ∧ Stored (dst + 32 * i) (rawBytes d (src + 32 * i) 32) false d (granCopy src dst d i) := by
  have source : 32 * (src / 32 + i) = src + 32 * i := by omega
  have target : 32 * (dst / 32 + i) = dst + 32 * i := by omega
  have written : granCopy src dst d i = writeGran (dst / 32 + i) 0 (rawBytes d (src + 32 * i) 32) false d := by
    unfold granCopy
    rw [readGran_clean _ _ h he, source]
  rw [written]
  exact ⟨memOnly_writeGran_whole (rawBytes_length _ _ _) ha, target ▸ stored_writeGran_whole (rawBytes_length _ _ _) ha⟩

/-- A store leaves the bytes, the marks and the symbol errors outside it alone. -/
theorem Stored.outside {a : Nat} {bs : List Byte} {p : Bool} (h : Stored a bs p d e) (ha : a % 32 = 0) {g : Nat}
    (hg : 32 * g + 32 ≤ a ∨ a + bs.length ≤ 32 * g) :
    poisoned e g = poisoned d g ∧ errOf e g = errOf d g ∧ rawBytes e (32 * g) 32 = rawBytes d (32 * g) 32 := by
  obtain ⟨mem, marks, errs⟩ := h
  have out : g ∉ granRange a bs.length := by
    rw [mem_granRange ha]
    omega
  refine ⟨(marks g).trans (if_neg out), (errs g).trans (if_neg out), List.map_congr_left fun j hj => ?_⟩
  have := List.mem_range.mp hj
  exact (mem _).trans (if_neg (by omega))

/-- The granules of two ranges that do not overlap are copied one after another. -/
theorem granCopy_all (hs : src % 32 = 0) (hd : dst % 32 = 0) (hn : src + 32 * n ≤ dst ∨ dst + 32 * n ≤ src) (hc : Clean d src (32 * n))
    (ha : Disarmed d) : ∀ j ≤ n, MemOnly d ((List.range j).foldl (granCopy src dst) d) ∧
      Stored dst (rawBytes d src (32 * j)) false d ((List.range j).foldl (granCopy src dst) d) := by
  intro j
  induction j with
  | zero => exact fun _ => ⟨⟨_, _, _, rfl⟩, Stored.nil _ _ _⟩
  | succ j ih =>
    intro hj
    obtain ⟨mem, stored⟩ := ih (by omega)
    rw [List.range_succ, List.foldl_append]
    show MemOnly d (granCopy src dst _ j) ∧ Stored _ _ _ _ (granCopy src dst _ j)
    generalize (List.range j).foldl (granCopy src dst) d = e at mem stored
    have clean := hc (src / 32 + j) ((mem_granRange hs).mpr (by omega))
    obtain ⟨marks, errs, bytes⟩ := stored.outside hd (g := src / 32 + j) (by rw [rawBytes_length]; omega)
    rw [show 32 * (src / 32 + j) = src + 32 * j by omega] at bytes
    obtain ⟨next, written⟩ := granCopy_clean (dst := dst) hs hd (marks.trans clean.1) (errs.trans clean.2) ((mem.gb _ _).trans ha)
    refine ⟨mem.trans next, ?_⟩
    rw [Nat.mul_succ, rawBytes_append]
    refine Stored.append hd (by rw [rawBytes_length]; omega) stored ?_
    rw [rawBytes_length, ← bytes]
    exact written

theorem tileCopy_clean (hs : src % 32 = 0) (hd : dst % 32 = 0) (hr : accessCause d src 16384 false = none)
    (hw : accessCause d dst 16384 true = none) (hn : src + 16384 ≤ dst ∨ dst + 16384 ≤ src) (hc : Clean d src 16384) (ha : Disarmed d) :
    ∃ e, tileCopy src dst d = (true, e) ∧ MemOnly d e ∧ Stored dst (rawBytes d src 16384) false d e := by
  obtain ⟨mem, stored⟩ := granCopy_all (n := 512) hs hd hn hc ha 512 (Nat.le_refl _)
  refine ⟨(List.range 512).foldl (granCopy src dst) d, ?_, mem, stored⟩
  unfold tileCopy
  rw [hr, hw]
  rfl

end

/-! ### What ends with an operation -/

section
variable {d e : Dev} {p : TmOp} {o : TmObj} {n m : Nat}

/-- With no write held, a switched mapping lets none proceed. -/
theorem heldFlush_none (h : d.tm.held = []) : heldFlush n d = d := by
  have same : setTm { d.tm with held := [] } d = d := by
    rw [← h]
    rfl
  unfold heldFlush
  dsimp only
  rw [h]
  exact same

/-- The port has answered for an object, and no operation is left at the TM. -/
def PortEnded (code n : Nat) (e : Dev) : Prop := e.tm.ops = [] ∧
  gb e Reg.TM_CMD_STAT F.TM_CMD_STAT_BUSY = false ∧ gb e Reg.TM_CMD_STAT F.TM_CMD_STAT_DONE = true ∧
  gf e Reg.TM_CMD_STAT F.TM_CMD_STAT_OBJ = n ∧ gf e Reg.TM_CMD_STAT F.TM_CMD_STAT_CODE = code ∧ icPending e 92 = true

/-- The port's operation is the only one at the TM, and no write is held. -/
structure PortAlone (p : TmOp) (m n : Nat) (d : Dev) : Prop where
  alone : d.tm.ops = [p]
  source : p.src = .port m
  object : p.desc.obj = n
  small : n < 16384
  unheld : d.tm.held = []

theorem PortAlone.done_tm (h : PortAlone p m n d) : (tmDone p 0 d).tm = { d.tm with ops := [] } := by
  rw [tm_tmDone_port h.source, h.alone]
  simp

theorem PortAlone.done (h : PortAlone p m n d) : tmGo (heldFlush n (tmDone p 0 d)) = tmDone p 0 d := by
  rw [heldFlush_none ((congrArg Tm.held h.done_tm).trans h.unheld)]
  refine tmGo_running ?_
  rw [h.done_tm]
  exact fun _ hx => nomatch hx

theorem PortAlone.ended (h : PortAlone p m n d) : PortEnded 0 n (tmDone p 0 d) := by
  obtain ⟨busy, done, obj, code, pending⟩ := portShows_tmDone (d := d) (code := 0) h.source (by decide)
  rw [h.object, Nat.mod_eq_of_lt h.small] at obj
  exact ⟨congrArg Tm.ops h.done_tm, busy, done, obj, code, pending⟩

theorem PortAlone.touches (h : PortAlone p m n d) {w : Nat → Prop} {c : Dev} (ht : Touches w c d) (hw : w Reg.TM_CMD_STAT.addr) :
    Touches w c (tmDone p 0 d) := ht.tmDone_port h.source hw (by simp)

/-! ### A mapping has quiesced (R448) -/

/-- The entry without its placement. -/
def unplaced (o : TmObj) : TmObj :=
  { o with upTier := 0, upEng := 0, upMode := 0, upFrame := 0, upCount := 0, upFirst := 0, frontier := 0, ctr := 0, ctrLast := 0,
           stuck := false, saved := false, flags := o.flags % 4 }

theorem dropPlace_eq (ho : tmObj d n = some o) :
    ∃ y, dropPlace n d = setTm { d.tm with objs := mput d.tm.objs n (unplaced o), dirty := y } d := by
  have cleared : ∀ (l : List Nat) (d : Dev), ∃ y, l.foldl (fun d i =>
      setTm { d.tm with dirty := mdel d.tm.dirty (dirtyKey o.upTier o.upEng (o.upFrame + i)) } d) d = setTm { d.tm with dirty := y } d := by
    intro l
    induction l with
    | nil => exact fun d => ⟨d.tm.dirty, rfl⟩
    | cons i l ih => exact fun d => ih _
  obtain ⟨y, hy⟩ := cleared (List.range o.upCount) d
  refine ⟨y, ?_⟩
  unfold dropPlace
  rw [ho]
  dsimp only
  rw [hy]
  rfl

theorem mappingQuiesced_none (h : d.tm.ops.find? (fun p => p.run && p.desc.obj == n && p.quiesce) = none) : mappingQuiesced n d = d := by
  unfold mappingQuiesced
  rw [h]

/-- The entries once a mapping has quiesced: without the placement, and after a FREE without the object. -/
def quiescedObjs (p : TmOp) (n : Nat) (o : TmObj) (objs : FMap TmObj) : FMap TmObj :=
  if p.desc.op = 2 then mdel (mput objs n (unplaced o)) n else mput objs n (unplaced o)

/-- A quiesced mapping, with its object after a FREE, is taken away; nothing but the TM's tables changes. -/
def mappingGone (p : TmOp) (n : Nat) (d : Dev) : Dev :=
  let d := dropPlace n d
  if p.desc.op = 2 then setTm { d.tm with objs := mdel d.tm.objs n, reads := mdel d.tm.reads n } d else d

theorem mappingQuiesced_some (h : d.tm.ops.find? (fun p => p.run && p.desc.obj == n && p.quiesce) = some p) :
    mappingQuiesced n d = tmGo (heldFlush n (tmDone p 0 (mappingGone p n d))) := by
  unfold mappingQuiesced
  rw [h]
  rfl

theorem mappingGone_eq (ho : tmObj d n = some o) : ∃ x : Tm, mappingGone p n d = setTm x d ∧
    x.ops = d.tm.ops ∧ x.held = d.tm.held ∧ x.objs = quiescedObjs p n o d.tm.objs := by
  obtain ⟨y, dropped⟩ := dropPlace_eq ho
  unfold mappingGone quiescedObjs
  dsimp only
  rw [dropped]
  split
  · exact ⟨{ d.tm with objs := mdel (mput d.tm.objs n (unplaced o)) n, reads := mdel d.tm.reads n, dirty := y }, rfl, rfl, rfl, rfl⟩
  · exact ⟨{ d.tm with objs := mput d.tm.objs n (unplaced o), dirty := y }, rfl, rfl, rfl, rfl⟩

theorem mappingQuiesced_ends (h : PortAlone p m n d) (hr : p.run = true) (hq : p.quiesce = true) (ho : tmObj d n = some o) :
    PortEnded 0 n (mappingQuiesced n d) ∧ (mappingQuiesced n d).tm.objs = quiescedObjs p n o d.tm.objs ∧
      Touches cmdStat d (mappingQuiesced n d) := by
  have found : d.tm.ops.find? (fun p => p.run && p.desc.obj == n && p.quiesce) = some p := by
    rw [h.alone]
    simp [hr, hq, h.object]
  obtain ⟨x, gone, ops, held, objs⟩ := mappingGone_eq (p := p) ho
  have alone : PortAlone p m n (setTm x d) := ⟨ops.trans h.alone, h.source, h.object, h.small, held.trans h.unheld⟩
  rw [mappingQuiesced_some found, gone, alone.done]
  exact ⟨alone.ended, (congrArg Tm.objs alone.done_tm).trans objs, alone.touches (w := cmdStat) (Touches.mk (Touches.refl d)) rfl⟩

theorem mget_quiescedObjs_ne {k : Nat} (hk : k ≠ n) (objs : FMap TmObj) : mget (quiescedObjs p n o objs) k = mget objs k := by
  unfold quiescedObjs
  split
  · exact (mget_mdel_ne _ hk).trans (mget_mput_ne _ _ hk)
  · exact mget_mput_ne _ _ hk

/-! ### A tile has moved up (R452, R454) -/

theorem tileCopyDone_none (h : d.tm.ops.find? (fun p => p.run && p.desc.obj == n && !p.quiesce && !p.halt) = none ∨ tmObj d n = none) :
    tileCopyDone n d = d := by
  unfold tileCopyDone
  split
  next hp ho =>
    rcases h with h | h
    · exact nomatch hp.symm.trans h
    · exact nomatch ho.symm.trans h
  next => rfl

/-- The object with one tile more in its placement. -/
def oneUp (o : TmObj) : TmObj := { o with frontier := o.frontier + 1 }

/-- The mapping of the tile has switched, and the tile is counted. -/
def tileUp (n : Nat) (o : TmObj) (d : Dev) : Dev :=
  tileCount Reg.TM_TILES_UP (setDirty (oneUp o) (o.upFirst + o.frontier) false (tmPut n (oneUp o) d))

theorem setOp_self (p : TmOp) (d : Dev) : setOp p p d = d := by
  have same : d.tm.ops.map (fun o => if o = p then p else o) = d.tm.ops := by
    conv_rhs => rw [← List.map_id d.tm.ops]
    exact List.map_congr_left fun x _ => by split <;> simp_all
  unfold setOp
  rw [same]
  rfl

theorem tileCopyDone_promote (h : PortAlone p m n d) (hr : p.run = true) (hq : p.quiesce = false) (hh : p.halt = false) (hop : p.desc.op = 3)
    (he : gb d Reg.TM_CTL F.TM_CTL_EN = true) (ho : tmObj d n = some o) (hm : o.upMode ≠ 1)
    (hc : tileCopy (o.back + 16384 * (o.upFirst + o.frontier)) (frameAddr o.upTier o.upEng (tileFrame o (o.upFirst + o.frontier))) d = (true, e)) :
    tileCopyDone n d = tmGo (heldFlush n (if p.upTo ≤ o.upFirst + o.frontier + 1 then tmDone p 0 (tileUp n o e) else tileUp n o e)) := by
  have found : d.tm.ops.find? (fun p => p.run && p.desc.obj == n && !p.quiesce && !p.halt) = some p := by
    rw [h.alone]
    simp [hr, hq, hh, h.object]
  unfold tileCopyDone
  rw [found, ho]
  simp only [he, if_true, setOp_self, hop, hc]
  split
  next last =>
    rw [if_pos (by omega)]
    split
    next hmode _ => exact absurd hmode hm
    next => rfl
  next more => rw [if_neg (by omega)]; rfl

end

section
variable {d e : Dev} {o : TmObj} {n : Nat}

theorem Touches.tileUp {w : Nat → Prop} {c : Dev} (h : Touches w c d) (hw : w Reg.TM_TILES_UP.addr) : Touches w c (tileUp n o d) := by
  have placed : Touches w c (setDirty (oneUp o) (o.upFirst + o.frontier) false (tmPut n (oneUp o) d)) := Touches.mk (Touches.mk h)
  have counted := placed.cntAdd64 Reg.TM_TILES_UP 1 (.inl hw)
  exact counted.whenB _ _ (counted.raise 96)

theorem tilesUp_not_raised : ¬ raised Reg.TM_TILES_UP.addr := by unfold raised; decide

theorem IrqOnly.tileCount (h : IrqOnly d e) (r : Reg) : IrqOnly d (tileCount r e) := by
  unfold Machine.tileCount Machine.whenB
  exact IrqOnly.ite ((h.wr _ _).raise _) (h.wr _ _)

theorem tileUp_tm : ∃ y, (tileUp n o d).tm = { d.tm with objs := mput d.tm.objs n (oneUp o), dirty := y } :=
  ⟨_, ((IrqOnly.refl _).tileCount Reg.TM_TILES_UP).tm⟩

theorem tileUp_count : (rd (tileUp n o d) Reg.TM_TILES_UP).toNat = min ((rd d Reg.TM_TILES_UP).toNat + 1) (2 ^ 64 - 1) := by
  have counted : ∀ x : Dev, (rd (cntAdd64 Reg.TM_TILES_UP 1 x) Reg.TM_TILES_UP).toNat = min ((rd x Reg.TM_TILES_UP).toNat + 1) (2 ^ 64 - 1) := by
    intro x
    unfold cntAdd64
    rw [rd_wr_same, BitVec.toNat_ofNat]
    exact Nat.mod_eq_of_lt (by omega)
  unfold tileUp tileCount whenB
  dsimp only
  split
  · rw [rd_raise _ _ _ tilesUp_not_raised]
    exact counted _
  · exact counted _

end

section
variable {d e : Dev} {p : TmOp} {o : TmObj} {n m : Nat}

theorem frameAddr_aligned (tier eng f : Nat) : frameAddr tier eng f % 32 = 0 := by
  unfold frameAddr tileBase
  split <;> omega

theorem tileUp_alone (h : PortAlone p m n d) : PortAlone p m n (tileUp n o d) := by
  obtain ⟨y, tm⟩ := tileUp_tm (n := n) (o := o) (d := d)
  exact ⟨(congrArg Tm.ops tm).trans h.alone, h.source, h.object, h.small, (congrArg Tm.held tm).trans h.unheld⟩

/-- The registers that a tile's copy writes besides those of an interrupt. -/
def tileRegs (a : Nat) : Prop := a = Reg.TM_TILES_UP.addr ∨ a = Reg.TM_CMD_STAT.addr

/-- What the end of a tile's copy leaves of the device that holds the copied bytes. -/
structure TileMoved (n : Nat) (o : TmObj) (e f : Dev) : Prop where
  objs : f.tm.objs = mput e.tm.objs n (oneUp o)
  frame : Touches tileRegs e f
  count : (rd f Reg.TM_TILES_UP).toNat = min ((rd e Reg.TM_TILES_UP).toNat + 1) (2 ^ 64 - 1)

theorem tileMoved_tileUp : TileMoved n o e (tileUp n o e) := by
  obtain ⟨y, tm⟩ := tileUp_tm (n := n) (o := o) (d := e)
  exact ⟨congrArg Tm.objs tm, (Touches.refl e).tileUp (w := tileRegs) (.inl rfl), tileUp_count⟩

theorem TileMoved.done (h : TileMoved n o e d) (ha : PortAlone p m n d) : TileMoved n o e (tmDone p 0 d) := by
  obtain ⟨objs, frame, count⟩ := h
  have count' : rd (tmDone p 0 d) Reg.TM_TILES_UP = rd d Reg.TM_TILES_UP :=
    (ha.touches (w := cmdStat) (Touches.refl d) rfl).1 _ (by unfold cmdStat; decide) tilesUp_not_raised
  exact ⟨(congrArg Tm.objs ha.done_tm).trans objs, ha.touches frame (.inr rfl), count' ▸ count⟩

/-- A tile's copy that ends is followed by an answer on the last tile, and otherwise by the next tile. -/
theorem tileCopyDone_ends (h : PortAlone p m n d) (hr : p.run = true) (hq : p.quiesce = false) (hh : p.halt = false) (hop : p.desc.op = 3)
    (he : gb d Reg.TM_CTL F.TM_CTL_EN = true) (ho : tmObj d n = some o) (hm : o.upMode ≠ 1) (mem : MemOnly d e)
    (hc : tileCopy (o.back + 16384 * (o.upFirst + o.frontier)) (frameAddr o.upTier o.upEng (tileFrame o (o.upFirst + o.frontier))) d = (true, e)) :
    TileMoved n o e (tileCopyDone n d) ∧
    (p.upTo ≤ o.upFirst + o.frontier + 1 → PortEnded 0 n (tileCopyDone n d)) ∧
    (o.upFirst + o.frontier + 1 < p.upTo → (tileCopyDone n d).tm.ops = [p] ∧ rd (tileCopyDone n d) Reg.TM_CMD_STAT = rd e Reg.TM_CMD_STAT) := by
  have copied : PortAlone p m n e := ⟨(congrArg Tm.ops mem.tm).trans h.alone, h.source, h.object, h.small, (congrArg Tm.held mem.tm).trans h.unheld⟩
  have moved := tileUp_alone (o := o) copied
  rw [tileCopyDone_promote h hr hq hh hop he ho hm hc]
  by_cases last : p.upTo ≤ o.upFirst + o.frontier + 1
  · rw [if_pos last, moved.done]
    exact ⟨tileMoved_tileUp.done moved, fun _ => moved.ended, fun more => absurd last (Nat.not_le.mpr more)⟩
  · have runs : ∀ q ∈ (tileUp n o e).tm.ops, q.run = true := by
      rw [moved.alone]
      exact fun q hq => List.mem_singleton.mp hq ▸ hr
    have shown : rd (tileUp n o e) Reg.TM_CMD_STAT = rd e Reg.TM_CMD_STAT :=
      ((Touches.refl e).tileUp (w := fun a => a = Reg.TM_TILES_UP.addr) rfl).1 _ (by decide) cmdStat_not_raised
    rw [if_neg last, heldFlush_none moved.unheld, tmGo_running runs]
    exact ⟨tileMoved_tileUp, fun hx => absurd hx last, fun _ => ⟨moved.alone, shown⟩⟩

/-! ### The hot interval (R467) -/

theorem hotInterval_off (h : gb d Reg.TM_CTL F.TM_CTL_HOT_EN = false) : hotInterval d = d := if_neg (by simp [h])

theorem hotInterval_idle (he : gb d Reg.TM_CTL F.TM_CTL_HOT_EN = true) (h : ∀ x ∈ d.tm.objs, x.2.flags < 2) :
    hotInterval d = setTm { d.tm with reads := [] } d := by
  have ranked : hotRank d = [] := by
    have none : d.tm.objs.filter (fun p => p.2.kind == 1 && p.2.flags.testBit 1) = [] := List.filter_eq_nil_iff.mpr fun x hx => by
      simp [Nat.testBit_lt_two_pow (i := 1) (h x hx)]
    unfold hotRank
    rw [none]
    rfl
  have kept : d.tm.objs.filter (fun p => p.2.flags.testBit 2 && !([].contains p.1)) = [] := List.filter_eq_nil_iff.mpr fun x hx => by
    simp [Nat.testBit_lt_two_pow (i := 2) (Nat.lt_trans (h x hx) (by decide))]
  unfold hotInterval
  simp only [he, if_true, ranked, hotPick, kept, List.foldl_nil]

/-- The promotion of a whole object to T1 that the hot interval asks for. -/
def hotDesc (n : Nat) (o : TmObj) : TmDesc := ⟨3, 0, 1, 0, n, 0, 0, o.size, 0xFFFF, 0, false⟩

theorem hotDesc_good (hn : n < 16384) (h1 : 1 ≤ o.size) (h2 : o.size ≤ 1024) : TmGood (hotDesc n o) := by
  have range : ¬ 16383 < n := by omega
  have nonempty : o.size ≠ 0 := by omega
  have fits : ¬ 1024 < o.size := by omega
  constructor
  · simp [hotDesc, tmFieldBad, nonempty, fits]
  · simp [hotDesc, tmRangeBad, range]

/-- A promotion at the head of the queue that finds frames reserves them and runs. -/
theorem promotePlace_queued {op : TmOp} {f : Nat} (hu : o.upTier = 0) (hk : op.desc.kindMode = 0)
    (hf : pickRun d op.desc.flagsTier op.desc.engine op.desc.frame op.desc.sizeCount = some f) :
    promotePlace op o (tmQueued op d) =
      setTm { d.tm with objs := mput d.tm.objs op.desc.obj (reserved op f o),
                        ops := [{ op with run := true, upTo := promoteEnd o op.desc }] } d := by
  have meets : TmMeets d (tmQueued op d) := ⟨rfl, rfl, rfl, rfl, rfl, fun _ _ => rfl⟩
  rw [promotePlace_room (.inl hu) ((meets.pickRun _ _ _ _).trans hf) hk, if_neg (not_not.mpr hu)]
  simp [setOp, tmPut, tmQueued, setTm]

theorem tmSubmit_promote {s : TmSrc} {t : TmDesc} (hq : d.tm.ops = []) (he : gb d Reg.TM_CTL F.TM_CTL_EN = true)
    (ha : agentAsked d 33 = false) (hg : TmGood t) (hop : t.op = 3) (ht : t.flagsTier = 1) (hk : t.kindMode = 0)
    (ho : tmObj d t.obj = some o) (hs : t.backFirst < o.size) (hb : isT1 o.back = false) :
    tmSubmit s t d = promotePlace (tmNew s t) o (tmQueued (tmNew s t) d) := by
  have run : ¬ WaitsForRun t d := fun h => by
    have := h.2.1
    omega
  rw [tmSubmit_queued hq hg.1 hg.2 (by simp [hop]), tmGo_queued he ha run, tmStart_promote (op := tmNew s t) (d := tmQueued (tmNew s t) d) hop ho,
    if_neg (by simp [hk, hs]), if_neg (by simp [hb]), if_neg (by simp [ht])]

theorem hotInterval_one (he : gb d Reg.TM_CTL F.TM_CTL_HOT_EN = true) (hobjs : d.tm.objs = [(n, o)]) (hk : o.kind = 1) (hf : o.flags = 2)
    (hu : o.upTier = 0) (hb : isT1 o.back = false) (hs : o.size ≤ gf d Reg.TM_HOT_BUDGET F.TM_HOT_BUDGET_FRAMES) :
    hotInterval d = setTm { (tmSubmit .hot (hotDesc n o) d).tm with reads := [] } (tmSubmit .hot (hotDesc n o) d) := by
  have ranked : hotRank d = [(n, o)] := by
    unfold hotRank
    rw [hobjs, List.filter_cons_of_pos (by rw [hk, hf]; decide)]
    rfl
  have kept : hotPick (gf d Reg.TM_HOT_BUDGET F.TM_HOT_BUDGET_FRAMES) [(n, o)] = [n] := by
    unfold hotPick
    rw [if_neg (by simp [hu, hb, hs])]
    rfl
  have stay : ([(n, o)] : FMap TmObj).filter (fun p => p.2.flags.testBit 2 && !([n].contains p.1)) = [] := by simp
  have listed : tmObj d n = some o := by
    unfold tmObj
    rw [hobjs]
    exact if_pos rfl
  unfold hotInterval
  simp only [he, if_true, ranked, kept, hobjs, stay, List.foldl_cons, List.foldl_nil, listed, hu]
  rfl

/-! ### The TM is enabled and disabled (R472) -/

theorem tmEnable_running (h : ∀ p ∈ d.tm.ops, p.run = true) :
    tmEnable d = setTm { d.tm with ops := d.tm.ops.map (fun o => { o with halt := false }) } (sf Reg.TM_CTL F.TM_CTL_EN 1 d) := by
  refine tmGo_running fun q hq => ?_
  obtain ⟨p, hp, rfl⟩ := List.mem_map.mp hq
  exact h p hp

/-- The hot interval that finds one object to move up (R467). -/
theorem hotInterval_promotes {f : Nat} (he : gb d Reg.TM_CTL F.TM_CTL_HOT_EN = true) (hobjs : d.tm.objs = [(n, o)]) (hq : d.tm.ops = [])
    (hk : o.kind = 1) (hfl : o.flags = 2) (hu : o.upTier = 0) (hb : isT1 o.back = false) (hn : n < 16384) (h1 : 1 ≤ o.size)
    (h2 : o.size ≤ 1024) (hs : o.size ≤ gf d Reg.TM_HOT_BUDGET F.TM_HOT_BUDGET_FRAMES) (hen : gb d Reg.TM_CTL F.TM_CTL_EN = true)
    (ha : agentAsked d 33 = false) (hf : pickRun d 1 0 0xFFFF o.size = some f) :
    hotInterval d = setTm { d.tm with
      reads := [], objs := [(n, { o with upTier := 1, upEng := 0, upMode := 0, upFrame := f, upCount := o.size, upFirst := 0, frontier := 0,
                                         ctr := 0, stuck := false, flags := 6 })],
      ops := [⟨.hot, hotDesc n o, true, false, false, false, o.size⟩] } d := by
  have listed : tmObj d n = some o := by
    unfold tmObj
    rw [hobjs]
    exact if_pos rfl
  have stored : mput d.tm.objs n (reserved (tmNew .hot (hotDesc n o)) f o) = [(n, reserved (tmNew .hot (hotDesc n o)) f o)] := by
    rw [hobjs]
    simp [mput]
  have whole : promoteEnd o (hotDesc n o) = o.size := by
    simp [promoteEnd, hotDesc]
  have moved : tmSubmit .hot (hotDesc n o) d = _ :=
    (tmSubmit_promote hq hen ha (hotDesc_good hn h1 h2) rfl rfl rfl listed h1 hb).trans (promotePlace_queued hu rfl hf)
  rw [hotInterval_one he hobjs hk hfl hu hb hs, moved, whole]
  dsimp only [tmNew]
  rw [show (hotDesc n o).obj = n from rfl, stored]
  simp [reserved, hotDesc, hfl, setTm]

end

/-- Settles O32: a row that no operation waits for changes nothing; a copy and a quiesced mapping end in the device that their lemma
describes; and the hot interval, the disable and the enable each have their equation. -/
theorem tierOperationsRunAndEnd : Obligations.TierOperationsRunAndEnd := by
  unfold Obligations.TierOperationsRunAndEnd
  intro s n m hs hn d0 copies waits answered others stat ctl
  have ok : WellFormed.lt n 16384 = true := decide_eq_true hn
  refine ⟨fun h => completes_sys rfl ok hs (tileCopyDone_none h), fun h => completes_sys rfl ok hs (mappingQuiesced_none h),
    fun o p ho hops hsrc hobj hrun hheld => ?_, fun h => completes_sys rfl rfl hs (hotInterval_off h), fun he => ⟨fun hf => ?_, ?_⟩, ?_,
    fun hrun => ?_⟩
  · have alone : PortAlone p m n d0 := ⟨hops, hsrc, hobj, hn, hheld⟩
    refine ⟨fun hq => ?_, fun hq hh hop he hm => ?_⟩
    · obtain ⟨ended, objs, touches⟩ := mappingQuiesced_ends alone hrun hq ho
      have rest : others (mappingQuiesced n d0) := fun k hk => (congrArg (mget · k) objs).trans (mget_quiescedObjs_ne hk _)
      refine ⟨fun hop => completes_sys rfl ok hs ⟨ended, rest, ?_, touches⟩, fun hop => completes_sys rfl ok hs ⟨ended, rest, touches, ?_⟩⟩
      · exact (congrArg (mget · n) objs).trans (by rw [quiescedObjs, if_pos hop, mget_mdel_same])
      · exact (congrArg (mget · n) objs).trans (by rw [quiescedObjs, if_neg (by omega), mget_mput_same]; rfl)
    · intro src dst o' hback hr hw happart hc ha
      obtain ⟨e, copied, mem, stored⟩ := tileCopy_clean (by omega) (frameAddr_aligned _ _ _) hr hw happart hc ha
      obtain ⟨⟨objs, frame, count⟩, last, more⟩ := tileCopyDone_ends alone hrun hq hh hop he ho hm mem copied
      rw [mem.tm] at objs
      rw [mem.rd] at count more
      refine completes_sys rfl ok hs ⟨fun k hk => (congrArg (mget · k) objs).trans (mget_mput_ne _ _ hk),
        (congrArg (mget · n) objs).trans (mget_mput_same _ _ _), stored.touches frame, count, fun r h1 h2 h3 => ?_, last, more⟩
      exact (frame.1 r (not_or.mpr ⟨h1, h2⟩) h3).trans (mem.rd r)
  · exact completes_sys rfl rfl hs (hotInterval_idle he hf)
  · intro o f hobjs hq hk hfl hu hb h1 h2 hbud hen hask hpick
    exact completes_sys rfl rfl hs (hotInterval_promotes he hobjs hq hk hfl hu hb hn h1 h2 hbud hen hask hpick)
  · exact completes_sys rfl rfl hs ⟨gb_sf_same _ _ _ _ (by decide), rfl, (Touches.refl d0).sf _ _ _ (.inl rfl)⟩
  · have set : gb (sf Reg.TM_CTL F.TM_CTL_EN 1 d0) Reg.TM_CTL F.TM_CTL_EN = true := gb_sf_same _ _ _ _ (by decide)
    have touches : Touches ctl d0 (sf Reg.TM_CTL F.TM_CTL_EN 1 d0) := (Touches.refl d0).sf _ _ _ (.inl rfl)
    refine completes_sys rfl rfl hs ?_
    rw [tmEnable_running hrun]
    exact ⟨set, rfl, Touches.mk touches⟩

end Sys2Proof.Machine
end
